-- ==== Sys2Proof/Word.lean ====
section
/-! DEFINITION. The words the spec's fields, tables and images are made of (00_scope.md R2). -/

namespace Sys2Proof

/-- One byte. -/
abbrev Byte := BitVec 8

/-- One register word of BAR0, and one binary32 value held as its bits (17_register_map.md R449; 02_power_entry.md R40). -/
abbrev Word := BitVec 32

/-- A master agent ID (09_faults.md R249). -/
abbrev Agent := BitVec 8

/-- Byte `k` of a list of bytes; bytes beyond its end read 0. -/
def byteAt (bs : List Byte) (k : Nat) : Nat := (bs.getD k 0).toNat

/-- The little-endian number in bytes `k` to `k + n - 1` (00_scope.md R2). -/
def leNat (bs : List Byte) (k : Nat) : Nat → Nat
  | 0 => 0
  | n + 1 => byteAt bs k + 256 * leNat bs (k + 1) n

/-- The `n` low bytes of a number, the least significant first (00_scope.md R2). -/
def leBytes (v : Nat) : Nat → List Byte
  | 0 => []
  | n + 1 => BitVec.ofNat 8 v :: leBytes (v / 256) n

/-- The two's complement value of the low `n` bits of `v` (00_scope.md R2). -/
def sext (n v : Nat) : Int :=
  if v % 2 ^ n < 2 ^ (n - 1) then (v % 2 ^ n : Nat) else (v % 2 ^ n : Nat) - (2 ^ n : Nat)

/-- The low `n` bits of a signed number (00_scope.md R2). -/
def trunc (n : Nat) (i : Int) : Nat := (i % (2 ^ n : Nat)).toNat

/-- `i` clipped to `lo` and `hi`. -/
def clip (lo hi i : Int) : Int := if i < lo then lo else if hi < i then hi else i

/-- `v + k`, held at `top` (a counter that saturates). -/
def satAdd (top v k : Nat) : Nat := if v + k > top then top else v + k

/-- Bit `b` of a number. -/
def bit (v b : Nat) : Bool := v.testBit b

/-- Bits `hi` to `lo` of a number. -/
def bits (v hi lo : Nat) : Nat := v / 2 ^ lo % 2 ^ (hi + 1 - lo)

/-- `v` with bit `b` set. -/
def setBit (v b : Nat) : Nat := v ||| 2 ^ b

/-- `v` with bit `b` clear. -/
def clrBit (v b : Nat) : Nat := if v.testBit b then v - 2 ^ b else v

/-- 1 for true, 0 for false. -/
def b2n (b : Bool) : Nat := if b then 1 else 0

/-- The quotient rounded to nearest, ties to even. -/
def divEven (a : Int) (b : Nat) : Int :=
  let q := a / b
  let r := a - q * b
  if 2 * r < b then q else if 2 * r > b then q + 1 else if q % 2 = 0 then q else q + 1

/-- The quotient rounded toward zero. -/
def divZero (a : Int) (b : Nat) : Int := if 0 ≤ a then a / b else -((-a) / b)

end Sys2Proof
end

