-- ==== Sys2Proof/Syntax.lean ====
section
/-! DEFINITION. The commands of the block: one constructor of `Instr` per row of spec/opcode_table.json. The table gives
no bits, so the operands are the model's, taken from the rule of each row (log 1). A quantity that the block measures
(a converter code, a thermistor voltage, the bytes a bus partner sends) is an operand of the command that reports it
(log 13). -/

namespace Sys2Proof

/-- Where a descriptor comes from: a host command ring, a core's internal ring, or the BMC's mailbox
(12_host_rings.md R322, R348; 14_two_wire.md R391). -/
inductive Src where
  | host (r : Fin 64)
  | core (c : Fin 21)
  | mailbox
  deriving DecidableEq, Repr

/-- A descriptor without its opcode, which the row names (12_host_rings.md R319). -/
structure Desc where
  /-- the ring it was fetched from -/
  src : Src
  /-- byte 1 bit 0 -/
  irq : Bool := false
  /-- byte 1 bit 1 -/
  sup : Bool := false
  /-- bytes 2-3 -/
  tag : BitVec 16
  /-- TCLASS, bytes 4-5 bits 15:12 -/
  cls : BitVec 4
  /-- TINDEX, bytes 4-5 bits 11:0 -/
  idx : BitVec 12
  /-- a bit of byte 1 bits 7:2 or of bytes 6-15 is set -/
  dirty : Bool := false
  /-- bytes 16-63 -/
  payload : List Byte
  deriving DecidableEq, Repr

/-- A mode request: a MODE_REQUEST descriptor, or a write of MODE_REQ by an agent (10_modes_startup.md R272). -/
inductive Req where
  | desc (d : Desc)
  | reg (a : Agent)
  deriving DecidableEq, Repr

/-- A host write to BAR2: its offset, its eight bytes, and whether it is one 8-byte write (12_host_rings.md R317). -/
structure Doorbell where
  off : BitVec 20
  data : BitVec 64
  whole : Bool := true
  deriving DecidableEq, Repr

/-- A result queue entry with its full stamp and the 8-bit extension of class 4 (07_conversion.md R214, R215). -/
structure Entry where
  tag : BitVec 12
  stamp : Nat
  value : BitVec 16
  ext : BitVec 8 := 0
  cal : Bool := false
  inj : Bool := false
  spec : Bool := false
  win : Bool := false
  deriving DecidableEq, Repr

/-- The straps as the pins show them (10_modes_startup.md R275). -/
structure Straps where
  factoryN : Bool := true
  bootSel : Bool := false
  keepStay : Bool := false
  deriving DecidableEq, Repr

/-- One ECV triple: the I, VIN and VOUT codes of one instant (02_power_entry.md R31). -/
structure EcvTriple where
  i : BitVec 14
  vin : BitVec 14
  vout : BitVec 14
  deriving DecidableEq, Repr

/-- A comparator of a rail, and the voltage it sees in microvolts (04_rail_loom.md R102, R115; log 13). -/
structure RailVolts where
  rail : Fin 64
  uv : BitVec 24
  deriving DecidableEq, Repr

/-- The broadcast that reaches a die, and the ticks by which the die's copy of Thyme has drifted since the last (11_clocks_time.md R301;
log 13). -/
structure DieDrift where
  die : Fin 5
  drift : Int
  deriving DecidableEq, Repr

/-- A sample of the lines of a two-wire port: the port, and the level of SCL (14_two_wire.md R378; log 32). -/
structure LineAt where
  port : Fin 16
  scl : Bool
  deriving DecidableEq, Repr

/-- A load frame received whole, with no code or disparity error: its sequence byte, payload bytes 0-3 and CRC-8 (06_load_intent.md R149,
R150). -/
structure Frame where
  seq : Byte
  payload : Word
  crc : Byte
  deriving DecidableEq, Repr

/-- The estimator's figures for one slice at a correction update: SKEW only if the input carried timing information
(07_conversion.md R188). -/
structure Estimate where
  slice : Fin 8
  ofs : Int
  gain : Int
  skew : Option Int
  deriving DecidableEq, Repr

/-- What a foreground calibration measured for a slice: the OFS and GAIN it needs (07_conversion.md R194). -/
structure CalResult where
  ofs : Int
  gain : Int
  deriving DecidableEq, Repr

/-- One sample of a region monitor: supply in mV, junction temperature in C, skew in 5 ps (11_clocks_time.md R309). -/
structure RegionDiff where
  supply : Int
  temp : Int
  skew : Int
  deriving DecidableEq, Repr

/-- What the receiver made of one codeword: its header's fields, what the decoder found, and its 640 bytes of the flit stream, of
which those that are not listed are 0 (13_stream_link.md R352, R355; log 14). -/
structure Codeword where
  sync : Bool := true
  lane : Fin 8 := 0
  cwc : BitVec 12 := 0
  uncorrectable : Bool := false
  corrected : Nat := 0
  data : List Byte := []
  deriving DecidableEq, Repr

/-- How the bus answered a controller transfer (14_two_wire.md R386). -/
inductive BusResult where
  | done (rdata : List Byte)              -- every byte acknowledged; the bytes read
  | nackAddr (second : Bool)              -- an address byte was not acknowledged: the first, or the one after a repeated START
  | nackData (n : Nat) (rdata : List Byte)  -- written byte n (from 0) was not acknowledged; if it was the last, the bytes read then
  | pecBad (rdata : List Byte)            -- the received PEC mismatches
  deriving DecidableEq, Repr

/-- What the controller did in a target read (14_two_wire.md R389-R394). -/
structure BusRead where
  /-- pointer bytes written in the same combined message -/
  ptr : List Byte := []
  /-- with PEC, the byte count n and the PEC byte that followed the pointer -/
  pec : Option (Byte × Byte) := none
  /-- bytes the device sent -/
  sent : Nat
  /-- the controller acknowledged the last of them too -/
  ackLast : Bool := false
  deriving DecidableEq, Repr

/-- The submit byte of the mailbox and, with PEC, the PEC byte after it (14_two_wire.md R391, R394). -/
structure BoxSubmit where
  byte : Byte
  pec : Option Byte := none
  deriving DecidableEq, Repr

/-- The rest of a PMBus transfer: the bytes written after the command's own, and the bytes the controller reads
(14_two_wire.md R395). -/
structure PmbTail where
  /-- the byte written beyond what the command needs, taken as PEC -/
  pec : Option Byte := none
  /-- bytes read -/
  reads : Nat := 0
  deriving DecidableEq, Repr

/-- The flash on the Quad-SPI balls: its contents from address 0 up, its size, whether it powers up in 3-byte addressing with quad output
enabled, and whether its data is valid and held at the ball as it must be (18_package_electrical.md R480; log 39). -/
structure Flash where
  data : List Byte
  size : Nat := 0x1000000
  quad : Bool := true
  timing : Bool := true
  deriving DecidableEq, Repr

/-- The flash meets the conditions of 18_package_electrical.md R480. -/
def Flash.ok (f : Flash) : Bool := decide (0x1000000 ≤ f.size) && f.quad && f.timing

/-- A read on the register path: its first byte, how many bytes, and the byte enables, of which those that are not listed are 1
(17_register_map.md R449, R457). -/
structure ReadAt where
  off : BitVec 24
  len : Nat := 4
  enable : List Bool := []
  deriving DecidableEq, Repr

/-- One command: one row of the operation table (spec/opcode_table.json). -/
inductive Instr where
  /-- NOP (R321): Descriptor that does nothing and completes on acceptance. -/
  | nop (d : Desc)
  /-- FENCE (R346): Descriptor that waits for earlier descriptors of its ring and then places markers in its scopes. -/
  | fence (d : Desc)
  /-- FENCE_MARKER_PLACE (R346): At t_f the device places the fence's markers in every scope, and the fence completes once all are written. -/
  | fenceMarkerPlace
  /-- MODE_REQUEST_CONFIGURE (R286): Mode request that stops the up table and runs the down table from entry 64. -/
  | modeRequestConfigure (q : Req)
  /-- MODE_REQUEST_RAMP (R283): Mode request that runs the CONFIGURE exit checks, samples the configuration and enters RAMP. -/
  | modeRequestRamp (q : Req)
  /-- MODE_REQUEST_RUN (R272): Mode request from a halted RAMP that abandons the halted entry and enters RUN. -/
  | modeRequestRun (q : Req)
  /-- MODE_REQUEST_SAFE (R289): Mode request, accepted from any agent, that enters SAFE. -/
  | modeRequestSafe (q : Req)
  /-- MODE_REQUEST_CLEAR_SAFE (R291): Mode request in SAFE that sets CLEAR_ARMED so that the next reset enters CONFIGURE. -/
  | modeRequestClearSafe (q : Req)
  /-- TIME_ALIGN (R303): Descriptor that sets the epoch at acceptance, or claims a timer and waits for the next PPS_IN edge. -/
  | timeAlign (d : Desc)
  /-- TIME_ALIGN_TIMEOUT (R303): No PPS edge arrives within 1.25 s, so the alignment completes with PPS_ABSENT and releases the timer. -/
  | timeAlignTimeout
  /-- RES_CLAIM (R23): Descriptor that claims an ownership table entry, decided by the ordered cases of R23. -/
  | resClaim (d : Desc)
  /-- RES_RELEASE (R26): Descriptor that releases an ownership table entry, decided by the ordered cases of R26. -/
  | resRelease (d : Desc)
  /-- RAIL_SET (R109): Descriptor that checks and commits a new rail target and slew. -/
  | railSet (d : Desc)
  /-- RAIL_ENABLE (R111): Descriptor that samples RAIL_CFG and starts the rail in wide-range mode. -/
  | railEnable (d : Desc)
  /-- RAIL_DISABLE (R108): Descriptor that disables the rail at once or ramps it down, according to DIS_MODE and the rail state. -/
  | railDisable (d : Desc)
  /-- PHASE_MASK (R128): Descriptor that checks a new phase mask and makes it pending until a boundary. -/
  | phaseMask (d : Desc)
  /-- COEF_LOAD (R97): Descriptor that writes the shadow coefficient set and sets PENDING. -/
  | coefLoad (d : Desc)
  /-- FUSE_POLICY_LOAD (R71): Descriptor that checks and loads a fuse policy record, effective at t_L. -/
  | fusePolicyLoad (d : Desc)
  /-- TABLE_LOAD (R334): Descriptor that reads a table image from host memory, checks it and replaces the table whole. -/
  | tableLoad (d : Desc) (err : Bool)
  /-- SEQ_LOAD (R205): Descriptor that writes a shadow SCV sequence table and optionally commits it. -/
  | seqLoad (d : Desc)
  /-- THREAD_OPEN (R336): Descriptor that checks a thread configuration and opens or arms the thread. -/
  | threadOpen (d : Desc)
  /-- THREAD_MODIFY (R339): Descriptor that changes a thread's filter or capture fields, re-arms it or triggers it. -/
  | threadModify (d : Desc)
  /-- THREAD_CLOSE (R340): Descriptor that stops a thread's filtering and discards its partial window. -/
  | threadClose (d : Desc)
  /-- THREAD_CLOSE_DONE (R340): The closed thread's output has been written or dropped, so THREAD_STATUS CLOSED is written and the close completes. -/
  | threadCloseDone (t : Fin 4096)
  /-- UNFENCE (R264): Descriptor that lifts the fence or latch of one unit under that unit's own rules. -/
  | unfence (d : Desc)
  /-- FAULT_ACK (R262): Descriptor that checks a fault record's class and count and frees its slot. -/
  | faultAck (d : Desc)
  /-- PACK_RESTORE (R242): Descriptor that checks a Sage record and restores the pack's learned state. -/
  | packRestore (d : Desc)
  /-- PACK_READ (R243): Descriptor that builds a Sage record of the pack and completes when the record is written. -/
  | packRead (d : Desc)
  /-- DESCRIPTOR_FETCH (R322): The ring engine fetches an eligible descriptor round-robin once the outstanding limits allow. -/
  | descriptorFetch
  /-- DESC_FETCH_TIMEOUT (R330): A descriptor fetch gets no completion within STALL_T, so the ring goes HALTED and DESC_FAULT is raised. -/
  | descFetchTimeout (r : Src)
  /-- DESC_FETCH_ERROR (R330): A descriptor fetch completes with an error, so the ring goes HALTED. -/
  | descFetchError (r : Src)
  /-- COMPLETION_RETIRE (R325): A completed descriptor retires in submission order and its completion record is written. -/
  | completionRetire (r : Src)
  /-- EVENT_RECORD_WRITE (R328): A held event record is written once its ring is ACTIVE and has room. -/
  | eventRecordWrite (e : Fin 256)
  /-- ITR_WINDOW_CLOSE (R329): The interrupt moderation window of a ring closes and its MSI-X vector is raised. -/
  | itrWindowClose (r : Fin 384)
  /-- RING_STALL (R330): A completion or event ring stays full with a record waiting for STALL_T ticks, which raises RING_STALL. -/
  | ringStall (r : Fin 384)
  /-- RING_ENABLE (R316): A write of EN = 1 to a ring checks its size, base and CQ and enables it with its indices at 0. -/
  | ringEnable (a : Agent) (r : Fin 384)
  /-- RING_DISABLE (R316): A write of EN = 0 drains a command ring or disables an event ring. -/
  | ringDisable (a : Agent) (r : Fin 384)
  /-- RING_DRAINED (R316): The last fetched descriptor of a draining command ring retires, and the ring becomes DISABLED. -/
  | ringDrained (r : Fin 64)
  /-- DOORBELL_COMMAND (R318): A command ring doorbell advances the producer index and makes descriptors eligible. -/
  | doorbellCommand (w : Doorbell)
  /-- DOORBELL_COMPLETION (R318): A completion ring doorbell returns space by advancing the consumer index. -/
  | doorbellCompletion (w : Doorbell)
  /-- DOORBELL_EVENT (R318): An event ring doorbell returns space by advancing the consumer index. -/
  | doorbellEvent (w : Doorbell)
  /-- DOORBELL_ARCHIVE (R343): Doorbell 0x180 returns archive pages to the spool's free pool in report order. -/
  | doorbellArchive (w : Doorbell)
  /-- DOORBELL_THREAD (R344): A thread doorbell returns host-managed archive space in 64 KiB units. -/
  | doorbellThread (w : Doorbell)
  /-- IR_DB (R348): A core writes its internal ring producer index, which makes its descriptors eligible. -/
  | irDb (a : Agent) (c : Fin 21) (v : Word)
  /-- HEARTBEAT (R313): Every HB_PERIOD ticks the device writes Thyme and the status copies to the status block. -/
  | heartbeat
  /-- HOST_LINK_DOWN (R331): The PCIe link goes down or PE_PERST_N asserts, so every host ring is disabled and HOST_LINK is raised. -/
  | hostLinkDown
  /-- THREAD_DATA_FLUSH (R342): A THREAD_DATA record is written 800 ticks after its first entry was produced. -/
  | threadDataFlush (t : Fin 4096)
  /-- RQ_ENTRY (R216): A forwarded sample or window event reaches the hub and enters each result queue segment that sources it, where the thread filters act. -/
  | rqEntry (e : Entry)
  /-- RQ_POP (R216): A read of RQ_POP_LO by the owning core removes the head entry of its segment. -/
  | rqPop (a : Agent) (s : Fin 16)
  /-- THYME_LO_READ (R302): A read of THYME_LO returns the low count and latches the high bits for that accessor. -/
  | thymeLoRead (a : Agent)
  /-- REGISTER_READ_CLEAR (R5): A read of an RC field returns the value and clears it, keeping any coincident hardware update. -/
  | registerReadClear (a : Agent) (off : ReadAt)
  /-- REGISTER_WRITE (R450): A write to a register that has no row of its own, under the access codes and the write-ignored rules. -/
  | registerWrite (a : Agent) (off : BitVec 24) (v : List Byte) (enable : List Bool)
  /-- MODE_UNLOCK (R292): A write to MODE_UNLOCK advances the two-write unlock sequence, which enters FACTORY when complete. -/
  | modeUnlock (a : Agent) (v : Word)
  /-- MODE_RESET (R276): A write of 0x0000_A5C3 to MODE_RESET resets the device outside the standby island. -/
  | modeReset (a : Agent) (v : Word) (st : Straps)
  /-- BOOT_CTL_GO (R281): A write of GO on the open host path starts authentication of a host-loaded image. -/
  | bootCtlGo (a : Agent)
  /-- FLT_SAFE_CLR (R266): A write of CLR in CONFIGURE empties FLT_SAFE. -/
  | fltSafeClr (a : Agent)
  /-- CAL_START (R195): A write of CAL_START requests foreground calibration of a converter, or defers or refuses it. -/
  | calStart (a : Agent) (c : Fin 632)
  /-- SEQ_CTL_TRIG (R204): A write of TRIG is a software trigger when TRIG_SRC is 0x01. -/
  | seqCtlTrig (a : Agent) (k : Fin 8)
  /-- INJ_REQ (R207): A write to INJ_REQ makes an injected SCV conversion request, or refuses or drops it. -/
  | injReq (a : Agent) (k : Fin 8) (v : BitVec 6)
  /-- IP_CTL_RESTORE (R175): A write of RESTORE ends the port's throttling and empties its credit window. -/
  | ipCtlRestore (a : Agent) (n : Fin 32)
  /-- TW_XCTL_GO (R386): A write of GO by the owning agent starts a controller transfer on a two-wire block. -/
  | twXctlGo (a : Agent) (n : Fin 16) (v : Word)
  /-- TW_ALERT_REQ (R385): A write of REQ sets the block's attention PENDING. -/
  | twAlertReq (a : Agent) (n : Fin 16)
  /-- FLT_INJ_FIRE (R269): A write of FIRE in FACTORY arms a fault injection to occur DELAY ticks later. -/
  | fltInjFire (a : Agent)
  /-- FAULT_INJECTION (R269): An armed injection occurs through the message, comparator, memory or lockstep path. -/
  | faultInjection
  /-- CORE_CTL_HALT (R422): A write of HALT halts the core. -/
  | coreCtlHalt (a : Agent) (c : Fin 21)
  /-- CORE_CTL_START (R404): A write of START starts a HALTED core from its entry address. -/
  | coreCtlStart (a : Agent) (c : Fin 21)
  /-- CORE_KICK (R426): The core writes the key to CORE_KICK and restarts its watchdog window. -/
  | coreKick (a : Agent) (c : Fin 21) (v : Word)
  /-- CORE_SIGNAL (R420): A write of 1 to CORE_SIGNAL sets the edge event bit 2 of CORE_PEND. -/
  | coreSignal (a : Agent) (c : Fin 21)
  /-- MEM_TAKE (R442): A write of a bank index in FACTORY takes that bank offline without a fault. -/
  | memTake (a : Agent) (b : BitVec 12)
  /-- MEM_RAW_READ (R442): A raw read of an offline granule returns its data, checks and syndromes without decoding. -/
  | memRawRead (a : Agent)
  /-- MEM_RAW_WRITE (R442): A raw write stores data and check bits of an offline granule exactly as held. -/
  | memRawWrite (a : Agent)
  /-- REG_WRITE (R279): Configuration record that writes a register under a mask, as agent 0x35 in CONFIGURE. -/
  | regWriteRecord
  /-- REG_BLOCK (R279): Configuration record that writes consecutive register words. -/
  | regBlockRecord
  /-- CLAIM (R279): Configuration record that claims a resource for a named agent. -/
  | claimRecord
  /-- CORE_SECTION (R427): Image record that writes code or data into a core's local memory and may set its entry address. -/
  | coreSectionRecord
  /-- BOOT_LOAD (R277): After memory initialisation and calibration, the boot ROM loads the image from flash or waits for the host. -/
  | bootLoad (flash : Flash)
  /-- IMAGE_CHECK (R280): The loaded image is checked for format, key, signature and rollback, in that order. -/
  | imageCheck
  /-- IMAGE_APPLIED (R427): Every record has been applied, so APPLIED is set and cores with code are released. -/
  | imageApplied
  /-- VSTBY_RISE (R271): VSTBY reaches its threshold, the standby banks initialise, and the device enters STANDBY. -/
  | vstbyRise
  /-- VSTBY_LOSS (R237): VSTBY falls below its retention level, and all standby island state is lost. -/
  | vstbyLoss
  /-- MAIN_SUPPLY_FAIL (R462): A main-supply monitor reports failure, and the device enters STANDBY. -/
  | mainSupplyFail
  /-- SUPPLIES_GOOD (R274): Every main supply has been good for 32,000 standby cycles, so the dice leave reset into CONFIGURE or SAFE. -/
  | suppliesGood (st : Straps)
  /-- RESET_N (R476): RESET_N is sampled low on 16 consecutive standby cycles, which is a device reset. -/
  | resetN (st : Straps)
  /-- PE_PERST_N (R276): PE_PERST_N resets only the PCIe endpoint and the ring engine, and HOST_LINK is raised. -/
  | pePerstN
  /-- SAFE_DELAY_EXPIRE (R289): SAFE_DELAY after SAFE entry, every branch turns off, and entry channels too with SAFE_ENTRY_OFF = 1. -/
  | safeDelayExpire
  /-- ENTRY_ON (R36): Power sequence entry that makes an on request to an entry channel. -/
  | entryOn
  /-- BRANCH_ON (R66): Power sequence entry that makes an on request to a branch channel. -/
  | branchOn
  /-- RAIL_ON (R284): Power sequence entry that issues RAIL_ENABLE of a rail. -/
  | railOn
  /-- DELAY (R285): Power sequence entry that waits TIME ticks. -/
  | delay
  /-- SEQ_DELAY_EXPIRE (R285): A sequence DELAY expires and hands on to the next entry. -/
  | seqDelayExpire
  /-- WAIT_ENTRY (R285): Power sequence entry that waits for an entry channel or its group to be ON. -/
  | waitEntry
  /-- WAIT_BRANCH (R285): Power sequence entry that waits for a branch to be ON. -/
  | waitBranch
  /-- WAIT_PG (R285): Power sequence entry that waits for a rail's power-good. -/
  | waitPg
  /-- WAIT_RAIL_OFF (R285): Power sequence entry that waits for a rail to be OFF or FENCED. -/
  | waitRailOff
  /-- SEQ_WAIT_DONE (R285): The condition of a sequence WAIT holds, and the table hands on on the next tick. -/
  | seqWaitDone
  /-- SEQ_WAIT_TIMEOUT (R285): A sequence WAIT window closes without its condition, which halts the up table or marks a failure in the down table. -/
  | seqWaitTimeout
  /-- ENTRY_OFF (R36): Power sequence entry that makes an off request to an entry channel. -/
  | entryOff
  /-- BRANCH_OFF (R66): Power sequence entry that makes an off request to a branch channel. -/
  | branchOff
  /-- RAIL_OFF (R284): Power sequence entry that issues RAIL_DISABLE of a rail. -/
  | railOff
  /-- END (R285): End of the up table, which enters RUN, or of the down table, which turns everything off and enters CONFIGURE. -/
  | seqEnd
  /-- HOLDUP_STAGE_SHED (R287): A hold-up stage window closes, and the stage's running rails are disabled and marked in HU_SHED. -/
  | holdupStageShed (st : Fin 8)
  /-- RESTORE_STAGE (R288): A restoration stage begins and enables its shed rails one per tick. -/
  | restoreStage
  /-- ECV_SAMPLE (R40): A new ECV triple of an entry channel drives its inrush loop, SOA model, trip checks and UV return. -/
  | ecvSample (n : Fin 16) (m : Option EcvTriple)
  /-- ENT_SC_TRIP (R46): The short-circuit comparator fires after its filter, and the channel trips fast. -/
  | entScTrip (n : Fin 16)
  /-- ENT_OC_TRIP (R47): The over-current window closes with every sample at or above OC_LIMIT, and the channel trips. -/
  | entOcTrip (n : Fin 16)
  /-- ENT_INRUSH_TIME (R38): INRUSH lasts INRUSH_TMAX without reaching ON, and the channel trips. -/
  | entInrushTime (n : Fin 16)
  /-- ENT_OV_TRIP (R46): VIN at or above OV on 2 consecutive samples trips the channel. -/
  | entOvTrip (n : Fin 16)
  /-- ENT_CUTOFF (R56): Pack VIN stays below V_CUTOFF for CUTOFF_T, and the battery channel trips, latching in HOLDUP. -/
  | entCutoff (n : Fin 16)
  /-- ENT_QUALIFY (R35): VIN qualifies over the whole qualification window, and the channel moves from CHECK to INRUSH. -/
  | entQualify (n : Fin 16)
  /-- ENT_INRUSH_DONE (R35): V_DS stays below VDS_DONE for DONE_TIME, and the channel moves from INRUSH to ON. -/
  | entInrushDone (n : Fin 16)
  /-- ENT_GATE_ENHANCED (R39): The gate reaches full enhancement, and the device holds it at the charge pump output. -/
  | entGateEnhanced (n : Fin 16)
  /-- ENT_BLOCK (R52): Reverse current holds for REV_FILT, so the channel turns off fast and enters BLOCKING. -/
  | entBlock (n : Fin 16)
  /-- ENT_BLOCK_RETURN (R35): VIN at or above VOUT on 16 consecutive samples returns a blocking channel to CHECK. -/
  | entBlockReturn (n : Fin 16)
  /-- ENT_ARM (R35): A battery-role channel in OFF meets every arming condition and enters ARMED. -/
  | entArm (n : Fin 16)
  /-- ENT_SHARE (R50): A group member's share stays outside BAL_TOL for 100 µs, which raises a NOTE. -/
  | entShare (n : Fin 16)
  /-- HOLDUP_ENGAGE (R54): The bus stays below V_HOLDUP_ON for HU_FILT, so an ARMED channel goes ON and the device enters HOLDUP. -/
  | holdupEngage (n : Fin 16)
  /-- HOLDUP_EXIT (R55): Enough backplane channels or groups count, so battery channels return to ARMED and the prior mode resumes. -/
  | holdupExit
  /-- KEEP_ENTER (R57): No heartbeat arrives for 64 standby cycles, so the entry die enters keep. -/
  | keepEnter
  /-- KEEP_TRIP (R58): A keep comparator fires, so the channel turns off fast and latches. -/
  | keepTrip (u : Fin 80)
  /-- KEEP_EXPIRE (R60): KEEP_TIME expires, and the channels turn off or stay under KEEP_STAY. -/
  | keepExpire
  /-- KEEP_RELEASE (R60): The returning hub's keep release restores full control of the channels and releases BOARD_ALERT_N. -/
  | keepRelease
  /-- RETRY_DELAY_EXPIRE (R74): A retry delay expires, and the retry is due or a cool-down opens. -/
  | retryDelayExpire (u : Fin 592)
  /-- COOL_TIMEOUT (R74): The cool-down window closes without a cool update, and the unit latches with COOL_TO. -/
  | coolTimeout (u : Fin 592)
  /-- COUNT_CLEAR (R76): A unit stays ON for COUNT_CLEAR ticks, and its retry count returns to 0. -/
  | countClear (u : Fin 592)
  /-- BR_SAMPLE (R65): A branch I sample drives its soft-start loop, SOA model, trip checks and UV return. -/
  | brSample (n : Fin 64) (i : BitVec 12) (vin : Option (BitVec 12)) (vout : Option (BitVec 12))
  /-- BR_FAST_TRIP (R67): The branch fast-trip comparator fires after its filter. -/
  | brFastTrip (n : Fin 64)
  /-- BR_OC_TRIP (R67): The branch over-current window closes, and the branch trips. -/
  | brOcTrip (n : Fin 64)
  /-- BR_SS_TIME (R66): SOFTSTART lasts SS_TMAX without reaching ON, and the branch trips. -/
  | brSsTime (n : Fin 64)
  /-- BR_OV_TRIP (R67): VIN at or above OV on 2 consecutive samples trips the branch. -/
  | brOvTrip (n : Fin 64)
  /-- BR_REV_TRIP (R67): The branch reverse window closes, and the branch trips. -/
  | brRevTrip (n : Fin 64)
  /-- BR_PWR_TRIP (R67): The branch power window closes in ON, and the branch trips. -/
  | brPwrTrip (n : Fin 64)
  /-- BR_QUALIFY (R66): 16 consecutive good VIN samples move the branch from CHECK to SOFTSTART. -/
  | brQualify (n : Fin 64)
  /-- BR_SOFTSTART_DONE (R66): V_DS stays below VDS_DONE for DONE_TIME, and the branch reaches ON. -/
  | brSoftstartDone (n : Fin 64)
  /-- BRANCH_DOWN_ARRIVE (R80): The branch-down message reaches a loom die, and DISABLE and SHED entries act. -/
  | branchDownArrive (n : Fin 64)
  /-- DEPEND_DISABLE (R80): A DEPEND entry's delay expires, and its rail is disabled. -/
  | dependDisable (n : Fin 64) (e : Fin 16)
  /-- RVC_SAMPLE (R92): An RVC sample runs the compensator, the slew and start-up steps, the shuttle pre-bias and the UV check. -/
  | rvcSample (r : Fin 64) (code : Option (BitVec 14))
  /-- PCC_SAMPLE (R126): A PCC sample updates a phase's trimmed current, i_sum and the phase checks. -/
  | pccSample (p : Fin 512) (code : Option (BitVec 14))
  /-- DUTY_APPLY (R90): A duty command reaches the edge scheduler at t_a, and the edges of every active phase are placed again. -/
  | dutyApply (r : Fin 64)
  /-- SWITCHING_PERIOD_BOUNDARY (R132): At a rail's period boundary, joins, leaves, re-interleave, reed, heddle, rotation and wake are applied. -/
  | switchingPeriodBoundary (r : Fin 64)
  /-- CATCH_UNDERSHOOT (R102): The undershoot comparator asserts, and the rail's phases are driven HIGH. -/
  | catchUndershoot (v : RailVolts)
  /-- CATCH_OVERSHOOT (R102): The overshoot comparator asserts, and the rail's phases are driven MID. -/
  | catchOvershoot (v : RailVolts)
  /-- CATCH_RELEASE (R104): A catch comparator releases, and the phases return to the edge scheduler. -/
  | catchRelease (v : RailVolts) (ovs : Bool)
  /-- CATCH_EXPIRED (R104): The catch window closes before release, so the phases are released and CORRECTED is raised. -/
  | catchExpired (r : Fin 64)
  /-- SENSE (R106): Both catch comparators stay asserted for 16 control clocks, which fences the rail. -/
  | sense (r : Fin 64)
  /-- RAIL_OV (R115): The OV comparator trips, so the phases go to OV_ACTION and the rail is fenced. -/
  | railOv (v : RailVolts)
  /-- RAIL_UV (R116): The UV window closes with every sample below threshold, and the rail is fenced. -/
  | railUv (r : Fin 64)
  /-- ERROR_MODE_SWITCH (R112): After 16 settled wide-range samples, the RVC starts re-ranging one slice at a time. -/
  | errorModeSwitch (r : Fin 64)
  /-- RERANGE_DONE (R112): The re-ranging slot ends, so the rail enters RUN and arms catch, UV and power-good. -/
  | rerangeDone (r : Fin 64)
  /-- START_TIMEOUT (R113): The start-up window closes before RUN, and the rail is fenced. -/
  | startTimeout (r : Fin 64)
  /-- PG_ASSERT (R118): The PG_DELAY window closes with every sample in band, and power-good asserts. -/
  | pgAssert (r : Fin 64)
  /-- PG_DEASSERT (R118): The PG_FILT window closes with every sample out of band, and power-good deasserts. -/
  | pgDeassert (r : Fin 64)
  /-- RAIL_OC (R143): The rail over-current window closes, and the rail is fenced. -/
  | railOc (r : Fin 64)
  /-- PH_FUSE (R140): The phase fuse comparator crosses, so the phase goes MID and trips. -/
  | phFuse (p : Fin 512)
  /-- PH_STAGE (R140): TFLT rises above 2.2 V, and the phase trips with STAGE. -/
  | phStage (p : Fin 512)
  /-- PH_OC (R140): The phase OC window closes, and the phase trips. -/
  | phOc (p : Fin 512)
  /-- PH_NEG (R140): The phase NEG window closes, and the phase trips. -/
  | phNeg (p : Fin 512)
  /-- PH_HOT (R140): TFLT at or above V(T_HOT) on 16 consecutive samples trips the phase. -/
  | phHot (p : Fin 512)
  /-- PH_IMON_RANGE (R140): A saturated PCC code on 16 consecutive samples trips the phase. -/
  | phImonRange (p : Fin 512)
  /-- PH_SHARE (R135): The SHARE window closes with the trim at its limit, and the phase trips. -/
  | phShare (p : Fin 512)
  /-- TFLT_SAMPLE (R141): A TFLT comparator sample, which is an update for cool-down and for the HOT count. -/
  | tfltSample (p : Fin 512) (uv : BitVec 24)
  /-- HELLO (R152): Load frame that keeps the port alive and brings it to UP. -/
  | hello (n : Fin 32) (f : Frame)
  /-- STEP (R159): Load frame announcing a current step, screened and answered GRANT or DENY, and opening a speculation. -/
  | stepFrame (n : Fin 32) (f : Frame)
  /-- VID (R177): Load frame that requests a new rail target. -/
  | vidFrame (n : Fin 32) (f : Frame)
  /-- STATE (R178): Load frame that reports the load state and is acknowledged. -/
  | stateFrame (n : Fin 32) (f : Frame)
  /-- INTENT_FRAME_BAD (R150): A received frame with a coding, CRC, end or type error is discarded and counted BAD. -/
  | intentFrameBad (n : Fin 32)
  /-- INTENT_SILENT (R156): The silence window closes, so the port enters SILENT and its speculations are cancelled. -/
  | intentSilent (n : Fin 32)
  /-- INTENT_FRAME_SEND (R154): A ready reply or report frame starts transmission when the lane is free, in priority order. -/
  | intentFrameSend (n : Fin 32)
  /-- CURRENT (R154): Every 1 µs the device queues a CURRENT frame per bound rail. -/
  | current (n : Fin 32)
  /-- SPEC_PRECHARGE_START (R165): The pre-charge window opens, and u_int is applied. -/
  | specPrechargeStart (r : Fin 64)
  /-- SPEC_PRECHARGE_END (R165): The pre-charge window ends at T_step, and u_int returns to 0. -/
  | specPrechargeEnd (r : Fin 64)
  /-- RETRACT (R168): The confirmation window closes unconfirmed, and the speculation is retracted. -/
  | retract (r : Fin 64)
  /-- WAKE_HOLD_END (R167): The hold of a confirmed speculation ends, and its woken phases are released. -/
  | wakeHoldEnd (r : Fin 64)
  /-- CORRECTION_UPDATE (R188): Every 819.2 µs the background estimator updates each slice's offset, gain and skew. -/
  | correctionUpdate (c : Fin 632) (es : List Estimate)
  /-- SLICE_DRIFT (R189): A slice's limit window closes with every estimate beyond range, and the slice is fenced. -/
  | sliceDrift (c : Fin 632) (s : Fin 8)
  /-- CAL_SLICE_END (R194): A slice's foreground calibration ends, and the slice returns or is fenced before the next starts. -/
  | calSliceEnd (c : Fin 632) (m : CalResult)
  /-- SCV_CONVERSION (R203): The SCV converts in a slot: a reserved branch conversion, a sequence conversion or an injected one. -/
  | scvConversion (k : Fin 8) (slot : Fin 64) (code : BitVec 12)
  /-- SEQ_PASS_END (R204): A sequence pass ends at t_e and fires end-of-pass triggers. -/
  | seqPassEnd (k : Fin 8)
  /-- INJ_RESULT (R207): An injected result is ready: RESULT, DONE and the stamp are written, and any deferred calibration starts. -/
  | injResult (k : Fin 8)
  /-- ICV_PERIOD_END (R211): An ICV period closes with its mean result, and Sage runs its filter step on it. -/
  | icvPeriodEnd (n : Fin 24) (code : BitVec 24) (ovr : Bool)
  /-- TEMP_STALE (R199): No thermistor sample for 1.6 ms, so the unit uses T_FIXED and raises a NOTE. -/
  | tempStale (u : Fin 80)
  /-- PACK_INSERT (R227): A second consecutive voltage result at or above PRES_V starts insertion settling. -/
  | packInsert (p : Fin 4)
  /-- SAGE_SETTLING_END (R227): Settling ends, and Sage forms the first estimate and sets PRESENT. -/
  | sageSettlingEnd (p : Fin 4)
  /-- PACK_REMOVE (R227): A second consecutive result below PRES_V removes the pack and voids the learned state. -/
  | packRemove (p : Fin 4)
  /-- SAGE_TEMP_STALE (R220): 100 periods pass without a thermistor sample, so Sage uses T_FIXED and raises TEMP_STALE. -/
  | sageTempStale (p : Fin 4)
  /-- REST_POINT (R228): A rest window completes, which re-anchors SoC and applies capacity learning. -/
  | restPoint (p : Fin 4)
  /-- FORCED_EMPTY (R236): The empty window completes, and SoC is forced to 0 with SUSPECT_NEXT. -/
  | forcedEmpty (p : Fin 4)
  /-- IMP_QUALIFY (R229): 10 µs after a step start, the step qualifies or is abandoned, which gives RSER_m. -/
  | impQualify (p : Fin 4)
  /-- IMP_MEASURE_END (R231): An impedance measurement ends, and each value is blended or rejected. -/
  | impMeasureEnd (p : Fin 4)
  /-- SAGE_RECORD_BUILD (R238): WB_INTERVAL passes with a changed GEN, so a record of the learned state is built. -/
  | sageRecordBuild (p : Fin 4)
  /-- SAGE_RECORD_WRITE (R240): A waiting Sage record is written in two writes once the ring and link are ready. -/
  | sageRecordWrite (p : Fin 4)
  /-- FAULT_OCCURRENCE (R255): A fault message reaches the selvage, which allocates or merges a record and applies the reaction. -/
  | faultOccurrence
  /-- MERGE_WINDOW_CLOSE (R257): A record's merge window closes, and FAULT_UPDATE is written or an L0 record is freed. -/
  | mergeWindowClose (s : Fin 256)
  /-- LOCKSTEP (R251): The selvage copies mismatch or lose heartbeat, which starts SAFE entry on the hardwired path. -/
  | lockstep
  /-- CLK_ROOT (R298): The root clock monitor detects REFCLK or PLL loss, which drives phases MID and raises L4. -/
  | clkRoot (cause : Fin 3)
  /-- THYME_BROADCAST (R301): Every 1 µs the hub broadcasts Thyme and each die compares and may reload its copy. -/
  | thymeBroadcast (b : DieDrift)
  /-- PPS_EDGE (R304): A PPS_IN rising edge sets or tracks the epoch, or is rejected. -/
  | ppsEdge
  /-- PPS_WINDOW_MISS (R304): A PPS window closes with no accepted edge, which advances the epoch and may enter HOLDOVER. -/
  | ppsWindowMiss
  /-- TIMER_FIRE (R307): A hub event timer reaches its CMP and fires to SCV triggers, core waits or the interrupt summary. -/
  | timerFire (t : Fin 32)
  /-- REGION_SAMPLE (R309): Every 1 µs a neighbour link monitor samples the supply, temperature and skew differences. -/
  | regionSample (k : Fin 3) (m : RegionDiff)
  /-- REGION_FAULT (R311): A region window closes beyond its limit, so REGION_SUPPLY, REGION_TEMP or REGION_SKEW is raised. -/
  | regionFault (k : Fin 3)
  /-- LINK_LOST (R260): A die link heartbeat is lost for 4 µs, and the link is fenced. -/
  | linkLost (l : Fin 8)
  /-- LINK_ERROR (R246): A link transfer check fails and is retried, which raises LINK_ERROR. -/
  | linkError (l : Fin 8)
  /-- LINK_RETURN (R259): A fenced or lost die link returns, and held fault messages are delivered. -/
  | linkReturn (l : Fin 8)
  /-- FLIT_SLOT (R357): Each stream flit slot is filled with a TRAIN, CTRL, DATA or IDLE flit. -/
  | flitSlot
  /-- CODEWORD_RECEIVE (R355): A received codeword updates lock and uncorrectable counts and delivers flits. -/
  | codewordReceive (n : Fin 8) (m : Codeword)
  /-- PEER_CTRL (R362): A peer CTRL flit updates the credit limits and TX_BAD reports and renews the peer window. -/
  | peerCtrl (pay : List Byte)
  /-- PEER_TRAIN (R360): A peer TRAIN flit reports its state and lanes during training. -/
  | peerTrain (pay : List Byte)
  /-- LINK_UP (R360): 16 agreeing READY rounds end, and the link enters UP with counts reset. -/
  | linkUp
  /-- TRAIN_TIMEOUT (R361): The training window closes without UP, so unused lanes are fenced or SEEK restarts. -/
  | trainTimeout
  /-- STREAM_PEER (R363): No peer CTRL flit for 4 µs, so STREAM_PEER is raised and the link returns to SEEK. -/
  | streamPeer
  /-- STREAM_LANE (R365): A failing lane is fenced and squelched, and the link retrains or goes DOWN. -/
  | streamLane (n : Fin 16)
  /-- BLOCK_FLUSH (R372): A block's age reaches FLUSH_T, so it closes and is queued. -/
  | blockFlush (t : Fin 4096) (tag : BitVec 12)
  /-- DECIMATION_CHANGE (R369): Outside the hold window a VC's FILL crosses a watermark, so K changes and open blocks close. -/
  | decimationChange (v : Fin 16)
  /-- TW_TIMEOUT (R379): SCL stays low for STRETCH_T, so the block releases the lines, abandons the transfer and resets. -/
  | twTimeout (n : Fin 16)
  /-- IDLE_SEEN (R380): Both lines stay high for t_BUF after the block's reset, and IDLE_SEEN becomes 1. -/
  | idleSeen (n : Fin 16)
  /-- SDA_FALL (R381): SDA falls with SCL high, and the block starts classifying the event. -/
  | sdaFall (l : LineAt)
  /-- ATTENTION (R384): SDA rises 5–50 µs after falling, which is an attention, and the controller reads the Alert Response Address. -/
  | attention (n : Fin 16)
  /-- BUS_CLEAR (R382): A stuck bus starts a bus clear of up to nine SCL pulses. -/
  | busClear (n : Fin 16)
  /-- BUS_CLEAR_END (R382): The bus clear ends with STOP on success, or with BUS_STUCK and a fence. -/
  | busClearEnd (n : Fin 16) (pulses : Fin 10) (sda : Bool)
  /-- BUS_HELD (R383): A target-only block sees SDA held low for 50 µs and sets BUS_HELD. -/
  | busHeld (n : Fin 16)
  /-- ALERT_RESPONSE_READ (R384): The controller reads one byte from address 0x0C once the bus is free. -/
  | alertResponseRead (n : Fin 16) (ans : Option Byte)
  /-- ATTENTION_SIGNAL (R385): A target with PENDING holds SDA low for 20 µs once the bus is free. -/
  | attentionSignal (n : Fin 16)
  /-- ALERT_RESPONSE (R385): The target answers a read of 0x0C with its address and clears PENDING if it wins arbitration. -/
  | alertResponse (n : Fin 16) (won : Bool)
  /-- TRANSFER_START (R386): A pending controller transfer begins with START once the bus is free. -/
  | transferStart (n : Fin 16)
  /-- TRANSFER_END (R386): A controller transfer ends with STOP and sets DONE or ERROR. -/
  | transferEnd (n : Fin 16) (m : BusResult)
  /-- ARB_LOST (R387): A controller loses arbitration and becomes a target or follows the transfer, then retries. -/
  | arbLost (n : Fin 16) (addr : Option (BitVec 7))
  /-- TARGET_WRITE (R389): A write transfer to a byte or privileged window sets the pointer and stages and commits register bytes. -/
  | targetWrite (n : Fin 16) (addr : BitVec 7) (bs : List Byte) (pec : Option Byte)
  /-- TARGET_READ (R390): A read transfer from a window returns latched register bytes and applies read side effects. -/
  | targetRead (n : Fin 16) (addr : BitVec 7) (m : BusRead)
  /-- TARGET_STRETCH_TIMEOUT (R393): A register access behind a target byte exceeds 10 µs, so 0xFF is sent and ACCESS_FAULT is raised. -/
  | targetStretchTimeout (n : Fin 16)
  /-- MAILBOX_SUBMIT (R391): The BMC writes 0x01 at 0x8050 and submits the mailbox descriptor as agent 0x01. -/
  | mailboxSubmit (b : BoxSubmit)
  /-- ROLE_CHANGE (R374): A block's role changes at the next byte boundary, abandoning a controller transfer. -/
  | roleChange (n : Fin 16)
  /-- PAGE (R395): PMBus command that reads or selects the rail or entry page. -/
  | page (b : Option Byte) (x : PmbTail)
  /-- CLEAR_FAULTS (R396): PMBus command that clears CML. -/
  | clearFaults (x : PmbTail)
  /-- CAPABILITY (R395): PMBus command that returns 0xC0. -/
  | capability (x : PmbTail)
  /-- VOUT_MODE (R395): PMBus command that returns the linear exponent of the page. -/
  | voutMode (x : PmbTail)
  /-- STATUS_BYTE (R396): PMBus command that returns the live status byte. -/
  | statusByte (x : PmbTail)
  /-- STATUS_WORD (R396): PMBus command that returns the live status word. -/
  | statusWord (x : PmbTail)
  /-- READ_VIN (R395): PMBus command that returns the page's input voltage. -/
  | readVin (x : PmbTail)
  /-- READ_IIN (R395): PMBus command that returns an entry channel's input current. -/
  | readIin (x : PmbTail)
  /-- READ_VOUT (R395): PMBus command that returns the page's output voltage in LINEAR16. -/
  | readVout (x : PmbTail)
  /-- READ_IOUT (R395): PMBus command that returns a rail's current. -/
  | readIout (x : PmbTail)
  /-- READ_TEMPERATURE_1 (R395): PMBus command that returns an entry channel's TJ_EST. -/
  | readTemperature1 (x : PmbTail)
  /-- READ_POUT (R395): PMBus command that returns a rail's power. -/
  | readPout (x : PmbTail)
  /-- READ_PIN (R395): PMBus command that returns an entry channel's input power. -/
  | readPin (x : PmbTail)
  /-- PMBUS_REVISION (R395): PMBus command that returns 0x44. -/
  | pmbusRevision (x : PmbTail)
  /-- INSN_NOP (R413): Core instruction that does nothing. -/
  | insnNop (c : Fin 21)
  /-- MOV (R413): Core instruction that copies a source to a destination. -/
  | mov (c : Fin 21)
  /-- WID (R413): Core instruction that widens a fraction to the next size. -/
  | wid (c : Fin 21)
  /-- SXT (R413): Core instruction that sign-extends I16 to I32. -/
  | sxt (c : Fin 21)
  /-- ZXT (R413): Core instruction that zero-extends I16 to I32. -/
  | zxt (c : Fin 21)
  /-- ADD (R413): Core instruction that adds with flags and optional saturation. -/
  | add (c : Fin 21)
  /-- SUB (R413): Core instruction that subtracts with flags and optional saturation. -/
  | sub (c : Fin 21)
  /-- MUL (R413): Core instruction that forms a fraction product, rounded to the type. -/
  | mul (c : Fin 21)
  /-- IMUL (R413): Core instruction that forms the low half of an integer product. -/
  | imul (c : Fin 21)
  /-- MAC (R413): Core instruction that accumulates a product into L40. -/
  | mac (c : Fin 21)
  /-- MSU (R413): Core instruction that subtracts a product from an L40 accumulator. -/
  | msu (c : Fin 21)
  /-- SAT (R413): Core instruction that rounds and clips an L40 value to Q31 or Q15. -/
  | sat (c : Fin 21)
  /-- ABS (R413): Core instruction that takes the absolute value. -/
  | abs (c : Fin 21)
  /-- NEG (R413): Core instruction that negates. -/
  | neg (c : Fin 21)
  /-- ASL (R413): Core instruction that shifts arithmetically left. -/
  | asl (c : Fin 21)
  /-- ASR (R413): Core instruction that shifts arithmetically right under RND. -/
  | asr (c : Fin 21)
  /-- LSR (R413): Core instruction that shifts logically right. -/
  | lsr (c : Fin 21)
  /-- MIN (R413): Core instruction that takes the signed minimum. -/
  | min (c : Fin 21)
  /-- MAX (R413): Core instruction that takes the signed maximum. -/
  | max (c : Fin 21)
  /-- LIM (R413): Core instruction that clamps a value between two bounds. -/
  | lim (c : Fin 21)
  /-- CMP (R413): Core instruction that compares two operands and sets flags. -/
  | cmp (c : Fin 21)
  /-- TST (R413): Core instruction that tests the AND of two operands. -/
  | tst (c : Fin 21)
  /-- AND (R413): Core instruction for bitwise AND. -/
  | and (c : Fin 21)
  /-- OR (R413): Core instruction for bitwise OR. -/
  | or (c : Fin 21)
  /-- XOR (R413): Core instruction for bitwise XOR. -/
  | xor (c : Fin 21)
  /-- NOT (R413): Core instruction for bitwise complement. -/
  | not (c : Fin 21)
  /-- BSET (R413): Core instruction that sets one bit. -/
  | bset (c : Fin 21)
  /-- BCLR (R413): Core instruction that clears one bit. -/
  | bclr (c : Fin 21)
  /-- BTST (R413): Core instruction that tests one bit into Z. -/
  | btst (c : Fin 21)
  /-- BR (R413): Core instruction that branches under COND. -/
  | br (c : Fin 21)
  /-- BC (R414): Core instruction that branches on a flag condition. -/
  | bc (c : Fin 21)
  /-- CALL (R416): Core instruction that pushes a link word and opens a new frame. -/
  | call (c : Fin 21)
  /-- RET (R416): Core instruction that returns and restores the caller's frame. -/
  | ret (c : Fin 21)
  /-- LOOP (R417): Core instruction that sets up a hardware loop. -/
  | loop (c : Fin 21)
  /-- RTE (R413): Core instruction that returns from an exception handler. -/
  | rte (c : Fin 21)
  /-- WAIT (R419): Core instruction that waits for masked pending events. -/
  | wait (c : Fin 21)
  /-- INSN_FENCE (R418): Core instruction that waits until every earlier access of the core has completed. -/
  | insnFence (c : Fin 21)
  /-- SWAP (R418): Core instruction for an atomic exchange. -/
  | swap (c : Fin 21)
  /-- ADDX (R418): Core instruction for an atomic fetch-and-add. -/
  | addx (c : Fin 21)
  /-- DIVS (R413): Core instruction for fractional division. -/
  | divs (c : Fin 21)
  /-- WAIT_WAKE (R419): A masked pending event wakes a waiting core. -/
  | waitWake (c : Fin 21)
  /-- WAIT_TIMEOUT (R419): A WAIT's limit passes without an event, and the core wakes with d = 0. -/
  | waitTimeout (c : Fin 21)
  /-- ACCESS_COMPLETE (R422): A stalled core access completes, and the core resumes RUNNING. -/
  | accessComplete (c : Fin 21) (v : Option (BitVec 64))
  /-- HOST_WINDOW_TIMEOUT (R401): A host window read gets no completion in 50 µs, which raises the LINK exception. -/
  | hostWindowTimeout (c : Fin 21)
  /-- WATCHDOG_EXPIRE (R426): The watchdog window closes without a kick, so CORE_LOCKUP is raised and the core fenced. -/
  | watchdogExpire (c : Fin 21)
  /-- SCRUB_VISIT (R441): The scrubber reads a granule, corrects or reports it, and counts completed windows. -/
  | scrubVisit (r : Fin 6)
  /-- INIT_DONE (R438): Bank initialisation and read-back finish, and the banks come online with their Reset tables. -/
  | initDone (bad : List Nat)
  /-- BANK_COPY_DONE (R440): The copy of a mirrored bank from its partner ends, and the UNFENCE of the bank completes. -/
  | bankCopyDone (b : BitVec 12)
  /-- REFCLK_RETURN (R298): After a root clock loss, the clock returns, and the device passes through reset into SAFE. -/
  | refclkReturn (st : Straps)
  /-- ROOT_PLL_LOCK (R297): The root PLL locks up to 10 ms after release from reset, and only then is CONFIGURE entered and Thyme started. -/
  | rootPllLock
  /-- ATTENTION_HOLD_END (R385): The 20 µs attention hold of a target ends, and the block releases SDA and leaves ATTENTION. -/
  | attentionHoldEnd (n : Fin 16)
  /-- SDA_RISE (R383): SDA rises on a target-only block's bus, and BUS_HELD clears. -/
  | sdaRise (l : LineAt)
  deriving DecidableEq, Repr

end Sys2Proof
end

