-- ==== Sys2Proof/Decode.lean ====
section
/-! DEFINITION. Words of the operation table. The table gives no row any bits: the block's commands come as register
accesses, ring descriptors, bus traffic and pin events, and no word spells one (log 1). -/

namespace Sys2Proof

/-- The command that a word of `nbits` bits spells by the table's bits: the table gives none, so no word spells a command
(log 1). -/
def decodeTableWord (_nbits _w : Nat) : Option Instr := none

end Sys2Proof
end

