-- ==== Sys2Proof/Machine/Field.lean ====
section
/-! DEFINITION. A register field, and sparse maps in one canonical form: the form of the register map, of every memory
and of every table of unit state. -/

namespace Sys2Proof.Machine

/-- A register field: the BAR0 offset of its word, its low bit and its width (00_scope.md, *Registers, fields and names*). -/
structure Fld where
  off : Nat
  lo : Nat
  len : Nat
  deriving DecidableEq, Repr

/-- The value of bits `lo + len - 1` to `lo` of a word. -/
def Fld.get (f : Fld) (w : Word) : Nat := w.toNat / 2 ^ f.lo % 2 ^ f.len

/-- A word with the field's bits replaced by the low bits of `v`. -/
def Fld.put (f : Fld) (w : Word) (v : Nat) : Word :=
  let mask : Word := (BitVec.allOnes f.len).setWidth 32 <<< f.lo
  (w &&& ~~~mask) ||| ((BitVec.ofNat f.len v).setWidth 32 <<< f.lo)

/-- A sparse map from numbers: keys strictly rising, no entry equal to what an unlisted key reads as. -/
abbrev KV (α : Type) := List (Nat × α)

namespace KV

variable {α : Type}

/-- The first entry of a key. -/
def find? (k : Nat) : KV α → Option α
  | [] => none
  | (j, v) :: r => if j = k then some v else find? k r

/-- What key `k` reads as; an unlisted key reads as `dflt k`. -/
def get (dflt : Nat → α) (m : KV α) (k : Nat) : α := (find? k m).getD (dflt k)

/-- The map with no entry for `k`. -/
def erase (k : Nat) : KV α → KV α
  | [] => []
  | (j, v) :: r => if j = k then erase k r else (j, v) :: erase k r

/-- The map with `v` at `k`, in its place in the rising order. -/
def insert (k : Nat) (v : α) : KV α → KV α
  | [] => [(k, v)]
  | (j, u) :: r => if k < j then (k, v) :: (j, u) :: r else if k = j then (k, v) :: r else (j, u) :: insert k v r

/-- A write: writing what an unlisted key reads as removes the entry, so equal maps are equal data. -/
def put [DecidableEq α] (dflt : Nat → α) (m : KV α) (k : Nat) (v : α) : KV α :=
  if v = dflt k then erase k m else insert k v m

/-- The canonical form: keys strictly rising, and no entry equal to what an unlisted key reads as. -/
def wf [DecidableEq α] (dflt : Nat → α) : KV α → Bool
  | [] => true
  | (k, v) :: r => decide (v ≠ dflt k) && (match r with | [] => true | (j, _) :: _ => decide (k < j)) && wf dflt r

end KV

end Sys2Proof.Machine
end

