-- ==== Sys2Proof/Machine/Regs.lean ====
section
/-! DEFINITION. The named register fields of the spec's register tables: the BAR0 offset of the word
(17_register_map.md R447 gives each block's base and stride), the low bit and the width of the field.
A field of a repeated block takes the instance index; an array register takes the element index too. -/

namespace Sys2Proof.Machine

/-- OWN +0x00 OWN bits 31:30: 0b00 FREE; 0b01 CLAIMED; 0b10 LOCKED (claimed; never released by RES_RELEASE, freed ... (01_architecture.md R21) -/
def OWN.STATE (n : Nat) : Fld := ⟨0x800 + 0x4 * n, 30, 2⟩
/-- OWN +0x00 OWN bits 29:28: Priority class of the owner: 0b00 protection, 0b01 control, 0b10 telemetry, 0b11 ... (01_architecture.md R21) -/
def OWN.PRIO (n : Nat) : Fld := ⟨0x800 + 0x4 * n, 28, 2⟩
/-- OWN +0x00 OWN bits 27:20: Master agent ID of the claimant, from the table in *Fault collection and reaction* (01_architecture.md R21) -/
def OWN.AGENT (n : Nat) : Fld := ⟨0x800 + 0x4 * n, 20, 8⟩
/-- OWN +0x00 OWN bits 19:16: Function within the class that holds the resource; codes per class below (01_architecture.md R21) -/
def OWN.FUNCTION (n : Nat) : Fld := ⟨0x800 + 0x4 * n, 16, 4⟩
/-- OWN +0x00 OWN bits 15:0: Tag of the descriptor or configuration record that made the claim (01_architecture.md R21) -/
def OWN.CLAIM_TAG (n : Nat) : Fld := ⟨0x800 + 0x4 * n, 0, 16⟩
/-- ENTRY +0x00 ENT_CFG bits 31:30: 0b00 unused, gate held off; 0b01 backplane; 0b10 battery; 0b11 refused at CONFIGURE ... (02_power_entry.md R34) -/
def ENT_CFG.ROLE (n : Nat) : Fld := ⟨0x200000 + 0x100 * n, 30, 2⟩
/-- ENTRY +0x00 ENT_CFG bits 29:28: Pack BP0–BP3 served when ROLE = 0b10; two battery channels naming one pack are refused ... (02_power_entry.md R34) -/
def ENT_CFG.PACK (n : Nat) : Fld := ⟨0x200000 + 0x100 * n, 28, 2⟩
/-- ENTRY +0x00 ENT_CFG bits 27:27: 0 current reference; 1 dV/dt reference (02_power_entry.md R34) -/
def ENT_CFG.INRUSH_MODE (n : Nat) : Fld := ⟨0x200000 + 0x100 * n, 27, 1⟩
/-- ENTRY +0x00 ENT_CFG bits 26:26: 0 case temperature from SOA_TREF.T_FIXED; 1 from En_TEMP through the SCV (02_power_entry.md R34) -/
def ENT_CFG.TEMP_SRC (n : Nat) : Fld := ⟨0x200000 + 0x100 * n, 26, 1⟩
/-- ENTRY +0x00 ENT_CFG bits 25:23: SOA parameter table 0–7 (02_power_entry.md R34) -/
def ENT_CFG.FET_TYPE (n : Nat) : Fld := ⟨0x200000 + 0x100 * n, 23, 3⟩
/-- ENTRY +0x00 ENT_CFG bits 22:19: FETs in parallel in the bank, minus one (1–16) (02_power_entry.md R34) -/
def ENT_CFG.N_PAR (n : Nat) : Fld := ⟨0x200000 + 0x100 * n, 19, 4⟩
/-- ENTRY +0x00 ENT_CFG bits 18:15: FETs assumed to carry current in linear operation, minus one; a value above N_PAR is ... (02_power_entry.md R34) -/
def ENT_CFG.LIN_SHARE (n : Nat) : Fld := ⟨0x200000 + 0x100 * n, 15, 4⟩
/-- ENTRY +0x00 ENT_CFG bits 14:9: Index of the channel's fuse policy record (02_power_entry.md R34) -/
def ENT_CFG.POLICY (n : Nat) : Fld := ⟨0x200000 + 0x100 * n, 9, 6⟩
/-- ENTRY +0x04 ENT_PROT bits 22:16: Short-circuit filter in control clocks, 0–80 (0–100 ns); values above 80 act as 80 (02_power_entry.md R34) -/
def ENT_PROT.SC_FILT (n : Nat) : Fld := ⟨0x200004 + 0x100 * n, 16, 7⟩
/-- ENTRY +0x04 ENT_PROT bits 12:8: Short-circuit threshold 25 mV + 5 mV × code, codes 0–25 (25–150 mV); codes above 25 act ... (02_power_entry.md R34) -/
def ENT_PROT.SC_TH (n : Nat) : Fld := ⟨0x200004 + 0x100 * n, 8, 5⟩
/-- ENTRY +0x04 ENT_PROT bits 5:0: Gate source and normal-off sink current, (code + 1) × 20 µA, codes 0–49 (20 µA–1 mA); ... (02_power_entry.md R34) -/
def ENT_PROT.PULLUP (n : Nat) : Fld := ⟨0x200004 + 0x100 * n, 0, 6⟩
/-- ENTRY +0x08 ENT_OC bits 13:0: Over-current threshold, positive shunt code (02_power_entry.md R34) -/
def ENT_OC.OC_LIMIT (n : Nat) : Fld := ⟨0x200008 + 0x100 * n, 0, 14⟩
/-- ENTRY +0x0C ENT_OC_TIME bits 31:0: Over-current timer in Thyme ticks (02_power_entry.md R34) -/
def ENT_OC_TIME.OC_TIME (n : Nat) : Fld := ⟨0x20000C + 0x100 * n, 0, 32⟩
/-- ENTRY +0x10 ENT_INRUSH bits 31:16: dV/dt reference in 0.01 V/ms; 0 is refused as above when INRUSH_MODE = 1 (02_power_entry.md R34) -/
def ENT_INRUSH.DVDT (n : Nat) : Fld := ⟨0x200010 + 0x100 * n, 16, 16⟩
/-- ENTRY +0x10 ENT_INRUSH bits 13:0: Current reference, positive shunt code (02_power_entry.md R34) -/
def ENT_INRUSH.I_INRUSH (n : Nat) : Fld := ⟨0x200010 + 0x100 * n, 0, 14⟩
/-- ENTRY +0x14 ENT_PLIM bits 29:16: Completion threshold on V_DS, voltage code (02_power_entry.md R34) -/
def ENT_PLIM.VDS_DONE (n : Nat) : Fld := ⟨0x200014 + 0x100 * n, 16, 14⟩
/-- ENTRY +0x14 ENT_PLIM bits 15:0: Channel power limit in W (02_power_entry.md R34) -/
def ENT_PLIM.P_LIM (n : Nat) : Fld := ⟨0x200014 + 0x100 * n, 0, 16⟩
/-- ENTRY +0x18 ENT_TMAX bits 31:0: Inrush time limit in Thyme ticks (02_power_entry.md R34) -/
def ENT_TMAX.INRUSH_TMAX (n : Nat) : Fld := ⟨0x200018 + 0x100 * n, 0, 32⟩
/-- ENTRY +0x1C ENT_DONE bits 31:0: Completion dwell in Thyme ticks (02_power_entry.md R34) -/
def ENT_DONE.DONE_TIME (n : Nat) : Fld := ⟨0x20001C + 0x100 * n, 0, 32⟩
/-- ENTRY +0x20 ENT_VLIM bits 29:16: VIN over-voltage threshold, voltage code (57.6 V) (02_power_entry.md R34) -/
def ENT_VLIM.OV (n : Nat) : Fld := ⟨0x200020 + 0x100 * n, 16, 14⟩
/-- ENTRY +0x20 ENT_VLIM bits 13:0: VIN under-voltage threshold, voltage code (36.0 V) (02_power_entry.md R34) -/
def ENT_VLIM.UV (n : Nat) : Fld := ⟨0x200020 + 0x100 * n, 0, 14⟩
/-- ENTRY +0x24 ENT_REV bits 31:31: 1 enables ideal-diode blocking; forced to 1 when ROLE = 0b10 (02_power_entry.md R34) -/
def ENT_REV.REV_BLOCK (n : Nat) : Fld := ⟨0x200024 + 0x100 * n, 31, 1⟩
/-- ENTRY +0x24 ENT_REV bits 29:16: Reverse filter in Thyme ticks, at most 16,383 (02_power_entry.md R34) -/
def ENT_REV.REV_FILT (n : Nat) : Fld := ⟨0x200024 + 0x100 * n, 16, 14⟩
/-- ENTRY +0x24 ENT_REV bits 13:0: Reverse threshold, magnitude as a shunt code (02_power_entry.md R34) -/
def ENT_REV.REV_TH (n : Nat) : Fld := ⟨0x200024 + 0x100 * n, 0, 14⟩
/-- ENTRY +0x28 ENT_BATT bits 13:0: Pack cut-off voltage, VIN code (38.4 V) (02_power_entry.md R34) -/
def ENT_BATT.V_CUTOFF (n : Nat) : Fld := ⟨0x200028 + 0x100 * n, 0, 14⟩
/-- ENTRY +0x2C ENT_CUT_TIME bits 31:0: Cut-off dwell in Thyme ticks (02_power_entry.md R34) -/
def ENT_CUT_TIME.CUTOFF_T (n : Nat) : Fld := ⟨0x20002C + 0x100 * n, 0, 32⟩
/-- ENTRY +0x30 ENT_STATUS bits 31:16: Estimated junction temperature, signed, 0.05 °C (02_power_entry.md R34) -/
def ENT_STATUS.TJ_EST (n : Nat) : Fld := ⟨0x200030 + 0x100 * n, 16, 16⟩
/-- ENTRY +0x30 ENT_STATUS bits 15:8: Conditions present at the last trip other than CAUSE, one bit per cause code (02_power_entry.md R34) -/
def ENT_STATUS.ALSO (n : Nat) : Fld := ⟨0x200030 + 0x100 * n, 8, 8⟩
/-- ENTRY +0x30 ENT_STATUS bits 7:4: Cause of the last trip, under *Trips* (02_power_entry.md R34) -/
def ENT_STATUS.CAUSE (n : Nat) : Fld := ⟨0x200030 + 0x100 * n, 4, 4⟩
/-- ENTRY +0x30 ENT_STATUS bits 3:0: Channel state, under *Channel states* (02_power_entry.md R34) -/
def ENT_STATUS.STATE (n : Nat) : Fld := ⟨0x200030 + 0x100 * n, 0, 4⟩
/-- ENTRY +0x34 ENT_EVT bits 7:0: Bit per cause code, set when that trip occurs (02_power_entry.md R34) -/
def ENT_EVT.EVT (n : Nat) : Fld := ⟨0x200034 + 0x100 * n, 0, 8⟩
/-- ENTRY +0x38 ENT_SHUNT bits 15:0: RSHUNT of the channel, 0.1 µΩ (02_power_entry.md R34) -/
def ENT_SHUNT.RSHUNT (n : Nat) : Fld := ⟨0x200038 + 0x100 * n, 0, 16⟩
/-- SOA +0x00 SOA_RTH01 bits 31:16: Pole 2 thermal resistance, 0.001 °C/W (02_power_entry.md R43) -/
def SOA_RTH01.RTH2 (n : Nat) : Fld := ⟨0x201200 + 0x40 * n, 16, 16⟩
/-- SOA +0x00 SOA_RTH01 bits 15:0: Pole 1 thermal resistance, 0.001 °C/W (02_power_entry.md R43) -/
def SOA_RTH01.RTH1 (n : Nat) : Fld := ⟨0x201200 + 0x40 * n, 0, 16⟩
/-- SOA +0x04 SOA_RTH23 bits 31:16: Pole 4, 0.001 °C/W (02_power_entry.md R43) -/
def SOA_RTH23.RTH4 (n : Nat) : Fld := ⟨0x201204 + 0x40 * n, 16, 16⟩
/-- SOA +0x04 SOA_RTH23 bits 15:0: Pole 3, 0.001 °C/W (02_power_entry.md R43) -/
def SOA_RTH23.RTH3 (n : Nat) : Fld := ⟨0x201204 + 0x40 * n, 0, 16⟩
/-- SOA +0x08 SOA_TAU bits 31:0: Pole time constant in units of 100 ns; 0 is refused with TABLE_INVALID (02_power_entry.md R43) -/
def SOA_TAU.TAU (n k : Nat) : Fld := ⟨0x201208 + 0x40 * n + 4 * k, 0, 32⟩
/-- SOA +0x18 SOA_TJ bits 31:16: Regulation onset, signed, 0.05 °C (150 °C) (02_power_entry.md R43) -/
def SOA_TJ.TJ_REG (n : Nat) : Fld := ⟨0x201218 + 0x40 * n, 16, 16⟩
/-- SOA +0x18 SOA_TJ bits 15:0: Trip temperature, signed, 0.05 °C (165 °C) (02_power_entry.md R43) -/
def SOA_TJ.TJ_TRIP (n : Nat) : Fld := ⟨0x201218 + 0x40 * n, 0, 16⟩
/-- SOA +0x1C SOA_TREF bits 15:0: Case temperature used without a thermistor, signed, 0.05 °C (75 °C) (02_power_entry.md R43) -/
def SOA_TREF.T_FIXED (n : Nat) : Fld := ⟨0x20121C + 0x40 * n, 0, 16⟩
/-- EG +0x00 EG_CFG bits 31:24: Sharing tolerance in 0.5% of the group mean (02_power_entry.md R49) -/
def EG_CFG.BAL_TOL (n : Nat) : Fld := ⟨0x201040 + 0x10 * n, 24, 8⟩
/-- EG +0x00 EG_CFG bits 19:18: Fewest members with which the group continues, minus one (02_power_entry.md R49) -/
def EG_CFG.GROUP_MIN (n : Nat) : Fld := ⟨0x201040 + 0x10 * n, 18, 2⟩
/-- EG +0x00 EG_CFG bits 17:17: 1 permits the group to continue after a member is latched (02_power_entry.md R49) -/
def EG_CFG.CONTINUE (n : Nat) : Fld := ⟨0x201040 + 0x10 * n, 17, 1⟩
/-- EG +0x00 EG_CFG bits 15:0: Bit n set: En is a member; 0x0000 disables the group (02_power_entry.md R49) -/
def EG_CFG.MEMBERS (n : Nat) : Fld := ⟨0x201040 + 0x10 * n, 0, 16⟩
/-- ENTRYDEV +0x00 HU_CFG bits 31:28: Backplane channels or groups that must reach ON for hold-up exit, minus one (02_power_entry.md R53) -/
def HU_CFG.HU_EXIT_MIN : Fld := ⟨0x201000, 28, 4⟩
/-- ENTRYDEV +0x00 HU_CFG bits 25:16: Backplane good threshold on VIN, 75 mV × code (46.35 V) (02_power_entry.md R53) -/
def HU_CFG.V_BP_OK : Fld := ⟨0x201000, 16, 10⟩
/-- ENTRYDEV +0x00 HU_CFG bits 9:0: Engagement threshold on the bus, 75 mV × code (43.95 V) (02_power_entry.md R53) -/
def HU_CFG.V_HOLDUP_ON : Fld := ⟨0x201000, 0, 10⟩
/-- ENTRYDEV +0x04 HU_FILT bits 7:0: Engagement filter in converter clocks, 0–255 (0–1.275 µs) (02_power_entry.md R53) -/
def HU_FILT.VAL : Fld := ⟨0x201004, 0, 8⟩
/-- ENTRYDEV +0x08 HU_EXIT_T bits 31:0: Qualification window in HOLDUP, Thyme ticks (02_power_entry.md R53) -/
def HU_EXIT_T.VAL : Fld := ⟨0x201008, 0, 32⟩
/-- ENTRYDEV +0x0C KEEP_CFG bits 31:24: Over-current threshold, 0.5 mV × code across RSHUNT (60 mV) (02_power_entry.md R59) -/
def KEEP_CFG.KEEP_OC_TH : Fld := ⟨0x20100C, 24, 8⟩
/-- ENTRYDEV +0x0C KEEP_CFG bits 20:16: Encoded as SC_TH (02_power_entry.md R59) -/
def KEEP_CFG.KEEP_SC_TH : Fld := ⟨0x20100C, 16, 5⟩
/-- ENTRYDEV +0x0C KEEP_CFG bits 12:0: Keep duration in 10 ms of the standby oscillator, 0–6,000 (0–60 s); values above 6,000 ... (02_power_entry.md R59) -/
def KEEP_CFG.KEEP_TIME : Fld := ⟨0x20100C, 0, 13⟩
/-- BRANCH +0x00 BR_CFG bits 31:31: 1 channel in use; 0 gate held off and on requests refused with ROLE_MISMATCH (03_branch_fuses.md R64) -/
def BR_CFG.USED (n : Nat) : Fld := ⟨0x202000 + 0x40 * n, 31, 1⟩
/-- BRANCH +0x00 BR_CFG bits 30:30: 0 case temperature from SOA_TREF.T_FIXED; 1 from Bn_TEMP (03_branch_fuses.md R64) -/
def BR_CFG.TEMP_SRC (n : Nat) : Fld := ⟨0x202000 + 0x40 * n, 30, 1⟩
/-- BRANCH +0x00 BR_CFG bits 29:27: SOA parameter table 0–7 (03_branch_fuses.md R64) -/
def BR_CFG.FET_TYPE (n : Nat) : Fld := ⟨0x202000 + 0x40 * n, 27, 3⟩
/-- BRANCH +0x00 BR_CFG bits 26:23: FETs in parallel, minus one (03_branch_fuses.md R64) -/
def BR_CFG.N_PAR (n : Nat) : Fld := ⟨0x202000 + 0x40 * n, 23, 4⟩
/-- BRANCH +0x00 BR_CFG bits 22:19: FETs sharing current in linear operation, minus one; above N_PAR is refused with ... (03_branch_fuses.md R64) -/
def BR_CFG.LIN_SHARE (n : Nat) : Fld := ⟨0x202000 + 0x40 * n, 19, 4⟩
/-- BRANCH +0x00 BR_CFG bits 18:13: Fuse policy record index (03_branch_fuses.md R64) -/
def BR_CFG.POLICY (n : Nat) : Fld := ⟨0x202000 + 0x40 * n, 13, 6⟩
/-- BRANCH +0x04 BR_FAST bits 22:16: Fast-trip filter in control clocks, 0–40 (0–50 ns); above 40 acts as 40 (03_branch_fuses.md R64) -/
def BR_FAST.FAST_FILT (n : Nat) : Fld := ⟨0x202004 + 0x40 * n, 16, 7⟩
/-- BRANCH +0x04 BR_FAST bits 12:8: Fast-trip threshold 10 mV + 2 mV × code, codes 0–20 (10–50 mV); above 20 acts as 20 (03_branch_fuses.md R64) -/
def BR_FAST.FAST_TH (n : Nat) : Fld := ⟨0x202004 + 0x40 * n, 8, 5⟩
/-- BRANCH +0x04 BR_FAST bits 5:0: Gate source and normal-off sink current, encoded as ENT_PROT.PULLUP (03_branch_fuses.md R64) -/
def BR_FAST.PULLUP (n : Nat) : Fld := ⟨0x202004 + 0x40 * n, 0, 6⟩
/-- BRANCH +0x08 BR_OC bits 10:0: Over-current threshold, positive I code (03_branch_fuses.md R64) -/
def BR_OC.OC_LIMIT (n : Nat) : Fld := ⟨0x202008 + 0x40 * n, 0, 11⟩
/-- BRANCH +0x0C BR_OC_TIME bits 31:0: OC and PWR window in Thyme ticks (03_branch_fuses.md R64) -/
def BR_OC_TIME.OC_TIME (n : Nat) : Fld := ⟨0x20200C + 0x40 * n, 0, 32⟩
/-- BRANCH +0x10 BR_SS bits 27:16: Soft-start completion threshold on V_DS, voltage code (about 0.5 V) (03_branch_fuses.md R64) -/
def BR_SS.VDS_DONE (n : Nat) : Fld := ⟨0x202010 + 0x40 * n, 16, 12⟩
/-- BRANCH +0x10 BR_SS bits 10:0: Soft-start current reference, positive I code (03_branch_fuses.md R64) -/
def BR_SS.SS_I (n : Nat) : Fld := ⟨0x202010 + 0x40 * n, 0, 11⟩
/-- BRANCH +0x14 BR_SS_TIME bits 31:0: Soft-start time limit in Thyme ticks (03_branch_fuses.md R64) -/
def BR_SS_TIME.SS_TMAX (n : Nat) : Fld := ⟨0x202014 + 0x40 * n, 0, 32⟩
/-- BRANCH +0x18 BR_DONE bits 31:0: Completion dwell in Thyme ticks (03_branch_fuses.md R64) -/
def BR_DONE.DONE_TIME (n : Nat) : Fld := ⟨0x202018 + 0x40 * n, 0, 32⟩
/-- BRANCH +0x1C BR_PLIM bits 15:0: Power limit in W (03_branch_fuses.md R64) -/
def BR_PLIM.P_LIM (n : Nat) : Fld := ⟨0x20201C + 0x40 * n, 0, 16⟩
/-- BRANCH +0x20 BR_VLIM bits 27:16: VIN over-voltage, voltage code (14.4 V) (03_branch_fuses.md R64) -/
def BR_VLIM.OV (n : Nat) : Fld := ⟨0x202020 + 0x40 * n, 16, 12⟩
/-- BRANCH +0x20 BR_VLIM bits 11:0: VIN under-voltage, voltage code (9.6 V) (03_branch_fuses.md R64) -/
def BR_VLIM.UV (n : Nat) : Fld := ⟨0x202020 + 0x40 * n, 0, 12⟩
/-- BRANCH +0x24 BR_REV bits 31:31: 1 enables the reverse trip (03_branch_fuses.md R64) -/
def BR_REV.REV_EN (n : Nat) : Fld := ⟨0x202024 + 0x40 * n, 31, 1⟩
/-- BRANCH +0x24 BR_REV bits 29:16: Reverse window in Thyme ticks (03_branch_fuses.md R64) -/
def BR_REV.REV_FILT (n : Nat) : Fld := ⟨0x202024 + 0x40 * n, 16, 14⟩
/-- BRANCH +0x24 BR_REV bits 10:0: Reverse threshold, magnitude as an I code (03_branch_fuses.md R64) -/
def BR_REV.REV_TH (n : Nat) : Fld := ⟨0x202024 + 0x40 * n, 0, 11⟩
/-- BRANCH +0x28 BR_STATUS bits 31:16: Estimated junction temperature, signed, 0.05 °C (03_branch_fuses.md R64) -/
def BR_STATUS.TJ_EST (n : Nat) : Fld := ⟨0x202028 + 0x40 * n, 16, 16⟩
/-- BRANCH +0x28 BR_STATUS bits 15:8: Other causes present at the last trip, one bit per cause code (03_branch_fuses.md R64) -/
def BR_STATUS.ALSO (n : Nat) : Fld := ⟨0x202028 + 0x40 * n, 8, 8⟩
/-- BRANCH +0x28 BR_STATUS bits 7:4: Cause of the last trip (03_branch_fuses.md R64) -/
def BR_STATUS.CAUSE (n : Nat) : Fld := ⟨0x202028 + 0x40 * n, 4, 4⟩
/-- BRANCH +0x28 BR_STATUS bits 3:0: Channel state (03_branch_fuses.md R64) -/
def BR_STATUS.STATE (n : Nat) : Fld := ⟨0x202028 + 0x40 * n, 0, 4⟩
/-- BRANCH +0x2C BR_EVT bits 7:0: Bit c set when a trip of cause c occurs; bit 0 set at each UV return to CHECK (03_branch_fuses.md R64) -/
def BR_EVT.EVT (n : Nat) : Fld := ⟨0x20202C + 0x40 * n, 0, 8⟩
/-- BRANCH +0x30 BR_SHUNT bits 15:0: RSHUNT of the branch, 0.1 µΩ (03_branch_fuses.md R64) -/
def BR_SHUNT.RSHUNT (n : Nat) : Fld := ⟨0x202030 + 0x40 * n, 0, 16⟩
/-- POLICY +0x00 POL0 bits 31:30: Units that may name the record: 0b00 any; 0b01 entry; 0b10 branch; 0b11 phase (03_branch_fuses.md R68) -/
def POL0.KIND (n : Nat) : Fld := ⟨0x2000 + 0x20 * n, 30, 2⟩
/-- POLICY +0x00 POL0 bits 29:27: Fault level of each trip, 0–4 for L0–L4; 5–7 refused with RECORD_INVALID (03_branch_fuses.md R68) -/
def POL0.NOTIFY (n : Nat) : Fld := ⟨0x2000 + 0x20 * n, 27, 3⟩
/-- POLICY +0x00 POL0 bits 26:25: On latching: 0b00 fence under the unit's fence rule; 0b01 also raise SAFE-STOP (L4); ... (03_branch_fuses.md R68) -/
def POL0.LATCH_ACT (n : Nat) : Fld := ⟨0x2000 + 0x20 * n, 25, 2⟩
/-- POLICY +0x00 POL0 bits 24:24: 0 delay ×1; 1 delay ×2 per retry made (03_branch_fuses.md R68) -/
def POL0.BACKOFF (n : Nat) : Fld := ⟨0x2000 + 0x20 * n, 24, 1⟩
/-- POLICY +0x00 POL0 bits 23:20: Retries allowed, 0–14; 15 unlimited (03_branch_fuses.md R68) -/
def POL0.RETRY_MAX (n : Nat) : Fld := ⟨0x2000 + 0x20 * n, 20, 4⟩
/-- POLICY +0x00 POL0 bits 15:8: Bit c enables trip cause c of the unit's own cause table; bit 8 of the word is reserved ... (03_branch_fuses.md R68) -/
def POL0.TRIP_EN (n : Nat) : Fld := ⟨0x2000 + 0x20 * n, 8, 8⟩
/-- POLICY +0x00 POL0 bits 7:0: Bit c set: cause c latches at once, whatever the count (03_branch_fuses.md R68) -/
def POL0.LATCH_NOW (n : Nat) : Fld := ⟨0x2000 + 0x20 * n, 0, 8⟩
/-- POLICY +0x04 POL1 bits 31:0: Base retry delay in Thyme ticks (03_branch_fuses.md R68) -/
def POL1.RETRY_DELAY (n : Nat) : Fld := ⟨0x2004 + 0x20 * n, 0, 32⟩
/-- POLICY +0x08 POL2 bits 31:0: Longest delay after back-off in Thyme ticks; 0 means no cap (03_branch_fuses.md R68) -/
def POL2.DELAY_CAP (n : Nat) : Fld := ⟨0x2008 + 0x20 * n, 0, 32⟩
/-- POLICY +0x0C POL3 bits 31:0: Continuous ON time that returns the retry count to 0, Thyme ticks (03_branch_fuses.md R68) -/
def POL3.COUNT_CLEAR (n : Nat) : Fld := ⟨0x200C + 0x20 * n, 0, 32⟩
/-- POLICY +0x10 POL4 bits 31:16: Cool-down temperature, signed, 0.05 °C (90 °C) (03_branch_fuses.md R68) -/
def POL4.T_RETRY (n : Nat) : Fld := ⟨0x2010 + 0x20 * n, 16, 16⟩
/-- POLICY +0x10 POL4 bits 0:0: 1 applies the cool-down condition before each retry (03_branch_fuses.md R68) -/
def POL4.COOL_EN (n : Nat) : Fld := ⟨0x2010 + 0x20 * n, 0, 1⟩
/-- POLICY +0x14 POL5 bits 31:0: Longest cool-down wait in Thyme ticks (03_branch_fuses.md R68) -/
def POL5.COOL_TMAX (n : Nat) : Fld := ⟨0x2014 + 0x20 * n, 0, 32⟩
/-- RETRY +0x00 RETRY_STAT bits 12:12: The last latch followed a cool-down timeout; written at each latch, 1 after a cool-down ... (03_branch_fuses.md R72) -/
def RETRY_STAT.COOL_TO (n : Nat) : Fld := ⟨0x2800 + 0x4 * n, 12, 1⟩
/-- RETRY +0x00 RETRY_STAT bits 11:8: 0x0 IDLE; 0x1 DELAY; 0x2 COOL; 0x3 LATCHED (03_branch_fuses.md R72) -/
def RETRY_STAT.RSTATE (n : Nat) : Fld := ⟨0x2800 + 0x4 * n, 8, 4⟩
/-- RETRY +0x00 RETRY_STAT bits 7:0: Retries made since the count last cleared; saturates at 255 (03_branch_fuses.md R72) -/
def RETRY_STAT.RETRY_CNT (n : Nat) : Fld := ⟨0x2800 + 0x4 * n, 0, 8⟩
/-- BMAP +0x00 BMAP bits 31:31: Entry in use (03_branch_fuses.md R78) -/
def BMAP.VALID (n k : Nat) : Fld := ⟨0x203000 + 0x40 * n + 4 * k, 31, 1⟩
/-- BMAP +0x00 BMAP bits 30:29: 0b00 DISABLE: a rail fed by the branch is disabled; 0b01 DEPEND: a rail that depends on ... (03_branch_fuses.md R78) -/
def BMAP.ACTION (n k : Nat) : Fld := ⟨0x203000 + 0x40 * n + 4 * k, 29, 2⟩
/-- BMAP +0x00 BMAP bits 21:16: Rail 0–63 (03_branch_fuses.md R78) -/
def BMAP.RAIL (n k : Nat) : Fld := ⟨0x203000 + 0x40 * n + 4 * k, 16, 6⟩
/-- BMAP +0x00 BMAP bits 15:0: DEPEND delay in units of 8 Thyme ticks (10 ns), 0–524,280 ticks (0–655.35 µs); must be ... (03_branch_fuses.md R78) -/
def BMAP.DELAY (n k : Nat) : Fld := ⟨0x203000 + 0x40 * n + 4 * k, 0, 16⟩
/-- RAIL +0x00 RAIL_CFG bits 31:30: Strategy under R17 (04_rail_loom.md R85) -/
def RAIL_CFG.STRATEGY (n : Nat) : Fld := ⟨0x100000 + 0x200 * n, 30, 2⟩
/-- RAIL +0x00 RAIL_CFG bits 29:29: RAIL_DISABLE: 0 immediate; 1 ramp down (04_rail_loom.md R85) -/
def RAIL_CFG.DIS_MODE (n : Nat) : Fld := ⟨0x100000 + 0x200 * n, 29, 1⟩
/-- RAIL +0x00 RAIL_CFG bits 28:28: Phase level on an OV trip: 0 MID; 1 LOW (04_rail_loom.md R85) -/
def RAIL_CFG.OV_ACTION (n : Nat) : Fld := ⟨0x100000 + 0x200 * n, 28, 1⟩
/-- RAIL +0x04 RAIL_PERIOD bits 15:0: Switching period in PWM timebase clocks (312.5 ps), 640–16,000 (200 ns–5 µs) (04_rail_loom.md R85) -/
def RAIL_PERIOD.PERIOD (n : Nat) : Fld := ⟨0x100004 + 0x200 * n, 0, 16⟩
/-- RAIL +0x08 RAIL_PULSE bits 23:16: Shortest on-pulse in PWM timebase clocks (04_rail_loom.md R85) -/
def RAIL_PULSE.T_ON_MIN (n : Nat) : Fld := ⟨0x100008 + 0x200 * n, 16, 8⟩
/-- RAIL +0x08 RAIL_PULSE bits 7:0: Shortest off-time in PWM timebase clocks (04_rail_loom.md R85) -/
def RAIL_PULSE.T_OFF_MIN (n : Nat) : Fld := ⟨0x100008 + 0x200 * n, 0, 8⟩
/-- RAIL +0x0C RAIL_DCLAMP bits 31:16: Largest duty, Q16 fraction of PERIOD (04_rail_loom.md R85) -/
def RAIL_DCLAMP.D_MAX (n : Nat) : Fld := ⟨0x10000C + 0x200 * n, 16, 16⟩
/-- RAIL +0x0C RAIL_DCLAMP bits 15:0: Smallest duty, Q16 (04_rail_loom.md R85) -/
def RAIL_DCLAMP.D_MIN (n : Nat) : Fld := ⟨0x10000C + 0x200 * n, 0, 16⟩
/-- RAIL +0x10 WARP_HOME bits 31:0: Bit i of word w: phase 32w + i of the home die is in the warp (04_rail_loom.md R85) -/
def WARP_HOME.HOME (n k : Nat) : Fld := ⟨0x100010 + 0x200 * n + 4 * k, 0, 32⟩
/-- RAIL +0x20 WARP_NEIGH bits 31:0: As HOME, for the neighbour die named in NEIGH (04_rail_loom.md R85) -/
def WARP_NEIGH.NEIGH_MASK (n k : Nat) : Fld := ⟨0x100020 + 0x200 * n + 4 * k, 0, 32⟩
/-- RAIL +0x30 RAIL_WARPSEL bits 1:0: 0b00 no neighbour; 0b01 die (home − 1); 0b10 die (home + 1); 0b11 refused (04_rail_loom.md R85) -/
def RAIL_WARPSEL.NEIGH (n : Nat) : Fld := ⟨0x100030 + 0x200 * n, 0, 2⟩
/-- RAIL +0x34 RAIL_TARGET bits 11:0: Committed target in 0.5 mV (04_rail_loom.md R85) -/
def RAIL_TARGET.TARGET (n : Nat) : Fld := ⟨0x100034 + 0x200 * n, 0, 12⟩
/-- RAIL +0x38 RAIL_SLEW bits 23:16: Soft-start slew in 0.25 mV/µs (04_rail_loom.md R85) -/
def RAIL_SLEW.SS_SLEW (n : Nat) : Fld := ⟨0x100038 + 0x200 * n, 16, 8⟩
/-- RAIL +0x38 RAIL_SLEW bits 7:0: Target-change slew in 0.25 mV/µs (04_rail_loom.md R85) -/
def RAIL_SLEW.SLEW (n : Nat) : Fld := ⟨0x100038 + 0x200 * n, 0, 8⟩
/-- RAIL +0x3C RAIL_BAND bits 27:16: Upper limit of target plus pre-bias, 0.5 mV, at most 4,000 (2,000 mV) (04_rail_loom.md R85) -/
def RAIL_BAND.VMAX (n : Nat) : Fld := ⟨0x10003C + 0x200 * n, 16, 12⟩
/-- RAIL +0x3C RAIL_BAND bits 11:0: Lower limit of target, 0.5 mV (04_rail_loom.md R85) -/
def RAIL_BAND.VMIN (n : Nat) : Fld := ⟨0x10003C + 0x200 * n, 0, 12⟩
/-- RAIL +0x40 RAIL_LL bits 11:0: Load line in µΩ, 0–4,095 (04_rail_loom.md R85) -/
def RAIL_LL.R_LL (n : Nat) : Fld := ⟨0x100040 + 0x200 * n, 0, 12⟩
/-- RAIL +0x44 RAIL_CATCH bits 31:24: Release hysteresis in mV (04_rail_loom.md R85) -/
def RAIL_CATCH.CATCH_HYST (n : Nat) : Fld := ⟨0x100044 + 0x200 * n, 24, 8⟩
/-- RAIL +0x44 RAIL_CATCH bits 23:16: Overshoot threshold above the reference, mV (04_rail_loom.md R85) -/
def RAIL_CATCH.CATCH_HI (n : Nat) : Fld := ⟨0x100044 + 0x200 * n, 16, 8⟩
/-- RAIL +0x44 RAIL_CATCH bits 15:8: Undershoot threshold below the reference, mV; codes below 10 act as 10 (04_rail_loom.md R85) -/
def RAIL_CATCH.CATCH_LO (n : Nat) : Fld := ⟨0x100044 + 0x200 * n, 8, 8⟩
/-- RAIL +0x44 RAIL_CATCH bits 0:0: 1 arms the catch comparators in RUN and STOPPING (04_rail_loom.md R85) -/
def RAIL_CATCH.CATCH_EN (n : Nat) : Fld := ⟨0x100044 + 0x200 * n, 0, 1⟩
/-- RAIL +0x48 RAIL_CATCH_MAX bits 15:0: Longest catch in control clocks (04_rail_loom.md R85) -/
def RAIL_CATCH_MAX.CATCH_MAX (n : Nat) : Fld := ⟨0x100048 + 0x200 * n, 0, 16⟩
/-- RAIL +0x4C RAIL_PROT bits 27:16: Absolute over-voltage trip, 0.5 mV (04_rail_loom.md R85) -/
def RAIL_PROT.OV_TRIP (n : Nat) : Fld := ⟨0x10004C + 0x200 * n, 16, 12⟩
/-- RAIL +0x4C RAIL_PROT bits 7:0: Under-voltage margin below the reference, mV (04_rail_loom.md R85) -/
def RAIL_PROT.UV_MARGIN (n : Nat) : Fld := ⟨0x10004C + 0x200 * n, 0, 8⟩
/-- RAIL +0x50 RAIL_UV_TIME bits 31:0: UV window in Thyme ticks (04_rail_loom.md R85) -/
def RAIL_UV_TIME.UV_TIME (n : Nat) : Fld := ⟨0x100050 + 0x200 * n, 0, 32⟩
/-- RAIL +0x54 RAIL_PG bits 31:16: Power-good loss window in Thyme ticks (04_rail_loom.md R85) -/
def RAIL_PG.PG_FILT (n : Nat) : Fld := ⟨0x100054 + 0x200 * n, 16, 16⟩
/-- RAIL +0x54 RAIL_PG bits 7:0: Power-good window half-width in mV (04_rail_loom.md R85) -/
def RAIL_PG.PG_WIN (n : Nat) : Fld := ⟨0x100054 + 0x200 * n, 0, 8⟩
/-- RAIL +0x58 RAIL_PG_DELAY bits 31:0: Power-good assertion window in Thyme ticks (04_rail_loom.md R85) -/
def RAIL_PG_DELAY.PG_DELAY (n : Nat) : Fld := ⟨0x100058 + 0x200 * n, 0, 32⟩
/-- RAIL +0x5C RAIL_SS_TMAX bits 31:0: Start-up time limit in Thyme ticks (04_rail_loom.md R85) -/
def RAIL_SS_TMAX.SS_TMAX (n : Nat) : Fld := ⟨0x10005C + 0x200 * n, 0, 32⟩
/-- RAIL +0x60 COEF_B0 bits 31:0: Active set, signed, 2⁻³² duty per error code (04_rail_loom.md R85) -/
def COEF_B0.B0 (n : Nat) : Fld := ⟨0x100060 + 0x200 * n, 0, 32⟩
/-- RAIL +0x64 COEF_B1 bits 31:0: As B0 (04_rail_loom.md R85) -/
def COEF_B1.B1 (n : Nat) : Fld := ⟨0x100064 + 0x200 * n, 0, 32⟩
/-- RAIL +0x68 COEF_B2 bits 31:0: As B0 (04_rail_loom.md R85) -/
def COEF_B2.B2 (n : Nat) : Fld := ⟨0x100068 + 0x200 * n, 0, 32⟩
/-- RAIL +0x6C COEF_POLE bits 31:16: Second filter pole, unsigned Q16; 0 bypasses the filter (04_rail_loom.md R85) -/
def COEF_POLE.P2 (n : Nat) : Fld := ⟨0x10006C + 0x200 * n, 16, 16⟩
/-- RAIL +0x6C COEF_POLE bits 15:0: First filter pole, as P2 (04_rail_loom.md R85) -/
def COEF_POLE.P1 (n : Nat) : Fld := ⟨0x10006C + 0x200 * n, 0, 16⟩
/-- RAIL +0x70 COEF_KDI bits 31:0: Current-derivative gain, signed, 2⁻³² duty per 1/16 A of change over 40 ticks (04_rail_loom.md R85) -/
def COEF_KDI.KDI (n : Nat) : Fld := ⟨0x100070 + 0x200 * n, 0, 32⟩
/-- RAIL +0x80 SH bits 31:0: Shadow set, same layout as 0x60–0x70 (04_rail_loom.md R85) -/
def SH.VAL (n k : Nat) : Fld := ⟨0x100080 + 0x200 * n + 4 * k, 0, 32⟩
/-- RAIL +0x94 COEF_CTL bits 31:31: 1 while a loaded shadow set waits for its swap (04_rail_loom.md R85) -/
def COEF_CTL.PENDING (n : Nat) : Fld := ⟨0x100094 + 0x200 * n, 31, 1⟩
/-- RAIL +0x94 COEF_CTL bits 15:0: Tag of the COEF_LOAD last swapped in (04_rail_loom.md R85) -/
def COEF_CTL.LOAD_TAG (n : Nat) : Fld := ⟨0x100094 + 0x200 * n, 0, 16⟩
/-- RAIL +0x100 RAIL_STATUS bits 12:12: Reference moving towards the target (04_rail_loom.md R85) -/
def RAIL_STATUS.SLEWING (n : Nat) : Fld := ⟨0x100100 + 0x200 * n, 12, 1⟩
/-- RAIL +0x100 RAIL_STATUS bits 11:11: Latest RVC code saturated (04_rail_loom.md R85) -/
def RAIL_STATUS.RANGE (n : Nat) : Fld := ⟨0x100100 + 0x200 * n, 11, 1⟩
/-- RAIL +0x100 RAIL_STATUS bits 10:10: Duty handoff uses the neighbour link (04_rail_loom.md R85) -/
def RAIL_STATUS.CROSS (n : Nat) : Fld := ⟨0x100100 + 0x200 * n, 10, 1⟩
/-- RAIL +0x100 RAIL_STATUS bits 9:8: Latest duty clamped: 0b01 at D_MIN; 0b10 at D_MAX (04_rail_loom.md R85) -/
def RAIL_STATUS.CLAMP (n : Nat) : Fld := ⟨0x100100 + 0x200 * n, 8, 2⟩
/-- RAIL +0x100 RAIL_STATUS bits 7:6: 0b01 undershoot catch active; 0b10 overshoot catch active (04_rail_loom.md R85) -/
def RAIL_STATUS.CATCH (n : Nat) : Fld := ⟨0x100100 + 0x200 * n, 6, 2⟩
/-- RAIL +0x100 RAIL_STATUS bits 5:5: Power-good (04_rail_loom.md R85) -/
def RAIL_STATUS.PG (n : Nat) : Fld := ⟨0x100100 + 0x200 * n, 5, 1⟩
/-- RAIL +0x100 RAIL_STATUS bits 4:4: RVC mode: 0 wide-range; 1 error (04_rail_loom.md R85) -/
def RAIL_STATUS.MODE (n : Nat) : Fld := ⟨0x100100 + 0x200 * n, 4, 1⟩
/-- RAIL +0x100 RAIL_STATUS bits 3:0: Rail state under *Rail states* (04_rail_loom.md R85) -/
def RAIL_STATUS.STATE (n : Nat) : Fld := ⟨0x100100 + 0x200 * n, 0, 4⟩
/-- RAIL +0x104 RAIL_VREF bits 23:0: Present committed reference in 0.25 µV (04_rail_loom.md R85) -/
def RAIL_VREF.VREF (n : Nat) : Fld := ⟨0x100104 + 0x200 * n, 0, 24⟩
/-- RAIL +0x108 RAIL_VMEAS bits 15:0: Latest measured voltage in 31.25 µV (04_rail_loom.md R85) -/
def RAIL_VMEAS.VMEAS (n : Nat) : Fld := ⟨0x100108 + 0x200 * n, 0, 16⟩
/-- RAIL +0x10C RAIL_IMEAS bits 15:0: Rail current, signed, 1/16 A (04_rail_loom.md R85) -/
def RAIL_IMEAS.IMEAS (n : Nat) : Fld := ⟨0x10010C + 0x200 * n, 0, 16⟩
/-- RAIL +0x110 RAIL_PMEAS bits 15:0: Rail power in 0.1 W (04_rail_loom.md R85) -/
def RAIL_PMEAS.PMEAS (n : Nat) : Fld := ⟨0x100110 + 0x200 * n, 0, 16⟩
/-- RAIL +0x114 RAIL_DUTY bits 15:0: Latest applied rail duty, Q16 (04_rail_loom.md R85) -/
def RAIL_DUTY.DUTY (n : Nat) : Fld := ⟨0x100114 + 0x200 * n, 0, 16⟩
/-- RAIL +0x118 RAIL_EVT bits 8:0: Bit 0 CATCH_U; 1 CATCH_O; 2 CATCH_EXP; 3 OV; 4 UV; 5 SS_TIMEOUT; 6 SENSE; 7 RANGE; 8 CLAMP (04_rail_loom.md R85) -/
def RAIL_EVT.EVT (n : Nat) : Fld := ⟨0x100118 + 0x200 * n, 0, 9⟩
/-- RAIL +0x180 MASK_HOME bits 31:0: Mask bits for home-die phases, laid out as WARP_HOME; bits outside the warp are ignored (05_phase_management.md R123) -/
def MASK_HOME.HOME (n k : Nat) : Fld := ⟨0x100180 + 0x200 * n + 4 * k, 0, 32⟩
/-- RAIL +0x190 MASK_NEIGH bits 31:0: As HOME, for the neighbour die (05_phase_management.md R123) -/
def MASK_NEIGH.NEIGH (n k : Nat) : Fld := ⟨0x100190 + 0x200 * n + 4 * k, 0, 32⟩
/-- RAIL +0x1A0 PH_CFG bits 31:26: Fewest available phases with which the rail runs: codes 1–63 give that count; code 0 ... (05_phase_management.md R123) -/
def PH_CFG.MIN_PHASES (n : Nat) : Fld := ⟨0x1001A0 + 0x200 * n, 26, 6⟩
/-- RAIL +0x1A0 PH_CFG bits 25:20: Fuse policy record named by every phase of the warp (05_phase_management.md R123) -/
def PH_CFG.PH_POLICY (n : Nat) : Fld := ⟨0x1001A0 + 0x200 * n, 20, 6⟩
/-- RAIL +0x1A0 PH_CFG bits 19:17: Efficiency table 0–7 used by the heddle (05_phase_management.md R123) -/
def PH_CFG.EFF_TABLE (n : Nat) : Fld := ⟨0x1001A0 + 0x200 * n, 17, 3⟩
/-- RAIL +0x1A0 PH_CFG bits 16:16: 1 runs the reed (05_phase_management.md R123) -/
def PH_CFG.REED_EN (n : Nat) : Fld := ⟨0x1001A0 + 0x200 * n, 16, 1⟩
/-- RAIL +0x1A0 PH_CFG bits 15:15: 1 enables thermal rotation (05_phase_management.md R123) -/
def PH_CFG.ROT_EN (n : Nat) : Fld := ⟨0x1001A0 + 0x200 * n, 15, 1⟩
/-- RAIL +0x1A0 PH_CFG bits 14:0: Centre of slot 0, PWM timebase clocks; must be below PERIOD (05_phase_management.md R123) -/
def PH_CFG.ROT_OFFSET (n : Nat) : Fld := ⟨0x1001A0 + 0x200 * n, 0, 15⟩
/-- RAIL +0x1A4 REED_GAIN bits 31:0: Reed gain, unsigned, 2⁻³² duty per 1/16 A of sharing error per update (05_phase_management.md R123) -/
def REED_GAIN.REED_K (n : Nat) : Fld := ⟨0x1001A4 + 0x200 * n, 0, 32⟩
/-- RAIL +0x1A8 REED_LIM bits 15:0: Largest trim magnitude, Q16 duty (05_phase_management.md R123) -/
def REED_LIM.TRIM_MAX (n : Nat) : Fld := ⟨0x1001A8 + 0x200 * n, 0, 16⟩
/-- RAIL +0x1AC SHARE_TIME bits 31:0: SHARE window, Thyme ticks (05_phase_management.md R123) -/
def SHARE_TIME.VAL (n : Nat) : Fld := ⟨0x1001AC + 0x200 * n, 0, 32⟩
/-- RAIL +0x1B0 RAIL_ILIM bits 15:0: Rail current limit with the full warp, 1/16 A (05_phase_management.md R123) -/
def RAIL_ILIM.I_LIM (n : Nat) : Fld := ⟨0x1001B0 + 0x200 * n, 0, 16⟩
/-- RAIL +0x1B4 ILIM_TIME bits 31:0: Rail over-current window, Thyme ticks (05_phase_management.md R123) -/
def ILIM_TIME.VAL (n : Nat) : Fld := ⟨0x1001B4 + 0x200 * n, 0, 32⟩
/-- RAIL +0x1B8 HED_CFG bits 31:28: Heddle current filter, 2⁻ᴴᴱᴰ_ˢᴴᴵᶠᵀ per period (05_phase_management.md R123) -/
def HED_CFG.HED_SHIFT (n : Nat) : Fld := ⟨0x1001B8 + 0x200 * n, 28, 4⟩
/-- RAIL +0x1B8 HED_CFG bits 27:24: Heat filter, as HED_SHIFT (05_phase_management.md R123) -/
def HED_CFG.HEAT_SHIFT (n : Nat) : Fld := ⟨0x1001B8 + 0x200 * n, 24, 4⟩
/-- RAIL +0x1B8 HED_CFG bits 15:0: Shedding hysteresis, 1/16 A (05_phase_management.md R123) -/
def HED_CFG.HED_HYST (n : Nat) : Fld := ⟨0x1001B8 + 0x200 * n, 0, 16⟩
/-- RAIL +0x1BC HED_DWELL bits 31:0: Shedding dwell, Thyme ticks (05_phase_management.md R123) -/
def HED_DWELL.VAL (n : Nat) : Fld := ⟨0x1001BC + 0x200 * n, 0, 32⟩
/-- RAIL +0x1C0 ROT_CFG bits 31:16: Switching periods between rotation checks; 0 disables rotation (05_phase_management.md R123) -/
def ROT_CFG.ROT_PERIOD (n : Nat) : Fld := ⟨0x1001C0 + 0x200 * n, 16, 16⟩
/-- RAIL +0x1C0 ROT_CFG bits 15:0: Heat difference that triggers a swap, 1/16 A (05_phase_management.md R123) -/
def ROT_CFG.ROT_HYST (n : Nat) : Fld := ⟨0x1001C0 + 0x200 * n, 0, 16⟩
/-- RAIL +0x1C4 TF_CFG bits 27:16: TFLT slope, 0.01 mV/°C (05_phase_management.md R123) -/
def TF_CFG.TF_SLOPE (n : Nat) : Fld := ⟨0x1001C4 + 0x200 * n, 16, 12⟩
/-- RAIL +0x1C4 TF_CFG bits 11:0: TFLT voltage at 0 °C, mV (05_phase_management.md R123) -/
def TF_CFG.TF_V0 (n : Nat) : Fld := ⟨0x1001C4 + 0x200 * n, 0, 12⟩
/-- RAIL +0x1C8 TF_HOT bits 15:0: HOT threshold, signed, 0.05 °C (110 °C) (05_phase_management.md R123) -/
def TF_HOT.T_HOT (n : Nat) : Fld := ⟨0x1001C8 + 0x200 * n, 0, 16⟩
/-- RAIL +0x1CC PH_FUSE bits 7:0: Analog fuse threshold above GRPk_REFIN, 4 mV per code (05_phase_management.md R123) -/
def PH_FUSE.FUSE_TH (n : Nat) : Fld := ⟨0x1001CC + 0x200 * n, 0, 8⟩
/-- RAIL +0x1D0 PH_OC bits 31:16: Negative current limit magnitude, 1/16 A (05_phase_management.md R123) -/
def PH_OC.NEG_LIMIT (n : Nat) : Fld := ⟨0x1001D0 + 0x200 * n, 16, 16⟩
/-- RAIL +0x1D0 PH_OC bits 15:0: Positive current limit, 1/16 A (05_phase_management.md R123) -/
def PH_OC.OC_LIMIT (n : Nat) : Fld := ⟨0x1001D0 + 0x200 * n, 0, 16⟩
/-- RAIL +0x1D4 PH_OC_TIME bits 31:0: OC and NEG window, Thyme ticks (05_phase_management.md R123) -/
def PH_OC_TIME.VAL (n : Nat) : Fld := ⟨0x1001D4 + 0x200 * n, 0, 32⟩
/-- RAIL +0x1D8 PH_STATUS bits 31:31: N_AVAIL < N_WARP (05_phase_management.md R123) -/
def PH_STATUS.DEG (n : Nat) : Fld := ⟨0x1001D8 + 0x200 * n, 31, 1⟩
/-- RAIL +0x1D8 PH_STATUS bits 30:30: Re-interleave in progress (05_phase_management.md R123) -/
def PH_STATUS.REINT (n : Nat) : Fld := ⟨0x1001D8 + 0x200 * n, 30, 1⟩
/-- RAIL +0x1D8 PH_STATUS bits 29:29: Active set filled beyond the mask under R129 (05_phase_management.md R123) -/
def PH_STATUS.MASK_FILL (n : Nat) : Fld := ⟨0x1001D8 + 0x200 * n, 29, 1⟩
/-- RAIL +0x1D8 PH_STATUS bits 22:16: Active phases (05_phase_management.md R123) -/
def PH_STATUS.N_ACTIVE (n : Nat) : Fld := ⟨0x1001D8 + 0x200 * n, 16, 7⟩
/-- RAIL +0x1D8 PH_STATUS bits 14:8: Available phases (05_phase_management.md R123) -/
def PH_STATUS.N_AVAIL (n : Nat) : Fld := ⟨0x1001D8 + 0x200 * n, 8, 7⟩
/-- RAIL +0x1D8 PH_STATUS bits 6:0: Warp size (05_phase_management.md R123) -/
def PH_STATUS.N_WARP (n : Nat) : Fld := ⟨0x1001D8 + 0x200 * n, 0, 7⟩
/-- RAIL +0x1DC PH_ILIM_EFF bits 15:0: Scaled rail current limit, 1/16 A (05_phase_management.md R123) -/
def PH_ILIM_EFF.I_LIM_EFF (n : Nat) : Fld := ⟨0x1001DC + 0x200 * n, 0, 16⟩
/-- RAIL +0x1E0 RPH_EVT bits 6:0: Bit 0 WITHDRAW; 1 REINT_DONE; 2 MASK_FILL; 3 RAIL_OC; 4 MIN_LOSS; 5 ROTATE; 6 SHED (05_phase_management.md R123) -/
def RPH_EVT.EVT (n : Nat) : Fld := ⟨0x1001E0 + 0x200 * n, 0, 7⟩
/-- RAIL +0x140 SPEC_PB bits 31:24: Pre-bias removal, 0.25 mV/µs (06_load_intent.md R160) -/
def SPEC_PB.RETRACT_SLEW (n : Nat) : Fld := ⟨0x100140 + 0x200 * n, 24, 8⟩
/-- RAIL +0x140 SPEC_PB bits 23:16: Pre-bias rise, 1 mV/µs (06_load_intent.md R160) -/
def SPEC_PB.PB_SLEW (n : Nat) : Fld := ⟨0x100140 + 0x200 * n, 16, 8⟩
/-- RAIL +0x140 SPEC_PB bits 15:8: Pre-bias per ampere announced, µV/A (06_load_intent.md R160) -/
def SPEC_PB.PB_GAIN (n : Nat) : Fld := ⟨0x100140 + 0x200 * n, 8, 8⟩
/-- RAIL +0x140 SPEC_PB bits 7:0: mV (06_load_intent.md R160) -/
def SPEC_PB.PREBIAS_MAX (n : Nat) : Fld := ⟨0x100140 + 0x200 * n, 0, 8⟩
/-- RAIL +0x144 SPEC_WIN bits 31:16: Ticks (06_load_intent.md R160) -/
def SPEC_WIN.W_LATE (n : Nat) : Fld := ⟨0x100144 + 0x200 * n, 16, 16⟩
/-- RAIL +0x144 SPEC_WIN bits 15:0: Ticks (06_load_intent.md R160) -/
def SPEC_WIN.W_EARLY (n : Nat) : Fld := ⟨0x100144 + 0x200 * n, 0, 16⟩
/-- RAIL +0x148 SPEC_CONF bits 18:18: 1 lets the wake take available phases outside the mask (06_load_intent.md R160) -/
def SPEC_CONF.WAKE_MASKED (n : Nat) : Fld := ⟨0x100148 + 0x200 * n, 18, 1⟩
/-- RAIL +0x148 SPEC_CONF bits 17:17: 1 enables pre-charge (06_load_intent.md R160) -/
def SPEC_CONF.PC_EN (n : Nat) : Fld := ⟨0x100148 + 0x200 * n, 17, 1⟩
/-- RAIL +0x148 SPEC_CONF bits 16:16: 1 enables phase wake (06_load_intent.md R160) -/
def SPEC_CONF.WAKE_EN (n : Nat) : Fld := ⟨0x100148 + 0x200 * n, 16, 1⟩
/-- RAIL +0x148 SPEC_CONF bits 15:8: Pre-charge cut, 1/256 of ΔI (06_load_intent.md R160) -/
def SPEC_CONF.PC_FRACTION (n : Nat) : Fld := ⟨0x100148 + 0x200 * n, 8, 8⟩
/-- RAIL +0x148 SPEC_CONF bits 7:0: 1/256 of ΔI (06_load_intent.md R160) -/
def SPEC_CONF.CONFIRM_FRACTION (n : Nat) : Fld := ⟨0x100148 + 0x200 * n, 0, 8⟩
/-- RAIL +0x14C SPEC_LEAD bits 31:16: Pre-charge start before T_step, ticks (06_load_intent.md R160) -/
def SPEC_LEAD.PC_LEAD (n : Nat) : Fld := ⟨0x10014C + 0x200 * n, 16, 16⟩
/-- RAIL +0x14C SPEC_LEAD bits 15:0: Wake before T_step, ticks (06_load_intent.md R160) -/
def SPEC_LEAD.WAKE_LEAD (n : Nat) : Fld := ⟨0x10014C + 0x200 * n, 0, 16⟩
/-- RAIL +0x150 SPEC_SHED bits 31:0: Ticks (06_load_intent.md R160) -/
def SPEC_SHED.SHED_HOLD (n : Nat) : Fld := ⟨0x100150 + 0x200 * n, 0, 32⟩
/-- RAIL +0x154 SPEC_FF bits 31:0: Pre-charge duty, unsigned, 2⁻³² duty per 0.25 A (06_load_intent.md R160) -/
def SPEC_FF.FF_GAIN (n : Nat) : Fld := ⟨0x100154 + 0x200 * n, 0, 32⟩
/-- RAIL +0x158 PEND_STATE bits 31:24: Port of the open or last speculation (06_load_intent.md R160) -/
def PEND_STATE.PORT (n : Nat) : Fld := ⟨0x100158 + 0x200 * n, 24, 8⟩
/-- RAIL +0x158 PEND_STATE bits 9:8: Last resolution, coded as OUTCOME (06_load_intent.md R160) -/
def PEND_STATE.LAST (n : Nat) : Fld := ⟨0x100158 + 0x200 * n, 8, 2⟩
/-- RAIL +0x158 PEND_STATE bits 2:0: 0b000 NONE; 0b001 OPEN; 0b010 COMMITTED; 0b011 RETRACTING; 0b100 SHADOW (06_load_intent.md R160) -/
def PEND_STATE.PHASE (n : Nat) : Fld := ⟨0x100158 + 0x200 * n, 0, 3⟩
/-- RAIL +0x15C PEND_PB bits 15:0: Present pb, signed, error codes (06_load_intent.md R160) -/
def PEND_PB.PB (n : Nat) : Fld := ⟨0x10015C + 0x200 * n, 0, 16⟩
/-- RAIL +0x160 PEND_UINT bits 31:0: Present u_int, signed, 2⁻³² duty (06_load_intent.md R160) -/
def PEND_UINT.UINT (n : Nat) : Fld := ⟨0x100160 + 0x200 * n, 0, 32⟩
/-- RAIL +0x164 PEND_WAKE bits 6:0: Phases held by the shuttle (06_load_intent.md R160) -/
def PEND_WAKE.WOKEN (n : Nat) : Fld := ⟨0x100164 + 0x200 * n, 0, 7⟩
/-- RAIL +0x168 PEND_STEP bits 15:0: Announced ΔI, 0.25 A (06_load_intent.md R160) -/
def PEND_STEP.DI (n : Nat) : Fld := ⟨0x100168 + 0x200 * n, 0, 16⟩
/-- RAIL +0x16C PEND_TSTEP bits 31:0: Low 32 bits of T_step (06_load_intent.md R160) -/
def PEND_TSTEP.TSTEP (n : Nat) : Fld := ⟨0x10016C + 0x200 * n, 0, 32⟩
/-- RAIL +0x170 SPEC_CNT bits 31:16: Saturates (06_load_intent.md R160) -/
def SPEC_CNT.RETRACTED (n : Nat) : Fld := ⟨0x100170 + 0x200 * n, 16, 16⟩
/-- RAIL +0x170 SPEC_CNT bits 15:0: Saturates (06_load_intent.md R160) -/
def SPEC_CNT.CONFIRMED (n : Nat) : Fld := ⟨0x100170 + 0x200 * n, 0, 16⟩
/-- RAIL +0x174 SPEC_EVT bits 4:0: Bit 0 OPEN; 1 CONFIRM; 2 RETRACT; 3 CANCEL; 4 PC_CUT (06_load_intent.md R160) -/
def SPEC_EVT.EVT (n : Nat) : Fld := ⟨0x100174 + 0x200 * n, 0, 5⟩
/-- PHASE +0x00 PH_TRIM bits 15:0: Offset, signed, PCC codes (05_phase_management.md R125) -/
def PH_TRIM.IOFS (n : Nat) : Fld := ⟨0x108000 + 0x20 * n, 0, 16⟩
/-- PHASE +0x04 PH_GAIN bits 31:0: Gain, signed, 2⁻¹⁶ of 1/16 A per PCC code (05_phase_management.md R125) -/
def PH_GAIN.IGAIN (n : Nat) : Fld := ⟨0x108004 + 0x20 * n, 0, 32⟩
/-- PHASE +0x08 PH_STATE bits 15:8: Other causes present at the last trip (05_phase_management.md R125) -/
def PH_STATE.ALSO (n : Nat) : Fld := ⟨0x108008 + 0x20 * n, 8, 8⟩
/-- PHASE +0x08 PH_STATE bits 7:4: Cause of the last trip (05_phase_management.md R125) -/
def PH_STATE.CAUSE (n : Nat) : Fld := ⟨0x108008 + 0x20 * n, 4, 4⟩
/-- PHASE +0x08 PH_STATE bits 3:0: Phase state (05_phase_management.md R125) -/
def PH_STATE.STATE (n : Nat) : Fld := ⟨0x108008 + 0x20 * n, 0, 4⟩
/-- PHASE +0x0C PH_DELTA bits 31:0: Reed trim δ, signed, 2⁻³² duty (05_phase_management.md R125) -/
def PH_DELTA.DELTA (n : Nat) : Fld := ⟨0x10800C + 0x20 * n, 0, 32⟩
/-- PHASE +0x10 PH_IAVG bits 15:0: iavg_i of R134 over the last period, signed, 1/16 A; 0 for a phase that was not active ... (05_phase_management.md R125) -/
def PH_IAVG.IAVG (n : Nat) : Fld := ⟨0x108010 + 0x20 * n, 0, 16⟩
/-- PHASE +0x14 PH_HEAT bits 15:0: Heat estimate, 1/16 A (05_phase_management.md R125) -/
def PH_HEAT.HEAT (n : Nat) : Fld := ⟨0x108014 + 0x20 * n, 0, 16⟩
/-- PHASE +0x18 PH_CENTRE bits 16:0: Present centre c_i, interpolation steps (05_phase_management.md R125) -/
def PH_CENTRE.CENTRE (n : Nat) : Fld := ⟨0x108018 + 0x20 * n, 0, 17⟩
/-- PHASE +0x1C PH_EVT bits 7:0: Bit c set when a trip of cause c occurs (05_phase_management.md R125) -/
def PH_EVT.EVT (n : Nat) : Fld := ⟨0x10801C + 0x20 * n, 0, 8⟩
/-- IP +0x00 IP_CFG bits 31:31: 1 enables the port (06_load_intent.md R157) -/
def IP_CFG.EN (n : Nat) : Fld := ⟨0xB400 + 0x40 * n, 31, 1⟩
/-- IP +0x00 IP_CFG bits 30:30: 1 lets the port change targets under R177 (06_load_intent.md R157) -/
def IP_CFG.VID_EN (n : Nat) : Fld := ⟨0xB400 + 0x40 * n, 30, 1⟩
/-- IP +0x00 IP_CFG bits 29:29: 1 ends throttling automatically under R175 (06_load_intent.md R157) -/
def IP_CFG.AUTO_RESTORE (n : Nat) : Fld := ⟨0xB400 + 0x40 * n, 29, 1⟩
/-- IP +0x00 IP_CFG bits 23:16: Resolutions in the credit window, 8–255 (06_load_intent.md R157) -/
def IP_CFG.CREDIT_WIN (n : Nat) : Fld := ⟨0xB400 + 0x40 * n, 16, 8⟩
/-- IP +0x00 IP_CFG bits 15:8: INTENT_MIN_RATE, 1/256 (06_load_intent.md R157) -/
def IP_CFG.MIN_RATE (n : Nat) : Fld := ⟨0xB400 + 0x40 * n, 8, 8⟩
/-- IP +0x04 IP_BIND bits 31:0: Byte k for slot k: bit 7 VALID, bit 6 reserved, bits 5:0 rail (06_load_intent.md R157) -/
def IP_BIND.SLOT (n : Nat) : Fld := ⟨0xB404 + 0x40 * n, 0, 32⟩
/-- IP +0x08 IP_STEPMAX bits 15:0: Largest |ΔI| granted, 0.25 A (06_load_intent.md R157) -/
def IP_STEPMAX.STEP_MAX (n : Nat) : Fld := ⟨0xB408 + 0x40 * n, 0, 16⟩
/-- IP +0x0C IP_STATUS bits 31:24: Confirmed share of the credit window, 1/256 (06_load_intent.md R157) -/
def IP_STATUS.RATE (n : Nat) : Fld := ⟨0xB40C + 0x40 * n, 24, 8⟩
/-- IP +0x0C IP_STATUS bits 23:16: Resolutions in the credit window (06_load_intent.md R157) -/
def IP_STATUS.FILL (n : Nat) : Fld := ⟨0xB40C + 0x40 * n, 16, 8⟩
/-- IP +0x0C IP_STATUS bits 15:8: Last STATE code (06_load_intent.md R157) -/
def IP_STATUS.LOAD_STATE (n : Nat) : Fld := ⟨0xB40C + 0x40 * n, 8, 8⟩
/-- IP +0x0C IP_STATUS bits 4:4: Port throttled (06_load_intent.md R157) -/
def IP_STATUS.THROTTLED (n : Nat) : Fld := ⟨0xB40C + 0x40 * n, 4, 1⟩
/-- IP +0x0C IP_STATUS bits 3:0: Port state (06_load_intent.md R157) -/
def IP_STATUS.STATE (n : Nat) : Fld := ⟨0xB40C + 0x40 * n, 0, 4⟩
/-- IP +0x10 IP_CNT bits 31:16: Discarded frames; saturates (06_load_intent.md R157) -/
def IP_CNT.BAD (n : Nat) : Fld := ⟨0xB410 + 0x40 * n, 16, 16⟩
/-- IP +0x10 IP_CNT bits 15:8: Sequence gaps; saturates (06_load_intent.md R157) -/
def IP_CNT.GAP (n : Nat) : Fld := ⟨0xB410 + 0x40 * n, 8, 8⟩
/-- IP +0x10 IP_CNT bits 7:0: Duplicates; saturates (06_load_intent.md R157) -/
def IP_CNT.DUP (n : Nat) : Fld := ⟨0xB410 + 0x40 * n, 0, 8⟩
/-- IP +0x14 IP_HELLO bits 31:0: Payload of the last HELLO (06_load_intent.md R157) -/
def IP_HELLO.HELLO (n : Nat) : Fld := ⟨0xB414 + 0x40 * n, 0, 32⟩
/-- IP +0x18 IP_EVT bits 5:0: Bit 0 UP; 1 SILENT; 2 THROTTLE; 3 RESTORE; 4 STATE; 5 FENCED (06_load_intent.md R157) -/
def IP_EVT.EVT (n : Nat) : Fld := ⟨0xB418 + 0x40 * n, 0, 6⟩
/-- IP +0x1C IP_CTL bits 0:0: 1 ends throttling and empties the credit window (06_load_intent.md R157) -/
def IP_CTL.RESTORE (n : Nat) : Fld := ⟨0xB41C + 0x40 * n, 0, 1⟩
/-- CONV +0x00 CV_CTL bits 0:0: 1 requests foreground calibration under R194 (07_conversion.md R190) -/
def CV_CTL.CAL_START (n : Nat) : Fld := ⟨0x110000 + 0x40 * n, 0, 1⟩
/-- CONV +0x04 CV_STATUS bits 23:20: Slice under calibration (07_conversion.md R190) -/
def CV_STATUS.CAL_SLICE (n : Nat) : Fld := ⟨0x110004 + 0x40 * n, 20, 4⟩
/-- CONV +0x04 CV_STATUS bits 19:16: Live slices; after reset, the slice count (07_conversion.md R190) -/
def CV_STATUS.LIVE (n : Nat) : Fld := ⟨0x110004 + 0x40 * n, 16, 4⟩
/-- CONV +0x04 CV_STATUS bits 15:8: Bit s: slice s fenced (07_conversion.md R190) -/
def CV_STATUS.FENCED (n : Nat) : Fld := ⟨0x110004 + 0x40 * n, 8, 8⟩
/-- CONV +0x04 CV_STATUS bits 2:0: 0b000 IDLE; 0b001 DEFERRED; 0b010 RUNNING; 0b011 DONE; 0b100 FAILED; 0b101 REFUSED (07_conversion.md R190) -/
def CV_STATUS.CAL_STATUS (n : Nat) : Fld := ⟨0x110004 + 0x40 * n, 0, 3⟩
/-- CONV +0x08 CV_EVT bits 5:0: Bit 0 CAL_DONE; 1 CAL_FAIL; 2 CAL_REFUSED; 3 AT_LIMIT; 4 SLICE_FENCED; 5 CAL_IGNORED (07_conversion.md R190) -/
def CV_EVT.EVT (n : Nat) : Fld := ⟨0x110008 + 0x40 * n, 0, 6⟩
/-- CONV +0x10 CV_SLICE bits 31:24: Signed, 0.25 ps (±32 ps) (07_conversion.md R190) -/
def CV_SLICE.SKEW (n k : Nat) : Fld := ⟨0x110010 + 0x40 * n + 4 * k, 24, 8⟩
/-- CONV +0x10 CV_SLICE bits 23:14: Signed, 2⁻¹⁵ (±1.56%) (07_conversion.md R190) -/
def CV_SLICE.GAIN (n k : Nat) : Fld := ⟨0x110010 + 0x40 * n + 4 * k, 14, 10⟩
/-- CONV +0x10 CV_SLICE bits 13:4: Signed, 1/8 LSB (±64 LSB) (07_conversion.md R190) -/
def CV_SLICE.OFS (n k : Nat) : Fld := ⟨0x110010 + 0x40 * n + 4 * k, 4, 10⟩
/-- CONV +0x10 CV_SLICE bits 3:3: A correction is held at its range end (07_conversion.md R190) -/
def CV_SLICE.AT_LIMIT (n k : Nat) : Fld := ⟨0x110010 + 0x40 * n + 4 * k, 3, 1⟩
/-- SCVSEQ +0x00 SEQ_CFG bits 22:16: 0x00 none; 0x01 software; 0x02 PPS_IN rising edge; 0x08–0x0F end of a pass of SCV 0–7; ... (07_conversion.md R200) -/
def SEQ_CFG.TRIG_SRC (n : Nat) : Fld := ⟨0x204000 + 0x200 * n, 16, 7⟩
/-- SCVSEQ +0x00 SEQ_CFG bits 13:8: Table entries in use, minus one (1–64) (07_conversion.md R200) -/
def SEQ_CFG.LEN (n : Nat) : Fld := ⟨0x204000 + 0x200 * n, 8, 6⟩
/-- SCVSEQ +0x00 SEQ_CFG bits 3:3: 0 IGNORE; 1 RESTART (07_conversion.md R200) -/
def SEQ_CFG.OVR_MODE (n : Nat) : Fld := ⟨0x204000 + 0x200 * n, 3, 1⟩
/-- SCVSEQ +0x00 SEQ_CFG bits 2:2: 0 loop forever; 1 one pass per trigger (07_conversion.md R200) -/
def SEQ_CFG.ONCE (n : Nat) : Fld := ⟨0x204000 + 0x200 * n, 2, 1⟩
/-- SCVSEQ +0x00 SEQ_CFG bits 1:0: 0b00 OFF; 0b01 SINGLE; 0b10 TABLE; 0b11 refused (07_conversion.md R200) -/
def SEQ_CFG.MODE (n : Nat) : Fld := ⟨0x204000 + 0x200 * n, 0, 2⟩
/-- SCVSEQ +0x04 SEQ_SINGLE bits 27:16: As in an entry (07_conversion.md R200) -/
def SEQ_SINGLE.DELAY (n : Nat) : Fld := ⟨0x204004 + 0x200 * n, 16, 12⟩
/-- SCVSEQ +0x04 SEQ_SINGLE bits 15:8: As in an entry (07_conversion.md R200) -/
def SEQ_SINGLE.REPEAT (n : Nat) : Fld := ⟨0x204004 + 0x200 * n, 8, 8⟩
/-- SCVSEQ +0x04 SEQ_SINGLE bits 5:5: As in an entry (07_conversion.md R200) -/
def SEQ_SINGLE.ALT (n : Nat) : Fld := ⟨0x204004 + 0x200 * n, 5, 1⟩
/-- SCVSEQ +0x04 SEQ_SINGLE bits 4:0: As in an entry; writable in every mode, effective at the next pass start (07_conversion.md R200) -/
def SEQ_SINGLE.POS (n : Nat) : Fld := ⟨0x204004 + 0x200 * n, 0, 5⟩
/-- SCVSEQ +0x08 SEQ_CTL bits 0:0: 1 is a trigger for source 0x01 (07_conversion.md R200) -/
def SEQ_CTL.TRIG (n : Nat) : Fld := ⟨0x204008 + 0x200 * n, 0, 1⟩
/-- SCVSEQ +0x0C SEQ_STATUS bits 31:31: A committed SEQ_LOAD awaits its swap (07_conversion.md R200) -/
def SEQ_STATUS.PENDING (n : Nat) : Fld := ⟨0x20400C + 0x200 * n, 31, 1⟩
/-- SCVSEQ +0x0C SEQ_STATUS bits 30:30: The share has no slots (07_conversion.md R200) -/
def SEQ_STATUS.STARVED (n : Nat) : Fld := ⟨0x20400C + 0x200 * n, 30, 1⟩
/-- SCVSEQ +0x0C SEQ_STATUS bits 29:29: A pass is in progress (07_conversion.md R200) -/
def SEQ_STATUS.ACTIVE (n : Nat) : Fld := ⟨0x20400C + 0x200 * n, 29, 1⟩
/-- SCVSEQ +0x0C SEQ_STATUS bits 21:16: Current entry (07_conversion.md R200) -/
def SEQ_STATUS.ENTRY (n : Nat) : Fld := ⟨0x20400C + 0x200 * n, 16, 6⟩
/-- SCVSEQ +0x0C SEQ_STATUS bits 15:8: Conversions made of the current entry (07_conversion.md R200) -/
def SEQ_STATUS.REP (n : Nat) : Fld := ⟨0x20400C + 0x200 * n, 8, 8⟩
/-- SCVSEQ +0x0C SEQ_STATUS bits 5:0: Share slots per frame, 0–32 (07_conversion.md R200) -/
def SEQ_STATUS.SHARE (n : Nat) : Fld := ⟨0x20400C + 0x200 * n, 0, 6⟩
/-- SCVSEQ +0x10 SEQ_CNT bits 31:16: Triggers inside a pass; saturates (07_conversion.md R200) -/
def SEQ_CNT.SEQ_OVERRUN (n : Nat) : Fld := ⟨0x204010 + 0x200 * n, 16, 16⟩
/-- SCVSEQ +0x10 SEQ_CNT bits 15:0: Dropped injected requests; saturates (07_conversion.md R200) -/
def SEQ_CNT.INJ_DROP (n : Nat) : Fld := ⟨0x204010 + 0x200 * n, 0, 16⟩
/-- SCVSEQ +0x14 INJ_REQ bits 5:5: Alternate selection (07_conversion.md R200) -/
def INJ_REQ.ALT (n : Nat) : Fld := ⟨0x204014 + 0x200 * n, 5, 1⟩
/-- SCVSEQ +0x14 INJ_REQ bits 4:0: Position; the write is the request (07_conversion.md R200) -/
def INJ_REQ.POS (n : Nat) : Fld := ⟨0x204014 + 0x200 * n, 0, 5⟩
/-- SCVSEQ +0x18 INJ_STAT bits 31:16: VALUE of the latest injected result (07_conversion.md R200) -/
def INJ_STAT.RESULT (n : Nat) : Fld := ⟨0x204018 + 0x200 * n, 16, 16⟩
/-- SCVSEQ +0x18 INJ_STAT bits 7:7: RESULT holds the result of the latest accepted request (07_conversion.md R200) -/
def INJ_STAT.DONE (n : Nat) : Fld := ⟨0x204018 + 0x200 * n, 7, 1⟩
/-- SCVSEQ +0x18 INJ_STAT bits 6:6: The latest request was dropped (07_conversion.md R200) -/
def INJ_STAT.DROPPED (n : Nat) : Fld := ⟨0x204018 + 0x200 * n, 6, 1⟩
/-- SCVSEQ +0x18 INJ_STAT bits 5:5: The latest request was refused (07_conversion.md R200) -/
def INJ_STAT.REFUSED (n : Nat) : Fld := ⟨0x204018 + 0x200 * n, 5, 1⟩
/-- SCVSEQ +0x18 INJ_STAT bits 1:0: 0b00 IDLE; 0b01 PENDING; 0b10 CONVERTING (07_conversion.md R200) -/
def INJ_STAT.STATE (n : Nat) : Fld := ⟨0x204018 + 0x200 * n, 0, 2⟩
/-- SCVSEQ +0x1C INJ_STAMP bits 31:0: Low 32 bits of the injected sampling instant (07_conversion.md R200) -/
def INJ_STAMP.STAMP (n : Nat) : Fld := ⟨0x20401C + 0x200 * n, 0, 32⟩
/-- SCVSEQ +0x20 SCV_AUX bits 19:16: Bits 2m+1:2m: curve of alternate m (07_conversion.md R200) -/
def SCV_AUX.ALT_CURVE (n : Nat) : Fld := ⟨0x204020 + 0x200 * n, 16, 4⟩
/-- SCVSEQ +0x20 SCV_AUX bits 15:0: Bits 2m+1:2m: curve of position 24 + m (07_conversion.md R200) -/
def SCV_AUX.CURVE (n : Nat) : Fld := ⟨0x204020 + 0x200 * n, 0, 16⟩
/-- SCVSEQ +0x100 SEQ_ENTRY bits 31:0: Table entry under R201 (07_conversion.md R200) -/
def SEQ_ENTRY.ENTRY (n k : Nat) : Fld := ⟨0x204100 + 0x200 * n + 4 * k, 0, 32⟩
/-- ICV +0x00 ICV_CFG bits 31:30: 0b00 PERIOD field; 0b01 16,000,000 ticks (20.000 ms, 50 Hz); 0b10 13,333,333 ticks ... (07_conversion.md R210) -/
def ICV_CFG.PRESET (n : Nat) : Fld := ⟨0x205000 + 0x20 * n, 30, 2⟩
/-- ICV +0x00 ICV_CFG bits 29:0: Period in Thyme ticks, 800,000–800,000,000 (1 ms–1 s); values outside act as the nearer ... (07_conversion.md R210) -/
def ICV_CFG.PERIOD (n : Nat) : Fld := ⟨0x205000 + 0x20 * n, 0, 30⟩
/-- ICV +0x04 ICV_RESULT bits 31:31: A result has arrived since the last read (07_conversion.md R210) -/
def ICV_RESULT.NEW (n : Nat) : Fld := ⟨0x205004 + 0x20 * n, 31, 1⟩
/-- ICV +0x04 ICV_RESULT bits 30:30: The input reached a range end in the period (07_conversion.md R210) -/
def ICV_RESULT.OVR (n : Nat) : Fld := ⟨0x205004 + 0x20 * n, 30, 1⟩
/-- ICV +0x04 ICV_RESULT bits 23:0: Mean over the latest period, R186 format (07_conversion.md R210) -/
def ICV_RESULT.RESULT (n : Nat) : Fld := ⟨0x205004 + 0x20 * n, 0, 24⟩
/-- ICV +0x08 ICV_STAMP bits 31:0: Low 32 bits of the latest closing tick (07_conversion.md R210) -/
def ICV_STAMP.STAMP (n : Nat) : Fld := ⟨0x205008 + 0x20 * n, 0, 32⟩
/-- WIN +0x00 WIN_LIM bits 31:16: Upper limit (07_conversion.md R212) -/
def WIN_LIM.HI (n : Nat) : Fld := ⟨0x120000 + 0x10 * n, 16, 16⟩
/-- WIN +0x00 WIN_LIM bits 15:0: Lower limit; signed for signed classes, else unsigned (07_conversion.md R212) -/
def WIN_LIM.LO (n : Nat) : Fld := ⟨0x120000 + 0x10 * n, 0, 16⟩
/-- WIN +0x04 WIN_CFG bits 31:31: 1 evaluates the comparator (07_conversion.md R212) -/
def WIN_CFG.EN (n : Nat) : Fld := ⟨0x120004 + 0x10 * n, 31, 1⟩
/-- WIN +0x04 WIN_CFG bits 30:30: 1 raises the window interrupt summary on each event (07_conversion.md R212) -/
def WIN_CFG.IRQ (n : Nat) : Fld := ⟨0x120004 + 0x10 * n, 30, 1⟩
/-- WIN +0x04 WIN_CFG bits 15:0: Hysteresis, VALUE units (07_conversion.md R212) -/
def WIN_CFG.HYST (n : Nat) : Fld := ⟨0x120004 + 0x10 * n, 0, 16⟩
/-- WIN +0x08 WIN_STAT bits 31:16: Events since the last read; saturates (07_conversion.md R212) -/
def WIN_STAT.COUNT (n : Nat) : Fld := ⟨0x120008 + 0x10 * n, 16, 16⟩
/-- WIN +0x08 WIN_STAT bits 2:2: LO > HI; the comparator is not evaluated (07_conversion.md R212) -/
def WIN_STAT.BAD (n : Nat) : Fld := ⟨0x120008 + 0x10 * n, 2, 1⟩
/-- WIN +0x08 WIN_STAT bits 1:0: 0b00 IN; 0b01 BELOW; 0b10 ABOVE (07_conversion.md R212) -/
def WIN_STAT.STATE (n : Nat) : Fld := ⟨0x120008 + 0x10 * n, 0, 2⟩
/-- RQ +0x00 RQ_STATUS bits 31:16: Dropped entries; saturates (07_conversion.md R216) -/
def RQ_STATUS.DROP (n : Nat) : Fld := ⟨0x1C00 + 0x20 * n, 16, 16⟩
/-- RQ +0x00 RQ_STATUS bits 12:0: Entries held, 0–4,096 (07_conversion.md R216) -/
def RQ_STATUS.FILL (n : Nat) : Fld := ⟨0x1C00 + 0x20 * n, 0, 13⟩
/-- RQ +0x04 RQ_POP_LO bits 31:0: Bits 31:0 of the head entry; the read removes it (07_conversion.md R216) -/
def RQ_POP_LO.LOW (n : Nat) : Fld := ⟨0x1C04 + 0x20 * n, 0, 32⟩
/-- RQ +0x08 RQ_POP_HI bits 31:0: Bits 63:32 of the entry last removed by this accessor (07_conversion.md R216) -/
def RQ_POP_HI.HIGH (n : Nat) : Fld := ⟨0x1C08 + 0x20 * n, 0, 32⟩
/-- SAGE +0x00 SG_CFG bits 31:31: 1 runs Sage for the pack (08_battery_estimation.md R222) -/
def SG_CFG.EN (n : Nat) : Fld := ⟨0x205800 + 0x80 * n, 31, 1⟩
/-- SAGE +0x00 SG_CFG bits 30:30: 1 takes temperature from BTp_NTC (08_battery_estimation.md R222) -/
def SG_CFG.NTC (n : Nat) : Fld := ⟨0x205800 + 0x80 * n, 30, 1⟩
/-- SAGE +0x00 SG_CFG bits 29:28: Thermistor curve table 0–3 (08_battery_estimation.md R222) -/
def SG_CFG.CURVE (n : Nat) : Fld := ⟨0x205800 + 0x80 * n, 28, 2⟩
/-- SAGE +0x00 SG_CFG bits 27:20: Event ring that receives records (08_battery_estimation.md R222) -/
def SG_CFG.EVT_RING (n : Nat) : Fld := ⟨0x205800 + 0x80 * n, 20, 8⟩
/-- SAGE +0x00 SG_CFG bits 15:0: Temperature without a thermistor, signed, 0.05 °C (25 °C) (08_battery_estimation.md R222) -/
def SG_CFG.T_FIXED (n : Nat) : Fld := ⟨0x205800 + 0x80 * n, 0, 16⟩
/-- SAGE +0x04 SG_CAP bits 15:0: Nominal capacity, 0.01 Ah; 0 refused (08_battery_estimation.md R222) -/
def SG_CAP.CAP_NOM (n : Nat) : Fld := ⟨0x205804 + 0x80 * n, 0, 16⟩
/-- SAGE +0x08 SG_SHUNT bits 15:0: Shunt of the pack's channel, 0.1 µΩ (0.5 mΩ); 0 refused (08_battery_estimation.md R222) -/
def SG_SHUNT.RSHUNT (n : Nat) : Fld := ⟨0x205808 + 0x80 * n, 0, 16⟩
/-- SAGE +0x0C SG_RSER bits 31:0: Initial series resistance, µΩ (08_battery_estimation.md R222) -/
def SG_RSER.RSER_INIT (n : Nat) : Fld := ⟨0x20580C + 0x80 * n, 0, 32⟩
/-- SAGE +0x10 SG_RPOL1 bits 31:0: Initial first RC resistance, µΩ (08_battery_estimation.md R222) -/
def SG_RPOL1.RPOL1_INIT (n : Nat) : Fld := ⟨0x205810 + 0x80 * n, 0, 32⟩
/-- SAGE +0x14 SG_RPOL2 bits 31:0: Initial second RC resistance, µΩ (08_battery_estimation.md R222) -/
def SG_RPOL2.RPOL2_INIT (n : Nat) : Fld := ⟨0x205814 + 0x80 * n, 0, 32⟩
/-- SAGE +0x18 SG_TPOL bits 31:16: Second RC time constant, 1 ms (100 ms); 0 refused (08_battery_estimation.md R222) -/
def SG_TPOL.TPOL2 (n : Nat) : Fld := ⟨0x205818 + 0x80 * n, 16, 16⟩
/-- SAGE +0x18 SG_TPOL bits 15:0: First RC time constant, 10 µs (2 ms); 0 refused (08_battery_estimation.md R222) -/
def SG_TPOL.TPOL1 (n : Nat) : Fld := ⟨0x205818 + 0x80 * n, 0, 16⟩
/-- SAGE +0x1C SG_REST bits 31:16: Rest current, mA (500 mA) (08_battery_estimation.md R222) -/
def SG_REST.REST_I (n : Nat) : Fld := ⟨0x20581C + 0x80 * n, 16, 16⟩
/-- SAGE +0x1C SG_REST bits 15:0: Presence voltage, mV (20.000 V) (08_battery_estimation.md R222) -/
def SG_REST.PRES_V (n : Nat) : Fld := ⟨0x20581C + 0x80 * n, 0, 16⟩
/-- SAGE +0x20 SG_REST_T bits 31:0: Rest time in ICV periods (180,000, 30 min); 0 refused (08_battery_estimation.md R222) -/
def SG_REST_T.REST_T (n : Nat) : Fld := ⟨0x205820 + 0x80 * n, 0, 32⟩
/-- SAGE +0x24 SG_IMP bits 31:16: Smallest step, 0.1 A (20 A) (08_battery_estimation.md R222) -/
def SG_IMP.IMP_STEP_MIN (n : Nat) : Fld := ⟨0x205824 + 0x80 * n, 16, 16⟩
/-- SAGE +0x24 SG_IMP bits 3:0: Impedance blend, 2⁻ᴵᴹᴾ_ˢᴴᴵᶠᵀ (08_battery_estimation.md R222) -/
def SG_IMP.IMP_SHIFT (n : Nat) : Fld := ⟨0x205824 + 0x80 * n, 0, 4⟩
/-- SAGE +0x28 SG_FILT bits 31:24: Voltage measurement deviation, mV (20 mV) (08_battery_estimation.md R222) -/
def SG_FILT.MEAS_SD (n : Nat) : Fld := ⟨0x205828 + 0x80 * n, 24, 8⟩
/-- SAGE +0x28 SG_FILT bits 23:16: SoC process deviation per step, 10⁻⁶ (08_battery_estimation.md R222) -/
def SG_FILT.SOC_SD (n : Nat) : Fld := ⟨0x205828 + 0x80 * n, 16, 8⟩
/-- SAGE +0x28 SG_FILT bits 15:8: RC voltage process deviation per step, 0.1 mV (08_battery_estimation.md R222) -/
def SG_FILT.V_SD (n : Nat) : Fld := ⟨0x205828 + 0x80 * n, 8, 8⟩
/-- SAGE +0x28 SG_FILT bits 3:0: Measurement weighting under DISAGREE (08_battery_estimation.md R222) -/
def SG_FILT.DIS_SHIFT (n : Nat) : Fld := ⟨0x205828 + 0x80 * n, 0, 4⟩
/-- SAGE +0x2C SG_VLIM bits 15:0: Empty voltage, IR-corrected, mV (42.000 V) (08_battery_estimation.md R222) -/
def SG_VLIM.V_EMPTY (n : Nat) : Fld := ⟨0x20582C + 0x80 * n, 0, 16⟩
/-- SAGE +0x30 SG_REPORT bits 15:0: Reported SoC slew, 0.01%/min (1%/min) (08_battery_estimation.md R222) -/
def SG_REPORT.REPORT_SLEW (n : Nat) : Fld := ⟨0x205830 + 0x80 * n, 0, 16⟩
/-- SAGE +0x34 SG_CAPL bits 19:16: Capacity blend, 2⁻ᶜᴬᴾ_ˢᴴᴵᶠᵀ (08_battery_estimation.md R222) -/
def SG_CAPL.CAP_SHIFT (n : Nat) : Fld := ⟨0x205834 + 0x80 * n, 16, 4⟩
/-- SAGE +0x34 SG_CAPL bits 15:8: Acceptance band, 0.5% (20%) (08_battery_estimation.md R222) -/
def SG_CAPL.CAP_TOL (n : Nat) : Fld := ⟨0x205834 + 0x80 * n, 8, 8⟩
/-- SAGE +0x34 SG_CAPL bits 7:0: Smallest SoC span, 0.5% (35%) (08_battery_estimation.md R222) -/
def SG_CAPL.CAP_MIN_SPAN (n : Nat) : Fld := ⟨0x205834 + 0x80 * n, 0, 8⟩
/-- SAGE +0x38 SG_WB bits 31:0: Shortest interval between records, ICV periods (6,000, 60 s) (08_battery_estimation.md R222) -/
def SG_WB.WB_INTERVAL (n : Nat) : Fld := ⟨0x205838 + 0x80 * n, 0, 32⟩
/-- SAGE +0x40 SG_STATUS bits 31:31: Pack present and settled (08_battery_estimation.md R222) -/
def SG_STATUS.PRESENT (n : Nat) : Fld := ⟨0x205840 + 0x80 * n, 31, 1⟩
/-- SAGE +0x40 SG_STATUS bits 30:30: No rest point since insertion (08_battery_estimation.md R222) -/
def SG_STATUS.PROVISIONAL (n : Nat) : Fld := ⟨0x205840 + 0x80 * n, 30, 1⟩
/-- SAGE +0x40 SG_STATUS bits 29:29: Under *When charge and voltage disagree* (08_battery_estimation.md R222) -/
def SG_STATUS.DISAGREE (n : Nat) : Fld := ⟨0x205840 + 0x80 * n, 29, 1⟩
/-- SAGE +0x40 SG_STATUS bits 28:28: The next capacity learn is suspect (08_battery_estimation.md R222) -/
def SG_STATUS.SUSPECT_NEXT (n : Nat) : Fld := ⟨0x205840 + 0x80 * n, 28, 1⟩
/-- SAGE +0x40 SG_STATUS bits 27:27: A rest window is open (08_battery_estimation.md R222) -/
def SG_STATUS.REST (n : Nat) : Fld := ⟨0x205840 + 0x80 * n, 27, 1⟩
/-- SAGE +0x40 SG_STATUS bits 26:26: Learned state holds initial values, not learned or restored ones (08_battery_estimation.md R222) -/
def SG_STATUS.VOID (n : Nat) : Fld := ⟨0x205840 + 0x80 * n, 26, 1⟩
/-- SAGE +0x40 SG_STATUS bits 25:25: A record awaits writing (08_battery_estimation.md R222) -/
def SG_STATUS.WB_PENDING (n : Nat) : Fld := ⟨0x205840 + 0x80 * n, 25, 1⟩
/-- SAGE +0x40 SG_STATUS bits 24:24: Insertion settling in progress (08_battery_estimation.md R222) -/
def SG_STATUS.SETTLING (n : Nat) : Fld := ⟨0x205840 + 0x80 * n, 24, 1⟩
/-- SAGE +0x40 SG_STATUS bits 15:0: Reported SoC, 0.01% (08_battery_estimation.md R222) -/
def SG_STATUS.SOC_REP (n : Nat) : Fld := ⟨0x205840 + 0x80 * n, 0, 16⟩
/-- SAGE +0x44 SG_SOC bits 31:16: Filter SoC, 0.01% (08_battery_estimation.md R222) -/
def SG_SOC.SOC_FILT (n : Nat) : Fld := ⟨0x205844 + 0x80 * n, 16, 16⟩
/-- SAGE +0x44 SG_SOC bits 15:0: Counted SoC, 0.01%, saturated to 0–10,000 (08_battery_estimation.md R222) -/
def SG_SOC.SOC_CNT (n : Nat) : Fld := ⟨0x205844 + 0x80 * n, 0, 16⟩
/-- SAGE +0x48 SG_CAPACITY bits 31:16: Latest capacity measurement, 0.01 Ah (08_battery_estimation.md R222) -/
def SG_CAPACITY.LAST_MEAS (n : Nat) : Fld := ⟨0x205848 + 0x80 * n, 16, 16⟩
/-- SAGE +0x48 SG_CAPACITY bits 15:0: Capacity in use, 0.01 Ah (08_battery_estimation.md R222) -/
def SG_CAPACITY.CAP (n : Nat) : Fld := ⟨0x205848 + 0x80 * n, 0, 16⟩
/-- SAGE +0x4C SG_RSER_L bits 31:0: Resistances in use, µΩ (08_battery_estimation.md R222) -/
def SG_RSER_L.VAL (n : Nat) : Fld := ⟨0x20584C + 0x80 * n, 0, 32⟩
/-- SAGE +0x50 SG_RPOL1_L bits 31:0: Resistances in use, µΩ (08_battery_estimation.md R222) -/
def SG_RPOL1_L.VAL (n : Nat) : Fld := ⟨0x205850 + 0x80 * n, 0, 32⟩
/-- SAGE +0x54 SG_RPOL2_L bits 31:0: Resistances in use, µΩ (08_battery_estimation.md R222) -/
def SG_RPOL2_L.VAL (n : Nat) : Fld := ⟨0x205854 + 0x80 * n, 0, 32⟩
/-- SAGE +0x58 SG_GEN bits 31:0: Generation of the learned state (08_battery_estimation.md R222) -/
def SG_GEN.GEN (n : Nat) : Fld := ⟨0x205858 + 0x80 * n, 0, 32⟩
/-- SAGE +0x5C SG_MEAS bits 31:16: Latest pack voltage, mV (08_battery_estimation.md R222) -/
def SG_MEAS.V_PACK (n : Nat) : Fld := ⟨0x20585C + 0x80 * n, 16, 16⟩
/-- SAGE +0x5C SG_MEAS bits 15:0: Latest pack current, signed, 0.1 A, discharge positive (08_battery_estimation.md R222) -/
def SG_MEAS.I_PACK (n : Nat) : Fld := ⟨0x20585C + 0x80 * n, 0, 16⟩
/-- SAGE +0x60 SG_TEMPV bits 31:16: Latest IR-corrected voltage, mV (08_battery_estimation.md R222) -/
def SG_TEMPV.V_CORR (n : Nat) : Fld := ⟨0x205860 + 0x80 * n, 16, 16⟩
/-- SAGE +0x60 SG_TEMPV bits 15:0: Pack temperature in use, signed, 0.05 °C (08_battery_estimation.md R222) -/
def SG_TEMPV.TEMP (n : Nat) : Fld := ⟨0x205860 + 0x80 * n, 0, 16⟩
/-- SAGE +0x64 SG_CNT bits 31:24: Capacity learns accepted; saturates (08_battery_estimation.md R222) -/
def SG_CNT.CAP_ACC (n : Nat) : Fld := ⟨0x205864 + 0x80 * n, 24, 8⟩
/-- SAGE +0x64 SG_CNT bits 23:16: Capacity learns rejected or suspect; saturates (08_battery_estimation.md R222) -/
def SG_CNT.CAP_REJ (n : Nat) : Fld := ⟨0x205864 + 0x80 * n, 16, 8⟩
/-- SAGE +0x64 SG_CNT bits 15:8: Impedance updates accepted; saturates (08_battery_estimation.md R222) -/
def SG_CNT.IMP_ACC (n : Nat) : Fld := ⟨0x205864 + 0x80 * n, 8, 8⟩
/-- SAGE +0x64 SG_CNT bits 7:0: Impedance measurements rejected; saturates (08_battery_estimation.md R222) -/
def SG_CNT.IMP_REJ (n : Nat) : Fld := ⟨0x205864 + 0x80 * n, 0, 8⟩
/-- SAGE +0x68 SG_EVT bits 9:0: Bit 0 INSERT; 1 REMOVE; 2 REST_POINT; 3 CAP_LEARN; 4 CAP_REJECT; 5 IMP_UPDATE; 6 ... (08_battery_estimation.md R222) -/
def SG_EVT.EVT (n : Nat) : Fld := ⟨0x205868 + 0x80 * n, 0, 10⟩
/-- FAULT +0x00 FLT_CFG bits 31:31: 1 selects TZ2408 escalation (R256, R1) (09_faults.md R265) -/
def FLT_CFG.LEGACY_ESC : Fld := ⟨0x4000, 31, 1⟩
/-- FAULT +0x00 FLT_CFG bits 30:28: Highest escalated level, 1–4 (09_faults.md R265) -/
def FLT_CFG.ESC_CEIL : Fld := ⟨0x4000, 28, 3⟩
/-- FAULT +0x00 FLT_CFG bits 27:20: Event ring that receives fault reports (09_faults.md R265) -/
def FLT_CFG.FLT_RING : Fld := ⟨0x4000, 20, 8⟩
/-- FAULT +0x04 FLT_MERGE bits 31:0: Merge window, Thyme ticks (09_faults.md R265) -/
def FLT_MERGE.MERGE_WIN : Fld := ⟨0x4004, 0, 32⟩
/-- FAULT +0x08 FLT_STATUS bits 31:31: The safety configuration of R267 holds (09_faults.md R265) -/
def FLT_STATUS.SAFETY : Fld := ⟨0x4008, 31, 1⟩
/-- FAULT +0x08 FLT_STATUS bits 30:30: R261 (09_faults.md R265) -/
def FLT_STATUS.DEGRADED : Fld := ⟨0x4008, 30, 1⟩
/-- FAULT +0x08 FLT_STATUS bits 29:29: An occurrence found no slot (09_faults.md R265) -/
def FLT_STATUS.FULL : Fld := ⟨0x4008, 29, 1⟩
/-- FAULT +0x08 FLT_STATUS bits 18:16: Highest LEVEL among unacknowledged slots; 0b111 none (09_faults.md R265) -/
def FLT_STATUS.TOP : Fld := ⟨0x4008, 16, 3⟩
/-- FAULT +0x08 FLT_STATUS bits 8:0: Slots in use, 0–256 (09_faults.md R265) -/
def FLT_STATUS.USED : Fld := ⟨0x4008, 0, 9⟩
/-- FAULT +0x0C FLT_LOST bits 31:16: Unrecorded occurrences; saturates (09_faults.md R265) -/
def FLT_LOST.LOST : Fld := ⟨0x400C, 16, 16⟩
/-- FAULT +0x0C FLT_LOST bits 15:0: Die queue overflows (R259); saturates (09_faults.md R265) -/
def FLT_LOST.HELD_LOST : Fld := ⟨0x400C, 0, 16⟩
/-- FAULT +0x10 FLT_DEGR bits 6:0: Bit per R261 condition, in the order listed (09_faults.md R265) -/
def FLT_DEGR.REASON : Fld := ⟨0x4010, 0, 7⟩
/-- FAULT +0x14 FLT_SAFE_CTL bits 31:31: FLT_SAFE holds a record (09_faults.md R265) -/
def FLT_SAFE_CTL.VALID : Fld := ⟨0x4014, 31, 1⟩
/-- FAULT +0x14 FLT_SAFE_CTL bits 0:0: 1 in CONFIGURE empties FLT_SAFE; ignored in other modes (09_faults.md R265) -/
def FLT_SAFE_CTL.CLR : Fld := ⟨0x4014, 0, 1⟩
/-- FAULT +0x20 FLT_SAFE bits 31:0: The retained SAFE record, R253 layout (09_faults.md R265) -/
def FLT_SAFE.SAFE_REC (k : Nat) : Fld := ⟨0x4020 + 4 * k, 0, 32⟩
/-- FAULT +0x100 FLT_LEVEL bits 31:0: Byte b of word w: kind 4w + b; bit 7 OVR, bits 2:0 LEVEL (R247) (09_faults.md R265) -/
def FLT_LEVEL.LEVELS (k : Nat) : Fld := ⟨0x4100 + 4 * k, 0, 32⟩
/-- FAULT +0x200 FLT_INJ_CTL bits 31:31: 1 arms the injection, which occurs DELAY ticks later (09_faults.md R269) -/
def FLT_INJ_CTL.FIRE : Fld := ⟨0x4200, 31, 1⟩
/-- FAULT +0x200 FLT_INJ_CTL bits 29:28: 0b00 message: an occurrence enters the selvage; 0b01 comparator: the unit's comparator ... (09_faults.md R269) -/
def FLT_INJ_CTL.PATH : Fld := ⟨0x4200, 28, 2⟩
/-- FAULT +0x200 FLT_INJ_CTL bits 26:24: Level of a message injection (09_faults.md R269) -/
def FLT_INJ_CTL.LEVEL : Fld := ⟨0x4200, 24, 3⟩
/-- FAULT +0x200 FLT_INJ_CTL bits 19:0: Kind in bits 19:12, unit index in bits 11:0 (09_faults.md R269) -/
def FLT_INJ_CTL.CLASS : Fld := ⟨0x4200, 0, 20⟩
/-- FAULT +0x204 FLT_INJ_DELAY bits 31:0: Thyme ticks from FIRE (09_faults.md R269) -/
def FLT_INJ_DELAY.DELAY : Fld := ⟨0x4204, 0, 32⟩
/-- FAULT +0x208 FLT_INJ_AGENT bits 7:0: Master agent ID of a message injection (09_faults.md R269) -/
def FLT_INJ_AGENT.AGENT : Fld := ⟨0x4208, 0, 8⟩
/-- FAULT +0x20C FLT_INJ_ADDR_LO bits 31:0: Bits 31:0 of ADDR (09_faults.md R269) -/
def FLT_INJ_ADDR_LO.ADDR_LO : Fld := ⟨0x420C, 0, 32⟩
/-- FAULT +0x210 FLT_INJ_ADDR_HI bits 15:0: Bits 47:32 of ADDR (09_faults.md R269) -/
def FLT_INJ_ADDR_HI.ADDR_HI : Fld := ⟨0x4210, 0, 16⟩
/-- FAULT +0x214 FLT_INJ_STAT bits 1:0: 0b00 IDLE; 0b01 ARMED; 0b10 DONE (09_faults.md R269) -/
def FLT_INJ_STAT.STATE : Fld := ⟨0x4214, 0, 2⟩
/-- MODE +0x00 MODE_STATUS bits 31:31: SAFE latched in the standby island (10_modes_startup.md R273) -/
def MODE_STATUS.SAFE_LATCH : Fld := ⟨0x1000, 31, 1⟩
/-- MODE +0x00 MODE_STATUS bits 30:30: CLEAR_SAFE accepted; the next reset enters CONFIGURE (10_modes_startup.md R273) -/
def MODE_STATUS.CLEAR_ARMED : Fld := ⟨0x1000, 30, 1⟩
/-- MODE +0x00 MODE_STATUS bits 29:29: L4 occurred in FACTORY (10_modes_startup.md R273) -/
def MODE_STATUS.HELD : Fld := ⟨0x1000, 29, 1⟩
/-- MODE +0x00 MODE_STATUS bits 28:28: A sequence entry halted or timed out (10_modes_startup.md R273) -/
def MODE_STATUS.SEQ_FAIL : Fld := ⟨0x1000, 28, 1⟩
/-- MODE +0x00 MODE_STATUS bits 27:21: Power sequence entry in progress, 0–127 (10_modes_startup.md R273) -/
def MODE_STATUS.SEQ_ENTRY : Fld := ⟨0x1000, 21, 7⟩
/-- MODE +0x00 MODE_STATUS bits 20:18: 0b000 IDLE; 0b001 UP; 0b010 DONE; 0b011 HALTED; 0b100 DOWN; 0b101 SUSPENDED (10_modes_startup.md R273) -/
def MODE_STATUS.SEQ_STATE : Fld := ⟨0x1000, 18, 3⟩
/-- MODE +0x00 MODE_STATUS bits 15:8: Cause of the last transition under R271 (10_modes_startup.md R273) -/
def MODE_STATUS.CAUSE : Fld := ⟨0x1000, 8, 8⟩
/-- MODE +0x00 MODE_STATUS bits 7:4: Mode before the last transition (10_modes_startup.md R273) -/
def MODE_STATUS.PREV : Fld := ⟨0x1000, 4, 4⟩
/-- MODE +0x00 MODE_STATUS bits 3:0: Present mode (10_modes_startup.md R273) -/
def MODE_STATUS.MODE : Fld := ⟨0x1000, 0, 4⟩
/-- MODE +0x04 MODE_REQ bits 3:0: The write is a mode request under R272 (10_modes_startup.md R273) -/
def MODE_REQ.TARGET : Fld := ⟨0x1004, 0, 4⟩
/-- MODE +0x08 MODE_REQ_STAT bits 15:0: Completion status of the last MODE_REQ write, coded as in *Host interface: rings, ... (10_modes_startup.md R273) -/
def MODE_REQ_STAT.STATUS : Fld := ⟨0x1008, 0, 16⟩
/-- MODE +0x0C MODE_CFG bits 31:31: 1: after authentication, the boot ROM (agent 0x35) requests RAMP (10_modes_startup.md R273) -/
def MODE_CFG.AUTO_RAMP : Fld := ⟨0x100C, 31, 1⟩
/-- MODE +0x0C MODE_CFG bits 30:30: SAFE action on entry channels under R289 (10_modes_startup.md R273) -/
def MODE_CFG.SAFE_ENTRY_OFF : Fld := ⟨0x100C, 30, 1⟩
/-- MODE +0x0C MODE_CFG bits 29:29: 1 restores shed rails at hold-up exit (10_modes_startup.md R273) -/
def MODE_CFG.HU_RESTORE : Fld := ⟨0x100C, 29, 1⟩
/-- MODE +0x0C MODE_CFG bits 21:16: Last up-table entry, 0–63 (10_modes_startup.md R273) -/
def MODE_CFG.UP_LEN : Fld := ⟨0x100C, 16, 6⟩
/-- MODE +0x0C MODE_CFG bits 13:8: Last down-table entry, 0–63, counted from entry 64 (10_modes_startup.md R273) -/
def MODE_CFG.DOWN_LEN : Fld := ⟨0x100C, 8, 6⟩
/-- MODE +0x10 MODE_OWN bits 7:0: Owner codes under R294 (10_modes_startup.md R273) -/
def MODE_OWN.DOMAINS : Fld := ⟨0x1010, 0, 8⟩
/-- MODE +0x14 SAFE_DELAY bits 31:0: Ticks from SAFE entry to branch turn-off (10_modes_startup.md R273) -/
def SAFE_DELAY.VAL : Fld := ⟨0x1014, 0, 32⟩
/-- MODE +0x18 HU_RESTORE_T bits 31:0: Longest wait per restoration stage, ticks (10_modes_startup.md R273) -/
def HU_RESTORE_T.RESTORE_T : Fld := ⟨0x1018, 0, 32⟩
/-- MODE +0x20 HU_PRIO bits 31:0: Bits 4b+2:4b of word w: stage of rail 8w + b, 0 never shed; bit 4b+3 reserved (10_modes_startup.md R273) -/
def HU_PRIO.PRIO (k : Nat) : Fld := ⟨0x1020 + 4 * k, 0, 32⟩
/-- MODE +0x40 HU_STAGE bits 31:0: Stage s shed time after HOLDUP entry, ticks (10_modes_startup.md R273) -/
def HU_STAGE.STAGE_T (k : Nat) : Fld := ⟨0x1040 + 4 * k, 0, 32⟩
/-- MODE +0x60 MODE_EVT bits 6:0: Bit 0 MODE_CHANGE; 1 SEQ_DONE; 2 SEQ_HALT; 3 SHED; 4 RESTORE_DONE; 5 RESTORE_SKIP; 6 SAFE (10_modes_startup.md R273) -/
def MODE_EVT.EVT : Fld := ⟨0x1060, 0, 7⟩
/-- MODE +0x64 BOOT_STATUS bits 31:31: 0 flash; 1 host (10_modes_startup.md R273) -/
def BOOT_STATUS.SRC : Fld := ⟨0x1064, 31, 1⟩
/-- MODE +0x64 BOOT_STATUS bits 30:30: Flash image used: 0 primary; 1 secondary (10_modes_startup.md R273) -/
def BOOT_STATUS.SLOT : Fld := ⟨0x1064, 30, 1⟩
/-- MODE +0x64 BOOT_STATUS bits 29:29: Every record of the authenticated image has been applied (R279); cleared on each entry ... (10_modes_startup.md R273) -/
def BOOT_STATUS.APPLIED : Fld := ⟨0x1064, 29, 1⟩
/-- MODE +0x64 BOOT_STATUS bits 25:24: Key slot that verified the image (10_modes_startup.md R273) -/
def BOOT_STATUS.KEY_SLOT : Fld := ⟨0x1064, 24, 2⟩
/-- MODE +0x64 BOOT_STATUS bits 3:0: Under R280 (10_modes_startup.md R273) -/
def BOOT_STATUS.STATE : Fld := ⟨0x1064, 0, 4⟩
/-- MODE +0x68 BOOT_CTL bits 0:0: 1 starts authentication of a host-loaded image (10_modes_startup.md R273) -/
def BOOT_CTL.GO : Fld := ⟨0x1068, 0, 1⟩
/-- MODE +0x6C MODE_UNLOCK bits 31:0: Unlock sequence under R293 (10_modes_startup.md R273) -/
def MODE_UNLOCK.KEY : Fld := ⟨0x106C, 0, 32⟩
/-- MODE +0x70 MODE_RESET bits 31:0: 0x0000_A5C3 resets the device under R276; other values are ignored (10_modes_startup.md R273) -/
def MODE_RESET.KEY : Fld := ⟨0x1070, 0, 32⟩
/-- MODE +0x74 BOOT_REC bits 31:16: Status of the first configuration record refused since CONFIGURE entry, coded as in ... (10_modes_startup.md R273) -/
def BOOT_REC.STATUS : Fld := ⟨0x1074, 16, 16⟩
/-- MODE +0x74 BOOT_REC bits 15:0: Configuration records refused since CONFIGURE entry; saturates (10_modes_startup.md R273) -/
def BOOT_REC.COUNT : Fld := ⟨0x1074, 0, 16⟩
/-- MODE +0x78 HU_SHED bits 31:0: Bit r of the 64-bit pair: rail r was shed and awaits restoration (10_modes_startup.md R273) -/
def HU_SHED.SHED (k : Nat) : Fld := ⟨0x1078 + 4 * k, 0, 32⟩
/-- MODE +0x80 BOOT_REC_IDX bits 31:0: Index of the record whose status BOOT_REC.STATUS reports (10_modes_startup.md R273) -/
def BOOT_REC_IDX.RECORD : Fld := ⟨0x1080, 0, 32⟩
/-- TMR +0x00 TMR_CFG bits 31:31: 1 runs the timer (11_clocks_time.md R307) -/
def TMR_CFG.EN (n : Nat) : Fld := ⟨0x1800 + 0x20 * n, 31, 1⟩
/-- TMR +0x00 TMR_CFG bits 30:30: 1 raises the interrupt summary on each fire (11_clocks_time.md R307) -/
def TMR_CFG.IRQ (n : Nat) : Fld := ⟨0x1800 + 0x20 * n, 30, 1⟩
/-- TMR +0x00 TMR_CFG bits 1:0: 0b00 OFF; 0b01 one-shot; 0b10 periodic; 0b11 capture (FUNCTION 0x1 only; otherwise acts ... (11_clocks_time.md R307) -/
def TMR_CFG.MODE (n : Nat) : Fld := ⟨0x1800 + 0x20 * n, 0, 2⟩
/-- TMR +0x04 TMR_CMP_LO bits 31:0: Bits 31:0 of CMP; takes effect with the write of TMR_CMP_HI (11_clocks_time.md R307) -/
def TMR_CMP_LO.CMP_LO (n : Nat) : Fld := ⟨0x1804 + 0x20 * n, 0, 32⟩
/-- TMR +0x08 TMR_CMP_HI bits 31:0: Bits 63:32 of CMP (11_clocks_time.md R307) -/
def TMR_CMP_HI.CMP_HI (n : Nat) : Fld := ⟨0x1808 + 0x20 * n, 0, 32⟩
/-- TMR +0x0C TMR_PERIOD bits 31:0: Ticks; values below 16 (20 ns) act as 16 (11_clocks_time.md R307) -/
def TMR_PERIOD.PERIOD (n : Nat) : Fld := ⟨0x180C + 0x20 * n, 0, 32⟩
/-- TMR +0x10 TMR_CAPT_LO bits 31:0: Bits 31:0 of the last capture (11_clocks_time.md R307) -/
def TMR_CAPT_LO.CAPT_LO (n : Nat) : Fld := ⟨0x1810 + 0x20 * n, 0, 32⟩
/-- TMR +0x14 TMR_CAPT_HI bits 31:0: Bits 63:32 of the last capture (11_clocks_time.md R307) -/
def TMR_CAPT_HI.CAPT_HI (n : Nat) : Fld := ⟨0x1814 + 0x20 * n, 0, 32⟩
/-- TMR +0x18 TMR_STATUS bits 31:16: Fires while PENDING; saturates (11_clocks_time.md R307) -/
def TMR_STATUS.MISSED (n : Nat) : Fld := ⟨0x1818 + 0x20 * n, 16, 16⟩
/-- TMR +0x18 TMR_STATUS bits 1:1: R307 (11_clocks_time.md R307) -/
def TMR_STATUS.LATE (n : Nat) : Fld := ⟨0x1818 + 0x20 * n, 1, 1⟩
/-- TMR +0x18 TMR_STATUS bits 0:0: A fire since last cleared (11_clocks_time.md R307) -/
def TMR_STATUS.PENDING (n : Nat) : Fld := ⟨0x1818 + 0x20 * n, 0, 1⟩
/-- CLK +0x00 CLK_STATUS bits 3:3: PCIe reference present (11_clocks_time.md R308) -/
def CLK_STATUS.PE_REF : Fld := ⟨0x1100, 3, 1⟩
/-- CLK +0x00 CLK_STATUS bits 2:2: Stream reference present (11_clocks_time.md R308) -/
def CLK_STATUS.SL_REF : Fld := ⟨0x1100, 2, 1⟩
/-- CLK +0x00 CLK_STATUS bits 1:1: REFCLK within R298 (11_clocks_time.md R308) -/
def CLK_STATUS.REF_OK : Fld := ⟨0x1100, 1, 1⟩
/-- CLK +0x00 CLK_STATUS bits 0:0: Root PLL locked (11_clocks_time.md R308) -/
def CLK_STATUS.LOCK : Fld := ⟨0x1100, 0, 1⟩
/-- CLK +0x04 CLK_CFG bits 27:20: Event ring for TIME_EPOCH (11_clocks_time.md R308) -/
def CLK_CFG.TIME_RING : Fld := ⟨0x1104, 20, 8⟩
/-- CLK +0x04 CLK_CFG bits 15:0: Half-width of the PPS window, ticks (11_clocks_time.md R308) -/
def CLK_CFG.PPS_WIN : Fld := ⟨0x1104, 0, 16⟩
/-- CLK +0x08 THYME_LO bits 31:0: R302 (11_clocks_time.md R308) -/
def THYME_LO.LO : Fld := ⟨0x1108, 0, 32⟩
/-- CLK +0x0C THYME_HI bits 31:0: R302 (11_clocks_time.md R308) -/
def THYME_HI.HI : Fld := ⟨0x110C, 0, 32⟩
/-- CLK +0x10 EPOCH_TICK_LO bits 31:0: Thyme of the epoch (11_clocks_time.md R308) -/
def EPOCH_TICK_LO.EPOCH_TICK : Fld := ⟨0x1110, 0, 32⟩
/-- CLK +0x14 EPOCH_TICK_HI bits 31:0: Thyme of the epoch (11_clocks_time.md R308) -/
def EPOCH_TICK_HI.EPOCH_TICK : Fld := ⟨0x1114, 0, 32⟩
/-- CLK +0x18 EPOCH_S_LO bits 31:0: Epoch seconds, bits 31:0 (11_clocks_time.md R308) -/
def EPOCH_S_LO.S_LO : Fld := ⟨0x1118, 0, 32⟩
/-- CLK +0x1C EPOCH_S_HI bits 15:0: Epoch seconds, bits 47:32 (11_clocks_time.md R308) -/
def EPOCH_S_HI.S_HI : Fld := ⟨0x111C, 0, 16⟩
/-- CLK +0x20 EPOCH_NS bits 29:0: Epoch nanoseconds (11_clocks_time.md R308) -/
def EPOCH_NS.NS : Fld := ⟨0x1120, 0, 30⟩
/-- CLK +0x24 PPS_STATUS bits 31:24: Rejected edges; saturates (11_clocks_time.md R308) -/
def PPS_STATUS.PPS_REJ : Fld := ⟨0x1124, 24, 8⟩
/-- CLK +0x24 PPS_STATUS bits 23:16: Missed windows; saturates (11_clocks_time.md R308) -/
def PPS_STATUS.PPS_MISS : Fld := ⟨0x1124, 16, 8⟩
/-- CLK +0x24 PPS_STATUS bits 1:0: 0b00 FREE; 0b01 ACQUIRE; 0b10 TRACKING; 0b11 HOLDOVER (11_clocks_time.md R308) -/
def PPS_STATUS.PPS_STATE : Fld := ⟨0x1124, 0, 2⟩
/-- CLK +0x28 PPS_DRIFT bits 31:0: Signed, ppb, from the last accepted interval (11_clocks_time.md R308) -/
def PPS_DRIFT.DRIFT : Fld := ⟨0x1128, 0, 32⟩
/-- CLK +0x2C CLK_EVT bits 3:0: Bit 0 EPOCH; 1 PPS_REJECT; 2 HOLDOVER; 3 REGION (11_clocks_time.md R308) -/
def CLK_EVT.EVT : Fld := ⟨0x112C, 0, 4⟩
/-- CLK +0x80 REG_CFG bits 31:0: Region window, ticks (11_clocks_time.md R308) -/
def REG_CFG.REG_FILT : Fld := ⟨0x1180, 0, 32⟩
/-- CLK +0x84 REG_LINK bits 31:24: Arrival difference, signed, 5 ps (11_clocks_time.md R308) -/
def REG_LINK.SKEW (k : Nat) : Fld := ⟨0x1184 + 4 * k, 24, 8⟩
/-- CLK +0x84 REG_LINK bits 23:16: Junction difference, signed, 1 °C (11_clocks_time.md R308) -/
def REG_LINK.TEMP (k : Nat) : Fld := ⟨0x1184 + 4 * k, 16, 8⟩
/-- CLK +0x84 REG_LINK bits 15:8: Supply difference, signed, 1 mV (11_clocks_time.md R308) -/
def REG_LINK.SUPPLY (k : Nat) : Fld := ⟨0x1184 + 4 * k, 8, 8⟩
/-- CLK +0x84 REG_LINK bits 2:0: Bit 0 supply, 1 temperature, 2 skew beyond limit (11_clocks_time.md R308) -/
def REG_LINK.OUT (k : Nat) : Fld := ⟨0x1184 + 4 * k, 0, 3⟩
/-- HOST +0x00 SB_BASE_LO bits 31:16: Status block address, bits 31:16 (12_host_rings.md R314) -/
def SB_BASE_LO.BASE_LO : Fld := ⟨0x1200, 16, 16⟩
/-- HOST +0x04 SB_BASE_HI bits 15:0: Bits 47:32 (12_host_rings.md R314) -/
def SB_BASE_HI.BASE_HI : Fld := ⟨0x1204, 0, 16⟩
/-- HOST +0x08 HOST_CTL bits 31:31: 1 enables status block writes (12_host_rings.md R314) -/
def HOST_CTL.SB_EN : Fld := ⟨0x1208, 31, 1⟩
/-- HOST +0x08 HOST_CTL bits 10:0: MSI-X vector of the interrupt summary (12_host_rings.md R314) -/
def HOST_CTL.SUM_VECTOR : Fld := ⟨0x1208, 0, 11⟩
/-- HOST +0x0C HB_PERIOD bits 31:0: Ticks (12_host_rings.md R314) -/
def HB_PERIOD.VAL : Fld := ⟨0x120C, 0, 32⟩
/-- HOST +0x10 STALL_T bits 31:0: Ring stall time, ticks (12_host_rings.md R314) -/
def STALL_T.VAL : Fld := ⟨0x1210, 0, 32⟩
/-- HOST +0x14 HOST_BW bits 15:0: Host write budget, 0.1 Gbit/s (12_host_rings.md R314) -/
def HOST_BW.VAL : Fld := ⟨0x1214, 0, 16⟩
/-- HOST +0x18 HOST_USED bits 15:0: Budget committed to open threads, 0.1 Gbit/s (12_host_rings.md R314) -/
def HOST_USED.USED : Fld := ⟨0x1218, 0, 16⟩
/-- HOST +0x20 ARCH_PT_LO bits 31:12: Archive page table address, bits 31:12 (12_host_rings.md R314) -/
def ARCH_PT_LO.PT_LO : Fld := ⟨0x1220, 12, 20⟩
/-- HOST +0x24 ARCH_PT_HI bits 15:0: Bits 47:32 (12_host_rings.md R314) -/
def ARCH_PT_HI.PT_HI : Fld := ⟨0x1224, 0, 16⟩
/-- HOST +0x28 ARCH_PAGES bits 25:0: Page table entries, 0–33,554,432 (12_host_rings.md R314) -/
def ARCH_PAGES.PAGES : Fld := ⟨0x1228, 0, 26⟩
/-- HOST +0x2C ARCH_CFG bits 7:0: Event ring for ARCHIVE_PAGE records (12_host_rings.md R314) -/
def ARCH_CFG.ARCH_RING : Fld := ⟨0x122C, 0, 8⟩
/-- HOST +0x30 ARCH_FREE bits 25:0: Pages in the spool's free pool (12_host_rings.md R314) -/
def ARCH_FREE.FREE : Fld := ⟨0x1230, 0, 26⟩
/-- HOST +0x34 HOST_EVT bits 3:0: Bit 0 DB_DISCARD; 1 LINK_DOWN; 2 POOL_EMPTY; 3 BUDGET (12_host_rings.md R314) -/
def HOST_EVT.EVT : Fld := ⟨0x1234, 0, 4⟩
/-- RING +0x00 RG_BASE_LO bits 31:6: Ring address, bits 31:6 (12_host_rings.md R315) -/
def RG_BASE_LO.BASE_LO (n : Nat) : Fld := ⟨0x8000 + 0x20 * n, 6, 26⟩
/-- RING +0x04 RG_BASE_HI bits 15:0: Bits 47:32 (12_host_rings.md R315) -/
def RG_BASE_HI.BASE_HI (n : Nat) : Fld := ⟨0x8004 + 0x20 * n, 0, 16⟩
/-- RING +0x08 RG_CFG bits 31:31: 1 enables the ring (12_host_rings.md R315) -/
def RG_CFG.EN (n : Nat) : Fld := ⟨0x8008 + 0x20 * n, 31, 1⟩
/-- RING +0x08 RG_CFG bits 27:24: 2^(SIZE + 4) entries; at most 8 for command and completion rings, 12 for event rings (12_host_rings.md R315) -/
def RG_CFG.SIZE (n : Nat) : Fld := ⟨0x8008 + 0x20 * n, 24, 4⟩
/-- RING +0x08 RG_CFG bits 21:16: Completion ring of a command ring; ignored otherwise (12_host_rings.md R315) -/
def RG_CFG.CQ (n : Nat) : Fld := ⟨0x8008 + 0x20 * n, 16, 6⟩
/-- RING +0x08 RG_CFG bits 10:0: MSI-X vector of a completion or event ring; ignored otherwise (12_host_rings.md R315) -/
def RG_CFG.VECTOR (n : Nat) : Fld := ⟨0x8008 + 0x20 * n, 0, 11⟩
/-- RING +0x0C RG_ITR bits 31:16: Moderation window, units of 8 ticks (10 ns) (12_host_rings.md R315) -/
def RG_ITR.ITR_TIME (n : Nat) : Fld := ⟨0x800C + 0x20 * n, 16, 16⟩
/-- RING +0x0C RG_ITR bits 7:0: Records that raise the vector at once; 0 acts as 1 (12_host_rings.md R315) -/
def RG_ITR.ITR_COUNT (n : Nat) : Fld := ⟨0x800C + 0x20 * n, 0, 8⟩
/-- RING +0x10 RG_PI bits 31:0: Producer index (12_host_rings.md R315) -/
def RG_PI.PI (n : Nat) : Fld := ⟨0x8010 + 0x20 * n, 0, 32⟩
/-- RING +0x14 RG_CI bits 31:0: Consumer index (12_host_rings.md R315) -/
def RG_CI.CI (n : Nat) : Fld := ⟨0x8014 + 0x20 * n, 0, 32⟩
/-- RING +0x18 RG_STATUS bits 31:16: Records dropped on this event ring; saturates (12_host_rings.md R315) -/
def RG_STATUS.DROP (n : Nat) : Fld := ⟨0x8018 + 0x20 * n, 16, 16⟩
/-- RING +0x18 RG_STATUS bits 3:0: 0x0 DISABLED; 0x1 ACTIVE; 0x2 DRAINING; 0x3 HALTED; 0x7 FENCED (12_host_rings.md R315) -/
def RG_STATUS.STATE (n : Nat) : Fld := ⟨0x8018 + 0x20 * n, 0, 4⟩
/-- SL +0x00 SL_CFG bits 31:31: 1 runs the link (13_stream_link.md R373) -/
def SL_CFG.EN : Fld := ⟨0x1400, 31, 1⟩
/-- SL +0x00 SL_CFG bits 23:16: Transmit lanes enabled (13_stream_link.md R373) -/
def SL_CFG.TX_EN : Fld := ⟨0x1400, 16, 8⟩
/-- SL +0x00 SL_CFG bits 15:8: Receive lanes enabled (13_stream_link.md R373) -/
def SL_CFG.RX_EN : Fld := ⟨0x1400, 8, 8⟩
/-- SL +0x04 SL_TRAIN bits 31:0: Training window, ticks (13_stream_link.md R373) -/
def SL_TRAIN.TRAIN_TMAX : Fld := ⟨0x1404, 0, 32⟩
/-- SL +0x08 SL_FLUSH bits 31:0: Block age limit, ticks (13_stream_link.md R373) -/
def SL_FLUSH.FLUSH_T : Fld := ⟨0x1408, 0, 32⟩
/-- SL +0x0C SL_DEC bits 31:0: Hold after a change of K, ticks (13_stream_link.md R373) -/
def SL_DEC.DEC_HOLD : Fld := ⟨0x140C, 0, 32⟩
/-- SL +0x10 SL_STATUS bits 26:24: Link state under R359 (13_stream_link.md R373) -/
def SL_STATUS.LSTATE : Fld := ⟨0x1410, 24, 3⟩
/-- SL +0x10 SL_STATUS bits 23:16: Transmit lanes in use (13_stream_link.md R373) -/
def SL_STATUS.TX_LIVE : Fld := ⟨0x1410, 16, 8⟩
/-- SL +0x10 SL_STATUS bits 15:8: Receive lanes locked (13_stream_link.md R373) -/
def SL_STATUS.RX_LOCK : Fld := ⟨0x1410, 8, 8⟩
/-- SL +0x10 SL_STATUS bits 7:0: Receive lanes in use (13_stream_link.md R373) -/
def SL_STATUS.RX_LIVE : Fld := ⟨0x1410, 0, 8⟩
/-- SL +0x14 SL_FENCED bits 15:8: Receive lanes fenced (13_stream_link.md R373) -/
def SL_FENCED.RX : Fld := ⟨0x1414, 8, 8⟩
/-- SL +0x14 SL_FENCED bits 7:0: Transmit lanes fenced (13_stream_link.md R373) -/
def SL_FENCED.TX : Fld := ⟨0x1414, 0, 8⟩
/-- SL +0x18 SL_CNT bits 31:16: Entries into RETRAIN; saturates (13_stream_link.md R373) -/
def SL_CNT.RETRAINS : Fld := ⟨0x1418, 16, 16⟩
/-- SL +0x18 SL_CNT bits 15:8: R363; saturates (13_stream_link.md R373) -/
def SL_CNT.PEER_LOST : Fld := ⟨0x1418, 8, 8⟩
/-- SL +0x18 SL_CNT bits 7:0: R361; saturates (13_stream_link.md R373) -/
def SL_CNT.SEEK_MISS : Fld := ⟨0x1418, 0, 8⟩
/-- SL +0x1C SL_EVT bits 5:0: Bit 0 UP; 1 SEEK; 2 RETRAIN; 3 LANE_FENCED; 4 DOWN; 5 CREDIT_ERR (13_stream_link.md R373) -/
def SL_EVT.EVT : Fld := ⟨0x141C, 0, 6⟩
/-- SL +0x40 SL_TXFFE bits 23:16: Pre-cursor tap, signed, 1/64 of full swing (13_stream_link.md R373) -/
def SL_TXFFE.PRE (k : Nat) : Fld := ⟨0x1440 + 4 * k, 16, 8⟩
/-- SL +0x40 SL_TXFFE bits 15:8: Main tap, unsigned, 1/64 (13_stream_link.md R373) -/
def SL_TXFFE.MAIN (k : Nat) : Fld := ⟨0x1440 + 4 * k, 8, 8⟩
/-- SL +0x40 SL_TXFFE bits 7:0: Post-cursor tap, signed, 1/64; a write making |PRE| + MAIN + |POST| exceed 64 is ignored (13_stream_link.md R373) -/
def SL_TXFFE.POST (k : Nat) : Fld := ⟨0x1440 + 4 * k, 0, 8⟩
/-- SL +0x60 SL_RXFEC bits 31:16: Corrected symbols; saturates (13_stream_link.md R373) -/
def SL_RXFEC.CORR (k : Nat) : Fld := ⟨0x1460 + 4 * k, 16, 16⟩
/-- SL +0x60 SL_RXFEC bits 15:0: Uncorrectable codewords; saturates (13_stream_link.md R373) -/
def SL_RXFEC.UNCORR (k : Nat) : Fld := ⟨0x1460 + 4 * k, 0, 16⟩
/-- SLVC +0x00 VC_CFG bits 23:16: Queue limit, 64 KiB units, 0–128 (13_stream_link.md R373) -/
def VC_CFG.QUOTA (n : Nat) : Fld := ⟨0x1500 + 0x10 * n, 16, 8⟩
/-- SLVC +0x00 VC_CFG bits 15:12: Upper watermark, 1/16 of the quota; 0 acts as 1 (13_stream_link.md R373) -/
def VC_CFG.HIGH (n : Nat) : Fld := ⟨0x1500 + 0x10 * n, 12, 4⟩
/-- SLVC +0x00 VC_CFG bits 11:8: Lower watermark, 1/16 of the quota (13_stream_link.md R373) -/
def VC_CFG.LOW (n : Nat) : Fld := ⟨0x1500 + 0x10 * n, 8, 4⟩
/-- SLVC +0x00 VC_CFG bits 7:0: Flits per turn (13_stream_link.md R373) -/
def VC_CFG.WEIGHT (n : Nat) : Fld := ⟨0x1500 + 0x10 * n, 0, 8⟩
/-- SLVC +0x04 VC_FILL bits 23:0: Queued bytes (13_stream_link.md R373) -/
def VC_FILL.FILL (n : Nat) : Fld := ⟨0x1504 + 0x10 * n, 0, 24⟩
/-- SLVC +0x08 VC_CREDIT bits 31:16: R362 (13_stream_link.md R373) -/
def VC_CREDIT.LIMIT (n : Nat) : Fld := ⟨0x1508 + 0x10 * n, 16, 16⟩
/-- SLVC +0x08 VC_CREDIT bits 15:0: R362 (13_stream_link.md R373) -/
def VC_CREDIT.SENT (n : Nat) : Fld := ⟨0x1508 + 0x10 * n, 0, 16⟩
/-- SLVC +0x0C VC_CNT bits 31:16: Discarded blocks; saturates (13_stream_link.md R373) -/
def VC_CNT.DROP_BLK (n : Nat) : Fld := ⟨0x150C + 0x10 * n, 16, 16⟩
/-- SLVC +0x0C VC_CNT bits 4:0: R369 (13_stream_link.md R373) -/
def VC_CNT.K (n : Nat) : Fld := ⟨0x150C + 0x10 * n, 0, 5⟩
/-- TW +0x00 TW_CFG bits 30:24: Target base address; windows under R389 (14_two_wire.md R376) -/
def TW_CFG.ADDR (n : Nat) : Fld := ⟨0xC000 + 0x100 * n, 24, 7⟩
/-- TW +0x00 TW_CFG bits 23:20: Retries after arbitration loss, 0–15 (14_two_wire.md R376) -/
def TW_CFG.ARB_MAX (n : Nat) : Fld := ⟨0xC000 + 0x100 * n, 20, 4⟩
/-- TW +0x00 TW_CFG bits 18:18: Target: signal attention while TW_ALERT.PENDING = 1 (14_two_wire.md R376) -/
def TW_CFG.ATTN_OUT (n : Nat) : Fld := ⟨0xC000 + 0x100 * n, 18, 1⟩
/-- TW +0x00 TW_CFG bits 17:17: Controller: read the Alert Response Address on each attention (14_two_wire.md R376) -/
def TW_CFG.ARA_EN (n : Nat) : Fld := ⟨0xC000 + 0x100 * n, 17, 1⟩
/-- TW +0x00 TW_CFG bits 16:16: Target windows: 1 requires PEC under R394 (14_two_wire.md R376) -/
def TW_CFG.PEC (n : Nat) : Fld := ⟨0xC000 + 0x100 * n, 16, 1⟩
/-- TW +0x00 TW_CFG bits 12:8: Glitch filter in peripheral clocks, 0–31 (0–620 ns) (14_two_wire.md R376) -/
def TW_CFG.FILT (n : Nat) : Fld := ⟨0xC000 + 0x100 * n, 8, 5⟩
/-- TW +0x00 TW_CFG bits 1:0: 0b00 100 kHz; 0b01 400 kHz; 0b10 1 MHz; 0b11 write ignored (14_two_wire.md R376) -/
def TW_CFG.SPEED (n : Nat) : Fld := ⟨0xC000 + 0x100 * n, 0, 2⟩
/-- TW +0x04 TW_PMB bits 31:31: TW0 only: the PMBus address answers (14_two_wire.md R376) -/
def TW_PMB.PMB_EN (n : Nat) : Fld := ⟨0xC004 + 0x100 * n, 31, 1⟩
/-- TW +0x04 TW_PMB bits 6:0: TW0 only: PMBus address (14_two_wire.md R376) -/
def TW_PMB.PMB_ADDR (n : Nat) : Fld := ⟨0xC004 + 0x100 * n, 0, 7⟩
/-- TW +0x08 TW_STRETCH bits 31:0: SCL-low timeout, Thyme ticks (14_two_wire.md R376) -/
def TW_STRETCH.STRETCH_T (n : Nat) : Fld := ⟨0xC008 + 0x100 * n, 0, 32⟩
/-- TW +0x0C TW_WIN bits 31:31: Window answers at ADDR + k (14_two_wire.md R376) -/
def TW_WIN.VALID (n k : Nat) : Fld := ⟨0xC00C + 0x100 * n + 4 * k, 31, 1⟩
/-- TW +0x0C TW_WIN bits 30:30: 1 window writable (14_two_wire.md R376) -/
def TW_WIN.WR (n k : Nat) : Fld := ⟨0xC00C + 0x100 * n + 4 * k, 30, 1⟩
/-- TW +0x0C TW_WIN bits 23:8: BAR0 offset bits 23:8 of the window (14_two_wire.md R376) -/
def TW_WIN.BASE (n k : Nat) : Fld := ⟨0xC00C + 0x100 * n + 4 * k, 8, 16⟩
/-- TW +0x1C TW_PRIV bits 2:0: TW0 only: bit j enables privileged window Pj (14_two_wire.md R376) -/
def TW_PRIV.EN (n : Nat) : Fld := ⟨0xC01C + 0x100 * n, 0, 3⟩
/-- TW +0x20 TW_STATUS bits 31:16: Pointer of the window last addressed (14_two_wire.md R376) -/
def TW_STATUS.PTR (n : Nat) : Fld := ⟨0xC020 + 0x100 * n, 16, 16⟩
/-- TW +0x20 TW_STATUS bits 8:8: R380 (14_two_wire.md R376) -/
def TW_STATUS.IDLE_SEEN (n : Nat) : Fld := ⟨0xC020 + 0x100 * n, 8, 1⟩
/-- TW +0x20 TW_STATUS bits 7:7: R383 (14_two_wire.md R376) -/
def TW_STATUS.BUS_HELD (n : Nat) : Fld := ⟨0xC020 + 0x100 * n, 7, 1⟩
/-- TW +0x20 TW_STATUS bits 5:4: 0b00 off; 0b01 target; 0b10 controller; 0b11 both (14_two_wire.md R376) -/
def TW_STATUS.ROLE (n : Nat) : Fld := ⟨0xC020 + 0x100 * n, 4, 2⟩
/-- TW +0x20 TW_STATUS bits 3:0: 0x0 OFF; 0x1 IDLE; 0x2 TARGET; 0x3 CONTROLLER; 0x4 CLEARING; 0x5 ATTENTION; 0x7 FENCED (14_two_wire.md R376) -/
def TW_STATUS.STATE (n : Nat) : Fld := ⟨0xC020 + 0x100 * n, 0, 4⟩
/-- TW +0x24 TW_CNT bits 31:24: Saturates (14_two_wire.md R376) -/
def TW_CNT.PEC_ERR (n : Nat) : Fld := ⟨0xC024 + 0x100 * n, 24, 8⟩
/-- TW +0x24 TW_CNT bits 23:16: Saturates (14_two_wire.md R376) -/
def TW_CNT.ARB_LOST (n : Nat) : Fld := ⟨0xC024 + 0x100 * n, 16, 8⟩
/-- TW +0x24 TW_CNT bits 15:8: Saturates (14_two_wire.md R376) -/
def TW_CNT.TIMEOUT (n : Nat) : Fld := ⟨0xC024 + 0x100 * n, 8, 8⟩
/-- TW +0x24 TW_CNT bits 7:0: Alert Response reads that no target answered; saturates (14_two_wire.md R376) -/
def TW_CNT.ATTN_NONE (n : Nat) : Fld := ⟨0xC024 + 0x100 * n, 0, 8⟩
/-- TW +0x28 TW_EVT bits 7:0: Bit 0 XFER_DONE; 1 XFER_ERR; 2 ATTN; 3 TIMEOUT; 4 STUCK; 5 PEC_ERR; 6 ROLE_SWITCH; 7 ... (14_two_wire.md R376) -/
def TW_EVT.EVT (n : Nat) : Fld := ⟨0xC028 + 0x100 * n, 0, 8⟩
/-- TW +0x2C TW_ATTN bits 15:8: Attentions recognised; saturates (14_two_wire.md R376) -/
def TW_ATTN.COUNT (n : Nat) : Fld := ⟨0xC02C + 0x100 * n, 8, 8⟩
/-- TW +0x2C TW_ATTN bits 7:7: ADDR holds an Alert Response (14_two_wire.md R376) -/
def TW_ATTN.VALID (n : Nat) : Fld := ⟨0xC02C + 0x100 * n, 7, 1⟩
/-- TW +0x2C TW_ATTN bits 6:0: Address in the last Alert Response (14_two_wire.md R376) -/
def TW_ATTN.ADDR (n : Nat) : Fld := ⟨0xC02C + 0x100 * n, 0, 7⟩
/-- TW +0x30 TW_ALERT bits 16:16: R385 (14_two_wire.md R376) -/
def TW_ALERT.PENDING (n : Nat) : Fld := ⟨0xC030 + 0x100 * n, 16, 1⟩
/-- TW +0x30 TW_ALERT bits 11:9: Lowest fault level that sets PENDING (14_two_wire.md R376) -/
def TW_ALERT.FLT_LEVEL (n : Nat) : Fld := ⟨0xC030 + 0x100 * n, 9, 3⟩
/-- TW +0x30 TW_ALERT bits 8:8: Faults set PENDING (14_two_wire.md R376) -/
def TW_ALERT.FLT_EN (n : Nat) : Fld := ⟨0xC030 + 0x100 * n, 8, 1⟩
/-- TW +0x30 TW_ALERT bits 0:0: 1 sets PENDING (14_two_wire.md R376) -/
def TW_ALERT.REQ (n : Nat) : Fld := ⟨0xC030 + 0x100 * n, 0, 1⟩
/-- TW +0x34 TW_XCTL bits 31:31: 1 starts a controller transfer (14_two_wire.md R376) -/
def TW_XCTL.GO (n : Nat) : Fld := ⟨0xC034 + 0x100 * n, 31, 1⟩
/-- TW +0x34 TW_XCTL bits 22:22: Append and check PEC (14_two_wire.md R376) -/
def TW_XCTL.PEC (n : Nat) : Fld := ⟨0xC034 + 0x100 * n, 22, 1⟩
/-- TW +0x34 TW_XCTL bits 21:16: Bytes to read, 0–32; above 32 acts as 32 (14_two_wire.md R376) -/
def TW_XCTL.RLEN (n : Nat) : Fld := ⟨0xC034 + 0x100 * n, 16, 6⟩
/-- TW +0x34 TW_XCTL bits 13:8: Bytes to write, 0–32; above 32 acts as 32 (14_two_wire.md R376) -/
def TW_XCTL.WLEN (n : Nat) : Fld := ⟨0xC034 + 0x100 * n, 8, 6⟩
/-- TW +0x34 TW_XCTL bits 6:0: Target address (14_two_wire.md R376) -/
def TW_XCTL.XADDR (n : Nat) : Fld := ⟨0xC034 + 0x100 * n, 0, 7⟩
/-- TW +0x38 TW_XSTAT bits 15:8: Data bytes acknowledged or received (14_two_wire.md R376) -/
def TW_XSTAT.NBYTES (n : Nat) : Fld := ⟨0xC038 + 0x100 * n, 8, 8⟩
/-- TW +0x38 TW_XSTAT bits 7:4: 0x0 none; 0x1 NACK_ADDR; 0x2 NACK_DATA; 0x3 ARB_LOST; 0x4 TIMEOUT; 0x5 PEC; 0x6 STUCK; ... (14_two_wire.md R376) -/
def TW_XSTAT.ERR (n : Nat) : Fld := ⟨0xC038 + 0x100 * n, 4, 4⟩
/-- TW +0x38 TW_XSTAT bits 1:0: 0b00 IDLE; 0b01 BUSY; 0b10 DONE; 0b11 ERROR (14_two_wire.md R376) -/
def TW_XSTAT.STATE (n : Nat) : Fld := ⟨0xC038 + 0x100 * n, 0, 2⟩
/-- TW +0x40 TW_WDATA bits 31:0: Bytes to write, byte k at offset 0x40 + k (14_two_wire.md R376) -/
def TW_WDATA.WDATA (n k : Nat) : Fld := ⟨0xC040 + 0x100 * n + 4 * k, 0, 32⟩
/-- TW +0x60 TW_RDATA bits 31:0: Bytes read, byte k at offset 0x60 + k (14_two_wire.md R376) -/
def TW_RDATA.RDATA (n k : Nat) : Fld := ⟨0xC060 + 0x100 * n + 4 * k, 0, 32⟩
/-- TW +0x80 TW_PMB_RSH bits 31:16: TW0 only: ENT_SHUNT.RSHUNT of E(2w + 1), 0.1 µΩ (0.5 mΩ) (14_two_wire.md R376) -/
def TW_PMB_RSH.RSH_ODD (n k : Nat) : Fld := ⟨0xC080 + 0x100 * n + 4 * k, 16, 16⟩
/-- TW +0x80 TW_PMB_RSH bits 15:0: TW0 only: ENT_SHUNT.RSHUNT of E(2w) (14_two_wire.md R376) -/
def TW_PMB_RSH.RSH_EVEN (n k : Nat) : Fld := ⟨0xC080 + 0x100 * n + 4 * k, 0, 16⟩
/-- CORE +0x00 CORE_CFG bits 31:31: 1 enables the watchdog of R426 (15_mograthes_cores.md R423) -/
def CORE_CFG.WDT_EN (n : Nat) : Fld := ⟨0xD000 + 0x40 * n, 31, 1⟩
/-- CORE +0x00 CORE_CFG bits 30:28: Lowest fault level that sets CORE_PEND bit 3 (15_mograthes_cores.md R423) -/
def CORE_CFG.FLT_LEVEL (n : Nat) : Fld := ⟨0xD000 + 0x40 * n, 28, 3⟩
/-- CORE +0x00 CORE_CFG bits 16:0: Start address in Local. code (15_mograthes_cores.md R423) -/
def CORE_CFG.ENTRY (n : Nat) : Fld := ⟨0xD000 + 0x40 * n, 0, 17⟩
/-- CORE +0x04 CORE_WDT bits 31:0: Watchdog window in Thyme ticks (15_mograthes_cores.md R423) -/
def CORE_WDT.PERIOD (n : Nat) : Fld := ⟨0xD004 + 0x40 * n, 0, 32⟩
/-- CORE +0x08 CORE_CTL bits 1:1: 1 halts the core (15_mograthes_cores.md R423) -/
def CORE_CTL.HALT (n : Nat) : Fld := ⟨0xD008 + 0x40 * n, 1, 1⟩
/-- CORE +0x08 CORE_CTL bits 0:0: 1 starts a HALTED core under R404 (15_mograthes_cores.md R423) -/
def CORE_CTL.START (n : Nat) : Fld := ⟨0xD008 + 0x40 * n, 0, 1⟩
/-- CORE +0x0C CORE_STATUS bits 31:29: R422 (15_mograthes_cores.md R423) -/
def CORE_STATUS.STATE (n : Nat) : Fld := ⟨0xD00C + 0x40 * n, 29, 3⟩
/-- CORE +0x0C CORE_STATUS bits 16:0: PC at the read (15_mograthes_cores.md R423) -/
def CORE_STATUS.PC (n : Nat) : Fld := ⟨0xD00C + 0x40 * n, 0, 17⟩
/-- CORE +0x10 CORE_EXC_VEC bits 16:0: Handler address; 0 means no handler (15_mograthes_cores.md R423) -/
def CORE_EXC_VEC.VEC (n : Nat) : Fld := ⟨0xD010 + 0x40 * n, 0, 17⟩
/-- CORE +0x14 CORE_EXC_PC bits 16:0: Address of the instruction that raised the last exception (15_mograthes_cores.md R423) -/
def CORE_EXC_PC.EPC (n : Nat) : Fld := ⟨0xD014 + 0x40 * n, 0, 17⟩
/-- CORE +0x18 CORE_EXC_INFO bits 15:8: Exceptions raised; saturates (15_mograthes_cores.md R423) -/
def CORE_EXC_INFO.COUNT (n : Nat) : Fld := ⟨0xD018 + 0x40 * n, 8, 8⟩
/-- CORE +0x18 CORE_EXC_INFO bits 7:4: Access type of R250 (15_mograthes_cores.md R423) -/
def CORE_EXC_INFO.ACCESS (n : Nat) : Fld := ⟨0xD018 + 0x40 * n, 4, 4⟩
/-- CORE +0x18 CORE_EXC_INFO bits 3:0: R424 (15_mograthes_cores.md R423) -/
def CORE_EXC_INFO.CAUSE (n : Nat) : Fld := ⟨0xD018 + 0x40 * n, 0, 4⟩
/-- CORE +0x1C CORE_EXC_ADDR bits 31:0: Core-map address of the operand, or PC for a fetch (15_mograthes_cores.md R423) -/
def CORE_EXC_ADDR.ADDR (n : Nat) : Fld := ⟨0xD01C + 0x40 * n, 0, 32⟩
/-- CORE +0x20 CORE_SP_LIMIT bits 31:0: Lowest address SP may take (15_mograthes_cores.md R423) -/
def CORE_SP_LIMIT.LIMIT (n : Nat) : Fld := ⟨0xD020 + 0x40 * n, 0, 32⟩
/-- CORE +0x24 CORE_KICK bits 31:0: 0x0000_6B1C restarts the watchdog window; other values are ignored (15_mograthes_cores.md R423) -/
def CORE_KICK.KEY (n : Nat) : Fld := ⟨0xD024 + 0x40 * n, 0, 32⟩
/-- CORE +0x28 CORE_SIGNAL bits 0:0: Sets CORE_PEND bit 2; reads 0 (15_mograthes_cores.md R423) -/
def CORE_SIGNAL.SIGNAL (n : Nat) : Fld := ⟨0xD028 + 0x40 * n, 0, 1⟩
/-- CORE +0x2C CORE_PEND bits 31:0: R420 (15_mograthes_cores.md R423) -/
def CORE_PEND.PEND (n : Nat) : Fld := ⟨0xD02C + 0x40 * n, 0, 32⟩
/-- CORE +0x30 CORE_HWIN bits 31:15: Host address bits 47:31 of the host window; HC only, RO 0 elsewhere (15_mograthes_cores.md R423) -/
def CORE_HWIN.HBASE (n : Nat) : Fld := ⟨0xD030 + 0x40 * n, 15, 17⟩
/-- CORE +0x34 CORE_CYCLES bits 31:0: Core clocks spent RUNNING or WAITING; wraps (15_mograthes_cores.md R423) -/
def CORE_CYCLES.CYCLES (n : Nat) : Fld := ⟨0xD034 + 0x40 * n, 0, 32⟩
/-- CORE +0x38 CORE_EVT bits 2:0: Bit 0 EXCEPTION; 1 WDT_EXPIRED; 2 FENCED (15_mograthes_cores.md R423) -/
def CORE_EVT.EVT (n : Nat) : Fld := ⟨0xD038 + 0x40 * n, 0, 3⟩
/-- MEM +0x00 MEM_CFG bits 31:31: 1 runs the scrubbers (16_memory_protection.md R443) -/
def MEM_CFG.SCRUB_EN : Fld := ⟨0x1300, 31, 1⟩
/-- MEM +0x04 MEM_SCRUB bits 31:0: Thyme ticks (16_memory_protection.md R443) -/
def MEM_SCRUB.SCRUB_PERIOD : Fld := ⟨0x1304, 0, 32⟩
/-- MEM +0x08 MEM_STATUS bits 31:31: Every CONFIGURE-entry bank has finished R438 (16_memory_protection.md R443) -/
def MEM_STATUS.INIT_DONE : Fld := ⟨0x1308, 31, 1⟩
/-- MEM +0x08 MEM_STATUS bits 30:30: The standby banks have finished (16_memory_protection.md R443) -/
def MEM_STATUS.SB_INIT_DONE : Fld := ⟨0x1308, 30, 1⟩
/-- MEM +0x08 MEM_STATUS bits 7:0: Banks still initialising (16_memory_protection.md R443) -/
def MEM_STATUS.INIT_LEFT : Fld := ⟨0x1308, 0, 8⟩
/-- MEM +0x0C MEM_PASS bits 31:0: Completed scrub windows; wraps (16_memory_protection.md R443) -/
def MEM_PASS.PASSES : Fld := ⟨0x130C, 0, 32⟩
/-- MEM +0x10 MEM_OFFLINE bits 31:0: Bit b of word w: bank 32w + b offline (16_memory_protection.md R443) -/
def MEM_OFFLINE.OFFLINE (k : Nat) : Fld := ⟨0x1310 + 4 * k, 0, 32⟩
/-- MEM +0x24 MEM_TAKE bits 11:0: R442; FACTORY only (16_memory_protection.md R443) -/
def MEM_TAKE.BANK : Fld := ⟨0x1324, 0, 12⟩
/-- MEM +0x28 MEM_RAW_ADDR bits 31:20: Bank of the raw operation (16_memory_protection.md R443) -/
def MEM_RAW_ADDR.BANK : Fld := ⟨0x1328, 20, 12⟩
/-- MEM +0x28 MEM_RAW_ADDR bits 15:0: Granule index within the bank (16_memory_protection.md R443) -/
def MEM_RAW_ADDR.GRAN : Fld := ⟨0x1328, 0, 16⟩
/-- MEM +0x2C MEM_RAW_DLO bits 31:0: Data bits 31:0 (16_memory_protection.md R443) -/
def MEM_RAW_DLO.DLO : Fld := ⟨0x132C, 0, 32⟩
/-- MEM +0x30 MEM_RAW_DHI bits 31:0: Data bits 63:32 (16_memory_protection.md R443) -/
def MEM_RAW_DHI.DHI : Fld := ⟨0x1330, 0, 32⟩
/-- MEM +0x34 MEM_RAW_CHK bits 15:8: Column check bits (16_memory_protection.md R443) -/
def MEM_RAW_CHK.COL : Fld := ⟨0x1334, 8, 8⟩
/-- MEM +0x34 MEM_RAW_CHK bits 7:0: Row check bits (16_memory_protection.md R443) -/
def MEM_RAW_CHK.ROW : Fld := ⟨0x1334, 0, 8⟩
/-- MEM +0x38 MEM_RAW_CTL bits 1:1: 1 writes data and checks as held (16_memory_protection.md R443) -/
def MEM_RAW_CTL.WRITE : Fld := ⟨0x1338, 1, 1⟩
/-- MEM +0x38 MEM_RAW_CTL bits 0:0: 1 reads data and checks into the registers above (16_memory_protection.md R443) -/
def MEM_RAW_CTL.READ : Fld := ⟨0x1338, 0, 1⟩
/-- MEM +0x3C MEM_RAW_STAT bits 31:24: S_c of the last raw read (16_memory_protection.md R443) -/
def MEM_RAW_STAT.SYN_COL : Fld := ⟨0x133C, 24, 8⟩
/-- MEM +0x3C MEM_RAW_STAT bits 23:16: S_r of the last raw read (16_memory_protection.md R443) -/
def MEM_RAW_STAT.SYN_ROW : Fld := ⟨0x133C, 16, 8⟩
/-- MEM +0x3C MEM_RAW_STAT bits 3:2: 0b00 CLEAN; 0b01 DATA; 0b10 CHECK; 0b11 UNCORRECTABLE (16_memory_protection.md R443) -/
def MEM_RAW_STAT.DECODE : Fld := ⟨0x133C, 2, 2⟩
/-- MEM +0x3C MEM_RAW_STAT bits 1:1: The last raw operation was refused (16_memory_protection.md R443) -/
def MEM_RAW_STAT.REFUSED : Fld := ⟨0x133C, 1, 1⟩
/-- MEM +0x3C MEM_RAW_STAT bits 0:0: The last raw operation has ended (16_memory_protection.md R443) -/
def MEM_RAW_STAT.DONE : Fld := ⟨0x133C, 0, 1⟩
/-- MEM +0x40 MEM_EVT bits 3:0: Bit 0 CE; 1 UE; 2 RMW; 3 INIT_DONE (16_memory_protection.md R443) -/
def MEM_EVT.EVT : Fld := ⟨0x1340, 0, 4⟩
/-- DEV +0x00 DEV_ID bits 31:16: Part number (17_register_map.md R454) -/
def DEV_ID.PART : Fld := ⟨0x0, 16, 16⟩
/-- DEV +0x00 DEV_ID bits 15:8: Kredetha family code (17_register_map.md R454) -/
def DEV_ID.FAMILY : Fld := ⟨0x0, 8, 8⟩
/-- DEV +0x00 DEV_ID bits 7:0: Silicon stepping of the package; 0x10 for the first production stepping (17_register_map.md R454) -/
def DEV_ID.STEP : Fld := ⟨0x0, 0, 8⟩
/-- DEV +0x04 DEV_DIE bits 23:20: Stepping of the entry die (17_register_map.md R454) -/
def DEV_DIE.E : Fld := ⟨0x4, 20, 4⟩
/-- DEV +0x04 DEV_DIE bits 19:4: Bits 4n+7:4n+4: stepping of loom die Ln (17_register_map.md R454) -/
def DEV_DIE.LOOM : Fld := ⟨0x4, 4, 16⟩
/-- DEV +0x04 DEV_DIE bits 3:0: Stepping of the hub die (17_register_map.md R454) -/
def DEV_DIE.HUB : Fld := ⟨0x4, 0, 4⟩
/-- DEV +0x08 DEV_SERIAL_LO bits 31:0: Unique device number, bits 31:0 (17_register_map.md R454) -/
def DEV_SERIAL_LO.SERIAL_LO : Fld := ⟨0x8, 0, 32⟩
/-- DEV +0x0C DEV_SERIAL_HI bits 31:0: Bits 63:32 (17_register_map.md R454) -/
def DEV_SERIAL_HI.SERIAL_HI : Fld := ⟨0xC, 0, 32⟩
/-- DEV +0x10 DEV_CFG bits 0:0: R19 (17_register_map.md R454) -/
def DEV_CFG.ARCHIVE_MODE : Fld := ⟨0x10, 0, 1⟩
/-- DEV +0x14 DEV_STATUS bits 31:31: Strap as sampled under R275 (17_register_map.md R454) -/
def DEV_STATUS.FACTORY_N : Fld := ⟨0x14, 31, 1⟩
/-- DEV +0x14 DEV_STATUS bits 30:30: Strap as sampled (17_register_map.md R454) -/
def DEV_STATUS.BOOT_SEL : Fld := ⟨0x14, 30, 1⟩
/-- DEV +0x14 DEV_STATUS bits 29:29: Strap as sampled (17_register_map.md R454) -/
def DEV_STATUS.KEEP_STAY : Fld := ⟨0x14, 29, 1⟩
/-- DEV +0x14 DEV_STATUS bits 12:12: Entry link in service (17_register_map.md R454) -/
def DEV_STATUS.ENTRY_LINK : Fld := ⟨0x14, 12, 1⟩
/-- DEV +0x14 DEV_STATUS bits 11:8: Bit n: hub link Ln in service (17_register_map.md R454) -/
def DEV_STATUS.HUB_LINK : Fld := ⟨0x14, 8, 4⟩
/-- DEV +0x14 DEV_STATUS bits 2:0: Bit k: neighbour link k in service (17_register_map.md R454) -/
def DEV_STATUS.NEIGH_LINK : Fld := ⟨0x14, 0, 3⟩
/-- DEV +0x18 DEV_IRQ_SUM bits 7:0: Under R455 (17_register_map.md R454) -/
def DEV_IRQ_SUM.SUM : Fld := ⟨0x18, 0, 8⟩
/-- DEV +0x1C DEV_IRQ_EN bits 7:0: Bit b enables summary bit b (17_register_map.md R454) -/
def DEV_IRQ_EN.EN : Fld := ⟨0x1C, 0, 8⟩
/-- DEV +0x20 DEV_WIGN bits 31:31: A write was ignored under R450 (17_register_map.md R454) -/
def DEV_WIGN.SET : Fld := ⟨0x20, 31, 1⟩
/-- DEV +0x20 DEV_WIGN bits 30:30: A further write was ignored after the recorded one (17_register_map.md R454) -/
def DEV_WIGN.MORE : Fld := ⟨0x20, 30, 1⟩
/-- DEV +0x20 DEV_WIGN bits 27:24: R450 (17_register_map.md R454) -/
def DEV_WIGN.REASON : Fld := ⟨0x20, 24, 4⟩
/-- DEV +0x20 DEV_WIGN bits 23:0: BAR0 offset of the recorded write; for a core, its address − 0x4000_0000 (17_register_map.md R454) -/
def DEV_WIGN.OFFSET : Fld := ⟨0x20, 0, 24⟩
/-- DEV +0x24 DEV_WIGN_AGENT bits 7:0: Master agent ID of the recorded write (17_register_map.md R454) -/
def DEV_WIGN_AGENT.AGENT : Fld := ⟨0x24, 0, 8⟩
/-- DEV +0x400 WIN_PEND bits 31:0: Bit b of word w: tag 32w + b raised a window event with WIN_CFG.IRQ = 1 (17_register_map.md R454) -/
def WIN_PEND.PEND (k : Nat) : Fld := ⟨0x400 + 4 * k, 0, 32⟩

end Sys2Proof.Machine
end

