-- ==== Sys2Proof/Config.lean ====
section
/-! DEFINITION. What an implementation fixes and the spec leaves open: free values with no body (log 5), and the
cryptographic functions, which the model leaves uninterpreted (log 11). -/

namespace Sys2Proof.Config

/-- A value the spec leaves open, numbered by the model's own counter `ClockSt.freeCtr` (log 5). -/
opaque freeValue : Nat → Nat

/-- What the fractional-delay filter of a slice makes of a code under a SKEW other than 0 (07_conversion.md R188; log 5): by the converter,
the instant, the code and SKEW. The spec gives neither the filter's taps nor its rounding. -/
opaque skewFilter : (conv tick : Nat) → (code skew : Int) → Int

/-- What the estimator finds for a live slice whose figures the command does not give (07_conversion.md R188; log 24): by the converter, the
slice, the tick of the update and the correction, 0 OFS, 1 GAIN, 2 SKEW. -/
opaque estimate : (conv slice tick correction : Nat) → Int

/-- SHA-384 of a byte string, as 48 bytes (10_modes_startup.md R280; log 11). -/
opaque sha384 : List Byte → List Byte

/-- ECDSA P-384 verification of a signature (96 bytes) over a digest (48 bytes) with a public key (97 bytes)
(10_modes_startup.md R280; log 11). -/
opaque ecdsaVerify : (key digest sig : List Byte) → Bool

/-- The one-time-programmable hash of a key slot, as 48 bytes; none in a blank slot (10_modes_startup.md R280; 18_package_electrical.md
R482; log 11). -/
opaque otpKeyHash : Nat → Option (List Byte)

/-- Whether a key slot is revoked (10_modes_startup.md R280; log 11). -/
opaque otpRevoked : Nat → Bool

end Sys2Proof.Config
end

