-- ==== Sys2Proof/Machine/RegMap.lean ====
section
/-! DEFINITION. The register map: where each block lies (17_register_map.md R447), and for every word of a block the
access code of each of its bits (00_scope.md R4), who may write it and when, and its reset value. -/

namespace Sys2Proof.Machine

/-- When a write of a word is allowed at all. -/
inductive WGate where
  | any        -- in every mode
  | configure  -- in CONFIGURE only (02_power_entry.md R33 and its like)
  | keep       -- in CONFIGURE, until KEEP_CFG is locked (02_power_entry.md R59)
  | factory    -- the registers exist in FACTORY only (09_faults.md R269)
  | own        -- by the core itself, or in CONFIGURE (15_mograthes_cores.md R423)
  | coreCtl    -- in CONFIGURE and FACTORY (15_mograthes_cores.md R423)
  deriving DecidableEq, Repr

/-- The words of a block from offset `lo` to `hi`: the bits of each access code, the reset value and the write gate. -/
structure RegRow where
  lo : Nat
  hi : Nat
  rw : Word
  w1c : Word
  w1s : Word
  rc : Word
  wo : Word
  reset : Word
  gate : WGate
  deriving DecidableEq, Repr

/-- Words of block DEV (17_register_map.md R454). -/
def rowsDEV : List RegRow := [
  ⟨0x000, 0x000, 0x00000000, 0x00000000, 0x00000000, 0x00000000, 0x00000000, 0x48124B10, .any⟩,  -- DEV_ID
  ⟨0x004, 0x004, 0x00000000, 0x00000000, 0x00000000, 0x00000000, 0x00000000, 0x00111111, .any⟩,  -- DEV_DIE
  ⟨0x008, 0x008, 0x00000000, 0x00000000, 0x00000000, 0x00000000, 0x00000000, 0x00000001, .any⟩,  -- DEV_SERIAL_LO
  ⟨0x00C, 0x00C, 0x00000000, 0x00000000, 0x00000000, 0x00000000, 0x00000000, 0x00000000, .any⟩,  -- DEV_SERIAL_HI
  ⟨0x010, 0x010, 0x00000001, 0x00000000, 0x00000000, 0x00000000, 0x00000000, 0x00000000, .configure⟩,  -- DEV_CFG
  ⟨0x014, 0x014, 0x00000000, 0x00000000, 0x00000000, 0x00000000, 0x00000000, 0x80000000, .any⟩,  -- DEV_STATUS
  ⟨0x018, 0x018, 0x00000000, 0x00000000, 0x00000000, 0x00000000, 0x00000000, 0x00000000, .any⟩,  -- DEV_IRQ_SUM
  ⟨0x01C, 0x01C, 0x000000FF, 0x00000000, 0x00000000, 0x00000000, 0x00000000, 0x00000000, .any⟩,  -- DEV_IRQ_EN
  ⟨0x020, 0x020, 0x00000000, 0xC0000000, 0x00000000, 0x00000000, 0x00000000, 0x00000000, .any⟩,  -- DEV_WIGN
  ⟨0x024, 0x024, 0x00000000, 0x00000000, 0x00000000, 0x00000000, 0x00000000, 0x00000000, .any⟩,  -- DEV_WIGN_AGENT
  ⟨0x400, 0x500, 0x00000000, 0xFFFFFFFF, 0x00000000, 0x00000000, 0x00000000, 0x00000000, .any⟩  -- WIN_PEND
  ]

/-- Words of block OWN (01_architecture.md R21). -/
def rowsOWN : List RegRow := [
  ⟨0x000, 0x000, 0x00000000, 0x00000000, 0x00000000, 0x00000000, 0x00000000, 0x00000000, .any⟩  -- OWN
  ]

/-- Words of block MODE (10_modes_startup.md R273). -/
def rowsMODE : List RegRow := [
  ⟨0x000, 0x000, 0x00000000, 0x00000000, 0x00000000, 0x00000000, 0x00000000, 0x00000001, .any⟩,  -- MODE_STATUS
  ⟨0x004, 0x004, 0x00000000, 0x00000000, 0x00000000, 0x00000000, 0x0000000F, 0x00000000, .any⟩,  -- MODE_REQ
  ⟨0x008, 0x008, 0x00000000, 0x00000000, 0x00000000, 0x00000000, 0x00000000, 0x00000000, .any⟩,  -- MODE_REQ_STAT
  ⟨0x00C, 0x00C, 0xE03F3F00, 0x00000000, 0x00000000, 0x00000000, 0x00000000, 0x20000000, .configure⟩,  -- MODE_CFG
  ⟨0x010, 0x010, 0x000000FF, 0x00000000, 0x00000000, 0x00000000, 0x00000000, 0x000000FF, .configure⟩,  -- MODE_OWN
  ⟨0x014, 0x014, 0xFFFFFFFF, 0x00000000, 0x00000000, 0x00000000, 0x00000000, 0x00001F40, .configure⟩,  -- SAFE_DELAY
  ⟨0x018, 0x018, 0xFFFFFFFF, 0x00000000, 0x00000000, 0x00000000, 0x00000000, 0x00F42400, .configure⟩,  -- HU_RESTORE_T
  ⟨0x020, 0x03C, 0x77777777, 0x00000000, 0x00000000, 0x00000000, 0x00000000, 0x00000000, .configure⟩,  -- HU_PRIO
  ⟨0x040, 0x058, 0xFFFFFFFF, 0x00000000, 0x00000000, 0x00000000, 0x00000000, 0x00000000, .configure⟩,  -- HU_STAGE
  ⟨0x060, 0x060, 0x00000000, 0x0000007F, 0x00000000, 0x00000000, 0x00000000, 0x00000000, .any⟩,  -- MODE_EVT
  ⟨0x064, 0x064, 0x00000000, 0x00000000, 0x00000000, 0x00000000, 0x00000000, 0x00000000, .any⟩,  -- BOOT_STATUS
  ⟨0x068, 0x068, 0x00000000, 0x00000000, 0x00000000, 0x00000000, 0x00000001, 0x00000000, .any⟩,  -- BOOT_CTL
  ⟨0x06C, 0x06C, 0x00000000, 0x00000000, 0x00000000, 0x00000000, 0xFFFFFFFF, 0x00000000, .any⟩,  -- MODE_UNLOCK
  ⟨0x070, 0x070, 0x00000000, 0x00000000, 0x00000000, 0x00000000, 0xFFFFFFFF, 0x00000000, .any⟩,  -- MODE_RESET
  ⟨0x074, 0x074, 0x00000000, 0x00000000, 0x00000000, 0x00000000, 0x00000000, 0x00000000, .any⟩,  -- BOOT_REC
  ⟨0x078, 0x07C, 0x00000000, 0x00000000, 0x00000000, 0x00000000, 0x00000000, 0x00000000, .any⟩,  -- HU_SHED
  ⟨0x080, 0x080, 0x00000000, 0x00000000, 0x00000000, 0x00000000, 0x00000000, 0x00000000, .any⟩  -- BOOT_REC_IDX
  ]

/-- Words of block CLK (11_clocks_time.md R308). -/
def rowsCLK : List RegRow := [
  ⟨0x000, 0x000, 0x00000000, 0x00000000, 0x00000000, 0x00000000, 0x00000000, 0x00000000, .any⟩,  -- CLK_STATUS
  ⟨0x004, 0x004, 0x0FF0FFFF, 0x00000000, 0x00000000, 0x00000000, 0x00000000, 0x00001F40, .configure⟩,  -- CLK_CFG
  ⟨0x008, 0x008, 0x00000000, 0x00000000, 0x00000000, 0x00000000, 0x00000000, 0x00000000, .any⟩,  -- THYME_LO
  ⟨0x00C, 0x00C, 0x00000000, 0x00000000, 0x00000000, 0x00000000, 0x00000000, 0x00000000, .any⟩,  -- THYME_HI
  ⟨0x010, 0x010, 0x00000000, 0x00000000, 0x00000000, 0x00000000, 0x00000000, 0x00000000, .any⟩,  -- EPOCH_TICK_LO
  ⟨0x014, 0x014, 0x00000000, 0x00000000, 0x00000000, 0x00000000, 0x00000000, 0x00000000, .any⟩,  -- EPOCH_TICK_HI
  ⟨0x018, 0x018, 0x00000000, 0x00000000, 0x00000000, 0x00000000, 0x00000000, 0x00000000, .any⟩,  -- EPOCH_S_LO
  ⟨0x01C, 0x01C, 0x00000000, 0x00000000, 0x00000000, 0x00000000, 0x00000000, 0x00000000, .any⟩,  -- EPOCH_S_HI
  ⟨0x020, 0x020, 0x00000000, 0x00000000, 0x00000000, 0x00000000, 0x00000000, 0x00000000, .any⟩,  -- EPOCH_NS
  ⟨0x024, 0x024, 0x00000000, 0x00000000, 0x00000000, 0xFFFF0000, 0x00000000, 0x00000000, .any⟩,  -- PPS_STATUS
  ⟨0x028, 0x028, 0x00000000, 0x00000000, 0x00000000, 0x00000000, 0x00000000, 0x00000000, .any⟩,  -- PPS_DRIFT
  ⟨0x02C, 0x02C, 0x00000000, 0x0000000F, 0x00000000, 0x00000000, 0x00000000, 0x00000000, .any⟩,  -- CLK_EVT
  ⟨0x080, 0x080, 0xFFFFFFFF, 0x00000000, 0x00000000, 0x00000000, 0x00000000, 0x00001F40, .configure⟩,  -- REG_CFG
  ⟨0x084, 0x08C, 0x00000000, 0x00000000, 0x00000000, 0x00000000, 0x00000000, 0x00000000, .any⟩  -- REG_LINK
  ]

/-- Words of block HOST (12_host_rings.md R314). -/
def rowsHOST : List RegRow := [
  ⟨0x000, 0x000, 0xFFFF0000, 0x00000000, 0x00000000, 0x00000000, 0x00000000, 0x00000000, .any⟩,  -- SB_BASE_LO
  ⟨0x004, 0x004, 0x0000FFFF, 0x00000000, 0x00000000, 0x00000000, 0x00000000, 0x00000000, .any⟩,  -- SB_BASE_HI
  ⟨0x008, 0x008, 0x800007FF, 0x00000000, 0x00000000, 0x00000000, 0x00000000, 0x00000000, .any⟩,  -- HOST_CTL
  ⟨0x00C, 0x00C, 0xFFFFFFFF, 0x00000000, 0x00000000, 0x00000000, 0x00000000, 0x00013880, .any⟩,  -- HB_PERIOD
  ⟨0x010, 0x010, 0xFFFFFFFF, 0x00000000, 0x00000000, 0x00000000, 0x00000000, 0x000C3500, .any⟩,  -- STALL_T
  ⟨0x014, 0x014, 0x0000FFFF, 0x00000000, 0x00000000, 0x00000000, 0x00000000, 0x000003E8, .any⟩,  -- HOST_BW
  ⟨0x018, 0x018, 0x00000000, 0x00000000, 0x00000000, 0x00000000, 0x00000000, 0x00000000, .any⟩,  -- HOST_USED
  ⟨0x020, 0x020, 0xFFFFF000, 0x00000000, 0x00000000, 0x00000000, 0x00000000, 0x00000000, .configure⟩,  -- ARCH_PT_LO
  ⟨0x024, 0x024, 0x0000FFFF, 0x00000000, 0x00000000, 0x00000000, 0x00000000, 0x00000000, .configure⟩,  -- ARCH_PT_HI
  ⟨0x028, 0x028, 0x03FFFFFF, 0x00000000, 0x00000000, 0x00000000, 0x00000000, 0x00000000, .configure⟩,  -- ARCH_PAGES
  ⟨0x02C, 0x02C, 0x000000FF, 0x00000000, 0x00000000, 0x00000000, 0x00000000, 0x00000000, .any⟩,  -- ARCH_CFG
  ⟨0x030, 0x030, 0x00000000, 0x00000000, 0x00000000, 0x00000000, 0x00000000, 0x00000000, .any⟩,  -- ARCH_FREE
  ⟨0x034, 0x034, 0x00000000, 0x0000000F, 0x00000000, 0x00000000, 0x00000000, 0x00000000, .any⟩  -- HOST_EVT
  ]

/-- Words of block MEM (16_memory_protection.md R443). -/
def rowsMEM : List RegRow := [
  ⟨0x000, 0x000, 0x80000000, 0x00000000, 0x00000000, 0x00000000, 0x00000000, 0x80000000, .configure⟩,  -- MEM_CFG
  ⟨0x004, 0x004, 0xFFFFFFFF, 0x00000000, 0x00000000, 0x00000000, 0x00000000, 0x0061A800, .configure⟩,  -- MEM_SCRUB
  ⟨0x008, 0x008, 0x00000000, 0x00000000, 0x00000000, 0x00000000, 0x00000000, 0x00000000, .any⟩,  -- MEM_STATUS
  ⟨0x00C, 0x00C, 0x00000000, 0x00000000, 0x00000000, 0x00000000, 0x00000000, 0x00000000, .any⟩,  -- MEM_PASS
  ⟨0x010, 0x020, 0x00000000, 0x00000000, 0x00000000, 0x00000000, 0x00000000, 0x00000000, .any⟩,  -- MEM_OFFLINE
  ⟨0x024, 0x024, 0x00000000, 0x00000000, 0x00000000, 0x00000000, 0x00000FFF, 0x00000000, .any⟩,  -- MEM_TAKE
  ⟨0x028, 0x028, 0xFFF0FFFF, 0x00000000, 0x00000000, 0x00000000, 0x00000000, 0x00000000, .any⟩,  -- MEM_RAW_ADDR
  ⟨0x02C, 0x02C, 0xFFFFFFFF, 0x00000000, 0x00000000, 0x00000000, 0x00000000, 0x00000000, .any⟩,  -- MEM_RAW_DLO
  ⟨0x030, 0x030, 0xFFFFFFFF, 0x00000000, 0x00000000, 0x00000000, 0x00000000, 0x00000000, .any⟩,  -- MEM_RAW_DHI
  ⟨0x034, 0x034, 0x0000FFFF, 0x00000000, 0x00000000, 0x00000000, 0x00000000, 0x00000000, .any⟩,  -- MEM_RAW_CHK
  ⟨0x038, 0x038, 0x00000000, 0x00000000, 0x00000000, 0x00000000, 0x00000003, 0x00000000, .any⟩,  -- MEM_RAW_CTL
  ⟨0x03C, 0x03C, 0x00000000, 0x00000000, 0x00000000, 0x00000000, 0x00000000, 0x00000000, .any⟩,  -- MEM_RAW_STAT
  ⟨0x040, 0x040, 0x00000000, 0x0000000F, 0x00000000, 0x00000000, 0x00000000, 0x00000000, .any⟩  -- MEM_EVT
  ]

/-- Words of block SL (13_stream_link.md R373). -/
def rowsSL : List RegRow := [
  ⟨0x000, 0x000, 0x80FFFF00, 0x00000000, 0x00000000, 0x00000000, 0x00000000, 0x00FFFF00, .configure⟩,  -- SL_CFG
  ⟨0x004, 0x004, 0xFFFFFFFF, 0x00000000, 0x00000000, 0x00000000, 0x00000000, 0x000C3500, .configure⟩,  -- SL_TRAIN
  ⟨0x008, 0x008, 0xFFFFFFFF, 0x00000000, 0x00000000, 0x00000000, 0x00000000, 0x00009C40, .configure⟩,  -- SL_FLUSH
  ⟨0x00C, 0x00C, 0xFFFFFFFF, 0x00000000, 0x00000000, 0x00000000, 0x00000000, 0x00013880, .configure⟩,  -- SL_DEC
  ⟨0x010, 0x010, 0x00000000, 0x00000000, 0x00000000, 0x00000000, 0x00000000, 0x00000000, .any⟩,  -- SL_STATUS
  ⟨0x014, 0x014, 0x00000000, 0x00000000, 0x00000000, 0x00000000, 0x00000000, 0x00000000, .any⟩,  -- SL_FENCED
  ⟨0x018, 0x018, 0x00000000, 0x00000000, 0x00000000, 0xFFFFFFFF, 0x00000000, 0x00000000, .any⟩,  -- SL_CNT
  ⟨0x01C, 0x01C, 0x00000000, 0x0000003F, 0x00000000, 0x00000000, 0x00000000, 0x00000000, .any⟩,  -- SL_EVT
  ⟨0x040, 0x05C, 0x00FFFFFF, 0x00000000, 0x00000000, 0x00000000, 0x00000000, 0x00004000, .configure⟩,  -- SL_TXFFE
  ⟨0x060, 0x07C, 0x00000000, 0x00000000, 0x00000000, 0xFFFFFFFF, 0x00000000, 0x00000000, .any⟩  -- SL_RXFEC
  ]

/-- Words of block SLVC (13_stream_link.md R373). -/
def rowsSLVC : List RegRow := [
  ⟨0x000, 0x000, 0x00FFFFFF, 0x00000000, 0x00000000, 0x00000000, 0x00000000, 0x0008C401, .configure⟩,  -- VC_CFG
  ⟨0x004, 0x004, 0x00000000, 0x00000000, 0x00000000, 0x00000000, 0x00000000, 0x00000000, .any⟩,  -- VC_FILL
  ⟨0x008, 0x008, 0x00000000, 0x00000000, 0x00000000, 0x00000000, 0x00000000, 0x00000000, .any⟩,  -- VC_CREDIT
  ⟨0x00C, 0x00C, 0x00000000, 0x00000000, 0x00000000, 0xFFFF0000, 0x00000000, 0x00000000, .any⟩  -- VC_CNT
  ]

/-- Words of block TMR (11_clocks_time.md R307). -/
def rowsTMR : List RegRow := [
  ⟨0x000, 0x000, 0xC0000003, 0x00000000, 0x00000000, 0x00000000, 0x00000000, 0x00000000, .any⟩,  -- TMR_CFG
  ⟨0x004, 0x004, 0xFFFFFFFF, 0x00000000, 0x00000000, 0x00000000, 0x00000000, 0x00000000, .any⟩,  -- TMR_CMP_LO
  ⟨0x008, 0x008, 0xFFFFFFFF, 0x00000000, 0x00000000, 0x00000000, 0x00000000, 0x00000000, .any⟩,  -- TMR_CMP_HI
  ⟨0x00C, 0x00C, 0xFFFFFFFF, 0x00000000, 0x00000000, 0x00000000, 0x00000000, 0x00000010, .any⟩,  -- TMR_PERIOD
  ⟨0x010, 0x010, 0x00000000, 0x00000000, 0x00000000, 0x00000000, 0x00000000, 0x00000000, .any⟩,  -- TMR_CAPT_LO
  ⟨0x014, 0x014, 0x00000000, 0x00000000, 0x00000000, 0x00000000, 0x00000000, 0x00000000, .any⟩,  -- TMR_CAPT_HI
  ⟨0x018, 0x018, 0x00000000, 0x00000003, 0x00000000, 0xFFFF0000, 0x00000000, 0x00000000, .any⟩  -- TMR_STATUS
  ]

/-- Words of block RQ (07_conversion.md R216). -/
def rowsRQ : List RegRow := [
  ⟨0x000, 0x000, 0x00000000, 0x00000000, 0x00000000, 0xFFFF0000, 0x00000000, 0x00000000, .any⟩,  -- RQ_STATUS
  ⟨0x004, 0x004, 0x00000000, 0x00000000, 0x00000000, 0xFFFFFFFF, 0x00000000, 0x0FFF0000, .any⟩,  -- RQ_POP_LO
  ⟨0x008, 0x008, 0x00000000, 0x00000000, 0x00000000, 0x00000000, 0x00000000, 0x00000000, .any⟩  -- RQ_POP_HI
  ]

/-- Words of block POLICY (03_branch_fuses.md R68). -/
def rowsPOLICY : List RegRow := [
  ⟨0x000, 0x000, 0xFFF0FFFF, 0x00000000, 0x00000000, 0x00000000, 0x00000000, 0x0800FE00, .configure⟩,  -- POL0
  ⟨0x004, 0x004, 0xFFFFFFFF, 0x00000000, 0x00000000, 0x00000000, 0x00000000, 0x00013880, .configure⟩,  -- POL1
  ⟨0x008, 0x008, 0xFFFFFFFF, 0x00000000, 0x00000000, 0x00000000, 0x00000000, 0x00000000, .configure⟩,  -- POL2
  ⟨0x00C, 0x00C, 0xFFFFFFFF, 0x00000000, 0x00000000, 0x00000000, 0x00000000, 0x007A1200, .configure⟩,  -- POL3
  ⟨0x010, 0x010, 0xFFFF0001, 0x00000000, 0x00000000, 0x00000000, 0x00000000, 0x07080001, .configure⟩,  -- POL4
  ⟨0x014, 0x014, 0xFFFFFFFF, 0x00000000, 0x00000000, 0x00000000, 0x00000000, 0x02FAF080, .configure⟩  -- POL5
  ]

/-- Words of block RETRY (03_branch_fuses.md R72). -/
def rowsRETRY : List RegRow := [
  ⟨0x000, 0x000, 0x00000000, 0x00000000, 0x00000000, 0x00000000, 0x00000000, 0x00000000, .any⟩  -- RETRY_STAT
  ]

/-- Words of block FAULT (09_faults.md R265; 09_faults.md R269). -/
def rowsFAULT : List RegRow := [
  ⟨0x000, 0x000, 0xFFF00000, 0x00000000, 0x00000000, 0x00000000, 0x00000000, 0x30000000, .configure⟩,  -- FLT_CFG
  ⟨0x004, 0x004, 0xFFFFFFFF, 0x00000000, 0x00000000, 0x00000000, 0x00000000, 0x000C3500, .configure⟩,  -- FLT_MERGE
  ⟨0x008, 0x008, 0x00000000, 0x20000000, 0x00000000, 0x00000000, 0x00000000, 0x00070000, .any⟩,  -- FLT_STATUS
  ⟨0x00C, 0x00C, 0x00000000, 0x00000000, 0x00000000, 0xFFFFFFFF, 0x00000000, 0x00000000, .any⟩,  -- FLT_LOST
  ⟨0x010, 0x010, 0x00000000, 0x00000000, 0x00000000, 0x00000000, 0x00000000, 0x00000000, .any⟩,  -- FLT_DEGR
  ⟨0x014, 0x014, 0x00000000, 0x00000000, 0x00000000, 0x00000000, 0x00000001, 0x00000000, .any⟩,  -- FLT_SAFE_CTL
  ⟨0x020, 0x03C, 0x00000000, 0x00000000, 0x00000000, 0x00000000, 0x00000000, 0x00000000, .any⟩,  -- FLT_SAFE
  ⟨0x100, 0x1FC, 0x87878787, 0x00000000, 0x00000000, 0x00000000, 0x00000000, 0x00000000, .configure⟩,  -- FLT_LEVEL
  ⟨0x200, 0x200, 0x370FFFFF, 0x00000000, 0x00000000, 0x00000000, 0x80000000, 0x00000000, .factory⟩,  -- FLT_INJ_CTL
  ⟨0x204, 0x204, 0xFFFFFFFF, 0x00000000, 0x00000000, 0x00000000, 0x00000000, 0x00000000, .factory⟩,  -- FLT_INJ_DELAY
  ⟨0x208, 0x208, 0x000000FF, 0x00000000, 0x00000000, 0x00000000, 0x00000000, 0x00000000, .factory⟩,  -- FLT_INJ_AGENT
  ⟨0x20C, 0x20C, 0xFFFFFFFF, 0x00000000, 0x00000000, 0x00000000, 0x00000000, 0x00000000, .factory⟩,  -- FLT_INJ_ADDR_LO
  ⟨0x210, 0x210, 0x0000FFFF, 0x00000000, 0x00000000, 0x00000000, 0x00000000, 0x00000000, .factory⟩,  -- FLT_INJ_ADDR_HI
  ⟨0x214, 0x214, 0x00000000, 0x00000000, 0x00000000, 0x00000000, 0x00000000, 0x00000000, .factory⟩,  -- FLT_INJ_STAT
  ⟨0x2000, 0x3FFC, 0x00000000, 0x00000000, 0x00000000, 0x00000000, 0x00000000, 0x00000000, .any⟩  -- the fault slots
  ]

/-- Words of block RING (12_host_rings.md R315). -/
def rowsRING : List RegRow := [
  ⟨0x000, 0x000, 0xFFFFFFC0, 0x00000000, 0x00000000, 0x00000000, 0x00000000, 0x00000000, .any⟩,  -- RG_BASE_LO
  ⟨0x004, 0x004, 0x0000FFFF, 0x00000000, 0x00000000, 0x00000000, 0x00000000, 0x00000000, .any⟩,  -- RG_BASE_HI
  ⟨0x008, 0x008, 0x8F3F07FF, 0x00000000, 0x00000000, 0x00000000, 0x00000000, 0x00000000, .any⟩,  -- RG_CFG
  ⟨0x00C, 0x00C, 0xFFFF00FF, 0x00000000, 0x00000000, 0x00000000, 0x00000000, 0x00000001, .any⟩,  -- RG_ITR
  ⟨0x010, 0x010, 0x00000000, 0x00000000, 0x00000000, 0x00000000, 0x00000000, 0x00000000, .any⟩,  -- RG_PI
  ⟨0x014, 0x014, 0x00000000, 0x00000000, 0x00000000, 0x00000000, 0x00000000, 0x00000000, .any⟩,  -- RG_CI
  ⟨0x018, 0x018, 0x00000000, 0x00000000, 0x00000000, 0xFFFF0000, 0x00000000, 0x00000000, .any⟩  -- RG_STATUS
  ]

/-- Words of block IP (06_load_intent.md R157). -/
def rowsIP : List RegRow := [
  ⟨0x000, 0x000, 0xE0FFFF00, 0x00000000, 0x00000000, 0x00000000, 0x00000000, 0x20208000, .configure⟩,  -- IP_CFG
  ⟨0x004, 0x004, 0xFFFFFFFF, 0x00000000, 0x00000000, 0x00000000, 0x00000000, 0x00000000, .configure⟩,  -- IP_BIND
  ⟨0x008, 0x008, 0x0000FFFF, 0x00000000, 0x00000000, 0x00000000, 0x00000000, 0x00000000, .configure⟩,  -- IP_STEPMAX
  ⟨0x00C, 0x00C, 0x00000000, 0x00000000, 0x00000000, 0x00000000, 0x00000000, 0x00000000, .any⟩,  -- IP_STATUS
  ⟨0x010, 0x010, 0x00000000, 0x00000000, 0x00000000, 0xFFFFFFFF, 0x00000000, 0x00000000, .any⟩,  -- IP_CNT
  ⟨0x014, 0x014, 0x00000000, 0x00000000, 0x00000000, 0x00000000, 0x00000000, 0x00000000, .any⟩,  -- IP_HELLO
  ⟨0x018, 0x018, 0x00000000, 0x0000003F, 0x00000000, 0x00000000, 0x00000000, 0x00000000, .any⟩,  -- IP_EVT
  ⟨0x01C, 0x01C, 0x00000000, 0x00000000, 0x00000000, 0x00000000, 0x00000001, 0x00000000, .any⟩  -- IP_CTL
  ]

/-- Words of block TW (14_two_wire.md R376). -/
def rowsTW : List RegRow := [
  ⟨0x000, 0x000, 0x7FF71F03, 0x00000000, 0x00000000, 0x00000000, 0x00000000, 0x00320500, .configure⟩,  -- TW_CFG
  ⟨0x004, 0x004, 0x8000007F, 0x00000000, 0x00000000, 0x00000000, 0x00000000, 0x80000058, .configure⟩,  -- TW_PMB
  ⟨0x008, 0x008, 0xFFFFFFFF, 0x00000000, 0x00000000, 0x00000000, 0x00000000, 0x016E3600, .configure⟩,  -- TW_STRETCH
  ⟨0x00C, 0x018, 0xC0FFFF00, 0x00000000, 0x00000000, 0x00000000, 0x00000000, 0x00000000, .configure⟩,  -- TW_WIN
  ⟨0x01C, 0x01C, 0x00000007, 0x00000000, 0x00000000, 0x00000000, 0x00000000, 0x00000007, .configure⟩,  -- TW_PRIV
  ⟨0x020, 0x020, 0x00000000, 0x00000000, 0x00000000, 0x00000000, 0x00000000, 0x00000000, .any⟩,  -- TW_STATUS
  ⟨0x024, 0x024, 0x00000000, 0x00000000, 0x00000000, 0xFFFFFFFF, 0x00000000, 0x00000000, .any⟩,  -- TW_CNT
  ⟨0x028, 0x028, 0x00000000, 0x000000FF, 0x00000000, 0x00000000, 0x00000000, 0x00000000, .any⟩,  -- TW_EVT
  ⟨0x02C, 0x02C, 0x00000000, 0x00000000, 0x00000000, 0x0000FF00, 0x00000000, 0x00000000, .any⟩,  -- TW_ATTN
  ⟨0x030, 0x030, 0x00000F00, 0x00000000, 0x00000001, 0x00000000, 0x00000000, 0x00000400, .any⟩,  -- TW_ALERT
  ⟨0x034, 0x034, 0x007F3F7F, 0x00000000, 0x00000000, 0x00000000, 0x80000000, 0x00000000, .any⟩,  -- TW_XCTL
  ⟨0x038, 0x038, 0x00000000, 0x00000000, 0x00000000, 0x00000000, 0x00000000, 0x00000000, .any⟩,  -- TW_XSTAT
  ⟨0x040, 0x05C, 0xFFFFFFFF, 0x00000000, 0x00000000, 0x00000000, 0x00000000, 0x00000000, .any⟩,  -- TW_WDATA
  ⟨0x060, 0x07C, 0x00000000, 0x00000000, 0x00000000, 0x00000000, 0x00000000, 0x00000000, .any⟩,  -- TW_RDATA
  ⟨0x080, 0x09C, 0x00000000, 0x00000000, 0x00000000, 0x00000000, 0x00000000, 0x13881388, .any⟩  -- TW_PMB_RSH
  ]

/-- Words of block CORE (15_mograthes_cores.md R423). -/
def rowsCORE : List RegRow := [
  ⟨0x000, 0x000, 0xF001FFFF, 0x00000000, 0x00000000, 0x00000000, 0x00000000, 0x20000000, .configure⟩,  -- CORE_CFG
  ⟨0x004, 0x004, 0xFFFFFFFF, 0x00000000, 0x00000000, 0x00000000, 0x00000000, 0x00009C40, .configure⟩,  -- CORE_WDT
  ⟨0x008, 0x008, 0x00000000, 0x00000000, 0x00000000, 0x00000000, 0x00000003, 0x00000000, .coreCtl⟩,  -- CORE_CTL
  ⟨0x00C, 0x00C, 0x00000000, 0x00000000, 0x00000000, 0x00000000, 0x00000000, 0x00000000, .any⟩,  -- CORE_STATUS
  ⟨0x010, 0x010, 0x0001FFFF, 0x00000000, 0x00000000, 0x00000000, 0x00000000, 0x00000000, .own⟩,  -- CORE_EXC_VEC
  ⟨0x014, 0x014, 0x0001FFFF, 0x00000000, 0x00000000, 0x00000000, 0x00000000, 0x00000000, .own⟩,  -- CORE_EXC_PC
  ⟨0x018, 0x018, 0x00000000, 0x00000000, 0x00000000, 0x0000FF00, 0x00000000, 0x00000000, .any⟩,  -- CORE_EXC_INFO
  ⟨0x01C, 0x01C, 0x00000000, 0x00000000, 0x00000000, 0x00000000, 0x00000000, 0x00000000, .any⟩,  -- CORE_EXC_ADDR
  ⟨0x020, 0x020, 0xFFFFFFFF, 0x00000000, 0x00000000, 0x00000000, 0x00000000, 0x00020000, .own⟩,  -- CORE_SP_LIMIT
  ⟨0x024, 0x024, 0x00000000, 0x00000000, 0x00000000, 0x00000000, 0xFFFFFFFF, 0x00000000, .any⟩,  -- CORE_KICK
  ⟨0x028, 0x028, 0x00000000, 0x00000000, 0x00000001, 0x00000000, 0x00000000, 0x00000000, .any⟩,  -- CORE_SIGNAL
  ⟨0x02C, 0x02C, 0x00000000, 0x00000000, 0x00000000, 0x00000000, 0x00000000, 0x00000000, .any⟩,  -- CORE_PEND
  ⟨0x030, 0x030, 0xFFFF8000, 0x00000000, 0x00000000, 0x00000000, 0x00000000, 0x00000000, .configure⟩,  -- CORE_HWIN
  ⟨0x034, 0x034, 0x00000000, 0x00000000, 0x00000000, 0x00000000, 0x00000000, 0x00000000, .any⟩,  -- CORE_CYCLES
  ⟨0x038, 0x038, 0x00000000, 0x00000007, 0x00000000, 0x00000000, 0x00000000, 0x00000000, .any⟩  -- CORE_EVT
  ]

/-- Words of block RAIL (04_rail_loom.md R85; 05_phase_management.md R123; 06_load_intent.md R160). -/
def rowsRAIL : List RegRow := [
  ⟨0x000, 0x000, 0xF0000000, 0x00000000, 0x00000000, 0x00000000, 0x00000000, 0x00000000, .any⟩,  -- RAIL_CFG
  ⟨0x004, 0x004, 0x0000FFFF, 0x00000000, 0x00000000, 0x00000000, 0x00000000, 0x00000FA0, .configure⟩,  -- RAIL_PERIOD
  ⟨0x008, 0x008, 0x00FF00FF, 0x00000000, 0x00000000, 0x00000000, 0x00000000, 0x00200020, .configure⟩,  -- RAIL_PULSE
  ⟨0x00C, 0x00C, 0xFFFFFFFF, 0x00000000, 0x00000000, 0x00000000, 0x00000000, 0x40000000, .configure⟩,  -- RAIL_DCLAMP
  ⟨0x010, 0x01C, 0xFFFFFFFF, 0x00000000, 0x00000000, 0x00000000, 0x00000000, 0x00000000, .configure⟩,  -- WARP_HOME
  ⟨0x020, 0x02C, 0xFFFFFFFF, 0x00000000, 0x00000000, 0x00000000, 0x00000000, 0x00000000, .configure⟩,  -- WARP_NEIGH
  ⟨0x030, 0x030, 0x00000003, 0x00000000, 0x00000000, 0x00000000, 0x00000000, 0x00000000, .configure⟩,  -- RAIL_WARPSEL
  ⟨0x034, 0x034, 0x00000FFF, 0x00000000, 0x00000000, 0x00000000, 0x00000000, 0x00000000, .configure⟩,  -- RAIL_TARGET
  ⟨0x038, 0x038, 0x00FF00FF, 0x00000000, 0x00000000, 0x00000000, 0x00000000, 0x00040028, .configure⟩,  -- RAIL_SLEW
  ⟨0x03C, 0x03C, 0x0FFF0FFF, 0x00000000, 0x00000000, 0x00000000, 0x00000000, 0x00000000, .configure⟩,  -- RAIL_BAND
  ⟨0x040, 0x040, 0x00000FFF, 0x00000000, 0x00000000, 0x00000000, 0x00000000, 0x00000000, .configure⟩,  -- RAIL_LL
  ⟨0x044, 0x044, 0xFFFFFF01, 0x00000000, 0x00000000, 0x00000000, 0x00000000, 0x053C3C00, .configure⟩,  -- RAIL_CATCH
  ⟨0x048, 0x048, 0x0000FFFF, 0x00000000, 0x00000000, 0x00000000, 0x00000000, 0x00000320, .configure⟩,  -- RAIL_CATCH_MAX
  ⟨0x04C, 0x04C, 0x0FFF00FF, 0x00000000, 0x00000000, 0x00000000, 0x00000000, 0x0FFF0064, .configure⟩,  -- RAIL_PROT
  ⟨0x050, 0x050, 0xFFFFFFFF, 0x00000000, 0x00000000, 0x00000000, 0x00000000, 0x00000C80, .configure⟩,  -- RAIL_UV_TIME
  ⟨0x054, 0x054, 0xFFFF00FF, 0x00000000, 0x00000000, 0x00000000, 0x00000000, 0x00500032, .configure⟩,  -- RAIL_PG
  ⟨0x058, 0x058, 0xFFFFFFFF, 0x00000000, 0x00000000, 0x00000000, 0x00000000, 0x00013880, .configure⟩,  -- RAIL_PG_DELAY
  ⟨0x05C, 0x05C, 0xFFFFFFFF, 0x00000000, 0x00000000, 0x00000000, 0x00000000, 0x00F42400, .configure⟩,  -- RAIL_SS_TMAX
  ⟨0x060, 0x060, 0xFFFFFFFF, 0x00000000, 0x00000000, 0x00000000, 0x00000000, 0x00000000, .configure⟩,  -- COEF_B0
  ⟨0x064, 0x064, 0xFFFFFFFF, 0x00000000, 0x00000000, 0x00000000, 0x00000000, 0x00000000, .configure⟩,  -- COEF_B1
  ⟨0x068, 0x068, 0xFFFFFFFF, 0x00000000, 0x00000000, 0x00000000, 0x00000000, 0x00000000, .configure⟩,  -- COEF_B2
  ⟨0x06C, 0x06C, 0xFFFFFFFF, 0x00000000, 0x00000000, 0x00000000, 0x00000000, 0x00000000, .configure⟩,  -- COEF_POLE
  ⟨0x070, 0x070, 0xFFFFFFFF, 0x00000000, 0x00000000, 0x00000000, 0x00000000, 0x00000000, .configure⟩,  -- COEF_KDI
  ⟨0x080, 0x090, 0x00000000, 0x00000000, 0x00000000, 0x00000000, 0x00000000, 0x00000000, .any⟩,  -- SH
  ⟨0x094, 0x094, 0x00000000, 0x00000000, 0x00000000, 0x00000000, 0x00000000, 0x00000000, .any⟩,  -- COEF_CTL
  ⟨0x100, 0x100, 0x00000000, 0x00000000, 0x00000000, 0x00000000, 0x00000000, 0x00000000, .any⟩,  -- RAIL_STATUS
  ⟨0x104, 0x104, 0x00000000, 0x00000000, 0x00000000, 0x00000000, 0x00000000, 0x00000000, .any⟩,  -- RAIL_VREF
  ⟨0x108, 0x108, 0x00000000, 0x00000000, 0x00000000, 0x00000000, 0x00000000, 0x00000000, .any⟩,  -- RAIL_VMEAS
  ⟨0x10C, 0x10C, 0x00000000, 0x00000000, 0x00000000, 0x00000000, 0x00000000, 0x00000000, .any⟩,  -- RAIL_IMEAS
  ⟨0x110, 0x110, 0x00000000, 0x00000000, 0x00000000, 0x00000000, 0x00000000, 0x00000000, .any⟩,  -- RAIL_PMEAS
  ⟨0x114, 0x114, 0x00000000, 0x00000000, 0x00000000, 0x00000000, 0x00000000, 0x00000000, .any⟩,  -- RAIL_DUTY
  ⟨0x118, 0x118, 0x00000000, 0x000001FF, 0x00000000, 0x00000000, 0x00000000, 0x00000000, .any⟩,  -- RAIL_EVT
  ⟨0x140, 0x140, 0xFFFFFFFF, 0x00000000, 0x00000000, 0x00000000, 0x00000000, 0x2814641E, .configure⟩,  -- SPEC_PB
  ⟨0x144, 0x144, 0xFFFFFFFF, 0x00000000, 0x00000000, 0x00000000, 0x00000000, 0x019000A0, .configure⟩,  -- SPEC_WIN
  ⟨0x148, 0x148, 0x0007FFFF, 0x00000000, 0x00000000, 0x00000000, 0x00000000, 0x00014080, .configure⟩,  -- SPEC_CONF
  ⟨0x14C, 0x14C, 0xFFFFFFFF, 0x00000000, 0x00000000, 0x00000000, 0x00000000, 0x01900640, .configure⟩,  -- SPEC_LEAD
  ⟨0x150, 0x150, 0xFFFFFFFF, 0x00000000, 0x00000000, 0x00000000, 0x00000000, 0x00001F40, .configure⟩,  -- SPEC_SHED
  ⟨0x154, 0x154, 0xFFFFFFFF, 0x00000000, 0x00000000, 0x00000000, 0x00000000, 0x00000000, .configure⟩,  -- SPEC_FF
  ⟨0x158, 0x158, 0x00000000, 0x00000000, 0x00000000, 0x00000000, 0x00000000, 0x00000000, .any⟩,  -- PEND_STATE
  ⟨0x15C, 0x15C, 0x00000000, 0x00000000, 0x00000000, 0x00000000, 0x00000000, 0x00000000, .any⟩,  -- PEND_PB
  ⟨0x160, 0x160, 0x00000000, 0x00000000, 0x00000000, 0x00000000, 0x00000000, 0x00000000, .any⟩,  -- PEND_UINT
  ⟨0x164, 0x164, 0x00000000, 0x00000000, 0x00000000, 0x00000000, 0x00000000, 0x00000000, .any⟩,  -- PEND_WAKE
  ⟨0x168, 0x168, 0x00000000, 0x00000000, 0x00000000, 0x00000000, 0x00000000, 0x00000000, .any⟩,  -- PEND_STEP
  ⟨0x16C, 0x16C, 0x00000000, 0x00000000, 0x00000000, 0x00000000, 0x00000000, 0x00000000, .any⟩,  -- PEND_TSTEP
  ⟨0x170, 0x170, 0x00000000, 0x00000000, 0x00000000, 0x00000000, 0x00000000, 0x00000000, .any⟩,  -- SPEC_CNT
  ⟨0x174, 0x174, 0x00000000, 0x0000001F, 0x00000000, 0x00000000, 0x00000000, 0x00000000, .any⟩,  -- SPEC_EVT
  ⟨0x180, 0x18C, 0xFFFFFFFF, 0x00000000, 0x00000000, 0x00000000, 0x00000000, 0xFFFFFFFF, .configure⟩,  -- MASK_HOME
  ⟨0x190, 0x19C, 0xFFFFFFFF, 0x00000000, 0x00000000, 0x00000000, 0x00000000, 0xFFFFFFFF, .configure⟩,  -- MASK_NEIGH
  ⟨0x1A0, 0x1A0, 0xFFFFFFFF, 0x00000000, 0x00000000, 0x00000000, 0x00000000, 0x04000000, .configure⟩,  -- PH_CFG
  ⟨0x1A4, 0x1A4, 0xFFFFFFFF, 0x00000000, 0x00000000, 0x00000000, 0x00000000, 0x00000000, .configure⟩,  -- REED_GAIN
  ⟨0x1A8, 0x1A8, 0x0000FFFF, 0x00000000, 0x00000000, 0x00000000, 0x00000000, 0x00000200, .configure⟩,  -- REED_LIM
  ⟨0x1AC, 0x1AC, 0xFFFFFFFF, 0x00000000, 0x00000000, 0x00000000, 0x00000000, 0x0000C350, .configure⟩,  -- SHARE_TIME
  ⟨0x1B0, 0x1B0, 0x0000FFFF, 0x00000000, 0x00000000, 0x00000000, 0x00000000, 0x0000FFFF, .configure⟩,  -- RAIL_ILIM
  ⟨0x1B4, 0x1B4, 0xFFFFFFFF, 0x00000000, 0x00000000, 0x00000000, 0x00000000, 0x00001F40, .configure⟩,  -- ILIM_TIME
  ⟨0x1B8, 0x1B8, 0xFF00FFFF, 0x00000000, 0x00000000, 0x00000000, 0x00000000, 0x48000050, .configure⟩,  -- HED_CFG
  ⟨0x1BC, 0x1BC, 0xFFFFFFFF, 0x00000000, 0x00000000, 0x00000000, 0x00000000, 0x00009C40, .configure⟩,  -- HED_DWELL
  ⟨0x1C0, 0x1C0, 0xFFFFFFFF, 0x00000000, 0x00000000, 0x00000000, 0x00000000, 0x03200020, .configure⟩,  -- ROT_CFG
  ⟨0x1C4, 0x1C4, 0x0FFF0FFF, 0x00000000, 0x00000000, 0x00000000, 0x00000000, 0x03200258, .configure⟩,  -- TF_CFG
  ⟨0x1C8, 0x1C8, 0x0000FFFF, 0x00000000, 0x00000000, 0x00000000, 0x00000000, 0x00000898, .configure⟩,  -- TF_HOT
  ⟨0x1CC, 0x1CC, 0x000000FF, 0x00000000, 0x00000000, 0x00000000, 0x00000000, 0x000000FF, .configure⟩,  -- PH_FUSE
  ⟨0x1D0, 0x1D0, 0xFFFFFFFF, 0x00000000, 0x00000000, 0x00000000, 0x00000000, 0x7FFF7FFF, .configure⟩,  -- PH_OC
  ⟨0x1D4, 0x1D4, 0xFFFFFFFF, 0x00000000, 0x00000000, 0x00000000, 0x00000000, 0x00000640, .configure⟩,  -- PH_OC_TIME
  ⟨0x1D8, 0x1D8, 0x00000000, 0x00000000, 0x00000000, 0x00000000, 0x00000000, 0x00000000, .any⟩,  -- PH_STATUS
  ⟨0x1DC, 0x1DC, 0x00000000, 0x00000000, 0x00000000, 0x00000000, 0x00000000, 0x0000FFFF, .any⟩,  -- PH_ILIM_EFF
  ⟨0x1E0, 0x1E0, 0x00000000, 0x0000007F, 0x00000000, 0x00000000, 0x00000000, 0x00000000, .any⟩  -- RPH_EVT
  ]

/-- Words of block PHASE (05_phase_management.md R125). -/
def rowsPHASE : List RegRow := [
  ⟨0x000, 0x000, 0x0000FFFF, 0x00000000, 0x00000000, 0x00000000, 0x00000000, 0x00000000, .configure⟩,  -- PH_TRIM
  ⟨0x004, 0x004, 0xFFFFFFFF, 0x00000000, 0x00000000, 0x00000000, 0x00000000, 0x00000000, .configure⟩,  -- PH_GAIN
  ⟨0x008, 0x008, 0x00000000, 0x00000000, 0x00000000, 0x00000000, 0x00000000, 0x0000000F, .any⟩,  -- PH_STATE
  ⟨0x00C, 0x00C, 0x00000000, 0x00000000, 0x00000000, 0x00000000, 0x00000000, 0x00000000, .any⟩,  -- PH_DELTA
  ⟨0x010, 0x010, 0x00000000, 0x00000000, 0x00000000, 0x00000000, 0x00000000, 0x00000000, .any⟩,  -- PH_IAVG
  ⟨0x014, 0x014, 0x00000000, 0x00000000, 0x00000000, 0x00000000, 0x00000000, 0x00000000, .any⟩,  -- PH_HEAT
  ⟨0x018, 0x018, 0x00000000, 0x00000000, 0x00000000, 0x00000000, 0x00000000, 0x00000000, .any⟩,  -- PH_CENTRE
  ⟨0x01C, 0x01C, 0x00000000, 0x000000FF, 0x00000000, 0x00000000, 0x00000000, 0x00000000, .any⟩  -- PH_EVT
  ]

/-- Words of block CONV (07_conversion.md R190). -/
def rowsCONV : List RegRow := [
  ⟨0x000, 0x000, 0x00000000, 0x00000000, 0x00000000, 0x00000000, 0x00000001, 0x00000000, .any⟩,  -- CV_CTL
  ⟨0x004, 0x004, 0x00000000, 0x00000000, 0x00000000, 0x00000000, 0x00000000, 0x00000000, .any⟩,  -- CV_STATUS
  ⟨0x008, 0x008, 0x00000000, 0x0000003F, 0x00000000, 0x00000000, 0x00000000, 0x00000000, .any⟩,  -- CV_EVT
  ⟨0x010, 0x02C, 0x00000000, 0x00000000, 0x00000000, 0x00000000, 0x00000000, 0x00000000, .any⟩  -- CV_SLICE
  ]

/-- Words of block WIN (07_conversion.md R212). -/
def rowsWIN : List RegRow := [
  ⟨0x000, 0x000, 0xFFFFFFFF, 0x00000000, 0x00000000, 0x00000000, 0x00000000, 0x7FFF8000, .any⟩,  -- WIN_LIM
  ⟨0x004, 0x004, 0xC000FFFF, 0x00000000, 0x00000000, 0x00000000, 0x00000000, 0x00000000, .any⟩,  -- WIN_CFG
  ⟨0x008, 0x008, 0x00000000, 0x00000000, 0x00000000, 0xFFFF0000, 0x00000000, 0x00000000, .any⟩  -- WIN_STAT
  ]

/-- Words of block ENTRY (02_power_entry.md R34). -/
def rowsENTRY : List RegRow := [
  ⟨0x000, 0x000, 0xFFFFFE00, 0x00000000, 0x00000000, 0x00000000, 0x00000000, 0x00000000, .configure⟩,  -- ENT_CFG
  ⟨0x004, 0x004, 0x007F1F3F, 0x00000000, 0x00000000, 0x00000000, 0x00000000, 0x00000F09, .configure⟩,  -- ENT_PROT
  ⟨0x008, 0x008, 0x00003FFF, 0x00000000, 0x00000000, 0x00000000, 0x00000000, 0x00001FFF, .configure⟩,  -- ENT_OC
  ⟨0x00C, 0x00C, 0xFFFFFFFF, 0x00000000, 0x00000000, 0x00000000, 0x00000000, 0x00003200, .configure⟩,  -- ENT_OC_TIME
  ⟨0x010, 0x010, 0xFFFF3FFF, 0x00000000, 0x00000000, 0x00000000, 0x00000000, 0x00C80200, .configure⟩,  -- ENT_INRUSH
  ⟨0x014, 0x014, 0x3FFFFFFF, 0x00000000, 0x00000000, 0x00000000, 0x00000000, 0x006B0320, .configure⟩,  -- ENT_PLIM
  ⟨0x018, 0x018, 0xFFFFFFFF, 0x00000000, 0x00000000, 0x00000000, 0x00000000, 0x01E84800, .configure⟩,  -- ENT_TMAX
  ⟨0x01C, 0x01C, 0xFFFFFFFF, 0x00000000, 0x00000000, 0x00000000, 0x00000000, 0x00013880, .configure⟩,  -- ENT_DONE
  ⟨0x020, 0x020, 0x3FFF3FFF, 0x00000000, 0x00000000, 0x00000000, 0x00000000, 0x30001E00, .configure⟩,  -- ENT_VLIM
  ⟨0x024, 0x024, 0xBFFF3FFF, 0x00000000, 0x00000000, 0x00000000, 0x00000000, 0x00500040, .configure⟩,  -- ENT_REV
  ⟨0x028, 0x028, 0x00003FFF, 0x00000000, 0x00000000, 0x00000000, 0x00000000, 0x00002000, .configure⟩,  -- ENT_BATT
  ⟨0x02C, 0x02C, 0xFFFFFFFF, 0x00000000, 0x00000000, 0x00000000, 0x00000000, 0x00009C40, .configure⟩,  -- ENT_CUT_TIME
  ⟨0x030, 0x030, 0x00000000, 0x00000000, 0x00000000, 0x00000000, 0x00000000, 0x00000000, .any⟩,  -- ENT_STATUS
  ⟨0x034, 0x034, 0x00000000, 0x000000FF, 0x00000000, 0x00000000, 0x00000000, 0x00000000, .any⟩,  -- ENT_EVT
  ⟨0x038, 0x038, 0x0000FFFF, 0x00000000, 0x00000000, 0x00000000, 0x00000000, 0x00001388, .configure⟩  -- ENT_SHUNT
  ]

/-- Words of block ENTRYDEV (02_power_entry.md R53; 02_power_entry.md R59). -/
def rowsENTRYDEV : List RegRow := [
  ⟨0x000, 0x000, 0xF3FF03FF, 0x00000000, 0x00000000, 0x00000000, 0x00000000, 0x026A024A, .configure⟩,  -- HU_CFG
  ⟨0x004, 0x004, 0x000000FF, 0x00000000, 0x00000000, 0x00000000, 0x00000000, 0x00000014, .configure⟩,  -- HU_FILT
  ⟨0x008, 0x008, 0xFFFFFFFF, 0x00000000, 0x00000000, 0x00000000, 0x00000000, 0x0007A120, .configure⟩,  -- HU_EXIT_T
  ⟨0x00C, 0x00C, 0xFF1F1FFF, 0x00000000, 0x00000000, 0x00000000, 0x00000000, 0x780F03E8, .keep⟩  -- KEEP_CFG
  ]

/-- Words of block EG (02_power_entry.md R49). -/
def rowsEG : List RegRow := [
  ⟨0x000, 0x000, 0xFF0EFFFF, 0x00000000, 0x00000000, 0x00000000, 0x00000000, 0x14000000, .configure⟩  -- EG_CFG
  ]

/-- Words of block SOA (02_power_entry.md R43). -/
def rowsSOA : List RegRow := [
  ⟨0x000, 0x000, 0xFFFFFFFF, 0x00000000, 0x00000000, 0x00000000, 0x00000000, 0x00000000, .configure⟩,  -- SOA_RTH01
  ⟨0x004, 0x004, 0xFFFFFFFF, 0x00000000, 0x00000000, 0x00000000, 0x00000000, 0x00000000, .configure⟩,  -- SOA_RTH23
  ⟨0x008, 0x014, 0xFFFFFFFF, 0x00000000, 0x00000000, 0x00000000, 0x00000000, 0x00000001, .configure⟩,  -- SOA_TAU
  ⟨0x018, 0x018, 0xFFFFFFFF, 0x00000000, 0x00000000, 0x00000000, 0x00000000, 0x0BB80CE4, .configure⟩,  -- SOA_TJ
  ⟨0x01C, 0x01C, 0x0000FFFF, 0x00000000, 0x00000000, 0x00000000, 0x00000000, 0x000005DC, .configure⟩  -- SOA_TREF
  ]

/-- Words of block BRANCH (03_branch_fuses.md R64). -/
def rowsBRANCH : List RegRow := [
  ⟨0x000, 0x000, 0xFFFFE000, 0x00000000, 0x00000000, 0x00000000, 0x00000000, 0x00000000, .configure⟩,  -- BR_CFG
  ⟨0x004, 0x004, 0x007F1F3F, 0x00000000, 0x00000000, 0x00000000, 0x00000000, 0x00000A09, .configure⟩,  -- BR_FAST
  ⟨0x008, 0x008, 0x000007FF, 0x00000000, 0x00000000, 0x00000000, 0x00000000, 0x000007FF, .configure⟩,  -- BR_OC
  ⟨0x00C, 0x00C, 0xFFFFFFFF, 0x00000000, 0x00000000, 0x00000000, 0x00000000, 0x00001F40, .configure⟩,  -- BR_OC_TIME
  ⟨0x010, 0x010, 0x0FFF07FF, 0x00000000, 0x00000000, 0x00000000, 0x00000000, 0x006B0100, .configure⟩,  -- BR_SS
  ⟨0x014, 0x014, 0xFFFFFFFF, 0x00000000, 0x00000000, 0x00000000, 0x00000000, 0x007A1200, .configure⟩,  -- BR_SS_TIME
  ⟨0x018, 0x018, 0xFFFFFFFF, 0x00000000, 0x00000000, 0x00000000, 0x00000000, 0x00009C40, .configure⟩,  -- BR_DONE
  ⟨0x01C, 0x01C, 0x0000FFFF, 0x00000000, 0x00000000, 0x00000000, 0x00000000, 0x00000258, .configure⟩,  -- BR_PLIM
  ⟨0x020, 0x020, 0x0FFF0FFF, 0x00000000, 0x00000000, 0x00000000, 0x00000000, 0x0C000800, .configure⟩,  -- BR_VLIM
  ⟨0x024, 0x024, 0xBFFF07FF, 0x00000000, 0x00000000, 0x00000000, 0x00000000, 0x85000040, .configure⟩,  -- BR_REV
  ⟨0x028, 0x028, 0x00000000, 0x00000000, 0x00000000, 0x00000000, 0x00000000, 0x00000000, .any⟩,  -- BR_STATUS
  ⟨0x02C, 0x02C, 0x00000000, 0x000000FF, 0x00000000, 0x00000000, 0x00000000, 0x00000000, .any⟩,  -- BR_EVT
  ⟨0x030, 0x030, 0x0000FFFF, 0x00000000, 0x00000000, 0x00000000, 0x00000000, 0x00001388, .configure⟩  -- BR_SHUNT
  ]

/-- Words of block BMAP (03_branch_fuses.md R78). -/
def rowsBMAP : List RegRow := [
  ⟨0x000, 0x03C, 0xE03FFFFF, 0x00000000, 0x00000000, 0x00000000, 0x00000000, 0x00000000, .configure⟩  -- BMAP
  ]

/-- Words of block SCVSEQ (07_conversion.md R200). -/
def rowsSCVSEQ : List RegRow := [
  ⟨0x000, 0x000, 0x007F3F0F, 0x00000000, 0x00000000, 0x00000000, 0x00000000, 0x00000000, .configure⟩,  -- SEQ_CFG
  ⟨0x004, 0x004, 0x0FFFFF3F, 0x00000000, 0x00000000, 0x00000000, 0x00000000, 0x00000000, .any⟩,  -- SEQ_SINGLE
  ⟨0x008, 0x008, 0x00000000, 0x00000000, 0x00000000, 0x00000000, 0x00000001, 0x00000000, .any⟩,  -- SEQ_CTL
  ⟨0x00C, 0x00C, 0x00000000, 0x00000000, 0x00000000, 0x00000000, 0x00000000, 0x00000020, .any⟩,  -- SEQ_STATUS
  ⟨0x010, 0x010, 0x00000000, 0x00000000, 0x00000000, 0xFFFFFFFF, 0x00000000, 0x00000000, .any⟩,  -- SEQ_CNT
  ⟨0x014, 0x014, 0x00000000, 0x00000000, 0x00000000, 0x00000000, 0x0000003F, 0x00000000, .any⟩,  -- INJ_REQ
  ⟨0x018, 0x018, 0x00000000, 0x00000000, 0x00000000, 0x00000000, 0x00000000, 0x00000000, .any⟩,  -- INJ_STAT
  ⟨0x01C, 0x01C, 0x00000000, 0x00000000, 0x00000000, 0x00000000, 0x00000000, 0x00000000, .any⟩,  -- INJ_STAMP
  ⟨0x020, 0x020, 0x000FFFFF, 0x00000000, 0x00000000, 0x00000000, 0x00000000, 0x00000000, .configure⟩,  -- SCV_AUX
  ⟨0x100, 0x1FC, 0xFFFFFFFF, 0x00000000, 0x00000000, 0x00000000, 0x00000000, 0x00000000, .configure⟩  -- SEQ_ENTRY
  ]

/-- Words of block ICV (07_conversion.md R210). -/
def rowsICV : List RegRow := [
  ⟨0x000, 0x000, 0xFFFFFFFF, 0x00000000, 0x00000000, 0x00000000, 0x00000000, 0x40F42400, .any⟩,  -- ICV_CFG
  ⟨0x004, 0x004, 0x00000000, 0x00000000, 0x00000000, 0x80000000, 0x00000000, 0x00000000, .any⟩,  -- ICV_RESULT
  ⟨0x008, 0x008, 0x00000000, 0x00000000, 0x00000000, 0x00000000, 0x00000000, 0x00000000, .any⟩  -- ICV_STAMP
  ]

/-- Words of block SAGE (08_battery_estimation.md R222). -/
def rowsSAGE : List RegRow := [
  ⟨0x000, 0x000, 0xFFF0FFFF, 0x00000000, 0x00000000, 0x00000000, 0x00000000, 0x000001F4, .configure⟩,  -- SG_CFG
  ⟨0x004, 0x004, 0x0000FFFF, 0x00000000, 0x00000000, 0x00000000, 0x00000000, 0x00000000, .configure⟩,  -- SG_CAP
  ⟨0x008, 0x008, 0x0000FFFF, 0x00000000, 0x00000000, 0x00000000, 0x00000000, 0x00001388, .configure⟩,  -- SG_SHUNT
  ⟨0x00C, 0x00C, 0xFFFFFFFF, 0x00000000, 0x00000000, 0x00000000, 0x00000000, 0x00000000, .configure⟩,  -- SG_RSER
  ⟨0x010, 0x010, 0xFFFFFFFF, 0x00000000, 0x00000000, 0x00000000, 0x00000000, 0x00000000, .configure⟩,  -- SG_RPOL1
  ⟨0x014, 0x014, 0xFFFFFFFF, 0x00000000, 0x00000000, 0x00000000, 0x00000000, 0x00000000, .configure⟩,  -- SG_RPOL2
  ⟨0x018, 0x018, 0xFFFFFFFF, 0x00000000, 0x00000000, 0x00000000, 0x00000000, 0x006400C8, .configure⟩,  -- SG_TPOL
  ⟨0x01C, 0x01C, 0xFFFFFFFF, 0x00000000, 0x00000000, 0x00000000, 0x00000000, 0x01F44E20, .configure⟩,  -- SG_REST
  ⟨0x020, 0x020, 0xFFFFFFFF, 0x00000000, 0x00000000, 0x00000000, 0x00000000, 0x0002BF20, .configure⟩,  -- SG_REST_T
  ⟨0x024, 0x024, 0xFFFF000F, 0x00000000, 0x00000000, 0x00000000, 0x00000000, 0x00C80003, .configure⟩,  -- SG_IMP
  ⟨0x028, 0x028, 0xFFFFFF0F, 0x00000000, 0x00000000, 0x00000000, 0x00000000, 0x14010104, .configure⟩,  -- SG_FILT
  ⟨0x02C, 0x02C, 0x0000FFFF, 0x00000000, 0x00000000, 0x00000000, 0x00000000, 0x0000A410, .configure⟩,  -- SG_VLIM
  ⟨0x030, 0x030, 0x0000FFFF, 0x00000000, 0x00000000, 0x00000000, 0x00000000, 0x00000064, .configure⟩,  -- SG_REPORT
  ⟨0x034, 0x034, 0x000FFFFF, 0x00000000, 0x00000000, 0x00000000, 0x00000000, 0x00022846, .configure⟩,  -- SG_CAPL
  ⟨0x038, 0x038, 0xFFFFFFFF, 0x00000000, 0x00000000, 0x00000000, 0x00000000, 0x00001770, .configure⟩,  -- SG_WB
  ⟨0x040, 0x040, 0x00000000, 0x00000000, 0x00000000, 0x00000000, 0x00000000, 0x04000000, .any⟩,  -- SG_STATUS
  ⟨0x044, 0x044, 0x00000000, 0x00000000, 0x00000000, 0x00000000, 0x00000000, 0x00000000, .any⟩,  -- SG_SOC
  ⟨0x048, 0x048, 0x00000000, 0x00000000, 0x00000000, 0x00000000, 0x00000000, 0x00000000, .any⟩,  -- SG_CAPACITY
  ⟨0x04C, 0x04C, 0x00000000, 0x00000000, 0x00000000, 0x00000000, 0x00000000, 0x00000000, .any⟩,  -- SG_RSER_L
  ⟨0x050, 0x050, 0x00000000, 0x00000000, 0x00000000, 0x00000000, 0x00000000, 0x00000000, .any⟩,  -- SG_RPOL1_L
  ⟨0x054, 0x054, 0x00000000, 0x00000000, 0x00000000, 0x00000000, 0x00000000, 0x00000000, .any⟩,  -- SG_RPOL2_L
  ⟨0x058, 0x058, 0x00000000, 0x00000000, 0x00000000, 0x00000000, 0x00000000, 0x00000000, .any⟩,  -- SG_GEN
  ⟨0x05C, 0x05C, 0x00000000, 0x00000000, 0x00000000, 0x00000000, 0x00000000, 0x00000000, .any⟩,  -- SG_MEAS
  ⟨0x060, 0x060, 0x00000000, 0x00000000, 0x00000000, 0x00000000, 0x00000000, 0x00000000, .any⟩,  -- SG_TEMPV
  ⟨0x064, 0x064, 0x00000000, 0x00000000, 0x00000000, 0xFFFFFFFF, 0x00000000, 0x00000000, .any⟩,  -- SG_CNT
  ⟨0x068, 0x068, 0x00000000, 0x000003FF, 0x00000000, 0x00000000, 0x00000000, 0x00000000, .any⟩  -- SG_EVT
  ]

/-- Words of an internal ring block IRc: the fields of R315, and IR_DB (12_host_rings.md R348; 17_register_map.md R447). -/
def rowsIR : List RegRow := rowsRING ++ [⟨0x01C, 0x01C, 0, 0, 0, 0, 0xFFFFFFFF, 0, .any⟩]

/-- Tables of whole words, writable in CONFIGURE, whose chapter gives no Reset column (16_memory_protection.md R438). -/
def rowsTable : List RegRow := [⟨0, 0xFFFFFF, 0xFFFFFFFF, 0, 0, 0, 0, 0, .configure⟩]

/-- The phase-to-branch table: bit 6 of each byte is reserved (03_branch_fuses.md R78). -/
def rowsPHB : List RegRow := [⟨0, 0x1FC, 0xBFBFBFBF, 0, 0, 0, 0, 0, .configure⟩]

/-- A thermistor curve: 33 entries of 16 bits, the rest of the block reserved (07_conversion.md R198). -/
def rowsTCURVE : List RegRow :=
  [⟨0, 0x3C, 0xFFFFFFFF, 0, 0, 0, 0, 0, .configure⟩, ⟨0x40, 0x40, 0x0000FFFF, 0, 0, 0, 0, 0, .configure⟩]

/-- An OCV table: four rows of 64 points, then the four row temperatures, the rest of the block reserved (08_battery_estimation.md
R224). -/
def rowsOCV : List RegRow := [⟨0, 0x204, 0xFFFFFFFF, 0, 0, 0, 0, 0, .configure⟩]

/-- Words that are read-only and reset to 0. -/
def rowsRO : List RegRow := [⟨0, 0xFFFFFF, 0, 0, 0, 0, 0, 0, .any⟩]

/-- MSI-X table words: address, data and vector control, every vector masked at reset (PCI Express Base Specification,
log 3 PRESUMED). -/
def rowsMSIX : List RegRow :=
  [⟨0, 8, 0xFFFFFFFF, 0, 0, 0, 0, 0, .any⟩, ⟨0xC, 0xC, 1, 0, 0, 0, 0, 1, .any⟩]

/-- Which die serves a block (17_register_map.md R447). -/
inductive Region where
  | hub
  | loom (per : Nat)   -- instance div per
  | conv               -- by converter index
  | win                -- by tag class
  | core               -- the core's region
  | loomAll            -- every loom die (R452)
  | entry
  | island             -- the standby island of the entry die
  deriving DecidableEq, Repr

/-- A row of the block index (17_register_map.md R447). -/
structure Blk where
  base : Nat
  stride : Nat
  count : Nat
  region : Region
  rows : List RegRow
  deriving Repr

/-- The blocks of the hub below 0x2000 (17_register_map.md R447). -/
def blocksLow : List Blk := [
  ⟨0x0000, 0x800, 1, .hub, rowsDEV⟩,
  ⟨0x0800, 4, 384, .hub, rowsOWN⟩,
  ⟨0x1000, 0x100, 1, .hub, rowsMODE⟩,
  ⟨0x1100, 0x100, 1, .hub, rowsCLK⟩,
  ⟨0x1200, 0x100, 1, .hub, rowsHOST⟩,
  ⟨0x1300, 0x100, 1, .hub, rowsMEM⟩,
  ⟨0x1400, 0x100, 1, .hub, rowsSL⟩,
  ⟨0x1500, 0x10, 16, .hub, rowsSLVC⟩,
  ⟨0x1800, 0x20, 32, .hub, rowsTMR⟩,
  ⟨0x1C00, 0x20, 16, .hub, rowsRQ⟩]

/-- The other blocks of the hub (17_register_map.md R447). -/
def blocksHub : List Blk := [
  ⟨0x2000, 0x20, 64, .hub, rowsPOLICY⟩,
  ⟨0x2800, 4, 592, .hub, rowsRETRY⟩,
  ⟨0x4000, 0x4000, 1, .hub, rowsFAULT⟩,
  ⟨0x8000, 0x20, 384, .hub, rowsRING⟩,
  ⟨0xB000, 8, 128, .hub, rowsTable⟩,
  ⟨0xB400, 0x40, 32, .hub, rowsIP⟩,
  ⟨0xC000, 0x100, 16, .hub, rowsTW⟩,
  ⟨0xD000, 0x40, 21, .core, rowsCORE⟩,
  ⟨0xD800, 0x20, 21, .core, rowsIR⟩,
  ⟨0x10000, 16, 2048, .hub, rowsMSIX⟩,
  ⟨0x18000, 8, 32, .hub, rowsRO⟩,
  ⟨0x40000, 0x40, 4096, .hub, rowsRO⟩]

/-- The blocks of the loom dice and the converters (17_register_map.md R447). -/
def blocksLoom : List Blk := [
  ⟨0x100000, 0x200, 64, .loom 16, rowsRAIL⟩,
  ⟨0x108000, 0x20, 512, .loom 128, rowsPHASE⟩,
  ⟨0x10C000, 0x80, 8, .loomAll, rowsTable⟩,
  ⟨0x10C400, 512, 1, .loomAll, rowsPHB⟩,
  ⟨0x110000, 0x40, 632, .conv, rowsCONV⟩,
  ⟨0x120000, 0x10, 2560, .win, rowsWIN⟩]

/-- The blocks of the entry die (17_register_map.md R447). -/
def blocksEntry : List Blk := [
  ⟨0x200000, 0x100, 16, .entry, rowsENTRY⟩,
  ⟨0x201000, 0x40, 1, .entry, rowsENTRYDEV⟩,
  ⟨0x201040, 0x10, 8, .entry, rowsEG⟩,
  ⟨0x201200, 0x40, 8, .entry, rowsSOA⟩,
  ⟨0x202000, 0x40, 64, .entry, rowsBRANCH⟩,
  ⟨0x203000, 0x40, 64, .entry, rowsBMAP⟩,
  ⟨0x204000, 0x200, 8, .entry, rowsSCVSEQ⟩,
  ⟨0x205000, 0x20, 24, .entry, rowsICV⟩,
  ⟨0x205400, 0x80, 4, .entry, rowsTCURVE⟩,
  ⟨0x205800, 0x80, 4, .island, rowsSAGE⟩,
  ⟨0x206000, 0x400, 4, .island, rowsOCV⟩]

/-- The block that holds an offset. -/
def blockOf (off : Nat) : Option Blk :=
  let l := if off < 0x2000 then blocksLow else if off < 0x100000 then blocksHub
           else if off < 0x200000 then blocksLoom else blocksEntry
  l.find? fun b => decide (b.base ≤ off ∧ off < b.base + b.stride * b.count)

/-- The row of a block for an offset inside one instance. -/
def rowAt (rows : List RegRow) (o : Nat) : Option RegRow :=
  rows.find? fun r => decide (r.lo ≤ o ∧ o ≤ r.hi)

/-- How many channels a tag class has (07_conversion.md R182, R197, R209; 04_rail_loom.md R120). -/
def tagCount (cls : Nat) : Nat :=
  match cls with
  | 0 => 512 | 1 => 64 | 2 => 48 | 3 => 272 | 4 => 24 | 5 => 512 | _ => 0

/-- The tag names a channel. -/
def tagAssigned (t : Nat) : Bool :=
  decide (t % 512 < tagCount (t / 512)) && (t / 512 != 5 || decide (t % 8 < 6))

/-- The row of a BAR0 offset, `none` at a reserved offset and in a gap (17_register_map.md R448). WINt exists for the tag of a channel
alone (07_conversion.md R212). -/
def rowOf (off : Nat) : Option RegRow :=
  if 0x120000 ≤ off ∧ off < 0x12A000 ∧ ¬ tagAssigned ((off - 0x120000) / 16) then none
  else (blockOf off).bind fun b => rowAt b.rows ((off - b.base) % b.stride)

/-- Whether a BAR0 offset lies in the span of a block, its reserved offsets included (17_register_map.md R447, R448). -/
def inSpan (off : Nat) : Bool :=
  off < 0x2000 || (0x2000 ≤ off && off < 0x8000) || (0x8000 ≤ off && off < 0xE000) ||
  (0x10000 ≤ off && off < 0x18100) || (0x40000 ≤ off && off < 0x80000) ||
  (0x100000 ≤ off && off < 0x10C600) || (0x110000 ≤ off && off < 0x120000) || (0x120000 ≤ off && off < 0x130000) ||
  (0x200000 ≤ off && off < 0x207000)

/-- Number of slices of converter `c` (07_conversion.md R182). -/
def sliceCount (c : Nat) : Nat := if c < 512 then 4 else if c < 576 then 8 else if c < 624 then 2 else 4

/-- What a word of BAR0 holds at reset (16_memory_protection.md R438 and each chapter's Reset column). -/
def resetWord (off : Nat) : Word :=
  let base := ((rowOf off).map (·.reset)).getD 0
  if off = 0xC000 then base ||| 0x50040000            -- TW0.TW_CFG: ADDR 0x50, ATTN_OUT 1 (14_two_wire.md R376)
  else if off = 0xC020 then base ||| 0x10             -- TW0.TW_STATUS: ROLE target
  else if off = 0xC030 then base ||| 0x100            -- TW0.TW_ALERT: FLT_EN 1
  else if 0xC100 ≤ off ∧ off < 0xD000 then            -- fields of TW0 only read 0 on the other blocks
    (if off % 0x100 = 4 ∨ off % 0x100 = 0x1C ∨ (0x80 ≤ off % 0x100 ∧ off % 0x100 < 0xA0) then 0 else base)
  else if 0x110000 ≤ off ∧ off < 0x119E00 ∧ off % 0x40 = 4 then      -- CV_STATUS.LIVE: the slice count
    base ||| (BitVec.ofNat 32 (sliceCount ((off - 0x110000) / 0x40)) <<< 16)
  else if 0x205200 ≤ off ∧ off < 0x205300 ∧ off % 0x20 = 0 then 8000000  -- ICV_CFG of ICV 16-23 (07_conversion.md R210)
  else base

end Sys2Proof.Machine
end

