-- ==== Sys2Proof/Machine/State.lean ====
section
/-! DEFINITION. The state of the block as plain data. Registers are held in ONE sparse map from the BAR0 offset of a
word to the word (17_register_map.md R447); what the spec gives a unit beyond its registers (open windows, integrators,
queues, latches) stands in one structure per unit, held in sparse tables by unit index. A window is held as its opening
tick, a timer as the tick it started (00_scope.md R6-R8). In the docstrings "02 R35" is rule R35 of the spec file whose
name begins with 02. Reset values the spec does not give: log 3. -/

namespace Sys2Proof.Machine

/-- Why a step ends in a fault. -/
inductive Fault where
  /-- Raised by the meaning of a command whose operand is not of the shape its rule gives (a descriptor whose payload
  is not 48 bytes, a peer flit whose payload is not 252 bytes). No such command exists on the hardware. Safe (log 8). -/
  | badOperand
  deriving DecidableEq, Repr

/-- Why a step is refused. -/
inductive Refusal where
  /-- Raised by an arm of exec for a command that has no meaning yet; safe. -/
  | notModelled (mnemonic : String)
  deriving DecidableEq, Repr

/-- Host memory and bank memory: one byte per listed address, canonical under `KV.wf` with 0 for an unlisted address
(log 6; 16_memory_protection.md R438). -/
abbrev Mem := List Host.Cell

/-- What waits for a completion: an outstanding descriptor by its number, or a write of MODE_REQ (R272, R322). -/
inductive Token where
  | out (id : Nat)
  | modeReg
  | record (ix : Nat)
  deriving DecidableEq, Repr

/-- An outstanding descriptor (12_host_rings.md R322): its number, opcode, contents, whether it has begun, whether its completion
is discarded (R330, R331), whether its ring was enabled anew since its fetch (R316), and its status and completion stamp once it has completed. -/
structure Out where
  id : Nat
  opc : Nat
  d : Desc
  begun : Bool := false
  drop : Bool := false
  old : Bool := false
  result : Option (Nat × Nat) := none
  deriving DecidableEq, Repr

/-- A gate drive: off, being pulled down fast, sourcing or sinking under a loop at a current code, sourcing to full
enhancement, or held at the charge pump output (02_power_entry.md R32, R37, R39). -/
inductive Gate where
  | off
  | offFast
  | drive (source : Bool) (code : Nat)
  | enhancing
  | enhanced
  deriving DecidableEq, Repr

/-- What an entry or branch channel was before it first changed its state on a tick: transitions due on one tick are taken in precedence
order, in whatever order their commands come (02_power_entry.md R35; 03_branch_fuses.md R66). -/
structure PreSt where
  tick : Nat
  st : Nat
  gate : Gate
  status : Word
  clear : Option Nat
  hold : Bool := false
  off : Bool := false
  deriving DecidableEq, Repr

/-- What the device was before its first change of mode on a tick: of the transitions due on one tick the lowest precedence number is taken,
in whatever order their commands come (10_modes_startup.md R271). -/
structure ModePre where
  tick : Nat
  prec : Nat
  mode : Nat
  seq : Nat
  done : Bool
  shed : List Nat
  deriving DecidableEq, Repr

/-- `clamp_prev` of the compensator (04_rail_loom.md R92). -/
inductive Clamp where
  | none
  | high
  | low
  deriving DecidableEq, Repr

/-- The level of a phase's PWM output (04_rail_loom.md R88): high-impedance, MID, LOW or HIGH. -/
inductive Level where
  | hiz
  | mid
  | low
  | high
  deriving DecidableEq, Repr

/-- A frame of the device on an intent lane: its type, sequence and payload bytes and, once it is sent, its CRC-8 (06_load_intent.md R149,
R150, R152). -/
structure TxFrame where
  kind : Nat
  seq : Nat
  payload : Nat
  crc : Nat := 0
  deriving DecidableEq, Repr

/-- A fault message (09_faults.md R244): `fence` is the level of the fence a latch applies to a policy kind (R248), `safe` the SAFE-STOP of LATCH_ACT after it (R75), and `latch` says that the message is no occurrence but a
latch that follows an earlier trip (R74). -/
structure FMsg where
  kind : Nat
  unit : Nat
  agent : Nat
  access : Nat
  aspace : Nat
  addr : Nat
  stamp : Nat
  level : Nat
  fence : Nat := 0
  safe : Bool := false
  latch : Bool := false
  spec : Bool := false
  forced : Bool := false
  stale : Bool := false
  deriving DecidableEq, Repr

/-- A stream or archive block (13_stream_link.md R370): open ones collect entries, queued ones are whole. `ring` is the ring of a
marker's fence, `fence` its number; `bank` is the stream buffer bank a queued block lies in, a free value (log 5). -/
structure Block where
  btype : Nat
  k : Nat
  thread : Nat
  tag : Nat
  ring : Nat := 0
  fence : Nat := 0
  stamp : Nat
  spacing : Nat := 0
  entries : List Entry := []
  dropped : Nat := 0
  since : Nat := 0
  bank : Nat := 0
  gran : Nat := 0
  deriving DecidableEq, Repr

/-- A FENCE in progress (12_host_rings.md R346): its outstanding number, source, tag, the event rings and stream VCs whose markers
are still to be placed, the VCs whose markers are queued and not yet sent, the archive scope, the archive threads whose markers find no room yet, FLUSH, the latest tick known
on which an earlier descriptor completed, the tick t_w, and whether t_f has come. -/
structure FenceSt where
  id : Nat
  src : Src
  tag : Nat
  rings : List Nat
  vcs : List Nat
  onWire : List Nat := []
  arch : Bool
  archs : List Nat := []
  flush : Bool
  since : Nat := 0
  tw : Option Nat := none
  placed : Bool := false
  deriving DecidableEq, Repr

/-- Where a core operand lies (15_mograthes_cores.md R407): an address, or a special register. -/
inductive Loc where
  | mem (addr : Nat)
  | spec (k : Nat)
  deriving DecidableEq, Repr

/-- A WAIT in progress (15_mograthes_cores.md R419): where d goes, the mask, the limit in core clocks (0 none), the tick it began
or the KC's clock last changed, the core clocks it had counted by then, and the length of the instruction. -/
structure WaitSt where
  dest : Loc
  mask : Nat
  limit : Nat
  since : Nat
  passed : Nat := 0
  len : Nat
  deriving DecidableEq, Repr

/-- A TIME_ALIGN of MODE 1 that waits for its edge (spec 11). -/
structure AlignReq where
  /-- the descriptor (11 R303) -/
  tok : Token := .modeReg
  /-- 64 bits, the acceptance tick (11 R303) -/
  acc : Nat := 0
  /-- 48 bits, its epoch seconds (11 R303) -/
  sec : Nat := 0
  deriving DecidableEq, Repr

/-- Clocks, Thyme and PPS (spec 11). -/
structure ClockSt where
  /-- 64 bits, Thyme, the master count of control clock edges (11 R300) -/
  now : Nat := 0
  /-- standby oscillator cycles counted since VSTBY rose (11 R274; 07 R217) -/
  sb : Nat := 0
  /-- ticks counted by the entry die on whichever clock it runs on: Thyme's, or 50 to a cycle of the standby oscillator (07 R211, R217) -/
  ent : Nat := 0
  /-- that count at the latest release from reset (07 R199) -/
  entUp : Nat := 0
  /-- 1 bit, the hub, the loom dice and the entry die logic are out of reset (10 R270, R274) -/
  hub : Bool := false
  /-- standby cycle of the release of R274 while CONFIGURE waits for the PLL lock (10 R274; 11 R297) -/
  released : Option Nat := none
  /-- 1 bit, the root clock is lost until it returns (11 R298) -/
  rootLost : Bool := false
  /-- per accessor agent, 32-bit latched THYME_HI (11 R302) -/
  thymeHi : KV Nat := []
  /-- per die (0-3 loom, 4 entry), signed offset of the die's Thyme copy from the master (11 R301) -/
  copyOff : List (Nat × Int) := []
  /-- per die, 1 the copy of Thyme is reloaded on the next broadcast, 2 its link has returned and no sample leaves before (11 R301) -/
  copyReload : List (Nat × Nat) := []
  /-- 5 bits, hub event timer held for alignment (11 R303) -/
  alignTimer : Option Nat := none
  /-- the waiting TIME_ALIGN descriptors, in the order of acceptance (11 R303) -/
  alignOut : List AlignReq := []
  /-- missed windows in a row (11 R304) -/
  ppsRun : Nat := 0
  /-- per timer, 64-bit CMP in effect (11 R307, R308) -/
  timerCmp : KV Nat := []
  /-- per timer, the tick of its next fire, 0 none; later than CMP if the fire is late (11 R307) -/
  timerDue : KV Nat := []
  /-- per link k and quantity q (key 3k + q), opening tick + 1 of the region window, 0 closed (11 R311) -/
  regWin : KV Nat := []
  /-- per link k, tick + 1 since which every quantity has stayed within limit, 0 none (11 R311) -/
  regOk : KV Nat := []
  /-- counter of the model's own free values (not the spec's) (log 5) -/
  freeCtr : Nat := 0
  /-- Thyme ticks per standby cycle, measured on entry into STANDBY (08 R221; 07 R211) -/
  ratio : Nat × Nat := (50, 1)
  deriving DecidableEq, Repr

/-- Modes, boot, power sequencer, hold-up and SAFE (spec 10). -/
structure ModeSt where
  /-- tick of HOLDUP entry t_h (10 R287) -/
  tHold : Nat := 0
  /-- 8 bits, bit s: stage s has been shed in this HOLDUP (10 R287) -/
  shedDone : Nat := 0
  /-- tick at which the present sequence entry runs or opened (10 R285) -/
  seqAt : Nat := 0
  /-- the present sequence entry is a DELAY or a WAIT in progress (10 R285) -/
  seqWait : Bool := false
  /-- the table in progress has ended at its last entry (UP_LEN, DOWN_LEN) (10 R285) -/
  seqPast : Bool := false
  /-- the MODE_REQUEST CONFIGURE descriptors that the end of the down run completes (10 R272, R286) -/
  seqOut : List Token := []
  /-- 3 bits, restoration stage in progress, 0 none (10 R288) -/
  resStage : Nat := 0
  /-- tick at which the restoration stage began (10 R288) -/
  resAt : Nat := 0
  /-- tick at which the next enable of the stage falls due (10 R288) -/
  resDue : Nat := 0
  /-- rails of the stage still to be enabled, one per tick (10 R288) -/
  resLeft : List Nat := []
  /-- tick of SAFE entry while SAFE_DELAY runs (10 R289) -/
  safeAt : Option Nat := none
  /-- tick and agent of the first unlock key (10 R292) -/
  unlock : Option (Nat × Nat) := none
  /-- boot image as loaded from flash or from the boot window (10 R277, R278) -/
  image : List Byte := []
  /-- the flash it came from meets the conditions of R480 (18 R480) -/
  flashOk : Bool := true
  /-- commands the boot ROM has issued to the flash since it last reset it, with the 24-bit address of a read (output of the block) (18 R480) -/
  qspi : List (Nat × Nat) := []
  /-- payload offset of the next record to apply (10 R279) -/
  bootPos : Nat := 0
  /-- index of the next record to apply (10 R279) -/
  bootIdx : Nat := 0
  /-- 21 bits, cores that received a local code section (15 R427) -/
  coreCode : Nat := 0
  /-- the last image came from the host (15 R428) -/
  lastHost : Bool := false
  /-- one-time-programmable security version counter (10 R280; 18 R482) -/
  otp : Nat := 0
  /-- DEV_CFG.ARCHIVE_MODE as sampled on leaving CONFIGURE (01 R19) -/
  archMode : Bool := false
  /-- KEEP_CFG is locked until reset (02 R59) -/
  keepLock : Bool := false
  /-- BOARD_ALERT_N driven low (02 R57; 10 R289) -/
  alert : Bool := false
  /-- CONFIGURE entry has begun and waits for memory initialisation and calibration (10 R282; 07 R196) -/
  pendingCfg : Bool := false
  /-- what the device was before its first change of mode on a tick: that tick, the precedence of the change, the mode, SEQ_STATE, SEQ_DONE and HU_SHED (10 R271) -/
  pre : Option ModePre := none
  /-- steps 1-3 of R282 run with the SAFE latch set (10 R291) -/
  afterSafe : Bool := false
  deriving DecidableEq, Repr

/-- One entry channel En (spec 02). -/
structure EntrySt where
  /-- binary32, pole 1 of the thermal model (02 R40, R41) -/
  th1 : Word := 0
  /-- binary32, pole 2 (02 R40) -/
  th2 : Word := 0
  /-- binary32, pole 3 (02 R40) -/
  th3 : Word := 0
  /-- binary32, pole 4 (02 R40) -/
  th4 : Word := 0
  /-- signed 14 bits, latest shunt code (02 R31) -/
  i : Int := 0
  /-- 14 bits, latest VIN code (02 R31) -/
  vin : Nat := 0
  /-- 14 bits, latest VOUT code (02 R31) -/
  vout : Nat := 0
  /-- change of VOUT over the last sample (02 R37) -/
  dvout : Int := 0
  /-- effective power limit as a fraction of watts (02 R42) -/
  pEff : Nat × Nat := (0, 1)
  /-- opening tick of the qualification window (02 R35) -/
  qual : Option Nat := none
  /-- samples counted in the qualification window (02 R35) -/
  qualN : Nat := 0
  /-- a group member that has qualified and waits for the others (02 R50) -/
  ready : Bool := false
  /-- consecutive samples with VIN at or above OV (02 R46) -/
  ovN : Nat := 0
  /-- opening tick of the OC window (02 R47) -/
  oc : Option Nat := none
  /-- opening tick of the CUTOFF window (02 R47) -/
  cut : Option Nat := none
  /-- opening tick of the DONE_TIME window (02 R35, R47) -/
  doneW : Option Nat := none
  /-- opening tick of the REV_FILT window (02 R52) -/
  rev : Option Nat := none
  /-- opening tick of the sharing window (02 R50) -/
  share : Option Nat := none
  /-- tick of entry into INRUSH (02 R38) -/
  inrush : Option Nat := none
  /-- consecutive samples with VIN at or above VOUT in BLOCKING (02 R35) -/
  blkN : Nat := 0
  /-- gate drive: off, offFast, drive code, enhancing, enhanced (02 R32, R37, R39) -/
  gate : Gate := .off
  /-- latched by a CUTOFF trip in HOLDUP (02 R56) -/
  huCut : Bool := false
  /-- an off request holds the battery channel OFF (02 R36) -/
  hold : Bool := false
  /-- OC_LIMIT scale, numerator (members before the fence) (02 R51) -/
  ocNum : Nat := 1
  /-- OC_LIMIT scale, denominator (members remaining) (02 R51) -/
  ocDen : Nat := 1
  /-- signed 16 bits, latest thermistor temperature, 0.05 C (07 R199) -/
  tCase : Int := 0
  /-- time of the latest thermistor sample, in the ticks that the entry die counts (07 R199) -/
  tAt : Option Nat := none
  /-- the channel uses T_FIXED for want of thermistor samples (07 R199) -/
  stale : Bool := false
  /-- fenced as a member of the domain of this channel (09 R264; 02 R50) -/
  inDomain : Option Nat := none
  /-- tick of the latest update of the thermal model (02 R46) -/
  soaAt : Option Nat := none
  /-- tick of the last trip (02 R46) -/
  tripAt : Option Nat := none
  /-- the causes of that trip that are the channel's own, not those of another member of its group (02 R51) -/
  own : List Nat := []
  /-- what the channel was before it first changed its state on a tick (02 R35) -/
  pre : Option PreSt := none
  deriving DecidableEq, Repr

/-- One exit of a branch from ON whose map is being applied (spec 03). -/
structure DownSt where
  /-- the exit tick t_b (03 R80) -/
  tb : Nat := 0
  /-- 4 bits, loom dice that the branch-down message has reached (03 R80; 05 R122) -/
  msg : Nat := 0
  /-- 16 bits, DEPEND entries of the map already applied (03 R80) -/
  dep : Nat := 0
  deriving DecidableEq, Repr

/-- One branch channel Bn (spec 03). -/
structure BranchSt where
  /-- binary32, pole 1 of the thermal model (03 R65) -/
  th1 : Word := 0
  /-- binary32, pole 2 (03 R65) -/
  th2 : Word := 0
  /-- binary32, pole 3 (03 R65) -/
  th3 : Word := 0
  /-- binary32, pole 4 (03 R65) -/
  th4 : Word := 0
  /-- signed 12 bits, latest I code (03 R63) -/
  i : Int := 0
  /-- 12 bits, latest VIN code (03 R63) -/
  vin : Nat := 0
  /-- 12 bits, latest VOUT code (03 R63) -/
  vout : Nat := 0
  /-- effective power limit as a fraction of watts (03 R65) -/
  pEff : Nat × Nat := (0, 1)
  /-- consecutive good VIN samples in CHECK (03 R66) -/
  qualN : Nat := 0
  /-- consecutive VIN samples at or above OV (03 R67) -/
  ovN : Nat := 0
  /-- opening tick of the OC window (03 R67) -/
  oc : Option Nat := none
  /-- opening tick of the DONE_TIME window (03 R66) -/
  doneW : Option Nat := none
  /-- opening tick of the REV window (03 R67) -/
  rev : Option Nat := none
  /-- opening tick of the PWR window (03 R67) -/
  pwr : Option Nat := none
  /-- tick of entry into SOFTSTART (03 R66) -/
  ss : Option Nat := none
  /-- gate drive (03 R61) -/
  gate : Gate := .off
  /-- signed 16 bits, latest thermistor temperature, 0.05 C (07 R199) -/
  tCase : Int := 0
  /-- time of the latest thermistor sample, in the ticks that the entry die counts (07 R199) -/
  tAt : Option Nat := none
  /-- the channel uses T_FIXED for want of thermistor samples (07 R199) -/
  stale : Bool := false
  /-- tick of the latest update of the thermal model (02 R46, 03 R67) -/
  soaAt : Option Nat := none
  /-- tick of the last trip (02 R46, 03 R67) -/
  tripAt : Option Nat := none
  /-- what the channel was before it first changed its state on a tick (03 R66) -/
  pre : Option PreSt := none
  /-- the exits from ON whose map is being applied, the oldest first (03 R80) -/
  downs : List DownSt := []
  deriving DecidableEq, Repr

/-- One retry machine, unit u of RETRY_STAT (spec 03). -/
structure RetrySt where
  /-- the six policy words that govern the retry in progress (03 R71) -/
  pol : List Word := []
  /-- RETRY_STAT as it stood when the latest trip was decided (03 R73) -/
  stat : Word := 0
  /-- closing tick of the DELAY window (03 R73) -/
  delay : Option Nat := none
  /-- closing tick of the COOL window (03 R74) -/
  cool : Option Nat := none
  /-- closing tick of the COUNT_CLEAR window (03 R76) -/
  clear : Option Nat := none
  deriving DecidableEq, Repr

/-- The speculation or shadow evaluation of one rail (spec 06). -/
structure SpecSt where
  /-- 5 bits, port (06 R162) -/
  port : Nat := 0
  /-- 2 bits, binding slot (06 R162) -/
  slot : Nat := 0
  /-- 8 bits, sequence byte of the STEP (06 R152) -/
  seq : Nat := 0
  /-- acceptance tick (06 R162) -/
  tAcc : Nat := 0
  /-- announced step tick (06 R162) -/
  tStep : Nat := 0
  /-- signed 16 bits, announced step, 0.25 A (06 R153) -/
  di : Int := 0
  /-- i_sum at acceptance, 1/16 A (06 R162) -/
  iBase : Int := 0
  /-- 2 bits, duration class (06 R153) -/
  dclass : Nat := 0
  /-- opening tick of the confirmation window (06 R162) -/
  tOpen : Nat := 0
  /-- closing tick of the confirmation window (06 R162) -/
  tClose : Nat := 0
  /-- it is a shadow evaluation (06 R175) -/
  shadow : Bool := false
  /-- the confirmation window has not been resolved (06 R162) -/
  opn : Bool := false
  /-- exact pre-bias, 0.01 error code; held to 2^-8 code where it is used (log 21) (06 R163) -/
  pb : Int := 0
  /-- u_int, 2^-32 duty (06 R165) -/
  u : Int := 0
  /-- it was cancelled: pb and u_int become 0 on the next sample (06 R169) -/
  dead : Bool := false
  /-- pre-bias target, error codes (06 R163) -/
  pbTgt : Int := 0
  /-- tick from which the pre-bias is removed (06 R163) -/
  rm : Option Nat := none
  /-- the pre-charge applies u_int (06 R165) -/
  pcOn : Bool := false
  /-- the pre-charge has been cut or has ended (06 R165) -/
  pcCut : Bool := false
  /-- the wake of R164 has been made (06 R164) -/
  woke : Bool := false
  /-- phases held by the shuttle (06 R164, R176) -/
  woken : List Nat := []
  /-- closing tick of the hold of a confirmed speculation (06 R167) -/
  holdEnd : Option Nat := none
  /-- tick from which the woken phases of a retraction leave (06 R168) -/
  shedAt : Option Nat := none
  /-- end of the speculation, for the SPEC Attribute_ (06 R170, R172) -/
  tEnd : Option Nat := none
  deriving DecidableEq, Repr

/-- The hold of an earlier confirmed speculation that another followed (spec 06). -/
structure HoldSt where
  /-- closing tick of the hold (06 R167) -/
  close : Nat := 0
  /-- the phases it holds (06 R167, R176) -/
  ps : List Nat := []
  /-- 5 bits, port (06 R169) -/
  port : Nat := 0
  /-- 8 bits, sequence byte of its STEP (06 R169) -/
  seq : Nat := 0
  /-- 2 bits, binding slot (06 R169) -/
  slot : Nat := 0
  /-- tick from which its wake is due, while it is still to come (06 R164) -/
  wakeAt : Option Nat := none
  /-- current its wake is for, i_base + the announced step, 1/16 A (06 R164) -/
  need : Int := 0
  deriving DecidableEq, Repr

/-- One rail loom (specs 04, 05). -/
structure RailSt where
  /-- signed 48 bits, integrator, 2^-32 duty (04 R92, R93) -/
  y : Int := 0
  /-- signed 48 bits, first filter (04 R92) -/
  f1 : Int := 0
  /-- signed 48 bits, second filter (04 R92) -/
  f2 : Int := 0
  /-- previous error, error codes (04 R92) -/
  e1 : Int := 0
  /-- error before the previous one (04 R92) -/
  e2 : Int := 0
  /-- clamp_prev: NONE, HIGH, LOW (04 R92) -/
  clamp : Clamp := .none
  /-- latest computed duty command, 2^-32 (04 R92) -/
  d : Int := 0
  /-- duty the edge scheduler applies, 2^-32 (04 R90) -/
  dApp : Int := 0
  /-- latest x, error codes (04 R92, R101) -/
  x : Int := 0
  /-- latest measured voltage, 2^-5 uV (04 R95, R111) -/
  vAbs : Int := 0
  /-- i_sum, 1/16 A (04 R94) -/
  iSum : Int := 0
  /-- stamps and values of i_sum over the last 40 ticks, the latest first (i_40) (04 R92) -/
  iHist : List (Nat × Int) := []
  /-- sum of i_sum over the period in progress (05 R137) -/
  iAcc : Int := 0
  /-- i_sum samples of the period in progress (05 R137) -/
  iCnt : Nat := 0
  /-- 2 bits, STRATEGY as sampled at RAIL_ENABLE (01 R18) -/
  strat : Nat := 0
  /-- DIS_MODE as sampled (04 R85) -/
  disMode : Bool := false
  /-- OV_ACTION as sampled (04 R85) -/
  ovAct : Bool := false
  /-- target of the start-up, 0.5 mV (04 R108, R111) -/
  ssTgt : Nat := 0
  /-- samples whose compensator stage is to come: sampling instant and x, the oldest first (04 R96, R97, R99) -/
  samp : List (Nat × Int) := []
  /-- tick at which the last catch or re-ranging slot ended: commands with an earlier t_a are not applied (04 R105, R112) -/
  relAt : Nat := 0
  /-- duty commands on their way to the edge scheduler: t_a and duty, the oldest first (04 R99) -/
  pipe : List (Nat × Int) := []
  /-- 8 bits, slew code in force (04 R110) -/
  slew : Nat := 0
  /-- tick at which RAIL_ENABLE was accepted (04 R113) -/
  tEn : Option Nat := none
  /-- the first wide-range sample has been taken (04 R111) -/
  first : Bool := false
  /-- the phases have begun to switch (04 R111) -/
  sw : Bool := false
  /-- consecutive settled wide-range samples (04 R112) -/
  wideN : Nat := 0
  /-- end of the 16th of them, at which the error-mode switch is due (04 R112) -/
  wideDue : Option Nat := none
  /-- START_TIMEOUT has been raised in this start-up (04 R113) -/
  ssOut : Bool := false
  /-- closing tick of the re-ranging slot (04 R112) -/
  rerange : Option Nat := none
  /-- an OV trip is in progress (04 R115) -/
  ovTrip : Bool := false
  /-- opening tick of the UV window (04 R116) -/
  uv : Option Nat := none
  /-- stamp of the last RVC_RANGE raised (04 R116) -/
  rangeAt : Option Nat := none
  /-- opening tick of the power-good window (04 R118) -/
  pgOn : Option Nat := none
  /-- opening tick of the power-good loss window (04 R118) -/
  pgOff : Option Nat := none
  /-- undershoot comparator asserted (04 R102) -/
  cmpU : Bool := false
  /-- overshoot comparator asserted (04 R102) -/
  cmpO : Bool := false
  /-- opening tick of an undershoot catch (04 R104) -/
  catU : Option Nat := none
  /-- opening tick of an overshoot catch (04 R104) -/
  catO : Option Nat := none
  /-- tick since which both comparators are asserted (04 R106) -/
  both : Option Nat := none
  /-- 128 bits, working home mask (05 R123, R128) -/
  maskH : Nat := 2^128 - 1
  /-- 128 bits, working neighbour mask (05 R123, R128) -/
  maskN : Nat := 2^128 - 1
  /-- pending mask (05 R128) -/
  maskP : Option (Nat × Nat) := none
  /-- PHASE_MASK descriptors waiting for the boundary (05 R128) -/
  maskOut : List Token := []
  /-- COEF_LOAD descriptor waiting for its swap (04 R97) -/
  coefOut : Option Token := none
  /-- COEF_LOADs that wait for the swap (04 R98) -/
  coefQ : List (Token × List Word) := []
  /-- RAIL_DISABLE descriptors waiting for OFF or FENCED (04 R108) -/
  enOut : List Token := []
  /-- tick on which the period counter started (04 R87) -/
  t0 : Option Nat := none
  /-- tick of the latest switching-period boundary (04 R87) -/
  lastB : Option Nat := none
  /-- tick of the latest entry from START into RUN (04 R107) -/
  runAt : Option Nat := none
  /-- tick of the latest entry into OFF from START, RUN or STOPPING (04 R107) -/
  offAt : Option Nat := none
  /-- tick of the latest RAIL_SET accepted (06 R177) -/
  setAt : Option Nat := none
  /-- phases added beyond the mask (05 R129) -/
  filled : List Nat := []
  /-- boundaries left of a re-interleave (05 R130) -/
  move : Nat := 0
  /-- a re-interleave is due at the next boundary (05 R133) -/
  moveN : Bool := false
  /-- opening tick of the rail over-current window (05 R143) -/
  ocW : Option Nat := none
  /-- heddle current filter, 1/16 A (05 R137) -/
  iF : Int := 0
  /-- the filter has been set since RUN was entered (05 R137) -/
  iFok : Bool := false
  /-- opening tick of the shedding dwell window (05 R137) -/
  dwell : Option Nat := none
  /-- tick on which MIN_PHASES was last raised (05 R144) -/
  minAt : Option Nat := none
  /-- boundaries since the last rotation check (05 R138) -/
  rotN : Nat := 0
  /-- a loaded efficiency table takes effect at the next boundary (05 R136) -/
  effPend : Bool := false
  /-- efficiency table words in effect (05 R136) -/
  effNow : List Word := []
  /-- the open or last speculation (06 R162) -/
  spec : Option SpecSt := none
  /-- holds of earlier confirmed speculations, the oldest first (06 R167) -/
  holds : List HoldSt := []
  /-- exact pre-bias of a confirmed speculation under removal while a shadow evaluation runs, 0.01 error code (06 R163, R175) -/
  pbRm : Int := 0
  /-- branch in whose domain the rail was fenced (09 R264; 03 R82) -/
  inDomain : Option Nat := none
  deriving DecidableEq, Repr

/-- One phase channel Pn (spec 05). -/
structure PhaseSt where
  /-- 6 bits, rail in whose warp the phase is (05 R127) -/
  rail : Option Nat := none
  /-- trimmed current, 1/16 A (05 R126) -/
  i : Int := 0
  /-- sum of the trimmed currents of the period (05 R134) -/
  acc : Int := 0
  /-- samples of the period (05 R134) -/
  cnt : Nat := 0
  /-- the weft gives the phase to the period window in progress (05 R122) -/
  active : Bool := false
  /-- opening tick of the OC window (05 R140) -/
  oc : Option Nat := none
  /-- opening tick of the NEG window (05 R140) -/
  neg : Option Nat := none
  /-- opening tick of the SHARE window (05 R135) -/
  share : Option Nat := none
  /-- consecutive TFLT samples at or above V(T_HOT) (05 R140) -/
  hotN : Nat := 0
  /-- consecutive saturated PCC codes (05 R140) -/
  satN : Nat := 0
  /-- the latest TFLT sample reports a temperature below T_RETRY (05 R141) -/
  cool : Bool := false
  /-- centre at the start of the move, interpolation steps (05 R130) -/
  cOld : Nat := 0
  /-- target centre (05 R130) -/
  cNew : Nat := 0
  /-- the branch or the neighbour link of the phase is out of service (05 R122, R127) -/
  held : Bool := false
  /-- branch in whose domain the phase was fenced (03 R82; 09 R264) -/
  byBranch : Option Nat := none
  /-- tick at which the period window of a leaving phase ends (05 R132) -/
  leave : Option Nat := none
  /-- reed trim, 2^-32 duty; PH_DELTA shows its low 32 bits (log 48) (05 R134) -/
  delta : Int := 0
  /-- iavg of the last period, 1/16 A; PH_IAVG shows its low 16 bits (log 48) (05 R134) -/
  iavg : Int := 0
  /-- heat estimate, 1/16 A; PH_HEAT shows its low 16 bits (log 48) (05 R138) -/
  heat : Nat := 0
  /-- tick of the last trip (05 R140; 02 R46) -/
  tripAt : Option Nat := none
  /-- on-time of the latest command, interpolation steps (04 R89) -/
  on : Nat := 0
  /-- first step at which a period window may open that holds a pulse (05 R132) -/
  joinAt : Nat := 0
  /-- centre of the period window of the pulse below, absolute interpolation step (04 R89) -/
  win : Option Nat := none
  /-- its leading edge, absolute interpolation step (04 R90) -/
  lead : Nat := 0
  /-- its trailing edge, absolute interpolation step; none with lead = trail (04 R90) -/
  trail : Nat := 0
  /-- leading edge of the pulse before it (04 R90) -/
  pLead : Nat := 0
  /-- trailing edge of the pulse before it (04 R90) -/
  pTrail : Nat := 0
  deriving DecidableEq, Repr

/-- One intent port IPn (spec 06). -/
structure PortSt where
  /-- 8 bits, sequence byte of the last accepted frame (06 R151) -/
  lastSeq : Option Nat := none
  /-- opening tick of the silence window (06 R156) -/
  silence : Option Nat := none
  /-- frames received in the present block of 64 (06 R156) -/
  blkN : Nat := 0
  /-- BAD frames in the present block (06 R156) -/
  blkBad : Nat := 0
  /-- 8 bits, sequence byte of the next frame sent (06 R151) -/
  txSeq : Nat := 0
  /-- frames ready to send (06 R154) -/
  txQ : List TxFrame := []
  /-- tick at which the lane is next free (06 R154) -/
  txBusy : Nat := 0
  /-- frames put on the transmit lane, the last first (output of the block) (06 R154) -/
  sent : List TxFrame := []
  /-- tick at which the port last left SEEK, UP or SILENT for DISABLED (06 R155) -/
  offAt : Option Nat := none
  /-- tick at which CURRENT frames were last queued (06 R154) -/
  curAt : Option Nat := none
  /-- the resolutions in the credit window, the latest first (06 R175) -/
  credit : List Bool := []
  deriving DecidableEq, Repr

/-- An UNFENCE descriptor that waits for the calibration of slices (spec 07). -/
structure CalWait where
  /-- the descriptor (07 R193) -/
  tok : Token := .modeReg
  /-- its slices that have not passed or failed yet (07 R193) -/
  left : List Nat := []
  /-- one of its slices has failed (07 R193) -/
  bad : Bool := false
  deriving DecidableEq, Repr

/-- One interleaved converter c (spec 07). -/
structure ConvSt where
  /-- per slice, opening tick + 1 of the limit window, 0 closed (07 R189) -/
  limit : List (Nat × Nat) := []
  /-- slices still to be calibrated (07 R194) -/
  calLeft : List Nat := []
  /-- tick at which the slice under calibration leaves service (07 R194) -/
  calStart : Nat := 0
  /-- tick at which the slice under calibration ends (07 R194) -/
  calEnd : Nat := 0
  /-- a slice failed in this cycle (07 R194) -/
  calFail : Bool := false
  /-- the UNFENCE descriptors that the cycle completes (07 R193) -/
  calUn : List CalWait := []
  /-- every slice is calibrated at once, on CONFIGURE entry (07 R196) -/
  calAll : Bool := false
  /-- tick of the last correction update (07 R188) -/
  corrAt : Nat := 0
  /-- per slice, the SKEW estimate last formed, held while the input is quiet (07 R188) -/
  skewEst : List (Nat × Int) := []
  /-- tick of the last sampling instant taken (07 R183) -/
  inst : Option Nat := none
  /-- standby oscillator cycle of the last instant taken in low-power mode (07 R217) -/
  lowInst : Option Nat := none
  deriving DecidableEq, Repr

/-- The sequencer of SCV k (spec 07). -/
structure ScvSt where
  /-- shadow table entries (default the active table) (07 R205) -/
  shadow : List (Nat × Word) := []
  /-- 6 bits, LEN of the committed load (07 R205) -/
  newLen : Nat := 0
  /-- SEQ_LOAD descriptors waiting for the swap (07 R205) -/
  loadOut : List Token := []
  /-- start tick of the pass in progress (07 R204) -/
  pass : Option Nat := none
  /-- instant of the last conversion of the pass (07 R203) -/
  last : Option Nat := none
  /-- first tick at which the next table conversion may be made (07 R203) -/
  due : Nat := 0
  /-- the pass has made its last conversion (07 R204) -/
  passDone : Bool := false
  /-- t_e of the pass (07 R204) -/
  tEnd : Nat := 0
  /-- tick of the accepted injected request (07 R207) -/
  injAt : Nat := 0
  /-- 6 bits, its position and ALT (07 R206) -/
  injSel : Nat := 0
  /-- its sampling instant (07 R207) -/
  injIns : Nat := 0
  /-- 16 bits, its converted value (07 R207) -/
  injVal : Nat := 0
  /-- it was sampled while its converter calibrated (07 R194, R207) -/
  injCal : Bool := false
  /-- time of the latest trigger, in the ticks that the entry die counts (07 R204) -/
  trigAt : Option Nat := none
  /-- due and tEnd are counted in cycles of the standby oscillator, 50 ticks each (07 R217) -/
  lowT : Bool := false
  /-- SEQ_SINGLE as the present pass took it (07 R200) -/
  single : Word := 0
  deriving DecidableEq, Repr

/-- One integrating converter (spec 07). -/
structure IcvSt where
  /-- opening tick of the period in progress (07 R211) -/
  opened : Nat := 0
  /-- length of the period in progress, units of its counting clock (160,000 for ICV 16-23) (07 R211) -/
  period : Nat := 320000
  /-- the period is counted in standby oscillator cycles (07 R211) -/
  stdby : Bool := true
  deriving DecidableEq, Repr

/-- Sage for one pack (spec 08). -/
structure SageSt where
  /-- binary32, filter state of charge (08 R225) -/
  soc : Word := 0
  /-- binary32, first RC voltage (08 R225) -/
  v1 : Word := 0
  /-- binary32, second RC voltage (08 R225) -/
  v2 : Word := 0
  /-- nine binary32 values, the covariance, row by row (08 R225) -/
  cov : List Word := []
  /-- binary32, counted state of charge (08 R226) -/
  cnt : Word := 0
  /-- reported state of charge, 2^-16 of 0.01% (08 R233) -/
  rep : Nat := 0
  /-- signed 24 bits, latest current result (08 R219) -/
  iCode : Int := 0
  /-- 24 bits, latest voltage result (08 R219) -/
  vCode : Nat := 0
  /-- the latest current result has OVR (08 R232) -/
  ovr : Bool := false
  /-- consecutive voltage results at or above PRES_V (08 R227) -/
  hiN : Nat := 0
  /-- consecutive voltage results below PRES_V (08 R227) -/
  loN : Nat := 0
  /-- ICV periods counted (08 R221) -/
  per : Nat := 0
  /-- period at which settling began (08 R227) -/
  settle : Option Nat := none
  /-- period at which the rest window opened (08 R228) -/
  restO : Option Nat := none
  /-- number of the unbroken rest (08 R232) -/
  restId : Nat := 0
  /-- start point: its SoC and its rest number (08 R232) -/
  start : Option (Word × Nat) := none
  /-- binary32, charge since the start point, Ah (08 R232) -/
  dq : Word := 0
  /-- period at which the empty window opened (08 R236) -/
  empty : Option Nat := none
  /-- signed 16 bits, temperature in use, 0.05 C (08 R220) -/
  temp : Int := 500
  /-- consecutive periods without a thermistor sample (08 R220) -/
  tN : Nat := 0
  /-- a thermistor sample has arrived in this period (08 R220) -/
  tNew : Bool := false
  /-- T_FIXED is used for want of thermistor samples (08 R220) -/
  tStale : Bool := false
  /-- signed 16 bits, temperature at the last accepted capacity learn (08 R239) -/
  learnT : Int := 0
  /-- the last capacity learn was suspect (08 R239) -/
  suspect : Bool := false
  /-- 32 bits, GEN of the last record written (08 R238) -/
  lastGen : Nat := 0
  /-- period of the last record written (08 R238) -/
  lastPer : Nat := 0
  /-- PACK_READ descriptors waiting for the record (08 R243) -/
  reads : List Token := []
  /-- stamp, current and voltage codes of the ECV samples of the last 10 ms, the newest first (08 R229, R230) -/
  hist : List (Nat × Int × Nat) := []
  /-- start of the step under measurement (08 R229) -/
  t0 : Option Nat := none
  /-- sum of the 16 current codes before the step (08 R229) -/
  iPre : Int := 0
  /-- sum of the 16 voltage codes before the step (08 R229) -/
  vPre : Nat := 0
  /-- the 10 ms before the step were quiet (08 R230) -/
  quiet : Bool := false
  /-- the step has qualified (08 R229) -/
  qualified : Bool := false
  /-- sum of the 8 current codes of I_5 (08 R229) -/
  i5 : Int := 0
  /-- sum of the 8 voltage codes of V_5 (08 R229) -/
  v5 : Nat := 0
  deriving DecidableEq, Repr

/-- Reporting state of one fault record slot (spec 09). -/
structure SlotSt where
  /-- opening tick of the merge window (09 R257) -/
  win : Option Nat := none
  /-- an occurrence was merged since the last report (09 R257) -/
  merged : Bool := false
  /-- a report was lost or not written (09 R258; 12 R328) -/
  lost : Bool := false
  deriving DecidableEq, Repr

/-- One host ring or internal ring (spec 12). -/
structure RingSt where
  /-- event records that wait for room, the oldest first (12 R328) -/
  held : List (List Byte) := []
  /-- held TIME_EPOCH record (12 R328) -/
  epoch : Option (List Byte) := none
  /-- records since the last raise (12 R329) -/
  itrN : Nat := 0
  /-- tick of the first record since the last raise (12 R329) -/
  itrAt : Option Nat := none
  /-- tick since which the ring is full with a record waiting (12 R330) -/
  fullAt : Option Nat := none
  /-- 32 bits, fetch index of a command ring (12 R322) -/
  fetched : Nat := 0
  /-- tick of the fetch in progress (12 R330) -/
  fetchAt : Option Nat := none
  deriving DecidableEq, Repr

/-- One thread (spec 12). -/
structure ThreadSt where
  /-- 8 bits, STATE before a fence (12 R340) -/
  old : Nat := 0
  /-- per tag, entries seen since opening or in the partial window (12 R337) -/
  last : List (Nat × Nat) := []
  /-- per tag, entries of the partial AVERAGE or MINMAX window (12 R337) -/
  part : List (Nat × List Entry) := []
  /-- pre-trigger store, the oldest first (12 R338) -/
  store : List Entry := []
  /-- 32 bits, entries still to pass after the trigger (12 R338) -/
  left : Nat := 0
  /-- entries of the open THREAD_DATA record (12 R342) -/
  data : List Entry := []
  /-- tick on which its first entry was produced (12 R342) -/
  dataAt : Nat := 0
  /-- open blocks (13 R372) -/
  blocks : List Block := []
  /-- tick of arming (12 R338) -/
  armAt : Nat := 0
  /-- THREAD_CLOSE that waits for the output (12 R340) -/
  closing : Option Token := none
  /-- the first drop has been reported (12 R343; 13 R368) -/
  dropping : Bool := false
  /-- 32 bits, entries dropped since the previous block (13 R370) -/
  lost : Nat := 0
  /-- current archive page: index, bytes used, first and last block stamps (12 R343) -/
  page : Option (Nat × Nat × Nat × Nat) := none
  /-- free-running byte count W (12 R344) -/
  wr : Nat := 0
  /-- 32 bits, 64 KiB units returned (12 R344) -/
  rd : Nat := 0
  /-- per tag, entries produced since the last change of K (13 R369) -/
  decN : List (Nat × Nat) := []
  /-- host budget the thread commits, bit/s (12 R341) -/
  rate : Nat := 0
  deriving DecidableEq, Repr

/-- Ring engine, host rings, fences, archive and host memory (spec 12). -/
structure HostSt where
  /-- host memory, 2^48 bytes, canonical list of address and byte (12 R313) -/
  mem : Mem := []
  /-- outstanding descriptors, in order of fetch (12 R322) -/
  out : List Out := []
  /-- next ring code of the round-robin (12 R322) -/
  rr : Nat := 0
  /-- MSI-X vectors raised, the last first (output of the block) (12 R329) -/
  msix : List Nat := []
  /-- vectors pending while masked (17 R455) -/
  pba : List Nat := []
  /-- tick of the next heartbeat (12 R313) -/
  hb : Nat := 0
  /-- fences that wait or place their markers (12 R346) -/
  fences : List FenceSt := []
  /-- the spool's free pages, in order (12 R343) -/
  pool : List Nat := []
  /-- archive pages reported and not returned, in report order (12 R343) -/
  rep : List Nat := []
  /-- 32 bits, pages returned (12 R343) -/
  ret : Nat := 0
  /-- forwarded entries on their way to the hub, in order (01 R15; 07 R216) -/
  fwd : List Entry := []
  /-- claims that hold an entry which was FREE when the present core and fabric clock began: the clock, the resource ID, the agent and the descriptor (01 R24) -/
  claims : List (Nat × Nat × Nat × Token) := []
  /-- number of the next outstanding descriptor (the model's own) (log 10) -/
  nextId : Nat := 0
  /-- per accessor agent, 32-bit value its last register read returned (output of the block) (00 R4; 17 R448) -/
  rdata : KV Nat := []
  /-- 8 bits, SUM AND EN on the previous evaluation (17 R455) -/
  sumPrev : Nat := 0
  /-- the PCIe link is down and the host has enabled no ring since (12 R331) -/
  down : Bool := false
  /-- tick, unit and ring code of the descriptors that took effect on the last such tick (12 R323) -/
  took : List (Nat × Nat × Nat) := []
  deriving DecidableEq, Repr

/-- One stream virtual channel (spec 13). -/
structure VcSt where
  /-- queued blocks and markers, in order (13 R367) -/
  q : List Block := []
  /-- bytes of the head block already sent (13 R367) -/
  off : Nat := 0
  /-- tick of the last change of K (13 R369) -/
  holdAt : Option Nat := none
  /-- 8 bits, DATA flits since UP (13 R356) -/
  seq : Nat := 0
  /-- flits sent in the present turn (13 R367) -/
  turn : Nat := 0
  deriving DecidableEq, Repr

/-- A codeword of one transmit lane before coding (spec 13). -/
structure TxCw where
  /-- physical lane 0-7 (13 R352) -/
  lane : Nat := 0
  /-- 12 bits, codeword count (13 R352) -/
  cwc : Nat := 0
  /-- its 640 bytes of the flit stream (13 R352, R354) -/
  data : List Byte := []
  deriving DecidableEq, Repr

/-- A codeword of a receive lane in use whose round is not yet assembled (spec 13). -/
structure RxCw where
  /-- the receive lane 0-7 (13 R353) -/
  lane : Nat := 0
  /-- 12 bits, codeword count (13 R353) -/
  cwc : Nat := 0
  /-- its bytes of the flit stream; none: uncorrectable (13 R355) -/
  data : Option (List Byte) := none
  deriving DecidableEq, Repr

/-- The stream link (spec 13). -/
structure StreamSt where
  /-- VC whose turn it is (13 R367) -/
  cur : Nat := 0
  /-- 12 bits, codeword count of the transmit round (13 R352) -/
  cwc : Nat := 0
  /-- 64-byte stripes sent in the present round (13 R354) -/
  stripe : Nat := 0
  /-- their bytes, in order (13 R354) -/
  buf : List Byte := []
  /-- codewords sent, the last first (output of the block) (13 R352-R354) -/
  txCw : List TxCw := []
  /-- multiple of 800 ticks at or after which the next CTRL flit is sent (13 R357) -/
  ctrlAt : Nat := 0
  /-- per receive lane, good codewords in a row while unlocked (13 R355) -/
  lockN : KV Nat := []
  /-- per receive lane, bad codewords in a row while locked (13 R355) -/
  badN : KV Nat := []
  /-- per receive lane, opening tick + 1 of the window of uncorrectable codewords, 0 closed (13 R364) -/
  ucAt : KV Nat := []
  /-- per receive lane, uncorrectable codewords of that window (13 R364) -/
  ucN : KV Nat := []
  /-- 8 bits, TX_BAD of the previous peer CTRL (13 R364) -/
  txBad : Nat := 0
  /-- stamp of the last valid peer CTRL in UP (13 R363) -/
  peerAt : Option Nat := none
  /-- opening tick of the training window (13 R361) -/
  trainAt : Nat := 0
  /-- 8 bits, LOCK of the last peer TRAIN (13 R360) -/
  peerLock : Nat := 0
  /-- 8 bits, SENDING of the last peer TRAIN (13 R360) -/
  peerSend : Nat := 0
  /-- the last peer TRAIN said READY (13 R360) -/
  peerRdy : Bool := false
  /-- a valid TRAIN showed at least one transmit lane (13 R360) -/
  peerOk : Bool := false
  /-- consecutive rounds of agreement (13 R360) -/
  agree : Nat := 0
  /-- per receive lane, the CWC of its next codeword + 1, 0 unknown (13 R353) -/
  rxNext : KV Nat := []
  /-- per receive lane, LANE of its last good codeword (13 R352, R354) -/
  rxLane : KV Nat := []
  /-- received codewords whose round is not yet assembled (13 R353) -/
  rxCw : List RxCw := []
  /-- CWC of the next round to assemble (13 R353) -/
  rxAt : Option Nat := none
  /-- assembled stripes that no flit has yet taken; none: a stripe of an uncorrectable codeword (13 R354, R355) -/
  rxBuf : List (Option (List Byte)) := []
  /-- a round of even CWC has been assembled since the receive lanes in use last changed (13 R354; log 14) -/
  rxSync : Bool := false
  /-- flits received and delivered, the last first (13 R355) -/
  rxFlit : List (List Byte) := []
  /-- flits put on the transmit lanes, the last first (output of the block) (13 R357) -/
  txOut : List (List Byte) := []
  /-- 16 bits, lanes that count as failing and are not yet fenced: 0-7 transmit, 8-15 receive (13 R364, R365) -/
  failing : Nat := 0
  deriving DecidableEq, Repr

/-- One two-wire block (spec 14). -/
structure TwSt where
  /-- per window (0-3 byte, 4-6 privileged, 7 PMBus), pointer (14 R388, R389) -/
  ptr : List (Nat × Nat) := []
  /-- 3 bits, window last addressed (14 R376, R393) -/
  lastWin : Nat := 0
  /-- the transfer that addressed it last reads (14 R393) -/
  reading : Bool := false
  /-- SDA level accepted (14 R378) -/
  sda : Bool := true
  /-- no level of SDA has been accepted since the block's reset (14 R378, R381) -/
  sdaUnk : Bool := false
  /-- SCL level accepted (14 R378) -/
  scl : Bool := true
  /-- SDA level on the last peripheral clock (14 R378) -/
  rawSda : Bool := true
  /-- SCL level on the last peripheral clock (14 R378) -/
  rawScl : Bool := true
  /-- the first peripheral clock of the present run of that SDA level (14 R378) -/
  sdaAt : Nat := 0
  /-- the first peripheral clock of the present run of that SCL level (14 R378) -/
  sclAt : Nat := 0
  /-- opening tick of the window of SCL held low (14 R379) -/
  sclLow : Option Nat := none
  /-- tick since which SDA is low with SCL high (14 R383) -/
  heldAt : Option Nat := none
  /-- SCL fell after a START, and no STOP has come (14 R380, R381) -/
  busy : Bool := false
  /-- tick at which the bus clear began (14 R382) -/
  clrAt : Nat := 0
  /-- tick of the START of the controller's transfer (14 R386) -/
  xAt : Nat := 0
  /-- tick since which both lines are high (14 R380) -/
  hiAt : Option Nat := some 0
  /-- that run of high lines began with a STOP (14 R380) -/
  stop : Bool := false
  /-- t_f of the SDA fall being classified (14 R381) -/
  fall : Option Nat := none
  /-- the clear was started by a GO (14 R382) -/
  clrGo : Bool := false
  /-- a controller transfer waits for the bus (14 R386) -/
  goPend : Bool := false
  /-- an Alert Response read waits for the bus (14 R384) -/
  araPend : Bool := false
  /-- arbitration losses of the transfer (14 R387) -/
  tries : Nat := 0
  /-- arbitration losses of the Alert Response read (14 R384, R387) -/
  araTries : Nat := 0
  /-- bytes the controller sent in its last transfer, addresses and PEC included (output of the block) (14 R386) -/
  sent : List Byte := []
  /-- tick at which the attention hold began (14 R385) -/
  attAt : Option Nat := none
  deriving DecidableEq, Repr

/-- TW0's mailbox and PMBus state (spec 14). -/
structure BmcSt where
  /-- mailbox descriptor bytes 0-63 (14 R391) -/
  box : List (Nat × Byte) := []
  /-- completion record of the mailbox (14 R391) -/
  compl : List Byte := []
  /-- mailbox BUSY (14 R391) -/
  busy : Bool := false
  /-- PMBus PAGE 0-79 (14 R395) -/
  page : Nat := 0
  /-- CML (14 R396) -/
  cml : Bool := false
  /-- bytes of the last PMBus or target answer (output of the block) (14 R395) -/
  resp : List Byte := []
  /-- the last byte was not acknowledged (output of the block) (14 R397) -/
  nack : Bool := false
  deriving DecidableEq, Repr

/-- One Mograthes core (spec 15). -/
structure CoreSt where
  /-- 32 bits, PC (15 R404) -/
  pc : Nat := 0
  /-- 32 bits, frame base (15 R404) -/
  fb : Word := 0x00040000
  /-- 32 bits, stack pointer (15 R404) -/
  sp : Word := 0x00040000
  /-- 32 bits, FLAGS (15 R404, R405) -/
  flags : Word := 0x00000300
  /-- 64 bits, LOOP (15 R404, R417) -/
  loop : BitVec 64 := 0
  /-- the WAIT in progress (15 R419) -/
  wait : Option WaitSt := none
  /-- tick and core-map address of the host window read the core is stalled on (15 R401, R422) -/
  hostRd : Option (Nat × Nat) := none
  /-- addresses and values of the host window reads that have completed for the instruction in progress (15 R401) -/
  hostBuf : List (Nat × Nat) := []
  /-- the slot file: what it holds of slots 0-15 of the current frame, 64 bits each; a slot not held is read in memory (15 R415) -/
  slots : List (Option Nat) := []
  /-- tick (standby cycle for the KC while the hub is absent) since which RUNNING or WAITING is not yet counted in CORE_CYCLES (15 R423) -/
  ran : Option Nat := none
  /-- opening tick of the watchdog window (15 R426) -/
  wdt : Option Nat := none
  /-- ticks that the open watchdog window counted on the clock that the KC left (15 R426) -/
  wdtPast : Nat := 0
  /-- resource IDs whose entries were fenced with the core (15 R422; 01 R27) -/
  fenced : List Nat := []
  deriving DecidableEq, Repr

/-- Protected memories (spec 16). -/
structure MemSt where
  /-- contents of core, die shared and hub shared memory, key bank x 2^20 + offset (16 R429; 15 R400) -/
  data : Mem := []
  /-- per granule (key bank x 2^20 + granule), stored bits that differ from a clean granule (16 R432) -/
  err : List (Nat × BitVec 80) := []
  /-- banks still initialising (16 R438) -/
  init : List Nat := []
  /-- accesses on the bus to those banks, waiting for the initialiser (16 R438) -/
  stall : List Instr := []
  /-- per region (0 hub, 1-4 loom, 5 entry), scrub visits of the window (16 R441) -/
  scrub : List (Nat × Nat) := []
  /-- per region, opening tick of the scrub window (16 R441) -/
  scrubAt : List (Nat × Nat) := []
  /-- mirrored banks being copied from their partner (16 R440) -/
  copying : List Nat := []
  /-- UNFENCE descriptors that the copies complete (16 R440) -/
  copyOut : List (Nat × Token) := []
  deriving DecidableEq, Repr

/-- Selvage and fault messages (spec 09). -/
structure FaultSt where
  /-- per unit (TCLASS x 4096 + index), 1 + the unit in whose domain it was fenced, 0 none (09 R264) -/
  dom : KV Nat := []
  /-- fault messages that reach the selvage, in the order of R254 (09 R254) -/
  msgs : List FMsg := []
  /-- per die (0-3 loom, 4 entry), the queue of 32 held messages (09 R259) -/
  dieQ : List (Nat × List FMsg) := []
  /-- per die, messages that found the queue full (09 R259) -/
  dieLost : List (Nat × Nat) := []
  /-- FLT_RING has been set up (09 R258) -/
  ring : Bool := false
  /-- tick at which the armed injection occurs (09 R269) -/
  inj : Option Nat := none
  /-- the occurrence being raised comes from an injection (09 R269) -/
  forced : Bool := false
  /-- per ownership entry (resource ID), STATE before its fence (01 R27) -/
  owner : List (Nat × Nat) := []
  deriving DecidableEq, Repr

/-- Keep of the entry die (spec 02). -/
structure KeepSt where
  /-- the hold logic of keep governs the channels: from keep entry to the release (02 R57, R60) -/
  on : Bool := false
  /-- standby cycle of keep entry (02 R57) -/
  since : Nat := 0
  /-- KEEP_TIME has expired: keep has ended, its release is still to come (02 R60) -/
  expired : Bool := false
  /-- KEEP_STAY as sampled when the entry die left reset (02 R60) -/
  stay : Bool := false
  /-- 13 bits, KEEP_TIME in force at keep entry (02 R59, R60; 10 R276) -/
  time : Nat := 0
  /-- CONFIGURE was entered in keep; the channel row of R484 waits for the release (10 R484) -/
  relWait : Bool := false
  deriving DecidableEq, Repr

/-- Die links (specs 01, 09, 11). -/
structure LinkSt where
  /-- 8 bits, fenced links: 0-3 hub links, 4-6 neighbour links, 7 entry link (09 R260) -/
  fenced : Nat := 0
  /-- 8 bits, lost links (09 R246) -/
  lost : Nat := 0
  /-- per die (0-3 loom, 4 entry), the last Thyme tick the die received (09 R259) -/
  lastTick : KV Nat := []
  deriving DecidableEq, Repr

/-- A register word that hardware updated in the present core and fabric clock (spec 00 R5). -/
structure HwRec where
  /-- 32 bits, the word before the clock's first hardware update, without what an RC read of the clock has taken (00 R5) -/
  old : Word := 0
  /-- 32 bits, what the clock's hardware updates contributed: bits set, amounts added (00 R5) -/
  upd : Word := 0
  deriving DecidableEq, Repr

/-- Hardware updates of W1C and RC fields in one core and fabric clock (spec 00 R5). -/
structure HwSt where
  /-- the core and fabric clock, or the standby cycle while the hub is in reset, of the updates held (00 R5) -/
  clock : Nat × Nat := (0, 0)
  /-- per BAR0 offset, the update of that clock (00 R5) -/
  words : List (Nat × HwRec) := []
  /-- per BAR0 offset, the accessor whose read on the bus came first by R29 in that clock, and the RC bits it took (17 R453) -/
  reads : List (Nat × Nat × Word) := []
  /-- per BAR0 offset, the highest master agent that has written the register in that clock (17 R453) -/
  writers : List (Nat × Nat) := []
  /-- the Thyme tick and standby cycle of the words held in pre (17 R453) -/
  tick : Nat × Nat := (0, 0)
  /-- writes that a register rule has ignored, counted (10 R279; 17 R450) -/
  ign : Nat := 0
  /-- per BAR0 offset written on that tick, the word before the first write (17 R453) -/
  pre : List (Nat × Word) := []
  deriving DecidableEq, Repr

/-- The block (01_architecture.md R9): the registers, and the state of each unit. -/
structure Dev where
  /-- register words by BAR0 offset, canonical under `KV.wf resetWord` (17 R447) -/
  regs : KV Word := []
  /-- clocks, Thyme and PPS -/
  clk : ClockSt := {}
  /-- modes, boot, power sequencer, hold-up, SAFE -/
  mode : ModeSt := {}
  /-- entry channels E0-E15 -/
  ent : KV EntrySt := []
  /-- branch channels B0-B63 -/
  br : KV BranchSt := []
  /-- retry machines by unit u of RETRY_STAT -/
  retry : KV RetrySt := []
  /-- rails 0-63 -/
  rail : KV RailSt := []
  /-- phases P0-P511 -/
  ph : KV PhaseSt := []
  /-- intent ports IP0-IP31 -/
  port : KV PortSt := []
  /-- interleaved converters by index c -/
  conv : KV ConvSt := []
  /-- scan converter sequencers -/
  scv : KV ScvSt := []
  /-- integrating converters -/
  icv : KV IcvSt := []
  /-- Sage by pack -/
  sage : KV SageSt := []
  /-- fault record slots -/
  slot : KV SlotSt := []
  /-- host rings by ring code 0-0x17F; internal command ring of core c at 0x2C0 + c (its block IRc in the stride of R315), its completion ring at 0x2E0 + c -/
  ring : KV RingSt := []
  /-- threads -/
  thr : KV ThreadSt := []
  /-- result queue segments: the entries held, the oldest first (07 R216) -/
  rq : KV (List Entry) := []
  /-- RQ_POP_HI by segment and accessor (key 256 s + agent): bits 63:32 of the entry last removed (07 R216) -/
  rqHi : KV Nat := []
  /-- per segment, the granule of its bank that holds the head entry; later entries follow it around (16 R429; log 49) -/
  rqHead : KV Nat := []
  /-- ring engine, host memory -/
  host : HostSt := {}
  /-- stream virtual channels -/
  vc : KV VcSt := []
  /-- stream link -/
  stream : StreamSt := {}
  /-- two-wire blocks -/
  tw : KV TwSt := []
  /-- mailbox and PMBus of TW0 -/
  bmc : BmcSt := {}
  /-- cores -/
  core : KV CoreSt := []
  /-- protected memories -/
  mem : MemSt := {}
  /-- selvage -/
  flt : FaultSt := {}
  /-- keep of the entry die -/
  keep : KeepSt := {}
  /-- die links -/
  link : LinkSt := {}
  /-- hardware updates of W1C and RC fields in the present core and fabric clock (00 R5) -/
  hw : HwSt := {}
  /-- words written in CONFIGURE that their units sample on leaving it, by BAR0 offset (10 R283; 02 R33, 03 R64, 04 R85, 05 R123) -/
  stg : KV (Option Word) := []
  deriving DecidableEq, Repr

/-- The machine: the block, and the commands that wait, first in, first out. -/
structure State where
  dev : Dev
  pending : List Instr
  deriving DecidableEq, Repr

/-- Right after VSTBY has risen: STANDBY, every register at its Reset value, every queue and memory empty
(10_modes_startup.md R271, R273; log 3, log 4). -/
def State.reset : State := { dev := {}, pending := [] }

end Sys2Proof.Machine
end

