-- ==== Sys2Proof/Machine/Ops.lean ====
section
/-! DEFINITION. The shared operations: registers, unit tables, modes, links, time, fault messages, completions and resource
ownership. -/

namespace Sys2Proof.Machine

/-! ## Registers -/

/-- The word at a BAR0 offset. -/
def Dev.word (d : Dev) (off : Nat) : Word := KV.get resetWord d.regs off

/-- The block with `w` at a BAR0 offset. -/
def Dev.setWord (d : Dev) (off : Nat) (w : Word) : Dev := { d with regs := KV.put resetWord d.regs off w }

/-- The value of a field. -/
def Dev.rd (d : Dev) (f : Fld) : Nat := f.get (d.word f.off)

/-- A one-bit field is 1. -/
def Dev.on (d : Dev) (f : Fld) : Bool := d.rd f == 1

/-- The two's complement value of a field. -/
def Dev.rds (d : Dev) (f : Fld) : Int := sext f.len (d.rd f)

/-- The block with the field set to the low bits of `v`. -/
def Dev.wr (d : Dev) (f : Fld) (v : Nat) : Dev := d.setWord f.off (f.put (d.word f.off) v)

/-- The block with the field set to a signed value. -/
def Dev.wri (d : Dev) (f : Fld) (v : Int) : Dev := d.wr f (trunc f.len v)

/-- The clock in which a hardware update and an access collide: the core and fabric clock, or the standby cycle while the hub is in
reset (00_scope.md R5). -/
def Dev.hwClock (d : Dev) : Nat × Nat := if d.clk.hub then (d.clk.now / 2, 0) else (d.clk.now / 2, d.clk.sb + 1)

/-- What hardware has done to a register word in the present clock. -/
def Dev.hwRec (d : Dev) (off : Nat) : Option HwRec :=
  if d.hw.clock = d.hwClock then (d.hw.words.find? fun x => x.1 == off).map (·.2) else none

/-- The hardware updates of the clock with one more: `g` adds to what the updates of the word contribute (00_scope.md R5). -/
def Dev.hwSt (d : Dev) (off : Nat) (g : Word → Word) : HwSt :=
  let r : HwRec := (d.hwRec off).getD { old := d.word off, upd := 0 }
  let ws := if d.hw.clock = d.hwClock then d.hw.words.filter fun x => x.1 != off else []
  { d.hw with clock := d.hwClock, words := (off, { r with upd := g r.upd }) :: ws,
              writers := if d.hw.clock = d.hwClock then d.hw.writers else [] }

/-- Hardware writes a flag or field that software clears or reads clear: it survives an access of the same clock (00_scope.md R5). -/
def Dev.hwWr (d : Dev) (f : Fld) (v : Nat) : Dev := { d.wr f v with hw := d.hwSt f.off fun u => f.put u v }

/-- The block with a saturating counter field advanced by `k` by hardware. -/
def Dev.bump (d : Dev) (f : Fld) (k : Nat := 1) : Dev :=
  { d.wr f (satAdd (2 ^ f.len - 1) (d.rd f) k) with
    hw := d.hwSt f.off fun u => f.put u (satAdd (2 ^ f.len - 1) (f.get u) k) }

/-- The block with bit `b` of an event field set by hardware. -/
def Dev.evt (d : Dev) (f : Fld) (b : Nat) : Dev :=
  { d.wr f (setBit (d.rd f) b) with hw := d.hwSt f.off fun u => f.put u (setBit (f.get u) b) }

/-- What an RC read takes from a word: the value before the updates of the same clock; and the word after it, which holds only what
those updates contributed (00_scope.md R5). -/
def Dev.rcTake (d : Dev) (off : Nat) (rc : Word) : Dev × Word :=
  let w := d.word off
  match d.hwRec off with
  | none => (d.setWord off (w &&& ~~~rc), w &&& rc)
  | some r =>
    let d := d.setWord off ((w &&& ~~~rc) ||| (r.upd &&& rc))
    ({ d with hw := { d.hw with words := d.hw.words.map fun x =>
        if x.1 = off then (off, { x.2 with old := x.2.old &&& ~~~rc }) else x } }, r.old &&& rc)

/-- Software writes a register: the highest agent that has written it in the present clock, and the word it held before the present
tick's writes, are kept (17_register_map.md R453). -/
def Dev.swNote (d : Dev) (off agent : Nat) (w : Word) : Dev :=
  let tick := (d.clk.now, d.clk.sb)
  let now := d.hw.clock = d.hwClock
  let ws := if now then d.hw.writers else []
  let pre := if d.hw.tick = tick then d.hw.pre else []
  let top := max agent (((ws.find? fun x => x.1 == off).map (·.2)).getD 0)
  { d with hw := { clock := d.hwClock, words := if now then d.hw.words else [],
                   reads := if now then d.hw.reads else [],
                   writers := (off, top) :: ws.filter (fun x => x.1 != off), tick := tick,
                   pre := if pre.any (fun x => x.1 == off) then pre else (off, w) :: pre } }

/-- An agent above `agent` has written the register in the present clock: its write leaves the value (17_register_map.md R453). -/
def Dev.swOver (d : Dev) (off agent : Nat) : Bool :=
  decide (d.hw.clock = d.hwClock) && d.hw.writers.any fun x => x.1 == off && decide (agent < x.2)

/-- The word that a hardware action of the present tick samples: the one before the tick's writes (17_register_map.md R453). -/
def Dev.preWord (d : Dev) (off : Nat) : Option Word :=
  if d.hw.tick = (d.clk.now, d.clk.sb) then (d.hw.pre.find? fun x => x.1 == off).map (·.2) else none

/-- The word of a register as an accessor sees it: one that its unit samples on leaving CONFIGURE shows what was written there
(02_power_entry.md R33). -/
def Dev.regWord (d : Dev) (off : Nat) : Word := (KV.get (fun _ => none) d.stg off).getD (d.word off)

/-- A register that its unit samples on leaving CONFIGURE takes a written word there (02_power_entry.md R33). -/
def Dev.stage (d : Dev) (off : Nat) (w : Word) : Dev :=
  { d with stg := KV.put (fun _ => none) d.stg off (if w = d.word off then none else some w) }

/-- A command or hardware writes a register that its unit samples on leaving CONFIGURE: a word written there before waits no more. -/
def Dev.setNow (d : Dev) (off : Nat) (w : Word) : Dev := { d.setWord off w with stg := KV.put (fun _ => none) d.stg off none }

/-- A configuration register of a two-wire block, which takes effect when the block is next idle with the bus free (14_two_wire.md
R376). -/
def twStaged (off : Nat) : Bool := decide (0xC000 ≤ off ∧ off < 0xD000 ∧ off % 256 < 0x20)

/-- The units sample their configuration registers: the words written in CONFIGURE act, but for one written on this very tick
(10_modes_startup.md R283; 17_register_map.md R453). -/
def Dev.commit (d : Dev) : Dev :=
  { d with
    regs := d.stg.foldl (fun r x => match x.2 with
      | none => r
      | some w => if twStaged x.1 then r else KV.put resetWord r x.1 ((d.preWord x.1).getD w)) d.regs
    stg := d.stg.filter fun x => (d.preWord x.1).isSome || twStaged x.1 }

/-- The bits of a word that hardware set in the present clock: a W1C write of the clock does not clear them (00_scope.md R5). -/
def Dev.hwBits (d : Dev) (off : Nat) : Word := ((d.hwRec off).map (·.upd)).getD 0

/-- The block with bit `b` of a field made `v`. -/
def Dev.wrBit (d : Dev) (f : Fld) (b : Nat) (v : Bool) : Dev :=
  d.wr f (if v then setBit (d.rd f) b else clrBit (d.rd f) b)

/-- Bit `b` of a field. -/
def Dev.rdBit (d : Dev) (f : Fld) (b : Nat) : Bool := (d.rd f).testBit b

/-! ## Unit tables -/

/-- An association from numbers with 0 where nothing is listed. -/
def nget (m : KV Nat) (k : Nat) : Nat := KV.get (fun _ => 0) m k

/-- The association with `v` at `k`. -/
def nput (m : KV Nat) (k v : Nat) : KV Nat := KV.put (fun _ => 0) m k v

/-- Entry channel `n`. -/
def Dev.E (d : Dev) (n : Nat) : EntrySt := KV.get (fun _ => {}) d.ent n
/-- The block with entry channel `n` changed. -/
def Dev.onE (d : Dev) (n : Nat) (f : EntrySt → EntrySt) : Dev := { d with ent := KV.put (fun _ => {}) d.ent n (f (d.E n)) }
/-- Branch channel `n`. -/
def Dev.B (d : Dev) (n : Nat) : BranchSt := KV.get (fun _ => {}) d.br n
/-- The block with branch channel `n` changed. -/
def Dev.onB (d : Dev) (n : Nat) (f : BranchSt → BranchSt) : Dev := { d with br := KV.put (fun _ => {}) d.br n (f (d.B n)) }
/-- Retry machine `u`. -/
def Dev.RT (d : Dev) (u : Nat) : RetrySt := KV.get (fun _ => {}) d.retry u
/-- The block with retry machine `u` changed. -/
def Dev.onRT (d : Dev) (u : Nat) (f : RetrySt → RetrySt) : Dev := { d with retry := KV.put (fun _ => {}) d.retry u (f (d.RT u)) }
/-- Rail `r`. -/
def Dev.R (d : Dev) (r : Nat) : RailSt := KV.get (fun _ => {}) d.rail r
/-- The block with rail `r` changed. -/
def Dev.onR (d : Dev) (r : Nat) (f : RailSt → RailSt) : Dev := { d with rail := KV.put (fun _ => {}) d.rail r (f (d.R r)) }
/-- Phase `p`. -/
def Dev.P (d : Dev) (p : Nat) : PhaseSt := KV.get (fun _ => {}) d.ph p
/-- The block with phase `p` changed. -/
def Dev.onP (d : Dev) (p : Nat) (f : PhaseSt → PhaseSt) : Dev := { d with ph := KV.put (fun _ => {}) d.ph p (f (d.P p)) }
/-- Intent port `n`. -/
def Dev.IP (d : Dev) (n : Nat) : PortSt := KV.get (fun _ => {}) d.port n
/-- The block with intent port `n` changed. -/
def Dev.onIP (d : Dev) (n : Nat) (f : PortSt → PortSt) : Dev := { d with port := KV.put (fun _ => {}) d.port n (f (d.IP n)) }
/-- Interleaved converter `c`. -/
def Dev.C (d : Dev) (c : Nat) : ConvSt := KV.get (fun _ => {}) d.conv c
/-- The block with converter `c` changed. -/
def Dev.onC (d : Dev) (c : Nat) (f : ConvSt → ConvSt) : Dev := { d with conv := KV.put (fun _ => {}) d.conv c (f (d.C c)) }
/-- SCV sequencer `k`. -/
def Dev.SQ (d : Dev) (k : Nat) : ScvSt := KV.get (fun _ => {}) d.scv k
/-- The block with SCV sequencer `k` changed. -/
def Dev.onSQ (d : Dev) (k : Nat) (f : ScvSt → ScvSt) : Dev := { d with scv := KV.put (fun _ => {}) d.scv k (f (d.SQ k)) }
/-- Integrating converter `n` when VSTBY rises: the periods of ICV 16-23 are 10 ms (07_conversion.md R209, R211). -/
def icvDflt (n : Nat) : IcvSt := if n < 16 then {} else { period := 160000 }
/-- Integrating converter `n`. -/
def Dev.IC (d : Dev) (n : Nat) : IcvSt := KV.get icvDflt d.icv n
/-- The block with integrating converter `n` changed. -/
def Dev.onIC (d : Dev) (n : Nat) (f : IcvSt → IcvSt) : Dev := { d with icv := KV.put icvDflt d.icv n (f (d.IC n)) }
/-- Sage for pack `p`. -/
def Dev.SG (d : Dev) (p : Nat) : SageSt := KV.get (fun _ => {}) d.sage p
/-- The block with Sage of pack `p` changed. -/
def Dev.onSG (d : Dev) (p : Nat) (f : SageSt → SageSt) : Dev := { d with sage := KV.put (fun _ => {}) d.sage p (f (d.SG p)) }
/-- Fault record slot `s`. -/
def Dev.SL (d : Dev) (s : Nat) : SlotSt := KV.get (fun _ => {}) d.slot s
/-- The block with slot `s` changed. -/
def Dev.onSL (d : Dev) (s : Nat) (f : SlotSt → SlotSt) : Dev := { d with slot := KV.put (fun _ => {}) d.slot s (f (d.SL s)) }
/-- Ring `r`. -/
def Dev.RG (d : Dev) (r : Nat) : RingSt := KV.get (fun _ => {}) d.ring r
/-- The block with ring `r` changed. -/
def Dev.onRG (d : Dev) (r : Nat) (f : RingSt → RingSt) : Dev := { d with ring := KV.put (fun _ => {}) d.ring r (f (d.RG r)) }
/-- Thread `t`. -/
def Dev.T (d : Dev) (t : Nat) : ThreadSt := KV.get (fun _ => {}) d.thr t
/-- The block with thread `t` changed. -/
def Dev.onT (d : Dev) (t : Nat) (f : ThreadSt → ThreadSt) : Dev := { d with thr := KV.put (fun _ => {}) d.thr t (f (d.T t)) }
/-- The entries held in result queue segment `s`. -/
def Dev.Q (d : Dev) (s : Nat) : List Entry := KV.get (fun _ => []) d.rq s
/-- The block with segment `s` changed. -/
def Dev.onQ (d : Dev) (s : Nat) (f : List Entry → List Entry) : Dev := { d with rq := KV.put (fun _ => []) d.rq s (f (d.Q s)) }
/-- Stream VC `v`. -/
def Dev.V (d : Dev) (v : Nat) : VcSt := KV.get (fun _ => {}) d.vc v
/-- The block with stream VC `v` changed. -/
def Dev.onV (d : Dev) (v : Nat) (f : VcSt → VcSt) : Dev := { d with vc := KV.put (fun _ => {}) d.vc v (f (d.V v)) }
/-- Two-wire block `n`. -/
def Dev.W (d : Dev) (n : Nat) : TwSt := KV.get (fun _ => {}) d.tw n
/-- The block with two-wire block `n` changed. -/
def Dev.onW (d : Dev) (n : Nat) (f : TwSt → TwSt) : Dev := { d with tw := KV.put (fun _ => {}) d.tw n (f (d.W n)) }
/-- Core `c`. -/
def Dev.K (d : Dev) (c : Nat) : CoreSt := KV.get (fun _ => {}) d.core c
/-- The block with core `c` changed. -/
def Dev.onK (d : Dev) (c : Nat) (f : CoreSt → CoreSt) : Dev := { d with core := KV.put (fun _ => {}) d.core c (f (d.K c)) }

/-- Apply an operation for each of the numbers below `n`, in rising order. -/
def Dev.forN (d : Dev) (n : Nat) (f : Dev → Nat → Dev) : Dev := (List.range n).foldl f d

/-- Apply an operation for each member of a list, in order. -/
def Dev.forL {α : Type} (d : Dev) (l : List α) (f : Dev → α → Dev) : Dev := l.foldl f d

/-! ## Time, modes and links -/

/-- The present Thyme tick (11_clocks_time.md R300). -/
def Dev.now (d : Dev) : Nat := d.clk.now

/-- The tick by the Thyme copy of a die, 0-3 loom, 4 entry: the stamp of its samples and faults (11_clocks_time.md R301). -/
def Dev.dieNow (d : Dev) (die : Nat) : Nat := ((d.clk.now : Int) + KV.get (fun _ => (0 : Int)) d.clk.copyOff die).toNat

/-- A window that opened at `o` and lasts `n` ticks has closed (00_scope.md R6, R8). -/
def closed (now : Nat) (o : Option Nat) (n : Nat) : Bool :=
  match o with
  | none => false
  | some t => decide (t + n ≤ now)

/-- Tick `now` lies inside the open window (00_scope.md R6). -/
def inside (now : Nat) (o : Option Nat) (n : Nat) : Bool :=
  match o with
  | none => false
  | some t => decide (t ≤ now ∧ now < t + n)

/-- A free value (log 5). -/
def Dev.freeVal (d : Dev) : Nat := Config.freeValue d.clk.freeCtr

/-- The block after a free value has been taken. -/
def Dev.nextFree (d : Dev) : Dev := { d with clk := { d.clk with freeCtr := d.clk.freeCtr + 1 } }

namespace Md
/-- Mode codes (10_modes_startup.md R270). -/
def off : Nat := 0
/-- STANDBY -/
def standby : Nat := 1
/-- CONFIGURE -/
def configure : Nat := 2
/-- RAMP -/
def ramp : Nat := 3
/-- RUN -/
def run : Nat := 4
/-- HOLDUP -/
def holdup : Nat := 5
/-- SAFE -/
def safe : Nat := 6
/-- FACTORY -/
def factory : Nat := 7
end Md

/-- The present mode (10_modes_startup.md R273). -/
def Dev.md (d : Dev) : Nat := d.rd MODE_STATUS.MODE

/-- RAMP, RUN or HOLDUP: phases may switch (10_modes_startup.md R270). -/
def Dev.active (d : Dev) : Bool := d.md == Md.ramp || d.md == Md.run || d.md == Md.holdup

/-- Link `l` is in service: neither fenced nor lost, with the hub out of reset (17_register_map.md R451). Links 0-3 are hub
links, 4-6 neighbour links, 7 the entry link (09_faults.md R246). -/
def Dev.linkUp (d : Dev) (l : Nat) : Bool :=
  d.clk.hub && !(d.link.fenced.testBit l) && !(d.link.lost.testBit l)

/-- The hub link of rail `r`'s home die is in service (01_architecture.md R11). -/
def Dev.railLink (d : Dev) (r : Nat) : Bool := d.linkUp (r / 16)

/-! ## Completion status codes (12_host_rings.md R326) -/

namespace St
/-- SUCCESS -/
def success : Nat := 0x0000
/-- DESC_INVALID -/
def descInvalid : Nat := 0x0001
/-- OPCODE_INVALID -/
def opcodeInvalid : Nat := 0x0002
/-- TARGET_INVALID -/
def targetInvalid : Nat := 0x0003
/-- WRONG_MODE -/
def wrongMode : Nat := 0x0004
/-- NOT_OWNER -/
def notOwner : Nat := 0x0005
/-- NOT_AUTHENTICATED -/
def notAuthenticated : Nat := 0x0006
/-- LINK_FENCED -/
def linkFenced : Nat := 0x0007
/-- RESOURCE_BUSY -/
def resourceBusy : Nat := 0x0010
/-- RESOURCE_INVALID -/
def resourceInvalid : Nat := 0x0011
/-- RESOURCE_FENCED -/
def resourceFenced : Nat := 0x0012
/-- RESOURCE_NOT_OWNED -/
def resourceNotOwned : Nat := 0x0013
/-- RESOURCE_LOCKED -/
def resourceLocked : Nat := 0x0014
/-- ENTRY_CFG_INVALID -/
def entryCfgInvalid : Nat := 0x0020
/-- BRANCH_CFG_INVALID -/
def branchCfgInvalid : Nat := 0x0021
/-- RAIL_CFG_INVALID -/
def railCfgInvalid : Nat := 0x0022
/-- WARP_INVALID -/
def warpInvalid : Nat := 0x0023
/-- INTENT_CFG_INVALID -/
def intentCfgInvalid : Nat := 0x0024
/-- CONV_CFG_INVALID -/
def convCfgInvalid : Nat := 0x0025
/-- SAGE_CFG_INVALID -/
def sageCfgInvalid : Nat := 0x0026
/-- FAULT_CFG_INVALID -/
def faultCfgInvalid : Nat := 0x0027
/-- SEQ_INVALID -/
def seqInvalid : Nat := 0x0028
/-- TABLE_INVALID -/
def tableInvalid : Nat := 0x0030
/-- TABLE_IN_USE -/
def tableInUse : Nat := 0x0031
/-- RECORD_INVALID -/
def recordInvalid : Nat := 0x0032
/-- POLICY_KIND -/
def policyKind : Nat := 0x0033
/-- COEF_INVALID -/
def coefInvalid : Nat := 0x0034
/-- MASK_INVALID -/
def maskInvalid : Nat := 0x0035
/-- TEMP_IN_USE -/
def tempInUse : Nat := 0x0036
/-- CHANNEL_FAULTED -/
def channelFaulted : Nat := 0x0040
/-- ROLE_MISMATCH -/
def roleMismatch : Nat := 0x0041
/-- RAIL_BUSY -/
def railBusy : Nat := 0x0042
/-- RAIL_FENCED -/
def railFenced : Nat := 0x0043
/-- BRANCH_DOWN -/
def branchDown : Nat := 0x0044
/-- PHASES_SHORT -/
def phasesShort : Nat := 0x0045
/-- BAND_VIOLATION -/
def bandViolation : Nat := 0x0046
/-- UNIT_NOT_FENCED -/
def unitNotFenced : Nat := 0x0047
/-- UNIT_HOT -/
def unitHot : Nat := 0x0048
/-- DOMAIN_FENCED -/
def domainFenced : Nat := 0x0049
/-- CAL_FAILED -/
def calFailed : Nat := 0x004A
/-- SAGE_DISABLED -/
def sageDisabled : Nat := 0x0050
/-- PACK_ABSENT -/
def packAbsent : Nat := 0x0051
/-- RECORD_CORRUPT -/
def recordCorrupt : Nat := 0x0052
/-- GENERATION_OLD -/
def generationOld : Nat := 0x0053
/-- FAULT_EMPTY -/
def faultEmpty : Nat := 0x0058
/-- FAULT_MISMATCH -/
def faultMismatch : Nat := 0x0059
/-- FAULT_MOVED -/
def faultMoved : Nat := 0x005A
/-- PPS_ABSENT -/
def ppsAbsent : Nat := 0x0060
/-- THREAD_BUSY -/
def threadBusy : Nat := 0x0070
/-- THREAD_INVALID -/
def threadInvalid : Nat := 0x0071
/-- THREAD_CLOSED -/
def threadClosed : Nat := 0x0072
/-- DEST_INVALID -/
def destInvalid : Nat := 0x0073
/-- HOST_BUDGET -/
def hostBudget : Nat := 0x0074
/-- BUFFER_SHORT -/
def bufferShort : Nat := 0x0075
/-- HOST_READ_ERROR -/
def hostReadError : Nat := 0x0080
/-- TABLE_CRC -/
def tableCrc : Nat := 0x0081
end St

/-! ## Agents (09_faults.md R249) -/

end Sys2Proof.Machine

namespace Sys2Proof

/-- The master agent of a descriptor source (12_host_rings.md R319, R348; 14_two_wire.md R391). -/
def Src.agent : Src → Nat
  | .host _ => 0x00
  | .core c => 0x10 + c.val
  | .mailbox => 0x01

/-- The RING byte of a completion record: 0-63 host rings, 64 + core index, 0xFF for the mailbox (R324, R391). -/
def Src.ringCode : Src → Nat
  | .host r => r.val
  | .core c => 64 + c.val
  | .mailbox => 0xFF

end Sys2Proof

namespace Sys2Proof.Machine

/-- The agent of two-wire block `n` (14_two_wire.md R374). -/
def twAgent (n : Nat) : Nat := if n = 15 then 0x2F else 0x01 + n

/-- The agent of converter `c`'s sequencer (07_conversion.md R182). -/
def convAgent (c : Nat) : Nat :=
  if c < 512 then 0xD8 + c / 128 else if c < 576 then 0xD8 + (c - 512) / 16 else if c < 624 then 0xDC else 0xD0 + (c - 624)

/-- The minimum number of live slices of converter `c` (07_conversion.md R191). -/
def sliceMin (c : Nat) : Nat := if c < 512 then 2 else if c < 576 then 4 else if c < 624 then 1 else 2

/-! ## Fault messages (09_faults.md R244-R259) -/

/-- The kinds whose level is the NOTIFY level of a fuse policy record (R246). -/
def isPolicyKind (k : Nat) : Bool :=
  (0x01 ≤ k && k ≤ 0x06) || (0x11 ≤ k && k ≤ 0x17) || (0x21 ≤ k && k ≤ 0x27)

/-- The default level of a kind that is not a policy kind; `none` for a reserved code (R246). -/
def kindLevel0 (k : Nat) : Option Nat :=
  if k = 0x07 ∨ k = 0x08 ∨ k = 0x09 ∨ k = 0x18 ∨ k = 0x37 ∨ k = 0x39 ∨ k = 0x42 ∨ (0x4A ≤ k ∧ k ≤ 0x4D) ∨ k = 0x50 ∨ k = 0x51 then some 0
  else if k = 0x38 ∨ k = 0x40 ∨ k = 0x52 ∨ k = 0x60 ∨ (0x69 ≤ k ∧ k ≤ 0x69) ∨ k = 0x70 ∨ k = 0x71 ∨ k = 0x73 ∨ k = 0x7D ∨ k = 0x84 ∨ k = 0x89 then some 1
  else if k = 0x28 ∨ k = 0x41 ∨ k = 0x48 ∨ k = 0x49 ∨ k = 0x61 ∨ k = 0x62 ∨ k = 0x68 ∨ k = 0x72 ∨ k = 0x78 ∨ k = 0x79 ∨ k = 0x7C ∨ (0x81 ≤ k ∧ k ≤ 0x83) then some 2
  else if k = 0x0A ∨ k = 0x19 ∨ (0x30 ≤ k ∧ k ≤ 0x36) ∨ k = 0x85 then some 3
  else if k = 0x80 ∨ k = 0x88 then some 4
  else none

/-- The kind is listed in R246. -/
def kindListed (k : Nat) : Bool := isPolicyKind k || (kindLevel0 k).isSome

/-- The byte of FLT_LEVEL for a kind (R247, R265). -/
def Dev.levelByte (d : Dev) (k : Nat) : Nat := d.rd (FLT_LEVEL.LEVELS (k / 4)) / 256 ^ (k % 4) % 256

/-- The level of a kind that is not a policy kind, after the override of FLT_LEVEL (R246, R247). -/
def Dev.kindLevel (d : Dev) (k : Nat) : Nat :=
  if (d.levelByte k).testBit 7 then d.levelByte k % 8 else (kindLevel0 k).getD 0

/-- The die a kind's unit lies on: 0-3 loom dice, 4 the entry die, `none` the hub (01_architecture.md R9). -/
def dieOf (kind unit : Nat) : Option Nat :=
  if (0x01 ≤ kind ∧ kind ≤ 0x0A) ∨ (0x11 ≤ kind ∧ kind ≤ 0x19) ∨ (0x4A ≤ kind ∧ kind ≤ 0x4D) ∨ (0x50 ≤ kind ∧ kind ≤ 0x52) then some 4
  else if 0x21 ≤ kind ∧ kind ≤ 0x28 then some (unit / 128)
  else if 0x30 ≤ kind ∧ kind ≤ 0x39 then some (unit / 16)
  else if kind = 0x48 ∨ kind = 0x49 then
    (if unit < 512 then some (unit / 128) else if unit < 576 then some ((unit - 512) / 16) else some 4)
  else if 0x60 ≤ kind ∧ kind ≤ 0x62 then
    (if unit < 0x20 then some (unit / 8) else if unit < 0x28 then none else if unit < 0x2A then some 4
     else if 0x40 ≤ unit ∧ unit < 0x50 then some ((unit - 0x40) / 4)
     else if 0x88 ≤ unit ∧ unit < 0x90 then some ((unit - 0x88) / 2)
     else if 0x90 ≤ unit then some 4 else none)
  else if kind = 0x68 ∨ kind = 0x69 then
    (if unit < 16 then some (unit / 4) else if unit = 20 then some 4 else none)
  else none

/-- The link that joins a die to the hub. -/
def dieLink (die : Nat) : Nat := if die = 4 then 7 else die

/-- The order of fault messages: by stamp, then agent, kind and unit, lowest first (R254). -/
def FMsg.before (a b : FMsg) : Bool :=
  a.stamp < b.stamp || (a.stamp == b.stamp &&
    (a.agent < b.agent || (a.agent == b.agent && (a.kind < b.kind || (a.kind == b.kind && a.unit < b.unit)))))

/-- The messages with `m` in its place; a message equal in every key follows those already there. -/
def insertMsg (m : FMsg) : List FMsg → List FMsg
  | [] => [m]
  | x :: r => if m.before x then m :: x :: r else x :: insertMsg m r

/-- A speculation, not a shadow evaluation, of rail `r` covers tick `t` (06_load_intent.md R170, R172). -/
def Dev.specCovers (d : Dev) (r t : Nat) : Bool :=
  match (d.R r).spec with
  | none => false
  | some s => !s.shadow && decide (s.tAcc ≤ t) && (match s.tEnd with | none => true | some e => decide (t < e))

/-- The rails bound to port `n`, in slot order (06_load_intent.md R157). -/
def Dev.boundRails (d : Dev) (n : Nat) : List (Nat × Nat) :=
  (List.range 4).filterMap fun k =>
    let b := d.rd (IP_BIND.SLOT n) / 256 ^ k % 256
    if b.testBit 7 then some (k, b % 64) else none

/-- The SPEC attribute of a fault: its unit is the rail, a phase of its warp or the port of a speculation (R172). -/
def Dev.specAttr (d : Dev) (kind unit : Nat) : Bool :=
  if 0x21 ≤ kind ∧ kind ≤ 0x28 then
    (match (d.P unit).rail with | none => false | some r => d.specCovers r d.now)
  else if 0x30 ≤ kind ∧ kind ≤ 0x39 then d.specCovers unit d.now
  else if 0x40 ≤ kind ∧ kind ≤ 0x42 then (d.boundRails unit).any fun x => d.specCovers x.2 d.now
  else false

/-- A fault message leaves its unit: towards the selvage, or into its die's queue of 32 while the die's link is out or the
hub is absent (R259). -/
def Dev.send (d : Dev) (m : FMsg) : Dev :=
  match dieOf m.kind m.unit with
  | none => { d with flt := { d.flt with msgs := insertMsg m d.flt.msgs } }
  | some die =>
    if d.linkUp (dieLink die) then { d with flt := { d.flt with msgs := insertMsg m d.flt.msgs } }
    else
      let q := KV.get (fun _ => []) d.flt.dieQ die
      if q.length < 32 then
        let m' := { m with stale := true, stamp := nget d.link.lastTick die }
        { d with flt := { d.flt with dieQ := KV.put (fun _ => []) d.flt.dieQ die (q ++ [m']) } }
      else { d with flt := { d.flt with dieLost := nput d.flt.dieLost die (nget d.flt.dieLost die + 1) } }

/-- The stamp of a fault raised now: by the copy of Thyme of the die its unit lies on (11_clocks_time.md R301). -/
def Dev.faultStamp (d : Dev) (kind unit : Nat) : Nat :=
  match dieOf kind unit with
  | none => d.now
  | some die => d.dieNow die

/-- A unit raises a fault of a kind at a level, now, with its unit index as its address (R244, R250). -/
def Dev.raiseL (d : Dev) (kind unit agent access level : Nat) : Dev :=
  d.send { kind := kind, unit := unit, agent := agent, access := access, aspace := 3, addr := unit, stamp := d.faultStamp kind unit,
           level := level, spec := d.specAttr kind unit, forced := d.flt.forced }

/-- A unit raises a fault of a kind that is not a policy kind, at its level (R246, R247). -/
def Dev.raise (d : Dev) (kind unit agent access : Nat) : Dev := d.raiseL kind unit agent access (d.kindLevel kind)

/-- As `raise`, with an address of its own (R250). -/
def Dev.raiseAt (d : Dev) (kind unit agent access aspace addr : Nat) : Dev :=
  d.send { kind := kind, unit := unit, agent := agent, access := access, aspace := aspace, addr := addr, stamp := d.faultStamp kind unit,
           level := d.kindLevel kind, spec := d.specAttr kind unit, forced := d.flt.forced }

/-- ACCESS_FAULT of an accessor at a BAR0 offset (09_faults.md R246; 17_register_map.md R448). -/
def Dev.accessFault (d : Dev) (agent access off : Nat) : Dev := d.raiseAt 0x70 agent agent access 2 off

/-- The write-ignored status: the first ignored write is recorded, a later one sets MORE; of two in one core and fabric clock the one
with the lower agent is recorded (17_register_map.md R450). -/
def Dev.wign (d : Dev) (agent off reason : Nat) : Dev :=
  let d := { d with hw := { d.hw with ign := d.hw.ign + 1 } }
  if d.on DEV_WIGN.SET then
    let d' := d.hwWr DEV_WIGN.MORE 1
    if (d.hwBits 0x20).toNat.testBit 31 ∧ agent < d.rd DEV_WIGN_AGENT.AGENT then
      ((d'.wr DEV_WIGN.REASON reason).wr DEV_WIGN.OFFSET off).wr DEV_WIGN_AGENT.AGENT agent
    else d'
  else (((d.hwWr DEV_WIGN.SET 1).wr DEV_WIGN.REASON reason).wr DEV_WIGN.OFFSET off).wr DEV_WIGN_AGENT.AGENT agent

/-! ## Completions (12_host_rings.md R322-R325) -/

/-- A descriptor completes with a status, or the status of the MODE_REQ write is stored (R324; 10_modes_startup.md R272). A
descriptor that has completed keeps its first status. -/
def Dev.complete (d : Dev) (t : Token) (status : Nat) : Dev :=
  match t with
  | .modeReg => d.wr MODE_REQ_STAT.STATUS status
  | .record _ => d
  | .out i =>
    { d with host := { d.host with out := d.host.out.map fun o =>
        if o.id = i ∧ o.result = none then { o with begun := true, result := some (status, d.now) } else o } }

/-- All of several descriptors complete with one status. -/
def Dev.completeAll (d : Dev) (ts : List Token) (status : Nat) : Dev := d.forL ts fun d t => d.complete t status

/-! ## Resource ownership (01_architecture.md R20-R27, R483) -/

/-- The index of resource (class, index) in the ownership table (17_register_map.md R456). -/
def ownIx (cls idx : Nat) : Nat := 64 * cls + idx

/-- How many entries a class has (17_register_map.md R456). -/
def ownCount (cls : Nat) : Nat :=
  if cls = 0 then 4 else if cls = 1 then 32 else if cls = 2 then 8 else if cls ≤ 5 then 16 else 0

/-- The number of FUNCTION codes of a class; 0x1 is the first (R22). -/
def ownFuncs (cls : Nat) : Nat := if cls = 1 ∨ cls = 4 then 3 else if cls ≤ 5 then 2 else 0

/-- The priority class of the function that a FUNCTION code names (R483). -/
def ownPrio (cls f : Nat) : Nat :=
  if cls = 0 then (if f = 1 then 0 else 1)
  else if cls = 1 then (if f = 1 then 2 else 1)
  else if cls = 2 then 1
  else if cls = 5 ∧ f = 2 then 3
  else 2

/-- The class may be claimed in a mode (R20), with a function (R22). -/
def claimMode (cls f mode : Nat) : Bool :=
  if cls = 5 then
    (mode == Md.configure || mode == Md.run || mode == Md.factory) && (f != 2 || mode == Md.factory)
  else if cls = 1 ∨ cls = 3 then mode == Md.configure || mode == Md.run
  else mode == Md.configure

/-- Resource (class, index) is claimed or locked by an agent with a function. -/
def Dev.owns (d : Dev) (cls idx agent f : Nat) : Bool :=
  let n := ownIx cls idx
  (d.rd (OWN.STATE n) == 1 || d.rd (OWN.STATE n) == 2) && d.rd (OWN.AGENT n) == agent && d.rd (OWN.FUNCTION n) == f

/-- Resource (class, index) is held with a function, by whichever agent, and not fenced. -/
def Dev.heldAs (d : Dev) (cls idx f : Nat) : Bool :=
  let n := ownIx cls idx
  (d.rd (OWN.STATE n) == 1 || d.rd (OWN.STATE n) == 2) && d.rd (OWN.FUNCTION n) == f

/-! ## Ownership domains (10_modes_startup.md R293) -/

/-- The owner code of a domain (0 MODE, 1 POWER, 2 FAULT, 3 SAGE). -/
def Dev.domain (d : Dev) (k : Nat) : Nat := d.rd MODE_OWN.DOMAINS / 4 ^ k % 4

/-- An agent may command a domain: the host, TW0, firmware, or any of these (R293). -/
def Dev.mayCommand (d : Dev) (k agent : Nat) : Bool :=
  let host := agent == 0x00
  let bmc := agent == 0x01
  let fw := decide (0x10 ≤ agent ∧ agent ≤ 0x24)
  match d.domain k with
  | 0 => host
  | 1 => bmc
  | 2 => fw
  | _ => host || bmc || fw

/-- The MODE owner's rights, with which the power sequencer and restoration command, cover a domain (R293). -/
def Dev.ownerMay (d : Dev) (k : Nat) : Bool := d.domain 0 == 3 || d.domain k == 3 || d.domain 0 == d.domain k

end Sys2Proof.Machine
end

