-- ==== Sys2Proof/Machine/Tartan.lean ====
section
/-! DEFINITION. Banks, granules and the Tartan code (16_memory_protection.md R429-R437): every read decodes, every narrow write is a
read-modify-write of its granule. A bank that holds a register table keeps its contents in the register map, in the order
in which R429 lists its tables (log 15); what a bank stores for a granule differs from the words in use by a mask of its own, so that the
copies of a pair, and the loom tables of the four dice, each hold their own bits. -/

namespace Sys2Proof.Machine

/-- The size of a bank in bytes; 0 for an index assigned to no bank (R429). -/
def bankSize (b : Nat) : Nat :=
  if b < 0x2A then 0x20000
  else if 0x40 ≤ b ∧ b < 0x60 then 0x40000
  else if 0x60 ≤ b ∧ b < 0x70 then 0x80000
  else if 0x70 ≤ b ∧ b < 0x80 then 0x8000
  else if b = 0x80 then 0x40000
  else if b = 0x81 ∨ b = 0x82 then 0x2000
  else if b = 0x83 ∨ b = 0x84 then 0x4000
  else if 0x88 ≤ b ∧ b < 0x90 then 0x2000
  else if b = 0x90 ∨ b = 0x91 then 0x4000
  else if b = 0x92 ∨ b = 0x93 then 0x2000
  else 0

/-- The banks initialised on entry into CONFIGURE (R429). -/
def configureBanks : List Nat :=
  List.range 0x2A ++ (List.range 0x40).map (· + 0x40) ++ [0x80, 0x81, 0x82, 0x83, 0x84] ++
  (List.range 8).map (· + 0x88) ++ [0x90, 0x91]

/-- Every bank (R429). -/
def allBanks : List Nat := configureBanks ++ [0x92, 0x93]

/-- The partner of a mirrored bank (R429, R430). -/
def bankPartner (b : Nat) : Option Nat :=
  if b = 0x81 then some 0x82 else if b = 0x82 then some 0x81
  else if b = 0x83 then some 0x84 else if b = 0x84 then some 0x83
  else if 0x88 ≤ b ∧ b < 0x90 then some (if b % 2 = 0 then b + 1 else b - 1)
  else if b = 0x90 then some 0x91 else if b = 0x91 then some 0x90
  else if b = 0x92 then some 0x93 else if b = 0x93 then some 0x92
  else none

/-- The banks whose granules share their words in use: the copies of a pair, and all copies of the loom tables (R429, R452). -/
def bankMates (b : Nat) : List Nat :=
  if 0x88 ≤ b ∧ b < 0x90 then (List.range 8).map (· + 0x88)
  else match bankPartner b with | none => [b] | some p => [b, p]

/-- The register tables of a bank in order: BAR0 base and length in bytes (R429; log 15). -/
def bankTables (b : Nat) : List (Nat × Nat) :=
  if b = 0x80 then [(0x40000, 0x40000)]
  else if b = 0x81 ∨ b = 0x82 then [(0x6000, 0x2000)]
  else if b = 0x83 ∨ b = 0x84 then [(0x2000, 0x800), (0x2800, 0x940), (0x800, 0x600), (0xB000, 0x400)]
  else if 0x88 ≤ b ∧ b < 0x90 then [(0x10C000, 0x400), (0x10C400, 0x200)]
  else if b = 0x90 ∨ b = 0x91 then [(0x201200, 0x200), (0x203000, 0x1000), (0x205400, 0x200)]
  else if b = 0x92 ∨ b = 0x93 then [(0x206000, 0x1000)]
  else []

/-- The BAR0 offset of byte `o` of a bank's tables. -/
def tableOffset : List (Nat × Nat) → Nat → Option Nat
  | [], _ => none
  | (base, len) :: r, o => if o < len then some (base + o) else tableOffset r (o - len)

/-- The place of BAR0 offset `off` in a list of tables. -/
def placeIn : List (Nat × Nat) → Nat → Nat → Option Nat
  | [], _, _ => none
  | (base, len) :: r, start, off =>
    if base ≤ off ∧ off < base + len then some (start + (off - base)) else placeIn r (start + len) off

/-- The bank (copy A) and the byte in it that hold a register word, for a word of a table (R429, R452). The loom tables are
read in the lowest-numbered die. -/
def tablePlace (off : Nat) : Option (Nat × Nat) :=
  ([0x80, 0x81, 0x83, 0x88, 0x90, 0x92] : List Nat).findSome? fun b => (placeIn (bankTables b) 0 off).map fun o => (b, o)

/-- The key of a byte of a bank in `MemSt.data`. -/
def bankKey (b o : Nat) : Nat := b * 0x100000 + o

/-- The key of a granule in `MemSt.err`. -/
def granKey (b g : Nat) : Nat := b * 0x100000 + g

/-- A bank is offline (R439, R443). -/
def Dev.bankOff (d : Dev) (b : Nat) : Bool := d.rdBit (MEM_OFFLINE.OFFLINE (b / 32)) (b % 32)

/-- An access to the bank is refused: it is offline, and not one that is still initialising, whose accesses wait and do not fail
(R438, R439; DESIGN CHOICE, log 49). -/
def Dev.bankGone (d : Dev) (b : Nat) : Bool := d.bankOff b && !(d.mem.init.contains b)

/-- Take a bank offline or return it. -/
def Dev.setBankOff (d : Dev) (b : Nat) (v : Bool) : Dev := d.wrBit (MEM_OFFLINE.OFFLINE (b / 32)) (b % 32) v

/-- No copy of a bank's contents is to be had: it is out of reach with its partner (R439). -/
def Dev.pairGone (d : Dev) (b : Nat) : Bool :=
  d.bankGone b && (match bankPartner b with | none => true | some p => d.bankGone p)

/-- The 8 bytes of a granule in use: its data without its mask. -/
def Dev.granClean (d : Dev) (b g : Nat) : List Byte :=
  match bankTables b with
  | [] => (List.range 8).map fun k => KV.get (fun _ => 0) d.mem.data (bankKey b (8 * g + k))
  | ts => (List.range 8).map fun k =>
      match tableOffset ts (8 * g + k) with
      | none => 0
      | some off => BitVec.ofNat 8 ((d.word (off / 4 * 4)).toNat / 256 ^ (off % 4))

/-- The mask of a granule's damaged stored bits: data bits 0-63, row checks 64-71, column checks 72-79. -/
def Dev.granErr (d : Dev) (b g : Nat) : BitVec 80 := KV.get (fun _ => 0) d.mem.err (granKey b g)

/-- The stored data of a granule, damage included. -/
def Dev.granStored (d : Dev) (b g : Nat) : Nat :=
  leNat (d.granClean b g) 0 8 ^^^ ((d.granErr b g).toNat % 2 ^ 64)

/-- The parity of the low `n` bits of a number. -/
def parity (v : Nat) : Nat → Bool
  | 0 => false
  | n + 1 => (v.testBit n) ^^ parity v n

/-- The number whose bit `i`, for `i` below `n`, is `f i`. -/
def bitsOf (n : Nat) (f : Nat → Bool) : Nat := (List.range n).foldl (fun a i => if f i then a + 2 ^ i else a) 0

/-- The row check byte of 64 data bits (R432). -/
def rowChecks (v : Nat) : Nat := bitsOf 8 fun r => parity (v / 256 ^ r % 256) 8

/-- The column check byte of 64 data bits (R432). -/
def colChecks (v : Nat) : Nat := bitsOf 8 fun c => parity (bitsOf 8 fun r => v.testBit (8 * r + c)) 8

/-- The syndromes S_r and S_c of a damage mask; they depend on the mask alone (R433, R434). -/
def syndromes (e : BitVec 80) : Nat × Nat :=
  let n := e.toNat
  (rowChecks (n % 2 ^ 64) ^^^ (n / 2 ^ 64 % 256), colChecks (n % 2 ^ 64) ^^^ (n / 2 ^ 72 % 256))

/-- How a granule decodes (R433). -/
inductive Decode where
  | clean
  | data (bit : Nat)
  | row (r : Nat)
  | col (c : Nat)
  | bad
  deriving DecidableEq, Repr

/-- The number of bits set in a byte. -/
def popByte (v : Nat) : Nat := ((List.range 8).filter fun i => v.testBit i).length

/-- The lowest bit set in a byte. -/
def lowBit (v : Nat) : Nat := ((List.range 8).find? fun i => v.testBit i).getD 0

/-- The decode table of R433. -/
def decodeSyn (s : Nat × Nat) : Decode :=
  match popByte s.1, popByte s.2 with
  | 0, 0 => .clean
  | 1, 1 => .data (8 * lowBit s.1 + lowBit s.2)
  | 1, 0 => .row (lowBit s.1)
  | 0, 1 => .col (lowBit s.2)
  | _, _ => .bad

/-- The mask that clean data `v` have over data in use `w`. -/
def maskOf (v w : Nat) : BitVec 80 :=
  let x := v ^^^ w
  BitVec.ofNat 80 (x + rowChecks x * 2 ^ 64 + colChecks x * 2 ^ 72)

/-- The data in use of a granule. -/
def Dev.granWord (d : Dev) (b g : Nat) : Nat := leNat (d.granClean b g) 0 8

/-- The mask of a granule in a bank. -/
def Dev.setMask (d : Dev) (b g : Nat) (e : BitVec 80) : Dev :=
  { d with mem := { d.mem with err := KV.put (fun _ => 0) d.mem.err (granKey b g) e } }

/-- The data in use of a granule become `v`, and every bank goes on storing what it stored: what the masks become. -/
def Dev.reMask (d : Dev) (b g v : Nat) : Dev :=
  let e := maskOf v (d.granWord b g)
  d.forL (bankMates b) fun d c => d.setMask c g (d.granErr c g ^^^ e)

/-- The words of a granule's data in use. -/
def Dev.putWords (d : Dev) (b g v : Nat) : Dev :=
  match bankTables b with
  | [] => d.forN 8 fun d k =>
      { d with mem := { d.mem with data := KV.put (fun _ => 0) d.mem.data (bankKey b (8 * g + k)) (BitVec.ofNat 8 (v / 256 ^ k)) } }
  | ts => d.forN 2 fun d k =>
      match tableOffset ts (8 * g + 4 * k) with
      | none => d
      | some off => d.setWord off (BitVec.ofNat 32 (v / 2 ^ (32 * k)))

/-- Write the granule whole in one bank: new data and valid checks (R432). A bank alone with its words takes them into use; another stores
them over the words in use. -/
def Dev.putGran (d : Dev) (b g v : Nat) : Dev :=
  match bankMates b with
  | [_] => (d.setMask b g 0).putWords b g v
  | _ => d.setMask b g (maskOf v (d.granWord b g))

/-- The copies of a bank's contents that are online. -/
def Dev.copiesOn (d : Dev) (b : Nat) : List Nat :=
  (match bankPartner b with | none => [b] | some p => [b, p]).filter fun c => ! d.bankGone c

/-- A write to a granule goes to both copies of a mirrored pair, to the online one alone if one is offline (R430, R439). -/
def Dev.putGranAll (d : Dev) (b g v : Nat) : Dev :=
  let on := d.copiesOn b
  ((d.reMask b g v).forL on fun d c => d.setMask c g 0).putWords b g v

/-- The corrected data a decode gives; `none` if it is uncorrectable (R433). -/
def Dev.decoded (d : Dev) (b g : Nat) : Option (Nat × Bool) :=
  match decodeSyn (syndromes (d.granErr b g)) with
  | .clean => some (d.granStored b g, false)
  | .data i => some (d.granStored b g ^^^ 2 ^ i, true)
  | .row _ => some (d.granStored b g, true)
  | .col _ => some (d.granStored b g, true)
  | .bad => none

/-- MEM_CE: the record holds the accessor and the granule (R435). -/
def Dev.memCe (d : Dev) (b g agent access : Nat) : Dev :=
  (d.evt MEM_EVT.EVT 0).raiseAt 0x60 b agent access 5 g

/-- MEM_UE of a single copy: the bank goes offline (R436). -/
def Dev.memUe (d : Dev) (b g agent access : Nat) : Dev :=
  ((d.evt MEM_EVT.EVT 1).setBankOff b true).raiseAt 0x61 b agent access 5 g

/-- Decode a granule of one copy, writing a correction back (R435); `none` if it is uncorrectable. -/
def Dev.readCopy (d : Dev) (b g agent access : Nat) : Dev × Option Nat :=
  match d.decoded b g with
  | none => (d, none)
  | some (v, false) => (d, some v)
  | some (v, true) => ((d.putGran b g v).memCe b g agent access, some v)

/-- A read of a granule (R433-R436): copy A of a mirrored pair while it is online, an uncorrectable granule from the partner
and both copies rewritten; `none` when no data is returned. A read of an offline bank is refused (R439). -/
def Dev.readGran (d : Dev) (b g agent access : Nat) : Dev × Option Nat :=
  match bankPartner b with
  | none =>
    if d.bankGone b then (d, none)
    else match d.readCopy b g agent access with
      | (d, some v) => (d, some v)
      | (d, none) => (d.memUe b g agent access, none)
  | some p =>
    if d.bankGone b then
      (if d.bankGone p then (d, none)
       else match d.readCopy p g agent access with
         | (d, some v) => (d, some v)
         | (d, none) => (d.memUe p g agent access, none))
    else match d.readCopy b g agent access with
      | (d, some v) => (d, some v)
      | (d, none) =>
        if d.bankGone p then (d.memUe b g agent access, none)
        else match d.decoded p g with
          | some (v, _) => (((d.putGran b g v).putGran p g v).memCe b g agent access, some v)
          | none => (d.memUe b g agent access, none)

/-- Replace bytes of a granule's data: `n` bytes from byte `o`. -/
def mergeBytes (old o n new : Nat) : Nat :=
  old - (old / 256 ^ o % 256 ^ n) * 256 ^ o + (new % 256 ^ n) * 256 ^ o

/-- A write of `n` bytes from byte `o` of a granule (R437): whole granules are written without a read; a narrower write is a
read-modify-write, refused on an uncorrectable granule with MEM_RMW. False if the write was refused. -/
def Dev.writeGran (d : Dev) (b g o n v agent : Nat) : Dev × Bool :=
  if o = 0 ∧ n = 8 ∧ ¬ d.pairGone b then (d.putGranAll b g v, true)
  else match d.copiesOn b with
    | [] => (d, false)
    | c :: rest =>
      match d.decoded c g with
      | some (old, fixed) =>
        let d := d.putGranAll b g (mergeBytes old o n v)
        (if fixed then d.memCe c g agent 4 else d, true)
      | none =>
        match rest.head?.bind fun p => d.decoded p g with
        | some (old, _) => ((d.putGranAll b g (mergeBytes old o n v)).memCe b g agent 4, true)
        | none => ((d.evt MEM_EVT.EVT 2).raiseAt 0x62 c agent 4 5 g, false)

/-- Read `n` bytes at byte `o` of a bank, granule by granule, as a little-endian number; `none` if a granule gives no data. -/
def Dev.readBank (d : Dev) (b o agent access : Nat) : Nat → Dev × Option Nat
  | 0 => (d, some 0)
  | n + 1 =>
    match d.readGran b (o / 8) agent access with
    | (d, none) => (d, none)
    | (d, some v) =>
      match d.readBank b (o + 1) agent access n with
      | (d, none) => (d, none)
      | (d, some rest) => (d, some (v / 256 ^ (o % 8) % 256 + 256 * rest))

/-- Write the bytes of a little-endian number to a bank, each run inside one granule as one write (R437, R457). False if a
write was refused. -/
def Dev.writeBank (d : Dev) (b o agent : Nat) (bs : List Byte) : Nat → Dev × Bool
  | 0 => (d, true)
  | fuel + 1 =>
    match bs with
    | [] => (d, true)
    | _ =>
      let n := min bs.length (8 - o % 8)
      match d.writeGran b (o / 8) (o % 8) n (leNat bs 0 n) agent with
      | (d, ok) =>
        match d.writeBank b (o + n) agent (bs.drop n) fuel with
        | (d, ok') => (d, ok && ok')

/-! ## The device's own accesses to its tables

A unit takes the words in use of a table. An access of its own decodes the granules first, so that damage is corrected, found or faulted
there (R433-R437; 09_faults.md R268); with no damage anywhere it changes nothing. -/

/-- A unit reads `len` bytes at byte `o` of bank `b`: each granule is decoded, and its data come into use. -/
def Dev.tabUse (d : Dev) (agent b o len : Nat) : Dev :=
  if d.mem.err = [] then d
  else d.forN ((o % 8 + len + 7) / 8) fun d k =>
    match d.readGran b (o / 8 + k) agent 1 with
    | (d, none) => d
    | (d, some v) => if v = d.granWord b (o / 8 + k) then d else (d.reMask b (o / 8 + k) v).putWords b (o / 8 + k) v

/-- A unit reads `len` bytes of a table from BAR0 offset `off` on; the loom tables are read in their die `n`. -/
def Dev.tabRead (d : Dev) (agent off len : Nat) (n : Nat := 0) : Dev :=
  match tablePlace off with
  | none => d
  | some (b, o) => d.tabUse agent (if b = 0x88 then 0x88 + 2 * n else b) o len

/-- Both copies of the table that holds a word are offline (R439). -/
def Dev.tabGone (d : Dev) (off : Nat) : Bool :=
  match tablePlace off with
  | none => false
  | some (b, _) => d.pairGone b

/-- No bank stores other bits than those in use, and every copy of bank `b` is online: a write is plain. -/
def Dev.tabCalm (d : Dev) (b : Nat) : Bool := d.mem.err == [] && (bankMates b).all fun c => ! d.bankGone c

/-- What a unit's write of word `w` at BAR0 offset `off` does to the memory that holds it (R437): a read-modify-write of the granule, with
its corrections and its refusal; `off` itself is written after it. -/
def Dev.tabMem (d : Dev) (agent off : Nat) (w : Word) : Dev :=
  match tablePlace off with
  | none => d
  | some (b, o) =>
    if d.tabCalm b then d
    else
      let g := o / 8
      let new := mergeBytes (d.granWord b g) (o % 8) 4 w.toNat
      let on := d.copiesOn b
      let kept := d.reMask b g new
      let put := fun v => kept.forL on fun d c => d.setMask c g (maskOf (mergeBytes v (o % 8) 4 w.toNat) new)
      match on.head?.bind fun c => d.decoded c g with
      | some (v, fixed) => if fixed then (put v).memCe (on.getD 0 b) g agent 4 else put v
      | none =>
        match on.tail.head?.bind fun c => d.decoded c g with
        | some (v, _) => (put v).memCe b g agent 4
        | none => if on = [] then kept else (kept.evt MEM_EVT.EVT 2).raiseAt 0x62 (on.getD 0 b) agent 4 5 g

/-- A unit writes a field of a table. -/
def Dev.twr (d : Dev) (agent : Nat) (f : Fld) (v : Nat) : Dev := (d.tabMem agent f.off (f.put (d.word f.off) v)).wr f v

/-- A unit counts in a field of a table. -/
def Dev.tbump (d : Dev) (agent : Nat) (f : Fld) (k : Nat := 1) : Dev :=
  (d.tabMem agent f.off (f.put (d.word f.off) (satAdd (2 ^ f.len - 1) (d.rd f) k))).bump f k

/-- Whole granules of a bank are about to be written: the write reads nothing, and leaves clean granules in each copy (R437). -/
def Dev.bankFresh (d : Dev) (b o len : Nat) : Dev :=
  if d.mem.err = [] then d
  else d.forN (len / 8) fun d k => d.forL (d.copiesOn b) fun d c => d.setMask c (o / 8 + k) 0

/-- A unit is about to write whole the granules of `len` bytes of a table from BAR0 offset `off` on. -/
def Dev.tabFresh (d : Dev) (off len : Nat) : Dev :=
  match tablePlace off with
  | none => d
  | some (b, o) => d.bankFresh b o len

/-- Every table is read, as the exit checks read them. -/
def Dev.tabReadAll (d : Dev) (agent : Nat) : Dev :=
  let d := (d.tabRead agent 0x2000 0x800).tabRead agent 0xB000 0x400
  let d := d.forN 4 fun d n => d.tabUse agent (0x88 + 2 * n) 0 0x600
  ((d.tabRead agent 0x201200 0x200).tabRead agent 0x203000 0x1000).tabRead agent 0x206000 0x1000

/-- The bank and the byte in it of a core-map address that names memory for core `c` (15_mograthes_cores.md R400; R429). -/
def coreBank (c addr : Nat) : Option (Nat × Nat) :=
  if addr < 0x20000 then some (2 * c, addr)
  else if addr < 0x40000 then some (2 * c + 1, addr - 0x20000)
  else if 0x10000000 ≤ addr ∧ addr < 0x10100000 ∧ c < 16 then
    some (0x40 + 4 * (c / 4) + (addr - 0x10000000) / 0x40000, addr % 0x40000)
  else if 0x20000000 ≤ addr ∧ addr < 0x20400000 then some (0x50 + (addr - 0x20000000) / 0x40000, addr % 0x40000)
  else none

/-- The ownership of a bank's region: the die of a loom bank (0-3), 4 for the entry die, `none` for the hub (R429). -/
def bankDie (b : Nat) : Option Nat := dieOf 0x60 b

end Sys2Proof.Machine
end

