-- ==== Sys2Proof/Machine/Ownership.lean ====
section
/-! DEFINITION. Claims, releases and fences of ownership entries (01_architecture.md R20-R27, R483). -/

namespace Sys2Proof.Machine

/-- The word of an ownership entry that a claim leaves (R21, R23). -/
def claimWord (lock : Bool) (cls f agent tag : Nat) : Word :=
  BitVec.ofNat 32 ((if lock then 2 else 1) * 2 ^ 30 + ownPrio cls f * 2 ^ 28 + agent % 256 * 2 ^ 20 + f % 16 * 2 ^ 16 + tag % 2 ^ 16)

/-- The ring engine reads an entry of the ownership table for an agent. -/
def Dev.readOwn (d : Dev) (rid agent : Nat) : Dev := d.tabRead agent (0x800 + 4 * ownIx (rid / 4096 % 16) (rid % 4096)) 4

/-- A claim is decided by the first case that applies (R23); TW0 refuses FUNCTION 0x2 and 0x3 (14_two_wire.md R374). -/
def Dev.claim (d : Dev) (rid agent f tag : Nat) (lock : Bool) : Dev × Nat :=
  let cls := rid / 4096 % 16
  let idx := rid % 4096
  let n := ownIx cls idx
  if ownCount cls ≤ idx ∨ f = 0 ∨ ownFuncs cls < f ∨ (cls = 4 ∧ idx = 0 ∧ f ≠ 1) then (d, St.resourceInvalid)
  else if ¬ claimMode cls f d.md then (d, St.wrongMode)
  else if d.tabGone (OWN.STATE n).off then (d, St.domainFenced)
  else if d.rd (OWN.STATE n) = 3 then (d, St.resourceFenced)
  else if d.rd (OWN.STATE n) ≠ 0 then
    if d.rd (OWN.AGENT n) = agent ∧ d.rd (OWN.FUNCTION n) = f then (d, St.success) else (d, St.resourceBusy)
  else
    let w := claimWord lock cls f agent tag
    let d := d.tabMem agent (OWN.STATE n).off w
    let d := d.wr (OWN.STATE n) (if lock then 2 else 1)
    let d := d.wr (OWN.PRIO n) (ownPrio cls f)
    let d := d.wr (OWN.AGENT n) agent
    let d := d.wr (OWN.FUNCTION n) f
    let d := d.wr (OWN.CLAIM_TAG n) tag
    -- a claimed VC starts with K = 0 (13_stream_link.md R369)
    let now := d.now
    let d := if cls = 5 ∧ d.rd (VC_CNT.K idx) ≠ 0 then (d.wr (VC_CNT.K idx) 0).onV idx fun x => { x with holdAt := some now } else d
    (d, St.success)

/-- Clear an ownership entry whole (R26). -/
def Dev.freeOwn (d : Dev) (n : Nat) (agent : Nat := 0x30) : Dev := (d.tabMem agent (0x800 + 4 * n) 0).setWord (0x800 + 4 * n) 0

/-- A timer's release returns it to OFF (11_clocks_time.md R306); the release of an alignment timer ends tracking (R304). An alignment that
still waits on it can see no edge any more and completes with PPS_ABSENT, of which R304 says nothing (DESIGN CHOICE, log 46). -/
def Dev.timerOff (d : Dev) (t : Nat) : Dev :=
  let d := (d.wr (TMR_CFG.EN t) 0).wr (TMR_CFG.MODE t) 0
  let d := { d with clk := { d.clk with timerDue := nput d.clk.timerDue t 0 } }
  if d.clk.alignTimer = some t then
    let ts := d.clk.alignOut.map (·.tok)
    { d.wr PPS_STATUS.PPS_STATE 0 with clk := { d.clk with alignTimer := none, alignOut := [] } }.completeAll ts St.ppsAbsent
  else d

/-- A configuration record is counted with its status: the record with the lowest index shows it (10_modes_startup.md R279). -/
def Dev.countRecord (d : Dev) (ix status : Nat) : Dev :=
  let first := d.rd BOOT_REC.COUNT == 0 || decide (ix < d.rd BOOT_REC_IDX.RECORD)
  let d := d.bump BOOT_REC.COUNT
  if first then (d.wr BOOT_REC.STATUS status).wr BOOT_REC_IDX.RECORD ix else d

/-- The answer of a claim is replaced: a claim of a lower agent in the same clock was decided first (R24). A CLAIM record is counted
(10_modes_startup.md R279). -/
def Dev.reanswer (d : Dev) (t : Token) (status : Nat) : Dev :=
  match t with
  | .modeReg => d
  | .record ix => d.countRecord ix status
  | .out i =>
    { d with host := { d.host with out := d.host.out.map fun o =>
        if o.id = i then { o with begun := true, result := some (status, d.now) } else o } }

/-- The claims that won a resource in the present core and fabric clock and hold it still (R24). -/
def Dev.clockClaims (d : Dev) (rid : Nat) : List (Nat × Nat × Nat × Token) :=
  let n := ownIx (rid / 4096 % 16) (rid % 4096)
  if d.rd (OWN.STATE n) = 0 ∨ d.rd (OWN.STATE n) = 3 then []
  else d.host.claims.filter fun c => c.1 == d.now / 2 && c.2.1 == rid && c.2.2.1 == d.rd (OWN.AGENT n)

/-- The claims of this clock on a resource are undone: the entry is FREE as the clock found it, and they are answered RESOURCE_BUSY
(R24). -/
def Dev.unclaim (d : Dev) (rid : Nat) : Dev :=
  let cls := rid / 4096 % 16
  let idx := rid % 4096
  let cs := d.clockClaims rid
  let d := d.freeOwn (ownIx cls idx)
  let aligns := cls == 1 && d.clk.alignTimer == some idx
  let d := if aligns then { d with clk := { d.clk with alignOut := [] } } else d
  let d := if cls = 1 then d.timerOff idx else d
  let d := d.forL cs fun d c => d.reanswer c.2.2.2 St.resourceBusy
  { d with host := { d.host with claims := d.host.claims.filter fun c => c.2.1 != rid } }

/-- A descriptor's claim. The claims of one clock on an entry that was FREE are decided lowest agent first, in whatever order they come:
a claim of a lower agent takes the entry from a claim of the same clock (R24). -/
def Dev.claimIn (d : Dev) (rid agent f tag : Nat) (lock : Bool) (t : Token) : Dev × Nat :=
  let d := d.readOwn rid agent
  let cs := d.clockClaims rid
  let free := d.rd (OWN.STATE (ownIx (rid / 4096 % 16) (rid % 4096))) == 0
  let first := cs != [] && cs.all (fun c => decide (agent < c.2.2.1)) &&
    ((d.unclaim rid).claim rid agent f tag lock).2 == St.success
  let r := (if first then d.unclaim rid else d).claim rid agent f tag lock
  if r.2 = St.success ∧ (free ∨ cs ≠ []) then
    let now := r.1.now
    ({ r.1 with host := { r.1.host with claims :=
        (r.1.host.claims.filter fun c => c.1 == now / 2) ++ [(now / 2, rid, agent, t)] } }, r.2)
  else r

/-- A release is decided by the first case that applies (R26). `force` is the release of an alignment timer that the ring
engine performs as owner (11_clocks_time.md R304). -/
def Dev.release (d : Dev) (rid agent : Nat) (force : Bool := false) : Dev × Nat :=
  let cls := rid / 4096 % 16
  let idx := rid % 4096
  let n := ownIx cls idx
  let d := d.readOwn rid agent
  if ownCount cls ≤ idx then (d, St.resourceInvalid)
  else if d.tabGone (OWN.STATE n).off then (d, St.domainFenced)
  else if d.rd (OWN.STATE n) = 0 then (d, St.success)
  else if d.rd (OWN.STATE n) = 3 then (d, St.resourceFenced)
  else if d.rd (OWN.STATE n) = 2 then (d, St.resourceLocked)
  else if d.rd (OWN.AGENT n) ≠ agent ∧ ¬ force then (d, St.resourceBusy)
  else
    let d := d.freeOwn n agent
    let d := if cls = 1 then d.timerOff idx else d
    (d, St.success)

/-- The selvage fences an ownership entry, one that is FREE too: STATE becomes FENCED, the rest stays (R27; 13_stream_link.md R365). -/
def Dev.fenceOwn (d : Dev) (n : Nat) : Dev :=
  if d.rd (OWN.STATE n) = 3 then d
  else
    { d.twr 0xEE (OWN.STATE n) 3 with flt := { d.flt with owner := nput d.flt.owner n (d.rd (OWN.STATE n)) } }

/-- UNFENCE returns an entry's STATE to the value it had before the fence (R27). An entry that two fences hold returns at the first UNFENCE
(DESIGN CHOICE, log 46). -/
def Dev.unfenceOwn (d : Dev) (n : Nat) : Dev :=
  if d.rd (OWN.STATE n) = 3 then
    { d.twr 0xEE (OWN.STATE n) (nget d.flt.owner n) with flt := { d.flt with owner := nput d.flt.owner n 0 } }
  else d

end Sys2Proof.Machine
end

