-- ==== Sys2Proof/Machine/Rings.lean ====
section
/-! DEFINITION. Host memory, the status block, MSI-X, rings and their records (12_host_rings.md R313-R330), and the slots of the
fault record table as event records (09_faults.md R253). -/

namespace Sys2Proof.Machine

/-! ## Host memory and the status block -/

/-- `n` bytes of host memory (R312: 48-bit addresses). -/
def Dev.hRd (d : Dev) (addr n : Nat) : List Byte :=
  (List.range n).map fun k => KV.get (fun _ => 0) d.host.mem ((addr + k) % 2 ^ 48)

/-- A write of bytes to host memory. -/
def Dev.hWr (d : Dev) (addr : Nat) : List Byte → Dev
  | [] => d
  | b :: r => Dev.hWr { d with host := { d.host with mem := KV.put (fun _ => 0) d.host.mem (addr % 2 ^ 48) b } } (addr + 1) r

/-- The address of the status block (R313). -/
def Dev.sbBase (d : Dev) : Nat := d.rd SB_BASE_HI.BASE_HI * 2 ^ 32 + d.rd SB_BASE_LO.BASE_LO * 2 ^ 16

/-- A write of the status block, made while SB_EN is 1 (R313, R314); with the link down none reaches the host (R331; log 31). -/
def Dev.sbWr (d : Dev) (off v n : Nat) : Dev :=
  if d.on HOST_CTL.SB_EN ∧ d.clk.hub ∧ ¬ d.host.down then d.hWr (d.sbBase + off) (leBytes v n) else d

/-! ## MSI-X -/

/-- Vector `v` is masked in the MSI-X table (17_register_map.md R455). -/
def Dev.vecMasked (d : Dev) (v : Nat) : Bool := (d.word (0x1000C + 16 * v)).toNat.testBit 0

/-- Raise an MSI-X vector; a masked vector is held pending (17_register_map.md R455). -/
def Dev.raiseVec (d : Dev) (v : Nat) : Dev :=
  if d.vecMasked v then
    { d with host := { d.host with pba := if d.host.pba.contains v then d.host.pba else v :: d.host.pba } }
  else { d with host := { d.host with msix := v :: d.host.msix } }

/-- A vector that is pending and no longer masked is sent (17_register_map.md R455). -/
def Dev.unmaskVec (d : Dev) (v : Nat) : Dev :=
  if d.host.pba.contains v ∧ ¬ d.vecMasked v then
    { d with host := { d.host with pba := d.host.pba.filter (· ≠ v), msix := v :: d.host.msix } }
  else d

/-! ## Rings -/

end Sys2Proof.Machine

namespace Sys2Proof

/-- The register index of a command ring in the stride of RINGr; the mailbox has none (R315, R348). -/
def Src.ring : Src → Option Nat
  | .host r => some r.val
  | .core c => some (0x2C0 + c.val)
  | .mailbox => none

end Sys2Proof

namespace Sys2Proof.Machine

namespace Rg
/-- Ring states (R315). -/
def disabled : Nat := 0
/-- ACTIVE -/
def active : Nat := 1
/-- DRAINING -/
def draining : Nat := 2
/-- HALTED -/
def halted : Nat := 3
/-- FENCED -/
def fenced : Nat := 7
end Rg

/-- A ring's state. -/
def Dev.rgState (d : Dev) (n : Nat) : Nat := d.rd (RG_STATUS.STATE n)

/-- A ring's entries (R315). -/
def Dev.rgSize (d : Dev) (n : Nat) : Nat := 2 ^ (d.rd (RG_CFG.SIZE n) + 4)

/-- A ring's address. -/
def Dev.rgBase (d : Dev) (n : Nat) : Nat := d.rd (RG_BASE_HI.BASE_HI n) * 2 ^ 32 + d.rd (RG_BASE_LO.BASE_LO n) * 64

/-- The bytes of an entry of ring `n` (R315). -/
def entryBytes (n : Nat) : Nat := if n < 0x40 ∨ 0x2C0 ≤ n then 64 else if n < 0x80 then 16 else 32

/-- Entries between producer and consumer, modulo 2^32 (R313, R318). -/
def Dev.rgFill (d : Dev) (n : Nat) : Nat := (d.rd (RG_PI.PI n) + 2 ^ 32 - d.rd (RG_CI.CI n)) % 2 ^ 32

/-- A completion or event ring is ACTIVE and has room. -/
def Dev.rgRoom (d : Dev) (n : Nat) : Bool := d.rgState n == Rg.active && decide (d.rgFill n < d.rgSize n)

/-- The status block offset of a ring's index (R313). -/
def rgSb (n : Nat) : Nat := if n < 0x40 then 0x100 + 4 * n else if n < 0x80 then 0x200 + 4 * (n - 0x40) else 0x400 + 4 * (n - 0x80)

/-- The moderation window of a ring has closed: its vector is raised, and the count starts anew (R329). -/
def Dev.itrClose (d : Dev) (n : Nat) : Dev :=
  if closed d.now (d.RG n).itrAt (8 * d.rd (RG_ITR.ITR_TIME n)) then
    (d.onRG n fun s => { s with itrN := 0, itrAt := none }).raiseVec (d.rd (RG_CFG.VECTOR n))
  else d

/-- The moderation of a ring takes note of a record (R329); `irq` is a record with IRQ set. A record of the tick that closes the window
opens the next one (00_scope.md R7). -/
def Dev.itrNote (d : Dev) (n : Nat) (irq : Bool) : Dev :=
  let d := d.itrClose n
  let cnt := max 1 (d.rd (RG_ITR.ITR_COUNT n))
  let have' := (d.RG n).itrN + 1
  if d.rd (RG_ITR.ITR_TIME n) = 0 ∨ irq ∨ cnt ≤ have' then
    (d.onRG n fun s => { s with itrN := 0, itrAt := none }).raiseVec (d.rd (RG_CFG.VECTOR n))
  else d.onRG n fun s => { s with itrN := have', itrAt := some (s.itrAt.getD d.now) }

/-- Write a record to a completion or event ring that has room: the entry, then the producer index (R327, R312). -/
def Dev.rgPut (d : Dev) (n : Nat) (bs : List Byte) (irq : Bool := false) : Dev :=
  let i := d.rd (RG_PI.PI n)
  let d := d.hWr (d.rgBase n + entryBytes n * (i % d.rgSize n)) bs
  let d := d.wr (RG_PI.PI n) (i + 1)
  let d := d.sbWr (rgSb n) (d.rd (RG_PI.PI n)) 4
  d.itrNote n irq

/-- A record waits on a full ring: the stall window opens (R330). -/
def Dev.rgWait (d : Dev) (n : Nat) : Dev :=
  if d.rgState n = Rg.active ∧ ¬ d.rgRoom n then d.onRG n fun s => { s with fullAt := some (s.fullAt.getD d.now) } else d

/-- The ring index of event ring `e`. -/
def evRing (e : Nat) : Nat := 0x80 + e

/-- Drop a record of an event ring: DROP counts it (R328). -/
def Dev.rgDrop (d : Dev) (n : Nat) : Dev := d.bump (RG_STATUS.DROP n)

/-- t_f of a FENCE whose wait has ended (R346). -/
def FenceSt.tf (f : FenceSt) : Nat := f.tw.getD 0 + (if f.flush then 1600 else 0)

/-- t_w of a FENCE: the tick of the last completion among the earlier descriptors of its ring, once all have completed (R346). -/
def Dev.fenceTick (d : Dev) (f : FenceSt) : Option Nat :=
  let before := d.host.out.filter fun o => decide (o.d.src = f.src ∧ o.id < f.id)
  if f.tw.isSome then f.tw
  else if before.any fun o => o.result.isNone then none
  else some (before.foldl (fun m o => match o.result with | some (_, s) => max m s | none => m) f.since)

/-- The t_f of some FENCE has come and its markers are not placed: what is produced now follows them (R347). -/
def Dev.markerDue (d : Dev) : Bool :=
  d.host.fences.any fun f => !f.placed && (match d.fenceTick f with
    | none => false
    | some t => decide (FenceSt.tf { f with tw := some t } ≤ d.now))

/-- The FENCE_MARKER record of a FENCE (R327). -/
def FenceSt.record (f : FenceSt) : List Byte :=
  leBytes 0x0030 2 ++ leBytes f.tag 2 ++ leBytes f.src.ringCode 1 ++ [0, 0, 0] ++ leBytes f.tf 8 ++ List.replicate 16 0

/-- An event record is a FENCE_MARKER. -/
def isMarker (b : List Byte) : Bool := leNat b 0 2 == 0x0030

/-- Every FENCE whose markers are all written completes, stamped t_f (R346). -/
def Dev.fenceEnds (d : Dev) : Dev :=
  let ovs := fun (f : FenceSt) => f.placed && f.rings == [] && f.vcs == [] && f.onWire == [] && f.archs == []
  let done := d.host.fences.filter ovs
  let d := d.forL done fun d f =>
    { d with host := { d.host with out := d.host.out.map fun o =>
        if o.id = f.id ∧ o.result = none then { o with begun := true, result := some (St.success, f.tf) } else o } }
  { d with host := { d.host with fences := d.host.fences.filter fun f => !(ovs f) } }

/-- The marker of a FENCE is written to event ring `e`. -/
def Dev.markerIn (d : Dev) (code e : Nat) : Dev :=
  { d with host := { d.host with fences := d.host.fences.map fun f =>
      if f.placed ∧ f.src.ringCode = code then { f with rings := f.rings.filter (· ≠ e) } else f } }

/-- A FENCE places its marker in event ring `e`: it is written, or it waits behind the records held for the ring, so that what is
produced later follows it (R328, R347); a ring that is not ACTIVE takes it once it is. -/
def Dev.markerPut (d : Dev) (f : FenceSt) (e : Nat) : Dev :=
  let n := evRing e
  let held := (d.RG n).held
  if d.rgRoom n ∧ held = [] then (d.rgPut n f.record).markerIn f.src.ringCode e
  else if d.rgState n = Rg.active ∧ ¬ held.any (fun b => isMarker b && byteAt b 4 == f.src.ringCode) then
    (d.onRG n fun s => { s with held := s.held ++ [f.record] }).rgWait n
  else d

/-- Event ring `e` becomes ACTIVE: the markers that wait for it are placed first. -/
def Dev.markersOn (d : Dev) (e : Nat) : Dev :=
  (d.forL (d.host.fences.filter fun f => f.placed && f.rings.contains e) fun d f => d.markerPut f e).fenceEnds

/-- A THREAD_DATA, THREAD_STATUS or ARCHIVE_PAGE record: written, held in the ring's queue of 64, or dropped (R328). True
if it was not dropped. -/
def Dev.evThread (d : Dev) (e : Nat) (bs : List Byte) : Dev × Bool :=
  let n := evRing e
  let held := (d.RG n).held
  if d.rgRoom n ∧ held = [] then (d.rgPut n bs, true)
  else if d.rgState n = Rg.active ∧ (held.filter fun b => !(isMarker b)).length < 64 then
    ((d.onRG n fun s => { s with held := s.held ++ [bs] }).rgWait n, true)
  else (d.rgDrop n, false)

/-- A record that is written now or not at all (FAULT, SAGE_RECORD, FENCE_MARKER): true if it was written (R328). Records
held in the queue stand before it. -/
def Dev.evTry (d : Dev) (e : Nat) (bs : List Byte) : Dev × Bool :=
  let n := evRing e
  if d.rgRoom n ∧ (d.RG n).held = [] then (d.rgPut n bs, true) else (d.rgWait n, false)

/-- A TIME_EPOCH record: one is held while it cannot be written; a newer one replaces it (R328). -/
def Dev.evEpoch (d : Dev) (e : Nat) (bs : List Byte) : Dev :=
  match d.evTry e bs with
  | (d, true) => d.onRG (evRing e) fun s => { s with epoch := none }
  | (d, false) => d.onRG (evRing e) fun s => { s with epoch := some bs }

/-! ## Thread contexts (R335) -/

/-- STATE of thread `t`. -/
def CTX.STATE (t : Nat) : Fld := ⟨0x40030 + 0x40 * t, 0, 8⟩
/-- PRODUCED of thread `t`. -/
def CTX.PRODUCED (t : Nat) : Fld := ⟨0x40034 + 0x40 * t, 0, 32⟩
/-- DROP of thread `t`. -/
def CTX.DROP (t : Nat) : Fld := ⟨0x40038 + 0x40 * t, 0, 32⟩
/-- Low bits of the last produced stamp of thread `t`. -/
def CTX.LAST (t : Nat) : Fld := ⟨0x4003C + 0x40 * t, 0, 32⟩
/-- Byte `k` of the configuration of thread `t`. -/
def CTX.CFG (t k : Nat) : Fld := ⟨0x40000 + 0x40 * t + k / 4 * 4, 8 * (k % 4), 8⟩
/-- The 16-bit field at byte `k` (even) of the configuration of thread `t`. -/
def CTX.CFG16 (t k : Nat) : Fld := ⟨0x40000 + 0x40 * t + k / 4 * 4, 8 * (k % 4), 16⟩
/-- The 32-bit word at byte `k` (a multiple of 4) of the configuration of thread `t`. -/
def CTX.CFG32 (t k : Nat) : Fld := ⟨0x40000 + 0x40 * t + k, 0, 32⟩

/-! ## Fault record slots (09_faults.md R253) -/

/-- Word `k` of slot `s`. -/
def SLOT.WORD (s k : Nat) : Fld := ⟨0x6000 + 0x20 * s + 4 * k, 0, 32⟩
/-- CODE -/
def SLOT.CODE (s : Nat) : Fld := ⟨0x6000 + 0x20 * s, 0, 16⟩
/-- LEVEL -/
def SLOT.LEVEL (s : Nat) : Fld := ⟨0x6000 + 0x20 * s, 16, 3⟩
/-- ORIG -/
def SLOT.ORIG (s : Nat) : Fld := ⟨0x6000 + 0x20 * s, 19, 3⟩
/-- SPEC -/
def SLOT.SPEC (s : Nat) : Fld := ⟨0x6000 + 0x20 * s, 22, 1⟩
/-- FORCED -/
def SLOT.FORCED (s : Nat) : Fld := ⟨0x6000 + 0x20 * s, 23, 1⟩
/-- ACCESS -/
def SLOT.ACCESS (s : Nat) : Fld := ⟨0x6000 + 0x20 * s, 24, 4⟩
/-- ESCALATED -/
def SLOT.ESCALATED (s : Nat) : Fld := ⟨0x6000 + 0x20 * s, 28, 1⟩
/-- HWPATH -/
def SLOT.HWPATH (s : Nat) : Fld := ⟨0x6000 + 0x20 * s, 29, 1⟩
/-- FENCED -/
def SLOT.FENCED (s : Nat) : Fld := ⟨0x6000 + 0x20 * s, 30, 1⟩
/-- STALE -/
def SLOT.STALE (s : Nat) : Fld := ⟨0x6000 + 0x20 * s, 31, 1⟩
/-- KIND and UNIT -/
def SLOT.CLASS (s : Nat) : Fld := ⟨0x6004 + 0x20 * s, 0, 20⟩
/-- AGENT -/
def SLOT.AGENT (s : Nat) : Fld := ⟨0x6004 + 0x20 * s, 24, 8⟩
/-- ADDR bits 31:0 -/
def SLOT.ADDR_LO (s : Nat) : Fld := ⟨0x6008 + 0x20 * s, 0, 32⟩
/-- ADDR bits 47:32 -/
def SLOT.ADDR_HI (s : Nat) : Fld := ⟨0x600C + 0x20 * s, 0, 16⟩
/-- COUNT -/
def SLOT.COUNT (s : Nat) : Fld := ⟨0x600C + 0x20 * s, 16, 16⟩
/-- FIRST bits 31:0 -/
def SLOT.FIRST_LO (s : Nat) : Fld := ⟨0x6010 + 0x20 * s, 0, 32⟩
/-- FIRST bits 63:32 -/
def SLOT.FIRST_HI (s : Nat) : Fld := ⟨0x6014 + 0x20 * s, 0, 32⟩
/-- LAST -/
def SLOT.LAST (s : Nat) : Fld := ⟨0x6018 + 0x20 * s, 0, 32⟩
/-- SLOT -/
def SLOT.INDEX (s : Nat) : Fld := ⟨0x601C + 0x20 * s, 0, 16⟩
/-- SCOPE -/
def SLOT.SCOPE (s : Nat) : Fld := ⟨0x601C + 0x20 * s, 16, 2⟩
/-- ASPACE -/
def SLOT.ASPACE (s : Nat) : Fld := ⟨0x601C + 0x20 * s, 24, 3⟩

/-- The 32 bytes of a slot. -/
def Dev.slotBytes (d : Dev) (s : Nat) : List Byte :=
  (List.range 8).flatMap fun k => leBytes (d.rd (SLOT.WORD s k)) 4

/-- A slot holds a record (a free slot reads as all zeros). -/
def Dev.slotUsed (d : Dev) (s : Nat) : Bool := d.rd (SLOT.CODE s) != 0

/-- Free a slot. -/
def Dev.slotFree (d : Dev) (s : Nat) : Dev :=
  ((d.tabFresh (0x6000 + 0x20 * s) 32).forN 8 fun d k => d.twr 0xEE (SLOT.WORD s k) 0).onSL s fun _ => {}

/-- Report a slot to FLT_RING as FAULT (0x0010) or FAULT_UPDATE (0x0011); a report that cannot be written is lost (R253, R258,
12_host_rings.md R328). -/
def Dev.report (d : Dev) (s code : Nat) : Dev :=
  let d := d.tabRead 0xEE (0x6000 + 0x20 * s) 32
  if ¬ d.flt.ring then d.onSL s fun x => { x with lost := true }
  else match d.evTry (d.rd FLT_CFG.FLT_RING) (leBytes code 2 ++ (d.slotBytes s).drop 2) with
    | (d, true) => d.onSL s fun x => { x with lost := false }
    | (d, false) => d.onSL s fun x => { x with lost := true }

/-- MERGE_WIN (09_faults.md R265). -/
def Dev.mergeWin (d : Dev) : Nat := d.rd FLT_MERGE.MERGE_WIN

/-- A report of slot `s` that opens a window of its own (09_faults.md R257); with MERGE_WIN = 0 it opens none, and an L0 record is freed.
While FLT_RING is not set up no report is written, and the record is held with no window (09_faults.md R258). -/
def Dev.reportAt (d : Dev) (s code t : Nat) : Dev :=
  let d := d.report s code
  if ¬ d.flt.ring then d.onSL s fun x => { x with win := none, merged := false }
  else if d.mergeWin = 0 then
    (if d.rd (SLOT.LEVEL s) = 0 then d.slotFree s else d.onSL s fun x => { x with win := none, merged := false })
  else d.onSL s fun x => { x with win := some t, merged := false }

/-- The lowest slot in use whose report was lost. -/
def Dev.lostSlot (d : Dev) : Option Nat := (List.range 256).find? fun s => d.slotUsed s && (d.SL s).lost

/-- Write FAULT_UPDATE for each slot in use whose report was lost, in slot order, while the ring has room (R328). -/
def Dev.reportLost (d : Dev) : Dev :=
  d.forN 256 fun d s =>
    if d.slotUsed s ∧ (d.SL s).lost ∧ d.rgRoom (evRing (d.rd FLT_CFG.FLT_RING)) then d.report s 0x0011 else d

/-- FLT_RING is set up: its event ring has become ACTIVE. One FAULT_UPDATE goes out for each slot in use (09_faults.md R258). -/
def Dev.ringSetUp (d : Dev) (e : Nat) : Dev :=
  if e = d.rd FLT_CFG.FLT_RING ∧ ¬ d.flt.ring then
    let d := { d with flt := { d.flt with ring := true } }
    let now := d.now
    d.forN 256 fun d s => if d.slotUsed s then d.reportAt s 0x0011 now else d
  else d

/-! ## Completion records -/

/-- The bytes of a completion record (R324). -/
def Out.record (o : Out) : List Byte :=
  match o.result with
  | none => []
  | some (st, stamp) =>
    leBytes o.d.tag.toNat 2 ++ leBytes st 2 ++ leBytes o.opc 1 ++ leBytes o.d.src.ringCode 1 ++ [0, 0] ++ leBytes stamp 8

/-- The outstanding descriptor at the head of a source's queue. -/
def Dev.headOut (d : Dev) (r : Src) : Option Out := d.host.out.find? fun o => decide (o.d.src = r)

/-- Remove an outstanding descriptor. -/
def Dev.dropOut (d : Dev) (o : Out) : Dev := { d with host := { d.host with out := d.host.out.filter fun x => x.id ≠ o.id } }

/-- One more descriptor may be outstanding: 4,096 device-wide, 1,024 for each ring (R322; 01_architecture.md R11). -/
def Dev.outRoom (d : Dev) (src : Src) : Bool :=
  decide (d.host.out.length < 4096) && decide ((d.host.out.filter fun o => decide (o.d.src = src)).length < 1024)

/-- A fetch that waited at a limit of outstanding descriptors is issued now: its window opens (R322, R330). -/
def Dev.refetch (d : Dev) (n : Nat) : Dev :=
  let now := d.now
  d.onRG n fun s => { s with fetchAt := s.fetchAt.map fun _ => now }

/-- An outstanding descriptor retires; where its ring, or the engine, stood at its limit, the fetches that waited go out (R322). -/
def Dev.popOut (d : Dev) (o : Out) : Dev :=
  if d.outRoom o.d.src then d.dropOut o
  else if d.host.out.length < 4096 then (match o.d.src.ring with | some n => (d.dropOut o).refetch n | none => d.dropOut o)
  else ((d.dropOut o).forN 64 fun d n => d.refetch n).forN 21 fun d c => d.refetch (0x2C0 + c)

/-- Advance a host command ring's consumer index and publish it (R325, R313). -/
def Dev.advanceCi (d : Dev) (n : Nat) : Dev :=
  let d := d.wr (RG_CI.CI n) (d.rd (RG_CI.CI n) + 1)
  if n < 0x40 then d.sbWr (rgSb n) (d.rd (RG_CI.CI n)) 4 else d

/-- The consumer index moves past a retired descriptor, unless the ring was enabled anew since its fetch (R325, R316). A discarded
completion retires like one without a record (R330; log 33). -/
def Dev.ciPast (d : Dev) (n : Nat) (o : Out) : Dev := if o.old then d else d.advanceCi n

/-- Retire the head of a host command ring's descriptors, if it has completed and its record can be written (R325, R330). -/
def Dev.retireHost (d : Dev) (n : Nat) (o : Out) : Dev :=
  match o.result with
  | none => d
  | some (st, _) =>
    if o.drop then (if d.rgState n = Rg.disabled then d.popOut o else (d.popOut o).ciPast n o)
    else if o.d.sup ∧ st = St.success then (d.popOut o).ciPast n o
    else
      let cq := 0x40 + d.rd (RG_CFG.CQ n)
      if d.rgRoom cq then ((d.popOut o).rgPut cq o.record o.d.irq).ciPast n o
      else d.rgWait cq

/-- Retire the head of an internal ring's descriptors into the core's completion ring, which lies behind the command ring
(R348; log 16). -/
def Dev.retireCore (d : Dev) (c n : Nat) (o : Out) : Dev :=
  match o.result with
  | none => d
  | some (st, _) =>
    if o.drop then (if d.rgState n = Rg.disabled then d.popOut o else (d.popOut o).ciPast n o)
    else if o.d.sup ∧ st = St.success then (d.popOut o).ciPast n o
    else
      let q := d.RG (0x2E0 + c)
      let addr := d.rgBase n + 64 * d.rgSize n + 16 * (q.fetched % d.rgSize n)
      let d := match coreBank c addr with
        | none => d
        | some (b, off) => (d.writeBank b off 0x30 o.record 16).1
      let d := d.onRG (0x2E0 + c) fun s => { s with fetched := (s.fetched + 1) % 2 ^ 32, itrN := s.itrN + 1 }
      (d.popOut o).ciPast n o

/-- Discard the completions of a ring's outstanding descriptors (R330, R331). -/
def Dev.dropOuts (d : Dev) (p : Src → Bool) : Dev :=
  { d with host := { d.host with out := d.host.out.map fun o => if p o.d.src then { o with drop := true } else o } }

/-- The descriptors fetched before a ring is enabled anew move its new consumer index no more (R316). -/
def Dev.oldOuts (d : Dev) (p : Src → Bool) : Dev :=
  { d with host := { d.host with out := d.host.out.map fun o => if p o.d.src then { o with old := true } else o } }

/-- The records held for an event ring that is no longer ACTIVE are dropped, but for markers: DROP counts them, and for the entries
of a THREAD_DATA record the thread's DROP (R316, R328, R330, R331). -/
def Dev.rgShed (d : Dev) (n : Nat) : Dev :=
  if n < 0x80 ∨ 0x180 ≤ n then d
  else
    let held := (d.RG n).held
    let d := d.onRG n fun s => { s with held := held.filter isMarker, fullAt := none }
    d.forL (held.filter fun b => !(isMarker b)) fun d b =>
      let d := d.rgDrop n
      if leNat b 0 2 = 0x0020 then d.tbump 0x30 (CTX.DROP (leNat b 4 2)) (byteAt b 2) else d

/-! ## Enabling and disabling (R316) -/

/-- The parameters of a ring allow it to be enabled (R316): its size, its alignment, and for a command ring its completion ring. -/
def Dev.rgValid (d : Dev) (n : Nat) : Bool :=
  let lim := if 0x80 ≤ n ∧ n < 0x180 then 12 else 8
  decide (d.rd (RG_CFG.SIZE n) ≤ lim) && decide (d.rgBase n % (entryBytes n * d.rgSize n) = 0) &&
    (if n < 0x40 then d.rgState (0x40 + d.rd (RG_CFG.CQ n)) == Rg.active else true)

/-- The source that a command ring's index names. -/
def srcOfRing (n : Nat) : Option Src :=
  if h : n < 64 then some (.host ⟨n, h⟩)
  else if h : 0x2C0 ≤ n ∧ n < 0x2C0 + 21 then some (.core ⟨n - 0x2C0, by omega⟩)
  else none

/-- A write of EN = 1 (R316). The agent and the register's offset serve the write-ignored status. -/
def Dev.rgEnable (d : Dev) (a n : Nat) : Dev :=
  let off := 0x8008 + 0x20 * n
  if d.rgState n = Rg.active ∨ d.rgState n = Rg.draining ∨ (d.rgState n ≠ Rg.disabled ∧ d.on (RG_CFG.EN n)) then
    (if d.on (RG_CFG.EN n) then d else d.wign a off 3)
  else if ¬ d.rgValid n then d.wign a off 3
  else
    let d := ((d.wr (RG_CFG.EN n) 1).wr (RG_PI.PI n) 0).wr (RG_CI.CI n) 0
    let d := if a = 0 then { d.wr CLK_STATUS.PE_REF 1 with host := { d.host with down := false } } else d
    let d := d.wr (RG_STATUS.STATE n) Rg.active
    let d := d.onRG n fun s => { s with itrN := 0, itrAt := none, fullAt := none, fetched := 0, fetchAt := none }
    let d := match srcOfRing n with
      | some src => d.oldOuts fun x => decide (x = src)
      | none => d
    let d := if n < 0x180 then { d with flt := { d.flt with dom := nput d.flt.dom (0xE000 + n) 0 } } else d
    let d := if n < 0x180 then d.sbWr (rgSb n) 0 4 else d.onRG (0x2E0 + (n - 0x2C0)) fun _ => {}
    if 0x80 ≤ n ∧ n < 0x180 then (d.ringSetUp (n - 0x80)).markersOn (n - 0x80) else d

/-- A command ring names completion ring `n` and is enabled (R316). -/
def Dev.cqNamed (d : Dev) (n : Nat) : Bool :=
  (List.range 64).any fun r => d.on (RG_CFG.EN r) && 0x40 + d.rd (RG_CFG.CQ r) == n

/-- A write of EN = 0 (R316). -/
def Dev.rgDisable (d : Dev) (a n : Nat) : Dev :=
  if ¬ d.on (RG_CFG.EN n) then d
  else if 0x40 ≤ n ∧ n < 0x80 ∧ d.cqNamed n then d.wign a (0x8008 + 0x20 * n) 3
  else
    let d := d.wr (RG_CFG.EN n) 0
    -- FLT_RING is set up no longer, in whichever state it is (09_faults.md R258)
    let d := if n = evRing (d.rd FLT_CFG.FLT_RING) then { d with flt := { d.flt with ring := false } } else d
    if d.rgState n ≠ Rg.active then d
    else if n < 0x40 ∨ 0x2C0 ≤ n then d.wr (RG_STATUS.STATE n) Rg.draining
    else
      let d := d.wr (RG_STATUS.STATE n) Rg.disabled
      (d.onRG n fun s => { s with fullAt := none }).rgShed n

/-- A ring goes HALTED after a failed fetch, and DESC_FAULT is raised with the ring code (R330). -/
def Dev.rgHalt (d : Dev) (n code agent : Nat) (addr : Nat) : Dev :=
  ((d.wr (RG_STATUS.STATE n) Rg.halted).onRG n fun s => { s with fetchAt := none }).raiseAt 0x71 code agent 5 (if n < 64 then 1 else 0) addr

/-- A command ring holds an eligible descriptor (R318, R322). -/
def Dev.eligible (d : Dev) (n : Nat) : Bool := d.rgState n == Rg.active && (d.RG n).fetched != d.rd (RG_PI.PI n)

/-- One ring becomes FENCED (R330). -/
def Dev.fenceRingOne (d : Dev) (n : Nat) : Dev :=
  let d := (d.wr (RG_STATUS.STATE n) Rg.fenced).rgShed n
  match srcOfRing n with
  | some src => d.dropOuts fun x => decide (x = src)
  | none => d

/-- FENCE-UNIT of a ring: every command ring that names a completion ring is fenced with it, as a member of its domain (R330;
09_faults.md R264). -/
def Dev.fenceRing (d : Dev) (n : Nat) : Dev :=
  if d.rgState n = Rg.disabled then d
  else
    let d' := d.fenceRingOne n
    if 0x40 ≤ n ∧ n < 0x80 then
      d'.forN 64 fun d r =>
        if d.rgState r ≠ Rg.disabled ∧ d.rgState r ≠ Rg.fenced ∧ 0x40 + d.rd (RG_CFG.CQ r) = n then
          let d := d.fenceRingOne r
          { d with flt := { d.flt with dom := nput d.flt.dom (0xE000 + r) (1 + 0xE000 + n) } }
        else d
    else d'

/-- UNFENCE of a host ring by descriptor: it is ACTIVE again with its indices kept, and an event ring takes what waits for it; with EN
cleared since, it drains or is DISABLED (R330; 09_faults.md R264; log 33). -/
def Dev.unfenceRing (d : Dev) (n : Nat) : Dev × Nat :=
  if d.rgState n ≠ Rg.fenced then (d, St.unitNotFenced)
  else if ¬ d.on (RG_CFG.EN n) then
    let busy := match srcOfRing n with
      | some src => (d.headOut src).isSome
      | none => false
    (d.wr (RG_STATUS.STATE n) (if busy then Rg.draining else Rg.disabled), St.success)
  else
    let d := d.wr (RG_STATUS.STATE n) Rg.active
    let d := if d.eligible n then d.onRG n fun s => { s with fetchAt := some d.now } else d
    if 0x80 ≤ n ∧ n < 0x180 then
      -- a ring that FLT_CFG has come to name while it was fenced is set up only now (09_faults.md R258)
      let d := if n ≠ evRing (d.rd FLT_CFG.FLT_RING) then d else if d.flt.ring then d.reportLost else d.ringSetUp (n - 0x80)
      (d.markersOn (n - 0x80), St.success)
    else (d, St.success)

end Sys2Proof.Machine
end

