-- ==== Sys2Proof/Machine/Cores.lean ====
section
/-! DEFINITION. The states of the Mograthes cores, their events and their fence (15_mograthes_cores.md R404, R420-R426;
12_host_rings.md R348). -/

namespace Sys2Proof.Machine

namespace Ks
/-- Core state codes (R422). -/
def off : Nat := 0
/-- HALTED -/
def halted : Nat := 1
/-- RUNNING -/
def running : Nat := 2
/-- WAITING -/
def waiting : Nat := 3
/-- FENCED -/
def fenced : Nat := 7
end Ks

/-- The state of core `c`. -/
def Dev.ks (d : Dev) (c : Nat) : Nat := d.rd (CORE_STATUS.STATE c)

/-- Core `c` is RUNNING or WAITING. -/
def Dev.coreBusy (d : Dev) (c : Nat) : Bool := d.ks c == Ks.running || d.ks c == Ks.waiting

/-- The KC runs on the standby oscillator while the hub is absent, or its root clock lost (R422, R426; 11_clocks_time.md R298). -/
def Dev.coreSlow (d : Dev) (c : Nat) : Bool := c == 20 && (!d.clk.hub || d.clk.rootLost)

/-- The count a core's windows are held in: Thyme ticks, or standby cycles for the KC while the hub is absent (R426). -/
def Dev.coreNow (d : Dev) (c : Nat) : Nat := if d.coreSlow c then d.clk.sb else d.now

/-- The watchdog window of a core: 800 to 80,000 ticks (R423, R426). -/
def Dev.wdtSpan (d : Dev) (c : Nat) : Nat := Nat.max 800 (Nat.min 80000 (d.rd (CORE_WDT.PERIOD c)))

/-- Ticks in a span of a core's count: a standby cycle counts for 50 (R426). -/
def Dev.coreTicks (d : Dev) (c n : Nat) : Nat := if d.coreSlow c then 50 * n else n

/-- The watchdog window of a core has closed: of the KC on the standby oscillator, after ceil(PERIOD / 50) cycles (R426). -/
def Dev.wdtOver (d : Dev) (c : Nat) : Bool :=
  match (d.K c).wdt with
  | none => false
  | some t => d.on (CORE_CFG.WDT_EN c) && decide (d.wdtSpan c ≤ (d.K c).wdtPast + d.coreTicks c (d.coreNow c - t))

/-- Core clocks in a span of that count: 2 ticks each, 16 for the KC, or one standby cycle (R399). -/
def Dev.coreClocks (d : Dev) (c n : Nat) : Nat := if d.coreSlow c then n else if c = 20 then n / 16 else n / 2

/-- The limit of a WAIT has passed (R419). -/
def Dev.waitOver (d : Dev) (c : Nat) (w : WaitSt) : Bool :=
  w.limit != 0 && decide (w.limit ≤ w.passed + d.coreClocks c (d.coreNow c - w.since))

/-- CORE_CYCLES takes in the time since the core began to run, up to now (R423). -/
def Dev.coreCount (d : Dev) (c : Nat) : Dev :=
  match (d.K c).ran with
  | none => d
  | some t =>
    let now := d.coreNow c
    let d := d.wr (CORE_CYCLES.CYCLES c) (d.rd (CORE_CYCLES.CYCLES c) + d.coreClocks c (now - t))
    d.onK c fun x => { x with ran := some now }

/-- The clock of the KC is about to change: CORE_CYCLES, its WAIT and its watchdog window take in what they have counted (R399, R422,
R426). -/
def Dev.kcHold (d : Dev) : Dev :=
  let d := d.coreCount 20
  let past := fun t => d.coreNow 20 - t
  let ticks := fun t => d.coreTicks 20 (past t)
  let clocks := fun t => d.coreClocks 20 (past t)
  d.onK 20 fun x => { x with wdtPast := x.wdtPast + (x.wdt.map ticks).getD 0,
                             wait := x.wait.map fun w => { w with passed := w.passed + clocks w.since } }

/-- The KC counts on from here on its new clock. -/
def Dev.kcGo (d : Dev) : Dev :=
  let now := d.coreNow 20
  d.onK 20 fun x => { x with ran := x.ran.map fun _ => now, wdt := x.wdt.map fun _ => now,
                             wait := x.wait.map fun w => { w with since := now } }

/-- Core `c` enters a state (R422). -/
def Dev.coreGo (d : Dev) (c st : Nat) : Dev :=
  let busy := st == Ks.running || st == Ks.waiting
  let was := d.coreBusy c
  let d := d.coreCount c
  let now := d.coreNow c
  let d := d.onK c fun x =>
    { x with ran := if ¬ busy then none else if was then x.ran else some now,
             wdt := if busy then x.wdt else none, wdtPast := if busy then x.wdtPast else 0, wait := if st = Ks.waiting then x.wait else none }
  d.wr (CORE_STATUS.STATE c) st

/-- A start: the architectural registers take their values at start, and the watchdog window opens (R404, R426). -/
def Dev.coreStart (d : Dev) (c : Nat) : Dev :=
  let now := d.coreNow c
  let pc := d.rd (CORE_CFG.ENTRY c)
  let d := d.onK c fun _ => { pc := pc, ran := some now, wdt := some now }
  d.wr (CORE_STATUS.STATE c) Ks.running

/-- A core halts: an access in progress is not performed (R422). -/
def Dev.coreHalt (d : Dev) (c : Nat) : Dev :=
  if d.coreBusy c then (d.coreGo c Ks.halted).onK c fun x => { x with hostRd := none, hostBuf := [] } else d

/-- An edge event of CORE_PEND; the KC receives none while the hub is absent (R420). -/
def Dev.corePend (d : Dev) (c b : Nat) : Dev :=
  if d.ks c = Ks.off ∨ d.coreSlow c then d else d.evt (CORE_PEND.PEND c) b

/-- The selvage fences core `c`: it stops, its internal rings, whose state IRc holds once for both, become FENCED in whatever state, and the ownership entries it holds become FENCED
(R422; 09_faults.md R260; 12_host_rings.md R348; 01_architecture.md R27). -/
def Dev.fenceCore (d : Dev) (c : Nat) : Dev :=
  if d.ks c = Ks.off ∨ d.ks c = Ks.fenced then d
  else
    let d := (d.coreGo c Ks.fenced).evt (CORE_EVT.EVT c) 2
    let mine := (List.range 384).filter fun n =>
      (d.rd (OWN.STATE n) == 1 || d.rd (OWN.STATE n) == 2) && d.rd (OWN.AGENT n) == 0x10 + c
    let d := d.onK c fun x => { x with hostRd := none, hostBuf := [], fenced := mine }
    (d.forL mine fun d n => d.fenceOwn n).fenceRingOne (0x2C0 + c)

/-- The watchdog window of a core has closed: CORE_LOCKUP, WDT_EXPIRED and the fence (R426). -/
def Dev.lockup (d : Dev) (c : Nat) : Dev := ((d.evt (CORE_EVT.EVT c) 1).raise 0x68 c (0x10 + c) 0).fenceCore c

/-- What a running or waiting core does on a clock on which its watchdog window closes is the fence alone (R422, precedence 2). -/
def Dev.unlessLocked (d : Dev) (c : Nat) (f : Dev → Dev) : Dev := if d.coreBusy c ∧ d.wdtOver c then d.lockup c else f d

/-- A core's internal rings go from FENCED to DISABLED with both indices at 0 (R422). -/
def Dev.freeIr (d : Dev) (c : Nat) : Dev :=
  let n := 0x2C0 + c
  if d.rgState n = Rg.fenced then
    (((((d.wr (RG_STATUS.STATE n) Rg.disabled).wr (RG_CFG.EN n) 0).wr (RG_PI.PI n) 0).wr (RG_CI.CI n) 0).onRG n
      fun _ => {}).onRG (0x2E0 + c) fun _ => {}
  else d

/-- UNFENCE of a core: it starts, and what was fenced with it returns (R422). -/
def Dev.unfenceCore (d : Dev) (c : Nat) : Dev × Nat :=
  if d.ks c ≠ Ks.fenced then (d, St.unitNotFenced)
  else
    let mine := (d.K c).fenced
    (((d.coreStart c).forL mine fun d n => d.unfenceOwn n).freeIr c, St.success)

/-- CONFIGURE entry halts a core, and ends its fence (R422; 10_modes_startup.md R484). -/
def Dev.coreConfigure (d : Dev) (c : Nat) : Dev :=
  if d.ks c = Ks.off then d
  else ((d.coreGo c Ks.halted).freeIr c).onK c fun x => { x with hostRd := none, hostBuf := [], fenced := [] }

end Sys2Proof.Machine
end

