-- ==== Sys2Proof/Machine/Desc.lean ====
section
/-! DEFINITION. How a descriptor takes effect: its place among the outstanding descriptors, the screening every opcode shares,
and its completion (12_host_rings.md R319-R325; 10_modes_startup.md R290, R293). -/

namespace Sys2Proof.Machine

/-- How many units a target class has (R320); the memory banks are listed, not counted. -/
def classCount (cls : Nat) : Nat :=
  match cls with
  | 0x0 => 1
  | 0x1 => 64
  | 0x2 => 512
  | 0x3 => 16
  | 0x4 => 64
  | 0x5 => 632
  | 0x6 => 32
  | 0x7 => 4096
  | 0x8 => 4
  | 0x9 => 16
  | 0xA => 16
  | 0xB => 21
  | 0xD => 8
  | 0xE => 0x180
  | _ => 0

/-- The target is of the class an opcode names, or of any unit's class, and its index exists (R320, R321). -/
def targetOk (want : Option Nat) (cls idx : Nat) : Bool :=
  (match want with
    | some c => cls == c
    | none => cls != 0 && cls != 0xF) &&
  (if cls = 0xC then allBanks.contains idx else decide (idx < classCount cls))

/-- The die a target lies on, `none` for the hub (01_architecture.md R9). -/
def targetDie (cls idx : Nat) : Option Nat :=
  match cls with
  | 0x1 => some (idx / 16)
  | 0x2 => some (idx / 128)
  | 0x3 => some 4
  | 0x4 => some 4
  | 0x5 => some (if idx < 512 then idx / 128 else if idx < 576 then (idx - 512) / 16 else 4)
  | 0x8 => some 4
  | 0xB => if idx < 16 then some (idx / 4) else if idx = 20 then some 4 else none
  | 0xC => dieOf 0x60 idx
  | _ => none

/-- The hub cannot reach a die: its link is out, or the entry die is in keep (09_faults.md R260; 17_register_map.md R451). -/
def Dev.dieOut (d : Dev) (die : Nat) : Bool := !(d.linkUp (dieLink die)) || (die == 4 && d.keep.on)

/-- A descriptor's target lies on a die the hub cannot reach; a pack is served by the standby island while the entry link is in
service (17_register_map.md R451). -/
def Dev.targetOut (d : Dev) (cls idx : Nat) : Bool :=
  match targetDie cls idx with
  | none => false
  | some die => if cls = 0x8 then !(d.linkUp 7) else d.dieOut die

/-- A descriptor of this opcode and these contents that has not begun is the first such one outstanding; where none has been
fetched, it is fetched now, as if the ring had held it next (R322; log 10), if there is room for one more. -/
def Dev.enter (d : Dev) (opc : Nat) (x : Desc) : Dev × Nat :=
  match d.host.out.find? fun o => o.opc == opc && decide (o.d = x) && !o.begun && o.result.isNone with
  | some o => (d, o.id)
  | none =>
    let i := d.host.nextId
    if ¬ d.outRoom x.src then (d, i)
    else
    let o : Out := { id := i, opc := opc, d := x }
    let d := { d with host := { d.host with out := d.host.out ++ [o], nextId := i + 1 } }
    match x.src.ring with
    | none => (d, i)
    | some n =>
      let d := if (d.RG n).fetched = d.rd (RG_PI.PI n) then d.wr (RG_PI.PI n) (d.rd (RG_PI.PI n) + 1) else d
      (d.onRG n fun s => { s with fetched := (s.fetched + 1) % 2 ^ 32 }, i)

/-- The descriptor begins. -/
def Dev.begin (d : Dev) (opc : Nat) (x : Desc) : Dev × Nat :=
  let (d, i) := d.enter opc x
  ({ d with host := { d.host with out := d.host.out.map fun p => if p.id = i then { p with begun := true } else p } }, i)

/-- The unit that a descriptor names, by its target or, for FUSE_POLICY_LOAD, TABLE_LOAD, SEQ_LOAD and PACK_READ, by its payload
(R323): a number of its own for each unit, policy record and table. -/
def descUnit (opc : Nat) (x : Desc) : Option Nat :=
  match opc with
  | 0x18 => some (0x10000 + byteAt x.payload 0)
  | 0x19 => some (0x20000 + 0x100 * byteAt x.payload 0 + byteAt x.payload 1)
  | 0x1A => some (0x5000 + 624 + byteAt x.payload 0 % 8)
  | 0x31 => some (0x8000 + byteAt x.payload 0 % 4)
  | _ => if x.cls = 0 then none else some (0x1000 * x.cls.toNat + x.idx.toNat)

/-- A descriptor of a higher ring code has taken effect on the same unit on this tick, so this one, which would have come first, has not been
under way then and waits for a later tick (R323). -/
def Dev.outranked (d : Dev) (opc : Nat) (x : Desc) : Bool :=
  match descUnit opc x with
  | none => false
  | some u => d.host.took.any fun y => y.1 == d.now && y.2.1 == u && decide (x.src.ringCode < y.2.2)

/-- A descriptor takes effect on its unit on this tick (R323). -/
def Dev.take (d : Dev) (opc : Nat) (x : Desc) : Dev :=
  match descUnit opc x with
  | none => d
  | some u =>
    { d with host := { d.host with took := (d.now, u, x.src.ringCode) :: d.host.took.filter fun y => y.1 == d.now } }

/-- An earlier outstanding descriptor of the same ring that names the same unit has not completed, so this one does not take effect
yet (R323); nor does one that a higher ring code preceded on this tick, or one for which there is no room (01_architecture.md R11). -/
def Dev.blocked (d : Dev) (opc : Nat) (x : Desc) : Bool :=
  let (d, i) := d.enter opc x
  !(d.host.out.any fun o => o.id == i) || d.outranked opc x || (descUnit opc x).isSome &&
    d.host.out.any fun o => decide (o.d.src = x.src ∧ o.id < i) && o.result.isNone && descUnit o.opc o.d == descUnit opc x

/-- The address space and address of an outstanding descriptor (09_faults.md R250). -/
def Dev.outAddr (d : Dev) (i : Nat) (src : Src) : Nat × Nat :=
  match src.ring with
  | none => (3, 0xFF)
  | some n =>
    let k := ((d.host.out.filter fun o => decide (o.d.src = src) && !o.old).findIdx fun o => o.id == i)
    (if n < 64 then 1 else 0, d.rgBase n + 64 * ((d.rd (RG_CI.CI n) + k) % d.rgSize n))

/-- A descriptor completes; DESC_INVALID, OPCODE_INVALID and TARGET_INVALID also raise DESC_FAULT (R321). -/
def Dev.endDesc (d : Dev) (i : Nat) (src : Src) (st : Nat) : Dev :=
  let d := d.complete (.out i) st
  if st = St.descInvalid ∨ st = St.opcodeInvalid ∨ st = St.targetInvalid then
    let a := d.outAddr i src
    d.raiseAt 0x71 src.ringCode src.agent 5 a.1 a.2
  else d

/-- A descriptor takes effect now: screened by its header, its target, SAFE (10_modes_startup.md R290), the owner of its domain
(10_modes_startup.md R293) and the link to its die (09_faults.md R260), in that order, and then by its own rule, which answers a
status or waits with the token it was given (log 10). -/
def Dev.runNow (d : Dev) (opc : Nat) (x : Desc) (want : Option Nat) (safeOk : Bool) (dom : Option Nat)
    (body : Dev → Token → Dev × Option Nat) : Dev :=
  let (d, i) := d.begin opc x
  if x.dirty then d.endDesc i x.src St.descInvalid
  else if ¬ targetOk want x.cls.toNat x.idx.toNat then d.endDesc i x.src St.targetInvalid
  else if d.md = Md.safe ∧ ¬ safeOk then d.endDesc i x.src St.wrongMode
  else if (match dom with | some k => ! d.mayCommand k x.src.agent | none => false) then d.endDesc i x.src St.notOwner
  else if d.targetOut x.cls.toNat x.idx.toNat then d.endDesc i x.src St.linkFenced
  else
    let (d, st) := body (d.take opc x) (.out i)
    match st with
    | some st => d.endDesc i x.src st
    | none => d

/-- A descriptor takes effect, unless an earlier one of its ring on the same unit has not completed: behind that one it stays
outstanding, to be commanded again (R323; log 10). -/
def Dev.runDesc (d : Dev) (opc : Nat) (x : Desc) (want : Option Nat) (safeOk : Bool) (dom : Option Nat)
    (body : Dev → Token → Dev × Option Nat) : Dev :=
  if d.blocked opc x then (d.enter opc x).1 else d.runNow opc x want safeOk dom body

/-- Bytes `lo` to `hi` of a payload are 0. -/
def zeroBytes (p : List Byte) (lo hi : Nat) : Bool := (List.range (hi + 1 - lo)).all fun k => byteAt p (lo + k) == 0

/-- The whole payload is 0. -/
def zeroPayload (p : List Byte) : Bool := zeroBytes p 0 47

/-- A mode request of a target code, by descriptor or by a write of MODE_REQ (10_modes_startup.md R272, R293). -/
def Dev.runMode (d : Dev) (q : Req) (code : Nat) (body : Dev → Token → Dev × Option Nat) : Dev :=
  let free := code == 6 || code == 8
  match q with
  | .desc x =>
    d.runDesc 0x02 x (some 0) free (if free then none else some 0) fun d t =>
      if byteAt x.payload 0 = code ∧ zeroBytes x.payload 1 47 then body d t else (d, some St.descInvalid)
  | .reg a =>
    if ¬ d.clk.hub then d
    else if ¬ free ∧ ¬ d.mayCommand 0 a.toNat then d.complete .modeReg St.notOwner
    else
      let (d, st) := body d .modeReg
      match st with
      | some st => d.complete .modeReg st
      | none => d

end Sys2Proof.Machine
end

