-- ==== Sys2Proof/Machine/Float.lean ====
section
/-! DEFINITION. IEEE 754 binary32 on the bits of a word, each operation exact and then rounded to nearest, ties to even
(02_power_entry.md R40; 08_battery_estimation.md R225), and the correctly rounded exponential (log 12). -/

namespace Sys2Proof.Machine

/-- A binary32 value: `(-1)^neg * m * 2^e`, an infinity, or not a number. -/
inductive FP where
  | fin (neg : Bool) (m : Nat) (e : Int)
  | inf (neg : Bool)
  | nan
  deriving DecidableEq, Repr

/-- The value a word encodes. -/
def FP.dec (w : Word) : FP :=
  let n := w.toNat
  let neg := n.testBit 31
  let ex : Nat := n / 2 ^ 23 % 256
  let fr : Nat := n % 2 ^ 23
  if ex = 255 then (if fr = 0 then .inf neg else .nan)
  else if ex = 0 then .fin neg fr (-149)
  else .fin neg (fr + 2 ^ 23) ((ex : Int) - 150)

/-- A quotient of naturals rounded to nearest, ties to even. -/
def rneNat (n d : Nat) : Nat :=
  let q := n / d
  let r := n % d
  if 2 * r < d then q else if 2 * r > d then q + 1 else if q % 2 = 0 then q else q + 1

/-- The sign bit of a word. -/
def signBit (neg : Bool) : Nat := if neg then 2 ^ 31 else 0

/-- `n / d` (with `d` positive) times `2 ^ s`, rounded to binary32. -/
def fRound (neg : Bool) (n d : Nat) (s : Int := 0) : Word :=
  let n := if 0 ≤ s then n * 2 ^ s.toNat else n
  let d := if 0 ≤ s then d else d * 2 ^ (-s).toNat
  if n = 0 ∨ d = 0 then BitVec.ofNat 32 (signBit neg)
  else
    let k0 : Int := (Nat.log2 n : Int) - (Nat.log2 d : Int)
    -- the exponent of the leading bit
    let k : Int := if (if 0 ≤ k0 then decide (n < d * 2 ^ k0.toNat) else decide (n * 2 ^ (-k0).toNat < d)) then k0 - 1 else k0
    let e : Int := if k - 23 < -149 then -149 else k - 23
    let m := if 0 ≤ e then rneNat n (d * 2 ^ e.toNat) else rneNat (n * 2 ^ (-e).toNat) d
    let (m, e) := if m = 2 ^ 24 then (2 ^ 23, e + 1) else (m, e)
    if e > 104 then BitVec.ofNat 32 (signBit neg + 255 * 2 ^ 23)
    else if m < 2 ^ 23 then BitVec.ofNat 32 (signBit neg + m)
    else BitVec.ofNat 32 (signBit neg + (e + 150).toNat * 2 ^ 23 + (m - 2 ^ 23))

/-- The quiet not-a-number. -/
def fNaN : Word := 0x7FC00000

/-- An infinity. -/
def fInf (neg : Bool) : Word := BitVec.ofNat 32 (signBit neg + 255 * 2 ^ 23)

/-- A signed integer over a positive natural, rounded to binary32. -/
def fRat (n : Int) (d : Nat) : Word := fRound (decide (n < 0)) n.natAbs d

/-- A signed integer in binary32. -/
def fInt (n : Int) : Word := fRat n 1

/-- The negative of a value. -/
def fNeg (a : Word) : Word := a ^^^ 0x80000000

/-- The sum. -/
def fAdd (a b : Word) : Word :=
  match FP.dec a, FP.dec b with
  | .nan, _ => fNaN
  | _, .nan => fNaN
  | .inf x, .inf y => if x = y then fInf x else fNaN
  | .inf x, _ => fInf x
  | _, .inf y => fInf y
  | .fin x m e, .fin y n f =>
    let s := if e ≤ f then e else f
    let u : Int := m * 2 ^ (e - s).toNat
    let v : Int := n * 2 ^ (f - s).toNat
    let t : Int := (if x then -u else u) + (if y then -v else v)
    if t = 0 then BitVec.ofNat 32 (signBit (x && y)) else fRound (decide (t < 0)) t.natAbs 1 s

/-- The difference. -/
def fSub (a b : Word) : Word := fAdd a (fNeg b)

/-- The product. -/
def fMul (a b : Word) : Word :=
  match FP.dec a, FP.dec b with
  | .nan, _ => fNaN
  | _, .nan => fNaN
  | .inf x, .inf y => fInf (x != y)
  | .inf x, .fin y n _ => if n = 0 then fNaN else fInf (x != y)
  | .fin x m _, .inf y => if m = 0 then fNaN else fInf (x != y)
  | .fin x m e, .fin y n f => fRound (x != y) (m * n) 1 (e + f)

/-- The quotient. -/
def fDiv (a b : Word) : Word :=
  match FP.dec a, FP.dec b with
  | .nan, _ => fNaN
  | _, .nan => fNaN
  | .inf _, .inf _ => fNaN
  | .inf x, .fin y _ _ => fInf (x != y)
  | .fin x _ _, .inf y => BitVec.ofNat 32 (signBit (x != y))
  | .fin x m e, .fin y n f =>
    if n = 0 then (if m = 0 then fNaN else fInf (x != y)) else fRound (x != y) m n (e - f)

/-- `a < b`; false if either is not a number. -/
def fLt (a b : Word) : Bool :=
  match FP.dec a, FP.dec b with
  | .nan, _ => false
  | _, .nan => false
  | .inf x, .inf y => x && !y
  | .inf x, _ => x
  | _, .inf y => !y
  | .fin x m e, .fin y n f =>
    let s := if e ≤ f then e else f
    let u : Int := m * 2 ^ (e - s).toNat
    let v : Int := n * 2 ^ (f - s).toNat
    decide ((if x then -u else u) < (if y then -v else v))

/-- `a ≤ b`; false if either is not a number. -/
def fLe (a b : Word) : Bool := match FP.dec a, FP.dec b with
  | .nan, _ => false
  | _, .nan => false
  | _, _ => !fLt b a

/-- The larger of two values. -/
def fMax (a b : Word) : Word := if fLt a b then b else a

/-- The magnitude. -/
def fAbs (a : Word) : Word := a &&& 0x7FFFFFFF

/-- The value times `num / den`, rounded to an integer, ties to even, and clipped (an infinity clips; not a number gives 0). -/
def fToInt (a : Word) (num den : Nat) (lo hi : Int) : Int :=
  match FP.dec a with
  | .nan => 0
  | .inf x => if x then lo else hi
  | .fin x m e =>
    let q : Nat := if 0 ≤ e then rneNat (m * 2 ^ e.toNat * num) den else rneNat (m * num) (den * 2 ^ (-e).toNat)
    clip lo hi (if x then -(q : Int) else q)

/-- The value times `num / den`, rounded toward zero. -/
def fTrunc (a : Word) (num den : Nat) : Int :=
  match FP.dec a with
  | .nan => 0
  | .inf _ => 0
  | .fin x m e =>
    let q : Nat := if 0 ≤ e then m * 2 ^ e.toNat * num / den else m * num / (den * 2 ^ (-e).toNat)
    if x then -(q : Int) else q

/-- Fixed point with 200 fraction bits: `k` terms of the series of exp(-y) for `0 ≤ y`, from term `i`, whose value is `t`. -/
def expSeries : Nat → Nat → Int → Int → Int
  | 0, _, _, _ => 0
  | k + 1, i, t, y => t + expSeries k (i + 1) (-(t * y) / (2 ^ 200 * ((i : Int) + 1))) y

/-- Square a fixed-point number `k` times. -/
def sqTimes : Nat → Int → Int
  | 0, v => v
  | k + 1, v => sqTimes k (v * v / 2 ^ 200)

/-- exp(-n/d) rounded to binary32: the argument is halved until it is below 1, the series summed, and the result
squared back (02_power_entry.md R40; log 12). Below 2^-150 the result is 0. -/
def fExpNeg (n d : Nat) : Word :=
  if d = 0 ∨ 110 * d < n then 0
  else
    let h := if n < d then 0 else Nat.log2 (n / d) + 1
    let y : Int := (n * 2 ^ 200 / (d * 2 ^ h) : Nat)
    let v := sqTimes h (expSeries 60 0 (2 ^ 200) y)
    fRound false v.toNat (2 ^ 200)

/-- exp(-x) for a binary32 x that is not negative, rounded to binary32 (08_battery_estimation.md R225; log 12). -/
def fExp32 (x : Word) : Word :=
  match FP.dec x with
  | .fin false m e => if 0 ≤ e then fExpNeg (m * 2 ^ e.toNat) 1 else fExpNeg m (2 ^ (-e).toNat)
  | .inf false => 0
  | _ => fNaN

end Sys2Proof.Machine
end

