-- ==== Sys2Proof/Machine/Crc.lean ====
section
/-! DEFINITION. The two cyclic redundancy checks of the spec (06_load_intent.md R150; 08_battery_estimation.md R239;
14_two_wire.md R394), and the RS(544,514) code of the stream link's lanes (13_stream_link.md R352). -/

namespace Sys2Proof.Machine

/-- One bit of the CRC-8 with polynomial 0x07. -/
def crc8Bit (c : Nat) : Nat := if c.testBit 7 then (2 * c % 256) ^^^ 0x07 else 2 * c

/-- CRC-8 of bytes, each most significant bit first, from an initial value (R150, R394). -/
def crc8 (init : Nat) (bs : List Byte) : Nat :=
  bs.foldl (fun c b => (List.range 8).foldl (fun c _ => crc8Bit c) (c ^^^ b.toNat)) init

/-- One bit of the reflected CRC-32 with polynomial 0x04C1_1DB7. -/
def crc32Bit (c : Nat) : Nat := if c % 2 = 1 then (c / 2) ^^^ 0xEDB88320 else c / 2

/-- CRC-32 of IEEE 802.3 (R239). -/
def crc32 (bs : List Byte) : Nat :=
  (bs.foldl (fun c b => (List.range 8).foldl (fun c _ => crc32Bit c) (c ^^^ b.toNat)) 0xFFFFFFFF) ^^^ 0xFFFFFFFF

/-! ## RS(544,514) over GF(2^10) (13_stream_link.md R352) -/

/-- Multiplication by x in GF(2^10) with field polynomial x^10 + x^3 + 1. -/
def gfDouble (a : Nat) : Nat := if a.testBit 9 then (2 * a) ^^^ 0x409 else 2 * a

/-- Multiplication in GF(2^10). -/
def gfMul (a b : Nat) : Nat :=
  ((List.range 10).foldl (fun (x : Nat × Nat) k => (if b.testBit k then x.1 ^^^ x.2 else x.1, gfDouble x.2)) (0, a)).1

/-- A polynomial, its highest coefficient first, times x + r. -/
def polyRoot (r : Nat) (p : List Nat) : List Nat := List.zipWith (· ^^^ ·) (p ++ [0]) (0 :: p.map (gfMul r))

/-- The product of x + x^j for `n` powers from `r` on. -/
def rsRoots : Nat → Nat → List Nat → List Nat
  | 0, _, p => p
  | n + 1, r, p => rsRoots n (gfDouble r) (polyRoot r p)

/-- The generator polynomial of IEEE 802.3 Clause 91: the product of x + α^j, j = 0 to 29, without its leading 1 (PRESUMED, log 14). -/
def rsGen : List Nat := (rsRoots 30 1 [1]).drop 1

/-- The 30 parity symbols of message symbols, the first sent first. -/
def rsParity (msg : List Nat) : List Nat :=
  let g := rsGen
  msg.foldl (fun p m =>
    let f := m ^^^ p.headD 0
    List.zipWith (· ^^^ ·) (p.drop 1 ++ [0]) (g.map (gfMul f))) (List.replicate 30 0)

/-- Symbols of ten bits as one number, the first symbol lowest. -/
def packSyms : List Nat → Nat
  | [] => 0
  | s :: r => s + 1024 * packSyms r

end Sys2Proof.Machine
end

