-- ==== Sys2Proof/Machine/Threads.lean ====
section
/-! DEFINITION. Thread output: result entries, the filters, event records, stream and archive blocks and pages
(07_conversion.md R214-R216; 12_host_rings.md R335-R344; 13_stream_link.md R367-R372). -/

namespace Sys2Proof.Machine

/-! ## Tags and values (07_conversion.md R186, R214, R215) -/

/-- The VALUE of a tag is signed (R186). -/
def tagSigned (t : Nat) : Bool :=
  match t / 512 with
  | 0 => true | 1 => true
  | 2 => t % 512 % 3 == 0
  | 3 => decide (t % 512 < 256 ∧ t % 32 < 8)
  | 4 => decide (t % 512 < 20)
  | 5 => t % 8 == 1
  | _ => false

/-- A 16-bit VALUE as a number (R186). -/
def valueOf (t v : Nat) : Int := if tagSigned t then sext 16 v else ((v % 2 ^ 16 : Nat) : Int)

/-- What filters compute on: VALUE, for class 4 VALUE * 256 + EXT (R215). -/
def entryVal (e : Entry) : Int :=
  if e.tag.toNat / 512 = 4 then valueOf e.tag.toNat e.value.toNat * 256 + e.ext.toNat else valueOf e.tag.toNat e.value.toNat

/-- The entry with another value (R215). -/
def entryWith (e : Entry) (v : Int) : Entry :=
  if e.tag.toNat / 512 = 4 then { e with value := BitVec.ofNat 16 (trunc 24 v / 256), ext := BitVec.ofNat 8 (trunc 24 v) }
  else { e with value := BitVec.ofNat 16 (trunc 16 v) }

/-- The 64-bit result queue entry (R214). -/
def entryWord (e : Entry) : Nat :=
  e.stamp % 2 ^ 32 * 2 ^ 32 + b2n e.cal * 2 ^ 31 + b2n e.inj * 2 ^ 30 + b2n e.spec * 2 ^ 29 + b2n e.win * 2 ^ 28 +
  e.tag.toNat * 2 ^ 16 + e.value.toNat

/-- The flags of an entry as the TAG field of a GRID block holds them (13_stream_link.md R370). -/
def gridTag (e : Entry) : Nat :=
  e.tag.toNat + b2n e.win * 2 ^ 12 + b2n e.spec * 2 ^ 13 + b2n e.inj * 2 ^ 14 + b2n e.cal * 2 ^ 15

/-! ## Thread configuration (12_host_rings.md R335) -/

/-- SRC_KIND -/
def Dev.tKind (d : Dev) (t : Nat) : Nat := d.rd (CTX.CFG t 0) % 4
/-- SEGMENT -/
def Dev.tSeg (d : Dev) (t : Nat) : Nat := d.rd (CTX.CFG t 2) % 16
/-- FILTER -/
def Dev.tFilter (d : Dev) (t : Nat) : Nat := d.rd (CTX.CFG t 20)
/-- DEST -/
def Dev.tDest (d : Dev) (t : Nat) : Nat := d.rd (CTX.CFG t 21) % 4
/-- The stream overflow policy is automatic decimation -/
def Dev.tAuto (d : Dev) (t : Nat) : Bool := d.rd (CTX.CFG t 21) / 16 % 4 == 1
/-- DEST_INDEX -/
def Dev.tIdx (d : Dev) (t : Nat) : Nat := d.rd (CTX.CFG16 t 22)
/-- STATE -/
def Dev.tState (d : Dev) (t : Nat) : Nat := d.rd (CTX.STATE t)
/-- The configuration as 48 bytes -/
def Dev.tCfg (d : Dev) (t : Nat) : List Byte := (List.range 12).flatMap fun k => leBytes (d.rd (CTX.CFG32 t (4 * k))) 4

/-- A tag is a source of a configuration (R335). -/
def cfgSources (cfg : List Byte) (tag : Nat) : Bool :=
  if byteAt cfg 0 % 4 = 0 then (List.range (byteAt cfg 1)).any fun k => leNat cfg (4 + 2 * k) 2 % 4096 == tag
  else decide (leNat cfg 4 2 ≤ tag ∧ tag < leNat cfg 4 2 + leNat cfg 6 2)

/-- The tags of a configuration, in order. -/
def cfgTags (cfg : List Byte) : List Nat :=
  if byteAt cfg 0 % 4 = 0 then (List.range (byteAt cfg 1)).map fun k => leNat cfg (4 + 2 * k) 2 % 4096
  else (List.range (leNat cfg 6 2)).map fun k => leNat cfg 4 2 + k

/-- Thread `t` takes an entry (R335, R338): window events alone with SRC_KIND 2. -/
def Dev.tTakes (d : Dev) (t : Nat) (e : Entry) : Bool :=
  cfgSources (d.tCfg t) e.tag.toNat && (d.tKind t != 2 || e.win)

/-- An entry is a trigger of capture thread `t`: a window event of its TRIG_TAG (R338). -/
def Dev.tTrig (d : Dev) (t : Nat) (e : Entry) : Bool :=
  d.tFilter t == 5 && d.rd (CTX.CFG16 t 26) % 4 == 1 && e.win && d.rd (CTX.CFG16 t 28) == e.tag.toNat &&
  (d.tState t == 2 || d.tState t == 3)

/-- The threads whose STATE is not CLOSED, lowest first. -/
def Dev.openThreads (d : Dev) : List Nat :=
  d.regs.filterMap fun x =>
    if 0x40000 ≤ x.1 ∧ x.1 < 0x80000 ∧ x.1 % 64 = 0x30 ∧ x.2.toNat % 256 ≠ 0 then some ((x.1 - 0x40000) / 64) else none

/-- Thread `t` filters entries: open, armed or capturing, and not closing (R336, R340). -/
def Dev.tRuns (d : Dev) (t : Nat) : Bool :=
  (d.tState t == 1 || d.tState t == 2 || d.tState t == 3) && (d.T t).closing.isNone

/-- A die forwards a sample to the hub: some open thread sources its tag, or it is a window event (01_architecture.md R15). -/
def Dev.forwards (d : Dev) (e : Entry) : Bool := e.win || d.openThreads.any fun t => d.tRuns t && d.tTakes t e

/-! ## Blocks (13_stream_link.md R370-R372) -/

/-- Bits per sample of a GRID block (R371). -/
def gridWidth (tag : Nat) : Nat :=
  match tag / 512 % 8 with
  | 0 => 14 | 1 => 14 | 2 => 14 | 3 => 12 | 4 => 24 | _ => 16

/-- The packed value of an entry (R371). -/
def packed (e : Entry) : Nat :=
  if e.tag.toNat / 512 = 1 then trunc 14 (clip (-8192) 8191 (entryVal e)) else trunc (gridWidth e.tag.toNat) (entryVal e)

/-- Payload bytes of a block of `n` entries. -/
def payloadLen (btype width n : Nat) : Nat :=
  if btype = 2 then 8 * n else if btype = 1 then (n * width + 31) / 32 * 4 else 0

/-- LENGTH of a block. -/
def Block.len (b : Block) : Nat := 32 + payloadLen b.btype (gridWidth b.tag) b.entries.length

/-- The packed samples as one number, sample 0 lowest. -/
def packBits (width : Nat) : List Entry → Nat
  | [] => 0
  | e :: r => packed e + 2 ^ width * packBits width r

/-- The payload of a block (R370). -/
def Block.payload (b : Block) : List Byte :=
  if b.btype = 2 then b.entries.flatMap fun e => leBytes (entryWord e) 8
  else leBytes (packBits (gridWidth b.tag) b.entries) (payloadLen b.btype (gridWidth b.tag) b.entries.length)

/-- The header of a block without its CRC (R370). -/
def Block.head (b : Block) : List Byte :=
  leBytes b.btype 1 ++ leBytes b.k 1 ++ leBytes b.thread 2 ++ leBytes b.tag 2 ++
  leBytes (if b.btype = 1 then gridWidth b.tag else if b.btype = 2 then 64 else b.ring) 1 ++ [0] ++
  leBytes b.stamp 8 ++ leBytes b.spacing 4 ++ leBytes b.entries.length 2 ++ leBytes b.len 2 ++ leBytes b.dropped 4

/-- A block as bytes (R370). -/
def Block.bytes (b : Block) : List Byte := b.head ++ leBytes (crc32 (b.head ++ b.payload)) 4 ++ b.payload

/-! ## Event records of threads (12_host_rings.md R327, R342) -/

/-- The event ring that takes a thread's THREAD_STATUS: its own, or the ring of ARCHIVE_PAGE for an archive or stream thread
(log 17). -/
def Dev.tRing (d : Dev) (t : Nat) : Nat := if d.tDest t = 0 then d.tIdx t % 256 else d.rd ARCH_CFG.ARCH_RING

/-- Write the open THREAD_DATA record of a thread (R342); dropped entries count in the thread's DROP (R328). -/
def Dev.dataOut (d : Dev) (t : Nat) : Dev :=
  let es := (d.T t).data
  if es = [] then d
  else
    let rec' := leBytes 0x0020 2 ++ leBytes es.length 1 ++ [0] ++ leBytes t 2 ++ [0, 0] ++
      ((es.flatMap fun e => leBytes (entryWord e) 8) ++ List.replicate (24 - 8 * es.length) 0)
    let d := d.onT t fun x => { x with data := [] }
    match d.evThread (d.tRing t) rec' with
    | (d, true) => d
    | (d, false) => d.tbump 0x30 (CTX.DROP t) es.length

/-- Write THREAD_STATUS with a reason (R327). -/
def Dev.thrStatus (d : Dev) (t reason : Nat) : Dev :=
  let d := d.dataOut t
  (d.evThread (d.tRing t) (leBytes 0x0021 2 ++ leBytes reason 1 ++ [0] ++ leBytes t 2 ++ [0, 0] ++
    leBytes (d.rd (CTX.PRODUCED t)) 4 ++ leBytes (d.rd (CTX.DROP t)) 4 ++ leBytes d.now 8 ++ List.replicate 8 0)).1

/-- Entries of a thread are dropped: its DROP and the DROPPED field of its next block count them (13_stream_link.md R368). -/
def Dev.thrDrop (d : Dev) (t n : Nat) : Dev := (d.tbump 0x30 (CTX.DROP t) n).onT t fun x => { x with lost := x.lost + n }

/-! ## Stream virtual channels (13_stream_link.md R367-R369) -/

/-- VC `v` is enabled: claimed with FUNCTION 0x1 and not fenced (R367). -/
def Dev.vcEnabled (d : Dev) (v : Nat) : Bool := d.heldAs 5 v 1

/-- Bytes of data blocks queued in a VC; markers lie outside the stream buffer (R368). -/
def VcSt.fill (s : VcSt) : Nat :=
  ((s.q.filter fun b => b.btype ≠ 3).foldl (fun n b => n + b.len) 0) - (match s.q with | b :: _ => if b.btype = 3 then 0 else s.off | [] => 0)

/-- Show VC_FILL. -/
def Dev.vcShow (d : Dev) (v : Nat) : Dev := d.wr (VC_FILL.FILL v) (d.V v).fill

/-- Bytes of the stream buffer whose banks are online (16_memory_protection.md R439). -/
def Dev.bufferRoom (d : Dev) : Nat :=
  ((List.range 16).filter fun k => ! d.bankOff (0x60 + k)).length * 0x80000

/-- Bytes queued in all VCs. -/
def Dev.bufferFill (d : Dev) : Nat := (List.range 16).foldl (fun n v => n + (d.V v).fill) 0

/-- A further block fits in VC `v` (R368; 16_memory_protection.md R439). -/
def Dev.vcFits (d : Dev) (v len : Nat) : Bool :=
  decide ((d.V v).fill + len ≤ d.rd (VC_CFG.QUOTA v) * 0x10000 ∧ d.bufferFill + len ≤ d.bufferRoom)

/-- A block of a thread is discarded: DROP_BLK, DROP and DROPPED count it; the first drop is reported (R368). -/
def Dev.blkDrop (d : Dev) (v : Nat) (b : Block) : Dev :=
  let d := d.bump (VC_CNT.DROP_BLK v)
  let d := (d.tbump 0x30 (CTX.DROP b.thread) b.entries.length).onT b.thread fun x =>
    { x with lost := x.lost + b.entries.length + b.dropped }
  if (d.T b.thread).dropping then d
  else (d.onT b.thread fun x => { x with dropping := true }).thrStatus b.thread 2

/-- The oldest whole block of a thread in a queue that has not begun transmission, and the queue without it. -/
def takeOldest (t off : Nat) : List Block → Option (Block × List Block)
  | [] => none
  | b :: r =>
    if b.btype ≠ 3 ∧ b.thread = t ∧ off = 0 then some (b, r)
    else (takeOldest t 0 r).map fun x => (x.1, b :: x.2)

/-- Drop-oldest: discard old blocks of the thread until the new one fits (R368). -/
def Dev.vcMakeRoom (d : Dev) (v t len : Nat) : Nat → Dev
  | 0 => d
  | fuel + 1 =>
    if d.vcFits v len then d
    else match takeOldest t (d.V v).off (d.V v).q with
      | none => d
      | some (b, q) => (((d.onV v fun s => { s with q := q }).vcShow v).blkDrop v b).vcMakeRoom v t len fuel

/-- A bank of the stream buffer that is online, for a block that is queued: the spec does not say which, nor where in it (log 5;
16_memory_protection.md R439). -/
def Dev.freeBank (d : Dev) : Nat :=
  let on := (List.range 16).filter fun k => ! d.bankOff (0x60 + k)
  on.getD (d.freeVal % on.length) 0

/-- A data block closes for VC `v` (R367, R368). -/
def Dev.vcQueue (d : Dev) (v : Nat) (b : Block) : Dev :=
  if ¬ d.vcEnabled v then d.blkDrop v b
  else
    let d := if d.tAuto b.thread then d else d.vcMakeRoom v b.thread b.len (d.V v).q.length
    if d.vcFits v b.len then
      let b := { b with dropped := (d.T b.thread).lost, bank := d.freeBank, gran := d.freeVal / 16 % (0x10000 - 512) }
      let d := (d.nextFree.bankFresh (0x60 + b.bank) (8 * b.gran) b.len).onT b.thread fun x => { x with lost := 0 }
      (d.onV v fun s => { s with q := s.q ++ [b] }).vcShow v
    else d.blkDrop v b

/-! ## The archive (12_host_rings.md R343, R344) -/

/-- The host address of archive page `k` and its VALID bit. -/
def Dev.pageEntry (d : Dev) (k : Nat) : Nat × Bool :=
  let w := leNat (d.hRd (d.rd ARCH_PT_HI.PT_HI * 2 ^ 32 + d.rd ARCH_PT_LO.PT_LO * 0x1000 + 8 * k) 8) 0 8
  (w / 0x10000 % 2 ^ 32 * 0x10000, w.testBit 0)

/-- Set the free pool. -/
def Dev.setPool (d : Dev) (p : List Nat) : Dev := { d with host := { d.host with pool := p } }.wr ARCH_FREE.FREE p.length

/-- Report the current page of a thread (R343): the tail zero-filled, ARCHIVE_PAGE on ARCH_RING. -/
def Dev.pageOut (d : Dev) (t : Nat) (partialPage : Bool) : Dev :=
  match (d.T t).page with
  | none => d
  | some (k, used, first, last) =>
    let d := d.hWr ((d.pageEntry k).1 + used) (List.replicate (0x10000 - used) 0)
    let d := (d.onT t fun x => { x with page := none })
    let d := { d with host := { d.host with rep := d.host.rep ++ [k] } }
    (d.evThread (d.rd ARCH_CFG.ARCH_RING) (leBytes 0x0024 2 ++ leBytes (b2n partialPage) 2 ++ leBytes t 2 ++ [0, 0] ++
      leBytes k 4 ++ leBytes used 4 ++ leBytes first 8 ++ leBytes last 8)).1

/-- The spool takes a block of a thread (R343); false if the pool is empty. -/
def Dev.spool (d : Dev) (t : Nat) (b : Block) : Dev × Bool :=
  let d := match (d.T t).page with
    | some (_, used, _, _) => if 0x10000 < used + b.len then d.pageOut t false else d
    | none => d
  let d := match (d.T t).page, d.host.pool with
    | none, k :: r => (d.setPool r).onT t fun x => { x with page := some (k, 0, b.stamp, b.stamp) }
    | _, _ => d
  match (d.T t).page with
  | none => (d, false)
  | some (k, used, first, _) =>
    let d := d.hWr ((d.pageEntry k).1 + used) b.bytes
    let d := d.onT t fun x => { x with page := some (k, used + b.len, if used = 0 then b.stamp else first, b.stamp) }
    (if used + b.len = 0x10000 then d.pageOut t false else d, true)

/-- Host-managed: write a block at the byte count W (R344); false if no space is left. -/
def Dev.ringArchive (d : Dev) (t : Nat) (b : Block) : Dev × Bool :=
  let base := leNat (d.tCfg t) 36 6
  let size := 2 ^ byteAt (d.tCfg t) 42
  let w := (d.T t).wr
  let pad := if 0x10000 < w % 0x10000 + b.len then 0x10000 - w % 0x10000 else 0
  if (d.T t).rd * 0x10000 + size < w + pad + b.len then (d, false)
  else
    let d := d.hWr (base + w % size) (List.replicate pad 0)
    let d := d.hWr (base + (w + pad) % size) b.bytes
    let d := d.onT t fun x => { x with wr := w + pad + b.len }
    (d.sbWr (0x1000 + 8 * t) (w + pad + b.len) 8, true)

/-- Write a block of a thread to the archive; false if it finds no room, or no host behind the link (R331; log 31). -/
def Dev.archPut (d : Dev) (t : Nat) (b : Block) : Dev × Bool :=
  if d.host.down then (d, false)
  else if d.mode.archMode then d.ringArchive t b else d.spool t b

/-- A marker block (13_stream_link.md R370). -/
def FenceSt.block (f : FenceSt) (thread : Nat) : Block :=
  { btype := 3, k := 0, thread := thread, tag := f.tag, ring := f.src.ringCode, fence := f.id, stamp := f.tf }

/-- A FENCE whose t_f has come writes its marker to the archive output of thread `t`; one that finds no room waits for it, since the FENCE
completes once every marker is written (R346). -/
def Dev.archMark (d : Dev) (f : FenceSt) (t : Nat) : Dev :=
  match d.archPut t { f.block t with dropped := (d.T t).lost } with
  | (d, false) => d
  | (d, true) =>
    let d := d.onT t fun x => { x with lost := 0 }
    { d with host := { d.host with fences := d.host.fences.map fun x => if x.id = f.id then { x with archs := x.archs.filter (· ≠ t) } else x } }

/-- The markers that wait for room in the archive output of thread `t`, in the order of their FENCEs (R346). -/
def Dev.archMarks (d : Dev) (t : Nat) : Dev := d.forL (d.host.fences.filter fun f => f.placed && f.archs.contains t) fun d f => d.archMark f t

/-- A marker waits for room in the archive output of thread `t`: what is produced later follows it (R347). -/
def Dev.archHeld (d : Dev) (t : Nat) : Bool := d.host.fences.any fun f => f.placed && f.archs.contains t

/-- The host has given room: every marker that waits for it is written, and the FENCEs end that waited for nothing else (R343, R344,
R346). -/
def Dev.archRoom (d : Dev) : Dev :=
  (d.forL (d.host.fences.flatMap fun f => if f.placed then f.archs else []) fun d t => d.archMarks t).fenceEnds

/-- The archive output of thread `t` ends: no marker waits for it any more. -/
def Dev.archLeave (d : Dev) (t : Nat) : Dev :=
  Dev.fenceEnds { d with host := { d.host with fences := d.host.fences.map fun f => { f with archs := f.archs.filter (· ≠ t) } } }

/-- A data block closes for the archive (R343, R344), behind the markers that wait there. -/
def Dev.archBlock (d : Dev) (t : Nat) (b : Block) : Dev :=
  let d := d.archMarks t
  let b := { b with dropped := (d.T t).lost }
  match (if d.archHeld t then (d, false) else d.archPut t b) with
  | (d, true) => d.onT t fun x => { x with lost := 0 }
  | (d, false) =>
    let d := d.thrDrop t b.entries.length
    if d.mode.archMode ∨ d.host.down ∨ (d.T t).dropping then d
    else ((d.onT t fun x => { x with dropping := true }).evt HOST_EVT.EVT 2).thrStatus t 2

/-! ## Open blocks (13_stream_link.md R372) -/

/-- A thread writes LIST blocks (R372). -/
def Dev.tList (d : Dev) (t : Nat) : Bool := d.tFilter t == 3 || d.tFilter t == 4 || d.tKind t == 2

/-- The open block that an entry of thread `t` belongs to. -/
def Dev.openBlk (d : Dev) (t : Nat) (e : Entry) : Option Block :=
  if d.tList t then (d.T t).blocks.head? else (d.T t).blocks.find? fun b => b.tag % 4096 == e.tag.toNat

/-- Close an open block: it is queued, or written to the archive (R372). A block closed with one entry has SPACING 0. -/
def Dev.closeBlk (d : Dev) (t : Nat) (b : Block) : Dev :=
  let d := d.onT t fun x => { x with blocks := x.blocks.filter fun y => y ≠ b }
  let b := if b.entries.length ≤ 1 then { b with spacing := 0 } else b
  if d.tDest t = 1 then d.archBlock t b else d.vcQueue (d.tIdx t % 16) b

/-- Thread `t` is CLOSED: its archive page is reported, THREAD_STATUS CLOSED is written, and a THREAD_CLOSE that waits completes (R340,
R343). -/
def Dev.threadEnd (d : Dev) (t : Nat) : Dev :=
  let k := (d.T t).closing
  let d := (d.pageOut t true).thrStatus t 0
  let d := ((d.twr 0x30 (CTX.STATE t) 0).onT t fun _ => {}).archLeave t
  match k with | none => d | some k => d.complete k St.success

/-- Insert an open block in ascending tag order. -/
def insertBlk (b : Block) : List Block → List Block
  | [] => [b]
  | x :: r => if b.tag % 4096 < x.tag % 4096 then b :: x :: r else x :: insertBlk b r

/-- Close every open block of a thread, in ascending tag order. -/
def Dev.closeBlks (d : Dev) (t : Nat) : Dev := d.forL (d.T t).blocks fun d b => d.closeBlk t b

/-- A change of K of VC `v` closes the open blocks of every thread that writes to it, and those that decimate count anew (R369, R372). -/
def Dev.kClose (d : Dev) (v : Nat) : Dev :=
  d.forL (d.openThreads.filter fun t => d.tDest t == 2 && d.tIdx t % 16 == v) fun d t =>
    (d.closeBlks t).onT t fun x => if d.tAuto t then { x with decN := [] } else x

/-- A claim has set K of a VC to 0, from what it was in `old` (R369). -/
def Dev.kSettle (d old : Dev) : Dev :=
  d.forN 16 fun d v => if old.rd (VC_CNT.K v) ≠ 0 ∧ d.rd (VC_CNT.K v) = 0 then d.kClose v else d

/-- The entry continues the open block (R372). -/
def continues (b : Block) (e : Entry) : Bool :=
  decide (32 + payloadLen b.btype (gridWidth b.tag) (b.entries.length + 1) ≤ 4096) &&
  (b.btype == 2 ||
   (b.tag == gridTag e &&
    (match b.entries.getLast? with
     | none => true
     | some p =>
       if b.entries.length = 1 then decide (p.stamp < e.stamp ∧ e.stamp - p.stamp < 2 ^ 32)
       else e.stamp == p.stamp + b.spacing)))

/-- An entry joins a block. -/
def joinBlk (b : Block) (e : Entry) : Block :=
  { b with
    spacing := (if b.btype = 1 ∧ b.entries.length = 1 then e.stamp - b.stamp else b.spacing)
    entries := b.entries ++ [e] }

/-- The exponent in force for a thread's blocks (R370). -/
def Dev.tK (d : Dev) (t : Nat) : Nat := if d.tDest t = 2 then d.rd (VC_CNT.K (d.tIdx t % 16)) else 0

/-- FLUSH_T as it acts (13_stream_link.md R373). -/
def Dev.flushT (d : Dev) : Nat := min 1600000000 (max 800 (d.rd SL_FLUSH.FLUSH_T))

/-- An entry enters the open block of its thread, or opens a new one; a block whose window has closed takes none (R372; 00_scope.md
R7). -/
def Dev.blkAdd (d : Dev) (t : Nat) (e : Entry) : Dev :=
  let list := d.tList t
  let fresh : Block := { btype := if list then 2 else 1, k := d.tK t, thread := t, tag := if list then 0 else gridTag e,
                         stamp := e.stamp, entries := [e], since := d.now }
  match d.openBlk t e with
  | none => d.onT t fun x => { x with blocks := insertBlk fresh x.blocks }
  | some b =>
    if continues b e ∧ d.now < b.since + d.flushT then d.onT t fun x => { x with blocks := x.blocks.map fun y => if y = b then joinBlk b e else y }
    else
      let d := d.closeBlk t b
      d.onT t fun x => { x with blocks := insertBlk fresh x.blocks }

/-! ## Filters (12_host_rings.md R337, R338) -/

/-- An entry is produced: it goes to the thread's destination (R337, R342; 13_stream_link.md R369). -/
def Dev.produce (d : Dev) (t : Nat) (e : Entry) : Dev :=
  let d := (d.tbump 0x30 (CTX.PRODUCED t)).twr 0x30 (CTX.LAST t) e.stamp
  if d.tDest t = 0 then
    -- a record whose 800 ticks are over does not take the entry (R342; 00_scope.md R7)
    let d := if (d.T t).dataAt + 800 ≤ d.now then d.dataOut t else d
    let d := d.onT t fun x => { x with data := x.data ++ [e], dataAt := if x.data = [] then d.now else x.dataAt }
    if 3 ≤ (d.T t).data.length then d.dataOut t else d
  else if d.tDest t = 1 then d.blkAdd t e
  else if d.tAuto t then
    let n := nget (d.T t).decN e.tag.toNat + 1
    let d := d.onT t fun x => { x with decN := nput x.decN e.tag.toNat n }
    if n % 2 ^ d.tK t = 0 then d.blkAdd t e else d
  else d.blkAdd t e

/-- The flags of an entry with those of another added (R337). -/
def orFlags (a b : Entry) : Entry :=
  { a with cal := a.cal || b.cal, inj := a.inj || b.inj, spec := a.spec || b.spec, win := a.win || b.win }

/-- The mean of a full AVERAGE window: the stamp of the first, the OR of the flags (R337). -/
def averageOf (es : List Entry) : Option Entry :=
  es.head?.map fun e =>
    entryWith (es.foldl orFlags e) (divEven (es.foldl (fun n x => n + entryVal x) 0) es.length)

/-- The least entry of a list, the first of equals. -/
def minOf (e : Entry) (es : List Entry) : Entry := es.foldl (fun m x => if entryVal x < entryVal m then x else m) e

/-- The greatest entry of a list, the first of equals. -/
def maxOf (e : Entry) (es : List Entry) : Entry := es.foldl (fun m x => if entryVal m < entryVal x then x else m) e

/-- The entry's VALUE lies outside a band (R337): class 4 compares its 24-bit value with the limits times 256 (R215). -/
def outside (e : Entry) (lo hi : Nat) : Bool :=
  let k : Int := if e.tag.toNat / 512 = 4 then 256 else 1
  decide (entryVal e < valueOf e.tag.toNat lo * k ∨ valueOf e.tag.toNat hi * k < entryVal e)

/-- A capture thread becomes DONE after its POST entries (R338). -/
def Dev.captureDone (d : Dev) (t : Nat) : Dev :=
  if d.tState t = 3 ∧ (d.T t).left = 0 then (d.twr 0x30 (CTX.STATE t) 4).thrStatus t 1 else d

/-- Put an entry in stamp order, behind entries of an equal stamp. -/
def insertStamp (e : Entry) : List Entry → List Entry
  | [] => [e]
  | x :: r => if e.stamp < x.stamp then e :: x :: r else x :: insertStamp e r

/-- Entries in stamp order. -/
def sortStamp (es : List Entry) : List Entry := es.foldl (fun l e => insertStamp e l) []

/-- A trigger stamped `g`, at or after the arming, of a capture thread (R338): the kept entries stamped before it are emitted in stamp order. -/
def Dev.capture (d : Dev) (t g : Nat) : Dev :=
  if d.tState t ≠ 2 ∨ g < (d.T t).armAt then d
  else
    let kept := sortStamp ((d.T t).store.filter fun e => decide (e.stamp < g))
    let d := (d.twr 0x30 (CTX.STATE t) 3).onT t fun x => { x with store := [], left := d.rd (CTX.CFG32 t 32) }
    (d.forL kept fun d e => d.produce t e).captureDone t

/-- A capture thread takes an entry of its tags (R338). -/
def Dev.captureEntry (d : Dev) (t : Nat) (e : Entry) : Dev :=
  if d.tState t = 2 then
    let cap := 8 * d.rd (CTX.CFG16 t 30)
    d.onT t fun x => { x with store := (x.store ++ [e]).drop (x.store.length + 1 - cap) }
  else if d.tState t = 3 then
    ((d.onT t fun x => { x with left := x.left - 1 }).produce t e).captureDone t
  else d

/-- The filter of a thread takes one entry (R337). -/
def Dev.filter (d : Dev) (t : Nat) (e : Entry) : Dev :=
  let d := d.tabRead 0x30 (0x40000 + 0x40 * t) 64
  if d.bankGone 0x80 then d else
  let n := d.rd (CTX.CFG16 t 24)
  let tag := e.tag.toNat
  match d.tFilter t with
  | 0 => d.produce t e
  | 1 =>
    let k := nget (d.T t).last tag
    let d := d.onT t fun x => { x with last := nput x.last tag ((k + 1) % (n + 1)) }
    if k = 0 then d.produce t e else d
  | 2 =>
    let es := KV.get (fun _ => []) (d.T t).part tag ++ [e]
    if es.length ≤ n then d.onT t fun x => { x with part := KV.put (fun _ => []) x.part tag es }
    else
      let d := d.onT t fun x => { x with part := KV.put (fun _ => []) x.part tag [] }
      (match averageOf es with | none => d | some a => d.produce t a)
  | 3 =>
    let es := KV.get (fun _ => []) (d.T t).part tag ++ [e]
    if es.length ≤ n then d.onT t fun x => { x with part := KV.put (fun _ => []) x.part tag es }
    else
      let d := d.onT t fun x => { x with part := KV.put (fun _ => []) x.part tag [] }
      (match es with
       | [] => d
       | a :: r => (d.produce t (minOf a r)).produce t (maxOf a r))
  | 4 => if outside e (d.rd (CTX.CFG16 t 26)) (d.rd (CTX.CFG16 t 28)) then d.produce t e else d
  | 5 => d.captureEntry t e
  | _ => d

/-- One thread sees an entry of its segment: a trigger first, then its sources (R337, R338). -/
def Dev.threadSees (d : Dev) (t : Nat) (e : Entry) : Dev :=
  let trig := d.tTrig t e
  let takes := d.tTakes t e
  let d := if trig then d.capture t e.stamp else d
  if takes then d.filter t e else d

/-- HOST_USED: what the open threads commit, in 0.1 Gbit/s (R341; log 40). -/
def Dev.usedShow (d : Dev) : Dev := d.wr HOST_USED.USED (((d.thr.map fun x => x.2.rate).sum + 99999999) / 100000000)

/-! ## Result queue segments (07_conversion.md R216) -/

/-- Segment `s` is served: claimed, and its bank online (R216; 16_memory_protection.md R439). -/
def Dev.segServed (d : Dev) (s : Nat) : Bool := (d.heldAs 3 s 1 || d.heldAs 3 s 2) && !(d.bankOff (0x70 + s))

/-- Show RQ_STATUS.FILL. -/
def Dev.rqShow (d : Dev) (s : Nat) : Dev := d.wr (RQ_STATUS.FILL s) (d.Q s).length

/-- An entry reaches a segment that some thread sources (R216). FUNCTION 0x1: the thread engine drains it at once; FUNCTION
0x2: it waits for the owning core, and a full segment drops it. -/
def Dev.segEntry (d : Dev) (s : Nat) (e : Entry) : Dev :=
  let ts := d.openThreads.filter fun t => d.tSeg t == s && d.tRuns t && (d.tTakes t e || d.tTrig t e)
  if ¬ d.segServed s ∨ ts = [] then d
  else if d.heldAs 3 s 1 then d.forL ts fun d t => d.threadSees t e
  else if 4096 ≤ (d.Q s).length then d.bump (RQ_STATUS.DROP s)
  else
    ((d.bankFresh (0x70 + s) (8 * ((nget d.rqHead s + (d.Q s).length) % 4096)) 8).onQ s fun q => q ++ [e]).rqShow s

/-- Send an entry towards the hub while the link of its die is in service, if it is forwarded (01_architecture.md R15). -/
def Dev.forward (d : Dev) (link : Nat) (e : Entry) : Dev :=
  if d.linkUp link ∧ d.forwards e then { d with host := { d.host with fwd := d.host.fwd ++ [e] } } else d

end Sys2Proof.Machine
end

