-- ==== Sys2Proof/Machine/Samples.lean ====
section
/-! DEFINITION. Sampling: which instants yield a sample, the window comparators, and the delivery of a sample to the hub
(07_conversion.md R182-R192, R212, R213; 01_architecture.md R15). -/

namespace Sys2Proof.Machine

/-! ## Slices and instants -/

/-- Ticks between the sampling instants of converter `c` (R183). -/
def sliceStep (c : Nat) : Nat := if c < 512 then 10 else if c < 576 then 4 else if c < 624 then 80 else 20

/-- The slice of converter `c` whose instant tick `t` is (R183). -/
def sliceAt (c t : Nat) : Nat := t / sliceStep c % sliceCount c

/-- Slice `s` of converter `c` is out of service: fenced, or under foreground calibration, which begins at an instant of its own (R191,
R194, R196). -/
def Dev.sliceOut (d : Dev) (c s : Nat) : Bool :=
  d.rdBit (CV_STATUS.FENCED c) s ||
    (d.rd (CV_STATUS.CAL_STATUS c) == 2 &&
      (if (d.C c).calAll then (d.C c).calLeft.contains s else (d.C c).calLeft.head? == some s && decide ((d.C c).calStart ≤ d.now)))

/-- The number of slices of converter `c` that are not fenced (R190). -/
def Dev.liveSlices (d : Dev) (c : Nat) : Nat :=
  ((List.range (sliceCount c)).filter fun s => ! d.rdBit (CV_STATUS.FENCED c) s).length

/-- The entry die runs its converters in low-power mode (R217): STANDBY, keep, or no control clock. -/
def Dev.lowPower (d : Dev) : Bool := !d.clk.hub || d.clk.rootLost || d.keep.on

/-- Converter `c` runs in low-power mode (R217). -/
def Dev.convLow (d : Dev) (c : Nat) : Bool := decide (576 ≤ c) && d.lowPower

/-- The slice whose instant is now (R183). In low-power mode the two slices of an ECV take turns, and an SCV runs slice 0 only (R217). -/
def Dev.sliceNow (d : Dev) (c : Nat) : Nat :=
  if d.convLow c then (if 624 ≤ c then 0 else d.clk.sb / 13 % 2) else sliceAt c d.now

/-- An instant of the grid of converter `c` that has not been taken yet (R183); in low-power mode 13 cycles of the standby oscillator after
the one before, where PCCs and RVCs have no power (R217). -/
def Dev.onGrid (d : Dev) (c : Nat) : Bool :=
  if c < 576 ∧ d.lowPower then false
  else if d.convLow c then (d.C c).lowInst.all fun t => decide (t + 13 ≤ d.clk.sb)
  else d.now % sliceStep c == 0 && (d.C c).inst != some d.now

/-- The instant of converter `c` is taken. -/
def Dev.takeInst (d : Dev) (c : Nat) : Dev :=
  let now := d.now
  let sb := d.clk.sb
  if d.convLow c then d.onC c fun x => { x with lowInst := some sb } else d.onC c fun x => { x with inst := some now }

/-- The instant now yields a sample of converter `c` (R185). -/
def Dev.sampled (d : Dev) (c : Nat) : Bool := ! d.sliceOut c (d.sliceNow c)

/-- The corrected code of slice `s` of converter `c` between the ends of the converter's range (R186, R188): OFS in 1/8 LSB is added, then
GAIN in 2^-15 applied, then the delay filter for SKEW. The spec gives neither the rounding nor the filter: OFS and GAIN round half to even
(DESIGN CHOICE, log 24), and a SKEW other than 0 gives a free value in range. -/
def Dev.corrected (d : Dev) (c s : Nat) (lo hi v : Int) : Int :=
  let ofs := d.rds (CV_SLICE.OFS c s)
  let gain := d.rds (CV_SLICE.GAIN c s)
  let skew := d.rds (CV_SLICE.SKEW c s)
  let v := if ofs = 0 ∧ gain = 0 then v else clip lo hi (divEven ((8 * v + ofs) * (32768 + gain)) 262144)
  if skew = 0 then v else clip lo hi (Config.skewFilter c d.now v skew)

/-- The corrected code of an instant of converter `c` with `len` bits, signed or not. -/
def Dev.code (d : Dev) (c s : Nat) (signed : Bool) (len : Nat) (v : BitVec len) : BitVec len :=
  if signed then BitVec.ofInt len (d.corrected c s (-(2 ^ (len - 1))) (2 ^ (len - 1) - 1) (sext len v.toNat))
  else BitVec.ofInt len (d.corrected c s 0 (2 ^ len - 1) v.toNat)

/-- A sample of converter `c` stamped now carries the CAL flag (R194). -/
def Dev.calFlag (d : Dev) (c : Nat) : Bool := d.rd (CV_STATUS.CAL_STATUS c) == 2

/-- SCV `k` has fewer live slices than its minimum (R191). -/
def Dev.scvLost (d : Dev) (k : Nat) : Bool := decide (d.liveSlices (624 + k) < sliceMin (624 + k))

/-- Some of the minimum slices of converter `c` are missing (R191). -/
def Dev.convShort (d : Dev) (c : Nat) : Bool := decide (d.liveSlices c < sliceMin c)

/-- The loss of PCC or RVC or SCV `c` is raised when the unit it serves is first used (R191, R196). -/
def Dev.useLoss (d : Dev) (c kind unit agent : Nat) : Dev := if d.convShort c then d.raise kind unit agent 0 else d

/-! ## The slots of a scan converter (R192, R203) -/

/-- The slices of SCV `k` that are out of service now. -/
def Dev.scvOut (d : Dev) (k : Nat) : List Nat := (List.range 4).filter fun s => d.sliceOut (624 + k) s

/-- The slots of a frame that reserved conversions 0 to `q - 1` take (R192): its own slot 2q, or the first later one on a live slice that is
neither reserved nor taken. Past the frame's last slot that is the first such slot of the next frame, still at most 60 ticks late (DEDUCED,
log 24). -/
def reservedSlots (out : List Nat) : Nat → List (Nat × Nat)
  | 0 => []
  | q + 1 =>
    let prev := reservedSlots out q
    let live := fun s => ! out.contains (s % 4)
    let free := fun s => live s && s % 2 == 1 && !(prev.any fun x => x.1 == s)
    if live (2 * q) then prev ++ [(2 * q, q)]
    else match ((List.range 64).map fun s => (2 * q + s) % 64).find? free with
      | none => prev
      | some s => prev ++ [(s, q)]

/-- Share slots of a frame with some slices out: the live slots that no reserved conversion takes (R192). -/
def shareSlots (out : List Nat) : Nat :=
  let taken := reservedSlots out 32
  ((List.range 64).filter fun s => ! out.contains (s % 4) && !(taken.any fun x => x.1 == s)).length

/-- The slot of an SCV frame that the present tick opens (R183). -/
def Dev.slotNow (d : Dev) : Nat := d.now % 1280 / 20

/-- The reserved conversion of SCV `k` in the present slot (R192). -/
def Dev.reservedNow (d : Dev) (k : Nat) : Option Nat :=
  ((reservedSlots (d.scvOut k) 32).find? fun x => x.1 == d.slotNow).map fun x => x.2

/-! ## Tags -/

/-- The die of a tag's channel: 0-3 loom, 4 entry (R182, R197). -/
def tagDie (t : Nat) : Nat :=
  if t / 512 = 0 then t % 512 / 128 else if t / 512 = 1 then t % 512 / 16 else if t / 512 = 5 then t % 512 / 128 else 4

/-- The stamp of a sample of tick `tick`: by the copy of Thyme of its die (11_clocks_time.md R301). -/
def Dev.tagStamp (d : Dev) (t tick : Nat) : Nat := ((tick : Int) + KV.get (fun _ => (0 : Int)) d.clk.copyOff (tagDie t)).toNat

/-- An alternate selection: only positions 24 and 25 have one (R197). ALT in an INJ_REQ or SEQ_SINGLE of another position, to which R206 and
R200 give no effect, leaves the primary selection (DESIGN CHOICE, log 24). -/
def altSel (pos : Nat) (alt : Bool) : Bool := alt && (pos == 24 || pos == 25)

/-- The tag of a selection (R197). -/
def selTag (k pos : Nat) (alt : Bool) : Nat :=
  if altSel pos alt then 0x600 + 256 + 2 * k + (pos - 24) else 0x600 + 32 * k + pos

/-- The link between the die of a tag's channel and the hub (R182, R197). -/
def tagLink (t : Nat) : Nat :=
  if tagDie t = 4 then 7 else tagDie t

/-- The SPEC flag of a sample of a tag: the rail, or the rail of the phase, is under speculation (06_load_intent.md R174). -/
def Dev.specFlag (d : Dev) (t : Nat) : Bool :=
  if t / 512 = 0 then (match (d.P (t % 512)).rail with | none => false | some r => d.specCovers r d.now)
  else if t / 512 = 1 then d.specCovers (t % 512) d.now
  else if t / 512 = 5 then d.specCovers (t % 512 / 8) d.now
  else false

/-! ## Window comparators (R212, R213) -/

/-- LO exceeds HI; the comparator is not evaluated. -/
def Dev.winBad (d : Dev) (t : Nat) : Bool :=
  decide (valueOf t (d.rd (WIN_LIM.HI t)) < valueOf t (d.rd (WIN_LIM.LO t)))

/-- The next state of a comparator and whether the sample is an event (R213): 0 IN, 1 BELOW, 2 ABOVE. -/
def winNext (st : Nat) (v lo hi hyst : Int) : Nat × Bool :=
  if st = 0 then (if hi < v then (2, true) else if v < lo then (1, true) else (0, false))
  else if st = 2 then (if v < lo then (1, true) else if lo ≤ v ∧ v ≤ hi - hyst then (0, false) else (2, false))
  else if st = 1 then (if hi < v then (2, true) else if lo + hyst ≤ v ∧ v ≤ hi then (0, false) else (1, false))
  else (st, false)

/-- A delivered sample is evaluated by the comparator of its channel; true if it is an event. The window interrupt summary
takes note of an event while the link of the die is in service (R212, R213; 17_register_map.md R455). -/
def Dev.winEval (d : Dev) (t v : Nat) : Dev × Bool :=
  if ¬ d.on (WIN_CFG.EN t) ∨ 5 ≤ t / 512 ∨ d.winBad t then (d, false)
  else
    let (st, ev) := winNext (d.rd (WIN_STAT.STATE t)) (valueOf t v) (valueOf t (d.rd (WIN_LIM.LO t)))
      (valueOf t (d.rd (WIN_LIM.HI t))) (d.rd (WIN_CFG.HYST t))
    let d := d.wr (WIN_STAT.STATE t) st
    if ¬ ev then (d, false)
    else
      let d := d.bump (WIN_STAT.COUNT t)
      let d := if d.on (WIN_CFG.IRQ t) ∧ d.linkUp (tagLink t) ∧ ¬ (tagDie t = 4 ∧ d.lowPower) then d.evt (WIN_PEND.PEND (t / 32)) (t % 32) else d
      (d, true)

/-- A converted sample is delivered: its window comparator judges it, and it is forwarded to the hub if an open thread takes
it or it is a window event (R213; 01_architecture.md R15). -/
def Dev.deliver (d : Dev) (t v : Nat) (ext : Nat := 0) (cal : Bool := false) (inj : Bool := false) (stamp : Option Nat := none) : Dev :=
  let (d, ev) := d.winEval t v
  -- in low-power mode no sample of the entry die reaches the hub (R217), nor one of a die whose copy of Thyme has not been reloaded
  -- (11_clocks_time.md R301)
  if tagDie t = 4 ∧ d.lowPower ∨ nget d.clk.copyReload (tagDie t) = 2 then d
  else d.forward (tagLink t)
    { tag := BitVec.ofNat 12 t, stamp := d.tagStamp t (stamp.getD d.now), value := BitVec.ofNat 16 v, ext := BitVec.ofNat 8 ext,
      cal := cal, inj := inj, spec := d.specFlag t, win := ev }

end Sys2Proof.Machine
end

