-- ==== Sys2Proof/Machine/Retry.lean ====
section
/-! DEFINITION. The retry machine of entry channels, branch channels and phases, and the fuse policy record that governs
it (03_branch_fuses.md R68-R77). Unit u is n for En, 16 + n for Bn and 80 + n for Pn. -/

namespace Sys2Proof.Machine

/-- The six words of fuse policy record `p` (R68). -/
def Dev.polWords (d : Dev) (p : Nat) : List Word := (List.range 6).map fun k => d.word ((POL0.KIND p).off + 4 * k)

/-- The agent of unit `u`: its channel, or the rail of its phase (09_faults.md R249). -/
def Dev.unitAgent (d : Dev) (u : Nat) : Nat :=
  if u < 16 then 0x80 + u else if u < 80 then 0x90 + (u - 16)
  else match (d.P (u - 80)).rail with | none => 0xD8 + (u - 80) / 128 | some r => 0x40 + r

/-- The policy record that unit `u` names; a phase names the record of its rail (R68; 05_phase_management.md R125). -/
def Dev.unitPol (d : Dev) (u : Nat) : Nat :=
  if u < 16 then d.rd (ENT_CFG.POLICY u)
  else if u < 80 then d.rd (BR_CFG.POLICY (u - 16))
  else match (d.P (u - 80)).rail with
    | none => 0
    | some r => d.rd (PH_CFG.PH_POLICY r)

/-- A field of word `k` of the record that governs unit `u`'s retry. -/
def Dev.rtPol (d : Dev) (u k : Nat) (f : Nat → Fld) : Nat := (f 0).get ((d.RT u).pol.getD k 0)

/-- Cause `c` of unit `u` is enabled: causes 1 and 2 always, and cause 6 of an entry channel (R69). -/
def Dev.tripEn (d : Dev) (u c : Nat) : Bool :=
  c == 1 || c == 2 || (decide (u < 16) && c == 6) || d.rdBit (POL0.TRIP_EN (d.unitPol u)) c

/-- The NOTIFY level of the record that unit `u` names (R68, R248). -/
def Dev.notify (d : Dev) (u : Nat) : Nat := d.rd (POL0.NOTIFY (d.unitPol u))

namespace Rt
/-- RSTATE codes (R72). -/
def idle : Nat := 0
/-- DELAY -/
def delay : Nat := 1
/-- COOL -/
def cool : Nat := 2
/-- LATCHED -/
def latched : Nat := 3
end Rt

/-- No window of the machine is open. -/
def Dev.rtStop (d : Dev) (u : Nat) : Dev := d.onRT u fun x => { x with delay := none, cool := none }

/-- The pending retry is abandoned; the count stays (R77). -/
def Dev.rtAbandon (d : Dev) (u : Nat) : Dev := (d.rtStop u).twr (d.unitAgent u) (RETRY_STAT.RSTATE u) Rt.idle

/-- An accepted UNFENCE, or CONFIGURE entry: the count returns to 0 and the machine is IDLE (R76). -/
def Dev.rtClear (d : Dev) (u : Nat) : Dev := (d.rtAbandon u).twr (d.unitAgent u) (RETRY_STAT.RETRY_CNT u) 0

/-- The machine's part of a latch (R75, R72). -/
def Dev.rtLatch (d : Dev) (u : Nat) (coolTo : Bool) : Dev :=
  ((d.rtStop u).twr (d.unitAgent u) (RETRY_STAT.RSTATE u) Rt.latched).twr (d.unitAgent u) (RETRY_STAT.COOL_TO u) (b2n coolTo)

/-- The COUNT_CLEAR window has closed by now: the count returns to 0 (R76). -/
def Dev.countClear (d : Dev) (u : Nat) : Dev :=
  match (d.RT u).clear with
  | some t => if t ≤ d.now then (d.onRT u fun x => { x with clear := none }).twr (d.unitAgent u) (RETRY_STAT.RETRY_CNT u) 0 else d
  | none => d

/-- The unit enters ON: a window of COUNT_CLEAR ticks opens, none if COUNT_CLEAR is 0 (R68, R76). -/
def Dev.rtOn (d : Dev) (u : Nat) : Dev :=
  let n := d.rd (POL3.COUNT_CLEAR (d.unitPol u))
  d.onRT u fun x => { x with clear := if n = 0 then none else some (d.now + n) }

/-- The delay of a retry (R73): doubled per retry made with BACKOFF, saturating, and capped. -/
def retryDelay (base cap cnt : Nat) (backoff : Bool) : Nat :=
  let t := if backoff then min (base * 2 ^ cnt) 0xFFFFFFFF else base
  if cap ≠ 0 ∧ cap < t then cap else t

/-- A trip of unit `u` with a cause is decided (R73): true if the unit latches. `hc` is `holdup_cutoff`. -/
def Dev.rtTrip (d : Dev) (u cause : Nat) (hc : Bool) : Dev × Bool :=
  let d := (d.tabRead (d.unitAgent u) (0x2000 + 0x20 * d.unitPol u) 24).countClear u
  let stat := d.word (RETRY_STAT.RSTATE u).off
  let d := d.onRT u fun x => { x with pol := d.polWords (d.unitPol u), clear := none, stat := stat }
  let cnt := d.rd (RETRY_STAT.RETRY_CNT u)
  if (d.rtPol u 0 POL0.LATCH_NOW).testBit cause ∨ hc ∨
      (d.rtPol u 0 POL0.RETRY_MAX ≠ 15 ∧ d.rtPol u 0 POL0.RETRY_MAX ≤ cnt) then
    (d.rtLatch u false, true)
  else
    let t := retryDelay (d.rtPol u 1 POL1.RETRY_DELAY) (d.rtPol u 2 POL2.DELAY_CAP) cnt (d.rtPol u 0 POL0.BACKOFF == 1)
    let d := d.rtStop u
    let d := (d.tbump (d.unitAgent u) (RETRY_STAT.RETRY_CNT u)).twr (d.unitAgent u) (RETRY_STAT.RSTATE u) Rt.delay
    (d.onRT u fun x => { x with delay := some (d.now + t) }, false)

/-- LATCH_ACT of the governing record raises SAFE-STOP (R75). -/
def Dev.latchSafe (d : Dev) (u : Nat) : Bool := d.rtPol u 0 POL0.LATCH_ACT == 1

/-- The delay has expired by now (R74). -/
def Dev.delayDue (d : Dev) (u : Nat) : Bool :=
  d.rd (RETRY_STAT.RSTATE u) == Rt.delay && (match (d.RT u).delay with | some t => decide (t ≤ d.now) | none => false)

/-- The retry needs no further cool-down at temperature `tj` (R74). -/
def Dev.coolNow (d : Dev) (u : Nat) (tj : Int) : Bool :=
  d.rtPol u 4 POL4.COOL_EN != 1 || decide (tj < sext 16 (d.rtPol u 4 POL4.T_RETRY))

/-- The delay hands over to a cool-down window, which opens at the delay's expiry (R74). -/
def Dev.coolOpen (d : Dev) (u : Nat) : Dev :=
  let t := ((d.RT u).delay.getD d.now) + d.rtPol u 5 POL5.COOL_TMAX
  (d.twr (d.unitAgent u) (RETRY_STAT.RSTATE u) Rt.cool).onRT u fun x => { x with delay := none, cool := some t }

/-- The machine is in COOL and now lies inside its window (R74). -/
def Dev.cooling (d : Dev) (u : Nat) : Bool :=
  d.rd (RETRY_STAT.RSTATE u) == Rt.cool && (match (d.RT u).cool with | some t => decide (d.now < t) | none => false)

/-- The cool-down window has closed by now (R74). -/
def Dev.coolOver (d : Dev) (u : Nat) : Bool :=
  d.rd (RETRY_STAT.RSTATE u) == Rt.cool && (match (d.RT u).cool with | some t => decide (t ≤ d.now) | none => false)

/-- A trip, a NOTE of a disabled cause, or a latch that follows an earlier trip, sent to the selvage (R69, R248, R75). -/
def Dev.tripMsg (d : Dev) (kind unit agent access level fence : Nat) (safe latch : Bool) : Dev :=
  d.send { kind := kind, unit := unit, agent := agent, access := access, aspace := 3, addr := unit, stamp := d.faultStamp kind unit,
           level := level, fence := fence, safe := safe, latch := latch, spec := d.specAttr kind unit, forced := d.flt.forced }

/-- The fault messages of a kind and unit that are stamped now and have not reached the selvage, changed or taken back. -/
def Dev.editFault (d : Dev) (kind unit : Nat) (f : FMsg → Option FMsg) : Dev :=
  let st := d.faultStamp kind unit
  { d with flt := { d.flt with msgs := d.flt.msgs.filterMap fun m =>
      if m.kind = kind ∧ m.unit = unit ∧ m.stamp = st then f m else some m } }

/-- The trip of this tick is decided anew with another cause, from what the machine held before it (R73). -/
def Dev.rtAgain (d : Dev) (u cause : Nat) : Dev × Bool :=
  (((d.tabMem (d.unitAgent u) (RETRY_STAT.RSTATE u).off (d.RT u).stat).setWord (RETRY_STAT.RSTATE u).off (d.RT u).stat).rtStop u).rtTrip u cause false

/-- Another cause is due on the tick on which its unit has tripped already: both are recorded, the lower code as CAUSE
(02_power_entry.md R46), and a lower code decides whether the unit latches (R73). A unit that an off request has taken to OFF on the tick
stays there unless it latches. `fs`, `fc`, `fa` and `fe` are the unit's STATE, CAUSE, ALSO and EVT, `base` the kind of cause 0, `fence` what
its latch fences. -/
def Dev.lateCause (d : Dev) (u : Nat) (fs fc fa fe : Fld) (base unit c access : Nat) (fence : Dev → Nat) : Dev :=
  let was := d.rd fc
  if was = c ∨ d.rdBit fa c then d
  else if was < c then d.wr fa (setBit (d.rd fa) c)
  else
    let (d, l) := d.rtAgain u c
    let d := if d.rd fs = 7 then d
      else if l then d.wr fs 6
      else if d.rd fs = 6 then d.wr fs 5
      else if d.rd fs = 5 then d
      else d.rtAbandon u
    let d := ((d.wr fa (setBit (d.rd fa) was)).wr fc c).evt fe c
    let lvl := d.notify u
    let fn := if l then fence d else 0
    let safe := l && d.latchSafe u
    d.editFault (base + was) unit fun m => some { m with kind := base + c, access := access, level := lvl, fence := fn, safe := safe }

end Sys2Proof.Machine
end

