-- ==== Sys2Proof/Machine/Soa.lean ====
section
/-! DEFINITION. The SOA thermal model of entry and branch channels, in binary32 in the order R40 writes it, and the
effective power limit (02_power_entry.md R40-R45; 03_branch_fuses.md R65; log 12). -/

namespace Sys2Proof.Machine

/-- The four poles of a channel. -/
abbrev Theta := Word × Word × Word × Word

/-- RTHj of table `k` in 0.001 C/W, for j = 0-3 (R43). -/
def Dev.rth (d : Dev) (k j : Nat) : Nat :=
  match j with
  | 0 => d.rd (SOA_RTH01.RTH1 k)
  | 1 => d.rd (SOA_RTH01.RTH2 k)
  | 2 => d.rd (SOA_RTH23.RTH3 k)
  | _ => d.rd (SOA_RTH23.RTH4 k)

/-- One pole (R40): `step` is the update interval as a fraction of 100 ns. -/
def poleStep (theta p : Word) (rth tau : Nat) (step : Nat × Nat) : Word :=
  let a := fExpNeg step.1 (tau * step.2)
  fAdd (fMul a theta) (fMul (fMul (fRat rth 1000) (fSub (fInt 1) a)) p)

/-- One update of the poles with table `k` (R40). -/
def Dev.soaStep (d : Dev) (k : Nat) (step : Nat × Nat) (th : Theta) (p : Word) : Theta :=
  (poleStep th.1 p (d.rth k 0) (d.rd (SOA_TAU.TAU k 0)) step,
   poleStep th.2.1 p (d.rth k 1) (d.rd (SOA_TAU.TAU k 1)) step,
   poleStep th.2.2.1 p (d.rth k 2) (d.rd (SOA_TAU.TAU k 2)) step,
   poleStep th.2.2.2 p (d.rth k 3) (d.rd (SOA_TAU.TAU k 3)) step)

/-- tj_est in 0.05 C from the case temperature in 0.05 C (R40). -/
def tjOf (tCase : Int) (th : Theta) : Int :=
  fToInt (fAdd (fAdd (fAdd (fAdd (fRat tCase 20) th.1) th.2.1) th.2.2.1) th.2.2.2) 20 1 (-32768) 32767

/-- A current code in amperes: the code times `num / den` 0.1 uV over RSHUNT in 0.1 uOhm (R34, R65). -/
def ampsOf (code : Int) (num den rshunt : Nat) : Word :=
  if rshunt = 0 then fDiv (fInt code) 0 else fRat (code * num) (den * rshunt)

/-- p_fet from V_DS and I codes (R40); the V_DS code is in 4.6875 mV. A negative product counts as 0. -/
def pFet (vds : Int) (amps : Word) (nEff : Nat) : Word :=
  let p := fMul (fRat (vds * 46875) 10000000) amps
  if fLt p 0 then 0 else fDiv p (fInt nEff)

/-- The effective power limit in W (R42); a table whose every RTHj is 0 never folds back (R45). -/
def pEffOf (zero : Bool) (pLim : Nat) (tj reg trip : Int) : Nat × Nat :=
  if zero ∨ tj < reg then (pLim, 1)
  else if tj < trip then (pLim * (trip - tj).toNat, (trip - reg).toNat)
  else (0, 1)

/-- P / V_DS as a current code, rounded toward zero (R37; 03_branch_fuses.md R66): `num / den` is the number of codes per W, per V_DS code
and per 0.1 uOhm. -/
def powerCode (p : Nat × Nat) (vds : Int) (rshunt num den : Nat) : Int :=
  if vds ≤ 0 then 2 ^ 62 else (p.1 * rshunt * num / (p.2 * vds.toNat * den) : Nat)

/-- Table `k` has every RTHj 0: it never folds back nor trips (R45). -/
def Dev.soaZero (d : Dev) (k : Nat) : Bool := (List.range 4).all fun j => d.rth k j == 0

end Sys2Proof.Machine
end

