-- ==== Sys2Proof/Machine/Impedance.lean ====
section
/-! DEFINITION. Impedance measurement of a hold-up pack from the ECV samples of its channel, and the pack's learned state
(08_battery_estimation.md R229-R231, R237). -/

namespace Sys2Proof.Machine

/-- The battery-role channel that names pack `p`. -/
def Dev.packCh (d : Dev) (p : Nat) : Option Nat :=
  (List.range 16).find? fun n => d.rd (ENT_CFG.ROLE n) == 2 && d.rd (ENT_CFG.PACK n) == p

/-- The initial values of the learned state (R227, R237): VOID is set, GEN stays. -/
def Dev.sageInit (d : Dev) (p : Nat) : Dev :=
  ((((d.wr (SG_CAPACITY.CAP p) (d.rd (SG_CAP.CAP_NOM p))).wr (SG_RSER_L.VAL p) (d.rd (SG_RSER.RSER_INIT p))).wr
    (SG_RPOL1_L.VAL p) (d.rd (SG_RPOL1.RPOL1_INIT p))).wr (SG_RPOL2_L.VAL p) (d.rd (SG_RPOL2.RPOL2_INIT p))).wr (SG_STATUS.VOID p) 1

/-- A learned value has been accepted: VOID clears and GEN counts (R231, R232). -/
def Dev.learned (d : Dev) (p : Nat) : Dev := (d.wr (SG_STATUS.VOID p) 0).wr (SG_GEN.GEN p) (d.rd (SG_GEN.GEN p) + 1)

/-- A sum of `n` ECV current codes differs from one of `m` by less than IMP_STEP_MIN / `den` on average. -/
def Dev.nearBy (d : Dev) (p : Nat) (a : Int) (n : Nat) (b : Int) (m den : Nat) (strict : Bool) : Bool :=
  let diff := (a * m - b * n).natAbs * 7500000 * den
  let lim := d.rd (SG_IMP.IMP_STEP_MIN p) * d.rd (SG_SHUNT.RSHUNT p) * 8192 * n * m
  if strict then decide (diff < lim) else decide (diff ≤ lim)

/-- The sums of the current and voltage codes of the newest `n` samples stamped at or before `t`, and how many there are. -/
def Dev.histSum (d : Dev) (p n t : Nat) : Int × Nat × Nat :=
  let xs := ((d.SG p).hist.filter fun x => x.1 ≤ t).take n
  (xs.foldl (fun s x => s + x.2.1) 0, xs.foldl (fun s x => s + x.2.2) 0, xs.length)

/-- A mean current in A from a sum of codes. -/
def Dev.meanAmps (d : Dev) (p : Nat) (s : Int) (n : Nat) : Word := fRat (s * 750000) (8192 * d.rd (SG_SHUNT.RSHUNT p) * n)

/-- A mean voltage in V from a sum of codes. -/
def meanVolts (s n : Nat) : Word := fRat ((s * 46875 : Nat) : Int) (10000000 * n)

/-- 1 - exp(-t / tpol) for a time of `us` microseconds, with tpol = `n` times `unit` microseconds (R230). -/
def gOf (us n unit : Nat) : Word := fSub (fInt 1) (fExpNeg us (n * unit))

/-- m lies within a factor 2 of x, or x is 0 (R231). -/
def impOk (m : Int) (x : Nat) : Bool := x == 0 || (decide ((x : Int) ≤ 2 * m) && decide (m ≤ 2 * (x : Int)))

/-- The blend of R231, rounded toward zero (log 22). -/
def impBlend (m : Int) (x sh : Nat) : Int := (x : Int) + divZero (m - x) (2 ^ sh)

/-- A measured resistance beyond every value in use: what an infinity or no number at all stands for. -/
def hugeOhm : Int := 2 ^ 160

/-- Resistance in micro-ohm, to nearest, of any size: the check of R231 comes before the register's 32 bits. -/
def microOhm (w : Word) : Int :=
  match FP.dec w with
  | .nan => hugeOhm
  | .inf _ => hugeOhm
  | .fin _ _ _ => fToInt w 1000000 1 (-hugeOhm) hugeOhm

/-- A blended value enters its register; one that the unsigned 32 bits cannot hold, which no value in use other than 0 or half of 2^32 and up
can give, is a free value, for R231 states no result there (log 22). -/
def Dev.impPut (d : Dev) (f : Fld) (v : Int) : Dev :=
  if 0 ≤ v ∧ v < 2 ^ 32 then d.wr f v.toNat else (d.wr f (d.freeVal % 2 ^ 32)).nextFree

/-- A rejected value (R231). -/
def Dev.impReject (d : Dev) (p : Nat) : Dev := (d.bump (SG_CNT.IMP_REJ p)).raise 0x50 p 0x33 6

/-- A measurement ends: each value is blended or rejected (R230, R231). `rc` says that the RC part is measured. -/
def Dev.impEnd (d : Dev) (p : Nat) (rc : Bool) : Dev :=
  let x := d.SG p
  let t0 := x.t0.getD d.now
  let sh := d.rd (SG_IMP.IMP_SHIFT p)
  let vPre := meanVolts x.vPre 16
  let di := fSub (d.meanAmps p x.i5 8) (d.meanAmps p x.iPre 16)
  let rser := fDiv (fSub vPre (meanVolts x.v5 8)) di
  let m := microOhm rser
  let old := d.rd (SG_RSER_L.VAL p)
  let okS := impOk m old
  let d := if okS then d.impPut (SG_RSER_L.VAL p) (impBlend m old sh) else d.impReject p
  let (d, okR) :=
    if ¬ rc then (d, false)
    else
      let s1 := d.histSum p 16 (t0 + 800000)
      let s10 := d.histSum p 16 (t0 + 8000000)
      let d1 := fSub (fDiv (fSub vPre (meanVolts s1.2.1 s1.2.2)) di) rser
      let d10 := fSub (fDiv (fSub vPre (meanVolts s10.2.1 s10.2.2)) di) rser
      let t1 := d.rd (SG_TPOL.TPOL1 p)
      let t2 := d.rd (SG_TPOL.TPOL2 p)
      let g11 := gOf 1000 t1 10
      let g12 := gOf 1000 t2 1000
      let g21 := gOf 10000 t1 10
      let g22 := gOf 10000 t2 1000
      let det := fSub (fMul g11 g22) (fMul g12 g21)
      let m1 := microOhm (fDiv (fSub (fMul d1 g22) (fMul d10 g12)) det)
      let m2 := microOhm (fDiv (fSub (fMul g11 d10) (fMul g21 d1)) det)
      let o1 := d.rd (SG_RPOL1_L.VAL p)
      let o2 := d.rd (SG_RPOL2_L.VAL p)
      if impOk m1 o1 ∧ impOk m2 o2 then
        ((d.impPut (SG_RPOL1_L.VAL p) (impBlend m1 o1 sh)).impPut (SG_RPOL2_L.VAL p) (impBlend m2 o2 sh), true)
      else (d.impReject p, false)
  let d := d.onSG p fun x => { x with t0 := none, qualified := false }
  if okS ∨ okR then ((d.bump (SG_CNT.IMP_ACC p)).evt (SG_EVT.EVT p) 5).learned p else d

/-- The measurement in progress loses its RC part, or is abandoned before it qualified (R229, R230). -/
def Dev.impStop (d : Dev) (p : Nat) : Dev :=
  if (d.SG p).t0.isNone then d
  else if (d.SG p).qualified then d.impEnd p false
  else d.onSG p fun x => { x with t0 := none }

/-- A step starts at the sample of tick `now`, if it does (R229): `i` is its current code. -/
def Dev.impStart (d : Dev) (p now : Nat) (i : Int) : Dev :=
  let pre := d.histSum p 16 (now - 1)
  if (d.SG p).t0.isSome ∨ pre.2.2 < 16 ∨ now = 0 ∨ d.nearBy p i 1 pre.1 16 4 true then d
  else
    let q := ((d.SG p).hist.filter fun x => x.1 < now ∧ now ≤ x.1 + 8000000).all fun x => d.nearBy p x.2.1 1 pre.1 16 4 false
    d.onSG p fun x => { x with t0 := some now, iPre := pre.1, vPre := pre.2.1, quiet := q, qualified := false }

/-- What the sample of tick `t` with current code `i` does to the measurement (R229, R230): a stray from I_5 discards the RC part, and the
sample may start a step of its own. -/
def Dev.impSample (d : Dev) (p t : Nat) (i : Int) : Dev :=
  let x := d.SG p
  let stray := match x.t0 with
    | none => false
    | some t0 => x.qualified && x.quiet && decide (t0 + 8000 ≤ t ∧ t < t0 + 8000000) && !d.nearBy p i 1 x.i5 8 4 false
  (if stray then d.impStop p else d).impStart p t i

/-- Thyme is about to start anew: every measurement ends, and no sample of the old count is left. -/
def Dev.impForget (d : Dev) : Dev := d.forN 4 fun d p => (d.impStop p).onSG p fun x => { x with hist := [] }

/-- A fresh ECV sample of the channel of pack `p` at full rate (R229, R230). -/
def Dev.sageEcv (d : Dev) (p n : Nat) (i : Int) (vin : Nat) : Dev :=
  if ¬ d.on (SG_CFG.EN p) then d
  -- in keep and STANDBY no measurement goes on (*Impedance*)
  else if d.lowPower then d.impStop p
  else
    let now := d.now
    let keepIt := fun (x : Nat × Int × Nat) => decide (now ≤ x.1 + 8001280)
    let d := d.onSG p fun x => { x with hist := (now, i, vin) :: x.hist.filter keepIt }
    if d.rd (ENT_STATUS.STATE n) ≠ 3 then d.impStop p
    else d.impSample p now i

/-- 8,000 ticks after a step start, the step qualifies or is abandoned (R229); without an RC part the measurement ends here (R231). -/
def devImpQualify (p : Nat) (d : Dev) : Dev :=
  match (d.SG p).t0 with
  | none => d
  | some t =>
    if (d.SG p).qualified ∨ d.now < t + 8000 then d
    else if d.lowPower then d.impStop p
    else
      let win := (d.SG p).hist.filter fun x => t + 3440 ≤ x.1 ∧ x.1 < t + 4080
      let i5 : Int := win.foldl (fun s x => s + x.2.1) 0
      let v5 : Nat := win.foldl (fun s x => s + x.2.2) 0
      let last := d.histSum p 8 (t + 8000)
      if win.length ≠ 8 ∨ last.2.2 ≠ 8 ∨ d.nearBy p i5 8 (d.SG p).iPre 16 1 true ∨ ¬ d.nearBy p last.1 8 i5 8 4 false then
        d.onSG p fun x => { x with t0 := none }
      else
        let d := d.onSG p fun x => { x with i5 := i5, v5 := v5, qualified := true }
        if ¬ (d.SG p).quiet then d.impEnd p false
        -- the samples from t0 + 8,000 that came before this decision are judged now (R230)
        else d.forL (((d.SG p).hist.filter fun x => t + 8000 ≤ x.1).reverse) fun d x => d.impSample p x.1 x.2.1

/-- IMP_QUALIFY -/
def execImpQualify (p : Fin 4) (s : State) : Host.Outcome State Fault Refusal :=
  .next { s with dev := devImpQualify p.val s.dev }

/-- 8,000,000 ticks after a step start, the measurement with its RC part ends (R231). -/
def devImpMeasureEnd (p : Nat) (d : Dev) : Dev :=
  match (d.SG p).t0 with
  | none => d
  | some t =>
    if d.lowPower then d.impStop p
    else if (d.SG p).qualified ∧ t + 8000000 ≤ d.now then d.impEnd p true
    else d

/-- IMP_MEASURE_END -/
def execImpMeasureEnd (p : Fin 4) (s : State) : Host.Outcome State Fault Refusal :=
  .next { s with dev := devImpMeasureEnd p.val s.dev }

end Sys2Proof.Machine
end

