-- ==== Sys2Proof/Machine/Entry.lean ====
section
/-! DEFINITION. Entry channels: samples, the inrush loop, trips, qualification, groups, blocking, the battery role and the
fence (02_power_entry.md R35-R56). -/

namespace Sys2Proof.Machine

namespace Ec
/-- Channel state codes of entry and branch channels (R35, 03_branch_fuses.md R66). -/
def off : Nat := 0
/-- CHECK -/
def check : Nat := 1
/-- INRUSH, or SOFTSTART -/
def inrush : Nat := 2
/-- ON -/
def on : Nat := 3
/-- BLOCKING -/
def blocking : Nat := 4
/-- TRIPPED -/
def tripped : Nat := 5
/-- LATCHED -/
def latched : Nat := 6
/-- FENCED -/
def fenced : Nat := 7
/-- ARMED -/
def armed : Nat := 8
end Ec

/-- The state of entry channel `n`. -/
def Dev.es (d : Dev) (n : Nat) : Nat := d.rd (ENT_STATUS.STATE n)

/-- Entry channel `n` has the battery role. -/
def Dev.battery (d : Dev) (n : Nat) : Bool := d.rd (ENT_CFG.ROLE n) == 2

/-- TJ_EST of entry channel `n`. -/
def Dev.entTj (d : Dev) (n : Nat) : Int := d.rds (ENT_STATUS.TJ_EST n)

/-- A window of R47 after a sample: a sample at or beyond the limit opens it or keeps it open, another cancels it; a sample at
or after the closing tick does neither. -/
def winUpd (now : Nat) (o : Option Nat) (len : Nat) (cond : Bool) : Option Nat :=
  if closed now o len then o else if cond then some (o.getD now) else none

/-! ## Groups (R49) -/

/-- The group that entry channel `n` belongs to. -/
def Dev.groupOf (d : Dev) (n : Nat) : Option Nat := (List.range 8).find? fun g => d.rdBit (EG_CFG.MEMBERS g) n

/-- The members of group `g`, lowest first. -/
def Dev.members (d : Dev) (g : Nat) : List Nat := (List.range 16).filter fun n => d.rdBit (EG_CFG.MEMBERS g) n

/-- The channel and the other members of its group. -/
def Dev.mates (d : Dev) (n : Nat) : List Nat := match d.groupOf n with | none => [n] | some g => d.members g

/-- A channel is LATCHED or FENCED. -/
def Dev.entDown (d : Dev) (n : Nat) : Bool := d.es n == Ec.latched || d.es n == Ec.fenced

/-- The members of a group that are neither LATCHED nor FENCED. -/
def Dev.mateLeft (d : Dev) (g : Nat) : List Nat := (d.members g).filter fun n => ! d.entDown n

/-- OC_LIMIT as scaled by R51, saturated at 0x1FFF. -/
def Dev.entOcLimit (d : Dev) (n : Nat) : Int :=
  let v := d.rd (ENT_OC.OC_LIMIT n) * (d.E n).ocNum / (d.E n).ocDen
  ((if 0x1FFF < v then 0x1FFF else v : Nat) : Int)

/-- Scale the OC limits of a group's remaining members (R51): a member whose fence has been lifted counts again with its re-entry, so
not while it is OFF. -/
def Dev.groupScale (d : Dev) (g : Nat) : Dev :=
  let all := (d.members g).length
  let left := ((d.mateLeft g).filter fun m => d.es m ≠ Ec.off).length
  d.forL (d.members g) fun d m => d.onE m fun x => { x with ocNum := all, ocDen := max 1 left }

/-- The group goes on after this member has latched (R51). -/
def Dev.groupContinues (d : Dev) (n : Nat) : Bool :=
  match d.groupOf n with
  | none => false
  | some g => d.on (EG_CFG.CONTINUE g) && decide (d.rd (EG_CFG.GROUP_MIN g) + 1 ≤ (d.mateLeft g).length)

/-! ## State changes -/

/-- What channel `n` is before its first change of state on this tick (R35). -/
def Dev.entMark (d : Dev) (n : Nat) : Dev :=
  let x := d.E n
  if (x.pre.map (·.tick)) = some d.now then d
  else
    let p : PreSt := { tick := d.now, st := d.es n, gate := x.gate, status := d.word (ENT_STATUS.STATE n).off, clear := (d.RT n).clear, hold := x.hold }
    d.onE n fun x => { x with pre := some p }

/-- Channel `n` has tripped on this tick. -/
def Dev.entTripped (d : Dev) (n : Nat) : Bool := (d.E n).tripAt == some d.now

/-- The state in which the causes of channel `n` are evaluated: on the tick of a trip, the one it tripped from (R46). -/
def Dev.entSt (d : Dev) (n : Nat) : Nat :=
  if d.entTripped n then ((d.E n).pre.map (·.st)).getD (d.es n) else d.es n

/-- An entry channel enters a state: the windows of R47 start closed, but for a CUTOFF window carried between ARMED and ON, which both evaluate
it (R46), and those that a trip leaves behind for the rest of its tick; the COUNT_CLEAR window opens on entry into ON (03_branch_fuses.md
R76). -/
def Dev.entGo (d : Dev) (n st : Nat) (g : Gate) : Dev :=
  let d := (d.entMark n).countClear n
  let carry := decide ((d.es n = Ec.armed ∧ st = Ec.on) ∨ (d.es n = Ec.on ∧ st = Ec.armed))
  let now := d.now
  let d := d.onE n fun x =>
    if st = Ec.tripped ∨ st = Ec.latched then { x with gate := g }
    else
      { x with gate := g, qual := none, qualN := 0, ready := false, ovN := 0, oc := none, cut := if carry then x.cut else none,
               doneW := none, rev := none, share := none, blkN := 0, inrush := if st = Ec.inrush then some now else none }
  let d := d.wr (ENT_STATUS.STATE n) st
  if st = Ec.on then d.rtOn n else d.onRT n fun x => { x with clear := none }

/-- A transition that the table takes to CHECK; a battery channel goes to OFF instead (R35). -/
def Dev.entCheck (d : Dev) (n : Nat) (g : Gate) : Dev := d.entGo n (if d.battery n then Ec.off else Ec.check) g

/-- The causes whose condition holds now, in precedence order, in a state in which they are evaluated; SOA is due on the tick of an update
(R46). -/
def Dev.entDue (d : Dev) (n : Nat) : List Nat :=
  let x := d.E n
  let st := d.entSt n
  let run := (st == Ec.inrush || st == Ec.on) && !d.keep.on
  let cut := d.battery n && closed d.now x.cut (d.rd (ENT_CUT_TIME.CUTOFF_T n)) && (run || (st == Ec.armed && !d.keep.on))
  let k := d.rd (ENT_CFG.FET_TYPE n)
  (if run ∧ x.soaAt = some d.now ∧ ¬ d.soaZero k ∧ d.rds (SOA_TJ.TJ_TRIP k) ≤ d.entTj n then [2] else []) ++
  (if run ∧ closed d.now x.oc (d.rd (ENT_OC_TIME.OC_TIME n)) then [3] else []) ++
  (if run ∧ st = Ec.inrush ∧ closed d.now x.inrush (d.rd (ENT_TMAX.INRUSH_TMAX n)) then [4] else []) ++
  (if run ∧ 2 ≤ x.ovN then [5] else []) ++
  (if cut then [6] else [])

/-- A disabled cause has met its condition: a NOTE, and its window or count starts afresh from the next sample (03_branch_fuses.md
R69). -/
def Dev.entNote (d : Dev) (n c : Nat) : Dev :=
  let d := d.onE n fun x =>
    match c with
    | 3 => { x with oc := none }
    | 4 => { x with inrush := none }
    | 5 => { x with ovN := 0 }
    | _ => x
  d.raiseL c n (0x80 + n) 6 0

/-- One channel trips with the causes that are due, the first in the table as CAUSE (R46, R48, R73); true if it latches. -/
def Dev.entTripOne (d : Dev) (n : Nat) (cs : List Nat) : Dev × Bool :=
  let c := cs.headD 0
  let hc := d.battery n && d.md == Md.holdup && c == 6
  let now := d.now
  let (d, l) := (d.entMark n).rtTrip n c hc
  let d := d.entGo n (if l then Ec.latched else Ec.tripped) .offFast
  let d := (d.wr (ENT_STATUS.CAUSE n) c).wr (ENT_STATUS.ALSO n) ((cs.drop 1).foldl setBit 0)
  ((d.evt (ENT_EVT.EVT n) c).onE n fun x => { x with huCut := l && hc, tripAt := some now }, l)

/-- The fault of a trip (R48): the notify level of the policy, L3 for a CUTOFF in HOLDUP (R56). -/
def Dev.entTripMsg (d : Dev) (n c access fence : Nat) : Dev :=
  let lvl := if c = 6 ∧ d.battery n ∧ d.md = Md.holdup then 3 else d.notify n
  d.tripMsg c n (0x80 + n) access lvl fence (fence ≠ 0 && d.latchSafe n) false

/-- The other members of the group trip with channel `n`, each with the causes due of its own, or else with cause `c` (R51; log 18). -/
def Dev.entTripMates (d : Dev) (n c : Nat) : Dev :=
  d.forL ((d.mates n).filter fun m => m ≠ n ∧
      (d.es m = Ec.check ∨ d.es m = Ec.inrush ∨ d.es m = Ec.on ∨ d.es m = Ec.blocking)) fun d m =>
    let due := d.entDue m
    let d := d.forL (due.filter fun c => ! d.tripEn m c) fun d c => d.entNote m c
    let own := due.filter fun c => d.tripEn m c
    let c' := own.headD c
    let (d, l) := d.entTripOne m (if own = [] then [c] else own)
    let d := d.onE m fun x => { x with own := own }
    -- SC is the trip of an analog comparator (09_faults.md R250)
    d.entTripMsg m c' (if c' = 1 then 0 else 6) (if l then 3 else 0)

/-- A trip that followed another member's on this tick is taken back: the group goes on (R51). -/
def Dev.entUntrip (d : Dev) (m : Nat) : Dev :=
  match (d.E m).pre with
  | none => d
  | some p =>
    let c := d.rd (ENT_STATUS.CAUSE m)
    let tj := d.rd (ENT_STATUS.TJ_EST m)
    let d := ((d.setWord (ENT_STATUS.STATE m).off p.status).wr (ENT_STATUS.TJ_EST m) tj)
    let d := (d.tabMem (d.unitAgent m) (RETRY_STAT.RSTATE m).off (d.RT m).stat).setWord (RETRY_STAT.RSTATE m).off (d.RT m).stat
    let d := (d.rtStop m).onRT m fun x => { x with clear := p.clear }
    (d.onE m fun x => { x with gate := p.gate, tripAt := none }).editFault c m fun _ => none

/-- Another cause of its own is due on the tick on which channel `n` has tripped (R46, R51, R73). -/
def Dev.entLate (d : Dev) (n access c : Nat) : Dev :=
  let goes := fun (d : Dev) => decide (d.es n = Ec.latched) && d.groupContinues n
  let was := goes d
  let d := d.lateCause n (ENT_STATUS.STATE n) (ENT_STATUS.CAUSE n) (ENT_STATUS.ALSO n) (ENT_EVT.EVT n) 0 n c access fun d =>
    if d.groupContinues n then 2 else 3
  let d := d.onE n fun x => { x with own := c :: x.own }
  if was ∧ ¬ goes d then d.entTripMates n (d.rd (ENT_STATUS.CAUSE n))
  else if ¬ was ∧ goes d then
    let d := d.forL ((d.mates n).filter fun m => m ≠ n ∧ d.entTripped m ∧ (d.E m).own = []) fun d m => d.entUntrip m
    (match d.groupOf n with | none => d | some g => d.groupScale g)
  else d

/-- Conditions of trips are met: disabled causes are noted, and with an enabled one the channel trips, and with it the members of
its group, each with a cause of its own or else the first member's (R46, R51; log 18). A channel that has tripped on this tick records what
else is due on it. -/
def Dev.entTrip (d : Dev) (n access : Nat) (due : List Nat) : Dev :=
  let d := d.forL (due.filter fun c => ! d.tripEn n c) fun d c => d.entNote n c
  let due := due.filter fun c => d.tripEn n c
  if d.entTripped n then d.forL (due.filter fun c => ! (d.E n).own.contains c) fun d c => d.entLate n access c
  else match due with
    | [] => d
    | c :: _ =>
      let (d, l) := d.entTripOne n due
      let d := d.onE n fun x => { x with own := due }
      if l ∧ d.groupContinues n then
        let d := d.entTripMsg n c access 2
        (match d.groupOf n with | none => d | some g => d.groupScale g)
      else (d.entTripMsg n c access (if l then 3 else 0)).entTripMates n c

/-- A trip by a command that names its cause: it is due now beside the causes whose conditions hold. -/
def Dev.entTripBy (d : Dev) (n c access : Nat) : Dev := d.entTrip n access (c :: (d.entDue n).filter (· ≠ c))

/-- The channel has left INRUSH or ON on this tick by a transition that a trip of the tick precedes (R35). -/
def Dev.entLeft (d : Dev) (n : Nat) : Bool :=
  match (d.E n).pre with
  | none => false
  | some p => decide (p.tick = d.now ∧ (p.st = Ec.inrush ∨ p.st = Ec.on)) && !d.keep.on && !d.entDown n && !d.entTripped n &&
      d.es n != Ec.inrush && d.es n != Ec.on

/-- The transition by which the channel has left its state on this tick is not taken, nor is its NOTE (R35). -/
def Dev.entUndo (d : Dev) (n : Nat) : Dev :=
  match (d.E n).pre with
  | none => d
  | some p =>
    let d := (d.wr (ENT_STATUS.STATE n) p.st).onRT n fun x => { x with clear := p.clear }
    let d := d.onE n fun x => { x with gate := p.gate, hold := p.hold }
    (d.editFault 0x07 n fun _ => none).editFault 0x08 n fun _ => none

/-- The trips due on this tick are taken before another transition of channel `n` (R35). -/
def Dev.entFirst (d : Dev) (n : Nat) : Dev := if d.entDue n = [] then d else d.entTrip n 6 (d.entDue n)

/-- A trip due on this tick is taken, or else a reverse condition that is due: what precedes the transitions of channel `n` with higher
numbers (R35, R52). -/
def Dev.entBlocks (d : Dev) (n : Nat) : Dev :=
  let d := d.entFirst n
  if d.es n ≠ Ec.on ∨ ¬ closed d.now (d.E n).rev (d.rd (ENT_REV.REV_FILT n)) ∨ d.keep.on then d
  else (d.entGo n Ec.blocking .offFast).raise 0x08 n (0x80 + n) 6

/-- Entry channels may turn on in the present mode (10_modes_startup.md R270). -/
def Dev.entMay (d : Dev) : Bool := d.md == Md.ramp || d.md == Md.run || d.md == Md.holdup

/-- A retry is due (03_branch_fuses.md R74): the channel waits in CHECK, its gate off, for a mode in which channels may turn on
(10_modes_startup.md R270; log 27). -/
def Dev.entRetry (d : Dev) (n : Nat) : Dev := (d.rtAbandon n).entCheck n .off

/-- A cool-down has timed out: the machine latches (03_branch_fuses.md R74, R75). -/
def Dev.entCoolLatch (d : Dev) (n : Nat) : Dev :=
  let d := (d.rtLatch n true).entGo n Ec.latched .off
  let f := if d.groupContinues n then 2 else 3
  let d := d.tripMsg (d.rd (ENT_STATUS.CAUSE n)) n (0x80 + n) 6 0 f (d.latchSafe n) true
  if f = 2 then (match d.groupOf n with | none => d | some g => d.groupScale g) else d

/-! ## Requests (R36, R50) -/

/-- The level of ECV_LOST for channel `n`: FENCE-UNIT for a member whose group goes on without it (07_conversion.md R191; R51). -/
def Dev.ecvLevel (d : Dev) (n : Nat) : Nat :=
  let goesOn : Bool := match d.groupOf n with
    | none => false
    | some g => d.on (EG_CFG.CONTINUE g) && decide (d.rd (EG_CFG.GROUP_MIN g) + 1 ≤ ((d.mateLeft g).filter (· ≠ n)).length)
  if goesOn ∧ d.kindLevel 0x0A = 3 then 2 else d.kindLevel 0x0A

/-- ECV `c` of channel `n` lacks its minimum: the channel, if used, is fenced (07_conversion.md R191, R196). -/
def Dev.entLoss (d : Dev) (n c : Nat) : Dev :=
  if ¬ d.convShort c ∨ d.rd (ENT_CFG.ROLE n) = 0 then d else d.raiseL 0x0A n (0x80 + n) 0 (d.ecvLevel n)

/-- The decision on an on request naming channel `n` (R36). -/
def Dev.entOnStatus (d : Dev) (n : Nat) : Nat :=
  if d.rd (ENT_CFG.ROLE n) ≠ 1 then St.roleMismatch
  else if d.es n = Ec.tripped ∨ d.entDown n then St.channelFaulted
  else St.success

/-- An on request: every member of the group that is OFF moves to CHECK (R36, R50). A group that starts anew starts with the limits of the
members it then has (R51). -/
def Dev.entOnReq (d : Dev) (n : Nat) : Dev × Nat :=
  let st := d.entOnStatus n
  if st ≠ St.success then (d, st)
  else
    let starts := (d.mates n).all fun m => d.es m == Ec.off || d.entDown m
    let d := d.forL (d.mates n) fun d m =>
      if d.entOnStatus m = St.success ∧ d.es m = Ec.off then
        (List.range 3).foldl (fun d q => d.entLoss m (576 + 3 * m + q)) (d.entGo m Ec.check .off)
      else d
    ((match (if starts then d.groupOf n else none) with | none => d | some g => d.groupScale g), st)

/-- An off request of one channel (R36); a trip due on the tick is taken first (R35). A battery-role channel in BLOCKING, of which R36 says
nothing, is held against re-arming like one in ARMED or ON (DESIGN CHOICE, log 47). -/
def Dev.entOffOne (d : Dev) (n : Nat) : Dev :=
  let d := d.entFirst n
  if d.es n = Ec.off ∨ d.entDown n then d
  else if d.es n = Ec.tripped then (d.rtAbandon n).entGo n Ec.off .off
  else
    let bat := d.battery n
    (d.entGo n Ec.off .off).onE n fun x => { x with hold := bat || x.hold, pre := x.pre.map fun p => { p with off := true } }

/-- An off request naming any member applies to all (R36, R50). -/
def Dev.entOffReq (d : Dev) (n : Nat) : Dev := d.forL (d.mates n) fun d m => d.entOffOne m

/-! ## Fence and UNFENCE (R35, R51, R260) -/

/-- The selvage fences one channel. -/
def Dev.fenceEntry (d : Dev) (n : Nat) : Dev :=
  if d.es n = Ec.fenced then d
  else
    let d := if d.es n = Ec.tripped then d.rtAbandon n else d
    d.entGo n Ec.fenced .off

/-- FENCE-UNIT of an entry channel: its group goes on with scaled limits (R51, R260). -/
def Dev.fenceEntryUnit (d : Dev) (n : Nat) : Dev :=
  let d := d.fenceEntry n
  match d.groupOf n with | none => d | some g => d.groupScale g

/-- FENCE-DOMAIN of an entry channel: every member of its group (R260). -/
def Dev.fenceEntryDomain (d : Dev) (n : Nat) : Dev :=
  (d.fenceEntry n).forL ((d.mates n).filter (· ≠ n)) fun d m =>
    let was := d.es m
    let d := d.fenceEntry m
    if was = Ec.fenced then d else d.onE m fun x => { x with inDomain := some n }

/-- The fence or latch of a channel is lifted: it goes to OFF (R35, R76). -/
def Dev.freeEntry (d : Dev) (n : Nat) : Dev :=
  ((d.rtClear n).entGo n Ec.off .off).onE n fun x => { x with huCut := false, inDomain := none }

/-- UNFENCE of an entry channel (R35; 09_faults.md R264). -/
def Dev.unfenceEntry (d : Dev) (n : Nat) : Dev × Nat :=
  if ¬ d.entDown n then (d, St.unitNotFenced)
  else if (match (d.E n).inDomain with | none => false | some k => d.entDown k) then (d, St.domainFenced)
  else if d.rds (POL4.T_RETRY (d.unitPol n)) ≤ d.entTj n then (d, St.unitHot)
  else (d.freeEntry n, St.success)

/-- Sage reports a pack removed: a battery channel latched by a CUTOFF in HOLDUP goes to OFF (R56). -/
def Dev.packGone (d : Dev) (p : Nat) : Dev :=
  d.forN 16 fun d n =>
    if d.battery n ∧ d.rd (ENT_CFG.PACK n) = p ∧ (d.E n).huCut ∧ d.entDown n then d.freeEntry n else d

/-! ## Samples (R37, R40-R42, R47) -/

/-- V_DS of an entry channel, from the latest codes (R31). -/
def Dev.entVds (d : Dev) (n : Nat) : Int := ((d.E n).vin : Int) - (d.E n).vout

/-- The case temperature in use (R40; 07_conversion.md R199): T_FIXED too with TEMP_SRC = 1 before the first thermistor sample (DESIGN
CHOICE, log 47). -/
def Dev.entTCase (d : Dev) (n : Nat) : Int :=
  if d.on (ENT_CFG.TEMP_SRC n) ∧ ¬ (d.E n).stale ∧ ¬ d.scvLost (n / 2) ∧ (d.E n).tAt.isSome then (d.E n).tCase
  else d.rds (SOA_TREF.T_FIXED (d.rd (ENT_CFG.FET_TYPE n)))

/-- One update of the thermal model (R40, R42); in low-power mode the interval is 812.5 ns (07_conversion.md R217). -/
def Dev.entModel (d : Dev) (n : Nat) : Dev :=
  let x := d.E n
  let k := d.rd (ENT_CFG.FET_TYPE n)
  let d := d.tabRead (0x80 + n) (0x201200 + 0x40 * k) 32
  let st := d.entSt n
  let nEff := (if st = Ec.inrush ∨ st = Ec.blocking then d.rd (ENT_CFG.LIN_SHARE n) else d.rd (ENT_CFG.N_PAR n)) + 1
  let p := pFet (d.entVds n) (ampsOf x.i 750000 8192 (d.rd (ENT_SHUNT.RSHUNT n))) nEff
  let th := d.soaStep k (if ¬ d.lowPower then (1, 1) else (65, 8)) (x.th1, x.th2, x.th3, x.th4) p
  let tj := tjOf (d.entTCase n) th
  let pe := pEffOf (d.soaZero k) (d.rd (ENT_PLIM.P_LIM n)) tj (d.rds (SOA_TJ.TJ_REG k)) (d.rds (SOA_TJ.TJ_TRIP k))
  let now := d.now
  (d.onE n fun x => { x with th1 := th.1, th2 := th.2.1, th3 := th.2.2.1, th4 := th.2.2.2, pEff := pe, soaAt := some now }).wri (ENT_STATUS.TJ_EST n) tj

/-- The sum of two fractions. -/
def addFrac (a b : Nat × Nat) : Nat × Nat := (a.1 * b.2 + b.1 * a.2, a.2 * b.2)

/-- The members of a group that are in INRUSH; the channel alone when it has no group. -/
def Dev.inrushMates (d : Dev) (n : Nat) : List Nat := (d.mates n).filter fun m => d.es m = Ec.inrush

/-- The total current of a group as a shunt code of the channel `low`, rounded toward zero (R50). -/
def Dev.groupCode (d : Dev) (low : Nat) (ms : List Nat) : Int :=
  ms.foldl (fun s m => s + divZero ((d.E m).i * (d.rd (ENT_SHUNT.RSHUNT low) : Nat)) (d.rd (ENT_SHUNT.RSHUNT m))) 0

/-- How far the current of channel `n` lies from the mean of the members of its group in state `st`, scaled: 0 within BAL_TOL of the
mean (R50). -/
def Dev.shareOff (d : Dev) (n st : Nat) : Int :=
  match d.groupOf n with
  | none => 0
  | some g =>
    let ms := (d.members g).filter fun m => d.es m = st
    let prod := ms.foldl (fun p m => p * d.rd (ENT_SHUNT.RSHUNT m)) 1
    let amps := fun m => (d.E m).i * (prod / d.rd (ENT_SHUNT.RSHUNT m) : Nat)
    let sum := ms.foldl (fun s m => s + amps m) 0
    let off := amps n * ms.length - sum
    if d.rd (EG_CFG.BAL_TOL g) * sum.natAbs < 200 * off.natAbs then off else 0

/-- The inrush loop (R37, R50): the gate sources or sinks a current of at most PULLUP so as to hold the measured quantity at the
reference; how much is a free value (log 19). -/
def Dev.entLoop (d : Dev) (n : Nat) : Dev :=
  let ms := d.inrushMates n
  let low := ms.headD n
  let i := d.groupCode low ms
  let vds := d.entVds low
  let ip := if vds ≤ (d.rd (ENT_PLIM.VDS_DONE low) : Nat) then 2 ^ 62
    else powerCode (ms.foldl (fun a m => addFrac a (d.E m).pEff) (0, 1)) vds (d.rd (ENT_SHUNT.RSHUNT low)) 65536 28125
  let up :=
    if d.rd (ENT_CFG.INRUSH_MODE low) = 0 then decide (i < min (d.rd (ENT_INRUSH.I_INRUSH low) : Int) ip)
    else if ip ≤ i then false
    else decide ((d.E n).dvout * 46875 < (d.rd (ENT_INRUSH.DVDT low) : Nat) * 10)
  -- a member whose share lies outside BAL_TOL is trimmed towards the mean
  let off := d.shareOff n Ec.inrush
  let up := if off = 0 then up else decide (off < 0)
  let code := d.freeVal % (min 49 (d.rd (ENT_PROT.PULLUP n)) + 1)
  d.nextFree.onE n fun x => { x with gate := .drive up code }

/-- The share of a member lies outside BAL_TOL of the group mean (R50). -/
def Dev.outOfShare (d : Dev) (n : Nat) : Bool := d.shareOff n Ec.on != 0

/-- The length of the qualification window (R35). -/
def Dev.qualLen (d : Dev) : Nat := if d.md = Md.holdup then d.rd HU_EXIT_T.VAL else 1280

/-- The windows and counts of a fresh triple (R35, R46, R47, R50, R52); in keep none acts (R58). DESIGN CHOICE (log 47): the window of R50's
NOTE on a member's share runs in ON alone, and a member of a group that has qualified stays so until the others have, whatever VIN does. -/
def Dev.entWindows (d : Dev) (n : Nat) : Dev :=
  let st := d.entSt n
  let now := d.now
  let x := d.E n
  let vin := x.vin
  let run := st == Ec.inrush || st == Ec.on
  if st = Ec.check then
    let good := decide (d.rd (ENT_VLIM.UV n) ≤ vin ∧ vin < d.rd (ENT_VLIM.OV n))
    if closed now x.qual d.qualLen then d
    else d.onE n fun x =>
      if good then { x with qual := some (x.qual.getD now), qualN := x.qualN + 1 }
      else { x with qual := none, qualN := 0, ready := false }
  else if st = Ec.blocking then d.onE n fun x => { x with blkN := if x.vout ≤ vin then x.blkN + 1 else 0 }
  else if ¬ run ∧ st ≠ Ec.armed then d
  else
    let low := d.battery n && decide (vin < d.rd (ENT_BATT.V_CUTOFF n))
    let blk := d.on (ENT_REV.REV_BLOCK n) || d.battery n
    let cut := winUpd now x.cut (d.rd (ENT_CUT_TIME.CUTOFF_T n)) low
    if st = Ec.armed then d.onE n fun x => { x with cut := cut }
    else
      let oc := winUpd now x.oc (d.rd (ENT_OC_TIME.OC_TIME n)) (decide (d.entOcLimit n ≤ x.i))
      let dn := winUpd now x.doneW (d.rd (ENT_DONE.DONE_TIME n))
        (st == Ec.inrush && decide (d.entVds n < (d.rd (ENT_PLIM.VDS_DONE n) : Nat)))
      let rv := winUpd now x.rev (d.rd (ENT_REV.REV_FILT n))
        (st == Ec.on && blk && decide ((d.rd (ENT_REV.REV_TH n) : Int) ≤ -x.i))
      let sh := winUpd now x.share 80000 (st == Ec.on && d.outOfShare n)
      let ov := if d.rd (ENT_VLIM.OV n) ≤ vin then x.ovN + 1 else 0
      let inr := if st = Ec.inrush then some (x.inrush.getD now) else none
      d.onE n fun x => { x with cut := cut, oc := oc, doneW := dn, rev := rv, share := sh, ovN := ov, inrush := inr }

/-- VIN below UV in ON: back to CHECK with a NOTE, unless a reverse condition is due on the same tick, which is taken first (R35, R48,
R52). -/
def Dev.entUnder (d : Dev) (n : Nat) : Dev :=
  if closed d.now (d.E n).rev (d.rd (ENT_REV.REV_FILT n)) then (d.entGo n Ec.blocking .offFast).raise 0x08 n (0x80 + n) 6
  else (d.entCheck n .off).raise 0x07 n (0x80 + n) 6

/-- The trip checks, the UV return and the cool-down judged at an update; a trip due on the tick of a UV return is taken first (R42, R35,
R74). -/
def Dev.entJudge (d : Dev) (n : Nat) (fresh : Bool) : Dev :=
  if d.keep.on then d
  else
    let due := (d.entDue n).filter fun c => ! (d.entTripped n && (d.E n).own.contains c)
    let uv := fresh && d.es n == Ec.on && decide ((d.E n).vin < d.rd (ENT_VLIM.UV n))
    if due.contains 2 ∨ ((uv ∨ d.entTripped n) ∧ due ≠ []) then
      let d := d.entTrip n 6 due
      if uv ∧ d.es n = Ec.on then d.entUnder n else d
    else if uv then d.entUnder n
    else if d.es n = Ec.tripped ∧ d.cooling n ∧ d.entTj n < sext 16 (d.rtPol n 4 POL4.T_RETRY) then d.entRetry n
    else d

/-- An ECV instant of channel `n` (R40; 07_conversion.md R184, R185): with a triple, unless a slice of one of the three converters is out, else
the previous triple again. -/
def devEcvSample (n : Nat) (m : Option EcvTriple) (d : Dev) : Dev :=
  if d.md = Md.off ∨ ¬ d.onGrid (576 + 3 * n) then d
  else
  let d := d.takeInst (576 + 3 * n)
  let has := (List.range 3).map fun q => m.isSome && d.sampled (576 + 3 * n + q)
  let fresh := has.all id
  let d := match m with
    | none => d
    | some t =>
      let s := d.sliceNow (576 + 3 * n)
      let t : EcvTriple := { i := d.code (576 + 3 * n) s true 14 t.i, vin := d.code (577 + 3 * n) s false 14 t.vin,
                             vout := d.code (578 + 3 * n) s false 14 t.vout }
      let vs := [trunc 16 (sext 14 t.i.toNat), t.vin.toNat, t.vout.toNat]
      let d := d.forN 3 fun d q =>
        if has.getD q false then d.deliver (0x400 + 3 * n + q) (vs.getD q 0) 0 (d.calFlag (576 + 3 * n + q)) else d
      if fresh then
        let d := (d.onE n fun x => { x with i := sext 14 t.i.toNat, vin := t.vin.toNat, dvout := (t.vout.toNat : Int) - x.vout,
                                            vout := t.vout.toNat })
        let d := if d.keep.on then d else d.entWindows n
        if d.battery n then d.sageEcv (d.rd (ENT_CFG.PACK n)) n (sext 14 t.i.toNat) t.vin.toNat else d
      else d
  -- the loop uses P_EFF of the previous update (R42)
  let d := if d.es n = Ec.inrush ∧ ¬ d.keep.on then d.entLoop n else d
  (d.entModel n).entJudge n fresh

/-- ECV_SAMPLE -/
def execEcvSample (n : Fin 16) (m : Option EcvTriple) (s : State) : Host.Outcome State Fault Refusal :=
  .next { s with dev := devEcvSample n.val m s.dev }

/-! ## Trips by command (R46) -/

/-- The channel drives its gate on, outside keep (R46). -/
def Dev.entDrives (d : Dev) (n : Nat) : Bool := (d.es n == Ec.inrush || d.es n == Ec.on) && !d.keep.on

/-- The short-circuit comparator has fired after its filter. -/
def devEntScTrip (n : Nat) (d : Dev) : Dev :=
  if d.entDrives n ∨ d.entTripped n then d.entTripBy n 1 0
  else if d.entLeft n then
    -- it precedes the transition that the channel has made on this tick, and an off request of the tick follows it
    let ms := n :: (d.mates n).filter fun m => m ≠ n ∧ d.entLeft m ∧ (d.E m).pre.any (·.off)
    let offs := ms.filter fun m => (d.E m).pre.any (·.off)
    ((d.forL ms fun d m => d.entUndo m).entTripBy n 1 0).forL offs fun d m => d.entOffOne m
  else d

/-- ENT_SC_TRIP -/
def execEntScTrip (n : Fin 16) (s : State) : Host.Outcome State Fault Refusal :=
  .next { s with dev := devEntScTrip n.val s.dev }

/-- A trip of cause `c`, if its condition holds now (log 7). -/
def Dev.entTripIf (d : Dev) (n c : Nat) : Dev := if (d.entDue n).contains c then d.entTrip n 6 (d.entDue n) else d

/-- The over-current window has closed. -/
def devEntOcTrip (n : Nat) (d : Dev) : Dev := d.entTripIf n 3

/-- ENT_OC_TRIP -/
def execEntOcTrip (n : Fin 16) (s : State) : Host.Outcome State Fault Refusal :=
  .next { s with dev := devEntOcTrip n.val s.dev }

/-- INRUSH has lasted INRUSH_TMAX (R38). -/
def devEntInrushTime (n : Nat) (d : Dev) : Dev := d.entTripIf n 4

/-- ENT_INRUSH_TIME -/
def execEntInrushTime (n : Fin 16) (s : State) : Host.Outcome State Fault Refusal :=
  .next { s with dev := devEntInrushTime n.val s.dev }

/-- VIN has been at or above OV on two consecutive samples. -/
def devEntOvTrip (n : Nat) (d : Dev) : Dev := d.entTripIf n 5

/-- ENT_OV_TRIP -/
def execEntOvTrip (n : Fin 16) (s : State) : Host.Outcome State Fault Refusal :=
  .next { s with dev := devEntOvTrip n.val s.dev }

/-- The CUTOFF window has closed (R56). -/
def devEntCutoff (n : Nat) (d : Dev) : Dev := d.entTripIf n 6

/-- ENT_CUTOFF -/
def execEntCutoff (n : Fin 16) (s : State) : Host.Outcome State Fault Refusal :=
  .next { s with dev := devEntCutoff n.val s.dev }

/-! ## Progress (R35, R39, R50, R52) -/

/-- VIN has qualified over the whole window: the channel, or its group when every member that moves has qualified, enters
INRUSH (R35, R50). -/
def devEntQualify (n : Nat) (d : Dev) : Dev :=
  if d.es n ≠ Ec.check ∨ ¬ closed d.now (d.E n).qual d.qualLen ∨ d.keep.on ∨ ¬ d.entMay then d
  else
    let d := d.onE n fun x => { x with ready := true }
    if (d.mates n).all fun m => (d.es m == Ec.check && (d.E m).ready) || d.es m == Ec.on || d.entDown m then
      d.forL ((d.mates n).filter fun m => d.es m = Ec.check) fun d m => d.entGo m Ec.inrush (.drive true 0)
    else d

/-- ENT_QUALIFY -/
def execEntQualify (n : Fin 16) (s : State) : Host.Outcome State Fault Refusal :=
  .next { s with dev := devEntQualify n.val s.dev }

/-- V_DS has stayed below VDS_DONE for DONE_TIME: the channel enters ON and its gate is sourced to full enhancement (R35, R39). A member that
comes back into a running group restores the limits (R51). A trip due on the tick is taken first (R35). -/
def devEntInrushDone (n : Nat) (d : Dev) : Dev :=
  let d := d.entFirst n
  if d.es n ≠ Ec.inrush ∨ ¬ closed d.now (d.E n).doneW (d.rd (ENT_DONE.DONE_TIME n)) ∨ d.keep.on ∨ ¬ d.entMay then d
  else
    let d := d.entGo n Ec.on .enhancing
    match d.groupOf n with | none => d | some g => d.groupScale g

/-- ENT_INRUSH_DONE -/
def execEntInrushDone (n : Fin 16) (s : State) : Host.Outcome State Fault Refusal :=
  .next { s with dev := devEntInrushDone n.val s.dev }

/-- The gate has reached full enhancement (R39). -/
def devEntGateEnhanced (n : Nat) (d : Dev) : Dev :=
  d.onE n fun x => if x.gate = .enhancing then { x with gate := .enhanced } else x

/-- ENT_GATE_ENHANCED -/
def execEntGateEnhanced (n : Fin 16) (s : State) : Host.Outcome State Fault Refusal :=
  .next { s with dev := devEntGateEnhanced n.val s.dev }

/-- Reverse current has held for REV_FILT: fast turn-off into BLOCKING, and a NOTE (R52); a trip due on the tick is taken first (R35). -/
def devEntBlock (n : Nat) (d : Dev) : Dev := d.entBlocks n

/-- ENT_BLOCK -/
def execEntBlock (n : Fin 16) (s : State) : Host.Outcome State Fault Refusal :=
  .next { s with dev := devEntBlock n.val s.dev }

/-- VIN has been at or above VOUT on 16 consecutive samples (R35). -/
def devEntBlockReturn (n : Nat) (d : Dev) : Dev :=
  if d.es n = Ec.blocking ∧ 16 ≤ (d.E n).blkN then d.entCheck n .off else d

/-- ENT_BLOCK_RETURN -/
def execEntBlockReturn (n : Fin 16) (s : State) : Host.Outcome State Fault Refusal :=
  .next { s with dev := devEntBlockReturn n.val s.dev }

/-- A battery-role channel in OFF meets every arming condition (R35). -/
def devEntArm (n : Nat) (d : Dev) : Dev :=
  if d.es n = Ec.off ∧ d.battery n ∧ d.active ∧ d.on (SG_STATUS.PRESENT (d.rd (ENT_CFG.PACK n))) ∧
      d.rd (ENT_BATT.V_CUTOFF n) ≤ (d.E n).vin ∧ ¬ (d.E n).hold ∧ ¬ d.keep.on then
    d.entGo n Ec.armed .off
  else d

/-- ENT_ARM -/
def execEntArm (n : Fin 16) (s : State) : Host.Outcome State Fault Refusal :=
  .next { s with dev := devEntArm n.val s.dev }

/-- A member's share has stayed outside BAL_TOL for 80,000 ticks: a NOTE (R50). -/
def devEntShare (n : Nat) (d : Dev) : Dev :=
  if d.es n = Ec.on ∧ closed d.now (d.E n).share 80000 ∧ ¬ d.keep.on then
    (d.onE n fun x => { x with share := none }).raise 0x09 n (0x80 + n) 6
  else d

/-- ENT_SHARE -/
def execEntShare (n : Fin 16) (s : State) : Host.Outcome State Fault Refusal :=
  .next { s with dev := devEntShare n.val s.dev }

end Sys2Proof.Machine
end

