-- ==== Sys2Proof/Machine/Loom.lean ====
section
/-! DEFINITION. The rail loom's pipeline: the reference with the load line, what the shuttle hands over, and the compensator, which
takes each sample 26 control clocks after its sampling instant (04_rail_loom.md R92-R101, R105; 06_load_intent.md R163, R165). -/

namespace Sys2Proof.Machine

namespace Rs
/-- Rail state codes (04_rail_loom.md R107). -/
def off : Nat := 0
/-- START -/
def start : Nat := 1
/-- RUN -/
def run : Nat := 2
/-- STOPPING -/
def stopping : Nat := 3
/-- FENCED -/
def fenced : Nat := 4
end Rs

/-- The state of rail `r`. -/
def Dev.rs (d : Dev) (r : Nat) : Nat := d.rd (RAIL_STATUS.STATE r)

/-- Rail `r` is in START, RUN or STOPPING. -/
def Dev.rLive (d : Dev) (r : Nat) : Bool := d.rs r == Rs.start || d.rs r == Rs.run || d.rs r == Rs.stopping

/-- VREF with the load line applied, in 2^-5 uV (R95). -/
def Dev.refLl (d : Dev) (r : Nat) : Int :=
  8 * (d.rd (RAIL_VREF.VREF r) : Int) - 2 * (d.rd (RAIL_LL.R_LL r) : Int) * (d.R r).iSum

/-- Millivolts in 2^-5 uV. -/
def mv (n : Nat) : Int := 32000 * (n : Int)

/-- The value i_sum had 40 ticks before tick `t` (R92). -/
def Dev.i40 (d : Dev) (r t : Nat) : Int :=
  match (d.R r).iHist.find? fun x => x.1 + 40 ≤ t with
  | some x => x.2
  | none => 0

/-- Lowest code of CATCH_LO and CATCH_HI that acts: codes below 10 act as 10 (R85). -/
def catchCode (v : Nat) : Nat := max 10 v

/-- The undershoot threshold ref_ll - CATCH_LO, in 2^-5 uV (R95, R102). -/
def Dev.catchLow (d : Dev) (r : Nat) : Int := d.refLl r - mv (catchCode (d.rd (RAIL_CATCH.CATCH_LO r)))

/-- The overshoot threshold ref_ll + CATCH_HI, in 2^-5 uV (R95, R102). -/
def Dev.catchHigh (d : Dev) (r : Nat) : Int := d.refLl r + mv (catchCode (d.rd (RAIL_CATCH.CATCH_HI r)))

/-! ## What the shuttle hands over (R96; 06_load_intent.md R163, R165) -/

/-- A pre-bias in 0.01 code as the shuttle holds it, in 2^-8 code: the exact ramp, toward zero (06_load_intent.md R163; log 21). -/
def pbHeld (v : Int) : Int := divZero (v * 256) 100

/-- The rail's pre-bias in 0.01 code: that of its speculation, or what remains of a confirmed one under a shadow evaluation. -/
def Dev.pbRaw (d : Dev) (r : Nat) : Int :=
  (d.R r).pbRm + (match (d.R r).spec with | none => 0 | some s => s.pb)

/-- The pre-bias the shuttle hands to the compensator, in error codes, rounded toward zero and limited to the band (R96; R163). -/
def Dev.pbOf (d : Dev) (r : Nat) : Int :=
  if (d.R r).strat % 2 = 0 then 0
  else
    let v : Int := d.rd (RAIL_VREF.VREF r)
    let top := ((d.rd (RAIL_BAND.VMAX r) : Int) * 4000 - 2 * v) / 125
    let bot := -((2 * v - (d.rd (RAIL_BAND.VMIN r) : Int) * 4000) / 125)
    let pb := divZero (pbHeld (d.pbRaw r)) 256
    if pb < 0 then (if pb < bot then bot else pb) else if top < pb then top else pb

/-- u_int, in 2^-32 duty (R165). -/
def Dev.uOf (d : Dev) (r : Nat) : Int :=
  match (d.R r).spec with
  | none => 0
  | some s => if (d.R r).strat % 2 = 1 then s.u else 0

/-! ## The compensator (R92, R93) -/

/-- Saturation to 48 bits. -/
def sat48 (v : Int) : Int := clip (-(2 ^ 47)) (2 ^ 47 - 1) v

/-- A re-ranging slot or a catch is in progress on tick `t`: the output is not applied and y is held (R105, R112). -/
def Dev.dutyHeld (d : Dev) (r t : Nat) : Bool :=
  let x := d.R r
  x.catU.isSome || x.catO.isSome || (match x.rerange with | some e => decide (e ≤ t + 32 ∧ t < e) | none => false)

/-- One run of the compensator on the sample `x` taken at tick `t`, with the currents, the shuttle's values and the coefficients of its
stage at t + 26 (R92, R96, R97, R99). -/
def Dev.compensate (d : Dev) (r t : Nat) (code : Int) : Dev :=
  let x := d.R r
  let st := t + 26
  let ll := divEven ((d.rd (RAIL_LL.R_LL r) : Int) * x.iSum) 250
  let e := -code - ll + d.pbOf r
  let dy := d.rds (COEF_B0.B0 r) * e + d.rds (COEF_B1.B1 r) * x.e1 + d.rds (COEF_B2.B2 r) * x.e2
  let wind := (x.clamp == .high && decide (0 < dy)) || (x.clamp == .low && decide (dy < 0))
  let y := if d.dutyHeld r st || wind then x.y else sat48 (x.y + dy)
  let p1 : Int := d.rd (COEF_POLE.P1 r)
  let p2 : Int := d.rd (COEF_POLE.P2 r)
  let f1 := if p1 = 0 then y else sat48 (x.f1 + divZero (p1 * (y - x.f1)) 65536)
  let f2 := if p2 = 0 then f1 else sat48 (x.f2 + divZero (p2 * (f1 - x.f2)) 65536)
  let raw := f2 + d.rds (COEF_KDI.KDI r) * (x.iSum - d.i40 r st) + d.uOf r
  let hi : Int := (d.rd (RAIL_DCLAMP.D_MAX r) : Int) * 65536
  let lo : Int := (d.rd (RAIL_DCLAMP.D_MIN r) : Int) * 65536
  let (duty, cl) := if hi < raw then (hi, Clamp.high) else (raw, Clamp.none)
  let (duty, cl) := if duty < lo then (lo, Clamp.low) else (duty, cl)
  let ta := t + (if d.on (RAIL_STATUS.CROSS r) then 36 else 34)
  let d := d.onR r fun x =>
    { x with y := y, f1 := f1, f2 := f2, e2 := x.e1, e1 := e, clamp := cl, d := duty, pipe := x.pipe ++ [(ta, duty)] }
  let d := d.wr (RAIL_STATUS.CLAMP r) (match cl with | .none => 0 | .low => 1 | .high => 2)
  if cl = .none then d else d.evt (RAIL_EVT.EVT r) 8

/-- Quantity 5: the state of catch and clamp (R120). -/
def Dev.q5 (d : Dev) (r : Nat) : Nat := d.rd (RAIL_STATUS.CATCH r) + 4 * d.rd (RAIL_STATUS.CLAMP r)

/-- The tag of quantity `q` of rail `r` (R120). -/
def railTag (r q : Nat) : Nat := 0xA00 + 8 * r + q

/-- Quantity 5 is delivered on change (R120). -/
def Dev.deliverQ5 (d : Dev) (r before : Nat) : Dev :=
  if d.q5 r = before then d else d.deliver (railTag r 5) (d.q5 r)

/-- The compensator stages that began before the present tick run, each on the values then present (R96, R97): every event that changes
one of these values comes after this. A stage of the present tick sees what the tick leaves (log 20). -/
def Dev.stages (d : Dev) (r : Nat) : Dev :=
  let now := d.now
  let due := (d.R r).samp.filter fun x => x.1 + 26 < now
  if due = [] then d
  else
    let before := d.q5 r
    let d := d.onR r fun x => { x with samp := x.samp.filter fun y => now ≤ y.1 + 26 }
    (d.forL due fun d x => d.compensate r x.1 x.2).deliverQ5 r before

end Sys2Proof.Machine
end

