-- ==== Sys2Proof/Machine/Warp.lean ====
section
/-! DEFINITION. Warps and their phase sets, the levels of the PWM outputs, frames to the load, the end of a speculation, and the rail
states (04_rail_loom.md R88-R91, R107; 05_phase_management.md R122-R133; 06_load_intent.md R152-R154, R169). -/

namespace Sys2Proof.Machine

namespace Ps
/-- Phase state codes (05_phase_management.md R127). -/
def idle : Nat := 0
/-- ACTIVE -/
def active : Nat := 3
/-- TRIPPED -/
def tripped : Nat := 5
/-- LATCHED -/
def latched : Nat := 6
/-- FENCED -/
def fenced : Nat := 7
/-- HELD -/
def held : Nat := 9
/-- UNASSIGNED -/
def unassigned : Nat := 15
end Ps

/-- The state of phase `p`. -/
def Dev.ps (d : Dev) (p : Nat) : Nat := d.rd (PH_STATE.STATE p)

/-- The branch that feeds phase `p`, if its table entry is VALID (03_branch_fuses.md R78). -/
def Dev.phBranch (d : Dev) (p : Nat) : Option Nat :=
  let b := (d.word (0x10C400 + p / 4 * 4)).toNat / 256 ^ (p % 4) % 256
  if b.testBit 7 then some (b % 64) else none

/-- Branch `b` is in ON. -/
def Dev.brOn (d : Dev) (b : Nat) : Bool := d.rd (BR_STATUS.STATE b) == Ec.on

/-! ## Phase sets (05_phase_management.md R122) -/

/-- The warp of rail `r`, lowest phase first. -/
def Dev.warp (d : Dev) (r : Nat) : List Nat := d.ph.filterMap fun x => if x.2.rail = some r then some x.1 else none

/-- The neighbour link between a phase's die and its rail's home die, `none` for a home-die phase. -/
def phLink (r p : Nat) : Option Nat := if p / 128 = r / 16 then none else some (4 + min (p / 128) (r / 16))

/-- Phase `p` is available (R122). -/
def Dev.avail (d : Dev) (p : Nat) : Bool := (d.ps p == Ps.idle || d.ps p == Ps.active) && !(d.P p).held

/-- The mask bit of phase `p` in the working mask of rail `r` (R123, R128). -/
def Dev.maskBit (d : Dev) (r p : Nat) : Bool :=
  if p / 128 = r / 16 then (d.R r).maskH.testBit (p % 128) else (d.R r).maskN.testBit (p % 128)

/-- The available set. -/
def Dev.availSet (d : Dev) (r : Nat) : List Nat := (d.warp r).filter d.avail

/-- The allowed set. -/
def Dev.allowed (d : Dev) (r : Nat) : List Nat := (d.availSet r).filter (d.maskBit r)

/-- The active set: the phases in ACTIVE that are not leaving. -/
def Dev.activeSet (d : Dev) (r : Nat) : List Nat :=
  (d.warp r).filter fun p => d.ps p == Ps.active && (d.P p).leave.isNone

/-- MIN_PHASES, code 0 read as 64 (R123). -/
def Dev.minPhases (d : Dev) (r : Nat) : Nat := if d.rd (PH_CFG.MIN_PHASES r) = 0 then 64 else d.rd (PH_CFG.MIN_PHASES r)

/-- The rail in whose warp a phase is, or its own rail index when in none. -/
def Dev.railOf (d : Dev) (p : Nat) : Nat := (d.P p).rail.getD 0

/-- The counts of PH_STATUS, DEG and I_LIM_EFF (R143, R146). -/
def Dev.warpShow (d : Dev) (r : Nat) : Dev :=
  let w := (d.warp r).length
  let a := (d.availSet r).length
  let d := ((d.wr (PH_STATUS.N_WARP r) w).wr (PH_STATUS.N_AVAIL r) a).wr (PH_STATUS.N_ACTIVE r) (d.activeSet r).length
  let d := d.wr (PH_STATUS.DEG r) (b2n (decide (a < w)))
  if w = 0 then d else d.wr (PH_ILIM_EFF.I_LIM_EFF r) (d.rd (RAIL_ILIM.I_LIM r) * a / w)

/-- The phases of a rail's sets have changed: the counts follow, and with too few available in START, RUN or STOPPING the rail loom
raises MIN_PHASES, once on a tick, all of whose withdrawals count before the check (R143, R144). -/
def Dev.warpChanged (d : Dev) (r before : Nat) : Dev :=
  let d := d.warpShow r
  let a := (d.availSet r).length
  let now := d.now
  if a ≠ before ∧ d.rLive r ∧ a < d.minPhases r ∧ (d.R r).minAt ≠ some now then
    ((d.onR r fun x => { x with minAt := some now }).evt (RPH_EVT.EVT r) 4).raise 0x35 r (0x40 + r) 0
  else d

/-- Something happens to phases of a list on one tick; every change is counted before the check of each rail concerned (R144). -/
def Dev.eachPhase (d : Dev) (ps : List Nat) (f : Dev → Nat → Dev) : Dev :=
  (d.forL ps f).forL ((List.range 64).filter fun r => ps.any fun p => d.railOf p == r) fun e r =>
    e.warpChanged r (d.availSet r).length

/-- The phases that the shuttle holds for rail `r` (06_load_intent.md R164, R167). -/
def Dev.wokenAll (d : Dev) (r : Nat) : List Nat :=
  let own := match (d.R r).spec with | none => [] | some s => s.woken
  (d.R r).holds.foldl (fun l h => l ++ h.ps.filter fun p => ! l.contains p) own

/-- PEND_WAKE shows how many phases the shuttle holds (06_load_intent.md R176). -/
def Dev.wokenShow (d : Dev) (r : Nat) : Dev := d.wr (PEND_WAKE.WOKEN r) (d.wokenAll r).length

/-- A trip, fence or hold withdraws a phase at once (R133): if it was in service, the next boundary starts a re-interleave, and a
woken phase stops counting (06_load_intent.md R176). -/
def Dev.withdraw (d : Dev) (r p : Nat) : Dev :=
  let was := (d.P p).active
  let d := d.onP p fun x => { x with active := false, leave := none, share := none }
  let d := d.onR r fun x =>
    { x with moveN := x.moveN || was, filled := x.filled.filter (· ≠ p), spec := x.spec.map fun s => { s with woken := s.woken.filter (· ≠ p) },
             holds := x.holds.map fun h => { h with ps := h.ps.filter (· ≠ p) } }
  (d.wokenShow r).evt (RPH_EVT.EVT r) 0

/-! ## Levels (04_rail_loom.md R88, R91) -/

/-- Row 1 of R91 holds phase `p` of rail `r` at MID. -/
def Dev.row1 (d : Dev) (r p : Nat) : Bool :=
  !d.rLive r || !(d.avail p) || (!(d.maskBit r p) && d.ps p != Ps.active && (d.R r).catU.isNone)

/-- Row 1 but for the mask: the phases whose currents i_sum takes exclude every phase row 1 holds (R94). -/
def Dev.counts (d : Dev) (r p : Nat) : Bool := !(d.row1 r p)

/-- The control clock's first interpolation step (R87: 32 steps of 39.0625 ps a tick). -/
def Dev.step0 (d : Dev) : Nat := 32 * d.now

/-- The arrival difference of a neighbour-die phase's clock against the home die, in interpolation steps, to the nearest: SKEW is in 5 ps,
positive when the higher die's clock comes later (11_clocks_time.md R309, R310; log 48). -/
def Dev.skewSteps (d : Dev) (r p : Nat) : Int :=
  match phLink r p with
  | none => 0
  | some l =>
    let v := divEven (d.rds (REG_LINK.SKEW (l - 4)) * 16) 125
    if r / 16 < p / 128 then v else -v

/-- The period of rail `r` in interpolation steps (R87). -/
def Dev.perSteps (d : Dev) (r : Nat) : Nat := 8 * d.rd (RAIL_PERIOD.PERIOD r)

/-- The centre, in absolute steps, of the period window of phase `p` that holds step `s` (R89). The steps of a neighbour die's own clock come
later than the home die's by the arrival difference, and its edge scheduler makes its edges earlier by as much, to the nearest step
(11_clocks_time.md R310). -/
def Dev.centreAt (d : Dev) (r p s : Nat) : Nat :=
  let per := d.perSteps r
  let arrives := d.skewSteps r p
  let offset := d.skewSteps r p
  let c := ((32 * (d.R r).t0.getD 0 + d.rd (PH_CENTRE.CENTRE p) : Nat) + arrives - offset).toNat
  -- the number of whole periods from the first window's start to s
  if per = 0 ∨ s + per / 2 < c then c else c + (s + per / 2 - c) / per * per

/-- The on-time of phase `p` in steps, with the trim and T_ON_MIN (R89). -/
def Dev.onTime (d : Dev) (r p : Nat) : Nat :=
  let v := (divEven (((d.R r).dApp + (d.P p).delta) * (d.perSteps r : Int)) (2 ^ 32)).toNat
  let lo := 8 * d.rd (RAIL_PULSE.T_ON_MIN r)
  if v = 0 then 0 else if v < lo then lo else v

/-- The on-time of a pulse in the window about centre `c`: none in a window that opened before the phase joined
(05_phase_management.md R132). -/
def onIn (x : PhaseSt) (per c : Nat) : Nat := if c < x.joinAt + per / 2 then 0 else x.on

/-- The pulse of phase `p` brought to the period window that holds the present clock (R89, R90): where a new window has opened, its pulse
stands about its centre with the latest on-time, T_OFF_MIN after the pulse before it, which stays as placed. -/
def Dev.pulseNow (d : Dev) (r p : Nat) : PhaseSt :=
  let x := d.P p
  let per := d.perSteps r
  let c := d.centreAt r p d.step0
  match x.win with
  | some o =>
    if c < o + per / 2 then x
    else
      let old := if x.lead < x.trail then (x.lead, x.trail) else (x.pLead, x.pTrail)
      let m := onIn x per (c - per)
      let prev := if o + per + per / 2 ≤ c ∧ m ≠ 0 then (c - per - m / 2, c - per - m / 2 + m) else old
      let on := onIn x per c
      let lead := max (c - on / 2) (if prev.1 < prev.2 then prev.2 + 8 * d.rd (RAIL_PULSE.T_OFF_MIN r) else 0)
      let trail := if on = 0 then lead else max lead (c - on / 2 + on)
      { x with win := some c, lead := lead, trail := trail, pLead := prev.1, pTrail := prev.2 }
  | none =>
    let on := onIn x per c
    { x with win := some c, lead := c - on / 2, trail := c - on / 2 + on, pLead := 0, pTrail := 0 }

/-- The edge scheduler holds phase `p` HIGH now. -/
def Dev.pulseHigh (d : Dev) (r p : Nat) : Bool :=
  let x := d.pulseNow r p
  let s := d.step0
  decide ((x.lead ≤ s ∧ s < x.trail) ∨ (x.pLead ≤ s ∧ s < x.pTrail))

/-- Rail `r` switches its phases: STOPPING or RUN, or START after first switching (R91, R111). -/
def Dev.switching (d : Dev) (r : Nat) : Bool :=
  d.rs r == Rs.run || d.rs r == Rs.stopping || (d.rs r == Rs.start && (d.R r).sw)

/-- The level that phase `p` drives now (R91); in reset the ball is high-impedance. -/
def Dev.pwm (d : Dev) (p : Nat) : Level :=
  if ¬ d.clk.hub then .hiz
  else match (d.P p).rail with
    | none => .mid
    | some r =>
      let x := d.R r
      if d.row1 r p then .mid
      else if x.ovTrip then (if x.ovAct then .low else .mid)
      else if x.catO.isSome then .mid
      else if x.catU.isSome then .high
      else if d.ps p = Ps.active ∧ d.switching r ∧ (match (d.P p).leave with | some t => decide (d.now < t) | none => true) = true then
        (if d.pulseHigh r p then .high else .low)
      else .mid

/-- PGn_N is released, and so reads high, while power-good is asserted; it is held low while power-good is deasserted and while the device
is unpowered or in reset (R119). -/
def Dev.pgReleased (d : Dev) (r : Nat) : Bool := d.clk.hub && d.on (RAIL_STATUS.PG r)

/-! ## Frames to the load (06_load_intent.md R152-R154) -/

namespace Ip
/-- Port state codes (06_load_intent.md R155). -/
def disabled : Nat := 0
/-- SEEK -/
def seek : Nat := 1
/-- UP -/
def up : Nat := 2
/-- SILENT -/
def silent : Nat := 3
/-- FENCED -/
def fenced : Nat := 7
end Ip

/-- The state of intent port `n`. -/
def Dev.ipSt (d : Dev) (n : Nat) : Nat := d.rd (IP_STATUS.STATE n)

/-- Port `n` transmits frames: it is UP or SILENT, and the hub runs (R154, R180). -/
def Dev.ipTx (d : Dev) (n : Nat) : Bool := (d.ipSt n == Ip.up || d.ipSt n == Ip.silent) && d.clk.hub

/-- A frame becomes ready to send (R154); its sequence byte is given when it is sent (R151). -/
def Dev.ipReady (d : Dev) (n kind payload : Nat) : Dev :=
  if d.ipTx n then d.onIP n fun x => { x with txQ := x.txQ ++ [{ kind := kind, seq := 0, payload := payload }] } else d

/-- An ACK (R152). -/
def Dev.ipAck (d : Dev) (n seq type slot outcome : Nat) : Dev :=
  d.ipReady n 0x81 (seq + type * 0x100 + slot * 0x10000 + outcome * 0x40000)

/-- The port and slot that rail `r` is bound to. -/
def Dev.portOf (d : Dev) (r : Nat) : Option (Nat × Nat) :=
  (List.range 32).findSome? fun n => ((d.boundRails n).find? fun x => x.2 == r).map fun x => (n, x.1)

/-- Power-good changes: PGOOD goes to the bound port (R154), unless the rail's hub link is out (10_modes_startup.md R294). -/
def Dev.setPg (d : Dev) (r : Nat) (v : Bool) : Dev :=
  if d.rd (RAIL_STATUS.PG r) = b2n v then d
  else
    let d := d.wr (RAIL_STATUS.PG r) (b2n v)
    match d.portOf r with
    | none => d
    | some (n, k) => if d.railLink r then d.ipReady n 0x85 (k + 4 * b2n v) else d

/-! ## The end of a speculation (06_load_intent.md R169, R170) -/

/-- PHASE of the rail's speculation. -/
def Dev.specPhase (d : Dev) (r : Nat) : Nat := d.rd (PEND_STATE.PHASE r)

/-- Change the rail's speculation. -/
def Dev.onSpec (d : Dev) (r : Nat) (f : SpecSt → SpecSt) : Dev := d.onR r fun x => { x with spec := x.spec.map f }

/-- The wake of a speculation is still to come (06_load_intent.md R164). -/
def Dev.wakes (d : Dev) (r : Nat) (s : SpecSt) : Bool :=
  !s.shadow && !s.woke && decide (d.on (SPEC_CONF.WAKE_EN r)) && decide (0 < s.di)

/-- The tick from which a speculation's wake is due, max(t_acc, T_step - WAKE_LEAD) (06_load_intent.md R164). -/
def Dev.wakeDue (d : Dev) (r : Nat) (s : SpecSt) : Nat := max s.tAcc (s.tStep - d.rd (SPEC_LEAD.WAKE_LEAD r))

/-- The latest whole i_sum sample of rail `r`, in 1/16 A (05_phase_management.md R94; 06_load_intent.md R162). -/
def Dev.sumLast (d : Dev) (r : Nat) : Int := match (d.R r).iHist with | [] => (d.R r).iSum | x :: _ => x.2

/-- The shuttle's values show as 0. -/
def Dev.specZero (d : Dev) (r : Nat) : Dev :=
  (((d.wr (PEND_PB.PB r) 0).wr (PEND_UINT.UINT r) 0).wr (PEND_WAKE.WOKEN r) 0).wr (PEND_STATE.PHASE r) 0

/-- The samples and faults of rail `r` stamped on the present tick carry the SPEC mark, or no longer do: the speculation opens, or ends, on
this tick (06_load_intent.md R170, R172, R174). -/
def Dev.specMark (d : Dev) (r : Nat) (v : Bool) : Dev :=
  let now := d.now
  let tagOf := fun (t : Nat) =>
    (t / 512 == 0 && (d.P (t % 512)).rail == some r) || (t / 512 == 1 && t % 512 == r) || (t / 512 == 5 && t % 512 / 8 == r)
  let unitOf := fun (m : FMsg) =>
    (decide (0x21 ≤ m.kind ∧ m.kind ≤ 0x28) && (d.P m.unit).rail == some r) || (decide (0x30 ≤ m.kind ∧ m.kind ≤ 0x39) && m.unit == r) ||
      (decide (0x40 ≤ m.kind ∧ m.kind ≤ 0x42) && (d.boundRails m.unit).any fun x => x.2 == r)
  { d with
    host := { d.host with fwd := d.host.fwd.map fun e => if e.stamp = d.tagStamp e.tag.toNat now ∧ tagOf e.tag.toNat then { e with spec := v } else e }
    flt := { d.flt with msgs := d.flt.msgs.map fun m => if m.stamp = d.faultStamp m.kind m.unit ∧ unitOf m then { m with spec := v } else m } }

/-- The speculation of rail `r` ends on the present tick, as what follows sees it (06_load_intent.md R170). A shadow evaluation marks
nothing. -/
def Dev.specEnds (d : Dev) (r : Nat) : Dev :=
  let now := d.now
  match (d.R r).spec with
  | none => d
  | some s =>
    if s.tEnd.isSome then d
    else
      let d := d.onSpec r fun s => { s with tEnd := some now }
      if s.shadow then d else d.specMark r false

/-- A speculation that only holds phases is cancelled: they are released, and ACK CANCELLED goes out (06_load_intent.md R169). -/
def Dev.dropHolds (d : Dev) (r : Nat) : Dev :=
  let hs := (d.R r).holds
  let d := d.onR r fun x => { x with holds := [] }
  d.forL (hs.filter fun h => h.ps != []) fun d h =>
    ((d.wr (PEND_STATE.LAST r) 3).evt (SPEC_EVT.EVT r) 3).ipAck h.port h.seq 0x02 h.slot 3

/-- The speculation of rail `r`, if it is open, retracting or holding phases, or is a shadow evaluation, is cancelled: ACK
CANCELLED goes out if the port can still transmit (R169, R179); pb and u_int become 0 on the next sample. What a confirmed one that holds no
phase leaves of its pre-bias goes on being removed. -/
def Dev.cancelSpec (d : Dev) (r : Nat) : Dev :=
  let d := d.dropHolds r
  match (d.R r).spec with
  | none => d
  | some s =>
    let ph := d.specPhase r
    if (ph = 0 ∨ ph = 2) ∧ s.woken = [] then d.onSpec r fun s => { s with woke := true, holdEnd := none }
    else
      let d := (d.specEnds r).onSpec r fun s =>
        { s with dead := true, pcOn := false, pcCut := true, woken := [], opn := false, holdEnd := none, shedAt := none, rm := none,
                 pbTgt := 0, woke := true }
      let d := ((d.wokenShow r).wr (PEND_STATE.PHASE r) 0).wr (PEND_STATE.LAST r) 3
      (if ph = 4 then d else d.evt (SPEC_EVT.EVT r) 3).ipAck s.port s.seq 0x02 s.slot 3

/-! ## Rail states (04_rail_loom.md R97, R98, R107, R108; 05_phase_management.md R128) -/

/-- The shadow coefficient set becomes the active one (R97). -/
def Dev.coefSwap (d : Dev) (r : Nat) : Dev :=
  if ¬ d.on (COEF_CTL.PENDING r) then d
  else
    let base := 0x100000 + 0x200 * r
    let d := d.forN 5 fun d k => d.setNow (base + 0x60 + 4 * k) (d.word (base + 0x80 + 4 * k))
    let d := d.wr (COEF_CTL.PENDING r) 0
    match (d.R r).coefOut with
    | none => d
    | some t =>
      let tag := match t with
        | .out i => ((d.host.out.find? fun o => o.id = i).map fun o => o.d.tag.toNat).getD 0
        | _ => 0
      ((d.wr (COEF_CTL.LOAD_TAG r) tag).onR r fun x => { x with coefOut := none }).complete t St.success

/-- A COEF_LOAD writes the shadow set and sets PENDING (R97). -/
def Dev.coefShadow (d : Dev) (r : Nat) (t : Token) (ws : List Word) : Dev :=
  let base := 0x100000 + 0x200 * r
  let d := d.forN 5 fun d k => d.setWord (base + 0x80 + 4 * k) (ws.getD k 0)
  (d.wr (COEF_CTL.PENDING r) 1).onR r fun x => { x with coefOut := some t }

/-- After a swap, the next waiting load writes the shadow set (R98). -/
def Dev.coefNext (d : Dev) (r : Nat) : Dev :=
  if d.on (COEF_CTL.PENDING r) then d
  else match (d.R r).coefQ with
    | [] => d
    | (t, ws) :: q => (d.onR r fun x => { x with coefQ := q }).coefShadow r t ws

/-- The swaps that happen at once while the rail is OFF or FENCED, each waiting load in turn. -/
def Dev.coefDrain (d : Dev) (r : Nat) : Nat → Dev
  | 0 => d
  | n + 1 => ((d.coefSwap r).coefNext r).coefDrain r n

/-- A pending mask takes effect (05_phase_management.md R128). -/
def Dev.maskSwap (d : Dev) (r : Nat) : Dev :=
  let ts := (d.R r).maskOut
  let d := match (d.R r).maskP with
    | none => d
    | some (h, n) => d.onR r fun x => { x with maskH := h, maskN := n, maskP := none, maskOut := [] }
  d.completeAll ts St.success

/-- A phase's trim is set (05_phase_management.md R134): PH_DELTA shows its low 32 bits (log 48). -/
def Dev.setDelta (d : Dev) (p : Nat) (v : Int) : Dev := (d.onP p fun x => { x with delta := v }).wri (PH_DELTA.DELTA p) v

/-- A phase's heat estimate is set (05_phase_management.md R138): PH_HEAT shows its low 16 bits (log 48). -/
def Dev.setHeat (d : Dev) (p v : Nat) : Dev := (d.onP p fun x => { x with heat := v }).wr (PH_HEAT.HEAT p) v

/-- A phase leaves the active set at once: it is IDLE with no trim (05_phase_management.md R127, R132). -/
def Dev.phIdle (d : Dev) (p : Nat) : Dev :=
  let d := d.setDelta p 0
  let d := d.onP p fun x => { x with active := false, leave := none, share := none, on := 0, win := none }
  if d.ps p = Ps.active then d.wr (PH_STATE.STATE p) Ps.idle else d

/-- The rail enters OFF or FENCED (R107): its phases go MID, the reference is 0, every window closes, a pending mask and a
pending coefficient set take effect, and waiting RAIL_DISABLEs complete. -/
def Dev.railDown (d : Dev) (r st : Nat) : Dev :=
  let d := d.stages r
  let before := d.q5 r
  let d := d.cancelSpec r
  let d := d.setPg r false
  let now := d.now
  let d := if st = Rs.off then d.onR r fun x => { x with offAt := some now } else d
  let d := d.wr (RAIL_STATUS.STATE r) st
  let d := ((((d.wr (RAIL_VREF.VREF r) 0).wr (RAIL_STATUS.MODE r) 0).wr (RAIL_STATUS.RANGE r) 0).wr (RAIL_STATUS.CATCH r) 0).wr
    (RAIL_STATUS.SLEWING r) 0
  let d := ((d.wr (RAIL_STATUS.CLAMP r) 0).wr (RAIL_DUTY.DUTY r) 0).deliverQ5 r before
  let d := d.wr (PH_STATUS.REINT r) 0
  let d := d.wr (PH_STATUS.MASK_FILL r) 0
  let outs := (d.R r).enOut
  let d := d.onR r fun x =>
    { x with uv := none, pgOn := none, pgOff := none, catU := none, catO := none, cmpU := false, cmpO := false, both := none,
             ovTrip := false, ocW := none, rerange := none, samp := [], pipe := [], filled := [], move := 0, moveN := false, enOut := [],
             tEn := none, wideN := 0, wideDue := none, ssOut := false, sw := false, first := false, dwell := none, dApp := 0 }
  let d := d.forL (d.warp r) fun d p => d.phIdle p
  let d := (d.maskSwap r).coefDrain r ((d.R r).coefQ.length + 1)
  (d.warpShow r).completeAll outs St.success

/-- An immediate disable (R107 precedence 2). -/
def Dev.railStop (d : Dev) (r : Nat) : Dev := if d.rLive r then d.railDown r Rs.off else d

/-- The selvage fences a rail; from OFF only as a rail in a branch's domain, or on the tick of a disable, which a fence precedes (R107). -/
def Dev.fenceRail (d : Dev) (r : Nat) (dom : Option Nat) : Dev :=
  if d.rLive r ∨ (d.rs r = Rs.off ∧ (dom.isSome ∨ (d.R r).offAt = some d.now)) then (d.railDown r Rs.fenced).onR r fun x => { x with inDomain := dom } else d

/-- UNFENCE of a rail (R107; 09_faults.md R264). -/
def Dev.unfenceRail (d : Dev) (r : Nat) : Dev × Nat :=
  if d.rs r ≠ Rs.fenced then (d, St.unitNotFenced)
  else if (match (d.R r).inDomain with
      | none => false
      | some b => d.rd (BR_STATUS.STATE b) == Ec.latched || d.rd (BR_STATUS.STATE b) == Ec.fenced) then (d, St.domainFenced)
  else ((d.wr (RAIL_STATUS.STATE r) Rs.off).onR r fun x => { x with inDomain := none }, St.success)

end Sys2Proof.Machine
end

