-- ==== Sys2Proof/Machine/Checks.lean ====
section
/-! DEFINITION. The checks of CONFIGURE exit (10_modes_startup.md R283), each over every unit it covers. -/

namespace Sys2Proof.Machine

/-- Record `p` excludes units of a kind: 1 entry, 2 branch, 3 phase (03_branch_fuses.md R68, R71). -/
def Dev.polExcludes (d : Dev) (p kind : Nat) : Bool := d.rd (POL0.KIND p) != 0 && d.rd (POL0.KIND p) != kind

/-- A sequencer's table converts a selection again and again: with ONCE = 0, in TABLE mode by an entry within LEN, in SINGLE mode
by its one entry (07_conversion.md R201, R202). -/
def Dev.seqServes (d : Dev) (k pos : Nat) (alt : Bool) : Bool :=
  !(d.on (SEQ_CFG.ONCE k)) &&
  (match d.rd (SEQ_CFG.MODE k) with
    | 1 => d.rd (SEQ_SINGLE.POS k) == pos && d.on (SEQ_SINGLE.ALT k) == alt
    | 2 => (List.range (d.rd (SEQ_CFG.LEN k) + 1)).any fun e =>
        let w := d.rd (SEQ_ENTRY.ENTRY k e)
        w % 32 == pos && w.testBit 30 == alt
    | _ => false)

/-! ## Entry channels (02_power_entry.md R30, R34, R45, R49, R53; 03_branch_fuses.md R71) -/

/-- Entry channel `n` on its own is configured as its chapter demands. -/
def Dev.entCfgOk (d : Dev) (n : Nat) : Bool :=
  let role := d.rd (ENT_CFG.ROLE n)
  role != 3 && decide (d.rd (ENT_CFG.LIN_SHARE n) ≤ d.rd (ENT_CFG.N_PAR n)) &&
  !(d.on (ENT_CFG.INRUSH_MODE n) && d.rd (ENT_INRUSH.DVDT n) == 0) &&
  (role == 0 || (d.rd (ENT_SHUNT.RSHUNT n) != 0 && !(d.soaZero (d.rd (ENT_CFG.FET_TYPE n))) &&
    !(d.polExcludes (d.rd (ENT_CFG.POLICY n)) 1)))

/-- The members of group `g` as its register names them. -/
def Dev.egMembers (d : Dev) (g : Nat) : List Nat := (List.range 16).filter fun n => d.rdBit (EG_CFG.MEMBERS g) n

/-- Entry group `g` is configured as R49 demands; a disabled group (MEMBERS = 0) passes whatever GROUP_MIN holds (DESIGN CHOICE, log 47). -/
def Dev.egCfgOk (d : Dev) (g : Nat) : Bool :=
  let ms := d.egMembers g
  let like := fun n =>
    (d.rd (ENT_CFG.FET_TYPE n), d.rd (ENT_CFG.N_PAR n), d.rd (ENT_CFG.LIN_SHARE n), d.rd (ENT_CFG.INRUSH_MODE n))
  ms == [] ||
  (decide (ms.length ≤ 4) && ms.all (fun n => d.rd (ENT_CFG.ROLE n) != 2) && ms.all (fun n => like n == like (ms.headD 0)) &&
    decide (d.rd (EG_CFG.GROUP_MIN g) ≤ ms.length) &&
    (List.range 8).all fun h => h == g || ms.all fun n => !(d.rdBit (EG_CFG.MEMBERS h) n))

/-- Check 2 of R283. -/
def Dev.entryCheck (d : Dev) : Bool :=
  let bats := (List.range 16).filter fun n => d.rd (ENT_CFG.ROLE n) == 2
  let packs := bats.map fun n => d.rd (ENT_CFG.PACK n)
  (List.range 16).all (fun n => d.entCfgOk n) && (List.range 8).all (fun g => d.egCfgOk g) &&
  (List.range 4).all (fun p => decide (packs.count p ≤ 1)) &&
  (bats == [] || (List.range 16).all fun n => d.rd (ENT_CFG.ROLE n) != 1 || d.on (ENT_REV.REV_BLOCK n)) &&
  decide (d.rd HU_CFG.V_HOLDUP_ON < d.rd HU_CFG.V_BP_OK)

/-! ## Warps as the registers give them (01_architecture.md R12; 04_rail_loom.md R85) -/

/-- A 128-bit mask from four words. -/
def Dev.mask128 (d : Dev) (f : Nat → Fld) : Nat :=
  d.rd (f 0) + d.rd (f 1) * 2 ^ 32 + d.rd (f 2) * 2 ^ 64 + d.rd (f 3) * 2 ^ 96

/-- The neighbour die that NEIGH names, if it exists. -/
def Dev.neighDie (d : Dev) (r : Nat) : Option Nat :=
  let home := r / 16
  match d.rd (RAIL_WARPSEL.NEIGH r) with
  | 1 => if 1 ≤ home then some (home - 1) else none
  | 2 => if home ≤ 2 then some (home + 1) else none
  | _ => none

/-- The phases that the warp registers of rail `r` name, lowest first. -/
def Dev.warpCfg (d : Dev) (r : Nat) : List Nat :=
  let h := d.mask128 (WARP_HOME.HOME r)
  let n := d.mask128 (WARP_NEIGH.NEIGH_MASK r)
  let home := ((List.range 128).filter fun i => h.testBit i).map fun i => 128 * (r / 16) + i
  let far := match d.neighDie r with
    | none => []
    | some k => ((List.range 128).filter fun i => n.testBit i).map fun i => 128 * k + i
  if (d.neighDie r).getD 4 < r / 16 then far ++ home else home ++ far

/-! ## Branches (03_branch_fuses.md R64, R65, R71, R79) -/

/-- Branch `n` on its own is configured as its chapter demands. -/
def Dev.brCfgOk (d : Dev) (n : Nat) : Bool :=
  decide (d.rd (BR_CFG.LIN_SHARE n) ≤ d.rd (BR_CFG.N_PAR n)) &&
  (!(d.on (BR_CFG.USED n)) || (d.rd (BR_SHUNT.RSHUNT n) != 0 && !(d.soaZero (d.rd (BR_CFG.FET_TYPE n))) &&
    !(d.polExcludes (d.rd (BR_CFG.POLICY n)) 2)))

/-- The VALID entries of the map of branch `b`: action, rail and delay. -/
def Dev.mapCfg (d : Dev) (b : Nat) : List (Nat × Nat × Nat) :=
  ((List.range 16).filter fun e => d.on (BMAP.VALID b e)).map fun e =>
    (d.rd (BMAP.ACTION b e), d.rd (BMAP.RAIL b e), d.rd (BMAP.DELAY b e))

/-- The map of branch `b` is one R79 allows. -/
def Dev.mapOk (d : Dev) (b : Nat) : Bool :=
  let es := d.mapCfg b
  es.all fun x => x.1 != 3 && (x.1 == 1 || x.2.2 == 0) && decide ((es.filter fun y => y.2.1 == x.2.1).length ≤ 1)

/-- Phase `p` of rail `r` has its branch, and the branch's map acts on the rail (R79). -/
def Dev.fedOk (d : Dev) (r p : Nat) : Bool :=
  match d.phBranch p with
  | none => false
  | some b => d.on (BR_CFG.USED b) && (d.mapCfg b).any fun x => (x.1 == 0 || x.1 == 2) && x.2.1 == r

/-- Check 3 of R283. -/
def Dev.branchCheck (d : Dev) : Bool :=
  (List.range 64).all (fun n => d.brCfgOk n && d.mapOk n) &&
  (List.range 64).all fun r => (d.warpCfg r).all fun p => d.fedOk r p

/-! ## Rails (04_rail_loom.md R86; 05_phase_management.md R124; 06_load_intent.md R161) -/

/-- Rail `r`, whose warp is not empty, is configured as R86 and R124 demand. -/
def Dev.loomOk (d : Dev) (r : Nat) : Bool :=
  let per := d.rd (RAIL_PERIOD.PERIOD r)
  let vmin := d.rd (RAIL_BAND.VMIN r)
  let vmax := d.rd (RAIL_BAND.VMAX r)
  let tgt := d.rd (RAIL_TARGET.TARGET r)
  decide (640 ≤ per ∧ per ≤ 16000) && decide (d.rd (RAIL_DCLAMP.D_MIN r) ≤ d.rd (RAIL_DCLAMP.D_MAX r)) &&
  decide (d.rd (RAIL_DCLAMP.D_MAX r) * per + 65536 * d.rd (RAIL_PULSE.T_OFF_MIN r) ≤ 65536 * per) &&
  decide (vmin ≤ vmax ∧ vmax ≤ 4000 ∧ vmax < d.rd (RAIL_PROT.OV_TRIP r) ∧ vmin ≤ tgt ∧ tgt ≤ vmax) &&
  d.rd (RAIL_SLEW.SS_SLEW r) != 0 && !(d.on (RAIL_CATCH.CATCH_EN r) && d.rd (RAIL_CATCH_MAX.CATCH_MAX r) == 0) &&
  decide (d.minPhases r ≤ (d.warpCfg r).length) && decide (d.rd (PH_CFG.ROT_OFFSET r) < per) &&
  !(d.polExcludes (d.rd (PH_CFG.PH_POLICY r)) 3) && (d.warpCfg r).all fun p => d.rd (PH_GAIN.IGAIN p) != 0

/-- The shuttle of rail `r` is configured as R161 demands. -/
def Dev.specOk (d : Dev) (r : Nat) : Bool :=
  let pmax := min 60 (d.rd (SPEC_PB.PREBIAS_MAX r))
  d.rd (RAIL_CFG.STRATEGY r) % 2 == 0 ||
  (d.rd (SPEC_PB.RETRACT_SLEW r) != 0 && d.rd (SPEC_PB.PB_SLEW r) != 0 && d.rd (SPEC_WIN.W_LATE r) != 0 &&
    d.rd (SPEC_CONF.CONFIRM_FRACTION r) != 0 &&
    decide (d.rd (SPEC_CONF.PC_FRACTION r) + 64 ≤ d.rd (SPEC_CONF.CONFIRM_FRACTION r)) &&
    decide (pmax < d.rd (RAIL_PG.PG_WIN r)) &&
    !(d.on (RAIL_CATCH.CATCH_EN r) && decide (max 10 (d.rd (RAIL_CATCH.CATCH_HI r)) ≤ pmax)))

/-- Check 4 of R283, its first half. -/
def Dev.railCheck (d : Dev) : Bool :=
  (List.range 64).all fun r => (d.warpCfg r == [] || d.loomOk r) && d.specOk r

/-- The warp registers of rail `r` are ones R86 and R12 allow. -/
def Dev.warpOk (d : Dev) (r : Nat) : Bool :=
  let sel := d.rd (RAIL_WARPSEL.NEIGH r)
  sel != 3 && !(sel != 0 && (d.neighDie r).isNone) && !(sel == 0 && d.mask128 (WARP_NEIGH.NEIGH_MASK r) != 0) &&
  decide ((d.warpCfg r).length ≤ 64) &&
  (List.range 64).all fun q => q == r || (d.warpCfg q).all fun p => !((d.warpCfg r).contains p)

/-- Check 4 of R283, its second half. -/
def Dev.warpCheck (d : Dev) : Bool := (List.range 64).all fun r => d.warpOk r

/-! ## The other checks -/

/-- Check 5 of R283 (06_load_intent.md R158). -/
def Dev.intentCheck (d : Dev) : Bool :=
  let bound := (List.range 32).flatMap fun n => (d.boundRails n).map fun x => x.2
  (List.range 32).all (fun n =>
    (!(d.on (IP_CFG.EN n)) || d.boundRails n != []) && decide (8 ≤ d.rd (IP_CFG.CREDIT_WIN n)) &&
    (List.range 4).all fun k => !((d.rd (IP_BIND.SLOT n) / 256 ^ k).testBit 6)) &&
  (List.range 64).all fun r => decide (bound.count r ≤ 1)

/-- An entry of a sequence table is one R201 allows (07_conversion.md). -/
def seqEntryOk (w : Nat) : Bool :=
  !(w.testBit 31) && bits w 29 28 == 0 && bits w 7 5 == 0 && (!(w.testBit 30) || w % 32 == 24 || w % 32 == 25)

/-- TRIG_SRC of SCV `k` is a listed code and not its own pass (07_conversion.md R200, R202). -/
def trigSrcOk (k src : Nat) : Bool :=
  decide (src ≤ 2) || (decide (8 ≤ src ∧ src < 16) && src != 8 + k) || decide (0x20 ≤ src ∧ src < 0x40)

/-- Sequencer `k` is configured as R202 demands. -/
def Dev.seqCfgOk (d : Dev) (k : Nat) : Bool :=
  let mode := d.rd (SEQ_CFG.MODE k)
  let src := d.rd (SEQ_CFG.TRIG_SRC k)
  mode != 3 && (List.range (d.rd (SEQ_CFG.LEN k) + 1)).all (fun e => seqEntryOk (d.rd (SEQ_ENTRY.ENTRY k e))) &&
  !(mode == 1 && d.on (SEQ_SINGLE.ALT k) && d.rd (SEQ_SINGLE.POS k) != 24 && d.rd (SEQ_SINGLE.POS k) != 25) &&
  trigSrcOk k src && d.on (SEQ_CFG.ONCE k) == (src != 0) && (mode == 0 || d.heldAs 2 k 1)

/-- Check 6 of R283 (07_conversion.md R202). -/
def Dev.convCheck (d : Dev) : Bool :=
  (List.range 8).all (fun k => d.seqCfgOk k) &&
  (List.range 16).all (fun n => !(d.on (ENT_CFG.TEMP_SRC n)) || d.seqServes (n / 2) (24 + n % 2) true) &&
  (List.range 64).all fun n => !(d.on (BR_CFG.TEMP_SRC n)) || d.seqServes (n / 8) (24 + n % 8) false

/-- OCV table `p` is one R224 allows (08_battery_estimation.md). -/
def Dev.ocvOk (d : Dev) (p : Nat) : Bool :=
  let half := fun o => (d.word (0x206000 + 0x400 * p + o / 4 * 4)).toNat / 65536 ^ (o / 2 % 2) % 65536
  (List.range 3).all (fun r => decide (sext 16 (half (0x200 + 2 * r)) < sext 16 (half (0x202 + 2 * r)))) &&
  (List.range 4).all fun r => (List.range 63).all fun m => decide (half (0x80 * r + 2 * m) < half (0x80 * r + 2 * m + 2))

/-- Sage of pack `p` is configured as R223 demands (08_battery_estimation.md). -/
def Dev.sageCfgOk (d : Dev) (p : Nat) : Bool :=
  let named := (List.range 16).any fun n => d.rd (ENT_CFG.ROLE n) == 2 && d.rd (ENT_CFG.PACK n) == p
  let en := d.on (SG_CFG.EN p)
  named == en && decide (d.rd (SG_TPOL.TPOL1 p) * 10 < d.rd (SG_TPOL.TPOL2 p) * 1000) &&
  (!(d.on (SG_CFG.NTC p)) || d.seqServes (6 + p / 2) (24 + p % 2) true) &&
  (!en || (d.rd (SG_CAP.CAP_NOM p) != 0 && d.rd (SG_SHUNT.RSHUNT p) != 0 && d.rd (SG_TPOL.TPOL1 p) != 0 &&
    d.rd (SG_TPOL.TPOL2 p) != 0 && d.rd (SG_REST_T.REST_T p) != 0 && d.ocvOk p))

/-- Check 7 of R283. -/
def Dev.sageCheck (d : Dev) : Bool := (List.range 4).all fun p => d.sageCfgOk p

/-- Check 8 of R283 (09_faults.md R247, R265). -/
def Dev.faultCheck (d : Dev) : Bool :=
  let ceil := d.rd FLT_CFG.ESC_CEIL
  decide (1 ≤ ceil ∧ ceil ≤ 4) &&
  (List.range 256).all fun k =>
    let b := d.levelByte k
    !(b.testBit 7) ||
    (match kindLevel0 k with
      | none => false
      | some l => decide (b % 8 ≤ 4) && !(decide (2 ≤ l) && decide (b % 8 < l)))

/-- Entry `k` of the power sequence table: OP, UNIT, reserved bits and TIME (10_modes_startup.md R284). -/
def Dev.pseq (d : Dev) (k : Nat) : Nat × Nat × Nat × Nat :=
  let lo := (d.word (0xB000 + 8 * k)).toNat
  let hi := (d.word (0xB004 + 8 * k)).toNat
  (bits hi 31 28, bits hi 27 16, bits hi 15 0, lo)

/-- A power sequence entry is one R284 allows; END and DELAY name no unit. -/
def pseqOk (op unit rest time : Nat) : Bool :=
  rest == 0 &&
  (match op with
    | 0x0 => true
    | 0x1 => decide (unit < 16)
    | 0x2 => decide (unit < 64)
    | 0x3 => decide (unit < 64)
    | 0x4 => true
    | 0x5 => decide (unit < 16) && time != 0
    | 0x6 => decide (unit < 64) && time != 0
    | 0x7 => decide (unit < 64) && time != 0
    | 0x8 => decide (unit < 16)
    | 0x9 => decide (unit < 64)
    | 0xA => decide (unit < 64)
    | 0xB => decide (unit < 64) && time != 0
    | _ => false)

/-- Check 9 of R283. -/
def Dev.seqCheck (d : Dev) : Bool :=
  (List.range 128).all fun k => pseqOk (d.pseq k).1 (d.pseq k).2.1 (d.pseq k).2.2.1 (d.pseq k).2.2.2

/-- The status of the first check that fails, SUCCESS if none does (R283). -/
def Dev.exitStatus (d : Dev) : Nat :=
  if d.rd BOOT_STATUS.STATE ≠ 2 then St.notAuthenticated
  else if ¬ d.entryCheck then St.entryCfgInvalid
  else if ¬ d.branchCheck then St.branchCfgInvalid
  else if ¬ d.railCheck then St.railCfgInvalid
  else if ¬ d.warpCheck then St.warpInvalid
  else if ¬ d.intentCheck then St.intentCfgInvalid
  else if ¬ d.convCheck then St.convCfgInvalid
  else if ¬ d.sageCheck then St.sageCfgInvalid
  else if ¬ d.faultCheck then St.faultCfgInvalid
  else if ¬ d.seqCheck then St.seqInvalid
  else St.success

/-- The safety configuration of R267 (09_faults.md). -/
def Dev.safetyHolds (d : Dev) : Bool :=
  ((List.range 256).all fun k =>
    !((d.levelByte k).testBit 7) || decide ((kindLevel0 k).getD 0 ≤ d.levelByte k % 8)) &&
  (List.range 64).all (fun r => d.warpCfg r == [] || d.on (RAIL_CATCH.CATCH_EN r)) &&
  (List.range 21).all (fun c => d.on (CORE_CFG.WDT_EN c)) &&
  d.on MEM_CFG.SCRUB_EN && decide (d.rd MEM_SCRUB.SCRUB_PERIOD ≤ 6400000)

end Sys2Proof.Machine
end

