-- ==== Sys2Proof/Machine/Rail.lean ====
section
/-! DEFINITION. The rail loom: RVC samples, the compensator, target changes, start-up, the edge scheduler, catch, rail protection
and power-good (04_rail_loom.md R84-R121), and the shuttle's pre-bias and pre-charge at a sample (06_load_intent.md R163, R165). -/

namespace Sys2Proof.Machine

/-! ## The shuttle at a sample (06_load_intent.md R163, R165, R168, R170) -/

/-- Move a value towards a target by at most `step`. -/
def toward (v tgt step : Int) : Int := if v + step < tgt then v + step else if tgt < v - step then v - step else tgt

/-- The speculation is over when its pre-bias is 0 and, for a retracted one, its woken phases have left, with no wake
still to come (R167, R170). -/
def Dev.specTidy (d : Dev) (r : Nat) : Dev :=
  match (d.R r).spec with
  | none => d
  | some s =>
    if s.rm.isSome ∧ pbHeld s.pb = 0 then
      if d.specPhase r = 2 then d.wr (PEND_STATE.PHASE r) 0
      else if d.specPhase r = 3 ∧ s.woken = [] ∧ ¬ (s.shedAt.isSome ∧ ¬ s.woke ∧ d.on (SPEC_CONF.WAKE_EN r) ∧ 0 < s.di) then
        ((d.specEnds r).onSpec r fun s => { s with shedAt := none }).wr (PEND_STATE.PHASE r) 0
      else d
    else d

/-- The pre-charge is cut: u_int is 0 from the next sample (R165). -/
def Dev.pcCut (d : Dev) (r : Nat) : Dev := (d.onSpec r fun s => { s with pcCut := true }).evt (SPEC_EVT.EVT r) 4

/-- The removal slew in 0.01 code per sample (R163). -/
def Dev.rmSlew (d : Dev) (r : Nat) : Int := 8 * (d.rd (SPEC_PB.RETRACT_SLEW r) : Int)

/-- The pre-bias of a speculation after one more sample (R163, R169): it rises from the first sample at or after t_acc, and is removed from
the first after the tick of its removal. -/
def Dev.pbNext (d : Dev) (r : Nat) (s : SpecSt) : Int :=
  if s.dead then 0
  else match s.rm with
    | some t => if t < d.now then toward s.pb 0 (d.rmSlew r) else s.pb
    | none => if s.tAcc ≤ d.now ∧ ¬ s.shadow then toward s.pb (100 * s.pbTgt) (32 * (d.rd (SPEC_PB.PB_SLEW r) : Int)) else s.pb

/-- The shuttle's values show (R160). -/
def Dev.shuttleShow (d : Dev) (r : Nat) : Dev := (d.wri (PEND_PB.PB r) (d.pbOf r)).wri (PEND_UINT.UINT r) (d.uOf r)

/-- One RVC sample of the shuttle: the pre-bias rises or is removed, a cut pre-charge ends, and both show (R163, R165, R169). -/
def Dev.shuttleStep (d : Dev) (r : Nat) : Dev :=
  match (d.R r).spec with
  | none => d
  | some s =>
    let pb := d.pbNext r s
    let rest := toward (d.R r).pbRm 0 (d.rmSlew r)
    let d := (d.onSpec r fun s => { s with pb := pb, u := if s.pcCut ∨ s.dead then 0 else s.u, dead := false }).onR r fun x => { x with pbRm := rest }
    (d.shuttleShow r).specTidy r

/-- After a sample, the pre-charge is cut if the voltage is at or above ref_ll + PREBIAS_MAX (R165). -/
def Dev.shuttleCut (d : Dev) (r : Nat) : Dev :=
  match (d.R r).spec with
  | none => d
  | some s =>
    if s.pcOn ∧ ¬ s.pcCut ∧ d.now < s.tStep ∧ d.refLl r + mv (min 60 (d.rd (SPEC_PB.PREBIAS_MAX r))) ≤ (d.R r).vAbs then d.pcCut r else d

/-- The duty at start-up: VREF / VIN in 2^-32, toward zero and clamped; 0 for a VIN code of 0 (R111). -/
def Dev.startDuty (d : Dev) (r : Nat) : Int :=
  let vin := match (d.warp r).head? with
    | none => 0
    | some p => ((d.phBranch p).map fun b => (d.B b).vin).getD 0
  if vin = 0 then 0
  else clip ((d.rd (RAIL_DCLAMP.D_MIN r) : Int) * 65536) ((d.rd (RAIL_DCLAMP.D_MAX r) : Int) * 65536)
    ((d.rd (RAIL_VREF.VREF r) * 2 ^ 32 / (vin * 18750) : Nat) : Int)

/-! ## The reference (R110, R111, R114) -/

/-- VREF moves one step towards a target in 0.25 uV; a slew of 0 is a step to the target (R110). -/
def Dev.slewTo (d : Dev) (r tgt slew : Nat) : Dev :=
  let v : Int := d.rd (RAIL_VREF.VREF r)
  let n := if slew = 0 then (tgt : Int) else toward v tgt (5 * (slew : Int))
  (d.wri (RAIL_VREF.VREF r) n).wr (RAIL_STATUS.SLEWING r) (b2n (decide (n ≠ (tgt : Int))))

/-- The reference at a fresh sample (R110, R111, R114). `meas` is a wide-range measurement in 2^-5 uV; the first is rounded half to even to
VREF's 0.25 uV, for which R111 states no rounding (DESIGN CHOICE, log 22). -/
def Dev.refStep (d : Dev) (r : Nat) (meas : Int) : Dev :=
  let x := d.R r
  let ss := d.rd (RAIL_SLEW.SS_SLEW r)
  if d.rs r = Rs.start then
    if ¬ x.first then
      let v := min (divEven meas 8) (2000 * (x.ssTgt : Int))
      let d := (d.wri (RAIL_VREF.VREF r) v).wr (RAIL_STATUS.SLEWING r) (b2n (decide (v ≠ 2000 * (x.ssTgt : Int))))
      let y := d.startDuty r
      d.onR r fun x => { x with first := true, y := y, f1 := y, f2 := y, e1 := 0, e2 := 0, clamp := .none }
    else d.slewTo r (2000 * x.ssTgt) ss
  else if d.rs r = Rs.run then d.slewTo r (2000 * d.rd (RAIL_TARGET.TARGET r)) x.slew
  else d.slewTo r 0 ss

/-- x and the measured voltage of a fresh code, after the reference has moved (R111; 07_conversion.md R187). -/
def Dev.takeCode (d : Dev) (r : Nat) (code : BitVec 14) : Dev :=
  if d.on (RAIL_STATUS.MODE r) then
    let x := sext 14 code.toNat
    let v := 8 * (d.rd (RAIL_VREF.VREF r) : Int) + 500 * x
    d.onR r fun s => { s with x := x, vAbs := v }
  else
    let m : Int := 15625 * ((code.toNat % 4096 : Nat) : Int)
    let x := clip (-32767) 32767 (divEven (m - 8 * (d.rd (RAIL_VREF.VREF r) : Int)) 500)
    d.onR r fun s => { s with x := x, vAbs := m }

/-- A saturated code (R116). -/
def Dev.rvcSat (d : Dev) (r : Nat) (code : BitVec 14) : Bool :=
  if d.on (RAIL_STATUS.MODE r) then sext 14 code.toNat == -8192 || sext 14 code.toNat == 8191
  else code.toNat % 4096 == 0 || code.toNat % 4096 == 4095

/-- RANGE follows the sample; a saturated code is noted at most once per 8,000 ticks (R116). -/
def Dev.rangeNote (d : Dev) (r : Nat) (sat : Bool) : Dev :=
  let d := d.wr (RAIL_STATUS.RANGE r) (b2n sat)
  if ¬ sat then d
  else
    let d := d.evt (RAIL_EVT.EVT r) 7
    let due := match (d.R r).rangeAt with | none => true | some t => decide (t + 8000 ≤ d.now)
    if due then
      let now := d.now
      (d.onR r fun x => { x with rangeAt := some now }).raise 0x39 r (0x40 + r) 6
    else d

/-- The UV and power-good windows at a fresh sample in RUN (R116, R118). -/
def Dev.railWindows (d : Dev) (r : Nat) (low : Bool) : Dev :=
  if d.rs r ≠ Rs.run then d
  else
    let x := d.R r
    let ref := d.refLl r
    let now := d.now
    let isIn := decide (ref - mv (d.rd (RAIL_PG.PG_WIN r)) ≤ x.vAbs ∧ x.vAbs ≤ ref + mv (d.rd (RAIL_PG.PG_WIN r)))
    let uv := winUpd now x.uv (d.rd (RAIL_UV_TIME.UV_TIME r)) (low || decide (x.vAbs < ref - mv (d.rd (RAIL_PROT.UV_MARGIN r))))
    let pg := d.on (RAIL_STATUS.PG r)
    let up := winUpd now x.pgOn (d.rd (RAIL_PG_DELAY.PG_DELAY r)) (isIn && !pg)
    let dn := winUpd now x.pgOff (d.rd (RAIL_PG.PG_FILT r)) (!isIn && pg)
    d.onR r fun x => { x with uv := uv, pgOn := up, pgOff := dn }

/-- Start-up at a fresh sample: the phases begin to switch, and settled samples are counted (R111, R112). -/
def Dev.startStep (d : Dev) (r : Nat) : Dev :=
  if d.rs r ≠ Rs.start then d
  else
    let x := d.R r
    let vref : Int := 8 * (d.rd (RAIL_VREF.VREF r) : Int)
    let tgt : Int := 16000 * (x.ssTgt : Int)
    let ok := decide (vref = tgt ∧ tgt - mv 32 ≤ x.vAbs ∧ x.vAbs ≤ tgt + mv 32)
    -- the switch falls due at the end of the 16th sample
    let due := if ok ∧ x.wideN = 15 then some (d.now + 4) else none
    d.onR r fun x => { x with sw := x.sw || decide (x.vAbs ≤ vref), wideN := if ok then x.wideN + 1 else 0, wideDue := x.wideDue <|> due }

/-- Power in 0.1 W, formed on the coincident instants (R120; log 22). -/
def Dev.powerStep (d : Dev) (r : Nat) : Dev :=
  if d.now % 20 ≠ 0 then d
  else
    let x := d.R r
    let w := (clip 0 65535 (divEven (x.vAbs * x.iSum) 51200000)).toNat
    (d.wr (RAIL_PMEAS.PMEAS r) w).deliver (railTag r 2) w 0 false

/-- A sample, or an empty slot, enters the pipeline: its compensator stage follows (R92, R99, R101). -/
def Dev.feed (d : Dev) (r : Nat) : Dev :=
  let now := d.now
  d.onR r fun x => { x with samp := x.samp ++ [(now, x.x)] }

/-- A code of rail `r` sampled now (R92, R99-R101, R110-R116): quantities 0, 3 and 4 are updated at every sample (R120). The
sense voltage in VMEAS and quantity 0, and VREF in quantity 4, are rounded half to even to 31.25 uV, for which R120 states no rounding
(DESIGN CHOICE, log 22). -/
def Dev.rvcFresh (d : Dev) (r : Nat) (c : BitVec 14) : Dev :=
  let wide := ¬ d.on (RAIL_STATUS.MODE r)
  let sat := d.rvcSat r c
  let low := sat && !wide && decide (sext 14 c.toNat < 0)
  let d := ((d.refStep r (15625 * ((c.toNat % 4096 : Nat) : Int))).takeCode r c).rangeNote r sat
  let cal := d.calFlag (512 + r)
  let v := (clip 0 65535 (divEven (d.R r).vAbs 1000)).toNat
  let d := d.wr (RAIL_VMEAS.VMEAS r) v
  let d := d.deliver (0x200 + r) (trunc 16 (clip (-32767) 32767 (d.R r).x)) 0 cal
  let d := ((d.deliver (railTag r 0) v).deliver (railTag r 3) (d.rd (RAIL_DUTY.DUTY r))).deliver (railTag r 4)
    (divEven (d.rd (RAIL_VREF.VREF r)) 125).toNat
  let d := d.powerStep r
  if d.rs r = Rs.stopping ∧ d.rd (RAIL_VREF.VREF r) = 0 then d.railDown r Rs.off
  else ((((d.startStep r).railWindows r low).shuttleStep r).feed r).shuttleCut r

/-- The corrected code of an instant of RVC `r`: 14 bits, signed, in error mode, 12 bits in wide-range mode (07_conversion.md R187, R188). -/
def Dev.rvcCode (d : Dev) (r : Nat) (c : BitVec 14) : BitVec 14 :=
  let s := sliceAt (512 + r) d.now
  if d.on (RAIL_STATUS.MODE r) then d.code (512 + r) s true 14 c
  else (d.code (512 + r) s false 12 (BitVec.ofNat 12 c.toNat)).setWidth 14

/-- An RVC instant of rail `r` (R92, R99-R101, R110-R116; 07_conversion.md R183): with a code, or an empty slot, on which R92 runs again on
the previous x. In an empty slot the pre-bias takes its step and VREF none (DESIGN CHOICE, log 48). -/
def devRvcSample (r : Nat) (code : Option (BitVec 14)) (d : Dev) : Dev :=
  if ¬ d.rLive r ∨ ¬ d.onGrid (512 + r) then d
  else
    let d := (d.takeInst (512 + r)).stages r
    match (if d.sampled (512 + r) then code else none) with
    | none => (d.shuttleStep r).feed r
    | some c => d.rvcFresh r (d.rvcCode r c)

/-- RVC_SAMPLE -/
def execRvcSample (r : Fin 64) (code : Option (BitVec 14)) (s : State) : Host.Outcome State Fault Refusal :=
  .next { s with dev := devRvcSample r.val code s.dev }

/-! ## The edge scheduler (R87-R90) -/

/-- The edges of an active phase are placed again at the first step of the present clock (R90). -/
def Dev.placeEdges (d : Dev) (r p : Nat) : Dev :=
  let on := d.onTime r p
  let x := { d.pulseNow r p with on := on }
  let s := d.step0
  let c := x.win.getD 0
  let m := onIn x (d.perSteps r) c
  let lead := c - m / 2
  let trail := lead + m
  let onMin := 8 * d.rd (RAIL_PULSE.T_ON_MIN r)
  let y : PhaseSt :=
    if x.lead < x.trail ∧ x.lead < s then
      -- the leading edge has been made; the trailing edge moves unless it has been made too
      if x.trail < s then x else { x with trail := if s ≤ trail then trail else max s (x.lead + onMin) }
    else
      -- LOW and not yet pulsed in this window
      let l := max (max lead s) (if x.pLead < x.pTrail then x.pTrail + 8 * d.rd (RAIL_PULSE.T_OFF_MIN r) else 0)
      if m = 0 then { x with lead := l, trail := l } else { x with lead := l, trail := if l < trail then trail else l + onMin }
  d.onP p fun _ => y

/-- The period window of a leaving phase has ended: it is MID and IDLE (05_phase_management.md R132). -/
def Dev.leaveDone (d : Dev) (p : Nat) : Dev :=
  match (d.P p).leave with
  | none => d
  | some t => if t ≤ d.now then d.phIdle p else d

/-- A duty command reaches the edge scheduler at its t_a: every active phase's edges are placed again (R90, R99). Commands whose
time comes while a catch or a re-ranging slot is in progress are not applied (R105, R112). -/
def devDutyApply (r : Nat) (d : Dev) : Dev :=
  let d := d.stages r
  let due := (d.R r).pipe.filter fun x => x.1 ≤ d.now
  let now := d.now
  let d := d.onR r fun x => { x with pipe := x.pipe.filter fun y => now < y.1 }
  match due.getLast? with
  | none => d
  | some (ta, duty) =>
    if d.dutyHeld r ta ∨ ta < (d.R r).relAt ∨ ¬ d.rLive r then d
    else
      let d := d.onR r fun x => { x with dApp := duty }
      let d := d.wr (RAIL_DUTY.DUTY r) (clip 0 65535 (divEven duty 65536)).toNat
      let d := d.forL (d.warp r) fun d p => d.leaveDone p
      d.forL ((d.warp r).filter fun p => d.ps p = Ps.active) fun d p => d.placeEdges r p

/-- DUTY_APPLY -/
def execDutyApply (r : Fin 64) (s : State) : Host.Outcome State Fault Refusal :=
  .next { s with dev := devDutyApply r.val s.dev }

/-! ## Catch (R102-R106) -/

/-- Show RAIL_STATUS.CATCH: of two catches in progress the overshoot action applies, and shows (R91, R106; log 43). -/
def Dev.catchShow (d : Dev) (r : Nat) : Dev :=
  d.wr (RAIL_STATUS.CATCH r) (if (d.R r).catO.isSome then 2 else b2n (d.R r).catU.isSome)

/-- The catch comparators of rail `r` are armed (R102). -/
def Dev.catchArmed (d : Dev) (r : Nat) : Bool :=
  d.on (RAIL_CATCH.CATCH_EN r) && (d.rs r == Rs.run || d.rs r == Rs.stopping)

/-- Both comparators have stayed asserted for 16 control clocks (R106). -/
def devSense (r : Nat) (d : Dev) : Dev :=
  if closed d.now (d.R r).both 16 then
    ((d.onR r fun x => { x with both := none }).evt (RAIL_EVT.EVT r) 6).raise 0x34 r (0x40 + r) 0
  else d

/-- A comparator asserts: a catch begins, unless it is still asserted (R102, R104). -/
def Dev.catchOn (d : Dev) (r : Nat) (ovs : Bool) : Dev :=
  let x := d.R r
  if ¬ d.catchArmed r ∨ (if ovs then x.cmpO else x.cmpU) then d
  else
    let now := d.now
    let d := d.stages r
    let before := d.q5 r
    let d := d.onR r fun x =>
      let x := if ovs then { x with cmpO := true, catO := some now } else { x with cmpU := true, catU := some now }
      { x with both := if x.cmpO ∧ x.cmpU then some now else none }
    (((d.evt (RAIL_EVT.EVT r) (if ovs then 1 else 0)).catchShow r).deliverQ5 r before).raise 0x37 r (0x40 + r) 0

/-- The undershoot comparator sees `uv` microvolts: it asserts below ref_ll - CATCH_LO. -/
def devCatchUndershoot (r uv : Nat) (d : Dev) : Dev := if 32 * (uv : Int) < d.catchLow r then d.catchOn r false else d

/-- CATCH_UNDERSHOOT -/
def execCatchUndershoot (v : RailVolts) (s : State) : Host.Outcome State Fault Refusal :=
  .next { s with dev := devCatchUndershoot v.rail.val v.uv.toNat s.dev }

/-- The overshoot comparator sees `uv` microvolts: it asserts above ref_ll + CATCH_HI. -/
def devCatchOvershoot (r uv : Nat) (d : Dev) : Dev := if d.catchHigh r < 32 * (uv : Int) then d.catchOn r true else d

/-- CATCH_OVERSHOOT -/
def execCatchOvershoot (v : RailVolts) (s : State) : Host.Outcome State Fault Refusal :=
  .next { s with dev := devCatchOvershoot v.rail.val v.uv.toNat s.dev }

/-- A catch ends on tick `t`: from then the edge scheduler applies commands again (R104, R105). -/
def Dev.catchEnd (d : Dev) (r t : Nat) (ovs : Bool) : Dev :=
  let d := d.stages r
  let before := d.q5 r
  let d := d.onR r fun x =>
    let x := if ovs then { x with catO := none } else { x with catU := none }
    { x with relAt := max x.relAt t }
  (d.catchShow r).deliverQ5 r before

/-- A catch ends by the close of its window: CORRECTED (R104). -/
def Dev.catchExpire (d : Dev) (r : Nat) (ovs : Bool) : Dev :=
  let t := ((if ovs then (d.R r).catO else (d.R r).catU).getD d.now) + d.rd (RAIL_CATCH_MAX.CATCH_MAX r)
  ((d.catchEnd r t ovs).evt (RAIL_EVT.EVT r) 2).raise 0x38 r (0x40 + r) 0

/-- The catches of rail `r` whose window has closed expire (R104). -/
def Dev.catchDue (d : Dev) (r : Nat) : Dev :=
  let n := d.rd (RAIL_CATCH_MAX.CATCH_MAX r)
  let d := if closed d.now (d.R r).catU n then d.catchExpire r false else d
  if closed d.now (d.R r).catO n then d.catchExpire r true else d

/-- At `uv` microvolts a comparator releases: the undershoot one above ref_ll - CATCH_LO + CATCH_HYST, the overshoot one below
ref_ll + CATCH_HI - CATCH_HYST (R102). -/
def Dev.catchFree (d : Dev) (r : Nat) (ovs : Bool) (uv : Nat) : Bool :=
  let h := mv (d.rd (RAIL_CATCH.CATCH_HYST r))
  if ovs then decide (32 * (uv : Int) < d.catchHigh r - h) else decide (d.catchLow r + h < 32 * (uv : Int))

/-- The output of a catch comparator falls: its catch ends. -/
def Dev.cmpLow (d : Dev) (r : Nat) (ovs : Bool) : Dev :=
  let d := (devSense r d).catchDue r
  let isOpen := (if ovs then (d.R r).catO else (d.R r).catU).isSome
  let d := d.onR r fun x => if ovs then { x with cmpO := false, both := none } else { x with cmpU := false, both := none }
  if isOpen then d.catchEnd r d.now ovs else d

/-- A comparator sees `uv` microvolts and releases: its catch ends; a release at or after the closing tick counts as an expiry (R104), and
one on the tick that completes R106's 16 clocks comes after it (00_scope.md R8). -/
def devCatchRelease (r : Nat) (ovs : Bool) (uv : Nat) (d : Dev) : Dev := if d.catchFree r ovs uv then d.cmpLow r ovs else d

/-- CATCH_RELEASE -/
def execCatchRelease (v : RailVolts) (ovs : Bool) (s : State) : Host.Outcome State Fault Refusal :=
  .next { s with dev := devCatchRelease v.rail.val ovs v.uv.toNat s.dev }

/-- The window of a catch closes before its release (R104). -/
def devCatchExpired (r : Nat) (d : Dev) : Dev := d.catchDue r

/-- CATCH_EXPIRED -/
def execCatchExpired (r : Fin 64) (s : State) : Host.Outcome State Fault Refusal :=
  .next { s with dev := devCatchExpired r.val s.dev }

/-- SENSE -/
def execSense (r : Fin 64) (s : State) : Host.Outcome State Fault Refusal :=
  .next { s with dev := devSense r.val s.dev }

/-! ## Protection, start-up and power-good (R112-R118) -/

/-- The output of the over-voltage comparator is high (R115). -/
def Dev.ovHigh (d : Dev) (r : Nat) : Dev :=
  if d.rLive r then ((d.onR r fun x => { x with ovTrip := true }).evt (RAIL_EVT.EVT r) 3).raise 0x30 r (0x40 + r) 0 else d

/-- The over-voltage comparator sees `uv` microvolts: it trips above OV_TRIP, in 0.5 mV (R115). -/
def devRailOv (r uv : Nat) (d : Dev) : Dev := if 500 * d.rd (RAIL_PROT.OV_TRIP r) < uv then d.ovHigh r else d

/-- RAIL_OV -/
def execRailOv (v : RailVolts) (s : State) : Host.Outcome State Fault Refusal :=
  .next { s with dev := devRailOv v.rail.val v.uv.toNat s.dev }

/-- The UV window has closed (R116). -/
def devRailUv (r : Nat) (d : Dev) : Dev :=
  if d.rs r = Rs.run ∧ closed d.now (d.R r).uv (d.rd (RAIL_UV_TIME.UV_TIME r)) then
    ((d.onR r fun x => { x with uv := none }).evt (RAIL_EVT.EVT r) 4).raise 0x31 r (0x40 + r) 6
  else d

/-- RAIL_UV -/
def execRailUv (r : Fin 64) (s : State) : Host.Outcome State Fault Refusal :=
  .next { s with dev := devRailUv r.val s.dev }

/-- The 16th settled wide-range sample has ended: the RVC re-ranges over one slot of 32 control clocks from there (R112). -/
def devErrorModeSwitch (r : Nat) (d : Dev) : Dev :=
  match (d.R r).wideDue with
  | none => d
  | some t =>
    if d.rs r = Rs.start ∧ t ≤ d.now ∧ (d.R r).rerange.isNone then (d.stages r).onR r fun x => { x with rerange := some (t + 32) } else d

/-- ERROR_MODE_SWITCH -/
def execErrorModeSwitch (r : Fin 64) (s : State) : Host.Outcome State Fault Refusal :=
  .next { s with dev := devErrorModeSwitch r.val s.dev }

/-- The start-up window has closed (R113). -/
def Dev.startOver (d : Dev) (r : Nat) : Bool := d.rs r == Rs.start && closed d.now (d.R r).tEn (d.rd (RAIL_SS_TMAX.SS_TMAX r))

/-- The re-ranging slot ends: the rail enters RUN, unless its start-up window has closed (R112, R113; 05_phase_management.md R137). -/
def devRerangeDone (r : Nat) (d : Dev) : Dev :=
  match (d.R r).rerange with
  | none => d
  | some t =>
    if d.rs r ≠ Rs.start ∨ d.now < t ∨ d.startOver r then d
    else
      let d := ((d.stages r).wr (RAIL_STATUS.STATE r) Rs.run).wr (RAIL_STATUS.MODE r) 1
      let d := d.wr (RAIL_STATUS.SLEWING r) (b2n (decide (d.rd (RAIL_VREF.VREF r) ≠ 2000 * d.rd (RAIL_TARGET.TARGET r))))
      let now := d.now
      d.onR r fun x => { x with rerange := none, runAt := some now, relAt := max x.relAt t, wideN := 0, wideDue := none, uv := none, pgOn := none, pgOff := none,
                                dwell := none, iFok := false }

/-- RERANGE_DONE -/
def execRerangeDone (r : Fin 64) (s : State) : Host.Outcome State Fault Refusal :=
  .next { s with dev := devRerangeDone r.val s.dev }

/-- The start-up window closes before RUN (R113). -/
def devStartTimeout (r : Nat) (d : Dev) : Dev :=
  if d.startOver r ∧ ¬ (d.R r).ssOut then
    ((d.onR r fun x => { x with ssOut := true }).evt (RAIL_EVT.EVT r) 5).raise 0x33 r (0x40 + r) 0
  else d

/-- START_TIMEOUT -/
def execStartTimeout (r : Fin 64) (s : State) : Host.Outcome State Fault Refusal :=
  .next { s with dev := devStartTimeout r.val s.dev }

/-- The PG_DELAY window has closed with every sample in band (R118). -/
def devPgAssert (r : Nat) (d : Dev) : Dev :=
  if d.rs r = Rs.run ∧ closed d.now (d.R r).pgOn (d.rd (RAIL_PG_DELAY.PG_DELAY r)) then
    (d.onR r fun x => { x with pgOn := none, pgOff := none }).setPg r true
  else d

/-- PG_ASSERT -/
def execPgAssert (r : Fin 64) (s : State) : Host.Outcome State Fault Refusal :=
  .next { s with dev := devPgAssert r.val s.dev }

/-- The PG_FILT window has closed with every sample out of band (R118). -/
def devPgDeassert (r : Nat) (d : Dev) : Dev :=
  if d.rs r = Rs.run ∧ closed d.now (d.R r).pgOff (d.rd (RAIL_PG.PG_FILT r)) then
    (d.onR r fun x => { x with pgOn := none, pgOff := none }).setPg r false
  else d

/-- PG_DEASSERT -/
def execPgDeassert (r : Fin 64) (s : State) : Host.Outcome State Fault Refusal :=
  .next { s with dev := devPgDeassert r.val s.dev }

/-- The rail over-current window has closed (05_phase_management.md R143). -/
def devRailOc (r : Nat) (d : Dev) : Dev :=
  if d.rLive r ∧ closed d.now (d.R r).ocW (d.rd (ILIM_TIME.VAL r)) then
    ((d.onR r fun x => { x with ocW := none }).evt (RPH_EVT.EVT r) 3).raise 0x32 r (0x40 + r) 6
  else d

/-- RAIL_OC -/
def execRailOc (r : Fin 64) (s : State) : Host.Outcome State Fault Refusal :=
  .next { s with dev := devRailOc r.val s.dev }

/-! ## Rail commands (R108-R114; 05_phase_management.md R145) -/

/-- Warp phases whose branch is in ON. -/
def Dev.fedPhases (d : Dev) (r : Nat) : Nat :=
  ((d.warp r).filter fun p => match d.phBranch p with | none => false | some b => d.brOn b).length

/-- RAIL_ENABLE (R108, R111; 05_phase_management.md R145; 01_architecture.md R18). -/
def Dev.railEnable (d : Dev) (r : Nat) : Dev × Nat :=
  let d := d.tabRead (0x40 + r) 0x10C400 0x200 (r / 16)
  let mn := d.minPhases r
  if ¬ d.active then (d, St.wrongMode)
  else if d.rs r = Rs.stopping then (d, St.railBusy)
  else if d.rs r = Rs.fenced then (d, St.railFenced)
  else if d.rs r ≠ Rs.off then (d, St.success)
  else if mn ≤ (d.warp r).length ∧ d.fedPhases r < mn then (d, St.branchDown)
  else if (d.availSet r).length < mn ∨ d.fedPhases r < mn then (d, St.phasesShort)
  else
    let now := d.now
    -- a write of RAIL_CFG on this very tick is not sampled (17_register_map.md R453)
    let w := (d.preWord (RAIL_CFG.STRATEGY r).off).getD (d.word (RAIL_CFG.STRATEGY r).off)
    let cfg := ((RAIL_CFG.STRATEGY r).get w, (RAIL_CFG.DIS_MODE r).get w == 1, (RAIL_CFG.OV_ACTION r).get w == 1)
    let cross := (d.warp r).any fun p => p / 128 != r / 16
    let tgt := d.rd (RAIL_TARGET.TARGET r)
    let d := d.onR r fun x =>
      { x with strat := cfg.1, disMode := cfg.2.1, ovAct := cfg.2.2, tEn := some now, first := false, sw := false, wideN := 0,
               wideDue := none, ssOut := false, rerange := none, ssTgt := tgt, samp := [], pipe := [], e1 := 0, e2 := 0, clamp := .none,
               ocW := none }
    let d := (d.wr (RAIL_STATUS.STATE r) Rs.start).wr (RAIL_STATUS.MODE r) 0
    -- a loss that CONFIGURE's calibration left is applied now (07_conversion.md R196)
    let d := (d.wr (RAIL_STATUS.CROSS r) (b2n cross)).useLoss (512 + r) 0x36 r (0x40 + r)
    (d.forL (d.warp r) fun d p => d.useLoss p 0x28 p (0x40 + r), St.success)

/-- RAIL_DISABLE (R108): true if the descriptor waits for OFF or FENCED. On the tick of START to RUN it precedes that transition and so finds
the rail in START (R107). -/
def Dev.railDisable (d : Dev) (r : Nat) : Dev × Bool :=
  if d.rs r = Rs.run ∧ (d.R r).disMode ∧ (d.R r).runAt ≠ some d.now then
    (((d.cancelSpec r).setPg r false).wr (RAIL_STATUS.STATE r) Rs.stopping |>.onR r fun x =>
      { x with uv := none, pgOn := none, pgOff := none, dwell := none }, true)
  else if d.rs r = Rs.stopping then (d, true)
  else (d.railStop r, false)

/-- A target in 0.5 mV is checked and committed, with the slew code to use (R109, R110). -/
def Dev.railSet (d : Dev) (r tgt slew : Nat) : Dev × Nat :=
  if tgt < d.rd (RAIL_BAND.VMIN r) ∨ d.rd (RAIL_BAND.VMAX r) < tgt then (d, St.bandViolation)
  else
    let f := RAIL_TARGET.TARGET r
    let d := (d.setNow f.off (f.put (d.word f.off) tgt)).onR r fun x => { x with slew := slew }
    (if d.rs r = Rs.run then d.wr (RAIL_STATUS.SLEWING r) (b2n (d.rd (RAIL_VREF.VREF r) ≠ 2000 * tgt)) else d, St.success)

end Sys2Proof.Machine
end

