-- ==== Sys2Proof/Machine/Phase.lean ====
section
/-! DEFINITION. Phases: PCC and TFLT samples, the phase trips, fences and holds (05_phase_management.md R122-R147). -/

namespace Sys2Proof.Machine

/-! ## Trips (R140-R142) -/

/-- Phase `p` is IDLE or ACTIVE, in the warp of a rail: its comparators and checks act (R140). -/
def Dev.phLive (d : Dev) (p : Nat) : Bool := (d.ps p == Ps.idle || d.ps p == Ps.active) && (d.P p).rail.isSome

/-- Phase `p` has tripped on this tick: what else is due on it is recorded (R140). -/
def Dev.phTripped (d : Dev) (p : Nat) : Bool := (d.P p).tripAt == some d.now && (d.P p).rail.isSome

/-- The causes whose condition holds now, in precedence order; FUSE and STAGE are the comparators' own (R140). -/
def Dev.phDue (d : Dev) (p : Nat) : List Nat :=
  let x := d.P p
  let r := d.railOf p
  if ¬ d.phLive p ∧ ¬ d.phTripped p then []
  else
    (if closed d.now x.oc (d.rd (PH_OC_TIME.VAL r)) then [3] else []) ++
    (if closed d.now x.neg (d.rd (PH_OC_TIME.VAL r)) then [4] else []) ++
    (if 16 ≤ x.hotN then [5] else []) ++
    (if 16 ≤ x.satN then [6] else []) ++
    (if closed d.now x.share (d.rd (SHARE_TIME.VAL r)) then [7] else [])

/-- A disabled cause has met its condition: a NOTE, and its window or count starts afresh (03_branch_fuses.md R69). -/
def Dev.phNote (d : Dev) (p c : Nat) : Dev :=
  (d.onP p fun x =>
    match c with
    | 3 => { x with oc := none }
    | 4 => { x with neg := none }
    | 5 => { x with hotN := 0 }
    | 6 => { x with satN := 0 }
    | 7 => { x with share := none }
    | _ => x).raiseL (0x20 + c) p (0x40 + d.railOf p) 6 0

/-- A phase trips with the causes that are due: it leaves the active set at once (R127, R133, R140). One that has tripped on this tick records
what else is due on it. -/
def Dev.phTrip (d : Dev) (p access : Nat) (due : List Nat) : Dev :=
  let u := 80 + p
  let r := d.railOf p
  let d := d.forL (due.filter fun c => ! d.tripEn u c) fun d c => d.phNote p c
  let due := due.filter fun c => d.tripEn u c
  if d.phTripped p then
    d.forL due fun d c =>
      d.lateCause u (PH_STATE.STATE p) (PH_STATE.CAUSE p) (PH_STATE.ALSO p) (PH_EVT.EVT p) 0x20 p c access fun _ => 2
  else match due with
    | [] => d
    | c :: also =>
      let before := (d.availSet r).length
      let now := d.now
      let (d, l) := d.rtTrip u c false
      let d := d.wr (PH_STATE.STATE p) (if l then Ps.latched else Ps.tripped)
      let d := (d.wr (PH_STATE.CAUSE p) c).wr (PH_STATE.ALSO p) (also.foldl setBit 0)
      let d := (d.evt (PH_EVT.EVT p) c).onP p fun x => { x with cool := false, on := 0, tripAt := some now }
      let d := (d.withdraw r p).warpChanged r before
      d.tripMsg (0x20 + c) p (0x40 + r) access (d.notify u) (if l then 2 else 0) (l && d.latchSafe u) false

/-- The trips due on this tick are taken before another transition of phase `p` (R127). -/
def Dev.phFirst (d : Dev) (p : Nat) : Dev := if d.phDue p = [] then d else d.phTrip p 6 (d.phDue p)

/-- The windows and counts of phase `p` are closed (R140). -/
def Dev.phCalm (d : Dev) (p : Nat) : Dev := d.onP p fun x => { x with oc := none, neg := none, hotN := 0, satN := 0 }

/-- A trip of cause `c`, if its condition holds now (log 7). -/
def Dev.phTripIf (d : Dev) (p c : Nat) : Dev := if (d.phDue p).contains c then d.phTrip p 6 (d.phDue p) else d

/-- A trip by an analog comparator; of the causes due on one tick all are recorded (R140). -/
def Dev.phTripBy (d : Dev) (p c : Nat) : Dev :=
  if d.phLive p ∨ d.phTripped p then d.phTrip p 0 (c :: d.phDue p) else d

/-- The fuse comparator has crossed. -/
def devPhFuse (p : Nat) (d : Dev) : Dev := d.phTripBy p 1

/-- PH_FUSE -/
def execPhFuse (p : Fin 512) (s : State) : Host.Outcome State Fault Refusal :=
  .next { s with dev := devPhFuse p.val s.dev }

/-- TFLT has risen above 2.2 V. -/
def devPhStage (p : Nat) (d : Dev) : Dev := d.phTripBy p 2

/-- PH_STAGE -/
def execPhStage (p : Fin 512) (s : State) : Host.Outcome State Fault Refusal :=
  .next { s with dev := devPhStage p.val s.dev }

/-- The OC window has closed. -/
def devPhOc (p : Nat) (d : Dev) : Dev := d.phTripIf p 3

/-- PH_OC -/
def execPhOc (p : Fin 512) (s : State) : Host.Outcome State Fault Refusal :=
  .next { s with dev := devPhOc p.val s.dev }

/-- The NEG window has closed. -/
def devPhNeg (p : Nat) (d : Dev) : Dev := d.phTripIf p 4

/-- PH_NEG -/
def execPhNeg (p : Fin 512) (s : State) : Host.Outcome State Fault Refusal :=
  .next { s with dev := devPhNeg p.val s.dev }

/-- Sixteen consecutive TFLT samples at or above V(T_HOT). -/
def devPhHot (p : Nat) (d : Dev) : Dev := d.phTripIf p 5

/-- PH_HOT -/
def execPhHot (p : Fin 512) (s : State) : Host.Outcome State Fault Refusal :=
  .next { s with dev := devPhHot p.val s.dev }

/-- Sixteen consecutive saturated PCC codes. -/
def devPhImonRange (p : Nat) (d : Dev) : Dev := d.phTripIf p 6

/-- PH_IMON_RANGE -/
def execPhImonRange (p : Fin 512) (s : State) : Host.Outcome State Fault Refusal :=
  .next { s with dev := devPhImonRange p.val s.dev }

/-- The SHARE window has closed with the trim at its limit (R135). -/
def devPhShare (p : Nat) (d : Dev) : Dev := d.phTripIf p 7

/-- PH_SHARE -/
def execPhShare (p : Fin 512) (s : State) : Host.Outcome State Fault Refusal :=
  .next { s with dev := devPhShare p.val s.dev }

/-! ## Retry, fence, hold and UNFENCE (R127, R142, R147; 03_branch_fuses.md R80-R82) -/

/-- A phase returns to IDLE, or to HELD while its branch or link is out of service (R127). -/
def Dev.phBack (d : Dev) (p : Nat) : Dev :=
  let r := d.railOf p
  let before := (d.availSet r).length
  ((d.phCalm p).wr (PH_STATE.STATE p) (if (d.P p).held then Ps.held else Ps.idle)).warpChanged r before

/-- A retry is due (R142). -/
def Dev.phRetry (d : Dev) (p : Nat) : Dev := (d.rtAbandon (80 + p)).phBack p

/-- A cool-down has timed out: the machine latches (03_branch_fuses.md R74, R75). -/
def Dev.phCoolLatch (d : Dev) (p : Nat) : Dev :=
  let d := (d.rtLatch (80 + p) true).wr (PH_STATE.STATE p) Ps.latched
  d.tripMsg (0x20 + d.rd (PH_STATE.CAUSE p)) p (0x40 + d.railOf p) 6 0 2 (d.latchSafe (80 + p)) true

/-- A phase enters FENCED (R127, R133). `dom` is the branch in whose domain it is fenced. The thermometer has not yet been compared
against V(T_RETRY), unless the phase was in a trip (R141). A trip due on the tick is taken first (R127). -/
def Dev.phFence (d : Dev) (dom : Option Nat) (p : Nat) : Dev :=
  let d := d.phFirst p
  if d.ps p = Ps.fenced ∨ d.ps p = Ps.unassigned then d
  else
    let live := d.phLive p
    let cool := (d.P p).cool && (d.ps p == Ps.tripped || d.ps p == Ps.latched)
    let d := if d.ps p = Ps.tripped then d.rtAbandon (80 + p) else d
    let d := ((d.phCalm p).wr (PH_STATE.STATE p) Ps.fenced).onP p fun x => { x with byBranch := dom, cool := cool }
    if live then d.withdraw (d.railOf p) p else d

/-- FENCE-UNIT of phases on one tick. -/
def Dev.fencePhases (d : Dev) (ps : List Nat) (dom : Option Nat) : Dev := d.eachPhase ps fun d p => d.phFence dom p

/-- FENCE-UNIT of a phase. -/
def Dev.fencePhase (d : Dev) (p : Nat) (dom : Option Nat) : Dev := d.fencePhases [p] dom

/-- The branch or the neighbour link of a phase goes out of service on its die (R122, R127). `hold` moves an IDLE or ACTIVE phase
to HELD; otherwise it is only unavailable. A trip due on the tick is taken first (R127). -/
def Dev.phHold (d : Dev) (hold : Bool) (p : Nat) : Dev :=
  let d := d.phFirst p
  let live := d.phLive p
  let d := d.onP p fun x => { x with held := true }
  if ¬ live then d
  else if hold then
    ((d.phCalm p).wr (PH_STATE.STATE p) Ps.held).withdraw (d.railOf p) p
  else d.phIdle p

/-- Phases go out of service on one tick. -/
def Dev.holdPhases (d : Dev) (ps : List Nat) (hold : Bool) : Dev := d.eachPhase ps fun d p => d.phHold hold p

/-- The branch and the link of phase `p` are in service (R122, R127). -/
def Dev.phFed (d : Dev) (p : Nat) : Bool :=
  (match d.phBranch p with | none => false | some b => d.brOn b) &&
  (match phLink (d.railOf p) p with | none => true | some l => d.linkUp l)

/-- A held phase returns to service, if its branch and its link are in service. -/
def Dev.phServe (d : Dev) (p : Nat) : Dev :=
  if ¬ d.phFed p then d
  else
    let d := d.onP p fun x => { x with held := false }
    if d.ps p = Ps.held then d.wr (PH_STATE.STATE p) Ps.idle else d

/-- The branch reaches ON, or the link returns: held phases return to service (R127; 03_branch_fuses.md R81). -/
def Dev.servePhases (d : Dev) (ps : List Nat) : Dev := d.eachPhase ps Dev.phServe

/-- T_RETRY of a phase's record: the one that governs a pending retry, else the one its rail names (R141, 03_branch_fuses.md R71). -/
def Dev.phTRetry (d : Dev) (p : Nat) : Int :=
  if d.ps p = Ps.tripped then sext 16 (d.rtPol (80 + p) 4 POL4.T_RETRY) else d.rds (POL4.T_RETRY (d.unitPol (80 + p)))

/-- UNFENCE of a phase (R147; 09_faults.md R264). -/
def Dev.unfencePhase (d : Dev) (p : Nat) : Dev × Nat :=
  if d.ps p ≠ Ps.latched ∧ d.ps p ≠ Ps.fenced then (d, St.unitNotFenced)
  else if (match (d.P p).byBranch with
      | none => false
      | some b => d.rd (BR_STATUS.STATE b) == Ec.latched || d.rd (BR_STATUS.STATE b) == Ec.fenced) then (d, St.domainFenced)
  else if ¬ (d.P p).cool then (d, St.unitHot)
  else (((d.rtClear (80 + p)).onP p fun x => { x with byBranch := none }).phBack p, St.success)

/-! ## Samples (R94, R126, R141) -/

/-- V(T) times 2,000 in uV times 1,000: a thermometer voltage `uv` is at or above V(T) (R141). -/
def Dev.atLeastV (d : Dev) (r : Nat) (uv : Nat) (t : Int) : Bool :=
  decide (2000 * (d.rd (TF_CFG.TF_V0 r) : Int) + (d.rd (TF_CFG.TF_SLOPE r) : Int) * t ≤ 2 * (uv : Int))

/-- A TFLT comparator sample, from the voltage in uV: an update for cool-down and for the HOT count (R140, R141). -/
def devTfltSample (p uv : Nat) (d : Dev) : Dev :=
  match (if d.now % 80 = 0 then (d.P p).rail else none) with
  | none => d
  | some r =>
    let st := d.ps p
    if st = Ps.tripped ∨ st = Ps.latched ∨ st = Ps.fenced then
      let cool := ! d.atLeastV r uv (d.phTRetry p) && decide (uv ≤ 2200000)
      let d := d.onP p fun x => { x with cool := cool }
      if st = Ps.tripped ∧ d.cooling (80 + p) ∧ cool then d.phRetry p else d
    else
      let hot := d.phLive p && d.atLeastV r uv (d.rds (TF_HOT.T_HOT r))
      d.onP p fun x => { x with hotN := if hot then x.hotN + 1 else 0 }

/-- TFLT_SAMPLE -/
def execTfltSample (p : Fin 512) (uv : BitVec 24) (s : State) : Host.Outcome State Fault Refusal :=
  .next { s with dev := devTfltSample p.val uv.toNat s.dev }

/-- The trimmed current of a PCC code (R126). -/
def Dev.trimmed (d : Dev) (p : Nat) (code : Int) : Int :=
  divZero ((code - d.rds (PH_TRIM.IOFS p)) * d.rds (PH_GAIN.IGAIN p)) 65536

/-- The checks of a fresh PCC sample (R140). -/
def Dev.phChecks (d : Dev) (p : Nat) (code : Int) : Dev :=
  if ¬ d.phLive p ∧ ¬ d.phTripped p then d
  else
    let r := d.railOf p
    let x := d.P p
    let now := d.now
    let n := d.rd (PH_OC_TIME.VAL r)
    let oc := winUpd now x.oc n (decide ((d.rd (PH_OC.OC_LIMIT r) : Int) ≤ x.i))
    let ng := winUpd now x.neg n (decide ((d.rd (PH_OC.NEG_LIMIT r) : Int) ≤ -x.i))
    d.onP p fun x => { x with oc := oc, neg := ng, satN := if code = -8192 ∨ code = 8191 then x.satN + 1 else 0 }

/-- i_sum of a rail (R94). -/
def Dev.sumNow (d : Dev) (r : Nat) : Int := ((d.warp r).filter (d.counts r)).foldl (fun s p => s + (d.P p).i) 0

/-- ceil of a fraction of 256. -/
def ceil256 (f : Nat) (v : Nat) : Int := ((f * v + 255) / 256 : Nat)

/-- A resolution of the speculation or shadow evaluation of a rail, counted in the credit window of its port: one that leaves the window
full throttles the port, or with AUTO_RESTORE ends its throttling (06_load_intent.md R175). RATE is rounded down and reads 255 where every
resolution is confirmed, for which R175 states no rounding (DESIGN CHOICE, log 22). -/
def Dev.credit (d : Dev) (n : Nat) (ok : Bool) : Dev :=
  let win := d.rd (IP_CFG.CREDIT_WIN n)
  let d := d.onIP n fun x => { x with credit := (ok :: x.credit).take win }
  let cs := (d.IP n).credit
  let conf := (cs.filter id).length
  -- RATE in 1/256, at most 255
  let rate := if cs = [] then 0 else min 255 (conf * 256 / cs.length)
  let d := (d.wr (IP_STATUS.FILL n) cs.length).wr (IP_STATUS.RATE n) rate
  let min := d.rd (IP_CFG.MIN_RATE n)
  if cs.length < win then d
  else if conf * 256 < min * cs.length then
    let d := (d.wr (IP_STATUS.THROTTLED n) 1).evt (IP_EVT.EVT n) 2
    let a := match d.boundRails n with | [] => 0x40 | x :: l => 0x40 + l.foldl (fun m y => if y.2 < m then y.2 else m) x.2
    d.raise 0x42 n a 0
  else if d.on (IP_CFG.AUTO_RESTORE n) ∧ d.on (IP_STATUS.THROTTLED n) then
    (d.wr (IP_STATUS.THROTTLED n) 0).evt (IP_EVT.EVT n) 3
  else d

/-- The hold of a confirmed speculation's phases, by duration class (06_load_intent.md R167). -/
def holdTicks (c : Nat) : Nat := match c with | 0 => 1600 | 1 => 16000 | 2 => 160000 | _ => 1600000

/-- Confirmation (06_load_intent.md R166, R167); of a shadow evaluation, only its end, its report and LAST (R175). -/
def Dev.confirm (d : Dev) (r : Nat) (s : SpecSt) : Dev :=
  let now := d.now
  let d := ((d.specEnds r).onSpec r fun s =>
    { s with opn := false, pcOn := false, pcCut := true, u := 0, rm := some now,
             holdEnd := if s.shadow then none else some (now + holdTicks s.dclass) }).wr (PEND_UINT.UINT r) 0
  let d := d.wr (PEND_STATE.LAST r) 1
  let d :=
    if s.shadow then d.wr (PEND_STATE.PHASE r) 0
    else ((d.wr (PEND_STATE.PHASE r) 2).bump (SPEC_CNT.CONFIRMED r)).evt (SPEC_EVT.EVT r) 1
  ((d.ipAck s.port s.seq 0x02 s.slot 1).credit s.port true).specTidy r

/-- An i_sum sample of the shuttle: i_base of a STEP accepted on its tick, the pre-charge cut before T_step, and the confirmation
(06_load_intent.md R162, R165, R166). -/
def Dev.shuttleSum (d : Dev) (r : Nat) : Dev :=
  match (d.R r).spec with
  | none => d
  | some s0 =>
    -- a sample stamped t_acc is itself i_base
    let s := if s0.tAcc = d.now then { s0 with iBase := (d.R r).iSum } else s0
    let d := if s0.tAcc = d.now then d.onSpec r (fun _ => s) else d
    let up := (d.R r).iSum - s.iBase
    let mag := 4 * s.di.natAbs
    let d := if s.pcOn ∧ ¬ s.pcCut ∧ d.now < s.tStep ∧ ceil256 (d.rd (SPEC_CONF.PC_FRACTION r)) mag ≤ up then d.pcCut r else d
    let moved := if 0 < s.di then up else -up
    if s.opn ∧ s.tOpen ≤ d.now ∧ d.now < s.tClose ∧ ceil256 (d.rd (SPEC_CONF.CONFIRM_FRACTION r)) mag ≤ moved then d.confirm r s
    else d

/-- The rail's i_sum of an instant is whole: its history, its mean over the period, the over-current window, its thread quantity and
the shuttle take note (R94, R137, R143; 04_rail_loom.md R120; log 23). A sum outside signed 16 bits wraps in RAIL_IMEAS and in quantity 1
(DESIGN CHOICE, log 48). -/
def Dev.sumDone (d : Dev) (r : Nat) : Dev :=
  let now := d.now
  let i := (d.R r).iSum
  let lim := d.rd (PH_ILIM_EFF.I_LIM_EFF r)
  let oc := if d.rLive r then winUpd now (d.R r).ocW (d.rd (ILIM_TIME.VAL r)) (decide ((lim : Int) ≤ i)) else none
  let d := d.onR r fun x =>
    { x with ocW := oc, iAcc := x.iAcc + i, iCnt := x.iCnt + 1,
             iHist := (now, i) :: (x.iHist.filter fun y => now < y.1 + 80) }
  let d := (d.wri (RAIL_IMEAS.IMEAS r) i).deliver (railTag r 1) (trunc 16 i)
  d.shuttleSum r

/-- A PCC instant of phase `p` (R94, R126, R140; 07_conversion.md R185): with a code, or empty, on which i_sum uses the previous current. -/
def devPccSample (p : Nat) (code : Option (BitVec 14)) (d : Dev) : Dev :=
  if ¬ d.onGrid p then d
  else
  let d := d.takeInst p
  let d := match (d.P p).rail with | none => d | some r => d.stages r
  let d := d.leaveDone p
  let d := match (if d.sampled p then code else none) with
    | none => d
    | some c =>
      let v := sext 14 (d.code p (sliceAt p d.now) true 14 c).toNat
      let i := d.trimmed p v
      let d := d.deliver p (trunc 16 v) 0 (d.calFlag p)
      (d.onP p fun x => { x with i := i, acc := x.acc + i, cnt := x.cnt + 1 }).phChecks p v
  match (d.P p).rail with
  | none => d
  | some r =>
    let s := d.sumNow r
    let d := d.onR r fun x => { x with iSum := s }
    if (d.warp r).getLast? = some p then d.sumDone r else d

/-- PCC_SAMPLE -/
def execPccSample (p : Fin 512) (code : Option (BitVec 14)) (s : State) : Host.Outcome State Fault Refusal :=
  .next { s with dev := devPccSample p.val code s.dev }

end Sys2Proof.Machine
end

