-- ==== Sys2Proof/Machine/Branch.lean ====
section
/-! DEFINITION. Branch channels: samples, soft start, trips, the branch-to-rail map and the fence (03_branch_fuses.md R61-R82). -/

namespace Sys2Proof.Machine

/-- The state of branch channel `n`. -/
def Dev.bs (d : Dev) (n : Nat) : Nat := d.rd (BR_STATUS.STATE n)

/-- TJ_EST of branch channel `n`. -/
def Dev.brTj (d : Dev) (n : Nat) : Int := d.rds (BR_STATUS.TJ_EST n)

/-- The phases that the phase-to-branch table feeds from branch `n`, of those in a warp. -/
def Dev.brPhases (d : Dev) (n : Nat) : List Nat :=
  d.ph.filterMap fun x => if x.2.rail.isSome ∧ d.phBranch x.1 = some n then some x.1 else none

/-- What branch `n` is before its first change of state on this tick (R66). -/
def Dev.brMark (d : Dev) (n : Nat) : Dev :=
  let x := d.B n
  if (x.pre.map (·.tick)) = some d.now then d
  else
    let p : PreSt := { tick := d.now, st := d.bs n, gate := x.gate, status := d.word (BR_STATUS.STATE n).off, clear := (d.RT (16 + n)).clear }
    d.onB n fun x => { x with pre := some p }

/-- Branch `n` has tripped on this tick. -/
def Dev.brTripped (d : Dev) (n : Nat) : Bool := (d.B n).tripAt == some d.now

/-- The state in which the causes of branch `n` are evaluated: on the tick of a trip, the one it tripped from (R67). -/
def Dev.brSt (d : Dev) (n : Nat) : Nat :=
  if d.brTripped n then ((d.B n).pre.map (·.st)).getD (d.bs n) else d.bs n

/-- A branch channel enters a state (R66, R76, R80, R81): the windows start closed, but for those that a trip leaves behind for the rest of its
tick; leaving ON applies its map, once on a tick; reaching ON returns its held phases. -/
def Dev.brGo (d : Dev) (n st : Nat) (g : Gate) : Dev :=
  let d := (d.brMark n).countClear (16 + n)
  let now := d.now
  let exit := decide (d.bs n = Ec.on ∧ st ≠ Ec.on) && !d.keep.on && !(d.B n).downs.any fun y => y.tb == now
  let d := d.onB n fun x => { x with gate := g, downs := if exit then x.downs ++ [{ tb := now }] else x.downs }
  let d := d.onB n fun x =>
    if st = Ec.tripped ∨ st = Ec.latched then x
    else { x with qualN := 0, ovN := 0, oc := none, doneW := none, rev := none, pwr := none, ss := if st = Ec.inrush then some now else none }
  let d := d.wr (BR_STATUS.STATE n) st
  if st = Ec.on then (d.rtOn (16 + n)).servePhases (d.brPhases n)
  else d.onRT (16 + n) fun x => { x with clear := none }

/-- The causes whose condition holds now, in precedence order, in a state in which they are evaluated; SOA is due on the tick of an update
(R67). -/
def Dev.brDue (d : Dev) (n : Nat) : List Nat :=
  let x := d.B n
  let st := d.brSt n
  if ¬ (st = Ec.inrush ∨ st = Ec.on) ∨ d.keep.on then []
  else
    let k := d.rd (BR_CFG.FET_TYPE n)
    (if x.soaAt = some d.now ∧ ¬ d.soaZero k ∧ d.rds (SOA_TJ.TJ_TRIP k) ≤ d.brTj n then [2] else []) ++
    (if closed d.now x.oc (d.rd (BR_OC_TIME.OC_TIME n)) then [3] else []) ++
    (if st = Ec.inrush ∧ closed d.now x.ss (d.rd (BR_SS_TIME.SS_TMAX n)) then [4] else []) ++
    (if 2 ≤ x.ovN then [5] else []) ++
    (if closed d.now x.rev (d.rd (BR_REV.REV_FILT n)) then [6] else []) ++
    (if st = Ec.on ∧ closed d.now x.pwr (d.rd (BR_OC_TIME.OC_TIME n)) then [7] else [])

/-- A disabled cause has met its condition: a NOTE, and its window or count starts afresh from the next sample (R69). -/
def Dev.brNote (d : Dev) (n c : Nat) : Dev :=
  (d.onB n fun x =>
    match c with
    | 3 => { x with oc := none }
    | 4 => { x with ss := none }
    | 5 => { x with ovN := 0 }
    | 6 => { x with rev := none }
    | 7 => { x with pwr := none }
    | _ => x).raiseL (0x10 + c) n (0x90 + n) 6 0

/-- Conditions of trips are met (R67, R73, R82). A branch that has tripped on this tick records what else is due on it. -/
def Dev.brTrip (d : Dev) (n access : Nat) (due : List Nat) : Dev :=
  let u := 16 + n
  let d := d.forL (due.filter fun c => ! d.tripEn u c) fun d c => d.brNote n c
  let due := due.filter fun c => d.tripEn u c
  if d.brTripped n then
    d.forL due fun d c =>
      d.lateCause u (BR_STATUS.STATE n) (BR_STATUS.CAUSE n) (BR_STATUS.ALSO n) (BR_EVT.EVT n) 0x10 n c access fun _ => 3
  else match due with
    | [] => d
    | c :: also =>
      let now := d.now
      let (d, l) := (d.brMark n).rtTrip u c false
      let d := (d.brGo n (if l then Ec.latched else Ec.tripped) .offFast).onB n fun x => { x with tripAt := some now }
      let d := (d.wr (BR_STATUS.CAUSE n) c).wr (BR_STATUS.ALSO n) (also.foldl setBit 0)
      (d.evt (BR_EVT.EVT n) c).tripMsg (0x10 + c) n (0x90 + n) access (d.notify u) (if l then 3 else 0) (l && d.latchSafe u) false

/-- A trip by a command that names its cause: it is due now beside the causes whose conditions hold (R67). -/
def Dev.brTripBy (d : Dev) (n c access : Nat) : Dev := d.brTrip n access (c :: (d.brDue n).filter (· ≠ c))

/-- A trip of cause `c`, if its condition holds now (log 7). -/
def Dev.brTripIf (d : Dev) (n c : Nat) : Dev := if (d.brDue n).contains c then d.brTrip n 6 (d.brDue n) else d

/-- The trips due on this tick are taken before another transition of channel `n` (R66). -/
def Dev.brFirst (d : Dev) (n : Nat) : Dev := if d.brDue n = [] then d else d.brTrip n 6 (d.brDue n)

/-- The branch has left SOFTSTART or ON on this tick by a transition that a trip of the tick precedes (R66). -/
def Dev.brLeft (d : Dev) (n : Nat) : Bool :=
  match (d.B n).pre with
  | none => false
  | some p => decide (p.tick = d.now ∧ (p.st = Ec.inrush ∨ p.st = Ec.on)) && !d.keep.on && !d.brTripped n &&
      (d.bs n == Ec.off || d.bs n == Ec.check)

/-- The transition by which the branch has left its state on this tick is not taken, nor is its NOTE (R66). -/
def Dev.brUndo (d : Dev) (n : Nat) : Dev :=
  match (d.B n).pre with
  | none => d
  | some p =>
    let d := (d.wr (BR_STATUS.STATE n) p.st).onRT (16 + n) fun x => { x with clear := p.clear }
    (d.onB n fun x => { x with gate := p.gate }).editFault 0x18 n fun _ => none

/-- Branch channels may turn on in the present mode (10_modes_startup.md R270). -/
def Dev.brMay (d : Dev) : Bool := d.md == Md.ramp || d.md == Md.run

/-- A retry is due (R74): the branch waits in CHECK, its gate off, for a mode in which branch channels may turn on (10_modes_startup.md
R270; log 27). -/
def Dev.brRetry (d : Dev) (n : Nat) : Dev := (d.rtAbandon (16 + n)).brGo n Ec.check .off

/-- A cool-down has timed out: the machine latches (R74, R75). -/
def Dev.brCoolLatch (d : Dev) (n : Nat) : Dev :=
  let d := (d.rtLatch (16 + n) true).brGo n Ec.latched .off
  d.tripMsg (0x10 + d.rd (BR_STATUS.CAUSE n)) n (0x90 + n) 6 0 3 (d.latchSafe (16 + n)) true

/-! ## Requests (R36, R66) -/

/-- An on request (R36): decided by the first case that applies. -/
def Dev.brOnReq (d : Dev) (n : Nat) : Dev × Nat :=
  if ¬ d.on (BR_CFG.USED n) then (d, St.roleMismatch)
  else if d.bs n = Ec.tripped ∨ d.bs n = Ec.latched ∨ d.bs n = Ec.fenced then (d, St.channelFaulted)
  else if d.bs n = Ec.off then ((d.brGo n Ec.check .off).useLoss (624 + n / 8) 0x19 (624 + n / 8) (convAgent (624 + n / 8)), St.success)
  else (d, St.success)

/-- An off request (R36, R77); a trip due on the tick is taken first (R66). -/
def Dev.brOffReq (d : Dev) (n : Nat) : Dev :=
  let d := d.brFirst n
  if d.bs n = Ec.off ∨ d.bs n = Ec.latched ∨ d.bs n = Ec.fenced then d
  else if d.bs n = Ec.tripped then (d.rtAbandon (16 + n)).brGo n Ec.off .off
  else (d.brGo n Ec.off .off).onB n fun x => { x with pre := x.pre.map fun p => { p with off := true } }

/-! ## The map (R78-R81) -/

/-- The map entries of branch `b` in order: index, action, rail and delay of each VALID entry. -/
def Dev.bmap (d : Dev) (b : Nat) : List (Nat × Nat × Nat × Nat) :=
  (List.range 16).filterMap fun e =>
    if d.on (BMAP.VALID b e) then some (e, d.rd (BMAP.ACTION b e), d.rd (BMAP.RAIL b e), d.rd (BMAP.DELAY b e)) else none

/-- A DISABLE or DEPEND entry disables its rail immediately; OFF and FENCED rails are passed over (R80). The rail's home die, which the
message has reached, acts by itself, whatever becomes of its hub link (09_faults.md R260). -/
def Dev.mapStop (d : Dev) (r : Nat) : Dev := d.railStop r

/-- The exits of branch `n` whose map is still being applied: those whose message has not reached every loom die, or that have a DEPEND
entry to come (R80). -/
def Dev.downPrune (d : Dev) (n : Nat) : Dev :=
  let deps := (d.bmap n).filter fun x => x.2.1 == 1
  d.onB n fun x => { x with downs := x.downs.filter fun y => y.msg != 15 || deps.any fun e => ! y.dep.testBit e.1 }

/-- One exit of branch `n` changed. -/
def Dev.onDown (d : Dev) (n tb : Nat) (f : DownSt → DownSt) : Dev :=
  d.onB n fun x => { x with downs := x.downs.map fun y => if y.tb = tb then f y else y }

/-- The loom dice that an exit's message has not reached and whose hub link is in service (R80; 05_phase_management.md R122). -/
def Dev.downDice (d : Dev) (x : DownSt) : List Nat := (List.range 4).filter fun k => d.linkUp k && ! x.msg.testBit k

/-- The map of branch `n` is read; with `dice`, the parts of the phase-to-branch table for those loom dice too. -/
def Dev.mapRead (d : Dev) (n : Nat) (dice : List Nat) : Dev :=
  (d.tabRead (0x90 + n) (0x203000 + 0x40 * n) 64).forL dice fun d k => d.tabUse (0x40 + 16 * k) (0x88 + 2 * k) (0x400 + 128 * k) 128

/-- The branch-down message of the oldest exit still on its way reaches the loom dice in service (R80): DISABLE and SHED entries of the rails
at home there act, and DEPEND entries whose time has come; the branch is out of service there for its other phases on those dice too
(05_phase_management.md R122). -/
def devBranchDownArrive (n : Nat) (d : Dev) : Dev :=
  if d.keep.on ∨ ¬ d.linkUp 7 then d
  else
    match (d.B n).downs.find? fun x => (d.downDice x) != [] with
    | none => d
    | some x =>
      let dice := d.downDice x
      let d := d.mapRead n dice
      let d := d.onDown n x.tb fun y => { y with msg := dice.foldl setBit y.msg }
      let d := d.forL (d.bmap n) fun d e =>
        let r := e.2.2.1
        if ¬ dice.contains (r / 16) then d
        else if e.2.1 = 0 then d.mapStop r
        else if e.2.1 = 2 then d.holdPhases ((d.brPhases n).filter fun p => d.railOf p = r) true
        else if e.2.1 = 1 ∧ x.tb + 8 * e.2.2.2 ≤ d.now then
          (d.mapStop r).onDown n x.tb fun y => { y with dep := setBit y.dep e.1 }
        else d
      let d := if d.bs n = Ec.on then d
        else d.holdPhases ((d.brPhases n).filter fun p => ! (d.P p).held && dice.contains (p / 128)) false
      d.downPrune n

/-- BRANCH_DOWN_ARRIVE -/
def execBranchDownArrive (n : Fin 64) (s : State) : Host.Outcome State Fault Refusal :=
  .next { s with dev := devBranchDownArrive n.val s.dev }

/-- The delay of a DEPEND entry has expired (R80): of the oldest exit whose message has reached the rail's home die and whose entry has
not acted. -/
def devDependDisable (n e : Nat) (d : Dev) : Dev :=
  let d := d.mapRead n []
  if d.keep.on ∨ ¬ d.on (BMAP.VALID n e) ∨ d.rd (BMAP.ACTION n e) ≠ 1 then d
  else
    let r := d.rd (BMAP.RAIL n e)
    match (d.B n).downs.find? fun x => x.msg.testBit (r / 16) && ! x.dep.testBit e with
    | none => d
    | some x =>
      if d.now < x.tb + 8 * d.rd (BMAP.DELAY n e) then d
      else ((d.mapStop r).onDown n x.tb fun y => { y with dep := setBit y.dep e }).downPrune n

/-- DEPEND_DISABLE -/
def execDependDisable (n : Fin 64) (e : Fin 16) (s : State) : Host.Outcome State Fault Refusal :=
  .next { s with dev := devDependDisable n.val e.val s.dev }

/-! ## Fence and UNFENCE (R82; 09_faults.md R260, R264) -/

/-- FENCE-UNIT of a branch channel. -/
def Dev.fenceBranch (d : Dev) (n : Nat) : Dev :=
  if d.bs n = Ec.fenced then d
  else
    let d := if d.bs n = Ec.tripped then d.rtAbandon (16 + n) else d
    d.brGo n Ec.fenced .off

/-- Rail `r` has an entry with an action in the map of branch `n`. -/
def Dev.bmapHas (d : Dev) (n r act : Nat) : Bool := (d.bmap n).any fun x => x.2.1 == act && x.2.2.1 == r

/-- The held phases of a branch: fed by it, of a rail with a SHED entry in its map (R82). -/
def Dev.shedPhases (d : Dev) (n : Nat) : List Nat := (d.brPhases n).filter fun p => d.bmapHas n (d.railOf p) 2

/-- FENCE-DOMAIN of a branch channel: the branch, its DISABLE and DEPEND rails, and its held phases (R82). -/
def Dev.fenceBranchDomain (d : Dev) (n : Nat) : Dev :=
  let d := (d.fenceBranch n).mapRead n (List.range 4)
  let d := d.forL (d.bmap n) fun d x => if x.2.1 = 0 ∨ x.2.1 = 1 then d.fenceRail x.2.2.1 (some n) else d
  d.fencePhases (d.shedPhases n) (some n)

/-- UNFENCE of a branch channel; an UNFENCE goes to each of its held phases (R82). -/
def Dev.unfenceBranch (d : Dev) (n : Nat) : Dev × Nat :=
  if d.bs n ≠ Ec.latched ∧ d.bs n ≠ Ec.fenced then (d, St.unitNotFenced)
  else if d.rds (POL4.T_RETRY (d.unitPol (16 + n))) ≤ d.brTj n then (d, St.unitHot)
  else
    let d := (d.rtClear (16 + n)).brGo n Ec.off .off
    (d.forL (d.shedPhases n) fun d p => (d.unfencePhase p).1, St.success)

/-! ## Samples (R63, R65-R67) -/

/-- V_DS of a branch, from the latest codes. -/
def Dev.brVds (d : Dev) (n : Nat) : Int := ((d.B n).vin : Int) - (d.B n).vout

/-- The case temperature in use (R65; 07_conversion.md R199). -/
def Dev.brTCase (d : Dev) (n : Nat) : Int :=
  if d.on (BR_CFG.TEMP_SRC n) ∧ ¬ (d.B n).stale ∧ ¬ d.scvLost (n / 8) ∧ (d.B n).tAt.isSome then (d.B n).tCase
  else d.rds (SOA_TREF.T_FIXED (d.rd (BR_CFG.FET_TYPE n)))

/-- A VIN sample: qualification and the over-voltage count (R66, R67). -/
def Dev.brVin (d : Dev) (n v : Nat) : Dev :=
  let good := decide (d.rd (BR_VLIM.UV n) ≤ v ∧ v < d.rd (BR_VLIM.OV n))
  let ovs := decide (d.rd (BR_VLIM.OV n) ≤ v)
  let st := d.brSt n
  d.onB n fun x =>
    { x with vin := v, qualN := if st = Ec.check ∧ good then x.qualN + 1 else 0,
             ovN := if (st = Ec.inrush ∨ st = Ec.on) ∧ ovs then x.ovN + 1 else 0 }

/-- A VIN sample below UV in ON: back to CHECK with a NOTE, unless a trip is due on the tick, which is taken first (R66). -/
def Dev.brUnder (d : Dev) (n v : Nat) : Dev :=
  if d.bs n ≠ Ec.on ∨ d.rd (BR_VLIM.UV n) ≤ v ∨ d.keep.on then d
  else
    let d := d.brFirst n
    if d.bs n ≠ Ec.on then d
    else ((d.brGo n Ec.check .off).evt (BR_EVT.EVT n) 0).raise 0x18 n (0x90 + n) 6

/-- The windows at an I sample (R67, R66). -/
def Dev.brWindows (d : Dev) (n : Nat) : Dev :=
  let st := d.brSt n
  if ¬ (st = Ec.inrush ∨ st = Ec.on) then d
  else
    let x := d.B n
    let now := d.now
    let t := d.rd (BR_OC_TIME.OC_TIME n)
    let oc := winUpd now x.oc t (decide ((d.rd (BR_OC.OC_LIMIT n) : Int) ≤ x.i))
    let rv := winUpd now x.rev (d.rd (BR_REV.REV_FILT n))
      (d.on (BR_REV.REV_EN n) && decide ((d.rd (BR_REV.REV_TH n) : Int) ≤ -x.i))
    let pw := winUpd now x.pwr t
      (st == Ec.on && decide ((d.rd (BR_PLIM.P_LIM n) * 8192 * d.rd (BR_SHUNT.RSHUNT n) : Nat) ≤ (x.vin : Int) * x.i * 9375))
    let dn := winUpd now x.doneW (d.rd (BR_DONE.DONE_TIME n))
      (st == Ec.inrush && decide (d.brVds n < (d.rd (BR_SS.VDS_DONE n) : Nat)))
    let ss := if st = Ec.inrush then some (x.ss.getD now) else none
    d.onB n fun x => { x with oc := oc, rev := rv, pwr := pw, doneW := dn, ss := ss }

/-- The soft-start loop: the gate sources or sinks at most PULLUP so as to hold I at min(SS_I, P_EFF / V_DS); how much is a free value
(R66; log 19). -/
def Dev.brLoop (d : Dev) (n : Nat) : Dev :=
  let x := d.B n
  let ip := powerCode x.pEff (d.brVds n) (d.rd (BR_SHUNT.RSHUNT n)) 8192 9375
  let up := decide (x.i < min (d.rd (BR_SS.SS_I n) : Int) ip)
  let code := d.freeVal % (min 49 (d.rd (BR_FAST.PULLUP n)) + 1)
  d.nextFree.onB n fun x => { x with gate := .drive up code }

/-- One update of the thermal model at an I sample (R65): 800 ns. -/
def Dev.brModel (d : Dev) (n : Nat) : Dev :=
  let x := d.B n
  let k := d.rd (BR_CFG.FET_TYPE n)
  let d := d.tabRead (0x90 + n) (0x201200 + 0x40 * k) 32
  let nEff := (if d.brSt n = Ec.inrush then d.rd (BR_CFG.LIN_SHARE n) else d.rd (BR_CFG.N_PAR n)) + 1
  let p := pFet (d.brVds n) (ampsOf x.i 500000 2048 (d.rd (BR_SHUNT.RSHUNT n))) nEff
  let th := d.soaStep k (8, 1) (x.th1, x.th2, x.th3, x.th4) p
  let tj := tjOf (d.brTCase n) th
  let pe := pEffOf (d.soaZero k) (d.rd (BR_PLIM.P_LIM n)) tj (d.rds (SOA_TJ.TJ_REG k)) (d.rds (SOA_TJ.TJ_TRIP k))
  let now := d.now
  (d.onB n fun x => { x with th1 := th.1, th2 := th.2.1, th3 := th.2.2.1, th4 := th.2.2.2, pEff := pe, soaAt := some now }).wri (BR_STATUS.TJ_EST n) tj

/-- An I sample (R65-R67, R74). -/
def Dev.brI (d : Dev) (n : Nat) (i : Int) : Dev :=
  let d := d.onB n fun x => { x with i := i }
  let d := if d.keep.on then d else d.brWindows n
  let d := if d.bs n = Ec.inrush ∧ ¬ d.keep.on then d.brLoop n else d
  let d := d.brModel n
  if (d.brDue n).contains 2 ∨ (d.brTripped n ∧ d.brDue n ≠ []) then d.brTrip n 6 (d.brDue n)
  else if d.bs n = Ec.tripped ∧ d.cooling (16 + n) ∧ d.brTj n < sext 16 (d.rtPol (16 + n) 4 POL4.T_RETRY) then d.brRetry n
  else d

/-- The tag of SCV position `j` serving branch `n` (07_conversion.md R197). -/
def brTag (n q : Nat) : Nat := 0x600 + 32 * (n / 8) + 8 * q + n % 8

/-! ## Trips by command (R67) -/

/-- The fast-trip comparator has fired after its filter. -/
def devBrFastTrip (n : Nat) (d : Dev) : Dev :=
  if ((d.bs n = Ec.inrush ∨ d.bs n = Ec.on) ∧ ¬ d.keep.on) ∨ d.brTripped n then d.brTripBy n 1 0
  else if d.brLeft n then
    -- it precedes the transition that the branch has made on this tick, and an off request of the tick follows it
    let off := (d.B n).pre.any (·.off)
    let d := (d.brUndo n).brTripBy n 1 0
    if off then d.brOffReq n else d
  else d

/-- BR_FAST_TRIP -/
def execBrFastTrip (n : Fin 64) (s : State) : Host.Outcome State Fault Refusal :=
  .next { s with dev := devBrFastTrip n.val s.dev }

/-- The over-current window has closed. -/
def devBrOcTrip (n : Nat) (d : Dev) : Dev := d.brTripIf n 3

/-- BR_OC_TRIP -/
def execBrOcTrip (n : Fin 64) (s : State) : Host.Outcome State Fault Refusal :=
  .next { s with dev := devBrOcTrip n.val s.dev }

/-- SOFTSTART has lasted SS_TMAX. -/
def devBrSsTime (n : Nat) (d : Dev) : Dev := d.brTripIf n 4

/-- BR_SS_TIME -/
def execBrSsTime (n : Fin 64) (s : State) : Host.Outcome State Fault Refusal :=
  .next { s with dev := devBrSsTime n.val s.dev }

/-- VIN has been at or above OV on two consecutive VIN samples. -/
def devBrOvTrip (n : Nat) (d : Dev) : Dev := d.brTripIf n 5

/-- BR_OV_TRIP -/
def execBrOvTrip (n : Fin 64) (s : State) : Host.Outcome State Fault Refusal :=
  .next { s with dev := devBrOvTrip n.val s.dev }

/-- The reverse window has closed. -/
def devBrRevTrip (n : Nat) (d : Dev) : Dev := d.brTripIf n 6

/-- BR_REV_TRIP -/
def execBrRevTrip (n : Fin 64) (s : State) : Host.Outcome State Fault Refusal :=
  .next { s with dev := devBrRevTrip n.val s.dev }

/-- The power window has closed in ON. -/
def devBrPwrTrip (n : Nat) (d : Dev) : Dev := d.brTripIf n 7

/-- BR_PWR_TRIP -/
def execBrPwrTrip (n : Fin 64) (s : State) : Host.Outcome State Fault Refusal :=
  .next { s with dev := devBrPwrTrip n.val s.dev }

/-! ## Progress (R66) -/

/-- Sixteen consecutive good VIN samples: CHECK goes to SOFTSTART. -/
def devBrQualify (n : Nat) (d : Dev) : Dev :=
  if d.bs n = Ec.check ∧ 16 ≤ (d.B n).qualN ∧ ¬ d.keep.on ∧ d.brMay then d.brGo n Ec.inrush (.drive true 0) else d

/-- BR_QUALIFY -/
def execBrQualify (n : Fin 64) (s : State) : Host.Outcome State Fault Refusal :=
  .next { s with dev := devBrQualify n.val s.dev }

/-- V_DS has stayed below VDS_DONE for DONE_TIME: the branch reaches ON (R66, R81); a trip due on the tick is taken first. -/
def devBrSoftstartDone (n : Nat) (d : Dev) : Dev :=
  let d := d.brFirst n
  if d.bs n = Ec.inrush ∧ closed d.now (d.B n).doneW (d.rd (BR_DONE.DONE_TIME n)) ∧ ¬ d.keep.on ∧ d.brMay then d.brGo n Ec.on .enhancing else d

/-- BR_SOFTSTART_DONE -/
def execBrSoftstartDone (n : Fin 64) (s : State) : Host.Outcome State Fault Refusal :=
  .next { s with dev := devBrSoftstartDone n.val s.dev }

/-! ## The retry machine's timers (R74, R76) -/

/-- The temperature of R70 allows a retry of unit `u` at its latest update. -/
def Dev.retryCool (d : Dev) (u : Nat) : Bool :=
  if u < 16 then d.coolNow u (d.entTj u)
  else if u < 80 then d.coolNow u (d.brTj (u - 16))
  else d.rtPol u 4 POL4.COOL_EN != 1 || (d.P (u - 80)).cool

/-- A retry of unit `u` is due (R74). -/
def Dev.retryNow (d : Dev) (u : Nat) : Dev :=
  if u < 16 then d.entRetry u else if u < 80 then d.brRetry (u - 16) else d.phRetry (u - 80)

/-- A retry delay has expired: the retry is due, or a cool-down opens (R74). -/
def devRetryDelayExpire (u : Nat) (d : Dev) : Dev :=
  if ¬ d.delayDue u then d else if d.retryCool u then d.retryNow u else d.coolOpen u

/-- RETRY_DELAY_EXPIRE -/
def execRetryDelayExpire (u : Fin 592) (s : State) : Host.Outcome State Fault Refusal :=
  .next { s with dev := devRetryDelayExpire u.val s.dev }

/-- The cool-down window has closed without a cool update: the unit latches (R74, R75). -/
def devCoolTimeout (u : Nat) (d : Dev) : Dev :=
  if ¬ d.coolOver u then d
  else if u < 16 then d.entCoolLatch u else if u < 80 then d.brCoolLatch (u - 16) else d.phCoolLatch (u - 80)

/-- COOL_TIMEOUT -/
def execCoolTimeout (u : Fin 592) (s : State) : Host.Outcome State Fault Refusal :=
  .next { s with dev := devCoolTimeout u.val s.dev }

/-- A unit has stayed ON for COUNT_CLEAR ticks (R76). -/
def devCountClear (u : Nat) (d : Dev) : Dev := d.countClear u

/-- COUNT_CLEAR -/
def execCountClear (u : Fin 592) (s : State) : Host.Outcome State Fault Refusal :=
  .next { s with dev := devCountClear u.val s.dev }

end Sys2Proof.Machine
end

