-- ==== Sys2Proof/Machine/Sage.lean ====
section
/-! DEFINITION. The integrating converters and Sage: the filter step, presence, rest points, capacity learning, disagreement and
write-back (07_conversion.md R209-R211; 08_battery_estimation.md R218-R243). -/

namespace Sys2Proof.Machine

/-! ## The OCV table (R224) -/

/-- Point `m` of row `r` of OCV table `p`, in mV. -/
def Dev.ocvPt (d : Dev) (p r m : Nat) : Nat :=
  (d.word (0x206000 + 0x400 * p + 0x80 * r + m / 2 * 4)).toNat / 65536 ^ (m % 2) % 65536

/-- The temperature of row `r`, in 0.05 C. -/
def Dev.ocvTemp (d : Dev) (p r : Nat) : Int :=
  sext 16 ((d.word (0x206200 + 0x400 * p + r / 2 * 4)).toNat / 65536 ^ (r % 2))

/-- A value of each row taken to a temperature (R224): linear between the rows that bracket it, the end row outside. -/
def Dev.betweenRows (d : Dev) (p : Nat) (t : Int) (v : Nat → Word) : Word :=
  if t ≤ d.ocvTemp p 0 then v 0
  else if d.ocvTemp p 3 ≤ t then v 3
  else
    let r := if t < d.ocvTemp p 1 then 0 else if t < d.ocvTemp p 2 then 1 else 2
    let a := d.ocvTemp p r
    let b := d.ocvTemp p (r + 1)
    fAdd (v r) (fMul (fSub (v (r + 1)) (v r)) (fRat (t - a) (b - a).toNat))

/-- Point `m` of the row interpolated at a temperature, in V (R224). -/
def Dev.ocvAt (d : Dev) (p : Nat) (t : Int) (m : Nat) : Word := d.betweenRows p t fun r => fRat (d.ocvPt p r m) 1000

/-- A value clamped to [0, 1]. -/
def clamp01 (w : Word) : Word := if fLt w 0 then 0 else if fLt (fInt 1) w then fInt 1 else w

/-- The segment of 63 that holds a state of charge. -/
def socSeg (soc : Word) : Nat := min 62 (fTrunc (clamp01 soc) 63 1).toNat

/-- Row `r` at a state of charge, in V: linear between the points that bracket it (R224). -/
def Dev.ocvRow (d : Dev) (p : Nat) (soc : Word) (r : Nat) : Word :=
  let m := socSeg soc
  let v := fun m => fRat (d.ocvPt p r m) 1000
  fAdd (v m) (fMul (fSub (v (m + 1)) (v m)) (fSub (fMul (clamp01 soc) (fInt 63)) (fInt m)))

/-- The Sage reads the OCV table of pack `p`. -/
def Dev.ocvRead (d : Dev) (p : Nat) : Dev := d.tabRead 0x33 (0x206000 + 0x400 * p) 520

/-- OCV(soc, T) in V: first in SoC within each row that brackets T, then in T between the two results (R224). -/
def Dev.ocv (d : Dev) (p : Nat) (soc : Word) (t : Int) : Word := d.betweenRows p t (d.ocvRow p soc)

/-- slope(soc, T) in V per unit of state of charge. -/
def Dev.ocvSlope (d : Dev) (p : Nat) (soc : Word) (t : Int) : Word :=
  let m := socSeg soc
  fMul (fSub (d.ocvAt p t (m + 1)) (d.ocvAt p t m)) (fInt 63)

/-- SoC(v, T). -/
def Dev.socOf (d : Dev) (p : Nat) (v : Word) (t : Int) : Word :=
  if fLt v (d.ocvAt p t 0) then 0
  else match (List.range 63).find? fun m => fLt v (d.ocvAt p t (m + 1)) with
    | none => fInt 1
    | some m =>
      let a := d.ocvAt p t m
      fDiv (fAdd (fInt m) (fDiv (fSub v a) (fSub (d.ocvAt p t (m + 1)) a))) (fInt 63)

/-! ## The state of a pack -/

/-- i in A of the latest current result (R219). -/
def Dev.sgI (d : Dev) (p : Nat) : Word := fRat ((d.SG p).iCode * 750000) (8388608 * d.rd (SG_SHUNT.RSHUNT p))

/-- v in V of the latest voltage result (R219). -/
def Dev.sgV (d : Dev) (p : Nat) : Word := fRat (((d.SG p).vCode * 768 : Nat) : Int) (10 * 16777216)

/-- RSER in ohm. -/
def Dev.sgRser (d : Dev) (p : Nat) : Word := fRat (d.rd (SG_RSER_L.VAL p)) 1000000

/-- V_CORR = v + RSER x i (R227). -/
def Dev.vCorr (d : Dev) (p : Nat) : Word := fAdd (d.sgV p) (fMul (d.sgRser p) (d.sgI p))

/-- CAP in Ah. -/
def Dev.sgCap (d : Dev) (p : Nat) : Word := fRat (d.rd (SG_CAPACITY.CAP p)) 100

/-- |i| is below REST_I (R228). -/
def Dev.resting (d : Dev) (p : Nat) : Bool :=
  decide ((d.SG p).iCode.natAbs * 750000 * 1000 < d.rd (SG_REST.REST_I p) * 8388608 * d.rd (SG_SHUNT.RSHUNT p))

/-- SOC_FILT and SOC_CNT show the two states of charge, to nearest (R225, R226; log 22). -/
def Dev.socShow (d : Dev) (p : Nat) : Dev :=
  let x := d.SG p
  ((d.wr (SG_SOC.SOC_FILT p) (fToInt x.soc 10000 1 0 10000).toNat).wr (SG_SOC.SOC_CNT p) (fToInt x.cnt 10000 1 0 10000).toNat).wr
    (SG_STATUS.SOC_REP p) (x.rep / 65536)

/-- Entry (i, j) of the covariance. -/
def covAt (c : List Word) (i j : Nat) : Word := c.getD (3 * i + j) 0

/-- Nine entries from a function of row and column. -/
def mat3 (f : Nat → Nat → Word) : List Word := (List.range 9).map fun k => f (k / 3) (k % 3)

/-- An anchor sets soc, the counted SoC, and with `v` the RC voltages (R226, R227, R228, R236). -/
def Dev.anchor (d : Dev) (p : Nat) (soc : Word) : Dev := d.onSG p fun x => { x with soc := soc, cnt := soc }

/-! ## The filter step (R225, R226, R233, R235, R236) -/

/-- dt as a fraction of a second: 10 ms, in STANDBY 160,000 cycles at the measured ratio (R221). -/
def Dev.sgDt (d : Dev) (p : Nat) : Nat × Nat :=
  if (d.IC (20 + p)).stdby then (160000 * d.clk.ratio.1, 800000000 * d.clk.ratio.2) else (1, 100)

/-- One Kalman step, in the order R225 writes it. -/
def Dev.kalman (d : Dev) (p : Nat) : Dev :=
  let d := d.ocvRead p
  let x := d.SG p
  let i := d.sgI p
  let t := x.temp
  let dt := d.sgDt p
  let fdt := fRat dt.1 dt.2
  -- the exponential of the quotient as binary32 holds it (R225)
  let a1 := fExp32 (fDiv fdt (fRat (d.rd (SG_TPOL.TPOL1 p)) 100000))
  let a2 := fExp32 (fDiv fdt (fRat (d.rd (SG_TPOL.TPOL2 p)) 1000))
  let one := fInt 1
  let ah := fDiv (fMul i fdt) (fMul (fInt 3600) (d.sgCap p))
  let soc := fSub x.soc ah
  let v1 := fAdd (fMul a1 x.v1) (fMul (fMul (fRat (d.rd (SG_RPOL1_L.VAL p)) 1000000) (fSub one a1)) i)
  let v2 := fAdd (fMul a2 x.v2) (fMul (fMul (fRat (d.rd (SG_RPOL2_L.VAL p)) 1000000) (fSub one a2)) i)
  let f := fun k => if k = 0 then one else if k = 1 then a1 else a2
  let sd := fun k => if k = 0 then fRat (d.rd (SG_FILT.SOC_SD p)) 1000000 else fRat (d.rd (SG_FILT.V_SD p)) 10000
  let cov := mat3 fun r c =>
    let e := fMul (fMul (f r) (covAt x.cov r c)) (f c)
    if r = c then fAdd e (fMul (sd r) (sd r)) else e
  let h := fSub (fSub (fSub (d.ocv p soc t) v1) v2) (fMul (d.sgRser p) i)
  let g := fun k => if k = 0 then d.ocvSlope p soc t else fNeg one
  let m := fRat (d.rd (SG_FILT.MEAS_SD p)) 1000
  let mv := fMul m m
  let mv := if d.on (SG_STATUS.DISAGREE p) then fDiv mv (fInt (2 ^ d.rd (SG_FILT.DIS_SHIFT p))) else mv
  let gc := fun c => fAdd (fAdd (fMul (g 0) (covAt cov 0 c)) (fMul (g 1) (covAt cov 1 c))) (fMul (g 2) (covAt cov 2 c))
  let s := fAdd (fAdd (fAdd (fMul (gc 0) (g 0)) (fMul (gc 1) (g 1))) (fMul (gc 2) (g 2))) mv
  let k := fun r =>
    fDiv (fAdd (fAdd (fMul (covAt cov r 0) (g 0)) (fMul (covAt cov r 1) (g 1))) (fMul (covAt cov r 2) (g 2))) s
  let e := fSub (d.sgV p) h
  let kgc := fun r c =>
    fAdd (fAdd (fMul (fMul (k r) (g 0)) (covAt cov 0 c)) (fMul (fMul (k r) (g 1)) (covAt cov 1 c)))
      (fMul (fMul (k r) (g 2)) (covAt cov 2 c))
  let cov' := mat3 fun r c => fSub (covAt cov r c) (kgc r c)
  d.onSG p fun x =>
    { x with soc := clamp01 (fAdd soc (fMul (k 0) e)), v1 := fAdd v1 (fMul (k 1) e), v2 := fAdd v2 (fMul (k 2) e), cov := cov',
             cnt := fSub x.cnt ah, dq := fAdd x.dq (fDiv (fMul i fdt) (fInt 3600)) }

/-- SOC_REP moves towards SOC_FILT (R233). -/
def Dev.repStep (d : Dev) (p : Nat) : Dev :=
  let x := d.SG p
  let tgt := (fToInt x.soc 655360000 1 0 655360000).toNat
  let step := d.rd (SG_REPORT.REPORT_SLEW p) * 65536 / 6000
  let r := if x.rep + step < tgt then x.rep + step else if tgt + step < x.rep then x.rep - step else tgt
  let r := if d.on (SG_STATUS.DISAGREE p) ∧ r < 6553600 then 6553600 else r
  d.onSG p fun x => { x with rep := r }

/-- DISAGREE at a filter step (R235). -/
def Dev.disagree (d : Dev) (p : Nat) : Dev :=
  let low := fLe (d.SG p).cnt 0
  let high := fLt (fRat (d.rd (SG_VLIM.V_EMPTY p)) 1000) (d.vCorr p)
  if low && high then
    if d.on (SG_STATUS.DISAGREE p) then d
    else ((d.wr (SG_STATUS.DISAGREE p) 1).evt (SG_EVT.EVT p) 6).raise 0x51 p 0x33 6
  else d.wr (SG_STATUS.DISAGREE p) 0

/-- The empty window at a filter step (R236). -/
def Dev.emptyStep (d : Dev) (p : Nat) : Dev :=
  let below := fLt (d.vCorr p) (fRat (d.rd (SG_VLIM.V_EMPTY p)) 1000)
  let pos := fLt 0 (d.SG p).cnt
  d.onSG p fun x => { x with empty := if below && pos then some (x.empty.getD x.per) else none }

/-- One filter step of a present, settled pack (R225, R226, R233, R235, R236). -/
def Dev.filterStep (d : Dev) (p : Nat) : Dev := ((((d.kalman p).disagree p).repStep p).emptyStep p).socShow p

/-! ## The results of a period (R219, R220, R227, R228, R232) -/

/-- The pack temperature at a period (R220). -/
def Dev.sgTemp (d : Dev) (p : Nat) : Dev :=
  let ntc := d.on (SG_CFG.NTC p) && d.owns 0 p 0x33 2
  let x := d.SG p
  let d :=
    if ¬ ntc then d.onSG p fun x => { x with temp := d.rds (SG_CFG.T_FIXED p), tNew := false, tN := 0, tStale := false }
    else if x.tNew then d.onSG p fun x => { x with tNew := false, tN := 0, tStale := false }
    else d.onSG p fun x => { x with tN := x.tN + 1 }
  let d := if (d.SG p).tStale then d.onSG p fun x => { x with temp := d.rds (SG_CFG.T_FIXED p) } else d
  d.wri (SG_TEMPV.TEMP p) (d.SG p).temp

/-- The current result of a period: the rest window follows it (R228). -/
def Dev.sageI (d : Dev) (p : Nat) (code : Int) (ovr : Bool) : Dev :=
  let d := d.onSG p fun x => { x with per := x.per + 1, iCode := code, ovr := ovr, start := if ovr then none else x.start }
  let i10 := clip (-32768) 32767 (divEven (code * 7500000) (8388608 * d.rd (SG_SHUNT.RSHUNT p)))
  let d := d.wri (SG_MEAS.I_PACK p) i10
  if d.on (SG_STATUS.PRESENT p) ∧ d.resting p then
    let d := d.onSG p fun x =>
      if x.restO.isSome then x else { x with restO := some x.per, restId := x.restId + 1 }
    d.wr (SG_STATUS.REST p) 1
  else (d.onSG p fun x => { x with restO := none }).wr (SG_STATUS.REST p) 0

/-- The voltage result of a period: presence is counted, and a present pack runs its filter step (R225, R227). -/
def Dev.sageV (d : Dev) (p code : Nat) (ovr : Bool) : Dev :=
  let v := (clip 0 65535 (divEven ((code * 768 * 1000 : Nat) : Int) (10 * 16777216))).toNat
  let hi := decide (d.rd (SG_REST.PRES_V p) * 10 * 16777216 ≤ code * 768000)
  let d := d.onSG p fun x =>
    { x with vCode := code, hiN := if hi then x.hiN + 1 else 0, loN := if hi then 0 else x.loN + 1, start := if ovr then none else x.start }
  let d := (d.wr (SG_MEAS.V_PACK p) v).sgTemp p
  let d := d.wr (SG_TEMPV.V_CORR p) (fToInt (d.vCorr p) 1000 1 0 65535).toNat
  if d.on (SG_STATUS.PRESENT p) then d.filterStep p else d

/-! ## Integrating converters (07_conversion.md R209-R211) -/

/-- The period that ICV_CFG selects, in Thyme ticks (07_conversion.md R210). -/
def Dev.icvTicks (d : Dev) (n : Nat) : Nat :=
  if 16 ≤ n then 8000000
  else match d.rd (ICV_CFG.PRESET n) with
    | 1 => 16000000
    | 2 => 13333333
    | _ => (clip 800000 800000000 (d.rd (ICV_CFG.PERIOD n) : Int)).toNat

/-- The count of ICV `n`'s counting clock. -/
def Dev.icvCount (d : Dev) (n : Nat) : Nat := if (d.IC n).stdby then d.clk.sb else d.now

/-- ICV `n` measures nothing: its pack has no battery-role channel (07_conversion.md R209). -/
def Dev.icvIdle (d : Dev) (n : Nat) : Bool := decide (16 ≤ n) && (d.packCh ((n - 16) % 4)).isNone

/-- The counting clock of every ICV changes (07_conversion.md R211): the remaining count is converted at the measured ratio, to the
nearest unit. -/
def Dev.icvClock (d : Dev) (stdby : Bool) : Dev :=
  d.forN 24 fun d n =>
    let x := d.IC n
    if x.stdby = stdby then d
    else
      let left := x.opened + x.period - d.icvCount n
      let r := d.clk.ratio
      let left' := if stdby then (divEven ((left * r.2 : Nat) : Int) r.1).toNat else (divEven ((left * r.1 : Nat) : Int) r.2).toNat
      let c := if stdby then d.clk.sb else d.now
      d.onIC n fun _ => { opened := c, period := left', stdby := stdby }

/-- A period of ICV `n` closes with its mean result (07_conversion.md R210, R211; R225). -/
def devIcvPeriodEnd (n : Nat) (code : BitVec 24) (ovr : Bool) (d : Dev) : Dev :=
  let x := d.IC n
  let close := x.opened + x.period
  if d.icvCount n < close then d
  else
    let t := d.icvTicks n
    let len := if x.stdby then (divEven (t : Int) 50).toNat else t
    let d := d.onIC n fun x => { x with opened := close, period := len }
    if d.icvIdle n then d
    else
      let d := ((d.hwWr (ICV_RESULT.NEW n) 1).wr (ICV_RESULT.OVR n) (b2n ovr)).wr (ICV_RESULT.RESULT n) code.toNat
      let d := d.wr (ICV_STAMP.STAMP n) (if x.stdby then 0 else close)
      let d := if x.stdby then (d.winEval (0x800 + n) (code.toNat / 256)).1 else d.deliver (0x800 + n) (code.toNat / 256) (code.toNat % 256) false false (some close)
      if n < 16 then d
      else
        let p := (n - 16) % 4
        if ¬ d.on (SG_CFG.EN p) then d
        else if n < 20 then d.sageI p (sext 24 code.toNat) ovr
        else d.sageV p code.toNat ovr

/-- ICV_PERIOD_END -/
def execIcvPeriodEnd (n : Fin 24) (code : BitVec 24) (ovr : Bool) (s : State) : Host.Outcome State Fault Refusal :=
  .next { s with dev := devIcvPeriodEnd n.val code ovr s.dev }

/-! ## Presence (R227) -/

/-- A second consecutive result at or above PRES_V: settling starts. -/
def devPackInsert (p : Nat) (d : Dev) : Dev :=
  if d.on (SG_CFG.EN p) ∧ 2 ≤ (d.SG p).hiN ∧ ¬ d.on (SG_STATUS.PRESENT p) ∧ (d.SG p).settle.isNone then
    (d.onSG p fun x => { x with settle := some x.per }).wr (SG_STATUS.SETTLING p) 1
  else d

/-- PACK_INSERT -/
def execPackInsert (p : Fin 4) (s : State) : Host.Outcome State Fault Refusal :=
  .next { s with dev := devPackInsert p.val s.dev }

/-- Settling ends after 200 periods: the first estimate. -/
def devSageSettlingEnd (p : Nat) (d : Dev) : Dev :=
  match (d.SG p).settle with
  | none => d
  | some o =>
    if (d.SG p).per < o + 200 then d
    else
      let d := d.ocvRead p
      let soc := d.socOf p (d.vCorr p) (d.SG p).temp
      let d := (d.anchor p soc).onSG p fun x =>
        { x with settle := none, v1 := 0, v2 := 0, rep := (fToInt soc 655360000 1 0 655360000).toNat,
                 cov := mat3 fun r c => if r ≠ c then 0 else if r = 0 then fRat 25 10000 else fRat 1 10000 }
      let d := (((d.wr (SG_STATUS.SETTLING p) 0).wr (SG_STATUS.PRESENT p) 1).wr (SG_STATUS.PROVISIONAL p) 1).socShow p
      d.evt (SG_EVT.EVT p) 0

/-- SAGE_SETTLING_END -/
def execSageSettlingEnd (p : Fin 4) (s : State) : Host.Outcome State Fault Refusal :=
  .next { s with dev := devSageSettlingEnd p.val s.dev }

/-- A second consecutive result below PRES_V: the pack is removed. -/
def devPackRemove (p : Nat) (d : Dev) : Dev :=
  if 2 ≤ (d.SG p).loN ∧ (d.on (SG_STATUS.PRESENT p) ∨ (d.SG p).settle.isSome) then
    let d := ((d.wr (SG_STATUS.PRESENT p) 0).wr (SG_STATUS.SETTLING p) 0).wr (SG_STATUS.REST p) 0
    let d := (d.sageInit p).evt (SG_EVT.EVT p) 1
    (d.onSG p fun x => { x with settle := none, restO := none, start := none, t0 := none, qualified := false, empty := none }).packGone p
  else d

/-- PACK_REMOVE -/
def execPackRemove (p : Fin 4) (s : State) : Host.Outcome State Fault Refusal :=
  .next { s with dev := devPackRemove p.val s.dev }

/-- A hundred periods without a thermistor sample (R220). -/
def devSageTempStale (p : Nat) (d : Dev) : Dev :=
  if 100 ≤ (d.SG p).tN ∧ ¬ (d.SG p).tStale then
    let d := d.onSG p fun x => { x with tStale := true, temp := d.rds (SG_CFG.T_FIXED p) }
    d.raise 0x4C p 0x33 0
  else d

/-- SAGE_TEMP_STALE -/
def execSageTempStale (p : Fin 4) (s : State) : Host.Outcome State Fault Refusal :=
  .next { s with dev := devSageTempStale p.val s.dev }

/-! ## Rest points and capacity learning (R228, R232) -/

/-- A record waits to be written (R238). -/
def Dev.sageRecord (d : Dev) (p : Nat) : Dev := d.wr (SG_STATUS.WB_PENDING p) 1

/-- Capacity learning at a rest point with state of charge `sb` (R232). -/
def Dev.capLearn (d : Dev) (p : Nat) (sb : Word) : Dev :=
  let id := (d.SG p).restId
  let fresh := fun (d : Dev) => d.onSG p fun x => { x with start := some (sb, id), dq := 0 }
  match (d.SG p).start with
  | none => fresh d
  | some (sa, rid) =>
    if rid = id then fresh d
    else
      let span := fSub sa sb
      if fLt (fAbs span) (fRat (d.rd (SG_CAPL.CAP_MIN_SPAN p)) 200) then d
      else
        let cm := fToInt (fDiv (d.SG p).dq span) 100 1 (-(2 ^ 63)) (2 ^ 63)
        let cap : Int := d.rd (SG_CAPACITY.CAP p)
        -- LAST_MEAS and CAP saturate at their 16 bits (DESIGN CHOICE, log 22)
        let d := d.wri (SG_CAPACITY.LAST_MEAS p) (clip 0 65535 cm)
        if d.on (SG_STATUS.SUSPECT_NEXT p) then
          let d := ((d.bump (SG_CNT.CAP_REJ p)).evt (SG_EVT.EVT p) 4).wr (SG_STATUS.SUSPECT_NEXT p) 0
          fresh (d.onSG p fun x => { x with suspect := true })
        else if ((cm - cap).natAbs * 200 : Nat) ≤ cap.toNat * d.rd (SG_CAPL.CAP_TOL p) then
          let new := clip 0 65535 (cap + divZero (cm - cap) (2 ^ d.rd (SG_CAPL.CAP_SHIFT p)))
          let d := (((d.wri (SG_CAPACITY.CAP p) new).bump (SG_CNT.CAP_ACC p)).evt (SG_EVT.EVT p) 3).learned p
          fresh ((d.onSG p fun x => { x with suspect := false, learnT := x.temp }).sageRecord p)
        else
          let d := (d.bump (SG_CNT.CAP_REJ p)).evt (SG_EVT.EVT p) 4
          fresh (d.onSG p fun x => { x with suspect := false })

/-- A rest window completes (R228). -/
def devRestPoint (p : Nat) (d : Dev) : Dev :=
  match (d.SG p).restO with
  | none => d
  | some o =>
    if (d.SG p).per < o + d.rd (SG_REST_T.REST_T p) then d
    else
      let d := d.ocvRead p
      let s := d.socOf p (d.vCorr p) (d.SG p).temp
      let d := (d.anchor p s).onSG p fun x =>
        { x with v1 := 0, v2 := 0, restO := some x.per,
                 cov := mat3 fun r c => if r = 0 ∧ c = 0 then fRat 1 10000 else if r = 0 ∨ c = 0 then 0 else covAt x.cov r c }
      let d := ((d.wr (SG_STATUS.PROVISIONAL p) 0).wr (SG_STATUS.DISAGREE p) 0).evt (SG_EVT.EVT p) 2
      (d.capLearn p s).socShow p

/-- REST_POINT -/
def execRestPoint (p : Fin 4) (s : State) : Host.Outcome State Fault Refusal :=
  .next { s with dev := devRestPoint p.val s.dev }

/-- The empty window completes (R236). -/
def devForcedEmpty (p : Nat) (d : Dev) : Dev :=
  match (d.SG p).empty with
  | none => d
  | some o =>
    if (d.SG p).per < o + 500 then d
    else
      let d := (d.anchor p 0).onSG p fun x => { x with rep := 0, start := none, empty := none }
      ((d.wr (SG_STATUS.SUSPECT_NEXT p) 1).evt (SG_EVT.EVT p) 7 |>.raise 0x52 p 0x33 6).socShow p

/-- FORCED_EMPTY -/
def execForcedEmpty (p : Fin 4) (s : State) : Host.Outcome State Fault Refusal :=
  .next { s with dev := devForcedEmpty p.val s.dev }

/-! ## Records (R238-R241) -/

/-- WB_INTERVAL periods have passed since the last record, and GEN has changed (R238). -/
def devSageRecordBuild (p : Nat) (d : Dev) : Dev :=
  let x := d.SG p
  if d.on (SG_CFG.EN p) ∧ d.rd (SG_GEN.GEN p) ≠ x.lastGen ∧ x.lastPer + d.rd (SG_WB.WB_INTERVAL p) ≤ x.per then d.sageRecord p else d

/-- SAGE_RECORD_BUILD -/
def execSageRecordBuild (p : Fin 4) (s : State) : Host.Outcome State Fault Refusal :=
  .next { s with dev := devSageRecordBuild p.val s.dev }

/-- The record of pack `p` as its learned state now stands (R239). -/
def Dev.sageBytes (d : Dev) (p : Nat) : List Byte :=
  let gen := d.rd (SG_GEN.GEN p)
  let body := leBytes 0x0040 2 ++ leBytes (p + 4 * d.rd (SG_STATUS.VOID p) + 8 * b2n (d.SG p).suspect) 1 ++ leBytes 0 1 ++ leBytes gen 4 ++
    leBytes (d.rd (SG_RSER_L.VAL p)) 4 ++ leBytes (d.rd (SG_RPOL1_L.VAL p)) 4 ++ leBytes (d.rd (SG_RPOL2_L.VAL p)) 4 ++
    leBytes (d.rd (SG_CAPACITY.CAP p)) 2 ++ leBytes (trunc 16 (d.SG p).learnT) 2
  body ++ leBytes (crc32 body) 4 ++ leBytes (2 ^ 32 - 1 - gen) 4

/-- The waiting record is written once its ring and the links are ready, outside STANDBY and keep (R240, R241), and PACK_READs complete
(R243). -/
def devSageRecordWrite (p : Nat) (d : Dev) : Dev :=
  if ¬ d.on (SG_STATUS.WB_PENDING p) ∨ ¬ d.linkUp 7 ∨ d.lowPower then d
  else match d.evTry (d.rd (SG_CFG.EVT_RING p)) (d.sageBytes p) with
    | (d, false) => d
    | (d, true) =>
      let ts := (d.SG p).reads
      let gen := d.rd (SG_GEN.GEN p)
      let d := (d.wr (SG_STATUS.WB_PENDING p) 0).evt (SG_EVT.EVT p) 8
      (d.onSG p fun x => { x with lastGen := gen, lastPer := x.per, reads := [] }).completeAll ts St.success

/-- SAGE_RECORD_WRITE -/
def execSageRecordWrite (p : Fin 4) (s : State) : Host.Outcome State Fault Refusal :=
  .next { s with dev := devSageRecordWrite p.val s.dev }

end Sys2Proof.Machine
end

