-- ==== Sys2Proof/Machine/Convert.lean ====
section
/-! DEFINITION. Interleaved converters: mismatch correction, slice fences, calibration, thermistors, and the scan converters with
their sequencers and injected requests (07_conversion.md R185-R208). -/

namespace Sys2Proof.Machine

/-! ## Slices in service (R191, R192) -/

/-- SHARE and STARVED follow the slices; STARVED raises a NOTE once on entry (R203). -/
def Dev.scvShow (d : Dev) (k : Nat) : Dev :=
  let n := shareSlots (d.scvOut k)
  let d := d.wr (SEQ_STATUS.SHARE k) n
  if n ≠ 0 then d.wr (SEQ_STATUS.STARVED k) 0
  else if d.on (SEQ_STATUS.STARVED k) then d
  else (d.wr (SEQ_STATUS.STARVED k) 1).raise 0x4D (624 + k) (0xD0 + k) 0

/-- LIVE shows the slices not fenced (R190); an SCV with its minimum live again has its ownership entry back (R191;
01_architecture.md R27). -/
def Dev.liveShow (d : Dev) (c : Nat) : Dev :=
  let d := d.wr (CV_STATUS.LIVE c) (d.liveSlices c)
  if c < 624 then d
  else
    let d := if sliceMin c ≤ d.liveSlices c then d.unfenceOwn (ownIx 2 (c - 624)) else d
    d.scvShow (c - 624)

/-- In CONFIGURE only an entry channel that is held on uses its converters; every other loss waits for the unit's first use (R196). -/
def Dev.waitsUse (d : Dev) (c : Nat) : Bool :=
  d.md == Md.configure && !(decide (576 ≤ c ∧ c < 624) && (d.es ((c - 576) / 3) == Ec.on || d.es ((c - 576) / 3) == Ec.armed))

/-- Converter `c` has fallen below its minimum: the unit it serves, if used, raises its fault (R191). -/
def Dev.convLost (d : Dev) (c : Nat) : Dev :=
  if ¬ d.convShort c ∨ d.waitsUse c then d
  else if c < 512 then (match (d.P c).rail with | none => d | some r => d.raise 0x28 c (0x40 + r) 0)
  else if c < 576 then (if d.warp (c - 512) = [] then d else d.raise 0x36 (c - 512) (0x40 + (c - 512)) 0)
  else if c < 624 then d.entLoss ((c - 576) / 3) c
  else d.raise 0x19 c (convAgent c) 0

/-- The first slot of slice `s` of converter `c` at or after tick `t`. -/
def slotFrom (c s t : Nat) : Nat :=
  let per := sliceStep c * sliceCount c
  let o := sliceStep c * s
  t + (o + per - t % per) % per

/-- The next slice of the cycle leaves service at its own first slot and stays out for 1,024 of its slots (R194). -/
def Dev.calNext (d : Dev) (c : Nat) : Dev :=
  match (d.C c).calLeft with
  | [] => d
  | s :: _ =>
    let b := slotFrom c s d.now
    let e := b + 1024 * (sliceStep c * sliceCount c)
    let d := (d.onC c fun x => { x with calStart := b, calEnd := e }).wr (CV_STATUS.CAL_SLICE c) s
    if 624 ≤ c then d.scvShow (c - 624) else d

/-- A slice has left the cycle: the next one follows, unless all calibrate at once, and after the last CAL_STATUS is DONE, or FAILED if one was
fenced (R194, R196). -/
def Dev.calStep (d : Dev) (c : Nat) : Dev :=
  if (d.C c).calLeft ≠ [] then (if (d.C c).calAll then d else d.calNext c)
  else
    let bad := (d.C c).calFail
    let d := (d.onC c fun x => { x with calAll := false }).wr (CV_STATUS.CAL_STATUS c) (if bad then 4 else 3)
    if bad then d else d.evt (CV_EVT.EVT c) 0

/-- A slice that is fenced leaves the cycle, which takes live slices only (R194). -/
def Dev.calDrop (d : Dev) (c s : Nat) : Dev :=
  let l := (d.C c).calLeft
  if ¬ l.contains s then d
  else
    let d := d.onC c fun x => { x with calLeft := l.filter (· ≠ s), calFail := true }
    if l.head? = some s ∨ (d.C c).calLeft = [] then d.calStep c else d

/-- The selvage fences a slice (R191, R189). -/
def Dev.fenceSlice (d : Dev) (c s : Nat) : Dev :=
  if d.rdBit (CV_STATUS.FENCED c) s ∨ sliceCount c ≤ s then d
  else
    let d := (d.wrBit (CV_STATUS.FENCED c) s true).evt (CV_EVT.EVT c) 4
    let d := (d.onC c fun x => { x with limit := nput x.limit s 0 }).calDrop c s
    (d.liveShow c).convLost c

/-! ## Background correction (R188, R189) -/

/-- A correction moves towards an estimate, held in its field's range, by at most 4 codes. -/
def correct (now est : Int) (len : Nat) : Int :=
  let lim : Int := 2 ^ (len - 1)
  let e := clip (-lim) (lim - 1) est
  if now + 4 < e then now + 4 else if e < now - 4 then now - 4 else e

/-- An estimate beyond the range of a field. -/
def beyond (est : Int) (len : Nat) : Bool := decide (est < -(2 ^ (len - 1)) ∨ 2 ^ (len - 1) - 1 < est)

/-- The figures of slice `s` among those given; a slice of which none are given has free ones, since every live slice is estimated (R188;
log 24). -/
def Dev.estimateOf (d : Dev) (c : Nat) (s : Fin 8) (es : List Estimate) : Estimate :=
  let f := fun k => Config.estimate c s d.now k
  (es.find? fun e => e.slice == s).getD { slice := s, ofs := f 0, gain := f 1, skew := some (f 2) }

/-- One slice's estimates at an update (R188, R189). -/
def Dev.correctSlice (d : Dev) (c : Nat) (e : Estimate) : Dev :=
  let s := e.slice.val
  if sliceCount c ≤ s ∨ d.sliceOut c s then d
  else
    let d := d.wri (CV_SLICE.OFS c s) (correct (d.rds (CV_SLICE.OFS c s)) e.ofs 10)
    let d := d.wri (CV_SLICE.GAIN c s) (correct (d.rds (CV_SLICE.GAIN c s)) e.gain 10)
    -- a quiet input holds the estimate of SKEW
    let k := e.skew.getD (KV.get (fun _ => (0 : Int)) (d.C c).skewEst s)
    let d := d.onC c fun x => { x with skewEst := KV.put (fun _ => (0 : Int)) x.skewEst s k }
    let d := d.wri (CV_SLICE.SKEW c s) (correct (d.rds (CV_SLICE.SKEW c s)) k 8)
    let bad := beyond e.ofs 10 || beyond e.gain 10 || beyond k 8
    let d := d.wr (CV_SLICE.AT_LIMIT c s) (b2n bad)
    let now := d.now
    let old := nget (d.C c).limit s
    -- an update on the closing tick or later no longer closes the window (00_scope.md R6)
    let new := if old ≠ 0 ∧ old - 1 + 4000000 ≤ now then old else if bad then (if old = 0 then now + 1 else old) else 0
    let d := d.onC c fun x => { x with limit := nput x.limit s new }
    if bad then d.evt (CV_EVT.EVT c) 3 else d

/-- An update of the estimator of converter `c`, 655,360 ticks after the one before: each live slice moves once; suspended in low-power mode
(R188, R217). -/
def devCorrectionUpdate (c : Nat) (es : List Estimate) (d : Dev) : Dev :=
  let now := d.now
  if ¬ d.clk.hub ∨ d.clk.rootLost ∨ d.convLow c ∨ now < (d.C c).corrAt + 655360 then d
  else (d.onC c fun x => { x with corrAt := now }).forL (List.finRange 8) fun d s => d.correctSlice c (d.estimateOf c s es)

/-- CORRECTION_UPDATE -/
def execCorrectionUpdate (c : Fin 632) (es : List Estimate) (s : State) : Host.Outcome State Fault Refusal :=
  .next { s with dev := devCorrectionUpdate c.val es s.dev }

/-- The limit window of a slice has closed with every update beyond range (R189): its address is the slice. -/
def devSliceDrift (c s : Nat) (d : Dev) : Dev :=
  let o := nget (d.C c).limit s
  if o = 0 ∨ d.now < o - 1 + 4000000 then d
  else (d.onC c fun x => { x with limit := nput x.limit s 0 }).raiseAt 0x48 c (convAgent c) 6 4 s

/-- SLICE_DRIFT -/
def execSliceDrift (c : Fin 632) (k : Fin 8) (s : State) : Host.Outcome State Fault Refusal :=
  .next { s with dev := devSliceDrift c.val k.val s.dev }

/-! ## Foreground calibration (R193-R196) -/

/-- The slices of a cycle are settled, and its first slot with them (R194). -/
def Dev.calSet (d : Dev) (c : Nat) (slices : List Nat) : Dev :=
  (d.onC c fun x => { x with calLeft := slices, calFail := false, calAll := false }).calNext c

/-- A cycle starts over some slices (R194): RUNNING from its acceptance (DESIGN CHOICE, log 24). -/
def Dev.calGo (d : Dev) (c : Nat) (slices : List Nat) : Dev := (d.wr (CV_STATUS.CAL_STATUS c) 2).calSet c slices

/-- A deferred calibration is RUNNING from its first slice's first slot (R208), and SHARE follows a slice that leaves (R203). -/
def Dev.calTurn (d : Dev) (c : Nat) : Dev :=
  let x := d.C c
  let d := if d.rd (CV_STATUS.CAL_STATUS c) = 1 ∧ x.calLeft ≠ [] ∧ x.calStart ≤ d.now then d.wr (CV_STATUS.CAL_STATUS c) 2 else d
  if 624 ≤ c then d.scvShow (c - 624) else d

/-- The live slices of converter `c`. -/
def Dev.liveList (d : Dev) (c : Nat) : List Nat := (List.range (sliceCount c)).filter fun s => ! d.rdBit (CV_STATUS.FENCED c) s

/-- A request for foreground calibration (R195, R208). -/
def Dev.calRequest (d : Dev) (c : Nat) : Dev :=
  if d.rd (CV_STATUS.CAL_STATUS c) = 1 ∨ d.rd (CV_STATUS.CAL_STATUS c) = 2 then d.evt (CV_EVT.EVT c) 5
  else if d.liveSlices c - 1 < sliceMin c then (d.wr (CV_STATUS.CAL_STATUS c) 5).evt (CV_EVT.EVT c) 2
  else if 624 ≤ c ∧ d.rd (INJ_STAT.STATE (c - 624)) ≠ 0 then d.wr (CV_STATUS.CAL_STATUS c) 1
  else d.calGo c (d.liveList c)

/-- On CONFIGURE entry every converter calibrates all of its slices at once (R196). -/
def Dev.calAllGo (d : Dev) : Dev :=
  (d.forN 632 fun d c =>
    let now := d.now
    ((d.onC c fun x => { x with calLeft := List.range (sliceCount c), calFail := false, calAll := true, calStart := now, calEnd := now }).wr
      (CV_STATUS.CAL_STATUS c) 2)).forN 8 fun d k => d.scvShow k

/-- Some converter calibrates (R196). -/
def Dev.calibrating (d : Dev) : Bool := (List.range 632).any fun c => d.rd (CV_STATUS.CAL_STATUS c) == 2

/-- UNFENCE of a converter calibrates its fenced slices (R193): a status if it ends at once. -/
def Dev.unfenceConv (d : Dev) (c : Nat) (t : Token) : Dev × Option Nat :=
  let out := (List.range (sliceCount c)).filter fun s => d.rdBit (CV_STATUS.FENCED c) s
  if out = [] then (d, some St.unitNotFenced)
  else
    let d := d.onC c fun x => { x with calUn := x.calUn ++ [{ tok := t, left := out, bad := false }] }
    let more := fun (x : ConvSt) => { x with calLeft := x.calLeft ++ out.filter fun s => ! x.calLeft.contains s }
    -- a deferred cycle takes the fenced slices along when it starts (DESIGN CHOICE, log 24)
    if d.rd (CV_STATUS.CAL_STATUS c) = 2 then (d.onC c more, none)
    else if d.rd (CV_STATUS.CAL_STATUS c) = 1 then (if (d.C c).calLeft = [] then d else d.onC c more, none)
    else (d.calGo c out, none)

/-- The slices that the waiting UNFENCE descriptors of converter `c` name. -/
def Dev.unWaiting (d : Dev) (c : Nat) : List Nat :=
  (List.range (sliceCount c)).filter fun s => (d.C c).calUn.any fun w => w.left.contains s

/-- Slice `s` has passed or failed: an UNFENCE none of whose slices is left completes, CAL_FAILED if one of its own has failed (R193). -/
def Dev.unSlice (d : Dev) (c s : Nat) (ok : Bool) : Dev :=
  let ws := (d.C c).calUn.map fun w =>
    if w.left.contains s then { w with left := w.left.filter (· ≠ s), bad := w.bad || !ok } else w
  let d := d.onC c fun x => { x with calUn := ws.filter fun w => w.left ≠ [] }
  d.forL (ws.filter fun w => w.left = []) fun d w => d.complete w.tok (if w.bad then St.calFailed else St.success)

/-- The calibration of a slice ends with what it needs (R193, R194): within the correction range it is set and returns to service; beyond
it, a live slice raises CAL_FAIL, and a fenced one stays fenced. -/
def devCalSliceEnd (c : Nat) (m : CalResult) (d : Dev) : Dev :=
  let d := d.calTurn c
  match (d.C c).calLeft with
  | [] => d
  | s :: rest =>
    if d.rd (CV_STATUS.CAL_STATUS c) ≠ 2 ∨ d.now < (d.C c).calEnd then d
    else
      let was := d.rdBit (CV_STATUS.FENCED c) s
      let ok := !beyond m.ofs 10 && !beyond m.gain 10
      let d := d.onC c fun x => { x with calLeft := rest, calFail := x.calFail || !ok }
      let d :=
        if ok then
          let d := ((d.wri (CV_SLICE.OFS c s) m.ofs).wri (CV_SLICE.GAIN c s) m.gain).wr (CV_SLICE.AT_LIMIT c s) 0
          (d.onC c fun x => { x with limit := nput x.limit s 0 }).wrBit (CV_STATUS.FENCED c) s false
        else
          let d := d.evt (CV_EVT.EVT c) 1
          if was then d else d.raiseAt 0x49 c (convAgent c) 6 4 s
      ((d.calStep c).liveShow c).unSlice c s ok

/-- CAL_SLICE_END -/
def execCalSliceEnd (c : Fin 632) (m : CalResult) (s : State) : Host.Outcome State Fault Refusal :=
  .next { s with dev := devCalSliceEnd c.val m s.dev }

/-! ## Thermistors (R198, R199) -/

/-- Entry `m` of curve table `c`, in 0.05 C. -/
def Dev.curveAt (d : Dev) (c m : Nat) : Int := sext 16 ((d.word (0x205400 + 0x80 * c + m / 2 * 4)).toNat / 65536 ^ (m % 2))

/-- The temperature of a thermistor code, linear between the entries that bracket it, half to even (R198). -/
def Dev.curveTemp (d : Dev) (c code : Nat) : Int :=
  let m := min 31 (code / 128)
  let a := d.curveAt c m
  let b := d.curveAt c (m + 1)
  divEven (a * 128 + (b - a) * (code - 128 * m : Nat)) 128

/-- SCV `k` reads the two entries of curve table `c` that bracket a code. -/
def Dev.curveRead (d : Dev) (k c code : Nat) : Dev := d.tabRead (0xD0 + k) (0x205400 + 0x80 * c + 2 * min 31 (code / 128)) 4

/-- No sample of a thermistor for 1,280,000 ticks, counted by the entry die: the unit uses T_FIXED, and TEMP_STALE is raised (R199, R217).
Unit n is En below 16, else B(n - 16). -/
def Dev.staleDue (d : Dev) (u : Nat) : Dev :=
  let ovs := fun (t : Option Nat) => decide (t.getD d.clk.entUp + 1280000 ≤ d.clk.ent)
  if u < 16 then
    if d.on (ENT_CFG.TEMP_SRC u) ∧ ¬ (d.E u).stale ∧ ovs (d.E u).tAt then
      (d.onE u fun x => { x with stale := true }).raise 0x4A u (0x80 + u) 0
    else d
  else
    let n := u - 16
    if d.on (BR_CFG.TEMP_SRC n) ∧ ¬ (d.B n).stale ∧ ovs (d.B n).tAt then
      (d.onB n fun x => { x with stale := true }).raise 0x4B n (0x90 + n) 0
    else d

/-- A thermistor has been converted: position 24 + `i` of SCV `k`, or with `alt` its alternate (R197, R199; 08 R220). A sample on the tick
on which the window of the earlier ones closes comes too late to keep it open, and returns the unit to the thermistor (00_scope.md R8). -/
def Dev.thermistor (d : Dev) (k i : Nat) (alt : Bool) (code : Nat) : Dev :=
  let now := d.clk.ent
  if ¬ alt then
    let n := 8 * k + i
    let d := d.curveRead k (d.rd (SCV_AUX.CURVE k) / 4 ^ i % 4) code
    let t := d.curveTemp (d.rd (SCV_AUX.CURVE k) / 4 ^ i % 4) code
    (d.staleDue (16 + n)).onB n fun x => { x with tCase := t, tAt := some now, stale := false }
  else
    let n := 2 * k + i
    let d := d.curveRead k (d.rd (SCV_AUX.ALT_CURVE k) / 4 ^ i % 4) code
    let t := d.curveTemp (d.rd (SCV_AUX.ALT_CURVE k) / 4 ^ i % 4) code
    if n < 12 ∨ d.owns 0 (n - 12) (0x80 + n) 1 then (d.staleDue n).onE n fun x => { x with tCase := t, tAt := some now, stale := false }
    else if d.owns 0 (n - 12) 0x33 2 ∧ d.on (SG_CFG.NTC (n - 12)) then
      let d := d.curveRead k (d.rd (SG_CFG.CURVE (n - 12))) code
      let tp := d.curveTemp (d.rd (SG_CFG.CURVE (n - 12))) code
      d.onSG (n - 12) fun x => { x with temp := tp, tNew := true, tStale := false }
    else d

/-- The window of a thermistor's samples closes (R199). -/
def devTempStale (u : Nat) (d : Dev) : Dev := d.staleDue u

/-- TEMP_STALE -/
def execTempStale (u : Fin 80) (s : State) : Host.Outcome State Fault Refusal :=
  .next { s with dev := devTempStale u.val s.dev }

/-! ## Scan converters (R192, R197, R200-R204) -/

/-- VALUE of a code of a position: branch I is signed (R186). -/
def selValue (pos : Nat) (code : BitVec 12) : Nat := if pos < 8 then trunc 16 (sext 12 code.toNat) else code.toNat

/-- A conversion of a selection that a sequence or an injected request made is delivered, and a thermistor takes note (R199). -/
def Dev.selDeliver (d : Dev) (k pos : Nat) (alt : Bool) (v : Nat) (cal inj : Bool) (stamp : Nat) : Dev :=
  let d := d.deliver (selTag k pos alt) v 0 cal inj (some stamp)
  if 24 ≤ pos then d.thermistor k (pos - 24) (altSel pos alt) v else d

/-- Reserved conversion `q` of SCV `k` (R192; 03_branch_fuses.md R62). -/
def Dev.reserved (d : Dev) (k q : Nat) (code : BitVec 12) : Dev :=
  let n := 8 * k + q % 8
  let cal := d.calFlag (624 + k)
  let v := (d.code (624 + k) (d.slotNow % 4) (q / 8 % 2 == 0) 12 code).toNat
  match q / 8 with
  | 1 => ((d.deliver (brTag n 1) v 0 cal).brVin n v).brUnder n v
  | 3 => (d.deliver (brTag n 2) v 0 cal).onB n fun x => { x with vout := v }
  | _ => (d.deliver (brTag n 0) (trunc 16 (sext 12 v)) 0 cal).brI n (sext 12 v)

/-- The shadow table and LEN replace the active ones (R205). -/
def Dev.seqSwap (d : Dev) (k : Nat) : Dev :=
  if ¬ d.on (SEQ_STATUS.PENDING k) then d
  else
    let x := d.SQ k
    let d := d.forL x.shadow fun d e => d.setWord (SEQ_ENTRY.ENTRY k e.1).off e.2
    let d := (d.wr (SEQ_CFG.LEN k) x.newLen).wr (SEQ_STATUS.PENDING k) 0
    (d.onSQ k fun y => { y with shadow := [], loadOut := [] }).completeAll x.loadOut St.success

/-- The time by which SCV `k` paces its table: ticks, or in low-power mode 50 for each cycle of the standby oscillator (R217). -/
def Dev.scvTime (d : Dev) : Nat := if d.lowPower then 50 * d.clk.sb else d.now

/-- On a change between full rate and low-power mode the delay in progress ends (DESIGN CHOICE, log 24). -/
def Dev.scvRebase (d : Dev) (k : Nat) : Dev :=
  let low := d.lowPower
  let t := d.scvTime
  if (d.SQ k).lowT = low then d else d.onSQ k fun x => { x with lowT := low, due := t, tEnd := t }

/-- A pass starts at `t` (R203-R205). -/
def Dev.passStart (d : Dev) (k t : Nat) : Dev :=
  let d := d.seqSwap k
  let w := d.word (SEQ_SINGLE.POS k).off
  let d := ((d.wr (SEQ_STATUS.ACTIVE k) 1).wr (SEQ_STATUS.ENTRY k) 0).wr (SEQ_STATUS.REP k) 0
  d.onSQ k fun x => { x with pass := some t, due := t, passDone := false, single := w }

/-- The pass of SCV `k` is over: t_e has come. -/
def Dev.passOver (d : Dev) (k : Nat) : Bool := (d.SQ k).passDone && decide ((d.SQ k).tEnd ≤ d.scvTime)

/-- A pass ends at t_e, and with ONCE = 0 the next follows (R203, R204). -/
def Dev.passEnd (d : Dev) (k : Nat) : Dev :=
  let t := (d.SQ k).tEnd
  let d := (d.onSQ k fun x => { x with pass := none, passDone := false }).wr (SEQ_STATUS.ACTIVE k) 0
  if d.on (SEQ_CFG.ONCE k) then d else d.passStart k t

/-- A trigger of the source that TRIG_SRC names, through at most `fuel` ends of passes that trigger each other (R204). A pass whose t_e is
this tick ends first, and its end-of-pass sources fire. -/
def Dev.seqTrig : Nat → Dev → Nat → Dev
  | 0, d, _ => d
  | f + 1, d, k =>
    let d := d.scvRebase k
    let now := d.clk.ent
    if d.rd (SEQ_CFG.MODE k) = 0 ∨ ¬ d.on (SEQ_CFG.ONCE k) ∨ (d.SQ k).trigAt = some now then d
    else
      let d := d.onSQ k fun x => { x with trigAt := some now }
      let ended := d.passOver k
      let d := if ended then d.passEnd k else d
      let t := d.scvTime
      let d :=
        if (d.SQ k).pass.isNone then d.passStart k t
        else
          let d := d.bump (SEQ_CNT.SEQ_OVERRUN k)
          if d.on (SEQ_CFG.OVR_MODE k) then d.passStart k t else d
      if ended then d.forN 8 fun d j => if d.rd (SEQ_CFG.TRIG_SRC j) = 8 + k then Dev.seqTrig f d j else d else d

/-- A trigger of the source that TRIG_SRC names (R204). -/
def Dev.seqTrigger (d : Dev) (k : Nat) : Dev := Dev.seqTrig 9 d k

/-- Every sequencer whose TRIG_SRC names source `src` is triggered (R204). -/
def Dev.seqSource (d : Dev) (src : Nat) : Dev :=
  d.forN 8 fun d k => if d.rd (SEQ_CFG.TRIG_SRC k) = src then d.seqTrigger k else d

/-- A pass whose t_e has come ends, and its end-of-pass sources fire (R204). -/
def Dev.seqOver (d : Dev) (k : Nat) : Dev :=
  let d := d.scvRebase k
  if d.passOver k then (d.passEnd k).seqSource (8 + k) else d

/-- The present entry of the table (R200, R201). -/
def Dev.seqEntry (d : Dev) (k : Nat) : Nat :=
  if d.rd (SEQ_CFG.MODE k) = 1 then
    let w := (d.SQ k).single.toNat
    w % 0x10000000 / 0x10000 * 0x10000 + w % 0x10000 / 0x100 * 0x100 + w % 32 + (if w.testBit 5 then 2 ^ 30 else 0)
  else d.rd (SEQ_ENTRY.ENTRY k (d.rd (SEQ_STATUS.ENTRY k)))

/-- A table conversion in a share slot of slice `s` (R203). -/
def Dev.seqConvert (d : Dev) (k s : Nat) (code : BitVec 12) : Dev :=
  let d := d.seqOver k
  let t := d.scvTime
  let d := if d.rd (SEQ_CFG.MODE k) ≠ 0 ∧ ¬ d.on (SEQ_CFG.ONCE k) ∧ (d.SQ k).pass.isNone then d.passStart k t else d
  let x := d.SQ k
  if d.rd (SEQ_CFG.MODE k) = 0 ∨ x.pass.isNone ∨ x.passDone ∨ t < x.due then d
  else
    let w := d.seqEntry k
    let e := d.rd (SEQ_STATUS.ENTRY k)
    let now := d.now
    let wait := 4 * bits w 27 16
    let rep := d.rd (SEQ_STATUS.REP k) + 1
    let len := if d.rd (SEQ_CFG.MODE k) = 1 then 0 else d.rd (SEQ_CFG.LEN k)
    let pos := w % 32
    let d := d.selDeliver k pos (w.testBit 30) (selValue pos (d.code (624 + k) s (decide (pos < 8)) 12 code)) (d.calFlag (624 + k)) false now
    let d := d.onSQ k fun x => { x with last := some t, due := max (t + 1) (t + wait) }
    if rep ≤ bits w 15 8 then d.wr (SEQ_STATUS.REP k) rep
    else if e < len then (d.wr (SEQ_STATUS.REP k) 0).wr (SEQ_STATUS.ENTRY k) (e + 1)
    else (d.wr (SEQ_STATUS.REP k) rep).onSQ k fun x => { x with passDone := true, tEnd := t + max 20 wait }

/-- A slot of SCV `k` converts: a reserved conversion; else an injected one takes the share slot ahead of the table (R192, R203, R207). In
low-power mode the table runs alone, on slice 0 (R217). -/
def devScvConversion (k slot : Nat) (code : BitVec 12) (d : Dev) : Dev :=
  let c := 624 + k
  if ¬ d.onGrid c then d
  else if d.lowPower then
    let d := d.takeInst c
    if d.sliceOut c 0 then d else d.seqConvert k 0 code
  else if slot ≠ d.slotNow then d
  else
    let d := (d.calTurn c).takeInst c
    if d.sliceOut c (slot % 4) then d
    else match d.reservedNow k with
      | some q => d.reserved k q code
      | none =>
        if d.rd (INJ_STAT.STATE k) = 1 then
          let now := d.now
          let pos := (d.SQ k).injSel % 32
          let v := selValue pos (d.code c (slot % 4) (decide (pos < 8)) 12 code)
          let cal := d.calFlag c
          (d.wr (INJ_STAT.STATE k) 2).onSQ k fun x => { x with injIns := now, injVal := v, injCal := cal }
        else d.seqConvert k (slot % 4) code

/-- SCV_CONVERSION -/
def execScvConversion (k : Fin 8) (slot : Fin 64) (code : BitVec 12) (s : State) : Host.Outcome State Fault Refusal :=
  .next { s with dev := devScvConversion k.val slot.val code s.dev }

/-- The reserved conversion of branch `n` that the present slot carries, with the code of its quantity: I twice in a frame, VIN and VOUT once
each (R62, R65, R192). In a slot that carries none of its conversions the branch has no sample. -/
def devBrSample (n : Nat) (i : BitVec 12) (vin vout : Option (BitVec 12)) (d : Dev) : Dev :=
  let k := n / 8
  let c := 624 + k
  if d.lowPower ∨ ¬ d.onGrid c then d
  else
    let d := d.calTurn c
    match d.reservedNow k with
    | none => d
    | some q =>
      if q % 8 ≠ n % 8 then d
      else
        let d := d.takeInst c
        let code := match q / 8 with | 1 => vin | 3 => vout | _ => some i
        if d.sliceOut c (d.slotNow % 4) then d
        else match code with
          | none => d
          | some v => d.reserved k q v

/-- BR_SAMPLE -/
def execBrSample (n : Fin 64) (i : BitVec 12) (vin vout : Option (BitVec 12)) (s : State) : Host.Outcome State Fault Refusal :=
  .next { s with dev := devBrSample n.val i vin vout s.dev }

/-- SEQ_PASS_END: a pass ends at t_e (R203, R204). -/
def devSeqPassEnd (k : Nat) (d : Dev) : Dev := d.seqOver k

/-- SEQ_PASS_END -/
def execSeqPassEnd (k : Fin 8) (s : State) : Host.Outcome State Fault Refusal :=
  .next { s with dev := devSeqPassEnd k.val s.dev }

/-! ## Injected requests (R206-R208) -/

/-- A write to INJ_REQ by an agent (R206, R207). -/
def Dev.injRequest (d : Dev) (a k sel : Nat) : Dev :=
  if ¬ d.owns 2 k a 1 ∧ ¬ d.owns 2 k a 2 then (d.wr (INJ_STAT.REFUSED k) 1).wr (INJ_STAT.DROPPED k) 0
  else
    let d := d.wr (INJ_STAT.REFUSED k) 0
    if d.rd (INJ_STAT.STATE k) ≠ 0 then (d.bump (SEQ_CNT.INJ_DROP k)).wr (INJ_STAT.DROPPED k) 1
    else
      let now := d.now
      (((d.wr (INJ_STAT.DROPPED k) 0).wr (INJ_STAT.DONE k) 0).wr (INJ_STAT.STATE k) 1).onSQ k fun x => { x with injAt := now, injSel := sel }

/-- An injected result is ready, 80 ticks after its instant; a deferred calibration then has its first slot (R207, R208). -/
def devInjResult (k : Nat) (d : Dev) : Dev :=
  let x := d.SQ k
  if d.rd (INJ_STAT.STATE k) ≠ 2 ∨ d.now < x.injIns + 80 then d
  else
    let d := ((d.wr (INJ_STAT.RESULT k) x.injVal).wr (INJ_STAT.DONE k) 1).wr (INJ_STAMP.STAMP k) x.injIns
    let d := d.selDeliver k (x.injSel % 32) (x.injSel.testBit 5) x.injVal x.injCal true x.injIns
    let d := d.wr (INJ_STAT.STATE k) 0
    let c := 624 + k
    if d.rd (CV_STATUS.CAL_STATUS c) = 1 ∧ (d.C c).calLeft = [] then
      let live := d.liveList c
      d.calSet c (live ++ (d.unWaiting c).filter fun s => ! live.contains s)
    else d

/-- INJ_RESULT -/
def execInjResult (k : Fin 8) (s : State) : Host.Outcome State Fault Refusal :=
  .next { s with dev := devInjResult k.val s.dev }

end Sys2Proof.Machine
end

