-- ==== Sys2Proof/Machine/Weft.lean ====
section
/-! DEFINITION. The switching-period boundary: masks, the reed, the heddle, rotation, the wake and its end, joins, leaves and the interleave
(05_phase_management.md R128-R139; 06_load_intent.md R164, R168). -/

namespace Sys2Proof.Machine

/-! ## Orders -/

/-- Insert a phase in ascending order of heat, ties by number. -/
def insHeat (heat : Nat → Nat) (p : Nat) : List Nat → List Nat
  | [] => [p]
  | q :: l => if heat p < heat q ∨ (heat p = heat q ∧ p < q) then p :: q :: l else q :: insHeat heat p l

/-- Phases by ascending heat, ties by ascending number. -/
def byHeat (heat : Nat → Nat) (ps : List Nat) : List Nat := ps.foldl (fun l p => insHeat heat p l) []

/-- The heat of a phase. -/
def Dev.heat (d : Dev) (p : Nat) : Nat := (d.P p).heat

/-- The hottest first, ties by descending number. -/
def Dev.hotFirst (d : Dev) (ps : List Nat) : List Nat := (byHeat d.heat ps).reverse

/-- Insert a phase in ascending order of number. -/
def insNum (p : Nat) : List Nat → List Nat
  | [] => [p]
  | q :: l => if p < q then p :: q :: l else q :: insNum p l

/-- Phases in ascending order of number. -/
def sortNum (ps : List Nat) : List Nat := ps.foldl (fun l p => insNum p l) []

/-! ## The reed (R134, R135) -/

/-- The mean of a sum over a count, rounded toward zero; 0 of nothing. -/
def meanOf (sum : Int) (n : Nat) : Int := if n = 0 then 0 else divZero sum n

/-- iavg and HEAT at a boundary (R134, R138): iavg is 0 for a phase that was not active in the period. -/
def Dev.periodMeans (d : Dev) (r : Nat) : Dev :=
  let sh := 2 ^ d.rd (HED_CFG.HEAT_SHIFT r)
  d.forL (d.warp r) fun d p =>
    let x := d.P p
    let avg := if x.active then meanOf x.acc x.cnt else 0
    let h : Int := x.heat
    let d := (d.wri (PH_IAVG.IAVG p) avg).setHeat p (h + divZero ((avg.natAbs : Int) - h) sh).toNat
    d.onP p fun x => { x with acc := 0, cnt := 0, iavg := avg }

/-- The SHARE window of a phase after a reed update (R135). -/
def Dev.shareUpd (d : Dev) (r p : Nat) : Dev :=
  let lim := d.rd (REED_LIM.TRIM_MAX r) * 65536
  let now := d.now
  let s := winUpd now (d.P p).share (d.rd (SHARE_TIME.VAL r)) (decide ((d.P p).delta.natAbs = lim))
  d.onP p fun x => { x with share := s }

/-- The reed at a boundary in RUN (R134): not while a catch is active; with REED_EN = 0 every trim is 0. -/
def Dev.reed (d : Dev) (r : Nat) : Dev :=
  if ¬ d.on (PH_CFG.REED_EN r) then d.forL (d.warp r) fun d p => d.setDelta p 0
  else if d.rs r ≠ Rs.run ∨ (d.R r).catU.isSome ∨ (d.R r).catO.isSome then d
  else
    let ps := (d.activeSet r).filter fun p => (d.P p).active
    let n := ps.length
    let m := meanOf (ps.foldl (fun s p => s + (d.P p).iavg) 0) n
    let k : Int := d.rd (REED_GAIN.REED_K r)
    let new := ps.map fun p => (p, (d.P p).delta + divZero (k * (m - (d.P p).iavg)) 65536)
    let dm := meanOf (new.foldl (fun s x => s + x.2) 0) n
    let lim : Int := (d.rd (REED_LIM.TRIM_MAX r) : Int) * 65536
    d.forL new fun d x => (d.setDelta x.1 (clip (-lim) lim (x.2 - dm))).shareUpd r x.1

/-! ## The heddle (R136-R138) -/

/-- I_UP(n) of the efficiency table in effect for a rail (R136). -/
def Dev.iUp (d : Dev) (r n : Nat) : Nat := ((d.R r).effNow.getD ((n - 1) / 2) 0).toNat / 65536 ^ ((n - 1) % 2) % 65536

/-- The smallest N from 1 to `top` whose I_UP exceeds a current, else `top` (R137; 06_load_intent.md R164). -/
def Dev.needPhases (d : Dev) (r : Nat) (i : Int) (top : Nat) : Nat :=
  (((List.range top).map (· + 1)).find? fun n => decide (i < (d.iUp r n : Int))).getD top

/-- The efficiency table of a rail as the registers hold it. -/
def Dev.effWords (d : Dev) (r : Nat) : List Word :=
  (List.range 32).map fun k => d.word (0x10C000 + 0x80 * d.rd (PH_CFG.EFF_TABLE r) + 4 * k)

/-- A rail's die reads the efficiency table that the rail names. -/
def Dev.effRead (d : Dev) (r : Nat) : Dev := d.tabRead (0x40 + r) (0x10C000 + 0x80 * d.rd (PH_CFG.EFF_TABLE r)) 128 (r / 16)

/-- I_f at a boundary in RUN (R137). -/
def Dev.heddleFilter (d : Dev) (r : Nat) : Dev :=
  let x := d.R r
  let m := if x.iCnt = 0 then x.iSum else meanOf x.iAcc x.iCnt
  let f := if x.iFok then x.iF + divZero (m - x.iF) (2 ^ d.rd (HED_CFG.HED_SHIFT r)) else m
  d.onR r fun x => if d.rs r = Rs.run then { x with iF := f, iFok := true } else x

/-! ## The wake (06_load_intent.md R164, R168) -/

/-- The idle phases that a wake for the current `need`, in 1/16 A, adds to the active set at this boundary (R164). Those an earlier wake of
the boundary has taken count as active. -/
def Dev.wakeTake (d : Dev) (r : Nat) (need : Int) : List Nat :=
  let taken := d.wokenAll r
  let av := (d.availSet r).filter fun p => d.ps p = Ps.idle ∧ ! taken.contains p
  let tgt := d.needPhases r need (d.availSet r).length
  let inMask := byHeat d.heat (av.filter (d.maskBit r))
  let outMask := if d.on (SPEC_CONF.WAKE_MASKED r) then byHeat d.heat (av.filter fun p => ! d.maskBit r p) else []
  let joining := (taken.filter fun p => d.avail p && d.ps p == Ps.idle).length
  (inMask ++ outMask).take (tgt - (d.activeSet r).length - joining)

/-- The `k`-th earlier hold wakes its phases, if its wake is due (R164). -/
def Dev.wakeHold (d : Dev) (r k : Nat) : Dev :=
  match (d.R r).holds[k]? with
  | none => d
  | some h => match h.wakeAt with
    | none => d
    | some t =>
      if d.now < t then d
      else
        let more := d.wakeTake r h.need
        d.onR r fun x => { x with holds := x.holds.set k { h with wakeAt := none, ps := h.ps ++ more } }

/-- The wakes that are due at this boundary, the first at or after max(t_acc, T_step - WAKE_LEAD): the shuttle takes idle phases to be added
to the active set, from the sets as they stand on the boundary (R132, R164). A confirmed speculation wakes within its hold, also after
another has followed it, a retracted one until its woken phases leave. -/
def Dev.wake (d : Dev) (r : Nat) : Dev :=
  let d := d.forN (d.R r).holds.length fun d k => d.wakeHold r k
  match (d.R r).spec with
  | none => d.wokenShow r
  | some s =>
    let live : Bool := s.opn || (match s.holdEnd with | some t => decide (d.now < t) | none => s.shedAt.isSome)
    if ¬ live ∨ d.wakes r s = false ∨ d.now < d.wakeDue r s then d.wokenShow r
    else
      let more := d.wakeTake r (s.iBase + 4 * s.di)
      (d.onSpec r fun s => { s with woke := true, woken := s.woken ++ more }).wokenShow r

/-- The holds that have closed by now release their phases to the mask or the heddle (R167). -/
def Dev.holdsEnd (d : Dev) (r : Nat) : Dev :=
  let now := d.now
  let d := d.onR r fun x =>
    { x with holds := x.holds.filter fun h => decide (now < h.close)
             spec := x.spec.map fun s => match s.holdEnd with
               | none => s
               | some t => if now < t then s else { s with woken := [], holdEnd := none } }
  d.wokenShow r

/-- The woken phases of a retraction that leave together at the first boundary at or after t_close + SHED_HOLD: all but those the
mask or the heddle's N_req keeps (R168). -/
def Dev.wakeEnd (d : Dev) (r : Nat) (managed : Bool) : Dev × List Nat :=
  match (d.R r).spec with
  | none => (d, [])
  | some s =>
    match s.shedAt with
    | none => (d, [])
    | some t =>
      if d.now < t then (d, [])
      else
        let act := d.activeSet r
        let woken := s.woken.filter fun p => act.contains p
        let out := woken.filter fun p => ! d.maskBit r p
        let gone :=
          if managed then
            let req := max (d.needPhases r (d.R r).iF (d.allowed r).length) (d.minPhases r)
            (d.hotFirst (woken.filter (d.maskBit r))).take (act.length - out.length - req)
          else []
        let d := d.onSpec r fun s => { s with woken := [], shedAt := none, woke := true }
        let d := (d.wokenShow r).specTidy r
        let still := d.wokenAll r
        (d, (out ++ gone).filter fun p => ! still.contains p)

/-! ## The selection (R129, R137) -/

/-- The phases outside the mask that still fill the active set: all go once the allowed set alone holds MIN_PHASES (R129). -/
def Dev.fillNow (d : Dev) (r : Nat) : List Nat :=
  if d.minPhases r ≤ (d.allowed r).length then [] else (d.R r).filled.filter d.avail

/-- The phases the heddle keeps in service, from those now active and allowed (R137): added at once, removed one at a time. -/
def Dev.heddle (d : Dev) (r : Nat) : Dev × List Nat :=
  let al := d.allowed r
  let woken := (d.wokenAll r).filter d.avail
  let act := (d.activeSet r).filter fun p => al.contains p || woken.contains p || (d.fillNow r).contains p
  let act := act ++ woken.filter fun p => ! act.contains p
  let mn := d.minPhases r
  let f := (d.R r).iF
  let req := max (d.needPhases r f al.length) mn
  if act.length < req then
    let more := (byHeat d.heat (al.filter fun p => d.ps p = Ps.idle ∧ ¬ act.contains p)).take (req - act.length)
    (d.onR r fun x => { x with dwell := none }, act ++ more)
  else if mn < act.length ∧ f < (d.iUp r (act.length - 1) : Int) - d.rd (HED_CFG.HED_HYST r) then
    let now := d.now
    let o := (d.R r).dwell.getD now
    -- while woken phases are held active, the heddle removes none (R139)
    if o + d.rd (HED_DWELL.VAL r) ≤ now ∧ woken = [] then
      let gone := (d.hotFirst act).headD 0
      ((d.onR r fun x => { x with dwell := none }).evt (RPH_EVT.EVT r) 6, act.filter (· ≠ gone))
    else (d.onR r fun x => { x with dwell := some o }, act)
  else (d.onR r fun x => { x with dwell := none }, act)

/-- Thermal rotation (R138): the coolest allowed IDLE phase replaces the hottest active one; not while woken phases are held (R139). -/
def Dev.rotate (d : Dev) (r : Nat) (act : List Nat) : Dev × List Nat :=
  let per := d.rd (ROT_CFG.ROT_PERIOD r)
  let n := (d.R r).rotN
  let idle := (d.allowed r).filter fun p => d.ps p = Ps.idle ∧ ¬ act.contains p
  let held := (d.wokenAll r).any d.avail
  if ¬ d.on (PH_CFG.ROT_EN r) ∨ per = 0 ∨ n < per ∨ idle = [] ∨ held = true then (d, act)
  else
    let d := d.onR r fun x => { x with rotN := 0 }
    -- ties go to the lowest number
    let top := act.foldl (fun m p => max m (d.heat p)) 0
    let hot := ((byHeat (fun p => top - d.heat p) act).head?)
    let cool := ((byHeat d.heat idle).head?)
    match hot, cool with
    | some a, some b =>
      if d.heat b + d.rd (ROT_CFG.ROT_HYST r) ≤ d.heat a then (d.evt (RPH_EVT.EVT r) 5, b :: act.filter (· ≠ a)) else (d, act)
    | _, _ => (d, act)

/-! ## Interleave (R130, R131) -/

/-- The target centre of the k-th of n active phases (R130). -/
def Dev.target (d : Dev) (r k n : Nat) : Nat :=
  let per := 8 * d.rd (RAIL_PERIOD.PERIOD r)
  (8 * d.rd (PH_CFG.ROT_OFFSET r) + (divEven ((k * per : Nat) : Int) n).toNat) % per

/-- The centre at step `j` of a move of 8 (R130). -/
def moveCentre (per old new j : Nat) : Nat :=
  let delta : Int := (((new : Int) - old + (per / 2 : Nat)) % (per : Nat)) - (per / 2 : Nat)
  (((old : Int) + divZero (delta * j) 8) % (per : Nat)).toNat

/-- One step of a move for every phase in service (R130). -/
def Dev.moveStep (d : Dev) (r j : Nat) (ps : List Nat) : Dev :=
  let per := 8 * d.rd (RAIL_PERIOD.PERIOD r)
  d.forL ps fun d p => d.wr (PH_CENTRE.CENTRE p) (moveCentre per (d.P p).cOld (d.P p).cNew j)

/-- A re-interleave starts: continuing phases begin their move, joining phases take their targets (R130). -/
def Dev.interleave (d : Dev) (r : Nat) (old act : List Nat) : Dev :=
  let n := act.length
  let cont := act.filter fun p => old.contains p
  let d := d.forL act.zipIdx fun d x =>
    let c := d.target r x.2 n
    if old.contains x.1 then
      let o := d.rd (PH_CENTRE.CENTRE x.1)
      d.onP x.1 fun y => { y with cOld := o, cNew := c }
    else (d.wr (PH_CENTRE.CENTRE x.1) c).onP x.1 fun y => { y with cOld := c, cNew := c }
  let d := d.onR r fun x => { x with moveN := false }
  if cont = [] then (d.onR r fun x => { x with move := 0 }).wr (PH_STATUS.REINT r) 0
  else ((d.onR r fun x => { x with move := 7 }).wr (PH_STATUS.REINT r) 1).moveStep r 1 cont

/-- A move in progress takes its next step; the eighth ends it (R130, R131). -/
def Dev.moveOn (d : Dev) (r : Nat) (act : List Nat) : Dev :=
  let left := (d.R r).move
  if left = 0 then d
  else
    let d := (d.moveStep r (9 - left) act).onR r fun x => { x with move := left - 1 }
    if left = 1 then (d.wr (PH_STATUS.REINT r) 0).evt (RPH_EVT.EVT r) 1 else d

/-- The centres after the active set has gone from `old` to `act` (R130, R131): another size or a withdrawal starts a
re-interleave; the same size pairs joiners with leavers in order, and during a move starts a new one from the centres in force
(log 43). -/
def Dev.centres (d : Dev) (r : Nat) (old act : List Nat) : Dev :=
  let join := act.filter fun p => ! old.contains p
  let gone := old.filter fun p => ! act.contains p
  if old.length ≠ act.length ∨ (d.R r).moveN then d.interleave r old act
  else
    let d := d.forL (join.zip gone) fun d x =>
      let c := d.rd (PH_CENTRE.CENTRE x.2)
      (d.wr (PH_CENTRE.CENTRE x.1) c).onP x.1 fun y => { y with cOld := c, cNew := c }
    if (d.R r).move ≠ 0 ∧ join ≠ [] then d.interleave r act act else d.moveOn r act

/-! ## The boundary (R128, R129, R132) -/

/-- Phases outside the mask are added, lowest number first, until the active set holds MIN_PHASES (R129). -/
def Dev.maskFill (d : Dev) (r : Nat) (act : List Nat) : Dev × List Nat :=
  let mn := d.minPhases r
  let fill := d.fillNow r
  let act := act ++ fill.filter fun p => ! act.contains p
  let more :=
    if (d.allowed r).length < mn ∧ mn ≤ (d.availSet r).length then
      ((d.availSet r).filter fun p => ! d.maskBit r p && ! act.contains p).take (mn - act.length)
    else []
  let d := d.onR r fun x => { x with filled := fill ++ more }
  let d := d.wr (PH_STATUS.MASK_FILL r) (b2n (decide (fill ++ more ≠ [])))
  (if more = [] then d else d.evt (RPH_EVT.EVT r) 2, act ++ more)

/-- A phase joins at the boundary on step `b`: no trim, and its first pulse in the first period window that opens at or after it (R132). A
phase has no state named ON: ACTIVE opens no COUNT_CLEAR window (03_branch_fuses.md R76; DESIGN CHOICE, log 48). -/
def Dev.join (d : Dev) (r p b : Nat) : Dev :=
  let old := d.P p
  let prev := if old.lead < old.trail then (old.lead, old.trail) else (old.pLead, old.pTrail)
  let d := (d.wr (PH_STATE.STATE p) Ps.active).setDelta p 0
  let on := d.onTime r p
  let c := d.centreAt r p b
  d.onP p fun x =>
    { x with leave := none, on := on, joinAt := b, share := none, win := some (c - d.perSteps r), lead := 0, trail := 0,
             pLead := prev.1, pTrail := prev.2 }

/-- A phase leaves at the end of the period window in progress at the boundary on step `b` (R132). -/
def Dev.leave (d : Dev) (r p b : Nat) : Dev :=
  let per := 8 * d.rd (RAIL_PERIOD.PERIOD r)
  let e := d.centreAt r p b + per / 2
  let now := d.now
  d.onP p fun x => { x with leave := some (max now ((e + 31) / 32)) }

/-- The interpolation step, within the present tick, at which the period counter of rail `r` wraps to 0 (04_rail_loom.md R87). -/
def Dev.boundaryStep (d : Dev) (r : Nat) : Option Nat :=
  match (d.R r).t0 with
  | none => none
  | some t0 =>
    let per := d.perSteps r
    let off := 32 * (d.now - t0)
    let k := (off + per - 1) / per
    if t0 < d.now ∧ 0 < per ∧ k * per < off + 32 then some (32 * t0 + k * per) else none

/-- The active set that the weft forms at a boundary of a rail that switches (R128, R129, R137-R139; 06_load_intent.md R164, R168). -/
def Dev.select (d : Dev) (r : Nat) : Dev × List Nat :=
  let managed := 2 ≤ (d.R r).strat ∧ d.rs r = Rs.run
  let (d, gone) := (d.wake r).wakeEnd r managed
  let woken := (d.wokenAll r).filter d.avail
  let (d, act) := if managed then d.heddle r
    else (d, d.allowed r ++ woken.filter fun p => ! (d.allowed r).contains p)
  let act := act.filter fun p => ! gone.contains p
  let (d, act) := d.maskFill r act
  let (d, act) := if managed then d.rotate r act else (d, act)
  (d, sortNum act)

/-- What the weft does at a switching-period boundary of rail `r` on step `b` (R128-R138): with the phases not yet switching in START none is
ACTIVE (R127; 04_rail_loom.md R111). -/
def Dev.weft (d : Dev) (r b : Nat) : Dev :=
  let d := (d.maskSwap r).coefSwap r |>.coefNext r
  let d := if (d.R r).effPend then d.effRead r else d
  let eff := d.effWords r
  let d := d.onR r fun x => if x.effPend then { x with effNow := eff, effPend := false } else x
  let d := (d.forL (d.warp r) fun d p => d.leaveDone p).periodMeans r
  let d := (d.reed r).holdsEnd r
  let d := (d.heddleFilter r).onR r fun x => { x with iAcc := 0, iCnt := 0, rotN := x.rotN + 1 }
  let old := d.activeSet r
  let (d, act) := if d.switching r then d.select r else (d, [])
  let d := d.centres r old act
  let d := d.forL (old.filter fun p => ! act.contains p) fun d p => d.leave r p b
  let d := d.forL (act.filter fun p => ! old.contains p) fun d p => d.join r p b
  let d := d.forL act fun d p => d.onP p fun x => { x with active := true }
  let d := d.forL ((d.warp r).filter fun p => ! act.contains p) fun d p => d.onP p fun x => { x with active := false }
  d.warpShow r

/-- A boundary of a rail in OFF or FENCED: its counter runs on, so the heat estimates and the count of boundaries follow and a loaded
efficiency table takes effect (R136, R138; 04_rail_loom.md R87). -/
def Dev.idleBoundary (d : Dev) (r : Nat) : Dev :=
  let d := if (d.R r).effPend then d.effRead r else d
  let eff := d.effWords r
  (d.onR r fun x =>
    { x with effNow := if x.effPend then eff else x.effNow, effPend := false, iAcc := 0, iCnt := 0, rotN := x.rotN + 1 }).periodMeans r

/-- A switching-period boundary of rail `r`, once on the tick on which its counter wraps (04_rail_loom.md R87); a rail with no warp has
none (R128). -/
def devSwitchingPeriodBoundary (r : Nat) (d : Dev) : Dev :=
  match d.boundaryStep r with
  | none => d
  | some b =>
    if (d.R r).lastB = some d.now ∨ d.warp r = [] then d
    else
      let now := d.now
      let d := (d.stages r).onR r fun x => { x with lastB := some now }
      if d.rLive r then d.weft r b else d.idleBoundary r

/-- SWITCHING_PERIOD_BOUNDARY -/
def execSwitchingPeriodBoundary (r : Fin 64) (s : State) : Host.Outcome State Fault Refusal :=
  .next { s with dev := devSwitchingPeriodBoundary r.val s.dev }

end Sys2Proof.Machine
end

