-- ==== Sys2Proof/Machine/Intent.lean ====
section
/-! DEFINITION. Intent ports: load frames, replies and reports, and the life of a speculation outside the samples (06_load_intent.md
R148-R181). -/

namespace Sys2Proof.Machine

/-! ## Port states (R155, R156) -/

/-- The rails bound to port `n` lose their open speculations and shadow evaluations (R169, R179). -/
def Dev.ipCancel (d : Dev) (n : Nat) : Dev := d.forL (d.boundRails n) fun d x => d.cancelSpec x.2

/-- Port `n` enters a state; what the new state does not keep is dropped (R151, R154, R155). A block of 64 received frames starts anew after
SEEK, FENCED and DISABLED: R156 does not say whether a block runs on across them (DESIGN CHOICE, log 43). -/
def Dev.ipGo (d : Dev) (n st : Nat) : Dev :=
  let d := d.wr (IP_STATUS.STATE n) st
  if st = Ip.up then d
  else if st = Ip.silent then d.onIP n fun x => { x with lastSeq := none, silence := none }
  else d.onIP n fun x => { x with lastSeq := none, silence := none, txQ := [], blkN := 0, blkBad := 0 }

/-- An enabled port acquires in RAMP, RUN and HOLDUP; otherwise it is DISABLED (R155). -/
def Dev.ipMode (d : Dev) (n : Nat) : Dev :=
  let want := d.on (IP_CFG.EN n) && d.active
  if d.ipSt n = Ip.fenced then d
  else if want then (if d.ipSt n = Ip.disabled then d.ipGo n Ip.seek else d)
  else if d.ipSt n = Ip.disabled then d
  else
    let now := d.now
    ((d.ipGo n Ip.disabled).onIP n fun x => { x with offAt := some now }).ipCancel n

/-- The selvage fences port `n` (R155, R156, R179). On the tick that disables the port the fence, which precedes, is taken; CONFIGURE ends
it again (R155). -/
def Dev.fencePort (d : Dev) (n : Nat) : Dev :=
  let off := d.ipSt n == Ip.disabled && (decide (d.md = Md.configure) || (d.IP n).offAt != some d.now)
  if off = true ∨ d.ipSt n = Ip.fenced then d
  else ((d.ipGo n Ip.fenced).evt (IP_EVT.EVT n) 5).ipCancel n

/-- UNFENCE of a port (R155; 09_faults.md R264). -/
def Dev.unfencePort (d : Dev) (n : Nat) : Dev × Nat :=
  if d.ipSt n ≠ Ip.fenced then (d, St.unitNotFenced)
  else (d.ipGo n (if d.on (IP_CFG.EN n) ∧ d.active then Ip.seek else Ip.disabled), St.success)

/-- The master agent of a port's faults: the lowest-numbered rail bound to it (R156). -/
def Dev.ipAgent (d : Dev) (n : Nat) : Nat :=
  match d.boundRails n with
  | [] => 0x40
  | x :: l => 0x40 + l.foldl (fun m y => if y.2 < m then y.2 else m) x.2

/-- Port `n` receives: it is in SEEK, UP or SILENT. -/
def Dev.ipRx (d : Dev) (n : Nat) : Bool := d.ipSt n == Ip.seek || d.ipSt n == Ip.up || d.ipSt n == Ip.silent

/-- A frame is counted in the port's block of 64; the eighth BAD frame of a block raises INTENT_LINK (R156). -/
def Dev.ipBlock (d : Dev) (n : Nat) (bad : Bool) : Dev :=
  let x := d.IP n
  let b := x.blkBad + b2n bad
  let d := d.onIP n fun x => if x.blkN = 63 then { x with blkN := 0, blkBad := 0 } else { x with blkN := x.blkN + 1, blkBad := b }
  if bad ∧ b = 8 then d.raise 0x41 n (d.ipAgent n) 0 else d

/-- A discarded frame (R150). -/
def devIntentFrameBad (n : Nat) (d : Dev) : Dev :=
  if d.ipRx n then (d.bump (IP_CNT.BAD n)).ipBlock n true else d

/-- INTENT_FRAME_BAD -/
def execIntentFrameBad (n : Fin 32) (s : State) : Host.Outcome State Fault Refusal :=
  .next { s with dev := devIntentFrameBad n.val s.dev }

/-- The silence window has closed: the port is SILENT, its open speculations end, and the fault follows (R156, R169, R179). -/
def Dev.ipSilence (d : Dev) (n : Nat) : Dev :=
  if d.ipSt n = Ip.up ∧ closed d.now (d.IP n).silence 32000 then
    (((d.ipGo n Ip.silent).evt (IP_EVT.EVT n) 1).ipCancel n).raise 0x40 n (d.ipAgent n) 0
  else d

/-- The CRC-8 of a frame: its type and sequence bytes and the four payload bytes (R150). -/
def frameCrc (kind seq payload : Nat) : Nat :=
  crc8 0 ((kind :: seq :: (List.range 4).map fun k => payload / 256 ^ k % 256).map fun v => BitVec.ofNat 8 v)

/-- A frame of a type arrives whole. A silence window that has closed by then closes first (R155, R156; 00_scope.md R8). A CRC mismatch makes it
BAD (R150). A valid one opens a new silence window, and is accepted unless it is a duplicate or the state takes only HELLO (R151, R155). -/
def Dev.ipTake (d : Dev) (n kind : Nat) (f : Frame) : Dev × Bool :=
  let d := d.ipSilence n
  if ¬ d.ipRx n then (d, false)
  else if f.crc.toNat ≠ frameCrc kind f.seq.toNat f.payload.toNat then (devIntentFrameBad n d, false)
  else
    let now := d.now
    let d := d.ipBlock n false
    let up := d.ipSt n == Ip.up
    let d := if up then d.onIP n fun x => { x with silence := some now } else d
    if ¬ up ∧ kind ≠ 1 then (d, false)
    else
      let seq := f.seq.toNat
      let last := (d.IP n).lastSeq
      if last = some seq then (d.bump (IP_CNT.DUP n), false)
      else
        let d := match last with
          | none => d
          | some l => if seq = (l + 1) % 256 then d else d.bump (IP_CNT.GAP n)
        (d.onIP n fun x => { x with lastSeq := some seq }, true)

/-! ## Load frames (R152, R159, R177, R178) -/

/-- HELLO: its payload is recorded, and the port comes UP (R152, R155). -/
def devHello (n : Nat) (f : Frame) (d : Dev) : Dev :=
  let (d, ok) := d.ipTake n 1 f
  if ¬ ok then d
  else
    let d := d.wr (IP_HELLO.HELLO n) f.payload.toNat
    if d.ipSt n = Ip.up then d
    else
      let now := d.now
      ((d.ipGo n Ip.up).onIP n fun x => { x with silence := some now }).evt (IP_EVT.EVT n) 0

/-- HELLO -/
def execHello (n : Fin 32) (f : Frame) (s : State) : Host.Outcome State Fault Refusal :=
  .next { s with dev := devHello n.val f s.dev }

/-- DENY (R152, R159). -/
def Dev.ipDeny (d : Dev) (n seq slot reason : Nat) : Dev := d.ipReady n 0x83 (seq + slot * 0x100 + reason * 0x1000)

/-- GRANT (R152, R159). -/
def Dev.ipGrant (d : Dev) (n seq slot : Nat) (spec : Bool) : Dev :=
  d.ipReady n 0x82 (seq + slot * 0x100 + b2n spec * 0x400 + d.rd (IP_STATUS.THROTTLED n) * 0x800)

/-- The rail in slot `k` of port `n`. -/
def Dev.slotRail (d : Dev) (n k : Nat) : Option Nat := ((d.boundRails n).find? fun x => x.1 == k).map (·.2)

/-- The first reason that denies a STEP to rail `r`, 0 if none does (R159); a rail whose hub link is out answers RAIL_STATE
(10_modes_startup.md R294). -/
def Dev.stepDeny (d : Dev) (n : Nat) (di : Int) (lead r : Nat) : Nat :=
  if lead < 10 ∨ 1000 < lead then 3
  else if d.rs r ≠ Rs.run ∨ ¬ d.railLink r then 4
  else if d.md = Md.holdup ∧ 0 < di then 5
  else if d.rd (IP_STEPMAX.STEP_MAX n) < di.natAbs ∨ (0 < di ∧ (d.rd (PH_ILIM_EFF.I_LIM_EFF r) : Int) < d.sumLast r + 4 * di) then 6
  else if d.specPhase r = 1 ∨ d.specPhase r = 3 ∨ d.specPhase r = 4 then 7
  else 0

/-- The pre-bias target in error codes (R163). -/
def Dev.pbTarget (d : Dev) (r : Nat) (di : Int) : Int :=
  let m := min (divEven ((di.natAbs * d.rd (SPEC_PB.PB_GAIN r) * 16 : Nat) : Int) 1000)
    ((min 60 (d.rd (SPEC_PB.PREBIAS_MAX r)) * 64 : Nat) : Int)
  if di < 0 then -m else m

/-- A speculation, or while the port is throttled a shadow evaluation, opens on rail `r` (R162, R175). i_base is the latest whole i_sum; a
sample stamped t_acc that is yet to come replaces it. An earlier confirmed one keeps the hold of its woken phases and a wake still to come
(R164, R167); its pre-bias, one per rail, is where the new speculation starts from, and under a shadow evaluation goes on
being removed (log 43). -/
def Dev.specOpen (d : Dev) (r n slot seq : Nat) (di : Int) (lead cls : Nat) (shadow : Bool) : Dev :=
  let now := d.now
  let d := d.stages r
  let t := now + 8 * lead
  let early := d.rd (SPEC_WIN.W_EARLY r)
  let late := d.rd (SPEC_WIN.W_LATE r)
  let tgt := d.pbTarget r di
  let base := d.sumLast r
  let o : SpecSt := (d.R r).spec.getD {}
  let keep : List HoldSt := match o.holdEnd with
    | none => []
    | some c =>
      let due := if d.wakes r o then some (d.wakeDue r o) else none
      if o.woken = [] ∧ due = none then []
      else [{ close := c, ps := o.woken, port := o.port, seq := o.seq, slot := o.slot, wakeAt := due, need := o.iBase + 4 * o.di }]
  let left := (if o.dead then 0 else o.pb) + (d.R r).pbRm
  let s : SpecSt := { port := n, slot := slot, seq := seq, tAcc := now, tStep := t, di := di, iBase := base, dclass := cls,
                      tOpen := max (t - early) now, tClose := t + late, shadow := shadow, opn := true,
                      pb := if shadow then 0 else left, pbTgt := tgt }
  -- a sample stamped t_acc is the first step of the rise
  let first := (d.R r).samp.any fun x => x.1 == now
  let s := if first ∧ ¬ shadow then { s with pb := d.pbNext r s } else s
  let d := d.onR r fun x => { x with spec := some s, holds := x.holds ++ keep, pbRm := if shadow then left else 0 }
  let d := ((d.wri (PEND_STEP.DI r) di).wr (PEND_TSTEP.TSTEP r) t).wr (PEND_STATE.PORT r) n
  if shadow then d.wr (PEND_STATE.PHASE r) 4
  else (((d.wr (PEND_STATE.PHASE r) 1).evt (SPEC_EVT.EVT r) 0).wri (PEND_PB.PB r) (d.pbOf r)).specMark r true

/-- STEP: screened in the order of R159, and answered; accepted on the tick of its end symbol (R162). -/
def devStepFrame (n : Nat) (f : Frame) (d : Dev) : Dev :=
  let (d, ok) := d.ipTake n 2 f
  if ¬ ok then d
  else
    let w := f.payload.toNat
    let seq := f.seq.toNat
    let di := sext 16 w
    let lead := bits w 25 16
    let cls := bits w 28 26
    let slot := bits w 30 29
    if 4 ≤ cls ∨ w.testBit 31 then d.ipDeny n seq slot 1
    else match d.slotRail n slot with
      | none => d.ipDeny n seq slot 2
      | some r =>
        let why := d.stepDeny n di lead r
        if why ≠ 0 then d.ipDeny n seq slot why
        else if di = 0 ∨ (d.R r).strat % 2 = 0 then d.ipGrant n seq slot false
        else
          let shadow := d.on (IP_STATUS.THROTTLED n)
          (d.ipGrant n seq slot (!shadow)).specOpen r n slot seq di lead cls shadow

/-- STEP -/
def execStepFrame (n : Fin 32) (f : Frame) (s : State) : Host.Outcome State Fault Refusal :=
  .next { s with dev := devStepFrame n.val f s.dev }

/-- VID: a target request, committed like a RAIL_SET (R177). A frame with a nonzero field marked 0 is BAD (R152). Of several conditions that
deny it NOT_PERMITTED comes first, then BAND, then RAIL_STATE, and a slot that is not VALID is answered with REASON SLOT: R177 gives neither
the order nor that case (DESIGN CHOICE, log 43). -/
def devVidFrame (n : Nat) (f : Frame) (d : Dev) : Dev :=
  let w := f.payload.toNat
  if 2 ^ 18 ≤ w then devIntentFrameBad n (d.ipSilence n)
  else
    let (d, ok) := d.ipTake n 3 f
    if ¬ ok then d
    else
      let seq := f.seq.toNat
      let slot := bits w 17 16
      match d.slotRail n slot with
      | none => d.ipDeny n seq slot 2
      | some r =>
        let tgt := 2 * (w % 65536)
        if ¬ d.on (IP_CFG.VID_EN n) then d.ipDeny n seq slot 9
        else if tgt < d.rd (RAIL_BAND.VMIN r) ∨ d.rd (RAIL_BAND.VMAX r) < tgt then d.ipDeny n seq slot 8
        else if ¬ d.rLive r ∨ ¬ d.railLink r then d.ipDeny n seq slot 4
        -- of a VID and a host RAIL_SET of one tick the host's target stands
        else (if (d.R r).setAt = some d.now then d else (d.railSet r tgt (d.rd (RAIL_SLEW.SLEW r))).1).ipAck n seq 0x03 slot 0

/-- VID -/
def execVidFrame (n : Fin 32) (f : Frame) (s : State) : Host.Outcome State Fault Refusal :=
  .next { s with dev := devVidFrame n.val f s.dev }

/-- STATE: recorded and acknowledged (R178). -/
def devStateFrame (n : Nat) (f : Frame) (d : Dev) : Dev :=
  let (d, ok) := d.ipTake n 4 f
  if ¬ ok then d
  else ((d.wr (IP_STATUS.LOAD_STATE n) (f.payload.toNat % 256)).evt (IP_EVT.EVT n) 4).ipAck n f.seq.toNat 0x04 0 0

/-- STATE -/
def execStateFrame (n : Fin 32) (f : Frame) (s : State) : Host.Outcome State Fault Refusal :=
  .next { s with dev := devStateFrame n.val f s.dev }

/-- The silence window has closed (R156, R179). -/
def devIntentSilent (n : Nat) (d : Dev) : Dev := d.ipSilence n

/-- INTENT_SILENT -/
def execIntentSilent (n : Fin 32) (s : State) : Host.Outcome State Fault Refusal :=
  .next { s with dev := devIntentSilent n.val s.dev }

/-! ## The transmit lane (R149, R151, R154) -/

/-- The frame that goes out next: the first ready one of the first type, in the order PGOOD, DENY, GRANT, ACK, CURRENT (R154). -/
def nextFrame (q : List TxFrame) : Option TxFrame :=
  [0x85, 0x83, 0x82, 0x81, 0x84].findSome? fun k => q.find? fun f => f.kind == k

/-- A ready frame starts on the free lane, with its sequence byte and CRC-8, and takes it for nine symbols and two K28.5 (R149-R151, R154). -/
def devIntentFrameSend (n : Nat) (d : Dev) : Dev :=
  if ¬ d.ipTx n ∨ d.now < (d.IP n).txBusy then d
  else match nextFrame (d.IP n).txQ with
    | none => d
    | some f =>
      let now := d.now
      d.onIP n fun x =>
        { x with txQ := x.txQ.erase f, txSeq := (x.txSeq + 1) % 256, txBusy := now + 55, 
                              sent := { f with seq := x.txSeq, crc := frameCrc f.kind x.txSeq f.payload } :: x.sent }

/-- INTENT_FRAME_SEND -/
def execIntentFrameSend (n : Fin 32) (s : State) : Host.Outcome State Fault Refusal :=
  .next { s with dev := devIntentFrameSend n.val s.dev }

/-- The payload of a CURRENT frame of rail `r` in slot `k` (R152; log 22). A current outside signed 16 bits wraps (DESIGN CHOICE, log 48). -/
def Dev.currentWord (d : Dev) (r k : Nat) : Nat :=
  let i := (d.R r).iSum
  let room := (clip 0 4095 (((d.rd (PH_ILIM_EFF.I_LIM_EFF r) : Int) - i) / 16)).toNat
  trunc 16 i + k * 0x10000 + d.rd (RAIL_STATUS.PG r) * 0x40000 + d.rd (PH_STATUS.DEG r) * 0x80000 + room * 0x100000

/-- A CURRENT frame per bound rail becomes ready, every 800 ticks while the port is UP or SILENT (R154), but for rails whose hub link is out
(10_modes_startup.md R294). -/
def devCurrent (n : Nat) (d : Dev) : Dev :=
  let due : Bool := match (d.IP n).curAt with | none => true | some t => decide (t + 800 ≤ d.now)
  if ¬ due ∨ ¬ d.ipTx n then d
  else
    let now := d.now
    (d.onIP n fun x => { x with curAt := some now }).forL ((d.boundRails n).filter fun x => d.railLink x.2) fun d x =>
      d.ipReady n 0x84 (d.currentWord x.2 x.1)

/-- CURRENT -/
def execCurrent (n : Fin 32) (s : State) : Host.Outcome State Fault Refusal :=
  .next { s with dev := devCurrent n.val s.dev }

/-! ## The pre-charge window, retraction and the end of a hold (R165, R167, R168) -/

/-- The pre-charge window has opened and not yet closed (R165). -/
def devSpecPrechargeStart (r : Nat) (d : Dev) : Dev :=
  match (d.R r).spec with
  | none => d
  | some s =>
    let t := max s.tAcc (s.tStep - d.rd (SPEC_LEAD.PC_LEAD r))
    if ¬ s.opn ∨ s.shadow ∨ ¬ d.on (SPEC_CONF.PC_EN r) ∨ s.di ≤ 0 ∨ s.pcCut ∨ d.now < t ∨ s.tStep ≤ d.now then d
    else
      let u := (d.rd (SPEC_FF.FF_GAIN r) : Int) * s.di
      let d := (d.stages r).onSpec r fun s => { s with pcOn := true, u := u }
      d.wri (PEND_UINT.UINT r) (d.uOf r)

/-- SPEC_PRECHARGE_START -/
def execSpecPrechargeStart (r : Fin 64) (s : State) : Host.Outcome State Fault Refusal :=
  .next { s with dev := devSpecPrechargeStart r.val s.dev }

/-- The pre-charge window ends at T_step (R165). -/
def devSpecPrechargeEnd (r : Nat) (d : Dev) : Dev :=
  match (d.R r).spec with
  | none => d
  | some s =>
    if ¬ s.pcOn ∨ d.now < s.tStep then d
    else ((d.stages r).onSpec r fun s => { s with pcOn := false, u := 0 }).wr (PEND_UINT.UINT r) 0

/-- SPEC_PRECHARGE_END -/
def execSpecPrechargeEnd (r : Fin 64) (s : State) : Host.Outcome State Fault Refusal :=
  .next { s with dev := devSpecPrechargeEnd r.val s.dev }

/-- The speculation `s` of rail `r` is retracted, or its shadow evaluation ends (R168, R175). -/
def Dev.retract (d : Dev) (r : Nat) (s : SpecSt) : Dev :=
  let shed := s.tClose + d.rd (SPEC_SHED.SHED_HOLD r)
  let d := (d.stages r).wr (PEND_STATE.LAST r) 2
  let d :=
    if s.shadow then ((d.specEnds r).onSpec r fun s => { s with opn := false, rm := some s.tClose }).wr (PEND_STATE.PHASE r) 0
    else
      let d := d.onSpec r fun s =>
        { s with opn := false, pcOn := false, pcCut := true, u := 0, rm := some s.tClose, shedAt := some shed }
      (((d.wr (PEND_UINT.UINT r) 0).wr (PEND_STATE.PHASE r) 3).bump (SPEC_CNT.RETRACTED r)).evt (SPEC_EVT.EVT r) 2
  ((d.ipAck s.port s.seq 0x02 s.slot 2).credit s.port false).specTidy r

/-- The confirmation window has closed unconfirmed (R168, R175). -/
def devRetract (r : Nat) (d : Dev) : Dev :=
  match (d.R r).spec with
  | none => d
  | some s => if ¬ s.opn ∨ d.now < s.tClose then d else d.retract r s

/-- RETRACT -/
def execRetract (r : Fin 64) (s : State) : Host.Outcome State Fault Refusal :=
  .next { s with dev := devRetract r.val s.dev }

/-- The hold of a confirmed speculation has closed: the woken phases go back to the mask and the heddle (R167). -/
def devWakeHoldEnd (r : Nat) (d : Dev) : Dev := d.holdsEnd r

/-- WAKE_HOLD_END -/
def execWakeHoldEnd (r : Fin 64) (s : State) : Host.Outcome State Fault Refusal :=
  .next { s with dev := devWakeHoldEnd r.val s.dev }

/-- RESTORE ends throttling and empties the credit window (R175). -/
def Dev.ipRestore (d : Dev) (n : Nat) : Dev :=
  (((d.wr (IP_STATUS.THROTTLED n) 0).wr (IP_STATUS.FILL n) 0).wr (IP_STATUS.RATE n) 0).onIP n fun x => { x with credit := [] }

end Sys2Proof.Machine
end

