-- ==== Sys2Proof/Machine/Modes.lean ====
section
/-! DEFINITION. Changes of mode, keep, SAFE entry, CONFIGURE entry and the device reset (10_modes_startup.md R271-R292, R484;
02_power_entry.md R57-R60; 03_branch_fuses.md R83; 16_memory_protection.md R438). -/

namespace Sys2Proof.Machine

/-- Keep lasts from its entry until KEEP_TIME expires or the returning hub releases it (02_power_entry.md R60); with KEEP_STAY high the
channels stay under the limits of R58 after that, until the release. -/
def Dev.inKeep (d : Dev) : Bool := d.keep.on && !d.keep.expired

/-- BOARD_ALERT_N is driven low through keep and until SAFE ends (02_power_entry.md R57; R289). -/
def Dev.alertShow (d : Dev) : Dev :=
  { d with mode := { d.mode with alert := d.inKeep || d.on MODE_STATUS.SAFE_LATCH } }

/-- The precedence number of a transition, by its CAUSE (R271). -/
def modePrec (cause : Nat) : Nat :=
  match cause with
  | 1 => 4
  | 2 => 3
  | 5 => 5
  | 6 => 6
  | 7 => 2
  | 8 => 2
  | 9 => 3
  | _ => 7

/-- The first change of mode on a tick notes what it leaves (R271). -/
def Dev.modeMark (d : Dev) (cause : Nat) : Dev :=
  let now := d.now
  if (d.mode.pre.map fun x => x.tick) = some now then d
  else
    let x : ModePre := { tick := now, prec := modePrec cause, mode := d.md, seq := d.rd MODE_STATUS.SEQ_STATE,
                         done := (d.rd MODE_EVT.EVT).testBit 1, shed := [d.rd (HU_SHED.SHED 0), d.rd (HU_SHED.SHED 1)] }
    { d with mode := { d.mode with pre := some x } }

/-- A transition of precedence `p` comes before one of a higher number that a command of this tick has taken already: that one is taken back
(R271). What an entry into CONFIGURE has cleared cannot be: a transition due with it is evaluated against CONFIGURE (log 7). -/
def Dev.modeBack (d : Dev) (p : Nat) : Dev :=
  match d.mode.pre with
  | none => d
  | some x =>
    if x.tick ≠ d.now ∨ x.prec ≤ p ∨ d.md = Md.configure then d
    else
      let d := { (d.wr MODE_STATUS.MODE x.mode).wr MODE_STATUS.SEQ_STATE x.seq with mode := { d.mode with pre := none } }
      let d := d.wrBit MODE_EVT.EVT 1 x.done
      if x.prec ≠ 6 then d
      else
        let d := (d.wr (HU_SHED.SHED 0) (x.shed.getD 0 0)).wr (HU_SHED.SHED 1) (x.shed.getD 1 0)
        d.forN 16 fun d n =>
          match (d.E n).pre with
          | some y => if y.tick = d.now ∧ y.st = Ec.on ∧ d.es n = Ec.armed then d.entUndo n else d
          | none => d

/-- A window in CHECK starts afresh where the mode goes into or out of HOLDUP (02_power_entry.md R35). -/
def Dev.requalify (d : Dev) : Dev :=
  let now := d.now
  d.forN 16 fun d n =>
    if d.es n = Ec.check ∧ (d.E n).qual.isSome then
      d.onE n fun x => { x with qual := some now, qualN := 0, ready := false }
    else d

/-- On leaving CONFIGURE every phase of a warp is assigned: IDLE, or HELD if its branch is not ON or its link is out
(05_phase_management.md R127, R138); a phase that two warps name goes to the lower rail (log 28). -/
def Dev.assignPhases (d : Dev) : Dev :=
  d.forN 64 fun d r =>
    let d := d.forL (d.warpCfg r) fun d p =>
      if (d.P p).rail.isSome then d
      else
        let d := d.onP p fun _ => { rail := some r }
        let fed := d.phFed p
        let d := d.onP p fun x => { x with held := !fed }
        ((d.wr (PH_STATE.STATE p) (if fed then Ps.idle else Ps.held)).setHeat p 0).setDelta p 0
    d.warpShow r

/-- The archive mode is sampled, and in spool mode every VALID page is free, in index order (01_architecture.md R19;
12_host_rings.md R343). Between an entry into CONFIGURE and the exit the last sampled mode stays in force, and ARCH_PAGES is taken as
written, above the 33,554,432 pages of R11 too (DESIGN CHOICE, log 46). -/
def Dev.sampleArchive (d : Dev) : Dev :=
  let ring := d.on DEV_CFG.ARCHIVE_MODE
  let d := { d with mode := { d.mode with archMode := ring }, host := { d.host with rep := [] } }
  if ring then d else d.setPool ((List.range (d.rd ARCH_PAGES.PAGES)).filter fun k => (d.pageEntry k).2)

/-- What a rail loom samples on leaving CONFIGURE: masks, slew and efficiency table (05_phase_management.md R123, R136; 04_rail_loom.md
R110). -/
def Dev.sampleRail (d : Dev) (r : Nat) : Dev :=
  let h := d.mask128 (MASK_HOME.HOME r)
  let n := d.mask128 (MASK_NEIGH.NEIGH r)
  let d := d.effRead r
  let eff := d.effWords r
  let sl := d.rd (RAIL_SLEW.SLEW r)
  (d.onR r fun x => { x with maskH := h, maskN := n, slew := sl, effNow := eff }).warpShow r

/-- The device leaves CONFIGURE, for whichever mode: the units sample their registers (02_power_entry.md R33, 01_architecture.md R19), the
phases of warps are assigned, SAFETY shows whether the safety configuration holds (09_faults.md R267), and KEEP_CFG is locked
(02_power_entry.md R59). -/
def Dev.leaveConfigure (d : Dev) : Dev :=
  let d := (d.commit.sampleArchive.assignPhases).forN 64 fun d r => d.sampleRail r
  let d := d.wr FLT_STATUS.SAFETY (b2n d.safetyHolds)
  { d with mode := { d.mode with keepLock := true } }

/-- The copy of MODE_STATUS in the status block, written on each mode change (12_host_rings.md R313). -/
def Dev.modeCopy (d : Dev) : Dev := d.sbWr 8 (d.word 0x1000).toNat 4

/-- A change of mode with its cause (R271), and what follows in every unit: core events (15_mograthes_cores.md R420), the intent
ports (06_load_intent.md R155), speculations (06_load_intent.md R169, R181), the off request held for battery channels and the
qualification windows (02_power_entry.md R35, R36), and what leaving CONFIGURE brings. -/
def Dev.modeGo (d : Dev) (m cause : Nat) : Dev :=
  let old := d.md
  let d := d.modeMark cause
  let d := ((d.wr MODE_STATUS.PREV old).wr MODE_STATUS.CAUSE cause).wr MODE_STATUS.MODE m
  let d := (d.evt MODE_EVT.EVT 0).forN 21 fun d c => d.corePend c 4
  let d := if m = Md.holdup ∨ (old = Md.run ∧ m ≠ Md.run) then d.forN 64 fun d r => d.cancelSpec r else d
  let d := d.forN 32 fun d n => d.ipMode n
  let d := if (old = Md.holdup) ≠ (m = Md.holdup) then d.requalify else d
  let d := if m = Md.ramp ∨ m = Md.run then d.forN 16 fun d n => d.onE n fun x => { x with hold := false } else d
  let d := if m = Md.configure ∨ m = Md.safe then { d with mode := { d.mode with resStage := 0, resLeft := [] } } else d
  (if old = Md.configure ∧ m ≠ Md.configure then d.leaveConfigure else d).modeCopy

/-! ## Keep -/

/-- KEEP_TIME in standby cycles: units of 10 ms, at most 6,000 (02_power_entry.md R59); the hold logic keeps the value in force at keep
entry (10_modes_startup.md R276, log 26). -/
def Dev.keepTime (d : Dev) : Nat := 160000 * min d.keep.time 6000

/-- KEEP_TIME has expired (02_power_entry.md R60): keep ends, and with KEEP_STAY low every channel turns off normally. The turn-off of
a battery channel sets the hold of R36, as an off request does (DESIGN CHOICE, log 47). -/
def Dev.keepOver (d : Dev) : Dev :=
  let d := { d with keep := { d.keep with expired := true } }
  if d.keep.stay then d
  else
    let d := d.forN 16 fun d n => d.entOffOne n
    let now := d.now
    d.forN 64 fun d n =>
      let was := d.bs n
      let d := d.brOffReq n
      if was = Ec.on then d.onB n fun x => { x with downs := x.downs ++ [{ tb := now }] } else d

/-- What the channels do on keep entry (02_power_entry.md R57; 03_branch_fuses.md R83): windows counted in Thyme ticks end (log 26). -/
def Dev.keepChannels (d : Dev) : Dev :=
  let d := d.forN 16 fun d n =>
    if d.es n = Ec.inrush ∨ d.es n = Ec.check then d.entGo n Ec.off .offFast
    else if d.es n = Ec.blocking then d.entGo n Ec.off .off
    else if d.es n = Ec.tripped then (d.rtAbandon n).entGo n Ec.off .off
    else d.onE n fun x => { x with ovN := 0, oc := none, cut := none, rev := none, share := none }
  d.forN 64 fun d n =>
    if d.bs n = Ec.inrush ∨ d.bs n = Ec.check then d.brGo n Ec.off .offFast
    else if d.bs n = Ec.tripped then (d.rtAbandon (16 + n)).brGo n Ec.off .off
    else d.onB n fun x => { x with ovN := 0, oc := none, rev := none, pwr := none }

/-- The state as keep begins; KEEP_TIME = 0 ends it on the same cycle (02_power_entry.md R60). -/
def Dev.keepBegin (d : Dev) : Dev :=
  { d with keep := { d.keep with on := true, since := d.clk.sb, expired := false, relWait := false, time := d.rd KEEP_CFG.KEEP_TIME } }

/-- KEEP_TIME = 0 applies the end of keep on the cycle keep is entered (02_power_entry.md R60). -/
def Dev.keepZero (d : Dev) : Dev := if d.keep.time = 0 then d.keepOver else d

/-- The entry die enters keep (02_power_entry.md R57). -/
def Dev.keepGo (d : Dev) : Dev :=
  if d.keep.on then d else ((d.icvClock true).keepBegin.keepChannels).keepZero.alertShow

/-- Some entry or branch channel is ON, or an entry channel is ARMED: keep has a state to hold (02_power_entry.md R57; log 25). -/
def Dev.anyOn (d : Dev) : Bool :=
  ((List.range 16).any fun n => d.es n == Ec.on || d.es n == Ec.armed) || (List.range 64).any fun n => d.bs n == Ec.on

/-- The hub is lost to the entry die: no heartbeat arrives, or, with the hub absent, some channel is ON (02_power_entry.md R57). -/
def Dev.hubLost (d : Dev) : Bool :=
  if d.clk.hub then !(d.linkUp 7) || d.clk.rootLost else decide (d.md ≠ Md.off) && d.anyOn

/-- The entry die misses the heartbeat (02_power_entry.md R57; log 7). -/
def devKeepEnter (d : Dev) : Dev := if d.hubLost then d.keepGo else d

/-- KEEP_ENTER -/
def execKeepEnter (s : State) : Host.Outcome State Fault Refusal := .next { s with dev := devKeepEnter s.dev }

/-- An analog limit of keep fires at channel `u` (0-15 entry, 16-79 branch): it turns off fast and latches with no retry
(02_power_entry.md R58; 03_branch_fuses.md R83). It raises no fault, writes no CAUSE, ALSO or EVT and trips no group mate (DESIGN
CHOICE, log 47). -/
def devKeepTrip (u : Nat) (d : Dev) : Dev :=
  if ¬ d.keep.on then d
  else if u < 16 then (if d.es u = Ec.on then (d.rtLatch u false).entGo u Ec.latched .offFast else d)
  else if d.bs (u - 16) = Ec.on then (d.rtLatch u false).brGo (u - 16) Ec.latched .offFast
  else d

/-- KEEP_TRIP -/
def execKeepTrip (u : Fin 80) (s : State) : Host.Outcome State Fault Refusal := .next { s with dev := devKeepTrip u.val s.dev }

/-- The expiry of KEEP_TIME, once it is due: keep ends, and BOARD_ALERT_N is released (02_power_entry.md R60). -/
def Dev.keepExpires (d : Dev) : Dev :=
  if d.inKeep ∧ d.keep.since + d.keepTime ≤ d.clk.sb then d.keepOver.alertShow else d

/-- KEEP_TIME expires (02_power_entry.md R60; log 7). -/
def devKeepExpire (d : Dev) : Dev := d.keepExpires

/-- KEEP_EXPIRE -/
def execKeepExpire (s : State) : Host.Outcome State Fault Refusal := .next { s with dev := devKeepExpire s.dev }

/-- The latch or fence of a branch channel is lifted: it goes to OFF (03_branch_fuses.md R66, R76; R484). -/
def Dev.freeBranch (d : Dev) (n : Nat) : Dev := (d.rtClear (16 + n)).brGo n Ec.off .off

/-- The channel row of R484: LATCHED and FENCED channels go to OFF. -/
def Dev.freeChannels (d : Dev) : Dev :=
  let d := d.forN 16 fun d n => if d.entDown n then d.freeEntry n else d
  d.forN 64 fun d n => if d.bs n = Ec.latched ∨ d.bs n = Ec.fenced then d.freeBranch n else d

/-- The messages a die held reach the selvage, in order, with the stamps they were given; those that found the queue full are
counted (09_faults.md R259). -/
def Dev.deliverHeld (d : Dev) (die : Nat) : Dev :=
  let ms := KV.get (fun _ => []) d.flt.dieQ die
  let n := nget d.flt.dieLost die
  let d := d.forL ms fun d m => { d with flt := { d.flt with msgs := insertMsg m d.flt.msgs } }
  let d := d.bump FLT_LOST.HELD_LOST n
  { d with flt := { d.flt with dieQ := KV.put (fun _ => []) d.flt.dieQ die [], dieLost := nput d.flt.dieLost die 0 } }

/-- The returning hub releases keep (02_power_entry.md R60): an expiry of the same standby cycle is taken first; CONFIGURE entered in keep applies its channel row now (R484), and
KEEP is raised (09_faults.md R259; log 7). -/
def devKeepRelease (d : Dev) : Dev :=
  if ¬ d.keep.on ∨ ¬ d.linkUp 7 ∨ d.clk.rootLost ∨ d.mode.pendingCfg then d
  else
    let d := d.keepExpires.icvClock false
    let wait := d.keep.relWait
    let d := { d with keep := { d.keep with on := false, relWait := false } }
    let d := if wait then d.freeChannels else d
    ((d.deliverHeld 4).raise 0x89 0 0xEE 0).alertShow

/-- KEEP_RELEASE -/
def execKeepRelease (s : State) : Host.Outcome State Fault Refusal := .next { s with dev := devKeepRelease s.dev }

/-! ## SAFE -/

/-- The rail, branch and channel actions of R289 begin: rails stop at once, SAFE_DELAY starts. -/
def Dev.safeActs (d : Dev) : Dev :=
  let now := d.now
  let d := d.forN 64 fun d r => d.railStop r
  { d with mode := { d.mode with safeAt := some (d.mode.safeAt.getD now) } }

/-- The power sequence stops: a down run that SAFE or a reset interrupts completes its request with WRONG_MODE (log 27). -/
def Dev.seqStop (d : Dev) (st : Nat) : Dev :=
  let d := d.completeAll d.mode.seqOut St.wrongMode
  { d.wr MODE_STATUS.SEQ_STATE st with mode := { d.mode with seqOut := [], seqWait := false, seqPast := false } }

/-- An L4 occurrence in FACTORY: the actions of R289, with HELD; the transition is recorded (R271, R292). -/
def Dev.factoryHold (d : Dev) (cause : Nat) : Dev :=
  let d := (((d.safeActs.wr MODE_STATUS.HELD 1).wr MODE_STATUS.PREV Md.factory).wr MODE_STATUS.CAUSE cause).evt MODE_EVT.EVT 0
  (d.forN 21 fun d c => d.corePend c 4).modeCopy

/-- SAFE entry, or in FACTORY its actions with HELD (R271, R289, R292); it precedes the other transitions of its tick (R271). -/
def Dev.safeEnter (d : Dev) (cause : Nat) : Dev :=
  let d := d.modeBack 2
  if d.md = Md.factory then d.factoryHold cause
  else if d.md = Md.configure ∨ d.active then
    let d := (d.safeActs.modeGo Md.safe cause).seqStop 0
    ((d.wr MODE_STATUS.SAFE_LATCH 1).evt MODE_EVT.EVT 6).alertShow.modeCopy
  else d

/-- SAFE_DELAY has passed since SAFE entry: every branch turns off, and every entry channel too if SAFE_ENTRY_OFF = 1 (R289). In
keep the entry die acts at the release (11_clocks_time.md R298; log 7). -/
def devSafeDelayExpire (d : Dev) : Dev :=
  match d.mode.safeAt with
  | none => d
  | some t =>
    if d.now < t + d.rd SAFE_DELAY.VAL ∨ d.keep.on ∨ ¬ d.linkUp 7 then d
    else
      let d := { d with mode := { d.mode with safeAt := none } }
      let d := d.forN 64 fun d n => d.brOffReq n
      if d.on MODE_CFG.SAFE_ENTRY_OFF then d.forN 16 fun d n => d.entOffOne n else d

/-- SAFE_DELAY_EXPIRE -/
def execSafeDelayExpire (s : State) : Host.Outcome State Fault Refusal := .next { s with dev := devSafeDelayExpire s.dev }

/-! ## CONFIGURE entry (R282, R484) -/

/-- Every ownership entry returns to FREE (01_architecture.md R26). -/
def Dev.freeAllOwn (d : Dev) : Dev :=
  let d := d.forN 32 fun d t => d.timerOff t
  let d := d.forN 384 fun d n => d.freeOwn n
  { d with flt := { d.flt with owner := [] } }

/-- Every thread closes: a waiting THREAD_CLOSE completes (R282), and a FENCE whose stream markers are lost completes LINK_FENCED
(log 29). -/
def Dev.closeThreads (d : Dev) : Dev :=
  let ts := d.openThreads
  let d := d.forL ts fun d t => (d.closeBlks t).dataOut t
  -- what is queued for the stream is dropped
  let d := d.forN 16 fun d v =>
    let q := (d.V v).q.filter fun b => b.btype ≠ 3
    (d.onV v fun x => { x with q := x.q.filter fun b => b.btype = 3, off := 0 }).forL q fun d b => d.blkDrop v b
  let d := d.forL ts fun d t => d.threadEnd t
  let lost := d.host.fences.filter fun f => f.vcs ≠ [] ∨ f.onWire ≠ []
  let d := d.forL lost fun d f => d.complete (.out f.id) St.linkFenced
  let d := { d with thr := [], rq := [], host := { d.host with fwd := [], fences := d.host.fences.filter fun f => f.vcs = [] ∧ f.onWire = [] } }
  let d := d.forN 16 fun d v => (d.onV v fun x => { x with q := [], off := 0, holdAt := none }).vcShow v
  (d.forN 16 fun d s => d.rqShow s).usedShow

/-- A BAR0 offset lies in a table that a bank initialised on CONFIGURE entry holds (16_memory_protection.md R429, R438). -/
def tableCleared (off : Nat) : Bool := match tablePlace off with | some p => configureBanks.contains p.1 | none => false

/-- The initialiser clears the banks: contents and tables take their reset values, and the banks wait for read-back
(16_memory_protection.md R438). -/
def Dev.clearMemories (d : Dev) : Dev :=
  let keep := fun (k : Nat) => ! configureBanks.contains (k / 0x100000)
  let d := { d with
    regs := d.regs.filter fun x => ! tableCleared x.1
    slot := []
    mem := { d.mem with data := d.mem.data.filter fun x => keep x.1, err := d.mem.err.filter fun x => keep x.1,
                        init := configureBanks, copying := [], copyOut := [] } }
  (d.wr MEM_STATUS.INIT_DONE 0).wr MEM_STATUS.INIT_LEFT configureBanks.length

/-- Rails, phases, ports and converters of R484, and the thermal models of R41. -/
def Dev.endFences (d : Dev) : Dev :=
  let d := d.forN 64 fun d r =>
    let d := d.railStop r
    if d.rs r = Rs.fenced then d.wr (RAIL_STATUS.STATE r) Rs.off else d
  let d := d.forL (d.ph.map fun x => x.1) fun d p =>
    ((d.wr (PH_STATE.STATE p) Ps.unassigned).setHeat p 0).setDelta p 0
  let d := d.forN 64 fun d r => (d.specZero r).onR r fun x => { rangeAt := x.rangeAt }
  let d := { d with ph := [], retry := [] }
  -- every slice starts afresh, for the calibration of R196
  let d := d.forN 632 fun d c => (d.wr (CV_STATUS.FENCED c) 0).wr (CV_STATUS.LIVE c) (sliceCount c)
  -- no phase is in a warp any more (05_phase_management.md R146)
  let d := d.forN 64 fun d r => d.warpShow r
  let d := d.forN 32 fun d n => if d.ipSt n = Ip.fenced then d.ipGo n Ip.disabled else d
  let d := d.forN 16 fun d n => d.onE n fun x => { x with th1 := 0, th2 := 0, th3 := 0, th4 := 0, ocNum := 1, ocDen := 1 }
  let d := d.forN 64 fun d n => d.onB n fun x => { x with th1 := 0, th2 := 0, th3 := 0, th4 := 0 }
  if d.keep.on then { d with keep := { d.keep with relWait := true } } else d.freeChannels

/-- Step 1 of CONFIGURE entry (R282); steps 2 and 3 follow as the memories come online and the converters calibrate. The archive mode last
sampled stays in force during CONFIGURE (01_architecture.md R19; DESIGN CHOICE, log 46). -/
def Dev.configureEntry (d : Dev) : Dev :=
  let d := d.forN 21 fun d c => d.coreConfigure c
  let d := d.endFences.freeAllOwn.closeThreads
  let copies := d.mem.copyOut
  let d := (d.forL copies fun d x => d.complete x.2 St.success).clearMemories
  let d := ((d.wr BOOT_STATUS.STATE 0).wr BOOT_STATUS.APPLIED 0)
  let d := ((d.wr BOOT_REC.STATUS 0).wr BOOT_REC.COUNT 0).wr BOOT_REC_IDX.RECORD 0
  { d with mode := { d.mode with image := [], bootPos := 0, bootIdx := 0, coreCode := 0, pendingCfg := true, unlock := none,
                                 seqWait := false }
           flt := { d.flt with dom := [] } }

/-! ## Reset (R276; log 26) -/

/-- The bits of a word that a reset leaves (R276; log 26): the standby island, Sage, the ICVs (07_conversion.md R211) and the channel
hold logic. With `stb`, on STANDBY entry, the entry die also holds the configuration with which it runs its converters, channels and
models in low-power mode, and the corrections and fences of its slices (07_conversion.md R217). -/
def resetKeeps (stb : Bool) (off : Nat) : Word :=
  let all : Word := BitVec.allOnes 32
  if off = 0x1000 then 0xC000FFFF                                  -- MODE_STATUS: mode, cause, latch
  else if off = 0x1060 then all                                    -- MODE_EVT
  else if off = 0x4014 then 0x80000000                             -- FLT_SAFE_CTL.VALID
  else if 0x4020 ≤ off ∧ off < 0x4040 then all                     -- FLT_SAFE
  else if off = 0x1308 then 0x40000000                             -- MEM_STATUS.SB_INIT_DONE
  else if off = 0x1314 then 0x00000300                             -- MEM_OFFLINE of the KC's banks
  else if off = 0x1320 then 0x000C0000                             -- MEM_OFFLINE of the standby tables
  else if 0xD500 ≤ off ∧ off < 0xD540 then all                     -- the KC
  else if 0x205800 ≤ off then all                                  -- SAGE and OCV
  else if 0x205000 ≤ off ∧ off < 0x205300 then all                 -- ICV
  else if 0x200000 ≤ off ∧ off < 0x201000 ∧ off % 0x100 = 0x30 then all    -- ENT_STATUS
  else if 0x202000 ≤ off ∧ off < 0x203000 ∧ off % 0x40 = 0x28 then all     -- BR_STATUS
  else if ¬ stb then 0
  else if 0x119000 ≤ off ∧ off < 0x119E00 then
    (if off % 0x40 = 4 then 0x000FFF00 else all)                   -- CONVc of the entry die: FENCED and LIVE, corrections
  else if (0x124000 ≤ off ∧ off < 0x12A000) ∨ 0x200000 ≤ off then
    (match rowOf off with | some r => r.rw | none => 0)
  else 0

/-- The registers after a reset. -/
def resetRegs (stb : Bool) (m : KV Word) : KV Word :=
  m.foldl (fun a x => KV.put resetWord a x.1 ((x.2 &&& resetKeeps stb x.1) ||| (resetWord x.1 &&& ~~~(resetKeeps stb x.1)))) []

/-- What an entry channel's hold logic keeps over a reset, and in STANDBY its thermal model and last codes; what counts Thyme ticks ends
(02_power_entry.md R57; 07_conversion.md R217). -/
def EntrySt.overReset (stb : Bool) (x : EntrySt) : EntrySt :=
  let y : EntrySt := { gate := x.gate, huCut := x.huCut, hold := x.hold, ocNum := x.ocNum, ocDen := x.ocDen }
  if stb then { y with th1 := x.th1, th2 := x.th2, th3 := x.th3, th4 := x.th4, i := x.i, vin := x.vin, vout := x.vout, pEff := x.pEff,
                       tCase := x.tCase, tAt := x.tAt, stale := x.stale }
  else y

/-- As `EntrySt.overReset`, for a branch channel (03_branch_fuses.md R83). -/
def BranchSt.overReset (stb : Bool) (x : BranchSt) : BranchSt :=
  let y : BranchSt := { gate := x.gate }
  if stb then { y with th1 := x.th1, th2 := x.th2, th3 := x.th3, th4 := x.th4, i := x.i, vin := x.vin, vout := x.vout, pEff := x.pEff,
                       tCase := x.tCase, tAt := x.tAt, stale := x.stale }
  else y

/-- The banks of the standby island: the KC's local code and data, and the standby tables (15_mograthes_cores.md R399;
16_memory_protection.md R429). -/
def islandBank (b : Nat) : Bool := b == 0x28 || b == 0x29 || b == 0x92 || b == 0x93

/-- What the hub, the loom dice and the entry die outside the island hold after a reset, or with `stb` on STANDBY entry; the entry die
keeps its channels' hold logic (R276; log 26). Thyme starts anew, so Sage's impedance measurements end. -/
def Dev.resetBase (d : Dev) (stb : Bool) : Dev :=
  let d := d.kcHold.impForget
  let d' : Dev :=
    { regs := resetRegs stb d.regs
      clk := { sb := d.clk.sb, ent := d.clk.ent, entUp := d.clk.ent, ratio := d.clk.ratio, freeCtr := d.clk.freeCtr }
      mode := { otp := d.mode.otp }
      ent := d.ent.map fun x => (x.1, x.2.overReset stb)
      br := d.br.map fun x => (x.1, x.2.overReset stb)
      icv := d.icv
      sage := d.sage
      host := { mem := d.host.mem, msix := d.host.msix, nextId := d.host.nextId }
      core := d.core.filter fun x => x.1 = 20
      mem := { data := d.mem.data.filter (fun x => islandBank (x.1 / 0x100000)), err := d.mem.err.filter fun x => islandBank (x.1 / 0x100000) }
      flt := { dieQ := d.flt.dieQ.filter fun x => x.1 = 4, dieLost := d.flt.dieLost.filter fun x => x.1 = 4 }
      keep := d.keep
      link := { lastTick := d.link.lastTick.filter fun x => x.1 = 4 } }
  d'.kcGo

/-- The straps as sampled on release (R275). -/
def Dev.straps (d : Dev) (st : Straps) : Dev :=
  let d := ((d.wr DEV_STATUS.FACTORY_N (b2n st.factoryN)).wr DEV_STATUS.BOOT_SEL (b2n st.bootSel)).wr DEV_STATUS.KEEP_STAY (b2n st.keepStay)
  { d with keep := { d.keep with stay := st.keepStay } }

/-- The messages that the entry die held while the hub had no power are delivered, unless it is in keep (09_faults.md R259). -/
def Dev.heldOut (d : Dev) : Dev := if d.keep.on ∨ ¬ d.linkUp 7 then d else d.deliverHeld 4

/-- Release from reset into CONFIGURE (R274, R282): Thyme holds 0 (11_clocks_time.md R300), the powered cores are HALTED
(15_mograthes_cores.md R422). With the SAFE latch set, SAFE follows once the boot has ended (R291). -/
def Dev.releaseHub (d : Dev) : Dev :=
  let safe := d.on MODE_STATUS.SAFE_LATCH
  let d := d.kcHold
  let d := { d with clk := { d.clk with hub := true, now := 0, released := none, entUp := d.clk.ent } }.kcGo
  let d := d.forN 21 fun d c => if d.ks c = Ks.off then d.wr (CORE_STATUS.STATE c) Ks.halted else d
  let d := if d.keep.on then d else d.icvClock false
  let d := (((d.wr CLK_STATUS.LOCK 1).wr CLK_STATUS.REF_OK 1).wr CLK_STATUS.SL_REF 1).wr CLK_STATUS.PE_REF 1
  let d := d.wr (TW_STATUS.STATE 0) 1
  let d := (d.modeGo Md.configure 2).configureEntry
  { d with mode := { d.mode with keepLock := false, afterSafe := safe } }.heldOut.alertShow

/-- A reset under R276 with CLEAR_SAFE accepted clears the latch (R291). -/
def Dev.clearLatch (d : Dev) : Dev :=
  if d.on MODE_STATUS.CLEAR_ARMED then (d.wr MODE_STATUS.SAFE_LATCH 0).wr MODE_STATUS.CLEAR_ARMED 0 else d

/-- A device reset (R276). CONFIGURE is entered only with the PLL locked: while the root clock is lost the release waits for
ROOT_PLL_LOCK (11_clocks_time.md R297). -/
def Dev.devReset (d : Dev) (st : Straps) (locked : Bool) : Dev :=
  let d := (((d.keepGo.resetBase false).straps st)).clearLatch
  let sb := d.clk.sb
  if locked then d.releaseHub else { d with clk := { d.clk with hub := false, released := some sb } }.alertShow

end Sys2Proof.Machine
end

