-- ==== Sys2Proof/WellFormed.lean ====
section
/-! DEFINITION. The commands whose operands have the shape their rule gives. Every operand but these few has its width in
its type. -/

namespace Sys2Proof

/-- The payload is bytes 16 to 63 of a 64-byte descriptor (12_host_rings.md R319). -/
def Desc.wf (d : Desc) : Bool := d.payload.length == 48

/-- The descriptor of a mode request is well formed. -/
def Req.wf : Req → Bool
  | .desc d => d.wf
  | .reg _ => true

/-- A codeword carries 640 bytes of the flit stream (13_stream_link.md R352). -/
def Codeword.wf (m : Codeword) : Bool := decide (m.data.length ≤ 640)

/-- An access of the bus stays in 4 KiB and within its largest payload (12_host_rings.md, *PCI Express*; log 3). -/
def ReadAt.wf (p : ReadAt) : Bool := decide (p.enable.length ≤ p.len ∧ p.len ≤ 512 ∧ p.off.toNat % 4096 + p.len ≤ 4096)

/-- The payload of a flit is its bytes 4 to 255 (13_stream_link.md R356). -/
def flitPayloadWf (p : List Byte) : Bool := p.length == 252

/-- The operands of a command have the shape its rule gives (log 8). -/
def Instr.wf : Instr → Bool
  | .nop d | .fence d | .timeAlign d | .resClaim d | .resRelease d | .railSet d | .railEnable d | .railDisable d
  | .phaseMask d | .coefLoad d | .fusePolicyLoad d | .tableLoad d _ | .seqLoad d | .threadOpen d | .threadModify d
  | .threadClose d | .unfence d | .faultAck d | .packRestore d | .packRead d => d.wf
  | .modeRequestConfigure q | .modeRequestRamp q | .modeRequestRun q | .modeRequestSafe q
  | .modeRequestClearSafe q => q.wf
  | .codewordReceive _ m => m.wf
  | .registerReadClear _ p => p.wf
  | .registerWrite _ off v e => decide (e.length ≤ v.length ∧ v.length ≤ 512 ∧ off.toNat % 4096 + v.length ≤ 4096)
  | .peerCtrl p | .peerTrain p => flitPayloadWf p
  | _ => true

end Sys2Proof
end

