-- ==== Sys2Proof/Machine/Sequence.lean ====
section
/-! DEFINITION. Mode requests, the power sequence tables, and HOLDUP with its shedding and restoration (10_modes_startup.md
R271, R272, R283-R288; 02_power_entry.md R54, R55). -/

namespace Sys2Proof.Machine

namespace Sq
/-- Codes of SEQ_STATE (R273). -/
def idle : Nat := 0
/-- UP -/
def up : Nat := 1
/-- DONE -/
def done : Nat := 2
/-- HALTED -/
def halted : Nat := 3
/-- DOWN -/
def down : Nat := 4
/-- SUSPENDED -/
def suspended : Nat := 5
end Sq

/-- SEQ_STATE. -/
def Dev.sq (d : Dev) : Nat := d.rd MODE_STATUS.SEQ_STATE

/-! ## RAMP entry (R283) -/

/-- A sequence run begins at an entry on this tick (R285, R286). -/
def Dev.seqBegin (d : Dev) (st entry : Nat) : Dev :=
  let now := d.now
  { (d.wr MODE_STATUS.SEQ_STATE st).wr MODE_STATUS.SEQ_ENTRY entry with
    mode := { d.mode with seqAt := now, seqWait := false, seqPast := false } }

/-- RAMP entry: the configuration has been sampled, every rail's period counter starts (04_rail_loom.md R87), and the up table runs from
entry 0 (R283, R285; 09_faults.md R267). -/
def Dev.rampEnter (d : Dev) : Dev :=
  let d := d.modeGo Md.ramp 3
  let now := d.now
  let d := d.forN 64 fun d r => d.onR r fun x => { x with t0 := some now, lastB := none }
  ((d.wr MODE_STATUS.SEQ_FAIL 0).seqBegin Sq.up 0).modeCopy

/-! ## Mode requests (R272) -/

/-- CONFIGURE: the down table runs from entry 64, and its end completes the request (R272, R286); a request during the run joins it
(log 27). -/
def Dev.reqConfigure (d : Dev) (t : Token) : Dev × Option Nat :=
  if d.md ≠ Md.ramp ∧ d.md ≠ Md.run then (d, some St.wrongMode)
  else
    let d := { d with mode := { d.mode with seqOut := d.mode.seqOut ++ [t] } }
    (if d.sq = Sq.down then d else (d.forN 64 fun d r => d.cancelSpec r).seqBegin Sq.down 64, none)

/-- MODE_REQUEST_CONFIGURE -/
def devModeRequestConfigure (q : Req) (d : Dev) : Dev := d.runMode q 2 fun d t => d.reqConfigure t

/-- MODE_REQUEST_CONFIGURE -/
def execModeRequestConfigure (q : Req) (s : State) : Host.Outcome State Fault Refusal :=
  if q.wf then .next { s with dev := devModeRequestConfigure q s.dev } else .fault .badOperand

/-- RAMP: the exit checks, then RAMP entry (R272, R283; 07_conversion.md R196). -/
def Dev.reqRamp (d : Dev) : Dev × Option Nat :=
  let d := d.tabReadAll 0x35
  if d.md ≠ Md.configure ∨ d.mode.afterSafe then (d, some St.wrongMode)
  else if d.commit.exitStatus ≠ St.success then (d, some d.commit.exitStatus)
  else (d.rampEnter, some St.success)

/-- MODE_REQUEST_RAMP -/
def devModeRequestRamp (q : Req) (d : Dev) : Dev := d.runMode q 3 fun d _ => d.reqRamp

/-- MODE_REQUEST_RAMP -/
def execModeRequestRamp (q : Req) (s : State) : Host.Outcome State Fault Refusal :=
  if q.wf then .next { s with dev := devModeRequestRamp q s.dev } else .fault .badOperand

/-- RUN: from RAMP with the up table halted; the halted entry is abandoned (R272). -/
def Dev.reqRun (d : Dev) : Dev × Option Nat :=
  if d.md = Md.ramp ∧ d.sq = Sq.halted then (((d.modeGo Md.run 3).seqStop Sq.idle).modeCopy, some St.success)
  else (d, some St.wrongMode)

/-- MODE_REQUEST_RUN -/
def devModeRequestRun (q : Req) (d : Dev) : Dev := d.runMode q 4 fun d _ => d.reqRun

/-- MODE_REQUEST_RUN -/
def execModeRequestRun (q : Req) (s : State) : Host.Outcome State Fault Refusal :=
  if q.wf then .next { s with dev := devModeRequestRun q s.dev } else .fault .badOperand

/-- SAFE on request (R272, R289). -/
def Dev.reqSafe (d : Dev) : Dev × Option Nat :=
  if d.md = Md.configure ∨ d.active ∨ d.md = Md.safe then (d.safeEnter 8, some St.success)
  else (d, some St.wrongMode)

/-- MODE_REQUEST_SAFE -/
def devModeRequestSafe (q : Req) (d : Dev) : Dev := d.runMode q 6 fun d _ => d.reqSafe

/-- MODE_REQUEST_SAFE -/
def execModeRequestSafe (q : Req) (s : State) : Host.Outcome State Fault Refusal :=
  if q.wf then .next { s with dev := devModeRequestSafe q s.dev } else .fault .badOperand

/-- CLEAR_SAFE: the next reset leaves SAFE (R272, R291). -/
def Dev.reqClearSafe (d : Dev) : Dev × Option Nat :=
  if d.md = Md.safe then (d.wr MODE_STATUS.CLEAR_ARMED 1, some St.success) else (d, some St.wrongMode)

/-- MODE_REQUEST_CLEAR_SAFE -/
def devModeRequestClearSafe (q : Req) (d : Dev) : Dev := d.runMode q 8 fun d _ => d.reqClearSafe

/-- MODE_REQUEST_CLEAR_SAFE -/
def execModeRequestClearSafe (q : Req) (s : State) : Host.Outcome State Fault Refusal :=
  if q.wf then .next { s with dev := devModeRequestClearSafe q s.dev } else .fault .badOperand

/-! ## The power sequence (R284-R286) -/

/-- The sequence entry in progress: its OP, UNIT and TIME. -/
def Dev.seqNow (d : Dev) : Nat × Nat × Nat :=
  let e := d.pseq (d.rd MODE_STATUS.SEQ_ENTRY)
  (e.1, e.2.1, e.2.2.2)

/-- A table runs: UP in RAMP, or DOWN. -/
def Dev.seqRuns (d : Dev) : Bool := (d.sq == Sq.up && d.md == Md.ramp) || (d.sq == Sq.down && d.active)

/-- The entry in progress of a running table is read; by the agent of the boot ROM (DESIGN CHOICE, log 49). -/
def Dev.seqRead (d : Dev) : Dev := if d.seqRuns then d.tabRead 0x35 (0xB000 + 8 * d.rd MODE_STATUS.SEQ_ENTRY) 8 else d

/-- The next command of the sequence is an entry of this OP, and its tick has come (log 7). -/
def Dev.seqTurn (d : Dev) (op : Nat) : Bool :=
  d.seqRuns && !d.mode.seqWait && !d.mode.seqPast && d.seqNow.1 == op && decide (d.mode.seqAt ≤ d.now)

/-- The next entry runs at tick `t`; past the last entry the table has ended (R285). -/
def Dev.seqNext (d : Dev) (t : Nat) : Dev :=
  let e := d.rd MODE_STATUS.SEQ_ENTRY
  let last := if e < 64 then d.rd MODE_CFG.UP_LEN else 64 + d.rd MODE_CFG.DOWN_LEN
  if e = last then { d with mode := { d.mode with seqAt := t, seqWait := false, seqPast := true } }
  else { d.wr MODE_STATUS.SEQ_ENTRY (e + 1) with mode := { d.mode with seqAt := t, seqWait := false } }

/-- A refused action or a wait whose window closed (R285): the up table halts; the down run goes on with SEQ_FAIL (R286). -/
def Dev.seqFail (d : Dev) (t : Nat) : Dev :=
  let d := d.wr MODE_STATUS.SEQ_FAIL 1
  if d.sq = Sq.up then
    { (d.wr MODE_STATUS.SEQ_STATE Sq.halted).evt MODE_EVT.EVT 2 with mode := { d.mode with seqWait := false } }
  else d.seqNext t

/-- An action entry issues its request on its tick; the next entry runs on the following tick (R285). -/
def Dev.seqAct (d : Dev) (op : Nat) (act : Dev → Nat → Dev × Nat) : Dev :=
  let d := d.seqRead
  if ¬ d.seqTurn op then d
  else
    let (d, st) := act d d.seqNow.2.1
    if st = St.success then d.seqNext (d.now + 1) else d.seqFail (d.now + 1)

/-- Requests of the sequence to the entry die are refused while it cannot be reached (log 27). -/
def Dev.entryReach (d : Dev) (f : Dev → Nat → Dev × Nat) (d' : Dev) (n : Nat) : Dev × Nat :=
  if d.dieOut 4 then (d', St.linkFenced) else f d' n

/-- ENTRY_ON (R284, 02_power_entry.md R36). -/
def devEntryOn (d : Dev) : Dev := d.seqAct 1 (d.entryReach fun d n => d.entOnReq n)
/-- ENTRY_ON -/
def execEntryOn (s : State) : Host.Outcome State Fault Refusal := .next { s with dev := devEntryOn s.dev }

/-- BRANCH_ON (R284, 03_branch_fuses.md R66). -/
def devBranchOn (d : Dev) : Dev := d.seqAct 2 (d.entryReach fun d n => d.brOnReq n)
/-- BRANCH_ON -/
def execBranchOn (s : State) : Host.Outcome State Fault Refusal := .next { s with dev := devBranchOn s.dev }

/-- A rail command of the sequencer or of restoration: it carries the MODE owner's rights, which the POWER domain may refuse (R293), and
its rail may be out of reach (log 27). -/
def Dev.ownerRail (d : Dev) (r : Nat) (f : Dev → Dev × Nat) : Dev × Nat :=
  if ¬ d.ownerMay 1 then (d, St.notOwner) else if d.railLink r then f d else (d, St.linkFenced)

/-- RAIL_ON (R284, 04_rail_loom.md R108). -/
def devRailOn (d : Dev) : Dev :=
  d.seqAct 3 fun d r => d.ownerRail r fun d => d.railEnable r
/-- RAIL_ON -/
def execRailOn (s : State) : Host.Outcome State Fault Refusal := .next { s with dev := devRailOn s.dev }

/-- ENTRY_OFF (R284). -/
def devEntryOff (d : Dev) : Dev := d.seqAct 8 (d.entryReach fun d n => (d.entOffReq n, St.success))
/-- ENTRY_OFF -/
def execEntryOff (s : State) : Host.Outcome State Fault Refusal := .next { s with dev := devEntryOff s.dev }

/-- BRANCH_OFF (R284). -/
def devBranchOff (d : Dev) : Dev := d.seqAct 9 (d.entryReach fun d n => (d.brOffReq n, St.success))
/-- BRANCH_OFF -/
def execBranchOff (s : State) : Host.Outcome State Fault Refusal := .next { s with dev := devBranchOff s.dev }

/-- RAIL_OFF (R284, 04_rail_loom.md R108). -/
def devRailOff (d : Dev) : Dev :=
  d.seqAct 0xA fun d r => d.ownerRail r fun d => ((d.railDisable r).1, St.success)
/-- RAIL_OFF -/
def execRailOff (s : State) : Host.Outcome State Fault Refusal := .next { s with dev := devRailOff s.dev }

/-- A DELAY or a WAIT opens on its tick (R285). -/
def Dev.seqOpen (d : Dev) (op : Nat) : Dev :=
  let d := d.seqRead
  let now := d.now
  if d.seqTurn op then { d with mode := { d.mode with seqAt := now, seqWait := true } } else d

/-- DELAY (R285). -/
def devDelay (d : Dev) : Dev := d.seqOpen 4
/-- DELAY -/
def execDelay (s : State) : Host.Outcome State Fault Refusal := .next { s with dev := devDelay s.dev }

/-- A DELAY entered at tick t hands on at t + TIME (R285). -/
def devSeqDelayExpire (d : Dev) : Dev :=
  if d.seqRuns ∧ d.mode.seqWait ∧ d.seqNow.1 = 4 ∧ d.mode.seqAt + d.seqNow.2.2 ≤ d.now then
    d.seqNext (d.mode.seqAt + d.seqNow.2.2)
  else d
/-- SEQ_DELAY_EXPIRE -/
def execSeqDelayExpire (s : State) : Host.Outcome State Fault Refusal := .next { s with dev := devSeqDelayExpire s.dev }

/-- WAIT_ENTRY opens its window (R285). -/
def devWaitEntry (d : Dev) : Dev := d.seqOpen 5
/-- WAIT_ENTRY -/
def execWaitEntry (s : State) : Host.Outcome State Fault Refusal := .next { s with dev := devWaitEntry s.dev }

/-- WAIT_BRANCH opens its window (R285). -/
def devWaitBranch (d : Dev) : Dev := d.seqOpen 6
/-- WAIT_BRANCH -/
def execWaitBranch (s : State) : Host.Outcome State Fault Refusal := .next { s with dev := devWaitBranch s.dev }

/-- WAIT_PG opens its window (R285). -/
def devWaitPg (d : Dev) : Dev := d.seqOpen 7
/-- WAIT_PG -/
def execWaitPg (s : State) : Host.Outcome State Fault Refusal := .next { s with dev := devWaitPg s.dev }

/-- WAIT_RAIL_OFF opens its window (R285). -/
def devWaitRailOff (d : Dev) : Dev := d.seqOpen 0xB
/-- WAIT_RAIL_OFF -/
def execWaitRailOff (s : State) : Host.Outcome State Fault Refusal := .next { s with dev := devWaitRailOff s.dev }

/-- The condition of the WAIT in progress holds (R284); a group counts over its members that are neither LATCHED nor FENCED
(log 27). -/
def Dev.seqCond (d : Dev) : Bool :=
  let n := d.seqNow.2.1
  match d.seqNow.1 with
  | 5 =>
    let left := match d.groupOf n with | none => [n] | some g => d.mateLeft g
    left != [] && left.all fun m => d.es m == Ec.on
  | 6 => d.bs n == Ec.on
  | 7 => d.on (RAIL_STATUS.PG n)
  | 0xB => d.rs n == Rs.off || d.rs n == Rs.fenced
  | _ => false

/-- The condition of a WAIT holds inside its window: the next entry runs on the following tick (R285). -/
def devSeqWaitDone (d : Dev) : Dev :=
  if d.seqRuns ∧ d.mode.seqWait ∧ d.seqCond ∧ d.now < d.mode.seqAt + d.seqNow.2.2 then d.seqNext (d.now + 1) else d
/-- SEQ_WAIT_DONE -/
def execSeqWaitDone (s : State) : Host.Outcome State Fault Refusal := .next { s with dev := devSeqWaitDone s.dev }

/-- The window of a WAIT closes (R285, R286). -/
def devSeqWaitTimeout (d : Dev) : Dev :=
  if d.seqRuns ∧ d.mode.seqWait ∧ d.seqNow.1 ≠ 4 ∧ d.mode.seqAt + d.seqNow.2.2 ≤ d.now then d.seqFail d.now else d
/-- SEQ_WAIT_TIMEOUT -/
def execSeqWaitTimeout (s : State) : Host.Outcome State Fault Refusal := .next { s with dev := devSeqWaitTimeout s.dev }

/-- The end of the down run (R286): every rail, branch and entry channel still on turns off, and CONFIGURE is entered; the request
completes just before (R272). -/
def Dev.downEnd (d : Dev) : Dev :=
  let d := d.completeAll d.mode.seqOut St.success
  let d := { d with mode := { d.mode with seqOut := [], seqPast := false, seqWait := false } }
  let d := d.forN 64 fun d r => d.railStop r
  let d := if d.dieOut 4 then d else (d.forN 64 fun d n => d.brOffReq n).forN 16 fun d n => d.entOffOne n
  ((d.wr MODE_STATUS.SEQ_STATE Sq.done).evt MODE_EVT.EVT 1).modeGo Md.configure 3

/-- END, or the end of the last entry (R285, R286): the up table enters RUN, the down run CONFIGURE (a down run in HOLDUP waits for
the exit: log 27). -/
def devSeqEnd (d : Dev) : Dev :=
  if ¬ d.seqRuns ∨ d.mode.seqWait ∨ d.now < d.mode.seqAt ∨ ¬ (d.mode.seqPast ∨ d.seqNow.1 = 0) then d
  else if d.sq = Sq.up then (((d.modeGo Md.run 4).wr MODE_STATUS.SEQ_STATE Sq.done).evt MODE_EVT.EVT 1).modeCopy
  else if d.md = Md.holdup then d
  else d.downEnd.configureEntry
/-- END -/
def execSeqEnd (s : State) : Host.Outcome State Fault Refusal := .next { s with dev := devSeqEnd s.dev }

/-! ## HOLDUP (R287, R288; 02_power_entry.md R54, R55) -/

/-- HOLDUP entry (R271, R287): restoration is abandoned, an up table in progress is SUSPENDED. -/
def Dev.holdupEnter (d : Dev) : Dev :=
  let now := d.now
  let d := (d.modeBack 5).modeGo Md.holdup 5
  let d := { d with mode := { d.mode with tHold := now, shedDone := 0, resStage := 0, resLeft := [] } }
  (if d.sq = Sq.up then d.wr MODE_STATUS.SEQ_STATE Sq.suspended else d).modeCopy

/-- The comparator of ARMED channel `n` ends its filter: it goes ON with no INRUSH (02_power_entry.md R54), and the device enters
HOLDUP from RAMP or RUN unless the entry link is lost (R271, R294). In keep it engages as R57 says, and is no limit that latches (R58
lists the comparator there too: DESIGN CHOICE, log 47). A trip due on the tick is taken first. -/
def devHoldupEngage (n : Nat) (d : Dev) : Dev :=
  let d := d.entFirst n
  if d.es n ≠ Ec.armed ∨ ¬ (d.keep.on ∨ d.active ∨ d.md = Md.safe) then d
  else
    let d := d.entGo n Ec.on .enhancing
    if ¬ d.dieOut 4 ∧ (d.md = Md.ramp ∨ d.md = Md.run) then d.holdupEnter else d
/-- HOLDUP_ENGAGE -/
def execHoldupEngage (n : Fin 16) (s : State) : Host.Outcome State Fault Refusal :=
  .next { s with dev := devHoldupEngage n.val s.dev }

/-- A stage's window closes: its rails are disabled, and await restoration (R287). -/
def devHoldupStageShed (k : Nat) (d : Dev) : Dev :=
  if k = 0 ∨ d.md ≠ Md.holdup ∨ d.mode.shedDone.testBit k ∨ d.now < d.mode.tHold + d.rd (HU_STAGE.STAGE_T (k - 1)) then d
  else
    let d := { d with mode := { d.mode with shedDone := setBit d.mode.shedDone k } }
    let rails := (List.range 64).filter fun r => bits (d.rd (HU_PRIO.PRIO (r / 8))) (4 * (r % 8) + 2) (4 * (r % 8)) == k && d.rLive r
    if rails = [] then d
    else (d.forL rails fun d r => (d.railStop r).wrBit (HU_SHED.SHED (r / 32)) (r % 32) true).evt MODE_EVT.EVT 3
/-- HOLDUP_STAGE_SHED -/
def execHoldupStageShed (st : Fin 8) (s : State) : Host.Outcome State Fault Refusal :=
  .next { s with dev := devHoldupStageShed st.val s.dev }

/-- The stage of rail `r` in HU_PRIO (R273). -/
def Dev.stageOf (d : Dev) (r : Nat) : Nat := bits (d.rd (HU_PRIO.PRIO (r / 8))) (4 * (r % 8) + 2) (4 * (r % 8))

/-- The rails of stage `k` that await restoration, lowest first. -/
def Dev.shedRails (d : Dev) (k : Nat) : List Nat :=
  (List.range 64).filter fun r => d.rdBit (HU_SHED.SHED (r / 32)) (r % 32) && d.stageOf r == k

/-- The lowest stage above `k` that holds shed rails. -/
def Dev.nextStage (d : Dev) (k : Nat) : Option Nat := (List.range 8).find? fun j => decide (k < j) && d.shedRails j != []

/-- A restoration stage begins on this tick; with no stage left, restoration is complete (R288). -/
def Dev.stageBegin (d : Dev) (k : Nat) : Dev :=
  let now := d.now
  match d.nextStage k with
  | none => { d.evt MODE_EVT.EVT 4 with mode := { d.mode with resStage := 0, resLeft := [] } }
  | some j =>
    let more := (d.shedRails j).filter fun r => ! d.mode.resLeft.contains r
    { d with mode := { d.mode with resStage := j, resAt := now, resDue := max now d.mode.resDue, resLeft := d.mode.resLeft ++ more } }

/-- One RAIL_ENABLE of restoration (R288): a refused enable is passed over. -/
def Dev.restoreOne (d : Dev) (r : Nat) : Dev :=
  let d := d.wrBit (HU_SHED.SHED (r / 32)) (r % 32) false
  let (d, st) := d.ownerRail r fun d => d.railEnable r
  if st = St.success then d else d.evt MODE_EVT.EVT 5

/-- The rails of stage `k` in HU_PRIO that are enabled and not yet power-good. -/
def Dev.stageWaits (d : Dev) (k : Nat) : Bool :=
  (List.range 64).any fun r => d.stageOf r == k && (d.rs r == Rs.start || d.rs r == Rs.run) && !(d.on (RAIL_STATUS.PG r))

/-- The limit RESTORE_T of the present stage has come: the next stage begins, if there is one, while enables of this one may be left
(R288; log 27). -/
def Dev.stageLate (d : Dev) : Bool :=
  decide (d.mode.resAt + d.rd HU_RESTORE_T.RESTORE_T ≤ d.now) && (d.nextStage d.mode.resStage).isSome

/-- Restoration goes on (R288): the next stage at the limit of this one, the next enable, one per tick, or the next stage. -/
def devRestoreStage (d : Dev) : Dev :=
  if d.mode.resStage = 0 ∨ ¬ (d.md = Md.ramp ∨ d.md = Md.run) ∨ d.now < d.mode.resDue then d
  else
    let d := if d.stageLate then d.stageBegin d.mode.resStage else d
    match d.mode.resLeft with
    | r :: rest =>
      let now := d.now
      let d := { d with mode := { d.mode with resLeft := rest, resDue := now + 1 } }
      d.restoreOne r
    | [] =>
      if d.stageWaits d.mode.resStage ∧ d.now < d.mode.resAt + d.rd HU_RESTORE_T.RESTORE_T then d
      else d.stageBegin d.mode.resStage
/-- RESTORE_STAGE -/
def execRestoreStage (s : State) : Host.Outcome State Fault Refusal := .next { s with dev := devRestoreStage s.dev }

/-- How many backplane channels and groups count towards the exit (02_power_entry.md R55). -/
def Dev.exitCount (d : Dev) : Nat :=
  let good := fun n => d.es n == Ec.on && decide (d.rd HU_CFG.V_BP_OK * 16 ≤ (d.E n).vin)
  let alone := (List.range 16).filter fun n => d.rd (ENT_CFG.ROLE n) == 1 && (d.groupOf n).isNone && good n
  let groups := (List.range 8).filter fun g => d.members g != [] && (d.members g).all good
  alone.length + groups.length

/-- Hold-up exit (02_power_entry.md R55; R271, R285, R288): battery channels return to ARMED, the mode held before returns, the
sequence's entry starts afresh, and restoration begins. -/
def Dev.holdupLeave (d : Dev) : Dev :=
  let now := d.now
  let d := d.forN 16 fun d n =>
    if d.battery n ∧ d.es n = Ec.on then
      let d := d.entBlocks n
      if d.es n = Ec.on then d.entGo n Ec.armed .off else d
    else d
  let back := d.rd MODE_STATUS.PREV
  let d := d.modeGo back 6
  let d := if d.sq = Sq.suspended then
      { d.wr MODE_STATUS.SEQ_STATE Sq.up with mode := { d.mode with seqAt := now, seqWait := false } }.modeCopy else d
  let d := { d with mode := { d.mode with resLeft := [], resDue := 0 } }
  if d.on MODE_CFG.HU_RESTORE then d.stageBegin 0
  else (d.wr (HU_SHED.SHED 0) 0).wr (HU_SHED.SHED 1) 0

/-- The first tick after the entry tick on which enough channels count (02_power_entry.md R55). -/
def devHoldupExit (d : Dev) : Dev :=
  if d.md = Md.holdup ∧ ¬ d.dieOut 4 ∧ d.mode.tHold < d.now ∧ d.rd HU_CFG.HU_EXIT_MIN + 1 ≤ d.exitCount then d.holdupLeave else d
/-- HOLDUP_EXIT -/
def execHoldupExit (s : State) : Host.Outcome State Fault Refusal := .next { s with dev := devHoldupExit s.dev }

end Sys2Proof.Machine
end

