-- ==== Sys2Proof/Machine/Supplies.lean ====
section
/-! DEFINITION. Supplies, straps, reset pins, the FACTORY unlock and the root clock's return (10_modes_startup.md R271, R274-R276,
R291, R292; 11_clocks_time.md R297, R298; 12_host_rings.md R331; 18_package_electrical.md R462, R476). -/

namespace Sys2Proof.Machine

/-- VSTBY reaches its threshold (R271): STANDBY, with nothing left from before OFF (08_battery_estimation.md R237); the standby banks begin
their initialisation (16_memory_protection.md R438; log 4). -/
def devVstbyRise (d : Dev) : Dev :=
  if d.md ≠ Md.off then d
  else
    let d' : Dev := { host := { mem := d.host.mem }, mode := { otp := d.mode.otp }, clk := { freeCtr := d.clk.freeCtr } }
    ((d'.wr MODE_STATUS.PREV 0).wr MODE_STATUS.CAUSE 1).evt MODE_EVT.EVT 0
/-- VSTBY_RISE -/
def execVstbyRise (s : State) : Host.Outcome State Fault Refusal := .next { s with dev := devVstbyRise s.dev }

/-- VSTBY falls below its retention level: OFF holds no state (R271; 18_package_electrical.md R462). Host memory and the
one-time-programmable cells are not the standby island's. -/
def devVstbyLoss (d : Dev) : Dev :=
  let d' : Dev := { host := { mem := d.host.mem }, mode := { otp := d.mode.otp }, clk := { freeCtr := d.clk.freeCtr } }
  d'.wr MODE_STATUS.MODE Md.off
/-- VSTBY_LOSS -/
def execVstbyLoss (s : State) : Host.Outcome State Fault Refusal := .next { s with dev := devVstbyLoss s.dev }

/-- STANDBY is entered (R271): the hub and the loom dice go, the KC runs on from the standby oscillator (15_mograthes_cores.md
R422), and Sage measures the oscillator to within 0.1% (08_battery_estimation.md R221; log 5). -/
def Dev.standbyEnter (d : Dev) : Dev :=
  let r := (50000 - 50 + d.freeVal % 101, 1000)
  let d : Dev := { d.nextFree with clk := { d.nextFree.clk with ratio := r } }
  let d : Dev := if d.anyOn ∨ d.keep.on then d.keepGo else (d.icvClock true).keepChannels
  let d := d.resetBase true
  let old := d.md
  ((((d.wr MODE_STATUS.PREV old).wr MODE_STATUS.CAUSE 9).wr MODE_STATUS.MODE Md.standby).evt MODE_EVT.EVT 0).alertShow

/-- A main-supply monitor reports failure (R271, R462). -/
def devMainSupplyFail (d : Dev) : Dev :=
  if d.md = Md.off then d
  else if d.md = Md.standby then { d with clk := { d.clk with released := none } }
  else d.standbyEnter
/-- MAIN_SUPPLY_FAIL -/
def execMainSupplyFail (s : State) : Host.Outcome State Fault Refusal := .next { s with dev := devMainSupplyFail s.dev }

/-- Every main-supply monitor has reported good for its 32,000 cycles (R274): the straps are sampled (R275), and the PLL starts
(11_clocks_time.md R297). -/
def devSuppliesGood (st : Straps) (d : Dev) : Dev :=
  if d.md ≠ Md.standby ∨ d.clk.released.isSome then d
  else
    let sb := d.clk.sb
    { d.straps st with clk := { d.clk with released := some sb } }
/-- SUPPLIES_GOOD -/
def execSuppliesGood (st : Straps) (s : State) : Host.Outcome State Fault Refusal :=
  .next { s with dev := devSuppliesGood st s.dev }

/-- The PLL locks after the release: CONFIGURE is entered, or SAFE after its boot with the latch set (R271, R274; 11_clocks_time.md
R297, R300). -/
def devRootPllLock (d : Dev) : Dev :=
  if d.md ≠ Md.off ∧ ¬ d.clk.hub ∧ d.clk.released.isSome then
    d.releaseHub
  else if d.clk.hub ∧ ¬ d.clk.rootLost then d.wr CLK_STATUS.LOCK 1
  else d
/-- ROOT_PLL_LOCK -/
def execRootPllLock (s : State) : Host.Outcome State Fault Refusal := .next { s with dev := devRootPllLock s.dev }

/-- The modes out of which a reset leads (R271). -/
def Dev.resets (d : Dev) : Bool := d.md != Md.off && d.md != Md.standby

/-- RESET_N has been low for 16 cycles of the standby oscillator (R276, R476). -/
def devResetN (st : Straps) (d : Dev) : Dev := if d.resets then d.devReset st (d.clk.hub && !d.clk.rootLost) else d
/-- RESET_N -/
def execResetN (st : Straps) (s : State) : Host.Outcome State Fault Refusal := .next { s with dev := devResetN st s.dev }

/-- A write of MODE_RESET: its key resets the device, other values are ignored (R273, R276). -/
def devModeReset (a : Agent) (v : Word) (st : Straps) (d : Dev) : Dev :=
  if ¬ d.resets then d
  else if v.toNat = 0xA5C3 then d.devReset st (d.clk.hub && !d.clk.rootLost)
  else d.wign a.toNat 0x1070 2
/-- MODE_RESET -/
def execModeReset (a : Agent) (v : Word) (st : Straps) (s : State) : Host.Outcome State Fault Refusal :=
  .next { s with dev := devModeReset a v st s.dev }

/-- The PCIe link is down, or PE_PERST_N asserts: every host ring goes DISABLED, completions of its descriptors are discarded, and
HOST_LINK is raised (12_host_rings.md R331; R276). -/
def Dev.hostDown (d : Dev) : Dev :=
  let d := d.forN 0x180 fun d n =>
    let d := (d.wr (RG_CFG.EN n) 0).wr (RG_STATUS.STATE n) Rg.disabled
    (d.onRG n fun x => { x with fullAt := none, fetchAt := none }).rgShed n
  let d := d.dropOuts fun src => match src with | .host _ => true | _ => false
  let d := { d with flt := { d.flt with ring := false }, host := { d.host with down := true } }
  (d.evt HOST_EVT.EVT 1).raise 0x73 0 0x30 0

/-- PE_PERST_N asserts (R276). -/
def devPePerstN (d : Dev) : Dev := if d.clk.hub then d.hostDown else d
/-- PE_PERST_N -/
def execPePerstN (s : State) : Host.Outcome State Fault Refusal := .next { s with dev := devPePerstN s.dev }

/-- REFCLK has returned: after a loss of the root clock the device passes through reset, which ends once the PLL has locked, and enters
SAFE; after a frequency out of range REF_OK is set again (11_clocks_time.md R297, R298, R308). -/
def devRefclkReturn (st : Straps) (d : Dev) : Dev :=
  if d.clk.rootLost ∧ d.resets then d.devReset st false
  else if d.clk.hub ∧ ¬ d.clk.rootLost then d.wr CLK_STATUS.REF_OK 1
  else d
/-- REFCLK_RETURN -/
def execRefclkReturn (st : Straps) (s : State) : Host.Outcome State Fault Refusal :=
  .next { s with dev := devRefclkReturn st s.dev }

/-- A write of MODE_UNLOCK (R292): two keys from one agent, the second fewer than 8,000 ticks after the first, in CONFIGURE with
FACTORY_N sampled low; any other write restarts the sequence. -/
def devModeUnlock (a : Agent) (v : Word) (d : Dev) : Dev :=
  let set := fun (x : Option (Nat × Nat)) => { d with mode := { d.mode with unlock := x } }
  if ¬ d.clk.hub then d
  else if ¬ (a.toNat = 0 ∨ a.toNat = 1) then set none
  else if v.toNat = 0x5A5A0F0F then set (some (d.now, a.toNat))
  else if v.toNat = 0x0F0F5A5A then
    match d.mode.unlock with
    | some (t, b) =>
      if b = a.toNat ∧ d.now < t + 8000 ∧ d.md = Md.configure ∧ ¬ d.mode.afterSafe ∧ ¬ d.on DEV_STATUS.FACTORY_N then (set none).modeGo Md.factory 0x0A
      else set none
    | none => set none
  else set none
/-- MODE_UNLOCK -/
def execModeUnlock (a : Agent) (v : Word) (s : State) : Host.Outcome State Fault Refusal :=
  .next { s with dev := devModeUnlock a v s.dev }

end Sys2Proof.Machine
end

