-- ==== Sys2Proof/Machine/Engine.lean ====
section
/-! DEFINITION. The ring engine: descriptor fetch and retirement, event records, moderation, doorbells, ring enables, and the result
queue (12_host_rings.md R315-R348; 07_conversion.md R216). -/

namespace Sys2Proof.Machine

/-! ## Fetching (R319, R322, R330) -/

/-- A descriptor's 64 bytes as its opcode and its contents (R319). -/
def descOf (src : Src) (b : List Byte) : Nat × Desc :=
  let t := leNat b 4 2
  (byteAt b 0,
   { src := src, irq := (byteAt b 1).testBit 0, sup := (byteAt b 1).testBit 1, tag := BitVec.ofNat 16 (leNat b 2 2),
     cls := BitVec.ofNat 4 (t / 4096), idx := BitVec.ofNat 12 t,
     dirty := byteAt b 1 / 4 != 0 || (List.range 10).any fun k => byteAt b (6 + k) != 0,
     payload := (List.range 48).map fun k => BitVec.ofNat 8 (byteAt b (16 + k)) })

/-- The opcodes of R321. -/
def opcodes : List Nat :=
  [0x00, 0x01, 0x02, 0x03, 0x04, 0x05, 0x10, 0x11, 0x12, 0x13, 0x14, 0x18, 0x19, 0x1A, 0x20, 0x21, 0x22, 0x28, 0x29, 0x30, 0x31]

/-- The window of a fetch without completion, and of a stalled ring (R314). -/
def Dev.stallT (d : Dev) : Nat := max 800000 (d.rd STALL_T.VAL)

/-- How many of a source's descriptors are outstanding (R322). -/
def Dev.outCount (d : Dev) (src : Src) : Nat := (d.host.out.filter fun o => decide (o.d.src = src)).length

/-- The source of turn `k` of a round: host rings 0 to 63, then the internal rings (R322). -/
def turnSrc (k : Nat) : Option Src :=
  if h : k < 64 then some (.host ⟨k, h⟩) else if h : k - 64 < 21 then some (.core ⟨k - 64, h⟩) else none

/-- The first turn at or after `host.rr` whose ring may fetch (R322). -/
def Dev.fetchTurn (d : Dev) : Option (Nat × Src × Nat) :=
  if 4096 ≤ d.host.out.length then none
  else
    (List.range 85).findSome? fun j =>
      let k := (d.host.rr + j) % 85
      match turnSrc k with
      | none => none
      | some src => match src.ring with
        | none => none
        | some n => if d.eligible n ∧ d.outCount src < 1024 then some (k, src, n) else none

/-- The descriptor at a ring's fetch index, `none` if it cannot be read (R319, R348). -/
def Dev.readDesc (d : Dev) (src : Src) (n : Nat) : Dev × Option (List Byte) :=
  let addr := d.rgBase n + 64 * ((d.RG n).fetched % d.rgSize n)
  match src with
  | .core c => match coreBank c.val addr with
    | none => (d, none)
    | some (b, o) => match d.readBank b o 0x30 5 64 with
      | (d, none) => (d, none)
      | (d, some v) => (d, some (leBytes v 64))
  | _ => (d, some (d.hRd addr 64))

/-- A fetched descriptor joins the outstanding ones (R322). An unlisted opcode, and a MODE_REQUEST of no listed target, which have no
row of their own, complete at once (R321; 10_modes_startup.md R272). -/
def Dev.takeIn (d : Dev) (src : Src) (b : List Byte) : Dev :=
  let (opc, x) := descOf src b
  let i := d.host.nextId
  let o : Out := { id := i, opc := opc, d := x }
  let d := { d with host := { d.host with out := d.host.out ++ [o], nextId := i + 1 } }
  if ¬ opcodes.contains opc then d.endDesc i src St.opcodeInvalid
  else if opc = 2 ∧ ¬ ([2, 3, 4, 6, 8].contains (byteAt x.payload 0)) then
    d.runNow 2 x (some 0) true none fun d _ => (d, some St.descInvalid)
  else d

/-- The descriptor at a ring's fetch index has been read: the index advances, and the window of the next fetch opens (R322, R330). -/
def Dev.takeDesc (d : Dev) (src : Src) (n : Nat) (b : List Byte) : Dev :=
  let d := d.onRG n fun s => { s with fetched := (s.fetched + 1) % 2 ^ 32 }
  (d.onRG n fun s => { s with fetchAt := if d.eligible n then some d.now else none }).takeIn src b

/-- The mailbox's descriptor is taken once the engine has fewer than 4,096 outstanding (R322; 14_two_wire.md R391). -/
def Dev.takeBox (d : Dev) : Dev :=
  if d.bmc.busy ∧ d.outCount .mailbox = 0 ∧ d.host.out.length < 4096 then
    d.takeIn .mailbox ((List.range 64).map fun k => KV.get (fun _ => 0) d.bmc.box k)
  else d

/-- The ring engine fetches the next descriptor (R322); one that cannot be read halts its ring (R330). -/
def devDescriptorFetch (d : Dev) : Dev :=
  if ¬ d.clk.hub then d
  else if d.bmc.busy ∧ d.outCount .mailbox = 0 then d.takeBox
  else match d.fetchTurn with
    | none => d
    | some (k, src, n) =>
      let d := { d with host := { d.host with rr := (k + 1) % 85 } }
      match d.readDesc src n with
      | (d, some b) => d.takeDesc src n b
      | (d, none) => d.rgHalt n src.ringCode src.agent (d.rgBase n + 64 * ((d.RG n).fetched % d.rgSize n))
/-- DESCRIPTOR_FETCH -/
def execDescriptorFetch (s : State) : Host.Outcome State Fault Refusal := .next { s with dev := devDescriptorFetch s.dev }

/-- A fetch of a ring fails if `due` holds (R330); at a limit of outstanding descriptors none is under way (R322). A ring's fetch is under way
from the moment it is eligible, whatever the round-robin's turn (DEDUCED, log 10). -/
def Dev.fetchFail (d : Dev) (src : Src) (due : Nat → Bool) : Dev :=
  match src.ring with
  | none => d
  | some n =>
    if d.clk.hub ∧ d.eligible n ∧ d.outRoom src ∧ due n then
      d.rgHalt n src.ringCode src.agent (d.rgBase n + 64 * ((d.RG n).fetched % d.rgSize n))
    else d

/-- No completion of a fetch within STALL_T (R330). -/
def devDescFetchTimeout (r : Src) (d : Dev) : Dev := d.fetchFail r fun n => closed d.now (d.RG n).fetchAt d.stallT
/-- DESC_FETCH_TIMEOUT -/
def execDescFetchTimeout (r : Src) (s : State) : Host.Outcome State Fault Refusal :=
  .next { s with dev := devDescFetchTimeout r s.dev }

/-- A fetch completes with an error (R330). -/
def devDescFetchError (r : Src) (d : Dev) : Dev := d.fetchFail r fun _ => true
/-- DESC_FETCH_ERROR -/
def execDescFetchError (r : Src) (s : State) : Host.Outcome State Fault Refusal :=
  .next { s with dev := devDescFetchError r s.dev }

/-! ## Retirement (R325) -/

/-- A FENCE that waits learns when an earlier descriptor of its ring completed (R346). -/
def Dev.fenceNote (d : Dev) (o : Out) : Dev :=
  match o.result with
  | none => d
  | some (_, t) =>
    { d with host := { d.host with fences := d.host.fences.map fun f =>
        if f.src = o.d.src ∧ f.tw = none ∧ o.id < f.id then { f with since := max f.since t } else f } }

/-- The mailbox's descriptor retires: its record is written and BUSY clears; SUPPRESS is ignored (14_two_wire.md R391). -/
def Dev.retireBox (d : Dev) (o : Out) : Dev :=
  if o.result.isNone then d
  else
    let d := d.popOut o
    { d with bmc := { d.bmc with compl := o.record, busy := false } }

/-- An internal ring that drains becomes DISABLED once the last of its descriptors has retired (R316, R348). -/
def Dev.irDrained (d : Dev) (c n : Nat) (src : Src) : Dev :=
  if c < 21 ∧ d.rgState n = Rg.draining ∧ (d.headOut src).isNone then d.wr (RG_STATUS.STATE n) Rg.disabled else d

/-- The oldest outstanding descriptor of a source retires, if it has completed and its record can be written (R325). -/
def devCompletionRetire (r : Src) (d : Dev) : Dev :=
  if ¬ d.clk.hub then d
  else match d.headOut r with
    | none => d
    | some o =>
      let d := if o.result.isSome then d.fenceNote o else d
      match r with
      | .host n => d.retireHost n.val o
      | .core c => (d.retireCore c.val (0x2C0 + c.val) o).irDrained c.val (0x2C0 + c.val) r
      | .mailbox => d.retireBox o
/-- COMPLETION_RETIRE -/
def execCompletionRetire (r : Src) (s : State) : Host.Outcome State Fault Refusal :=
  .next { s with dev := devCompletionRetire r s.dev }

/-! ## Event records, moderation and stalls (R328-R330) -/

/-- A completion or event ring has stayed full with a record waiting for STALL_T: RING_STALL (R330). -/
def Dev.stallDue (d : Dev) (n : Nat) : Dev :=
  if 0x40 ≤ n ∧ n < 0x180 ∧ d.rgState n = Rg.active ∧ closed d.now (d.RG n).fullAt d.stallT then
    (d.onRG n fun s => { s with fullAt := none }).raise 0x72 n 0x30 0
  else d

/-- A ring with room has no record waiting any more, or one that it can take; a stall window that closes on this very tick has its effect
(R330; 00_scope.md R8). -/
def Dev.rgEase (d : Dev) (n : Nat) : Dev :=
  if d.rgRoom n then (d.stallDue n).onRG n fun s => { s with fullAt := none } else d

/-- After a write to event ring `e`, a record that still waits on the ring if it is full opens a stall window (R330). -/
def Dev.rgMore (d : Dev) (e : Nat) : Dev :=
  let s := d.RG (evRing e)
  if s.held ≠ [] ∨ s.epoch.isSome ∨ (e = d.rd FLT_CFG.FLT_RING ∧ d.flt.ring ∧ d.lostSlot.isSome) then d.rgWait (evRing e)
  else d

/-- Event ring `e`, with room, takes the oldest record that waits for it: of its queue, then the held TIME_EPOCH, then one
FAULT_UPDATE for each slot whose report was lost (R328). -/
def devEventRecordWrite (e : Nat) (d : Dev) : Dev :=
  let n := evRing e
  if ¬ (d.clk.hub ∧ d.rgRoom n) then d
  else match (d.RG n).held, (d.RG n).epoch with
    | b :: r, _ =>
      let d := (((d.rgEase n).onRG n fun s => { s with held := r }).rgPut n b).rgMore e
      if isMarker b then (d.markerIn (byteAt b 4) e).fenceEnds else d
    | [], some b => (((d.rgEase n).onRG n fun s => { s with epoch := none }).rgPut n b).rgMore e
    | [], none =>
      let d := d.rgEase n
      if e = d.rd FLT_CFG.FLT_RING ∧ d.flt.ring then d.reportLost.rgMore e else d
/-- EVENT_RECORD_WRITE -/
def execEventRecordWrite (e : Fin 256) (s : State) : Host.Outcome State Fault Refusal :=
  .next { s with dev := devEventRecordWrite e.val s.dev }

/-- The moderation window of a completion or event ring closes (R329). -/
def devItrWindowClose (n : Nat) (d : Dev) : Dev :=
  if d.clk.hub ∧ 0x40 ≤ n then d.itrClose n else d
/-- ITR_WINDOW_CLOSE -/
def execItrWindowClose (r : Fin 384) (s : State) : Host.Outcome State Fault Refusal :=
  .next { s with dev := devItrWindowClose r.val s.dev }

/-- A ring has stayed full with a record waiting for STALL_T (R330). -/
def devRingStall (n : Nat) (d : Dev) : Dev :=
  if d.clk.hub then d.stallDue n else d
/-- RING_STALL -/
def execRingStall (r : Fin 384) (s : State) : Host.Outcome State Fault Refusal := .next { s with dev := devRingStall r.val s.dev }

/-! ## Enables (R316) -/

/-- A write of EN = 1 to a host ring by an agent. -/
def devRingEnable (a : Agent) (n : Nat) (d : Dev) : Dev := if d.clk.hub then d.rgEnable a.toNat n else d
/-- RING_ENABLE -/
def execRingEnable (a : Agent) (r : Fin 384) (s : State) : Host.Outcome State Fault Refusal :=
  .next { s with dev := devRingEnable a r.val s.dev }

/-- A write of EN = 0 to a host ring by an agent. -/
def devRingDisable (a : Agent) (n : Nat) (d : Dev) : Dev := if d.clk.hub then d.rgDisable a.toNat n else d
/-- RING_DISABLE -/
def execRingDisable (a : Agent) (r : Fin 384) (s : State) : Host.Outcome State Fault Refusal :=
  .next { s with dev := devRingDisable a r.val s.dev }

/-- A draining command ring whose descriptors have all retired becomes DISABLED. -/
def devRingDrained (r : Fin 64) (d : Dev) : Dev :=
  if d.clk.hub ∧ d.rgState r.val = Rg.draining ∧ (d.headOut (.host r)).isNone then d.wr (RG_STATUS.STATE r.val) Rg.disabled else d
/-- RING_DRAINED -/
def execRingDrained (r : Fin 64) (s : State) : Host.Outcome State Fault Refusal := .next { s with dev := devRingDrained r s.dev }

/-! ## Doorbells (R317, R318) -/

/-- A doorbell is discarded (R317). -/
def Dev.dbDrop (d : Dev) (w : Doorbell) : Dev := (d.evt HOST_EVT.EVT 0).accessFault 0 2 w.off.toNat

end Sys2Proof.Machine

namespace Sys2Proof

/-- INDEX -/
def Doorbell.index (w : Doorbell) : Nat := w.data.toNat / 2 ^ 32
/-- RING -/
def Doorbell.ring (w : Doorbell) : Nat := w.data.toNat % 2 ^ 13

/-- One 8-byte write at the address of the ring it names, with no reserved bit set (R317). -/
def Doorbell.ok (w : Doorbell) : Bool :=
  w.whole && w.data.toNat / 2 ^ 13 % 2 ^ 19 == 0 &&
  (if w.ring < 0x1000 then decide (w.ring ≤ 0x180) && w.off.toNat == 0x800 * w.ring else w.off.toNat == 0xC0800)

end Sys2Proof

namespace Sys2Proof.Machine

/-- How far an index moves forward, modulo 2^32 (R318). -/
def ahead (new old : Nat) : Nat := (new + 2 ^ 32 - old) % 2 ^ 32

/-- A producer index moves on: it becomes valid if at most the ring's size then lies between producer and consumer (R318). -/
def Dev.produceTo (d : Dev) (n i : Nat) : Option Dev :=
  if d.rgState n = Rg.active ∧ d.rgFill n + ahead i (d.rd (RG_PI.PI n)) ≤ d.rgSize n then
    let d := d.wr (RG_PI.PI n) i
    some (d.onRG n fun s => { s with fetchAt := if d.eligible n then some (s.fetchAt.getD d.now) else none })
  else none

/-- A consumer index moves on, at most to the producer index (R318). -/
def Dev.consumeTo (d : Dev) (n i : Nat) : Option Dev :=
  if d.rgState n = Rg.active ∧ ahead i (d.rd (RG_CI.CI n)) ≤ d.rgFill n then some ((d.wr (RG_CI.CI n) i).rgEase n) else none

/-- A command ring's producer doorbell. -/
def devDoorbellCommand (w : Doorbell) (d : Dev) : Dev :=
  if ¬ d.clk.hub then d
  else if w.ok ∧ w.ring < 0x40 then (d.produceTo w.ring w.index).getD (d.dbDrop w) else d.dbDrop w
/-- DOORBELL_COMMAND -/
def execDoorbellCommand (w : Doorbell) (s : State) : Host.Outcome State Fault Refusal :=
  .next { s with dev := devDoorbellCommand w s.dev }

/-- A completion ring's consumer doorbell. -/
def devDoorbellCompletion (w : Doorbell) (d : Dev) : Dev :=
  if ¬ d.clk.hub then d
  else if w.ok ∧ 0x40 ≤ w.ring ∧ w.ring < 0x80 then (d.consumeTo w.ring w.index).getD (d.dbDrop w) else d.dbDrop w
/-- DOORBELL_COMPLETION -/
def execDoorbellCompletion (w : Doorbell) (s : State) : Host.Outcome State Fault Refusal :=
  .next { s with dev := devDoorbellCompletion w s.dev }

/-- An event ring's consumer doorbell. -/
def devDoorbellEvent (w : Doorbell) (d : Dev) : Dev :=
  if ¬ d.clk.hub then d
  else if w.ok ∧ 0x80 ≤ w.ring ∧ w.ring < 0x180 then (d.consumeTo w.ring w.index).getD (d.dbDrop w) else d.dbDrop w
/-- DOORBELL_EVENT -/
def execDoorbellEvent (w : Doorbell) (s : State) : Host.Outcome State Fault Refusal :=
  .next { s with dev := devDoorbellEvent w s.dev }

/-- Archive pages come back in report order and rejoin the pool (R343). -/
def devDoorbellArchive (w : Doorbell) (d : Dev) : Dev :=
  let k := ahead w.index d.host.ret
  if ¬ d.clk.hub then d
  else if w.ok ∧ w.ring = 0x180 ∧ k ≤ d.host.rep.length then
    let back := d.host.rep.take k
    let d := { d with host := { d.host with rep := d.host.rep.drop k, ret := w.index } }
    (d.setPool (d.host.pool ++ back)).archRoom
  else d.dbDrop w
/-- DOORBELL_ARCHIVE -/
def execDoorbellArchive (w : Doorbell) (s : State) : Host.Outcome State Fault Refusal :=
  .next { s with dev := devDoorbellArchive w s.dev }

/-- Host-managed archive space of a thread comes back in units of 64 KiB (R344). -/
def devDoorbellThread (w : Doorbell) (d : Dev) : Dev :=
  let t := w.ring - 0x1000
  let k := ahead w.index ((d.T t).rd % 2 ^ 32)
  if ¬ d.clk.hub then d
  else if w.ok ∧ 0x1000 ≤ w.ring ∧ d.mode.archMode ∧ d.tState t ≠ 0 ∧ d.tDest t = 1 ∧
      ((d.T t).rd + k) * 0x10000 ≤ (d.T t).wr then
    (d.onT t fun x => { x with rd := x.rd + k }).archRoom
  else d.dbDrop w
/-- DOORBELL_THREAD -/
def execDoorbellThread (w : Doorbell) (s : State) : Host.Outcome State Fault Refusal :=
  .next { s with dev := devDoorbellThread w s.dev }

/-- A core's producer doorbell of its internal ring (R348). An invalid index is discarded with ACCESS_FAULT of its writer; the write
shows that the core has taken the completions before it (log 16). -/
def devIrDb (a : Agent) (c : Nat) (v : Word) (d : Dev) : Dev :=
  if ¬ d.clk.hub then d
  else
    match (d.onRG (0x2E0 + c) fun s => { s with itrN := 0 }).produceTo (0x2C0 + c) v.toNat with
    | some d => d
    | none => (d.wign a.toNat (0xD81C + 0x20 * c) 3).accessFault a.toNat 2 (0xD81C + 0x20 * c)
/-- IR_DB -/
def execIrDb (a : Agent) (c : Fin 21) (v : Word) (s : State) : Host.Outcome State Fault Refusal :=
  .next { s with dev := devIrDb a c.val v s.dev }

/-- The PCIe link goes down (R331). Whether its reference was lost the command does not say, so PE_REF is a free value until the host
enables a ring again (11_clocks_time.md R299, R308; log 31). -/
def devHostLinkDown (d : Dev) : Dev :=
  if d.clk.hub then (d.hostDown.wr CLK_STATUS.PE_REF (d.freeVal % 2)).nextFree else d
/-- HOST_LINK_DOWN -/
def execHostLinkDown (s : State) : Host.Outcome State Fault Refusal := .next { s with dev := devHostLinkDown s.dev }

/-! ## Result queue and thread records -/

/-- An open THREAD_DATA record is written 800 ticks after its first entry was produced (R342). -/
def devThreadDataFlush (t : Nat) (d : Dev) : Dev :=
  if d.clk.hub ∧ (d.T t).data ≠ [] ∧ (d.T t).dataAt + 800 ≤ d.now then d.dataOut t else d
/-- THREAD_DATA_FLUSH -/
def execThreadDataFlush (t : Fin 4096) (s : State) : Host.Outcome State Fault Refusal :=
  .next { s with dev := devThreadDataFlush t.val s.dev }

/-- The list without the first entry equal to `e`. -/
def dropEntry (e : Entry) : List Entry → List Entry
  | [] => []
  | x :: r => if x = e then r else x :: dropEntry e r

/-- No sample of the tag of `e` with an earlier stamp is still to arrive (07_conversion.md R216): one forwarded before, or an injected one
whose result is not ready. -/
def Dev.tagFirst (d : Dev) (e : Entry) : Bool :=
  (d.host.fwd.all fun f => f.tag ≠ e.tag || decide (e.stamp ≤ f.stamp)) &&
  ((List.range 8).all fun k =>
    !(d.rd (INJ_STAT.STATE k) == 2 && selTag k ((d.SQ k).injSel % 32) ((d.SQ k).injSel.testBit 5) == e.tag.toNat &&
      decide (d.tagStamp e.tag.toNat (d.SQ k).injIns < e.stamp)))

/-- A forwarded sample or window event reaches the hub and enters each segment that a thread sources it from (07_conversion.md
R216), behind the markers of each FENCE whose t_f has come (R347). -/
def devRqEntry (e : Entry) (d : Dev) : Dev :=
  if ¬ d.clk.hub ∨ ¬ d.host.fwd.contains e ∨ ¬ d.tagFirst e ∨ d.markerDue then d
  else
    ({ d with host := { d.host with fwd := dropEntry e d.host.fwd } }).forN 16 fun d s => d.segEntry s e
/-- RQ_ENTRY -/
def execRqEntry (e : Entry) (s : State) : Host.Outcome State Fault Refusal := .next { s with dev := devRqEntry e s.dev }

/-- A value is returned to an accessor (00_scope.md R4). -/
def Dev.answer (d : Dev) (a w : Nat) : Dev := { d with host := { d.host with rdata := nput d.host.rdata a w } }

/-- A read of RQ_POP_LO: the FUNCTION 0x2 owner takes the head entry, and finds its other half in RQ_POP_HI; an empty segment and any
other agent read 0x0FFF_0000 (07_conversion.md R216), and so does one whose granule gives no data (log 49). -/
def Dev.rqPop (d : Dev) (a s : Nat) : Dev × Nat :=
  match d.Q s with
  | e :: r =>
    if d.owns 3 s a 2 ∧ d.segServed s then
      let h := nget d.rqHead s
      let d := d.tabUse a (0x70 + s) (8 * h) 8
      if ¬ d.segServed s then (d, 0x0FFF0000) else
      ({ (d.onQ s fun _ => r).rqShow s with rqHead := nput d.rqHead s ((h + 1) % 4096), rqHi := nput d.rqHi (256 * s + a) (entryWord e / 2 ^ 32) }, entryWord e % 2 ^ 32)
    else (d, 0x0FFF0000)
  | [] => (d, 0x0FFF0000)

/-- A read of RQ_POP_LO by an agent. -/
def devRqPop (a : Agent) (s : Nat) (d : Dev) : Dev :=
  if ¬ d.clk.hub then d
  else
    let (d, w) := d.rqPop a.toNat s
    d.answer a.toNat w
/-- RQ_POP -/
def execRqPop (a : Agent) (k : Fin 16) (s : State) : Host.Outcome State Fault Refusal :=
  .next { s with dev := devRqPop a k.val s.dev }

end Sys2Proof.Machine
end

