-- ==== Sys2Proof/Machine/Stream.lean ====
section
/-! DEFINITION. The Corkona stream link: lanes, training, flits, credits, virtual channels and decimation
(13_stream_link.md R349-R373). What the decoder makes of a received codeword is an operand (log 14). -/

namespace Sys2Proof.Machine

namespace Ls
/-- Link states (R359). -/
def off : Nat := 0
/-- SEEK -/
def seek : Nat := 1
/-- UP -/
def up : Nat := 2
/-- RETRAIN -/
def retrain : Nat := 3
/-- DOWN -/
def down : Nat := 7
end Ls

/-- LSTATE. -/
def Dev.ls (d : Dev) : Nat := d.rd SL_STATUS.LSTATE

/-- The link trains. -/
def Dev.slTrains (d : Dev) : Bool := d.ls == Ls.seek || d.ls == Ls.retrain

/-- The block with the link's own state changed. -/
def Dev.onSl (d : Dev) (f : StreamSt → StreamSt) : Dev := { d with stream := f d.stream }

/-- The lanes of a mask, lowest first. -/
def lanesOf (m : Nat) : List Nat := (List.range 8).filter fun n => m.testBit n

/-- Transmit lanes enabled and not fenced. -/
def Dev.txLanes (d : Dev) : Nat := d.rd SL_CFG.TX_EN &&& (255 - d.rd SL_FENCED.TX)

/-- Receive lanes enabled and not fenced. -/
def Dev.rxLanes (d : Dev) : Nat := d.rd SL_CFG.RX_EN &&& (255 - d.rd SL_FENCED.RX)

/-- Transmit lanes in use: also set in the peer's LOCK (R360). -/
def Dev.txUse (d : Dev) : Nat := d.txLanes &&& d.stream.peerLock

/-- Receive lanes in use: also locked (R360). -/
def Dev.rxUse (d : Dev) : Nat := d.rxLanes &&& d.rd SL_STATUS.RX_LOCK

/-- Received rounds are assembled afresh from the next codeword (R353, R354; log 14). -/
def Dev.rxAnew (d : Dev) : Dev := d.onSl fun x => { x with rxCw := [], rxAt := none, rxBuf := [], rxSync := false }

/-- Show the lanes in use; a change of the receive lanes in use ends the rounds that were being assembled (log 14). -/
def Dev.slShow (d : Dev) : Dev :=
  let live := d.ls != Ls.off && d.ls != Ls.down
  let rx := if live then d.rxUse else 0
  let d := if rx = d.rd SL_STATUS.RX_LIVE then d else d.rxAnew
  (d.wr SL_STATUS.TX_LIVE (if live then d.txUse else 0)).wr SL_STATUS.RX_LIVE rx

/-- The device sends READY (R360). -/
def Dev.slReady (d : Dev) : Bool := d.rxUse != 0 && d.stream.peerOk

/-- What the peer said in training is forgotten, and a training window opens (R361). -/
def Dev.slTrainOpen (d : Dev) : Dev :=
  d.onSl fun x => { x with trainAt := d.now, peerRdy := false, peerOk := false, peerSend := 0, agree := 0, peerAt := none, txBad := 0 }

/-- K of VC `v` changes: the open blocks of its threads close, and a hold window opens (R369, R372). -/
def Dev.setK (d : Dev) (v k : Nat) : Dev :=
  let d := d.kClose v
  (d.wr (VC_CNT.K v) k).onV v fun x => { x with holdAt := some d.now }

/-- The link enters a state (R359-R361). -/
def Dev.slGo (d : Dev) (st : Nat) : Dev :=
  let d := d.wr SL_STATUS.LSTATE st
  let d :=
    if st = Ls.seek then (d.slTrainOpen.onSl fun x => { x with peerLock := 0 }).evt SL_EVT.EVT 1
    else if st = Ls.retrain then (d.slTrainOpen.bump SL_CNT.RETRAINS).evt SL_EVT.EVT 2
    else if st = Ls.up then
      let d := d.forN 16 fun d v =>
        let d := if d.rd (VC_CNT.K v) = 0 then d else d.setK v 0
        ((d.wr (VC_CREDIT.LIMIT v) 0).wr (VC_CREDIT.SENT v) 0).onV v fun x => { x with seq := 0, turn := 0 }
      -- a link that is UP has its reference (11_clocks_time.md R308)
      let d := d.wr CLK_STATUS.SL_REF 1
      (d.onSl fun x => { x with ctrlAt := (d.now + 799) / 800 * 800, peerAt := none, txBad := 0, cur := 0 }).evt SL_EVT.EVT 0
    else if st = Ls.down then d.evt SL_EVT.EVT 4
    else (d.wr SL_STATUS.RX_LOCK 0).onSl fun x => { rxFlit := x.rxFlit, txOut := x.txOut, txCw := x.txCw }
  d.slShow

/-- A lane's lock or use has changed: agreement starts again (R360). -/
def Dev.slAnew (d : Dev) : Dev := (d.onSl fun x => { x with agree := 0 }).slShow

/-- The link follows EN (R359): it runs whenever the hub is out of reset. -/
def Dev.slEnable (d : Dev) : Dev :=
  if ¬ (d.on SL_CFG.EN ∧ d.clk.hub) then (if d.ls = Ls.off then d else d.slGo Ls.off)
  else if d.ls = Ls.off then d.slGo Ls.seek
  else if d.rd SL_STATUS.TX_LIVE = d.txUse then d.slShow
  else d.slAnew

/-- A transmitter is squelched, with no differential swing (R351): the hub is in reset, without power or in STANDBY, or the link is not
enabled, or the lane is not, or it is fenced. -/
def Dev.squelched (d : Dev) (n : Nat) : Bool := !(d.clk.hub && d.on SL_CFG.EN && d.txLanes.testBit n)

/-! ## Fences of lanes and of the link -/

/-- A FENCE's marker in VC `v` will not be sent: the FENCE completes with LINK_FENCED (R365, R368). -/
def Dev.fenceCut (d : Dev) (f : FenceSt) : Dev :=
  let d := d.complete (.out f.id) St.linkFenced
  { d with host := { d.host with fences := d.host.fences.filter fun x => x.id ≠ f.id } }

/-- What DOWN does to the virtual channels (R365): their ownership entries are fenced, queued data blocks are discarded and
counted, queued markers go, and every FENCE that waits on one completes with LINK_FENCED. -/
def Dev.vcsDown (d : Dev) : Dev :=
  let d := d.forN 16 fun d v => d.fenceOwn (ownIx 5 v)
  let d := d.forN 16 fun d v =>
    let q := (d.V v).q.filter fun b => b.btype ≠ 3
    let d := d.onV v fun x => { x with q := [], off := 0 }
    (d.forL q fun d b => d.blkDrop v b).vcShow v
  d.forL (d.host.fences.filter fun f => f.placed ∧ (f.vcs ≠ [] ∨ f.onWire ≠ [])) fun d f => d.fenceCut f

/-- The stream link goes DOWN (R365). -/
def Dev.slDown (d : Dev) : Dev := if d.ls = Ls.down ∨ d.ls = Ls.off then d.vcsDown else (d.slGo Ls.down).vcsDown

/-- No valid CTRL flit has come in the 3,200 ticks after the last one (R363). -/
def Dev.peerLoss (d : Dev) : Dev :=
  if d.ls = Ls.up ∧ closed d.now d.stream.peerAt 3200 then ((d.raise 0x79 0 0x32 0).bump SL_CNT.PEER_LOST).slGo Ls.seek else d

/-- The lanes in use have changed: a link in UP retrains, but a loss of the peer due on the tick is taken first (R359). -/
def Dev.lanesMoved (d : Dev) : Dev :=
  let d := d.peerLoss
  if d.ls = Ls.up then d.slGo Ls.retrain else d.slAnew

/-- The lane's enable bit is 1. -/
def Dev.laneEn (d : Dev) (n : Nat) : Bool := if n < 8 then d.rdBit SL_CFG.TX_EN n else d.rdBit SL_CFG.RX_EN (n % 8)

/-- The fence of a lane (0-7 transmit, 8-15 receive): it is squelched, and the link retrains on the rest or goes DOWN (R359, R365). A
lane that is not enabled is never fenced (R361). -/
def Dev.fenceLane (d : Dev) (n : Nat) : Dev :=
  let f := if n < 8 then SL_FENCED.TX else SL_FENCED.RX
  if d.rdBit f (n % 8) ∨ ¬ d.laneEn n then d
  else
    let d := (d.wrBit f (n % 8) true).evt SL_EVT.EVT 3
    let d := if n < 8 then d else d.wrBit SL_STATUS.RX_LOCK (n % 8) false
    let d := d.onSl fun x => { x with failing := clrBit x.failing n, lockN := nput x.lockN (n % 8) 0 }
    if d.ls = Ls.off ∨ d.ls = Ls.down then d
    else if d.txLanes = 0 ∨ d.rxLanes = 0 then d.slDown
    else d.lanesMoved

/-- A fence of the lane would leave no enabled, unfenced transmit lane, or no such receive lane (R365). -/
def Dev.lastLane (d : Dev) (n : Nat) : Bool :=
  if n < 8 then clrBit d.txLanes n == 0 else clrBit d.rxLanes (n - 8) == 0

/-- A failing lane raises STREAM_LANE, L3 if no lane would be left, and is fenced (R365). -/
def Dev.laneFail (d : Dev) (n : Nat) : Dev :=
  let last := d.lastLane n
  (d.raiseL 0x78 n 0x32 0 (if last then max 3 (d.kindLevel 0x78) else d.kindLevel 0x78)).fenceLane n

/-- An UNFENCE that leaves at least one lane each way ends DOWN: the link trains again, and the virtual channels' ownership entries return
(R359; 01_architecture.md R27). -/
def Dev.streamBack (d : Dev) : Dev :=
  if (d.ls = Ls.down ∨ d.ls = Ls.off) ∧ d.txLanes ≠ 0 ∧ d.rxLanes ≠ 0 then
    let d := d.forN 16 fun d v => d.unfenceOwn (ownIx 5 v)
    if d.ls = Ls.down then (d.wr CLK_STATUS.SL_REF 1).slGo Ls.seek else d.slAnew
  else d.slAnew

/-- UNFENCE of a lane (R366; 09_faults.md R264). -/
def Dev.unfenceLane (d : Dev) (n : Nat) : Dev × Nat :=
  let f := if n < 8 then SL_FENCED.TX else SL_FENCED.RX
  if ¬ d.rdBit f (n % 8) then (d, St.unitNotFenced)
  else
    let d := d.wrBit f (n % 8) false
    if d.ls = Ls.up then (d.lanesMoved, St.success)
    else (d.streamBack, St.success)

/-- The lane is enabled and not fenced. -/
def Dev.laneOn (d : Dev) (n : Nat) : Bool := if n < 8 then d.txLanes.testBit n else d.rxLanes.testBit (n - 8)

/-- A lane fails (R364, R365). One that has not been counted as failing fails by the loss of the 156.25 MHz reference, which
counts as a failure of every enabled lane (log 14). -/
def devStreamLane (n : Nat) (d : Dev) : Dev :=
  if d.ls = Ls.off ∨ ¬ d.laneOn n then d
  else
    let d :=
      if d.stream.failing.testBit n then d
      else (d.wr CLK_STATUS.SL_REF 0).onSl fun x => { x with failing := d.txLanes + 256 * d.rxLanes }
    d.laneFail n

/-- STREAM_LANE -/
def execStreamLane (n : Fin 16) (s : State) : Host.Outcome State Fault Refusal :=
  .next { s with dev := devStreamLane n.val s.dev }

/-! ## Training -/

/-- A TRAIN flit from the peer: its LOCK, SENDING and STATE (R358, R360). One with a nonzero byte marked 0 is discarded. -/
def devPeerTrain (pay : List Byte) (d : Dev) : Dev :=
  if ¬ d.slTrains ∨ ((pay.drop 3).any fun b => b != 0) then d
  else
    let lock := byteAt pay 1
    let send := byteAt pay 2
    let same := lock == d.stream.peerLock && send == d.stream.peerSend
    let ok := d.stream.peerOk || (lock &&& d.txLanes) != 0
    let d := d.onSl fun x => { x with peerLock := lock, peerSend := send, peerRdy := byteAt pay 0 == 1, peerOk := ok }
    if same then d.slShow else d.slAnew

/-- PEER_TRAIN -/
def execPeerTrain (pay : List Byte) (s : State) : Host.Outcome State Fault Refusal :=
  if pay.length = 252 then .next { s with dev := devPeerTrain pay s.dev } else .fault .badOperand

/-- The training window (R361). -/
def Dev.trainLen (d : Dev) : Nat := max 80000 (d.rd SL_TRAIN.TRAIN_TMAX)

/-- A round of the transmitter has ended: in training, it counts towards agreement (R354, R360). -/
def Dev.roundEnd (d : Dev) : Dev :=
  let d := d.onSl fun x => { x with cwc := (x.cwc + 1) % 4096 }
  if d.slTrains then d.onSl fun x => { x with agree := if d.slReady ∧ d.stream.peerRdy then x.agree + 1 else 0 } else d

/-- UP begins (R360): at a round whose CWC is a multiple of 16 that follows 16 agreeing rounds, before the training window closes
(R359). -/
def devLinkUp (d : Dev) : Dev :=
  if d.slTrains ∧ d.now < d.stream.trainAt + d.trainLen ∧ 16 ≤ d.stream.agree ∧ d.stream.cwc % 16 = 0 ∧ d.txUse ≠ 0 then d.slGo Ls.up else d

/-- LINK_UP -/
def execLinkUp (s : State) : Host.Outcome State Fault Refusal := .next { s with dev := devLinkUp s.dev }

/-- The training window closes without UP (R361). -/
def devTrainTimeout (d : Dev) : Dev :=
  if ¬ d.slTrains ∨ d.now < d.stream.trainAt + d.trainLen then d
  else if d.rxUse ≠ 0 then
    let out := (lanesOf (d.txLanes - d.txUse)) ++ (lanesOf (d.rxLanes - d.rxUse)).map (· + 8)
    let d := d.forL out fun d n => d.laneFail n
    if d.ls = Ls.down then d else d.slGo Ls.seek
  else (d.slGo Ls.seek).bump SL_CNT.SEEK_MISS

/-- TRAIN_TIMEOUT -/
def execTrainTimeout (s : State) : Host.Outcome State Fault Refusal := .next { s with dev := devTrainTimeout s.dev }

/-! ## Received codewords and peer flits -/

/-- A lock of receive lane `n` is gained or lost (R355); in UP a loss counts as a failure (R364). -/
def Dev.laneLock (d : Dev) (n : Nat) (v : Bool) : Dev :=
  let fail := !v && d.ls == Ls.up && d.rxUse.testBit n
  let d := (d.wrBit SL_STATUS.RX_LOCK n v).onSl fun x => { x with lockN := nput x.lockN n 0, badN := nput x.badN n 0 }
  (if fail then d.onSl fun x => { x with failing := setBit x.failing (8 + n) } else d).slAnew

/-- An uncorrectable codeword of lane `n` counts in its window of 80,000 ticks; the sixteenth counts the lane as failing (R364). -/
def Dev.laneBad (d : Dev) (n : Nat) : Dev :=
  let o := nget d.stream.ucAt n
  let isOpen := o ≠ 0 ∧ d.now + 1 < o + 80000
  let k := if isOpen then nget d.stream.ucN n + 1 else 1
  let d := d.onSl fun x => { x with ucAt := nput x.ucAt n (if isOpen then o else d.now + 1), ucN := nput x.ucN n k }
  if 16 ≤ k then d.onSl fun x => { x with failing := setBit x.failing (8 + n), ucAt := nput x.ucAt n 0, ucN := nput x.ucN n 0 } else d

/-- How many blocks begin in a DATA payload of `len` bytes, the first at byte `o` (R356, R370). -/
def startsIn (pay : List Byte) (len o : Nat) : Nat → Nat
  | 0 => 0
  | k + 1 => if o < len then 1 + startsIn pay len (o + max 32 (leNat pay (o + 22) 2)) k else 0

/-- A peer's LIMIT for one VC (R362). -/
def Dev.limitIn (d : Dev) (v new : Nat) : Dev :=
  if (new + 65536 - d.rd (VC_CREDIT.LIMIT v)) % 65536 ≤ 32768 then d.wr (VC_CREDIT.LIMIT v) new else d.evt SL_EVT.EVT 5

/-- A CTRL flit from the peer, in UP (R358, R362-R364). One with a nonzero byte marked 0 is discarded, and
one that comes after the last one's window has closed is too late: the peer is lost (R363; 00_scope.md R8). -/
def devPeerCtrl (pay : List Byte) (d : Dev) : Dev :=
  if d.ls ≠ Ls.up ∨ closed d.now d.stream.peerAt 3200 ∨ ((pay.drop 35).any fun b => b != 0) then d
  else
    let d := d.forN 16 fun d v => if (leNat pay 32 2).testBit v then d.limitIn v (leNat pay (2 * v) 2) else d
    let bad := byteAt pay 34
    d.onSl fun x => { x with peerAt := some d.now, txBad := bad, failing := x.failing ||| (x.txBad &&& bad &&& d.txLanes) }

/-- PEER_CTRL -/
def execPeerCtrl (pay : List Byte) (s : State) : Host.Outcome State Fault Refusal :=
  if pay.length = 252 then .next { s with dev := devPeerCtrl pay s.dev } else .fault .badOperand

/-- The window of the last valid peer CTRL flit closes (R363). -/
def devStreamPeer (d : Dev) : Dev := d.peerLoss

/-- STREAM_PEER -/
def execStreamPeer (s : State) : Host.Outcome State Fault Refusal := .next { s with dev := devStreamPeer s.dev }

/-- A received flit is delivered (R356); one of a reserved type is discarded, and so is a CTRL or TRAIN flit with a nonzero byte
marked 0 (R358). A DATA flit of a loopback channel counts its blocks in DROP_BLK (R367). -/
def Dev.flitIn (d : Dev) (f : List Byte) : Dev :=
  let h := leNat f 0 4
  let pay := f.drop 4
  let type := bits h 31 28
  let v := bits h 27 24
  let spoilt := type == 2 && (pay.drop 35).any (· != 0) || type == 3 && (pay.drop 3).any (· != 0)
  if 3 < type ∨ spoilt then d
  else
    let d := d.onSl fun x => { x with rxFlit := f :: x.rxFlit }
    if type = 2 then devPeerCtrl pay d
    else if type = 3 then devPeerTrain pay d
    else if type = 1 ∧ d.heldAs 5 v 2 ∧ bits h 5 0 ≠ 63 then
      d.bump (VC_CNT.DROP_BLK v) (startsIn pay (bits h 15 8) (4 * bits h 5 0) 8)
    else d

/-- Stripe `k` of a codeword's bytes; bytes that are not listed are 0 (R354). -/
def stripeOf (data : List Byte) (k : Nat) : List Byte :=
  let s := (data.drop (64 * k)).take 64
  s ++ List.replicate (64 - s.length) 0

/-- The flits of assembled stripes, four to a flit: one with a stripe of an uncorrectable codeword is discarded (R354-R356). -/
def flitsOf : List (Option (List Byte)) → List (List Byte)
  | some a :: some b :: some c :: some e :: r => (a ++ b ++ c ++ e) :: flitsOf r
  | _ :: _ :: _ :: _ :: r => flitsOf r
  | _ => []

/-- How far codeword count `c` lies beyond `from0`, modulo 4,096. -/
def cwcPast (c from0 : Nat) : Nat := (c + 4096 - from0) % 4096

/-- The receive lanes in use in the order of the LANE their codewords carry, which is the order of the stripes (R352, R354). -/
def Dev.rxOrder (d : Dev) : List Nat :=
  (List.range 8).flatMap fun l => (lanesOf d.rxUse).filter fun n => nget d.stream.rxLane n == l

/-- The round of count `c` can be assembled: every receive lane in use has brought its codeword, or one that has not lags another by
more than the two codewords that the receiver tolerates (R353). -/
def Dev.rxReady (d : Dev) (c : Nat) : Bool :=
  let past := fun (w : RxCw) k => decide (k ≤ cwcPast w.cwc c)
  d.stream.rxCw.any (past · 3) || (lanesOf d.rxUse).all fun n => d.stream.rxCw.any fun w => w.lane == n && past w 0

/-- Assemble the next round, if it is there: its stripes in order, and the flits they complete (R353-R355). A round of even count
begins with a flit, and an odd one goes on from the even one before it (log 14). -/
def Dev.rxRound (d : Dev) : Dev :=
  match d.stream.rxAt with
  | none => d
  | some c =>
    if d.rxUse = 0 ∨ ¬ d.rxReady c then d
    else
      let cell := fun n k =>
        ((d.stream.rxCw.find? fun w => w.lane == n && w.cwc == c).bind (·.data)).map fun b => stripeOf b k
      let here := (List.range 10).flatMap fun k => d.rxOrder.map fun n => cell n k
      let buf := if c % 2 = 0 then here else if d.stream.rxSync then d.stream.rxBuf ++ here else []
      let d := d.onSl fun x =>
        { x with rxCw := x.rxCw.filter (·.cwc ≠ c), rxAt := some ((c + 1) % 4096),
                 rxBuf := buf.drop (buf.length / 4 * 4), rxSync := c % 2 = 0 ∨ x.rxSync }
      d.forL (flitsOf buf) fun d f => d.flitIn f

/-- A codeword of receive lane `n`, which was locked when it began, waits for its round (R353). `c` is its count: an uncorrectable
one takes the place its lane expects. A count that does not follow the lane's last one begins the assembly afresh (log 14). -/
def Dev.rxTake (d : Dev) (n c : Nat) (data : Option (List Byte)) : Dev :=
  let d := if nget d.stream.rxNext n = c + 1 then d else d.rxAnew
  let at0 := d.stream.rxAt.getD c
  let d := d.onSl fun x =>
    { x with rxAt := some at0, rxCw := if cwcPast c at0 < 2048 then x.rxCw ++ [{ lane := n, cwc := c, data := data }] else x.rxCw }
  d.forN 4 fun d _ => d.rxRound

/-- What a receive lane's codeword does to its lock (R355). -/
def Dev.cwLock (d : Dev) (n : Nat) (good : Bool) : Dev :=
  if d.rdBit SL_STATUS.RX_LOCK n then
    let k := if good then 0 else nget d.stream.badN n + 1
    if 4 ≤ k then d.laneLock n false else d.onSl fun x => { x with badN := nput x.badN n k }
  else
    let k := if good then nget d.stream.lockN n + 1 else 0
    if 4 ≤ k then d.laneLock n true else d.onSl fun x => { x with lockN := nput x.lockN n k }

/-- A codeword of receive lane `n` (R353, R355, R364): it counts, it may give or take the lane's lock, and the flit stream of a lane
that was locked and still is goes on. -/
def Dev.codewordIn (d : Dev) (n : Nat) (m : Codeword) : Dev :=
  if d.ls = Ls.off ∨ ¬ d.rxLanes.testBit n then d
  else
    let d := d.bump (SL_RXFEC.CORR n) m.corrected
    let d := if m.uncorrectable then (d.bump (SL_RXFEC.UNCORR n)).laneBad n else d
    let was := d.rdBit SL_STATUS.RX_LOCK n
    let d := d.cwLock n (m.sync && !m.uncorrectable)
    let next := nget d.stream.rxNext n
    let c := if m.uncorrectable ∧ next ≠ 0 then next - 1 else m.cwc.toNat
    let d := if m.uncorrectable then d else d.onSl fun x => { x with rxLane := nput x.rxLane n m.lane.val }
    let d := if was ∧ d.rdBit SL_STATUS.RX_LOCK n then d.rxTake n c (if m.uncorrectable then none else some m.data) else d
    d.onSl fun x => { x with rxNext := nput x.rxNext n ((c + 1) % 4096 + 1) }

/-- A loopback channel is held: each transmit lane is connected to the receive lane of its number inside the device (R367). -/
def Dev.looped (d : Dev) : Bool := (List.range 16).any fun v => d.heldAs 5 v 2

/-- A codeword comes in on the ball of receive lane `n`. -/
def devCodewordReceive (n : Nat) (m : Codeword) (d : Dev) : Dev := if d.looped then d else d.codewordIn n m

/-- CODEWORD_RECEIVE -/
def execCodewordReceive (n : Fin 8) (m : Codeword) (s : State) : Host.Outcome State Fault Refusal :=
  if m.wf then .next { s with dev := devCodewordReceive n.val m s.dev } else .fault .badOperand

/-! ## Flit slots -/

/-- A flit of `n` payload bytes in use (R356). -/
def flitOf (type vc seq fbo : Nat) (pay : List Byte) : List Byte :=
  leBytes (type * 2 ^ 28 + vc * 2 ^ 24 + seq % 256 * 2 ^ 16 + pay.length * 2 ^ 8 + fbo) 4 ++ pay ++ List.replicate (252 - pay.length) 0

/-- The 640 bytes of the `j`-th of `l` live lanes: stripe `j + l * k` of the round at position `k` (R354). -/
def laneData (buf : List Byte) (l j : Nat) : List Byte := (List.range 10).flatMap fun k => (buf.drop (64 * (j + l * k))).take 64

/-- The 5,440 bits of a codeword in the order of sending: SYNC, CWC and LANE, the 640 bytes, and the parity symbols (R352). -/
def TxCw.bits (c : TxCw) : Nat :=
  let msg := 0b0101 + 2 ^ 4 * c.cwc + 2 ^ 16 * c.lane + 2 ^ 20 * leNat c.data 0 640
  msg + 2 ^ 5140 * packSyms (rsParity ((List.range 514).map fun k => msg / 2 ^ (10 * k) % 1024))

/-- A round is complete: each live lane sends a codeword of the present CWC (R353); a loopback channel returns them (R367). -/
def Dev.sendRound (d : Dev) (lanes : List Nat) : Dev :=
  let cws := (List.range lanes.length).map fun j =>
    ({ lane := (lanes[j]?).getD 0, cwc := d.stream.cwc, data := laneData d.stream.buf lanes.length j } : TxCw)
  let d := d.onSl fun x => { x with txCw := cws.reverse ++ x.txCw }
  if d.looped then
    d.forL cws fun d w => d.codewordIn w.lane { lane := Fin.ofNat 8 w.lane, cwc := BitVec.ofNat 12 w.cwc, data := w.data }
  else d

/-- A flit goes out on the live lanes: four stripes of the round (R354). -/
def Dev.flitOut (d : Dev) (f : List Byte) (lanes : Nat) : Dev :=
  let per := 10 * (lanesOf lanes).length
  let d := d.onSl fun x => { x with txOut := f :: x.txOut, stripe := x.stripe + 4, buf := x.buf ++ f }
  if per ≤ d.stream.stripe then
    ((d.sendRound (lanesOf lanes)).onSl fun x => { x with stripe := x.stripe - per, buf := x.buf.drop (64 * per) }).roundEnd
  else d

/-- Bytes from the head of a queue, `room` at most: the bytes, what is left, the bytes of its head already taken, the offset at which
the first block starts, and the markers sent whole. -/
def takeBytes (room off pos : Nat) : List Block → List Byte × List Block × Nat × Option Nat × List Block
  | [] => ([], [], 0, none, [])
  | b :: q =>
    if room = 0 then ([], b :: q, off, none, [])
    else
      let first := if off = 0 then some pos else none
      let here := (b.bytes.drop off).take room
      if off + here.length < b.len then (here, b :: q, off + here.length, first, [])
      else
        let (bs, q', o', f', ms) := takeBytes (room - here.length) 0 (pos + here.length) q
        (here ++ bs, q', o', first.orElse fun _ => f', if b.btype = 3 then b :: ms else ms)

/-- VC `v` may send a DATA flit: it is enabled and holds queued bytes and credit (R362, R367). -/
def Dev.vcReady (d : Dev) (v : Nat) : Bool :=
  let c := (d.rd (VC_CREDIT.LIMIT v) + 65536 - d.rd (VC_CREDIT.SENT v)) % 65536
  d.vcEnabled v && (d.V v).q != [] && decide (1 ≤ c ∧ c ≤ 32768)

/-- The VC whose flit goes next: the one whose turn it is for up to WEIGHT flits, then the next in ascending order (R367). -/
def Dev.vcNext (d : Dev) : Option Nat :=
  let cur := d.stream.cur
  if d.vcReady cur ∧ (d.V cur).turn < max 1 (d.rd (VC_CFG.WEIGHT cur)) then some cur
  else ((List.range 16).map fun k => (cur + 1 + k) % 16).find? fun v => d.vcReady v

/-- A marker's last flit has been sent: it no longer holds its FENCE (R368, R372). -/
def Dev.markerSent (d : Dev) (v : Nat) (b : Block) : Dev :=
  let fs := d.host.fences.map fun f => if f.id = b.fence then { f with onWire := f.onWire.filter (· ≠ v) } else f
  Dev.fenceEnds { d with host := { d.host with fences := fs } }

/-- A DATA flit of VC `v` (R356, R362, R367). -/
def Dev.dataFlit (d : Dev) (v : Nat) : Dev :=
  let x := d.V v
  let (bs, q, off, first, ms) := takeBytes 252 x.off 0 x.q
  let f := flitOf 1 v x.seq (match first with | some o => o / 4 | none => 63) bs
  let again := d.stream.cur = v ∧ x.turn < max 1 (d.rd (VC_CFG.WEIGHT v))
  let d := d.onV v fun y => { y with q := q, off := off, seq := (y.seq + 1) % 256, turn := if again then y.turn + 1 else 1 }
  let d := (d.wr (VC_CREDIT.SENT v) (d.rd (VC_CREDIT.SENT v) + 1)).onSl fun y => { y with cur := v }
  ((d.forL ms fun d b => d.markerSent v b).vcShow v).flitOut f d.txUse

/-- The head block of VC `v` is read from its granules of the stream buffer when its first byte goes out
(16_memory_protection.md R433). -/
def Dev.blockRead (d : Dev) (v : Nat) : Dev :=
  match (d.V v).q with
  | [] => d
  | b :: _ => if b.btype = 3 ∨ (d.V v).off ≠ 0 then d else d.tabUse 0x32 (0x60 + b.bank) (8 * b.gran) b.len

/-- The head block of VC `v` can be read: it is a marker, or its bank is online. -/
def Dev.headReads (d : Dev) (v : Nat) : Bool :=
  match (d.V v).q with
  | [] => false
  | b :: _ => b.btype == 3 || ! d.bankGone (0x60 + b.bank)

/-- The payload of a CTRL flit (R358). -/
def Dev.ctrlPay (d : Dev) : List Byte :=
  leBytes d.now 8 ++ leBytes (d.rd SL_FENCED.RX ||| (255 - d.rd SL_STATUS.RX_LOCK)) 1 ++ leBytes d.txUse 1 ++ leBytes (bitsOf 16 fun v => d.vcEnabled v) 2

/-- One flit slot (R357). -/
def devFlitSlot (d : Dev) : Dev :=
  if d.slTrains then
    if d.txLanes = 0 then d
    else d.flitOut (flitOf 3 0 0 63 (leBytes (b2n d.slReady) 1 ++ leBytes (d.rd SL_STATUS.RX_LOCK) 1 ++ leBytes d.txUse 1 ++ [0])) d.txLanes
  else if d.ls = Ls.up then
    if d.stream.ctrlAt ≤ d.now then
      (d.onSl fun x => { x with ctrlAt := (d.now / 800 + 1) * 800 }).flitOut (flitOf 2 0 0 63 d.ctrlPay) d.txUse
    else match d.vcNext with
      | some v =>
        let d := d.blockRead v
        if d.headReads v then d.dataFlit v else d.flitOut (flitOf 0 0 0 63 []) d.txUse
      | none => d.flitOut (flitOf 0 0 0 63 []) d.txUse
  else d

/-- FLIT_SLOT -/
def execFlitSlot (s : State) : Host.Outcome State Fault Refusal := .next { s with dev := devFlitSlot s.dev }

/-! ## Block age and decimation -/

/-- The age of an open block reaches FLUSH_T (R372); `tag` names the block of a GRID thread. -/
def devBlockFlush (t tag : Nat) (d : Dev) : Dev :=
  match (d.T t).blocks.find? fun b => b.btype == 2 || b.tag % 4096 == tag with
  | none => d
  | some b => if b.since + d.flushT ≤ d.now then d.closeBlk t b else d

/-- BLOCK_FLUSH -/
def execBlockFlush (t : Fin 4096) (tag : BitVec 12) (s : State) : Host.Outcome State Fault Refusal :=
  .next { s with dev := devBlockFlush t.val tag.toNat s.dev }

/-- The new exponent of VC `v`, if FILL has crossed a watermark (R369, R373). -/
def Dev.decK (d : Dev) (v : Nat) : Option Nat :=
  let k := d.rd (VC_CNT.K v)
  let hi := max 1 (d.rd (VC_CFG.HIGH v))
  let lo := if hi ≤ d.rd (VC_CFG.LOW v) then hi - 1 else d.rd (VC_CFG.LOW v)
  let quota := d.rd (VC_CFG.QUOTA v) * 0x10000
  let fill := (d.V v).fill
  if hi * quota ≤ 16 * fill ∧ k < 16 then some (k + 1)
  else if 16 * fill < lo * quota ∧ 0 < k then some (k - 1)
  else none

/-- K changes on a tick outside the hold window; the change closes the open blocks of the threads that decimate (R369). -/
def devDecimationChange (v : Nat) (d : Dev) : Dev :=
  if inside d.now (d.V v).holdAt (d.rd SL_DEC.DEC_HOLD) then d
  else match d.decK v with
    | none => d
    | some k => d.setK v k

/-- DECIMATION_CHANGE -/
def execDecimationChange (v : Fin 16) (s : State) : Host.Outcome State Fault Refusal :=
  .next { s with dev := devDecimationChange v.val s.dev }

end Sys2Proof.Machine
end

