-- ==== Sys2Proof/Machine/Time.lean ====
section
/-! DEFINITION. Thyme, alignment to PPS_IN, epochs, hub event timers and the region monitors (11_clocks_time.md R300-R311). -/

namespace Sys2Proof.Machine

/-! ## Epochs (R303-R305) -/

/-- PPS_STATE. -/
def Dev.pps (d : Dev) : Nat := d.rd PPS_STATUS.PPS_STATE

/-- EPOCH_TICK. -/
def Dev.epochTick (d : Dev) : Nat := d.rd EPOCH_TICK_HI.EPOCH_TICK * 2 ^ 32 + d.rd EPOCH_TICK_LO.EPOCH_TICK

/-- EPOCH_S. -/
def Dev.epochS (d : Dev) : Nat := d.rd EPOCH_S_HI.S_HI * 2 ^ 32 + d.rd EPOCH_S_LO.S_LO

/-- The epoch triple changes, and a TIME_EPOCH record carries it (R305; log 31). -/
def Dev.setEpoch (d : Dev) (tick s ns : Nat) : Dev :=
  let d := (d.wr EPOCH_TICK_LO.EPOCH_TICK tick).wr EPOCH_TICK_HI.EPOCH_TICK (tick / 2 ^ 32)
  let d := ((d.wr EPOCH_S_LO.S_LO s).wr EPOCH_S_HI.S_HI (s / 2 ^ 32)).wr EPOCH_NS.NS ns
  (d.evt CLK_EVT.EVT 0).evEpoch (d.rd CLK_CFG.TIME_RING)
    (leBytes 0x0050 2 ++ [0, 0] ++ leBytes tick 8 ++ leBytes s 8 ++ leBytes ns 4 ++ List.replicate 8 0)

/-- The hub event timer that the ring engine holds for alignment (R303). -/
def Dev.alignHeld (d : Dev) : Option Nat := (List.range 32).find? fun t => d.owns 1 t 0x30 1

/-- The body of TIME_ALIGN (R303). -/
def Dev.timeAlign (d : Dev) (x : Desc) (t : Token) : Dev × Option Nat :=
  let p := x.payload
  let tm := byteAt p 0 % 32
  let mode := byteAt p 1
  let s := leNat p 4 8
  let ns := leNat p 12 4
  if 32 ≤ byteAt p 0 ∨ 2 ≤ mode ∨ ¬ zeroBytes p 2 3 ∨ ¬ zeroBytes p 16 47 ∨ 2 ^ 48 ≤ s ∨ 1000000000 ≤ ns ∨ (mode = 1 ∧ ns ≠ 0) then
    (d, some St.descInvalid)
  else if mode = 0 then
    if d.pps ≠ 0 then (d, some St.resourceBusy) else (d.setEpoch d.now s ns, some St.success)
  else if (match d.alignHeld with | some k => k != tm | none => false) then (d, some St.resourceBusy)
  else
    let (d, st) := d.claimIn (0x1000 + tm) 0x30 1 x.tag.toNat false t
    if st ≠ St.success then (d, some st)
    else
      let now := d.now
      let d := (d.wr (TMR_CFG.MODE tm) 3).wr PPS_STATUS.PPS_STATE 1
      ({ d with clk := { d.clk with alignTimer := some tm, alignOut := d.clk.alignOut ++ [{ tok := t, acc := now, sec := s }] } }, none)

/-- TIME_ALIGN (R303). -/
def devTimeAlign (x : Desc) (d : Dev) : Dev := d.runDesc 0x03 x (some 0) false none fun d t => d.timeAlign x t

/-- TIME_ALIGN -/
def execTimeAlign (x : Desc) (s : State) : Host.Outcome State Fault Refusal :=
  if x.wf then .next { s with dev := devTimeAlign x s.dev } else .fault .badOperand

/-- No edge has come in the 1.25 s after the acceptance of waiting descriptors: they complete PPS_ABSENT, the ring engine releases the
timer, and PPS_STATE is FREE (R303; log 31). While others still wait the timer stays theirs. -/
def Dev.alignExpire (d : Dev) : Dev :=
  let late := fun (a : AlignReq) => decide (a.acc + 1000000000 ≤ d.now)
  let due := d.clk.alignOut.filter late
  if due = [] then d
  else
    let rest := d.clk.alignOut.filter fun a => !(late a)
    let d := d.completeAll (due.map (·.tok)) St.ppsAbsent
    let d := { d with clk := { d.clk with alignOut := rest } }
    match (if rest = [] then d.clk.alignTimer else none) with
    | none => d
    | some k => (d.release (0x1000 + k) 0x30 true).1

/-- The wait of TIME_ALIGN ends with no edge (R303). -/
def devTimeAlignTimeout (d : Dev) : Dev := d.alignExpire

/-- TIME_ALIGN_TIMEOUT -/
def execTimeAlignTimeout (s : State) : Host.Outcome State Fault Refusal := .next { s with dev := devTimeAlignTimeout s.dev }

/-- What an accepted edge does to a tracked epoch (R304): DRIFT is in ppb, rounded toward zero (log 22). -/
def Dev.ppsAccept (d : Dev) (now : Nat) : Dev :=
  let i : Int := (now : Int) - d.epochTick
  let d := d.wri PPS_DRIFT.DRIFT (divZero ((i - 800000000) * 5) 4)
  let d := { d.wr PPS_STATUS.PPS_STATE 2 with clk := { d.clk with ppsRun := 0 } }
  d.setEpoch now (d.epochS + 1) (d.rd EPOCH_NS.NS)

/-- The first edge later than the acceptance of waiting descriptors sets the epoch of each, in the order of acceptance, starts
tracking and completes them (R303; log 31). One accepted on the edge's own tick waits for the next, so PPS_STATE stays ACQUIRE. -/
def Dev.alignEdge (d : Dev) : Dev :=
  let now := d.now
  let hit := fun (a : AlignReq) => decide (a.acc < now)
  let ready := d.clk.alignOut.filter hit
  if ready = [] then d
  else
    let d := d.forL ready fun d a => (d.setEpoch now a.sec 0).complete a.tok St.success
    let rest := d.clk.alignOut.filter fun a => !(hit a)
    { d.wr PPS_STATUS.PPS_STATE (if rest = [] then 2 else 1) with clk := { d.clk with alignOut := rest, ppsRun := 0 } }

/-- The window of an expected edge closes with no accepted edge (R304). -/
def Dev.ppsMiss (d : Dev) : Dev :=
  if d.pps < 2 ∨ d.now < d.epochTick + 800000000 + d.rd CLK_CFG.PPS_WIN then d
  else
    let d := d.setEpoch (d.epochTick + 800000000) (d.epochS + 1) (d.rd EPOCH_NS.NS)
    let n := d.clk.ppsRun + 1
    let d := { d.bump PPS_STATUS.PPS_MISS with clk := { d.clk with ppsRun := n } }
    if n = 3 then (d.wr PPS_STATUS.PPS_STATE 3).evt CLK_EVT.EVT 2 else d

/-- What an edge does to alignment (R303, R304). An edge at the closing tick of the expected window or of the wait of TIME_ALIGN is
outside it (00_scope.md R6): a wait that has ended ends first, and the window it missed is counted after it. -/
def Dev.ppsAlign (d : Dev) : Dev :=
  let now := d.now
  let d := d.alignExpire
  let d := match d.clk.alignTimer with
    | none => d
    | some k => (d.wr (TMR_CAPT_LO.CAPT_LO k) now).wr (TMR_CAPT_HI.CAPT_HI k) (now / 2 ^ 32)
  if d.pps = 1 then d.alignEdge
  else if d.pps = 0 then d
  else
    let tx := d.epochTick + 800000000
    let w := d.rd CLK_CFG.PPS_WIN
    if tx ≤ now + w ∧ now < tx + w then d.ppsAccept now
    else (d.bump PPS_STATUS.PPS_REJ).evt CLK_EVT.EVT 1

/-- A rising edge of PPS_IN: a trigger source of sequencers (07_conversion.md R200, R204) and capture threads (12_host_rings.md
R338), and the reference of alignment (R303, R304). -/
def devPpsEdge (d : Dev) : Dev :=
  if ¬ d.clk.hub then d
  else
    let d := d.seqSource 2
    let now := d.now
    let d := d.forL (d.openThreads.filter fun t => d.tFilter t == 5 && d.rd (CTX.CFG16 t 26) % 4 == 2) fun d t => d.capture t now
    d.ppsAlign

/-- PPS_EDGE -/
def execPpsEdge (s : State) : Host.Outcome State Fault Refusal := .next { s with dev := devPpsEdge s.dev }

/-- The window of an expected edge closes (R304). -/
def devPpsWindowMiss (d : Dev) : Dev := d.ppsMiss

/-- PPS_WINDOW_MISS -/
def execPpsWindowMiss (s : State) : Host.Outcome State Fault Refusal := .next { s with dev := devPpsWindowMiss s.dev }

/-! ## Thyme (R300-R302) -/

/-- A read of THYME_LO latches the high half for its accessor (R302). -/
def devThymeLoRead (a : Agent) (d : Dev) : Dev :=
  if ¬ d.clk.hub then d
  else { d with clk := { d.clk with thymeHi := nput d.clk.thymeHi a.toNat (d.now / 2 ^ 32 + 1) } }

/-- THYME_LO_READ -/
def execThymeLoRead (a : Agent) (s : State) : Host.Outcome State Fault Refusal :=
  .next { s with dev := devThymeLoRead a s.dev }

/-- The hub broadcasts its count (R301): a copy two ticks or more away raises LINK_ERROR and reloads on the next broadcast. `drift` is
what the die's own arrival of the control clock has put between its copy and the master since the last broadcast, an input (log 13). -/
def devThymeBroadcast (die : Nat) (drift : Int) (d : Dev) : Dev :=
  if ¬ d.linkUp (dieLink die) then d
  else
    let off := KV.get (fun _ => (0 : Int)) d.clk.copyOff die + drift
    let now := d.now
    let d := { d with clk := { d.clk with copyOff := KV.put (fun _ => (0 : Int)) d.clk.copyOff die off } }
    let d := { d with link := { d.link with lastTick := nput d.link.lastTick die now } }
    if nget d.clk.copyReload die ≠ 0 then
      { d with clk := { d.clk with copyOff := KV.put (fun _ => (0 : Int)) d.clk.copyOff die 0,
                                   copyReload := nput d.clk.copyReload die 0 } }
    else if 2 ≤ off.natAbs then
      ({ d with clk := { d.clk with copyReload := nput d.clk.copyReload die 1 } }).raise
        0x84 (dieLink die) 0xEE 0
    else d

/-- THYME_BROADCAST -/
def execThymeBroadcast (b : DieDrift) (s : State) : Host.Outcome State Fault Refusal :=
  .next { s with dev := devThymeBroadcast b.die.val b.drift s.dev }

/-! ## Hub event timers (R306, R307) -/

/-- CMP in effect for timer `t`. -/
def Dev.cmp (d : Dev) (t : Nat) : Nat := nget d.clk.timerCmp t

/-- EN or CMP takes effect on this tick (R307): the timer's next fire falls due at CMP, or on the next tick if CMP has come. -/
def Dev.timerSet (d : Dev) (t : Nat) : Dev :=
  let m := d.rd (TMR_CFG.MODE t)
  let due := if d.on (TMR_CFG.EN t) ∧ (m = 1 ∨ m = 2) then (if d.cmp t ≤ d.now then d.now + 1 else d.cmp t) else 0
  { d with clk := { d.clk with timerDue := nput d.clk.timerDue t due } }

/-- A periodic timer's next CMP: the first of its grid later than the tick of the fire; the registers follow unless a new CMP_LO
waits (R307). -/
def Dev.timerNext (d : Dev) (t fire : Nat) : Dev :=
  let p := max 16 (d.rd (TMR_PERIOD.PERIOD t))
  let c := d.cmp t
  let next := c + p * ((fire - c) / p + 1)
  let d := if d.rd (TMR_CMP_LO.CMP_LO t) = c % 2 ^ 32 then d.wr (TMR_CMP_LO.CMP_LO t) next else d
  let d := d.wr (TMR_CMP_HI.CMP_HI t) (next / 2 ^ 32)
  { d with clk := { d.clk with timerCmp := nput d.clk.timerCmp t next, timerDue := nput d.clk.timerDue t next } }

/-- Where a fire goes (R306): SCV triggers, the owning core's events. -/
def Dev.timerOut (d : Dev) (t : Nat) : Dev :=
  let f := d.rd (OWN.FUNCTION (ownIx 1 t))
  let a := d.rd (OWN.AGENT (ownIx 1 t))
  if f = 3 then (if 0xD0 ≤ a ∧ a < 0xD8 ∧ d.rd (SEQ_CFG.TRIG_SRC (a - 0xD0)) = 0x20 + t then d.seqTrigger (a - 0xD0) else d)
  else if f = 2 ∧ 0x10 ≤ a ∧ a ≤ 0x24 then d.corePend (a - 0x10) (16 + t % 16)
  else d

/-- A timer whose fire has fallen due fires (R306, R307). A timer in capture mode, or OFF, never falls due. -/
def Dev.timerFires (d : Dev) (t : Nat) : Dev :=
  let due := nget d.clk.timerDue t
  let own := d.rd (OWN.STATE (ownIx 1 t))
  if due = 0 ∨ d.now < due ∨ ¬ (own = 1 ∨ own = 2) then d
  else
    let d := if d.cmp t < due then d.hwWr (TMR_STATUS.LATE t) 1 else d
    let d := if d.on (TMR_STATUS.PENDING t) then d.bump (TMR_STATUS.MISSED t) else d
    let d := d.hwWr (TMR_STATUS.PENDING t) 1
    let d := if d.rd (TMR_CFG.MODE t) = 2 then d.timerNext t due
      else { d with clk := { d.clk with timerDue := nput d.clk.timerDue t 0 } }
    d.timerOut t

/-- A write of TMR_CMP_HI: CMP takes effect whole, after a fire of the same tick (R307). -/
def Dev.timerCmpWrite (d : Dev) (t : Nat) : Dev :=
  let lo := d.rd (TMR_CMP_LO.CMP_LO t)
  let hi := d.rd (TMR_CMP_HI.CMP_HI t)
  let d := ((d.timerFires t).wr (TMR_CMP_LO.CMP_LO t) lo).wr (TMR_CMP_HI.CMP_HI t) hi
  ({ d with clk := { d.clk with timerCmp := nput d.clk.timerCmp t (hi * 2 ^ 32 + lo) } }).timerSet t

/-- A write of TMR_CFG: EN takes effect where the timer starts to run or changes its mode, and a timer that goes on running keeps its
next fire (R307). `old` is the word before; a fire that has fallen due on this tick is made under it (00_scope.md R8). -/
def Dev.timerCfgWrite (d : Dev) (t : Nat) (old : Word) : Dev :=
  let w := d.word (TMR_CFG.EN t).off
  let d := ((d.setWord (TMR_CFG.EN t).off old).timerFires t).setWord (TMR_CFG.EN t).off w
  if (TMR_CFG.EN t).get old = (TMR_CFG.EN t).get w ∧ (TMR_CFG.MODE t).get old = (TMR_CFG.MODE t).get w then d else d.timerSet t

/-- A timer fires (R306, R307; log 7). -/
def devTimerFire (t : Nat) (d : Dev) : Dev := d.timerFires t

/-- TIMER_FIRE -/
def execTimerFire (t : Fin 32) (s : State) : Host.Outcome State Fault Refusal :=
  .next { s with dev := devTimerFire t.val s.dev }

/-! ## Region monitors (R309, R311) -/

/-- A difference is beyond its limit (R309); skew is in 5 ps. -/
def regionOut (m : RegionDiff) (q : Nat) : Bool :=
  if q = 0 then decide (45 < m.supply.natAbs) else if q = 1 then decide (25 < m.temp.natAbs) else decide (30 < m.skew.natAbs)

/-- A monitor sample of neighbour link `k` (R309, R311). -/
def devRegionSample (k : Nat) (m : RegionDiff) (d : Dev) : Dev :=
  if ¬ d.clk.hub then d
  else
    let sat := clip (-128) 127
    let d := ((d.wri (REG_LINK.SKEW k) (sat m.skew)).wri (REG_LINK.TEMP k) (sat m.temp)).wri (REG_LINK.SUPPLY k) (sat m.supply)
    let outs := (List.range 3).filter (regionOut m)
    let d := d.wr (REG_LINK.OUT k) (outs.foldl setBit 0)
    let now := d.now
    let filt := d.rd REG_CFG.REG_FILT
    let win := (List.range 3).foldl (fun w q =>
      let o := nget w (3 * k + q)
      if o ≠ 0 ∧ o - 1 + filt ≤ now then w
      else nput w (3 * k + q) (if regionOut m q then (if o = 0 then now + 1 else o) else 0)) d.clk.regWin
    let ok := if outs = [] then (if nget d.clk.regOk k = 0 then now + 1 else nget d.clk.regOk k) else 0
    { d with clk := { d.clk with regWin := win, regOk := nput d.clk.regOk k ok } }

/-- REGION_SAMPLE -/
def execRegionSample (k : Fin 3) (m : RegionDiff) (s : State) : Host.Outcome State Fault Refusal :=
  .next { s with dev := devRegionSample k.val m s.dev }

/-- The windows of link `k` that have closed are raised, in code order (R311). -/
def devRegionFault (k : Nat) (d : Dev) : Dev :=
  d.forN 3 fun d q =>
    let o := nget d.clk.regWin (3 * k + q)
    if o ≠ 0 ∧ o - 1 + d.rd REG_CFG.REG_FILT ≤ d.now then
      let d := { d with clk := { d.clk with regWin := nput d.clk.regWin (3 * k + q) 0 } }
      (d.evt CLK_EVT.EVT 3).raise (0x81 + q) k 0xEE 0
    else d

/-- REGION_FAULT -/
def execRegionFault (k : Fin 3) (s : State) : Host.Outcome State Fault Refusal :=
  .next { s with dev := devRegionFault k.val s.dev }

/-- Every quantity of link `k` has stayed within limit for a full window ending now (R311). -/
def Dev.regionCalm (d : Dev) (k : Nat) : Bool :=
  let t := nget d.clk.regOk k
  t != 0 && decide (t - 1 + d.rd REG_CFG.REG_FILT ≤ d.now)

end Sys2Proof.Machine
end

