-- ==== Sys2Proof/Machine/TwBus.lean ====
section
/-! DEFINITION. The bus side of the two-wire blocks: roles, idle, attention, the stuck bus, controller transfers and the fence
(14_two_wire.md R374-R387, R398). Levels and other parties' acts reach the model as commands (log 13, log 32). -/

namespace Sys2Proof.Machine

namespace Ts
/-- Codes of TW_STATUS.STATE (R376). -/
def off : Nat := 0
/-- IDLE -/
def idle : Nat := 1
/-- TARGET -/
def target : Nat := 2
/-- CONTROLLER -/
def controller : Nat := 3
/-- CLEARING -/
def clearing : Nat := 4
/-- ATTENTION -/
def attention : Nat := 5
/-- FENCED -/
def fenced : Nat := 7
end Ts

/-- STATE of block `n`. -/
def Dev.tws (d : Dev) (n : Nat) : Nat := d.rd (TW_STATUS.STATE n)

/-- Block `n` has the controller role and is not fenced. -/
def Dev.twCtl (d : Dev) (n : Nat) : Bool := d.rdBit (TW_STATUS.ROLE n) 1 && d.tws n != Ts.fenced

/-- Block `n` has the target role and is not fenced. -/
def Dev.twTgt (d : Dev) (n : Nat) : Bool := d.rdBit (TW_STATUS.ROLE n) 0 && d.tws n != Ts.fenced

/-- t_BUF in ticks (R377). -/
def Dev.tBuf (d : Dev) (n : Nat) : Nat :=
  match d.rd (TW_CFG.SPEED n) with
  | 0 => 3760
  | 1 => 1040
  | _ => 400

/-- Both lines have been high for t_BUF. -/
def Dev.twQuiet (d : Dev) (n : Nat) : Bool := closed d.now (d.W n).hiAt (d.tBuf n)

/-- The bus of block `n` is free (R380). -/
def Dev.twFree (d : Dev) (n : Nat) : Bool := ((d.W n).hiAt.isSome && (d.W n).stop) || d.twQuiet n

/-- The block leaves its bus: both lines high from now, after a STOP or not. -/
def Dev.twHigh (d : Dev) (n : Nat) (stop : Bool) : Dev :=
  let now := d.now
  (d.wr (TW_STATUS.BUS_HELD n) 0).onW n fun x =>
    { x with
      sda := true, sdaUnk := false, scl := true, rawSda := true, rawScl := true, hiAt := some now, stop := stop, fall := none
      sclLow := none, heldAt := none, busy := false }

/-- A configuration write takes effect when the block is idle with the bus free (R376). -/
def Dev.twApply (d : Dev) (n : Nat) : Dev :=
  let mine := fun (x : Nat × Option Word) => twStaged x.1 && decide ((x.1 - 0xC000) / 256 = n)
  if d.stg.any mine ∧ (d.tws n = Ts.idle ∨ d.tws n = Ts.off) ∧ d.twFree n then
    { d with
      regs := (d.stg.filter mine).foldl (fun r x => match x.2 with | none => r | some w => KV.put resetWord r x.1 w) d.regs
      stg := d.stg.filter fun x => !(mine x) }
  else d

/-- A controller transfer ends (R386): 0 ends it with DONE, another code with ERROR. -/
def Dev.twEnd (d : Dev) (n err : Nat) : Dev :=
  let d := (d.wr (TW_XSTAT.ERR n) err).wr (TW_XSTAT.STATE n) (if err = 0 then 2 else 3)
  (d.evt (TW_EVT.EVT n) (if err = 0 then 0 else 1)).onW n fun x => { x with goPend := false, clrGo := false, tries := 0 }

/-- A transfer in progress is abandoned with a code (R374, R379, R398). -/
def Dev.twAbort (d : Dev) (n err : Nat) : Dev := if (d.W n).goPend then d.twEnd n err else d

/-- The block resets itself (R379, R398): IDLE_SEEN is cleared, and each window's pointer is 0 (R389). The filter sees SDA anew from the
next peripheral clock on, and accepts whichever level it then finds, unless SDA was accepted high and still is; a level of SCL stays
accepted, so that no falling edge opens a window (R378, R379, R381; DEDUCED, log 32). -/
def Dev.twReset (d : Dev) (n : Nat) : Dev :=
  let now := d.now
  let high := (d.W n).sda && (d.W n).rawSda
  let d := ((d.wr (TW_STATUS.IDLE_SEEN n) 0).wr (TW_STATUS.STATE n) (if d.rd (TW_STATUS.ROLE n) = 0 then Ts.off else Ts.idle)).wr
    (TW_STATUS.PTR n) 0
  d.onW n fun x =>
    { x with ptr := [], sda := true, sdaUnk := !high, sdaAt := (now / 16 + 1) * 16,
             hiAt := if high ∧ x.scl then some now else none, stop := false,
             fall := none, heldAt := none, busy := false, sclLow := none, attAt := none, araPend := false, araTries := 0, clrGo := false }

/-- SCL has been held low for the whole window (R379): the lines are released, a transfer ends with TIMEOUT, and the block resets. -/
def Dev.twTimedOut (d : Dev) (n : Nat) : Dev :=
  let d := (d.twAbort n 4).twReset n
  ((d.bump (TW_CNT.TIMEOUT n)).evt (TW_EVT.EVT n) 3).raise 0x7D n (twAgent n) 0

/-- STRETCH_T as it acts (R376). -/
def Dev.stretchT (d : Dev) (n : Nat) : Nat := max 800000 (d.rd (TW_STRETCH.STRETCH_T n))

/-- The window of SCL held low has closed by tick `t` (R379; 00_scope.md R8). -/
def Dev.sclDue (d : Dev) (n t : Nat) : Bool :=
  d.tws n != Ts.off && d.tws n != Ts.fenced && closed t (d.W n).sclLow (d.stretchT n)

/-! ## Levels (R378): what the accepted changes of SCL and SDA do -/

/-- SCL falls at `t` (R379-R381, R385): its window opens; with SDA low on a free bus that was a START, and the block follows the
transfer; an attention hold ends. -/
def Dev.sclFalls (d : Dev) (n t : Nat) : Dev :=
  let d := if d.tws n = Ts.attention then (d.wr (TW_STATUS.STATE n) Ts.idle).onW n fun x => { x with attAt := none } else d
  d.onW n fun x => { x with scl := false, sclLow := some t, hiAt := none, stop := false, heldAt := none,
                            busy := x.busy || x.fall.isSome || !x.sda, fall := none }

/-- SCL rises at `t`, too late for a window that has closed (R379). -/
def Dev.sclRises (d : Dev) (n t : Nat) : Dev :=
  let d := if d.sclDue n t then d.twTimedOut n else d
  d.onW n fun x => { x with scl := true, sclLow := none, hiAt := if x.sda then some t else none, heldAt := if x.sda then none else some t }

/-- SDA falls at `t` (R381, R383): with SCL high and the bus free, or IDLE_SEEN 0, it is to be classified. The block's own hold is
not. -/
def Dev.sdaFalls (d : Dev) (n t : Nat) : Dev :=
  let x := d.W n
  let free := (x.hiAt.isSome && x.stop) || closed t x.hiAt (d.tBuf n) || ! d.on (TW_STATUS.IDLE_SEEN n)
  if x.scl then
    d.onW n fun x => { x with sda := false, sdaUnk := false, hiAt := none, heldAt := some t,
                              fall := if free ∧ d.tws n ≠ Ts.attention ∧ d.tws n ≠ Ts.clearing then some t else x.fall }
  else d.onW n fun x => { x with sda := false, sdaUnk := false }

/-- At `t`, SDA has been low for 5 to 50 us since the fall being classified, with IDLE_SEEN and the controller role (R381). -/
def Dev.attends (d : Dev) (n t : Nat) : Bool :=
  d.twCtl n && d.on (TW_STATUS.IDLE_SEEN n) &&
  (match (d.W n).fall with | none => false | some f => decide (f + 4000 ≤ t ∧ t < f + 40000))

/-- An attention is recognised (R384). -/
def Dev.attended (d : Dev) (n : Nat) : Dev :=
  let d := (d.bump (TW_ATTN.COUNT n)).evt (TW_EVT.EVT n) 2
  if d.on (TW_CFG.ARA_EN n) then d.onW n fun x => { x with araPend := true, araTries := 0 } else d

/-- SDA rises at `t` (R380, R381, R383): BUS_HELD clears, an attention is recognised at the rise, and the rise that ends a transfer is its
STOP. -/
def Dev.sdaRises (d : Dev) (n t : Nat) : Dev :=
  let d := d.wr (TW_STATUS.BUS_HELD n) 0
  let d := if (d.W n).scl ∧ d.attends n t then d.attended n else d
  d.onW n fun x =>
    if x.scl then { x with sda := true, sdaUnk := false, hiAt := some t, stop := x.busy, busy := false, fall := none, heldAt := none }
    else { x with sda := true, sdaUnk := false }

/-- A block with the target role only has found SDA low with SCL high for 50 us by `t`, and has not said so (R383). -/
def Dev.heldDue (d : Dev) (n t : Nat) : Bool :=
  d.twTgt n && !(d.twCtl n) && !(d.on (TW_STATUS.BUS_HELD n)) && closed t (d.W n).heldAt 40000

/-- BUS_HELD is set (R383). -/
def Dev.heldShow (d : Dev) (n : Nat) : Dev := (d.wr (TW_STATUS.BUS_HELD n) 1).evt (TW_EVT.EVT n) 7

/-- A bus clear starts at `t` (R381, R382). -/
def Dev.clearGo (d : Dev) (n t : Nat) : Dev :=
  (d.wr (TW_STATUS.STATE n) Ts.clearing).onW n fun x => { x with clrAt := t, fall := none }

/-- The tick, no later than `t`, from which an idle controller has found its bus stuck: SDA low with SCL high before IDLE_SEEN, or for 50 us
after it (R381). -/
def Dev.stuckAt (d : Dev) (n t : Nat) : Option Nat :=
  let x := d.W n
  if ¬ d.twCtl n ∨ d.tws n ≠ Ts.idle ∨ x.sda ∨ ¬ x.scl then none
  else if d.on (TW_STATUS.IDLE_SEEN n) then (if closed t x.fall 40000 then x.fall.map (· + 40000) else none)
  else some (x.heldAt.getD t)

/-- What had come by tick `t`, before a line changes there: the run of both lines high, BUS_HELD, and the stuck bus (R380, R381, R383;
00_scope.md R8). -/
def Dev.linePast (d : Dev) (n t : Nat) : Dev :=
  let d := if d.tws n ≠ Ts.off ∧ d.tws n ≠ Ts.fenced ∧ closed t (d.W n).hiAt (d.tBuf n) then d.wr (TW_STATUS.IDLE_SEEN n) 1 else d
  let d := if d.heldDue n t then d.heldShow n else d
  match d.stuckAt n t with
  | none => d
  | some s => d.clearGo n s

/-- FILT as it acts: at 1 MHz, a FILT above 10 acts as 10 (18_package_electrical.md R477). -/
def Dev.filt (d : Dev) (n : Nat) : Nat :=
  if d.rd (TW_CFG.SPEED n) = 2 then min 10 (d.rd (TW_CFG.FILT n)) else d.rd (TW_CFG.FILT n)

/-- The clock on which a level that began at clock `c` has been seen FILT times (R378). -/
def Dev.seenAt (d : Dev) (n c : Nat) : Nat := c + 16 * (d.filt n - 1)

/-- The clock on which a new level of SCL is accepted, if it comes no later than `lim` (R378). -/
def Dev.sclNew (d : Dev) (n lim : Nat) : Option Nat :=
  let x := d.W n
  if x.rawScl ≠ x.scl ∧ d.seenAt n x.sclAt ≤ lim then some (d.seenAt n x.sclAt) else none

/-- The clock on which a new level of SDA is accepted, if it comes no later than `lim` (R378). -/
def Dev.sdaNew (d : Dev) (n lim : Nat) : Option Nat :=
  let x := d.W n
  if (x.rawSda ≠ x.sda ∨ x.sdaUnk) ∧ d.seenAt n x.sdaAt ≤ lim then some (d.seenAt n x.sdaAt) else none

/-- SCL takes its new level at `t`. -/
def Dev.sclTake (d : Dev) (n t : Nat) : Dev :=
  let d := d.linePast n t
  if (d.W n).rawScl then d.sclRises n t else d.sclFalls n t

/-- SDA takes its new level at `t`. -/
def Dev.sdaTake (d : Dev) (n t : Nat) : Dev :=
  let d := d.linePast n t
  if (d.W n).rawSda then d.sdaRises n t else d.sdaFalls n t

/-- The earlier of the two pending changes is accepted, SCL before SDA on one clock (DESIGN CHOICE, log 32). -/
def Dev.lineNext (d : Dev) (n lim : Nat) : Dev :=
  match d.sclNew n lim, d.sdaNew n lim with
  | some a, some b => if a ≤ b then d.sclTake n a else d.sdaTake n b
  | some a, none => d.sclTake n a
  | none, some b => d.sdaTake n b
  | none, none => d

/-- The block has seen its lines up to tick `lim` (R378), and a configuration write acts once it is idle (R376). -/
def Dev.twLines (d : Dev) (n lim : Nat) : Dev := ((((d.lineNext n lim).lineNext n lim).lineNext n lim).lineNext n lim).twApply n

/-- A peripheral clock on which the block samples its lines (R377, R378): a level that differs from the last sample begins a run. -/
def Dev.lineSample (d : Dev) (n : Nat) (sda scl : Bool) : Dev :=
  if ¬ d.clk.hub ∨ d.now % 16 ≠ 0 then d
  else
    let now := d.now
    let d := d.twLines n (now - 1)
    (d.onW n fun x =>
      { x with rawSda := sda, sdaAt := if x.rawSda = sda then x.sdaAt else now,
               rawScl := scl, sclAt := if x.rawScl = scl then x.sclAt else now }).twLines n now

/-- The selvage fences block `n` (R398). -/
def Dev.fenceTw (d : Dev) (n : Nat) : Dev :=
  if d.tws n = Ts.fenced then d
  else
    let d := (d.twAbort n 7).onW n fun x => { x with attAt := none, araPend := false, fall := none }
    (d.wr (TW_STATUS.STATE n) Ts.fenced).fenceOwn (ownIx 4 n)

/-- UNFENCE of block `n` (R398). -/
def Dev.unfenceTw (d : Dev) (n : Nat) : Dev × Nat :=
  if d.tws n ≠ Ts.fenced then (d, St.unitNotFenced) else ((d.unfenceOwn (ownIx 4 n)).twReset n, St.success)

/-- The role that the ownership entry of block `n` gives it; a fenced entry gives what it gave before, and TW0 is a target without a
claim (R374). -/
def Dev.twRole (d : Dev) (n : Nat) : Nat :=
  if n = 0 then 1 else if d.rd (OWN.STATE (ownIx 4 n)) = 0 then 0 else d.rd (OWN.FUNCTION (ownIx 4 n))

/-- A role change takes effect at the next byte boundary; a controller's transfer completes with ABORTED (R374). -/
def devRoleChange (n : Nat) (d : Dev) : Dev :=
  let want := d.twRole n
  if ¬ d.clk.hub ∨ d.rd (TW_STATUS.ROLE n) = want then d
  else
    let was := d.tws n
    let d := if d.twCtl n then d.twAbort n 7 else d
    let d := (d.wr (TW_STATUS.ROLE n) want).onW n fun x => { x with attAt := none, araPend := false }
    let d := if was = Ts.controller then d.twHigh n true else d
    if was = Ts.fenced then d else d.wr (TW_STATUS.STATE n) (if want = 0 then Ts.off else Ts.idle)

/-- ROLE_CHANGE -/
def execRoleChange (n : Fin 16) (s : State) : Host.Outcome State Fault Refusal :=
  .next { s with dev := devRoleChange n.val s.dev }

/-- The window of SCL held low closes (R379; 00_scope.md R8). -/
def devTwTimeout (n : Nat) (d : Dev) : Dev :=
  let d := d.twLines n d.now
  if d.clk.hub ∧ d.sclDue n d.now then d.twTimedOut n else d

/-- TW_TIMEOUT -/
def execTwTimeout (n : Fin 16) (s : State) : Host.Outcome State Fault Refusal :=
  .next { s with dev := devTwTimeout n.val s.dev }

/-- Both lines have been high without a break for t_BUF (R380; log 7). -/
def devIdleSeen (n : Nat) (d : Dev) : Dev :=
  let d := d.twLines n d.now
  if d.tws n ≠ Ts.off ∧ d.tws n ≠ Ts.fenced ∧ d.twQuiet n then d.wr (TW_STATUS.IDLE_SEEN n) 1 else d

/-- IDLE_SEEN -/
def execIdleSeen (n : Fin 16) (s : State) : Host.Outcome State Fault Refusal :=
  .next { s with dev := devIdleSeen n.val s.dev }

/-- A peripheral clock samples SDA low, and SCL at a level (R378, R381). -/
def devSdaFall (n : Nat) (scl : Bool) (d : Dev) : Dev := d.lineSample n false scl

/-- SDA_FALL -/
def execSdaFall (l : LineAt) (s : State) : Host.Outcome State Fault Refusal :=
  .next { s with dev := devSdaFall l.port.val l.scl s.dev }

/-- The rise of SDA that is an attention has been seen on FILT clocks (R378, R384): it is accepted, and recognised. -/
def devAttention (n : Nat) (d : Dev) : Dev := if d.clk.hub then d.twLines n d.now else d

/-- ATTENTION -/
def execAttention (n : Fin 16) (s : State) : Host.Outcome State Fault Refusal :=
  .next { s with dev := devAttention n.val s.dev }

/-- A peripheral clock samples SDA high, and SCL at a level (R378, R381, R383). -/
def devSdaRise (n : Nat) (scl : Bool) (d : Dev) : Dev := d.lineSample n true scl

/-- SDA_RISE -/
def execSdaRise (l : LineAt) (s : State) : Host.Outcome State Fault Refusal :=
  .next { s with dev := devSdaRise l.port.val l.scl s.dev }

/-- The bus is stuck: SDA low with SCL high before IDLE_SEEN, or for 50 us after it (R381); or a GO found SDA low (R382). -/
def Dev.twStuck (d : Dev) (n : Nat) : Bool :=
  !(d.W n).sda && (d.W n).scl &&
  (! d.on (TW_STATUS.IDLE_SEEN n) || (d.W n).clrGo || closed d.now (d.W n).fall 40000)

/-- A bus clear starts (R381, R382). -/
def devBusClear (n : Nat) (d : Dev) : Dev :=
  let d := d.twLines n d.now
  if d.twCtl n ∧ d.twStuck n ∧ d.tws n ≠ Ts.clearing then d.clearGo n d.now else d

/-- BUS_CLEAR -/
def execBusClear (n : Fin 16) (s : State) : Host.Outcome State Fault Refusal :=
  .next { s with dev := devBusClear n.val s.dev }

/-- The SCL period in ticks (R377). -/
def Dev.sclPeriod (d : Dev) (n : Nat) : Nat :=
  match d.rd (TW_CFG.SPEED n) with
  | 0 => 8000
  | 1 => 2000
  | _ => 800

/-- The clear ends (R382): SDA found high at the end of a pulse and STOP sent, or still low after the ninth, which is BUS_STUCK. -/
def devBusClearEnd (n pulses : Nat) (sda : Bool) (d : Dev) : Dev :=
  let t := (d.W n).clrAt + d.sclPeriod n * (if sda then pulses + 1 else pulses)
  if d.tws n ≠ Ts.clearing ∨ pulses = 0 ∨ d.now < t then d
  else if sda then
    ((d.wr (TW_STATUS.STATE n) Ts.idle).twHigh n true).onW n fun x => { x with clrGo := false }
  else if pulses < 9 then d
  else
    let d := (d.twAbort n 6).evt (TW_EVT.EVT n) 4
    (d.raise 0x7C n (twAgent n) 0).fenceTw n

/-- BUS_CLEAR_END -/
def execBusClearEnd (n : Fin 16) (pulses : Fin 10) (sda : Bool) (s : State) : Host.Outcome State Fault Refusal :=
  .next { s with dev := devBusClearEnd n.val pulses.val sda s.dev }

/-- A block with the target role only finds SDA low for 50 us (R383). -/
def devBusHeld (n : Nat) (d : Dev) : Dev :=
  let d := d.twLines n d.now
  if d.heldDue n d.now then d.heldShow n else d

/-- BUS_HELD -/
def execBusHeld (n : Fin 16) (s : State) : Host.Outcome State Fault Refusal :=
  .next { s with dev := devBusHeld n.val s.dev }

/-- `k` bytes on the bus with `r` repeated STARTs last 9k + 1 + r periods from START to STOP (R386). -/
def Dev.busOver (d : Dev) (n k r : Nat) : Bool := decide ((d.W n).xAt + (9 * k + 1 + r) * d.sclPeriod n ≤ d.now)

/-- The Alert Response read of a controller ends (R384): the address it answered, or no answer. -/
def devAlertResponseRead (n : Nat) (ans : Option Byte) (d : Dev) : Dev :=
  if ¬ (d.W n).araPend ∨ ¬ d.twCtl n ∨ d.tws n ≠ Ts.controller ∨ ¬ d.busOver n (if ans.isSome then 2 else 1) 0 then d
  else
    let d := ((d.onW n fun x => { x with araPend := false, araTries := 0, sent := [0x19] }).wr (TW_STATUS.STATE n) Ts.idle).twHigh n true
    match ans with
    | some b => (d.wr (TW_ATTN.VALID n) 1).wr (TW_ATTN.ADDR n) (b.toNat / 2)
    | none => (d.wr (TW_ATTN.VALID n) 0).bump (TW_CNT.ATTN_NONE n)

/-- ALERT_RESPONSE_READ -/
def execAlertResponseRead (n : Fin 16) (ans : Option Byte) (s : State) : Host.Outcome State Fault Refusal :=
  .next { s with dev := devAlertResponseRead n.val ans s.dev }

/-- A target with PENDING signals attention on a free bus (R385). -/
def devAttentionSignal (n : Nat) (d : Dev) : Dev :=
  let d := d.twLines n d.now
  if d.twTgt n ∧ d.on (TW_ALERT.PENDING n) ∧ d.on (TW_CFG.ATTN_OUT n) ∧ d.on (TW_STATUS.IDLE_SEEN n) ∧ d.twQuiet n ∧
      d.tws n = Ts.idle then
    let now := d.now
    (d.wr (TW_STATUS.STATE n) Ts.attention).onW n fun x => { x with attAt := some now, hiAt := none }
  else d

/-- ATTENTION_SIGNAL -/
def execAttentionSignal (n : Fin 16) (s : State) : Host.Outcome State Fault Refusal :=
  .next { s with dev := devAttentionSignal n.val s.dev }

/-- The hold of 20 us ends (R385): SDA is released. -/
def devAttentionHoldEnd (n : Nat) (d : Dev) : Dev :=
  let d := d.twLines n d.now
  if d.tws n ≠ Ts.attention ∨ ¬ closed d.now (d.W n).attAt 16000 then d
  else ((d.wr (TW_STATUS.STATE n) Ts.idle).twHigh n false).onW n fun x => { x with attAt := none }

/-- ATTENTION_HOLD_END -/
def execAttentionHoldEnd (n : Fin 16) (s : State) : Host.Outcome State Fault Refusal :=
  .next { s with dev := devAttentionHoldEnd n.val s.dev }

/-- What the bus saw: the bytes the device sent, and whether a byte was left unacknowledged. -/
def Dev.busOut (d : Dev) (bs : List Byte) (nack : Bool) : Dev := { d with bmc := { d.bmc with resp := bs, nack := nack } }

/-- The block answers a read of 0x0C with its address (R385): PENDING clears when its byte was sent without losing arbitration. -/
def devAlertResponse (n : Nat) (won : Bool) (d : Dev) : Dev :=
  let d := d.twLines n d.now
  if d.twTgt n ∧ d.on (TW_ALERT.PENDING n) ∧ d.on (TW_STATUS.IDLE_SEEN n) then
    let d := d.twHigh n true
    if won then (d.wr (TW_ALERT.PENDING n) 0).busOut (leBytes (2 * d.rd (TW_CFG.ADDR n)) 1) false else d
  else d

/-- ALERT_RESPONSE -/
def execAlertResponse (n : Fin 16) (won : Bool) (s : State) : Host.Outcome State Fault Refusal :=
  .next { s with dev := devAlertResponse n.val won s.dev }

/-! ## Controller transfers (R386, R387) -/

/-- A write of TW_XCTL with GO by an agent (R386): by the holder of the claim alone, and not while BUSY. -/
def devTwXctlGo (a : Agent) (n : Nat) (v : Word) (d : Dev) : Dev :=
  if ¬ d.clk.hub then d
  else if ¬ (d.owns 4 n a.toNat 2 ∨ d.owns 4 n a.toNat 3) then
    (d.wign a.toNat (0xC034 + 0x100 * n) 7).accessFault a.toNat 2 (0xC034 + 0x100 * n)
  else
  let d := d.twLines n d.now
  if 2 ^ 31 ≤ v.toNat ∧ d.rd (TW_XSTAT.STATE n) = 1 then
    (d.wign a.toNat (0xC034 + 0x100 * n) 3).accessFault a.toNat 2 (0xC034 + 0x100 * n)
  else
    let d := d.setWord (0xC034 + 0x100 * n) (v &&& 0x007F3F7F)
    if v.toNat < 2 ^ 31 then d
    else
      let d := ((d.wr (TW_XSTAT.STATE n) 1).wr (TW_XSTAT.ERR n) 0).wr (TW_XSTAT.NBYTES n) 0
      d.onW n fun x => { x with goPend := true, tries := 0, clrGo := !x.sda && x.scl && x.fall.isSome }

/-- TW_XCTL_GO -/
def execTwXctlGo (a : Agent) (n : Fin 16) (v : Word) (s : State) : Host.Outcome State Fault Refusal :=
  .next { s with dev := devTwXctlGo a n.val v s.dev }

/-- A write of 1 to TW_ALERT.REQ sets PENDING (R385). -/
def devTwAlertReq (_a : Agent) (n : Nat) (d : Dev) : Dev := if d.clk.hub then d.wr (TW_ALERT.PENDING n) 1 else d

/-- TW_ALERT_REQ -/
def execTwAlertReq (a : Agent) (n : Fin 16) (s : State) : Host.Outcome State Fault Refusal :=
  .next { s with dev := devTwAlertReq a n.val s.dev }

/-- A waiting transfer may begin: an Alert Response read first, and it or a retry once the bus has been free for t_BUF
(R384, R386, R387). -/
def Dev.mayStart (d : Dev) (n : Nat) : Bool :=
  let x := d.W n
  if x.araPend then d.twQuiet n else x.goPend && (if x.tries = 0 then d.twFree n else d.twQuiet n)

/-- The block starts a waiting transfer on the free bus (R384, R386, R387). -/
def devTransferStart (n : Nat) (d : Dev) : Dev :=
  let d := d.twLines n d.now
  let now := d.now
  if d.twCtl n ∧ d.tws n = Ts.idle ∧ d.mayStart n then
    (d.wr (TW_STATUS.STATE n) Ts.controller).onW n fun x => { x with hiAt := none, fall := none, xAt := now }
  else d

/-- TRANSFER_START -/
def execTransferStart (n : Fin 16) (s : State) : Host.Outcome State Fault Refusal :=
  .next { s with dev := devTransferStart n.val s.dev }

/-- The bytes to write and to read; lengths above 32 act as 32 (R376). -/
def Dev.xLens (d : Dev) (n : Nat) : Nat × Nat := (min 32 (d.rd (TW_XCTL.WLEN n)), min 32 (d.rd (TW_XCTL.RLEN n)))

/-- Bytes received go to TW_RDATA, at most RLEN of them. -/
def Dev.xStore (d : Dev) (n : Nat) (bs : List Byte) : Dev :=
  d.forN ((bs.length + 3) / 4) fun d k =>
    let w := d.rd (TW_RDATA.RDATA n k)
    let new := (List.range 4).foldl (fun a j =>
      if 4 * k + j < bs.length then a + byteAt bs (4 * k + j) * 256 ^ j else a + w / 256 ^ j % 256 * 256 ^ j) 0
    d.wr (TW_RDATA.RDATA n k) new

/-- PEC is appended or checked: a quick command has none (R386). -/
def Dev.xPec (d : Dev) (n : Nat) : Bool := d.on (TW_XCTL.PEC n) && ((d.xLens n).1 != 0 || (d.xLens n).2 != 0)

/-- The last byte that a transfer writes, counted from 0: the PEC of a write, or its last data byte (R386). -/
def Dev.xLast (d : Dev) (n : Nat) : Nat := (d.xLens n).1 - 1 + b2n (d.xPec n && (d.xLens n).2 == 0)

/-- The bytes of a transfer on the bus, address bytes included, and its repeated STARTs (R386); of one that a NACK ended, at least
these. -/
def Dev.xBytes (d : Dev) (n : Nat) (m : BusResult) : Nat × Nat :=
  let (w, r) := d.xLens n
  let all := ((if w ≠ 0 ∨ r = 0 then 1 + w else 0) + (if r ≠ 0 then 1 + r else 0) + b2n (d.xPec n), b2n (w != 0 && r != 0))
  match m with
  | .done _ => all
  | .pecBad _ => all
  | .nackAddr second => if second ∧ w ≠ 0 ∧ r ≠ 0 then (2 + w, 1) else (1, 0)
  | .nackData k _ => if k < d.xLast n then (2 + k, 0) else all

/-- The bytes that the controller sends: address, data and PEC, and the address of the read (R386, R394). -/
def Dev.xSent (d : Dev) (n : Nat) (m : BusResult) : List Byte :=
  let (w, r) := d.xLens n
  let addr := fun k => leBytes (2 * d.rd (TW_XCTL.XADDR n) + k) 1
  let data := (List.range w).map fun k => BitVec.ofNat 8 (d.rd (TW_WDATA.WDATA n (k / 4)) / 256 ^ (k % 4))
  let pec := if d.xPec n ∧ r = 0 then leBytes (crc8 0 (addr 0 ++ data)) 1 else []
  let head := if w ≠ 0 ∨ r = 0 then addr 0 ++ data ++ pec else []
  let all := head ++ (if r ≠ 0 then addr 1 else [])
  match m with
  | .done _ => all
  | .pecBad _ => all
  | .nackAddr second => if second then all else all.take 1
  | .nackData k _ => if k < d.xLast n then head.take (2 + k) else all

/-- A transfer runs to its end with `acked` written bytes acknowledged and the bytes `bs` read (R386). -/
def Dev.xDone (d : Dev) (n acked : Nat) (bs : List Byte) : Dev :=
  let got := bs.take (d.xLens n).2
  (d.xStore n got).wr (TW_XSTAT.NBYTES n) (acked + got.length)

/-- A controller transfer ends as its target answered (R386): every ending sends STOP. A NACK of the last written byte ends
nothing, and only a transfer that checks a PEC can end with one that mismatches. -/
def devTransferEnd (n : Nat) (m : BusResult) (d : Dev) : Dev :=
  if ¬ d.twCtl n ∨ d.tws n ≠ Ts.controller ∨ (d.W n).araPend ∨ ¬ (d.W n).goPend ∨ ¬ d.busOver n (d.xBytes n m).1 (d.xBytes n m).2 then d
  else
    let (w, r) := d.xLens n
    let out := d.xSent n m
    let d := ((d.wr (TW_STATUS.STATE n) Ts.idle).twHigh n true).onW n fun x => { x with sent := out }
    match m with
    | .done bs => (d.xDone n w bs).twEnd n 0
    | .nackAddr second => (d.wr (TW_XSTAT.NBYTES n) (if second ∧ w ≠ 0 ∧ r ≠ 0 then w else 0)).twEnd n 1
    | .nackData k bs =>
      if k < d.xLast n then (d.wr (TW_XSTAT.NBYTES n) k).twEnd n 2 else (d.xDone n (min k w) bs).twEnd n 0
    | .pecBad bs =>
      if d.xPec n ∧ r ≠ 0 then (((d.xDone n w bs).bump (TW_CNT.PEC_ERR n)).evt (TW_EVT.EVT n) 5).twEnd n 5
      else (d.xDone n w bs).twEnd n 0

/-- TRANSFER_END -/
def execTransferEnd (n : Fin 16) (m : BusResult) (s : State) : Host.Outcome State Fault Refusal :=
  .next { s with dev := devTransferEnd n.val m s.dev }

/-- Block `n` answers a target address (R388). -/
def Dev.answers (d : Dev) (n addr : Nat) : Bool :=
  let base := d.rd (TW_CFG.ADDR n)
  ((List.range 4).any fun k => addr == base + k && d.on (TW_WIN.VALID n k)) ||
  (n == 0 && (((List.range 3).any fun j => addr == base + 4 + j && d.rdBit (TW_PRIV.EN 0) j) ||
    (d.on (TW_PMB.PMB_EN 0) && addr == d.rd (TW_PMB.PMB_ADDR 0))))

/-- The controller loses arbitration (R387): with FUNCTION 0x3, and in the address phase of one of its own addresses, it becomes the
target in the same transfer. -/
def devArbLost (n : Nat) (addr : Option (BitVec 7)) (d : Dev) : Dev :=
  if ¬ d.twCtl n ∨ d.tws n ≠ Ts.controller then d
  else
    let ara := (d.W n).araPend
    let d := (d.bump (TW_CNT.ARB_LOST n)).onW n fun x =>
      if ara then { x with sda := true, araTries := x.araTries + 1 } else { x with sda := true, tries := x.tries + 1 }
    let sw := d.rd (TW_STATUS.ROLE n) == 3 && (match addr with | some a => d.answers n a.toNat | none => false)
    let d := if sw then (d.wr (TW_STATUS.STATE n) Ts.target).evt (TW_EVT.EVT n) 6 else d.wr (TW_STATUS.STATE n) Ts.idle
    if d.rd (TW_CFG.ARB_MAX n) < (if ara then (d.W n).araTries else (d.W n).tries) then
      (if ara then d.onW n fun x => { x with araPend := false, araTries := 0 } else d.twEnd n 3)
    else d

/-- ARB_LOST -/
def execArbLost (n : Fin 16) (addr : Option (BitVec 7)) (s : State) : Host.Outcome State Fault Refusal :=
  .next { s with dev := devArbLost n.val addr s.dev }

end Sys2Proof.Machine
end

