-- ==== Sys2Proof/Machine/Units.lean ====
section
/-! DEFINITION. The fences of threads, die links and memory banks, and which units are out of service
(09_faults.md R260, R264; 12_host_rings.md R340; 16_memory_protection.md R439, R440). -/

namespace Sys2Proof.Machine

/-! ## Units as FENCE and UNFENCE name them (12_host_rings.md R320) -/

/-- The key of a unit in `FaultSt.dom`. -/
def unitKey (cls idx : Nat) : Nat := 4096 * cls + idx

/-- A unit is FENCED or LATCHED, offline for a bank, with a fenced slice for a converter (09_faults.md R261, R264). -/
def Dev.unitOut (d : Dev) (cls idx : Nat) : Bool :=
  match cls with
  | 0x1 => d.rs idx == Rs.fenced
  | 0x2 => d.ps idx == Ps.latched || d.ps idx == Ps.fenced
  | 0x3 => d.entDown idx
  | 0x4 => d.bs idx == Ec.latched || d.bs idx == Ec.fenced
  | 0x5 => d.rd (CV_STATUS.FENCED idx) != 0
  | 0x6 => d.ipSt idx == Ip.fenced
  | 0x7 => d.tState idx == 7
  | 0x9 => d.tws idx == Ts.fenced
  | 0xA => if idx < 8 then d.rdBit SL_FENCED.TX idx else d.rdBit SL_FENCED.RX (idx - 8)
  | 0xB => d.ks idx == Ks.fenced
  | 0xC => d.bankOff idx
  | 0xD => d.link.fenced.testBit idx
  | 0xE => d.rgState idx == Rg.fenced
  | _ => false

/-- A unit fenced as a member of another unit's domain, and that unit still out (R264). -/
def Dev.inDomainOut (d : Dev) (cls idx : Nat) : Bool :=
  let k := nget d.flt.dom (unitKey cls idx)
  k != 0 && d.unitOut ((k - 1) / 4096) ((k - 1) % 4096)

/-- Fence a member of the domain of unit `(c, i)`: it keeps the name of that unit if the fence takes it out (R264). -/
def Dev.fenceMember (d : Dev) (c i cls idx : Nat) (f : Dev → Dev) : Dev :=
  let was := d.unitOut cls idx
  let d := f d
  if was ∨ ¬ d.unitOut cls idx ∨ (c = cls ∧ i = idx) then d
  else { d with flt := { d.flt with dom := nput d.flt.dom (unitKey cls idx) (1 + unitKey c i) } }

/-- A unit is no longer a member of a fenced domain. -/
def Dev.noDomain (d : Dev) (cls idx : Nat) : Dev := { d with flt := { d.flt with dom := nput d.flt.dom (unitKey cls idx) 0 } }

/-! ## Threads -/

/-- FENCE-UNIT of a thread: it stops with its context kept (12_host_rings.md R340). -/
def Dev.fenceThread (d : Dev) (t : Nat) : Dev :=
  let st := d.tState t
  if st = 0 ∨ st = 7 then d else (d.onT t fun x => { x with old := st }).twr 0x30 (CTX.STATE t) 7

/-- FENCE-DOMAIN of a thread: its result queue segment and every thread assigned to it (09_faults.md R260). `(c, i)` is the unit
whose domain it is. -/
def Dev.fenceSegment (d : Dev) (c i s : Nat) : Dev :=
  let d := d.fenceOwn (ownIx 3 s)
  d.forL (d.openThreads.filter fun t => d.tSeg t == s) fun d t => d.fenceMember c i 7 t fun d => d.fenceThread t

/-- UNFENCE of a thread returns it to OPEN, or to ARMED for a capture thread (12_host_rings.md R340); the segment fenced in its
domain returns with it (01_architecture.md R27). -/
def Dev.unfenceThread (d : Dev) (t : Nat) : Dev × Nat :=
  if d.tState t ≠ 7 then (d, St.unitNotFenced)
  else
    let d := (d.twr 0x30 (CTX.STATE t) (if d.tFilter t = 5 then 2 else 1)).onT t fun x => { x with armAt := d.now }
    (if d.bankOff (0x70 + d.tSeg t) then d else d.unfenceOwn (ownIx 3 (d.tSeg t)), St.success)

/-! ## Die links -/

/-- The warp phases on the far side of neighbour link `l` (05_phase_management.md R127). -/
def Dev.farPhases (d : Dev) (l : Nat) : List Nat :=
  d.ph.filterMap fun x => match x.2.rail with | none => none | some r => if phLink r x.1 = some l then some x.1 else none

/-- A link goes out of service: the far-side phases of a neighbour link are HELD, and the entry die behind its link enters keep
(09_faults.md R260). -/
def Dev.linkStops (d : Dev) (l : Nat) : Dev :=
  if l = 7 then d.keepGo
  else if 4 ≤ l then d.holdPhases (d.farPhases l) true
  else d

/-- The fence of a link (09_faults.md R260): a unit fence is taken as that of its domain. -/
def Dev.fenceLink (d : Dev) (l : Nat) : Dev :=
  if d.link.fenced.testBit l then d
  else { d with link := { d.link with fenced := setBit d.link.fenced l } }.linkStops l

/-- A link is in service again: its die reloads its Thyme copy and delivers the messages it held, the entry die's at its
release from keep, and the far-side phases return (09_faults.md R259; 11_clocks_time.md R301; 05_phase_management.md R127). -/
def Dev.linkServes (d : Dev) (l : Nat) : Dev :=
  if ¬ d.linkUp l then d
  else if l < 4 ∨ l = 7 then
    let die := if l = 7 then 4 else l
    let d := { d with clk := { d.clk with copyReload := nput d.clk.copyReload die 2 } }
    if l = 7 ∧ d.keep.on then d else d.deliverHeld die
  else d.servePhases (d.farPhases l)

/-- UNFENCE of a link: refused with UNIT_HOT while a region quantity of a neighbour link has not stayed within limit for a full window
(11_clocks_time.md R311). -/
def Dev.unfenceLink (d : Dev) (l : Nat) : Dev × Nat :=
  if ¬ d.link.fenced.testBit l then (d, St.unitNotFenced)
  else if 4 ≤ l ∧ l < 7 ∧ ¬ d.regionCalm (l - 4) then (d, St.unitHot)
  else ({ d with link := { d.link with fenced := clrBit d.link.fenced l } }.linkServes l, St.success)

/-! ## Memory banks (16_memory_protection.md R439, R440) -/

/-- The first core-map address of a die shared or hub shared bank (15_mograthes_cores.md R400). -/
def sharedAddr (b : Nat) : Nat := if b < 0x50 then 0x10000000 + (b - 0x40) % 4 * 0x40000 else 0x20000000 + (b - 0x50) * 0x40000

/-- The internal rings of core `c`, command ring and completions behind it, lie in part in shared bank `b` (log 16). -/
def Dev.irInBank (d : Dev) (c b : Nat) : Bool :=
  let lo := d.rgBase (0x2C0 + c)
  let hi := lo + 80 * d.rgSize (0x2C0 + c)
  (decide (0x50 ≤ b) || decide (c / 4 = (b - 0x40) / 4 ∧ c < 16)) && decide (lo < sharedAddr b + 0x40000 ∧ sharedAddr b < hi)

/-- The internal rings held in a shared bank become FENCED. -/
def Dev.fenceRingsIn (d : Dev) (b : Nat) : Dev := d.forN 21 fun d c => if d.irInBank c b then d.fenceRing (0x2C0 + c) else d

/-- The data blocks queued in stream buffer bank `k` are discarded and counted; markers stay (13_stream_link.md R368). -/
def Dev.dropBlocks (d : Dev) (k : Nat) : Dev :=
  d.forN 16 fun d v =>
    let q := (d.V v).q
    let gone := q.filter fun b => b.btype ≠ 3 ∧ b.bank = k
    let headGone := match q.head? with | none => false | some b => b.btype != 3 && b.bank == k
    let d := d.onV v fun x => { x with q := q.filter (fun b => ¬ (b.btype ≠ 3 ∧ b.bank = k)), off := if headGone then 0 else x.off }
    (d.forL gone fun d b => d.blkDrop v b).vcShow v

/-- Every used entry and branch channel is fenced with its domain, for bank `b`. -/
def Dev.fenceChannels (d : Dev) (b : Nat) : Dev :=
  let d := d.forN 16 fun d n => if d.rd (ENT_CFG.ROLE n) = 0 then d else d.fenceMember 0xC b 3 n fun d => d.fenceEntryDomain n
  d.forN 64 fun d n => if d.on (BR_CFG.USED n) then d.fenceMember 0xC b 4 n fun d => d.fenceBranchDomain n else d

/-- Every rail of a list that has a warp is fenced, for bank `b`. -/
def Dev.fenceRails (d : Dev) (b : Nat) (rs : List Nat) : Dev :=
  d.forL rs fun d r => if d.warp r = [] then d else d.fenceMember 0xC b 1 r fun d => d.fenceRail r none

/-- Both copies of a mirrored pair are offline: every unit that names a table held in the pair is fenced with its domain (R439). -/
def Dev.tablesGone (d : Dev) (b : Nat) : Dev :=
  if b = 0x83 ∨ b = 0x84 then (d.fenceChannels b).fenceRails b (List.range 64)
  else if 0x88 ≤ b ∧ b < 0x90 then d.fenceRails b ((List.range 16).map (· + 16 * ((b - 0x88) / 2)))
  else if b = 0x90 ∨ b = 0x91 then
    -- SCV_AUX names the curve tables of every SCV, whose fence is that of its branches and of its ownership entry (07_conversion.md R191, R198)
    (d.fenceChannels b).forN 8 fun d k => d.fenceOwn (ownIx 2 k)
  else d

/-- One bank goes offline (R439). `o` is the bank in whose domain it goes, itself for FENCE-UNIT. -/
def Dev.fenceBank (d : Dev) (o b : Nat) : Dev :=
  let d := d.fenceMember 0xC o 0xC b fun d => d.setBankOff b true
  if b < 0x2A then d.fenceMember 0xC b 0xB (b / 2) fun d => d.fenceCore (b / 2)
  else if b < 0x60 then d.fenceRingsIn b
  else if b < 0x70 then d.dropBlocks (b - 0x60)
  else if b < 0x80 then ((d.onQ (b - 0x70) fun _ => []).rqShow (b - 0x70)).fenceSegment 0xC b (b - 0x70)
  else if b = 0x80 then d.forL d.openThreads fun d t => d.fenceMember 0xC b 7 t fun d => d.fenceThread t
  else match bankPartner b with
    | none => d
    | some p => if d.bankOff p then d.tablesGone b else d

/-- The memory that holds bank `b` is fenced (R439). -/
def Dev.fenceMemory (d : Dev) (b : Nat) : Dev :=
  if 0x40 ≤ b ∧ b < 0x50 then
    let n := (b - 0x40) / 4
    let d := d.forN 4 fun d k => d.fenceBank b (0x40 + 4 * n + k)
    d.forN 4 fun d k => d.fenceMember 0xC b 0xB (4 * n + k) fun d => d.fenceCore (4 * n + k)
  else if 0x50 ≤ b ∧ b < 0x60 then
    let d := d.forN 16 fun d k => d.fenceBank b (0x50 + k)
    d.forN 5 fun d k => d.fenceMember 0xC b 0xB (16 + k) fun d => d.fenceCore (16 + k)
  else if 0x60 ≤ b ∧ b < 0x70 then (d.fenceBank b b).slDown
  else match bankPartner b with
    | none => d.fenceBank b b
    | some p => (d.fenceBank b p).fenceBank b b

/-- UNFENCE of a bank (R440): a mirrored copy is first copied from its partner; any other bank returns with its contents as they
stand, a segment's bank with its segment's ownership entry, the last bank of the stream buffer with the virtual channels' entries
(01_architecture.md R27). -/
def Dev.unfenceBank (d : Dev) (b : Nat) (t : Token) : Dev × Option Nat :=
  if ¬ d.bankOff b then (d, some St.unitNotFenced)
  else match bankPartner b with
    | some p =>
      if d.bankOff p then
        (let d := d.setBankOff b false
         if b = 0x90 ∨ b = 0x91 then d.forN 8 fun d k => d.unfenceOwn (ownIx 2 k) else d, some St.success)
      else ({ d with mem := { d.mem with copying := b :: d.mem.copying.filter (· ≠ b), copyOut := d.mem.copyOut ++ [(b, t)] } }, none)
    | none =>
      let d := d.setBankOff b false
      let d := if 0x70 ≤ b ∧ b < 0x80 then d.unfenceOwn (ownIx 3 (b - 0x70)) else d
      -- the stream buffer's FENCE-DOMAIN took the link down and its virtual channels with it
      (if 0x60 ≤ b ∧ b < 0x70 ∧ ¬ (List.range 16).any (fun k => d.bankOff (0x60 + k)) then d.streamBack else d, some St.success)

end Sys2Proof.Machine
end

