-- ==== Sys2Proof/Machine/Selvage.lean ====
section
/-! DEFINITION. The selvage: records, merging, escalation, reports, fences, acknowledgement, UNFENCE and the hardwired paths
(09_faults.md R244-R269; 11_clocks_time.md R298). -/

namespace Sys2Proof.Machine

/-! ## Fences by class (R260) -/

/-- The unit that an agent is, if R260 has a row for it (log 34). -/
def agentUnit (a : Nat) : Option (Nat × Nat) :=
  if 0x01 ≤ a ∧ a ≤ 0x0F then some (0x9, a - 1)
  else if a = 0x2F then some (0x9, 15)
  else if 0x10 ≤ a ∧ a ≤ 0x24 then some (0xB, a - 0x10)
  else if 0x40 ≤ a ∧ a ≤ 0x7F then some (0x1, a - 0x40)
  else if 0x80 ≤ a ∧ a ≤ 0x8F then some (0x3, a - 0x80)
  else if 0x90 ≤ a ∧ a ≤ 0xCF then some (0x4, a - 0x90)
  else none

/-- The unit that a class names (R246, R260): target class and index. Converters stand for the slice kinds, SCV_LOST and
SEQ_STARVED. -/
def classUnit (kind unit : Nat) : Option (Nat × Nat) :=
  if (0x01 ≤ kind ∧ kind ≤ 0x0A) ∨ kind = 0x4A then some (0x3, unit)
  else if (0x11 ≤ kind ∧ kind ≤ 0x18) ∨ kind = 0x4B then some (0x4, unit)
  else if (0x21 ≤ kind ∧ kind ≤ 0x28) then some (0x2, unit)
  else if kind = 0x19 ∨ kind = 0x48 ∨ kind = 0x49 ∨ kind = 0x4D then some (0x5, unit)
  else if 0x30 ≤ kind ∧ kind ≤ 0x39 then some (0x1, unit)
  else if 0x40 ≤ kind ∧ kind ≤ 0x42 then some (0x6, unit)
  else if 0x60 ≤ kind ∧ kind ≤ 0x62 then some (0xC, unit)
  else if kind = 0x68 ∨ kind = 0x69 then some (0xB, unit)
  else if kind = 0x70 then agentUnit unit
  else if kind = 0x71 then
    (if unit < 64 then some (0xE, unit) else if unit < 64 + 21 then some (0xE, 0x2C0 + (unit - 64)) else none)
  else if kind = 0x72 then some (0xE, unit)
  else if kind = 0x78 then some (0xA, unit)
  else if kind = 0x7C ∨ kind = 0x7D then some (0x9, unit)
  else if 0x81 ≤ kind ∧ kind ≤ 0x83 then some (0xD, 4 + unit)
  else if kind = 0x84 ∨ kind = 0x85 then some (0xD, unit)
  else none

/-- The unit that R191 names for converter `c` is fenced, with an SCV's ownership entry (07_conversion.md R191). -/
def Dev.fenceServed (d : Dev) (c : Nat) : Dev :=
  if c < 512 then d.fencePhase c none
  else if c < 576 then d.fenceRail (c - 512) none
  else if c < 624 then d.fenceEntryDomain ((c - 576) / 3)
  else
    let k := c - 624
    let d := d.forL ((List.range 8).map (· + 8 * k)) fun d b => if d.on (BR_CFG.USED b) then d.fenceBranchDomain b else d
    d.fenceOwn (ownIx 2 k)

/-- Whether the unit that R191 names for converter `c` is out. -/
def Dev.servedOut (d : Dev) (c : Nat) : Bool :=
  if c < 512 then d.unitOut 0x2 c
  else if c < 576 then d.unitOut 0x1 (c - 512)
  else if c < 624 then d.unitOut 0x3 ((c - 576) / 3)
  else (List.range 8).any fun b => d.unitOut 0x4 (b + 8 * (c - 624))

/-- FENCE-UNIT of a unit; the block and the scope applied, 1 unit, 2 domain (R260). `slice` is the slice a slice kind names. -/
def Dev.fenceUnit (d : Dev) (cls idx : Nat) (slice : Option Nat) : Dev × Nat :=
  match cls with
  | 0x1 => (d.fenceRail idx none, 2)
  | 0x2 => (d.fencePhase idx none, 1)
  | 0x3 => (d.fenceEntryUnit idx, 1)
  | 0x4 => (d.fenceBranch idx, 1)
  | 0x5 => (match slice with | some s => d.fenceSlice idx s | none => d, 1)
  | 0x6 => (d.fencePort idx, 1)
  | 0x7 => (d.fenceThread idx, 1)
  | 0x9 => (d.fenceTw idx, 1)
  | 0xA => (d.fenceLane idx, 1)
  | 0xB => (d.fenceCore idx, 1)
  | 0xC => (d.fenceBank idx idx, 1)
  | 0xD => (d.fenceLink idx, 2)
  | 0xE => (d.fenceRing idx, 1)
  | _ => (d, 0)

/-- FENCE-DOMAIN of a unit (R260). -/
def Dev.fenceDomain (d : Dev) (cls idx : Nat) : Dev × Nat :=
  match cls with
  | 0x1 => (d.fenceRail idx none, 2)
  | 0x2 => (match (d.P idx).rail with | some r => d.fenceRail r none | none => d, 2)
  | 0x3 => (d.fenceEntryDomain idx, 2)
  | 0x4 => (d.fenceBranchDomain idx, 2)
  | 0x5 => (d.fenceServed idx, 2)
  | 0x6 => (d.fencePort idx, 1)
  | 0x7 => ((d.fenceThread idx).fenceSegment 0x7 idx (d.tSeg idx), 2)
  | 0x9 => (d.fenceTw idx, 1)
  | 0xA => ((d.fenceLane idx).slDown, 2)
  | 0xB => (d.fenceCore idx, 1)
  | 0xC => (d.fenceMemory idx, 2)
  | 0xD => (d.fenceLink idx, 2)
  | 0xE => (d.fenceRing idx, 1)
  | _ => (d, 0)

/-- The unit a fence was for is out after it: a fence that a unit's own chapter does not apply to its present state is none. -/
def Dev.fenceTook (d : Dev) (cls idx level : Nat) : Bool :=
  if cls = 0x5 then (if level = 2 then d.unitOut 0x5 idx else d.servedOut idx)
  else if cls = 0x2 ∧ level = 3 then (match (d.P idx).rail with | some r => d.unitOut 0x1 r | none => false)
  else d.unitOut cls idx

/-- The fence of a class at level 2 or 3, and the scope applied, 0 for a row that reads "Recorded only" (R260). -/
def Dev.fenceClass (d : Dev) (m : FMsg) (level : Nat) : Dev × Nat :=
  match classUnit m.kind m.unit with
  | none => (d, 0)
  | some (cls, idx) =>
    -- a converter kind that names no slice has no unit fence
    if cls = 0x5 ∧ level = 2 ∧ m.aspace ≠ 4 then (d, 0)
    else
    let (d, scope) := if level = 2 then d.fenceUnit cls idx (if m.aspace = 4 then some m.addr else none) else d.fenceDomain cls idx
    (d, if d.fenceTook cls idx level then scope else 0)

/-! ## Records (R253) -/

/-- The words of a record. -/
def recordWords (m : FMsg) (level orig count slot scope : Nat) (esc hw : Bool) : List Nat :=
  [0x0010 + level * 2 ^ 16 + orig * 2 ^ 19 + b2n m.spec * 2 ^ 22 + b2n m.forced * 2 ^ 23 + m.access * 2 ^ 24 + b2n esc * 2 ^ 28 +
     b2n hw * 2 ^ 29 + (if scope = 0 then 0 else 2 ^ 30) + b2n m.stale * 2 ^ 31,
   m.unit + m.kind * 2 ^ 12 + m.agent * 2 ^ 24,
   m.addr % 2 ^ 32,
   m.addr / 2 ^ 32 % 2 ^ 16 + count * 2 ^ 16,
   m.stamp % 2 ^ 32,
   m.stamp / 2 ^ 32 % 2 ^ 32,
   m.stamp % 2 ^ 32,
   slot + scope * 2 ^ 16 + m.aspace * 2 ^ 24]

/-- FLT_SAFE takes the first L4 record after it was emptied (R266). -/
def Dev.safeRecord (d : Dev) (ws : List Nat) : Dev :=
  if d.on FLT_SAFE_CTL.VALID then d
  else (d.forN 8 fun d k => d.wr (FLT_SAFE.SAFE_REC k) (ws.getD k 0)).wr FLT_SAFE_CTL.VALID 1

/-- The words of a slot. -/
def Dev.slotWords (d : Dev) (s : Nat) : List Nat := (List.range 8).map fun k => d.rd (SLOT.WORD s k)

/-- The record table has a copy online (16_memory_protection.md R439). -/
def Dev.tableOn (d : Dev) : Bool := ! d.pairGone 0x81

/-- The unacknowledged record of a class (R255). -/
def Dev.slotOf (d : Dev) (kind unit : Nat) : Option Nat :=
  if ¬ d.tableOn then none
  else (List.range 256).find? fun s => d.slotUsed s && d.rd (SLOT.CLASS s) == kind * 4096 + unit

/-- The slot that a first occurrence takes (R254). -/
def Dev.slotNew (d : Dev) (level : Nat) : Option Nat :=
  if ¬ d.tableOn then none
  else (List.range (if 3 ≤ level then 256 else 240)).find? fun s => ! d.slotUsed s

/-- The merge window of slot `s` has closed by tick `t` (R257): FAULT_UPDATE and a window that opens on the closing tick, or no window;
an L0 record with nothing merged is freed. While FLT_RING is not set up the record is held (R258). -/
def Dev.mergeClose (d : Dev) (s t : Nat) : Dev :=
  match (d.SL s).win with
  | none => d
  | some o =>
    if ¬ d.slotUsed s ∨ t < o + d.mergeWin then d
    else if ¬ d.flt.ring then d.onSL s fun x => { x with win := none }
    else if (d.SL s).merged then (d.report s 0x0011).onSL s fun x => { x with win := some (o + d.mergeWin), merged := false }
    else if d.rd (SLOT.LEVEL s) = 0 then d.slotFree s
    else d.onSL s fun x => { x with win := none }

/-- A merge window closes (R257; log 7). -/
def devMergeWindowClose (s : Nat) (d : Dev) : Dev := d.mergeClose s d.now

/-- MERGE_WINDOW_CLOSE -/
def execMergeWindowClose (k : Fin 256) (s : State) : Host.Outcome State Fault Refusal :=
  .next { s with dev := devMergeWindowClose k.val s.dev }

/-- A record is allocated at, or raised to, a level: core events and two-wire alerts (15_mograthes_cores.md R420; 14_two_wire.md
R384). -/
def Dev.levelSignals (d : Dev) (level : Nat) : Dev :=
  let d := d.forN 21 fun d c => if d.rd (CORE_CFG.FLT_LEVEL c) ≤ level then d.corePend c 3 else d
  d.forN 16 fun d n => if d.on (TW_ALERT.FLT_EN n) ∧ d.rd (TW_ALERT.FLT_LEVEL n) ≤ level then d.wr (TW_ALERT.PENDING n) 1 else d

/-! ## An occurrence (R248, R254-R257) -/

/-- The level a message brings a record to: its own, the fence level of a latch if higher, L4 with a SAFE-STOP (R248;
03_branch_fuses.md R75). -/
def FMsg.top (m : FMsg) : Nat := if m.safe then 4 else max m.level m.fence

/-- The level of the fence a message or record level calls for: a policy kind fences at its latch alone (R248). -/
def fenceLevel (m : FMsg) (level : Nat) : Nat :=
  if isPolicyKind m.kind then (if 2 ≤ m.fence then min 3 m.fence else 0)
  else if level = 2 ∨ level = 3 then level else 0

/-- The reaction to a message at a level (R245, R248, R260): a fence, then SAFE entry at L4. The scope applied: 1 unit, 2 domain,
3 device. -/
def Dev.react (d : Dev) (m : FMsg) (level : Nat) : Dev × Nat :=
  let f := fenceLevel m level
  let (d, scope) := if f = 0 then (d, 0) else d.fenceClass m f
  if level = 4 then (d.safeEnter 7, 3) else (d, scope)

/-- FENCED and SCOPE of a record take the scope applied. -/
def Dev.slotScope (d : Dev) (s scope : Nat) : Dev :=
  if scope = 0 then d else (d.twr 0xEE (SLOT.FENCED s) 1).twr 0xEE (SLOT.SCOPE s) (max scope (d.rd (SLOT.SCOPE s)))

/-- A first occurrence (R254, R266). -/
def Dev.occurFirst (d : Dev) (m : FMsg) : Dev :=
  let top := m.top
  match d.slotNew m.level with
  | none =>
    let d := (d.bump FLT_LOST.LOST).hwWr FLT_STATUS.FULL 1
    let d := (d.react m top).1
    if top = 4 then d.safeRecord (recordWords m 4 m.level 1 0xFFFF 3 false false) else d
  | some s =>
    let (d, scope) := d.react m top
    let ws := recordWords m top m.level 1 s scope false false
    let d := ((d.tabFresh (0x6000 + 0x20 * s) 32).forN 8 fun d k => d.twr 0xEE (SLOT.WORD s k) (ws.getD k 0)).onSL s fun _ => {}
    let d := if top = 4 then d.safeRecord ws else d
    (d.levelSignals top).reportAt s 0x0010 d.now

/-- The level of a merged record (R256): the new level and whether escalation raised it. -/
def Dev.mergedLevel (d : Dev) (m : FMsg) (old : Nat) : Nat × Bool :=
  let l := m.top
  let new := max old l
  let esc := if d.on FLT_CFG.LEGACY_ESC ∧ 1 ≤ m.level ∧ ¬ isPolicyKind m.kind ∧ ¬ m.latch then
    max new (min (old + 1) (d.rd FLT_CFG.ESC_CEIL)) else new
  (esc, decide (old < esc ∧ l < esc))

/-- A message merges into the record of its class (R255-R257); a latch that follows its trip is no occurrence (R248). -/
def Dev.occurMerge (d : Dev) (m : FMsg) (s : Nat) : Dev :=
  let d := d.tabRead 0xEE (0x6000 + 0x20 * s) 32
  let old := d.rd (SLOT.LEVEL s)
  let (new, esc) := d.mergedLevel m old
  let d :=
    if m.latch then d
    else
      let d := (d.tbump 0xEE (SLOT.COUNT s)).twr 0xEE (SLOT.LAST s) m.stamp
      let d := if m.spec then d.twr 0xEE (SLOT.SPEC s) 1 else d
      if m.forced then d.twr 0xEE (SLOT.FORCED s) 1 else d
  let d := if old < new then (d.twr 0xEE (SLOT.LEVEL s) new).twr 0xEE (SLOT.ESCALATED s) (if esc then 1 else d.rd (SLOT.ESCALATED s)) else d
  -- the reaction of the occurrence's own level every time (R255), and that of a level it was raised to (R256)
  let (d, scope) := d.react m m.top
  let d := d.slotScope s scope
  let (d, scope) := if old < new ∧ new ≠ m.top then d.react m new else (d, 0)
  let d := d.slotScope s scope
  let d := if old < new ∧ new = 4 then d.safeRecord (d.slotWords s) else d
  if old < new then (d.levelSignals new).reportAt s 0x0011 d.now
  else if m.latch then d
  else match (d.SL s).win with
    | some _ => d.onSL s fun x => { x with merged := true }
    | none => d.reportAt s 0x0011 d.now

/-- The latch of a trip whose record is gone: its reaction, and FLT_SAFE at L4 (R248, R266). -/
def Dev.latchAlone (d : Dev) (m : FMsg) : Dev :=
  let d := (d.react m m.top).1
  if m.top = 4 then d.safeRecord (recordWords m 4 m.level 1 0xFFFF 3 false false) else d

/-- A trip or a latch reaches the selvage (R254-R257): a window of its class that closed at or before its stamp closes first (R7). -/
def Dev.occurOne (d : Dev) (m : FMsg) : Dev :=
  let d := match d.slotOf m.kind m.unit with
    | some s => d.mergeClose s m.stamp
    | none => d
  match d.slotOf m.kind m.unit with
  | some s => d.occurMerge m s
  | none => if m.latch then d.latchAlone m else d.occurFirst m

/-- A message reaches the selvage: a trip that latches at once is placed at its own level, and its latch then raises the record
(R248, R257). -/
def Dev.occur (d : Dev) (m : FMsg) : Dev :=
  if m.latch ∨ (m.fence = 0 ∧ ¬ m.safe) then d.occurOne m
  else (d.occurOne { m with fence := 0, safe := false }).occurOne { m with latch := true }

/-- The next fault message reaches the selvage (R254); the selvage runs while the hub has its clock. -/
def devFaultOccurrence (d : Dev) : Dev :=
  match d.flt.msgs with
  | [] => d
  | m :: r => if d.clk.hub ∧ ¬ d.clk.rootLost then { d with flt := { d.flt with msgs := r } }.occur m else d

/-- FAULT_OCCURRENCE -/
def execFaultOccurrence (s : State) : Host.Outcome State Fault Refusal := .next { s with dev := devFaultOccurrence s.dev }

/-! ## The hardwired paths (R251; 11_clocks_time.md R298) -/

/-- An L4 fault on the hardwired path: SAFE entry and FLT_SAFE, with no slot of the record table (R251, R266). -/
def Dev.hardwired (d : Dev) (kind : Nat) (forced : Bool) : Dev :=
  let m : FMsg := { kind := kind, unit := 0, agent := 0xEE, access := 0, aspace := 3, addr := 0, stamp := d.now, level := 4, forced := forced }
  (d.safeRecord (recordWords m 4 4 1 0xFFFF 3 false true)).safeEnter 7

/-- The copies of the selvage mismatch, or one misses its heartbeat (R251). -/
def devLockstep (d : Dev) : Dev := if d.clk.hub ∧ ¬ d.clk.rootLost then d.hardwired 0x88 d.flt.forced else d

/-- LOCKSTEP -/
def execLockstep (s : State) : Host.Outcome State Fault Refusal := .next { s with dev := devLockstep s.dev }

/-- The root monitor (11_clocks_time.md R298): cause 0 no REFCLK edge, 1 lock lost, 2 frequency out of range. The first two stop the
clock: every phase goes MID, FLT_SAFE is written and SAFE_LATCH set. -/
def devClkRoot (cause : Nat) (d : Dev) : Dev :=
  if ¬ d.clk.hub ∨ d.clk.rootLost then d
  else if cause = 2 then (d.wr CLK_STATUS.REF_OK 0).raise 0x80 0 0xEE 0
  else
    let d := if cause = 0 then d.wr CLK_STATUS.REF_OK 0 else d
    let d := (d.wr CLK_STATUS.LOCK 0).hardwired 0x80 false
    let d := d.kcHold
    let d := { d with clk := { d.clk with rootLost := true } }.kcGo
    (d.wr MODE_STATUS.SAFE_LATCH 1).alertShow

/-- CLK_ROOT -/
def execClkRoot (cause : Fin 3) (s : State) : Host.Outcome State Fault Refusal := .next { s with dev := devClkRoot cause.val s.dev }

/-! ## Die links (R246, R259, R260) -/

/-- The heartbeat of a link is missing for 4 microseconds: LINK_LOST, and the link is fenced (R260). -/
def devLinkLost (l : Nat) (d : Dev) : Dev :=
  if ¬ d.clk.hub ∨ d.link.lost.testBit l then d
  else
    let d := d.raise 0x85 l 0xEE 0
    { d with link := { d.link with lost := setBit d.link.lost l } }.fenceLink l

/-- LINK_LOST -/
def execLinkLost (l : Fin 8) (s : State) : Host.Outcome State Fault Refusal := .next { s with dev := devLinkLost l.val s.dev }

/-- A transfer check failed and was retried (R246). -/
def devLinkError (l : Nat) (d : Dev) : Dev := if d.linkUp l then d.raise 0x84 l 0xEE 0 else d

/-- LINK_ERROR -/
def execLinkError (l : Fin 8) (s : State) : Host.Outcome State Fault Refusal := .next { s with dev := devLinkError l.val s.dev }

/-- The heartbeat of a lost link returns; a link that is not fenced is in service again (R259; log 35). -/
def devLinkReturn (l : Nat) (d : Dev) : Dev :=
  if d.link.lost.testBit l then { d with link := { d.link with lost := clrBit d.link.lost l } }.linkServes l else d

/-- LINK_RETURN -/
def execLinkReturn (l : Fin 8) (s : State) : Host.Outcome State Fault Refusal := .next { s with dev := devLinkReturn l.val s.dev }

/-! ## Acknowledgement and UNFENCE (R262-R264) -/

/-- The occurrences of a class that are stamped on this tick or before and wait reach the selvage now, in order (R262). -/
def Dev.occurClass (d : Dev) (cls : Nat) : Dev :=
  let of := fun (m : FMsg) => m.kind * 4096 + m.unit == cls && decide (m.stamp ≤ d.now)
  let ms := d.flt.msgs.filter of
  let d := { d with flt := { d.flt with msgs := d.flt.msgs.filter fun m => !(of m) } }
  d.forL ms fun d m => d.occur m

/-- The body of FAULT_ACK (R262): an occurrence of the slot's class on this tick merges before the check. -/
def Dev.ackBody (d : Dev) (p : List Byte) : Dev × Nat :=
  let s := leNat p 0 2
  let d := if s < 256 then d.tabRead 0x30 (0x6000 + 0x20 * s) 32 else d
  let d := if s < 256 ∧ d.slotUsed s then d.occurClass (d.rd (SLOT.CLASS s)) else d
  if ¬ (zeroBytes p 2 3 ∧ byteAt p 10 < 2 ∧ zeroBytes p 11 47) ∨ 255 < s then (d, St.descInvalid)
  else if ¬ d.tableOn then (d, St.domainFenced)
  else if ¬ d.slotUsed s then (d, St.faultEmpty)
  else if leNat p 4 4 % 2 ^ 20 ≠ d.rd (SLOT.CLASS s) then (d, St.faultMismatch)
  else if leNat p 8 2 ≠ d.rd (SLOT.COUNT s) ∧ byteAt p 10 % 2 = 0 then (d, St.faultMoved)
  else (d.slotFree s, St.success)

/-- FAULT_ACK frees a record (R262, R263). -/
def devFaultAck (x : Desc) (d : Dev) : Dev :=
  d.runDesc 0x29 x (some 0) true (some 2) fun d _ => let (d, st) := d.ackBody x.payload; (d, some st)

/-- FAULT_ACK -/
def execFaultAck (x : Desc) (s : State) : Host.Outcome State Fault Refusal :=
  if x.wf then .next { s with dev := devFaultAck x s.dev } else .fault .badOperand

/-- UNFENCE of a core is refused while its local memory, or the memory in whose domain it was fenced, is offline
(16_memory_protection.md R440). -/
def Dev.coreMemOut (d : Dev) (c : Nat) : Bool := d.bankOff (2 * c) || d.bankOff (2 * c + 1)

/-- The unit's own UNFENCE (R264); `none` while it waits. -/
def Dev.unfenceUnit (d : Dev) (cls idx : Nat) (t : Token) : Dev × Option Nat :=
  let now := fun (x : Dev × Nat) => ((x.1, some x.2) : Dev × Option Nat)
  match cls with
  | 0x1 => now (d.unfenceRail idx)
  | 0x2 => now (d.unfencePhase idx)
  | 0x3 => now (d.unfenceEntry idx)
  | 0x4 => now (d.unfenceBranch idx)
  | 0x5 => d.unfenceConv idx t
  | 0x6 => now (d.unfencePort idx)
  | 0x7 => now (d.unfenceThread idx)
  | 0x9 => now (d.unfenceTw idx)
  | 0xA => now (d.unfenceLane idx)
  | 0xB => now (d.unfenceCore idx)
  | 0xC => d.unfenceBank idx t
  | 0xD => now (d.unfenceLink idx)
  | 0xE => now (d.unfenceRing idx)
  | _ => (d, some St.unitNotFenced)

/-- The body of UNFENCE (R264). -/
def Dev.unfenceBody (d : Dev) (x : Desc) (t : Token) : Dev × Option Nat :=
  let cls := x.cls.toNat
  let idx := x.idx.toNat
  if ¬ zeroPayload x.payload then (d, some St.descInvalid)
  else if ¬ d.unitOut cls idx then (d, some St.unitNotFenced)
  else if d.md = Md.factory ∧ d.on MODE_STATUS.HELD then (d, some St.wrongMode)
  else if d.inDomainOut cls idx ∨ (cls = 0xB ∧ d.coreMemOut idx) then (d, some St.domainFenced)
  else
    let (d, st) := d.unfenceUnit cls idx t
    (if st = some St.success ∨ st = none then d.noDomain cls idx else d, st)

/-- UNFENCE lifts the fence or latch of one unit (R264). -/
def devUnfence (x : Desc) (d : Dev) : Dev := d.runDesc 0x28 x none false (some 2) fun d t => d.unfenceBody x t

/-- UNFENCE -/
def execUnfence (x : Desc) (s : State) : Host.Outcome State Fault Refusal :=
  if x.wf then .next { s with dev := devUnfence x s.dev } else .fault .badOperand

/-- A write of CLR empties FLT_SAFE in CONFIGURE (R265, R266). -/
def devFltSafeClr (a : Agent) (d : Dev) : Dev :=
  if ¬ d.clk.hub then d
  else if d.md ≠ Md.configure then d.wign a.toNat 0x4014 1
  else (d.forN 8 fun d k => d.wr (FLT_SAFE.SAFE_REC k) 0).wr FLT_SAFE_CTL.VALID 0

/-- FLT_SAFE_CLR -/
def execFltSafeClr (a : Agent) (s : State) : Host.Outcome State Fault Refusal := .next { s with dev := devFltSafeClr a s.dev }

end Sys2Proof.Machine
end

