-- ==== Sys2Proof/Machine/Inject.lean ====
section
/-! DEFINITION. Fault injection in FACTORY (09_faults.md R269). -/

namespace Sys2Proof.Machine

/-- A write of FIRE arms the injection, unless one is armed (R269). -/
def devFltInjFire (a : Agent) (d : Dev) : Dev :=
  if ¬ d.clk.hub then d
  else if d.md ≠ Md.factory then d.wign a.toNat 0x4200 1
  else if d.rd FLT_INJ_STAT.STATE = 1 then d.wign a.toNat 0x4200 3
  else
    let t := d.now + d.rd FLT_INJ_DELAY.DELAY
    { d.wr FLT_INJ_STAT.STATE 1 with flt := { d.flt with inj := some t } }

/-- FLT_INJ_FIRE -/
def execFltInjFire (a : Agent) (s : State) : Host.Outcome State Fault Refusal := .next { s with dev := devFltInjFire a s.dev }

/-- ADDR of an injection. -/
def Dev.injAddr (d : Dev) : Nat := d.rd FLT_INJ_ADDR_HI.ADDR_HI * 2 ^ 32 + d.rd FLT_INJ_ADDR_LO.ADDR_LO

/-- A message injection: an occurrence enters the selvage (R269; log 36). -/
def Dev.injMessage (d : Dev) (kind unit : Nat) : Dev :=
  let level := d.rd FLT_INJ_CTL.LEVEL
  if ¬ kindListed kind ∨ 4 < level then d
  else
    let m : FMsg := { kind := kind, unit := unit, agent := d.rd FLT_INJ_AGENT.AGENT, access := 0, aspace := 3, addr := d.injAddr,
                      stamp := d.now, level := level, forced := true }
    { d with flt := { d.flt with msgs := insertMsg m d.flt.msgs } }

/-- A comparator injection: the output of the unit's analog comparator is forced for one tick, which a longer filter does not pass
(R269; log 36). -/
def Dev.injComparator (d : Dev) (kind unit : Nat) : Dev :=
  if kind = 0x01 ∧ unit < 16 then (if d.rd (ENT_PROT.SC_FILT unit) ≤ 1 then devEntScTrip unit d else d)
  else if kind = 0x11 ∧ unit < 64 then (if d.rd (BR_FAST.FAST_FILT unit) ≤ 1 then devBrFastTrip unit d else d)
  else if kind = 0x21 ∧ unit < 512 then devPhFuse unit d
  else if kind = 0x22 ∧ unit < 512 then devPhStage unit d
  else if kind = 0x30 ∧ unit < 64 then d.ovHigh unit
  else if kind = 0x37 ∧ unit < 64 then (d.catchOn unit false).cmpLow unit false
  else d

/-- A memory injection inverts one stored bit of a granule (R269). -/
def Dev.injMemory (d : Dev) (b : Nat) : Dev :=
  let a := d.injAddr
  let g := a / 128
  if 80 ≤ a % 128 ∨ bankSize b ≤ 8 * g then d
  else { d with mem := { d.mem with err := KV.put (fun _ => 0) d.mem.err (granKey b g) (d.granErr b g ^^^ BitVec.ofNat 80 (2 ^ (a % 128))) } }

/-- An armed injection occurs through its path (R269). -/
def devFaultInjection (d : Dev) : Dev :=
  match d.flt.inj with
  | none => d
  | some t =>
    if d.now < t ∨ d.md ≠ Md.factory then d
    else
      let d := { d.wr FLT_INJ_STAT.STATE 2 with flt := { d.flt with inj := none, forced := true } }
      let cls := d.rd FLT_INJ_CTL.CLASS
      let path := d.rd FLT_INJ_CTL.PATH
      let d :=
        if path = 0 then d.injMessage (cls / 4096) (cls % 4096)
        else if path = 1 then d.injComparator (cls / 4096) (cls % 4096)
        else if path = 2 then d.injMemory (cls % 4096)
        else d.hardwired 0x88 true
      { d with flt := { d.flt with forced := false } }

/-- FAULT_INJECTION -/
def execFaultInjection (s : State) : Host.Outcome State Fault Refusal := .next { s with dev := devFaultInjection s.dev }

end Sys2Proof.Machine
end

