-- ==== Sys2Proof/Machine/Memory.lean ====
section
/-! DEFINITION. Initialisation, scrubbing, the copy of a mirrored bank and the raw window of the protected memories
(16_memory_protection.md R438-R443). -/

namespace Sys2Proof.Machine

/-! ## Initialisation (R438) -/

/-- A bank finishes: online, or offline with MEM_UE if its read-back found a granule other than clean. -/
def Dev.bankInit (d : Dev) (bad : List Nat) (b : Nat) : Dev :=
  if bad.contains b then ((d.setBankOff b true).evt MEM_EVT.EVT 1).raise 0x61 b 0x35 1 else d.setBankOff b false

/-! ## The scrubber (R441) -/

/-- The region of a bank: 0 hub, 1-4 loom dice, 5 the entry die (R429). -/
def bankRegion (b : Nat) : Nat := match bankDie b with | none => 0 | some n => n + 1

/-- SCRUB_PERIOD as it acts (R443). -/
def Dev.scrubPeriod (d : Dev) : Nat := max 800000 (d.rd MEM_SCRUB.SCRUB_PERIOD)

/-- The banks of a region, in index order. -/
def scrubBanks (r : Nat) : List Nat := allBanks.filter fun b => bankRegion b == r

/-- The bank and granule at place `k` of a list of banks. -/
def granAt : List Nat → Nat → Option (Nat × Nat)
  | [], _ => none
  | b :: r, k => if k < bankSize b / 8 then some (b, k) else granAt r (k - bankSize b / 8)

/-- One visit of region `r`'s scrubber, if it is due: visits are spaced evenly over the window, and each granule of the region has its place
in it, whichever banks are online; a visit to an offline bank reads nothing. The last one of a window completes it;
PASSES counts the windows of the hub's scrubber (log 37). -/
def devScrubVisit (r : Nat) (d : Dev) : Dev :=
  let bs := scrubBanks r
  let total := bs.foldl (fun n b => n + bankSize b / 8) 0
  let k := nget d.mem.scrub r
  let t := nget d.mem.scrubAt r
  if ¬ d.on MEM_CFG.SCRUB_EN ∨ ¬ d.clk.hub ∨ d.clk.rootLost ∨ d.mem.init ≠ [] ∨ total = 0 then d
  else if d.now < t + k * d.scrubPeriod / total then d
  else
    let d := match granAt bs (min k (total - 1)) with
      | none => d
      | some (b, g) => if d.bankOff b then d else (d.readGran b g 0x34 7).1
    if k + 1 < total then { d with mem := { d.mem with scrub := nput d.mem.scrub r (k + 1) } }
    else
      let d := { d with mem := { d.mem with scrub := nput d.mem.scrub r 0, scrubAt := nput d.mem.scrubAt r (t + d.scrubPeriod) } }
      if r = 0 then d.wr MEM_PASS.PASSES (d.rd MEM_PASS.PASSES + 1) else d

/-- SCRUB_VISIT -/
def execScrubVisit (r : Fin 6) (s : State) : Host.Outcome State Fault Refusal :=
  .next { s with dev := devScrubVisit r.val s.dev }

/-! ## The copy of a mirrored bank (R440) -/

/-- The stored bits of the partner stand in the bank. -/
def Dev.copyBank (d : Dev) (b p : Nat) : Dev :=
  let rest := d.mem.err.filter fun x => x.1 / 0x100000 ≠ b
  let theirs := d.mem.err.filter fun x => x.1 / 0x100000 = p
  { d with mem := { d.mem with err := theirs.foldl (fun m x => KV.put (fun _ => 0) m (granKey b (x.1 % 0x100000)) x.2) rest } }

/-- The copy ends: the bank is online, and its UNFENCE completes (R440). -/
def devBankCopyDone (b : Nat) (d : Dev) : Dev :=
  match bankPartner b with
  | none => d
  | some p =>
    if ¬ d.mem.copying.contains b then d
    else
      let ts := (d.mem.copyOut.filter fun x => x.1 == b).map (·.2)
      let d := (d.copyBank b p).setBankOff b false
      let d := { d with mem := { d.mem with copying := d.mem.copying.filter (· ≠ b), copyOut := d.mem.copyOut.filter fun x => x.1 ≠ b } }
      d.completeAll ts St.success

/-- BANK_COPY_DONE -/
def execBankCopyDone (b : BitVec 12) (s : State) : Host.Outcome State Fault Refusal :=
  .next { s with dev := devBankCopyDone b.toNat s.dev }

/-! ## The raw window (R442) -/

/-- A write of MEM_TAKE in FACTORY takes a bank offline with no fault (R442, R439); one that names no bank is ignored
with REASON VALUE (DESIGN CHOICE, log 49). -/
def devMemTake (a : Agent) (b : Nat) (d : Dev) : Dev :=
  if ¬ d.clk.hub then d
  else if d.md ≠ Md.factory then d.wign a.toNat 0x1324 1
  else if ¬ allBanks.contains b then d.wign a.toNat 0x1324 2
  else d.fenceBank b b

/-- MEM_TAKE -/
def execMemTake (a : Agent) (b : BitVec 12) (s : State) : Host.Outcome State Fault Refusal :=
  .next { s with dev := devMemTake a b.toNat s.dev }

/-- A raw operation may act: the bank is offline and holds the granule. -/
def Dev.rawOk (d : Dev) : Bool :=
  let b := d.rd MEM_RAW_ADDR.BANK
  d.bankOff b && decide (8 * d.rd MEM_RAW_ADDR.GRAN < bankSize b)

/-- DONE and REFUSED of a raw operation. -/
def Dev.rawEnd (d : Dev) (refused : Bool) : Dev := (d.wr MEM_RAW_STAT.DONE 1).wr MEM_RAW_STAT.REFUSED (b2n refused)

/-- The code of a decode in MEM_RAW_STAT (R443). -/
def Decode.code : Decode → Nat
  | .clean => 0
  | .data _ => 1
  | .row _ => 2
  | .col _ => 2
  | .bad => 3

/-- A raw read: stored data and checks, the syndromes and the decode they would give (R442). -/
def devMemRawRead (_a : Agent) (d : Dev) : Dev :=
  if ¬ d.clk.hub then d
  else if ¬ d.rawOk then d.rawEnd true
  else
    let b := d.rd MEM_RAW_ADDR.BANK
    let g := d.rd MEM_RAW_ADDR.GRAN
    let v := d.granStored b g
    let clean := leNat (d.granClean b g) 0 8
    let e := (d.granErr b g).toNat
    let syn := syndromes (d.granErr b g)
    let d := (d.wr MEM_RAW_DLO.DLO v).wr MEM_RAW_DHI.DHI (v / 2 ^ 32)
    let d := (d.wr MEM_RAW_CHK.ROW (rowChecks clean ^^^ (e / 2 ^ 64 % 256))).wr MEM_RAW_CHK.COL (colChecks clean ^^^ (e / 2 ^ 72 % 256))
    let d := ((d.wr MEM_RAW_STAT.SYN_ROW syn.1).wr MEM_RAW_STAT.SYN_COL syn.2).wr MEM_RAW_STAT.DECODE (decodeSyn syn).code
    d.rawEnd false

/-- MEM_RAW_READ -/
def execMemRawRead (a : Agent) (s : State) : Host.Outcome State Fault Refusal := .next { s with dev := devMemRawRead a s.dev }

/-- A raw write: data and checks as held (R442). The damage mask is what they differ in from a clean granule (log 15). -/
def devMemRawWrite (_a : Agent) (d : Dev) : Dev :=
  if ¬ d.clk.hub then d
  else if ¬ d.rawOk then d.rawEnd true
  else
    let b := d.rd MEM_RAW_ADDR.BANK
    let g := d.rd MEM_RAW_ADDR.GRAN
    let clean := leNat (d.granClean b g) 0 8
    let v := d.rd MEM_RAW_DHI.DHI * 2 ^ 32 + d.rd MEM_RAW_DLO.DLO
    let e := (v ^^^ clean) + (d.rd MEM_RAW_CHK.ROW ^^^ rowChecks clean) * 2 ^ 64 + (d.rd MEM_RAW_CHK.COL ^^^ colChecks clean) * 2 ^ 72
    { d with mem := { d.mem with err := KV.put (fun _ => 0) d.mem.err (granKey b g) (BitVec.ofNat 80 e) } }.rawEnd false

/-- MEM_RAW_WRITE -/
def execMemRawWrite (a : Agent) (s : State) : Host.Outcome State Fault Refusal := .next { s with dev := devMemRawWrite a s.dev }

end Sys2Proof.Machine
end

