-- ==== Sys2Proof/Machine/RegPath.lean ====
section
/-! DEFINITION. The path of every register access, by the host, a core, a two-wire target or the boot ROM: reserved offsets, gaps,
links, write gates, access codes, and what a read or write of a register sets off (17_register_map.md R444-R457; 00_scope.md R4). -/

namespace Sys2Proof.Machine

/-! ## Where an access goes (R447, R451) -/

/-- The die an accessor sits on, `none` for the hub. -/
def agentDie (a : Nat) : Option Nat :=
  if 0x10 ≤ a ∧ a < 0x20 then some ((a - 0x10) / 4) else if a = 0x24 then some 4 else none

/-- The die of a converter (R447). -/
def convDie (c : Nat) : Nat := if c < 512 then c / 128 else if c < 576 then (c - 512) / 16 else 4

/-- The die that serves instance `i` of a block; `none` for the hub. The blocks of every loom die are treated apart. -/
def Region.die (g : Region) (i : Nat) : Option Nat :=
  match g with
  | .hub => none
  | .loom per => some (i / per)
  | .conv => some (convDie i)
  | .win => some (if i < 512 then i / 128 else if i < 1024 then (i - 512) / 16 % 4 else 4)
  | .core => if i < 16 then some (i / 4) else if i = 20 then some 4 else none
  | .loomAll => none
  | .entry => some 4
  | .island => some 4

/-- The link of a die is out; the hub has none. -/
def Dev.linkOut (d : Dev) (die : Option Nat) : Bool := match die with | none => false | some n => !(d.linkUp (dieLink n))

/-- An accessor does not reach a register (R451, R452). While the entry die is in keep its blocks are not served, SAGEp apart; the KC
itself, which runs on in the standby island, still reaches its own blocks and the OCV tables there (15_mograthes_cores.md R422; DEDUCED,
log 38). -/
def Dev.regOut (d : Dev) (a off : Nat) (write : Bool) : Bool :=
  match blockOf off with
  | none => !(d.clk.hub) || d.linkOut (agentDie a)
  | some b =>
    let i := (off - b.base) / b.stride
    let die := b.region.die i
    let apart := decide (agentDie a ≠ die)
    let path := apart && (!(d.clk.hub) || d.linkOut (agentDie a) || d.linkOut die)
    match b.region with
    | .loomAll => path || (if write then (List.range 4).any (fun n => !(d.linkUp n)) else (List.range 4).all fun n => !(d.linkUp n))
    | .island => path || (decide (b.base ≠ 0x205800) && apart && d.inKeep)
    | .core => path || (die == some 4 && apart && d.inKeep)
    | _ => path || (die == some 4 && d.inKeep)

/-! ## Words computed at the read -/

/-- The sources of DEV_IRQ_SUM (R455). -/
def Dev.sumBits (d : Dev) : Nat :=
  bitsOf 8 fun b => match b with
    | 0 => d.regs.any fun x => decide (0x400 ≤ x.1 ∧ x.1 ≤ 0x500) && x.2 != 0
    | 1 => (List.range 32).any fun t => d.on (TMR_CFG.IRQ t) && d.on (TMR_STATUS.PENDING t)
    | 2 => d.rd MODE_EVT.EVT != 0
    | 3 => d.rd HOST_EVT.EVT != 0
    | 4 => d.rd CLK_EVT.EVT != 0
    | 5 => d.rd SL_EVT.EVT != 0
    | 6 => d.rd MEM_EVT.EVT != 0
    | _ => d.on DEV_WIGN.SET

/-- The conditions of DEGRADED, a bit each in the order of 09_faults.md R261. -/
def Dev.degraded (d : Dev) : Nat :=
  bitsOf 7 fun b => match b with
    | 0 => (List.range 64).any fun r => d.on (PH_STATUS.DEG r)
    | 1 => [0x1, 0x2, 0x3, 0x4, 0x6, 0x7, 0x9, 0xB, 0xD, 0xE].any fun cls =>
        (List.range (classCount cls)).any fun i => d.unitOut cls i
    | 2 => (List.range 632).any fun c => d.rd (CV_STATUS.FENCED c) != 0
    | 3 => (List.range 16).any fun n => (d.E n).ocNum != (d.E n).ocDen && d.es n != Ec.off && d.es n != Ec.tripped && !d.entDown n
    | 4 => allBanks.any fun k => d.bankOff k
    | 5 => d.rd SL_FENCED.TX != 0 || d.rd SL_FENCED.RX != 0
    | _ => (List.range 384).any fun n => d.rd (OWN.STATE n) == 3

/-- The slots in use. -/
def Dev.usedSlots (d : Dev) : List Nat := (List.range 256).filter fun k => d.slotUsed k

/-- FLT_STATUS as it reads (09_faults.md R265). -/
def Dev.fltStatus (d : Dev) : Nat :=
  let used := d.usedSlots
  let top := match used with | [] => 7 | _ => used.foldl (fun m k => max m (d.rd (SLOT.LEVEL k))) 0
  b2n (d.on FLT_STATUS.SAFETY) * 2 ^ 31 + b2n (d.degraded != 0) * 2 ^ 30 + b2n (d.on FLT_STATUS.FULL) * 2 ^ 29 + top * 2 ^ 16 + used.length

/-- The link bits of DEV_STATUS (R454). -/
def Dev.devStatus (d : Dev) : Nat :=
  (d.word 0x14).toNat / 2 ^ 29 * 2 ^ 29 + b2n (d.linkUp 7) * 2 ^ 12 + bitsOf 4 (fun n => d.linkUp n) * 2 ^ 8 + bitsOf 3 fun k => d.linkUp (4 + k)

/-- CORE_PEND as it reads: the edge events held, and the levels (15_mograthes_cores.md R420). The KC has none while the hub is
absent. -/
def Dev.pend (d : Dev) (c : Nat) : Nat :=
  let rq := (List.range 16).any fun k => d.owns 3 k (0x10 + c) 2 && d.Q k != []
  if d.coreSlow c then d.rd (CORE_PEND.PEND c)
  else d.rd (CORE_PEND.PEND c) ||| (b2n ((d.RG (0x2E0 + c)).itrN != 0) + 2 * b2n rq)

/-- What a word of BAR0 reads as to an agent, without side effect; TW_PMB_RSH mirrors the shunts of the entry channels (14_two_wire.md
R376). -/
def Dev.liveWord (d : Dev) (a off : Nat) : Nat :=
  let w := (d.regWord off).toNat
  if off = 0x14 then d.devStatus
  else if off = 0x18 then d.sumBits
  else if off = 0x1108 then d.now % 2 ^ 32
  else if off = 0x110C then (let l := nget d.clk.thymeHi a; if l = 0 then d.now / 2 ^ 32 % 2 ^ 32 else (l - 1) % 2 ^ 32)
  else if off = 0x4008 then d.fltStatus
  else if off = 0x4010 then d.degraded
  else if 0x4200 ≤ off ∧ off < 0x4218 then (if d.md = Md.factory then w else 0)
  else if 0x1C00 ≤ off ∧ off < 0x1E00 ∧ off % 32 = 8 then nget d.rqHi (256 * ((off - 0x1C00) / 32) + a)
  else if 0x200000 ≤ off ∧ off < 0x201000 ∧ off % 256 = 0x24 ∧ (d.regWord (off - 0x24)).toNat / 2 ^ 30 = 2 then
    w ||| 2 ^ 31  -- REV_BLOCK is forced to 1 with ROLE 0b10 (02_power_entry.md R34)
  else if 0x108000 ≤ off ∧ off < 0x10C000 ∧ off % 32 = 8 then
    -- a phase that leaves is IDLE from the end of its period window on (05_phase_management.md R127, R132)
    (let p := (off - 0x108000) / 32
     if d.ps p = Ps.active ∧ closed d.now (d.P p).leave 0 then w / 16 * 16 + Ps.idle else w)
  else if 0xC080 ≤ off ∧ off < 0xC0A0 then
    (let k := (off - 0xC080) / 2; (d.regWord (0x200038 + 0x100 * k)).toNat % 2 ^ 16 + 2 ^ 16 * ((d.regWord (0x200138 + 0x100 * k)).toNat % 2 ^ 16))
  else if 0xD000 ≤ off ∧ off < 0xD540 ∧ off % 64 = 0x0C then w / 2 ^ 29 * 2 ^ 29 + (d.K ((off - 0xD000) / 64)).pc % 2 ^ 17
  else if 0xD000 ≤ off ∧ off < 0xD540 ∧ off % 64 = 0x2C then d.pend ((off - 0xD000) / 64)
  else if 0xD000 ≤ off ∧ off < 0xD540 ∧ off % 64 = 0x34 then
    (let c := (off - 0xD000) / 64; ((d.coreCount c).word off).toNat)
  else if 0x18000 ≤ off ∧ off < 0x18100 then
    (let v := (off - 0x18000) * 8; bitsOf 32 fun k => d.host.pba.contains (v + k))
  else if 0x120000 ≤ off ∧ off < 0x12A000 ∧ off % 16 = 8 then
    (let t := (off - 0x120000) / 16; w - b2n (w.testBit 2) * 4 + b2n (d.winBad t) * 4)
  else w

/-! ## Reads -/

/-- What a register access comes to: its value, a link that is out (R451), or a granule that gives no data
(16_memory_protection.md R436, R437). -/
inductive RdRes where
  | val (w : Nat)
  | link
  | bad
  deriving DecidableEq, Repr

/-- The bank whose copy of a table word is read or written: of the loom tables, the lowest-numbered die in service (R452). -/
def Dev.tableBank (d : Dev) (b : Nat) : Nat :=
  if b = 0x88 then 0x88 + 2 * (((List.range 4).find? fun n => d.linkUp n).getD 0) else b

/-- The memory behind BAR0 0x0080_0000 to 0x00BF_FFFF: hub shared memory (R457). -/
def windowBank (off : Nat) : Nat × Nat := (0x50 + (off - 0x800000) / 0x40000, off % 0x40000)

/-- BAR0 offset of the hub shared memory window (R457). -/
def inWindow (off : Nat) : Bool := decide (0x800000 ≤ off ∧ off < 0xC00000)

/-- An accessor that reaches hub shared memory through BAR0: any but a core (R445). -/
def viaBar (a : Nat) : Bool := !(decide (0x10 ≤ a ∧ a ≤ 0x24))

/-- A read of a memory as a register access. -/
def Dev.readMem (d : Dev) (b o a : Nat) : Dev × RdRes :=
  match d.readBank b o a 1 4 with
  | (d, some v) => (d, .val v)
  | (d, none) => (d, .bad)

/-- The side effects of a full read of a register and the value it returns: RC fields give what they held before the updates of the
clock and keep those updates alone, THYME_LO latches (00_scope.md R4, R5; 11_clocks_time.md R302). -/
def Dev.readEffect (d : Dev) (a off : Nat) (r : RegRow) : Dev × Nat :=
  let w := d.liveWord a off
  -- a read of THYME_HI that follows takes the latch with it (11_clocks_time.md R302; log 38)
  let d := if off = 0x1108 then { d with clk := { d.clk with thymeHi := nput d.clk.thymeHi a (d.now / 2 ^ 32 + 1) } }
    else if off = 0x110C then { d with clk := { d.clk with thymeHi := nput d.clk.thymeHi a 0 } } else d
  if r.rc = 0 then (d, w)
  else
    let (d, taken) := d.rcTake off r.rc
    (d, ((BitVec.ofNat 32 w &&& ~~~r.rc) ||| taken).toNat)

/-- A write to a gap is ignored and raises ACCESS_FAULT (R448); the spec gives it no REASON, which is a free value (R450; log 38). -/
def Dev.gapWrite (d : Dev) (n off : Nat) : Dev := ((d.wign n off (d.freeVal % 16)).nextFree).accessFault n 2 off

/-- A read of one register by an agent (R448-R452). -/
def Dev.regRead (d : Dev) (a off : Nat) : Dev × RdRes :=
  if off % 4 ≠ 0 ∨ ¬ (inSpan off ∨ (inWindow off ∧ viaBar a)) then (d.accessFault a 1 off, .val 0)
  else if d.regOut a off false then (d, .link)
  else if inWindow off then d.readMem (windowBank off).1 (windowBank off).2 a
  else match rowOf off with
    | none => (d, .val 0)
    | some r =>
      match tablePlace off with
      | some (b, o) => d.readMem (d.tableBank b) o a
      | none =>
        if 0x1C00 ≤ off ∧ off < 0x1E00 ∧ off % 32 = 4 then
          (let (d, w) := d.rqPop a ((off - 0x1C00) / 32); (d, .val w))
        else (let (d, w) := d.readEffect a off r; (d, .val w))

/-! ## Writes -/

/-- What a register write comes to: done, ignored (R450), a resource field refused (01_architecture.md R25), a link that is out, or a
granule that could not be merged. -/
inductive WrRes where
  | done
  | ignored
  | refused
  | link
  | bad
  deriving DecidableEq, Repr

/-- The row of a register with the bits that exist in its instance: fields of TW0 only (14_two_wire.md R376), the fixed ICV_CFG of ICV
16-23 (07_conversion.md R210), and CORE_HWIN of the hub cores (15_mograthes_cores.md R423). -/
def rowFor (off : Nat) : Option RegRow :=
  (rowOf off).map fun r =>
    if (0xC100 ≤ off ∧ off < 0xD000 ∧ (off % 0x100 = 4 ∨ off % 0x100 = 0x1C)) ∨ (0x205200 ≤ off ∧ off < 0x205300 ∧ off % 32 = 0) ∨
       (0xD000 ≤ off ∧ off < 0xD540 ∧ off % 64 = 0x30 ∧ ¬ (0xD400 ≤ off ∧ off < 0xD500)) then { r with rw := 0 }
    else r

/-- No bit of the word can be written. -/
def RegRow.fixed (r : RegRow) : Bool := r.rw == 0 && r.w1c == 0 && r.w1s == 0 && r.wo == 0

/-- The word after a write by the access codes (00_scope.md R4); `hw` are the bits that hardware set in the same clock, which a W1C
write leaves at 1 (R5). -/
def RegRow.store (r : RegRow) (old v : Word) (hw : Word := 0) : Word :=
  (((old &&& ~~~r.rw) ||| (v &&& r.rw)) &&& ~~~(v &&& r.w1c &&& ~~~hw)) ||| (v &&& r.w1s)

/-- The REASON with which the mode refuses a write of a gated register, 0 none (R450; 02_power_entry.md R59; 15_mograthes_cores.md
R423). -/
def Dev.gateReason (d : Dev) (g : WGate) (a off : Nat) : Nat :=
  let cfg := d.md == Md.configure
  match g with
  | .any => 0
  | .configure => if cfg then 0 else 1
  | .keep => if d.mode.keepLock then 6 else if cfg then 0 else 1
  | .factory => if d.md = Md.factory then 0 else 1
  | .own => if cfg ∨ a = 0x10 + (off - 0xD000) / 64 then 0 else 1
  | .coreCtl => if cfg ∨ d.md = Md.factory then 0 else 1

/-- A register that one agent alone may write, written by another (11_clocks_time.md R306; 14_two_wire.md R386; 15_mograthes_cores.md
R423). -/
def Dev.notWriter (d : Dev) (a off : Nat) : Bool :=
  if 0x1800 ≤ off ∧ off < 0x1C00 then
    (let t := (off - 0x1800) / 32; !(d.owns 1 t a 2) && !(d.owns 1 t a 3))
  else if 0xC000 ≤ off ∧ off < 0xD000 ∧ (off % 256 = 0x34 ∨ (0x40 ≤ off % 256 ∧ off % 256 < 0x60)) then
    (let n := (off - 0xC000) / 256; !(d.owns 4 n a 2) && !(d.owns 4 n a 3))
  else if 0xD000 ≤ off ∧ off < 0xD540 ∧ off % 64 = 0x24 then a != 0x10 + (off - 0xD000) / 64
  else false

/-- The target addresses a two-wire block answers (14_two_wire.md R388). -/
def Dev.twAddrs (d : Dev) (n : Nat) : List Nat :=
  let base := d.rd (TW_CFG.ADDR n)
  ((List.range 4).filter fun k => d.on (TW_WIN.VALID n k)).map (base + ·) ++
  (if n = 0 then
    ((List.range 3).filter fun j => d.rdBit (TW_PRIV.EN 0) j).map (base + 4 + ·) ++
    (if d.on (TW_PMB.PMB_EN 0) then [d.rd (TW_PMB.PMB_ADDR 0)] else [])
  else [])

/-- No two of them are equal and none is reserved (14_two_wire.md R376). -/
def Dev.twAddrsOk (d : Dev) (n : Nat) : Bool :=
  let l := d.twAddrs n
  l.all (fun x => decide (8 ≤ x ∧ x ≠ 0x0C ∧ x < 0x78)) && l.all fun x => l.count x == 1

/-- The sum of QUOTA over all virtual channels. -/
def Dev.quotaSum (d : Dev) : Nat := (List.range 16).foldl (fun n v => n + d.rd (VC_CFG.QUOTA v)) 0

/-- The codes of word 0 of a fuse policy record are ones R68 allows (03_branch_fuses.md). -/
def polCodesOk (w : Nat) : Bool := decide (bits w 29 27 ≤ 4) && decide (bits w 26 25 ≤ 1) && !(w.testBit 8) && !(w.testBit 0)

/-- The block with the written words of the two-wire blocks, in effect or not yet (14_two_wire.md R376). -/
def Dev.twWritten (d : Dev) : Dev :=
  { d with regs := (d.stg.filter fun x => twStaged x.1).foldl (fun r x => match x.2 with | none => r | some w => KV.put resetWord r x.1 w) d.regs }

/-- The word a write would leave is one the register's own check refuses (13_stream_link.md R373; 14_two_wire.md R376;
03_branch_fuses.md R68, log 40; 02_power_entry.md R43). -/
def Dev.badValue (d : Dev) (off : Nat) (w : Word) : Bool :=
  let d' := (if twStaged off then d.twWritten else d).setWord off w
  if 0x1440 ≤ off ∧ off < 0x1460 then
    decide (64 < (sext 8 (w.toNat / 65536 % 256)).natAbs + w.toNat / 256 % 256 + (sext 8 (w.toNat % 256)).natAbs)
  else if 0x1500 ≤ off ∧ off < 0x1600 ∧ off % 16 = 0 then decide (128 < d'.quotaSum)
  else if 0x2000 ≤ off ∧ off < 0x2800 ∧ off % 32 = 0 then !(polCodesOk w.toNat)
  else if 0x201200 ≤ off ∧ off < 0x201400 ∧ 8 ≤ off % 64 ∧ off % 64 ≤ 0x14 then w == 0
  else if 0x201200 ≤ off ∧ off < 0x201400 ∧ off % 64 = 0x18 then
    decide (sext 16 (w.toNat % 65536) ≤ sext 16 (w.toNat / 65536))
  else if 0xC000 ≤ off ∧ off < 0xD000 ∧ off % 256 = 0 then w.toNat % 4 == 3 || !(d'.twAddrsOk ((off - 0xC000) / 256))
  else if 0xC000 ≤ off ∧ off < 0xD000 ∧ off % 256 < 0x20 ∧ off % 256 ≠ 8 then !(d'.twAddrsOk ((off - 0xC000) / 256))
  else false

/-- Every host ring is DISABLED (12_host_rings.md R314). -/
def Dev.ringsOff (d : Dev) : Bool := (List.range 0x180).all fun n => d.rgState n == Rg.disabled

/-- The ring index of a word of RINGr or IRc, with the word's offset in the block. -/
def ringAt (off : Nat) : Option (Nat × Nat) :=
  if (0x8000 ≤ off ∧ off < 0xB000) ∨ (0xD800 ≤ off ∧ off < 0xDAA0) then some ((off - 0x8000) / 32, off % 32) else none

/-- The block's state forbids the write of the whole word (12_host_rings.md R314, R316). -/
def Dev.badState (d : Dev) (off : Nat) : Bool :=
  if off = 0x1200 ∨ off = 0x1204 then !(d.ringsOff)
  else match ringAt off with
    | some (n, o) => decide (o < 8) && d.rgState n != Rg.disabled
    | none => false

/-- Fields of a word that the write may not touch: they keep their value, and the rest takes effect. The mask of such bits, and
whether the refusal is one of 01_architecture.md R25. HOST_CTL.SB_EN (12_host_rings.md R314); ENT_CFG.TEMP_SRC of a channel whose ball
its agent does not hold, SG_CFG.NTC of a pack whose ball agent 0x33 does not hold with FUNCTION 0x2, SEQ_CFG.TRIG_SRC of a timer that agent 0xD0 + k does not hold with FUNCTION 0x3 (R25; 07_conversion.md R202). -/
def Dev.keptBits (d : Dev) (off : Nat) (old w : Word) : Word × Bool :=
  if off = 0x1208 then
    (if (old ^^^ w) &&& 0x80000000 ≠ 0 ∧ ¬ d.ringsOff then (0x80000000, false) else (0, false))
  else if 0x200000 ≤ off ∧ off < 0x201000 ∧ off % 256 = 0 then
    let n := (off - 0x200000) / 256
    if 12 ≤ n ∧ w &&& 0x04000000 ≠ 0 ∧ ¬ d.owns 0 (n - 12) (0x80 + n) 1 then (0x04000000, true) else (0, false)
  else if 0x205800 ≤ off ∧ off < 0x205A00 ∧ off % 128 = 0 then
    (if w &&& 0x40000000 ≠ 0 ∧ ¬ d.owns 0 ((off - 0x205800) / 128) 0x33 2 then (0x40000000, true) else (0, false))
  else if 0x204000 ≤ off ∧ off < 0x205000 ∧ off % 512 = 0 then
    let src := w.toNat / 2 ^ 16 % 128
    if 0x20 ≤ src ∧ src < 0x40 ∧ ¬ d.owns 1 (src - 0x20) (0xD0 + (off - 0x204000) / 512) 3 then (0x007F0000, true) else (0, false)
  else (0, false)

/-- A mode request by a write of MODE_REQ (10_modes_startup.md R272). -/
def Dev.modeReq (d : Dev) (a : Agent) (code : Nat) : Dev :=
  if code = 2 then devModeRequestConfigure (.reg a) d
  else if code = 3 then devModeRequestRamp (.reg a) d
  else if code = 4 then devModeRequestRun (.reg a) d
  else if code = 6 then devModeRequestSafe (.reg a) d
  else if code = 8 then devModeRequestClearSafe (.reg a) d
  else d.complete .modeReg St.descInvalid

/-- The straps as they were last sampled. -/
def Dev.strapsNow (d : Dev) : Straps :=
  { factoryN := d.on DEV_STATUS.FACTORY_N, bootSel := d.on DEV_STATUS.BOOT_SEL, keepStay := d.on DEV_STATUS.KEEP_STAY }

/-- The host path of 10_modes_startup.md R281 is open. -/
def Dev.hostPath (d : Dev) : Bool :=
  let st := d.rd BOOT_STATUS.STATE
  d.md == Md.configure && !d.mode.pendingCfg && (st == 7 || (3 ≤ st && st ≤ 6))

/-- A write of GO (10_modes_startup.md R281): the boot ROM takes the image in the boot window. -/
def devBootCtlGo (a : Agent) (d : Dev) : Dev :=
  if ¬ d.clk.hub then d
  else if ¬ d.hostPath then d.wign a.toNat 0x1068 3
  else
    let d := (d.wr BOOT_STATUS.STATE 1).wr BOOT_STATUS.SRC 1
    { d with mode := { d.mode with image := [], lastHost := true } }
/-- BOOT_CTL_GO -/
def execBootCtlGo (a : Agent) (s : State) : Host.Outcome State Fault Refusal := .next { s with dev := devBootCtlGo a s.dev }

/-- An accessor reaches a register to write it (R451). -/
def Dev.reaches (d : Dev) (a off : Nat) : Bool := (d.clk.hub || (agentDie a).isSome) && !(d.regOut a off true)

/-- What a write of an action bit does where the access reaches its register; out of reach it is ignored with REASON LINK, or an
exception of the writing core (R451). -/
def Dev.reach (d : Dev) (a off : Nat) (f : Dev → Dev) : Dev :=
  if d.reaches a off then f d else if d.clk.hub ∧ viaBar a then d.wign a off 5 else d

/-- A write of CAL_START (07_conversion.md R195). -/
def devCalStart (a : Agent) (c : Nat) (d : Dev) : Dev := d.reach a.toNat (0x110000 + 0x40 * c) fun d => d.calRequest c
/-- CAL_START -/
def execCalStart (a : Agent) (c : Fin 632) (s : State) : Host.Outcome State Fault Refusal :=
  .next { s with dev := devCalStart a c.val s.dev }

/-- A write of SEQ_CTL.TRIG, a trigger while TRIG_SRC is 0x01 (07_conversion.md R204). -/
def devSeqCtlTrig (a : Agent) (k : Nat) (d : Dev) : Dev :=
  d.reach a.toNat (0x204008 + 0x200 * k) fun d => if d.rd (SEQ_CFG.TRIG_SRC k) = 1 then d.seqTrigger k else d
/-- SEQ_CTL_TRIG -/
def execSeqCtlTrig (a : Agent) (k : Fin 8) (s : State) : Host.Outcome State Fault Refusal :=
  .next { s with dev := devSeqCtlTrig a k.val s.dev }

/-- A write of INJ_REQ (07_conversion.md R206, R207). -/
def devInjReq (a : Agent) (k sel : Nat) (d : Dev) : Dev :=
  d.reach a.toNat (0x204014 + 0x200 * k) fun d => d.injRequest a.toNat k sel
/-- INJ_REQ -/
def execInjReq (a : Agent) (k : Fin 8) (v : BitVec 6) (s : State) : Host.Outcome State Fault Refusal :=
  .next { s with dev := devInjReq a k.val v.toNat s.dev }

/-- A write of IP_CTL.RESTORE (06_load_intent.md R175). -/
def devIpCtlRestore (a : Agent) (n : Nat) (d : Dev) : Dev := d.reach a.toNat (0xB41C + 0x40 * n) fun d => d.ipRestore n
/-- IP_CTL_RESTORE -/
def execIpCtlRestore (a : Agent) (n : Fin 32) (s : State) : Host.Outcome State Fault Refusal :=
  .next { s with dev := devIpCtlRestore a n.val s.dev }

/-- CORE_CTL acts in CONFIGURE and FACTORY (15_mograthes_cores.md R423). -/
def Dev.coreCtl (d : Dev) (a c : Nat) (f : Dev → Dev) : Dev :=
  d.reach a (0xD008 + 0x40 * c) fun d =>
    if d.md = Md.configure ∨ d.md = Md.factory then f d
    else if d.clk.hub then d.wign a (0xD008 + 0x40 * c) 1 else d

/-- A write of CORE_CTL.HALT (15_mograthes_cores.md R422). -/
def devCoreCtlHalt (a : Agent) (c : Nat) (d : Dev) : Dev := d.coreCtl a.toNat c fun d => d.unlessLocked c fun d => d.coreHalt c
/-- CORE_CTL_HALT -/
def execCoreCtlHalt (a : Agent) (c : Fin 21) (s : State) : Host.Outcome State Fault Refusal :=
  .next { s with dev := devCoreCtlHalt a c.val s.dev }

/-- A write of CORE_CTL.START starts a HALTED core (15_mograthes_cores.md R404, R422); in CONFIGURE the cores stay HALTED until APPLIED is 1
(R428), and the write is ignored with REASON STATE till then (DESIGN CHOICE, log 42). -/
def devCoreCtlStart (a : Agent) (c : Nat) (d : Dev) : Dev :=
  d.coreCtl a.toNat c fun d =>
    if d.ks c ≠ Ks.halted then d
    else if d.md = Md.configure ∧ ¬ d.on BOOT_STATUS.APPLIED then (if d.clk.hub then d.wign a.toNat (0xD008 + 0x40 * c) 3 else d)
    else d.coreStart c
/-- CORE_CTL_START -/
def execCoreCtlStart (a : Agent) (c : Fin 21) (s : State) : Host.Outcome State Fault Refusal :=
  .next { s with dev := devCoreCtlStart a c.val s.dev }

/-- A write of CORE_KICK: core `c` with the key restarts its watchdog window, unless the window has closed (00_scope.md R8); any other
writer raises ACCESS_FAULT (15_mograthes_cores.md R423, R426). -/
def devCoreKick (a : Agent) (c : Nat) (v : Word) (d : Dev) : Dev :=
  let off := 0xD024 + 0x40 * c
  d.reach a.toNat off fun d =>
    if a.toNat ≠ 0x10 + c then (d.wign a.toNat off 7).accessFault a.toNat 2 off
    else if v.toNat ≠ 0x6B1C then d.wign a.toNat off 2
    else if d.coreBusy c ∧ ¬ d.wdtOver c then
      let now := d.coreNow c
      d.onK c fun x => { x with wdt := some now, wdtPast := 0 }
    else d
/-- CORE_KICK -/
def execCoreKick (a : Agent) (c : Fin 21) (v : Word) (s : State) : Host.Outcome State Fault Refusal :=
  .next { s with dev := devCoreKick a c.val v s.dev }

/-- A write of 1 to CORE_SIGNAL (15_mograthes_cores.md R420). -/
def devCoreSignal (a : Agent) (c : Nat) (d : Dev) : Dev := d.reach a.toNat (0xD028 + 0x40 * c) fun d => d.corePend c 2
/-- CORE_SIGNAL -/
def execCoreSignal (a : Agent) (c : Fin 21) (s : State) : Host.Outcome State Fault Refusal :=
  .next { s with dev := devCoreSignal a c.val s.dev }

/-- RG_CFG of a ring (12_host_rings.md R316): SIZE, CQ and VECTOR change while it is DISABLED; EN enables or disables it. A write of
EN = 1 that is refused changes nothing. -/
def Dev.ringCfg (d : Dev) (a n : Nat) (old w : Word) : Dev :=
  let off := 0x8008 + 0x20 * n
  let moves := (old ^^^ w) &&& 0x7FFFFFFF ≠ 0
  let en := w &&& 0x80000000 ≠ 0
  if d.rgState n = Rg.disabled then
    let d' := d.setWord off (w &&& 0x7FFFFFFF)
    if en then (if d'.rgValid n then d'.rgEnable a n else d.wign a off 3) else d'
  else
    let d := if moves then d.wign a off 3 else d
    let d := if en then d.rgEnable a n else d.rgDisable a n
    match srcOfRing n with
    | some (.core c) => d.irDrained c.val n (.core c)
    | _ => d

/-- What a write of a hub register sets off beyond its stored word: `v` is the written value, `old` the word before. -/
def Dev.hubEffect (d : Dev) (a : Agent) (off : Nat) (old v : Word) : Dev :=
  let n := v.toNat
  if off = 0x20 then
    (if n.testBit 31 ∧ old.toNat.testBit 31 ∧ ¬ (d.hwBits 0x20).toNat.testBit 30 then d.wr DEV_WIGN.MORE 0 else d)
  else if off = 0x1004 then d.modeReq a (n % 16)
  else if off = 0x1068 then (if n.testBit 0 then devBootCtlGo a d else d)
  else if off = 0x106C then devModeUnlock a v d
  else if off = 0x1070 then devModeReset a v d.strapsNow d
  else if off = 0x1324 then devMemTake a (n % 4096) d
  else if off = 0x1338 then
    (let d := if n.testBit 1 then devMemRawWrite a d else d; if n.testBit 0 then devMemRawRead a d else d)
  else if off = 0x1400 then d.slEnable
  else if 0x1800 ≤ off ∧ off < 0x1C00 then
    (let t := (off - 0x1800) / 32; if off % 32 = 0 then d.timerCfgWrite t old else if off % 32 = 8 then d.timerCmpWrite t else d)
  else if off = 0x4000 then
    (let e := d.rd FLT_CFG.FLT_RING
     if old.toNat / 2 ^ 20 % 256 = e then d
     else
       let d := { d with flt := { d.flt with ring := false } }
       if d.rgState (evRing e) = Rg.active then d.ringSetUp e else d)
  else if off = 0x4014 then (if n.testBit 0 then devFltSafeClr a d else d)
  else if off = 0x4200 then (if n.testBit 31 then devFltInjFire a d else d)
  else if 0xB400 ≤ off ∧ off < 0xBC00 then
    (let p := (off - 0xB400) / 64
     if off % 64 = 0 then d.ipMode p else if off % 64 = 0x1C ∧ n.testBit 0 then d.ipRestore p else d)
  else if 0xC000 ≤ off ∧ off < 0xD000 ∧ off % 256 = 0x30 then (if n.testBit 0 then devTwAlertReq a ((off - 0xC000) / 256) d else d)
  else if 0x10000 ≤ off ∧ off < 0x18000 ∧ off % 16 = 12 then d.unmaskVec ((off - 0x10000) / 16)
  else d

/-- What a write of a core, loom or entry register sets off beyond its stored word. -/
def Dev.dieEffect (d : Dev) (a : Agent) (off : Nat) (old v : Word) : Dev :=
  let n := v.toNat
  if 0xD000 ≤ off ∧ off < 0xD540 then
    let c := (off - 0xD000) / 64
    if off % 64 = 8 then
      (if n.testBit 1 ∧ d.coreBusy c then devCoreCtlHalt a c d else if n.testBit 0 then devCoreCtlStart a c d else d)
    else if off % 64 = 0x24 then devCoreKick a c v d
    else if off % 64 = 0x28 then (let d := d.setWord off 0; if n.testBit 0 then devCoreSignal a c d else d)
    else d
  else if 0x110000 ≤ off ∧ off < 0x119E00 ∧ off % 64 = 0 then
    (if n.testBit 0 then d.calRequest ((off - 0x110000) / 64) else d)
  else if 0x120000 ≤ off ∧ off < 0x12A000 ∧ off % 16 = 4 then
    (if n.testBit 31 ∧ ¬ old.toNat.testBit 31 then d.wr (WIN_STAT.STATE ((off - 0x120000) / 16)) 0 else d)
  else if 0x200000 ≤ off ∧ off < 0x201000 ∧ off % 256 = 0x38 then
    let e := (off - 0x200000) / 256
    d.wr ⟨0xC080 + 4 * (e / 2), 16 * (e % 2), 16⟩ ((d.regWord off).toNat % 2 ^ 16)
  else if 0x204000 ≤ off ∧ off < 0x205000 then
    let k := (off - 0x204000) / 512
    if off % 512 = 8 ∧ n.testBit 0 then devSeqCtlTrig a k d
    else if off % 512 = 0x14 then d.injRequest a.toNat k (n % 64)
    else d
  else if 0x205800 ≤ off ∧ off < 0x205A00 ∧ (off % 128 = 4 ∨ (0xC ≤ off % 128 ∧ off % 128 < 0x18)) then
    (let p := (off - 0x205800) / 128; if d.on (SG_STATUS.VOID p) then d.sageInit p else d)
  else d

/-- A register that its unit samples on leaving CONFIGURE: the CONFIGURE registers of ENTRYn, BRANCHn, RAILn and PHASEn
(02_power_entry.md R33, 03_branch_fuses.md R64, 04_rail_loom.md R85, 05_phase_management.md R123, R125). DEV_CFG is sampled by
`sampleArchive`. DEDUCED (log 45): the registers that are writable 'as under R33' and the like take only the write gate from those
rules, and act when they are written. -/
def stagedAt (off : Nat) : Bool :=
  (decide (0x100000 ≤ off ∧ off < 0x10C000) || decide (0x200000 ≤ off ∧ off < 0x201000) || decide (0x202000 ≤ off ∧ off < 0x203000)) &&
  (match rowOf off with | none => false | some r => r.gate != .any && r.rw != 0)

/-- The word of a register after a write: staged in CONFIGURE where the unit samples it on leaving, and for a two-wire block that is not
idle with its bus free (14_two_wire.md R376). -/
def Dev.keepWord (d : Dev) (off : Nat) (w : Word) : Dev :=
  if twStaged off then (d.stage off w).twApply ((off - 0xC000) / 256)
  else if d.md = Md.configure ∧ stagedAt off then d.stage off w else d.setWord off w

/-- The stored word of a register changes, and what the write sets off follows. -/
def Dev.putReg (d : Dev) (a : Agent) (off : Nat) (old v w : Word) : Dev :=
  match ringAt off with
  | some (n, 8) => if d.swOver off a.toNat then d else (d.swNote off a.toNat old).ringCfg a.toNat n old w
  | some (n, 0x1C) => if 0x2C0 ≤ n then devIrDb a (n - 0x2C0) v d else d
  | _ =>
    let d := (d.swNote off a.toNat old).keepWord off w
    if off < 0xD000 ∨ (0x10000 ≤ off ∧ off < 0x100000) then d.hubEffect a off old v else d.dieEffect a off old v

/-- The word of a table is written in each copy that holds it: on every loom die for the loom tables (R452). -/
def Dev.putTable (d : Dev) (a b o : Nat) (w : Word) : Dev × WrRes :=
  let banks := if b = 0x88 then [0x88, 0x8A, 0x8C, 0x8E] else [b]
  let r := banks.foldl (fun (x : Dev × Bool) k => let (d, ok) := x.1.writeBank k o a (leBytes w.toNat 4) 2; (d, x.2 && ok)) (d, true)
  (r.1, if r.2 then .done else .bad)

/-- The ownership entry that says who may write a timer's or a two-wire controller's registers is read. -/
def Dev.writerRead (d : Dev) (a off : Nat) : Dev :=
  if 0x1800 ≤ off ∧ off < 0x1C00 then d.readOwn (0x1000 + (off - 0x1800) / 32) a
  else if 0xC000 ≤ off ∧ off < 0xD000 then d.readOwn (0x4000 + (off - 0xC000) / 256) a
  else d

/-- A write of one whole register by an agent (R448-R452). A field refused under 01_architecture.md R25 keeps its value while the rest
of the write takes effect; it is recorded as an ignored write whose REASON the spec does not give, a free value (log 46). -/
def Dev.regWrite (d : Dev) (a : Agent) (off : Nat) (v : Word) : Dev × WrRes :=
  let n := a.toNat
  if off % 4 ≠ 0 ∨ ¬ (inSpan off ∨ (inWindow off ∧ viaBar n)) then (d.gapWrite n off, .ignored)
  else match rowFor off with
    | none =>
      if inWindow off then
        (if d.regOut n off true then (d, .link)
         else match d.writeBank (windowBank off).1 (windowBank off).2 n (leBytes v.toNat 4) 2 with
           | (d, true) => (d, .done)
           | (d, false) => (d, .bad))
      else (d, if d.regOut n off true ∧ ¬ viaBar n then .link else .done)
    | some r =>
      let d := d.writerRead n off
      let old := d.regWord off
      let w := (if d.swOver off n then { r with rw := 0 } else r).store old v (d.hwBits off)
      -- a register with no bit to write: a writer its rule forbids raises ACCESS_FAULT all the same (11_clocks_time.md R306)
      if d.regOut n off true then (d, if r.fixed ∧ viaBar n then .done else .link)
      else if r.fixed then (if d.notWriter n off then d.accessFault n 2 off else d, .done)
      else if d.gateReason r.gate n off ≠ 0 then (d.wign n off (d.gateReason r.gate n off), .ignored)
      else if d.notWriter n off then ((d.wign n off 7).accessFault n 2 off, .ignored)
      else if 0xC000 ≤ off ∧ off < 0xD000 ∧ off % 256 = 0x34 then (devTwXctlGo a ((off - 0xC000) / 256) v d, .done)
      else if d.badState off then (d.wign n off 3, .ignored)
      else if d.badValue off w then (d.wign n off 2, .ignored)
      else
        let (kept, res) := d.keptBits off old w
        let w := (w &&& ~~~kept) ||| (old &&& kept)
        let d := if kept = 0 then d else if res then (d.wign n off (d.freeVal % 16)).nextFree else d.wign n off 3
        match tablePlace off with
        | some (b, o) => (d.swNote off n old).putTable n b o w
        | none => (d.putReg a off old v w, if res then .refused else .done)

/-! ## The register commands -/

/-- A read of an RC field orders itself among the reads of its clock: the agent that is first by 00_scope.md R29 has the value, and one
that came before it in the queue has read the cleared field (R453; log 7). `w` is what the read found. -/
def Dev.rcOrder (d : Dev) (n off w : Nat) : Dev × Nat :=
  match rowOf off with
  | none => (d, w)
  | some r =>
    if r.rc = 0 then (d, w)
    else
      let l := if d.hw.clock = d.hwClock then d.hw.reads else []
      let hw : HwSt := if d.hw.clock = d.hwClock then d.hw else { clock := d.hwClock }
      match l.find? fun x => x.1 == off with
      | none => ({ d with hw := { hw with reads := (off, n, BitVec.ofNat 32 w &&& r.rc) :: l } }, w)
      | some (_, m, t) =>
        if m ≤ n then (d, w)
        else
          let was := nget d.host.rdata m
          let d := d.answer m (was &&& ((2 ^ 64 - 1) ^^^ t.toNat))
          ({ d with hw := { hw with reads := (off, n, t) :: l.filter fun x => x.1 != off } }, w ||| t.toNat)

/-- One 4-byte read of a bus access: all ones while its region is out (R451), a free value where the granule gives no data
(16_memory_protection.md R436). -/
def Dev.busWord (d : Dev) (n off : Nat) : Dev × Nat :=
  match d.regRead n off with
  | (d, .val w) => d.rcOrder n off w
  | (d, .link) => (d, 2 ^ 32 - 1)
  | (d, .bad) => (d.nextFree, d.freeVal % 2 ^ 32)

/-- The byte enables of the register `k` bytes into an access. -/
def enables (e : List Bool) (k : Nat) : List Bool := (List.range 4).map fun j => e.getD (k + j) true

/-- One register of a bus read; with no byte enabled it is not accessed. -/
def Dev.busRead (d : Dev) (n off : Nat) (e : List Bool) (k : Nat) : Dev × Nat :=
  if (enables e k).any id then d.busWord n (off + k) else (d, 0)

/-- The words of a read of hub shared memory, the lowest address first. -/
def Dev.windowRead (d : Dev) (n off : Nat) : Nat → Dev × Nat
  | 0 => (d, 0)
  | k + 1 =>
    match d.busWord n off with
    | (d, w) =>
      match d.windowRead n (off + 4) k with
      | (d, r) => (d, w + 2 ^ 32 * r)

/-- A read that the bus accepts: of one register, of two as two reads, the lower first (R449), or of hub shared memory (R457). -/
def readsWhole (off len : Nat) : Bool :=
  decide (len = 4 ∧ off % 4 = 0) || (!(inWindow off) && decide (len = 8 ∧ off % 8 = 0)) ||
  (inWindow off && decide (0 < len ∧ len ≤ 64 ∧ len % 4 = 0 ∧ off % 64 = 0))

/-- The memory banks behind a register offset or an offset of the shared memory window. -/
def banksAt (off : Nat) : List Nat :=
  if inWindow off then [(windowBank off).1]
  else match tablePlace off with
    | none => []
    | some (b, _) => if b = 0x88 then [0x88, 0x8A, 0x8C, 0x8E] else [b]

/-- An access meets a bank that is still being initialised: it stalls until the bank finishes (16_memory_protection.md R438). -/
def Dev.stalls (d : Dev) (off : Nat) : Bool :=
  (banksAt off).any fun b => d.mem.init.contains b || (b == 0x92 && !(d.on MEM_STATUS.SB_INIT_DONE))

/-- The access waits. -/
def Dev.stallOn (d : Dev) (c : Instr) : Dev := { d with mem := { d.mem with stall := d.mem.stall ++ [c] } }

/-- A read by an agent on the bus (R448-R453, R457); any other access is a gap. A core's own reads take an exception where the link is
out, and its read brings nothing. -/
def devRegisterReadClear (a : Agent) (p : ReadAt) (d : Dev) : Dev :=
  let n := a.toNat
  let off := p.off.toNat
  if ¬ d.clk.hub then d
  else if ¬ viaBar n ∧ inSpan off ∧ d.regOut n off false then d
  else if d.stalls off then d.stallOn (.registerReadClear a p)
  else if ¬ readsWhole off p.len then (d.accessFault n 1 off).answer n 0
  else if inWindow off ∧ viaBar n then
    match d.windowRead n off (p.len / 4) with
    | (d, w) => d.answer n w
  else if p.len = 4 then
    match d.busRead n off p.enable 0 with
    | (d, w) => d.answer n w
  else
    match d.busRead n off p.enable 0 with
    | (d, lo) =>
      match d.busRead n off p.enable 4 with
      | (d, hi) => d.answer n (lo + 2 ^ 32 * hi)
/-- REGISTER_READ_CLEAR -/
def execRegisterReadClear (a : Agent) (off : ReadAt) (s : State) : Host.Outcome State Fault Refusal :=
  .next { s with dev := devRegisterReadClear a off s.dev }

/-- A write whose byte enables do not cover its register is ignored with REASON SIZE (R449). One of a register that has no bit to write
is not recorded (R450), and a writer that its register's rule forbids raises ACCESS_FAULT too (11_clocks_time.md R306). In a gap it is
as any write there (R448). -/
def Dev.partWrite (d : Dev) (n off : Nat) : Dev :=
  if ¬ inSpan off then d.gapWrite n off
  else
    let ro := match rowFor off with | none => true | some r => r.fixed
    let d := d.writerRead n off
    let d' := if ro then d else d.wign n off 4
    if d.notWriter n off then d'.accessFault n 2 off else d'

/-- One register of a bus write: with no byte enabled it is not accessed; one to a region that is out is ignored (R451), where a core's
own write takes an exception. -/
def Dev.busWrite (d : Dev) (a : Agent) (off : Nat) (v : List Byte) (e : List Bool) (k : Nat) : Dev :=
  let en := enables e k
  if en.all id then
    match d.regWrite a (off + k) (BitVec.ofNat 32 (leNat v k 4)) with
    | (d, .link) => if viaBar a.toNat then d.wign a.toNat (off + k) 5 else d
    | (d, _) => d
  else if en.any id then d.partWrite a.toNat (off + k) else d

/-- A run of bytes written to hub shared memory. -/
def Dev.windowRun (d : Dev) (n off : Nat) (run : List Byte) : Dev :=
  (d.writeBank (windowBank off).1 (windowBank off).2 n run (run.length + 1)).1

/-- The enabled bytes of a write of hub shared memory, run by run: a granule that a run covers whole is a full-granule write, one it
covers in part a read-modify-write (R457; 16_memory_protection.md R437). -/
def Dev.windowWrite (d : Dev) (n off : Nat) (run : List Byte) : List (Byte × Bool) → Dev
  | [] => d.windowRun n off run
  | (b, true) :: l => d.windowWrite n off (run ++ [b]) l
  | (_, false) :: l => (d.windowRun n off run).windowWrite n (off + run.length + 1) [] l

/-- A write by an agent on the bus (R448-R453, R457); an access that is neither 4 nor 8 bytes, or not aligned, is a gap (R449). -/
def devRegisterWrite (a : Agent) (off : BitVec 24) (v : List Byte) (e : List Bool) (d : Dev) : Dev :=
  let n := a.toNat
  let o := off.toNat
  if ¬ d.clk.hub then d
  else if d.stalls o then d.stallOn (.registerWrite a off v e)
  else if inWindow o ∧ viaBar n then
    if d.regOut n o true then d.wign n o 5
    else d.windowWrite n o [] ((List.range v.length).map fun k => (v.getD k 0, e.getD k true))
  else if v.length = 4 ∧ o % 4 = 0 then d.busWrite a o v e 0
  else if v.length = 8 ∧ o % 8 = 0 then (d.busWrite a o v e 0).busWrite a o v e 4
  else (d.wign n o 4).accessFault n 2 o
/-- REGISTER_WRITE -/
def execRegisterWrite (a : Agent) (off : BitVec 24) (v : List Byte) (enable : List Bool) (s : State) : Host.Outcome State Fault Refusal :=
  .next { s with dev := devRegisterWrite a off v enable s.dev }

/-- A stalled access goes on. -/
def Dev.access (d : Dev) (c : Instr) : Dev :=
  match c with
  | .registerReadClear a p => devRegisterReadClear a p d
  | .registerWrite a off v e => devRegisterWrite a off v e d
  | _ => d

/-- The accesses that stalled go on, in their order. -/
def Dev.unstall (d : Dev) : Dev := Dev.forL { d with mem := { d.mem with stall := [] } } d.mem.stall fun d c => d.access c

/-- The banks that are initialising finish, those in `bad` with a read-back that failed; CONFIGURE entry goes on to calibration
(10_modes_startup.md R282). -/
def devInitDone (bad : List Nat) (d : Dev) : Dev :=
  let d := if d.md ≠ Md.off ∧ ¬ d.on MEM_STATUS.SB_INIT_DONE then
    ((d.bankInit bad 0x92).bankInit bad 0x93).wr MEM_STATUS.SB_INIT_DONE 1 else d
  if d.mem.init = [] then d.unstall
  else
    let d := d.forL d.mem.init fun d b => d.bankInit bad b
    let d := (((d.wr MEM_STATUS.INIT_DONE 1).wr MEM_STATUS.INIT_LEFT 0).evt MEM_EVT.EVT 3)
    let d := Dev.unstall { d with mem := { d.mem with init := [] } }
    if d.mode.pendingCfg then d.calAllGo else d

/-- INIT_DONE -/
def execInitDone (bad : List Nat) (s : State) : Host.Outcome State Fault Refusal := .next { s with dev := devInitDone bad s.dev }

/-- Every HB_PERIOD ticks: Thyme, MODE_STATUS and FLT_STATUS go to the status block (12_host_rings.md R313, R314). -/
def devHeartbeat (d : Dev) : Dev :=
  if d.clk.hub ∧ d.on HOST_CTL.SB_EN ∧ d.host.hb ≤ d.now then
    let d := ((d.sbWr 0 d.now 8).sbWr 8 (d.word 0x1000).toNat 4).sbWr 0xC d.fltStatus 4
    let t := d.now + max 8000 (d.rd HB_PERIOD.VAL)
    { d with host := { d.host with hb := t } }
  else d
/-- HEARTBEAT -/
def execHeartbeat (s : State) : Host.Outcome State Fault Refusal := .next { s with dev := devHeartbeat s.dev }

end Sys2Proof.Machine
end

