-- ==== Sys2Proof/Machine/Operands.lean ====
section
/-! DEFINITION. What a Mograthes instruction reads and writes: the core map, the slot file, the opcode word, the operand specifiers
and the addressing modes (15_mograthes_cores.md R400-R409, R415). An instruction that raises an exception makes no change: its
accesses run on a state that is thrown away, and only the memory fault of the failing access stays (R424, R425; log 42). -/

namespace Sys2Proof.Machine

/-! ## How an instruction stops short -/

namespace Cause
/-- Exception causes (R424). -/
def illegal : Nat := 1
/-- ADDRESS -/
def address : Nat := 2
/-- ACCESS -/
def access : Nat := 3
/-- MEMORY -/
def memory : Nat := 4
/-- STACK -/
def stack : Nat := 5
/-- LINK -/
def link : Nat := 6
/-- DOUBLE -/
def double : Nat := 7
end Cause

/-- The access that failed in a memory, to be made again on the state the exception leaves so that its memory fault is raised
(R425). -/
inductive Probe where
  | none
  | read (b o n access : Nat)
  | write (b o n : Nat)
  | regRead (off : Nat)
  | regWrite (off : Nat) (v : Word)
  deriving DecidableEq, Repr

/-- An instruction that does not come to its effect: an exception with its cause, its access type, the core-map address it records
and the space and address of its fault record (R424, R425); or a host window read that has no completion yet (R401, R422). -/
inductive Stop where
  | exc (cause access addr aspace rec : Nat) (p : Probe)
  | stall (addr : Nat)
  deriving DecidableEq, Repr

/-- A part of an instruction: it reads and changes the working state, or stops short. -/
abbrev Act := StateT Dev (Except Stop)

/-- Stop with an exception at a core-map address. -/
def stop {α : Type} (cause access addr : Nat) (p : Probe := .none) : Act α := fun _ => .error (.exc cause access addr 0 addr p)

/-- Read something of the working state. -/
def look {α : Type} (f : Dev → α) : Act α := fun d => .ok (f d, d)

/-- Change the working state. -/
def change (f : Dev → Dev) : Act Unit := fun d => .ok ((), f d)

/-- Core `c`'s master agent ID (R399). -/
def coreAgent (c : Nat) : Nat := 0x10 + c

/-! ## The core map (R400) -/

/-- What lies at a core-map address for core `c`. -/
inductive Area where
  | mem (b o : Nat)
  | reg (off : Nat)
  | host (off : Nat)
  deriving DecidableEq, Repr

/-- The row of the map an address lies in; `none` where the core has no such row. -/
def coreArea (c addr : Nat) : Option Area :=
  if 0x40000000 ≤ addr ∧ addr < 0x41000000 then some (.reg (addr - 0x40000000))
  else if 0x80000000 ≤ addr then (if 16 ≤ c ∧ c ≤ 19 then some (.host (addr - 0x80000000)) else none)
  else match coreBank c addr with
    | some (b, o) => some (.mem b o)
    | none => none

/-- Hub shared memory is out of core `c`'s reach: the hub is absent, or the link of its own die is out (R422, R424). -/
def Dev.hubFar (d : Dev) (c addr : Nat) : Bool :=
  decide (0x20000000 ≤ addr ∧ addr < 0x20400000) && (!(d.clk.hub) || d.linkOut (agentDie (coreAgent c)))

/-- The access type of a write of `n` bytes: RMW for one narrower than a granule of a memory (R250). -/
def writeKind (a : Area) (n : Nat) : Nat :=
  match a with
  | .mem _ _ => if n < 8 then 4 else 2
  | _ => 2

/-! ## The slot file (R415) -/

/-- The slot of the current frame that holds an address, and the byte in it: slots 0-15 of a frame in local data. -/
def Dev.slotAt (d : Dev) (c addr : Nat) : Option (Nat × Nat) :=
  let fb := (d.K c).fb.toNat
  if fb % 8 = 0 ∧ fb ≤ addr ∧ addr < fb + 128 ∧ 0x20000 ≤ addr ∧ addr < 0x40000 then some ((addr - fb) / 8, (addr - fb) % 8)
  else none

/-- What the slot file holds of a slot. -/
def Dev.slotHeld (d : Dev) (c k : Nat) : Option Nat := (d.K c).slots.getD k none

/-- Local data read into one entry of the slot file; an uncorrectable granule leaves it not held. -/
def Dev.slotFill (d : Dev) (c k : Nat) : Dev :=
  let a := (d.K c).fb.toNat + 8 * k
  if 0x20000 ≤ a ∧ a < 0x40000 then
    match d.readGran (2 * c + 1) ((a - 0x20000) / 8) (coreAgent c) 1 with
    | (d, v) => d.onK c fun x => { x with slots := x.slots.set k v }
  else d

/-- CALL, RET, RTE and a write of FB refill the slot file. -/
def Dev.refill (d : Dev) (c : Nat) : Dev :=
  let d := d.onK c fun x => { x with slots := List.replicate 16 none }
  if (d.K c).fb.toNat % 8 = 0 then d.forN 16 fun d k => d.slotFill c k else d

/-- A write to an address inside the frame's slots updates the slot file (R407). -/
def Dev.slotPut (d : Dev) (c addr n v : Nat) : Dev :=
  match d.slotAt c addr with
  | none => d
  | some (k, o) =>
    let new := match d.slotHeld c k with
      | some old => some (mergeBytes old o n v)
      | none => if n = 8 then some v else none
    d.onK c fun x => { x with slots := x.slots.set k new }

/-! ## Loads and stores of the core -/

/-- A read of a register by a core: 4 bytes, 8 bytes as two reads, the lower address first, or 2 bytes of one full read (17_register_map.md
R449). -/
def loadReg (c addr off n : Nat) : Act Nat := fun d =>
  match d.regRead (coreAgent c) (off / 4 * 4) with
  | (_, .link) => .error (.exc Cause.link 1 addr 0 addr .none)
  | (_, .bad) => .error (.exc Cause.memory 1 addr 0 addr (.regRead (off / 4 * 4)))
  | (d, .val lo) =>
    if n < 4 then .ok (lo / 256 ^ (off % 4) % 256 ^ n, d)
    else if n = 4 then .ok (lo, d)
    else match d.regRead (coreAgent c) (off + 4) with
      | (_, .link) => .error (.exc Cause.link 1 addr 0 addr .none)
      | (_, .bad) => .error (.exc Cause.memory 1 addr 0 addr (.regRead (off + 4)))
      | (d, .val hi) => .ok (lo + 2 ^ 32 * hi, d)

/-- A read of `n` bytes of a memory by a core; slots of the current frame come from the slot file (R415). -/
def loadMem (c addr b o n : Nat) : Act Nat := fun d =>
  let held := match d.slotAt c addr with
    | some (k, p) => (d.slotHeld c k).map fun v => v / 256 ^ p % 256 ^ n
    | none => none
  match held with
  | some v => .ok (v, d)
  | none =>
    match d.readBank b o (coreAgent c) 1 n with
    | (d, some v) => .ok (v, d)
    | (_, none) => .error (.exc Cause.memory 1 addr 0 addr (.read b o n 1))

/-- A read of the host window: the value that has come for this instruction, or a stall (R401). -/
def loadHost (c addr n : Nat) : Act Nat := fun d =>
  match (d.K c).hostBuf.find? (fun x => x.1 == addr) with
  | some (_, v) => .ok (v % 256 ^ n, d)
  | none => .error (.stall addr)

/-- A read of `n` bytes by core `c` (R400, R403). -/
def load (c addr n : Nat) : Act Nat := do
  if addr % n ≠ 0 then stop Cause.address 1 addr
  else match coreArea c addr with
    | none => stop Cause.access 1 addr
    | some (.reg off) => loadReg c addr off n
    | some (.host _) => loadHost c addr n
    | some (.mem b o) =>
      if ← look (fun d => d.hubFar c addr) then stop Cause.link 1 addr
      else loadMem c addr b o n

/-- The checks of a write of `n` bytes by core `c`, before it is made: alignment, the map, local code, the link, and the granule a
narrow write must merge into (R400, R403, R424). -/
def storeCheck (c addr n : Nat) : Act Unit := do
  match coreArea c addr with
  | none => if addr % n ≠ 0 then stop Cause.address 2 addr else stop Cause.access 2 addr
  | some a =>
    let t := writeKind a n
    if addr % n ≠ 0 then stop Cause.address t addr
    else if addr < 0x20000 then stop Cause.access t addr
    else match a with
      | .host _ => pure ()
      | .reg off =>
        if ← look (fun d => decide (blockOf off ≠ none) && d.regOut (coreAgent c) off true) then stop Cause.link t addr else pure ()
      | .mem b o =>
        if ← look (fun d => d.hubFar c addr) then stop Cause.link t addr
        else if ← look (fun d => (d.writeBank b o (coreAgent c) (leBytes 0 n) 2).2) then pure ()
        else stop Cause.memory t addr (.write b o n)

/-- A write of a register by a core: 4 bytes, or 8 bytes as two writes; a narrower one is ignored (17_register_map.md R449). -/
def storeReg (c addr off n v : Nat) : Act Unit := fun d =>
  let a : Agent := BitVec.ofNat 8 (coreAgent c)
  if n < 4 then .ok ((), d.partWrite (coreAgent c) (off / 4 * 4))
  else match d.regWrite a off (BitVec.ofNat 32 v) with
    | (_, .link) => .error (.exc Cause.link 2 addr 0 addr .none)
    | (_, .bad) => .error (.exc Cause.memory 2 addr 0 addr (.regWrite off (BitVec.ofNat 32 v)))
    | (d, _) =>
      if n = 4 then .ok ((), d)
      else match d.regWrite a (off + 4) (BitVec.ofNat 32 (v / 2 ^ 32)) with
        | (_, .link) => .error (.exc Cause.link 2 addr 0 addr .none)
        | (_, .bad) => .error (.exc Cause.memory 2 addr 0 addr (.regWrite (off + 4) (BitVec.ofNat 32 (v / 2 ^ 32))))
        | (d, _) => .ok ((), d)

/-- The host address of a host window offset (R401). -/
def Dev.hostAddr (d : Dev) (c off : Nat) : Nat := d.rd (CORE_HWIN.HBASE c) * 2 ^ 31 + off

/-- A write of `n` bytes by core `c`, its checks passed (R400-R402). -/
def store (c addr n v : Nat) : Act Unit :=
  match coreArea c addr with
  | none => pure ()
  | some (.reg off) => storeReg c addr off n v
  | some (.host off) => change fun d => d.hWr (d.hostAddr c off) (leBytes v n)
  | some (.mem b o) => change fun d => ((d.writeBank b o (coreAgent c) (leBytes v n) 2).1).slotPut c addr n v

/-! ## The opcode word and the specifiers (R406, R407) -/

/-- An operand specifier: its slot or small field, its mode and its extension as a little-endian number. -/
structure Spec where
  f : Nat
  mode : Nat
  ext : Nat
  deriving DecidableEq, Repr

/-- An instruction as fetched: its opcode word, its specifiers and the address of the next instruction. -/
structure Insn where
  word : Nat
  specs : List Spec
  next : Nat
  deriving DecidableEq, Repr

/-- OP -/
def Insn.op (i : Insn) : Nat := bits i.word 15 9
/-- TYPE -/
def Insn.ty (i : Insn) : Nat := bits i.word 8 7
/-- RND -/
def Insn.rnd (i : Insn) : Nat := bits i.word 6 5
/-- S -/
def Insn.s (i : Insn) : Bool := bit i.word 4
/-- CNT -/
def Insn.cnt (i : Insn) : Nat := bits i.word 3 2
/-- COND -/
def Insn.cond (i : Insn) : Nat := bits i.word 1 0

/-- The extension bytes of a mode (R407). -/
def modeExt (mode : Nat) : Nat :=
  match mode with
  | 0x1 => 1 | 0x3 => 4 | 0x5 => 2 | 0x6 => 4 | 0x7 => 2 | 0x9 => 2 | 0xC => 1 | 0xD => 1
  | _ => 0

/-- The bytes of a type: H 2, W 4, L 8 (R403). -/
def tyBytes (ty : Nat) : Nat := if ty = 0 then 2 else if ty = 1 then 4 else 8

/-- The bits of a type: Q15 and I16 16, Q31 and I32 32, L40 40 (R410). -/
def tyBits (ty : Nat) : Nat := if ty = 0 then 16 else if ty = 1 then 32 else 40

/-- What an instruction does with an operand: reads it, writes it, both, branches to its address, or reads it as a condition code. -/
inductive Role where
  | src
  | dst
  | rw
  | tgt
  | cc
  deriving DecidableEq, Repr

/-- A specifier that breaks R407 or R414, for an operand of a role and type. -/
def Spec.broken (p : Spec) (r : Role) (ty : Nat) : Bool :=
  let target := r == .dst || r == .rw
  (p.mode == 0xF) ||
  ((p.mode == 3 || p.mode == 5 || p.mode == 6 || p.mode == 7) && p.f != 0) ||
  ((p.mode == 0xC || p.mode == 0xE) && decide (14 < p.f)) ||
  (p.mode == 2 && (decide (4 < p.f) || (decide (p.f < 4) && ty != 1) || (p.f == 4 && ty != 2) || (p.f == 0 && target))) ||
  (p.mode == 0xD && decide (p.ext / 16 ≠ 0)) ||
  (target && decide (4 ≤ p.mode ∧ p.mode ≤ 7)) ||
  (r == .cc && !(p.mode == 4 && decide (p.f < 14)))

/-- The operands that an operation takes with a TYPE and a CNT, each with its role and type; `none` where the operation is not listed
or does not permit them (R413). -/
def shape (op ty cnt : Nat) : Option (List (Role × Nat)) :=
  let narrow := decide (ty ≤ 1)
  if 2 < ty then none
  else match op, cnt with
    | 0x00, 0 => some []
    | 0x01, 2 => some [(.dst, ty), (.src, ty)]
    | 0x02, 2 => if narrow then some [(.dst, ty + 1), (.src, ty)] else none
    | 0x03, 2 | 0x04, 2 => if ty = 0 then some [(.dst, 1), (.src, 0)] else none
    | 0x08, 2 | 0x09, 2 | 0x24, 2 | 0x25, 2 | 0x26, 2 => some [(.rw, ty), (.src, ty)]
    | 0x08, 3 | 0x09, 3 | 0x24, 3 | 0x25, 3 | 0x26, 3 => some [(.dst, ty), (.src, ty), (.src, ty)]
    | 0x10, 2 | 0x11, 2 => if narrow then some [(.rw, ty), (.src, ty)] else none
    | 0x10, 3 | 0x11, 3 | 0x3C, 3 => if narrow then some [(.dst, ty), (.src, ty), (.src, ty)] else none
    | 0x12, 3 | 0x13, 3 => if narrow then some [(.rw, 2), (.src, ty), (.src, ty)] else none
    | 0x14, 2 => if narrow then some [(.dst, ty), (.src, 2)] else none
    | 0x15, 2 | 0x16, 2 | 0x27, 2 => some [(.dst, ty), (.src, ty)]
    | 0x16, 1 | 0x27, 1 => some [(.rw, ty)]
    | 0x18, 3 | 0x19, 3 | 0x1A, 3 | 0x1C, 3 | 0x1D, 3 => some [(.dst, ty), (.src, ty), (.src, ty)]
    | 0x1E, 3 => some [(.rw, ty), (.src, ty), (.src, ty)]
    | 0x20, 2 | 0x21, 2 | 0x2A, 2 => some [(.src, ty), (.src, ty)]
    | 0x28, 2 | 0x29, 2 => some [(.rw, ty), (.src, ty)]
    | 0x30, 1 => if ty = 1 then some [(.tgt, 1)] else none
    | 0x31, 2 => if ty = 1 then some [(.cc, 1), (.tgt, 1)] else none
    | 0x32, 2 => if ty = 1 then some [(.tgt, 1), (.src, 1)] else none
    | 0x34, 2 => if ty = 1 then some [(.src, 1), (.tgt, 1)] else none
    | 0x33, 0 | 0x35, 0 | 0x39, 0 => if ty = 1 then some [] else none
    | 0x38, 3 => if ty = 1 then some [(.dst, 1), (.src, 1), (.src, 1)] else none
    | 0x3A, 2 => some [(.rw, ty), (.rw, ty)]
    | 0x3B, 3 => if narrow then some [(.dst, ty), (.rw, ty), (.src, ty)] else none
    | _, _ => none

/-! ## Fetch -/

/-- A fetch of `n` bytes of local code (R400, R424). -/
def fetchBytes (c pc a n : Nat) : Act Nat := fun d =>
  if 0x20000 < a + n then .error (.exc Cause.access 3 pc 0 pc .none)
  else match d.readBank (2 * c) a (coreAgent c) 3 n with
    | (d, some v) => .ok (v, d)
    | (_, none) => .error (.exc Cause.memory 3 pc 0 pc (.read (2 * c) a n 3))

/-- The specifiers of an instruction, from an address on (R407). -/
def fetchSpecs (c pc : Nat) : Nat → Nat → Act (List Spec × Nat)
  | 0, a => pure ([], a)
  | n + 1, a => do
    let b ← fetchBytes c pc a 1
    let k := modeExt (b % 16)
    let e ← fetchBytes c pc (a + 1) k
    let (r, z) ← fetchSpecs c pc n (a + 1 + k)
    pure ({ f := b / 16, mode := b % 16, ext := e } :: r, z)

/-- The instruction at the PC: the opcode word and its specifiers, checked (R406, R407, R414, R424). -/
def fetchInsn (c pc : Nat) : Act Insn := do
  let w ← fetchBytes c pc pc 2
  match shape (bits w 15 9) (bits w 8 7) (bits w 3 2) with
  | none => stop Cause.illegal 3 pc
  | some roles =>
    let (ps, z) ← fetchSpecs c pc (bits w 3 2) (pc + 2)
    if (ps.zip roles).any (fun x => x.1.broken x.2.1 x.2.2) then stop Cause.illegal 3 pc
    else pure { word := w, specs := ps, next := z % 2 ^ 17 }

/-! ## Effective addresses (R407, R408) -/

/-- Where an operand lies: an immediate value, an address, or a special register. -/
inductive Place where
  | imm (v : Int)
  | at (l : Loc)
  deriving DecidableEq, Repr

/-- The address of frame slot `k`. -/
def Dev.slotAddr (d : Dev) (c k : Nat) : Nat := ((d.K c).fb.toNat + 8 * k) % 2 ^ 32

/-- The low `n` bytes of a frame slot. -/
def slotVal (c k n : Nat) : Act Nat := do load c (← look (fun d => d.slotAddr c k)) n

/-- A pointer takes a new value: bits 31:0 of its slot. -/
def ptrPut (c k p : Nat) : Act Unit := do
  let a ← look (fun d => d.slotAddr c k)
  storeCheck c a 4
  store c a 4 (p % 2 ^ 32)

/-- The signed number added to an address, modulo 2^32. -/
def addrAdd (a : Nat) (i : Int) : Nat := trunc 32 ((a : Int) + i)

/-- The number read with its low `m` bits reversed. -/
def bitRev (m v : Nat) : Nat := (List.range m).foldl (fun r i => if v.testBit i then r + 2 ^ (m - 1 - i) else r) 0

/-- The pointer after a circular access: one step, wrapped once at either end (R408). -/
def circNext (base len p : Nat) (step : Int) : Int :=
  let q : Int := (p : Int) + step
  if (base + len : Int) ≤ q then q - len else if q < base then q + len else q

/-- The pointer after a bit-reversed access over 2^m elements of `n` bytes (R408). -/
def revNext (base n m p : Nat) : Nat := base + bitRev m ((bitRev m ((p - base) / n) + 1) % 2 ^ m) * n

/-- The m of a bit-reversed buffer of `len` bytes: `len` is 2^m elements of `n` bytes, m from 1 to 16. -/
def revBits (len n : Nat) : Option Nat := ((List.range 16).map (· + 1)).find? fun m => len == n * 2 ^ m

/-- A circular access (R408): the pointer, checked and moved on. -/
def circular (c f n : Nat) (step : Int) (access : Nat) : Act Nat := do
  let p ← slotVal c f 4
  let bl ← slotVal c (f + 1) 8
  let base := bl % 2 ^ 32
  let len := bl / 2 ^ 32 % 2 ^ 16
  if len = 0 ∨ len % n ≠ 0 ∨ p < base ∨ base + len ≤ p then stop Cause.address access p
  else do
    ptrPut c f (trunc 32 (circNext base len p (step * n)))
    pure p

/-- A bit-reversed access (R408); the offset of a pointer outside its buffer has no reversed successor, and what that pointer becomes is
left open (log 42). -/
def reversed (c f n : Nat) (access : Nat) : Act Nat := do
  let p ← slotVal c f 4
  let bl ← slotVal c (f + 1) 8
  let base := bl % 2 ^ 32
  let len := bl / 2 ^ 32 % 2 ^ 16
  match revBits len n with
  | none => stop Cause.illegal access p
  | some m =>
    if base ≤ p ∧ p < base + len then do
      ptrPut c f (revNext base n m p)
      pure p
    else do
      let v ← look (fun d => d.freeVal)
      change fun d => d.nextFree
      ptrPut c f v
      pure p

/-- The place of an operand of `n` bytes and its pointer's update (R407, R408). -/
def place (c next : Nat) (p : Spec) (n access : Nat) : Act Place :=
  match p.mode with
  | 0x0 => do pure (.at (.mem (← look (fun d => d.slotAddr c p.f))))
  | 0x1 => do pure (.at (.mem (← look (fun d => d.slotAddr c (p.f * 256 + p.ext)))))
  | 0x2 => pure (.at (.spec p.f))
  | 0x3 => pure (.at (.mem p.ext))
  | 0x4 => pure (.imm (sext 4 p.f))
  | 0x5 => pure (.imm (sext 16 p.ext))
  | 0x6 => pure (.imm (sext 32 p.ext))
  | 0x7 => pure (.at (.mem (addrAdd next (sext 16 p.ext))))
  | 0x8 => do pure (.at (.mem (← slotVal c p.f 4)))
  | 0x9 => do pure (.at (.mem (addrAdd (← slotVal c p.f 4) (sext 16 p.ext))))
  | 0xA => do
    let q ← slotVal c p.f 4
    ptrPut c p.f (q + n)
    pure (.at (.mem q))
  | 0xB => do
    let q := addrAdd (← slotVal c p.f 4) (-(n : Int))
    ptrPut c p.f q
    pure (.at (.mem q))
  | 0xC => do pure (.at (.mem (← circular c p.f n (sext 8 p.ext) access)))
  | 0xD => do
    let q ← slotVal c p.f 4
    let j ← slotVal c (p.ext % 16) 4
    pure (.at (.mem (addrAdd q (sext 32 j * n))))
  | _ => do pure (.at (.mem (← reversed c p.f n access)))

/-! ## Special registers (R404, R405) -/

/-- The bits FLAGS stores: Z N C V SAT EXC as written, PCLASS with 0b00 stored as control. -/
def flagsStored (v : Nat) : Word :=
  BitVec.ofNat 32 (v % 64 + (if bits v 9 8 = 0 then 1 else bits v 9 8) * 256)

/-- The bits LOOP holds (R417). -/
def loopStored (v : Nat) : BitVec 64 :=
  BitVec.ofNat 64 (bits v 63 40 * 2 ^ 40 + bits v 36 20 * 2 ^ 20 + bits v 16 0)

/-- A special register's value. -/
def Dev.special (d : Dev) (c k : Nat) : Nat :=
  let x := d.K c
  match k with
  | 0 => x.pc
  | 1 => x.fb.toNat
  | 2 => x.sp.toNat
  | 3 => x.flags.toNat
  | _ => x.loop.toNat

/-- A write of a special register; PC is none of them (R407). -/
def Dev.putSpecial (d : Dev) (c k v : Nat) : Dev :=
  match k with
  | 0 => d
  | 1 => (d.onK c fun x => { x with fb := BitVec.ofNat 32 v }).refill c
  | 2 => d.onK c fun x => { x with sp := BitVec.ofNat 32 v }
  | 3 => d.onK c fun x => { x with flags := flagsStored v }
  | _ => d.onK c fun x => { x with loop := loopStored v }

/-! ## Operands -/

/-- The value at a place, as the bytes of its type hold it. -/
def readPlace (c ty : Nat) : Place → Act Nat
  | .imm v => pure (trunc (8 * tyBytes ty) v)
  | .at (.mem a) => load c a (tyBytes ty)
  | .at (.spec k) => look fun d => d.special c k

/-- The checks of a write to a place. -/
def checkPlace (c ty : Nat) : Place → Act Unit
  | .imm _ => pure ()
  | .at (.mem a) => storeCheck c a (tyBytes ty)
  | .at (.spec _) => pure ()

/-- A write of a place, its checks passed. -/
def putPlace (c ty v : Nat) : Place → Act Unit
  | .imm _ => pure ()
  | .at (.mem a) => store c a (tyBytes ty) v
  | .at (.spec k) => change fun d => d.putSpecial c k v

/-- A source operand: its pattern in the bits of its type (R410). -/
def source (c : Nat) (i : Insn) (ty : Nat) (p : Spec) : Act Nat := do
  let l ← place c i.next p (tyBytes ty) 1
  let v ← readPlace c ty l
  pure (v % 2 ^ tyBits ty)

/-- A destination operand: its place, checked. -/
def target (c : Nat) (i : Insn) (ty : Nat) (p : Spec) : Act Place := do
  let l ← place c i.next p (tyBytes ty) (if tyBytes ty < 8 then 4 else 2)
  checkPlace c ty l
  pure l

/-- An operand that is read and written: its place, checked, and its pattern. -/
def updated (c : Nat) (i : Insn) (ty : Nat) (p : Spec) : Act (Place × Nat) := do
  let l ← place c i.next p (tyBytes ty) 1
  let v ← readPlace c ty l
  checkPlace c ty l
  pure (l, v % 2 ^ tyBits ty)

/-- The bytes that a signed result is stored as: an L40 is sign-extended into bits 63:40 (R410). -/
def stored (ty : Nat) (v : Int) : Nat := trunc (8 * tyBytes ty) (sext (tyBits ty) (trunc (tyBits ty) v))

/-- A result is written to its place. -/
def result (c ty : Nat) (l : Place) (v : Int) : Act Unit := putPlace c ty (stored ty v) l

/-- The address that a branch target supplies: an immediate its value, a special register its contents, any other mode its effective
address (R409). -/
def branchTo (c : Nat) (i : Insn) (p : Spec) : Act Nat := do
  match ← place c i.next p 4 1 with
  | .imm v => pure (trunc 32 v)
  | .at (.mem a) => pure a
  | .at (.spec k) => look fun d => d.special c k

end Sys2Proof.Machine
end

