-- ==== Sys2Proof/Machine/Flags.lean ====
section
/-! DEFINITION. The results and flags of the Mograthes operations (15_mograthes_cores.md R405, R410-R414). -/

namespace Sys2Proof.Machine

/-- A quotient that discards low-order bits, under RND (R411): floor, nearest with ties away from zero, nearest with ties to even,
toward zero. -/
def roundQuot (rnd : Nat) (a : Int) (b : Nat) : Int :=
  match rnd with
  | 0 => a / b
  | 1 => if 0 ≤ a then (2 * a + b) / (2 * b) else -((-(2 * a) + b) / (2 * b))
  | 2 => divEven a b
  | _ => divZero a b

/-- The result of an operation and the flags it writes: `none` leaves a flag as it is, and SAT is set or left (R405, R412). -/
structure Alu where
  val : Int
  z : Option Bool := none
  n : Option Bool := none
  cy : Option Bool := none
  v : Option Bool := none
  sat : Bool := false
  deriving DecidableEq, Repr

/-- A result whose Z and N follow its pattern in the type. -/
def Alu.zn (ty : Nat) (val : Int) : Alu :=
  let x := sext (tyBits ty) (trunc (tyBits ty) val)
  { val := x, z := some (x == 0), n := some (decide (x < 0)) }

/-- The least number a type holds. -/
def tyMin (ty : Nat) : Int := -((2 ^ (tyBits ty - 1) : Nat) : Int)

/-- The greatest number a type holds. -/
def tyMax (ty : Nat) : Int := ((2 ^ (tyBits ty - 1) : Nat) : Int) - 1

/-- A number fits a type. -/
def fitsTy (ty : Nat) (x : Int) : Bool := decide (tyMin ty ≤ x ∧ x ≤ tyMax ty)

/-- An exact result narrowed to its type: V where it does not fit; with S it is clipped and SAT is set, without S its low bits stay
(R412). -/
def Alu.narrow (ty : Nat) (s : Bool) (x : Int) : Alu :=
  if fitsTy ty x then { Alu.zn ty x with v := some false }
  else if s then { Alu.zn ty (clip (tyMin ty) (tyMax ty) x) with v := some true, sat := true }
  else { Alu.zn ty x with v := some true }

/-- A number clipped whatever S holds (SAT, LIM): SAT is set where clipping changes it (R405, R412). -/
def Alu.clipped (ty : Nat) (lo hi x : Int) : Alu :=
  let y := if hi < lo then hi else clip lo hi x
  { Alu.zn ty y with sat := y != x }

/-- FLAGS after an operation. -/
def Alu.flags (r : Alu) (old : Word) : Word :=
  let put := fun (w : Nat) (b : Nat) (v : Option Bool) =>
    match v with
    | none => w
    | some true => setBit w b
    | some false => clrBit w b
  BitVec.ofNat 32 (put (put (put (put (put old.toNat 0 r.z) 1 r.n) 2 r.cy) 3 r.v) 4 (if r.sat then some true else none))

/-- The signed value of a pattern of a type. -/
def sv (ty v : Nat) : Int := sext (tyBits ty) v

/-- ADD: C is the carry out. -/
def aluAdd (ty : Nat) (s : Bool) (a b : Nat) : Alu :=
  { Alu.narrow ty s (sv ty a + sv ty b) with cy := some (decide (2 ^ tyBits ty ≤ a + b)) }

/-- SUB: C is the borrow. -/
def aluSub (ty : Nat) (s : Bool) (a b : Nat) : Alu :=
  { Alu.narrow ty s (sv ty a - sv ty b) with cy := some (decide (a < b)) }

/-- MUL: the fraction product, rounded to the type. -/
def aluMul (ty rnd : Nat) (s : Bool) (a b : Nat) : Alu :=
  Alu.narrow ty s (roundQuot rnd (sv ty a * sv ty b) (2 ^ (tyBits ty - 1)))

/-- IMUL: the integer product. -/
def aluImul (ty : Nat) (s : Bool) (a b : Nat) : Alu := Alu.narrow ty s (sv ty a * sv ty b)

/-- The product of two fractions in Q31: exact for H, rounded for W (R413). -/
def q31Product (ty rnd a b : Nat) : Int :=
  if ty = 0 then 2 * (sv 0 a * sv 0 b) else roundQuot rnd (sv ty a * sv ty b) (2 ^ 31)

/-- MAC into an L40. -/
def aluMac (ty rnd : Nat) (s : Bool) (d a b : Nat) : Alu := Alu.narrow 2 s (sv 2 d + q31Product ty rnd a b)

/-- MSU into an L40. -/
def aluMsu (ty rnd : Nat) (s : Bool) (d a b : Nat) : Alu := Alu.narrow 2 s (sv 2 d - q31Product ty rnd a b)

/-- SAT of an L40: to Q31, or to Q15 with bits 15:0 discarded under RND. -/
def aluSat (ty rnd a : Nat) : Alu :=
  Alu.clipped ty (tyMin ty) (tyMax ty) (if ty = 0 then roundQuot rnd (sv 2 a) (2 ^ 16) else sv 2 a)

/-- ABS -/
def aluAbs (ty : Nat) (s : Bool) (a : Nat) : Alu := Alu.narrow ty s (if sv ty a < 0 then -(sv ty a) else sv ty a)

/-- NEG -/
def aluNeg (ty : Nat) (s : Bool) (a : Nat) : Alu := Alu.narrow ty s (-(sv ty a))

/-- ASL; a count at or above the width shifts every bit out. -/
def aluAsl (ty : Nat) (s : Bool) (a b : Nat) : Alu :=
  Alu.narrow ty s (sv ty a * ((2 ^ Nat.min b (tyBits ty) : Nat) : Int))

/-- ASR under RND; one place past the width every bit discarded is below one half. -/
def aluAsr (ty rnd : Nat) (a b : Nat) : Alu := Alu.zn ty (roundQuot rnd (sv ty a) (2 ^ Nat.min b (tyBits ty + 1)))

/-- LSR -/
def aluLsr (ty : Nat) (a b : Nat) : Alu := Alu.zn ty ((a / 2 ^ Nat.min b (tyBits ty) : Nat) : Int)

/-- MIN, signed. -/
def aluMin (ty a b : Nat) : Alu := Alu.zn ty (if sv ty a ≤ sv ty b then sv ty a else sv ty b)

/-- MAX, signed. -/
def aluMax (ty a b : Nat) : Alu := Alu.zn ty (if sv ty a ≤ sv ty b then sv ty b else sv ty a)

/-- LIM: min(max(d, a), b). -/
def aluLim (ty d a b : Nat) : Alu := Alu.clipped ty (sv ty a) (sv ty b) (sv ty d)

/-- CMP: Z equal, N less signed, C less unsigned, V cleared. -/
def aluCmp (ty a b : Nat) : Alu :=
  { val := 0, z := some (a == b), n := some (decide (sv ty a < sv ty b)), cy := some (decide (a < b)), v := some false }

/-- A bitwise result. -/
def aluBits (ty v : Nat) : Alu := Alu.zn ty (v : Int)

/-- DIVS: the fraction quotient, rounded; by zero, the largest magnitude with the sign of a, V and SAT (R413). -/
def aluDivs (ty rnd : Nat) (s : Bool) (a b : Nat) : Alu :=
  let x := sv ty a
  let y := sv ty b
  if y = 0 then { Alu.zn ty (if x < 0 then tyMin ty else tyMax ty) with v := some true, sat := true }
  else
    let num := x * ((2 ^ (tyBits ty - 1) : Nat) : Int)
    Alu.narrow ty s (roundQuot rnd (if y < 0 then -num else num) y.natAbs)

/-- COND of the opcode word holds (R406). -/
def condHolds (cond : Nat) (flags : Word) : Bool :=
  match cond with
  | 0 => true
  | 1 => bit flags.toNat 0
  | 2 => !(bit flags.toNat 0)
  | _ => bit flags.toNat 1

/-- A condition code of BC holds (R414). -/
def codeHolds (code : Nat) (flags : Word) : Bool :=
  let z := bit flags.toNat 0
  let n := bit flags.toNat 1
  let cy := bit flags.toNat 2
  let v := bit flags.toNat 3
  match code with
  | 0x0 => true
  | 0x1 => z
  | 0x2 => !z
  | 0x3 => n
  | 0x4 => !n
  | 0x5 => cy
  | 0x6 => !cy
  | 0x7 => v
  | 0x8 => !v
  | 0x9 => n || z
  | 0xA => !n && !z
  | 0xB => cy || z
  | 0xC => !cy && !z
  | _ => bit flags.toNat 4

end Sys2Proof.Machine
end

