-- ==== Sys2Proof/Machine/Insn.lean ====
section
/-! DEFINITION. How a Mograthes core runs one instruction: exceptions, loops, waits, and the shapes the instructions share
(15_mograthes_cores.md R404-R426). -/

namespace Sys2Proof.Machine

/-! ## Exceptions (R424, R425) -/

/-- The memory fault of the access that failed is raised (R425, last paragraph but one). -/
def Dev.probe (d : Dev) (c : Nat) : Probe → Dev
  | .none => d
  | .read b o n access =>
    match d.readBank b o (coreAgent c) access n with
    | (w, none) => w
    | (_, some _) => d
  | .write b o n =>
    match d.writeBank b o (coreAgent c) (leBytes 0 n) 2 with
    | (w, false) => w
    | (_, true) => d
  | .regRead off =>
    match d.regRead (coreAgent c) off with
    | (w, .bad) => w
    | _ => d
  | .regWrite off v =>
    match d.regWrite (BitVec.ofNat 8 (coreAgent c)) off v with
    | (w, .bad) => w
    | _ => d

/-- The registers of an exception (R425, step 1). -/
def Dev.excRecord (d : Dev) (c cause access addr : Nat) : Dev :=
  let d := (d.wr (CORE_EXC_PC.EPC c) (d.K c).pc).bump (CORE_EXC_INFO.COUNT c)
  let d := d.wr (CORE_EXC_INFO.CAUSE c) cause
  let d := d.wr (CORE_EXC_INFO.ACCESS c) access
  d.wr (CORE_EXC_ADDR.ADDR c) addr

/-- An exception is taken: into the handler, or, with a handler running or none set, as DOUBLE into a lockup (R424, R425). -/
def Dev.exception (d : Dev) (c cause access addr aspace rec : Nat) : Dev :=
  let d := d.onK c fun x => { x with hostRd := none, hostBuf := [] }
  if bit (d.K c).flags.toNat 5 = true ∨ d.rd (CORE_EXC_VEC.VEC c) = 0 then
    ((d.excRecord c Cause.double access addr).raiseAt 0x68 c (coreAgent c) access aspace rec).fenceCore c
  else
    let d := (d.excRecord c cause access addr).evt (CORE_EVT.EVT c) 0
    let vec := d.rd (CORE_EXC_VEC.VEC c)
    (d.onK c fun x => { x with flags := x.flags ||| 0x20, pc := vec }).raiseAt 0x69 c (coreAgent c) access aspace rec

/-- An instruction stops short: its exception is taken, or the core waits for its host window read (R401, R422, R424). -/
def Dev.stopped (d : Dev) (c : Nat) : Stop → Dev
  | .exc cause access addr aspace rec p => (d.probe c p).exception c cause access addr aspace rec
  | .stall addr => (d.coreGo c Ks.waiting).onK c fun x => { x with hostRd := some (d.now, addr) }

/-! ## Running one instruction -/

/-- Where the core goes after an instruction: to the next address, to another, or nowhere yet (a WAIT). -/
inductive Next where
  | fall
  | jump (a : Nat)
  | hold
  deriving DecidableEq, Repr

/-- The PC after an instruction whose next address is `next`, and LOOP (R417). -/
def loopNext (next : Nat) (l : BitVec 64) : Nat × BitVec 64 :=
  let n := bits l.toNat 63 40
  let a := next % 2 ^ 17
  if a = bits l.toNat 16 0 ∧ 1 ≤ n then
    (if n = 1 then a else bits l.toNat 36 20, l - BitVec.ofNat 64 (2 ^ 40))
  else (a, l)

/-- The core moves on to the next address. -/
def Dev.fallTo (d : Dev) (c next : Nat) : Dev :=
  d.onK c fun x => { x with pc := (loopNext next x.loop).1, loop := (loopNext next x.loop).2, hostBuf := [] }

/-- The end of an instruction; a core that its own instruction stopped does not move on. -/
def Dev.retire (d : Dev) (c next : Nat) (n : Next) : Dev :=
  if d.ks c ≠ Ks.running then d
  else match n with
    | .fall => d.fallTo c next
    | .jump a => d.onK c fun x => { x with pc := a % 2 ^ 17, hostBuf := [] }
    | .hold => d

/-- What an instruction of a row comes to on the working state. -/
def Dev.insnBody (d : Dev) (c : Nat) (i : Insn) (body : Insn → Act Next) : Dev :=
  if condHolds i.cond (d.K c).flags then
    match body i d with
    | .ok (n, w) => w.retire c i.next n
    | .error st => d.stopped c st
  else d.fallTo c i.next

/-- Core `c` executes the instruction at its PC, if it is one of the operation `op`: a core that does not run, or whose PC stands on another
operation, is left as it is. Where the fetch or the decoding fails, there is no operation, and the exception is taken (R406, R422, R424;
log 7, log 42). On the clock on which its watchdog window closes the core is fenced instead (R422). -/
def Dev.insn (d : Dev) (c op : Nat) (body : Insn → Act Next) : Dev :=
  if d.ks c ≠ Ks.running then d
  else if d.wdtOver c then d.lockup c
  else match fetchInsn c (d.K c).pc d with
    | .error st => d.stopped c st
    | .ok (i, w) => if i.op = op then w.insnBody c i body else d

/-! ## Shapes of instructions -/

/-- The flags of a result. -/
def putFlags (c : Nat) (r : Alu) : Act Unit := change fun d => d.onK c fun x => { x with flags := r.flags x.flags }

/-- An operation stops that the encoding's checks have shut out. -/
def noShape : Act Next := pure .fall

/-- The flags, then the result: an operation whose destination is FLAGS leaves there what it writes (log 42). -/
def finish (c ty : Nat) (l : Place) (r : Alu) : Act Next := do
  putFlags c r
  result c ty l r.val
  pure .fall

/-- d := f s, with a source of type `ts` and a destination of type `td`. -/
def unary (c : Nat) (i : Insn) (td ts : Nat) (f : Nat → Alu) : Act Next :=
  match i.specs with
  | [pd, ps] => do
    let l ← target c i td pd
    let a ← source c i ts ps
    finish c td l (f a)
  | [pd] => do
    let (l, a) ← updated c i td pd
    finish c td l (f a)
  | _ => noShape

/-- d := f a b, or d := f d s in the form "d op= s". -/
def binary (c : Nat) (i : Insn) (f : Nat → Nat → Alu) : Act Next :=
  match i.specs with
  | [pd, ps] => do
    let (l, a) ← updated c i i.ty pd
    let b ← source c i i.ty ps
    finish c i.ty l (f a b)
  | [pd, pa, pb] => do
    let l ← target c i i.ty pd
    let a ← source c i i.ty pa
    let b ← source c i i.ty pb
    finish c i.ty l (f a b)
  | _ => noShape

/-- d := f d a b, with a destination of type `td`. -/
def ternary (c : Nat) (i : Insn) (td : Nat) (f : Nat → Nat → Nat → Alu) : Act Next :=
  match i.specs with
  | [pd, pa, pb] => do
    let (l, d) ← updated c i td pd
    let a ← source c i i.ty pa
    let b ← source c i i.ty pb
    finish c td l (f d a b)
  | _ => noShape

/-- Two sources and flags alone. -/
def compare (c : Nat) (i : Insn) (f : Nat → Nat → Alu) : Act Next :=
  match i.specs with
  | [pa, pb] => do
    let a ← source c i i.ty pa
    let b ← source c i i.ty pb
    putFlags c (f a b)
    pure .fall
  | _ => noShape

/-! ## Waits (R419) -/

/-- The edge bits of CORE_PEND that a WAIT returned are cleared. -/
def Dev.edgesClear (d : Dev) (c v : Nat) : Dev := d.wr (CORE_PEND.PEND c) (d.rd (CORE_PEND.PEND c) &&& (2 ^ 32 - 1 - v % 2 ^ 32))

/-- WAIT's d is written, and the edge bits it returns are cleared. -/
def waitPut (c : Nat) (l : Place) (v : Nat) : Act Unit := do
  putPlace c 1 v l
  change fun d => d.edgesClear c v

/-- A WAIT ends: the core runs on behind it with `v` in d (R419, R422). -/
def Dev.waitEnd (d : Dev) (c : Nat) (w : WaitSt) (v : Nat) : Dev :=
  let d := d.coreGo c Ks.running
  let act : Act Unit := do
    checkPlace c 1 (.at w.dest)
    waitPut c (.at w.dest) v
  match act d with
  | .ok (_, e) => e.retire c ((d.K c).pc + w.len) .fall
  | .error st => d.stopped c st

end Sys2Proof.Machine
end

