-- ==== Sys2Proof/Machine/Arith.lean ====
section
/-! DEFINITION. The Mograthes instructions that move, compute and compare (15_mograthes_cores.md R413). -/

namespace Sys2Proof.Machine

/-- MOV: d := s. A move from or to LOOP carries the 64 bits of the slot; any other of type L is an L40 (R410, R417; log 42). -/
def bodyMov (c : Nat) (i : Insn) : Act Next :=
  match i.specs with
  | [pd, ps] => do
    let l ← target c i i.ty pd
    let q ← place c i.next ps (tyBytes i.ty) 1
    let v ← readPlace c i.ty q
    let r := Alu.zn i.ty (v : Int)
    if l = .at (.spec 4) ∨ q = .at (.spec 4) then do
      putFlags c r
      putPlace c i.ty v l
      pure .fall
    else finish c i.ty l r
  | _ => noShape
/-- MOV -/
def devMov (c : Nat) (d : Dev) : Dev := d.insn c 0x01 (bodyMov c)
/-- MOV -/
def execMov (c : Fin 21) (s : State) : Host.Outcome State Fault Refusal := .next { s with dev := devMov c.val s.dev }

/-- NOP: nothing but the move to the next address (R413). -/
def bodyInsnNop (_c : Nat) (_i : Insn) : Act Next := pure .fall
/-- INSN_NOP -/
def devInsnNop (c : Nat) (d : Dev) : Dev := d.insn c 0x00 (bodyInsnNop c)
/-- INSN_NOP -/
def execInsnNop (c : Fin 21) (s : State) : Host.Outcome State Fault Refusal := .next { s with dev := devInsnNop c.val s.dev }

/-- WID: the source widened to the next size, H to W in its upper half, W to L by sign extension (R413). -/
def bodyWid (c : Nat) (i : Insn) : Act Next := unary c i (i.ty + 1) i.ty fun a => Alu.zn (i.ty + 1) (if i.ty = 0 then sv 0 a * 2 ^ 16 else sv 1 a)
/-- WID -/
def devWid (c : Nat) (d : Dev) : Dev := d.insn c 0x02 (bodyWid c)
/-- WID -/
def execWid (c : Fin 21) (s : State) : Host.Outcome State Fault Refusal := .next { s with dev := devWid c.val s.dev }

/-- SXT: I16 to I32, sign-extended (R413). -/
def bodySxt (c : Nat) (i : Insn) : Act Next := unary c i 1 0 fun a => Alu.zn 1 (sv 0 a)
/-- SXT -/
def devSxt (c : Nat) (d : Dev) : Dev := d.insn c 0x03 (bodySxt c)
/-- SXT -/
def execSxt (c : Fin 21) (s : State) : Host.Outcome State Fault Refusal := .next { s with dev := devSxt c.val s.dev }

/-- ZXT: I16 to I32, zero-extended (R413). -/
def bodyZxt (c : Nat) (i : Insn) : Act Next := unary c i 1 0 fun a => Alu.zn 1 (a : Int)
/-- ZXT -/
def devZxt (c : Nat) (d : Dev) : Dev := d.insn c 0x04 (bodyZxt c)
/-- ZXT -/
def execZxt (c : Fin 21) (s : State) : Host.Outcome State Fault Refusal := .next { s with dev := devZxt c.val s.dev }

/-- ADD: d := a + b (R413). -/
def bodyAdd (c : Nat) (i : Insn) : Act Next := binary c i (aluAdd i.ty i.s)
/-- ADD -/
def devAdd (c : Nat) (d : Dev) : Dev := d.insn c 0x08 (bodyAdd c)
/-- ADD -/
def execAdd (c : Fin 21) (s : State) : Host.Outcome State Fault Refusal := .next { s with dev := devAdd c.val s.dev }

/-- SUB: d := a - b (R413). -/
def bodySub (c : Nat) (i : Insn) : Act Next := binary c i (aluSub i.ty i.s)
/-- SUB -/
def devSub (c : Nat) (d : Dev) : Dev := d.insn c 0x09 (bodySub c)
/-- SUB -/
def execSub (c : Fin 21) (s : State) : Host.Outcome State Fault Refusal := .next { s with dev := devSub c.val s.dev }

/-- MUL: the fraction product, rounded to the type (R413). -/
def bodyMul (c : Nat) (i : Insn) : Act Next := binary c i (aluMul i.ty i.rnd i.s)
/-- MUL -/
def devMul (c : Nat) (d : Dev) : Dev := d.insn c 0x10 (bodyMul c)
/-- MUL -/
def execMul (c : Fin 21) (s : State) : Host.Outcome State Fault Refusal := .next { s with dev := devMul c.val s.dev }

/-- IMUL: the integer product, low half (R413). -/
def bodyImul (c : Nat) (i : Insn) : Act Next := binary c i (aluImul i.ty i.s)
/-- IMUL -/
def devImul (c : Nat) (d : Dev) : Dev := d.insn c 0x11 (bodyImul c)
/-- IMUL -/
def execImul (c : Fin 21) (s : State) : Host.Outcome State Fault Refusal := .next { s with dev := devImul c.val s.dev }

/-- MAC: d (L40) := d + a * b (R413). -/
def bodyMac (c : Nat) (i : Insn) : Act Next := ternary c i 2 (aluMac i.ty i.rnd i.s)
/-- MAC -/
def devMac (c : Nat) (d : Dev) : Dev := d.insn c 0x12 (bodyMac c)
/-- MAC -/
def execMac (c : Fin 21) (s : State) : Host.Outcome State Fault Refusal := .next { s with dev := devMac c.val s.dev }

/-- MSU: d (L40) := d - a * b (R413). -/
def bodyMsu (c : Nat) (i : Insn) : Act Next := ternary c i 2 (aluMsu i.ty i.rnd i.s)
/-- MSU -/
def devMsu (c : Nat) (d : Dev) : Dev := d.insn c 0x13 (bodyMsu c)
/-- MSU -/
def execMsu (c : Fin 21) (s : State) : Host.Outcome State Fault Refusal := .next { s with dev := devMsu c.val s.dev }

/-- SAT: an L40 clipped to Q31, or rounded and clipped to Q15 (R413). -/
def bodySat (c : Nat) (i : Insn) : Act Next := unary c i i.ty 2 (aluSat i.ty i.rnd)
/-- SAT -/
def devSat (c : Nat) (d : Dev) : Dev := d.insn c 0x14 (bodySat c)
/-- SAT -/
def execSat (c : Fin 21) (s : State) : Host.Outcome State Fault Refusal := .next { s with dev := devSat c.val s.dev }

/-- ABS: d := |s| (R413). -/
def bodyAbs (c : Nat) (i : Insn) : Act Next := unary c i i.ty i.ty (aluAbs i.ty i.s)
/-- ABS -/
def devAbs (c : Nat) (d : Dev) : Dev := d.insn c 0x15 (bodyAbs c)
/-- ABS -/
def execAbs (c : Fin 21) (s : State) : Host.Outcome State Fault Refusal := .next { s with dev := devAbs c.val s.dev }

/-- NEG: d := -s, or in place (R413). -/
def bodyNeg (c : Nat) (i : Insn) : Act Next := unary c i i.ty i.ty (aluNeg i.ty i.s)
/-- NEG -/
def devNeg (c : Nat) (d : Dev) : Dev := d.insn c 0x16 (bodyNeg c)
/-- NEG -/
def execNeg (c : Fin 21) (s : State) : Host.Outcome State Fault Refusal := .next { s with dev := devNeg c.val s.dev }

/-- ASL: d := a shifted left by b (R413). -/
def bodyAsl (c : Nat) (i : Insn) : Act Next := binary c i (aluAsl i.ty i.s)
/-- ASL -/
def devAsl (c : Nat) (d : Dev) : Dev := d.insn c 0x18 (bodyAsl c)
/-- ASL -/
def execAsl (c : Fin 21) (s : State) : Host.Outcome State Fault Refusal := .next { s with dev := devAsl c.val s.dev }

/-- ASR: d := a shifted right arithmetically by b, under RND (R413). -/
def bodyAsr (c : Nat) (i : Insn) : Act Next := binary c i (aluAsr i.ty i.rnd)
/-- ASR -/
def devAsr (c : Nat) (d : Dev) : Dev := d.insn c 0x19 (bodyAsr c)
/-- ASR -/
def execAsr (c : Fin 21) (s : State) : Host.Outcome State Fault Refusal := .next { s with dev := devAsr c.val s.dev }

/-- LSR: d := a shifted right logically by b (R413). -/
def bodyLsr (c : Nat) (i : Insn) : Act Next := binary c i (aluLsr i.ty)
/-- LSR -/
def devLsr (c : Nat) (d : Dev) : Dev := d.insn c 0x1A (bodyLsr c)
/-- LSR -/
def execLsr (c : Fin 21) (s : State) : Host.Outcome State Fault Refusal := .next { s with dev := devLsr c.val s.dev }

/-- MIN: the signed minimum (R413). -/
def bodyMin (c : Nat) (i : Insn) : Act Next := binary c i (aluMin i.ty)
/-- MIN -/
def devMin (c : Nat) (d : Dev) : Dev := d.insn c 0x1C (bodyMin c)
/-- MIN -/
def execMin (c : Fin 21) (s : State) : Host.Outcome State Fault Refusal := .next { s with dev := devMin c.val s.dev }

/-- MAX: the signed maximum (R413). -/
def bodyMax (c : Nat) (i : Insn) : Act Next := binary c i (aluMax i.ty)
/-- MAX -/
def devMax (c : Nat) (d : Dev) : Dev := d.insn c 0x1D (bodyMax c)
/-- MAX -/
def execMax (c : Fin 21) (s : State) : Host.Outcome State Fault Refusal := .next { s with dev := devMax c.val s.dev }

/-- LIM: d := min(max(d, a), b) (R413). -/
def bodyLim (c : Nat) (i : Insn) : Act Next := ternary c i i.ty (aluLim i.ty)
/-- LIM -/
def devLim (c : Nat) (d : Dev) : Dev := d.insn c 0x1E (bodyLim c)
/-- LIM -/
def execLim (c : Fin 21) (s : State) : Host.Outcome State Fault Refusal := .next { s with dev := devLim c.val s.dev }

/-- CMP: a compared with b, nothing written (R413). -/
def bodyCmp (c : Nat) (i : Insn) : Act Next := compare c i (aluCmp i.ty)
/-- CMP -/
def devCmp (c : Nat) (d : Dev) : Dev := d.insn c 0x20 (bodyCmp c)
/-- CMP -/
def execCmp (c : Fin 21) (s : State) : Host.Outcome State Fault Refusal := .next { s with dev := devCmp c.val s.dev }

/-- TST: a AND b, nothing written (R413). -/
def bodyTst (c : Nat) (i : Insn) : Act Next := compare c i fun a b => aluBits i.ty (a &&& b)
/-- TST -/
def devTst (c : Nat) (d : Dev) : Dev := d.insn c 0x21 (bodyTst c)
/-- TST -/
def execTst (c : Fin 21) (s : State) : Host.Outcome State Fault Refusal := .next { s with dev := devTst c.val s.dev }

/-- AND (R413). -/
def bodyAnd (c : Nat) (i : Insn) : Act Next := binary c i fun a b => aluBits i.ty (a &&& b)
/-- AND -/
def devAnd (c : Nat) (d : Dev) : Dev := d.insn c 0x24 (bodyAnd c)
/-- AND -/
def execAnd (c : Fin 21) (s : State) : Host.Outcome State Fault Refusal := .next { s with dev := devAnd c.val s.dev }

/-- OR (R413). -/
def bodyOr (c : Nat) (i : Insn) : Act Next := binary c i fun a b => aluBits i.ty (a ||| b)
/-- OR -/
def devOr (c : Nat) (d : Dev) : Dev := d.insn c 0x25 (bodyOr c)
/-- OR -/
def execOr (c : Fin 21) (s : State) : Host.Outcome State Fault Refusal := .next { s with dev := devOr c.val s.dev }

/-- XOR (R413). -/
def bodyXor (c : Nat) (i : Insn) : Act Next := binary c i fun a b => aluBits i.ty (a ^^^ b)
/-- XOR -/
def devXor (c : Nat) (d : Dev) : Dev := d.insn c 0x26 (bodyXor c)
/-- XOR -/
def execXor (c : Fin 21) (s : State) : Host.Outcome State Fault Refusal := .next { s with dev := devXor c.val s.dev }

/-- NOT: the complement, or in place (R413). -/
def bodyNot (c : Nat) (i : Insn) : Act Next := unary c i i.ty i.ty fun a => aluBits i.ty (2 ^ tyBits i.ty - 1 - a)
/-- NOT -/
def devNot (c : Nat) (d : Dev) : Dev := d.insn c 0x27 (bodyNot c)
/-- NOT -/
def execNot (c : Fin 21) (s : State) : Host.Outcome State Fault Refusal := .next { s with dev := devNot c.val s.dev }

/-- BSET: bit (s mod width) of d set, no flag changed (R413). -/
def bodyBset (c : Nat) (i : Insn) : Act Next := binary c i fun a b => { val := (setBit a (b % tyBits i.ty) : Nat) }
/-- BSET -/
def devBset (c : Nat) (d : Dev) : Dev := d.insn c 0x28 (bodyBset c)
/-- BSET -/
def execBset (c : Fin 21) (s : State) : Host.Outcome State Fault Refusal := .next { s with dev := devBset c.val s.dev }

/-- BCLR: bit (s mod width) of d cleared, no flag changed (R413). -/
def bodyBclr (c : Nat) (i : Insn) : Act Next := binary c i fun a b => { val := (clrBit a (b % tyBits i.ty) : Nat) }
/-- BCLR -/
def devBclr (c : Nat) (d : Dev) : Dev := d.insn c 0x29 (bodyBclr c)
/-- BCLR -/
def execBclr (c : Fin 21) (s : State) : Host.Outcome State Fault Refusal := .next { s with dev := devBclr c.val s.dev }

/-- BTST: Z := NOT bit (s mod width) of d, nothing written (R413). -/
def bodyBtst (c : Nat) (i : Insn) : Act Next := compare c i fun a b => { val := 0, z := some (!(bit a (b % tyBits i.ty))) }
/-- BTST -/
def devBtst (c : Nat) (d : Dev) : Dev := d.insn c 0x2A (bodyBtst c)
/-- BTST -/
def execBtst (c : Fin 21) (s : State) : Host.Outcome State Fault Refusal := .next { s with dev := devBtst c.val s.dev }

/-- DIVS: d := a / b as fractions, under RND (R413). -/
def bodyDivs (c : Nat) (i : Insn) : Act Next := binary c i (aluDivs i.ty i.rnd i.s)
/-- DIVS -/
def devDivs (c : Nat) (d : Dev) : Dev := d.insn c 0x3C (bodyDivs c)
/-- DIVS -/
def execDivs (c : Fin 21) (s : State) : Host.Outcome State Fault Refusal := .next { s with dev := devDivs c.val s.dev }

end Sys2Proof.Machine
end

