-- ==== Sys2Proof/Machine/Boot.lean ====
section
/-! DEFINITION. The boot ROM: loading and checking an image, applying its records, and what follows (10_modes_startup.md
R277-R282, R291; 15_mograthes_cores.md R427, R428; log 39). -/

namespace Sys2Proof.Machine

/-! ## Loading (R277, R281, R282) -/

/-- Step 3 of R282 has ended after a reset with the SAFE latch set, with an image or without one: SAFE follows (R291; log 39). -/
def Dev.latchEnd (d : Dev) : Dev :=
  if d.mode.afterSafe then { d.safeEnter 2 with mode := { (d.safeEnter 2).mode with afterSafe := false } } else d

/-- Step 3 of CONFIGURE entry, once the memories are initialised and the converters calibrated: the boot ROM reads the flash, whose
contents the command brings, or waits for the host (R277, R282; 15_mograthes_cores.md R428). A flash is reset with 0x66 and 0x99 and read
with 0x6B, a 3-byte address and 8 dummy clocks (18_package_electrical.md R480). -/
def devBootLoad (flash : Flash) (d : Dev) : Dev :=
  if d.md ≠ Md.configure ∨ ¬ d.mode.pendingCfg ∨ d.mem.init ≠ [] ∨ d.calibrating then d
  else
    let d := { d with mode := { d.mode with pendingCfg := false } }
    if d.on DEV_STATUS.BOOT_SEL ∨ d.mode.lastHost then (d.wr BOOT_STATUS.STATE 7).latchEnd
    else
      let d := ((d.wr BOOT_STATUS.STATE 1).wr BOOT_STATUS.SRC 0).wr BOOT_STATUS.SLOT 0
      { d with mode := { d.mode with image := flash.data, flashOk := flash.ok, qspi := [(0x66, 0), (0x99, 0), (0x6B, 0)] } }

/-- BOOT_LOAD -/
def execBootLoad (flash : Flash) (s : State) : Host.Outcome State Fault Refusal := .next { s with dev := devBootLoad flash s.dev }

/-! ## The format of a payload (R279; 15_mograthes_cores.md R427) -/

/-- The last word offset a record may name. -/
def bootLast : Nat := 0x206FFC

/-- The length of the record at payload offset `p`, if it breaks no rule of its kind. -/
def recordLen (pay : List Byte) (p : Nat) : Option Nat :=
  let left := pay.length - p
  let r := (pay.drop p).take 16
  let kind := leNat r 0 2
  let off := leNat r 4 4
  let n := leNat r 8 4
  if left < 16 then none
  else if kind = 0x0001 then
    (if leNat r 2 2 = 0 ∧ off % 4 = 0 ∧ off ≤ bootLast then some 16 else none)
  else if kind = 0x0002 then
    (if leNat r 2 2 = 0 ∧ leNat r 12 4 = 0 ∧ off % 4 = 0 ∧ 1 ≤ n ∧ n ≤ 65536 ∧ off + 4 * (n - 1) ≤ bootLast ∧ 16 + 4 * n ≤ left
     then some (16 + 4 * n) else none)
  else if kind = 0x0003 then
    (if byteAt r 4 < 32 ∧ zeroBytes r 6 15 then some 16 else none)
  else if kind = 0x00C5 then
    (if byteAt r 2 ≤ 20 ∧ byteAt r 3 < 4 ∧ off % 8 = 0 ∧ n % 8 = 0 ∧ 8 ≤ n ∧ off + n ≤ 131072 ∧
        (byteAt r 3 < 2 → leNat r 12 4 = 0) ∧ 16 + n ≤ left
     then some (16 + n) else none)
  else none

/-- The next multiple of 8. -/
def upTo8 (n : Nat) : Nat := (n + 7) / 8 * 8

/-- Every record from offset `p` to the end of the payload follows its layout, and what follows a record up to the next multiple of
8 is 0. -/
def recordsOk (pay : List Byte) (p : Nat) : Nat → Bool
  | 0 => decide (pay.length ≤ p)
  | fuel + 1 =>
    if pay.length ≤ p then true
    else match recordLen pay p with
      | none => false
      | some n => ((pay.drop (p + n)).take (upTo8 n - n)).all (· == 0) && recordsOk pay (p + upTo8 n) fuel

/-! ## The checks (R280) -/

/-- The header's magic, length and zero fields, and the payload's records. -/
def imageFormat (im : List Byte) : Bool :=
  let len := leNat im 4 4
  decide (256 ≤ im.length) && leNat im 0 4 == 0x5A4A4F31 && decide (len ≤ 3145472 ∧ 256 + len ≤ im.length) &&
  zeroBytes im 13 15 && zeroBytes im 113 127 && zeroBytes im 224 255 &&
  recordsOk ((im.drop 256).take len) 0 len

/-- The STATE an image ends in: AUTHENTICATED or the first check that fails, in the order of R280. `otp` is the security version
counter. A key slot above 3 does not exist, so no hash of it matches, and a blank slot matches no key (18_package_electrical.md R482). -/
def imageState (im : List Byte) (otp : Nat) : Nat :=
  let slot := byteAt im 12
  let key := (im.drop 16).take 97
  let sig := (im.drop 128).take 96
  let pay := (im.drop 256).take (leNat im 4 4)
  if ¬ imageFormat im then 3
  else if 3 < slot ∨ Config.otpKeyHash slot ≠ some (Config.sha384 key) ∨ Config.otpRevoked slot then 4
  else if ¬ Config.ecdsaVerify key (Config.sha384 (im.take 128 ++ pay)) sig then 5
  else if leNat im 8 4 < otp then 6
  else 2

/-- The first `n` bytes of the boot window, hub shared memory from 0x0010_0000 (17_register_map.md R457), as the boot ROM reads them
a granule at a time; `none` if a bank is offline or a granule uncorrectable (16_memory_protection.md R439). -/
def Dev.windowBytes (d : Dev) (o : Nat) : Nat → Dev × Option (List Byte)
  | 0 => (d, some [])
  | n + 1 =>
    let w := windowBank (0x900000 + o)
    match d.readGran w.1 (w.2 / 8) 0x35 1 with
    | (d, none) => (d, none)
    | (d, some v) =>
      match d.windowBytes (o + 8) n with
      | (d, none) => (d, none)
      | (d, some rest) => (d, some (leBytes v 8 ++ rest))

/-- A bank of the boot window is offline (16_memory_protection.md R439). -/
def Dev.windowOff (d : Dev) : Bool := (List.range 12).any fun k => d.bankOff (0x54 + k)

/-- The image that the host put into the boot window: the header, then as much payload as it names. -/
def Dev.hostImage (d : Dev) : Dev × List Byte :=
  if d.windowOff then (d, [])
  else match d.windowBytes 0 32 with
    | (d, none) => (d, [])
    | (d, some h) =>
      let len := min (leNat h 4 4) 3145472
      match d.windowBytes 256 ((len + 7) / 8) with
      | (d, none) => (d, [])
      | (d, some pay) => (d, h ++ pay)

/-- The flash image of a slot: primary at 0, secondary at 0x0080_0000 (R277). -/
def flashImage (flash : List Byte) (slot : Nat) : List Byte := if slot = 0 then flash else flash.drop 0x800000

/-- The check has ended with a STATE: an authenticated image waits to be applied; after the primary flash image the secondary is
loaded (R277); any other failure stays in STATE and leaves the host path open (R281). -/
def Dev.imageEnd (d : Dev) (im : List Byte) (st : Nat) : Dev :=
  let host := d.on BOOT_STATUS.SRC
  if st = 2 then
    let d := (d.wr BOOT_STATUS.STATE 2).wr BOOT_STATUS.KEY_SLOT (byteAt im 12)
    { d with mode := { d.mode with image := (im.take (256 + leNat im 4 4)), bootPos := 0, bootIdx := 0, coreCode := 0, lastHost := host } }
  else if ¬ host ∧ d.rd BOOT_STATUS.SLOT = 0 then
    { d.wr BOOT_STATUS.SLOT 1 with mode := { d.mode with qspi := d.mode.qspi ++ [(0x6B, 0x800000)] } }
  else (d.wr BOOT_STATUS.STATE st).latchEnd

/-- The boot ROM checks the image at hand (R280); a flash that does not meet its conditions fails with FAIL_FORMAT
(18_package_electrical.md R480). -/
def devImageCheck (d : Dev) : Dev :=
  if d.md ≠ Md.configure ∨ d.rd BOOT_STATUS.STATE ≠ 1 then d
  else
    let x := if d.on BOOT_STATUS.SRC then d.hostImage else (d, flashImage d.mode.image (d.rd BOOT_STATUS.SLOT))
    x.1.imageEnd x.2 (if d.on BOOT_STATUS.SRC ∨ d.mode.flashOk then imageState x.2 d.mode.otp else 3)

/-- IMAGE_CHECK -/
def execImageCheck (s : State) : Host.Outcome State Fault Refusal := .next { s with dev := devImageCheck s.dev }

/-! ## Applying the records (R279) -/

/-- The record to be applied next: its bytes, as far as its kind's length, while an authenticated image is being applied. -/
def Dev.bootRecord (d : Dev) (kind : Nat) : Option (List Byte) :=
  let pay := d.mode.image.drop 256
  if d.md ≠ Md.configure ∨ d.rd BOOT_STATUS.STATE ≠ 2 ∨ d.on BOOT_STATUS.APPLIED then none
  else match recordLen pay d.mode.bootPos with
    | none => none
    | some n => if leNat pay d.mode.bootPos 2 = kind then some ((pay.drop d.mode.bootPos).take n) else none

/-- A record has been applied with a status: one that is not SUCCESS is counted, the first with its status and index. The next record
follows at the next multiple of 8. -/
def Dev.recordDone (d : Dev) (len st : Nat) : Dev :=
  let d := if st = St.success then d else d.countRecord d.mode.bootIdx st
  { d with mode := { d.mode with bootPos := d.mode.bootPos + upTo8 len, bootIdx := d.mode.bootIdx + 1 } }

/-- One word written by agent 0x35 under a mask: bits outside it keep the register's present value; the read that merges them has no
side effect. The status with which the record is counted: any write that the register rules ignore, the effect's own among them, is
DESC_INVALID. -/
def Dev.bootWord (d : Dev) (off : Nat) (value mask : Word) : Dev × Nat :=
  let rw := match rowFor off with | some r => r.rw | none => 0
  let v := (value &&& mask) ||| (d.regWord off &&& ~~~mask &&& rw)
  -- a reserved offset and a register with no bit to write ignore the write (17_register_map.md R448, R450; log 39)
  let ro : Bool := match rowFor off with | some r => r.fixed | none => true
  let n := d.hw.ign
  match d.regWrite 0x35 off v with
  | (d, .done) => (d, if ro = true ∨ n < d.hw.ign then St.descInvalid else St.success)
  | (d, .refused) => (d, St.resourceNotOwned)
  | (d, .link) => (d.wign 0x35 off 5, St.descInvalid)
  | (d, _) => (d, St.descInvalid)

/-- Consecutive words from offset `off`; the first status that is not SUCCESS stands for the record. -/
def Dev.bootWords (d : Dev) (off : Nat) (r : List Byte) (k : Nat) : Nat → Dev × Nat
  | 0 => (d, St.success)
  | n + 1 =>
    let x := d.bootWord off (BitVec.ofNat 32 (leNat r k 4)) (BitVec.allOnes 32)
    let y := x.1.bootWords (off + 4) r (k + 4) n
    (y.1, if x.2 = St.success then y.2 else x.2)

/-- A record REG_WRITE is next, and is applied. -/
def devRegWriteRecord (d : Dev) : Dev :=
  match d.bootRecord 0x0001 with
  | none => d
  | some r =>
    let x := d.bootWord (leNat r 4 4) (BitVec.ofNat 32 (leNat r 8 4)) (BitVec.ofNat 32 (leNat r 12 4))
    x.1.recordDone r.length x.2

/-- REG_WRITE -/
def execRegWriteRecord (s : State) : Host.Outcome State Fault Refusal := .next { s with dev := devRegWriteRecord s.dev }

/-- A record REG_BLOCK is next, and is applied. -/
def devRegBlockRecord (d : Dev) : Dev :=
  match d.bootRecord 0x0002 with
  | none => d
  | some r =>
    let x := d.bootWords (leNat r 4 4) r 16 (leNat r 8 4)
    x.1.recordDone r.length x.2

/-- REG_BLOCK -/
def execRegBlockRecord (s : State) : Host.Outcome State Fault Refusal := .next { s with dev := devRegBlockRecord s.dev }

/-- A record CLAIM is next, and is decided under 01_architecture.md R23 and R24. -/
def devClaimRecord (d : Dev) : Dev :=
  match d.bootRecord 0x0003 with
  | none => d
  | some r =>
    let x := d.claimIn (leNat r 2 2) (byteAt r 5) (byteAt r 4 % 16) (d.mode.bootIdx % 2 ^ 16) ((byteAt r 4).testBit 4)
      (.record d.mode.bootIdx)
    (x.1.kSettle d).recordDone r.length x.2

/-- CLAIM -/
def execClaimRecord (s : State) : Host.Outcome State Fault Refusal := .next { s with dev := devClaimRecord s.dev }

/-- A record CORE_SECTION is next: its bytes go to the core's local memory, its entry address to CORE_CFG.ENTRY
(15_mograthes_cores.md R427). -/
def devCoreSectionRecord (d : Dev) : Dev :=
  match d.bootRecord 0x00C5 with
  | none => d
  | some r =>
    let c := byteAt r 2
    let data := (byteAt r 3).testBit 0
    let d := (d.writeBank (2 * c + b2n data) (leNat r 4 4) 0x35 (r.drop 16) r.length).1
    let d := if (byteAt r 3).testBit 1 then d.wr (CORE_CFG.ENTRY c) (leNat r 12 4) else d
    let d := if data then d else { d with mode := { d.mode with coreCode := setBit d.mode.coreCode c } }
    d.recordDone r.length St.success

/-- CORE_SECTION -/
def execCoreSectionRecord (s : State) : Host.Outcome State Fault Refusal := .next { s with dev := devCoreSectionRecord s.dev }

/-! ## The end of the boot -/

/-- The boot has ended: after a reset with the SAFE latch set, SAFE follows (R291); with AUTO_RAMP the boot ROM requests RAMP, whichever
agent owns MODE (R273). -/
def Dev.bootEnd (d : Dev) : Dev :=
  if d.mode.afterSafe then d.latchEnd
  else if d.on MODE_CFG.AUTO_RAMP then d.reqRamp.1
  else d

/-- Every record has been applied: the cores with code start (15_mograthes_cores.md R427), and the boot ends. -/
def devImageApplied (d : Dev) : Dev :=
  if d.md ≠ Md.configure ∨ d.rd BOOT_STATUS.STATE ≠ 2 ∨ d.on BOOT_STATUS.APPLIED ∨
     d.mode.image.length - 256 > d.mode.bootPos then d
  else
    let d := d.wr BOOT_STATUS.APPLIED 1
    let d := d.forN 21 fun d c => if d.mode.coreCode.testBit c ∧ d.ks c = Ks.halted then d.coreStart c else d
    d.bootEnd

/-- IMAGE_APPLIED -/
def execImageApplied (s : State) : Host.Outcome State Fault Refusal := .next { s with dev := devImageApplied s.dev }

end Sys2Proof.Machine
end

