-- ==== Sys2Proof/Machine/Commands.lean ====
section
/-! DEFINITION. Descriptors on resources, rails, tables, sequences and packs (12_host_rings.md R321, R332-R334; 01_architecture.md
R23-R26; 03_branch_fuses.md R71; 04_rail_loom.md R97, R108, R109; 05_phase_management.md R128; 07_conversion.md R205; 08_battery_estimation.md R242,
R243). -/

namespace Sys2Proof.Machine

/-- The 32-bit word at byte `k` of a payload. -/
def payWord (p : List Byte) (k : Nat) : Word := BitVec.ofNat 32 (leNat p k 4)

/-! ## NOP and resources -/

/-- A descriptor with an empty payload does nothing. -/
def devNop (x : Desc) (d : Dev) : Dev :=
  d.runDesc 0x00 x (some 0) true none fun d _ => (d, some (if zeroPayload x.payload then St.success else St.descInvalid))

/-- NOP -/
def execNop (x : Desc) (s : State) : Host.Outcome State Fault Refusal :=
  if x.wf then .next { s with dev := devNop x s.dev } else .fault .badOperand

/-- A claim by the submitting agent (12_host_rings.md R332). -/
def Dev.resClaim (d : Dev) (x : Desc) (t : Token) : Dev × Nat :=
  let p := x.payload
  if 32 ≤ byteAt p 2 ∨ ¬ zeroBytes p 3 47 then (d, St.descInvalid)
  else
    let r := d.claimIn (leNat p 0 2) x.src.agent (byteAt p 2 % 16) x.tag.toNat ((byteAt p 2).testBit 4) t
    (r.1.kSettle d, r.2)

/-- RES_CLAIM (01_architecture.md R23, R24). -/
def devResClaim (x : Desc) (d : Dev) : Dev :=
  d.runDesc 0x04 x (some 0) false none fun d t => ((d.resClaim x t).1, some (d.resClaim x t).2)

/-- RES_CLAIM -/
def execResClaim (x : Desc) (s : State) : Host.Outcome State Fault Refusal :=
  if x.wf then .next { s with dev := devResClaim x s.dev } else .fault .badOperand

/-- A release by the submitting agent; the ring engine releases its alignment timer for an agent that holds MODE
(12_host_rings.md R332; 11_clocks_time.md R304). -/
def Dev.resRelease (d : Dev) (x : Desc) : Dev × Nat :=
  let p := x.payload
  let rid := leNat p 0 2
  let align := rid / 4096 == 1 && d.owns 1 (rid % 4096) 0x30 1 && d.mayCommand 0 x.src.agent
  if ¬ zeroBytes p 2 47 then (d, St.descInvalid) else d.release rid x.src.agent align

/-- RES_RELEASE (01_architecture.md R26). -/
def devResRelease (x : Desc) (d : Dev) : Dev :=
  d.runDesc 0x05 x (some 0) false none fun d _ => ((d.resRelease x).1, some (d.resRelease x).2)

/-- RES_RELEASE -/
def execResRelease (x : Desc) (s : State) : Host.Outcome State Fault Refusal :=
  if x.wf then .next { s with dev := devResRelease x s.dev } else .fault .badOperand

/-! ## Rails -/

/-- RAIL_SET (04_rail_loom.md R109, R110). -/
def devRailSet (x : Desc) (d : Dev) : Dev :=
  d.runDesc 0x10 x (some 1) false (some 1) fun d _ =>
    let p := x.payload
    let r := x.idx.toNat
    if 0x1000 ≤ leNat p 0 2 ∨ 2 ≤ byteAt p 3 ∨ ¬ zeroBytes p 4 47 then (d, some St.descInvalid)
    else
      let y := d.railSet r (leNat p 0 2) (if byteAt p 3 = 1 then byteAt p 2 else d.rd (RAIL_SLEW.SLEW r))
      let now := d.now
      (if y.2 = St.success then y.1.onR r fun s => { s with setAt := some now } else y.1, some y.2)

/-- RAIL_SET -/
def execRailSet (x : Desc) (s : State) : Host.Outcome State Fault Refusal :=
  if x.wf then .next { s with dev := devRailSet x s.dev } else .fault .badOperand

/-- RAIL_ENABLE (04_rail_loom.md R108, R111). -/
def devRailEnable (x : Desc) (d : Dev) : Dev :=
  d.runDesc 0x11 x (some 1) false (some 1) fun d _ =>
    if zeroPayload x.payload then ((d.railEnable x.idx.toNat).1, some (d.railEnable x.idx.toNat).2) else (d, some St.descInvalid)

/-- RAIL_ENABLE -/
def execRailEnable (x : Desc) (s : State) : Host.Outcome State Fault Refusal :=
  if x.wf then .next { s with dev := devRailEnable x s.dev } else .fault .badOperand

/-- RAIL_DISABLE (04_rail_loom.md R107, R108): it completes once the rail is OFF or FENCED. -/
def devRailDisable (x : Desc) (d : Dev) : Dev :=
  d.runDesc 0x12 x (some 1) false (some 1) fun d t =>
    let r := x.idx.toNat
    if ¬ zeroPayload x.payload then (d, some St.descInvalid)
    else
      let y := d.railDisable r
      if y.2 then (y.1.onR r fun s => { s with enOut := s.enOut ++ [t] }, none) else (y.1, some St.success)

/-- RAIL_DISABLE -/
def execRailDisable (x : Desc) (s : State) : Host.Outcome State Fault Refusal :=
  if x.wf then .next { s with dev := devRailDisable x s.dev } else .fault .badOperand

/-- The phases that a home mask and a neighbour mask of rail `r` name; a neighbour bit without a neighbour die names none. -/
def Dev.maskPhases (d : Dev) (r home neigh : Nat) : List (Option Nat) :=
  ((List.range 128).filter fun i => home.testBit i).map (fun i => some (128 * (r / 16) + i)) ++
  ((List.range 128).filter fun i => neigh.testBit i).map fun i => (d.neighDie r).map fun k => 128 * k + i

/-- PHASE_MASK (05_phase_management.md R128). -/
def Dev.phaseMask (d : Dev) (r : Nat) (p : List Byte) (t : Token) : Dev × Option Nat :=
  let home := leNat p 0 16
  let neigh := leNat p 16 16
  let warp := if d.md = Md.configure then d.warpCfg r else d.warp r
  let named := d.maskPhases r home neigh
  let inWarp := named.all fun q => match q with | some n => warp.contains n | none => false
  if ¬ zeroBytes p 32 47 ∨ ¬ inWarp ∨ named.length < d.minPhases r then (d, some St.maskInvalid)
  else
    let d := d.onR r fun s => { s with maskP := some (home, neigh), maskOut := s.maskOut ++ [t] }
    (if d.rLive r then d else (d.maskSwap r).warpShow r, none)

/-- PHASE_MASK (05_phase_management.md R128). -/
def devPhaseMask (x : Desc) (d : Dev) : Dev :=
  d.runDesc 0x13 x (some 1) false (some 1) fun d t => d.phaseMask x.idx.toNat x.payload t

/-- PHASE_MASK -/
def execPhaseMask (x : Desc) (s : State) : Host.Outcome State Fault Refusal :=
  if x.wf then .next { s with dev := devPhaseMask x s.dev } else .fault .badOperand

/-- COEF_LOAD (04_rail_loom.md R97, R98): a load for a rail whose PENDING is 1 waits for that swap. -/
def Dev.coefLoad (d : Dev) (r : Nat) (p : List Byte) (t : Token) : Dev × Option Nat :=
  let ws := (List.range 5).map fun k => payWord p (4 * k)
  if ¬ zeroBytes p 20 47 then (d, some St.coefInvalid)
  else if d.on (COEF_CTL.PENDING r) then (d.onR r fun s => { s with coefQ := s.coefQ ++ [(t, ws)] }, none)
  else
    let d := d.coefShadow r t ws
    (if d.rLive r then d else d.coefSwap r, none)

/-- COEF_LOAD (04_rail_loom.md R97). -/
def devCoefLoad (x : Desc) (d : Dev) : Dev :=
  d.runDesc 0x14 x (some 1) false (some 1) fun d t => d.coefLoad x.idx.toNat x.payload t

/-- COEF_LOAD -/
def execCoefLoad (x : Desc) (s : State) : Host.Outcome State Fault Refusal :=
  if x.wf then .next { s with dev := devCoefLoad x s.dev } else .fault .badOperand

/-! ## Tables -/

/-- The bytes of a table take the place of the words from BAR0 offset `off` on, in every copy (R334; 17_register_map.md R452). -/
def Dev.tableWrite (d : Dev) (a off : Nat) (bs : List Byte) : Dev :=
  match tablePlace off with
  | none => d
  | some (b, o) =>
    let banks := if b = 0x88 then [0x88, 0x8A, 0x8C, 0x8E] else [b]
    d.forL banks fun d k => (d.writeBank k o a bs bs.length).1

/-- A table's words can be written nowhere in one of the banks that hold them (16_memory_protection.md R439). -/
def Dev.tableRefused (d : Dev) (off : Nat) : Bool :=
  match tablePlace off with
  | none => false
  | some (b, _) => (if b = 0x88 then [0x88, 0x8A, 0x8C, 0x8E] else [b]).any fun k => d.pairGone k

/-- The device as it would be with a table's bytes as the words from `off` on: what the table's own checks look at. -/
def Dev.withTable (d : Dev) (off : Nat) (bs : List Byte) : Dev :=
  d.forN (bs.length / 4) fun d k => d.setWord (off + 4 * k) (payWord bs (4 * k))

/-- A fuse policy record follows 03_branch_fuses.md R68. -/
def policyOk (w : List Byte) : Bool :=
  let w0 := leNat w 0 4
  polCodesOk w0 && bits w0 19 16 == 0 && bits (leNat w 16 4) 15 1 == 0 && zeroBytes w 24 31

/-- The kinds (1 entry, 2 branch, 3 phase) of the units in use that name policy record `p` at this moment, in CONFIGURE by the words
written there (03_branch_fuses.md R71). -/
def Dev.policyUsers (d : Dev) (p : Nat) : List Nat :=
  let d := d.commit
  (if (List.range 16).any fun n => d.rd (ENT_CFG.ROLE n) != 0 && d.rd (ENT_CFG.POLICY n) == p then [1] else []) ++
  (if (List.range 64).any fun n => d.on (BR_CFG.USED n) && d.rd (BR_CFG.POLICY n) == p then [2] else []) ++
  (if (List.range 64).any fun r => d.rd (PH_CFG.PH_POLICY r) == p && d.warpCfg r != [] then [3] else [])

/-- FUSE_POLICY_LOAD (R333; 03_branch_fuses.md R68, R71). -/
def Dev.policyLoad (d : Dev) (p : List Byte) (a : Nat) : Dev × Nat :=
  let k := byteAt p 0
  let w := (p.drop 4).take 32
  let kind := bits (leNat w 0 4) 31 30
  if ¬ zeroBytes p 1 3 ∨ ¬ zeroBytes p 36 47 then (d, St.descInvalid)
  else if 64 ≤ k ∨ ¬ policyOk w then (d, St.recordInvalid)
  else if kind ≠ 0 ∧ (d.policyUsers k).any (· ≠ kind) then (d, St.policyKind)
  else if d.tableRefused (0x2000 + 0x20 * k) then (d, St.domainFenced)
  else (d.tableWrite a (0x2000 + 0x20 * k) w, St.success)

/-- FUSE_POLICY_LOAD (03_branch_fuses.md R71). -/
def devFusePolicyLoad (x : Desc) (d : Dev) : Dev :=
  d.runDesc 0x18 x (some 0) false (some 1) fun d _ =>
    ((d.policyLoad x.payload x.src.agent).1, some (d.policyLoad x.payload x.src.agent).2)

/-- FUSE_POLICY_LOAD -/
def execFusePolicyLoad (x : Desc) (s : State) : Host.Outcome State Fault Refusal :=
  if x.wf then .next { s with dev := devFusePolicyLoad x s.dev } else .fault .badOperand

/-- SOA table `k` follows 02_power_entry.md R43. -/
def Dev.soaOk (d : Dev) (k : Nat) : Bool :=
  (List.range 4).all (fun j => d.rd (SOA_TAU.TAU k j) != 0) && decide (d.rds (SOA_TJ.TJ_REG k) < d.rds (SOA_TJ.TJ_TRIP k))

/-- A channel whose FET_TYPE is `k` runs on SOA table `k`: an entry channel in CHECK, INRUSH, ON, BLOCKING or ARMED, a branch channel in
CHECK, SOFTSTART or ON (02_power_entry.md R44; 03_branch_fuses.md R65). -/
def Dev.soaBusy (d : Dev) (k : Nat) : Bool :=
  ((List.range 16).any fun n => d.rd (ENT_CFG.FET_TYPE n) == k && ((1 ≤ d.es n && d.es n ≤ 4) || d.es n == Ec.armed)) ||
  (List.range 64).any fun n => d.rd (BR_CFG.FET_TYPE n) == k && 1 ≤ d.bs n && d.bs n ≤ 3

/-- The efficiency words from `off` on never decrease (05_phase_management.md R136). -/
def Dev.effOk (d : Dev) (off : Nat) : Bool :=
  let e := fun j => (d.word (off + j / 2 * 4)).toNat / 65536 ^ (j % 2) % 65536
  (List.range 63).all fun j => decide (e j ≤ e (j + 1))

/-- The table that a KIND and INDEX name: its BAR0 offset and length (R334). -/
def tableOf (kind index : Nat) : Option (Nat × Nat) :=
  match kind with
  | 1 => if index < 8 then some (0x201200 + 0x40 * index, 32) else none
  | 2 => if index < 4 then some (0x206000 + 0x400 * index, 520) else none
  | 3 => if index < 8 then some (0x10C000 + 0x80 * index, 128) else none
  | 4 => if index = 0 then some (0xB000, 1024) else none
  | _ => none

/-- The status of a table's own checks, with its image in place (R334). -/
def Dev.tableCheck (d : Dev) (kind index off : Nat) : Nat :=
  if kind = 1 then (if d.soaBusy index then St.tableInUse else if d.soaOk index then St.success else St.tableInvalid)
  else if kind = 2 then (if d.ocvOk index then St.success else St.tableInvalid)
  else if kind = 3 then (if d.effOk off then St.success else St.tableInvalid)
  else if d.sq = 1 ∨ d.sq = 4 ∨ d.sq = 5 then St.tableInUse
  else if d.seqCheck then St.success else St.seqInvalid

/-- A die that holds a table of a kind is out of reach (17_register_map.md R451, R452). -/
def Dev.tableOut (d : Dev) (kind : Nat) : Bool :=
  if kind = 1 then d.dieOut 4 else if kind = 2 then !(d.linkUp 7)
  else if kind = 3 then !((List.range 4).all fun n => d.linkUp n) else false

/-- A table takes effect: an efficiency table at the next boundary of each rail that names it (05_phase_management.md R136). -/
def Dev.tableTake (d : Dev) (kind index off a : Nat) (bs : List Byte) : Dev :=
  let d := d.tableWrite a off bs
  if kind = 3 then d.forN 64 fun d r => if d.rd (PH_CFG.EFF_TABLE r) = index then d.onR r fun s => { s with effPend := true } else d
  else d

/-- TABLE_LOAD (R334): `err` says that the host answered a read of the image with an error (log 40). -/
def Dev.tableLoad (d : Dev) (p : List Byte) (err : Bool) (a : Nat) : Dev × Nat :=
  let kind := byteAt p 0
  let index := byteAt p 1
  let addr := leNat p 4 6
  if ¬ zeroBytes p 2 3 ∨ ¬ zeroBytes p 10 11 ∨ ¬ zeroBytes p 20 47 then (d, St.descInvalid)
  else match tableOf kind index with
    | none => (d, St.tableInvalid)
    | some (off, len) =>
      if leNat p 12 4 ≠ len ∨ addr % 64 ≠ 0 then (d, St.tableInvalid)
      else if d.tableOut kind then (d, St.linkFenced)
      else if d.tableRefused off then (d, St.domainFenced)
      else if err then (d, St.hostReadError)
      else
        let bs := d.hRd addr len
        -- the upper half of SOA_TREF is reserved
        let img := if kind = 1 then bs.take 30 ++ [0, 0] else bs
        if crc32 bs ≠ leNat p 16 4 then (d, St.tableCrc)
        else
          let st := (d.withTable off img).tableCheck kind index off
          if st = St.success then (d.tableTake kind index off a img, St.success) else (d, st)

/-- TABLE_LOAD (R334). -/
def devTableLoad (x : Desc) (err : Bool) (d : Dev) : Dev :=
  d.runDesc 0x19 x (some 0) false (some 1) fun d _ =>
    ((d.tableLoad x.payload err x.src.agent).1, some (d.tableLoad x.payload err x.src.agent).2)

/-- TABLE_LOAD -/
def execTableLoad (x : Desc) (err : Bool) (s : State) : Host.Outcome State Fault Refusal :=
  if x.wf then .next { s with dev := devTableLoad x err s.dev } else .fault .badOperand

/-! ## Sequences (07_conversion.md R205) -/

/-- A thermistor selection of SCV `k` that a unit names under R199: position and ALT. -/
def Dev.namedSels (d : Dev) (k : Nat) : List (Nat × Bool) :=
  (((List.range 2).filter fun m => d.on (ENT_CFG.TEMP_SRC (2 * k + m))).map fun m => (24 + m, true)) ++
  ((List.range 8).filter fun j => d.on (BR_CFG.TEMP_SRC (8 * k + j))).map fun j => (24 + j, false)

/-- A selection stands in the first `len + 1` entries of a table. -/
def selIn (entry : Nat → Nat) (len : Nat) (sel : Nat × Bool) : Bool :=
  (List.range (len + 1)).any fun e => entry e % 32 == sel.1 && (entry e).testBit 30 == sel.2

/-- Entry `e` of the shadow copy of SCV `k`. -/
def Dev.shadowAt (d : Dev) (k : Nat) (shadow : List (Nat × Word)) (e : Nat) : Nat :=
  match shadow.find? fun x => x.1 == e with
  | some x => x.2.toNat
  | none => d.rd (SEQ_ENTRY.ENTRY k e)

/-- SEQ_LOAD (07_conversion.md R205). TEMP_IN_USE is judged on the table a COMMIT swaps in. A load without COMMIT that comes while PENDING is
set is not refused for what the swap then drops: R205 speaks of the committed table only (DESIGN CHOICE, log 24). -/
def Dev.seqLoad (d : Dev) (p : List Byte) (a : Nat) (t : Token) : Dev × Option Nat :=
  let k := byteAt p 0 % 8
  let first := byteAt p 1
  let n := byteAt p 2
  let commit := byteAt p 3 == 1
  let len := byteAt p 4 % 64
  let new := (List.range n).map fun j => (first + j, payWord p (8 + 4 * j))
  let bad := 8 ≤ byteAt p 0 ∨ 2 ≤ byteAt p 3 ∨ 64 ≤ leNat p 4 4 ∨ 10 < n ∨ ¬ zeroBytes p (8 + 4 * n) 47 ∨ 64 < first + n ∨
    new.any fun e => !(seqEntryOk e.2.toNat)
  let shadow := new ++ (d.SQ k).shadow.filter fun e => !(decide (first ≤ e.1 ∧ e.1 < first + n))
  let drops := commit && (d.namedSels k).any fun s =>
    selIn (fun e => d.rd (SEQ_ENTRY.ENTRY k e)) (d.rd (SEQ_CFG.LEN k)) s && !(selIn (d.shadowAt k shadow) len s)
  if bad then (d, some St.seqInvalid)
  else if d.dieOut 4 then (d, some St.linkFenced)
  else if ¬ d.owns 2 k a 1 then (d, some St.resourceNotOwned)
  else if drops then (d, some St.tempInUse)
  else
    let d := d.onSQ k fun s => { s with shadow := shadow }
    if ¬ commit then (d, some St.success)
    else
      let d := (d.wr (SEQ_STATUS.PENDING k) 1).onSQ k fun s => { s with newLen := len, loadOut := s.loadOut ++ [t] }
      let x := d.SQ k
      let idle := d.rd (SEQ_CFG.MODE k) = 0 ∨ x.pass.isNone ∨ (x.passDone ∧ x.tEnd ≤ d.now)
      (if idle then d.seqSwap k else d, none)

/-- SEQ_LOAD (07_conversion.md R205). -/
def devSeqLoad (x : Desc) (d : Dev) : Dev :=
  d.runDesc 0x1A x (some 0) false (some 1) fun d t => d.seqLoad x.payload x.src.agent t

/-- SEQ_LOAD -/
def execSeqLoad (x : Desc) (s : State) : Host.Outcome State Fault Refusal :=
  if x.wf then .next { s with dev := devSeqLoad x s.dev } else .fault .badOperand

/-! ## Packs (08_battery_estimation.md R242, R243) -/

/-- PACK_RESTORE (08_battery_estimation.md R242). -/
def Dev.packRestore (d : Dev) (p : Nat) (b : List Byte) : Dev × Nat :=
  let gen := leNat b 4 4
  if leNat b 0 2 ≠ 0x0040 ∨ 16 ≤ byteAt b 2 ∨ byteAt b 2 % 4 ≠ p ∨ byteAt b 3 ≠ 0 ∨ 2 ≤ byteAt b 32 ∨ ¬ zeroBytes b 33 47 then
    (d, St.descInvalid)
  else if ¬ d.on (SG_CFG.EN p) then (d, St.sageDisabled)
  else if ¬ d.on (SG_STATUS.PRESENT p) then (d, St.packAbsent)
  else if crc32 (b.take 24) ≠ leNat b 24 4 ∨ leNat b 28 4 ≠ 2 ^ 32 - 1 - gen then (d, St.recordCorrupt)
  else if gen < d.rd (SG_GEN.GEN p) ∧ byteAt b 32 = 0 then (d, St.generationOld)
  else
    let d := ((d.wr (SG_RSER_L.VAL p) (leNat b 8 4)).wr (SG_RPOL1_L.VAL p) (leNat b 12 4)).wr (SG_RPOL2_L.VAL p) (leNat b 16 4)
    let d := ((d.wr (SG_CAPACITY.CAP p) (leNat b 20 2)).wr (SG_GEN.GEN p) gen).wr (SG_STATUS.VOID p) (byteAt b 2 / 4 % 2)
    (d.evt (SG_EVT.EVT p) 9, St.success)

/-- PACK_RESTORE (08_battery_estimation.md R242). -/
def devPackRestore (x : Desc) (d : Dev) : Dev :=
  d.runDesc 0x30 x (some 8) true (some 3) fun d _ =>
    ((d.packRestore x.idx.toNat x.payload).1, some (d.packRestore x.idx.toNat x.payload).2)

/-- PACK_RESTORE -/
def execPackRestore (x : Desc) (s : State) : Host.Outcome State Fault Refusal :=
  if x.wf then .next { s with dev := devPackRestore x s.dev } else .fault .badOperand

/-- PACK_READ (08_battery_estimation.md R243): a record is built, and the descriptor completes once it is written. -/
def devPackRead (x : Desc) (d : Dev) : Dev :=
  d.runDesc 0x31 x (some 0) true (some 3) fun d t =>
    let p := byteAt x.payload 0
    if 4 ≤ p ∨ ¬ zeroBytes x.payload 1 47 then (d, some St.descInvalid)
    else if ¬ d.linkUp 7 then (d, some St.linkFenced)
    else ((d.sageRecord p).onSG p fun s => { s with reads := s.reads ++ [t] }, none)

/-- PACK_READ -/
def execPackRead (x : Desc) (s : State) : Host.Outcome State Fault Refusal :=
  if x.wf then .next { s with dev := devPackRead x s.dev } else .fault .badOperand

end Sys2Proof.Machine
end

