-- ==== Sys2Proof/Machine/Control.lean ====
section
/-! DEFINITION. The Mograthes instructions that branch, call, loop, wait and exchange (15_mograthes_cores.md R414-R419), and the events of
a core: the end of a wait, the completion of a stalled access, the watchdog (R401, R419, R422, R426). -/

namespace Sys2Proof.Machine

/-- The frame size of a CALL: its operand within 0-4,095; the spec states no frame for another value (R416; log 42). -/
def frameSize (b : Nat) : Act Nat := do
  if b ≤ 4095 then pure b
  else do
    let v ← look (fun d => d.freeVal)
    change fun d => d.nextFree
    pure (v % 4096)

/-- The core enters WAITING (R419, R422). -/
def Dev.waitGo (d : Dev) (c : Nat) (i : Insn) (l : Place) (m b : Nat) : Dev :=
  let now := d.coreNow c
  let w : WaitSt := { dest := (match l with | .at l => l | .imm _ => .spec 0), mask := m, limit := b, since := now,
                      len := (i.next + 2 ^ 17 - (d.K c).pc) % 2 ^ 17 }
  (d.coreGo c Ks.waiting).onK c fun x => { x with wait := some w, hostBuf := [] }

/-- An address in local data, die shared memory or hub shared memory. -/
def atomicArea (c addr : Nat) : Bool :=
  match coreArea c addr with
  | some (.mem _ _) => true
  | _ => false

/-- The operand a of an atomic operation: read and checked for its write, in one of the three memories (R418). -/
def atomic (c : Nat) (i : Insn) (p : Spec) : Act (Place × Nat) := do
  let n := tyBytes i.ty
  match ← place c i.next p n 1 with
  | .at (.mem a) =>
    if atomicArea c a then do
      let v ← load c a n
      storeCheck c a n
      pure (.at (.mem a), v % 2 ^ tyBits i.ty)
    else if a % n ≠ 0 then stop Cause.address 1 a
    else stop Cause.access 1 a
  | _ => do stop Cause.access 1 (← look (fun d => (d.K c).pc))

/-- BR: PC := target. -/
def bodyBr (c : Nat) (i : Insn) : Act Next :=
  match i.specs with
  | [pt] => do
    let t ← branchTo c i pt
    pure (.jump t)
  | _ => noShape
/-- BR -/
def devBr (c : Nat) (d : Dev) : Dev := d.insn c 0x30 (bodyBr c)
/-- BR -/
def execBr (c : Fin 21) (s : State) : Host.Outcome State Fault Refusal := .next { s with dev := devBr c.val s.dev }

/-- BC: PC := target if condition a holds (R414). -/
def bodyBc (c : Nat) (i : Insn) : Act Next :=
  match i.specs with
  | [pa, pt] => do
    let t ← branchTo c i pt
    let fl ← look (fun d => (d.K c).flags)
    pure (if codeHolds pa.f fl then .jump t else .fall)
  | _ => noShape
/-- BC -/
def devBc (c : Nat) (d : Dev) : Dev := d.insn c 0x31 (bodyBc c)
/-- BC -/
def execBc (c : Fin 21) (s : State) : Host.Outcome State Fault Refusal := .next { s with dev := devBc c.val s.dev }

/-- CALL: the link word to the new frame, and on to the target (R416); a frame size outside 0-4,095 is left open (log 42). -/
def bodyCall (c : Nat) (i : Insn) : Act Next :=
  match i.specs with
  | [pt, pn] => do
    let t ← branchTo c i pt
    let b ← source c i 1 pn
    let n ← frameSize b
    let x ← look (fun d => d.K c)
    let lim ← look (fun d => d.rd (CORE_SP_LIMIT.LIMIT c))
    let s := addrAdd x.sp.toNat (-(8 * (n + 1) : Int))
    if (x.sp.toNat : Int) - 8 * (n + 1) < lim then stop Cause.stack 2 s
    else do
      storeCheck c s 8
      store c s 8 (x.fb.toNat * 2 ^ 32 + n * 2 ^ 17 + i.next % 2 ^ 17)
      change fun d => (d.onK c fun x => { x with sp := BitVec.ofNat 32 s, fb := BitVec.ofNat 32 s }).refill c
      pure (.jump t)
  | _ => noShape
/-- CALL -/
def devCall (c : Nat) (d : Dev) : Dev := d.insn c 0x32 (bodyCall c)
/-- CALL -/
def execCall (c : Fin 21) (s : State) : Host.Outcome State Fault Refusal := .next { s with dev := devCall c.val s.dev }

/-- RET: the link word at FB read back (R416). -/
def bodyRet (c : Nat) (_i : Insn) : Act Next := do
  let fb ← look (fun d => (d.K c).fb.toNat)
  let w ← load c fb 8
  let s := (fb + 8 * (bits w 28 17 + 1)) % 2 ^ 32
  change fun d => (d.onK c fun x => { x with sp := BitVec.ofNat 32 s, fb := BitVec.ofNat 32 (w / 2 ^ 32) }).refill c
  pure (.jump (bits w 16 0))
/-- RET -/
def devRet (c : Nat) (d : Dev) : Dev := d.insn c 0x33 (bodyRet c)
/-- RET -/
def execRet (c : Fin 21) (s : State) : Host.Outcome State Fault Refusal := .next { s with dev := devRet c.val s.dev }

/-- LOOP: COUNT, START and END set up; a count of 0 skips to END (R417). -/
def bodyLoop (c : Nat) (i : Insn) : Act Next :=
  match i.specs with
  | [pa, pe] => do
    let a ← source c i 1 pa
    let e ← branchTo c i pe
    let n := (clip 0 16777215 (sv 1 a)).toNat
    change fun d => d.onK c fun x => { x with loop := loopStored (n * 2 ^ 40 + i.next % 2 ^ 17 * 2 ^ 20 + e % 2 ^ 17) }
    pure (if n = 0 then .jump e else .fall)
  | _ => noShape
/-- LOOP -/
def devLoop (c : Nat) (d : Dev) : Dev := d.insn c 0x34 (bodyLoop c)
/-- LOOP -/
def execLoop (c : Fin 21) (s : State) : Host.Outcome State Fault Refusal := .next { s with dev := devLoop c.val s.dev }

/-- RTE: FLAGS.EXC := 0 and PC := CORE_EXC_PC; with EXC = 0 it is ILLEGAL (R413, R424). -/
def bodyRte (c : Nat) (_i : Insn) : Act Next := do
  let x ← look (fun d => d.K c)
  if bit x.flags.toNat 5 then do
    let epc ← look (fun d => d.rd (CORE_EXC_PC.EPC c))
    change fun d => (d.onK c fun x => { x with flags := x.flags &&& ~~~0x20 }).refill c
    pure (.jump epc)
  else stop Cause.illegal 3 x.pc
/-- RTE -/
def devRte (c : Nat) (d : Dev) : Dev := d.insn c 0x35 (bodyRte c)
/-- RTE -/
def execRte (c : Fin 21) (s : State) : Host.Outcome State Fault Refusal := .next { s with dev := devRte c.val s.dev }

/-- WAIT: an event already pending is returned at once; otherwise the core waits (R419). -/
def bodyWait (c : Nat) (i : Insn) : Act Next :=
  match i.specs with
  | [pd, pm, pb] => do
    let l ← target c i 1 pd
    let m ← source c i 1 pm
    let b ← source c i 1 pb
    let v ← look (fun d => d.pend c &&& m)
    if v ≠ 0 then do
      waitPut c l v
      pure .fall
    else do
      change fun d => d.waitGo c i l m b
      pure .hold
  | _ => noShape
/-- WAIT -/
def devWait (c : Nat) (d : Dev) : Dev := d.insn c 0x38 (bodyWait c)
/-- WAIT -/
def execWait (c : Fin 21) (s : State) : Host.Outcome State Fault Refusal := .next { s with dev := devWait c.val s.dev }

/-- FENCE: in this model every earlier access of the core has completed (R418; log 42). -/
def bodyInsnFence (_c : Nat) (_i : Insn) : Act Next := pure .fall
/-- INSN_FENCE -/
def devInsnFence (c : Nat) (d : Dev) : Dev := d.insn c 0x39 (bodyInsnFence c)
/-- INSN_FENCE -/
def execInsnFence (c : Fin 21) (s : State) : Host.Outcome State Fault Refusal := .next { s with dev := devInsnFence c.val s.dev }

/-- SWAP: an atomic exchange of a with the second operand (R418). -/
def bodySwap (c : Nat) (i : Insn) : Act Next :=
  match i.specs with
  | [pa, pb] => do
    let (la, a) ← atomic c i pa
    let (lb, b) ← updated c i i.ty pb
    result c i.ty la b
    result c i.ty lb a
    pure .fall
  | _ => noShape
/-- SWAP -/
def devSwap (c : Nat) (d : Dev) : Dev := d.insn c 0x3A (bodySwap c)
/-- SWAP -/
def execSwap (c : Fin 21) (s : State) : Host.Outcome State Fault Refusal := .next { s with dev := devSwap c.val s.dev }

/-- ADDX: d := a and a := a + b, wrapping, atomically (R418). -/
def bodyAddx (c : Nat) (i : Insn) : Act Next :=
  match i.specs with
  | [pd, pa, pb] => do
    let l ← target c i i.ty pd
    let (la, a) ← atomic c i pa
    let b ← source c i i.ty pb
    result c i.ty la (a + b)
    result c i.ty l a
    pure .fall
  | _ => noShape
/-- ADDX -/
def devAddx (c : Nat) (d : Dev) : Dev := d.insn c 0x3B (bodyAddx c)
/-- ADDX -/
def execAddx (c : Fin 21) (s : State) : Host.Outcome State Fault Refusal := .next { s with dev := devAddx c.val s.dev }

/-! ## Events of a core -/

/-- A masked pending event wakes a waiting core (R419). One that first shows on the tick on which the WAIT's limit passes does not prevent
that wake with d := 0 (00_scope.md R8). -/
def devWaitWake (c : Nat) (d : Dev) : Dev :=
  match (d.K c).wait with
  | none => d
  | some w =>
    let v := d.pend c &&& w.mask
    if d.ks c = Ks.waiting ∧ v ≠ 0 then d.unlessLocked c fun d => d.waitEnd c w (if d.waitOver c w then 0 else v) else d
/-- WAIT_WAKE -/
def execWaitWake (c : Fin 21) (s : State) : Host.Outcome State Fault Refusal := .next { s with dev := devWaitWake c.val s.dev }

/-- A WAIT's limit of core clocks has passed without a wake: the core wakes with d := 0 (R419). -/
def devWaitTimeout (c : Nat) (d : Dev) : Dev :=
  match (d.K c).wait with
  | none => d
  | some w =>
    if d.ks c = Ks.waiting ∧ d.waitOver c w then d.unlessLocked c fun d => d.waitEnd c w 0 else d
/-- WAIT_TIMEOUT -/
def execWaitTimeout (c : Fin 21) (s : State) : Host.Outcome State Fault Refusal := .next { s with dev := devWaitTimeout c.val s.dev }

/-- The LINK exception of a host window read (R401): its record holds the host address. -/
def Dev.hostLink (d : Dev) (c addr : Nat) : Dev :=
  (d.coreGo c Ks.running).exception c Cause.link 1 addr 1 (d.hostAddr c (addr - 0x80000000))

/-- A host window read ends within its 40,000 ticks: with a value, for the stalled instruction to go on with, or with an error (R401,
R422). -/
def devAccessComplete (c : Nat) (v : Option (BitVec 64)) (d : Dev) : Dev :=
  match (d.K c).hostRd with
  | none => d
  | some (t, addr) =>
    if d.ks c ≠ Ks.waiting ∨ t + 40000 ≤ d.now then d
    else match v with
      | none => d.hostLink c addr
      | some v => (d.coreGo c Ks.running).onK c fun x => { x with hostRd := none, hostBuf := (addr, v.toNat) :: x.hostBuf }
/-- ACCESS_COMPLETE -/
def execAccessComplete (c : Fin 21) (v : Option (BitVec 64)) (s : State) : Host.Outcome State Fault Refusal :=
  .next { s with dev := devAccessComplete c.val v s.dev }

/-- A host window read has had no completion for 40,000 ticks (R401). -/
def devHostWindowTimeout (c : Nat) (d : Dev) : Dev :=
  match (d.K c).hostRd with
  | none => d
  | some (t, addr) => if d.ks c = Ks.waiting ∧ t + 40000 ≤ d.now then d.hostLink c addr else d
/-- HOST_WINDOW_TIMEOUT -/
def execHostWindowTimeout (c : Fin 21) (s : State) : Host.Outcome State Fault Refusal :=
  .next { s with dev := devHostWindowTimeout c.val s.dev }

/-- The watchdog window closes without a kick: CORE_LOCKUP is raised and the core is fenced (R426). -/
def devWatchdogExpire (c : Nat) (d : Dev) : Dev :=
  d.unlessLocked c id
/-- WATCHDOG_EXPIRE -/
def execWatchdogExpire (c : Fin 21) (s : State) : Host.Outcome State Fault Refusal :=
  .next { s with dev := devWatchdogExpire c.val s.dev }

end Sys2Proof.Machine
end

