-- ==== Sys2Proof/Machine/TwTarget.lean ====
section
/-! DEFINITION. The two-wire target: byte windows, privileged windows and the mailbox (14_two_wire.md R388-R394; log 41). -/

namespace Sys2Proof.Machine

/-! ## Windows (R388, R389) -/

/-- Block `n` hears transfers: it is a target, out of reset, and knows the bus (R381, R388). -/
def Dev.twHears (d : Dev) (n : Nat) : Bool := d.clk.hub && d.twTgt n && d.tws n != Ts.off && d.on (TW_STATUS.IDLE_SEEN n)

/-- The window that an address names: 0-3 the byte windows, 4-6 the privileged windows P0-P2 (R388). -/
def Dev.winIx (d : Dev) (n addr : Nat) : Option Nat :=
  let base := d.rd (TW_CFG.ADDR n)
  (List.range 7).find? fun k =>
    addr == base + k && (if k < 4 then d.on (TW_WIN.VALID n k) else n == 0 && d.rdBit (TW_PRIV.EN 0) (k - 4))

/-- Pointer bytes of a window. -/
def ptrLen (w : Nat) : Nat := if w < 4 then 1 else 2

/-- The pointer after a written byte (R389). -/
def nextWr (w p : Nat) : Nat := if w < 4 then (p + 1) % 256 else p / 32 * 32 + (p + 1) % 32

/-- The pointer after a byte read (R389). -/
def nextRd (w p : Nat) : Nat := if w < 4 then (p + 1) % 256 else (p + 1) % 65536

/-- Pointer `p` of window P1 names the mailbox (R391). -/
def inBox (w p : Nat) : Bool := w == 5 && decide (0x8000 ≤ p)

/-- The BAR0 offset of a pointer; none beyond the block of a privileged window (R388, R389). -/
def Dev.winOff (d : Dev) (n w p : Nat) : Option Nat :=
  if w < 4 then some (d.rd (TW_WIN.BASE n w) * 256 + p)
  else if w = 4 then (if p < 0x4000 then some (0x4000 + p) else none)
  else if w = 5 then (if p < 0x100 then some (0x1000 + p) else none)
  else if p < 0x2000 then some (0x2000 + p) else none

/-- The pointer of a window. -/
def Dev.twPtr (d : Dev) (n w : Nat) : Nat := nget (d.W n).ptr w

/-- A transfer addresses a window: the block is its target, and TW_STATUS shows the window's pointer (R376). -/
def Dev.winSeen (d : Dev) (n w : Nat) (read : Bool) : Dev :=
  let d := if d.tws n = Ts.idle ∨ d.tws n = Ts.attention then d.wr (TW_STATUS.STATE n) Ts.target else d
  (d.onW n fun x => { x with lastWin := w, reading := read, attAt := none }).wr (TW_STATUS.PTR n) (d.twPtr n w)

/-- A transfer leaves the pointer of the window it addressed. -/
def Dev.setPtr (d : Dev) (n w p : Nat) : Dev :=
  (d.onW n fun x => { x with ptr := nput x.ptr w p, lastWin := w }).wr (TW_STATUS.PTR n) p

/-- A transfer is discarded for its PEC or its form (R394). -/
def Dev.pecDrop (d : Dev) (n : Nat) : Dev := (d.bump (TW_CNT.PEC_ERR n)).evt (TW_EVT.EVT n) 5

/-! ## Writes (R390) -/

/-- The word that staged bytes of a register leave: bytes not written take the present value of RW fields, and 0 elsewhere; in hub
shared memory, the present byte. -/
def Dev.staged (d : Dev) (reg : Nat) (bs : List (Nat × Byte)) : Word :=
  let old : Nat :=
    match rowFor reg with
    | some r => (d.regWord reg &&& r.rw).toNat
    | none => if inWindow reg then ((d.readBank (windowBank reg).1 (windowBank reg).2 0x35 1 4).2.getD 0) else 0
  BitVec.ofNat 32 <| (List.range 4).foldl (fun v k =>
    v + 256 ^ k * (match bs.find? fun x => x.1 == reg + k with | some x => x.2.toNat | none => old / 256 ^ k % 256)) 0

/-- A register commits (R390); a write to a region that is out is ignored with REASON LINK (17_register_map.md R451). -/
def Dev.twCommit (d : Dev) (a : Nat) (bs : List (Nat × Byte)) : Dev :=
  match bs with
  | [] => d
  | x :: _ =>
    let reg := x.1 / 4 * 4
    match d.regWrite (BitVec.ofNat 8 a) reg (d.staged reg bs) with
    | (d, .link) => d.wign a reg 5
    | (d, _) => d

/-- Bytes commit register by register: when the byte at offset 3 is written, when the next byte lies in another register, and at the
end. -/
def Dev.commitAll (d : Dev) (a : Nat) (held : List (Nat × Byte)) : List (Nat × Byte) → Dev
  | [] => d.twCommit a held
  | x :: r =>
    if held.any fun y => y.1 / 4 != x.1 / 4 then ((d.twCommit a held).commitAll a [x] r)
    else if x.1 % 4 = 3 then (d.twCommit a (held ++ [x])).commitAll a [] r
    else d.commitAll a (held ++ [x]) r

/-- The pointers of consecutive data bytes. -/
def pointers (w p : Nat) : List Byte → List (Nat × Byte)
  | [] => []
  | b :: r => (p, b) :: pointers w (nextWr w p) r

/-- Insert a byte in address order. -/
def insertOff (x : Nat × Byte) : List (Nat × Byte) → List (Nat × Byte)
  | [] => [x]
  | y :: r => if x.1 < y.1 then x :: y :: r else y :: insertOff x r

/-- A write to the submit byte of the mailbox: 0x01 submits the descriptor unless one is BUSY (R391). -/
def Dev.submit (d : Dev) (b : Byte) : Dev :=
  if b.toNat ≠ 1 ∨ d.bmc.busy then d else Dev.takeBox { d with bmc := { d.bmc with busy := true } }

/-- One byte written to the mailbox (R391). -/
def Dev.boxWrite (d : Dev) (x : Nat × Byte) : Dev :=
  if x.1 < 0x8040 then { d with bmc := { d.bmc with box := KV.put (fun _ => 0) d.bmc.box (x.1 - 0x8000) x.2 } }
  else if x.1 = 0x8050 then d.submit x.2
  else d

/-- Data bytes go to the pointers from `p` on. `sorted` commits the registers at the end, in address order (R390, R394). -/
def Dev.putData (d : Dev) (n w p : Nat) (data : List Byte) (sorted : Bool) : Dev :=
  let ps := pointers w p data
  let offs := ps.filterMap fun x => if inBox w x.1 then none else (d.winOff n w x.1).map fun o => (o, x.2)
  let offs := if sorted then offs.foldl (fun l x => insertOff x l) [] else offs
  let d := d.commitAll (twAgent n) [] offs
  d.forL (ps.filter fun x => inBox w x.1) fun d x => d.boxWrite x

/-- The pointer after data bytes. -/
def ptrAfter (w p n : Nat) : Nat := (List.range n).foldl (fun p _ => nextWr w p) p

/-- A write transfer without PEC (R389): the pointer, then data to it. A window that is not writable leaves its first data byte
unacknowledged. -/
def Dev.plainWrite (d : Dev) (n w : Nat) (bs : List Byte) : Dev :=
  if bs.length < ptrLen w then d.busOut [] false
  else
    let p := if w < 4 then byteAt bs 0 else 256 * byteAt bs 0 + byteAt bs 1
    let data := bs.drop (ptrLen w)
    if w < 4 ∧ ¬ d.on (TW_WIN.WR n w) then (d.setPtr n w p).busOut [] (data != [])
    else ((d.putData n w p data false).setPtr n w (ptrAfter w p data.length)).busOut [] false

/-- A write transfer under PEC (R394). -/
def Dev.pecWrite (d : Dev) (n w addr : Nat) (bs : List Byte) (pec : Option Byte) : Dev :=
  let p := if w < 4 then byteAt bs 0 else 256 * byteAt bs 0 + byteAt bs 1
  let data := bs.drop (ptrLen w)
  if w < 4 ∧ ¬ d.on (TW_WIN.WR n w) ∧ data ≠ [] then d.busOut [] true
  else if 32 < data.length then (d.pecDrop n).busOut [] true
  else if bs.length < ptrLen w ∨ pec.map (·.toNat) ≠ some (crc8 0 (leBytes (2 * addr) 1 ++ bs)) then (d.pecDrop n).busOut [] false
  else ((d.putData n w p data true).setPtr n w (ptrAfter w p data.length)).busOut [] false

/-- The STOP of a transfer that a block serves: it is IDLE again on a free bus (R376, R380, R387). -/
def Dev.twServed (d : Dev) (n : Nat) : Dev :=
  if d.tws n = Ts.target then (d.wr (TW_STATUS.STATE n) Ts.idle).twHigh n true else d

/-! ## Reads (R390, R392-R394) -/

/-- A register is latched: its whole value, without the read's side effect, and whether the read has one to come (R390). -/
def Dev.peek (d : Dev) (a off : Nat) : Dev × Nat × Bool :=
  if ¬ (inSpan off ∨ inWindow off) then (d.accessFault a 1 off, 0, false)
  else if d.regOut a off false then (d, 0xFFFFFFFF, false)
  else
    let mem := if inWindow off then some (windowBank off) else (tablePlace off).map fun x => (d.tableBank x.1, x.2)
    match mem with
    | some (b, o) =>
      match d.readBank b o a 1 4 with
      | (d, some v) => (d, v, false)
      | (d, none) => (d.nextFree, d.freeVal % 2 ^ 32, false)
    | none =>
      if (rowOf off).isNone then (d, 0, false)
      else if 0x1C00 ≤ off ∧ off < 0x1E00 ∧ off % 32 = 4 then (d, (d.rqPop a ((off - 0x1C00) / 32)).2, true)
      else (d, d.liveWord a off, true)

/-- One byte of the mailbox as it reads (R391). -/
def Dev.boxByte (d : Dev) (p : Nat) : Nat :=
  if 0x8040 ≤ p ∧ p < 0x8050 then byteAt d.bmc.compl (p - 0x8040) else if p = 0x8054 then b2n d.bmc.busy else 0

/-- The device sends `k` bytes from the pointer, the last acknowledged or not: `cur` is the register latched and its value. It answers the
bytes and the pointer. -/
def Dev.sendBytes (d : Dev) (n w p : Nat) (last : Bool) (cur : Option (Nat × Nat × Bool)) : Nat → Dev × List Byte × Nat
  | 0 => (d, [], p)
  | k + 1 =>
    let acked := k != 0 || last
    let p' := if acked then nextRd w p else p
    match (if inBox w p then none else d.winOff n w p) with
    | none =>
      let b := if inBox w p then d.boxByte p else 0
      let x := d.sendBytes n w p' last none k
      (x.1, BitVec.ofNat 8 b :: x.2.1, x.2.2)
    | some off =>
      let reg := off / 4 * 4
      let held := match cur with | some c => c.1 == reg | none => false
      let l := if held then (d, (cur.getD (0, 0, false)).2) else d.peek (twAgent n) reg
      let done := off % 4 == 3 && acked
      let d := if done ∧ l.2.2 then (l.1.regRead (twAgent n) reg).1 else l.1
      let x := d.sendBytes n w p' last (if done then none else some (reg, l.2)) k
      (x.1, BitVec.ofNat 8 (l.2.1 / 256 ^ (off % 4)) :: x.2.1, x.2.2)

/-- Bytes the spec leaves open, each a free value (log 5). -/
def Dev.freeBytes (d : Dev) : Nat → Dev × List Byte
  | 0 => (d, [])
  | k + 1 =>
    let x := d.nextFree.freeBytes k
    (x.1, BitVec.ofNat 8 d.freeVal :: x.2)

/-- A read transfer without PEC. -/
def Dev.plainRead (d : Dev) (n w : Nat) (m : BusRead) : Dev :=
  let d := if m.ptr = [] then d else d.plainWrite n w m.ptr
  let x := d.sendBytes n w (d.twPtr n w) m.ackLast none m.sent
  (x.1.setPtr n w x.2.2).busOut x.2.1 false

/-- A read transfer under PEC (R394): pointer, count and PEC first; then the data bytes, the device's PEC, and 0xFF. What the device
sends in a discarded transfer is open. -/
def Dev.pecRead (d : Dev) (n w addr : Nat) (m : BusRead) : Dev :=
  let count := match m.pec with | some c => c.1.toNat | none => 0
  let head := leBytes (2 * addr) 1 ++ m.ptr ++ leBytes count 1
  let ok := m.ptr.length == ptrLen w && decide (1 ≤ count ∧ count ≤ 32) && m.pec.map (·.2.toNat) == some (crc8 0 head)
  if ¬ ok then
    let x := (d.pecDrop n).freeBytes m.sent
    x.1.busOut x.2 false
  else
    let p := if w < 4 then byteAt m.ptr 0 else 256 * byteAt m.ptr 0 + byteAt m.ptr 1
    let k := min m.sent count
    let x := d.sendBytes n w p (decide (count < m.sent) || m.ackLast) none k
    let pec := crc8 0 (head ++ leBytes (2 * addr + 1) 1 ++ x.2.1)
    let tail := (leBytes pec 1 ++ List.replicate (m.sent - k) 0xFF).take (m.sent - k)
    (x.1.setPtr n w x.2.2).busOut (x.2.1 ++ tail) false

/-- The access behind the next byte of the read that last addressed the block has not completed in 10 us: the register is sent as 0xFF
bytes with no side effect, which the controller acknowledges, and ACCESS_FAULT is raised (R389, R393). Where no register lies behind the
byte, no access is late. The delay of an access is no part of the state: the command says that it was too long (DESIGN CHOICE,
log 41). -/
def devTargetStretchTimeout (n : Nat) (d : Dev) : Dev :=
  let w := (d.W n).lastWin
  let p := d.twPtr n w
  match (if ¬ d.twHears n ∨ ¬ (d.W n).reading ∨ 6 < w ∨ inBox w p then none else d.winOff n w p) with
  | none => d
  | some off =>
    let k := 4 - off % 4
    ((d.accessFault (twAgent n) 1 off).setPtr n w ((List.range k).foldl (fun p _ => nextRd w p) p)).busOut (List.replicate k 0xFF) false

/-- TARGET_STRETCH_TIMEOUT -/
def execTargetStretchTimeout (n : Fin 16) (s : State) : Host.Outcome State Fault Refusal :=
  .next { s with dev := devTargetStretchTimeout n.val s.dev }

end Sys2Proof.Machine
end

