-- ==== Sys2Proof/Machine/Pmbus.lean ====
section
/-! DEFINITION. PMBus on TW0 (14_two_wire.md R395-R397; log 41), and the transfers to a two-wire block's target addresses
(R388). -/

namespace Sys2Proof.Machine

/-! ## Formats (R395) -/

/-- LINEAR11 of `num / den`: the smallest exponent in -16 to 15 for which the mantissa, rounded half to even, fits in 11 bits. -/
def linear11 (num : Int) (den : Nat) : Nat :=
  let man := fun (k : Nat) => divEven (num * 2 ^ (31 - k)) (den * 2 ^ 15)     -- exponent e = k - 16: num / den / 2^e
  let fits := fun k => decide (-1024 ≤ man k ∧ man k ≤ 1023)
  let k := ((List.range 32).find? fits).getD 31
  (k + 16) % 32 * 2048 + trunc 11 (clip (-1024) 1023 (man k))

/-- LINEAR16 of `num / den` at exponent `-e`. -/
def linear16 (num den e : Nat) : Nat := min 0xFFFF (divEven ((num : Int) * 2 ^ e) den).toNat

/-- What a command answers on the present page: nothing, a value, or a value the spec leaves open. -/
inductive PmbVal where
  | no
  | val (w : Nat)
  | free
  deriving DecidableEq, Repr

/-! ## Transactions (R395, R397) -/

/-- The PMBus address is answered. -/
def Dev.pmbOn (d : Dev) : Bool := d.twHears 0 && d.on (TW_PMB.PMB_EN 0)

/-- The command byte or the data byte is left unacknowledged, and CML is set (R397). -/
def Dev.pmbNack (d : Dev) : Dev := Dev.busOut { d with bmc := { d.bmc with cml := true } } [] true

/-- The address byte of the PMBus address. -/
def Dev.pmbAddr (d : Dev) (read : Bool) : List Byte := leBytes (2 * d.rd (TW_PMB.PMB_ADDR 0) + b2n read) 1

/-- The bytes before a read's data in its PEC: what the controller wrote first, if it did (R394, R395). -/
def Dev.pmbHead (d : Dev) (wrote : List Byte) : List Byte := if wrote = [] then [] else d.pmbAddr false ++ wrote

/-- A written PEC byte matches, or none was sent. -/
def Dev.pmbPecOk (d : Dev) (code : Nat) (data : List Byte) (pec : Option Byte) : Bool :=
  match pec with
  | none => true
  | some q => q.toNat == crc8 0 (d.pmbHead (leBytes code 1 ++ data))

/-- The device answers a read with `len` bytes, then the PEC byte; what lies beyond is open (R395). -/
def Dev.pmbReply (d : Dev) (wrote : List Byte) (len w reads : Nat) : Dev :=
  let data := leBytes w len
  let pec := crc8 0 (d.pmbHead wrote ++ d.pmbAddr true ++ data)
  let x := d.freeBytes (reads - (len + 1))
  x.1.busOut ((data ++ leBytes pec 1).take reads ++ x.2) false

/-- A read of `len` bytes is answered with what the command holds; one that it does not support is left unacknowledged (R397). -/
def Dev.pmbSend (d : Dev) (wrote : List Byte) (v : Nat × PmbVal) (reads : Nat) : Dev :=
  match v.2 with
  | .no => d.pmbNack
  | .val w => d.pmbReply wrote v.1 w reads
  | .free => d.nextFree.pmbReply wrote v.1 d.freeVal reads

/-- The PMBus address is addressed with a command code, which is its pointer (R376, R388). -/
def Dev.pmbIn (d : Dev) (code : Nat) : Dev := (d.winSeen 0 7 true).setPtr 0 7 code

/-- The die of the present page is out of reach. -/
def Dev.pageOut' (d : Dev) : Bool := if d.bmc.page < 64 then !(d.railLink d.bmc.page) else d.dieOut 4

/-- PAGE is written, unless it names no page or its PEC mismatches (R395, R397). -/
def Dev.pagePut (d : Dev) (v : Byte) (pec : Option Byte) : Dev :=
  if 79 < v.toNat then d.pmbNack
  else if d.pmbPecOk 0x00 [v] pec then Dev.busOut { d with bmc := { d.bmc with page := v.toNat } } [] false
  else Dev.busOut { d with bmc := { d.bmc with cml := true } } [] false

/-- CLEAR_FAULTS clears CML, unless its PEC mismatches (R395-R397). -/
def Dev.clearCml (d : Dev) (pec : Option Byte) : Dev :=
  Dev.busOut { d with bmc := { d.bmc with cml := !(d.pmbPecOk 0x03 [] pec) } } [] false

/-- What a command answers on a rail page and on an entry page. -/
def Dev.pmbPage (d : Dev) (rail entry : Nat → PmbVal) : PmbVal :=
  let v := if d.bmc.page < 64 then rail d.bmc.page else entry (d.bmc.page - 64)
  if v ≠ .no ∧ d.pageOut' then .val 0xFFFF else v

/-! ## Measured values (R395) -/

/-- A quotient as LINEAR11, open if the divisor is 0. -/
def pmbQuot (num : Int) (den : Nat) : PmbVal := if den = 0 then .free else .val (linear11 num den)

/-- READ_VIN: 4.6875 mV per code; on a rail page, of the branch that feeds the lowest-numbered warp phase. -/
def Dev.pmbVin (d : Dev) : PmbVal :=
  d.pmbPage
    (fun r => match (d.warp r).head? with
      | none => .free
      | some p => match d.phBranch p with
        | none => .free
        | some b => pmbQuot ((d.B b).vin * 46875) 10000000)
    fun n => pmbQuot ((d.E n).vin * 46875) 10000000

/-- READ_IIN: the shunt code times 75 mV / 8,192 over RSHUNT in 0.1 uOhm. -/
def Dev.pmbIin (d : Dev) : PmbVal := d.pmbPage (fun _ => .no) fun n => pmbQuot ((d.E n).i * 750000) (8192 * d.rd (ENT_SHUNT.RSHUNT n))

/-- READ_VOUT, LINEAR16: VMEAS in 31.25 uV at exponent -13, VOUT in 4.6875 mV at exponent -8. -/
def Dev.pmbVout (d : Dev) : PmbVal :=
  d.pmbPage (fun r => .val (linear16 (d.rd (RAIL_VMEAS.VMEAS r)) 32000 13)) fun n => .val (linear16 ((d.E n).vout * 46875) 10000000 8)

/-- READ_IOUT: IMEAS in 1/16 A. -/
def Dev.pmbIout (d : Dev) : PmbVal := d.pmbPage (fun r => pmbQuot (d.rds (RAIL_IMEAS.IMEAS r)) 16) fun _ => .no

/-- READ_TEMPERATURE_1: TJ_EST in 0.05 C. -/
def Dev.pmbTemp (d : Dev) : PmbVal := d.pmbPage (fun _ => .no) fun n => pmbQuot (d.rds (ENT_STATUS.TJ_EST n)) 20

/-- READ_POUT: PMEAS in 0.1 W. -/
def Dev.pmbPout (d : Dev) : PmbVal := d.pmbPage (fun r => pmbQuot (d.rd (RAIL_PMEAS.PMEAS r)) 10) fun _ => .no

/-- READ_PIN: VIN times the current of READ_IIN. -/
def Dev.pmbPin (d : Dev) : PmbVal :=
  d.pmbPage (fun _ => .no) fun n => pmbQuot ((d.E n).vin * 46875 * ((d.E n).i * 750000)) (10000000 * (8192 * d.rd (ENT_SHUNT.RSHUNT n)))

/-! ## Status (R396) -/

/-- The status bits of a rail page. -/
def Dev.railStatus (d : Dev) (r : Nat) : Nat :=
  let ov := d.rdBit (RAIL_EVT.EVT r) 3
  let oc := d.rdBit (RPH_EVT.EVT r) 3
  let uv := (d.warp r).any fun p => d.ps p == Ps.held || (d.P p).held
  let hi := 2 ^ 15 * b2n ov + 2 ^ 14 * b2n oc + 2 ^ 13 * b2n uv + 2 ^ 12 * d.rd (PH_STATUS.DEG r) +
    2 ^ 11 * b2n (!(d.on (RAIL_STATUS.PG r)))
  hi + 64 * b2n (d.rs r == Rs.off || d.rs r == Rs.fenced) + 32 * b2n ov + 16 * b2n oc + 8 * b2n uv + 2 * b2n d.bmc.cml + b2n (hi != 0)

/-- The status bits of an entry page. -/
def Dev.entryStatus (d : Dev) (n : Nat) : Nat :=
  let e := d.rd (ENT_EVT.EVT n)
  let oc := e.testBit 1 || e.testBit 3
  let uv := decide ((d.E n).vin < d.rd (ENT_VLIM.UV n))
  let on := d.rd (ENT_STATUS.STATE n) == Ec.on
  let dead := d.rd (ENT_STATUS.STATE n) == Ec.latched || d.rd (ENT_STATUS.STATE n) == Ec.fenced
  let hi := 2 ^ 14 * b2n oc + 2 ^ 13 * b2n (uv || e.testBit 5) + 2 ^ 12 * b2n dead + 2 ^ 11 * b2n (!on)
  hi + 64 * b2n (!on) + 16 * b2n oc + 8 * b2n uv + 4 * b2n (e.testBit 2) + 2 * b2n d.bmc.cml + b2n (hi != 0)

/-- STATUS_WORD of the present page. -/
def Dev.pmbStatus (d : Dev) : PmbVal := d.pmbPage (fun r => .val (d.railStatus r)) fun n => .val (d.entryStatus n)

/-- STATUS_BYTE: the low byte of STATUS_WORD. -/
def Dev.pmbStatusByte (d : Dev) : PmbVal := match d.pmbStatus with | .val w => .val (w % 256) | v => v

/-! ## The commands -/

/-- What a command reads: its length in bytes, and its value on the present page. An unlisted one is not supported (R395, R397). A die
that is out of reach answers 0xFF bytes (17_register_map.md R451). -/
def Dev.pmbVal (d : Dev) (code : Nat) : Nat × PmbVal :=
  match code with
  | 0x00 => (1, .val d.bmc.page)
  | 0x19 => (1, .val 0xC0)
  | 0x20 => (1, .val (if d.bmc.page < 64 then 0x13 else 0x18))
  | 0x78 => (1, d.pmbStatusByte)
  | 0x79 => (2, d.pmbStatus)
  | 0x88 => (2, d.pmbVin)
  | 0x89 => (2, d.pmbIin)
  | 0x8B => (2, d.pmbVout)
  | 0x8C => (2, d.pmbIout)
  | 0x8D => (2, d.pmbTemp)
  | 0x96 => (2, d.pmbPout)
  | 0x97 => (2, d.pmbPin)
  | 0x98 => (1, .val 0x44)
  | _ => (0, .no)

/-- A write to the command `code` (R395, R397): PAGE and CLEAR_FAULTS act, and one byte more is their PEC. The other commands are
only named; a data byte for one of them, and a second byte too many, is left unacknowledged (DESIGN CHOICE, log 41). -/
def Dev.pmbWrite (d : Dev) (code : Nat) (data : List Byte) : Dev :=
  match code, data with
  | 0x00, [v] => d.pagePut v none
  | 0x00, [v, q] => d.pagePut v (some q)
  | 0x03, [] => d.clearCml none
  | 0x03, [q] => d.clearCml (some q)
  | _, [] => if (d.pmbVal code).2 = .no then d.pmbNack else d.busOut [] false
  | _, _ => d.pmbNack

/-- A transfer of TW0's PMBus address by its own command: the block hears it, and its STOP ends it. -/
def Dev.pmbDo (d : Dev) (code : Nat) (f : Dev → Dev) : Dev :=
  let d := d.twLines 0 d.now
  if d.pmbOn then (f (d.pmbIn code)).twServed 0 else d.busOut [] true

/-- A read command. -/
def Dev.pmbRead (d : Dev) (code : Nat) (x : PmbTail) : Dev :=
  let v := d.pmbVal code
  d.pmbDo code fun d => d.pmbSend (leBytes code 1) v x.reads


/-- PAGE: written with `some`, read with `none`. -/
def devPage (b : Option Byte) (x : PmbTail) (d : Dev) : Dev :=
  match b with
  | none => d.pmbRead 0x00 x
  | some v => d.pmbDo 0x00 fun d => d.pagePut v x.pec
/-- PAGE -/
def execPage (b : Option Byte) (x : PmbTail) (s : State) : Host.Outcome State Fault Refusal := .next { s with dev := devPage b x s.dev }

/-- CLEAR_FAULTS (R396). -/
def devClearFaults (x : PmbTail) (d : Dev) : Dev := d.pmbDo 0x03 fun d => d.clearCml x.pec
/-- CLEAR_FAULTS -/
def execClearFaults (x : PmbTail) (s : State) : Host.Outcome State Fault Refusal := .next { s with dev := devClearFaults x s.dev }

/-- CAPABILITY -/
def devCapability (x : PmbTail) (d : Dev) : Dev := d.pmbRead 0x19 x
/-- CAPABILITY -/
def execCapability (x : PmbTail) (s : State) : Host.Outcome State Fault Refusal := .next { s with dev := devCapability x s.dev }

/-- VOUT_MODE -/
def devVoutMode (x : PmbTail) (d : Dev) : Dev := d.pmbRead 0x20 x
/-- VOUT_MODE -/
def execVoutMode (x : PmbTail) (s : State) : Host.Outcome State Fault Refusal := .next { s with dev := devVoutMode x s.dev }

/-- STATUS_BYTE -/
def devStatusByte (x : PmbTail) (d : Dev) : Dev := d.pmbRead 0x78 x
/-- STATUS_BYTE -/
def execStatusByte (x : PmbTail) (s : State) : Host.Outcome State Fault Refusal := .next { s with dev := devStatusByte x s.dev }

/-- STATUS_WORD -/
def devStatusWord (x : PmbTail) (d : Dev) : Dev := d.pmbRead 0x79 x
/-- STATUS_WORD -/
def execStatusWord (x : PmbTail) (s : State) : Host.Outcome State Fault Refusal := .next { s with dev := devStatusWord x s.dev }

/-- READ_VIN -/
def devReadVin (x : PmbTail) (d : Dev) : Dev := d.pmbRead 0x88 x
/-- READ_VIN -/
def execReadVin (x : PmbTail) (s : State) : Host.Outcome State Fault Refusal := .next { s with dev := devReadVin x s.dev }

/-- READ_IIN -/
def devReadIin (x : PmbTail) (d : Dev) : Dev := d.pmbRead 0x89 x
/-- READ_IIN -/
def execReadIin (x : PmbTail) (s : State) : Host.Outcome State Fault Refusal := .next { s with dev := devReadIin x s.dev }

/-- READ_VOUT -/
def devReadVout (x : PmbTail) (d : Dev) : Dev := d.pmbRead 0x8B x
/-- READ_VOUT -/
def execReadVout (x : PmbTail) (s : State) : Host.Outcome State Fault Refusal := .next { s with dev := devReadVout x s.dev }

/-- READ_IOUT -/
def devReadIout (x : PmbTail) (d : Dev) : Dev := d.pmbRead 0x8C x
/-- READ_IOUT -/
def execReadIout (x : PmbTail) (s : State) : Host.Outcome State Fault Refusal := .next { s with dev := devReadIout x s.dev }

/-- READ_TEMPERATURE_1 -/
def devReadTemperature1 (x : PmbTail) (d : Dev) : Dev := d.pmbRead 0x8D x
/-- READ_TEMPERATURE_1 -/
def execReadTemperature1 (x : PmbTail) (s : State) : Host.Outcome State Fault Refusal :=
  .next { s with dev := devReadTemperature1 x s.dev }

/-- READ_POUT -/
def devReadPout (x : PmbTail) (d : Dev) : Dev := d.pmbRead 0x96 x
/-- READ_POUT -/
def execReadPout (x : PmbTail) (s : State) : Host.Outcome State Fault Refusal := .next { s with dev := devReadPout x s.dev }

/-- READ_PIN -/
def devReadPin (x : PmbTail) (d : Dev) : Dev := d.pmbRead 0x97 x
/-- READ_PIN -/
def execReadPin (x : PmbTail) (s : State) : Host.Outcome State Fault Refusal := .next { s with dev := devReadPin x s.dev }

/-- PMBUS_REVISION -/
def devPmbusRevision (x : PmbTail) (d : Dev) : Dev := d.pmbRead 0x98 x
/-- PMBUS_REVISION -/
def execPmbusRevision (x : PmbTail) (s : State) : Host.Outcome State Fault Refusal := .next { s with dev := devPmbusRevision x s.dev }

/-! ## Transfers to a target address (R388) -/

/-- The address is TW0's PMBus address, and it answers. -/
def Dev.atPmb (d : Dev) (n addr : Nat) : Bool := n == 0 && d.pmbOn && addr == d.rd (TW_PMB.PMB_ADDR 0)

/-- A write transfer to the PMBus address: the command byte, then its bytes (R395). -/
def Dev.pmbPut (d : Dev) : List Byte → Dev
  | [] => d.busOut [] false
  | c :: data => (d.pmbIn c.toNat).pmbWrite c.toNat data

/-- A write transfer to block `n` (R388-R390, R394): the bytes after the address, the PEC byte apart. Without PEC it is one more data
byte. -/
def devTargetWrite (n addr : Nat) (bs : List Byte) (pec : Option Byte) (d : Dev) : Dev :=
  let d := d.twLines n d.now
  if ¬ d.twHears n then d.busOut [] true
  else match d.winIx n addr with
    | some w =>
      let d := d.winSeen n w false
      (if d.on (TW_CFG.PEC n) then d.pecWrite n w addr bs pec else d.plainWrite n w (bs ++ pec.toList)).twServed n
    | none => (if d.atPmb n addr then (d.winSeen 0 7 false).pmbPut (bs ++ pec.toList) else d.busOut [] true).twServed n

/-- TARGET_WRITE -/
def execTargetWrite (n : Fin 16) (addr : BitVec 7) (bs : List Byte) (pec : Option Byte) (s : State) : Host.Outcome State Fault Refusal :=
  .next { s with dev := devTargetWrite n.val addr.toNat bs pec s.dev }

/-- A read transfer from the PMBus address (R395): of the command named in the same combined message, else of the one last named
(R389). Data bytes written after the command's are written first. -/
def Dev.pmbGet (d : Dev) (m : BusRead) : Dev :=
  let d := d.winSeen 0 7 true
  match m.ptr with
  | [] => d.pmbSend [] (d.pmbVal (d.twPtr 0 7)) m.sent
  | [c] => (d.pmbIn c.toNat).pmbSend [c] (d.pmbVal c.toNat) m.sent
  | c :: data =>
    let d := (d.pmbIn c.toNat).pmbWrite c.toNat data
    d.pmbSend (c :: data) (d.pmbVal c.toNat) m.sent

/-- A read transfer from block `n` (R388-R394). -/
def devTargetRead (n addr : Nat) (m : BusRead) (d : Dev) : Dev :=
  let d := d.twLines n d.now
  if ¬ d.twHears n then d.busOut [] true
  else match d.winIx n addr with
    | some w =>
      let d := d.winSeen n w true
      (if d.on (TW_CFG.PEC n) then d.pecRead n w addr m else d.plainRead n w m).twServed n
    | none => (if d.atPmb n addr then d.pmbGet m else d.busOut [] true).twServed n

/-- TARGET_READ -/
def execTargetRead (n : Fin 16) (addr : BitVec 7) (m : BusRead) (s : State) : Host.Outcome State Fault Refusal :=
  .next { s with dev := devTargetRead n.val addr.toNat m s.dev }

/-- The BMC writes the submit byte of the mailbox: a write of one data byte at pointer 0x8050 of P1 (R388, R391, R394). -/
def devMailboxSubmit (b : BoxSubmit) (d : Dev) : Dev := 
  devTargetWrite 0 ((d.twLines 0 d.now).rd (TW_CFG.ADDR 0) + 5) [0x80, 0x50, b.byte] b.pec d

/-- MAILBOX_SUBMIT -/
def execMailboxSubmit (b : BoxSubmit) (s : State) : Host.Outcome State Fault Refusal := .next { s with dev := devMailboxSubmit b s.dev }

end Sys2Proof.Machine
end

