-- ==== Sys2Proof/Machine/ThreadCmds.lean ====
section
/-! DEFINITION. The thread and fence commands (12_host_rings.md R335-R347; 13_stream_link.md R368, R372). -/

namespace Sys2Proof.Machine

/-! ## The host budget (R341) -/

/-- The interval in ticks from one conversion of a table entry to the next with every slice live: the first share slot at or after
the entry's delay, 40 ticks apart (07_conversion.md R203). -/
def entryStep (w : Nat) : Nat := max 40 ((4 * bits w 27 16 + 39) / 40 * 40)

/-- The entries of the active table of SCV `k` when its passes run back to back: none otherwise. -/
def Dev.rateTable (d : Dev) (k : Nat) : List Nat :=
  if d.on (SEQ_CFG.ONCE k) then []
  else match d.rd (SEQ_CFG.MODE k) with
    | 1 => [d.seqEntry k]
    | 2 => (List.range (d.rd (SEQ_CFG.LEN k) + 1)).map fun e => d.rd (SEQ_ENTRY.ENTRY k e)
    | _ => []

/-- Conversions per second of a thermistor selection, rounded up, as the active table of its SCV gives it (R341; log 40). -/
def Dev.selRate (d : Dev) (k pos : Nat) (alt : Bool) : Nat :=
  let es := d.rateTable k
  let ticks := (es.map fun w => (bits w 15 8 + 1) * entryStep w).sum
  let n := ((es.filter fun w => w % 32 == pos && w.testBit 30 == alt).map fun w => bits w 15 8 + 1).sum
  if ticks = 0 then 0 else (800000000 * n + ticks - 1) / ticks

/-- Entries per second of a tag (R341; 07_conversion.md R183; 04_rail_loom.md R120). A quantity updated on change has no rate
(log 40). -/
def Dev.tagRate (d : Dev) (t : Nat) : Nat :=
  let i := t % 512
  match t / 512 with
  | 0 => 80000000
  | 1 => 200000000
  | 2 => 10000000
  | 3 =>
    if 256 ≤ i then d.selRate ((i - 256) / 2) (24 + i % 2) true
    else if i % 32 < 8 then 1250000
    else if i % 32 < 24 then 625000
    else d.selRate (i / 32) (i % 32) false
  | 4 => if d.icvIdle i then 0 else (800000000 + d.icvTicks i - 1) / max 1 (d.icvTicks i)
  | 5 => (match t % 8 with | 0 => 200000000 | 1 => 80000000 | 2 => 40000000 | 3 => 200000000 | 4 => 200000000 | _ => 0)
  | _ => 0

/-- Bits per entry: 32 bytes on an event ring, the native width in the archive (R341). -/
def destWidth (dest tag : Nat) : Nat := if dest = 0 then 256 else gridWidth tag

/-- The budget that a configuration commits, in bit/s, rounded up (R341; log 40). -/
def Dev.cfgRate (d : Dev) (c : List Byte) : Nat :=
  let f := byteAt c 20
  let dest := byteAt c 21 % 4
  if dest = 2 ∨ f = 4 ∨ f = 5 ∨ byteAt c 0 % 4 = 2 then 0
  else
    let sum := ((cfgTags c).map fun t => d.tagRate t * destWidth dest t).sum * (if f = 3 then 2 else 1)
    let n := if f = 0 then 1 else leNat c 24 2 + 1
    (sum + n - 1) / n

/-! ## The checks of an open (R336) -/

/-- The source of a configuration is well formed (R335). -/
def sourceOk (c : List Byte) : Bool :=
  let kind := byteAt c 0
  let first := leNat c 4 2
  let n := leNat c 6 2
  if kind = 0 then
    decide (1 ≤ byteAt c 1 ∧ byteAt c 1 ≤ 8) && (List.range 8).all (fun k => decide (leNat c (4 + 2 * k) 2 < 4096)) &&
    (cfgTags c).all tagAssigned
  else
    decide (kind ≤ 2 ∧ first < 4096 ∧ 1 ≤ n ∧ n ≤ 512) && zeroBytes c 8 19 &&
    (first / 512 == (first + n - 1) / 512) && (cfgTags c).all tagAssigned

/-- The capture fields are within their ranges (R335, R336). -/
def captureOk (c : List Byte) : Bool :=
  let src := leNat c 26 2
  let tag := leNat c 28 2
  byteAt c 20 != 5 ||
  (decide (src ≤ 2 ∧ leNat c 30 2 ≤ 1024) && leNat c 32 4 != 0 &&
    (src != 1 || (decide (tag < 4096 ∧ tag / 512 ≤ 4) && tagAssigned tag)))

/-- The archive field has the form of the archive mode (R343, R344); zero is left to the destination check. -/
def archForm (ring : Bool) (c : List Byte) : Bool :=
  if byteAt c 21 % 4 ≠ 1 then zeroBytes c 36 43
  else if ring then
    leNat c 36 2 == 0 && decide (16 ≤ byteAt c 42 ∧ byteAt c 42 ≤ 32) && byteAt c 43 == 0 || zeroBytes c 36 43
  else decide (leNat c 36 8 ≤ 1)

/-- A configuration is one R335 allows: the row THREAD_INVALID of R336. -/
def cfgOk (ring : Bool) (c : List Byte) : Bool :=
  sourceOk c && decide (byteAt c 2 < 16) && byteAt c 3 == 0 && decide (byteAt c 20 ≤ 5) &&
  decide (byteAt c 21 % 16 ≤ 2 ∧ byteAt c 21 / 16 ≤ 1) && (byteAt c 0 != 2 || decide (byteAt c 20 ≤ 1)) &&
  captureOk c && archForm ring c && zeroBytes c 44 47

/-- The destination can take the thread's output (R336, R343). -/
def Dev.destOk (d : Dev) (c : List Byte) (a : Nat) : Bool :=
  let i := leNat c 22 2
  match byteAt c 21 % 4 with
  | 0 => decide (i < 256) && d.rgState (evRing i) == Rg.active
  | 1 => i == 0 && !(zeroBytes c 36 43) && (d.mode.archMode || d.rd ARCH_PAGES.PAGES != 0)
  | _ => decide (i < 16) && d.owns 5 i a 1

/-- Pre-trigger store in units of 64 bytes. -/
def preOf (c : List Byte) : Nat := if byteAt c 20 = 5 then leNat c 30 2 else 0

/-- The checks of R336 after the first row, for thread `t` and a submitting agent. -/
def Dev.threadCheck (d : Dev) (t : Nat) (c : List Byte) (a : Nat) : Nat :=
  let others := d.openThreads.filter (· ≠ t)
  if ¬ cfgOk d.mode.archMode c then St.threadInvalid
  else if ¬ d.owns 3 (byteAt c 2) a 1 then St.resourceNotOwned
  else if ¬ d.destOk c a then St.destInvalid
  else if 32768 < (others.map fun o => preOf (d.tCfg o)).sum + preOf c then St.bufferShort
  else if d.cfgRate c ≠ 0 ∧ d.rd HOST_BW.VAL * 100000000 < (others.map fun o => (d.T o).rate).sum + d.cfgRate c then St.hostBudget
  else St.success

/-- The configuration is stored in the thread's context. -/
def Dev.putCfg (d : Dev) (t : Nat) (c : List Byte) : Dev := d.forN 12 fun d k => d.twr 0x30 (CTX.CFG32 t (4 * k)) (leNat c (4 * k) 4)

/-! ## Opening and changing (R336, R339) -/

/-- A refusal with HOST_BUDGET sets HOST_EVT bit 3, BUDGET (R314, R341). -/
def Dev.budgetNote (d : Dev) (status : Nat) : Dev := if status = St.hostBudget then d.evt HOST_EVT.EVT 3 else d

/-- THREAD_OPEN (R336). -/
def Dev.threadOpen (d : Dev) (t : Nat) (c : List Byte) (a : Nat) : Dev × Nat :=
  if d.bankGone 0x80 then (d, St.domainFenced)
  else if d.tState t ≠ 0 then (d, St.threadBusy)
  else if d.threadCheck t c a ≠ St.success then (d.budgetNote (d.threadCheck t c a), d.threadCheck t c a)
  else
    let rate := d.cfgRate c
    let d := ((((d.tabFresh (0x40000 + 0x40 * t) 64).putCfg t c).twr 0x30 (CTX.PRODUCED t) 0).twr 0x30 (CTX.DROP t) 0).twr 0x30 (CTX.LAST t) 0
    let d := (d.twr 0x30 (CTX.STATE t) (if byteAt c 20 = 5 then 2 else 1)).onT t fun _ => { rate := rate, armAt := d.now }
    (d.usedShow, St.success)

/-- THREAD_OPEN (R336). -/
def devThreadOpen (x : Desc) (d : Dev) : Dev :=
  d.runDesc 0x20 x (some 7) true none fun d _ =>
    ((d.threadOpen x.idx.toNat x.payload x.src.agent).1, some (d.threadOpen x.idx.toNat x.payload x.src.agent).2)

/-- THREAD_OPEN -/
def execThreadOpen (x : Desc) (s : State) : Host.Outcome State Fault Refusal :=
  if x.wf then .next { s with dev := devThreadOpen x s.dev } else .fault .badOperand

/-- The bytes of two configurations agree but for those THREAD_MODIFY may change (R339). -/
def sameFixed (a b : List Byte) : Bool :=
  (List.range 44).all fun k => k == 20 || (decide (24 ≤ k ∧ k < 36)) || byteAt a k == byteAt b k

/-- An accepted modify: blocks close, a partial window is discarded, and the state follows the filter (R339; 13_stream_link.md R372;
log 40). -/
def Dev.threadChange (d : Dev) (t : Nat) (c : List Byte) : Dev :=
  let rate := d.cfgRate c
  let was := d.tFilter t = 5
  let n := leNat c 24 2
  let d := (d.closeBlks t).putCfg t c
  let d := d.onT t fun x => { x with part := [], rate := rate, last := x.last.filter fun y => decide (y.2 ≤ n) }
  let d := d.usedShow
  if was ∧ byteAt c 20 ≠ 5 then
    let d := d.onT t fun x => { x with store := [] }
    (if d.tState t = 7 then d else d.twr 0x30 (CTX.STATE t) 1)
  else if ¬ was ∧ byteAt c 20 = 5 then
    let d := d.onT t fun x => { x with store := [], armAt := d.now }
    (if d.tState t = 7 then d else d.twr 0x30 (CTX.STATE t) 2)
  else d

/-- ARM (R339). -/
def Dev.threadArm (d : Dev) (t : Nat) : Dev :=
  if d.tFilter t = 5 ∧ (d.tState t = 3 ∨ d.tState t = 4) then (d.twr 0x30 (CTX.STATE t) 2).onT t fun x => { x with store := [], left := 0, armAt := d.now }
  else d

/-- THREAD_MODIFY (R339). A thread that is closing answers as a closed one (log 40). -/
def Dev.threadModify (d : Dev) (t : Nat) (p : List Byte) (a : Nat) : Dev × Nat :=
  let flags := byteAt p 44
  let c := p.take 44 ++ [0, 0, 0, 0]
  let d := d.tabRead 0x30 (0x40000 + 0x40 * t) 64
  if d.bankGone 0x80 then (d, St.domainFenced)
  else if d.tState t = 0 ∨ (d.T t).closing.isSome then (d, St.threadClosed)
  else if ¬ sameFixed p (d.tCfg t) ∨ 4 ≤ flags ∨ ¬ zeroBytes p 45 47 then (d, St.threadInvalid)
  else if d.threadCheck t c a ≠ St.success then (d.budgetNote (d.threadCheck t c a), d.threadCheck t c a)
  else
    let d := d.threadChange t c
    let d := if flags.testBit 0 then d.threadArm t else d
    let now := d.now
    (if flags.testBit 1 ∧ d.tFilter t = 5 then d.capture t now else d, St.success)

/-- THREAD_MODIFY (R339). -/
def devThreadModify (x : Desc) (d : Dev) : Dev :=
  d.runDesc 0x21 x (some 7) true none fun d _ =>
    ((d.threadModify x.idx.toNat x.payload x.src.agent).1, some (d.threadModify x.idx.toNat x.payload x.src.agent).2)

/-- THREAD_MODIFY -/
def execThreadModify (x : Desc) (s : State) : Host.Outcome State Fault Refusal :=
  if x.wf then .next { s with dev := devThreadModify x s.dev } else .fault .badOperand

/-! ## Closing (R340) -/

/-- THREAD_CLOSE: filtering stops, a partial window is discarded, and open blocks close (R340; 13_stream_link.md R372). -/
def Dev.threadClose (d : Dev) (t : Nat) (p : List Byte) (k : Token) : Dev × Option Nat :=
  if ¬ zeroPayload p then (d, some St.descInvalid)
  else if d.bankGone 0x80 then (d, some St.domainFenced)
  else if d.tState t = 0 ∨ (d.T t).closing.isSome then (d, some St.threadClosed)
  else
    let d := (d.closeBlks t).onT t fun x => { x with part := [], store := [], closing := some k }
    (d, none)

/-- THREAD_CLOSE (R340). -/
def devThreadClose (x : Desc) (d : Dev) : Dev :=
  d.runDesc 0x22 x (some 7) true none fun d t => d.threadClose x.idx.toNat x.payload t

/-- THREAD_CLOSE -/
def execThreadClose (x : Desc) (s : State) : Host.Outcome State Fault Refusal :=
  if x.wf then .next { s with dev := devThreadClose x s.dev } else .fault .badOperand

/-- Output of thread `t` still waits: a THREAD_DATA record held for its ring, or a block queued for its VC (R340; 13_stream_link.md
R372). -/
def Dev.outputWaits (d : Dev) (t : Nat) : Bool :=
  match d.tDest t with
  | 0 => (d.RG (evRing (d.tIdx t % 256))).held.any fun b => leNat b 0 2 == 0x0020 && leNat b 4 2 == t
  | 2 => (d.V (d.tIdx t % 16)).q.any fun b => b.btype != 3 && b.thread == t
  | _ => false

/-- The output of a closing thread has been written or dropped: its archive page is reported, THREAD_STATUS CLOSED is written, and the
close completes (R340, R343). -/
def devThreadCloseDone (t : Nat) (d : Dev) : Dev :=
  match (d.T t).closing with
  | none => d
  | some _ =>
    if ¬ d.clk.hub then d
    else
      let d := d.dataOut t
      if d.outputWaits t then d
      else (d.threadEnd t).usedShow

/-- THREAD_CLOSE_DONE -/
def execThreadCloseDone (t : Fin 4096) (s : State) : Host.Outcome State Fault Refusal :=
  .next { s with dev := devThreadCloseDone t.val s.dev }

/-! ## Fences (R345, R346) -/

/-- FENCE (R345, R346). -/
def Dev.fence (d : Dev) (x : Desc) (t : Token) : Dev × Option Nat :=
  let p := x.payload
  let scope := byteAt p 34
  if 4 ≤ scope ∨ ¬ zeroBytes p 35 47 then (d, some St.descInvalid)
  else
    let f : FenceSt :=
      { id := (match t with | .out i => i | _ => 0), src := x.src, tag := x.tag.toNat
        rings := (List.range 256).filter fun e => (byteAt p (e / 8)).testBit (e % 8)
        vcs := (List.range 16).filter fun v => (leNat p 32 2).testBit v
        arch := scope.testBit 0, flush := scope.testBit 1, since := d.now }
    ({ d with host := { d.host with fences := d.host.fences ++ [f] } }, none)

/-- FENCE (R346). -/
def devFence (x : Desc) (d : Dev) : Dev := d.runDesc 0x01 x (some 0) true none fun d t => d.fence x t

/-- FENCE -/
def execFence (x : Desc) (s : State) : Host.Outcome State Fault Refusal :=
  if x.wf then .next { s with dev := devFence x s.dev } else .fault .badOperand

/-- The FENCE numbered `i` changes. -/
def Dev.onFence (d : Dev) (i : Nat) (f : FenceSt → FenceSt) : Dev :=
  { d with host := { d.host with fences := d.host.fences.map fun x => if x.id = i then f x else x } }

/-- The FENCE numbered `i`. -/
def Dev.fenceAt (d : Dev) (i : Nat) : Option FenceSt := d.host.fences.find? fun x => x.id == i

/-- The wait of a FENCE ends once every earlier descriptor of its ring has completed (R346). -/
def Dev.fenceWait (d : Dev) (f : FenceSt) : Dev := d.onFence f.id fun x => { x with tw := d.fenceTick f }

/-- A thread writes to a scope of a FENCE. -/
def Dev.inScope (d : Dev) (f : FenceSt) (t : Nat) : Bool :=
  match d.tDest t with
  | 0 => f.rings.contains (d.tIdx t % 256)
  | 1 => f.arch
  | _ => f.vcs.contains (d.tIdx t % 16)

/-- At t_f the open records and blocks of the threads in scope that hold entries produced before it close, in ascending thread number (R342,
R347; 13_stream_link.md R372), and a marker is due in the output of every open archive thread. -/
def Dev.fenceCloses (d : Dev) (f : FenceSt) : Dev :=
  let ts := d.openThreads.filter fun t => d.inScope f t
  let d := d.forL ts fun d t =>
    if d.tDest t = 0 then (if (d.T t).dataAt < f.tf then d.dataOut t else d)
    else d.forL ((d.T t).blocks.filter fun b => b.since < f.tf) fun d b => d.closeBlk t b
  d.onFence f.id fun x => { x with placed := true, archs := if f.arch then ts.filter fun t => d.tDest t == 1 else [] }

/-- A FENCE places its marker in VC `v`, unless the VC's marker queue is full (13_stream_link.md R368). -/
def Dev.markerVc (d : Dev) (f : FenceSt) (v : Nat) : Dev :=
  if 64 ≤ ((d.V v).q.filter fun b => b.btype == 3).length then d
  else
    let d := d.onV v fun s => { s with q := s.q ++ [f.block 0xFFFF] }
    d.onFence f.id fun x => { x with vcs := x.vcs.filter (· ≠ v), onWire := x.onWire ++ [v] }

/-- The markers of a FENCE whose t_f has come are placed; with the stream link DOWN the FENCE completes with LINK_FENCED
(13_stream_link.md R365, R368). -/
def Dev.fencePlace (d : Dev) (f : FenceSt) : Dev :=
  if f.tw.isNone ∨ d.now < f.tf then d
  else
    let d := if f.placed then d else d.fenceCloses f
    let f := { f with placed := true }
    let d := d.forL (match d.fenceAt f.id with | some x => x.archs | none => []) fun d t => d.archMarks t
    if f.vcs ≠ [] ∧ d.ls = Ls.down then d.fenceCut f
    else
      let d := d.forL f.rings fun d e => d.markerPut f e
      d.forL f.vcs fun d v => d.markerVc f v

/-- Every FENCE goes as far as it can: its wait ends, its markers are placed, and it completes once they are written (R346). -/
def devFenceMarkerPlace (d : Dev) : Dev :=
  if ¬ d.clk.hub then d
  else
    let d := d.forL (d.host.fences.map (·.id)) fun d i => match d.fenceAt i with | some f => d.fenceWait f | none => d
    (d.forL (d.host.fences.map (·.id)) fun d i => match d.fenceAt i with | some f => d.fencePlace f | none => d).fenceEnds

/-- FENCE_MARKER_PLACE -/
def execFenceMarkerPlace (s : State) : Host.Outcome State Fault Refusal := .next { s with dev := devFenceMarkerPlace s.dev }

end Sys2Proof.Machine
end

