-- ==== Sys2Proof/Machine/Dispatch.lean ====
section
/-! DEFINITION. The meaning of every command: one arm per constructor, each one direct call of its meaning. -/

namespace Sys2Proof.Machine

def exec (i : Instr) (s : State) : Host.Outcome State Fault Refusal :=
  match i with
  | .nop d => Sys2Proof.Machine.execNop d s
  | .fence d => Sys2Proof.Machine.execFence d s
  | .fenceMarkerPlace => Sys2Proof.Machine.execFenceMarkerPlace s
  | .modeRequestConfigure q => Sys2Proof.Machine.execModeRequestConfigure q s
  | .modeRequestRamp q => Sys2Proof.Machine.execModeRequestRamp q s
  | .modeRequestRun q => Sys2Proof.Machine.execModeRequestRun q s
  | .modeRequestSafe q => Sys2Proof.Machine.execModeRequestSafe q s
  | .modeRequestClearSafe q => Sys2Proof.Machine.execModeRequestClearSafe q s
  | .timeAlign d => Sys2Proof.Machine.execTimeAlign d s
  | .timeAlignTimeout => Sys2Proof.Machine.execTimeAlignTimeout s
  | .resClaim d => Sys2Proof.Machine.execResClaim d s
  | .resRelease d => Sys2Proof.Machine.execResRelease d s
  | .railSet d => Sys2Proof.Machine.execRailSet d s
  | .railEnable d => Sys2Proof.Machine.execRailEnable d s
  | .railDisable d => Sys2Proof.Machine.execRailDisable d s
  | .phaseMask d => Sys2Proof.Machine.execPhaseMask d s
  | .coefLoad d => Sys2Proof.Machine.execCoefLoad d s
  | .fusePolicyLoad d => Sys2Proof.Machine.execFusePolicyLoad d s
  | .tableLoad d err => Sys2Proof.Machine.execTableLoad d err s
  | .seqLoad d => Sys2Proof.Machine.execSeqLoad d s
  | .threadOpen d => Sys2Proof.Machine.execThreadOpen d s
  | .threadModify d => Sys2Proof.Machine.execThreadModify d s
  | .threadClose d => Sys2Proof.Machine.execThreadClose d s
  | .threadCloseDone t => Sys2Proof.Machine.execThreadCloseDone t s
  | .unfence d => Sys2Proof.Machine.execUnfence d s
  | .faultAck d => Sys2Proof.Machine.execFaultAck d s
  | .packRestore d => Sys2Proof.Machine.execPackRestore d s
  | .packRead d => Sys2Proof.Machine.execPackRead d s
  | .descriptorFetch => Sys2Proof.Machine.execDescriptorFetch s
  | .descFetchTimeout r => Sys2Proof.Machine.execDescFetchTimeout r s
  | .descFetchError r => Sys2Proof.Machine.execDescFetchError r s
  | .completionRetire r => Sys2Proof.Machine.execCompletionRetire r s
  | .eventRecordWrite e => Sys2Proof.Machine.execEventRecordWrite e s
  | .itrWindowClose r => Sys2Proof.Machine.execItrWindowClose r s
  | .ringStall r => Sys2Proof.Machine.execRingStall r s
  | .ringEnable a r => Sys2Proof.Machine.execRingEnable a r s
  | .ringDisable a r => Sys2Proof.Machine.execRingDisable a r s
  | .ringDrained r => Sys2Proof.Machine.execRingDrained r s
  | .doorbellCommand w => Sys2Proof.Machine.execDoorbellCommand w s
  | .doorbellCompletion w => Sys2Proof.Machine.execDoorbellCompletion w s
  | .doorbellEvent w => Sys2Proof.Machine.execDoorbellEvent w s
  | .doorbellArchive w => Sys2Proof.Machine.execDoorbellArchive w s
  | .doorbellThread w => Sys2Proof.Machine.execDoorbellThread w s
  | .irDb a c v => Sys2Proof.Machine.execIrDb a c v s
  | .heartbeat => Sys2Proof.Machine.execHeartbeat s
  | .hostLinkDown => Sys2Proof.Machine.execHostLinkDown s
  | .threadDataFlush t => Sys2Proof.Machine.execThreadDataFlush t s
  | .rqEntry e => Sys2Proof.Machine.execRqEntry e s
  | .rqPop a k => Sys2Proof.Machine.execRqPop a k s
  | .thymeLoRead a => Sys2Proof.Machine.execThymeLoRead a s
  | .registerReadClear a off => Sys2Proof.Machine.execRegisterReadClear a off s
  | .registerWrite a off v enable => Sys2Proof.Machine.execRegisterWrite a off v enable s
  | .modeUnlock a v => Sys2Proof.Machine.execModeUnlock a v s
  | .modeReset a v st => Sys2Proof.Machine.execModeReset a v st s
  | .bootCtlGo a => Sys2Proof.Machine.execBootCtlGo a s
  | .fltSafeClr a => Sys2Proof.Machine.execFltSafeClr a s
  | .calStart a c => Sys2Proof.Machine.execCalStart a c s
  | .seqCtlTrig a k => Sys2Proof.Machine.execSeqCtlTrig a k s
  | .injReq a k v => Sys2Proof.Machine.execInjReq a k v s
  | .ipCtlRestore a n => Sys2Proof.Machine.execIpCtlRestore a n s
  | .twXctlGo a n v => Sys2Proof.Machine.execTwXctlGo a n v s
  | .twAlertReq a n => Sys2Proof.Machine.execTwAlertReq a n s
  | .fltInjFire a => Sys2Proof.Machine.execFltInjFire a s
  | .faultInjection => Sys2Proof.Machine.execFaultInjection s
  | .coreCtlHalt a c => Sys2Proof.Machine.execCoreCtlHalt a c s
  | .coreCtlStart a c => Sys2Proof.Machine.execCoreCtlStart a c s
  | .coreKick a c v => Sys2Proof.Machine.execCoreKick a c v s
  | .coreSignal a c => Sys2Proof.Machine.execCoreSignal a c s
  | .memTake a b => Sys2Proof.Machine.execMemTake a b s
  | .memRawRead a => Sys2Proof.Machine.execMemRawRead a s
  | .memRawWrite a => Sys2Proof.Machine.execMemRawWrite a s
  | .regWriteRecord => Sys2Proof.Machine.execRegWriteRecord s
  | .regBlockRecord => Sys2Proof.Machine.execRegBlockRecord s
  | .claimRecord => Sys2Proof.Machine.execClaimRecord s
  | .coreSectionRecord => Sys2Proof.Machine.execCoreSectionRecord s
  | .bootLoad flash => Sys2Proof.Machine.execBootLoad flash s
  | .imageCheck => Sys2Proof.Machine.execImageCheck s
  | .imageApplied => Sys2Proof.Machine.execImageApplied s
  | .vstbyRise => Sys2Proof.Machine.execVstbyRise s
  | .vstbyLoss => Sys2Proof.Machine.execVstbyLoss s
  | .mainSupplyFail => Sys2Proof.Machine.execMainSupplyFail s
  | .suppliesGood st => Sys2Proof.Machine.execSuppliesGood st s
  | .resetN st => Sys2Proof.Machine.execResetN st s
  | .pePerstN => Sys2Proof.Machine.execPePerstN s
  | .safeDelayExpire => Sys2Proof.Machine.execSafeDelayExpire s
  | .entryOn => Sys2Proof.Machine.execEntryOn s
  | .branchOn => Sys2Proof.Machine.execBranchOn s
  | .railOn => Sys2Proof.Machine.execRailOn s
  | .delay => Sys2Proof.Machine.execDelay s
  | .seqDelayExpire => Sys2Proof.Machine.execSeqDelayExpire s
  | .waitEntry => Sys2Proof.Machine.execWaitEntry s
  | .waitBranch => Sys2Proof.Machine.execWaitBranch s
  | .waitPg => Sys2Proof.Machine.execWaitPg s
  | .waitRailOff => Sys2Proof.Machine.execWaitRailOff s
  | .seqWaitDone => Sys2Proof.Machine.execSeqWaitDone s
  | .seqWaitTimeout => Sys2Proof.Machine.execSeqWaitTimeout s
  | .entryOff => Sys2Proof.Machine.execEntryOff s
  | .branchOff => Sys2Proof.Machine.execBranchOff s
  | .railOff => Sys2Proof.Machine.execRailOff s
  | .seqEnd => Sys2Proof.Machine.execSeqEnd s
  | .holdupStageShed st => Sys2Proof.Machine.execHoldupStageShed st s
  | .restoreStage => Sys2Proof.Machine.execRestoreStage s
  | .ecvSample n m => Sys2Proof.Machine.execEcvSample n m s
  | .entScTrip n => Sys2Proof.Machine.execEntScTrip n s
  | .entOcTrip n => Sys2Proof.Machine.execEntOcTrip n s
  | .entInrushTime n => Sys2Proof.Machine.execEntInrushTime n s
  | .entOvTrip n => Sys2Proof.Machine.execEntOvTrip n s
  | .entCutoff n => Sys2Proof.Machine.execEntCutoff n s
  | .entQualify n => Sys2Proof.Machine.execEntQualify n s
  | .entInrushDone n => Sys2Proof.Machine.execEntInrushDone n s
  | .entGateEnhanced n => Sys2Proof.Machine.execEntGateEnhanced n s
  | .entBlock n => Sys2Proof.Machine.execEntBlock n s
  | .entBlockReturn n => Sys2Proof.Machine.execEntBlockReturn n s
  | .entArm n => Sys2Proof.Machine.execEntArm n s
  | .entShare n => Sys2Proof.Machine.execEntShare n s
  | .holdupEngage n => Sys2Proof.Machine.execHoldupEngage n s
  | .holdupExit => Sys2Proof.Machine.execHoldupExit s
  | .keepEnter => Sys2Proof.Machine.execKeepEnter s
  | .keepTrip u => Sys2Proof.Machine.execKeepTrip u s
  | .keepExpire => Sys2Proof.Machine.execKeepExpire s
  | .keepRelease => Sys2Proof.Machine.execKeepRelease s
  | .retryDelayExpire u => Sys2Proof.Machine.execRetryDelayExpire u s
  | .coolTimeout u => Sys2Proof.Machine.execCoolTimeout u s
  | .countClear u => Sys2Proof.Machine.execCountClear u s
  | .brSample n cur vin vout => Sys2Proof.Machine.execBrSample n cur vin vout s
  | .brFastTrip n => Sys2Proof.Machine.execBrFastTrip n s
  | .brOcTrip n => Sys2Proof.Machine.execBrOcTrip n s
  | .brSsTime n => Sys2Proof.Machine.execBrSsTime n s
  | .brOvTrip n => Sys2Proof.Machine.execBrOvTrip n s
  | .brRevTrip n => Sys2Proof.Machine.execBrRevTrip n s
  | .brPwrTrip n => Sys2Proof.Machine.execBrPwrTrip n s
  | .brQualify n => Sys2Proof.Machine.execBrQualify n s
  | .brSoftstartDone n => Sys2Proof.Machine.execBrSoftstartDone n s
  | .branchDownArrive n => Sys2Proof.Machine.execBranchDownArrive n s
  | .dependDisable n e => Sys2Proof.Machine.execDependDisable n e s
  | .rvcSample r code => Sys2Proof.Machine.execRvcSample r code s
  | .pccSample p code => Sys2Proof.Machine.execPccSample p code s
  | .dutyApply r => Sys2Proof.Machine.execDutyApply r s
  | .switchingPeriodBoundary r => Sys2Proof.Machine.execSwitchingPeriodBoundary r s
  | .catchUndershoot v => Sys2Proof.Machine.execCatchUndershoot v s
  | .catchOvershoot v => Sys2Proof.Machine.execCatchOvershoot v s
  | .catchRelease v ovs => Sys2Proof.Machine.execCatchRelease v ovs s
  | .catchExpired r => Sys2Proof.Machine.execCatchExpired r s
  | .sense r => Sys2Proof.Machine.execSense r s
  | .railOv v => Sys2Proof.Machine.execRailOv v s
  | .railUv r => Sys2Proof.Machine.execRailUv r s
  | .errorModeSwitch r => Sys2Proof.Machine.execErrorModeSwitch r s
  | .rerangeDone r => Sys2Proof.Machine.execRerangeDone r s
  | .startTimeout r => Sys2Proof.Machine.execStartTimeout r s
  | .pgAssert r => Sys2Proof.Machine.execPgAssert r s
  | .pgDeassert r => Sys2Proof.Machine.execPgDeassert r s
  | .railOc r => Sys2Proof.Machine.execRailOc r s
  | .phFuse p => Sys2Proof.Machine.execPhFuse p s
  | .phStage p => Sys2Proof.Machine.execPhStage p s
  | .phOc p => Sys2Proof.Machine.execPhOc p s
  | .phNeg p => Sys2Proof.Machine.execPhNeg p s
  | .phHot p => Sys2Proof.Machine.execPhHot p s
  | .phImonRange p => Sys2Proof.Machine.execPhImonRange p s
  | .phShare p => Sys2Proof.Machine.execPhShare p s
  | .tfltSample p uv => Sys2Proof.Machine.execTfltSample p uv s
  | .hello n f => Sys2Proof.Machine.execHello n f s
  | .stepFrame n f => Sys2Proof.Machine.execStepFrame n f s
  | .vidFrame n f => Sys2Proof.Machine.execVidFrame n f s
  | .stateFrame n f => Sys2Proof.Machine.execStateFrame n f s
  | .intentFrameBad n => Sys2Proof.Machine.execIntentFrameBad n s
  | .intentSilent n => Sys2Proof.Machine.execIntentSilent n s
  | .intentFrameSend n => Sys2Proof.Machine.execIntentFrameSend n s
  | .current n => Sys2Proof.Machine.execCurrent n s
  | .specPrechargeStart r => Sys2Proof.Machine.execSpecPrechargeStart r s
  | .specPrechargeEnd r => Sys2Proof.Machine.execSpecPrechargeEnd r s
  | .retract r => Sys2Proof.Machine.execRetract r s
  | .wakeHoldEnd r => Sys2Proof.Machine.execWakeHoldEnd r s
  | .correctionUpdate c es => Sys2Proof.Machine.execCorrectionUpdate c es s
  | .sliceDrift c k => Sys2Proof.Machine.execSliceDrift c k s
  | .calSliceEnd c m => Sys2Proof.Machine.execCalSliceEnd c m s
  | .scvConversion k slot code => Sys2Proof.Machine.execScvConversion k slot code s
  | .seqPassEnd k => Sys2Proof.Machine.execSeqPassEnd k s
  | .injResult k => Sys2Proof.Machine.execInjResult k s
  | .icvPeriodEnd n code ovr => Sys2Proof.Machine.execIcvPeriodEnd n code ovr s
  | .tempStale u => Sys2Proof.Machine.execTempStale u s
  | .packInsert p => Sys2Proof.Machine.execPackInsert p s
  | .sageSettlingEnd p => Sys2Proof.Machine.execSageSettlingEnd p s
  | .packRemove p => Sys2Proof.Machine.execPackRemove p s
  | .sageTempStale p => Sys2Proof.Machine.execSageTempStale p s
  | .restPoint p => Sys2Proof.Machine.execRestPoint p s
  | .forcedEmpty p => Sys2Proof.Machine.execForcedEmpty p s
  | .impQualify p => Sys2Proof.Machine.execImpQualify p s
  | .impMeasureEnd p => Sys2Proof.Machine.execImpMeasureEnd p s
  | .sageRecordBuild p => Sys2Proof.Machine.execSageRecordBuild p s
  | .sageRecordWrite p => Sys2Proof.Machine.execSageRecordWrite p s
  | .faultOccurrence => Sys2Proof.Machine.execFaultOccurrence s
  | .mergeWindowClose k => Sys2Proof.Machine.execMergeWindowClose k s
  | .lockstep => Sys2Proof.Machine.execLockstep s
  | .clkRoot cause => Sys2Proof.Machine.execClkRoot cause s
  | .thymeBroadcast b => Sys2Proof.Machine.execThymeBroadcast b s
  | .ppsEdge => Sys2Proof.Machine.execPpsEdge s
  | .ppsWindowMiss => Sys2Proof.Machine.execPpsWindowMiss s
  | .timerFire t => Sys2Proof.Machine.execTimerFire t s
  | .regionSample k m => Sys2Proof.Machine.execRegionSample k m s
  | .regionFault k => Sys2Proof.Machine.execRegionFault k s
  | .linkLost l => Sys2Proof.Machine.execLinkLost l s
  | .linkError l => Sys2Proof.Machine.execLinkError l s
  | .linkReturn l => Sys2Proof.Machine.execLinkReturn l s
  | .flitSlot => Sys2Proof.Machine.execFlitSlot s
  | .codewordReceive n m => Sys2Proof.Machine.execCodewordReceive n m s
  | .peerCtrl pay => Sys2Proof.Machine.execPeerCtrl pay s
  | .peerTrain pay => Sys2Proof.Machine.execPeerTrain pay s
  | .linkUp => Sys2Proof.Machine.execLinkUp s
  | .trainTimeout => Sys2Proof.Machine.execTrainTimeout s
  | .streamPeer => Sys2Proof.Machine.execStreamPeer s
  | .streamLane n => Sys2Proof.Machine.execStreamLane n s
  | .blockFlush t tag => Sys2Proof.Machine.execBlockFlush t tag s
  | .decimationChange v => Sys2Proof.Machine.execDecimationChange v s
  | .twTimeout n => Sys2Proof.Machine.execTwTimeout n s
  | .idleSeen n => Sys2Proof.Machine.execIdleSeen n s
  | .sdaFall l => Sys2Proof.Machine.execSdaFall l s
  | .attention n => Sys2Proof.Machine.execAttention n s
  | .busClear n => Sys2Proof.Machine.execBusClear n s
  | .busClearEnd n pulses sda => Sys2Proof.Machine.execBusClearEnd n pulses sda s
  | .busHeld n => Sys2Proof.Machine.execBusHeld n s
  | .alertResponseRead n ans => Sys2Proof.Machine.execAlertResponseRead n ans s
  | .attentionSignal n => Sys2Proof.Machine.execAttentionSignal n s
  | .alertResponse n won => Sys2Proof.Machine.execAlertResponse n won s
  | .transferStart n => Sys2Proof.Machine.execTransferStart n s
  | .transferEnd n m => Sys2Proof.Machine.execTransferEnd n m s
  | .arbLost n addr => Sys2Proof.Machine.execArbLost n addr s
  | .targetWrite n addr bs pec => Sys2Proof.Machine.execTargetWrite n addr bs pec s
  | .targetRead n addr m => Sys2Proof.Machine.execTargetRead n addr m s
  | .targetStretchTimeout n => Sys2Proof.Machine.execTargetStretchTimeout n s
  | .mailboxSubmit b => Sys2Proof.Machine.execMailboxSubmit b s
  | .roleChange n => Sys2Proof.Machine.execRoleChange n s
  | .page b x => Sys2Proof.Machine.execPage b x s
  | .clearFaults x => Sys2Proof.Machine.execClearFaults x s
  | .capability x => Sys2Proof.Machine.execCapability x s
  | .voutMode x => Sys2Proof.Machine.execVoutMode x s
  | .statusByte x => Sys2Proof.Machine.execStatusByte x s
  | .statusWord x => Sys2Proof.Machine.execStatusWord x s
  | .readVin x => Sys2Proof.Machine.execReadVin x s
  | .readIin x => Sys2Proof.Machine.execReadIin x s
  | .readVout x => Sys2Proof.Machine.execReadVout x s
  | .readIout x => Sys2Proof.Machine.execReadIout x s
  | .readTemperature1 x => Sys2Proof.Machine.execReadTemperature1 x s
  | .readPout x => Sys2Proof.Machine.execReadPout x s
  | .readPin x => Sys2Proof.Machine.execReadPin x s
  | .pmbusRevision x => Sys2Proof.Machine.execPmbusRevision x s
  | .insnNop c => Sys2Proof.Machine.execInsnNop c s
  | .mov c => Sys2Proof.Machine.execMov c s
  | .wid c => Sys2Proof.Machine.execWid c s
  | .sxt c => Sys2Proof.Machine.execSxt c s
  | .zxt c => Sys2Proof.Machine.execZxt c s
  | .add c => Sys2Proof.Machine.execAdd c s
  | .sub c => Sys2Proof.Machine.execSub c s
  | .mul c => Sys2Proof.Machine.execMul c s
  | .imul c => Sys2Proof.Machine.execImul c s
  | .mac c => Sys2Proof.Machine.execMac c s
  | .msu c => Sys2Proof.Machine.execMsu c s
  | .sat c => Sys2Proof.Machine.execSat c s
  | .abs c => Sys2Proof.Machine.execAbs c s
  | .neg c => Sys2Proof.Machine.execNeg c s
  | .asl c => Sys2Proof.Machine.execAsl c s
  | .asr c => Sys2Proof.Machine.execAsr c s
  | .lsr c => Sys2Proof.Machine.execLsr c s
  | .min c => Sys2Proof.Machine.execMin c s
  | .max c => Sys2Proof.Machine.execMax c s
  | .lim c => Sys2Proof.Machine.execLim c s
  | .cmp c => Sys2Proof.Machine.execCmp c s
  | .tst c => Sys2Proof.Machine.execTst c s
  | .and c => Sys2Proof.Machine.execAnd c s
  | .or c => Sys2Proof.Machine.execOr c s
  | .xor c => Sys2Proof.Machine.execXor c s
  | .not c => Sys2Proof.Machine.execNot c s
  | .bset c => Sys2Proof.Machine.execBset c s
  | .bclr c => Sys2Proof.Machine.execBclr c s
  | .btst c => Sys2Proof.Machine.execBtst c s
  | .br c => Sys2Proof.Machine.execBr c s
  | .bc c => Sys2Proof.Machine.execBc c s
  | .call c => Sys2Proof.Machine.execCall c s
  | .ret c => Sys2Proof.Machine.execRet c s
  | .loop c => Sys2Proof.Machine.execLoop c s
  | .rte c => Sys2Proof.Machine.execRte c s
  | .wait c => Sys2Proof.Machine.execWait c s
  | .insnFence c => Sys2Proof.Machine.execInsnFence c s
  | .swap c => Sys2Proof.Machine.execSwap c s
  | .addx c => Sys2Proof.Machine.execAddx c s
  | .divs c => Sys2Proof.Machine.execDivs c s
  | .waitWake c => Sys2Proof.Machine.execWaitWake c s
  | .waitTimeout c => Sys2Proof.Machine.execWaitTimeout c s
  | .accessComplete c v => Sys2Proof.Machine.execAccessComplete c v s
  | .hostWindowTimeout c => Sys2Proof.Machine.execHostWindowTimeout c s
  | .watchdogExpire c => Sys2Proof.Machine.execWatchdogExpire c s
  | .scrubVisit r => Sys2Proof.Machine.execScrubVisit r s
  | .initDone bad => Sys2Proof.Machine.execInitDone bad s
  | .bankCopyDone b => Sys2Proof.Machine.execBankCopyDone b s
  | .refclkReturn st => Sys2Proof.Machine.execRefclkReturn st s
  | .rootPllLock => Sys2Proof.Machine.execRootPllLock s
  | .attentionHoldEnd n => Sys2Proof.Machine.execAttentionHoldEnd n s
  | .sdaRise l => Sys2Proof.Machine.execSdaRise l s

end Sys2Proof.Machine
end

