-- ==== Sys2Proof/Machine/Tick.lean ====
section
/-! DEFINITION. What passes on an empty queue: one tick of the clocks that run, and the interrupt summary's vector (log 2). -/

namespace Sys2Proof.Machine

/-- One edge of the clocks (11_clocks_time.md R298, R300; log 2): Thyme, and the standby oscillator once in 50 ticks, or, while the hub
is absent or the root clock is lost, a cycle of the standby oscillator alone. Without VSTBY nothing runs. -/
def Dev.clockEdge (d : Dev) : Dev :=
  if d.md = Md.off then d
  else if d.clk.hub ∧ ¬ d.clk.rootLost then
    let t := (d.clk.now + 1) % 2 ^ 64
    { d with clk := { d.clk with now := t, ent := d.clk.ent + 1, sb := if t % 50 = 0 then d.clk.sb + 1 else d.clk.sb } }
  else { d with clk := { d.clk with ent := d.clk.ent + 50, sb := d.clk.sb + 1 } }

/-- The vector of the interrupt summary: on a tick on which some bit of SUM AND EN goes from 0 to 1 (17_register_map.md R455). -/
def Dev.sumVector (d : Dev) : Dev :=
  if d.clk.hub ∧ ¬ d.clk.rootLost then
    let on := d.sumBits &&& d.rd DEV_IRQ_EN.EN
    let new := on &&& (0xFF - d.host.sumPrev % 256)
    let d := { d with host := { d.host with sumPrev := on } }
    if new ≠ 0 then d.raiseVec (d.rd HOST_CTL.SUM_VECTOR) else d
  else d

/-- One tick (log 2). -/
def devTick (d : Dev) : Dev := d.clockEdge.sumVector

end Sys2Proof.Machine
end

