-- ==== Sys2Proof/Safety.lean ====
section
/-! DEFINITION. What the statements call a good state of the block. -/

namespace Sys2Proof.Machine

/-- Every waiting command is well formed. -/
def State.queueWf (s : State) : Prop := ∀ c ∈ s.pending, c.wf = true

/-- The command completes: exec answers a next state whose queue is what it was, and whose block satisfies `P`. -/
def Does (i : Instr) (s : State) (P : Dev → Prop) : Prop := ∃ t, exec i s = .next t ∧ t.pending = s.pending ∧ P t.dev

/-- A fault message of a kind and a unit is on its way to the selvage: among the messages that wait there, or in the queue of its die,
unless that queue of 32 is full (09_faults.md R259). -/
def Dev.Reports (d : Dev) (kind unit : Nat) : Prop :=
  (∃ m ∈ d.flt.msgs, m.kind = kind ∧ m.unit = unit) ∨
  (∃ die, dieOf kind unit = some die ∧
    ((∃ m ∈ KV.get (fun _ => []) d.flt.dieQ die, m.kind = kind ∧ m.unit = unit) ∨
     32 ≤ (KV.get (fun _ => []) d.flt.dieQ die).length))

/-- The policy of unit `u` latches on cause `c` with the retry count as it stands (03_branch_fuses.md R73). -/
def Dev.latchesOn (d : Dev) (u c : Nat) : Bool :=
  d.rdBit (POL0.LATCH_NOW (d.unitPol u)) c ||
  (d.rd (POL0.RETRY_MAX (d.unitPol u)) != 15 && decide (d.rd (POL0.RETRY_MAX (d.unitPol u)) ≤ d.rd (RETRY_STAT.RETRY_CNT u)))

/-- A descriptor has completed with a status: it stands among the outstanding descriptors with that result, of the present tick
(12_host_rings.md R322, R323). -/
abbrev Dev.Answered (d : Dev) (x : Desc) (st : Nat) : Prop := ∃ o ∈ d.host.out, o.d = x ∧ o.result = some (st, d.now)

/-- A descriptor has begun and waits for its completion (12_host_rings.md R322). -/
abbrev Dev.Waits (d : Dev) (x : Desc) : Prop := ∃ o ∈ d.host.out, o.d = x ∧ o.begun = true ∧ o.result = none

/-- A descriptor passes the screens that every opcode shares: it is well formed, no bit that must be 0 is set, its target exists and is of
the class that the opcode names, the mode is not SAFE unless the opcode is accepted there, its agent may command the domain, and the die of
its target is in reach (12_host_rings.md R320, R321; 10_modes_startup.md R290, R293; 09_faults.md R260). -/
def Dev.passes (d : Dev) (x : Desc) (want : Option Nat) (safeOk : Bool) (dom : Option Nat) : Bool :=
  x.wf && !x.dirty && targetOk want x.cls.toNat x.idx.toNat && (d.md != Md.safe || safeOk) &&
  (match dom with | some k => d.mayCommand k x.src.agent | none => true) && !(d.targetOut x.cls.toNat x.idx.toNat)

/-- A part of an instruction comes to its end on a state, with a value and a working state (15_mograthes_cores.md R424). -/
abbrev Gives {α : Type} (m : Act α) (d : Dev) (a : α) (e : Dev) : Prop := (m d).toOption = some (a, e)

/-- The parts of the block: one for each field of `Dev`. -/
inductive Part where
  | regs
  | clk
  | mode
  | ent
  | br
  | retry
  | rail
  | ph
  | port
  | conv
  | scv
  | icv
  | sage
  | slot
  | ring
  | thr
  | rq
  | rqHi
  | rqHead
  | host
  | vc
  | stream
  | tw
  | bmc
  | core
  | mem
  | flt
  | keep
  | link
  | hw
  | stg
  | hostMem
  deriving DecidableEq, Repr

/-- Two blocks agree in a part. -/
def Part.same (p : Part) (d e : Dev) : Prop :=
  match p with
  | .regs => d.regs = e.regs
  | .clk => d.clk = e.clk
  | .mode => d.mode = e.mode
  | .ent => d.ent = e.ent
  | .br => d.br = e.br
  | .retry => d.retry = e.retry
  | .rail => d.rail = e.rail
  | .ph => d.ph = e.ph
  | .port => d.port = e.port
  | .conv => d.conv = e.conv
  | .scv => d.scv = e.scv
  | .icv => d.icv = e.icv
  | .sage => d.sage = e.sage
  | .slot => d.slot = e.slot
  | .ring => d.ring = e.ring
  | .thr => d.thr = e.thr
  | .rq => d.rq = e.rq
  | .rqHi => d.rqHi = e.rqHi
  | .rqHead => d.rqHead = e.rqHead
  | .host => d.host = e.host
  | .vc => d.vc = e.vc
  | .stream => d.stream = e.stream
  | .tw => d.tw = e.tw
  | .bmc => d.bmc = e.bmc
  | .core => d.core = e.core
  | .mem => d.mem = e.mem
  | .flt => d.flt = e.flt
  | .keep => d.keep = e.keep
  | .link => d.link = e.link
  | .hw => d.hw = e.hw
  | .stg => d.stg = e.stg
  | .hostMem => d.host.mem = e.host.mem

/-- The word of a register. -/
def oneWord (f : Fld) (off : Nat) : Prop := off = f.off
/-- The words of a register, in every instance. -/
def eachWord (f : Nat → Fld) (off : Nat) : Prop := ∃ n, off = (f n).off
/-- The words of an array register, in every instance. -/
def arrayWord (f : Nat → Nat → Fld) (off : Nat) : Prop := ∃ n k, off = (f n k).off
/-- The words of the register tables that the banks hold (16_memory_protection.md R429; 17_register_map.md R452). -/
def tableWord (off : Nat) : Prop :=
  ∃ r ∈ [(0x40000, 0x80000), (0x6000, 0x8000), (0x2000, 0x3140), (0x800, 0xE00), (0xB000, 0xB400), (0x10C000, 0x10C600),
    (0x201200, 0x201400), (0x203000, 0x204000), (0x205400, 0x205600), (0x206000, 0x207000)], r.1 ≤ off ∧ off < r.2
/-- The words of a rail's two coefficient sets (04_rail_loom.md R97). -/
def coefWord (off : Nat) : Prop := ∃ n k, k < 5 ∧ (off = 0x100060 + 0x200 * n + 4 * k ∨ off = 0x100080 + 0x200 * n + 4 * k)
/-- The words of a core's exception and state registers. -/
def coreWords : List (Nat → Prop) :=
  [eachWord CORE_STATUS.STATE, eachWord CORE_CYCLES.CYCLES, eachWord CORE_EVT.EVT, eachWord CORE_EXC_PC.EPC, eachWord CORE_EXC_INFO.CAUSE,
   eachWord CORE_EXC_ADDR.ADDR]

/-- The words that units have yet to sample (10_modes_startup.md R283; 14_two_wire.md R376). -/
def Dev.stagedWord (d : Dev) (off : Nat) : Prop := ∃ w, (off, some w) ∈ d.stg

/-- What the delivery of a sample or an event record to its threads and rings may change. -/
def telemetryParts : List Part := [.clk, .host, .hostMem, .hw, .regs, .ring, .thr, .vc]
/-- The words that the delivery of a sample or an event record may change. -/
def telemetryWords : List (Nat → Prop) :=
  [oneWord ARCH_FREE.FREE, eachWord CTX.STATE, eachWord CTX.PRODUCED, eachWord CTX.DROP, eachWord CTX.LAST,
   oneWord HOST_EVT.EVT, eachWord RG_PI.PI, eachWord RG_STATUS.STATE, eachWord VC_CNT.K, eachWord VC_FILL.FILL]
/-- The words that a trip of entry channels, branches and phases may change. -/
def tripWords : List (Nat → Prop) :=
  [eachWord BR_STATUS.STATE, eachWord PH_ILIM_EFF.I_LIM_EFF, eachWord PH_STATE.STATE, eachWord PH_STATUS.DEG, eachWord RETRY_STAT.RSTATE,
   eachWord RPH_EVT.EVT]

/-- Every part of the block but those listed. -/
def allBut (l : List Part) : List Part :=
  ([.regs, .clk, .mode, .ent, .br, .retry, .rail, .ph, .port, .conv, .scv, .icv, .sage, .slot, .ring, .thr, .rq, .rqHi, .rqHead, .host, .vc, .stream,
    .tw, .bmc, .core, .mem, .flt, .keep, .link, .hw, .stg,
    .hostMem] : List Part).filter fun p => ! l.contains p

/-- From `d` to `e` every part of the block is what it was but those of `l`, and so is every register word but those of `ws`. -/
def Keeps (d e : Dev) (l : List Part) (ws : List (Nat → Prop)) : Prop :=
  (∀ p, p ∉ l → p.same d e) ∧ ∀ off, (∀ w ∈ ws, ¬ w off) → e.word off = d.word off

/-- If the command answers a next state, its queue is what it was, and the block keeps everything but `l` and `ws`. -/
def Framed (i : Instr) (s : State) (l : List Part) (ws : List (Nat → Prop)) : Prop :=
  ∀ t, exec i s = .next t → t.pending = s.pending ∧ Keeps s.dev t.dev l ws

/-- A byte memory holds its canonical form: addresses strictly rising, no entry equal to the 0 that an unlisted address reads as
(log 6, log 11). -/
abbrev Memory.wf (m : Mem) : Bool := KV.wf (fun _ => 0) m

/-- The register map, the bank memory, its damage masks and the host memory hold their canonical form. -/
def Dev.canonical (d : Dev) : Prop :=
  KV.wf resetWord d.regs = true ∧ Memory.wf d.mem.data = true ∧ KV.wf (fun _ => 0) d.mem.err = true ∧ Memory.wf d.host.mem = true

/-- `n` steps, as long as each answers a next state. -/
def runSteps : Nat → State → Host.Outcome State Fault Refusal
  | 0, s => .next s
  | n + 1, s => match step s with | .next t => runSteps n t | o => o

/-- The descriptor commands that share the screens of 12_host_rings.md R320 and R321: the constructor, its opcode, the class of its
target, whether it is accepted in SAFE, and the domain whose owner alone may send it. -/
def descRows : List ((Desc → Instr) × Nat × Option Nat × Bool × Option Nat) := [
  (.nop, 0x00, some 0, true, none), (.fence, 0x01, some 0, true, none), (.timeAlign, 0x03, some 0, false, none),
  (.resClaim, 0x04, some 0, false, none), (.resRelease, 0x05, some 0, false, none),
  (.railSet, 0x10, some 1, false, some 1), (.railEnable, 0x11, some 1, false, some 1), (.railDisable, 0x12, some 1, false, some 1),
  (.phaseMask, 0x13, some 1, false, some 1), (.coefLoad, 0x14, some 1, false, some 1),
  (.fusePolicyLoad, 0x18, some 0, false, some 1), (.seqLoad, 0x1A, some 0, false, some 1),
  (.threadOpen, 0x20, some 7, true, none), (.threadModify, 0x21, some 7, true, none), (.threadClose, 0x22, some 7, true, none),
  (.unfence, 0x28, none, false, some 2), (.faultAck, 0x29, some 0, true, some 2),
  (.packRestore, 0x30, some 8, true, some 3), (.packRead, 0x31, some 0, true, some 3),
  (fun x => .tableLoad x false, 0x19, some 0, false, some 1), (fun x => .tableLoad x true, 0x19, some 0, false, some 1),
  (fun x => .modeRequestConfigure (.desc x), 0x02, some 0, false, some 0),
  (fun x => .modeRequestRamp (.desc x), 0x02, some 0, false, some 0), (fun x => .modeRequestRun (.desc x), 0x02, some 0, false, some 0),
  (fun x => .modeRequestSafe (.desc x), 0x02, some 0, true, none), (fun x => .modeRequestClearSafe (.desc x), 0x02, some 0, true, none)]

end Sys2Proof.Machine
end

