-- ==== Sys2Proof/Certificates/Slice0/Obligations.lean ====
section
/-! DEFINITION. The statements for the provers. Each is a conjunction of clauses; a clause says what one command does from every state
and for all operands that meet its premises, and what it leaves. -/

open Sys2Proof Sys2Proof.Machine

/-- A step runs the command at the front of the queue. With a command at the front of the queue, a step is exec of that command on
the state with the queue's rest. (00_scope.md) -/
def Obligations.StepRunsFrontCommand : Prop :=
  ∀ (c : Instr) (s : State), step { s with pending := c :: s.pending } = exec c s

/-- With no command waiting, a step is one tick of the clocks. On an empty queue a step always answers a next state with an empty
queue: only the clocks and the interrupt summary's vector move, and Thyme counts by one where the hub is powered and the root
clock runs. That the empty queue is what lets a tick pass is the model's choice (log 2). (R298, 11_clocks_time.md) -/
def Obligations.IdleStepIsOneTick : Prop :=
  ∀ s : State, s.pending = [] → ∃ t, step s = .next t ∧ t.pending = [] ∧
  (∀ p, p ∉ [Part.clk, Part.host] → p.same s.dev t.dev) ∧ t.dev.host.mem = s.dev.host.mem ∧ t.dev.host.out = s.dev.host.out ∧
  (s.dev.md ≠ Md.off → s.dev.clk.hub = true → s.dev.clk.rootLost = false → t.dev.clk.now = (s.dev.clk.now + 1) % 2 ^ 64) ∧
  (s.dev.md = Md.off ∨ s.dev.clk.hub = false ∨ s.dev.clk.rootLost = true → t.dev.clk.now = s.dev.clk.now)

/-- n idle steps advance Thyme by n and change no register and no memory. From any state with an empty queue, power and a running
root clock, n steps bring Thyme n ticks further, modulo 2^64, and leave every register, bank and core as it was. The tick on an
empty queue is the model's choice (log 2). (R298, 11_clocks_time.md) -/
def Obligations.TicksAdvanceThyme : Prop :=
  ∀ (n : Nat) (s : State), s.pending = [] → s.dev.md ≠ Md.off → s.dev.clk.hub = true → s.dev.clk.rootLost = false → s.dev.clk.now < 2 ^ 64 →
  ∃ t, runSteps n s = .next t ∧ t.pending = [] ∧ t.dev.clk.now = (s.dev.clk.now + n) % 2 ^ 64 ∧ t.dev.regs = s.dev.regs ∧
    t.dev.mem = s.dev.mem ∧ t.dev.core = s.dev.core

/-- The state after the standby supply rises. At reset no command waits, the mode is STANDBY, every register word reads its Reset
value, every byte of every bank and of host memory reads 0, no core runs, no ring is enabled, no link is up, and every memory
and the register map are in canonical form. Where the spec gives no value the model's own stands (log 3, log 4). (R271, R273,
10_modes_startup.md) -/
def Obligations.ResetState : Prop :=
  State.reset.pending = [] ∧ State.reset.dev.md = Md.standby ∧ (∀ off, State.reset.dev.word off = resetWord off) ∧
  (∀ b g, State.reset.dev.granStored b g = leNat (State.reset.dev.granClean b g) 0 8) ∧ (∀ a n, State.reset.dev.hRd a n = List.replicate n 0) ∧
  (∀ c : Fin 21, State.reset.dev.ks c = Ks.off) ∧ (∀ n : Fin 384, State.reset.dev.rgState n = Rg.disabled) ∧
  (∀ l, State.reset.dev.linkUp l = false) ∧ State.reset.dev.host.out = [] ∧ State.reset.dev.flt.msgs = [] ∧ State.reset.dev.canonical ∧ State.reset.queueWf

/-- Every step keeps the canonical form of the register map and the memories. From every state, reachable or not, whose register
map, banks, damage masks and host memory are in canonical form, every step that answers a next state answers one in which they
are. Equal contents are therefore equal data. (R429, R447, 16_memory_protection.md, 17_register_map.md) -/
def Obligations.CanonicalFormIsKept : Prop :=
  ∀ s t : State, s.dev.canonical → step s = .next t → t.dev.canonical

/-- A command completes exactly if it is well formed. Every well-formed command, in every state, answers a next state with the queue
as it was; an ill-formed one stops with the fault that names it (log 8). No command is refused. (00_scope.md, opcode table) -/
def Obligations.EveryCommandCompletes : Prop :=
  ∀ (c : Instr) (s : State), (c.wf = true → ∃ e : Dev, exec c s = .next ⟨e, s.pending⟩) ∧ (c.wf = false → exec c s = .fault .badOperand)

/-- A queue of well-formed commands runs to its end. However many well-formed commands wait, as many steps run them all, none is
refused or faults, and the queue is then empty, in every state. (00_scope.md) -/
def Obligations.QueueDrains : Prop :=
  ∀ s : State, s.queueWf → ∃ t, runSteps s.pending.length s = .next t ∧ t.pending = [] ∧
  ∀ n, n ≤ s.pending.length → ∃ u, runSteps n s = .next u ∧ u.pending = s.pending.drop n

/-- A register write acts bit by bit, as each bit's access code says. Of the word that is stored, a W1S bit written 1 is set, a W1C
bit written 1 is cleared unless hardware has set it in the same clock, a RW bit takes its written value, and any other bit keeps
its value; no bit of the register map has two of these codes. (R4, R5, 00_scope.md) -/
def Obligations.RegisterAccessCodes : Prop :=
  (∀ (r : RegRow) (old v hw : Word) (k : Nat), k < 32 → (r.store old v hw).getLsbD k =
    (if (v &&& r.w1s).getLsbD k then true else if (v &&& r.w1c &&& ~~~hw).getLsbD k then false else if r.rw.getLsbD k then v.getLsbD k else old.getLsbD k)) ∧
  (∀ b ∈ blocksLow ++ blocksHub ++ blocksLoom ++ blocksEntry, ∀ r ∈ b.rows, r.rw &&& r.w1c = 0 ∧ r.rw &&& r.w1s = 0 ∧ r.w1c &&& r.w1s = 0 ∧ r.rw &&& r.rc = 0)

/-- The screens that every descriptor passes, in their order. A descriptor with a set bit that must be 0 completes with
DESC_INVALID, one whose target is not of the class its opcode names with TARGET_INVALID, both raising DESC_FAULT; then SAFE
answers WRONG_MODE, a sender that does not own the domain NOT_OWNER, and a die out of reach LINK_FENCED. A descriptor behind an
earlier one of its ring that names the same unit and has not completed waits among the outstanding ones and changes nothing
else. (R290, R293, R320, R321, R323, R260) -/
def Obligations.DescriptorScreens : Prop :=
  ∀ r ∈ descRows, ∀ (d : Dev) (q : List Instr) (x : Desc), x.wf = true →
  (d.blocked r.2.1 x = true → Does (r.1 x) ⟨d, q⟩ fun t => t = (d.enter r.2.1 x).1) ∧
  (d.blocked r.2.1 x = false → x.dirty = true → Does (r.1 x) ⟨d, q⟩ fun t => t.Answered x 0x0001 ∧ t.Reports 0x71 x.src.ringCode) ∧
  (d.blocked r.2.1 x = false → x.dirty = false → targetOk r.2.2.1 x.cls.toNat x.idx.toNat = false →
    Does (r.1 x) ⟨d, q⟩ fun t => t.Answered x 0x0003 ∧ t.Reports 0x71 x.src.ringCode) ∧
  (d.blocked r.2.1 x = false → x.dirty = false → targetOk r.2.2.1 x.cls.toNat x.idx.toNat = true →
    ((d.begin r.2.1 x).1.md = Md.safe → r.2.2.2.1 = false → Does (r.1 x) ⟨d, q⟩ fun t => t.Answered x 0x0004) ∧
    ((d.begin r.2.1 x).1.md ≠ Md.safe ∨ r.2.2.2.1 = true →
      (∀ k, r.2.2.2.2 = some k → (d.begin r.2.1 x).1.mayCommand k x.src.agent = false → Does (r.1 x) ⟨d, q⟩ fun t => t.Answered x 0x0005) ∧
      ((∀ k, r.2.2.2.2 = some k → (d.begin r.2.1 x).1.mayCommand k x.src.agent = true) →
        (d.begin r.2.1 x).1.targetOut x.cls.toNat x.idx.toNat = true → Does (r.1 x) ⟨d, q⟩ fun t => t.Answered x 0x0007)))

/-- The four rounding modes of the cores. A quotient that discards low-order bits is the floor, the nearest with ties away from
zero, the nearest with ties to even, or the truncation of its magnitude, as RND says; the operations that R411 does not name
take no RND, MAC and MSU of type H and SAT to W included. (R411) -/
def Obligations.RoundingModes : Prop :=
  (∀ (a : Int) (b : Nat), 0 < b →
    ((b : Int) * roundQuot 0 a b ≤ a ∧ a < b * (roundQuot 0 a b + 1)) ∧
    ((2 * (a - b * roundQuot 1 a b)).natAbs ≤ b ∧ ((2 * (a - b * roundQuot 1 a b)).natAbs = b → a.natAbs ≤ (b * roundQuot 1 a b).natAbs)) ∧
    ((2 * (a - b * roundQuot 2 a b)).natAbs ≤ b ∧ ((2 * (a - b * roundQuot 2 a b)).natAbs = b → roundQuot 2 a b % 2 = 0)) ∧
    ((roundQuot 3 a b).natAbs = a.natAbs / b ∧ (0 ≤ a → 0 ≤ roundQuot 3 a b) ∧ (a ≤ 0 → roundQuot 3 a b ≤ 0))) ∧
  (∀ (r u : Nat) (s : Bool) (d a b : Nat), aluMac 0 r s d a b = aluMac 0 u s d a b ∧ aluMsu 0 r s d a b = aluMsu 0 u s d a b ∧ aluSat 1 r a = aluSat 1 u a)

/-- Overflow, saturation and the flags that stay. V is set exactly where the exact result does not fit; with S the result is then
the nearest value of the type and SAT is set, without S it is the exact result's low bits and SAT stays; SAT and LIM clip
whatever S holds; shifts right, logic and bit operations touch neither V nor SAT; and a flag that an operation does not name
keeps its value. (R412) -/
def Obligations.OverflowAndSaturation : Prop :=
  (∀ (ty : Nat) (s : Bool) (x : Int), ty ≤ 2 →
    (Alu.narrow ty s x).v = some (!(fitsTy ty x)) ∧ (Alu.narrow ty s x).sat = (s && !(fitsTy ty x)) ∧
    (Alu.narrow ty s x).z = some ((Alu.narrow ty s x).val == 0) ∧ (Alu.narrow ty s x).n = some (decide ((Alu.narrow ty s x).val < 0)) ∧
    fitsTy ty (Alu.narrow ty s x).val = true ∧
    (fitsTy ty x = true → (Alu.narrow ty s x).val = x) ∧
    (s = true → x < tyMin ty → (Alu.narrow ty s x).val = tyMin ty) ∧ (s = true → tyMax ty < x → (Alu.narrow ty s x).val = tyMax ty) ∧
    (s = false → trunc (tyBits ty) (Alu.narrow ty s x).val = trunc (tyBits ty) x)) ∧
  (∀ ty rnd a b d : Nat, (aluLsr ty a b).v = none ∧ (aluLsr ty a b).sat = false ∧ (aluBits ty a).v = none ∧ (aluBits ty a).sat = false ∧
    (ty ≤ 1 → fitsTy ty (aluSat ty rnd a).val = true) ∧
    (ty ≤ 2 → sv ty a ≤ sv ty b → sv ty a ≤ (aluLim ty d a b).val ∧ (aluLim ty d a b).val ≤ sv ty b)) ∧
  (∀ (r : Alu) (old : Word) (k : Nat), k < 32 →
    (r.flags old).getLsbD k = (match k with
      | 0 => r.z.getD (old.getLsbD 0) | 1 => r.n.getD (old.getLsbD 1) | 2 => r.cy.getD (old.getLsbD 2)
      | 3 => r.v.getD (old.getLsbD 3) | 4 => r.sat || old.getLsbD 4 | _ => old.getLsbD k))

/-- The conditions of BC, and what they mean after CMP. Each code from 0x0 to 0xD tests the flags that the table names; any other
operand of BC breaks the encoding; and after CMP codes 0x3 and 0x9 are signed less and less or equal, and codes 0x5 and 0xB
their unsigned forms. (R414) -/
def Obligations.BranchConditions : Prop :=
  (∀ w : Word,
    codeHolds 0x0 w = true ∧ codeHolds 0x1 w = w.getLsbD 0 ∧ codeHolds 0x2 w = !(w.getLsbD 0) ∧ codeHolds 0x3 w = w.getLsbD 1 ∧
    codeHolds 0x4 w = !(w.getLsbD 1) ∧ codeHolds 0x5 w = w.getLsbD 2 ∧ codeHolds 0x6 w = !(w.getLsbD 2) ∧ codeHolds 0x7 w = w.getLsbD 3 ∧
    codeHolds 0x8 w = !(w.getLsbD 3) ∧ codeHolds 0x9 w = (w.getLsbD 1 || w.getLsbD 0) ∧ codeHolds 0xA w = (!(w.getLsbD 1) && !(w.getLsbD 0)) ∧
    codeHolds 0xB w = (w.getLsbD 2 || w.getLsbD 0) ∧ codeHolds 0xC w = (!(w.getLsbD 2) && !(w.getLsbD 0)) ∧ codeHolds 0xD w = w.getLsbD 4) ∧
  (∀ (c pc w z : Nat) (ps : List Spec) (d e : Dev), bits w 15 9 = 0x31 → bits w 8 7 = 1 → bits w 3 2 = 2 →
    fetchBytes c pc pc 2 d = .ok (w, e) → (fetchSpecs c pc 2 (pc + 2) e).toOption.map (·.1) = some (ps, z) →
    ∀ p ∈ ps.head?, ¬ (p.mode = 4 ∧ p.f < 14) → fetchInsn c pc d = .error (.exc 1 3 pc 0 pc .none)) ∧
  (∀ (ty a b : Nat) (old : Word), ty ≤ 2 → a < 2 ^ tyBits ty → b < 2 ^ tyBits ty →
    codeHolds 0x3 ((aluCmp ty a b).flags old) = decide (sv ty a < sv ty b) ∧ codeHolds 0x9 ((aluCmp ty a b).flags old) = decide (sv ty a ≤ sv ty b) ∧
    codeHolds 0x5 ((aluCmp ty a b).flags old) = decide (a < b) ∧ codeHolds 0xB ((aluCmp ty a b).flags old) = decide (a ≤ b))

/-- One damaged bit of a granule is corrected, and a pair the code cannot locate is not returned. In a bank of one copy that is
online: a granule with any one of its 80 stored bits damaged reads as it was written, is rewritten clean, and MEM_CE is on its
way; with two bits damaged that are not a data bit and a check bit of its own row or column, nor a row and a column check bit,
nothing is returned, the bank is offline, and MEM_UE is on its way. (R433, R434, R435, R436) -/
def Obligations.TartanCorrection : Prop :=
  ∀ (d : Dev) (b g a x : Nat), bankPartner b = none → bankTables b = [] → d.bankOff b = false →
  (∀ k, k < 80 → d.granErr b g = 1#80 <<< k →
    (d.readGran b g a x).2 = some (leNat (d.granClean b g) 0 8) ∧ (d.readGran b g a x).1.granErr b g = 0 ∧
    (d.readGran b g a x).1.Reports 0x60 b ∧ ((d.readGran b g a x).1.rd MEM_EVT.EVT).testBit 0 = true) ∧
  (∀ k l, k < l → l < 80 → ¬ (k < 64 ∧ (l = 64 + k / 8 ∨ l = 72 + k % 8)) → ¬ (64 ≤ k ∧ k < 72 ∧ 72 ≤ l) →
    d.granErr b g = (1#80 <<< k) ||| (1#80 <<< l) →
    (d.readGran b g a x).2 = none ∧ (d.readGran b g a x).1.bankOff b = true ∧ (d.readGran b g a x).1.Reports 0x61 b)

/-- A granule reads as it was last written, and a narrow write merges. In a bank of one copy that is online: after a write of a
whole granule a read returns the value written, whatever damage it had; after a narrower write of an undamaged granule it
returns the old bytes with the new ones in their place; and the other granules of every bank without tables hold what they held.
(R432, R437) -/
def Obligations.BankReadAfterWrite : Prop :=
  ∀ (d : Dev) (b g v a x : Nat), bankPartner b = none → bankTables b = [] → d.bankOff b = false → 8 * g + 7 < 0x100000 → v < 2 ^ 64 →
  ((d.writeGran b g 0 8 v a).2 = true ∧ ((d.writeGran b g 0 8 v a).1.readGran b g a x).2 = some v) ∧
  (∀ o n, o + n ≤ 8 → n < 8 → d.granErr b g = 0 →
    (d.writeGran b g o n v a).2 = true ∧
    ((d.writeGran b g o n v a).1.readGran b g a x).2 = some (mergeBytes (d.granStored b g) o n v)) ∧
  (∀ b' g' o n, bankTables b' = [] → 8 * g' + 7 < 0x100000 → (b', g') ≠ (b, g) → d.granErr b g = 0 →
    (d.writeGran b g o n v a).1.granStored b' g' = d.granStored b' g')

/-- An entry channel trips. A trip command whose cause is due trips the channel under the retry machine: a comparator trip while the
channel drives its gate, any other trip when its window or count has come due. Each clause concludes that exec answers a next
state, from premises on the state and the operands alone. Completion is so stated for: entScTrip, entOcTrip, entInrushTime,
entOvTrip, entCutoff. (R46, R47, R48, R38, R56) -/
def Obligations.EntryTrips : Prop :=
  (∀ (d : Dev) (rest : List Instr) (n : Fin 16), d.entDrives n = true →
    exec (.entScTrip n) ⟨d, rest⟩ = .next ⟨d.entTrip n 0 (1 :: (d.entDue n).filter (· ≠ 1)), rest⟩) ∧
  (∀ (d : Dev) (rest : List Instr) (n : Fin 16), 3 ∈ d.entDue n →
    exec (.entOcTrip n) ⟨d, rest⟩ = .next ⟨d.entTrip n 6 (d.entDue n), rest⟩) ∧
  (∀ (d : Dev) (rest : List Instr) (n : Fin 16), 4 ∈ d.entDue n →
    exec (.entInrushTime n) ⟨d, rest⟩ = .next ⟨d.entTrip n 6 (d.entDue n), rest⟩) ∧
  (∀ (d : Dev) (rest : List Instr) (n : Fin 16), 5 ∈ d.entDue n →
    exec (.entOvTrip n) ⟨d, rest⟩ = .next ⟨d.entTrip n 6 (d.entDue n), rest⟩) ∧
  (∀ (d : Dev) (rest : List Instr) (n : Fin 16), 6 ∈ d.entDue n →
    exec (.entCutoff n) ⟨d, rest⟩ = .next ⟨d.entTrip n 6 (d.entDue n), rest⟩) ∧
  (∀ (d : Dev) (rest : List Instr) (n : Fin 16), (d.es n = Ec.inrush ∨ d.es n = Ec.on) → d.keep.on = false → d.groupOf n = none →
    d.mem.err = [] → (d.E n).tripAt ≠ some d.now → (∀ k, (d.RT n).clear = some k → d.now < k) → ∃ t : Dev,
    exec (.entScTrip n) ⟨d, rest⟩ = .next ⟨t, rest⟩ ∧ (t.es n = if d.latchesOn n 1 = true then Ec.latched else Ec.tripped) ∧
    t.rd (ENT_STATUS.CAUSE n) = 1 ∧
    (t.rd (ENT_STATUS.ALSO n) = ((d.entDue n).filter fun c => decide (c ≠ 1) && d.tripEn n c).foldl setBit 0) ∧
    t.rdBit (ENT_EVT.EVT n) 1 = true ∧ t.Reports 1 n ∧
    (t.rd (RETRY_STAT.RSTATE n) = if d.latchesOn n 1 = true then Rt.latched else Rt.delay) ∧ (t.E n).gate = .offFast ∧
    (∀ m, m ≠ n.val → t.E m = d.E m)) ∧
  (∀ (d : Dev) (rest : List Instr) (n : Fin 16), (d.es n = Ec.inrush ∨ d.es n = Ec.on) → d.keep.on = false → d.groupOf n = none →
    d.mem.err = [] → (d.E n).tripAt ≠ some d.now → (∀ k, (d.RT n).clear = some k → d.now < k) → (d.E n).soaAt ≠ some d.now →
    closed d.now (d.E n).oc (d.rd (ENT_OC_TIME.OC_TIME n)) = true → d.rdBit (POL0.TRIP_EN (d.unitPol n)) 3 = true → ∃ t : Dev,
    exec (.entOcTrip n) ⟨d, rest⟩ = .next ⟨t, rest⟩ ∧ (t.es n = if d.latchesOn n 3 = true then Ec.latched else Ec.tripped) ∧
    t.rd (ENT_STATUS.CAUSE n) = 3 ∧
    (t.rd (ENT_STATUS.ALSO n) = ((d.entDue n).filter fun c => decide (c ≠ 3) && d.tripEn n c).foldl setBit 0) ∧
    t.rdBit (ENT_EVT.EVT n) 3 = true ∧ t.Reports 3 n ∧
    (t.rd (RETRY_STAT.RSTATE n) = if d.latchesOn n 3 = true then Rt.latched else Rt.delay) ∧ (t.E n).gate = .offFast ∧
    (∀ m, m ≠ n.val → t.E m = d.E m)) ∧
  (∀ (d : Dev) (rest : List Instr) (n : Fin 16), d.es n = Ec.inrush → d.keep.on = false → d.groupOf n = none → d.mem.err = [] →
    (d.E n).tripAt ≠ some d.now → (∀ k, (d.RT n).clear = some k → d.now < k) → (d.E n).soaAt ≠ some d.now →
    closed d.now (d.E n).oc (d.rd (ENT_OC_TIME.OC_TIME n)) = false →
    closed d.now (d.E n).inrush (d.rd (ENT_TMAX.INRUSH_TMAX n)) = true → d.rdBit (POL0.TRIP_EN (d.unitPol n)) 4 = true →
    ∃ t : Dev, exec (.entInrushTime n) ⟨d, rest⟩ = .next ⟨t, rest⟩ ∧
    (t.es n = if d.latchesOn n 4 = true then Ec.latched else Ec.tripped) ∧ t.rd (ENT_STATUS.CAUSE n) = 4 ∧
    (t.rd (ENT_STATUS.ALSO n) = ((d.entDue n).filter fun c => decide (c ≠ 4) && d.tripEn n c).foldl setBit 0) ∧
    t.rdBit (ENT_EVT.EVT n) 4 = true ∧ t.Reports 4 n ∧
    (t.rd (RETRY_STAT.RSTATE n) = if d.latchesOn n 4 = true then Rt.latched else Rt.delay) ∧ (t.E n).gate = .offFast ∧
    (∀ m, m ≠ n.val → t.E m = d.E m)) ∧
  (∀ (d : Dev) (rest : List Instr) (n : Fin 16), d.es n = Ec.on → d.keep.on = false → d.groupOf n = none → d.mem.err = [] →
    (d.E n).tripAt ≠ some d.now → (∀ k, (d.RT n).clear = some k → d.now < k) → (d.E n).soaAt ≠ some d.now →
    closed d.now (d.E n).oc (d.rd (ENT_OC_TIME.OC_TIME n)) = false → 2 ≤ (d.E n).ovN →
    d.rdBit (POL0.TRIP_EN (d.unitPol n)) 5 = true → ∃ t : Dev, exec (.entOvTrip n) ⟨d, rest⟩ = .next ⟨t, rest⟩ ∧
    (t.es n = if d.latchesOn n 5 = true then Ec.latched else Ec.tripped) ∧ t.rd (ENT_STATUS.CAUSE n) = 5 ∧
    (t.rd (ENT_STATUS.ALSO n) = ((d.entDue n).filter fun c => decide (c ≠ 5) && d.tripEn n c).foldl setBit 0) ∧
    t.rdBit (ENT_EVT.EVT n) 5 = true ∧ t.Reports 5 n ∧
    (t.rd (RETRY_STAT.RSTATE n) = if d.latchesOn n 5 = true then Rt.latched else Rt.delay) ∧ (t.E n).gate = .offFast ∧
    (∀ m, m ≠ n.val → t.E m = d.E m)) ∧
  (∀ (d : Dev) (rest : List Instr) (n : Fin 16), (d.es n = Ec.on ∨ d.es n = Ec.armed) → d.keep.on = false → d.groupOf n = none →
    d.mem.err = [] → (d.E n).tripAt ≠ some d.now → (∀ k, (d.RT n).clear = some k → d.now < k) → d.battery n = true →
    d.md ≠ Md.holdup → (d.E n).soaAt ≠ some d.now → closed d.now (d.E n).oc (d.rd (ENT_OC_TIME.OC_TIME n)) = false →
    (d.E n).ovN < 2 → closed d.now (d.E n).cut (d.rd (ENT_CUT_TIME.CUTOFF_T n)) = true → ∃ t : Dev,
    exec (.entCutoff n) ⟨d, rest⟩ = .next ⟨t, rest⟩ ∧ (t.es n = if d.latchesOn n 6 = true then Ec.latched else Ec.tripped) ∧
    t.rd (ENT_STATUS.CAUSE n) = 6 ∧
    (t.rd (ENT_STATUS.ALSO n) = ((d.entDue n).filter fun c => decide (c ≠ 6) && d.tripEn n c).foldl setBit 0) ∧
    t.rdBit (ENT_EVT.EVT n) 6 = true ∧ t.Reports 6 n ∧
    (t.rd (RETRY_STAT.RSTATE n) = if d.latchesOn n 6 = true then Rt.latched else Rt.delay) ∧ (t.E n).gate = .offFast ∧
    (∀ m, m ≠ n.val → t.E m = d.E m))

/-- An entry channel moves through its states. Qualification, the end of inrush, full enhancement, blocking and its end, arming and
the share NOTE: each command, its condition met, takes the channel to the state, the gate drive and the message that its rule
gives. Each clause concludes that exec answers a next state, from premises on the state and the operands alone. Completion is so
stated for: entQualify, entInrushDone, entGateEnhanced, entBlock, entBlockReturn, entArm, entShare. (R35, R39, R46, R50, R52) -/
def Obligations.EntryProgress : Prop :=
  (∀ (d : Dev) (rest : List Instr) (n : Fin 16), d.es n = Ec.check → closed d.now (d.E n).qual d.qualLen = true →
    d.keep.on = false → d.entMay = true → d.groupOf n = none → ∃ t : Dev, exec (.entQualify n) ⟨d, rest⟩ = .next ⟨t, rest⟩ ∧
    t.es n = Ec.inrush ∧ (t.E n).gate = .drive true 0 ∧ (t.E n).inrush = some d.now) ∧
  (∀ (d : Dev) (rest : List Instr) (n : Fin 16), d.es n = Ec.inrush →
    closed d.now (d.E n).doneW (d.rd (ENT_DONE.DONE_TIME n)) = true → d.keep.on = false → d.entMay = true → d.entDue n = [] →
    d.groupOf n = none → ∃ t : Dev, exec (.entInrushDone n) ⟨d, rest⟩ = .next ⟨t, rest⟩ ∧ t.es n = Ec.on ∧
    (t.E n).gate = .enhancing) ∧
  (∀ (d : Dev) (rest : List Instr) (n : Fin 16), (d.E n).gate = .enhancing → ∃ t : Dev,
    exec (.entGateEnhanced n) ⟨d, rest⟩ = .next ⟨t, rest⟩ ∧ (t.E n).gate = .enhanced ∧ t.regs = d.regs ∧
    (∀ m, m ≠ n.val → t.E m = d.E m)) ∧
  (∀ (d : Dev) (rest : List Instr) (n : Fin 16), d.es n = Ec.on → closed d.now (d.E n).rev (d.rd (ENT_REV.REV_FILT n)) = true →
    d.keep.on = false → d.entDue n = [] → ∃ t : Dev, exec (.entBlock n) ⟨d, rest⟩ = .next ⟨t, rest⟩ ∧ t.es n = Ec.blocking ∧
    (t.E n).gate = .offFast ∧ t.Reports 0x08 n) ∧
  (∀ (d : Dev) (rest : List Instr) (n : Fin 16), d.es n = Ec.blocking → 16 ≤ (d.E n).blkN → ∃ t : Dev,
    exec (.entBlockReturn n) ⟨d, rest⟩ = .next ⟨t, rest⟩ ∧ (t.es n = (if d.battery n then Ec.off else Ec.check)) ∧
    (t.E n).gate = .off) ∧
  (∀ (d : Dev) (rest : List Instr) (n : Fin 16), d.es n = Ec.off → d.battery n = true → d.active = true →
    d.on (SG_STATUS.PRESENT (d.rd (ENT_CFG.PACK n))) = true → d.rd (ENT_BATT.V_CUTOFF n) ≤ (d.E n).vin → (d.E n).hold = false →
    d.keep.on = false → ∃ t : Dev, exec (.entArm n) ⟨d, rest⟩ = .next ⟨t, rest⟩ ∧ t.es n = Ec.armed ∧ (t.E n).gate = .off) ∧
  (∀ (d : Dev) (rest : List Instr) (n : Fin 16), d.es n = Ec.on → closed d.now (d.E n).share 80000 = true → d.keep.on = false →
    ∃ t : Dev, exec (.entShare n) ⟨d, rest⟩ = .next ⟨t, rest⟩ ∧ t.es n = Ec.on ∧ (t.E n).share = none ∧ t.Reports 0x09 n ∧
    t.regs = d.regs)

/-- A branch channel trips. As for entry channels, by the causes of branch channels. Each clause concludes that exec answers a next
state, from premises on the state and the operands alone. Completion is so stated for: brFastTrip, brOcTrip, brSsTime, brOvTrip,
brRevTrip, brPwrTrip. (R67, R73) -/
def Obligations.BranchTrips : Prop :=
  (∀ (d : Dev) (rest : List Instr) (n : Fin 64), (d.bs n = Ec.inrush ∨ d.bs n = Ec.on) → d.keep.on = false →
    exec (.brFastTrip n) ⟨d, rest⟩ = .next ⟨d.brTrip n 0 (1 :: d.brDue n), rest⟩) ∧
  (∀ (d : Dev) (rest : List Instr) (n : Fin 64), 3 ∈ d.brDue n →
    exec (.brOcTrip n) ⟨d, rest⟩ = .next ⟨d.brTrip n 6 (d.brDue n), rest⟩) ∧
  (∀ (d : Dev) (rest : List Instr) (n : Fin 64), 4 ∈ d.brDue n →
    exec (.brSsTime n) ⟨d, rest⟩ = .next ⟨d.brTrip n 6 (d.brDue n), rest⟩) ∧
  (∀ (d : Dev) (rest : List Instr) (n : Fin 64), 5 ∈ d.brDue n →
    exec (.brOvTrip n) ⟨d, rest⟩ = .next ⟨d.brTrip n 6 (d.brDue n), rest⟩) ∧
  (∀ (d : Dev) (rest : List Instr) (n : Fin 64), 6 ∈ d.brDue n →
    exec (.brRevTrip n) ⟨d, rest⟩ = .next ⟨d.brTrip n 6 (d.brDue n), rest⟩) ∧
  (∀ (d : Dev) (rest : List Instr) (n : Fin 64), 7 ∈ d.brDue n →
    exec (.brPwrTrip n) ⟨d, rest⟩ = .next ⟨d.brTrip n 6 (d.brDue n), rest⟩) ∧
  (∀ (d : Dev) (rest : List Instr) (n : Fin 64), (d.bs n = Ec.inrush ∨ d.bs n = Ec.on) → d.keep.on = false → d.mem.err = [] →
    (d.B n).tripAt ≠ some d.now → (∀ k, (d.RT (16 + n)).clear = some k → d.now < k) → ∃ t : Dev,
    exec (.brFastTrip n) ⟨d, rest⟩ = .next ⟨t, rest⟩ ∧
    (t.bs n = if d.latchesOn (16 + n) 1 = true then Ec.latched else Ec.tripped) ∧ t.rd (BR_STATUS.CAUSE n) = 1 ∧
    (t.rd (BR_STATUS.ALSO n) = ((d.brDue n).filter fun c => decide (c ≠ 1) && d.tripEn (16 + n) c).foldl setBit 0) ∧
    t.rdBit (BR_EVT.EVT n) 1 = true ∧ t.Reports (0x10 + 1) n ∧
    (t.rd (RETRY_STAT.RSTATE (16 + n)) = if d.latchesOn (16 + n) 1 = true then Rt.latched else Rt.delay) ∧
    (t.B n).gate = .offFast ∧ (∀ m, m ≠ n.val → t.B m = d.B m)) ∧
  (∀ (d : Dev) (rest : List Instr) (n : Fin 64), (d.bs n = Ec.inrush ∨ d.bs n = Ec.on) → d.keep.on = false → d.mem.err = [] →
    (d.B n).tripAt ≠ some d.now → (∀ k, (d.RT (16 + n)).clear = some k → d.now < k) → (d.B n).soaAt ≠ some d.now →
    closed d.now (d.B n).oc (d.rd (BR_OC_TIME.OC_TIME n)) = true → d.rdBit (POL0.TRIP_EN (d.unitPol (16 + n))) 3 = true →
    ∃ t : Dev, exec (.brOcTrip n) ⟨d, rest⟩ = .next ⟨t, rest⟩ ∧
    (t.bs n = if d.latchesOn (16 + n) 3 = true then Ec.latched else Ec.tripped) ∧ t.rd (BR_STATUS.CAUSE n) = 3 ∧
    (t.rd (BR_STATUS.ALSO n) = ((d.brDue n).filter fun c => decide (c ≠ 3) && d.tripEn (16 + n) c).foldl setBit 0) ∧
    t.rdBit (BR_EVT.EVT n) 3 = true ∧ t.Reports (0x10 + 3) n ∧
    (t.rd (RETRY_STAT.RSTATE (16 + n)) = if d.latchesOn (16 + n) 3 = true then Rt.latched else Rt.delay) ∧
    (t.B n).gate = .offFast ∧ (∀ m, m ≠ n.val → t.B m = d.B m)) ∧
  (∀ (d : Dev) (rest : List Instr) (n : Fin 64), d.bs n = Ec.inrush → d.keep.on = false → d.mem.err = [] →
    (d.B n).tripAt ≠ some d.now → (∀ k, (d.RT (16 + n)).clear = some k → d.now < k) → (d.B n).soaAt ≠ some d.now →
    closed d.now (d.B n).oc (d.rd (BR_OC_TIME.OC_TIME n)) = false →
    closed d.now (d.B n).ss (d.rd (BR_SS_TIME.SS_TMAX n)) = true → d.rdBit (POL0.TRIP_EN (d.unitPol (16 + n))) 4 = true →
    ∃ t : Dev, exec (.brSsTime n) ⟨d, rest⟩ = .next ⟨t, rest⟩ ∧
    (t.bs n = if d.latchesOn (16 + n) 4 = true then Ec.latched else Ec.tripped) ∧ t.rd (BR_STATUS.CAUSE n) = 4 ∧
    (t.rd (BR_STATUS.ALSO n) = ((d.brDue n).filter fun c => decide (c ≠ 4) && d.tripEn (16 + n) c).foldl setBit 0) ∧
    t.rdBit (BR_EVT.EVT n) 4 = true ∧ t.Reports (0x10 + 4) n ∧
    (t.rd (RETRY_STAT.RSTATE (16 + n)) = if d.latchesOn (16 + n) 4 = true then Rt.latched else Rt.delay) ∧
    (t.B n).gate = .offFast ∧ (∀ m, m ≠ n.val → t.B m = d.B m)) ∧
  (∀ (d : Dev) (rest : List Instr) (n : Fin 64), d.bs n = Ec.on → d.keep.on = false → d.mem.err = [] →
    (d.B n).tripAt ≠ some d.now → (∀ k, (d.RT (16 + n)).clear = some k → d.now < k) → (d.B n).soaAt ≠ some d.now →
    closed d.now (d.B n).oc (d.rd (BR_OC_TIME.OC_TIME n)) = false → 2 ≤ (d.B n).ovN →
    d.rdBit (POL0.TRIP_EN (d.unitPol (16 + n))) 5 = true → ∃ t : Dev, exec (.brOvTrip n) ⟨d, rest⟩ = .next ⟨t, rest⟩ ∧
    (t.bs n = if d.latchesOn (16 + n) 5 = true then Ec.latched else Ec.tripped) ∧ t.rd (BR_STATUS.CAUSE n) = 5 ∧
    (t.rd (BR_STATUS.ALSO n) = ((d.brDue n).filter fun c => decide (c ≠ 5) && d.tripEn (16 + n) c).foldl setBit 0) ∧
    t.rdBit (BR_EVT.EVT n) 5 = true ∧ t.Reports (0x10 + 5) n ∧
    (t.rd (RETRY_STAT.RSTATE (16 + n)) = if d.latchesOn (16 + n) 5 = true then Rt.latched else Rt.delay) ∧
    (t.B n).gate = .offFast ∧ (∀ m, m ≠ n.val → t.B m = d.B m)) ∧
  (∀ (d : Dev) (rest : List Instr) (n : Fin 64), d.bs n = Ec.on → d.keep.on = false → d.mem.err = [] →
    (d.B n).tripAt ≠ some d.now → (∀ k, (d.RT (16 + n)).clear = some k → d.now < k) → (d.B n).soaAt ≠ some d.now →
    closed d.now (d.B n).oc (d.rd (BR_OC_TIME.OC_TIME n)) = false → (d.B n).ovN < 2 →
    closed d.now (d.B n).rev (d.rd (BR_REV.REV_FILT n)) = true → d.rdBit (POL0.TRIP_EN (d.unitPol (16 + n))) 6 = true →
    ∃ t : Dev, exec (.brRevTrip n) ⟨d, rest⟩ = .next ⟨t, rest⟩ ∧
    (t.bs n = if d.latchesOn (16 + n) 6 = true then Ec.latched else Ec.tripped) ∧ t.rd (BR_STATUS.CAUSE n) = 6 ∧
    (t.rd (BR_STATUS.ALSO n) = ((d.brDue n).filter fun c => decide (c ≠ 6) && d.tripEn (16 + n) c).foldl setBit 0) ∧
    t.rdBit (BR_EVT.EVT n) 6 = true ∧ t.Reports (0x10 + 6) n ∧
    (t.rd (RETRY_STAT.RSTATE (16 + n)) = if d.latchesOn (16 + n) 6 = true then Rt.latched else Rt.delay) ∧
    (t.B n).gate = .offFast ∧ (∀ m, m ≠ n.val → t.B m = d.B m)) ∧
  (∀ (d : Dev) (rest : List Instr) (n : Fin 64), d.bs n = Ec.on → d.keep.on = false → d.mem.err = [] →
    (d.B n).tripAt ≠ some d.now → (∀ k, (d.RT (16 + n)).clear = some k → d.now < k) → (d.B n).soaAt ≠ some d.now →
    closed d.now (d.B n).oc (d.rd (BR_OC_TIME.OC_TIME n)) = false → (d.B n).ovN < 2 →
    closed d.now (d.B n).rev (d.rd (BR_REV.REV_FILT n)) = false →
    closed d.now (d.B n).pwr (d.rd (BR_OC_TIME.OC_TIME n)) = true → d.rdBit (POL0.TRIP_EN (d.unitPol (16 + n))) 7 = true →
    ∃ t : Dev, exec (.brPwrTrip n) ⟨d, rest⟩ = .next ⟨t, rest⟩ ∧
    (t.bs n = if d.latchesOn (16 + n) 7 = true then Ec.latched else Ec.tripped) ∧ t.rd (BR_STATUS.CAUSE n) = 7 ∧
    (t.rd (BR_STATUS.ALSO n) = ((d.brDue n).filter fun c => decide (c ≠ 7) && d.tripEn (16 + n) c).foldl setBit 0) ∧
    t.rdBit (BR_EVT.EVT n) 7 = true ∧ t.Reports (0x10 + 7) n ∧
    (t.rd (RETRY_STAT.RSTATE (16 + n)) = if d.latchesOn (16 + n) 7 = true then Rt.latched else Rt.delay) ∧
    (t.B n).gate = .offFast ∧ (∀ m, m ≠ n.val → t.B m = d.B m))

/-- A branch channel moves through its states, and its map acts on rails. CHECK to SOFTSTART to ON, the samples, and the branch-down
message with its DEPEND entries. Each clause concludes that exec answers a next state, from premises on the state and the
operands alone. Completion is so stated for: brQualify, brSoftstartDone, brSample, branchDownArrive, dependDisable. (R62, R65,
R66, R80, R81) -/
def Obligations.BranchProgress : Prop :=
  (∀ (d : Dev) (rest : List Instr) (n : Fin 64), d.bs n = Ec.check → 16 ≤ (d.B n).qualN → d.keep.on = false → d.brMay = true →
    ∃ t : Dev, exec (.brQualify n) ⟨d, rest⟩ = .next ⟨t, rest⟩ ∧ t.bs n = Ec.inrush ∧ (t.B n).gate = .drive true 0 ∧
    (t.B n).ss = some d.now) ∧
  (∀ (d : Dev) (rest : List Instr) (n : Fin 64), d.bs n = Ec.inrush →
    closed d.now (d.B n).doneW (d.rd (BR_DONE.DONE_TIME n)) = true → d.keep.on = false → d.brMay = true → d.brDue n = [] →
    exec (.brSoftstartDone n) ⟨d, rest⟩ = .next ⟨d.brGo n Ec.on .enhancing, rest⟩) ∧
  (∀ (d : Dev) (rest : List Instr) (n : Fin 64), d.bs n = Ec.inrush →
    closed d.now (d.B n).doneW (d.rd (BR_DONE.DONE_TIME n)) = true → d.keep.on = false → d.brMay = true → d.brDue n = [] →
    ∃ t : Dev, exec (.brSoftstartDone n) ⟨d, rest⟩ = .next ⟨t, rest⟩ ∧ t.bs n = Ec.on ∧ (t.B n).gate = .enhancing ∧
    (t.B n).doneW = none ∧ (t.B n).ss = none ∧ (t.B n).oc = none ∧ t.flt.msgs = d.flt.msgs) ∧
  (∀ (d : Dev) (rest : List Instr) (n : Fin 64) (i : BitVec 12), d.lowPower = false → d.onGrid (624 + n / 8) = true →
    d.reservedNow (n / 8) = some (n % 8) →
    exec (.brSample n i none none) ⟨d, rest⟩ = .next ⟨let v := sext 12 (d.code (624 + n / 8) (d.slotNow % 4) true 12 i).toNat; ((d.takeInst (624 + n / 8)).deliver (brTag n 0) (trunc 16 v) 0 (d.calFlag (624 + n / 8))).brI n v, rest⟩) ∧
  (∀ (d : Dev) (rest : List Instr) (n : Fin 64) (i : BitVec 12), d.lowPower = false → d.onGrid (624 + n / 8) = true →
    (d.calTurn (624 + n / 8)).sliceOut (624 + n / 8) (d.slotNow % 4) = false →
    (d.calTurn (624 + n / 8)).reservedNow (n / 8) = some (n % 8) → (d.calTurn (624 + n / 8)).bs n = Ec.off →
    (d.B n).downs = [] → ∃ t : Dev, exec (.brSample n i none none) ⟨d, rest⟩ = .next ⟨t, rest⟩ ∧
    (t.B n).i = sext 12 ((d.calTurn (624 + n / 8)).code (624 + n / 8) (d.slotNow % 4) true 12 i).toNat ∧ t.bs n = Ec.off) ∧
  (∀ (d : Dev) (rest : List Instr) (n : Fin 64) (i v : BitVec 12), d.lowPower = false → d.onGrid (624 + n / 8) = true →
    (d.calTurn (624 + n / 8)).sliceOut (624 + n / 8) (d.slotNow % 4) = false →
    (d.calTurn (624 + n / 8)).reservedNow (n / 8) = some (8 + n % 8) → d.bs n = Ec.check → ∃ t : Dev,
    exec (.brSample n i (some v) none) ⟨d, rest⟩ = .next ⟨t, rest⟩ ∧
    (t.B n).vin = ((d.calTurn (624 + n / 8)).code (624 + n / 8) (d.slotNow % 4) false 12 v).toNat ∧
    ((t.B n).qualN = (if d.rd (BR_VLIM.UV n) ≤ (t.B n).vin ∧ (t.B n).vin < d.rd (BR_VLIM.OV n) then (d.B n).qualN + 1 else 0)) ∧
    t.bs n = Ec.check) ∧
  (∀ (d : Dev) (rest : List Instr) (n : Fin 64) (i v : BitVec 12), d.lowPower = false → d.onGrid (624 + n / 8) = true →
    (d.calTurn (624 + n / 8)).sliceOut (624 + n / 8) (d.slotNow % 4) = false →
    (d.calTurn (624 + n / 8)).reservedNow (n / 8) = some (24 + n % 8) → ∃ t : Dev,
    exec (.brSample n i none (some v)) ⟨d, rest⟩ = .next ⟨t, rest⟩ ∧
    (t.B n).vout = ((d.calTurn (624 + n / 8)).code (624 + n / 8) (d.slotNow % 4) false 12 v).toNat ∧ t.bs n = d.bs n) ∧
  (∀ (d : Dev) (rest : List Instr) (n : Fin 64) (x : DownSt), (d.B n).downs = [x] → d.downDice x ≠ [] → d.keep.on = false →
    d.linkUp 7 = true → d.mem.err = [] → d.bmap n = [] → d.brPhases n = [] → ∃ t : Dev,
    exec (.branchDownArrive n) ⟨d, rest⟩ = .next ⟨t, rest⟩ ∧
    ((t.B n).downs = (if (d.downDice x).foldl setBit x.msg = 15 then [] else [{ x with msg := (d.downDice x).foldl setBit x.msg }])) ∧
    t.regs = d.regs ∧ (∀ m, m ≠ n.val → t.B m = d.B m)) ∧
  (∀ (d : Dev) (rest : List Instr) (n : Fin 64) (e : Fin 16) (x : DownSt), (d.B n).downs = [x] → d.keep.on = false →
    d.mem.err = [] → d.pairGone 0x90 = false → d.on (BMAP.VALID n e) = true → d.rd (BMAP.ACTION n e) = 1 →
    x.msg.testBit (d.rd (BMAP.RAIL n e) / 16) = true → x.dep.testBit e = false → x.tb + 8 * d.rd (BMAP.DELAY n e) ≤ d.now →
    exec (.dependDisable n e) ⟨d, rest⟩ = .next ⟨((d.mapStop (d.rd (BMAP.RAIL n e))).onDown n x.tb fun y => { y with dep := setBit y.dep e }).downPrune n, rest⟩) ∧
  (∀ (d : Dev) (rest : List Instr) (n : Fin 64) (e : Fin 16) (x : DownSt) (r : Nat), (d.B n).downs = [x] → d.keep.on = false →
    d.mem.err = [] → d.pairGone 0x90 = false → d.on (BMAP.VALID n e) = true → d.rd (BMAP.ACTION n e) = 1 →
    r = d.rd (BMAP.RAIL n e) → x.msg.testBit (r / 16) = true → x.dep.testBit e = false →
    x.tb + 8 * d.rd (BMAP.DELAY n e) ≤ d.now → d.rLive r = true → (d.R r).samp = [] → ∃ t : Dev,
    exec (.dependDisable n e) ⟨d, rest⟩ = .next ⟨t, rest⟩ ∧ t.rs r = Rs.off ∧ t.rd (RAIL_VREF.VREF r) = 0 ∧
    t.rd (RAIL_DUTY.DUTY r) = 0 ∧ t.rd (RAIL_STATUS.PG r) = 0)

/-- The retry machine of a unit. A delay that has expired hands over to the retry or to a cool-down window; a cool-down that closes
latches the unit; COUNT_CLEAR returns the count to 0. Each clause concludes that exec answers a next state, from premises on the
state and the operands alone. Completion is so stated for: retryDelayExpire, coolTimeout, countClear. (R74, R75, R76) -/
def Obligations.RetryTimers : Prop :=
  (∀ (d : Dev) (rest : List Instr) (u : Fin 592), d.delayDue u = true → d.retryCool u = false → ∃ t : Dev,
    exec (.retryDelayExpire u) ⟨d, rest⟩ = .next ⟨t, rest⟩ ∧ t.rd (RETRY_STAT.RSTATE u) = Rt.cool ∧ (t.RT u).delay = none ∧
    (t.RT u).cool = some ((d.RT u).delay.getD d.now + d.rtPol u 5 POL5.COOL_TMAX)) ∧
  (∀ (d : Dev) (rest : List Instr) (u : Fin 592), d.delayDue u = true → d.retryCool u = true →
    exec (.retryDelayExpire u) ⟨d, rest⟩ = .next ⟨d.retryNow u, rest⟩) ∧
  (∀ (d : Dev) (rest : List Instr) (u : Fin 592), d.coolOver u = true →
    exec (.coolTimeout u) ⟨d, rest⟩ = .next ⟨(if u.val < 16 then d.entCoolLatch u else if u.val < 80 then d.brCoolLatch (u - 16) else d.phCoolLatch (u - 80)), rest⟩) ∧
  (∀ (d : Dev) (rest : List Instr) (u : Fin 592), 0 ≤ u.val → u.val < 16 → d.coolOver u = true → d.mem.err = [] →
    d.bankOff 0x81 = false → ∃ t : Dev, exec (.coolTimeout u) ⟨d, rest⟩ = .next ⟨t, rest⟩ ∧
    t.rd (ENT_STATUS.STATE u) = Ec.latched ∧ t.rd (RETRY_STAT.RSTATE u) = Rt.latched ∧ t.rd (RETRY_STAT.COOL_TO u) = 1 ∧
    (t.RT u).cool = none) ∧
  (∀ (d : Dev) (rest : List Instr) (u : Fin 592), 16 ≤ u.val → u.val < 80 → d.coolOver u = true → d.mem.err = [] →
    d.bankOff 0x81 = false → ∃ t : Dev, exec (.coolTimeout u) ⟨d, rest⟩ = .next ⟨t, rest⟩ ∧
    t.rd (BR_STATUS.STATE (u - 16)) = Ec.latched ∧ t.rd (RETRY_STAT.RSTATE u) = Rt.latched ∧ t.rd (RETRY_STAT.COOL_TO u) = 1 ∧
    (t.RT u).cool = none) ∧
  (∀ (d : Dev) (rest : List Instr) (u : Fin 592), 80 ≤ u.val → u.val < 592 → d.coolOver u = true → d.mem.err = [] →
    d.bankOff 0x81 = false → ∃ t : Dev, exec (.coolTimeout u) ⟨d, rest⟩ = .next ⟨t, rest⟩ ∧
    t.rd (PH_STATE.STATE (u - 80)) = Ps.latched ∧ t.rd (RETRY_STAT.RSTATE u) = Rt.latched ∧ t.rd (RETRY_STAT.COOL_TO u) = 1 ∧
    (t.RT u).cool = none) ∧
  (∀ (d : Dev) (rest : List Instr) (u : Fin 592) (k : Nat), (d.RT u).clear = some k → k ≤ d.now → ∃ t : Dev,
    exec (.countClear u) ⟨d, rest⟩ = .next ⟨t, rest⟩ ∧ t.rd (RETRY_STAT.RETRY_CNT u) = 0 ∧ (t.RT u).clear = none)

/-- A phase trips. A comparator trip of a live phase, or a trip whose window or count has come due. Each clause concludes that exec
answers a next state, from premises on the state and the operands alone. Completion is so stated for: phFuse, phStage, phOc,
phNeg, phHot, phImonRange, phShare. (R140, R141, R135, R142) -/
def Obligations.PhaseTrips : Prop :=
  (∀ (d : Dev) (rest : List Instr) (p : Fin 512), d.phLive p = true →
    exec (.phFuse p) ⟨d, rest⟩ = .next ⟨d.phTrip p 0 (1 :: d.phDue p), rest⟩) ∧
  (∀ (d : Dev) (rest : List Instr) (p : Fin 512), d.phLive p = true →
    exec (.phStage p) ⟨d, rest⟩ = .next ⟨d.phTrip p 0 (2 :: d.phDue p), rest⟩) ∧
  (∀ (d : Dev) (rest : List Instr) (p : Fin 512), 3 ∈ d.phDue p →
    exec (.phOc p) ⟨d, rest⟩ = .next ⟨d.phTrip p 6 (d.phDue p), rest⟩) ∧
  (∀ (d : Dev) (rest : List Instr) (p : Fin 512), 4 ∈ d.phDue p →
    exec (.phNeg p) ⟨d, rest⟩ = .next ⟨d.phTrip p 6 (d.phDue p), rest⟩) ∧
  (∀ (d : Dev) (rest : List Instr) (p : Fin 512), 5 ∈ d.phDue p →
    exec (.phHot p) ⟨d, rest⟩ = .next ⟨d.phTrip p 6 (d.phDue p), rest⟩) ∧
  (∀ (d : Dev) (rest : List Instr) (p : Fin 512), 6 ∈ d.phDue p →
    exec (.phImonRange p) ⟨d, rest⟩ = .next ⟨d.phTrip p 6 (d.phDue p), rest⟩) ∧
  (∀ (d : Dev) (rest : List Instr) (p : Fin 512), 7 ∈ d.phDue p →
    exec (.phShare p) ⟨d, rest⟩ = .next ⟨d.phTrip p 6 (d.phDue p), rest⟩) ∧
  (∀ (d : Dev) (rest : List Instr) (p : Fin 512) (r : Nat), (d.ps p = Ps.idle ∨ d.ps p = Ps.active) → (d.P p).rail = some r →
    d.mem.err = [] → (d.P p).tripAt ≠ some d.now → (∀ k, (d.RT (80 + p)).clear = some k → d.now < k) → ∃ t : Dev,
    exec (.phFuse p) ⟨d, rest⟩ = .next ⟨t, rest⟩ ∧
    (t.ps p = if d.latchesOn (80 + p) 1 = true then Ps.latched else Ps.tripped) ∧ t.rd (PH_STATE.CAUSE p) = 1 ∧
    (t.rd (PH_STATE.ALSO p) = ((d.phDue p).filter fun c => decide (c ≠ 1) && d.tripEn (80 + p) c).foldl setBit 0) ∧
    t.rdBit (PH_EVT.EVT p) 1 = true ∧ t.Reports (0x20 + 1) p ∧
    (t.rd (RETRY_STAT.RSTATE (80 + p)) = if d.latchesOn (80 + p) 1 = true then Rt.latched else Rt.delay) ∧
    (t.P p).active = false ∧ (t.P p).tripAt = some d.now ∧ (∀ q, q ≠ p.val → (t.P q).active = (d.P q).active)) ∧
  (∀ (d : Dev) (rest : List Instr) (p : Fin 512) (r : Nat), (d.ps p = Ps.idle ∨ d.ps p = Ps.active) → (d.P p).rail = some r →
    d.mem.err = [] → (d.P p).tripAt ≠ some d.now → (∀ k, (d.RT (80 + p)).clear = some k → d.now < k) → ∃ t : Dev,
    exec (.phStage p) ⟨d, rest⟩ = .next ⟨t, rest⟩ ∧
    (t.ps p = if d.latchesOn (80 + p) 2 = true then Ps.latched else Ps.tripped) ∧ t.rd (PH_STATE.CAUSE p) = 2 ∧
    (t.rd (PH_STATE.ALSO p) = ((d.phDue p).filter fun c => decide (c ≠ 2) && d.tripEn (80 + p) c).foldl setBit 0) ∧
    t.rdBit (PH_EVT.EVT p) 2 = true ∧ t.Reports (0x20 + 2) p ∧
    (t.rd (RETRY_STAT.RSTATE (80 + p)) = if d.latchesOn (80 + p) 2 = true then Rt.latched else Rt.delay) ∧
    (t.P p).active = false ∧ (t.P p).tripAt = some d.now ∧ (∀ q, q ≠ p.val → (t.P q).active = (d.P q).active)) ∧
  (∀ (d : Dev) (rest : List Instr) (p : Fin 512) (r : Nat), (d.ps p = Ps.idle ∨ d.ps p = Ps.active) → (d.P p).rail = some r →
    d.mem.err = [] → (d.P p).tripAt ≠ some d.now → (∀ k, (d.RT (80 + p)).clear = some k → d.now < k) →
    closed d.now (d.P p).oc (d.rd (PH_OC_TIME.VAL r)) = true → d.rdBit (POL0.TRIP_EN (d.unitPol (80 + p))) 3 = true →
    ∃ t : Dev, exec (.phOc p) ⟨d, rest⟩ = .next ⟨t, rest⟩ ∧
    (t.ps p = if d.latchesOn (80 + p) 3 = true then Ps.latched else Ps.tripped) ∧ t.rd (PH_STATE.CAUSE p) = 3 ∧
    (t.rd (PH_STATE.ALSO p) = ((d.phDue p).filter fun c => decide (c ≠ 3) && d.tripEn (80 + p) c).foldl setBit 0) ∧
    t.rdBit (PH_EVT.EVT p) 3 = true ∧ t.Reports (0x20 + 3) p ∧
    (t.rd (RETRY_STAT.RSTATE (80 + p)) = if d.latchesOn (80 + p) 3 = true then Rt.latched else Rt.delay) ∧
    (t.P p).active = false ∧ (t.P p).tripAt = some d.now ∧ (∀ q, q ≠ p.val → (t.P q).active = (d.P q).active)) ∧
  (∀ (d : Dev) (rest : List Instr) (p : Fin 512) (r : Nat), (d.ps p = Ps.idle ∨ d.ps p = Ps.active) → (d.P p).rail = some r →
    d.mem.err = [] → (d.P p).tripAt ≠ some d.now → (∀ k, (d.RT (80 + p)).clear = some k → d.now < k) →
    closed d.now (d.P p).oc (d.rd (PH_OC_TIME.VAL r)) = false → closed d.now (d.P p).neg (d.rd (PH_OC_TIME.VAL r)) = true →
    d.rdBit (POL0.TRIP_EN (d.unitPol (80 + p))) 4 = true → ∃ t : Dev, exec (.phNeg p) ⟨d, rest⟩ = .next ⟨t, rest⟩ ∧
    (t.ps p = if d.latchesOn (80 + p) 4 = true then Ps.latched else Ps.tripped) ∧ t.rd (PH_STATE.CAUSE p) = 4 ∧
    (t.rd (PH_STATE.ALSO p) = ((d.phDue p).filter fun c => decide (c ≠ 4) && d.tripEn (80 + p) c).foldl setBit 0) ∧
    t.rdBit (PH_EVT.EVT p) 4 = true ∧ t.Reports (0x20 + 4) p ∧
    (t.rd (RETRY_STAT.RSTATE (80 + p)) = if d.latchesOn (80 + p) 4 = true then Rt.latched else Rt.delay) ∧
    (t.P p).active = false ∧ (t.P p).tripAt = some d.now ∧ (∀ q, q ≠ p.val → (t.P q).active = (d.P q).active)) ∧
  (∀ (d : Dev) (rest : List Instr) (p : Fin 512) (r : Nat), (d.ps p = Ps.idle ∨ d.ps p = Ps.active) → (d.P p).rail = some r →
    d.mem.err = [] → (d.P p).tripAt ≠ some d.now → (∀ k, (d.RT (80 + p)).clear = some k → d.now < k) →
    closed d.now (d.P p).oc (d.rd (PH_OC_TIME.VAL r)) = false → closed d.now (d.P p).neg (d.rd (PH_OC_TIME.VAL r)) = false →
    16 ≤ (d.P p).hotN → d.rdBit (POL0.TRIP_EN (d.unitPol (80 + p))) 5 = true → ∃ t : Dev,
    exec (.phHot p) ⟨d, rest⟩ = .next ⟨t, rest⟩ ∧ (t.ps p = if d.latchesOn (80 + p) 5 = true then Ps.latched else Ps.tripped) ∧
    t.rd (PH_STATE.CAUSE p) = 5 ∧
    (t.rd (PH_STATE.ALSO p) = ((d.phDue p).filter fun c => decide (c ≠ 5) && d.tripEn (80 + p) c).foldl setBit 0) ∧
    t.rdBit (PH_EVT.EVT p) 5 = true ∧ t.Reports (0x20 + 5) p ∧
    (t.rd (RETRY_STAT.RSTATE (80 + p)) = if d.latchesOn (80 + p) 5 = true then Rt.latched else Rt.delay) ∧
    (t.P p).active = false ∧ (t.P p).tripAt = some d.now ∧ (∀ q, q ≠ p.val → (t.P q).active = (d.P q).active)) ∧
  (∀ (d : Dev) (rest : List Instr) (p : Fin 512) (r : Nat), (d.ps p = Ps.idle ∨ d.ps p = Ps.active) → (d.P p).rail = some r →
    d.mem.err = [] → (d.P p).tripAt ≠ some d.now → (∀ k, (d.RT (80 + p)).clear = some k → d.now < k) →
    closed d.now (d.P p).oc (d.rd (PH_OC_TIME.VAL r)) = false → closed d.now (d.P p).neg (d.rd (PH_OC_TIME.VAL r)) = false →
    (d.P p).hotN < 16 → 16 ≤ (d.P p).satN → d.rdBit (POL0.TRIP_EN (d.unitPol (80 + p))) 6 = true → ∃ t : Dev,
    exec (.phImonRange p) ⟨d, rest⟩ = .next ⟨t, rest⟩ ∧
    (t.ps p = if d.latchesOn (80 + p) 6 = true then Ps.latched else Ps.tripped) ∧ t.rd (PH_STATE.CAUSE p) = 6 ∧
    (t.rd (PH_STATE.ALSO p) = ((d.phDue p).filter fun c => decide (c ≠ 6) && d.tripEn (80 + p) c).foldl setBit 0) ∧
    t.rdBit (PH_EVT.EVT p) 6 = true ∧ t.Reports (0x20 + 6) p ∧
    (t.rd (RETRY_STAT.RSTATE (80 + p)) = if d.latchesOn (80 + p) 6 = true then Rt.latched else Rt.delay) ∧
    (t.P p).active = false ∧ (t.P p).tripAt = some d.now ∧ (∀ q, q ≠ p.val → (t.P q).active = (d.P q).active)) ∧
  (∀ (d : Dev) (rest : List Instr) (p : Fin 512) (r : Nat), (d.ps p = Ps.idle ∨ d.ps p = Ps.active) → (d.P p).rail = some r →
    d.mem.err = [] → (d.P p).tripAt ≠ some d.now → (∀ k, (d.RT (80 + p)).clear = some k → d.now < k) →
    closed d.now (d.P p).oc (d.rd (PH_OC_TIME.VAL r)) = false → closed d.now (d.P p).neg (d.rd (PH_OC_TIME.VAL r)) = false →
    (d.P p).hotN < 16 → (d.P p).satN < 16 → closed d.now (d.P p).share (d.rd (SHARE_TIME.VAL r)) = true →
    d.rdBit (POL0.TRIP_EN (d.unitPol (80 + p))) 7 = true → ∃ t : Dev, exec (.phShare p) ⟨d, rest⟩ = .next ⟨t, rest⟩ ∧
    (t.ps p = if d.latchesOn (80 + p) 7 = true then Ps.latched else Ps.tripped) ∧ t.rd (PH_STATE.CAUSE p) = 7 ∧
    (t.rd (PH_STATE.ALSO p) = ((d.phDue p).filter fun c => decide (c ≠ 7) && d.tripEn (80 + p) c).foldl setBit 0) ∧
    t.rdBit (PH_EVT.EVT p) 7 = true ∧ t.Reports (0x20 + 7) p ∧
    (t.rd (RETRY_STAT.RSTATE (80 + p)) = if d.latchesOn (80 + p) 7 = true then Rt.latched else Rt.delay) ∧
    (t.P p).active = false ∧ (t.P p).tripAt = some d.now ∧ (∀ q, q ≠ p.val → (t.P q).active = (d.P q).active))

/-- Phase samples. A thermometer sample counts toward HOT or judges the cool-down; a current sample gives the phase its trimmed
current, and an empty instant keeps it. Each clause concludes that exec answers a next state, from premises on the state and the
operands alone. Completion is so stated for: tfltSample, pccSample. (R94, R126, R140, R141, R185) -/
def Obligations.PhaseSamples : Prop :=
  (∀ (d : Dev) (rest : List Instr) (p : Fin 512) (uv : BitVec 24) (r : Nat), (d.P p).rail = some r → d.phLive p = true →
    d.now % 80 = 0 → ∃ t : Dev, exec (.tfltSample p uv) ⟨d, rest⟩ = .next ⟨t, rest⟩ ∧
    ((t.P p).hotN = (if d.atLeastV r uv.toNat (d.rds (TF_HOT.T_HOT r)) then (d.P p).hotN + 1 else 0)) ∧ t.regs = d.regs ∧
    (∀ k, k ≠ p.val → t.P k = d.P k)) ∧
  (∀ (d : Dev) (rest : List Instr) (p : Fin 512) (uv : BitVec 24) (r : Nat), (d.P p).rail = some r →
    (d.ps p = Ps.latched ∨ d.ps p = Ps.fenced) → d.now % 80 = 0 → ∃ t : Dev,
    exec (.tfltSample p uv) ⟨d, rest⟩ = .next ⟨t, rest⟩ ∧
    (t.P p).cool = (! d.atLeastV r uv.toNat (d.phTRetry p) && decide (uv.toNat ≤ 2200000)) ∧ t.regs = d.regs) ∧
  (∀ (d : Dev) (rest : List Instr) (p : Fin 512), d.onGrid p = true → (d.P p).leave = none → (d.P p).rail = none →
    exec (.pccSample p none) ⟨d, rest⟩ = .next ⟨d.takeInst p, rest⟩) ∧
  (∀ (d : Dev) (rest : List Instr) (p : Fin 512) (c : BitVec 14) (r : Nat), d.onGrid p = true → d.sampled p = true →
    (d.P p).leave = none → (d.P p).rail = some r → (d.R r).samp = [] → ∃ t : Dev,
    exec (.pccSample p (some c)) ⟨d, rest⟩ = .next ⟨t, rest⟩ ∧
    (t.P p).i = d.trimmed p (sext 14 (d.code p (sliceAt p d.now) true 14 c).toNat) ∧ (t.P p).cnt = (d.P p).cnt + 1) ∧
  (∀ (d : Dev) (rest : List Instr) (p : Fin 512) (r : Nat), d.onGrid p = true → (d.R r).samp = [] → (d.P p).leave = none →
    (d.P p).rail = some r → (d.warp r).getLast? ≠ some p.val → ∃ t : Dev,
    exec (.pccSample p none) ⟨d, rest⟩ = .next ⟨t, rest⟩ ∧ (t.R r).iSum = d.sumNow r ∧ t.regs = d.regs)

/-- Rail protection, start-up and power-good. Each protection or start-up event of a rail, its condition met, sets its event bit,
moves the rail and tells the selvage as its rule gives. Each clause concludes that exec answers a next state, from premises on
the state and the operands alone. Completion is so stated for: catchUndershoot, catchOvershoot, catchRelease, catchExpired,
sense, railOv, railUv, railOc, startTimeout, errorModeSwitch, rerangeDone, pgAssert, pgDeassert. (R103, R104, R106, R112, R113,
R115, R116, R118, R143) -/
def Obligations.RailEvents : Prop :=
  (∀ (d : Dev) (rest : List Instr) (r : Fin 64) (uv : BitVec 24), 32 * (uv.toNat : Int) < d.catchLow r → d.catchArmed r = true →
    (d.R r).cmpU = false → exec (.catchUndershoot ⟨r, uv⟩) ⟨d, rest⟩ = .next ⟨d.catchOn r false, rest⟩) ∧
  (∀ (d : Dev) (rest : List Instr) (r : Fin 64) (uv : BitVec 24), 32 * (uv.toNat : Int) < d.catchLow r → d.catchArmed r = true →
    (d.R r).cmpU = false → (d.R r).cmpO = false → (d.R r).samp = [] → ∃ t : Dev,
    exec (.catchUndershoot ⟨r, uv⟩) ⟨d, rest⟩ = .next ⟨t, rest⟩ ∧ (t.R r).cmpU = true ∧ (t.R r).catU = some d.now ∧
    (t.R r).both = none ∧ (t.rd (RAIL_EVT.EVT r)).testBit 0 = true ∧ t.rs r = d.rs r ∧ t.Reports 0x37 r) ∧
  (∀ (d : Dev) (rest : List Instr) (r : Fin 64) (uv : BitVec 24), 32 * (uv.toNat : Int) < d.catchLow r → d.catchArmed r = true →
    (d.R r).cmpU = false → (d.R r).cmpO = true → (d.R r).samp = [] → ∃ t : Dev,
    exec (.catchUndershoot ⟨r, uv⟩) ⟨d, rest⟩ = .next ⟨t, rest⟩ ∧ (t.R r).cmpU = true ∧ (t.R r).both = some d.now ∧
    (t.rd (RAIL_EVT.EVT r)).testBit 0 = true ∧ t.Reports 0x37 r) ∧
  (∀ (d : Dev) (rest : List Instr) (r : Fin 64) (uv : BitVec 24), d.catchHigh r < 32 * (uv.toNat : Int) → d.catchArmed r = true →
    (d.R r).cmpO = false → exec (.catchOvershoot ⟨r, uv⟩) ⟨d, rest⟩ = .next ⟨d.catchOn r true, rest⟩) ∧
  (∀ (d : Dev) (rest : List Instr) (r : Fin 64) (uv : BitVec 24), d.catchHigh r < 32 * (uv.toNat : Int) → d.catchArmed r = true →
    (d.R r).cmpO = false → (d.R r).cmpU = false → (d.R r).samp = [] → ∃ t : Dev,
    exec (.catchOvershoot ⟨r, uv⟩) ⟨d, rest⟩ = .next ⟨t, rest⟩ ∧ (t.R r).cmpO = true ∧ (t.R r).catO = some d.now ∧
    (t.R r).both = none ∧ (t.rd (RAIL_EVT.EVT r)).testBit 1 = true ∧ t.rs r = d.rs r ∧ t.Reports 0x37 r) ∧
  (∀ (d : Dev) (rest : List Instr) (r : Fin 64) (uv : BitVec 24), d.catchHigh r < 32 * (uv.toNat : Int) → d.catchArmed r = true →
    (d.R r).cmpO = false → (d.R r).cmpU = true → (d.R r).samp = [] → ∃ t : Dev,
    exec (.catchOvershoot ⟨r, uv⟩) ⟨d, rest⟩ = .next ⟨t, rest⟩ ∧ (t.R r).cmpO = true ∧ (t.R r).both = some d.now ∧
    (t.rd (RAIL_EVT.EVT r)).testBit 1 = true ∧ t.Reports 0x37 r) ∧
  (∀ (d : Dev) (rest : List Instr) (r : Fin 64) (ovs : Bool) (uv : BitVec 24), d.catchFree r ovs uv.toNat = true →
    (d.R r).both = none → (d.R r).catU = none → (d.R r).catO = none → ∃ t : Dev,
    exec (.catchRelease ⟨r, uv⟩ ovs) ⟨d, rest⟩ = .next ⟨t, rest⟩ ∧ ((if ovs then (t.R r).cmpO else (t.R r).cmpU) = false) ∧
    (t.R r).both = none ∧ t.regs = d.regs) ∧
  (∀ (d : Dev) (rest : List Instr) (r : Fin 64), closed d.now (d.R r).catU (d.rd (RAIL_CATCH_MAX.CATCH_MAX r)) = true →
    (d.R r).catO = none → exec (.catchExpired r) ⟨d, rest⟩ = .next ⟨d.catchExpire r false, rest⟩) ∧
  (∀ (d : Dev) (rest : List Instr) (r : Fin 64), closed d.now (d.R r).catU (d.rd (RAIL_CATCH_MAX.CATCH_MAX r)) = true →
    (d.R r).catO = none → (d.R r).samp = [] → ∃ t : Dev, exec (.catchExpired r) ⟨d, rest⟩ = .next ⟨t, rest⟩ ∧
    (t.R r).catU = none ∧ (t.rd (RAIL_EVT.EVT r)).testBit 2 = true ∧ t.rs r = d.rs r ∧ t.Reports 0x38 r) ∧
  (∀ (d : Dev) (rest : List Instr) (r : Fin 64), closed d.now (d.R r).both 16 = true → ∃ t : Dev,
    exec (.sense r) ⟨d, rest⟩ = .next ⟨t, rest⟩ ∧ (t.R r).both = none ∧ (t.rd (RAIL_EVT.EVT r)).testBit 6 = true ∧
    t.Reports 0x34 r ∧ (∀ o, o ≠ (RAIL_EVT.EVT r).off → t.word o = d.word o)) ∧
  (∀ (d : Dev) (rest : List Instr) (r : Fin 64) (uv : BitVec 24), d.rLive r = true →
    500 * d.rd (RAIL_PROT.OV_TRIP r) < uv.toNat → ∃ t : Dev, exec (.railOv ⟨r, uv⟩) ⟨d, rest⟩ = .next ⟨t, rest⟩ ∧
    (t.R r).ovTrip = true ∧ (t.rd (RAIL_EVT.EVT r)).testBit 3 = true ∧ t.Reports 0x30 r ∧
    (∀ o, o ≠ (RAIL_EVT.EVT r).off → t.word o = d.word o)) ∧
  (∀ (d : Dev) (rest : List Instr) (r : Fin 64), d.rs r = Rs.run →
    closed d.now (d.R r).uv (d.rd (RAIL_UV_TIME.UV_TIME r)) = true → ∃ t : Dev, exec (.railUv r) ⟨d, rest⟩ = .next ⟨t, rest⟩ ∧
    (t.R r).uv = none ∧ (t.rd (RAIL_EVT.EVT r)).testBit 4 = true ∧ t.Reports 0x31 r ∧
    (∀ o, o ≠ (RAIL_EVT.EVT r).off → t.word o = d.word o)) ∧
  (∀ (d : Dev) (rest : List Instr) (r : Fin 64), d.rLive r = true → closed d.now (d.R r).ocW (d.rd (ILIM_TIME.VAL r)) = true →
    ∃ t : Dev, exec (.railOc r) ⟨d, rest⟩ = .next ⟨t, rest⟩ ∧ (t.R r).ocW = none ∧ (t.rd (RPH_EVT.EVT r)).testBit 3 = true ∧
    t.Reports 0x32 r ∧ (∀ o, o ≠ (RPH_EVT.EVT r).off → t.word o = d.word o)) ∧
  (∀ (d : Dev) (rest : List Instr) (r : Fin 64), d.startOver r = true → (d.R r).ssOut = false → ∃ t : Dev,
    exec (.startTimeout r) ⟨d, rest⟩ = .next ⟨t, rest⟩ ∧ (t.R r).ssOut = true ∧ (t.rd (RAIL_EVT.EVT r)).testBit 5 = true ∧
    t.Reports 0x33 r ∧ (∀ o, o ≠ (RAIL_EVT.EVT r).off → t.word o = d.word o)) ∧
  (∀ (d : Dev) (rest : List Instr) (r : Fin 64) (k : Nat), d.rs r = Rs.start → (d.R r).wideDue = some k → k ≤ d.now →
    (d.R r).rerange = none → (d.R r).samp = [] → ∃ t : Dev, exec (.errorModeSwitch r) ⟨d, rest⟩ = .next ⟨t, rest⟩ ∧
    (t.R r).rerange = some (k + 32) ∧ t.regs = d.regs ∧ (∀ k, k ≠ r.val → t.R k = d.R k)) ∧
  (∀ (d : Dev) (rest : List Instr) (r : Fin 64) (k : Nat), (d.R r).rerange = some k → d.rs r = Rs.start → k ≤ d.now →
    d.startOver r = false → (d.R r).samp = [] → ∃ t : Dev, exec (.rerangeDone r) ⟨d, rest⟩ = .next ⟨t, rest⟩ ∧
    t.rs r = Rs.run ∧
    t.rd (RAIL_STATUS.SLEWING r) = b2n (decide (d.rd (RAIL_VREF.VREF r) ≠ 2000 * d.rd (RAIL_TARGET.TARGET r))) ∧
    t.rd (RAIL_STATUS.MODE r) = 1 ∧ (t.R r).rerange = none ∧ (∀ o, o ≠ (RAIL_STATUS.STATE r).off → t.word o = d.word o)) ∧
  (∀ (d : Dev) (rest : List Instr) (r : Fin 64), d.rs r = Rs.run →
    closed d.now (d.R r).pgOn (d.rd (RAIL_PG_DELAY.PG_DELAY r)) = true → ∃ t : Dev,
    exec (.pgAssert r) ⟨d, rest⟩ = .next ⟨t, rest⟩ ∧ t.rd (RAIL_STATUS.PG r) = 1 ∧ (t.R r).pgOn = none ∧
    (∀ o, o ≠ (RAIL_STATUS.PG r).off → t.word o = d.word o)) ∧
  (∀ (d : Dev) (rest : List Instr) (r : Fin 64), d.rs r = Rs.run → closed d.now (d.R r).pgOff (d.rd (RAIL_PG.PG_FILT r)) = true →
    ∃ t : Dev, exec (.pgDeassert r) ⟨d, rest⟩ = .next ⟨t, rest⟩ ∧ t.rd (RAIL_STATUS.PG r) = 0 ∧ (t.R r).pgOff = none ∧
    (∀ o, o ≠ (RAIL_STATUS.PG r).off → t.word o = d.word o))

/-- The loom runs on each RVC instant, and the weft at each switching period. An empty instant runs the compensator again on the
previous code; a due duty command is taken from its pipe; a boundary of a rail that is switching is the wefts, and of one that
is off it moves the heat estimates. Each clause concludes that exec answers a next state, from premises on the state and the
operands alone. Completion is so stated for: rvcSample, dutyApply, switchingPeriodBoundary. (R92, R99, R105, R128) -/
def Obligations.RailSamples : Prop :=
  (∀ (d : Dev) (rest : List Instr) (r : Fin 64), d.rLive r = true → d.onGrid (512 + r) = true → (d.R r).samp = [] →
    exec (.rvcSample r none) ⟨d, rest⟩ = .next ⟨((d.takeInst (512 + r)).shuttleStep r).feed r, rest⟩) ∧
  (∀ (d : Dev) (rest : List Instr) (r : Fin 64), d.rLive r = true → d.onGrid (512 + r) = true → (d.R r).samp = [] →
    (d.R r).spec = none → ∃ t : Dev, exec (.rvcSample r none) ⟨d, rest⟩ = .next ⟨t, rest⟩ ∧
    (t.R r).samp = [(d.now, (d.R r).x)] ∧ t.rs r = d.rs r ∧ t.rd (RAIL_VMEAS.VMEAS r) = d.rd (RAIL_VMEAS.VMEAS r) ∧
    t.rd (RAIL_VREF.VREF r) = d.rd (RAIL_VREF.VREF r)) ∧
  (∀ (d : Dev) (rest : List Instr) (r : Fin 64) (code : BitVec 14), d.rLive r = true → d.onGrid (512 + r) = true →
    d.sampled (512 + r) = true → (d.R r).samp = [] →
    exec (.rvcSample r (some code)) ⟨d, rest⟩ = .next ⟨(d.takeInst (512 + r)).rvcFresh r ((d.takeInst (512 + r)).rvcCode r code), rest⟩) ∧
  (∀ (d : Dev) (rest : List Instr) (r : Fin 64) (code : BitVec 14), d.rLive r = true → d.onGrid (512 + r) = true →
    d.sampled (512 + r) = true → (d.R r).samp = [] → (d.R r).spec = none → d.rs r = Rs.run → d.on (RAIL_STATUS.MODE r) = true →
    ∃ t : Dev, exec (.rvcSample r (some code)) ⟨d, rest⟩ = .next ⟨t, rest⟩ ∧
    (t.R r).samp = [(d.now, sext 14 ((d.takeInst (512 + r)).rvcCode r code).toNat)] ∧
    (t.R r).vAbs = 8 * (t.rd (RAIL_VREF.VREF r) : Int) + 500 * sext 14 ((d.takeInst (512 + r)).rvcCode r code).toNat ∧
    t.rd (RAIL_VMEAS.VMEAS r) = (clip 0 65535 (divEven (t.R r).vAbs 1000)).toNat ∧ t.rs r = Rs.run) ∧
  (∀ (d : Dev) (rest : List Instr) (r : Fin 64) (code : BitVec 14), d.rLive r = true → d.onGrid (512 + r) = true →
    d.sampled (512 + r) = true → (d.R r).samp = [] → (d.R r).spec = none → d.rs r = Rs.run →
    d.on (RAIL_STATUS.MODE r) = false → ∃ t : Dev, exec (.rvcSample r (some code)) ⟨d, rest⟩ = .next ⟨t, rest⟩ ∧
    (t.R r).vAbs = 15625 * ((((d.takeInst (512 + r)).rvcCode r code).toNat % 4096 : Nat) : Int) ∧
    (t.R r).x = clip (-32767) 32767 (divEven ((t.R r).vAbs - 8 * (t.rd (RAIL_VREF.VREF r) : Int)) 500) ∧
    (t.R r).samp = [(d.now, (t.R r).x)] ∧ t.rd (RAIL_VMEAS.VMEAS r) = (clip 0 65535 (divEven (t.R r).vAbs 1000)).toNat) ∧
  (∀ (d : Dev) (rest : List Instr) (r : Fin 64) (t : Nat) (duty : Int), (d.R r).pipe = [(t, duty)] → t ≤ d.now →
    d.dutyHeld r t = false → (d.R r).relAt ≤ t → d.rLive r = true → (d.R r).samp = [] → ∃ t : Dev,
    exec (.dutyApply r) ⟨d, rest⟩ = .next ⟨t, rest⟩ ∧ (t.R r).dApp = duty ∧ (t.R r).pipe = [] ∧
    t.rd (RAIL_DUTY.DUTY r) = (clip 0 65535 (divEven duty 65536)).toNat) ∧
  (∀ (d : Dev) (rest : List Instr) (r : Fin 64) (b : Nat), d.rLive r = true → d.boundaryStep r = some b →
    (d.R r).lastB ≠ some d.now → d.warp r ≠ [] → (d.R r).samp = [] →
    exec (.switchingPeriodBoundary r) ⟨d, rest⟩ = .next ⟨(d.onR r fun x => { x with lastB := some d.now }).weft r b, rest⟩) ∧
  (∀ (d : Dev) (rest : List Instr) (r : Fin 64) (b : Nat), d.rLive r = true → d.boundaryStep r = some b →
    (d.R r).lastB ≠ some d.now → d.warp r ≠ [] → (d.R r).samp = [] → ∃ t : Dev,
    exec (.switchingPeriodBoundary r) ⟨d, rest⟩ = .next ⟨t, rest⟩ ∧ (t.R r).lastB = some d.now ∧ (t.R r).iAcc = 0 ∧
    (t.R r).iCnt = 0 ∧ (t.R r).rotN = (d.R r).rotN + 1 ∧ (t.R r).effPend = false ∧ t.rs r = d.rs r) ∧
  (∀ (d : Dev) (rest : List Instr) (r : Fin 64) (b : Nat), d.rLive r = false → d.boundaryStep r = some b →
    (d.R r).lastB ≠ some d.now → d.warp r ≠ [] → (d.R r).samp = [] →
    exec (.switchingPeriodBoundary r) ⟨d, rest⟩ = .next ⟨(d.onR r fun x => { x with lastB := some d.now }).idleBoundary r, rest⟩) ∧
  (∀ (d : Dev) (rest : List Instr) (r : Fin 64) (b p : Nat), d.rLive r = false → d.warp r = [p] → d.boundaryStep r = some b →
    (d.R r).lastB ≠ some d.now → d.warp r ≠ [] → (d.R r).samp = [] → ∃ t : Dev,
    exec (.switchingPeriodBoundary r) ⟨d, rest⟩ = .next ⟨t, rest⟩ ∧ (t.R r).lastB = some d.now ∧ (t.R r).iAcc = 0 ∧
    (t.R r).rotN = (d.R r).rotN + 1 ∧ (t.P p).acc = 0 ∧ (t.P p).cnt = 0 ∧
    ((t.P p).iavg = (if (d.P p).active then meanOf (d.P p).acc (d.P p).cnt else 0)) ∧
    (t.rds (PH_IAVG.IAVG p) = trunc 16 (t.P p).iavg ∨ t.rds (PH_IAVG.IAVG p) = (t.P p).iavg))

/-- Frames of the load. Each kind of frame on a port that receives: HELLO brings the port up, STEP is answered, VID commits a
target, STATE is recorded and acknowledged, and a bad frame is counted. Each clause concludes that exec answers a next state,
from premises on the state and the operands alone. Completion is so stated for: intentFrameBad, hello, stateFrame, stepFrame,
vidFrame. (R150, R151, R152, R155, R156, R159, R177, R178) -/
def Obligations.IntentFrames : Prop :=
  (∀ (d : Dev) (rest : List Instr) (n : Fin 32), d.ipRx n = true → (d.IP n).blkBad < 7 → ∃ t : Dev,
    exec (.intentFrameBad n) ⟨d, rest⟩ = .next ⟨t, rest⟩ ∧
    t.rd (IP_CNT.BAD n) = satAdd (2 ^ (IP_CNT.BAD n).len - 1) (d.rd (IP_CNT.BAD n)) 1 ∧
    (∀ o, o ≠ (IP_CNT.BAD n).off → t.word o = d.word o)) ∧
  (∀ (d : Dev) (rest : List Instr) (n : Fin 32) (f : Frame), d.ipSt n = Ip.seek → (d.IP n).lastSeq = none →
    f.crc.toNat = frameCrc 1 f.seq.toNat f.payload.toNat → ∃ t : Dev, exec (.hello n f) ⟨d, rest⟩ = .next ⟨t, rest⟩ ∧
    t.ipSt n = Ip.up ∧ t.rd (IP_HELLO.HELLO n) = f.payload.toNat ∧ (t.IP n).silence = some d.now ∧
    (t.rd (IP_EVT.EVT n)).testBit 0 = true) ∧
  (∀ (d : Dev) (rest : List Instr) (n : Fin 32) (f : Frame), d.ipSt n = Ip.up → closed d.now (d.IP n).silence 32000 = false →
    (d.IP n).lastSeq ≠ some f.seq.toNat → f.crc.toNat = frameCrc 4 f.seq.toNat f.payload.toNat → ∃ t : Dev,
    exec (.stateFrame n f) ⟨d, rest⟩ = .next ⟨t, rest⟩ ∧ t.rd (IP_STATUS.LOAD_STATE n) = f.payload.toNat % 256 ∧
    (t.rd (IP_EVT.EVT n)).testBit 4 = true ∧ (t.IP n).lastSeq = some f.seq.toNat) ∧
  (∀ (d : Dev) (rest : List Instr) (n : Fin 32) (f : Frame), (d.ipTake n 2 f).2 = true → 4 ≤ bits f.payload.toNat 28 26 →
    exec (.stepFrame n f) ⟨d, rest⟩ = .next ⟨((d.ipTake n 2 f).1).ipDeny n f.seq.toNat (bits f.payload.toNat 30 29) 1, rest⟩) ∧
  (∀ (d : Dev) (rest : List Instr) (n : Fin 32) (f : Frame) (e : Dev), e = (d.ipTake n 2 f).1 → (d.ipTake n 2 f).2 = true →
    4 ≤ bits f.payload.toNat 28 26 → e.ipTx n = true → ∃ t : Dev, exec (.stepFrame n f) ⟨d, rest⟩ = .next ⟨t, rest⟩ ∧
    (t.IP n).txQ = (e.IP n).txQ ++ [{ kind := 0x83, seq := 0, payload := f.seq.toNat + bits f.payload.toNat 30 29 * 0x100 + 0x1000 }] ∧
    t.regs = e.regs) ∧
  (∀ (d : Dev) (rest : List Instr) (n : Fin 32) (f : Frame) (r : Nat), (d.ipTake n 2 f).2 = true →
    bits f.payload.toNat 28 26 < 4 → f.payload.toNat.testBit 31 = false →
    ((d.ipTake n 2 f).1).slotRail n (bits f.payload.toNat 30 29) = some r →
    ((d.ipTake n 2 f).1).stepDeny n (sext 16 f.payload.toNat) (bits f.payload.toNat 25 16) r = 0 →
    sext 16 f.payload.toNat ≠ 0 → (((d.ipTake n 2 f).1).R r).strat % 2 = 1 →
    exec (.stepFrame n f) ⟨d, rest⟩ = .next ⟨(let e := (d.ipTake n 2 f).1; let sh := e.on (IP_STATUS.THROTTLED n); (e.ipGrant n f.seq.toNat (bits f.payload.toNat 30 29) (!sh)).specOpen r n (bits f.payload.toNat 30 29) f.seq.toNat (sext 16 f.payload.toNat) (bits f.payload.toNat 25 16) (bits f.payload.toNat 28 26) sh), rest⟩) ∧
  (∀ (d : Dev) (rest : List Instr) (n : Fin 32) (f : Frame) (r : Nat) (e : Dev), e = (d.ipTake n 2 f).1 →
    (d.ipTake n 2 f).2 = true → bits f.payload.toNat 28 26 < 4 → f.payload.toNat.testBit 31 = false →
    e.slotRail n (bits f.payload.toNat 30 29) = some r →
    e.stepDeny n (sext 16 f.payload.toNat) (bits f.payload.toNat 25 16) r = 0 → sext 16 f.payload.toNat ≠ 0 →
    (e.R r).strat % 2 = 1 → e.on (IP_STATUS.THROTTLED n) = false → (e.R r).samp = [] → ∃ t : Dev,
    exec (.stepFrame n f) ⟨d, rest⟩ = .next ⟨t, rest⟩ ∧
    (t.IP n).txQ = (e.IP n).txQ ++ [{ kind := 0x82, seq := 0, payload := f.seq.toNat + bits f.payload.toNat 30 29 * 0x100 + 0x400 }] ∧
    (((t.R r).spec.map fun s => (s.opn, s.shadow, s.port, s.seq, s.slot)) = some (true, false, n.val, f.seq.toNat, bits f.payload.toNat 30 29)) ∧
    (((t.R r).spec.map fun s => (s.di, s.tAcc, s.tStep, s.tOpen, s.tClose)) = some (sext 16 f.payload.toNat, d.now, d.now + 8 * bits f.payload.toNat 25 16, max (d.now + 8 * bits f.payload.toNat 25 16 - e.rd (SPEC_WIN.W_EARLY r)) d.now, d.now + 8 * bits f.payload.toNat 25 16 + e.rd (SPEC_WIN.W_LATE r))) ∧
    t.rd (PEND_STATE.PHASE r) = 1 ∧ t.rd (PEND_STATE.PORT r) = n.val ∧ (t.rd (SPEC_EVT.EVT r)).testBit 0 = true) ∧
  (∀ (d : Dev) (rest : List Instr) (n : Fin 32) (f : Frame) (r : Nat), f.payload.toNat < 2 ^ 18 → (d.ipTake n 3 f).2 = true →
    ((d.ipTake n 3 f).1).slotRail n (bits f.payload.toNat 17 16) = some r → ((d.ipTake n 3 f).1).on (IP_CFG.VID_EN n) = true →
    ((d.ipTake n 3 f).1).rd (RAIL_BAND.VMIN r) ≤ 2 * (f.payload.toNat % 65536) →
    2 * (f.payload.toNat % 65536) ≤ ((d.ipTake n 3 f).1).rd (RAIL_BAND.VMAX r) → ((d.ipTake n 3 f).1).rLive r = true →
    ((d.ipTake n 3 f).1).railLink r = true → (((d.ipTake n 3 f).1).R r).setAt ≠ some d.now →
    exec (.vidFrame n f) ⟨d, rest⟩ = .next ⟨(let e := (d.ipTake n 3 f).1; ((e.railSet r (2 * (f.payload.toNat % 65536)) (e.rd (RAIL_SLEW.SLEW r))).1).ipAck n f.seq.toNat 0x03 (bits f.payload.toNat 17 16) 0), rest⟩) ∧
  (∀ (d : Dev) (rest : List Instr) (n : Fin 32) (f : Frame) (r : Nat) (e : Dev), e = (d.ipTake n 3 f).1 →
    f.payload.toNat < 2 ^ 18 → (d.ipTake n 3 f).2 = true → e.slotRail n (bits f.payload.toNat 17 16) = some r →
    e.on (IP_CFG.VID_EN n) = true → e.rd (RAIL_BAND.VMIN r) ≤ 2 * (f.payload.toNat % 65536) →
    2 * (f.payload.toNat % 65536) ≤ e.rd (RAIL_BAND.VMAX r) → e.rLive r = true → e.railLink r = true →
    (e.R r).setAt ≠ some d.now → ∃ t : Dev, exec (.vidFrame n f) ⟨d, rest⟩ = .next ⟨t, rest⟩ ∧
    t.rd (RAIL_TARGET.TARGET r) = 2 * (f.payload.toNat % 65536) ∧ (t.R r).slew = e.rd (RAIL_SLEW.SLEW r) ∧
    (t.IP n).txQ = (e.IP n).txQ ++ [{ kind := 0x81, seq := 0, payload := f.seq.toNat + 0x300 + bits f.payload.toNat 17 16 * 0x10000 }])

/-- A port falls silent, transmits and reports; a speculation ends. The silence window, the transmit lane, CURRENT frames, the
pre-charge window, retraction and the end of a hold. Each clause concludes that exec answers a next state, from premises on the
state and the operands alone. Completion is so stated for: intentSilent, intentFrameSend, current, specPrechargeStart,
specPrechargeEnd, retract, wakeHoldEnd. (R149, R154, R156, R165, R167, R168, R175, R179) -/
def Obligations.IntentEvents : Prop :=
  (∀ (d : Dev) (rest : List Instr) (n : Fin 32), d.ipSt n = Ip.up → closed d.now (d.IP n).silence 32000 = true →
    d.boundRails n = [] → ∃ t : Dev, exec (.intentSilent n) ⟨d, rest⟩ = .next ⟨t, rest⟩ ∧ t.ipSt n = Ip.silent ∧
    (t.IP n).silence = none ∧ (t.rd (IP_EVT.EVT n)).testBit 1 = true ∧ t.Reports 0x40 n) ∧
  (∀ (d : Dev) (rest : List Instr) (n : Fin 32) (f : TxFrame), d.ipTx n = true → (d.IP n).txBusy ≤ d.now →
    nextFrame (d.IP n).txQ = some f → ∃ t : Dev, exec (.intentFrameSend n) ⟨d, rest⟩ = .next ⟨t, rest⟩ ∧
    (t.IP n).txQ = (d.IP n).txQ.erase f ∧ (t.IP n).txBusy = d.now + 55 ∧ (t.IP n).txSeq = ((d.IP n).txSeq + 1) % 256 ∧
    (t.IP n).sent = { f with seq := (d.IP n).txSeq, crc := frameCrc f.kind (d.IP n).txSeq f.payload } :: (d.IP n).sent ∧
    t.regs = d.regs) ∧
  (∀ (d : Dev) (rest : List Instr) (n : Fin 32) (k r : Nat), d.boundRails n = [(k, r)] → d.railLink r = true → d.ipTx n = true →
    ((d.IP n).curAt.all (fun k => decide (k + 800 ≤ d.now)) = true) → ∃ t : Dev,
    exec (.current n) ⟨d, rest⟩ = .next ⟨t, rest⟩ ∧ (t.IP n).curAt = some d.now ∧
    (t.IP n).txQ = (d.IP n).txQ ++ [{ kind := 0x84, seq := 0, payload := d.currentWord r k }] ∧ t.regs = d.regs) ∧
  (∀ (d : Dev) (rest : List Instr) (r : Fin 64) (s : SpecSt), (d.R r).spec = some s → s.opn = true → s.shadow = false →
    d.on (SPEC_CONF.PC_EN r) = true → 0 < s.di → s.pcCut = false → max s.tAcc (s.tStep - d.rd (SPEC_LEAD.PC_LEAD r)) ≤ d.now →
    d.now < s.tStep → (d.R r).samp = [] → ∃ t : Dev, exec (.specPrechargeStart r) ⟨d, rest⟩ = .next ⟨t, rest⟩ ∧
    (t.R r).spec = some { s with pcOn := true, u := (d.rd (SPEC_FF.FF_GAIN r) : Int) * s.di } ∧
    (∀ o, o ≠ (PEND_UINT.UINT r).off → t.word o = d.word o)) ∧
  (∀ (d : Dev) (rest : List Instr) (r : Fin 64) (s : SpecSt), (d.R r).spec = some s → s.pcOn = true → s.tStep ≤ d.now →
    ∃ t : Dev, exec (.specPrechargeEnd r) ⟨d, rest⟩ = .next ⟨t, rest⟩ ∧ (t.R r).spec = some { s with pcOn := false } ∧
    t.rd (PEND_UINT.UINT r) = 0 ∧ (∀ o, o ≠ (PEND_UINT.UINT r).off → t.word o = d.word o)) ∧
  (∀ (d : Dev) (rest : List Instr) (r : Fin 64) (s : SpecSt), (d.R r).spec = some s → s.opn = true → s.tClose ≤ d.now →
    exec (.retract r) ⟨d, rest⟩ = .next ⟨d.retract r s, rest⟩) ∧
  (∀ (d : Dev) (rest : List Instr) (r : Fin 64) (s : SpecSt), (d.R r).spec = some s → s.opn = true → s.shadow = false →
    s.tClose ≤ d.now → (d.R r).samp = [] → s.pb ≠ 0 → d.ipTx s.port = true → s.port < 32 → ∃ t : Dev,
    exec (.retract r) ⟨d, rest⟩ = .next ⟨t, rest⟩ ∧
    (((t.R r).spec.map fun y => (y.opn, y.pcOn, y.u, y.rm, y.shedAt)) = some (false, false, 0, some s.tClose, some (s.tClose + d.rd (SPEC_SHED.SHED_HOLD r)))) ∧
    t.rd (PEND_STATE.PHASE r) = 3 ∧ t.rd (PEND_STATE.LAST r) = 2 ∧ t.rd (PEND_UINT.UINT r) = 0 ∧
    (t.rd (SPEC_EVT.EVT r)).testBit 2 = true ∧
    t.rd (SPEC_CNT.RETRACTED r) = satAdd (2 ^ (SPEC_CNT.RETRACTED r).len - 1) (d.rd (SPEC_CNT.RETRACTED r)) 1 ∧
    (t.IP s.port).txQ = (d.IP s.port).txQ ++ [{ kind := 0x81, seq := 0, payload := s.seq + 0x200 + s.slot * 0x10000 + 0x80000 }]) ∧
  (∀ (d : Dev) (rest : List Instr) (r : Fin 64) (s : SpecSt) (k : Nat), (d.R r).spec = some s → s.holdEnd = some k → k ≤ d.now →
    ∃ t : Dev, exec (.wakeHoldEnd r) ⟨d, rest⟩ = .next ⟨t, rest⟩ ∧
    (t.R r).spec = some { s with woken := [], holdEnd := none } ∧ t.rd (PEND_WAKE.WOKEN r) = 0 ∧
    (∀ o, o ≠ (PEND_WAKE.WOKEN r).off → t.word o = d.word o))

/-- A NOP, a claim and a release of a resource. A NOP completes and writes no register; a claim of a FREE resource writes its
ownership entry and a release clears it, each completing with SUCCESS; of two claims of one clock the claim of the lower agent
takes the entry and the other is RESOURCE_BUSY. Each clause concludes that exec answers a next state, from premises on the state
and the operands alone. Completion is so stated for: nop, resClaim, resRelease. (R23, R24, R26, R321, R332) -/
def Obligations.ResourceCommands : Prop :=
  (∀ (d : Dev) (rest : List Instr) (x : Desc), d.blocked 0x00 x = false → (d.begin 0x00 x).1.passes x (some 0) true none = true →
    zeroPayload x.payload = true → ∃ t : Dev, exec (.nop x) ⟨d, rest⟩ = .next ⟨t, rest⟩ ∧ t.Answered x St.success ∧
    t.regs = (d.begin 0x00 x).1.regs) ∧
  (∀ (d : Dev) (rest : List Instr) (x : Desc) (c k f : Nat), d.blocked 0x04 x = false →
    (d.begin 0x04 x).1.passes x (some 0) false none = true → leNat x.payload 0 2 = 4096 * c + k → k < ownCount c →
    f = byteAt x.payload 2 % 16 → byteAt x.payload 2 < 32 → zeroBytes x.payload 3 47 = true → 1 ≤ f → f ≤ ownFuncs c →
    (c ≠ 4 ∨ k ≠ 0 ∨ f = 1) → claimMode c f (d.begin 0x04 x).1.md = true → (d.begin 0x04 x).1.mem.err = [] →
    (d.begin 0x04 x).1.pairGone 0x83 = false → (d.begin 0x04 x).1.rd (OWN.STATE (ownIx c k)) = 0 → ∃ t : Dev,
    exec (.resClaim x) ⟨d, rest⟩ = .next ⟨t, rest⟩ ∧
    (t.rd (OWN.STATE (ownIx c k)) = (if (byteAt x.payload 2).testBit 4 then 2 else 1)) ∧
    t.rd (OWN.PRIO (ownIx c k)) = ownPrio c f ∧ t.rd (OWN.AGENT (ownIx c k)) = x.src.agent ∧
    t.rd (OWN.FUNCTION (ownIx c k)) = f ∧ t.rd (OWN.CLAIM_TAG (ownIx c k)) = x.tag.toNat ∧ t.Answered x St.success) ∧
  (∀ (d : Dev) (rest : List Instr) (x : Desc) (c k f a j : Nat), d.blocked 0x04 x = false →
    (d.begin 0x04 x).1.passes x (some 0) false none = true → leNat x.payload 0 2 = 4096 * c + k → c < 16 → k < ownCount c →
    f = byteAt x.payload 2 % 16 → byteAt x.payload 2 < 32 → zeroBytes x.payload 3 47 = true → 1 ≤ f → f ≤ ownFuncs c →
    (c ≠ 4 ∨ k ≠ 0 ∨ f = 1) → claimMode c f (d.begin 0x04 x).1.md = true →
    (d.begin 0x04 x).1.clockClaims (4096 * c + k) = [((d.begin 0x04 x).1.now / 2, 4096 * c + k, a, .out j)] → x.src.agent < a →
    j ≠ (d.begin 0x04 x).2 → (d.begin 0x04 x).1.mem.err = [] → (d.begin 0x04 x).1.pairGone 0x83 = false → ∃ t : Dev,
    exec (.resClaim x) ⟨d, rest⟩ = .next ⟨t, rest⟩ ∧ t.rd (OWN.AGENT (ownIx c k)) = x.src.agent ∧
    t.rd (OWN.FUNCTION (ownIx c k)) = f ∧ t.rd (OWN.CLAIM_TAG (ownIx c k)) = x.tag.toNat ∧ t.Answered x St.success ∧
    (∀ o ∈ t.host.out, o.id = j → o.result = some (St.resourceBusy, d.now))) ∧
  (∀ (d : Dev) (rest : List Instr) (x : Desc) (c k : Nat), d.blocked 0x05 x = false →
    (d.begin 0x05 x).1.passes x (some 0) false none = true → leNat x.payload 0 2 = 4096 * c + k → k < ownCount c →
    zeroBytes x.payload 2 47 = true → (d.begin 0x05 x).1.mem.err = [] → (d.begin 0x05 x).1.pairGone 0x83 = false →
    (d.begin 0x05 x).1.rd (OWN.STATE (ownIx c k)) = 1 → (d.begin 0x05 x).1.rd (OWN.AGENT (ownIx c k)) = x.src.agent →
    ∃ t : Dev, exec (.resRelease x) ⟨d, rest⟩ = .next ⟨t, rest⟩ ∧ t.word (0x800 + 4 * ownIx c k) = 0 ∧ t.Answered x St.success)

/-- Commands to a rail. RAIL_SET commits a target in band and its slew; RAIL_ENABLE takes an OFF rail into START; RAIL_DISABLE stops
a rail, or lets it ramp down; PHASE_MASK and COEF_LOAD of a live rail wait for the boundary. Each clause concludes that exec
answers a next state, from premises on the state and the operands alone. Completion is so stated for: railSet, railEnable,
railDisable, phaseMask, coefLoad. (R97, R107, R108, R109, R110, R111, R128) -/
def Obligations.RailCommands : Prop :=
  (∀ (d : Dev) (rest : List Instr) (x : Desc) (r : Nat), d.blocked 0x10 x = false →
    (d.begin 0x10 x).1.passes x (some 1) false (some 1) = true → r = x.idx.toNat → leNat x.payload 0 2 < 0x1000 →
    byteAt x.payload 3 < 2 → zeroBytes x.payload 4 47 = true → (d.begin 0x10 x).1.rd (RAIL_BAND.VMIN r) ≤ leNat x.payload 0 2 →
    leNat x.payload 0 2 ≤ (d.begin 0x10 x).1.rd (RAIL_BAND.VMAX r) → ∃ t : Dev, exec (.railSet x) ⟨d, rest⟩ = .next ⟨t, rest⟩ ∧
    t.rd (RAIL_TARGET.TARGET r) = leNat x.payload 0 2 ∧
    ((t.R r).slew = (if byteAt x.payload 3 = 1 then byteAt x.payload 2 else (d.begin 0x10 x).1.rd (RAIL_SLEW.SLEW r))) ∧
    t.rs r = (d.begin 0x10 x).1.rs r ∧ t.Answered x St.success) ∧
  (∀ (d : Dev) (rest : List Instr) (x : Desc) (r : Nat), d.blocked 0x10 x = false →
    (d.begin 0x10 x).1.passes x (some 1) false (some 1) = true → r = x.idx.toNat → leNat x.payload 0 2 < 0x1000 →
    byteAt x.payload 3 < 2 → zeroBytes x.payload 4 47 = true →
    (leNat x.payload 0 2 < (d.begin 0x10 x).1.rd (RAIL_BAND.VMIN r) ∨ (d.begin 0x10 x).1.rd (RAIL_BAND.VMAX r) < leNat x.payload 0 2) →
    ∃ t : Dev, exec (.railSet x) ⟨d, rest⟩ = .next ⟨t, rest⟩ ∧ t.Answered x St.bandViolation ∧ t.regs = (d.begin 0x10 x).1.regs) ∧
  (∀ (d : Dev) (rest : List Instr) (x : Desc) (r : Nat), d.blocked 0x11 x = false →
    (d.begin 0x11 x).1.passes x (some 1) false (some 1) = true → r = x.idx.toNat → zeroPayload x.payload = true →
    (d.begin 0x11 x).1.active = true → (d.begin 0x11 x).1.rs r = Rs.off →
    (d.begin 0x11 x).1.minPhases r ≤ ((d.begin 0x11 x).1.availSet r).length →
    (d.begin 0x11 x).1.minPhases r ≤ (d.begin 0x11 x).1.fedPhases r → ∃ t : Dev,
    exec (.railEnable x) ⟨d, rest⟩ = .next ⟨t, rest⟩ ∧ t.rs r = Rs.start ∧ t.rd (RAIL_STATUS.MODE r) = 0 ∧
    (t.R r).tEn = some d.now ∧ (t.R r).strat = (d.begin 0x11 x).1.rd (RAIL_CFG.STRATEGY r) ∧ t.Answered x St.success) ∧
  (∀ (d : Dev) (rest : List Instr) (x : Desc) (r : Nat), d.blocked 0x12 x = false →
    (d.begin 0x12 x).1.passes x (some 1) false (some 1) = true → r = x.idx.toNat → zeroPayload x.payload = true →
    (d.begin 0x12 x).1.rs r = Rs.run → ((d.begin 0x12 x).1.R r).disMode = true → ∃ t : Dev,
    exec (.railDisable x) ⟨d, rest⟩ = .next ⟨t, rest⟩ ∧ t.rs r = Rs.stopping ∧ t.rd (RAIL_STATUS.PG r) = 0 ∧ t.Waits x) ∧
  (∀ (d : Dev) (rest : List Instr) (x : Desc) (r : Nat), d.blocked 0x12 x = false →
    (d.begin 0x12 x).1.passes x (some 1) false (some 1) = true → r = x.idx.toNat → zeroPayload x.payload = true →
    (d.begin 0x12 x).1.rs r = Rs.start → ∃ t : Dev, exec (.railDisable x) ⟨d, rest⟩ = .next ⟨t, rest⟩ ∧ t.rs r = Rs.off ∧
    t.rd (RAIL_VREF.VREF r) = 0 ∧ t.Answered x St.success) ∧
  (∀ (d : Dev) (rest : List Instr) (x : Desc) (r h n : Nat), d.blocked 0x13 x = false →
    (d.begin 0x13 x).1.passes x (some 1) false (some 1) = true → r = x.idx.toNat → h = leNat x.payload 0 16 →
    n = leNat x.payload 16 16 → zeroBytes x.payload 32 47 = true → (d.begin 0x13 x).1.md ≠ Md.configure →
    ((((d.begin 0x13 x).1.maskPhases r h n).all fun q => match q with | some p => ((d.begin 0x13 x).1.warp r).contains p | none => false) = true) →
    (d.begin 0x13 x).1.minPhases r ≤ ((d.begin 0x13 x).1.maskPhases r h n).length → (d.begin 0x13 x).1.rLive r = true →
    ∃ t : Dev, exec (.phaseMask x) ⟨d, rest⟩ = .next ⟨t, rest⟩ ∧ (t.R r).maskP = some (h, n) ∧
    t.regs = (d.begin 0x13 x).1.regs ∧ t.Waits x) ∧
  (∀ (d : Dev) (rest : List Instr) (x : Desc) (r h n : Nat), d.blocked 0x13 x = false →
    (d.begin 0x13 x).1.passes x (some 1) false (some 1) = true → r = x.idx.toNat → h = leNat x.payload 0 16 →
    n = leNat x.payload 16 16 → zeroBytes x.payload 32 47 = true → (d.begin 0x13 x).1.md ≠ Md.configure →
    ((((d.begin 0x13 x).1.maskPhases r h n).all fun q => match q with | some p => ((d.begin 0x13 x).1.warp r).contains p | none => false) = true) →
    (d.begin 0x13 x).1.minPhases r ≤ ((d.begin 0x13 x).1.maskPhases r h n).length → (d.begin 0x13 x).1.rLive r = false →
    ∃ t : Dev, exec (.phaseMask x) ⟨d, rest⟩ = .next ⟨t, rest⟩ ∧ (t.R r).maskH = h ∧ (t.R r).maskN = n ∧ (t.R r).maskP = none ∧
    t.Answered x St.success) ∧
  (∀ (d : Dev) (rest : List Instr) (x : Desc) (r : Nat), d.blocked 0x14 x = false →
    (d.begin 0x14 x).1.passes x (some 1) false (some 1) = true → r = x.idx.toNat → zeroBytes x.payload 20 47 = true →
    (d.begin 0x14 x).1.rd (COEF_CTL.PENDING r) = 0 → (d.begin 0x14 x).1.rLive r = true → ∃ t : Dev,
    exec (.coefLoad x) ⟨d, rest⟩ = .next ⟨t, rest⟩ ∧ t.rd (COEF_CTL.PENDING r) = 1 ∧
    (∀ k, k < 5 → t.word (0x100080 + 0x200 * r + 4 * k) = payWord x.payload (4 * k)) ∧ t.Waits x) ∧
  (∀ (d : Dev) (rest : List Instr) (x : Desc) (r : Nat), d.blocked 0x14 x = false →
    (d.begin 0x14 x).1.passes x (some 1) false (some 1) = true → r = x.idx.toNat → zeroBytes x.payload 20 47 = true →
    (d.begin 0x14 x).1.rd (COEF_CTL.PENDING r) = 0 → (d.begin 0x14 x).1.rLive r = false → ∃ t : Dev,
    exec (.coefLoad x) ⟨d, rest⟩ = .next ⟨t, rest⟩ ∧ t.rd (COEF_CTL.PENDING r) = 0 ∧ t.rd (COEF_CTL.LOAD_TAG r) = x.tag.toNat ∧
    (∀ k, k < 5 → t.word (0x100060 + 0x200 * r + 4 * k) = payWord x.payload (4 * k)) ∧ t.Answered x St.success)

/-- Commands that load a table, a policy or a sequence. A policy record and a table image that pass their checks stand in the words
of the table; a sequence load fills the shadow, and a commit during a pass waits for the swap. Each clause concludes that exec
answers a next state, from premises on the state and the operands alone. Completion is so stated for: fusePolicyLoad, tableLoad,
seqLoad. (R71, R205, R333, R334) -/
def Obligations.TableCommands : Prop :=
  (∀ (d : Dev) (rest : List Instr) (x : Desc) (k : Nat), d.blocked 0x18 x = false →
    (d.begin 0x18 x).1.passes x (some 0) false (some 1) = true → k = byteAt x.payload 0 → k < 64 →
    zeroBytes x.payload 1 3 = true → zeroBytes x.payload 36 47 = true → policyOk ((x.payload.drop 4).take 32) = true →
    (bits (leNat x.payload 4 4) 31 30 = 0 ∨ (((d.begin 0x18 x).1.policyUsers k).all (· == bits (leNat x.payload 4 4) 31 30)) = true) →
    (((List.range 5).all fun b => (d.begin 0x18 x).1.rd (MEM_OFFLINE.OFFLINE b) == 0) = true) → ∃ t : Dev,
    exec (.fusePolicyLoad x) ⟨d, rest⟩ = .next ⟨t, rest⟩ ∧
    (∀ j, j < 8 → t.word (0x2000 + 0x20 * k + 4 * j) = payWord x.payload (4 + 4 * j)) ∧ t.Answered x St.success) ∧
  (∀ (d : Dev) (rest : List Instr) (x : Desc) (kind index off len : Nat), d.blocked 0x19 x = false →
    (d.begin 0x19 x).1.passes x (some 0) false (some 1) = true → byteAt x.payload 0 = kind → byteAt x.payload 1 = index →
    zeroBytes x.payload 2 3 = true → zeroBytes x.payload 10 11 = true → zeroBytes x.payload 20 47 = true →
    tableOf kind index = some (off, len) → leNat x.payload 12 4 = len → leNat x.payload 4 6 % 64 = 0 →
    (d.begin 0x19 x).1.tableOut kind = false →
    crc32 ((d.begin 0x19 x).1.hRd (leNat x.payload 4 6) len) = leNat x.payload 16 4 →
    ((d.begin 0x19 x).1.withTable off ((d.begin 0x19 x).1.hRd (leNat x.payload 4 6) len)).tableCheck kind index off = St.success →
    (((List.range 5).all fun b => (d.begin 0x19 x).1.rd (MEM_OFFLINE.OFFLINE b) == 0) = true) → ∃ t : Dev,
    exec (.tableLoad x false) ⟨d, rest⟩ = .next ⟨t, rest⟩ ∧
    (∀ j, j < len / 4 → t.word (off + 4 * j) = payWord ((d.begin 0x19 x).1.hRd (leNat x.payload 4 6) len) (4 * j)) ∧
    t.Answered x St.success) ∧
  (∀ (d : Dev) (rest : List Instr) (x : Desc) (k first n : Nat), d.blocked 0x1A x = false →
    (d.begin 0x1A x).1.passes x (some 0) false (some 1) = true → k = byteAt x.payload 0 → k < 8 → first = byteAt x.payload 1 →
    n = byteAt x.payload 2 → leNat x.payload 4 4 < 64 → n ≤ 10 → zeroBytes x.payload (8 + 4 * n) 47 = true → first + n ≤ 64 →
    (((List.range n).all fun j => seqEntryOk (leNat x.payload (8 + 4 * j) 4)) = true) → (d.begin 0x1A x).1.dieOut 4 = false →
    (d.begin 0x1A x).1.owns 2 k x.src.agent 1 = true → byteAt x.payload 3 = 0 → ∃ t : Dev,
    exec (.seqLoad x) ⟨d, rest⟩ = .next ⟨t, rest⟩ ∧
    (((List.range n).all fun j => t.shadowAt k (t.SQ k).shadow (first + j) == leNat x.payload (8 + 4 * j) 4) = true) ∧
    t.regs = (d.begin 0x1A x).1.regs ∧ t.Answered x St.success) ∧
  (∀ (d : Dev) (rest : List Instr) (x : Desc) (k first n : Nat), d.blocked 0x1A x = false →
    (d.begin 0x1A x).1.passes x (some 0) false (some 1) = true → k = byteAt x.payload 0 → k < 8 → first = byteAt x.payload 1 →
    n = byteAt x.payload 2 → leNat x.payload 4 4 < 64 → n ≤ 10 → zeroBytes x.payload (8 + 4 * n) 47 = true → first + n ≤ 64 →
    (((List.range n).all fun j => seqEntryOk (leNat x.payload (8 + 4 * j) 4)) = true) → (d.begin 0x1A x).1.dieOut 4 = false →
    (d.begin 0x1A x).1.owns 2 k x.src.agent 1 = true → byteAt x.payload 3 = 1 → (d.begin 0x1A x).1.namedSels k = [] →
    (d.begin 0x1A x).1.rd (SEQ_CFG.MODE k) ≠ 0 → ((d.begin 0x1A x).1.SQ k).pass ≠ none →
    ((d.begin 0x1A x).1.SQ k).passDone = false → ∃ t : Dev, exec (.seqLoad x) ⟨d, rest⟩ = .next ⟨t, rest⟩ ∧
    t.rd (SEQ_STATUS.PENDING k) = 1 ∧ (t.SQ k).newLen = leNat x.payload 4 4 ∧ t.Waits x)

/-- Commands to a pack. PACK_RESTORE of a sound record sets what the Sage has learned; PACK_READ asks for a record and waits. Each
clause concludes that exec answers a next state, from premises on the state and the operands alone. Completion is so stated for:
packRestore, packRead. (R242, R243) -/
def Obligations.PackCommands : Prop :=
  (∀ (d : Dev) (rest : List Instr) (x : Desc) (p : Nat), d.blocked 0x30 x = false →
    (d.begin 0x30 x).1.passes x (some 8) true (some 3) = true → p = x.idx.toNat → leNat x.payload 0 2 = 0x0040 →
    byteAt x.payload 2 < 16 → byteAt x.payload 2 % 4 = p → byteAt x.payload 3 = 0 → byteAt x.payload 32 < 2 →
    zeroBytes x.payload 33 47 = true → (d.begin 0x30 x).1.on (SG_CFG.EN p) = true →
    (d.begin 0x30 x).1.on (SG_STATUS.PRESENT p) = true → crc32 (x.payload.take 24) = leNat x.payload 24 4 →
    leNat x.payload 28 4 = 2 ^ 32 - 1 - leNat x.payload 4 4 →
    ((d.begin 0x30 x).1.rd (SG_GEN.GEN p) ≤ leNat x.payload 4 4 ∨ byteAt x.payload 32 = 1) → ∃ t : Dev,
    exec (.packRestore x) ⟨d, rest⟩ = .next ⟨t, rest⟩ ∧ t.rd (SG_RSER_L.VAL p) = leNat x.payload 8 4 ∧
    t.rd (SG_RPOL1_L.VAL p) = leNat x.payload 12 4 ∧ t.rd (SG_RPOL2_L.VAL p) = leNat x.payload 16 4 ∧
    t.rd (SG_CAPACITY.CAP p) = leNat x.payload 20 2 ∧ t.rd (SG_GEN.GEN p) = leNat x.payload 4 4 ∧
    (t.rd (SG_EVT.EVT p)).testBit 9 = true ∧ t.Answered x St.success) ∧
  (∀ (d : Dev) (rest : List Instr) (x : Desc) (p : Nat), d.blocked 0x31 x = false →
    (d.begin 0x31 x).1.passes x (some 0) true (some 3) = true → p = byteAt x.payload 0 → p < 4 →
    zeroBytes x.payload 1 47 = true → (d.begin 0x31 x).1.linkUp 7 = true → ∃ t : Dev,
    exec (.packRead x) ⟨d, rest⟩ = .next ⟨t, rest⟩ ∧ t.rd (SG_STATUS.WB_PENDING p) = 1 ∧
    (t.SG p).reads = ((d.begin 0x31 x).1.SG p).reads ++ [.out (d.begin 0x31 x).2] ∧ t.Waits x)

/-- The selvage: fault occurrences, acknowledgement, fences and injection. FAULT_ACK of the record it names, its COUNT agreeing or
forced, frees the slot; UNFENCE of a unit that is out does what its class gives; FLT_SAFE empties in CONFIGURE alone. FIRE in
FACTORY arms the injection for its delay; a message injection then enters the selvage marked FORCED. Each clause concludes that
exec answers a next state, from premises on the state and the operands alone. Completion is so stated for: faultAck, unfence,
fltSafeClr, fltInjFire, faultInjection. (R262, R264, R265, R266, R269) -/
def Obligations.FaultCommands : Prop :=
  (∀ (d : Dev) (rest : List Instr) (x : Desc) (k : Nat), d.blocked 0x29 x = false →
    (d.begin 0x29 x).1.passes x (some 0) true (some 2) = true → k = leNat x.payload 0 2 → k ≤ 255 →
    zeroBytes x.payload 2 3 = true → byteAt x.payload 10 < 2 → zeroBytes x.payload 11 47 = true →
    (d.begin 0x29 x).1.mem.err = [] → (d.begin 0x29 x).1.pairGone 0x81 = false → (d.begin 0x29 x).1.slotUsed k = true →
    leNat x.payload 4 4 % 2 ^ 20 = (d.begin 0x29 x).1.rd (SLOT.CLASS k) →
    (leNat x.payload 8 2 = (d.begin 0x29 x).1.rd (SLOT.COUNT k) ∨ byteAt x.payload 10 = 1) → ∃ t : Dev,
    exec (.faultAck x) ⟨d, rest⟩ = .next ⟨t, rest⟩ ∧ t.slotUsed k = false ∧ t.SL k = {} ∧ t.Answered x St.success) ∧
  (∀ (d : Dev) (rest : List Instr) (x : Desc), d.blocked 0x28 x = false →
    (d.begin 0x28 x).1.passes x none false (some 2) = true → zeroPayload x.payload = true →
    (d.begin 0x28 x).1.unitOut x.cls.toNat x.idx.toNat = true → (d.begin 0x28 x).1.md ≠ Md.factory →
    (d.begin 0x28 x).1.inDomainOut x.cls.toNat x.idx.toNat = false →
    (x.cls = 0xB → (d.begin 0x28 x).1.coreMemOut x.idx.toNat = false) →
    (((d.begin 0x28 x).1.take 0x28 x).unfenceUnit x.cls.toNat x.idx.toNat (.out (d.begin 0x28 x).2)).2 = some St.success →
    exec (.unfence x) ⟨d, rest⟩ = .next ⟨((((d.begin 0x28 x).1.take 0x28 x).unfenceUnit x.cls.toNat x.idx.toNat (.out (d.begin 0x28 x).2)).1.noDomain x.cls.toNat x.idx.toNat).endDesc (d.begin 0x28 x).2 x.src St.success, rest⟩) ∧
  (∀ (d : Dev) (rest : List Instr) (x : Desc) (r : Nat), d.blocked 0x28 x = false →
    (d.begin 0x28 x).1.passes x none false (some 2) = true → zeroPayload x.payload = true →
    (d.begin 0x28 x).1.unitOut x.cls.toNat x.idx.toNat = true → (d.begin 0x28 x).1.md ≠ Md.factory →
    (d.begin 0x28 x).1.inDomainOut x.cls.toNat x.idx.toNat = false → x.cls = 0x1 → r = x.idx.toNat →
    (d.begin 0x28 x).1.rs r = Rs.fenced → ((d.begin 0x28 x).1.R r).inDomain = none → ∃ t : Dev,
    exec (.unfence x) ⟨d, rest⟩ = .next ⟨t, rest⟩ ∧ t.rs r = Rs.off ∧ (t.R r).inDomain = none ∧
    nget t.flt.dom (unitKey 1 r) = 0 ∧ t.Answered x St.success) ∧
  (∀ (d : Dev) (rest : List Instr) (x : Desc) (n : Nat), d.blocked 0x28 x = false →
    (d.begin 0x28 x).1.passes x none false (some 2) = true → zeroPayload x.payload = true →
    (d.begin 0x28 x).1.unitOut x.cls.toNat x.idx.toNat = true → (d.begin 0x28 x).1.md ≠ Md.factory →
    (d.begin 0x28 x).1.inDomainOut x.cls.toNat x.idx.toNat = false → x.cls = 0x3 → n = x.idx.toNat →
    ((d.begin 0x28 x).1.E n).inDomain = none →
    (d.begin 0x28 x).1.rds (POL4.T_RETRY ((d.begin 0x28 x).1.unitPol n)) ≤ (d.begin 0x28 x).1.entTj n → ∃ t : Dev,
    exec (.unfence x) ⟨d, rest⟩ = .next ⟨t, rest⟩ ∧ t.es n = (d.begin 0x28 x).1.es n ∧ t.Answered x St.unitHot) ∧
  (∀ (d : Dev) (rest : List Instr) (x : Desc) (n : Nat), d.blocked 0x28 x = false →
    (d.begin 0x28 x).1.passes x none false (some 2) = true → zeroPayload x.payload = true →
    (d.begin 0x28 x).1.unitOut x.cls.toNat x.idx.toNat = true → (d.begin 0x28 x).1.md ≠ Md.factory →
    (d.begin 0x28 x).1.inDomainOut x.cls.toNat x.idx.toNat = false → x.cls = 0x3 → n = x.idx.toNat →
    ((d.begin 0x28 x).1.E n).inDomain = none →
    (d.begin 0x28 x).1.entTj n < (d.begin 0x28 x).1.rds (POL4.T_RETRY ((d.begin 0x28 x).1.unitPol n)) → ∃ t : Dev,
    exec (.unfence x) ⟨d, rest⟩ = .next ⟨t, rest⟩ ∧ t.es n = Ec.off ∧ t.rd (RETRY_STAT.RETRY_CNT n) = 0 ∧
    t.Answered x St.success) ∧
  (∀ (d : Dev) (rest : List Instr) (x : Desc), d.blocked 0x28 x = false →
    (d.begin 0x28 x).1.passes x none false (some 2) = true → zeroPayload x.payload = true →
    (d.begin 0x28 x).1.unitOut x.cls.toNat x.idx.toNat = false → x.cls.toNat = 1 → (d.begin 0x28 x).1.md ≠ Md.factory →
    ∃ t : Dev, exec (.unfence x) ⟨d, rest⟩ = .next ⟨t, rest⟩ ∧ t.rs x.idx.toNat = (d.begin 0x28 x).1.rs x.idx.toNat ∧
    t.Answered x St.unitNotFenced) ∧
  (∀ (d : Dev) (rest : List Instr) (a : Agent), d.clk.hub = true → d.md = Md.configure → ∃ t : Dev,
    exec (.fltSafeClr a) ⟨d, rest⟩ = .next ⟨t, rest⟩ ∧ (∀ k, k < 8 → t.rd (FLT_SAFE.SAFE_REC k) = 0) ∧
    t.rd FLT_SAFE_CTL.VALID = 0) ∧
  (∀ (d : Dev) (rest : List Instr) (a : Agent), d.clk.hub = true → d.md = Md.factory → d.rd FLT_INJ_STAT.STATE ≠ 1 → ∃ t : Dev,
    exec (.fltInjFire a) ⟨d, rest⟩ = .next ⟨t, rest⟩ ∧ t.rd FLT_INJ_STAT.STATE = 1 ∧
    t.flt.inj = some (d.now + d.rd FLT_INJ_DELAY.DELAY)) ∧
  (∀ (d : Dev) (rest : List Instr) (k : Nat), d.flt.inj = some k → k ≤ d.now → d.md = Md.factory → d.rd FLT_INJ_CTL.PATH = 0 →
    kindListed (d.rd FLT_INJ_CTL.CLASS / 4096) = true → d.rd FLT_INJ_CTL.LEVEL ≤ 4 → ∃ t : Dev,
    exec (.faultInjection) ⟨d, rest⟩ = .next ⟨t, rest⟩ ∧ t.rd FLT_INJ_STAT.STATE = 2 ∧ t.flt.inj = none ∧
    ((t.flt.msgs.any fun m => m.kind == d.rd FLT_INJ_CTL.CLASS / 4096 && m.unit == d.rd FLT_INJ_CTL.CLASS % 4096 && m.forced && m.level == d.rd FLT_INJ_CTL.LEVEL) = true))

/-- Opening, changing and closing a thread, and fences. An accepted THREAD_OPEN or THREAD_MODIFY stores the configuration;
THREAD_CLOSE and FENCE wait for the output they name. Each clause concludes that exec answers a next state, from premises on the
state and the operands alone. Completion is so stated for: threadOpen, threadModify, threadClose, fence, threadCloseDone,
fenceMarkerPlace. (R336, R339, R340, R345) -/
def Obligations.ThreadCommands : Prop :=
  (∀ (d : Dev) (rest : List Instr) (x : Desc) (k : Nat), d.blocked 0x20 x = false →
    (d.begin 0x20 x).1.passes x (some 7) true none = true → k = x.idx.toNat → (d.begin 0x20 x).1.mem.err = [] →
    (d.begin 0x20 x).1.bankGone 0x80 = false → (d.begin 0x20 x).1.tState k = 0 →
    (d.begin 0x20 x).1.threadCheck k x.payload x.src.agent = St.success → ∃ t : Dev,
    exec (.threadOpen x) ⟨d, rest⟩ = .next ⟨t, rest⟩ ∧ t.tCfg k = x.payload ∧
    (t.rd (CTX.STATE k) = (if byteAt x.payload 20 = 5 then 2 else 1)) ∧ t.rd (CTX.PRODUCED k) = 0 ∧
    t.T k = { rate := (d.begin 0x20 x).1.cfgRate x.payload, armAt := d.now } ∧ t.Answered x St.success) ∧
  (∀ (d : Dev) (rest : List Instr) (x : Desc) (k : Nat), d.blocked 0x21 x = false →
    (d.begin 0x21 x).1.passes x (some 7) true none = true → k = x.idx.toNat → (d.begin 0x21 x).1.mem.err = [] →
    (d.begin 0x21 x).1.bankGone 0x80 = false → (d.begin 0x21 x).1.tState k ≠ 0 → ((d.begin 0x21 x).1.T k).closing = none →
    sameFixed x.payload ((d.begin 0x21 x).1.tCfg k) = true → byteAt x.payload 44 = 0 → zeroBytes x.payload 45 47 = true →
    (d.begin 0x21 x).1.threadCheck k (x.payload.take 44 ++ [0, 0, 0, 0]) x.src.agent = St.success → ∃ t : Dev,
    exec (.threadModify x) ⟨d, rest⟩ = .next ⟨t, rest⟩ ∧ t.tCfg k = x.payload ∧ (t.T k).part = [] ∧ t.Answered x St.success) ∧
  (∀ (d : Dev) (rest : List Instr) (x : Desc) (k : Nat), d.blocked 0x22 x = false →
    (d.begin 0x22 x).1.passes x (some 7) true none = true → k = x.idx.toNat → zeroPayload x.payload = true →
    (d.begin 0x22 x).1.bankGone 0x80 = false → (d.begin 0x22 x).1.tState k ≠ 0 → ((d.begin 0x22 x).1.T k).closing = none →
    ∃ t : Dev, exec (.threadClose x) ⟨d, rest⟩ = .next ⟨t, rest⟩ ∧ (t.T k).closing = some (.out (d.begin 0x22 x).2) ∧
    (t.T k).part = [] ∧ (t.T k).store = [] ∧ t.Waits x) ∧
  (∀ (d : Dev) (rest : List Instr) (x : Desc), d.blocked 0x01 x = false → (d.begin 0x01 x).1.passes x (some 0) true none = true →
    byteAt x.payload 34 < 4 → zeroBytes x.payload 35 47 = true → ∃ t : Dev, exec (.fence x) ⟨d, rest⟩ = .next ⟨t, rest⟩ ∧
    ((t.host.fences.getLast?.map fun f => (f.src, f.tag, f.rings, f.vcs, f.arch, f.flush)) = some (x.src, x.tag.toNat, (List.range 256).filter (fun k => (byteAt x.payload (k / 8)).testBit (k % 8)), (List.range 16).filter (fun v => (leNat x.payload 32 2).testBit v), (byteAt x.payload 34).testBit 0, (byteAt x.payload 34).testBit 1)) ∧
    t.Waits x) ∧
  (∀ (d : Dev) (rest : List Instr) (k : Fin 4096) (tok : Token), d.clk.hub = true → (d.T k).closing = some tok →
    (d.dataOut k).outputWaits k = false → ∃ t : Dev, exec (.threadCloseDone k) ⟨d, rest⟩ = .next ⟨t, rest⟩ ∧
    t.rd (CTX.STATE k) = 0 ∧ t.T k = {}) ∧
  (∀ (d : Dev) (rest : List Instr) (f : FenceSt) (k : Nat), d.clk.hub = true → d.host.fences = [f] → f.tw = some k →
    f.tf ≤ d.now → f.rings = [] → f.vcs = [] → f.onWire = [] → f.placed = true → ∃ t : Dev,
    exec (.fenceMarkerPlace) ⟨d, rest⟩ = .next ⟨t, rest⟩ ∧ t.host.fences = [] ∧
    (t.host.out = d.host.out.map fun o => if o.id = f.id ∧ o.result = none then { o with begun := true, result := some (St.success, f.tf) } else o))

/-- Mode requests. A request of a mode, by descriptor or by MODE_REQ, that its present mode accepts changes the mode as its row
gives. Each clause concludes that exec answers a next state, from premises on the state and the operands alone. Completion is so
stated for: modeRequestConfigure, modeRequestRamp, modeRequestRun, modeRequestSafe, modeRequestClearSafe. (R271, R272, R283,
R286, R289, R291) -/
def Obligations.ModeRequests : Prop :=
  (∀ (d : Dev) (rest : List Instr) (x : Desc), d.blocked 0x02 x = false →
    (d.begin 0x02 x).1.passes x (some 0) false (some 0) = true → byteAt x.payload 0 = 2 → zeroBytes x.payload 1 47 = true →
    (d.begin 0x02 x).1.md = Md.run → (d.begin 0x02 x).1.sq ≠ Sq.down → ∃ t : Dev,
    exec (.modeRequestConfigure (.desc x)) ⟨d, rest⟩ = .next ⟨t, rest⟩ ∧ t.rd MODE_STATUS.SEQ_STATE = Sq.down ∧
    t.rd MODE_STATUS.SEQ_ENTRY = 64 ∧ t.md = Md.run ∧ t.Waits x) ∧
  (∀ (d : Dev) (rest : List Instr) (a : Agent), d.clk.hub = true → d.mayCommand 0 a.toNat = true → d.md = Md.run →
    d.sq ≠ Sq.down → ∃ t : Dev, exec (.modeRequestConfigure (.reg a)) ⟨d, rest⟩ = .next ⟨t, rest⟩ ∧
    t.rd MODE_STATUS.SEQ_STATE = Sq.down ∧ t.rd MODE_STATUS.SEQ_ENTRY = 64 ∧ t.md = Md.run) ∧
  (∀ (d : Dev) (rest : List Instr) (x : Desc), d.blocked 0x02 x = false →
    (d.begin 0x02 x).1.passes x (some 0) false (some 0) = true → byteAt x.payload 0 = 3 → zeroBytes x.payload 1 47 = true →
    (d.begin 0x02 x).1.md = Md.configure → (d.begin 0x02 x).1.mode.afterSafe = false →
    (d.begin 0x02 x).1.exitStatus = St.success → ∃ t : Dev, exec (.modeRequestRamp (.desc x)) ⟨d, rest⟩ = .next ⟨t, rest⟩ ∧
    t.md = Md.ramp ∧ t.rd MODE_STATUS.PREV = Md.configure ∧ t.rd MODE_STATUS.SEQ_STATE = Sq.up ∧
    t.rd MODE_STATUS.SEQ_ENTRY = 0 ∧ t.Answered x St.success) ∧
  (∀ (d : Dev) (rest : List Instr) (a : Agent), d.clk.hub = true → d.mayCommand 0 a.toNat = true → d.md = Md.configure →
    d.mode.afterSafe = false → d.exitStatus = St.success → ∃ t : Dev,
    exec (.modeRequestRamp (.reg a)) ⟨d, rest⟩ = .next ⟨t, rest⟩ ∧ t.md = Md.ramp ∧ t.rd MODE_STATUS.PREV = Md.configure ∧
    t.rd MODE_STATUS.SEQ_STATE = Sq.up ∧ t.rd MODE_STATUS.SEQ_ENTRY = 0 ∧ t.rd MODE_REQ_STAT.STATUS = St.success) ∧
  (∀ (d : Dev) (rest : List Instr) (x : Desc), d.blocked 0x02 x = false →
    (d.begin 0x02 x).1.passes x (some 0) false (some 0) = true → byteAt x.payload 0 = 4 → zeroBytes x.payload 1 47 = true →
    (d.begin 0x02 x).1.md = Md.ramp → (d.begin 0x02 x).1.sq = Sq.halted → ∃ t : Dev,
    exec (.modeRequestRun (.desc x)) ⟨d, rest⟩ = .next ⟨t, rest⟩ ∧ t.md = Md.run ∧ t.rd MODE_STATUS.SEQ_STATE = Sq.idle ∧
    t.Answered x St.success) ∧
  (∀ (d : Dev) (rest : List Instr) (a : Agent), d.clk.hub = true → d.mayCommand 0 a.toNat = true → d.md = Md.ramp →
    d.sq = Sq.halted → ∃ t : Dev, exec (.modeRequestRun (.reg a)) ⟨d, rest⟩ = .next ⟨t, rest⟩ ∧ t.md = Md.run ∧
    t.rd MODE_STATUS.SEQ_STATE = Sq.idle ∧ t.rd MODE_REQ_STAT.STATUS = St.success) ∧
  (∀ (d : Dev) (rest : List Instr) (x : Desc), d.blocked 0x02 x = false → (d.begin 0x02 x).1.passes x (some 0) true none = true →
    byteAt x.payload 0 = 6 → zeroBytes x.payload 1 47 = true → (d.begin 0x02 x).1.md = Md.run → ∃ t : Dev,
    exec (.modeRequestSafe (.desc x)) ⟨d, rest⟩ = .next ⟨t, rest⟩ ∧ t.md = Md.safe ∧ t.rd MODE_STATUS.SAFE_LATCH = 1 ∧
    t.rd MODE_STATUS.CAUSE = 8 ∧ (t.rd MODE_EVT.EVT).testBit 6 = true ∧ t.Answered x St.success) ∧
  (∀ (d : Dev) (rest : List Instr) (a : Agent), d.clk.hub = true → d.md = Md.run → ∃ t : Dev,
    exec (.modeRequestSafe (.reg a)) ⟨d, rest⟩ = .next ⟨t, rest⟩ ∧ t.md = Md.safe ∧ t.rd MODE_STATUS.SAFE_LATCH = 1 ∧
    t.rd MODE_STATUS.CAUSE = 8 ∧ (t.rd MODE_EVT.EVT).testBit 6 = true ∧ t.rd MODE_REQ_STAT.STATUS = St.success) ∧
  (∀ (d : Dev) (rest : List Instr) (x : Desc), d.blocked 0x02 x = false → (d.begin 0x02 x).1.passes x (some 0) true none = true →
    byteAt x.payload 0 = 8 → zeroBytes x.payload 1 47 = true → (d.begin 0x02 x).1.md = Md.safe → ∃ t : Dev,
    exec (.modeRequestClearSafe (.desc x)) ⟨d, rest⟩ = .next ⟨t, rest⟩ ∧ t.rd MODE_STATUS.CLEAR_ARMED = 1 ∧ t.md = Md.safe ∧
    t.Answered x St.success) ∧
  (∀ (d : Dev) (rest : List Instr) (a : Agent), d.clk.hub = true → d.md = Md.safe → ∃ t : Dev,
    exec (.modeRequestClearSafe (.reg a)) ⟨d, rest⟩ = .next ⟨t, rest⟩ ∧ t.rd MODE_STATUS.CLEAR_ARMED = 1 ∧ t.md = Md.safe ∧
    t.rd MODE_REQ_STAT.STATUS = St.success)

/-- Actions of the power sequence. An action entry whose tick has come acts on its unit, and the next entry follows on the next
tick. Each clause concludes that exec answers a next state, from premises on the state and the operands alone. Completion is so
stated for: entryOn, branchOn, railOn, entryOff, branchOff, railOff. (R284, R285) -/
def Obligations.SequenceActions : Prop :=
  (∀ (d : Dev) (rest : List Instr) (u : Nat), d.seqTurn 1 = true → u = d.seqNow.2.1 → d.rd MODE_STATUS.SEQ_ENTRY < 127 →
    (d.rd MODE_STATUS.SEQ_ENTRY ≠ (if d.rd MODE_STATUS.SEQ_ENTRY < 64 then d.rd MODE_CFG.UP_LEN else 64 + d.rd MODE_CFG.DOWN_LEN)) →
    d.dieOut 4 = false → d.entOnStatus u = St.success → d.es u = Ec.off → d.groupOf u = none → ∃ t : Dev,
    exec (.entryOn) ⟨d, rest⟩ = .next ⟨t, rest⟩ ∧ t.es u = Ec.check ∧
    t.rd MODE_STATUS.SEQ_ENTRY = d.rd MODE_STATUS.SEQ_ENTRY + 1 ∧ t.mode.seqAt = d.now + 1) ∧
  (∀ (d : Dev) (rest : List Instr) (u : Nat), d.seqTurn 2 = true → u = d.seqNow.2.1 → d.rd MODE_STATUS.SEQ_ENTRY < 127 →
    (d.rd MODE_STATUS.SEQ_ENTRY ≠ (if d.rd MODE_STATUS.SEQ_ENTRY < 64 then d.rd MODE_CFG.UP_LEN else 64 + d.rd MODE_CFG.DOWN_LEN)) →
    d.dieOut 4 = false → d.on (BR_CFG.USED u) = true → d.bs u = Ec.off → ∃ t : Dev,
    exec (.branchOn) ⟨d, rest⟩ = .next ⟨t, rest⟩ ∧ t.bs u = Ec.check ∧
    t.rd MODE_STATUS.SEQ_ENTRY = d.rd MODE_STATUS.SEQ_ENTRY + 1 ∧ t.mode.seqAt = d.now + 1) ∧
  (∀ (d : Dev) (rest : List Instr) (u : Nat), d.seqTurn 3 = true → u = d.seqNow.2.1 → d.rd MODE_STATUS.SEQ_ENTRY < 127 →
    (d.rd MODE_STATUS.SEQ_ENTRY ≠ (if d.rd MODE_STATUS.SEQ_ENTRY < 64 then d.rd MODE_CFG.UP_LEN else 64 + d.rd MODE_CFG.DOWN_LEN)) →
    d.railLink u = true → d.rs u = Rs.off → (d.railEnable u).2 = St.success → ∃ t : Dev,
    exec (.railOn) ⟨d, rest⟩ = .next ⟨t, rest⟩ ∧ t.rs u = Rs.start ∧
    t.rd MODE_STATUS.SEQ_ENTRY = d.rd MODE_STATUS.SEQ_ENTRY + 1 ∧ t.mode.seqAt = d.now + 1) ∧
  (∀ (d : Dev) (rest : List Instr) (u : Nat), d.seqTurn 8 = true → u = d.seqNow.2.1 → d.rd MODE_STATUS.SEQ_ENTRY < 127 →
    (d.rd MODE_STATUS.SEQ_ENTRY ≠ (if d.rd MODE_STATUS.SEQ_ENTRY < 64 then d.rd MODE_CFG.UP_LEN else 64 + d.rd MODE_CFG.DOWN_LEN)) →
    d.dieOut 4 = false → d.es u = Ec.on → d.groupOf u = none → ∃ t : Dev, exec (.entryOff) ⟨d, rest⟩ = .next ⟨t, rest⟩ ∧
    t.es u = Ec.off ∧ (t.E u).gate = .off ∧ t.rd MODE_STATUS.SEQ_ENTRY = d.rd MODE_STATUS.SEQ_ENTRY + 1 ∧
    t.mode.seqAt = d.now + 1) ∧
  (∀ (d : Dev) (rest : List Instr) (u : Nat), d.seqTurn 9 = true → u = d.seqNow.2.1 → d.rd MODE_STATUS.SEQ_ENTRY < 127 →
    (d.rd MODE_STATUS.SEQ_ENTRY ≠ (if d.rd MODE_STATUS.SEQ_ENTRY < 64 then d.rd MODE_CFG.UP_LEN else 64 + d.rd MODE_CFG.DOWN_LEN)) →
    d.dieOut 4 = false → d.bs u = Ec.on → ∃ t : Dev, exec (.branchOff) ⟨d, rest⟩ = .next ⟨t, rest⟩ ∧ t.bs u = Ec.off ∧
    (t.B u).gate = .off ∧ t.rd MODE_STATUS.SEQ_ENTRY = d.rd MODE_STATUS.SEQ_ENTRY + 1 ∧ t.mode.seqAt = d.now + 1) ∧
  (∀ (d : Dev) (rest : List Instr) (u : Nat), d.seqTurn 0xA = true → u = d.seqNow.2.1 → d.rd MODE_STATUS.SEQ_ENTRY < 127 →
    (d.rd MODE_STATUS.SEQ_ENTRY ≠ (if d.rd MODE_STATUS.SEQ_ENTRY < 64 then d.rd MODE_CFG.UP_LEN else 64 + d.rd MODE_CFG.DOWN_LEN)) →
    d.railLink u = true → d.rs u = Rs.start → ∃ t : Dev, exec (.railOff) ⟨d, rest⟩ = .next ⟨t, rest⟩ ∧ t.rs u = Rs.off ∧
    t.rd MODE_STATUS.SEQ_ENTRY = d.rd MODE_STATUS.SEQ_ENTRY + 1 ∧ t.mode.seqAt = d.now + 1)

/-- Delays, waits and the end of the power sequence. A DELAY or a WAIT opens on its tick; a DELAY hands on at its end, a WAIT when
its condition holds, and a window that closes halts the up table; END enters RUN, or ends the down run in CONFIGURE. Each clause
concludes that exec answers a next state, from premises on the state and the operands alone. Completion is so stated for: delay,
waitEntry, waitBranch, waitPg, waitRailOff, seqDelayExpire, seqWaitDone, seqWaitTimeout, seqEnd. (R271, R284, R285, R286) -/
def Obligations.SequenceWaits : Prop :=
  (∀ (d : Dev) (rest : List Instr), d.seqTurn 4 = true → ∃ t : Dev, exec (.delay) ⟨d, rest⟩ = .next ⟨t, rest⟩ ∧
    t.mode.seqWait = true ∧ t.mode.seqAt = d.now ∧ t.regs = d.regs) ∧
  (∀ (d : Dev) (rest : List Instr), d.seqTurn 5 = true → ∃ t : Dev, exec (.waitEntry) ⟨d, rest⟩ = .next ⟨t, rest⟩ ∧
    t.mode.seqWait = true ∧ t.mode.seqAt = d.now ∧ t.regs = d.regs) ∧
  (∀ (d : Dev) (rest : List Instr), d.seqTurn 6 = true → ∃ t : Dev, exec (.waitBranch) ⟨d, rest⟩ = .next ⟨t, rest⟩ ∧
    t.mode.seqWait = true ∧ t.mode.seqAt = d.now ∧ t.regs = d.regs) ∧
  (∀ (d : Dev) (rest : List Instr), d.seqTurn 7 = true → ∃ t : Dev, exec (.waitPg) ⟨d, rest⟩ = .next ⟨t, rest⟩ ∧
    t.mode.seqWait = true ∧ t.mode.seqAt = d.now ∧ t.regs = d.regs) ∧
  (∀ (d : Dev) (rest : List Instr), d.seqTurn 11 = true → ∃ t : Dev, exec (.waitRailOff) ⟨d, rest⟩ = .next ⟨t, rest⟩ ∧
    t.mode.seqWait = true ∧ t.mode.seqAt = d.now ∧ t.regs = d.regs) ∧
  (∀ (d : Dev) (rest : List Instr), d.seqRuns = true → d.mode.seqWait = true → d.seqNow.1 = 4 →
    d.mode.seqAt + d.seqNow.2.2 ≤ d.now → d.rd MODE_STATUS.SEQ_ENTRY < 127 →
    (d.rd MODE_STATUS.SEQ_ENTRY ≠ (if d.rd MODE_STATUS.SEQ_ENTRY < 64 then d.rd MODE_CFG.UP_LEN else 64 + d.rd MODE_CFG.DOWN_LEN)) →
    ∃ t : Dev, exec (.seqDelayExpire) ⟨d, rest⟩ = .next ⟨t, rest⟩ ∧
    t.rd MODE_STATUS.SEQ_ENTRY = d.rd MODE_STATUS.SEQ_ENTRY + 1 ∧ t.mode.seqAt = d.mode.seqAt + d.seqNow.2.2 ∧
    t.mode.seqWait = false) ∧
  (∀ (d : Dev) (rest : List Instr), d.seqRuns = true → d.mode.seqWait = true → d.seqCond = true →
    d.now < d.mode.seqAt + d.seqNow.2.2 → d.rd MODE_STATUS.SEQ_ENTRY < 127 →
    (d.rd MODE_STATUS.SEQ_ENTRY ≠ (if d.rd MODE_STATUS.SEQ_ENTRY < 64 then d.rd MODE_CFG.UP_LEN else 64 + d.rd MODE_CFG.DOWN_LEN)) →
    ∃ t : Dev, exec (.seqWaitDone) ⟨d, rest⟩ = .next ⟨t, rest⟩ ∧ t.rd MODE_STATUS.SEQ_ENTRY = d.rd MODE_STATUS.SEQ_ENTRY + 1 ∧
    t.mode.seqAt = d.now + 1 ∧ t.mode.seqWait = false) ∧
  (∀ (d : Dev) (rest : List Instr), d.seqRuns = true → d.mode.seqWait = true → d.seqNow.1 ≠ 4 →
    d.mode.seqAt + d.seqNow.2.2 ≤ d.now → d.sq = Sq.up → ∃ t : Dev, exec (.seqWaitTimeout) ⟨d, rest⟩ = .next ⟨t, rest⟩ ∧
    t.sq = Sq.halted ∧ t.rd MODE_STATUS.SEQ_FAIL = 1 ∧ (t.rd MODE_EVT.EVT).testBit 2 = true ∧
    t.rd MODE_STATUS.SEQ_ENTRY = d.rd MODE_STATUS.SEQ_ENTRY) ∧
  (∀ (d : Dev) (rest : List Instr), d.seqRuns = true → d.mode.seqWait = false → d.mode.seqAt ≤ d.now →
    (d.mode.seqPast = true ∨ d.seqNow.1 = 0) → d.sq = Sq.up → ∃ t : Dev, exec (.seqEnd) ⟨d, rest⟩ = .next ⟨t, rest⟩ ∧
    t.md = Md.run ∧ t.sq = Sq.done ∧ t.rd MODE_STATUS.CAUSE = 4 ∧ (t.rd MODE_EVT.EVT).testBit 1 = true) ∧
  (∀ (d : Dev) (rest : List Instr), d.seqRuns = true → d.mode.seqWait = false → d.mode.seqAt ≤ d.now →
    (d.mode.seqPast = true ∨ d.seqNow.1 = 0) → d.sq = Sq.down → d.md ≠ Md.holdup →
    exec (.seqEnd) ⟨d, rest⟩ = .next ⟨d.downEnd.configureEntry, rest⟩)

/-- HOLDUP, its stages and restoration. The hold-up comparator takes an ARMED channel ON and the device into HOLDUP; a stage that
closes disables its rails; enough backplane channels end it, and restoration enables the rails one per tick. Each clause
concludes that exec answers a next state, from premises on the state and the operands alone. Completion is so stated for:
holdupEngage, holdupStageShed, holdupExit, restoreStage. (R54, R55, R271, R287, R288) -/
def Obligations.HoldupCommands : Prop :=
  (∀ (d : Dev) (rest : List Instr) (n : Fin 16), d.es n = Ec.armed → d.dieOut 4 = false → d.md = Md.run → ∃ t : Dev,
    exec (.holdupEngage n) ⟨d, rest⟩ = .next ⟨t, rest⟩ ∧ t.es n = Ec.on ∧ (t.E n).gate = .enhancing ∧ t.md = Md.holdup ∧
    t.rd MODE_STATUS.PREV = Md.run ∧ t.mode.tHold = d.now) ∧
  (∀ (d : Dev) (rest : List Instr) (k : Fin 8) (r : Nat), k ≠ 0 → d.md = Md.holdup → d.mode.shedDone.testBit k = false →
    d.mode.tHold + d.rd (HU_STAGE.STAGE_T (k - 1)) ≤ d.now → r < 64 → d.stageOf r = k → d.rLive r = true → ∃ t : Dev,
    exec (.holdupStageShed k) ⟨d, rest⟩ = .next ⟨t, rest⟩ ∧ t.rs r = Rs.off ∧ t.rdBit (HU_SHED.SHED (r / 32)) (r % 32) = true ∧
    t.mode.shedDone.testBit k = true ∧ (t.rd MODE_EVT.EVT).testBit 3 = true) ∧
  (∀ (d : Dev) (rest : List Instr), d.md = Md.holdup → d.dieOut 4 = false → d.mode.tHold < d.now →
    d.rd HU_CFG.HU_EXIT_MIN + 1 ≤ d.exitCount → exec (.holdupExit) ⟨d, rest⟩ = .next ⟨d.holdupLeave, rest⟩) ∧
  (∀ (d : Dev) (rest : List Instr), d.md = Md.holdup → d.dieOut 4 = false → d.mode.tHold < d.now →
    d.rd HU_CFG.HU_EXIT_MIN + 1 ≤ d.exitCount → ∃ t : Dev, exec (.holdupExit) ⟨d, rest⟩ = .next ⟨t, rest⟩ ∧
    t.md = d.rd MODE_STATUS.PREV ∧ t.rd MODE_STATUS.CAUSE = 6 ∧ t.rd MODE_STATUS.PREV = Md.holdup) ∧
  (∀ (d : Dev) (rest : List Instr) (r : Nat) (l : List Nat), d.mode.resStage ≠ 0 → d.md = Md.run → d.mode.resDue ≤ d.now →
    d.mode.resLeft = r :: l → r < 64 → d.railLink r = true → d.rs r = Rs.off → (d.railEnable r).2 = St.success → ∃ t : Dev,
    exec (.restoreStage) ⟨d, rest⟩ = .next ⟨t, rest⟩ ∧ t.rs r = Rs.start ∧ t.rdBit (HU_SHED.SHED (r / 32)) (r % 32) = false ∧
    t.mode.resLeft = l ∧ t.mode.resDue = d.now + 1)

/-- SAFE_DELAY and keep. The end of SAFE_DELAY turns branches off; the entry die enters keep when it loses the hub, its analog
limits latch channels, KEEP_TIME turns them off, and the hub releases it. Each clause concludes that exec answers a next state,
from premises on the state and the operands alone. Completion is so stated for: safeDelayExpire, keepEnter, keepTrip,
keepExpire, keepRelease. (R57, R58, R60, R259, R289) -/
def Obligations.SafeAndKeep : Prop :=
  (∀ (d : Dev) (rest : List Instr) (k : Nat), d.mode.safeAt = some k → k + d.rd SAFE_DELAY.VAL ≤ d.now → d.keep.on = false →
    d.linkUp 7 = true → ∃ t : Dev, exec (.safeDelayExpire) ⟨d, rest⟩ = .next ⟨t, rest⟩ ∧ t.mode.safeAt = none ∧
    (∀ n, n < 64 → d.bs n = Ec.on → t.bs n = Ec.off)) ∧
  (∀ (d : Dev) (rest : List Instr), d.hubLost = true → d.keep.on = false → d.rd KEEP_CFG.KEEP_TIME ≠ 0 → ∃ t : Dev,
    exec (.keepEnter) ⟨d, rest⟩ = .next ⟨t, rest⟩ ∧ t.keep.on = true ∧ t.keep.since = d.clk.sb ∧ t.keep.expired = false ∧
    (∀ n, n < 16 → d.es n = Ec.on → t.es n = Ec.on) ∧ (∀ n, n < 16 → d.es n = Ec.check → t.es n = Ec.off)) ∧
  (∀ (d : Dev) (rest : List Instr) (u : Fin 80), d.keep.on = true → u.val < 16 → d.es u = Ec.on → ∃ t : Dev,
    exec (.keepTrip u) ⟨d, rest⟩ = .next ⟨t, rest⟩ ∧ t.es u = Ec.latched ∧ (t.E u).gate = .offFast) ∧
  (∀ (d : Dev) (rest : List Instr) (u : Fin 80), d.keep.on = true → 16 ≤ u.val → d.bs (u - 16) = Ec.on → ∃ t : Dev,
    exec (.keepTrip u) ⟨d, rest⟩ = .next ⟨t, rest⟩ ∧ t.bs (u - 16) = Ec.latched ∧ (t.B (u - 16)).gate = .offFast) ∧
  (∀ (d : Dev) (rest : List Instr), d.keep.on = true → d.keep.expired = false → d.keep.since + d.keepTime ≤ d.clk.sb →
    d.keep.stay = false → ∃ t : Dev, exec (.keepExpire) ⟨d, rest⟩ = .next ⟨t, rest⟩ ∧ t.keep.expired = true ∧
    (∀ n, n < 16 → d.es n = Ec.on → t.es n = Ec.off) ∧ (∀ n, n < 64 → d.bs n = Ec.on → t.bs n = Ec.off)) ∧
  (∀ (d : Dev) (rest : List Instr), d.keep.on = true → d.linkUp 7 = true → d.clk.rootLost = false → d.mode.pendingCfg = false →
    d.clk.hub = true → ∃ t : Dev, exec (.keepRelease) ⟨d, rest⟩ = .next ⟨t, rest⟩ ∧ t.keep.on = false ∧ t.Reports 0x89 0)

/-- Supplies, resets and the FACTORY unlock. VSTBY gives STANDBY and takes it; the supplies and the PLL lock lead to CONFIGURE with
Thyme at 0; a reset does the same; the two keys in CONFIGURE enter FACTORY. Each clause concludes that exec answers a next
state, from premises on the state and the operands alone. Completion is so stated for: vstbyRise, vstbyLoss, mainSupplyFail,
suppliesGood, rootPllLock, resetN, modeReset, pePerstN, refclkReturn, modeUnlock. (R271, R274, R275, R276, R282, R292, R297,
R298, R300, R331) -/
def Obligations.SupplyCommands : Prop :=
  (∀ (d : Dev) (rest : List Instr), d.md = Md.off → ∃ t : Dev, exec (.vstbyRise) ⟨d, rest⟩ = .next ⟨t, rest⟩ ∧
    t.md = Md.standby ∧ t.rd MODE_STATUS.CAUSE = 1 ∧ t.rd MODE_STATUS.PREV = Md.off ∧ (t.rd MODE_EVT.EVT).testBit 0 = true ∧
    t.clk.hub = false) ∧
  (∀ (d : Dev) (rest : List Instr), ∃ t : Dev, exec (.vstbyLoss) ⟨d, rest⟩ = .next ⟨t, rest⟩ ∧ t.md = Md.off ∧
    t.host.mem = d.host.mem ∧ (∀ o, o ≠ MODE_STATUS.MODE.off → t.word o = resetWord o)) ∧
  (∀ (d : Dev) (rest : List Instr), d.md = Md.run → ∃ t : Dev, exec (.mainSupplyFail) ⟨d, rest⟩ = .next ⟨t, rest⟩ ∧
    t.md = Md.standby ∧ t.rd MODE_STATUS.CAUSE = 9 ∧ t.rd MODE_STATUS.PREV = Md.run ∧ t.clk.hub = false) ∧
  (∀ (d : Dev) (rest : List Instr) (st : Straps), d.md = Md.standby → d.clk.released = none → ∃ t : Dev,
    exec (.suppliesGood st) ⟨d, rest⟩ = .next ⟨t, rest⟩ ∧ t.clk.released = some d.clk.sb ∧
    t.rd DEV_STATUS.FACTORY_N = b2n st.factoryN ∧ t.rd DEV_STATUS.BOOT_SEL = b2n st.bootSel ∧
    t.rd DEV_STATUS.KEEP_STAY = b2n st.keepStay) ∧
  (∀ (d : Dev) (rest : List Instr) (k : Nat), d.md = Md.standby → d.clk.released = some k → ∃ t : Dev,
    exec (.rootPllLock) ⟨d, rest⟩ = .next ⟨t, rest⟩ ∧ t.md = Md.configure ∧ t.clk.hub = true ∧ t.clk.now = 0 ∧
    t.rd CLK_STATUS.LOCK = 1 ∧ t.rd MEM_STATUS.INIT_DONE = 0 ∧ t.mode.pendingCfg = true) ∧
  (∀ (d : Dev) (rest : List Instr) (st : Straps), d.resets = true → d.clk.hub = true → d.clk.rootLost = false →
    exec (.resetN st) ⟨d, rest⟩ = .next ⟨(((d.keepGo.resetBase false).straps st).clearLatch).releaseHub, rest⟩) ∧
  (∀ (d : Dev) (rest : List Instr) (st : Straps), d.resets = true → d.clk.rootLost = true → ∃ t : Dev,
    exec (.resetN st) ⟨d, rest⟩ = .next ⟨t, rest⟩ ∧ t.clk.hub = false ∧ t.clk.released = some d.clk.sb ∧
    t.host.mem = d.host.mem) ∧
  (∀ (d : Dev) (rest : List Instr) (st : Straps), d.resets = true → d.clk.hub = true → d.clk.rootLost = false → ∃ t : Dev,
    exec (.resetN st) ⟨d, rest⟩ = .next ⟨t, rest⟩ ∧ t.md = Md.configure ∧ t.clk.now = 0 ∧ t.clk.hub = true ∧
    t.mode.pendingCfg = true ∧ t.host.mem = d.host.mem) ∧
  (∀ (d : Dev) (rest : List Instr) (a : Agent) (v : Word) (st : Straps), d.resets = true → d.clk.hub = true →
    d.clk.rootLost = false → v = 0xA5C3 → ∃ t : Dev, exec (.modeReset a v st) ⟨d, rest⟩ = .next ⟨t, rest⟩ ∧
    t.md = Md.configure ∧ t.clk.now = 0 ∧ t.clk.hub = true ∧ t.mode.pendingCfg = true) ∧
  (∀ (d : Dev) (rest : List Instr) (a : Agent) (v : Word) (st : Straps), d.resets = true → v ≠ 0xA5C3 →
    exec (.modeReset a v st) ⟨d, rest⟩ = .next ⟨d.wign a.toNat 0x1070 2, rest⟩) ∧
  (∀ (d : Dev) (rest : List Instr), d.clk.hub = true → ∃ t : Dev, exec (.pePerstN) ⟨d, rest⟩ = .next ⟨t, rest⟩ ∧
    (∀ n, n < 0x180 → t.rgState n = Rg.disabled) ∧ (t.rd HOST_EVT.EVT).testBit 1 = true ∧ t.Reports 0x73 0) ∧
  (∀ (d : Dev) (rest : List Instr) (st : Straps), d.clk.rootLost = true → d.resets = true → ∃ t : Dev,
    exec (.refclkReturn st) ⟨d, rest⟩ = .next ⟨t, rest⟩ ∧ t.clk.hub = false ∧ t.clk.released = some d.clk.sb ∧
    t.clk.rootLost = false) ∧
  (∀ (d : Dev) (rest : List Instr) (a : Agent) (v : Word), d.clk.hub = true → (a = 0 ∨ a = 1) → v = 0x5A5A0F0F → ∃ t : Dev,
    exec (.modeUnlock a v) ⟨d, rest⟩ = .next ⟨t, rest⟩ ∧ t.mode.unlock = some (d.now, a.toNat) ∧ t.regs = d.regs) ∧
  (∀ (d : Dev) (rest : List Instr) (a : Agent) (v : Word) (k : Nat), d.clk.hub = true → (a = 0 ∨ a = 1) → v = 0x0F0F5A5A →
    d.mode.unlock = some (k, a.toNat) → d.now < k + 8000 → d.md = Md.configure → d.on DEV_STATUS.FACTORY_N = false → ∃ t : Dev,
    exec (.modeUnlock a v) ⟨d, rest⟩ = .next ⟨t, rest⟩ ∧ t.md = Md.factory ∧ t.mode.unlock = none ∧
    t.rd MODE_STATUS.CAUSE = 0x0A)

/-- The boot ROM. The image is loaded, checked in the order of its rows, and its records applied one by one; the end of the records
sets APPLIED. Each clause concludes that exec answers a next state, from premises on the state and the operands alone.
Completion is so stated for: bootLoad, imageCheck, regWriteRecord, regBlockRecord, claimRecord, coreSectionRecord, imageApplied.
(R277, R278, R279, R280, R281, R427) -/
def Obligations.BootCommands : Prop :=
  (∀ (d : Dev) (rest : List Instr) (fl : Flash), d.md = Md.configure → d.mode.pendingCfg = true → d.mem.init = [] →
    d.calibrating = false → d.on DEV_STATUS.BOOT_SEL = false → d.mode.lastHost = false → ∃ t : Dev,
    exec (.bootLoad fl) ⟨d, rest⟩ = .next ⟨t, rest⟩ ∧ t.mode.image = fl.data ∧ t.mode.flashOk = fl.ok ∧
    t.mode.qspi = [(0x66, 0), (0x99, 0), (0x6B, 0)] ∧ t.rd BOOT_STATUS.STATE = 1 ∧ t.rd BOOT_STATUS.SLOT = 0 ∧
    t.mode.pendingCfg = false) ∧
  (∀ (d : Dev) (rest : List Instr) (fl : Flash), d.md = Md.configure → d.mode.pendingCfg = true → d.mem.init = [] →
    d.calibrating = false → d.on DEV_STATUS.BOOT_SEL = true → ∃ t : Dev, exec (.bootLoad fl) ⟨d, rest⟩ = .next ⟨t, rest⟩ ∧
    t.rd BOOT_STATUS.STATE = 7 ∧ t.mode.pendingCfg = false ∧ t.mode.image = d.mode.image) ∧
  (∀ (d : Dev) (rest : List Instr) (im : List Byte), d.md = Md.configure → d.rd BOOT_STATUS.STATE = 1 →
    d.on BOOT_STATUS.SRC = false → d.mode.flashOk = true → im = flashImage d.mode.image (d.rd BOOT_STATUS.SLOT) →
    exec (.imageCheck) ⟨d, rest⟩ = .next ⟨d.imageEnd im (imageState im d.mode.otp), rest⟩) ∧
  (∀ (d : Dev) (rest : List Instr), d.md = Md.configure → d.rd BOOT_STATUS.STATE = 1 → d.on BOOT_STATUS.SRC = false →
    (imageFormat (flashImage d.mode.image (d.rd BOOT_STATUS.SLOT)) = false ∨ d.mode.flashOk = false) → ∃ t : Dev,
    exec (.imageCheck) ⟨d, rest⟩ = .next ⟨t, rest⟩ ∧
    (d.rd BOOT_STATUS.SLOT = 0 → t.rd BOOT_STATUS.SLOT = 1 ∧ t.rd BOOT_STATUS.STATE = 1) ∧
    (d.rd BOOT_STATUS.SLOT ≠ 0 → t.rd BOOT_STATUS.STATE = 3)) ∧
  (∀ (d : Dev) (rest : List Instr) (r : List Byte), d.bootRecord 0x0001 = some r →
    exec (.regWriteRecord) ⟨d, rest⟩ = .next ⟨let y := d.bootWord (leNat r 4 4) (BitVec.ofNat 32 (leNat r 8 4)) (BitVec.ofNat 32 (leNat r 12 4)); y.1.recordDone r.length y.2, rest⟩) ∧
  (∀ (d : Dev) (rest : List Instr) (r : List Byte), d.bootRecord 0x0001 = some r → leNat r 4 4 = STALL_T.VAL.off → ∃ t : Dev,
    exec (.regWriteRecord) ⟨d, rest⟩ = .next ⟨t, rest⟩ ∧ t.mode.bootPos = d.mode.bootPos + upTo8 r.length ∧
    t.mode.bootIdx = d.mode.bootIdx + 1 ∧
    t.regWord STALL_T.VAL.off = (BitVec.ofNat 32 (leNat r 8 4) &&& BitVec.ofNat 32 (leNat r 12 4)) ||| (d.regWord STALL_T.VAL.off &&& ~~~(BitVec.ofNat 32 (leNat r 12 4))) ∧
    t.rd BOOT_REC.COUNT = d.rd BOOT_REC.COUNT) ∧
  (∀ (d : Dev) (rest : List Instr) (r : List Byte), d.bootRecord 0x0002 = some r →
    exec (.regBlockRecord) ⟨d, rest⟩ = .next ⟨let y := d.bootWords (leNat r 4 4) r 16 (leNat r 8 4); y.1.recordDone r.length y.2, rest⟩) ∧
  (∀ (d : Dev) (rest : List Instr) (r : List Byte), d.bootRecord 0x0002 = some r → ∃ t : Dev,
    exec (.regBlockRecord) ⟨d, rest⟩ = .next ⟨t, rest⟩ ∧ t.mode.bootPos = d.mode.bootPos + upTo8 r.length ∧
    t.mode.bootIdx = d.mode.bootIdx + 1) ∧
  (∀ (d : Dev) (rest : List Instr) (r : List Byte) (c k : Nat), d.bootRecord 0x0003 = some r → leNat r 2 2 = 4096 * c + k →
    k < ownCount c → 1 ≤ byteAt r 4 % 16 → byteAt r 4 % 16 ≤ ownFuncs c → (c ≠ 4 ∨ k ≠ 0 ∨ byteAt r 4 % 16 = 1) →
    claimMode c (byteAt r 4 % 16) Md.configure = true → d.mem.err = [] → d.pairGone 0x83 = false →
    d.rd (OWN.STATE (ownIx c k)) = 0 → ∃ t : Dev, exec (.claimRecord) ⟨d, rest⟩ = .next ⟨t, rest⟩ ∧
    t.rd (OWN.AGENT (ownIx c k)) = byteAt r 5 ∧ t.rd (OWN.FUNCTION (ownIx c k)) = byteAt r 4 % 16 ∧
    t.mode.bootIdx = d.mode.bootIdx + 1 ∧ t.rd BOOT_REC.COUNT = d.rd BOOT_REC.COUNT) ∧
  (∀ (d : Dev) (rest : List Instr) (r : List Byte), d.bootRecord 0x00C5 = some r → byteAt r 3 = 2 →
    d.bankOff (2 * byteAt r 2) = false → ∃ t : Dev, exec (.coreSectionRecord) ⟨d, rest⟩ = .next ⟨t, rest⟩ ∧
    (∀ j, j < 8 → KV.get (fun _ => 0) t.mem.data (bankKey (2 * byteAt r 2) (leNat r 4 4 + j)) = r.getD (16 + j) 0) ∧
    t.rd (CORE_CFG.ENTRY (byteAt r 2)) = leNat r 12 4 % 2 ^ 17 ∧ t.mode.coreCode.testBit (byteAt r 2) = true ∧
    t.mode.bootPos = d.mode.bootPos + upTo8 r.length) ∧
  (∀ (d : Dev) (rest : List Instr), d.md = Md.configure → d.rd BOOT_STATUS.STATE = 2 → d.on BOOT_STATUS.APPLIED = false →
    d.mode.image.length - 256 ≤ d.mode.bootPos → d.mode.coreCode = 0 → d.mode.afterSafe = false →
    d.on MODE_CFG.AUTO_RAMP = false → ∃ t : Dev, exec (.imageApplied) ⟨d, rest⟩ = .next ⟨t, rest⟩ ∧
    t.rd BOOT_STATUS.APPLIED = 1 ∧ t.md = Md.configure ∧ (∀ o, o ≠ BOOT_STATUS.APPLIED.off → t.word o = d.word o))

/-- Thyme, epochs, timers and region monitors. Reads of Thyme, the alignment to PPS_IN and its misses, the hub event timers and the
region monitors. Each clause concludes that exec answers a next state, from premises on the state and the operands alone.
Completion is so stated for: timeAlign, timeAlignTimeout, ppsEdge, ppsWindowMiss, thymeLoRead, thymeBroadcast, timerFire,
regionSample, regionFault. (R301, R302, R303, R304, R305, R306, R307, R309, R311) -/
def Obligations.TimeCommands : Prop :=
  (∀ (d : Dev) (rest : List Instr) (x : Desc) (k ns : Nat), d.blocked 0x03 x = false →
    (d.begin 0x03 x).1.passes x (some 0) false none = true → byteAt x.payload 0 < 32 → byteAt x.payload 1 = 0 →
    zeroBytes x.payload 2 3 = true → zeroBytes x.payload 16 47 = true → k = leNat x.payload 4 8 → k < 2 ^ 48 →
    ns = leNat x.payload 12 4 → ns < 1000000000 → (d.begin 0x03 x).1.pps = 0 → (d.begin 0x03 x).1.now < 2 ^ 64 → ∃ t : Dev,
    exec (.timeAlign x) ⟨d, rest⟩ = .next ⟨t, rest⟩ ∧ t.epochTick = d.now ∧ t.epochS = k ∧ t.rd EPOCH_NS.NS = ns ∧
    (t.rd CLK_EVT.EVT).testBit 0 = true ∧ t.Answered x St.success) ∧
  (∀ (d : Dev) (rest : List Instr) (x : Desc) (tm : Nat), d.blocked 0x03 x = false →
    (d.begin 0x03 x).1.passes x (some 0) false none = true → byteAt x.payload 0 = tm → tm < 32 → byteAt x.payload 1 = 1 →
    zeroBytes x.payload 2 3 = true → zeroBytes x.payload 12 47 = true → leNat x.payload 4 8 < 2 ^ 48 →
    (d.begin 0x03 x).1.alignHeld = none → (d.begin 0x03 x).1.mem.err = [] → (d.begin 0x03 x).1.pairGone 0x83 = false →
    (d.begin 0x03 x).1.rd (OWN.STATE (ownIx 1 tm)) = 0 → (d.begin 0x03 x).1.md = Md.run → ∃ t : Dev,
    exec (.timeAlign x) ⟨d, rest⟩ = .next ⟨t, rest⟩ ∧ t.pps = 1 ∧ t.rd (TMR_CFG.MODE tm) = 3 ∧ t.owns 1 tm 0x30 1 = true ∧
    t.clk.alignOut = (d.begin 0x03 x).1.clk.alignOut ++ [{ tok := .out (d.begin 0x03 x).2, acc := d.now, sec := leNat x.payload 4 8 }] ∧
    t.Waits x) ∧
  (∀ (d : Dev) (rest : List Instr) (a : AlignReq), d.clk.alignOut = [a] → a.acc + 1000000000 ≤ d.now → ∃ t : Dev,
    exec (.timeAlignTimeout) ⟨d, rest⟩ = .next ⟨t, rest⟩ ∧ t.clk.alignOut = [] ∧
    (∀ o ∈ d.host.out, Token.out o.id = a.tok → o.result = none → ∃ y ∈ t.host.out, y.id = o.id ∧ y.result = some (St.ppsAbsent, d.now))) ∧
  (∀ (d : Dev) (rest : List Instr) (a : AlignReq), d.clk.hub = true → d.pps = 1 → d.clk.alignOut = [a] → a.acc < d.now →
    d.now < a.acc + 1000000000 → d.clk.alignTimer = none → d.now < 2 ^ 64 → a.sec < 2 ^ 48 → ∃ t : Dev,
    exec (.ppsEdge) ⟨d, rest⟩ = .next ⟨t, rest⟩ ∧ t.pps = 2 ∧ t.epochTick = d.now ∧ t.epochS = a.sec ∧ t.rd EPOCH_NS.NS = 0 ∧
    t.clk.alignOut = []) ∧
  (∀ (d : Dev) (rest : List Instr), 2 ≤ d.pps → d.epochTick + 800000000 + d.rd CLK_CFG.PPS_WIN ≤ d.now → d.clk.ppsRun ≠ 2 →
    d.epochTick + 800000000 < 2 ^ 64 → d.epochS + 1 < 2 ^ 48 → ∃ t : Dev, exec (.ppsWindowMiss) ⟨d, rest⟩ = .next ⟨t, rest⟩ ∧
    t.epochTick = d.epochTick + 800000000 ∧ t.epochS = d.epochS + 1 ∧ t.clk.ppsRun = d.clk.ppsRun + 1 ∧ t.pps = d.pps) ∧
  (∀ (d : Dev) (rest : List Instr) (a : Agent), d.clk.hub = true → ∃ t : Dev, exec (.thymeLoRead a) ⟨d, rest⟩ = .next ⟨t, rest⟩ ∧
    nget t.clk.thymeHi a.toNat = d.now / 2 ^ 32 + 1 ∧ t.regs = d.regs) ∧
  (∀ (d : Dev) (rest : List Instr) (k : Fin 5) (x : Int), d.linkUp (dieLink k) = true → nget d.clk.copyReload k ≠ 0 → ∃ t : Dev,
    exec (.thymeBroadcast ⟨k, x⟩) ⟨d, rest⟩ = .next ⟨t, rest⟩ ∧ (KV.get (fun _ => (0 : Int)) t.clk.copyOff k = 0) ∧
    nget t.clk.copyReload k = 0 ∧ nget t.link.lastTick k = d.now ∧ t.regs = d.regs) ∧
  (∀ (d : Dev) (rest : List Instr) (k : Fin 5) (x : Int), d.linkUp (dieLink k) = true → nget d.clk.copyReload k = 0 →
    ((KV.get (fun _ => (0 : Int)) d.clk.copyOff k + x).natAbs < 2) → ∃ t : Dev,
    exec (.thymeBroadcast ⟨k, x⟩) ⟨d, rest⟩ = .next ⟨t, rest⟩ ∧
    (KV.get (fun _ => (0 : Int)) t.clk.copyOff k = KV.get (fun _ => (0 : Int)) d.clk.copyOff k + x) ∧
    nget t.clk.copyReload k = 0 ∧ nget t.link.lastTick k = d.now ∧ t.regs = d.regs ∧ t.flt = d.flt) ∧
  (∀ (d : Dev) (rest : List Instr) (k : Fin 5) (x : Int), d.linkUp (dieLink k) = true → nget d.clk.copyReload k = 0 →
    (2 ≤ (KV.get (fun _ => (0 : Int)) d.clk.copyOff k + x).natAbs) → ∃ t : Dev,
    exec (.thymeBroadcast ⟨k, x⟩) ⟨d, rest⟩ = .next ⟨t, rest⟩ ∧ nget t.clk.copyReload k ≠ 0 ∧ t.Reports 0x84 (dieLink k)) ∧
  (∀ (d : Dev) (rest : List Instr) (n : Fin 32), nget d.clk.timerDue n ≠ 0 → nget d.clk.timerDue n ≤ d.now →
    d.rd (OWN.STATE (ownIx 1 n)) = 1 → d.rd (OWN.FUNCTION (ownIx 1 n)) = 1 → d.rd (TMR_CFG.MODE n) = 1 →
    d.rd (TMR_STATUS.PENDING n) = 0 → ∃ t : Dev, exec (.timerFire n) ⟨d, rest⟩ = .next ⟨t, rest⟩ ∧
    t.rd (TMR_STATUS.PENDING n) = 1 ∧ nget t.clk.timerDue n = 0 ∧
    (d.cmp n < nget d.clk.timerDue n → t.rd (TMR_STATUS.LATE n) = 1)) ∧
  (∀ (d : Dev) (rest : List Instr) (k : Fin 3) (m : RegionDiff), d.clk.hub = true → ∃ t : Dev,
    exec (.regionSample k m) ⟨d, rest⟩ = .next ⟨t, rest⟩ ∧
    t.rd (REG_LINK.OUT k) = b2n (decide (45 < m.supply.natAbs)) + 2 * b2n (decide (25 < m.temp.natAbs)) + 4 * b2n (decide (30 < m.skew.natAbs)) ∧
    (∀ o, o ≠ (REG_LINK.OUT k).off → t.word o = d.word o)) ∧
  (∀ (d : Dev) (rest : List Instr) (k : Fin 3) (q : Nat), d.clk.hub = true → q < 3 → nget d.clk.regWin (3 * k + q) ≠ 0 →
    nget d.clk.regWin (3 * k + q) - 1 + d.rd REG_CFG.REG_FILT ≤ d.now → ∃ t : Dev,
    exec (.regionFault k) ⟨d, rest⟩ = .next ⟨t, rest⟩ ∧ nget t.clk.regWin (3 * k + q) = 0 ∧
    (t.rd CLK_EVT.EVT).testBit 3 = true ∧ t.Reports (0x81 + q) k)

/-- The selvage and its paths. A merge window closes; a fault message is taken in; the hardwired paths enter SAFE at once; links are
lost, err and return. Each clause concludes that exec answers a next state, from premises on the state and the operands alone.
Completion is so stated for: mergeWindowClose, faultOccurrence, lockstep, clkRoot, linkLost, linkError, linkReturn. (R246, R251,
R254, R257, R259, R260, R298) -/
def Obligations.SelvageCommands : Prop :=
  (∀ (d : Dev) (rest : List Instr) (k : Fin 256) (w : Nat), (d.SL k).win = some w → d.slotUsed k = true →
    w + d.mergeWin ≤ d.now → (d.SL k).merged = false → d.rd (SLOT.LEVEL k) ≠ 0 → ∃ t : Dev,
    exec (.mergeWindowClose k) ⟨d, rest⟩ = .next ⟨t, rest⟩ ∧ (t.SL k).win = none ∧ t.slotUsed k = true ∧ t.regs = d.regs) ∧
  (∀ (d : Dev) (rest : List Instr) (k : Fin 256) (w : Nat), (d.SL k).win = some w → d.slotUsed k = true →
    w + d.mergeWin ≤ d.now → (d.SL k).merged = true → d.flt.ring = true →
    exec (.mergeWindowClose k) ⟨d, rest⟩ = .next ⟨(d.report k 0x0011).onSL k fun x => { x with win := some (w + d.mergeWin), merged := false }, rest⟩) ∧
  (∀ (d : Dev) (rest : List Instr) (m : FMsg) (l : List FMsg), d.flt.msgs = m :: l → d.clk.hub = true → d.clk.rootLost = false →
    exec (.faultOccurrence) ⟨d, rest⟩ = .next ⟨{ d with flt := { d.flt with msgs := l } }.occur m, rest⟩) ∧
  (∀ (d : Dev) (rest : List Instr) (m : FMsg) (l : List FMsg) (s : Nat), d.flt.msgs = m :: l → d.clk.hub = true →
    d.clk.rootLost = false → m.latch = false → m.fence = 0 → m.safe = false → m.top < 4 → fenceLevel m m.top = 0 →
    d.slotOf m.kind m.unit = none → d.slotNew m.level = some s → d.flt.ring = false → 1 ≤ m.top → d.mem.err = [] → ∃ t : Dev,
    exec (.faultOccurrence) ⟨d, rest⟩ = .next ⟨t, rest⟩ ∧ t.flt.msgs = l ∧
    (∀ k, k < 8 → t.rd (SLOT.WORD s k) = (recordWords m m.top m.level 1 s 0 false false).getD k 0) ∧ t.slotUsed s = true ∧
    t.md = d.md) ∧
  (∀ (d : Dev) (rest : List Instr) (m : FMsg) (l : List FMsg), d.flt.msgs = m :: l → d.clk.hub = true → d.clk.rootLost = false →
    m.latch = false → m.fence = 0 → m.safe = false → m.top < 4 → fenceLevel m m.top = 0 → d.slotOf m.kind m.unit = none →
    d.slotNew m.level = none → ∃ t : Dev, exec (.faultOccurrence) ⟨d, rest⟩ = .next ⟨t, rest⟩ ∧ t.flt.msgs = l ∧
    t.rd FLT_LOST.LOST = satAdd (2 ^ FLT_LOST.LOST.len - 1) (d.rd FLT_LOST.LOST) 1 ∧ t.rd FLT_STATUS.FULL = 1 ∧ t.mem = d.mem) ∧
  (∀ (d : Dev) (rest : List Instr), d.clk.hub = true → d.clk.rootLost = false → d.md = Md.run → ∃ t : Dev,
    exec (.lockstep) ⟨d, rest⟩ = .next ⟨t, rest⟩ ∧ t.md = Md.safe ∧ t.rd MODE_STATUS.CAUSE = 7 ∧
    t.rd MODE_STATUS.SAFE_LATCH = 1 ∧ t.rd FLT_SAFE_CTL.VALID = 1 ∧ t.flt.msgs = d.flt.msgs) ∧
  (∀ (d : Dev) (rest : List Instr) (c : Fin 3), d.clk.hub = true → d.clk.rootLost = false → c = 2 → ∃ t : Dev,
    exec (.clkRoot c) ⟨d, rest⟩ = .next ⟨t, rest⟩ ∧ t.rd CLK_STATUS.REF_OK = 0 ∧ t.Reports 0x80 0 ∧ t.clk.rootLost = false) ∧
  (∀ (d : Dev) (rest : List Instr) (c : Fin 3), d.clk.hub = true → d.clk.rootLost = false → c ≠ 2 → ∃ t : Dev,
    exec (.clkRoot c) ⟨d, rest⟩ = .next ⟨t, rest⟩ ∧ t.clk.rootLost = true ∧ t.rd CLK_STATUS.LOCK = 0 ∧
    t.rd MODE_STATUS.SAFE_LATCH = 1 ∧ t.rd FLT_SAFE_CTL.VALID = 1 ∧ (d.md = Md.run → t.md = Md.safe)) ∧
  (∀ (d : Dev) (rest : List Instr) (l : Fin 8), d.clk.hub = true → d.link.lost.testBit l = false → ∃ t : Dev,
    exec (.linkLost l) ⟨d, rest⟩ = .next ⟨t, rest⟩ ∧ t.link.lost.testBit l = true ∧ t.link.fenced.testBit l = true ∧
    t.linkUp l = false ∧ t.Reports 0x85 l) ∧
  (∀ (d : Dev) (rest : List Instr) (l : Fin 8), d.linkUp l = true → ∃ t : Dev, exec (.linkError l) ⟨d, rest⟩ = .next ⟨t, rest⟩ ∧
    t.regs = d.regs ∧ t.link = d.link ∧ t.Reports 0x84 l) ∧
  (∀ (d : Dev) (rest : List Instr) (l : Fin 8), d.link.lost.testBit l = true → d.link.fenced.testBit l = true → ∃ t : Dev,
    exec (.linkReturn l) ⟨d, rest⟩ = .next ⟨t, rest⟩ ∧ t.link.lost.testBit l = false ∧ t.link.fenced = d.link.fenced ∧
    t.regs = d.regs)

/-- Interleaved converters, scan converters and injected requests. Corrections move by at most four codes and are suspended for a
slice that is out; a limit window and a slice of a calibration end; a slot converts what its turn gives; a pass and an injected
request end. Each clause concludes that exec answers a next state, from premises on the state and the operands alone. Completion
is so stated for: correctionUpdate, sliceDrift, calSliceEnd, scvConversion, seqPassEnd, injResult, tempStale, ecvSample. (R188,
R189, R192, R194, R199, R203, R207) -/
def Obligations.ConverterCommands : Prop :=
  (∀ (d : Dev) (rest : List Instr) (c : Fin 632) (e : Estimate), d.clk.hub = true → d.clk.rootLost = false →
    d.convLow c = false → (d.C c).corrAt + 655360 ≤ d.now → e.slice.val < sliceCount c → d.sliceOut c e.slice = false →
    ∃ t : Dev, exec (.correctionUpdate c [e]) ⟨d, rest⟩ = .next ⟨t, rest⟩ ∧
    t.rds (CV_SLICE.OFS c e.slice) = correct (d.rds (CV_SLICE.OFS c e.slice)) e.ofs 10 ∧
    t.rds (CV_SLICE.GAIN c e.slice) = correct (d.rds (CV_SLICE.GAIN c e.slice)) e.gain 10 ∧
    (t.rds (CV_SLICE.OFS c e.slice) - d.rds (CV_SLICE.OFS c e.slice)).natAbs ≤ 4 ∧
    (t.rds (CV_SLICE.SKEW c e.slice) = correct (d.rds (CV_SLICE.SKEW c e.slice)) (e.skew.getD (KV.get (fun _ => (0 : Int)) (d.C c).skewEst e.slice)) 8) ∧
    (t.C c).corrAt = d.now) ∧
  (∀ (d : Dev) (rest : List Instr) (c : Fin 632) (k : Fin 8), nget (d.C c).limit k ≠ 0 →
    nget (d.C c).limit k - 1 + 4000000 ≤ d.now → ∃ t : Dev, exec (.sliceDrift c k) ⟨d, rest⟩ = .next ⟨t, rest⟩ ∧
    nget (t.C c).limit k = 0 ∧ t.Reports 0x48 c ∧ t.regs = d.regs) ∧
  (∀ (d : Dev) (rest : List Instr) (c : Fin 632) (m : CalResult) (s : Nat), (d.C c).calLeft = [s] → s < sliceCount c →
    d.rd (CV_STATUS.CAL_STATUS c) = 2 → (d.C c).calEnd ≤ d.now → (d.C c).calFail = false → beyond m.ofs 10 = false →
    beyond m.gain 10 = false → ∃ t : Dev, exec (.calSliceEnd c m) ⟨d, rest⟩ = .next ⟨t, rest⟩ ∧
    t.rds (CV_SLICE.OFS c s) = m.ofs ∧ t.rds (CV_SLICE.GAIN c s) = m.gain ∧ t.rdBit (CV_STATUS.FENCED c) s = false ∧
    t.rd (CV_STATUS.CAL_STATUS c) = 3 ∧ (t.C c).calLeft = [] ∧ (t.C c).calUn = []) ∧
  (∀ (d : Dev) (rest : List Instr) (c : Fin 632) (m : CalResult) (s : Nat), (d.C c).calLeft = [s] → s < sliceCount c →
    d.rd (CV_STATUS.CAL_STATUS c) = 2 → (d.C c).calEnd ≤ d.now → beyond m.ofs 10 = true → ∃ t : Dev,
    exec (.calSliceEnd c m) ⟨d, rest⟩ = .next ⟨t, rest⟩ ∧ t.rdBit (CV_STATUS.FENCED c) s = d.rdBit (CV_STATUS.FENCED c) s ∧
    t.rd (CV_STATUS.CAL_STATUS c) = 4 ∧ (t.rd (CV_EVT.EVT c)).testBit 1 = true) ∧
  (∀ (d : Dev) (rest : List Instr) (k : Fin 8) (s : Fin 64) (code : BitVec 12) (q : Nat), d.onGrid (624 + k) = true →
    d.lowPower = false → s.val = d.slotNow → ((d.calTurn (624 + k)).takeInst (624 + k)).sliceOut (624 + k) (s % 4) = false →
    ((d.calTurn (624 + k)).takeInst (624 + k)).reservedNow k = some q →
    exec (.scvConversion k s code) ⟨d, rest⟩ = .next ⟨((d.calTurn (624 + k)).takeInst (624 + k)).reserved k q code, rest⟩) ∧
  (∀ (d : Dev) (rest : List Instr) (k : Fin 8) (s : Fin 64) (code : BitVec 12), d.onGrid (624 + k) = true → d.lowPower = false →
    s.val = d.slotNow → ((d.calTurn (624 + k)).takeInst (624 + k)).sliceOut (624 + k) (s % 4) = false →
    ((d.calTurn (624 + k)).takeInst (624 + k)).reservedNow k = none →
    ((d.calTurn (624 + k)).takeInst (624 + k)).rd (INJ_STAT.STATE k) = 1 → ∃ t : Dev,
    exec (.scvConversion k s code) ⟨d, rest⟩ = .next ⟨t, rest⟩ ∧ t.rd (INJ_STAT.STATE k) = 2 ∧ (t.SQ k).injIns = d.now ∧
    (t.SQ k).injVal = selValue ((d.SQ k).injSel % 32) (((d.calTurn (624 + k)).takeInst (624 + k)).code (624 + k) (s % 4) (decide ((d.SQ k).injSel % 32 < 8)) 12 code)) ∧
  (∀ (d : Dev) (rest : List Instr) (k : Fin 8) (s : Fin 64) (code : BitVec 12), d.onGrid (624 + k) = true → d.lowPower = false →
    s.val = d.slotNow → ((d.calTurn (624 + k)).takeInst (624 + k)).sliceOut (624 + k) (s % 4) = false →
    ((d.calTurn (624 + k)).takeInst (624 + k)).reservedNow k = none →
    ((d.calTurn (624 + k)).takeInst (624 + k)).rd (INJ_STAT.STATE k) ≠ 1 →
    exec (.scvConversion k s code) ⟨d, rest⟩ = .next ⟨((d.calTurn (624 + k)).takeInst (624 + k)).seqConvert k (s % 4) code, rest⟩) ∧
  (∀ (d : Dev) (rest : List Instr) (k : Fin 8), (d.SQ k).passDone = true → (d.SQ k).tEnd ≤ d.now → d.on (SEQ_CFG.ONCE k) = true →
    d.rd (SEQ_CFG.TRIG_SRC k) ≠ 8 + k.val → ∃ t : Dev, exec (.seqPassEnd k) ⟨d, rest⟩ = .next ⟨t, rest⟩ ∧
    (t.SQ k).pass = none ∧ (t.SQ k).passDone = false ∧ t.rd (SEQ_STATUS.ACTIVE k) = 0) ∧
  (∀ (d : Dev) (rest : List Instr) (k : Fin 8), d.rd (INJ_STAT.STATE k) = 2 → (d.SQ k).injIns + 80 ≤ d.now →
    (d.SQ k).injVal < 65536 → ∃ t : Dev, exec (.injResult k) ⟨d, rest⟩ = .next ⟨t, rest⟩ ∧ t.rd (INJ_STAT.STATE k) = 0 ∧
    t.rd (INJ_STAT.DONE k) = 1 ∧ t.rd (INJ_STAT.RESULT k) = (d.SQ k).injVal) ∧
  (∀ (d : Dev) (rest : List Instr) (u : Fin 80), u.val < 16 → d.on (ENT_CFG.TEMP_SRC u) = true → (d.E u).stale = false →
    (d.E u).tAt.getD d.clk.entUp + 1280000 ≤ d.clk.ent → ∃ t : Dev, exec (.tempStale u) ⟨d, rest⟩ = .next ⟨t, rest⟩ ∧
    (t.E u).stale = true ∧ t.Reports 0x4A u ∧ t.regs = d.regs) ∧
  (∀ (d : Dev) (rest : List Instr) (u : Fin 80), 16 ≤ u.val → d.on (BR_CFG.TEMP_SRC (u - 16)) = true →
    (d.B (u - 16)).stale = false → (d.B (u - 16)).tAt.getD d.clk.entUp + 1280000 ≤ d.clk.ent → ∃ t : Dev,
    exec (.tempStale u) ⟨d, rest⟩ = .next ⟨t, rest⟩ ∧ (t.B (u - 16)).stale = true ∧ t.Reports 0x4B (u - 16) ∧ t.regs = d.regs) ∧
  (∀ (d : Dev) (rest : List Instr) (n : Fin 16), d.md ≠ Md.off → d.onGrid (576 + 3 * n) = true → d.es n ≠ Ec.inrush →
    exec (.ecvSample n none) ⟨d, rest⟩ = .next ⟨((d.takeInst (576 + 3 * n)).entModel n).entJudge n false, rest⟩) ∧
  (∀ (d : Dev) (rest : List Instr) (n : Fin 16) (m : EcvTriple), d.md ≠ Md.off → d.onGrid (576 + 3 * n) = true →
    d.sampled (576 + 3 * n) = true → d.sampled (577 + 3 * n) = true → d.sampled (578 + 3 * n) = true → d.es n = Ec.off →
    ∃ t : Dev, exec (.ecvSample n (some m)) ⟨d, rest⟩ = .next ⟨t, rest⟩ ∧
    (t.E n).i = sext 14 (d.code (576 + 3 * n) (d.sliceNow (576 + 3 * n)) true 14 m.i).toNat ∧
    (t.E n).vin = (d.code (577 + 3 * n) (d.sliceNow (576 + 3 * n)) false 14 m.vin).toNat ∧
    (t.E n).vout = (d.code (578 + 3 * n) (d.sliceNow (576 + 3 * n)) false 14 m.vout).toNat)

/-- The Sage and the integrating converters. A period of an integrating converter closes with its result; packs come, settle, rest,
empty and go; records are built and written; an impedance step qualifies and ends. Each clause concludes that exec answers a
next state, from premises on the state and the operands alone. Completion is so stated for: icvPeriodEnd, packInsert,
sageSettlingEnd, packRemove, sageTempStale, restPoint, forcedEmpty, sageRecordBuild, sageRecordWrite, impQualify, impMeasureEnd.
(R210, R220, R227, R228, R229, R230, R231, R236, R238, R240) -/
def Obligations.SageCommands : Prop :=
  (∀ (d : Dev) (rest : List Instr) (n : Fin 24) (code : BitVec 24) (ovr : Bool), (d.IC n).opened + (d.IC n).period ≤ d.icvCount n →
    n.val < 16 → ∃ t : Dev, exec (.icvPeriodEnd n code ovr) ⟨d, rest⟩ = .next ⟨t, rest⟩ ∧
    t.rd (ICV_RESULT.RESULT n) = code.toNat ∧ t.rd (ICV_RESULT.OVR n) = b2n ovr ∧ t.rd (ICV_RESULT.NEW n) = 1 ∧
    (t.IC n).opened = (d.IC n).opened + (d.IC n).period) ∧
  (∀ (d : Dev) (rest : List Instr) (p : Fin 4), d.on (SG_CFG.EN p) = true → 2 ≤ (d.SG p).hiN →
    d.on (SG_STATUS.PRESENT p) = false → (d.SG p).settle = none → ∃ t : Dev, exec (.packInsert p) ⟨d, rest⟩ = .next ⟨t, rest⟩ ∧
    (t.SG p).settle = some (d.SG p).per ∧ t.rd (SG_STATUS.SETTLING p) = 1 ∧ t.rd (SG_STATUS.PRESENT p) = 0) ∧
  (∀ (d : Dev) (rest : List Instr) (p : Fin 4) (k : Nat), (d.SG p).settle = some k → k + 200 ≤ (d.SG p).per → ∃ t : Dev,
    exec (.sageSettlingEnd p) ⟨d, rest⟩ = .next ⟨t, rest⟩ ∧ (t.SG p).settle = none ∧ t.rd (SG_STATUS.SETTLING p) = 0 ∧
    t.rd (SG_STATUS.PRESENT p) = 1 ∧ t.rd (SG_STATUS.PROVISIONAL p) = 1 ∧ (t.rd (SG_EVT.EVT p)).testBit 0 = true ∧
    (t.SG p).soc = d.socOf p (d.vCorr p) (d.SG p).temp) ∧
  (∀ (d : Dev) (rest : List Instr) (p : Fin 4), 2 ≤ (d.SG p).loN → d.on (SG_STATUS.PRESENT p) = true → ∃ t : Dev,
    exec (.packRemove p) ⟨d, rest⟩ = .next ⟨t, rest⟩ ∧ t.rd (SG_STATUS.PRESENT p) = 0 ∧ t.rd (SG_STATUS.VOID p) = 1 ∧
    t.rd (SG_CAPACITY.CAP p) = d.rd (SG_CAP.CAP_NOM p) ∧ (t.rd (SG_EVT.EVT p)).testBit 1 = true ∧
    t.rd (SG_GEN.GEN p) = d.rd (SG_GEN.GEN p)) ∧
  (∀ (d : Dev) (rest : List Instr) (p : Fin 4), 100 ≤ (d.SG p).tN → (d.SG p).tStale = false → ∃ t : Dev,
    exec (.sageTempStale p) ⟨d, rest⟩ = .next ⟨t, rest⟩ ∧ (t.SG p).tStale = true ∧ (t.SG p).temp = d.rds (SG_CFG.T_FIXED p) ∧
    t.Reports 0x4C p ∧ t.regs = d.regs) ∧
  (∀ (d : Dev) (rest : List Instr) (p : Fin 4) (k : Nat), (d.SG p).restO = some k →
    k + d.rd (SG_REST_T.REST_T p) ≤ (d.SG p).per → (d.SG p).start = none → ∃ t : Dev,
    exec (.restPoint p) ⟨d, rest⟩ = .next ⟨t, rest⟩ ∧ (t.SG p).restO = some (d.SG p).per ∧ t.rd (SG_STATUS.PROVISIONAL p) = 0 ∧
    t.rd (SG_STATUS.DISAGREE p) = 0 ∧ (t.rd (SG_EVT.EVT p)).testBit 2 = true ∧
    (t.SG p).soc = d.socOf p (d.vCorr p) (d.SG p).temp) ∧
  (∀ (d : Dev) (rest : List Instr) (p : Fin 4) (k : Nat), (d.SG p).empty = some k → k + 500 ≤ (d.SG p).per → ∃ t : Dev,
    exec (.forcedEmpty p) ⟨d, rest⟩ = .next ⟨t, rest⟩ ∧ (t.SG p).soc = 0 ∧ (t.SG p).rep = 0 ∧ (t.SG p).start = none ∧
    (t.SG p).empty = none ∧ t.rd (SG_STATUS.SUSPECT_NEXT p) = 1 ∧ (t.rd (SG_EVT.EVT p)).testBit 7 = true ∧ t.Reports 0x52 p) ∧
  (∀ (d : Dev) (rest : List Instr) (p : Fin 4), d.on (SG_CFG.EN p) = true → d.rd (SG_GEN.GEN p) ≠ (d.SG p).lastGen →
    (d.SG p).lastPer + d.rd (SG_WB.WB_INTERVAL p) ≤ (d.SG p).per → ∃ t : Dev,
    exec (.sageRecordBuild p) ⟨d, rest⟩ = .next ⟨t, rest⟩ ∧ t.rd (SG_STATUS.WB_PENDING p) = 1 ∧
    (∀ o, o ≠ (SG_STATUS.WB_PENDING p).off → t.word o = d.word o)) ∧
  (∀ (d : Dev) (rest : List Instr) (p : Fin 4), d.on (SG_STATUS.WB_PENDING p) = true → d.linkUp 7 = true → d.lowPower = false →
    (d.evTry (d.rd (SG_CFG.EVT_RING p)) (d.sageBytes p)).2 = true → ∃ t : Dev,
    exec (.sageRecordWrite p) ⟨d, rest⟩ = .next ⟨t, rest⟩ ∧ t.rd (SG_STATUS.WB_PENDING p) = 0 ∧
    (t.rd (SG_EVT.EVT p)).testBit 8 = true ∧ (t.SG p).lastGen = d.rd (SG_GEN.GEN p) ∧ (t.SG p).lastPer = (d.SG p).per ∧
    (t.SG p).reads = []) ∧
  (∀ (d : Dev) (rest : List Instr) (p : Fin 4) (k : Nat), (d.SG p).t0 = some k → (d.SG p).qualified = false →
    d.lowPower = false → k + 8000 ≤ d.now →
    ((((d.SG p).hist.filter fun x => decide (k + 3440 ≤ x.1 ∧ x.1 < k + 4080)).length) ≠ 8) → ∃ t : Dev,
    exec (.impQualify p) ⟨d, rest⟩ = .next ⟨t, rest⟩ ∧ (t.SG p).t0 = none ∧ t.regs = d.regs) ∧
  (∀ (d : Dev) (rest : List Instr) (p : Fin 4) (k : Nat) (i5 il : Int) (v5 vl : Nat), (d.SG p).t0 = some k →
    (d.SG p).qualified = false → d.lowPower = false → k + 8000 ≤ d.now →
    (((d.SG p).hist.filter fun x => decide (k + 3440 ≤ x.1 ∧ x.1 < k + 4080)).length = 8) →
    (i5 = ((d.SG p).hist.filter fun x => decide (k + 3440 ≤ x.1 ∧ x.1 < k + 4080)).foldl (fun s x => s + x.2.1) 0) →
    (v5 = ((d.SG p).hist.filter fun x => decide (k + 3440 ≤ x.1 ∧ x.1 < k + 4080)).foldl (fun s x => s + x.2.2) 0) →
    d.histSum p 8 (k + 8000) = (il, vl, 8) →
    (i5 * 16 - (d.SG p).iPre * 8).natAbs * 7500000 ≥ d.rd (SG_IMP.IMP_STEP_MIN p) * d.rd (SG_SHUNT.RSHUNT p) * 8192 * 8 * 16 →
    (il * 8 - i5 * 8).natAbs * 7500000 * 4 ≤ d.rd (SG_IMP.IMP_STEP_MIN p) * d.rd (SG_SHUNT.RSHUNT p) * 8192 * 8 * 8 →
    (d.SG p).quiet = true → (((d.SG p).hist.all fun y => decide (y.1 < k + 8000)) = true) → ∃ t : Dev,
    exec (.impQualify p) ⟨d, rest⟩ = .next ⟨t, rest⟩ ∧ t.SG p = { d.SG p with i5 := i5, v5 := v5, qualified := true } ∧
    t.regs = d.regs ∧ t.flt = d.flt) ∧
  (∀ (d : Dev) (rest : List Instr) (p : Fin 4) (k : Nat) (i5 il : Int) (v5 vl : Nat) (m : Int) (x sh : Nat), (d.SG p).t0 = some k →
    (d.SG p).qualified = false → d.lowPower = false → k + 8000 ≤ d.now →
    (((d.SG p).hist.filter fun x => decide (k + 3440 ≤ x.1 ∧ x.1 < k + 4080)).length = 8) →
    (i5 = ((d.SG p).hist.filter fun x => decide (k + 3440 ≤ x.1 ∧ x.1 < k + 4080)).foldl (fun s x => s + x.2.1) 0) →
    (v5 = ((d.SG p).hist.filter fun x => decide (k + 3440 ≤ x.1 ∧ x.1 < k + 4080)).foldl (fun s x => s + x.2.2) 0) →
    d.histSum p 8 (k + 8000) = (il, vl, 8) →
    (i5 * 16 - (d.SG p).iPre * 8).natAbs * 7500000 ≥ d.rd (SG_IMP.IMP_STEP_MIN p) * d.rd (SG_SHUNT.RSHUNT p) * 8192 * 8 * 16 →
    (il * 8 - i5 * 8).natAbs * 7500000 * 4 ≤ d.rd (SG_IMP.IMP_STEP_MIN p) * d.rd (SG_SHUNT.RSHUNT p) * 8192 * 8 * 8 →
    (d.SG p).quiet = false →
    m = microOhm (fDiv (fSub (meanVolts (d.SG p).vPre 16) (meanVolts v5 8)) (fSub (d.meanAmps p i5 8) (d.meanAmps p (d.SG p).iPre 16))) →
    x = d.rd (SG_RSER_L.VAL p) → sh = d.rd (SG_IMP.IMP_SHIFT p) → impOk m x = true → 0 ≤ impBlend m x sh →
    impBlend m x sh < 2 ^ 32 → ∃ t : Dev, exec (.impQualify p) ⟨d, rest⟩ = .next ⟨t, rest⟩ ∧ (t.SG p).t0 = none ∧
    (t.SG p).qualified = false ∧ (t.rd (SG_RSER_L.VAL p) : Int) = impBlend m x sh ∧ t.rd (SG_STATUS.VOID p) = 0 ∧
    t.rd (SG_GEN.GEN p) = (d.rd (SG_GEN.GEN p) + 1) % 2 ^ (SG_GEN.GEN p).len ∧
    t.rd (SG_CNT.IMP_ACC p) = satAdd (2 ^ (SG_CNT.IMP_ACC p).len - 1) (d.rd (SG_CNT.IMP_ACC p)) 1 ∧
    (t.rd (SG_EVT.EVT p)).testBit 5 = true ∧ t.rd (SG_RPOL1_L.VAL p) = d.rd (SG_RPOL1_L.VAL p)) ∧
  (∀ (d : Dev) (rest : List Instr) (p : Fin 4) (k : Nat) (i5 il : Int) (v5 vl : Nat) (m : Int) (x : Nat), (d.SG p).t0 = some k →
    (d.SG p).qualified = false → d.lowPower = false → k + 8000 ≤ d.now →
    (((d.SG p).hist.filter fun x => decide (k + 3440 ≤ x.1 ∧ x.1 < k + 4080)).length = 8) →
    (i5 = ((d.SG p).hist.filter fun x => decide (k + 3440 ≤ x.1 ∧ x.1 < k + 4080)).foldl (fun s x => s + x.2.1) 0) →
    (v5 = ((d.SG p).hist.filter fun x => decide (k + 3440 ≤ x.1 ∧ x.1 < k + 4080)).foldl (fun s x => s + x.2.2) 0) →
    d.histSum p 8 (k + 8000) = (il, vl, 8) →
    (i5 * 16 - (d.SG p).iPre * 8).natAbs * 7500000 ≥ d.rd (SG_IMP.IMP_STEP_MIN p) * d.rd (SG_SHUNT.RSHUNT p) * 8192 * 8 * 16 →
    (il * 8 - i5 * 8).natAbs * 7500000 * 4 ≤ d.rd (SG_IMP.IMP_STEP_MIN p) * d.rd (SG_SHUNT.RSHUNT p) * 8192 * 8 * 8 →
    (d.SG p).quiet = false →
    m = microOhm (fDiv (fSub (meanVolts (d.SG p).vPre 16) (meanVolts v5 8)) (fSub (d.meanAmps p i5 8) (d.meanAmps p (d.SG p).iPre 16))) →
    x = d.rd (SG_RSER_L.VAL p) → impOk m x = false → ∃ t : Dev, exec (.impQualify p) ⟨d, rest⟩ = .next ⟨t, rest⟩ ∧
    (t.SG p).t0 = none ∧ (t.SG p).qualified = false ∧ t.rd (SG_RSER_L.VAL p) = x ∧
    t.rd (SG_CNT.IMP_REJ p) = satAdd (2 ^ (SG_CNT.IMP_REJ p).len - 1) (d.rd (SG_CNT.IMP_REJ p)) 1 ∧
    t.rd (SG_GEN.GEN p) = d.rd (SG_GEN.GEN p) ∧ t.Reports 0x50 p) ∧
  (∀ (d : Dev) (rest : List Instr) (p : Fin 4) (k : Nat) (i5 : Int) (v5 : Nat), (d.SG p).t0 = some k →
    (d.SG p).qualified = false → d.lowPower = false → k + 8000 ≤ d.now →
    (((d.SG p).hist.filter fun x => decide (k + 3440 ≤ x.1 ∧ x.1 < k + 4080)).length = 8) →
    (i5 = ((d.SG p).hist.filter fun x => decide (k + 3440 ≤ x.1 ∧ x.1 < k + 4080)).foldl (fun s x => s + x.2.1) 0) →
    (v5 = ((d.SG p).hist.filter fun x => decide (k + 3440 ≤ x.1 ∧ x.1 < k + 4080)).foldl (fun s x => s + x.2.2) 0) →
    (i5 * 16 - (d.SG p).iPre * 8).natAbs * 7500000 < d.rd (SG_IMP.IMP_STEP_MIN p) * d.rd (SG_SHUNT.RSHUNT p) * 8192 * 8 * 16 →
    ∃ t : Dev, exec (.impQualify p) ⟨d, rest⟩ = .next ⟨t, rest⟩ ∧ (t.SG p).t0 = none ∧ (t.SG p).qualified = false ∧
    t.regs = d.regs) ∧
  (∀ (d : Dev) (rest : List Instr) (p : Fin 4) (k : Nat) (i5 il : Int) (v5 vl : Nat), (d.SG p).t0 = some k →
    (d.SG p).qualified = false → d.lowPower = false → k + 8000 ≤ d.now →
    (((d.SG p).hist.filter fun x => decide (k + 3440 ≤ x.1 ∧ x.1 < k + 4080)).length = 8) →
    (i5 = ((d.SG p).hist.filter fun x => decide (k + 3440 ≤ x.1 ∧ x.1 < k + 4080)).foldl (fun s x => s + x.2.1) 0) →
    (v5 = ((d.SG p).hist.filter fun x => decide (k + 3440 ≤ x.1 ∧ x.1 < k + 4080)).foldl (fun s x => s + x.2.2) 0) →
    d.histSum p 8 (k + 8000) = (il, vl, 8) →
    d.rd (SG_IMP.IMP_STEP_MIN p) * d.rd (SG_SHUNT.RSHUNT p) * 8192 * 8 * 8 < (il * 8 - i5 * 8).natAbs * 7500000 * 4 →
    ∃ t : Dev, exec (.impQualify p) ⟨d, rest⟩ = .next ⟨t, rest⟩ ∧ (t.SG p).t0 = none ∧ (t.SG p).qualified = false ∧
    t.regs = d.regs) ∧
  (∀ (d : Dev) (rest : List Instr) (p : Fin 4) (k : Nat), (d.SG p).t0 = some k → (d.SG p).qualified = true → d.lowPower = false →
    k + 8000000 ≤ d.now → exec (.impMeasureEnd p) ⟨d, rest⟩ = .next ⟨d.impEnd p true, rest⟩) ∧
  (∀ (d : Dev) (rest : List Instr) (p : Fin 4) (k : Nat) (di rs : Word) (x sh : Nat), (d.SG p).t0 = some k →
    (d.SG p).qualified = true → d.lowPower = false → k + 8000000 ≤ d.now →
    di = fSub (d.meanAmps p (d.SG p).i5 8) (d.meanAmps p (d.SG p).iPre 16) →
    rs = fDiv (fSub (meanVolts (d.SG p).vPre 16) (meanVolts (d.SG p).v5 8)) di → x = d.rd (SG_RSER_L.VAL p) →
    sh = d.rd (SG_IMP.IMP_SHIFT p) → impOk (microOhm rs) x = true → 0 ≤ impBlend (microOhm rs) x sh →
    impBlend (microOhm rs) x sh < 2 ^ 32 → ∃ t : Dev, exec (.impMeasureEnd p) ⟨d, rest⟩ = .next ⟨t, rest⟩ ∧
    (t.SG p).t0 = none ∧ (t.SG p).qualified = false ∧ (t.rd (SG_RSER_L.VAL p) : Int) = impBlend (microOhm rs) x sh ∧
    t.rd (SG_STATUS.VOID p) = 0 ∧ (t.rd (SG_EVT.EVT p)).testBit 5 = true ∧
    t.rd (SG_GEN.GEN p) = (d.rd (SG_GEN.GEN p) + 1) % 2 ^ (SG_GEN.GEN p).len) ∧
  (∀ (d : Dev) (rest : List Instr) (p : Fin 4) (k : Nat) (di rs : Word) (a1 a10 : Int) (b1 b10 : Nat) (d1 d10 g11 g12 g21 g22 det : Word) (m1 m2 : Int) (sh : Nat), (d.SG p).t0 = some k →
    (d.SG p).qualified = true → d.lowPower = false → k + 8000000 ≤ d.now →
    di = fSub (d.meanAmps p (d.SG p).i5 8) (d.meanAmps p (d.SG p).iPre 16) →
    rs = fDiv (fSub (meanVolts (d.SG p).vPre 16) (meanVolts (d.SG p).v5 8)) di → d.histSum p 16 (k + 800000) = (a1, b1, 16) →
    d.histSum p 16 (k + 8000000) = (a10, b10, 16) →
    d1 = fSub (fDiv (fSub (meanVolts (d.SG p).vPre 16) (meanVolts b1 16)) di) rs →
    d10 = fSub (fDiv (fSub (meanVolts (d.SG p).vPre 16) (meanVolts b10 16)) di) rs →
    g11 = fSub (fInt 1) (fExpNeg 1000 (d.rd (SG_TPOL.TPOL1 p) * 10)) →
    g12 = fSub (fInt 1) (fExpNeg 1000 (d.rd (SG_TPOL.TPOL2 p) * 1000)) →
    g21 = fSub (fInt 1) (fExpNeg 10000 (d.rd (SG_TPOL.TPOL1 p) * 10)) →
    g22 = fSub (fInt 1) (fExpNeg 10000 (d.rd (SG_TPOL.TPOL2 p) * 1000)) → det = fSub (fMul g11 g22) (fMul g12 g21) →
    m1 = microOhm (fDiv (fSub (fMul d1 g22) (fMul d10 g12)) det) →
    m2 = microOhm (fDiv (fSub (fMul g11 d10) (fMul g21 d1)) det) → sh = d.rd (SG_IMP.IMP_SHIFT p) →
    impOk m1 (d.rd (SG_RPOL1_L.VAL p)) = true → impOk m2 (d.rd (SG_RPOL2_L.VAL p)) = true →
    0 ≤ impBlend m1 (d.rd (SG_RPOL1_L.VAL p)) sh → impBlend m1 (d.rd (SG_RPOL1_L.VAL p)) sh < 2 ^ 32 →
    0 ≤ impBlend m2 (d.rd (SG_RPOL2_L.VAL p)) sh → impBlend m2 (d.rd (SG_RPOL2_L.VAL p)) sh < 2 ^ 32 → ∃ t : Dev,
    exec (.impMeasureEnd p) ⟨d, rest⟩ = .next ⟨t, rest⟩ ∧ (t.SG p).t0 = none ∧ (t.SG p).qualified = false ∧
    (t.rd (SG_RPOL1_L.VAL p) : Int) = impBlend m1 (d.rd (SG_RPOL1_L.VAL p)) sh ∧
    (t.rd (SG_RPOL2_L.VAL p) : Int) = impBlend m2 (d.rd (SG_RPOL2_L.VAL p)) sh ∧ t.rd (SG_STATUS.VOID p) = 0 ∧
    (t.rd (SG_EVT.EVT p)).testBit 5 = true ∧ t.rd (SG_GEN.GEN p) = (d.rd (SG_GEN.GEN p) + 1) % 2 ^ (SG_GEN.GEN p).len) ∧
  (∀ (d : Dev) (rest : List Instr) (p : Fin 4) (k : Nat) (di rs : Word) (a1 a10 : Int) (b1 b10 : Nat) (d1 d10 g11 g12 g21 g22 det : Word) (m1 m2 : Int), (d.SG p).t0 = some k →
    (d.SG p).qualified = true → d.lowPower = false → k + 8000000 ≤ d.now →
    di = fSub (d.meanAmps p (d.SG p).i5 8) (d.meanAmps p (d.SG p).iPre 16) →
    rs = fDiv (fSub (meanVolts (d.SG p).vPre 16) (meanVolts (d.SG p).v5 8)) di → d.histSum p 16 (k + 800000) = (a1, b1, 16) →
    d.histSum p 16 (k + 8000000) = (a10, b10, 16) →
    d1 = fSub (fDiv (fSub (meanVolts (d.SG p).vPre 16) (meanVolts b1 16)) di) rs →
    d10 = fSub (fDiv (fSub (meanVolts (d.SG p).vPre 16) (meanVolts b10 16)) di) rs →
    g11 = fSub (fInt 1) (fExpNeg 1000 (d.rd (SG_TPOL.TPOL1 p) * 10)) →
    g12 = fSub (fInt 1) (fExpNeg 1000 (d.rd (SG_TPOL.TPOL2 p) * 1000)) →
    g21 = fSub (fInt 1) (fExpNeg 10000 (d.rd (SG_TPOL.TPOL1 p) * 10)) →
    g22 = fSub (fInt 1) (fExpNeg 10000 (d.rd (SG_TPOL.TPOL2 p) * 1000)) → det = fSub (fMul g11 g22) (fMul g12 g21) →
    m1 = microOhm (fDiv (fSub (fMul d1 g22) (fMul d10 g12)) det) →
    m2 = microOhm (fDiv (fSub (fMul g11 d10) (fMul g21 d1)) det) →
    (impOk m1 (d.rd (SG_RPOL1_L.VAL p)) = false ∨ impOk m2 (d.rd (SG_RPOL2_L.VAL p)) = false) → ∃ t : Dev,
    exec (.impMeasureEnd p) ⟨d, rest⟩ = .next ⟨t, rest⟩ ∧ (t.SG p).t0 = none ∧ (t.SG p).qualified = false ∧
    t.rd (SG_RPOL1_L.VAL p) = d.rd (SG_RPOL1_L.VAL p) ∧ t.rd (SG_RPOL2_L.VAL p) = d.rd (SG_RPOL2_L.VAL p) ∧
    (d.rd (SG_CNT.IMP_REJ p) < 255 → d.rd (SG_CNT.IMP_REJ p) < t.rd (SG_CNT.IMP_REJ p)) ∧ t.Reports 0x50 p)

/-- The protected memories. The scrubber reads one granule a visit; initialisation and a copy end; the raw window acts on an offline
bank; MEM_TAKE takes a bank offline in FACTORY. Each clause concludes that exec answers a next state, from premises on the state
and the operands alone. Completion is so stated for: memTake, initDone, memRawRead, memRawWrite, scrubVisit, bankCopyDone.
(R438, R440, R441, R442) -/
def Obligations.MemoryCommands : Prop :=
  (∀ (d : Dev) (rest : List Instr) (a : Agent) (b : BitVec 12), d.clk.hub = true → d.md = Md.factory →
    allBanks.contains b.toNat = true → exec (.memTake a b) ⟨d, rest⟩ = .next ⟨d.fenceBank b.toNat b.toNat, rest⟩) ∧
  (∀ (d : Dev) (rest : List Instr) (a : Agent) (b : BitVec 12), d.clk.hub = true → d.md = Md.factory →
    allBanks.contains b.toNat = true → b.toNat < 0x90 → ∃ t : Dev, exec (.memTake a b) ⟨d, rest⟩ = .next ⟨t, rest⟩ ∧
    t.bankOff b.toNat = true ∧ t.md = Md.factory) ∧
  (∀ (d : Dev) (rest : List Instr) (a : Agent) (b : BitVec 12), d.clk.hub = true → d.md ≠ Md.factory →
    d.on DEV_WIGN.SET = false → ∃ t : Dev, exec (.memTake a b) ⟨d, rest⟩ = .next ⟨t, rest⟩ ∧ t.rd DEV_WIGN.SET = 1 ∧
    t.rd DEV_WIGN.REASON = 1 ∧ t.rd DEV_WIGN_AGENT.AGENT = a.toNat ∧ t.mem = d.mem) ∧
  (∀ (d : Dev) (rest : List Instr) (a : Agent) (b : BitVec 12), d.clk.hub = true → d.md ≠ Md.factory →
    exec (.memTake a b) ⟨d, rest⟩ = .next ⟨d.wign a.toNat 0x1324 1, rest⟩) ∧
  (∀ (d : Dev) (rest : List Instr) (bad : List Nat) (b : Nat) (a : Agent) (x : ReadAt), d.clk.hub = true →
    d.on MEM_STATUS.SB_INIT_DONE = true → d.mem.init = [b] → b < 160 → bad.contains b = false → d.mode.pendingCfg = false →
    d.mem.stall = [.registerReadClear a x] → inWindow x.off.toNat = true → viaBar a.toNat = true → x.len = 4 →
    x.off.toNat % 4 = 0 → (windowBank x.off.toNat).1 = b → d.granErr b ((windowBank x.off.toNat).2 / 8) = 0 → ∃ t : Dev,
    exec (.initDone bad) ⟨d, rest⟩ = .next ⟨t, rest⟩ ∧ t.mem.init = [] ∧ t.mem.stall = [] ∧
    nget t.host.rdata a.toNat = d.granStored b ((windowBank x.off.toNat).2 / 8) / 256 ^ ((windowBank x.off.toNat).2 % 8) % 2 ^ 32) ∧
  (∀ (d : Dev) (rest : List Instr) (a : Agent) (b g : Nat), d.clk.hub = true → b = d.rd MEM_RAW_ADDR.BANK →
    g = d.rd MEM_RAW_ADDR.GRAN → d.bankOff b = true → 8 * g < bankSize b → ∃ t : Dev,
    exec (.memRawRead a) ⟨d, rest⟩ = .next ⟨t, rest⟩ ∧ t.rd MEM_RAW_DLO.DLO = d.granStored b g % 2 ^ 32 ∧
    t.rd MEM_RAW_DHI.DHI = d.granStored b g / 2 ^ 32 % 2 ^ 32 ∧ t.rd MEM_RAW_STAT.SYN_ROW = (syndromes (d.granErr b g)).1 ∧
    t.rd MEM_RAW_STAT.SYN_COL = (syndromes (d.granErr b g)).2 ∧
    t.rd MEM_RAW_STAT.DECODE = (decodeSyn (syndromes (d.granErr b g))).code ∧ t.rd MEM_RAW_STAT.DONE = 1 ∧
    t.rd MEM_RAW_STAT.REFUSED = 0) ∧
  (∀ (d : Dev) (rest : List Instr) (a : Agent) (b g : Nat), d.clk.hub = true → b = d.rd MEM_RAW_ADDR.BANK →
    g = d.rd MEM_RAW_ADDR.GRAN → d.bankOff b = true → 8 * g < bankSize b → bankTables b = [] → ∃ t : Dev,
    exec (.memRawWrite a) ⟨d, rest⟩ = .next ⟨t, rest⟩ ∧
    t.granStored b g = d.rd MEM_RAW_DHI.DHI * 2 ^ 32 + d.rd MEM_RAW_DLO.DLO ∧ t.rd MEM_RAW_STAT.DONE = 1 ∧
    t.rd MEM_RAW_STAT.REFUSED = 0) ∧
  (∀ (d : Dev) (rest : List Instr) (a : Agent), d.clk.hub = true → d.rawOk = false → ∃ t : Dev,
    exec (.memRawWrite a) ⟨d, rest⟩ = .next ⟨t, rest⟩ ∧ t.rd MEM_RAW_STAT.REFUSED = 1 ∧ t.rd MEM_RAW_STAT.DONE = 1 ∧
    t.mem = d.mem) ∧
  (∀ (d : Dev) (rest : List Instr) (r : Fin 6) (b g m : Nat), d.on MEM_CFG.SCRUB_EN = true → d.clk.hub = true →
    d.clk.rootLost = false → d.mem.init = [] → (m = ((scrubBanks r).map fun b => bankSize b / 8).sum) →
    nget d.mem.scrub r + 1 < m → nget d.mem.scrubAt r + nget d.mem.scrub r * d.scrubPeriod / m ≤ d.now →
    granAt (scrubBanks r) (nget d.mem.scrub r) = some (b, g) → d.bankOff b = false →
    exec (.scrubVisit r) ⟨d, rest⟩ = .next ⟨(let e := (d.readGran b g 0x34 7).1; { e with mem := { e.mem with scrub := nput e.mem.scrub r (nget d.mem.scrub r + 1) } }), rest⟩) ∧
  (∀ (d : Dev) (rest : List Instr) (r : Fin 6) (b g m : Nat), d.on MEM_CFG.SCRUB_EN = true → d.clk.hub = true →
    d.clk.rootLost = false → d.mem.init = [] → (m = ((scrubBanks r).map fun b => bankSize b / 8).sum) →
    nget d.mem.scrub r + 1 < m → nget d.mem.scrubAt r + nget d.mem.scrub r * d.scrubPeriod / m ≤ d.now →
    granAt (scrubBanks r) (nget d.mem.scrub r) = some (b, g) → bankPartner b = none → d.bankOff b = false → d.granErr b g = 0 →
    ∃ t : Dev, exec (.scrubVisit r) ⟨d, rest⟩ = .next ⟨t, rest⟩ ∧ nget t.mem.scrub r = nget d.mem.scrub r + 1 ∧
    t.regs = d.regs ∧ t.flt = d.flt ∧ t.mem.err = d.mem.err) ∧
  (∀ (d : Dev) (rest : List Instr) (r : Fin 6) (b g m j : Nat), d.on MEM_CFG.SCRUB_EN = true → d.clk.hub = true →
    d.clk.rootLost = false → d.mem.init = [] → (m = ((scrubBanks r).map fun b => bankSize b / 8).sum) →
    nget d.mem.scrub r + 1 < m → nget d.mem.scrubAt r + nget d.mem.scrub r * d.scrubPeriod / m ≤ d.now →
    granAt (scrubBanks r) (nget d.mem.scrub r) = some (b, g) → bankPartner b = none → d.bankOff b = false → j < 80 →
    d.granErr b g = BitVec.ofNat 80 (2 ^ j) → ∃ t : Dev, exec (.scrubVisit r) ⟨d, rest⟩ = .next ⟨t, rest⟩ ∧
    nget t.mem.scrub r = nget d.mem.scrub r + 1 ∧ t.granErr b g = 0 ∧ (t.rd MEM_EVT.EVT).testBit 0 = true ∧ t.Reports 0x60 b) ∧
  (∀ (d : Dev) (rest : List Instr) (r : Fin 6) (b g m : Nat), d.on MEM_CFG.SCRUB_EN = true → d.clk.hub = true →
    d.clk.rootLost = false → d.mem.init = [] → (m = ((scrubBanks r).map fun b => bankSize b / 8).sum) →
    nget d.mem.scrub r + 1 < m → nget d.mem.scrubAt r + nget d.mem.scrub r * d.scrubPeriod / m ≤ d.now →
    granAt (scrubBanks r) (nget d.mem.scrub r) = some (b, g) → bankPartner b = none → d.bankOff b = false →
    d.decoded b g = none → ∃ t : Dev, exec (.scrubVisit r) ⟨d, rest⟩ = .next ⟨t, rest⟩ ∧ t.bankOff b = true ∧ t.Reports 0x61 b) ∧
  (∀ (d : Dev) (rest : List Instr) (r : Fin 6) (b g m : Nat), d.on MEM_CFG.SCRUB_EN = true → d.clk.hub = true →
    d.clk.rootLost = false → d.mem.init = [] → (m = ((scrubBanks r).map fun b => bankSize b / 8).sum) →
    nget d.mem.scrub r + 1 < m → nget d.mem.scrubAt r + nget d.mem.scrub r * d.scrubPeriod / m ≤ d.now →
    granAt (scrubBanks r) (nget d.mem.scrub r) = some (b, g) → bankPartner b = none → d.bankOff b = true → ∃ t : Dev,
    exec (.scrubVisit r) ⟨d, rest⟩ = .next ⟨t, rest⟩ ∧ nget t.mem.scrub r = nget d.mem.scrub r + 1 ∧ t.regs = d.regs ∧
    t.mem.err = d.mem.err) ∧
  (∀ (d : Dev) (rest : List Instr) (bad : List Nat) (b : Nat), d.on MEM_STATUS.SB_INIT_DONE = true → d.mem.init = [b] → b < 160 →
    bad.contains b = false → d.mode.pendingCfg = false → d.mem.stall = [] → ∃ t : Dev,
    exec (.initDone bad) ⟨d, rest⟩ = .next ⟨t, rest⟩ ∧ t.rd MEM_STATUS.INIT_DONE = 1 ∧ t.rd MEM_STATUS.INIT_LEFT = 0 ∧
    t.mem.init = [] ∧ t.bankOff b = false ∧ (t.rd MEM_EVT.EVT).testBit 3 = true) ∧
  (∀ (d : Dev) (rest : List Instr) (bad : List Nat) (b : Nat), d.on MEM_STATUS.SB_INIT_DONE = true → d.mem.init = [b] → b < 160 →
    bad.contains b = true → d.mode.pendingCfg = false → d.mem.stall = [] → ∃ t : Dev,
    exec (.initDone bad) ⟨d, rest⟩ = .next ⟨t, rest⟩ ∧ t.rd MEM_STATUS.INIT_DONE = 1 ∧ t.bankOff b = true ∧ t.Reports 0x61 b) ∧
  (∀ (d : Dev) (rest : List Instr) (b : BitVec 12) (p : Nat), bankPartner b.toNat = some p →
    d.mem.copying.contains b.toNat = true → ∃ t : Dev, exec (.bankCopyDone b) ⟨d, rest⟩ = .next ⟨t, rest⟩ ∧
    t.bankOff b.toNat = false ∧ t.mem.copying = d.mem.copying.filter (· ≠ b.toNat) ∧
    (∀ g, g < 8 → t.granErr b.toNat g = d.granErr p g))

/-- The ring engine: fetching and retiring. The engine fetches the next descriptor in its turn, retires the oldest of a source once
it has completed, and halts a ring whose fetch fails. Each clause concludes that exec answers a next state, from premises on the
state and the operands alone. Completion is so stated for: descriptorFetch, descFetchTimeout, descFetchError, completionRetire.
(R319, R322, R325, R330) -/
def Obligations.RingCommands : Prop :=
  (∀ (d : Dev) (rest : List Instr) (k : Nat) (s : Src) (n : Nat) (b : List Byte), d.clk.hub = true → d.bmc.busy = false →
    d.fetchTurn = some (k, s, n) → (({ d with host := { d.host with rr := (k + 1) % 85 } } : Dev).readDesc s n).2 = some b →
    exec (.descriptorFetch) ⟨d, rest⟩ = .next ⟨((({ d with host := { d.host with rr := (k + 1) % 85 } } : Dev).readDesc s n).1).takeDesc s n b, rest⟩) ∧
  (∀ (d : Dev) (rest : List Instr) (k : Nat) (h : Fin 64) (n : Nat), d.clk.hub = true → d.bmc.busy = false →
    d.fetchTurn = some (k, .host h, n) →
    opcodes.contains (byteAt (d.hRd (d.rgBase n + 64 * ((d.RG n).fetched % d.rgSize n)) 64) 0) = true →
    byteAt (d.hRd (d.rgBase n + 64 * ((d.RG n).fetched % d.rgSize n)) 64) 0 ≠ 2 → ∃ t : Dev,
    exec (.descriptorFetch) ⟨d, rest⟩ = .next ⟨t, rest⟩ ∧ t.host.out.length = d.host.out.length + 1 ∧
    (t.RG n).fetched = ((d.RG n).fetched + 1) % 2 ^ 32 ∧ t.host.rr = (k + 1) % 85 ∧ t.regs = d.regs) ∧
  (∀ (d : Dev) (rest : List Instr) (s : Src) (n : Nat), s.ring = some n → d.clk.hub = true → d.eligible n = true →
    closed d.now (d.RG n).fetchAt d.stallT = true → ∃ t : Dev, exec (.descFetchTimeout s) ⟨d, rest⟩ = .next ⟨t, rest⟩ ∧
    t.rgState n = Rg.halted ∧ (t.RG n).fetchAt = none ∧ t.Reports 0x71 s.ringCode) ∧
  (∀ (d : Dev) (rest : List Instr) (s : Src) (n : Nat), s.ring = some n → d.clk.hub = true → d.eligible n = true → ∃ t : Dev,
    exec (.descFetchError s) ⟨d, rest⟩ = .next ⟨t, rest⟩ ∧ t.rgState n = Rg.halted ∧ (t.RG n).fetchAt = none ∧
    t.Reports 0x71 s.ringCode) ∧
  (∀ (d : Dev) (rest : List Instr) (n : Fin 64) (x : Out) (st k : Nat), d.clk.hub = true → d.host.fences = [] →
    d.headOut (.host n) = some x → x.result = some (st, k) → x.drop = false → x.old = false →
    (x.d.sup = true → st ≠ St.success) → d.rgRoom (0x40 + d.rd (RG_CFG.CQ n)) = true → ∃ t : Dev,
    exec (.completionRetire (.host n)) ⟨d, rest⟩ = .next ⟨t, rest⟩ ∧ (t.host.out = d.host.out.filter fun y => y.id ≠ x.id) ∧
    t.rd (RG_CI.CI n) = (d.rd (RG_CI.CI n) + 1) % 2 ^ 32 ∧
    t.rd (RG_PI.PI (0x40 + d.rd (RG_CFG.CQ n))) = (d.rd (RG_PI.PI (0x40 + d.rd (RG_CFG.CQ n))) + 1) % 2 ^ 32) ∧
  (∀ (d : Dev) (rest : List Instr) (n : Fin 64) (x : Out) (k : Nat), d.clk.hub = true → d.host.fences = [] →
    d.headOut (.host n) = some x → x.result = some (St.success, k) → x.drop = false → x.old = false → x.d.sup = true →
    ∃ t : Dev, exec (.completionRetire (.host n)) ⟨d, rest⟩ = .next ⟨t, rest⟩ ∧
    (t.host.out = d.host.out.filter fun y => y.id ≠ x.id) ∧ t.rd (RG_CI.CI n) = (d.rd (RG_CI.CI n) + 1) % 2 ^ 32 ∧
    t.rd (RG_PI.PI (0x40 + d.rd (RG_CFG.CQ n))) = d.rd (RG_PI.PI (0x40 + d.rd (RG_CFG.CQ n))))

/-- Ring enables, doorbells, event records, moderation and the result queue. A valid ring becomes ACTIVE with both indices 0;
doorbells move the indices they name; waiting records are written, vectors raised at the end of their window, and stalls
reported. A forwarded entry reaches each claimed segment; the pull owner takes the head entry; an open record is flushed after
800 ticks. Each clause concludes that exec answers a next state, from premises on the state and the operands alone. Completion
is so stated for: ringEnable, ringDisable, ringDrained, doorbellCommand, doorbellCompletion, doorbellEvent, doorbellArchive,
doorbellThread, irDb, eventRecordWrite, itrWindowClose, ringStall, hostLinkDown, threadDataFlush, rqEntry, rqPop. (R216, R316,
R317, R318, R328, R329, R330, R331, R342, R343, R344, R348) -/
def Obligations.RingControl : Prop :=
  (∀ (d : Dev) (rest : List Instr) (a : Agent) (n : Fin 384), d.clk.hub = true → d.rgState n = Rg.disabled → d.rgValid n = true →
    n.val < 0x80 → ∃ t : Dev, exec (.ringEnable a n) ⟨d, rest⟩ = .next ⟨t, rest⟩ ∧ t.rgState n = Rg.active ∧
    t.rd (RG_CFG.EN n) = 1 ∧ t.rd (RG_PI.PI n) = 0 ∧ t.rd (RG_CI.CI n) = 0 ∧ (t.RG n).fetched = 0) ∧
  (∀ (d : Dev) (rest : List Instr) (a : Agent) (n : Fin 384), d.clk.hub = true → d.on (RG_CFG.EN n) = true → n.val < 0x40 →
    d.rgState n = Rg.active → ∃ t : Dev, exec (.ringDisable a n) ⟨d, rest⟩ = .next ⟨t, rest⟩ ∧ t.rgState n = Rg.draining ∧
    t.rd (RG_CFG.EN n) = 0) ∧
  (∀ (d : Dev) (rest : List Instr) (a : Agent) (n : Fin 384), d.clk.hub = true → d.on (RG_CFG.EN n) = true → 0x80 ≤ n.val →
    d.rgState n = Rg.active → ∃ t : Dev, exec (.ringDisable a n) ⟨d, rest⟩ = .next ⟨t, rest⟩ ∧ t.rgState n = Rg.disabled ∧
    t.rd (RG_CFG.EN n) = 0) ∧
  (∀ (d : Dev) (rest : List Instr) (n : Fin 64), d.clk.hub = true → d.rgState n = Rg.draining → d.headOut (.host n) = none →
    ∃ t : Dev, exec (.ringDrained n) ⟨d, rest⟩ = .next ⟨t, rest⟩ ∧ t.rgState n = Rg.disabled ∧
    (∀ o, o ≠ (RG_STATUS.STATE n).off → t.word o = d.word o)) ∧
  (∀ (d : Dev) (rest : List Instr) (w : Doorbell), d.clk.hub = true → w.ok = true → w.ring < 0x40 →
    d.rgState w.ring = Rg.active → d.rgFill w.ring + ahead w.index (d.rd (RG_PI.PI w.ring)) ≤ d.rgSize w.ring → ∃ t : Dev,
    exec (.doorbellCommand w) ⟨d, rest⟩ = .next ⟨t, rest⟩ ∧ t.rd (RG_PI.PI w.ring) = w.index ∧
    (∀ o, o ≠ (RG_PI.PI w.ring).off → t.word o = d.word o)) ∧
  (∀ (d : Dev) (rest : List Instr) (w : Doorbell), d.clk.hub = true → w.ok = false →
    exec (.doorbellCommand w) ⟨d, rest⟩ = .next ⟨d.dbDrop w, rest⟩) ∧
  (∀ (d : Dev) (rest : List Instr) (w : Doorbell), d.clk.hub = true → w.ok = true → 0x40 ≤ w.ring → w.ring < 0x80 →
    d.rgState w.ring = Rg.active → ahead w.index (d.rd (RG_CI.CI w.ring)) ≤ d.rgFill w.ring → ∃ t : Dev,
    exec (.doorbellCompletion w) ⟨d, rest⟩ = .next ⟨t, rest⟩ ∧ t.rd (RG_CI.CI w.ring) = w.index ∧
    (∀ o, o ≠ (RG_CI.CI w.ring).off → t.word o = d.word o)) ∧
  (∀ (d : Dev) (rest : List Instr) (w : Doorbell), d.clk.hub = true → w.ok = true → 0x80 ≤ w.ring → w.ring < 0x180 →
    d.rgState w.ring = Rg.active → ahead w.index (d.rd (RG_CI.CI w.ring)) ≤ d.rgFill w.ring → ∃ t : Dev,
    exec (.doorbellEvent w) ⟨d, rest⟩ = .next ⟨t, rest⟩ ∧ t.rd (RG_CI.CI w.ring) = w.index ∧
    (∀ o, o ≠ (RG_CI.CI w.ring).off → t.word o = d.word o)) ∧
  (∀ (d : Dev) (rest : List Instr) (w : Doorbell), d.clk.hub = true → w.ok = true → w.ring = 0x180 →
    ahead w.index d.host.ret ≤ d.host.rep.length → d.host.pool.length + d.host.rep.length < 65536 → ∃ t : Dev,
    exec (.doorbellArchive w) ⟨d, rest⟩ = .next ⟨t, rest⟩ ∧
    t.host.pool = d.host.pool ++ d.host.rep.take (ahead w.index d.host.ret) ∧
    t.host.rep = d.host.rep.drop (ahead w.index d.host.ret) ∧ t.host.ret = w.index) ∧
  (∀ (d : Dev) (rest : List Instr) (w : Doorbell) (k : Nat), d.clk.hub = true → w.ok = true → 0x1000 ≤ w.ring →
    k = w.ring - 0x1000 → d.mode.archMode = true → d.tState k ≠ 0 → d.tDest k = 1 →
    ((d.T k).rd + ahead w.index ((d.T k).rd % 2 ^ 32)) * 0x10000 ≤ (d.T k).wr → ∃ t : Dev,
    exec (.doorbellThread w) ⟨d, rest⟩ = .next ⟨t, rest⟩ ∧ (t.T k).rd = (d.T k).rd + ahead w.index ((d.T k).rd % 2 ^ 32) ∧
    t.regs = d.regs) ∧
  (∀ (d : Dev) (rest : List Instr) (a : Agent) (c : Fin 21) (v : Word), d.clk.hub = true → d.rgState (0x2C0 + c) = Rg.active →
    d.rgFill (0x2C0 + c) + ahead v.toNat (d.rd (RG_PI.PI (0x2C0 + c))) ≤ d.rgSize (0x2C0 + c) → ∃ t : Dev,
    exec (.irDb a c v) ⟨d, rest⟩ = .next ⟨t, rest⟩ ∧ t.rd (RG_PI.PI (0x2C0 + c)) = v.toNat ∧ (t.RG (0x2E0 + c)).itrN = 0) ∧
  (∀ (d : Dev) (rest : List Instr) (e : Fin 256) (b : List Byte) (l : List (List Byte)), d.clk.hub = true →
    d.rgRoom (evRing e) = true → (d.RG (evRing e)).held = b :: l → isMarker b = false → ∃ t : Dev,
    exec (.eventRecordWrite e) ⟨d, rest⟩ = .next ⟨t, rest⟩ ∧ (t.RG (evRing e)).held = l ∧
    t.rd (RG_PI.PI (evRing e)) = (d.rd (RG_PI.PI (evRing e)) + 1) % 2 ^ 32) ∧
  (∀ (d : Dev) (rest : List Instr) (n : Fin 384), d.clk.hub = true → 0x40 ≤ n.val →
    closed d.now (d.RG n).itrAt (8 * d.rd (RG_ITR.ITR_TIME n)) = true → d.vecMasked (d.rd (RG_CFG.VECTOR n)) = false →
    ∃ t : Dev, exec (.itrWindowClose n) ⟨d, rest⟩ = .next ⟨t, rest⟩ ∧ t.host.msix = d.rd (RG_CFG.VECTOR n) :: d.host.msix ∧
    (t.RG n).itrN = 0 ∧ (t.RG n).itrAt = none ∧ t.regs = d.regs) ∧
  (∀ (d : Dev) (rest : List Instr) (n : Fin 384), d.clk.hub = true → 0x40 ≤ n.val → d.rgState n = Rg.active →
    closed d.now (d.RG n).fullAt d.stallT = true → ∃ t : Dev, exec (.ringStall n) ⟨d, rest⟩ = .next ⟨t, rest⟩ ∧
    (t.RG n).fullAt = none ∧ t.Reports 0x72 n ∧ t.regs = d.regs) ∧
  (∀ (d : Dev) (rest : List Instr), d.clk.hub = true → ∃ t : Dev, exec (.hostLinkDown) ⟨d, rest⟩ = .next ⟨t, rest⟩ ∧
    (∀ n, n < 0x180 → t.rgState n = Rg.disabled) ∧ (t.rd HOST_EVT.EVT).testBit 1 = true ∧ t.Reports 0x73 0) ∧
  (∀ (d : Dev) (rest : List Instr) (k : Fin 4096), d.clk.hub = true → (d.T k).data ≠ [] → (d.T k).dataAt + 800 ≤ d.now →
    exec (.threadDataFlush k) ⟨d, rest⟩ = .next ⟨d.dataOut k, rest⟩) ∧
  (∀ (d : Dev) (rest : List Instr) (k : Fin 4096) (es : List Entry) (n : Nat), d.clk.hub = true → es = (d.T k).data → es ≠ [] →
    (d.T k).dataAt + 800 ≤ d.now → n = evRing (d.tRing k) → d.rgRoom n = true → (d.RG n).held = [] → ∃ t : Dev,
    exec (.threadDataFlush k) ⟨d, rest⟩ = .next ⟨t, rest⟩ ∧ (t.T k).data = [] ∧
    t.rd (RG_PI.PI n) = (d.rd (RG_PI.PI n) + 1) % 2 ^ (RG_PI.PI n).len ∧
    (t.hRd (d.rgBase n + 32 * (d.rd (RG_PI.PI n) % d.rgSize n)) 32 = (leBytes 0x0020 2 ++ leBytes es.length 1 ++ [0] ++ leBytes k 2 ++ [0, 0] ++ ((es.flatMap fun e => leBytes (entryWord e) 8) ++ List.replicate (24 - 8 * es.length) 0))) ∧
    t.rd (CTX.DROP k) = d.rd (CTX.DROP k)) ∧
  (∀ (d : Dev) (rest : List Instr) (k : Fin 4096) (es : List Entry) (n : Nat), d.clk.hub = true → es = (d.T k).data → es ≠ [] →
    (d.T k).dataAt + 800 ≤ d.now → n = evRing (d.tRing k) → d.rgState n ≠ Rg.active → d.mem.err = [] →
    d.bankGone 0x80 = false → ∃ t : Dev, exec (.threadDataFlush k) ⟨d, rest⟩ = .next ⟨t, rest⟩ ∧ (t.T k).data = [] ∧
    t.rd (CTX.DROP k) = satAdd (2 ^ (CTX.DROP k).len - 1) (d.rd (CTX.DROP k)) es.length) ∧
  (∀ (d : Dev) (rest : List Instr) (e : Entry), d.clk.hub = true → d.host.fwd.contains e = true → d.tagFirst e = true →
    d.markerDue = false → d.openThreads = [] → ∃ t : Dev, exec (.rqEntry e) ⟨d, rest⟩ = .next ⟨t, rest⟩ ∧
    t.host.fwd = dropEntry e d.host.fwd ∧ t.rq = d.rq ∧ t.regs = d.regs) ∧
  (∀ (d : Dev) (rest : List Instr) (e : Entry) (s k : Nat), d.clk.hub = true → d.host.fwd.contains e = true →
    d.tagFirst e = true → d.markerDue = false → s < 16 → k < 4096 → (d.tState k = 1 ∨ d.tState k = 2 ∨ d.tState k = 3) →
    (d.T k).closing = none → d.tSeg k = s → d.tTakes k e = true → d.heldAs 3 s 2 = true → d.bankOff (0x70 + s) = false →
    (((List.range 16).all fun j => !d.heldAs 3 j 1) = true) → (d.Q s).length < 4096 → ∃ t : Dev,
    exec (.rqEntry e) ⟨d, rest⟩ = .next ⟨t, rest⟩ ∧ t.Q s = d.Q s ++ [e] ∧ t.rd (RQ_STATUS.FILL s) = (d.Q s).length + 1 ∧
    t.rd (RQ_STATUS.DROP s) = d.rd (RQ_STATUS.DROP s) ∧ t.host.fwd = dropEntry e d.host.fwd ∧ t.thr = d.thr) ∧
  (∀ (d : Dev) (rest : List Instr) (e : Entry) (s k : Nat), d.clk.hub = true → d.host.fwd.contains e = true →
    d.tagFirst e = true → d.markerDue = false → s < 16 → k < 4096 → (d.tState k = 1 ∨ d.tState k = 2 ∨ d.tState k = 3) →
    (d.T k).closing = none → d.tSeg k = s → d.tTakes k e = true → d.heldAs 3 s 2 = true → d.bankOff (0x70 + s) = false →
    (((List.range 16).all fun j => !d.heldAs 3 j 1) = true) → 4096 ≤ (d.Q s).length → ∃ t : Dev,
    exec (.rqEntry e) ⟨d, rest⟩ = .next ⟨t, rest⟩ ∧ t.Q s = d.Q s ∧
    t.rd (RQ_STATUS.DROP s) = satAdd 65535 (d.rd (RQ_STATUS.DROP s)) 1 ∧ t.rd (RQ_STATUS.FILL s) = d.rd (RQ_STATUS.FILL s) ∧
    t.host.fwd = dropEntry e d.host.fwd ∧ t.thr = d.thr) ∧
  (∀ (d : Dev) (rest : List Instr) (e : Entry) (s k : Nat), d.clk.hub = true → d.host.fwd.contains e = true →
    d.tagFirst e = true → d.markerDue = false → s < 16 → k < 4096 → (d.tState k = 1 ∨ d.tState k = 2 ∨ d.tState k = 3) →
    (d.T k).closing = none → d.tSeg k = s → d.tTakes k e = true → d.heldAs 3 s 1 = true → d.bankOff (0x70 + s) = false →
    d.openThreads = [k] → d.tFilter k = 0 → d.tDest k = 0 → d.mem.err = [] → d.bankGone 0x80 = false →
    d.now < (d.T k).dataAt + 800 → (d.T k).data.length < 2 → ∃ t : Dev, exec (.rqEntry e) ⟨d, rest⟩ = .next ⟨t, rest⟩ ∧
    (t.T k).data = (d.T k).data ++ [e] ∧
    t.rd (CTX.PRODUCED k) = satAdd (2 ^ (CTX.PRODUCED k).len - 1) (d.rd (CTX.PRODUCED k)) 1 ∧
    t.rd (CTX.LAST k) = e.stamp % 2 ^ (CTX.LAST k).len ∧ t.rq = d.rq ∧ t.host.fwd = dropEntry e d.host.fwd) ∧
  (∀ (d : Dev) (rest : List Instr) (a : Agent) (k : Fin 16) (e : Entry) (l : List Entry), d.clk.hub = true → d.mem.err = [] →
    d.Q k = e :: l → d.owns 3 k a.toNat 2 = true → d.segServed k = true → ∃ t : Dev,
    exec (.rqPop a k) ⟨d, rest⟩ = .next ⟨t, rest⟩ ∧ t.Q k = l ∧ nget t.host.rdata a.toNat = entryWord e % 2 ^ 32 ∧
    nget t.rqHi (256 * k + a.toNat) = entryWord e / 2 ^ 32) ∧
  (∀ (d : Dev) (rest : List Instr) (a : Agent) (k : Fin 16), d.clk.hub = true → (d.Q k = [] ∨ d.owns 3 k a.toNat 2 = false) →
    exec (.rqPop a k) ⟨d, rest⟩ = .next ⟨d.answer a.toNat 0x0FFF0000, rest⟩)

/-- Reads and writes of registers by an agent. A read answers the word and then clears what a read clears; a write stores by the
access codes, and one that its gate refuses, that is not whole, or that names a fixed register, changes nothing else. Each
clause concludes that exec answers a next state, from premises on the state and the operands alone. Completion is so stated for:
registerReadClear, registerWrite. (R449, R450, R4) -/
def Obligations.RegisterAccess : Prop :=
  (∀ (d : Dev) (rest : List Instr) (a : Agent) (p : ReadAt) (n x : Nat) (r : RegRow), n = a.toNat → x = p.off.toNat →
    d.clk.hub = true → p.len = 4 → (enables p.enable 0).any id = true → inWindow x = false → x % 4 = 0 → inSpan x = true →
    d.regOut n x false = false → rowOf x = some r → tablePlace x = none → ¬ (0x1C00 ≤ x ∧ x < 0x1E00 ∧ x % 32 = 4) → r.rc = 0 →
    ∃ t : Dev, exec (.registerReadClear a p) ⟨d, rest⟩ = .next ⟨t, rest⟩ ∧ nget t.host.rdata n = d.liveWord n x ∧
    t.regs = d.regs ∧ t.flt = d.flt) ∧
  (∀ (d : Dev) (rest : List Instr) (a : Agent) (p : ReadAt) (n x : Nat) (r : RegRow), n = a.toNat → x = p.off.toNat →
    d.clk.hub = true → p.len = 4 → (enables p.enable 0).any id = true → inWindow x = false → x % 4 = 0 → inSpan x = true →
    d.regOut n x false = false → rowOf x = some r → tablePlace x = none → ¬ (0x1C00 ≤ x ∧ x < 0x1E00 ∧ x % 32 = 4) → r.rc ≠ 0 →
    d.hwRec x = none → ((d.hw.reads.find? fun y => y.1 == x) = none) → ∃ t : Dev,
    exec (.registerReadClear a p) ⟨d, rest⟩ = .next ⟨t, rest⟩ ∧ t.word x = d.word x &&& ~~~r.rc ∧
    nget t.host.rdata n = d.liveWord n x ∧ (∀ o, o ≠ x → t.word o = d.word o)) ∧
  (∀ (d : Dev) (rest : List Instr) (a : Agent) (p : ReadAt) (n x : Nat) (r : RegRow) (m : Nat) (b : Word), n = a.toNat →
    x = p.off.toNat → d.clk.hub = true → p.len = 4 → (enables p.enable 0).any id = true → inWindow x = false → x % 4 = 0 →
    inSpan x = true → d.regOut n x false = false → rowOf x = some r → tablePlace x = none →
    ¬ (0x1C00 ≤ x ∧ x < 0x1E00 ∧ x % 32 = 4) → r.rc ≠ 0 → d.hwRec x = none → d.hw.clock = d.hwClock →
    ((d.hw.reads.find? fun y => y.1 == x) = some (x, m, b)) → n < m → ∃ t : Dev,
    exec (.registerReadClear a p) ⟨d, rest⟩ = .next ⟨t, rest⟩ ∧ nget t.host.rdata n = d.liveWord n x ||| b.toNat ∧
    nget t.host.rdata m = nget d.host.rdata m &&& ((2 ^ 64 - 1) ^^^ b.toNat) ∧ t.word x = d.word x &&& ~~~r.rc) ∧
  (∀ (d : Dev) (rest : List Instr) (a : Agent) (p : ReadAt) (n x : Nat) (r : RegRow) (m : Nat) (b : Word), n = a.toNat →
    x = p.off.toNat → d.clk.hub = true → p.len = 4 → (enables p.enable 0).any id = true → inWindow x = false → x % 4 = 0 →
    inSpan x = true → d.regOut n x false = false → rowOf x = some r → tablePlace x = none →
    ¬ (0x1C00 ≤ x ∧ x < 0x1E00 ∧ x % 32 = 4) → r.rc ≠ 0 → d.hwRec x = none → d.hw.clock = d.hwClock →
    ((d.hw.reads.find? fun y => y.1 == x) = some (x, m, b)) → m ≤ n → ∃ t : Dev,
    exec (.registerReadClear a p) ⟨d, rest⟩ = .next ⟨t, rest⟩ ∧ nget t.host.rdata n = d.liveWord n x ∧
    t.word x = d.word x &&& ~~~r.rc) ∧
  (∀ (d : Dev) (rest : List Instr) (a : Agent) (p : ReadAt) (n x : Nat) (r u : RegRow), n = a.toNat → x = p.off.toNat →
    d.clk.hub = true → p.len = 8 → p.enable = [] → x % 8 = 0 → inWindow x = false → inSpan x = true → inSpan (x + 4) = true →
    d.regOut n x false = false → d.regOut n (x + 4) false = false → rowOf x = some r → rowOf (x + 4) = some u → r.rc = 0 →
    u.rc = 0 → tablePlace x = none → tablePlace (x + 4) = none → x ≠ 0x1108 → ¬ (0x1C00 ≤ x ∧ x < 0x1E00) → ∃ t : Dev,
    exec (.registerReadClear a p) ⟨d, rest⟩ = .next ⟨t, rest⟩ ∧
    nget t.host.rdata n = d.liveWord n x + 2 ^ 32 * d.liveWord n (x + 4) ∧ t.regs = d.regs) ∧
  (∀ (d : Dev) (rest : List Instr) (a : Agent) (p : ReadAt) (n x : Nat), n = a.toNat → x = p.off.toNat → d.clk.hub = true →
    p.len = 4 → (enables p.enable 0).any id = true → x % 4 = 0 → inSpan x = true → inWindow x = false →
    d.regOut n x false = true → d.stalls x = false → viaBar n = true →
    exec (.registerReadClear a p) ⟨d, rest⟩ = .next ⟨d.answer n 0xFFFFFFFF, rest⟩) ∧
  (∀ (d : Dev) (rest : List Instr) (a : Agent) (p : ReadAt) (n x : Nat), n = a.toNat → x = p.off.toNat → d.clk.hub = true →
    viaBar n = true → d.stalls x = false → readsWhole x p.len = false →
    exec (.registerReadClear a p) ⟨d, rest⟩ = .next ⟨(d.accessFault n 1 x).answer n 0, rest⟩) ∧
  (∀ (d : Dev) (rest : List Instr) (a : Agent) (p : ReadAt) (n x : Nat), n = a.toNat → x = p.off.toNat → d.clk.hub = true →
    p.len = 4 → (enables p.enable 0).any id = true → x % 4 = 0 → inSpan x = false → inWindow x = false → d.stalls x = false →
    exec (.registerReadClear a p) ⟨d, rest⟩ = .next ⟨(d.accessFault n 1 x).answer n 0, rest⟩) ∧
  (∀ (d : Dev) (rest : List Instr) (a : Agent) (p : ReadAt) (n x : Nat), n = a.toNat → x = p.off.toNat → d.clk.hub = true →
    viaBar n = true → d.stalls x = true →
    exec (.registerReadClear a p) ⟨d, rest⟩ = .next ⟨d.stallOn (.registerReadClear a p), rest⟩) ∧
  (∀ (d : Dev) (rest : List Instr) (a : Agent) (off : BitVec 24) (v : List Byte) (e : List Bool) (n x : Nat) (g : Dev) (r : RegRow) (w : Word), n = a.toNat →
    x = off.toNat → d.clk.hub = true → d.stalls x = false → (inWindow x = false ∨ viaBar n = false) → x % 4 = 0 →
    v.length = 4 → g = d.writerRead n x → (enables e 0).all id = true → inSpan x = true → rowFor x = some r → r.fixed = false →
    g.regOut n x true = false → w = BitVec.ofNat 32 (leNat v 0 4) → g.gateReason r.gate n x = 0 → g.notWriter n x = false →
    ¬ (0xC000 ≤ x ∧ x < 0xD000 ∧ x % 256 = 0x34) → g.badState x = false →
    g.badValue x (r.store (g.regWord x) w (g.hwBits x)) = false →
    g.keptBits x (g.regWord x) (r.store (g.regWord x) w (g.hwBits x)) = (0, false) → tablePlace x = none →
    g.swOver x n = false →
    exec (.registerWrite a off v e) ⟨d, rest⟩ = .next ⟨g.putReg a x (g.regWord x) w (r.store (g.regWord x) w (g.hwBits x)), rest⟩) ∧
  (∀ (d : Dev) (rest : List Instr) (a : Agent) (off : BitVec 24) (v : List Byte) (e : List Bool) (n x : Nat) (g : Dev) (r : RegRow) (w : Word), n = a.toNat →
    x = off.toNat → d.clk.hub = true → d.stalls x = false → (inWindow x = false ∨ viaBar n = false) → x % 4 = 0 →
    v.length = 4 → g = d.writerRead n x → (enables e 0).all id = true → inSpan x = true → rowFor x = some r → r.fixed = false →
    g.regOut n x true = false → w = BitVec.ofNat 32 (leNat v 0 4) → g.gateReason r.gate n x = 0 → g.notWriter n x = false →
    ¬ (0xC000 ≤ x ∧ x < 0xD000 ∧ x % 256 = 0x34) → g.badState x = false →
    g.badValue x (r.store (g.regWord x) w (g.hwBits x)) = false →
    g.keptBits x (g.regWord x) (r.store (g.regWord x) w (g.hwBits x)) = (0, false) → tablePlace x = none →
    g.swOver x n = false → 0x100000 ≤ x → x < 0x10C000 → d.md ≠ Md.configure → ∃ t : Dev,
    exec (.registerWrite a off v e) ⟨d, rest⟩ = .next ⟨t, rest⟩ ∧ t.word x = r.store (d.regWord x) w (d.hwBits x) ∧
    (∀ o, o ≠ x → t.word o = d.word o) ∧ t.flt = d.flt) ∧
  (∀ (d : Dev) (rest : List Instr) (a : Agent) (off : BitVec 24) (v : List Byte) (e : List Bool) (n x : Nat) (g : Dev) (r : RegRow) (w : Word), n = a.toNat →
    x = off.toNat → d.clk.hub = true → d.stalls x = false → (inWindow x = false ∨ viaBar n = false) → x % 4 = 0 →
    v.length = 4 → g = d.writerRead n x → (enables e 0).all id = true → inSpan x = true → rowFor x = some r → r.fixed = false →
    g.regOut n x true = false → w = BitVec.ofNat 32 (leNat v 0 4) → g.gateReason r.gate n x = 0 → g.notWriter n x = false →
    ¬ (0xC000 ≤ x ∧ x < 0xD000 ∧ x % 256 = 0x34) → g.badState x = false →
    g.badValue x (r.store (g.regWord x) w (g.hwBits x)) = false →
    g.keptBits x (g.regWord x) (r.store (g.regWord x) w (g.hwBits x)) = (0, false) → tablePlace x = none →
    g.swOver x n = false → 0x100000 ≤ x → x < 0x10C000 → d.md = Md.configure → r.gate ≠ .any → ∃ t : Dev,
    exec (.registerWrite a off v e) ⟨d, rest⟩ = .next ⟨t, rest⟩ ∧ t.regWord x = r.store (d.regWord x) w (d.hwBits x) ∧
    t.regs = d.regs ∧ t.flt = d.flt) ∧
  (∀ (d : Dev) (rest : List Instr) (a : Agent) (off : BitVec 24) (v : List Byte) (e : List Bool) (n x : Nat) (g : Dev) (r : RegRow), n = a.toNat →
    x = off.toNat → d.clk.hub = true → d.stalls x = false → (inWindow x = false ∨ viaBar n = false) → x % 4 = 0 →
    v.length = 4 → g = d.writerRead n x → (enables e 0).all id = true → inSpan x = true → rowFor x = some r → r.fixed = false →
    g.regOut n x true = false → g.gateReason r.gate n x ≠ 0 →
    exec (.registerWrite a off v e) ⟨d, rest⟩ = .next ⟨g.wign n x (g.gateReason r.gate n x), rest⟩) ∧
  (∀ (d : Dev) (rest : List Instr) (a : Agent) (off : BitVec 24) (v : List Byte) (e : List Bool) (n x : Nat) (g : Dev) (r : RegRow), n = a.toNat →
    x = off.toNat → d.clk.hub = true → d.stalls x = false → (inWindow x = false ∨ viaBar n = false) → x % 4 = 0 →
    v.length = 4 → g = d.writerRead n x → (enables e 0).all id = true → inSpan x = true → rowFor x = some r → r.fixed = true →
    g.regOut n x true = false →
    exec (.registerWrite a off v e) ⟨d, rest⟩ = .next ⟨if g.notWriter n x then g.accessFault n 2 x else g, rest⟩) ∧
  (∀ (d : Dev) (rest : List Instr) (a : Agent) (off : BitVec 24) (v : List Byte) (e : List Bool) (n x : Nat) (g : Dev) (r : RegRow), n = a.toNat →
    x = off.toNat → d.clk.hub = true → d.stalls x = false → (inWindow x = false ∨ viaBar n = false) → x % 4 = 0 →
    v.length = 4 → g = d.writerRead n x → (enables e 0).all id = true → inSpan x = true → rowFor x = some r → r.fixed = true →
    viaBar n = true → g.regOut n x true = true → exec (.registerWrite a off v e) ⟨d, rest⟩ = .next ⟨g, rest⟩) ∧
  (∀ (d : Dev) (rest : List Instr) (a : Agent) (off : BitVec 24) (v : List Byte) (e : List Bool) (n x : Nat) (g : Dev) (r : RegRow), n = a.toNat →
    x = off.toNat → d.clk.hub = true → d.stalls x = false → (inWindow x = false ∨ viaBar n = false) → x % 4 = 0 →
    v.length = 4 → g = d.writerRead n x → (enables e 0).all id = true → inSpan x = true → rowFor x = some r → r.fixed = false →
    g.regOut n x true = true → viaBar n = true → exec (.registerWrite a off v e) ⟨d, rest⟩ = .next ⟨g.wign n x 5, rest⟩) ∧
  (∀ (d : Dev) (rest : List Instr) (a : Agent) (off : BitVec 24) (v : List Byte) (e : List Bool) (n x : Nat) (g : Dev) (r : RegRow), n = a.toNat →
    x = off.toNat → d.clk.hub = true → d.stalls x = false → (inWindow x = false ∨ viaBar n = false) → x % 4 = 0 →
    v.length = 4 → g = d.writerRead n x → (enables e 0).all id = false → (enables e 0).any id = true → inSpan x = true →
    rowFor x = some r → r.fixed = false → g.notWriter n x = false →
    exec (.registerWrite a off v e) ⟨d, rest⟩ = .next ⟨g.wign n x 4, rest⟩) ∧
  (∀ (d : Dev) (rest : List Instr) (a : Agent) (off : BitVec 24) (v : List Byte) (e : List Bool) (n x : Nat) (g : Dev) (r : RegRow), n = a.toNat →
    x = off.toNat → d.clk.hub = true → d.stalls x = false → (inWindow x = false ∨ viaBar n = false) → x % 4 = 0 →
    v.length = 4 → g = d.writerRead n x → (enables e 0).all id = false → (enables e 0).any id = true → inSpan x = true →
    rowFor x = some r → r.fixed = false → g.notWriter n x = true →
    exec (.registerWrite a off v e) ⟨d, rest⟩ = .next ⟨(g.wign n x 4).accessFault n 2 x, rest⟩) ∧
  (∀ (d : Dev) (rest : List Instr) (a : Agent) (off : BitVec 24) (v : List Byte) (e : List Bool) (n x : Nat) (g : Dev) (r : RegRow), n = a.toNat →
    x = off.toNat → d.clk.hub = true → d.stalls x = false → (inWindow x = false ∨ viaBar n = false) → x % 4 = 0 →
    v.length = 4 → g = d.writerRead n x → (enables e 0).all id = false → (enables e 0).any id = true → inSpan x = true →
    rowFor x = some r → r.fixed = true → g.notWriter n x = false → exec (.registerWrite a off v e) ⟨d, rest⟩ = .next ⟨g, rest⟩) ∧
  (∀ (d : Dev) (rest : List Instr) (a : Agent) (off : BitVec 24) (v : List Byte) (e : List Bool) (n x : Nat) (g : Dev) (r : RegRow), n = a.toNat →
    x = off.toNat → d.clk.hub = true → d.stalls x = false → (inWindow x = false ∨ viaBar n = false) → x % 4 = 0 →
    v.length = 4 → g = d.writerRead n x → (enables e 0).all id = false → (enables e 0).any id = true → inSpan x = true →
    rowFor x = some r → r.fixed = true → g.notWriter n x = true →
    exec (.registerWrite a off v e) ⟨d, rest⟩ = .next ⟨g.accessFault n 2 x, rest⟩) ∧
  (∀ (d : Dev) (rest : List Instr) (a : Agent) (off : BitVec 24) (v : List Byte) (e : List Bool) (n x : Nat) (g : Dev), n = a.toNat →
    x = off.toNat → d.clk.hub = true → d.stalls x = false → (inWindow x = false ∨ viaBar n = false) → x % 4 = 0 →
    v.length = 4 → g = d.writerRead n x → (enables e 0).any id = true → inSpan x = false → ∃ t : Dev,
    exec (.registerWrite a off v e) ⟨d, rest⟩ = .next ⟨t, rest⟩ ∧ t.rd DEV_WIGN.SET = 1 ∧ t.Reports 0x70 n ∧
    (∀ o, o ≠ DEV_WIGN.SET.off → t.word o = d.word o)) ∧
  (∀ (d : Dev) (rest : List Instr) (a : Agent) (off : BitVec 24) (v : List Byte) (e : List Bool) (n x : Nat) (g : Dev), n = a.toNat →
    x = off.toNat → d.clk.hub = true → d.stalls x = false → (inWindow x = false ∨ viaBar n = false) → x % 4 = 0 →
    v.length = 4 → g = d.writerRead n x → (enables e 0).any id = false →
    exec (.registerWrite a off v e) ⟨d, rest⟩ = .next ⟨d, rest⟩) ∧
  (∀ (d : Dev) (rest : List Instr) (a : Agent) (off : BitVec 24) (v : List Byte) (e : List Bool) (n x : Nat), n = a.toNat →
    x = off.toNat → d.clk.hub = true → d.stalls x = false → (inWindow x = false ∨ viaBar n = false) →
    (v.length ≠ 4 ∨ x % 4 ≠ 0) → (v.length ≠ 8 ∨ x % 8 ≠ 0) →
    exec (.registerWrite a off v e) ⟨d, rest⟩ = .next ⟨(d.wign n x 4).accessFault n 2 x, rest⟩) ∧
  (∀ (d : Dev) (rest : List Instr) (a : Agent) (off : BitVec 24) (v : List Byte) (e : List Bool), d.clk.hub = true →
    d.stalls off.toNat = true → exec (.registerWrite a off v e) ⟨d, rest⟩ = .next ⟨d.stallOn (.registerWrite a off v e), rest⟩) ∧
  (∀ (d : Dev) (rest : List Instr) (a : Agent) (off : BitVec 24) (v : List Byte) (n x b g : Nat), n = a.toNat → x = off.toNat →
    d.clk.hub = true → d.stalls x = false → inWindow x = true → viaBar n = true → d.regOut n x true = false → x % 8 = 0 →
    v.length = 8 → b = (windowBank x).1 → g = (windowBank x).2 / 8 → d.bankOff b = false → ∃ t : Dev,
    exec (.registerWrite a off v []) ⟨d, rest⟩ = .next ⟨t, rest⟩ ∧ t.granStored b g = leNat v 0 8 ∧ t.granErr b g = 0 ∧
    t.regs = d.regs ∧ t.flt = d.flt) ∧
  (∀ (d : Dev) (rest : List Instr) (a : Agent) (p : ReadAt) (n x : Nat) (b g : Nat), n = a.toNat → x = p.off.toNat →
    d.clk.hub = true → d.stalls x = false → inWindow x = true → viaBar n = true → p.len = 4 → x % 4 = 0 →
    d.regOut n x false = false → b = (windowBank x).1 → g = (windowBank x).2 / 8 → d.bankOff b = false → d.granErr b g = 0 →
    ∃ t : Dev, exec (.registerReadClear a p) ⟨d, rest⟩ = .next ⟨t, rest⟩ ∧
    nget t.host.rdata n = d.granStored b g / 256 ^ (x % 8) % 2 ^ 32 ∧ t.regs = d.regs ∧ t.mem = d.mem)

/-- Registers whose write starts something. GO opens the boot window, CAL_START calibrates or is ignored while a calibration runs,
RESTORE ends throttling, CORE_CTL and CORE_KICK act on the core, and the heartbeat writes the status block. Each clause
concludes that exec answers a next state, from premises on the state and the operands alone. Completion is so stated for:
bootCtlGo, calStart, seqCtlTrig, injReq, ipCtlRestore, coreCtlHalt, coreCtlStart, coreKick, coreSignal, heartbeat. (R175, R204,
R206, R281, R313, R404, R420, R422, R423, R426) -/
def Obligations.RegisterStarts : Prop :=
  (∀ (d : Dev) (rest : List Instr) (a : Agent), d.clk.hub = true → d.hostPath = true → ∃ t : Dev,
    exec (.bootCtlGo a) ⟨d, rest⟩ = .next ⟨t, rest⟩ ∧ t.rd BOOT_STATUS.STATE = 1 ∧ t.rd BOOT_STATUS.SRC = 1 ∧
    t.mode.image = [] ∧ (∀ o, o ≠ BOOT_STATUS.STATE.off → t.word o = d.word o)) ∧
  (∀ (d : Dev) (rest : List Instr) (a : Agent), d.clk.hub = true → d.hostPath = false →
    exec (.bootCtlGo a) ⟨d, rest⟩ = .next ⟨d.wign a.toNat 0x1068 3, rest⟩) ∧
  (∀ (d : Dev) (rest : List Instr) (a : Agent) (c : Fin 632), d.reaches a.toNat (0x110000 + 0x40 * c) = true →
    (d.rd (CV_STATUS.CAL_STATUS c) = 1 ∨ d.rd (CV_STATUS.CAL_STATUS c) = 2) → ∃ t : Dev,
    exec (.calStart a c) ⟨d, rest⟩ = .next ⟨t, rest⟩ ∧ (t.rd (CV_EVT.EVT c)).testBit 5 = true ∧
    t.rd (CV_STATUS.CAL_STATUS c) = d.rd (CV_STATUS.CAL_STATUS c) ∧ t.C c = d.C c) ∧
  (∀ (d : Dev) (rest : List Instr) (a : Agent) (c : Fin 632), d.reaches a.toNat (0x110000 + 0x40 * c) = true →
    d.rd (CV_STATUS.CAL_STATUS c) ≠ 1 → d.rd (CV_STATUS.CAL_STATUS c) ≠ 2 → d.liveSlices c - 1 < sliceMin c → ∃ t : Dev,
    exec (.calStart a c) ⟨d, rest⟩ = .next ⟨t, rest⟩ ∧ t.rd (CV_STATUS.CAL_STATUS c) = 5 ∧
    (t.rd (CV_EVT.EVT c)).testBit 2 = true) ∧
  (∀ (d : Dev) (rest : List Instr) (a : Agent) (c : Fin 632), d.reaches a.toNat (0x110000 + 0x40 * c) = true → c.val < 624 →
    d.rd (CV_STATUS.CAL_STATUS c) ≠ 1 → d.rd (CV_STATUS.CAL_STATUS c) ≠ 2 → sliceMin c ≤ d.liveSlices c - 1 →
    exec (.calStart a c) ⟨d, rest⟩ = .next ⟨d.calGo c (d.liveList c), rest⟩) ∧
  (∀ (d : Dev) (rest : List Instr) (a : Agent) (k : Fin 8), d.reaches a.toNat (0x204008 + 0x200 * k) = true →
    d.rd (SEQ_CFG.TRIG_SRC k) = 1 → d.rd (SEQ_CFG.MODE k) ≠ 0 → d.on (SEQ_CFG.ONCE k) = true → (d.SQ k).lowT = d.lowPower →
    (d.SQ k).trigAt ≠ some d.clk.ent → (d.SQ k).pass ≠ none → (d.SQ k).passDone = false → d.on (SEQ_CFG.OVR_MODE k) = false →
    exec (.seqCtlTrig a k) ⟨d, rest⟩ = .next ⟨(d.onSQ k fun x => { x with trigAt := some d.clk.ent }).bump (SEQ_CNT.SEQ_OVERRUN k), rest⟩) ∧
  (∀ (d : Dev) (rest : List Instr) (a : Agent) (k : Fin 8), d.reaches a.toNat (0x204008 + 0x200 * k) = true →
    d.rd (SEQ_CFG.TRIG_SRC k) = 1 → d.rd (SEQ_CFG.MODE k) ≠ 0 → d.on (SEQ_CFG.ONCE k) = true → (d.SQ k).lowT = d.lowPower →
    (d.SQ k).trigAt ≠ some d.clk.ent → (d.SQ k).pass = none → d.passOver k = false →
    exec (.seqCtlTrig a k) ⟨d, rest⟩ = .next ⟨(d.onSQ k fun x => { x with trigAt := some d.clk.ent }).passStart k d.scvTime, rest⟩) ∧
  (∀ (d : Dev) (rest : List Instr) (a : Agent) (k : Fin 8), d.reaches a.toNat (0x204008 + 0x200 * k) = true →
    d.rd (SEQ_CFG.TRIG_SRC k) = 1 → d.rd (SEQ_CFG.MODE k) ≠ 0 → d.on (SEQ_CFG.ONCE k) = true → (d.SQ k).lowT = d.lowPower →
    (d.SQ k).trigAt ≠ some d.clk.ent → (d.SQ k).pass ≠ none → (d.SQ k).passDone = false → d.on (SEQ_CFG.OVR_MODE k) = false →
    ∃ t : Dev, exec (.seqCtlTrig a k) ⟨d, rest⟩ = .next ⟨t, rest⟩ ∧
    t.rd (SEQ_CNT.SEQ_OVERRUN k) = satAdd (2 ^ (SEQ_CNT.SEQ_OVERRUN k).len - 1) (d.rd (SEQ_CNT.SEQ_OVERRUN k)) 1 ∧
    (t.SQ k).pass = (d.SQ k).pass ∧ (t.SQ k).trigAt = some d.clk.ent) ∧
  (∀ (d : Dev) (rest : List Instr) (a : Agent) (k : Fin 8), d.reaches a.toNat (0x204008 + 0x200 * k) = true →
    d.rd (SEQ_CFG.TRIG_SRC k) = 1 → d.rd (SEQ_CFG.MODE k) ≠ 0 → d.on (SEQ_CFG.ONCE k) = true → (d.SQ k).lowT = d.lowPower →
    (d.SQ k).trigAt ≠ some d.clk.ent → (d.SQ k).pass = none → d.passOver k = false → ∃ t : Dev,
    exec (.seqCtlTrig a k) ⟨d, rest⟩ = .next ⟨t, rest⟩ ∧ (t.SQ k).pass = some d.scvTime ∧ (t.SQ k).due = d.scvTime ∧
    (t.SQ k).passDone = false ∧ t.rd (SEQ_STATUS.ACTIVE k) = 1 ∧ t.rd (SEQ_STATUS.ENTRY k) = 0 ∧ t.rd (SEQ_STATUS.REP k) = 0) ∧
  (∀ (d : Dev) (rest : List Instr) (a : Agent) (k : Fin 8), d.reaches a.toNat (0x204008 + 0x200 * k) = true →
    d.rd (SEQ_CFG.TRIG_SRC k) ≠ 1 → exec (.seqCtlTrig a k) ⟨d, rest⟩ = .next ⟨d, rest⟩) ∧
  (∀ (d : Dev) (rest : List Instr) (a : Agent) (k : Fin 8) (v : BitVec 6), d.reaches a.toNat (0x204014 + 0x200 * k) = true →
    d.owns 2 k a.toNat 1 = false → d.owns 2 k a.toNat 2 = false → ∃ t : Dev, exec (.injReq a k v) ⟨d, rest⟩ = .next ⟨t, rest⟩ ∧
    t.rd (INJ_STAT.REFUSED k) = 1 ∧ t.rd (INJ_STAT.DROPPED k) = 0 ∧ t.rd (INJ_STAT.STATE k) = d.rd (INJ_STAT.STATE k)) ∧
  (∀ (d : Dev) (rest : List Instr) (a : Agent) (k : Fin 8) (v : BitVec 6), d.reaches a.toNat (0x204014 + 0x200 * k) = true →
    d.owns 2 k a.toNat 2 = true → d.rd (INJ_STAT.STATE k) = 0 → ∃ t : Dev, exec (.injReq a k v) ⟨d, rest⟩ = .next ⟨t, rest⟩ ∧
    t.rd (INJ_STAT.STATE k) = 1 ∧ t.rd (INJ_STAT.DONE k) = 0 ∧ (t.SQ k).injAt = d.now ∧ (t.SQ k).injSel = v.toNat) ∧
  (∀ (d : Dev) (rest : List Instr) (a : Agent) (k : Fin 8) (v : BitVec 6), d.reaches a.toNat (0x204014 + 0x200 * k) = true →
    d.owns 2 k a.toNat 2 = true → d.rd (INJ_STAT.STATE k) ≠ 0 → ∃ t : Dev, exec (.injReq a k v) ⟨d, rest⟩ = .next ⟨t, rest⟩ ∧
    t.rd (INJ_STAT.DROPPED k) = 1 ∧ t.rd (INJ_STAT.STATE k) = d.rd (INJ_STAT.STATE k) ∧ t.SQ k = d.SQ k) ∧
  (∀ (d : Dev) (rest : List Instr) (a : Agent) (n : Fin 32), d.reaches a.toNat (0xB41C + 0x40 * n) = true → ∃ t : Dev,
    exec (.ipCtlRestore a n) ⟨d, rest⟩ = .next ⟨t, rest⟩ ∧ t.rd (IP_STATUS.THROTTLED n) = 0 ∧ t.rd (IP_STATUS.FILL n) = 0 ∧
    t.rd (IP_STATUS.RATE n) = 0 ∧ (t.IP n).credit = [] ∧ (∀ o, o ≠ (IP_STATUS.THROTTLED n).off → t.word o = d.word o)) ∧
  (∀ (d : Dev) (rest : List Instr) (a : Agent) (c : Fin 21), d.reaches a.toNat (0xD008 + 0x40 * c) = true → d.clk.hub = true →
    d.md = Md.configure → d.coreBusy c = true → ∃ t : Dev, exec (.coreCtlHalt a c) ⟨d, rest⟩ = .next ⟨t, rest⟩ ∧
    t.ks c = Ks.halted ∧ (t.K c).hostRd = none ∧ (t.K c).pc = (d.K c).pc ∧ (t.K c).fb = (d.K c).fb) ∧
  (∀ (d : Dev) (rest : List Instr) (a : Agent) (c : Fin 21), d.reaches a.toNat (0xD008 + 0x40 * c) = true → d.clk.hub = true →
    d.md ≠ Md.configure → d.md ≠ Md.factory →
    exec (.coreCtlHalt a c) ⟨d, rest⟩ = .next ⟨d.wign a.toNat (0xD008 + 0x40 * c) 1, rest⟩) ∧
  (∀ (d : Dev) (rest : List Instr) (a : Agent) (c : Fin 21), d.reaches a.toNat (0xD008 + 0x40 * c) = true → d.clk.hub = true →
    d.md = Md.configure → d.ks c = Ks.halted → d.on BOOT_STATUS.APPLIED = true → ∃ t : Dev,
    exec (.coreCtlStart a c) ⟨d, rest⟩ = .next ⟨t, rest⟩ ∧ t.ks c = Ks.running ∧ (t.K c).pc = d.rd (CORE_CFG.ENTRY c) ∧
    (t.K c).fb = 0x00040000 ∧ (t.K c).wdt = some (d.coreNow c)) ∧
  (∀ (d : Dev) (rest : List Instr) (a : Agent) (c : Fin 21), d.reaches a.toNat (0xD008 + 0x40 * c) = true → d.clk.hub = true →
    d.md = Md.configure → d.ks c = Ks.halted → d.on BOOT_STATUS.APPLIED = false →
    exec (.coreCtlStart a c) ⟨d, rest⟩ = .next ⟨d.wign a.toNat (0xD008 + 0x40 * c) 3, rest⟩) ∧
  (∀ (d : Dev) (rest : List Instr) (a : Agent) (c : Fin 21), d.reaches a.toNat (0xD008 + 0x40 * c) = true → d.md = Md.factory →
    d.ks c = Ks.halted → ∃ t : Dev, exec (.coreCtlStart a c) ⟨d, rest⟩ = .next ⟨t, rest⟩ ∧ t.ks c = Ks.running ∧
    (t.K c).pc = d.rd (CORE_CFG.ENTRY c) ∧ (t.K c).fb = 0x00040000) ∧
  (∀ (d : Dev) (rest : List Instr) (a : Agent) (c : Fin 21), d.reaches a.toNat (0xD008 + 0x40 * c) = true → d.clk.hub = true →
    d.md = Md.configure → d.ks c ≠ Ks.halted → exec (.coreCtlStart a c) ⟨d, rest⟩ = .next ⟨d, rest⟩) ∧
  (∀ (d : Dev) (rest : List Instr) (a : Agent) (c : Fin 21) (v : Word), d.reaches a.toNat (0xD024 + 0x40 * c) = true →
    a.toNat = 0x10 + c.val → v = 0x6B1C → d.coreBusy c = true → d.wdtOver c = false → ∃ t : Dev,
    exec (.coreKick a c v) ⟨d, rest⟩ = .next ⟨t, rest⟩ ∧ (t.K c).wdt = some (d.coreNow c) ∧ (t.K c).pc = (d.K c).pc ∧
    t.regs = d.regs) ∧
  (∀ (d : Dev) (rest : List Instr) (a : Agent) (c : Fin 21) (v : Word), d.reaches a.toNat (0xD024 + 0x40 * c) = true →
    d.clk.hub = true → a.toNat ≠ 0x10 + c.val →
    exec (.coreKick a c v) ⟨d, rest⟩ = .next ⟨(d.wign a.toNat (0xD024 + 0x40 * c) 7).accessFault a.toNat 2 (0xD024 + 0x40 * c), rest⟩) ∧
  (∀ (d : Dev) (rest : List Instr) (a : Agent) (c : Fin 21) (v : Word), d.reaches a.toNat (0xD024 + 0x40 * c) = true →
    a.toNat = 0x10 + c.val → v ≠ 0x6B1C → exec (.coreKick a c v) ⟨d, rest⟩ = .next ⟨d.wign a.toNat (0xD024 + 0x40 * c) 2, rest⟩) ∧
  (∀ (d : Dev) (rest : List Instr) (a : Agent) (c : Fin 21), d.reaches a.toNat (0xD028 + 0x40 * c) = true → d.ks c ≠ Ks.off →
    d.coreSlow c = false → ∃ t : Dev, exec (.coreSignal a c) ⟨d, rest⟩ = .next ⟨t, rest⟩ ∧
    (t.rd (CORE_PEND.PEND c)).testBit 2 = true ∧ (∀ o, o ≠ (CORE_PEND.PEND c).off → t.word o = d.word o)) ∧
  (∀ (d : Dev) (rest : List Instr), d.clk.hub = true → d.host.down = false → d.on HOST_CTL.SB_EN = true → d.host.hb ≤ d.now →
    ∃ t : Dev, exec (.heartbeat) ⟨d, rest⟩ = .next ⟨t, rest⟩ ∧ t.host.hb = d.now + max 8000 (d.rd HB_PERIOD.VAL) ∧
    t.regs = d.regs ∧ t.hRd d.sbBase 8 = leBytes d.now 8) ∧
  (∀ (d : Dev) (rest : List Instr), d.on HOST_CTL.SB_EN = false → exec (.heartbeat) ⟨d, rest⟩ = .next ⟨d, rest⟩)

/-- The bus side of the two-wire blocks. Idle, attention, stuck buses and clears, a timeout, arbitration and the ending of a
controller transfer, each with its status and its counter. Each clause concludes that exec answers a next state, from premises
on the state and the operands alone. Completion is so stated for: twXctlGo, twAlertReq, twTimeout, idleSeen, sdaFall, sdaRise,
attention, busClear, busClearEnd, busHeld, alertResponseRead, attentionSignal, attentionHoldEnd, alertResponse, transferStart,
transferEnd, arbLost, roleChange. (R374, R377, R379, R380, R381, R382, R383, R384, R385, R386, R387) -/
def Obligations.TwoWireBus : Prop :=
  (∀ (d : Dev) (rest : List Instr) (a : Agent) (n : Fin 16) (v : Word) (e : Dev), d.clk.hub = true →
    d.owns 4 n a.toNat 2 = true → e = d.twLines n d.now → 2 ^ 31 ≤ v.toNat → e.rd (TW_XSTAT.STATE n) ≠ 1 → ∃ t : Dev,
    exec (.twXctlGo a n v) ⟨d, rest⟩ = .next ⟨t, rest⟩ ∧ t.rd (TW_XSTAT.STATE n) = 1 ∧ t.rd (TW_XSTAT.ERR n) = 0 ∧
    t.rd (TW_XSTAT.NBYTES n) = 0 ∧ (t.W n).goPend = true ∧ t.word (0xC034 + 0x100 * n) = v &&& 0x007F3F7F) ∧
  (∀ (d : Dev) (rest : List Instr) (a : Agent) (n : Fin 16) (v : Word) (e : Dev), d.clk.hub = true →
    d.owns 4 n a.toNat 2 = true → e = d.twLines n d.now → 2 ^ 31 ≤ v.toNat → e.rd (TW_XSTAT.STATE n) = 1 →
    exec (.twXctlGo a n v) ⟨d, rest⟩ = .next ⟨(e.wign a.toNat (0xC034 + 0x100 * n) 3).accessFault a.toNat 2 (0xC034 + 0x100 * n), rest⟩) ∧
  (∀ (d : Dev) (rest : List Instr) (a : Agent) (n : Fin 16) (v : Word), d.clk.hub = true → d.owns 4 n a.toNat 2 = false →
    d.owns 4 n a.toNat 3 = false →
    exec (.twXctlGo a n v) ⟨d, rest⟩ = .next ⟨(d.wign a.toNat (0xC034 + 0x100 * n) 7).accessFault a.toNat 2 (0xC034 + 0x100 * n), rest⟩) ∧
  (∀ (d : Dev) (rest : List Instr) (a : Agent) (n : Fin 16), d.clk.hub = true → ∃ t : Dev,
    exec (.twAlertReq a n) ⟨d, rest⟩ = .next ⟨t, rest⟩ ∧ t.rd (TW_ALERT.PENDING n) = 1 ∧
    (∀ o, o ≠ (TW_ALERT.PENDING n).off → t.word o = d.word o)) ∧
  (∀ (d : Dev) (rest : List Instr) (n : Fin 16) (e : Dev), d.clk.hub = true → e = d.twLines n d.now → e.sclDue n e.now = true →
    (e.W n).goPend = true → ∃ t : Dev, exec (.twTimeout n) ⟨d, rest⟩ = .next ⟨t, rest⟩ ∧ t.rd (TW_STATUS.IDLE_SEEN n) = 0 ∧
    t.rd (TW_XSTAT.STATE n) = 3 ∧ t.rd (TW_XSTAT.ERR n) = 4 ∧ t.rd (TW_CNT.TIMEOUT n) = min (e.rd (TW_CNT.TIMEOUT n) + 1) 255 ∧
    (t.rd (TW_EVT.EVT n)).testBit 3 = true ∧ (t.W n).ptr = [] ∧ (t.W n).goPend = false ∧ t.Reports 0x7D n) ∧
  (∀ (d : Dev) (rest : List Instr) (n : Fin 16) (e : Dev), e = d.twLines n d.now → e.tws n ≠ Ts.off → e.tws n ≠ Ts.fenced →
    e.twQuiet n = true → ∃ t : Dev, exec (.idleSeen n) ⟨d, rest⟩ = .next ⟨t, rest⟩ ∧ t.rd (TW_STATUS.IDLE_SEEN n) = 1 ∧
    t.rd (TW_STATUS.STATE n) = e.rd (TW_STATUS.STATE n) ∧ (∀ o, o ≠ (TW_STATUS.IDLE_SEEN n).off → t.word o = e.word o)) ∧
  (∀ (d : Dev) (rest : List Instr) (n : Fin 16) (v : Bool) (e : Dev), d.clk.hub = true → d.now % 16 = 0 →
    e = d.twLines n (d.now - 1) → e.stg = [] → 2 ≤ e.rd (TW_CFG.FILT n) → (e.W n).sda = true → (e.W n).rawSda = true →
    (e.W n).scl = v → (e.W n).rawScl = v →
    exec (.sdaFall ⟨n, v⟩) ⟨d, rest⟩ = .next ⟨e.onW n fun x => { x with rawSda := false, sdaAt := e.now }, rest⟩) ∧
  (∀ (d : Dev) (rest : List Instr) (n : Fin 16) (v : Bool) (e : Dev), d.clk.hub = true → d.now % 16 = 0 →
    e = d.twLines n (d.now - 1) → e.stg = [] → 2 ≤ e.rd (TW_CFG.FILT n) → (e.W n).sda = false → (e.W n).rawSda = false →
    (e.W n).scl = v → (e.W n).rawScl = v →
    exec (.sdaRise ⟨n, v⟩) ⟨d, rest⟩ = .next ⟨e.onW n fun x => { x with rawSda := true, sdaAt := e.now }, rest⟩) ∧
  (∀ (d : Dev) (rest : List Instr) (n : Fin 16) (e : Dev), d.clk.hub = true → d.now % 16 = 0 → e = d.twLines n (d.now - 1) →
    (e.W n).sda = true → (e.W n).rawSda = false → e.seenAt n (e.W n).sdaAt = e.now → (e.W n).scl = true →
    (e.W n).rawScl = true → e.twFree n = true → e.tws n ≠ Ts.attention → e.tws n ≠ Ts.clearing → ∃ t : Dev,
    exec (.sdaFall ⟨n, true⟩) ⟨d, rest⟩ = .next ⟨t, rest⟩ ∧ (t.W n).sda = false ∧ (t.W n).hiAt = none ∧
    (t.W n).fall = some e.now ∧ (t.W n).heldAt = some e.now) ∧
  (∀ (d : Dev) (rest : List Instr) (n : Fin 16) (e : Dev), d.clk.hub = true → d.now % 16 = 0 → e = d.twLines n (d.now - 1) →
    (e.W n).sda = true → (e.W n).rawSda = false → e.seenAt n (e.W n).sdaAt = e.now → (e.W n).scl = true →
    (e.W n).rawScl = true → e.twFree n = false → e.on (TW_STATUS.IDLE_SEEN n) = true → ∃ t : Dev,
    exec (.sdaFall ⟨n, true⟩) ⟨d, rest⟩ = .next ⟨t, rest⟩ ∧ (t.W n).sda = false ∧ (t.W n).hiAt = none ∧
    (t.W n).fall = (e.W n).fall) ∧
  (∀ (d : Dev) (rest : List Instr) (n : Fin 16) (e : Dev), d.clk.hub = true → d.now % 16 = 0 → e = d.twLines n (d.now - 1) →
    (e.W n).sda = false → (e.W n).rawSda = true → e.seenAt n (e.W n).sdaAt = e.now → (e.W n).scl = true →
    (e.W n).rawScl = true → e.attends n e.now = true → e.on (TW_CFG.ARA_EN n) = true → ∃ t : Dev,
    exec (.sdaRise ⟨n, true⟩) ⟨d, rest⟩ = .next ⟨t, rest⟩ ∧ t.rd (TW_ATTN.COUNT n) = min (e.rd (TW_ATTN.COUNT n) + 1) 255 ∧
    (t.rd (TW_EVT.EVT n)).testBit 2 = true ∧ (t.W n).araPend = true ∧ (t.W n).sda = true ∧ (t.W n).hiAt = some e.now ∧
    (t.W n).fall = none) ∧
  (∀ (d : Dev) (rest : List Instr) (n : Fin 16) (e : Dev), d.clk.hub = true → d.now % 16 = 0 → e = d.twLines n (d.now - 1) →
    e.stg = [] → (e.W n).sda = false → (e.W n).rawSda = true → e.seenAt n (e.W n).sdaAt = e.now → (e.W n).scl = true →
    (e.W n).rawScl = true → (e.W n).fall = none → e.heldDue n e.now = false → ∃ t : Dev,
    exec (.sdaRise ⟨n, true⟩) ⟨d, rest⟩ = .next ⟨t, rest⟩ ∧ t.rd (TW_STATUS.BUS_HELD n) = 0 ∧ (t.W n).sda = true ∧
    (t.W n).hiAt = some e.now ∧ (t.W n).stop = (e.W n).busy ∧ (∀ o, o ≠ (TW_STATUS.BUS_HELD n).off → t.word o = e.word o)) ∧
  (∀ (d : Dev) (rest : List Instr) (n : Fin 16) (e : Dev), d.clk.hub = true → d.now % 16 = 0 → e = d.twLines n (d.now - 1) →
    (e.W n).sda = false → (e.W n).rawSda = true → e.seenAt n (e.W n).sdaAt = e.now → (e.W n).scl = true →
    (e.W n).rawScl = true → e.twCtl n = true → e.tws n = Ts.idle → e.on (TW_STATUS.IDLE_SEEN n) = true →
    closed e.now (e.W n).fall 40000 = true → ∃ t : Dev, exec (.sdaRise ⟨n, true⟩) ⟨d, rest⟩ = .next ⟨t, rest⟩ ∧
    t.rd (TW_STATUS.STATE n) = 4 ∧ t.rd (TW_ATTN.COUNT n) = e.rd (TW_ATTN.COUNT n) ∧ (t.W n).fall = none) ∧
  (∀ (d : Dev) (rest : List Instr) (n : Fin 16) (k : Nat), d.clk.hub = true → (d.W n).sda = false → (d.W n).rawSda = true →
    d.seenAt n (d.W n).sdaAt = k → k ≤ d.now → (d.W n).scl = true → (d.W n).rawScl = true → d.attends n k = true →
    d.on (TW_CFG.ARA_EN n) = true → ∃ t : Dev, exec (.attention n) ⟨d, rest⟩ = .next ⟨t, rest⟩ ∧
    t.rd (TW_ATTN.COUNT n) = min (d.rd (TW_ATTN.COUNT n) + 1) 255 ∧ (t.rd (TW_EVT.EVT n)).testBit 2 = true ∧
    (t.W n).araPend = true ∧ (t.W n).sda = true ∧ (t.W n).hiAt = some k ∧ (t.W n).fall = none) ∧
  (∀ (d : Dev) (rest : List Instr) (n : Fin 16) (e : Dev), e = d.twLines n d.now → e.twCtl n = true → e.twStuck n = true →
    e.tws n ≠ Ts.clearing → ∃ t : Dev, exec (.busClear n) ⟨d, rest⟩ = .next ⟨t, rest⟩ ∧ t.rd (TW_STATUS.STATE n) = 4 ∧
    (t.W n).clrAt = e.now ∧ (t.W n).fall = none) ∧
  (∀ (d : Dev) (rest : List Instr) (n : Fin 16) (k : Fin 10), d.tws n = Ts.clearing → k.val ≠ 0 →
    (d.W n).clrAt + d.sclPeriod n * (k + 1) ≤ d.now → ∃ t : Dev, exec (.busClearEnd n k true) ⟨d, rest⟩ = .next ⟨t, rest⟩ ∧
    t.rd (TW_STATUS.STATE n) = 1 ∧ (t.W n).sda = true ∧ (t.W n).stop = true ∧ (t.W n).hiAt = some d.now) ∧
  (∀ (d : Dev) (rest : List Instr) (n : Fin 16), d.tws n = Ts.clearing → (d.W n).clrAt + d.sclPeriod n * 9 ≤ d.now → ∃ t : Dev,
    exec (.busClearEnd n 9 false) ⟨d, rest⟩ = .next ⟨t, rest⟩ ∧ t.rd (TW_STATUS.STATE n) = 7 ∧
    (t.rd (TW_EVT.EVT n)).testBit 4 = true ∧ t.Reports 0x7C n) ∧
  (∀ (d : Dev) (rest : List Instr) (n : Fin 16) (e : Dev), e = d.twLines n d.now → e.heldDue n e.now = true → ∃ t : Dev,
    exec (.busHeld n) ⟨d, rest⟩ = .next ⟨t, rest⟩ ∧ t.rd (TW_STATUS.BUS_HELD n) = 1 ∧ (t.rd (TW_EVT.EVT n)).testBit 7 = true ∧
    t.rd (TW_STATUS.STATE n) = e.rd (TW_STATUS.STATE n)) ∧
  (∀ (d : Dev) (rest : List Instr) (n : Fin 16) (b : Byte), (d.W n).araPend = true → d.twCtl n = true → d.tws n = Ts.controller →
    d.busOver n 2 0 = true → ∃ t : Dev, exec (.alertResponseRead n (some b)) ⟨d, rest⟩ = .next ⟨t, rest⟩ ∧
    t.rd (TW_ATTN.VALID n) = 1 ∧ t.rd (TW_ATTN.ADDR n) = b.toNat / 2 ∧ (t.W n).araPend = false ∧ t.rd (TW_STATUS.STATE n) = 1) ∧
  (∀ (d : Dev) (rest : List Instr) (n : Fin 16), (d.W n).araPend = true → d.twCtl n = true → d.tws n = Ts.controller →
    d.busOver n 1 0 = true → ∃ t : Dev, exec (.alertResponseRead n none) ⟨d, rest⟩ = .next ⟨t, rest⟩ ∧
    t.rd (TW_ATTN.VALID n) = 0 ∧ t.rd (TW_CNT.ATTN_NONE n) = min (d.rd (TW_CNT.ATTN_NONE n) + 1) 255 ∧
    (t.W n).araPend = false ∧ t.rd (TW_STATUS.STATE n) = 1) ∧
  (∀ (d : Dev) (rest : List Instr) (n : Fin 16) (e : Dev), e = d.twLines n d.now → e.twTgt n = true →
    e.on (TW_ALERT.PENDING n) = true → e.on (TW_CFG.ATTN_OUT n) = true → e.on (TW_STATUS.IDLE_SEEN n) = true →
    e.twQuiet n = true → e.tws n = Ts.idle → ∃ t : Dev, exec (.attentionSignal n) ⟨d, rest⟩ = .next ⟨t, rest⟩ ∧
    t.rd (TW_STATUS.STATE n) = 5 ∧ (t.W n).attAt = some e.now ∧ t.rd (TW_ALERT.PENDING n) = 1) ∧
  (∀ (d : Dev) (rest : List Instr) (n : Fin 16) (e : Dev), e = d.twLines n d.now → e.tws n = Ts.attention →
    closed e.now (e.W n).attAt 16000 = true → ∃ t : Dev, exec (.attentionHoldEnd n) ⟨d, rest⟩ = .next ⟨t, rest⟩ ∧
    t.rd (TW_STATUS.STATE n) = 1 ∧ (t.W n).attAt = none ∧ (t.W n).sda = true ∧
    t.rd (TW_ALERT.PENDING n) = e.rd (TW_ALERT.PENDING n)) ∧
  (∀ (d : Dev) (rest : List Instr) (n : Fin 16) (w : Bool), d.twTgt n = true → d.on (TW_ALERT.PENDING n) = true →
    d.on (TW_STATUS.IDLE_SEEN n) = true → ∃ t : Dev, exec (.alertResponse n w) ⟨d, rest⟩ = .next ⟨t, rest⟩ ∧
    (t.rd (TW_ALERT.PENDING n) = (if w then 0 else 1)) ∧ (t.W n).stop = true ∧
    (w = true → t.bmc.resp = leBytes (2 * d.rd (TW_CFG.ADDR n)) 1) ∧ (∀ o, o ≠ (TW_ALERT.PENDING n).off → t.word o = d.word o)) ∧
  (∀ (d : Dev) (rest : List Instr) (n : Fin 16) (e : Dev), e = d.twLines n d.now → e.twCtl n = true → e.tws n = Ts.idle →
    e.mayStart n = true → ∃ t : Dev, exec (.transferStart n) ⟨d, rest⟩ = .next ⟨t, rest⟩ ∧ t.rd (TW_STATUS.STATE n) = 3 ∧
    (t.W n).hiAt = none ∧ (t.W n).xAt = e.now ∧ (t.W n).goPend = (e.W n).goPend) ∧
  (∀ (d : Dev) (rest : List Instr) (n : Fin 16) (b : List Byte), d.twCtl n = true → d.tws n = Ts.controller →
    (d.W n).araPend = false → (d.W n).goPend = true → d.busOver n (d.xBytes n (.done b)).1 (d.xBytes n (.done b)).2 = true →
    b.length = min 32 (d.rd (TW_XCTL.RLEN n)) → ∃ t : Dev, exec (.transferEnd n (.done b)) ⟨d, rest⟩ = .next ⟨t, rest⟩ ∧
    t.rd (TW_XSTAT.STATE n) = 2 ∧ t.rd (TW_XSTAT.ERR n) = 0 ∧
    t.rd (TW_XSTAT.NBYTES n) = min 32 (d.rd (TW_XCTL.WLEN n)) + b.length ∧ t.rd (TW_STATUS.STATE n) = 1 ∧
    (t.rd (TW_EVT.EVT n)).testBit 0 = true ∧ (t.W n).stop = true ∧
    (∀ k, k < b.length → t.rd (TW_RDATA.RDATA n (k / 4)) / 256 ^ (k % 4) % 256 = byteAt b k)) ∧
  (∀ (d : Dev) (rest : List Instr) (n : Fin 16), d.twCtl n = true → d.tws n = Ts.controller → (d.W n).araPend = false →
    (d.W n).goPend = true → d.busOver n (d.xBytes n (.nackAddr false)).1 (d.xBytes n (.nackAddr false)).2 = true → ∃ t : Dev,
    exec (.transferEnd n (.nackAddr false)) ⟨d, rest⟩ = .next ⟨t, rest⟩ ∧ t.rd (TW_XSTAT.STATE n) = 3 ∧
    t.rd (TW_XSTAT.ERR n) = 1 ∧ t.rd (TW_XSTAT.NBYTES n) = 0 ∧ (t.rd (TW_EVT.EVT n)).testBit 1 = true) ∧
  (∀ (d : Dev) (rest : List Instr) (n : Fin 16), d.twCtl n = true → d.tws n = Ts.controller → (d.W n).araPend = false →
    (d.W n).goPend = true → d.busOver n (d.xBytes n (.nackAddr true)).1 (d.xBytes n (.nackAddr true)).2 = true →
    d.rd (TW_XCTL.WLEN n) ≠ 0 → d.rd (TW_XCTL.RLEN n) ≠ 0 → ∃ t : Dev,
    exec (.transferEnd n (.nackAddr true)) ⟨d, rest⟩ = .next ⟨t, rest⟩ ∧ t.rd (TW_XSTAT.STATE n) = 3 ∧
    t.rd (TW_XSTAT.ERR n) = 1 ∧ t.rd (TW_XSTAT.NBYTES n) = min 32 (d.rd (TW_XCTL.WLEN n)) ∧
    (t.rd (TW_EVT.EVT n)).testBit 1 = true) ∧
  (∀ (d : Dev) (rest : List Instr) (n : Fin 16) (k : Nat) (b : List Byte), d.twCtl n = true → d.tws n = Ts.controller →
    (d.W n).araPend = false → (d.W n).goPend = true →
    d.busOver n (d.xBytes n (.nackData k b)).1 (d.xBytes n (.nackData k b)).2 = true → k + 1 < min 32 (d.rd (TW_XCTL.WLEN n)) →
    ∃ t : Dev, exec (.transferEnd n (.nackData k b)) ⟨d, rest⟩ = .next ⟨t, rest⟩ ∧ t.rd (TW_XSTAT.STATE n) = 3 ∧
    t.rd (TW_XSTAT.ERR n) = 2 ∧ t.rd (TW_XSTAT.NBYTES n) = k) ∧
  (∀ (d : Dev) (rest : List Instr) (n : Fin 16) (k : Nat) (b : List Byte), d.twCtl n = true → d.tws n = Ts.controller →
    (d.W n).araPend = false → (d.W n).goPend = true →
    d.busOver n (d.xBytes n (.nackData k b)).1 (d.xBytes n (.nackData k b)).2 = true → k + 1 = min 32 (d.rd (TW_XCTL.WLEN n)) →
    (d.on (TW_XCTL.PEC n) = false ∨ d.rd (TW_XCTL.RLEN n) ≠ 0) → b.length = min 32 (d.rd (TW_XCTL.RLEN n)) → ∃ t : Dev,
    exec (.transferEnd n (.nackData k b)) ⟨d, rest⟩ = .next ⟨t, rest⟩ ∧ t.rd (TW_XSTAT.STATE n) = 2 ∧
    t.rd (TW_XSTAT.ERR n) = 0 ∧ t.rd (TW_XSTAT.NBYTES n) = k + b.length ∧
    (∀ j, j < b.length → t.rd (TW_RDATA.RDATA n (j / 4)) / 256 ^ (j % 4) % 256 = byteAt b j)) ∧
  (∀ (d : Dev) (rest : List Instr) (n : Fin 16) (b : List Byte), d.twCtl n = true → d.tws n = Ts.controller →
    (d.W n).araPend = false → (d.W n).goPend = true →
    d.busOver n (d.xBytes n (.pecBad b)).1 (d.xBytes n (.pecBad b)).2 = true → d.on (TW_XCTL.PEC n) = true →
    d.rd (TW_XCTL.RLEN n) ≠ 0 → ∃ t : Dev, exec (.transferEnd n (.pecBad b)) ⟨d, rest⟩ = .next ⟨t, rest⟩ ∧
    t.rd (TW_XSTAT.STATE n) = 3 ∧ t.rd (TW_XSTAT.ERR n) = 5 ∧ t.rd (TW_CNT.PEC_ERR n) = min (d.rd (TW_CNT.PEC_ERR n) + 1) 255 ∧
    (t.rd (TW_EVT.EVT n)).testBit 5 = true) ∧
  (∀ (d : Dev) (rest : List Instr) (n : Fin 16), d.twCtl n = true → d.tws n = Ts.controller →
    (d.W n).tries < d.rd (TW_CFG.ARB_MAX n) → ∃ t : Dev, exec (.arbLost n none) ⟨d, rest⟩ = .next ⟨t, rest⟩ ∧
    t.rd (TW_CNT.ARB_LOST n) = min (d.rd (TW_CNT.ARB_LOST n) + 1) 255 ∧ t.rd (TW_STATUS.STATE n) = 1 ∧
    (t.W n).tries = (d.W n).tries + 1 ∧ (t.W n).goPend = (d.W n).goPend) ∧
  (∀ (d : Dev) (rest : List Instr) (n : Fin 16), d.twCtl n = true → d.tws n = Ts.controller →
    d.rd (TW_CFG.ARB_MAX n) ≤ (d.W n).tries → (d.W n).araPend = false → ∃ t : Dev,
    exec (.arbLost n none) ⟨d, rest⟩ = .next ⟨t, rest⟩ ∧ t.rd (TW_XSTAT.STATE n) = 3 ∧ t.rd (TW_XSTAT.ERR n) = 3 ∧
    (t.W n).goPend = false) ∧
  (∀ (d : Dev) (rest : List Instr) (n : Fin 16) (x : BitVec 7), d.rd (TW_STATUS.ROLE n) = 3 → d.tws n = Ts.controller →
    d.answers n x.toNat = true → (d.W n).tries < d.rd (TW_CFG.ARB_MAX n) → ∃ t : Dev,
    exec (.arbLost n (some x)) ⟨d, rest⟩ = .next ⟨t, rest⟩ ∧ t.rd (TW_STATUS.STATE n) = 2 ∧
    (t.rd (TW_EVT.EVT n)).testBit 6 = true) ∧
  (∀ (d : Dev) (rest : List Instr) (n : Fin 16), d.clk.hub = true → d.rd (TW_STATUS.ROLE n) ≠ d.twRole n → d.tws n ≠ Ts.fenced →
    ∃ t : Dev, exec (.roleChange n) ⟨d, rest⟩ = .next ⟨t, rest⟩ ∧ t.rd (TW_STATUS.ROLE n) = d.twRole n ∧
    (t.rd (TW_STATUS.STATE n) = (if d.twRole n = 0 then 0 else 1)) ∧ (t.W n).attAt = none ∧ (t.W n).araPend = false)

/-- Transfers to the two-wire target. A byte window takes a pointer and then data, and answers a read from its pointer on; a
transfer under PEC whose PEC is wrong is discarded and counted; the mailbox takes one descriptor at a time. Each clause
concludes that exec answers a next state, from premises on the state and the operands alone. Completion is so stated for:
targetWrite, targetRead, targetStretchTimeout, mailboxSubmit. (R389, R391, R393, R394) -/
def Obligations.TwoWireTarget : Prop :=
  (∀ (d : Dev) (rest : List Instr) (n : Fin 16) (x : BitVec 7) (p : Byte) (w : Nat) (e : Dev), e = d.twLines n d.now →
    e.twHears n = true → e.winIx n x.toNat = some w → w < 4 → e.on (TW_CFG.PEC n) = false → ∃ t : Dev,
    exec (.targetWrite n x [p] none) ⟨d, rest⟩ = .next ⟨t, rest⟩ ∧
    e.rd (TW_WIN.BASE n w) * 256 + p.toNat = ((t.winOff n w (t.twPtr n w)).getD 0) ∧ t.twPtr n w = p.toNat ∧
    t.rd (TW_STATUS.PTR n) = p.toNat ∧ (t.W n).lastWin = w ∧ t.bmc.resp = []) ∧
  (∀ (d : Dev) (rest : List Instr) (n : Fin 16) (x : BitVec 7) (bs : List Byte) (pec : Option Byte) (e : Dev), e = d.twLines n d.now →
    e.twHears n = true → e.winIx n x.toNat = none →
    exec (.targetWrite n x bs pec) ⟨d, rest⟩ = .next ⟨(e.busOut [] true).twServed n, rest⟩) ∧
  (∀ (d : Dev) (rest : List Instr) (n : Fin 16) (x : BitVec 7) (bs : List Byte) (q : Byte) (w : Nat) (e : Dev), e = d.twLines n d.now →
    e.twHears n = true → e.winIx n x.toNat = some w → e.on (TW_CFG.PEC n) = true → (w < 4 → e.on (TW_WIN.WR n w) = true) →
    bs.length ≤ ptrLen w + 32 → e.tws n ≠ Ts.target → q.toNat ≠ crc8 0 (leBytes (2 * x.toNat) 1 ++ bs) → ∃ t : Dev,
    exec (.targetWrite n x bs (some q)) ⟨d, rest⟩ = .next ⟨t, rest⟩ ∧
    t.rd (TW_CNT.PEC_ERR n) = min (e.rd (TW_CNT.PEC_ERR n) + 1) 255 ∧ (t.rd (TW_EVT.EVT n)).testBit 5 = true ∧
    t.twPtr n w = e.twPtr n w ∧ (t.W n).lastWin = w ∧ t.rd (TW_STATUS.PTR n) = e.twPtr n w ∧ t.mem = e.mem) ∧
  (∀ (d : Dev) (rest : List Instr) (n : Fin 16) (x : BitVec 7) (p b : Byte) (l : List Byte) (w : Nat) (e : Dev), e = d.twLines n d.now →
    e.twHears n = true → e.winIx n x.toNat = some w → w < 4 → e.on (TW_CFG.PEC n) = false → e.on (TW_WIN.WR n w) = false →
    ∃ t : Dev, exec (.targetWrite n x (p :: b :: l) none) ⟨d, rest⟩ = .next ⟨t, rest⟩ ∧ t.twPtr n w = p.toNat ∧
    t.bmc.nack = true ∧ t.mem = e.mem ∧ (∀ o, o ≠ (TW_STATUS.PTR n).off → t.word o = e.word o)) ∧
  (∀ (d : Dev) (rest : List Instr) (n : Fin 16) (x : BitVec 7) (p : Byte) (l : List Byte) (w : Nat) (e : Dev), e = d.twLines n d.now →
    e.twHears n = true → e.winIx n x.toNat = some w → w < 4 → e.on (TW_CFG.PEC n) = false → e.on (TW_WIN.WR n w) = true →
    exec (.targetWrite n x (p :: l) none) ⟨d, rest⟩ = .next ⟨((((e.winSeen n w false).putData n w p.toNat l false).setPtr n w (ptrAfter w p.toNat l.length)).busOut [] false).twServed n, rest⟩) ∧
  (∀ (d : Dev) (rest : List Instr) (n : Fin 16) (x : BitVec 7) (w : Nat) (e : Dev), e = d.twLines n d.now → e.twHears n = true →
    e.winIx n x.toNat = some w → e.on (TW_CFG.PEC n) = false →
    exec (.targetRead n x ⟨[], none, 0, false⟩) ⟨d, rest⟩ = .next ⟨(((e.winSeen n w true).setPtr n w (e.twPtr n w)).busOut [] false).twServed n, rest⟩) ∧
  (∀ (d : Dev) (rest : List Instr) (n : Fin 16) (x : BitVec 7) (w k : Nat) (l : Bool) (e : Dev), e = d.twLines n d.now →
    e.twHears n = true → e.winIx n x.toNat = some w → e.on (TW_CFG.PEC n) = false →
    exec (.targetRead n x ⟨[], none, k, l⟩) ⟨d, rest⟩ = .next ⟨((((e.winSeen n w true).sendBytes n w (e.twPtr n w) l none k).1.setPtr n w ((e.winSeen n w true).sendBytes n w (e.twPtr n w) l none k).2.2).busOut ((e.winSeen n w true).sendBytes n w (e.twPtr n w) l none k).2.1 false).twServed n, rest⟩) ∧
  (∀ (d : Dev) (rest : List Instr) (n : Fin 16) (x : BitVec 7) (w : Nat) (e : Dev), e = d.twLines n d.now → e.twHears n = true →
    e.winIx n x.toNat = some w → e.on (TW_CFG.PEC n) = false → ∃ t : Dev,
    exec (.targetRead n x ⟨[], none, 0, false⟩) ⟨d, rest⟩ = .next ⟨t, rest⟩ ∧ t.bmc.resp = [] ∧ t.bmc.nack = false ∧
    t.rd (TW_STATUS.PTR n) = e.twPtr n w % 2 ^ (TW_STATUS.PTR n).len ∧ (t.W n).lastWin = w ∧ (t.W n).reading = true ∧
    t.mem = e.mem) ∧
  (∀ (d : Dev) (rest : List Instr) (n : Fin 16) (x : BitVec 7) (w off : Nat) (e : Dev), e = d.twLines n d.now →
    e.twHears n = true → e.winIx n x.toNat = some w → w < 4 → e.on (TW_CFG.PEC n) = false →
    off = e.rd (TW_WIN.BASE n w) * 256 + e.twPtr n w → off / 4 * 4 = (RAIL_BAND.VMIN 0).off →
    e.regOut (twAgent n) off false = false → ∃ t : Dev,
    exec (.targetRead n x ⟨[], none, 1, true⟩) ⟨d, rest⟩ = .next ⟨t, rest⟩ ∧
    t.bmc.resp = [BitVec.ofNat 8 ((e.regWord (RAIL_BAND.VMIN 0).off).toNat / 256 ^ (off % 4))] ∧ t.bmc.nack = false ∧
    t.twPtr n w = nextRd w (e.twPtr n w)) ∧
  (∀ (d : Dev) (rest : List Instr) (n : Fin 16) (w off : Nat), d.twHears n = true → (d.W n).reading = true →
    (d.W n).lastWin = w → w ≤ 6 → inBox w (d.twPtr n w) = false → d.winOff n w (d.twPtr n w) = some off → ∃ t : Dev,
    exec (.targetStretchTimeout n) ⟨d, rest⟩ = .next ⟨t, rest⟩ ∧ t.bmc.resp = List.replicate (4 - off % 4) 0xFF ∧
    t.bmc.nack = false ∧ (t.twPtr n w = (List.range (4 - off % 4)).foldl (fun p _ => nextRd w p) (d.twPtr n w)) ∧
    t.Reports 0x70 (twAgent n) ∧ (∀ o, o ≠ (TW_STATUS.PTR n).off → t.word o = d.word o) ∧ t.mem = d.mem) ∧
  (∀ (d : Dev) (rest : List Instr) (n : Fin 16), (d.W n).reading = false →
    exec (.targetStretchTimeout n) ⟨d, rest⟩ = .next ⟨d, rest⟩) ∧
  (∀ (d : Dev) (rest : List Instr) (b : BoxSubmit) (e : Dev), e = d.twLines 0 d.now → e.twHears 0 = true →
    e.rdBit (TW_PRIV.EN 0) 1 = true → e.rd (TW_CFG.ADDR 0) < 0x70 → e.on (TW_CFG.PEC 0) = false → b.pec = none →
    (e.bmc.busy = true ∨ b.byte ≠ 1) → ∃ t : Dev, exec (.mailboxSubmit b) ⟨d, rest⟩ = .next ⟨t, rest⟩ ∧
    t.bmc.busy = e.bmc.busy ∧ t.bmc.nack = false ∧ t.host = e.host ∧ t.twPtr 0 5 = 0x8051) ∧
  (∀ (d : Dev) (rest : List Instr) (b : BoxSubmit) (e : Dev), e = d.twLines 0 d.now → e.twHears 0 = true →
    e.rdBit (TW_PRIV.EN 0) 1 = true → e.rd (TW_CFG.ADDR 0) < 0x70 → e.on (TW_CFG.PEC 0) = false → b.pec = none → b.byte = 1 →
    e.bmc.busy = false →
    exec (.mailboxSubmit b) ⟨d, rest⟩ = .next ⟨(((Dev.takeBox { e.winSeen 0 5 false with bmc := { e.bmc with busy := true } }).setPtr 0 5 0x8051).busOut [] false).twServed 0, rest⟩) ∧
  (∀ (d : Dev) (rest : List Instr) (b : BoxSubmit), (d.twLines 0 d.now).twHears 0 = true →
    (d.twLines 0 d.now).rdBit (TW_PRIV.EN 0) 1 = true → (d.twLines 0 d.now).rd (TW_CFG.ADDR 0) < 0x70 →
    (d.twLines 0 d.now).on (TW_CFG.PEC 0) = false → b.pec = none → b.byte = 1 → (d.twLines 0 d.now).bmc.busy = false →
    4096 ≤ (d.twLines 0 d.now).host.out.length → ∃ t : Dev, exec (.mailboxSubmit b) ⟨d, rest⟩ = .next ⟨t, rest⟩ ∧
    t.bmc.busy = true ∧ t.host.out = (d.twLines 0 d.now).host.out) ∧
  (∀ (d : Dev) (rest : List Instr) (b : BoxSubmit) (e : Dev), e = d.twLines 0 d.now → e.twHears 0 = true →
    e.rdBit (TW_PRIV.EN 0) 1 = true → e.rd (TW_CFG.ADDR 0) < 0x70 → e.on (TW_CFG.PEC 0) = true → b.byte = 1 →
    e.bmc.busy = false →
    b.pec.map (·.toNat) = some (crc8 0 (leBytes (2 * (e.rd (TW_CFG.ADDR 0) + 5)) 1 ++ [0x80, 0x50, b.byte])) →
    exec (.mailboxSubmit b) ⟨d, rest⟩ = .next ⟨(((Dev.takeBox { e.winSeen 0 5 false with bmc := { e.bmc with busy := true } }).setPtr 0 5 0x8051).busOut [] false).twServed 0, rest⟩) ∧
  (∀ (d : Dev) (rest : List Instr) (b : BoxSubmit) (e : Dev), e = d.twLines 0 d.now → e.twHears 0 = true →
    e.rdBit (TW_PRIV.EN 0) 1 = true → e.rd (TW_CFG.ADDR 0) < 0x70 → e.on (TW_CFG.PEC 0) = true →
    b.pec.map (·.toNat) ≠ some (crc8 0 (leBytes (2 * (e.rd (TW_CFG.ADDR 0) + 5)) 1 ++ [0x80, 0x50, b.byte])) → ∃ t : Dev,
    exec (.mailboxSubmit b) ⟨d, rest⟩ = .next ⟨t, rest⟩ ∧ t.bmc.busy = e.bmc.busy ∧ t.host = e.host ∧
    t.rd (TW_CNT.PEC_ERR 0) = min (e.rd (TW_CNT.PEC_ERR 0) + 1) 255 ∧ (t.rd (TW_EVT.EVT 0)).testBit 5 = true) ∧
  (∀ (d : Dev) (rest : List Instr) (b : BoxSubmit) (e : Dev), e = d.twLines 0 d.now → e.twHears 0 = false → ∃ t : Dev,
    exec (.mailboxSubmit b) ⟨d, rest⟩ = .next ⟨t, rest⟩ ∧ t.bmc.busy = e.bmc.busy ∧ t.bmc.nack = true ∧ t.host = e.host ∧
    t.regs = e.regs) ∧
  (∀ (d : Dev) (rest : List Instr) (x : BitVec 7) (v : Byte) (e : Dev), e = d.twLines 0 d.now → e.twHears 0 = true →
    e.winIx 0 x.toNat = none → e.atPmb 0 x.toNat = true → v.toNat ≤ 79 → ∃ t : Dev,
    exec (.targetWrite 0 x [0, v] none) ⟨d, rest⟩ = .next ⟨t, rest⟩ ∧ t.bmc.page = v.toNat ∧ t.bmc.nack = false ∧
    t.rd (TW_STATUS.PTR 0) = 0) ∧
  (∀ (d : Dev) (rest : List Instr) (x : BitVec 7) (v : Byte) (e : Dev), e = d.twLines 0 d.now → e.twHears 0 = true →
    e.winIx 0 x.toNat = none → e.atPmb 0 x.toNat = true → (e.pmbVal v.toNat).2 = .no → v ≠ 3 → ∃ t : Dev,
    exec (.targetWrite 0 x [v] none) ⟨d, rest⟩ = .next ⟨t, rest⟩ ∧ t.bmc.cml = true ∧ t.bmc.nack = true ∧
    t.bmc.page = e.bmc.page ∧ t.rd (TW_STATUS.PTR 0) = v.toNat)

/-- PMBus commands on TW0. Each read answers its value, in its format and its length, from the registers of the present page; PAGE
and CLEAR_FAULTS write; a command that the page does not have is not acknowledged and sets CML. Each clause concludes that exec
answers a next state, from premises on the state and the operands alone. Completion is so stated for: page, clearFaults,
capability, voutMode, pmbusRevision, statusWord, statusByte, readVin, readIin, readVout, readIout, readTemperature1, readPout,
readPin. (R395, R396, R397) -/
def Obligations.PmbusReads : Prop :=
  (∀ (d : Dev) (rest : List Instr) (v : Byte) (x : PmbTail) (e : Dev), e = d.twLines 0 d.now → e.pmbOn = true → v.toNat ≤ 79 →
    e.pmbPecOk 0 [v] x.pec = true → ∃ t : Dev, exec (.page (some v) x) ⟨d, rest⟩ = .next ⟨t, rest⟩ ∧ t.bmc.page = v.toNat ∧
    t.bmc.cml = e.bmc.cml ∧ t.bmc.nack = false ∧ t.rd (TW_STATUS.PTR 0) = 0) ∧
  (∀ (d : Dev) (rest : List Instr) (v : Byte) (x : PmbTail) (e : Dev), e = d.twLines 0 d.now → e.pmbOn = true → v.toNat ≤ 79 →
    e.pmbPecOk 0 [v] x.pec = false → ∃ t : Dev, exec (.page (some v) x) ⟨d, rest⟩ = .next ⟨t, rest⟩ ∧ t.bmc.page = e.bmc.page ∧
    t.bmc.cml = true ∧ t.bmc.nack = false) ∧
  (∀ (d : Dev) (rest : List Instr) (v : Byte) (x : PmbTail) (e : Dev), e = d.twLines 0 d.now → e.pmbOn = false → ∃ t : Dev,
    exec (.page (some v) x) ⟨d, rest⟩ = .next ⟨t, rest⟩ ∧ t.bmc.page = e.bmc.page ∧ t.bmc.nack = true ∧ t.regs = e.regs) ∧
  (∀ (d : Dev) (rest : List Instr) (v : Byte) (x : PmbTail) (e : Dev), e = d.twLines 0 d.now → e.pmbOn = true → 80 ≤ v.toNat →
    ∃ t : Dev, exec (.page (some v) x) ⟨d, rest⟩ = .next ⟨t, rest⟩ ∧ t.bmc.page = d.bmc.page ∧ t.bmc.cml = true ∧
    t.bmc.nack = true) ∧
  (∀ (d : Dev) (rest : List Instr) (x : PmbTail) (e : Dev), e = d.twLines 0 d.now → e.pmbOn = true →
    exec (.page none x) ⟨d, rest⟩ = .next ⟨((e.pmbIn 0x00).pmbReply [0x00] 1 d.bmc.page x.reads).twServed 0, rest⟩) ∧
  (∀ (d : Dev) (rest : List Instr) (x : PmbTail) (e : Dev), e = d.twLines 0 d.now → e.pmbOn = true → ∃ t : Dev,
    exec (.page none x) ⟨d, rest⟩ = .next ⟨t, rest⟩ ∧ t.bmc.resp.take 1 = (leBytes d.bmc.page 1).take x.reads ∧
    t.bmc.resp.length = x.reads ∧ t.bmc.nack = false ∧ t.bmc.page = e.bmc.page ∧ t.rd (TW_STATUS.PTR 0) = 0) ∧
  (∀ (d : Dev) (rest : List Instr) (x : PmbTail) (e : Dev), e = d.twLines 0 d.now → e.pmbOn = true → x.pec = none → ∃ t : Dev,
    exec (.clearFaults x) ⟨d, rest⟩ = .next ⟨t, rest⟩ ∧ t.bmc.cml = false ∧ t.bmc.page = e.bmc.page ∧
    t.rd (TW_STATUS.PTR 0) = 3) ∧
  (∀ (d : Dev) (rest : List Instr) (x : PmbTail) (e : Dev), e = d.twLines 0 d.now → e.pmbOn = true →
    exec (.capability x) ⟨d, rest⟩ = .next ⟨((e.pmbIn 0x19).pmbReply [0x19] 1 0xC0 x.reads).twServed 0, rest⟩) ∧
  (∀ (d : Dev) (rest : List Instr) (x : PmbTail) (e : Dev), e = d.twLines 0 d.now → e.pmbOn = true → ∃ t : Dev,
    exec (.capability x) ⟨d, rest⟩ = .next ⟨t, rest⟩ ∧ t.bmc.resp.take 1 = (leBytes 0xC0 1).take x.reads ∧
    t.bmc.resp.length = x.reads ∧ t.bmc.nack = false ∧ t.bmc.page = e.bmc.page ∧ t.rd (TW_STATUS.PTR 0) = 25) ∧
  (∀ (d : Dev) (rest : List Instr) (x : PmbTail) (e : Dev), e = d.twLines 0 d.now → e.pmbOn = true →
    exec (.voutMode x) ⟨d, rest⟩ = .next ⟨((e.pmbIn 0x20).pmbReply [0x20] 1 (if d.bmc.page < 64 then 0x13 else 0x18) x.reads).twServed 0, rest⟩) ∧
  (∀ (d : Dev) (rest : List Instr) (x : PmbTail) (e : Dev), e = d.twLines 0 d.now → e.pmbOn = true → ∃ t : Dev,
    exec (.voutMode x) ⟨d, rest⟩ = .next ⟨t, rest⟩ ∧
    (t.bmc.resp.take 1 = (leBytes (if d.bmc.page < 64 then 0x13 else 0x18) 1).take x.reads) ∧ t.bmc.resp.length = x.reads ∧
    t.bmc.nack = false ∧ t.bmc.page = e.bmc.page ∧ t.rd (TW_STATUS.PTR 0) = 32) ∧
  (∀ (d : Dev) (rest : List Instr) (x : PmbTail) (e : Dev), e = d.twLines 0 d.now → e.pmbOn = true →
    exec (.pmbusRevision x) ⟨d, rest⟩ = .next ⟨((e.pmbIn 0x98).pmbReply [0x98] 1 0x44 x.reads).twServed 0, rest⟩) ∧
  (∀ (d : Dev) (rest : List Instr) (x : PmbTail) (e : Dev), e = d.twLines 0 d.now → e.pmbOn = true → ∃ t : Dev,
    exec (.pmbusRevision x) ⟨d, rest⟩ = .next ⟨t, rest⟩ ∧ t.bmc.resp.take 1 = (leBytes 0x44 1).take x.reads ∧
    t.bmc.resp.length = x.reads ∧ t.bmc.nack = false ∧ t.bmc.page = e.bmc.page ∧ t.rd (TW_STATUS.PTR 0) = 152) ∧
  (∀ (d : Dev) (rest : List Instr) (x : PmbTail) (e : Dev), e = d.twLines 0 d.now → e.pmbOn = true → d.bmc.page < 64 →
    d.railLink d.bmc.page = true →
    exec (.statusWord x) ⟨d, rest⟩ = .next ⟨((e.pmbIn 0x79).pmbReply [0x79] 2 (d.railStatus d.bmc.page) x.reads).twServed 0, rest⟩) ∧
  (∀ (d : Dev) (rest : List Instr) (x : PmbTail) (e : Dev), e = d.twLines 0 d.now → e.pmbOn = true → d.bmc.page < 64 →
    d.railLink d.bmc.page = true → ∃ t : Dev, exec (.statusWord x) ⟨d, rest⟩ = .next ⟨t, rest⟩ ∧
    t.bmc.resp.take 2 = (leBytes (d.railStatus d.bmc.page) 2).take x.reads ∧ t.bmc.resp.length = x.reads ∧ t.bmc.nack = false ∧
    t.bmc.page = e.bmc.page ∧ t.rd (TW_STATUS.PTR 0) = 121) ∧
  (∀ (d : Dev) (rest : List Instr) (x : PmbTail) (e : Dev) (n : Nat), e = d.twLines 0 d.now → e.pmbOn = true → 64 ≤ d.bmc.page →
    d.dieOut 4 = false → n = d.bmc.page - 64 →
    exec (.statusWord x) ⟨d, rest⟩ = .next ⟨((e.pmbIn 0x79).pmbReply [0x79] 2 (d.entryStatus n) x.reads).twServed 0, rest⟩) ∧
  (∀ (d : Dev) (rest : List Instr) (x : PmbTail) (e : Dev) (n : Nat), e = d.twLines 0 d.now → e.pmbOn = true → 64 ≤ d.bmc.page →
    d.dieOut 4 = false → n = d.bmc.page - 64 → ∃ t : Dev, exec (.statusWord x) ⟨d, rest⟩ = .next ⟨t, rest⟩ ∧
    t.bmc.resp.take 2 = (leBytes (d.entryStatus n) 2).take x.reads ∧ t.bmc.resp.length = x.reads ∧ t.bmc.nack = false ∧
    t.bmc.page = e.bmc.page ∧ t.rd (TW_STATUS.PTR 0) = 121) ∧
  (∀ (d : Dev) (rest : List Instr) (x : PmbTail) (e : Dev), e = d.twLines 0 d.now → e.pmbOn = true → d.bmc.page < 64 →
    d.railLink d.bmc.page = true →
    exec (.statusByte x) ⟨d, rest⟩ = .next ⟨((e.pmbIn 0x78).pmbReply [0x78] 1 (d.railStatus d.bmc.page % 256) x.reads).twServed 0, rest⟩) ∧
  (∀ (d : Dev) (rest : List Instr) (x : PmbTail) (e : Dev), e = d.twLines 0 d.now → e.pmbOn = true → d.bmc.page < 64 →
    d.railLink d.bmc.page = true → ∃ t : Dev, exec (.statusByte x) ⟨d, rest⟩ = .next ⟨t, rest⟩ ∧
    t.bmc.resp.take 1 = (leBytes (d.railStatus d.bmc.page % 256) 1).take x.reads ∧ t.bmc.resp.length = x.reads ∧
    t.bmc.nack = false ∧ t.bmc.page = e.bmc.page ∧ t.rd (TW_STATUS.PTR 0) = 120) ∧
  (∀ (d : Dev) (rest : List Instr) (x : PmbTail) (e : Dev) (n : Nat), e = d.twLines 0 d.now → e.pmbOn = true → 64 ≤ d.bmc.page →
    d.dieOut 4 = false → n = d.bmc.page - 64 →
    exec (.statusByte x) ⟨d, rest⟩ = .next ⟨((e.pmbIn 0x78).pmbReply [0x78] 1 (d.entryStatus n % 256) x.reads).twServed 0, rest⟩) ∧
  (∀ (d : Dev) (rest : List Instr) (x : PmbTail) (e : Dev) (n : Nat), e = d.twLines 0 d.now → e.pmbOn = true → 64 ≤ d.bmc.page →
    d.dieOut 4 = false → n = d.bmc.page - 64 → ∃ t : Dev, exec (.statusByte x) ⟨d, rest⟩ = .next ⟨t, rest⟩ ∧
    t.bmc.resp.take 1 = (leBytes (d.entryStatus n % 256) 1).take x.reads ∧ t.bmc.resp.length = x.reads ∧ t.bmc.nack = false ∧
    t.bmc.page = e.bmc.page ∧ t.rd (TW_STATUS.PTR 0) = 120) ∧
  (∀ (d : Dev) (rest : List Instr) (x : PmbTail) (e : Dev) (n : Nat), e = d.twLines 0 d.now → e.pmbOn = true → 64 ≤ d.bmc.page →
    d.dieOut 4 = false → n = d.bmc.page - 64 →
    exec (.readVin x) ⟨d, rest⟩ = .next ⟨((e.pmbIn 0x88).pmbReply [0x88] 2 (linear11 ((d.E n).vin * 46875) 10000000) x.reads).twServed 0, rest⟩) ∧
  (∀ (d : Dev) (rest : List Instr) (x : PmbTail) (e : Dev) (n : Nat), e = d.twLines 0 d.now → e.pmbOn = true → 64 ≤ d.bmc.page →
    d.dieOut 4 = false → n = d.bmc.page - 64 → ∃ t : Dev, exec (.readVin x) ⟨d, rest⟩ = .next ⟨t, rest⟩ ∧
    t.bmc.resp.take 2 = (leBytes (linear11 ((d.E n).vin * 46875) 10000000) 2).take x.reads ∧ t.bmc.resp.length = x.reads ∧
    t.bmc.nack = false ∧ t.bmc.page = e.bmc.page ∧ t.rd (TW_STATUS.PTR 0) = 136) ∧
  (∀ (d : Dev) (rest : List Instr) (x : PmbTail) (e : Dev) (p b : Nat), e = d.twLines 0 d.now → e.pmbOn = true →
    d.bmc.page < 64 → d.railLink d.bmc.page = true → (d.warp d.bmc.page).head? = some p → d.phBranch p = some b →
    exec (.readVin x) ⟨d, rest⟩ = .next ⟨((e.pmbIn 0x88).pmbReply [0x88] 2 (linear11 ((d.B b).vin * 46875) 10000000) x.reads).twServed 0, rest⟩) ∧
  (∀ (d : Dev) (rest : List Instr) (x : PmbTail) (e : Dev) (p b : Nat), e = d.twLines 0 d.now → e.pmbOn = true →
    d.bmc.page < 64 → d.railLink d.bmc.page = true → (d.warp d.bmc.page).head? = some p → d.phBranch p = some b → ∃ t : Dev,
    exec (.readVin x) ⟨d, rest⟩ = .next ⟨t, rest⟩ ∧
    t.bmc.resp.take 2 = (leBytes (linear11 ((d.B b).vin * 46875) 10000000) 2).take x.reads ∧ t.bmc.resp.length = x.reads ∧
    t.bmc.nack = false ∧ t.bmc.page = e.bmc.page ∧ t.rd (TW_STATUS.PTR 0) = 136) ∧
  (∀ (d : Dev) (rest : List Instr) (x : PmbTail) (e : Dev) (n : Nat), e = d.twLines 0 d.now → e.pmbOn = true → 64 ≤ d.bmc.page →
    d.dieOut 4 = false → n = d.bmc.page - 64 → d.rd (ENT_SHUNT.RSHUNT n) ≠ 0 →
    exec (.readIin x) ⟨d, rest⟩ = .next ⟨((e.pmbIn 0x89).pmbReply [0x89] 2 (linear11 ((d.E n).i * 750000) (8192 * d.rd (ENT_SHUNT.RSHUNT n))) x.reads).twServed 0, rest⟩) ∧
  (∀ (d : Dev) (rest : List Instr) (x : PmbTail) (e : Dev) (n : Nat), e = d.twLines 0 d.now → e.pmbOn = true → 64 ≤ d.bmc.page →
    d.dieOut 4 = false → n = d.bmc.page - 64 → d.rd (ENT_SHUNT.RSHUNT n) ≠ 0 → ∃ t : Dev,
    exec (.readIin x) ⟨d, rest⟩ = .next ⟨t, rest⟩ ∧
    t.bmc.resp.take 2 = (leBytes (linear11 ((d.E n).i * 750000) (8192 * d.rd (ENT_SHUNT.RSHUNT n))) 2).take x.reads ∧
    t.bmc.resp.length = x.reads ∧ t.bmc.nack = false ∧ t.bmc.page = e.bmc.page ∧ t.rd (TW_STATUS.PTR 0) = 137) ∧
  (∀ (d : Dev) (rest : List Instr) (x : PmbTail) (e : Dev), e = d.twLines 0 d.now → e.pmbOn = true → d.bmc.page < 64 →
    d.railLink d.bmc.page = true →
    exec (.readVout x) ⟨d, rest⟩ = .next ⟨((e.pmbIn 0x8B).pmbReply [0x8B] 2 (linear16 (d.rd (RAIL_VMEAS.VMEAS d.bmc.page)) 32000 13) x.reads).twServed 0, rest⟩) ∧
  (∀ (d : Dev) (rest : List Instr) (x : PmbTail) (e : Dev), e = d.twLines 0 d.now → e.pmbOn = true → d.bmc.page < 64 →
    d.railLink d.bmc.page = true → ∃ t : Dev, exec (.readVout x) ⟨d, rest⟩ = .next ⟨t, rest⟩ ∧
    t.bmc.resp.take 2 = (leBytes (linear16 (d.rd (RAIL_VMEAS.VMEAS d.bmc.page)) 32000 13) 2).take x.reads ∧
    t.bmc.resp.length = x.reads ∧ t.bmc.nack = false ∧ t.bmc.page = e.bmc.page ∧ t.rd (TW_STATUS.PTR 0) = 139) ∧
  (∀ (d : Dev) (rest : List Instr) (x : PmbTail) (e : Dev) (n : Nat), e = d.twLines 0 d.now → e.pmbOn = true → 64 ≤ d.bmc.page →
    d.dieOut 4 = false → n = d.bmc.page - 64 →
    exec (.readVout x) ⟨d, rest⟩ = .next ⟨((e.pmbIn 0x8B).pmbReply [0x8B] 2 (linear16 ((d.E n).vout * 46875) 10000000 8) x.reads).twServed 0, rest⟩) ∧
  (∀ (d : Dev) (rest : List Instr) (x : PmbTail) (e : Dev) (n : Nat), e = d.twLines 0 d.now → e.pmbOn = true → 64 ≤ d.bmc.page →
    d.dieOut 4 = false → n = d.bmc.page - 64 → ∃ t : Dev, exec (.readVout x) ⟨d, rest⟩ = .next ⟨t, rest⟩ ∧
    t.bmc.resp.take 2 = (leBytes (linear16 ((d.E n).vout * 46875) 10000000 8) 2).take x.reads ∧ t.bmc.resp.length = x.reads ∧
    t.bmc.nack = false ∧ t.bmc.page = e.bmc.page ∧ t.rd (TW_STATUS.PTR 0) = 139) ∧
  (∀ (d : Dev) (rest : List Instr) (x : PmbTail) (e : Dev), e = d.twLines 0 d.now → e.pmbOn = true → d.bmc.page < 64 →
    d.railLink d.bmc.page = true →
    exec (.readIout x) ⟨d, rest⟩ = .next ⟨((e.pmbIn 0x8C).pmbReply [0x8C] 2 (linear11 (d.rds (RAIL_IMEAS.IMEAS d.bmc.page)) 16) x.reads).twServed 0, rest⟩) ∧
  (∀ (d : Dev) (rest : List Instr) (x : PmbTail) (e : Dev), e = d.twLines 0 d.now → e.pmbOn = true → d.bmc.page < 64 →
    d.railLink d.bmc.page = true → ∃ t : Dev, exec (.readIout x) ⟨d, rest⟩ = .next ⟨t, rest⟩ ∧
    t.bmc.resp.take 2 = (leBytes (linear11 (d.rds (RAIL_IMEAS.IMEAS d.bmc.page)) 16) 2).take x.reads ∧
    t.bmc.resp.length = x.reads ∧ t.bmc.nack = false ∧ t.bmc.page = e.bmc.page ∧ t.rd (TW_STATUS.PTR 0) = 140) ∧
  (∀ (d : Dev) (rest : List Instr) (x : PmbTail) (e : Dev) (n : Nat), e = d.twLines 0 d.now → e.pmbOn = true → 64 ≤ d.bmc.page →
    d.dieOut 4 = false → n = d.bmc.page - 64 →
    exec (.readTemperature1 x) ⟨d, rest⟩ = .next ⟨((e.pmbIn 0x8D).pmbReply [0x8D] 2 (linear11 (d.rds (ENT_STATUS.TJ_EST n)) 20) x.reads).twServed 0, rest⟩) ∧
  (∀ (d : Dev) (rest : List Instr) (x : PmbTail) (e : Dev) (n : Nat), e = d.twLines 0 d.now → e.pmbOn = true → 64 ≤ d.bmc.page →
    d.dieOut 4 = false → n = d.bmc.page - 64 → ∃ t : Dev, exec (.readTemperature1 x) ⟨d, rest⟩ = .next ⟨t, rest⟩ ∧
    t.bmc.resp.take 2 = (leBytes (linear11 (d.rds (ENT_STATUS.TJ_EST n)) 20) 2).take x.reads ∧ t.bmc.resp.length = x.reads ∧
    t.bmc.nack = false ∧ t.bmc.page = e.bmc.page ∧ t.rd (TW_STATUS.PTR 0) = 141) ∧
  (∀ (d : Dev) (rest : List Instr) (x : PmbTail) (e : Dev), e = d.twLines 0 d.now → e.pmbOn = true → d.bmc.page < 64 →
    d.railLink d.bmc.page = true →
    exec (.readPout x) ⟨d, rest⟩ = .next ⟨((e.pmbIn 0x96).pmbReply [0x96] 2 (linear11 (d.rd (RAIL_PMEAS.PMEAS d.bmc.page)) 10) x.reads).twServed 0, rest⟩) ∧
  (∀ (d : Dev) (rest : List Instr) (x : PmbTail) (e : Dev), e = d.twLines 0 d.now → e.pmbOn = true → d.bmc.page < 64 →
    d.railLink d.bmc.page = true → ∃ t : Dev, exec (.readPout x) ⟨d, rest⟩ = .next ⟨t, rest⟩ ∧
    t.bmc.resp.take 2 = (leBytes (linear11 (d.rd (RAIL_PMEAS.PMEAS d.bmc.page)) 10) 2).take x.reads ∧
    t.bmc.resp.length = x.reads ∧ t.bmc.nack = false ∧ t.bmc.page = e.bmc.page ∧ t.rd (TW_STATUS.PTR 0) = 150) ∧
  (∀ (d : Dev) (rest : List Instr) (x : PmbTail) (e : Dev) (n : Nat), e = d.twLines 0 d.now → e.pmbOn = true → 64 ≤ d.bmc.page →
    d.dieOut 4 = false → n = d.bmc.page - 64 → d.rd (ENT_SHUNT.RSHUNT n) ≠ 0 →
    exec (.readPin x) ⟨d, rest⟩ = .next ⟨((e.pmbIn 0x97).pmbReply [0x97] 2 (linear11 ((d.E n).vin * 46875 * ((d.E n).i * 750000)) (10000000 * (8192 * d.rd (ENT_SHUNT.RSHUNT n)))) x.reads).twServed 0, rest⟩) ∧
  (∀ (d : Dev) (rest : List Instr) (x : PmbTail) (e : Dev) (n : Nat), e = d.twLines 0 d.now → e.pmbOn = true → 64 ≤ d.bmc.page →
    d.dieOut 4 = false → n = d.bmc.page - 64 → d.rd (ENT_SHUNT.RSHUNT n) ≠ 0 → ∃ t : Dev,
    exec (.readPin x) ⟨d, rest⟩ = .next ⟨t, rest⟩ ∧
    t.bmc.resp.take 2 = (leBytes (linear11 ((d.E n).vin * 46875 * ((d.E n).i * 750000)) (10000000 * (8192 * d.rd (ENT_SHUNT.RSHUNT n)))) 2).take x.reads ∧
    t.bmc.resp.length = x.reads ∧ t.bmc.nack = false ∧ t.bmc.page = e.bmc.page ∧ t.rd (TW_STATUS.PTR 0) = 151) ∧
  (∀ (d : Dev) (rest : List Instr) (x : PmbTail) (e : Dev), e = d.twLines 0 d.now → e.pmbOn = true → d.bmc.page < 64 → ∃ t : Dev,
    exec (.readIin x) ⟨d, rest⟩ = .next ⟨t, rest⟩ ∧ t.bmc.nack = true ∧ t.bmc.cml = true ∧ t.bmc.resp = []) ∧
  (∀ (d : Dev) (rest : List Instr) (x : PmbTail) (e : Dev), e = d.twLines 0 d.now → e.pmbOn = true → d.bmc.page < 64 → ∃ t : Dev,
    exec (.readTemperature1 x) ⟨d, rest⟩ = .next ⟨t, rest⟩ ∧ t.bmc.nack = true ∧ t.bmc.cml = true ∧ t.bmc.resp = []) ∧
  (∀ (d : Dev) (rest : List Instr) (x : PmbTail) (e : Dev), e = d.twLines 0 d.now → e.pmbOn = true → d.bmc.page < 64 → ∃ t : Dev,
    exec (.readPin x) ⟨d, rest⟩ = .next ⟨t, rest⟩ ∧ t.bmc.nack = true ∧ t.bmc.cml = true ∧ t.bmc.resp = []) ∧
  (∀ (d : Dev) (rest : List Instr) (x : PmbTail) (e : Dev), e = d.twLines 0 d.now → e.pmbOn = true → 64 ≤ d.bmc.page → ∃ t : Dev,
    exec (.readIout x) ⟨d, rest⟩ = .next ⟨t, rest⟩ ∧ t.bmc.nack = true ∧ t.bmc.cml = true ∧ t.bmc.resp = []) ∧
  (∀ (d : Dev) (rest : List Instr) (x : PmbTail) (e : Dev), e = d.twLines 0 d.now → e.pmbOn = true → 64 ≤ d.bmc.page → ∃ t : Dev,
    exec (.readPout x) ⟨d, rest⟩ = .next ⟨t, rest⟩ ∧ t.bmc.nack = true ∧ t.bmc.cml = true ∧ t.bmc.resp = [])

/-- The stream link: training, flits, credits and lanes. Codewords lock a lane, agreement brings the link UP, a flit slot sends
TRAIN, CTRL, DATA or IDLE, credit and decimation follow their counters, and a lost peer or a closed window trains again. Each
clause concludes that exec answers a next state, from premises on the state and the operands alone. Completion is so stated for:
flitSlot, codewordReceive, peerCtrl, peerTrain, linkUp, trainTimeout, streamPeer, streamLane, blockFlush, decimationChange.
(R355, R357, R360, R361, R362, R363, R364, R365, R367, R369, R372) -/
def Obligations.StreamLink : Prop :=
  (∀ (d : Dev) (rest : List Instr), d.ls = Ls.up → d.now < d.stream.ctrlAt → d.vcNext = none →
    exec (.flitSlot) ⟨d, rest⟩ = .next ⟨d.flitOut (flitOf 0 0 0 63 []) d.txUse, rest⟩) ∧
  (∀ (d : Dev) (rest : List Instr), d.ls = Ls.up → d.stream.ctrlAt ≤ d.now → ∃ t : Dev,
    exec (.flitSlot) ⟨d, rest⟩ = .next ⟨t, rest⟩ ∧ t.stream.txOut = flitOf 2 0 0 63 d.ctrlPay :: d.stream.txOut ∧
    t.stream.ctrlAt = (d.now / 800 + 1) * 800) ∧
  (∀ (d : Dev) (rest : List Instr) (v : Nat), d.ls = Ls.up → d.now < d.stream.ctrlAt → d.vcNext = some v →
    exec (.flitSlot) ⟨d, rest⟩ = .next ⟨d.dataFlit v, rest⟩) ∧
  (∀ (d : Dev) (rest : List Instr), d.slTrains = true → d.txLanes ≠ 0 →
    exec (.flitSlot) ⟨d, rest⟩ = .next ⟨d.flitOut (flitOf 3 0 0 63 (leBytes (b2n d.slReady) 1 ++ leBytes (d.rd SL_STATUS.RX_LOCK) 1 ++ leBytes d.txUse 1 ++ [0])) d.txLanes, rest⟩) ∧
  (∀ (d : Dev) (rest : List Instr) (n : Fin 8) (m : Codeword), m.wf = true → m.sync = true → m.uncorrectable = false →
    d.looped = false → d.ls ≠ Ls.off → d.rxLanes.testBit n = true → d.rdBit SL_STATUS.RX_LOCK n = false →
    nget d.stream.lockN n = 3 → ∃ t : Dev, exec (.codewordReceive n m) ⟨d, rest⟩ = .next ⟨t, rest⟩ ∧
    t.rdBit SL_STATUS.RX_LOCK n = true ∧ t.stream.agree = 0 ∧ nget t.stream.lockN n = 0 ∧
    t.rd SL_STATUS.LSTATE = d.rd SL_STATUS.LSTATE) ∧
  (∀ (d : Dev) (rest : List Instr) (n : Fin 8) (m : Codeword), m.wf = true → m.sync = true → m.uncorrectable = false →
    d.looped = false → d.ls ≠ Ls.off → d.rxLanes.testBit n = true → d.rdBit SL_STATUS.RX_LOCK n = false →
    nget d.stream.lockN n < 3 → ∃ t : Dev, exec (.codewordReceive n m) ⟨d, rest⟩ = .next ⟨t, rest⟩ ∧
    t.rdBit SL_STATUS.RX_LOCK n = false ∧ nget t.stream.lockN n = nget d.stream.lockN n + 1) ∧
  (∀ (d : Dev) (rest : List Instr) (n : Fin 8) (m : Codeword), m.wf = true → m.uncorrectable = true → d.looped = false →
    d.ls = Ls.up → d.rxUse.testBit n = true → nget d.stream.badN n = 3 → ∃ t : Dev,
    exec (.codewordReceive n m) ⟨d, rest⟩ = .next ⟨t, rest⟩ ∧ t.rdBit SL_STATUS.RX_LOCK n = false ∧
    t.stream.failing.testBit (8 + n) = true ∧ t.rd (SL_RXFEC.UNCORR n) = min (d.rd (SL_RXFEC.UNCORR n) + 1) 65535) ∧
  (∀ (d : Dev) (rest : List Instr) (p : List Byte), p.length = 252 → d.ls = Ls.up → closed d.now d.stream.peerAt 3200 = false →
    (p.drop 35).all (· = 0) = true → leNat p 32 2 = 0 → ∃ t : Dev, exec (.peerCtrl p) ⟨d, rest⟩ = .next ⟨t, rest⟩ ∧
    t.stream.peerAt = some d.now ∧ t.stream.txBad = byteAt p 34 ∧ t.regs = d.regs) ∧
  (∀ (d : Dev) (rest : List Instr) (p : List Byte) (v : Fin 16), p.length = 252 → d.ls = Ls.up →
    closed d.now d.stream.peerAt 3200 = false → (p.drop 35).all (· = 0) = true → leNat p 32 2 = 2 ^ v.val →
    (leNat p (2 * v) 2 + 65536 - d.rd (VC_CREDIT.LIMIT v)) % 65536 ≤ 32768 → ∃ t : Dev,
    exec (.peerCtrl p) ⟨d, rest⟩ = .next ⟨t, rest⟩ ∧ t.rd (VC_CREDIT.LIMIT v) = leNat p (2 * v) 2 ∧
    t.rd (VC_CREDIT.SENT v) = d.rd (VC_CREDIT.SENT v) ∧ t.stream.peerAt = some d.now) ∧
  (∀ (d : Dev) (rest : List Instr) (p : List Byte), p.length = 252 → d.ls = Ls.up → closed d.now d.stream.peerAt 3200 = false →
    (p.drop 35).all (· = 0) = false → exec (.peerCtrl p) ⟨d, rest⟩ = .next ⟨d, rest⟩) ∧
  (∀ (d : Dev) (rest : List Instr) (p : List Byte), p.length = 252 → d.slTrains = true → (p.drop 3).all (· = 0) = true →
    ∃ t : Dev, exec (.peerTrain p) ⟨d, rest⟩ = .next ⟨t, rest⟩ ∧ t.stream.peerLock = byteAt p 1 ∧
    t.stream.peerSend = byteAt p 2 ∧ t.stream.peerRdy = (byteAt p 0 == 1) ∧ t.rd SL_STATUS.LSTATE = d.rd SL_STATUS.LSTATE) ∧
  (∀ (d : Dev) (rest : List Instr), d.slTrains = true → d.now < d.stream.trainAt + d.trainLen → 16 ≤ d.stream.agree →
    d.stream.cwc % 16 = 0 → d.txUse ≠ 0 → ∃ t : Dev, exec (.linkUp) ⟨d, rest⟩ = .next ⟨t, rest⟩ ∧ t.rd SL_STATUS.LSTATE = 2 ∧
    (t.rd SL_EVT.EVT).testBit 0 = true ∧ t.rd SL_STATUS.TX_LIVE = d.txUse ∧
    (∀ v, v < 16 → t.rd (VC_CREDIT.LIMIT v) = 0 ∧ t.rd (VC_CREDIT.SENT v) = 0 ∧ t.rd (VC_CNT.K v) = 0)) ∧
  (∀ (d : Dev) (rest : List Instr), d.slTrains = true → d.stream.trainAt + d.trainLen ≤ d.now → d.rxUse = 0 → ∃ t : Dev,
    exec (.trainTimeout) ⟨d, rest⟩ = .next ⟨t, rest⟩ ∧ t.rd SL_STATUS.LSTATE = 1 ∧
    t.rd SL_CNT.SEEK_MISS = min (d.rd SL_CNT.SEEK_MISS + 1) 255 ∧ t.stream.trainAt = d.now ∧ t.stream.agree = 0) ∧
  (∀ (d : Dev) (rest : List Instr) (k : Nat), d.ls = Ls.up → d.stream.peerAt = some k → k + 3200 ≤ d.now → ∃ t : Dev,
    exec (.streamPeer) ⟨d, rest⟩ = .next ⟨t, rest⟩ ∧ t.rd SL_STATUS.LSTATE = 1 ∧
    t.rd SL_CNT.PEER_LOST = min (d.rd SL_CNT.PEER_LOST + 1) 255 ∧ t.stream.peerLock = 0 ∧ t.Reports 0x79 0) ∧
  (∀ (d : Dev) (rest : List Instr) (n : Fin 16), d.ls = Ls.up → d.laneOn n = true → d.stream.failing.testBit n = true →
    d.lastLane n = false → d.rxLanes ≠ 0 → n.val < 8 → ∃ t : Dev, exec (.streamLane n) ⟨d, rest⟩ = .next ⟨t, rest⟩ ∧
    t.rdBit SL_FENCED.TX n = true ∧ t.rd SL_STATUS.LSTATE = 3 ∧ t.Reports 0x78 n ∧ (t.rd SL_EVT.EVT).testBit 3 = true) ∧
  (∀ (d : Dev) (rest : List Instr) (k : Fin 4096) (g : BitVec 12) (b : Block), ((d.T k).blocks.find? (fun b => b.btype == 2 || b.tag % 4096 == g.toNat) = some b) →
    b.since + d.flushT ≤ d.now → exec (.blockFlush k g) ⟨d, rest⟩ = .next ⟨d.closeBlk k b, rest⟩) ∧
  (∀ (d : Dev) (rest : List Instr) (k : Fin 4096) (g : BitVec 12) (b : Block) (v : Nat), ((d.T k).blocks.find? (fun b => b.btype == 2 || b.tag % 4096 == g.toNat) = some b) →
    b.since + d.flushT ≤ d.now → d.tDest k = 2 → v = d.tIdx k % 16 → d.vcEnabled v = true → d.tAuto b.thread = true →
    b.thread = k.val → d.vcFits v b.len = true → 2 ≤ b.entries.length → ∃ t : Dev,
    exec (.blockFlush k g) ⟨d, rest⟩ = .next ⟨t, rest⟩ ∧ ((t.T k).blocks = (d.T k).blocks.filter fun y => y ≠ b) ∧
    (t.T k).lost = 0 ∧
    (((t.V v).q.map fun y => (y.tag, y.entries, y.stamp)) = ((d.V v).q.map fun y => (y.tag, y.entries, y.stamp)) ++ [(b.tag, b.entries, b.stamp)]) ∧
    (((t.V v).q.getLast?.map fun y => y.dropped) = some (d.T k).lost)) ∧
  (∀ (d : Dev) (rest : List Instr) (k : Fin 4096) (g : BitVec 12) (b : Block), ((d.T k).blocks.find? (fun b => b.btype == 2 || b.tag % 4096 == g.toNat) = some b) →
    d.now < b.since + d.flushT → exec (.blockFlush k g) ⟨d, rest⟩ = .next ⟨d, rest⟩) ∧
  (∀ (d : Dev) (rest : List Instr) (v : Fin 16) (k : Nat), inside d.now (d.V v).holdAt (d.rd SL_DEC.DEC_HOLD) = false →
    d.decK v = some k → d.openThreads = [] → ∃ t : Dev, exec (.decimationChange v) ⟨d, rest⟩ = .next ⟨t, rest⟩ ∧
    t.rd (VC_CNT.K v) = k ∧ (t.V v).holdAt = some d.now ∧ (∀ o, o ≠ (VC_CNT.K v).off → t.word o = d.word o))

/-- Core instructions: sums, logic, shifts and selection. Operands are evaluated in their order, the flags follow the result, and
the result goes to the destination before the core moves on. Each clause concludes that exec answers a next state, from premises
on the state and the operands alone. Completion is so stated for: add, sub, and, or, xor, asl, asr, lsr, min, max, bset, bclr,
lim. (R410, R412, R413) -/
def Obligations.AdditiveInsns : Prop :=
  (∀ (d : Dev) (rest : List Instr) (c : Fin 21) (i : Insn) (w : Dev) (pd pa pb : Spec) (l : Place) (a b : Nat) (w1 w2 w3 w4 : Dev), d.ks c = Ks.running →
    Gives (fetchInsn c (d.K c).pc) d i w → i.op = 0x08 → condHolds i.cond (w.K c).flags = true → i.specs = [pd, pa, pb] →
    Gives (target c i i.ty pd) w l w1 → Gives (source c i i.ty pa) w1 a w2 → Gives (source c i i.ty pb) w2 b w3 →
    (Gives (result c i.ty l (aluAdd i.ty i.s a b).val) (w3.onK c fun x => { x with flags := (aluAdd i.ty i.s a b).flags x.flags }) () w4) →
    exec (.add c) ⟨d, rest⟩ = .next ⟨w4.retire c i.next .fall, rest⟩) ∧
  (∀ (d : Dev) (rest : List Instr) (c : Fin 21) (i : Insn) (w : Dev) (pd pa pb : Spec) (l : Place) (a b : Nat) (w1 w2 w3 w4 : Dev), d.ks c = Ks.running →
    Gives (fetchInsn c (d.K c).pc) d i w → i.op = 0x09 → condHolds i.cond (w.K c).flags = true → i.specs = [pd, pa, pb] →
    Gives (target c i i.ty pd) w l w1 → Gives (source c i i.ty pa) w1 a w2 → Gives (source c i i.ty pb) w2 b w3 →
    (Gives (result c i.ty l (aluSub i.ty i.s a b).val) (w3.onK c fun x => { x with flags := (aluSub i.ty i.s a b).flags x.flags }) () w4) →
    exec (.sub c) ⟨d, rest⟩ = .next ⟨w4.retire c i.next .fall, rest⟩) ∧
  (∀ (d : Dev) (rest : List Instr) (c : Fin 21) (i : Insn) (w : Dev) (pd pa pb : Spec) (l : Place) (a b : Nat) (w1 w2 w3 w4 : Dev), d.ks c = Ks.running →
    Gives (fetchInsn c (d.K c).pc) d i w → i.op = 0x24 → condHolds i.cond (w.K c).flags = true → i.specs = [pd, pa, pb] →
    Gives (target c i i.ty pd) w l w1 → Gives (source c i i.ty pa) w1 a w2 → Gives (source c i i.ty pb) w2 b w3 →
    (Gives (result c i.ty l (aluBits i.ty (a &&& b)).val) (w3.onK c fun x => { x with flags := (aluBits i.ty (a &&& b)).flags x.flags }) () w4) →
    exec (.and c) ⟨d, rest⟩ = .next ⟨w4.retire c i.next .fall, rest⟩) ∧
  (∀ (d : Dev) (rest : List Instr) (c : Fin 21) (i : Insn) (w : Dev) (pd pa pb : Spec) (l : Place) (a b : Nat) (w1 w2 w3 w4 : Dev), d.ks c = Ks.running →
    Gives (fetchInsn c (d.K c).pc) d i w → i.op = 0x25 → condHolds i.cond (w.K c).flags = true → i.specs = [pd, pa, pb] →
    Gives (target c i i.ty pd) w l w1 → Gives (source c i i.ty pa) w1 a w2 → Gives (source c i i.ty pb) w2 b w3 →
    (Gives (result c i.ty l (aluBits i.ty (a ||| b)).val) (w3.onK c fun x => { x with flags := (aluBits i.ty (a ||| b)).flags x.flags }) () w4) →
    exec (.or c) ⟨d, rest⟩ = .next ⟨w4.retire c i.next .fall, rest⟩) ∧
  (∀ (d : Dev) (rest : List Instr) (c : Fin 21) (i : Insn) (w : Dev) (pd pa pb : Spec) (l : Place) (a b : Nat) (w1 w2 w3 w4 : Dev), d.ks c = Ks.running →
    Gives (fetchInsn c (d.K c).pc) d i w → i.op = 0x26 → condHolds i.cond (w.K c).flags = true → i.specs = [pd, pa, pb] →
    Gives (target c i i.ty pd) w l w1 → Gives (source c i i.ty pa) w1 a w2 → Gives (source c i i.ty pb) w2 b w3 →
    (Gives (result c i.ty l (aluBits i.ty (a ^^^ b)).val) (w3.onK c fun x => { x with flags := (aluBits i.ty (a ^^^ b)).flags x.flags }) () w4) →
    exec (.xor c) ⟨d, rest⟩ = .next ⟨w4.retire c i.next .fall, rest⟩) ∧
  (∀ (d : Dev) (rest : List Instr) (c : Fin 21) (i : Insn) (w : Dev) (pd ps : Spec) (l : Place) (a b : Nat) (w1 w2 w3 : Dev), d.ks c = Ks.running →
    Gives (fetchInsn c (d.K c).pc) d i w → i.op = 0x08 → condHolds i.cond (w.K c).flags = true → i.specs = [pd, ps] →
    Gives (updated c i i.ty pd) w (l, a) w1 → Gives (source c i i.ty ps) w1 b w2 →
    (Gives (result c i.ty l (aluAdd i.ty i.s a b).val) (w2.onK c fun x => { x with flags := (aluAdd i.ty i.s a b).flags x.flags }) () w3) →
    exec (.add c) ⟨d, rest⟩ = .next ⟨w3.retire c i.next .fall, rest⟩) ∧
  (∀ (d : Dev) (rest : List Instr) (c : Fin 21) (i : Insn) (w : Dev) (pd ps : Spec) (l : Place) (a b : Nat) (w1 w2 w3 : Dev), d.ks c = Ks.running →
    Gives (fetchInsn c (d.K c).pc) d i w → i.op = 0x09 → condHolds i.cond (w.K c).flags = true → i.specs = [pd, ps] →
    Gives (updated c i i.ty pd) w (l, a) w1 → Gives (source c i i.ty ps) w1 b w2 →
    (Gives (result c i.ty l (aluSub i.ty i.s a b).val) (w2.onK c fun x => { x with flags := (aluSub i.ty i.s a b).flags x.flags }) () w3) →
    exec (.sub c) ⟨d, rest⟩ = .next ⟨w3.retire c i.next .fall, rest⟩) ∧
  (∀ (d : Dev) (rest : List Instr) (c : Fin 21) (i : Insn) (w : Dev) (pd ps : Spec) (l : Place) (a b : Nat) (w1 w2 w3 : Dev), d.ks c = Ks.running →
    Gives (fetchInsn c (d.K c).pc) d i w → i.op = 0x24 → condHolds i.cond (w.K c).flags = true → i.specs = [pd, ps] →
    Gives (updated c i i.ty pd) w (l, a) w1 → Gives (source c i i.ty ps) w1 b w2 →
    (Gives (result c i.ty l (aluBits i.ty (a &&& b)).val) (w2.onK c fun x => { x with flags := (aluBits i.ty (a &&& b)).flags x.flags }) () w3) →
    exec (.and c) ⟨d, rest⟩ = .next ⟨w3.retire c i.next .fall, rest⟩) ∧
  (∀ (d : Dev) (rest : List Instr) (c : Fin 21) (i : Insn) (w : Dev) (pd ps : Spec) (l : Place) (a b : Nat) (w1 w2 w3 : Dev), d.ks c = Ks.running →
    Gives (fetchInsn c (d.K c).pc) d i w → i.op = 0x25 → condHolds i.cond (w.K c).flags = true → i.specs = [pd, ps] →
    Gives (updated c i i.ty pd) w (l, a) w1 → Gives (source c i i.ty ps) w1 b w2 →
    (Gives (result c i.ty l (aluBits i.ty (a ||| b)).val) (w2.onK c fun x => { x with flags := (aluBits i.ty (a ||| b)).flags x.flags }) () w3) →
    exec (.or c) ⟨d, rest⟩ = .next ⟨w3.retire c i.next .fall, rest⟩) ∧
  (∀ (d : Dev) (rest : List Instr) (c : Fin 21) (i : Insn) (w : Dev) (pd ps : Spec) (l : Place) (a b : Nat) (w1 w2 w3 : Dev), d.ks c = Ks.running →
    Gives (fetchInsn c (d.K c).pc) d i w → i.op = 0x26 → condHolds i.cond (w.K c).flags = true → i.specs = [pd, ps] →
    Gives (updated c i i.ty pd) w (l, a) w1 → Gives (source c i i.ty ps) w1 b w2 →
    (Gives (result c i.ty l (aluBits i.ty (a ^^^ b)).val) (w2.onK c fun x => { x with flags := (aluBits i.ty (a ^^^ b)).flags x.flags }) () w3) →
    exec (.xor c) ⟨d, rest⟩ = .next ⟨w3.retire c i.next .fall, rest⟩) ∧
  (∀ (d : Dev) (rest : List Instr) (c : Fin 21) (i : Insn) (w : Dev) (pd pa pb : Spec) (l : Place) (a b : Nat) (w1 w2 w3 w4 : Dev), d.ks c = Ks.running →
    Gives (fetchInsn c (d.K c).pc) d i w → i.op = 0x18 → condHolds i.cond (w.K c).flags = true → i.specs = [pd, pa, pb] →
    Gives (target c i i.ty pd) w l w1 → Gives (source c i i.ty pa) w1 a w2 → Gives (source c i i.ty pb) w2 b w3 →
    (Gives (result c i.ty l (aluAsl i.ty i.s a b).val) (w3.onK c fun x => { x with flags := (aluAsl i.ty i.s a b).flags x.flags }) () w4) →
    exec (.asl c) ⟨d, rest⟩ = .next ⟨w4.retire c i.next .fall, rest⟩) ∧
  (∀ (d : Dev) (rest : List Instr) (c : Fin 21) (i : Insn) (w : Dev) (pd pa pb : Spec) (l : Place) (a b : Nat) (w1 w2 w3 w4 : Dev), d.ks c = Ks.running →
    Gives (fetchInsn c (d.K c).pc) d i w → i.op = 0x19 → condHolds i.cond (w.K c).flags = true → i.specs = [pd, pa, pb] →
    Gives (target c i i.ty pd) w l w1 → Gives (source c i i.ty pa) w1 a w2 → Gives (source c i i.ty pb) w2 b w3 →
    (Gives (result c i.ty l (aluAsr i.ty i.rnd a b).val) (w3.onK c fun x => { x with flags := (aluAsr i.ty i.rnd a b).flags x.flags }) () w4) →
    exec (.asr c) ⟨d, rest⟩ = .next ⟨w4.retire c i.next .fall, rest⟩) ∧
  (∀ (d : Dev) (rest : List Instr) (c : Fin 21) (i : Insn) (w : Dev) (pd pa pb : Spec) (l : Place) (a b : Nat) (w1 w2 w3 w4 : Dev), d.ks c = Ks.running →
    Gives (fetchInsn c (d.K c).pc) d i w → i.op = 0x1A → condHolds i.cond (w.K c).flags = true → i.specs = [pd, pa, pb] →
    Gives (target c i i.ty pd) w l w1 → Gives (source c i i.ty pa) w1 a w2 → Gives (source c i i.ty pb) w2 b w3 →
    (Gives (result c i.ty l (aluLsr i.ty a b).val) (w3.onK c fun x => { x with flags := (aluLsr i.ty a b).flags x.flags }) () w4) →
    exec (.lsr c) ⟨d, rest⟩ = .next ⟨w4.retire c i.next .fall, rest⟩) ∧
  (∀ (d : Dev) (rest : List Instr) (c : Fin 21) (i : Insn) (w : Dev) (pd pa pb : Spec) (l : Place) (a b : Nat) (w1 w2 w3 w4 : Dev), d.ks c = Ks.running →
    Gives (fetchInsn c (d.K c).pc) d i w → i.op = 0x1C → condHolds i.cond (w.K c).flags = true → i.specs = [pd, pa, pb] →
    Gives (target c i i.ty pd) w l w1 → Gives (source c i i.ty pa) w1 a w2 → Gives (source c i i.ty pb) w2 b w3 →
    (Gives (result c i.ty l (aluMin i.ty a b).val) (w3.onK c fun x => { x with flags := (aluMin i.ty a b).flags x.flags }) () w4) →
    exec (.min c) ⟨d, rest⟩ = .next ⟨w4.retire c i.next .fall, rest⟩) ∧
  (∀ (d : Dev) (rest : List Instr) (c : Fin 21) (i : Insn) (w : Dev) (pd pa pb : Spec) (l : Place) (a b : Nat) (w1 w2 w3 w4 : Dev), d.ks c = Ks.running →
    Gives (fetchInsn c (d.K c).pc) d i w → i.op = 0x1D → condHolds i.cond (w.K c).flags = true → i.specs = [pd, pa, pb] →
    Gives (target c i i.ty pd) w l w1 → Gives (source c i i.ty pa) w1 a w2 → Gives (source c i i.ty pb) w2 b w3 →
    (Gives (result c i.ty l (aluMax i.ty a b).val) (w3.onK c fun x => { x with flags := (aluMax i.ty a b).flags x.flags }) () w4) →
    exec (.max c) ⟨d, rest⟩ = .next ⟨w4.retire c i.next .fall, rest⟩) ∧
  (∀ (d : Dev) (rest : List Instr) (c : Fin 21) (i : Insn) (w : Dev) (pd ps : Spec) (l : Place) (a b : Nat) (w1 w2 w3 : Dev), d.ks c = Ks.running →
    Gives (fetchInsn c (d.K c).pc) d i w → i.op = 0x28 → condHolds i.cond (w.K c).flags = true → i.specs = [pd, ps] →
    Gives (updated c i i.ty pd) w (l, a) w1 → Gives (source c i i.ty ps) w1 b w2 →
    (Gives (result c i.ty l ({ val := (setBit a (b % tyBits i.ty) : Nat) : Alu }).val) (w2.onK c fun x => { x with flags := ({ val := (setBit a (b % tyBits i.ty) : Nat) : Alu }).flags x.flags }) () w3) →
    exec (.bset c) ⟨d, rest⟩ = .next ⟨w3.retire c i.next .fall, rest⟩) ∧
  (∀ (d : Dev) (rest : List Instr) (c : Fin 21) (i : Insn) (w : Dev) (pd ps : Spec) (l : Place) (a b : Nat) (w1 w2 w3 : Dev), d.ks c = Ks.running →
    Gives (fetchInsn c (d.K c).pc) d i w → i.op = 0x29 → condHolds i.cond (w.K c).flags = true → i.specs = [pd, ps] →
    Gives (updated c i i.ty pd) w (l, a) w1 → Gives (source c i i.ty ps) w1 b w2 →
    (Gives (result c i.ty l ({ val := (clrBit a (b % tyBits i.ty) : Nat) : Alu }).val) (w2.onK c fun x => { x with flags := ({ val := (clrBit a (b % tyBits i.ty) : Nat) : Alu }).flags x.flags }) () w3) →
    exec (.bclr c) ⟨d, rest⟩ = .next ⟨w3.retire c i.next .fall, rest⟩) ∧
  (∀ (d : Dev) (rest : List Instr) (c : Fin 21) (i : Insn) (w : Dev) (pd pa pb : Spec) (l : Place) (a b g : Nat) (w1 w2 w3 w4 : Dev), d.ks c = Ks.running →
    Gives (fetchInsn c (d.K c).pc) d i w → i.op = 0x1E → condHolds i.cond (w.K c).flags = true → i.specs = [pd, pa, pb] →
    Gives (updated c i i.ty pd) w (l, g) w1 → Gives (source c i i.ty pa) w1 a w2 → Gives (source c i i.ty pb) w2 b w3 →
    (Gives (result c i.ty l (aluLim i.ty g a b).val) (w3.onK c fun x => { x with flags := (aluLim i.ty g a b).flags x.flags }) () w4) →
    exec (.lim c) ⟨d, rest⟩ = .next ⟨w4.retire c i.next .fall, rest⟩)

/-- Core instructions: products, accumulators and quotients. Operands are evaluated in their order, the flags follow the result, and
the result goes to the destination before the core moves on. Each clause concludes that exec answers a next state, from premises
on the state and the operands alone. Completion is so stated for: mul, imul, divs, mac, msu, sat. (R410, R411, R412, R413) -/
def Obligations.ProductInsns : Prop :=
  (∀ (d : Dev) (rest : List Instr) (c : Fin 21) (i : Insn) (w : Dev) (pd pa pb : Spec) (l : Place) (a b : Nat) (w1 w2 w3 w4 : Dev), d.ks c = Ks.running →
    Gives (fetchInsn c (d.K c).pc) d i w → i.op = 0x10 → condHolds i.cond (w.K c).flags = true → i.specs = [pd, pa, pb] →
    Gives (target c i i.ty pd) w l w1 → Gives (source c i i.ty pa) w1 a w2 → Gives (source c i i.ty pb) w2 b w3 →
    (Gives (result c i.ty l (aluMul i.ty i.rnd i.s a b).val) (w3.onK c fun x => { x with flags := (aluMul i.ty i.rnd i.s a b).flags x.flags }) () w4) →
    exec (.mul c) ⟨d, rest⟩ = .next ⟨w4.retire c i.next .fall, rest⟩) ∧
  (∀ (d : Dev) (rest : List Instr) (c : Fin 21) (i : Insn) (w : Dev) (pd pa pb : Spec) (l : Place) (a b : Nat) (w1 w2 w3 w4 : Dev), d.ks c = Ks.running →
    Gives (fetchInsn c (d.K c).pc) d i w → i.op = 0x11 → condHolds i.cond (w.K c).flags = true → i.specs = [pd, pa, pb] →
    Gives (target c i i.ty pd) w l w1 → Gives (source c i i.ty pa) w1 a w2 → Gives (source c i i.ty pb) w2 b w3 →
    (Gives (result c i.ty l (aluImul i.ty i.s a b).val) (w3.onK c fun x => { x with flags := (aluImul i.ty i.s a b).flags x.flags }) () w4) →
    exec (.imul c) ⟨d, rest⟩ = .next ⟨w4.retire c i.next .fall, rest⟩) ∧
  (∀ (d : Dev) (rest : List Instr) (c : Fin 21) (i : Insn) (w : Dev) (pd ps : Spec) (l : Place) (a b : Nat) (w1 w2 w3 : Dev), d.ks c = Ks.running →
    Gives (fetchInsn c (d.K c).pc) d i w → i.op = 0x10 → condHolds i.cond (w.K c).flags = true → i.specs = [pd, ps] →
    Gives (updated c i i.ty pd) w (l, a) w1 → Gives (source c i i.ty ps) w1 b w2 →
    (Gives (result c i.ty l (aluMul i.ty i.rnd i.s a b).val) (w2.onK c fun x => { x with flags := (aluMul i.ty i.rnd i.s a b).flags x.flags }) () w3) →
    exec (.mul c) ⟨d, rest⟩ = .next ⟨w3.retire c i.next .fall, rest⟩) ∧
  (∀ (d : Dev) (rest : List Instr) (c : Fin 21) (i : Insn) (w : Dev) (pd ps : Spec) (l : Place) (a b : Nat) (w1 w2 w3 : Dev), d.ks c = Ks.running →
    Gives (fetchInsn c (d.K c).pc) d i w → i.op = 0x11 → condHolds i.cond (w.K c).flags = true → i.specs = [pd, ps] →
    Gives (updated c i i.ty pd) w (l, a) w1 → Gives (source c i i.ty ps) w1 b w2 →
    (Gives (result c i.ty l (aluImul i.ty i.s a b).val) (w2.onK c fun x => { x with flags := (aluImul i.ty i.s a b).flags x.flags }) () w3) →
    exec (.imul c) ⟨d, rest⟩ = .next ⟨w3.retire c i.next .fall, rest⟩) ∧
  (∀ (d : Dev) (rest : List Instr) (c : Fin 21) (i : Insn) (w : Dev) (pd pa pb : Spec) (l : Place) (a b : Nat) (w1 w2 w3 w4 : Dev), d.ks c = Ks.running →
    Gives (fetchInsn c (d.K c).pc) d i w → i.op = 0x3C → condHolds i.cond (w.K c).flags = true → i.specs = [pd, pa, pb] →
    Gives (target c i i.ty pd) w l w1 → Gives (source c i i.ty pa) w1 a w2 → Gives (source c i i.ty pb) w2 b w3 →
    (Gives (result c i.ty l (aluDivs i.ty i.rnd i.s a b).val) (w3.onK c fun x => { x with flags := (aluDivs i.ty i.rnd i.s a b).flags x.flags }) () w4) →
    exec (.divs c) ⟨d, rest⟩ = .next ⟨w4.retire c i.next .fall, rest⟩) ∧
  (∀ (d : Dev) (rest : List Instr) (c : Fin 21) (i : Insn) (w : Dev) (pd pa pb : Spec) (l : Place) (a b g : Nat) (w1 w2 w3 w4 : Dev), d.ks c = Ks.running →
    Gives (fetchInsn c (d.K c).pc) d i w → i.op = 0x12 → condHolds i.cond (w.K c).flags = true → i.specs = [pd, pa, pb] →
    Gives (updated c i 2 pd) w (l, g) w1 → Gives (source c i i.ty pa) w1 a w2 → Gives (source c i i.ty pb) w2 b w3 →
    (Gives (result c 2 l (aluMac i.ty i.rnd i.s g a b).val) (w3.onK c fun x => { x with flags := (aluMac i.ty i.rnd i.s g a b).flags x.flags }) () w4) →
    exec (.mac c) ⟨d, rest⟩ = .next ⟨w4.retire c i.next .fall, rest⟩) ∧
  (∀ (d : Dev) (rest : List Instr) (c : Fin 21) (i : Insn) (w : Dev) (pd pa pb : Spec) (l : Place) (a b g : Nat) (w1 w2 w3 w4 : Dev), d.ks c = Ks.running →
    Gives (fetchInsn c (d.K c).pc) d i w → i.op = 0x13 → condHolds i.cond (w.K c).flags = true → i.specs = [pd, pa, pb] →
    Gives (updated c i 2 pd) w (l, g) w1 → Gives (source c i i.ty pa) w1 a w2 → Gives (source c i i.ty pb) w2 b w3 →
    (Gives (result c 2 l (aluMsu i.ty i.rnd i.s g a b).val) (w3.onK c fun x => { x with flags := (aluMsu i.ty i.rnd i.s g a b).flags x.flags }) () w4) →
    exec (.msu c) ⟨d, rest⟩ = .next ⟨w4.retire c i.next .fall, rest⟩) ∧
  (∀ (d : Dev) (rest : List Instr) (c : Fin 21) (i : Insn) (w : Dev) (pd ps : Spec) (l : Place) (a : Nat) (w1 w2 w3 : Dev), d.ks c = Ks.running →
    Gives (fetchInsn c (d.K c).pc) d i w → i.op = 0x14 → condHolds i.cond (w.K c).flags = true → i.specs = [pd, ps] →
    Gives (target c i i.ty pd) w l w1 → Gives (source c i 2 ps) w1 a w2 →
    (Gives (result c i.ty l (aluSat i.ty i.rnd a).val) (w2.onK c fun x => { x with flags := (aluSat i.ty i.rnd a).flags x.flags }) () w3) →
    exec (.sat c) ⟨d, rest⟩ = .next ⟨w3.retire c i.next .fall, rest⟩)

/-- Core instructions: moves, widening, one operand, comparisons. Operands are evaluated in their order, the flags follow the
result, and the result goes to the destination before the core moves on. Each clause concludes that exec answers a next state,
from premises on the state and the operands alone. Completion is so stated for: wid, sxt, zxt, abs, neg, not, cmp, tst, btst,
mov, insnNop. (R413) -/
def Obligations.UnaryInsns : Prop :=
  (∀ (d : Dev) (rest : List Instr) (c : Fin 21) (i : Insn) (w : Dev) (pd ps : Spec) (l : Place) (a : Nat) (w1 w2 w3 : Dev), d.ks c = Ks.running →
    Gives (fetchInsn c (d.K c).pc) d i w → i.op = 0x02 → condHolds i.cond (w.K c).flags = true → i.specs = [pd, ps] →
    Gives (target c i (i.ty + 1) pd) w l w1 → Gives (source c i i.ty ps) w1 a w2 →
    (Gives (result c (i.ty + 1) l (Alu.zn (i.ty + 1) (if i.ty = 0 then sv 0 a * 2 ^ 16 else sv 1 a)).val) (w2.onK c fun x => { x with flags := (Alu.zn (i.ty + 1) (if i.ty = 0 then sv 0 a * 2 ^ 16 else sv 1 a)).flags x.flags }) () w3) →
    exec (.wid c) ⟨d, rest⟩ = .next ⟨w3.retire c i.next .fall, rest⟩) ∧
  (∀ (d : Dev) (rest : List Instr) (c : Fin 21) (i : Insn) (w : Dev) (pd ps : Spec) (l : Place) (a : Nat) (w1 w2 w3 : Dev), d.ks c = Ks.running →
    Gives (fetchInsn c (d.K c).pc) d i w → i.op = 0x03 → condHolds i.cond (w.K c).flags = true → i.specs = [pd, ps] →
    Gives (target c i 1 pd) w l w1 → Gives (source c i 0 ps) w1 a w2 →
    (Gives (result c 1 l (Alu.zn 1 (sv 0 a)).val) (w2.onK c fun x => { x with flags := (Alu.zn 1 (sv 0 a)).flags x.flags }) () w3) →
    exec (.sxt c) ⟨d, rest⟩ = .next ⟨w3.retire c i.next .fall, rest⟩) ∧
  (∀ (d : Dev) (rest : List Instr) (c : Fin 21) (i : Insn) (w : Dev) (pd ps : Spec) (l : Place) (a : Nat) (w1 w2 w3 : Dev), d.ks c = Ks.running →
    Gives (fetchInsn c (d.K c).pc) d i w → i.op = 0x04 → condHolds i.cond (w.K c).flags = true → i.specs = [pd, ps] →
    Gives (target c i 1 pd) w l w1 → Gives (source c i 0 ps) w1 a w2 →
    (Gives (result c 1 l (Alu.zn 1 (a : Int)).val) (w2.onK c fun x => { x with flags := (Alu.zn 1 (a : Int)).flags x.flags }) () w3) →
    exec (.zxt c) ⟨d, rest⟩ = .next ⟨w3.retire c i.next .fall, rest⟩) ∧
  (∀ (d : Dev) (rest : List Instr) (c : Fin 21) (i : Insn) (w : Dev) (pd ps : Spec) (l : Place) (a : Nat) (w1 w2 w3 : Dev), d.ks c = Ks.running →
    Gives (fetchInsn c (d.K c).pc) d i w → i.op = 0x15 → condHolds i.cond (w.K c).flags = true → i.specs = [pd, ps] →
    Gives (target c i i.ty pd) w l w1 → Gives (source c i i.ty ps) w1 a w2 →
    (Gives (result c i.ty l (aluAbs i.ty i.s a).val) (w2.onK c fun x => { x with flags := (aluAbs i.ty i.s a).flags x.flags }) () w3) →
    exec (.abs c) ⟨d, rest⟩ = .next ⟨w3.retire c i.next .fall, rest⟩) ∧
  (∀ (d : Dev) (rest : List Instr) (c : Fin 21) (i : Insn) (w : Dev) (pd ps : Spec) (l : Place) (a : Nat) (w1 w2 w3 : Dev), d.ks c = Ks.running →
    Gives (fetchInsn c (d.K c).pc) d i w → i.op = 0x16 → condHolds i.cond (w.K c).flags = true → i.specs = [pd, ps] →
    Gives (target c i i.ty pd) w l w1 → Gives (source c i i.ty ps) w1 a w2 →
    (Gives (result c i.ty l (aluNeg i.ty i.s a).val) (w2.onK c fun x => { x with flags := (aluNeg i.ty i.s a).flags x.flags }) () w3) →
    exec (.neg c) ⟨d, rest⟩ = .next ⟨w3.retire c i.next .fall, rest⟩) ∧
  (∀ (d : Dev) (rest : List Instr) (c : Fin 21) (i : Insn) (w : Dev) (pd : Spec) (l : Place) (a : Nat) (w1 w2 : Dev), d.ks c = Ks.running →
    Gives (fetchInsn c (d.K c).pc) d i w → i.op = 0x16 → condHolds i.cond (w.K c).flags = true → i.specs = [pd] →
    Gives (updated c i i.ty pd) w (l, a) w1 →
    (Gives (result c i.ty l (aluNeg i.ty i.s a).val) (w1.onK c fun x => { x with flags := (aluNeg i.ty i.s a).flags x.flags }) () w2) →
    exec (.neg c) ⟨d, rest⟩ = .next ⟨w2.retire c i.next .fall, rest⟩) ∧
  (∀ (d : Dev) (rest : List Instr) (c : Fin 21) (i : Insn) (w : Dev) (pd ps : Spec) (l : Place) (a : Nat) (w1 w2 w3 : Dev), d.ks c = Ks.running →
    Gives (fetchInsn c (d.K c).pc) d i w → i.op = 0x27 → condHolds i.cond (w.K c).flags = true → i.specs = [pd, ps] →
    Gives (target c i i.ty pd) w l w1 → Gives (source c i i.ty ps) w1 a w2 →
    (Gives (result c i.ty l (aluBits i.ty (2 ^ tyBits i.ty - 1 - a)).val) (w2.onK c fun x => { x with flags := (aluBits i.ty (2 ^ tyBits i.ty - 1 - a)).flags x.flags }) () w3) →
    exec (.not c) ⟨d, rest⟩ = .next ⟨w3.retire c i.next .fall, rest⟩) ∧
  (∀ (d : Dev) (rest : List Instr) (c : Fin 21) (i : Insn) (w : Dev) (pd : Spec) (l : Place) (a : Nat) (w1 w2 : Dev), d.ks c = Ks.running →
    Gives (fetchInsn c (d.K c).pc) d i w → i.op = 0x27 → condHolds i.cond (w.K c).flags = true → i.specs = [pd] →
    Gives (updated c i i.ty pd) w (l, a) w1 →
    (Gives (result c i.ty l (aluBits i.ty (2 ^ tyBits i.ty - 1 - a)).val) (w1.onK c fun x => { x with flags := (aluBits i.ty (2 ^ tyBits i.ty - 1 - a)).flags x.flags }) () w2) →
    exec (.not c) ⟨d, rest⟩ = .next ⟨w2.retire c i.next .fall, rest⟩) ∧
  (∀ (d : Dev) (rest : List Instr) (c : Fin 21) (i : Insn) (w : Dev) (pa pb : Spec) (a b : Nat) (w1 w2 : Dev), d.ks c = Ks.running →
    Gives (fetchInsn c (d.K c).pc) d i w → i.op = 0x20 → condHolds i.cond (w.K c).flags = true → i.specs = [pa, pb] →
    Gives (source c i i.ty pa) w a w1 → Gives (source c i i.ty pb) w1 b w2 →
    exec (.cmp c) ⟨d, rest⟩ = .next ⟨(w2.onK c fun x => { x with flags := (aluCmp i.ty a b).flags x.flags }).retire c i.next .fall, rest⟩) ∧
  (∀ (d : Dev) (rest : List Instr) (c : Fin 21) (i : Insn) (w : Dev) (pa pb : Spec) (a b : Nat) (w1 w2 : Dev), d.ks c = Ks.running →
    Gives (fetchInsn c (d.K c).pc) d i w → i.op = 0x21 → condHolds i.cond (w.K c).flags = true → i.specs = [pa, pb] →
    Gives (source c i i.ty pa) w a w1 → Gives (source c i i.ty pb) w1 b w2 →
    exec (.tst c) ⟨d, rest⟩ = .next ⟨(w2.onK c fun x => { x with flags := (aluBits i.ty (a &&& b)).flags x.flags }).retire c i.next .fall, rest⟩) ∧
  (∀ (d : Dev) (rest : List Instr) (c : Fin 21) (i : Insn) (w : Dev) (pa pb : Spec) (a b : Nat) (w1 w2 : Dev), d.ks c = Ks.running →
    Gives (fetchInsn c (d.K c).pc) d i w → i.op = 0x2A → condHolds i.cond (w.K c).flags = true → i.specs = [pa, pb] →
    Gives (source c i i.ty pa) w a w1 → Gives (source c i i.ty pb) w1 b w2 →
    exec (.btst c) ⟨d, rest⟩ = .next ⟨(w2.onK c fun x => { x with flags := ({ val := 0, z := some (!(bit a (b % tyBits i.ty))) : Alu }).flags x.flags }).retire c i.next .fall, rest⟩) ∧
  (∀ (d : Dev) (rest : List Instr) (c : Fin 21) (i : Insn) (w : Dev) (pd ps : Spec) (l : Place) (p : Place) (a : Nat) (w1 w2 w3 w4 : Dev), d.ks c = Ks.running →
    Gives (fetchInsn c (d.K c).pc) d i w → i.op = 0x01 → condHolds i.cond (w.K c).flags = true → i.specs = [pd, ps] →
    Gives (target c i i.ty pd) w l w1 → Gives (place c i.next ps (tyBytes i.ty) 1) w1 p w2 →
    Gives (readPlace c i.ty p) w2 a w3 → l ≠ .at (.spec 4) → p ≠ .at (.spec 4) →
    (Gives (result c i.ty l (Alu.zn i.ty (a : Int)).val) (w3.onK c fun x => { x with flags := (Alu.zn i.ty (a : Int)).flags x.flags }) () w4) →
    exec (.mov c) ⟨d, rest⟩ = .next ⟨w4.retire c i.next .fall, rest⟩) ∧
  (∀ (d : Dev) (rest : List Instr) (c : Fin 21) (i : Insn) (w : Dev), d.ks c = Ks.running →
    Gives (fetchInsn c (d.K c).pc) d i w → i.op = 0x00 → condHolds i.cond (w.K c).flags = true →
    exec (.insnNop c) ⟨d, rest⟩ = .next ⟨w.retire c i.next .fall, rest⟩)

/-- Core instructions of control flow, waits and atomic operations, and a core's events. A branch goes to its target, CALL links a
frame within the stack limit, RET undoes it, LOOP sets up a count, RTE leaves the handler, WAIT waits, SWAP and ADDX exchange. A
masked event wakes a waiting core with its bits, a limit wakes it with 0, a completion lets the stalled instruction go on, its
absence raises LINK, and a window without a kick fences the core. Each clause concludes that exec answers a next state, from
premises on the state and the operands alone. Completion is so stated for: br, bc, call, ret, loop, rte, wait, insnFence, swap,
addx, waitWake, waitTimeout, accessComplete, hostWindowTimeout, watchdogExpire. (R401, R413, R414, R416, R417, R418, R419, R422,
R424, R426) -/
def Obligations.ControlInsns : Prop :=
  (∀ (d : Dev) (rest : List Instr) (c : Fin 21) (i : Insn) (w : Dev) (p : Spec) (a : Nat) (w1 : Dev), d.ks c = Ks.running →
    Gives (fetchInsn c (d.K c).pc) d i w → i.op = 0x30 → condHolds i.cond (w.K c).flags = true → i.specs = [p] →
    Gives (branchTo c i p) w a w1 → exec (.br c) ⟨d, rest⟩ = .next ⟨w1.retire c i.next (.jump a), rest⟩) ∧
  (∀ (d : Dev) (rest : List Instr) (c : Fin 21) (i : Insn) (w : Dev) (pc p : Spec) (a : Nat) (w1 : Dev), d.ks c = Ks.running →
    Gives (fetchInsn c (d.K c).pc) d i w → i.op = 0x31 → condHolds i.cond (w.K c).flags = true → i.specs = [pc, p] →
    Gives (branchTo c i p) w a w1 → codeHolds pc.f (w1.K c).flags = true →
    exec (.bc c) ⟨d, rest⟩ = .next ⟨w1.retire c i.next (.jump a), rest⟩) ∧
  (∀ (d : Dev) (rest : List Instr) (c : Fin 21) (i : Insn) (w : Dev) (pc p : Spec) (a : Nat) (w1 : Dev), d.ks c = Ks.running →
    Gives (fetchInsn c (d.K c).pc) d i w → i.op = 0x31 → condHolds i.cond (w.K c).flags = true → i.specs = [pc, p] →
    Gives (branchTo c i p) w a w1 → codeHolds pc.f (w1.K c).flags = false →
    exec (.bc c) ⟨d, rest⟩ = .next ⟨w1.retire c i.next .fall, rest⟩) ∧
  (∀ (d : Dev) (rest : List Instr) (c : Fin 21) (i : Insn) (w : Dev) (pt pn : Spec) (a n : Nat) (w1 w2 w3 : Dev) (w4 : Dev), d.ks c = Ks.running →
    Gives (fetchInsn c (d.K c).pc) d i w → i.op = 0x32 → condHolds i.cond (w.K c).flags = true → i.specs = [pt, pn] →
    Gives (branchTo c i pt) w a w1 → Gives (source c i 1 pn) w1 n w2 → n ≤ 4095 →
    (w2.rd (CORE_SP_LIMIT.LIMIT c) : Int) ≤ (w2.K c).sp.toNat - 8 * (n + 1) →
    Gives (storeCheck c (addrAdd (w2.K c).sp.toNat (-(8 * (n + 1) : Int))) 8) w2 () w3 →
    Gives (store c (addrAdd (w2.K c).sp.toNat (-(8 * (n + 1) : Int))) 8 ((w2.K c).fb.toNat * 2 ^ 32 + n * 2 ^ 17 + i.next % 2 ^ 17)) w3 () w4 →
    exec (.call c) ⟨d, rest⟩ = .next ⟨((w4.onK c fun x => { x with sp := BitVec.ofNat 32 (addrAdd (w2.K c).sp.toNat (-(8 * (n + 1) : Int))), fb := BitVec.ofNat 32 (addrAdd (w2.K c).sp.toNat (-(8 * (n + 1) : Int))) }).refill c).retire c i.next (.jump a), rest⟩) ∧
  (∀ (d : Dev) (rest : List Instr) (c : Fin 21) (i : Insn) (w : Dev) (pt pn : Spec) (a n : Nat) (w1 w2 : Dev), d.ks c = Ks.running →
    Gives (fetchInsn c (d.K c).pc) d i w → i.op = 0x32 → condHolds i.cond (w.K c).flags = true → i.specs = [pt, pn] →
    Gives (branchTo c i pt) w a w1 → Gives (source c i 1 pn) w1 n w2 → n ≤ 4095 →
    (w2.K c).sp.toNat - 8 * (n + 1) < (w2.rd (CORE_SP_LIMIT.LIMIT c) : Int) →
    exec (.call c) ⟨d, rest⟩ = .next ⟨d.exception c 5 2 (addrAdd (w2.K c).sp.toNat (-(8 * (n + 1) : Int))) 0 (addrAdd (w2.K c).sp.toNat (-(8 * (n + 1) : Int))), rest⟩) ∧
  (∀ (d : Dev) (rest : List Instr) (c : Fin 21) (i : Insn) (w : Dev) (v : Nat) (w1 : Dev), d.ks c = Ks.running →
    Gives (fetchInsn c (d.K c).pc) d i w → i.op = 0x33 → condHolds i.cond (w.K c).flags = true →
    Gives (load c (w.K c).fb.toNat 8) w v w1 →
    exec (.ret c) ⟨d, rest⟩ = .next ⟨((w1.onK c fun x => { x with sp := BitVec.ofNat 32 ((w.K c).fb.toNat + 8 * (bits v 28 17 + 1)), fb := BitVec.ofNat 32 (v / 2 ^ 32) }).refill c).retire c i.next (.jump (bits v 16 0)), rest⟩) ∧
  (∀ (d : Dev) (rest : List Instr) (c : Fin 21) (i : Insn) (w : Dev) (pa pe : Spec) (a e : Nat) (w1 w2 : Dev), d.ks c = Ks.running →
    Gives (fetchInsn c (d.K c).pc) d i w → i.op = 0x34 → condHolds i.cond (w.K c).flags = true → i.specs = [pa, pe] →
    Gives (source c i 1 pa) w a w1 → Gives (branchTo c i pe) w1 e w2 → 0 < a → a < 2 ^ 24 →
    exec (.loop c) ⟨d, rest⟩ = .next ⟨(w2.onK c fun x => { x with loop := BitVec.ofNat 64 (a * 2 ^ 40 + i.next % 2 ^ 17 * 2 ^ 20 + e % 2 ^ 17) }).retire c i.next .fall, rest⟩) ∧
  (∀ (d : Dev) (rest : List Instr) (c : Fin 21) (i : Insn) (w : Dev) (pa pe : Spec) (a e : Nat) (w1 w2 : Dev), d.ks c = Ks.running →
    Gives (fetchInsn c (d.K c).pc) d i w → i.op = 0x34 → condHolds i.cond (w.K c).flags = true → i.specs = [pa, pe] →
    Gives (source c i 1 pa) w a w1 → Gives (branchTo c i pe) w1 e w2 → a = 0 →
    exec (.loop c) ⟨d, rest⟩ = .next ⟨(w2.onK c fun x => { x with loop := BitVec.ofNat 64 (i.next % 2 ^ 17 * 2 ^ 20 + e % 2 ^ 17) }).retire c i.next (.jump e), rest⟩) ∧
  (∀ (d : Dev) (rest : List Instr) (c : Fin 21) (i : Insn) (w : Dev), d.ks c = Ks.running →
    Gives (fetchInsn c (d.K c).pc) d i w → i.op = 0x35 → condHolds i.cond (w.K c).flags = true → (w.K c).flags &&& 0x20 ≠ 0 →
    exec (.rte c) ⟨d, rest⟩ = .next ⟨((w.onK c fun x => { x with flags := x.flags &&& ~~~0x20 }).refill c).retire c i.next (.jump (w.rd (CORE_EXC_PC.EPC c))), rest⟩) ∧
  (∀ (d : Dev) (rest : List Instr) (c : Fin 21) (i : Insn) (w : Dev), d.ks c = Ks.running →
    Gives (fetchInsn c (d.K c).pc) d i w → i.op = 0x35 → condHolds i.cond (w.K c).flags = true → (w.K c).flags &&& 0x20 = 0 →
    exec (.rte c) ⟨d, rest⟩ = .next ⟨d.exception c 1 3 (w.K c).pc 0 (w.K c).pc, rest⟩) ∧
  (∀ (d : Dev) (rest : List Instr) (c : Fin 21) (i : Insn) (w : Dev) (pd pm pb : Spec) (l : Place) (m b : Nat) (w1 w2 w3 : Dev), d.ks c = Ks.running →
    Gives (fetchInsn c (d.K c).pc) d i w → i.op = 0x38 → condHolds i.cond (w.K c).flags = true → i.specs = [pd, pm, pb] →
    Gives (target c i 1 pd) w l w1 → Gives (source c i 1 pm) w1 m w2 → Gives (source c i 1 pb) w2 b w3 → w3.pend c &&& m = 0 →
    exec (.wait c) ⟨d, rest⟩ = .next ⟨(w3.waitGo c i l m b).retire c i.next .hold, rest⟩) ∧
  (∀ (d : Dev) (rest : List Instr) (c : Fin 21) (i : Insn) (w : Dev) (pd pm pb : Spec) (l : Place) (m b : Nat) (w1 w2 w3 : Dev) (w4 : Dev), d.ks c = Ks.running →
    Gives (fetchInsn c (d.K c).pc) d i w → i.op = 0x38 → condHolds i.cond (w.K c).flags = true → i.specs = [pd, pm, pb] →
    Gives (target c i 1 pd) w l w1 → Gives (source c i 1 pm) w1 m w2 → Gives (source c i 1 pb) w2 b w3 → w3.pend c &&& m ≠ 0 →
    Gives (putPlace c 1 (w3.pend c &&& m) l) w3 () w4 →
    exec (.wait c) ⟨d, rest⟩ = .next ⟨(w4.edgesClear c (w3.pend c &&& m)).retire c i.next .fall, rest⟩) ∧
  (∀ (d : Dev) (rest : List Instr) (c : Fin 21) (i : Insn) (w : Dev), d.ks c = Ks.running →
    Gives (fetchInsn c (d.K c).pc) d i w → i.op = 0x39 → condHolds i.cond (w.K c).flags = true →
    exec (.insnFence c) ⟨d, rest⟩ = .next ⟨w.retire c i.next .fall, rest⟩) ∧
  (∀ (d : Dev) (rest : List Instr) (c : Fin 21) (i : Insn) (w : Dev) (pa pb : Spec) (la lb : Place) (a b : Nat) (w1 w2 w3 w4 : Dev), d.ks c = Ks.running →
    Gives (fetchInsn c (d.K c).pc) d i w → i.op = 0x3A → condHolds i.cond (w.K c).flags = true → i.specs = [pa, pb] →
    Gives (atomic c i pa) w (la, a) w1 → Gives (updated c i i.ty pb) w1 (lb, b) w2 → Gives (result c i.ty la b) w2 () w3 →
    Gives (result c i.ty lb a) w3 () w4 → exec (.swap c) ⟨d, rest⟩ = .next ⟨w4.retire c i.next .fall, rest⟩) ∧
  (∀ (d : Dev) (rest : List Instr) (c : Fin 21) (i : Insn) (w : Dev) (pd pa pb : Spec) (l la : Place) (a b : Nat) (w1 w2 w3 w4 w5 : Dev), d.ks c = Ks.running →
    Gives (fetchInsn c (d.K c).pc) d i w → i.op = 0x3B → condHolds i.cond (w.K c).flags = true → i.specs = [pd, pa, pb] →
    Gives (target c i i.ty pd) w l w1 → Gives (atomic c i pa) w1 (la, a) w2 → Gives (source c i i.ty pb) w2 b w3 →
    Gives (result c i.ty la (a + b)) w3 () w4 → Gives (result c i.ty l a) w4 () w5 →
    exec (.addx c) ⟨d, rest⟩ = .next ⟨w5.retire c i.next .fall, rest⟩) ∧
  (∀ (d : Dev) (rest : List Instr) (c : Fin 21) (v : WaitSt), (d.K c).wait = some v → d.ks c = Ks.waiting →
    d.pend c &&& v.mask ≠ 0 → d.wdtOver c = false → d.waitOver c v = false →
    exec (.waitWake c) ⟨d, rest⟩ = .next ⟨d.waitEnd c v (d.pend c &&& v.mask), rest⟩) ∧
  (∀ (d : Dev) (rest : List Instr) (c : Fin 21) (v : WaitSt), (d.K c).wait = some v → d.ks c = Ks.waiting →
    d.pend c &&& v.mask ≠ 0 → d.wdtOver c = false → d.waitOver c v = true →
    exec (.waitWake c) ⟨d, rest⟩ = .next ⟨d.waitEnd c v 0, rest⟩) ∧
  (∀ (d : Dev) (rest : List Instr) (c : Fin 21) (v : WaitSt), (d.K c).wait = some v → d.ks c = Ks.waiting → v.dest = .spec 2 →
    d.pend c &&& v.mask ≠ 0 → d.wdtOver c = false → d.waitOver c v = false → c.val ≠ 20 → ∃ t : Dev,
    exec (.waitWake c) ⟨d, rest⟩ = .next ⟨t, rest⟩ ∧ (t.K c).sp = BitVec.ofNat 32 (d.pend c &&& v.mask) ∧ t.ks c = Ks.running ∧
    (t.K c).wait = none) ∧
  (∀ (d : Dev) (rest : List Instr) (c : Fin 21) (v : WaitSt), (d.K c).wait = some v → d.ks c = Ks.waiting →
    d.pend c &&& v.mask = 0 → v.limit ≠ 0 → v.limit ≤ d.coreClocks c (d.coreNow c - v.since) →
    exec (.waitTimeout c) ⟨d, rest⟩ = .next ⟨d.waitEnd c v 0, rest⟩) ∧
  (∀ (d : Dev) (rest : List Instr) (c : Fin 21) (v : WaitSt), (d.K c).wait = some v → d.ks c = Ks.waiting → v.dest = .spec 2 →
    d.pend c &&& v.mask = 0 → v.limit ≠ 0 → v.limit ≤ d.coreClocks c (d.coreNow c - v.since) → c.val ≠ 20 →
    d.wdtOver c = false → ∃ t : Dev, exec (.waitTimeout c) ⟨d, rest⟩ = .next ⟨t, rest⟩ ∧ (t.K c).sp = 0 ∧
    (t.K c).pc = (d.K c).pc + v.len ∧ t.ks c = Ks.running ∧ (t.K c).wait = none) ∧
  (∀ (d : Dev) (rest : List Instr) (c : Fin 21) (v : BitVec 64) (k a : Nat), (d.K c).hostRd = some (k, a) → d.ks c = Ks.waiting →
    d.now < k + 40000 →
    exec (.accessComplete c (some v)) ⟨d, rest⟩ = .next ⟨(d.coreGo c Ks.running).onK c fun x => { x with hostRd := none, hostBuf := (a, v.toNat) :: x.hostBuf }, rest⟩) ∧
  (∀ (d : Dev) (rest : List Instr) (c : Fin 21) (v : BitVec 64) (k a : Nat), (d.K c).hostRd = some (k, a) → d.ks c = Ks.waiting →
    d.now < k + 40000 → ∃ t : Dev, exec (.accessComplete c (some v)) ⟨d, rest⟩ = .next ⟨t, rest⟩ ∧ t.ks c = Ks.running ∧
    (t.K c).hostRd = none ∧ (t.K c).hostBuf = (a, v.toNat) :: (d.K c).hostBuf ∧ (t.K c).pc = (d.K c).pc ∧
    (t.K c).slots = (d.K c).slots ∧ t.mem = d.mem) ∧
  (∀ (d : Dev) (rest : List Instr) (c : Fin 21) (k a : Nat), (d.K c).hostRd = some (k, a) → d.ks c = Ks.waiting →
    d.now < k + 40000 →
    exec (.accessComplete c none) ⟨d, rest⟩ = .next ⟨(d.coreGo c Ks.running).exception c 6 1 a 1 (d.hostAddr c (a - 0x80000000)), rest⟩) ∧
  (∀ (d : Dev) (rest : List Instr) (c : Fin 21) (k a : Nat), (d.K c).hostRd = some (k, a) → d.ks c = Ks.waiting →
    d.now < k + 40000 → (d.K c).flags &&& 0x20 = 0 → d.rd (CORE_EXC_VEC.VEC c) ≠ 0 → ∃ t : Dev,
    exec (.accessComplete c none) ⟨d, rest⟩ = .next ⟨t, rest⟩ ∧ t.ks c = Ks.running ∧ (t.K c).hostRd = none ∧
    (t.K c).pc = d.rd (CORE_EXC_VEC.VEC c) ∧ (t.K c).flags = (d.K c).flags ||| 0x20 ∧
    t.rd (CORE_EXC_PC.EPC c) = (d.K c).pc % 2 ^ (CORE_EXC_PC.EPC c).len ∧ t.rd (CORE_EXC_INFO.CAUSE c) = 6 ∧
    t.rd (CORE_EXC_INFO.ACCESS c) = 1 ∧ t.rd (CORE_EXC_ADDR.ADDR c) = a % 2 ^ 32 ∧ (t.rd (CORE_EVT.EVT c)).testBit 0 = true) ∧
  (∀ (d : Dev) (rest : List Instr) (c : Fin 21) (k a : Nat), (d.K c).hostRd = some (k, a) → d.ks c = Ks.waiting →
    d.now < k + 40000 → bit (d.K c).flags.toNat 5 = true → ∃ t : Dev,
    exec (.accessComplete c none) ⟨d, rest⟩ = .next ⟨t, rest⟩ ∧ t.ks c = Ks.fenced ∧
    t.rd (CORE_EXC_INFO.CAUSE c) = Cause.double ∧ t.Reports 0x68 c) ∧
  (∀ (d : Dev) (rest : List Instr) (c : Fin 21) (k a : Nat), (d.K c).hostRd = some (k, a) → d.ks c = Ks.waiting →
    k + 40000 ≤ d.now →
    exec (.hostWindowTimeout c) ⟨d, rest⟩ = .next ⟨(d.coreGo c Ks.running).exception c 6 1 a 1 (d.hostAddr c (a - 0x80000000)), rest⟩) ∧
  (∀ (d : Dev) (rest : List Instr) (c : Fin 21) (k a : Nat), (d.K c).hostRd = some (k, a) → d.ks c = Ks.waiting →
    k + 40000 ≤ d.now → (d.K c).flags &&& 0x20 = 0 → d.rd (CORE_EXC_VEC.VEC c) ≠ 0 → ∃ t : Dev,
    exec (.hostWindowTimeout c) ⟨d, rest⟩ = .next ⟨t, rest⟩ ∧ t.ks c = Ks.running ∧ (t.K c).hostRd = none ∧
    (t.K c).pc = d.rd (CORE_EXC_VEC.VEC c) ∧ (t.K c).flags = (d.K c).flags ||| 0x20 ∧
    t.rd (CORE_EXC_PC.EPC c) = (d.K c).pc % 2 ^ (CORE_EXC_PC.EPC c).len ∧ t.rd (CORE_EXC_INFO.CAUSE c) = 6 ∧
    t.rd (CORE_EXC_INFO.ACCESS c) = 1 ∧ t.rd (CORE_EXC_ADDR.ADDR c) = a % 2 ^ 32 ∧ (t.rd (CORE_EVT.EVT c)).testBit 0 = true) ∧
  (∀ (d : Dev) (rest : List Instr) (c : Fin 21) (k a : Nat), (d.K c).hostRd = some (k, a) → d.ks c = Ks.waiting →
    k + 40000 ≤ d.now → bit (d.K c).flags.toNat 5 = true → ∃ t : Dev, exec (.hostWindowTimeout c) ⟨d, rest⟩ = .next ⟨t, rest⟩ ∧
    t.ks c = Ks.fenced ∧ t.rd (CORE_EXC_INFO.CAUSE c) = Cause.double ∧ t.Reports 0x68 c) ∧
  (∀ (d : Dev) (rest : List Instr) (c : Fin 21) (k : Nat), (d.K c).wdt = some k → d.on (CORE_CFG.WDT_EN c) = true →
    d.coreBusy c = true → k + d.wdtSpan c ≤ d.coreNow c → ∃ t : Dev, exec (.watchdogExpire c) ⟨d, rest⟩ = .next ⟨t, rest⟩ ∧
    t.ks c = Ks.fenced ∧ (t.rd (CORE_EVT.EVT c)).testBit 1 = true ∧ t.Reports 0x68 c)

/-- What the commands of the power path leave unchanged. Each clause names the parts of the block and the register words that its
command may change; its queue, every other part and every other word are what they were. (02_power_entry.md, 03_branch_fuses.md,
04_rail_loom.md, 05_phase_management.md, 07_conversion.md, 08_battery_estimation.md) -/
def Obligations.FramesPower : Prop :=
  (∀ (n : Fin 16) (m : Option EcvTriple) (s : State), Framed (.ecvSample n m) s (telemetryParts.append [.ent, .retry, .conv, .sage,
    .mem, .flt]) (telemetryWords.append [tableWord, eachWord ENT_EVT.EVT, eachWord ENT_STATUS.STATE, oneWord MEM_EVT.EVT, eachWord
    MEM_OFFLINE.OFFLINE, eachWord RETRY_STAT.COOL_TO, eachWord SG_CNT.CAP_ACC, eachWord SG_EVT.EVT, eachWord SG_GEN.GEN, eachWord
    SG_RPOL1_L.VAL, eachWord SG_RPOL2_L.VAL, eachWord SG_RSER_L.VAL, eachWord SG_STATUS.DISAGREE, eachWord WIN_PEND.PEND, eachWord
    WIN_STAT.STATE]) ∧ (s.dev.mem.err = [] → Framed (.ecvSample n m) s (telemetryParts.append [.ent, .retry, .conv, .sage, .mem,
    .flt]) (telemetryWords.append [eachWord ENT_EVT.EVT, eachWord ENT_STATUS.STATE, oneWord MEM_EVT.EVT, eachWord
    RETRY_STAT.COOL_TO, eachWord SG_CNT.CAP_ACC, eachWord SG_EVT.EVT, eachWord SG_GEN.GEN, eachWord SG_RPOL1_L.VAL, eachWord
    SG_RPOL2_L.VAL, eachWord SG_RSER_L.VAL, eachWord SG_STATUS.DISAGREE, eachWord WIN_PEND.PEND, eachWord WIN_STAT.STATE]))) ∧
  (∀ (n : Fin 16) (s : State), Framed (.entScTrip n) s (telemetryParts.append [.ent, .retry, .mem, .flt]) (telemetryWords.append
    [tableWord, eachWord ENT_EVT.EVT, eachWord ENT_STATUS.STATE, oneWord MEM_EVT.EVT, eachWord MEM_OFFLINE.OFFLINE, eachWord
    RETRY_STAT.COOL_TO]) ∧ (s.dev.mem.err = [] → Framed (.entScTrip n) s (telemetryParts.append [.ent, .retry, .mem, .flt])
    (telemetryWords.append [eachWord ENT_EVT.EVT, eachWord ENT_STATUS.STATE, oneWord MEM_EVT.EVT, eachWord RETRY_STAT.COOL_TO]))) ∧
  (∀ (n : Fin 16) (s : State), Framed (.entOcTrip n) s (telemetryParts.append [.ent, .retry, .mem, .flt]) (telemetryWords.append
    [tableWord, eachWord ENT_EVT.EVT, eachWord ENT_STATUS.STATE, oneWord MEM_EVT.EVT, eachWord MEM_OFFLINE.OFFLINE, eachWord
    RETRY_STAT.COOL_TO]) ∧ (s.dev.mem.err = [] → Framed (.entOcTrip n) s (telemetryParts.append [.ent, .retry, .mem, .flt])
    (telemetryWords.append [eachWord ENT_EVT.EVT, eachWord ENT_STATUS.STATE, oneWord MEM_EVT.EVT, eachWord RETRY_STAT.COOL_TO]))) ∧
  (∀ (n : Fin 16) (s : State), Framed (.entInrushTime n) s (telemetryParts.append [.ent, .retry, .mem, .flt]) (telemetryWords.append
    [tableWord, eachWord ENT_EVT.EVT, eachWord ENT_STATUS.STATE, oneWord MEM_EVT.EVT, eachWord MEM_OFFLINE.OFFLINE, eachWord
    RETRY_STAT.COOL_TO]) ∧ (s.dev.mem.err = [] → Framed (.entInrushTime n) s (telemetryParts.append [.ent, .retry, .mem, .flt])
    (telemetryWords.append [eachWord ENT_EVT.EVT, eachWord ENT_STATUS.STATE, oneWord MEM_EVT.EVT, eachWord RETRY_STAT.COOL_TO]))) ∧
  (∀ (n : Fin 16) (s : State), Framed (.entOvTrip n) s (telemetryParts.append [.ent, .retry, .mem, .flt]) (telemetryWords.append
    [tableWord, eachWord ENT_EVT.EVT, eachWord ENT_STATUS.STATE, oneWord MEM_EVT.EVT, eachWord MEM_OFFLINE.OFFLINE, eachWord
    RETRY_STAT.COOL_TO]) ∧ (s.dev.mem.err = [] → Framed (.entOvTrip n) s (telemetryParts.append [.ent, .retry, .mem, .flt])
    (telemetryWords.append [eachWord ENT_EVT.EVT, eachWord ENT_STATUS.STATE, oneWord MEM_EVT.EVT, eachWord RETRY_STAT.COOL_TO]))) ∧
  (∀ (n : Fin 16) (s : State), Framed (.entCutoff n) s (telemetryParts.append [.ent, .retry, .mem, .flt]) (telemetryWords.append
    [tableWord, eachWord ENT_EVT.EVT, eachWord ENT_STATUS.STATE, oneWord MEM_EVT.EVT, eachWord MEM_OFFLINE.OFFLINE, eachWord
    RETRY_STAT.COOL_TO]) ∧ (s.dev.mem.err = [] → Framed (.entCutoff n) s (telemetryParts.append [.ent, .retry, .mem, .flt])
    (telemetryWords.append [eachWord ENT_EVT.EVT, eachWord ENT_STATUS.STATE, oneWord MEM_EVT.EVT, eachWord RETRY_STAT.COOL_TO]))) ∧
  (∀ (n : Fin 16) (s : State), Framed (.entQualify n) s (telemetryParts.append [.ent, .retry, .mem, .flt]) (telemetryWords.append
    [tableWord, eachWord ENT_STATUS.STATE, oneWord MEM_EVT.EVT, eachWord MEM_OFFLINE.OFFLINE, eachWord RETRY_STAT.COOL_TO]) ∧
    (s.dev.mem.err = [] → Framed (.entQualify n) s (telemetryParts.append [.ent, .retry, .mem, .flt]) (telemetryWords.append
    [eachWord ENT_STATUS.STATE, oneWord MEM_EVT.EVT, eachWord RETRY_STAT.COOL_TO]))) ∧
  (∀ (n : Fin 16) (s : State), Framed (.entInrushDone n) s (telemetryParts.append [.ent, .retry, .mem, .flt]) (telemetryWords.append
    [tableWord, eachWord ENT_EVT.EVT, eachWord ENT_STATUS.STATE, oneWord MEM_EVT.EVT, eachWord MEM_OFFLINE.OFFLINE, eachWord
    RETRY_STAT.COOL_TO]) ∧ (s.dev.mem.err = [] → Framed (.entInrushDone n) s (telemetryParts.append [.ent, .retry, .mem, .flt])
    (telemetryWords.append [eachWord ENT_EVT.EVT, eachWord ENT_STATUS.STATE, oneWord MEM_EVT.EVT, eachWord RETRY_STAT.COOL_TO]))) ∧
  (∀ (n : Fin 16) (s : State), Framed (.entGateEnhanced n) s [.ent] []) ∧
  (∀ (n : Fin 16) (s : State), Framed (.entBlock n) s (telemetryParts.append [.ent, .retry, .mem, .flt]) (telemetryWords.append
    [tableWord, eachWord ENT_EVT.EVT, eachWord ENT_STATUS.STATE, oneWord MEM_EVT.EVT, eachWord MEM_OFFLINE.OFFLINE, eachWord
    RETRY_STAT.COOL_TO]) ∧ (s.dev.mem.err = [] → Framed (.entBlock n) s (telemetryParts.append [.ent, .retry, .mem, .flt])
    (telemetryWords.append [eachWord ENT_EVT.EVT, eachWord ENT_STATUS.STATE, oneWord MEM_EVT.EVT, eachWord RETRY_STAT.COOL_TO]))) ∧
  (∀ (n : Fin 16) (s : State), Framed (.entBlockReturn n) s [.regs, .ent, .retry, .mem, .flt, .hw] [eachWord ENT_STATUS.STATE,
    oneWord MEM_EVT.EVT, eachWord RETRY_STAT.COOL_TO]) ∧
  (∀ (n : Fin 16) (s : State), Framed (.entArm n) s [.regs, .ent, .retry, .mem, .flt, .hw] [eachWord ENT_STATUS.STATE, oneWord
    MEM_EVT.EVT, eachWord RETRY_STAT.COOL_TO]) ∧
  (∀ (n : Fin 16) (s : State), Framed (.entShare n) s [.ent, .flt] []) ∧
  (∀ (u : Fin 592) (s : State), Framed (.retryDelayExpire u) s (telemetryParts.append [.ent, .br, .retry, .rail, .ph, .mem, .flt])
    (telemetryWords.append (tripWords.append [tableWord, eachWord ENT_STATUS.STATE, oneWord MEM_EVT.EVT, eachWord
    MEM_OFFLINE.OFFLINE])) ∧ (s.dev.mem.err = [] → Framed (.retryDelayExpire u) s (telemetryParts.append [.ent, .br, .retry,
    .rail, .ph, .mem, .flt]) (telemetryWords.append (tripWords.append [eachWord ENT_STATUS.STATE, oneWord MEM_EVT.EVT])))) ∧
  (∀ (u : Fin 592) (s : State), Framed (.coolTimeout u) s (telemetryParts.append [.ent, .br, .retry, .rail, .ph, .mem, .flt])
    (telemetryWords.append (tripWords.append [tableWord, eachWord ENT_STATUS.STATE, oneWord MEM_EVT.EVT, eachWord
    MEM_OFFLINE.OFFLINE])) ∧ (s.dev.mem.err = [] → Framed (.coolTimeout u) s (telemetryParts.append [.ent, .br, .retry, .rail,
    .ph, .mem, .flt]) (telemetryWords.append (tripWords.append [eachWord ENT_STATUS.STATE, oneWord MEM_EVT.EVT])))) ∧
  (∀ (u : Fin 592) (s : State), Framed (.countClear u) s [.regs, .retry, .mem, .flt, .hw] [oneWord MEM_EVT.EVT, eachWord
    RETRY_STAT.COOL_TO]) ∧
  (∀ (n : Fin 64) (i : BitVec 12) (vin : Option (BitVec 12)) (vout : Option (BitVec 12)) (s : State), Framed (.brSample n i vin
    vout) s (telemetryParts.append [.br, .retry, .rail, .ph, .conv, .mem, .flt]) (telemetryWords.append (tripWords.append
    [tableWord, eachWord BR_EVT.EVT, eachWord CV_STATUS.CAL_SLICE, oneWord MEM_EVT.EVT, eachWord MEM_OFFLINE.OFFLINE, eachWord
    SEQ_STATUS.ACTIVE, eachWord WIN_PEND.PEND, eachWord WIN_STAT.STATE])) ∧ (s.dev.mem.err = [] → Framed (.brSample n i vin vout)
    s (telemetryParts.append [.br, .retry, .rail, .ph, .conv, .mem, .flt]) (telemetryWords.append (tripWords.append [eachWord
    BR_EVT.EVT, eachWord CV_STATUS.CAL_SLICE, oneWord MEM_EVT.EVT, eachWord SEQ_STATUS.ACTIVE, eachWord WIN_PEND.PEND, eachWord
    WIN_STAT.STATE])))) ∧
  (∀ (n : Fin 64) (s : State), Framed (.brFastTrip n) s (telemetryParts.append [.br, .retry, .rail, .ph, .mem, .flt])
    (telemetryWords.append (tripWords.append [tableWord, eachWord BR_EVT.EVT, oneWord MEM_EVT.EVT, eachWord MEM_OFFLINE.OFFLINE]))
    ∧ (s.dev.mem.err = [] → Framed (.brFastTrip n) s (telemetryParts.append [.br, .retry, .rail, .ph, .mem, .flt])
    (telemetryWords.append (tripWords.append [eachWord BR_EVT.EVT, oneWord MEM_EVT.EVT])))) ∧
  (∀ (n : Fin 64) (s : State), Framed (.brOcTrip n) s (telemetryParts.append [.br, .retry, .rail, .ph, .mem, .flt])
    (telemetryWords.append (tripWords.append [tableWord, eachWord BR_EVT.EVT, oneWord MEM_EVT.EVT, eachWord MEM_OFFLINE.OFFLINE]))
    ∧ (s.dev.mem.err = [] → Framed (.brOcTrip n) s (telemetryParts.append [.br, .retry, .rail, .ph, .mem, .flt])
    (telemetryWords.append (tripWords.append [eachWord BR_EVT.EVT, oneWord MEM_EVT.EVT])))) ∧
  (∀ (n : Fin 64) (s : State), Framed (.brSsTime n) s (telemetryParts.append [.br, .retry, .rail, .ph, .mem, .flt])
    (telemetryWords.append (tripWords.append [tableWord, eachWord BR_EVT.EVT, oneWord MEM_EVT.EVT, eachWord MEM_OFFLINE.OFFLINE]))
    ∧ (s.dev.mem.err = [] → Framed (.brSsTime n) s (telemetryParts.append [.br, .retry, .rail, .ph, .mem, .flt])
    (telemetryWords.append (tripWords.append [eachWord BR_EVT.EVT, oneWord MEM_EVT.EVT])))) ∧
  (∀ (n : Fin 64) (s : State), Framed (.brOvTrip n) s (telemetryParts.append [.br, .retry, .rail, .ph, .mem, .flt])
    (telemetryWords.append (tripWords.append [tableWord, eachWord BR_EVT.EVT, oneWord MEM_EVT.EVT, eachWord MEM_OFFLINE.OFFLINE]))
    ∧ (s.dev.mem.err = [] → Framed (.brOvTrip n) s (telemetryParts.append [.br, .retry, .rail, .ph, .mem, .flt])
    (telemetryWords.append (tripWords.append [eachWord BR_EVT.EVT, oneWord MEM_EVT.EVT])))) ∧
  (∀ (n : Fin 64) (s : State), Framed (.brRevTrip n) s (telemetryParts.append [.br, .retry, .rail, .ph, .mem, .flt])
    (telemetryWords.append (tripWords.append [tableWord, eachWord BR_EVT.EVT, oneWord MEM_EVT.EVT, eachWord MEM_OFFLINE.OFFLINE]))
    ∧ (s.dev.mem.err = [] → Framed (.brRevTrip n) s (telemetryParts.append [.br, .retry, .rail, .ph, .mem, .flt])
    (telemetryWords.append (tripWords.append [eachWord BR_EVT.EVT, oneWord MEM_EVT.EVT])))) ∧
  (∀ (n : Fin 64) (s : State), Framed (.brPwrTrip n) s (telemetryParts.append [.br, .retry, .rail, .ph, .mem, .flt])
    (telemetryWords.append (tripWords.append [tableWord, eachWord BR_EVT.EVT, oneWord MEM_EVT.EVT, eachWord MEM_OFFLINE.OFFLINE]))
    ∧ (s.dev.mem.err = [] → Framed (.brPwrTrip n) s (telemetryParts.append [.br, .retry, .rail, .ph, .mem, .flt])
    (telemetryWords.append (tripWords.append [eachWord BR_EVT.EVT, oneWord MEM_EVT.EVT])))) ∧
  (∀ (n : Fin 64) (s : State), Framed (.brQualify n) s (telemetryParts.append [.br, .retry, .rail, .ph, .mem, .flt])
    (telemetryWords.append (tripWords.append [tableWord, oneWord MEM_EVT.EVT, eachWord MEM_OFFLINE.OFFLINE])) ∧ (s.dev.mem.err =
    [] → Framed (.brQualify n) s (telemetryParts.append [.br, .retry, .rail, .ph, .mem, .flt]) (telemetryWords.append
    (tripWords.append [oneWord MEM_EVT.EVT])))) ∧
  (∀ (n : Fin 64) (s : State), Framed (.brSoftstartDone n) s (telemetryParts.append [.br, .retry, .rail, .ph, .mem, .flt])
    (telemetryWords.append (tripWords.append [tableWord, eachWord BR_EVT.EVT, oneWord MEM_EVT.EVT, eachWord MEM_OFFLINE.OFFLINE]))
    ∧ (s.dev.mem.err = [] → Framed (.brSoftstartDone n) s (telemetryParts.append [.br, .retry, .rail, .ph, .mem, .flt])
    (telemetryWords.append (tripWords.append [eachWord BR_EVT.EVT, oneWord MEM_EVT.EVT])))) ∧
  (∀ (n : Fin 64) (s : State), Framed (.branchDownArrive n) s (telemetryParts.append [.br, .retry, .rail, .ph, .port, .mem, .flt,
    .stg]) (telemetryWords.append [coefWord, tableWord, eachWord COEF_CTL.LOAD_TAG, oneWord MEM_EVT.EVT, eachWord
    MEM_OFFLINE.OFFLINE, oneWord MODE_REQ_STAT.STATUS, eachWord PEND_STATE.LAST, eachWord PEND_WAKE.WOKEN, eachWord
    PH_DELTA.DELTA, eachWord PH_EVT.EVT, eachWord PH_ILIM_EFF.I_LIM_EFF, eachWord PH_STATE.STATE, eachWord PH_STATUS.DEG, eachWord
    RAIL_DUTY.DUTY, eachWord RAIL_EVT.EVT, eachWord RAIL_STATUS.STATE, eachWord RAIL_VREF.VREF, eachWord RETRY_STAT.COOL_TO,
    eachWord RPH_EVT.EVT, eachWord SPEC_EVT.EVT, eachWord WIN_PEND.PEND, eachWord WIN_STAT.STATE]) ∧ (s.dev.mem.err = [] → Framed
    (.branchDownArrive n) s (telemetryParts.append [.br, .retry, .rail, .ph, .port, .mem, .flt, .stg]) (telemetryWords.append
    [coefWord, eachWord COEF_CTL.LOAD_TAG, oneWord MEM_EVT.EVT, oneWord MODE_REQ_STAT.STATUS, eachWord PEND_STATE.LAST, eachWord
    PEND_WAKE.WOKEN, eachWord PH_DELTA.DELTA, eachWord PH_EVT.EVT, eachWord PH_ILIM_EFF.I_LIM_EFF, eachWord PH_STATE.STATE,
    eachWord PH_STATUS.DEG, eachWord RAIL_DUTY.DUTY, eachWord RAIL_EVT.EVT, eachWord RAIL_STATUS.STATE, eachWord RAIL_VREF.VREF,
    eachWord RETRY_STAT.COOL_TO, eachWord RPH_EVT.EVT, eachWord SPEC_EVT.EVT, eachWord WIN_PEND.PEND, eachWord WIN_STAT.STATE]))) ∧
  (∀ (n : Fin 64) (e : Fin 16) (s : State), Framed (.dependDisable n e) s (telemetryParts.append [.br, .rail, .ph, .port, .mem,
    .flt, .stg]) (telemetryWords.append [coefWord, tableWord, eachWord COEF_CTL.LOAD_TAG, oneWord MEM_EVT.EVT, eachWord
    MEM_OFFLINE.OFFLINE, oneWord MODE_REQ_STAT.STATUS, eachWord PEND_STATE.LAST, eachWord PEND_WAKE.WOKEN, eachWord
    PH_DELTA.DELTA, eachWord PH_ILIM_EFF.I_LIM_EFF, eachWord PH_STATE.STATE, eachWord PH_STATUS.DEG, eachWord RAIL_DUTY.DUTY,
    eachWord RAIL_EVT.EVT, eachWord RAIL_STATUS.STATE, eachWord RAIL_VREF.VREF, eachWord SPEC_EVT.EVT, eachWord WIN_PEND.PEND,
    eachWord WIN_STAT.STATE]) ∧ (s.dev.mem.err = [] → Framed (.dependDisable n e) s (telemetryParts.append [.br, .rail, .ph,
    .port, .mem, .flt, .stg]) (telemetryWords.append [coefWord, eachWord COEF_CTL.LOAD_TAG, oneWord MEM_EVT.EVT, oneWord
    MODE_REQ_STAT.STATUS, eachWord PEND_STATE.LAST, eachWord PEND_WAKE.WOKEN, eachWord PH_DELTA.DELTA, eachWord
    PH_ILIM_EFF.I_LIM_EFF, eachWord PH_STATE.STATE, eachWord PH_STATUS.DEG, eachWord RAIL_DUTY.DUTY, eachWord RAIL_EVT.EVT,
    eachWord RAIL_STATUS.STATE, eachWord RAIL_VREF.VREF, eachWord SPEC_EVT.EVT, eachWord WIN_PEND.PEND, eachWord
    WIN_STAT.STATE]))) ∧
  (∀ (r : Fin 64) (code : Option (BitVec 14)) (s : State), Framed (.rvcSample r code) s (telemetryParts.append [.rail, .ph, .port,
    .conv, .mem, .flt, .stg]) (telemetryWords.append [coefWord, tableWord, eachWord COEF_CTL.LOAD_TAG, oneWord MEM_EVT.EVT,
    eachWord MEM_OFFLINE.OFFLINE, oneWord MODE_REQ_STAT.STATUS, eachWord PEND_PB.PB, eachWord PEND_STATE.LAST, eachWord
    PEND_UINT.UINT, eachWord PEND_WAKE.WOKEN, eachWord PH_DELTA.DELTA, eachWord PH_ILIM_EFF.I_LIM_EFF, eachWord PH_STATE.STATE,
    eachWord PH_STATUS.DEG, eachWord RAIL_DUTY.DUTY, eachWord RAIL_EVT.EVT, eachWord RAIL_PMEAS.PMEAS, eachWord RAIL_STATUS.STATE,
    eachWord RAIL_VMEAS.VMEAS, eachWord RAIL_VREF.VREF, eachWord SPEC_EVT.EVT, eachWord WIN_PEND.PEND, eachWord WIN_STAT.STATE]) ∧
    (s.dev.mem.err = [] → Framed (.rvcSample r code) s (telemetryParts.append [.rail, .ph, .port, .conv, .mem, .flt, .stg])
    (telemetryWords.append [coefWord, eachWord COEF_CTL.LOAD_TAG, oneWord MEM_EVT.EVT, oneWord MODE_REQ_STAT.STATUS, eachWord
    PEND_PB.PB, eachWord PEND_STATE.LAST, eachWord PEND_UINT.UINT, eachWord PEND_WAKE.WOKEN, eachWord PH_DELTA.DELTA, eachWord
    PH_ILIM_EFF.I_LIM_EFF, eachWord PH_STATE.STATE, eachWord PH_STATUS.DEG, eachWord RAIL_DUTY.DUTY, eachWord RAIL_EVT.EVT,
    eachWord RAIL_PMEAS.PMEAS, eachWord RAIL_STATUS.STATE, eachWord RAIL_VMEAS.VMEAS, eachWord RAIL_VREF.VREF, eachWord
    SPEC_EVT.EVT, eachWord WIN_PEND.PEND, eachWord WIN_STAT.STATE]))) ∧
  (∀ (p : Fin 512) (code : Option (BitVec 14)) (s : State), Framed (.pccSample p code) s (telemetryParts.append [.rail, .ph, .port,
    .conv, .mem, .flt]) (telemetryWords.append [tableWord, eachWord IP_EVT.EVT, eachWord IP_STATUS.STATE, oneWord MEM_EVT.EVT,
    eachWord MEM_OFFLINE.OFFLINE, eachWord PEND_STATE.LAST, eachWord PEND_UINT.UINT, eachWord PH_DELTA.DELTA, eachWord
    PH_STATE.STATE, eachWord RAIL_EVT.EVT, eachWord RAIL_IMEAS.IMEAS, eachWord RAIL_STATUS.STATE, eachWord SPEC_CNT.CONFIRMED,
    eachWord SPEC_EVT.EVT, eachWord WIN_PEND.PEND, eachWord WIN_STAT.STATE]) ∧ (s.dev.mem.err = [] → Framed (.pccSample p code) s
    (telemetryParts.append [.rail, .ph, .port, .conv, .mem, .flt]) (telemetryWords.append [eachWord IP_EVT.EVT, eachWord
    IP_STATUS.STATE, oneWord MEM_EVT.EVT, eachWord PEND_STATE.LAST, eachWord PEND_UINT.UINT, eachWord PH_DELTA.DELTA, eachWord
    PH_STATE.STATE, eachWord RAIL_EVT.EVT, eachWord RAIL_IMEAS.IMEAS, eachWord RAIL_STATUS.STATE, eachWord SPEC_CNT.CONFIRMED,
    eachWord SPEC_EVT.EVT, eachWord WIN_PEND.PEND, eachWord WIN_STAT.STATE]))) ∧
  (∀ (r : Fin 64) (s : State), Framed (.dutyApply r) s (telemetryParts.append [.rail, .ph, .mem, .flt]) (telemetryWords.append
    [tableWord, oneWord MEM_EVT.EVT, eachWord MEM_OFFLINE.OFFLINE, eachWord PH_DELTA.DELTA, eachWord PH_STATE.STATE, eachWord
    RAIL_DUTY.DUTY, eachWord RAIL_EVT.EVT, eachWord RAIL_STATUS.STATE, eachWord WIN_PEND.PEND, eachWord WIN_STAT.STATE]) ∧
    (s.dev.mem.err = [] → Framed (.dutyApply r) s (telemetryParts.append [.rail, .ph, .mem, .flt]) (telemetryWords.append [oneWord
    MEM_EVT.EVT, eachWord PH_DELTA.DELTA, eachWord PH_STATE.STATE, eachWord RAIL_DUTY.DUTY, eachWord RAIL_EVT.EVT, eachWord
    RAIL_STATUS.STATE, eachWord WIN_PEND.PEND, eachWord WIN_STAT.STATE]))) ∧
  (∀ (r : Fin 64) (s : State), Framed (.switchingPeriodBoundary r) s (telemetryParts.append [.rail, .ph, .mem, .flt, .stg])
    (telemetryWords.append [coefWord, tableWord, eachWord COEF_CTL.LOAD_TAG, oneWord MEM_EVT.EVT, eachWord MEM_OFFLINE.OFFLINE,
    oneWord MODE_REQ_STAT.STATUS, eachWord PEND_STATE.LAST, eachWord PEND_WAKE.WOKEN, eachWord PH_CENTRE.CENTRE, eachWord
    PH_DELTA.DELTA, eachWord PH_HEAT.HEAT, eachWord PH_IAVG.IAVG, eachWord PH_ILIM_EFF.I_LIM_EFF, eachWord PH_STATE.STATE,
    eachWord PH_STATUS.DEG, eachWord RAIL_EVT.EVT, eachWord RAIL_STATUS.STATE, eachWord RPH_EVT.EVT, eachWord WIN_PEND.PEND,
    eachWord WIN_STAT.STATE]) ∧ (s.dev.mem.err = [] → Framed (.switchingPeriodBoundary r) s (telemetryParts.append [.rail, .ph,
    .mem, .flt, .stg]) (telemetryWords.append [coefWord, eachWord COEF_CTL.LOAD_TAG, oneWord MEM_EVT.EVT, oneWord
    MODE_REQ_STAT.STATUS, eachWord PEND_STATE.LAST, eachWord PEND_WAKE.WOKEN, eachWord PH_CENTRE.CENTRE, eachWord PH_DELTA.DELTA,
    eachWord PH_HEAT.HEAT, eachWord PH_IAVG.IAVG, eachWord PH_ILIM_EFF.I_LIM_EFF, eachWord PH_STATE.STATE, eachWord PH_STATUS.DEG,
    eachWord RAIL_EVT.EVT, eachWord RAIL_STATUS.STATE, eachWord RPH_EVT.EVT, eachWord WIN_PEND.PEND, eachWord WIN_STAT.STATE]))) ∧
  (∀ (v : RailVolts) (s : State), Framed (.catchUndershoot v) s (telemetryParts.append [.rail, .mem, .flt]) (telemetryWords.append
    [tableWord, oneWord MEM_EVT.EVT, eachWord MEM_OFFLINE.OFFLINE, eachWord RAIL_EVT.EVT, eachWord RAIL_STATUS.STATE, eachWord
    WIN_PEND.PEND, eachWord WIN_STAT.STATE]) ∧ (s.dev.mem.err = [] → Framed (.catchUndershoot v) s (telemetryParts.append [.rail,
    .mem, .flt]) (telemetryWords.append [oneWord MEM_EVT.EVT, eachWord RAIL_EVT.EVT, eachWord RAIL_STATUS.STATE, eachWord
    WIN_PEND.PEND, eachWord WIN_STAT.STATE]))) ∧
  (∀ (v : RailVolts) (s : State), Framed (.catchOvershoot v) s (telemetryParts.append [.rail, .mem, .flt]) (telemetryWords.append
    [tableWord, oneWord MEM_EVT.EVT, eachWord MEM_OFFLINE.OFFLINE, eachWord RAIL_EVT.EVT, eachWord RAIL_STATUS.STATE, eachWord
    WIN_PEND.PEND, eachWord WIN_STAT.STATE]) ∧ (s.dev.mem.err = [] → Framed (.catchOvershoot v) s (telemetryParts.append [.rail,
    .mem, .flt]) (telemetryWords.append [oneWord MEM_EVT.EVT, eachWord RAIL_EVT.EVT, eachWord RAIL_STATUS.STATE, eachWord
    WIN_PEND.PEND, eachWord WIN_STAT.STATE]))) ∧
  (∀ (v : RailVolts) (ovs : Bool) (s : State), Framed (.catchRelease v ovs) s (telemetryParts.append [.rail, .mem, .flt])
    (telemetryWords.append [tableWord, oneWord MEM_EVT.EVT, eachWord MEM_OFFLINE.OFFLINE, eachWord RAIL_EVT.EVT, eachWord
    RAIL_STATUS.STATE, eachWord WIN_PEND.PEND, eachWord WIN_STAT.STATE]) ∧ (s.dev.mem.err = [] → Framed (.catchRelease v ovs) s
    (telemetryParts.append [.rail, .mem, .flt]) (telemetryWords.append [oneWord MEM_EVT.EVT, eachWord RAIL_EVT.EVT, eachWord
    RAIL_STATUS.STATE, eachWord WIN_PEND.PEND, eachWord WIN_STAT.STATE]))) ∧
  (∀ (r : Fin 64) (s : State), Framed (.catchExpired r) s (telemetryParts.append [.rail, .mem, .flt]) (telemetryWords.append
    [tableWord, oneWord MEM_EVT.EVT, eachWord MEM_OFFLINE.OFFLINE, eachWord RAIL_EVT.EVT, eachWord RAIL_STATUS.STATE, eachWord
    WIN_PEND.PEND, eachWord WIN_STAT.STATE]) ∧ (s.dev.mem.err = [] → Framed (.catchExpired r) s (telemetryParts.append [.rail,
    .mem, .flt]) (telemetryWords.append [oneWord MEM_EVT.EVT, eachWord RAIL_EVT.EVT, eachWord RAIL_STATUS.STATE, eachWord
    WIN_PEND.PEND, eachWord WIN_STAT.STATE]))) ∧
  (∀ (r : Fin 64) (s : State), Framed (.sense r) s [.regs, .rail, .flt, .hw] [eachWord RAIL_EVT.EVT]) ∧
  (∀ (v : RailVolts) (s : State), Framed (.railOv v) s [.regs, .rail, .flt, .hw] [eachWord RAIL_EVT.EVT]) ∧
  (∀ (r : Fin 64) (s : State), Framed (.railUv r) s [.regs, .rail, .flt, .hw] [eachWord RAIL_EVT.EVT]) ∧
  (∀ (r : Fin 64) (s : State), Framed (.errorModeSwitch r) s (telemetryParts.append [.rail, .mem, .flt]) (telemetryWords.append
    [tableWord, oneWord MEM_EVT.EVT, eachWord MEM_OFFLINE.OFFLINE, eachWord RAIL_EVT.EVT, eachWord RAIL_STATUS.STATE, eachWord
    WIN_PEND.PEND, eachWord WIN_STAT.STATE]) ∧ (s.dev.mem.err = [] → Framed (.errorModeSwitch r) s (telemetryParts.append [.rail,
    .mem, .flt]) (telemetryWords.append [oneWord MEM_EVT.EVT, eachWord RAIL_EVT.EVT, eachWord RAIL_STATUS.STATE, eachWord
    WIN_PEND.PEND, eachWord WIN_STAT.STATE]))) ∧
  (∀ (r : Fin 64) (s : State), Framed (.rerangeDone r) s (telemetryParts.append [.rail, .mem, .flt]) (telemetryWords.append
    [tableWord, oneWord MEM_EVT.EVT, eachWord MEM_OFFLINE.OFFLINE, eachWord RAIL_EVT.EVT, eachWord RAIL_STATUS.STATE, eachWord
    WIN_PEND.PEND, eachWord WIN_STAT.STATE]) ∧ (s.dev.mem.err = [] → Framed (.rerangeDone r) s (telemetryParts.append [.rail,
    .mem, .flt]) (telemetryWords.append [oneWord MEM_EVT.EVT, eachWord RAIL_EVT.EVT, eachWord RAIL_STATUS.STATE, eachWord
    WIN_PEND.PEND, eachWord WIN_STAT.STATE]))) ∧
  (∀ (r : Fin 64) (s : State), Framed (.startTimeout r) s [.regs, .rail, .flt, .hw] [eachWord RAIL_EVT.EVT]) ∧
  (∀ (r : Fin 64) (s : State), Framed (.pgAssert r) s [.regs, .rail, .port] [eachWord RAIL_STATUS.STATE]) ∧
  (∀ (r : Fin 64) (s : State), Framed (.pgDeassert r) s [.regs, .rail, .port] [eachWord RAIL_STATUS.STATE]) ∧
  (∀ (r : Fin 64) (s : State), Framed (.railOc r) s [.regs, .rail, .flt, .hw] [eachWord RPH_EVT.EVT]) ∧
  (∀ (p : Fin 512) (s : State), Framed (.phFuse p) s (telemetryParts.append [.retry, .rail, .ph, .mem, .flt]) (telemetryWords.append
    [tableWord, oneWord MEM_EVT.EVT, eachWord MEM_OFFLINE.OFFLINE, eachWord PEND_WAKE.WOKEN, eachWord PH_EVT.EVT, eachWord
    PH_ILIM_EFF.I_LIM_EFF, eachWord PH_STATE.STATE, eachWord PH_STATUS.DEG, eachWord RETRY_STAT.COOL_TO, eachWord RPH_EVT.EVT]) ∧
    (s.dev.mem.err = [] → Framed (.phFuse p) s (telemetryParts.append [.retry, .rail, .ph, .mem, .flt]) (telemetryWords.append
    [oneWord MEM_EVT.EVT, eachWord PEND_WAKE.WOKEN, eachWord PH_EVT.EVT, eachWord PH_ILIM_EFF.I_LIM_EFF, eachWord PH_STATE.STATE,
    eachWord PH_STATUS.DEG, eachWord RETRY_STAT.COOL_TO, eachWord RPH_EVT.EVT]))) ∧
  (∀ (p : Fin 512) (s : State), Framed (.phStage p) s (telemetryParts.append [.retry, .rail, .ph, .mem, .flt])
    (telemetryWords.append [tableWord, oneWord MEM_EVT.EVT, eachWord MEM_OFFLINE.OFFLINE, eachWord PEND_WAKE.WOKEN, eachWord
    PH_EVT.EVT, eachWord PH_ILIM_EFF.I_LIM_EFF, eachWord PH_STATE.STATE, eachWord PH_STATUS.DEG, eachWord RETRY_STAT.COOL_TO,
    eachWord RPH_EVT.EVT]) ∧ (s.dev.mem.err = [] → Framed (.phStage p) s (telemetryParts.append [.retry, .rail, .ph, .mem, .flt])
    (telemetryWords.append [oneWord MEM_EVT.EVT, eachWord PEND_WAKE.WOKEN, eachWord PH_EVT.EVT, eachWord PH_ILIM_EFF.I_LIM_EFF,
    eachWord PH_STATE.STATE, eachWord PH_STATUS.DEG, eachWord RETRY_STAT.COOL_TO, eachWord RPH_EVT.EVT]))) ∧
  (∀ (p : Fin 512) (s : State), Framed (.phOc p) s (telemetryParts.append [.retry, .rail, .ph, .mem, .flt]) (telemetryWords.append
    [tableWord, oneWord MEM_EVT.EVT, eachWord MEM_OFFLINE.OFFLINE, eachWord PEND_WAKE.WOKEN, eachWord PH_EVT.EVT, eachWord
    PH_ILIM_EFF.I_LIM_EFF, eachWord PH_STATE.STATE, eachWord PH_STATUS.DEG, eachWord RETRY_STAT.COOL_TO, eachWord RPH_EVT.EVT]) ∧
    (s.dev.mem.err = [] → Framed (.phOc p) s (telemetryParts.append [.retry, .rail, .ph, .mem, .flt]) (telemetryWords.append
    [oneWord MEM_EVT.EVT, eachWord PEND_WAKE.WOKEN, eachWord PH_EVT.EVT, eachWord PH_ILIM_EFF.I_LIM_EFF, eachWord PH_STATE.STATE,
    eachWord PH_STATUS.DEG, eachWord RETRY_STAT.COOL_TO, eachWord RPH_EVT.EVT]))) ∧
  (∀ (p : Fin 512) (s : State), Framed (.phNeg p) s (telemetryParts.append [.retry, .rail, .ph, .mem, .flt]) (telemetryWords.append
    [tableWord, oneWord MEM_EVT.EVT, eachWord MEM_OFFLINE.OFFLINE, eachWord PEND_WAKE.WOKEN, eachWord PH_EVT.EVT, eachWord
    PH_ILIM_EFF.I_LIM_EFF, eachWord PH_STATE.STATE, eachWord PH_STATUS.DEG, eachWord RETRY_STAT.COOL_TO, eachWord RPH_EVT.EVT]) ∧
    (s.dev.mem.err = [] → Framed (.phNeg p) s (telemetryParts.append [.retry, .rail, .ph, .mem, .flt]) (telemetryWords.append
    [oneWord MEM_EVT.EVT, eachWord PEND_WAKE.WOKEN, eachWord PH_EVT.EVT, eachWord PH_ILIM_EFF.I_LIM_EFF, eachWord PH_STATE.STATE,
    eachWord PH_STATUS.DEG, eachWord RETRY_STAT.COOL_TO, eachWord RPH_EVT.EVT]))) ∧
  (∀ (p : Fin 512) (s : State), Framed (.phHot p) s (telemetryParts.append [.retry, .rail, .ph, .mem, .flt]) (telemetryWords.append
    [tableWord, oneWord MEM_EVT.EVT, eachWord MEM_OFFLINE.OFFLINE, eachWord PEND_WAKE.WOKEN, eachWord PH_EVT.EVT, eachWord
    PH_ILIM_EFF.I_LIM_EFF, eachWord PH_STATE.STATE, eachWord PH_STATUS.DEG, eachWord RETRY_STAT.COOL_TO, eachWord RPH_EVT.EVT]) ∧
    (s.dev.mem.err = [] → Framed (.phHot p) s (telemetryParts.append [.retry, .rail, .ph, .mem, .flt]) (telemetryWords.append
    [oneWord MEM_EVT.EVT, eachWord PEND_WAKE.WOKEN, eachWord PH_EVT.EVT, eachWord PH_ILIM_EFF.I_LIM_EFF, eachWord PH_STATE.STATE,
    eachWord PH_STATUS.DEG, eachWord RETRY_STAT.COOL_TO, eachWord RPH_EVT.EVT]))) ∧
  (∀ (p : Fin 512) (s : State), Framed (.phImonRange p) s (telemetryParts.append [.retry, .rail, .ph, .mem, .flt])
    (telemetryWords.append [tableWord, oneWord MEM_EVT.EVT, eachWord MEM_OFFLINE.OFFLINE, eachWord PEND_WAKE.WOKEN, eachWord
    PH_EVT.EVT, eachWord PH_ILIM_EFF.I_LIM_EFF, eachWord PH_STATE.STATE, eachWord PH_STATUS.DEG, eachWord RETRY_STAT.COOL_TO,
    eachWord RPH_EVT.EVT]) ∧ (s.dev.mem.err = [] → Framed (.phImonRange p) s (telemetryParts.append [.retry, .rail, .ph, .mem,
    .flt]) (telemetryWords.append [oneWord MEM_EVT.EVT, eachWord PEND_WAKE.WOKEN, eachWord PH_EVT.EVT, eachWord
    PH_ILIM_EFF.I_LIM_EFF, eachWord PH_STATE.STATE, eachWord PH_STATUS.DEG, eachWord RETRY_STAT.COOL_TO, eachWord RPH_EVT.EVT]))) ∧
  (∀ (p : Fin 512) (s : State), Framed (.phShare p) s (telemetryParts.append [.retry, .rail, .ph, .mem, .flt])
    (telemetryWords.append [tableWord, oneWord MEM_EVT.EVT, eachWord MEM_OFFLINE.OFFLINE, eachWord PEND_WAKE.WOKEN, eachWord
    PH_EVT.EVT, eachWord PH_ILIM_EFF.I_LIM_EFF, eachWord PH_STATE.STATE, eachWord PH_STATUS.DEG, eachWord RETRY_STAT.COOL_TO,
    eachWord RPH_EVT.EVT]) ∧ (s.dev.mem.err = [] → Framed (.phShare p) s (telemetryParts.append [.retry, .rail, .ph, .mem, .flt])
    (telemetryWords.append [oneWord MEM_EVT.EVT, eachWord PEND_WAKE.WOKEN, eachWord PH_EVT.EVT, eachWord PH_ILIM_EFF.I_LIM_EFF,
    eachWord PH_STATE.STATE, eachWord PH_STATUS.DEG, eachWord RETRY_STAT.COOL_TO, eachWord RPH_EVT.EVT]))) ∧
  (∀ (p : Fin 512) (uv : BitVec 24) (s : State), Framed (.tfltSample p uv) s [.regs, .retry, .rail, .ph, .mem, .flt, .hw] [oneWord
    MEM_EVT.EVT, eachWord PH_ILIM_EFF.I_LIM_EFF, eachWord PH_STATE.STATE, eachWord PH_STATUS.DEG, eachWord RETRY_STAT.COOL_TO,
    eachWord RPH_EVT.EVT]) ∧
  (∀ (c : Fin 632) (es : List Estimate) (s : State), Framed (.correctionUpdate c es) s [.regs, .conv, .hw] [eachWord CV_EVT.EVT,
    arrayWord CV_SLICE.AT_LIMIT]) ∧
  (∀ (c : Fin 632) (s1 : Fin 8) (s : State), Framed (.sliceDrift c s1) s [.conv, .flt] []) ∧
  (∀ (c : Fin 632) (m : CalResult) (s : State), Framed (.calSliceEnd c m) s (telemetryParts.append [.conv, .mem, .flt])
    (telemetryWords.append [tableWord, eachWord CV_EVT.EVT, arrayWord CV_SLICE.AT_LIMIT, eachWord CV_STATUS.CAL_SLICE, oneWord
    MEM_EVT.EVT, eachWord MEM_OFFLINE.OFFLINE, oneWord MODE_REQ_STAT.STATUS, eachWord OWN.STATE, eachWord SEQ_STATUS.ACTIVE]) ∧
    (s.dev.mem.err = [] → Framed (.calSliceEnd c m) s (telemetryParts.append [.conv, .mem, .flt]) (telemetryWords.append [eachWord
    CV_EVT.EVT, arrayWord CV_SLICE.AT_LIMIT, eachWord CV_STATUS.CAL_SLICE, oneWord MEM_EVT.EVT, oneWord MODE_REQ_STAT.STATUS,
    eachWord OWN.STATE, eachWord SEQ_STATUS.ACTIVE]))) ∧
  (∀ (k : Fin 8) (slot : Fin 64) (code : BitVec 12) (s : State), Framed (.scvConversion k slot code) s (telemetryParts.append [.ent,
    .br, .retry, .rail, .ph, .conv, .scv, .sage, .mem, .flt]) (telemetryWords.append (tripWords.append [tableWord, eachWord
    BR_EVT.EVT, eachWord CV_STATUS.CAL_SLICE, eachWord INJ_STAT.STATE, oneWord MEM_EVT.EVT, eachWord MEM_OFFLINE.OFFLINE, oneWord
    MODE_REQ_STAT.STATUS, eachWord SEQ_CFG.LEN, eachWord SEQ_CNT.INJ_DROP, arrayWord SEQ_ENTRY.ENTRY, eachWord SEQ_STATUS.ACTIVE,
    eachWord WIN_PEND.PEND, eachWord WIN_STAT.STATE])) ∧ (s.dev.mem.err = [] → Framed (.scvConversion k slot code) s
    (telemetryParts.append [.ent, .br, .retry, .rail, .ph, .conv, .scv, .sage, .mem, .flt]) (telemetryWords.append
    (tripWords.append [eachWord BR_EVT.EVT, eachWord CV_STATUS.CAL_SLICE, eachWord INJ_STAT.STATE, oneWord MEM_EVT.EVT, oneWord
    MODE_REQ_STAT.STATUS, eachWord SEQ_CFG.LEN, eachWord SEQ_CNT.INJ_DROP, arrayWord SEQ_ENTRY.ENTRY, eachWord SEQ_STATUS.ACTIVE,
    eachWord WIN_PEND.PEND, eachWord WIN_STAT.STATE])))) ∧
  (∀ (k : Fin 8) (s : State), Framed (.seqPassEnd k) s [.regs, .scv, .host, .hw] [oneWord MODE_REQ_STAT.STATUS, eachWord
    SEQ_CFG.LEN, eachWord SEQ_CNT.INJ_DROP, arrayWord SEQ_ENTRY.ENTRY, eachWord SEQ_STATUS.ACTIVE]) ∧
  (∀ (k : Fin 8) (s : State), Framed (.injResult k) s (telemetryParts.append [.ent, .br, .conv, .sage, .mem, .flt])
    (telemetryWords.append [tableWord, eachWord CV_STATUS.CAL_SLICE, eachWord INJ_STAMP.STAMP, eachWord INJ_STAT.STATE, oneWord
    MEM_EVT.EVT, eachWord MEM_OFFLINE.OFFLINE, eachWord SEQ_STATUS.ACTIVE, eachWord WIN_PEND.PEND, eachWord WIN_STAT.STATE]) ∧
    (s.dev.mem.err = [] → Framed (.injResult k) s (telemetryParts.append [.ent, .br, .conv, .sage, .mem, .flt])
    (telemetryWords.append [eachWord CV_STATUS.CAL_SLICE, eachWord INJ_STAMP.STAMP, eachWord INJ_STAT.STATE, oneWord MEM_EVT.EVT,
    eachWord SEQ_STATUS.ACTIVE, eachWord WIN_PEND.PEND, eachWord WIN_STAT.STATE]))) ∧
  (∀ (n : Fin 24) (code : BitVec 24) (ovr : Bool) (s : State), Framed (.icvPeriodEnd n code ovr) s [.regs, .icv, .sage, .host, .mem,
    .flt, .hw] [tableWord, eachWord ICV_RESULT.NEW, eachWord ICV_STAMP.STAMP, oneWord MEM_EVT.EVT, eachWord MEM_OFFLINE.OFFLINE,
    eachWord SG_EVT.EVT, eachWord SG_MEAS.I_PACK, eachWord SG_SOC.SOC_CNT, eachWord SG_STATUS.DISAGREE, eachWord SG_TEMPV.TEMP,
    eachWord WIN_PEND.PEND, eachWord WIN_STAT.STATE] ∧ (s.dev.mem.err = [] → Framed (.icvPeriodEnd n code ovr) s [.regs, .icv,
    .sage, .host, .flt, .hw] [eachWord ICV_RESULT.NEW, eachWord ICV_STAMP.STAMP, eachWord SG_EVT.EVT, eachWord SG_MEAS.I_PACK,
    eachWord SG_SOC.SOC_CNT, eachWord SG_STATUS.DISAGREE, eachWord SG_TEMPV.TEMP, eachWord WIN_PEND.PEND, eachWord
    WIN_STAT.STATE])) ∧
  (∀ (u : Fin 80) (s : State), Framed (.tempStale u) s [.ent, .br, .flt] []) ∧
  (∀ (p : Fin 4) (s : State), Framed (.packInsert p) s [.regs, .sage] [eachWord SG_STATUS.DISAGREE]) ∧
  (∀ (p : Fin 4) (s : State), Framed (.sageSettlingEnd p) s [.regs, .sage, .mem, .flt, .hw] [tableWord, oneWord MEM_EVT.EVT,
    eachWord MEM_OFFLINE.OFFLINE, eachWord SG_EVT.EVT, eachWord SG_SOC.SOC_CNT, eachWord SG_STATUS.DISAGREE] ∧ (s.dev.mem.err = []
    → Framed (.sageSettlingEnd p) s [.regs, .sage, .hw] [eachWord SG_EVT.EVT, eachWord SG_SOC.SOC_CNT, eachWord
    SG_STATUS.DISAGREE])) ∧
  (∀ (p : Fin 4) (s : State), Framed (.packRemove p) s [.regs, .ent, .retry, .sage, .mem, .flt, .hw] [eachWord ENT_STATUS.STATE,
    oneWord MEM_EVT.EVT, eachWord RETRY_STAT.COOL_TO, eachWord SG_CAPACITY.CAP, eachWord SG_EVT.EVT, eachWord SG_RPOL1_L.VAL,
    eachWord SG_RPOL2_L.VAL, eachWord SG_RSER_L.VAL, eachWord SG_STATUS.DISAGREE]) ∧
  (∀ (p : Fin 4) (s : State), Framed (.sageTempStale p) s [.sage, .flt] []) ∧
  (∀ (p : Fin 4) (s : State), Framed (.restPoint p) s [.regs, .sage, .mem, .flt, .hw] [tableWord, oneWord MEM_EVT.EVT, eachWord
    MEM_OFFLINE.OFFLINE, eachWord SG_CAPACITY.CAP, eachWord SG_CNT.CAP_ACC, eachWord SG_EVT.EVT, eachWord SG_GEN.GEN, eachWord
    SG_SOC.SOC_CNT, eachWord SG_STATUS.DISAGREE] ∧ (s.dev.mem.err = [] → Framed (.restPoint p) s [.regs, .sage, .hw] [eachWord
    SG_CAPACITY.CAP, eachWord SG_CNT.CAP_ACC, eachWord SG_EVT.EVT, eachWord SG_GEN.GEN, eachWord SG_SOC.SOC_CNT, eachWord
    SG_STATUS.DISAGREE])) ∧
  (∀ (p : Fin 4) (s : State), Framed (.forcedEmpty p) s [.regs, .sage, .flt, .hw] [eachWord SG_EVT.EVT, eachWord SG_SOC.SOC_CNT,
    eachWord SG_STATUS.DISAGREE]) ∧
  (∀ (p : Fin 4) (s : State), Framed (.impQualify p) s (telemetryParts.append [.sage, .mem, .flt]) (telemetryWords.append
    [tableWord, oneWord MEM_EVT.EVT, eachWord MEM_OFFLINE.OFFLINE, eachWord SG_CNT.CAP_ACC, eachWord SG_EVT.EVT, eachWord
    SG_GEN.GEN, eachWord SG_RPOL1_L.VAL, eachWord SG_RPOL2_L.VAL, eachWord SG_RSER_L.VAL, eachWord SG_STATUS.DISAGREE]) ∧
    (s.dev.mem.err = [] → Framed (.impQualify p) s (telemetryParts.append [.sage, .mem, .flt]) (telemetryWords.append [oneWord
    MEM_EVT.EVT, eachWord SG_CNT.CAP_ACC, eachWord SG_EVT.EVT, eachWord SG_GEN.GEN, eachWord SG_RPOL1_L.VAL, eachWord
    SG_RPOL2_L.VAL, eachWord SG_RSER_L.VAL, eachWord SG_STATUS.DISAGREE]))) ∧
  (∀ (p : Fin 4) (s : State), Framed (.impMeasureEnd p) s [.regs, .clk, .sage, .flt, .hw] [eachWord SG_CNT.CAP_ACC, eachWord
    SG_EVT.EVT, eachWord SG_GEN.GEN, eachWord SG_RPOL1_L.VAL, eachWord SG_RPOL2_L.VAL, eachWord SG_RSER_L.VAL, eachWord
    SG_STATUS.DISAGREE]) ∧
  (∀ (p : Fin 4) (s : State), Framed (.sageRecordBuild p) s [.regs] [eachWord SG_STATUS.DISAGREE]) ∧
  (∀ (p : Fin 4) (s : State), Framed (.sageRecordWrite p) s [.regs, .sage, .ring, .host, .hostMem, .hw] [oneWord
    MODE_REQ_STAT.STATUS, eachWord RG_PI.PI, eachWord SG_EVT.EVT, eachWord SG_STATUS.DISAGREE])

/-- What the commands of modes, sequences, supplies, boot, clocks, the selvage and the memories leave unchanged. Each clause names
the parts of the block and the register words that its command may change; its queue, every other part and every other word are
what they were. (09_faults.md, 10_modes_startup.md, 11_clocks_time.md, 16_memory_protection.md) -/
def Obligations.FramesControl : Prop :=
  (∀ (q : Req) (s : State), Framed (.modeRequestConfigure q) s (telemetryParts.append [.mode, .rail, .port, .mem, .flt])
    (telemetryWords.append [tableWord, oneWord MEM_EVT.EVT, eachWord MEM_OFFLINE.OFFLINE, oneWord MODE_REQ_STAT.STATUS, oneWord
    MODE_STATUS.CAUSE, eachWord PEND_STATE.LAST, eachWord PEND_WAKE.WOKEN, eachWord SPEC_EVT.EVT]) ∧ (s.dev.mem.err = [] → Framed
    (.modeRequestConfigure q) s (telemetryParts.append [.mode, .rail, .port, .mem, .flt]) (telemetryWords.append [oneWord
    MEM_EVT.EVT, oneWord MODE_REQ_STAT.STATUS, oneWord MODE_STATUS.CAUSE, eachWord PEND_STATE.LAST, eachWord PEND_WAKE.WOKEN,
    eachWord SPEC_EVT.EVT]))) ∧
  (∀ (q : Req) (s : State), Framed (.modeRequestRamp q) s (telemetryParts.append [.mode, .ent, .rail, .ph, .port, .mem, .flt, .stg])
    (telemetryWords.append [s.dev.stagedWord, tableWord, eachWord CORE_PEND.PEND, oneWord FLT_STATUS.DEGRADED, eachWord
    IP_STATUS.STATE, oneWord MEM_EVT.EVT, eachWord MEM_OFFLINE.OFFLINE, oneWord MODE_EVT.EVT, oneWord MODE_REQ_STAT.STATUS,
    oneWord MODE_STATUS.CAUSE, eachWord PEND_STATE.LAST, eachWord PEND_WAKE.WOKEN, eachWord PH_DELTA.DELTA, eachWord PH_HEAT.HEAT,
    eachWord PH_ILIM_EFF.I_LIM_EFF, eachWord PH_STATE.STATE, eachWord PH_STATUS.DEG, eachWord SPEC_EVT.EVT]) ∧ (s.dev.mem.err = []
    → Framed (.modeRequestRamp q) s (telemetryParts.append [.mode, .ent, .rail, .ph, .port, .mem, .flt, .stg])
    (telemetryWords.append [s.dev.stagedWord, eachWord CORE_PEND.PEND, oneWord FLT_STATUS.DEGRADED, eachWord IP_STATUS.STATE,
    oneWord MEM_EVT.EVT, oneWord MODE_EVT.EVT, oneWord MODE_REQ_STAT.STATUS, oneWord MODE_STATUS.CAUSE, eachWord PEND_STATE.LAST,
    eachWord PEND_WAKE.WOKEN, eachWord PH_DELTA.DELTA, eachWord PH_HEAT.HEAT, eachWord PH_ILIM_EFF.I_LIM_EFF, eachWord
    PH_STATE.STATE, eachWord PH_STATUS.DEG, eachWord SPEC_EVT.EVT]))) ∧
  (∀ (q : Req) (s : State), Framed (.modeRequestRun q) s (telemetryParts.append [.mode, .ent, .rail, .ph, .port, .mem, .flt, .stg])
    (telemetryWords.append [s.dev.stagedWord, tableWord, eachWord CORE_PEND.PEND, oneWord FLT_STATUS.DEGRADED, eachWord
    IP_STATUS.STATE, oneWord MEM_EVT.EVT, eachWord MEM_OFFLINE.OFFLINE, oneWord MODE_EVT.EVT, oneWord MODE_REQ_STAT.STATUS,
    oneWord MODE_STATUS.CAUSE, eachWord PEND_STATE.LAST, eachWord PEND_WAKE.WOKEN, eachWord PH_DELTA.DELTA, eachWord PH_HEAT.HEAT,
    eachWord PH_ILIM_EFF.I_LIM_EFF, eachWord PH_STATE.STATE, eachWord PH_STATUS.DEG, eachWord SPEC_EVT.EVT]) ∧ (s.dev.mem.err = []
    → Framed (.modeRequestRun q) s (telemetryParts.append [.mode, .ent, .rail, .ph, .port, .mem, .flt, .stg])
    (telemetryWords.append [s.dev.stagedWord, eachWord CORE_PEND.PEND, oneWord FLT_STATUS.DEGRADED, eachWord IP_STATUS.STATE,
    oneWord MEM_EVT.EVT, oneWord MODE_EVT.EVT, oneWord MODE_REQ_STAT.STATUS, oneWord MODE_STATUS.CAUSE, eachWord PEND_STATE.LAST,
    eachWord PEND_WAKE.WOKEN, eachWord PH_DELTA.DELTA, eachWord PH_HEAT.HEAT, eachWord PH_ILIM_EFF.I_LIM_EFF, eachWord
    PH_STATE.STATE, eachWord PH_STATUS.DEG, eachWord SPEC_EVT.EVT]))) ∧
  (∀ (q : Req) (s : State), Framed (.modeRequestSafe q) s (telemetryParts.append [.mode, .ent, .retry, .rail, .ph, .port, .mem,
    .flt, .stg]) (telemetryWords.append [coefWord, s.dev.stagedWord, tableWord, eachWord COEF_CTL.LOAD_TAG, eachWord
    CORE_PEND.PEND, eachWord ENT_STATUS.STATE, oneWord FLT_STATUS.DEGRADED, eachWord HU_SHED.SHED, eachWord IP_STATUS.STATE,
    oneWord MEM_EVT.EVT, eachWord MEM_OFFLINE.OFFLINE, oneWord MODE_EVT.EVT, oneWord MODE_REQ_STAT.STATUS, oneWord
    MODE_STATUS.CAUSE, eachWord PEND_STATE.LAST, eachWord PEND_WAKE.WOKEN, eachWord PH_DELTA.DELTA, eachWord PH_HEAT.HEAT,
    eachWord PH_ILIM_EFF.I_LIM_EFF, eachWord PH_STATE.STATE, eachWord PH_STATUS.DEG, eachWord RAIL_DUTY.DUTY, eachWord
    RAIL_EVT.EVT, eachWord RAIL_STATUS.STATE, eachWord RAIL_VREF.VREF, eachWord SPEC_EVT.EVT, eachWord WIN_PEND.PEND, eachWord
    WIN_STAT.STATE]) ∧ (s.dev.mem.err = [] → Framed (.modeRequestSafe q) s (telemetryParts.append [.mode, .ent, .retry, .rail,
    .ph, .port, .mem, .flt, .stg]) (telemetryWords.append [coefWord, s.dev.stagedWord, eachWord COEF_CTL.LOAD_TAG, eachWord
    CORE_PEND.PEND, eachWord ENT_STATUS.STATE, oneWord FLT_STATUS.DEGRADED, eachWord HU_SHED.SHED, eachWord IP_STATUS.STATE,
    oneWord MEM_EVT.EVT, oneWord MODE_EVT.EVT, oneWord MODE_REQ_STAT.STATUS, oneWord MODE_STATUS.CAUSE, eachWord PEND_STATE.LAST,
    eachWord PEND_WAKE.WOKEN, eachWord PH_DELTA.DELTA, eachWord PH_HEAT.HEAT, eachWord PH_ILIM_EFF.I_LIM_EFF, eachWord
    PH_STATE.STATE, eachWord PH_STATUS.DEG, eachWord RAIL_DUTY.DUTY, eachWord RAIL_EVT.EVT, eachWord RAIL_STATUS.STATE, eachWord
    RAIL_VREF.VREF, eachWord SPEC_EVT.EVT, eachWord WIN_PEND.PEND, eachWord WIN_STAT.STATE]))) ∧
  (∀ (q : Req) (s : State), Framed (.modeRequestClearSafe q) s (telemetryParts.append [.mem, .flt]) (telemetryWords.append
    [tableWord, oneWord MEM_EVT.EVT, eachWord MEM_OFFLINE.OFFLINE, oneWord MODE_REQ_STAT.STATUS, oneWord MODE_STATUS.CAUSE]) ∧
    (s.dev.mem.err = [] → Framed (.modeRequestClearSafe q) s (telemetryParts.append [.mem, .flt]) (telemetryWords.append [oneWord
    MEM_EVT.EVT, oneWord MODE_REQ_STAT.STATUS, oneWord MODE_STATUS.CAUSE]))) ∧
  (∀ (d1 : Desc) (s : State), Framed (.timeAlign d1) s (telemetryParts.append [.mem, .flt]) (telemetryWords.append [tableWord,
    oneWord BOOT_REC.COUNT, oneWord BOOT_REC_IDX.RECORD, oneWord CLK_EVT.EVT, oneWord EPOCH_NS.NS, oneWord EPOCH_S_HI.S_HI,
    oneWord EPOCH_S_LO.S_LO, oneWord EPOCH_TICK_HI.EPOCH_TICK, oneWord EPOCH_TICK_LO.EPOCH_TICK, oneWord MEM_EVT.EVT, eachWord
    MEM_OFFLINE.OFFLINE, oneWord MODE_REQ_STAT.STATUS, eachWord OWN.STATE, oneWord PPS_STATUS.PPS_MISS, eachWord TMR_CFG.EN]) ∧
    (s.dev.mem.err = [] → Framed (.timeAlign d1) s (telemetryParts.append [.mem, .flt]) (telemetryWords.append [oneWord
    BOOT_REC.COUNT, oneWord BOOT_REC_IDX.RECORD, oneWord CLK_EVT.EVT, oneWord EPOCH_NS.NS, oneWord EPOCH_S_HI.S_HI, oneWord
    EPOCH_S_LO.S_LO, oneWord EPOCH_TICK_HI.EPOCH_TICK, oneWord EPOCH_TICK_LO.EPOCH_TICK, oneWord MEM_EVT.EVT, oneWord
    MODE_REQ_STAT.STATUS, eachWord OWN.STATE, oneWord PPS_STATUS.PPS_MISS, eachWord TMR_CFG.EN]))) ∧
  (∀ (s : State), Framed .timeAlignTimeout s (telemetryParts.append [.mem, .flt]) (telemetryWords.append [tableWord, oneWord
    MEM_EVT.EVT, eachWord MEM_OFFLINE.OFFLINE, oneWord MODE_REQ_STAT.STATUS, eachWord OWN.STATE, oneWord PPS_STATUS.PPS_MISS,
    eachWord TMR_CFG.EN]) ∧ (s.dev.mem.err = [] → Framed .timeAlignTimeout s (telemetryParts.append [.mem, .flt])
    (telemetryWords.append [oneWord MEM_EVT.EVT, oneWord MODE_REQ_STAT.STATUS, eachWord OWN.STATE, oneWord PPS_STATUS.PPS_MISS,
    eachWord TMR_CFG.EN]))) ∧
  (∀ (d1 : Desc) (s : State), Framed (.unfence d1) s (allBut [.mode, .scv, .icv, .sage, .rq, .rqHi, .rqHead, .bmc, .keep, .stg])
    (telemetryWords.append (tripWords.append [tableWord, oneWord CLK_STATUS.LOCK, eachWord CORE_STATUS.STATE, eachWord
    CV_STATUS.CAL_SLICE, eachWord ENT_STATUS.STATE, oneWord FLT_LOST.HELD_LOST, eachWord IP_STATUS.STATE, oneWord MEM_EVT.EVT,
    eachWord MEM_OFFLINE.OFFLINE, oneWord MODE_REQ_STAT.STATUS, eachWord OWN.STATE, eachWord RAIL_STATUS.STATE, eachWord
    RG_CFG.CQ, eachWord RG_CI.CI, eachWord SEQ_STATUS.ACTIVE, arrayWord SLOT.WORD, oneWord SL_CNT.PEER_LOST, oneWord SL_EVT.EVT,
    oneWord SL_FENCED.RX, oneWord SL_STATUS.LSTATE, eachWord TW_STATUS.STATE, eachWord VC_CREDIT.LIMIT])) ∧ (s.dev.mem.err = [] →
    Framed (.unfence d1) s (allBut [.mode, .scv, .icv, .sage, .rq, .rqHi, .rqHead, .bmc, .keep, .stg]) (telemetryWords.append
    (tripWords.append [oneWord CLK_STATUS.LOCK, eachWord CORE_STATUS.STATE, eachWord CV_STATUS.CAL_SLICE, eachWord
    ENT_STATUS.STATE, oneWord FLT_LOST.HELD_LOST, eachWord IP_STATUS.STATE, oneWord MEM_EVT.EVT, eachWord MEM_OFFLINE.OFFLINE,
    oneWord MODE_REQ_STAT.STATUS, eachWord OWN.STATE, eachWord RAIL_STATUS.STATE, eachWord RG_CFG.CQ, eachWord RG_CI.CI, eachWord
    SEQ_STATUS.ACTIVE, arrayWord SLOT.WORD, oneWord SL_CNT.PEER_LOST, oneWord SL_EVT.EVT, oneWord SL_FENCED.RX, oneWord
    SL_STATUS.LSTATE, eachWord TW_STATUS.STATE, eachWord VC_CREDIT.LIMIT])))) ∧
  (∀ (d1 : Desc) (s : State), Framed (.faultAck d1) s (allBut [.scv, .sage, .rqHi, .rqHead, .bmc]) (telemetryWords.append
    (tripWords.append [coefWord, s.dev.stagedWord, tableWord, eachWord BR_EVT.EVT, oneWord CLK_STATUS.LOCK, eachWord
    COEF_CTL.LOAD_TAG, eachWord CORE_CYCLES.CYCLES, eachWord CORE_EVT.EVT, eachWord CORE_PEND.PEND, eachWord CORE_STATUS.STATE,
    eachWord CV_EVT.EVT, eachWord CV_STATUS.CAL_SLICE, eachWord ENT_EVT.EVT, eachWord ENT_STATUS.STATE, oneWord
    FLT_LOST.HELD_LOST, eachWord FLT_SAFE.SAFE_REC, oneWord FLT_SAFE_CTL.CLR, oneWord FLT_STATUS.DEGRADED, eachWord HU_SHED.SHED,
    eachWord IP_EVT.EVT, eachWord IP_STATUS.STATE, oneWord MEM_EVT.EVT, eachWord MEM_OFFLINE.OFFLINE, oneWord MODE_EVT.EVT,
    oneWord MODE_REQ_STAT.STATUS, oneWord MODE_STATUS.CAUSE, eachWord OWN.STATE, eachWord PEND_STATE.LAST, eachWord
    PEND_WAKE.WOKEN, eachWord PH_DELTA.DELTA, eachWord PH_EVT.EVT, eachWord PH_HEAT.HEAT, eachWord RAIL_DUTY.DUTY, eachWord
    RAIL_EVT.EVT, eachWord RAIL_STATUS.STATE, eachWord RAIL_VREF.VREF, eachWord RQ_STATUS.DROP, eachWord SEQ_STATUS.ACTIVE,
    eachWord SLOT.COUNT, eachWord SLOT.ESCALATED, eachWord SLOT.FENCED, eachWord SLOT.FORCED, eachWord SLOT.LAST, eachWord
    SLOT.LEVEL, eachWord SLOT.SCOPE, eachWord SLOT.SPEC, arrayWord SLOT.WORD, oneWord SL_CNT.PEER_LOST, oneWord SL_EVT.EVT,
    oneWord SL_FENCED.RX, oneWord SL_STATUS.LSTATE, eachWord SPEC_EVT.EVT, eachWord TW_ALERT.FLT_EN, eachWord TW_EVT.EVT, eachWord
    TW_STATUS.STATE, eachWord TW_XSTAT.STATE, eachWord VC_CREDIT.LIMIT, eachWord WIN_PEND.PEND, eachWord WIN_STAT.STATE])) ∧
    (s.dev.mem.err = [] → Framed (.faultAck d1) s (allBut [.scv, .sage, .rqHi, .rqHead, .bmc]) (telemetryWords.append
    (tripWords.append [coefWord, s.dev.stagedWord, eachWord BR_EVT.EVT, oneWord CLK_STATUS.LOCK, eachWord COEF_CTL.LOAD_TAG,
    eachWord CORE_CYCLES.CYCLES, eachWord CORE_EVT.EVT, eachWord CORE_PEND.PEND, eachWord CORE_STATUS.STATE, eachWord CV_EVT.EVT,
    eachWord CV_STATUS.CAL_SLICE, eachWord ENT_EVT.EVT, eachWord ENT_STATUS.STATE, oneWord FLT_LOST.HELD_LOST, eachWord
    FLT_SAFE.SAFE_REC, oneWord FLT_SAFE_CTL.CLR, oneWord FLT_STATUS.DEGRADED, eachWord HU_SHED.SHED, eachWord IP_EVT.EVT, eachWord
    IP_STATUS.STATE, oneWord MEM_EVT.EVT, eachWord MEM_OFFLINE.OFFLINE, oneWord MODE_EVT.EVT, oneWord MODE_REQ_STAT.STATUS,
    oneWord MODE_STATUS.CAUSE, eachWord OWN.STATE, eachWord PEND_STATE.LAST, eachWord PEND_WAKE.WOKEN, eachWord PH_DELTA.DELTA,
    eachWord PH_EVT.EVT, eachWord PH_HEAT.HEAT, eachWord RAIL_DUTY.DUTY, eachWord RAIL_EVT.EVT, eachWord RAIL_STATUS.STATE,
    eachWord RAIL_VREF.VREF, eachWord RQ_STATUS.DROP, eachWord SEQ_STATUS.ACTIVE, eachWord SLOT.COUNT, eachWord SLOT.ESCALATED,
    eachWord SLOT.FENCED, eachWord SLOT.FORCED, eachWord SLOT.LAST, eachWord SLOT.LEVEL, eachWord SLOT.SCOPE, eachWord SLOT.SPEC,
    arrayWord SLOT.WORD, oneWord SL_CNT.PEER_LOST, oneWord SL_EVT.EVT, oneWord SL_FENCED.RX, oneWord SL_STATUS.LSTATE, eachWord
    SPEC_EVT.EVT, eachWord TW_ALERT.FLT_EN, eachWord TW_EVT.EVT, eachWord TW_STATUS.STATE, eachWord TW_XSTAT.STATE, eachWord
    VC_CREDIT.LIMIT, eachWord WIN_PEND.PEND, eachWord WIN_STAT.STATE])))) ∧
  (∀ (a : Agent) (s : State), Framed (.thymeLoRead a) s [.clk] []) ∧
  (∀ (a : Agent) (v : Word) (s : State), Framed (.modeUnlock a v) s (telemetryParts.append [.mode, .ent, .rail, .ph, .port, .mem,
    .flt, .stg]) (telemetryWords.append [s.dev.stagedWord, tableWord, eachWord CORE_PEND.PEND, oneWord FLT_STATUS.DEGRADED,
    eachWord IP_STATUS.STATE, oneWord MEM_EVT.EVT, eachWord MEM_OFFLINE.OFFLINE, oneWord MODE_EVT.EVT, oneWord MODE_STATUS.CAUSE,
    eachWord PEND_STATE.LAST, eachWord PEND_WAKE.WOKEN, eachWord PH_DELTA.DELTA, eachWord PH_HEAT.HEAT, eachWord
    PH_ILIM_EFF.I_LIM_EFF, eachWord PH_STATE.STATE, eachWord PH_STATUS.DEG, eachWord SPEC_EVT.EVT]) ∧ (s.dev.mem.err = [] → Framed
    (.modeUnlock a v) s (telemetryParts.append [.mode, .ent, .rail, .ph, .port, .mem, .flt, .stg]) (telemetryWords.append
    [s.dev.stagedWord, eachWord CORE_PEND.PEND, oneWord FLT_STATUS.DEGRADED, eachWord IP_STATUS.STATE, oneWord MEM_EVT.EVT,
    oneWord MODE_EVT.EVT, oneWord MODE_STATUS.CAUSE, eachWord PEND_STATE.LAST, eachWord PEND_WAKE.WOKEN, eachWord PH_DELTA.DELTA,
    eachWord PH_HEAT.HEAT, eachWord PH_ILIM_EFF.I_LIM_EFF, eachWord PH_STATE.STATE, eachWord PH_STATUS.DEG, eachWord
    SPEC_EVT.EVT]))) ∧
  (∀ (a : Agent) (v : Word) (st : Straps) (s : State), Framed (.modeReset a v st) s (allBut []) [fun _ => True]) ∧
  (∀ (a : Agent) (s : State), Framed (.fltSafeClr a) s [.regs, .hw] [oneWord DEV_WIGN.MORE, oneWord DEV_WIGN_AGENT.AGENT, eachWord
    FLT_SAFE.SAFE_REC, oneWord FLT_SAFE_CTL.CLR]) ∧
  (∀ (a : Agent) (s : State), Framed (.fltInjFire a) s [.regs, .flt, .hw] [oneWord DEV_WIGN.MORE, oneWord DEV_WIGN_AGENT.AGENT,
    oneWord FLT_INJ_STAT.STATE]) ∧
  (∀ (s : State), Framed .faultInjection s (telemetryParts.append [.mode, .ent, .br, .retry, .rail, .ph, .port, .mem, .flt, .stg])
    (telemetryWords.append (tripWords.append [coefWord, s.dev.stagedWord, tableWord, eachWord BR_EVT.EVT, eachWord
    COEF_CTL.LOAD_TAG, eachWord CORE_PEND.PEND, eachWord ENT_EVT.EVT, eachWord ENT_STATUS.STATE, oneWord FLT_INJ_STAT.STATE,
    eachWord FLT_SAFE.SAFE_REC, oneWord FLT_SAFE_CTL.CLR, oneWord FLT_STATUS.DEGRADED, eachWord HU_SHED.SHED, eachWord
    IP_STATUS.STATE, oneWord MEM_EVT.EVT, eachWord MEM_OFFLINE.OFFLINE, oneWord MODE_EVT.EVT, oneWord MODE_REQ_STAT.STATUS,
    oneWord MODE_STATUS.CAUSE, eachWord PEND_STATE.LAST, eachWord PEND_WAKE.WOKEN, eachWord PH_DELTA.DELTA, eachWord PH_EVT.EVT,
    eachWord PH_HEAT.HEAT, eachWord RAIL_DUTY.DUTY, eachWord RAIL_EVT.EVT, eachWord RAIL_STATUS.STATE, eachWord RAIL_VREF.VREF,
    eachWord SPEC_EVT.EVT, eachWord WIN_PEND.PEND, eachWord WIN_STAT.STATE])) ∧ (s.dev.mem.err = [] → Framed .faultInjection s
    (telemetryParts.append [.mode, .ent, .br, .retry, .rail, .ph, .port, .mem, .flt, .stg]) (telemetryWords.append
    (tripWords.append [coefWord, s.dev.stagedWord, eachWord BR_EVT.EVT, eachWord COEF_CTL.LOAD_TAG, eachWord CORE_PEND.PEND,
    eachWord ENT_EVT.EVT, eachWord ENT_STATUS.STATE, oneWord FLT_INJ_STAT.STATE, eachWord FLT_SAFE.SAFE_REC, oneWord
    FLT_SAFE_CTL.CLR, oneWord FLT_STATUS.DEGRADED, eachWord HU_SHED.SHED, eachWord IP_STATUS.STATE, oneWord MEM_EVT.EVT, oneWord
    MODE_EVT.EVT, oneWord MODE_REQ_STAT.STATUS, oneWord MODE_STATUS.CAUSE, eachWord PEND_STATE.LAST, eachWord PEND_WAKE.WOKEN,
    eachWord PH_DELTA.DELTA, eachWord PH_EVT.EVT, eachWord PH_HEAT.HEAT, eachWord RAIL_DUTY.DUTY, eachWord RAIL_EVT.EVT, eachWord
    RAIL_STATUS.STATE, eachWord RAIL_VREF.VREF, eachWord SPEC_EVT.EVT, eachWord WIN_PEND.PEND, eachWord WIN_STAT.STATE])))) ∧
  (∀ (a : Agent) (b : BitVec 12) (s : State), Framed (.memTake a b) s (telemetryParts.append [.ent, .br, .retry, .rail, .ph, .port,
    .rq, .core, .mem, .flt, .stg]) (telemetryWords.append (tripWords.append [coefWord, tableWord, eachWord COEF_CTL.LOAD_TAG,
    eachWord CORE_CYCLES.CYCLES, eachWord CORE_EVT.EVT, eachWord CORE_STATUS.STATE, oneWord DEV_WIGN.MORE, oneWord
    DEV_WIGN_AGENT.AGENT, eachWord ENT_STATUS.STATE, oneWord MEM_EVT.EVT, eachWord MEM_OFFLINE.OFFLINE, oneWord
    MODE_REQ_STAT.STATUS, eachWord OWN.STATE, eachWord PEND_STATE.LAST, eachWord PEND_WAKE.WOKEN, eachWord PH_DELTA.DELTA,
    eachWord PH_EVT.EVT, eachWord RAIL_DUTY.DUTY, eachWord RAIL_EVT.EVT, eachWord RAIL_STATUS.STATE, eachWord RAIL_VREF.VREF,
    eachWord RQ_STATUS.DROP, eachWord SPEC_EVT.EVT, eachWord WIN_PEND.PEND, eachWord WIN_STAT.STATE])) ∧ (s.dev.mem.err = [] →
    Framed (.memTake a b) s (telemetryParts.append [.ent, .br, .retry, .rail, .ph, .port, .rq, .core, .mem, .flt, .stg])
    (telemetryWords.append (tripWords.append [coefWord, eachWord COEF_CTL.LOAD_TAG, eachWord CORE_CYCLES.CYCLES, eachWord
    CORE_EVT.EVT, eachWord CORE_STATUS.STATE, oneWord DEV_WIGN.MORE, oneWord DEV_WIGN_AGENT.AGENT, eachWord ENT_STATUS.STATE,
    oneWord MEM_EVT.EVT, eachWord MEM_OFFLINE.OFFLINE, oneWord MODE_REQ_STAT.STATUS, eachWord OWN.STATE, eachWord PEND_STATE.LAST,
    eachWord PEND_WAKE.WOKEN, eachWord PH_DELTA.DELTA, eachWord PH_EVT.EVT, eachWord RAIL_DUTY.DUTY, eachWord RAIL_EVT.EVT,
    eachWord RAIL_STATUS.STATE, eachWord RAIL_VREF.VREF, eachWord RQ_STATUS.DROP, eachWord SPEC_EVT.EVT, eachWord WIN_PEND.PEND,
    eachWord WIN_STAT.STATE])))) ∧
  (∀ (a : Agent) (s : State), Framed (.memRawRead a) s [.regs] [oneWord MEM_RAW_CHK.COL, oneWord MEM_RAW_DHI.DHI, oneWord
    MEM_RAW_DLO.DLO, oneWord MEM_RAW_STAT.DECODE]) ∧
  (∀ (a : Agent) (s : State), Framed (.memRawWrite a) s [.regs, .mem] [oneWord MEM_RAW_STAT.DECODE]) ∧
  (∀ (s : State), Framed .claimRecord s (telemetryParts.append [.mode, .mem, .flt]) (telemetryWords.append [tableWord, oneWord
    BOOT_REC.COUNT, oneWord BOOT_REC_IDX.RECORD, oneWord MEM_EVT.EVT, eachWord MEM_OFFLINE.OFFLINE, oneWord MODE_REQ_STAT.STATUS,
    eachWord OWN.STATE, oneWord PPS_STATUS.PPS_MISS, eachWord TMR_CFG.EN]) ∧ (s.dev.mem.err = [] → Framed .claimRecord s
    (telemetryParts.append [.mode, .mem, .flt]) (telemetryWords.append [oneWord BOOT_REC.COUNT, oneWord BOOT_REC_IDX.RECORD,
    oneWord MEM_EVT.EVT, oneWord MODE_REQ_STAT.STATUS, eachWord OWN.STATE, oneWord PPS_STATUS.PPS_MISS, eachWord TMR_CFG.EN]))) ∧
  (∀ (s : State), Framed .coreSectionRecord s [.regs, .mode, .mem, .flt, .hw] [tableWord, oneWord BOOT_REC.COUNT, oneWord
    BOOT_REC_IDX.RECORD, eachWord CORE_CFG.ENTRY, oneWord MEM_EVT.EVT]) ∧
  (∀ (flash : Flash) (s : State), Framed (.bootLoad flash) s (telemetryParts.append [.mode, .ent, .retry, .rail, .ph, .port, .mem,
    .flt, .stg]) (telemetryWords.append [coefWord, s.dev.stagedWord, tableWord, oneWord BOOT_STATUS.STATE, eachWord
    COEF_CTL.LOAD_TAG, eachWord CORE_PEND.PEND, eachWord ENT_STATUS.STATE, oneWord FLT_STATUS.DEGRADED, eachWord HU_SHED.SHED,
    eachWord IP_STATUS.STATE, oneWord MEM_EVT.EVT, eachWord MEM_OFFLINE.OFFLINE, oneWord MODE_EVT.EVT, oneWord
    MODE_REQ_STAT.STATUS, oneWord MODE_STATUS.CAUSE, eachWord PEND_STATE.LAST, eachWord PEND_WAKE.WOKEN, eachWord PH_DELTA.DELTA,
    eachWord PH_HEAT.HEAT, eachWord PH_ILIM_EFF.I_LIM_EFF, eachWord PH_STATE.STATE, eachWord PH_STATUS.DEG, eachWord
    RAIL_DUTY.DUTY, eachWord RAIL_EVT.EVT, eachWord RAIL_STATUS.STATE, eachWord RAIL_VREF.VREF, eachWord SPEC_EVT.EVT, eachWord
    WIN_PEND.PEND, eachWord WIN_STAT.STATE]) ∧ (s.dev.mem.err = [] → Framed (.bootLoad flash) s (telemetryParts.append [.mode,
    .ent, .retry, .rail, .ph, .port, .mem, .flt, .stg]) (telemetryWords.append [coefWord, s.dev.stagedWord, oneWord
    BOOT_STATUS.STATE, eachWord COEF_CTL.LOAD_TAG, eachWord CORE_PEND.PEND, eachWord ENT_STATUS.STATE, oneWord
    FLT_STATUS.DEGRADED, eachWord HU_SHED.SHED, eachWord IP_STATUS.STATE, oneWord MEM_EVT.EVT, oneWord MODE_EVT.EVT, oneWord
    MODE_REQ_STAT.STATUS, oneWord MODE_STATUS.CAUSE, eachWord PEND_STATE.LAST, eachWord PEND_WAKE.WOKEN, eachWord PH_DELTA.DELTA,
    eachWord PH_HEAT.HEAT, eachWord PH_ILIM_EFF.I_LIM_EFF, eachWord PH_STATE.STATE, eachWord PH_STATUS.DEG, eachWord
    RAIL_DUTY.DUTY, eachWord RAIL_EVT.EVT, eachWord RAIL_STATUS.STATE, eachWord RAIL_VREF.VREF, eachWord SPEC_EVT.EVT, eachWord
    WIN_PEND.PEND, eachWord WIN_STAT.STATE]))) ∧
  (∀ (s : State), Framed .imageCheck s (telemetryParts.append [.mode, .ent, .retry, .rail, .ph, .port, .mem, .flt, .stg])
    (telemetryWords.append [coefWord, s.dev.stagedWord, tableWord, oneWord BOOT_STATUS.STATE, eachWord COEF_CTL.LOAD_TAG, eachWord
    CORE_PEND.PEND, eachWord ENT_STATUS.STATE, oneWord FLT_STATUS.DEGRADED, eachWord HU_SHED.SHED, eachWord IP_STATUS.STATE,
    oneWord MEM_EVT.EVT, eachWord MEM_OFFLINE.OFFLINE, oneWord MODE_EVT.EVT, oneWord MODE_REQ_STAT.STATUS, oneWord
    MODE_STATUS.CAUSE, eachWord PEND_STATE.LAST, eachWord PEND_WAKE.WOKEN, eachWord PH_DELTA.DELTA, eachWord PH_HEAT.HEAT,
    eachWord PH_ILIM_EFF.I_LIM_EFF, eachWord PH_STATE.STATE, eachWord PH_STATUS.DEG, eachWord RAIL_DUTY.DUTY, eachWord
    RAIL_EVT.EVT, eachWord RAIL_STATUS.STATE, eachWord RAIL_VREF.VREF, eachWord SPEC_EVT.EVT, eachWord WIN_PEND.PEND, eachWord
    WIN_STAT.STATE])) ∧
  (∀ (s : State), Framed .imageApplied s (telemetryParts.append [.mode, .ent, .retry, .rail, .ph, .port, .core, .mem, .flt, .stg])
    (telemetryWords.append [coefWord, s.dev.stagedWord, tableWord, oneWord BOOT_STATUS.STATE, eachWord COEF_CTL.LOAD_TAG, eachWord
    CORE_PEND.PEND, eachWord CORE_STATUS.STATE, eachWord ENT_STATUS.STATE, oneWord FLT_STATUS.DEGRADED, eachWord HU_SHED.SHED,
    eachWord IP_STATUS.STATE, oneWord MEM_EVT.EVT, eachWord MEM_OFFLINE.OFFLINE, oneWord MODE_EVT.EVT, oneWord
    MODE_REQ_STAT.STATUS, oneWord MODE_STATUS.CAUSE, eachWord PEND_STATE.LAST, eachWord PEND_WAKE.WOKEN, eachWord PH_DELTA.DELTA,
    eachWord PH_HEAT.HEAT, eachWord PH_ILIM_EFF.I_LIM_EFF, eachWord PH_STATE.STATE, eachWord PH_STATUS.DEG, eachWord
    RAIL_DUTY.DUTY, eachWord RAIL_EVT.EVT, eachWord RAIL_STATUS.STATE, eachWord RAIL_VREF.VREF, eachWord SPEC_EVT.EVT, eachWord
    WIN_PEND.PEND, eachWord WIN_STAT.STATE]) ∧ (s.dev.mem.err = [] → Framed .imageApplied s (telemetryParts.append [.mode, .ent,
    .retry, .rail, .ph, .port, .core, .mem, .flt, .stg]) (telemetryWords.append [coefWord, s.dev.stagedWord, oneWord
    BOOT_STATUS.STATE, eachWord COEF_CTL.LOAD_TAG, eachWord CORE_PEND.PEND, eachWord CORE_STATUS.STATE, eachWord ENT_STATUS.STATE,
    oneWord FLT_STATUS.DEGRADED, eachWord HU_SHED.SHED, eachWord IP_STATUS.STATE, oneWord MEM_EVT.EVT, oneWord MODE_EVT.EVT,
    oneWord MODE_REQ_STAT.STATUS, oneWord MODE_STATUS.CAUSE, eachWord PEND_STATE.LAST, eachWord PEND_WAKE.WOKEN, eachWord
    PH_DELTA.DELTA, eachWord PH_HEAT.HEAT, eachWord PH_ILIM_EFF.I_LIM_EFF, eachWord PH_STATE.STATE, eachWord PH_STATUS.DEG,
    eachWord RAIL_DUTY.DUTY, eachWord RAIL_EVT.EVT, eachWord RAIL_STATUS.STATE, eachWord RAIL_VREF.VREF, eachWord SPEC_EVT.EVT,
    eachWord WIN_PEND.PEND, eachWord WIN_STAT.STATE]))) ∧
  (∀ (s : State), Framed .mainSupplyFail s (allBut []) [fun _ => True]) ∧
  (∀ (st : Straps) (s : State), Framed (.suppliesGood st) s [.regs, .clk, .keep] [oneWord DEV_STATUS.BOOT_SEL]) ∧
  (∀ (st : Straps) (s : State), Framed (.resetN st) s (allBut []) [fun _ => True]) ∧
  (∀ (s : State), Framed .pePerstN s (telemetryParts.append [.mem, .flt]) (telemetryWords.append [tableWord, oneWord MEM_EVT.EVT,
    eachWord MEM_OFFLINE.OFFLINE, eachWord RG_CFG.CQ]) ∧ (s.dev.mem.err = [] → Framed .pePerstN s (telemetryParts.append [.mem,
    .flt]) (telemetryWords.append [oneWord MEM_EVT.EVT, eachWord RG_CFG.CQ]))) ∧
  (∀ (s : State), Framed .safeDelayExpire s (telemetryParts.append [.mode, .ent, .br, .retry, .rail, .ph, .mem, .flt])
    (telemetryWords.append (tripWords.append [tableWord, eachWord BR_EVT.EVT, eachWord ENT_EVT.EVT, eachWord ENT_STATUS.STATE,
    oneWord MEM_EVT.EVT, eachWord MEM_OFFLINE.OFFLINE])) ∧ (s.dev.mem.err = [] → Framed .safeDelayExpire s (telemetryParts.append
    [.mode, .ent, .br, .retry, .rail, .ph, .mem, .flt]) (telemetryWords.append (tripWords.append [eachWord BR_EVT.EVT, eachWord
    ENT_EVT.EVT, eachWord ENT_STATUS.STATE, oneWord MEM_EVT.EVT])))) ∧
  (∀ (s : State), Framed .entryOn s (telemetryParts.append [.mode, .ent, .retry, .mem, .flt]) (telemetryWords.append [tableWord,
    eachWord ENT_STATUS.STATE, oneWord MEM_EVT.EVT, eachWord MEM_OFFLINE.OFFLINE, oneWord MODE_EVT.EVT, oneWord MODE_STATUS.CAUSE,
    eachWord RETRY_STAT.COOL_TO]) ∧ (s.dev.mem.err = [] → Framed .entryOn s (telemetryParts.append [.mode, .ent, .retry, .mem,
    .flt]) (telemetryWords.append [eachWord ENT_STATUS.STATE, oneWord MEM_EVT.EVT, oneWord MODE_EVT.EVT, oneWord
    MODE_STATUS.CAUSE, eachWord RETRY_STAT.COOL_TO]))) ∧
  (∀ (s : State), Framed .branchOn s (telemetryParts.append [.mode, .br, .retry, .rail, .ph, .mem, .flt]) (telemetryWords.append
    (tripWords.append [tableWord, oneWord MEM_EVT.EVT, eachWord MEM_OFFLINE.OFFLINE, oneWord MODE_EVT.EVT, oneWord
    MODE_STATUS.CAUSE])) ∧ (s.dev.mem.err = [] → Framed .branchOn s (telemetryParts.append [.mode, .br, .retry, .rail, .ph, .mem,
    .flt]) (telemetryWords.append (tripWords.append [oneWord MEM_EVT.EVT, oneWord MODE_EVT.EVT, oneWord MODE_STATUS.CAUSE])))) ∧
  (∀ (s : State), Framed .railOn s [.regs, .mode, .rail, .mem, .flt, .hw] [tableWord, oneWord MEM_EVT.EVT, eachWord
    MEM_OFFLINE.OFFLINE, oneWord MODE_EVT.EVT, oneWord MODE_STATUS.CAUSE, eachWord RAIL_STATUS.STATE] ∧ (s.dev.mem.err = [] →
    Framed .railOn s [.regs, .mode, .rail, .flt, .hw] [oneWord MODE_EVT.EVT, oneWord MODE_STATUS.CAUSE, eachWord
    RAIL_STATUS.STATE])) ∧
  (∀ (s : State), Framed .delay s [.regs, .mode, .mem, .flt, .hw] [tableWord, oneWord MEM_EVT.EVT, eachWord MEM_OFFLINE.OFFLINE] ∧
    (s.dev.mem.err = [] → Framed .delay s [.mode] [])) ∧
  (∀ (s : State), Framed .seqDelayExpire s [.regs, .mode] [oneWord MODE_STATUS.CAUSE]) ∧
  (∀ (s : State), Framed .waitEntry s [.regs, .mode, .mem, .flt, .hw] [tableWord, oneWord MEM_EVT.EVT, eachWord MEM_OFFLINE.OFFLINE]
    ∧ (s.dev.mem.err = [] → Framed .waitEntry s [.mode] [])) ∧
  (∀ (s : State), Framed .waitBranch s [.regs, .mode, .mem, .flt, .hw] [tableWord, oneWord MEM_EVT.EVT, eachWord
    MEM_OFFLINE.OFFLINE] ∧ (s.dev.mem.err = [] → Framed .waitBranch s [.mode] [])) ∧
  (∀ (s : State), Framed .waitPg s [.regs, .mode, .mem, .flt, .hw] [tableWord, oneWord MEM_EVT.EVT, eachWord MEM_OFFLINE.OFFLINE] ∧
    (s.dev.mem.err = [] → Framed .waitPg s [.mode] [])) ∧
  (∀ (s : State), Framed .waitRailOff s [.regs, .mode, .mem, .flt, .hw] [tableWord, oneWord MEM_EVT.EVT, eachWord
    MEM_OFFLINE.OFFLINE] ∧ (s.dev.mem.err = [] → Framed .waitRailOff s [.mode] [])) ∧
  (∀ (s : State), Framed .seqWaitDone s [.regs, .mode] [oneWord MODE_STATUS.CAUSE]) ∧
  (∀ (s : State), Framed .seqWaitTimeout s [.regs, .mode, .hw] [oneWord MODE_EVT.EVT, oneWord MODE_STATUS.CAUSE]) ∧
  (∀ (s : State), Framed .entryOff s (telemetryParts.append [.mode, .ent, .retry, .mem, .flt]) (telemetryWords.append [tableWord,
    eachWord ENT_EVT.EVT, eachWord ENT_STATUS.STATE, oneWord MEM_EVT.EVT, eachWord MEM_OFFLINE.OFFLINE, oneWord MODE_EVT.EVT,
    oneWord MODE_STATUS.CAUSE, eachWord RETRY_STAT.COOL_TO]) ∧ (s.dev.mem.err = [] → Framed .entryOff s (telemetryParts.append
    [.mode, .ent, .retry, .mem, .flt]) (telemetryWords.append [eachWord ENT_EVT.EVT, eachWord ENT_STATUS.STATE, oneWord
    MEM_EVT.EVT, oneWord MODE_EVT.EVT, oneWord MODE_STATUS.CAUSE, eachWord RETRY_STAT.COOL_TO]))) ∧
  (∀ (s : State), Framed .branchOff s (telemetryParts.append [.mode, .br, .retry, .rail, .ph, .mem, .flt]) (telemetryWords.append
    (tripWords.append [tableWord, eachWord BR_EVT.EVT, oneWord MEM_EVT.EVT, eachWord MEM_OFFLINE.OFFLINE, oneWord MODE_EVT.EVT,
    oneWord MODE_STATUS.CAUSE])) ∧ (s.dev.mem.err = [] → Framed .branchOff s (telemetryParts.append [.mode, .br, .retry, .rail,
    .ph, .mem, .flt]) (telemetryWords.append (tripWords.append [eachWord BR_EVT.EVT, oneWord MEM_EVT.EVT, oneWord MODE_EVT.EVT,
    oneWord MODE_STATUS.CAUSE])))) ∧
  (∀ (s : State), Framed .railOff s (telemetryParts.append [.mode, .rail, .ph, .port, .mem, .flt, .stg]) (telemetryWords.append
    [coefWord, tableWord, eachWord COEF_CTL.LOAD_TAG, oneWord MEM_EVT.EVT, eachWord MEM_OFFLINE.OFFLINE, oneWord MODE_EVT.EVT,
    oneWord MODE_REQ_STAT.STATUS, oneWord MODE_STATUS.CAUSE, eachWord PEND_STATE.LAST, eachWord PEND_WAKE.WOKEN, eachWord
    PH_DELTA.DELTA, eachWord PH_ILIM_EFF.I_LIM_EFF, eachWord PH_STATE.STATE, eachWord PH_STATUS.DEG, eachWord RAIL_DUTY.DUTY,
    eachWord RAIL_EVT.EVT, eachWord RAIL_STATUS.STATE, eachWord RAIL_VREF.VREF, eachWord SPEC_EVT.EVT, eachWord WIN_PEND.PEND,
    eachWord WIN_STAT.STATE]) ∧ (s.dev.mem.err = [] → Framed .railOff s (telemetryParts.append [.mode, .rail, .ph, .port, .mem,
    .flt, .stg]) (telemetryWords.append [coefWord, eachWord COEF_CTL.LOAD_TAG, oneWord MEM_EVT.EVT, oneWord MODE_EVT.EVT, oneWord
    MODE_REQ_STAT.STATUS, oneWord MODE_STATUS.CAUSE, eachWord PEND_STATE.LAST, eachWord PEND_WAKE.WOKEN, eachWord PH_DELTA.DELTA,
    eachWord PH_ILIM_EFF.I_LIM_EFF, eachWord PH_STATE.STATE, eachWord PH_STATUS.DEG, eachWord RAIL_DUTY.DUTY, eachWord
    RAIL_EVT.EVT, eachWord RAIL_STATUS.STATE, eachWord RAIL_VREF.VREF, eachWord SPEC_EVT.EVT, eachWord WIN_PEND.PEND, eachWord
    WIN_STAT.STATE]))) ∧
  (∀ (s : State), Framed .seqEnd s (allBut [.conv, .scv, .icv, .sage, .rqHi, .rqHead, .stream, .tw, .bmc, .link])
    (telemetryWords.append (tripWords.append [coefWord, s.dev.stagedWord, tableWord, oneWord BOOT_REC.COUNT, oneWord
    BOOT_REC_IDX.RECORD, oneWord BOOT_STATUS.STATE, eachWord BR_EVT.EVT, eachWord COEF_CTL.LOAD_TAG, eachWord CORE_CYCLES.CYCLES,
    eachWord CORE_PEND.PEND, eachWord CORE_STATUS.STATE, eachWord CV_STATUS.CAL_SLICE, eachWord ENT_EVT.EVT, eachWord
    ENT_STATUS.STATE, oneWord FLT_STATUS.DEGRADED, oneWord HOST_USED.USED, eachWord IP_STATUS.STATE, oneWord MEM_EVT.EVT, eachWord
    MEM_OFFLINE.OFFLINE, oneWord MEM_STATUS.INIT_DONE, oneWord MODE_EVT.EVT, oneWord MODE_REQ_STAT.STATUS, oneWord
    MODE_STATUS.CAUSE, eachWord OWN.STATE, eachWord PEND_PB.PB, eachWord PEND_STATE.LAST, eachWord PEND_UINT.UINT, eachWord
    PEND_WAKE.WOKEN, eachWord PH_DELTA.DELTA, eachWord PH_HEAT.HEAT, oneWord PPS_STATUS.PPS_MISS, eachWord RAIL_DUTY.DUTY,
    eachWord RAIL_EVT.EVT, eachWord RAIL_STATUS.STATE, eachWord RAIL_VREF.VREF, eachWord RG_CFG.CQ, eachWord RG_CI.CI, eachWord
    RQ_STATUS.DROP, eachWord SPEC_EVT.EVT, eachWord TMR_CFG.EN, eachWord WIN_PEND.PEND, eachWord WIN_STAT.STATE]))) ∧
  (∀ (st : Fin 8) (s : State), Framed (.holdupStageShed st) s (telemetryParts.append [.mode, .rail, .ph, .port, .mem, .flt, .stg])
    (telemetryWords.append [coefWord, tableWord, eachWord COEF_CTL.LOAD_TAG, eachWord HU_SHED.SHED, oneWord MEM_EVT.EVT, eachWord
    MEM_OFFLINE.OFFLINE, oneWord MODE_EVT.EVT, oneWord MODE_REQ_STAT.STATUS, eachWord PEND_STATE.LAST, eachWord PEND_WAKE.WOKEN,
    eachWord PH_DELTA.DELTA, eachWord PH_ILIM_EFF.I_LIM_EFF, eachWord PH_STATE.STATE, eachWord PH_STATUS.DEG, eachWord
    RAIL_DUTY.DUTY, eachWord RAIL_EVT.EVT, eachWord RAIL_STATUS.STATE, eachWord RAIL_VREF.VREF, eachWord SPEC_EVT.EVT, eachWord
    WIN_PEND.PEND, eachWord WIN_STAT.STATE]) ∧ (s.dev.mem.err = [] → Framed (.holdupStageShed st) s (telemetryParts.append [.mode,
    .rail, .ph, .port, .mem, .flt, .stg]) (telemetryWords.append [coefWord, eachWord COEF_CTL.LOAD_TAG, eachWord HU_SHED.SHED,
    oneWord MEM_EVT.EVT, oneWord MODE_EVT.EVT, oneWord MODE_REQ_STAT.STATUS, eachWord PEND_STATE.LAST, eachWord PEND_WAKE.WOKEN,
    eachWord PH_DELTA.DELTA, eachWord PH_ILIM_EFF.I_LIM_EFF, eachWord PH_STATE.STATE, eachWord PH_STATUS.DEG, eachWord
    RAIL_DUTY.DUTY, eachWord RAIL_EVT.EVT, eachWord RAIL_STATUS.STATE, eachWord RAIL_VREF.VREF, eachWord SPEC_EVT.EVT, eachWord
    WIN_PEND.PEND, eachWord WIN_STAT.STATE]))) ∧
  (∀ (s : State), Framed .restoreStage s (telemetryParts.append [.mode, .rail, .mem, .flt]) (telemetryWords.append [tableWord,
    eachWord HU_SHED.SHED, oneWord MEM_EVT.EVT, eachWord MEM_OFFLINE.OFFLINE, oneWord MODE_EVT.EVT, eachWord RAIL_STATUS.STATE]) ∧
    (s.dev.mem.err = [] → Framed .restoreStage s (telemetryParts.append [.mode, .rail, .mem, .flt]) (telemetryWords.append
    [eachWord HU_SHED.SHED, oneWord MEM_EVT.EVT, oneWord MODE_EVT.EVT, eachWord RAIL_STATUS.STATE]))) ∧
  (∀ (n : Fin 16) (s : State), Framed (.holdupEngage n) s (telemetryParts.append [.mode, .ent, .retry, .rail, .ph, .port, .mem,
    .flt, .stg]) (telemetryWords.append [s.dev.stagedWord, tableWord, eachWord CORE_PEND.PEND, eachWord ENT_EVT.EVT, eachWord
    ENT_STATUS.STATE, oneWord FLT_STATUS.DEGRADED, eachWord HU_SHED.SHED, eachWord IP_STATUS.STATE, oneWord MEM_EVT.EVT, eachWord
    MEM_OFFLINE.OFFLINE, oneWord MODE_EVT.EVT, oneWord MODE_STATUS.CAUSE, eachWord PEND_STATE.LAST, eachWord PEND_WAKE.WOKEN,
    eachWord PH_DELTA.DELTA, eachWord PH_HEAT.HEAT, eachWord PH_ILIM_EFF.I_LIM_EFF, eachWord PH_STATE.STATE, eachWord
    PH_STATUS.DEG, eachWord RETRY_STAT.COOL_TO, eachWord SPEC_EVT.EVT]) ∧ (s.dev.mem.err = [] → Framed (.holdupEngage n) s
    (telemetryParts.append [.mode, .ent, .retry, .rail, .ph, .port, .mem, .flt, .stg]) (telemetryWords.append [s.dev.stagedWord,
    eachWord CORE_PEND.PEND, eachWord ENT_EVT.EVT, eachWord ENT_STATUS.STATE, oneWord FLT_STATUS.DEGRADED, eachWord HU_SHED.SHED,
    eachWord IP_STATUS.STATE, oneWord MEM_EVT.EVT, oneWord MODE_EVT.EVT, oneWord MODE_STATUS.CAUSE, eachWord PEND_STATE.LAST,
    eachWord PEND_WAKE.WOKEN, eachWord PH_DELTA.DELTA, eachWord PH_HEAT.HEAT, eachWord PH_ILIM_EFF.I_LIM_EFF, eachWord
    PH_STATE.STATE, eachWord PH_STATUS.DEG, eachWord RETRY_STAT.COOL_TO, eachWord SPEC_EVT.EVT]))) ∧
  (∀ (s : State), Framed .holdupExit s (telemetryParts.append [.mode, .ent, .retry, .rail, .ph, .port, .mem, .flt, .stg])
    (telemetryWords.append [s.dev.stagedWord, tableWord, eachWord CORE_PEND.PEND, eachWord ENT_EVT.EVT, eachWord ENT_STATUS.STATE,
    oneWord FLT_STATUS.DEGRADED, eachWord HU_SHED.SHED, eachWord IP_STATUS.STATE, oneWord MEM_EVT.EVT, eachWord
    MEM_OFFLINE.OFFLINE, oneWord MODE_EVT.EVT, oneWord MODE_STATUS.CAUSE, eachWord PEND_STATE.LAST, eachWord PEND_WAKE.WOKEN,
    eachWord PH_DELTA.DELTA, eachWord PH_HEAT.HEAT, eachWord PH_ILIM_EFF.I_LIM_EFF, eachWord PH_STATE.STATE, eachWord
    PH_STATUS.DEG, eachWord RETRY_STAT.COOL_TO, eachWord SPEC_EVT.EVT]) ∧ (s.dev.mem.err = [] → Framed .holdupExit s
    (telemetryParts.append [.mode, .ent, .retry, .rail, .ph, .port, .mem, .flt, .stg]) (telemetryWords.append [s.dev.stagedWord,
    eachWord CORE_PEND.PEND, eachWord ENT_EVT.EVT, eachWord ENT_STATUS.STATE, oneWord FLT_STATUS.DEGRADED, eachWord HU_SHED.SHED,
    eachWord IP_STATUS.STATE, oneWord MEM_EVT.EVT, oneWord MODE_EVT.EVT, oneWord MODE_STATUS.CAUSE, eachWord PEND_STATE.LAST,
    eachWord PEND_WAKE.WOKEN, eachWord PH_DELTA.DELTA, eachWord PH_HEAT.HEAT, eachWord PH_ILIM_EFF.I_LIM_EFF, eachWord
    PH_STATE.STATE, eachWord PH_STATUS.DEG, eachWord RETRY_STAT.COOL_TO, eachWord SPEC_EVT.EVT]))) ∧
  (∀ (s : State), Framed .keepEnter s (telemetryParts.append [.mode, .ent, .br, .retry, .rail, .ph, .icv, .mem, .flt, .keep])
    (telemetryWords.append (tripWords.append [tableWord, eachWord BR_EVT.EVT, eachWord ENT_EVT.EVT, eachWord ENT_STATUS.STATE,
    oneWord MEM_EVT.EVT, eachWord MEM_OFFLINE.OFFLINE])) ∧ (s.dev.mem.err = [] → Framed .keepEnter s (telemetryParts.append
    [.mode, .ent, .br, .retry, .rail, .ph, .icv, .mem, .flt, .keep]) (telemetryWords.append (tripWords.append [eachWord
    BR_EVT.EVT, eachWord ENT_EVT.EVT, eachWord ENT_STATUS.STATE, oneWord MEM_EVT.EVT])))) ∧
  (∀ (u : Fin 80) (s : State), Framed (.keepTrip u) s (telemetryParts.append [.ent, .br, .retry, .rail, .ph, .mem, .flt])
    (telemetryWords.append (tripWords.append [tableWord, eachWord ENT_STATUS.STATE, oneWord MEM_EVT.EVT, eachWord
    MEM_OFFLINE.OFFLINE])) ∧ (s.dev.mem.err = [] → Framed (.keepTrip u) s (telemetryParts.append [.ent, .br, .retry, .rail, .ph,
    .mem, .flt]) (telemetryWords.append (tripWords.append [eachWord ENT_STATUS.STATE, oneWord MEM_EVT.EVT])))) ∧
  (∀ (s : State), Framed .keepExpire s (telemetryParts.append [.mode, .ent, .br, .retry, .rail, .ph, .mem, .flt, .keep])
    (telemetryWords.append (tripWords.append [tableWord, eachWord BR_EVT.EVT, eachWord ENT_EVT.EVT, eachWord ENT_STATUS.STATE,
    oneWord MEM_EVT.EVT, eachWord MEM_OFFLINE.OFFLINE])) ∧ (s.dev.mem.err = [] → Framed .keepExpire s (telemetryParts.append
    [.mode, .ent, .br, .retry, .rail, .ph, .mem, .flt, .keep]) (telemetryWords.append (tripWords.append [eachWord BR_EVT.EVT,
    eachWord ENT_EVT.EVT, eachWord ENT_STATUS.STATE, oneWord MEM_EVT.EVT])))) ∧
  (∀ (s : State), Framed .keepRelease s (telemetryParts.append [.mode, .ent, .br, .retry, .rail, .ph, .icv, .mem, .flt, .keep])
    (telemetryWords.append (tripWords.append [tableWord, eachWord BR_EVT.EVT, eachWord ENT_EVT.EVT, eachWord ENT_STATUS.STATE,
    oneWord FLT_LOST.HELD_LOST, oneWord MEM_EVT.EVT, eachWord MEM_OFFLINE.OFFLINE])) ∧ (s.dev.mem.err = [] → Framed .keepRelease s
    (telemetryParts.append [.mode, .ent, .br, .retry, .rail, .ph, .icv, .mem, .flt, .keep]) (telemetryWords.append
    (tripWords.append [eachWord BR_EVT.EVT, eachWord ENT_EVT.EVT, eachWord ENT_STATUS.STATE, oneWord FLT_LOST.HELD_LOST, oneWord
    MEM_EVT.EVT])))) ∧
  (∀ (s : State), Framed .faultOccurrence s (allBut [.scv, .sage, .rqHi, .rqHead, .bmc]) (telemetryWords.append (tripWords.append
    [coefWord, s.dev.stagedWord, tableWord, eachWord BR_EVT.EVT, oneWord CLK_STATUS.LOCK, eachWord COEF_CTL.LOAD_TAG, eachWord
    CORE_CYCLES.CYCLES, eachWord CORE_EVT.EVT, eachWord CORE_PEND.PEND, eachWord CORE_STATUS.STATE, eachWord CV_EVT.EVT, eachWord
    CV_STATUS.CAL_SLICE, eachWord ENT_EVT.EVT, eachWord ENT_STATUS.STATE, oneWord FLT_LOST.HELD_LOST, eachWord FLT_SAFE.SAFE_REC,
    oneWord FLT_SAFE_CTL.CLR, oneWord FLT_STATUS.DEGRADED, eachWord HU_SHED.SHED, eachWord IP_EVT.EVT, eachWord IP_STATUS.STATE,
    oneWord MEM_EVT.EVT, eachWord MEM_OFFLINE.OFFLINE, oneWord MODE_EVT.EVT, oneWord MODE_REQ_STAT.STATUS, oneWord
    MODE_STATUS.CAUSE, eachWord OWN.STATE, eachWord PEND_STATE.LAST, eachWord PEND_WAKE.WOKEN, eachWord PH_DELTA.DELTA, eachWord
    PH_EVT.EVT, eachWord PH_HEAT.HEAT, eachWord RAIL_DUTY.DUTY, eachWord RAIL_EVT.EVT, eachWord RAIL_STATUS.STATE, eachWord
    RAIL_VREF.VREF, eachWord RQ_STATUS.DROP, eachWord SEQ_STATUS.ACTIVE, eachWord SLOT.COUNT, eachWord SLOT.ESCALATED, eachWord
    SLOT.FENCED, eachWord SLOT.FORCED, eachWord SLOT.LAST, eachWord SLOT.LEVEL, eachWord SLOT.SCOPE, eachWord SLOT.SPEC, arrayWord
    SLOT.WORD, oneWord SL_CNT.PEER_LOST, oneWord SL_EVT.EVT, oneWord SL_FENCED.RX, oneWord SL_STATUS.LSTATE, eachWord
    SPEC_EVT.EVT, eachWord TW_ALERT.FLT_EN, eachWord TW_EVT.EVT, eachWord TW_STATUS.STATE, eachWord TW_XSTAT.STATE, eachWord
    VC_CREDIT.LIMIT, eachWord WIN_PEND.PEND, eachWord WIN_STAT.STATE])) ∧ (s.dev.mem.err = [] → Framed .faultOccurrence s (allBut
    [.scv, .sage, .rqHi, .rqHead, .bmc]) (telemetryWords.append (tripWords.append [coefWord, s.dev.stagedWord, eachWord
    BR_EVT.EVT, oneWord CLK_STATUS.LOCK, eachWord COEF_CTL.LOAD_TAG, eachWord CORE_CYCLES.CYCLES, eachWord CORE_EVT.EVT, eachWord
    CORE_PEND.PEND, eachWord CORE_STATUS.STATE, eachWord CV_EVT.EVT, eachWord CV_STATUS.CAL_SLICE, eachWord ENT_EVT.EVT, eachWord
    ENT_STATUS.STATE, oneWord FLT_LOST.HELD_LOST, eachWord FLT_SAFE.SAFE_REC, oneWord FLT_SAFE_CTL.CLR, oneWord
    FLT_STATUS.DEGRADED, eachWord HU_SHED.SHED, eachWord IP_EVT.EVT, eachWord IP_STATUS.STATE, oneWord MEM_EVT.EVT, eachWord
    MEM_OFFLINE.OFFLINE, oneWord MODE_EVT.EVT, oneWord MODE_REQ_STAT.STATUS, oneWord MODE_STATUS.CAUSE, eachWord OWN.STATE,
    eachWord PEND_STATE.LAST, eachWord PEND_WAKE.WOKEN, eachWord PH_DELTA.DELTA, eachWord PH_EVT.EVT, eachWord PH_HEAT.HEAT,
    eachWord RAIL_DUTY.DUTY, eachWord RAIL_EVT.EVT, eachWord RAIL_STATUS.STATE, eachWord RAIL_VREF.VREF, eachWord RQ_STATUS.DROP,
    eachWord SEQ_STATUS.ACTIVE, eachWord SLOT.COUNT, eachWord SLOT.ESCALATED, eachWord SLOT.FENCED, eachWord SLOT.FORCED, eachWord
    SLOT.LAST, eachWord SLOT.LEVEL, eachWord SLOT.SCOPE, eachWord SLOT.SPEC, arrayWord SLOT.WORD, oneWord SL_CNT.PEER_LOST,
    oneWord SL_EVT.EVT, oneWord SL_FENCED.RX, oneWord SL_STATUS.LSTATE, eachWord SPEC_EVT.EVT, eachWord TW_ALERT.FLT_EN, eachWord
    TW_EVT.EVT, eachWord TW_STATUS.STATE, eachWord TW_XSTAT.STATE, eachWord VC_CREDIT.LIMIT, eachWord WIN_PEND.PEND, eachWord
    WIN_STAT.STATE])))) ∧
  (∀ (s1 : Fin 256) (s : State), Framed (.mergeWindowClose s1) s [.regs, .slot, .ring, .host, .hostMem, .mem, .flt, .hw] [tableWord,
    oneWord MEM_EVT.EVT, eachWord MEM_OFFLINE.OFFLINE, eachWord RG_PI.PI, arrayWord SLOT.WORD] ∧ (s.dev.mem.err = [] → Framed
    (.mergeWindowClose s1) s [.regs, .slot, .ring, .host, .hostMem, .mem, .flt, .hw] [oneWord MEM_EVT.EVT, eachWord RG_PI.PI,
    arrayWord SLOT.WORD])) ∧
  (∀ (s : State), Framed .lockstep s (telemetryParts.append [.mode, .ent, .retry, .rail, .ph, .port, .mem, .flt, .stg])
    (telemetryWords.append [coefWord, s.dev.stagedWord, tableWord, eachWord COEF_CTL.LOAD_TAG, eachWord CORE_PEND.PEND, eachWord
    ENT_STATUS.STATE, eachWord FLT_SAFE.SAFE_REC, oneWord FLT_SAFE_CTL.CLR, oneWord FLT_STATUS.DEGRADED, eachWord HU_SHED.SHED,
    eachWord IP_STATUS.STATE, oneWord MEM_EVT.EVT, eachWord MEM_OFFLINE.OFFLINE, oneWord MODE_EVT.EVT, oneWord
    MODE_REQ_STAT.STATUS, oneWord MODE_STATUS.CAUSE, eachWord PEND_STATE.LAST, eachWord PEND_WAKE.WOKEN, eachWord PH_DELTA.DELTA,
    eachWord PH_HEAT.HEAT, eachWord PH_ILIM_EFF.I_LIM_EFF, eachWord PH_STATE.STATE, eachWord PH_STATUS.DEG, eachWord
    RAIL_DUTY.DUTY, eachWord RAIL_EVT.EVT, eachWord RAIL_STATUS.STATE, eachWord RAIL_VREF.VREF, eachWord SPEC_EVT.EVT, eachWord
    WIN_PEND.PEND, eachWord WIN_STAT.STATE]) ∧ (s.dev.mem.err = [] → Framed .lockstep s (telemetryParts.append [.mode, .ent,
    .retry, .rail, .ph, .port, .mem, .flt, .stg]) (telemetryWords.append [coefWord, s.dev.stagedWord, eachWord COEF_CTL.LOAD_TAG,
    eachWord CORE_PEND.PEND, eachWord ENT_STATUS.STATE, eachWord FLT_SAFE.SAFE_REC, oneWord FLT_SAFE_CTL.CLR, oneWord
    FLT_STATUS.DEGRADED, eachWord HU_SHED.SHED, eachWord IP_STATUS.STATE, oneWord MEM_EVT.EVT, oneWord MODE_EVT.EVT, oneWord
    MODE_REQ_STAT.STATUS, oneWord MODE_STATUS.CAUSE, eachWord PEND_STATE.LAST, eachWord PEND_WAKE.WOKEN, eachWord PH_DELTA.DELTA,
    eachWord PH_HEAT.HEAT, eachWord PH_ILIM_EFF.I_LIM_EFF, eachWord PH_STATE.STATE, eachWord PH_STATUS.DEG, eachWord
    RAIL_DUTY.DUTY, eachWord RAIL_EVT.EVT, eachWord RAIL_STATUS.STATE, eachWord RAIL_VREF.VREF, eachWord SPEC_EVT.EVT, eachWord
    WIN_PEND.PEND, eachWord WIN_STAT.STATE]))) ∧
  (∀ (cause : Fin 3) (s : State), Framed (.clkRoot cause) s (telemetryParts.append [.mode, .ent, .retry, .rail, .ph, .port, .core,
    .mem, .flt, .stg]) (telemetryWords.append [coefWord, s.dev.stagedWord, tableWord, oneWord CLK_STATUS.LOCK, eachWord
    COEF_CTL.LOAD_TAG, eachWord CORE_CYCLES.CYCLES, eachWord CORE_PEND.PEND, eachWord ENT_STATUS.STATE, eachWord
    FLT_SAFE.SAFE_REC, oneWord FLT_SAFE_CTL.CLR, oneWord FLT_STATUS.DEGRADED, eachWord HU_SHED.SHED, eachWord IP_STATUS.STATE,
    oneWord MEM_EVT.EVT, eachWord MEM_OFFLINE.OFFLINE, oneWord MODE_EVT.EVT, oneWord MODE_REQ_STAT.STATUS, oneWord
    MODE_STATUS.CAUSE, eachWord PEND_STATE.LAST, eachWord PEND_WAKE.WOKEN, eachWord PH_DELTA.DELTA, eachWord PH_HEAT.HEAT,
    eachWord PH_ILIM_EFF.I_LIM_EFF, eachWord PH_STATE.STATE, eachWord PH_STATUS.DEG, eachWord RAIL_DUTY.DUTY, eachWord
    RAIL_EVT.EVT, eachWord RAIL_STATUS.STATE, eachWord RAIL_VREF.VREF, eachWord SPEC_EVT.EVT, eachWord WIN_PEND.PEND, eachWord
    WIN_STAT.STATE]) ∧ (s.dev.mem.err = [] → Framed (.clkRoot cause) s (telemetryParts.append [.mode, .ent, .retry, .rail, .ph,
    .port, .core, .mem, .flt, .stg]) (telemetryWords.append [coefWord, s.dev.stagedWord, oneWord CLK_STATUS.LOCK, eachWord
    COEF_CTL.LOAD_TAG, eachWord CORE_CYCLES.CYCLES, eachWord CORE_PEND.PEND, eachWord ENT_STATUS.STATE, eachWord
    FLT_SAFE.SAFE_REC, oneWord FLT_SAFE_CTL.CLR, oneWord FLT_STATUS.DEGRADED, eachWord HU_SHED.SHED, eachWord IP_STATUS.STATE,
    oneWord MEM_EVT.EVT, oneWord MODE_EVT.EVT, oneWord MODE_REQ_STAT.STATUS, oneWord MODE_STATUS.CAUSE, eachWord PEND_STATE.LAST,
    eachWord PEND_WAKE.WOKEN, eachWord PH_DELTA.DELTA, eachWord PH_HEAT.HEAT, eachWord PH_ILIM_EFF.I_LIM_EFF, eachWord
    PH_STATE.STATE, eachWord PH_STATUS.DEG, eachWord RAIL_DUTY.DUTY, eachWord RAIL_EVT.EVT, eachWord RAIL_STATUS.STATE, eachWord
    RAIL_VREF.VREF, eachWord SPEC_EVT.EVT, eachWord WIN_PEND.PEND, eachWord WIN_STAT.STATE]))) ∧
  (∀ (b : DieDrift) (s : State), Framed (.thymeBroadcast b) s [.clk, .flt, .link] []) ∧
  (∀ (s : State), Framed .ppsEdge s (telemetryParts.append [.scv, .mem, .flt]) (telemetryWords.append [tableWord, oneWord
    CLK_EVT.EVT, oneWord EPOCH_NS.NS, oneWord EPOCH_S_HI.S_HI, oneWord EPOCH_S_LO.S_LO, oneWord EPOCH_TICK_HI.EPOCH_TICK, oneWord
    EPOCH_TICK_LO.EPOCH_TICK, oneWord MEM_EVT.EVT, eachWord MEM_OFFLINE.OFFLINE, oneWord MODE_REQ_STAT.STATUS, eachWord OWN.STATE,
    oneWord PPS_DRIFT.DRIFT, oneWord PPS_STATUS.PPS_MISS, eachWord SEQ_CFG.LEN, eachWord SEQ_CNT.INJ_DROP, arrayWord
    SEQ_ENTRY.ENTRY, eachWord SEQ_STATUS.ACTIVE, eachWord TMR_CAPT_HI.CAPT_HI, eachWord TMR_CAPT_LO.CAPT_LO, eachWord TMR_CFG.EN])
    ∧ (s.dev.mem.err = [] → Framed .ppsEdge s (telemetryParts.append [.scv, .mem, .flt]) (telemetryWords.append [oneWord
    CLK_EVT.EVT, oneWord EPOCH_NS.NS, oneWord EPOCH_S_HI.S_HI, oneWord EPOCH_S_LO.S_LO, oneWord EPOCH_TICK_HI.EPOCH_TICK, oneWord
    EPOCH_TICK_LO.EPOCH_TICK, oneWord MEM_EVT.EVT, oneWord MODE_REQ_STAT.STATUS, eachWord OWN.STATE, oneWord PPS_DRIFT.DRIFT,
    oneWord PPS_STATUS.PPS_MISS, eachWord SEQ_CFG.LEN, eachWord SEQ_CNT.INJ_DROP, arrayWord SEQ_ENTRY.ENTRY, eachWord
    SEQ_STATUS.ACTIVE, eachWord TMR_CAPT_HI.CAPT_HI, eachWord TMR_CAPT_LO.CAPT_LO, eachWord TMR_CFG.EN]))) ∧
  (∀ (s : State), Framed .ppsWindowMiss s [.regs, .clk, .ring, .host, .hostMem, .hw] [oneWord CLK_EVT.EVT, oneWord EPOCH_NS.NS,
    oneWord EPOCH_S_HI.S_HI, oneWord EPOCH_S_LO.S_LO, oneWord EPOCH_TICK_HI.EPOCH_TICK, oneWord EPOCH_TICK_LO.EPOCH_TICK, oneWord
    PPS_STATUS.PPS_MISS, eachWord RG_PI.PI]) ∧
  (∀ (t : Fin 32) (s : State), Framed (.timerFire t) s [.regs, .clk, .scv, .host, .hw] [eachWord CORE_PEND.PEND, oneWord
    MODE_REQ_STAT.STATUS, eachWord SEQ_CFG.LEN, eachWord SEQ_CNT.INJ_DROP, arrayWord SEQ_ENTRY.ENTRY, eachWord SEQ_STATUS.ACTIVE,
    eachWord TMR_CMP_HI.CMP_HI, eachWord TMR_CMP_LO.CMP_LO, eachWord TMR_STATUS.LATE]) ∧
  (∀ (k : Fin 3) (m : RegionDiff) (s : State), Framed (.regionSample k m) s (telemetryParts.append [.mem, .flt])
    (telemetryWords.append [tableWord, oneWord MEM_EVT.EVT, eachWord MEM_OFFLINE.OFFLINE, eachWord REG_LINK.OUT]) ∧ (s.dev.mem.err
    = [] → Framed (.regionSample k m) s (telemetryParts.append [.mem, .flt]) (telemetryWords.append [oneWord MEM_EVT.EVT, eachWord
    REG_LINK.OUT]))) ∧
  (∀ (k : Fin 3) (s : State), Framed (.regionFault k) s [.regs, .clk, .flt, .hw] [oneWord CLK_EVT.EVT]) ∧
  (∀ (l : Fin 8) (s : State), Framed (.linkLost l) s (telemetryParts.append [.mode, .ent, .br, .retry, .rail, .ph, .icv, .mem, .flt,
    .keep, .link]) (telemetryWords.append (tripWords.append [tableWord, eachWord BR_EVT.EVT, eachWord ENT_EVT.EVT, eachWord
    ENT_STATUS.STATE, oneWord MEM_EVT.EVT, eachWord MEM_OFFLINE.OFFLINE, eachWord PEND_WAKE.WOKEN, eachWord PH_DELTA.DELTA,
    eachWord PH_EVT.EVT])) ∧ (s.dev.mem.err = [] → Framed (.linkLost l) s (telemetryParts.append [.mode, .ent, .br, .retry, .rail,
    .ph, .icv, .mem, .flt, .keep, .link]) (telemetryWords.append (tripWords.append [eachWord BR_EVT.EVT, eachWord ENT_EVT.EVT,
    eachWord ENT_STATUS.STATE, oneWord MEM_EVT.EVT, eachWord PEND_WAKE.WOKEN, eachWord PH_DELTA.DELTA, eachWord PH_EVT.EVT])))) ∧
  (∀ (l : Fin 8) (s : State), Framed (.linkError l) s [.flt] []) ∧
  (∀ (l : Fin 8) (s : State), Framed (.linkReturn l) s (telemetryParts.append [.rail, .ph, .mem, .flt, .link])
    (telemetryWords.append [tableWord, oneWord FLT_LOST.HELD_LOST, oneWord MEM_EVT.EVT, eachWord MEM_OFFLINE.OFFLINE, eachWord
    PH_ILIM_EFF.I_LIM_EFF, eachWord PH_STATE.STATE, eachWord PH_STATUS.DEG, eachWord RPH_EVT.EVT]) ∧ (s.dev.mem.err = [] → Framed
    (.linkReturn l) s (telemetryParts.append [.rail, .ph, .mem, .flt, .link]) (telemetryWords.append [oneWord FLT_LOST.HELD_LOST,
    oneWord MEM_EVT.EVT, eachWord PH_ILIM_EFF.I_LIM_EFF, eachWord PH_STATE.STATE, eachWord PH_STATUS.DEG, eachWord RPH_EVT.EVT]))) ∧
  (∀ (r : Fin 6) (s : State), Framed (.scrubVisit r) s [.regs, .mem, .flt, .hw] [tableWord, oneWord MEM_EVT.EVT, eachWord
    MEM_OFFLINE.OFFLINE, oneWord MEM_PASS.PASSES]) ∧
  (∀ (bad : List Nat) (s : State), s.dev.mem.stall = [] → Framed (.initDone bad) s [.regs, .conv, .mem, .flt, .hw] [eachWord
    CV_STATUS.CAL_SLICE, oneWord MEM_EVT.EVT, eachWord MEM_OFFLINE.OFFLINE, oneWord MEM_STATUS.INIT_DONE, eachWord
    SEQ_STATUS.ACTIVE]) ∧
  (∀ (b : BitVec 12) (s : State), Framed (.bankCopyDone b) s (telemetryParts.append [.mem, .flt]) (telemetryWords.append [tableWord,
    oneWord MEM_EVT.EVT, eachWord MEM_OFFLINE.OFFLINE, oneWord MODE_REQ_STAT.STATUS]) ∧ (s.dev.mem.err = [] → Framed
    (.bankCopyDone b) s (telemetryParts.append [.mem, .flt]) (telemetryWords.append [oneWord MEM_EVT.EVT, eachWord
    MEM_OFFLINE.OFFLINE, oneWord MODE_REQ_STAT.STATUS]))) ∧
  (∀ (st : Straps) (s : State), Framed (.refclkReturn st) s (allBut []) [fun _ => True]) ∧
  (∀ (s : State), Framed .rootPllLock s (allBut [.conv, .scv, .sage, .rqHi, .rqHead, .stream, .tw, .bmc, .link])
    (telemetryWords.append (tripWords.append [coefWord, s.dev.stagedWord, tableWord, oneWord BOOT_REC.COUNT, oneWord
    BOOT_REC_IDX.RECORD, oneWord BOOT_STATUS.STATE, oneWord CLK_STATUS.LOCK, eachWord COEF_CTL.LOAD_TAG, eachWord
    CORE_CYCLES.CYCLES, eachWord CORE_PEND.PEND, eachWord CORE_STATUS.STATE, eachWord CV_STATUS.CAL_SLICE, eachWord
    ENT_STATUS.STATE, oneWord FLT_LOST.HELD_LOST, oneWord FLT_STATUS.DEGRADED, oneWord HOST_USED.USED, eachWord IP_STATUS.STATE,
    oneWord MEM_EVT.EVT, eachWord MEM_OFFLINE.OFFLINE, oneWord MEM_STATUS.INIT_DONE, oneWord MODE_EVT.EVT, oneWord
    MODE_REQ_STAT.STATUS, oneWord MODE_STATUS.CAUSE, eachWord OWN.STATE, eachWord PEND_PB.PB, eachWord PEND_STATE.LAST, eachWord
    PEND_UINT.UINT, eachWord PEND_WAKE.WOKEN, eachWord PH_DELTA.DELTA, eachWord PH_HEAT.HEAT, oneWord PPS_STATUS.PPS_MISS,
    eachWord RAIL_DUTY.DUTY, eachWord RAIL_EVT.EVT, eachWord RAIL_STATUS.STATE, eachWord RAIL_VREF.VREF, eachWord RG_CFG.CQ,
    eachWord RG_CI.CI, eachWord RQ_STATUS.DROP, eachWord SPEC_EVT.EVT, eachWord TMR_CFG.EN, eachWord TW_STATUS.STATE, eachWord
    WIN_PEND.PEND, eachWord WIN_STAT.STATE])))

/-- What the descriptors, the rings, the threads and the register commands leave unchanged. Each clause names the parts of the block
and the register words that its command may change; its queue, every other part and every other word are what they were.
(01_architecture.md, 12_host_rings.md, 17_register_map.md) -/
def Obligations.FramesHost : Prop :=
  (∀ (d : Dev) (a x : Nat) (bs : List Byte), (∀ k, k < bs.length → x % 2 ^ 48 ≠ (a + k) % 2 ^ 48) → (d.hWr a bs).hRd x 1 = d.hRd x
    1) ∧
  (∀ (d1 : Desc) (s : State), Framed (.nop d1) s (telemetryParts.append [.mem, .flt]) (telemetryWords.append [tableWord, oneWord
    MEM_EVT.EVT, eachWord MEM_OFFLINE.OFFLINE, oneWord MODE_REQ_STAT.STATUS]) ∧ (s.dev.mem.err = [] → Framed (.nop d1) s
    (telemetryParts.append [.mem, .flt]) (telemetryWords.append [oneWord MEM_EVT.EVT, oneWord MODE_REQ_STAT.STATUS]))) ∧
  (∀ (d1 : Desc) (s : State), Framed (.fence d1) s (telemetryParts.append [.mem, .flt]) (telemetryWords.append [tableWord, oneWord
    MEM_EVT.EVT, eachWord MEM_OFFLINE.OFFLINE, oneWord MODE_REQ_STAT.STATUS]) ∧ (s.dev.mem.err = [] → Framed (.fence d1) s
    (telemetryParts.append [.mem, .flt]) (telemetryWords.append [oneWord MEM_EVT.EVT, oneWord MODE_REQ_STAT.STATUS]))) ∧
  (∀ (s : State), Framed .fenceMarkerPlace s (telemetryParts.append [.mem, .flt]) (telemetryWords.append [tableWord, oneWord
    MEM_EVT.EVT, eachWord MEM_OFFLINE.OFFLINE, oneWord MODE_REQ_STAT.STATUS]) ∧ (s.dev.mem.err = [] → Framed .fenceMarkerPlace s
    (telemetryParts.append [.mem, .flt]) (telemetryWords.append [oneWord MEM_EVT.EVT, oneWord MODE_REQ_STAT.STATUS]))) ∧
  (∀ (d1 : Desc) (s : State), Framed (.resClaim d1) s (telemetryParts.append [.mem, .flt]) (telemetryWords.append [tableWord,
    oneWord BOOT_REC.COUNT, oneWord BOOT_REC_IDX.RECORD, oneWord MEM_EVT.EVT, eachWord MEM_OFFLINE.OFFLINE, oneWord
    MODE_REQ_STAT.STATUS, eachWord OWN.STATE, oneWord PPS_STATUS.PPS_MISS, eachWord TMR_CFG.EN]) ∧ (s.dev.mem.err = [] → Framed
    (.resClaim d1) s (telemetryParts.append [.mem, .flt]) (telemetryWords.append [oneWord BOOT_REC.COUNT, oneWord
    BOOT_REC_IDX.RECORD, oneWord MEM_EVT.EVT, oneWord MODE_REQ_STAT.STATUS, eachWord OWN.STATE, oneWord PPS_STATUS.PPS_MISS,
    eachWord TMR_CFG.EN]))) ∧
  (∀ (d1 : Desc) (s : State), Framed (.resRelease d1) s (telemetryParts.append [.mem, .flt]) (telemetryWords.append [tableWord,
    oneWord MEM_EVT.EVT, eachWord MEM_OFFLINE.OFFLINE, oneWord MODE_REQ_STAT.STATUS, eachWord OWN.STATE, oneWord
    PPS_STATUS.PPS_MISS, eachWord TMR_CFG.EN]) ∧ (s.dev.mem.err = [] → Framed (.resRelease d1) s (telemetryParts.append [.mem,
    .flt]) (telemetryWords.append [oneWord MEM_EVT.EVT, oneWord MODE_REQ_STAT.STATUS, eachWord OWN.STATE, oneWord
    PPS_STATUS.PPS_MISS, eachWord TMR_CFG.EN]))) ∧
  (∀ (d1 : Desc) (s : State), Framed (.railSet d1) s (telemetryParts.append [.rail, .mem, .flt, .stg]) (telemetryWords.append
    [tableWord, oneWord MEM_EVT.EVT, eachWord MEM_OFFLINE.OFFLINE, oneWord MODE_REQ_STAT.STATUS, eachWord RAIL_STATUS.STATE,
    eachWord RAIL_TARGET.TARGET]) ∧ (s.dev.mem.err = [] → Framed (.railSet d1) s (telemetryParts.append [.rail, .mem, .flt, .stg])
    (telemetryWords.append [oneWord MEM_EVT.EVT, oneWord MODE_REQ_STAT.STATUS, eachWord RAIL_STATUS.STATE, eachWord
    RAIL_TARGET.TARGET]))) ∧
  (∀ (d1 : Desc) (s : State), Framed (.railEnable d1) s (telemetryParts.append [.rail, .mem, .flt]) (telemetryWords.append
    [tableWord, oneWord MEM_EVT.EVT, eachWord MEM_OFFLINE.OFFLINE, oneWord MODE_REQ_STAT.STATUS, eachWord RAIL_STATUS.STATE]) ∧
    (s.dev.mem.err = [] → Framed (.railEnable d1) s (telemetryParts.append [.rail, .mem, .flt]) (telemetryWords.append [oneWord
    MEM_EVT.EVT, oneWord MODE_REQ_STAT.STATUS, eachWord RAIL_STATUS.STATE]))) ∧
  (∀ (d1 : Desc) (s : State), Framed (.railDisable d1) s (telemetryParts.append [.rail, .ph, .port, .mem, .flt, .stg])
    (telemetryWords.append [coefWord, tableWord, eachWord COEF_CTL.LOAD_TAG, oneWord MEM_EVT.EVT, eachWord MEM_OFFLINE.OFFLINE,
    oneWord MODE_REQ_STAT.STATUS, eachWord PEND_STATE.LAST, eachWord PEND_WAKE.WOKEN, eachWord PH_DELTA.DELTA, eachWord
    PH_ILIM_EFF.I_LIM_EFF, eachWord PH_STATE.STATE, eachWord PH_STATUS.DEG, eachWord RAIL_DUTY.DUTY, eachWord RAIL_EVT.EVT,
    eachWord RAIL_STATUS.STATE, eachWord RAIL_VREF.VREF, eachWord SPEC_EVT.EVT, eachWord WIN_PEND.PEND, eachWord WIN_STAT.STATE])
    ∧ (s.dev.mem.err = [] → Framed (.railDisable d1) s (telemetryParts.append [.rail, .ph, .port, .mem, .flt, .stg])
    (telemetryWords.append [coefWord, eachWord COEF_CTL.LOAD_TAG, oneWord MEM_EVT.EVT, oneWord MODE_REQ_STAT.STATUS, eachWord
    PEND_STATE.LAST, eachWord PEND_WAKE.WOKEN, eachWord PH_DELTA.DELTA, eachWord PH_ILIM_EFF.I_LIM_EFF, eachWord PH_STATE.STATE,
    eachWord PH_STATUS.DEG, eachWord RAIL_DUTY.DUTY, eachWord RAIL_EVT.EVT, eachWord RAIL_STATUS.STATE, eachWord RAIL_VREF.VREF,
    eachWord SPEC_EVT.EVT, eachWord WIN_PEND.PEND, eachWord WIN_STAT.STATE]))) ∧
  (∀ (d1 : Desc) (s : State), Framed (.phaseMask d1) s (telemetryParts.append [.rail, .mem, .flt]) (telemetryWords.append
    [tableWord, oneWord MEM_EVT.EVT, eachWord MEM_OFFLINE.OFFLINE, oneWord MODE_REQ_STAT.STATUS, eachWord PH_ILIM_EFF.I_LIM_EFF,
    eachWord PH_STATUS.DEG]) ∧ (s.dev.mem.err = [] → Framed (.phaseMask d1) s (telemetryParts.append [.rail, .mem, .flt])
    (telemetryWords.append [oneWord MEM_EVT.EVT, oneWord MODE_REQ_STAT.STATUS, eachWord PH_ILIM_EFF.I_LIM_EFF, eachWord
    PH_STATUS.DEG]))) ∧
  (∀ (d1 : Desc) (s : State), Framed (.coefLoad d1) s (telemetryParts.append [.rail, .mem, .flt, .stg]) (telemetryWords.append
    [coefWord, tableWord, eachWord COEF_CTL.LOAD_TAG, oneWord MEM_EVT.EVT, eachWord MEM_OFFLINE.OFFLINE, oneWord
    MODE_REQ_STAT.STATUS]) ∧ (s.dev.mem.err = [] → Framed (.coefLoad d1) s (telemetryParts.append [.rail, .mem, .flt, .stg])
    (telemetryWords.append [coefWord, eachWord COEF_CTL.LOAD_TAG, oneWord MEM_EVT.EVT, oneWord MODE_REQ_STAT.STATUS]))) ∧
  (∀ (d1 : Desc) (s : State), Framed (.fusePolicyLoad d1) s (telemetryParts.append [.mem, .flt]) (telemetryWords.append [tableWord,
    oneWord MEM_EVT.EVT, eachWord MEM_OFFLINE.OFFLINE, oneWord MODE_REQ_STAT.STATUS])) ∧
  (∀ (d1 : Desc) (err : Bool) (s : State), Framed (.tableLoad d1 err) s (telemetryParts.append [.rail, .mem, .flt])
    (telemetryWords.append [tableWord, oneWord MEM_EVT.EVT, eachWord MEM_OFFLINE.OFFLINE, oneWord MODE_REQ_STAT.STATUS])) ∧
  (∀ (d1 : Desc) (s : State), Framed (.seqLoad d1) s (telemetryParts.append [.scv, .mem, .flt]) (telemetryWords.append [tableWord,
    oneWord MEM_EVT.EVT, eachWord MEM_OFFLINE.OFFLINE, oneWord MODE_REQ_STAT.STATUS, eachWord SEQ_CFG.LEN, arrayWord
    SEQ_ENTRY.ENTRY, eachWord SEQ_STATUS.ACTIVE]) ∧ (s.dev.mem.err = [] → Framed (.seqLoad d1) s (telemetryParts.append [.scv,
    .mem, .flt]) (telemetryWords.append [oneWord MEM_EVT.EVT, oneWord MODE_REQ_STAT.STATUS, eachWord SEQ_CFG.LEN, arrayWord
    SEQ_ENTRY.ENTRY, eachWord SEQ_STATUS.ACTIVE]))) ∧
  (∀ (d1 : Desc) (s : State), Framed (.threadOpen d1) s (telemetryParts.append [.mem, .flt]) (telemetryWords.append [tableWord,
    arrayWord CTX.CFG32, oneWord HOST_USED.USED, oneWord MEM_EVT.EVT, eachWord MEM_OFFLINE.OFFLINE, oneWord MODE_REQ_STAT.STATUS])
    ∧ (s.dev.mem.err = [] → Framed (.threadOpen d1) s (telemetryParts.append [.mem, .flt]) (telemetryWords.append [arrayWord
    CTX.CFG32, oneWord HOST_USED.USED, oneWord MEM_EVT.EVT, oneWord MODE_REQ_STAT.STATUS]))) ∧
  (∀ (d1 : Desc) (s : State), Framed (.threadModify d1) s (telemetryParts.append [.mem, .flt]) (telemetryWords.append [tableWord,
    arrayWord CTX.CFG32, oneWord HOST_USED.USED, oneWord MEM_EVT.EVT, eachWord MEM_OFFLINE.OFFLINE, oneWord MODE_REQ_STAT.STATUS])
    ∧ (s.dev.mem.err = [] → Framed (.threadModify d1) s (telemetryParts.append [.mem, .flt]) (telemetryWords.append [arrayWord
    CTX.CFG32, oneWord HOST_USED.USED, oneWord MEM_EVT.EVT, oneWord MODE_REQ_STAT.STATUS]))) ∧
  (∀ (d1 : Desc) (s : State), Framed (.threadClose d1) s (telemetryParts.append [.mem, .flt]) (telemetryWords.append [tableWord,
    oneWord MEM_EVT.EVT, eachWord MEM_OFFLINE.OFFLINE, oneWord MODE_REQ_STAT.STATUS]) ∧ (s.dev.mem.err = [] → Framed (.threadClose
    d1) s (telemetryParts.append [.mem, .flt]) (telemetryWords.append [oneWord MEM_EVT.EVT, oneWord MODE_REQ_STAT.STATUS]))) ∧
  (∀ (t : Fin 4096) (s : State), Framed (.threadCloseDone t) s (telemetryParts.append [.mem, .flt]) (telemetryWords.append
    [tableWord, oneWord HOST_USED.USED, oneWord MEM_EVT.EVT, eachWord MEM_OFFLINE.OFFLINE, oneWord MODE_REQ_STAT.STATUS]) ∧
    (s.dev.mem.err = [] → Framed (.threadCloseDone t) s (telemetryParts.append [.mem, .flt]) (telemetryWords.append [oneWord
    HOST_USED.USED, oneWord MEM_EVT.EVT, oneWord MODE_REQ_STAT.STATUS]))) ∧
  (∀ (d1 : Desc) (s : State), Framed (.packRestore d1) s (telemetryParts.append [.mem, .flt]) (telemetryWords.append [tableWord,
    oneWord MEM_EVT.EVT, eachWord MEM_OFFLINE.OFFLINE, oneWord MODE_REQ_STAT.STATUS, eachWord SG_CAPACITY.CAP, eachWord
    SG_EVT.EVT, eachWord SG_GEN.GEN, eachWord SG_RPOL1_L.VAL, eachWord SG_RPOL2_L.VAL, eachWord SG_RSER_L.VAL, eachWord
    SG_STATUS.DISAGREE]) ∧ (s.dev.mem.err = [] → Framed (.packRestore d1) s (telemetryParts.append [.mem, .flt])
    (telemetryWords.append [oneWord MEM_EVT.EVT, oneWord MODE_REQ_STAT.STATUS, eachWord SG_CAPACITY.CAP, eachWord SG_EVT.EVT,
    eachWord SG_GEN.GEN, eachWord SG_RPOL1_L.VAL, eachWord SG_RPOL2_L.VAL, eachWord SG_RSER_L.VAL, eachWord SG_STATUS.DISAGREE]))) ∧
  (∀ (d1 : Desc) (s : State), Framed (.packRead d1) s (telemetryParts.append [.sage, .mem, .flt]) (telemetryWords.append [tableWord,
    oneWord MEM_EVT.EVT, eachWord MEM_OFFLINE.OFFLINE, oneWord MODE_REQ_STAT.STATUS, eachWord SG_STATUS.DISAGREE]) ∧
    (s.dev.mem.err = [] → Framed (.packRead d1) s (telemetryParts.append [.sage, .mem, .flt]) (telemetryWords.append [oneWord
    MEM_EVT.EVT, oneWord MODE_REQ_STAT.STATUS, eachWord SG_STATUS.DISAGREE]))) ∧
  (∀ (s : State), Framed .descriptorFetch s (telemetryParts.append [.mem, .flt]) (telemetryWords.append [tableWord, oneWord
    MEM_EVT.EVT, eachWord MEM_OFFLINE.OFFLINE, oneWord MODE_REQ_STAT.STATUS])) ∧
  (∀ (r : Src) (s : State), Framed (.descFetchTimeout r) s [.regs, .ring, .flt] [eachWord RG_STATUS.STATE]) ∧
  (∀ (r : Src) (s : State), Framed (.descFetchError r) s [.regs, .ring, .flt] [eachWord RG_STATUS.STATE]) ∧
  (∀ (r : Src) (s : State), Framed (.completionRetire r) s (telemetryParts.append [.bmc, .mem, .flt]) (telemetryWords.append
    [tableWord, oneWord MEM_EVT.EVT, eachWord MEM_OFFLINE.OFFLINE, eachWord RG_CI.CI])) ∧
  (∀ (e : Fin 256) (s : State), Framed (.eventRecordWrite e) s (telemetryParts.append [.slot, .mem, .flt]) (telemetryWords.append
    [tableWord, oneWord MEM_EVT.EVT, eachWord MEM_OFFLINE.OFFLINE]) ∧ (s.dev.mem.err = [] → Framed (.eventRecordWrite e) s
    (telemetryParts.append [.slot, .mem, .flt]) (telemetryWords.append [oneWord MEM_EVT.EVT]))) ∧
  (∀ (r : Fin 384) (s : State), Framed (.itrWindowClose r) s [.ring, .host] []) ∧
  (∀ (r : Fin 384) (s : State), Framed (.ringStall r) s [.ring, .flt] []) ∧
  (∀ (a : Agent) (r : Fin 384) (s : State), Framed (.ringEnable a r) s (telemetryParts.append [.slot, .mem, .flt])
    (telemetryWords.append [tableWord, oneWord CLK_STATUS.LOCK, oneWord DEV_WIGN.MORE, oneWord DEV_WIGN_AGENT.AGENT, oneWord
    MEM_EVT.EVT, eachWord MEM_OFFLINE.OFFLINE, eachWord RG_CFG.CQ, eachWord RG_CI.CI, arrayWord SLOT.WORD]) ∧ (s.dev.mem.err = []
    → Framed (.ringEnable a r) s (telemetryParts.append [.slot, .mem, .flt]) (telemetryWords.append [oneWord CLK_STATUS.LOCK,
    oneWord DEV_WIGN.MORE, oneWord DEV_WIGN_AGENT.AGENT, oneWord MEM_EVT.EVT, eachWord RG_CFG.CQ, eachWord RG_CI.CI, arrayWord
    SLOT.WORD]))) ∧
  (∀ (a : Agent) (r : Fin 384) (s : State), Framed (.ringDisable a r) s (telemetryParts.append [.mem, .flt]) (telemetryWords.append
    [tableWord, oneWord DEV_WIGN.MORE, oneWord DEV_WIGN_AGENT.AGENT, oneWord MEM_EVT.EVT, eachWord MEM_OFFLINE.OFFLINE, eachWord
    RG_CFG.CQ]) ∧ (s.dev.mem.err = [] → Framed (.ringDisable a r) s (telemetryParts.append [.mem, .flt]) (telemetryWords.append
    [oneWord DEV_WIGN.MORE, oneWord DEV_WIGN_AGENT.AGENT, oneWord MEM_EVT.EVT, eachWord RG_CFG.CQ]))) ∧
  (∀ (r : Fin 64) (s : State), Framed (.ringDrained r) s [.regs] [eachWord RG_STATUS.STATE]) ∧
  (∀ (w : Doorbell) (s : State), Framed (.doorbellCommand w) s [.regs, .ring, .flt, .hw] [oneWord HOST_EVT.EVT, eachWord RG_PI.PI]) ∧
  (∀ (w : Doorbell) (s : State), Framed (.doorbellCompletion w) s [.regs, .ring, .flt, .hw] [oneWord HOST_EVT.EVT, eachWord
    RG_CI.CI]) ∧
  (∀ (w : Doorbell) (s : State), Framed (.doorbellEvent w) s [.regs, .ring, .flt, .hw] [oneWord HOST_EVT.EVT, eachWord RG_CI.CI]) ∧
  (∀ (w : Doorbell) (s : State), Framed (.doorbellArchive w) s (telemetryParts.append [.mem, .flt]) (telemetryWords.append
    [tableWord, oneWord MEM_EVT.EVT, eachWord MEM_OFFLINE.OFFLINE]) ∧ (s.dev.mem.err = [] → Framed (.doorbellArchive w) s
    (telemetryParts.append [.mem, .flt]) (telemetryWords.append [oneWord MEM_EVT.EVT]))) ∧
  (∀ (w : Doorbell) (s : State), Framed (.doorbellThread w) s (telemetryParts.append [.mem, .flt]) (telemetryWords.append
    [tableWord, oneWord MEM_EVT.EVT, eachWord MEM_OFFLINE.OFFLINE]) ∧ (s.dev.mem.err = [] → Framed (.doorbellThread w) s
    (telemetryParts.append [.mem, .flt]) (telemetryWords.append [oneWord MEM_EVT.EVT]))) ∧
  (∀ (a : Agent) (c : Fin 21) (v : Word) (s : State), Framed (.irDb a c v) s [.regs, .ring, .flt, .hw] [oneWord DEV_WIGN.MORE,
    oneWord DEV_WIGN_AGENT.AGENT, eachWord RG_PI.PI]) ∧
  (∀ (s : State), Framed .heartbeat s [.host, .hostMem] []) ∧
  (∀ (s : State), Framed .hostLinkDown s (telemetryParts.append [.mem, .flt]) (telemetryWords.append [tableWord, oneWord
    CLK_STATUS.LOCK, oneWord MEM_EVT.EVT, eachWord MEM_OFFLINE.OFFLINE, eachWord RG_CFG.CQ]) ∧ (s.dev.mem.err = [] → Framed
    .hostLinkDown s (telemetryParts.append [.mem, .flt]) (telemetryWords.append [oneWord CLK_STATUS.LOCK, oneWord MEM_EVT.EVT,
    eachWord RG_CFG.CQ]))) ∧
  (∀ (t : Fin 4096) (s : State), Framed (.threadDataFlush t) s (telemetryParts.append [.mem, .flt]) (telemetryWords.append
    [tableWord, oneWord MEM_EVT.EVT, eachWord MEM_OFFLINE.OFFLINE]) ∧ (s.dev.mem.err = [] → Framed (.threadDataFlush t) s
    (telemetryParts.append [.mem, .flt]) (telemetryWords.append [oneWord MEM_EVT.EVT]))) ∧
  (∀ (e : Entry) (s : State), Framed (.rqEntry e) s (telemetryParts.append [.rq, .mem, .flt]) (telemetryWords.append [tableWord,
    oneWord MEM_EVT.EVT, eachWord MEM_OFFLINE.OFFLINE, eachWord RQ_STATUS.DROP]) ∧ (s.dev.mem.err = [] → Framed (.rqEntry e) s
    (telemetryParts.append [.rq, .mem, .flt]) (telemetryWords.append [oneWord MEM_EVT.EVT, eachWord RQ_STATUS.DROP]))) ∧
  (∀ (a : Agent) (s1 : Fin 16) (s : State), Framed (.rqPop a s1) s [.regs, .rq, .rqHi, .rqHead, .host, .mem, .flt, .hw] [tableWord,
    oneWord MEM_EVT.EVT, eachWord MEM_OFFLINE.OFFLINE, eachWord RQ_STATUS.DROP] ∧ (s.dev.mem.err = [] → Framed (.rqPop a s1) s
    [.regs, .rq, .rqHi, .rqHead, .host] [eachWord RQ_STATUS.DROP])) ∧
  (∀ (a : Agent) (off : ReadAt) (s : State), Framed (.registerReadClear a off) s (telemetryParts.append [.rq, .rqHi, .rqHead, .mem,
    .flt]) (telemetryWords.append [fun o => o = off.off.toNat ∨ o = off.off.toNat + 4, tableWord, oneWord MEM_EVT.EVT, eachWord
    MEM_OFFLINE.OFFLINE, eachWord RQ_STATUS.DROP])) ∧
  (∀ (a : Agent) (s : State), Framed (.bootCtlGo a) s [.regs, .mode, .hw] [oneWord BOOT_STATUS.STATE, oneWord DEV_WIGN.MORE, oneWord
    DEV_WIGN_AGENT.AGENT]) ∧
  (∀ (a : Agent) (c : Fin 632) (s : State), Framed (.calStart a c) s [.regs, .conv, .flt, .hw] [eachWord CV_EVT.EVT, eachWord
    CV_STATUS.CAL_SLICE, oneWord DEV_WIGN.MORE, oneWord DEV_WIGN_AGENT.AGENT, eachWord SEQ_STATUS.ACTIVE]) ∧
  (∀ (a : Agent) (k : Fin 8) (s : State), Framed (.seqCtlTrig a k) s [.regs, .scv, .host, .hw] [oneWord DEV_WIGN.MORE, oneWord
    DEV_WIGN_AGENT.AGENT, oneWord MODE_REQ_STAT.STATUS, eachWord SEQ_CFG.LEN, eachWord SEQ_CNT.INJ_DROP, arrayWord
    SEQ_ENTRY.ENTRY, eachWord SEQ_STATUS.ACTIVE]) ∧
  (∀ (a : Agent) (k : Fin 8) (v : BitVec 6) (s : State), Framed (.injReq a k v) s [.regs, .scv, .hw] [oneWord DEV_WIGN.MORE, oneWord
    DEV_WIGN_AGENT.AGENT, eachWord INJ_STAT.STATE, eachWord SEQ_CNT.INJ_DROP]) ∧
  (∀ (a : Agent) (n : Fin 32) (s : State), Framed (.ipCtlRestore a n) s [.regs, .port, .hw] [oneWord DEV_WIGN.MORE, oneWord
    DEV_WIGN_AGENT.AGENT, eachWord IP_STATUS.STATE]) ∧
  (∀ (a : Agent) (c : Fin 21) (s : State), Framed (.coreCtlHalt a c) s (telemetryParts.append [.core, .mem, .flt])
    (telemetryWords.append [tableWord, eachWord CORE_CYCLES.CYCLES, eachWord CORE_EVT.EVT, eachWord CORE_STATUS.STATE, oneWord
    DEV_WIGN.MORE, oneWord DEV_WIGN_AGENT.AGENT, oneWord MEM_EVT.EVT, eachWord MEM_OFFLINE.OFFLINE, eachWord OWN.STATE]) ∧
    (s.dev.mem.err = [] → Framed (.coreCtlHalt a c) s (telemetryParts.append [.core, .mem, .flt]) (telemetryWords.append [eachWord
    CORE_CYCLES.CYCLES, eachWord CORE_EVT.EVT, eachWord CORE_STATUS.STATE, oneWord DEV_WIGN.MORE, oneWord DEV_WIGN_AGENT.AGENT,
    oneWord MEM_EVT.EVT, eachWord OWN.STATE]))) ∧
  (∀ (a : Agent) (c : Fin 21) (s : State), Framed (.coreCtlStart a c) s [.regs, .core, .hw] [eachWord CORE_STATUS.STATE, oneWord
    DEV_WIGN.MORE, oneWord DEV_WIGN_AGENT.AGENT]) ∧
  (∀ (a : Agent) (c : Fin 21) (v : Word) (s : State), Framed (.coreKick a c v) s [.regs, .core, .flt, .hw] [oneWord DEV_WIGN.MORE,
    oneWord DEV_WIGN_AGENT.AGENT]) ∧
  (∀ (a : Agent) (c : Fin 21) (s : State), Framed (.coreSignal a c) s [.regs, .hw] [eachWord CORE_PEND.PEND, oneWord DEV_WIGN.MORE,
    oneWord DEV_WIGN_AGENT.AGENT])

/-- What the commands of the intent ports, the stream link and the two-wire ports leave unchanged. Each clause names the parts of
the block and the register words that its command may change; its queue, every other part and every other word are what they
were. (06_load_intent.md, 13_stream_link.md, 14_two_wire.md) -/
def Obligations.FramesLinks : Prop :=
  (∀ (a : Agent) (n : Fin 16) (v : Word) (s : State), Framed (.twXctlGo a n v) s (telemetryParts.append [.tw, .mem, .flt, .stg])
    (telemetryWords.append [s.dev.stagedWord, tableWord, oneWord DEV_WIGN.MORE, oneWord DEV_WIGN_AGENT.AGENT, oneWord MEM_EVT.EVT,
    eachWord MEM_OFFLINE.OFFLINE, eachWord TW_ATTN.ADDR, eachWord TW_CNT.ARB_LOST, eachWord TW_EVT.EVT, eachWord TW_STATUS.STATE,
    eachWord TW_XCTL.GO, eachWord TW_XSTAT.STATE]) ∧ (s.dev.mem.err = [] → Framed (.twXctlGo a n v) s (telemetryParts.append [.tw,
    .mem, .flt, .stg]) (telemetryWords.append [s.dev.stagedWord, oneWord DEV_WIGN.MORE, oneWord DEV_WIGN_AGENT.AGENT, oneWord
    MEM_EVT.EVT, eachWord TW_ATTN.ADDR, eachWord TW_CNT.ARB_LOST, eachWord TW_EVT.EVT, eachWord TW_STATUS.STATE, eachWord
    TW_XCTL.GO, eachWord TW_XSTAT.STATE]))) ∧
  (∀ (a : Agent) (n : Fin 16) (s : State), Framed (.twAlertReq a n) s [.regs] [eachWord TW_ALERT.FLT_EN]) ∧
  (∀ (n : Fin 32) (f : Frame) (s : State), Framed (.hello n f) s (telemetryParts.append [.rail, .port, .mem, .flt])
    (telemetryWords.append [tableWord, eachWord IP_CNT.BAD, eachWord IP_EVT.EVT, eachWord IP_HELLO.HELLO, eachWord
    IP_STATUS.STATE, oneWord MEM_EVT.EVT, eachWord MEM_OFFLINE.OFFLINE, eachWord PEND_STATE.LAST, eachWord PEND_WAKE.WOKEN,
    eachWord SPEC_EVT.EVT]) ∧ (s.dev.mem.err = [] → Framed (.hello n f) s (telemetryParts.append [.rail, .port, .mem, .flt])
    (telemetryWords.append [eachWord IP_CNT.BAD, eachWord IP_EVT.EVT, eachWord IP_HELLO.HELLO, eachWord IP_STATUS.STATE, oneWord
    MEM_EVT.EVT, eachWord PEND_STATE.LAST, eachWord PEND_WAKE.WOKEN, eachWord SPEC_EVT.EVT]))) ∧
  (∀ (n : Fin 32) (f : Frame) (s : State), Framed (.stepFrame n f) s (telemetryParts.append [.rail, .port, .mem, .flt])
    (telemetryWords.append [tableWord, eachWord IP_CNT.BAD, eachWord IP_EVT.EVT, eachWord IP_STATUS.STATE, oneWord MEM_EVT.EVT,
    eachWord MEM_OFFLINE.OFFLINE, eachWord PEND_PB.PB, eachWord PEND_STATE.LAST, eachWord PEND_STEP.DI, eachWord PEND_TSTEP.TSTEP,
    eachWord PEND_WAKE.WOKEN, eachWord RAIL_EVT.EVT, eachWord RAIL_STATUS.STATE, eachWord SPEC_EVT.EVT, eachWord WIN_PEND.PEND,
    eachWord WIN_STAT.STATE]) ∧ (s.dev.mem.err = [] → Framed (.stepFrame n f) s (telemetryParts.append [.rail, .port, .mem, .flt])
    (telemetryWords.append [eachWord IP_CNT.BAD, eachWord IP_EVT.EVT, eachWord IP_STATUS.STATE, oneWord MEM_EVT.EVT, eachWord
    PEND_PB.PB, eachWord PEND_STATE.LAST, eachWord PEND_STEP.DI, eachWord PEND_TSTEP.TSTEP, eachWord PEND_WAKE.WOKEN, eachWord
    RAIL_EVT.EVT, eachWord RAIL_STATUS.STATE, eachWord SPEC_EVT.EVT, eachWord WIN_PEND.PEND, eachWord WIN_STAT.STATE]))) ∧
  (∀ (n : Fin 32) (f : Frame) (s : State), Framed (.vidFrame n f) s (telemetryParts.append [.rail, .port, .mem, .flt, .stg])
    (telemetryWords.append [tableWord, eachWord IP_CNT.BAD, eachWord IP_EVT.EVT, eachWord IP_STATUS.STATE, oneWord MEM_EVT.EVT,
    eachWord MEM_OFFLINE.OFFLINE, eachWord PEND_STATE.LAST, eachWord PEND_WAKE.WOKEN, eachWord RAIL_STATUS.STATE, eachWord
    RAIL_TARGET.TARGET, eachWord SPEC_EVT.EVT]) ∧ (s.dev.mem.err = [] → Framed (.vidFrame n f) s (telemetryParts.append [.rail,
    .port, .mem, .flt, .stg]) (telemetryWords.append [eachWord IP_CNT.BAD, eachWord IP_EVT.EVT, eachWord IP_STATUS.STATE, oneWord
    MEM_EVT.EVT, eachWord PEND_STATE.LAST, eachWord PEND_WAKE.WOKEN, eachWord RAIL_STATUS.STATE, eachWord RAIL_TARGET.TARGET,
    eachWord SPEC_EVT.EVT]))) ∧
  (∀ (n : Fin 32) (f : Frame) (s : State), Framed (.stateFrame n f) s (telemetryParts.append [.rail, .port, .mem, .flt])
    (telemetryWords.append [tableWord, eachWord IP_CNT.BAD, eachWord IP_EVT.EVT, eachWord IP_STATUS.STATE, oneWord MEM_EVT.EVT,
    eachWord MEM_OFFLINE.OFFLINE, eachWord PEND_STATE.LAST, eachWord PEND_WAKE.WOKEN, eachWord SPEC_EVT.EVT]) ∧ (s.dev.mem.err =
    [] → Framed (.stateFrame n f) s (telemetryParts.append [.rail, .port, .mem, .flt]) (telemetryWords.append [eachWord
    IP_CNT.BAD, eachWord IP_EVT.EVT, eachWord IP_STATUS.STATE, oneWord MEM_EVT.EVT, eachWord PEND_STATE.LAST, eachWord
    PEND_WAKE.WOKEN, eachWord SPEC_EVT.EVT]))) ∧
  (∀ (n : Fin 32) (s : State), Framed (.intentFrameBad n) s [.regs, .port, .flt, .hw] [eachWord IP_CNT.BAD]) ∧
  (∀ (n : Fin 32) (s : State), Framed (.intentSilent n) s (telemetryParts.append [.rail, .port, .mem, .flt]) (telemetryWords.append
    [tableWord, eachWord IP_EVT.EVT, eachWord IP_STATUS.STATE, oneWord MEM_EVT.EVT, eachWord MEM_OFFLINE.OFFLINE, eachWord
    PEND_STATE.LAST, eachWord PEND_WAKE.WOKEN, eachWord SPEC_EVT.EVT]) ∧ (s.dev.mem.err = [] → Framed (.intentSilent n) s
    (telemetryParts.append [.rail, .port, .mem, .flt]) (telemetryWords.append [eachWord IP_EVT.EVT, eachWord IP_STATUS.STATE,
    oneWord MEM_EVT.EVT, eachWord PEND_STATE.LAST, eachWord PEND_WAKE.WOKEN, eachWord SPEC_EVT.EVT]))) ∧
  (∀ (n : Fin 32) (s : State), Framed (.intentFrameSend n) s [.port] []) ∧
  (∀ (n : Fin 32) (s : State), Framed (.current n) s (telemetryParts.append [.port, .mem, .flt]) (telemetryWords.append [tableWord,
    oneWord MEM_EVT.EVT, eachWord MEM_OFFLINE.OFFLINE]) ∧ (s.dev.mem.err = [] → Framed (.current n) s (telemetryParts.append
    [.port, .mem, .flt]) (telemetryWords.append [oneWord MEM_EVT.EVT]))) ∧
  (∀ (r : Fin 64) (s : State), Framed (.specPrechargeStart r) s (telemetryParts.append [.rail, .mem, .flt]) (telemetryWords.append
    [tableWord, oneWord MEM_EVT.EVT, eachWord MEM_OFFLINE.OFFLINE, eachWord PEND_UINT.UINT, eachWord RAIL_EVT.EVT, eachWord
    RAIL_STATUS.STATE, eachWord SPEC_EVT.EVT, eachWord WIN_PEND.PEND, eachWord WIN_STAT.STATE]) ∧ (s.dev.mem.err = [] → Framed
    (.specPrechargeStart r) s (telemetryParts.append [.rail, .mem, .flt]) (telemetryWords.append [oneWord MEM_EVT.EVT, eachWord
    PEND_UINT.UINT, eachWord RAIL_EVT.EVT, eachWord RAIL_STATUS.STATE, eachWord SPEC_EVT.EVT, eachWord WIN_PEND.PEND, eachWord
    WIN_STAT.STATE]))) ∧
  (∀ (r : Fin 64) (s : State), Framed (.specPrechargeEnd r) s (telemetryParts.append [.rail, .mem, .flt]) (telemetryWords.append
    [tableWord, oneWord MEM_EVT.EVT, eachWord MEM_OFFLINE.OFFLINE, eachWord PEND_UINT.UINT, eachWord RAIL_EVT.EVT, eachWord
    RAIL_STATUS.STATE, eachWord WIN_PEND.PEND, eachWord WIN_STAT.STATE]) ∧ (s.dev.mem.err = [] → Framed (.specPrechargeEnd r) s
    (telemetryParts.append [.rail, .mem, .flt]) (telemetryWords.append [oneWord MEM_EVT.EVT, eachWord PEND_UINT.UINT, eachWord
    RAIL_EVT.EVT, eachWord RAIL_STATUS.STATE, eachWord WIN_PEND.PEND, eachWord WIN_STAT.STATE]))) ∧
  (∀ (r : Fin 64) (s : State), Framed (.retract r) s (telemetryParts.append [.rail, .port, .mem, .flt]) (telemetryWords.append
    [tableWord, eachWord IP_EVT.EVT, eachWord IP_STATUS.STATE, oneWord MEM_EVT.EVT, eachWord MEM_OFFLINE.OFFLINE, eachWord
    PEND_STATE.LAST, eachWord PEND_UINT.UINT, eachWord RAIL_EVT.EVT, eachWord RAIL_STATUS.STATE, eachWord SPEC_CNT.CONFIRMED,
    eachWord SPEC_EVT.EVT, eachWord WIN_PEND.PEND, eachWord WIN_STAT.STATE]) ∧ (s.dev.mem.err = [] → Framed (.retract r) s
    (telemetryParts.append [.rail, .port, .mem, .flt]) (telemetryWords.append [eachWord IP_EVT.EVT, eachWord IP_STATUS.STATE,
    oneWord MEM_EVT.EVT, eachWord PEND_STATE.LAST, eachWord PEND_UINT.UINT, eachWord RAIL_EVT.EVT, eachWord RAIL_STATUS.STATE,
    eachWord SPEC_CNT.CONFIRMED, eachWord SPEC_EVT.EVT, eachWord WIN_PEND.PEND, eachWord WIN_STAT.STATE]))) ∧
  (∀ (r : Fin 64) (s : State), Framed (.wakeHoldEnd r) s (telemetryParts.append [.rail, .mem, .flt]) (telemetryWords.append
    [tableWord, oneWord MEM_EVT.EVT, eachWord MEM_OFFLINE.OFFLINE, eachWord PEND_WAKE.WOKEN]) ∧ (s.dev.mem.err = [] → Framed
    (.wakeHoldEnd r) s (telemetryParts.append [.rail, .mem, .flt]) (telemetryWords.append [oneWord MEM_EVT.EVT, eachWord
    PEND_WAKE.WOKEN]))) ∧
  (∀ (s : State), Framed .flitSlot s (telemetryParts.append [.stream, .mem, .flt]) (telemetryWords.append [tableWord, oneWord
    MEM_EVT.EVT, eachWord MEM_OFFLINE.OFFLINE, oneWord SL_EVT.EVT, eachWord SL_RXFEC.CORR, oneWord SL_STATUS.LSTATE, eachWord
    VC_CREDIT.LIMIT]) ∧ (s.dev.mem.err = [] → Framed .flitSlot s (telemetryParts.append [.stream, .mem, .flt])
    (telemetryWords.append [oneWord MEM_EVT.EVT, oneWord SL_EVT.EVT, eachWord SL_RXFEC.CORR, oneWord SL_STATUS.LSTATE, eachWord
    VC_CREDIT.LIMIT]))) ∧
  (∀ (n : Fin 8) (m : Codeword) (s : State), Framed (.codewordReceive n m) s (telemetryParts.append [.stream, .mem, .flt])
    (telemetryWords.append [tableWord, oneWord MEM_EVT.EVT, eachWord MEM_OFFLINE.OFFLINE, oneWord SL_EVT.EVT, eachWord
    SL_RXFEC.CORR, oneWord SL_STATUS.LSTATE, eachWord VC_CREDIT.LIMIT]) ∧ (s.dev.mem.err = [] → Framed (.codewordReceive n m) s
    (telemetryParts.append [.stream, .mem, .flt]) (telemetryWords.append [oneWord MEM_EVT.EVT, oneWord SL_EVT.EVT, eachWord
    SL_RXFEC.CORR, oneWord SL_STATUS.LSTATE, eachWord VC_CREDIT.LIMIT]))) ∧
  (∀ (pay : List Byte) (s : State), Framed (.peerCtrl pay) s [.regs, .stream, .hw] [oneWord SL_EVT.EVT, eachWord VC_CREDIT.LIMIT]) ∧
  (∀ (pay : List Byte) (s : State), Framed (.peerTrain pay) s [.regs, .stream] [oneWord SL_STATUS.LSTATE]) ∧
  (∀ (s : State), Framed .linkUp s (telemetryParts.append [.stream, .mem, .flt]) (telemetryWords.append [tableWord, oneWord
    CLK_STATUS.LOCK, oneWord MEM_EVT.EVT, eachWord MEM_OFFLINE.OFFLINE, oneWord SL_CNT.PEER_LOST, oneWord SL_EVT.EVT, oneWord
    SL_STATUS.LSTATE, eachWord VC_CREDIT.LIMIT]) ∧ (s.dev.mem.err = [] → Framed .linkUp s (telemetryParts.append [.stream, .mem,
    .flt]) (telemetryWords.append [oneWord CLK_STATUS.LOCK, oneWord MEM_EVT.EVT, oneWord SL_CNT.PEER_LOST, oneWord SL_EVT.EVT,
    oneWord SL_STATUS.LSTATE, eachWord VC_CREDIT.LIMIT]))) ∧
  (∀ (s : State), Framed .trainTimeout s (telemetryParts.append [.stream, .mem, .flt]) (telemetryWords.append [tableWord, oneWord
    CLK_STATUS.LOCK, oneWord MEM_EVT.EVT, eachWord MEM_OFFLINE.OFFLINE, oneWord MODE_REQ_STAT.STATUS, eachWord OWN.STATE, oneWord
    SL_CNT.PEER_LOST, oneWord SL_EVT.EVT, oneWord SL_FENCED.RX, oneWord SL_STATUS.LSTATE, eachWord VC_CREDIT.LIMIT]) ∧
    (s.dev.mem.err = [] → Framed .trainTimeout s (telemetryParts.append [.stream, .mem, .flt]) (telemetryWords.append [oneWord
    CLK_STATUS.LOCK, oneWord MEM_EVT.EVT, oneWord MODE_REQ_STAT.STATUS, eachWord OWN.STATE, oneWord SL_CNT.PEER_LOST, oneWord
    SL_EVT.EVT, oneWord SL_FENCED.RX, oneWord SL_STATUS.LSTATE, eachWord VC_CREDIT.LIMIT]))) ∧
  (∀ (s : State), Framed .streamPeer s (telemetryParts.append [.stream, .mem, .flt]) (telemetryWords.append [tableWord, oneWord
    CLK_STATUS.LOCK, oneWord MEM_EVT.EVT, eachWord MEM_OFFLINE.OFFLINE, oneWord SL_CNT.PEER_LOST, oneWord SL_EVT.EVT, oneWord
    SL_STATUS.LSTATE, eachWord VC_CREDIT.LIMIT]) ∧ (s.dev.mem.err = [] → Framed .streamPeer s (telemetryParts.append [.stream,
    .mem, .flt]) (telemetryWords.append [oneWord CLK_STATUS.LOCK, oneWord MEM_EVT.EVT, oneWord SL_CNT.PEER_LOST, oneWord
    SL_EVT.EVT, oneWord SL_STATUS.LSTATE, eachWord VC_CREDIT.LIMIT]))) ∧
  (∀ (n : Fin 16) (s : State), Framed (.streamLane n) s (telemetryParts.append [.stream, .mem, .flt]) (telemetryWords.append
    [tableWord, oneWord CLK_STATUS.LOCK, oneWord MEM_EVT.EVT, eachWord MEM_OFFLINE.OFFLINE, oneWord MODE_REQ_STAT.STATUS, eachWord
    OWN.STATE, oneWord SL_CNT.PEER_LOST, oneWord SL_EVT.EVT, oneWord SL_FENCED.RX, oneWord SL_STATUS.LSTATE, eachWord
    VC_CREDIT.LIMIT]) ∧ (s.dev.mem.err = [] → Framed (.streamLane n) s (telemetryParts.append [.stream, .mem, .flt])
    (telemetryWords.append [oneWord CLK_STATUS.LOCK, oneWord MEM_EVT.EVT, oneWord MODE_REQ_STAT.STATUS, eachWord OWN.STATE,
    oneWord SL_CNT.PEER_LOST, oneWord SL_EVT.EVT, oneWord SL_FENCED.RX, oneWord SL_STATUS.LSTATE, eachWord VC_CREDIT.LIMIT]))) ∧
  (∀ (t : Fin 4096) (tag : BitVec 12) (s : State), Framed (.blockFlush t tag) s (telemetryParts.append [.mem, .flt])
    (telemetryWords.append [tableWord, oneWord MEM_EVT.EVT, eachWord MEM_OFFLINE.OFFLINE]) ∧ (s.dev.mem.err = [] → Framed
    (.blockFlush t tag) s (telemetryParts.append [.mem, .flt]) (telemetryWords.append [oneWord MEM_EVT.EVT]))) ∧
  (∀ (v : Fin 16) (s : State), Framed (.decimationChange v) s (telemetryParts.append [.mem, .flt]) (telemetryWords.append
    [tableWord, oneWord MEM_EVT.EVT, eachWord MEM_OFFLINE.OFFLINE]) ∧ (s.dev.mem.err = [] → Framed (.decimationChange v) s
    (telemetryParts.append [.mem, .flt]) (telemetryWords.append [oneWord MEM_EVT.EVT]))) ∧
  (∀ (n : Fin 16) (s : State), Framed (.twTimeout n) s (telemetryParts.append [.tw, .mem, .flt, .stg]) (telemetryWords.append
    [s.dev.stagedWord, tableWord, oneWord MEM_EVT.EVT, eachWord MEM_OFFLINE.OFFLINE, eachWord TW_ATTN.ADDR, eachWord
    TW_CNT.ARB_LOST, eachWord TW_EVT.EVT, eachWord TW_STATUS.STATE, eachWord TW_XSTAT.STATE]) ∧ (s.dev.mem.err = [] → Framed
    (.twTimeout n) s (telemetryParts.append [.tw, .mem, .flt, .stg]) (telemetryWords.append [s.dev.stagedWord, oneWord
    MEM_EVT.EVT, eachWord TW_ATTN.ADDR, eachWord TW_CNT.ARB_LOST, eachWord TW_EVT.EVT, eachWord TW_STATUS.STATE, eachWord
    TW_XSTAT.STATE]))) ∧
  (∀ (n : Fin 16) (s : State), Framed (.idleSeen n) s (telemetryParts.append [.tw, .mem, .flt, .stg]) (telemetryWords.append
    [s.dev.stagedWord, tableWord, oneWord MEM_EVT.EVT, eachWord MEM_OFFLINE.OFFLINE, eachWord TW_ATTN.ADDR, eachWord
    TW_CNT.ARB_LOST, eachWord TW_EVT.EVT, eachWord TW_STATUS.STATE, eachWord TW_XSTAT.STATE]) ∧ (s.dev.mem.err = [] → Framed
    (.idleSeen n) s (telemetryParts.append [.tw, .mem, .flt, .stg]) (telemetryWords.append [s.dev.stagedWord, oneWord MEM_EVT.EVT,
    eachWord TW_ATTN.ADDR, eachWord TW_CNT.ARB_LOST, eachWord TW_EVT.EVT, eachWord TW_STATUS.STATE, eachWord TW_XSTAT.STATE]))) ∧
  (∀ (l : LineAt) (s : State), Framed (.sdaFall l) s (telemetryParts.append [.tw, .mem, .flt, .stg]) (telemetryWords.append
    [s.dev.stagedWord, tableWord, oneWord MEM_EVT.EVT, eachWord MEM_OFFLINE.OFFLINE, eachWord TW_ATTN.ADDR, eachWord
    TW_CNT.ARB_LOST, eachWord TW_EVT.EVT, eachWord TW_STATUS.STATE, eachWord TW_XSTAT.STATE]) ∧ (s.dev.mem.err = [] → Framed
    (.sdaFall l) s (telemetryParts.append [.tw, .mem, .flt, .stg]) (telemetryWords.append [s.dev.stagedWord, oneWord MEM_EVT.EVT,
    eachWord TW_ATTN.ADDR, eachWord TW_CNT.ARB_LOST, eachWord TW_EVT.EVT, eachWord TW_STATUS.STATE, eachWord TW_XSTAT.STATE]))) ∧
  (∀ (n : Fin 16) (s : State), Framed (.attention n) s (telemetryParts.append [.tw, .mem, .flt, .stg]) (telemetryWords.append
    [s.dev.stagedWord, tableWord, oneWord MEM_EVT.EVT, eachWord MEM_OFFLINE.OFFLINE, eachWord TW_ATTN.ADDR, eachWord
    TW_CNT.ARB_LOST, eachWord TW_EVT.EVT, eachWord TW_STATUS.STATE, eachWord TW_XSTAT.STATE]) ∧ (s.dev.mem.err = [] → Framed
    (.attention n) s (telemetryParts.append [.tw, .mem, .flt, .stg]) (telemetryWords.append [s.dev.stagedWord, oneWord
    MEM_EVT.EVT, eachWord TW_ATTN.ADDR, eachWord TW_CNT.ARB_LOST, eachWord TW_EVT.EVT, eachWord TW_STATUS.STATE, eachWord
    TW_XSTAT.STATE]))) ∧
  (∀ (n : Fin 16) (s : State), Framed (.busClear n) s (telemetryParts.append [.tw, .mem, .flt, .stg]) (telemetryWords.append
    [s.dev.stagedWord, tableWord, oneWord MEM_EVT.EVT, eachWord MEM_OFFLINE.OFFLINE, eachWord TW_ATTN.ADDR, eachWord
    TW_CNT.ARB_LOST, eachWord TW_EVT.EVT, eachWord TW_STATUS.STATE, eachWord TW_XSTAT.STATE]) ∧ (s.dev.mem.err = [] → Framed
    (.busClear n) s (telemetryParts.append [.tw, .mem, .flt, .stg]) (telemetryWords.append [s.dev.stagedWord, oneWord MEM_EVT.EVT,
    eachWord TW_ATTN.ADDR, eachWord TW_CNT.ARB_LOST, eachWord TW_EVT.EVT, eachWord TW_STATUS.STATE, eachWord TW_XSTAT.STATE]))) ∧
  (∀ (n : Fin 16) (pulses : Fin 10) (sda : Bool) (s : State), Framed (.busClearEnd n pulses sda) s [.regs, .tw, .mem, .flt, .hw]
    [oneWord MEM_EVT.EVT, eachWord OWN.STATE, eachWord TW_EVT.EVT, eachWord TW_STATUS.STATE, eachWord TW_XSTAT.STATE]) ∧
  (∀ (n : Fin 16) (s : State), Framed (.busHeld n) s (telemetryParts.append [.tw, .mem, .flt, .stg]) (telemetryWords.append
    [s.dev.stagedWord, tableWord, oneWord MEM_EVT.EVT, eachWord MEM_OFFLINE.OFFLINE, eachWord TW_ATTN.ADDR, eachWord
    TW_CNT.ARB_LOST, eachWord TW_EVT.EVT, eachWord TW_STATUS.STATE, eachWord TW_XSTAT.STATE]) ∧ (s.dev.mem.err = [] → Framed
    (.busHeld n) s (telemetryParts.append [.tw, .mem, .flt, .stg]) (telemetryWords.append [s.dev.stagedWord, oneWord MEM_EVT.EVT,
    eachWord TW_ATTN.ADDR, eachWord TW_CNT.ARB_LOST, eachWord TW_EVT.EVT, eachWord TW_STATUS.STATE, eachWord TW_XSTAT.STATE]))) ∧
  (∀ (n : Fin 16) (ans : Option Byte) (s : State), Framed (.alertResponseRead n ans) s [.regs, .tw, .hw] [eachWord TW_ATTN.ADDR,
    eachWord TW_CNT.ARB_LOST, eachWord TW_STATUS.STATE]) ∧
  (∀ (n : Fin 16) (s : State), Framed (.attentionSignal n) s (telemetryParts.append [.tw, .mem, .flt, .stg]) (telemetryWords.append
    [s.dev.stagedWord, tableWord, oneWord MEM_EVT.EVT, eachWord MEM_OFFLINE.OFFLINE, eachWord TW_ATTN.ADDR, eachWord
    TW_CNT.ARB_LOST, eachWord TW_EVT.EVT, eachWord TW_STATUS.STATE, eachWord TW_XSTAT.STATE]) ∧ (s.dev.mem.err = [] → Framed
    (.attentionSignal n) s (telemetryParts.append [.tw, .mem, .flt, .stg]) (telemetryWords.append [s.dev.stagedWord, oneWord
    MEM_EVT.EVT, eachWord TW_ATTN.ADDR, eachWord TW_CNT.ARB_LOST, eachWord TW_EVT.EVT, eachWord TW_STATUS.STATE, eachWord
    TW_XSTAT.STATE]))) ∧
  (∀ (n : Fin 16) (won : Bool) (s : State), Framed (.alertResponse n won) s (telemetryParts.append [.tw, .bmc, .mem, .flt, .stg])
    (telemetryWords.append [s.dev.stagedWord, tableWord, oneWord MEM_EVT.EVT, eachWord MEM_OFFLINE.OFFLINE, eachWord
    TW_ALERT.FLT_EN, eachWord TW_ATTN.ADDR, eachWord TW_CNT.ARB_LOST, eachWord TW_EVT.EVT, eachWord TW_STATUS.STATE, eachWord
    TW_XSTAT.STATE]) ∧ (s.dev.mem.err = [] → Framed (.alertResponse n won) s (telemetryParts.append [.tw, .bmc, .mem, .flt, .stg])
    (telemetryWords.append [s.dev.stagedWord, oneWord MEM_EVT.EVT, eachWord TW_ALERT.FLT_EN, eachWord TW_ATTN.ADDR, eachWord
    TW_CNT.ARB_LOST, eachWord TW_EVT.EVT, eachWord TW_STATUS.STATE, eachWord TW_XSTAT.STATE]))) ∧
  (∀ (n : Fin 16) (s : State), Framed (.transferStart n) s (telemetryParts.append [.tw, .mem, .flt, .stg]) (telemetryWords.append
    [s.dev.stagedWord, tableWord, oneWord MEM_EVT.EVT, eachWord MEM_OFFLINE.OFFLINE, eachWord TW_ATTN.ADDR, eachWord
    TW_CNT.ARB_LOST, eachWord TW_EVT.EVT, eachWord TW_STATUS.STATE, eachWord TW_XSTAT.STATE]) ∧ (s.dev.mem.err = [] → Framed
    (.transferStart n) s (telemetryParts.append [.tw, .mem, .flt, .stg]) (telemetryWords.append [s.dev.stagedWord, oneWord
    MEM_EVT.EVT, eachWord TW_ATTN.ADDR, eachWord TW_CNT.ARB_LOST, eachWord TW_EVT.EVT, eachWord TW_STATUS.STATE, eachWord
    TW_XSTAT.STATE]))) ∧
  (∀ (n : Fin 16) (m : BusResult) (s : State), Framed (.transferEnd n m) s (telemetryParts.append [.tw, .mem, .flt])
    (telemetryWords.append [tableWord, oneWord MEM_EVT.EVT, eachWord MEM_OFFLINE.OFFLINE, eachWord TW_CNT.ARB_LOST, eachWord
    TW_EVT.EVT, arrayWord TW_RDATA.RDATA, eachWord TW_STATUS.STATE, eachWord TW_XSTAT.STATE]) ∧ (s.dev.mem.err = [] → Framed
    (.transferEnd n m) s (telemetryParts.append [.tw, .mem, .flt]) (telemetryWords.append [oneWord MEM_EVT.EVT, eachWord
    TW_CNT.ARB_LOST, eachWord TW_EVT.EVT, arrayWord TW_RDATA.RDATA, eachWord TW_STATUS.STATE, eachWord TW_XSTAT.STATE]))) ∧
  (∀ (n : Fin 16) (addr : Option (BitVec 7)) (s : State), Framed (.arbLost n addr) s [.regs, .tw, .hw] [eachWord TW_CNT.ARB_LOST,
    eachWord TW_EVT.EVT, eachWord TW_STATUS.STATE, eachWord TW_XSTAT.STATE]) ∧
  (∀ (n : Fin 16) (s : State), Framed (.targetStretchTimeout n) s [.regs, .tw, .bmc, .flt] [eachWord TW_STATUS.STATE]) ∧
  (∀ (b : BoxSubmit) (s : State), Framed (.mailboxSubmit b) s (telemetryParts.append [.tw, .bmc, .mem, .flt, .stg])
    (telemetryWords.append [s.dev.stagedWord, tableWord, oneWord MEM_EVT.EVT, eachWord MEM_OFFLINE.OFFLINE, oneWord
    MODE_REQ_STAT.STATUS, eachWord TW_ATTN.ADDR, eachWord TW_CNT.ARB_LOST, eachWord TW_EVT.EVT, eachWord TW_STATUS.STATE, eachWord
    TW_XSTAT.STATE]) ∧ (s.dev.mem.err = [] → Framed (.mailboxSubmit b) s (telemetryParts.append [.tw, .bmc, .mem, .flt, .stg])
    (telemetryWords.append [s.dev.stagedWord, oneWord MEM_EVT.EVT, oneWord MODE_REQ_STAT.STATUS, eachWord TW_ATTN.ADDR, eachWord
    TW_CNT.ARB_LOST, eachWord TW_EVT.EVT, eachWord TW_STATUS.STATE, eachWord TW_XSTAT.STATE]))) ∧
  (∀ (n : Fin 16) (s : State), Framed (.roleChange n) s [.regs, .tw, .hw] [eachWord TW_EVT.EVT, eachWord TW_STATUS.STATE, eachWord
    TW_XSTAT.STATE]) ∧
  (∀ (b : Option Byte) (x : PmbTail) (s : State), Framed (.page b x) s (telemetryParts.append [.tw, .bmc, .mem, .flt, .stg])
    (telemetryWords.append [s.dev.stagedWord, tableWord, oneWord MEM_EVT.EVT, eachWord MEM_OFFLINE.OFFLINE, eachWord TW_ATTN.ADDR,
    eachWord TW_CNT.ARB_LOST, eachWord TW_EVT.EVT, eachWord TW_STATUS.STATE, eachWord TW_XSTAT.STATE]) ∧ (s.dev.mem.err = [] →
    Framed (.page b x) s (telemetryParts.append [.tw, .bmc, .mem, .flt, .stg]) (telemetryWords.append [s.dev.stagedWord, oneWord
    MEM_EVT.EVT, eachWord TW_ATTN.ADDR, eachWord TW_CNT.ARB_LOST, eachWord TW_EVT.EVT, eachWord TW_STATUS.STATE, eachWord
    TW_XSTAT.STATE]))) ∧
  (∀ (x : PmbTail) (s : State), Framed (.clearFaults x) s (telemetryParts.append [.tw, .bmc, .mem, .flt, .stg])
    (telemetryWords.append [s.dev.stagedWord, tableWord, oneWord MEM_EVT.EVT, eachWord MEM_OFFLINE.OFFLINE, eachWord TW_ATTN.ADDR,
    eachWord TW_CNT.ARB_LOST, eachWord TW_EVT.EVT, eachWord TW_STATUS.STATE, eachWord TW_XSTAT.STATE]) ∧ (s.dev.mem.err = [] →
    Framed (.clearFaults x) s (telemetryParts.append [.tw, .bmc, .mem, .flt, .stg]) (telemetryWords.append [s.dev.stagedWord,
    oneWord MEM_EVT.EVT, eachWord TW_ATTN.ADDR, eachWord TW_CNT.ARB_LOST, eachWord TW_EVT.EVT, eachWord TW_STATUS.STATE, eachWord
    TW_XSTAT.STATE]))) ∧
  (∀ (x : PmbTail) (s : State), Framed (.capability x) s (telemetryParts.append [.tw, .bmc, .mem, .flt, .stg])
    (telemetryWords.append [s.dev.stagedWord, tableWord, oneWord MEM_EVT.EVT, eachWord MEM_OFFLINE.OFFLINE, eachWord TW_ATTN.ADDR,
    eachWord TW_CNT.ARB_LOST, eachWord TW_EVT.EVT, eachWord TW_STATUS.STATE, eachWord TW_XSTAT.STATE]) ∧ (s.dev.mem.err = [] →
    Framed (.capability x) s (telemetryParts.append [.tw, .bmc, .mem, .flt, .stg]) (telemetryWords.append [s.dev.stagedWord,
    oneWord MEM_EVT.EVT, eachWord TW_ATTN.ADDR, eachWord TW_CNT.ARB_LOST, eachWord TW_EVT.EVT, eachWord TW_STATUS.STATE, eachWord
    TW_XSTAT.STATE]))) ∧
  (∀ (x : PmbTail) (s : State), Framed (.voutMode x) s (telemetryParts.append [.tw, .bmc, .mem, .flt, .stg]) (telemetryWords.append
    [s.dev.stagedWord, tableWord, oneWord MEM_EVT.EVT, eachWord MEM_OFFLINE.OFFLINE, eachWord TW_ATTN.ADDR, eachWord
    TW_CNT.ARB_LOST, eachWord TW_EVT.EVT, eachWord TW_STATUS.STATE, eachWord TW_XSTAT.STATE]) ∧ (s.dev.mem.err = [] → Framed
    (.voutMode x) s (telemetryParts.append [.tw, .bmc, .mem, .flt, .stg]) (telemetryWords.append [s.dev.stagedWord, oneWord
    MEM_EVT.EVT, eachWord TW_ATTN.ADDR, eachWord TW_CNT.ARB_LOST, eachWord TW_EVT.EVT, eachWord TW_STATUS.STATE, eachWord
    TW_XSTAT.STATE]))) ∧
  (∀ (x : PmbTail) (s : State), Framed (.statusByte x) s (telemetryParts.append [.tw, .bmc, .mem, .flt, .stg])
    (telemetryWords.append [s.dev.stagedWord, tableWord, oneWord MEM_EVT.EVT, eachWord MEM_OFFLINE.OFFLINE, eachWord TW_ATTN.ADDR,
    eachWord TW_CNT.ARB_LOST, eachWord TW_EVT.EVT, eachWord TW_STATUS.STATE, eachWord TW_XSTAT.STATE]) ∧ (s.dev.mem.err = [] →
    Framed (.statusByte x) s (telemetryParts.append [.tw, .bmc, .mem, .flt, .stg]) (telemetryWords.append [s.dev.stagedWord,
    oneWord MEM_EVT.EVT, eachWord TW_ATTN.ADDR, eachWord TW_CNT.ARB_LOST, eachWord TW_EVT.EVT, eachWord TW_STATUS.STATE, eachWord
    TW_XSTAT.STATE]))) ∧
  (∀ (x : PmbTail) (s : State), Framed (.statusWord x) s (telemetryParts.append [.tw, .bmc, .mem, .flt, .stg])
    (telemetryWords.append [s.dev.stagedWord, tableWord, oneWord MEM_EVT.EVT, eachWord MEM_OFFLINE.OFFLINE, eachWord TW_ATTN.ADDR,
    eachWord TW_CNT.ARB_LOST, eachWord TW_EVT.EVT, eachWord TW_STATUS.STATE, eachWord TW_XSTAT.STATE]) ∧ (s.dev.mem.err = [] →
    Framed (.statusWord x) s (telemetryParts.append [.tw, .bmc, .mem, .flt, .stg]) (telemetryWords.append [s.dev.stagedWord,
    oneWord MEM_EVT.EVT, eachWord TW_ATTN.ADDR, eachWord TW_CNT.ARB_LOST, eachWord TW_EVT.EVT, eachWord TW_STATUS.STATE, eachWord
    TW_XSTAT.STATE]))) ∧
  (∀ (x : PmbTail) (s : State), Framed (.readVin x) s (telemetryParts.append [.tw, .bmc, .mem, .flt, .stg]) (telemetryWords.append
    [s.dev.stagedWord, tableWord, oneWord MEM_EVT.EVT, eachWord MEM_OFFLINE.OFFLINE, eachWord TW_ATTN.ADDR, eachWord
    TW_CNT.ARB_LOST, eachWord TW_EVT.EVT, eachWord TW_STATUS.STATE, eachWord TW_XSTAT.STATE]) ∧ (s.dev.mem.err = [] → Framed
    (.readVin x) s (telemetryParts.append [.tw, .bmc, .mem, .flt, .stg]) (telemetryWords.append [s.dev.stagedWord, oneWord
    MEM_EVT.EVT, eachWord TW_ATTN.ADDR, eachWord TW_CNT.ARB_LOST, eachWord TW_EVT.EVT, eachWord TW_STATUS.STATE, eachWord
    TW_XSTAT.STATE]))) ∧
  (∀ (x : PmbTail) (s : State), Framed (.readIin x) s (telemetryParts.append [.tw, .bmc, .mem, .flt, .stg]) (telemetryWords.append
    [s.dev.stagedWord, tableWord, oneWord MEM_EVT.EVT, eachWord MEM_OFFLINE.OFFLINE, eachWord TW_ATTN.ADDR, eachWord
    TW_CNT.ARB_LOST, eachWord TW_EVT.EVT, eachWord TW_STATUS.STATE, eachWord TW_XSTAT.STATE]) ∧ (s.dev.mem.err = [] → Framed
    (.readIin x) s (telemetryParts.append [.tw, .bmc, .mem, .flt, .stg]) (telemetryWords.append [s.dev.stagedWord, oneWord
    MEM_EVT.EVT, eachWord TW_ATTN.ADDR, eachWord TW_CNT.ARB_LOST, eachWord TW_EVT.EVT, eachWord TW_STATUS.STATE, eachWord
    TW_XSTAT.STATE]))) ∧
  (∀ (x : PmbTail) (s : State), Framed (.readVout x) s (telemetryParts.append [.tw, .bmc, .mem, .flt, .stg]) (telemetryWords.append
    [s.dev.stagedWord, tableWord, oneWord MEM_EVT.EVT, eachWord MEM_OFFLINE.OFFLINE, eachWord TW_ATTN.ADDR, eachWord
    TW_CNT.ARB_LOST, eachWord TW_EVT.EVT, eachWord TW_STATUS.STATE, eachWord TW_XSTAT.STATE]) ∧ (s.dev.mem.err = [] → Framed
    (.readVout x) s (telemetryParts.append [.tw, .bmc, .mem, .flt, .stg]) (telemetryWords.append [s.dev.stagedWord, oneWord
    MEM_EVT.EVT, eachWord TW_ATTN.ADDR, eachWord TW_CNT.ARB_LOST, eachWord TW_EVT.EVT, eachWord TW_STATUS.STATE, eachWord
    TW_XSTAT.STATE]))) ∧
  (∀ (x : PmbTail) (s : State), Framed (.readIout x) s (telemetryParts.append [.tw, .bmc, .mem, .flt, .stg]) (telemetryWords.append
    [s.dev.stagedWord, tableWord, oneWord MEM_EVT.EVT, eachWord MEM_OFFLINE.OFFLINE, eachWord TW_ATTN.ADDR, eachWord
    TW_CNT.ARB_LOST, eachWord TW_EVT.EVT, eachWord TW_STATUS.STATE, eachWord TW_XSTAT.STATE]) ∧ (s.dev.mem.err = [] → Framed
    (.readIout x) s (telemetryParts.append [.tw, .bmc, .mem, .flt, .stg]) (telemetryWords.append [s.dev.stagedWord, oneWord
    MEM_EVT.EVT, eachWord TW_ATTN.ADDR, eachWord TW_CNT.ARB_LOST, eachWord TW_EVT.EVT, eachWord TW_STATUS.STATE, eachWord
    TW_XSTAT.STATE]))) ∧
  (∀ (x : PmbTail) (s : State), Framed (.readTemperature1 x) s (telemetryParts.append [.tw, .bmc, .mem, .flt, .stg])
    (telemetryWords.append [s.dev.stagedWord, tableWord, oneWord MEM_EVT.EVT, eachWord MEM_OFFLINE.OFFLINE, eachWord TW_ATTN.ADDR,
    eachWord TW_CNT.ARB_LOST, eachWord TW_EVT.EVT, eachWord TW_STATUS.STATE, eachWord TW_XSTAT.STATE]) ∧ (s.dev.mem.err = [] →
    Framed (.readTemperature1 x) s (telemetryParts.append [.tw, .bmc, .mem, .flt, .stg]) (telemetryWords.append [s.dev.stagedWord,
    oneWord MEM_EVT.EVT, eachWord TW_ATTN.ADDR, eachWord TW_CNT.ARB_LOST, eachWord TW_EVT.EVT, eachWord TW_STATUS.STATE, eachWord
    TW_XSTAT.STATE]))) ∧
  (∀ (x : PmbTail) (s : State), Framed (.readPout x) s (telemetryParts.append [.tw, .bmc, .mem, .flt, .stg]) (telemetryWords.append
    [s.dev.stagedWord, tableWord, oneWord MEM_EVT.EVT, eachWord MEM_OFFLINE.OFFLINE, eachWord TW_ATTN.ADDR, eachWord
    TW_CNT.ARB_LOST, eachWord TW_EVT.EVT, eachWord TW_STATUS.STATE, eachWord TW_XSTAT.STATE]) ∧ (s.dev.mem.err = [] → Framed
    (.readPout x) s (telemetryParts.append [.tw, .bmc, .mem, .flt, .stg]) (telemetryWords.append [s.dev.stagedWord, oneWord
    MEM_EVT.EVT, eachWord TW_ATTN.ADDR, eachWord TW_CNT.ARB_LOST, eachWord TW_EVT.EVT, eachWord TW_STATUS.STATE, eachWord
    TW_XSTAT.STATE]))) ∧
  (∀ (x : PmbTail) (s : State), Framed (.readPin x) s (telemetryParts.append [.tw, .bmc, .mem, .flt, .stg]) (telemetryWords.append
    [s.dev.stagedWord, tableWord, oneWord MEM_EVT.EVT, eachWord MEM_OFFLINE.OFFLINE, eachWord TW_ATTN.ADDR, eachWord
    TW_CNT.ARB_LOST, eachWord TW_EVT.EVT, eachWord TW_STATUS.STATE, eachWord TW_XSTAT.STATE]) ∧ (s.dev.mem.err = [] → Framed
    (.readPin x) s (telemetryParts.append [.tw, .bmc, .mem, .flt, .stg]) (telemetryWords.append [s.dev.stagedWord, oneWord
    MEM_EVT.EVT, eachWord TW_ATTN.ADDR, eachWord TW_CNT.ARB_LOST, eachWord TW_EVT.EVT, eachWord TW_STATUS.STATE, eachWord
    TW_XSTAT.STATE]))) ∧
  (∀ (x : PmbTail) (s : State), Framed (.pmbusRevision x) s (telemetryParts.append [.tw, .bmc, .mem, .flt, .stg])
    (telemetryWords.append [s.dev.stagedWord, tableWord, oneWord MEM_EVT.EVT, eachWord MEM_OFFLINE.OFFLINE, eachWord TW_ATTN.ADDR,
    eachWord TW_CNT.ARB_LOST, eachWord TW_EVT.EVT, eachWord TW_STATUS.STATE, eachWord TW_XSTAT.STATE]) ∧ (s.dev.mem.err = [] →
    Framed (.pmbusRevision x) s (telemetryParts.append [.tw, .bmc, .mem, .flt, .stg]) (telemetryWords.append [s.dev.stagedWord,
    oneWord MEM_EVT.EVT, eachWord TW_ATTN.ADDR, eachWord TW_CNT.ARB_LOST, eachWord TW_EVT.EVT, eachWord TW_STATUS.STATE, eachWord
    TW_XSTAT.STATE]))) ∧
  (∀ (n : Fin 16) (s : State), Framed (.attentionHoldEnd n) s (telemetryParts.append [.tw, .mem, .flt, .stg]) (telemetryWords.append
    [s.dev.stagedWord, tableWord, oneWord MEM_EVT.EVT, eachWord MEM_OFFLINE.OFFLINE, eachWord TW_ATTN.ADDR, eachWord
    TW_CNT.ARB_LOST, eachWord TW_EVT.EVT, eachWord TW_STATUS.STATE, eachWord TW_XSTAT.STATE]) ∧ (s.dev.mem.err = [] → Framed
    (.attentionHoldEnd n) s (telemetryParts.append [.tw, .mem, .flt, .stg]) (telemetryWords.append [s.dev.stagedWord, oneWord
    MEM_EVT.EVT, eachWord TW_ATTN.ADDR, eachWord TW_CNT.ARB_LOST, eachWord TW_EVT.EVT, eachWord TW_STATUS.STATE, eachWord
    TW_XSTAT.STATE]))) ∧
  (∀ (l : LineAt) (s : State), Framed (.sdaRise l) s (telemetryParts.append [.tw, .mem, .flt, .stg]) (telemetryWords.append
    [s.dev.stagedWord, tableWord, oneWord MEM_EVT.EVT, eachWord MEM_OFFLINE.OFFLINE, eachWord TW_ATTN.ADDR, eachWord
    TW_CNT.ARB_LOST, eachWord TW_EVT.EVT, eachWord TW_STATUS.STATE, eachWord TW_XSTAT.STATE]) ∧ (s.dev.mem.err = [] → Framed
    (.sdaRise l) s (telemetryParts.append [.tw, .mem, .flt, .stg]) (telemetryWords.append [s.dev.stagedWord, oneWord MEM_EVT.EVT,
    eachWord TW_ATTN.ADDR, eachWord TW_CNT.ARB_LOST, eachWord TW_EVT.EVT, eachWord TW_STATUS.STATE, eachWord TW_XSTAT.STATE])))

/-- What a core's instructions and events leave unchanged. Clauses for a core's events, as for the other commands; and for the parts
that every instruction is made of: reads of memory and of the host window, writes of memory, of the host window and of special
registers, exceptions, and the move to the next instruction. (R400, R404, R405, R425, R437) -/
def Obligations.FramesCores : Prop :=
  (∀ (d e : Dev) (c a n v b o : Nat), coreArea c a = some (.mem b o) → load c a n d = .ok (v, e) → Keeps d e [.regs, .mem, .flt,
    .hw] [tableWord, oneWord MEM_EVT.EVT, eachWord MEM_OFFLINE.OFFLINE]) ∧
  (∀ (d e : Dev) (c a n v o : Nat), coreArea c a = some (.host o) → load c a n d = .ok (v, e) → e = d) ∧
  (∀ (d e : Dev) (c a n v b o : Nat), coreArea c a = some (.mem b o) → store c a n v d = .ok ((), e) → Keeps d e [.regs, .mem, .flt,
    .core, .hw] [tableWord, oneWord MEM_EVT.EVT] ∧ (∀ k, k ≠ c → e.K k = d.K k) ∧ (o % 8 + n ≤ 8 → o < 0x100000 → bankPartner b =
    none → bankTables b = [] → d.granErr b (o / 8) = 0 → ∀ b' g', bankTables b' = [] → 8 * g' + 7 < 0x100000 → (b', g') ≠ (b, o /
    8) → e.granStored b' g' = d.granStored b' g')) ∧
  (∀ (d e : Dev) (c a n v o x : Nat), coreArea c a = some (.host o) → store c a n v d = .ok ((), e) → Keeps d e [.host, .hostMem] []
    ∧ ((∀ k, k < n → x % 2 ^ 48 ≠ (d.hostAddr c o + k) % 2 ^ 48) → e.hRd x 1 = d.hRd x 1)) ∧
  (∀ (d e : Dev) (c ty v k : Nat), putPlace c ty v (.at (.spec k)) d = .ok ((), e) → (∀ j, j ≠ c → e.K j = d.K j) ∧ (k ≠ 1 → Keeps d
    e [.core] []) ∧ Keeps d e [.core, .regs, .mem, .flt, .hw] [tableWord, oneWord MEM_EVT.EVT, eachWord MEM_OFFLINE.OFFLINE]) ∧
  (∀ (d : Dev) (c next : Nat) (n : Next), Keeps d (d.retire c next n) [.core] [] ∧ ∀ k, k ≠ c → (d.retire c next n).K k = d.K k) ∧
  (∀ (d : Dev) (c cause access addr aspace rec : Nat), Keeps d (d.exception c cause access addr aspace rec) (telemetryParts.append
    [.core, .flt]) (telemetryWords.append (coreWords.append [eachWord OWN.STATE]))) ∧
  (∀ (c : Fin 21) (v : Option (BitVec 64)) (s : State), Framed (.accessComplete c v) s (telemetryParts.append [.core, .mem, .flt])
    (telemetryWords.append (coreWords.append [tableWord, oneWord MEM_EVT.EVT, eachWord MEM_OFFLINE.OFFLINE, eachWord OWN.STATE]))
    ∧ (s.dev.mem.err = [] → Framed (.accessComplete c v) s (telemetryParts.append [.core, .mem, .flt]) (telemetryWords.append
    (coreWords.append [oneWord MEM_EVT.EVT, eachWord OWN.STATE])))) ∧
  (∀ (c : Fin 21) (s : State), Framed (.hostWindowTimeout c) s (telemetryParts.append [.core, .mem, .flt]) (telemetryWords.append
    (coreWords.append [tableWord, oneWord MEM_EVT.EVT, eachWord MEM_OFFLINE.OFFLINE, eachWord OWN.STATE])) ∧ (s.dev.mem.err = [] →
    Framed (.hostWindowTimeout c) s (telemetryParts.append [.core, .mem, .flt]) (telemetryWords.append (coreWords.append [oneWord
    MEM_EVT.EVT, eachWord OWN.STATE])))) ∧
  (∀ (c : Fin 21) (s : State), Framed (.watchdogExpire c) s (telemetryParts.append [.core, .mem, .flt]) (telemetryWords.append
    [tableWord, eachWord CORE_CYCLES.CYCLES, eachWord CORE_EVT.EVT, eachWord CORE_STATUS.STATE, oneWord MEM_EVT.EVT, eachWord
    MEM_OFFLINE.OFFLINE, eachWord OWN.STATE]) ∧ (s.dev.mem.err = [] → Framed (.watchdogExpire c) s (telemetryParts.append [.core,
    .mem, .flt]) (telemetryWords.append [eachWord CORE_CYCLES.CYCLES, eachWord CORE_EVT.EVT, eachWord CORE_STATUS.STATE, oneWord
    MEM_EVT.EVT, eachWord OWN.STATE])))
end

