-- ==== Sys2Proof/Laws/KV.lean ====
section
/-! SUPPORT. The laws of sparse maps and register fields: read after write, and the canonical form every write keeps. -/

namespace Sys2Proof.Machine

namespace KV

variable {α : Type}

theorem find?_insert_same (k : Nat) (v : α) (m : KV α) : find? k (insert k v m) = some v := by
  induction m with
  | nil => simp [insert, find?]
  | cons x r ih =>
    obtain ⟨j, u⟩ := x
    simp only [insert]
    split
    · simp [find?]
    · split
      · simp [find?]
      · next h => simp [find?, ih, Ne.symm h]

theorem find?_insert_ne {k j : Nat} (h : j ≠ k) (v : α) (m : KV α) : find? j (insert k v m) = find? j m := by
  induction m with
  | nil => simp [insert, find?, Ne.symm h]
  | cons x r ih =>
    obtain ⟨i, u⟩ := x
    simp only [insert]
    split
    · simp [find?, Ne.symm h]
    · split
      · next e => subst e; simp [find?, Ne.symm h]
      · simp [find?, ih]

theorem find?_erase_same (k : Nat) (m : KV α) : find? k (erase k m) = none := by
  induction m with
  | nil => rfl
  | cons x r ih =>
    obtain ⟨i, u⟩ := x
    simp only [erase]
    split
    · exact ih
    · next h => simp [find?, h, ih]

theorem find?_erase_ne {k j : Nat} (h : j ≠ k) (m : KV α) : find? j (erase k m) = find? j m := by
  induction m with
  | nil => rfl
  | cons x r ih =>
    obtain ⟨i, u⟩ := x
    simp only [erase]
    split
    · next e => subst e; simp [find?, Ne.symm h, ih]
    · simp [find?, ih]

/-- A read of the key that was written. -/
@[simp] theorem get_put_same [DecidableEq α] (dflt : Nat → α) (m : KV α) (k : Nat) (v : α) :
    get dflt (put dflt m k v) k = v := by
  unfold get put
  split
  · next h => simp [find?_erase_same, h]
  · simp [find?_insert_same]

/-- A read of another key. -/
theorem get_put_ne [DecidableEq α] {k j : Nat} (h : j ≠ k) (dflt : Nat → α) (m : KV α) (v : α) :
    get dflt (put dflt m k v) j = get dflt m j := by
  unfold get put
  split
  · rw [find?_erase_ne h]
  · rw [find?_insert_ne h]

@[simp] theorem get_nil (dflt : Nat → α) (k : Nat) : get dflt [] k = dflt k := rfl

/-- The first key of a map that is not empty. -/
def head? : KV α → Option Nat
  | [] => none
  | (j, _) :: _ => some j

variable [DecidableEq α]

theorem wf_cons (dflt : Nat → α) (k : Nat) (v : α) (r : KV α) :
    wf dflt ((k, v) :: r) = true ↔ v ≠ dflt k ∧ (∀ j, head? r = some j → k < j) ∧ wf dflt r = true := by
  cases r with
  | nil => simp [wf, head?]
  | cons x r => obtain ⟨j, u⟩ := x; simp [wf, head?, and_assoc]

omit [DecidableEq α] in
theorem head?_insert (k : Nat) (v : α) (m : KV α) {i : Nat} (h : head? (insert k v m) = some i) :
    i = k ∨ head? m = some i := by
  cases m with
  | nil => simp [insert, head?] at h; exact .inl h.symm
  | cons x r =>
    obtain ⟨j, u⟩ := x
    simp only [insert] at h
    split at h
    · simp [head?] at h; exact .inl h.symm
    · split at h
      · simp [head?] at h; exact .inl h.symm
      · exact .inr (by simpa [head?] using h)

/-- Putting a key in its place keeps the canonical form. -/
theorem wf_insert (dflt : Nat → α) {k : Nat} {v : α} (hv : v ≠ dflt k) {m : KV α} (h : wf dflt m = true) :
    wf dflt (insert k v m) = true := by
  induction m with
  | nil => simp [insert, wf, hv]
  | cons x r ih =>
    obtain ⟨j, u⟩ := x
    have hc := (wf_cons dflt j u r).1 h
    simp only [insert]
    split
    · next hk => exact (wf_cons dflt k v _).2 ⟨hv, fun i hi => by simp [head?] at hi; omega, h⟩
    · split
      · next e => subst e; exact (wf_cons dflt k v r).2 ⟨hv, hc.2.1, hc.2.2⟩
      · refine (wf_cons dflt j u _).2 ⟨hc.1, fun i hi => ?_, ih hc.2.2⟩
        rcases head?_insert k v r hi with rfl | hr
        · omega
        · exact hc.2.1 i hr

theorem wf_mem_gt (dflt : Nat → α) {k : Nat} {v : α} {r : KV α} (h : wf dflt ((k, v) :: r) = true) {j : Nat} {u : α}
    (hm : (j, u) ∈ r) : k < j := by
  induction r generalizing k v with
  | nil => cases hm
  | cons x r ih =>
    obtain ⟨i, w⟩ := x
    have hc := (wf_cons dflt k v _).1 h
    have hi : k < i := hc.2.1 i rfl
    rcases List.mem_cons.1 hm with e | hm
    · cases e; exact hi
    · exact Nat.lt_trans hi (ih hc.2.2 hm)

omit [DecidableEq α] in
theorem erase_sub (k : Nat) (m : KV α) {x : Nat × α} (h : x ∈ erase k m) : x ∈ m := by
  induction m with
  | nil => exact h
  | cons y r ih =>
    obtain ⟨j, u⟩ := y
    simp only [erase] at h
    split at h
    · exact List.mem_cons_of_mem _ (ih h)
    · rcases List.mem_cons.1 h with rfl | h
      · exact List.mem_cons_self
      · exact List.mem_cons_of_mem _ (ih h)

omit [DecidableEq α] in
theorem head?_mem {m : KV α} {j : Nat} (h : head? m = some j) : ∃ u, (j, u) ∈ m := by
  cases m with
  | nil => cases h
  | cons x r => obtain ⟨i, u⟩ := x; simp [head?] at h; exact ⟨u, h ▸ List.mem_cons_self⟩

/-- Removing a key keeps the canonical form. -/
theorem wf_erase (dflt : Nat → α) (k : Nat) {m : KV α} (h : wf dflt m = true) : wf dflt (erase k m) = true := by
  induction m with
  | nil => rfl
  | cons x r ih =>
    obtain ⟨j, u⟩ := x
    have hc := (wf_cons dflt j u r).1 h
    simp only [erase]
    split
    · exact ih hc.2.2
    · refine (wf_cons dflt j u _).2 ⟨hc.1, fun i hi => ?_, ih hc.2.2⟩
      obtain ⟨w, hw⟩ := head?_mem hi
      exact wf_mem_gt dflt h (erase_sub k r hw)

/-- A write keeps the canonical form. -/
theorem wf_put (dflt : Nat → α) (k : Nat) (v : α) {m : KV α} (h : wf dflt m = true) : wf dflt (put dflt m k v) = true := by
  unfold put
  split
  · exact wf_erase dflt k h
  · next hv => exact wf_insert dflt hv h

end KV

/-! ## Fields -/

theorem Fld.getLsbD_put (f : Fld) (w : Word) (v i : Nat) (hi : i < 32) :
    (f.put w v).getLsbD i = if f.lo ≤ i ∧ i < f.lo + f.len then v.testBit (i - f.lo) else w.getLsbD i := by
  have ho : (BitVec.allOnes f.len).getLsbD (i - f.lo) = decide (i - f.lo < f.len) := by simp
  simp only [Fld.put, BitVec.getLsbD_or, BitVec.getLsbD_and, BitVec.getLsbD_not, BitVec.getLsbD_shiftLeft,
    BitVec.getLsbD_setWidth, BitVec.getLsbD_ofNat, ho, hi, decide_true, Bool.true_and]
  by_cases h1 : i < f.lo
  · have : ¬ (f.lo ≤ i ∧ i < f.lo + f.len) := by omega
    simp [h1, this]
  · by_cases h2 : i - f.lo < f.len
    · have h3 : f.lo ≤ i ∧ i < f.lo + f.len := by omega
      have h4 : i - f.lo < 32 := by omega
      simp [h1, h2, h3, h4]
    · have h3 : ¬ (f.lo ≤ i ∧ i < f.lo + f.len) := by omega
      simp [h1, h2, h3]

theorem Fld.testBit_get (f : Fld) (w : Word) (i : Nat) :
    (f.get w).testBit i = (decide (i < f.len) && w.getLsbD (f.lo + i)) := by
  simp [Fld.get, Nat.testBit_mod_two_pow, Nat.testBit_div_two_pow, BitVec.testBit_toNat, Nat.add_comm]

/-- A field reads the low bits of what was written to it. -/
theorem Fld.get_put_same (f : Fld) (h : f.lo + f.len ≤ 32) (w : Word) (v : Nat) : f.get (f.put w v) = v % 2 ^ f.len := by
  apply Nat.eq_of_testBit_eq
  intro i
  rw [Fld.testBit_get, Nat.testBit_mod_two_pow]
  by_cases hi : i < f.len
  · rw [Fld.getLsbD_put _ _ _ _ (by omega)]
    simp [hi]
  · simp [hi]

/-- A field with no bit in common with the one written. -/
theorem Fld.get_put_ne (f g : Fld) (h : g.lo + g.len ≤ f.lo ∨ f.lo + f.len ≤ g.lo) (hg : g.lo + g.len ≤ 32) (w : Word) (v : Nat) :
    g.get (f.put w v) = g.get w := by
  apply Nat.eq_of_testBit_eq
  intro i
  rw [Fld.testBit_get, Fld.testBit_get]
  by_cases hi : i < g.len
  · rw [Fld.getLsbD_put _ _ _ _ (by omega), if_neg (by omega)]
  · simp [hi]

/-- A field is below 2 to its width. -/
theorem Fld.get_lt (f : Fld) (w : Word) : f.get w < 2 ^ f.len := Nat.mod_lt _ (Nat.two_pow_pos _)

end Sys2Proof.Machine
end

