-- ==== Sys2Proof/Laws/State.lean ====
section
/-! SUPPORT. What each update of the state leaves and changes: one lemma per field per update, and a read of a unit or of a register
after a write of one. -/

namespace Sys2Proof.Machine

variable (d : Dev)

/-! ## Registers -/

@[simp] theorem Dev.word_setWord_same (off : Nat) (w : Word) : (d.setWord off w).word off = w := KV.get_put_same _ _ _ _

theorem Dev.word_setWord_ne {off o : Nat} (h : o ≠ off) (w : Word) : (d.setWord off w).word o = d.word o := KV.get_put_ne h _ _ _

theorem Dev.word_wr_ne (f : Fld) (v : Nat) {o : Nat} (h : o ≠ f.off) : (d.wr f v).word o = d.word o := d.word_setWord_ne h _

/-- A field reads what was written to it, in its width. -/
theorem Dev.rd_wr_same (f : Fld) (v : Nat) (h : f.lo + f.len ≤ 32) : (d.wr f v).rd f = v % 2 ^ f.len := by
  simp [Dev.rd, Dev.wr, Fld.get_put_same f h]

/-- Two fields have no bit in common. -/
def Fld.apart (f g : Fld) : Prop := f.off ≠ g.off ∨ f.lo + f.len ≤ g.lo ∨ g.lo + g.len ≤ f.lo

/-- A field that shares no bit with the one written. -/
theorem Dev.rd_wr_apart (f g : Fld) (v : Nat) (h : f.apart g) (hg : g.lo + g.len ≤ 32) : (d.wr f v).rd g = d.rd g := by
  by_cases e : g.off = f.off
  · have h' : g.lo + g.len ≤ f.lo ∨ f.lo + f.len ≤ g.lo := by
      rcases h with h | h | h
      · exact absurd e.symm h
      · exact .inr h
      · exact .inl h
    simp [Dev.rd, Dev.wr, e, Fld.get_put_ne f g h' hg]
  · simp [Dev.rd, Dev.wr, Dev.word_setWord_ne _ e]

/-- The register map keeps its canonical form. -/
theorem Dev.regs_setWord_wf (off : Nat) (w : Word) (h : KV.wf resetWord d.regs = true) :
    KV.wf resetWord (d.setWord off w).regs = true := KV.wf_put _ _ _ h


/-! ## The fields a register write leaves -/

@[simp] theorem Dev.evt_regs (f : Fld) (b : Nat) : (d.evt f b).regs = (d.wr f (setBit (d.rd f) b)).regs := rfl
@[simp] theorem Dev.bump_regs (f : Fld) (k : Nat) : (d.bump f k).regs = (d.wr f (satAdd (2 ^ f.len - 1) (d.rd f) k)).regs := rfl
@[simp] theorem Dev.hwWr_regs (f : Fld) (v : Nat) : (d.hwWr f v).regs = (d.wr f v).regs := rfl
theorem Dev.rd_evt (f : Fld) (b : Nat) (g : Fld) : (d.evt f b).rd g = (d.wr f (setBit (d.rd f) b)).rd g := rfl
theorem Dev.rd_bump (f : Fld) (k : Nat) (g : Fld) : (d.bump f k).rd g = (d.wr f (satAdd (2 ^ f.len - 1) (d.rd f) k)).rd g := rfl
theorem Dev.rd_hwWr (f : Fld) (v : Nat) (g : Fld) : (d.hwWr f v).rd g = (d.wr f v).rd g := rfl

@[simp] theorem Dev.setWord_clk (off : Nat) (w : Word) : (d.setWord off w).clk = d.clk := rfl
@[simp] theorem Dev.wr_clk (f : Fld) (v : Nat) : (d.wr f v).clk = d.clk := rfl
@[simp] theorem Dev.evt_clk (f : Fld) (b : Nat) : (d.evt f b).clk = d.clk := rfl
@[simp] theorem Dev.bump_clk (f : Fld) (k : Nat) : (d.bump f k).clk = d.clk := rfl
@[simp] theorem Dev.hwWr_clk (f : Fld) (v : Nat) : (d.hwWr f v).clk = d.clk := rfl
@[simp] theorem Dev.setWord_mode (off : Nat) (w : Word) : (d.setWord off w).mode = d.mode := rfl
@[simp] theorem Dev.wr_mode (f : Fld) (v : Nat) : (d.wr f v).mode = d.mode := rfl
@[simp] theorem Dev.evt_mode (f : Fld) (b : Nat) : (d.evt f b).mode = d.mode := rfl
@[simp] theorem Dev.bump_mode (f : Fld) (k : Nat) : (d.bump f k).mode = d.mode := rfl
@[simp] theorem Dev.hwWr_mode (f : Fld) (v : Nat) : (d.hwWr f v).mode = d.mode := rfl
@[simp] theorem Dev.setWord_ent (off : Nat) (w : Word) : (d.setWord off w).ent = d.ent := rfl
@[simp] theorem Dev.wr_ent (f : Fld) (v : Nat) : (d.wr f v).ent = d.ent := rfl
@[simp] theorem Dev.evt_ent (f : Fld) (b : Nat) : (d.evt f b).ent = d.ent := rfl
@[simp] theorem Dev.bump_ent (f : Fld) (k : Nat) : (d.bump f k).ent = d.ent := rfl
@[simp] theorem Dev.hwWr_ent (f : Fld) (v : Nat) : (d.hwWr f v).ent = d.ent := rfl
@[simp] theorem Dev.setWord_br (off : Nat) (w : Word) : (d.setWord off w).br = d.br := rfl
@[simp] theorem Dev.wr_br (f : Fld) (v : Nat) : (d.wr f v).br = d.br := rfl
@[simp] theorem Dev.evt_br (f : Fld) (b : Nat) : (d.evt f b).br = d.br := rfl
@[simp] theorem Dev.bump_br (f : Fld) (k : Nat) : (d.bump f k).br = d.br := rfl
@[simp] theorem Dev.hwWr_br (f : Fld) (v : Nat) : (d.hwWr f v).br = d.br := rfl
@[simp] theorem Dev.setWord_retry (off : Nat) (w : Word) : (d.setWord off w).retry = d.retry := rfl
@[simp] theorem Dev.wr_retry (f : Fld) (v : Nat) : (d.wr f v).retry = d.retry := rfl
@[simp] theorem Dev.evt_retry (f : Fld) (b : Nat) : (d.evt f b).retry = d.retry := rfl
@[simp] theorem Dev.bump_retry (f : Fld) (k : Nat) : (d.bump f k).retry = d.retry := rfl
@[simp] theorem Dev.hwWr_retry (f : Fld) (v : Nat) : (d.hwWr f v).retry = d.retry := rfl
@[simp] theorem Dev.setWord_rail (off : Nat) (w : Word) : (d.setWord off w).rail = d.rail := rfl
@[simp] theorem Dev.wr_rail (f : Fld) (v : Nat) : (d.wr f v).rail = d.rail := rfl
@[simp] theorem Dev.evt_rail (f : Fld) (b : Nat) : (d.evt f b).rail = d.rail := rfl
@[simp] theorem Dev.bump_rail (f : Fld) (k : Nat) : (d.bump f k).rail = d.rail := rfl
@[simp] theorem Dev.hwWr_rail (f : Fld) (v : Nat) : (d.hwWr f v).rail = d.rail := rfl
@[simp] theorem Dev.setWord_ph (off : Nat) (w : Word) : (d.setWord off w).ph = d.ph := rfl
@[simp] theorem Dev.wr_ph (f : Fld) (v : Nat) : (d.wr f v).ph = d.ph := rfl
@[simp] theorem Dev.evt_ph (f : Fld) (b : Nat) : (d.evt f b).ph = d.ph := rfl
@[simp] theorem Dev.bump_ph (f : Fld) (k : Nat) : (d.bump f k).ph = d.ph := rfl
@[simp] theorem Dev.hwWr_ph (f : Fld) (v : Nat) : (d.hwWr f v).ph = d.ph := rfl
@[simp] theorem Dev.setWord_port (off : Nat) (w : Word) : (d.setWord off w).port = d.port := rfl
@[simp] theorem Dev.wr_port (f : Fld) (v : Nat) : (d.wr f v).port = d.port := rfl
@[simp] theorem Dev.evt_port (f : Fld) (b : Nat) : (d.evt f b).port = d.port := rfl
@[simp] theorem Dev.bump_port (f : Fld) (k : Nat) : (d.bump f k).port = d.port := rfl
@[simp] theorem Dev.hwWr_port (f : Fld) (v : Nat) : (d.hwWr f v).port = d.port := rfl
@[simp] theorem Dev.setWord_conv (off : Nat) (w : Word) : (d.setWord off w).conv = d.conv := rfl
@[simp] theorem Dev.wr_conv (f : Fld) (v : Nat) : (d.wr f v).conv = d.conv := rfl
@[simp] theorem Dev.evt_conv (f : Fld) (b : Nat) : (d.evt f b).conv = d.conv := rfl
@[simp] theorem Dev.bump_conv (f : Fld) (k : Nat) : (d.bump f k).conv = d.conv := rfl
@[simp] theorem Dev.hwWr_conv (f : Fld) (v : Nat) : (d.hwWr f v).conv = d.conv := rfl
@[simp] theorem Dev.setWord_scv (off : Nat) (w : Word) : (d.setWord off w).scv = d.scv := rfl
@[simp] theorem Dev.wr_scv (f : Fld) (v : Nat) : (d.wr f v).scv = d.scv := rfl
@[simp] theorem Dev.evt_scv (f : Fld) (b : Nat) : (d.evt f b).scv = d.scv := rfl
@[simp] theorem Dev.bump_scv (f : Fld) (k : Nat) : (d.bump f k).scv = d.scv := rfl
@[simp] theorem Dev.hwWr_scv (f : Fld) (v : Nat) : (d.hwWr f v).scv = d.scv := rfl
@[simp] theorem Dev.setWord_icv (off : Nat) (w : Word) : (d.setWord off w).icv = d.icv := rfl
@[simp] theorem Dev.wr_icv (f : Fld) (v : Nat) : (d.wr f v).icv = d.icv := rfl
@[simp] theorem Dev.evt_icv (f : Fld) (b : Nat) : (d.evt f b).icv = d.icv := rfl
@[simp] theorem Dev.bump_icv (f : Fld) (k : Nat) : (d.bump f k).icv = d.icv := rfl
@[simp] theorem Dev.hwWr_icv (f : Fld) (v : Nat) : (d.hwWr f v).icv = d.icv := rfl
@[simp] theorem Dev.setWord_sage (off : Nat) (w : Word) : (d.setWord off w).sage = d.sage := rfl
@[simp] theorem Dev.wr_sage (f : Fld) (v : Nat) : (d.wr f v).sage = d.sage := rfl
@[simp] theorem Dev.evt_sage (f : Fld) (b : Nat) : (d.evt f b).sage = d.sage := rfl
@[simp] theorem Dev.bump_sage (f : Fld) (k : Nat) : (d.bump f k).sage = d.sage := rfl
@[simp] theorem Dev.hwWr_sage (f : Fld) (v : Nat) : (d.hwWr f v).sage = d.sage := rfl
@[simp] theorem Dev.setWord_slot (off : Nat) (w : Word) : (d.setWord off w).slot = d.slot := rfl
@[simp] theorem Dev.wr_slot (f : Fld) (v : Nat) : (d.wr f v).slot = d.slot := rfl
@[simp] theorem Dev.evt_slot (f : Fld) (b : Nat) : (d.evt f b).slot = d.slot := rfl
@[simp] theorem Dev.bump_slot (f : Fld) (k : Nat) : (d.bump f k).slot = d.slot := rfl
@[simp] theorem Dev.hwWr_slot (f : Fld) (v : Nat) : (d.hwWr f v).slot = d.slot := rfl
@[simp] theorem Dev.setWord_ring (off : Nat) (w : Word) : (d.setWord off w).ring = d.ring := rfl
@[simp] theorem Dev.wr_ring (f : Fld) (v : Nat) : (d.wr f v).ring = d.ring := rfl
@[simp] theorem Dev.evt_ring (f : Fld) (b : Nat) : (d.evt f b).ring = d.ring := rfl
@[simp] theorem Dev.bump_ring (f : Fld) (k : Nat) : (d.bump f k).ring = d.ring := rfl
@[simp] theorem Dev.hwWr_ring (f : Fld) (v : Nat) : (d.hwWr f v).ring = d.ring := rfl
@[simp] theorem Dev.setWord_thr (off : Nat) (w : Word) : (d.setWord off w).thr = d.thr := rfl
@[simp] theorem Dev.wr_thr (f : Fld) (v : Nat) : (d.wr f v).thr = d.thr := rfl
@[simp] theorem Dev.evt_thr (f : Fld) (b : Nat) : (d.evt f b).thr = d.thr := rfl
@[simp] theorem Dev.bump_thr (f : Fld) (k : Nat) : (d.bump f k).thr = d.thr := rfl
@[simp] theorem Dev.hwWr_thr (f : Fld) (v : Nat) : (d.hwWr f v).thr = d.thr := rfl
@[simp] theorem Dev.setWord_rq (off : Nat) (w : Word) : (d.setWord off w).rq = d.rq := rfl
@[simp] theorem Dev.wr_rq (f : Fld) (v : Nat) : (d.wr f v).rq = d.rq := rfl
@[simp] theorem Dev.evt_rq (f : Fld) (b : Nat) : (d.evt f b).rq = d.rq := rfl
@[simp] theorem Dev.bump_rq (f : Fld) (k : Nat) : (d.bump f k).rq = d.rq := rfl
@[simp] theorem Dev.hwWr_rq (f : Fld) (v : Nat) : (d.hwWr f v).rq = d.rq := rfl
@[simp] theorem Dev.setWord_rqHi (off : Nat) (w : Word) : (d.setWord off w).rqHi = d.rqHi := rfl
@[simp] theorem Dev.setWord_rqHead (off : Nat) (w : Word) : (d.setWord off w).rqHead = d.rqHead := rfl
@[simp] theorem Dev.wr_rqHi (f : Fld) (v : Nat) : (d.wr f v).rqHi = d.rqHi := rfl
@[simp] theorem Dev.wr_rqHead (f : Fld) (v : Nat) : (d.wr f v).rqHead = d.rqHead := rfl
@[simp] theorem Dev.evt_rqHi (f : Fld) (b : Nat) : (d.evt f b).rqHi = d.rqHi := rfl
@[simp] theorem Dev.evt_rqHead (f : Fld) (b : Nat) : (d.evt f b).rqHead = d.rqHead := rfl
@[simp] theorem Dev.bump_rqHi (f : Fld) (k : Nat) : (d.bump f k).rqHi = d.rqHi := rfl
@[simp] theorem Dev.bump_rqHead (f : Fld) (k : Nat) : (d.bump f k).rqHead = d.rqHead := rfl
@[simp] theorem Dev.hwWr_rqHi (f : Fld) (v : Nat) : (d.hwWr f v).rqHi = d.rqHi := rfl
@[simp] theorem Dev.hwWr_rqHead (f : Fld) (v : Nat) : (d.hwWr f v).rqHead = d.rqHead := rfl
@[simp] theorem Dev.setWord_host (off : Nat) (w : Word) : (d.setWord off w).host = d.host := rfl
@[simp] theorem Dev.wr_host (f : Fld) (v : Nat) : (d.wr f v).host = d.host := rfl
@[simp] theorem Dev.evt_host (f : Fld) (b : Nat) : (d.evt f b).host = d.host := rfl
@[simp] theorem Dev.bump_host (f : Fld) (k : Nat) : (d.bump f k).host = d.host := rfl
@[simp] theorem Dev.hwWr_host (f : Fld) (v : Nat) : (d.hwWr f v).host = d.host := rfl
@[simp] theorem Dev.setWord_vc (off : Nat) (w : Word) : (d.setWord off w).vc = d.vc := rfl
@[simp] theorem Dev.wr_vc (f : Fld) (v : Nat) : (d.wr f v).vc = d.vc := rfl
@[simp] theorem Dev.evt_vc (f : Fld) (b : Nat) : (d.evt f b).vc = d.vc := rfl
@[simp] theorem Dev.bump_vc (f : Fld) (k : Nat) : (d.bump f k).vc = d.vc := rfl
@[simp] theorem Dev.hwWr_vc (f : Fld) (v : Nat) : (d.hwWr f v).vc = d.vc := rfl
@[simp] theorem Dev.setWord_stream (off : Nat) (w : Word) : (d.setWord off w).stream = d.stream := rfl
@[simp] theorem Dev.wr_stream (f : Fld) (v : Nat) : (d.wr f v).stream = d.stream := rfl
@[simp] theorem Dev.evt_stream (f : Fld) (b : Nat) : (d.evt f b).stream = d.stream := rfl
@[simp] theorem Dev.bump_stream (f : Fld) (k : Nat) : (d.bump f k).stream = d.stream := rfl
@[simp] theorem Dev.hwWr_stream (f : Fld) (v : Nat) : (d.hwWr f v).stream = d.stream := rfl
@[simp] theorem Dev.setWord_tw (off : Nat) (w : Word) : (d.setWord off w).tw = d.tw := rfl
@[simp] theorem Dev.wr_tw (f : Fld) (v : Nat) : (d.wr f v).tw = d.tw := rfl
@[simp] theorem Dev.evt_tw (f : Fld) (b : Nat) : (d.evt f b).tw = d.tw := rfl
@[simp] theorem Dev.bump_tw (f : Fld) (k : Nat) : (d.bump f k).tw = d.tw := rfl
@[simp] theorem Dev.hwWr_tw (f : Fld) (v : Nat) : (d.hwWr f v).tw = d.tw := rfl
@[simp] theorem Dev.setWord_bmc (off : Nat) (w : Word) : (d.setWord off w).bmc = d.bmc := rfl
@[simp] theorem Dev.wr_bmc (f : Fld) (v : Nat) : (d.wr f v).bmc = d.bmc := rfl
@[simp] theorem Dev.evt_bmc (f : Fld) (b : Nat) : (d.evt f b).bmc = d.bmc := rfl
@[simp] theorem Dev.bump_bmc (f : Fld) (k : Nat) : (d.bump f k).bmc = d.bmc := rfl
@[simp] theorem Dev.hwWr_bmc (f : Fld) (v : Nat) : (d.hwWr f v).bmc = d.bmc := rfl
@[simp] theorem Dev.setWord_core (off : Nat) (w : Word) : (d.setWord off w).core = d.core := rfl
@[simp] theorem Dev.wr_core (f : Fld) (v : Nat) : (d.wr f v).core = d.core := rfl
@[simp] theorem Dev.evt_core (f : Fld) (b : Nat) : (d.evt f b).core = d.core := rfl
@[simp] theorem Dev.bump_core (f : Fld) (k : Nat) : (d.bump f k).core = d.core := rfl
@[simp] theorem Dev.hwWr_core (f : Fld) (v : Nat) : (d.hwWr f v).core = d.core := rfl
@[simp] theorem Dev.setWord_mem (off : Nat) (w : Word) : (d.setWord off w).mem = d.mem := rfl
@[simp] theorem Dev.wr_mem (f : Fld) (v : Nat) : (d.wr f v).mem = d.mem := rfl
@[simp] theorem Dev.evt_mem (f : Fld) (b : Nat) : (d.evt f b).mem = d.mem := rfl
@[simp] theorem Dev.bump_mem (f : Fld) (k : Nat) : (d.bump f k).mem = d.mem := rfl
@[simp] theorem Dev.hwWr_mem (f : Fld) (v : Nat) : (d.hwWr f v).mem = d.mem := rfl
@[simp] theorem Dev.setWord_flt (off : Nat) (w : Word) : (d.setWord off w).flt = d.flt := rfl
@[simp] theorem Dev.wr_flt (f : Fld) (v : Nat) : (d.wr f v).flt = d.flt := rfl
@[simp] theorem Dev.evt_flt (f : Fld) (b : Nat) : (d.evt f b).flt = d.flt := rfl
@[simp] theorem Dev.bump_flt (f : Fld) (k : Nat) : (d.bump f k).flt = d.flt := rfl
@[simp] theorem Dev.hwWr_flt (f : Fld) (v : Nat) : (d.hwWr f v).flt = d.flt := rfl
@[simp] theorem Dev.setWord_keep (off : Nat) (w : Word) : (d.setWord off w).keep = d.keep := rfl
@[simp] theorem Dev.wr_keep (f : Fld) (v : Nat) : (d.wr f v).keep = d.keep := rfl
@[simp] theorem Dev.evt_keep (f : Fld) (b : Nat) : (d.evt f b).keep = d.keep := rfl
@[simp] theorem Dev.bump_keep (f : Fld) (k : Nat) : (d.bump f k).keep = d.keep := rfl
@[simp] theorem Dev.hwWr_keep (f : Fld) (v : Nat) : (d.hwWr f v).keep = d.keep := rfl
@[simp] theorem Dev.setWord_link (off : Nat) (w : Word) : (d.setWord off w).link = d.link := rfl
@[simp] theorem Dev.setWord_hw (off : Nat) (w : Word) : (d.setWord off w).hw = d.hw := rfl
@[simp] theorem Dev.setWord_stg (off : Nat) (w : Word) : (d.setWord off w).stg = d.stg := rfl
@[simp] theorem Dev.wr_link (f : Fld) (v : Nat) : (d.wr f v).link = d.link := rfl
@[simp] theorem Dev.wr_hw (f : Fld) (v : Nat) : (d.wr f v).hw = d.hw := rfl
@[simp] theorem Dev.wr_stg (f : Fld) (v : Nat) : (d.wr f v).stg = d.stg := rfl
@[simp] theorem Dev.evt_link (f : Fld) (b : Nat) : (d.evt f b).link = d.link := rfl
@[simp] theorem Dev.evt_stg (f : Fld) (b : Nat) : (d.evt f b).stg = d.stg := rfl
@[simp] theorem Dev.bump_link (f : Fld) (k : Nat) : (d.bump f k).link = d.link := rfl
@[simp] theorem Dev.hwWr_link (f : Fld) (v : Nat) : (d.hwWr f v).link = d.link := rfl
@[simp] theorem Dev.bump_stg (f : Fld) (k : Nat) : (d.bump f k).stg = d.stg := rfl
@[simp] theorem Dev.hwWr_stg (f : Fld) (v : Nat) : (d.hwWr f v).stg = d.stg := rfl

/-! ## `onE` -/

@[simp] theorem Dev.onE_regs (n : Nat) (g) : (d.onE n g).regs = d.regs := rfl
@[simp] theorem Dev.onE_clk (n : Nat) (g) : (d.onE n g).clk = d.clk := rfl
@[simp] theorem Dev.onE_mode (n : Nat) (g) : (d.onE n g).mode = d.mode := rfl
@[simp] theorem Dev.onE_br (n : Nat) (g) : (d.onE n g).br = d.br := rfl
@[simp] theorem Dev.onE_retry (n : Nat) (g) : (d.onE n g).retry = d.retry := rfl
@[simp] theorem Dev.onE_rail (n : Nat) (g) : (d.onE n g).rail = d.rail := rfl
@[simp] theorem Dev.onE_ph (n : Nat) (g) : (d.onE n g).ph = d.ph := rfl
@[simp] theorem Dev.onE_port (n : Nat) (g) : (d.onE n g).port = d.port := rfl
@[simp] theorem Dev.onE_conv (n : Nat) (g) : (d.onE n g).conv = d.conv := rfl
@[simp] theorem Dev.onE_scv (n : Nat) (g) : (d.onE n g).scv = d.scv := rfl
@[simp] theorem Dev.onE_icv (n : Nat) (g) : (d.onE n g).icv = d.icv := rfl
@[simp] theorem Dev.onE_sage (n : Nat) (g) : (d.onE n g).sage = d.sage := rfl
@[simp] theorem Dev.onE_slot (n : Nat) (g) : (d.onE n g).slot = d.slot := rfl
@[simp] theorem Dev.onE_ring (n : Nat) (g) : (d.onE n g).ring = d.ring := rfl
@[simp] theorem Dev.onE_thr (n : Nat) (g) : (d.onE n g).thr = d.thr := rfl
@[simp] theorem Dev.onE_rq (n : Nat) (g) : (d.onE n g).rq = d.rq := rfl
@[simp] theorem Dev.onE_rqHi (n : Nat) (g) : (d.onE n g).rqHi = d.rqHi := rfl
@[simp] theorem Dev.onE_rqHead (n : Nat) (g) : (d.onE n g).rqHead = d.rqHead := rfl
@[simp] theorem Dev.onE_host (n : Nat) (g) : (d.onE n g).host = d.host := rfl
@[simp] theorem Dev.onE_vc (n : Nat) (g) : (d.onE n g).vc = d.vc := rfl
@[simp] theorem Dev.onE_stream (n : Nat) (g) : (d.onE n g).stream = d.stream := rfl
@[simp] theorem Dev.onE_tw (n : Nat) (g) : (d.onE n g).tw = d.tw := rfl
@[simp] theorem Dev.onE_bmc (n : Nat) (g) : (d.onE n g).bmc = d.bmc := rfl
@[simp] theorem Dev.onE_core (n : Nat) (g) : (d.onE n g).core = d.core := rfl
@[simp] theorem Dev.onE_mem (n : Nat) (g) : (d.onE n g).mem = d.mem := rfl
@[simp] theorem Dev.onE_flt (n : Nat) (g) : (d.onE n g).flt = d.flt := rfl
@[simp] theorem Dev.onE_keep (n : Nat) (g) : (d.onE n g).keep = d.keep := rfl
@[simp] theorem Dev.onE_link (n : Nat) (g) : (d.onE n g).link = d.link := rfl
@[simp] theorem Dev.onE_hw (n : Nat) (g) : (d.onE n g).hw = d.hw := rfl
@[simp] theorem Dev.onE_stg (n : Nat) (g) : (d.onE n g).stg = d.stg := rfl
@[simp] theorem Dev.E_onE_same (n : Nat) (g) : (d.onE n g).E n = g (d.E n) := KV.get_put_same _ _ _ _
theorem Dev.E_onE_ne {n m : Nat} (h : m ≠ n) (g) : (d.onE n g).E m = d.E m := KV.get_put_ne h _ _ _
@[simp] theorem Dev.word_onE (n : Nat) (g) (o : Nat) : (d.onE n g).word o = d.word o := rfl
@[simp] theorem Dev.rd_onE (n : Nat) (g) (f : Fld) : (d.onE n g).rd f = d.rd f := rfl
@[simp] theorem Dev.B_onE (n : Nat) (g) (m : Nat) : (d.onE n g).B m = d.B m := rfl
@[simp] theorem Dev.RT_onE (n : Nat) (g) (m : Nat) : (d.onE n g).RT m = d.RT m := rfl
@[simp] theorem Dev.R_onE (n : Nat) (g) (m : Nat) : (d.onE n g).R m = d.R m := rfl
@[simp] theorem Dev.P_onE (n : Nat) (g) (m : Nat) : (d.onE n g).P m = d.P m := rfl
@[simp] theorem Dev.IP_onE (n : Nat) (g) (m : Nat) : (d.onE n g).IP m = d.IP m := rfl
@[simp] theorem Dev.C_onE (n : Nat) (g) (m : Nat) : (d.onE n g).C m = d.C m := rfl
@[simp] theorem Dev.SQ_onE (n : Nat) (g) (m : Nat) : (d.onE n g).SQ m = d.SQ m := rfl
@[simp] theorem Dev.IC_onE (n : Nat) (g) (m : Nat) : (d.onE n g).IC m = d.IC m := rfl
@[simp] theorem Dev.SG_onE (n : Nat) (g) (m : Nat) : (d.onE n g).SG m = d.SG m := rfl
@[simp] theorem Dev.SL_onE (n : Nat) (g) (m : Nat) : (d.onE n g).SL m = d.SL m := rfl
@[simp] theorem Dev.RG_onE (n : Nat) (g) (m : Nat) : (d.onE n g).RG m = d.RG m := rfl
@[simp] theorem Dev.T_onE (n : Nat) (g) (m : Nat) : (d.onE n g).T m = d.T m := rfl
@[simp] theorem Dev.Q_onE (n : Nat) (g) (m : Nat) : (d.onE n g).Q m = d.Q m := rfl
@[simp] theorem Dev.V_onE (n : Nat) (g) (m : Nat) : (d.onE n g).V m = d.V m := rfl
@[simp] theorem Dev.W_onE (n : Nat) (g) (m : Nat) : (d.onE n g).W m = d.W m := rfl
@[simp] theorem Dev.K_onE (n : Nat) (g) (m : Nat) : (d.onE n g).K m = d.K m := rfl

/-! ## `onB` -/

@[simp] theorem Dev.onB_regs (n : Nat) (g) : (d.onB n g).regs = d.regs := rfl
@[simp] theorem Dev.onB_clk (n : Nat) (g) : (d.onB n g).clk = d.clk := rfl
@[simp] theorem Dev.onB_mode (n : Nat) (g) : (d.onB n g).mode = d.mode := rfl
@[simp] theorem Dev.onB_ent (n : Nat) (g) : (d.onB n g).ent = d.ent := rfl
@[simp] theorem Dev.onB_retry (n : Nat) (g) : (d.onB n g).retry = d.retry := rfl
@[simp] theorem Dev.onB_rail (n : Nat) (g) : (d.onB n g).rail = d.rail := rfl
@[simp] theorem Dev.onB_ph (n : Nat) (g) : (d.onB n g).ph = d.ph := rfl
@[simp] theorem Dev.onB_port (n : Nat) (g) : (d.onB n g).port = d.port := rfl
@[simp] theorem Dev.onB_conv (n : Nat) (g) : (d.onB n g).conv = d.conv := rfl
@[simp] theorem Dev.onB_scv (n : Nat) (g) : (d.onB n g).scv = d.scv := rfl
@[simp] theorem Dev.onB_icv (n : Nat) (g) : (d.onB n g).icv = d.icv := rfl
@[simp] theorem Dev.onB_sage (n : Nat) (g) : (d.onB n g).sage = d.sage := rfl
@[simp] theorem Dev.onB_slot (n : Nat) (g) : (d.onB n g).slot = d.slot := rfl
@[simp] theorem Dev.onB_ring (n : Nat) (g) : (d.onB n g).ring = d.ring := rfl
@[simp] theorem Dev.onB_thr (n : Nat) (g) : (d.onB n g).thr = d.thr := rfl
@[simp] theorem Dev.onB_rq (n : Nat) (g) : (d.onB n g).rq = d.rq := rfl
@[simp] theorem Dev.onB_rqHi (n : Nat) (g) : (d.onB n g).rqHi = d.rqHi := rfl
@[simp] theorem Dev.onB_rqHead (n : Nat) (g) : (d.onB n g).rqHead = d.rqHead := rfl
@[simp] theorem Dev.onB_host (n : Nat) (g) : (d.onB n g).host = d.host := rfl
@[simp] theorem Dev.onB_vc (n : Nat) (g) : (d.onB n g).vc = d.vc := rfl
@[simp] theorem Dev.onB_stream (n : Nat) (g) : (d.onB n g).stream = d.stream := rfl
@[simp] theorem Dev.onB_tw (n : Nat) (g) : (d.onB n g).tw = d.tw := rfl
@[simp] theorem Dev.onB_bmc (n : Nat) (g) : (d.onB n g).bmc = d.bmc := rfl
@[simp] theorem Dev.onB_core (n : Nat) (g) : (d.onB n g).core = d.core := rfl
@[simp] theorem Dev.onB_mem (n : Nat) (g) : (d.onB n g).mem = d.mem := rfl
@[simp] theorem Dev.onB_flt (n : Nat) (g) : (d.onB n g).flt = d.flt := rfl
@[simp] theorem Dev.onB_keep (n : Nat) (g) : (d.onB n g).keep = d.keep := rfl
@[simp] theorem Dev.onB_link (n : Nat) (g) : (d.onB n g).link = d.link := rfl
@[simp] theorem Dev.onB_hw (n : Nat) (g) : (d.onB n g).hw = d.hw := rfl
@[simp] theorem Dev.onB_stg (n : Nat) (g) : (d.onB n g).stg = d.stg := rfl
@[simp] theorem Dev.B_onB_same (n : Nat) (g) : (d.onB n g).B n = g (d.B n) := KV.get_put_same _ _ _ _
theorem Dev.B_onB_ne {n m : Nat} (h : m ≠ n) (g) : (d.onB n g).B m = d.B m := KV.get_put_ne h _ _ _
@[simp] theorem Dev.word_onB (n : Nat) (g) (o : Nat) : (d.onB n g).word o = d.word o := rfl
@[simp] theorem Dev.rd_onB (n : Nat) (g) (f : Fld) : (d.onB n g).rd f = d.rd f := rfl
@[simp] theorem Dev.E_onB (n : Nat) (g) (m : Nat) : (d.onB n g).E m = d.E m := rfl
@[simp] theorem Dev.RT_onB (n : Nat) (g) (m : Nat) : (d.onB n g).RT m = d.RT m := rfl
@[simp] theorem Dev.R_onB (n : Nat) (g) (m : Nat) : (d.onB n g).R m = d.R m := rfl
@[simp] theorem Dev.P_onB (n : Nat) (g) (m : Nat) : (d.onB n g).P m = d.P m := rfl
@[simp] theorem Dev.IP_onB (n : Nat) (g) (m : Nat) : (d.onB n g).IP m = d.IP m := rfl
@[simp] theorem Dev.C_onB (n : Nat) (g) (m : Nat) : (d.onB n g).C m = d.C m := rfl
@[simp] theorem Dev.SQ_onB (n : Nat) (g) (m : Nat) : (d.onB n g).SQ m = d.SQ m := rfl
@[simp] theorem Dev.IC_onB (n : Nat) (g) (m : Nat) : (d.onB n g).IC m = d.IC m := rfl
@[simp] theorem Dev.SG_onB (n : Nat) (g) (m : Nat) : (d.onB n g).SG m = d.SG m := rfl
@[simp] theorem Dev.SL_onB (n : Nat) (g) (m : Nat) : (d.onB n g).SL m = d.SL m := rfl
@[simp] theorem Dev.RG_onB (n : Nat) (g) (m : Nat) : (d.onB n g).RG m = d.RG m := rfl
@[simp] theorem Dev.T_onB (n : Nat) (g) (m : Nat) : (d.onB n g).T m = d.T m := rfl
@[simp] theorem Dev.Q_onB (n : Nat) (g) (m : Nat) : (d.onB n g).Q m = d.Q m := rfl
@[simp] theorem Dev.V_onB (n : Nat) (g) (m : Nat) : (d.onB n g).V m = d.V m := rfl
@[simp] theorem Dev.W_onB (n : Nat) (g) (m : Nat) : (d.onB n g).W m = d.W m := rfl
@[simp] theorem Dev.K_onB (n : Nat) (g) (m : Nat) : (d.onB n g).K m = d.K m := rfl

/-! ## `onRT` -/

@[simp] theorem Dev.onRT_regs (n : Nat) (g) : (d.onRT n g).regs = d.regs := rfl
@[simp] theorem Dev.onRT_clk (n : Nat) (g) : (d.onRT n g).clk = d.clk := rfl
@[simp] theorem Dev.onRT_mode (n : Nat) (g) : (d.onRT n g).mode = d.mode := rfl
@[simp] theorem Dev.onRT_ent (n : Nat) (g) : (d.onRT n g).ent = d.ent := rfl
@[simp] theorem Dev.onRT_br (n : Nat) (g) : (d.onRT n g).br = d.br := rfl
@[simp] theorem Dev.onRT_rail (n : Nat) (g) : (d.onRT n g).rail = d.rail := rfl
@[simp] theorem Dev.onRT_ph (n : Nat) (g) : (d.onRT n g).ph = d.ph := rfl
@[simp] theorem Dev.onRT_port (n : Nat) (g) : (d.onRT n g).port = d.port := rfl
@[simp] theorem Dev.onRT_conv (n : Nat) (g) : (d.onRT n g).conv = d.conv := rfl
@[simp] theorem Dev.onRT_scv (n : Nat) (g) : (d.onRT n g).scv = d.scv := rfl
@[simp] theorem Dev.onRT_icv (n : Nat) (g) : (d.onRT n g).icv = d.icv := rfl
@[simp] theorem Dev.onRT_sage (n : Nat) (g) : (d.onRT n g).sage = d.sage := rfl
@[simp] theorem Dev.onRT_slot (n : Nat) (g) : (d.onRT n g).slot = d.slot := rfl
@[simp] theorem Dev.onRT_ring (n : Nat) (g) : (d.onRT n g).ring = d.ring := rfl
@[simp] theorem Dev.onRT_thr (n : Nat) (g) : (d.onRT n g).thr = d.thr := rfl
@[simp] theorem Dev.onRT_rq (n : Nat) (g) : (d.onRT n g).rq = d.rq := rfl
@[simp] theorem Dev.onRT_rqHi (n : Nat) (g) : (d.onRT n g).rqHi = d.rqHi := rfl
@[simp] theorem Dev.onRT_rqHead (n : Nat) (g) : (d.onRT n g).rqHead = d.rqHead := rfl
@[simp] theorem Dev.onRT_host (n : Nat) (g) : (d.onRT n g).host = d.host := rfl
@[simp] theorem Dev.onRT_vc (n : Nat) (g) : (d.onRT n g).vc = d.vc := rfl
@[simp] theorem Dev.onRT_stream (n : Nat) (g) : (d.onRT n g).stream = d.stream := rfl
@[simp] theorem Dev.onRT_tw (n : Nat) (g) : (d.onRT n g).tw = d.tw := rfl
@[simp] theorem Dev.onRT_bmc (n : Nat) (g) : (d.onRT n g).bmc = d.bmc := rfl
@[simp] theorem Dev.onRT_core (n : Nat) (g) : (d.onRT n g).core = d.core := rfl
@[simp] theorem Dev.onRT_mem (n : Nat) (g) : (d.onRT n g).mem = d.mem := rfl
@[simp] theorem Dev.onRT_flt (n : Nat) (g) : (d.onRT n g).flt = d.flt := rfl
@[simp] theorem Dev.onRT_keep (n : Nat) (g) : (d.onRT n g).keep = d.keep := rfl
@[simp] theorem Dev.onRT_link (n : Nat) (g) : (d.onRT n g).link = d.link := rfl
@[simp] theorem Dev.onRT_hw (n : Nat) (g) : (d.onRT n g).hw = d.hw := rfl
@[simp] theorem Dev.onRT_stg (n : Nat) (g) : (d.onRT n g).stg = d.stg := rfl
@[simp] theorem Dev.RT_onRT_same (n : Nat) (g) : (d.onRT n g).RT n = g (d.RT n) := KV.get_put_same _ _ _ _
theorem Dev.RT_onRT_ne {n m : Nat} (h : m ≠ n) (g) : (d.onRT n g).RT m = d.RT m := KV.get_put_ne h _ _ _
@[simp] theorem Dev.word_onRT (n : Nat) (g) (o : Nat) : (d.onRT n g).word o = d.word o := rfl
@[simp] theorem Dev.rd_onRT (n : Nat) (g) (f : Fld) : (d.onRT n g).rd f = d.rd f := rfl
@[simp] theorem Dev.E_onRT (n : Nat) (g) (m : Nat) : (d.onRT n g).E m = d.E m := rfl
@[simp] theorem Dev.B_onRT (n : Nat) (g) (m : Nat) : (d.onRT n g).B m = d.B m := rfl
@[simp] theorem Dev.R_onRT (n : Nat) (g) (m : Nat) : (d.onRT n g).R m = d.R m := rfl
@[simp] theorem Dev.P_onRT (n : Nat) (g) (m : Nat) : (d.onRT n g).P m = d.P m := rfl
@[simp] theorem Dev.IP_onRT (n : Nat) (g) (m : Nat) : (d.onRT n g).IP m = d.IP m := rfl
@[simp] theorem Dev.C_onRT (n : Nat) (g) (m : Nat) : (d.onRT n g).C m = d.C m := rfl
@[simp] theorem Dev.SQ_onRT (n : Nat) (g) (m : Nat) : (d.onRT n g).SQ m = d.SQ m := rfl
@[simp] theorem Dev.IC_onRT (n : Nat) (g) (m : Nat) : (d.onRT n g).IC m = d.IC m := rfl
@[simp] theorem Dev.SG_onRT (n : Nat) (g) (m : Nat) : (d.onRT n g).SG m = d.SG m := rfl
@[simp] theorem Dev.SL_onRT (n : Nat) (g) (m : Nat) : (d.onRT n g).SL m = d.SL m := rfl
@[simp] theorem Dev.RG_onRT (n : Nat) (g) (m : Nat) : (d.onRT n g).RG m = d.RG m := rfl
@[simp] theorem Dev.T_onRT (n : Nat) (g) (m : Nat) : (d.onRT n g).T m = d.T m := rfl
@[simp] theorem Dev.Q_onRT (n : Nat) (g) (m : Nat) : (d.onRT n g).Q m = d.Q m := rfl
@[simp] theorem Dev.V_onRT (n : Nat) (g) (m : Nat) : (d.onRT n g).V m = d.V m := rfl
@[simp] theorem Dev.W_onRT (n : Nat) (g) (m : Nat) : (d.onRT n g).W m = d.W m := rfl
@[simp] theorem Dev.K_onRT (n : Nat) (g) (m : Nat) : (d.onRT n g).K m = d.K m := rfl

/-! ## `onR` -/

@[simp] theorem Dev.onR_regs (n : Nat) (g) : (d.onR n g).regs = d.regs := rfl
@[simp] theorem Dev.onR_clk (n : Nat) (g) : (d.onR n g).clk = d.clk := rfl
@[simp] theorem Dev.onR_mode (n : Nat) (g) : (d.onR n g).mode = d.mode := rfl
@[simp] theorem Dev.onR_ent (n : Nat) (g) : (d.onR n g).ent = d.ent := rfl
@[simp] theorem Dev.onR_br (n : Nat) (g) : (d.onR n g).br = d.br := rfl
@[simp] theorem Dev.onR_retry (n : Nat) (g) : (d.onR n g).retry = d.retry := rfl
@[simp] theorem Dev.onR_ph (n : Nat) (g) : (d.onR n g).ph = d.ph := rfl
@[simp] theorem Dev.onR_port (n : Nat) (g) : (d.onR n g).port = d.port := rfl
@[simp] theorem Dev.onR_conv (n : Nat) (g) : (d.onR n g).conv = d.conv := rfl
@[simp] theorem Dev.onR_scv (n : Nat) (g) : (d.onR n g).scv = d.scv := rfl
@[simp] theorem Dev.onR_icv (n : Nat) (g) : (d.onR n g).icv = d.icv := rfl
@[simp] theorem Dev.onR_sage (n : Nat) (g) : (d.onR n g).sage = d.sage := rfl
@[simp] theorem Dev.onR_slot (n : Nat) (g) : (d.onR n g).slot = d.slot := rfl
@[simp] theorem Dev.onR_ring (n : Nat) (g) : (d.onR n g).ring = d.ring := rfl
@[simp] theorem Dev.onR_thr (n : Nat) (g) : (d.onR n g).thr = d.thr := rfl
@[simp] theorem Dev.onR_rq (n : Nat) (g) : (d.onR n g).rq = d.rq := rfl
@[simp] theorem Dev.onR_rqHi (n : Nat) (g) : (d.onR n g).rqHi = d.rqHi := rfl
@[simp] theorem Dev.onR_rqHead (n : Nat) (g) : (d.onR n g).rqHead = d.rqHead := rfl
@[simp] theorem Dev.onR_host (n : Nat) (g) : (d.onR n g).host = d.host := rfl
@[simp] theorem Dev.onR_vc (n : Nat) (g) : (d.onR n g).vc = d.vc := rfl
@[simp] theorem Dev.onR_stream (n : Nat) (g) : (d.onR n g).stream = d.stream := rfl
@[simp] theorem Dev.onR_tw (n : Nat) (g) : (d.onR n g).tw = d.tw := rfl
@[simp] theorem Dev.onR_bmc (n : Nat) (g) : (d.onR n g).bmc = d.bmc := rfl
@[simp] theorem Dev.onR_core (n : Nat) (g) : (d.onR n g).core = d.core := rfl
@[simp] theorem Dev.onR_mem (n : Nat) (g) : (d.onR n g).mem = d.mem := rfl
@[simp] theorem Dev.onR_flt (n : Nat) (g) : (d.onR n g).flt = d.flt := rfl
@[simp] theorem Dev.onR_keep (n : Nat) (g) : (d.onR n g).keep = d.keep := rfl
@[simp] theorem Dev.onR_link (n : Nat) (g) : (d.onR n g).link = d.link := rfl
@[simp] theorem Dev.onR_hw (n : Nat) (g) : (d.onR n g).hw = d.hw := rfl
@[simp] theorem Dev.onR_stg (n : Nat) (g) : (d.onR n g).stg = d.stg := rfl
@[simp] theorem Dev.R_onR_same (n : Nat) (g) : (d.onR n g).R n = g (d.R n) := KV.get_put_same _ _ _ _
theorem Dev.R_onR_ne {n m : Nat} (h : m ≠ n) (g) : (d.onR n g).R m = d.R m := KV.get_put_ne h _ _ _
@[simp] theorem Dev.word_onR (n : Nat) (g) (o : Nat) : (d.onR n g).word o = d.word o := rfl
@[simp] theorem Dev.rd_onR (n : Nat) (g) (f : Fld) : (d.onR n g).rd f = d.rd f := rfl
@[simp] theorem Dev.E_onR (n : Nat) (g) (m : Nat) : (d.onR n g).E m = d.E m := rfl
@[simp] theorem Dev.B_onR (n : Nat) (g) (m : Nat) : (d.onR n g).B m = d.B m := rfl
@[simp] theorem Dev.RT_onR (n : Nat) (g) (m : Nat) : (d.onR n g).RT m = d.RT m := rfl
@[simp] theorem Dev.P_onR (n : Nat) (g) (m : Nat) : (d.onR n g).P m = d.P m := rfl
@[simp] theorem Dev.IP_onR (n : Nat) (g) (m : Nat) : (d.onR n g).IP m = d.IP m := rfl
@[simp] theorem Dev.C_onR (n : Nat) (g) (m : Nat) : (d.onR n g).C m = d.C m := rfl
@[simp] theorem Dev.SQ_onR (n : Nat) (g) (m : Nat) : (d.onR n g).SQ m = d.SQ m := rfl
@[simp] theorem Dev.IC_onR (n : Nat) (g) (m : Nat) : (d.onR n g).IC m = d.IC m := rfl
@[simp] theorem Dev.SG_onR (n : Nat) (g) (m : Nat) : (d.onR n g).SG m = d.SG m := rfl
@[simp] theorem Dev.SL_onR (n : Nat) (g) (m : Nat) : (d.onR n g).SL m = d.SL m := rfl
@[simp] theorem Dev.RG_onR (n : Nat) (g) (m : Nat) : (d.onR n g).RG m = d.RG m := rfl
@[simp] theorem Dev.T_onR (n : Nat) (g) (m : Nat) : (d.onR n g).T m = d.T m := rfl
@[simp] theorem Dev.Q_onR (n : Nat) (g) (m : Nat) : (d.onR n g).Q m = d.Q m := rfl
@[simp] theorem Dev.V_onR (n : Nat) (g) (m : Nat) : (d.onR n g).V m = d.V m := rfl
@[simp] theorem Dev.W_onR (n : Nat) (g) (m : Nat) : (d.onR n g).W m = d.W m := rfl
@[simp] theorem Dev.K_onR (n : Nat) (g) (m : Nat) : (d.onR n g).K m = d.K m := rfl

/-! ## `onP` -/

@[simp] theorem Dev.onP_regs (n : Nat) (g) : (d.onP n g).regs = d.regs := rfl
@[simp] theorem Dev.onP_clk (n : Nat) (g) : (d.onP n g).clk = d.clk := rfl
@[simp] theorem Dev.onP_mode (n : Nat) (g) : (d.onP n g).mode = d.mode := rfl
@[simp] theorem Dev.onP_ent (n : Nat) (g) : (d.onP n g).ent = d.ent := rfl
@[simp] theorem Dev.onP_br (n : Nat) (g) : (d.onP n g).br = d.br := rfl
@[simp] theorem Dev.onP_retry (n : Nat) (g) : (d.onP n g).retry = d.retry := rfl
@[simp] theorem Dev.onP_rail (n : Nat) (g) : (d.onP n g).rail = d.rail := rfl
@[simp] theorem Dev.onP_port (n : Nat) (g) : (d.onP n g).port = d.port := rfl
@[simp] theorem Dev.onP_conv (n : Nat) (g) : (d.onP n g).conv = d.conv := rfl
@[simp] theorem Dev.onP_scv (n : Nat) (g) : (d.onP n g).scv = d.scv := rfl
@[simp] theorem Dev.onP_icv (n : Nat) (g) : (d.onP n g).icv = d.icv := rfl
@[simp] theorem Dev.onP_sage (n : Nat) (g) : (d.onP n g).sage = d.sage := rfl
@[simp] theorem Dev.onP_slot (n : Nat) (g) : (d.onP n g).slot = d.slot := rfl
@[simp] theorem Dev.onP_ring (n : Nat) (g) : (d.onP n g).ring = d.ring := rfl
@[simp] theorem Dev.onP_thr (n : Nat) (g) : (d.onP n g).thr = d.thr := rfl
@[simp] theorem Dev.onP_rq (n : Nat) (g) : (d.onP n g).rq = d.rq := rfl
@[simp] theorem Dev.onP_rqHi (n : Nat) (g) : (d.onP n g).rqHi = d.rqHi := rfl
@[simp] theorem Dev.onP_rqHead (n : Nat) (g) : (d.onP n g).rqHead = d.rqHead := rfl
@[simp] theorem Dev.onP_host (n : Nat) (g) : (d.onP n g).host = d.host := rfl
@[simp] theorem Dev.onP_vc (n : Nat) (g) : (d.onP n g).vc = d.vc := rfl
@[simp] theorem Dev.onP_stream (n : Nat) (g) : (d.onP n g).stream = d.stream := rfl
@[simp] theorem Dev.onP_tw (n : Nat) (g) : (d.onP n g).tw = d.tw := rfl
@[simp] theorem Dev.onP_bmc (n : Nat) (g) : (d.onP n g).bmc = d.bmc := rfl
@[simp] theorem Dev.onP_core (n : Nat) (g) : (d.onP n g).core = d.core := rfl
@[simp] theorem Dev.onP_mem (n : Nat) (g) : (d.onP n g).mem = d.mem := rfl
@[simp] theorem Dev.onP_flt (n : Nat) (g) : (d.onP n g).flt = d.flt := rfl
@[simp] theorem Dev.onP_keep (n : Nat) (g) : (d.onP n g).keep = d.keep := rfl
@[simp] theorem Dev.onP_link (n : Nat) (g) : (d.onP n g).link = d.link := rfl
@[simp] theorem Dev.onP_hw (n : Nat) (g) : (d.onP n g).hw = d.hw := rfl
@[simp] theorem Dev.onP_stg (n : Nat) (g) : (d.onP n g).stg = d.stg := rfl
@[simp] theorem Dev.P_onP_same (n : Nat) (g) : (d.onP n g).P n = g (d.P n) := KV.get_put_same _ _ _ _
theorem Dev.P_onP_ne {n m : Nat} (h : m ≠ n) (g) : (d.onP n g).P m = d.P m := KV.get_put_ne h _ _ _
@[simp] theorem Dev.word_onP (n : Nat) (g) (o : Nat) : (d.onP n g).word o = d.word o := rfl
@[simp] theorem Dev.rd_onP (n : Nat) (g) (f : Fld) : (d.onP n g).rd f = d.rd f := rfl
@[simp] theorem Dev.E_onP (n : Nat) (g) (m : Nat) : (d.onP n g).E m = d.E m := rfl
@[simp] theorem Dev.B_onP (n : Nat) (g) (m : Nat) : (d.onP n g).B m = d.B m := rfl
@[simp] theorem Dev.RT_onP (n : Nat) (g) (m : Nat) : (d.onP n g).RT m = d.RT m := rfl
@[simp] theorem Dev.R_onP (n : Nat) (g) (m : Nat) : (d.onP n g).R m = d.R m := rfl
@[simp] theorem Dev.IP_onP (n : Nat) (g) (m : Nat) : (d.onP n g).IP m = d.IP m := rfl
@[simp] theorem Dev.C_onP (n : Nat) (g) (m : Nat) : (d.onP n g).C m = d.C m := rfl
@[simp] theorem Dev.SQ_onP (n : Nat) (g) (m : Nat) : (d.onP n g).SQ m = d.SQ m := rfl
@[simp] theorem Dev.IC_onP (n : Nat) (g) (m : Nat) : (d.onP n g).IC m = d.IC m := rfl
@[simp] theorem Dev.SG_onP (n : Nat) (g) (m : Nat) : (d.onP n g).SG m = d.SG m := rfl
@[simp] theorem Dev.SL_onP (n : Nat) (g) (m : Nat) : (d.onP n g).SL m = d.SL m := rfl
@[simp] theorem Dev.RG_onP (n : Nat) (g) (m : Nat) : (d.onP n g).RG m = d.RG m := rfl
@[simp] theorem Dev.T_onP (n : Nat) (g) (m : Nat) : (d.onP n g).T m = d.T m := rfl
@[simp] theorem Dev.Q_onP (n : Nat) (g) (m : Nat) : (d.onP n g).Q m = d.Q m := rfl
@[simp] theorem Dev.V_onP (n : Nat) (g) (m : Nat) : (d.onP n g).V m = d.V m := rfl
@[simp] theorem Dev.W_onP (n : Nat) (g) (m : Nat) : (d.onP n g).W m = d.W m := rfl
@[simp] theorem Dev.K_onP (n : Nat) (g) (m : Nat) : (d.onP n g).K m = d.K m := rfl

/-! ## `onIP` -/

@[simp] theorem Dev.onIP_regs (n : Nat) (g) : (d.onIP n g).regs = d.regs := rfl
@[simp] theorem Dev.onIP_clk (n : Nat) (g) : (d.onIP n g).clk = d.clk := rfl
@[simp] theorem Dev.onIP_mode (n : Nat) (g) : (d.onIP n g).mode = d.mode := rfl
@[simp] theorem Dev.onIP_ent (n : Nat) (g) : (d.onIP n g).ent = d.ent := rfl
@[simp] theorem Dev.onIP_br (n : Nat) (g) : (d.onIP n g).br = d.br := rfl
@[simp] theorem Dev.onIP_retry (n : Nat) (g) : (d.onIP n g).retry = d.retry := rfl
@[simp] theorem Dev.onIP_rail (n : Nat) (g) : (d.onIP n g).rail = d.rail := rfl
@[simp] theorem Dev.onIP_ph (n : Nat) (g) : (d.onIP n g).ph = d.ph := rfl
@[simp] theorem Dev.onIP_conv (n : Nat) (g) : (d.onIP n g).conv = d.conv := rfl
@[simp] theorem Dev.onIP_scv (n : Nat) (g) : (d.onIP n g).scv = d.scv := rfl
@[simp] theorem Dev.onIP_icv (n : Nat) (g) : (d.onIP n g).icv = d.icv := rfl
@[simp] theorem Dev.onIP_sage (n : Nat) (g) : (d.onIP n g).sage = d.sage := rfl
@[simp] theorem Dev.onIP_slot (n : Nat) (g) : (d.onIP n g).slot = d.slot := rfl
@[simp] theorem Dev.onIP_ring (n : Nat) (g) : (d.onIP n g).ring = d.ring := rfl
@[simp] theorem Dev.onIP_thr (n : Nat) (g) : (d.onIP n g).thr = d.thr := rfl
@[simp] theorem Dev.onIP_rq (n : Nat) (g) : (d.onIP n g).rq = d.rq := rfl
@[simp] theorem Dev.onIP_rqHi (n : Nat) (g) : (d.onIP n g).rqHi = d.rqHi := rfl
@[simp] theorem Dev.onIP_rqHead (n : Nat) (g) : (d.onIP n g).rqHead = d.rqHead := rfl
@[simp] theorem Dev.onIP_host (n : Nat) (g) : (d.onIP n g).host = d.host := rfl
@[simp] theorem Dev.onIP_vc (n : Nat) (g) : (d.onIP n g).vc = d.vc := rfl
@[simp] theorem Dev.onIP_stream (n : Nat) (g) : (d.onIP n g).stream = d.stream := rfl
@[simp] theorem Dev.onIP_tw (n : Nat) (g) : (d.onIP n g).tw = d.tw := rfl
@[simp] theorem Dev.onIP_bmc (n : Nat) (g) : (d.onIP n g).bmc = d.bmc := rfl
@[simp] theorem Dev.onIP_core (n : Nat) (g) : (d.onIP n g).core = d.core := rfl
@[simp] theorem Dev.onIP_mem (n : Nat) (g) : (d.onIP n g).mem = d.mem := rfl
@[simp] theorem Dev.onIP_flt (n : Nat) (g) : (d.onIP n g).flt = d.flt := rfl
@[simp] theorem Dev.onIP_keep (n : Nat) (g) : (d.onIP n g).keep = d.keep := rfl
@[simp] theorem Dev.onIP_link (n : Nat) (g) : (d.onIP n g).link = d.link := rfl
@[simp] theorem Dev.onIP_hw (n : Nat) (g) : (d.onIP n g).hw = d.hw := rfl
@[simp] theorem Dev.onIP_stg (n : Nat) (g) : (d.onIP n g).stg = d.stg := rfl
@[simp] theorem Dev.IP_onIP_same (n : Nat) (g) : (d.onIP n g).IP n = g (d.IP n) := KV.get_put_same _ _ _ _
theorem Dev.IP_onIP_ne {n m : Nat} (h : m ≠ n) (g) : (d.onIP n g).IP m = d.IP m := KV.get_put_ne h _ _ _
@[simp] theorem Dev.word_onIP (n : Nat) (g) (o : Nat) : (d.onIP n g).word o = d.word o := rfl
@[simp] theorem Dev.rd_onIP (n : Nat) (g) (f : Fld) : (d.onIP n g).rd f = d.rd f := rfl
@[simp] theorem Dev.E_onIP (n : Nat) (g) (m : Nat) : (d.onIP n g).E m = d.E m := rfl
@[simp] theorem Dev.B_onIP (n : Nat) (g) (m : Nat) : (d.onIP n g).B m = d.B m := rfl
@[simp] theorem Dev.RT_onIP (n : Nat) (g) (m : Nat) : (d.onIP n g).RT m = d.RT m := rfl
@[simp] theorem Dev.R_onIP (n : Nat) (g) (m : Nat) : (d.onIP n g).R m = d.R m := rfl
@[simp] theorem Dev.P_onIP (n : Nat) (g) (m : Nat) : (d.onIP n g).P m = d.P m := rfl
@[simp] theorem Dev.C_onIP (n : Nat) (g) (m : Nat) : (d.onIP n g).C m = d.C m := rfl
@[simp] theorem Dev.SQ_onIP (n : Nat) (g) (m : Nat) : (d.onIP n g).SQ m = d.SQ m := rfl
@[simp] theorem Dev.IC_onIP (n : Nat) (g) (m : Nat) : (d.onIP n g).IC m = d.IC m := rfl
@[simp] theorem Dev.SG_onIP (n : Nat) (g) (m : Nat) : (d.onIP n g).SG m = d.SG m := rfl
@[simp] theorem Dev.SL_onIP (n : Nat) (g) (m : Nat) : (d.onIP n g).SL m = d.SL m := rfl
@[simp] theorem Dev.RG_onIP (n : Nat) (g) (m : Nat) : (d.onIP n g).RG m = d.RG m := rfl
@[simp] theorem Dev.T_onIP (n : Nat) (g) (m : Nat) : (d.onIP n g).T m = d.T m := rfl
@[simp] theorem Dev.Q_onIP (n : Nat) (g) (m : Nat) : (d.onIP n g).Q m = d.Q m := rfl
@[simp] theorem Dev.V_onIP (n : Nat) (g) (m : Nat) : (d.onIP n g).V m = d.V m := rfl
@[simp] theorem Dev.W_onIP (n : Nat) (g) (m : Nat) : (d.onIP n g).W m = d.W m := rfl
@[simp] theorem Dev.K_onIP (n : Nat) (g) (m : Nat) : (d.onIP n g).K m = d.K m := rfl

/-! ## `onC` -/

@[simp] theorem Dev.onC_regs (n : Nat) (g) : (d.onC n g).regs = d.regs := rfl
@[simp] theorem Dev.onC_clk (n : Nat) (g) : (d.onC n g).clk = d.clk := rfl
@[simp] theorem Dev.onC_mode (n : Nat) (g) : (d.onC n g).mode = d.mode := rfl
@[simp] theorem Dev.onC_ent (n : Nat) (g) : (d.onC n g).ent = d.ent := rfl
@[simp] theorem Dev.onC_br (n : Nat) (g) : (d.onC n g).br = d.br := rfl
@[simp] theorem Dev.onC_retry (n : Nat) (g) : (d.onC n g).retry = d.retry := rfl
@[simp] theorem Dev.onC_rail (n : Nat) (g) : (d.onC n g).rail = d.rail := rfl
@[simp] theorem Dev.onC_ph (n : Nat) (g) : (d.onC n g).ph = d.ph := rfl
@[simp] theorem Dev.onC_port (n : Nat) (g) : (d.onC n g).port = d.port := rfl
@[simp] theorem Dev.onC_scv (n : Nat) (g) : (d.onC n g).scv = d.scv := rfl
@[simp] theorem Dev.onC_icv (n : Nat) (g) : (d.onC n g).icv = d.icv := rfl
@[simp] theorem Dev.onC_sage (n : Nat) (g) : (d.onC n g).sage = d.sage := rfl
@[simp] theorem Dev.onC_slot (n : Nat) (g) : (d.onC n g).slot = d.slot := rfl
@[simp] theorem Dev.onC_ring (n : Nat) (g) : (d.onC n g).ring = d.ring := rfl
@[simp] theorem Dev.onC_thr (n : Nat) (g) : (d.onC n g).thr = d.thr := rfl
@[simp] theorem Dev.onC_rq (n : Nat) (g) : (d.onC n g).rq = d.rq := rfl
@[simp] theorem Dev.onC_rqHi (n : Nat) (g) : (d.onC n g).rqHi = d.rqHi := rfl
@[simp] theorem Dev.onC_rqHead (n : Nat) (g) : (d.onC n g).rqHead = d.rqHead := rfl
@[simp] theorem Dev.onC_host (n : Nat) (g) : (d.onC n g).host = d.host := rfl
@[simp] theorem Dev.onC_vc (n : Nat) (g) : (d.onC n g).vc = d.vc := rfl
@[simp] theorem Dev.onC_stream (n : Nat) (g) : (d.onC n g).stream = d.stream := rfl
@[simp] theorem Dev.onC_tw (n : Nat) (g) : (d.onC n g).tw = d.tw := rfl
@[simp] theorem Dev.onC_bmc (n : Nat) (g) : (d.onC n g).bmc = d.bmc := rfl
@[simp] theorem Dev.onC_core (n : Nat) (g) : (d.onC n g).core = d.core := rfl
@[simp] theorem Dev.onC_mem (n : Nat) (g) : (d.onC n g).mem = d.mem := rfl
@[simp] theorem Dev.onC_flt (n : Nat) (g) : (d.onC n g).flt = d.flt := rfl
@[simp] theorem Dev.onC_keep (n : Nat) (g) : (d.onC n g).keep = d.keep := rfl
@[simp] theorem Dev.onC_link (n : Nat) (g) : (d.onC n g).link = d.link := rfl
@[simp] theorem Dev.onC_hw (n : Nat) (g) : (d.onC n g).hw = d.hw := rfl
@[simp] theorem Dev.onC_stg (n : Nat) (g) : (d.onC n g).stg = d.stg := rfl
@[simp] theorem Dev.C_onC_same (n : Nat) (g) : (d.onC n g).C n = g (d.C n) := KV.get_put_same _ _ _ _
theorem Dev.C_onC_ne {n m : Nat} (h : m ≠ n) (g) : (d.onC n g).C m = d.C m := KV.get_put_ne h _ _ _
@[simp] theorem Dev.word_onC (n : Nat) (g) (o : Nat) : (d.onC n g).word o = d.word o := rfl
@[simp] theorem Dev.rd_onC (n : Nat) (g) (f : Fld) : (d.onC n g).rd f = d.rd f := rfl
@[simp] theorem Dev.E_onC (n : Nat) (g) (m : Nat) : (d.onC n g).E m = d.E m := rfl
@[simp] theorem Dev.B_onC (n : Nat) (g) (m : Nat) : (d.onC n g).B m = d.B m := rfl
@[simp] theorem Dev.RT_onC (n : Nat) (g) (m : Nat) : (d.onC n g).RT m = d.RT m := rfl
@[simp] theorem Dev.R_onC (n : Nat) (g) (m : Nat) : (d.onC n g).R m = d.R m := rfl
@[simp] theorem Dev.P_onC (n : Nat) (g) (m : Nat) : (d.onC n g).P m = d.P m := rfl
@[simp] theorem Dev.IP_onC (n : Nat) (g) (m : Nat) : (d.onC n g).IP m = d.IP m := rfl
@[simp] theorem Dev.SQ_onC (n : Nat) (g) (m : Nat) : (d.onC n g).SQ m = d.SQ m := rfl
@[simp] theorem Dev.IC_onC (n : Nat) (g) (m : Nat) : (d.onC n g).IC m = d.IC m := rfl
@[simp] theorem Dev.SG_onC (n : Nat) (g) (m : Nat) : (d.onC n g).SG m = d.SG m := rfl
@[simp] theorem Dev.SL_onC (n : Nat) (g) (m : Nat) : (d.onC n g).SL m = d.SL m := rfl
@[simp] theorem Dev.RG_onC (n : Nat) (g) (m : Nat) : (d.onC n g).RG m = d.RG m := rfl
@[simp] theorem Dev.T_onC (n : Nat) (g) (m : Nat) : (d.onC n g).T m = d.T m := rfl
@[simp] theorem Dev.Q_onC (n : Nat) (g) (m : Nat) : (d.onC n g).Q m = d.Q m := rfl
@[simp] theorem Dev.V_onC (n : Nat) (g) (m : Nat) : (d.onC n g).V m = d.V m := rfl
@[simp] theorem Dev.W_onC (n : Nat) (g) (m : Nat) : (d.onC n g).W m = d.W m := rfl
@[simp] theorem Dev.K_onC (n : Nat) (g) (m : Nat) : (d.onC n g).K m = d.K m := rfl

/-! ## `onSQ` -/

@[simp] theorem Dev.onSQ_regs (n : Nat) (g) : (d.onSQ n g).regs = d.regs := rfl
@[simp] theorem Dev.onSQ_clk (n : Nat) (g) : (d.onSQ n g).clk = d.clk := rfl
@[simp] theorem Dev.onSQ_mode (n : Nat) (g) : (d.onSQ n g).mode = d.mode := rfl
@[simp] theorem Dev.onSQ_ent (n : Nat) (g) : (d.onSQ n g).ent = d.ent := rfl
@[simp] theorem Dev.onSQ_br (n : Nat) (g) : (d.onSQ n g).br = d.br := rfl
@[simp] theorem Dev.onSQ_retry (n : Nat) (g) : (d.onSQ n g).retry = d.retry := rfl
@[simp] theorem Dev.onSQ_rail (n : Nat) (g) : (d.onSQ n g).rail = d.rail := rfl
@[simp] theorem Dev.onSQ_ph (n : Nat) (g) : (d.onSQ n g).ph = d.ph := rfl
@[simp] theorem Dev.onSQ_port (n : Nat) (g) : (d.onSQ n g).port = d.port := rfl
@[simp] theorem Dev.onSQ_conv (n : Nat) (g) : (d.onSQ n g).conv = d.conv := rfl
@[simp] theorem Dev.onSQ_icv (n : Nat) (g) : (d.onSQ n g).icv = d.icv := rfl
@[simp] theorem Dev.onSQ_sage (n : Nat) (g) : (d.onSQ n g).sage = d.sage := rfl
@[simp] theorem Dev.onSQ_slot (n : Nat) (g) : (d.onSQ n g).slot = d.slot := rfl
@[simp] theorem Dev.onSQ_ring (n : Nat) (g) : (d.onSQ n g).ring = d.ring := rfl
@[simp] theorem Dev.onSQ_thr (n : Nat) (g) : (d.onSQ n g).thr = d.thr := rfl
@[simp] theorem Dev.onSQ_rq (n : Nat) (g) : (d.onSQ n g).rq = d.rq := rfl
@[simp] theorem Dev.onSQ_rqHi (n : Nat) (g) : (d.onSQ n g).rqHi = d.rqHi := rfl
@[simp] theorem Dev.onSQ_rqHead (n : Nat) (g) : (d.onSQ n g).rqHead = d.rqHead := rfl
@[simp] theorem Dev.onSQ_host (n : Nat) (g) : (d.onSQ n g).host = d.host := rfl
@[simp] theorem Dev.onSQ_vc (n : Nat) (g) : (d.onSQ n g).vc = d.vc := rfl
@[simp] theorem Dev.onSQ_stream (n : Nat) (g) : (d.onSQ n g).stream = d.stream := rfl
@[simp] theorem Dev.onSQ_tw (n : Nat) (g) : (d.onSQ n g).tw = d.tw := rfl
@[simp] theorem Dev.onSQ_bmc (n : Nat) (g) : (d.onSQ n g).bmc = d.bmc := rfl
@[simp] theorem Dev.onSQ_core (n : Nat) (g) : (d.onSQ n g).core = d.core := rfl
@[simp] theorem Dev.onSQ_mem (n : Nat) (g) : (d.onSQ n g).mem = d.mem := rfl
@[simp] theorem Dev.onSQ_flt (n : Nat) (g) : (d.onSQ n g).flt = d.flt := rfl
@[simp] theorem Dev.onSQ_keep (n : Nat) (g) : (d.onSQ n g).keep = d.keep := rfl
@[simp] theorem Dev.onSQ_link (n : Nat) (g) : (d.onSQ n g).link = d.link := rfl
@[simp] theorem Dev.onSQ_hw (n : Nat) (g) : (d.onSQ n g).hw = d.hw := rfl
@[simp] theorem Dev.onSQ_stg (n : Nat) (g) : (d.onSQ n g).stg = d.stg := rfl
@[simp] theorem Dev.SQ_onSQ_same (n : Nat) (g) : (d.onSQ n g).SQ n = g (d.SQ n) := KV.get_put_same _ _ _ _
theorem Dev.SQ_onSQ_ne {n m : Nat} (h : m ≠ n) (g) : (d.onSQ n g).SQ m = d.SQ m := KV.get_put_ne h _ _ _
@[simp] theorem Dev.word_onSQ (n : Nat) (g) (o : Nat) : (d.onSQ n g).word o = d.word o := rfl
@[simp] theorem Dev.rd_onSQ (n : Nat) (g) (f : Fld) : (d.onSQ n g).rd f = d.rd f := rfl
@[simp] theorem Dev.E_onSQ (n : Nat) (g) (m : Nat) : (d.onSQ n g).E m = d.E m := rfl
@[simp] theorem Dev.B_onSQ (n : Nat) (g) (m : Nat) : (d.onSQ n g).B m = d.B m := rfl
@[simp] theorem Dev.RT_onSQ (n : Nat) (g) (m : Nat) : (d.onSQ n g).RT m = d.RT m := rfl
@[simp] theorem Dev.R_onSQ (n : Nat) (g) (m : Nat) : (d.onSQ n g).R m = d.R m := rfl
@[simp] theorem Dev.P_onSQ (n : Nat) (g) (m : Nat) : (d.onSQ n g).P m = d.P m := rfl
@[simp] theorem Dev.IP_onSQ (n : Nat) (g) (m : Nat) : (d.onSQ n g).IP m = d.IP m := rfl
@[simp] theorem Dev.C_onSQ (n : Nat) (g) (m : Nat) : (d.onSQ n g).C m = d.C m := rfl
@[simp] theorem Dev.IC_onSQ (n : Nat) (g) (m : Nat) : (d.onSQ n g).IC m = d.IC m := rfl
@[simp] theorem Dev.SG_onSQ (n : Nat) (g) (m : Nat) : (d.onSQ n g).SG m = d.SG m := rfl
@[simp] theorem Dev.SL_onSQ (n : Nat) (g) (m : Nat) : (d.onSQ n g).SL m = d.SL m := rfl
@[simp] theorem Dev.RG_onSQ (n : Nat) (g) (m : Nat) : (d.onSQ n g).RG m = d.RG m := rfl
@[simp] theorem Dev.T_onSQ (n : Nat) (g) (m : Nat) : (d.onSQ n g).T m = d.T m := rfl
@[simp] theorem Dev.Q_onSQ (n : Nat) (g) (m : Nat) : (d.onSQ n g).Q m = d.Q m := rfl
@[simp] theorem Dev.V_onSQ (n : Nat) (g) (m : Nat) : (d.onSQ n g).V m = d.V m := rfl
@[simp] theorem Dev.W_onSQ (n : Nat) (g) (m : Nat) : (d.onSQ n g).W m = d.W m := rfl
@[simp] theorem Dev.K_onSQ (n : Nat) (g) (m : Nat) : (d.onSQ n g).K m = d.K m := rfl

/-! ## `onIC` -/

@[simp] theorem Dev.onIC_regs (n : Nat) (g) : (d.onIC n g).regs = d.regs := rfl
@[simp] theorem Dev.onIC_clk (n : Nat) (g) : (d.onIC n g).clk = d.clk := rfl
@[simp] theorem Dev.onIC_mode (n : Nat) (g) : (d.onIC n g).mode = d.mode := rfl
@[simp] theorem Dev.onIC_ent (n : Nat) (g) : (d.onIC n g).ent = d.ent := rfl
@[simp] theorem Dev.onIC_br (n : Nat) (g) : (d.onIC n g).br = d.br := rfl
@[simp] theorem Dev.onIC_retry (n : Nat) (g) : (d.onIC n g).retry = d.retry := rfl
@[simp] theorem Dev.onIC_rail (n : Nat) (g) : (d.onIC n g).rail = d.rail := rfl
@[simp] theorem Dev.onIC_ph (n : Nat) (g) : (d.onIC n g).ph = d.ph := rfl
@[simp] theorem Dev.onIC_port (n : Nat) (g) : (d.onIC n g).port = d.port := rfl
@[simp] theorem Dev.onIC_conv (n : Nat) (g) : (d.onIC n g).conv = d.conv := rfl
@[simp] theorem Dev.onIC_scv (n : Nat) (g) : (d.onIC n g).scv = d.scv := rfl
@[simp] theorem Dev.onIC_sage (n : Nat) (g) : (d.onIC n g).sage = d.sage := rfl
@[simp] theorem Dev.onIC_slot (n : Nat) (g) : (d.onIC n g).slot = d.slot := rfl
@[simp] theorem Dev.onIC_ring (n : Nat) (g) : (d.onIC n g).ring = d.ring := rfl
@[simp] theorem Dev.onIC_thr (n : Nat) (g) : (d.onIC n g).thr = d.thr := rfl
@[simp] theorem Dev.onIC_rq (n : Nat) (g) : (d.onIC n g).rq = d.rq := rfl
@[simp] theorem Dev.onIC_rqHi (n : Nat) (g) : (d.onIC n g).rqHi = d.rqHi := rfl
@[simp] theorem Dev.onIC_rqHead (n : Nat) (g) : (d.onIC n g).rqHead = d.rqHead := rfl
@[simp] theorem Dev.onIC_host (n : Nat) (g) : (d.onIC n g).host = d.host := rfl
@[simp] theorem Dev.onIC_vc (n : Nat) (g) : (d.onIC n g).vc = d.vc := rfl
@[simp] theorem Dev.onIC_stream (n : Nat) (g) : (d.onIC n g).stream = d.stream := rfl
@[simp] theorem Dev.onIC_tw (n : Nat) (g) : (d.onIC n g).tw = d.tw := rfl
@[simp] theorem Dev.onIC_bmc (n : Nat) (g) : (d.onIC n g).bmc = d.bmc := rfl
@[simp] theorem Dev.onIC_core (n : Nat) (g) : (d.onIC n g).core = d.core := rfl
@[simp] theorem Dev.onIC_mem (n : Nat) (g) : (d.onIC n g).mem = d.mem := rfl
@[simp] theorem Dev.onIC_flt (n : Nat) (g) : (d.onIC n g).flt = d.flt := rfl
@[simp] theorem Dev.onIC_keep (n : Nat) (g) : (d.onIC n g).keep = d.keep := rfl
@[simp] theorem Dev.onIC_link (n : Nat) (g) : (d.onIC n g).link = d.link := rfl
@[simp] theorem Dev.onIC_hw (n : Nat) (g) : (d.onIC n g).hw = d.hw := rfl
@[simp] theorem Dev.onIC_stg (n : Nat) (g) : (d.onIC n g).stg = d.stg := rfl
@[simp] theorem Dev.IC_onIC_same (n : Nat) (g) : (d.onIC n g).IC n = g (d.IC n) := KV.get_put_same _ _ _ _
theorem Dev.IC_onIC_ne {n m : Nat} (h : m ≠ n) (g) : (d.onIC n g).IC m = d.IC m := KV.get_put_ne h _ _ _
@[simp] theorem Dev.word_onIC (n : Nat) (g) (o : Nat) : (d.onIC n g).word o = d.word o := rfl
@[simp] theorem Dev.rd_onIC (n : Nat) (g) (f : Fld) : (d.onIC n g).rd f = d.rd f := rfl
@[simp] theorem Dev.E_onIC (n : Nat) (g) (m : Nat) : (d.onIC n g).E m = d.E m := rfl
@[simp] theorem Dev.B_onIC (n : Nat) (g) (m : Nat) : (d.onIC n g).B m = d.B m := rfl
@[simp] theorem Dev.RT_onIC (n : Nat) (g) (m : Nat) : (d.onIC n g).RT m = d.RT m := rfl
@[simp] theorem Dev.R_onIC (n : Nat) (g) (m : Nat) : (d.onIC n g).R m = d.R m := rfl
@[simp] theorem Dev.P_onIC (n : Nat) (g) (m : Nat) : (d.onIC n g).P m = d.P m := rfl
@[simp] theorem Dev.IP_onIC (n : Nat) (g) (m : Nat) : (d.onIC n g).IP m = d.IP m := rfl
@[simp] theorem Dev.C_onIC (n : Nat) (g) (m : Nat) : (d.onIC n g).C m = d.C m := rfl
@[simp] theorem Dev.SQ_onIC (n : Nat) (g) (m : Nat) : (d.onIC n g).SQ m = d.SQ m := rfl
@[simp] theorem Dev.SG_onIC (n : Nat) (g) (m : Nat) : (d.onIC n g).SG m = d.SG m := rfl
@[simp] theorem Dev.SL_onIC (n : Nat) (g) (m : Nat) : (d.onIC n g).SL m = d.SL m := rfl
@[simp] theorem Dev.RG_onIC (n : Nat) (g) (m : Nat) : (d.onIC n g).RG m = d.RG m := rfl
@[simp] theorem Dev.T_onIC (n : Nat) (g) (m : Nat) : (d.onIC n g).T m = d.T m := rfl
@[simp] theorem Dev.Q_onIC (n : Nat) (g) (m : Nat) : (d.onIC n g).Q m = d.Q m := rfl
@[simp] theorem Dev.V_onIC (n : Nat) (g) (m : Nat) : (d.onIC n g).V m = d.V m := rfl
@[simp] theorem Dev.W_onIC (n : Nat) (g) (m : Nat) : (d.onIC n g).W m = d.W m := rfl
@[simp] theorem Dev.K_onIC (n : Nat) (g) (m : Nat) : (d.onIC n g).K m = d.K m := rfl

/-! ## `onSG` -/

@[simp] theorem Dev.onSG_regs (n : Nat) (g) : (d.onSG n g).regs = d.regs := rfl
@[simp] theorem Dev.onSG_clk (n : Nat) (g) : (d.onSG n g).clk = d.clk := rfl
@[simp] theorem Dev.onSG_mode (n : Nat) (g) : (d.onSG n g).mode = d.mode := rfl
@[simp] theorem Dev.onSG_ent (n : Nat) (g) : (d.onSG n g).ent = d.ent := rfl
@[simp] theorem Dev.onSG_br (n : Nat) (g) : (d.onSG n g).br = d.br := rfl
@[simp] theorem Dev.onSG_retry (n : Nat) (g) : (d.onSG n g).retry = d.retry := rfl
@[simp] theorem Dev.onSG_rail (n : Nat) (g) : (d.onSG n g).rail = d.rail := rfl
@[simp] theorem Dev.onSG_ph (n : Nat) (g) : (d.onSG n g).ph = d.ph := rfl
@[simp] theorem Dev.onSG_port (n : Nat) (g) : (d.onSG n g).port = d.port := rfl
@[simp] theorem Dev.onSG_conv (n : Nat) (g) : (d.onSG n g).conv = d.conv := rfl
@[simp] theorem Dev.onSG_scv (n : Nat) (g) : (d.onSG n g).scv = d.scv := rfl
@[simp] theorem Dev.onSG_icv (n : Nat) (g) : (d.onSG n g).icv = d.icv := rfl
@[simp] theorem Dev.onSG_slot (n : Nat) (g) : (d.onSG n g).slot = d.slot := rfl
@[simp] theorem Dev.onSG_ring (n : Nat) (g) : (d.onSG n g).ring = d.ring := rfl
@[simp] theorem Dev.onSG_thr (n : Nat) (g) : (d.onSG n g).thr = d.thr := rfl
@[simp] theorem Dev.onSG_rq (n : Nat) (g) : (d.onSG n g).rq = d.rq := rfl
@[simp] theorem Dev.onSG_rqHi (n : Nat) (g) : (d.onSG n g).rqHi = d.rqHi := rfl
@[simp] theorem Dev.onSG_rqHead (n : Nat) (g) : (d.onSG n g).rqHead = d.rqHead := rfl
@[simp] theorem Dev.onSG_host (n : Nat) (g) : (d.onSG n g).host = d.host := rfl
@[simp] theorem Dev.onSG_vc (n : Nat) (g) : (d.onSG n g).vc = d.vc := rfl
@[simp] theorem Dev.onSG_stream (n : Nat) (g) : (d.onSG n g).stream = d.stream := rfl
@[simp] theorem Dev.onSG_tw (n : Nat) (g) : (d.onSG n g).tw = d.tw := rfl
@[simp] theorem Dev.onSG_bmc (n : Nat) (g) : (d.onSG n g).bmc = d.bmc := rfl
@[simp] theorem Dev.onSG_core (n : Nat) (g) : (d.onSG n g).core = d.core := rfl
@[simp] theorem Dev.onSG_mem (n : Nat) (g) : (d.onSG n g).mem = d.mem := rfl
@[simp] theorem Dev.onSG_flt (n : Nat) (g) : (d.onSG n g).flt = d.flt := rfl
@[simp] theorem Dev.onSG_keep (n : Nat) (g) : (d.onSG n g).keep = d.keep := rfl
@[simp] theorem Dev.onSG_link (n : Nat) (g) : (d.onSG n g).link = d.link := rfl
@[simp] theorem Dev.onSG_hw (n : Nat) (g) : (d.onSG n g).hw = d.hw := rfl
@[simp] theorem Dev.onSG_stg (n : Nat) (g) : (d.onSG n g).stg = d.stg := rfl
@[simp] theorem Dev.SG_onSG_same (n : Nat) (g) : (d.onSG n g).SG n = g (d.SG n) := KV.get_put_same _ _ _ _
theorem Dev.SG_onSG_ne {n m : Nat} (h : m ≠ n) (g) : (d.onSG n g).SG m = d.SG m := KV.get_put_ne h _ _ _
@[simp] theorem Dev.word_onSG (n : Nat) (g) (o : Nat) : (d.onSG n g).word o = d.word o := rfl
@[simp] theorem Dev.rd_onSG (n : Nat) (g) (f : Fld) : (d.onSG n g).rd f = d.rd f := rfl
@[simp] theorem Dev.E_onSG (n : Nat) (g) (m : Nat) : (d.onSG n g).E m = d.E m := rfl
@[simp] theorem Dev.B_onSG (n : Nat) (g) (m : Nat) : (d.onSG n g).B m = d.B m := rfl
@[simp] theorem Dev.RT_onSG (n : Nat) (g) (m : Nat) : (d.onSG n g).RT m = d.RT m := rfl
@[simp] theorem Dev.R_onSG (n : Nat) (g) (m : Nat) : (d.onSG n g).R m = d.R m := rfl
@[simp] theorem Dev.P_onSG (n : Nat) (g) (m : Nat) : (d.onSG n g).P m = d.P m := rfl
@[simp] theorem Dev.IP_onSG (n : Nat) (g) (m : Nat) : (d.onSG n g).IP m = d.IP m := rfl
@[simp] theorem Dev.C_onSG (n : Nat) (g) (m : Nat) : (d.onSG n g).C m = d.C m := rfl
@[simp] theorem Dev.SQ_onSG (n : Nat) (g) (m : Nat) : (d.onSG n g).SQ m = d.SQ m := rfl
@[simp] theorem Dev.IC_onSG (n : Nat) (g) (m : Nat) : (d.onSG n g).IC m = d.IC m := rfl
@[simp] theorem Dev.SL_onSG (n : Nat) (g) (m : Nat) : (d.onSG n g).SL m = d.SL m := rfl
@[simp] theorem Dev.RG_onSG (n : Nat) (g) (m : Nat) : (d.onSG n g).RG m = d.RG m := rfl
@[simp] theorem Dev.T_onSG (n : Nat) (g) (m : Nat) : (d.onSG n g).T m = d.T m := rfl
@[simp] theorem Dev.Q_onSG (n : Nat) (g) (m : Nat) : (d.onSG n g).Q m = d.Q m := rfl
@[simp] theorem Dev.V_onSG (n : Nat) (g) (m : Nat) : (d.onSG n g).V m = d.V m := rfl
@[simp] theorem Dev.W_onSG (n : Nat) (g) (m : Nat) : (d.onSG n g).W m = d.W m := rfl
@[simp] theorem Dev.K_onSG (n : Nat) (g) (m : Nat) : (d.onSG n g).K m = d.K m := rfl

/-! ## `onSL` -/

@[simp] theorem Dev.onSL_regs (n : Nat) (g) : (d.onSL n g).regs = d.regs := rfl
@[simp] theorem Dev.onSL_clk (n : Nat) (g) : (d.onSL n g).clk = d.clk := rfl
@[simp] theorem Dev.onSL_mode (n : Nat) (g) : (d.onSL n g).mode = d.mode := rfl
@[simp] theorem Dev.onSL_ent (n : Nat) (g) : (d.onSL n g).ent = d.ent := rfl
@[simp] theorem Dev.onSL_br (n : Nat) (g) : (d.onSL n g).br = d.br := rfl
@[simp] theorem Dev.onSL_retry (n : Nat) (g) : (d.onSL n g).retry = d.retry := rfl
@[simp] theorem Dev.onSL_rail (n : Nat) (g) : (d.onSL n g).rail = d.rail := rfl
@[simp] theorem Dev.onSL_ph (n : Nat) (g) : (d.onSL n g).ph = d.ph := rfl
@[simp] theorem Dev.onSL_port (n : Nat) (g) : (d.onSL n g).port = d.port := rfl
@[simp] theorem Dev.onSL_conv (n : Nat) (g) : (d.onSL n g).conv = d.conv := rfl
@[simp] theorem Dev.onSL_scv (n : Nat) (g) : (d.onSL n g).scv = d.scv := rfl
@[simp] theorem Dev.onSL_icv (n : Nat) (g) : (d.onSL n g).icv = d.icv := rfl
@[simp] theorem Dev.onSL_sage (n : Nat) (g) : (d.onSL n g).sage = d.sage := rfl
@[simp] theorem Dev.onSL_ring (n : Nat) (g) : (d.onSL n g).ring = d.ring := rfl
@[simp] theorem Dev.onSL_thr (n : Nat) (g) : (d.onSL n g).thr = d.thr := rfl
@[simp] theorem Dev.onSL_rq (n : Nat) (g) : (d.onSL n g).rq = d.rq := rfl
@[simp] theorem Dev.onSL_rqHi (n : Nat) (g) : (d.onSL n g).rqHi = d.rqHi := rfl
@[simp] theorem Dev.onSL_rqHead (n : Nat) (g) : (d.onSL n g).rqHead = d.rqHead := rfl
@[simp] theorem Dev.onSL_host (n : Nat) (g) : (d.onSL n g).host = d.host := rfl
@[simp] theorem Dev.onSL_vc (n : Nat) (g) : (d.onSL n g).vc = d.vc := rfl
@[simp] theorem Dev.onSL_stream (n : Nat) (g) : (d.onSL n g).stream = d.stream := rfl
@[simp] theorem Dev.onSL_tw (n : Nat) (g) : (d.onSL n g).tw = d.tw := rfl
@[simp] theorem Dev.onSL_bmc (n : Nat) (g) : (d.onSL n g).bmc = d.bmc := rfl
@[simp] theorem Dev.onSL_core (n : Nat) (g) : (d.onSL n g).core = d.core := rfl
@[simp] theorem Dev.onSL_mem (n : Nat) (g) : (d.onSL n g).mem = d.mem := rfl
@[simp] theorem Dev.onSL_flt (n : Nat) (g) : (d.onSL n g).flt = d.flt := rfl
@[simp] theorem Dev.onSL_keep (n : Nat) (g) : (d.onSL n g).keep = d.keep := rfl
@[simp] theorem Dev.onSL_link (n : Nat) (g) : (d.onSL n g).link = d.link := rfl
@[simp] theorem Dev.onSL_hw (n : Nat) (g) : (d.onSL n g).hw = d.hw := rfl
@[simp] theorem Dev.onSL_stg (n : Nat) (g) : (d.onSL n g).stg = d.stg := rfl
@[simp] theorem Dev.SL_onSL_same (n : Nat) (g) : (d.onSL n g).SL n = g (d.SL n) := KV.get_put_same _ _ _ _
theorem Dev.SL_onSL_ne {n m : Nat} (h : m ≠ n) (g) : (d.onSL n g).SL m = d.SL m := KV.get_put_ne h _ _ _
@[simp] theorem Dev.word_onSL (n : Nat) (g) (o : Nat) : (d.onSL n g).word o = d.word o := rfl
@[simp] theorem Dev.rd_onSL (n : Nat) (g) (f : Fld) : (d.onSL n g).rd f = d.rd f := rfl
@[simp] theorem Dev.E_onSL (n : Nat) (g) (m : Nat) : (d.onSL n g).E m = d.E m := rfl
@[simp] theorem Dev.B_onSL (n : Nat) (g) (m : Nat) : (d.onSL n g).B m = d.B m := rfl
@[simp] theorem Dev.RT_onSL (n : Nat) (g) (m : Nat) : (d.onSL n g).RT m = d.RT m := rfl
@[simp] theorem Dev.R_onSL (n : Nat) (g) (m : Nat) : (d.onSL n g).R m = d.R m := rfl
@[simp] theorem Dev.P_onSL (n : Nat) (g) (m : Nat) : (d.onSL n g).P m = d.P m := rfl
@[simp] theorem Dev.IP_onSL (n : Nat) (g) (m : Nat) : (d.onSL n g).IP m = d.IP m := rfl
@[simp] theorem Dev.C_onSL (n : Nat) (g) (m : Nat) : (d.onSL n g).C m = d.C m := rfl
@[simp] theorem Dev.SQ_onSL (n : Nat) (g) (m : Nat) : (d.onSL n g).SQ m = d.SQ m := rfl
@[simp] theorem Dev.IC_onSL (n : Nat) (g) (m : Nat) : (d.onSL n g).IC m = d.IC m := rfl
@[simp] theorem Dev.SG_onSL (n : Nat) (g) (m : Nat) : (d.onSL n g).SG m = d.SG m := rfl
@[simp] theorem Dev.RG_onSL (n : Nat) (g) (m : Nat) : (d.onSL n g).RG m = d.RG m := rfl
@[simp] theorem Dev.T_onSL (n : Nat) (g) (m : Nat) : (d.onSL n g).T m = d.T m := rfl
@[simp] theorem Dev.Q_onSL (n : Nat) (g) (m : Nat) : (d.onSL n g).Q m = d.Q m := rfl
@[simp] theorem Dev.V_onSL (n : Nat) (g) (m : Nat) : (d.onSL n g).V m = d.V m := rfl
@[simp] theorem Dev.W_onSL (n : Nat) (g) (m : Nat) : (d.onSL n g).W m = d.W m := rfl
@[simp] theorem Dev.K_onSL (n : Nat) (g) (m : Nat) : (d.onSL n g).K m = d.K m := rfl

/-! ## `onRG` -/

@[simp] theorem Dev.onRG_regs (n : Nat) (g) : (d.onRG n g).regs = d.regs := rfl
@[simp] theorem Dev.onRG_clk (n : Nat) (g) : (d.onRG n g).clk = d.clk := rfl
@[simp] theorem Dev.onRG_mode (n : Nat) (g) : (d.onRG n g).mode = d.mode := rfl
@[simp] theorem Dev.onRG_ent (n : Nat) (g) : (d.onRG n g).ent = d.ent := rfl
@[simp] theorem Dev.onRG_br (n : Nat) (g) : (d.onRG n g).br = d.br := rfl
@[simp] theorem Dev.onRG_retry (n : Nat) (g) : (d.onRG n g).retry = d.retry := rfl
@[simp] theorem Dev.onRG_rail (n : Nat) (g) : (d.onRG n g).rail = d.rail := rfl
@[simp] theorem Dev.onRG_ph (n : Nat) (g) : (d.onRG n g).ph = d.ph := rfl
@[simp] theorem Dev.onRG_port (n : Nat) (g) : (d.onRG n g).port = d.port := rfl
@[simp] theorem Dev.onRG_conv (n : Nat) (g) : (d.onRG n g).conv = d.conv := rfl
@[simp] theorem Dev.onRG_scv (n : Nat) (g) : (d.onRG n g).scv = d.scv := rfl
@[simp] theorem Dev.onRG_icv (n : Nat) (g) : (d.onRG n g).icv = d.icv := rfl
@[simp] theorem Dev.onRG_sage (n : Nat) (g) : (d.onRG n g).sage = d.sage := rfl
@[simp] theorem Dev.onRG_slot (n : Nat) (g) : (d.onRG n g).slot = d.slot := rfl
@[simp] theorem Dev.onRG_thr (n : Nat) (g) : (d.onRG n g).thr = d.thr := rfl
@[simp] theorem Dev.onRG_rq (n : Nat) (g) : (d.onRG n g).rq = d.rq := rfl
@[simp] theorem Dev.onRG_rqHi (n : Nat) (g) : (d.onRG n g).rqHi = d.rqHi := rfl
@[simp] theorem Dev.onRG_rqHead (n : Nat) (g) : (d.onRG n g).rqHead = d.rqHead := rfl
@[simp] theorem Dev.onRG_host (n : Nat) (g) : (d.onRG n g).host = d.host := rfl
@[simp] theorem Dev.onRG_vc (n : Nat) (g) : (d.onRG n g).vc = d.vc := rfl
@[simp] theorem Dev.onRG_stream (n : Nat) (g) : (d.onRG n g).stream = d.stream := rfl
@[simp] theorem Dev.onRG_tw (n : Nat) (g) : (d.onRG n g).tw = d.tw := rfl
@[simp] theorem Dev.onRG_bmc (n : Nat) (g) : (d.onRG n g).bmc = d.bmc := rfl
@[simp] theorem Dev.onRG_core (n : Nat) (g) : (d.onRG n g).core = d.core := rfl
@[simp] theorem Dev.onRG_mem (n : Nat) (g) : (d.onRG n g).mem = d.mem := rfl
@[simp] theorem Dev.onRG_flt (n : Nat) (g) : (d.onRG n g).flt = d.flt := rfl
@[simp] theorem Dev.onRG_keep (n : Nat) (g) : (d.onRG n g).keep = d.keep := rfl
@[simp] theorem Dev.onRG_link (n : Nat) (g) : (d.onRG n g).link = d.link := rfl
@[simp] theorem Dev.onRG_hw (n : Nat) (g) : (d.onRG n g).hw = d.hw := rfl
@[simp] theorem Dev.onRG_stg (n : Nat) (g) : (d.onRG n g).stg = d.stg := rfl
@[simp] theorem Dev.RG_onRG_same (n : Nat) (g) : (d.onRG n g).RG n = g (d.RG n) := KV.get_put_same _ _ _ _
theorem Dev.RG_onRG_ne {n m : Nat} (h : m ≠ n) (g) : (d.onRG n g).RG m = d.RG m := KV.get_put_ne h _ _ _
@[simp] theorem Dev.word_onRG (n : Nat) (g) (o : Nat) : (d.onRG n g).word o = d.word o := rfl
@[simp] theorem Dev.rd_onRG (n : Nat) (g) (f : Fld) : (d.onRG n g).rd f = d.rd f := rfl
@[simp] theorem Dev.E_onRG (n : Nat) (g) (m : Nat) : (d.onRG n g).E m = d.E m := rfl
@[simp] theorem Dev.B_onRG (n : Nat) (g) (m : Nat) : (d.onRG n g).B m = d.B m := rfl
@[simp] theorem Dev.RT_onRG (n : Nat) (g) (m : Nat) : (d.onRG n g).RT m = d.RT m := rfl
@[simp] theorem Dev.R_onRG (n : Nat) (g) (m : Nat) : (d.onRG n g).R m = d.R m := rfl
@[simp] theorem Dev.P_onRG (n : Nat) (g) (m : Nat) : (d.onRG n g).P m = d.P m := rfl
@[simp] theorem Dev.IP_onRG (n : Nat) (g) (m : Nat) : (d.onRG n g).IP m = d.IP m := rfl
@[simp] theorem Dev.C_onRG (n : Nat) (g) (m : Nat) : (d.onRG n g).C m = d.C m := rfl
@[simp] theorem Dev.SQ_onRG (n : Nat) (g) (m : Nat) : (d.onRG n g).SQ m = d.SQ m := rfl
@[simp] theorem Dev.IC_onRG (n : Nat) (g) (m : Nat) : (d.onRG n g).IC m = d.IC m := rfl
@[simp] theorem Dev.SG_onRG (n : Nat) (g) (m : Nat) : (d.onRG n g).SG m = d.SG m := rfl
@[simp] theorem Dev.SL_onRG (n : Nat) (g) (m : Nat) : (d.onRG n g).SL m = d.SL m := rfl
@[simp] theorem Dev.T_onRG (n : Nat) (g) (m : Nat) : (d.onRG n g).T m = d.T m := rfl
@[simp] theorem Dev.Q_onRG (n : Nat) (g) (m : Nat) : (d.onRG n g).Q m = d.Q m := rfl
@[simp] theorem Dev.V_onRG (n : Nat) (g) (m : Nat) : (d.onRG n g).V m = d.V m := rfl
@[simp] theorem Dev.W_onRG (n : Nat) (g) (m : Nat) : (d.onRG n g).W m = d.W m := rfl
@[simp] theorem Dev.K_onRG (n : Nat) (g) (m : Nat) : (d.onRG n g).K m = d.K m := rfl

/-! ## `onT` -/

@[simp] theorem Dev.onT_regs (n : Nat) (g) : (d.onT n g).regs = d.regs := rfl
@[simp] theorem Dev.onT_clk (n : Nat) (g) : (d.onT n g).clk = d.clk := rfl
@[simp] theorem Dev.onT_mode (n : Nat) (g) : (d.onT n g).mode = d.mode := rfl
@[simp] theorem Dev.onT_ent (n : Nat) (g) : (d.onT n g).ent = d.ent := rfl
@[simp] theorem Dev.onT_br (n : Nat) (g) : (d.onT n g).br = d.br := rfl
@[simp] theorem Dev.onT_retry (n : Nat) (g) : (d.onT n g).retry = d.retry := rfl
@[simp] theorem Dev.onT_rail (n : Nat) (g) : (d.onT n g).rail = d.rail := rfl
@[simp] theorem Dev.onT_ph (n : Nat) (g) : (d.onT n g).ph = d.ph := rfl
@[simp] theorem Dev.onT_port (n : Nat) (g) : (d.onT n g).port = d.port := rfl
@[simp] theorem Dev.onT_conv (n : Nat) (g) : (d.onT n g).conv = d.conv := rfl
@[simp] theorem Dev.onT_scv (n : Nat) (g) : (d.onT n g).scv = d.scv := rfl
@[simp] theorem Dev.onT_icv (n : Nat) (g) : (d.onT n g).icv = d.icv := rfl
@[simp] theorem Dev.onT_sage (n : Nat) (g) : (d.onT n g).sage = d.sage := rfl
@[simp] theorem Dev.onT_slot (n : Nat) (g) : (d.onT n g).slot = d.slot := rfl
@[simp] theorem Dev.onT_ring (n : Nat) (g) : (d.onT n g).ring = d.ring := rfl
@[simp] theorem Dev.onT_rq (n : Nat) (g) : (d.onT n g).rq = d.rq := rfl
@[simp] theorem Dev.onT_rqHi (n : Nat) (g) : (d.onT n g).rqHi = d.rqHi := rfl
@[simp] theorem Dev.onT_rqHead (n : Nat) (g) : (d.onT n g).rqHead = d.rqHead := rfl
@[simp] theorem Dev.onT_host (n : Nat) (g) : (d.onT n g).host = d.host := rfl
@[simp] theorem Dev.onT_vc (n : Nat) (g) : (d.onT n g).vc = d.vc := rfl
@[simp] theorem Dev.onT_stream (n : Nat) (g) : (d.onT n g).stream = d.stream := rfl
@[simp] theorem Dev.onT_tw (n : Nat) (g) : (d.onT n g).tw = d.tw := rfl
@[simp] theorem Dev.onT_bmc (n : Nat) (g) : (d.onT n g).bmc = d.bmc := rfl
@[simp] theorem Dev.onT_core (n : Nat) (g) : (d.onT n g).core = d.core := rfl
@[simp] theorem Dev.onT_mem (n : Nat) (g) : (d.onT n g).mem = d.mem := rfl
@[simp] theorem Dev.onT_flt (n : Nat) (g) : (d.onT n g).flt = d.flt := rfl
@[simp] theorem Dev.onT_keep (n : Nat) (g) : (d.onT n g).keep = d.keep := rfl
@[simp] theorem Dev.onT_link (n : Nat) (g) : (d.onT n g).link = d.link := rfl
@[simp] theorem Dev.onT_hw (n : Nat) (g) : (d.onT n g).hw = d.hw := rfl
@[simp] theorem Dev.onT_stg (n : Nat) (g) : (d.onT n g).stg = d.stg := rfl
@[simp] theorem Dev.T_onT_same (n : Nat) (g) : (d.onT n g).T n = g (d.T n) := KV.get_put_same _ _ _ _
theorem Dev.T_onT_ne {n m : Nat} (h : m ≠ n) (g) : (d.onT n g).T m = d.T m := KV.get_put_ne h _ _ _
@[simp] theorem Dev.word_onT (n : Nat) (g) (o : Nat) : (d.onT n g).word o = d.word o := rfl
@[simp] theorem Dev.rd_onT (n : Nat) (g) (f : Fld) : (d.onT n g).rd f = d.rd f := rfl
@[simp] theorem Dev.E_onT (n : Nat) (g) (m : Nat) : (d.onT n g).E m = d.E m := rfl
@[simp] theorem Dev.B_onT (n : Nat) (g) (m : Nat) : (d.onT n g).B m = d.B m := rfl
@[simp] theorem Dev.RT_onT (n : Nat) (g) (m : Nat) : (d.onT n g).RT m = d.RT m := rfl
@[simp] theorem Dev.R_onT (n : Nat) (g) (m : Nat) : (d.onT n g).R m = d.R m := rfl
@[simp] theorem Dev.P_onT (n : Nat) (g) (m : Nat) : (d.onT n g).P m = d.P m := rfl
@[simp] theorem Dev.IP_onT (n : Nat) (g) (m : Nat) : (d.onT n g).IP m = d.IP m := rfl
@[simp] theorem Dev.C_onT (n : Nat) (g) (m : Nat) : (d.onT n g).C m = d.C m := rfl
@[simp] theorem Dev.SQ_onT (n : Nat) (g) (m : Nat) : (d.onT n g).SQ m = d.SQ m := rfl
@[simp] theorem Dev.IC_onT (n : Nat) (g) (m : Nat) : (d.onT n g).IC m = d.IC m := rfl
@[simp] theorem Dev.SG_onT (n : Nat) (g) (m : Nat) : (d.onT n g).SG m = d.SG m := rfl
@[simp] theorem Dev.SL_onT (n : Nat) (g) (m : Nat) : (d.onT n g).SL m = d.SL m := rfl
@[simp] theorem Dev.RG_onT (n : Nat) (g) (m : Nat) : (d.onT n g).RG m = d.RG m := rfl
@[simp] theorem Dev.Q_onT (n : Nat) (g) (m : Nat) : (d.onT n g).Q m = d.Q m := rfl
@[simp] theorem Dev.V_onT (n : Nat) (g) (m : Nat) : (d.onT n g).V m = d.V m := rfl
@[simp] theorem Dev.W_onT (n : Nat) (g) (m : Nat) : (d.onT n g).W m = d.W m := rfl
@[simp] theorem Dev.K_onT (n : Nat) (g) (m : Nat) : (d.onT n g).K m = d.K m := rfl

/-! ## `onQ` -/

@[simp] theorem Dev.onQ_regs (n : Nat) (g) : (d.onQ n g).regs = d.regs := rfl
@[simp] theorem Dev.onQ_clk (n : Nat) (g) : (d.onQ n g).clk = d.clk := rfl
@[simp] theorem Dev.onQ_mode (n : Nat) (g) : (d.onQ n g).mode = d.mode := rfl
@[simp] theorem Dev.onQ_ent (n : Nat) (g) : (d.onQ n g).ent = d.ent := rfl
@[simp] theorem Dev.onQ_br (n : Nat) (g) : (d.onQ n g).br = d.br := rfl
@[simp] theorem Dev.onQ_retry (n : Nat) (g) : (d.onQ n g).retry = d.retry := rfl
@[simp] theorem Dev.onQ_rail (n : Nat) (g) : (d.onQ n g).rail = d.rail := rfl
@[simp] theorem Dev.onQ_ph (n : Nat) (g) : (d.onQ n g).ph = d.ph := rfl
@[simp] theorem Dev.onQ_port (n : Nat) (g) : (d.onQ n g).port = d.port := rfl
@[simp] theorem Dev.onQ_conv (n : Nat) (g) : (d.onQ n g).conv = d.conv := rfl
@[simp] theorem Dev.onQ_scv (n : Nat) (g) : (d.onQ n g).scv = d.scv := rfl
@[simp] theorem Dev.onQ_icv (n : Nat) (g) : (d.onQ n g).icv = d.icv := rfl
@[simp] theorem Dev.onQ_sage (n : Nat) (g) : (d.onQ n g).sage = d.sage := rfl
@[simp] theorem Dev.onQ_slot (n : Nat) (g) : (d.onQ n g).slot = d.slot := rfl
@[simp] theorem Dev.onQ_ring (n : Nat) (g) : (d.onQ n g).ring = d.ring := rfl
@[simp] theorem Dev.onQ_thr (n : Nat) (g) : (d.onQ n g).thr = d.thr := rfl
@[simp] theorem Dev.onQ_rqHi (n : Nat) (g) : (d.onQ n g).rqHi = d.rqHi := rfl
@[simp] theorem Dev.onQ_rqHead (n : Nat) (g) : (d.onQ n g).rqHead = d.rqHead := rfl
@[simp] theorem Dev.onQ_host (n : Nat) (g) : (d.onQ n g).host = d.host := rfl
@[simp] theorem Dev.onQ_vc (n : Nat) (g) : (d.onQ n g).vc = d.vc := rfl
@[simp] theorem Dev.onQ_stream (n : Nat) (g) : (d.onQ n g).stream = d.stream := rfl
@[simp] theorem Dev.onQ_tw (n : Nat) (g) : (d.onQ n g).tw = d.tw := rfl
@[simp] theorem Dev.onQ_bmc (n : Nat) (g) : (d.onQ n g).bmc = d.bmc := rfl
@[simp] theorem Dev.onQ_core (n : Nat) (g) : (d.onQ n g).core = d.core := rfl
@[simp] theorem Dev.onQ_mem (n : Nat) (g) : (d.onQ n g).mem = d.mem := rfl
@[simp] theorem Dev.onQ_flt (n : Nat) (g) : (d.onQ n g).flt = d.flt := rfl
@[simp] theorem Dev.onQ_keep (n : Nat) (g) : (d.onQ n g).keep = d.keep := rfl
@[simp] theorem Dev.onQ_link (n : Nat) (g) : (d.onQ n g).link = d.link := rfl
@[simp] theorem Dev.onQ_hw (n : Nat) (g) : (d.onQ n g).hw = d.hw := rfl
@[simp] theorem Dev.onQ_stg (n : Nat) (g) : (d.onQ n g).stg = d.stg := rfl
@[simp] theorem Dev.Q_onQ_same (n : Nat) (g) : (d.onQ n g).Q n = g (d.Q n) := KV.get_put_same _ _ _ _
theorem Dev.Q_onQ_ne {n m : Nat} (h : m ≠ n) (g) : (d.onQ n g).Q m = d.Q m := KV.get_put_ne h _ _ _
@[simp] theorem Dev.word_onQ (n : Nat) (g) (o : Nat) : (d.onQ n g).word o = d.word o := rfl
@[simp] theorem Dev.rd_onQ (n : Nat) (g) (f : Fld) : (d.onQ n g).rd f = d.rd f := rfl
@[simp] theorem Dev.E_onQ (n : Nat) (g) (m : Nat) : (d.onQ n g).E m = d.E m := rfl
@[simp] theorem Dev.B_onQ (n : Nat) (g) (m : Nat) : (d.onQ n g).B m = d.B m := rfl
@[simp] theorem Dev.RT_onQ (n : Nat) (g) (m : Nat) : (d.onQ n g).RT m = d.RT m := rfl
@[simp] theorem Dev.R_onQ (n : Nat) (g) (m : Nat) : (d.onQ n g).R m = d.R m := rfl
@[simp] theorem Dev.P_onQ (n : Nat) (g) (m : Nat) : (d.onQ n g).P m = d.P m := rfl
@[simp] theorem Dev.IP_onQ (n : Nat) (g) (m : Nat) : (d.onQ n g).IP m = d.IP m := rfl
@[simp] theorem Dev.C_onQ (n : Nat) (g) (m : Nat) : (d.onQ n g).C m = d.C m := rfl
@[simp] theorem Dev.SQ_onQ (n : Nat) (g) (m : Nat) : (d.onQ n g).SQ m = d.SQ m := rfl
@[simp] theorem Dev.IC_onQ (n : Nat) (g) (m : Nat) : (d.onQ n g).IC m = d.IC m := rfl
@[simp] theorem Dev.SG_onQ (n : Nat) (g) (m : Nat) : (d.onQ n g).SG m = d.SG m := rfl
@[simp] theorem Dev.SL_onQ (n : Nat) (g) (m : Nat) : (d.onQ n g).SL m = d.SL m := rfl
@[simp] theorem Dev.RG_onQ (n : Nat) (g) (m : Nat) : (d.onQ n g).RG m = d.RG m := rfl
@[simp] theorem Dev.T_onQ (n : Nat) (g) (m : Nat) : (d.onQ n g).T m = d.T m := rfl
@[simp] theorem Dev.V_onQ (n : Nat) (g) (m : Nat) : (d.onQ n g).V m = d.V m := rfl
@[simp] theorem Dev.W_onQ (n : Nat) (g) (m : Nat) : (d.onQ n g).W m = d.W m := rfl
@[simp] theorem Dev.K_onQ (n : Nat) (g) (m : Nat) : (d.onQ n g).K m = d.K m := rfl

/-! ## `onV` -/

@[simp] theorem Dev.onV_regs (n : Nat) (g) : (d.onV n g).regs = d.regs := rfl
@[simp] theorem Dev.onV_clk (n : Nat) (g) : (d.onV n g).clk = d.clk := rfl
@[simp] theorem Dev.onV_mode (n : Nat) (g) : (d.onV n g).mode = d.mode := rfl
@[simp] theorem Dev.onV_ent (n : Nat) (g) : (d.onV n g).ent = d.ent := rfl
@[simp] theorem Dev.onV_br (n : Nat) (g) : (d.onV n g).br = d.br := rfl
@[simp] theorem Dev.onV_retry (n : Nat) (g) : (d.onV n g).retry = d.retry := rfl
@[simp] theorem Dev.onV_rail (n : Nat) (g) : (d.onV n g).rail = d.rail := rfl
@[simp] theorem Dev.onV_ph (n : Nat) (g) : (d.onV n g).ph = d.ph := rfl
@[simp] theorem Dev.onV_port (n : Nat) (g) : (d.onV n g).port = d.port := rfl
@[simp] theorem Dev.onV_conv (n : Nat) (g) : (d.onV n g).conv = d.conv := rfl
@[simp] theorem Dev.onV_scv (n : Nat) (g) : (d.onV n g).scv = d.scv := rfl
@[simp] theorem Dev.onV_icv (n : Nat) (g) : (d.onV n g).icv = d.icv := rfl
@[simp] theorem Dev.onV_sage (n : Nat) (g) : (d.onV n g).sage = d.sage := rfl
@[simp] theorem Dev.onV_slot (n : Nat) (g) : (d.onV n g).slot = d.slot := rfl
@[simp] theorem Dev.onV_ring (n : Nat) (g) : (d.onV n g).ring = d.ring := rfl
@[simp] theorem Dev.onV_thr (n : Nat) (g) : (d.onV n g).thr = d.thr := rfl
@[simp] theorem Dev.onV_rq (n : Nat) (g) : (d.onV n g).rq = d.rq := rfl
@[simp] theorem Dev.onV_rqHi (n : Nat) (g) : (d.onV n g).rqHi = d.rqHi := rfl
@[simp] theorem Dev.onV_rqHead (n : Nat) (g) : (d.onV n g).rqHead = d.rqHead := rfl
@[simp] theorem Dev.onV_host (n : Nat) (g) : (d.onV n g).host = d.host := rfl
@[simp] theorem Dev.onV_stream (n : Nat) (g) : (d.onV n g).stream = d.stream := rfl
@[simp] theorem Dev.onV_tw (n : Nat) (g) : (d.onV n g).tw = d.tw := rfl
@[simp] theorem Dev.onV_bmc (n : Nat) (g) : (d.onV n g).bmc = d.bmc := rfl
@[simp] theorem Dev.onV_core (n : Nat) (g) : (d.onV n g).core = d.core := rfl
@[simp] theorem Dev.onV_mem (n : Nat) (g) : (d.onV n g).mem = d.mem := rfl
@[simp] theorem Dev.onV_flt (n : Nat) (g) : (d.onV n g).flt = d.flt := rfl
@[simp] theorem Dev.onV_keep (n : Nat) (g) : (d.onV n g).keep = d.keep := rfl
@[simp] theorem Dev.onV_link (n : Nat) (g) : (d.onV n g).link = d.link := rfl
@[simp] theorem Dev.onV_hw (n : Nat) (g) : (d.onV n g).hw = d.hw := rfl
@[simp] theorem Dev.onV_stg (n : Nat) (g) : (d.onV n g).stg = d.stg := rfl
@[simp] theorem Dev.V_onV_same (n : Nat) (g) : (d.onV n g).V n = g (d.V n) := KV.get_put_same _ _ _ _
theorem Dev.V_onV_ne {n m : Nat} (h : m ≠ n) (g) : (d.onV n g).V m = d.V m := KV.get_put_ne h _ _ _
@[simp] theorem Dev.word_onV (n : Nat) (g) (o : Nat) : (d.onV n g).word o = d.word o := rfl
@[simp] theorem Dev.rd_onV (n : Nat) (g) (f : Fld) : (d.onV n g).rd f = d.rd f := rfl
@[simp] theorem Dev.E_onV (n : Nat) (g) (m : Nat) : (d.onV n g).E m = d.E m := rfl
@[simp] theorem Dev.B_onV (n : Nat) (g) (m : Nat) : (d.onV n g).B m = d.B m := rfl
@[simp] theorem Dev.RT_onV (n : Nat) (g) (m : Nat) : (d.onV n g).RT m = d.RT m := rfl
@[simp] theorem Dev.R_onV (n : Nat) (g) (m : Nat) : (d.onV n g).R m = d.R m := rfl
@[simp] theorem Dev.P_onV (n : Nat) (g) (m : Nat) : (d.onV n g).P m = d.P m := rfl
@[simp] theorem Dev.IP_onV (n : Nat) (g) (m : Nat) : (d.onV n g).IP m = d.IP m := rfl
@[simp] theorem Dev.C_onV (n : Nat) (g) (m : Nat) : (d.onV n g).C m = d.C m := rfl
@[simp] theorem Dev.SQ_onV (n : Nat) (g) (m : Nat) : (d.onV n g).SQ m = d.SQ m := rfl
@[simp] theorem Dev.IC_onV (n : Nat) (g) (m : Nat) : (d.onV n g).IC m = d.IC m := rfl
@[simp] theorem Dev.SG_onV (n : Nat) (g) (m : Nat) : (d.onV n g).SG m = d.SG m := rfl
@[simp] theorem Dev.SL_onV (n : Nat) (g) (m : Nat) : (d.onV n g).SL m = d.SL m := rfl
@[simp] theorem Dev.RG_onV (n : Nat) (g) (m : Nat) : (d.onV n g).RG m = d.RG m := rfl
@[simp] theorem Dev.T_onV (n : Nat) (g) (m : Nat) : (d.onV n g).T m = d.T m := rfl
@[simp] theorem Dev.Q_onV (n : Nat) (g) (m : Nat) : (d.onV n g).Q m = d.Q m := rfl
@[simp] theorem Dev.W_onV (n : Nat) (g) (m : Nat) : (d.onV n g).W m = d.W m := rfl
@[simp] theorem Dev.K_onV (n : Nat) (g) (m : Nat) : (d.onV n g).K m = d.K m := rfl

/-! ## `onW` -/

@[simp] theorem Dev.onW_regs (n : Nat) (g) : (d.onW n g).regs = d.regs := rfl
@[simp] theorem Dev.onW_clk (n : Nat) (g) : (d.onW n g).clk = d.clk := rfl
@[simp] theorem Dev.onW_mode (n : Nat) (g) : (d.onW n g).mode = d.mode := rfl
@[simp] theorem Dev.onW_ent (n : Nat) (g) : (d.onW n g).ent = d.ent := rfl
@[simp] theorem Dev.onW_br (n : Nat) (g) : (d.onW n g).br = d.br := rfl
@[simp] theorem Dev.onW_retry (n : Nat) (g) : (d.onW n g).retry = d.retry := rfl
@[simp] theorem Dev.onW_rail (n : Nat) (g) : (d.onW n g).rail = d.rail := rfl
@[simp] theorem Dev.onW_ph (n : Nat) (g) : (d.onW n g).ph = d.ph := rfl
@[simp] theorem Dev.onW_port (n : Nat) (g) : (d.onW n g).port = d.port := rfl
@[simp] theorem Dev.onW_conv (n : Nat) (g) : (d.onW n g).conv = d.conv := rfl
@[simp] theorem Dev.onW_scv (n : Nat) (g) : (d.onW n g).scv = d.scv := rfl
@[simp] theorem Dev.onW_icv (n : Nat) (g) : (d.onW n g).icv = d.icv := rfl
@[simp] theorem Dev.onW_sage (n : Nat) (g) : (d.onW n g).sage = d.sage := rfl
@[simp] theorem Dev.onW_slot (n : Nat) (g) : (d.onW n g).slot = d.slot := rfl
@[simp] theorem Dev.onW_ring (n : Nat) (g) : (d.onW n g).ring = d.ring := rfl
@[simp] theorem Dev.onW_thr (n : Nat) (g) : (d.onW n g).thr = d.thr := rfl
@[simp] theorem Dev.onW_rq (n : Nat) (g) : (d.onW n g).rq = d.rq := rfl
@[simp] theorem Dev.onW_rqHi (n : Nat) (g) : (d.onW n g).rqHi = d.rqHi := rfl
@[simp] theorem Dev.onW_rqHead (n : Nat) (g) : (d.onW n g).rqHead = d.rqHead := rfl
@[simp] theorem Dev.onW_host (n : Nat) (g) : (d.onW n g).host = d.host := rfl
@[simp] theorem Dev.onW_vc (n : Nat) (g) : (d.onW n g).vc = d.vc := rfl
@[simp] theorem Dev.onW_stream (n : Nat) (g) : (d.onW n g).stream = d.stream := rfl
@[simp] theorem Dev.onW_bmc (n : Nat) (g) : (d.onW n g).bmc = d.bmc := rfl
@[simp] theorem Dev.onW_core (n : Nat) (g) : (d.onW n g).core = d.core := rfl
@[simp] theorem Dev.onW_mem (n : Nat) (g) : (d.onW n g).mem = d.mem := rfl
@[simp] theorem Dev.onW_flt (n : Nat) (g) : (d.onW n g).flt = d.flt := rfl
@[simp] theorem Dev.onW_keep (n : Nat) (g) : (d.onW n g).keep = d.keep := rfl
@[simp] theorem Dev.onW_link (n : Nat) (g) : (d.onW n g).link = d.link := rfl
@[simp] theorem Dev.onW_hw (n : Nat) (g) : (d.onW n g).hw = d.hw := rfl
@[simp] theorem Dev.onW_stg (n : Nat) (g) : (d.onW n g).stg = d.stg := rfl
@[simp] theorem Dev.W_onW_same (n : Nat) (g) : (d.onW n g).W n = g (d.W n) := KV.get_put_same _ _ _ _
theorem Dev.W_onW_ne {n m : Nat} (h : m ≠ n) (g) : (d.onW n g).W m = d.W m := KV.get_put_ne h _ _ _
@[simp] theorem Dev.word_onW (n : Nat) (g) (o : Nat) : (d.onW n g).word o = d.word o := rfl
@[simp] theorem Dev.rd_onW (n : Nat) (g) (f : Fld) : (d.onW n g).rd f = d.rd f := rfl
@[simp] theorem Dev.E_onW (n : Nat) (g) (m : Nat) : (d.onW n g).E m = d.E m := rfl
@[simp] theorem Dev.B_onW (n : Nat) (g) (m : Nat) : (d.onW n g).B m = d.B m := rfl
@[simp] theorem Dev.RT_onW (n : Nat) (g) (m : Nat) : (d.onW n g).RT m = d.RT m := rfl
@[simp] theorem Dev.R_onW (n : Nat) (g) (m : Nat) : (d.onW n g).R m = d.R m := rfl
@[simp] theorem Dev.P_onW (n : Nat) (g) (m : Nat) : (d.onW n g).P m = d.P m := rfl
@[simp] theorem Dev.IP_onW (n : Nat) (g) (m : Nat) : (d.onW n g).IP m = d.IP m := rfl
@[simp] theorem Dev.C_onW (n : Nat) (g) (m : Nat) : (d.onW n g).C m = d.C m := rfl
@[simp] theorem Dev.SQ_onW (n : Nat) (g) (m : Nat) : (d.onW n g).SQ m = d.SQ m := rfl
@[simp] theorem Dev.IC_onW (n : Nat) (g) (m : Nat) : (d.onW n g).IC m = d.IC m := rfl
@[simp] theorem Dev.SG_onW (n : Nat) (g) (m : Nat) : (d.onW n g).SG m = d.SG m := rfl
@[simp] theorem Dev.SL_onW (n : Nat) (g) (m : Nat) : (d.onW n g).SL m = d.SL m := rfl
@[simp] theorem Dev.RG_onW (n : Nat) (g) (m : Nat) : (d.onW n g).RG m = d.RG m := rfl
@[simp] theorem Dev.T_onW (n : Nat) (g) (m : Nat) : (d.onW n g).T m = d.T m := rfl
@[simp] theorem Dev.Q_onW (n : Nat) (g) (m : Nat) : (d.onW n g).Q m = d.Q m := rfl
@[simp] theorem Dev.V_onW (n : Nat) (g) (m : Nat) : (d.onW n g).V m = d.V m := rfl
@[simp] theorem Dev.K_onW (n : Nat) (g) (m : Nat) : (d.onW n g).K m = d.K m := rfl

/-! ## `onK` -/

@[simp] theorem Dev.onK_regs (n : Nat) (g) : (d.onK n g).regs = d.regs := rfl
@[simp] theorem Dev.onK_clk (n : Nat) (g) : (d.onK n g).clk = d.clk := rfl
@[simp] theorem Dev.onK_mode (n : Nat) (g) : (d.onK n g).mode = d.mode := rfl
@[simp] theorem Dev.onK_ent (n : Nat) (g) : (d.onK n g).ent = d.ent := rfl
@[simp] theorem Dev.onK_br (n : Nat) (g) : (d.onK n g).br = d.br := rfl
@[simp] theorem Dev.onK_retry (n : Nat) (g) : (d.onK n g).retry = d.retry := rfl
@[simp] theorem Dev.onK_rail (n : Nat) (g) : (d.onK n g).rail = d.rail := rfl
@[simp] theorem Dev.onK_ph (n : Nat) (g) : (d.onK n g).ph = d.ph := rfl
@[simp] theorem Dev.onK_port (n : Nat) (g) : (d.onK n g).port = d.port := rfl
@[simp] theorem Dev.onK_conv (n : Nat) (g) : (d.onK n g).conv = d.conv := rfl
@[simp] theorem Dev.onK_scv (n : Nat) (g) : (d.onK n g).scv = d.scv := rfl
@[simp] theorem Dev.onK_icv (n : Nat) (g) : (d.onK n g).icv = d.icv := rfl
@[simp] theorem Dev.onK_sage (n : Nat) (g) : (d.onK n g).sage = d.sage := rfl
@[simp] theorem Dev.onK_slot (n : Nat) (g) : (d.onK n g).slot = d.slot := rfl
@[simp] theorem Dev.onK_ring (n : Nat) (g) : (d.onK n g).ring = d.ring := rfl
@[simp] theorem Dev.onK_thr (n : Nat) (g) : (d.onK n g).thr = d.thr := rfl
@[simp] theorem Dev.onK_rq (n : Nat) (g) : (d.onK n g).rq = d.rq := rfl
@[simp] theorem Dev.onK_rqHi (n : Nat) (g) : (d.onK n g).rqHi = d.rqHi := rfl
@[simp] theorem Dev.onK_rqHead (n : Nat) (g) : (d.onK n g).rqHead = d.rqHead := rfl
@[simp] theorem Dev.onK_host (n : Nat) (g) : (d.onK n g).host = d.host := rfl
@[simp] theorem Dev.onK_vc (n : Nat) (g) : (d.onK n g).vc = d.vc := rfl
@[simp] theorem Dev.onK_stream (n : Nat) (g) : (d.onK n g).stream = d.stream := rfl
@[simp] theorem Dev.onK_tw (n : Nat) (g) : (d.onK n g).tw = d.tw := rfl
@[simp] theorem Dev.onK_bmc (n : Nat) (g) : (d.onK n g).bmc = d.bmc := rfl
@[simp] theorem Dev.onK_mem (n : Nat) (g) : (d.onK n g).mem = d.mem := rfl
@[simp] theorem Dev.onK_flt (n : Nat) (g) : (d.onK n g).flt = d.flt := rfl
@[simp] theorem Dev.onK_keep (n : Nat) (g) : (d.onK n g).keep = d.keep := rfl
@[simp] theorem Dev.onK_link (n : Nat) (g) : (d.onK n g).link = d.link := rfl
@[simp] theorem Dev.onK_hw (n : Nat) (g) : (d.onK n g).hw = d.hw := rfl
@[simp] theorem Dev.onK_stg (n : Nat) (g) : (d.onK n g).stg = d.stg := rfl
@[simp] theorem Dev.K_onK_same (n : Nat) (g) : (d.onK n g).K n = g (d.K n) := KV.get_put_same _ _ _ _
theorem Dev.K_onK_ne {n m : Nat} (h : m ≠ n) (g) : (d.onK n g).K m = d.K m := KV.get_put_ne h _ _ _
@[simp] theorem Dev.word_onK (n : Nat) (g) (o : Nat) : (d.onK n g).word o = d.word o := rfl
@[simp] theorem Dev.rd_onK (n : Nat) (g) (f : Fld) : (d.onK n g).rd f = d.rd f := rfl
@[simp] theorem Dev.E_onK (n : Nat) (g) (m : Nat) : (d.onK n g).E m = d.E m := rfl
@[simp] theorem Dev.B_onK (n : Nat) (g) (m : Nat) : (d.onK n g).B m = d.B m := rfl
@[simp] theorem Dev.RT_onK (n : Nat) (g) (m : Nat) : (d.onK n g).RT m = d.RT m := rfl
@[simp] theorem Dev.R_onK (n : Nat) (g) (m : Nat) : (d.onK n g).R m = d.R m := rfl
@[simp] theorem Dev.P_onK (n : Nat) (g) (m : Nat) : (d.onK n g).P m = d.P m := rfl
@[simp] theorem Dev.IP_onK (n : Nat) (g) (m : Nat) : (d.onK n g).IP m = d.IP m := rfl
@[simp] theorem Dev.C_onK (n : Nat) (g) (m : Nat) : (d.onK n g).C m = d.C m := rfl
@[simp] theorem Dev.SQ_onK (n : Nat) (g) (m : Nat) : (d.onK n g).SQ m = d.SQ m := rfl
@[simp] theorem Dev.IC_onK (n : Nat) (g) (m : Nat) : (d.onK n g).IC m = d.IC m := rfl
@[simp] theorem Dev.SG_onK (n : Nat) (g) (m : Nat) : (d.onK n g).SG m = d.SG m := rfl
@[simp] theorem Dev.SL_onK (n : Nat) (g) (m : Nat) : (d.onK n g).SL m = d.SL m := rfl
@[simp] theorem Dev.RG_onK (n : Nat) (g) (m : Nat) : (d.onK n g).RG m = d.RG m := rfl
@[simp] theorem Dev.T_onK (n : Nat) (g) (m : Nat) : (d.onK n g).T m = d.T m := rfl
@[simp] theorem Dev.Q_onK (n : Nat) (g) (m : Nat) : (d.onK n g).Q m = d.Q m := rfl
@[simp] theorem Dev.V_onK (n : Nat) (g) (m : Nat) : (d.onK n g).V m = d.V m := rfl
@[simp] theorem Dev.W_onK (n : Nat) (g) (m : Nat) : (d.onK n g).W m = d.W m := rfl

/-! ## Units after a register write -/

@[simp] theorem Dev.E_wr (f : Fld) (x m : Nat) : (d.wr f x).E m = d.E m := rfl
@[simp] theorem Dev.E_setWord (off : Nat) (w : Word) (m : Nat) : (d.setWord off w).E m = d.E m := rfl
@[simp] theorem Dev.B_wr (f : Fld) (x m : Nat) : (d.wr f x).B m = d.B m := rfl
@[simp] theorem Dev.B_setWord (off : Nat) (w : Word) (m : Nat) : (d.setWord off w).B m = d.B m := rfl
@[simp] theorem Dev.RT_wr (f : Fld) (x m : Nat) : (d.wr f x).RT m = d.RT m := rfl
@[simp] theorem Dev.RT_setWord (off : Nat) (w : Word) (m : Nat) : (d.setWord off w).RT m = d.RT m := rfl
@[simp] theorem Dev.R_wr (f : Fld) (x m : Nat) : (d.wr f x).R m = d.R m := rfl
@[simp] theorem Dev.R_setWord (off : Nat) (w : Word) (m : Nat) : (d.setWord off w).R m = d.R m := rfl
@[simp] theorem Dev.P_wr (f : Fld) (x m : Nat) : (d.wr f x).P m = d.P m := rfl
@[simp] theorem Dev.P_setWord (off : Nat) (w : Word) (m : Nat) : (d.setWord off w).P m = d.P m := rfl
@[simp] theorem Dev.IP_wr (f : Fld) (x m : Nat) : (d.wr f x).IP m = d.IP m := rfl
@[simp] theorem Dev.IP_setWord (off : Nat) (w : Word) (m : Nat) : (d.setWord off w).IP m = d.IP m := rfl
@[simp] theorem Dev.C_wr (f : Fld) (x m : Nat) : (d.wr f x).C m = d.C m := rfl
@[simp] theorem Dev.C_setWord (off : Nat) (w : Word) (m : Nat) : (d.setWord off w).C m = d.C m := rfl
@[simp] theorem Dev.SQ_wr (f : Fld) (x m : Nat) : (d.wr f x).SQ m = d.SQ m := rfl
@[simp] theorem Dev.SQ_setWord (off : Nat) (w : Word) (m : Nat) : (d.setWord off w).SQ m = d.SQ m := rfl
@[simp] theorem Dev.IC_wr (f : Fld) (x m : Nat) : (d.wr f x).IC m = d.IC m := rfl
@[simp] theorem Dev.IC_setWord (off : Nat) (w : Word) (m : Nat) : (d.setWord off w).IC m = d.IC m := rfl
@[simp] theorem Dev.SG_wr (f : Fld) (x m : Nat) : (d.wr f x).SG m = d.SG m := rfl
@[simp] theorem Dev.SG_setWord (off : Nat) (w : Word) (m : Nat) : (d.setWord off w).SG m = d.SG m := rfl
@[simp] theorem Dev.SL_wr (f : Fld) (x m : Nat) : (d.wr f x).SL m = d.SL m := rfl
@[simp] theorem Dev.SL_setWord (off : Nat) (w : Word) (m : Nat) : (d.setWord off w).SL m = d.SL m := rfl
@[simp] theorem Dev.RG_wr (f : Fld) (x m : Nat) : (d.wr f x).RG m = d.RG m := rfl
@[simp] theorem Dev.RG_setWord (off : Nat) (w : Word) (m : Nat) : (d.setWord off w).RG m = d.RG m := rfl
@[simp] theorem Dev.T_wr (f : Fld) (x m : Nat) : (d.wr f x).T m = d.T m := rfl
@[simp] theorem Dev.T_setWord (off : Nat) (w : Word) (m : Nat) : (d.setWord off w).T m = d.T m := rfl
@[simp] theorem Dev.Q_wr (f : Fld) (x m : Nat) : (d.wr f x).Q m = d.Q m := rfl
@[simp] theorem Dev.Q_setWord (off : Nat) (w : Word) (m : Nat) : (d.setWord off w).Q m = d.Q m := rfl
@[simp] theorem Dev.V_wr (f : Fld) (x m : Nat) : (d.wr f x).V m = d.V m := rfl
@[simp] theorem Dev.V_setWord (off : Nat) (w : Word) (m : Nat) : (d.setWord off w).V m = d.V m := rfl
@[simp] theorem Dev.W_wr (f : Fld) (x m : Nat) : (d.wr f x).W m = d.W m := rfl
@[simp] theorem Dev.W_setWord (off : Nat) (w : Word) (m : Nat) : (d.setWord off w).W m = d.W m := rfl
@[simp] theorem Dev.K_wr (f : Fld) (x m : Nat) : (d.wr f x).K m = d.K m := rfl
@[simp] theorem Dev.K_setWord (off : Nat) (w : Word) (m : Nat) : (d.setWord off w).K m = d.K m := rfl

/-! ## Fault messages leave every part of the block but the fault unit -/

/-- What a fault message changes: the fault unit alone. -/
theorem Dev.send_eq (m : FMsg) : d.send m = { d with flt := (d.send m).flt } := by
  unfold Dev.send
  split
  · rfl
  · split
    · rfl
    · dsimp only
      split <;> rfl

@[simp] theorem Dev.rd_send (m : FMsg) (f : Fld) : (d.send m).rd f = d.rd f := by rw [d.send_eq m]; rfl
@[simp] theorem Dev.word_send (m : FMsg) (o : Nat) : (d.send m).word o = d.word o := by rw [d.send_eq m]; rfl
@[simp] theorem Dev.word_raiseL (k u a x l p : Nat) : (d.raiseL k u a x l).word p = d.word p := d.word_send _ p
@[simp] theorem Dev.word_raise (k u a x p : Nat) : (d.raise k u a x).word p = d.word p := d.word_send _ p
@[simp] theorem Dev.word_raiseAt (k u a x s r p : Nat) : (d.raiseAt k u a x s r).word p = d.word p := d.word_send _ p
@[simp] theorem Dev.word_accessFault (a x o p : Nat) : (d.accessFault a x o).word p = d.word p := d.word_send _ p
@[simp] theorem Dev.rd_raiseL (k u a x l : Nat) (f : Fld) : (d.raiseL k u a x l).rd f = d.rd f := d.rd_send _ f
@[simp] theorem Dev.rd_raise (k u a x : Nat) (f : Fld) : (d.raise k u a x).rd f = d.rd f := d.rd_send _ f
@[simp] theorem Dev.rd_raiseAt (k u a x s r : Nat) (f : Fld) : (d.raiseAt k u a x s r).rd f = d.rd f := d.rd_send _ f
@[simp] theorem Dev.rd_accessFault (a x o : Nat) (f : Fld) : (d.accessFault a x o).rd f = d.rd f := d.rd_send _ f

@[simp] theorem Dev.send_regs (m : FMsg) : (d.send m).regs = d.regs := by rw [d.send_eq m]
@[simp] theorem Dev.raiseL_regs (k u a x l : Nat) : (d.raiseL k u a x l).regs = d.regs := d.send_regs _
@[simp] theorem Dev.raise_regs (k u a x : Nat) : (d.raise k u a x).regs = d.regs := d.send_regs _
@[simp] theorem Dev.raiseAt_regs (k u a x s r : Nat) : (d.raiseAt k u a x s r).regs = d.regs := d.send_regs _
@[simp] theorem Dev.accessFault_regs (a x o : Nat) : (d.accessFault a x o).regs = d.regs := d.send_regs _
@[simp] theorem Dev.send_clk (m : FMsg) : (d.send m).clk = d.clk := by rw [d.send_eq m]
@[simp] theorem Dev.raiseL_clk (k u a x l : Nat) : (d.raiseL k u a x l).clk = d.clk := d.send_clk _
@[simp] theorem Dev.raise_clk (k u a x : Nat) : (d.raise k u a x).clk = d.clk := d.send_clk _
@[simp] theorem Dev.raiseAt_clk (k u a x s r : Nat) : (d.raiseAt k u a x s r).clk = d.clk := d.send_clk _
@[simp] theorem Dev.accessFault_clk (a x o : Nat) : (d.accessFault a x o).clk = d.clk := d.send_clk _
@[simp] theorem Dev.send_mode (m : FMsg) : (d.send m).mode = d.mode := by rw [d.send_eq m]
@[simp] theorem Dev.raiseL_mode (k u a x l : Nat) : (d.raiseL k u a x l).mode = d.mode := d.send_mode _
@[simp] theorem Dev.raise_mode (k u a x : Nat) : (d.raise k u a x).mode = d.mode := d.send_mode _
@[simp] theorem Dev.raiseAt_mode (k u a x s r : Nat) : (d.raiseAt k u a x s r).mode = d.mode := d.send_mode _
@[simp] theorem Dev.accessFault_mode (a x o : Nat) : (d.accessFault a x o).mode = d.mode := d.send_mode _
@[simp] theorem Dev.send_ent (m : FMsg) : (d.send m).ent = d.ent := by rw [d.send_eq m]
@[simp] theorem Dev.raiseL_ent (k u a x l : Nat) : (d.raiseL k u a x l).ent = d.ent := d.send_ent _
@[simp] theorem Dev.raise_ent (k u a x : Nat) : (d.raise k u a x).ent = d.ent := d.send_ent _
@[simp] theorem Dev.raiseAt_ent (k u a x s r : Nat) : (d.raiseAt k u a x s r).ent = d.ent := d.send_ent _
@[simp] theorem Dev.accessFault_ent (a x o : Nat) : (d.accessFault a x o).ent = d.ent := d.send_ent _
@[simp] theorem Dev.send_br (m : FMsg) : (d.send m).br = d.br := by rw [d.send_eq m]
@[simp] theorem Dev.raiseL_br (k u a x l : Nat) : (d.raiseL k u a x l).br = d.br := d.send_br _
@[simp] theorem Dev.raise_br (k u a x : Nat) : (d.raise k u a x).br = d.br := d.send_br _
@[simp] theorem Dev.raiseAt_br (k u a x s r : Nat) : (d.raiseAt k u a x s r).br = d.br := d.send_br _
@[simp] theorem Dev.accessFault_br (a x o : Nat) : (d.accessFault a x o).br = d.br := d.send_br _
@[simp] theorem Dev.send_retry (m : FMsg) : (d.send m).retry = d.retry := by rw [d.send_eq m]
@[simp] theorem Dev.raiseL_retry (k u a x l : Nat) : (d.raiseL k u a x l).retry = d.retry := d.send_retry _
@[simp] theorem Dev.raise_retry (k u a x : Nat) : (d.raise k u a x).retry = d.retry := d.send_retry _
@[simp] theorem Dev.raiseAt_retry (k u a x s r : Nat) : (d.raiseAt k u a x s r).retry = d.retry := d.send_retry _
@[simp] theorem Dev.accessFault_retry (a x o : Nat) : (d.accessFault a x o).retry = d.retry := d.send_retry _
@[simp] theorem Dev.send_rail (m : FMsg) : (d.send m).rail = d.rail := by rw [d.send_eq m]
@[simp] theorem Dev.raiseL_rail (k u a x l : Nat) : (d.raiseL k u a x l).rail = d.rail := d.send_rail _
@[simp] theorem Dev.raise_rail (k u a x : Nat) : (d.raise k u a x).rail = d.rail := d.send_rail _
@[simp] theorem Dev.raiseAt_rail (k u a x s r : Nat) : (d.raiseAt k u a x s r).rail = d.rail := d.send_rail _
@[simp] theorem Dev.accessFault_rail (a x o : Nat) : (d.accessFault a x o).rail = d.rail := d.send_rail _
@[simp] theorem Dev.send_ph (m : FMsg) : (d.send m).ph = d.ph := by rw [d.send_eq m]
@[simp] theorem Dev.raiseL_ph (k u a x l : Nat) : (d.raiseL k u a x l).ph = d.ph := d.send_ph _
@[simp] theorem Dev.raise_ph (k u a x : Nat) : (d.raise k u a x).ph = d.ph := d.send_ph _
@[simp] theorem Dev.raiseAt_ph (k u a x s r : Nat) : (d.raiseAt k u a x s r).ph = d.ph := d.send_ph _
@[simp] theorem Dev.accessFault_ph (a x o : Nat) : (d.accessFault a x o).ph = d.ph := d.send_ph _
@[simp] theorem Dev.send_port (m : FMsg) : (d.send m).port = d.port := by rw [d.send_eq m]
@[simp] theorem Dev.raiseL_port (k u a x l : Nat) : (d.raiseL k u a x l).port = d.port := d.send_port _
@[simp] theorem Dev.raise_port (k u a x : Nat) : (d.raise k u a x).port = d.port := d.send_port _
@[simp] theorem Dev.raiseAt_port (k u a x s r : Nat) : (d.raiseAt k u a x s r).port = d.port := d.send_port _
@[simp] theorem Dev.accessFault_port (a x o : Nat) : (d.accessFault a x o).port = d.port := d.send_port _
@[simp] theorem Dev.send_conv (m : FMsg) : (d.send m).conv = d.conv := by rw [d.send_eq m]
@[simp] theorem Dev.raiseL_conv (k u a x l : Nat) : (d.raiseL k u a x l).conv = d.conv := d.send_conv _
@[simp] theorem Dev.raise_conv (k u a x : Nat) : (d.raise k u a x).conv = d.conv := d.send_conv _
@[simp] theorem Dev.raiseAt_conv (k u a x s r : Nat) : (d.raiseAt k u a x s r).conv = d.conv := d.send_conv _
@[simp] theorem Dev.accessFault_conv (a x o : Nat) : (d.accessFault a x o).conv = d.conv := d.send_conv _
@[simp] theorem Dev.send_scv (m : FMsg) : (d.send m).scv = d.scv := by rw [d.send_eq m]
@[simp] theorem Dev.raiseL_scv (k u a x l : Nat) : (d.raiseL k u a x l).scv = d.scv := d.send_scv _
@[simp] theorem Dev.raise_scv (k u a x : Nat) : (d.raise k u a x).scv = d.scv := d.send_scv _
@[simp] theorem Dev.raiseAt_scv (k u a x s r : Nat) : (d.raiseAt k u a x s r).scv = d.scv := d.send_scv _
@[simp] theorem Dev.accessFault_scv (a x o : Nat) : (d.accessFault a x o).scv = d.scv := d.send_scv _
@[simp] theorem Dev.send_icv (m : FMsg) : (d.send m).icv = d.icv := by rw [d.send_eq m]
@[simp] theorem Dev.raiseL_icv (k u a x l : Nat) : (d.raiseL k u a x l).icv = d.icv := d.send_icv _
@[simp] theorem Dev.raise_icv (k u a x : Nat) : (d.raise k u a x).icv = d.icv := d.send_icv _
@[simp] theorem Dev.raiseAt_icv (k u a x s r : Nat) : (d.raiseAt k u a x s r).icv = d.icv := d.send_icv _
@[simp] theorem Dev.accessFault_icv (a x o : Nat) : (d.accessFault a x o).icv = d.icv := d.send_icv _
@[simp] theorem Dev.send_sage (m : FMsg) : (d.send m).sage = d.sage := by rw [d.send_eq m]
@[simp] theorem Dev.raiseL_sage (k u a x l : Nat) : (d.raiseL k u a x l).sage = d.sage := d.send_sage _
@[simp] theorem Dev.raise_sage (k u a x : Nat) : (d.raise k u a x).sage = d.sage := d.send_sage _
@[simp] theorem Dev.raiseAt_sage (k u a x s r : Nat) : (d.raiseAt k u a x s r).sage = d.sage := d.send_sage _
@[simp] theorem Dev.accessFault_sage (a x o : Nat) : (d.accessFault a x o).sage = d.sage := d.send_sage _
@[simp] theorem Dev.send_slot (m : FMsg) : (d.send m).slot = d.slot := by rw [d.send_eq m]
@[simp] theorem Dev.raiseL_slot (k u a x l : Nat) : (d.raiseL k u a x l).slot = d.slot := d.send_slot _
@[simp] theorem Dev.raise_slot (k u a x : Nat) : (d.raise k u a x).slot = d.slot := d.send_slot _
@[simp] theorem Dev.raiseAt_slot (k u a x s r : Nat) : (d.raiseAt k u a x s r).slot = d.slot := d.send_slot _
@[simp] theorem Dev.accessFault_slot (a x o : Nat) : (d.accessFault a x o).slot = d.slot := d.send_slot _
@[simp] theorem Dev.send_ring (m : FMsg) : (d.send m).ring = d.ring := by rw [d.send_eq m]
@[simp] theorem Dev.raiseL_ring (k u a x l : Nat) : (d.raiseL k u a x l).ring = d.ring := d.send_ring _
@[simp] theorem Dev.raise_ring (k u a x : Nat) : (d.raise k u a x).ring = d.ring := d.send_ring _
@[simp] theorem Dev.raiseAt_ring (k u a x s r : Nat) : (d.raiseAt k u a x s r).ring = d.ring := d.send_ring _
@[simp] theorem Dev.accessFault_ring (a x o : Nat) : (d.accessFault a x o).ring = d.ring := d.send_ring _
@[simp] theorem Dev.send_thr (m : FMsg) : (d.send m).thr = d.thr := by rw [d.send_eq m]
@[simp] theorem Dev.raiseL_thr (k u a x l : Nat) : (d.raiseL k u a x l).thr = d.thr := d.send_thr _
@[simp] theorem Dev.raise_thr (k u a x : Nat) : (d.raise k u a x).thr = d.thr := d.send_thr _
@[simp] theorem Dev.raiseAt_thr (k u a x s r : Nat) : (d.raiseAt k u a x s r).thr = d.thr := d.send_thr _
@[simp] theorem Dev.accessFault_thr (a x o : Nat) : (d.accessFault a x o).thr = d.thr := d.send_thr _
@[simp] theorem Dev.send_rq (m : FMsg) : (d.send m).rq = d.rq := by rw [d.send_eq m]
@[simp] theorem Dev.raiseL_rq (k u a x l : Nat) : (d.raiseL k u a x l).rq = d.rq := d.send_rq _
@[simp] theorem Dev.raise_rq (k u a x : Nat) : (d.raise k u a x).rq = d.rq := d.send_rq _
@[simp] theorem Dev.raiseAt_rq (k u a x s r : Nat) : (d.raiseAt k u a x s r).rq = d.rq := d.send_rq _
@[simp] theorem Dev.accessFault_rq (a x o : Nat) : (d.accessFault a x o).rq = d.rq := d.send_rq _
@[simp] theorem Dev.send_rqHi (m : FMsg) : (d.send m).rqHi = d.rqHi := by rw [d.send_eq m]
@[simp] theorem Dev.send_rqHead (m : FMsg) : (d.send m).rqHead = d.rqHead := by rw [d.send_eq m]
@[simp] theorem Dev.raiseL_rqHi (k u a x l : Nat) : (d.raiseL k u a x l).rqHi = d.rqHi := d.send_rqHi _
@[simp] theorem Dev.raiseL_rqHead (k u a x l : Nat) : (d.raiseL k u a x l).rqHead = d.rqHead := d.send_rqHead _
@[simp] theorem Dev.raise_rqHi (k u a x : Nat) : (d.raise k u a x).rqHi = d.rqHi := d.send_rqHi _
@[simp] theorem Dev.raise_rqHead (k u a x : Nat) : (d.raise k u a x).rqHead = d.rqHead := d.send_rqHead _
@[simp] theorem Dev.raiseAt_rqHi (k u a x s r : Nat) : (d.raiseAt k u a x s r).rqHi = d.rqHi := d.send_rqHi _
@[simp] theorem Dev.raiseAt_rqHead (k u a x s r : Nat) : (d.raiseAt k u a x s r).rqHead = d.rqHead := d.send_rqHead _
@[simp] theorem Dev.accessFault_rqHi (a x o : Nat) : (d.accessFault a x o).rqHi = d.rqHi := d.send_rqHi _
@[simp] theorem Dev.accessFault_rqHead (a x o : Nat) : (d.accessFault a x o).rqHead = d.rqHead := d.send_rqHead _
@[simp] theorem Dev.send_host (m : FMsg) : (d.send m).host = d.host := by rw [d.send_eq m]
@[simp] theorem Dev.raiseL_host (k u a x l : Nat) : (d.raiseL k u a x l).host = d.host := d.send_host _
@[simp] theorem Dev.raise_host (k u a x : Nat) : (d.raise k u a x).host = d.host := d.send_host _
@[simp] theorem Dev.raiseAt_host (k u a x s r : Nat) : (d.raiseAt k u a x s r).host = d.host := d.send_host _
@[simp] theorem Dev.accessFault_host (a x o : Nat) : (d.accessFault a x o).host = d.host := d.send_host _
@[simp] theorem Dev.send_vc (m : FMsg) : (d.send m).vc = d.vc := by rw [d.send_eq m]
@[simp] theorem Dev.raiseL_vc (k u a x l : Nat) : (d.raiseL k u a x l).vc = d.vc := d.send_vc _
@[simp] theorem Dev.raise_vc (k u a x : Nat) : (d.raise k u a x).vc = d.vc := d.send_vc _
@[simp] theorem Dev.raiseAt_vc (k u a x s r : Nat) : (d.raiseAt k u a x s r).vc = d.vc := d.send_vc _
@[simp] theorem Dev.accessFault_vc (a x o : Nat) : (d.accessFault a x o).vc = d.vc := d.send_vc _
@[simp] theorem Dev.send_stream (m : FMsg) : (d.send m).stream = d.stream := by rw [d.send_eq m]
@[simp] theorem Dev.raiseL_stream (k u a x l : Nat) : (d.raiseL k u a x l).stream = d.stream := d.send_stream _
@[simp] theorem Dev.raise_stream (k u a x : Nat) : (d.raise k u a x).stream = d.stream := d.send_stream _
@[simp] theorem Dev.raiseAt_stream (k u a x s r : Nat) : (d.raiseAt k u a x s r).stream = d.stream := d.send_stream _
@[simp] theorem Dev.accessFault_stream (a x o : Nat) : (d.accessFault a x o).stream = d.stream := d.send_stream _
@[simp] theorem Dev.send_tw (m : FMsg) : (d.send m).tw = d.tw := by rw [d.send_eq m]
@[simp] theorem Dev.raiseL_tw (k u a x l : Nat) : (d.raiseL k u a x l).tw = d.tw := d.send_tw _
@[simp] theorem Dev.raise_tw (k u a x : Nat) : (d.raise k u a x).tw = d.tw := d.send_tw _
@[simp] theorem Dev.raiseAt_tw (k u a x s r : Nat) : (d.raiseAt k u a x s r).tw = d.tw := d.send_tw _
@[simp] theorem Dev.accessFault_tw (a x o : Nat) : (d.accessFault a x o).tw = d.tw := d.send_tw _
@[simp] theorem Dev.send_bmc (m : FMsg) : (d.send m).bmc = d.bmc := by rw [d.send_eq m]
@[simp] theorem Dev.raiseL_bmc (k u a x l : Nat) : (d.raiseL k u a x l).bmc = d.bmc := d.send_bmc _
@[simp] theorem Dev.raise_bmc (k u a x : Nat) : (d.raise k u a x).bmc = d.bmc := d.send_bmc _
@[simp] theorem Dev.raiseAt_bmc (k u a x s r : Nat) : (d.raiseAt k u a x s r).bmc = d.bmc := d.send_bmc _
@[simp] theorem Dev.accessFault_bmc (a x o : Nat) : (d.accessFault a x o).bmc = d.bmc := d.send_bmc _
@[simp] theorem Dev.send_core (m : FMsg) : (d.send m).core = d.core := by rw [d.send_eq m]
@[simp] theorem Dev.raiseL_core (k u a x l : Nat) : (d.raiseL k u a x l).core = d.core := d.send_core _
@[simp] theorem Dev.raise_core (k u a x : Nat) : (d.raise k u a x).core = d.core := d.send_core _
@[simp] theorem Dev.raiseAt_core (k u a x s r : Nat) : (d.raiseAt k u a x s r).core = d.core := d.send_core _
@[simp] theorem Dev.accessFault_core (a x o : Nat) : (d.accessFault a x o).core = d.core := d.send_core _
@[simp] theorem Dev.send_mem (m : FMsg) : (d.send m).mem = d.mem := by rw [d.send_eq m]
@[simp] theorem Dev.raiseL_mem (k u a x l : Nat) : (d.raiseL k u a x l).mem = d.mem := d.send_mem _
@[simp] theorem Dev.raise_mem (k u a x : Nat) : (d.raise k u a x).mem = d.mem := d.send_mem _
@[simp] theorem Dev.raiseAt_mem (k u a x s r : Nat) : (d.raiseAt k u a x s r).mem = d.mem := d.send_mem _
@[simp] theorem Dev.accessFault_mem (a x o : Nat) : (d.accessFault a x o).mem = d.mem := d.send_mem _
@[simp] theorem Dev.send_keep (m : FMsg) : (d.send m).keep = d.keep := by rw [d.send_eq m]
@[simp] theorem Dev.raiseL_keep (k u a x l : Nat) : (d.raiseL k u a x l).keep = d.keep := d.send_keep _
@[simp] theorem Dev.raise_keep (k u a x : Nat) : (d.raise k u a x).keep = d.keep := d.send_keep _
@[simp] theorem Dev.raiseAt_keep (k u a x s r : Nat) : (d.raiseAt k u a x s r).keep = d.keep := d.send_keep _
@[simp] theorem Dev.accessFault_keep (a x o : Nat) : (d.accessFault a x o).keep = d.keep := d.send_keep _
@[simp] theorem Dev.send_link (m : FMsg) : (d.send m).link = d.link := by rw [d.send_eq m]
@[simp] theorem Dev.send_hw (m : FMsg) : (d.send m).hw = d.hw := by rw [d.send_eq m]
@[simp] theorem Dev.send_stg (m : FMsg) : (d.send m).stg = d.stg := by rw [d.send_eq m]
@[simp] theorem Dev.raiseL_link (k u a x l : Nat) : (d.raiseL k u a x l).link = d.link := d.send_link _
@[simp] theorem Dev.raiseL_hw (k u a x l : Nat) : (d.raiseL k u a x l).hw = d.hw := d.send_hw _
@[simp] theorem Dev.raiseL_stg (k u a x l : Nat) : (d.raiseL k u a x l).stg = d.stg := d.send_stg _
@[simp] theorem Dev.raise_link (k u a x : Nat) : (d.raise k u a x).link = d.link := d.send_link _
@[simp] theorem Dev.raise_hw (k u a x : Nat) : (d.raise k u a x).hw = d.hw := d.send_hw _
@[simp] theorem Dev.raise_stg (k u a x : Nat) : (d.raise k u a x).stg = d.stg := d.send_stg _
@[simp] theorem Dev.raiseAt_link (k u a x s r : Nat) : (d.raiseAt k u a x s r).link = d.link := d.send_link _
@[simp] theorem Dev.raiseAt_hw (k u a x s r : Nat) : (d.raiseAt k u a x s r).hw = d.hw := d.send_hw _
@[simp] theorem Dev.raiseAt_stg (k u a x s r : Nat) : (d.raiseAt k u a x s r).stg = d.stg := d.send_stg _
@[simp] theorem Dev.accessFault_link (a x o : Nat) : (d.accessFault a x o).link = d.link := d.send_link _
@[simp] theorem Dev.accessFault_hw (a x o : Nat) : (d.accessFault a x o).hw = d.hw := d.send_hw _
@[simp] theorem Dev.accessFault_stg (a x o : Nat) : (d.accessFault a x o).stg = d.stg := d.send_stg _
@[simp] theorem Dev.E_send (m : FMsg) (n : Nat) : (d.send m).E n = d.E n := by rw [d.send_eq m]; rfl
@[simp] theorem Dev.E_raiseL (k u a x l n : Nat) : (d.raiseL k u a x l).E n = d.E n := d.E_send _ n
@[simp] theorem Dev.E_raise (k u a x n : Nat) : (d.raise k u a x).E n = d.E n := d.E_send _ n
@[simp] theorem Dev.E_raiseAt (k u a x s r n : Nat) : (d.raiseAt k u a x s r).E n = d.E n := d.E_send _ n
@[simp] theorem Dev.B_send (m : FMsg) (n : Nat) : (d.send m).B n = d.B n := by rw [d.send_eq m]; rfl
@[simp] theorem Dev.B_raiseL (k u a x l n : Nat) : (d.raiseL k u a x l).B n = d.B n := d.B_send _ n
@[simp] theorem Dev.B_raise (k u a x n : Nat) : (d.raise k u a x).B n = d.B n := d.B_send _ n
@[simp] theorem Dev.B_raiseAt (k u a x s r n : Nat) : (d.raiseAt k u a x s r).B n = d.B n := d.B_send _ n
@[simp] theorem Dev.RT_send (m : FMsg) (n : Nat) : (d.send m).RT n = d.RT n := by rw [d.send_eq m]; rfl
@[simp] theorem Dev.RT_raiseL (k u a x l n : Nat) : (d.raiseL k u a x l).RT n = d.RT n := d.RT_send _ n
@[simp] theorem Dev.RT_raise (k u a x n : Nat) : (d.raise k u a x).RT n = d.RT n := d.RT_send _ n
@[simp] theorem Dev.RT_raiseAt (k u a x s r n : Nat) : (d.raiseAt k u a x s r).RT n = d.RT n := d.RT_send _ n
@[simp] theorem Dev.R_send (m : FMsg) (n : Nat) : (d.send m).R n = d.R n := by rw [d.send_eq m]; rfl
@[simp] theorem Dev.R_raiseL (k u a x l n : Nat) : (d.raiseL k u a x l).R n = d.R n := d.R_send _ n
@[simp] theorem Dev.R_raise (k u a x n : Nat) : (d.raise k u a x).R n = d.R n := d.R_send _ n
@[simp] theorem Dev.R_raiseAt (k u a x s r n : Nat) : (d.raiseAt k u a x s r).R n = d.R n := d.R_send _ n
@[simp] theorem Dev.P_send (m : FMsg) (n : Nat) : (d.send m).P n = d.P n := by rw [d.send_eq m]; rfl
@[simp] theorem Dev.P_raiseL (k u a x l n : Nat) : (d.raiseL k u a x l).P n = d.P n := d.P_send _ n
@[simp] theorem Dev.P_raise (k u a x n : Nat) : (d.raise k u a x).P n = d.P n := d.P_send _ n
@[simp] theorem Dev.P_raiseAt (k u a x s r n : Nat) : (d.raiseAt k u a x s r).P n = d.P n := d.P_send _ n
@[simp] theorem Dev.IP_send (m : FMsg) (n : Nat) : (d.send m).IP n = d.IP n := by rw [d.send_eq m]; rfl
@[simp] theorem Dev.IP_raiseL (k u a x l n : Nat) : (d.raiseL k u a x l).IP n = d.IP n := d.IP_send _ n
@[simp] theorem Dev.IP_raise (k u a x n : Nat) : (d.raise k u a x).IP n = d.IP n := d.IP_send _ n
@[simp] theorem Dev.IP_raiseAt (k u a x s r n : Nat) : (d.raiseAt k u a x s r).IP n = d.IP n := d.IP_send _ n
@[simp] theorem Dev.C_send (m : FMsg) (n : Nat) : (d.send m).C n = d.C n := by rw [d.send_eq m]; rfl
@[simp] theorem Dev.C_raiseL (k u a x l n : Nat) : (d.raiseL k u a x l).C n = d.C n := d.C_send _ n
@[simp] theorem Dev.C_raise (k u a x n : Nat) : (d.raise k u a x).C n = d.C n := d.C_send _ n
@[simp] theorem Dev.C_raiseAt (k u a x s r n : Nat) : (d.raiseAt k u a x s r).C n = d.C n := d.C_send _ n
@[simp] theorem Dev.SQ_send (m : FMsg) (n : Nat) : (d.send m).SQ n = d.SQ n := by rw [d.send_eq m]; rfl
@[simp] theorem Dev.SQ_raiseL (k u a x l n : Nat) : (d.raiseL k u a x l).SQ n = d.SQ n := d.SQ_send _ n
@[simp] theorem Dev.SQ_raise (k u a x n : Nat) : (d.raise k u a x).SQ n = d.SQ n := d.SQ_send _ n
@[simp] theorem Dev.SQ_raiseAt (k u a x s r n : Nat) : (d.raiseAt k u a x s r).SQ n = d.SQ n := d.SQ_send _ n
@[simp] theorem Dev.IC_send (m : FMsg) (n : Nat) : (d.send m).IC n = d.IC n := by rw [d.send_eq m]; rfl
@[simp] theorem Dev.IC_raiseL (k u a x l n : Nat) : (d.raiseL k u a x l).IC n = d.IC n := d.IC_send _ n
@[simp] theorem Dev.IC_raise (k u a x n : Nat) : (d.raise k u a x).IC n = d.IC n := d.IC_send _ n
@[simp] theorem Dev.IC_raiseAt (k u a x s r n : Nat) : (d.raiseAt k u a x s r).IC n = d.IC n := d.IC_send _ n
@[simp] theorem Dev.SG_send (m : FMsg) (n : Nat) : (d.send m).SG n = d.SG n := by rw [d.send_eq m]; rfl
@[simp] theorem Dev.SG_raiseL (k u a x l n : Nat) : (d.raiseL k u a x l).SG n = d.SG n := d.SG_send _ n
@[simp] theorem Dev.SG_raise (k u a x n : Nat) : (d.raise k u a x).SG n = d.SG n := d.SG_send _ n
@[simp] theorem Dev.SG_raiseAt (k u a x s r n : Nat) : (d.raiseAt k u a x s r).SG n = d.SG n := d.SG_send _ n
@[simp] theorem Dev.SL_send (m : FMsg) (n : Nat) : (d.send m).SL n = d.SL n := by rw [d.send_eq m]; rfl
@[simp] theorem Dev.SL_raiseL (k u a x l n : Nat) : (d.raiseL k u a x l).SL n = d.SL n := d.SL_send _ n
@[simp] theorem Dev.SL_raise (k u a x n : Nat) : (d.raise k u a x).SL n = d.SL n := d.SL_send _ n
@[simp] theorem Dev.SL_raiseAt (k u a x s r n : Nat) : (d.raiseAt k u a x s r).SL n = d.SL n := d.SL_send _ n
@[simp] theorem Dev.RG_send (m : FMsg) (n : Nat) : (d.send m).RG n = d.RG n := by rw [d.send_eq m]; rfl
@[simp] theorem Dev.RG_raiseL (k u a x l n : Nat) : (d.raiseL k u a x l).RG n = d.RG n := d.RG_send _ n
@[simp] theorem Dev.RG_raise (k u a x n : Nat) : (d.raise k u a x).RG n = d.RG n := d.RG_send _ n
@[simp] theorem Dev.RG_raiseAt (k u a x s r n : Nat) : (d.raiseAt k u a x s r).RG n = d.RG n := d.RG_send _ n
@[simp] theorem Dev.T_send (m : FMsg) (n : Nat) : (d.send m).T n = d.T n := by rw [d.send_eq m]; rfl
@[simp] theorem Dev.T_raiseL (k u a x l n : Nat) : (d.raiseL k u a x l).T n = d.T n := d.T_send _ n
@[simp] theorem Dev.T_raise (k u a x n : Nat) : (d.raise k u a x).T n = d.T n := d.T_send _ n
@[simp] theorem Dev.T_raiseAt (k u a x s r n : Nat) : (d.raiseAt k u a x s r).T n = d.T n := d.T_send _ n
@[simp] theorem Dev.Q_send (m : FMsg) (n : Nat) : (d.send m).Q n = d.Q n := by rw [d.send_eq m]; rfl
@[simp] theorem Dev.Q_raiseL (k u a x l n : Nat) : (d.raiseL k u a x l).Q n = d.Q n := d.Q_send _ n
@[simp] theorem Dev.Q_raise (k u a x n : Nat) : (d.raise k u a x).Q n = d.Q n := d.Q_send _ n
@[simp] theorem Dev.Q_raiseAt (k u a x s r n : Nat) : (d.raiseAt k u a x s r).Q n = d.Q n := d.Q_send _ n
@[simp] theorem Dev.V_send (m : FMsg) (n : Nat) : (d.send m).V n = d.V n := by rw [d.send_eq m]; rfl
@[simp] theorem Dev.V_raiseL (k u a x l n : Nat) : (d.raiseL k u a x l).V n = d.V n := d.V_send _ n
@[simp] theorem Dev.V_raise (k u a x n : Nat) : (d.raise k u a x).V n = d.V n := d.V_send _ n
@[simp] theorem Dev.V_raiseAt (k u a x s r n : Nat) : (d.raiseAt k u a x s r).V n = d.V n := d.V_send _ n
@[simp] theorem Dev.W_send (m : FMsg) (n : Nat) : (d.send m).W n = d.W n := by rw [d.send_eq m]; rfl
@[simp] theorem Dev.W_raiseL (k u a x l n : Nat) : (d.raiseL k u a x l).W n = d.W n := d.W_send _ n
@[simp] theorem Dev.W_raise (k u a x n : Nat) : (d.raise k u a x).W n = d.W n := d.W_send _ n
@[simp] theorem Dev.W_raiseAt (k u a x s r n : Nat) : (d.raiseAt k u a x s r).W n = d.W n := d.W_send _ n
@[simp] theorem Dev.K_send (m : FMsg) (n : Nat) : (d.send m).K n = d.K n := by rw [d.send_eq m]; rfl
@[simp] theorem Dev.K_raiseL (k u a x l n : Nat) : (d.raiseL k u a x l).K n = d.K n := d.K_send _ n
@[simp] theorem Dev.K_raise (k u a x n : Nat) : (d.raise k u a x).K n = d.K n := d.K_send _ n
@[simp] theorem Dev.K_raiseAt (k u a x s r n : Nat) : (d.raiseAt k u a x s r).K n = d.K n := d.K_send _ n

end Sys2Proof.Machine
end

