-- ==== Sys2Proof/Laws/Ops.lean ====
section
/-! SUPPORT. What the shared operations do: fault messages, event bits, state changes of channels. -/

namespace Sys2Proof.Machine

variable (d : Dev)

/-! ## Messages -/

theorem mem_insertMsg (m : FMsg) (l : List FMsg) : m ∈ insertMsg m l := by
  induction l with
  | nil => simp [insertMsg]
  | cons x r ih =>
    simp only [insertMsg]
    split
    · exact List.mem_cons_self
    · exact List.mem_cons_of_mem _ ih

/-- A message that is sent is on its way. -/
theorem Dev.reports_send (m : FMsg) : (d.send m).Reports m.kind m.unit := by
  unfold Dev.send
  split
  · exact .inl ⟨m, mem_insertMsg m _, rfl, rfl⟩
  · next die hd =>
    split
    · exact .inl ⟨m, mem_insertMsg m _, rfl, rfl⟩
    · dsimp only
      split
      · refine .inr ⟨die, hd, .inl ?_⟩
        simp only [KV.get_put_same, List.mem_append, List.mem_singleton]
        exact ⟨_, .inr rfl, rfl, rfl⟩
      · next h => exact .inr ⟨die, hd, .inr (by simpa using h)⟩

@[simp] theorem Dev.reports_raiseL (k u a x l : Nat) : (d.raiseL k u a x l).Reports k u := d.reports_send _
@[simp] theorem Dev.reports_raise (k u a x : Nat) : (d.raise k u a x).Reports k u := d.reports_send _
@[simp] theorem Dev.reports_raiseAt (k u a x s r : Nat) : (d.raiseAt k u a x s r).Reports k u := d.reports_send _
@[simp] theorem Dev.reports_accessFault (a x o : Nat) : (d.accessFault a x o).Reports 0x70 a := d.reports_send _
@[simp] theorem Dev.reports_tripMsg (k u a x l f : Nat) (s c : Bool) : (d.tripMsg k u a x l f s c).Reports k u := d.reports_send _
@[simp] theorem Dev.reports_wr (f : Fld) (v k u : Nat) : (d.wr f v).Reports k u ↔ d.Reports k u := Iff.rfl
@[simp] theorem Dev.reports_evt (f : Fld) (v k u : Nat) : (d.evt f v).Reports k u ↔ d.Reports k u := Iff.rfl

@[simp] theorem Dev.reports_onE (n : Nat) (g) (k u : Nat) : (d.onE n g).Reports k u ↔ d.Reports k u := Iff.rfl
@[simp] theorem Dev.reports_onB (n : Nat) (g) (k u : Nat) : (d.onB n g).Reports k u ↔ d.Reports k u := Iff.rfl
@[simp] theorem Dev.reports_onRT (n : Nat) (g) (k u : Nat) : (d.onRT n g).Reports k u ↔ d.Reports k u := Iff.rfl
@[simp] theorem Dev.reports_onR (n : Nat) (g) (k u : Nat) : (d.onR n g).Reports k u ↔ d.Reports k u := Iff.rfl
@[simp] theorem Dev.reports_onP (n : Nat) (g) (k u : Nat) : (d.onP n g).Reports k u ↔ d.Reports k u := Iff.rfl
@[simp] theorem Dev.reports_onIP (n : Nat) (g) (k u : Nat) : (d.onIP n g).Reports k u ↔ d.Reports k u := Iff.rfl
@[simp] theorem Dev.reports_onC (n : Nat) (g) (k u : Nat) : (d.onC n g).Reports k u ↔ d.Reports k u := Iff.rfl
@[simp] theorem Dev.reports_onSQ (n : Nat) (g) (k u : Nat) : (d.onSQ n g).Reports k u ↔ d.Reports k u := Iff.rfl
@[simp] theorem Dev.reports_onIC (n : Nat) (g) (k u : Nat) : (d.onIC n g).Reports k u ↔ d.Reports k u := Iff.rfl
@[simp] theorem Dev.reports_onSG (n : Nat) (g) (k u : Nat) : (d.onSG n g).Reports k u ↔ d.Reports k u := Iff.rfl
@[simp] theorem Dev.reports_onSL (n : Nat) (g) (k u : Nat) : (d.onSL n g).Reports k u ↔ d.Reports k u := Iff.rfl
@[simp] theorem Dev.reports_onRG (n : Nat) (g) (k u : Nat) : (d.onRG n g).Reports k u ↔ d.Reports k u := Iff.rfl
@[simp] theorem Dev.reports_onT (n : Nat) (g) (k u : Nat) : (d.onT n g).Reports k u ↔ d.Reports k u := Iff.rfl
@[simp] theorem Dev.reports_onQ (n : Nat) (g) (k u : Nat) : (d.onQ n g).Reports k u ↔ d.Reports k u := Iff.rfl
@[simp] theorem Dev.reports_onV (n : Nat) (g) (k u : Nat) : (d.onV n g).Reports k u ↔ d.Reports k u := Iff.rfl
@[simp] theorem Dev.reports_onW (n : Nat) (g) (k u : Nat) : (d.onW n g).Reports k u ↔ d.Reports k u := Iff.rfl
@[simp] theorem Dev.reports_onK (n : Nat) (g) (k u : Nat) : (d.onK n g).Reports k u ↔ d.Reports k u := Iff.rfl

/-! ## Event bits -/

theorem testBit_setBit (v b : Nat) : (setBit v b).testBit b = true := by simp [setBit, Nat.testBit_or, Nat.testBit_two_pow_self]

/-- An event bit that is set reads 1. -/
theorem Dev.testBit_evt (f : Fld) (b : Nat) (hb : b < f.len) (hf : f.lo + f.len ≤ 32) : ((d.evt f b).rd f).testBit b = true := by
  rw [d.rd_evt, d.rd_wr_same _ _ hf, Nat.testBit_mod_two_pow, testBit_setBit]
  simpa using hb

theorem Dev.word_evt_ne (f : Fld) (b : Nat) {o : Nat} (h : o ≠ f.off) : (d.evt f b).word o = d.word o := d.word_wr_ne _ _ h

theorem Dev.word_bump_ne (f : Fld) (k : Nat) {o : Nat} (h : o ≠ f.off) : (d.bump f k).word o = d.word o := d.word_wr_ne _ _ h

/-! ## Trip messages -/

@[simp] theorem Dev.rd_tripMsg (k u a x l f : Nat) (s c : Bool) (g : Fld) : (d.tripMsg k u a x l f s c).rd g = d.rd g := d.rd_send _ g
@[simp] theorem Dev.word_tripMsg (k u a x l f : Nat) (s c : Bool) (p : Nat) : (d.tripMsg k u a x l f s c).word p = d.word p := d.word_send _ p
@[simp] theorem Dev.tripMsg_regs (k u a x l f : Nat) (s c : Bool) : (d.tripMsg k u a x l f s c).regs = d.regs := d.send_regs _
@[simp] theorem Dev.tripMsg_clk (k u a x l f : Nat) (s c : Bool) : (d.tripMsg k u a x l f s c).clk = d.clk := d.send_clk _
@[simp] theorem Dev.tripMsg_mode (k u a x l f : Nat) (s c : Bool) : (d.tripMsg k u a x l f s c).mode = d.mode := d.send_mode _
@[simp] theorem Dev.tripMsg_ent (k u a x l f : Nat) (s c : Bool) : (d.tripMsg k u a x l f s c).ent = d.ent := d.send_ent _
@[simp] theorem Dev.tripMsg_br (k u a x l f : Nat) (s c : Bool) : (d.tripMsg k u a x l f s c).br = d.br := d.send_br _
@[simp] theorem Dev.tripMsg_retry (k u a x l f : Nat) (s c : Bool) : (d.tripMsg k u a x l f s c).retry = d.retry := d.send_retry _
@[simp] theorem Dev.tripMsg_rail (k u a x l f : Nat) (s c : Bool) : (d.tripMsg k u a x l f s c).rail = d.rail := d.send_rail _
@[simp] theorem Dev.tripMsg_ph (k u a x l f : Nat) (s c : Bool) : (d.tripMsg k u a x l f s c).ph = d.ph := d.send_ph _
@[simp] theorem Dev.tripMsg_port (k u a x l f : Nat) (s c : Bool) : (d.tripMsg k u a x l f s c).port = d.port := d.send_port _
@[simp] theorem Dev.tripMsg_conv (k u a x l f : Nat) (s c : Bool) : (d.tripMsg k u a x l f s c).conv = d.conv := d.send_conv _
@[simp] theorem Dev.tripMsg_scv (k u a x l f : Nat) (s c : Bool) : (d.tripMsg k u a x l f s c).scv = d.scv := d.send_scv _
@[simp] theorem Dev.tripMsg_icv (k u a x l f : Nat) (s c : Bool) : (d.tripMsg k u a x l f s c).icv = d.icv := d.send_icv _
@[simp] theorem Dev.tripMsg_sage (k u a x l f : Nat) (s c : Bool) : (d.tripMsg k u a x l f s c).sage = d.sage := d.send_sage _
@[simp] theorem Dev.tripMsg_slot (k u a x l f : Nat) (s c : Bool) : (d.tripMsg k u a x l f s c).slot = d.slot := d.send_slot _
@[simp] theorem Dev.tripMsg_ring (k u a x l f : Nat) (s c : Bool) : (d.tripMsg k u a x l f s c).ring = d.ring := d.send_ring _
@[simp] theorem Dev.tripMsg_thr (k u a x l f : Nat) (s c : Bool) : (d.tripMsg k u a x l f s c).thr = d.thr := d.send_thr _
@[simp] theorem Dev.tripMsg_rq (k u a x l f : Nat) (s c : Bool) : (d.tripMsg k u a x l f s c).rq = d.rq := d.send_rq _
@[simp] theorem Dev.tripMsg_rqHi (k u a x l f : Nat) (s c : Bool) : (d.tripMsg k u a x l f s c).rqHi = d.rqHi := d.send_rqHi _
@[simp] theorem Dev.tripMsg_host (k u a x l f : Nat) (s c : Bool) : (d.tripMsg k u a x l f s c).host = d.host := d.send_host _
@[simp] theorem Dev.tripMsg_vc (k u a x l f : Nat) (s c : Bool) : (d.tripMsg k u a x l f s c).vc = d.vc := d.send_vc _
@[simp] theorem Dev.tripMsg_stream (k u a x l f : Nat) (s c : Bool) : (d.tripMsg k u a x l f s c).stream = d.stream := d.send_stream _
@[simp] theorem Dev.tripMsg_tw (k u a x l f : Nat) (s c : Bool) : (d.tripMsg k u a x l f s c).tw = d.tw := d.send_tw _
@[simp] theorem Dev.tripMsg_bmc (k u a x l f : Nat) (s c : Bool) : (d.tripMsg k u a x l f s c).bmc = d.bmc := d.send_bmc _
@[simp] theorem Dev.tripMsg_core (k u a x l f : Nat) (s c : Bool) : (d.tripMsg k u a x l f s c).core = d.core := d.send_core _
@[simp] theorem Dev.tripMsg_mem (k u a x l f : Nat) (s c : Bool) : (d.tripMsg k u a x l f s c).mem = d.mem := d.send_mem _
@[simp] theorem Dev.tripMsg_keep (k u a x l f : Nat) (s c : Bool) : (d.tripMsg k u a x l f s c).keep = d.keep := d.send_keep _
@[simp] theorem Dev.tripMsg_link (k u a x l f : Nat) (s c : Bool) : (d.tripMsg k u a x l f s c).link = d.link := d.send_link _
@[simp] theorem Dev.tripMsg_hw (k u a x l f : Nat) (s c : Bool) : (d.tripMsg k u a x l f s c).hw = d.hw := d.send_hw _
@[simp] theorem Dev.tripMsg_stg (k u a x l f : Nat) (s c : Bool) : (d.tripMsg k u a x l f s c).stg = d.stg := d.send_stg _
@[simp] theorem Dev.E_tripMsg (k u a x l f : Nat) (s c : Bool) (n : Nat) : (d.tripMsg k u a x l f s c).E n = d.E n := d.E_send _ n
@[simp] theorem Dev.B_tripMsg (k u a x l f : Nat) (s c : Bool) (n : Nat) : (d.tripMsg k u a x l f s c).B n = d.B n := d.B_send _ n
@[simp] theorem Dev.RT_tripMsg (k u a x l f : Nat) (s c : Bool) (n : Nat) : (d.tripMsg k u a x l f s c).RT n = d.RT n := d.RT_send _ n
@[simp] theorem Dev.R_tripMsg (k u a x l f : Nat) (s c : Bool) (n : Nat) : (d.tripMsg k u a x l f s c).R n = d.R n := d.R_send _ n
@[simp] theorem Dev.P_tripMsg (k u a x l f : Nat) (s c : Bool) (n : Nat) : (d.tripMsg k u a x l f s c).P n = d.P n := d.P_send _ n
@[simp] theorem Dev.IP_tripMsg (k u a x l f : Nat) (s c : Bool) (n : Nat) : (d.tripMsg k u a x l f s c).IP n = d.IP n := d.IP_send _ n
@[simp] theorem Dev.C_tripMsg (k u a x l f : Nat) (s c : Bool) (n : Nat) : (d.tripMsg k u a x l f s c).C n = d.C n := d.C_send _ n
@[simp] theorem Dev.SQ_tripMsg (k u a x l f : Nat) (s c : Bool) (n : Nat) : (d.tripMsg k u a x l f s c).SQ n = d.SQ n := d.SQ_send _ n
@[simp] theorem Dev.IC_tripMsg (k u a x l f : Nat) (s c : Bool) (n : Nat) : (d.tripMsg k u a x l f s c).IC n = d.IC n := d.IC_send _ n
@[simp] theorem Dev.SG_tripMsg (k u a x l f : Nat) (s c : Bool) (n : Nat) : (d.tripMsg k u a x l f s c).SG n = d.SG n := d.SG_send _ n
@[simp] theorem Dev.SL_tripMsg (k u a x l f : Nat) (s c : Bool) (n : Nat) : (d.tripMsg k u a x l f s c).SL n = d.SL n := d.SL_send _ n
@[simp] theorem Dev.RG_tripMsg (k u a x l f : Nat) (s c : Bool) (n : Nat) : (d.tripMsg k u a x l f s c).RG n = d.RG n := d.RG_send _ n
@[simp] theorem Dev.T_tripMsg (k u a x l f : Nat) (s c : Bool) (n : Nat) : (d.tripMsg k u a x l f s c).T n = d.T n := d.T_send _ n
@[simp] theorem Dev.Q_tripMsg (k u a x l f : Nat) (s c : Bool) (n : Nat) : (d.tripMsg k u a x l f s c).Q n = d.Q n := d.Q_send _ n
@[simp] theorem Dev.V_tripMsg (k u a x l f : Nat) (s c : Bool) (n : Nat) : (d.tripMsg k u a x l f s c).V n = d.V n := d.V_send _ n
@[simp] theorem Dev.W_tripMsg (k u a x l f : Nat) (s c : Bool) (n : Nat) : (d.tripMsg k u a x l f s c).W n = d.W n := d.W_send _ n
@[simp] theorem Dev.K_tripMsg (k u a x l f : Nat) (s c : Bool) (n : Nat) : (d.tripMsg k u a x l f s c).K n = d.K n := d.K_send _ n

end Sys2Proof.Machine
end

