-- ==== Sys2Proof/Laws/Tartan.lean ====
section
/-! SUPPORT. What the Tartan code's accesses to a table leave as it was: a write of a table's granule touches the memory, the fault
messages and MEM_EVT alone, and nothing at all while no granule is damaged and no bank of it is offline (16_memory_protection.md
R430-R437). -/

namespace Sys2Proof.Machine

variable (d : Dev)

/-- `t` differs from `d` in registers, memories and fault messages alone. -/
def Dev.MemParts (d t : Dev) : Prop := ∃ r h m f, t = { d with regs := r, hw := h, mem := m, flt := f }

/-- `t` differs from `d` in the damage masks of the memories, the fault messages and MEM_EVT alone. -/
structure Dev.MemOnly (d t : Dev) : Prop where
  parts : d.MemParts t
  word : ∀ o, o ≠ MEM_EVT.EVT.off → t.word o = d.word o
  data : t.mem.data = d.mem.data

variable {d} {t u : Dev}

theorem Dev.MemParts.refl : d.MemParts d := ⟨d.regs, d.hw, d.mem, d.flt, rfl⟩

theorem Dev.MemParts.trans (h : d.MemParts t) (k : t.MemParts u) : d.MemParts u := by
  obtain ⟨r, w, m, f, e⟩ := h
  obtain ⟨r', w', m', f', e'⟩ := k
  exact ⟨r', w', m', f', by rw [e', e]⟩

theorem Dev.MemParts.forL {α : Type} (l : List α) (f : Dev → α → Dev) (h : ∀ t a, d.MemParts t → d.MemParts (f t a)) :
    ∀ {t : Dev}, d.MemParts t → d.MemParts (t.forL l f) := by
  induction l with
  | nil => exact fun ht => ht
  | cons a l ih => exact fun ht => ih (h _ a ht)

theorem Dev.MemOnly.refl : d.MemOnly d := ⟨⟨d.regs, d.hw, d.mem, d.flt, rfl⟩, fun _ _ => rfl, rfl⟩

theorem Dev.MemOnly.trans (h : d.MemOnly t) (k : t.MemOnly u) : d.MemOnly u :=
  ⟨h.parts.trans k.parts, fun o ho => (k.word o ho).trans (h.word o ho), k.data.trans h.data⟩

theorem Dev.MemOnly.forL {α : Type} (l : List α) (f : Dev → α → Dev) (h : ∀ t a, d.MemOnly t → d.MemOnly (f t a)) :
    ∀ {t : Dev}, d.MemOnly t → d.MemOnly (t.forL l f) := by
  induction l with
  | nil => exact fun ht => ht
  | cons a l ih => exact fun ht => ih (h _ a ht)

theorem Dev.MemOnly.setMask (h : d.MemOnly t) (b g : Nat) (e : BitVec 80) : d.MemOnly (t.setMask b g e) :=
  h.trans ⟨⟨t.regs, t.hw, _, t.flt, rfl⟩, fun _ _ => rfl, rfl⟩

theorem Dev.MemOnly.reMask (h : d.MemOnly t) (b g v : Nat) : d.MemOnly (t.reMask b g v) := by
  unfold Dev.reMask
  exact forL _ _ (fun t c ht => ht.setMask c g _) h

theorem Dev.MemOnly.send (h : d.MemOnly t) (m : FMsg) : d.MemOnly (t.send m) :=
  h.trans ⟨⟨t.regs, t.hw, t.mem, (t.send m).flt, t.send_eq m⟩, fun o _ => by rw [t.send_eq m]; rfl, by rw [t.send_eq m]⟩

theorem Dev.MemOnly.evt (h : d.MemOnly t) (k : Nat) : d.MemOnly (t.evt MEM_EVT.EVT k) :=
  h.trans ⟨⟨_, _, t.mem, t.flt, rfl⟩, fun _ ho => t.word_wr_ne MEM_EVT.EVT _ ho, rfl⟩

theorem Dev.MemOnly.memCe (h : d.MemOnly t) (b g agent access : Nat) : d.MemOnly (t.memCe b g agent access) :=
  (h.evt 0).send _

variable (d)

/-- What a write of a table word does to its granule: nothing but a new mask, and what a correction or a merge that fails reports. -/
theorem Dev.tabMem_memOnly (agent off : Nat) (w : Word) : d.MemOnly (d.tabMem agent off w) := by
  unfold Dev.tabMem
  have step : ∀ {t : Dev} (l : List Nat) (m : Dev → Nat → BitVec 80) (g : Nat), d.MemOnly t →
      d.MemOnly (t.forL l fun d c => d.setMask c g (m d c)) :=
    fun l m g h => Dev.MemOnly.forL l _ (fun t c ht => ht.setMask c g _) h
  split
  · exact .refl
  · split
    · exact .refl
    · dsimp only
      split
      · split
        · exact (step _ (fun _ _ => _) _ (Dev.MemOnly.refl.reMask _ _ _)).memCe _ _ _ _
        · exact step _ (fun _ _ => _) _ (Dev.MemOnly.refl.reMask _ _ _)
      · split
        · exact (step _ (fun _ _ => _) _ (Dev.MemOnly.refl.reMask _ _ _)).memCe _ _ _ _
        · split
          · exact Dev.MemOnly.refl.reMask _ _ _
          · exact ((Dev.MemOnly.refl.reMask _ _ _).evt 2).send _

variable {d}

theorem Dev.MemParts.setMask (h : d.MemParts t) (b g : Nat) (e : BitVec 80) : d.MemParts (t.setMask b g e) :=
  h.trans ⟨t.regs, t.hw, _, t.flt, rfl⟩

theorem Dev.MemParts.setWord (h : d.MemParts t) (o : Nat) (w : Word) : d.MemParts (t.setWord o w) :=
  h.trans ⟨_, t.hw, t.mem, t.flt, rfl⟩

theorem Dev.MemParts.reMask (h : d.MemParts t) (b g v : Nat) : d.MemParts (t.reMask b g v) :=
  forL _ _ (fun _ _ ht => ht.setMask _ _ _) h

theorem Dev.MemParts.putWords (h : d.MemParts t) (b g v : Nat) : d.MemParts (t.putWords b g v) := by
  unfold Dev.putWords
  split
  · exact forL _ _ (fun u k hu => hu.trans ⟨u.regs, u.hw, _, u.flt, rfl⟩) h
  · refine forL _ _ (fun u k hu => ?_) h
    split
    · exact hu
    · exact hu.setWord _ _

theorem Dev.MemParts.putGran (h : d.MemParts t) (b g v : Nat) : d.MemParts (t.putGran b g v) := by
  unfold Dev.putGran
  split
  · exact (h.setMask _ _ _).putWords _ _ _
  · exact h.setMask _ _ _

theorem Dev.MemParts.report (h : d.MemParts t) (k : Nat) (m : FMsg) : d.MemParts ((t.evt MEM_EVT.EVT k).send m) :=
  h.trans ((Dev.MemOnly.refl.evt k).send m).parts

theorem Dev.MemParts.memUe (h : d.MemParts t) (b g agent access : Nat) : d.MemParts (t.memUe b g agent access) := by
  unfold Dev.memUe Dev.raiseAt
  have e : d.MemParts ((t.evt MEM_EVT.EVT 1).setBankOff b true) :=
    h.trans ((Dev.MemOnly.refl.evt 1).parts.trans ⟨_, (t.evt MEM_EVT.EVT 1).hw, (t.evt MEM_EVT.EVT 1).mem, (t.evt MEM_EVT.EVT 1).flt, rfl⟩)
  exact e.trans (Dev.MemOnly.refl.send _).parts

theorem Dev.MemParts.readCopy (h : d.MemParts t) (b g agent access : Nat) : d.MemParts (t.readCopy b g agent access).1 := by
  unfold Dev.readCopy
  split
  · exact h
  · exact h
  · exact (h.putGran _ _ _).report _ _

theorem Dev.MemParts.readGran (h : d.MemParts t) (b g agent access : Nat) : d.MemParts (t.readGran b g agent access).1 := by
  have rc : ∀ c, d.MemParts (t.readCopy c g agent access).1 := fun c => h.readCopy c g agent access
  unfold Dev.readGran
  split
  · split
    · exact h
    · split
      · next e => have := rc b; rw [e] at this; exact this
      · next e => have := rc b; rw [e] at this; exact this.memUe _ _ _ _
  · split
    · split
      · exact h
      · next p _ _ _ =>
        have hp := rc p
        split
        · next e => rw [e] at hp; exact hp
        · next e => rw [e] at hp; exact hp.memUe _ _ _ _
    · split
      · next e => have := rc b; rw [e] at this; exact this
      · next e =>
        have hd := rc b
        rw [e] at hd
        dsimp only at hd
        split
        · exact hd.memUe _ _ _ _
        · split
          · exact ((hd.putGran _ _ _).putGran _ _ _).report _ _
          · exact hd.memUe _ _ _ _

variable (d)

/-- What a unit's use of table words does: what reading their granules does. -/
theorem Dev.tabUse_parts (agent b o len : Nat) : d.MemParts (d.tabUse agent b o len) := by
  unfold Dev.tabUse
  split
  · exact .refl
  · refine Dev.MemParts.forL _ _ (fun t k ht => ?_) .refl
    have hr := ht.readGran b (o / 8 + k) agent 1
    split
    · next e => rw [e] at hr; exact hr
    · next e =>
      rw [e] at hr
      split
      · exact hr
      · exact (hr.reMask _ _ _).putWords _ _ _

theorem Dev.tabRead_parts (agent off len n : Nat) : d.MemParts (d.tabRead agent off len n) := by
  unfold Dev.tabRead
  split
  · exact .refl
  · exact d.tabUse_parts _ _ _ _

theorem Dev.twr_parts (agent : Nat) (f : Fld) (v : Nat) : d.MemParts (d.twr agent f v) :=
  (d.tabMem_memOnly _ _ _).parts.trans ⟨_, _, _, _, rfl⟩

theorem Dev.tbump_parts (agent : Nat) (f : Fld) (k : Nat) : d.MemParts (d.tbump agent f k) :=
  (d.tabMem_memOnly _ _ _).parts.trans ⟨_, _, _, _, rfl⟩

/-- A table with no damage and no bank offline: a write of its words changes no mask and reports nothing. -/
theorem Dev.tabMem_calm {agent off b o : Nat} (w : Word) (h : tablePlace off = some (b, o)) (c : d.tabCalm b = true) :
    d.tabMem agent off w = d := by simp [Dev.tabMem, h, c]

/-- A unit's write of a field of such a table is a plain write. -/
theorem Dev.twr_calm {agent b o : Nat} (f : Fld) (v : Nat) (h : tablePlace f.off = some (b, o)) (c : d.tabCalm b = true) :
    d.twr agent f v = d.wr f v := by simp [Dev.twr, d.tabMem_calm _ h c]

/-- No field is read from a damaged memory: the tables read as they stand. -/
theorem Dev.tabUse_clean (agent b o len : Nat) (h : d.mem.err = []) : d.tabUse agent b o len = d := by simp [Dev.tabUse, h]

theorem Dev.tabRead_clean (agent off len n : Nat) (h : d.mem.err = []) : d.tabRead agent off len n = d := by
  unfold Dev.tabRead
  split
  · rfl
  · exact d.tabUse_clean _ _ _ _ h

/-- The field a unit writes reads so afterwards, in its width. -/
theorem Dev.rd_twr_same (agent : Nat) (f : Fld) (v : Nat) (h : f.lo + f.len ≤ 32) : (d.twr agent f v).rd f = v % 2 ^ f.len :=
  Dev.rd_wr_same _ f v h

/-- A word that is neither the one written nor MEM_EVT. -/
theorem Dev.word_twr_ne (agent : Nat) (f : Fld) (v : Nat) {o : Nat} (h : o ≠ f.off) (k : o ≠ MEM_EVT.EVT.off) :
    (d.twr agent f v).word o = d.word o := by
  rw [Dev.twr, Dev.word_wr_ne _ f v h, (d.tabMem_memOnly _ _ _).word o k]

end Sys2Proof.Machine
end

