-- ==== Sys2Proof/Laws/Frames.lean ====
section
/-! SUPPORT. What each shared operation leaves as it was: the parts of the block it does not touch. -/

namespace Sys2Proof.Machine

variable (d : Dev)


/-! ## `tabUse` -/

@[simp] theorem Dev.tabUse_clk (a b o l : Nat) : (d.tabUse a b o l).clk = d.clk := by
  obtain ⟨_, _, _, _, e⟩ := d.tabUse_parts a b o l; rw [e]
@[simp] theorem Dev.tabUse_mode (a b o l : Nat) : (d.tabUse a b o l).mode = d.mode := by
  obtain ⟨_, _, _, _, e⟩ := d.tabUse_parts a b o l; rw [e]
@[simp] theorem Dev.tabUse_ent (a b o l : Nat) : (d.tabUse a b o l).ent = d.ent := by
  obtain ⟨_, _, _, _, e⟩ := d.tabUse_parts a b o l; rw [e]
@[simp] theorem Dev.tabUse_br (a b o l : Nat) : (d.tabUse a b o l).br = d.br := by
  obtain ⟨_, _, _, _, e⟩ := d.tabUse_parts a b o l; rw [e]
@[simp] theorem Dev.tabUse_retry (a b o l : Nat) : (d.tabUse a b o l).retry = d.retry := by
  obtain ⟨_, _, _, _, e⟩ := d.tabUse_parts a b o l; rw [e]
@[simp] theorem Dev.tabUse_rail (a b o l : Nat) : (d.tabUse a b o l).rail = d.rail := by
  obtain ⟨_, _, _, _, e⟩ := d.tabUse_parts a b o l; rw [e]
@[simp] theorem Dev.tabUse_ph (a b o l : Nat) : (d.tabUse a b o l).ph = d.ph := by
  obtain ⟨_, _, _, _, e⟩ := d.tabUse_parts a b o l; rw [e]
@[simp] theorem Dev.tabUse_port (a b o l : Nat) : (d.tabUse a b o l).port = d.port := by
  obtain ⟨_, _, _, _, e⟩ := d.tabUse_parts a b o l; rw [e]
@[simp] theorem Dev.tabUse_conv (a b o l : Nat) : (d.tabUse a b o l).conv = d.conv := by
  obtain ⟨_, _, _, _, e⟩ := d.tabUse_parts a b o l; rw [e]
@[simp] theorem Dev.tabUse_scv (a b o l : Nat) : (d.tabUse a b o l).scv = d.scv := by
  obtain ⟨_, _, _, _, e⟩ := d.tabUse_parts a b o l; rw [e]
@[simp] theorem Dev.tabUse_icv (a b o l : Nat) : (d.tabUse a b o l).icv = d.icv := by
  obtain ⟨_, _, _, _, e⟩ := d.tabUse_parts a b o l; rw [e]
@[simp] theorem Dev.tabUse_sage (a b o l : Nat) : (d.tabUse a b o l).sage = d.sage := by
  obtain ⟨_, _, _, _, e⟩ := d.tabUse_parts a b o l; rw [e]
@[simp] theorem Dev.tabUse_slot (a b o l : Nat) : (d.tabUse a b o l).slot = d.slot := by
  obtain ⟨_, _, _, _, e⟩ := d.tabUse_parts a b o l; rw [e]
@[simp] theorem Dev.tabUse_ring (a b o l : Nat) : (d.tabUse a b o l).ring = d.ring := by
  obtain ⟨_, _, _, _, e⟩ := d.tabUse_parts a b o l; rw [e]
@[simp] theorem Dev.tabUse_thr (a b o l : Nat) : (d.tabUse a b o l).thr = d.thr := by
  obtain ⟨_, _, _, _, e⟩ := d.tabUse_parts a b o l; rw [e]
@[simp] theorem Dev.tabUse_rq (a b o l : Nat) : (d.tabUse a b o l).rq = d.rq := by
  obtain ⟨_, _, _, _, e⟩ := d.tabUse_parts a b o l; rw [e]
@[simp] theorem Dev.tabUse_rqHi (a b o l : Nat) : (d.tabUse a b o l).rqHi = d.rqHi := by
  obtain ⟨_, _, _, _, e⟩ := d.tabUse_parts a b o l; rw [e]
@[simp] theorem Dev.tabUse_rqHead (a b o l : Nat) : (d.tabUse a b o l).rqHead = d.rqHead := by
  obtain ⟨_, _, _, _, e⟩ := d.tabUse_parts a b o l; rw [e]
@[simp] theorem Dev.tabUse_host (a b o l : Nat) : (d.tabUse a b o l).host = d.host := by
  obtain ⟨_, _, _, _, e⟩ := d.tabUse_parts a b o l; rw [e]
@[simp] theorem Dev.tabUse_vc (a b o l : Nat) : (d.tabUse a b o l).vc = d.vc := by
  obtain ⟨_, _, _, _, e⟩ := d.tabUse_parts a b o l; rw [e]
@[simp] theorem Dev.tabUse_stream (a b o l : Nat) : (d.tabUse a b o l).stream = d.stream := by
  obtain ⟨_, _, _, _, e⟩ := d.tabUse_parts a b o l; rw [e]
@[simp] theorem Dev.tabUse_tw (a b o l : Nat) : (d.tabUse a b o l).tw = d.tw := by
  obtain ⟨_, _, _, _, e⟩ := d.tabUse_parts a b o l; rw [e]
@[simp] theorem Dev.tabUse_bmc (a b o l : Nat) : (d.tabUse a b o l).bmc = d.bmc := by
  obtain ⟨_, _, _, _, e⟩ := d.tabUse_parts a b o l; rw [e]
@[simp] theorem Dev.tabUse_core (a b o l : Nat) : (d.tabUse a b o l).core = d.core := by
  obtain ⟨_, _, _, _, e⟩ := d.tabUse_parts a b o l; rw [e]
@[simp] theorem Dev.tabUse_keep (a b o l : Nat) : (d.tabUse a b o l).keep = d.keep := by
  obtain ⟨_, _, _, _, e⟩ := d.tabUse_parts a b o l; rw [e]
@[simp] theorem Dev.tabUse_link (a b o l : Nat) : (d.tabUse a b o l).link = d.link := by
  obtain ⟨_, _, _, _, e⟩ := d.tabUse_parts a b o l; rw [e]
@[simp] theorem Dev.tabUse_stg (a b o l : Nat) : (d.tabUse a b o l).stg = d.stg := by
  obtain ⟨_, _, _, _, e⟩ := d.tabUse_parts a b o l; rw [e]
@[simp] theorem Dev.E_tabUse (a b o l : Nat) (i : Nat) : (d.tabUse a b o l).E i = d.E i := by
  simp [Dev.E]
@[simp] theorem Dev.B_tabUse (a b o l : Nat) (i : Nat) : (d.tabUse a b o l).B i = d.B i := by
  simp [Dev.B]
@[simp] theorem Dev.RT_tabUse (a b o l : Nat) (i : Nat) : (d.tabUse a b o l).RT i = d.RT i := by
  simp [Dev.RT]
@[simp] theorem Dev.R_tabUse (a b o l : Nat) (i : Nat) : (d.tabUse a b o l).R i = d.R i := by
  simp [Dev.R]
@[simp] theorem Dev.P_tabUse (a b o l : Nat) (i : Nat) : (d.tabUse a b o l).P i = d.P i := by
  simp [Dev.P]
@[simp] theorem Dev.IP_tabUse (a b o l : Nat) (i : Nat) : (d.tabUse a b o l).IP i = d.IP i := by
  simp [Dev.IP]
@[simp] theorem Dev.C_tabUse (a b o l : Nat) (i : Nat) : (d.tabUse a b o l).C i = d.C i := by
  simp [Dev.C]
@[simp] theorem Dev.SQ_tabUse (a b o l : Nat) (i : Nat) : (d.tabUse a b o l).SQ i = d.SQ i := by
  simp [Dev.SQ]
@[simp] theorem Dev.IC_tabUse (a b o l : Nat) (i : Nat) : (d.tabUse a b o l).IC i = d.IC i := by
  simp [Dev.IC]
@[simp] theorem Dev.SG_tabUse (a b o l : Nat) (i : Nat) : (d.tabUse a b o l).SG i = d.SG i := by
  simp [Dev.SG]
@[simp] theorem Dev.SL_tabUse (a b o l : Nat) (i : Nat) : (d.tabUse a b o l).SL i = d.SL i := by
  simp [Dev.SL]
@[simp] theorem Dev.RG_tabUse (a b o l : Nat) (i : Nat) : (d.tabUse a b o l).RG i = d.RG i := by
  simp [Dev.RG]
@[simp] theorem Dev.T_tabUse (a b o l : Nat) (i : Nat) : (d.tabUse a b o l).T i = d.T i := by
  simp [Dev.T]
@[simp] theorem Dev.Q_tabUse (a b o l : Nat) (i : Nat) : (d.tabUse a b o l).Q i = d.Q i := by
  simp [Dev.Q]
@[simp] theorem Dev.V_tabUse (a b o l : Nat) (i : Nat) : (d.tabUse a b o l).V i = d.V i := by
  simp [Dev.V]
@[simp] theorem Dev.W_tabUse (a b o l : Nat) (i : Nat) : (d.tabUse a b o l).W i = d.W i := by
  simp [Dev.W]
@[simp] theorem Dev.K_tabUse (a b o l : Nat) (i : Nat) : (d.tabUse a b o l).K i = d.K i := by
  simp [Dev.K]

/-! ## `tabRead` -/

@[simp] theorem Dev.tabRead_clk (a o l k : Nat) : (d.tabRead a o l k).clk = d.clk := by
  obtain ⟨_, _, _, _, e⟩ := d.tabRead_parts a o l k; rw [e]
@[simp] theorem Dev.tabRead_mode (a o l k : Nat) : (d.tabRead a o l k).mode = d.mode := by
  obtain ⟨_, _, _, _, e⟩ := d.tabRead_parts a o l k; rw [e]
@[simp] theorem Dev.tabRead_ent (a o l k : Nat) : (d.tabRead a o l k).ent = d.ent := by
  obtain ⟨_, _, _, _, e⟩ := d.tabRead_parts a o l k; rw [e]
@[simp] theorem Dev.tabRead_br (a o l k : Nat) : (d.tabRead a o l k).br = d.br := by
  obtain ⟨_, _, _, _, e⟩ := d.tabRead_parts a o l k; rw [e]
@[simp] theorem Dev.tabRead_retry (a o l k : Nat) : (d.tabRead a o l k).retry = d.retry := by
  obtain ⟨_, _, _, _, e⟩ := d.tabRead_parts a o l k; rw [e]
@[simp] theorem Dev.tabRead_rail (a o l k : Nat) : (d.tabRead a o l k).rail = d.rail := by
  obtain ⟨_, _, _, _, e⟩ := d.tabRead_parts a o l k; rw [e]
@[simp] theorem Dev.tabRead_ph (a o l k : Nat) : (d.tabRead a o l k).ph = d.ph := by
  obtain ⟨_, _, _, _, e⟩ := d.tabRead_parts a o l k; rw [e]
@[simp] theorem Dev.tabRead_port (a o l k : Nat) : (d.tabRead a o l k).port = d.port := by
  obtain ⟨_, _, _, _, e⟩ := d.tabRead_parts a o l k; rw [e]
@[simp] theorem Dev.tabRead_conv (a o l k : Nat) : (d.tabRead a o l k).conv = d.conv := by
  obtain ⟨_, _, _, _, e⟩ := d.tabRead_parts a o l k; rw [e]
@[simp] theorem Dev.tabRead_scv (a o l k : Nat) : (d.tabRead a o l k).scv = d.scv := by
  obtain ⟨_, _, _, _, e⟩ := d.tabRead_parts a o l k; rw [e]
@[simp] theorem Dev.tabRead_icv (a o l k : Nat) : (d.tabRead a o l k).icv = d.icv := by
  obtain ⟨_, _, _, _, e⟩ := d.tabRead_parts a o l k; rw [e]
@[simp] theorem Dev.tabRead_sage (a o l k : Nat) : (d.tabRead a o l k).sage = d.sage := by
  obtain ⟨_, _, _, _, e⟩ := d.tabRead_parts a o l k; rw [e]
@[simp] theorem Dev.tabRead_slot (a o l k : Nat) : (d.tabRead a o l k).slot = d.slot := by
  obtain ⟨_, _, _, _, e⟩ := d.tabRead_parts a o l k; rw [e]
@[simp] theorem Dev.tabRead_ring (a o l k : Nat) : (d.tabRead a o l k).ring = d.ring := by
  obtain ⟨_, _, _, _, e⟩ := d.tabRead_parts a o l k; rw [e]
@[simp] theorem Dev.tabRead_thr (a o l k : Nat) : (d.tabRead a o l k).thr = d.thr := by
  obtain ⟨_, _, _, _, e⟩ := d.tabRead_parts a o l k; rw [e]
@[simp] theorem Dev.tabRead_rq (a o l k : Nat) : (d.tabRead a o l k).rq = d.rq := by
  obtain ⟨_, _, _, _, e⟩ := d.tabRead_parts a o l k; rw [e]
@[simp] theorem Dev.tabRead_rqHi (a o l k : Nat) : (d.tabRead a o l k).rqHi = d.rqHi := by
  obtain ⟨_, _, _, _, e⟩ := d.tabRead_parts a o l k; rw [e]
@[simp] theorem Dev.tabRead_rqHead (a o l k : Nat) : (d.tabRead a o l k).rqHead = d.rqHead := by
  obtain ⟨_, _, _, _, e⟩ := d.tabRead_parts a o l k; rw [e]
@[simp] theorem Dev.tabRead_host (a o l k : Nat) : (d.tabRead a o l k).host = d.host := by
  obtain ⟨_, _, _, _, e⟩ := d.tabRead_parts a o l k; rw [e]
@[simp] theorem Dev.tabRead_vc (a o l k : Nat) : (d.tabRead a o l k).vc = d.vc := by
  obtain ⟨_, _, _, _, e⟩ := d.tabRead_parts a o l k; rw [e]
@[simp] theorem Dev.tabRead_stream (a o l k : Nat) : (d.tabRead a o l k).stream = d.stream := by
  obtain ⟨_, _, _, _, e⟩ := d.tabRead_parts a o l k; rw [e]
@[simp] theorem Dev.tabRead_tw (a o l k : Nat) : (d.tabRead a o l k).tw = d.tw := by
  obtain ⟨_, _, _, _, e⟩ := d.tabRead_parts a o l k; rw [e]
@[simp] theorem Dev.tabRead_bmc (a o l k : Nat) : (d.tabRead a o l k).bmc = d.bmc := by
  obtain ⟨_, _, _, _, e⟩ := d.tabRead_parts a o l k; rw [e]
@[simp] theorem Dev.tabRead_core (a o l k : Nat) : (d.tabRead a o l k).core = d.core := by
  obtain ⟨_, _, _, _, e⟩ := d.tabRead_parts a o l k; rw [e]
@[simp] theorem Dev.tabRead_keep (a o l k : Nat) : (d.tabRead a o l k).keep = d.keep := by
  obtain ⟨_, _, _, _, e⟩ := d.tabRead_parts a o l k; rw [e]
@[simp] theorem Dev.tabRead_link (a o l k : Nat) : (d.tabRead a o l k).link = d.link := by
  obtain ⟨_, _, _, _, e⟩ := d.tabRead_parts a o l k; rw [e]
@[simp] theorem Dev.tabRead_stg (a o l k : Nat) : (d.tabRead a o l k).stg = d.stg := by
  obtain ⟨_, _, _, _, e⟩ := d.tabRead_parts a o l k; rw [e]
@[simp] theorem Dev.E_tabRead (a o l k : Nat) (i : Nat) : (d.tabRead a o l k).E i = d.E i := by
  simp [Dev.E]
@[simp] theorem Dev.B_tabRead (a o l k : Nat) (i : Nat) : (d.tabRead a o l k).B i = d.B i := by
  simp [Dev.B]
@[simp] theorem Dev.RT_tabRead (a o l k : Nat) (i : Nat) : (d.tabRead a o l k).RT i = d.RT i := by
  simp [Dev.RT]
@[simp] theorem Dev.R_tabRead (a o l k : Nat) (i : Nat) : (d.tabRead a o l k).R i = d.R i := by
  simp [Dev.R]
@[simp] theorem Dev.P_tabRead (a o l k : Nat) (i : Nat) : (d.tabRead a o l k).P i = d.P i := by
  simp [Dev.P]
@[simp] theorem Dev.IP_tabRead (a o l k : Nat) (i : Nat) : (d.tabRead a o l k).IP i = d.IP i := by
  simp [Dev.IP]
@[simp] theorem Dev.C_tabRead (a o l k : Nat) (i : Nat) : (d.tabRead a o l k).C i = d.C i := by
  simp [Dev.C]
@[simp] theorem Dev.SQ_tabRead (a o l k : Nat) (i : Nat) : (d.tabRead a o l k).SQ i = d.SQ i := by
  simp [Dev.SQ]
@[simp] theorem Dev.IC_tabRead (a o l k : Nat) (i : Nat) : (d.tabRead a o l k).IC i = d.IC i := by
  simp [Dev.IC]
@[simp] theorem Dev.SG_tabRead (a o l k : Nat) (i : Nat) : (d.tabRead a o l k).SG i = d.SG i := by
  simp [Dev.SG]
@[simp] theorem Dev.SL_tabRead (a o l k : Nat) (i : Nat) : (d.tabRead a o l k).SL i = d.SL i := by
  simp [Dev.SL]
@[simp] theorem Dev.RG_tabRead (a o l k : Nat) (i : Nat) : (d.tabRead a o l k).RG i = d.RG i := by
  simp [Dev.RG]
@[simp] theorem Dev.T_tabRead (a o l k : Nat) (i : Nat) : (d.tabRead a o l k).T i = d.T i := by
  simp [Dev.T]
@[simp] theorem Dev.Q_tabRead (a o l k : Nat) (i : Nat) : (d.tabRead a o l k).Q i = d.Q i := by
  simp [Dev.Q]
@[simp] theorem Dev.V_tabRead (a o l k : Nat) (i : Nat) : (d.tabRead a o l k).V i = d.V i := by
  simp [Dev.V]
@[simp] theorem Dev.W_tabRead (a o l k : Nat) (i : Nat) : (d.tabRead a o l k).W i = d.W i := by
  simp [Dev.W]
@[simp] theorem Dev.K_tabRead (a o l k : Nat) (i : Nat) : (d.tabRead a o l k).K i = d.K i := by
  simp [Dev.K]

/-! ## `twr` -/

@[simp] theorem Dev.twr_clk (a : Nat) (f : Fld) (v : Nat) : (d.twr a f v).clk = d.clk := by
  obtain ⟨_, _, _, _, e⟩ := d.twr_parts a f v; rw [e]
@[simp] theorem Dev.twr_mode (a : Nat) (f : Fld) (v : Nat) : (d.twr a f v).mode = d.mode := by
  obtain ⟨_, _, _, _, e⟩ := d.twr_parts a f v; rw [e]
@[simp] theorem Dev.twr_ent (a : Nat) (f : Fld) (v : Nat) : (d.twr a f v).ent = d.ent := by
  obtain ⟨_, _, _, _, e⟩ := d.twr_parts a f v; rw [e]
@[simp] theorem Dev.twr_br (a : Nat) (f : Fld) (v : Nat) : (d.twr a f v).br = d.br := by
  obtain ⟨_, _, _, _, e⟩ := d.twr_parts a f v; rw [e]
@[simp] theorem Dev.twr_retry (a : Nat) (f : Fld) (v : Nat) : (d.twr a f v).retry = d.retry := by
  obtain ⟨_, _, _, _, e⟩ := d.twr_parts a f v; rw [e]
@[simp] theorem Dev.twr_rail (a : Nat) (f : Fld) (v : Nat) : (d.twr a f v).rail = d.rail := by
  obtain ⟨_, _, _, _, e⟩ := d.twr_parts a f v; rw [e]
@[simp] theorem Dev.twr_ph (a : Nat) (f : Fld) (v : Nat) : (d.twr a f v).ph = d.ph := by
  obtain ⟨_, _, _, _, e⟩ := d.twr_parts a f v; rw [e]
@[simp] theorem Dev.twr_port (a : Nat) (f : Fld) (v : Nat) : (d.twr a f v).port = d.port := by
  obtain ⟨_, _, _, _, e⟩ := d.twr_parts a f v; rw [e]
@[simp] theorem Dev.twr_conv (a : Nat) (f : Fld) (v : Nat) : (d.twr a f v).conv = d.conv := by
  obtain ⟨_, _, _, _, e⟩ := d.twr_parts a f v; rw [e]
@[simp] theorem Dev.twr_scv (a : Nat) (f : Fld) (v : Nat) : (d.twr a f v).scv = d.scv := by
  obtain ⟨_, _, _, _, e⟩ := d.twr_parts a f v; rw [e]
@[simp] theorem Dev.twr_icv (a : Nat) (f : Fld) (v : Nat) : (d.twr a f v).icv = d.icv := by
  obtain ⟨_, _, _, _, e⟩ := d.twr_parts a f v; rw [e]
@[simp] theorem Dev.twr_sage (a : Nat) (f : Fld) (v : Nat) : (d.twr a f v).sage = d.sage := by
  obtain ⟨_, _, _, _, e⟩ := d.twr_parts a f v; rw [e]
@[simp] theorem Dev.twr_slot (a : Nat) (f : Fld) (v : Nat) : (d.twr a f v).slot = d.slot := by
  obtain ⟨_, _, _, _, e⟩ := d.twr_parts a f v; rw [e]
@[simp] theorem Dev.twr_ring (a : Nat) (f : Fld) (v : Nat) : (d.twr a f v).ring = d.ring := by
  obtain ⟨_, _, _, _, e⟩ := d.twr_parts a f v; rw [e]
@[simp] theorem Dev.twr_thr (a : Nat) (f : Fld) (v : Nat) : (d.twr a f v).thr = d.thr := by
  obtain ⟨_, _, _, _, e⟩ := d.twr_parts a f v; rw [e]
@[simp] theorem Dev.twr_rq (a : Nat) (f : Fld) (v : Nat) : (d.twr a f v).rq = d.rq := by
  obtain ⟨_, _, _, _, e⟩ := d.twr_parts a f v; rw [e]
@[simp] theorem Dev.twr_rqHi (a : Nat) (f : Fld) (v : Nat) : (d.twr a f v).rqHi = d.rqHi := by
  obtain ⟨_, _, _, _, e⟩ := d.twr_parts a f v; rw [e]
@[simp] theorem Dev.twr_rqHead (a : Nat) (f : Fld) (v : Nat) : (d.twr a f v).rqHead = d.rqHead := by
  obtain ⟨_, _, _, _, e⟩ := d.twr_parts a f v; rw [e]
@[simp] theorem Dev.twr_host (a : Nat) (f : Fld) (v : Nat) : (d.twr a f v).host = d.host := by
  obtain ⟨_, _, _, _, e⟩ := d.twr_parts a f v; rw [e]
@[simp] theorem Dev.twr_vc (a : Nat) (f : Fld) (v : Nat) : (d.twr a f v).vc = d.vc := by
  obtain ⟨_, _, _, _, e⟩ := d.twr_parts a f v; rw [e]
@[simp] theorem Dev.twr_stream (a : Nat) (f : Fld) (v : Nat) : (d.twr a f v).stream = d.stream := by
  obtain ⟨_, _, _, _, e⟩ := d.twr_parts a f v; rw [e]
@[simp] theorem Dev.twr_tw (a : Nat) (f : Fld) (v : Nat) : (d.twr a f v).tw = d.tw := by
  obtain ⟨_, _, _, _, e⟩ := d.twr_parts a f v; rw [e]
@[simp] theorem Dev.twr_bmc (a : Nat) (f : Fld) (v : Nat) : (d.twr a f v).bmc = d.bmc := by
  obtain ⟨_, _, _, _, e⟩ := d.twr_parts a f v; rw [e]
@[simp] theorem Dev.twr_core (a : Nat) (f : Fld) (v : Nat) : (d.twr a f v).core = d.core := by
  obtain ⟨_, _, _, _, e⟩ := d.twr_parts a f v; rw [e]
@[simp] theorem Dev.twr_keep (a : Nat) (f : Fld) (v : Nat) : (d.twr a f v).keep = d.keep := by
  obtain ⟨_, _, _, _, e⟩ := d.twr_parts a f v; rw [e]
@[simp] theorem Dev.twr_link (a : Nat) (f : Fld) (v : Nat) : (d.twr a f v).link = d.link := by
  obtain ⟨_, _, _, _, e⟩ := d.twr_parts a f v; rw [e]
@[simp] theorem Dev.twr_stg (a : Nat) (f : Fld) (v : Nat) : (d.twr a f v).stg = d.stg := by
  obtain ⟨_, _, _, _, e⟩ := d.twr_parts a f v; rw [e]
@[simp] theorem Dev.E_twr (a : Nat) (f : Fld) (v : Nat) (i : Nat) : (d.twr a f v).E i = d.E i := by
  simp [Dev.E]
@[simp] theorem Dev.B_twr (a : Nat) (f : Fld) (v : Nat) (i : Nat) : (d.twr a f v).B i = d.B i := by
  simp [Dev.B]
@[simp] theorem Dev.RT_twr (a : Nat) (f : Fld) (v : Nat) (i : Nat) : (d.twr a f v).RT i = d.RT i := by
  simp [Dev.RT]
@[simp] theorem Dev.R_twr (a : Nat) (f : Fld) (v : Nat) (i : Nat) : (d.twr a f v).R i = d.R i := by
  simp [Dev.R]
@[simp] theorem Dev.P_twr (a : Nat) (f : Fld) (v : Nat) (i : Nat) : (d.twr a f v).P i = d.P i := by
  simp [Dev.P]
@[simp] theorem Dev.IP_twr (a : Nat) (f : Fld) (v : Nat) (i : Nat) : (d.twr a f v).IP i = d.IP i := by
  simp [Dev.IP]
@[simp] theorem Dev.C_twr (a : Nat) (f : Fld) (v : Nat) (i : Nat) : (d.twr a f v).C i = d.C i := by
  simp [Dev.C]
@[simp] theorem Dev.SQ_twr (a : Nat) (f : Fld) (v : Nat) (i : Nat) : (d.twr a f v).SQ i = d.SQ i := by
  simp [Dev.SQ]
@[simp] theorem Dev.IC_twr (a : Nat) (f : Fld) (v : Nat) (i : Nat) : (d.twr a f v).IC i = d.IC i := by
  simp [Dev.IC]
@[simp] theorem Dev.SG_twr (a : Nat) (f : Fld) (v : Nat) (i : Nat) : (d.twr a f v).SG i = d.SG i := by
  simp [Dev.SG]
@[simp] theorem Dev.SL_twr (a : Nat) (f : Fld) (v : Nat) (i : Nat) : (d.twr a f v).SL i = d.SL i := by
  simp [Dev.SL]
@[simp] theorem Dev.RG_twr (a : Nat) (f : Fld) (v : Nat) (i : Nat) : (d.twr a f v).RG i = d.RG i := by
  simp [Dev.RG]
@[simp] theorem Dev.T_twr (a : Nat) (f : Fld) (v : Nat) (i : Nat) : (d.twr a f v).T i = d.T i := by
  simp [Dev.T]
@[simp] theorem Dev.Q_twr (a : Nat) (f : Fld) (v : Nat) (i : Nat) : (d.twr a f v).Q i = d.Q i := by
  simp [Dev.Q]
@[simp] theorem Dev.V_twr (a : Nat) (f : Fld) (v : Nat) (i : Nat) : (d.twr a f v).V i = d.V i := by
  simp [Dev.V]
@[simp] theorem Dev.W_twr (a : Nat) (f : Fld) (v : Nat) (i : Nat) : (d.twr a f v).W i = d.W i := by
  simp [Dev.W]
@[simp] theorem Dev.K_twr (a : Nat) (f : Fld) (v : Nat) (i : Nat) : (d.twr a f v).K i = d.K i := by
  simp [Dev.K]

/-! ## `tbump` -/

@[simp] theorem Dev.tbump_clk (a : Nat) (f : Fld) (k : Nat) : (d.tbump a f k).clk = d.clk := by
  obtain ⟨_, _, _, _, e⟩ := d.tbump_parts a f k; rw [e]
@[simp] theorem Dev.tbump_mode (a : Nat) (f : Fld) (k : Nat) : (d.tbump a f k).mode = d.mode := by
  obtain ⟨_, _, _, _, e⟩ := d.tbump_parts a f k; rw [e]
@[simp] theorem Dev.tbump_ent (a : Nat) (f : Fld) (k : Nat) : (d.tbump a f k).ent = d.ent := by
  obtain ⟨_, _, _, _, e⟩ := d.tbump_parts a f k; rw [e]
@[simp] theorem Dev.tbump_br (a : Nat) (f : Fld) (k : Nat) : (d.tbump a f k).br = d.br := by
  obtain ⟨_, _, _, _, e⟩ := d.tbump_parts a f k; rw [e]
@[simp] theorem Dev.tbump_retry (a : Nat) (f : Fld) (k : Nat) : (d.tbump a f k).retry = d.retry := by
  obtain ⟨_, _, _, _, e⟩ := d.tbump_parts a f k; rw [e]
@[simp] theorem Dev.tbump_rail (a : Nat) (f : Fld) (k : Nat) : (d.tbump a f k).rail = d.rail := by
  obtain ⟨_, _, _, _, e⟩ := d.tbump_parts a f k; rw [e]
@[simp] theorem Dev.tbump_ph (a : Nat) (f : Fld) (k : Nat) : (d.tbump a f k).ph = d.ph := by
  obtain ⟨_, _, _, _, e⟩ := d.tbump_parts a f k; rw [e]
@[simp] theorem Dev.tbump_port (a : Nat) (f : Fld) (k : Nat) : (d.tbump a f k).port = d.port := by
  obtain ⟨_, _, _, _, e⟩ := d.tbump_parts a f k; rw [e]
@[simp] theorem Dev.tbump_conv (a : Nat) (f : Fld) (k : Nat) : (d.tbump a f k).conv = d.conv := by
  obtain ⟨_, _, _, _, e⟩ := d.tbump_parts a f k; rw [e]
@[simp] theorem Dev.tbump_scv (a : Nat) (f : Fld) (k : Nat) : (d.tbump a f k).scv = d.scv := by
  obtain ⟨_, _, _, _, e⟩ := d.tbump_parts a f k; rw [e]
@[simp] theorem Dev.tbump_icv (a : Nat) (f : Fld) (k : Nat) : (d.tbump a f k).icv = d.icv := by
  obtain ⟨_, _, _, _, e⟩ := d.tbump_parts a f k; rw [e]
@[simp] theorem Dev.tbump_sage (a : Nat) (f : Fld) (k : Nat) : (d.tbump a f k).sage = d.sage := by
  obtain ⟨_, _, _, _, e⟩ := d.tbump_parts a f k; rw [e]
@[simp] theorem Dev.tbump_slot (a : Nat) (f : Fld) (k : Nat) : (d.tbump a f k).slot = d.slot := by
  obtain ⟨_, _, _, _, e⟩ := d.tbump_parts a f k; rw [e]
@[simp] theorem Dev.tbump_ring (a : Nat) (f : Fld) (k : Nat) : (d.tbump a f k).ring = d.ring := by
  obtain ⟨_, _, _, _, e⟩ := d.tbump_parts a f k; rw [e]
@[simp] theorem Dev.tbump_thr (a : Nat) (f : Fld) (k : Nat) : (d.tbump a f k).thr = d.thr := by
  obtain ⟨_, _, _, _, e⟩ := d.tbump_parts a f k; rw [e]
@[simp] theorem Dev.tbump_rq (a : Nat) (f : Fld) (k : Nat) : (d.tbump a f k).rq = d.rq := by
  obtain ⟨_, _, _, _, e⟩ := d.tbump_parts a f k; rw [e]
@[simp] theorem Dev.tbump_rqHi (a : Nat) (f : Fld) (k : Nat) : (d.tbump a f k).rqHi = d.rqHi := by
  obtain ⟨_, _, _, _, e⟩ := d.tbump_parts a f k; rw [e]
@[simp] theorem Dev.tbump_rqHead (a : Nat) (f : Fld) (k : Nat) : (d.tbump a f k).rqHead = d.rqHead := by
  obtain ⟨_, _, _, _, e⟩ := d.tbump_parts a f k; rw [e]
@[simp] theorem Dev.tbump_host (a : Nat) (f : Fld) (k : Nat) : (d.tbump a f k).host = d.host := by
  obtain ⟨_, _, _, _, e⟩ := d.tbump_parts a f k; rw [e]
@[simp] theorem Dev.tbump_vc (a : Nat) (f : Fld) (k : Nat) : (d.tbump a f k).vc = d.vc := by
  obtain ⟨_, _, _, _, e⟩ := d.tbump_parts a f k; rw [e]
@[simp] theorem Dev.tbump_stream (a : Nat) (f : Fld) (k : Nat) : (d.tbump a f k).stream = d.stream := by
  obtain ⟨_, _, _, _, e⟩ := d.tbump_parts a f k; rw [e]
@[simp] theorem Dev.tbump_tw (a : Nat) (f : Fld) (k : Nat) : (d.tbump a f k).tw = d.tw := by
  obtain ⟨_, _, _, _, e⟩ := d.tbump_parts a f k; rw [e]
@[simp] theorem Dev.tbump_bmc (a : Nat) (f : Fld) (k : Nat) : (d.tbump a f k).bmc = d.bmc := by
  obtain ⟨_, _, _, _, e⟩ := d.tbump_parts a f k; rw [e]
@[simp] theorem Dev.tbump_core (a : Nat) (f : Fld) (k : Nat) : (d.tbump a f k).core = d.core := by
  obtain ⟨_, _, _, _, e⟩ := d.tbump_parts a f k; rw [e]
@[simp] theorem Dev.tbump_keep (a : Nat) (f : Fld) (k : Nat) : (d.tbump a f k).keep = d.keep := by
  obtain ⟨_, _, _, _, e⟩ := d.tbump_parts a f k; rw [e]
@[simp] theorem Dev.tbump_link (a : Nat) (f : Fld) (k : Nat) : (d.tbump a f k).link = d.link := by
  obtain ⟨_, _, _, _, e⟩ := d.tbump_parts a f k; rw [e]
@[simp] theorem Dev.tbump_stg (a : Nat) (f : Fld) (k : Nat) : (d.tbump a f k).stg = d.stg := by
  obtain ⟨_, _, _, _, e⟩ := d.tbump_parts a f k; rw [e]
@[simp] theorem Dev.E_tbump (a : Nat) (f : Fld) (k : Nat) (i : Nat) : (d.tbump a f k).E i = d.E i := by
  simp [Dev.E]
@[simp] theorem Dev.B_tbump (a : Nat) (f : Fld) (k : Nat) (i : Nat) : (d.tbump a f k).B i = d.B i := by
  simp [Dev.B]
@[simp] theorem Dev.RT_tbump (a : Nat) (f : Fld) (k : Nat) (i : Nat) : (d.tbump a f k).RT i = d.RT i := by
  simp [Dev.RT]
@[simp] theorem Dev.R_tbump (a : Nat) (f : Fld) (k : Nat) (i : Nat) : (d.tbump a f k).R i = d.R i := by
  simp [Dev.R]
@[simp] theorem Dev.P_tbump (a : Nat) (f : Fld) (k : Nat) (i : Nat) : (d.tbump a f k).P i = d.P i := by
  simp [Dev.P]
@[simp] theorem Dev.IP_tbump (a : Nat) (f : Fld) (k : Nat) (i : Nat) : (d.tbump a f k).IP i = d.IP i := by
  simp [Dev.IP]
@[simp] theorem Dev.C_tbump (a : Nat) (f : Fld) (k : Nat) (i : Nat) : (d.tbump a f k).C i = d.C i := by
  simp [Dev.C]
@[simp] theorem Dev.SQ_tbump (a : Nat) (f : Fld) (k : Nat) (i : Nat) : (d.tbump a f k).SQ i = d.SQ i := by
  simp [Dev.SQ]
@[simp] theorem Dev.IC_tbump (a : Nat) (f : Fld) (k : Nat) (i : Nat) : (d.tbump a f k).IC i = d.IC i := by
  simp [Dev.IC]
@[simp] theorem Dev.SG_tbump (a : Nat) (f : Fld) (k : Nat) (i : Nat) : (d.tbump a f k).SG i = d.SG i := by
  simp [Dev.SG]
@[simp] theorem Dev.SL_tbump (a : Nat) (f : Fld) (k : Nat) (i : Nat) : (d.tbump a f k).SL i = d.SL i := by
  simp [Dev.SL]
@[simp] theorem Dev.RG_tbump (a : Nat) (f : Fld) (k : Nat) (i : Nat) : (d.tbump a f k).RG i = d.RG i := by
  simp [Dev.RG]
@[simp] theorem Dev.T_tbump (a : Nat) (f : Fld) (k : Nat) (i : Nat) : (d.tbump a f k).T i = d.T i := by
  simp [Dev.T]
@[simp] theorem Dev.Q_tbump (a : Nat) (f : Fld) (k : Nat) (i : Nat) : (d.tbump a f k).Q i = d.Q i := by
  simp [Dev.Q]
@[simp] theorem Dev.V_tbump (a : Nat) (f : Fld) (k : Nat) (i : Nat) : (d.tbump a f k).V i = d.V i := by
  simp [Dev.V]
@[simp] theorem Dev.W_tbump (a : Nat) (f : Fld) (k : Nat) (i : Nat) : (d.tbump a f k).W i = d.W i := by
  simp [Dev.W]
@[simp] theorem Dev.K_tbump (a : Nat) (f : Fld) (k : Nat) (i : Nat) : (d.tbump a f k).K i = d.K i := by
  simp [Dev.K]

/-! ## `countClear` -/

@[simp] theorem Dev.countClear_clk (u : Nat) : (d.countClear u).clk = d.clk := by
  unfold Dev.countClear; (try dsimp only); (repeat' split) <;> (first | rfl | simp)
@[simp] theorem Dev.countClear_mode (u : Nat) : (d.countClear u).mode = d.mode := by
  unfold Dev.countClear; (try dsimp only); (repeat' split) <;> (first | rfl | simp)
@[simp] theorem Dev.countClear_ent (u : Nat) : (d.countClear u).ent = d.ent := by
  unfold Dev.countClear; (try dsimp only); (repeat' split) <;> (first | rfl | simp)
@[simp] theorem Dev.countClear_br (u : Nat) : (d.countClear u).br = d.br := by
  unfold Dev.countClear; (try dsimp only); (repeat' split) <;> (first | rfl | simp)
@[simp] theorem Dev.countClear_rail (u : Nat) : (d.countClear u).rail = d.rail := by
  unfold Dev.countClear; (try dsimp only); (repeat' split) <;> (first | rfl | simp)
@[simp] theorem Dev.countClear_ph (u : Nat) : (d.countClear u).ph = d.ph := by
  unfold Dev.countClear; (try dsimp only); (repeat' split) <;> (first | rfl | simp)
@[simp] theorem Dev.countClear_port (u : Nat) : (d.countClear u).port = d.port := by
  unfold Dev.countClear; (try dsimp only); (repeat' split) <;> (first | rfl | simp)
@[simp] theorem Dev.countClear_conv (u : Nat) : (d.countClear u).conv = d.conv := by
  unfold Dev.countClear; (try dsimp only); (repeat' split) <;> (first | rfl | simp)
@[simp] theorem Dev.countClear_scv (u : Nat) : (d.countClear u).scv = d.scv := by
  unfold Dev.countClear; (try dsimp only); (repeat' split) <;> (first | rfl | simp)
@[simp] theorem Dev.countClear_icv (u : Nat) : (d.countClear u).icv = d.icv := by
  unfold Dev.countClear; (try dsimp only); (repeat' split) <;> (first | rfl | simp)
@[simp] theorem Dev.countClear_sage (u : Nat) : (d.countClear u).sage = d.sage := by
  unfold Dev.countClear; (try dsimp only); (repeat' split) <;> (first | rfl | simp)
@[simp] theorem Dev.countClear_slot (u : Nat) : (d.countClear u).slot = d.slot := by
  unfold Dev.countClear; (try dsimp only); (repeat' split) <;> (first | rfl | simp)
@[simp] theorem Dev.countClear_ring (u : Nat) : (d.countClear u).ring = d.ring := by
  unfold Dev.countClear; (try dsimp only); (repeat' split) <;> (first | rfl | simp)
@[simp] theorem Dev.countClear_thr (u : Nat) : (d.countClear u).thr = d.thr := by
  unfold Dev.countClear; (try dsimp only); (repeat' split) <;> (first | rfl | simp)
@[simp] theorem Dev.countClear_rq (u : Nat) : (d.countClear u).rq = d.rq := by
  unfold Dev.countClear; (try dsimp only); (repeat' split) <;> (first | rfl | simp)
@[simp] theorem Dev.countClear_rqHi (u : Nat) : (d.countClear u).rqHi = d.rqHi := by
  unfold Dev.countClear; (try dsimp only); (repeat' split) <;> (first | rfl | simp)
@[simp] theorem Dev.countClear_rqHead (u : Nat) : (d.countClear u).rqHead = d.rqHead := by
  unfold Dev.countClear; (try dsimp only); (repeat' split) <;> (first | rfl | simp)
@[simp] theorem Dev.countClear_host (u : Nat) : (d.countClear u).host = d.host := by
  unfold Dev.countClear; (try dsimp only); (repeat' split) <;> (first | rfl | simp)
@[simp] theorem Dev.countClear_vc (u : Nat) : (d.countClear u).vc = d.vc := by
  unfold Dev.countClear; (try dsimp only); (repeat' split) <;> (first | rfl | simp)
@[simp] theorem Dev.countClear_stream (u : Nat) : (d.countClear u).stream = d.stream := by
  unfold Dev.countClear; (try dsimp only); (repeat' split) <;> (first | rfl | simp)
@[simp] theorem Dev.countClear_tw (u : Nat) : (d.countClear u).tw = d.tw := by
  unfold Dev.countClear; (try dsimp only); (repeat' split) <;> (first | rfl | simp)
@[simp] theorem Dev.countClear_bmc (u : Nat) : (d.countClear u).bmc = d.bmc := by
  unfold Dev.countClear; (try dsimp only); (repeat' split) <;> (first | rfl | simp)
@[simp] theorem Dev.countClear_core (u : Nat) : (d.countClear u).core = d.core := by
  unfold Dev.countClear; (try dsimp only); (repeat' split) <;> (first | rfl | simp)
@[simp] theorem Dev.countClear_keep (u : Nat) : (d.countClear u).keep = d.keep := by
  unfold Dev.countClear; (try dsimp only); (repeat' split) <;> (first | rfl | simp)
@[simp] theorem Dev.countClear_link (u : Nat) : (d.countClear u).link = d.link := by
  unfold Dev.countClear; (try dsimp only); (repeat' split) <;> (first | rfl | simp)
@[simp] theorem Dev.countClear_stg (u : Nat) : (d.countClear u).stg = d.stg := by
  unfold Dev.countClear; (try dsimp only); (repeat' split) <;> (first | rfl | simp)
@[simp] theorem Dev.E_countClear (u : Nat) (i : Nat) : (d.countClear u).E i = d.E i := by
  simp [Dev.E]
@[simp] theorem Dev.B_countClear (u : Nat) (i : Nat) : (d.countClear u).B i = d.B i := by
  simp [Dev.B]
@[simp] theorem Dev.R_countClear (u : Nat) (i : Nat) : (d.countClear u).R i = d.R i := by
  simp [Dev.R]
@[simp] theorem Dev.P_countClear (u : Nat) (i : Nat) : (d.countClear u).P i = d.P i := by
  simp [Dev.P]
@[simp] theorem Dev.IP_countClear (u : Nat) (i : Nat) : (d.countClear u).IP i = d.IP i := by
  simp [Dev.IP]
@[simp] theorem Dev.C_countClear (u : Nat) (i : Nat) : (d.countClear u).C i = d.C i := by
  simp [Dev.C]
@[simp] theorem Dev.SQ_countClear (u : Nat) (i : Nat) : (d.countClear u).SQ i = d.SQ i := by
  simp [Dev.SQ]
@[simp] theorem Dev.IC_countClear (u : Nat) (i : Nat) : (d.countClear u).IC i = d.IC i := by
  simp [Dev.IC]
@[simp] theorem Dev.SG_countClear (u : Nat) (i : Nat) : (d.countClear u).SG i = d.SG i := by
  simp [Dev.SG]
@[simp] theorem Dev.SL_countClear (u : Nat) (i : Nat) : (d.countClear u).SL i = d.SL i := by
  simp [Dev.SL]
@[simp] theorem Dev.RG_countClear (u : Nat) (i : Nat) : (d.countClear u).RG i = d.RG i := by
  simp [Dev.RG]
@[simp] theorem Dev.T_countClear (u : Nat) (i : Nat) : (d.countClear u).T i = d.T i := by
  simp [Dev.T]
@[simp] theorem Dev.Q_countClear (u : Nat) (i : Nat) : (d.countClear u).Q i = d.Q i := by
  simp [Dev.Q]
@[simp] theorem Dev.V_countClear (u : Nat) (i : Nat) : (d.countClear u).V i = d.V i := by
  simp [Dev.V]
@[simp] theorem Dev.W_countClear (u : Nat) (i : Nat) : (d.countClear u).W i = d.W i := by
  simp [Dev.W]
@[simp] theorem Dev.K_countClear (u : Nat) (i : Nat) : (d.countClear u).K i = d.K i := by
  simp [Dev.K]

/-! ## `rtOn` -/

@[simp] theorem Dev.rtOn_regs (u : Nat) : (d.rtOn u).regs = d.regs := by
  unfold Dev.rtOn; (try dsimp only); (repeat' split) <;> (first | rfl | simp)
@[simp] theorem Dev.rtOn_clk (u : Nat) : (d.rtOn u).clk = d.clk := by
  unfold Dev.rtOn; (try dsimp only); (repeat' split) <;> (first | rfl | simp)
@[simp] theorem Dev.rtOn_mode (u : Nat) : (d.rtOn u).mode = d.mode := by
  unfold Dev.rtOn; (try dsimp only); (repeat' split) <;> (first | rfl | simp)
@[simp] theorem Dev.rtOn_ent (u : Nat) : (d.rtOn u).ent = d.ent := by
  unfold Dev.rtOn; (try dsimp only); (repeat' split) <;> (first | rfl | simp)
@[simp] theorem Dev.rtOn_br (u : Nat) : (d.rtOn u).br = d.br := by
  unfold Dev.rtOn; (try dsimp only); (repeat' split) <;> (first | rfl | simp)
@[simp] theorem Dev.rtOn_rail (u : Nat) : (d.rtOn u).rail = d.rail := by
  unfold Dev.rtOn; (try dsimp only); (repeat' split) <;> (first | rfl | simp)
@[simp] theorem Dev.rtOn_ph (u : Nat) : (d.rtOn u).ph = d.ph := by
  unfold Dev.rtOn; (try dsimp only); (repeat' split) <;> (first | rfl | simp)
@[simp] theorem Dev.rtOn_port (u : Nat) : (d.rtOn u).port = d.port := by
  unfold Dev.rtOn; (try dsimp only); (repeat' split) <;> (first | rfl | simp)
@[simp] theorem Dev.rtOn_conv (u : Nat) : (d.rtOn u).conv = d.conv := by
  unfold Dev.rtOn; (try dsimp only); (repeat' split) <;> (first | rfl | simp)
@[simp] theorem Dev.rtOn_scv (u : Nat) : (d.rtOn u).scv = d.scv := by
  unfold Dev.rtOn; (try dsimp only); (repeat' split) <;> (first | rfl | simp)
@[simp] theorem Dev.rtOn_icv (u : Nat) : (d.rtOn u).icv = d.icv := by
  unfold Dev.rtOn; (try dsimp only); (repeat' split) <;> (first | rfl | simp)
@[simp] theorem Dev.rtOn_sage (u : Nat) : (d.rtOn u).sage = d.sage := by
  unfold Dev.rtOn; (try dsimp only); (repeat' split) <;> (first | rfl | simp)
@[simp] theorem Dev.rtOn_slot (u : Nat) : (d.rtOn u).slot = d.slot := by
  unfold Dev.rtOn; (try dsimp only); (repeat' split) <;> (first | rfl | simp)
@[simp] theorem Dev.rtOn_ring (u : Nat) : (d.rtOn u).ring = d.ring := by
  unfold Dev.rtOn; (try dsimp only); (repeat' split) <;> (first | rfl | simp)
@[simp] theorem Dev.rtOn_thr (u : Nat) : (d.rtOn u).thr = d.thr := by
  unfold Dev.rtOn; (try dsimp only); (repeat' split) <;> (first | rfl | simp)
@[simp] theorem Dev.rtOn_rq (u : Nat) : (d.rtOn u).rq = d.rq := by
  unfold Dev.rtOn; (try dsimp only); (repeat' split) <;> (first | rfl | simp)
@[simp] theorem Dev.rtOn_rqHi (u : Nat) : (d.rtOn u).rqHi = d.rqHi := by
  unfold Dev.rtOn; (try dsimp only); (repeat' split) <;> (first | rfl | simp)
@[simp] theorem Dev.rtOn_rqHead (u : Nat) : (d.rtOn u).rqHead = d.rqHead := by
  unfold Dev.rtOn; (try dsimp only); (repeat' split) <;> (first | rfl | simp)
@[simp] theorem Dev.rtOn_host (u : Nat) : (d.rtOn u).host = d.host := by
  unfold Dev.rtOn; (try dsimp only); (repeat' split) <;> (first | rfl | simp)
@[simp] theorem Dev.rtOn_vc (u : Nat) : (d.rtOn u).vc = d.vc := by
  unfold Dev.rtOn; (try dsimp only); (repeat' split) <;> (first | rfl | simp)
@[simp] theorem Dev.rtOn_stream (u : Nat) : (d.rtOn u).stream = d.stream := by
  unfold Dev.rtOn; (try dsimp only); (repeat' split) <;> (first | rfl | simp)
@[simp] theorem Dev.rtOn_tw (u : Nat) : (d.rtOn u).tw = d.tw := by
  unfold Dev.rtOn; (try dsimp only); (repeat' split) <;> (first | rfl | simp)
@[simp] theorem Dev.rtOn_bmc (u : Nat) : (d.rtOn u).bmc = d.bmc := by
  unfold Dev.rtOn; (try dsimp only); (repeat' split) <;> (first | rfl | simp)
@[simp] theorem Dev.rtOn_core (u : Nat) : (d.rtOn u).core = d.core := by
  unfold Dev.rtOn; (try dsimp only); (repeat' split) <;> (first | rfl | simp)
@[simp] theorem Dev.rtOn_mem (u : Nat) : (d.rtOn u).mem = d.mem := by
  unfold Dev.rtOn; (try dsimp only); (repeat' split) <;> (first | rfl | simp)
@[simp] theorem Dev.rtOn_flt (u : Nat) : (d.rtOn u).flt = d.flt := by
  unfold Dev.rtOn; (try dsimp only); (repeat' split) <;> (first | rfl | simp)
@[simp] theorem Dev.rtOn_keep (u : Nat) : (d.rtOn u).keep = d.keep := by
  unfold Dev.rtOn; (try dsimp only); (repeat' split) <;> (first | rfl | simp)
@[simp] theorem Dev.rtOn_link (u : Nat) : (d.rtOn u).link = d.link := by
  unfold Dev.rtOn; (try dsimp only); (repeat' split) <;> (first | rfl | simp)
@[simp] theorem Dev.rtOn_hw (u : Nat) : (d.rtOn u).hw = d.hw := by
  unfold Dev.rtOn; (try dsimp only); (repeat' split) <;> (first | rfl | simp)
@[simp] theorem Dev.rtOn_stg (u : Nat) : (d.rtOn u).stg = d.stg := by
  unfold Dev.rtOn; (try dsimp only); (repeat' split) <;> (first | rfl | simp)
@[simp] theorem Dev.E_rtOn (u : Nat) (i : Nat) : (d.rtOn u).E i = d.E i := by
  simp [Dev.E]
@[simp] theorem Dev.B_rtOn (u : Nat) (i : Nat) : (d.rtOn u).B i = d.B i := by
  simp [Dev.B]
@[simp] theorem Dev.R_rtOn (u : Nat) (i : Nat) : (d.rtOn u).R i = d.R i := by
  simp [Dev.R]
@[simp] theorem Dev.P_rtOn (u : Nat) (i : Nat) : (d.rtOn u).P i = d.P i := by
  simp [Dev.P]
@[simp] theorem Dev.IP_rtOn (u : Nat) (i : Nat) : (d.rtOn u).IP i = d.IP i := by
  simp [Dev.IP]
@[simp] theorem Dev.C_rtOn (u : Nat) (i : Nat) : (d.rtOn u).C i = d.C i := by
  simp [Dev.C]
@[simp] theorem Dev.SQ_rtOn (u : Nat) (i : Nat) : (d.rtOn u).SQ i = d.SQ i := by
  simp [Dev.SQ]
@[simp] theorem Dev.IC_rtOn (u : Nat) (i : Nat) : (d.rtOn u).IC i = d.IC i := by
  simp [Dev.IC]
@[simp] theorem Dev.SG_rtOn (u : Nat) (i : Nat) : (d.rtOn u).SG i = d.SG i := by
  simp [Dev.SG]
@[simp] theorem Dev.SL_rtOn (u : Nat) (i : Nat) : (d.rtOn u).SL i = d.SL i := by
  simp [Dev.SL]
@[simp] theorem Dev.RG_rtOn (u : Nat) (i : Nat) : (d.rtOn u).RG i = d.RG i := by
  simp [Dev.RG]
@[simp] theorem Dev.T_rtOn (u : Nat) (i : Nat) : (d.rtOn u).T i = d.T i := by
  simp [Dev.T]
@[simp] theorem Dev.Q_rtOn (u : Nat) (i : Nat) : (d.rtOn u).Q i = d.Q i := by
  simp [Dev.Q]
@[simp] theorem Dev.V_rtOn (u : Nat) (i : Nat) : (d.rtOn u).V i = d.V i := by
  simp [Dev.V]
@[simp] theorem Dev.W_rtOn (u : Nat) (i : Nat) : (d.rtOn u).W i = d.W i := by
  simp [Dev.W]
@[simp] theorem Dev.K_rtOn (u : Nat) (i : Nat) : (d.rtOn u).K i = d.K i := by
  simp [Dev.K]
@[simp] theorem Dev.word_rtOn (u : Nat) (i : Nat) : (d.rtOn u).word i = d.word i := by
  simp [Dev.word]
@[simp] theorem Dev.rd_rtOn (u : Nat) (f : Fld) : (d.rtOn u).rd f = d.rd f := by
  simp [Dev.rd]

/-! ## `rtStop` -/

@[simp] theorem Dev.rtStop_regs (u : Nat) : (d.rtStop u).regs = d.regs := by
  unfold Dev.rtStop; (try dsimp only); (repeat' split) <;> (first | rfl | simp)
@[simp] theorem Dev.rtStop_clk (u : Nat) : (d.rtStop u).clk = d.clk := by
  unfold Dev.rtStop; (try dsimp only); (repeat' split) <;> (first | rfl | simp)
@[simp] theorem Dev.rtStop_mode (u : Nat) : (d.rtStop u).mode = d.mode := by
  unfold Dev.rtStop; (try dsimp only); (repeat' split) <;> (first | rfl | simp)
@[simp] theorem Dev.rtStop_ent (u : Nat) : (d.rtStop u).ent = d.ent := by
  unfold Dev.rtStop; (try dsimp only); (repeat' split) <;> (first | rfl | simp)
@[simp] theorem Dev.rtStop_br (u : Nat) : (d.rtStop u).br = d.br := by
  unfold Dev.rtStop; (try dsimp only); (repeat' split) <;> (first | rfl | simp)
@[simp] theorem Dev.rtStop_rail (u : Nat) : (d.rtStop u).rail = d.rail := by
  unfold Dev.rtStop; (try dsimp only); (repeat' split) <;> (first | rfl | simp)
@[simp] theorem Dev.rtStop_ph (u : Nat) : (d.rtStop u).ph = d.ph := by
  unfold Dev.rtStop; (try dsimp only); (repeat' split) <;> (first | rfl | simp)
@[simp] theorem Dev.rtStop_port (u : Nat) : (d.rtStop u).port = d.port := by
  unfold Dev.rtStop; (try dsimp only); (repeat' split) <;> (first | rfl | simp)
@[simp] theorem Dev.rtStop_conv (u : Nat) : (d.rtStop u).conv = d.conv := by
  unfold Dev.rtStop; (try dsimp only); (repeat' split) <;> (first | rfl | simp)
@[simp] theorem Dev.rtStop_scv (u : Nat) : (d.rtStop u).scv = d.scv := by
  unfold Dev.rtStop; (try dsimp only); (repeat' split) <;> (first | rfl | simp)
@[simp] theorem Dev.rtStop_icv (u : Nat) : (d.rtStop u).icv = d.icv := by
  unfold Dev.rtStop; (try dsimp only); (repeat' split) <;> (first | rfl | simp)
@[simp] theorem Dev.rtStop_sage (u : Nat) : (d.rtStop u).sage = d.sage := by
  unfold Dev.rtStop; (try dsimp only); (repeat' split) <;> (first | rfl | simp)
@[simp] theorem Dev.rtStop_slot (u : Nat) : (d.rtStop u).slot = d.slot := by
  unfold Dev.rtStop; (try dsimp only); (repeat' split) <;> (first | rfl | simp)
@[simp] theorem Dev.rtStop_ring (u : Nat) : (d.rtStop u).ring = d.ring := by
  unfold Dev.rtStop; (try dsimp only); (repeat' split) <;> (first | rfl | simp)
@[simp] theorem Dev.rtStop_thr (u : Nat) : (d.rtStop u).thr = d.thr := by
  unfold Dev.rtStop; (try dsimp only); (repeat' split) <;> (first | rfl | simp)
@[simp] theorem Dev.rtStop_rq (u : Nat) : (d.rtStop u).rq = d.rq := by
  unfold Dev.rtStop; (try dsimp only); (repeat' split) <;> (first | rfl | simp)
@[simp] theorem Dev.rtStop_rqHi (u : Nat) : (d.rtStop u).rqHi = d.rqHi := by
  unfold Dev.rtStop; (try dsimp only); (repeat' split) <;> (first | rfl | simp)
@[simp] theorem Dev.rtStop_rqHead (u : Nat) : (d.rtStop u).rqHead = d.rqHead := by
  unfold Dev.rtStop; (try dsimp only); (repeat' split) <;> (first | rfl | simp)
@[simp] theorem Dev.rtStop_host (u : Nat) : (d.rtStop u).host = d.host := by
  unfold Dev.rtStop; (try dsimp only); (repeat' split) <;> (first | rfl | simp)
@[simp] theorem Dev.rtStop_vc (u : Nat) : (d.rtStop u).vc = d.vc := by
  unfold Dev.rtStop; (try dsimp only); (repeat' split) <;> (first | rfl | simp)
@[simp] theorem Dev.rtStop_stream (u : Nat) : (d.rtStop u).stream = d.stream := by
  unfold Dev.rtStop; (try dsimp only); (repeat' split) <;> (first | rfl | simp)
@[simp] theorem Dev.rtStop_tw (u : Nat) : (d.rtStop u).tw = d.tw := by
  unfold Dev.rtStop; (try dsimp only); (repeat' split) <;> (first | rfl | simp)
@[simp] theorem Dev.rtStop_bmc (u : Nat) : (d.rtStop u).bmc = d.bmc := by
  unfold Dev.rtStop; (try dsimp only); (repeat' split) <;> (first | rfl | simp)
@[simp] theorem Dev.rtStop_core (u : Nat) : (d.rtStop u).core = d.core := by
  unfold Dev.rtStop; (try dsimp only); (repeat' split) <;> (first | rfl | simp)
@[simp] theorem Dev.rtStop_mem (u : Nat) : (d.rtStop u).mem = d.mem := by
  unfold Dev.rtStop; (try dsimp only); (repeat' split) <;> (first | rfl | simp)
@[simp] theorem Dev.rtStop_flt (u : Nat) : (d.rtStop u).flt = d.flt := by
  unfold Dev.rtStop; (try dsimp only); (repeat' split) <;> (first | rfl | simp)
@[simp] theorem Dev.rtStop_keep (u : Nat) : (d.rtStop u).keep = d.keep := by
  unfold Dev.rtStop; (try dsimp only); (repeat' split) <;> (first | rfl | simp)
@[simp] theorem Dev.rtStop_link (u : Nat) : (d.rtStop u).link = d.link := by
  unfold Dev.rtStop; (try dsimp only); (repeat' split) <;> (first | rfl | simp)
@[simp] theorem Dev.rtStop_hw (u : Nat) : (d.rtStop u).hw = d.hw := by
  unfold Dev.rtStop; (try dsimp only); (repeat' split) <;> (first | rfl | simp)
@[simp] theorem Dev.rtStop_stg (u : Nat) : (d.rtStop u).stg = d.stg := by
  unfold Dev.rtStop; (try dsimp only); (repeat' split) <;> (first | rfl | simp)
@[simp] theorem Dev.E_rtStop (u : Nat) (i : Nat) : (d.rtStop u).E i = d.E i := by
  simp [Dev.E]
@[simp] theorem Dev.B_rtStop (u : Nat) (i : Nat) : (d.rtStop u).B i = d.B i := by
  simp [Dev.B]
@[simp] theorem Dev.R_rtStop (u : Nat) (i : Nat) : (d.rtStop u).R i = d.R i := by
  simp [Dev.R]
@[simp] theorem Dev.P_rtStop (u : Nat) (i : Nat) : (d.rtStop u).P i = d.P i := by
  simp [Dev.P]
@[simp] theorem Dev.IP_rtStop (u : Nat) (i : Nat) : (d.rtStop u).IP i = d.IP i := by
  simp [Dev.IP]
@[simp] theorem Dev.C_rtStop (u : Nat) (i : Nat) : (d.rtStop u).C i = d.C i := by
  simp [Dev.C]
@[simp] theorem Dev.SQ_rtStop (u : Nat) (i : Nat) : (d.rtStop u).SQ i = d.SQ i := by
  simp [Dev.SQ]
@[simp] theorem Dev.IC_rtStop (u : Nat) (i : Nat) : (d.rtStop u).IC i = d.IC i := by
  simp [Dev.IC]
@[simp] theorem Dev.SG_rtStop (u : Nat) (i : Nat) : (d.rtStop u).SG i = d.SG i := by
  simp [Dev.SG]
@[simp] theorem Dev.SL_rtStop (u : Nat) (i : Nat) : (d.rtStop u).SL i = d.SL i := by
  simp [Dev.SL]
@[simp] theorem Dev.RG_rtStop (u : Nat) (i : Nat) : (d.rtStop u).RG i = d.RG i := by
  simp [Dev.RG]
@[simp] theorem Dev.T_rtStop (u : Nat) (i : Nat) : (d.rtStop u).T i = d.T i := by
  simp [Dev.T]
@[simp] theorem Dev.Q_rtStop (u : Nat) (i : Nat) : (d.rtStop u).Q i = d.Q i := by
  simp [Dev.Q]
@[simp] theorem Dev.V_rtStop (u : Nat) (i : Nat) : (d.rtStop u).V i = d.V i := by
  simp [Dev.V]
@[simp] theorem Dev.W_rtStop (u : Nat) (i : Nat) : (d.rtStop u).W i = d.W i := by
  simp [Dev.W]
@[simp] theorem Dev.K_rtStop (u : Nat) (i : Nat) : (d.rtStop u).K i = d.K i := by
  simp [Dev.K]
@[simp] theorem Dev.word_rtStop (u : Nat) (i : Nat) : (d.rtStop u).word i = d.word i := by
  simp [Dev.word]
@[simp] theorem Dev.rd_rtStop (u : Nat) (f : Fld) : (d.rtStop u).rd f = d.rd f := by
  simp [Dev.rd]

/-! ## `rtAbandon` -/

@[simp] theorem Dev.rtAbandon_clk (u : Nat) : (d.rtAbandon u).clk = d.clk := by
  unfold Dev.rtAbandon; (try dsimp only); (repeat' split) <;> (first | rfl | simp)
@[simp] theorem Dev.rtAbandon_mode (u : Nat) : (d.rtAbandon u).mode = d.mode := by
  unfold Dev.rtAbandon; (try dsimp only); (repeat' split) <;> (first | rfl | simp)
@[simp] theorem Dev.rtAbandon_ent (u : Nat) : (d.rtAbandon u).ent = d.ent := by
  unfold Dev.rtAbandon; (try dsimp only); (repeat' split) <;> (first | rfl | simp)
@[simp] theorem Dev.rtAbandon_br (u : Nat) : (d.rtAbandon u).br = d.br := by
  unfold Dev.rtAbandon; (try dsimp only); (repeat' split) <;> (first | rfl | simp)
@[simp] theorem Dev.rtAbandon_rail (u : Nat) : (d.rtAbandon u).rail = d.rail := by
  unfold Dev.rtAbandon; (try dsimp only); (repeat' split) <;> (first | rfl | simp)
@[simp] theorem Dev.rtAbandon_ph (u : Nat) : (d.rtAbandon u).ph = d.ph := by
  unfold Dev.rtAbandon; (try dsimp only); (repeat' split) <;> (first | rfl | simp)
@[simp] theorem Dev.rtAbandon_port (u : Nat) : (d.rtAbandon u).port = d.port := by
  unfold Dev.rtAbandon; (try dsimp only); (repeat' split) <;> (first | rfl | simp)
@[simp] theorem Dev.rtAbandon_conv (u : Nat) : (d.rtAbandon u).conv = d.conv := by
  unfold Dev.rtAbandon; (try dsimp only); (repeat' split) <;> (first | rfl | simp)
@[simp] theorem Dev.rtAbandon_scv (u : Nat) : (d.rtAbandon u).scv = d.scv := by
  unfold Dev.rtAbandon; (try dsimp only); (repeat' split) <;> (first | rfl | simp)
@[simp] theorem Dev.rtAbandon_icv (u : Nat) : (d.rtAbandon u).icv = d.icv := by
  unfold Dev.rtAbandon; (try dsimp only); (repeat' split) <;> (first | rfl | simp)
@[simp] theorem Dev.rtAbandon_sage (u : Nat) : (d.rtAbandon u).sage = d.sage := by
  unfold Dev.rtAbandon; (try dsimp only); (repeat' split) <;> (first | rfl | simp)
@[simp] theorem Dev.rtAbandon_slot (u : Nat) : (d.rtAbandon u).slot = d.slot := by
  unfold Dev.rtAbandon; (try dsimp only); (repeat' split) <;> (first | rfl | simp)
@[simp] theorem Dev.rtAbandon_ring (u : Nat) : (d.rtAbandon u).ring = d.ring := by
  unfold Dev.rtAbandon; (try dsimp only); (repeat' split) <;> (first | rfl | simp)
@[simp] theorem Dev.rtAbandon_thr (u : Nat) : (d.rtAbandon u).thr = d.thr := by
  unfold Dev.rtAbandon; (try dsimp only); (repeat' split) <;> (first | rfl | simp)
@[simp] theorem Dev.rtAbandon_rq (u : Nat) : (d.rtAbandon u).rq = d.rq := by
  unfold Dev.rtAbandon; (try dsimp only); (repeat' split) <;> (first | rfl | simp)
@[simp] theorem Dev.rtAbandon_rqHi (u : Nat) : (d.rtAbandon u).rqHi = d.rqHi := by
  unfold Dev.rtAbandon; (try dsimp only); (repeat' split) <;> (first | rfl | simp)
@[simp] theorem Dev.rtAbandon_rqHead (u : Nat) : (d.rtAbandon u).rqHead = d.rqHead := by
  unfold Dev.rtAbandon; (try dsimp only); (repeat' split) <;> (first | rfl | simp)
@[simp] theorem Dev.rtAbandon_host (u : Nat) : (d.rtAbandon u).host = d.host := by
  unfold Dev.rtAbandon; (try dsimp only); (repeat' split) <;> (first | rfl | simp)
@[simp] theorem Dev.rtAbandon_vc (u : Nat) : (d.rtAbandon u).vc = d.vc := by
  unfold Dev.rtAbandon; (try dsimp only); (repeat' split) <;> (first | rfl | simp)
@[simp] theorem Dev.rtAbandon_stream (u : Nat) : (d.rtAbandon u).stream = d.stream := by
  unfold Dev.rtAbandon; (try dsimp only); (repeat' split) <;> (first | rfl | simp)
@[simp] theorem Dev.rtAbandon_tw (u : Nat) : (d.rtAbandon u).tw = d.tw := by
  unfold Dev.rtAbandon; (try dsimp only); (repeat' split) <;> (first | rfl | simp)
@[simp] theorem Dev.rtAbandon_bmc (u : Nat) : (d.rtAbandon u).bmc = d.bmc := by
  unfold Dev.rtAbandon; (try dsimp only); (repeat' split) <;> (first | rfl | simp)
@[simp] theorem Dev.rtAbandon_core (u : Nat) : (d.rtAbandon u).core = d.core := by
  unfold Dev.rtAbandon; (try dsimp only); (repeat' split) <;> (first | rfl | simp)
@[simp] theorem Dev.rtAbandon_keep (u : Nat) : (d.rtAbandon u).keep = d.keep := by
  unfold Dev.rtAbandon; (try dsimp only); (repeat' split) <;> (first | rfl | simp)
@[simp] theorem Dev.rtAbandon_link (u : Nat) : (d.rtAbandon u).link = d.link := by
  unfold Dev.rtAbandon; (try dsimp only); (repeat' split) <;> (first | rfl | simp)
@[simp] theorem Dev.rtAbandon_stg (u : Nat) : (d.rtAbandon u).stg = d.stg := by
  unfold Dev.rtAbandon; (try dsimp only); (repeat' split) <;> (first | rfl | simp)
@[simp] theorem Dev.E_rtAbandon (u : Nat) (i : Nat) : (d.rtAbandon u).E i = d.E i := by
  simp [Dev.E]
@[simp] theorem Dev.B_rtAbandon (u : Nat) (i : Nat) : (d.rtAbandon u).B i = d.B i := by
  simp [Dev.B]
@[simp] theorem Dev.R_rtAbandon (u : Nat) (i : Nat) : (d.rtAbandon u).R i = d.R i := by
  simp [Dev.R]
@[simp] theorem Dev.P_rtAbandon (u : Nat) (i : Nat) : (d.rtAbandon u).P i = d.P i := by
  simp [Dev.P]
@[simp] theorem Dev.IP_rtAbandon (u : Nat) (i : Nat) : (d.rtAbandon u).IP i = d.IP i := by
  simp [Dev.IP]
@[simp] theorem Dev.C_rtAbandon (u : Nat) (i : Nat) : (d.rtAbandon u).C i = d.C i := by
  simp [Dev.C]
@[simp] theorem Dev.SQ_rtAbandon (u : Nat) (i : Nat) : (d.rtAbandon u).SQ i = d.SQ i := by
  simp [Dev.SQ]
@[simp] theorem Dev.IC_rtAbandon (u : Nat) (i : Nat) : (d.rtAbandon u).IC i = d.IC i := by
  simp [Dev.IC]
@[simp] theorem Dev.SG_rtAbandon (u : Nat) (i : Nat) : (d.rtAbandon u).SG i = d.SG i := by
  simp [Dev.SG]
@[simp] theorem Dev.SL_rtAbandon (u : Nat) (i : Nat) : (d.rtAbandon u).SL i = d.SL i := by
  simp [Dev.SL]
@[simp] theorem Dev.RG_rtAbandon (u : Nat) (i : Nat) : (d.rtAbandon u).RG i = d.RG i := by
  simp [Dev.RG]
@[simp] theorem Dev.T_rtAbandon (u : Nat) (i : Nat) : (d.rtAbandon u).T i = d.T i := by
  simp [Dev.T]
@[simp] theorem Dev.Q_rtAbandon (u : Nat) (i : Nat) : (d.rtAbandon u).Q i = d.Q i := by
  simp [Dev.Q]
@[simp] theorem Dev.V_rtAbandon (u : Nat) (i : Nat) : (d.rtAbandon u).V i = d.V i := by
  simp [Dev.V]
@[simp] theorem Dev.W_rtAbandon (u : Nat) (i : Nat) : (d.rtAbandon u).W i = d.W i := by
  simp [Dev.W]
@[simp] theorem Dev.K_rtAbandon (u : Nat) (i : Nat) : (d.rtAbandon u).K i = d.K i := by
  simp [Dev.K]

/-! ## `entMark` -/

@[simp] theorem Dev.entMark_regs (n : Nat) : (d.entMark n).regs = d.regs := by
  unfold Dev.entMark; (try dsimp only); (repeat' split) <;> (first | rfl | simp)
@[simp] theorem Dev.entMark_clk (n : Nat) : (d.entMark n).clk = d.clk := by
  unfold Dev.entMark; (try dsimp only); (repeat' split) <;> (first | rfl | simp)
@[simp] theorem Dev.entMark_mode (n : Nat) : (d.entMark n).mode = d.mode := by
  unfold Dev.entMark; (try dsimp only); (repeat' split) <;> (first | rfl | simp)
@[simp] theorem Dev.entMark_br (n : Nat) : (d.entMark n).br = d.br := by
  unfold Dev.entMark; (try dsimp only); (repeat' split) <;> (first | rfl | simp)
@[simp] theorem Dev.entMark_retry (n : Nat) : (d.entMark n).retry = d.retry := by
  unfold Dev.entMark; (try dsimp only); (repeat' split) <;> (first | rfl | simp)
@[simp] theorem Dev.entMark_rail (n : Nat) : (d.entMark n).rail = d.rail := by
  unfold Dev.entMark; (try dsimp only); (repeat' split) <;> (first | rfl | simp)
@[simp] theorem Dev.entMark_ph (n : Nat) : (d.entMark n).ph = d.ph := by
  unfold Dev.entMark; (try dsimp only); (repeat' split) <;> (first | rfl | simp)
@[simp] theorem Dev.entMark_port (n : Nat) : (d.entMark n).port = d.port := by
  unfold Dev.entMark; (try dsimp only); (repeat' split) <;> (first | rfl | simp)
@[simp] theorem Dev.entMark_conv (n : Nat) : (d.entMark n).conv = d.conv := by
  unfold Dev.entMark; (try dsimp only); (repeat' split) <;> (first | rfl | simp)
@[simp] theorem Dev.entMark_scv (n : Nat) : (d.entMark n).scv = d.scv := by
  unfold Dev.entMark; (try dsimp only); (repeat' split) <;> (first | rfl | simp)
@[simp] theorem Dev.entMark_icv (n : Nat) : (d.entMark n).icv = d.icv := by
  unfold Dev.entMark; (try dsimp only); (repeat' split) <;> (first | rfl | simp)
@[simp] theorem Dev.entMark_sage (n : Nat) : (d.entMark n).sage = d.sage := by
  unfold Dev.entMark; (try dsimp only); (repeat' split) <;> (first | rfl | simp)
@[simp] theorem Dev.entMark_slot (n : Nat) : (d.entMark n).slot = d.slot := by
  unfold Dev.entMark; (try dsimp only); (repeat' split) <;> (first | rfl | simp)
@[simp] theorem Dev.entMark_ring (n : Nat) : (d.entMark n).ring = d.ring := by
  unfold Dev.entMark; (try dsimp only); (repeat' split) <;> (first | rfl | simp)
@[simp] theorem Dev.entMark_thr (n : Nat) : (d.entMark n).thr = d.thr := by
  unfold Dev.entMark; (try dsimp only); (repeat' split) <;> (first | rfl | simp)
@[simp] theorem Dev.entMark_rq (n : Nat) : (d.entMark n).rq = d.rq := by
  unfold Dev.entMark; (try dsimp only); (repeat' split) <;> (first | rfl | simp)
@[simp] theorem Dev.entMark_rqHi (n : Nat) : (d.entMark n).rqHi = d.rqHi := by
  unfold Dev.entMark; (try dsimp only); (repeat' split) <;> (first | rfl | simp)
@[simp] theorem Dev.entMark_rqHead (n : Nat) : (d.entMark n).rqHead = d.rqHead := by
  unfold Dev.entMark; (try dsimp only); (repeat' split) <;> (first | rfl | simp)
@[simp] theorem Dev.entMark_host (n : Nat) : (d.entMark n).host = d.host := by
  unfold Dev.entMark; (try dsimp only); (repeat' split) <;> (first | rfl | simp)
@[simp] theorem Dev.entMark_vc (n : Nat) : (d.entMark n).vc = d.vc := by
  unfold Dev.entMark; (try dsimp only); (repeat' split) <;> (first | rfl | simp)
@[simp] theorem Dev.entMark_stream (n : Nat) : (d.entMark n).stream = d.stream := by
  unfold Dev.entMark; (try dsimp only); (repeat' split) <;> (first | rfl | simp)
@[simp] theorem Dev.entMark_tw (n : Nat) : (d.entMark n).tw = d.tw := by
  unfold Dev.entMark; (try dsimp only); (repeat' split) <;> (first | rfl | simp)
@[simp] theorem Dev.entMark_bmc (n : Nat) : (d.entMark n).bmc = d.bmc := by
  unfold Dev.entMark; (try dsimp only); (repeat' split) <;> (first | rfl | simp)
@[simp] theorem Dev.entMark_core (n : Nat) : (d.entMark n).core = d.core := by
  unfold Dev.entMark; (try dsimp only); (repeat' split) <;> (first | rfl | simp)
@[simp] theorem Dev.entMark_mem (n : Nat) : (d.entMark n).mem = d.mem := by
  unfold Dev.entMark; (try dsimp only); (repeat' split) <;> (first | rfl | simp)
@[simp] theorem Dev.entMark_flt (n : Nat) : (d.entMark n).flt = d.flt := by
  unfold Dev.entMark; (try dsimp only); (repeat' split) <;> (first | rfl | simp)
@[simp] theorem Dev.entMark_keep (n : Nat) : (d.entMark n).keep = d.keep := by
  unfold Dev.entMark; (try dsimp only); (repeat' split) <;> (first | rfl | simp)
@[simp] theorem Dev.entMark_link (n : Nat) : (d.entMark n).link = d.link := by
  unfold Dev.entMark; (try dsimp only); (repeat' split) <;> (first | rfl | simp)
@[simp] theorem Dev.entMark_hw (n : Nat) : (d.entMark n).hw = d.hw := by
  unfold Dev.entMark; (try dsimp only); (repeat' split) <;> (first | rfl | simp)
@[simp] theorem Dev.entMark_stg (n : Nat) : (d.entMark n).stg = d.stg := by
  unfold Dev.entMark; (try dsimp only); (repeat' split) <;> (first | rfl | simp)
@[simp] theorem Dev.B_entMark (n : Nat) (i : Nat) : (d.entMark n).B i = d.B i := by
  simp [Dev.B]
@[simp] theorem Dev.RT_entMark (n : Nat) (i : Nat) : (d.entMark n).RT i = d.RT i := by
  simp [Dev.RT]
@[simp] theorem Dev.R_entMark (n : Nat) (i : Nat) : (d.entMark n).R i = d.R i := by
  simp [Dev.R]
@[simp] theorem Dev.P_entMark (n : Nat) (i : Nat) : (d.entMark n).P i = d.P i := by
  simp [Dev.P]
@[simp] theorem Dev.IP_entMark (n : Nat) (i : Nat) : (d.entMark n).IP i = d.IP i := by
  simp [Dev.IP]
@[simp] theorem Dev.C_entMark (n : Nat) (i : Nat) : (d.entMark n).C i = d.C i := by
  simp [Dev.C]
@[simp] theorem Dev.SQ_entMark (n : Nat) (i : Nat) : (d.entMark n).SQ i = d.SQ i := by
  simp [Dev.SQ]
@[simp] theorem Dev.IC_entMark (n : Nat) (i : Nat) : (d.entMark n).IC i = d.IC i := by
  simp [Dev.IC]
@[simp] theorem Dev.SG_entMark (n : Nat) (i : Nat) : (d.entMark n).SG i = d.SG i := by
  simp [Dev.SG]
@[simp] theorem Dev.SL_entMark (n : Nat) (i : Nat) : (d.entMark n).SL i = d.SL i := by
  simp [Dev.SL]
@[simp] theorem Dev.RG_entMark (n : Nat) (i : Nat) : (d.entMark n).RG i = d.RG i := by
  simp [Dev.RG]
@[simp] theorem Dev.T_entMark (n : Nat) (i : Nat) : (d.entMark n).T i = d.T i := by
  simp [Dev.T]
@[simp] theorem Dev.Q_entMark (n : Nat) (i : Nat) : (d.entMark n).Q i = d.Q i := by
  simp [Dev.Q]
@[simp] theorem Dev.V_entMark (n : Nat) (i : Nat) : (d.entMark n).V i = d.V i := by
  simp [Dev.V]
@[simp] theorem Dev.W_entMark (n : Nat) (i : Nat) : (d.entMark n).W i = d.W i := by
  simp [Dev.W]
@[simp] theorem Dev.K_entMark (n : Nat) (i : Nat) : (d.entMark n).K i = d.K i := by
  simp [Dev.K]
@[simp] theorem Dev.word_entMark (n : Nat) (i : Nat) : (d.entMark n).word i = d.word i := by
  simp [Dev.word]
@[simp] theorem Dev.rd_entMark (n : Nat) (f : Fld) : (d.entMark n).rd f = d.rd f := by
  simp [Dev.rd]

/-! ## `entGo` -/

@[simp] theorem Dev.entGo_clk (n st : Nat) (g : Gate) : (d.entGo n st g).clk = d.clk := by
  unfold Dev.entGo; (try dsimp only); (repeat' split) <;> (first | rfl | simp)
@[simp] theorem Dev.entGo_mode (n st : Nat) (g : Gate) : (d.entGo n st g).mode = d.mode := by
  unfold Dev.entGo; (try dsimp only); (repeat' split) <;> (first | rfl | simp)
@[simp] theorem Dev.entGo_br (n st : Nat) (g : Gate) : (d.entGo n st g).br = d.br := by
  unfold Dev.entGo; (try dsimp only); (repeat' split) <;> (first | rfl | simp)
@[simp] theorem Dev.entGo_rail (n st : Nat) (g : Gate) : (d.entGo n st g).rail = d.rail := by
  unfold Dev.entGo; (try dsimp only); (repeat' split) <;> (first | rfl | simp)
@[simp] theorem Dev.entGo_ph (n st : Nat) (g : Gate) : (d.entGo n st g).ph = d.ph := by
  unfold Dev.entGo; (try dsimp only); (repeat' split) <;> (first | rfl | simp)
@[simp] theorem Dev.entGo_port (n st : Nat) (g : Gate) : (d.entGo n st g).port = d.port := by
  unfold Dev.entGo; (try dsimp only); (repeat' split) <;> (first | rfl | simp)
@[simp] theorem Dev.entGo_conv (n st : Nat) (g : Gate) : (d.entGo n st g).conv = d.conv := by
  unfold Dev.entGo; (try dsimp only); (repeat' split) <;> (first | rfl | simp)
@[simp] theorem Dev.entGo_scv (n st : Nat) (g : Gate) : (d.entGo n st g).scv = d.scv := by
  unfold Dev.entGo; (try dsimp only); (repeat' split) <;> (first | rfl | simp)
@[simp] theorem Dev.entGo_icv (n st : Nat) (g : Gate) : (d.entGo n st g).icv = d.icv := by
  unfold Dev.entGo; (try dsimp only); (repeat' split) <;> (first | rfl | simp)
@[simp] theorem Dev.entGo_sage (n st : Nat) (g : Gate) : (d.entGo n st g).sage = d.sage := by
  unfold Dev.entGo; (try dsimp only); (repeat' split) <;> (first | rfl | simp)
@[simp] theorem Dev.entGo_slot (n st : Nat) (g : Gate) : (d.entGo n st g).slot = d.slot := by
  unfold Dev.entGo; (try dsimp only); (repeat' split) <;> (first | rfl | simp)
@[simp] theorem Dev.entGo_ring (n st : Nat) (g : Gate) : (d.entGo n st g).ring = d.ring := by
  unfold Dev.entGo; (try dsimp only); (repeat' split) <;> (first | rfl | simp)
@[simp] theorem Dev.entGo_thr (n st : Nat) (g : Gate) : (d.entGo n st g).thr = d.thr := by
  unfold Dev.entGo; (try dsimp only); (repeat' split) <;> (first | rfl | simp)
@[simp] theorem Dev.entGo_rq (n st : Nat) (g : Gate) : (d.entGo n st g).rq = d.rq := by
  unfold Dev.entGo; (try dsimp only); (repeat' split) <;> (first | rfl | simp)
@[simp] theorem Dev.entGo_rqHi (n st : Nat) (g : Gate) : (d.entGo n st g).rqHi = d.rqHi := by
  unfold Dev.entGo; (try dsimp only); (repeat' split) <;> (first | rfl | simp)
@[simp] theorem Dev.entGo_rqHead (n st : Nat) (g : Gate) : (d.entGo n st g).rqHead = d.rqHead := by
  unfold Dev.entGo; (try dsimp only); (repeat' split) <;> (first | rfl | simp)
@[simp] theorem Dev.entGo_host (n st : Nat) (g : Gate) : (d.entGo n st g).host = d.host := by
  unfold Dev.entGo; (try dsimp only); (repeat' split) <;> (first | rfl | simp)
@[simp] theorem Dev.entGo_vc (n st : Nat) (g : Gate) : (d.entGo n st g).vc = d.vc := by
  unfold Dev.entGo; (try dsimp only); (repeat' split) <;> (first | rfl | simp)
@[simp] theorem Dev.entGo_stream (n st : Nat) (g : Gate) : (d.entGo n st g).stream = d.stream := by
  unfold Dev.entGo; (try dsimp only); (repeat' split) <;> (first | rfl | simp)
@[simp] theorem Dev.entGo_tw (n st : Nat) (g : Gate) : (d.entGo n st g).tw = d.tw := by
  unfold Dev.entGo; (try dsimp only); (repeat' split) <;> (first | rfl | simp)
@[simp] theorem Dev.entGo_bmc (n st : Nat) (g : Gate) : (d.entGo n st g).bmc = d.bmc := by
  unfold Dev.entGo; (try dsimp only); (repeat' split) <;> (first | rfl | simp)
@[simp] theorem Dev.entGo_core (n st : Nat) (g : Gate) : (d.entGo n st g).core = d.core := by
  unfold Dev.entGo; (try dsimp only); (repeat' split) <;> (first | rfl | simp)
@[simp] theorem Dev.entGo_keep (n st : Nat) (g : Gate) : (d.entGo n st g).keep = d.keep := by
  unfold Dev.entGo; (try dsimp only); (repeat' split) <;> (first | rfl | simp)
@[simp] theorem Dev.entGo_link (n st : Nat) (g : Gate) : (d.entGo n st g).link = d.link := by
  unfold Dev.entGo; (try dsimp only); (repeat' split) <;> (first | rfl | simp)
@[simp] theorem Dev.entGo_stg (n st : Nat) (g : Gate) : (d.entGo n st g).stg = d.stg := by
  unfold Dev.entGo; (try dsimp only); (repeat' split) <;> (first | rfl | simp)
@[simp] theorem Dev.B_entGo (n st : Nat) (g : Gate) (i : Nat) : (d.entGo n st g).B i = d.B i := by
  simp [Dev.B]
@[simp] theorem Dev.R_entGo (n st : Nat) (g : Gate) (i : Nat) : (d.entGo n st g).R i = d.R i := by
  simp [Dev.R]
@[simp] theorem Dev.P_entGo (n st : Nat) (g : Gate) (i : Nat) : (d.entGo n st g).P i = d.P i := by
  simp [Dev.P]
@[simp] theorem Dev.IP_entGo (n st : Nat) (g : Gate) (i : Nat) : (d.entGo n st g).IP i = d.IP i := by
  simp [Dev.IP]
@[simp] theorem Dev.C_entGo (n st : Nat) (g : Gate) (i : Nat) : (d.entGo n st g).C i = d.C i := by
  simp [Dev.C]
@[simp] theorem Dev.SQ_entGo (n st : Nat) (g : Gate) (i : Nat) : (d.entGo n st g).SQ i = d.SQ i := by
  simp [Dev.SQ]
@[simp] theorem Dev.IC_entGo (n st : Nat) (g : Gate) (i : Nat) : (d.entGo n st g).IC i = d.IC i := by
  simp [Dev.IC]
@[simp] theorem Dev.SG_entGo (n st : Nat) (g : Gate) (i : Nat) : (d.entGo n st g).SG i = d.SG i := by
  simp [Dev.SG]
@[simp] theorem Dev.SL_entGo (n st : Nat) (g : Gate) (i : Nat) : (d.entGo n st g).SL i = d.SL i := by
  simp [Dev.SL]
@[simp] theorem Dev.RG_entGo (n st : Nat) (g : Gate) (i : Nat) : (d.entGo n st g).RG i = d.RG i := by
  simp [Dev.RG]
@[simp] theorem Dev.T_entGo (n st : Nat) (g : Gate) (i : Nat) : (d.entGo n st g).T i = d.T i := by
  simp [Dev.T]
@[simp] theorem Dev.Q_entGo (n st : Nat) (g : Gate) (i : Nat) : (d.entGo n st g).Q i = d.Q i := by
  simp [Dev.Q]
@[simp] theorem Dev.V_entGo (n st : Nat) (g : Gate) (i : Nat) : (d.entGo n st g).V i = d.V i := by
  simp [Dev.V]
@[simp] theorem Dev.W_entGo (n st : Nat) (g : Gate) (i : Nat) : (d.entGo n st g).W i = d.W i := by
  simp [Dev.W]
@[simp] theorem Dev.K_entGo (n st : Nat) (g : Gate) (i : Nat) : (d.entGo n st g).K i = d.K i := by
  simp [Dev.K]

/-! ## `ipReady` -/

@[simp] theorem Dev.ipReady_regs (n k p : Nat) : (d.ipReady n k p).regs = d.regs := by
  unfold Dev.ipReady; (try dsimp only); (repeat' split) <;> (first | rfl | simp)
@[simp] theorem Dev.ipReady_clk (n k p : Nat) : (d.ipReady n k p).clk = d.clk := by
  unfold Dev.ipReady; (try dsimp only); (repeat' split) <;> (first | rfl | simp)
@[simp] theorem Dev.ipReady_mode (n k p : Nat) : (d.ipReady n k p).mode = d.mode := by
  unfold Dev.ipReady; (try dsimp only); (repeat' split) <;> (first | rfl | simp)
@[simp] theorem Dev.ipReady_ent (n k p : Nat) : (d.ipReady n k p).ent = d.ent := by
  unfold Dev.ipReady; (try dsimp only); (repeat' split) <;> (first | rfl | simp)
@[simp] theorem Dev.ipReady_br (n k p : Nat) : (d.ipReady n k p).br = d.br := by
  unfold Dev.ipReady; (try dsimp only); (repeat' split) <;> (first | rfl | simp)
@[simp] theorem Dev.ipReady_retry (n k p : Nat) : (d.ipReady n k p).retry = d.retry := by
  unfold Dev.ipReady; (try dsimp only); (repeat' split) <;> (first | rfl | simp)
@[simp] theorem Dev.ipReady_rail (n k p : Nat) : (d.ipReady n k p).rail = d.rail := by
  unfold Dev.ipReady; (try dsimp only); (repeat' split) <;> (first | rfl | simp)
@[simp] theorem Dev.ipReady_ph (n k p : Nat) : (d.ipReady n k p).ph = d.ph := by
  unfold Dev.ipReady; (try dsimp only); (repeat' split) <;> (first | rfl | simp)
@[simp] theorem Dev.ipReady_conv (n k p : Nat) : (d.ipReady n k p).conv = d.conv := by
  unfold Dev.ipReady; (try dsimp only); (repeat' split) <;> (first | rfl | simp)
@[simp] theorem Dev.ipReady_scv (n k p : Nat) : (d.ipReady n k p).scv = d.scv := by
  unfold Dev.ipReady; (try dsimp only); (repeat' split) <;> (first | rfl | simp)
@[simp] theorem Dev.ipReady_icv (n k p : Nat) : (d.ipReady n k p).icv = d.icv := by
  unfold Dev.ipReady; (try dsimp only); (repeat' split) <;> (first | rfl | simp)
@[simp] theorem Dev.ipReady_sage (n k p : Nat) : (d.ipReady n k p).sage = d.sage := by
  unfold Dev.ipReady; (try dsimp only); (repeat' split) <;> (first | rfl | simp)
@[simp] theorem Dev.ipReady_slot (n k p : Nat) : (d.ipReady n k p).slot = d.slot := by
  unfold Dev.ipReady; (try dsimp only); (repeat' split) <;> (first | rfl | simp)
@[simp] theorem Dev.ipReady_ring (n k p : Nat) : (d.ipReady n k p).ring = d.ring := by
  unfold Dev.ipReady; (try dsimp only); (repeat' split) <;> (first | rfl | simp)
@[simp] theorem Dev.ipReady_thr (n k p : Nat) : (d.ipReady n k p).thr = d.thr := by
  unfold Dev.ipReady; (try dsimp only); (repeat' split) <;> (first | rfl | simp)
@[simp] theorem Dev.ipReady_rq (n k p : Nat) : (d.ipReady n k p).rq = d.rq := by
  unfold Dev.ipReady; (try dsimp only); (repeat' split) <;> (first | rfl | simp)
@[simp] theorem Dev.ipReady_rqHi (n k p : Nat) : (d.ipReady n k p).rqHi = d.rqHi := by
  unfold Dev.ipReady; (try dsimp only); (repeat' split) <;> (first | rfl | simp)
@[simp] theorem Dev.ipReady_rqHead (n k p : Nat) : (d.ipReady n k p).rqHead = d.rqHead := by
  unfold Dev.ipReady; (try dsimp only); (repeat' split) <;> (first | rfl | simp)
@[simp] theorem Dev.ipReady_host (n k p : Nat) : (d.ipReady n k p).host = d.host := by
  unfold Dev.ipReady; (try dsimp only); (repeat' split) <;> (first | rfl | simp)
@[simp] theorem Dev.ipReady_vc (n k p : Nat) : (d.ipReady n k p).vc = d.vc := by
  unfold Dev.ipReady; (try dsimp only); (repeat' split) <;> (first | rfl | simp)
@[simp] theorem Dev.ipReady_stream (n k p : Nat) : (d.ipReady n k p).stream = d.stream := by
  unfold Dev.ipReady; (try dsimp only); (repeat' split) <;> (first | rfl | simp)
@[simp] theorem Dev.ipReady_tw (n k p : Nat) : (d.ipReady n k p).tw = d.tw := by
  unfold Dev.ipReady; (try dsimp only); (repeat' split) <;> (first | rfl | simp)
@[simp] theorem Dev.ipReady_bmc (n k p : Nat) : (d.ipReady n k p).bmc = d.bmc := by
  unfold Dev.ipReady; (try dsimp only); (repeat' split) <;> (first | rfl | simp)
@[simp] theorem Dev.ipReady_core (n k p : Nat) : (d.ipReady n k p).core = d.core := by
  unfold Dev.ipReady; (try dsimp only); (repeat' split) <;> (first | rfl | simp)
@[simp] theorem Dev.ipReady_mem (n k p : Nat) : (d.ipReady n k p).mem = d.mem := by
  unfold Dev.ipReady; (try dsimp only); (repeat' split) <;> (first | rfl | simp)
@[simp] theorem Dev.ipReady_flt (n k p : Nat) : (d.ipReady n k p).flt = d.flt := by
  unfold Dev.ipReady; (try dsimp only); (repeat' split) <;> (first | rfl | simp)
@[simp] theorem Dev.ipReady_keep (n k p : Nat) : (d.ipReady n k p).keep = d.keep := by
  unfold Dev.ipReady; (try dsimp only); (repeat' split) <;> (first | rfl | simp)
@[simp] theorem Dev.ipReady_link (n k p : Nat) : (d.ipReady n k p).link = d.link := by
  unfold Dev.ipReady; (try dsimp only); (repeat' split) <;> (first | rfl | simp)
@[simp] theorem Dev.ipReady_hw (n k p : Nat) : (d.ipReady n k p).hw = d.hw := by
  unfold Dev.ipReady; (try dsimp only); (repeat' split) <;> (first | rfl | simp)
@[simp] theorem Dev.ipReady_stg (n k p : Nat) : (d.ipReady n k p).stg = d.stg := by
  unfold Dev.ipReady; (try dsimp only); (repeat' split) <;> (first | rfl | simp)
@[simp] theorem Dev.E_ipReady (n k p : Nat) (i : Nat) : (d.ipReady n k p).E i = d.E i := by
  simp [Dev.E]
@[simp] theorem Dev.B_ipReady (n k p : Nat) (i : Nat) : (d.ipReady n k p).B i = d.B i := by
  simp [Dev.B]
@[simp] theorem Dev.RT_ipReady (n k p : Nat) (i : Nat) : (d.ipReady n k p).RT i = d.RT i := by
  simp [Dev.RT]
@[simp] theorem Dev.R_ipReady (n k p : Nat) (i : Nat) : (d.ipReady n k p).R i = d.R i := by
  simp [Dev.R]
@[simp] theorem Dev.P_ipReady (n k p : Nat) (i : Nat) : (d.ipReady n k p).P i = d.P i := by
  simp [Dev.P]
@[simp] theorem Dev.C_ipReady (n k p : Nat) (i : Nat) : (d.ipReady n k p).C i = d.C i := by
  simp [Dev.C]
@[simp] theorem Dev.SQ_ipReady (n k p : Nat) (i : Nat) : (d.ipReady n k p).SQ i = d.SQ i := by
  simp [Dev.SQ]
@[simp] theorem Dev.IC_ipReady (n k p : Nat) (i : Nat) : (d.ipReady n k p).IC i = d.IC i := by
  simp [Dev.IC]
@[simp] theorem Dev.SG_ipReady (n k p : Nat) (i : Nat) : (d.ipReady n k p).SG i = d.SG i := by
  simp [Dev.SG]
@[simp] theorem Dev.SL_ipReady (n k p : Nat) (i : Nat) : (d.ipReady n k p).SL i = d.SL i := by
  simp [Dev.SL]
@[simp] theorem Dev.RG_ipReady (n k p : Nat) (i : Nat) : (d.ipReady n k p).RG i = d.RG i := by
  simp [Dev.RG]
@[simp] theorem Dev.T_ipReady (n k p : Nat) (i : Nat) : (d.ipReady n k p).T i = d.T i := by
  simp [Dev.T]
@[simp] theorem Dev.Q_ipReady (n k p : Nat) (i : Nat) : (d.ipReady n k p).Q i = d.Q i := by
  simp [Dev.Q]
@[simp] theorem Dev.V_ipReady (n k p : Nat) (i : Nat) : (d.ipReady n k p).V i = d.V i := by
  simp [Dev.V]
@[simp] theorem Dev.W_ipReady (n k p : Nat) (i : Nat) : (d.ipReady n k p).W i = d.W i := by
  simp [Dev.W]
@[simp] theorem Dev.K_ipReady (n k p : Nat) (i : Nat) : (d.ipReady n k p).K i = d.K i := by
  simp [Dev.K]
@[simp] theorem Dev.word_ipReady (n k p : Nat) (i : Nat) : (d.ipReady n k p).word i = d.word i := by
  simp [Dev.word]
@[simp] theorem Dev.rd_ipReady (n k p : Nat) (f : Fld) : (d.ipReady n k p).rd f = d.rd f := by
  simp [Dev.rd]

/-! ## `ipAck` -/

@[simp] theorem Dev.ipAck_regs (n a b c e : Nat) : (d.ipAck n a b c e).regs = d.regs := by
  unfold Dev.ipAck; (try dsimp only); (repeat' split) <;> (first | rfl | simp)
@[simp] theorem Dev.ipAck_clk (n a b c e : Nat) : (d.ipAck n a b c e).clk = d.clk := by
  unfold Dev.ipAck; (try dsimp only); (repeat' split) <;> (first | rfl | simp)
@[simp] theorem Dev.ipAck_mode (n a b c e : Nat) : (d.ipAck n a b c e).mode = d.mode := by
  unfold Dev.ipAck; (try dsimp only); (repeat' split) <;> (first | rfl | simp)
@[simp] theorem Dev.ipAck_ent (n a b c e : Nat) : (d.ipAck n a b c e).ent = d.ent := by
  unfold Dev.ipAck; (try dsimp only); (repeat' split) <;> (first | rfl | simp)
@[simp] theorem Dev.ipAck_br (n a b c e : Nat) : (d.ipAck n a b c e).br = d.br := by
  unfold Dev.ipAck; (try dsimp only); (repeat' split) <;> (first | rfl | simp)
@[simp] theorem Dev.ipAck_retry (n a b c e : Nat) : (d.ipAck n a b c e).retry = d.retry := by
  unfold Dev.ipAck; (try dsimp only); (repeat' split) <;> (first | rfl | simp)
@[simp] theorem Dev.ipAck_rail (n a b c e : Nat) : (d.ipAck n a b c e).rail = d.rail := by
  unfold Dev.ipAck; (try dsimp only); (repeat' split) <;> (first | rfl | simp)
@[simp] theorem Dev.ipAck_ph (n a b c e : Nat) : (d.ipAck n a b c e).ph = d.ph := by
  unfold Dev.ipAck; (try dsimp only); (repeat' split) <;> (first | rfl | simp)
@[simp] theorem Dev.ipAck_conv (n a b c e : Nat) : (d.ipAck n a b c e).conv = d.conv := by
  unfold Dev.ipAck; (try dsimp only); (repeat' split) <;> (first | rfl | simp)
@[simp] theorem Dev.ipAck_scv (n a b c e : Nat) : (d.ipAck n a b c e).scv = d.scv := by
  unfold Dev.ipAck; (try dsimp only); (repeat' split) <;> (first | rfl | simp)
@[simp] theorem Dev.ipAck_icv (n a b c e : Nat) : (d.ipAck n a b c e).icv = d.icv := by
  unfold Dev.ipAck; (try dsimp only); (repeat' split) <;> (first | rfl | simp)
@[simp] theorem Dev.ipAck_sage (n a b c e : Nat) : (d.ipAck n a b c e).sage = d.sage := by
  unfold Dev.ipAck; (try dsimp only); (repeat' split) <;> (first | rfl | simp)
@[simp] theorem Dev.ipAck_slot (n a b c e : Nat) : (d.ipAck n a b c e).slot = d.slot := by
  unfold Dev.ipAck; (try dsimp only); (repeat' split) <;> (first | rfl | simp)
@[simp] theorem Dev.ipAck_ring (n a b c e : Nat) : (d.ipAck n a b c e).ring = d.ring := by
  unfold Dev.ipAck; (try dsimp only); (repeat' split) <;> (first | rfl | simp)
@[simp] theorem Dev.ipAck_thr (n a b c e : Nat) : (d.ipAck n a b c e).thr = d.thr := by
  unfold Dev.ipAck; (try dsimp only); (repeat' split) <;> (first | rfl | simp)
@[simp] theorem Dev.ipAck_rq (n a b c e : Nat) : (d.ipAck n a b c e).rq = d.rq := by
  unfold Dev.ipAck; (try dsimp only); (repeat' split) <;> (first | rfl | simp)
@[simp] theorem Dev.ipAck_rqHi (n a b c e : Nat) : (d.ipAck n a b c e).rqHi = d.rqHi := by
  unfold Dev.ipAck; (try dsimp only); (repeat' split) <;> (first | rfl | simp)
@[simp] theorem Dev.ipAck_rqHead (n a b c e : Nat) : (d.ipAck n a b c e).rqHead = d.rqHead := by
  unfold Dev.ipAck; (try dsimp only); (repeat' split) <;> (first | rfl | simp)
@[simp] theorem Dev.ipAck_host (n a b c e : Nat) : (d.ipAck n a b c e).host = d.host := by
  unfold Dev.ipAck; (try dsimp only); (repeat' split) <;> (first | rfl | simp)
@[simp] theorem Dev.ipAck_vc (n a b c e : Nat) : (d.ipAck n a b c e).vc = d.vc := by
  unfold Dev.ipAck; (try dsimp only); (repeat' split) <;> (first | rfl | simp)
@[simp] theorem Dev.ipAck_stream (n a b c e : Nat) : (d.ipAck n a b c e).stream = d.stream := by
  unfold Dev.ipAck; (try dsimp only); (repeat' split) <;> (first | rfl | simp)
@[simp] theorem Dev.ipAck_tw (n a b c e : Nat) : (d.ipAck n a b c e).tw = d.tw := by
  unfold Dev.ipAck; (try dsimp only); (repeat' split) <;> (first | rfl | simp)
@[simp] theorem Dev.ipAck_bmc (n a b c e : Nat) : (d.ipAck n a b c e).bmc = d.bmc := by
  unfold Dev.ipAck; (try dsimp only); (repeat' split) <;> (first | rfl | simp)
@[simp] theorem Dev.ipAck_core (n a b c e : Nat) : (d.ipAck n a b c e).core = d.core := by
  unfold Dev.ipAck; (try dsimp only); (repeat' split) <;> (first | rfl | simp)
@[simp] theorem Dev.ipAck_mem (n a b c e : Nat) : (d.ipAck n a b c e).mem = d.mem := by
  unfold Dev.ipAck; (try dsimp only); (repeat' split) <;> (first | rfl | simp)
@[simp] theorem Dev.ipAck_flt (n a b c e : Nat) : (d.ipAck n a b c e).flt = d.flt := by
  unfold Dev.ipAck; (try dsimp only); (repeat' split) <;> (first | rfl | simp)
@[simp] theorem Dev.ipAck_keep (n a b c e : Nat) : (d.ipAck n a b c e).keep = d.keep := by
  unfold Dev.ipAck; (try dsimp only); (repeat' split) <;> (first | rfl | simp)
@[simp] theorem Dev.ipAck_link (n a b c e : Nat) : (d.ipAck n a b c e).link = d.link := by
  unfold Dev.ipAck; (try dsimp only); (repeat' split) <;> (first | rfl | simp)
@[simp] theorem Dev.ipAck_hw (n a b c e : Nat) : (d.ipAck n a b c e).hw = d.hw := by
  unfold Dev.ipAck; (try dsimp only); (repeat' split) <;> (first | rfl | simp)
@[simp] theorem Dev.ipAck_stg (n a b c e : Nat) : (d.ipAck n a b c e).stg = d.stg := by
  unfold Dev.ipAck; (try dsimp only); (repeat' split) <;> (first | rfl | simp)
@[simp] theorem Dev.E_ipAck (n a b c e : Nat) (i : Nat) : (d.ipAck n a b c e).E i = d.E i := by
  simp [Dev.E]
@[simp] theorem Dev.B_ipAck (n a b c e : Nat) (i : Nat) : (d.ipAck n a b c e).B i = d.B i := by
  simp [Dev.B]
@[simp] theorem Dev.RT_ipAck (n a b c e : Nat) (i : Nat) : (d.ipAck n a b c e).RT i = d.RT i := by
  simp [Dev.RT]
@[simp] theorem Dev.R_ipAck (n a b c e : Nat) (i : Nat) : (d.ipAck n a b c e).R i = d.R i := by
  simp [Dev.R]
@[simp] theorem Dev.P_ipAck (n a b c e : Nat) (i : Nat) : (d.ipAck n a b c e).P i = d.P i := by
  simp [Dev.P]
@[simp] theorem Dev.C_ipAck (n a b c e : Nat) (i : Nat) : (d.ipAck n a b c e).C i = d.C i := by
  simp [Dev.C]
@[simp] theorem Dev.SQ_ipAck (n a b c e : Nat) (i : Nat) : (d.ipAck n a b c e).SQ i = d.SQ i := by
  simp [Dev.SQ]
@[simp] theorem Dev.IC_ipAck (n a b c e : Nat) (i : Nat) : (d.ipAck n a b c e).IC i = d.IC i := by
  simp [Dev.IC]
@[simp] theorem Dev.SG_ipAck (n a b c e : Nat) (i : Nat) : (d.ipAck n a b c e).SG i = d.SG i := by
  simp [Dev.SG]
@[simp] theorem Dev.SL_ipAck (n a b c e : Nat) (i : Nat) : (d.ipAck n a b c e).SL i = d.SL i := by
  simp [Dev.SL]
@[simp] theorem Dev.RG_ipAck (n a b c e : Nat) (i : Nat) : (d.ipAck n a b c e).RG i = d.RG i := by
  simp [Dev.RG]
@[simp] theorem Dev.T_ipAck (n a b c e : Nat) (i : Nat) : (d.ipAck n a b c e).T i = d.T i := by
  simp [Dev.T]
@[simp] theorem Dev.Q_ipAck (n a b c e : Nat) (i : Nat) : (d.ipAck n a b c e).Q i = d.Q i := by
  simp [Dev.Q]
@[simp] theorem Dev.V_ipAck (n a b c e : Nat) (i : Nat) : (d.ipAck n a b c e).V i = d.V i := by
  simp [Dev.V]
@[simp] theorem Dev.W_ipAck (n a b c e : Nat) (i : Nat) : (d.ipAck n a b c e).W i = d.W i := by
  simp [Dev.W]
@[simp] theorem Dev.K_ipAck (n a b c e : Nat) (i : Nat) : (d.ipAck n a b c e).K i = d.K i := by
  simp [Dev.K]
@[simp] theorem Dev.word_ipAck (n a b c e : Nat) (i : Nat) : (d.ipAck n a b c e).word i = d.word i := by
  simp [Dev.word]
@[simp] theorem Dev.rd_ipAck (n a b c e : Nat) (f : Fld) : (d.ipAck n a b c e).rd f = d.rd f := by
  simp [Dev.rd]

/-! ## `ipDeny` -/

@[simp] theorem Dev.ipDeny_regs (n a b c : Nat) : (d.ipDeny n a b c).regs = d.regs := by
  unfold Dev.ipDeny; (try dsimp only); (repeat' split) <;> (first | rfl | simp)
@[simp] theorem Dev.ipDeny_clk (n a b c : Nat) : (d.ipDeny n a b c).clk = d.clk := by
  unfold Dev.ipDeny; (try dsimp only); (repeat' split) <;> (first | rfl | simp)
@[simp] theorem Dev.ipDeny_mode (n a b c : Nat) : (d.ipDeny n a b c).mode = d.mode := by
  unfold Dev.ipDeny; (try dsimp only); (repeat' split) <;> (first | rfl | simp)
@[simp] theorem Dev.ipDeny_ent (n a b c : Nat) : (d.ipDeny n a b c).ent = d.ent := by
  unfold Dev.ipDeny; (try dsimp only); (repeat' split) <;> (first | rfl | simp)
@[simp] theorem Dev.ipDeny_br (n a b c : Nat) : (d.ipDeny n a b c).br = d.br := by
  unfold Dev.ipDeny; (try dsimp only); (repeat' split) <;> (first | rfl | simp)
@[simp] theorem Dev.ipDeny_retry (n a b c : Nat) : (d.ipDeny n a b c).retry = d.retry := by
  unfold Dev.ipDeny; (try dsimp only); (repeat' split) <;> (first | rfl | simp)
@[simp] theorem Dev.ipDeny_rail (n a b c : Nat) : (d.ipDeny n a b c).rail = d.rail := by
  unfold Dev.ipDeny; (try dsimp only); (repeat' split) <;> (first | rfl | simp)
@[simp] theorem Dev.ipDeny_ph (n a b c : Nat) : (d.ipDeny n a b c).ph = d.ph := by
  unfold Dev.ipDeny; (try dsimp only); (repeat' split) <;> (first | rfl | simp)
@[simp] theorem Dev.ipDeny_conv (n a b c : Nat) : (d.ipDeny n a b c).conv = d.conv := by
  unfold Dev.ipDeny; (try dsimp only); (repeat' split) <;> (first | rfl | simp)
@[simp] theorem Dev.ipDeny_scv (n a b c : Nat) : (d.ipDeny n a b c).scv = d.scv := by
  unfold Dev.ipDeny; (try dsimp only); (repeat' split) <;> (first | rfl | simp)
@[simp] theorem Dev.ipDeny_icv (n a b c : Nat) : (d.ipDeny n a b c).icv = d.icv := by
  unfold Dev.ipDeny; (try dsimp only); (repeat' split) <;> (first | rfl | simp)
@[simp] theorem Dev.ipDeny_sage (n a b c : Nat) : (d.ipDeny n a b c).sage = d.sage := by
  unfold Dev.ipDeny; (try dsimp only); (repeat' split) <;> (first | rfl | simp)
@[simp] theorem Dev.ipDeny_slot (n a b c : Nat) : (d.ipDeny n a b c).slot = d.slot := by
  unfold Dev.ipDeny; (try dsimp only); (repeat' split) <;> (first | rfl | simp)
@[simp] theorem Dev.ipDeny_ring (n a b c : Nat) : (d.ipDeny n a b c).ring = d.ring := by
  unfold Dev.ipDeny; (try dsimp only); (repeat' split) <;> (first | rfl | simp)
@[simp] theorem Dev.ipDeny_thr (n a b c : Nat) : (d.ipDeny n a b c).thr = d.thr := by
  unfold Dev.ipDeny; (try dsimp only); (repeat' split) <;> (first | rfl | simp)
@[simp] theorem Dev.ipDeny_rq (n a b c : Nat) : (d.ipDeny n a b c).rq = d.rq := by
  unfold Dev.ipDeny; (try dsimp only); (repeat' split) <;> (first | rfl | simp)
@[simp] theorem Dev.ipDeny_rqHi (n a b c : Nat) : (d.ipDeny n a b c).rqHi = d.rqHi := by
  unfold Dev.ipDeny; (try dsimp only); (repeat' split) <;> (first | rfl | simp)
@[simp] theorem Dev.ipDeny_rqHead (n a b c : Nat) : (d.ipDeny n a b c).rqHead = d.rqHead := by
  unfold Dev.ipDeny; (try dsimp only); (repeat' split) <;> (first | rfl | simp)
@[simp] theorem Dev.ipDeny_host (n a b c : Nat) : (d.ipDeny n a b c).host = d.host := by
  unfold Dev.ipDeny; (try dsimp only); (repeat' split) <;> (first | rfl | simp)
@[simp] theorem Dev.ipDeny_vc (n a b c : Nat) : (d.ipDeny n a b c).vc = d.vc := by
  unfold Dev.ipDeny; (try dsimp only); (repeat' split) <;> (first | rfl | simp)
@[simp] theorem Dev.ipDeny_stream (n a b c : Nat) : (d.ipDeny n a b c).stream = d.stream := by
  unfold Dev.ipDeny; (try dsimp only); (repeat' split) <;> (first | rfl | simp)
@[simp] theorem Dev.ipDeny_tw (n a b c : Nat) : (d.ipDeny n a b c).tw = d.tw := by
  unfold Dev.ipDeny; (try dsimp only); (repeat' split) <;> (first | rfl | simp)
@[simp] theorem Dev.ipDeny_bmc (n a b c : Nat) : (d.ipDeny n a b c).bmc = d.bmc := by
  unfold Dev.ipDeny; (try dsimp only); (repeat' split) <;> (first | rfl | simp)
@[simp] theorem Dev.ipDeny_core (n a b c : Nat) : (d.ipDeny n a b c).core = d.core := by
  unfold Dev.ipDeny; (try dsimp only); (repeat' split) <;> (first | rfl | simp)
@[simp] theorem Dev.ipDeny_mem (n a b c : Nat) : (d.ipDeny n a b c).mem = d.mem := by
  unfold Dev.ipDeny; (try dsimp only); (repeat' split) <;> (first | rfl | simp)
@[simp] theorem Dev.ipDeny_flt (n a b c : Nat) : (d.ipDeny n a b c).flt = d.flt := by
  unfold Dev.ipDeny; (try dsimp only); (repeat' split) <;> (first | rfl | simp)
@[simp] theorem Dev.ipDeny_keep (n a b c : Nat) : (d.ipDeny n a b c).keep = d.keep := by
  unfold Dev.ipDeny; (try dsimp only); (repeat' split) <;> (first | rfl | simp)
@[simp] theorem Dev.ipDeny_link (n a b c : Nat) : (d.ipDeny n a b c).link = d.link := by
  unfold Dev.ipDeny; (try dsimp only); (repeat' split) <;> (first | rfl | simp)
@[simp] theorem Dev.ipDeny_hw (n a b c : Nat) : (d.ipDeny n a b c).hw = d.hw := by
  unfold Dev.ipDeny; (try dsimp only); (repeat' split) <;> (first | rfl | simp)
@[simp] theorem Dev.ipDeny_stg (n a b c : Nat) : (d.ipDeny n a b c).stg = d.stg := by
  unfold Dev.ipDeny; (try dsimp only); (repeat' split) <;> (first | rfl | simp)
@[simp] theorem Dev.E_ipDeny (n a b c : Nat) (i : Nat) : (d.ipDeny n a b c).E i = d.E i := by
  simp [Dev.E]
@[simp] theorem Dev.B_ipDeny (n a b c : Nat) (i : Nat) : (d.ipDeny n a b c).B i = d.B i := by
  simp [Dev.B]
@[simp] theorem Dev.RT_ipDeny (n a b c : Nat) (i : Nat) : (d.ipDeny n a b c).RT i = d.RT i := by
  simp [Dev.RT]
@[simp] theorem Dev.R_ipDeny (n a b c : Nat) (i : Nat) : (d.ipDeny n a b c).R i = d.R i := by
  simp [Dev.R]
@[simp] theorem Dev.P_ipDeny (n a b c : Nat) (i : Nat) : (d.ipDeny n a b c).P i = d.P i := by
  simp [Dev.P]
@[simp] theorem Dev.C_ipDeny (n a b c : Nat) (i : Nat) : (d.ipDeny n a b c).C i = d.C i := by
  simp [Dev.C]
@[simp] theorem Dev.SQ_ipDeny (n a b c : Nat) (i : Nat) : (d.ipDeny n a b c).SQ i = d.SQ i := by
  simp [Dev.SQ]
@[simp] theorem Dev.IC_ipDeny (n a b c : Nat) (i : Nat) : (d.ipDeny n a b c).IC i = d.IC i := by
  simp [Dev.IC]
@[simp] theorem Dev.SG_ipDeny (n a b c : Nat) (i : Nat) : (d.ipDeny n a b c).SG i = d.SG i := by
  simp [Dev.SG]
@[simp] theorem Dev.SL_ipDeny (n a b c : Nat) (i : Nat) : (d.ipDeny n a b c).SL i = d.SL i := by
  simp [Dev.SL]
@[simp] theorem Dev.RG_ipDeny (n a b c : Nat) (i : Nat) : (d.ipDeny n a b c).RG i = d.RG i := by
  simp [Dev.RG]
@[simp] theorem Dev.T_ipDeny (n a b c : Nat) (i : Nat) : (d.ipDeny n a b c).T i = d.T i := by
  simp [Dev.T]
@[simp] theorem Dev.Q_ipDeny (n a b c : Nat) (i : Nat) : (d.ipDeny n a b c).Q i = d.Q i := by
  simp [Dev.Q]
@[simp] theorem Dev.V_ipDeny (n a b c : Nat) (i : Nat) : (d.ipDeny n a b c).V i = d.V i := by
  simp [Dev.V]
@[simp] theorem Dev.W_ipDeny (n a b c : Nat) (i : Nat) : (d.ipDeny n a b c).W i = d.W i := by
  simp [Dev.W]
@[simp] theorem Dev.K_ipDeny (n a b c : Nat) (i : Nat) : (d.ipDeny n a b c).K i = d.K i := by
  simp [Dev.K]
@[simp] theorem Dev.word_ipDeny (n a b c : Nat) (i : Nat) : (d.ipDeny n a b c).word i = d.word i := by
  simp [Dev.word]
@[simp] theorem Dev.rd_ipDeny (n a b c : Nat) (f : Fld) : (d.ipDeny n a b c).rd f = d.rd f := by
  simp [Dev.rd]

/-! ## `ipGrant` -/

@[simp] theorem Dev.ipGrant_regs (n a b : Nat) (x : Bool) : (d.ipGrant n a b x).regs = d.regs := by
  unfold Dev.ipGrant; (try dsimp only); (repeat' split) <;> (first | rfl | simp)
@[simp] theorem Dev.ipGrant_clk (n a b : Nat) (x : Bool) : (d.ipGrant n a b x).clk = d.clk := by
  unfold Dev.ipGrant; (try dsimp only); (repeat' split) <;> (first | rfl | simp)
@[simp] theorem Dev.ipGrant_mode (n a b : Nat) (x : Bool) : (d.ipGrant n a b x).mode = d.mode := by
  unfold Dev.ipGrant; (try dsimp only); (repeat' split) <;> (first | rfl | simp)
@[simp] theorem Dev.ipGrant_ent (n a b : Nat) (x : Bool) : (d.ipGrant n a b x).ent = d.ent := by
  unfold Dev.ipGrant; (try dsimp only); (repeat' split) <;> (first | rfl | simp)
@[simp] theorem Dev.ipGrant_br (n a b : Nat) (x : Bool) : (d.ipGrant n a b x).br = d.br := by
  unfold Dev.ipGrant; (try dsimp only); (repeat' split) <;> (first | rfl | simp)
@[simp] theorem Dev.ipGrant_retry (n a b : Nat) (x : Bool) : (d.ipGrant n a b x).retry = d.retry := by
  unfold Dev.ipGrant; (try dsimp only); (repeat' split) <;> (first | rfl | simp)
@[simp] theorem Dev.ipGrant_rail (n a b : Nat) (x : Bool) : (d.ipGrant n a b x).rail = d.rail := by
  unfold Dev.ipGrant; (try dsimp only); (repeat' split) <;> (first | rfl | simp)
@[simp] theorem Dev.ipGrant_ph (n a b : Nat) (x : Bool) : (d.ipGrant n a b x).ph = d.ph := by
  unfold Dev.ipGrant; (try dsimp only); (repeat' split) <;> (first | rfl | simp)
@[simp] theorem Dev.ipGrant_conv (n a b : Nat) (x : Bool) : (d.ipGrant n a b x).conv = d.conv := by
  unfold Dev.ipGrant; (try dsimp only); (repeat' split) <;> (first | rfl | simp)
@[simp] theorem Dev.ipGrant_scv (n a b : Nat) (x : Bool) : (d.ipGrant n a b x).scv = d.scv := by
  unfold Dev.ipGrant; (try dsimp only); (repeat' split) <;> (first | rfl | simp)
@[simp] theorem Dev.ipGrant_icv (n a b : Nat) (x : Bool) : (d.ipGrant n a b x).icv = d.icv := by
  unfold Dev.ipGrant; (try dsimp only); (repeat' split) <;> (first | rfl | simp)
@[simp] theorem Dev.ipGrant_sage (n a b : Nat) (x : Bool) : (d.ipGrant n a b x).sage = d.sage := by
  unfold Dev.ipGrant; (try dsimp only); (repeat' split) <;> (first | rfl | simp)
@[simp] theorem Dev.ipGrant_slot (n a b : Nat) (x : Bool) : (d.ipGrant n a b x).slot = d.slot := by
  unfold Dev.ipGrant; (try dsimp only); (repeat' split) <;> (first | rfl | simp)
@[simp] theorem Dev.ipGrant_ring (n a b : Nat) (x : Bool) : (d.ipGrant n a b x).ring = d.ring := by
  unfold Dev.ipGrant; (try dsimp only); (repeat' split) <;> (first | rfl | simp)
@[simp] theorem Dev.ipGrant_thr (n a b : Nat) (x : Bool) : (d.ipGrant n a b x).thr = d.thr := by
  unfold Dev.ipGrant; (try dsimp only); (repeat' split) <;> (first | rfl | simp)
@[simp] theorem Dev.ipGrant_rq (n a b : Nat) (x : Bool) : (d.ipGrant n a b x).rq = d.rq := by
  unfold Dev.ipGrant; (try dsimp only); (repeat' split) <;> (first | rfl | simp)
@[simp] theorem Dev.ipGrant_rqHi (n a b : Nat) (x : Bool) : (d.ipGrant n a b x).rqHi = d.rqHi := by
  unfold Dev.ipGrant; (try dsimp only); (repeat' split) <;> (first | rfl | simp)
@[simp] theorem Dev.ipGrant_rqHead (n a b : Nat) (x : Bool) : (d.ipGrant n a b x).rqHead = d.rqHead := by
  unfold Dev.ipGrant; (try dsimp only); (repeat' split) <;> (first | rfl | simp)
@[simp] theorem Dev.ipGrant_host (n a b : Nat) (x : Bool) : (d.ipGrant n a b x).host = d.host := by
  unfold Dev.ipGrant; (try dsimp only); (repeat' split) <;> (first | rfl | simp)
@[simp] theorem Dev.ipGrant_vc (n a b : Nat) (x : Bool) : (d.ipGrant n a b x).vc = d.vc := by
  unfold Dev.ipGrant; (try dsimp only); (repeat' split) <;> (first | rfl | simp)
@[simp] theorem Dev.ipGrant_stream (n a b : Nat) (x : Bool) : (d.ipGrant n a b x).stream = d.stream := by
  unfold Dev.ipGrant; (try dsimp only); (repeat' split) <;> (first | rfl | simp)
@[simp] theorem Dev.ipGrant_tw (n a b : Nat) (x : Bool) : (d.ipGrant n a b x).tw = d.tw := by
  unfold Dev.ipGrant; (try dsimp only); (repeat' split) <;> (first | rfl | simp)
@[simp] theorem Dev.ipGrant_bmc (n a b : Nat) (x : Bool) : (d.ipGrant n a b x).bmc = d.bmc := by
  unfold Dev.ipGrant; (try dsimp only); (repeat' split) <;> (first | rfl | simp)
@[simp] theorem Dev.ipGrant_core (n a b : Nat) (x : Bool) : (d.ipGrant n a b x).core = d.core := by
  unfold Dev.ipGrant; (try dsimp only); (repeat' split) <;> (first | rfl | simp)
@[simp] theorem Dev.ipGrant_mem (n a b : Nat) (x : Bool) : (d.ipGrant n a b x).mem = d.mem := by
  unfold Dev.ipGrant; (try dsimp only); (repeat' split) <;> (first | rfl | simp)
@[simp] theorem Dev.ipGrant_flt (n a b : Nat) (x : Bool) : (d.ipGrant n a b x).flt = d.flt := by
  unfold Dev.ipGrant; (try dsimp only); (repeat' split) <;> (first | rfl | simp)
@[simp] theorem Dev.ipGrant_keep (n a b : Nat) (x : Bool) : (d.ipGrant n a b x).keep = d.keep := by
  unfold Dev.ipGrant; (try dsimp only); (repeat' split) <;> (first | rfl | simp)
@[simp] theorem Dev.ipGrant_link (n a b : Nat) (x : Bool) : (d.ipGrant n a b x).link = d.link := by
  unfold Dev.ipGrant; (try dsimp only); (repeat' split) <;> (first | rfl | simp)
@[simp] theorem Dev.ipGrant_hw (n a b : Nat) (x : Bool) : (d.ipGrant n a b x).hw = d.hw := by
  unfold Dev.ipGrant; (try dsimp only); (repeat' split) <;> (first | rfl | simp)
@[simp] theorem Dev.ipGrant_stg (n a b : Nat) (x : Bool) : (d.ipGrant n a b x).stg = d.stg := by
  unfold Dev.ipGrant; (try dsimp only); (repeat' split) <;> (first | rfl | simp)
@[simp] theorem Dev.E_ipGrant (n a b : Nat) (x : Bool) (i : Nat) : (d.ipGrant n a b x).E i = d.E i := by
  simp [Dev.E]
@[simp] theorem Dev.B_ipGrant (n a b : Nat) (x : Bool) (i : Nat) : (d.ipGrant n a b x).B i = d.B i := by
  simp [Dev.B]
@[simp] theorem Dev.RT_ipGrant (n a b : Nat) (x : Bool) (i : Nat) : (d.ipGrant n a b x).RT i = d.RT i := by
  simp [Dev.RT]
@[simp] theorem Dev.R_ipGrant (n a b : Nat) (x : Bool) (i : Nat) : (d.ipGrant n a b x).R i = d.R i := by
  simp [Dev.R]
@[simp] theorem Dev.P_ipGrant (n a b : Nat) (x : Bool) (i : Nat) : (d.ipGrant n a b x).P i = d.P i := by
  simp [Dev.P]
@[simp] theorem Dev.C_ipGrant (n a b : Nat) (x : Bool) (i : Nat) : (d.ipGrant n a b x).C i = d.C i := by
  simp [Dev.C]
@[simp] theorem Dev.SQ_ipGrant (n a b : Nat) (x : Bool) (i : Nat) : (d.ipGrant n a b x).SQ i = d.SQ i := by
  simp [Dev.SQ]
@[simp] theorem Dev.IC_ipGrant (n a b : Nat) (x : Bool) (i : Nat) : (d.ipGrant n a b x).IC i = d.IC i := by
  simp [Dev.IC]
@[simp] theorem Dev.SG_ipGrant (n a b : Nat) (x : Bool) (i : Nat) : (d.ipGrant n a b x).SG i = d.SG i := by
  simp [Dev.SG]
@[simp] theorem Dev.SL_ipGrant (n a b : Nat) (x : Bool) (i : Nat) : (d.ipGrant n a b x).SL i = d.SL i := by
  simp [Dev.SL]
@[simp] theorem Dev.RG_ipGrant (n a b : Nat) (x : Bool) (i : Nat) : (d.ipGrant n a b x).RG i = d.RG i := by
  simp [Dev.RG]
@[simp] theorem Dev.T_ipGrant (n a b : Nat) (x : Bool) (i : Nat) : (d.ipGrant n a b x).T i = d.T i := by
  simp [Dev.T]
@[simp] theorem Dev.Q_ipGrant (n a b : Nat) (x : Bool) (i : Nat) : (d.ipGrant n a b x).Q i = d.Q i := by
  simp [Dev.Q]
@[simp] theorem Dev.V_ipGrant (n a b : Nat) (x : Bool) (i : Nat) : (d.ipGrant n a b x).V i = d.V i := by
  simp [Dev.V]
@[simp] theorem Dev.W_ipGrant (n a b : Nat) (x : Bool) (i : Nat) : (d.ipGrant n a b x).W i = d.W i := by
  simp [Dev.W]
@[simp] theorem Dev.K_ipGrant (n a b : Nat) (x : Bool) (i : Nat) : (d.ipGrant n a b x).K i = d.K i := by
  simp [Dev.K]
@[simp] theorem Dev.word_ipGrant (n a b : Nat) (x : Bool) (i : Nat) : (d.ipGrant n a b x).word i = d.word i := by
  simp [Dev.word]
@[simp] theorem Dev.rd_ipGrant (n a b : Nat) (x : Bool) (f : Fld) : (d.ipGrant n a b x).rd f = d.rd f := by
  simp [Dev.rd]

/-! ## `setPg` -/

@[simp] theorem Dev.setPg_clk (r : Nat) (v : Bool) : (d.setPg r v).clk = d.clk := by
  unfold Dev.setPg; (try dsimp only); (repeat' split) <;> (first | rfl | simp)
@[simp] theorem Dev.setPg_mode (r : Nat) (v : Bool) : (d.setPg r v).mode = d.mode := by
  unfold Dev.setPg; (try dsimp only); (repeat' split) <;> (first | rfl | simp)
@[simp] theorem Dev.setPg_ent (r : Nat) (v : Bool) : (d.setPg r v).ent = d.ent := by
  unfold Dev.setPg; (try dsimp only); (repeat' split) <;> (first | rfl | simp)
@[simp] theorem Dev.setPg_br (r : Nat) (v : Bool) : (d.setPg r v).br = d.br := by
  unfold Dev.setPg; (try dsimp only); (repeat' split) <;> (first | rfl | simp)
@[simp] theorem Dev.setPg_retry (r : Nat) (v : Bool) : (d.setPg r v).retry = d.retry := by
  unfold Dev.setPg; (try dsimp only); (repeat' split) <;> (first | rfl | simp)
@[simp] theorem Dev.setPg_rail (r : Nat) (v : Bool) : (d.setPg r v).rail = d.rail := by
  unfold Dev.setPg; (try dsimp only); (repeat' split) <;> (first | rfl | simp)
@[simp] theorem Dev.setPg_ph (r : Nat) (v : Bool) : (d.setPg r v).ph = d.ph := by
  unfold Dev.setPg; (try dsimp only); (repeat' split) <;> (first | rfl | simp)
@[simp] theorem Dev.setPg_conv (r : Nat) (v : Bool) : (d.setPg r v).conv = d.conv := by
  unfold Dev.setPg; (try dsimp only); (repeat' split) <;> (first | rfl | simp)
@[simp] theorem Dev.setPg_scv (r : Nat) (v : Bool) : (d.setPg r v).scv = d.scv := by
  unfold Dev.setPg; (try dsimp only); (repeat' split) <;> (first | rfl | simp)
@[simp] theorem Dev.setPg_icv (r : Nat) (v : Bool) : (d.setPg r v).icv = d.icv := by
  unfold Dev.setPg; (try dsimp only); (repeat' split) <;> (first | rfl | simp)
@[simp] theorem Dev.setPg_sage (r : Nat) (v : Bool) : (d.setPg r v).sage = d.sage := by
  unfold Dev.setPg; (try dsimp only); (repeat' split) <;> (first | rfl | simp)
@[simp] theorem Dev.setPg_slot (r : Nat) (v : Bool) : (d.setPg r v).slot = d.slot := by
  unfold Dev.setPg; (try dsimp only); (repeat' split) <;> (first | rfl | simp)
@[simp] theorem Dev.setPg_ring (r : Nat) (v : Bool) : (d.setPg r v).ring = d.ring := by
  unfold Dev.setPg; (try dsimp only); (repeat' split) <;> (first | rfl | simp)
@[simp] theorem Dev.setPg_thr (r : Nat) (v : Bool) : (d.setPg r v).thr = d.thr := by
  unfold Dev.setPg; (try dsimp only); (repeat' split) <;> (first | rfl | simp)
@[simp] theorem Dev.setPg_rq (r : Nat) (v : Bool) : (d.setPg r v).rq = d.rq := by
  unfold Dev.setPg; (try dsimp only); (repeat' split) <;> (first | rfl | simp)
@[simp] theorem Dev.setPg_rqHi (r : Nat) (v : Bool) : (d.setPg r v).rqHi = d.rqHi := by
  unfold Dev.setPg; (try dsimp only); (repeat' split) <;> (first | rfl | simp)
@[simp] theorem Dev.setPg_rqHead (r : Nat) (v : Bool) : (d.setPg r v).rqHead = d.rqHead := by
  unfold Dev.setPg; (try dsimp only); (repeat' split) <;> (first | rfl | simp)
@[simp] theorem Dev.setPg_host (r : Nat) (v : Bool) : (d.setPg r v).host = d.host := by
  unfold Dev.setPg; (try dsimp only); (repeat' split) <;> (first | rfl | simp)
@[simp] theorem Dev.setPg_vc (r : Nat) (v : Bool) : (d.setPg r v).vc = d.vc := by
  unfold Dev.setPg; (try dsimp only); (repeat' split) <;> (first | rfl | simp)
@[simp] theorem Dev.setPg_stream (r : Nat) (v : Bool) : (d.setPg r v).stream = d.stream := by
  unfold Dev.setPg; (try dsimp only); (repeat' split) <;> (first | rfl | simp)
@[simp] theorem Dev.setPg_tw (r : Nat) (v : Bool) : (d.setPg r v).tw = d.tw := by
  unfold Dev.setPg; (try dsimp only); (repeat' split) <;> (first | rfl | simp)
@[simp] theorem Dev.setPg_bmc (r : Nat) (v : Bool) : (d.setPg r v).bmc = d.bmc := by
  unfold Dev.setPg; (try dsimp only); (repeat' split) <;> (first | rfl | simp)
@[simp] theorem Dev.setPg_core (r : Nat) (v : Bool) : (d.setPg r v).core = d.core := by
  unfold Dev.setPg; (try dsimp only); (repeat' split) <;> (first | rfl | simp)
@[simp] theorem Dev.setPg_mem (r : Nat) (v : Bool) : (d.setPg r v).mem = d.mem := by
  unfold Dev.setPg; (try dsimp only); (repeat' split) <;> (first | rfl | simp)
@[simp] theorem Dev.setPg_flt (r : Nat) (v : Bool) : (d.setPg r v).flt = d.flt := by
  unfold Dev.setPg; (try dsimp only); (repeat' split) <;> (first | rfl | simp)
@[simp] theorem Dev.setPg_keep (r : Nat) (v : Bool) : (d.setPg r v).keep = d.keep := by
  unfold Dev.setPg; (try dsimp only); (repeat' split) <;> (first | rfl | simp)
@[simp] theorem Dev.setPg_link (r : Nat) (v : Bool) : (d.setPg r v).link = d.link := by
  unfold Dev.setPg; (try dsimp only); (repeat' split) <;> (first | rfl | simp)
@[simp] theorem Dev.setPg_hw (r : Nat) (v : Bool) : (d.setPg r v).hw = d.hw := by
  unfold Dev.setPg; (try dsimp only); (repeat' split) <;> (first | rfl | simp)
@[simp] theorem Dev.setPg_stg (r : Nat) (v : Bool) : (d.setPg r v).stg = d.stg := by
  unfold Dev.setPg; (try dsimp only); (repeat' split) <;> (first | rfl | simp)
@[simp] theorem Dev.E_setPg (r : Nat) (v : Bool) (i : Nat) : (d.setPg r v).E i = d.E i := by
  simp [Dev.E]
@[simp] theorem Dev.B_setPg (r : Nat) (v : Bool) (i : Nat) : (d.setPg r v).B i = d.B i := by
  simp [Dev.B]
@[simp] theorem Dev.RT_setPg (r : Nat) (v : Bool) (i : Nat) : (d.setPg r v).RT i = d.RT i := by
  simp [Dev.RT]
@[simp] theorem Dev.R_setPg (r : Nat) (v : Bool) (i : Nat) : (d.setPg r v).R i = d.R i := by
  simp [Dev.R]
@[simp] theorem Dev.P_setPg (r : Nat) (v : Bool) (i : Nat) : (d.setPg r v).P i = d.P i := by
  simp [Dev.P]
@[simp] theorem Dev.C_setPg (r : Nat) (v : Bool) (i : Nat) : (d.setPg r v).C i = d.C i := by
  simp [Dev.C]
@[simp] theorem Dev.SQ_setPg (r : Nat) (v : Bool) (i : Nat) : (d.setPg r v).SQ i = d.SQ i := by
  simp [Dev.SQ]
@[simp] theorem Dev.IC_setPg (r : Nat) (v : Bool) (i : Nat) : (d.setPg r v).IC i = d.IC i := by
  simp [Dev.IC]
@[simp] theorem Dev.SG_setPg (r : Nat) (v : Bool) (i : Nat) : (d.setPg r v).SG i = d.SG i := by
  simp [Dev.SG]
@[simp] theorem Dev.SL_setPg (r : Nat) (v : Bool) (i : Nat) : (d.setPg r v).SL i = d.SL i := by
  simp [Dev.SL]
@[simp] theorem Dev.RG_setPg (r : Nat) (v : Bool) (i : Nat) : (d.setPg r v).RG i = d.RG i := by
  simp [Dev.RG]
@[simp] theorem Dev.T_setPg (r : Nat) (v : Bool) (i : Nat) : (d.setPg r v).T i = d.T i := by
  simp [Dev.T]
@[simp] theorem Dev.Q_setPg (r : Nat) (v : Bool) (i : Nat) : (d.setPg r v).Q i = d.Q i := by
  simp [Dev.Q]
@[simp] theorem Dev.V_setPg (r : Nat) (v : Bool) (i : Nat) : (d.setPg r v).V i = d.V i := by
  simp [Dev.V]
@[simp] theorem Dev.W_setPg (r : Nat) (v : Bool) (i : Nat) : (d.setPg r v).W i = d.W i := by
  simp [Dev.W]
@[simp] theorem Dev.K_setPg (r : Nat) (v : Bool) (i : Nat) : (d.setPg r v).K i = d.K i := by
  simp [Dev.K]

/-! ## `ipGo` -/

@[simp] theorem Dev.ipGo_clk (n st : Nat) : (d.ipGo n st).clk = d.clk := by
  unfold Dev.ipGo; (try dsimp only); (repeat' split) <;> (first | rfl | simp)
@[simp] theorem Dev.ipGo_mode (n st : Nat) : (d.ipGo n st).mode = d.mode := by
  unfold Dev.ipGo; (try dsimp only); (repeat' split) <;> (first | rfl | simp)
@[simp] theorem Dev.ipGo_ent (n st : Nat) : (d.ipGo n st).ent = d.ent := by
  unfold Dev.ipGo; (try dsimp only); (repeat' split) <;> (first | rfl | simp)
@[simp] theorem Dev.ipGo_br (n st : Nat) : (d.ipGo n st).br = d.br := by
  unfold Dev.ipGo; (try dsimp only); (repeat' split) <;> (first | rfl | simp)
@[simp] theorem Dev.ipGo_retry (n st : Nat) : (d.ipGo n st).retry = d.retry := by
  unfold Dev.ipGo; (try dsimp only); (repeat' split) <;> (first | rfl | simp)
@[simp] theorem Dev.ipGo_rail (n st : Nat) : (d.ipGo n st).rail = d.rail := by
  unfold Dev.ipGo; (try dsimp only); (repeat' split) <;> (first | rfl | simp)
@[simp] theorem Dev.ipGo_ph (n st : Nat) : (d.ipGo n st).ph = d.ph := by
  unfold Dev.ipGo; (try dsimp only); (repeat' split) <;> (first | rfl | simp)
@[simp] theorem Dev.ipGo_conv (n st : Nat) : (d.ipGo n st).conv = d.conv := by
  unfold Dev.ipGo; (try dsimp only); (repeat' split) <;> (first | rfl | simp)
@[simp] theorem Dev.ipGo_scv (n st : Nat) : (d.ipGo n st).scv = d.scv := by
  unfold Dev.ipGo; (try dsimp only); (repeat' split) <;> (first | rfl | simp)
@[simp] theorem Dev.ipGo_icv (n st : Nat) : (d.ipGo n st).icv = d.icv := by
  unfold Dev.ipGo; (try dsimp only); (repeat' split) <;> (first | rfl | simp)
@[simp] theorem Dev.ipGo_sage (n st : Nat) : (d.ipGo n st).sage = d.sage := by
  unfold Dev.ipGo; (try dsimp only); (repeat' split) <;> (first | rfl | simp)
@[simp] theorem Dev.ipGo_slot (n st : Nat) : (d.ipGo n st).slot = d.slot := by
  unfold Dev.ipGo; (try dsimp only); (repeat' split) <;> (first | rfl | simp)
@[simp] theorem Dev.ipGo_ring (n st : Nat) : (d.ipGo n st).ring = d.ring := by
  unfold Dev.ipGo; (try dsimp only); (repeat' split) <;> (first | rfl | simp)
@[simp] theorem Dev.ipGo_thr (n st : Nat) : (d.ipGo n st).thr = d.thr := by
  unfold Dev.ipGo; (try dsimp only); (repeat' split) <;> (first | rfl | simp)
@[simp] theorem Dev.ipGo_rq (n st : Nat) : (d.ipGo n st).rq = d.rq := by
  unfold Dev.ipGo; (try dsimp only); (repeat' split) <;> (first | rfl | simp)
@[simp] theorem Dev.ipGo_rqHi (n st : Nat) : (d.ipGo n st).rqHi = d.rqHi := by
  unfold Dev.ipGo; (try dsimp only); (repeat' split) <;> (first | rfl | simp)
@[simp] theorem Dev.ipGo_rqHead (n st : Nat) : (d.ipGo n st).rqHead = d.rqHead := by
  unfold Dev.ipGo; (try dsimp only); (repeat' split) <;> (first | rfl | simp)
@[simp] theorem Dev.ipGo_host (n st : Nat) : (d.ipGo n st).host = d.host := by
  unfold Dev.ipGo; (try dsimp only); (repeat' split) <;> (first | rfl | simp)
@[simp] theorem Dev.ipGo_vc (n st : Nat) : (d.ipGo n st).vc = d.vc := by
  unfold Dev.ipGo; (try dsimp only); (repeat' split) <;> (first | rfl | simp)
@[simp] theorem Dev.ipGo_stream (n st : Nat) : (d.ipGo n st).stream = d.stream := by
  unfold Dev.ipGo; (try dsimp only); (repeat' split) <;> (first | rfl | simp)
@[simp] theorem Dev.ipGo_tw (n st : Nat) : (d.ipGo n st).tw = d.tw := by
  unfold Dev.ipGo; (try dsimp only); (repeat' split) <;> (first | rfl | simp)
@[simp] theorem Dev.ipGo_bmc (n st : Nat) : (d.ipGo n st).bmc = d.bmc := by
  unfold Dev.ipGo; (try dsimp only); (repeat' split) <;> (first | rfl | simp)
@[simp] theorem Dev.ipGo_core (n st : Nat) : (d.ipGo n st).core = d.core := by
  unfold Dev.ipGo; (try dsimp only); (repeat' split) <;> (first | rfl | simp)
@[simp] theorem Dev.ipGo_mem (n st : Nat) : (d.ipGo n st).mem = d.mem := by
  unfold Dev.ipGo; (try dsimp only); (repeat' split) <;> (first | rfl | simp)
@[simp] theorem Dev.ipGo_flt (n st : Nat) : (d.ipGo n st).flt = d.flt := by
  unfold Dev.ipGo; (try dsimp only); (repeat' split) <;> (first | rfl | simp)
@[simp] theorem Dev.ipGo_keep (n st : Nat) : (d.ipGo n st).keep = d.keep := by
  unfold Dev.ipGo; (try dsimp only); (repeat' split) <;> (first | rfl | simp)
@[simp] theorem Dev.ipGo_link (n st : Nat) : (d.ipGo n st).link = d.link := by
  unfold Dev.ipGo; (try dsimp only); (repeat' split) <;> (first | rfl | simp)
@[simp] theorem Dev.ipGo_hw (n st : Nat) : (d.ipGo n st).hw = d.hw := by
  unfold Dev.ipGo; (try dsimp only); (repeat' split) <;> (first | rfl | simp)
@[simp] theorem Dev.ipGo_stg (n st : Nat) : (d.ipGo n st).stg = d.stg := by
  unfold Dev.ipGo; (try dsimp only); (repeat' split) <;> (first | rfl | simp)
@[simp] theorem Dev.E_ipGo (n st : Nat) (i : Nat) : (d.ipGo n st).E i = d.E i := by
  simp [Dev.E]
@[simp] theorem Dev.B_ipGo (n st : Nat) (i : Nat) : (d.ipGo n st).B i = d.B i := by
  simp [Dev.B]
@[simp] theorem Dev.RT_ipGo (n st : Nat) (i : Nat) : (d.ipGo n st).RT i = d.RT i := by
  simp [Dev.RT]
@[simp] theorem Dev.R_ipGo (n st : Nat) (i : Nat) : (d.ipGo n st).R i = d.R i := by
  simp [Dev.R]
@[simp] theorem Dev.P_ipGo (n st : Nat) (i : Nat) : (d.ipGo n st).P i = d.P i := by
  simp [Dev.P]
@[simp] theorem Dev.C_ipGo (n st : Nat) (i : Nat) : (d.ipGo n st).C i = d.C i := by
  simp [Dev.C]
@[simp] theorem Dev.SQ_ipGo (n st : Nat) (i : Nat) : (d.ipGo n st).SQ i = d.SQ i := by
  simp [Dev.SQ]
@[simp] theorem Dev.IC_ipGo (n st : Nat) (i : Nat) : (d.ipGo n st).IC i = d.IC i := by
  simp [Dev.IC]
@[simp] theorem Dev.SG_ipGo (n st : Nat) (i : Nat) : (d.ipGo n st).SG i = d.SG i := by
  simp [Dev.SG]
@[simp] theorem Dev.SL_ipGo (n st : Nat) (i : Nat) : (d.ipGo n st).SL i = d.SL i := by
  simp [Dev.SL]
@[simp] theorem Dev.RG_ipGo (n st : Nat) (i : Nat) : (d.ipGo n st).RG i = d.RG i := by
  simp [Dev.RG]
@[simp] theorem Dev.T_ipGo (n st : Nat) (i : Nat) : (d.ipGo n st).T i = d.T i := by
  simp [Dev.T]
@[simp] theorem Dev.Q_ipGo (n st : Nat) (i : Nat) : (d.ipGo n st).Q i = d.Q i := by
  simp [Dev.Q]
@[simp] theorem Dev.V_ipGo (n st : Nat) (i : Nat) : (d.ipGo n st).V i = d.V i := by
  simp [Dev.V]
@[simp] theorem Dev.W_ipGo (n st : Nat) (i : Nat) : (d.ipGo n st).W i = d.W i := by
  simp [Dev.W]
@[simp] theorem Dev.K_ipGo (n st : Nat) (i : Nat) : (d.ipGo n st).K i = d.K i := by
  simp [Dev.K]

/-! ## `ipBlock` -/

@[simp] theorem Dev.ipBlock_regs (n : Nat) (b : Bool) : (d.ipBlock n b).regs = d.regs := by
  unfold Dev.ipBlock; (try dsimp only); (repeat' split) <;> (first | rfl | simp)
@[simp] theorem Dev.ipBlock_clk (n : Nat) (b : Bool) : (d.ipBlock n b).clk = d.clk := by
  unfold Dev.ipBlock; (try dsimp only); (repeat' split) <;> (first | rfl | simp)
@[simp] theorem Dev.ipBlock_mode (n : Nat) (b : Bool) : (d.ipBlock n b).mode = d.mode := by
  unfold Dev.ipBlock; (try dsimp only); (repeat' split) <;> (first | rfl | simp)
@[simp] theorem Dev.ipBlock_ent (n : Nat) (b : Bool) : (d.ipBlock n b).ent = d.ent := by
  unfold Dev.ipBlock; (try dsimp only); (repeat' split) <;> (first | rfl | simp)
@[simp] theorem Dev.ipBlock_br (n : Nat) (b : Bool) : (d.ipBlock n b).br = d.br := by
  unfold Dev.ipBlock; (try dsimp only); (repeat' split) <;> (first | rfl | simp)
@[simp] theorem Dev.ipBlock_retry (n : Nat) (b : Bool) : (d.ipBlock n b).retry = d.retry := by
  unfold Dev.ipBlock; (try dsimp only); (repeat' split) <;> (first | rfl | simp)
@[simp] theorem Dev.ipBlock_rail (n : Nat) (b : Bool) : (d.ipBlock n b).rail = d.rail := by
  unfold Dev.ipBlock; (try dsimp only); (repeat' split) <;> (first | rfl | simp)
@[simp] theorem Dev.ipBlock_ph (n : Nat) (b : Bool) : (d.ipBlock n b).ph = d.ph := by
  unfold Dev.ipBlock; (try dsimp only); (repeat' split) <;> (first | rfl | simp)
@[simp] theorem Dev.ipBlock_conv (n : Nat) (b : Bool) : (d.ipBlock n b).conv = d.conv := by
  unfold Dev.ipBlock; (try dsimp only); (repeat' split) <;> (first | rfl | simp)
@[simp] theorem Dev.ipBlock_scv (n : Nat) (b : Bool) : (d.ipBlock n b).scv = d.scv := by
  unfold Dev.ipBlock; (try dsimp only); (repeat' split) <;> (first | rfl | simp)
@[simp] theorem Dev.ipBlock_icv (n : Nat) (b : Bool) : (d.ipBlock n b).icv = d.icv := by
  unfold Dev.ipBlock; (try dsimp only); (repeat' split) <;> (first | rfl | simp)
@[simp] theorem Dev.ipBlock_sage (n : Nat) (b : Bool) : (d.ipBlock n b).sage = d.sage := by
  unfold Dev.ipBlock; (try dsimp only); (repeat' split) <;> (first | rfl | simp)
@[simp] theorem Dev.ipBlock_slot (n : Nat) (b : Bool) : (d.ipBlock n b).slot = d.slot := by
  unfold Dev.ipBlock; (try dsimp only); (repeat' split) <;> (first | rfl | simp)
@[simp] theorem Dev.ipBlock_ring (n : Nat) (b : Bool) : (d.ipBlock n b).ring = d.ring := by
  unfold Dev.ipBlock; (try dsimp only); (repeat' split) <;> (first | rfl | simp)
@[simp] theorem Dev.ipBlock_thr (n : Nat) (b : Bool) : (d.ipBlock n b).thr = d.thr := by
  unfold Dev.ipBlock; (try dsimp only); (repeat' split) <;> (first | rfl | simp)
@[simp] theorem Dev.ipBlock_rq (n : Nat) (b : Bool) : (d.ipBlock n b).rq = d.rq := by
  unfold Dev.ipBlock; (try dsimp only); (repeat' split) <;> (first | rfl | simp)
@[simp] theorem Dev.ipBlock_rqHi (n : Nat) (b : Bool) : (d.ipBlock n b).rqHi = d.rqHi := by
  unfold Dev.ipBlock; (try dsimp only); (repeat' split) <;> (first | rfl | simp)
@[simp] theorem Dev.ipBlock_rqHead (n : Nat) (b : Bool) : (d.ipBlock n b).rqHead = d.rqHead := by
  unfold Dev.ipBlock; (try dsimp only); (repeat' split) <;> (first | rfl | simp)
@[simp] theorem Dev.ipBlock_host (n : Nat) (b : Bool) : (d.ipBlock n b).host = d.host := by
  unfold Dev.ipBlock; (try dsimp only); (repeat' split) <;> (first | rfl | simp)
@[simp] theorem Dev.ipBlock_vc (n : Nat) (b : Bool) : (d.ipBlock n b).vc = d.vc := by
  unfold Dev.ipBlock; (try dsimp only); (repeat' split) <;> (first | rfl | simp)
@[simp] theorem Dev.ipBlock_stream (n : Nat) (b : Bool) : (d.ipBlock n b).stream = d.stream := by
  unfold Dev.ipBlock; (try dsimp only); (repeat' split) <;> (first | rfl | simp)
@[simp] theorem Dev.ipBlock_tw (n : Nat) (b : Bool) : (d.ipBlock n b).tw = d.tw := by
  unfold Dev.ipBlock; (try dsimp only); (repeat' split) <;> (first | rfl | simp)
@[simp] theorem Dev.ipBlock_bmc (n : Nat) (b : Bool) : (d.ipBlock n b).bmc = d.bmc := by
  unfold Dev.ipBlock; (try dsimp only); (repeat' split) <;> (first | rfl | simp)
@[simp] theorem Dev.ipBlock_core (n : Nat) (b : Bool) : (d.ipBlock n b).core = d.core := by
  unfold Dev.ipBlock; (try dsimp only); (repeat' split) <;> (first | rfl | simp)
@[simp] theorem Dev.ipBlock_mem (n : Nat) (b : Bool) : (d.ipBlock n b).mem = d.mem := by
  unfold Dev.ipBlock; (try dsimp only); (repeat' split) <;> (first | rfl | simp)
@[simp] theorem Dev.ipBlock_keep (n : Nat) (b : Bool) : (d.ipBlock n b).keep = d.keep := by
  unfold Dev.ipBlock; (try dsimp only); (repeat' split) <;> (first | rfl | simp)
@[simp] theorem Dev.ipBlock_link (n : Nat) (b : Bool) : (d.ipBlock n b).link = d.link := by
  unfold Dev.ipBlock; (try dsimp only); (repeat' split) <;> (first | rfl | simp)
@[simp] theorem Dev.ipBlock_hw (n : Nat) (b : Bool) : (d.ipBlock n b).hw = d.hw := by
  unfold Dev.ipBlock; (try dsimp only); (repeat' split) <;> (first | rfl | simp)
@[simp] theorem Dev.ipBlock_stg (n : Nat) (b : Bool) : (d.ipBlock n b).stg = d.stg := by
  unfold Dev.ipBlock; (try dsimp only); (repeat' split) <;> (first | rfl | simp)
@[simp] theorem Dev.E_ipBlock (n : Nat) (b : Bool) (i : Nat) : (d.ipBlock n b).E i = d.E i := by
  simp [Dev.E]
@[simp] theorem Dev.B_ipBlock (n : Nat) (b : Bool) (i : Nat) : (d.ipBlock n b).B i = d.B i := by
  simp [Dev.B]
@[simp] theorem Dev.RT_ipBlock (n : Nat) (b : Bool) (i : Nat) : (d.ipBlock n b).RT i = d.RT i := by
  simp [Dev.RT]
@[simp] theorem Dev.R_ipBlock (n : Nat) (b : Bool) (i : Nat) : (d.ipBlock n b).R i = d.R i := by
  simp [Dev.R]
@[simp] theorem Dev.P_ipBlock (n : Nat) (b : Bool) (i : Nat) : (d.ipBlock n b).P i = d.P i := by
  simp [Dev.P]
@[simp] theorem Dev.C_ipBlock (n : Nat) (b : Bool) (i : Nat) : (d.ipBlock n b).C i = d.C i := by
  simp [Dev.C]
@[simp] theorem Dev.SQ_ipBlock (n : Nat) (b : Bool) (i : Nat) : (d.ipBlock n b).SQ i = d.SQ i := by
  simp [Dev.SQ]
@[simp] theorem Dev.IC_ipBlock (n : Nat) (b : Bool) (i : Nat) : (d.ipBlock n b).IC i = d.IC i := by
  simp [Dev.IC]
@[simp] theorem Dev.SG_ipBlock (n : Nat) (b : Bool) (i : Nat) : (d.ipBlock n b).SG i = d.SG i := by
  simp [Dev.SG]
@[simp] theorem Dev.SL_ipBlock (n : Nat) (b : Bool) (i : Nat) : (d.ipBlock n b).SL i = d.SL i := by
  simp [Dev.SL]
@[simp] theorem Dev.RG_ipBlock (n : Nat) (b : Bool) (i : Nat) : (d.ipBlock n b).RG i = d.RG i := by
  simp [Dev.RG]
@[simp] theorem Dev.T_ipBlock (n : Nat) (b : Bool) (i : Nat) : (d.ipBlock n b).T i = d.T i := by
  simp [Dev.T]
@[simp] theorem Dev.Q_ipBlock (n : Nat) (b : Bool) (i : Nat) : (d.ipBlock n b).Q i = d.Q i := by
  simp [Dev.Q]
@[simp] theorem Dev.V_ipBlock (n : Nat) (b : Bool) (i : Nat) : (d.ipBlock n b).V i = d.V i := by
  simp [Dev.V]
@[simp] theorem Dev.W_ipBlock (n : Nat) (b : Bool) (i : Nat) : (d.ipBlock n b).W i = d.W i := by
  simp [Dev.W]
@[simp] theorem Dev.K_ipBlock (n : Nat) (b : Bool) (i : Nat) : (d.ipBlock n b).K i = d.K i := by
  simp [Dev.K]
@[simp] theorem Dev.word_ipBlock (n : Nat) (b : Bool) (i : Nat) : (d.ipBlock n b).word i = d.word i := by
  simp [Dev.word]
@[simp] theorem Dev.rd_ipBlock (n : Nat) (b : Bool) (f : Fld) : (d.ipBlock n b).rd f = d.rd f := by
  simp [Dev.rd]

/-! ## `complete` -/

@[simp] theorem Dev.complete_clk (t : Token) (s : Nat) : (d.complete t s).clk = d.clk := by
  unfold Dev.complete; (try dsimp only); (repeat' split) <;> (first | rfl | simp)
@[simp] theorem Dev.complete_mode (t : Token) (s : Nat) : (d.complete t s).mode = d.mode := by
  unfold Dev.complete; (try dsimp only); (repeat' split) <;> (first | rfl | simp)
@[simp] theorem Dev.complete_ent (t : Token) (s : Nat) : (d.complete t s).ent = d.ent := by
  unfold Dev.complete; (try dsimp only); (repeat' split) <;> (first | rfl | simp)
@[simp] theorem Dev.complete_br (t : Token) (s : Nat) : (d.complete t s).br = d.br := by
  unfold Dev.complete; (try dsimp only); (repeat' split) <;> (first | rfl | simp)
@[simp] theorem Dev.complete_retry (t : Token) (s : Nat) : (d.complete t s).retry = d.retry := by
  unfold Dev.complete; (try dsimp only); (repeat' split) <;> (first | rfl | simp)
@[simp] theorem Dev.complete_rail (t : Token) (s : Nat) : (d.complete t s).rail = d.rail := by
  unfold Dev.complete; (try dsimp only); (repeat' split) <;> (first | rfl | simp)
@[simp] theorem Dev.complete_ph (t : Token) (s : Nat) : (d.complete t s).ph = d.ph := by
  unfold Dev.complete; (try dsimp only); (repeat' split) <;> (first | rfl | simp)
@[simp] theorem Dev.complete_port (t : Token) (s : Nat) : (d.complete t s).port = d.port := by
  unfold Dev.complete; (try dsimp only); (repeat' split) <;> (first | rfl | simp)
@[simp] theorem Dev.complete_conv (t : Token) (s : Nat) : (d.complete t s).conv = d.conv := by
  unfold Dev.complete; (try dsimp only); (repeat' split) <;> (first | rfl | simp)
@[simp] theorem Dev.complete_scv (t : Token) (s : Nat) : (d.complete t s).scv = d.scv := by
  unfold Dev.complete; (try dsimp only); (repeat' split) <;> (first | rfl | simp)
@[simp] theorem Dev.complete_icv (t : Token) (s : Nat) : (d.complete t s).icv = d.icv := by
  unfold Dev.complete; (try dsimp only); (repeat' split) <;> (first | rfl | simp)
@[simp] theorem Dev.complete_sage (t : Token) (s : Nat) : (d.complete t s).sage = d.sage := by
  unfold Dev.complete; (try dsimp only); (repeat' split) <;> (first | rfl | simp)
@[simp] theorem Dev.complete_slot (t : Token) (s : Nat) : (d.complete t s).slot = d.slot := by
  unfold Dev.complete; (try dsimp only); (repeat' split) <;> (first | rfl | simp)
@[simp] theorem Dev.complete_ring (t : Token) (s : Nat) : (d.complete t s).ring = d.ring := by
  unfold Dev.complete; (try dsimp only); (repeat' split) <;> (first | rfl | simp)
@[simp] theorem Dev.complete_thr (t : Token) (s : Nat) : (d.complete t s).thr = d.thr := by
  unfold Dev.complete; (try dsimp only); (repeat' split) <;> (first | rfl | simp)
@[simp] theorem Dev.complete_rq (t : Token) (s : Nat) : (d.complete t s).rq = d.rq := by
  unfold Dev.complete; (try dsimp only); (repeat' split) <;> (first | rfl | simp)
@[simp] theorem Dev.complete_rqHi (t : Token) (s : Nat) : (d.complete t s).rqHi = d.rqHi := by
  unfold Dev.complete; (try dsimp only); (repeat' split) <;> (first | rfl | simp)
@[simp] theorem Dev.complete_rqHead (t : Token) (s : Nat) : (d.complete t s).rqHead = d.rqHead := by
  unfold Dev.complete; (try dsimp only); (repeat' split) <;> (first | rfl | simp)
@[simp] theorem Dev.complete_vc (t : Token) (s : Nat) : (d.complete t s).vc = d.vc := by
  unfold Dev.complete; (try dsimp only); (repeat' split) <;> (first | rfl | simp)
@[simp] theorem Dev.complete_stream (t : Token) (s : Nat) : (d.complete t s).stream = d.stream := by
  unfold Dev.complete; (try dsimp only); (repeat' split) <;> (first | rfl | simp)
@[simp] theorem Dev.complete_tw (t : Token) (s : Nat) : (d.complete t s).tw = d.tw := by
  unfold Dev.complete; (try dsimp only); (repeat' split) <;> (first | rfl | simp)
@[simp] theorem Dev.complete_bmc (t : Token) (s : Nat) : (d.complete t s).bmc = d.bmc := by
  unfold Dev.complete; (try dsimp only); (repeat' split) <;> (first | rfl | simp)
@[simp] theorem Dev.complete_core (t : Token) (s : Nat) : (d.complete t s).core = d.core := by
  unfold Dev.complete; (try dsimp only); (repeat' split) <;> (first | rfl | simp)
@[simp] theorem Dev.complete_mem (t : Token) (s : Nat) : (d.complete t s).mem = d.mem := by
  unfold Dev.complete; (try dsimp only); (repeat' split) <;> (first | rfl | simp)
@[simp] theorem Dev.complete_flt (t : Token) (s : Nat) : (d.complete t s).flt = d.flt := by
  unfold Dev.complete; (try dsimp only); (repeat' split) <;> (first | rfl | simp)
@[simp] theorem Dev.complete_keep (t : Token) (s : Nat) : (d.complete t s).keep = d.keep := by
  unfold Dev.complete; (try dsimp only); (repeat' split) <;> (first | rfl | simp)
@[simp] theorem Dev.complete_link (t : Token) (s : Nat) : (d.complete t s).link = d.link := by
  unfold Dev.complete; (try dsimp only); (repeat' split) <;> (first | rfl | simp)
@[simp] theorem Dev.complete_hw (t : Token) (s : Nat) : (d.complete t s).hw = d.hw := by
  unfold Dev.complete; (try dsimp only); (repeat' split) <;> (first | rfl | simp)
@[simp] theorem Dev.complete_stg (t : Token) (s : Nat) : (d.complete t s).stg = d.stg := by
  unfold Dev.complete; (try dsimp only); (repeat' split) <;> (first | rfl | simp)
@[simp] theorem Dev.E_complete (t : Token) (s : Nat) (i : Nat) : (d.complete t s).E i = d.E i := by
  simp [Dev.E]
@[simp] theorem Dev.B_complete (t : Token) (s : Nat) (i : Nat) : (d.complete t s).B i = d.B i := by
  simp [Dev.B]
@[simp] theorem Dev.RT_complete (t : Token) (s : Nat) (i : Nat) : (d.complete t s).RT i = d.RT i := by
  simp [Dev.RT]
@[simp] theorem Dev.R_complete (t : Token) (s : Nat) (i : Nat) : (d.complete t s).R i = d.R i := by
  simp [Dev.R]
@[simp] theorem Dev.P_complete (t : Token) (s : Nat) (i : Nat) : (d.complete t s).P i = d.P i := by
  simp [Dev.P]
@[simp] theorem Dev.IP_complete (t : Token) (s : Nat) (i : Nat) : (d.complete t s).IP i = d.IP i := by
  simp [Dev.IP]
@[simp] theorem Dev.C_complete (t : Token) (s : Nat) (i : Nat) : (d.complete t s).C i = d.C i := by
  simp [Dev.C]
@[simp] theorem Dev.SQ_complete (t : Token) (s : Nat) (i : Nat) : (d.complete t s).SQ i = d.SQ i := by
  simp [Dev.SQ]
@[simp] theorem Dev.IC_complete (t : Token) (s : Nat) (i : Nat) : (d.complete t s).IC i = d.IC i := by
  simp [Dev.IC]
@[simp] theorem Dev.SG_complete (t : Token) (s : Nat) (i : Nat) : (d.complete t s).SG i = d.SG i := by
  simp [Dev.SG]
@[simp] theorem Dev.SL_complete (t : Token) (s : Nat) (i : Nat) : (d.complete t s).SL i = d.SL i := by
  simp [Dev.SL]
@[simp] theorem Dev.RG_complete (t : Token) (s : Nat) (i : Nat) : (d.complete t s).RG i = d.RG i := by
  simp [Dev.RG]
@[simp] theorem Dev.T_complete (t : Token) (s : Nat) (i : Nat) : (d.complete t s).T i = d.T i := by
  simp [Dev.T]
@[simp] theorem Dev.Q_complete (t : Token) (s : Nat) (i : Nat) : (d.complete t s).Q i = d.Q i := by
  simp [Dev.Q]
@[simp] theorem Dev.V_complete (t : Token) (s : Nat) (i : Nat) : (d.complete t s).V i = d.V i := by
  simp [Dev.V]
@[simp] theorem Dev.W_complete (t : Token) (s : Nat) (i : Nat) : (d.complete t s).W i = d.W i := by
  simp [Dev.W]
@[simp] theorem Dev.K_complete (t : Token) (s : Nat) (i : Nat) : (d.complete t s).K i = d.K i := by
  simp [Dev.K]

/-! ## `forward` -/

@[simp] theorem Dev.forward_regs (l : Nat) (e : Entry) : (d.forward l e).regs = d.regs := by
  unfold Dev.forward; (try dsimp only); (repeat' split) <;> (first | rfl | simp)
@[simp] theorem Dev.forward_clk (l : Nat) (e : Entry) : (d.forward l e).clk = d.clk := by
  unfold Dev.forward; (try dsimp only); (repeat' split) <;> (first | rfl | simp)
@[simp] theorem Dev.forward_mode (l : Nat) (e : Entry) : (d.forward l e).mode = d.mode := by
  unfold Dev.forward; (try dsimp only); (repeat' split) <;> (first | rfl | simp)
@[simp] theorem Dev.forward_ent (l : Nat) (e : Entry) : (d.forward l e).ent = d.ent := by
  unfold Dev.forward; (try dsimp only); (repeat' split) <;> (first | rfl | simp)
@[simp] theorem Dev.forward_br (l : Nat) (e : Entry) : (d.forward l e).br = d.br := by
  unfold Dev.forward; (try dsimp only); (repeat' split) <;> (first | rfl | simp)
@[simp] theorem Dev.forward_retry (l : Nat) (e : Entry) : (d.forward l e).retry = d.retry := by
  unfold Dev.forward; (try dsimp only); (repeat' split) <;> (first | rfl | simp)
@[simp] theorem Dev.forward_rail (l : Nat) (e : Entry) : (d.forward l e).rail = d.rail := by
  unfold Dev.forward; (try dsimp only); (repeat' split) <;> (first | rfl | simp)
@[simp] theorem Dev.forward_ph (l : Nat) (e : Entry) : (d.forward l e).ph = d.ph := by
  unfold Dev.forward; (try dsimp only); (repeat' split) <;> (first | rfl | simp)
@[simp] theorem Dev.forward_port (l : Nat) (e : Entry) : (d.forward l e).port = d.port := by
  unfold Dev.forward; (try dsimp only); (repeat' split) <;> (first | rfl | simp)
@[simp] theorem Dev.forward_conv (l : Nat) (e : Entry) : (d.forward l e).conv = d.conv := by
  unfold Dev.forward; (try dsimp only); (repeat' split) <;> (first | rfl | simp)
@[simp] theorem Dev.forward_scv (l : Nat) (e : Entry) : (d.forward l e).scv = d.scv := by
  unfold Dev.forward; (try dsimp only); (repeat' split) <;> (first | rfl | simp)
@[simp] theorem Dev.forward_icv (l : Nat) (e : Entry) : (d.forward l e).icv = d.icv := by
  unfold Dev.forward; (try dsimp only); (repeat' split) <;> (first | rfl | simp)
@[simp] theorem Dev.forward_sage (l : Nat) (e : Entry) : (d.forward l e).sage = d.sage := by
  unfold Dev.forward; (try dsimp only); (repeat' split) <;> (first | rfl | simp)
@[simp] theorem Dev.forward_slot (l : Nat) (e : Entry) : (d.forward l e).slot = d.slot := by
  unfold Dev.forward; (try dsimp only); (repeat' split) <;> (first | rfl | simp)
@[simp] theorem Dev.forward_ring (l : Nat) (e : Entry) : (d.forward l e).ring = d.ring := by
  unfold Dev.forward; (try dsimp only); (repeat' split) <;> (first | rfl | simp)
@[simp] theorem Dev.forward_thr (l : Nat) (e : Entry) : (d.forward l e).thr = d.thr := by
  unfold Dev.forward; (try dsimp only); (repeat' split) <;> (first | rfl | simp)
@[simp] theorem Dev.forward_rq (l : Nat) (e : Entry) : (d.forward l e).rq = d.rq := by
  unfold Dev.forward; (try dsimp only); (repeat' split) <;> (first | rfl | simp)
@[simp] theorem Dev.forward_rqHi (l : Nat) (e : Entry) : (d.forward l e).rqHi = d.rqHi := by
  unfold Dev.forward; (try dsimp only); (repeat' split) <;> (first | rfl | simp)
@[simp] theorem Dev.forward_rqHead (l : Nat) (e : Entry) : (d.forward l e).rqHead = d.rqHead := by
  unfold Dev.forward; (try dsimp only); (repeat' split) <;> (first | rfl | simp)
@[simp] theorem Dev.forward_vc (l : Nat) (e : Entry) : (d.forward l e).vc = d.vc := by
  unfold Dev.forward; (try dsimp only); (repeat' split) <;> (first | rfl | simp)
@[simp] theorem Dev.forward_stream (l : Nat) (e : Entry) : (d.forward l e).stream = d.stream := by
  unfold Dev.forward; (try dsimp only); (repeat' split) <;> (first | rfl | simp)
@[simp] theorem Dev.forward_tw (l : Nat) (e : Entry) : (d.forward l e).tw = d.tw := by
  unfold Dev.forward; (try dsimp only); (repeat' split) <;> (first | rfl | simp)
@[simp] theorem Dev.forward_bmc (l : Nat) (e : Entry) : (d.forward l e).bmc = d.bmc := by
  unfold Dev.forward; (try dsimp only); (repeat' split) <;> (first | rfl | simp)
@[simp] theorem Dev.forward_core (l : Nat) (e : Entry) : (d.forward l e).core = d.core := by
  unfold Dev.forward; (try dsimp only); (repeat' split) <;> (first | rfl | simp)
@[simp] theorem Dev.forward_mem (l : Nat) (e : Entry) : (d.forward l e).mem = d.mem := by
  unfold Dev.forward; (try dsimp only); (repeat' split) <;> (first | rfl | simp)
@[simp] theorem Dev.forward_flt (l : Nat) (e : Entry) : (d.forward l e).flt = d.flt := by
  unfold Dev.forward; (try dsimp only); (repeat' split) <;> (first | rfl | simp)
@[simp] theorem Dev.forward_keep (l : Nat) (e : Entry) : (d.forward l e).keep = d.keep := by
  unfold Dev.forward; (try dsimp only); (repeat' split) <;> (first | rfl | simp)
@[simp] theorem Dev.forward_link (l : Nat) (e : Entry) : (d.forward l e).link = d.link := by
  unfold Dev.forward; (try dsimp only); (repeat' split) <;> (first | rfl | simp)
@[simp] theorem Dev.forward_hw (l : Nat) (e : Entry) : (d.forward l e).hw = d.hw := by
  unfold Dev.forward; (try dsimp only); (repeat' split) <;> (first | rfl | simp)
@[simp] theorem Dev.forward_stg (l : Nat) (e : Entry) : (d.forward l e).stg = d.stg := by
  unfold Dev.forward; (try dsimp only); (repeat' split) <;> (first | rfl | simp)
@[simp] theorem Dev.E_forward (l : Nat) (e : Entry) (i : Nat) : (d.forward l e).E i = d.E i := by
  simp [Dev.E]
@[simp] theorem Dev.B_forward (l : Nat) (e : Entry) (i : Nat) : (d.forward l e).B i = d.B i := by
  simp [Dev.B]
@[simp] theorem Dev.RT_forward (l : Nat) (e : Entry) (i : Nat) : (d.forward l e).RT i = d.RT i := by
  simp [Dev.RT]
@[simp] theorem Dev.R_forward (l : Nat) (e : Entry) (i : Nat) : (d.forward l e).R i = d.R i := by
  simp [Dev.R]
@[simp] theorem Dev.P_forward (l : Nat) (e : Entry) (i : Nat) : (d.forward l e).P i = d.P i := by
  simp [Dev.P]
@[simp] theorem Dev.IP_forward (l : Nat) (e : Entry) (i : Nat) : (d.forward l e).IP i = d.IP i := by
  simp [Dev.IP]
@[simp] theorem Dev.C_forward (l : Nat) (e : Entry) (i : Nat) : (d.forward l e).C i = d.C i := by
  simp [Dev.C]
@[simp] theorem Dev.SQ_forward (l : Nat) (e : Entry) (i : Nat) : (d.forward l e).SQ i = d.SQ i := by
  simp [Dev.SQ]
@[simp] theorem Dev.IC_forward (l : Nat) (e : Entry) (i : Nat) : (d.forward l e).IC i = d.IC i := by
  simp [Dev.IC]
@[simp] theorem Dev.SG_forward (l : Nat) (e : Entry) (i : Nat) : (d.forward l e).SG i = d.SG i := by
  simp [Dev.SG]
@[simp] theorem Dev.SL_forward (l : Nat) (e : Entry) (i : Nat) : (d.forward l e).SL i = d.SL i := by
  simp [Dev.SL]
@[simp] theorem Dev.RG_forward (l : Nat) (e : Entry) (i : Nat) : (d.forward l e).RG i = d.RG i := by
  simp [Dev.RG]
@[simp] theorem Dev.T_forward (l : Nat) (e : Entry) (i : Nat) : (d.forward l e).T i = d.T i := by
  simp [Dev.T]
@[simp] theorem Dev.Q_forward (l : Nat) (e : Entry) (i : Nat) : (d.forward l e).Q i = d.Q i := by
  simp [Dev.Q]
@[simp] theorem Dev.V_forward (l : Nat) (e : Entry) (i : Nat) : (d.forward l e).V i = d.V i := by
  simp [Dev.V]
@[simp] theorem Dev.W_forward (l : Nat) (e : Entry) (i : Nat) : (d.forward l e).W i = d.W i := by
  simp [Dev.W]
@[simp] theorem Dev.K_forward (l : Nat) (e : Entry) (i : Nat) : (d.forward l e).K i = d.K i := by
  simp [Dev.K]
@[simp] theorem Dev.word_forward (l : Nat) (e : Entry) (i : Nat) : (d.forward l e).word i = d.word i := by
  simp [Dev.word]
@[simp] theorem Dev.rd_forward (l : Nat) (e : Entry) (f : Fld) : (d.forward l e).rd f = d.rd f := by
  simp [Dev.rd]

/-! ## `wign` -/

@[simp] theorem Dev.wign_clk (a o r : Nat) : (d.wign a o r).clk = d.clk := by
  unfold Dev.wign; (try dsimp only); (repeat' split) <;> (first | rfl | simp)
@[simp] theorem Dev.wign_mode (a o r : Nat) : (d.wign a o r).mode = d.mode := by
  unfold Dev.wign; (try dsimp only); (repeat' split) <;> (first | rfl | simp)
@[simp] theorem Dev.wign_ent (a o r : Nat) : (d.wign a o r).ent = d.ent := by
  unfold Dev.wign; (try dsimp only); (repeat' split) <;> (first | rfl | simp)
@[simp] theorem Dev.wign_br (a o r : Nat) : (d.wign a o r).br = d.br := by
  unfold Dev.wign; (try dsimp only); (repeat' split) <;> (first | rfl | simp)
@[simp] theorem Dev.wign_retry (a o r : Nat) : (d.wign a o r).retry = d.retry := by
  unfold Dev.wign; (try dsimp only); (repeat' split) <;> (first | rfl | simp)
@[simp] theorem Dev.wign_rail (a o r : Nat) : (d.wign a o r).rail = d.rail := by
  unfold Dev.wign; (try dsimp only); (repeat' split) <;> (first | rfl | simp)
@[simp] theorem Dev.wign_ph (a o r : Nat) : (d.wign a o r).ph = d.ph := by
  unfold Dev.wign; (try dsimp only); (repeat' split) <;> (first | rfl | simp)
@[simp] theorem Dev.wign_port (a o r : Nat) : (d.wign a o r).port = d.port := by
  unfold Dev.wign; (try dsimp only); (repeat' split) <;> (first | rfl | simp)
@[simp] theorem Dev.wign_conv (a o r : Nat) : (d.wign a o r).conv = d.conv := by
  unfold Dev.wign; (try dsimp only); (repeat' split) <;> (first | rfl | simp)
@[simp] theorem Dev.wign_scv (a o r : Nat) : (d.wign a o r).scv = d.scv := by
  unfold Dev.wign; (try dsimp only); (repeat' split) <;> (first | rfl | simp)
@[simp] theorem Dev.wign_icv (a o r : Nat) : (d.wign a o r).icv = d.icv := by
  unfold Dev.wign; (try dsimp only); (repeat' split) <;> (first | rfl | simp)
@[simp] theorem Dev.wign_sage (a o r : Nat) : (d.wign a o r).sage = d.sage := by
  unfold Dev.wign; (try dsimp only); (repeat' split) <;> (first | rfl | simp)
@[simp] theorem Dev.wign_slot (a o r : Nat) : (d.wign a o r).slot = d.slot := by
  unfold Dev.wign; (try dsimp only); (repeat' split) <;> (first | rfl | simp)
@[simp] theorem Dev.wign_ring (a o r : Nat) : (d.wign a o r).ring = d.ring := by
  unfold Dev.wign; (try dsimp only); (repeat' split) <;> (first | rfl | simp)
@[simp] theorem Dev.wign_thr (a o r : Nat) : (d.wign a o r).thr = d.thr := by
  unfold Dev.wign; (try dsimp only); (repeat' split) <;> (first | rfl | simp)
@[simp] theorem Dev.wign_rq (a o r : Nat) : (d.wign a o r).rq = d.rq := by
  unfold Dev.wign; (try dsimp only); (repeat' split) <;> (first | rfl | simp)
@[simp] theorem Dev.wign_rqHi (a o r : Nat) : (d.wign a o r).rqHi = d.rqHi := by
  unfold Dev.wign; (try dsimp only); (repeat' split) <;> (first | rfl | simp)
@[simp] theorem Dev.wign_rqHead (a o r : Nat) : (d.wign a o r).rqHead = d.rqHead := by
  unfold Dev.wign; (try dsimp only); (repeat' split) <;> (first | rfl | simp)
@[simp] theorem Dev.wign_host (a o r : Nat) : (d.wign a o r).host = d.host := by
  unfold Dev.wign; (try dsimp only); (repeat' split) <;> (first | rfl | simp)
@[simp] theorem Dev.wign_vc (a o r : Nat) : (d.wign a o r).vc = d.vc := by
  unfold Dev.wign; (try dsimp only); (repeat' split) <;> (first | rfl | simp)
@[simp] theorem Dev.wign_stream (a o r : Nat) : (d.wign a o r).stream = d.stream := by
  unfold Dev.wign; (try dsimp only); (repeat' split) <;> (first | rfl | simp)
@[simp] theorem Dev.wign_tw (a o r : Nat) : (d.wign a o r).tw = d.tw := by
  unfold Dev.wign; (try dsimp only); (repeat' split) <;> (first | rfl | simp)
@[simp] theorem Dev.wign_bmc (a o r : Nat) : (d.wign a o r).bmc = d.bmc := by
  unfold Dev.wign; (try dsimp only); (repeat' split) <;> (first | rfl | simp)
@[simp] theorem Dev.wign_core (a o r : Nat) : (d.wign a o r).core = d.core := by
  unfold Dev.wign; (try dsimp only); (repeat' split) <;> (first | rfl | simp)
@[simp] theorem Dev.wign_mem (a o r : Nat) : (d.wign a o r).mem = d.mem := by
  unfold Dev.wign; (try dsimp only); (repeat' split) <;> (first | rfl | simp)
@[simp] theorem Dev.wign_flt (a o r : Nat) : (d.wign a o r).flt = d.flt := by
  unfold Dev.wign; (try dsimp only); (repeat' split) <;> (first | rfl | simp)
@[simp] theorem Dev.wign_keep (a o r : Nat) : (d.wign a o r).keep = d.keep := by
  unfold Dev.wign; (try dsimp only); (repeat' split) <;> (first | rfl | simp)
@[simp] theorem Dev.wign_link (a o r : Nat) : (d.wign a o r).link = d.link := by
  unfold Dev.wign; (try dsimp only); (repeat' split) <;> (first | rfl | simp)
@[simp] theorem Dev.wign_stg (a o r : Nat) : (d.wign a o r).stg = d.stg := by
  unfold Dev.wign; (try dsimp only); (repeat' split) <;> (first | rfl | simp)
@[simp] theorem Dev.E_wign (a o r : Nat) (i : Nat) : (d.wign a o r).E i = d.E i := by
  simp [Dev.E]
@[simp] theorem Dev.B_wign (a o r : Nat) (i : Nat) : (d.wign a o r).B i = d.B i := by
  simp [Dev.B]
@[simp] theorem Dev.RT_wign (a o r : Nat) (i : Nat) : (d.wign a o r).RT i = d.RT i := by
  simp [Dev.RT]
@[simp] theorem Dev.R_wign (a o r : Nat) (i : Nat) : (d.wign a o r).R i = d.R i := by
  simp [Dev.R]
@[simp] theorem Dev.P_wign (a o r : Nat) (i : Nat) : (d.wign a o r).P i = d.P i := by
  simp [Dev.P]
@[simp] theorem Dev.IP_wign (a o r : Nat) (i : Nat) : (d.wign a o r).IP i = d.IP i := by
  simp [Dev.IP]
@[simp] theorem Dev.C_wign (a o r : Nat) (i : Nat) : (d.wign a o r).C i = d.C i := by
  simp [Dev.C]
@[simp] theorem Dev.SQ_wign (a o r : Nat) (i : Nat) : (d.wign a o r).SQ i = d.SQ i := by
  simp [Dev.SQ]
@[simp] theorem Dev.IC_wign (a o r : Nat) (i : Nat) : (d.wign a o r).IC i = d.IC i := by
  simp [Dev.IC]
@[simp] theorem Dev.SG_wign (a o r : Nat) (i : Nat) : (d.wign a o r).SG i = d.SG i := by
  simp [Dev.SG]
@[simp] theorem Dev.SL_wign (a o r : Nat) (i : Nat) : (d.wign a o r).SL i = d.SL i := by
  simp [Dev.SL]
@[simp] theorem Dev.RG_wign (a o r : Nat) (i : Nat) : (d.wign a o r).RG i = d.RG i := by
  simp [Dev.RG]
@[simp] theorem Dev.T_wign (a o r : Nat) (i : Nat) : (d.wign a o r).T i = d.T i := by
  simp [Dev.T]
@[simp] theorem Dev.Q_wign (a o r : Nat) (i : Nat) : (d.wign a o r).Q i = d.Q i := by
  simp [Dev.Q]
@[simp] theorem Dev.V_wign (a o r : Nat) (i : Nat) : (d.wign a o r).V i = d.V i := by
  simp [Dev.V]
@[simp] theorem Dev.W_wign (a o r : Nat) (i : Nat) : (d.wign a o r).W i = d.W i := by
  simp [Dev.W]
@[simp] theorem Dev.K_wign (a o r : Nat) (i : Nat) : (d.wign a o r).K i = d.K i := by
  simp [Dev.K]

/-! ## `raiseVec` -/

@[simp] theorem Dev.raiseVec_regs (v : Nat) : (d.raiseVec v).regs = d.regs := by
  unfold Dev.raiseVec; (try dsimp only); (repeat' split) <;> (first | rfl | simp)
@[simp] theorem Dev.raiseVec_clk (v : Nat) : (d.raiseVec v).clk = d.clk := by
  unfold Dev.raiseVec; (try dsimp only); (repeat' split) <;> (first | rfl | simp)
@[simp] theorem Dev.raiseVec_mode (v : Nat) : (d.raiseVec v).mode = d.mode := by
  unfold Dev.raiseVec; (try dsimp only); (repeat' split) <;> (first | rfl | simp)
@[simp] theorem Dev.raiseVec_ent (v : Nat) : (d.raiseVec v).ent = d.ent := by
  unfold Dev.raiseVec; (try dsimp only); (repeat' split) <;> (first | rfl | simp)
@[simp] theorem Dev.raiseVec_br (v : Nat) : (d.raiseVec v).br = d.br := by
  unfold Dev.raiseVec; (try dsimp only); (repeat' split) <;> (first | rfl | simp)
@[simp] theorem Dev.raiseVec_retry (v : Nat) : (d.raiseVec v).retry = d.retry := by
  unfold Dev.raiseVec; (try dsimp only); (repeat' split) <;> (first | rfl | simp)
@[simp] theorem Dev.raiseVec_rail (v : Nat) : (d.raiseVec v).rail = d.rail := by
  unfold Dev.raiseVec; (try dsimp only); (repeat' split) <;> (first | rfl | simp)
@[simp] theorem Dev.raiseVec_ph (v : Nat) : (d.raiseVec v).ph = d.ph := by
  unfold Dev.raiseVec; (try dsimp only); (repeat' split) <;> (first | rfl | simp)
@[simp] theorem Dev.raiseVec_port (v : Nat) : (d.raiseVec v).port = d.port := by
  unfold Dev.raiseVec; (try dsimp only); (repeat' split) <;> (first | rfl | simp)
@[simp] theorem Dev.raiseVec_conv (v : Nat) : (d.raiseVec v).conv = d.conv := by
  unfold Dev.raiseVec; (try dsimp only); (repeat' split) <;> (first | rfl | simp)
@[simp] theorem Dev.raiseVec_scv (v : Nat) : (d.raiseVec v).scv = d.scv := by
  unfold Dev.raiseVec; (try dsimp only); (repeat' split) <;> (first | rfl | simp)
@[simp] theorem Dev.raiseVec_icv (v : Nat) : (d.raiseVec v).icv = d.icv := by
  unfold Dev.raiseVec; (try dsimp only); (repeat' split) <;> (first | rfl | simp)
@[simp] theorem Dev.raiseVec_sage (v : Nat) : (d.raiseVec v).sage = d.sage := by
  unfold Dev.raiseVec; (try dsimp only); (repeat' split) <;> (first | rfl | simp)
@[simp] theorem Dev.raiseVec_slot (v : Nat) : (d.raiseVec v).slot = d.slot := by
  unfold Dev.raiseVec; (try dsimp only); (repeat' split) <;> (first | rfl | simp)
@[simp] theorem Dev.raiseVec_ring (v : Nat) : (d.raiseVec v).ring = d.ring := by
  unfold Dev.raiseVec; (try dsimp only); (repeat' split) <;> (first | rfl | simp)
@[simp] theorem Dev.raiseVec_thr (v : Nat) : (d.raiseVec v).thr = d.thr := by
  unfold Dev.raiseVec; (try dsimp only); (repeat' split) <;> (first | rfl | simp)
@[simp] theorem Dev.raiseVec_rq (v : Nat) : (d.raiseVec v).rq = d.rq := by
  unfold Dev.raiseVec; (try dsimp only); (repeat' split) <;> (first | rfl | simp)
@[simp] theorem Dev.raiseVec_rqHi (v : Nat) : (d.raiseVec v).rqHi = d.rqHi := by
  unfold Dev.raiseVec; (try dsimp only); (repeat' split) <;> (first | rfl | simp)
@[simp] theorem Dev.raiseVec_rqHead (v : Nat) : (d.raiseVec v).rqHead = d.rqHead := by
  unfold Dev.raiseVec; (try dsimp only); (repeat' split) <;> (first | rfl | simp)
@[simp] theorem Dev.raiseVec_vc (v : Nat) : (d.raiseVec v).vc = d.vc := by
  unfold Dev.raiseVec; (try dsimp only); (repeat' split) <;> (first | rfl | simp)
@[simp] theorem Dev.raiseVec_stream (v : Nat) : (d.raiseVec v).stream = d.stream := by
  unfold Dev.raiseVec; (try dsimp only); (repeat' split) <;> (first | rfl | simp)
@[simp] theorem Dev.raiseVec_tw (v : Nat) : (d.raiseVec v).tw = d.tw := by
  unfold Dev.raiseVec; (try dsimp only); (repeat' split) <;> (first | rfl | simp)
@[simp] theorem Dev.raiseVec_bmc (v : Nat) : (d.raiseVec v).bmc = d.bmc := by
  unfold Dev.raiseVec; (try dsimp only); (repeat' split) <;> (first | rfl | simp)
@[simp] theorem Dev.raiseVec_core (v : Nat) : (d.raiseVec v).core = d.core := by
  unfold Dev.raiseVec; (try dsimp only); (repeat' split) <;> (first | rfl | simp)
@[simp] theorem Dev.raiseVec_mem (v : Nat) : (d.raiseVec v).mem = d.mem := by
  unfold Dev.raiseVec; (try dsimp only); (repeat' split) <;> (first | rfl | simp)
@[simp] theorem Dev.raiseVec_flt (v : Nat) : (d.raiseVec v).flt = d.flt := by
  unfold Dev.raiseVec; (try dsimp only); (repeat' split) <;> (first | rfl | simp)
@[simp] theorem Dev.raiseVec_keep (v : Nat) : (d.raiseVec v).keep = d.keep := by
  unfold Dev.raiseVec; (try dsimp only); (repeat' split) <;> (first | rfl | simp)
@[simp] theorem Dev.raiseVec_link (v : Nat) : (d.raiseVec v).link = d.link := by
  unfold Dev.raiseVec; (try dsimp only); (repeat' split) <;> (first | rfl | simp)
@[simp] theorem Dev.raiseVec_hw (v : Nat) : (d.raiseVec v).hw = d.hw := by
  unfold Dev.raiseVec; (try dsimp only); (repeat' split) <;> (first | rfl | simp)
@[simp] theorem Dev.raiseVec_stg (v : Nat) : (d.raiseVec v).stg = d.stg := by
  unfold Dev.raiseVec; (try dsimp only); (repeat' split) <;> (first | rfl | simp)
@[simp] theorem Dev.E_raiseVec (v : Nat) (i : Nat) : (d.raiseVec v).E i = d.E i := by
  simp [Dev.E]
@[simp] theorem Dev.B_raiseVec (v : Nat) (i : Nat) : (d.raiseVec v).B i = d.B i := by
  simp [Dev.B]
@[simp] theorem Dev.RT_raiseVec (v : Nat) (i : Nat) : (d.raiseVec v).RT i = d.RT i := by
  simp [Dev.RT]
@[simp] theorem Dev.R_raiseVec (v : Nat) (i : Nat) : (d.raiseVec v).R i = d.R i := by
  simp [Dev.R]
@[simp] theorem Dev.P_raiseVec (v : Nat) (i : Nat) : (d.raiseVec v).P i = d.P i := by
  simp [Dev.P]
@[simp] theorem Dev.IP_raiseVec (v : Nat) (i : Nat) : (d.raiseVec v).IP i = d.IP i := by
  simp [Dev.IP]
@[simp] theorem Dev.C_raiseVec (v : Nat) (i : Nat) : (d.raiseVec v).C i = d.C i := by
  simp [Dev.C]
@[simp] theorem Dev.SQ_raiseVec (v : Nat) (i : Nat) : (d.raiseVec v).SQ i = d.SQ i := by
  simp [Dev.SQ]
@[simp] theorem Dev.IC_raiseVec (v : Nat) (i : Nat) : (d.raiseVec v).IC i = d.IC i := by
  simp [Dev.IC]
@[simp] theorem Dev.SG_raiseVec (v : Nat) (i : Nat) : (d.raiseVec v).SG i = d.SG i := by
  simp [Dev.SG]
@[simp] theorem Dev.SL_raiseVec (v : Nat) (i : Nat) : (d.raiseVec v).SL i = d.SL i := by
  simp [Dev.SL]
@[simp] theorem Dev.RG_raiseVec (v : Nat) (i : Nat) : (d.raiseVec v).RG i = d.RG i := by
  simp [Dev.RG]
@[simp] theorem Dev.T_raiseVec (v : Nat) (i : Nat) : (d.raiseVec v).T i = d.T i := by
  simp [Dev.T]
@[simp] theorem Dev.Q_raiseVec (v : Nat) (i : Nat) : (d.raiseVec v).Q i = d.Q i := by
  simp [Dev.Q]
@[simp] theorem Dev.V_raiseVec (v : Nat) (i : Nat) : (d.raiseVec v).V i = d.V i := by
  simp [Dev.V]
@[simp] theorem Dev.W_raiseVec (v : Nat) (i : Nat) : (d.raiseVec v).W i = d.W i := by
  simp [Dev.W]
@[simp] theorem Dev.K_raiseVec (v : Nat) (i : Nat) : (d.raiseVec v).K i = d.K i := by
  simp [Dev.K]
@[simp] theorem Dev.word_raiseVec (v : Nat) (i : Nat) : (d.raiseVec v).word i = d.word i := by
  simp [Dev.word]
@[simp] theorem Dev.rd_raiseVec (v : Nat) (f : Fld) : (d.raiseVec v).rd f = d.rd f := by
  simp [Dev.rd]

/-! ## `coreCount` -/

@[simp] theorem Dev.coreCount_clk (c : Nat) : (d.coreCount c).clk = d.clk := by
  unfold Dev.coreCount; (try dsimp only); (repeat' split) <;> (first | rfl | simp)
@[simp] theorem Dev.coreCount_mode (c : Nat) : (d.coreCount c).mode = d.mode := by
  unfold Dev.coreCount; (try dsimp only); (repeat' split) <;> (first | rfl | simp)
@[simp] theorem Dev.coreCount_ent (c : Nat) : (d.coreCount c).ent = d.ent := by
  unfold Dev.coreCount; (try dsimp only); (repeat' split) <;> (first | rfl | simp)
@[simp] theorem Dev.coreCount_br (c : Nat) : (d.coreCount c).br = d.br := by
  unfold Dev.coreCount; (try dsimp only); (repeat' split) <;> (first | rfl | simp)
@[simp] theorem Dev.coreCount_retry (c : Nat) : (d.coreCount c).retry = d.retry := by
  unfold Dev.coreCount; (try dsimp only); (repeat' split) <;> (first | rfl | simp)
@[simp] theorem Dev.coreCount_rail (c : Nat) : (d.coreCount c).rail = d.rail := by
  unfold Dev.coreCount; (try dsimp only); (repeat' split) <;> (first | rfl | simp)
@[simp] theorem Dev.coreCount_ph (c : Nat) : (d.coreCount c).ph = d.ph := by
  unfold Dev.coreCount; (try dsimp only); (repeat' split) <;> (first | rfl | simp)
@[simp] theorem Dev.coreCount_port (c : Nat) : (d.coreCount c).port = d.port := by
  unfold Dev.coreCount; (try dsimp only); (repeat' split) <;> (first | rfl | simp)
@[simp] theorem Dev.coreCount_conv (c : Nat) : (d.coreCount c).conv = d.conv := by
  unfold Dev.coreCount; (try dsimp only); (repeat' split) <;> (first | rfl | simp)
@[simp] theorem Dev.coreCount_scv (c : Nat) : (d.coreCount c).scv = d.scv := by
  unfold Dev.coreCount; (try dsimp only); (repeat' split) <;> (first | rfl | simp)
@[simp] theorem Dev.coreCount_icv (c : Nat) : (d.coreCount c).icv = d.icv := by
  unfold Dev.coreCount; (try dsimp only); (repeat' split) <;> (first | rfl | simp)
@[simp] theorem Dev.coreCount_sage (c : Nat) : (d.coreCount c).sage = d.sage := by
  unfold Dev.coreCount; (try dsimp only); (repeat' split) <;> (first | rfl | simp)
@[simp] theorem Dev.coreCount_slot (c : Nat) : (d.coreCount c).slot = d.slot := by
  unfold Dev.coreCount; (try dsimp only); (repeat' split) <;> (first | rfl | simp)
@[simp] theorem Dev.coreCount_ring (c : Nat) : (d.coreCount c).ring = d.ring := by
  unfold Dev.coreCount; (try dsimp only); (repeat' split) <;> (first | rfl | simp)
@[simp] theorem Dev.coreCount_thr (c : Nat) : (d.coreCount c).thr = d.thr := by
  unfold Dev.coreCount; (try dsimp only); (repeat' split) <;> (first | rfl | simp)
@[simp] theorem Dev.coreCount_rq (c : Nat) : (d.coreCount c).rq = d.rq := by
  unfold Dev.coreCount; (try dsimp only); (repeat' split) <;> (first | rfl | simp)
@[simp] theorem Dev.coreCount_rqHi (c : Nat) : (d.coreCount c).rqHi = d.rqHi := by
  unfold Dev.coreCount; (try dsimp only); (repeat' split) <;> (first | rfl | simp)
@[simp] theorem Dev.coreCount_rqHead (c : Nat) : (d.coreCount c).rqHead = d.rqHead := by
  unfold Dev.coreCount; (try dsimp only); (repeat' split) <;> (first | rfl | simp)
@[simp] theorem Dev.coreCount_host (c : Nat) : (d.coreCount c).host = d.host := by
  unfold Dev.coreCount; (try dsimp only); (repeat' split) <;> (first | rfl | simp)
@[simp] theorem Dev.coreCount_vc (c : Nat) : (d.coreCount c).vc = d.vc := by
  unfold Dev.coreCount; (try dsimp only); (repeat' split) <;> (first | rfl | simp)
@[simp] theorem Dev.coreCount_stream (c : Nat) : (d.coreCount c).stream = d.stream := by
  unfold Dev.coreCount; (try dsimp only); (repeat' split) <;> (first | rfl | simp)
@[simp] theorem Dev.coreCount_tw (c : Nat) : (d.coreCount c).tw = d.tw := by
  unfold Dev.coreCount; (try dsimp only); (repeat' split) <;> (first | rfl | simp)
@[simp] theorem Dev.coreCount_bmc (c : Nat) : (d.coreCount c).bmc = d.bmc := by
  unfold Dev.coreCount; (try dsimp only); (repeat' split) <;> (first | rfl | simp)
@[simp] theorem Dev.coreCount_mem (c : Nat) : (d.coreCount c).mem = d.mem := by
  unfold Dev.coreCount; (try dsimp only); (repeat' split) <;> (first | rfl | simp)
@[simp] theorem Dev.coreCount_flt (c : Nat) : (d.coreCount c).flt = d.flt := by
  unfold Dev.coreCount; (try dsimp only); (repeat' split) <;> (first | rfl | simp)
@[simp] theorem Dev.coreCount_keep (c : Nat) : (d.coreCount c).keep = d.keep := by
  unfold Dev.coreCount; (try dsimp only); (repeat' split) <;> (first | rfl | simp)
@[simp] theorem Dev.coreCount_link (c : Nat) : (d.coreCount c).link = d.link := by
  unfold Dev.coreCount; (try dsimp only); (repeat' split) <;> (first | rfl | simp)
@[simp] theorem Dev.coreCount_hw (c : Nat) : (d.coreCount c).hw = d.hw := by
  unfold Dev.coreCount; (try dsimp only); (repeat' split) <;> (first | rfl | simp)
@[simp] theorem Dev.coreCount_stg (c : Nat) : (d.coreCount c).stg = d.stg := by
  unfold Dev.coreCount; (try dsimp only); (repeat' split) <;> (first | rfl | simp)
@[simp] theorem Dev.E_coreCount (c : Nat) (i : Nat) : (d.coreCount c).E i = d.E i := by
  simp [Dev.E]
@[simp] theorem Dev.B_coreCount (c : Nat) (i : Nat) : (d.coreCount c).B i = d.B i := by
  simp [Dev.B]
@[simp] theorem Dev.RT_coreCount (c : Nat) (i : Nat) : (d.coreCount c).RT i = d.RT i := by
  simp [Dev.RT]
@[simp] theorem Dev.R_coreCount (c : Nat) (i : Nat) : (d.coreCount c).R i = d.R i := by
  simp [Dev.R]
@[simp] theorem Dev.P_coreCount (c : Nat) (i : Nat) : (d.coreCount c).P i = d.P i := by
  simp [Dev.P]
@[simp] theorem Dev.IP_coreCount (c : Nat) (i : Nat) : (d.coreCount c).IP i = d.IP i := by
  simp [Dev.IP]
@[simp] theorem Dev.C_coreCount (c : Nat) (i : Nat) : (d.coreCount c).C i = d.C i := by
  simp [Dev.C]
@[simp] theorem Dev.SQ_coreCount (c : Nat) (i : Nat) : (d.coreCount c).SQ i = d.SQ i := by
  simp [Dev.SQ]
@[simp] theorem Dev.IC_coreCount (c : Nat) (i : Nat) : (d.coreCount c).IC i = d.IC i := by
  simp [Dev.IC]
@[simp] theorem Dev.SG_coreCount (c : Nat) (i : Nat) : (d.coreCount c).SG i = d.SG i := by
  simp [Dev.SG]
@[simp] theorem Dev.SL_coreCount (c : Nat) (i : Nat) : (d.coreCount c).SL i = d.SL i := by
  simp [Dev.SL]
@[simp] theorem Dev.RG_coreCount (c : Nat) (i : Nat) : (d.coreCount c).RG i = d.RG i := by
  simp [Dev.RG]
@[simp] theorem Dev.T_coreCount (c : Nat) (i : Nat) : (d.coreCount c).T i = d.T i := by
  simp [Dev.T]
@[simp] theorem Dev.Q_coreCount (c : Nat) (i : Nat) : (d.coreCount c).Q i = d.Q i := by
  simp [Dev.Q]
@[simp] theorem Dev.V_coreCount (c : Nat) (i : Nat) : (d.coreCount c).V i = d.V i := by
  simp [Dev.V]
@[simp] theorem Dev.W_coreCount (c : Nat) (i : Nat) : (d.coreCount c).W i = d.W i := by
  simp [Dev.W]

/-! ## `coreGo` -/

@[simp] theorem Dev.coreGo_clk (c st : Nat) : (d.coreGo c st).clk = d.clk := by
  unfold Dev.coreGo; (try dsimp only); (repeat' split) <;> (first | rfl | simp)
@[simp] theorem Dev.coreGo_mode (c st : Nat) : (d.coreGo c st).mode = d.mode := by
  unfold Dev.coreGo; (try dsimp only); (repeat' split) <;> (first | rfl | simp)
@[simp] theorem Dev.coreGo_ent (c st : Nat) : (d.coreGo c st).ent = d.ent := by
  unfold Dev.coreGo; (try dsimp only); (repeat' split) <;> (first | rfl | simp)
@[simp] theorem Dev.coreGo_br (c st : Nat) : (d.coreGo c st).br = d.br := by
  unfold Dev.coreGo; (try dsimp only); (repeat' split) <;> (first | rfl | simp)
@[simp] theorem Dev.coreGo_retry (c st : Nat) : (d.coreGo c st).retry = d.retry := by
  unfold Dev.coreGo; (try dsimp only); (repeat' split) <;> (first | rfl | simp)
@[simp] theorem Dev.coreGo_rail (c st : Nat) : (d.coreGo c st).rail = d.rail := by
  unfold Dev.coreGo; (try dsimp only); (repeat' split) <;> (first | rfl | simp)
@[simp] theorem Dev.coreGo_ph (c st : Nat) : (d.coreGo c st).ph = d.ph := by
  unfold Dev.coreGo; (try dsimp only); (repeat' split) <;> (first | rfl | simp)
@[simp] theorem Dev.coreGo_port (c st : Nat) : (d.coreGo c st).port = d.port := by
  unfold Dev.coreGo; (try dsimp only); (repeat' split) <;> (first | rfl | simp)
@[simp] theorem Dev.coreGo_conv (c st : Nat) : (d.coreGo c st).conv = d.conv := by
  unfold Dev.coreGo; (try dsimp only); (repeat' split) <;> (first | rfl | simp)
@[simp] theorem Dev.coreGo_scv (c st : Nat) : (d.coreGo c st).scv = d.scv := by
  unfold Dev.coreGo; (try dsimp only); (repeat' split) <;> (first | rfl | simp)
@[simp] theorem Dev.coreGo_icv (c st : Nat) : (d.coreGo c st).icv = d.icv := by
  unfold Dev.coreGo; (try dsimp only); (repeat' split) <;> (first | rfl | simp)
@[simp] theorem Dev.coreGo_sage (c st : Nat) : (d.coreGo c st).sage = d.sage := by
  unfold Dev.coreGo; (try dsimp only); (repeat' split) <;> (first | rfl | simp)
@[simp] theorem Dev.coreGo_slot (c st : Nat) : (d.coreGo c st).slot = d.slot := by
  unfold Dev.coreGo; (try dsimp only); (repeat' split) <;> (first | rfl | simp)
@[simp] theorem Dev.coreGo_ring (c st : Nat) : (d.coreGo c st).ring = d.ring := by
  unfold Dev.coreGo; (try dsimp only); (repeat' split) <;> (first | rfl | simp)
@[simp] theorem Dev.coreGo_thr (c st : Nat) : (d.coreGo c st).thr = d.thr := by
  unfold Dev.coreGo; (try dsimp only); (repeat' split) <;> (first | rfl | simp)
@[simp] theorem Dev.coreGo_rq (c st : Nat) : (d.coreGo c st).rq = d.rq := by
  unfold Dev.coreGo; (try dsimp only); (repeat' split) <;> (first | rfl | simp)
@[simp] theorem Dev.coreGo_rqHi (c st : Nat) : (d.coreGo c st).rqHi = d.rqHi := by
  unfold Dev.coreGo; (try dsimp only); (repeat' split) <;> (first | rfl | simp)
@[simp] theorem Dev.coreGo_rqHead (c st : Nat) : (d.coreGo c st).rqHead = d.rqHead := by
  unfold Dev.coreGo; (try dsimp only); (repeat' split) <;> (first | rfl | simp)
@[simp] theorem Dev.coreGo_host (c st : Nat) : (d.coreGo c st).host = d.host := by
  unfold Dev.coreGo; (try dsimp only); (repeat' split) <;> (first | rfl | simp)
@[simp] theorem Dev.coreGo_vc (c st : Nat) : (d.coreGo c st).vc = d.vc := by
  unfold Dev.coreGo; (try dsimp only); (repeat' split) <;> (first | rfl | simp)
@[simp] theorem Dev.coreGo_stream (c st : Nat) : (d.coreGo c st).stream = d.stream := by
  unfold Dev.coreGo; (try dsimp only); (repeat' split) <;> (first | rfl | simp)
@[simp] theorem Dev.coreGo_tw (c st : Nat) : (d.coreGo c st).tw = d.tw := by
  unfold Dev.coreGo; (try dsimp only); (repeat' split) <;> (first | rfl | simp)
@[simp] theorem Dev.coreGo_bmc (c st : Nat) : (d.coreGo c st).bmc = d.bmc := by
  unfold Dev.coreGo; (try dsimp only); (repeat' split) <;> (first | rfl | simp)
@[simp] theorem Dev.coreGo_mem (c st : Nat) : (d.coreGo c st).mem = d.mem := by
  unfold Dev.coreGo; (try dsimp only); (repeat' split) <;> (first | rfl | simp)
@[simp] theorem Dev.coreGo_flt (c st : Nat) : (d.coreGo c st).flt = d.flt := by
  unfold Dev.coreGo; (try dsimp only); (repeat' split) <;> (first | rfl | simp)
@[simp] theorem Dev.coreGo_keep (c st : Nat) : (d.coreGo c st).keep = d.keep := by
  unfold Dev.coreGo; (try dsimp only); (repeat' split) <;> (first | rfl | simp)
@[simp] theorem Dev.coreGo_link (c st : Nat) : (d.coreGo c st).link = d.link := by
  unfold Dev.coreGo; (try dsimp only); (repeat' split) <;> (first | rfl | simp)
@[simp] theorem Dev.coreGo_hw (c st : Nat) : (d.coreGo c st).hw = d.hw := by
  unfold Dev.coreGo; (try dsimp only); (repeat' split) <;> (first | rfl | simp)
@[simp] theorem Dev.coreGo_stg (c st : Nat) : (d.coreGo c st).stg = d.stg := by
  unfold Dev.coreGo; (try dsimp only); (repeat' split) <;> (first | rfl | simp)
@[simp] theorem Dev.E_coreGo (c st : Nat) (i : Nat) : (d.coreGo c st).E i = d.E i := by
  simp [Dev.E]
@[simp] theorem Dev.B_coreGo (c st : Nat) (i : Nat) : (d.coreGo c st).B i = d.B i := by
  simp [Dev.B]
@[simp] theorem Dev.RT_coreGo (c st : Nat) (i : Nat) : (d.coreGo c st).RT i = d.RT i := by
  simp [Dev.RT]
@[simp] theorem Dev.R_coreGo (c st : Nat) (i : Nat) : (d.coreGo c st).R i = d.R i := by
  simp [Dev.R]
@[simp] theorem Dev.P_coreGo (c st : Nat) (i : Nat) : (d.coreGo c st).P i = d.P i := by
  simp [Dev.P]
@[simp] theorem Dev.IP_coreGo (c st : Nat) (i : Nat) : (d.coreGo c st).IP i = d.IP i := by
  simp [Dev.IP]
@[simp] theorem Dev.C_coreGo (c st : Nat) (i : Nat) : (d.coreGo c st).C i = d.C i := by
  simp [Dev.C]
@[simp] theorem Dev.SQ_coreGo (c st : Nat) (i : Nat) : (d.coreGo c st).SQ i = d.SQ i := by
  simp [Dev.SQ]
@[simp] theorem Dev.IC_coreGo (c st : Nat) (i : Nat) : (d.coreGo c st).IC i = d.IC i := by
  simp [Dev.IC]
@[simp] theorem Dev.SG_coreGo (c st : Nat) (i : Nat) : (d.coreGo c st).SG i = d.SG i := by
  simp [Dev.SG]
@[simp] theorem Dev.SL_coreGo (c st : Nat) (i : Nat) : (d.coreGo c st).SL i = d.SL i := by
  simp [Dev.SL]
@[simp] theorem Dev.RG_coreGo (c st : Nat) (i : Nat) : (d.coreGo c st).RG i = d.RG i := by
  simp [Dev.RG]
@[simp] theorem Dev.T_coreGo (c st : Nat) (i : Nat) : (d.coreGo c st).T i = d.T i := by
  simp [Dev.T]
@[simp] theorem Dev.Q_coreGo (c st : Nat) (i : Nat) : (d.coreGo c st).Q i = d.Q i := by
  simp [Dev.Q]
@[simp] theorem Dev.V_coreGo (c st : Nat) (i : Nat) : (d.coreGo c st).V i = d.V i := by
  simp [Dev.V]
@[simp] theorem Dev.W_coreGo (c st : Nat) (i : Nat) : (d.coreGo c st).W i = d.W i := by
  simp [Dev.W]

/-! ## `corePend` -/

@[simp] theorem Dev.corePend_clk (c b : Nat) : (d.corePend c b).clk = d.clk := by
  unfold Dev.corePend; (try dsimp only); (repeat' split) <;> (first | rfl | simp)
@[simp] theorem Dev.corePend_mode (c b : Nat) : (d.corePend c b).mode = d.mode := by
  unfold Dev.corePend; (try dsimp only); (repeat' split) <;> (first | rfl | simp)
@[simp] theorem Dev.corePend_ent (c b : Nat) : (d.corePend c b).ent = d.ent := by
  unfold Dev.corePend; (try dsimp only); (repeat' split) <;> (first | rfl | simp)
@[simp] theorem Dev.corePend_br (c b : Nat) : (d.corePend c b).br = d.br := by
  unfold Dev.corePend; (try dsimp only); (repeat' split) <;> (first | rfl | simp)
@[simp] theorem Dev.corePend_retry (c b : Nat) : (d.corePend c b).retry = d.retry := by
  unfold Dev.corePend; (try dsimp only); (repeat' split) <;> (first | rfl | simp)
@[simp] theorem Dev.corePend_rail (c b : Nat) : (d.corePend c b).rail = d.rail := by
  unfold Dev.corePend; (try dsimp only); (repeat' split) <;> (first | rfl | simp)
@[simp] theorem Dev.corePend_ph (c b : Nat) : (d.corePend c b).ph = d.ph := by
  unfold Dev.corePend; (try dsimp only); (repeat' split) <;> (first | rfl | simp)
@[simp] theorem Dev.corePend_port (c b : Nat) : (d.corePend c b).port = d.port := by
  unfold Dev.corePend; (try dsimp only); (repeat' split) <;> (first | rfl | simp)
@[simp] theorem Dev.corePend_conv (c b : Nat) : (d.corePend c b).conv = d.conv := by
  unfold Dev.corePend; (try dsimp only); (repeat' split) <;> (first | rfl | simp)
@[simp] theorem Dev.corePend_scv (c b : Nat) : (d.corePend c b).scv = d.scv := by
  unfold Dev.corePend; (try dsimp only); (repeat' split) <;> (first | rfl | simp)
@[simp] theorem Dev.corePend_icv (c b : Nat) : (d.corePend c b).icv = d.icv := by
  unfold Dev.corePend; (try dsimp only); (repeat' split) <;> (first | rfl | simp)
@[simp] theorem Dev.corePend_sage (c b : Nat) : (d.corePend c b).sage = d.sage := by
  unfold Dev.corePend; (try dsimp only); (repeat' split) <;> (first | rfl | simp)
@[simp] theorem Dev.corePend_slot (c b : Nat) : (d.corePend c b).slot = d.slot := by
  unfold Dev.corePend; (try dsimp only); (repeat' split) <;> (first | rfl | simp)
@[simp] theorem Dev.corePend_ring (c b : Nat) : (d.corePend c b).ring = d.ring := by
  unfold Dev.corePend; (try dsimp only); (repeat' split) <;> (first | rfl | simp)
@[simp] theorem Dev.corePend_thr (c b : Nat) : (d.corePend c b).thr = d.thr := by
  unfold Dev.corePend; (try dsimp only); (repeat' split) <;> (first | rfl | simp)
@[simp] theorem Dev.corePend_rq (c b : Nat) : (d.corePend c b).rq = d.rq := by
  unfold Dev.corePend; (try dsimp only); (repeat' split) <;> (first | rfl | simp)
@[simp] theorem Dev.corePend_rqHi (c b : Nat) : (d.corePend c b).rqHi = d.rqHi := by
  unfold Dev.corePend; (try dsimp only); (repeat' split) <;> (first | rfl | simp)
@[simp] theorem Dev.corePend_rqHead (c b : Nat) : (d.corePend c b).rqHead = d.rqHead := by
  unfold Dev.corePend; (try dsimp only); (repeat' split) <;> (first | rfl | simp)
@[simp] theorem Dev.corePend_host (c b : Nat) : (d.corePend c b).host = d.host := by
  unfold Dev.corePend; (try dsimp only); (repeat' split) <;> (first | rfl | simp)
@[simp] theorem Dev.corePend_vc (c b : Nat) : (d.corePend c b).vc = d.vc := by
  unfold Dev.corePend; (try dsimp only); (repeat' split) <;> (first | rfl | simp)
@[simp] theorem Dev.corePend_stream (c b : Nat) : (d.corePend c b).stream = d.stream := by
  unfold Dev.corePend; (try dsimp only); (repeat' split) <;> (first | rfl | simp)
@[simp] theorem Dev.corePend_tw (c b : Nat) : (d.corePend c b).tw = d.tw := by
  unfold Dev.corePend; (try dsimp only); (repeat' split) <;> (first | rfl | simp)
@[simp] theorem Dev.corePend_bmc (c b : Nat) : (d.corePend c b).bmc = d.bmc := by
  unfold Dev.corePend; (try dsimp only); (repeat' split) <;> (first | rfl | simp)
@[simp] theorem Dev.corePend_core (c b : Nat) : (d.corePend c b).core = d.core := by
  unfold Dev.corePend; (try dsimp only); (repeat' split) <;> (first | rfl | simp)
@[simp] theorem Dev.corePend_mem (c b : Nat) : (d.corePend c b).mem = d.mem := by
  unfold Dev.corePend; (try dsimp only); (repeat' split) <;> (first | rfl | simp)
@[simp] theorem Dev.corePend_flt (c b : Nat) : (d.corePend c b).flt = d.flt := by
  unfold Dev.corePend; (try dsimp only); (repeat' split) <;> (first | rfl | simp)
@[simp] theorem Dev.corePend_keep (c b : Nat) : (d.corePend c b).keep = d.keep := by
  unfold Dev.corePend; (try dsimp only); (repeat' split) <;> (first | rfl | simp)
@[simp] theorem Dev.corePend_link (c b : Nat) : (d.corePend c b).link = d.link := by
  unfold Dev.corePend; (try dsimp only); (repeat' split) <;> (first | rfl | simp)
@[simp] theorem Dev.corePend_stg (c b : Nat) : (d.corePend c b).stg = d.stg := by
  unfold Dev.corePend; (try dsimp only); (repeat' split) <;> (first | rfl | simp)
@[simp] theorem Dev.E_corePend (c b : Nat) (i : Nat) : (d.corePend c b).E i = d.E i := by
  simp [Dev.E]
@[simp] theorem Dev.B_corePend (c b : Nat) (i : Nat) : (d.corePend c b).B i = d.B i := by
  simp [Dev.B]
@[simp] theorem Dev.RT_corePend (c b : Nat) (i : Nat) : (d.corePend c b).RT i = d.RT i := by
  simp [Dev.RT]
@[simp] theorem Dev.R_corePend (c b : Nat) (i : Nat) : (d.corePend c b).R i = d.R i := by
  simp [Dev.R]
@[simp] theorem Dev.P_corePend (c b : Nat) (i : Nat) : (d.corePend c b).P i = d.P i := by
  simp [Dev.P]
@[simp] theorem Dev.IP_corePend (c b : Nat) (i : Nat) : (d.corePend c b).IP i = d.IP i := by
  simp [Dev.IP]
@[simp] theorem Dev.C_corePend (c b : Nat) (i : Nat) : (d.corePend c b).C i = d.C i := by
  simp [Dev.C]
@[simp] theorem Dev.SQ_corePend (c b : Nat) (i : Nat) : (d.corePend c b).SQ i = d.SQ i := by
  simp [Dev.SQ]
@[simp] theorem Dev.IC_corePend (c b : Nat) (i : Nat) : (d.corePend c b).IC i = d.IC i := by
  simp [Dev.IC]
@[simp] theorem Dev.SG_corePend (c b : Nat) (i : Nat) : (d.corePend c b).SG i = d.SG i := by
  simp [Dev.SG]
@[simp] theorem Dev.SL_corePend (c b : Nat) (i : Nat) : (d.corePend c b).SL i = d.SL i := by
  simp [Dev.SL]
@[simp] theorem Dev.RG_corePend (c b : Nat) (i : Nat) : (d.corePend c b).RG i = d.RG i := by
  simp [Dev.RG]
@[simp] theorem Dev.T_corePend (c b : Nat) (i : Nat) : (d.corePend c b).T i = d.T i := by
  simp [Dev.T]
@[simp] theorem Dev.Q_corePend (c b : Nat) (i : Nat) : (d.corePend c b).Q i = d.Q i := by
  simp [Dev.Q]
@[simp] theorem Dev.V_corePend (c b : Nat) (i : Nat) : (d.corePend c b).V i = d.V i := by
  simp [Dev.V]
@[simp] theorem Dev.W_corePend (c b : Nat) (i : Nat) : (d.corePend c b).W i = d.W i := by
  simp [Dev.W]
@[simp] theorem Dev.K_corePend (c b : Nat) (i : Nat) : (d.corePend c b).K i = d.K i := by
  simp [Dev.K]

end Sys2Proof.Machine
end

