-- ==== Sys2Proof/Laws/Units.lean ====
section
/-! SUPPORT. What the state changes of channels, rails and ports come to. -/

namespace Sys2Proof.Machine

variable (d : Dev)

@[simp] theorem Dev.now_countClear (u : Nat) : (d.countClear u).now = d.now := by simp [Dev.now]

/-- COUNT_CLEAR touches one register, and MEM_EVT where the table it lies in is damaged. -/
theorem Dev.word_countClear_ne (u : Nat) {o : Nat} (h : o ≠ (RETRY_STAT.RETRY_CNT u).off) (k : o ≠ MEM_EVT.EVT.off) :
    (d.countClear u).word o = d.word o := by
  unfold Dev.countClear
  repeat' split
  · rw [Dev.word_twr_ne _ _ _ _ h k]; rfl
  · rfl
  · rfl

/-! ## Entry channels -/

theorem Dev.E_entMark_ne {n m : Nat} (h : m ≠ n) : (d.entMark n).E m = d.E m := by
  unfold Dev.entMark
  dsimp only
  split
  · rfl
  · exact d.E_onE_ne h _

theorem Dev.es_entGo (n st : Nat) (g : Gate) : (d.entGo n st g).es n = st % 2 ^ (ENT_STATUS.STATE n).len := by
  unfold Dev.entGo Dev.es
  dsimp only
  split <;> simp [Dev.rd_wr_same _ (ENT_STATUS.STATE n) st (Nat.le_of_ble_eq_true rfl)]

@[simp] theorem Dev.gate_entGo (n st : Nat) (g : Gate) : ((d.entGo n st g).E n).gate = g := by
  unfold Dev.entGo
  dsimp only
  split <;> simp <;> split <;> rfl

/-- INRUSH stamps its tick, a trip keeps the one it has, and any other state has none. -/
theorem Dev.inrush_entGo (n st : Nat) (g : Gate) (h : ¬ (st = Ec.tripped ∨ st = Ec.latched)) :
    ((d.entGo n st g).E n).inrush = if st = Ec.inrush then some d.now else none := by
  unfold Dev.entGo
  dsimp only
  split <;> simp [h, Dev.now]

/-- A state change of one entry channel leaves the others. -/
theorem Dev.E_entGo_ne {n m : Nat} (h : m ≠ n) (st : Nat) (g : Gate) : (d.entGo n st g).E m = d.E m := by
  unfold Dev.entGo
  dsimp only
  split <;> simp [Dev.E_onE_ne _ h, d.E_entMark_ne h]

/-- A state change of an entry channel touches its own status and its retry machine alone. -/
theorem Dev.word_entGo_ne (n st : Nat) (g : Gate) {o : Nat} (h : o ≠ (ENT_STATUS.STATE n).off)
    (h' : o ≠ (RETRY_STAT.RETRY_CNT n).off) (k : o ≠ MEM_EVT.EVT.off) : (d.entGo n st g).word o = d.word o := by
  unfold Dev.entGo
  dsimp only
  split <;> simp [Dev.word_wr_ne _ _ _ h, Dev.word_countClear_ne _ _ h' k]

end Sys2Proof.Machine
end

