-- ==== Sys2Proof/Laws/Memory.lean ====
section
/-! SUPPORT. Every operation that writes the register map, a bank or the host memory keeps their canonical form. -/

namespace Sys2Proof.Machine

variable {d : Dev}

/-- A write of a register word. -/
theorem Dev.canonical_setWord (h : d.canonical) (off : Nat) (w : Word) : (d.setWord off w).canonical :=
  ⟨KV.wf_put _ _ _ h.1, h.2.1, h.2.2.1, h.2.2.2⟩

theorem Dev.canonical_wr (h : d.canonical) (f : Fld) (v : Nat) : (d.wr f v).canonical := Dev.canonical_setWord h _ _
theorem Dev.canonical_wri (h : d.canonical) (f : Fld) (v : Int) : (d.wri f v).canonical := Dev.canonical_wr h _ _
theorem Dev.canonical_bump (h : d.canonical) (f : Fld) (k : Nat) : (d.bump f k).canonical := Dev.canonical_wr h _ _
theorem Dev.canonical_evt (h : d.canonical) (f : Fld) (b : Nat) : (d.evt f b).canonical := Dev.canonical_wr h _ _
theorem Dev.canonical_wrBit (h : d.canonical) (f : Fld) (b : Nat) (v : Bool) : (d.wrBit f b v).canonical := Dev.canonical_wr h _ _

/-- The form speaks of four parts only. -/
theorem Dev.canonical_congr {e : Dev} (h : d.canonical) (hr : e.regs = d.regs) (hm : e.mem.data = d.mem.data) (he : e.mem.err = d.mem.err)
    (hh : e.host.mem = d.host.mem) : e.canonical := by
  unfold Dev.canonical; rw [hr, hm, he, hh]; exact h

/-- A loop of steps that each keep the form keeps it. -/
theorem Dev.canonical_forL {α : Type} (f : Dev → α → Dev) (hf : ∀ e a, e.canonical → (f e a).canonical) (l : List α) :
    ∀ {d : Dev}, d.canonical → (d.forL l f).canonical := by
  induction l with
  | nil => intro d h; exact h
  | cons a r ih => intro d h; exact ih (hf d a h)

theorem Dev.canonical_forN (f : Dev → Nat → Dev) (hf : ∀ e k, e.canonical → (f e k).canonical) (n : Nat) (h : d.canonical) :
    (d.forN n f).canonical := Dev.canonical_forL f hf _ h

/-- A new mask of one copy of a granule. -/
theorem Dev.canonical_setMask (h : d.canonical) (b g : Nat) (e : BitVec 80) : (d.setMask b g e).canonical :=
  ⟨h.1, h.2.1, KV.wf_put (fun _ => 0) (granKey b g) e h.2.2.1, h.2.2.2⟩

/-- The masks of every copy, for new words in use. -/
theorem Dev.canonical_reMask (h : d.canonical) (b g v : Nat) : (d.reMask b g v).canonical :=
  Dev.canonical_forL _ (fun _ _ he => Dev.canonical_setMask he _ _ _) _ h

/-- The words in use of a granule. -/
theorem Dev.canonical_putWords (h : d.canonical) (b g v : Nat) : (d.putWords b g v).canonical := by
  unfold Dev.putWords
  split
  · refine Dev.canonical_forN _ (fun e k he => ?_) _ h
    exact ⟨he.1, KV.wf_put (fun _ => 0) _ _ he.2.1, he.2.2.1, he.2.2.2⟩
  · refine Dev.canonical_forN _ (fun e k he => ?_) _ h
    split
    · exact he
    · exact Dev.canonical_setWord he _ _

/-- A write of one granule of one bank. -/
theorem Dev.canonical_putGran (h : d.canonical) (b g v : Nat) : (d.putGran b g v).canonical := by
  unfold Dev.putGran
  split
  · exact Dev.canonical_putWords (Dev.canonical_setMask h _ _ _) _ _ _
  · exact Dev.canonical_setMask h _ _ _

theorem Dev.canonical_putGranAll (h : d.canonical) (b g v : Nat) : (d.putGranAll b g v).canonical :=
  Dev.canonical_putWords (Dev.canonical_forL _ (fun _ _ he => Dev.canonical_setMask he _ _ _) _ (Dev.canonical_reMask h _ _ _)) _ _ _

theorem Dev.canonical_send (h : d.canonical) (m : FMsg) : (d.send m).canonical :=
  Dev.canonical_congr h (by simp) (by simp) (by simp) (by simp)

theorem Dev.canonical_raiseAt (h : d.canonical) (k u a x s r : Nat) : (d.raiseAt k u a x s r).canonical := Dev.canonical_send h _

theorem Dev.canonical_memCe (h : d.canonical) (b g a x : Nat) : (d.memCe b g a x).canonical :=
  Dev.canonical_raiseAt (Dev.canonical_evt h MEM_EVT.EVT 0) 0x60 b a x 5 g

theorem Dev.canonical_setBankOff (h : d.canonical) (b : Nat) (v : Bool) : (d.setBankOff b v).canonical := Dev.canonical_wrBit h _ _ _

theorem Dev.canonical_memUe (h : d.canonical) (b g a x : Nat) : (d.memUe b g a x).canonical :=
  Dev.canonical_raiseAt (Dev.canonical_setBankOff (Dev.canonical_evt h MEM_EVT.EVT 1) b true) 0x61 b a x 5 g

theorem Dev.canonical_readCopy (h : d.canonical) (b g a x : Nat) : (d.readCopy b g a x).1.canonical := by
  unfold Dev.readCopy
  split
  · exact h
  · exact h
  · exact Dev.canonical_memCe (Dev.canonical_putGran h _ _ _) _ _ _ _

/-- A read of one copy, uncorrectable damage recorded. -/
theorem Dev.canonical_readOne (h : d.canonical) (b g a x : Nat) :
    (match d.readCopy b g a x with | (d, some v) => (d, some v) | (d, none) => (d.memUe b g a x, none)).1.canonical := by
  have hc := Dev.canonical_readCopy h b g a x
  generalize d.readCopy b g a x = r at hc
  obtain ⟨e, _ | v⟩ := r
  · exact Dev.canonical_memUe hc b g a x
  · exact hc

/-- A read of a granule, which may write a correction back. -/
theorem Dev.canonical_readGran (h : d.canonical) (b g a x : Nat) : (d.readGran b g a x).1.canonical := by
  unfold Dev.readGran
  split
  · split
    · exact h
    · exact Dev.canonical_readOne h b g a x
  · next p _ =>
    split
    · split
      · exact h
      · exact Dev.canonical_readOne h p g a x
    · have hc := Dev.canonical_readCopy h b g a x
      generalize d.readCopy b g a x = r at hc
      obtain ⟨e, _ | v⟩ := r
      · dsimp only
        split
        · exact Dev.canonical_memUe hc b g a x
        · split
          · exact Dev.canonical_memCe (Dev.canonical_putGran (Dev.canonical_putGran hc b g _) p g _) b g a x
          · exact Dev.canonical_memUe hc b g a x
      · exact hc

/-- A write of part of a granule. -/
theorem Dev.canonical_writeGran (h : d.canonical) (b g o n v a : Nat) : (d.writeGran b g o n v a).1.canonical := by
  have hp := Dev.canonical_putGranAll h b g
  have hm := fun w c => Dev.canonical_memCe (hp w) c g a 4
  have hr := fun c => Dev.canonical_raiseAt (Dev.canonical_evt h MEM_EVT.EVT 2) 0x62 c a 4 5 g
  unfold Dev.writeGran
  dsimp only
  repeat' split
  all_goals first
    | exact h
    | exact hr _
    | exact hp _
    | exact hm _ _

/-- A unit's write of a table word. -/
theorem Dev.canonical_tabMem (h : d.canonical) (a off : Nat) (w : Word) : (d.tabMem a off w).canonical := by
  have step : ∀ {t : Dev} (l : List Nat) (m : Dev → Nat → BitVec 80) (g : Nat), t.canonical →
      (t.forL l fun d c => d.setMask c g (m d c)).canonical :=
    fun l m g ht => Dev.canonical_forL _ (fun _ _ he => Dev.canonical_setMask he _ _ _) l ht
  unfold Dev.tabMem
  split
  · exact h
  · split
    · exact h
    · dsimp only
      split
      · split
        · exact Dev.canonical_memCe (step _ (fun _ _ => _) _ (Dev.canonical_reMask h _ _ _)) _ _ _ _
        · exact step _ (fun _ _ => _) _ (Dev.canonical_reMask h _ _ _)
      · split
        · exact Dev.canonical_memCe (step _ (fun _ _ => _) _ (Dev.canonical_reMask h _ _ _)) _ _ _ _
        · split
          · exact Dev.canonical_reMask h _ _ _
          · exact Dev.canonical_raiseAt (Dev.canonical_evt (Dev.canonical_reMask h _ _ _) MEM_EVT.EVT 2) _ _ _ _ _ _

theorem Dev.canonical_twr (h : d.canonical) (a : Nat) (f : Fld) (v : Nat) : (d.twr a f v).canonical :=
  Dev.canonical_wr (Dev.canonical_tabMem h _ _ _) f v

/-- A unit's use of table words. -/
theorem Dev.canonical_tabUse (h : d.canonical) (a b o n : Nat) : (d.tabUse a b o n).canonical := by
  unfold Dev.tabUse
  split
  · exact h
  · refine Dev.canonical_forN _ (fun e k he => ?_) _ h
    have hr := Dev.canonical_readGran he b (o / 8 + k) a 1
    generalize e.readGran b (o / 8 + k) a 1 = r at hr
    obtain ⟨e, _ | v⟩ := r
    · exact hr
    · dsimp only
      split
      · exact hr
      · exact Dev.canonical_putWords (Dev.canonical_reMask hr _ _ _) _ _ _

/-- A read of bytes of a bank. -/
theorem Dev.canonical_readBank (b a x n : Nat) : ∀ {d : Dev} (o : Nat), d.canonical → (d.readBank b o a x n).1.canonical := by
  induction n with
  | zero => intro d o h; exact h
  | succ n ih =>
    intro d o h
    have hg := Dev.canonical_readGran h b (o / 8) a x
    unfold Dev.readBank
    generalize d.readGran b (o / 8) a x = r at hg
    obtain ⟨e, _ | v⟩ := r
    · exact hg
    · have hr := ih (o + 1) hg
      dsimp only at hr ⊢
      generalize e.readBank b (o + 1) a x n = q at hr
      obtain ⟨f, _ | w⟩ := q <;> exact hr

/-- A write of bytes to a bank. -/
theorem Dev.canonical_writeBank (b a n : Nat) :
    ∀ {d : Dev} (o : Nat) (bs : List Byte), d.canonical → (d.writeBank b o a bs n).1.canonical := by
  induction n with
  | zero => intro d o bs h; exact h
  | succ n ih =>
    intro d o bs h
    unfold Dev.writeBank
    split
    · exact h
    · have hg := Dev.canonical_writeGran h b (o / 8) (o % 8) (min bs.length (8 - o % 8)) (leNat bs 0 (min bs.length (8 - o % 8))) a
      dsimp only
      generalize d.writeGran b (o / 8) (o % 8) _ _ a = r at hg
      obtain ⟨e, k⟩ := r
      exact ih (o + min bs.length (8 - o % 8)) (bs.drop _) hg

/-- A write of bytes to host memory. -/
theorem Dev.canonical_hWr (bs : List Byte) : ∀ {d : Dev} (x : Nat), d.canonical → (d.hWr x bs).canonical := by
  induction bs with
  | nil => intro d x h; exact h
  | cons b r ih => intro d x h; exact ih (x + 1) ⟨h.1, h.2.1, h.2.2.1, by exact KV.wf_put (fun _ => 0) (x % 2 ^ 48) b h.2.2.2⟩

end Sys2Proof.Machine
end

