-- ==== Sys2Proof/Laws/PerInstr.lean ====
section
/-! SUPPORT. Per command: whether its operands can be ill formed at all (log 8). -/

namespace Sys2Proof.Laws.Shape

/-- The commands that carry a list of bytes, whose length is to be checked. -/
def carriesList : Instr → Bool
  | .nop .. => true
  | .fence .. => true
  | .modeRequestConfigure .. => true
  | .modeRequestRamp .. => true
  | .modeRequestRun .. => true
  | .modeRequestSafe .. => true
  | .modeRequestClearSafe .. => true
  | .timeAlign .. => true
  | .resClaim .. => true
  | .resRelease .. => true
  | .railSet .. => true
  | .railEnable .. => true
  | .railDisable .. => true
  | .phaseMask .. => true
  | .coefLoad .. => true
  | .fusePolicyLoad .. => true
  | .tableLoad .. => true
  | .seqLoad .. => true
  | .threadOpen .. => true
  | .threadModify .. => true
  | .threadClose .. => true
  | .unfence .. => true
  | .faultAck .. => true
  | .packRestore .. => true
  | .packRead .. => true
  | .codewordReceive .. => true
  | .registerReadClear .. => true
  | .registerWrite .. => true
  | .peerCtrl .. => true
  | .peerTrain .. => true
  | _ => false

/-- A command without a list of bytes is well formed. -/
def Statement (i : Instr) : Prop := carriesList i = false → i.wf = true

theorem nop (d : Desc) : Statement (.nop d) := fun h => by cases h
theorem fence (d : Desc) : Statement (.fence d) := fun h => by cases h
theorem fenceMarkerPlace : Statement .fenceMarkerPlace := fun _ => rfl
theorem modeRequestConfigure (q : Req) : Statement (.modeRequestConfigure q) := fun h => by cases h
theorem modeRequestRamp (q : Req) : Statement (.modeRequestRamp q) := fun h => by cases h
theorem modeRequestRun (q : Req) : Statement (.modeRequestRun q) := fun h => by cases h
theorem modeRequestSafe (q : Req) : Statement (.modeRequestSafe q) := fun h => by cases h
theorem modeRequestClearSafe (q : Req) : Statement (.modeRequestClearSafe q) := fun h => by cases h
theorem timeAlign (d : Desc) : Statement (.timeAlign d) := fun h => by cases h
theorem timeAlignTimeout : Statement .timeAlignTimeout := fun _ => rfl
theorem resClaim (d : Desc) : Statement (.resClaim d) := fun h => by cases h
theorem resRelease (d : Desc) : Statement (.resRelease d) := fun h => by cases h
theorem railSet (d : Desc) : Statement (.railSet d) := fun h => by cases h
theorem railEnable (d : Desc) : Statement (.railEnable d) := fun h => by cases h
theorem railDisable (d : Desc) : Statement (.railDisable d) := fun h => by cases h
theorem phaseMask (d : Desc) : Statement (.phaseMask d) := fun h => by cases h
theorem coefLoad (d : Desc) : Statement (.coefLoad d) := fun h => by cases h
theorem fusePolicyLoad (d : Desc) : Statement (.fusePolicyLoad d) := fun h => by cases h
theorem tableLoad (d : Desc) (err : Bool) : Statement (.tableLoad d err) := fun h => by cases h
theorem seqLoad (d : Desc) : Statement (.seqLoad d) := fun h => by cases h
theorem threadOpen (d : Desc) : Statement (.threadOpen d) := fun h => by cases h
theorem threadModify (d : Desc) : Statement (.threadModify d) := fun h => by cases h
theorem threadClose (d : Desc) : Statement (.threadClose d) := fun h => by cases h
theorem threadCloseDone (t : Fin 4096) : Statement (.threadCloseDone t) := fun _ => rfl
theorem unfence (d : Desc) : Statement (.unfence d) := fun h => by cases h
theorem faultAck (d : Desc) : Statement (.faultAck d) := fun h => by cases h
theorem packRestore (d : Desc) : Statement (.packRestore d) := fun h => by cases h
theorem packRead (d : Desc) : Statement (.packRead d) := fun h => by cases h
theorem descriptorFetch : Statement .descriptorFetch := fun _ => rfl
theorem descFetchTimeout (r : Src) : Statement (.descFetchTimeout r) := fun _ => rfl
theorem descFetchError (r : Src) : Statement (.descFetchError r) := fun _ => rfl
theorem completionRetire (r : Src) : Statement (.completionRetire r) := fun _ => rfl
theorem eventRecordWrite (e : Fin 256) : Statement (.eventRecordWrite e) := fun _ => rfl
theorem itrWindowClose (r : Fin 384) : Statement (.itrWindowClose r) := fun _ => rfl
theorem ringStall (r : Fin 384) : Statement (.ringStall r) := fun _ => rfl
theorem ringEnable (a : Agent) (r : Fin 384) : Statement (.ringEnable a r) := fun _ => rfl
theorem ringDisable (a : Agent) (r : Fin 384) : Statement (.ringDisable a r) := fun _ => rfl
theorem ringDrained (r : Fin 64) : Statement (.ringDrained r) := fun _ => rfl
theorem doorbellCommand (w : Doorbell) : Statement (.doorbellCommand w) := fun _ => rfl
theorem doorbellCompletion (w : Doorbell) : Statement (.doorbellCompletion w) := fun _ => rfl
theorem doorbellEvent (w : Doorbell) : Statement (.doorbellEvent w) := fun _ => rfl
theorem doorbellArchive (w : Doorbell) : Statement (.doorbellArchive w) := fun _ => rfl
theorem doorbellThread (w : Doorbell) : Statement (.doorbellThread w) := fun _ => rfl
theorem irDb (a : Agent) (c : Fin 21) (v : Word) : Statement (.irDb a c v) := fun _ => rfl
theorem heartbeat : Statement .heartbeat := fun _ => rfl
theorem hostLinkDown : Statement .hostLinkDown := fun _ => rfl
theorem threadDataFlush (t : Fin 4096) : Statement (.threadDataFlush t) := fun _ => rfl
theorem rqEntry (e : Entry) : Statement (.rqEntry e) := fun _ => rfl
theorem rqPop (a : Agent) (s : Fin 16) : Statement (.rqPop a s) := fun _ => rfl
theorem thymeLoRead (a : Agent) : Statement (.thymeLoRead a) := fun _ => rfl
theorem registerReadClear (a : Agent) (off : ReadAt) : Statement (.registerReadClear a off) := fun h => by cases h
theorem registerWrite (a : Agent) (off : BitVec 24) (v : List Byte) (enable : List Bool) : Statement (.registerWrite a off v enable) := fun h => by cases h
theorem modeUnlock (a : Agent) (v : Word) : Statement (.modeUnlock a v) := fun _ => rfl
theorem modeReset (a : Agent) (v : Word) (st : Straps) : Statement (.modeReset a v st) := fun _ => rfl
theorem bootCtlGo (a : Agent) : Statement (.bootCtlGo a) := fun _ => rfl
theorem fltSafeClr (a : Agent) : Statement (.fltSafeClr a) := fun _ => rfl
theorem calStart (a : Agent) (c : Fin 632) : Statement (.calStart a c) := fun _ => rfl
theorem seqCtlTrig (a : Agent) (k : Fin 8) : Statement (.seqCtlTrig a k) := fun _ => rfl
theorem injReq (a : Agent) (k : Fin 8) (v : BitVec 6) : Statement (.injReq a k v) := fun _ => rfl
theorem ipCtlRestore (a : Agent) (n : Fin 32) : Statement (.ipCtlRestore a n) := fun _ => rfl
theorem twXctlGo (a : Agent) (n : Fin 16) (v : Word) : Statement (.twXctlGo a n v) := fun _ => rfl
theorem twAlertReq (a : Agent) (n : Fin 16) : Statement (.twAlertReq a n) := fun _ => rfl
theorem fltInjFire (a : Agent) : Statement (.fltInjFire a) := fun _ => rfl
theorem faultInjection : Statement .faultInjection := fun _ => rfl
theorem coreCtlHalt (a : Agent) (c : Fin 21) : Statement (.coreCtlHalt a c) := fun _ => rfl
theorem coreCtlStart (a : Agent) (c : Fin 21) : Statement (.coreCtlStart a c) := fun _ => rfl
theorem coreKick (a : Agent) (c : Fin 21) (v : Word) : Statement (.coreKick a c v) := fun _ => rfl
theorem coreSignal (a : Agent) (c : Fin 21) : Statement (.coreSignal a c) := fun _ => rfl
theorem memTake (a : Agent) (b : BitVec 12) : Statement (.memTake a b) := fun _ => rfl
theorem memRawRead (a : Agent) : Statement (.memRawRead a) := fun _ => rfl
theorem memRawWrite (a : Agent) : Statement (.memRawWrite a) := fun _ => rfl
theorem regWriteRecord : Statement .regWriteRecord := fun _ => rfl
theorem regBlockRecord : Statement .regBlockRecord := fun _ => rfl
theorem claimRecord : Statement .claimRecord := fun _ => rfl
theorem coreSectionRecord : Statement .coreSectionRecord := fun _ => rfl
theorem bootLoad (flash : Flash) : Statement (.bootLoad flash) := fun _ => rfl
theorem imageCheck : Statement .imageCheck := fun _ => rfl
theorem imageApplied : Statement .imageApplied := fun _ => rfl
theorem vstbyRise : Statement .vstbyRise := fun _ => rfl
theorem vstbyLoss : Statement .vstbyLoss := fun _ => rfl
theorem mainSupplyFail : Statement .mainSupplyFail := fun _ => rfl
theorem suppliesGood (st : Straps) : Statement (.suppliesGood st) := fun _ => rfl
theorem resetN (st : Straps) : Statement (.resetN st) := fun _ => rfl
theorem pePerstN : Statement .pePerstN := fun _ => rfl
theorem safeDelayExpire : Statement .safeDelayExpire := fun _ => rfl
theorem entryOn : Statement .entryOn := fun _ => rfl
theorem branchOn : Statement .branchOn := fun _ => rfl
theorem railOn : Statement .railOn := fun _ => rfl
theorem delay : Statement .delay := fun _ => rfl
theorem seqDelayExpire : Statement .seqDelayExpire := fun _ => rfl
theorem waitEntry : Statement .waitEntry := fun _ => rfl
theorem waitBranch : Statement .waitBranch := fun _ => rfl
theorem waitPg : Statement .waitPg := fun _ => rfl
theorem waitRailOff : Statement .waitRailOff := fun _ => rfl
theorem seqWaitDone : Statement .seqWaitDone := fun _ => rfl
theorem seqWaitTimeout : Statement .seqWaitTimeout := fun _ => rfl
theorem entryOff : Statement .entryOff := fun _ => rfl
theorem branchOff : Statement .branchOff := fun _ => rfl
theorem railOff : Statement .railOff := fun _ => rfl
theorem seqEnd : Statement .seqEnd := fun _ => rfl
theorem holdupStageShed (st : Fin 8) : Statement (.holdupStageShed st) := fun _ => rfl
theorem restoreStage : Statement .restoreStage := fun _ => rfl
theorem ecvSample (n : Fin 16) (m : Option EcvTriple) : Statement (.ecvSample n m) := fun _ => rfl
theorem entScTrip (n : Fin 16) : Statement (.entScTrip n) := fun _ => rfl
theorem entOcTrip (n : Fin 16) : Statement (.entOcTrip n) := fun _ => rfl
theorem entInrushTime (n : Fin 16) : Statement (.entInrushTime n) := fun _ => rfl
theorem entOvTrip (n : Fin 16) : Statement (.entOvTrip n) := fun _ => rfl
theorem entCutoff (n : Fin 16) : Statement (.entCutoff n) := fun _ => rfl
theorem entQualify (n : Fin 16) : Statement (.entQualify n) := fun _ => rfl
theorem entInrushDone (n : Fin 16) : Statement (.entInrushDone n) := fun _ => rfl
theorem entGateEnhanced (n : Fin 16) : Statement (.entGateEnhanced n) := fun _ => rfl
theorem entBlock (n : Fin 16) : Statement (.entBlock n) := fun _ => rfl
theorem entBlockReturn (n : Fin 16) : Statement (.entBlockReturn n) := fun _ => rfl
theorem entArm (n : Fin 16) : Statement (.entArm n) := fun _ => rfl
theorem entShare (n : Fin 16) : Statement (.entShare n) := fun _ => rfl
theorem holdupEngage (n : Fin 16) : Statement (.holdupEngage n) := fun _ => rfl
theorem holdupExit : Statement .holdupExit := fun _ => rfl
theorem keepEnter : Statement .keepEnter := fun _ => rfl
theorem keepTrip (u : Fin 80) : Statement (.keepTrip u) := fun _ => rfl
theorem keepExpire : Statement .keepExpire := fun _ => rfl
theorem keepRelease : Statement .keepRelease := fun _ => rfl
theorem retryDelayExpire (u : Fin 592) : Statement (.retryDelayExpire u) := fun _ => rfl
theorem coolTimeout (u : Fin 592) : Statement (.coolTimeout u) := fun _ => rfl
theorem countClear (u : Fin 592) : Statement (.countClear u) := fun _ => rfl
theorem brSample (n : Fin 64) (i : BitVec 12) (vin : Option (BitVec 12)) (vout : Option (BitVec 12)) : Statement (.brSample n i vin vout) := fun _ => rfl
theorem brFastTrip (n : Fin 64) : Statement (.brFastTrip n) := fun _ => rfl
theorem brOcTrip (n : Fin 64) : Statement (.brOcTrip n) := fun _ => rfl
theorem brSsTime (n : Fin 64) : Statement (.brSsTime n) := fun _ => rfl
theorem brOvTrip (n : Fin 64) : Statement (.brOvTrip n) := fun _ => rfl
theorem brRevTrip (n : Fin 64) : Statement (.brRevTrip n) := fun _ => rfl
theorem brPwrTrip (n : Fin 64) : Statement (.brPwrTrip n) := fun _ => rfl
theorem brQualify (n : Fin 64) : Statement (.brQualify n) := fun _ => rfl
theorem brSoftstartDone (n : Fin 64) : Statement (.brSoftstartDone n) := fun _ => rfl
theorem branchDownArrive (n : Fin 64) : Statement (.branchDownArrive n) := fun _ => rfl
theorem dependDisable (n : Fin 64) (e : Fin 16) : Statement (.dependDisable n e) := fun _ => rfl
theorem rvcSample (r : Fin 64) (code : Option (BitVec 14)) : Statement (.rvcSample r code) := fun _ => rfl
theorem pccSample (p : Fin 512) (code : Option (BitVec 14)) : Statement (.pccSample p code) := fun _ => rfl
theorem dutyApply (r : Fin 64) : Statement (.dutyApply r) := fun _ => rfl
theorem switchingPeriodBoundary (r : Fin 64) : Statement (.switchingPeriodBoundary r) := fun _ => rfl
theorem catchUndershoot (v : RailVolts) : Statement (.catchUndershoot v) := fun _ => rfl
theorem catchOvershoot (v : RailVolts) : Statement (.catchOvershoot v) := fun _ => rfl
theorem catchRelease (v : RailVolts) (ovs : Bool) : Statement (.catchRelease v ovs) := fun _ => rfl
theorem catchExpired (r : Fin 64) : Statement (.catchExpired r) := fun _ => rfl
theorem sense (r : Fin 64) : Statement (.sense r) := fun _ => rfl
theorem railOv (v : RailVolts) : Statement (.railOv v) := fun _ => rfl
theorem railUv (r : Fin 64) : Statement (.railUv r) := fun _ => rfl
theorem errorModeSwitch (r : Fin 64) : Statement (.errorModeSwitch r) := fun _ => rfl
theorem rerangeDone (r : Fin 64) : Statement (.rerangeDone r) := fun _ => rfl
theorem startTimeout (r : Fin 64) : Statement (.startTimeout r) := fun _ => rfl
theorem pgAssert (r : Fin 64) : Statement (.pgAssert r) := fun _ => rfl
theorem pgDeassert (r : Fin 64) : Statement (.pgDeassert r) := fun _ => rfl
theorem railOc (r : Fin 64) : Statement (.railOc r) := fun _ => rfl
theorem phFuse (p : Fin 512) : Statement (.phFuse p) := fun _ => rfl
theorem phStage (p : Fin 512) : Statement (.phStage p) := fun _ => rfl
theorem phOc (p : Fin 512) : Statement (.phOc p) := fun _ => rfl
theorem phNeg (p : Fin 512) : Statement (.phNeg p) := fun _ => rfl
theorem phHot (p : Fin 512) : Statement (.phHot p) := fun _ => rfl
theorem phImonRange (p : Fin 512) : Statement (.phImonRange p) := fun _ => rfl
theorem phShare (p : Fin 512) : Statement (.phShare p) := fun _ => rfl
theorem tfltSample (p : Fin 512) (uv : BitVec 24) : Statement (.tfltSample p uv) := fun _ => rfl
theorem hello (n : Fin 32) (f : Frame) : Statement (.hello n f) := fun _ => rfl
theorem stepFrame (n : Fin 32) (f : Frame) : Statement (.stepFrame n f) := fun _ => rfl
theorem vidFrame (n : Fin 32) (f : Frame) : Statement (.vidFrame n f) := fun _ => rfl
theorem stateFrame (n : Fin 32) (f : Frame) : Statement (.stateFrame n f) := fun _ => rfl
theorem intentFrameBad (n : Fin 32) : Statement (.intentFrameBad n) := fun _ => rfl
theorem intentSilent (n : Fin 32) : Statement (.intentSilent n) := fun _ => rfl
theorem intentFrameSend (n : Fin 32) : Statement (.intentFrameSend n) := fun _ => rfl
theorem current (n : Fin 32) : Statement (.current n) := fun _ => rfl
theorem specPrechargeStart (r : Fin 64) : Statement (.specPrechargeStart r) := fun _ => rfl
theorem specPrechargeEnd (r : Fin 64) : Statement (.specPrechargeEnd r) := fun _ => rfl
theorem retract (r : Fin 64) : Statement (.retract r) := fun _ => rfl
theorem wakeHoldEnd (r : Fin 64) : Statement (.wakeHoldEnd r) := fun _ => rfl
theorem correctionUpdate (c : Fin 632) (es : List Estimate) : Statement (.correctionUpdate c es) := fun _ => rfl
theorem sliceDrift (c : Fin 632) (s : Fin 8) : Statement (.sliceDrift c s) := fun _ => rfl
theorem calSliceEnd (c : Fin 632) (m : CalResult) : Statement (.calSliceEnd c m) := fun _ => rfl
theorem scvConversion (k : Fin 8) (slot : Fin 64) (code : BitVec 12) : Statement (.scvConversion k slot code) := fun _ => rfl
theorem seqPassEnd (k : Fin 8) : Statement (.seqPassEnd k) := fun _ => rfl
theorem injResult (k : Fin 8) : Statement (.injResult k) := fun _ => rfl
theorem icvPeriodEnd (n : Fin 24) (code : BitVec 24) (ovr : Bool) : Statement (.icvPeriodEnd n code ovr) := fun _ => rfl
theorem tempStale (u : Fin 80) : Statement (.tempStale u) := fun _ => rfl
theorem packInsert (p : Fin 4) : Statement (.packInsert p) := fun _ => rfl
theorem sageSettlingEnd (p : Fin 4) : Statement (.sageSettlingEnd p) := fun _ => rfl
theorem packRemove (p : Fin 4) : Statement (.packRemove p) := fun _ => rfl
theorem sageTempStale (p : Fin 4) : Statement (.sageTempStale p) := fun _ => rfl
theorem restPoint (p : Fin 4) : Statement (.restPoint p) := fun _ => rfl
theorem forcedEmpty (p : Fin 4) : Statement (.forcedEmpty p) := fun _ => rfl
theorem impQualify (p : Fin 4) : Statement (.impQualify p) := fun _ => rfl
theorem impMeasureEnd (p : Fin 4) : Statement (.impMeasureEnd p) := fun _ => rfl
theorem sageRecordBuild (p : Fin 4) : Statement (.sageRecordBuild p) := fun _ => rfl
theorem sageRecordWrite (p : Fin 4) : Statement (.sageRecordWrite p) := fun _ => rfl
theorem faultOccurrence : Statement .faultOccurrence := fun _ => rfl
theorem mergeWindowClose (s : Fin 256) : Statement (.mergeWindowClose s) := fun _ => rfl
theorem lockstep : Statement .lockstep := fun _ => rfl
theorem clkRoot (cause : Fin 3) : Statement (.clkRoot cause) := fun _ => rfl
theorem thymeBroadcast (b : DieDrift) : Statement (.thymeBroadcast b) := fun _ => rfl
theorem ppsEdge : Statement .ppsEdge := fun _ => rfl
theorem ppsWindowMiss : Statement .ppsWindowMiss := fun _ => rfl
theorem timerFire (t : Fin 32) : Statement (.timerFire t) := fun _ => rfl
theorem regionSample (k : Fin 3) (m : RegionDiff) : Statement (.regionSample k m) := fun _ => rfl
theorem regionFault (k : Fin 3) : Statement (.regionFault k) := fun _ => rfl
theorem linkLost (l : Fin 8) : Statement (.linkLost l) := fun _ => rfl
theorem linkError (l : Fin 8) : Statement (.linkError l) := fun _ => rfl
theorem linkReturn (l : Fin 8) : Statement (.linkReturn l) := fun _ => rfl
theorem flitSlot : Statement .flitSlot := fun _ => rfl
theorem codewordReceive (n : Fin 8) (m : Codeword) : Statement (.codewordReceive n m) := fun h => by cases h
theorem peerCtrl (pay : List Byte) : Statement (.peerCtrl pay) := fun h => by cases h
theorem peerTrain (pay : List Byte) : Statement (.peerTrain pay) := fun h => by cases h
theorem linkUp : Statement .linkUp := fun _ => rfl
theorem trainTimeout : Statement .trainTimeout := fun _ => rfl
theorem streamPeer : Statement .streamPeer := fun _ => rfl
theorem streamLane (n : Fin 16) : Statement (.streamLane n) := fun _ => rfl
theorem blockFlush (t : Fin 4096) (tag : BitVec 12) : Statement (.blockFlush t tag) := fun _ => rfl
theorem decimationChange (v : Fin 16) : Statement (.decimationChange v) := fun _ => rfl
theorem twTimeout (n : Fin 16) : Statement (.twTimeout n) := fun _ => rfl
theorem idleSeen (n : Fin 16) : Statement (.idleSeen n) := fun _ => rfl
theorem sdaFall (l : LineAt) : Statement (.sdaFall l) := fun _ => rfl
theorem attention (n : Fin 16) : Statement (.attention n) := fun _ => rfl
theorem busClear (n : Fin 16) : Statement (.busClear n) := fun _ => rfl
theorem busClearEnd (n : Fin 16) (pulses : Fin 10) (sda : Bool) : Statement (.busClearEnd n pulses sda) := fun _ => rfl
theorem busHeld (n : Fin 16) : Statement (.busHeld n) := fun _ => rfl
theorem alertResponseRead (n : Fin 16) (ans : Option Byte) : Statement (.alertResponseRead n ans) := fun _ => rfl
theorem attentionSignal (n : Fin 16) : Statement (.attentionSignal n) := fun _ => rfl
theorem alertResponse (n : Fin 16) (won : Bool) : Statement (.alertResponse n won) := fun _ => rfl
theorem transferStart (n : Fin 16) : Statement (.transferStart n) := fun _ => rfl
theorem transferEnd (n : Fin 16) (m : BusResult) : Statement (.transferEnd n m) := fun _ => rfl
theorem arbLost (n : Fin 16) (addr : Option (BitVec 7)) : Statement (.arbLost n addr) := fun _ => rfl
theorem targetWrite (n : Fin 16) (addr : BitVec 7) (bs : List Byte) (pec : Option Byte) : Statement (.targetWrite n addr bs pec) := fun _ => rfl
theorem targetRead (n : Fin 16) (addr : BitVec 7) (m : BusRead) : Statement (.targetRead n addr m) := fun _ => rfl
theorem targetStretchTimeout (n : Fin 16) : Statement (.targetStretchTimeout n) := fun _ => rfl
theorem mailboxSubmit (b : BoxSubmit) : Statement (.mailboxSubmit b) := fun _ => rfl
theorem roleChange (n : Fin 16) : Statement (.roleChange n) := fun _ => rfl
theorem page (b : Option Byte) (x : PmbTail) : Statement (.page b x) := fun _ => rfl
theorem clearFaults (x : PmbTail) : Statement (.clearFaults x) := fun _ => rfl
theorem capability (x : PmbTail) : Statement (.capability x) := fun _ => rfl
theorem voutMode (x : PmbTail) : Statement (.voutMode x) := fun _ => rfl
theorem statusByte (x : PmbTail) : Statement (.statusByte x) := fun _ => rfl
theorem statusWord (x : PmbTail) : Statement (.statusWord x) := fun _ => rfl
theorem readVin (x : PmbTail) : Statement (.readVin x) := fun _ => rfl
theorem readIin (x : PmbTail) : Statement (.readIin x) := fun _ => rfl
theorem readVout (x : PmbTail) : Statement (.readVout x) := fun _ => rfl
theorem readIout (x : PmbTail) : Statement (.readIout x) := fun _ => rfl
theorem readTemperature1 (x : PmbTail) : Statement (.readTemperature1 x) := fun _ => rfl
theorem readPout (x : PmbTail) : Statement (.readPout x) := fun _ => rfl
theorem readPin (x : PmbTail) : Statement (.readPin x) := fun _ => rfl
theorem pmbusRevision (x : PmbTail) : Statement (.pmbusRevision x) := fun _ => rfl
theorem insnNop (c : Fin 21) : Statement (.insnNop c) := fun _ => rfl
theorem mov (c : Fin 21) : Statement (.mov c) := fun _ => rfl
theorem wid (c : Fin 21) : Statement (.wid c) := fun _ => rfl
theorem sxt (c : Fin 21) : Statement (.sxt c) := fun _ => rfl
theorem zxt (c : Fin 21) : Statement (.zxt c) := fun _ => rfl
theorem add (c : Fin 21) : Statement (.add c) := fun _ => rfl
theorem sub (c : Fin 21) : Statement (.sub c) := fun _ => rfl
theorem mul (c : Fin 21) : Statement (.mul c) := fun _ => rfl
theorem imul (c : Fin 21) : Statement (.imul c) := fun _ => rfl
theorem mac (c : Fin 21) : Statement (.mac c) := fun _ => rfl
theorem msu (c : Fin 21) : Statement (.msu c) := fun _ => rfl
theorem sat (c : Fin 21) : Statement (.sat c) := fun _ => rfl
theorem abs (c : Fin 21) : Statement (.abs c) := fun _ => rfl
theorem neg (c : Fin 21) : Statement (.neg c) := fun _ => rfl
theorem asl (c : Fin 21) : Statement (.asl c) := fun _ => rfl
theorem asr (c : Fin 21) : Statement (.asr c) := fun _ => rfl
theorem lsr (c : Fin 21) : Statement (.lsr c) := fun _ => rfl
theorem min (c : Fin 21) : Statement (.min c) := fun _ => rfl
theorem max (c : Fin 21) : Statement (.max c) := fun _ => rfl
theorem lim (c : Fin 21) : Statement (.lim c) := fun _ => rfl
theorem cmp (c : Fin 21) : Statement (.cmp c) := fun _ => rfl
theorem tst (c : Fin 21) : Statement (.tst c) := fun _ => rfl
theorem and (c : Fin 21) : Statement (.and c) := fun _ => rfl
theorem or (c : Fin 21) : Statement (.or c) := fun _ => rfl
theorem xor (c : Fin 21) : Statement (.xor c) := fun _ => rfl
theorem not (c : Fin 21) : Statement (.not c) := fun _ => rfl
theorem bset (c : Fin 21) : Statement (.bset c) := fun _ => rfl
theorem bclr (c : Fin 21) : Statement (.bclr c) := fun _ => rfl
theorem btst (c : Fin 21) : Statement (.btst c) := fun _ => rfl
theorem br (c : Fin 21) : Statement (.br c) := fun _ => rfl
theorem bc (c : Fin 21) : Statement (.bc c) := fun _ => rfl
theorem call (c : Fin 21) : Statement (.call c) := fun _ => rfl
theorem ret (c : Fin 21) : Statement (.ret c) := fun _ => rfl
theorem loop (c : Fin 21) : Statement (.loop c) := fun _ => rfl
theorem rte (c : Fin 21) : Statement (.rte c) := fun _ => rfl
theorem wait (c : Fin 21) : Statement (.wait c) := fun _ => rfl
theorem insnFence (c : Fin 21) : Statement (.insnFence c) := fun _ => rfl
theorem swap (c : Fin 21) : Statement (.swap c) := fun _ => rfl
theorem addx (c : Fin 21) : Statement (.addx c) := fun _ => rfl
theorem divs (c : Fin 21) : Statement (.divs c) := fun _ => rfl
theorem waitWake (c : Fin 21) : Statement (.waitWake c) := fun _ => rfl
theorem waitTimeout (c : Fin 21) : Statement (.waitTimeout c) := fun _ => rfl
theorem accessComplete (c : Fin 21) (v : Option (BitVec 64)) : Statement (.accessComplete c v) := fun _ => rfl
theorem hostWindowTimeout (c : Fin 21) : Statement (.hostWindowTimeout c) := fun _ => rfl
theorem watchdogExpire (c : Fin 21) : Statement (.watchdogExpire c) := fun _ => rfl
theorem scrubVisit (r : Fin 6) : Statement (.scrubVisit r) := fun _ => rfl
theorem initDone (bad : List Nat) : Statement (.initDone bad) := fun _ => rfl
theorem bankCopyDone (b : BitVec 12) : Statement (.bankCopyDone b) := fun _ => rfl
theorem refclkReturn (st : Straps) : Statement (.refclkReturn st) := fun _ => rfl
theorem rootPllLock : Statement .rootPllLock := fun _ => rfl
theorem attentionHoldEnd (n : Fin 16) : Statement (.attentionHoldEnd n) := fun _ => rfl
theorem sdaRise (l : LineAt) : Statement (.sdaRise l) := fun _ => rfl

end Sys2Proof.Laws.Shape
end

