-- ==== Sys2Proof/Machine/Pins.lean ====
section
/-! DEFINITION. What the block's pins show: the types and states of the signal groups (18_package_electrical.md R461). The levels of
Pn_PWM and PGn_N stand with the weft (`Dev.pwm`, `Dev.pgReleased`), the gate drives in EntrySt and BranchSt, BOARD_ALERT_N in
ModeSt. -/

namespace Sys2Proof.Machine

/-- How far the main supplies and the reset have come. -/
inductive Power where
  | unpowered
  | inReset
  | released
  deriving DecidableEq, Repr

/-- The main supplies are good from SUPPLIES_GOOD to their failure; the release from reset is the hub's (10_modes_startup.md R274). -/
def Dev.power (d : Dev) : Power :=
  if d.clk.hub then .released
  else if d.md ≠ Md.off ∧ d.clk.released.isSome then .inReset
  else .unpowered

/-- What an output shows. -/
inductive Pin where
  | released
  | low
  | high
  | input
  | squelched
  | idle      -- a transmitter without a frame
  | busy      -- a transmitter with frames
  | bootRom   -- driven by the boot ROM's command
  | vdda      -- VDDA_1V8 through a switch
  | standby   -- the regulator on VSTBY
  deriving DecidableEq, Repr

/-- IPn_OP and IPn_ON (06_load_intent.md R154). -/
def Dev.intentPin (d : Dev) (n : Nat) : Pin :=
  match d.power with
  | .unpowered => .released
  | .inReset => .squelched
  | .released => if d.ipTx n then .busy else .idle

/-- SL_TXn (13_stream_link.md R351). -/
def Dev.streamPin (d : Dev) (n : Nat) : Pin :=
  match d.power with
  | .unpowered => .released
  | .inReset => .squelched
  | .released => if d.squelched n then .squelched else .busy

/-- PE_TX: after release, by the state of the PCIe link. -/
def Dev.hostPin (d : Dev) : Pin :=
  match d.power with
  | .unpowered => .released
  | .inReset => .squelched
  | .released => if d.host.down then .idle else .busy

/-- TWn_SDA by the block's role: held low in an attention (14_two_wire.md R385); `none` where the bits of a transfer decide, of which
the model holds none. -/
def Dev.sdaPin (d : Dev) (n : Nat) : Option Pin :=
  match d.power with
  | .unpowered => some .released
  | .inReset => some .released
  | .released =>
    if d.tws n = Ts.off ∨ d.tws n = Ts.idle ∨ d.tws n = Ts.fenced then some .released
    else if d.tws n = Ts.attention then some .low
    else none

/-- QSPI_SCK, QSPI_CS_N and QSPI_IO0 to QSPI_IO3; the boot ROM drives them while it loads from the flash (R480). -/
structure FlashPins where
  sck : Pin
  csN : Pin
  io : Pin
  deriving DecidableEq, Repr

/-- The pins of the flash. -/
def Dev.flashPins (d : Dev) : FlashPins :=
  match d.power with
  | .unpowered => { sck := .released, csN := .released, io := .released }
  | .inReset => { sck := .low, csN := .high, io := .input }
  | .released =>
    if d.rd BOOT_STATUS.STATE = 1 ∧ ¬ d.on BOOT_STATUS.SRC then { sck := .bootRom, csN := .bootRom, io := .bootRom }
    else { sck := .low, csN := .high, io := .input }

/-- TREF, driven whenever VSTBY stands: from VDDA_1V8 while that is good, else from a regulator on VSTBY (R473). -/
def Dev.trefPin (d : Dev) : Pin :=
  if d.md = Md.off then .released
  else match d.power with
    | .unpowered => .standby
    | _ => .vdda

end Sys2Proof.Machine
end

