-- ==== Sys2Proof/Tests/Slice0.lean ====
section
/-! SUPPORT. For every clause of the statements, a state and operands that meet its premises together; worked examples of the spec; and
an ill-formed command for each check of WellFormed. -/

namespace Sys2Proof.Tests

open Sys2Proof.Machine

set_option Elab.async false
set_option linter.unusedVariables false

/-! ## Small states -/

/-- The block with the hub powered, at tick 1,000,000, some fields written. -/
def devOf (rs : List (Fld × Nat)) : Dev := rs.foldl (fun d x => d.wr x.1 x.2) { clk := { hub := true, now := 1280000 } }
def pay (l : List Nat) : List Byte := (List.range 48).map fun k => BitVec.ofNat 8 (l.getD k 0)

def cfgDev : Dev := devOf [(MODE_STATUS.MODE, 2)]

def coreDev (code data : List Nat) : Dev := let d := (devOf [(CORE_STATUS.STATE 3, Ks.running), (CORE_CFG.ENTRY 3, 0), (CORE_EXC_VEC.VEC 3, 0x200)]).onK 3 fun x => { x with fb := 0x00020000, slots := List.replicate 16 none }
  let d := (d.writeBank 6 0 0x13 (code.map (BitVec.ofNat 8)) 2).1; (d.writeBank 7 0 0x13 (data.map (BitVec.ofNat 8)) 2).1

def noSpec : Spec := ⟨0, 0, 0⟩

def valOf {α : Type} (x : Except Stop (α × Dev)) (a : α) : α := match x with | .ok y => y.1 | .error _ => a

def stOf {α : Type} (x : Except Stop (α × Dev)) (d : Dev) : Dev := match x with | .ok y => y.2 | .error _ => d

def insnOf (d : Dev) (c : Nat) : Insn := valOf (fetchInsn c (d.K c).pc d) ⟨0, [], 0⟩

def noRow : RegRow := ⟨0, 0, 0, 0, 0, 0, 0, 0, .any⟩

def LR (l : List (Fld × Nat)) : Dev := { devOf l with bmc := { page := 3 } }

def LE (l : List (Fld × Nat)) : Dev := { devOf l with bmc := { page := 69 } }

def LRV (l : List (Fld × Nat)) : Dev := { (devOf l).setWord 0x10C400 0x83 with bmc := { page := 3 }, ph := [(0, { rail := some 3 })] }

/-! ## Ill-formed commands -/

theorem test_wf_desc : (Instr.nop ⟨.host 2, false, false, 7, 0, 0, false, []⟩).wf = false := by decide +kernel

theorem test_wf_req : (Instr.modeRequestRun (.desc ⟨.host 2, false, false, 7, 0, 0, false, [1]⟩)).wf = false ∧
    (Instr.modeRequestRun (.reg 0)).wf = true := by decide +kernel

theorem test_wf_codeword : (Instr.codewordReceive 3 { data := List.replicate 641 1 }).wf = false ∧
    (Instr.codewordReceive 3 { data := [1] }).wf = true := by decide +kernel

theorem test_wf_flit : (Instr.peerCtrl [1]).wf = false ∧ (Instr.peerTrain []).wf = false := by decide +kernel

theorem test_wf_read : (Instr.registerReadClear 0 { off := 0xFFE }).wf = false ∧
    (Instr.registerReadClear 0 { off := 0xFFC, enable := [true, true, true, true, true] }).wf = false ∧
    (Instr.registerReadClear 0 { off := 0xFFC }).wf = true := by decide +kernel

theorem test_wf_write : (Instr.registerWrite 0 0xFFE [1, 2, 3, 4] []).wf = false ∧
    (Instr.registerWrite 0 0xFFC [1, 2] [true, true, true]).wf = false ∧
    (Instr.registerWrite 0 0xFFC [1, 2, 3, 4] [true]).wf = true := by decide +kernel

/-! ## Worked examples of the spec -/

/-- The check values of 06_load_intent.md R150 and 08_battery_estimation.md. -/
theorem test_crc_check : crc8 0 ([0x31, 0x32, 0x33, 0x34, 0x35, 0x36, 0x37, 0x38, 0x39] : List Byte) = 0xF4 ∧
    crc32 ([0x31, 0x32, 0x33, 0x34, 0x35, 0x36, 0x37, 0x38, 0x39] : List Byte) = 0xCBF43926 := by decide +kernel

/-- PAGE write and READ_VOUT of rail 3 with PEC (14_two_wire.md, worked example). -/
theorem test_read_vout : crc8 0 ([0xB0, 0x00, 0x03] : List Byte) = 0xE3 ∧ linear16 24000 32000 13 = 0x1800 ∧
    ((LR [(RAIL_VMEAS.VMEAS 3, 24000), (TW_PMB.PMB_ADDR 0, 0x58)]).pmbReply [0x8B] 2 0x1800 3).bmc.resp = [0x00, 0x18, 0xB3] := by
  decide +kernel

/-- The granule under test (16_memory_protection.md, worked example). -/
theorem test_tartan_example : rowChecks 0xF0DEBC9A78563412 = 0x22 ∧ colChecks 0xF0DEBC9A78563412 = 0 ∧
    syndromes (1#80 <<< 43) = (0x20, 0x08) ∧ decodeSyn (0x20, 0x08) = .data 43 ∧
    syndromes ((1#80 <<< 43) ||| (1#80 <<< 46) ||| (1#80 <<< 19)) = (0x04, 0x40) ∧ decodeSyn (0x04, 0x40) = .data 22 ∧
    syndromes ((1#80 <<< 43) ||| (1#80 <<< 46)) = (0x00, 0x48) ∧ decodeSyn (0x00, 0x48) = .bad := by decide +kernel

/-- The encodings of the four-tap filter (15_mograthes_cores.md, worked example). -/
theorem test_fir_mac_bytes : (fetchInsn 3 0 (coreDev [0x1C, 0x24, 0x40, 0x1A, 0x2C, 0x01] [])).toOption.map (fun x => (x.1.op, x.1.specs, x.1.next)) =
    some (0x12, [⟨4, 0, 0⟩, ⟨1, 0xA, 0⟩, ⟨2, 0xC, 1⟩], 6) := by decide +kernel

theorem test_fir_loop_bytes : (fetchInsn 3 0 (coreDev [0x88, 0x68, 0x44, 0x07, 0x06, 0x00] [])).toOption.map (fun x => (x.1.op, x.1.specs, x.1.next)) =
    some (0x34, [⟨4, 4, 0⟩, ⟨0, 7, 6⟩], 6) := by decide +kernel

/-- Its accumulator and its result. -/
theorem test_fir_values : (aluMac 0 0 true 0 2048 9992).val = 40927232 ∧ (aluMac 0 0 true 466911232 16384 30000).val = 1449951232 ∧
    (aluSat 0 2 1449951232).val = 22124 ∧ (aluSat 0 1 1449951232).val = 22125 ∧ (aluSat 0 0 1449951232).val = 22124 ∧
    (aluSat 0 2 1449951232).sat = false := by decide +kernel

/-- Register offsets (17_register_map.md, worked example). -/
theorem test_offsets : (PH_EVT.EVT 300).off = 0x10A59C ∧ (CV_STATUS.CAL_STATUS 549).off = 0x118944 ∧ (ENT_STATUS.STATE 13).off = 0x200D30 := by
  decide +kernel

/-- The confirmation window of 00_scope.md: [9,840, 10,400). -/
theorem test_window : inside 10399 (some 9840) 560 = true ∧ closed 10400 (some 9840) 560 = true ∧ closed 10399 (some 9840) 560 = false := by
  decide +kernel

/-! ## Witnesses -/

/-- What the premises of `IdleStepIsOneTick` ask for can be met. -/
theorem test_IdleStepIsOneTick : (⟨devOf [(MODE_STATUS.MODE, 4)], []⟩ : State).pending = [] ∧ (devOf [(MODE_STATUS.MODE, 4)]).md ≠ Md.off ∧ (devOf []).clk.hub = true ∧ (devOf []).clk.rootLost = false ∧ State.reset.dev.clk.hub = false := by decide +kernel

/-- What the premises of `TicksAdvanceThyme` ask for can be met. -/
theorem test_TicksAdvanceThyme : (devOf [(MODE_STATUS.MODE, 4)]).md ≠ Md.off ∧ (devOf [(MODE_STATUS.MODE, 4)]).clk.hub = true ∧ (devOf [(MODE_STATUS.MODE, 4)]).clk.rootLost = false ∧ (devOf [(MODE_STATUS.MODE, 4)]).clk.now < 2 ^ 64 := by decide +kernel

/-- What the premises of `CanonicalFormIsKept` ask for can be met. -/
theorem test_CanonicalFormIsKept : KV.wf resetWord (devOf [(MODE_STATUS.MODE, 4)]).regs = true ∧ Memory.wf (coreDev [1, 2] [3]).mem.data = true ∧ (coreDev [1, 2] [3]).mem.data ≠ [] := by decide +kernel

/-- What the premises of `EveryCommandCompletes` ask for can be met. -/
theorem test_EveryCommandCompletes : (Instr.heartbeat).wf = true ∧ (Instr.peerCtrl []).wf = false := by decide +kernel

/-- What the premises of `QueueDrains` ask for can be met. -/
theorem test_QueueDrains : ∀ c ∈ [Instr.heartbeat, Instr.linkUp], c.wf = true := by decide +kernel

/-- What the premises of `RegisterAccessCodes` ask for can be met. -/
theorem test_RegisterAccessCodes : (rowFor 0x4000).isSome = true := by decide +kernel

/-- What the premises of `DescriptorScreens` ask for can be met. -/
theorem test_DescriptorScreens_dirty : (devOf []).blocked 0x10 ⟨.host 2, false, false, 7, 1, 3, false, pay []⟩ = false ∧ (((devOf []).begin 0x10 ⟨.host 2, false, false, 7, 1, 3, false, pay []⟩).1).blocked 0x12 ⟨.host 2, false, false, 8, 1, 3, false, pay []⟩ = true ∧ (⟨.host 2, true, false, 7, 0, 0, false, pay []⟩ : Desc).wf = true ∧ (⟨.host 2, false, false, 7, 0, 0, true, pay []⟩ : Desc).dirty = true := by decide +kernel

/-- What the premises of `DescriptorScreens` ask for can be met. -/
theorem test_DescriptorScreens_target : (⟨.host 2, false, false, 7, 1, 64, false, pay []⟩ : Desc).dirty = false ∧ targetOk (some 1) 1 64 = false ∧ targetOk (some 1) 1 63 = true := by decide +kernel

/-- What the premises of `DescriptorScreens` ask for can be met. -/
theorem test_DescriptorScreens_mode : ((devOf [(MODE_STATUS.MODE, 6)]).begin 0x10 ⟨.host 2, false, false, 7, 1, 3, false, pay []⟩).1.md = Md.safe ∧ ((devOf [(MODE_STATUS.MODE, 4)]).begin 0x10 ⟨.host 2, false, false, 7, 1, 3, false, pay []⟩).1.md ≠ Md.safe := by decide +kernel

/-- What the premises of `DescriptorScreens` ask for can be met. -/
theorem test_DescriptorScreens_owner : ((devOf [(MODE_OWN.DOMAINS, 0x55)]).begin 0x10 ⟨.host 2, false, false, 7, 1, 3, false, pay []⟩).1.mayCommand 1 (.host 2 : Src).agent = false ∧ ((devOf []).begin 0x10 ⟨.host 2, false, false, 7, 1, 3, false, pay []⟩).1.mayCommand 1 (.host 2 : Src).agent = true := by decide +kernel

/-- What the premises of `DescriptorScreens` ask for can be met. -/
theorem test_DescriptorScreens_link : (({ devOf [] with link := { lost := 255 } } : Dev).begin 0x10 ⟨.host 2, false, false, 7, 1, 3, false, pay []⟩).1.targetOut 1 3 = true := by decide +kernel

/-- What the premises of `RoundingModes` ask for can be met. -/
theorem test_RoundingModes : roundQuot 0 (-5) 2 = -3 ∧ roundQuot 1 (-5) 2 = -3 ∧ roundQuot 2 (-5) 2 = -2 ∧ roundQuot 3 (-5) 2 = -2 ∧ roundQuot 1 5 2 = 3 ∧ roundQuot 2 7 2 = 4 ∧ (0 : Nat) < 2 := by decide +kernel

/-- What the premises of `OverflowAndSaturation` ask for can be met. -/
theorem test_OverflowAndSaturation : fitsTy 0 40000 = false ∧ (Alu.narrow 0 true 40000).val = 32767 ∧ (Alu.narrow 0 false 40000).val = -25536 ∧ fitsTy 2 (2 ^ 39 - 1) = true ∧ fitsTy 2 (2 ^ 39) = false ∧ sv 0 3 ≤ sv 0 5 := by decide +kernel

/-- What the premises of `BranchConditions` ask for can be met. -/
theorem test_BranchConditions : (fetchBytes 3 0 0 2 (coreDev [0x88, 0x62, 0xE4, 0x44] [])).toOption.map (·.1) = some 0x6288 ∧ bits 0x6288 15 9 = 0x31 ∧ bits 0x6288 8 7 = 1 ∧ bits 0x6288 3 2 = 2 := by decide +kernel

/-- What the premises of `BranchConditions` ask for can be met. -/
theorem test_BranchConditions_cmp : sv 0 0xFFFF < sv 0 1 ∧ (0xFFFF : Nat) < 2 ^ tyBits 0 ∧ codeHolds 0x3 ((aluCmp 0 0xFFFF 1).flags 0) = true ∧ codeHolds 0x5 ((aluCmp 0 0xFFFF 1).flags 0) = false := by decide +kernel

/-- What the premises of `TartanCorrection` ask for can be met. -/
theorem test_TartanCorrection : bankPartner 0x50 = none ∧ bankTables 0x50 = [] ∧ (devOf []).bankOff 0x50 = false ∧ Dev.granErr { devOf [] with mem := { err := [(granKey 0x50 3, 1#80 <<< 79)] } } 0x50 3 = 1#80 <<< 79 := by decide +kernel

/-- What the premises of `TartanCorrection` ask for can be met. -/
theorem test_TartanCorrection_pair : ¬ ((3 : Nat) < 64 ∧ ((4 : Nat) = 64 + 3 / 8 ∨ (4 : Nat) = 72 + 3 % 8)) ∧ ¬ ((64 : Nat) ≤ 3 ∧ (3 : Nat) < 72 ∧ (72 : Nat) ≤ 4) ∧ Dev.granErr { devOf [] with mem := { err := [(granKey 0x50 3, 24)] } } 0x50 3 = (1#80 <<< 3) ||| (1#80 <<< 4) := by decide +kernel

/-- What the premises of `BankReadAfterWrite` ask for can be met. -/
theorem test_BankReadAfterWrite : bankPartner 0x50 = none ∧ bankTables 0x50 = [] ∧ (devOf []).bankOff 0x50 = false ∧ 8 * 3 + 7 < 0x100000 ∧ (devOf []).granErr 0x50 3 = 0 ∧ (0x51, 3) ≠ (0x50, 3) := by decide +kernel

/-- A state and operands that meet the premises of each clause of `EntryTrips`. -/
theorem test_EntryTrips :
    (let d : Dev := devOf [(ENT_STATUS.STATE 3, 3)]; let n := (3 : Fin 16); d.entDrives n = true) ∧
    (let d : Dev := (devOf [(ENT_STATUS.STATE 3, 3)]).onE 3 fun x => { x with oc := some 5 }; let n := (3 : Fin 16); 3 ∈ d.entDue n) ∧
    (let d : Dev := (devOf [(ENT_STATUS.STATE 3, 2), (ENT_TMAX.INRUSH_TMAX 3, 1)]).onE 3 fun x => { x with inrush := some 5 }; let n := (3 : Fin 16); 4 ∈ d.entDue n) ∧
    (let d : Dev := (devOf [(ENT_STATUS.STATE 3, 3)]).onE 3 fun x => { x with ovN := 2 }; let n := (3 : Fin 16); 5 ∈ d.entDue n) ∧
    (let d : Dev := (devOf [(ENT_STATUS.STATE 3, 3), (ENT_CFG.ROLE 3, 2)]).onE 3 fun x => { x with cut := some 5 }; let n := (3 : Fin 16); 6 ∈ d.entDue n) ∧
    (let d : Dev := devOf [(ENT_STATUS.STATE 3, 3), (POL0.TRIP_EN 0, 8)]; let n := (3 : Fin 16); (d.es n = Ec.inrush ∨ d.es n = Ec.on) ∧ d.keep.on = false ∧ d.groupOf n = none ∧ d.mem.err = [] ∧ (d.E n).tripAt ≠ some d.now ∧ (∀ k, (d.RT n).clear = some k → d.now < k)) ∧
    (let d : Dev := (devOf [(ENT_STATUS.STATE 3, 3), (POL0.TRIP_EN 0, 8)]).onE 3 fun x => { x with oc := some 5 }; let n := (3 : Fin 16); (d.es n = Ec.inrush ∨ d.es n = Ec.on) ∧ d.keep.on = false ∧ d.groupOf n = none ∧ d.mem.err = [] ∧ (d.E n).tripAt ≠ some d.now ∧ (∀ k, (d.RT n).clear = some k → d.now < k) ∧ (d.E n).soaAt ≠ some d.now ∧ closed d.now (d.E n).oc (d.rd (ENT_OC_TIME.OC_TIME n)) = true ∧ d.rdBit (POL0.TRIP_EN (d.unitPol n)) 3 = true) ∧
    (let d : Dev := (devOf [(ENT_STATUS.STATE 3, 2), (ENT_TMAX.INRUSH_TMAX 3, 1), (POL0.TRIP_EN 0, 16)]).onE 3 fun x => { x with inrush := some 5 }; let n := (3 : Fin 16); d.es n = Ec.inrush ∧ d.keep.on = false ∧ d.groupOf n = none ∧ d.mem.err = [] ∧ (d.E n).tripAt ≠ some d.now ∧ (∀ k, (d.RT n).clear = some k → d.now < k) ∧ (d.E n).soaAt ≠ some d.now ∧ closed d.now (d.E n).oc (d.rd (ENT_OC_TIME.OC_TIME n)) = false ∧ closed d.now (d.E n).inrush (d.rd (ENT_TMAX.INRUSH_TMAX n)) = true ∧ d.rdBit (POL0.TRIP_EN (d.unitPol n)) 4 = true) ∧
    (let d : Dev := (devOf [(ENT_STATUS.STATE 3, 3), (POL0.TRIP_EN 0, 32)]).onE 3 fun x => { x with ovN := 2 }; let n := (3 : Fin 16); d.es n = Ec.on ∧ d.keep.on = false ∧ d.groupOf n = none ∧ d.mem.err = [] ∧ (d.E n).tripAt ≠ some d.now ∧ (∀ k, (d.RT n).clear = some k → d.now < k) ∧ (d.E n).soaAt ≠ some d.now ∧ closed d.now (d.E n).oc (d.rd (ENT_OC_TIME.OC_TIME n)) = false ∧ 2 ≤ (d.E n).ovN ∧ d.rdBit (POL0.TRIP_EN (d.unitPol n)) 5 = true) ∧
    (let d : Dev := (devOf [(ENT_STATUS.STATE 3, 3), (ENT_CFG.ROLE 3, 2)]).onE 3 fun x => { x with cut := some 5 }; let n := (3 : Fin 16); (d.es n = Ec.on ∨ d.es n = Ec.armed) ∧ d.keep.on = false ∧ d.groupOf n = none ∧ d.mem.err = [] ∧ (d.E n).tripAt ≠ some d.now ∧ (∀ k, (d.RT n).clear = some k → d.now < k) ∧ d.battery n = true ∧ d.md ≠ Md.holdup ∧ (d.E n).soaAt ≠ some d.now ∧ closed d.now (d.E n).oc (d.rd (ENT_OC_TIME.OC_TIME n)) = false ∧ (d.E n).ovN < 2 ∧ closed d.now (d.E n).cut (d.rd (ENT_CUT_TIME.CUTOFF_T n)) = true) := by
  refine ⟨?_, ?_, ?_, ?_, ?_, ?_, ?_, ?_, ?_, ?_⟩ <;> decide +kernel

/-- A state and operands that meet the premises of each clause of `EntryProgress`. -/
theorem test_EntryProgress :
    (let d : Dev := (devOf [(ENT_STATUS.STATE 3, 1), (MODE_STATUS.MODE, 4)]).onE 3 fun x => { x with qual := some 5 }; let n := (3 : Fin 16); d.es n = Ec.check ∧ closed d.now (d.E n).qual d.qualLen = true ∧ d.keep.on = false ∧ d.entMay = true ∧ d.groupOf n = none) ∧
    (let d : Dev := (devOf [(ENT_STATUS.STATE 3, 2), (MODE_STATUS.MODE, 4)]).onE 3 fun x => { x with doneW := some 5 }; let n := (3 : Fin 16); d.es n = Ec.inrush ∧ closed d.now (d.E n).doneW (d.rd (ENT_DONE.DONE_TIME n)) = true ∧ d.keep.on = false ∧ d.entMay = true ∧ d.entDue n = [] ∧ d.groupOf n = none) ∧
    (let d : Dev := (devOf []).onE 3 fun x => { x with gate := .enhancing }; let n := (3 : Fin 16); (d.E n).gate = .enhancing) ∧
    (let d : Dev := (devOf [(ENT_STATUS.STATE 3, 3)]).onE 3 fun x => { x with rev := some 5 }; let n := (3 : Fin 16); d.es n = Ec.on ∧ closed d.now (d.E n).rev (d.rd (ENT_REV.REV_FILT n)) = true ∧ d.keep.on = false ∧ d.entDue n = []) ∧
    (let d : Dev := (devOf [(ENT_STATUS.STATE 3, 4)]).onE 3 fun x => { x with blkN := 16 }; let n := (3 : Fin 16); d.es n = Ec.blocking ∧ 16 ≤ (d.E n).blkN) ∧
    (let d : Dev := (devOf [(ENT_CFG.ROLE 3, 2), (MODE_STATUS.MODE, 4), (SG_STATUS.PRESENT 0, 1)]).onE 3 fun x => { x with vin := 65535 }; let n := (3 : Fin 16); d.es n = Ec.off ∧ d.battery n = true ∧ d.active = true ∧ d.on (SG_STATUS.PRESENT (d.rd (ENT_CFG.PACK n))) = true ∧ d.rd (ENT_BATT.V_CUTOFF n) ≤ (d.E n).vin ∧ (d.E n).hold = false ∧ d.keep.on = false) ∧
    (let d : Dev := (devOf [(ENT_STATUS.STATE 3, 3)]).onE 3 fun x => { x with share := some 5 }; let n := (3 : Fin 16); d.es n = Ec.on ∧ closed d.now (d.E n).share 80000 = true ∧ d.keep.on = false) := by
  refine ⟨?_, ?_, ?_, ?_, ?_, ?_, ?_⟩ <;> decide +kernel

/-- A state and operands that meet the premises of each clause of `BranchTrips`. -/
theorem test_BranchTrips :
    (let d : Dev := devOf [(BR_STATUS.STATE 9, 3)]; let n := (9 : Fin 64); (d.bs n = Ec.inrush ∨ d.bs n = Ec.on) ∧ d.keep.on = false) ∧
    (let d : Dev := (devOf [(BR_STATUS.STATE 9, 3), (BR_SS_TIME.SS_TMAX 9, 5)]).onB 9 fun x => { x with oc := some 5 }; let n := (9 : Fin 64); 3 ∈ d.brDue n) ∧
    (let d : Dev := (devOf [(BR_STATUS.STATE 9, 2), (BR_SS_TIME.SS_TMAX 9, 5)]).onB 9 fun x => { x with ss := some 5 }; let n := (9 : Fin 64); 4 ∈ d.brDue n) ∧
    (let d : Dev := (devOf [(BR_STATUS.STATE 9, 3), (BR_SS_TIME.SS_TMAX 9, 5)]).onB 9 fun x => { x with ovN := 2 }; let n := (9 : Fin 64); 5 ∈ d.brDue n) ∧
    (let d : Dev := (devOf [(BR_STATUS.STATE 9, 3), (BR_SS_TIME.SS_TMAX 9, 5)]).onB 9 fun x => { x with rev := some 5 }; let n := (9 : Fin 64); 6 ∈ d.brDue n) ∧
    (let d : Dev := (devOf [(BR_STATUS.STATE 9, 3), (BR_SS_TIME.SS_TMAX 9, 5)]).onB 9 fun x => { x with pwr := some 5 }; let n := (9 : Fin 64); 7 ∈ d.brDue n) ∧
    (let d : Dev := devOf [(BR_STATUS.STATE 9, 3), (BR_SS_TIME.SS_TMAX 9, 5), (POL0.TRIP_EN 0, 2)]; let n := (9 : Fin 64); (d.bs n = Ec.inrush ∨ d.bs n = Ec.on) ∧ d.keep.on = false ∧ d.mem.err = [] ∧ (d.B n).tripAt ≠ some d.now ∧ (∀ k, (d.RT (16 + n)).clear = some k → d.now < k)) ∧
    (let d : Dev := (devOf [(BR_STATUS.STATE 9, 3), (BR_SS_TIME.SS_TMAX 9, 5), (POL0.TRIP_EN 0, 8)]).onB 9 fun x => { x with oc := some 5 }; let n := (9 : Fin 64); (d.bs n = Ec.inrush ∨ d.bs n = Ec.on) ∧ d.keep.on = false ∧ d.mem.err = [] ∧ (d.B n).tripAt ≠ some d.now ∧ (∀ k, (d.RT (16 + n)).clear = some k → d.now < k) ∧ (d.B n).soaAt ≠ some d.now ∧ closed d.now (d.B n).oc (d.rd (BR_OC_TIME.OC_TIME n)) = true ∧ d.rdBit (POL0.TRIP_EN (d.unitPol (16 + n))) 3 = true) ∧
    (let d : Dev := (devOf [(BR_STATUS.STATE 9, 2), (BR_SS_TIME.SS_TMAX 9, 5), (POL0.TRIP_EN 0, 16)]).onB 9 fun x => { x with ss := some 5 }; let n := (9 : Fin 64); d.bs n = Ec.inrush ∧ d.keep.on = false ∧ d.mem.err = [] ∧ (d.B n).tripAt ≠ some d.now ∧ (∀ k, (d.RT (16 + n)).clear = some k → d.now < k) ∧ (d.B n).soaAt ≠ some d.now ∧ closed d.now (d.B n).oc (d.rd (BR_OC_TIME.OC_TIME n)) = false ∧ closed d.now (d.B n).ss (d.rd (BR_SS_TIME.SS_TMAX n)) = true ∧ d.rdBit (POL0.TRIP_EN (d.unitPol (16 + n))) 4 = true) ∧
    (let d : Dev := (devOf [(BR_STATUS.STATE 9, 3), (BR_SS_TIME.SS_TMAX 9, 5), (POL0.TRIP_EN 0, 32)]).onB 9 fun x => { x with ovN := 2 }; let n := (9 : Fin 64); d.bs n = Ec.on ∧ d.keep.on = false ∧ d.mem.err = [] ∧ (d.B n).tripAt ≠ some d.now ∧ (∀ k, (d.RT (16 + n)).clear = some k → d.now < k) ∧ (d.B n).soaAt ≠ some d.now ∧ closed d.now (d.B n).oc (d.rd (BR_OC_TIME.OC_TIME n)) = false ∧ 2 ≤ (d.B n).ovN ∧ d.rdBit (POL0.TRIP_EN (d.unitPol (16 + n))) 5 = true) ∧
    (let d : Dev := (devOf [(BR_STATUS.STATE 9, 3), (BR_SS_TIME.SS_TMAX 9, 5), (POL0.TRIP_EN 0, 64)]).onB 9 fun x => { x with rev := some 5 }; let n := (9 : Fin 64); d.bs n = Ec.on ∧ d.keep.on = false ∧ d.mem.err = [] ∧ (d.B n).tripAt ≠ some d.now ∧ (∀ k, (d.RT (16 + n)).clear = some k → d.now < k) ∧ (d.B n).soaAt ≠ some d.now ∧ closed d.now (d.B n).oc (d.rd (BR_OC_TIME.OC_TIME n)) = false ∧ (d.B n).ovN < 2 ∧ closed d.now (d.B n).rev (d.rd (BR_REV.REV_FILT n)) = true ∧ d.rdBit (POL0.TRIP_EN (d.unitPol (16 + n))) 6 = true) ∧
    (let d : Dev := (devOf [(BR_STATUS.STATE 9, 3), (BR_SS_TIME.SS_TMAX 9, 5), (POL0.TRIP_EN 0, 128)]).onB 9 fun x => { x with pwr := some 5 }; let n := (9 : Fin 64); d.bs n = Ec.on ∧ d.keep.on = false ∧ d.mem.err = [] ∧ (d.B n).tripAt ≠ some d.now ∧ (∀ k, (d.RT (16 + n)).clear = some k → d.now < k) ∧ (d.B n).soaAt ≠ some d.now ∧ closed d.now (d.B n).oc (d.rd (BR_OC_TIME.OC_TIME n)) = false ∧ (d.B n).ovN < 2 ∧ closed d.now (d.B n).rev (d.rd (BR_REV.REV_FILT n)) = false ∧ closed d.now (d.B n).pwr (d.rd (BR_OC_TIME.OC_TIME n)) = true ∧ d.rdBit (POL0.TRIP_EN (d.unitPol (16 + n))) 7 = true) := by
  refine ⟨?_, ?_, ?_, ?_, ?_, ?_, ?_, ?_, ?_, ?_, ?_, ?_⟩ <;> decide +kernel

/-- A state and operands that meet the premises of each clause of `BranchProgress`. -/
theorem test_BranchProgress :
    (let d : Dev := (devOf [(BR_STATUS.STATE 9, 1), (MODE_STATUS.MODE, 4)]).onB 9 fun x => { x with qualN := 16 }; let n := (9 : Fin 64); d.bs n = Ec.check ∧ 16 ≤ (d.B n).qualN ∧ d.keep.on = false ∧ d.brMay = true) ∧
    (let d : Dev := (devOf [(BR_STATUS.STATE 9, 2), (MODE_STATUS.MODE, 4)]).onB 9 fun x => { x with doneW := some 5 }; let n := (9 : Fin 64); d.bs n = Ec.inrush ∧ closed d.now (d.B n).doneW (d.rd (BR_DONE.DONE_TIME n)) = true ∧ d.keep.on = false ∧ d.brMay = true ∧ d.brDue n = []) ∧
    (let d : Dev := (devOf [(BR_STATUS.STATE 9, 2), (MODE_STATUS.MODE, 4)]).onB 9 fun x => { x with doneW := some 5 }; let n := (9 : Fin 64); d.bs n = Ec.inrush ∧ closed d.now (d.B n).doneW (d.rd (BR_DONE.DONE_TIME n)) = true ∧ d.keep.on = false ∧ d.brMay = true ∧ d.brDue n = []) ∧
    (let d : Dev := devOf []; let n := (8 : Fin 64); let i := (7 : BitVec 12); d.lowPower = false ∧ d.onGrid (624 + n / 8) = true ∧ d.reservedNow (n / 8) = some (n % 8)) ∧
    (let d : Dev := devOf []; let n := (8 : Fin 64); let i := (7 : BitVec 12); d.lowPower = false ∧ d.onGrid (624 + n / 8) = true ∧ (d.calTurn (624 + n / 8)).sliceOut (624 + n / 8) (d.slotNow % 4) = false ∧ (d.calTurn (624 + n / 8)).reservedNow (n / 8) = some (n % 8) ∧ (d.calTurn (624 + n / 8)).bs n = Ec.off ∧ (d.B n).downs = []) ∧
    (let d : Dev := { devOf [(BR_STATUS.STATE 8, 1), (BR_VLIM.OV 8, 4000)] with clk := { hub := true, now := 1280000 + 40 * 8 } }; let n := (8 : Fin 64); let i := (7 : BitVec 12); let v := (100 : BitVec 12); d.lowPower = false ∧ d.onGrid (624 + n / 8) = true ∧ (d.calTurn (624 + n / 8)).sliceOut (624 + n / 8) (d.slotNow % 4) = false ∧ (d.calTurn (624 + n / 8)).reservedNow (n / 8) = some (8 + n % 8) ∧ d.bs n = Ec.check) ∧
    (let d : Dev := { devOf [] with clk := { hub := true, now := 1280000 + 40 * 24 } }; let n := (8 : Fin 64); let i := (7 : BitVec 12); let v := (100 : BitVec 12); d.lowPower = false ∧ d.onGrid (624 + n / 8) = true ∧ (d.calTurn (624 + n / 8)).sliceOut (624 + n / 8) (d.slotNow % 4) = false ∧ (d.calTurn (624 + n / 8)).reservedNow (n / 8) = some (24 + n % 8)) ∧
    (let d : Dev := (devOf []).onB 9 fun x => { x with downs := [{ tb := 5 }] }; let n := (9 : Fin 64); let x := ({ tb := 5 } : DownSt); (d.B n).downs = [x] ∧ d.downDice x ≠ [] ∧ d.keep.on = false ∧ d.linkUp 7 = true ∧ d.mem.err = [] ∧ d.bmap n = [] ∧ d.brPhases n = []) ∧
    (let d : Dev := (devOf [(BMAP.VALID 9 2, 1), (BMAP.ACTION 9 2, 1)]).onB 9 fun x => { x with downs := [{ tb := 5, msg := 1 }] }; let n := (9 : Fin 64); let e := (2 : Fin 16); let x := ({ tb := 5, msg := 1 } : DownSt); (d.B n).downs = [x] ∧ d.keep.on = false ∧ d.mem.err = [] ∧ d.pairGone 0x90 = false ∧ d.on (BMAP.VALID n e) = true ∧ d.rd (BMAP.ACTION n e) = 1 ∧ x.msg.testBit (d.rd (BMAP.RAIL n e) / 16) = true ∧ x.dep.testBit e = false ∧ x.tb + 8 * d.rd (BMAP.DELAY n e) ≤ d.now) ∧
    (let d : Dev := (devOf [(BMAP.VALID 9 2, 1), (BMAP.ACTION 9 2, 1), (RAIL_STATUS.STATE 0, 2), (RAIL_STATUS.PG 0, 1)]).onB 9 fun x => { x with downs := [{ tb := 5, msg := 1 }] }; let n := (9 : Fin 64); let e := (2 : Fin 16); let x := ({ tb := 5, msg := 1 } : DownSt); let r := 0; (d.B n).downs = [x] ∧ d.keep.on = false ∧ d.mem.err = [] ∧ d.pairGone 0x90 = false ∧ d.on (BMAP.VALID n e) = true ∧ d.rd (BMAP.ACTION n e) = 1 ∧ r = d.rd (BMAP.RAIL n e) ∧ x.msg.testBit (r / 16) = true ∧ x.dep.testBit e = false ∧ x.tb + 8 * d.rd (BMAP.DELAY n e) ≤ d.now ∧ d.rLive r = true ∧ (d.R r).samp = []) := by
  refine ⟨?_, ?_, ?_, ?_, ?_, ?_, ?_, ?_, ?_, ?_⟩ <;> decide +kernel

/-- A state and operands that meet the premises of each clause of `RetryTimers`. -/
theorem test_RetryTimers :
    (let d : Dev := ((devOf [(RETRY_STAT.RSTATE 3, 1)]).onRT 3 fun x => { x with delay := some 5, pol := [0, 0, 0, 0, 0xFFFFFFFF, 0] }); let u := (3 : Fin 592); d.delayDue u = true ∧ d.retryCool u = false) ∧
    (let d : Dev := ((devOf [(RETRY_STAT.RSTATE 3, 1)]).onRT 3 fun x => { x with delay := some 5 }); let u := (3 : Fin 592); d.delayDue u = true ∧ d.retryCool u = true) ∧
    (let d : Dev := ((devOf [(RETRY_STAT.RSTATE 3, 2)]).onRT 3 fun x => { x with cool := some 5 }); let u := (3 : Fin 592); d.coolOver u = true) ∧
    (let d : Dev := ((devOf [(RETRY_STAT.RSTATE 3, 2)]).onRT 3 fun x => { x with cool := some 5 }); let u := (3 : Fin 592); 0 ≤ u.val ∧ u.val < 16 ∧ d.coolOver u = true ∧ d.mem.err = [] ∧ d.bankOff 0x81 = false) ∧
    (let d : Dev := ((devOf [(RETRY_STAT.RSTATE 19, 2)]).onRT 19 fun x => { x with cool := some 5 }); let u := (19 : Fin 592); 16 ≤ u.val ∧ u.val < 80 ∧ d.coolOver u = true ∧ d.mem.err = [] ∧ d.bankOff 0x81 = false) ∧
    (let d : Dev := ((devOf [(RETRY_STAT.RSTATE 90, 2)]).onRT 90 fun x => { x with cool := some 5 }); let u := (90 : Fin 592); 80 ≤ u.val ∧ u.val < 592 ∧ d.coolOver u = true ∧ d.mem.err = [] ∧ d.bankOff 0x81 = false) ∧
    (let d : Dev := ((devOf [(RETRY_STAT.RETRY_CNT 3, 2)]).onRT 3 fun x => { x with clear := some 5 }); let u := (3 : Fin 592); let k := 5; (d.RT u).clear = some k ∧ k ≤ d.now) := by
  refine ⟨?_, ?_, ?_, ?_, ?_, ?_, ?_⟩ <;> decide +kernel

/-- A state and operands that meet the premises of each clause of `PhaseTrips`. -/
theorem test_PhaseTrips :
    (let d : Dev := (devOf [(PH_STATE.STATE 7, Ps.active)]).onP 7 fun x => { x with rail := some 0 }; let p := (7 : Fin 512); d.phLive p = true) ∧
    (let d : Dev := (devOf [(PH_STATE.STATE 7, Ps.active)]).onP 7 fun x => { x with rail := some 0 }; let p := (7 : Fin 512); d.phLive p = true) ∧
    (let d : Dev := (devOf [(PH_STATE.STATE 7, Ps.active), (PH_OC_TIME.VAL 0, 1), (SHARE_TIME.VAL 0, 1)]).onP 7 fun x => { x with rail := some 0, oc := some 5 }; let p := (7 : Fin 512); 3 ∈ d.phDue p) ∧
    (let d : Dev := (devOf [(PH_STATE.STATE 7, Ps.active), (PH_OC_TIME.VAL 0, 1), (SHARE_TIME.VAL 0, 1)]).onP 7 fun x => { x with rail := some 0, neg := some 5 }; let p := (7 : Fin 512); 4 ∈ d.phDue p) ∧
    (let d : Dev := (devOf [(PH_STATE.STATE 7, Ps.active), (PH_OC_TIME.VAL 0, 1), (SHARE_TIME.VAL 0, 1)]).onP 7 fun x => { x with rail := some 0, hotN := 16 }; let p := (7 : Fin 512); 5 ∈ d.phDue p) ∧
    (let d : Dev := (devOf [(PH_STATE.STATE 7, Ps.active), (PH_OC_TIME.VAL 0, 1), (SHARE_TIME.VAL 0, 1)]).onP 7 fun x => { x with rail := some 0, satN := 16 }; let p := (7 : Fin 512); 6 ∈ d.phDue p) ∧
    (let d : Dev := (devOf [(PH_STATE.STATE 7, Ps.active), (PH_OC_TIME.VAL 0, 1), (SHARE_TIME.VAL 0, 1)]).onP 7 fun x => { x with rail := some 0, share := some 5 }; let p := (7 : Fin 512); 7 ∈ d.phDue p) ∧
    (let d : Dev := (devOf [(PH_STATE.STATE 7, Ps.active), (PH_OC_TIME.VAL 0, 1), (SHARE_TIME.VAL 0, 1), (POL0.TRIP_EN 0, 2)]).onP 7 fun x => { x with rail := some 0 }; let p := (7 : Fin 512); let r := 0; (d.ps p = Ps.idle ∨ d.ps p = Ps.active) ∧ (d.P p).rail = some r ∧ d.mem.err = [] ∧ (d.P p).tripAt ≠ some d.now ∧ (∀ k, (d.RT (80 + p)).clear = some k → d.now < k)) ∧
    (let d : Dev := (devOf [(PH_STATE.STATE 7, Ps.active), (PH_OC_TIME.VAL 0, 1), (SHARE_TIME.VAL 0, 1), (POL0.TRIP_EN 0, 4)]).onP 7 fun x => { x with rail := some 0 }; let p := (7 : Fin 512); let r := 0; (d.ps p = Ps.idle ∨ d.ps p = Ps.active) ∧ (d.P p).rail = some r ∧ d.mem.err = [] ∧ (d.P p).tripAt ≠ some d.now ∧ (∀ k, (d.RT (80 + p)).clear = some k → d.now < k)) ∧
    (let d : Dev := (devOf [(PH_STATE.STATE 7, Ps.active), (PH_OC_TIME.VAL 0, 1), (SHARE_TIME.VAL 0, 1), (POL0.TRIP_EN 0, 8)]).onP 7 fun x => { x with rail := some 0, oc := some 5 }; let p := (7 : Fin 512); let r := 0; (d.ps p = Ps.idle ∨ d.ps p = Ps.active) ∧ (d.P p).rail = some r ∧ d.mem.err = [] ∧ (d.P p).tripAt ≠ some d.now ∧ (∀ k, (d.RT (80 + p)).clear = some k → d.now < k) ∧ closed d.now (d.P p).oc (d.rd (PH_OC_TIME.VAL r)) = true ∧ d.rdBit (POL0.TRIP_EN (d.unitPol (80 + p))) 3 = true) ∧
    (let d : Dev := (devOf [(PH_STATE.STATE 7, Ps.active), (PH_OC_TIME.VAL 0, 1), (SHARE_TIME.VAL 0, 1), (POL0.TRIP_EN 0, 16)]).onP 7 fun x => { x with rail := some 0, neg := some 5 }; let p := (7 : Fin 512); let r := 0; (d.ps p = Ps.idle ∨ d.ps p = Ps.active) ∧ (d.P p).rail = some r ∧ d.mem.err = [] ∧ (d.P p).tripAt ≠ some d.now ∧ (∀ k, (d.RT (80 + p)).clear = some k → d.now < k) ∧ closed d.now (d.P p).oc (d.rd (PH_OC_TIME.VAL r)) = false ∧ closed d.now (d.P p).neg (d.rd (PH_OC_TIME.VAL r)) = true ∧ d.rdBit (POL0.TRIP_EN (d.unitPol (80 + p))) 4 = true) ∧
    (let d : Dev := (devOf [(PH_STATE.STATE 7, Ps.active), (PH_OC_TIME.VAL 0, 1), (SHARE_TIME.VAL 0, 1), (POL0.TRIP_EN 0, 32)]).onP 7 fun x => { x with rail := some 0, hotN := 16 }; let p := (7 : Fin 512); let r := 0; (d.ps p = Ps.idle ∨ d.ps p = Ps.active) ∧ (d.P p).rail = some r ∧ d.mem.err = [] ∧ (d.P p).tripAt ≠ some d.now ∧ (∀ k, (d.RT (80 + p)).clear = some k → d.now < k) ∧ closed d.now (d.P p).oc (d.rd (PH_OC_TIME.VAL r)) = false ∧ closed d.now (d.P p).neg (d.rd (PH_OC_TIME.VAL r)) = false ∧ 16 ≤ (d.P p).hotN ∧ d.rdBit (POL0.TRIP_EN (d.unitPol (80 + p))) 5 = true) ∧
    (let d : Dev := (devOf [(PH_STATE.STATE 7, Ps.active), (PH_OC_TIME.VAL 0, 1), (SHARE_TIME.VAL 0, 1), (POL0.TRIP_EN 0, 64)]).onP 7 fun x => { x with rail := some 0, satN := 16 }; let p := (7 : Fin 512); let r := 0; (d.ps p = Ps.idle ∨ d.ps p = Ps.active) ∧ (d.P p).rail = some r ∧ d.mem.err = [] ∧ (d.P p).tripAt ≠ some d.now ∧ (∀ k, (d.RT (80 + p)).clear = some k → d.now < k) ∧ closed d.now (d.P p).oc (d.rd (PH_OC_TIME.VAL r)) = false ∧ closed d.now (d.P p).neg (d.rd (PH_OC_TIME.VAL r)) = false ∧ (d.P p).hotN < 16 ∧ 16 ≤ (d.P p).satN ∧ d.rdBit (POL0.TRIP_EN (d.unitPol (80 + p))) 6 = true) ∧
    (let d : Dev := (devOf [(PH_STATE.STATE 7, Ps.active), (PH_OC_TIME.VAL 0, 1), (SHARE_TIME.VAL 0, 1), (POL0.TRIP_EN 0, 128)]).onP 7 fun x => { x with rail := some 0, share := some 5 }; let p := (7 : Fin 512); let r := 0; (d.ps p = Ps.idle ∨ d.ps p = Ps.active) ∧ (d.P p).rail = some r ∧ d.mem.err = [] ∧ (d.P p).tripAt ≠ some d.now ∧ (∀ k, (d.RT (80 + p)).clear = some k → d.now < k) ∧ closed d.now (d.P p).oc (d.rd (PH_OC_TIME.VAL r)) = false ∧ closed d.now (d.P p).neg (d.rd (PH_OC_TIME.VAL r)) = false ∧ (d.P p).hotN < 16 ∧ (d.P p).satN < 16 ∧ closed d.now (d.P p).share (d.rd (SHARE_TIME.VAL r)) = true ∧ d.rdBit (POL0.TRIP_EN (d.unitPol (80 + p))) 7 = true) := by
  refine ⟨?_, ?_, ?_, ?_, ?_, ?_, ?_, ?_, ?_, ?_, ?_, ?_, ?_, ?_⟩ <;> decide +kernel

/-- A state and operands that meet the premises of each clause of `PhaseSamples`. -/
theorem test_PhaseSamples :
    (let d : Dev := (devOf [(PH_STATE.STATE 7, Ps.active)]).onP 7 fun x => { x with rail := some 0 }; let p := (7 : Fin 512); let uv := (5 : BitVec 24); let r := 0; (d.P p).rail = some r ∧ d.phLive p = true ∧ d.now % 80 = 0) ∧
    (let d : Dev := (devOf [(PH_STATE.STATE 7, 6)]).onP 7 fun x => { x with rail := some 0 }; let p := (7 : Fin 512); let uv := (5 : BitVec 24); let r := 0; (d.P p).rail = some r ∧ (d.ps p = Ps.latched ∨ d.ps p = Ps.fenced) ∧ d.now % 80 = 0) ∧
    (let d : Dev := (devOf []); let p := (7 : Fin 512); d.onGrid p = true ∧ (d.P p).leave = none ∧ (d.P p).rail = none) ∧
    (let d : Dev := (devOf []).onP 7 fun x => { x with rail := some 0 }; let p := (7 : Fin 512); let c := (40 : BitVec 14); let r := 0; d.onGrid p = true ∧ d.sampled p = true ∧ (d.P p).leave = none ∧ (d.P p).rail = some r ∧ (d.R r).samp = []) ∧
    (let d : Dev := ((devOf []).onP 7 fun x => { x with rail := some 0 }).onP 9 fun x => { x with rail := some 0 }; let p := (7 : Fin 512); let r := 0; d.onGrid p = true ∧ (d.R r).samp = [] ∧ (d.P p).leave = none ∧ (d.P p).rail = some r ∧ (d.warp r).getLast? ≠ some p.val) := by
  refine ⟨?_, ?_, ?_, ?_, ?_⟩ <;> decide +kernel

/-- A state and operands that meet the premises of each clause of `RailEvents`. -/
theorem test_RailEvents :
    (let d : Dev := (devOf [(RAIL_CATCH.CATCH_EN 5, 1), (RAIL_STATUS.STATE 5, 2), (RAIL_VREF.VREF 5, 3200000)]); let r := (5 : Fin 64); let uv := (9 : BitVec 24); 32 * (uv.toNat : Int) < d.catchLow r ∧ d.catchArmed r = true ∧ (d.R r).cmpU = false) ∧
    (let d : Dev := (devOf [(RAIL_CATCH.CATCH_EN 5, 1), (RAIL_STATUS.STATE 5, 2), (RAIL_VREF.VREF 5, 3200000)]); let r := (5 : Fin 64); let uv := (9 : BitVec 24); 32 * (uv.toNat : Int) < d.catchLow r ∧ d.catchArmed r = true ∧ (d.R r).cmpU = false ∧ (d.R r).cmpO = false ∧ (d.R r).samp = []) ∧
    (let d : Dev := ((devOf [(RAIL_CATCH.CATCH_EN 5, 1), (RAIL_STATUS.STATE 5, 2), (RAIL_VREF.VREF 5, 3200000)])).onR 5 fun x => { x with cmpO := true }; let r := (5 : Fin 64); let uv := (9 : BitVec 24); 32 * (uv.toNat : Int) < d.catchLow r ∧ d.catchArmed r = true ∧ (d.R r).cmpU = false ∧ (d.R r).cmpO = true ∧ (d.R r).samp = []) ∧
    (let d : Dev := (devOf [(RAIL_CATCH.CATCH_EN 5, 1), (RAIL_STATUS.STATE 5, 2)]); let r := (5 : Fin 64); let uv := (9000000 : BitVec 24); d.catchHigh r < 32 * (uv.toNat : Int) ∧ d.catchArmed r = true ∧ (d.R r).cmpO = false) ∧
    (let d : Dev := (devOf [(RAIL_CATCH.CATCH_EN 5, 1), (RAIL_STATUS.STATE 5, 2)]); let r := (5 : Fin 64); let uv := (9000000 : BitVec 24); d.catchHigh r < 32 * (uv.toNat : Int) ∧ d.catchArmed r = true ∧ (d.R r).cmpO = false ∧ (d.R r).cmpU = false ∧ (d.R r).samp = []) ∧
    (let d : Dev := ((devOf [(RAIL_CATCH.CATCH_EN 5, 1), (RAIL_STATUS.STATE 5, 2)])).onR 5 fun x => { x with cmpU := true }; let r := (5 : Fin 64); let uv := (9000000 : BitVec 24); d.catchHigh r < 32 * (uv.toNat : Int) ∧ d.catchArmed r = true ∧ (d.R r).cmpO = false ∧ (d.R r).cmpU = true ∧ (d.R r).samp = []) ∧
    (let d : Dev := (devOf []).onR 5 fun x => { x with cmpU := true }; let r := (5 : Fin 64); let ovs := false; let uv := (9000000 : BitVec 24); d.catchFree r ovs uv.toNat = true ∧ (d.R r).both = none ∧ (d.R r).catU = none ∧ (d.R r).catO = none) ∧
    (let d : Dev := (devOf []).onR 5 fun x => { x with catU := some 5 }; let r := (5 : Fin 64); closed d.now (d.R r).catU (d.rd (RAIL_CATCH_MAX.CATCH_MAX r)) = true ∧ (d.R r).catO = none) ∧
    (let d : Dev := (devOf []).onR 5 fun x => { x with catU := some 5 }; let r := (5 : Fin 64); closed d.now (d.R r).catU (d.rd (RAIL_CATCH_MAX.CATCH_MAX r)) = true ∧ (d.R r).catO = none ∧ (d.R r).samp = []) ∧
    (let d : Dev := (devOf []).onR 5 fun x => { x with both := some 5 }; let r := (5 : Fin 64); closed d.now (d.R r).both 16 = true) ∧
    (let d : Dev := devOf [(RAIL_STATUS.STATE 5, 2)]; let r := (5 : Fin 64); let uv := (9000000 : BitVec 24); d.rLive r = true ∧ 500 * d.rd (RAIL_PROT.OV_TRIP r) < uv.toNat) ∧
    (let d : Dev := (devOf [(RAIL_STATUS.STATE 5, 2)]).onR 5 fun x => { x with uv := some 5 }; let r := (5 : Fin 64); d.rs r = Rs.run ∧ closed d.now (d.R r).uv (d.rd (RAIL_UV_TIME.UV_TIME r)) = true) ∧
    (let d : Dev := (devOf [(RAIL_STATUS.STATE 5, 2)]).onR 5 fun x => { x with ocW := some 5 }; let r := (5 : Fin 64); d.rLive r = true ∧ closed d.now (d.R r).ocW (d.rd (ILIM_TIME.VAL r)) = true) ∧
    (let d : Dev := (devOf [(RAIL_STATUS.STATE 5, 1), (RAIL_SS_TMAX.SS_TMAX 5, 1)]).onR 5 fun x => { x with tEn := some 5 }; let r := (5 : Fin 64); d.startOver r = true ∧ (d.R r).ssOut = false) ∧
    (let d : Dev := (devOf [(RAIL_STATUS.STATE 5, 1)]).onR 5 fun x => { x with wideDue := some 9 }; let r := (5 : Fin 64); let k := 9; d.rs r = Rs.start ∧ (d.R r).wideDue = some k ∧ k ≤ d.now ∧ (d.R r).rerange = none ∧ (d.R r).samp = []) ∧
    (let d : Dev := (devOf [(RAIL_STATUS.STATE 5, 1)]).onR 5 fun x => { x with rerange := some 5 }; let r := (5 : Fin 64); let k := 5; (d.R r).rerange = some k ∧ d.rs r = Rs.start ∧ k ≤ d.now ∧ d.startOver r = false ∧ (d.R r).samp = []) ∧
    (let d : Dev := (devOf [(RAIL_STATUS.STATE 5, 2)]).onR 5 fun x => { x with pgOn := some 5 }; let r := (5 : Fin 64); d.rs r = Rs.run ∧ closed d.now (d.R r).pgOn (d.rd (RAIL_PG_DELAY.PG_DELAY r)) = true) ∧
    (let d : Dev := (devOf [(RAIL_STATUS.STATE 5, 2), (RAIL_STATUS.PG 5, 1)]).onR 5 fun x => { x with pgOff := some 5 }; let r := (5 : Fin 64); d.rs r = Rs.run ∧ closed d.now (d.R r).pgOff (d.rd (RAIL_PG.PG_FILT r)) = true) := by
  refine ⟨?_, ?_, ?_, ?_, ?_, ?_, ?_, ?_, ?_, ?_, ?_, ?_, ?_, ?_, ?_, ?_, ?_, ?_⟩ <;> decide +kernel

/-- A state and operands that meet the premises of each clause of `RailSamples`. -/
theorem test_RailSamples :
    (let d : Dev := devOf [(RAIL_STATUS.STATE 5, 2)]; let r := (5 : Fin 64); d.rLive r = true ∧ d.onGrid (512 + r) = true ∧ (d.R r).samp = []) ∧
    (let d : Dev := devOf [(RAIL_STATUS.STATE 5, 2)]; let r := (5 : Fin 64); d.rLive r = true ∧ d.onGrid (512 + r) = true ∧ (d.R r).samp = [] ∧ (d.R r).spec = none) ∧
    (let d : Dev := devOf [(RAIL_STATUS.STATE 5, 2)]; let r := (5 : Fin 64); let code := (5 : BitVec 14); d.rLive r = true ∧ d.onGrid (512 + r) = true ∧ d.sampled (512 + r) = true ∧ (d.R r).samp = []) ∧
    (let d : Dev := devOf [(RAIL_STATUS.STATE 5, 2), (RAIL_STATUS.MODE 5, 1)]; let r := (5 : Fin 64); let code := (5 : BitVec 14); d.rLive r = true ∧ d.onGrid (512 + r) = true ∧ d.sampled (512 + r) = true ∧ (d.R r).samp = [] ∧ (d.R r).spec = none ∧ d.rs r = Rs.run ∧ d.on (RAIL_STATUS.MODE r) = true) ∧
    (let d : Dev := devOf [(RAIL_STATUS.STATE 5, 2)]; let r := (5 : Fin 64); let code := (5 : BitVec 14); d.rLive r = true ∧ d.onGrid (512 + r) = true ∧ d.sampled (512 + r) = true ∧ (d.R r).samp = [] ∧ (d.R r).spec = none ∧ d.rs r = Rs.run ∧ d.on (RAIL_STATUS.MODE r) = false) ∧
    (let d : Dev := (devOf [(RAIL_STATUS.STATE 5, 2)]).onR 5 fun x => { x with pipe := [(5, 7)] }; let r := (5 : Fin 64); let t := 5; let duty := 7; (d.R r).pipe = [(t, duty)] ∧ t ≤ d.now ∧ d.dutyHeld r t = false ∧ (d.R r).relAt ≤ t ∧ d.rLive r = true ∧ (d.R r).samp = []) ∧
    (let d : Dev := ((devOf [(RAIL_STATUS.STATE 5, 2), (RAIL_PERIOD.PERIOD 5, 4000)]).onP 7 fun x => { x with rail := some 5 }).onR 5 fun x => { x with t0 := some 1278000 }; let r := (5 : Fin 64); let b := (((d.boundaryStep 5).getD 0 : Nat)); d.rLive r = true ∧ d.boundaryStep r = some b ∧ (d.R r).lastB ≠ some d.now ∧ d.warp r ≠ [] ∧ (d.R r).samp = []) ∧
    (let d : Dev := ((devOf [(RAIL_STATUS.STATE 5, 2), (RAIL_PERIOD.PERIOD 5, 4000)]).onP 7 fun x => { x with rail := some 5 }).onR 5 fun x => { x with t0 := some 1278000 }; let r := (5 : Fin 64); let b := (((d.boundaryStep 5).getD 0 : Nat)); d.rLive r = true ∧ d.boundaryStep r = some b ∧ (d.R r).lastB ≠ some d.now ∧ d.warp r ≠ [] ∧ (d.R r).samp = []) ∧
    (let d : Dev := ((devOf [(RAIL_STATUS.STATE 5, 0), (RAIL_PERIOD.PERIOD 5, 4000)]).onP 7 fun x => { x with rail := some 5 }).onR 5 fun x => { x with t0 := some 1278000 }; let r := (5 : Fin 64); let b := (((d.boundaryStep 5).getD 0 : Nat)); d.rLive r = false ∧ d.boundaryStep r = some b ∧ (d.R r).lastB ≠ some d.now ∧ d.warp r ≠ [] ∧ (d.R r).samp = []) ∧
    (let d : Dev := ((devOf [(RAIL_STATUS.STATE 5, 0), (RAIL_PERIOD.PERIOD 5, 4000)]).onP 7 fun x => { x with rail := some 5 }).onR 5 fun x => { x with t0 := some 1278000 }; let r := (5 : Fin 64); let b := (((d.boundaryStep 5).getD 0 : Nat)); let p := 7; d.rLive r = false ∧ d.warp r = [p] ∧ d.boundaryStep r = some b ∧ (d.R r).lastB ≠ some d.now ∧ d.warp r ≠ [] ∧ (d.R r).samp = []) := by
  refine ⟨?_, ?_, ?_, ?_, ?_, ?_, ?_, ?_, ?_, ?_⟩ <;> decide +kernel

/-- A state and operands that meet the premises of each clause of `IntentFrames`. -/
theorem test_IntentFrames :
    (let d : Dev := devOf [(IP_STATUS.STATE 4, 1)]; let n := (4 : Fin 32); d.ipRx n = true ∧ (d.IP n).blkBad < 7) ∧
    (let d : Dev := devOf [(IP_STATUS.STATE 4, 1)]; let n := (4 : Fin 32); let f := (⟨1, 5, BitVec.ofNat 8 (frameCrc 1 1 5)⟩ : Frame); d.ipSt n = Ip.seek ∧ (d.IP n).lastSeq = none ∧ f.crc.toNat = frameCrc 1 f.seq.toNat f.payload.toNat) ∧
    (let d : Dev := devOf [(IP_STATUS.STATE 4, 2)]; let n := (4 : Fin 32); let f := (⟨1, 5, BitVec.ofNat 8 (frameCrc 4 1 5)⟩ : Frame); d.ipSt n = Ip.up ∧ closed d.now (d.IP n).silence 32000 = false ∧ (d.IP n).lastSeq ≠ some f.seq.toNat ∧ f.crc.toNat = frameCrc 4 f.seq.toNat f.payload.toNat) ∧
    (let d : Dev := devOf [(IP_STATUS.STATE 4, 2)]; let n := (4 : Fin 32); let f := (⟨1, 0x10000000, BitVec.ofNat 8 (frameCrc 2 1 0x10000000)⟩ : Frame); (d.ipTake n 2 f).2 = true ∧ 4 ≤ bits f.payload.toNat 28 26) ∧
    (let d : Dev := devOf [(IP_STATUS.STATE 4, 2)]; let n := (4 : Fin 32); let f := (⟨1, 0x10000000, BitVec.ofNat 8 (frameCrc 2 1 0x10000000)⟩ : Frame); let e := (d.ipTake 4 2 f).1; e = (d.ipTake n 2 f).1 ∧ (d.ipTake n 2 f).2 = true ∧ 4 ≤ bits f.payload.toNat 28 26 ∧ e.ipTx n = true) ∧
    (let d : Dev := (devOf [(IP_STATUS.STATE 4, 2), (IP_BIND.SLOT 4, 0x80), (RAIL_STATUS.STATE 0, 2), (IP_STEPMAX.STEP_MAX 4, 100), (PH_ILIM_EFF.I_LIM_EFF 0, 60000)]).onR 0 fun x => { x with strat := 1 }; let n := (4 : Fin 32); let f := (⟨1, 0x00140005, BitVec.ofNat 8 (frameCrc 2 1 0x00140005)⟩ : Frame); let r := 0; (d.ipTake n 2 f).2 = true ∧ bits f.payload.toNat 28 26 < 4 ∧ f.payload.toNat.testBit 31 = false ∧ ((d.ipTake n 2 f).1).slotRail n (bits f.payload.toNat 30 29) = some r ∧ ((d.ipTake n 2 f).1).stepDeny n (sext 16 f.payload.toNat) (bits f.payload.toNat 25 16) r = 0 ∧ sext 16 f.payload.toNat ≠ 0 ∧ (((d.ipTake n 2 f).1).R r).strat % 2 = 1) ∧
    (let d : Dev := (devOf [(IP_STATUS.STATE 4, 2), (IP_BIND.SLOT 4, 0x80), (RAIL_STATUS.STATE 0, 2), (IP_STEPMAX.STEP_MAX 4, 100), (PH_ILIM_EFF.I_LIM_EFF 0, 60000)]).onR 0 fun x => { x with strat := 1 }; let n := (4 : Fin 32); let f := (⟨1, 0x00140005, BitVec.ofNat 8 (frameCrc 2 1 0x00140005)⟩ : Frame); let r := 0; let e := (d.ipTake 4 2 f).1; e = (d.ipTake n 2 f).1 ∧ (d.ipTake n 2 f).2 = true ∧ bits f.payload.toNat 28 26 < 4 ∧ f.payload.toNat.testBit 31 = false ∧ e.slotRail n (bits f.payload.toNat 30 29) = some r ∧ e.stepDeny n (sext 16 f.payload.toNat) (bits f.payload.toNat 25 16) r = 0 ∧ sext 16 f.payload.toNat ≠ 0 ∧ (e.R r).strat % 2 = 1 ∧ e.on (IP_STATUS.THROTTLED n) = false ∧ (e.R r).samp = []) ∧
    (let d : Dev := devOf [(IP_STATUS.STATE 4, 2), (IP_BIND.SLOT 4, 0x80), (RAIL_STATUS.STATE 0, 2), (IP_CFG.VID_EN 4, 1), (RAIL_BAND.VMIN 0, 0), (RAIL_BAND.VMAX 0, 4000)]; let n := (4 : Fin 32); let f := (⟨1, 1000, BitVec.ofNat 8 (frameCrc 3 1 1000)⟩ : Frame); let r := 0; f.payload.toNat < 2 ^ 18 ∧ (d.ipTake n 3 f).2 = true ∧ ((d.ipTake n 3 f).1).slotRail n (bits f.payload.toNat 17 16) = some r ∧ ((d.ipTake n 3 f).1).on (IP_CFG.VID_EN n) = true ∧ ((d.ipTake n 3 f).1).rd (RAIL_BAND.VMIN r) ≤ 2 * (f.payload.toNat % 65536) ∧ 2 * (f.payload.toNat % 65536) ≤ ((d.ipTake n 3 f).1).rd (RAIL_BAND.VMAX r) ∧ ((d.ipTake n 3 f).1).rLive r = true ∧ ((d.ipTake n 3 f).1).railLink r = true ∧ (((d.ipTake n 3 f).1).R r).setAt ≠ some d.now) ∧
    (let d : Dev := devOf [(IP_STATUS.STATE 4, 2), (IP_BIND.SLOT 4, 0x80), (RAIL_STATUS.STATE 0, 2), (IP_CFG.VID_EN 4, 1), (RAIL_BAND.VMIN 0, 0), (RAIL_BAND.VMAX 0, 4000)]; let n := (4 : Fin 32); let f := (⟨1, 1000, BitVec.ofNat 8 (frameCrc 3 1 1000)⟩ : Frame); let r := 0; let e := (d.ipTake 4 3 f).1; e = (d.ipTake n 3 f).1 ∧ f.payload.toNat < 2 ^ 18 ∧ (d.ipTake n 3 f).2 = true ∧ e.slotRail n (bits f.payload.toNat 17 16) = some r ∧ e.on (IP_CFG.VID_EN n) = true ∧ e.rd (RAIL_BAND.VMIN r) ≤ 2 * (f.payload.toNat % 65536) ∧ 2 * (f.payload.toNat % 65536) ≤ e.rd (RAIL_BAND.VMAX r) ∧ e.rLive r = true ∧ e.railLink r = true ∧ (e.R r).setAt ≠ some d.now) := by
  refine ⟨?_, ?_, ?_, ?_, ?_, ?_, ?_, ?_, ?_⟩ <;> decide +kernel

/-- A state and operands that meet the premises of each clause of `IntentEvents`. -/
theorem test_IntentEvents :
    (let d : Dev := (devOf [(IP_STATUS.STATE 4, 2)]).onIP 4 fun x => { x with silence := some 5 }; let n := (4 : Fin 32); d.ipSt n = Ip.up ∧ closed d.now (d.IP n).silence 32000 = true ∧ d.boundRails n = []) ∧
    (let d : Dev := (devOf [(IP_STATUS.STATE 4, 2)]).onIP 4 fun x => { x with txQ := [{ kind := 0x84, seq := 0, payload := 5 }] }; let n := (4 : Fin 32); let f := ({ kind := 0x84, seq := 0, payload := 5 } : TxFrame); d.ipTx n = true ∧ (d.IP n).txBusy ≤ d.now ∧ nextFrame (d.IP n).txQ = some f) ∧
    (let d : Dev := devOf [(IP_STATUS.STATE 4, 2), (IP_BIND.SLOT 4, 0x80)]; let n := (4 : Fin 32); let k := 0; let r := 0; d.boundRails n = [(k, r)] ∧ d.railLink r = true ∧ d.ipTx n = true ∧ ((d.IP n).curAt.all (fun k => decide (k + 800 ≤ d.now)) = true)) ∧
    (let d : Dev := (devOf [(SPEC_CONF.PC_EN 5, 1), (SPEC_LEAD.PC_LEAD 5, 100)]).onR 5 fun x => { x with spec := some { opn := true, di := 3, tStep := 1280050 } }; let r := (5 : Fin 64); let s := ({ opn := true, di := 3, tStep := 1280050 } : SpecSt); (d.R r).spec = some s ∧ s.opn = true ∧ s.shadow = false ∧ d.on (SPEC_CONF.PC_EN r) = true ∧ 0 < s.di ∧ s.pcCut = false ∧ max s.tAcc (s.tStep - d.rd (SPEC_LEAD.PC_LEAD r)) ≤ d.now ∧ d.now < s.tStep ∧ (d.R r).samp = []) ∧
    (let d : Dev := (devOf []).onR 5 fun x => { x with spec := some { pcOn := true, tStep := 5 } }; let r := (5 : Fin 64); let s := ({ pcOn := true, tStep := 5 } : SpecSt); (d.R r).spec = some s ∧ s.pcOn = true ∧ s.tStep ≤ d.now) ∧
    (let d : Dev := (devOf []).onR 5 fun x => { x with spec := some { opn := true, tClose := 5 } }; let r := (5 : Fin 64); let s := ({ opn := true, tClose := 5 } : SpecSt); (d.R r).spec = some s ∧ s.opn = true ∧ s.tClose ≤ d.now) ∧
    (let d : Dev := (devOf [(IP_STATUS.STATE 0, 2)]).onR 5 fun x => { x with spec := some { opn := true, tClose := 5, pb := 7 } }; let r := (5 : Fin 64); let s := ({ opn := true, tClose := 5, pb := 7 } : SpecSt); (d.R r).spec = some s ∧ s.opn = true ∧ s.shadow = false ∧ s.tClose ≤ d.now ∧ (d.R r).samp = [] ∧ s.pb ≠ 0 ∧ d.ipTx s.port = true ∧ s.port < 32) ∧
    (let d : Dev := (devOf []).onR 5 fun x => { x with spec := some { woken := [3], holdEnd := some 5 } }; let r := (5 : Fin 64); let s := ({ woken := [3], holdEnd := some 5 } : SpecSt); let k := 5; (d.R r).spec = some s ∧ s.holdEnd = some k ∧ k ≤ d.now) := by
  refine ⟨?_, ?_, ?_, ?_, ?_, ?_, ?_, ?_⟩ <;> decide +kernel

/-- A state and operands that meet the premises of each clause of `ResourceCommands`. -/
theorem test_ResourceCommands :
    (let d : Dev := devOf []; let x := (⟨.host 2, false, false, 7, 0, 0, false, pay []⟩ : Desc); d.blocked 0x00 x = false ∧ (d.begin 0x00 x).1.passes x (some 0) true none = true ∧ zeroPayload x.payload = true) ∧
    (let d : Dev := devOf [(MODE_STATUS.MODE, 4)]; let x := (⟨.host 2, false, false, 7, 0, 0, false, pay [3, 0x10, 0x12]⟩ : Desc); let c := 1; let k := 3; let f := 2; d.blocked 0x04 x = false ∧ (d.begin 0x04 x).1.passes x (some 0) false none = true ∧ leNat x.payload 0 2 = 4096 * c + k ∧ k < ownCount c ∧ f = byteAt x.payload 2 % 16 ∧ byteAt x.payload 2 < 32 ∧ zeroBytes x.payload 3 47 = true ∧ 1 ≤ f ∧ f ≤ ownFuncs c ∧ (c ≠ 4 ∨ k ≠ 0 ∨ f = 1) ∧ claimMode c f (d.begin 0x04 x).1.md = true ∧ (d.begin 0x04 x).1.mem.err = [] ∧ (d.begin 0x04 x).1.pairGone 0x83 = false ∧ (d.begin 0x04 x).1.rd (OWN.STATE (ownIx c k)) = 0) ∧
    (let d : Dev := { devOf [(MODE_STATUS.MODE, 4), (OWN.STATE (ownIx 1 3), 1), (OWN.AGENT (ownIx 1 3), 33)] with host := { claims := [(640000, 0x1003, 33, .out 9)], nextId := 10, out := [{ id := 9, opc := 4, d := ⟨.core 1, false, false, 7, 0, 0, false, []⟩, begun := true, result := some (0, 0) }] } }; let x := (⟨.host 2, false, false, 7, 0, 0, false, pay [3, 0x10, 0x12]⟩ : Desc); let c := 1; let k := 3; let f := 2; let a := 33; let j := 9; d.blocked 0x04 x = false ∧ (d.begin 0x04 x).1.passes x (some 0) false none = true ∧ leNat x.payload 0 2 = 4096 * c + k ∧ c < 16 ∧ k < ownCount c ∧ f = byteAt x.payload 2 % 16 ∧ byteAt x.payload 2 < 32 ∧ zeroBytes x.payload 3 47 = true ∧ 1 ≤ f ∧ f ≤ ownFuncs c ∧ (c ≠ 4 ∨ k ≠ 0 ∨ f = 1) ∧ claimMode c f (d.begin 0x04 x).1.md = true ∧ (d.begin 0x04 x).1.clockClaims (4096 * c + k) = [((d.begin 0x04 x).1.now / 2, 4096 * c + k, a, .out j)] ∧ x.src.agent < a ∧ j ≠ (d.begin 0x04 x).2 ∧ (d.begin 0x04 x).1.mem.err = [] ∧ (d.begin 0x04 x).1.pairGone 0x83 = false) ∧
    (let d : Dev := devOf [(MODE_STATUS.MODE, 4), (OWN.STATE (ownIx 1 3), 1), (OWN.AGENT (ownIx 1 3), 0)]; let x := (⟨.host 2, false, false, 7, 0, 0, false, pay [3, 0x10]⟩ : Desc); let c := 1; let k := 3; d.blocked 0x05 x = false ∧ (d.begin 0x05 x).1.passes x (some 0) false none = true ∧ leNat x.payload 0 2 = 4096 * c + k ∧ k < ownCount c ∧ zeroBytes x.payload 2 47 = true ∧ (d.begin 0x05 x).1.mem.err = [] ∧ (d.begin 0x05 x).1.pairGone 0x83 = false ∧ (d.begin 0x05 x).1.rd (OWN.STATE (ownIx c k)) = 1 ∧ (d.begin 0x05 x).1.rd (OWN.AGENT (ownIx c k)) = x.src.agent) := by
  refine ⟨?_, ?_, ?_, ?_⟩ <;> decide +kernel

/-- A state and operands that meet the premises of each clause of `RailCommands`. -/
theorem test_RailCommands :
    (let d : Dev := devOf [(MODE_STATUS.MODE, 4), (RAIL_BAND.VMAX 5, 4000)]; let x := (⟨.host 2, false, false, 7, 1, 5, false, pay [0xE8, 3, 4, 1]⟩ : Desc); let r := 5; d.blocked 0x10 x = false ∧ (d.begin 0x10 x).1.passes x (some 1) false (some 1) = true ∧ r = x.idx.toNat ∧ leNat x.payload 0 2 < 0x1000 ∧ byteAt x.payload 3 < 2 ∧ zeroBytes x.payload 4 47 = true ∧ (d.begin 0x10 x).1.rd (RAIL_BAND.VMIN r) ≤ leNat x.payload 0 2 ∧ leNat x.payload 0 2 ≤ (d.begin 0x10 x).1.rd (RAIL_BAND.VMAX r)) ∧
    (let d : Dev := devOf [(MODE_STATUS.MODE, 4), (RAIL_BAND.VMAX 5, 40)]; let x := (⟨.host 2, false, false, 7, 1, 5, false, pay [0xE8, 3, 4, 1]⟩ : Desc); let r := 5; d.blocked 0x10 x = false ∧ (d.begin 0x10 x).1.passes x (some 1) false (some 1) = true ∧ r = x.idx.toNat ∧ leNat x.payload 0 2 < 0x1000 ∧ byteAt x.payload 3 < 2 ∧ zeroBytes x.payload 4 47 = true ∧ (leNat x.payload 0 2 < (d.begin 0x10 x).1.rd (RAIL_BAND.VMIN r) ∨ (d.begin 0x10 x).1.rd (RAIL_BAND.VMAX r) < leNat x.payload 0 2)) ∧
    (let d : Dev := ((devOf [(MODE_STATUS.MODE, 4), (PH_CFG.MIN_PHASES 5, 1), (BR_STATUS.STATE 0, 3), (PH_STATE.STATE 7, Ps.idle)]).setWord 0x10C404 0x80000000).onP 7 fun x => { x with rail := some 5 }; let x := (⟨.host 2, false, false, 7, 1, 5, false, pay []⟩ : Desc); let r := 5; d.blocked 0x11 x = false ∧ (d.begin 0x11 x).1.passes x (some 1) false (some 1) = true ∧ r = x.idx.toNat ∧ zeroPayload x.payload = true ∧ (d.begin 0x11 x).1.active = true ∧ (d.begin 0x11 x).1.rs r = Rs.off ∧ (d.begin 0x11 x).1.minPhases r ≤ ((d.begin 0x11 x).1.availSet r).length ∧ (d.begin 0x11 x).1.minPhases r ≤ (d.begin 0x11 x).1.fedPhases r) ∧
    (let d : Dev := (devOf [(MODE_STATUS.MODE, 4), (RAIL_STATUS.STATE 5, Rs.run)]).onR 5 fun x => { x with disMode := true }; let x := (⟨.host 2, false, false, 7, 1, 5, false, pay []⟩ : Desc); let r := 5; d.blocked 0x12 x = false ∧ (d.begin 0x12 x).1.passes x (some 1) false (some 1) = true ∧ r = x.idx.toNat ∧ zeroPayload x.payload = true ∧ (d.begin 0x12 x).1.rs r = Rs.run ∧ ((d.begin 0x12 x).1.R r).disMode = true) ∧
    (let d : Dev := (devOf [(MODE_STATUS.MODE, 4), (RAIL_STATUS.STATE 5, Rs.start)]); let x := (⟨.host 2, false, false, 7, 1, 5, false, pay []⟩ : Desc); let r := 5; d.blocked 0x12 x = false ∧ (d.begin 0x12 x).1.passes x (some 1) false (some 1) = true ∧ r = x.idx.toNat ∧ zeroPayload x.payload = true ∧ (d.begin 0x12 x).1.rs r = Rs.start) ∧
    (let d : Dev := (((devOf [(MODE_STATUS.MODE, 4), (PH_CFG.MIN_PHASES 5, 1), (BR_STATUS.STATE 0, 3), (PH_STATE.STATE 7, Ps.idle)]).setWord 0x10C404 0x80000000).onP 7 fun x => { x with rail := some 5 }).wr (RAIL_STATUS.STATE 5) Rs.run; let x := (⟨.host 2, false, false, 7, 1, 5, false, pay [128]⟩ : Desc); let r := 5; let h := 128; let n := 0; d.blocked 0x13 x = false ∧ (d.begin 0x13 x).1.passes x (some 1) false (some 1) = true ∧ r = x.idx.toNat ∧ h = leNat x.payload 0 16 ∧ n = leNat x.payload 16 16 ∧ zeroBytes x.payload 32 47 = true ∧ (d.begin 0x13 x).1.md ≠ Md.configure ∧ ((((d.begin 0x13 x).1.maskPhases r h n).all fun q => match q with | some p => ((d.begin 0x13 x).1.warp r).contains p | none => false) = true) ∧ (d.begin 0x13 x).1.minPhases r ≤ ((d.begin 0x13 x).1.maskPhases r h n).length ∧ (d.begin 0x13 x).1.rLive r = true) ∧
    (let d : Dev := ((devOf [(MODE_STATUS.MODE, 4), (PH_CFG.MIN_PHASES 5, 1), (BR_STATUS.STATE 0, 3), (PH_STATE.STATE 7, Ps.idle)]).setWord 0x10C404 0x80000000).onP 7 fun x => { x with rail := some 5 }; let x := (⟨.host 2, false, false, 7, 1, 5, false, pay [128]⟩ : Desc); let r := 5; let h := 128; let n := 0; d.blocked 0x13 x = false ∧ (d.begin 0x13 x).1.passes x (some 1) false (some 1) = true ∧ r = x.idx.toNat ∧ h = leNat x.payload 0 16 ∧ n = leNat x.payload 16 16 ∧ zeroBytes x.payload 32 47 = true ∧ (d.begin 0x13 x).1.md ≠ Md.configure ∧ ((((d.begin 0x13 x).1.maskPhases r h n).all fun q => match q with | some p => ((d.begin 0x13 x).1.warp r).contains p | none => false) = true) ∧ (d.begin 0x13 x).1.minPhases r ≤ ((d.begin 0x13 x).1.maskPhases r h n).length ∧ (d.begin 0x13 x).1.rLive r = false) ∧
    (let d : Dev := (devOf [(MODE_STATUS.MODE, 4), (RAIL_STATUS.STATE 5, Rs.run)]); let x := (⟨.host 2, false, false, 7, 1, 5, false, pay [1, 2, 3, 4]⟩ : Desc); let r := 5; d.blocked 0x14 x = false ∧ (d.begin 0x14 x).1.passes x (some 1) false (some 1) = true ∧ r = x.idx.toNat ∧ zeroBytes x.payload 20 47 = true ∧ (d.begin 0x14 x).1.rd (COEF_CTL.PENDING r) = 0 ∧ (d.begin 0x14 x).1.rLive r = true) ∧
    (let d : Dev := (devOf [(MODE_STATUS.MODE, 4)]); let x := (⟨.host 2, false, false, 7, 1, 5, false, pay [1, 2, 3, 4]⟩ : Desc); let r := 5; d.blocked 0x14 x = false ∧ (d.begin 0x14 x).1.passes x (some 1) false (some 1) = true ∧ r = x.idx.toNat ∧ zeroBytes x.payload 20 47 = true ∧ (d.begin 0x14 x).1.rd (COEF_CTL.PENDING r) = 0 ∧ (d.begin 0x14 x).1.rLive r = false) := by
  refine ⟨?_, ?_, ?_, ?_, ?_, ?_, ?_, ?_, ?_⟩ <;> decide +kernel

/-- A state and operands that meet the premises of each clause of `TableCommands`. -/
theorem test_TableCommands :
    (let d : Dev := devOf [(MODE_STATUS.MODE, 4)]; let x := (⟨.host 2, false, false, 7, 0, 0, false, pay [9, 0, 0, 0, 0, 0, 0, 1]⟩ : Desc); let k := 9; d.blocked 0x18 x = false ∧ (d.begin 0x18 x).1.passes x (some 0) false (some 1) = true ∧ k = byteAt x.payload 0 ∧ k < 64 ∧ zeroBytes x.payload 1 3 = true ∧ zeroBytes x.payload 36 47 = true ∧ policyOk ((x.payload.drop 4).take 32) = true ∧ (bits (leNat x.payload 4 4) 31 30 = 0 ∨ (((d.begin 0x18 x).1.policyUsers k).all (· == bits (leNat x.payload 4 4) 31 30)) = true) ∧ (((List.range 5).all fun b => (d.begin 0x18 x).1.rd (MEM_OFFLINE.OFFLINE b) == 0) = true)) ∧
    (let d : Dev := devOf [(MODE_STATUS.MODE, 4)]; let x := (⟨.host 2, false, false, 7, 0, 0, false, pay ([3, 1, 0, 0, 0, 0, 0, 0, 0, 0, 0, 0, 128, 0, 0, 0] ++ (leBytes (crc32 (List.replicate 128 0)) 4).map (·.toNat))⟩ : Desc); let kind := 3; let index := 1; let off := 0x10C080; let len := 128; d.blocked 0x19 x = false ∧ (d.begin 0x19 x).1.passes x (some 0) false (some 1) = true ∧ byteAt x.payload 0 = kind ∧ byteAt x.payload 1 = index ∧ zeroBytes x.payload 2 3 = true ∧ zeroBytes x.payload 10 11 = true ∧ zeroBytes x.payload 20 47 = true ∧ tableOf kind index = some (off, len) ∧ leNat x.payload 12 4 = len ∧ leNat x.payload 4 6 % 64 = 0 ∧ (d.begin 0x19 x).1.tableOut kind = false ∧ crc32 ((d.begin 0x19 x).1.hRd (leNat x.payload 4 6) len) = leNat x.payload 16 4 ∧ ((d.begin 0x19 x).1.withTable off ((d.begin 0x19 x).1.hRd (leNat x.payload 4 6) len)).tableCheck kind index off = St.success ∧ (((List.range 5).all fun b => (d.begin 0x19 x).1.rd (MEM_OFFLINE.OFFLINE b) == 0) = true)) ∧
    (let d : Dev := devOf [(MODE_STATUS.MODE, 4), (OWN.STATE (ownIx 2 3), 1), (OWN.AGENT (ownIx 2 3), 0), (OWN.FUNCTION (ownIx 2 3), 1)]; let x := (⟨.host 2, false, false, 7, 0, 0, false, pay [3, 2, 1]⟩ : Desc); let k := 3; let first := 2; let n := 1; d.blocked 0x1A x = false ∧ (d.begin 0x1A x).1.passes x (some 0) false (some 1) = true ∧ k = byteAt x.payload 0 ∧ k < 8 ∧ first = byteAt x.payload 1 ∧ n = byteAt x.payload 2 ∧ leNat x.payload 4 4 < 64 ∧ n ≤ 10 ∧ zeroBytes x.payload (8 + 4 * n) 47 = true ∧ first + n ≤ 64 ∧ (((List.range n).all fun j => seqEntryOk (leNat x.payload (8 + 4 * j) 4)) = true) ∧ (d.begin 0x1A x).1.dieOut 4 = false ∧ (d.begin 0x1A x).1.owns 2 k x.src.agent 1 = true ∧ byteAt x.payload 3 = 0) ∧
    (let d : Dev := (devOf [(MODE_STATUS.MODE, 4), (OWN.STATE (ownIx 2 3), 1), (OWN.AGENT (ownIx 2 3), 0), (OWN.FUNCTION (ownIx 2 3), 1), (SEQ_CFG.MODE 3, 1)]).onSQ 3 fun x => { x with pass := some 5 }; let x := (⟨.host 2, false, false, 7, 0, 0, false, pay [3, 2, 1, 1]⟩ : Desc); let k := 3; let first := 2; let n := 1; d.blocked 0x1A x = false ∧ (d.begin 0x1A x).1.passes x (some 0) false (some 1) = true ∧ k = byteAt x.payload 0 ∧ k < 8 ∧ first = byteAt x.payload 1 ∧ n = byteAt x.payload 2 ∧ leNat x.payload 4 4 < 64 ∧ n ≤ 10 ∧ zeroBytes x.payload (8 + 4 * n) 47 = true ∧ first + n ≤ 64 ∧ (((List.range n).all fun j => seqEntryOk (leNat x.payload (8 + 4 * j) 4)) = true) ∧ (d.begin 0x1A x).1.dieOut 4 = false ∧ (d.begin 0x1A x).1.owns 2 k x.src.agent 1 = true ∧ byteAt x.payload 3 = 1 ∧ (d.begin 0x1A x).1.namedSels k = [] ∧ (d.begin 0x1A x).1.rd (SEQ_CFG.MODE k) ≠ 0 ∧ ((d.begin 0x1A x).1.SQ k).pass ≠ none ∧ ((d.begin 0x1A x).1.SQ k).passDone = false) := by
  refine ⟨?_, ?_, ?_, ?_⟩ <;> decide +kernel

/-- A state and operands that meet the premises of each clause of `PackCommands`. -/
theorem test_PackCommands :
    (let d : Dev := devOf [(MODE_STATUS.MODE, 4), (SG_CFG.EN 1, 1), (SG_STATUS.PRESENT 1, 1)]; let x := (⟨.host 2, false, false, 7, 8, 1, false, (let b := (pay [0x40, 0, 1, 0, 5, 0, 0, 0, 9, 9]).take 24; b ++ leBytes (crc32 b) 4 ++ leBytes (2 ^ 32 - 6) 4 ++ List.replicate 16 0)⟩ : Desc); let p := 1; d.blocked 0x30 x = false ∧ (d.begin 0x30 x).1.passes x (some 8) true (some 3) = true ∧ p = x.idx.toNat ∧ leNat x.payload 0 2 = 0x0040 ∧ byteAt x.payload 2 < 16 ∧ byteAt x.payload 2 % 4 = p ∧ byteAt x.payload 3 = 0 ∧ byteAt x.payload 32 < 2 ∧ zeroBytes x.payload 33 47 = true ∧ (d.begin 0x30 x).1.on (SG_CFG.EN p) = true ∧ (d.begin 0x30 x).1.on (SG_STATUS.PRESENT p) = true ∧ crc32 (x.payload.take 24) = leNat x.payload 24 4 ∧ leNat x.payload 28 4 = 2 ^ 32 - 1 - leNat x.payload 4 4 ∧ ((d.begin 0x30 x).1.rd (SG_GEN.GEN p) ≤ leNat x.payload 4 4 ∨ byteAt x.payload 32 = 1)) ∧
    (let d : Dev := devOf [(MODE_STATUS.MODE, 4)]; let x := (⟨.host 2, false, false, 7, 0, 0, false, pay [1]⟩ : Desc); let p := 1; d.blocked 0x31 x = false ∧ (d.begin 0x31 x).1.passes x (some 0) true (some 3) = true ∧ p = byteAt x.payload 0 ∧ p < 4 ∧ zeroBytes x.payload 1 47 = true ∧ (d.begin 0x31 x).1.linkUp 7 = true) := by
  refine ⟨?_, ?_⟩ <;> decide +kernel

/-- A state and operands that meet the premises of each clause of `FaultCommands`. -/
theorem test_FaultCommands :
    (let d : Dev := devOf [(MODE_STATUS.MODE, 4), (SLOT.CODE 9, 0x10), (SLOT.COUNT 9, 2)]; let x := (⟨.host 2, false, false, 7, 0, 0, false, pay [9, 0, 0, 0, 0, 0, 0, 0, 2]⟩ : Desc); let k := 9; d.blocked 0x29 x = false ∧ (d.begin 0x29 x).1.passes x (some 0) true (some 2) = true ∧ k = leNat x.payload 0 2 ∧ k ≤ 255 ∧ zeroBytes x.payload 2 3 = true ∧ byteAt x.payload 10 < 2 ∧ zeroBytes x.payload 11 47 = true ∧ (d.begin 0x29 x).1.mem.err = [] ∧ (d.begin 0x29 x).1.pairGone 0x81 = false ∧ (d.begin 0x29 x).1.slotUsed k = true ∧ leNat x.payload 4 4 % 2 ^ 20 = (d.begin 0x29 x).1.rd (SLOT.CLASS k) ∧ (leNat x.payload 8 2 = (d.begin 0x29 x).1.rd (SLOT.COUNT k) ∨ byteAt x.payload 10 = 1)) ∧
    (let d : Dev := devOf [(MODE_STATUS.MODE, 4), (RAIL_STATUS.STATE 5, Rs.fenced)]; let x := (⟨.host 2, false, false, 7, 1, 5, false, pay []⟩ : Desc); d.blocked 0x28 x = false ∧ (d.begin 0x28 x).1.passes x none false (some 2) = true ∧ zeroPayload x.payload = true ∧ (d.begin 0x28 x).1.unitOut x.cls.toNat x.idx.toNat = true ∧ (d.begin 0x28 x).1.md ≠ Md.factory ∧ (d.begin 0x28 x).1.inDomainOut x.cls.toNat x.idx.toNat = false ∧ (x.cls = 0xB → (d.begin 0x28 x).1.coreMemOut x.idx.toNat = false) ∧ (((d.begin 0x28 x).1.take 0x28 x).unfenceUnit x.cls.toNat x.idx.toNat (.out (d.begin 0x28 x).2)).2 = some St.success) ∧
    (let d : Dev := devOf [(MODE_STATUS.MODE, 4), (RAIL_STATUS.STATE 5, Rs.fenced)]; let x := (⟨.host 2, false, false, 7, 1, 5, false, pay []⟩ : Desc); let r := 5; d.blocked 0x28 x = false ∧ (d.begin 0x28 x).1.passes x none false (some 2) = true ∧ zeroPayload x.payload = true ∧ (d.begin 0x28 x).1.unitOut x.cls.toNat x.idx.toNat = true ∧ (d.begin 0x28 x).1.md ≠ Md.factory ∧ (d.begin 0x28 x).1.inDomainOut x.cls.toNat x.idx.toNat = false ∧ x.cls = 0x1 ∧ r = x.idx.toNat ∧ (d.begin 0x28 x).1.rs r = Rs.fenced ∧ ((d.begin 0x28 x).1.R r).inDomain = none) ∧
    (let d : Dev := devOf [(MODE_STATUS.MODE, 4), (ENT_STATUS.STATE 5, Ec.latched), (POL4.T_RETRY ((devOf []).unitPol 5), 0xF000)]; let x := (⟨.host 2, false, false, 7, 3, 5, false, pay []⟩ : Desc); let n := 5; d.blocked 0x28 x = false ∧ (d.begin 0x28 x).1.passes x none false (some 2) = true ∧ zeroPayload x.payload = true ∧ (d.begin 0x28 x).1.unitOut x.cls.toNat x.idx.toNat = true ∧ (d.begin 0x28 x).1.md ≠ Md.factory ∧ (d.begin 0x28 x).1.inDomainOut x.cls.toNat x.idx.toNat = false ∧ x.cls = 0x3 ∧ n = x.idx.toNat ∧ ((d.begin 0x28 x).1.E n).inDomain = none ∧ (d.begin 0x28 x).1.rds (POL4.T_RETRY ((d.begin 0x28 x).1.unitPol n)) ≤ (d.begin 0x28 x).1.entTj n) ∧
    (let d : Dev := devOf [(MODE_STATUS.MODE, 4), (ENT_STATUS.STATE 5, Ec.latched), (POL4.T_RETRY ((devOf []).unitPol 5), 2000)]; let x := (⟨.host 2, false, false, 7, 3, 5, false, pay []⟩ : Desc); let n := 5; d.blocked 0x28 x = false ∧ (d.begin 0x28 x).1.passes x none false (some 2) = true ∧ zeroPayload x.payload = true ∧ (d.begin 0x28 x).1.unitOut x.cls.toNat x.idx.toNat = true ∧ (d.begin 0x28 x).1.md ≠ Md.factory ∧ (d.begin 0x28 x).1.inDomainOut x.cls.toNat x.idx.toNat = false ∧ x.cls = 0x3 ∧ n = x.idx.toNat ∧ ((d.begin 0x28 x).1.E n).inDomain = none ∧ (d.begin 0x28 x).1.entTj n < (d.begin 0x28 x).1.rds (POL4.T_RETRY ((d.begin 0x28 x).1.unitPol n))) ∧
    (let d : Dev := devOf [(MODE_STATUS.MODE, 4)]; let x := (⟨.host 2, false, false, 7, 1, 5, false, pay []⟩ : Desc); d.blocked 0x28 x = false ∧ (d.begin 0x28 x).1.passes x none false (some 2) = true ∧ zeroPayload x.payload = true ∧ (d.begin 0x28 x).1.unitOut x.cls.toNat x.idx.toNat = false ∧ x.cls.toNat = 1 ∧ (d.begin 0x28 x).1.md ≠ Md.factory) ∧
    (let d : Dev := devOf [(MODE_STATUS.MODE, 2), (FLT_SAFE.SAFE_REC 3, 9), (FLT_SAFE_CTL.VALID, 1)]; let a := (0 : Agent); d.clk.hub = true ∧ d.md = Md.configure) ∧
    (let d : Dev := devOf [(MODE_STATUS.MODE, 7), (FLT_INJ_DELAY.DELAY, 9)]; let a := (0 : Agent); d.clk.hub = true ∧ d.md = Md.factory ∧ d.rd FLT_INJ_STAT.STATE ≠ 1) ∧
    (let d : Dev := { devOf [(MODE_STATUS.MODE, 7), (FLT_INJ_CTL.CLASS, 0x84002), (FLT_INJ_CTL.LEVEL, 1)] with flt := { inj := some 5 } }; let k := 5; d.flt.inj = some k ∧ k ≤ d.now ∧ d.md = Md.factory ∧ d.rd FLT_INJ_CTL.PATH = 0 ∧ kindListed (d.rd FLT_INJ_CTL.CLASS / 4096) = true ∧ d.rd FLT_INJ_CTL.LEVEL ≤ 4) := by
  refine ⟨?_, ?_, ?_, ?_, ?_, ?_, ?_, ?_, ?_⟩ <;> decide +kernel

/-- A state and operands that meet the premises of each clause of `ThreadCommands`. -/
theorem test_ThreadCommands :
    (let d : Dev := devOf [(MODE_STATUS.MODE, 4), (OWN.STATE (ownIx 3 0), 1), (OWN.AGENT (ownIx 3 0), 0), (OWN.FUNCTION (ownIx 3 0), 1), (RG_STATUS.STATE (evRing 0), Rg.active), (HOST_BW.VAL, 1000)]; let x := (⟨.host 2, false, false, 7, 7, 9, false, pay [0, 1, 0, 0, 0x00, 0x08, 0, 0, 0, 0, 0, 0, 0, 0, 0, 0, 0, 0, 0, 0, 1, 0, 0, 0, 100]⟩ : Desc); let k := 9; d.blocked 0x20 x = false ∧ (d.begin 0x20 x).1.passes x (some 7) true none = true ∧ k = x.idx.toNat ∧ (d.begin 0x20 x).1.mem.err = [] ∧ (d.begin 0x20 x).1.bankGone 0x80 = false ∧ (d.begin 0x20 x).1.tState k = 0 ∧ (d.begin 0x20 x).1.threadCheck k x.payload x.src.agent = St.success) ∧
    (let d : Dev := (devOf [(MODE_STATUS.MODE, 4), (OWN.STATE (ownIx 3 0), 1), (OWN.AGENT (ownIx 3 0), 0), (OWN.FUNCTION (ownIx 3 0), 1), (RG_STATUS.STATE (evRing 0), Rg.active), (HOST_BW.VAL, 1000)]).threadOpen 9 (pay [0, 1, 0, 0, 0x00, 0x08, 0, 0, 0, 0, 0, 0, 0, 0, 0, 0, 0, 0, 0, 0, 1, 0, 0, 0, 100]) 0 |>.1; let x := (⟨.host 2, false, false, 7, 7, 9, false, pay [0, 1, 0, 0, 0x00, 0x08, 0, 0, 0, 0, 0, 0, 0, 0, 0, 0, 0, 0, 0, 0, 1, 0, 0, 0, 100]⟩ : Desc); let k := 9; d.blocked 0x21 x = false ∧ (d.begin 0x21 x).1.passes x (some 7) true none = true ∧ k = x.idx.toNat ∧ (d.begin 0x21 x).1.mem.err = [] ∧ (d.begin 0x21 x).1.bankGone 0x80 = false ∧ (d.begin 0x21 x).1.tState k ≠ 0 ∧ ((d.begin 0x21 x).1.T k).closing = none ∧ sameFixed x.payload ((d.begin 0x21 x).1.tCfg k) = true ∧ byteAt x.payload 44 = 0 ∧ zeroBytes x.payload 45 47 = true ∧ (d.begin 0x21 x).1.threadCheck k (x.payload.take 44 ++ [0, 0, 0, 0]) x.src.agent = St.success) ∧
    (let d : Dev := (devOf [(MODE_STATUS.MODE, 4), (OWN.STATE (ownIx 3 0), 1), (OWN.AGENT (ownIx 3 0), 0), (OWN.FUNCTION (ownIx 3 0), 1), (RG_STATUS.STATE (evRing 0), Rg.active), (HOST_BW.VAL, 1000)]).threadOpen 9 (pay [0, 1, 0, 0, 0x00, 0x08, 0, 0, 0, 0, 0, 0, 0, 0, 0, 0, 0, 0, 0, 0, 1, 0, 0, 0, 100]) 0 |>.1; let x := (⟨.host 2, false, false, 7, 7, 9, false, pay []⟩ : Desc); let k := 9; d.blocked 0x22 x = false ∧ (d.begin 0x22 x).1.passes x (some 7) true none = true ∧ k = x.idx.toNat ∧ zeroPayload x.payload = true ∧ (d.begin 0x22 x).1.bankGone 0x80 = false ∧ (d.begin 0x22 x).1.tState k ≠ 0 ∧ ((d.begin 0x22 x).1.T k).closing = none) ∧
    (let d : Dev := devOf [(MODE_STATUS.MODE, 4)]; let x := (⟨.host 2, false, false, 7, 0, 0, false, pay [5]⟩ : Desc); d.blocked 0x01 x = false ∧ (d.begin 0x01 x).1.passes x (some 0) true none = true ∧ byteAt x.payload 34 < 4 ∧ zeroBytes x.payload 35 47 = true) ∧
    (let d : Dev := ((devOf [(MODE_STATUS.MODE, 4), (OWN.STATE (ownIx 3 0), 1), (OWN.AGENT (ownIx 3 0), 0), (OWN.FUNCTION (ownIx 3 0), 1), (RG_STATUS.STATE (evRing 0), Rg.active), (HOST_BW.VAL, 1000)]).threadOpen 9 (pay [0, 1, 0, 0, 0x00, 0x08, 0, 0, 0, 0, 0, 0, 0, 0, 0, 0, 0, 0, 0, 0, 1, 0, 0, 0, 100]) 0 |>.1).onT 9 fun x => { x with closing := some .modeReg }; let k := (9 : Fin 4096); let tok := Token.modeReg; d.clk.hub = true ∧ (d.T k).closing = some tok ∧ (d.dataOut k).outputWaits k = false) ∧
    (let d : Dev := { devOf [] with host := { fences := [({ id := 3, src := .mailbox, tag := 7, rings := [], vcs := [], arch := false, flush := false, tw := some 5, placed := true } : FenceSt)] } }; let f := ({ id := 3, src := .mailbox, tag := 7, rings := [], vcs := [], arch := false, flush := false, tw := some 5, placed := true } : FenceSt); let k := 5; d.clk.hub = true ∧ d.host.fences = [f] ∧ f.tw = some k ∧ f.tf ≤ d.now ∧ f.rings = [] ∧ f.vcs = [] ∧ f.onWire = [] ∧ f.placed = true) := by
  refine ⟨?_, ?_, ?_, ?_, ?_, ?_⟩ <;> decide +kernel

/-- A state and operands that meet the premises of each clause of `ModeRequests`. -/
theorem test_ModeRequests :
    (let d : Dev := devOf [(MODE_STATUS.MODE, 4)]; let x := (⟨.host 2, false, false, 7, 0, 0, false, pay [2]⟩ : Desc); d.blocked 0x02 x = false ∧ (d.begin 0x02 x).1.passes x (some 0) false (some 0) = true ∧ byteAt x.payload 0 = 2 ∧ zeroBytes x.payload 1 47 = true ∧ (d.begin 0x02 x).1.md = Md.run ∧ (d.begin 0x02 x).1.sq ≠ Sq.down) ∧
    (let d : Dev := devOf [(MODE_STATUS.MODE, 4)]; let a := (0 : Agent); d.clk.hub = true ∧ d.mayCommand 0 a.toNat = true ∧ d.md = Md.run ∧ d.sq ≠ Sq.down) ∧
    (let d : Dev := devOf [(MODE_STATUS.MODE, 2), (BOOT_STATUS.STATE, 2)]; let x := (⟨.host 2, false, false, 7, 0, 0, false, pay [3]⟩ : Desc); d.blocked 0x02 x = false ∧ (d.begin 0x02 x).1.passes x (some 0) false (some 0) = true ∧ byteAt x.payload 0 = 3 ∧ zeroBytes x.payload 1 47 = true ∧ (d.begin 0x02 x).1.md = Md.configure ∧ (d.begin 0x02 x).1.mode.afterSafe = false ∧ (d.begin 0x02 x).1.exitStatus = St.success) ∧
    (let d : Dev := devOf [(MODE_STATUS.MODE, 2), (BOOT_STATUS.STATE, 2)]; let a := (0 : Agent); d.clk.hub = true ∧ d.mayCommand 0 a.toNat = true ∧ d.md = Md.configure ∧ d.mode.afterSafe = false ∧ d.exitStatus = St.success) ∧
    (let d : Dev := devOf [(MODE_STATUS.MODE, 3), (MODE_STATUS.SEQ_STATE, 3)]; let x := (⟨.host 2, false, false, 7, 0, 0, false, pay [4]⟩ : Desc); d.blocked 0x02 x = false ∧ (d.begin 0x02 x).1.passes x (some 0) false (some 0) = true ∧ byteAt x.payload 0 = 4 ∧ zeroBytes x.payload 1 47 = true ∧ (d.begin 0x02 x).1.md = Md.ramp ∧ (d.begin 0x02 x).1.sq = Sq.halted) ∧
    (let d : Dev := devOf [(MODE_STATUS.MODE, 3), (MODE_STATUS.SEQ_STATE, 3)]; let a := (0 : Agent); d.clk.hub = true ∧ d.mayCommand 0 a.toNat = true ∧ d.md = Md.ramp ∧ d.sq = Sq.halted) ∧
    (let d : Dev := devOf [(MODE_STATUS.MODE, 4)]; let x := (⟨.host 2, false, false, 7, 0, 0, false, pay [6]⟩ : Desc); d.blocked 0x02 x = false ∧ (d.begin 0x02 x).1.passes x (some 0) true none = true ∧ byteAt x.payload 0 = 6 ∧ zeroBytes x.payload 1 47 = true ∧ (d.begin 0x02 x).1.md = Md.run) ∧
    (let d : Dev := devOf [(MODE_STATUS.MODE, 4)]; let a := (0 : Agent); d.clk.hub = true ∧ d.md = Md.run) ∧
    (let d : Dev := devOf [(MODE_STATUS.MODE, 6)]; let x := (⟨.host 2, false, false, 7, 0, 0, false, pay [8]⟩ : Desc); d.blocked 0x02 x = false ∧ (d.begin 0x02 x).1.passes x (some 0) true none = true ∧ byteAt x.payload 0 = 8 ∧ zeroBytes x.payload 1 47 = true ∧ (d.begin 0x02 x).1.md = Md.safe) ∧
    (let d : Dev := devOf [(MODE_STATUS.MODE, 6)]; let a := (0 : Agent); d.clk.hub = true ∧ d.md = Md.safe) := by
  refine ⟨?_, ?_, ?_, ?_, ?_, ?_, ?_, ?_, ?_, ?_⟩ <;> decide +kernel

/-- A state and operands that meet the premises of each clause of `SequenceActions`. -/
theorem test_SequenceActions :
    (let d : Dev := ((devOf [(MODE_STATUS.MODE, 3), (MODE_STATUS.SEQ_STATE, 1), (MODE_STATUS.SEQ_ENTRY, 0), (MODE_CFG.UP_LEN, 5), (MODE_CFG.DOWN_LEN, 5), (ENT_CFG.ROLE 5, 1)]).setWord 45060 (BitVec.ofNat 32 (1 * 2 ^ 28 + 5 * 2 ^ 16))).setWord 45056 0; let u := 5; d.seqTurn 1 = true ∧ u = d.seqNow.2.1 ∧ d.rd MODE_STATUS.SEQ_ENTRY < 127 ∧ d.rd MODE_STATUS.SEQ_ENTRY ≠ (if d.rd MODE_STATUS.SEQ_ENTRY < 64 then d.rd MODE_CFG.UP_LEN else 64 + d.rd MODE_CFG.DOWN_LEN) ∧ d.dieOut 4 = false ∧ d.entOnStatus u = St.success ∧ d.es u = Ec.off ∧ d.groupOf u = none) ∧
    (let d : Dev := ((devOf [(MODE_STATUS.MODE, 3), (MODE_STATUS.SEQ_STATE, 1), (MODE_STATUS.SEQ_ENTRY, 0), (MODE_CFG.UP_LEN, 5), (MODE_CFG.DOWN_LEN, 5), (BR_CFG.USED 5, 1)]).setWord 45060 (BitVec.ofNat 32 (2 * 2 ^ 28 + 5 * 2 ^ 16))).setWord 45056 0; let u := 5; d.seqTurn 2 = true ∧ u = d.seqNow.2.1 ∧ d.rd MODE_STATUS.SEQ_ENTRY < 127 ∧ d.rd MODE_STATUS.SEQ_ENTRY ≠ (if d.rd MODE_STATUS.SEQ_ENTRY < 64 then d.rd MODE_CFG.UP_LEN else 64 + d.rd MODE_CFG.DOWN_LEN) ∧ d.dieOut 4 = false ∧ d.on (BR_CFG.USED u) = true ∧ d.bs u = Ec.off) ∧
    (let d : Dev := ((((devOf [(MODE_STATUS.MODE, 3), (MODE_STATUS.SEQ_STATE, 1), (MODE_STATUS.SEQ_ENTRY, 0), (MODE_CFG.UP_LEN, 5), (MODE_CFG.DOWN_LEN, 5), (PH_CFG.MIN_PHASES 5, 1), (BR_STATUS.STATE 0, 3), (PH_STATE.STATE 7, Ps.idle)]).setWord 45060 (BitVec.ofNat 32 (3 * 2 ^ 28 + 5 * 2 ^ 16))).setWord 45056 0).setWord 0x10C404 0x80000000).onP 7 fun x => { x with rail := some 5 }; let u := 5; d.seqTurn 3 = true ∧ u = d.seqNow.2.1 ∧ d.rd MODE_STATUS.SEQ_ENTRY < 127 ∧ d.rd MODE_STATUS.SEQ_ENTRY ≠ (if d.rd MODE_STATUS.SEQ_ENTRY < 64 then d.rd MODE_CFG.UP_LEN else 64 + d.rd MODE_CFG.DOWN_LEN) ∧ d.railLink u = true ∧ d.rs u = Rs.off ∧ (d.railEnable u).2 = St.success) ∧
    (let d : Dev := ((devOf [(MODE_STATUS.MODE, 3), (MODE_STATUS.SEQ_STATE, 1), (MODE_STATUS.SEQ_ENTRY, 0), (MODE_CFG.UP_LEN, 5), (MODE_CFG.DOWN_LEN, 5), (ENT_STATUS.STATE 5, 3)]).setWord 45060 (BitVec.ofNat 32 (8 * 2 ^ 28 + 5 * 2 ^ 16))).setWord 45056 0; let u := 5; d.seqTurn 8 = true ∧ u = d.seqNow.2.1 ∧ d.rd MODE_STATUS.SEQ_ENTRY < 127 ∧ d.rd MODE_STATUS.SEQ_ENTRY ≠ (if d.rd MODE_STATUS.SEQ_ENTRY < 64 then d.rd MODE_CFG.UP_LEN else 64 + d.rd MODE_CFG.DOWN_LEN) ∧ d.dieOut 4 = false ∧ d.es u = Ec.on ∧ d.groupOf u = none) ∧
    (let d : Dev := ((devOf [(MODE_STATUS.MODE, 3), (MODE_STATUS.SEQ_STATE, 1), (MODE_STATUS.SEQ_ENTRY, 0), (MODE_CFG.UP_LEN, 5), (MODE_CFG.DOWN_LEN, 5), (BR_STATUS.STATE 5, 3)]).setWord 45060 (BitVec.ofNat 32 (9 * 2 ^ 28 + 5 * 2 ^ 16))).setWord 45056 0; let u := 5; d.seqTurn 9 = true ∧ u = d.seqNow.2.1 ∧ d.rd MODE_STATUS.SEQ_ENTRY < 127 ∧ d.rd MODE_STATUS.SEQ_ENTRY ≠ (if d.rd MODE_STATUS.SEQ_ENTRY < 64 then d.rd MODE_CFG.UP_LEN else 64 + d.rd MODE_CFG.DOWN_LEN) ∧ d.dieOut 4 = false ∧ d.bs u = Ec.on) ∧
    (let d : Dev := ((devOf [(MODE_STATUS.MODE, 3), (MODE_STATUS.SEQ_STATE, 1), (MODE_STATUS.SEQ_ENTRY, 0), (MODE_CFG.UP_LEN, 5), (MODE_CFG.DOWN_LEN, 5), (RAIL_STATUS.STATE 5, 1)]).setWord 45060 (BitVec.ofNat 32 (10 * 2 ^ 28 + 5 * 2 ^ 16))).setWord 45056 0; let u := 5; d.seqTurn 0xA = true ∧ u = d.seqNow.2.1 ∧ d.rd MODE_STATUS.SEQ_ENTRY < 127 ∧ d.rd MODE_STATUS.SEQ_ENTRY ≠ (if d.rd MODE_STATUS.SEQ_ENTRY < 64 then d.rd MODE_CFG.UP_LEN else 64 + d.rd MODE_CFG.DOWN_LEN) ∧ d.railLink u = true ∧ d.rs u = Rs.start) := by
  refine ⟨?_, ?_, ?_, ?_, ?_, ?_⟩ <;> decide +kernel

/-- A state and operands that meet the premises of each clause of `SequenceWaits`. -/
theorem test_SequenceWaits :
    (let d : Dev := ((devOf [(MODE_STATUS.MODE, 3), (MODE_STATUS.SEQ_STATE, 1), (MODE_STATUS.SEQ_ENTRY, 0), (MODE_CFG.UP_LEN, 5), (MODE_CFG.DOWN_LEN, 5)]).setWord 45060 (BitVec.ofNat 32 (4 * 2 ^ 28 + 5 * 2 ^ 16))).setWord 45056 9; d.seqTurn 4 = true) ∧
    (let d : Dev := ((devOf [(MODE_STATUS.MODE, 3), (MODE_STATUS.SEQ_STATE, 1), (MODE_STATUS.SEQ_ENTRY, 0), (MODE_CFG.UP_LEN, 5), (MODE_CFG.DOWN_LEN, 5)]).setWord 45060 (BitVec.ofNat 32 (5 * 2 ^ 28 + 5 * 2 ^ 16))).setWord 45056 9; d.seqTurn 5 = true) ∧
    (let d : Dev := ((devOf [(MODE_STATUS.MODE, 3), (MODE_STATUS.SEQ_STATE, 1), (MODE_STATUS.SEQ_ENTRY, 0), (MODE_CFG.UP_LEN, 5), (MODE_CFG.DOWN_LEN, 5)]).setWord 45060 (BitVec.ofNat 32 (6 * 2 ^ 28 + 5 * 2 ^ 16))).setWord 45056 9; d.seqTurn 6 = true) ∧
    (let d : Dev := ((devOf [(MODE_STATUS.MODE, 3), (MODE_STATUS.SEQ_STATE, 1), (MODE_STATUS.SEQ_ENTRY, 0), (MODE_CFG.UP_LEN, 5), (MODE_CFG.DOWN_LEN, 5)]).setWord 45060 (BitVec.ofNat 32 (7 * 2 ^ 28 + 5 * 2 ^ 16))).setWord 45056 9; d.seqTurn 7 = true) ∧
    (let d : Dev := ((devOf [(MODE_STATUS.MODE, 3), (MODE_STATUS.SEQ_STATE, 1), (MODE_STATUS.SEQ_ENTRY, 0), (MODE_CFG.UP_LEN, 5), (MODE_CFG.DOWN_LEN, 5)]).setWord 45060 (BitVec.ofNat 32 (11 * 2 ^ 28 + 5 * 2 ^ 16))).setWord 45056 9; d.seqTurn 11 = true) ∧
    (let d : Dev := { ((devOf [(MODE_STATUS.MODE, 3), (MODE_STATUS.SEQ_STATE, 1), (MODE_STATUS.SEQ_ENTRY, 0), (MODE_CFG.UP_LEN, 5), (MODE_CFG.DOWN_LEN, 5)]).setWord 45060 (BitVec.ofNat 32 (4 * 2 ^ 28 + 5 * 2 ^ 16))).setWord 45056 9 with mode := { seqWait := true, seqAt := 5 } }; d.seqRuns = true ∧ d.mode.seqWait = true ∧ d.seqNow.1 = 4 ∧ d.mode.seqAt + d.seqNow.2.2 ≤ d.now ∧ d.rd MODE_STATUS.SEQ_ENTRY < 127 ∧ d.rd MODE_STATUS.SEQ_ENTRY ≠ (if d.rd MODE_STATUS.SEQ_ENTRY < 64 then d.rd MODE_CFG.UP_LEN else 64 + d.rd MODE_CFG.DOWN_LEN)) ∧
    (let d : Dev := { ((devOf [(MODE_STATUS.MODE, 3), (MODE_STATUS.SEQ_STATE, 1), (MODE_STATUS.SEQ_ENTRY, 0), (MODE_CFG.UP_LEN, 5), (MODE_CFG.DOWN_LEN, 5), (BR_STATUS.STATE 5, 3)]).setWord 45060 (BitVec.ofNat 32 (6 * 2 ^ 28 + 5 * 2 ^ 16))).setWord 45056 9 with mode := { seqWait := true, seqAt := 1279995 } }; d.seqRuns = true ∧ d.mode.seqWait = true ∧ d.seqCond = true ∧ d.now < d.mode.seqAt + d.seqNow.2.2 ∧ d.rd MODE_STATUS.SEQ_ENTRY < 127 ∧ d.rd MODE_STATUS.SEQ_ENTRY ≠ (if d.rd MODE_STATUS.SEQ_ENTRY < 64 then d.rd MODE_CFG.UP_LEN else 64 + d.rd MODE_CFG.DOWN_LEN)) ∧
    (let d : Dev := { ((devOf [(MODE_STATUS.MODE, 3), (MODE_STATUS.SEQ_STATE, 1), (MODE_STATUS.SEQ_ENTRY, 0), (MODE_CFG.UP_LEN, 5), (MODE_CFG.DOWN_LEN, 5)]).setWord 45060 (BitVec.ofNat 32 (6 * 2 ^ 28 + 5 * 2 ^ 16))).setWord 45056 9 with mode := { seqWait := true, seqAt := 5 } }; d.seqRuns = true ∧ d.mode.seqWait = true ∧ d.seqNow.1 ≠ 4 ∧ d.mode.seqAt + d.seqNow.2.2 ≤ d.now ∧ d.sq = Sq.up) ∧
    (let d : Dev := ((devOf [(MODE_STATUS.MODE, 3), (MODE_STATUS.SEQ_STATE, 1), (MODE_STATUS.SEQ_ENTRY, 0), (MODE_CFG.UP_LEN, 5), (MODE_CFG.DOWN_LEN, 5)]).setWord 45060 (BitVec.ofNat 32 (0 * 2 ^ 28 + 0 * 2 ^ 16))).setWord 45056 0; d.seqRuns = true ∧ d.mode.seqWait = false ∧ d.mode.seqAt ≤ d.now ∧ (d.mode.seqPast = true ∨ d.seqNow.1 = 0) ∧ d.sq = Sq.up) ∧
    (let d : Dev := ((devOf [(MODE_STATUS.MODE, 4), (MODE_STATUS.SEQ_STATE, 4), (MODE_STATUS.SEQ_ENTRY, 64), (MODE_CFG.UP_LEN, 5), (MODE_CFG.DOWN_LEN, 5)]).setWord 45572 (BitVec.ofNat 32 (0 * 2 ^ 28 + 0 * 2 ^ 16))).setWord 45568 0; d.seqRuns = true ∧ d.mode.seqWait = false ∧ d.mode.seqAt ≤ d.now ∧ (d.mode.seqPast = true ∨ d.seqNow.1 = 0) ∧ d.sq = Sq.down ∧ d.md ≠ Md.holdup) := by
  refine ⟨?_, ?_, ?_, ?_, ?_, ?_, ?_, ?_, ?_, ?_⟩ <;> decide +kernel

/-- A state and operands that meet the premises of each clause of `HoldupCommands`. -/
theorem test_HoldupCommands :
    (let d : Dev := devOf [(MODE_STATUS.MODE, 4), (ENT_STATUS.STATE 3, Ec.armed)]; let n := (3 : Fin 16); d.es n = Ec.armed ∧ d.dieOut 4 = false ∧ d.md = Md.run) ∧
    (let d : Dev := devOf [(MODE_STATUS.MODE, 5), (HU_PRIO.PRIO 0, 0x300000), (RAIL_STATUS.STATE 5, 2)]; let k := (3 : Fin 8); let r := 5; k ≠ 0 ∧ d.md = Md.holdup ∧ d.mode.shedDone.testBit k = false ∧ d.mode.tHold + d.rd (HU_STAGE.STAGE_T (k - 1)) ≤ d.now ∧ r < 64 ∧ d.stageOf r = k ∧ d.rLive r = true) ∧
    (let d : Dev := (devOf [(MODE_STATUS.MODE, 5), (MODE_STATUS.PREV, 4), (ENT_CFG.ROLE 3, 1), (ENT_STATUS.STATE 3, 3)]).onE 3 fun x => { x with vin := 65535 }; d.md = Md.holdup ∧ d.dieOut 4 = false ∧ d.mode.tHold < d.now ∧ d.rd HU_CFG.HU_EXIT_MIN + 1 ≤ d.exitCount) ∧
    (let d : Dev := (devOf [(MODE_STATUS.MODE, 5), (MODE_STATUS.PREV, 4), (ENT_CFG.ROLE 3, 1), (ENT_STATUS.STATE 3, 3)]).onE 3 fun x => { x with vin := 65535 }; d.md = Md.holdup ∧ d.dieOut 4 = false ∧ d.mode.tHold < d.now ∧ d.rd HU_CFG.HU_EXIT_MIN + 1 ≤ d.exitCount) ∧
    (let d : Dev := { (((devOf [(MODE_STATUS.MODE, 4), (PH_CFG.MIN_PHASES 5, 1), (BR_STATUS.STATE 0, 3), (PH_STATE.STATE 7, Ps.idle)]).setWord 0x10C404 0x80000000).onP 7 fun x => { x with rail := some 5 }) with mode := { resStage := 1, resLeft := [5] } }; let r := 5; let l := []; d.mode.resStage ≠ 0 ∧ d.md = Md.run ∧ d.mode.resDue ≤ d.now ∧ d.mode.resLeft = r :: l ∧ r < 64 ∧ d.railLink r = true ∧ d.rs r = Rs.off ∧ (d.railEnable r).2 = St.success) := by
  refine ⟨?_, ?_, ?_, ?_, ?_⟩ <;> decide +kernel

/-- A state and operands that meet the premises of each clause of `SafeAndKeep`. -/
theorem test_SafeAndKeep :
    (let d : Dev := { (devOf [(MODE_STATUS.MODE, 6), (BR_STATUS.STATE 9, 3), (SAFE_DELAY.VAL, 1)]) with mode := { safeAt := some 5 } }; let k := 5; d.mode.safeAt = some k ∧ k + d.rd SAFE_DELAY.VAL ≤ d.now ∧ d.keep.on = false ∧ d.linkUp 7 = true) ∧
    (let d : Dev := { (devOf [(ENT_STATUS.STATE 3, 3), (ENT_STATUS.STATE 4, 1), (KEEP_CFG.KEEP_TIME, 5)]) with link := { lost := 128 } }; d.hubLost = true ∧ d.keep.on = false ∧ d.rd KEEP_CFG.KEEP_TIME ≠ 0) ∧
    (let d : Dev := { (devOf [(ENT_STATUS.STATE 3, 3)]) with keep := { on := true } }; let u := (3 : Fin 80); d.keep.on = true ∧ u.val < 16 ∧ d.es u = Ec.on) ∧
    (let d : Dev := { (devOf [(BR_STATUS.STATE 4, 3)]) with keep := { on := true } }; let u := (20 : Fin 80); d.keep.on = true ∧ 16 ≤ u.val ∧ d.bs (u - 16) = Ec.on) ∧
    (let d : Dev := { (devOf [(ENT_STATUS.STATE 3, 3), (BR_STATUS.STATE 4, 3)]) with keep := { on := true, since := 0 }, clk := { sb := 10 ^ 10 } }; d.keep.on = true ∧ d.keep.expired = false ∧ d.keep.since + d.keepTime ≤ d.clk.sb ∧ d.keep.stay = false) ∧
    (let d : Dev := { (devOf []) with keep := { on := true } }; d.keep.on = true ∧ d.linkUp 7 = true ∧ d.clk.rootLost = false ∧ d.mode.pendingCfg = false ∧ d.clk.hub = true) := by
  refine ⟨?_, ?_, ?_, ?_, ?_, ?_⟩ <;> decide +kernel

/-- A state and operands that meet the premises of each clause of `SupplyCommands`. -/
theorem test_SupplyCommands :
    (let d : Dev := devOf [(MODE_STATUS.MODE, 0)]; d.md = Md.off) ∧
    (let d : Dev := devOf [(MODE_STATUS.MODE, 4)]; d.md = Md.run) ∧
    (let d : Dev := { devOf [(MODE_STATUS.MODE, 1)] with clk := { sb := 7 } }; let st := (⟨true, false, true⟩ : Straps); d.md = Md.standby ∧ d.clk.released = none) ∧
    (let d : Dev := { devOf [(MODE_STATUS.MODE, 1)] with clk := { sb := 7, released := some 5 } }; let k := 5; d.md = Md.standby ∧ d.clk.released = some k) ∧
    (let d : Dev := devOf [(MODE_STATUS.MODE, 4)]; let st := (⟨true, false, true⟩ : Straps); d.resets = true ∧ d.clk.hub = true ∧ d.clk.rootLost = false) ∧
    (let d : Dev := { devOf [(MODE_STATUS.MODE, 4)] with clk := { hub := true, rootLost := true } }; let st := (⟨true, false, true⟩ : Straps); d.resets = true ∧ d.clk.rootLost = true) ∧
    (let d : Dev := devOf [(MODE_STATUS.MODE, 4)]; let st := (⟨true, false, true⟩ : Straps); d.resets = true ∧ d.clk.hub = true ∧ d.clk.rootLost = false) ∧
    (let d : Dev := devOf [(MODE_STATUS.MODE, 4)]; let a := (0 : Agent); let v := (0xA5C3 : Word); let st := (⟨true, false, true⟩ : Straps); d.resets = true ∧ d.clk.hub = true ∧ d.clk.rootLost = false ∧ v = 0xA5C3) ∧
    (let d : Dev := devOf [(MODE_STATUS.MODE, 4)]; let a := (0 : Agent); let v := (0xA5C4 : Word); let st := (⟨true, false, true⟩ : Straps); d.resets = true ∧ v ≠ 0xA5C3) ∧
    (let d : Dev := devOf [(RG_STATUS.STATE 9, 1)]; d.clk.hub = true) ∧
    (let d : Dev := { devOf [(MODE_STATUS.MODE, 4)] with clk := { hub := true, rootLost := true } }; let st := (⟨true, false, true⟩ : Straps); d.clk.rootLost = true ∧ d.resets = true) ∧
    (let d : Dev := devOf [(MODE_STATUS.MODE, 2)]; let a := (0 : Agent); let v := (0x5A5A0F0F : Word); d.clk.hub = true ∧ (a = 0 ∨ a = 1) ∧ v = 0x5A5A0F0F) ∧
    (let d : Dev := { devOf [(MODE_STATUS.MODE, 2), (DEV_STATUS.FACTORY_N, 0)] with mode := { unlock := some (1279999, 1) } }; let a := (1 : Agent); let v := (0x0F0F5A5A : Word); let k := 1279999; d.clk.hub = true ∧ (a = 0 ∨ a = 1) ∧ v = 0x0F0F5A5A ∧ d.mode.unlock = some (k, a.toNat) ∧ d.now < k + 8000 ∧ d.md = Md.configure ∧ d.on DEV_STATUS.FACTORY_N = false) := by
  refine ⟨?_, ?_, ?_, ?_, ?_, ?_, ?_, ?_, ?_, ?_, ?_, ?_, ?_⟩ <;> decide +kernel

/-- A state and operands that meet the premises of each clause of `BootCommands`. -/
theorem test_BootCommands :
    (let d : Dev := { devOf [(MODE_STATUS.MODE, 2)] with mode := { pendingCfg := true } }; let fl := ({ data := [1, 2] } : Flash); d.md = Md.configure ∧ d.mode.pendingCfg = true ∧ d.mem.init = [] ∧ d.calibrating = false ∧ d.on DEV_STATUS.BOOT_SEL = false ∧ d.mode.lastHost = false) ∧
    (let d : Dev := { devOf [(MODE_STATUS.MODE, 2), (DEV_STATUS.BOOT_SEL, 1)] with mode := { pendingCfg := true } }; let fl := ({ data := [1, 2] } : Flash); d.md = Md.configure ∧ d.mode.pendingCfg = true ∧ d.mem.init = [] ∧ d.calibrating = false ∧ d.on DEV_STATUS.BOOT_SEL = true) ∧
    (let d : Dev := devOf [(MODE_STATUS.MODE, 2), (BOOT_STATUS.STATE, 1)]; let im := ([] : List Byte); d.md = Md.configure ∧ d.rd BOOT_STATUS.STATE = 1 ∧ d.on BOOT_STATUS.SRC = false ∧ d.mode.flashOk = true ∧ im = flashImage d.mode.image (d.rd BOOT_STATUS.SLOT)) ∧
    (let d : Dev := devOf [(MODE_STATUS.MODE, 2), (BOOT_STATUS.STATE, 1)]; d.md = Md.configure ∧ d.rd BOOT_STATUS.STATE = 1 ∧ d.on BOOT_STATUS.SRC = false ∧ (imageFormat (flashImage d.mode.image (d.rd BOOT_STATUS.SLOT)) = false ∨ d.mode.flashOk = false)) ∧
    (let d : Dev := { devOf [(MODE_STATUS.MODE, 2), (BOOT_STATUS.STATE, 2)] with mode := { image := List.replicate 256 0 ++ [1, 0, 0, 0, 8, 0x11, 0, 0, 5, 0, 0, 0, 255, 255, 255, 255] } }; let r := ([1, 0, 0, 0, 8, 0x11, 0, 0, 5, 0, 0, 0, 255, 255, 255, 255] : List Byte); d.bootRecord 0x0001 = some r) ∧
    (let d : Dev := { devOf [(MODE_STATUS.MODE, 2), (BOOT_STATUS.STATE, 2)] with mode := { image := List.replicate 256 0 ++ [1, 0, 0, 0, 0x10, 0x12, 0, 0, 5, 0, 0, 0, 255, 255, 255, 255] } }; let r := ([1, 0, 0, 0, 0x10, 0x12, 0, 0, 5, 0, 0, 0, 255, 255, 255, 255] : List Byte); d.bootRecord 0x0001 = some r ∧ leNat r 4 4 = STALL_T.VAL.off) ∧
    (let d : Dev := { devOf [(MODE_STATUS.MODE, 2), (BOOT_STATUS.STATE, 2)] with mode := { image := List.replicate 256 0 ++ [2, 0, 0, 0, 8, 0x11, 0, 0, 1, 0, 0, 0, 0, 0, 0, 0, 7, 0, 0, 0] ++ [0, 0, 0, 0] } }; let r := ([2, 0, 0, 0, 8, 0x11, 0, 0, 1, 0, 0, 0, 0, 0, 0, 0, 7, 0, 0, 0] : List Byte); d.bootRecord 0x0002 = some r) ∧
    (let d : Dev := { devOf [(MODE_STATUS.MODE, 2), (BOOT_STATUS.STATE, 2)] with mode := { image := List.replicate 256 0 ++ [2, 0, 0, 0, 8, 0x11, 0, 0, 1, 0, 0, 0, 0, 0, 0, 0, 7, 0, 0, 0] ++ [0, 0, 0, 0] } }; let r := ([2, 0, 0, 0, 8, 0x11, 0, 0, 1, 0, 0, 0, 0, 0, 0, 0, 7, 0, 0, 0] : List Byte); d.bootRecord 0x0002 = some r) ∧
    (let d : Dev := { devOf [(MODE_STATUS.MODE, 2), (BOOT_STATUS.STATE, 2)] with mode := { image := List.replicate 256 0 ++ [3, 0, 3, 0x10, 2, 0x20, 0, 0, 0, 0, 0, 0, 0, 0, 0, 0] } }; let r := ([3, 0, 3, 0x10, 2, 0x20, 0, 0, 0, 0, 0, 0, 0, 0, 0, 0] : List Byte); let c := 1; let k := 3; d.bootRecord 0x0003 = some r ∧ leNat r 2 2 = 4096 * c + k ∧ k < ownCount c ∧ 1 ≤ byteAt r 4 % 16 ∧ byteAt r 4 % 16 ≤ ownFuncs c ∧ (c ≠ 4 ∨ k ≠ 0 ∨ byteAt r 4 % 16 = 1) ∧ claimMode c (byteAt r 4 % 16) Md.configure = true ∧ d.mem.err = [] ∧ d.pairGone 0x83 = false ∧ d.rd (OWN.STATE (ownIx c k)) = 0) ∧
    (let d : Dev := { devOf [(MODE_STATUS.MODE, 2), (BOOT_STATUS.STATE, 2)] with mode := { image := List.replicate 256 0 ++ [0xC5, 0, 4, 2, 16, 0, 0, 0, 8, 0, 0, 0, 32, 0, 0, 0, 1, 2, 3, 4, 5, 6, 7, 8] } }; let r := ([0xC5, 0, 4, 2, 16, 0, 0, 0, 8, 0, 0, 0, 32, 0, 0, 0, 1, 2, 3, 4, 5, 6, 7, 8] : List Byte); d.bootRecord 0x00C5 = some r ∧ byteAt r 3 = 2 ∧ d.bankOff (2 * byteAt r 2) = false) ∧
    (let d : Dev := devOf [(MODE_STATUS.MODE, 2), (BOOT_STATUS.STATE, 2)]; d.md = Md.configure ∧ d.rd BOOT_STATUS.STATE = 2 ∧ d.on BOOT_STATUS.APPLIED = false ∧ d.mode.image.length - 256 ≤ d.mode.bootPos ∧ d.mode.coreCode = 0 ∧ d.mode.afterSafe = false ∧ d.on MODE_CFG.AUTO_RAMP = false) := by
  refine ⟨?_, ?_, ?_, ?_, ?_, ?_, ?_, ?_, ?_, ?_, ?_⟩ <;> decide +kernel

/-- A state and operands that meet the premises of each clause of `TimeCommands`. -/
theorem test_TimeCommands :
    (let d : Dev := devOf [(MODE_STATUS.MODE, 4)]; let x := (⟨.host 2, false, false, 7, 0, 0, false, pay [0, 0, 0, 0, 9]⟩ : Desc); let k := 9; let ns := 0; d.blocked 0x03 x = false ∧ (d.begin 0x03 x).1.passes x (some 0) false none = true ∧ byteAt x.payload 0 < 32 ∧ byteAt x.payload 1 = 0 ∧ zeroBytes x.payload 2 3 = true ∧ zeroBytes x.payload 16 47 = true ∧ k = leNat x.payload 4 8 ∧ k < 2 ^ 48 ∧ ns = leNat x.payload 12 4 ∧ ns < 1000000000 ∧ (d.begin 0x03 x).1.pps = 0 ∧ (d.begin 0x03 x).1.now < 2 ^ 64) ∧
    (let d : Dev := devOf [(MODE_STATUS.MODE, 4)]; let x := (⟨.host 2, false, false, 7, 0, 0, false, pay [3, 1, 0, 0, 9]⟩ : Desc); let tm := 3; d.blocked 0x03 x = false ∧ (d.begin 0x03 x).1.passes x (some 0) false none = true ∧ byteAt x.payload 0 = tm ∧ tm < 32 ∧ byteAt x.payload 1 = 1 ∧ zeroBytes x.payload 2 3 = true ∧ zeroBytes x.payload 12 47 = true ∧ leNat x.payload 4 8 < 2 ^ 48 ∧ (d.begin 0x03 x).1.alignHeld = none ∧ (d.begin 0x03 x).1.mem.err = [] ∧ (d.begin 0x03 x).1.pairGone 0x83 = false ∧ (d.begin 0x03 x).1.rd (OWN.STATE (ownIx 1 tm)) = 0 ∧ (d.begin 0x03 x).1.md = Md.run) ∧
    (let d : Dev := { devOf [] with clk := { hub := true, now := 2000000000, alignOut := [{ tok := .out 9, acc := 5, sec := 7 }] } }; let a := ({ tok := .out 9, acc := 5, sec := 7 } : AlignReq); d.clk.alignOut = [a] ∧ a.acc + 1000000000 ≤ d.now) ∧
    (let d : Dev := { devOf [(PPS_STATUS.PPS_STATE, 1)] with clk := { hub := true, now := 2000, alignOut := [{ tok := .modeReg, acc := 5, sec := 8 }] } }; let a := ({ tok := .modeReg, acc := 5, sec := 8 } : AlignReq); d.clk.hub = true ∧ d.pps = 1 ∧ d.clk.alignOut = [a] ∧ a.acc < d.now ∧ d.now < a.acc + 1000000000 ∧ d.clk.alignTimer = none ∧ d.now < 2 ^ 64 ∧ a.sec < 2 ^ 48) ∧
    (let d : Dev := { devOf [(PPS_STATUS.PPS_STATE, 2)] with clk := { hub := true, now := 2000000000 } }; 2 ≤ d.pps ∧ d.epochTick + 800000000 + d.rd CLK_CFG.PPS_WIN ≤ d.now ∧ d.clk.ppsRun ≠ 2 ∧ d.epochTick + 800000000 < 2 ^ 64 ∧ d.epochS + 1 < 2 ^ 48) ∧
    (let d : Dev := devOf []; let a := (3 : Agent); d.clk.hub = true) ∧
    (let d : Dev := { devOf [] with clk := { hub := true, now := 7, copyOff := [(2, 5)], copyReload := [(2, 1)] } }; let k := (2 : Fin 5); let x := (1 : Int); d.linkUp (dieLink k) = true ∧ nget d.clk.copyReload k ≠ 0) ∧
    (let d : Dev := { devOf [] with clk := { hub := true, now := 7, copyOff := [(2, -1)] } }; let k := (2 : Fin 5); let x := (2 : Int); d.linkUp (dieLink k) = true ∧ nget d.clk.copyReload k = 0 ∧ ((KV.get (fun _ => (0 : Int)) d.clk.copyOff k + x).natAbs < 2)) ∧
    (let d : Dev := { devOf [] with clk := { hub := true, now := 7, copyOff := [(2, 1)] } }; let k := (2 : Fin 5); let x := (2 : Int); d.linkUp (dieLink k) = true ∧ nget d.clk.copyReload k = 0 ∧ (2 ≤ (KV.get (fun _ => (0 : Int)) d.clk.copyOff k + x).natAbs)) ∧
    (let d : Dev := { devOf [(OWN.STATE (ownIx 1 3), 1), (OWN.FUNCTION (ownIx 1 3), 1), (TMR_CFG.MODE 3, 1)] with clk := { hub := true, now := 700, timerDue := [(3, 600)], timerCmp := [(3, 599)] } }; let n := (3 : Fin 32); nget d.clk.timerDue n ≠ 0 ∧ nget d.clk.timerDue n ≤ d.now ∧ d.rd (OWN.STATE (ownIx 1 n)) = 1 ∧ d.rd (OWN.FUNCTION (ownIx 1 n)) = 1 ∧ d.rd (TMR_CFG.MODE n) = 1 ∧ d.rd (TMR_STATUS.PENDING n) = 0) ∧
    (let d : Dev := devOf []; let k := (1 : Fin 3); let m := ({ skew := 40, temp := -30, supply := 7 } : RegionDiff); d.clk.hub = true) ∧
    (let d : Dev := { devOf [(REG_CFG.REG_FILT, 5)] with clk := { hub := true, now := 700, regWin := [(4, 6)] } }; let k := (1 : Fin 3); let q := 1; d.clk.hub = true ∧ q < 3 ∧ nget d.clk.regWin (3 * k + q) ≠ 0 ∧ nget d.clk.regWin (3 * k + q) - 1 + d.rd REG_CFG.REG_FILT ≤ d.now) := by
  refine ⟨?_, ?_, ?_, ?_, ?_, ?_, ?_, ?_, ?_, ?_, ?_, ?_⟩ <;> decide +kernel

/-- A state and operands that meet the premises of each clause of `SelvageCommands`. -/
theorem test_SelvageCommands :
    (let d : Dev := (devOf [(SLOT.CODE 9, 0x10), (SLOT.LEVEL 9, 2), (FLT_MERGE.MERGE_WIN, 5)]).onSL 9 fun x => { x with win := some 5 }; let k := (9 : Fin 256); let w := 5; (d.SL k).win = some w ∧ d.slotUsed k = true ∧ w + d.mergeWin ≤ d.now ∧ (d.SL k).merged = false ∧ d.rd (SLOT.LEVEL k) ≠ 0) ∧
    (let d : Dev := { (devOf [(SLOT.CODE 9, 0x10), (SLOT.LEVEL 9, 2), (FLT_MERGE.MERGE_WIN, 5)]).onSL 9 (fun x => { x with win := some 5, merged := true }) with flt := { ring := true } }; let k := (9 : Fin 256); let w := 5; (d.SL k).win = some w ∧ d.slotUsed k = true ∧ w + d.mergeWin ≤ d.now ∧ (d.SL k).merged = true ∧ d.flt.ring = true) ∧
    (let d : Dev := { devOf [] with flt := { msgs := [{ kind := 0x84, unit := 2, agent := 0xEE, access := 0, aspace := 3, addr := 0, stamp := 7, level := 1 }] } }; let m := ({ kind := 0x84, unit := 2, agent := 0xEE, access := 0, aspace := 3, addr := 0, stamp := 7, level := 1 } : FMsg); let l := []; d.flt.msgs = m :: l ∧ d.clk.hub = true ∧ d.clk.rootLost = false) ∧
    (let d : Dev := { devOf [(MODE_STATUS.MODE, 4)] with flt := { msgs := [{ kind := 0x84, unit := 2, agent := 0xEE, access := 0, aspace := 3, addr := 0, stamp := 7, level := 1 }] } }; let m := ({ kind := 0x84, unit := 2, agent := 0xEE, access := 0, aspace := 3, addr := 0, stamp := 7, level := 1 } : FMsg); let l := []; let s := 0; d.flt.msgs = m :: l ∧ d.clk.hub = true ∧ d.clk.rootLost = false ∧ m.latch = false ∧ m.fence = 0 ∧ m.safe = false ∧ m.top < 4 ∧ fenceLevel m m.top = 0 ∧ d.slotOf m.kind m.unit = none ∧ d.slotNew m.level = some s ∧ d.flt.ring = false ∧ 1 ≤ m.top ∧ d.mem.err = []) ∧
    (let d : Dev := { devOf ((List.range 256).map fun k => (SLOT.CODE k, 0x10)) with flt := { msgs := [{ kind := 0x84, unit := 2, agent := 0xEE, access := 0, aspace := 3, addr := 0, stamp := 7, level := 1 }] } }; let m := ({ kind := 0x84, unit := 2, agent := 0xEE, access := 0, aspace := 3, addr := 0, stamp := 7, level := 1 } : FMsg); let l := []; d.flt.msgs = m :: l ∧ d.clk.hub = true ∧ d.clk.rootLost = false ∧ m.latch = false ∧ m.fence = 0 ∧ m.safe = false ∧ m.top < 4 ∧ fenceLevel m m.top = 0 ∧ d.slotOf m.kind m.unit = none ∧ d.slotNew m.level = none) ∧
    (let d : Dev := devOf [(MODE_STATUS.MODE, 4)]; d.clk.hub = true ∧ d.clk.rootLost = false ∧ d.md = Md.run) ∧
    (let d : Dev := devOf [(MODE_STATUS.MODE, 4)]; let c := (2 : Fin 3); d.clk.hub = true ∧ d.clk.rootLost = false ∧ c = 2) ∧
    (let d : Dev := devOf [(MODE_STATUS.MODE, 4)]; let c := (0 : Fin 3); d.clk.hub = true ∧ d.clk.rootLost = false ∧ c ≠ 2) ∧
    (let d : Dev := devOf []; let l := (2 : Fin 8); d.clk.hub = true ∧ d.link.lost.testBit l = false) ∧
    (let d : Dev := devOf []; let l := (2 : Fin 8); d.linkUp l = true) ∧
    (let d : Dev := { devOf [] with link := { fenced := 4, lost := 4 } }; let l := (2 : Fin 8); d.link.lost.testBit l = true ∧ d.link.fenced.testBit l = true) := by
  refine ⟨?_, ?_, ?_, ?_, ?_, ?_, ?_, ?_, ?_, ?_, ?_⟩ <;> decide +kernel

/-- A state and operands that meet the premises of each clause of `ConverterCommands`. -/
theorem test_ConverterCommands :
    (let d : Dev := devOf []; let c := (5 : Fin 632); let e := ({ slice := 1, ofs := 9, gain := -9, skew := some 2 } : Estimate); d.clk.hub = true ∧ d.clk.rootLost = false ∧ d.convLow c = false ∧ (d.C c).corrAt + 655360 ≤ d.now ∧ e.slice.val < sliceCount c ∧ d.sliceOut c e.slice = false) ∧
    (let d : Dev := { (devOf []).onC 5 (fun x => { x with limit := [(1, 6)] }) with clk := { hub := true, now := 5000000 } }; let c := (5 : Fin 632); let k := (1 : Fin 8); nget (d.C c).limit k ≠ 0 ∧ nget (d.C c).limit k - 1 + 4000000 ≤ d.now) ∧
    (let d : Dev := (devOf [(CV_STATUS.CAL_STATUS 5, 2), (CV_STATUS.FENCED 5, 2)]).onC 5 (fun x => { x with calLeft := [1] }); let c := (5 : Fin 632); let m := ({ ofs := 3, gain := -4 } : CalResult); let s := 1; (d.C c).calLeft = [s] ∧ s < sliceCount c ∧ d.rd (CV_STATUS.CAL_STATUS c) = 2 ∧ (d.C c).calEnd ≤ d.now ∧ (d.C c).calFail = false ∧ beyond m.ofs 10 = false ∧ beyond m.gain 10 = false) ∧
    (let d : Dev := (devOf [(CV_STATUS.CAL_STATUS 5, 2), (CV_STATUS.FENCED 5, 2)]).onC 5 (fun x => { x with calLeft := [1] }); let c := (5 : Fin 632); let m := ({ ofs := 3000, gain := -4 } : CalResult); let s := 1; (d.C c).calLeft = [s] ∧ s < sliceCount c ∧ d.rd (CV_STATUS.CAL_STATUS c) = 2 ∧ (d.C c).calEnd ≤ d.now ∧ beyond m.ofs 10 = true) ∧
    (let d : Dev := devOf []; let k := (2 : Fin 8); let s := (0 : Fin 64); let code := (77 : BitVec 12); let q := 0; d.onGrid (624 + k) = true ∧ d.lowPower = false ∧ s.val = d.slotNow ∧ ((d.calTurn (624 + k)).takeInst (624 + k)).sliceOut (624 + k) (s % 4) = false ∧ ((d.calTurn (624 + k)).takeInst (624 + k)).reservedNow k = some q) ∧
    (let d : Dev := { devOf [(INJ_STAT.STATE 2, 1)] with clk := { hub := true, now := 1280140 } }; let k := (2 : Fin 8); let s := (7 : Fin 64); let code := (77 : BitVec 12); d.onGrid (624 + k) = true ∧ d.lowPower = false ∧ s.val = d.slotNow ∧ ((d.calTurn (624 + k)).takeInst (624 + k)).sliceOut (624 + k) (s % 4) = false ∧ ((d.calTurn (624 + k)).takeInst (624 + k)).reservedNow k = none ∧ ((d.calTurn (624 + k)).takeInst (624 + k)).rd (INJ_STAT.STATE k) = 1) ∧
    (let d : Dev := { devOf [(SEQ_CFG.MODE 2, 2), (SEQ_CFG.LEN 2, 3)] with clk := { hub := true, now := 1280140 } }; let k := (2 : Fin 8); let s := (7 : Fin 64); let code := (77 : BitVec 12); d.onGrid (624 + k) = true ∧ d.lowPower = false ∧ s.val = d.slotNow ∧ ((d.calTurn (624 + k)).takeInst (624 + k)).sliceOut (624 + k) (s % 4) = false ∧ ((d.calTurn (624 + k)).takeInst (624 + k)).reservedNow k = none ∧ ((d.calTurn (624 + k)).takeInst (624 + k)).rd (INJ_STAT.STATE k) ≠ 1) ∧
    (let d : Dev := (devOf [(SEQ_CFG.ONCE 2, 1), (SEQ_STATUS.ACTIVE 2, 1)]).onSQ 2 (fun x => { x with passDone := true, pass := some 3, tEnd := 9 }); let k := (2 : Fin 8); (d.SQ k).passDone = true ∧ (d.SQ k).tEnd ≤ d.now ∧ d.on (SEQ_CFG.ONCE k) = true ∧ d.rd (SEQ_CFG.TRIG_SRC k) ≠ 8 + k.val) ∧
    (let d : Dev := (devOf [(INJ_STAT.STATE 2, 2)]).onSQ 2 (fun x => { x with injIns := 9, injVal := 77 }); let k := (2 : Fin 8); d.rd (INJ_STAT.STATE k) = 2 ∧ (d.SQ k).injIns + 80 ≤ d.now ∧ (d.SQ k).injVal < 65536) ∧
    (let d : Dev := { devOf [(ENT_CFG.TEMP_SRC 3, 1)] with clk := { hub := true, now := 5000000, ent := 5000000 } }; let u := (3 : Fin 80); u.val < 16 ∧ d.on (ENT_CFG.TEMP_SRC u) = true ∧ (d.E u).stale = false ∧ (d.E u).tAt.getD d.clk.entUp + 1280000 ≤ d.clk.ent) ∧
    (let d : Dev := { devOf [(BR_CFG.TEMP_SRC 4, 1)] with clk := { hub := true, now := 5000000, ent := 5000000 } }; let u := (20 : Fin 80); 16 ≤ u.val ∧ d.on (BR_CFG.TEMP_SRC (u - 16)) = true ∧ (d.B (u - 16)).stale = false ∧ (d.B (u - 16)).tAt.getD d.clk.entUp + 1280000 ≤ d.clk.ent) ∧
    (let d : Dev := devOf [(ENT_STATUS.STATE 3, 3), (MODE_STATUS.MODE, 4)]; let n := (3 : Fin 16); d.md ≠ Md.off ∧ d.onGrid (576 + 3 * n) = true ∧ d.es n ≠ Ec.inrush) ∧
    (let d : Dev := devOf [(MODE_STATUS.MODE, 4)]; let n := (3 : Fin 16); let m := (⟨5, 6, 7⟩ : EcvTriple); d.md ≠ Md.off ∧ d.onGrid (576 + 3 * n) = true ∧ d.sampled (576 + 3 * n) = true ∧ d.sampled (577 + 3 * n) = true ∧ d.sampled (578 + 3 * n) = true ∧ d.es n = Ec.off) := by
  refine ⟨?_, ?_, ?_, ?_, ?_, ?_, ?_, ?_, ?_, ?_, ?_, ?_, ?_⟩ <;> decide +kernel

/-- A state and operands that meet the premises of each clause of `SageCommands`. -/
theorem test_SageCommands :
    (let d : Dev := (devOf []).onIC 3 fun x => { x with stdby := false }; let n := (3 : Fin 24); let code := (99 : BitVec 24); let ovr := true; (d.IC n).opened + (d.IC n).period ≤ d.icvCount n ∧ n.val < 16) ∧
    (let d : Dev := (devOf [(SG_CFG.EN 1, 1)]).onSG 1 fun x => { x with hiN := 2 }; let p := (1 : Fin 4); d.on (SG_CFG.EN p) = true ∧ 2 ≤ (d.SG p).hiN ∧ d.on (SG_STATUS.PRESENT p) = false ∧ (d.SG p).settle = none) ∧
    (let d : Dev := (devOf [(SG_CFG.EN 1, 1)]).onSG 1 fun x => { x with settle := some 3, per := 300 }; let p := (1 : Fin 4); let k := 3; (d.SG p).settle = some k ∧ k + 200 ≤ (d.SG p).per) ∧
    (let d : Dev := (devOf [(SG_STATUS.PRESENT 1, 1), (SG_GEN.GEN 1, 7)]).onSG 1 fun x => { x with loN := 2 }; let p := (1 : Fin 4); 2 ≤ (d.SG p).loN ∧ d.on (SG_STATUS.PRESENT p) = true) ∧
    (let d : Dev := (devOf []).onSG 1 fun x => { x with tN := 100 }; let p := (1 : Fin 4); 100 ≤ (d.SG p).tN ∧ (d.SG p).tStale = false) ∧
    (let d : Dev := (devOf [(SG_REST_T.REST_T 1, 5)]).onSG 1 fun x => { x with restO := some 3, per := 300 }; let p := (1 : Fin 4); let k := 3; (d.SG p).restO = some k ∧ k + d.rd (SG_REST_T.REST_T p) ≤ (d.SG p).per ∧ (d.SG p).start = none) ∧
    (let d : Dev := (devOf []).onSG 1 fun x => { x with empty := some 3, per := 600 }; let p := (1 : Fin 4); let k := 3; (d.SG p).empty = some k ∧ k + 500 ≤ (d.SG p).per) ∧
    (let d : Dev := (devOf [(SG_CFG.EN 1, 1), (SG_GEN.GEN 1, 7), (SG_WB.WB_INTERVAL 1, 9)]).onSG 1 fun x => { x with per := 600 }; let p := (1 : Fin 4); d.on (SG_CFG.EN p) = true ∧ d.rd (SG_GEN.GEN p) ≠ (d.SG p).lastGen ∧ (d.SG p).lastPer + d.rd (SG_WB.WB_INTERVAL p) ≤ (d.SG p).per) ∧
    (let d : Dev := devOf [(SG_STATUS.WB_PENDING 1, 1), (SG_GEN.GEN 1, 7), (SG_CFG.EVT_RING 1, 2), (RG_STATUS.STATE 0x82, Rg.active), (RG_CFG.SIZE 0x82, 1)]; let p := (1 : Fin 4); d.on (SG_STATUS.WB_PENDING p) = true ∧ d.linkUp 7 = true ∧ d.lowPower = false ∧ (d.evTry (d.rd (SG_CFG.EVT_RING p)) (d.sageBytes p)).2 = true) ∧
    (let d : Dev := (devOf []).onSG 1 fun x => { x with t0 := some 3 }; let p := (1 : Fin 4); let k := 3; (d.SG p).t0 = some k ∧ (d.SG p).qualified = false ∧ d.lowPower = false ∧ k + 8000 ≤ d.now ∧ ((((d.SG p).hist.filter fun x => decide (k + 3440 ≤ x.1 ∧ x.1 < k + 4080)).length) ≠ 8)) ∧
    (let d : Dev := (devOf [(SG_SHUNT.RSHUNT 1, 100), (SG_IMP.IMP_STEP_MIN 1, 1), (SG_IMP.IMP_SHIFT 1, 2), (SG_RSER_L.VAL 1, 5)]).onSG 1 fun x => { x with t0 := some 1000000, quiet := true, iPre := 0, vPre := 15872, hist := ((List.range 8).map fun j => (1007000 - 80 * j, (1000 : Int), 900)) ++ (List.range 8).map fun j => (1004000 - 80 * j, (1000 : Int), 900) }; let p := (1 : Fin 4); let k := 1000000; let i5 := 8000; let il := 8000; let v5 := 7200; let vl := 7200; (d.SG p).t0 = some k ∧ (d.SG p).qualified = false ∧ d.lowPower = false ∧ k + 8000 ≤ d.now ∧ (((d.SG p).hist.filter fun x => decide (k + 3440 ≤ x.1 ∧ x.1 < k + 4080)).length = 8) ∧ (i5 = ((d.SG p).hist.filter fun x => decide (k + 3440 ≤ x.1 ∧ x.1 < k + 4080)).foldl (fun s x => s + x.2.1) 0) ∧ (v5 = ((d.SG p).hist.filter fun x => decide (k + 3440 ≤ x.1 ∧ x.1 < k + 4080)).foldl (fun s x => s + x.2.2) 0) ∧ d.histSum p 8 (k + 8000) = (il, vl, 8) ∧ (i5 * 16 - (d.SG p).iPre * 8).natAbs * 7500000 ≥ d.rd (SG_IMP.IMP_STEP_MIN p) * d.rd (SG_SHUNT.RSHUNT p) * 8192 * 8 * 16 ∧ (il * 8 - i5 * 8).natAbs * 7500000 * 4 ≤ d.rd (SG_IMP.IMP_STEP_MIN p) * d.rd (SG_SHUNT.RSHUNT p) * 8192 * 8 * 8 ∧ (d.SG p).quiet = true ∧ (((d.SG p).hist.all fun y => decide (y.1 < k + 8000)) = true)) ∧
    (let d : Dev := (devOf [(SG_SHUNT.RSHUNT 1, 100), (SG_IMP.IMP_STEP_MIN 1, 1), (SG_IMP.IMP_SHIFT 1, 2), (SG_RSER_L.VAL 1, 0)]).onSG 1 fun x => { x with t0 := some 1000000, quiet := false, iPre := 0, vPre := 15872, hist := ((List.range 8).map fun j => (1007000 - 80 * j, (1000 : Int), 900)) ++ (List.range 8).map fun j => (1004000 - 80 * j, (1000 : Int), 900) }; let p := (1 : Fin 4); let k := 1000000; let i5 := 8000; let il := 8000; let v5 := 7200; let vl := 7200; let m := microOhm (fDiv (fSub (meanVolts (d.SG 1).vPre 16) (meanVolts 7200 8)) (fSub (d.meanAmps 1 8000 8) (d.meanAmps 1 0 16))); let x := 0; let sh := 2; (d.SG p).t0 = some k ∧ (d.SG p).qualified = false ∧ d.lowPower = false ∧ k + 8000 ≤ d.now ∧ (((d.SG p).hist.filter fun x => decide (k + 3440 ≤ x.1 ∧ x.1 < k + 4080)).length = 8) ∧ (i5 = ((d.SG p).hist.filter fun x => decide (k + 3440 ≤ x.1 ∧ x.1 < k + 4080)).foldl (fun s x => s + x.2.1) 0) ∧ (v5 = ((d.SG p).hist.filter fun x => decide (k + 3440 ≤ x.1 ∧ x.1 < k + 4080)).foldl (fun s x => s + x.2.2) 0) ∧ d.histSum p 8 (k + 8000) = (il, vl, 8) ∧ (i5 * 16 - (d.SG p).iPre * 8).natAbs * 7500000 ≥ d.rd (SG_IMP.IMP_STEP_MIN p) * d.rd (SG_SHUNT.RSHUNT p) * 8192 * 8 * 16 ∧ (il * 8 - i5 * 8).natAbs * 7500000 * 4 ≤ d.rd (SG_IMP.IMP_STEP_MIN p) * d.rd (SG_SHUNT.RSHUNT p) * 8192 * 8 * 8 ∧ (d.SG p).quiet = false ∧ m = microOhm (fDiv (fSub (meanVolts (d.SG p).vPre 16) (meanVolts v5 8)) (fSub (d.meanAmps p i5 8) (d.meanAmps p (d.SG p).iPre 16))) ∧ x = d.rd (SG_RSER_L.VAL p) ∧ sh = d.rd (SG_IMP.IMP_SHIFT p) ∧ impOk m x = true ∧ 0 ≤ impBlend m x sh ∧ impBlend m x sh < 2 ^ 32) ∧
    (let d : Dev := (devOf [(SG_SHUNT.RSHUNT 1, 100), (SG_IMP.IMP_STEP_MIN 1, 1), (SG_IMP.IMP_SHIFT 1, 2), (SG_RSER_L.VAL 1, 4000000000)]).onSG 1 fun x => { x with t0 := some 1000000, quiet := false, iPre := 0, vPre := 15872, hist := ((List.range 8).map fun j => (1007000 - 80 * j, (1000 : Int), 900)) ++ (List.range 8).map fun j => (1004000 - 80 * j, (1000 : Int), 900) }; let p := (1 : Fin 4); let k := 1000000; let i5 := 8000; let il := 8000; let v5 := 7200; let vl := 7200; let m := microOhm (fDiv (fSub (meanVolts (d.SG 1).vPre 16) (meanVolts 7200 8)) (fSub (d.meanAmps 1 8000 8) (d.meanAmps 1 0 16))); let x := 4000000000; (d.SG p).t0 = some k ∧ (d.SG p).qualified = false ∧ d.lowPower = false ∧ k + 8000 ≤ d.now ∧ (((d.SG p).hist.filter fun x => decide (k + 3440 ≤ x.1 ∧ x.1 < k + 4080)).length = 8) ∧ (i5 = ((d.SG p).hist.filter fun x => decide (k + 3440 ≤ x.1 ∧ x.1 < k + 4080)).foldl (fun s x => s + x.2.1) 0) ∧ (v5 = ((d.SG p).hist.filter fun x => decide (k + 3440 ≤ x.1 ∧ x.1 < k + 4080)).foldl (fun s x => s + x.2.2) 0) ∧ d.histSum p 8 (k + 8000) = (il, vl, 8) ∧ (i5 * 16 - (d.SG p).iPre * 8).natAbs * 7500000 ≥ d.rd (SG_IMP.IMP_STEP_MIN p) * d.rd (SG_SHUNT.RSHUNT p) * 8192 * 8 * 16 ∧ (il * 8 - i5 * 8).natAbs * 7500000 * 4 ≤ d.rd (SG_IMP.IMP_STEP_MIN p) * d.rd (SG_SHUNT.RSHUNT p) * 8192 * 8 * 8 ∧ (d.SG p).quiet = false ∧ m = microOhm (fDiv (fSub (meanVolts (d.SG p).vPre 16) (meanVolts v5 8)) (fSub (d.meanAmps p i5 8) (d.meanAmps p (d.SG p).iPre 16))) ∧ x = d.rd (SG_RSER_L.VAL p) ∧ impOk m x = false) ∧
    (let d : Dev := (devOf [(SG_SHUNT.RSHUNT 1, 100), (SG_IMP.IMP_STEP_MIN 1, 65535), (SG_IMP.IMP_SHIFT 1, 2), (SG_RSER_L.VAL 1, 5)]).onSG 1 fun x => { x with t0 := some 1000000, quiet := false, iPre := 0, vPre := 15872, hist := ((List.range 8).map fun j => (1007000 - 80 * j, (1000 : Int), 900)) ++ (List.range 8).map fun j => (1004000 - 80 * j, (1000 : Int), 900) }; let p := (1 : Fin 4); let k := 1000000; let i5 := 8000; let v5 := 7200; (d.SG p).t0 = some k ∧ (d.SG p).qualified = false ∧ d.lowPower = false ∧ k + 8000 ≤ d.now ∧ (((d.SG p).hist.filter fun x => decide (k + 3440 ≤ x.1 ∧ x.1 < k + 4080)).length = 8) ∧ (i5 = ((d.SG p).hist.filter fun x => decide (k + 3440 ≤ x.1 ∧ x.1 < k + 4080)).foldl (fun s x => s + x.2.1) 0) ∧ (v5 = ((d.SG p).hist.filter fun x => decide (k + 3440 ≤ x.1 ∧ x.1 < k + 4080)).foldl (fun s x => s + x.2.2) 0) ∧ (i5 * 16 - (d.SG p).iPre * 8).natAbs * 7500000 < d.rd (SG_IMP.IMP_STEP_MIN p) * d.rd (SG_SHUNT.RSHUNT p) * 8192 * 8 * 16) ∧
    (let d : Dev := (devOf [(SG_SHUNT.RSHUNT 1, 100), (SG_IMP.IMP_STEP_MIN 1, 1), (SG_IMP.IMP_SHIFT 1, 2), (SG_RSER_L.VAL 1, 5)]).onSG 1 fun x => { x with t0 := some 1000000, quiet := false, iPre := 0, vPre := 15872, hist := ((List.range 8).map fun j => (1007000 - 80 * j, (9000 : Int), 900)) ++ (List.range 8).map fun j => (1004000 - 80 * j, (1000 : Int), 900) }; let p := (1 : Fin 4); let k := 1000000; let i5 := 8000; let il := 72000; let v5 := 7200; let vl := 7200; (d.SG p).t0 = some k ∧ (d.SG p).qualified = false ∧ d.lowPower = false ∧ k + 8000 ≤ d.now ∧ (((d.SG p).hist.filter fun x => decide (k + 3440 ≤ x.1 ∧ x.1 < k + 4080)).length = 8) ∧ (i5 = ((d.SG p).hist.filter fun x => decide (k + 3440 ≤ x.1 ∧ x.1 < k + 4080)).foldl (fun s x => s + x.2.1) 0) ∧ (v5 = ((d.SG p).hist.filter fun x => decide (k + 3440 ≤ x.1 ∧ x.1 < k + 4080)).foldl (fun s x => s + x.2.2) 0) ∧ d.histSum p 8 (k + 8000) = (il, vl, 8) ∧ d.rd (SG_IMP.IMP_STEP_MIN p) * d.rd (SG_SHUNT.RSHUNT p) * 8192 * 8 * 8 < (il * 8 - i5 * 8).natAbs * 7500000 * 4) ∧
    (let d : Dev := { (devOf [(SG_SHUNT.RSHUNT 1, 100)]).onSG 1 (fun x => { x with t0 := some 3, qualified := true }) with clk := { hub := true, now := 9000000 } }; let p := (1 : Fin 4); let k := 3; (d.SG p).t0 = some k ∧ (d.SG p).qualified = true ∧ d.lowPower = false ∧ k + 8000000 ≤ d.now) ∧
    (let d : Dev := { (devOf [(SG_SHUNT.RSHUNT 1, 100), (SG_TPOL.TPOL1 1, 100), (SG_TPOL.TPOL2 1, 10)]).onSG 1 (fun x => { x with t0 := some 3, qualified := true, i5 := 8000, v5 := 7200, vPre := 16000, hist := ((List.range 16).map fun j => (7900003 - 80 * j, (1000 : Int), 800)) ++ (List.range 16).map fun j => (800003 - 80 * j, (1000 : Int), 850) }) with clk := { hub := true, now := 9000000 } }; let p := (1 : Fin 4); let k := 3; let di := fSub (d.meanAmps 1 (d.SG 1).i5 8) (d.meanAmps 1 (d.SG 1).iPre 16); let rs := fDiv (fSub (meanVolts (d.SG 1).vPre 16) (meanVolts (d.SG 1).v5 8)) di; let x := 0; let sh := d.rd (SG_IMP.IMP_SHIFT 1); (d.SG p).t0 = some k ∧ (d.SG p).qualified = true ∧ d.lowPower = false ∧ k + 8000000 ≤ d.now ∧ di = fSub (d.meanAmps p (d.SG p).i5 8) (d.meanAmps p (d.SG p).iPre 16) ∧ rs = fDiv (fSub (meanVolts (d.SG p).vPre 16) (meanVolts (d.SG p).v5 8)) di ∧ x = d.rd (SG_RSER_L.VAL p) ∧ sh = d.rd (SG_IMP.IMP_SHIFT p) ∧ impOk (microOhm rs) x = true ∧ 0 ≤ impBlend (microOhm rs) x sh ∧ impBlend (microOhm rs) x sh < 2 ^ 32) ∧
    (let d : Dev := { (devOf [(SG_SHUNT.RSHUNT 1, 100), (SG_TPOL.TPOL1 1, 100), (SG_TPOL.TPOL2 1, 10)]).onSG 1 (fun x => { x with t0 := some 3, qualified := true, i5 := 8000, v5 := 7200, vPre := 16000, hist := ((List.range 16).map fun j => (7900003 - 80 * j, (1000 : Int), 800)) ++ (List.range 16).map fun j => (800003 - 80 * j, (1000 : Int), 850) }) with clk := { hub := true, now := 9000000 } }; let p := (1 : Fin 4); let k := 3; let di := fSub (d.meanAmps 1 (d.SG 1).i5 8) (d.meanAmps 1 (d.SG 1).iPre 16); let rs := fDiv (fSub (meanVolts (d.SG 1).vPre 16) (meanVolts (d.SG 1).v5 8)) di; let a1 := 16000; let a10 := 16000; let b1 := 13600; let b10 := 12800; let d1 := fSub (fDiv (fSub (meanVolts (d.SG 1).vPre 16) (meanVolts b1 16)) di) rs; let d10 := fSub (fDiv (fSub (meanVolts (d.SG 1).vPre 16) (meanVolts b10 16)) di) rs; let g11 := fSub (fInt 1) (fExpNeg 1000 (d.rd (SG_TPOL.TPOL1 1) * 10)); let g12 := fSub (fInt 1) (fExpNeg 1000 (d.rd (SG_TPOL.TPOL2 1) * 1000)); let g21 := fSub (fInt 1) (fExpNeg 10000 (d.rd (SG_TPOL.TPOL1 1) * 10)); let g22 := fSub (fInt 1) (fExpNeg 10000 (d.rd (SG_TPOL.TPOL2 1) * 1000)); let det := fSub (fMul g11 g22) (fMul g12 g21); let m1 := microOhm (fDiv (fSub (fMul d1 g22) (fMul d10 g12)) det); let m2 := microOhm (fDiv (fSub (fMul g11 d10) (fMul g21 d1)) det); let sh := d.rd (SG_IMP.IMP_SHIFT 1); (d.SG p).t0 = some k ∧ (d.SG p).qualified = true ∧ d.lowPower = false ∧ k + 8000000 ≤ d.now ∧ di = fSub (d.meanAmps p (d.SG p).i5 8) (d.meanAmps p (d.SG p).iPre 16) ∧ rs = fDiv (fSub (meanVolts (d.SG p).vPre 16) (meanVolts (d.SG p).v5 8)) di ∧ d.histSum p 16 (k + 800000) = (a1, b1, 16) ∧ d.histSum p 16 (k + 8000000) = (a10, b10, 16) ∧ d1 = fSub (fDiv (fSub (meanVolts (d.SG p).vPre 16) (meanVolts b1 16)) di) rs ∧ d10 = fSub (fDiv (fSub (meanVolts (d.SG p).vPre 16) (meanVolts b10 16)) di) rs ∧ g11 = fSub (fInt 1) (fExpNeg 1000 (d.rd (SG_TPOL.TPOL1 p) * 10)) ∧ g12 = fSub (fInt 1) (fExpNeg 1000 (d.rd (SG_TPOL.TPOL2 p) * 1000)) ∧ g21 = fSub (fInt 1) (fExpNeg 10000 (d.rd (SG_TPOL.TPOL1 p) * 10)) ∧ g22 = fSub (fInt 1) (fExpNeg 10000 (d.rd (SG_TPOL.TPOL2 p) * 1000)) ∧ det = fSub (fMul g11 g22) (fMul g12 g21) ∧ m1 = microOhm (fDiv (fSub (fMul d1 g22) (fMul d10 g12)) det) ∧ m2 = microOhm (fDiv (fSub (fMul g11 d10) (fMul g21 d1)) det) ∧ sh = d.rd (SG_IMP.IMP_SHIFT p) ∧ impOk m1 (d.rd (SG_RPOL1_L.VAL p)) = true ∧ impOk m2 (d.rd (SG_RPOL2_L.VAL p)) = true ∧ 0 ≤ impBlend m1 (d.rd (SG_RPOL1_L.VAL p)) sh ∧ impBlend m1 (d.rd (SG_RPOL1_L.VAL p)) sh < 2 ^ 32 ∧ 0 ≤ impBlend m2 (d.rd (SG_RPOL2_L.VAL p)) sh ∧ impBlend m2 (d.rd (SG_RPOL2_L.VAL p)) sh < 2 ^ 32) ∧
    (let d : Dev := { (devOf [(SG_SHUNT.RSHUNT 1, 100), (SG_TPOL.TPOL1 1, 100), (SG_RPOL2_L.VAL 1, 1), (SG_TPOL.TPOL2 1, 10)]).onSG 1 (fun x => { x with t0 := some 3, qualified := true, i5 := 8000, v5 := 7200, vPre := 16000, hist := ((List.range 16).map fun j => (7900003 - 80 * j, (1000 : Int), 800)) ++ (List.range 16).map fun j => (800003 - 80 * j, (1000 : Int), 850) }) with clk := { hub := true, now := 9000000 } }; let p := (1 : Fin 4); let k := 3; let di := fSub (d.meanAmps 1 (d.SG 1).i5 8) (d.meanAmps 1 (d.SG 1).iPre 16); let rs := fDiv (fSub (meanVolts (d.SG 1).vPre 16) (meanVolts (d.SG 1).v5 8)) di; let a1 := 16000; let a10 := 16000; let b1 := 13600; let b10 := 12800; let d1 := fSub (fDiv (fSub (meanVolts (d.SG 1).vPre 16) (meanVolts b1 16)) di) rs; let d10 := fSub (fDiv (fSub (meanVolts (d.SG 1).vPre 16) (meanVolts b10 16)) di) rs; let g11 := fSub (fInt 1) (fExpNeg 1000 (d.rd (SG_TPOL.TPOL1 1) * 10)); let g12 := fSub (fInt 1) (fExpNeg 1000 (d.rd (SG_TPOL.TPOL2 1) * 1000)); let g21 := fSub (fInt 1) (fExpNeg 10000 (d.rd (SG_TPOL.TPOL1 1) * 10)); let g22 := fSub (fInt 1) (fExpNeg 10000 (d.rd (SG_TPOL.TPOL2 1) * 1000)); let det := fSub (fMul g11 g22) (fMul g12 g21); let m1 := microOhm (fDiv (fSub (fMul d1 g22) (fMul d10 g12)) det); let m2 := microOhm (fDiv (fSub (fMul g11 d10) (fMul g21 d1)) det); (d.SG p).t0 = some k ∧ (d.SG p).qualified = true ∧ d.lowPower = false ∧ k + 8000000 ≤ d.now ∧ di = fSub (d.meanAmps p (d.SG p).i5 8) (d.meanAmps p (d.SG p).iPre 16) ∧ rs = fDiv (fSub (meanVolts (d.SG p).vPre 16) (meanVolts (d.SG p).v5 8)) di ∧ d.histSum p 16 (k + 800000) = (a1, b1, 16) ∧ d.histSum p 16 (k + 8000000) = (a10, b10, 16) ∧ d1 = fSub (fDiv (fSub (meanVolts (d.SG p).vPre 16) (meanVolts b1 16)) di) rs ∧ d10 = fSub (fDiv (fSub (meanVolts (d.SG p).vPre 16) (meanVolts b10 16)) di) rs ∧ g11 = fSub (fInt 1) (fExpNeg 1000 (d.rd (SG_TPOL.TPOL1 p) * 10)) ∧ g12 = fSub (fInt 1) (fExpNeg 1000 (d.rd (SG_TPOL.TPOL2 p) * 1000)) ∧ g21 = fSub (fInt 1) (fExpNeg 10000 (d.rd (SG_TPOL.TPOL1 p) * 10)) ∧ g22 = fSub (fInt 1) (fExpNeg 10000 (d.rd (SG_TPOL.TPOL2 p) * 1000)) ∧ det = fSub (fMul g11 g22) (fMul g12 g21) ∧ m1 = microOhm (fDiv (fSub (fMul d1 g22) (fMul d10 g12)) det) ∧ m2 = microOhm (fDiv (fSub (fMul g11 d10) (fMul g21 d1)) det) ∧ (impOk m1 (d.rd (SG_RPOL1_L.VAL p)) = false ∨ impOk m2 (d.rd (SG_RPOL2_L.VAL p)) = false)) := by
  refine ⟨?_, ?_, ?_, ?_, ?_, ?_, ?_, ?_, ?_, ?_, ?_, ?_, ?_, ?_, ?_, ?_, ?_, ?_, ?_⟩ <;> decide +kernel

/-- A state and operands that meet the premises of each clause of `MemoryCommands`. -/
theorem test_MemoryCommands :
    (let d : Dev := devOf [(MODE_STATUS.MODE, 7)]; let a := (0 : Agent); let b := (0x50 : BitVec 12); d.clk.hub = true ∧ d.md = Md.factory ∧ allBanks.contains b.toNat = true) ∧
    (let d : Dev := devOf [(MODE_STATUS.MODE, 7)]; let a := (0 : Agent); let b := (0x50 : BitVec 12); d.clk.hub = true ∧ d.md = Md.factory ∧ allBanks.contains b.toNat = true ∧ b.toNat < 0x90) ∧
    (let d : Dev := devOf [(MODE_STATUS.MODE, 4)]; let a := (0 : Agent); let b := (0x50 : BitVec 12); d.clk.hub = true ∧ d.md ≠ Md.factory ∧ d.on DEV_WIGN.SET = false) ∧
    (let d : Dev := devOf [(MODE_STATUS.MODE, 4)]; let a := (0 : Agent); let b := (0x50 : BitVec 12); d.clk.hub = true ∧ d.md ≠ Md.factory) ∧
    (let d : Dev := { devOf [(MEM_STATUS.SB_INIT_DONE, 1)] with mem := { init := [0x50], stall := [.registerReadClear 0 { off := 0x800008 }], data := [(bankKey 0x50 9, 7)] } }; let bad := [0x51]; let b := 0x50; let a := (0 : Agent); let x := ({ off := 0x800008 } : ReadAt); d.clk.hub = true ∧ d.on MEM_STATUS.SB_INIT_DONE = true ∧ d.mem.init = [b] ∧ b < 160 ∧ bad.contains b = false ∧ d.mode.pendingCfg = false ∧ d.mem.stall = [.registerReadClear a x] ∧ inWindow x.off.toNat = true ∧ viaBar a.toNat = true ∧ x.len = 4 ∧ x.off.toNat % 4 = 0 ∧ (windowBank x.off.toNat).1 = b ∧ d.granErr b ((windowBank x.off.toNat).2 / 8) = 0) ∧
    (let d : Dev := { (devOf [(MEM_RAW_ADDR.BANK, 0x50), (MEM_RAW_ADDR.GRAN, 3)]).setBankOff 0x50 true with mem := { err := [(granKey 0x50 3, 4)], data := [(bankKey 0x50 25, 7)] } }; let a := (0 : Agent); let b := 0x50; let g := 3; d.clk.hub = true ∧ b = d.rd MEM_RAW_ADDR.BANK ∧ g = d.rd MEM_RAW_ADDR.GRAN ∧ d.bankOff b = true ∧ 8 * g < bankSize b) ∧
    (let d : Dev := { (devOf [(MEM_RAW_ADDR.BANK, 0x50), (MEM_RAW_ADDR.GRAN, 3), (MEM_RAW_DLO.DLO, 0x12345678), (MEM_RAW_DHI.DHI, 0x9ABCDEF0)]).setBankOff 0x50 true with mem := { err := [(granKey 0x50 3, 4)], data := [(bankKey 0x50 25, 7)] } }; let a := (0 : Agent); let b := 0x50; let g := 3; d.clk.hub = true ∧ b = d.rd MEM_RAW_ADDR.BANK ∧ g = d.rd MEM_RAW_ADDR.GRAN ∧ d.bankOff b = true ∧ 8 * g < bankSize b ∧ bankTables b = []) ∧
    (let d : Dev := devOf []; let a := (0 : Agent); d.clk.hub = true ∧ d.rawOk = false) ∧
    (let d : Dev := devOf [(MEM_CFG.SCRUB_EN, 1)]; let r := (1 : Fin 6); let b := 0; let g := 0; let m := 264192; d.on MEM_CFG.SCRUB_EN = true ∧ d.clk.hub = true ∧ d.clk.rootLost = false ∧ d.mem.init = [] ∧ (m = ((scrubBanks r).map fun b => bankSize b / 8).sum) ∧ nget d.mem.scrub r + 1 < m ∧ nget d.mem.scrubAt r + nget d.mem.scrub r * d.scrubPeriod / m ≤ d.now ∧ granAt (scrubBanks r) (nget d.mem.scrub r) = some (b, g) ∧ d.bankOff b = false) ∧
    (let d : Dev := devOf [(MEM_CFG.SCRUB_EN, 1)]; let r := (1 : Fin 6); let b := 0; let g := 0; let m := 264192; d.on MEM_CFG.SCRUB_EN = true ∧ d.clk.hub = true ∧ d.clk.rootLost = false ∧ d.mem.init = [] ∧ (m = ((scrubBanks r).map fun b => bankSize b / 8).sum) ∧ nget d.mem.scrub r + 1 < m ∧ nget d.mem.scrubAt r + nget d.mem.scrub r * d.scrubPeriod / m ≤ d.now ∧ granAt (scrubBanks r) (nget d.mem.scrub r) = some (b, g) ∧ bankPartner b = none ∧ d.bankOff b = false ∧ d.granErr b g = 0) ∧
    (let d : Dev := { devOf [(MEM_CFG.SCRUB_EN, 1)] with mem := { err := [(granKey 0 0, BitVec.ofNat 80 (2 ^ 33))] } }; let r := (1 : Fin 6); let b := 0; let g := 0; let m := 264192; let j := 33; d.on MEM_CFG.SCRUB_EN = true ∧ d.clk.hub = true ∧ d.clk.rootLost = false ∧ d.mem.init = [] ∧ (m = ((scrubBanks r).map fun b => bankSize b / 8).sum) ∧ nget d.mem.scrub r + 1 < m ∧ nget d.mem.scrubAt r + nget d.mem.scrub r * d.scrubPeriod / m ≤ d.now ∧ granAt (scrubBanks r) (nget d.mem.scrub r) = some (b, g) ∧ bankPartner b = none ∧ d.bankOff b = false ∧ j < 80 ∧ d.granErr b g = BitVec.ofNat 80 (2 ^ j)) ∧
    (let d : Dev := { devOf [(MEM_CFG.SCRUB_EN, 1)] with mem := { err := [(granKey 0 0, BitVec.ofNat 80 3)] } }; let r := (1 : Fin 6); let b := 0; let g := 0; let m := 264192; d.on MEM_CFG.SCRUB_EN = true ∧ d.clk.hub = true ∧ d.clk.rootLost = false ∧ d.mem.init = [] ∧ (m = ((scrubBanks r).map fun b => bankSize b / 8).sum) ∧ nget d.mem.scrub r + 1 < m ∧ nget d.mem.scrubAt r + nget d.mem.scrub r * d.scrubPeriod / m ≤ d.now ∧ granAt (scrubBanks r) (nget d.mem.scrub r) = some (b, g) ∧ bankPartner b = none ∧ d.bankOff b = false ∧ d.decoded b g = none) ∧
    (let d : Dev := (devOf [(MEM_CFG.SCRUB_EN, 1)]).setBankOff 0 true; let r := (1 : Fin 6); let b := 0; let g := 0; let m := 264192; d.on MEM_CFG.SCRUB_EN = true ∧ d.clk.hub = true ∧ d.clk.rootLost = false ∧ d.mem.init = [] ∧ (m = ((scrubBanks r).map fun b => bankSize b / 8).sum) ∧ nget d.mem.scrub r + 1 < m ∧ nget d.mem.scrubAt r + nget d.mem.scrub r * d.scrubPeriod / m ≤ d.now ∧ granAt (scrubBanks r) (nget d.mem.scrub r) = some (b, g) ∧ bankPartner b = none ∧ d.bankOff b = true) ∧
    (let d : Dev := { devOf [(MEM_STATUS.SB_INIT_DONE, 1)] with mem := { init := [0x50] } }; let bad := [0x51]; let b := 0x50; d.on MEM_STATUS.SB_INIT_DONE = true ∧ d.mem.init = [b] ∧ b < 160 ∧ bad.contains b = false ∧ d.mode.pendingCfg = false ∧ d.mem.stall = []) ∧
    (let d : Dev := { devOf [(MEM_STATUS.SB_INIT_DONE, 1)] with mem := { init := [0x50] } }; let bad := [0x50]; let b := 0x50; d.on MEM_STATUS.SB_INIT_DONE = true ∧ d.mem.init = [b] ∧ b < 160 ∧ bad.contains b = true ∧ d.mode.pendingCfg = false ∧ d.mem.stall = []) ∧
    (let d : Dev := { (devOf []).setBankOff 0x81 true with mem := { copying := [0x81], err := [(granKey 0x81 3, 1), (granKey 0x82 5, 9)] } }; let b := (0x81 : BitVec 12); let p := 0x82; bankPartner b.toNat = some p ∧ d.mem.copying.contains b.toNat = true) := by
  refine ⟨?_, ?_, ?_, ?_, ?_, ?_, ?_, ?_, ?_, ?_, ?_, ?_, ?_, ?_, ?_, ?_⟩ <;> decide +kernel

/-- A state and operands that meet the premises of each clause of `RingCommands`. -/
theorem test_RingCommands :
    (let d : Dev := devOf [(RG_STATUS.STATE 3, Rg.active), (RG_CFG.EN 3, 1), (RG_CFG.SIZE 3, 1), (RG_PI.PI 3, 1), (RG_CFG.CQ 3, 5), (RG_STATUS.STATE 0x45, Rg.active), (RG_CFG.EN 0x45, 1)]; let k := 3; let s := (Src.host 3); let n := 3; let b := List.replicate 64 0; d.clk.hub = true ∧ d.bmc.busy = false ∧ d.fetchTurn = some (k, s, n) ∧ (({ d with host := { d.host with rr := (k + 1) % 85 } } : Dev).readDesc s n).2 = some b) ∧
    (let d : Dev := devOf [(RG_STATUS.STATE 3, Rg.active), (RG_CFG.EN 3, 1), (RG_CFG.SIZE 3, 1), (RG_PI.PI 3, 1), (RG_CFG.CQ 3, 5), (RG_STATUS.STATE 0x45, Rg.active), (RG_CFG.EN 0x45, 1)]; let k := 3; let h := (3 : Fin 64); let n := 3; d.clk.hub = true ∧ d.bmc.busy = false ∧ d.fetchTurn = some (k, .host h, n) ∧ opcodes.contains (byteAt (d.hRd (d.rgBase n + 64 * ((d.RG n).fetched % d.rgSize n)) 64) 0) = true ∧ byteAt (d.hRd (d.rgBase n + 64 * ((d.RG n).fetched % d.rgSize n)) 64) 0 ≠ 2) ∧
    (let d : Dev := (devOf [(RG_STATUS.STATE 3, Rg.active), (RG_CFG.EN 3, 1), (RG_CFG.SIZE 3, 1), (RG_PI.PI 3, 1), (RG_CFG.CQ 3, 5), (RG_STATUS.STATE 0x45, Rg.active), (RG_CFG.EN 0x45, 1), (STALL_T.VAL, 5)]).onRG 3 fun x => { x with fetchAt := some 5 }; let s := (Src.host 3); let n := 3; s.ring = some n ∧ d.clk.hub = true ∧ d.eligible n = true ∧ closed d.now (d.RG n).fetchAt d.stallT = true) ∧
    (let d : Dev := (devOf [(RG_STATUS.STATE 3, Rg.active), (RG_CFG.EN 3, 1), (RG_CFG.SIZE 3, 1), (RG_PI.PI 3, 1), (RG_CFG.CQ 3, 5), (RG_STATUS.STATE 0x45, Rg.active), (RG_CFG.EN 0x45, 1), (STALL_T.VAL, 5)]).onRG 3 fun x => { x with fetchAt := some 5 }; let s := (Src.host 3); let n := 3; s.ring = some n ∧ d.clk.hub = true ∧ d.eligible n = true) ∧
    (let d : Dev := { devOf [(RG_STATUS.STATE 3, Rg.active), (RG_CFG.EN 3, 1), (RG_CFG.SIZE 3, 1), (RG_PI.PI 3, 1), (RG_CFG.CQ 3, 5), (RG_STATUS.STATE 0x45, Rg.active), (RG_CFG.EN 0x45, 1)] with host := { out := [{ id := 4, opc := 0, d := { src := .host 3, tag := 7, cls := 0, idx := 0, payload := [] }, begun := true, result := some (0, 900) }] } }; let n := (3 : Fin 64); let x := ({ id := 4, opc := 0, d := { src := .host 3, tag := 7, cls := 0, idx := 0, payload := [] }, begun := true, result := some (0, 900) } : Out); let st := 0; let k := 900; d.clk.hub = true ∧ d.host.fences = [] ∧ d.headOut (.host n) = some x ∧ x.result = some (st, k) ∧ x.drop = false ∧ x.old = false ∧ (x.d.sup = true → st ≠ St.success) ∧ d.rgRoom (0x40 + d.rd (RG_CFG.CQ n)) = true) ∧
    (let d : Dev := { devOf [(RG_STATUS.STATE 3, Rg.active), (RG_CFG.EN 3, 1), (RG_CFG.SIZE 3, 1), (RG_PI.PI 3, 1), (RG_CFG.CQ 3, 5), (RG_STATUS.STATE 0x45, Rg.active), (RG_CFG.EN 0x45, 1)] with host := { out := [{ id := 4, opc := 0, d := { src := .host 3, tag := 7, sup := true, cls := 0, idx := 0, payload := [] }, begun := true, result := some (0, 900) }] } }; let n := (3 : Fin 64); let x := ({ id := 4, opc := 0, d := { src := .host 3, tag := 7, sup := true, cls := 0, idx := 0, payload := [] }, begun := true, result := some (0, 900) } : Out); let k := 900; d.clk.hub = true ∧ d.host.fences = [] ∧ d.headOut (.host n) = some x ∧ x.result = some (St.success, k) ∧ x.drop = false ∧ x.old = false ∧ x.d.sup = true) := by
  refine ⟨?_, ?_, ?_, ?_, ?_, ?_⟩ <;> decide +kernel

/-- A state and operands that meet the premises of each clause of `RingControl`. -/
theorem test_RingControl :
    (let d : Dev := devOf [(RG_PI.PI 0x45, 7)]; let a := (0 : Agent); let n := (0x45 : Fin 384); d.clk.hub = true ∧ d.rgState n = Rg.disabled ∧ d.rgValid n = true ∧ n.val < 0x80) ∧
    (let d : Dev := devOf [(RG_STATUS.STATE 3, Rg.active), (RG_CFG.EN 3, 1), (RG_CFG.SIZE 3, 1), (RG_PI.PI 3, 1), (RG_CFG.CQ 3, 5), (RG_STATUS.STATE 0x45, Rg.active), (RG_CFG.EN 0x45, 1)]; let a := (0 : Agent); let n := (3 : Fin 384); d.clk.hub = true ∧ d.on (RG_CFG.EN n) = true ∧ n.val < 0x40 ∧ d.rgState n = Rg.active) ∧
    (let d : Dev := devOf [(RG_STATUS.STATE 0x83, Rg.active), (RG_CFG.EN 0x83, 1)]; let a := (0 : Agent); let n := (0x83 : Fin 384); d.clk.hub = true ∧ d.on (RG_CFG.EN n) = true ∧ 0x80 ≤ n.val ∧ d.rgState n = Rg.active) ∧
    (let d : Dev := devOf [(RG_STATUS.STATE 3, Rg.draining)]; let n := (3 : Fin 64); d.clk.hub = true ∧ d.rgState n = Rg.draining ∧ d.headOut (.host n) = none) ∧
    (let d : Dev := devOf [(RG_STATUS.STATE 3, Rg.active), (RG_CFG.EN 3, 1), (RG_CFG.SIZE 3, 1), (RG_PI.PI 3, 1), (RG_CFG.CQ 3, 5), (RG_STATUS.STATE 0x45, Rg.active), (RG_CFG.EN 0x45, 1)]; let w := ({ off := 0x1800, data := 0x200000003, whole := true } : Doorbell); d.clk.hub = true ∧ w.ok = true ∧ w.ring < 0x40 ∧ d.rgState w.ring = Rg.active ∧ d.rgFill w.ring + ahead w.index (d.rd (RG_PI.PI w.ring)) ≤ d.rgSize w.ring) ∧
    (let d : Dev := devOf [(RG_STATUS.STATE 3, Rg.active), (RG_CFG.EN 3, 1), (RG_CFG.SIZE 3, 1), (RG_PI.PI 3, 1), (RG_CFG.CQ 3, 5), (RG_STATUS.STATE 0x45, Rg.active), (RG_CFG.EN 0x45, 1)]; let w := ({ off := 0x1800, data := 0x200000003, whole := false } : Doorbell); d.clk.hub = true ∧ w.ok = false) ∧
    (let d : Dev := devOf [(RG_STATUS.STATE 0x45, Rg.active), (RG_CFG.SIZE 0x45, 1), (RG_PI.PI 0x45, 4)]; let w := ({ off := 0x800 * 0x45, data := 0x200000000 + 0x45, whole := true } : Doorbell); d.clk.hub = true ∧ w.ok = true ∧ 0x40 ≤ w.ring ∧ w.ring < 0x80 ∧ d.rgState w.ring = Rg.active ∧ ahead w.index (d.rd (RG_CI.CI w.ring)) ≤ d.rgFill w.ring) ∧
    (let d : Dev := devOf [(RG_STATUS.STATE 0x85, Rg.active), (RG_CFG.SIZE 0x85, 1), (RG_PI.PI 0x85, 4)]; let w := ({ off := 0x800 * 0x85, data := 0x200000000 + 0x85, whole := true } : Doorbell); d.clk.hub = true ∧ w.ok = true ∧ 0x80 ≤ w.ring ∧ w.ring < 0x180 ∧ d.rgState w.ring = Rg.active ∧ ahead w.index (d.rd (RG_CI.CI w.ring)) ≤ d.rgFill w.ring) ∧
    (let d : Dev := { devOf [] with host := { rep := [3, 4, 5] } }; let w := ({ off := 0xC0000, data := 0x200000180, whole := true } : Doorbell); d.clk.hub = true ∧ w.ok = true ∧ w.ring = 0x180 ∧ ahead w.index d.host.ret ≤ d.host.rep.length ∧ d.host.pool.length + d.host.rep.length < 65536) ∧
    (let d : Dev := { (devOf [(CTX.STATE 9, 1), (CTX.CFG 9 21, 1)]).onT 9 (fun x => { x with wr := 0x50000 }) with mode := { archMode := true } }; let w := ({ off := 0xC0800, data := 0x200001009, whole := true } : Doorbell); let k := 9; d.clk.hub = true ∧ w.ok = true ∧ 0x1000 ≤ w.ring ∧ k = w.ring - 0x1000 ∧ d.mode.archMode = true ∧ d.tState k ≠ 0 ∧ d.tDest k = 1 ∧ ((d.T k).rd + ahead w.index ((d.T k).rd % 2 ^ 32)) * 0x10000 ≤ (d.T k).wr) ∧
    (let d : Dev := devOf [(RG_STATUS.STATE 0x2C3, Rg.active), (RG_CFG.SIZE 0x2C3, 1)]; let a := (0x13 : Agent); let c := (3 : Fin 21); let v := (2 : Word); d.clk.hub = true ∧ d.rgState (0x2C0 + c) = Rg.active ∧ d.rgFill (0x2C0 + c) + ahead v.toNat (d.rd (RG_PI.PI (0x2C0 + c))) ≤ d.rgSize (0x2C0 + c)) ∧
    (let d : Dev := (devOf [(RG_STATUS.STATE 0x85, Rg.active), (RG_CFG.SIZE 0x85, 1)]).onRG 0x85 fun x => { x with held := [List.replicate 32 0] }; let e := (5 : Fin 256); let b := List.replicate 32 0; let l := []; d.clk.hub = true ∧ d.rgRoom (evRing e) = true ∧ (d.RG (evRing e)).held = b :: l ∧ isMarker b = false) ∧
    (let d : Dev := ((devOf [(RG_ITR.ITR_TIME 0x85, 5), (RG_CFG.VECTOR 0x85, 9)]).setWord 0x1009C 0).onRG 0x85 fun x => { x with itrAt := some 5 }; let n := (0x85 : Fin 384); d.clk.hub = true ∧ 0x40 ≤ n.val ∧ closed d.now (d.RG n).itrAt (8 * d.rd (RG_ITR.ITR_TIME n)) = true ∧ d.vecMasked (d.rd (RG_CFG.VECTOR n)) = false) ∧
    (let d : Dev := (devOf [(RG_STATUS.STATE 0x85, Rg.active), (STALL_T.VAL, 5)]).onRG 0x85 fun x => { x with fullAt := some 5 }; let n := (0x85 : Fin 384); d.clk.hub = true ∧ 0x40 ≤ n.val ∧ d.rgState n = Rg.active ∧ closed d.now (d.RG n).fullAt d.stallT = true) ∧
    (let d : Dev := devOf [(RG_STATUS.STATE 9, 1)]; d.clk.hub = true) ∧
    (let d : Dev := (devOf []).onT 9 fun x => { x with data := [{ tag := 5, stamp := 3, value := 4 }] }; let k := (9 : Fin 4096); d.clk.hub = true ∧ (d.T k).data ≠ [] ∧ (d.T k).dataAt + 800 ≤ d.now) ∧
    (let d : Dev := (devOf [(RG_STATUS.STATE 0x80, 1), (RG_CFG.SIZE 0x80, 1)]).onT 9 fun x => { x with data := [{ tag := 5, stamp := 3, value := 4 }] }; let k := (9 : Fin 4096); let es := ([{ tag := 5, stamp := 3, value := 4 }] : List Entry); let n := 0x80; d.clk.hub = true ∧ es = (d.T k).data ∧ es ≠ [] ∧ (d.T k).dataAt + 800 ≤ d.now ∧ n = evRing (d.tRing k) ∧ d.rgRoom n = true ∧ (d.RG n).held = []) ∧
    (let d : Dev := (devOf []).onT 9 fun x => { x with data := [{ tag := 5, stamp := 3, value := 4 }] }; let k := (9 : Fin 4096); let es := ([{ tag := 5, stamp := 3, value := 4 }] : List Entry); let n := 0x80; d.clk.hub = true ∧ es = (d.T k).data ∧ es ≠ [] ∧ (d.T k).dataAt + 800 ≤ d.now ∧ n = evRing (d.tRing k) ∧ d.rgState n ≠ Rg.active ∧ d.mem.err = [] ∧ d.bankGone 0x80 = false) ∧
    (let d : Dev := { devOf [] with host := { fwd := [{ tag := 5, stamp := 3, value := 4 }] } }; let e := ({ tag := 5, stamp := 3, value := 4 } : Entry); d.clk.hub = true ∧ d.host.fwd.contains e = true ∧ d.tagFirst e = true ∧ d.markerDue = false ∧ d.openThreads = []) ∧
    (let d : Dev := { devOf [(OWN.STATE (ownIx 3 2), 1), (OWN.FUNCTION (ownIx 3 2), 2), (OWN.AGENT (ownIx 3 2), 0x13), (CTX.STATE 9, 1), (CTX.CFG 9 1, 1), (CTX.CFG 9 2, 2), (CTX.CFG16 9 4, 5)] with host := { fwd := [{ tag := 5, stamp := 3, value := 4 }] } }; let e := ({ tag := 5, stamp := 3, value := 4 } : Entry); let s := 2; let k := 9; d.clk.hub = true ∧ d.host.fwd.contains e = true ∧ d.tagFirst e = true ∧ d.markerDue = false ∧ s < 16 ∧ k < 4096 ∧ (d.tState k = 1 ∨ d.tState k = 2 ∨ d.tState k = 3) ∧ (d.T k).closing = none ∧ d.tSeg k = s ∧ d.tTakes k e = true ∧ d.heldAs 3 s 2 = true ∧ d.bankOff (0x70 + s) = false ∧ (((List.range 16).all fun j => !d.heldAs 3 j 1) = true) ∧ (d.Q s).length < 4096) ∧
    (let d : Dev := ({ devOf [(OWN.STATE (ownIx 3 2), 1), (OWN.FUNCTION (ownIx 3 2), 2), (OWN.AGENT (ownIx 3 2), 0x13), (CTX.STATE 9, 1), (CTX.CFG 9 1, 1), (CTX.CFG 9 2, 2), (CTX.CFG16 9 4, 5)] with host := { fwd := [{ tag := 5, stamp := 3, value := 4 }] } }).onQ 2 fun _ => List.replicate 4096 { tag := 5, stamp := 3, value := 4 }; let e := ({ tag := 5, stamp := 3, value := 4 } : Entry); let s := 2; let k := 9; d.clk.hub = true ∧ d.host.fwd.contains e = true ∧ d.tagFirst e = true ∧ d.markerDue = false ∧ s < 16 ∧ k < 4096 ∧ (d.tState k = 1 ∨ d.tState k = 2 ∨ d.tState k = 3) ∧ (d.T k).closing = none ∧ d.tSeg k = s ∧ d.tTakes k e = true ∧ d.heldAs 3 s 2 = true ∧ d.bankOff (0x70 + s) = false ∧ (((List.range 16).all fun j => !d.heldAs 3 j 1) = true) ∧ 4096 ≤ (d.Q s).length) ∧
    (let d : Dev := ({ devOf [(OWN.STATE (ownIx 3 2), 1), (OWN.FUNCTION (ownIx 3 2), 1), (OWN.AGENT (ownIx 3 2), 0x13), (CTX.STATE 9, 1), (CTX.CFG 9 1, 1), (CTX.CFG 9 2, 2), (CTX.CFG16 9 4, 5)] with host := { fwd := [{ tag := 5, stamp := 3, value := 4 }] } }).onT 9 fun x => { x with dataAt := 1280000 }; let e := ({ tag := 5, stamp := 3, value := 4 } : Entry); let s := 2; let k := 9; d.clk.hub = true ∧ d.host.fwd.contains e = true ∧ d.tagFirst e = true ∧ d.markerDue = false ∧ s < 16 ∧ k < 4096 ∧ (d.tState k = 1 ∨ d.tState k = 2 ∨ d.tState k = 3) ∧ (d.T k).closing = none ∧ d.tSeg k = s ∧ d.tTakes k e = true ∧ d.heldAs 3 s 1 = true ∧ d.bankOff (0x70 + s) = false ∧ d.openThreads = [k] ∧ d.tFilter k = 0 ∧ d.tDest k = 0 ∧ d.mem.err = [] ∧ d.bankGone 0x80 = false ∧ d.now < (d.T k).dataAt + 800 ∧ (d.T k).data.length < 2) ∧
    (let d : Dev := (devOf [(OWN.STATE (ownIx 3 2), 1), (OWN.FUNCTION (ownIx 3 2), 2), (OWN.AGENT (ownIx 3 2), 0x13)]).onQ 2 fun _ => [{ tag := 5, stamp := 3, value := 4 }]; let a := (0x13 : Agent); let k := (2 : Fin 16); let e := ({ tag := 5, stamp := 3, value := 4 } : Entry); let l := []; d.clk.hub = true ∧ d.mem.err = [] ∧ d.Q k = e :: l ∧ d.owns 3 k a.toNat 2 = true ∧ d.segServed k = true) ∧
    (let d : Dev := devOf []; let a := (0x13 : Agent); let k := (2 : Fin 16); d.clk.hub = true ∧ (d.Q k = [] ∨ d.owns 3 k a.toNat 2 = false)) := by
  refine ⟨?_, ?_, ?_, ?_, ?_, ?_, ?_, ?_, ?_, ?_, ?_, ?_, ?_, ?_, ?_, ?_, ?_, ?_, ?_, ?_, ?_, ?_, ?_, ?_⟩ <;> decide +kernel

/-- A state and operands that meet the premises of each clause of `RegisterAccess`. -/
theorem test_RegisterAccess :
    (let d : Dev := devOf [(CV_EVT.EVT 3, 5)]; let a := (0 : Agent); let p := ({ off := 0x1104 } : ReadAt); let n := a.toNat; let x := p.off.toNat; let r := ((rowOf 0x1104).getD noRow : RegRow); n = a.toNat ∧ x = p.off.toNat ∧ d.clk.hub = true ∧ p.len = 4 ∧ (enables p.enable 0).any id = true ∧ inWindow x = false ∧ x % 4 = 0 ∧ inSpan x = true ∧ d.regOut n x false = false ∧ rowOf x = some r ∧ tablePlace x = none ∧ ¬ (0x1C00 ≤ x ∧ x < 0x1E00 ∧ x % 32 = 4) ∧ r.rc = 0) ∧
    (let d : Dev := devOf [(TW_CNT.PEC_ERR 3, 5)]; let a := (0 : Agent); let p := ({ off := 0xC324 } : ReadAt); let n := a.toNat; let x := p.off.toNat; let r := ((rowOf 0xC324).getD noRow : RegRow); n = a.toNat ∧ x = p.off.toNat ∧ d.clk.hub = true ∧ p.len = 4 ∧ (enables p.enable 0).any id = true ∧ inWindow x = false ∧ x % 4 = 0 ∧ inSpan x = true ∧ d.regOut n x false = false ∧ rowOf x = some r ∧ tablePlace x = none ∧ ¬ (0x1C00 ≤ x ∧ x < 0x1E00 ∧ x % 32 = 4) ∧ r.rc ≠ 0 ∧ d.hwRec x = none ∧ ((d.hw.reads.find? fun y => y.1 == x) = none)) ∧
    (let d : Dev := let d := devOf [(TW_CNT.TIMEOUT 3, 2)]; { d with hw := { d.hw with clock := d.hwClock, reads := [(0xC324, 0x35, 5)] }, host := { d.host with rdata := [(0x35, 7)] } }; let a := (0 : Agent); let p := ({ off := 0xC324 } : ReadAt); let n := a.toNat; let x := p.off.toNat; let r := ((rowOf 0xC324).getD noRow : RegRow); let m := 0x35; let b := (5 : Word); n = a.toNat ∧ x = p.off.toNat ∧ d.clk.hub = true ∧ p.len = 4 ∧ (enables p.enable 0).any id = true ∧ inWindow x = false ∧ x % 4 = 0 ∧ inSpan x = true ∧ d.regOut n x false = false ∧ rowOf x = some r ∧ tablePlace x = none ∧ ¬ (0x1C00 ≤ x ∧ x < 0x1E00 ∧ x % 32 = 4) ∧ r.rc ≠ 0 ∧ d.hwRec x = none ∧ d.hw.clock = d.hwClock ∧ ((d.hw.reads.find? fun y => y.1 == x) = some (x, m, b)) ∧ n < m) ∧
    (let d : Dev := let d := devOf [(TW_CNT.TIMEOUT 3, 2)]; { d with hw := { d.hw with clock := d.hwClock, reads := [(0xC324, 0, 5)] } }; let a := (53 : Agent); let p := ({ off := 0xC324 } : ReadAt); let n := a.toNat; let x := p.off.toNat; let r := ((rowOf 0xC324).getD noRow : RegRow); let m := 0; let b := (5 : Word); n = a.toNat ∧ x = p.off.toNat ∧ d.clk.hub = true ∧ p.len = 4 ∧ (enables p.enable 0).any id = true ∧ inWindow x = false ∧ x % 4 = 0 ∧ inSpan x = true ∧ d.regOut n x false = false ∧ rowOf x = some r ∧ tablePlace x = none ∧ ¬ (0x1C00 ≤ x ∧ x < 0x1E00 ∧ x % 32 = 4) ∧ r.rc ≠ 0 ∧ d.hwRec x = none ∧ d.hw.clock = d.hwClock ∧ ((d.hw.reads.find? fun y => y.1 == x) = some (x, m, b)) ∧ m ≤ n) ∧
    (let d : Dev := devOf [(CV_EVT.EVT 3, 5)]; let a := (0 : Agent); let p := ({ off := 0x200000, len := 8 } : ReadAt); let n := a.toNat; let x := p.off.toNat; let r := ((rowOf 0x200000).getD noRow : RegRow); let u := ((rowOf 0x200004).getD noRow : RegRow); n = a.toNat ∧ x = p.off.toNat ∧ d.clk.hub = true ∧ p.len = 8 ∧ p.enable = [] ∧ x % 8 = 0 ∧ inWindow x = false ∧ inSpan x = true ∧ inSpan (x + 4) = true ∧ d.regOut n x false = false ∧ d.regOut n (x + 4) false = false ∧ rowOf x = some r ∧ rowOf (x + 4) = some u ∧ r.rc = 0 ∧ u.rc = 0 ∧ tablePlace x = none ∧ tablePlace (x + 4) = none ∧ x ≠ 0x1108 ∧ ¬ (0x1C00 ≤ x ∧ x < 0x1E00)) ∧
    (let d : Dev := { devOf [] with link := { lost := 1 } }; let a := (0 : Agent); let p := ({ off := 0x110000 } : ReadAt); let n := a.toNat; let x := p.off.toNat; n = a.toNat ∧ x = p.off.toNat ∧ d.clk.hub = true ∧ p.len = 4 ∧ (enables p.enable 0).any id = true ∧ x % 4 = 0 ∧ inSpan x = true ∧ inWindow x = false ∧ d.regOut n x false = true ∧ d.stalls x = false ∧ viaBar n = true) ∧
    (let d : Dev := devOf []; let a := (0 : Agent); let p := ({ off := 0x1002, len := 2 } : ReadAt); let n := a.toNat; let x := p.off.toNat; n = a.toNat ∧ x = p.off.toNat ∧ d.clk.hub = true ∧ viaBar n = true ∧ d.stalls x = false ∧ readsWhole x p.len = false) ∧
    (let d : Dev := devOf []; let a := (0 : Agent); let p := ({ off := 0x3FFFF8 } : ReadAt); let n := a.toNat; let x := p.off.toNat; n = a.toNat ∧ x = p.off.toNat ∧ d.clk.hub = true ∧ p.len = 4 ∧ (enables p.enable 0).any id = true ∧ x % 4 = 0 ∧ inSpan x = false ∧ inWindow x = false ∧ d.stalls x = false) ∧
    (let d : Dev := { devOf [(MEM_STATUS.SB_INIT_DONE, 1)] with mem := { init := [0x50] } }; let a := (0 : Agent); let p := ({ off := 0x800008 } : ReadAt); let n := a.toNat; let x := p.off.toNat; n = a.toNat ∧ x = p.off.toNat ∧ d.clk.hub = true ∧ viaBar n = true ∧ d.stalls x = true) ∧
    (let d : Dev := cfgDev; let a := (0 : Agent); let off := (0x4000 : BitVec 24); let v := ([0, 0, 0x30, 0] : List Byte); let e := ([] : List Bool); let n := a.toNat; let x := off.toNat; let g := d.writerRead a.toNat off.toNat; let r := ((rowFor 0x4000).getD noRow : RegRow); let w := BitVec.ofNat 32 (leNat v 0 4); n = a.toNat ∧ x = off.toNat ∧ d.clk.hub = true ∧ d.stalls x = false ∧ (inWindow x = false ∨ viaBar n = false) ∧ x % 4 = 0 ∧ v.length = 4 ∧ g = d.writerRead n x ∧ (enables e 0).all id = true ∧ inSpan x = true ∧ rowFor x = some r ∧ r.fixed = false ∧ g.regOut n x true = false ∧ w = BitVec.ofNat 32 (leNat v 0 4) ∧ g.gateReason r.gate n x = 0 ∧ g.notWriter n x = false ∧ ¬ (0xC000 ≤ x ∧ x < 0xD000 ∧ x % 256 = 0x34) ∧ g.badState x = false ∧ g.badValue x (r.store (g.regWord x) w (g.hwBits x)) = false ∧ g.keptBits x (g.regWord x) (r.store (g.regWord x) w (g.hwBits x)) = (0, false) ∧ tablePlace x = none ∧ g.swOver x n = false) ∧
    (let d : Dev := devOf [(MODE_STATUS.MODE, 4), (RAIL_EVT.EVT 1, 9)]; let a := (0 : Agent); let off := (0x100318 : BitVec 24); let v := ([1, 0, 0, 0] : List Byte); let e := ([] : List Bool); let n := a.toNat; let x := off.toNat; let g := d.writerRead a.toNat off.toNat; let r := ((rowFor 0x100318).getD noRow : RegRow); let w := BitVec.ofNat 32 (leNat v 0 4); n = a.toNat ∧ x = off.toNat ∧ d.clk.hub = true ∧ d.stalls x = false ∧ (inWindow x = false ∨ viaBar n = false) ∧ x % 4 = 0 ∧ v.length = 4 ∧ g = d.writerRead n x ∧ (enables e 0).all id = true ∧ inSpan x = true ∧ rowFor x = some r ∧ r.fixed = false ∧ g.regOut n x true = false ∧ w = BitVec.ofNat 32 (leNat v 0 4) ∧ g.gateReason r.gate n x = 0 ∧ g.notWriter n x = false ∧ ¬ (0xC000 ≤ x ∧ x < 0xD000 ∧ x % 256 = 0x34) ∧ g.badState x = false ∧ g.badValue x (r.store (g.regWord x) w (g.hwBits x)) = false ∧ g.keptBits x (g.regWord x) (r.store (g.regWord x) w (g.hwBits x)) = (0, false) ∧ tablePlace x = none ∧ g.swOver x n = false ∧ 0x100000 ≤ x ∧ x < 0x10C000 ∧ d.md ≠ Md.configure) ∧
    (let d : Dev := cfgDev; let a := (0 : Agent); let off := (0x100204 : BitVec 24); let v := ([0x34, 0x12, 0, 0] : List Byte); let e := ([] : List Bool); let n := a.toNat; let x := off.toNat; let g := d.writerRead a.toNat off.toNat; let r := ((rowFor 0x100204).getD noRow : RegRow); let w := BitVec.ofNat 32 (leNat v 0 4); n = a.toNat ∧ x = off.toNat ∧ d.clk.hub = true ∧ d.stalls x = false ∧ (inWindow x = false ∨ viaBar n = false) ∧ x % 4 = 0 ∧ v.length = 4 ∧ g = d.writerRead n x ∧ (enables e 0).all id = true ∧ inSpan x = true ∧ rowFor x = some r ∧ r.fixed = false ∧ g.regOut n x true = false ∧ w = BitVec.ofNat 32 (leNat v 0 4) ∧ g.gateReason r.gate n x = 0 ∧ g.notWriter n x = false ∧ ¬ (0xC000 ≤ x ∧ x < 0xD000 ∧ x % 256 = 0x34) ∧ g.badState x = false ∧ g.badValue x (r.store (g.regWord x) w (g.hwBits x)) = false ∧ g.keptBits x (g.regWord x) (r.store (g.regWord x) w (g.hwBits x)) = (0, false) ∧ tablePlace x = none ∧ g.swOver x n = false ∧ 0x100000 ≤ x ∧ x < 0x10C000 ∧ d.md = Md.configure ∧ r.gate ≠ .any) ∧
    (let d : Dev := devOf [(MODE_STATUS.MODE, 4)]; let a := (0 : Agent); let off := (0x1400 : BitVec 24); let v := ([1, 0, 0, 0] : List Byte); let e := ([] : List Bool); let n := a.toNat; let x := off.toNat; let g := d.writerRead a.toNat off.toNat; let r := ((rowFor 0x1400).getD noRow : RegRow); n = a.toNat ∧ x = off.toNat ∧ d.clk.hub = true ∧ d.stalls x = false ∧ (inWindow x = false ∨ viaBar n = false) ∧ x % 4 = 0 ∧ v.length = 4 ∧ g = d.writerRead n x ∧ (enables e 0).all id = true ∧ inSpan x = true ∧ rowFor x = some r ∧ r.fixed = false ∧ g.regOut n x true = false ∧ g.gateReason r.gate n x ≠ 0) ∧
    (let d : Dev := devOf []; let a := (0 : Agent); let off := (0x1810 : BitVec 24); let v := ([9, 0, 0, 0] : List Byte); let e := ([] : List Bool); let n := a.toNat; let x := off.toNat; let g := d.writerRead a.toNat off.toNat; let r := ((rowFor 0x1810).getD noRow : RegRow); n = a.toNat ∧ x = off.toNat ∧ d.clk.hub = true ∧ d.stalls x = false ∧ (inWindow x = false ∨ viaBar n = false) ∧ x % 4 = 0 ∧ v.length = 4 ∧ g = d.writerRead n x ∧ (enables e 0).all id = true ∧ inSpan x = true ∧ rowFor x = some r ∧ r.fixed = true ∧ g.regOut n x true = false) ∧
    (let d : Dev := { devOf [] with link := { lost := 255 } }; let a := (0 : Agent); let off := (0x110010 : BitVec 24); let v := ([9, 0, 0, 0] : List Byte); let e := ([] : List Bool); let n := a.toNat; let x := off.toNat; let g := d.writerRead a.toNat off.toNat; let r := ((rowFor 0x110010).getD noRow : RegRow); n = a.toNat ∧ x = off.toNat ∧ d.clk.hub = true ∧ d.stalls x = false ∧ (inWindow x = false ∨ viaBar n = false) ∧ x % 4 = 0 ∧ v.length = 4 ∧ g = d.writerRead n x ∧ (enables e 0).all id = true ∧ inSpan x = true ∧ rowFor x = some r ∧ r.fixed = true ∧ viaBar n = true ∧ g.regOut n x true = true) ∧
    (let d : Dev := { devOf [] with link := { lost := 255 } }; let a := (0 : Agent); let off := (0x110008 : BitVec 24); let v := ([9, 0, 0, 0] : List Byte); let e := ([] : List Bool); let n := a.toNat; let x := off.toNat; let g := d.writerRead a.toNat off.toNat; let r := ((rowFor 0x110008).getD noRow : RegRow); n = a.toNat ∧ x = off.toNat ∧ d.clk.hub = true ∧ d.stalls x = false ∧ (inWindow x = false ∨ viaBar n = false) ∧ x % 4 = 0 ∧ v.length = 4 ∧ g = d.writerRead n x ∧ (enables e 0).all id = true ∧ inSpan x = true ∧ rowFor x = some r ∧ r.fixed = false ∧ g.regOut n x true = true ∧ viaBar n = true) ∧
    (let d : Dev := devOf []; let a := (0 : Agent); let off := (0x4000 : BitVec 24); let v := ([9, 0, 0, 0] : List Byte); let e := ([true, false] : List Bool); let n := a.toNat; let x := off.toNat; let g := d.writerRead a.toNat off.toNat; let r := ((rowFor 0x4000).getD noRow : RegRow); n = a.toNat ∧ x = off.toNat ∧ d.clk.hub = true ∧ d.stalls x = false ∧ (inWindow x = false ∨ viaBar n = false) ∧ x % 4 = 0 ∧ v.length = 4 ∧ g = d.writerRead n x ∧ (enables e 0).all id = false ∧ (enables e 0).any id = true ∧ inSpan x = true ∧ rowFor x = some r ∧ r.fixed = false ∧ g.notWriter n x = false) ∧
    (let d : Dev := devOf []; let a := (0 : Agent); let off := (0x1804 : BitVec 24); let v := ([9, 0, 0, 0] : List Byte); let e := ([true, false] : List Bool); let n := a.toNat; let x := off.toNat; let g := d.writerRead a.toNat off.toNat; let r := ((rowFor 0x1804).getD noRow : RegRow); n = a.toNat ∧ x = off.toNat ∧ d.clk.hub = true ∧ d.stalls x = false ∧ (inWindow x = false ∨ viaBar n = false) ∧ x % 4 = 0 ∧ v.length = 4 ∧ g = d.writerRead n x ∧ (enables e 0).all id = false ∧ (enables e 0).any id = true ∧ inSpan x = true ∧ rowFor x = some r ∧ r.fixed = false ∧ g.notWriter n x = true) ∧
    (let d : Dev := devOf []; let a := (0 : Agent); let off := (0x1000 : BitVec 24); let v := ([9, 0, 0, 0] : List Byte); let e := ([true, false] : List Bool); let n := a.toNat; let x := off.toNat; let g := d.writerRead a.toNat off.toNat; let r := ((rowFor 0x1000).getD noRow : RegRow); n = a.toNat ∧ x = off.toNat ∧ d.clk.hub = true ∧ d.stalls x = false ∧ (inWindow x = false ∨ viaBar n = false) ∧ x % 4 = 0 ∧ v.length = 4 ∧ g = d.writerRead n x ∧ (enables e 0).all id = false ∧ (enables e 0).any id = true ∧ inSpan x = true ∧ rowFor x = some r ∧ r.fixed = true ∧ g.notWriter n x = false) ∧
    (let d : Dev := devOf []; let a := (0 : Agent); let off := (0x1810 : BitVec 24); let v := ([9, 0, 0, 0] : List Byte); let e := ([true, false] : List Bool); let n := a.toNat; let x := off.toNat; let g := d.writerRead a.toNat off.toNat; let r := ((rowFor 0x1810).getD noRow : RegRow); n = a.toNat ∧ x = off.toNat ∧ d.clk.hub = true ∧ d.stalls x = false ∧ (inWindow x = false ∨ viaBar n = false) ∧ x % 4 = 0 ∧ v.length = 4 ∧ g = d.writerRead n x ∧ (enables e 0).all id = false ∧ (enables e 0).any id = true ∧ inSpan x = true ∧ rowFor x = some r ∧ r.fixed = true ∧ g.notWriter n x = true) ∧
    (let d : Dev := devOf []; let a := (0 : Agent); let off := (0x3FFFF8 : BitVec 24); let v := ([9, 0, 0, 0] : List Byte); let e := ([] : List Bool); let n := a.toNat; let x := off.toNat; let g := d.writerRead a.toNat off.toNat; n = a.toNat ∧ x = off.toNat ∧ d.clk.hub = true ∧ d.stalls x = false ∧ (inWindow x = false ∨ viaBar n = false) ∧ x % 4 = 0 ∧ v.length = 4 ∧ g = d.writerRead n x ∧ (enables e 0).any id = true ∧ inSpan x = false) ∧
    (let d : Dev := devOf []; let a := (0 : Agent); let off := (0x4000 : BitVec 24); let v := ([9, 0, 0, 0] : List Byte); let e := ([false, false, false, false] : List Bool); let n := a.toNat; let x := off.toNat; let g := d.writerRead a.toNat off.toNat; n = a.toNat ∧ x = off.toNat ∧ d.clk.hub = true ∧ d.stalls x = false ∧ (inWindow x = false ∨ viaBar n = false) ∧ x % 4 = 0 ∧ v.length = 4 ∧ g = d.writerRead n x ∧ (enables e 0).any id = false) ∧
    (let d : Dev := devOf []; let a := (0 : Agent); let off := (0x4002 : BitVec 24); let v := ([9, 0] : List Byte); let e := ([] : List Bool); let n := 0; let x := 0x4002; n = a.toNat ∧ x = off.toNat ∧ d.clk.hub = true ∧ d.stalls x = false ∧ (inWindow x = false ∨ viaBar n = false) ∧ (v.length ≠ 4 ∨ x % 4 ≠ 0) ∧ (v.length ≠ 8 ∨ x % 8 ≠ 0)) ∧
    (let d : Dev := { devOf [(MEM_STATUS.SB_INIT_DONE, 1)] with mem := { init := [0x50] } }; let a := (0 : Agent); let off := (0x800008 : BitVec 24); let v := ([9, 0, 0, 0] : List Byte); let e := ([] : List Bool); d.clk.hub = true ∧ d.stalls off.toNat = true) ∧
    (let d : Dev := { devOf [(MEM_STATUS.SB_INIT_DONE, 1)] with mem := { err := [(granKey 0x50 1, 5)] } }; let a := (0 : Agent); let off := (0x800008 : BitVec 24); let v := ([9, 8, 7, 6, 5, 4, 3, 2] : List Byte); let n := 0; let x := 0x800008; let b := 0x50; let g := 1; n = a.toNat ∧ x = off.toNat ∧ d.clk.hub = true ∧ d.stalls x = false ∧ inWindow x = true ∧ viaBar n = true ∧ d.regOut n x true = false ∧ x % 8 = 0 ∧ v.length = 8 ∧ b = (windowBank x).1 ∧ g = (windowBank x).2 / 8 ∧ d.bankOff b = false) ∧
    (let d : Dev := { devOf [(MEM_STATUS.SB_INIT_DONE, 1)] with mem := { data := [(bankKey 0x50 9, 7)] } }; let a := (0 : Agent); let p := ({ off := 0x800008 } : ReadAt); let n := a.toNat; let x := p.off.toNat; let b := 0x50; let g := 1; n = a.toNat ∧ x = p.off.toNat ∧ d.clk.hub = true ∧ d.stalls x = false ∧ inWindow x = true ∧ viaBar n = true ∧ p.len = 4 ∧ x % 4 = 0 ∧ d.regOut n x false = false ∧ b = (windowBank x).1 ∧ g = (windowBank x).2 / 8 ∧ d.bankOff b = false ∧ d.granErr b g = 0) := by
  refine ⟨?_, ?_, ?_, ?_, ?_, ?_, ?_, ?_, ?_, ?_, ?_, ?_, ?_, ?_, ?_, ?_, ?_, ?_, ?_, ?_, ?_, ?_, ?_, ?_, ?_, ?_⟩ <;> decide +kernel

/-- A state and operands that meet the premises of each clause of `RegisterStarts`. -/
theorem test_RegisterStarts :
    (let d : Dev := devOf [(MODE_STATUS.MODE, 2), (BOOT_STATUS.STATE, 7)]; let a := (0 : Agent); d.clk.hub = true ∧ d.hostPath = true) ∧
    (let d : Dev := devOf [(MODE_STATUS.MODE, 4)]; let a := (0 : Agent); d.clk.hub = true ∧ d.hostPath = false) ∧
    (let d : Dev := devOf [(CV_STATUS.CAL_STATUS 600, 2), (SL_STATUS.LSTATE, 1)]; let a := (0 : Agent); let c := (600 : Fin 632); d.reaches a.toNat (0x110000 + 0x40 * c) = true ∧ (d.rd (CV_STATUS.CAL_STATUS c) = 1 ∨ d.rd (CV_STATUS.CAL_STATUS c) = 2)) ∧
    (let d : Dev := devOf [(CV_STATUS.CAL_STATUS 600, 3), (CV_STATUS.FENCED 600, 0xF)]; let a := (0 : Agent); let c := (600 : Fin 632); d.reaches a.toNat (0x110000 + 0x40 * c) = true ∧ d.rd (CV_STATUS.CAL_STATUS c) ≠ 1 ∧ d.rd (CV_STATUS.CAL_STATUS c) ≠ 2 ∧ d.liveSlices c - 1 < sliceMin c) ∧
    (let d : Dev := devOf [(CV_STATUS.CAL_STATUS 600, 3)]; let a := (0 : Agent); let c := (600 : Fin 632); d.reaches a.toNat (0x110000 + 0x40 * c) = true ∧ c.val < 624 ∧ d.rd (CV_STATUS.CAL_STATUS c) ≠ 1 ∧ d.rd (CV_STATUS.CAL_STATUS c) ≠ 2 ∧ sliceMin c ≤ d.liveSlices c - 1) ∧
    (let d : Dev := (devOf [(SEQ_CFG.TRIG_SRC 2, 1), (SEQ_CFG.MODE 2, 1), (SEQ_CFG.ONCE 2, 1)]).onSQ 2 fun x => { x with pass := some 3 }; let a := (0 : Agent); let k := (2 : Fin 8); d.reaches a.toNat (0x204008 + 0x200 * k) = true ∧ d.rd (SEQ_CFG.TRIG_SRC k) = 1 ∧ d.rd (SEQ_CFG.MODE k) ≠ 0 ∧ d.on (SEQ_CFG.ONCE k) = true ∧ (d.SQ k).lowT = d.lowPower ∧ (d.SQ k).trigAt ≠ some d.clk.ent ∧ (d.SQ k).pass ≠ none ∧ (d.SQ k).passDone = false ∧ d.on (SEQ_CFG.OVR_MODE k) = false) ∧
    (let d : Dev := devOf [(SEQ_CFG.TRIG_SRC 2, 1), (SEQ_CFG.MODE 2, 1), (SEQ_CFG.ONCE 2, 1)]; let a := (0 : Agent); let k := (2 : Fin 8); d.reaches a.toNat (0x204008 + 0x200 * k) = true ∧ d.rd (SEQ_CFG.TRIG_SRC k) = 1 ∧ d.rd (SEQ_CFG.MODE k) ≠ 0 ∧ d.on (SEQ_CFG.ONCE k) = true ∧ (d.SQ k).lowT = d.lowPower ∧ (d.SQ k).trigAt ≠ some d.clk.ent ∧ (d.SQ k).pass = none ∧ d.passOver k = false) ∧
    (let d : Dev := (devOf [(SEQ_CFG.TRIG_SRC 2, 1), (SEQ_CFG.MODE 2, 1), (SEQ_CFG.ONCE 2, 1)]).onSQ 2 fun x => { x with pass := some 3 }; let a := (0 : Agent); let k := (2 : Fin 8); d.reaches a.toNat (0x204008 + 0x200 * k) = true ∧ d.rd (SEQ_CFG.TRIG_SRC k) = 1 ∧ d.rd (SEQ_CFG.MODE k) ≠ 0 ∧ d.on (SEQ_CFG.ONCE k) = true ∧ (d.SQ k).lowT = d.lowPower ∧ (d.SQ k).trigAt ≠ some d.clk.ent ∧ (d.SQ k).pass ≠ none ∧ (d.SQ k).passDone = false ∧ d.on (SEQ_CFG.OVR_MODE k) = false) ∧
    (let d : Dev := devOf [(SEQ_CFG.TRIG_SRC 2, 1), (SEQ_CFG.MODE 2, 1), (SEQ_CFG.ONCE 2, 1)]; let a := (0 : Agent); let k := (2 : Fin 8); d.reaches a.toNat (0x204008 + 0x200 * k) = true ∧ d.rd (SEQ_CFG.TRIG_SRC k) = 1 ∧ d.rd (SEQ_CFG.MODE k) ≠ 0 ∧ d.on (SEQ_CFG.ONCE k) = true ∧ (d.SQ k).lowT = d.lowPower ∧ (d.SQ k).trigAt ≠ some d.clk.ent ∧ (d.SQ k).pass = none ∧ d.passOver k = false) ∧
    (let d : Dev := devOf []; let a := (0 : Agent); let k := (2 : Fin 8); d.reaches a.toNat (0x204008 + 0x200 * k) = true ∧ d.rd (SEQ_CFG.TRIG_SRC k) ≠ 1) ∧
    (let d : Dev := devOf []; let a := (0 : Agent); let k := (2 : Fin 8); let v := (9 : BitVec 6); d.reaches a.toNat (0x204014 + 0x200 * k) = true ∧ d.owns 2 k a.toNat 1 = false ∧ d.owns 2 k a.toNat 2 = false) ∧
    (let d : Dev := devOf [(OWN.STATE (ownIx 2 2), 1), (OWN.FUNCTION (ownIx 2 2), 2), (OWN.AGENT (ownIx 2 2), 0x13), (INJ_STAT.DONE 2, 1)]; let a := (0x13 : Agent); let k := (2 : Fin 8); let v := (9 : BitVec 6); d.reaches a.toNat (0x204014 + 0x200 * k) = true ∧ d.owns 2 k a.toNat 2 = true ∧ d.rd (INJ_STAT.STATE k) = 0) ∧
    (let d : Dev := devOf [(OWN.STATE (ownIx 2 2), 1), (OWN.FUNCTION (ownIx 2 2), 2), (OWN.AGENT (ownIx 2 2), 0x13), (INJ_STAT.STATE 2, 1)]; let a := (0x13 : Agent); let k := (2 : Fin 8); let v := (9 : BitVec 6); d.reaches a.toNat (0x204014 + 0x200 * k) = true ∧ d.owns 2 k a.toNat 2 = true ∧ d.rd (INJ_STAT.STATE k) ≠ 0) ∧
    (let d : Dev := (devOf [(IP_STATUS.THROTTLED 3, 1), (IP_STATUS.FILL 3, 4)]); let a := (0 : Agent); let n := (3 : Fin 32); d.reaches a.toNat (0xB41C + 0x40 * n) = true) ∧
    (let d : Dev := devOf [(MODE_STATUS.MODE, 2), (CORE_STATUS.STATE 3, Ks.running)]; let a := (0 : Agent); let c := (3 : Fin 21); d.reaches a.toNat (0xD008 + 0x40 * c) = true ∧ d.clk.hub = true ∧ d.md = Md.configure ∧ d.coreBusy c = true) ∧
    (let d : Dev := devOf [(MODE_STATUS.MODE, 4)]; let a := (0 : Agent); let c := (3 : Fin 21); d.reaches a.toNat (0xD008 + 0x40 * c) = true ∧ d.clk.hub = true ∧ d.md ≠ Md.configure ∧ d.md ≠ Md.factory) ∧
    (let d : Dev := devOf [(MODE_STATUS.MODE, 2), (BOOT_STATUS.APPLIED, 1), (CORE_STATUS.STATE 3, Ks.halted), (CORE_CFG.ENTRY 3, 0x80)]; let a := (0 : Agent); let c := (3 : Fin 21); d.reaches a.toNat (0xD008 + 0x40 * c) = true ∧ d.clk.hub = true ∧ d.md = Md.configure ∧ d.ks c = Ks.halted ∧ d.on BOOT_STATUS.APPLIED = true) ∧
    (let d : Dev := devOf [(MODE_STATUS.MODE, 2), (CORE_STATUS.STATE 3, Ks.halted)]; let a := (0 : Agent); let c := (3 : Fin 21); d.reaches a.toNat (0xD008 + 0x40 * c) = true ∧ d.clk.hub = true ∧ d.md = Md.configure ∧ d.ks c = Ks.halted ∧ d.on BOOT_STATUS.APPLIED = false) ∧
    (let d : Dev := devOf [(MODE_STATUS.MODE, 7), (CORE_STATUS.STATE 3, Ks.halted), (CORE_CFG.ENTRY 3, 0x80)]; let a := (0 : Agent); let c := (3 : Fin 21); d.reaches a.toNat (0xD008 + 0x40 * c) = true ∧ d.md = Md.factory ∧ d.ks c = Ks.halted) ∧
    (let d : Dev := devOf [(MODE_STATUS.MODE, 2), (CORE_STATUS.STATE 3, Ks.running)]; let a := (0 : Agent); let c := (3 : Fin 21); d.reaches a.toNat (0xD008 + 0x40 * c) = true ∧ d.clk.hub = true ∧ d.md = Md.configure ∧ d.ks c ≠ Ks.halted) ∧
    (let d : Dev := devOf [(CORE_STATUS.STATE 3, Ks.running)]; let a := (0x13 : Agent); let c := (3 : Fin 21); let v := (0x6B1C : Word); d.reaches a.toNat (0xD024 + 0x40 * c) = true ∧ a.toNat = 0x10 + c.val ∧ v = 0x6B1C ∧ d.coreBusy c = true ∧ d.wdtOver c = false) ∧
    (let d : Dev := devOf [(CORE_STATUS.STATE 3, Ks.running)]; let a := (0 : Agent); let c := (3 : Fin 21); let v := (0x6B1C : Word); d.reaches a.toNat (0xD024 + 0x40 * c) = true ∧ d.clk.hub = true ∧ a.toNat ≠ 0x10 + c.val) ∧
    (let d : Dev := devOf [(CORE_STATUS.STATE 3, Ks.running)]; let a := (0x13 : Agent); let c := (3 : Fin 21); let v := (1 : Word); d.reaches a.toNat (0xD024 + 0x40 * c) = true ∧ a.toNat = 0x10 + c.val ∧ v ≠ 0x6B1C) ∧
    (let d : Dev := devOf [(CORE_STATUS.STATE 3, Ks.running)]; let a := (0 : Agent); let c := (3 : Fin 21); d.reaches a.toNat (0xD028 + 0x40 * c) = true ∧ d.ks c ≠ Ks.off ∧ d.coreSlow c = false) ∧
    (let d : Dev := devOf [(HOST_CTL.SB_EN, 1)]; d.clk.hub = true ∧ d.host.down = false ∧ d.on HOST_CTL.SB_EN = true ∧ d.host.hb ≤ d.now) ∧
    (let d : Dev := devOf []; d.on HOST_CTL.SB_EN = false) := by
  refine ⟨?_, ?_, ?_, ?_, ?_, ?_, ?_, ?_, ?_, ?_, ?_, ?_, ?_, ?_, ?_, ?_, ?_, ?_, ?_, ?_, ?_, ?_, ?_, ?_, ?_, ?_⟩ <;> decide +kernel

/-- A state and operands that meet the premises of each clause of `TwoWireBus`. -/
theorem test_TwoWireBus :
    (let d : Dev := devOf [(OWN.STATE (ownIx 4 3), 1), (OWN.FUNCTION (ownIx 4 3), 2), (OWN.AGENT (ownIx 4 3), 0x13)]; let a := (0x13 : Agent); let n := (3 : Fin 16); let v := (0x80020130 : Word); let e := (d.twLines n (d.now)); d.clk.hub = true ∧ d.owns 4 n a.toNat 2 = true ∧ e = d.twLines n d.now ∧ 2 ^ 31 ≤ v.toNat ∧ e.rd (TW_XSTAT.STATE n) ≠ 1) ∧
    (let d : Dev := devOf [(TW_XSTAT.STATE 3, 1), (OWN.STATE (ownIx 4 3), 1), (OWN.FUNCTION (ownIx 4 3), 2), (OWN.AGENT (ownIx 4 3), 0x13)]; let a := (0x13 : Agent); let n := (3 : Fin 16); let v := (0x80020130 : Word); let e := (d.twLines n (d.now)); d.clk.hub = true ∧ d.owns 4 n a.toNat 2 = true ∧ e = d.twLines n d.now ∧ 2 ^ 31 ≤ v.toNat ∧ e.rd (TW_XSTAT.STATE n) = 1) ∧
    (let d : Dev := devOf []; let a := (0x13 : Agent); let n := (3 : Fin 16); let v := (0x80020130 : Word); d.clk.hub = true ∧ d.owns 4 n a.toNat 2 = false ∧ d.owns 4 n a.toNat 3 = false) ∧
    (let d : Dev := devOf []; let a := (0 : Agent); let n := (3 : Fin 16); d.clk.hub = true) ∧
    (let d : Dev := (devOf [(TW_STATUS.ROLE 3, 2), (TW_STATUS.STATE 3, Ts.controller), (TW_STATUS.IDLE_SEEN 3, 1), (TW_STRETCH.STRETCH_T 3, 5)]).onW 3 fun x => { x with goPend := true, scl := false, rawScl := false, sclLow := some 5 }; let n := (3 : Fin 16); let e := (d.twLines n (d.now)); d.clk.hub = true ∧ e = d.twLines n d.now ∧ e.sclDue n e.now = true ∧ (e.W n).goPend = true) ∧
    (let d : Dev := devOf [(TW_STATUS.ROLE 3, 1), (TW_STATUS.STATE 3, Ts.idle)]; let n := (3 : Fin 16); let e := (d.twLines n (d.now)); e = d.twLines n d.now ∧ e.tws n ≠ Ts.off ∧ e.tws n ≠ Ts.fenced ∧ e.twQuiet n = true) ∧
    (let d : Dev := (devOf [(TW_STATUS.ROLE 3, 1), (TW_STATUS.STATE 3, Ts.idle), (TW_CFG.FILT 3, 3)]).onW 3 fun x => { x with sda := true, rawSda := true }; let n := (3 : Fin 16); let v := true; let e := (d.twLines n (d.now - 1)); d.clk.hub = true ∧ d.now % 16 = 0 ∧ e = d.twLines n (d.now - 1) ∧ e.stg = [] ∧ 2 ≤ e.rd (TW_CFG.FILT n) ∧ (e.W n).sda = true ∧ (e.W n).rawSda = true ∧ (e.W n).scl = v ∧ (e.W n).rawScl = v) ∧
    (let d : Dev := (devOf [(TW_STATUS.ROLE 3, 1), (TW_STATUS.STATE 3, Ts.idle), (TW_CFG.FILT 3, 3)]).onW 3 fun x => { x with sda := false, rawSda := false }; let n := (3 : Fin 16); let v := true; let e := (d.twLines n (d.now - 1)); d.clk.hub = true ∧ d.now % 16 = 0 ∧ e = d.twLines n (d.now - 1) ∧ e.stg = [] ∧ 2 ≤ e.rd (TW_CFG.FILT n) ∧ (e.W n).sda = false ∧ (e.W n).rawSda = false ∧ (e.W n).scl = v ∧ (e.W n).rawScl = v) ∧
    (let d : Dev := (devOf [(TW_STATUS.ROLE 3, 1), (TW_STATUS.STATE 3, Ts.idle), (TW_CFG.FILT 3, 3)]).onW 3 fun x => { x with rawSda := false, sdaAt := 1279968, stop := true }; let n := (3 : Fin 16); let e := (d.twLines n (d.now - 1)); d.clk.hub = true ∧ d.now % 16 = 0 ∧ e = d.twLines n (d.now - 1) ∧ (e.W n).sda = true ∧ (e.W n).rawSda = false ∧ e.seenAt n (e.W n).sdaAt = e.now ∧ (e.W n).scl = true ∧ (e.W n).rawScl = true ∧ e.twFree n = true ∧ e.tws n ≠ Ts.attention ∧ e.tws n ≠ Ts.clearing) ∧
    (let d : Dev := (devOf [(TW_STATUS.ROLE 3, 1), (TW_STATUS.STATE 3, Ts.idle), (TW_STATUS.IDLE_SEEN 3, 1), (TW_CFG.FILT 3, 3)]).onW 3 fun x => { x with rawSda := false, sdaAt := 1279968, hiAt := none }; let n := (3 : Fin 16); let e := (d.twLines n (d.now - 1)); d.clk.hub = true ∧ d.now % 16 = 0 ∧ e = d.twLines n (d.now - 1) ∧ (e.W n).sda = true ∧ (e.W n).rawSda = false ∧ e.seenAt n (e.W n).sdaAt = e.now ∧ (e.W n).scl = true ∧ (e.W n).rawScl = true ∧ e.twFree n = false ∧ e.on (TW_STATUS.IDLE_SEEN n) = true) ∧
    (let d : Dev := (devOf [(TW_STATUS.ROLE 3, 2), (TW_STATUS.STATE 3, Ts.idle), (TW_STATUS.IDLE_SEEN 3, 1), (TW_CFG.ARA_EN 3, 1), (TW_CFG.FILT 3, 3)]).onW 3 fun x => { x with rawSda := true, sda := false, sdaAt := 1279968, hiAt := none, fall := some 1270000 }; let n := (3 : Fin 16); let e := (d.twLines n (d.now - 1)); d.clk.hub = true ∧ d.now % 16 = 0 ∧ e = d.twLines n (d.now - 1) ∧ (e.W n).sda = false ∧ (e.W n).rawSda = true ∧ e.seenAt n (e.W n).sdaAt = e.now ∧ (e.W n).scl = true ∧ (e.W n).rawScl = true ∧ e.attends n e.now = true ∧ e.on (TW_CFG.ARA_EN n) = true) ∧
    (let d : Dev := (devOf [(TW_STATUS.ROLE 3, 1), (TW_STATUS.STATE 3, Ts.idle), (TW_STATUS.BUS_HELD 3, 1), (TW_CFG.FILT 3, 3)]).onW 3 fun x => { x with rawSda := true, sda := false, sdaAt := 1279968, hiAt := none }; let n := (3 : Fin 16); let e := (d.twLines n (d.now - 1)); d.clk.hub = true ∧ d.now % 16 = 0 ∧ e = d.twLines n (d.now - 1) ∧ e.stg = [] ∧ (e.W n).sda = false ∧ (e.W n).rawSda = true ∧ e.seenAt n (e.W n).sdaAt = e.now ∧ (e.W n).scl = true ∧ (e.W n).rawScl = true ∧ (e.W n).fall = none ∧ e.heldDue n e.now = false) ∧
    (let d : Dev := (devOf [(TW_STATUS.ROLE 3, 2), (TW_STATUS.STATE 3, Ts.idle), (TW_STATUS.IDLE_SEEN 3, 1), (TW_CFG.ARA_EN 3, 1), (TW_CFG.FILT 3, 3)]).onW 3 fun x => { x with rawSda := true, sda := false, sdaAt := 1279968, hiAt := none, fall := some 1240000 }; let n := (3 : Fin 16); let e := (d.twLines n (d.now - 1)); d.clk.hub = true ∧ d.now % 16 = 0 ∧ e = d.twLines n (d.now - 1) ∧ (e.W n).sda = false ∧ (e.W n).rawSda = true ∧ e.seenAt n (e.W n).sdaAt = e.now ∧ (e.W n).scl = true ∧ (e.W n).rawScl = true ∧ e.twCtl n = true ∧ e.tws n = Ts.idle ∧ e.on (TW_STATUS.IDLE_SEEN n) = true ∧ closed e.now (e.W n).fall 40000 = true) ∧
    (let d : Dev := (devOf [(TW_STATUS.ROLE 3, 2), (TW_STATUS.STATE 3, Ts.idle), (TW_STATUS.IDLE_SEEN 3, 1), (TW_CFG.ARA_EN 3, 1), (TW_CFG.FILT 3, 3)]).onW 3 fun x => { x with rawSda := true, sda := false, sdaAt := 1279968, hiAt := none, fall := some 1270000 }; let n := (3 : Fin 16); let k := 1280000; d.clk.hub = true ∧ (d.W n).sda = false ∧ (d.W n).rawSda = true ∧ d.seenAt n (d.W n).sdaAt = k ∧ k ≤ d.now ∧ (d.W n).scl = true ∧ (d.W n).rawScl = true ∧ d.attends n k = true ∧ d.on (TW_CFG.ARA_EN n) = true) ∧
    (let d : Dev := (devOf [(TW_STATUS.ROLE 3, 2), (TW_STATUS.STATE 3, Ts.idle)]).onW 3 fun x => { x with sda := false, rawSda := false, hiAt := none }; let n := (3 : Fin 16); let e := (d.twLines n (d.now)); e = d.twLines n d.now ∧ e.twCtl n = true ∧ e.twStuck n = true ∧ e.tws n ≠ Ts.clearing) ∧
    (let d : Dev := devOf [(TW_STATUS.ROLE 3, 2), (TW_STATUS.STATE 3, Ts.clearing)]; let n := (3 : Fin 16); let k := (4 : Fin 10); d.tws n = Ts.clearing ∧ k.val ≠ 0 ∧ (d.W n).clrAt + d.sclPeriod n * (k + 1) ≤ d.now) ∧
    (let d : Dev := devOf [(TW_STATUS.ROLE 3, 2), (TW_STATUS.STATE 3, Ts.clearing)]; let n := (3 : Fin 16); d.tws n = Ts.clearing ∧ (d.W n).clrAt + d.sclPeriod n * 9 ≤ d.now) ∧
    (let d : Dev := (devOf [(TW_STATUS.ROLE 3, 1), (TW_STATUS.STATE 3, Ts.idle)]).onW 3 fun x => { x with sda := false, rawSda := false, hiAt := none, heldAt := some 5 }; let n := (3 : Fin 16); let e := (d.twLines n (d.now)); e = d.twLines n d.now ∧ e.heldDue n e.now = true) ∧
    (let d : Dev := (devOf [(TW_STATUS.ROLE 3, 2), (TW_STATUS.STATE 3, Ts.controller)]).onW 3 fun x => { x with araPend := true }; let n := (3 : Fin 16); let b := (0x62 : Byte); (d.W n).araPend = true ∧ d.twCtl n = true ∧ d.tws n = Ts.controller ∧ d.busOver n 2 0 = true) ∧
    (let d : Dev := (devOf [(TW_STATUS.ROLE 3, 2), (TW_STATUS.STATE 3, Ts.controller)]).onW 3 fun x => { x with araPend := true }; let n := (3 : Fin 16); (d.W n).araPend = true ∧ d.twCtl n = true ∧ d.tws n = Ts.controller ∧ d.busOver n 1 0 = true) ∧
    (let d : Dev := devOf [(TW_STATUS.ROLE 3, 1), (TW_STATUS.STATE 3, Ts.idle), (TW_STATUS.IDLE_SEEN 3, 1), (TW_ALERT.PENDING 3, 1), (TW_CFG.ATTN_OUT 3, 1)]; let n := (3 : Fin 16); let e := (d.twLines n (d.now)); e = d.twLines n d.now ∧ e.twTgt n = true ∧ e.on (TW_ALERT.PENDING n) = true ∧ e.on (TW_CFG.ATTN_OUT n) = true ∧ e.on (TW_STATUS.IDLE_SEEN n) = true ∧ e.twQuiet n = true ∧ e.tws n = Ts.idle) ∧
    (let d : Dev := (devOf [(TW_STATUS.ROLE 3, 1), (TW_STATUS.STATE 3, Ts.attention), (TW_ALERT.PENDING 3, 1)]).onW 3 fun x => { x with attAt := some 5 }; let n := (3 : Fin 16); let e := (d.twLines n (d.now)); e = d.twLines n d.now ∧ e.tws n = Ts.attention ∧ closed e.now (e.W n).attAt 16000 = true) ∧
    (let d : Dev := devOf [(TW_STATUS.ROLE 3, 1), (TW_STATUS.STATE 3, Ts.idle), (TW_STATUS.IDLE_SEEN 3, 1), (TW_ALERT.PENDING 3, 1)]; let n := (3 : Fin 16); let w := true; d.twTgt n = true ∧ d.on (TW_ALERT.PENDING n) = true ∧ d.on (TW_STATUS.IDLE_SEEN n) = true) ∧
    (let d : Dev := (devOf [(TW_STATUS.ROLE 3, 2), (TW_STATUS.STATE 3, Ts.idle)]).onW 3 fun x => { x with goPend := true }; let n := (3 : Fin 16); let e := (d.twLines n (d.now)); e = d.twLines n d.now ∧ e.twCtl n = true ∧ e.tws n = Ts.idle ∧ e.mayStart n = true) ∧
    (let d : Dev := (devOf [(TW_STATUS.ROLE 3, 2), (TW_STATUS.STATE 3, Ts.controller), (TW_XCTL.WLEN 3, 2), (TW_XCTL.RLEN 3, 3), (TW_XSTAT.STATE 3, 1)]).onW 3 fun x => { x with goPend := true }; let n := (3 : Fin 16); let b := ([7, 8, 9] : List Byte); d.twCtl n = true ∧ d.tws n = Ts.controller ∧ (d.W n).araPend = false ∧ (d.W n).goPend = true ∧ d.busOver n (d.xBytes n (.done b)).1 (d.xBytes n (.done b)).2 = true ∧ b.length = min 32 (d.rd (TW_XCTL.RLEN n))) ∧
    (let d : Dev := (devOf [(TW_STATUS.ROLE 3, 2), (TW_STATUS.STATE 3, Ts.controller), (TW_XCTL.WLEN 3, 2), (TW_XCTL.RLEN 3, 3), (TW_XSTAT.STATE 3, 1)]).onW 3 fun x => { x with goPend := true }; let n := (3 : Fin 16); d.twCtl n = true ∧ d.tws n = Ts.controller ∧ (d.W n).araPend = false ∧ (d.W n).goPend = true ∧ d.busOver n (d.xBytes n (.nackAddr false)).1 (d.xBytes n (.nackAddr false)).2 = true) ∧
    (let d : Dev := (devOf [(TW_STATUS.ROLE 3, 2), (TW_STATUS.STATE 3, Ts.controller), (TW_XCTL.WLEN 3, 2), (TW_XCTL.RLEN 3, 3), (TW_XSTAT.STATE 3, 1)]).onW 3 fun x => { x with goPend := true }; let n := (3 : Fin 16); d.twCtl n = true ∧ d.tws n = Ts.controller ∧ (d.W n).araPend = false ∧ (d.W n).goPend = true ∧ d.busOver n (d.xBytes n (.nackAddr true)).1 (d.xBytes n (.nackAddr true)).2 = true ∧ d.rd (TW_XCTL.WLEN n) ≠ 0 ∧ d.rd (TW_XCTL.RLEN n) ≠ 0) ∧
    (let d : Dev := (devOf [(TW_STATUS.ROLE 3, 2), (TW_STATUS.STATE 3, Ts.controller), (TW_XCTL.WLEN 3, 2), (TW_XCTL.RLEN 3, 3), (TW_XSTAT.STATE 3, 1)]).onW 3 fun x => { x with goPend := true }; let n := (3 : Fin 16); let k := 0; let b := ([] : List Byte); d.twCtl n = true ∧ d.tws n = Ts.controller ∧ (d.W n).araPend = false ∧ (d.W n).goPend = true ∧ d.busOver n (d.xBytes n (.nackData k b)).1 (d.xBytes n (.nackData k b)).2 = true ∧ k + 1 < min 32 (d.rd (TW_XCTL.WLEN n))) ∧
    (let d : Dev := (devOf [(TW_STATUS.ROLE 3, 2), (TW_STATUS.STATE 3, Ts.controller), (TW_XCTL.WLEN 3, 2), (TW_XCTL.RLEN 3, 3), (TW_XSTAT.STATE 3, 1)]).onW 3 fun x => { x with goPend := true }; let n := (3 : Fin 16); let k := 1; let b := ([7, 8, 9] : List Byte); d.twCtl n = true ∧ d.tws n = Ts.controller ∧ (d.W n).araPend = false ∧ (d.W n).goPend = true ∧ d.busOver n (d.xBytes n (.nackData k b)).1 (d.xBytes n (.nackData k b)).2 = true ∧ k + 1 = min 32 (d.rd (TW_XCTL.WLEN n)) ∧ (d.on (TW_XCTL.PEC n) = false ∨ d.rd (TW_XCTL.RLEN n) ≠ 0) ∧ b.length = min 32 (d.rd (TW_XCTL.RLEN n))) ∧
    (let d : Dev := (devOf [(TW_STATUS.ROLE 3, 2), (TW_STATUS.STATE 3, Ts.controller), (TW_XCTL.WLEN 3, 2), (TW_XCTL.RLEN 3, 3), (TW_XCTL.PEC 3, 1), (TW_XSTAT.STATE 3, 1)]).onW 3 fun x => { x with goPend := true }; let n := (3 : Fin 16); let b := ([7, 8, 9] : List Byte); d.twCtl n = true ∧ d.tws n = Ts.controller ∧ (d.W n).araPend = false ∧ (d.W n).goPend = true ∧ d.busOver n (d.xBytes n (.pecBad b)).1 (d.xBytes n (.pecBad b)).2 = true ∧ d.on (TW_XCTL.PEC n) = true ∧ d.rd (TW_XCTL.RLEN n) ≠ 0) ∧
    (let d : Dev := (devOf [(TW_STATUS.ROLE 3, 2), (TW_STATUS.STATE 3, Ts.controller), (TW_CFG.ARB_MAX 3, 2)]).onW 3 fun x => { x with goPend := true }; let n := (3 : Fin 16); d.twCtl n = true ∧ d.tws n = Ts.controller ∧ (d.W n).tries < d.rd (TW_CFG.ARB_MAX n)) ∧
    (let d : Dev := (devOf [(TW_STATUS.ROLE 3, 2), (TW_STATUS.STATE 3, Ts.controller), (TW_CFG.ARB_MAX 3, 2)]).onW 3 fun x => { x with goPend := true, tries := 2 }; let n := (3 : Fin 16); d.twCtl n = true ∧ d.tws n = Ts.controller ∧ d.rd (TW_CFG.ARB_MAX n) ≤ (d.W n).tries ∧ (d.W n).araPend = false) ∧
    (let d : Dev := devOf [(TW_STATUS.ROLE 3, 3), (TW_STATUS.STATE 3, Ts.controller), (TW_CFG.ARB_MAX 3, 2), (TW_CFG.ADDR 3, 0x20), (TW_WIN.VALID 3 0, 1)]; let n := (3 : Fin 16); let x := (0x20 : BitVec 7); d.rd (TW_STATUS.ROLE n) = 3 ∧ d.tws n = Ts.controller ∧ d.answers n x.toNat = true ∧ (d.W n).tries < d.rd (TW_CFG.ARB_MAX n)) ∧
    (let d : Dev := devOf [(OWN.STATE (ownIx 4 3), 1), (OWN.FUNCTION (ownIx 4 3), 2), (OWN.AGENT (ownIx 4 3), 0x13)]; let n := (3 : Fin 16); d.clk.hub = true ∧ d.rd (TW_STATUS.ROLE n) ≠ d.twRole n ∧ d.tws n ≠ Ts.fenced) := by
  refine ⟨?_, ?_, ?_, ?_, ?_, ?_, ?_, ?_, ?_, ?_, ?_, ?_, ?_, ?_, ?_, ?_, ?_, ?_, ?_, ?_, ?_, ?_, ?_, ?_, ?_, ?_, ?_, ?_, ?_, ?_, ?_, ?_, ?_, ?_⟩ <;> decide +kernel

/-- A state and operands that meet the premises of each clause of `TwoWireTarget`. -/
theorem test_TwoWireTarget :
    (let d : Dev := devOf [(TW_STATUS.ROLE 3, 1), (TW_STATUS.STATE 3, Ts.idle), (TW_STATUS.IDLE_SEEN 3, 1), (TW_CFG.ADDR 3, 0x20), (TW_WIN.VALID 3 1, 1), (TW_WIN.BASE 3 1, 0xC2)]; let n := (3 : Fin 16); let x := (0x21 : BitVec 7); let p := (0x24 : Byte); let w := 1; let e := (d.twLines n (d.now)); e = d.twLines n d.now ∧ e.twHears n = true ∧ e.winIx n x.toNat = some w ∧ w < 4 ∧ e.on (TW_CFG.PEC n) = false) ∧
    (let d : Dev := devOf [(TW_STATUS.ROLE 3, 1), (TW_STATUS.STATE 3, Ts.idle), (TW_STATUS.IDLE_SEEN 3, 1), (TW_CFG.ADDR 3, 0x20), (TW_WIN.VALID 3 1, 1), (TW_WIN.BASE 3 1, 0xC2)]; let n := (3 : Fin 16); let x := (0x22 : BitVec 7); let bs := ([1] : List Byte); let pec := (none : Option Byte); let e := (d.twLines n (d.now)); e = d.twLines n d.now ∧ e.twHears n = true ∧ e.winIx n x.toNat = none) ∧
    (let d : Dev := devOf [(TW_STATUS.ROLE 3, 1), (TW_STATUS.STATE 3, Ts.idle), (TW_STATUS.IDLE_SEEN 3, 1), (TW_CFG.ADDR 3, 0x20), (TW_WIN.VALID 3 1, 1), (TW_WIN.BASE 3 1, 0xC2), (TW_CFG.PEC 3, 1), (TW_WIN.WR 3 1, 1)]; let n := (3 : Fin 16); let x := (0x21 : BitVec 7); let bs := ([0x24, 7] : List Byte); let q := (0 : Byte); let w := 1; let e := (d.twLines n (d.now)); e = d.twLines n d.now ∧ e.twHears n = true ∧ e.winIx n x.toNat = some w ∧ e.on (TW_CFG.PEC n) = true ∧ (w < 4 → e.on (TW_WIN.WR n w) = true) ∧ bs.length ≤ ptrLen w + 32 ∧ e.tws n ≠ Ts.target ∧ q.toNat ≠ crc8 0 (leBytes (2 * x.toNat) 1 ++ bs)) ∧
    (let d : Dev := devOf [(TW_STATUS.ROLE 3, 1), (TW_STATUS.STATE 3, Ts.idle), (TW_STATUS.IDLE_SEEN 3, 1), (TW_CFG.ADDR 3, 0x20), (TW_WIN.VALID 3 1, 1), (TW_WIN.BASE 3 1, 0xC2)]; let n := (3 : Fin 16); let x := (0x21 : BitVec 7); let p := (0x24 : Byte); let b := (9 : Byte); let l := ([] : List Byte); let w := 1; let e := (d.twLines n (d.now)); e = d.twLines n d.now ∧ e.twHears n = true ∧ e.winIx n x.toNat = some w ∧ w < 4 ∧ e.on (TW_CFG.PEC n) = false ∧ e.on (TW_WIN.WR n w) = false) ∧
    (let d : Dev := devOf [(TW_STATUS.ROLE 3, 1), (TW_STATUS.STATE 3, Ts.idle), (TW_STATUS.IDLE_SEEN 3, 1), (TW_CFG.ADDR 3, 0x20), (TW_WIN.VALID 3 1, 1), (TW_WIN.BASE 3 1, 0xC2), (TW_WIN.WR 3 1, 1)]; let n := (3 : Fin 16); let x := (0x21 : BitVec 7); let p := (0x30 : Byte); let l := ([1, 0, 0, 0] : List Byte); let w := 1; let e := (d.twLines n (d.now)); e = d.twLines n d.now ∧ e.twHears n = true ∧ e.winIx n x.toNat = some w ∧ w < 4 ∧ e.on (TW_CFG.PEC n) = false ∧ e.on (TW_WIN.WR n w) = true) ∧
    (let d : Dev := devOf [(TW_STATUS.ROLE 3, 1), (TW_STATUS.STATE 3, Ts.idle), (TW_STATUS.IDLE_SEEN 3, 1), (TW_CFG.ADDR 3, 0x20), (TW_WIN.VALID 3 1, 1), (TW_WIN.BASE 3 1, 0xC2)]; let n := (3 : Fin 16); let x := (0x21 : BitVec 7); let w := 1; let e := (d.twLines n (d.now)); e = d.twLines n d.now ∧ e.twHears n = true ∧ e.winIx n x.toNat = some w ∧ e.on (TW_CFG.PEC n) = false) ∧
    (let d : Dev := (devOf [(TW_STATUS.ROLE 3, 1), (TW_STATUS.STATE 3, Ts.idle), (TW_STATUS.IDLE_SEEN 3, 1), (TW_CFG.ADDR 3, 0x20), (TW_WIN.VALID 3 1, 1), (TW_WIN.BASE 3 1, 0xC2)]).onW 3 fun x => { x with ptr := [(1, 0x24)] }; let n := (3 : Fin 16); let x := (0x21 : BitVec 7); let w := 1; let k := 4; let l := false; let e := (d.twLines n (d.now)); e = d.twLines n d.now ∧ e.twHears n = true ∧ e.winIx n x.toNat = some w ∧ e.on (TW_CFG.PEC n) = false) ∧
    (let d : Dev := devOf [(TW_STATUS.ROLE 3, 1), (TW_STATUS.STATE 3, Ts.idle), (TW_STATUS.IDLE_SEEN 3, 1), (TW_CFG.ADDR 3, 0x20), (TW_WIN.VALID 3 1, 1), (TW_WIN.BASE 3 1, 0xC2)]; let n := (3 : Fin 16); let x := (0x21 : BitVec 7); let w := 1; let e := (d.twLines n (d.now)); e = d.twLines n d.now ∧ e.twHears n = true ∧ e.winIx n x.toNat = some w ∧ e.on (TW_CFG.PEC n) = false) ∧
    (let d : Dev := (devOf [(RAIL_BAND.VMIN 0, 0x123), (TW_STATUS.ROLE 3, 1), (TW_STATUS.STATE 3, Ts.idle), (TW_STATUS.IDLE_SEEN 3, 1), (TW_CFG.ADDR 3, 0x20), (TW_WIN.VALID 3 1, 1), (TW_WIN.BASE 3 1, ((RAIL_BAND.VMIN 0).off / 256))]).onW 3 fun x => { x with ptr := [(1, (RAIL_BAND.VMIN 0).off % 256)] }; let n := (3 : Fin 16); let x := (0x21 : BitVec 7); let w := 1; let off := (RAIL_BAND.VMIN 0).off; let e := (d.twLines n (d.now)); e = d.twLines n d.now ∧ e.twHears n = true ∧ e.winIx n x.toNat = some w ∧ w < 4 ∧ e.on (TW_CFG.PEC n) = false ∧ off = e.rd (TW_WIN.BASE n w) * 256 + e.twPtr n w ∧ off / 4 * 4 = (RAIL_BAND.VMIN 0).off ∧ e.regOut (twAgent n) off false = false) ∧
    (let d : Dev := (devOf [(TW_STATUS.ROLE 3, 1), (TW_STATUS.STATE 3, Ts.idle), (TW_STATUS.IDLE_SEEN 3, 1), (TW_CFG.ADDR 3, 0x20), (TW_WIN.VALID 3 1, 1), (TW_WIN.BASE 3 1, 0xC2)]).onW 3 fun x => { x with reading := true, lastWin := 1, ptr := [(1, 0x25)] }; let n := (3 : Fin 16); let w := 1; let off := 0xC225; d.twHears n = true ∧ (d.W n).reading = true ∧ (d.W n).lastWin = w ∧ w ≤ 6 ∧ inBox w (d.twPtr n w) = false ∧ d.winOff n w (d.twPtr n w) = some off) ∧
    (let d : Dev := devOf [(TW_STATUS.ROLE 3, 1), (TW_STATUS.STATE 3, Ts.idle), (TW_STATUS.IDLE_SEEN 3, 1), (TW_CFG.ADDR 3, 0x20), (TW_WIN.VALID 3 1, 1), (TW_WIN.BASE 3 1, 0xC2)]; let n := (3 : Fin 16); (d.W n).reading = false) ∧
    (let d : Dev := devOf [(TW_STATUS.ROLE 0, 1), (TW_STATUS.STATE 0, Ts.idle), (TW_STATUS.IDLE_SEEN 0, 1), (TW_PRIV.EN 0, 2), (TW_CFG.ADDR 0, 0x20)]; let b := (⟨2, none⟩ : BoxSubmit); let e := d.twLines 0 d.now; e = d.twLines 0 d.now ∧ e.twHears 0 = true ∧ e.rdBit (TW_PRIV.EN 0) 1 = true ∧ e.rd (TW_CFG.ADDR 0) < 0x70 ∧ e.on (TW_CFG.PEC 0) = false ∧ b.pec = none ∧ (e.bmc.busy = true ∨ b.byte ≠ 1)) ∧
    (let d : Dev := devOf [(TW_STATUS.ROLE 0, 1), (TW_STATUS.STATE 0, Ts.idle), (TW_STATUS.IDLE_SEEN 0, 1), (TW_PRIV.EN 0, 2), (TW_CFG.ADDR 0, 0x20)]; let b := (⟨1, none⟩ : BoxSubmit); let e := d.twLines 0 d.now; e = d.twLines 0 d.now ∧ e.twHears 0 = true ∧ e.rdBit (TW_PRIV.EN 0) 1 = true ∧ e.rd (TW_CFG.ADDR 0) < 0x70 ∧ e.on (TW_CFG.PEC 0) = false ∧ b.pec = none ∧ b.byte = 1 ∧ e.bmc.busy = false) ∧
    (let d : Dev := { devOf [(TW_STATUS.ROLE 0, 1), (TW_STATUS.STATE 0, Ts.idle), (TW_STATUS.IDLE_SEEN 0, 1), (TW_PRIV.EN 0, 2), (TW_CFG.ADDR 0, 0x20)] with host := { out := List.replicate 4096 { id := 4, opc := 0, d := { src := .host 3, tag := 7, cls := 0, idx := 0, payload := [] } } } }; let b := (⟨1, none⟩ : BoxSubmit); (d.twLines 0 d.now).twHears 0 = true ∧ (d.twLines 0 d.now).rdBit (TW_PRIV.EN 0) 1 = true ∧ (d.twLines 0 d.now).rd (TW_CFG.ADDR 0) < 0x70 ∧ (d.twLines 0 d.now).on (TW_CFG.PEC 0) = false ∧ b.pec = none ∧ b.byte = 1 ∧ (d.twLines 0 d.now).bmc.busy = false ∧ 4096 ≤ (d.twLines 0 d.now).host.out.length) ∧
    (let d : Dev := devOf [(TW_STATUS.ROLE 0, 1), (TW_STATUS.STATE 0, Ts.idle), (TW_STATUS.IDLE_SEEN 0, 1), (TW_PRIV.EN 0, 2), (TW_CFG.ADDR 0, 0x20), (TW_CFG.PEC 0, 1)]; let b := (⟨1, (some (BitVec.ofNat 8 (crc8 0 (leBytes (2 * 0x25) 1 ++ [0x80, 0x50, 1]))))⟩ : BoxSubmit); let e := d.twLines 0 d.now; e = d.twLines 0 d.now ∧ e.twHears 0 = true ∧ e.rdBit (TW_PRIV.EN 0) 1 = true ∧ e.rd (TW_CFG.ADDR 0) < 0x70 ∧ e.on (TW_CFG.PEC 0) = true ∧ b.byte = 1 ∧ e.bmc.busy = false ∧ b.pec.map (·.toNat) = some (crc8 0 (leBytes (2 * (e.rd (TW_CFG.ADDR 0) + 5)) 1 ++ [0x80, 0x50, b.byte]))) ∧
    (let d : Dev := devOf [(TW_STATUS.ROLE 0, 1), (TW_STATUS.STATE 0, Ts.idle), (TW_STATUS.IDLE_SEEN 0, 1), (TW_PRIV.EN 0, 2), (TW_CFG.ADDR 0, 0x20), (TW_CFG.PEC 0, 1)]; let b := (⟨1, none⟩ : BoxSubmit); let e := d.twLines 0 d.now; e = d.twLines 0 d.now ∧ e.twHears 0 = true ∧ e.rdBit (TW_PRIV.EN 0) 1 = true ∧ e.rd (TW_CFG.ADDR 0) < 0x70 ∧ e.on (TW_CFG.PEC 0) = true ∧ b.pec.map (·.toNat) ≠ some (crc8 0 (leBytes (2 * (e.rd (TW_CFG.ADDR 0) + 5)) 1 ++ [0x80, 0x50, b.byte]))) ∧
    (let d : Dev := devOf []; let b := (⟨1, none⟩ : BoxSubmit); let e := d.twLines 0 d.now; e = d.twLines 0 d.now ∧ e.twHears 0 = false) ∧
    (let d : Dev := devOf [(TW_STATUS.ROLE 0, 1), (TW_STATUS.STATE 0, Ts.idle), (TW_STATUS.IDLE_SEEN 0, 1), (TW_PRIV.EN 0, 2), (TW_CFG.ADDR 0, 0x20), (TW_PMB.PMB_EN 0, 1), (TW_PMB.PMB_ADDR 0, 0x40)]; let x := (0x40 : BitVec 7); let v := (79 : Byte); let e := d.twLines 0 d.now; e = d.twLines 0 d.now ∧ e.twHears 0 = true ∧ e.winIx 0 x.toNat = none ∧ e.atPmb 0 x.toNat = true ∧ v.toNat ≤ 79) ∧
    (let d : Dev := devOf [(TW_STATUS.ROLE 0, 1), (TW_STATUS.STATE 0, Ts.idle), (TW_STATUS.IDLE_SEEN 0, 1), (TW_PRIV.EN 0, 2), (TW_CFG.ADDR 0, 0x20), (TW_PMB.PMB_EN 0, 1), (TW_PMB.PMB_ADDR 0, 0x40)]; let x := (0x40 : BitVec 7); let v := (0x55 : Byte); let e := d.twLines 0 d.now; e = d.twLines 0 d.now ∧ e.twHears 0 = true ∧ e.winIx 0 x.toNat = none ∧ e.atPmb 0 x.toNat = true ∧ (e.pmbVal v.toNat).2 = .no ∧ v ≠ 3) := by
  refine ⟨?_, ?_, ?_, ?_, ?_, ?_, ?_, ?_, ?_, ?_, ?_, ?_, ?_, ?_, ?_, ?_, ?_, ?_, ?_⟩ <;> decide +kernel

/-- A state and operands that meet the premises of each clause of `PmbusReads`. -/
theorem test_PmbusReads :
    (let d : Dev := devOf [(TW_STATUS.ROLE 0, 1), (TW_STATUS.STATE 0, Ts.idle), (TW_STATUS.IDLE_SEEN 0, 1), (TW_PMB.PMB_EN 0, 1), (TW_PMB.PMB_ADDR 0, 0x40)]; let v := (79 : Byte); let x := ({} : PmbTail); let e := d.twLines 0 d.now; e = d.twLines 0 d.now ∧ e.pmbOn = true ∧ v.toNat ≤ 79 ∧ e.pmbPecOk 0 [v] x.pec = true) ∧
    (let d : Dev := devOf [(TW_STATUS.ROLE 0, 1), (TW_STATUS.STATE 0, Ts.idle), (TW_STATUS.IDLE_SEEN 0, 1), (TW_PMB.PMB_EN 0, 1), (TW_PMB.PMB_ADDR 0, 0x40)]; let v := (79 : Byte); let x := ({ pec := some 0 } : PmbTail); let e := d.twLines 0 d.now; e = d.twLines 0 d.now ∧ e.pmbOn = true ∧ v.toNat ≤ 79 ∧ e.pmbPecOk 0 [v] x.pec = false) ∧
    (let d : Dev := devOf []; let v := (79 : Byte); let x := ({} : PmbTail); let e := d.twLines 0 d.now; e = d.twLines 0 d.now ∧ e.pmbOn = false) ∧
    (let d : Dev := devOf [(TW_STATUS.ROLE 0, 1), (TW_STATUS.STATE 0, Ts.idle), (TW_STATUS.IDLE_SEEN 0, 1), (TW_PMB.PMB_EN 0, 1), (TW_PMB.PMB_ADDR 0, 0x40)]; let v := (80 : Byte); let x := ({} : PmbTail); let e := d.twLines 0 d.now; e = d.twLines 0 d.now ∧ e.pmbOn = true ∧ 80 ≤ v.toNat) ∧
    (let d : Dev := devOf [(TW_STATUS.ROLE 0, 1), (TW_STATUS.STATE 0, Ts.idle), (TW_STATUS.IDLE_SEEN 0, 1), (TW_PMB.PMB_EN 0, 1), (TW_PMB.PMB_ADDR 0, 0x40)]; let x := ({ reads := 3 } : PmbTail); let e := d.twLines 0 d.now; e = d.twLines 0 d.now ∧ e.pmbOn = true) ∧
    (let d : Dev := devOf [(TW_STATUS.ROLE 0, 1), (TW_STATUS.STATE 0, Ts.idle), (TW_STATUS.IDLE_SEEN 0, 1), (TW_PMB.PMB_EN 0, 1), (TW_PMB.PMB_ADDR 0, 0x40)]; let x := ({ reads := 3 } : PmbTail); let e := d.twLines 0 d.now; e = d.twLines 0 d.now ∧ e.pmbOn = true) ∧
    (let d : Dev := { devOf [(TW_STATUS.ROLE 0, 1), (TW_STATUS.STATE 0, Ts.idle), (TW_STATUS.IDLE_SEEN 0, 1), (TW_PMB.PMB_EN 0, 1), (TW_PMB.PMB_ADDR 0, 0x40)] with bmc := { cml := true } }; let x := ({} : PmbTail); let e := d.twLines 0 d.now; e = d.twLines 0 d.now ∧ e.pmbOn = true ∧ x.pec = none) ∧
    (let d : Dev := devOf [(TW_STATUS.ROLE 0, 1), (TW_STATUS.STATE 0, Ts.idle), (TW_STATUS.IDLE_SEEN 0, 1), (TW_PMB.PMB_EN 0, 1), (TW_PMB.PMB_ADDR 0, 0x40)]; let x := ({ reads := 3 } : PmbTail); let e := d.twLines 0 d.now; e = d.twLines 0 d.now ∧ e.pmbOn = true) ∧
    (let d : Dev := devOf [(TW_STATUS.ROLE 0, 1), (TW_STATUS.STATE 0, Ts.idle), (TW_STATUS.IDLE_SEEN 0, 1), (TW_PMB.PMB_EN 0, 1), (TW_PMB.PMB_ADDR 0, 0x40)]; let x := ({ reads := 3 } : PmbTail); let e := d.twLines 0 d.now; e = d.twLines 0 d.now ∧ e.pmbOn = true) ∧
    (let d : Dev := devOf [(TW_STATUS.ROLE 0, 1), (TW_STATUS.STATE 0, Ts.idle), (TW_STATUS.IDLE_SEEN 0, 1), (TW_PMB.PMB_EN 0, 1), (TW_PMB.PMB_ADDR 0, 0x40)]; let x := ({ reads := 3 } : PmbTail); let e := d.twLines 0 d.now; e = d.twLines 0 d.now ∧ e.pmbOn = true) ∧
    (let d : Dev := devOf [(TW_STATUS.ROLE 0, 1), (TW_STATUS.STATE 0, Ts.idle), (TW_STATUS.IDLE_SEEN 0, 1), (TW_PMB.PMB_EN 0, 1), (TW_PMB.PMB_ADDR 0, 0x40)]; let x := ({ reads := 3 } : PmbTail); let e := d.twLines 0 d.now; e = d.twLines 0 d.now ∧ e.pmbOn = true) ∧
    (let d : Dev := devOf [(TW_STATUS.ROLE 0, 1), (TW_STATUS.STATE 0, Ts.idle), (TW_STATUS.IDLE_SEEN 0, 1), (TW_PMB.PMB_EN 0, 1), (TW_PMB.PMB_ADDR 0, 0x40)]; let x := ({ reads := 3 } : PmbTail); let e := d.twLines 0 d.now; e = d.twLines 0 d.now ∧ e.pmbOn = true) ∧
    (let d : Dev := devOf [(TW_STATUS.ROLE 0, 1), (TW_STATUS.STATE 0, Ts.idle), (TW_STATUS.IDLE_SEEN 0, 1), (TW_PMB.PMB_EN 0, 1), (TW_PMB.PMB_ADDR 0, 0x40)]; let x := ({ reads := 3 } : PmbTail); let e := d.twLines 0 d.now; e = d.twLines 0 d.now ∧ e.pmbOn = true) ∧
    (let d : Dev := LR [(TW_STATUS.ROLE 0, 1), (TW_STATUS.STATE 0, Ts.idle), (TW_STATUS.IDLE_SEEN 0, 1), (TW_PMB.PMB_EN 0, 1), (TW_PMB.PMB_ADDR 0, 0x40), (RAIL_EVT.EVT 3, 8)]; let x := ({ reads := 3 } : PmbTail); let e := d.twLines 0 d.now; e = d.twLines 0 d.now ∧ e.pmbOn = true ∧ d.bmc.page < 64 ∧ d.railLink d.bmc.page = true) ∧
    (let d : Dev := LR [(TW_STATUS.ROLE 0, 1), (TW_STATUS.STATE 0, Ts.idle), (TW_STATUS.IDLE_SEEN 0, 1), (TW_PMB.PMB_EN 0, 1), (TW_PMB.PMB_ADDR 0, 0x40), (RAIL_EVT.EVT 3, 8)]; let x := ({ reads := 3 } : PmbTail); let e := d.twLines 0 d.now; e = d.twLines 0 d.now ∧ e.pmbOn = true ∧ d.bmc.page < 64 ∧ d.railLink d.bmc.page = true) ∧
    (let d : Dev := LE [(TW_STATUS.ROLE 0, 1), (TW_STATUS.STATE 0, Ts.idle), (TW_STATUS.IDLE_SEEN 0, 1), (TW_PMB.PMB_EN 0, 1), (TW_PMB.PMB_ADDR 0, 0x40)]; let x := ({ reads := 3 } : PmbTail); let e := d.twLines 0 d.now; let n := 5; e = d.twLines 0 d.now ∧ e.pmbOn = true ∧ 64 ≤ d.bmc.page ∧ d.dieOut 4 = false ∧ n = d.bmc.page - 64) ∧
    (let d : Dev := LE [(TW_STATUS.ROLE 0, 1), (TW_STATUS.STATE 0, Ts.idle), (TW_STATUS.IDLE_SEEN 0, 1), (TW_PMB.PMB_EN 0, 1), (TW_PMB.PMB_ADDR 0, 0x40)]; let x := ({ reads := 3 } : PmbTail); let e := d.twLines 0 d.now; let n := 5; e = d.twLines 0 d.now ∧ e.pmbOn = true ∧ 64 ≤ d.bmc.page ∧ d.dieOut 4 = false ∧ n = d.bmc.page - 64) ∧
    (let d : Dev := LR [(TW_STATUS.ROLE 0, 1), (TW_STATUS.STATE 0, Ts.idle), (TW_STATUS.IDLE_SEEN 0, 1), (TW_PMB.PMB_EN 0, 1), (TW_PMB.PMB_ADDR 0, 0x40)]; let x := ({ reads := 3 } : PmbTail); let e := d.twLines 0 d.now; e = d.twLines 0 d.now ∧ e.pmbOn = true ∧ d.bmc.page < 64 ∧ d.railLink d.bmc.page = true) ∧
    (let d : Dev := LR [(TW_STATUS.ROLE 0, 1), (TW_STATUS.STATE 0, Ts.idle), (TW_STATUS.IDLE_SEEN 0, 1), (TW_PMB.PMB_EN 0, 1), (TW_PMB.PMB_ADDR 0, 0x40)]; let x := ({ reads := 3 } : PmbTail); let e := d.twLines 0 d.now; e = d.twLines 0 d.now ∧ e.pmbOn = true ∧ d.bmc.page < 64 ∧ d.railLink d.bmc.page = true) ∧
    (let d : Dev := LE [(TW_STATUS.ROLE 0, 1), (TW_STATUS.STATE 0, Ts.idle), (TW_STATUS.IDLE_SEEN 0, 1), (TW_PMB.PMB_EN 0, 1), (TW_PMB.PMB_ADDR 0, 0x40)]; let x := ({ reads := 3 } : PmbTail); let e := d.twLines 0 d.now; let n := 5; e = d.twLines 0 d.now ∧ e.pmbOn = true ∧ 64 ≤ d.bmc.page ∧ d.dieOut 4 = false ∧ n = d.bmc.page - 64) ∧
    (let d : Dev := LE [(TW_STATUS.ROLE 0, 1), (TW_STATUS.STATE 0, Ts.idle), (TW_STATUS.IDLE_SEEN 0, 1), (TW_PMB.PMB_EN 0, 1), (TW_PMB.PMB_ADDR 0, 0x40)]; let x := ({ reads := 3 } : PmbTail); let e := d.twLines 0 d.now; let n := 5; e = d.twLines 0 d.now ∧ e.pmbOn = true ∧ 64 ≤ d.bmc.page ∧ d.dieOut 4 = false ∧ n = d.bmc.page - 64) ∧
    (let d : Dev := (LE [(TW_STATUS.ROLE 0, 1), (TW_STATUS.STATE 0, Ts.idle), (TW_STATUS.IDLE_SEEN 0, 1), (TW_PMB.PMB_EN 0, 1), (TW_PMB.PMB_ADDR 0, 0x40)]).onE 5 fun x => { x with vin := 2560 }; let x := ({ reads := 3 } : PmbTail); let e := d.twLines 0 d.now; let n := 5; e = d.twLines 0 d.now ∧ e.pmbOn = true ∧ 64 ≤ d.bmc.page ∧ d.dieOut 4 = false ∧ n = d.bmc.page - 64) ∧
    (let d : Dev := (LE [(TW_STATUS.ROLE 0, 1), (TW_STATUS.STATE 0, Ts.idle), (TW_STATUS.IDLE_SEEN 0, 1), (TW_PMB.PMB_EN 0, 1), (TW_PMB.PMB_ADDR 0, 0x40)]).onE 5 fun x => { x with vin := 2560 }; let x := ({ reads := 3 } : PmbTail); let e := d.twLines 0 d.now; let n := 5; e = d.twLines 0 d.now ∧ e.pmbOn = true ∧ 64 ≤ d.bmc.page ∧ d.dieOut 4 = false ∧ n = d.bmc.page - 64) ∧
    (let d : Dev := (LRV [(TW_STATUS.ROLE 0, 1), (TW_STATUS.STATE 0, Ts.idle), (TW_STATUS.IDLE_SEEN 0, 1), (TW_PMB.PMB_EN 0, 1), (TW_PMB.PMB_ADDR 0, 0x40)]).onB 3 fun x => { x with vin := 2560 }; let x := ({ reads := 3 } : PmbTail); let e := d.twLines 0 d.now; let p := 0; let b := 3; e = d.twLines 0 d.now ∧ e.pmbOn = true ∧ d.bmc.page < 64 ∧ d.railLink d.bmc.page = true ∧ (d.warp d.bmc.page).head? = some p ∧ d.phBranch p = some b) ∧
    (let d : Dev := (LRV [(TW_STATUS.ROLE 0, 1), (TW_STATUS.STATE 0, Ts.idle), (TW_STATUS.IDLE_SEEN 0, 1), (TW_PMB.PMB_EN 0, 1), (TW_PMB.PMB_ADDR 0, 0x40)]).onB 3 fun x => { x with vin := 2560 }; let x := ({ reads := 3 } : PmbTail); let e := d.twLines 0 d.now; let p := 0; let b := 3; e = d.twLines 0 d.now ∧ e.pmbOn = true ∧ d.bmc.page < 64 ∧ d.railLink d.bmc.page = true ∧ (d.warp d.bmc.page).head? = some p ∧ d.phBranch p = some b) ∧
    (let d : Dev := (LE [(TW_STATUS.ROLE 0, 1), (TW_STATUS.STATE 0, Ts.idle), (TW_STATUS.IDLE_SEEN 0, 1), (TW_PMB.PMB_EN 0, 1), (TW_PMB.PMB_ADDR 0, 0x40), (ENT_SHUNT.RSHUNT 5, 2000)]).onE 5 fun x => { x with i := 99 }; let x := ({ reads := 3 } : PmbTail); let e := d.twLines 0 d.now; let n := 5; e = d.twLines 0 d.now ∧ e.pmbOn = true ∧ 64 ≤ d.bmc.page ∧ d.dieOut 4 = false ∧ n = d.bmc.page - 64 ∧ d.rd (ENT_SHUNT.RSHUNT n) ≠ 0) ∧
    (let d : Dev := (LE [(TW_STATUS.ROLE 0, 1), (TW_STATUS.STATE 0, Ts.idle), (TW_STATUS.IDLE_SEEN 0, 1), (TW_PMB.PMB_EN 0, 1), (TW_PMB.PMB_ADDR 0, 0x40), (ENT_SHUNT.RSHUNT 5, 2000)]).onE 5 fun x => { x with i := 99 }; let x := ({ reads := 3 } : PmbTail); let e := d.twLines 0 d.now; let n := 5; e = d.twLines 0 d.now ∧ e.pmbOn = true ∧ 64 ≤ d.bmc.page ∧ d.dieOut 4 = false ∧ n = d.bmc.page - 64 ∧ d.rd (ENT_SHUNT.RSHUNT n) ≠ 0) ∧
    (let d : Dev := LR [(TW_STATUS.ROLE 0, 1), (TW_STATUS.STATE 0, Ts.idle), (TW_STATUS.IDLE_SEEN 0, 1), (TW_PMB.PMB_EN 0, 1), (TW_PMB.PMB_ADDR 0, 0x40), (RAIL_VMEAS.VMEAS 3, 24000)]; let x := ({ reads := 3 } : PmbTail); let e := d.twLines 0 d.now; e = d.twLines 0 d.now ∧ e.pmbOn = true ∧ d.bmc.page < 64 ∧ d.railLink d.bmc.page = true) ∧
    (let d : Dev := LR [(TW_STATUS.ROLE 0, 1), (TW_STATUS.STATE 0, Ts.idle), (TW_STATUS.IDLE_SEEN 0, 1), (TW_PMB.PMB_EN 0, 1), (TW_PMB.PMB_ADDR 0, 0x40), (RAIL_VMEAS.VMEAS 3, 24000)]; let x := ({ reads := 3 } : PmbTail); let e := d.twLines 0 d.now; e = d.twLines 0 d.now ∧ e.pmbOn = true ∧ d.bmc.page < 64 ∧ d.railLink d.bmc.page = true) ∧
    (let d : Dev := (LE [(TW_STATUS.ROLE 0, 1), (TW_STATUS.STATE 0, Ts.idle), (TW_STATUS.IDLE_SEEN 0, 1), (TW_PMB.PMB_EN 0, 1), (TW_PMB.PMB_ADDR 0, 0x40)]).onE 5 fun x => { x with vout := 2560 }; let x := ({ reads := 3 } : PmbTail); let e := d.twLines 0 d.now; let n := 5; e = d.twLines 0 d.now ∧ e.pmbOn = true ∧ 64 ≤ d.bmc.page ∧ d.dieOut 4 = false ∧ n = d.bmc.page - 64) ∧
    (let d : Dev := (LE [(TW_STATUS.ROLE 0, 1), (TW_STATUS.STATE 0, Ts.idle), (TW_STATUS.IDLE_SEEN 0, 1), (TW_PMB.PMB_EN 0, 1), (TW_PMB.PMB_ADDR 0, 0x40)]).onE 5 fun x => { x with vout := 2560 }; let x := ({ reads := 3 } : PmbTail); let e := d.twLines 0 d.now; let n := 5; e = d.twLines 0 d.now ∧ e.pmbOn = true ∧ 64 ≤ d.bmc.page ∧ d.dieOut 4 = false ∧ n = d.bmc.page - 64) ∧
    (let d : Dev := LR [(TW_STATUS.ROLE 0, 1), (TW_STATUS.STATE 0, Ts.idle), (TW_STATUS.IDLE_SEEN 0, 1), (TW_PMB.PMB_EN 0, 1), (TW_PMB.PMB_ADDR 0, 0x40), (RAIL_IMEAS.IMEAS 3, 160)]; let x := ({ reads := 3 } : PmbTail); let e := d.twLines 0 d.now; e = d.twLines 0 d.now ∧ e.pmbOn = true ∧ d.bmc.page < 64 ∧ d.railLink d.bmc.page = true) ∧
    (let d : Dev := LR [(TW_STATUS.ROLE 0, 1), (TW_STATUS.STATE 0, Ts.idle), (TW_STATUS.IDLE_SEEN 0, 1), (TW_PMB.PMB_EN 0, 1), (TW_PMB.PMB_ADDR 0, 0x40), (RAIL_IMEAS.IMEAS 3, 160)]; let x := ({ reads := 3 } : PmbTail); let e := d.twLines 0 d.now; e = d.twLines 0 d.now ∧ e.pmbOn = true ∧ d.bmc.page < 64 ∧ d.railLink d.bmc.page = true) ∧
    (let d : Dev := LE [(TW_STATUS.ROLE 0, 1), (TW_STATUS.STATE 0, Ts.idle), (TW_STATUS.IDLE_SEEN 0, 1), (TW_PMB.PMB_EN 0, 1), (TW_PMB.PMB_ADDR 0, 0x40), (ENT_STATUS.TJ_EST 5, 700)]; let x := ({ reads := 3 } : PmbTail); let e := d.twLines 0 d.now; let n := 5; e = d.twLines 0 d.now ∧ e.pmbOn = true ∧ 64 ≤ d.bmc.page ∧ d.dieOut 4 = false ∧ n = d.bmc.page - 64) ∧
    (let d : Dev := LE [(TW_STATUS.ROLE 0, 1), (TW_STATUS.STATE 0, Ts.idle), (TW_STATUS.IDLE_SEEN 0, 1), (TW_PMB.PMB_EN 0, 1), (TW_PMB.PMB_ADDR 0, 0x40), (ENT_STATUS.TJ_EST 5, 700)]; let x := ({ reads := 3 } : PmbTail); let e := d.twLines 0 d.now; let n := 5; e = d.twLines 0 d.now ∧ e.pmbOn = true ∧ 64 ≤ d.bmc.page ∧ d.dieOut 4 = false ∧ n = d.bmc.page - 64) ∧
    (let d : Dev := LR [(TW_STATUS.ROLE 0, 1), (TW_STATUS.STATE 0, Ts.idle), (TW_STATUS.IDLE_SEEN 0, 1), (TW_PMB.PMB_EN 0, 1), (TW_PMB.PMB_ADDR 0, 0x40), (RAIL_PMEAS.PMEAS 3, 160)]; let x := ({ reads := 3 } : PmbTail); let e := d.twLines 0 d.now; e = d.twLines 0 d.now ∧ e.pmbOn = true ∧ d.bmc.page < 64 ∧ d.railLink d.bmc.page = true) ∧
    (let d : Dev := LR [(TW_STATUS.ROLE 0, 1), (TW_STATUS.STATE 0, Ts.idle), (TW_STATUS.IDLE_SEEN 0, 1), (TW_PMB.PMB_EN 0, 1), (TW_PMB.PMB_ADDR 0, 0x40), (RAIL_PMEAS.PMEAS 3, 160)]; let x := ({ reads := 3 } : PmbTail); let e := d.twLines 0 d.now; e = d.twLines 0 d.now ∧ e.pmbOn = true ∧ d.bmc.page < 64 ∧ d.railLink d.bmc.page = true) ∧
    (let d : Dev := (LE [(TW_STATUS.ROLE 0, 1), (TW_STATUS.STATE 0, Ts.idle), (TW_STATUS.IDLE_SEEN 0, 1), (TW_PMB.PMB_EN 0, 1), (TW_PMB.PMB_ADDR 0, 0x40), (ENT_SHUNT.RSHUNT 5, 2000)]).onE 5 fun x => { x with i := 99, vin := 2560 }; let x := ({ reads := 3 } : PmbTail); let e := d.twLines 0 d.now; let n := 5; e = d.twLines 0 d.now ∧ e.pmbOn = true ∧ 64 ≤ d.bmc.page ∧ d.dieOut 4 = false ∧ n = d.bmc.page - 64 ∧ d.rd (ENT_SHUNT.RSHUNT n) ≠ 0) ∧
    (let d : Dev := (LE [(TW_STATUS.ROLE 0, 1), (TW_STATUS.STATE 0, Ts.idle), (TW_STATUS.IDLE_SEEN 0, 1), (TW_PMB.PMB_EN 0, 1), (TW_PMB.PMB_ADDR 0, 0x40), (ENT_SHUNT.RSHUNT 5, 2000)]).onE 5 fun x => { x with i := 99, vin := 2560 }; let x := ({ reads := 3 } : PmbTail); let e := d.twLines 0 d.now; let n := 5; e = d.twLines 0 d.now ∧ e.pmbOn = true ∧ 64 ≤ d.bmc.page ∧ d.dieOut 4 = false ∧ n = d.bmc.page - 64 ∧ d.rd (ENT_SHUNT.RSHUNT n) ≠ 0) ∧
    (let d : Dev := LR [(TW_STATUS.ROLE 0, 1), (TW_STATUS.STATE 0, Ts.idle), (TW_STATUS.IDLE_SEEN 0, 1), (TW_PMB.PMB_EN 0, 1), (TW_PMB.PMB_ADDR 0, 0x40)]; let x := ({ reads := 3 } : PmbTail); let e := d.twLines 0 d.now; e = d.twLines 0 d.now ∧ e.pmbOn = true ∧ d.bmc.page < 64) ∧
    (let d : Dev := LR [(TW_STATUS.ROLE 0, 1), (TW_STATUS.STATE 0, Ts.idle), (TW_STATUS.IDLE_SEEN 0, 1), (TW_PMB.PMB_EN 0, 1), (TW_PMB.PMB_ADDR 0, 0x40)]; let x := ({ reads := 3 } : PmbTail); let e := d.twLines 0 d.now; e = d.twLines 0 d.now ∧ e.pmbOn = true ∧ d.bmc.page < 64) ∧
    (let d : Dev := LR [(TW_STATUS.ROLE 0, 1), (TW_STATUS.STATE 0, Ts.idle), (TW_STATUS.IDLE_SEEN 0, 1), (TW_PMB.PMB_EN 0, 1), (TW_PMB.PMB_ADDR 0, 0x40)]; let x := ({ reads := 3 } : PmbTail); let e := d.twLines 0 d.now; e = d.twLines 0 d.now ∧ e.pmbOn = true ∧ d.bmc.page < 64) ∧
    (let d : Dev := LE [(TW_STATUS.ROLE 0, 1), (TW_STATUS.STATE 0, Ts.idle), (TW_STATUS.IDLE_SEEN 0, 1), (TW_PMB.PMB_EN 0, 1), (TW_PMB.PMB_ADDR 0, 0x40)]; let x := ({ reads := 3 } : PmbTail); let e := d.twLines 0 d.now; e = d.twLines 0 d.now ∧ e.pmbOn = true ∧ 64 ≤ d.bmc.page) ∧
    (let d : Dev := LE [(TW_STATUS.ROLE 0, 1), (TW_STATUS.STATE 0, Ts.idle), (TW_STATUS.IDLE_SEEN 0, 1), (TW_PMB.PMB_EN 0, 1), (TW_PMB.PMB_ADDR 0, 0x40)]; let x := ({ reads := 3 } : PmbTail); let e := d.twLines 0 d.now; e = d.twLines 0 d.now ∧ e.pmbOn = true ∧ 64 ≤ d.bmc.page) := by
  refine ⟨?_, ?_, ?_, ?_, ?_, ?_, ?_, ?_, ?_, ?_, ?_, ?_, ?_, ?_, ?_, ?_, ?_, ?_, ?_, ?_, ?_, ?_, ?_, ?_, ?_, ?_, ?_, ?_, ?_, ?_, ?_, ?_, ?_, ?_, ?_, ?_, ?_, ?_, ?_, ?_, ?_, ?_, ?_, ?_⟩ <;> decide +kernel

/-- A state and operands that meet the premises of each clause of `StreamLink`. -/
theorem test_StreamLink :
    (let d : Dev := { devOf [(SL_CFG.EN, 1), (SL_CFG.TX_EN, 3), (SL_CFG.RX_EN, 3), (SL_STATUS.RX_LOCK, 3), (SL_STATUS.LSTATE, 2)] with stream := { peerLock := 3, ctrlAt := 2000000 } }; d.ls = Ls.up ∧ d.now < d.stream.ctrlAt ∧ d.vcNext = none) ∧
    (let d : Dev := { devOf [(SL_CFG.EN, 1), (SL_CFG.TX_EN, 3), (SL_CFG.RX_EN, 3), (SL_STATUS.RX_LOCK, 3), (SL_STATUS.LSTATE, 2)] with stream := { peerLock := 3 } }; d.ls = Ls.up ∧ d.stream.ctrlAt ≤ d.now) ∧
    (let d : Dev := { (devOf [(SL_CFG.EN, 1), (SL_CFG.TX_EN, 3), (SL_CFG.RX_EN, 3), (SL_STATUS.RX_LOCK, 3), (SL_STATUS.LSTATE, 2), (VC_CFG.QUOTA 4, 9), (VC_CREDIT.LIMIT 4, 3), (OWN.STATE (ownIx 5 4), 1), (OWN.FUNCTION (ownIx 5 4), 1)]).onV 4 (fun x => { x with q := [{ btype := 3, k := 0, thread := 9, tag := 7, stamp := 4 }] }) with stream := { peerLock := 3, ctrlAt := 2000000 } }; let v := 4; d.ls = Ls.up ∧ d.now < d.stream.ctrlAt ∧ d.vcNext = some v) ∧
    (let d : Dev := { devOf [(SL_CFG.EN, 1), (SL_CFG.TX_EN, 3), (SL_CFG.RX_EN, 3), (SL_STATUS.RX_LOCK, 3), (SL_STATUS.LSTATE, 1)] with stream := { peerLock := 3 } }; d.slTrains = true ∧ d.txLanes ≠ 0) ∧
    (let d : Dev := { devOf [(SL_CFG.EN, 1), (SL_CFG.TX_EN, 3), (SL_CFG.RX_EN, 3), (SL_STATUS.RX_LOCK, 1), (SL_STATUS.LSTATE, 1)] with stream := { lockN := [(1, 3)] } }; let n := (1 : Fin 8); let m := ({ sync := true } : Codeword); m.wf = true ∧ m.sync = true ∧ m.uncorrectable = false ∧ d.looped = false ∧ d.ls ≠ Ls.off ∧ d.rxLanes.testBit n = true ∧ d.rdBit SL_STATUS.RX_LOCK n = false ∧ nget d.stream.lockN n = 3) ∧
    (let d : Dev := { devOf [(SL_CFG.EN, 1), (SL_CFG.TX_EN, 3), (SL_CFG.RX_EN, 3), (SL_STATUS.RX_LOCK, 1), (SL_STATUS.LSTATE, 1)] with stream := { lockN := [(1, 2)] } }; let n := (1 : Fin 8); let m := ({ sync := true } : Codeword); m.wf = true ∧ m.sync = true ∧ m.uncorrectable = false ∧ d.looped = false ∧ d.ls ≠ Ls.off ∧ d.rxLanes.testBit n = true ∧ d.rdBit SL_STATUS.RX_LOCK n = false ∧ nget d.stream.lockN n < 3) ∧
    (let d : Dev := { devOf [(SL_CFG.EN, 1), (SL_CFG.TX_EN, 3), (SL_CFG.RX_EN, 3), (SL_STATUS.RX_LOCK, 3), (SL_STATUS.LSTATE, 2)] with stream := { badN := [(1, 3)] } }; let n := (1 : Fin 8); let m := ({ uncorrectable := true } : Codeword); m.wf = true ∧ m.uncorrectable = true ∧ d.looped = false ∧ d.ls = Ls.up ∧ d.rxUse.testBit n = true ∧ nget d.stream.badN n = 3) ∧
    (let d : Dev := { devOf [(SL_CFG.EN, 1), (SL_CFG.TX_EN, 3), (SL_CFG.RX_EN, 3), (SL_STATUS.RX_LOCK, 3), (SL_STATUS.LSTATE, 2)] with stream := { peerLock := 3 } }; let p := (List.replicate 252 0 : List Byte); p.length = 252 ∧ d.ls = Ls.up ∧ closed d.now d.stream.peerAt 3200 = false ∧ (p.drop 35).all (· = 0) = true ∧ leNat p 32 2 = 0) ∧
    (let d : Dev := { devOf [(SL_CFG.EN, 1), (SL_CFG.TX_EN, 3), (SL_CFG.RX_EN, 3), (SL_STATUS.RX_LOCK, 3), (SL_STATUS.LSTATE, 2)] with stream := { peerLock := 3 } }; let p := ([0, 0, 9, 0] ++ List.replicate 28 0 ++ [2] ++ List.replicate 219 0 : List Byte); let v := (1 : Fin 16); p.length = 252 ∧ d.ls = Ls.up ∧ closed d.now d.stream.peerAt 3200 = false ∧ (p.drop 35).all (· = 0) = true ∧ leNat p 32 2 = 2 ^ v.val ∧ (leNat p (2 * v) 2 + 65536 - d.rd (VC_CREDIT.LIMIT v)) % 65536 ≤ 32768) ∧
    (let d : Dev := { devOf [(SL_CFG.EN, 1), (SL_CFG.TX_EN, 3), (SL_CFG.RX_EN, 3), (SL_STATUS.RX_LOCK, 3), (SL_STATUS.LSTATE, 2)] with stream := { peerLock := 3 } }; let p := (List.replicate 252 1 : List Byte); p.length = 252 ∧ d.ls = Ls.up ∧ closed d.now d.stream.peerAt 3200 = false ∧ (p.drop 35).all (· = 0) = false) ∧
    (let d : Dev := { devOf [(SL_CFG.EN, 1), (SL_CFG.TX_EN, 3), (SL_CFG.RX_EN, 3), (SL_STATUS.RX_LOCK, 3), (SL_STATUS.LSTATE, 1)] with stream := { peerLock := 3 } }; let p := ([1, 3, 3] ++ List.replicate 249 0 : List Byte); p.length = 252 ∧ d.slTrains = true ∧ (p.drop 3).all (· = 0) = true) ∧
    (let d : Dev := { devOf [(SL_CFG.EN, 1), (SL_CFG.TX_EN, 3), (SL_CFG.RX_EN, 3), (SL_STATUS.RX_LOCK, 3), (SL_STATUS.LSTATE, 1)] with stream := { peerLock := 3, agree := 16, trainAt := 1279000 } }; d.slTrains = true ∧ d.now < d.stream.trainAt + d.trainLen ∧ 16 ≤ d.stream.agree ∧ d.stream.cwc % 16 = 0 ∧ d.txUse ≠ 0) ∧
    (let d : Dev := { devOf [(SL_CFG.EN, 1), (SL_CFG.TX_EN, 3), (SL_CFG.RX_EN, 3), (SL_STATUS.RX_LOCK, 0), (SL_STATUS.LSTATE, 1)] with stream := { peerLock := 3 } }; d.slTrains = true ∧ d.stream.trainAt + d.trainLen ≤ d.now ∧ d.rxUse = 0) ∧
    (let d : Dev := { devOf [(SL_CFG.EN, 1), (SL_CFG.TX_EN, 3), (SL_CFG.RX_EN, 3), (SL_STATUS.RX_LOCK, 3), (SL_STATUS.LSTATE, 2)] with stream := { peerLock := 3, peerAt := some 5 } }; let k := 5; d.ls = Ls.up ∧ d.stream.peerAt = some k ∧ k + 3200 ≤ d.now) ∧
    (let d : Dev := { devOf [(SL_CFG.EN, 1), (SL_CFG.TX_EN, 3), (SL_CFG.RX_EN, 3), (SL_STATUS.RX_LOCK, 3), (SL_STATUS.LSTATE, 2)] with stream := { peerLock := 3, failing := 2 } }; let n := (1 : Fin 16); d.ls = Ls.up ∧ d.laneOn n = true ∧ d.stream.failing.testBit n = true ∧ d.lastLane n = false ∧ d.rxLanes ≠ 0 ∧ n.val < 8) ∧
    (let d : Dev := (devOf [(CTX.CFG 9 21, 2)]).onT 9 fun x => { x with blocks := [({ btype := 2, k := 0, thread := 9, tag := 7, stamp := 4, since := 5 } : Block)] }; let k := (9 : Fin 4096); let g := (0 : BitVec 12); let b := ({ btype := 2, k := 0, thread := 9, tag := 7, stamp := 4, since := 5 } : Block); ((d.T k).blocks.find? (fun b => b.btype == 2 || b.tag % 4096 == g.toNat) = some b) ∧ b.since + d.flushT ≤ d.now) ∧
    (let d : Dev := (devOf [(CTX.CFG 9 21, 2), (CTX.CFG 9 1, 2), (CTX.CFG 9 21, 0x12), (OWN.STATE (ownIx 5 0), 1), (OWN.FUNCTION (ownIx 5 0), 1), (VC_CFG.QUOTA 0, 1000)]).onT 9 fun x => { x with blocks := [({ btype := 2, k := 0, thread := 9, tag := 7, stamp := 4, since := 5, entries := [{ tag := 7, stamp := 4, value := 5 }, { tag := 7, stamp := 8, value := 6 }] } : Block)] }; let k := (9 : Fin 4096); let g := (0 : BitVec 12); let b := ({ btype := 2, k := 0, thread := 9, tag := 7, stamp := 4, since := 5, entries := [{ tag := 7, stamp := 4, value := 5 }, { tag := 7, stamp := 8, value := 6 }] } : Block); let v := 0; ((d.T k).blocks.find? (fun b => b.btype == 2 || b.tag % 4096 == g.toNat) = some b) ∧ b.since + d.flushT ≤ d.now ∧ d.tDest k = 2 ∧ v = d.tIdx k % 16 ∧ d.vcEnabled v = true ∧ d.tAuto b.thread = true ∧ b.thread = k.val ∧ d.vcFits v b.len = true ∧ 2 ≤ b.entries.length) ∧
    (let d : Dev := (devOf [(CTX.CFG 9 21, 2)]).onT 9 fun x => { x with blocks := [({ btype := 2, k := 0, thread := 9, tag := 7, stamp := 4, since := 1279999 } : Block)] }; let k := (9 : Fin 4096); let g := (0 : BitVec 12); let b := ({ btype := 2, k := 0, thread := 9, tag := 7, stamp := 4, since := 1279999 } : Block); ((d.T k).blocks.find? (fun b => b.btype == 2 || b.tag % 4096 == g.toNat) = some b) ∧ d.now < b.since + d.flushT) ∧
    (let d : Dev := devOf [(VC_CFG.QUOTA 4, 2), (VC_CFG.HIGH 4, 3), (VC_CFG.LOW 4, 2), (VC_CNT.K 4, 2)]; let v := (4 : Fin 16); let k := 1; inside d.now (d.V v).holdAt (d.rd SL_DEC.DEC_HOLD) = false ∧ d.decK v = some k ∧ d.openThreads = []) := by
  refine ⟨?_, ?_, ?_, ?_, ?_, ?_, ?_, ?_, ?_, ?_, ?_, ?_, ?_, ?_, ?_, ?_, ?_, ?_, ?_⟩ <;> decide +kernel

/-- A state and operands that meet the premises of each clause of `AdditiveInsns`. -/
theorem test_AdditiveInsns :
    (let d : Dev := coreDev [140, 16, 32, 0, 16] [3, 0, 0, 0, 0, 0, 0, 0, 5, 0, 0, 0, 0, 0, 0, 0]; let c := (3 : Fin 21); let i := insnOf d c; let w := stOf (fetchInsn c (d.K c).pc d) d; let pd := (i.specs.getD 0 noSpec); let pa := (i.specs.getD 1 noSpec); let pb := (i.specs.getD 2 noSpec); let l := valOf (target c i i.ty pd w) (.imm 0); let w1 := stOf (target c i i.ty pd w) w; let a := valOf (source c i i.ty pa w1) 0; let w2 := stOf (source c i i.ty pa w1) w1; let b := valOf (source c i i.ty pb w2) 0; let w3 := stOf (source c i i.ty pb w2) w2; let w4 := stOf (result c i.ty l (aluAdd i.ty i.s a b).val (w3.onK c fun x => { x with flags := (aluAdd i.ty i.s a b).flags x.flags })) w3; d.ks c = Ks.running ∧ Gives (fetchInsn c (d.K c).pc) d i w ∧ i.op = 0x08 ∧ condHolds i.cond (w.K c).flags = true ∧ i.specs = [pd, pa, pb] ∧ Gives (target c i i.ty pd) w l w1 ∧ Gives (source c i i.ty pa) w1 a w2 ∧ Gives (source c i i.ty pb) w2 b w3 ∧ (Gives (result c i.ty l (aluAdd i.ty i.s a b).val) (w3.onK c fun x => { x with flags := (aluAdd i.ty i.s a b).flags x.flags }) () w4)) ∧
    (let d : Dev := coreDev [140, 18, 32, 0, 16] [3, 0, 0, 0, 0, 0, 0, 0, 5, 0, 0, 0, 0, 0, 0, 0]; let c := (3 : Fin 21); let i := insnOf d c; let w := stOf (fetchInsn c (d.K c).pc d) d; let pd := (i.specs.getD 0 noSpec); let pa := (i.specs.getD 1 noSpec); let pb := (i.specs.getD 2 noSpec); let l := valOf (target c i i.ty pd w) (.imm 0); let w1 := stOf (target c i i.ty pd w) w; let a := valOf (source c i i.ty pa w1) 0; let w2 := stOf (source c i i.ty pa w1) w1; let b := valOf (source c i i.ty pb w2) 0; let w3 := stOf (source c i i.ty pb w2) w2; let w4 := stOf (result c i.ty l (aluSub i.ty i.s a b).val (w3.onK c fun x => { x with flags := (aluSub i.ty i.s a b).flags x.flags })) w3; d.ks c = Ks.running ∧ Gives (fetchInsn c (d.K c).pc) d i w ∧ i.op = 0x09 ∧ condHolds i.cond (w.K c).flags = true ∧ i.specs = [pd, pa, pb] ∧ Gives (target c i i.ty pd) w l w1 ∧ Gives (source c i i.ty pa) w1 a w2 ∧ Gives (source c i i.ty pb) w2 b w3 ∧ (Gives (result c i.ty l (aluSub i.ty i.s a b).val) (w3.onK c fun x => { x with flags := (aluSub i.ty i.s a b).flags x.flags }) () w4)) ∧
    (let d : Dev := coreDev [140, 72, 32, 0, 16] [3, 0, 0, 0, 0, 0, 0, 0, 5, 0, 0, 0, 0, 0, 0, 0]; let c := (3 : Fin 21); let i := insnOf d c; let w := stOf (fetchInsn c (d.K c).pc d) d; let pd := (i.specs.getD 0 noSpec); let pa := (i.specs.getD 1 noSpec); let pb := (i.specs.getD 2 noSpec); let l := valOf (target c i i.ty pd w) (.imm 0); let w1 := stOf (target c i i.ty pd w) w; let a := valOf (source c i i.ty pa w1) 0; let w2 := stOf (source c i i.ty pa w1) w1; let b := valOf (source c i i.ty pb w2) 0; let w3 := stOf (source c i i.ty pb w2) w2; let w4 := stOf (result c i.ty l (aluBits i.ty (a &&& b)).val (w3.onK c fun x => { x with flags := (aluBits i.ty (a &&& b)).flags x.flags })) w3; d.ks c = Ks.running ∧ Gives (fetchInsn c (d.K c).pc) d i w ∧ i.op = 0x24 ∧ condHolds i.cond (w.K c).flags = true ∧ i.specs = [pd, pa, pb] ∧ Gives (target c i i.ty pd) w l w1 ∧ Gives (source c i i.ty pa) w1 a w2 ∧ Gives (source c i i.ty pb) w2 b w3 ∧ (Gives (result c i.ty l (aluBits i.ty (a &&& b)).val) (w3.onK c fun x => { x with flags := (aluBits i.ty (a &&& b)).flags x.flags }) () w4)) ∧
    (let d : Dev := coreDev [140, 74, 32, 0, 16] [3, 0, 0, 0, 0, 0, 0, 0, 5, 0, 0, 0, 0, 0, 0, 0]; let c := (3 : Fin 21); let i := insnOf d c; let w := stOf (fetchInsn c (d.K c).pc d) d; let pd := (i.specs.getD 0 noSpec); let pa := (i.specs.getD 1 noSpec); let pb := (i.specs.getD 2 noSpec); let l := valOf (target c i i.ty pd w) (.imm 0); let w1 := stOf (target c i i.ty pd w) w; let a := valOf (source c i i.ty pa w1) 0; let w2 := stOf (source c i i.ty pa w1) w1; let b := valOf (source c i i.ty pb w2) 0; let w3 := stOf (source c i i.ty pb w2) w2; let w4 := stOf (result c i.ty l (aluBits i.ty (a ||| b)).val (w3.onK c fun x => { x with flags := (aluBits i.ty (a ||| b)).flags x.flags })) w3; d.ks c = Ks.running ∧ Gives (fetchInsn c (d.K c).pc) d i w ∧ i.op = 0x25 ∧ condHolds i.cond (w.K c).flags = true ∧ i.specs = [pd, pa, pb] ∧ Gives (target c i i.ty pd) w l w1 ∧ Gives (source c i i.ty pa) w1 a w2 ∧ Gives (source c i i.ty pb) w2 b w3 ∧ (Gives (result c i.ty l (aluBits i.ty (a ||| b)).val) (w3.onK c fun x => { x with flags := (aluBits i.ty (a ||| b)).flags x.flags }) () w4)) ∧
    (let d : Dev := coreDev [140, 76, 32, 0, 16] [3, 0, 0, 0, 0, 0, 0, 0, 5, 0, 0, 0, 0, 0, 0, 0]; let c := (3 : Fin 21); let i := insnOf d c; let w := stOf (fetchInsn c (d.K c).pc d) d; let pd := (i.specs.getD 0 noSpec); let pa := (i.specs.getD 1 noSpec); let pb := (i.specs.getD 2 noSpec); let l := valOf (target c i i.ty pd w) (.imm 0); let w1 := stOf (target c i i.ty pd w) w; let a := valOf (source c i i.ty pa w1) 0; let w2 := stOf (source c i i.ty pa w1) w1; let b := valOf (source c i i.ty pb w2) 0; let w3 := stOf (source c i i.ty pb w2) w2; let w4 := stOf (result c i.ty l (aluBits i.ty (a ^^^ b)).val (w3.onK c fun x => { x with flags := (aluBits i.ty (a ^^^ b)).flags x.flags })) w3; d.ks c = Ks.running ∧ Gives (fetchInsn c (d.K c).pc) d i w ∧ i.op = 0x26 ∧ condHolds i.cond (w.K c).flags = true ∧ i.specs = [pd, pa, pb] ∧ Gives (target c i i.ty pd) w l w1 ∧ Gives (source c i i.ty pa) w1 a w2 ∧ Gives (source c i i.ty pb) w2 b w3 ∧ (Gives (result c i.ty l (aluBits i.ty (a ^^^ b)).val) (w3.onK c fun x => { x with flags := (aluBits i.ty (a ^^^ b)).flags x.flags }) () w4)) ∧
    (let d : Dev := coreDev [136, 16, 0, 16] [3, 0, 0, 0, 0, 0, 0, 0, 5, 0, 0, 0, 0, 0, 0, 0]; let c := (3 : Fin 21); let i := insnOf d c; let w := stOf (fetchInsn c (d.K c).pc d) d; let pd := (i.specs.getD 0 noSpec); let ps := (i.specs.getD 1 noSpec); let l := (valOf (updated c i i.ty pd w) (.imm 0, 0)).1; let a := (valOf (updated c i i.ty pd w) (.imm 0, 0)).2; let w1 := stOf (updated c i i.ty pd w) w; let b := valOf (source c i i.ty ps w1) 0; let w2 := stOf (source c i i.ty ps w1) w1; let w3 := stOf (result c i.ty l (aluAdd i.ty i.s a b).val (w2.onK c fun x => { x with flags := (aluAdd i.ty i.s a b).flags x.flags })) w2; d.ks c = Ks.running ∧ Gives (fetchInsn c (d.K c).pc) d i w ∧ i.op = 0x08 ∧ condHolds i.cond (w.K c).flags = true ∧ i.specs = [pd, ps] ∧ Gives (updated c i i.ty pd) w (l, a) w1 ∧ Gives (source c i i.ty ps) w1 b w2 ∧ (Gives (result c i.ty l (aluAdd i.ty i.s a b).val) (w2.onK c fun x => { x with flags := (aluAdd i.ty i.s a b).flags x.flags }) () w3)) ∧
    (let d : Dev := coreDev [136, 18, 0, 16] [3, 0, 0, 0, 0, 0, 0, 0, 5, 0, 0, 0, 0, 0, 0, 0]; let c := (3 : Fin 21); let i := insnOf d c; let w := stOf (fetchInsn c (d.K c).pc d) d; let pd := (i.specs.getD 0 noSpec); let ps := (i.specs.getD 1 noSpec); let l := (valOf (updated c i i.ty pd w) (.imm 0, 0)).1; let a := (valOf (updated c i i.ty pd w) (.imm 0, 0)).2; let w1 := stOf (updated c i i.ty pd w) w; let b := valOf (source c i i.ty ps w1) 0; let w2 := stOf (source c i i.ty ps w1) w1; let w3 := stOf (result c i.ty l (aluSub i.ty i.s a b).val (w2.onK c fun x => { x with flags := (aluSub i.ty i.s a b).flags x.flags })) w2; d.ks c = Ks.running ∧ Gives (fetchInsn c (d.K c).pc) d i w ∧ i.op = 0x09 ∧ condHolds i.cond (w.K c).flags = true ∧ i.specs = [pd, ps] ∧ Gives (updated c i i.ty pd) w (l, a) w1 ∧ Gives (source c i i.ty ps) w1 b w2 ∧ (Gives (result c i.ty l (aluSub i.ty i.s a b).val) (w2.onK c fun x => { x with flags := (aluSub i.ty i.s a b).flags x.flags }) () w3)) ∧
    (let d : Dev := coreDev [136, 72, 0, 16] [3, 0, 0, 0, 0, 0, 0, 0, 5, 0, 0, 0, 0, 0, 0, 0]; let c := (3 : Fin 21); let i := insnOf d c; let w := stOf (fetchInsn c (d.K c).pc d) d; let pd := (i.specs.getD 0 noSpec); let ps := (i.specs.getD 1 noSpec); let l := (valOf (updated c i i.ty pd w) (.imm 0, 0)).1; let a := (valOf (updated c i i.ty pd w) (.imm 0, 0)).2; let w1 := stOf (updated c i i.ty pd w) w; let b := valOf (source c i i.ty ps w1) 0; let w2 := stOf (source c i i.ty ps w1) w1; let w3 := stOf (result c i.ty l (aluBits i.ty (a &&& b)).val (w2.onK c fun x => { x with flags := (aluBits i.ty (a &&& b)).flags x.flags })) w2; d.ks c = Ks.running ∧ Gives (fetchInsn c (d.K c).pc) d i w ∧ i.op = 0x24 ∧ condHolds i.cond (w.K c).flags = true ∧ i.specs = [pd, ps] ∧ Gives (updated c i i.ty pd) w (l, a) w1 ∧ Gives (source c i i.ty ps) w1 b w2 ∧ (Gives (result c i.ty l (aluBits i.ty (a &&& b)).val) (w2.onK c fun x => { x with flags := (aluBits i.ty (a &&& b)).flags x.flags }) () w3)) ∧
    (let d : Dev := coreDev [136, 74, 0, 16] [3, 0, 0, 0, 0, 0, 0, 0, 5, 0, 0, 0, 0, 0, 0, 0]; let c := (3 : Fin 21); let i := insnOf d c; let w := stOf (fetchInsn c (d.K c).pc d) d; let pd := (i.specs.getD 0 noSpec); let ps := (i.specs.getD 1 noSpec); let l := (valOf (updated c i i.ty pd w) (.imm 0, 0)).1; let a := (valOf (updated c i i.ty pd w) (.imm 0, 0)).2; let w1 := stOf (updated c i i.ty pd w) w; let b := valOf (source c i i.ty ps w1) 0; let w2 := stOf (source c i i.ty ps w1) w1; let w3 := stOf (result c i.ty l (aluBits i.ty (a ||| b)).val (w2.onK c fun x => { x with flags := (aluBits i.ty (a ||| b)).flags x.flags })) w2; d.ks c = Ks.running ∧ Gives (fetchInsn c (d.K c).pc) d i w ∧ i.op = 0x25 ∧ condHolds i.cond (w.K c).flags = true ∧ i.specs = [pd, ps] ∧ Gives (updated c i i.ty pd) w (l, a) w1 ∧ Gives (source c i i.ty ps) w1 b w2 ∧ (Gives (result c i.ty l (aluBits i.ty (a ||| b)).val) (w2.onK c fun x => { x with flags := (aluBits i.ty (a ||| b)).flags x.flags }) () w3)) ∧
    (let d : Dev := coreDev [136, 76, 0, 16] [3, 0, 0, 0, 0, 0, 0, 0, 5, 0, 0, 0, 0, 0, 0, 0]; let c := (3 : Fin 21); let i := insnOf d c; let w := stOf (fetchInsn c (d.K c).pc d) d; let pd := (i.specs.getD 0 noSpec); let ps := (i.specs.getD 1 noSpec); let l := (valOf (updated c i i.ty pd w) (.imm 0, 0)).1; let a := (valOf (updated c i i.ty pd w) (.imm 0, 0)).2; let w1 := stOf (updated c i i.ty pd w) w; let b := valOf (source c i i.ty ps w1) 0; let w2 := stOf (source c i i.ty ps w1) w1; let w3 := stOf (result c i.ty l (aluBits i.ty (a ^^^ b)).val (w2.onK c fun x => { x with flags := (aluBits i.ty (a ^^^ b)).flags x.flags })) w2; d.ks c = Ks.running ∧ Gives (fetchInsn c (d.K c).pc) d i w ∧ i.op = 0x26 ∧ condHolds i.cond (w.K c).flags = true ∧ i.specs = [pd, ps] ∧ Gives (updated c i i.ty pd) w (l, a) w1 ∧ Gives (source c i i.ty ps) w1 b w2 ∧ (Gives (result c i.ty l (aluBits i.ty (a ^^^ b)).val) (w2.onK c fun x => { x with flags := (aluBits i.ty (a ^^^ b)).flags x.flags }) () w3)) ∧
    (let d : Dev := coreDev [140, 48, 32, 0, 16] [3, 0, 0, 0, 0, 0, 0, 0, 5, 0, 0, 0, 0, 0, 0, 0]; let c := (3 : Fin 21); let i := insnOf d c; let w := stOf (fetchInsn c (d.K c).pc d) d; let pd := (i.specs.getD 0 noSpec); let pa := (i.specs.getD 1 noSpec); let pb := (i.specs.getD 2 noSpec); let l := valOf (target c i i.ty pd w) (.imm 0); let w1 := stOf (target c i i.ty pd w) w; let a := valOf (source c i i.ty pa w1) 0; let w2 := stOf (source c i i.ty pa w1) w1; let b := valOf (source c i i.ty pb w2) 0; let w3 := stOf (source c i i.ty pb w2) w2; let w4 := stOf (result c i.ty l (aluAsl i.ty i.s a b).val (w3.onK c fun x => { x with flags := (aluAsl i.ty i.s a b).flags x.flags })) w3; d.ks c = Ks.running ∧ Gives (fetchInsn c (d.K c).pc) d i w ∧ i.op = 0x18 ∧ condHolds i.cond (w.K c).flags = true ∧ i.specs = [pd, pa, pb] ∧ Gives (target c i i.ty pd) w l w1 ∧ Gives (source c i i.ty pa) w1 a w2 ∧ Gives (source c i i.ty pb) w2 b w3 ∧ (Gives (result c i.ty l (aluAsl i.ty i.s a b).val) (w3.onK c fun x => { x with flags := (aluAsl i.ty i.s a b).flags x.flags }) () w4)) ∧
    (let d : Dev := coreDev [140, 50, 32, 0, 16] [3, 0, 0, 0, 0, 0, 0, 0, 5, 0, 0, 0, 0, 0, 0, 0]; let c := (3 : Fin 21); let i := insnOf d c; let w := stOf (fetchInsn c (d.K c).pc d) d; let pd := (i.specs.getD 0 noSpec); let pa := (i.specs.getD 1 noSpec); let pb := (i.specs.getD 2 noSpec); let l := valOf (target c i i.ty pd w) (.imm 0); let w1 := stOf (target c i i.ty pd w) w; let a := valOf (source c i i.ty pa w1) 0; let w2 := stOf (source c i i.ty pa w1) w1; let b := valOf (source c i i.ty pb w2) 0; let w3 := stOf (source c i i.ty pb w2) w2; let w4 := stOf (result c i.ty l (aluAsr i.ty i.rnd a b).val (w3.onK c fun x => { x with flags := (aluAsr i.ty i.rnd a b).flags x.flags })) w3; d.ks c = Ks.running ∧ Gives (fetchInsn c (d.K c).pc) d i w ∧ i.op = 0x19 ∧ condHolds i.cond (w.K c).flags = true ∧ i.specs = [pd, pa, pb] ∧ Gives (target c i i.ty pd) w l w1 ∧ Gives (source c i i.ty pa) w1 a w2 ∧ Gives (source c i i.ty pb) w2 b w3 ∧ (Gives (result c i.ty l (aluAsr i.ty i.rnd a b).val) (w3.onK c fun x => { x with flags := (aluAsr i.ty i.rnd a b).flags x.flags }) () w4)) ∧
    (let d : Dev := coreDev [140, 52, 32, 0, 16] [3, 0, 0, 0, 0, 0, 0, 0, 5, 0, 0, 0, 0, 0, 0, 0]; let c := (3 : Fin 21); let i := insnOf d c; let w := stOf (fetchInsn c (d.K c).pc d) d; let pd := (i.specs.getD 0 noSpec); let pa := (i.specs.getD 1 noSpec); let pb := (i.specs.getD 2 noSpec); let l := valOf (target c i i.ty pd w) (.imm 0); let w1 := stOf (target c i i.ty pd w) w; let a := valOf (source c i i.ty pa w1) 0; let w2 := stOf (source c i i.ty pa w1) w1; let b := valOf (source c i i.ty pb w2) 0; let w3 := stOf (source c i i.ty pb w2) w2; let w4 := stOf (result c i.ty l (aluLsr i.ty a b).val (w3.onK c fun x => { x with flags := (aluLsr i.ty a b).flags x.flags })) w3; d.ks c = Ks.running ∧ Gives (fetchInsn c (d.K c).pc) d i w ∧ i.op = 0x1A ∧ condHolds i.cond (w.K c).flags = true ∧ i.specs = [pd, pa, pb] ∧ Gives (target c i i.ty pd) w l w1 ∧ Gives (source c i i.ty pa) w1 a w2 ∧ Gives (source c i i.ty pb) w2 b w3 ∧ (Gives (result c i.ty l (aluLsr i.ty a b).val) (w3.onK c fun x => { x with flags := (aluLsr i.ty a b).flags x.flags }) () w4)) ∧
    (let d : Dev := coreDev [140, 56, 32, 0, 16] [3, 0, 0, 0, 0, 0, 0, 0, 5, 0, 0, 0, 0, 0, 0, 0]; let c := (3 : Fin 21); let i := insnOf d c; let w := stOf (fetchInsn c (d.K c).pc d) d; let pd := (i.specs.getD 0 noSpec); let pa := (i.specs.getD 1 noSpec); let pb := (i.specs.getD 2 noSpec); let l := valOf (target c i i.ty pd w) (.imm 0); let w1 := stOf (target c i i.ty pd w) w; let a := valOf (source c i i.ty pa w1) 0; let w2 := stOf (source c i i.ty pa w1) w1; let b := valOf (source c i i.ty pb w2) 0; let w3 := stOf (source c i i.ty pb w2) w2; let w4 := stOf (result c i.ty l (aluMin i.ty a b).val (w3.onK c fun x => { x with flags := (aluMin i.ty a b).flags x.flags })) w3; d.ks c = Ks.running ∧ Gives (fetchInsn c (d.K c).pc) d i w ∧ i.op = 0x1C ∧ condHolds i.cond (w.K c).flags = true ∧ i.specs = [pd, pa, pb] ∧ Gives (target c i i.ty pd) w l w1 ∧ Gives (source c i i.ty pa) w1 a w2 ∧ Gives (source c i i.ty pb) w2 b w3 ∧ (Gives (result c i.ty l (aluMin i.ty a b).val) (w3.onK c fun x => { x with flags := (aluMin i.ty a b).flags x.flags }) () w4)) ∧
    (let d : Dev := coreDev [140, 58, 32, 0, 16] [3, 0, 0, 0, 0, 0, 0, 0, 5, 0, 0, 0, 0, 0, 0, 0]; let c := (3 : Fin 21); let i := insnOf d c; let w := stOf (fetchInsn c (d.K c).pc d) d; let pd := (i.specs.getD 0 noSpec); let pa := (i.specs.getD 1 noSpec); let pb := (i.specs.getD 2 noSpec); let l := valOf (target c i i.ty pd w) (.imm 0); let w1 := stOf (target c i i.ty pd w) w; let a := valOf (source c i i.ty pa w1) 0; let w2 := stOf (source c i i.ty pa w1) w1; let b := valOf (source c i i.ty pb w2) 0; let w3 := stOf (source c i i.ty pb w2) w2; let w4 := stOf (result c i.ty l (aluMax i.ty a b).val (w3.onK c fun x => { x with flags := (aluMax i.ty a b).flags x.flags })) w3; d.ks c = Ks.running ∧ Gives (fetchInsn c (d.K c).pc) d i w ∧ i.op = 0x1D ∧ condHolds i.cond (w.K c).flags = true ∧ i.specs = [pd, pa, pb] ∧ Gives (target c i i.ty pd) w l w1 ∧ Gives (source c i i.ty pa) w1 a w2 ∧ Gives (source c i i.ty pb) w2 b w3 ∧ (Gives (result c i.ty l (aluMax i.ty a b).val) (w3.onK c fun x => { x with flags := (aluMax i.ty a b).flags x.flags }) () w4)) ∧
    (let d : Dev := coreDev [136, 80, 0, 16] [3, 0, 0, 0, 0, 0, 0, 0, 5, 0, 0, 0, 0, 0, 0, 0]; let c := (3 : Fin 21); let i := insnOf d c; let w := stOf (fetchInsn c (d.K c).pc d) d; let pd := (i.specs.getD 0 noSpec); let ps := (i.specs.getD 1 noSpec); let l := (valOf (updated c i i.ty pd w) (.imm 0, 0)).1; let a := (valOf (updated c i i.ty pd w) (.imm 0, 0)).2; let w1 := stOf (updated c i i.ty pd w) w; let b := valOf (source c i i.ty ps w1) 0; let w2 := stOf (source c i i.ty ps w1) w1; let w3 := stOf (result c i.ty l ({ val := (setBit a (b % tyBits i.ty) : Nat) : Alu }).val (w2.onK c fun x => { x with flags := ({ val := (setBit a (b % tyBits i.ty) : Nat) : Alu }).flags x.flags })) w2; d.ks c = Ks.running ∧ Gives (fetchInsn c (d.K c).pc) d i w ∧ i.op = 0x28 ∧ condHolds i.cond (w.K c).flags = true ∧ i.specs = [pd, ps] ∧ Gives (updated c i i.ty pd) w (l, a) w1 ∧ Gives (source c i i.ty ps) w1 b w2 ∧ (Gives (result c i.ty l ({ val := (setBit a (b % tyBits i.ty) : Nat) : Alu }).val) (w2.onK c fun x => { x with flags := ({ val := (setBit a (b % tyBits i.ty) : Nat) : Alu }).flags x.flags }) () w3)) ∧
    (let d : Dev := coreDev [136, 82, 0, 16] [3, 0, 0, 0, 0, 0, 0, 0, 5, 0, 0, 0, 0, 0, 0, 0]; let c := (3 : Fin 21); let i := insnOf d c; let w := stOf (fetchInsn c (d.K c).pc d) d; let pd := (i.specs.getD 0 noSpec); let ps := (i.specs.getD 1 noSpec); let l := (valOf (updated c i i.ty pd w) (.imm 0, 0)).1; let a := (valOf (updated c i i.ty pd w) (.imm 0, 0)).2; let w1 := stOf (updated c i i.ty pd w) w; let b := valOf (source c i i.ty ps w1) 0; let w2 := stOf (source c i i.ty ps w1) w1; let w3 := stOf (result c i.ty l ({ val := (clrBit a (b % tyBits i.ty) : Nat) : Alu }).val (w2.onK c fun x => { x with flags := ({ val := (clrBit a (b % tyBits i.ty) : Nat) : Alu }).flags x.flags })) w2; d.ks c = Ks.running ∧ Gives (fetchInsn c (d.K c).pc) d i w ∧ i.op = 0x29 ∧ condHolds i.cond (w.K c).flags = true ∧ i.specs = [pd, ps] ∧ Gives (updated c i i.ty pd) w (l, a) w1 ∧ Gives (source c i i.ty ps) w1 b w2 ∧ (Gives (result c i.ty l ({ val := (clrBit a (b % tyBits i.ty) : Nat) : Alu }).val) (w2.onK c fun x => { x with flags := ({ val := (clrBit a (b % tyBits i.ty) : Nat) : Alu }).flags x.flags }) () w3)) ∧
    (let d : Dev := coreDev [140, 60, 32, 0, 16] [3, 0, 0, 0, 0, 0, 0, 0, 5, 0, 0, 0, 0, 0, 0, 0]; let c := (3 : Fin 21); let i := insnOf d c; let w := stOf (fetchInsn c (d.K c).pc d) d; let pd := (i.specs.getD 0 noSpec); let pa := (i.specs.getD 1 noSpec); let pb := (i.specs.getD 2 noSpec); let l := (valOf (updated c i i.ty pd w) (.imm 0, 0)).1; let g := (valOf (updated c i i.ty pd w) (.imm 0, 0)).2; let w1 := stOf (updated c i i.ty pd w) w; let a := valOf (source c i i.ty pa w1) 0; let w2 := stOf (source c i i.ty pa w1) w1; let b := valOf (source c i i.ty pb w2) 0; let w3 := stOf (source c i i.ty pb w2) w2; let w4 := stOf (result c i.ty l (aluLim i.ty g a b).val (w3.onK c fun x => { x with flags := (aluLim i.ty g a b).flags x.flags })) w3; d.ks c = Ks.running ∧ Gives (fetchInsn c (d.K c).pc) d i w ∧ i.op = 0x1E ∧ condHolds i.cond (w.K c).flags = true ∧ i.specs = [pd, pa, pb] ∧ Gives (updated c i i.ty pd) w (l, g) w1 ∧ Gives (source c i i.ty pa) w1 a w2 ∧ Gives (source c i i.ty pb) w2 b w3 ∧ (Gives (result c i.ty l (aluLim i.ty g a b).val) (w3.onK c fun x => { x with flags := (aluLim i.ty g a b).flags x.flags }) () w4)) := by
  refine ⟨?_, ?_, ?_, ?_, ?_, ?_, ?_, ?_, ?_, ?_, ?_, ?_, ?_, ?_, ?_, ?_, ?_, ?_⟩ <;> decide +kernel

/-- A state and operands that meet the premises of each clause of `ProductInsns`. -/
theorem test_ProductInsns :
    (let d : Dev := coreDev [140, 32, 32, 0, 16] [3, 0, 0, 0, 0, 0, 0, 0, 5, 0, 0, 0, 0, 0, 0, 0]; let c := (3 : Fin 21); let i := insnOf d c; let w := stOf (fetchInsn c (d.K c).pc d) d; let pd := (i.specs.getD 0 noSpec); let pa := (i.specs.getD 1 noSpec); let pb := (i.specs.getD 2 noSpec); let l := valOf (target c i i.ty pd w) (.imm 0); let w1 := stOf (target c i i.ty pd w) w; let a := valOf (source c i i.ty pa w1) 0; let w2 := stOf (source c i i.ty pa w1) w1; let b := valOf (source c i i.ty pb w2) 0; let w3 := stOf (source c i i.ty pb w2) w2; let w4 := stOf (result c i.ty l (aluMul i.ty i.rnd i.s a b).val (w3.onK c fun x => { x with flags := (aluMul i.ty i.rnd i.s a b).flags x.flags })) w3; d.ks c = Ks.running ∧ Gives (fetchInsn c (d.K c).pc) d i w ∧ i.op = 0x10 ∧ condHolds i.cond (w.K c).flags = true ∧ i.specs = [pd, pa, pb] ∧ Gives (target c i i.ty pd) w l w1 ∧ Gives (source c i i.ty pa) w1 a w2 ∧ Gives (source c i i.ty pb) w2 b w3 ∧ (Gives (result c i.ty l (aluMul i.ty i.rnd i.s a b).val) (w3.onK c fun x => { x with flags := (aluMul i.ty i.rnd i.s a b).flags x.flags }) () w4)) ∧
    (let d : Dev := coreDev [140, 34, 32, 0, 16] [3, 0, 0, 0, 0, 0, 0, 0, 5, 0, 0, 0, 0, 0, 0, 0]; let c := (3 : Fin 21); let i := insnOf d c; let w := stOf (fetchInsn c (d.K c).pc d) d; let pd := (i.specs.getD 0 noSpec); let pa := (i.specs.getD 1 noSpec); let pb := (i.specs.getD 2 noSpec); let l := valOf (target c i i.ty pd w) (.imm 0); let w1 := stOf (target c i i.ty pd w) w; let a := valOf (source c i i.ty pa w1) 0; let w2 := stOf (source c i i.ty pa w1) w1; let b := valOf (source c i i.ty pb w2) 0; let w3 := stOf (source c i i.ty pb w2) w2; let w4 := stOf (result c i.ty l (aluImul i.ty i.s a b).val (w3.onK c fun x => { x with flags := (aluImul i.ty i.s a b).flags x.flags })) w3; d.ks c = Ks.running ∧ Gives (fetchInsn c (d.K c).pc) d i w ∧ i.op = 0x11 ∧ condHolds i.cond (w.K c).flags = true ∧ i.specs = [pd, pa, pb] ∧ Gives (target c i i.ty pd) w l w1 ∧ Gives (source c i i.ty pa) w1 a w2 ∧ Gives (source c i i.ty pb) w2 b w3 ∧ (Gives (result c i.ty l (aluImul i.ty i.s a b).val) (w3.onK c fun x => { x with flags := (aluImul i.ty i.s a b).flags x.flags }) () w4)) ∧
    (let d : Dev := coreDev [136, 32, 0, 16] [3, 0, 0, 0, 0, 0, 0, 0, 5, 0, 0, 0, 0, 0, 0, 0]; let c := (3 : Fin 21); let i := insnOf d c; let w := stOf (fetchInsn c (d.K c).pc d) d; let pd := (i.specs.getD 0 noSpec); let ps := (i.specs.getD 1 noSpec); let l := (valOf (updated c i i.ty pd w) (.imm 0, 0)).1; let a := (valOf (updated c i i.ty pd w) (.imm 0, 0)).2; let w1 := stOf (updated c i i.ty pd w) w; let b := valOf (source c i i.ty ps w1) 0; let w2 := stOf (source c i i.ty ps w1) w1; let w3 := stOf (result c i.ty l (aluMul i.ty i.rnd i.s a b).val (w2.onK c fun x => { x with flags := (aluMul i.ty i.rnd i.s a b).flags x.flags })) w2; d.ks c = Ks.running ∧ Gives (fetchInsn c (d.K c).pc) d i w ∧ i.op = 0x10 ∧ condHolds i.cond (w.K c).flags = true ∧ i.specs = [pd, ps] ∧ Gives (updated c i i.ty pd) w (l, a) w1 ∧ Gives (source c i i.ty ps) w1 b w2 ∧ (Gives (result c i.ty l (aluMul i.ty i.rnd i.s a b).val) (w2.onK c fun x => { x with flags := (aluMul i.ty i.rnd i.s a b).flags x.flags }) () w3)) ∧
    (let d : Dev := coreDev [136, 34, 0, 16] [3, 0, 0, 0, 0, 0, 0, 0, 5, 0, 0, 0, 0, 0, 0, 0]; let c := (3 : Fin 21); let i := insnOf d c; let w := stOf (fetchInsn c (d.K c).pc d) d; let pd := (i.specs.getD 0 noSpec); let ps := (i.specs.getD 1 noSpec); let l := (valOf (updated c i i.ty pd w) (.imm 0, 0)).1; let a := (valOf (updated c i i.ty pd w) (.imm 0, 0)).2; let w1 := stOf (updated c i i.ty pd w) w; let b := valOf (source c i i.ty ps w1) 0; let w2 := stOf (source c i i.ty ps w1) w1; let w3 := stOf (result c i.ty l (aluImul i.ty i.s a b).val (w2.onK c fun x => { x with flags := (aluImul i.ty i.s a b).flags x.flags })) w2; d.ks c = Ks.running ∧ Gives (fetchInsn c (d.K c).pc) d i w ∧ i.op = 0x11 ∧ condHolds i.cond (w.K c).flags = true ∧ i.specs = [pd, ps] ∧ Gives (updated c i i.ty pd) w (l, a) w1 ∧ Gives (source c i i.ty ps) w1 b w2 ∧ (Gives (result c i.ty l (aluImul i.ty i.s a b).val) (w2.onK c fun x => { x with flags := (aluImul i.ty i.s a b).flags x.flags }) () w3)) ∧
    (let d : Dev := coreDev [140, 120, 32, 0, 16] [3, 0, 0, 0, 0, 0, 0, 0, 5, 0, 0, 0, 0, 0, 0, 0]; let c := (3 : Fin 21); let i := insnOf d c; let w := stOf (fetchInsn c (d.K c).pc d) d; let pd := (i.specs.getD 0 noSpec); let pa := (i.specs.getD 1 noSpec); let pb := (i.specs.getD 2 noSpec); let l := valOf (target c i i.ty pd w) (.imm 0); let w1 := stOf (target c i i.ty pd w) w; let a := valOf (source c i i.ty pa w1) 0; let w2 := stOf (source c i i.ty pa w1) w1; let b := valOf (source c i i.ty pb w2) 0; let w3 := stOf (source c i i.ty pb w2) w2; let w4 := stOf (result c i.ty l (aluDivs i.ty i.rnd i.s a b).val (w3.onK c fun x => { x with flags := (aluDivs i.ty i.rnd i.s a b).flags x.flags })) w3; d.ks c = Ks.running ∧ Gives (fetchInsn c (d.K c).pc) d i w ∧ i.op = 0x3C ∧ condHolds i.cond (w.K c).flags = true ∧ i.specs = [pd, pa, pb] ∧ Gives (target c i i.ty pd) w l w1 ∧ Gives (source c i i.ty pa) w1 a w2 ∧ Gives (source c i i.ty pb) w2 b w3 ∧ (Gives (result c i.ty l (aluDivs i.ty i.rnd i.s a b).val) (w3.onK c fun x => { x with flags := (aluDivs i.ty i.rnd i.s a b).flags x.flags }) () w4)) ∧
    (let d : Dev := coreDev [140, 36, 32, 0, 16] [3, 0, 0, 0, 0, 0, 0, 0, 5, 0, 0, 0, 0, 0, 0, 0]; let c := (3 : Fin 21); let i := insnOf d c; let w := stOf (fetchInsn c (d.K c).pc d) d; let pd := (i.specs.getD 0 noSpec); let pa := (i.specs.getD 1 noSpec); let pb := (i.specs.getD 2 noSpec); let l := (valOf (updated c i 2 pd w) (.imm 0, 0)).1; let g := (valOf (updated c i 2 pd w) (.imm 0, 0)).2; let w1 := stOf (updated c i 2 pd w) w; let a := valOf (source c i i.ty pa w1) 0; let w2 := stOf (source c i i.ty pa w1) w1; let b := valOf (source c i i.ty pb w2) 0; let w3 := stOf (source c i i.ty pb w2) w2; let w4 := stOf (result c 2 l (aluMac i.ty i.rnd i.s g a b).val (w3.onK c fun x => { x with flags := (aluMac i.ty i.rnd i.s g a b).flags x.flags })) w3; d.ks c = Ks.running ∧ Gives (fetchInsn c (d.K c).pc) d i w ∧ i.op = 0x12 ∧ condHolds i.cond (w.K c).flags = true ∧ i.specs = [pd, pa, pb] ∧ Gives (updated c i 2 pd) w (l, g) w1 ∧ Gives (source c i i.ty pa) w1 a w2 ∧ Gives (source c i i.ty pb) w2 b w3 ∧ (Gives (result c 2 l (aluMac i.ty i.rnd i.s g a b).val) (w3.onK c fun x => { x with flags := (aluMac i.ty i.rnd i.s g a b).flags x.flags }) () w4)) ∧
    (let d : Dev := coreDev [140, 38, 32, 0, 16] [3, 0, 0, 0, 0, 0, 0, 0, 5, 0, 0, 0, 0, 0, 0, 0]; let c := (3 : Fin 21); let i := insnOf d c; let w := stOf (fetchInsn c (d.K c).pc d) d; let pd := (i.specs.getD 0 noSpec); let pa := (i.specs.getD 1 noSpec); let pb := (i.specs.getD 2 noSpec); let l := (valOf (updated c i 2 pd w) (.imm 0, 0)).1; let g := (valOf (updated c i 2 pd w) (.imm 0, 0)).2; let w1 := stOf (updated c i 2 pd w) w; let a := valOf (source c i i.ty pa w1) 0; let w2 := stOf (source c i i.ty pa w1) w1; let b := valOf (source c i i.ty pb w2) 0; let w3 := stOf (source c i i.ty pb w2) w2; let w4 := stOf (result c 2 l (aluMsu i.ty i.rnd i.s g a b).val (w3.onK c fun x => { x with flags := (aluMsu i.ty i.rnd i.s g a b).flags x.flags })) w3; d.ks c = Ks.running ∧ Gives (fetchInsn c (d.K c).pc) d i w ∧ i.op = 0x13 ∧ condHolds i.cond (w.K c).flags = true ∧ i.specs = [pd, pa, pb] ∧ Gives (updated c i 2 pd) w (l, g) w1 ∧ Gives (source c i i.ty pa) w1 a w2 ∧ Gives (source c i i.ty pb) w2 b w3 ∧ (Gives (result c 2 l (aluMsu i.ty i.rnd i.s g a b).val) (w3.onK c fun x => { x with flags := (aluMsu i.ty i.rnd i.s g a b).flags x.flags }) () w4)) ∧
    (let d : Dev := coreDev [136, 40, 32, 16] [3, 0, 0, 0, 0, 0, 0, 0, 5, 0, 0, 0, 0, 0, 0, 0]; let c := (3 : Fin 21); let i := insnOf d c; let w := stOf (fetchInsn c (d.K c).pc d) d; let pd := (i.specs.getD 0 noSpec); let ps := (i.specs.getD 1 noSpec); let l := valOf (target c i (i.ty) pd w) (.imm 0); let w1 := stOf (target c i (i.ty) pd w) w; let a := valOf (source c i (2) ps w1) 0; let w2 := stOf (source c i (2) ps w1) w1; let w3 := stOf (result c (i.ty) l (aluSat i.ty i.rnd a).val (w2.onK c fun x => { x with flags := (aluSat i.ty i.rnd a).flags x.flags })) w2; d.ks c = Ks.running ∧ Gives (fetchInsn c (d.K c).pc) d i w ∧ i.op = 0x14 ∧ condHolds i.cond (w.K c).flags = true ∧ i.specs = [pd, ps] ∧ Gives (target c i i.ty pd) w l w1 ∧ Gives (source c i 2 ps) w1 a w2 ∧ (Gives (result c i.ty l (aluSat i.ty i.rnd a).val) (w2.onK c fun x => { x with flags := (aluSat i.ty i.rnd a).flags x.flags }) () w3)) := by
  refine ⟨?_, ?_, ?_, ?_, ?_, ?_, ?_, ?_⟩ <;> decide +kernel

/-- A state and operands that meet the premises of each clause of `UnaryInsns`. -/
theorem test_UnaryInsns :
    (let d : Dev := coreDev [8, 4, 32, 16] [3, 0, 0, 0, 0, 0, 0, 0, 5, 0, 0, 0, 0, 0, 0, 0]; let c := (3 : Fin 21); let i := insnOf d c; let w := stOf (fetchInsn c (d.K c).pc d) d; let pd := (i.specs.getD 0 noSpec); let ps := (i.specs.getD 1 noSpec); let l := valOf (target c i ((i.ty + 1)) pd w) (.imm 0); let w1 := stOf (target c i ((i.ty + 1)) pd w) w; let a := valOf (source c i (i.ty) ps w1) 0; let w2 := stOf (source c i (i.ty) ps w1) w1; let w3 := stOf (result c ((i.ty + 1)) l (Alu.zn (i.ty + 1) (if i.ty = 0 then sv 0 a * 2 ^ 16 else sv 1 a)).val (w2.onK c fun x => { x with flags := (Alu.zn (i.ty + 1) (if i.ty = 0 then sv 0 a * 2 ^ 16 else sv 1 a)).flags x.flags })) w2; d.ks c = Ks.running ∧ Gives (fetchInsn c (d.K c).pc) d i w ∧ i.op = 0x02 ∧ condHolds i.cond (w.K c).flags = true ∧ i.specs = [pd, ps] ∧ Gives (target c i (i.ty + 1) pd) w l w1 ∧ Gives (source c i i.ty ps) w1 a w2 ∧ (Gives (result c (i.ty + 1) l (Alu.zn (i.ty + 1) (if i.ty = 0 then sv 0 a * 2 ^ 16 else sv 1 a)).val) (w2.onK c fun x => { x with flags := (Alu.zn (i.ty + 1) (if i.ty = 0 then sv 0 a * 2 ^ 16 else sv 1 a)).flags x.flags }) () w3)) ∧
    (let d : Dev := coreDev [8, 6, 32, 16] [3, 0, 0, 0, 0, 0, 0, 0, 5, 0, 0, 0, 0, 0, 0, 0]; let c := (3 : Fin 21); let i := insnOf d c; let w := stOf (fetchInsn c (d.K c).pc d) d; let pd := (i.specs.getD 0 noSpec); let ps := (i.specs.getD 1 noSpec); let l := valOf (target c i (1) pd w) (.imm 0); let w1 := stOf (target c i (1) pd w) w; let a := valOf (source c i (0) ps w1) 0; let w2 := stOf (source c i (0) ps w1) w1; let w3 := stOf (result c (1) l (Alu.zn 1 (sv 0 a)).val (w2.onK c fun x => { x with flags := (Alu.zn 1 (sv 0 a)).flags x.flags })) w2; d.ks c = Ks.running ∧ Gives (fetchInsn c (d.K c).pc) d i w ∧ i.op = 0x03 ∧ condHolds i.cond (w.K c).flags = true ∧ i.specs = [pd, ps] ∧ Gives (target c i 1 pd) w l w1 ∧ Gives (source c i 0 ps) w1 a w2 ∧ (Gives (result c 1 l (Alu.zn 1 (sv 0 a)).val) (w2.onK c fun x => { x with flags := (Alu.zn 1 (sv 0 a)).flags x.flags }) () w3)) ∧
    (let d : Dev := coreDev [8, 8, 32, 16] [3, 0, 0, 0, 0, 0, 0, 0, 5, 0, 0, 0, 0, 0, 0, 0]; let c := (3 : Fin 21); let i := insnOf d c; let w := stOf (fetchInsn c (d.K c).pc d) d; let pd := (i.specs.getD 0 noSpec); let ps := (i.specs.getD 1 noSpec); let l := valOf (target c i (1) pd w) (.imm 0); let w1 := stOf (target c i (1) pd w) w; let a := valOf (source c i (0) ps w1) 0; let w2 := stOf (source c i (0) ps w1) w1; let w3 := stOf (result c (1) l (Alu.zn 1 (a : Int)).val (w2.onK c fun x => { x with flags := (Alu.zn 1 (a : Int)).flags x.flags })) w2; d.ks c = Ks.running ∧ Gives (fetchInsn c (d.K c).pc) d i w ∧ i.op = 0x04 ∧ condHolds i.cond (w.K c).flags = true ∧ i.specs = [pd, ps] ∧ Gives (target c i 1 pd) w l w1 ∧ Gives (source c i 0 ps) w1 a w2 ∧ (Gives (result c 1 l (Alu.zn 1 (a : Int)).val) (w2.onK c fun x => { x with flags := (Alu.zn 1 (a : Int)).flags x.flags }) () w3)) ∧
    (let d : Dev := coreDev [136, 42, 32, 16] [3, 0, 0, 0, 0, 0, 0, 0, 5, 0, 0, 0, 0, 0, 0, 0]; let c := (3 : Fin 21); let i := insnOf d c; let w := stOf (fetchInsn c (d.K c).pc d) d; let pd := (i.specs.getD 0 noSpec); let ps := (i.specs.getD 1 noSpec); let l := valOf (target c i (i.ty) pd w) (.imm 0); let w1 := stOf (target c i (i.ty) pd w) w; let a := valOf (source c i (i.ty) ps w1) 0; let w2 := stOf (source c i (i.ty) ps w1) w1; let w3 := stOf (result c (i.ty) l (aluAbs i.ty i.s a).val (w2.onK c fun x => { x with flags := (aluAbs i.ty i.s a).flags x.flags })) w2; d.ks c = Ks.running ∧ Gives (fetchInsn c (d.K c).pc) d i w ∧ i.op = 0x15 ∧ condHolds i.cond (w.K c).flags = true ∧ i.specs = [pd, ps] ∧ Gives (target c i i.ty pd) w l w1 ∧ Gives (source c i i.ty ps) w1 a w2 ∧ (Gives (result c i.ty l (aluAbs i.ty i.s a).val) (w2.onK c fun x => { x with flags := (aluAbs i.ty i.s a).flags x.flags }) () w3)) ∧
    (let d : Dev := coreDev [136, 44, 32, 16] [3, 0, 0, 0, 0, 0, 0, 0, 5, 0, 0, 0, 0, 0, 0, 0]; let c := (3 : Fin 21); let i := insnOf d c; let w := stOf (fetchInsn c (d.K c).pc d) d; let pd := (i.specs.getD 0 noSpec); let ps := (i.specs.getD 1 noSpec); let l := valOf (target c i (i.ty) pd w) (.imm 0); let w1 := stOf (target c i (i.ty) pd w) w; let a := valOf (source c i (i.ty) ps w1) 0; let w2 := stOf (source c i (i.ty) ps w1) w1; let w3 := stOf (result c (i.ty) l (aluNeg i.ty i.s a).val (w2.onK c fun x => { x with flags := (aluNeg i.ty i.s a).flags x.flags })) w2; d.ks c = Ks.running ∧ Gives (fetchInsn c (d.K c).pc) d i w ∧ i.op = 0x16 ∧ condHolds i.cond (w.K c).flags = true ∧ i.specs = [pd, ps] ∧ Gives (target c i i.ty pd) w l w1 ∧ Gives (source c i i.ty ps) w1 a w2 ∧ (Gives (result c i.ty l (aluNeg i.ty i.s a).val) (w2.onK c fun x => { x with flags := (aluNeg i.ty i.s a).flags x.flags }) () w3)) ∧
    (let d : Dev := coreDev [132, 44, 16] [3, 0, 0, 0, 0, 0, 0, 0, 5, 0, 0, 0, 0, 0, 0, 0]; let c := (3 : Fin 21); let i := insnOf d c; let w := stOf (fetchInsn c (d.K c).pc d) d; let pd := (i.specs.getD 0 noSpec); let l := (valOf (updated c i i.ty pd w) (.imm 0, 0)).1; let a := (valOf (updated c i i.ty pd w) (.imm 0, 0)).2; let w1 := stOf (updated c i i.ty pd w) w; let w2 := stOf (result c i.ty l (aluNeg i.ty i.s a).val (w1.onK c fun x => { x with flags := (aluNeg i.ty i.s a).flags x.flags })) w1; d.ks c = Ks.running ∧ Gives (fetchInsn c (d.K c).pc) d i w ∧ i.op = 0x16 ∧ condHolds i.cond (w.K c).flags = true ∧ i.specs = [pd] ∧ Gives (updated c i i.ty pd) w (l, a) w1 ∧ (Gives (result c i.ty l (aluNeg i.ty i.s a).val) (w1.onK c fun x => { x with flags := (aluNeg i.ty i.s a).flags x.flags }) () w2)) ∧
    (let d : Dev := coreDev [136, 78, 32, 16] [3, 0, 0, 0, 0, 0, 0, 0, 5, 0, 0, 0, 0, 0, 0, 0]; let c := (3 : Fin 21); let i := insnOf d c; let w := stOf (fetchInsn c (d.K c).pc d) d; let pd := (i.specs.getD 0 noSpec); let ps := (i.specs.getD 1 noSpec); let l := valOf (target c i (i.ty) pd w) (.imm 0); let w1 := stOf (target c i (i.ty) pd w) w; let a := valOf (source c i (i.ty) ps w1) 0; let w2 := stOf (source c i (i.ty) ps w1) w1; let w3 := stOf (result c (i.ty) l (aluBits i.ty (2 ^ tyBits i.ty - 1 - a)).val (w2.onK c fun x => { x with flags := (aluBits i.ty (2 ^ tyBits i.ty - 1 - a)).flags x.flags })) w2; d.ks c = Ks.running ∧ Gives (fetchInsn c (d.K c).pc) d i w ∧ i.op = 0x27 ∧ condHolds i.cond (w.K c).flags = true ∧ i.specs = [pd, ps] ∧ Gives (target c i i.ty pd) w l w1 ∧ Gives (source c i i.ty ps) w1 a w2 ∧ (Gives (result c i.ty l (aluBits i.ty (2 ^ tyBits i.ty - 1 - a)).val) (w2.onK c fun x => { x with flags := (aluBits i.ty (2 ^ tyBits i.ty - 1 - a)).flags x.flags }) () w3)) ∧
    (let d : Dev := coreDev [132, 78, 16] [3, 0, 0, 0, 0, 0, 0, 0, 5, 0, 0, 0, 0, 0, 0, 0]; let c := (3 : Fin 21); let i := insnOf d c; let w := stOf (fetchInsn c (d.K c).pc d) d; let pd := (i.specs.getD 0 noSpec); let l := (valOf (updated c i i.ty pd w) (.imm 0, 0)).1; let a := (valOf (updated c i i.ty pd w) (.imm 0, 0)).2; let w1 := stOf (updated c i i.ty pd w) w; let w2 := stOf (result c i.ty l (aluBits i.ty (2 ^ tyBits i.ty - 1 - a)).val (w1.onK c fun x => { x with flags := (aluBits i.ty (2 ^ tyBits i.ty - 1 - a)).flags x.flags })) w1; d.ks c = Ks.running ∧ Gives (fetchInsn c (d.K c).pc) d i w ∧ i.op = 0x27 ∧ condHolds i.cond (w.K c).flags = true ∧ i.specs = [pd] ∧ Gives (updated c i i.ty pd) w (l, a) w1 ∧ (Gives (result c i.ty l (aluBits i.ty (2 ^ tyBits i.ty - 1 - a)).val) (w1.onK c fun x => { x with flags := (aluBits i.ty (2 ^ tyBits i.ty - 1 - a)).flags x.flags }) () w2)) ∧
    (let d : Dev := coreDev [136, 64, 0, 16] [3, 0, 0, 0, 0, 0, 0, 0, 5, 0, 0, 0, 0, 0, 0, 0]; let c := (3 : Fin 21); let i := insnOf d c; let w := stOf (fetchInsn c (d.K c).pc d) d; let pa := (i.specs.getD 0 noSpec); let pb := (i.specs.getD 1 noSpec); let a := valOf (source c i i.ty pa w) 0; let w1 := stOf (source c i i.ty pa w) w; let b := valOf (source c i i.ty pb w1) 0; let w2 := stOf (source c i i.ty pb w1) w1; d.ks c = Ks.running ∧ Gives (fetchInsn c (d.K c).pc) d i w ∧ i.op = 0x20 ∧ condHolds i.cond (w.K c).flags = true ∧ i.specs = [pa, pb] ∧ Gives (source c i i.ty pa) w a w1 ∧ Gives (source c i i.ty pb) w1 b w2) ∧
    (let d : Dev := coreDev [136, 66, 0, 16] [3, 0, 0, 0, 0, 0, 0, 0, 5, 0, 0, 0, 0, 0, 0, 0]; let c := (3 : Fin 21); let i := insnOf d c; let w := stOf (fetchInsn c (d.K c).pc d) d; let pa := (i.specs.getD 0 noSpec); let pb := (i.specs.getD 1 noSpec); let a := valOf (source c i i.ty pa w) 0; let w1 := stOf (source c i i.ty pa w) w; let b := valOf (source c i i.ty pb w1) 0; let w2 := stOf (source c i i.ty pb w1) w1; d.ks c = Ks.running ∧ Gives (fetchInsn c (d.K c).pc) d i w ∧ i.op = 0x21 ∧ condHolds i.cond (w.K c).flags = true ∧ i.specs = [pa, pb] ∧ Gives (source c i i.ty pa) w a w1 ∧ Gives (source c i i.ty pb) w1 b w2) ∧
    (let d : Dev := coreDev [136, 84, 0, 16] [3, 0, 0, 0, 0, 0, 0, 0, 5, 0, 0, 0, 0, 0, 0, 0]; let c := (3 : Fin 21); let i := insnOf d c; let w := stOf (fetchInsn c (d.K c).pc d) d; let pa := (i.specs.getD 0 noSpec); let pb := (i.specs.getD 1 noSpec); let a := valOf (source c i i.ty pa w) 0; let w1 := stOf (source c i i.ty pa w) w; let b := valOf (source c i i.ty pb w1) 0; let w2 := stOf (source c i i.ty pb w1) w1; d.ks c = Ks.running ∧ Gives (fetchInsn c (d.K c).pc) d i w ∧ i.op = 0x2A ∧ condHolds i.cond (w.K c).flags = true ∧ i.specs = [pa, pb] ∧ Gives (source c i i.ty pa) w a w1 ∧ Gives (source c i i.ty pb) w1 b w2) ∧
    (let d : Dev := coreDev [136, 2, 32, 16] [3, 0, 0, 0, 0, 0, 0, 0, 5, 0, 0, 0, 0, 0, 0, 0]; let c := (3 : Fin 21); let i := insnOf d c; let w := stOf (fetchInsn c (d.K c).pc d) d; let pd := (i.specs.getD 0 noSpec); let ps := (i.specs.getD 1 noSpec); let l := valOf (target c i i.ty pd w) (.imm 0); let w1 := stOf (target c i i.ty pd w) w; let p := valOf (place c i.next ps (tyBytes i.ty) 1 w1) (.imm 0); let w2 := stOf (place c i.next ps (tyBytes i.ty) 1 w1) w1; let a := valOf (readPlace c i.ty p w2) 0; let w3 := stOf (readPlace c i.ty p w2) w2; let w4 := stOf (result c i.ty l (Alu.zn i.ty (a : Int)).val (w3.onK c fun x => { x with flags := (Alu.zn i.ty (a : Int)).flags x.flags })) w3; d.ks c = Ks.running ∧ Gives (fetchInsn c (d.K c).pc) d i w ∧ i.op = 0x01 ∧ condHolds i.cond (w.K c).flags = true ∧ i.specs = [pd, ps] ∧ Gives (target c i i.ty pd) w l w1 ∧ Gives (place c i.next ps (tyBytes i.ty) 1) w1 p w2 ∧ Gives (readPlace c i.ty p) w2 a w3 ∧ l ≠ .at (.spec 4) ∧ p ≠ .at (.spec 4) ∧ (Gives (result c i.ty l (Alu.zn i.ty (a : Int)).val) (w3.onK c fun x => { x with flags := (Alu.zn i.ty (a : Int)).flags x.flags }) () w4)) ∧
    (let d : Dev := coreDev [128, 0] [3, 0, 0, 0, 0, 0, 0, 0, 5, 0, 0, 0, 0, 0, 0, 0]; let c := (3 : Fin 21); let i := insnOf d c; let w := stOf (fetchInsn c (d.K c).pc d) d; d.ks c = Ks.running ∧ Gives (fetchInsn c (d.K c).pc) d i w ∧ i.op = 0x00 ∧ condHolds i.cond (w.K c).flags = true) := by
  refine ⟨?_, ?_, ?_, ?_, ?_, ?_, ?_, ?_, ?_, ?_, ?_, ?_, ?_⟩ <;> decide +kernel

/-- A state and operands that meet the premises of each clause of `ControlInsns`. -/
theorem test_ControlInsns :
    (let d : Dev := coreDev [132, 96, 5, 64, 0] [3, 0, 0, 0, 0, 0, 0, 0, 5, 0, 0, 0, 0, 0, 0, 0]; let c := (3 : Fin 21); let i := insnOf d c; let w := stOf (fetchInsn c (d.K c).pc d) d; let p := (i.specs.getD 0 noSpec); let a := valOf (branchTo c i p w) 0; let w1 := stOf (branchTo c i p w) w; d.ks c = Ks.running ∧ Gives (fetchInsn c (d.K c).pc) d i w ∧ i.op = 0x30 ∧ condHolds i.cond (w.K c).flags = true ∧ i.specs = [p] ∧ Gives (branchTo c i p) w a w1) ∧
    (let d : Dev := coreDev [136, 98, 36, 5, 64, 0] [3, 0, 0, 0, 0, 0, 0, 0, 5, 0, 0, 0, 0, 0, 0, 0]; let c := (3 : Fin 21); let i := insnOf d c; let w := stOf (fetchInsn c (d.K c).pc d) d; let pc := (i.specs.getD 0 noSpec); let p := (i.specs.getD 1 noSpec); let a := valOf (branchTo c i p w) 0; let w1 := stOf (branchTo c i p w) w; d.ks c = Ks.running ∧ Gives (fetchInsn c (d.K c).pc) d i w ∧ i.op = 0x31 ∧ condHolds i.cond (w.K c).flags = true ∧ i.specs = [pc, p] ∧ Gives (branchTo c i p) w a w1 ∧ codeHolds pc.f (w1.K c).flags = true) ∧
    (let d : Dev := coreDev [136, 98, 20, 5, 64, 0] [3, 0, 0, 0, 0, 0, 0, 0, 5, 0, 0, 0, 0, 0, 0, 0]; let c := (3 : Fin 21); let i := insnOf d c; let w := stOf (fetchInsn c (d.K c).pc d) d; let pc := (i.specs.getD 0 noSpec); let p := (i.specs.getD 1 noSpec); let a := valOf (branchTo c i p w) 0; let w1 := stOf (branchTo c i p w) w; d.ks c = Ks.running ∧ Gives (fetchInsn c (d.K c).pc) d i w ∧ i.op = 0x31 ∧ condHolds i.cond (w.K c).flags = true ∧ i.specs = [pc, p] ∧ Gives (branchTo c i p) w a w1 ∧ codeHolds pc.f (w1.K c).flags = false) ∧
    (let d : Dev := coreDev [136, 100, 5, 64, 0, 52] [3, 0, 0, 0, 0, 0, 0, 0, 5, 0, 0, 0, 0, 0, 0, 0]; let c := (3 : Fin 21); let i := insnOf d c; let w := stOf (fetchInsn c (d.K c).pc d) d; let pt := (i.specs.getD 0 noSpec); let pn := (i.specs.getD 1 noSpec); let a := valOf (branchTo c i pt w) 0; let w1 := stOf (branchTo c i pt w) w; let n := valOf (source c i 1 pn w1) 0; let w2 := stOf (source c i 1 pn w1) w1; let w3 := stOf (storeCheck c (addrAdd (w2.K c).sp.toNat (-(8 * (n + 1) : Int))) 8 w2) w2; let w4 := stOf (store c (addrAdd (w2.K c).sp.toNat (-(8 * (n + 1) : Int))) 8 ((w2.K c).fb.toNat * 2 ^ 32 + n * 2 ^ 17 + i.next % 2 ^ 17) w3) w3; d.ks c = Ks.running ∧ Gives (fetchInsn c (d.K c).pc) d i w ∧ i.op = 0x32 ∧ condHolds i.cond (w.K c).flags = true ∧ i.specs = [pt, pn] ∧ Gives (branchTo c i pt) w a w1 ∧ Gives (source c i 1 pn) w1 n w2 ∧ n ≤ 4095 ∧ (w2.rd (CORE_SP_LIMIT.LIMIT c) : Int) ≤ (w2.K c).sp.toNat - 8 * (n + 1) ∧ Gives (storeCheck c (addrAdd (w2.K c).sp.toNat (-(8 * (n + 1) : Int))) 8) w2 () w3 ∧ Gives (store c (addrAdd (w2.K c).sp.toNat (-(8 * (n + 1) : Int))) 8 ((w2.K c).fb.toNat * 2 ^ 32 + n * 2 ^ 17 + i.next % 2 ^ 17)) w3 () w4) ∧
    (let d : Dev := (coreDev [136, 100, 5, 64, 0, 52] [3, 0, 0, 0, 0, 0, 0, 0, 5, 0, 0, 0, 0, 0, 0, 0]).wr (CORE_SP_LIMIT.LIMIT 3) 0x40000; let c := (3 : Fin 21); let i := insnOf d c; let w := stOf (fetchInsn c (d.K c).pc d) d; let pt := (i.specs.getD 0 noSpec); let pn := (i.specs.getD 1 noSpec); let a := valOf (branchTo c i pt w) 0; let w1 := stOf (branchTo c i pt w) w; let n := valOf (source c i 1 pn w1) 0; let w2 := stOf (source c i 1 pn w1) w1; d.ks c = Ks.running ∧ Gives (fetchInsn c (d.K c).pc) d i w ∧ i.op = 0x32 ∧ condHolds i.cond (w.K c).flags = true ∧ i.specs = [pt, pn] ∧ Gives (branchTo c i pt) w a w1 ∧ Gives (source c i 1 pn) w1 n w2 ∧ n ≤ 4095 ∧ (w2.K c).sp.toNat - 8 * (n + 1) < (w2.rd (CORE_SP_LIMIT.LIMIT c) : Int)) ∧
    (let d : Dev := coreDev [128, 102] [0x40, 0, 6, 0, 0, 0, 4, 0]; let c := (3 : Fin 21); let i := insnOf d c; let w := stOf (fetchInsn c (d.K c).pc d) d; let v := valOf (load c (w.K c).fb.toNat 8 w) 0; let w1 := stOf (load c (w.K c).fb.toNat 8 w) w; d.ks c = Ks.running ∧ Gives (fetchInsn c (d.K c).pc) d i w ∧ i.op = 0x33 ∧ condHolds i.cond (w.K c).flags = true ∧ Gives (load c (w.K c).fb.toNat 8) w v w1) ∧
    (let d : Dev := coreDev [136, 104, 0, 5, 64, 0] [3, 0, 0, 0, 0, 0, 0, 0, 5, 0, 0, 0, 0, 0, 0, 0]; let c := (3 : Fin 21); let i := insnOf d c; let w := stOf (fetchInsn c (d.K c).pc d) d; let pa := (i.specs.getD 0 noSpec); let pe := (i.specs.getD 1 noSpec); let a := valOf (source c i 1 pa w) 0; let w1 := stOf (source c i 1 pa w) w; let e := valOf (branchTo c i pe w1) 0; let w2 := stOf (branchTo c i pe w1) w1; d.ks c = Ks.running ∧ Gives (fetchInsn c (d.K c).pc) d i w ∧ i.op = 0x34 ∧ condHolds i.cond (w.K c).flags = true ∧ i.specs = [pa, pe] ∧ Gives (source c i 1 pa) w a w1 ∧ Gives (branchTo c i pe) w1 e w2 ∧ 0 < a ∧ a < 2 ^ 24) ∧
    (let d : Dev := coreDev [136, 104, 48, 5, 64, 0] [3, 0, 0, 0, 0, 0, 0, 0, 5, 0, 0, 0, 0, 0, 0, 0]; let c := (3 : Fin 21); let i := insnOf d c; let w := stOf (fetchInsn c (d.K c).pc d) d; let pa := (i.specs.getD 0 noSpec); let pe := (i.specs.getD 1 noSpec); let a := valOf (source c i 1 pa w) 0; let w1 := stOf (source c i 1 pa w) w; let e := valOf (branchTo c i pe w1) 0; let w2 := stOf (branchTo c i pe w1) w1; d.ks c = Ks.running ∧ Gives (fetchInsn c (d.K c).pc) d i w ∧ i.op = 0x34 ∧ condHolds i.cond (w.K c).flags = true ∧ i.specs = [pa, pe] ∧ Gives (source c i 1 pa) w a w1 ∧ Gives (branchTo c i pe) w1 e w2 ∧ a = 0) ∧
    (let d : Dev := (coreDev [128, 106] [3, 0, 0, 0, 0, 0, 0, 0, 5, 0, 0, 0, 0, 0, 0, 0]).onK 3 fun x => { x with flags := 0x120 }; let c := (3 : Fin 21); let i := insnOf d c; let w := stOf (fetchInsn c (d.K c).pc d) d; d.ks c = Ks.running ∧ Gives (fetchInsn c (d.K c).pc) d i w ∧ i.op = 0x35 ∧ condHolds i.cond (w.K c).flags = true ∧ (w.K c).flags &&& 0x20 ≠ 0) ∧
    (let d : Dev := coreDev [128, 106] [3, 0, 0, 0, 0, 0, 0, 0, 5, 0, 0, 0, 0, 0, 0, 0]; let c := (3 : Fin 21); let i := insnOf d c; let w := stOf (fetchInsn c (d.K c).pc d) d; d.ks c = Ks.running ∧ Gives (fetchInsn c (d.K c).pc) d i w ∧ i.op = 0x35 ∧ condHolds i.cond (w.K c).flags = true ∧ (w.K c).flags &&& 0x20 = 0) ∧
    (let d : Dev := coreDev [140, 112, 32, 68, 84] [3, 0, 0, 0, 0, 0, 0, 0, 5, 0, 0, 0, 0, 0, 0, 0]; let c := (3 : Fin 21); let i := insnOf d c; let w := stOf (fetchInsn c (d.K c).pc d) d; let pd := (i.specs.getD 0 noSpec); let pm := (i.specs.getD 1 noSpec); let pb := (i.specs.getD 2 noSpec); let l := valOf (target c i 1 pd w) (.imm 0); let w1 := stOf (target c i 1 pd w) w; let m := valOf (source c i 1 pm w1) 0; let w2 := stOf (source c i 1 pm w1) w1; let b := valOf (source c i 1 pb w2) 0; let w3 := stOf (source c i 1 pb w2) w2; d.ks c = Ks.running ∧ Gives (fetchInsn c (d.K c).pc) d i w ∧ i.op = 0x38 ∧ condHolds i.cond (w.K c).flags = true ∧ i.specs = [pd, pm, pb] ∧ Gives (target c i 1 pd) w l w1 ∧ Gives (source c i 1 pm) w1 m w2 ∧ Gives (source c i 1 pb) w2 b w3 ∧ w3.pend c &&& m = 0) ∧
    (let d : Dev := (coreDev [140, 112, 32, 68, 84] [3, 0, 0, 0, 0, 0, 0, 0, 5, 0, 0, 0, 0, 0, 0, 0]).wr (CORE_PEND.PEND 3) 0x14; let c := (3 : Fin 21); let i := insnOf d c; let w := stOf (fetchInsn c (d.K c).pc d) d; let pd := (i.specs.getD 0 noSpec); let pm := (i.specs.getD 1 noSpec); let pb := (i.specs.getD 2 noSpec); let l := valOf (target c i 1 pd w) (.imm 0); let w1 := stOf (target c i 1 pd w) w; let m := valOf (source c i 1 pm w1) 0; let w2 := stOf (source c i 1 pm w1) w1; let b := valOf (source c i 1 pb w2) 0; let w3 := stOf (source c i 1 pb w2) w2; let w4 := stOf (putPlace c 1 (w3.pend c &&& m) l w3) w3; d.ks c = Ks.running ∧ Gives (fetchInsn c (d.K c).pc) d i w ∧ i.op = 0x38 ∧ condHolds i.cond (w.K c).flags = true ∧ i.specs = [pd, pm, pb] ∧ Gives (target c i 1 pd) w l w1 ∧ Gives (source c i 1 pm) w1 m w2 ∧ Gives (source c i 1 pb) w2 b w3 ∧ w3.pend c &&& m ≠ 0 ∧ Gives (putPlace c 1 (w3.pend c &&& m) l) w3 () w4) ∧
    (let d : Dev := coreDev [128, 114] [3, 0, 0, 0, 0, 0, 0, 0, 5, 0, 0, 0, 0, 0, 0, 0]; let c := (3 : Fin 21); let i := insnOf d c; let w := stOf (fetchInsn c (d.K c).pc d) d; d.ks c = Ks.running ∧ Gives (fetchInsn c (d.K c).pc) d i w ∧ i.op = 0x39 ∧ condHolds i.cond (w.K c).flags = true) ∧
    (let d : Dev := coreDev [136, 116, 0, 16] [3, 0, 0, 0, 0, 0, 0, 0, 5, 0, 0, 0, 0, 0, 0, 0]; let c := (3 : Fin 21); let i := insnOf d c; let w := stOf (fetchInsn c (d.K c).pc d) d; let pa := (i.specs.getD 0 noSpec); let pb := (i.specs.getD 1 noSpec); let la := (valOf (atomic c i pa w) (.imm 0, 0)).1; let a := (valOf (atomic c i pa w) (.imm 0, 0)).2; let w1 := stOf (atomic c i pa w) w; let lb := (valOf (updated c i i.ty pb w1) (.imm 0, 0)).1; let b := (valOf (updated c i i.ty pb w1) (.imm 0, 0)).2; let w2 := stOf (updated c i i.ty pb w1) w1; let w3 := stOf (result c i.ty la b w2) w2; let w4 := stOf (result c i.ty lb a w3) w3; d.ks c = Ks.running ∧ Gives (fetchInsn c (d.K c).pc) d i w ∧ i.op = 0x3A ∧ condHolds i.cond (w.K c).flags = true ∧ i.specs = [pa, pb] ∧ Gives (atomic c i pa) w (la, a) w1 ∧ Gives (updated c i i.ty pb) w1 (lb, b) w2 ∧ Gives (result c i.ty la b) w2 () w3 ∧ Gives (result c i.ty lb a) w3 () w4) ∧
    (let d : Dev := coreDev [140, 118, 32, 0, 16] [3, 0, 0, 0, 0, 0, 0, 0, 5, 0, 0, 0, 0, 0, 0, 0]; let c := (3 : Fin 21); let i := insnOf d c; let w := stOf (fetchInsn c (d.K c).pc d) d; let pd := (i.specs.getD 0 noSpec); let pa := (i.specs.getD 1 noSpec); let pb := (i.specs.getD 2 noSpec); let l := valOf (target c i i.ty pd w) (.imm 0); let w1 := stOf (target c i i.ty pd w) w; let la := (valOf (atomic c i pa w1) (.imm 0, 0)).1; let a := (valOf (atomic c i pa w1) (.imm 0, 0)).2; let w2 := stOf (atomic c i pa w1) w1; let b := valOf (source c i i.ty pb w2) 0; let w3 := stOf (source c i i.ty pb w2) w2; let w4 := stOf (result c i.ty la (a + b) w3) w3; let w5 := stOf (result c i.ty l a w4) w4; d.ks c = Ks.running ∧ Gives (fetchInsn c (d.K c).pc) d i w ∧ i.op = 0x3B ∧ condHolds i.cond (w.K c).flags = true ∧ i.specs = [pd, pa, pb] ∧ Gives (target c i i.ty pd) w l w1 ∧ Gives (atomic c i pa) w1 (la, a) w2 ∧ Gives (source c i i.ty pb) w2 b w3 ∧ Gives (result c i.ty la (a + b)) w3 () w4 ∧ Gives (result c i.ty l a) w4 () w5) ∧
    (let d : Dev := (devOf [(CORE_STATUS.STATE 3, Ks.waiting), (CORE_PEND.PEND 3, 0x14)]).onK 3 fun x => { x with wait := some { dest := .spec 1, mask := 4, limit := 0, since := 5, len := 5 } }; let c := (3 : Fin 21); let v := ({ dest := .spec 1, mask := 4, limit := 0, since := 5, len := 5 } : WaitSt); (d.K c).wait = some v ∧ d.ks c = Ks.waiting ∧ d.pend c &&& v.mask ≠ 0 ∧ d.wdtOver c = false ∧ d.waitOver c v = false) ∧
    (let d : Dev := (devOf [(CORE_STATUS.STATE 3, Ks.waiting), (CORE_PEND.PEND 3, 0x14)]).onK 3 fun x => { x with wait := some { dest := .spec 1, mask := 4, limit := 9, since := 5, len := 5 } }; let c := (3 : Fin 21); let v := ({ dest := .spec 1, mask := 4, limit := 9, since := 5, len := 5 } : WaitSt); (d.K c).wait = some v ∧ d.ks c = Ks.waiting ∧ d.pend c &&& v.mask ≠ 0 ∧ d.wdtOver c = false ∧ d.waitOver c v = true) ∧
    (let d : Dev := (devOf [(CORE_STATUS.STATE 3, Ks.waiting), (CORE_PEND.PEND 3, 0x14)]).onK 3 fun x => { x with wait := some { dest := .spec 2, mask := 4, limit := 0, since := 5, len := 5 } }; let c := (3 : Fin 21); let v := ({ dest := .spec 2, mask := 4, limit := 0, since := 5, len := 5 } : WaitSt); (d.K c).wait = some v ∧ d.ks c = Ks.waiting ∧ v.dest = .spec 2 ∧ d.pend c &&& v.mask ≠ 0 ∧ d.wdtOver c = false ∧ d.waitOver c v = false ∧ c.val ≠ 20) ∧
    (let d : Dev := (devOf [(CORE_STATUS.STATE 3, Ks.waiting)]).onK 3 fun x => { x with wait := some { dest := .spec 1, mask := 4, limit := 9, since := 5, len := 5 } }; let c := (3 : Fin 21); let v := ({ dest := .spec 1, mask := 4, limit := 9, since := 5, len := 5 } : WaitSt); (d.K c).wait = some v ∧ d.ks c = Ks.waiting ∧ d.pend c &&& v.mask = 0 ∧ v.limit ≠ 0 ∧ v.limit ≤ d.coreClocks c (d.coreNow c - v.since)) ∧
    (let d : Dev := (devOf [(CORE_STATUS.STATE 3, Ks.waiting)]).onK 3 fun x => { x with wait := some { dest := .spec 2, mask := 4, limit := 9, since := 5, len := 5 } }; let c := (3 : Fin 21); let v := ({ dest := .spec 2, mask := 4, limit := 9, since := 5, len := 5 } : WaitSt); (d.K c).wait = some v ∧ d.ks c = Ks.waiting ∧ v.dest = .spec 2 ∧ d.pend c &&& v.mask = 0 ∧ v.limit ≠ 0 ∧ v.limit ≤ d.coreClocks c (d.coreNow c - v.since) ∧ c.val ≠ 20 ∧ d.wdtOver c = false) ∧
    (let d : Dev := (devOf [(CORE_STATUS.STATE 17, Ks.waiting)]).onK 17 fun x => { x with hostRd := some (1270000, 0x80001000) }; let c := (17 : Fin 21); let v := (7 : BitVec 64); let k := 1270000; let a := 0x80001000; (d.K c).hostRd = some (k, a) ∧ d.ks c = Ks.waiting ∧ d.now < k + 40000) ∧
    (let d : Dev := (devOf [(CORE_STATUS.STATE 17, Ks.waiting)]).onK 17 fun x => { x with hostRd := some (1270000, 0x80001000) }; let c := (17 : Fin 21); let v := (7 : BitVec 64); let k := 1270000; let a := 0x80001000; (d.K c).hostRd = some (k, a) ∧ d.ks c = Ks.waiting ∧ d.now < k + 40000) ∧
    (let d : Dev := (devOf [(CORE_STATUS.STATE 17, Ks.waiting)]).onK 17 fun x => { x with hostRd := some (1270000, 0x80001000) }; let c := (17 : Fin 21); let k := 1270000; let a := 0x80001000; (d.K c).hostRd = some (k, a) ∧ d.ks c = Ks.waiting ∧ d.now < k + 40000) ∧
    (let d : Dev := (devOf [(CORE_STATUS.STATE 17, Ks.waiting), (CORE_EXC_VEC.VEC 17, 0x200)]).onK 17 fun x => { x with hostRd := some (1270000, 0x80001000) }; let c := (17 : Fin 21); let k := 1270000; let a := 0x80001000; (d.K c).hostRd = some (k, a) ∧ d.ks c = Ks.waiting ∧ d.now < k + 40000 ∧ (d.K c).flags &&& 0x20 = 0 ∧ d.rd (CORE_EXC_VEC.VEC c) ≠ 0) ∧
    (let d : Dev := (devOf [(CORE_STATUS.STATE 17, Ks.waiting)]).onK 17 fun x => { x with flags := 0x20, hostRd := some (1270000, 0x80001000) }; let c := (17 : Fin 21); let k := 1270000; let a := 0x80001000; (d.K c).hostRd = some (k, a) ∧ d.ks c = Ks.waiting ∧ d.now < k + 40000 ∧ bit (d.K c).flags.toNat 5 = true) ∧
    (let d : Dev := (devOf [(CORE_STATUS.STATE 17, Ks.waiting)]).onK 17 fun x => { x with hostRd := some (5, 0x80001000) }; let c := (17 : Fin 21); let k := 5; let a := 0x80001000; (d.K c).hostRd = some (k, a) ∧ d.ks c = Ks.waiting ∧ k + 40000 ≤ d.now) ∧
    (let d : Dev := (devOf [(CORE_STATUS.STATE 17, Ks.waiting), (CORE_EXC_VEC.VEC 17, 0x200)]).onK 17 fun x => { x with hostRd := some (5, 0x80001000) }; let c := (17 : Fin 21); let k := 5; let a := 0x80001000; (d.K c).hostRd = some (k, a) ∧ d.ks c = Ks.waiting ∧ k + 40000 ≤ d.now ∧ (d.K c).flags &&& 0x20 = 0 ∧ d.rd (CORE_EXC_VEC.VEC c) ≠ 0) ∧
    (let d : Dev := (devOf [(CORE_STATUS.STATE 17, Ks.waiting)]).onK 17 fun x => { x with flags := 0x20, hostRd := some (5, 0x80001000) }; let c := (17 : Fin 21); let k := 5; let a := 0x80001000; (d.K c).hostRd = some (k, a) ∧ d.ks c = Ks.waiting ∧ k + 40000 ≤ d.now ∧ bit (d.K c).flags.toNat 5 = true) ∧
    (let d : Dev := (devOf [(CORE_STATUS.STATE 3, Ks.running), (CORE_CFG.WDT_EN 3, 1)]).onK 3 fun x => { x with wdt := some 5 }; let c := (3 : Fin 21); let k := 5; (d.K c).wdt = some k ∧ d.on (CORE_CFG.WDT_EN c) = true ∧ d.coreBusy c = true ∧ k + d.wdtSpan c ≤ d.coreNow c) := by
  refine ⟨?_, ?_, ?_, ?_, ?_, ?_, ?_, ?_, ?_, ?_, ?_, ?_, ?_, ?_, ?_, ?_, ?_, ?_, ?_, ?_, ?_, ?_, ?_, ?_, ?_, ?_, ?_, ?_, ?_⟩ <;> decide +kernel

/-- What the premises of `FramesPower` ask for can be met. -/
theorem test_FramesPower : (match exec (.entArm 3) ⟨devOf [], []⟩ with | .next _ => true | _ => false) = true := by decide +kernel

/-- What the premises of `FramesControl` ask for can be met. -/
theorem test_FramesControl : (match exec .holdupExit ⟨devOf [(MODE_STATUS.MODE, 4)], []⟩ with | .next _ => true | _ => false) = true := by decide +kernel

/-- What the premises of `FramesHost` ask for can be met. -/
theorem test_FramesHost : (∀ k : Fin 2, 5 % 2 ^ 48 ≠ (100 + k.val) % 2 ^ 48) ∧ (match exec .heartbeat ⟨devOf [], []⟩ with | .next _ => true | _ => false) = true := by decide +kernel

/-- What the premises of `FramesLinks` ask for can be met. -/
theorem test_FramesLinks : (match exec .linkUp ⟨devOf [], []⟩ with | .next _ => true | _ => false) = true := by decide +kernel

/-- What the premises of `FramesCores` ask for can be met. -/
theorem test_FramesCores : coreArea 3 0x20008 = some (.mem 7 8) ∧ coreArea 16 0x80000010 = some (.host 16) ∧ bankPartner 7 = none ∧ bankTables 7 = [] ∧ (coreDev [1] [2]).granErr 7 1 = 0 ∧ (load 3 0x20008 4 (coreDev [1] [2])).isOk = true ∧ (store 3 0x20008 4 9 (coreDev [1] [2])).isOk = true ∧ (store 16 0x80000010 4 9 (coreDev [1] [2])).isOk = true ∧ (load 16 0x80000010 4 ((coreDev [1] [2]).onK 16 fun x => { x with hostBuf := [(0x80000010, 5)] })).isOk = true ∧ (putPlace 3 1 9 (.at (.spec 2)) (coreDev [1] [2])).isOk = true := by decide +kernel

end Sys2Proof.Tests
end

section
/-! PROOFS. The access codes of a register write: the stored word bit by bit (00_scope.md R4, R5), and the codes of the register
map, which share no bit (17_register_map.md R447). -/

namespace Sys2Proof.Machine

/-- The stored word bit by bit: the RW choice first, then the W1C clear, then the W1S set, each over the one before it. -/
theorem RegRow.getLsbD_store (r : RegRow) (old v hw : Word) {k : Nat} (hk : k < 32) :
    (r.store old v hw).getLsbD k =
      ((v &&& r.w1s).getLsbD k ||
        (!(v &&& r.w1c &&& ~~~hw).getLsbD k && if r.rw.getLsbD k then v.getLsbD k else old.getLsbD k)) := by
  have hrw : ((old &&& ~~~r.rw) ||| (v &&& r.rw)).getLsbD k = if r.rw.getLsbD k then v.getLsbD k else old.getLsbD k := by
    simp only [BitVec.getLsbD_or, BitVec.getLsbD_and, BitVec.getLsbD_not, decide_eq_true hk]
    cases r.rw.getLsbD k <;> simp
  rw [RegRow.store, BitVec.getLsbD_or, BitVec.getLsbD_and, hrw, BitVec.getLsbD_not, decide_eq_true hk, Bool.true_and,
    Bool.or_comm, Bool.and_comm]

/-- A W1S bit written 1 is set. -/
theorem RegRow.getLsbD_store_of_w1s {r : RegRow} {old v hw : Word} {k : Nat} (hk : k < 32)
    (hs : (v &&& r.w1s).getLsbD k = true) : (r.store old v hw).getLsbD k = true := by
  rw [r.getLsbD_store old v hw hk, hs, Bool.true_or]

/-- A W1C bit written 1 is cleared, unless hardware set it in the same clock. -/
theorem RegRow.getLsbD_store_of_w1c {r : RegRow} {old v hw : Word} {k : Nat} (hk : k < 32)
    (hs : (v &&& r.w1s).getLsbD k = false) (hc : (v &&& r.w1c &&& ~~~hw).getLsbD k = true) :
    (r.store old v hw).getLsbD k = false := by
  rw [r.getLsbD_store old v hw hk, hs, hc, Bool.false_or, Bool.not_true, Bool.false_and]

/-- Where nothing is set or cleared, a RW bit takes its written value and any other bit keeps its own. -/
theorem RegRow.getLsbD_store_of_rest {r : RegRow} {old v hw : Word} {k : Nat} (hk : k < 32)
    (hs : (v &&& r.w1s).getLsbD k = false) (hc : (v &&& r.w1c &&& ~~~hw).getLsbD k = false) :
    (r.store old v hw).getLsbD k = if r.rw.getLsbD k then v.getLsbD k else old.getLsbD k := by
  rw [r.getLsbD_store old v hw hk, hs, hc, Bool.false_or, Bool.not_false, Bool.true_and]

/-- The row gives no bit two of the codes RW, W1C and W1S, and no RW bit the code RC. -/
def RegRow.CodesApart (r : RegRow) : Prop :=
  r.rw &&& r.w1c = 0 ∧ r.rw &&& r.w1s = 0 ∧ r.w1c &&& r.w1s = 0 ∧ r.rw &&& r.rc = 0

/-- Every row of the register map keeps its codes apart; the map is a finite table, which `decide` goes through whole. -/
theorem codesApart_of_mem_registerMap :
    ∀ b ∈ blocksLow ++ blocksHub ++ blocksLoom ++ blocksEntry, ∀ r ∈ b.rows, r.CodesApart := by
  unfold RegRow.CodesApart
  decide

/-- Settles O8: a stored bit follows the first of set, cleared, written and kept that its code and the written bit give it, and
the register map's tables give no bit two codes. -/
theorem registerAccessCodes : Obligations.RegisterAccessCodes := by
  refine ⟨fun r old v hw k hk => ?_, codesApart_of_mem_registerMap⟩
  split
  case isTrue hs => exact RegRow.getLsbD_store_of_w1s hk hs
  case isFalse hs =>
    rw [Bool.not_eq_true] at hs
    split
    case isTrue hc => exact RegRow.getLsbD_store_of_w1c hk hs hc
    case isFalse hc =>
      rw [Bool.not_eq_true] at hc
      exact RegRow.getLsbD_store_of_rest hk hs hc

end Sys2Proof.Machine
end

section
/-! PROOFS. Commands on resources (01_architecture.md R23-R26; 12_host_rings.md R321-R323): what a descriptor that passes the screens
comes to, which descriptors a completion leaves outstanding, and a block whose next descriptor number is in use already, which gives
a NOP's completion to another descriptor. -/

namespace Sys2Proof.Machine

/-- A descriptor that is not blocked and passes the screens comes to its own rule; where that rule answers a status, it completes
with it. -/
theorem Dev.runDesc_of_passes {d e : Dev} {opc : Nat} {x : Desc} {want : Option Nat} {safeOk : Bool} {dom : Option Nat}
    {body : Dev → Token → Dev × Option Nat} {st : Nat} (hb : d.blocked opc x = false)
    (hp : (d.begin opc x).1.passes x want safeOk dom = true)
    (he : body ((d.begin opc x).1.take opc x) (.out (d.begin opc x).2) = (e, some st)) :
    d.runDesc opc x want safeOk dom body = e.endDesc (d.begin opc x).2 x.src st := by
  simp only [Dev.passes, Bool.and_eq_true, Bool.not_eq_true', Bool.or_eq_true, bne_iff_ne] at hp
  obtain ⟨⟨⟨⟨⟨-, hdirty⟩, htarget⟩, hsafe⟩, hdom⟩, hlink⟩ := hp
  have hsafe' : ¬ ((d.begin opc x).1.md = Md.safe ∧ ¬ safeOk) := fun h => hsafe.elim (· h.1) h.2
  rw [Dev.runDesc, if_neg (by simp [hb]), Dev.runNow]
  dsimp only
  rw [if_neg (by simp [hdirty]), if_neg (by simp [htarget]), if_neg hsafe', if_neg, if_neg (by simp [hlink]), he]
  cases dom with
  | none => exact Bool.false_ne_true
  | some k => simpa using hdom

/-- A well-formed NOP answers the block that `devNop` gives, with the queue as it was. -/
theorem exec_nop {x : Desc} (hx : x.wf = true) (d : Dev) (rest : List Instr) : exec (.nop x) ⟨d, rest⟩ = .next ⟨devNop x d, rest⟩ :=
  if_pos hx

/-- A completion leaves the same descriptors outstanding: it takes none away and adds none. -/
@[simp] theorem Dev.outDescs_complete (d : Dev) (t : Token) (st : Nat) :
    (d.complete t st).host.out.map Out.d = d.host.out.map Out.d := by
  cases t with
  | modeReg => rfl
  | record _ => rfl
  | out i =>
    rw [Dev.complete, List.map_map]
    refine List.map_congr_left fun o _ => ?_
    dsimp only [Function.comp_apply]
    split <;> rfl

/-- The end of a descriptor leaves them too, with the fault that it may raise. -/
@[simp] theorem Dev.outDescs_endDesc (d : Dev) (i : Nat) (src : Src) (st : Nat) :
    (d.endDesc i src st).host.out.map Out.d = d.host.out.map Out.d := by
  unfold Dev.endDesc
  dsimp only
  split <;> simp

/-- A descriptor that is answered is outstanding. -/
theorem Dev.Answered.mem_outDescs {d : Dev} {x : Desc} {st : Nat} (h : d.Answered x st) : x ∈ d.host.out.map Out.d := by
  obtain ⟨o, ho, rfl, -⟩ := h
  exact List.mem_map_of_mem ho

/-! ## A block whose next descriptor number is in use -/

/-- A block with `n` descriptors outstanding, each of them `y`, in which the number that the next descriptor would get is that of `y`. -/
def numberInUse (y : Out) (n : Nat) : Dev := { host := { out := List.replicate n y, nextId := y.id } }

section
variable {x : Desc} {y : Out} {n : Nat} (hsrc : x.src = y.d.src) (hbegun : y.begun = true) (hn : 1024 ≤ n)
include hsrc hbegun hn

/-- The ring is at its limit (R322), so a descriptor finds no room; its number is that of `y` all the same. -/
theorem enter_numberInUse (opc : Nat) : (numberInUse y n).enter opc x = (numberInUse y n, y.id) := by
  have hroom : (numberInUse y n).outRoom x.src = false := by simp [Dev.outRoom, numberInUse, hsrc, hn]
  have hfind : (numberInUse y n).host.out.find? (fun o => o.opc == opc && decide (o.d = x) && !o.begun && o.result.isNone) = none := by
    simp [numberInUse, hbegun]
  rw [Dev.enter, hfind]
  exact if_pos (by simp [hroom])

/-- What begins is `y`, which has begun. -/
theorem begin_numberInUse (opc : Nat) : (numberInUse y n).begin opc x = (numberInUse y n, y.id) := by
  have hy : { y with begun := true } = y := by rw [← hbegun]
  rw [Dev.begin, enter_numberInUse hsrc hbegun hn]
  simp [numberInUse, hy]

/-- The test for room looks for the number alone, so a descriptor that names no unit is not held back. -/
theorem blocked_numberInUse {opc : Nat} (hunit : descUnit opc x = none) : (numberInUse y n).blocked opc x = false := by
  have hn0 : n ≠ 0 := by omega
  rw [Dev.blocked, enter_numberInUse hsrc hbegun hn]
  simp [Dev.outranked, hunit, numberInUse, hn0]

end

/-- A NOP of host ring 2 with tag 7. -/
def nopDesc : Desc := { src := .host 2, tag := 7, cls := 0, idx := 0, payload := List.replicate 48 0 }

/-- A NOP of the same ring with tag 8, numbered 0, that has begun. -/
def otherNop : Out := { id := 0, opc := 0, d := { nopDesc with tag := 8 }, begun := true }

section
variable {n : Nat} (hn : 1024 ≤ n)
include hn

theorem begin_nopDesc : (numberInUse otherNop n).begin 0x00 nopDesc = (numberInUse otherNop n, 0) :=
  begin_numberInUse (x := nopDesc) (y := otherNop) rfl rfl hn 0x00

theorem blocked_nopDesc : (numberInUse otherNop n).blocked 0x00 nopDesc = false :=
  blocked_numberInUse (x := nopDesc) (y := otherNop) rfl rfl hn rfl

theorem passes_nopDesc : ((numberInUse otherNop n).begin 0x00 nopDesc).1.passes nopDesc (some 0) true none = true := by
  rw [begin_nopDesc hn]
  simp [Dev.passes, Dev.targetOut, nopDesc, Desc.wf, targetOk, targetDie, classCount]

/-- After the NOP with tag 7 the descriptors outstanding are those with tag 8 as before, so it is not among the answered. -/
theorem not_answered_of_exec_nop {t : Dev} {rest : List Instr} (st : Nat)
    (ht : exec (.nop nopDesc) ⟨numberInUse otherNop n, rest⟩ = .next ⟨t, rest⟩) : ¬ t.Answered nopDesc st := by
  intro h
  rw [exec_nop (by decide)] at ht
  cases ht
  have hdescs : (devNop nopDesc (numberInUse otherNop n)).host.out.map Out.d = List.replicate n otherNop.d := by
    rw [devNop, Dev.runDesc_of_passes (blocked_nopDesc hn) (passes_nopDesc hn) rfl, Dev.outDescs_endDesc, begin_nopDesc hn]
    exact List.map_replicate
  have hmem := h.mem_outDescs
  rw [hdescs] at hmem
  exact absurd (List.eq_of_mem_replicate hmem) (by decide)

end

/-- Refutes O26: its clauses take any block, one whose next descriptor number is in use too. With 1,024 descriptors of the ring outstanding
under that number, all with tag 8, a NOP with tag 7 meets every premise, and no descriptor with tag 7 is answered: the completion goes
to those that have the number. No run from reset comes there, since each new descriptor counts the number on (R322, R323). -/
theorem not_resourceCommands : ¬ Obligations.ResourceCommands := by
  unfold Obligations.ResourceCommands
  rintro ⟨hnop, -, -, -⟩
  have hn : 1024 ≤ 1024 := Nat.le_refl 1024
  obtain ⟨t, ht, hans, -⟩ := hnop (numberInUse otherNop 1024) [] nopDesc (blocked_nopDesc hn) (passes_nopDesc hn) (by decide)
  exact not_answered_of_exec_nop hn _ ht hans

end Sys2Proof.Machine
end

section
/-! PROOFS. The retry machine of entry channels, branch channels and phases (03_branch_fuses.md R72-R77): what its acts leave as it was, and
what it decides at a trip. -/

namespace Sys2Proof.Machine

variable {d e t : Dev} {u : Nat}

/-! ## Fields of unchanged words -/

/-- A field reads the same where its word is the same. -/
theorem Dev.rd_congr {f : Fld} (h : e.word f.off = d.word f.off) : e.rd f = d.rd f := by simp [Dev.rd, h]

/-- RETRY_STAT of no unit is MEM_EVT. -/
theorem retryStat_ne_memEvt (u : Nat) : (RETRY_STAT.RSTATE u).off ≠ MEM_EVT.EVT.off := by
  simp only [RETRY_STAT.RSTATE, MEM_EVT.EVT]
  omega

/-- A unit's write of one field leaves a field of the same word that shares no bit with it. -/
theorem Dev.rd_twr_apart (d : Dev) (a v : Nat) {f g : Fld} (h : f.apart g) (hg : g.lo + g.len ≤ 32) (hm : g.off ≠ MEM_EVT.EVT.off) :
    (d.twr a f v).rd g = d.rd g := by
  rw [Dev.twr, Dev.rd_wr_apart _ f g v h hg]
  exact Dev.rd_congr ((d.tabMem_memOnly _ _ _).word _ hm)

/-- A unit's count in a field leaves every other word but MEM_EVT. -/
theorem Dev.word_tbump_ne (d : Dev) (a : Nat) (f : Fld) (k : Nat) {o : Nat} (h : o ≠ f.off) (hm : o ≠ MEM_EVT.EVT.off) :
    (d.tbump a f k).word o = d.word o := by
  rw [Dev.tbump, Dev.word_bump_ne _ f k h, (d.tabMem_memOnly _ _ _).word o hm]

/-! ## What the retry machine of a unit may touch -/

/-- From `d` to `t` only the retry machine of unit `u` has acted: channels, clocks, mode and keep are as they were, and so is every word but
the machine's own and MEM_EVT. -/
structure Dev.RetryActs (d : Dev) (u : Nat) (t : Dev) : Prop where
  ent : t.ent = d.ent
  br : t.br = d.br
  clk : t.clk = d.clk
  mode : t.mode = d.mode
  keep : t.keep = d.keep
  word : ∀ o, o ≠ (RETRY_STAT.RSTATE u).off → o ≠ MEM_EVT.EVT.off → t.word o = d.word o

theorem Dev.RetryActs.trans (h : d.RetryActs u e) (k : e.RetryActs u t) : d.RetryActs u t :=
  ⟨k.ent.trans h.ent, k.br.trans h.br, k.clk.trans h.clk, k.mode.trans h.mode, k.keep.trans h.keep,
   fun o h1 h2 => (k.word o h1 h2).trans (h.word o h1 h2)⟩

theorem Dev.RetryActs.refl : d.RetryActs u d := ⟨rfl, rfl, rfl, rfl, rfl, fun _ _ _ => rfl⟩

theorem Dev.RetryActs.onRT (h : d.RetryActs u t) (v : Nat) (g : RetrySt → RetrySt) : d.RetryActs u (t.onRT v g) :=
  h.trans ⟨rfl, rfl, rfl, rfl, rfl, fun _ _ _ => rfl⟩

theorem Dev.RetryActs.rtStop (h : d.RetryActs u t) : d.RetryActs u (t.rtStop u) := h.onRT u _

/-- A unit's write of a field of the machine's word. -/
theorem Dev.RetryActs.twr (h : d.RetryActs u t) (a v : Nat) (f : Fld) (hf : f.off = (RETRY_STAT.RSTATE u).off) :
    d.RetryActs u (t.twr a f v) :=
  h.trans ⟨by simp, by simp, by simp, by simp, by simp, fun _ h1 h2 => t.word_twr_ne a f v (hf ▸ h1) h2⟩

theorem Dev.RetryActs.tbump (h : d.RetryActs u t) (a k : Nat) (f : Fld) (hf : f.off = (RETRY_STAT.RSTATE u).off) :
    d.RetryActs u (t.tbump a f k) :=
  h.trans ⟨by simp, by simp, by simp, by simp, by simp, fun _ h1 h2 => t.word_tbump_ne a f k (hf ▸ h1) h2⟩

theorem Dev.RetryActs.rtLatch (h : d.RetryActs u t) (cool : Bool) : d.RetryActs u (t.rtLatch u cool) :=
  (h.rtStop.twr _ _ (RETRY_STAT.RSTATE u) rfl).twr _ _ (RETRY_STAT.COOL_TO u) rfl

/-! ## The decision of a trip (R73) -/

/-- The COUNT_CLEAR window of unit `u`, if one is open, has not closed. -/
def Dev.clearOpen (d : Dev) (u : Nat) : Prop := ∀ k, (d.RT u).clear = some k → d.now < k

theorem Dev.countClear_of_clearOpen (h : d.clearOpen u) : d.countClear u = d := by
  unfold Dev.countClear
  split
  · next k hk => exact if_neg (Nat.not_le.2 (h k hk))
  · rfl

/-- A trip loads the policy record that the unit names, stops the count's window and notes RETRY_STAT. -/
def Dev.rtLoad (d : Dev) (u : Nat) : Dev :=
  d.onRT u fun x => { x with pol := d.polWords (d.unitPol u), clear := none, stat := d.word (RETRY_STAT.RSTATE u).off }

/-- The delay before a retry, by the loaded record and the retries made (R73). -/
def Dev.rtDelay (d : Dev) (u : Nat) : Nat :=
  retryDelay (d.rtPol u 1 POL1.RETRY_DELAY) (d.rtPol u 2 POL2.DELAY_CAP) (d.rd (RETRY_STAT.RETRY_CNT u)) (d.rtPol u 0 POL0.BACKOFF == 1)

/-- The unit waits for a retry, which is counted. -/
def Dev.rtWait (d : Dev) (u : Nat) : Dev :=
  let t := d.rtDelay u
  let d := d.rtStop u
  let d := (d.tbump (d.unitAgent u) (RETRY_STAT.RETRY_CNT u)).twr (d.unitAgent u) (RETRY_STAT.RSTATE u) Rt.delay
  d.onRT u fun x => { x with delay := some (d.now + t) }

/-- A field of the first word of the loaded record is that of the record in the table. -/
theorem Dev.rtPol_rtLoad (d : Dev) (u : Nat) (f : Nat → Fld) (hf : (f (d.unitPol u)).off = (POL0.KIND (d.unitPol u)).off)
    (hg : (f 0).get = (f (d.unitPol u)).get) : (d.rtLoad u).rtPol u 0 f = d.rd (f (d.unitPol u)) := by
  simp [Dev.rtPol, Dev.rtLoad, Dev.polWords, Dev.rd, hf, hg]

/-- With no memory damaged and the count's window open, a trip latches where its policy says so or a CUTOFF in HOLDUP asks it, and
otherwise waits for a retry. -/
theorem Dev.rtTrip_eq (herr : d.mem.err = []) (hc : d.clearOpen u) (c : Nat) (cut : Bool) :
    d.rtTrip u c cut =
      if (d.latchesOn u c || cut) = true then ((d.rtLoad u).rtLatch u false, true) else ((d.rtLoad u).rtWait u, false) := by
  have hnow : (d.rtLoad u).rtPol u 0 POL0.LATCH_NOW = d.rd (POL0.LATCH_NOW (d.unitPol u)) := d.rtPol_rtLoad u _ rfl rfl
  have hmax : (d.rtLoad u).rtPol u 0 POL0.RETRY_MAX = d.rd (POL0.RETRY_MAX (d.unitPol u)) := d.rtPol_rtLoad u _ rfl rfl
  have hcnt : (d.rtLoad u).rd (RETRY_STAT.RETRY_CNT u) = d.rd (RETRY_STAT.RETRY_CNT u) := rfl
  unfold Dev.rtTrip
  rw [d.tabRead_clean _ _ _ _ herr, Dev.countClear_of_clearOpen hc]
  dsimp only
  rw [← Dev.rtLoad, hnow, hmax, hcnt]
  refine ite_congr (propext ?_) (fun _ => rfl) (fun _ => rfl)
  cases cut <;> simp [Dev.latchesOn, Dev.rdBit]

theorem Dev.RetryActs.rtWait (h : d.RetryActs u t) : d.RetryActs u (t.rtWait u) := by
  unfold Dev.rtWait
  exact ((h.rtStop.tbump _ 1 (RETRY_STAT.RETRY_CNT u) rfl).twr _ _ (RETRY_STAT.RSTATE u) rfl).onRT u _

/-- The unit has latched: RSTATE says so. -/
theorem Dev.rd_rstate_rtLatch (d : Dev) (cool : Bool) : (d.rtLatch u cool).rd (RETRY_STAT.RSTATE u) = Rt.latched := by
  rw [Dev.rtLatch, Dev.rd_twr_apart _ _ _ (.inr (.inr (Nat.le_of_ble_eq_true rfl))) (Nat.le_of_ble_eq_true rfl) (retryStat_ne_memEvt u),
    Dev.rd_twr_same _ _ _ _ (Nat.le_of_ble_eq_true rfl)]
  rfl

theorem Dev.rd_rstate_rtWait (d : Dev) : (d.rtWait u).rd (RETRY_STAT.RSTATE u) = Rt.delay := by
  rw [Dev.rtWait, Dev.rd_onRT, Dev.rd_twr_same _ _ _ _ (Nat.le_of_ble_eq_true rfl)]
  rfl

/-- What the decision of a trip of unit `u` comes to, `latches` saying which: the machine has gone to LATCHED or to DELAY, and no
COUNT_CLEAR window is open. -/
structure Dev.TripDecided (d : Dev) (u : Nat) (latches : Bool) (r : Dev × Bool) : Prop where
  flag : r.2 = latches
  acts : d.RetryActs u r.1
  rstate : r.1.rd (RETRY_STAT.RSTATE u) = if latches = true then Rt.latched else Rt.delay
  clear : (r.1.RT u).clear = none

theorem Dev.tripDecided_rtTrip (herr : d.mem.err = []) (hc : d.clearOpen u) (c : Nat) (cut : Bool) :
    d.TripDecided u (d.latchesOn u c || cut) (d.rtTrip u c cut) := by
  rw [Dev.rtTrip_eq herr hc]
  have hload : d.RetryActs u (d.rtLoad u) := Dev.RetryActs.refl.onRT u _
  split
  case isTrue hl =>
    exact ⟨hl.symm, hload.rtLatch _, by rw [if_pos hl, Dev.rd_rstate_rtLatch],
      by simp [Dev.rtLatch, Dev.rtStop, Dev.rtLoad]⟩
  case isFalse hl =>
    exact ⟨(Bool.eq_false_iff.2 hl).symm, hload.rtWait, by rw [if_neg hl, Dev.rd_rstate_rtWait],
      by simp [Dev.rtWait, Dev.rtStop, Dev.rtLoad]⟩

end Sys2Proof.Machine
end

section
/-! PROOFS. Trips of entry channels (02_power_entry.md R46-R48): what a trip makes of a channel that belongs to no group, and which causes
are due. -/

namespace Sys2Proof.Machine

variable {d e t : Dev}

/-! ## A channel's trip (R46, R48) -/

/-- Bits below `k` set in a number below 2 to the `k` leave it there. -/
theorem foldl_setBit_lt {k : Nat} {l : List Nat} (hl : ∀ c ∈ l, c < k) : ∀ {v : Nat}, v < 2 ^ k → l.foldl setBit v < 2 ^ k := by
  induction l with
  | nil => exact fun hv => hv
  | cons c l ih =>
    intro v hv
    have hc : 2 ^ c < 2 ^ k := Nat.pow_lt_pow_right (by decide) (hl c List.mem_cons_self)
    exact ih (fun x hx => hl x (List.mem_cons_of_mem _ hx)) (Nat.or_lt_two_pow hv hc)

/-- What a trip of entry channel `n` by cause `c`, with the causes `also` beside it, makes of the channel, its registers and its retry machine
(R46, R48; 03_branch_fuses.md R73). -/
structure Dev.EntTripped (d : Dev) (n c : Nat) (also : List Nat) (latches : Bool) (t : Dev) : Prop where
  state : t.es n = if latches = true then Ec.latched else Ec.tripped
  cause : t.rd (ENT_STATUS.CAUSE n) = c
  also : t.rd (ENT_STATUS.ALSO n) = also.foldl setBit 0
  evt : t.rdBit (ENT_EVT.EVT n) c = true
  rstate : t.rd (RETRY_STAT.RSTATE n) = if latches = true then Rt.latched else Rt.delay
  gate : (t.E n).gate = .offFast
  others : ∀ m, m ≠ n → t.E m = d.E m
  word : ∀ o, o ≠ (ENT_STATUS.STATE n).off → o ≠ (ENT_EVT.EVT n).off → o ≠ (RETRY_STAT.RSTATE n).off → o ≠ MEM_EVT.EVT.off →
    t.word o = d.word o

/-- What writes the status, events and retry machine of channel `n` alone writes no word of the groups' configuration. -/
theorem Dev.groupOf_congr {n : Nat} (hn : n < 16)
    (h : ∀ o, o ≠ (ENT_STATUS.STATE n).off → o ≠ (ENT_EVT.EVT n).off → o ≠ (RETRY_STAT.RSTATE n).off → o ≠ MEM_EVT.EVT.off →
      t.word o = d.word o) : t.groupOf n = d.groupOf n := by
  have hmem : ∀ g, t.rd (EG_CFG.MEMBERS g) = d.rd (EG_CFG.MEMBERS g) := fun g => by
    refine Dev.rd_congr (h _ ?_ ?_ ?_ ?_)
    all_goals simp only [EG_CFG.MEMBERS, ENT_STATUS.STATE, ENT_EVT.EVT, RETRY_STAT.RSTATE, MEM_EVT.EVT]; omega
  simp only [Dev.groupOf, Dev.rdBit, hmem]

theorem Dev.EntTripped.groupOf {n c : Nat} {also : List Nat} {l : Bool} (h : d.EntTripped n c also l t) (hn : n < 16) :
    t.groupOf n = d.groupOf n := Dev.groupOf_congr hn h.word

/-- A change of the channel that leaves its gate leaves what the trip has made of it. -/
theorem Dev.EntTripped.onE {n c : Nat} {also : List Nat} {l : Bool} (h : d.EntTripped n c also l t) (g : EntrySt → EntrySt)
    (hg : ∀ x, (g x).gate = x.gate) : d.EntTripped n c also l (t.onE n g) where
  state := h.state
  cause := h.cause
  also := h.also
  evt := h.evt
  rstate := h.rstate
  gate := by rw [Dev.E_onE_same, hg, h.gate]
  others := fun m hm => (t.E_onE_ne hm g).trans (h.others m hm)
  word := h.word

/-- A message about the trip leaves it too. -/
theorem Dev.EntTripped.send {n c : Nat} {also : List Nat} {l : Bool} (h : d.EntTripped n c also l t) (m : FMsg) :
    d.EntTripped n c also l (t.send m) := by
  rw [t.send_eq m]
  exact ⟨h.state, h.cause, h.also, h.evt, h.rstate, h.gate, h.others, h.word⟩

theorem Dev.EntTripped.entTripMsg {n c : Nat} {also : List Nat} {l : Bool} (h : d.EntTripped n c also l t) (access fence : Nat) :
    d.EntTripped n c also l (t.entTripMsg n c access fence) := h.send _

/-- What a trip writes in the registers of channel `n`: CAUSE, ALSO and the bit of EVT (R48). -/
def Dev.entRecord (d : Dev) (n c : Nat) (also : List Nat) : Dev :=
  ((d.wr (ENT_STATUS.CAUSE n) c).wr (ENT_STATUS.ALSO n) (also.foldl setBit 0)).evt (ENT_EVT.EVT n) c

/-- ENT_EVT and ENT_STATUS are two words, so the event bit leaves each field of ENT_STATUS. -/
theorem Dev.rd_evt_entStatus (d : Dev) (n c : Nat) (g : Fld) (hg : g.off = (ENT_STATUS.STATE n).off) :
    (d.evt (ENT_EVT.EVT n) c).rd g = d.rd g :=
  Dev.rd_congr (d.word_evt_ne _ _ (by simp only [hg, ENT_STATUS.STATE, ENT_EVT.EVT]; omega))

theorem Dev.es_entRecord (d : Dev) (n c : Nat) (also : List Nat) : (d.entRecord n c also).es n = d.es n := by
  rw [Dev.es, Dev.entRecord, Dev.rd_evt_entStatus _ n c (ENT_STATUS.STATE n) rfl, Dev.rd_wr_apart, Dev.rd_wr_apart, Dev.es]
  all_goals simp [Fld.apart, ENT_STATUS.CAUSE, ENT_STATUS.ALSO, ENT_STATUS.STATE]

theorem Dev.rd_cause_entRecord (d : Dev) (n : Nat) {c : Nat} (also : List Nat) (hc : c < 8) :
    (d.entRecord n c also).rd (ENT_STATUS.CAUSE n) = c := by
  rw [Dev.entRecord, Dev.rd_evt_entStatus _ n c (ENT_STATUS.CAUSE n) rfl, Dev.rd_wr_apart, Dev.rd_wr_same]
  · exact Nat.mod_eq_of_lt (Nat.lt_trans hc (by simp [ENT_STATUS.CAUSE]))
  all_goals simp [Fld.apart, ENT_STATUS.CAUSE, ENT_STATUS.ALSO]

theorem Dev.rd_also_entRecord (d : Dev) (n c : Nat) {also : List Nat} (h : ∀ x ∈ also, x < 8) :
    (d.entRecord n c also).rd (ENT_STATUS.ALSO n) = also.foldl setBit 0 := by
  rw [Dev.entRecord, Dev.rd_evt_entStatus _ n c (ENT_STATUS.ALSO n) rfl, Dev.rd_wr_same]
  · exact Nat.mod_eq_of_lt (foldl_setBit_lt h (by simp))
  · simp [ENT_STATUS.ALSO]

theorem Dev.rdBit_evt_entRecord (d : Dev) (n : Nat) {c : Nat} (also : List Nat) (hc : c < 8) :
    (d.entRecord n c also).rdBit (ENT_EVT.EVT n) c = true :=
  Dev.testBit_evt _ _ c hc (by simp [ENT_EVT.EVT])

theorem Dev.word_entRecord_ne (d : Dev) (n c : Nat) (also : List Nat) {o : Nat} (hs : o ≠ (ENT_STATUS.STATE n).off)
    (he : o ≠ (ENT_EVT.EVT n).off) : (d.entRecord n c also).word o = d.word o := by
  rw [Dev.entRecord, Dev.word_evt_ne _ _ _ he, Dev.word_wr_ne _ (ENT_STATUS.ALSO n) _ hs, Dev.word_wr_ne _ (ENT_STATUS.CAUSE n) _ hs]

@[simp] theorem Dev.E_entRecord (d : Dev) (n c : Nat) (also : List Nat) (m : Nat) : (d.entRecord n c also).E m = d.E m := rfl

section
variable {n c : Nat} {also : List Nat}

/-- A state change of an entry channel whose count's window is stopped leaves its retry machine's register. -/
theorem Dev.word_entGo_of_clear (h : (d.RT n).clear = none) (st : Nat) (g : Gate) {o : Nat} (ho : o ≠ (ENT_STATUS.STATE n).off) :
    (d.entGo n st g).word o = d.word o := by
  have hc : (d.entMark n).countClear n = d.entMark n :=
    Dev.countClear_of_clearOpen fun k hk => by simp [h] at hk
  unfold Dev.entGo
  dsimp only
  rw [hc]
  split <;> simp [Dev.word_wr_ne _ _ _ ho]

/-- A channel whose retry machine decides by its policy alone trips. -/
theorem Dev.entTripped_entTripOne (hn : n < 16) (herr : d.mem.err = []) (hc : d.clearOpen n)
    (hcut : (d.battery n && d.md == Md.holdup && c == 6) = false) (hlt : ∀ x ∈ c :: also, x < 8) :
    (d.entTripOne n (c :: also)).2 = d.latchesOn n c ∧
      d.EntTripped n c also (d.latchesOn n c) (d.entTripOne n (c :: also)).1 := by
  have hdec := Dev.tripDecided_rtTrip (d := d.entMark n) (u := n) (by simpa using herr) (by simpa [Dev.clearOpen, Dev.now] using hc) c false
  have hpol : ((d.entMark n).latchesOn n c || false) = d.latchesOn n c := by simp [Dev.latchesOn, Dev.unitPol, Dev.rdBit, hn]
  rw [hpol] at hdec
  unfold Dev.entTripOne
  simp only [List.headD_cons, List.drop_one, List.tail_cons, hcut]
  generalize (d.entMark n).rtTrip n c false = r at hdec
  generalize d.latchesOn n c = b at hdec
  obtain ⟨t, l⟩ := r
  obtain ⟨rfl, hacts, hrs, hclear⟩ := hdec
  obtain ⟨hc8, halso⟩ := List.forall_mem_cons.1 hlt
  refine ⟨rfl, Dev.EntTripped.onE (t := (t.entGo n (if l = true then Ec.latched else Ec.tripped) .offFast).entRecord n c also) ?_ _
    fun _ => rfl⟩
  have hword : ∀ o, o ≠ (ENT_STATUS.STATE n).off → o ≠ (ENT_EVT.EVT n).off →
      ((t.entGo n (if l = true then Ec.latched else Ec.tripped) .offFast).entRecord n c also).word o = t.word o :=
    fun o hs he => (Dev.word_entRecord_ne _ n c also hs he).trans (Dev.word_entGo_of_clear hclear _ _ hs)
  exact {
    state := by
      rw [Dev.es_entRecord, Dev.es_entGo]
      cases l <;> rfl
    cause := Dev.rd_cause_entRecord _ n also hc8
    also := Dev.rd_also_entRecord _ n c halso
    evt := Dev.rdBit_evt_entRecord _ n also hc8
    rstate := by
      rw [← hrs]
      refine Dev.rd_congr (hword _ ?_ ?_)
      all_goals simp only [ENT_STATUS.STATE, ENT_EVT.EVT, RETRY_STAT.RSTATE]; omega
    gate := by rw [Dev.E_entRecord, Dev.gate_entGo]
    others := fun m hm => by rw [Dev.E_entRecord, Dev.E_entGo_ne _ hm, Dev.E, hacts.ent, ← Dev.E, d.E_entMark_ne hm]
    word := fun o hs he hr hm => (hword o hs he).trans ((hacts.word o hr hm).trans (d.word_entMark n o)) }

/-! ## The NOTEs of disabled causes (03_branch_fuses.md R69) -/

/-- `t` differs from `d` in the windows of entry channel `n` and in fault messages alone. -/
def Dev.Noted (d : Dev) (n : Nat) (t : Dev) : Prop :=
  ∃ en fl, t = { d with ent := en, flt := fl } ∧ (∀ m, m ≠ n → t.E m = d.E m) ∧ (t.E n).tripAt = (d.E n).tripAt

theorem Dev.noted_entNote (d : Dev) (n c : Nat) : d.Noted n (d.entNote n c) := by
  refine ⟨_, _, Dev.send_eq _ _, fun m hm => ?_, ?_⟩
  · rw [Dev.entNote, Dev.E_raiseL, Dev.E_onE_ne _ hm]
  · rw [Dev.entNote, Dev.E_raiseL, Dev.E_onE_same]
    split <;> rfl

theorem Dev.Noted.trans (h : d.Noted n e) (k : e.Noted n t) : d.Noted n t := by
  obtain ⟨_, _, rfl, hE, hT⟩ := h
  obtain ⟨en, fl, rfl, kE, kT⟩ := k
  exact ⟨en, fl, rfl, fun m hm => (kE m hm).trans (hE m hm), kT.trans hT⟩

theorem Dev.noted_forL (l : List Nat) : ∀ d : Dev, d.Noted n (d.forL l fun d c => d.entNote n c) := by
  induction l with
  | nil => exact fun d => ⟨d.ent, d.flt, rfl, fun _ _ => rfl, rfl⟩
  | cons c l ih => exact fun d => (d.noted_entNote n c).trans (ih _)

/-- NOTEs on the way leave what a trip makes of the channel. -/
theorem Dev.Noted.entTripped (h : d.Noted n e) {l : Bool} (k : e.EntTripped n c also l t) : d.EntTripped n c also l t := by
  obtain ⟨_, _, rfl, hE, -⟩ := h
  exact { k with others := fun m hm => (k.others m hm).trans (hE m hm) }

/-! ## The trip of a channel by itself -/

theorem Dev.groupContinues_of_alone (h : d.groupOf n = none) : d.groupContinues n = false := by simp [Dev.groupContinues, h]

theorem Dev.entTripMates_of_alone (h : d.groupOf n = none) (c : Nat) : d.entTripMates n c = d := by
  simp [Dev.entTripMates, Dev.mates, h, Dev.forL]

/-- Channel `n` belongs to no group, has not tripped on this tick, its count's window is open, and no memory is damaged. -/
structure Dev.TripsAlone (d : Dev) (n : Nat) : Prop where
  group : d.groupOf n = none
  undamaged : d.mem.err = []
  first : (d.E n).tripAt ≠ some d.now
  clear : d.clearOpen n

/-- A channel by itself, of whose enabled causes `c` is the first due, trips by it, with the other enabled causes beside it. -/
theorem Dev.TripsAlone.entTrip (h : d.TripsAlone n) (hn : n < 16) (access : Nat) (hen : d.tripEn n c = true)
    (hcut : (d.battery n && d.md == Md.holdup && c == 6) = false) (hlt : ∀ x ∈ c :: also, x < 8) :
    d.EntTripped n c (also.filter fun x => d.tripEn n x) (d.latchesOn n c) (d.entTrip n access (c :: also)) ∧
      (d.entTrip n access (c :: also)).Reports c n := by
  obtain ⟨hgroup, hmem, hfirst, hclear⟩ := h
  obtain ⟨hc8, halso⟩ := List.forall_mem_cons.1 hlt
  unfold Dev.entTrip
  have hnoted := Dev.noted_forL (n := n) ((c :: also).filter fun x => ! d.tripEn n x) d
  generalize d.forL _ _ = e at hnoted
  have hnoted' := hnoted
  obtain ⟨en, fl, he, -, htrip⟩ := hnoted
  have hen' : ∀ x, e.tripEn n x = d.tripEn n x := fun x => by rw [he]; rfl
  have hnow : e.now = d.now := by rw [he]; rfl
  have hlatch : e.latchesOn n c = d.latchesOn n c := by rw [he]; rfl
  have hdue : ((c :: also).filter fun x => e.tripEn n x) = c :: also.filter fun x => d.tripEn n x := by
    simp only [hen', List.filter_cons_of_pos hen]
  have hone := Dev.entTripped_entTripOne (d := e) (c := c) (also := also.filter fun x => d.tripEn n x) hn
    (by rw [he]; exact hmem) (by rw [he]; exact hclear) (by rw [he]; exact hcut)
    (List.forall_mem_cons.2 ⟨hc8, fun x hx => halso x (List.mem_filter.1 hx).1⟩)
  rw [hlatch] at hone
  dsimp only
  rw [hdue, if_neg (by simp [Dev.entTripped, htrip, hnow, hfirst])]
  dsimp only
  generalize e.entTripOne n _ = r at hone
  obtain ⟨t, l⟩ := r
  have ht := (hnoted'.entTripped hone.2).onE (fun x => { x with own := c :: also.filter fun x => d.tripEn n x }) fun _ => rfl
  generalize t.onE n _ = t at ht
  have hmsg := ht.entTripMsg access (if l = true then 3 else 0)
  have hgroup' := (hmsg.groupOf hn).trans hgroup
  rw [if_neg (by simp [Dev.groupContinues_of_alone ((ht.groupOf hn).trans hgroup)]), Dev.entTripMates_of_alone hgroup']
  exact ⟨hmsg, Dev.reports_tripMsg _ _ _ _ _ _ _ _ _⟩

/-! ## The causes that are due (R46, R47) -/

/-- The due causes stand in precedence order, each once. -/
theorem Dev.entDue_sublist (d : Dev) (n : Nat) : (d.entDue n).Sublist [2, 3, 4, 5, 6] := by
  have one : ∀ (p : Prop) [Decidable p] (c : Nat), (if p then [c] else []).Sublist [c] := fun p _ c => by split <;> simp
  exact ((((one _ 2).append (one _ 3)).append (one _ 4)).append (one _ 5)).append (one _ 6)

theorem Dev.lt_of_mem_entDue {x : Nat} (h : x ∈ d.entDue n) : x < 8 := by
  have := (d.entDue_sublist n).subset h
  simp only [List.mem_cons, List.not_mem_nil, or_false] at this
  omega

/-- The causes beside the first one due are those of the list that are not it. -/
theorem Dev.filter_entDue (h : d.entDue n = c :: also) :
    ((d.entDue n).filter fun x => decide (x ≠ c) && d.tripEn n x) = also.filter fun x => d.tripEn n x := by
  have hsorted : (c :: also).Pairwise (· < ·) := h ▸ (by decide : [2, 3, 4, 5, 6].Pairwise (· < ·)).sublist (d.entDue_sublist n)
  rw [h, List.filter_cons_of_neg (by simp)]
  refine List.filter_congr fun x hx => ?_
  have : x ≠ c := Nat.ne_of_gt (List.rel_of_pairwise_cons hsorted hx)
  simp [this]

/-- What the statement asks of a trip, from what the trip makes of the channel. -/
theorem Dev.EntTripped.fields {l : Bool} (h : d.EntTripped n c also l t) (hr : t.Reports c n) :
    (t.es n = if l = true then Ec.latched else Ec.tripped) ∧ t.rd (ENT_STATUS.CAUSE n) = c ∧
    (t.rd (ENT_STATUS.ALSO n) = also.foldl setBit 0) ∧ t.rdBit (ENT_EVT.EVT n) c = true ∧ t.Reports c n ∧
    (t.rd (RETRY_STAT.RSTATE n) = if l = true then Rt.latched else Rt.delay) ∧ (t.E n).gate = .offFast ∧
    (∀ m, m ≠ n → t.E m = d.E m) :=
  ⟨h.state, h.cause, h.also, h.evt, hr, h.rstate, h.gate, h.others⟩

/-- A channel by itself trips by the first cause due, where that is enabled. -/
theorem Dev.TripsAlone.entTrip_entDue (h : d.TripsAlone n) (hn : n < 16) (hdue : ∃ also, d.entDue n = c :: also)
    (hen : d.tripEn n c = true) (hcut : (d.battery n && d.md == Md.holdup && c == 6) = false) :
    d.EntTripped n c ((d.entDue n).filter fun x => decide (x ≠ c) && d.tripEn n x) (d.latchesOn n c) (d.entTrip n 6 (d.entDue n)) ∧
      (d.entTrip n 6 (d.entDue n)).Reports c n := by
  obtain ⟨also, hdue⟩ := hdue
  rw [Dev.filter_entDue hdue, hdue]
  exact h.entTrip hn 6 hen hcut fun x hx => Dev.lt_of_mem_entDue (hdue ▸ hx)

/-- Before its trip, a channel's causes are evaluated in its own state. -/
theorem Dev.TripsAlone.entSt_eq (h : d.TripsAlone n) : d.entSt n = d.es n := by simp [Dev.entSt, Dev.entTripped, h.first]

/-- The trip of a cause that is due. -/
theorem Dev.entTripIf_of_mem (h : c ∈ d.entDue n) : d.entTripIf n c = d.entTrip n 6 (d.entDue n) :=
  if_pos (List.contains_iff_mem.2 h)

end

/-! ## The commands -/

section
variable {n : Fin 16} (rest : List Instr)

theorem exec_entScTrip (h : d.entDrives n = true) :
    exec (.entScTrip n) ⟨d, rest⟩ = .next ⟨d.entTrip n 0 (1 :: (d.entDue n).filter (· ≠ 1)), rest⟩ :=
  congrArg (fun t => Host.Outcome.next (⟨t, rest⟩ : State)) (if_pos (.inl h))

theorem exec_entOcTrip (h : 3 ∈ d.entDue n) : exec (.entOcTrip n) ⟨d, rest⟩ = .next ⟨d.entTrip n 6 (d.entDue n), rest⟩ := by
  rw [← Dev.entTripIf_of_mem h]; rfl

theorem exec_entInrushTime (h : 4 ∈ d.entDue n) : exec (.entInrushTime n) ⟨d, rest⟩ = .next ⟨d.entTrip n 6 (d.entDue n), rest⟩ := by
  rw [← Dev.entTripIf_of_mem h]; rfl

theorem exec_entOvTrip (h : 5 ∈ d.entDue n) : exec (.entOvTrip n) ⟨d, rest⟩ = .next ⟨d.entTrip n 6 (d.entDue n), rest⟩ := by
  rw [← Dev.entTripIf_of_mem h]; rfl

theorem exec_entCutoff (h : 6 ∈ d.entDue n) : exec (.entCutoff n) ⟨d, rest⟩ = .next ⟨d.entTrip n 6 (d.entDue n), rest⟩ := by
  rw [← Dev.entTripIf_of_mem h]; rfl

end

/-- Settles O15: a channel by itself trips by the first of its enabled causes that are due; each command's condition puts its own cause
first. -/
theorem entryTrips : Obligations.EntryTrips := by
  unfold Obligations.EntryTrips
  refine ⟨fun _ rest _ => exec_entScTrip rest, fun _ rest _ => exec_entOcTrip rest, fun _ rest _ => exec_entInrushTime rest,
    fun _ rest _ => exec_entOvTrip rest, fun _ rest _ => exec_entCutoff rest, ?sc, ?oc, ?inrush, ?ov, ?cutoff⟩
  case sc =>
    intro d rest n hst hkeep hgroup hmem hfirst hclear
    have alone : d.TripsAlone n := ⟨hgroup, hmem, hfirst, hclear⟩
    have hdrives : d.entDrives n = true := by simpa [Dev.entDrives, hkeep] using hst
    have hlt : ∀ x ∈ 1 :: (d.entDue n).filter (· ≠ 1), x < 8 :=
      List.forall_mem_cons.2 ⟨by decide, fun x hx => Dev.lt_of_mem_entDue (List.mem_filter.1 hx).1⟩
    obtain ⟨ht, hr⟩ := alone.entTrip n.isLt 0 rfl (by simp) hlt
    rw [List.filter_filter, List.filter_congr fun x _ => Bool.and_comm _ _] at ht
    exact ⟨_, exec_entScTrip rest hdrives, ht.fields hr⟩
  case oc =>
    intro d rest n hst hkeep hgroup hmem hfirst hclear hsoa hoc hen
    have alone : d.TripsAlone n := ⟨hgroup, hmem, hfirst, hclear⟩
    have hdue : ∃ also, d.entDue n = 3 :: also := by
      simp [Dev.entDue, alone.entSt_eq, hst, hkeep, hsoa, hoc]
    obtain ⟨ht, hr⟩ := alone.entTrip_entDue n.isLt hdue (by simp [Dev.tripEn, hen]) (by simp)
    exact ⟨_, exec_entOcTrip rest (by obtain ⟨_, h⟩ := hdue; simp [h]), ht.fields hr⟩
  case inrush =>
    intro d rest n hst hkeep hgroup hmem hfirst hclear hsoa hoc hin hen
    have alone : d.TripsAlone n := ⟨hgroup, hmem, hfirst, hclear⟩
    have hdue : ∃ also, d.entDue n = 4 :: also := by
      simp [Dev.entDue, alone.entSt_eq, hst, hkeep, hsoa, hoc, hin]
    obtain ⟨ht, hr⟩ := alone.entTrip_entDue n.isLt hdue (by simp [Dev.tripEn, hen]) (by simp)
    exact ⟨_, exec_entInrushTime rest (by obtain ⟨_, h⟩ := hdue; simp [h]), ht.fields hr⟩
  case ov =>
    intro d rest n hst hkeep hgroup hmem hfirst hclear hsoa hoc hov hen
    have alone : d.TripsAlone n := ⟨hgroup, hmem, hfirst, hclear⟩
    have hdue : ∃ also, d.entDue n = 5 :: also := by
      simp [Dev.entDue, alone.entSt_eq, hst, hkeep, hsoa, hoc, hov, Ec.on, Ec.inrush]
    obtain ⟨ht, hr⟩ := alone.entTrip_entDue n.isLt hdue (by simp [Dev.tripEn, hen]) (by simp)
    exact ⟨_, exec_entOvTrip rest (by obtain ⟨_, h⟩ := hdue; simp [h]), ht.fields hr⟩
  case cutoff =>
    intro d rest n hst hkeep hgroup hmem hfirst hclear hbat hmd hsoa hoc hov hcut
    have alone : d.TripsAlone n := ⟨hgroup, hmem, hfirst, hclear⟩
    have hdue : ∃ also, d.entDue n = 6 :: also := by
      rcases hst with hst | hst <;>
        simp [Dev.entDue, alone.entSt_eq, hst, hkeep, hsoa, hoc, Nat.not_le.2 hov, hbat, hcut, Ec.on, Ec.inrush, Ec.armed]
    obtain ⟨ht, hr⟩ := alone.entTrip_entDue n.isLt hdue (by simp [Dev.tripEn]) (by simp [hmd])
    exact ⟨_, exec_entCutoff rest (by obtain ⟨_, h⟩ := hdue; simp [h]), ht.fields hr⟩

end Sys2Proof.Machine
end

section
/-! PROOFS. Progress of entry channels (02_power_entry.md R35, R39, R50, R52): what each command comes to where its condition is met. -/

namespace Sys2Proof.Machine

variable {d : Dev} {n : Nat}

/-- With no trip due, none is taken first. -/
theorem Dev.entFirst_of_entDue_nil (h : d.entDue n = []) : d.entFirst n = d := if_pos h

/-- A state change of one channel leaves the groups. -/
theorem Dev.groupOf_entGo (hn : n < 16) (st : Nat) (g : Gate) : (d.entGo n st g).groupOf n = d.groupOf n :=
  Dev.groupOf_congr hn fun _ hs _ hr hm => d.word_entGo_ne n st g hs hr hm

/-- A channel in no group whose VIN has qualified enters INRUSH by itself. -/
theorem devEntQualify_of_alone (hst : d.es n = Ec.check) (hq : closed d.now (d.E n).qual d.qualLen = true) (hkeep : d.keep.on = false)
    (hmay : d.entMay = true) (hgroup : d.groupOf n = none) :
    devEntQualify n d = (d.onE n fun x => { x with ready := true }).entGo n Ec.inrush (.drive true 0) := by
  have hready : (d.onE n fun x => { x with ready := true }).es n = Ec.check := hst
  have hmates : (d.onE n fun x => { x with ready := true }).mates n = [n] := by
    rw [Dev.mates, show (d.onE n fun x => { x with ready := true }).groupOf n = none from hgroup]
  rw [devEntQualify, if_neg (by simp [hst, hq, hkeep, hmay])]
  dsimp only
  rw [hmates]
  simp [hready, Dev.forL]

/-- A channel in no group, with no trip due, ends its inrush by itself. -/
theorem devEntInrushDone_of_alone (hn : n < 16) (hst : d.es n = Ec.inrush)
    (hdone : closed d.now (d.E n).doneW (d.rd (ENT_DONE.DONE_TIME n)) = true) (hkeep : d.keep.on = false) (hmay : d.entMay = true)
    (hdue : d.entDue n = []) (hgroup : d.groupOf n = none) : devEntInrushDone n d = d.entGo n Ec.on .enhancing := by
  rw [devEntInrushDone, Dev.entFirst_of_entDue_nil hdue, if_neg (by simp [hst, hdone, hkeep, hmay])]
  dsimp only
  rw [Dev.groupOf_entGo hn, hgroup]

/-- Reverse current that has held for REV_FILT blocks a channel with no trip due. -/
theorem devEntBlock_of_on (hst : d.es n = Ec.on) (hrev : closed d.now (d.E n).rev (d.rd (ENT_REV.REV_FILT n)) = true)
    (hkeep : d.keep.on = false) (hdue : d.entDue n = []) :
    devEntBlock n d = (d.entGo n Ec.blocking .offFast).raise 0x08 n (0x80 + n) 6 := by
  rw [devEntBlock, Dev.entBlocks, Dev.entFirst_of_entDue_nil hdue]
  exact if_neg (by simp [hst, hrev, hkeep])

/-- Settles O16: each command's condition takes the branch of its meaning in which the channel changes its state. -/
theorem entryProgress : Obligations.EntryProgress := by
  unfold Obligations.EntryProgress
  refine ⟨?qualify, ?done, ?enhanced, ?block, ?blockReturn, ?arm, ?share⟩
  case qualify =>
    intro d rest n hst hq hkeep hmay hgroup
    refine ⟨devEntQualify n d, rfl, ?_⟩
    rw [devEntQualify_of_alone hst hq hkeep hmay hgroup]
    exact ⟨Dev.es_entGo _ _ _ _, Dev.gate_entGo _ _ _ _, Dev.inrush_entGo _ _ _ _ (by decide)⟩
  case done =>
    intro d rest n hst hdone hkeep hmay hdue hgroup
    refine ⟨devEntInrushDone n d, rfl, ?_⟩
    rw [devEntInrushDone_of_alone n.isLt hst hdone hkeep hmay hdue hgroup]
    exact ⟨Dev.es_entGo _ _ _ _, Dev.gate_entGo _ _ _ _⟩
  case enhanced =>
    intro d rest n hgate
    refine ⟨devEntGateEnhanced n d, rfl, ?_, rfl, fun m hm => d.E_onE_ne hm _⟩
    rw [devEntGateEnhanced, Dev.E_onE_same, if_pos hgate]
  case block =>
    intro d rest n hst hrev hkeep hdue
    refine ⟨devEntBlock n d, rfl, ?_⟩
    rw [devEntBlock_of_on hst hrev hkeep hdue]
    refine ⟨?_, ?_, Dev.reports_raise _ _ _ _ _⟩
    · rw [Dev.es, Dev.rd_raise]
      exact Dev.es_entGo _ _ _ _
    · rw [Dev.E_raise, Dev.gate_entGo]
  case blockReturn =>
    intro d rest n hst hblk
    refine ⟨devEntBlockReturn n d, rfl, ?_⟩
    rw [devEntBlockReturn, if_pos ⟨hst, hblk⟩, Dev.entCheck]
    refine ⟨?_, Dev.gate_entGo _ _ _ _⟩
    rw [Dev.es_entGo]
    split <;> rfl
  case arm =>
    intro d rest n hst hbat hact hpres hvin hhold hkeep
    refine ⟨devEntArm n d, rfl, ?_⟩
    rw [devEntArm, if_pos ⟨hst, hbat, hact, hpres, hvin, Bool.eq_false_iff.1 hhold, Bool.eq_false_iff.1 hkeep⟩]
    exact ⟨Dev.es_entGo _ _ _ _, Dev.gate_entGo _ _ _ _⟩
  case share =>
    intro d rest n hst hshare hkeep
    refine ⟨devEntShare n d, rfl, ?_⟩
    rw [devEntShare, if_pos ⟨hst, hshare, Bool.eq_false_iff.1 hkeep⟩]
    refine ⟨?_, ?_, Dev.reports_raise _ _ _ _ _, Dev.raise_regs _ _ _ _ _⟩
    · rw [Dev.es, Dev.rd_raise]
      exact hst
    · rw [Dev.E_raise, Dev.E_onE_same]

end Sys2Proof.Machine
end

section
/-! PROOFS. A trip that is due precedes the other transitions of its tick (02_power_entry.md R35; 03_branch_fuses.md R66): two states in
which a command's own condition is met and a trip is taken before it. -/

namespace Sys2Proof.Machine

/-- A command whose meaning is `f` answers no other state than that of `f`. -/
theorem of_exec_eq_next {i : Instr} {f : Dev → Dev} (hf : ∀ d rest, exec i ⟨d, rest⟩ = .next ⟨f d, rest⟩) {d t : Dev} {rest : List Instr}
    (h : exec i ⟨d, rest⟩ = .next ⟨t, rest⟩) : f d = t := by
  rw [hf] at h
  cases h
  rfl

/-- In RUN, battery channel 0 is ARMED and has had VIN below V_CUTOFF since tick 0, longer than CUTOFF_T: a CUTOFF is due. -/
def cutoffDue : Dev :=
  let d : Dev := { clk := { hub := true, now := 1280000 }, ent := [(0, { cut := some 0 })] }
  ((d.wr MODE_STATUS.MODE Md.run).wr (ENT_STATUS.STATE 0) Ec.armed).wr (ENT_CFG.ROLE 0) 2

/-- The CUTOFF latches the channel, and the comparator finds it no longer ARMED. -/
theorem es_devHoldupEngage_cutoffDue : (devHoldupEngage 0 cutoffDue).es 0 = Ec.latched := by decide +kernel

/-- Refutes O35: its first clause takes any ARMED channel, one with a CUTOFF due on the tick too. There the trip comes first (R35, R46), so
HOLDUP_ENGAGE leaves the channel LATCHED and not ON. -/
theorem not_holdupCommands : ¬ Obligations.HoldupCommands := by
  unfold Obligations.HoldupCommands
  rintro ⟨hengage, -⟩
  obtain ⟨t, ht, hon, -⟩ := hengage cutoffDue [] 0 (by decide +kernel) (by decide +kernel) (by decide +kernel)
  have hlatched : t.es 0 = Ec.latched := by
    rw [← of_exec_eq_next (f := devHoldupEngage 0) (fun _ _ => rfl) ht]
    exact es_devHoldupEngage_cutoffDue
  exact absurd (hon.symm.trans hlatched) (by decide)

/-- In SAFE since tick 0, longer than SAFE_DELAY, branch 0 is ON and its current has been at or above OC_LIMIT since tick 0, longer than
OC_TIME; its policy record enables the cause and latches on it: an over-current trip is due. -/
def overCurrentDue : Dev :=
  let d : Dev := { clk := { hub := true, now := 1280000 }, mode := { safeAt := some 0 }, br := [(0, { oc := some 0 })] }
  (((d.wr MODE_STATUS.MODE Md.safe).wr (BR_STATUS.STATE 0) Ec.on).wr (POL0.TRIP_EN 0) (2 ^ 3)).wr (POL0.LATCH_NOW 0) (2 ^ 3)

/-- The trip latches the branch, and the off request passes a LATCHED branch over. -/
theorem bs_devSafeDelayExpire_overCurrentDue : (devSafeDelayExpire overCurrentDue).bs 0 = Ec.latched := by decide +kernel

/-- Refutes O36: its first clause takes every branch that is ON to OFF, one with a trip due on the tick too. There the trip comes first
(03_branch_fuses.md R66), and a branch that it latches stays LATCHED under the off request of SAFE_DELAY. -/
theorem not_safeAndKeep : ¬ Obligations.SafeAndKeep := by
  unfold Obligations.SafeAndKeep
  rintro ⟨hexpire, -⟩
  obtain ⟨t, ht, -, hoff⟩ := hexpire overCurrentDue [] 0 rfl (by decide +kernel) rfl (by decide +kernel)
  have hlatched : t.bs 0 = Ec.latched := by
    rw [← of_exec_eq_next (f := devSafeDelayExpire) (fun _ _ => rfl) ht]
    exact bs_devSafeDelayExpire_overCurrentDue
  exact absurd ((hoff 0 (by decide) (by decide +kernel)).symm.trans hlatched) (by decide)

end Sys2Proof.Machine
end

section
/-! PROOFS. State changes of branch channels (03_branch_fuses.md R66, R76, R80): what `brGo` makes of the branch, and what it leaves. -/

namespace Sys2Proof.Machine

variable {d : Dev} {n st : Nat}

/-- Marking a branch's first change of the tick touches the branches alone. -/
theorem Dev.brMark_eq (d : Dev) (n : Nat) : ∃ b, d.brMark n = { d with br := b } := by
  unfold Dev.brMark
  dsimp only
  split
  · exact ⟨d.br, rfl⟩
  · exact ⟨_, rfl⟩

@[simp] theorem Dev.RT_brMark (d : Dev) (n u : Nat) : (d.brMark n).RT u = d.RT u := by
  obtain ⟨_, h⟩ := d.brMark_eq n
  rw [h]; rfl

@[simp] theorem Dev.word_brMark (d : Dev) (n o : Nat) : (d.brMark n).word o = d.word o := by
  obtain ⟨_, h⟩ := d.brMark_eq n
  rw [h]; rfl

theorem Dev.B_brMark_ne {m : Nat} (d : Dev) (h : m ≠ n) : (d.brMark n).B m = d.B m := by
  unfold Dev.brMark
  dsimp only
  split
  · rfl
  · exact d.B_onB_ne h _

/-- A branch that enters a state shows it. -/
theorem Dev.bs_brGo (hst : st ≠ Ec.on) (d : Dev) (g : Gate) : (d.brGo n st g).bs n = st % 2 ^ (BR_STATUS.STATE n).len := by
  unfold Dev.brGo Dev.bs
  dsimp only
  rw [if_neg hst, Dev.rd_onRT, Dev.rd_wr_same _ (BR_STATUS.STATE n) st (Nat.le_of_ble_eq_true rfl)]

/-- It drives its gate as the change says. -/
theorem Dev.gate_brGo (hst : st ≠ Ec.on) (d : Dev) (g : Gate) : ((d.brGo n st g).B n).gate = g := by
  unfold Dev.brGo
  dsimp only
  rw [if_neg hst]
  simp only [Dev.B_onRT, Dev.B_wr, Dev.B_onB_same]
  split <;> rfl

/-- The other branches stay as they are. -/
theorem Dev.B_brGo_ne {m : Nat} (hst : st ≠ Ec.on) (d : Dev) (h : m ≠ n) (g : Gate) : (d.brGo n st g).B m = d.B m := by
  unfold Dev.brGo
  dsimp only
  rw [if_neg hst]
  simp [Dev.B_onB_ne _ h, d.B_brMark_ne h]

/-- Its status is the one word that the change itself writes; the others are those that the end of the count's window leaves. -/
theorem Dev.word_brGo_countClear (hst : st ≠ Ec.on) (d : Dev) (g : Gate) {o : Nat} (ho : o ≠ (BR_STATUS.STATE n).off) :
    (d.brGo n st g).word o = ((d.brMark n).countClear (16 + n)).word o := by
  unfold Dev.brGo
  dsimp only
  rw [if_neg hst]
  simp [Dev.word_wr_ne _ _ _ ho]

theorem Dev.RT_brGo_countClear (hst : st ≠ Ec.on) (d : Dev) (g : Gate) :
    (d.brGo n st g).RT (16 + n) = { ((d.brMark n).countClear (16 + n)).RT (16 + n) with clear := none } := by
  unfold Dev.brGo
  dsimp only
  rw [if_neg hst]
  simp

end Sys2Proof.Machine
end

section
/-! PROOFS. Trips of branch channels (03_branch_fuses.md R67, R69, R73): what a trip makes of a branch, and which causes are due. -/

namespace Sys2Proof.Machine

variable {d e t : Dev} {n c : Nat} {also : List Nat} {l : Bool}

/-! ## A branch's trip -/

/-- What a trip of branch `n` by cause `c`, with the causes `also` beside it, makes of the branch, its registers and its retry machine
(R67, R73). -/
structure Dev.BrTripMade (d : Dev) (n c : Nat) (also : List Nat) (latches : Bool) (t : Dev) : Prop where
  state : t.bs n = if latches = true then Ec.latched else Ec.tripped
  cause : t.rd (BR_STATUS.CAUSE n) = c
  also : t.rd (BR_STATUS.ALSO n) = also.foldl setBit 0
  evt : t.rdBit (BR_EVT.EVT n) c = true
  rstate : t.rd (RETRY_STAT.RSTATE (16 + n)) = if latches = true then Rt.latched else Rt.delay
  gate : (t.B n).gate = .offFast
  others : ∀ m, m ≠ n → t.B m = d.B m

/-- A message about the trip leaves what the trip has made of the branch. -/
theorem Dev.BrTripMade.send (h : d.BrTripMade n c also l t) (m : FMsg) : d.BrTripMade n c also l (t.send m) := by
  rw [t.send_eq m]
  exact ⟨h.state, h.cause, h.also, h.evt, h.rstate, h.gate, h.others⟩

/-- What a trip writes in the registers of branch `n`: CAUSE, ALSO and the bit of EVT. -/
def Dev.brRecord (d : Dev) (n c : Nat) (also : List Nat) : Dev :=
  ((d.wr (BR_STATUS.CAUSE n) c).wr (BR_STATUS.ALSO n) (also.foldl setBit 0)).evt (BR_EVT.EVT n) c

/-- BR_EVT and BR_STATUS are two words, so the event bit leaves each field of BR_STATUS. -/
theorem Dev.rd_evt_brStatus (d : Dev) (n c : Nat) (g : Fld) (hg : g.off = (BR_STATUS.STATE n).off) :
    (d.evt (BR_EVT.EVT n) c).rd g = d.rd g :=
  Dev.rd_congr (d.word_evt_ne _ _ (by simp only [hg, BR_STATUS.STATE, BR_EVT.EVT]; omega))

theorem Dev.bs_brRecord (d : Dev) (n c : Nat) (also : List Nat) : (d.brRecord n c also).bs n = d.bs n := by
  rw [Dev.bs, Dev.brRecord, Dev.rd_evt_brStatus _ n c (BR_STATUS.STATE n) rfl, Dev.rd_wr_apart, Dev.rd_wr_apart, Dev.bs]
  all_goals simp [Fld.apart, BR_STATUS.CAUSE, BR_STATUS.ALSO, BR_STATUS.STATE]

theorem Dev.rd_cause_brRecord (d : Dev) (n : Nat) (also : List Nat) (hc : c < 8) :
    (d.brRecord n c also).rd (BR_STATUS.CAUSE n) = c := by
  rw [Dev.brRecord, Dev.rd_evt_brStatus _ n c (BR_STATUS.CAUSE n) rfl, Dev.rd_wr_apart, Dev.rd_wr_same]
  · exact Nat.mod_eq_of_lt (Nat.lt_trans hc (by simp [BR_STATUS.CAUSE]))
  all_goals simp [Fld.apart, BR_STATUS.CAUSE, BR_STATUS.ALSO]

theorem Dev.rd_also_brRecord (d : Dev) (n c : Nat) (h : ∀ x ∈ also, x < 8) :
    (d.brRecord n c also).rd (BR_STATUS.ALSO n) = also.foldl setBit 0 := by
  rw [Dev.brRecord, Dev.rd_evt_brStatus _ n c (BR_STATUS.ALSO n) rfl, Dev.rd_wr_same]
  · exact Nat.mod_eq_of_lt (foldl_setBit_lt h (by simp))
  · simp [BR_STATUS.ALSO]

theorem Dev.rdBit_evt_brRecord (d : Dev) (n : Nat) (also : List Nat) (hc : c < 8) :
    (d.brRecord n c also).rdBit (BR_EVT.EVT n) c = true :=
  Dev.testBit_evt _ _ c hc (by simp [BR_EVT.EVT])

theorem Dev.word_brRecord_ne (d : Dev) (n c : Nat) (also : List Nat) {o : Nat} (hs : o ≠ (BR_STATUS.STATE n).off)
    (he : o ≠ (BR_EVT.EVT n).off) : (d.brRecord n c also).word o = d.word o := by
  rw [Dev.brRecord, Dev.word_evt_ne _ _ _ he, Dev.word_wr_ne _ (BR_STATUS.ALSO n) _ hs, Dev.word_wr_ne _ (BR_STATUS.CAUSE n) _ hs]

@[simp] theorem Dev.B_brRecord (d : Dev) (n c : Nat) (also : List Nat) (m : Nat) : (d.brRecord n c also).B m = d.B m := rfl

/-- A state change after a decision that has stopped the count's window writes the status alone. -/
theorem Dev.word_brGo_of_clear {st : Nat} (hst : st ≠ Ec.on) (h : (d.RT (16 + n)).clear = none) (g : Gate) {o : Nat}
    (ho : o ≠ (BR_STATUS.STATE n).off) : (d.brGo n st g).word o = d.word o := by
  have hc : (d.brMark n).countClear (16 + n) = d.brMark n := Dev.countClear_of_clearOpen fun k hk => by simp [h] at hk
  rw [Dev.word_brGo_countClear hst _ _ ho, hc, Dev.word_brMark]

/-- The branch trips by the decision of its retry machine (R73), on tick `now`. -/
def Dev.brTripTo (d : Dev) (n c now : Nat) (also : List Nat) (latches : Bool) : Dev :=
  ((d.brGo n (if latches then Ec.latched else Ec.tripped) .offFast).onB n fun x => { x with tripAt := some now }).brRecord n c also

theorem Dev.brTripMade_brTripTo {r : Dev × Bool} (h : (d.brMark n).TripDecided (16 + n) l r) (now : Nat)
    (hc8 : c < 8) (halso : ∀ x ∈ also, x < 8) : d.BrTripMade n c also l (r.1.brTripTo n c now also r.2) := by
  obtain ⟨hl, hacts, hrs, hclear⟩ := h
  rw [hl]
  have hst : (if l = true then Ec.latched else Ec.tripped) ≠ Ec.on := by cases l <;> decide
  unfold Dev.brTripTo
  exact {
    state := by
      rw [Dev.bs_brRecord]
      refine (Dev.bs_brGo hst r.1 _).trans ?_
      cases l <;> rfl
    cause := Dev.rd_cause_brRecord _ n also hc8
    also := Dev.rd_also_brRecord _ n c halso
    evt := Dev.rdBit_evt_brRecord _ n also hc8
    rstate := by
      rw [← hrs]
      refine Dev.rd_congr ((Dev.word_brRecord_ne _ n c also ?_ ?_).trans (Dev.word_brGo_of_clear hst hclear _ ?_))
      all_goals simp only [BR_STATUS.STATE, BR_EVT.EVT, RETRY_STAT.RSTATE]; omega
    gate := by
      rw [Dev.B_brRecord, Dev.B_onB_same]
      exact Dev.gate_brGo hst r.1 _
    others := fun m hm => by
      rw [Dev.B_brRecord, Dev.B_onB_ne _ hm, Dev.B_brGo_ne hst _ hm, Dev.B, hacts.br, ← Dev.B, Dev.B_brMark_ne _ hm] }

/-! ## The NOTEs of disabled causes (R69) -/

/-- `t` differs from `d` in the windows of branch `n` and in fault messages alone. -/
def Dev.BrNoted (d : Dev) (n : Nat) (t : Dev) : Prop :=
  ∃ b fl, t = { d with br := b, flt := fl } ∧ (∀ m, m ≠ n → t.B m = d.B m) ∧ (t.B n).tripAt = (d.B n).tripAt

theorem Dev.brNoted_brNote (d : Dev) (n c : Nat) : d.BrNoted n (d.brNote n c) := by
  refine ⟨_, _, Dev.send_eq _ _, fun m hm => ?_, ?_⟩
  · rw [Dev.brNote, Dev.B_raiseL, Dev.B_onB_ne _ hm]
  · rw [Dev.brNote, Dev.B_raiseL, Dev.B_onB_same]
    split <;> rfl

theorem Dev.BrNoted.trans (h : d.BrNoted n e) (k : e.BrNoted n t) : d.BrNoted n t := by
  obtain ⟨_, _, rfl, hB, hT⟩ := h
  obtain ⟨b, fl, rfl, kB, kT⟩ := k
  exact ⟨b, fl, rfl, fun m hm => (kB m hm).trans (hB m hm), kT.trans hT⟩

theorem Dev.brNoted_forL (l : List Nat) : ∀ d : Dev, d.BrNoted n (d.forL l fun d c => d.brNote n c) := by
  induction l with
  | nil => exact fun d => ⟨d.br, d.flt, rfl, fun _ _ => rfl, rfl⟩
  | cons c l ih => exact fun d => (d.brNoted_brNote n c).trans (ih _)

/-! ## The trip -/

/-- Branch `n` has not tripped on this tick, its count's window is open, and no memory is damaged. -/
structure Dev.BrTripsFirst (d : Dev) (n : Nat) : Prop where
  undamaged : d.mem.err = []
  first : (d.B n).tripAt ≠ some d.now
  clear : d.clearOpen (16 + n)

/-- The retry machine decides on the state in which the trip's branch is marked, whose policy and count are those before it. -/
theorem Dev.BrTripsFirst.decided (h : d.BrTripsFirst n) (c : Nat) :
    (d.brMark n).TripDecided (16 + n) (d.latchesOn (16 + n) c) ((d.brMark n).rtTrip (16 + n) c false) := by
  obtain ⟨herr, -, hclear⟩ := h
  obtain ⟨b, hb⟩ := d.brMark_eq n
  have hlatch : ((d.brMark n).latchesOn (16 + n) c || false) = d.latchesOn (16 + n) c := by rw [hb, Bool.or_false]; rfl
  rw [← hlatch]
  exact Dev.tripDecided_rtTrip (by rw [hb]; exact herr) (by rw [hb]; exact hclear) c false

/-- A branch of whose enabled causes `c` is the first due trips by it, with the other enabled causes beside it. -/
theorem Dev.BrTripsFirst.brTrip (h : d.BrTripsFirst n) (access : Nat) (hen : d.tripEn (16 + n) c = true) (hlt : ∀ x ∈ c :: also, x < 8) :
    d.BrTripMade n c (also.filter fun x => d.tripEn (16 + n) x) (d.latchesOn (16 + n) c) (d.brTrip n access (c :: also)) ∧
      (d.brTrip n access (c :: also)).Reports (0x10 + c) n := by
  obtain ⟨hc8, halso⟩ := List.forall_mem_cons.1 hlt
  obtain ⟨b, fl, he, hothers, htrip⟩ := Dev.brNoted_forL (n := n) ((c :: also).filter fun x => ! d.tripEn (16 + n) x) d
  unfold Dev.brTrip
  dsimp only
  generalize d.forL _ _ = e at he hothers htrip
  have hen' : ∀ x, e.tripEn (16 + n) x = d.tripEn (16 + n) x := fun x => by rw [he]; rfl
  have hnow : e.now = d.now := by rw [he]; rfl
  have hlatch : e.latchesOn (16 + n) c = d.latchesOn (16 + n) c := by rw [he]; rfl
  have first : e.BrTripsFirst n := ⟨by rw [he]; exact h.undamaged, by rw [htrip, hnow]; exact h.first, by rw [he]; exact h.clear⟩
  have hdue : ((c :: also).filter fun x => e.tripEn (16 + n) x) = c :: also.filter fun x => d.tripEn (16 + n) x := by
    simp only [hen', List.filter_cons_of_pos hen]
  have made := Dev.brTripMade_brTripTo (also := also.filter fun x => d.tripEn (16 + n) x) (first.decided c) e.now hc8
    fun x hx => halso x (List.mem_filter.1 hx).1
  rw [hlatch] at made
  rw [hdue, if_neg (by simp [Dev.brTripped, first.first])]
  refine ⟨?_, Dev.reports_tripMsg _ _ _ _ _ _ _ _ _⟩
  exact { made.send _ with others := fun m hm => ((made.send _).others m hm).trans (hothers m hm) }

/-! ## The causes that are due (R67) -/

/-- The due causes stand in precedence order, each once. -/
theorem Dev.brDue_sublist (d : Dev) (n : Nat) : (d.brDue n).Sublist [2, 3, 4, 5, 6, 7] := by
  have one : ∀ (p : Prop) [Decidable p] (c : Nat), (if p then [c] else []).Sublist [c] := fun p _ c => by split <;> simp
  unfold Dev.brDue
  dsimp only
  split
  · exact List.nil_sublist _
  · exact (((((one _ 2).append (one _ 3)).append (one _ 4)).append (one _ 5)).append (one _ 6)).append (one _ 7)

theorem Dev.lt_of_mem_brDue {x : Nat} (h : x ∈ d.brDue n) : 1 < x ∧ x < 8 := by
  have := (d.brDue_sublist n).subset h
  simp only [List.mem_cons, List.not_mem_nil, or_false] at this
  omega

theorem Dev.mem_brDue_of_first (h : ∃ also, d.brDue n = c :: also) : c ∈ d.brDue n := by
  obtain ⟨_, h⟩ := h
  simp [h]

/-- The causes beside the first one due are those of the list that are not it. -/
theorem Dev.filter_brDue (h : d.brDue n = c :: also) :
    ((d.brDue n).filter fun x => decide (x ≠ c) && d.tripEn (16 + n) x) = also.filter fun x => d.tripEn (16 + n) x := by
  have hsorted : (c :: also).Pairwise (· < ·) := h ▸ (by decide : [2, 3, 4, 5, 6, 7].Pairwise (· < ·)).sublist (d.brDue_sublist n)
  rw [h, List.filter_cons_of_neg (by simp)]
  refine List.filter_congr fun x hx => ?_
  have : x ≠ c := Nat.ne_of_gt (List.rel_of_pairwise_cons hsorted hx)
  simp [this]

/-- The fast trip has a cause of its own, which no window has. -/
theorem Dev.filter_ne_one_brDue (d : Dev) (n : Nat) : (d.brDue n).filter (· ≠ 1) = d.brDue n :=
  List.filter_eq_self.2 fun x hx => by simpa using Nat.ne_of_gt (Dev.lt_of_mem_brDue hx).1

/-- What the statement asks of a trip, from what the trip makes of the branch. -/
theorem Dev.BrTripMade.fields (h : d.BrTripMade n c also l t) (hr : t.Reports (0x10 + c) n) :
    (t.bs n = if l = true then Ec.latched else Ec.tripped) ∧ t.rd (BR_STATUS.CAUSE n) = c ∧
    (t.rd (BR_STATUS.ALSO n) = also.foldl setBit 0) ∧ t.rdBit (BR_EVT.EVT n) c = true ∧ t.Reports (0x10 + c) n ∧
    (t.rd (RETRY_STAT.RSTATE (16 + n)) = if l = true then Rt.latched else Rt.delay) ∧ (t.B n).gate = .offFast ∧
    (∀ m, m ≠ n → t.B m = d.B m) :=
  ⟨h.state, h.cause, h.also, h.evt, hr, h.rstate, h.gate, h.others⟩

/-- Before its trip, a branch's causes are evaluated in its own state. -/
theorem Dev.BrTripsFirst.brSt_eq (h : d.BrTripsFirst n) : d.brSt n = d.bs n := by simp [Dev.brSt, Dev.brTripped, h.first]

/-- A branch trips by the first cause due, where the policy enables it. -/
theorem Dev.BrTripsFirst.brTrip_brDue (h : d.BrTripsFirst n) (hdue : ∃ also, d.brDue n = c :: also)
    (hen : d.rdBit (POL0.TRIP_EN (d.unitPol (16 + n))) c = true) :
    d.BrTripMade n c ((d.brDue n).filter fun x => decide (x ≠ c) && d.tripEn (16 + n) x) (d.latchesOn (16 + n) c)
        (d.brTrip n 6 (d.brDue n)) ∧
      (d.brTrip n 6 (d.brDue n)).Reports (0x10 + c) n := by
  obtain ⟨also, hdue⟩ := hdue
  rw [Dev.filter_brDue hdue, hdue]
  exact h.brTrip 6 (by simp [Dev.tripEn, hen]) fun x hx => (Dev.lt_of_mem_brDue (hdue ▸ hx)).2

/-- The trip of a cause that is due. -/
theorem Dev.brTripIf_of_mem (h : c ∈ d.brDue n) : d.brTripIf n c = d.brTrip n 6 (d.brDue n) :=
  if_pos (List.contains_iff_mem.2 h)

/-! ## The commands -/

section
variable {n : Fin 64} (rest : List Instr)

theorem exec_brFastTrip (hst : d.bs n = Ec.inrush ∨ d.bs n = Ec.on) (hkeep : d.keep.on = false) :
    exec (.brFastTrip n) ⟨d, rest⟩ = .next ⟨d.brTrip n 0 (1 :: d.brDue n), rest⟩ := by
  have hdev : devBrFastTrip n d = d.brTrip n 0 (1 :: d.brDue n) := by
    rw [devBrFastTrip, if_pos (.inl ⟨hst, Bool.eq_false_iff.1 hkeep⟩), Dev.brTripBy, Dev.filter_ne_one_brDue]
  rw [← hdev]; rfl

theorem exec_brOcTrip (h : 3 ∈ d.brDue n) : exec (.brOcTrip n) ⟨d, rest⟩ = .next ⟨d.brTrip n 6 (d.brDue n), rest⟩ := by
  rw [← Dev.brTripIf_of_mem h]; rfl

theorem exec_brSsTime (h : 4 ∈ d.brDue n) : exec (.brSsTime n) ⟨d, rest⟩ = .next ⟨d.brTrip n 6 (d.brDue n), rest⟩ := by
  rw [← Dev.brTripIf_of_mem h]; rfl

theorem exec_brOvTrip (h : 5 ∈ d.brDue n) : exec (.brOvTrip n) ⟨d, rest⟩ = .next ⟨d.brTrip n 6 (d.brDue n), rest⟩ := by
  rw [← Dev.brTripIf_of_mem h]; rfl

theorem exec_brRevTrip (h : 6 ∈ d.brDue n) : exec (.brRevTrip n) ⟨d, rest⟩ = .next ⟨d.brTrip n 6 (d.brDue n), rest⟩ := by
  rw [← Dev.brTripIf_of_mem h]; rfl

theorem exec_brPwrTrip (h : 7 ∈ d.brDue n) : exec (.brPwrTrip n) ⟨d, rest⟩ = .next ⟨d.brTrip n 6 (d.brDue n), rest⟩ := by
  rw [← Dev.brTripIf_of_mem h]; rfl

end

/-- Settles O17: a branch trips by the first of its enabled causes that are due; each command's condition puts its own cause first. -/
theorem branchTrips : Obligations.BranchTrips := by
  unfold Obligations.BranchTrips
  refine ⟨fun _ rest _ => exec_brFastTrip rest, fun _ rest _ => exec_brOcTrip rest, fun _ rest _ => exec_brSsTime rest,
    fun _ rest _ => exec_brOvTrip rest, fun _ rest _ => exec_brRevTrip rest, fun _ rest _ => exec_brPwrTrip rest,
    ?fast, ?oc, ?softstart, ?ov, ?rev, ?pwr⟩
  case fast =>
    intro d rest n hst hkeep hmem hfirst hclear
    have first : d.BrTripsFirst n := ⟨hmem, hfirst, hclear⟩
    have hlt : ∀ x ∈ 1 :: d.brDue n, x < 8 := List.forall_mem_cons.2 ⟨by decide, fun _ hx => (Dev.lt_of_mem_brDue hx).2⟩
    obtain ⟨ht, hr⟩ := first.brTrip 0 rfl hlt
    have hbeside : ((d.brDue n).filter fun x => d.tripEn (16 + n) x) =
        (d.brDue n).filter fun x => decide (x ≠ 1) && d.tripEn (16 + n) x :=
      List.filter_congr fun x hx => by simp [Nat.ne_of_gt (Dev.lt_of_mem_brDue hx).1]
    rw [hbeside] at ht
    exact ⟨_, exec_brFastTrip rest hst hkeep, ht.fields hr⟩
  case oc =>
    intro d rest n hst hkeep hmem hfirst hclear hsoa hoc hen
    have first : d.BrTripsFirst n := ⟨hmem, hfirst, hclear⟩
    have hdue : ∃ also, d.brDue n = 3 :: also := by
      simp [Dev.brDue, first.brSt_eq, hst, hkeep, hsoa, hoc]
    obtain ⟨ht, hr⟩ := first.brTrip_brDue hdue hen
    exact ⟨_, exec_brOcTrip rest (Dev.mem_brDue_of_first hdue), ht.fields hr⟩
  case softstart =>
    intro d rest n hst hkeep hmem hfirst hclear hsoa hoc hss hen
    have first : d.BrTripsFirst n := ⟨hmem, hfirst, hclear⟩
    have hdue : ∃ also, d.brDue n = 4 :: also := by
      simp [Dev.brDue, first.brSt_eq, hst, hkeep, hsoa, hoc, hss]
    obtain ⟨ht, hr⟩ := first.brTrip_brDue hdue hen
    exact ⟨_, exec_brSsTime rest (Dev.mem_brDue_of_first hdue), ht.fields hr⟩
  case ov =>
    intro d rest n hst hkeep hmem hfirst hclear hsoa hoc hov hen
    have first : d.BrTripsFirst n := ⟨hmem, hfirst, hclear⟩
    have hdue : ∃ also, d.brDue n = 5 :: also := by
      simp [Dev.brDue, first.brSt_eq, hst, hkeep, hsoa, hoc, hov, Ec.on, Ec.inrush]
    obtain ⟨ht, hr⟩ := first.brTrip_brDue hdue hen
    exact ⟨_, exec_brOvTrip rest (Dev.mem_brDue_of_first hdue), ht.fields hr⟩
  case rev =>
    intro d rest n hst hkeep hmem hfirst hclear hsoa hoc hov hrev hen
    have first : d.BrTripsFirst n := ⟨hmem, hfirst, hclear⟩
    have hdue : ∃ also, d.brDue n = 6 :: also := by
      simp [Dev.brDue, first.brSt_eq, hst, hkeep, hsoa, hoc, Nat.not_le.2 hov, hrev, Ec.on, Ec.inrush]
    obtain ⟨ht, hr⟩ := first.brTrip_brDue hdue hen
    exact ⟨_, exec_brRevTrip rest (Dev.mem_brDue_of_first hdue), ht.fields hr⟩
  case pwr =>
    intro d rest n hst hkeep hmem hfirst hclear hsoa hoc hov hrev hpwr hen
    have first : d.BrTripsFirst n := ⟨hmem, hfirst, hclear⟩
    have hdue : ∃ also, d.brDue n = 7 :: also := by
      simp [Dev.brDue, first.brSt_eq, hst, hkeep, hsoa, hoc, Nat.not_le.2 hov, hrev, hpwr, Ec.on, Ec.inrush]
    obtain ⟨ht, hr⟩ := first.brTrip_brDue hdue hen
    exact ⟨_, exec_brPwrTrip rest (Dev.mem_brDue_of_first hdue), ht.fields hr⟩

end Sys2Proof.Machine
end

section
/-! PROOFS. The timers of the retry machine (03_branch_fuses.md R74-R76): a cool-down that opens, one that times out, and COUNT_CLEAR. -/

namespace Sys2Proof.Machine

variable {d t : Dev} {u n : Nat}

/-! ## A delay that hands over to a cool-down (R74) -/

theorem Dev.rd_rstate_coolOpen (d : Dev) (u : Nat) : (d.coolOpen u).rd (RETRY_STAT.RSTATE u) = Rt.cool := by
  rw [Dev.coolOpen, Dev.rd_onRT, Dev.rd_twr_same _ _ _ _ (Nat.le_of_ble_eq_true rfl)]
  rfl

/-- The window opens at the expiry of the delay, which ends. -/
theorem Dev.RT_coolOpen (d : Dev) (u : Nat) :
    (d.coolOpen u).RT u =
      { d.RT u with delay := none, cool := some ((d.RT u).delay.getD d.now + d.rtPol u 5 POL5.COOL_TMAX) } := by
  simp [Dev.coolOpen]

/-! ## A cool-down that times out (R75) -/

/-- The machine of unit `u` has latched as its cool-down timed out. -/
structure Dev.CoolLatched (d : Dev) (u : Nat) : Prop where
  rstate : d.rd (RETRY_STAT.RSTATE u) = Rt.latched
  coolTo : d.rd (RETRY_STAT.COOL_TO u) = 1
  closed : (d.RT u).cool = none

/-- It has latched in any state with the same word of the machine and the same windows. -/
theorem Dev.CoolLatched.congr (h : d.CoolLatched u) (hw : t.word (RETRY_STAT.RSTATE u).off = d.word (RETRY_STAT.RSTATE u).off)
    (hc : (t.RT u).cool = (d.RT u).cool) : t.CoolLatched u :=
  ⟨(Dev.rd_congr (f := RETRY_STAT.RSTATE u) hw).trans h.rstate, (Dev.rd_congr (f := RETRY_STAT.COOL_TO u) hw).trans h.coolTo,
   hc.trans h.closed⟩

theorem Dev.coolLatched_rtLatch (d : Dev) (u : Nat) : (d.rtLatch u true).CoolLatched u where
  rstate := d.rd_rstate_rtLatch true
  coolTo := by
    rw [Dev.rtLatch, Dev.rd_twr_same _ _ _ _ (Nat.le_of_ble_eq_true rfl)]
    rfl
  closed := by simp [Dev.rtLatch, Dev.rtStop]

/-- The end of the count's window writes the count, a field of its own. -/
theorem Dev.CoolLatched.countClear (h : d.CoolLatched u) : (d.countClear u).CoolLatched u := by
  unfold Dev.countClear
  split
  · split
    · exact ⟨(Dev.rd_twr_apart (g := RETRY_STAT.RSTATE u) _ _ _ (.inr (.inl (Nat.le_of_ble_eq_true rfl))) (Nat.le_of_ble_eq_true rfl)
          (retryStat_ne_memEvt u)).trans h.rstate,
        (Dev.rd_twr_apart (g := RETRY_STAT.COOL_TO u) _ _ _ (.inr (.inl (Nat.le_of_ble_eq_true rfl))) (Nat.le_of_ble_eq_true rfl)
          (retryStat_ne_memEvt u)).trans h.coolTo,
        by simpa using h.closed⟩
    · exact h
  · exact h

theorem Dev.CoolLatched.wr (h : d.CoolLatched u) {f : Fld} (hf : (RETRY_STAT.RSTATE u).off ≠ f.off) (v : Nat) : (d.wr f v).CoolLatched u :=
  h.congr (d.word_wr_ne f v hf) rfl

theorem Dev.CoolLatched.tripMsg (h : d.CoolLatched u) (kind unit agent access level fence : Nat) (safe latch : Bool) :
    (d.tripMsg kind unit agent access level fence safe latch).CoolLatched u :=
  h.congr (by simp) (by simp)

/-- The entry channel of the machine latches. -/
theorem Dev.CoolLatched.entGo (h : d.CoolLatched n) (g : Gate) : (d.entGo n Ec.latched g).CoolLatched n := by
  have hc : ((d.entMark n).countClear n).CoolLatched n := (h.congr (by simp) (by simp)).countClear
  have hne : (RETRY_STAT.RSTATE n).off ≠ (ENT_STATUS.STATE n).off := by simp only [RETRY_STAT.RSTATE, ENT_STATUS.STATE]; omega
  unfold Dev.entGo
  dsimp only
  rw [if_neg (by decide)]
  exact hc.congr (by simp [Dev.word_wr_ne _ _ _ hne]) (by simp)

/-- The branch of the machine latches. -/
theorem Dev.CoolLatched.brGo (h : d.CoolLatched (16 + n)) (g : Gate) : (d.brGo n Ec.latched g).CoolLatched (16 + n) := by
  have hc : ((d.brMark n).countClear (16 + n)).CoolLatched (16 + n) := (h.congr (by simp) (by simp)).countClear
  have hne : (RETRY_STAT.RSTATE (16 + n)).off ≠ (BR_STATUS.STATE n).off := by simp only [RETRY_STAT.RSTATE, BR_STATUS.STATE]; omega
  exact hc.congr (Dev.word_brGo_countClear (by decide) d g hne) (by rw [Dev.RT_brGo_countClear (by decide)])

/-- Scaling a group's limits changes entry channels alone (02_power_entry.md R51). -/
theorem Dev.groupScale_eq (d : Dev) (g : Nat) : ∃ en, d.groupScale g = { d with ent := en } := by
  have loop : ∀ (f : Nat → EntrySt → EntrySt) (l : List Nat) (d : Dev), ∃ en, (d.forL l fun d m => d.onE m (f m)) = { d with ent := en } := by
    intro f l
    induction l with
    | nil => exact fun d => ⟨d.ent, rfl⟩
    | cons m l ih => exact fun d => ih (d.onE m (f m))
  exact loop _ _ d

/-- An entry channel whose cool-down has timed out is LATCHED, and its machine with it. -/
theorem Dev.latched_entCoolLatch (d : Dev) (n : Nat) : (d.entCoolLatch n).es n = Ec.latched ∧ (d.entCoolLatch n).CoolLatched n := by
  have hgo : ((d.rtLatch n true).entGo n Ec.latched .off).es n = Ec.latched := Dev.es_entGo _ _ _ _
  have hcool := (d.coolLatched_rtLatch n).entGo .off
  unfold Dev.entCoolLatch
  dsimp only
  generalize (d.rtLatch n true).entGo n Ec.latched .off = t at hgo hcool
  generalize (if t.groupContinues n = true then 2 else 3) = f
  have hes := (t.rd_tripMsg (t.rd (ENT_STATUS.CAUSE n)) n (0x80 + n) 6 0 f (t.latchSafe n) true (ENT_STATUS.STATE n)).trans hgo
  have hmsg := hcool.tripMsg (t.rd (ENT_STATUS.CAUSE n)) n (0x80 + n) 6 0 f (t.latchSafe n) true
  generalize t.tripMsg _ _ _ _ _ _ _ _ = m at hes hmsg
  split
  · split
    · exact ⟨hes, hmsg⟩
    · next g _ =>
      obtain ⟨en, hscale⟩ := m.groupScale_eq g
      rw [hscale]
      exact ⟨hes, hmsg.congr rfl rfl⟩
  · exact ⟨hes, hmsg⟩

/-- So is a branch. -/
theorem Dev.latched_brCoolLatch (d : Dev) (n : Nat) :
    (d.brCoolLatch n).bs n = Ec.latched ∧ (d.brCoolLatch n).CoolLatched (16 + n) := by
  unfold Dev.brCoolLatch
  refine ⟨?_, ((d.coolLatched_rtLatch (16 + n)).brGo .off).tripMsg _ _ _ _ _ _ _ _⟩
  rw [Dev.bs, Dev.rd_tripMsg]
  exact Dev.bs_brGo (by decide) _ _

/-- So is a phase. -/
theorem Dev.latched_phCoolLatch (d : Dev) (p : Nat) :
    (d.phCoolLatch p).ps p = Ps.latched ∧ (d.phCoolLatch p).CoolLatched (80 + p) := by
  have hne : (RETRY_STAT.RSTATE (80 + p)).off ≠ (PH_STATE.STATE p).off := by simp only [RETRY_STAT.RSTATE, PH_STATE.STATE]; omega
  have hcool := (d.coolLatched_rtLatch (80 + p)).wr hne Ps.latched
  have hst : ((d.rtLatch (80 + p) true).wr (PH_STATE.STATE p) Ps.latched).ps p = Ps.latched :=
    Dev.rd_wr_same _ (PH_STATE.STATE p) _ (Nat.le_of_ble_eq_true rfl)
  exact ⟨(Dev.rd_tripMsg _ _ _ _ _ _ _ _ _ (PH_STATE.STATE p)).trans hst, hcool.tripMsg _ _ _ _ _ _ _ _⟩

/-! ## The count (R76) -/

/-- A COUNT_CLEAR window that has closed ends, and the count is 0. -/
theorem Dev.countClear_of_le {k : Nat} (hk : (d.RT u).clear = some k) (hle : k ≤ d.now) :
    (d.countClear u).rd (RETRY_STAT.RETRY_CNT u) = 0 ∧ ((d.countClear u).RT u).clear = none := by
  unfold Dev.countClear
  rw [hk]
  dsimp only
  rw [if_pos hle]
  exact ⟨(Dev.rd_twr_same _ _ _ 0 (Nat.le_of_ble_eq_true rfl)).trans (Nat.zero_mod _), by simp⟩

/-! ## The commands -/

theorem exec_retryDelayExpire {u : Fin 592} (rest : List Instr) (h : d.delayDue u = true) :
    exec (.retryDelayExpire u) ⟨d, rest⟩ = .next ⟨if d.retryCool u = true then d.retryNow u else d.coolOpen u, rest⟩ :=
  congrArg (fun t => Host.Outcome.next (⟨t, rest⟩ : State)) (if_neg fun hn => hn h)

theorem exec_coolTimeout {u : Fin 592} (rest : List Instr) (h : d.coolOver u = true) :
    exec (.coolTimeout u) ⟨d, rest⟩ =
      .next ⟨if u.val < 16 then d.entCoolLatch u else if u.val < 80 then d.brCoolLatch (u - 16) else d.phCoolLatch (u - 80), rest⟩ :=
  congrArg (fun t => Host.Outcome.next (⟨t, rest⟩ : State)) (if_neg fun hn => hn h)

/-- Settles O19: an expired delay opens the cool-down window or retries, a timed-out cool-down latches the unit of each kind, and a closed
COUNT_CLEAR window takes the count to 0. -/
theorem retryTimers : Obligations.RetryTimers := by
  unfold Obligations.RetryTimers
  refine ⟨?toCool, ?toRetry, fun d rest u h => exec_coolTimeout rest h, ?entry, ?branch, ?phase, ?count⟩
  case toCool =>
    intro d rest u hdue hhot
    have hexec := exec_retryDelayExpire rest hdue
    rw [if_neg (Bool.eq_false_iff.1 hhot)] at hexec
    exact ⟨_, hexec, d.rd_rstate_coolOpen u, by rw [Dev.RT_coolOpen], by rw [Dev.RT_coolOpen]⟩
  case toRetry =>
    intro d rest u hdue hcool
    rw [exec_retryDelayExpire rest hdue, if_pos hcool]
  case entry =>
    intro d rest u _ hu hover _ _
    have hexec := exec_coolTimeout rest hover
    rw [if_pos hu] at hexec
    obtain ⟨hst, hcool⟩ := d.latched_entCoolLatch u
    exact ⟨_, hexec, hst, hcool.rstate, hcool.coolTo, hcool.closed⟩
  case branch =>
    intro d rest u hlo hhi hover _ _
    have hexec := exec_coolTimeout rest hover
    rw [if_neg (Nat.not_lt.2 hlo), if_pos hhi] at hexec
    obtain ⟨hst, hcool⟩ := d.latched_brCoolLatch (u - 16)
    rw [Nat.add_sub_cancel' hlo] at hcool
    exact ⟨_, hexec, hst, hcool.rstate, hcool.coolTo, hcool.closed⟩
  case phase =>
    intro d rest u hlo _ hover _ _
    have hexec := exec_coolTimeout rest hover
    rw [if_neg (by omega), if_neg (Nat.not_lt.2 hlo)] at hexec
    obtain ⟨hst, hcool⟩ := d.latched_phCoolLatch (u - 80)
    rw [Nat.add_sub_cancel' hlo] at hcool
    exact ⟨_, hexec, hst, hcool.rstate, hcool.coolTo, hcool.closed⟩
  case count =>
    intro d rest u k hk hle
    exact ⟨_, rfl, Dev.countClear_of_le hk hle⟩

end Sys2Proof.Machine
end

section
/-! PROOFS. A branch sample that starts a deferred calibration (07_conversion.md R194, R208), and a table image with a reserved half-word
(02_power_entry.md R43; 12_host_rings.md R334; 17_register_map.md R448): two states in which a command does more, or stores less, than
its statement says. -/

namespace Sys2Proof.Machine

/-- A frame of SCV 0 begins with a slot of slice 0: the first slot of a calibration that was deferred behind an injected result. -/
def deferredCalibration : Dev :=
  let d : Dev := { clk := { hub := true, now := 1280 }, conv := [(624, { calLeft := [0, 1, 2, 3], calStart := 1280 })] }
  d.wr (CV_STATUS.CAL_STATUS 624) 1

/-- The sample of branch 0 in slot 0 finds the calibration RUNNING. -/
theorem calStatus_devBrSample_deferredCalibration :
    (devBrSample 0 0 none none deferredCalibration).rd (CV_STATUS.CAL_STATUS 624) = 2 := by decide +kernel

/-- Refutes O18: its clause for an I sample takes the sample on the state as the slot finds it, while a deferred calibration becomes RUNNING
with its first slot (R208). CAL_STATUS reads RUNNING after BR_SAMPLE and still DEFERRED in the state of the clause. -/
theorem not_branchProgress : ¬ Obligations.BranchProgress := by
  unfold Obligations.BranchProgress
  rintro ⟨-, -, -, hsample, -⟩
  have hnext := of_exec_eq_next (f := devBrSample 0 0 none none) (fun _ _ => rfl)
    (hsample deferredCalibration [] 0 0 (by decide +kernel) (by decide +kernel) (by decide +kernel))
  have hstatus := calStatus_devBrSample_deferredCalibration
  rw [hnext] at hstatus
  exact absurd hstatus (by decide +kernel)

/-- An image of an SOA table: RTH1 and each TAU are 1, TJ_REG is 1, below a TJ_TRIP of 2, T_FIXED is 0, and the reserved half of SOA_TREF is 1. -/
def soaImage : List Byte :=
  [1, 0, 0, 0,  0, 0, 0, 0,  1, 0, 0, 0,  1, 0, 0, 0,  1, 0, 0, 0,  1, 0, 0, 0,  2, 0, 1, 0,  0, 0, 1, 0]

/-- The image lies in host memory at address 64. -/
def soaImageInHost : Dev := Dev.hWr { clk := { hub := true } } 64 soaImage

/-- A TABLE_LOAD of it into SOA table 0, with its length and its CRC. -/
def soaLoad : Desc :=
  { src := .host 2, tag := 7, cls := 0, idx := 0,
    payload := [1, 0, 0, 0,  64, 0, 0, 0, 0, 0,  0, 0,  32, 0, 0, 0,  0x01, 0x36, 0x3D, 0xA9] ++ List.replicate 28 0 }

/-- A well-formed TABLE_LOAD answers the block that `devTableLoad` gives, with the queue as it was. -/
theorem exec_tableLoad {x : Desc} (hx : x.wf = true) (d : Dev) (rest : List Instr) :
    exec (.tableLoad x false) ⟨d, rest⟩ = .next ⟨devTableLoad x false d, rest⟩ := if_pos hx

/-- The load leaves the reserved half of SOA_TREF 0. -/
theorem word_devTableLoad_soaLoad : (devTableLoad soaLoad false soaImageInHost).word (0x201200 + 4 * 7) = 0 := by decide +kernel

/-- Refutes O28: its clause for TABLE_LOAD takes each word of the image into the table, and the upper half of an SOA table's SOA_TREF is
reserved (R43), so a load that passes every check leaves it 0 whatever the image has there (R448). -/
theorem not_tableCommands : ¬ Obligations.TableCommands := by
  unfold Obligations.TableCommands
  rintro ⟨-, hload, -, -⟩
  obtain ⟨t, ht, hwords, -⟩ := hload soaImageInHost [] soaLoad 1 0 0x201200 32 (by decide +kernel) (by decide +kernel) rfl rfl
    (by decide +kernel) (by decide +kernel) (by decide +kernel) rfl (by decide +kernel) (by decide +kernel) (by decide +kernel)
    (by decide +kernel) (by decide +kernel) (by decide +kernel)
  have hword := hwords 7 (by decide)
  rw [← of_exec_eq_next (exec_tableLoad (by decide)) ht, word_devTableLoad_soaLoad] at hword
  exact absurd hword (by decide +kernel)

end Sys2Proof.Machine
end

section
/-! PROOFS. What the loom's shared acts at a sample leave as they were (04_rail_loom.md R96, R120; 06_load_intent.md R162-R170; 07_conversion.md
R183, R213): the taken instant, the pipeline with nothing in it, the delivery of a quantity, and the phases through the shuttle. -/

namespace Sys2Proof.Machine

variable {d : Dev} {r p : Nat}

/-! ## The pipeline and the instant -/

/-- With no sample in flight no compensator stage is due. -/
theorem Dev.stages_of_samp_nil (h : (d.R r).samp = []) : d.stages r = d := by simp [Dev.stages, h]

/-- A phase that is not leaving stays. -/
theorem Dev.leaveDone_of_leave_none (h : (d.P p).leave = none) : d.leaveDone p = d := by simp [Dev.leaveDone, h]

/-- An instant that is taken touches the converters alone. -/
theorem Dev.takeInst_eq (d : Dev) (c : Nat) : ∃ cv, d.takeInst c = { d with conv := cv } := by
  unfold Dev.takeInst
  dsimp only
  split <;> exact ⟨_, rfl⟩

@[simp] theorem Dev.takeInst_regs (d : Dev) (c : Nat) : (d.takeInst c).regs = d.regs := by obtain ⟨_, h⟩ := d.takeInst_eq c; rw [h]
@[simp] theorem Dev.takeInst_clk (d : Dev) (c : Nat) : (d.takeInst c).clk = d.clk := by obtain ⟨_, h⟩ := d.takeInst_eq c; rw [h]
@[simp] theorem Dev.R_takeInst (d : Dev) (c n : Nat) : (d.takeInst c).R n = d.R n := by obtain ⟨_, h⟩ := d.takeInst_eq c; rw [h]; rfl
@[simp] theorem Dev.P_takeInst (d : Dev) (c n : Nat) : (d.takeInst c).P n = d.P n := by obtain ⟨_, h⟩ := d.takeInst_eq c; rw [h]; rfl

/-- Taking an instant leaves the calibration that decides whether a slice is in service, so it yields a sample as before. -/
theorem Dev.sampled_takeInst (d : Dev) (c : Nat) : (d.takeInst c).sampled c = d.sampled c := by
  unfold Dev.takeInst
  dsimp only
  split <;>
    · simp only [Dev.sampled, Dev.sliceOut, Dev.C_onC_same]
      rfl

/-- The currents of a rail's phases do not hang on the converters. -/
theorem Dev.sumNow_takeInst (d : Dev) (c r : Nat) : (d.takeInst c).sumNow r = d.sumNow r := by
  obtain ⟨_, h⟩ := d.takeInst_eq c
  rw [h]
  rfl

/-- Nor does the trim of a phase's current. -/
theorem Dev.trimmed_takeInst (d : Dev) (c p : Nat) (v : Int) : (d.takeInst c).trimmed p v = d.trimmed p v := by
  obtain ⟨_, h⟩ := d.takeInst_eq c
  rw [h]
  rfl

theorem Dev.code_takeInst (d : Dev) (c k s : Nat) (signed : Bool) (len : Nat) (v : BitVec len) :
    (d.takeInst c).code k s signed len v = d.code k s signed len v := by
  obtain ⟨_, h⟩ := d.takeInst_eq c
  rw [h]
  rfl

/-! ## Deliveries -/

@[simp] theorem Dev.winEval_ph (d : Dev) (t v : Nat) : (d.winEval t v).1.ph = d.ph := by
  unfold Dev.winEval
  split
  · rfl
  · dsimp only
    split
    · rfl
    · dsimp only
      split <;> rfl

@[simp] theorem Dev.deliver_ph (d : Dev) (t v ext : Nat) (cal inj : Bool) (stamp : Option Nat) :
    (d.deliver t v ext cal inj stamp).ph = d.ph := by
  unfold Dev.deliver
  dsimp only
  split <;> simp

/-- The quantities of a rail have no window comparator. -/
theorem Dev.winEval_of_quantity {t : Nat} (h : 5 ≤ t / 512) (v : Nat) : d.winEval t v = (d, false) := if_pos (.inr (.inl h))

theorem Dev.forward_eq (d : Dev) (l : Nat) (e : Entry) : ∃ o, d.forward l e = { d with host := o } := by
  unfold Dev.forward
  split <;> exact ⟨_, rfl⟩

/-- A quantity of a rail is delivered: it only goes to the hub. -/
theorem Dev.deliverQ5_eq (d : Dev) (r before : Nat) : ∃ o, d.deliverQ5 r before = { d with host := o } := by
  unfold Dev.deliverQ5
  split
  · exact ⟨_, rfl⟩
  · have hq : 5 ≤ railTag r 5 / 512 := by unfold railTag; omega
    rw [Dev.deliver, Dev.winEval_of_quantity hq]
    dsimp only
    split
    · exact ⟨_, rfl⟩
    · exact Dev.forward_eq _ _ _

@[simp] theorem Dev.R_deliverQ5 (d : Dev) (r b n : Nat) : (d.deliverQ5 r b).R n = d.R n := by
  obtain ⟨_, h⟩ := d.deliverQ5_eq r b; rw [h]; rfl
@[simp] theorem Dev.rd_deliverQ5 (d : Dev) (r b : Nat) (f : Fld) : (d.deliverQ5 r b).rd f = d.rd f := by
  obtain ⟨_, h⟩ := d.deliverQ5_eq r b; rw [h]; rfl

/-! ## The phases through the shuttle -/

@[simp] theorem Dev.specEnds_ph (d : Dev) (r : Nat) : (d.specEnds r).ph = d.ph := by
  unfold Dev.specEnds
  dsimp only
  repeat' split
  all_goals rfl

@[simp] theorem Dev.specTidy_ph (d : Dev) (r : Nat) : (d.specTidy r).ph = d.ph := by
  unfold Dev.specTidy
  repeat' split
  all_goals simp [Dev.onSpec]

@[simp] theorem Dev.credit_ph (d : Dev) (n : Nat) (ok : Bool) : (d.credit n ok).ph = d.ph := by
  unfold Dev.credit
  dsimp only
  repeat' split
  all_goals simp

@[simp] theorem Dev.confirm_ph (d : Dev) (r : Nat) (s : SpecSt) : (d.confirm r s).ph = d.ph := by
  unfold Dev.confirm Dev.ipAck
  dsimp only
  split <;> simp [Dev.onSpec]

@[simp] theorem Dev.shuttleSum_ph (d : Dev) (r : Nat) : (d.shuttleSum r).ph = d.ph := by
  unfold Dev.shuttleSum
  dsimp only
  repeat' split
  all_goals simp [Dev.onSpec, Dev.pcCut]

@[simp] theorem Dev.sumDone_ph (d : Dev) (r : Nat) : (d.sumDone r).ph = d.ph := by simp [Dev.sumDone, Dev.wri]

end Sys2Proof.Machine
end

section
/-! PROOFS. Phase samples (05_phase_management.md R126, R140, R141; 07_conversion.md R185): the thermometer, and a PCC instant as the taking of
its code and the sum of its rail. -/

namespace Sys2Proof.Machine

variable {d : Dev} {p r : Nat}

/-! ## The thermometer (R140, R141) -/

theorem devTfltSample_of_live (hr : (d.P p).rail = some r) (hlive : d.phLive p = true) (hnow : d.now % 80 = 0) (uv : Nat) :
    devTfltSample p uv d = d.onP p fun x => { x with hotN := if d.atLeastV r uv (d.rds (TF_HOT.T_HOT r)) then x.hotN + 1 else 0 } := by
  have hst : ¬ (d.ps p = Ps.tripped ∨ d.ps p = Ps.latched ∨ d.ps p = Ps.fenced) := by
    have hor : d.ps p = Ps.idle ∨ d.ps p = Ps.active := by simpa [Dev.phLive, hr] using hlive
    rcases hor with h | h <;> rw [h] <;> decide
  simp [devTfltSample, hnow, hr, hst, hlive]

theorem devTfltSample_of_out (hr : (d.P p).rail = some r) (hst : d.ps p = Ps.latched ∨ d.ps p = Ps.fenced) (hnow : d.now % 80 = 0)
    (uv : Nat) :
    devTfltSample p uv d = d.onP p fun x => { x with cool := ! d.atLeastV r uv (d.phTRetry p) && decide (uv ≤ 2200000) } := by
  have htrip : d.ps p ≠ Ps.tripped := by rcases hst with h | h <;> rw [h] <;> decide
  simp [devTfltSample, hnow, hr, hst, htrip]

/-! ## A PCC instant -/

/-- A code of phase `p` is taken: it is delivered, and its trimmed current counts and is checked (R126, R140). -/
def Dev.pccTake (d : Dev) (p : Nat) (c : BitVec 14) : Dev :=
  let v := sext 14 (d.code p (sliceAt p d.now) true 14 c).toNat
  ((d.deliver p (trunc 16 v) 0 (d.calFlag p)).onP p fun x =>
    { x with i := d.trimmed p v, acc := x.acc + d.trimmed p v, cnt := x.cnt + 1 }).phChecks p v

/-- The rail of phase `p` sums its currents; the sum is whole at the last phase of the warp (R94). -/
def Dev.pccSum (d : Dev) (p : Nat) : Dev :=
  match (d.P p).rail with
  | none => d
  | some r =>
    let e := d.onR r fun x => { x with iSum := d.sumNow r }
    if (d.warp r).getLast? = some p then e.sumDone r else e

/-- The compensator stages of the rail of phase `p` that began before this tick run first. -/
def Dev.pccStages (d : Dev) (p : Nat) : Dev :=
  match (d.P p).rail with
  | none => d
  | some r => d.stages r

/-- The code of the instant, if the instant yields a sample. -/
def Dev.pccCode (d : Dev) (p : Nat) (code : Option (BitVec 14)) : Dev :=
  match (if d.sampled p then code else none) with
  | none => d
  | some c => d.pccTake p c

theorem devPccSample_of_onGrid (h : d.onGrid p = true) (code : Option (BitVec 14)) :
    devPccSample p code d = ((((d.takeInst p).pccStages p).leaveDone p).pccCode p code).pccSum p := by
  rw [devPccSample, if_neg (by simp [h])]
  rfl

theorem Dev.pccStages_of_samp_nil (h : ∀ r, (d.P p).rail = some r → (d.R r).samp = []) : d.pccStages p = d := by
  unfold Dev.pccStages
  split
  · rfl
  · next r hr => exact Dev.stages_of_samp_nil (h r hr)

/-- With no sample of its rail in flight and no end of a leave to come, an instant takes its code, if it has one, and sums. -/
theorem devPccSample_eq (hgrid : d.onGrid p = true) (hleave : (d.P p).leave = none)
    (hsamp : ∀ r, (d.P p).rail = some r → (d.R r).samp = []) (code : Option (BitVec 14)) :
    devPccSample p code d = ((d.takeInst p).pccCode p code).pccSum p := by
  rw [devPccSample_of_onGrid hgrid, Dev.pccStages_of_samp_nil (by simpa using hsamp), Dev.leaveDone_of_leave_none (by simpa using hleave)]

/-- An empty instant takes no code. -/
theorem Dev.pccCode_none (d : Dev) (p : Nat) : d.pccCode p none = d := by rw [Dev.pccCode, ite_self]

theorem Dev.pccCode_some (h : d.sampled p = true) (c : BitVec 14) : d.pccCode p (some c) = d.pccTake p c := by
  rw [Dev.pccCode, if_pos h]

theorem Dev.pccSum_ph (d : Dev) (p : Nat) : (d.pccSum p).ph = d.ph := by
  unfold Dev.pccSum
  split
  · rfl
  · dsimp only
    split
    · simp
    · rfl

theorem Dev.P_phChecks (d : Dev) (p : Nat) (v : Int) :
    ((d.phChecks p v).P p).i = (d.P p).i ∧ ((d.phChecks p v).P p).cnt = (d.P p).cnt := by
  unfold Dev.phChecks
  split
  · exact ⟨rfl, rfl⟩
  · simp

theorem Dev.P_deliver (d : Dev) (t v ext : Nat) (cal inj : Bool) (stamp : Option Nat) (n : Nat) :
    (d.deliver t v ext cal inj stamp).P n = d.P n := by simp [Dev.P]

/-- The code gives the phase its trimmed current, one sample more of the period. -/
theorem Dev.P_pccTake (d : Dev) (p : Nat) (c : BitVec 14) :
    ((d.pccTake p c).P p).i = d.trimmed p (sext 14 (d.code p (sliceAt p d.now) true 14 c).toNat) ∧
      ((d.pccTake p c).P p).cnt = (d.P p).cnt + 1 := by
  unfold Dev.pccTake
  dsimp only
  obtain ⟨hi, hcnt⟩ := Dev.P_phChecks ((d.deliver p _ 0 (d.calFlag p)).onP p _) p _
  rw [hi, hcnt, Dev.P_onP_same, Dev.P_deliver]
  exact ⟨rfl, rfl⟩

/-- Where the phase is not the last of its warp, the rail takes the sum and nothing else moves. -/
theorem Dev.pccSum_of_not_last (hr : (d.P p).rail = some r) (hlast : (d.warp r).getLast? ≠ some p) :
    d.pccSum p = d.onR r fun x => { x with iSum := d.sumNow r } := by
  unfold Dev.pccSum
  rw [hr]
  exact if_neg hlast

/-- Settles O21: a thermometer sample changes the one field of its phase that its state calls for; a PCC instant takes its code, or keeps the
current where it has none, and sums for the rail. -/
theorem phaseSamples : Obligations.PhaseSamples := by
  unfold Obligations.PhaseSamples
  refine ⟨?hot, ?cool, ?unassigned, ?fresh, ?empty⟩
  case hot =>
    intro d rest p uv r hr hlive hnow
    refine ⟨devTfltSample p uv.toNat d, rfl, ?_⟩
    rw [devTfltSample_of_live hr hlive hnow]
    exact ⟨by rw [Dev.P_onP_same], rfl, fun k hk => d.P_onP_ne hk _⟩
  case cool =>
    intro d rest p uv r hr hst hnow
    refine ⟨devTfltSample p uv.toNat d, rfl, ?_⟩
    rw [devTfltSample_of_out hr hst hnow]
    exact ⟨by rw [Dev.P_onP_same], rfl⟩
  case unassigned =>
    intro d rest p hgrid hleave hr
    have hdev : devPccSample p none d = d.takeInst p := by
      rw [devPccSample_eq hgrid hleave (by simp [hr]), Dev.pccCode_none]
      simp [Dev.pccSum, hr]
    rw [← hdev]
    rfl
  case fresh =>
    intro d rest p c r hgrid hsampled hleave hr hsamp
    refine ⟨devPccSample p (some c) d, rfl, ?_⟩
    rw [devPccSample_eq hgrid hleave (by simp [hr, hsamp]), Dev.pccCode_some (by rw [Dev.sampled_takeInst]; exact hsampled)]
    obtain ⟨hi, hcnt⟩ := (d.takeInst p).P_pccTake p c
    rw [Dev.P, Dev.pccSum_ph, ← Dev.P, hi, hcnt, Dev.P_takeInst, Dev.trimmed_takeInst, Dev.code_takeInst]
    exact ⟨by simp only [Dev.now, Dev.takeInst_clk], rfl⟩
  case empty =>
    intro d rest p r hgrid hsamp hleave hr hlast
    refine ⟨devPccSample p none d, rfl, ?_⟩
    have hwarp : (d.takeInst p).warp r = d.warp r := by obtain ⟨_, h⟩ := d.takeInst_eq p; rw [h]; rfl
    rw [devPccSample_eq hgrid hleave (by simp [hr, hsamp]), Dev.pccCode_none,
      Dev.pccSum_of_not_last (r := r) (by rw [Dev.P_takeInst]; exact hr) (by rw [hwarp]; exact hlast)]
    exact ⟨by rw [Dev.R_onR_same, Dev.sumNow_takeInst], Dev.takeInst_regs _ _⟩

end Sys2Proof.Machine
end

section
/-! PROOFS. Catches of a rail (04_rail_loom.md R102-R106): what a comparator's assertion, its release and the close of a window make of the
rail. -/

namespace Sys2Proof.Machine

variable {d : Dev} {r : Nat}

/-! ## Registers of a rail that are apart -/

/-- RAIL_STATUS shows the catch in bits apart from the rail's state. -/
@[simp] theorem Dev.rs_catchShow (d : Dev) (r : Nat) : (d.catchShow r).rs r = d.rs r :=
  d.rd_wr_apart (RAIL_STATUS.CATCH r) (RAIL_STATUS.STATE r) _ (by simp [Fld.apart, RAIL_STATUS.CATCH, RAIL_STATUS.STATE]) (Nat.le_of_ble_eq_true rfl)

@[simp] theorem Dev.rd_evt_catchShow (d : Dev) (r : Nat) : (d.catchShow r).rd (RAIL_EVT.EVT r) = d.rd (RAIL_EVT.EVT r) :=
  Dev.rd_congr (d.word_wr_ne _ _ (by simp only [RAIL_EVT.EVT, RAIL_STATUS.CATCH]; omega))

@[simp] theorem Dev.rs_evt (d : Dev) (r b : Nat) : (d.evt (RAIL_EVT.EVT r) b).rs r = d.rs r :=
  Dev.rd_congr (f := RAIL_STATUS.STATE r) (d.word_evt_ne _ _ (by simp only [RAIL_EVT.EVT, RAIL_STATUS.STATE]; omega))

/-- An event bit of a rail that is set reads 1. -/
theorem Dev.testBit_railEvt (d : Dev) (r : Nat) {b : Nat} (hb : b < 9) :
    ((d.evt (RAIL_EVT.EVT r) b).rd (RAIL_EVT.EVT r)).testBit b = true :=
  d.testBit_evt _ b hb (Nat.le_of_ble_eq_true rfl)

@[simp] theorem Dev.R_evt (d : Dev) (f : Fld) (b n : Nat) : (d.evt f b).R n = d.R n := rfl
@[simp] theorem Dev.R_catchShow (d : Dev) (r n : Nat) : (d.catchShow r).R n = d.R n := rfl

/-! ## A catch begins (R102, R104, R106) -/

/-- The rail with a comparator asserted on tick `now`: its catch is open, and both comparators are asserted since then if the other one is. -/
def RailSt.caught (x : RailSt) (ovs : Bool) (now : Nat) : RailSt :=
  if ovs then { x with cmpO := true, catO := some now, both := if x.cmpU then some now else none }
  else { x with cmpU := true, catU := some now, both := if x.cmpO then some now else none }

/-- What an assertion makes of rail `r`: it is `caught`, its event bit is set, its state stays, and the selvage is told. -/
structure Dev.CatchBegun (d : Dev) (r : Nat) (ovs : Bool) (t : Dev) : Prop where
  rail : t.R r = (d.R r).caught ovs d.now
  evt : (t.rd (RAIL_EVT.EVT r)).testBit (if ovs then 1 else 0) = true
  state : t.rs r = d.rs r
  reports : t.Reports 0x37 r

theorem Dev.catchBegun_catchOn {ovs : Bool} (harmed : d.catchArmed r = true)
    (hcmp : (if ovs then (d.R r).cmpO else (d.R r).cmpU) = false) (hsamp : (d.R r).samp = []) : d.CatchBegun r ovs (d.catchOn r ovs) := by
  unfold Dev.catchOn
  dsimp only
  rw [if_neg (by simp [harmed, hcmp]), Dev.stages_of_samp_nil hsamp]
  exact {
    rail := by cases ovs <;> simp [RailSt.caught]
    evt := by
      rw [Dev.rd_raise, Dev.rd_deliverQ5, Dev.rd_evt_catchShow]
      exact Dev.testBit_railEvt _ _ (by cases ovs <;> decide)
    state := by
      rw [Dev.rs, Dev.rd_raise, Dev.rd_deliverQ5, ← Dev.rs, Dev.rs_catchShow, Dev.rs_evt]
      rfl
    reports := Dev.reports_raise _ _ _ _ _ }

/-! ## A catch ends (R104, R105) -/

/-- With no catch open and not both comparators asserted, a release lowers its comparator alone. -/
theorem Dev.cmpLow_of_idle (hboth : (d.R r).both = none) (hU : (d.R r).catU = none) (hO : (d.R r).catO = none) (ovs : Bool) :
    d.cmpLow r ovs = d.onR r fun x => if ovs then { x with cmpO := false, both := none } else { x with cmpU := false, both := none } := by
  have hsense : devSense r d = d := by simp [devSense, hboth, closed]
  have hdue : d.catchDue r = d := by simp [Dev.catchDue, hU, hO, closed]
  unfold Dev.cmpLow
  dsimp only
  rw [hsense, hdue, if_neg (by simp [hU, hO])]

/-- The compensator leaves the catches. -/
theorem Dev.catO_compensate (d : Dev) (r t : Nat) (x : Int) : ((d.compensate r t x).R r).catO = (d.R r).catO := by
  unfold Dev.compensate
  extract_lets
  split
  split
  dsimp only
  split
  · rw [Dev.R_wr, Dev.R_onR_same]
  · rw [Dev.R_evt, Dev.R_wr, Dev.R_onR_same]

theorem Dev.catO_stages (d : Dev) (r : Nat) : ((d.stages r).R r).catO = (d.R r).catO := by
  have runs : ∀ (l : List (Nat × Int)) (d : Dev), ((d.forL l fun d x => d.compensate r x.1 x.2).R r).catO = (d.R r).catO := by
    intro l
    induction l with
    | nil => exact fun _ => rfl
    | cons x l ih => exact fun d => (ih _).trans (d.catO_compensate r x.1 x.2)
  unfold Dev.stages
  dsimp only
  split
  · rfl
  · rw [Dev.R_deliverQ5, runs, Dev.R_onR_same]

/-- The close of an undershoot catch leaves the overshoot one. -/
theorem Dev.catO_catchExpire (d : Dev) (r : Nat) : ((d.catchExpire r false).R r).catO = (d.R r).catO := by
  simp [Dev.catchExpire, Dev.catchEnd, Dev.catO_stages]

/-- A closed undershoot window with no overshoot catch expires alone. -/
theorem devCatchExpired_eq (hU : closed d.now (d.R r).catU (d.rd (RAIL_CATCH_MAX.CATCH_MAX r)) = true) (hO : (d.R r).catO = none) :
    devCatchExpired r d = d.catchExpire r false := by
  unfold devCatchExpired Dev.catchDue
  dsimp only
  rw [if_pos hU, if_neg]
  simp [Dev.catO_catchExpire, hO, closed]

theorem Dev.catU_catchExpire (hsamp : (d.R r).samp = []) : ((d.catchExpire r false).R r).catU = none := by
  simp [Dev.catchExpire, Dev.catchEnd, Dev.stages_of_samp_nil hsamp]

theorem Dev.rs_catchExpire (hsamp : (d.R r).samp = []) : (d.catchExpire r false).rs r = d.rs r := by
  unfold Dev.catchExpire Dev.catchEnd
  dsimp only
  rw [Dev.stages_of_samp_nil hsamp, Dev.rs, Dev.rd_raise, ← Dev.rs, Dev.rs_evt, Dev.rs, Dev.rd_deliverQ5, ← Dev.rs, Dev.rs_catchShow]
  rfl

theorem Dev.testBit_catchExpire (d : Dev) (r : Nat) : ((d.catchExpire r false).rd (RAIL_EVT.EVT r)).testBit 2 = true := by
  rw [Dev.catchExpire, Dev.rd_raise]
  exact Dev.testBit_railEvt _ _ (by decide)

end Sys2Proof.Machine
end

section
/-! PROOFS. Protection, start-up and power-good of a rail (04_rail_loom.md R106, R112-R118; 05_phase_management.md R143): the shape of a
protection event, what each command comes to, and the settlement. -/

namespace Sys2Proof.Machine

variable {d : Dev} {r : Nat}

/-! ## An event of a rail -/

/-- A rail's event: its windows change by `g`, its bit `b` of an event field is set, and a fault of the rail leaves for the selvage. -/
def Dev.railEvent (d : Dev) (r : Nat) (g : RailSt → RailSt) (f : Fld) (b kind access : Nat) : Dev :=
  ((d.onR r g).evt f b).raise kind r (0x40 + r) access

/-- What every such event gives. -/
theorem Dev.fields_railEvent (d : Dev) (r : Nat) (g : RailSt → RailSt) {f : Fld} {b : Nat} (hb : b < f.len) (hf : f.lo + f.len ≤ 32)
    (kind access : Nat) :
    (d.railEvent r g f b kind access).R r = g (d.R r) ∧ ((d.railEvent r g f b kind access).rd f).testBit b = true ∧
    (d.railEvent r g f b kind access).Reports kind r ∧ ∀ o, o ≠ f.off → (d.railEvent r g f b kind access).word o = d.word o := by
  refine ⟨?_, ?_, Dev.reports_raise _ _ _ _ _, fun o ho => ?_⟩
  · rw [Dev.railEvent, Dev.R_raise, Dev.R_evt, Dev.R_onR_same]
  · rw [Dev.railEvent, Dev.rd_raise]
    exact Dev.testBit_evt _ _ _ hb hf
  · rw [Dev.railEvent, Dev.word_raise, Dev.word_evt_ne _ _ _ ho, Dev.word_onR]

/-! ## The end of the re-ranging slot (R112) -/

/-- RAIL_STATUS of a rail that enters RUN in error mode, slewing or not. -/
def Dev.toRun (d : Dev) (r : Nat) (slewing : Bool) : Dev :=
  ((d.wr (RAIL_STATUS.STATE r) Rs.run).wr (RAIL_STATUS.MODE r) 1).wr (RAIL_STATUS.SLEWING r) (b2n slewing)

theorem Dev.rs_toRun (d : Dev) (r : Nat) (b : Bool) : (d.toRun r b).rs r = Rs.run := by
  rw [Dev.rs, Dev.toRun, Dev.rd_wr_apart, Dev.rd_wr_apart, Dev.rd_wr_same]
  · rfl
  all_goals simp [Fld.apart, RAIL_STATUS.STATE, RAIL_STATUS.MODE, RAIL_STATUS.SLEWING]

theorem Dev.slewing_toRun (d : Dev) (r : Nat) (b : Bool) : (d.toRun r b).rd (RAIL_STATUS.SLEWING r) = b2n b := by
  rw [Dev.toRun, Dev.rd_wr_same]
  · cases b <;> rfl
  · simp [RAIL_STATUS.SLEWING]

theorem Dev.mode_toRun (d : Dev) (r : Nat) (b : Bool) : (d.toRun r b).rd (RAIL_STATUS.MODE r) = 1 := by
  rw [Dev.toRun, Dev.rd_wr_apart, Dev.rd_wr_same]
  · rfl
  all_goals simp [Fld.apart, RAIL_STATUS.MODE, RAIL_STATUS.SLEWING]

theorem Dev.word_toRun_ne (d : Dev) (r : Nat) (b : Bool) {o : Nat} (ho : o ≠ (RAIL_STATUS.STATE r).off) :
    (d.toRun r b).word o = d.word o := by
  rw [Dev.toRun, Dev.word_wr_ne _ (RAIL_STATUS.SLEWING r) _ ho, Dev.word_wr_ne _ (RAIL_STATUS.MODE r) _ ho, Dev.word_wr_ne _ _ _ ho]

/-- A rail whose slot ended on tick `k`, within its start-up window, enters RUN, and the slot is over. -/
theorem devRerangeDone_eq {k : Nat} (hk : (d.R r).rerange = some k) (hst : d.rs r = Rs.start) (hle : k ≤ d.now)
    (hover : d.startOver r = false) (hsamp : (d.R r).samp = []) :
    ∃ g : RailSt → RailSt, (∀ x, (g x).rerange = none) ∧
      devRerangeDone r d = (d.toRun r (decide (d.rd (RAIL_VREF.VREF r) ≠ 2000 * d.rd (RAIL_TARGET.TARGET r)))).onR r g := by
  have hother : ∀ f : Fld, f.off ≠ (RAIL_STATUS.STATE r).off →
      ((d.wr (RAIL_STATUS.STATE r) Rs.run).wr (RAIL_STATUS.MODE r) 1).rd f = d.rd f := fun f hf =>
    Dev.rd_congr ((Dev.word_wr_ne _ (RAIL_STATUS.MODE r) 1 hf).trans (d.word_wr_ne _ Rs.run hf))
  unfold devRerangeDone
  rw [hk]
  dsimp only
  rw [if_neg (by simp [hst, hover, hle]), Dev.stages_of_samp_nil hsamp, hother, hother]
  · exact ⟨_, fun _ => rfl, rfl⟩
  all_goals simp only [RAIL_STATUS.STATE, RAIL_VREF.VREF, RAIL_TARGET.TARGET]; omega

/-! ## Power-good (R118, R119) -/

/-- Power-good reads what it was made, whether it changes or not; its frame to the load leaves the registers. -/
theorem Dev.rd_setPg (d : Dev) (r : Nat) (v : Bool) : (d.setPg r v).rd (RAIL_STATUS.PG r) = b2n v := by
  have hwr : (d.wr (RAIL_STATUS.PG r) (b2n v)).rd (RAIL_STATUS.PG r) = b2n v := by
    rw [Dev.rd_wr_same]
    · cases v <;> rfl
    · simp [RAIL_STATUS.PG]
  unfold Dev.setPg
  split
  · assumption
  · dsimp only
    split
    · exact hwr
    · split
      · rw [Dev.rd_ipReady, hwr]
      · exact hwr

theorem Dev.word_setPg_ne (d : Dev) (r : Nat) (v : Bool) {o : Nat} (ho : o ≠ (RAIL_STATUS.PG r).off) :
    (d.setPg r v).word o = d.word o := by
  have hwr : (d.wr (RAIL_STATUS.PG r) (b2n v)).word o = d.word o := d.word_wr_ne _ _ ho
  unfold Dev.setPg
  split
  · rfl
  · dsimp only
    split
    · exact hwr
    · split
      · rw [Dev.word_ipReady, hwr]
      · exact hwr

/-! ## The settlement -/

/-- Settles O22: a catch begins, is released or expires as its comparator and its window say; a protection event changes its window, sets its
bit and is reported; start-up ends in RUN, and power-good follows its windows. -/
theorem railEvents : Obligations.RailEvents := by
  unfold Obligations.RailEvents
  refine ⟨?below, ?belowFirst, ?belowBoth, ?above, ?aboveFirst, ?aboveBoth, ?release, ?expires, ?expired, ?sense, ?ov, ?uv, ?oc, ?timeout,
    ?errorMode, ?rerange, ?pgAssert, ?pgDeassert⟩
  case below =>
    intro d rest r uv huv _ _
    have hdev : devCatchUndershoot r uv.toNat d = d.catchOn r false := if_pos huv
    rw [← hdev]
    rfl
  case belowFirst =>
    intro d rest r uv huv harmed hcmp hother hsamp
    obtain ⟨hR, hevt, hst, hrep⟩ := Dev.catchBegun_catchOn (ovs := false) harmed hcmp hsamp
    refine ⟨devCatchUndershoot r uv.toNat d, rfl, ?_⟩
    rw [devCatchUndershoot, if_pos huv, hR]
    exact ⟨rfl, rfl, by simp [RailSt.caught, hother], hevt, hst, hrep⟩
  case belowBoth =>
    intro d rest r uv huv harmed hcmp hother hsamp
    obtain ⟨hR, hevt, -, hrep⟩ := Dev.catchBegun_catchOn (ovs := false) harmed hcmp hsamp
    refine ⟨devCatchUndershoot r uv.toNat d, rfl, ?_⟩
    rw [devCatchUndershoot, if_pos huv, hR]
    exact ⟨rfl, by simp [RailSt.caught, hother], hevt, hrep⟩
  case above =>
    intro d rest r uv huv _ _
    have hdev : devCatchOvershoot r uv.toNat d = d.catchOn r true := if_pos huv
    rw [← hdev]
    rfl
  case aboveFirst =>
    intro d rest r uv huv harmed hcmp hother hsamp
    obtain ⟨hR, hevt, hst, hrep⟩ := Dev.catchBegun_catchOn (ovs := true) harmed hcmp hsamp
    refine ⟨devCatchOvershoot r uv.toNat d, rfl, ?_⟩
    rw [devCatchOvershoot, if_pos huv, hR]
    exact ⟨rfl, rfl, by simp [RailSt.caught, hother], hevt, hst, hrep⟩
  case aboveBoth =>
    intro d rest r uv huv harmed hcmp hother hsamp
    obtain ⟨hR, hevt, -, hrep⟩ := Dev.catchBegun_catchOn (ovs := true) harmed hcmp hsamp
    refine ⟨devCatchOvershoot r uv.toNat d, rfl, ?_⟩
    rw [devCatchOvershoot, if_pos huv, hR]
    exact ⟨rfl, by simp [RailSt.caught, hother], hevt, hrep⟩
  case release =>
    intro d rest r ovs uv hfree hboth hU hO
    refine ⟨devCatchRelease r ovs uv.toNat d, rfl, ?_⟩
    rw [devCatchRelease, if_pos hfree, Dev.cmpLow_of_idle hboth hU hO, Dev.R_onR_same]
    cases ovs <;> exact ⟨rfl, rfl, rfl⟩
  case expires =>
    intro d rest r hU hO
    rw [← devCatchExpired_eq hU hO]
    rfl
  case expired =>
    intro d rest r hU hO hsamp
    refine ⟨devCatchExpired r d, rfl, ?_⟩
    rw [devCatchExpired_eq hU hO]
    exact ⟨Dev.catU_catchExpire hsamp, Dev.testBit_catchExpire _ _, Dev.rs_catchExpire hsamp, Dev.reports_raise _ _ _ _ _⟩
  case sense =>
    intro d rest r hboth
    refine ⟨devSense r d, rfl, ?_⟩
    obtain ⟨hR, hevt, hrep, hword⟩ := d.fields_railEvent r (fun x => { x with both := none }) (f := RAIL_EVT.EVT r) (b := 6)
      (by simp [RAIL_EVT.EVT]) (by simp [RAIL_EVT.EVT]) 0x34 0
    rw [devSense, if_pos hboth, ← Dev.railEvent, hR]
    exact ⟨rfl, hevt, hrep, hword⟩
  case ov =>
    intro d rest r uv hlive huv
    refine ⟨devRailOv r uv.toNat d, rfl, ?_⟩
    obtain ⟨hR, hevt, hrep, hword⟩ := d.fields_railEvent r (fun x => { x with ovTrip := true }) (f := RAIL_EVT.EVT r) (b := 3)
      (by simp [RAIL_EVT.EVT]) (by simp [RAIL_EVT.EVT]) 0x30 0
    rw [devRailOv, if_pos huv, Dev.ovHigh, if_pos hlive, ← Dev.railEvent, hR]
    exact ⟨rfl, hevt, hrep, hword⟩
  case uv =>
    intro d rest r hst huv
    refine ⟨devRailUv r d, rfl, ?_⟩
    obtain ⟨hR, hevt, hrep, hword⟩ := d.fields_railEvent r (fun x => { x with uv := none }) (f := RAIL_EVT.EVT r) (b := 4)
      (by simp [RAIL_EVT.EVT]) (by simp [RAIL_EVT.EVT]) 0x31 6
    rw [devRailUv, if_pos ⟨hst, huv⟩, ← Dev.railEvent, hR]
    exact ⟨rfl, hevt, hrep, hword⟩
  case oc =>
    intro d rest r hlive hoc
    refine ⟨devRailOc r d, rfl, ?_⟩
    obtain ⟨hR, hevt, hrep, hword⟩ := d.fields_railEvent r (fun x => { x with ocW := none }) (f := RPH_EVT.EVT r) (b := 3)
      (by simp [RPH_EVT.EVT]) (by simp [RPH_EVT.EVT]) 0x32 6
    rw [devRailOc, if_pos ⟨hlive, hoc⟩, ← Dev.railEvent, hR]
    exact ⟨rfl, hevt, hrep, hword⟩
  case timeout =>
    intro d rest r hover hout
    refine ⟨devStartTimeout r d, rfl, ?_⟩
    obtain ⟨hR, hevt, hrep, hword⟩ := d.fields_railEvent r (fun x => { x with ssOut := true }) (f := RAIL_EVT.EVT r) (b := 5)
      (by simp [RAIL_EVT.EVT]) (by simp [RAIL_EVT.EVT]) 0x33 0
    rw [devStartTimeout, if_pos ⟨hover, by simp [hout]⟩, ← Dev.railEvent, hR]
    exact ⟨rfl, hevt, hrep, hword⟩
  case errorMode =>
    intro d rest r k hst hdue hle hre hsamp
    have hdev : devErrorModeSwitch r d = d.onR r fun x => { x with rerange := some (k + 32) } := by
      simp [devErrorModeSwitch, hdue, hst, hle, hre, Dev.stages_of_samp_nil hsamp]
    refine ⟨devErrorModeSwitch r d, rfl, ?_⟩
    rw [hdev, Dev.R_onR_same]
    exact ⟨rfl, rfl, fun n hn => d.R_onR_ne hn _⟩
  case rerange =>
    intro d rest r k hk hst hle hover hsamp
    obtain ⟨g, hg, hdev⟩ := devRerangeDone_eq hk hst hle hover hsamp
    refine ⟨devRerangeDone r d, rfl, ?_⟩
    rw [hdev, Dev.rs, Dev.rd_onR, ← Dev.rs, Dev.rd_onR, Dev.rd_onR, Dev.R_onR_same]
    exact ⟨Dev.rs_toRun _ _ _, Dev.slewing_toRun _ _ _, Dev.mode_toRun _ _ _, hg _,
      fun o ho => (Dev.word_onR _ _ _ _).trans (Dev.word_toRun_ne _ _ _ ho)⟩
  case pgAssert =>
    intro d rest r hst hon
    refine ⟨devPgAssert r d, rfl, ?_⟩
    rw [devPgAssert, if_pos ⟨hst, hon⟩, Dev.R_setPg, Dev.R_onR_same]
    exact ⟨Dev.rd_setPg _ _ _, rfl, fun o ho => Dev.word_setPg_ne _ _ _ ho⟩
  case pgDeassert =>
    intro d rest r hst hoff
    refine ⟨devPgDeassert r d, rfl, ?_⟩
    rw [devPgDeassert, if_pos ⟨hst, hoff⟩, Dev.R_setPg, Dev.R_onR_same]
    exact ⟨Dev.rd_setPg _ _ _, rfl, fun o ho => Dev.word_setPg_ne _ _ _ ho⟩

end Sys2Proof.Machine
end

section
/-! PROOFS. A rotation that starts its count of boundaries afresh (05_phase_management.md R138), and a RAIL_ENABLE on the tick of a write of
RAIL_CFG, which it does not sample (17_register_map.md R453): two states in which a command leaves another value than its statement says. -/

namespace Sys2Proof.Machine

/-- Rail 0 is in RUN under the heddle, with thermal rotation at every boundary, and its period counter wraps on this tick. Phase 0 is in
service and carries the load alone; phase 1 is IDLE. -/
def rotationDue : Dev :=
  let d : Dev := { clk := { hub := true, now := 1000 }, rail := [(0, { t0 := some 0, strat := 2, effNow := [1] })],
                   ph := [(0, { rail := some 0, active := true }), (1, { rail := some 0 })] }
  ((((((d.wr (RAIL_STATUS.STATE 0) Rs.run).wr (RAIL_PERIOD.PERIOD 0) 4000).wr (PH_CFG.MIN_PHASES 0) 1).wr (PH_CFG.ROT_EN 0) 1).wr
    (ROT_CFG.ROT_PERIOD 0) 1).wr (PH_STATE.STATE 0) Ps.active).wr (PH_STATE.STATE 1) Ps.idle

/-- The boundary finds the rotation due and counts from 0 again. -/
theorem rotN_devSwitchingPeriodBoundary_rotationDue : ((devSwitchingPeriodBoundary 0 rotationDue).R 0).rotN = 0 := by decide +kernel

/-- Refutes O23: its clause for a boundary of a rail that switches counts every boundary, one at which a rotation is due too. There R138
counts from 0 again, so the count is 0 after the boundary and not one more than before it. -/
theorem not_railSamples : ¬ Obligations.RailSamples := by
  unfold Obligations.RailSamples
  rintro ⟨-, -, -, -, -, -, -, hboundary, -⟩
  obtain ⟨t, ht, -, -, -, hcount, -⟩ := hboundary rotationDue [] 0 32000 (by decide +kernel) (by decide +kernel) (by decide +kernel)
    (by decide +kernel) (by decide +kernel)
  have hzero : (t.R 0).rotN = 0 := by
    rw [← of_exec_eq_next (f := devSwitchingPeriodBoundary 0) (fun _ _ => rfl) ht]
    exact rotN_devSwitchingPeriodBoundary_rotationDue
  exact absurd (hcount.symm.trans hzero) (Nat.succ_ne_zero _)

/-- Rail 0 is OFF in RUN, with the one phase it needs IDLE and fed by a branch that is ON; on this very tick the host has written
STRATEGY 2 over STRATEGY 0. -/
def strategyWritten : Dev :=
  let d : Dev := { clk := { hub := true, now := 1000 }, ph := [(0, { rail := some 0 })] }
  let d := (((d.wr MODE_STATUS.MODE Md.run).wr (PH_CFG.MIN_PHASES 0) 1).wr (PH_STATE.STATE 0) Ps.idle).wr (BR_STATUS.STATE 0) Ec.on
  let d := d.setWord 0x10C400 0x80
  (d.swNote (RAIL_CFG.STRATEGY 0).off 0 (d.word (RAIL_CFG.STRATEGY 0).off)).wr (RAIL_CFG.STRATEGY 0) 2

/-- A RAIL_ENABLE of rail 0. -/
def enableRail0 : Desc := { src := .host 2, tag := 7, cls := 1, idx := 0, payload := List.replicate 48 0 }

/-- A well-formed RAIL_ENABLE answers the block that `devRailEnable` gives, with the queue as it was. -/
theorem exec_railEnable {x : Desc} (hx : x.wf = true) (d : Dev) (rest : List Instr) :
    exec (.railEnable x) ⟨d, rest⟩ = .next ⟨devRailEnable x d, rest⟩ := if_pos hx

/-- The rail starts with the strategy from before the write. -/
theorem strat_devRailEnable_strategyWritten : ((devRailEnable enableRail0 strategyWritten).R 0).strat = 0 := by decide +kernel

/-- Refutes O27: its clause for RAIL_ENABLE gives the rail the STRATEGY that RAIL_CFG holds, written on the same tick or not. A write of
that tick is not sampled (R453), so the rail takes the strategy from before it. -/
theorem not_railCommands : ¬ Obligations.RailCommands := by
  unfold Obligations.RailCommands
  rintro ⟨-, -, henable, -⟩
  obtain ⟨t, ht, -, -, -, hstrat, -⟩ := henable strategyWritten [] enableRail0 0 (by decide +kernel) (by decide +kernel) rfl
    (by decide +kernel) (by decide +kernel) (by decide +kernel) (by decide +kernel) (by decide +kernel)
  rw [← of_exec_eq_next (exec_railEnable (by decide)) ht, strat_devRailEnable_strategyWritten] at hstrat
  exact absurd hstrat (by decide +kernel)

end Sys2Proof.Machine
end

section
/-! PROOFS. A phase whose rail has no registers of its own (05_phase_management.md R123, R125, R143): a state in which the rail's
scaled current limit takes the event bit of a trip away. -/

namespace Sys2Proof.Machine

/-- Phase 14 is IDLE in the warp of a rail 64. A rail's registers are 0x200 bytes, so those of a rail 64 would lie upon the phases', and
PH_ILIM_EFF of the rail is the word of PH_EVT of the phase. -/
def railBeyondLoom : Dev :=
  let d : Dev := { clk := { hub := true, now := 1000 }, ph := [(14, { rail := some 64 })] }
  d.wr (PH_STATE.STATE 14) Ps.idle

/-- The trip sets the bit of its cause; then the rail's scaled current limit, 0, is written over it. -/
theorem rdBit_evt_devPhFuse_railBeyondLoom : (devPhFuse 14 railBeyondLoom).rdBit (PH_EVT.EVT 14) 1 = false := by decide +kernel

/-- Refutes O20: its clauses take any rail number, one at or above 64 too. In the warp of a rail 64, phase 14 loses the event bit of its FUSE
trip to the I_LIM_EFF that is written as the phase is withdrawn (R143), so PH_EVT does not show the cause. No run from reset comes there:
a rail number has 6 bits, and the exit from CONFIGURE assigns phases to rails 0 to 63 alone (R127). -/
theorem not_phaseTrips : ¬ Obligations.PhaseTrips := by
  unfold Obligations.PhaseTrips
  rintro ⟨-, -, -, -, -, -, -, hfuse, -⟩
  obtain ⟨t, ht, -, -, -, hevt, -⟩ := hfuse railBeyondLoom [] 14 64 (by decide +kernel) (by decide +kernel) (by decide +kernel)
    (by decide +kernel) (by decide +kernel)
  have hlost : t.rdBit (PH_EVT.EVT 14) 1 = false := by
    rw [← of_exec_eq_next (f := devPhFuse 14) (fun _ _ => rfl) ht]
    exact rdBit_evt_devPhFuse_railBeyondLoom
  exact absurd (hevt.symm.trans hlost) (by decide)

end Sys2Proof.Machine
end

section
/-! PROOFS. The end of a pre-charge (06_load_intent.md R165), and a HALT on the tick on which the core's watchdog window closes
(15_mograthes_cores.md R422, R426): two states in which a command leaves another value than its statement says. -/

namespace Sys2Proof.Machine

/-! ## The end of a pre-charge (R165) -/

/-- A pre-charge that runs up to its T_step ends with u_int at 0, where no sample of the rail is in flight. -/
theorem spec_devSpecPrechargeEnd {d : Dev} {r : Nat} {s : SpecSt} (hspec : (d.R r).spec = some s) (hon : s.pcOn = true)
    (hstep : s.tStep ≤ d.now) (hsamp : (d.R r).samp = []) :
    ((devSpecPrechargeEnd r d).R r).spec = some { s with pcOn := false, u := 0 } := by
  unfold devSpecPrechargeEnd
  rw [hspec]
  dsimp only
  rw [if_neg (by simp [hon, hstep]), Dev.stages_of_samp_nil hsamp, Dev.R_wr, Dev.onSpec, Dev.R_onR_same, hspec]
  rfl

/-- An open speculation of +0.75 A whose step is announced for tick 1000; its
pre-charge applies u_int = 100 × DI. -/
def prechargedSpec : SpecSt := { opn := true, di := 3, tStep := 1000, tOpen := 900, tClose := 2000, pcOn := true, u := 300 }

/-- Rail 5, with STRATEGY 0b01 and FF_GAIN 100, holds that speculation, and tick 1000 has come. -/
def prechargeEnding : Dev :=
  let d : Dev := { clk := { hub := true, now := 1000 }, rail := [(5, { strat := 1, spec := some prechargedSpec })] }
  d.wr (SPEC_FF.FF_GAIN 5) 100

/-- Refutes O25: its clause for the end of a pre-charge lets the speculation keep u_int and changes `pcOn` alone. R165 makes u_int 0
outside the window, and so does the command, so a pre-charge that ends with u_int other than 0 leaves another speculation than the clause
says. -/
theorem not_intentEvents : ¬ Obligations.IntentEvents := by
  unfold Obligations.IntentEvents
  rintro ⟨-, -, -, -, hend, -⟩
  obtain ⟨t, ht, hkept, -⟩ := hend prechargeEnding [] 5 prechargedSpec rfl rfl (by decide)
  have hzero : (t.R 5).spec = some { prechargedSpec with pcOn := false, u := 0 } := by
    rw [← of_exec_eq_next (f := devSpecPrechargeEnd 5) (fun _ _ => rfl) ht]
    exact spec_devSpecPrechargeEnd rfl rfl (by decide) rfl
  exact absurd (hkept.symm.trans hzero) (by decide)

/-! ## A HALT as the watchdog window closes (R422, R426) -/

/-- A HALT that is let through, to a core whose watchdog window has closed, comes to the lockup alone. -/
theorem devCoreCtlHalt_of_wdtOver {d : Dev} {a : Agent} {c : Nat} (hreach : d.reaches a.toNat (0xD008 + 0x40 * c) = true)
    (hmd : d.md = Md.configure) (hbusy : d.coreBusy c = true) (hover : d.wdtOver c = true) : devCoreCtlHalt a c d = d.lockup c := by
  rw [devCoreCtlHalt, Dev.coreCtl, Dev.reach, if_pos hreach, if_pos (.inl hmd), Dev.unlessLocked, if_pos ⟨hbusy, hover⟩]

/-- In CONFIGURE core 3 has run since tick 200 with its watchdog on and never kicked, PERIOD 800; tick 1000 closes the window. -/
def watchdogClosing : Dev :=
  let d : Dev := { clk := { hub := true, now := 1000 }, core := [(3, { ran := some 200, wdt := some 200 })] }
  (((d.wr MODE_STATUS.MODE Md.configure).wr (CORE_CFG.WDT_EN 3) 1).wr (CORE_WDT.PERIOD 3) 800).wr (CORE_STATUS.STATE 3) Ks.running

/-- The lockup fences the core. -/
theorem ks_lockup_watchdogClosing : (watchdogClosing.lockup 3).ks 3 = Ks.fenced := by decide +kernel

/-- Refutes O47: its clause for HALT takes any running or waiting core, one whose watchdog window closes on this tick too. Such a core is
fenced, which precedes the halt (R422), so its state is FENCED and not HALTED. -/
theorem not_registerStarts : ¬ Obligations.RegisterStarts := by
  unfold Obligations.RegisterStarts
  rintro ⟨-, -, -, -, -, -, -, -, -, -, -, -, -, -, hhalt, -⟩
  have hreach : watchdogClosing.reaches (0 : Agent).toNat (0xD008 + 0x40 * 3) = true := by decide +kernel
  have hmd : watchdogClosing.md = Md.configure := by decide +kernel
  have hbusy : watchdogClosing.coreBusy 3 = true := by decide +kernel
  obtain ⟨t, ht, hhalted, -⟩ := hhalt watchdogClosing [] 0 3 hreach rfl hmd hbusy
  have hfenced : t.ks 3 = Ks.fenced := by
    rw [← of_exec_eq_next (f := devCoreCtlHalt 0 3) (fun _ _ => rfl) ht,
      devCoreCtlHalt_of_wdtOver hreach hmd hbusy (by decide +kernel)]
    exact ks_lockup_watchdogClosing
  exact absurd (hhalted.symm.trans hfenced) (by decide)

end Sys2Proof.Machine
end

section
/-! PROOFS. Two scan converters that trigger each other (07_conversion.md R204), the OCV table with damage that its code does not see
(08_battery_estimation.md R224; 16_memory_protection.md R434), and a FENCE marker that waits for an archive page (12_host_rings.md R343,
R346): three states in which a command leaves another value than its statement says. -/

namespace Sys2Proof.Machine

/-! ## Passes that trigger each other (R204) -/

/-- The sequencers of SCV 0 and SCV 1, each with ONCE, are triggered by the end of the other's pass (TRIG_SRC 0x09 and 0x08). Both have made
the last conversion of a pass, and tick 1000 is t_e of both passes. -/
def crossTriggered : Dev :=
  let d : Dev := { clk := { hub := true, now := 1000 } }
  let d := (d.onSQ 0 fun x => { x with pass := some 40, passDone := true, tEnd := 1000 }).onSQ 1 fun x =>
    { x with pass := some 40, passDone := true, tEnd := 1000 }
  let d := ((d.wr (SEQ_CFG.MODE 0) 2).wr (SEQ_CFG.ONCE 0) 1).wr (SEQ_CFG.TRIG_SRC 0) 9
  ((d.wr (SEQ_CFG.MODE 1) 2).wr (SEQ_CFG.ONCE 1) 1).wr (SEQ_CFG.TRIG_SRC 1) 8

/-- The end of the pass of SCV 0 triggers SCV 1, whose pass ends too and triggers SCV 0 again: a new pass of SCV 0 is in progress. -/
theorem pass_devSeqPassEnd_crossTriggered : ((devSeqPassEnd 0 crossTriggered).SQ 0).pass = some 1000 := by decide +kernel

/-- Refutes O41: its clause for the end of a pass leaves the sequencer without a pass wherever TRIG_SRC does not name its own SCV. TRIG_SRC
may name an SCV that its own end of pass triggers. Where the pass of that one ends on the same tick, its end-of-pass source fires at t_e
(R204) and starts the next pass of the first on that tick. -/
theorem not_converterCommands : ¬ Obligations.ConverterCommands := by
  unfold Obligations.ConverterCommands
  rintro ⟨-, -, -, -, -, -, -, hpassEnd, -⟩
  obtain ⟨t, ht, hidle, -⟩ := hpassEnd crossTriggered [] 0 (by decide +kernel) (by decide +kernel) (by decide +kernel) (by decide +kernel)
  have hpass : (t.SQ 0).pass = some 1000 := by
    rw [← of_exec_eq_next (f := devSeqPassEnd 0) (fun _ _ => rfl) ht]
    exact pass_devSeqPassEnd_crossTriggered
  exact absurd (hidle.symm.trans hpass) (by decide)

/-! ## Damage that the code does not see (R434) -/

/-- A pack at 0 C that has settled for 200 periods, with every point of its OCV table 0. Four stored bits of the first granule of copy A are
inverted, at the corners of rows 0, 1 and columns 0, 1: both syndromes are 0, and point 0 of row 0 reads 771 mV. -/
def damagedOcv : Dev :=
  { clk := { hub := true, now := 1000 }, sage := [(0, { settle := some 0, per := 200, temp := 0 })],
    mem := { err := [(granKey 0x92 0, 0x303)] } }

/-- With the words in use before the read, a pack at 0 V is full; with the words that the read gives, it is empty. -/
theorem soc_devSageSettlingEnd_damagedOcv :
    damagedOcv.socOf 0 (damagedOcv.vCorr 0) (damagedOcv.SG 0).temp = fInt 1 ∧ ((devSageSettlingEnd 0 damagedOcv).SG 0).soc = 0 := by
  decide +kernel

/-- Refutes O42: its clause for the end of settling takes SoC(V_CORR, T) from the OCV table as it stands before the command, in a memory with
damage too. The Sage reads the table first, and four bits at the corners of a rectangle decode as clean (R434), so the damaged points come
into use and give another first estimate. -/
theorem not_sageCommands : ¬ Obligations.SageCommands := by
  unfold Obligations.SageCommands
  rintro ⟨-, -, hsettled, -⟩
  obtain ⟨t, ht, -, -, -, -, -, hsoc⟩ := hsettled damagedOcv [] 0 0 (by decide) (by decide)
  obtain ⟨hfull, hempty⟩ := soc_devSageSettlingEnd_damagedOcv
  rw [← of_exec_eq_next (f := devSageSettlingEnd 0) (fun _ _ => rfl) ht] at hsoc
  exact absurd ((hempty.symm.trans hsoc).trans hfull) (by decide +kernel)

/-! ## A marker that waits for an archive page (R346) -/

/-- The pool of archive pages is empty, page 3 is reported, and the placed marker of a FENCE waits for room in the archive output of
thread 5. -/
def markerWaiting : Dev :=
  { clk := { hub := true, now := 1000 },
    host := { rep := [3], fences := [{ id := 4, src := .host 3, tag := 7, rings := [], vcs := [], arch := true, archs := [5], flush := false,
                                       tw := some 900, placed := true }] } }

/-- The archive doorbell that returns one page. -/
def returnPage : Doorbell := { off := 0xC0000, data := 0x100000180, whole := true }

/-- The marker takes the page that comes back. -/
theorem pool_devDoorbellArchive_markerWaiting : (devDoorbellArchive returnPage markerWaiting).host.pool = [] := by decide +kernel

/-- Refutes O45: its clause for the archive doorbell leaves every page that comes back in the pool. A FENCE marker that waits for room in the
archive is written as soon as the host gives room (R346), and the spool takes a page from the pool for it (R343). -/
theorem not_ringControl : ¬ Obligations.RingControl := by
  unfold Obligations.RingControl
  rintro ⟨-, -, -, -, -, -, -, -, harchive, -⟩
  obtain ⟨t, ht, hpool, -⟩ := harchive markerWaiting [] returnPage rfl (by decide +kernel) (by decide +kernel) (by decide +kernel)
    (by decide)
  have hempty : t.host.pool = [] := by
    rw [← of_exec_eq_next (f := devDoorbellArchive returnPage) (fun _ _ => rfl) ht]
    exact pool_devDoorbellArchive_markerWaiting
  exact absurd (hpool.symm.trans hempty) (by decide +kernel)

end Sys2Proof.Machine
end

section
/-! PROOFS. Commands to a pack (08_battery_estimation.md R243; 12_host_rings.md R322, R323): which descriptors are outstanding after one
takes effect, and a ring at its limit with the next descriptor number in use, which lets a PACK_READ begin that nothing waits for. -/

namespace Sys2Proof.Machine

/-! ## The outstanding descriptors (R322) -/

/-- A descriptor that begins is marked; which descriptors are outstanding does not change with that. -/
theorem Dev.outDescs_begin (d : Dev) (opc : Nat) (x : Desc) :
    (d.begin opc x).1.host.out.map Out.d = (d.enter opc x).1.host.out.map Out.d := by
  rw [Dev.begin, List.map_map]
  refine List.map_congr_left fun o _ => ?_
  dsimp only [Function.comp_apply]
  split <;> rfl

@[simp] theorem Dev.out_take (d : Dev) (opc : Nat) (x : Desc) : (d.take opc x).host.out = d.host.out := by
  unfold Dev.take
  split <;> rfl

/-- Whatever a descriptor comes to, refused, waiting or complete, it leaves the descriptors outstanding that stood there as it began,
where its own rule does so. -/
theorem Dev.outDescs_runDesc (d : Dev) (opc : Nat) (x : Desc) (want : Option Nat) (safeOk : Bool) (dom : Option Nat)
    {body : Dev → Token → Dev × Option Nat} (hbody : ∀ e tok, (body e tok).1.host.out.map Out.d = e.host.out.map Out.d) :
    (d.runDesc opc x want safeOk dom body).host.out.map Out.d = (d.begin opc x).1.host.out.map Out.d := by
  have hrule := hbody ((d.begin opc x).1.take opc x) (.out (d.begin opc x).2)
  rw [Dev.out_take] at hrule
  rw [Dev.runDesc]
  split
  case isTrue => exact (d.outDescs_begin opc x).symm
  case isFalse =>
    unfold Dev.runNow
    dsimp only
    repeat' split
    all_goals simp [hrule]

/-- A PACK_READ adds no descriptor of its own: it waits as one of those that stood there as it began. -/
theorem outDescs_devPackRead (x : Desc) (d : Dev) :
    (devPackRead x d).host.out.map Out.d = (d.begin 0x31 x).1.host.out.map Out.d := by
  refine d.outDescs_runDesc 0x31 x (some 0) true (some 3) fun e tok => ?_
  dsimp only
  split
  · rfl
  · split <;> rfl

theorem Dev.Waits.mem_outDescs {d : Dev} {x : Desc} (h : d.Waits x) : x ∈ d.host.out.map Out.d := by
  obtain ⟨o, ho, rfl, -⟩ := h
  exact List.mem_map_of_mem ho

/-! ## A ring at its limit (R322) -/

section
variable {d : Dev} {x : Desc} (hroom : d.outRoom x.src = false) (hbegun : ∀ o ∈ d.host.out, o.begun = true)
include hroom hbegun

/-- Where every outstanding descriptor has begun and there is room for no more, none is fetched; the number is the next one all the same. -/
theorem Dev.enter_of_noRoom (opc : Nat) : d.enter opc x = (d, d.host.nextId) := by
  have hfind : (d.host.out.find? fun o => o.opc == opc && decide (o.d = x) && !o.begun && o.result.isNone) = none :=
    List.find?_eq_none.2 fun o ho => by simp [hbegun o ho]
  rw [Dev.enter, hfind]
  exact if_pos (by simp [hroom])

theorem Dev.begin_of_noRoom (opc : Nat) : d.begin opc x = (d, d.host.nextId) := by
  have hmark : (d.host.out.map fun p => if p.id = d.host.nextId then { p with begun := true } else p) = d.host.out := by
    refine (List.map_congr_left fun o ho => ?_).trans (List.map_id _)
    rw [← hbegun o ho]
    exact ite_self o
  rw [Dev.begin, Dev.enter_of_noRoom hroom hbegun]
  dsimp only
  rw [hmark]

/-- A number in use counts as a descriptor that is there, so it is not held back where none outstanding has a lower number and none has
taken effect. -/
theorem Dev.blocked_of_noRoom (hid : ∃ o ∈ d.host.out, o.id = d.host.nextId) (hlow : ∀ o ∈ d.host.out, d.host.nextId ≤ o.id)
    (htook : d.host.took = []) (opc : Nat) : d.blocked opc x = false := by
  have hrank : d.outranked opc x = false := by
    unfold Dev.outranked
    split
    · rfl
    · simp [htook]
  have hnone : (d.host.out.any fun o => decide (o.d.src = x.src ∧ o.id < d.host.nextId) && o.result.isNone &&
      descUnit o.opc o.d == descUnit opc x) = false :=
    List.any_eq_false.2 fun o ho => by simp [Nat.not_lt.2 (hlow o ho)]
  have hthere : (d.host.out.any fun o => o.id == d.host.nextId) = true := by simpa using hid
  rw [Dev.blocked, Dev.enter_of_noRoom hroom hbegun]
  simp only [hthere, hrank, hnone, Bool.not_true, Bool.or_false, Bool.and_false]

end

/-! ## A PACK_READ that nothing waits for (R243) -/

/-- A PACK_READ of pack 0 from host ring 2 with tag 7. -/
def readPack0 : Desc := { src := .host 2, tag := 7, cls := 0, idx := 0, payload := List.replicate 48 0 }

/-- With the hub in service, 1,024 NOPs of host ring 2 with tag 8 are outstanding, and the number of each is the next one. -/
def nopsOutstanding : Dev := { numberInUse otherNop 1024 with clk := { hub := true } }

theorem eq_otherNop_of_mem {o : Out} (ho : o ∈ nopsOutstanding.host.out) : o = otherNop := List.eq_of_mem_replicate ho

theorem otherNop_mem : otherNop ∈ nopsOutstanding.host.out := List.mem_replicate.2 ⟨by decide, rfl⟩

theorem outRoom_nopsOutstanding : nopsOutstanding.outRoom readPack0.src = false := by
  simp [Dev.outRoom, nopsOutstanding, numberInUse, otherNop, nopDesc, readPack0, -List.reduceReplicate]

theorem begun_nopsOutstanding : ∀ o ∈ nopsOutstanding.host.out, o.begun = true := fun _ ho => eq_otherNop_of_mem ho ▸ rfl

theorem begin_readPack0 : nopsOutstanding.begin 0x31 readPack0 = (nopsOutstanding, 0) :=
  Dev.begin_of_noRoom outRoom_nopsOutstanding begun_nopsOutstanding 0x31

theorem blocked_readPack0 : nopsOutstanding.blocked 0x31 readPack0 = false :=
  Dev.blocked_of_noRoom outRoom_nopsOutstanding begun_nopsOutstanding ⟨otherNop, otherNop_mem, rfl⟩ (fun _ _ => Nat.zero_le _) rfl 0x31

/-- The descriptors outstanding after the PACK_READ are NOPs with tag 8, as before, so it is not among those that wait. -/
theorem not_waits_devPackRead_readPack0 : ¬ (devPackRead readPack0 nopsOutstanding).Waits readPack0 := by
  intro h
  have hmem := h.mem_outDescs
  rw [outDescs_devPackRead, begin_readPack0] at hmem
  obtain ⟨o, ho, hd⟩ := List.mem_map.1 hmem
  rw [eq_otherNop_of_mem ho] at hd
  exact absurd hd (by decide)

/-- A well-formed PACK_READ answers the block that `devPackRead` gives, with the queue as it was. -/
theorem exec_packRead {x : Desc} (hx : x.wf = true) (d : Dev) (rest : List Instr) :
    exec (.packRead x) ⟨d, rest⟩ = .next ⟨devPackRead x d, rest⟩ := if_pos hx

/-- Refutes O29: its clauses take any block, one whose next descriptor number is in use too. With 1,024 descriptors of the ring outstanding
under that number, all of them NOPs with tag 8, a PACK_READ with tag 7 meets every premise and asks for its record, and no descriptor
with tag 7 waits: the ring has no room for it. No run from reset comes there, since each new descriptor counts the number on (R322,
R323). -/
theorem not_packCommands : ¬ Obligations.PackCommands := by
  unfold Obligations.PackCommands
  rintro ⟨-, hread⟩
  have hpass : (nopsOutstanding.begin 0x31 readPack0).1.passes readPack0 (some 0) true (some 3) = true := by
    rw [begin_readPack0]
    decide +kernel
  have hlink : (nopsOutstanding.begin 0x31 readPack0).1.linkUp 7 = true := by
    rw [begin_readPack0]
    decide
  obtain ⟨t, ht, -, -, hwaits⟩ := hread nopsOutstanding [] readPack0 0 blocked_readPack0 hpass (by decide) (by decide) (by decide) hlink
  rw [← of_exec_eq_next (exec_packRead (by decide)) ht] at hwaits
  exact not_waits_devPackRead_readPack0 hwaits

end Sys2Proof.Machine
end

section
/-! PROOFS. An acknowledgement on the tick of a further occurrence (09_faults.md R262), and the hardwired path while a fault of the tick
carries SPEC (09_faults.md R251; 06_load_intent.md R170, R172): two states in which a command leaves another value than its statement
says. -/

namespace Sys2Proof.Machine

/-! ## An occurrence on the tick of its record's acknowledgement (R262) -/

/-- A LINK_ERROR of hub link 2 (class 0x84002) at L1, stamped 1000. -/
def linkErrorMsg : FMsg := { kind := 0x84, unit := 2, agent := 0xEE, access := 0, aspace := 3, addr := 2, stamp := 1000, level := 1 }

/-- In RUN, slot 5 holds the record of that class with COUNT 1, its first occurrence stamped 900; on tick 1000 a second one waits for the
selvage. -/
def recurringNow : Dev :=
  let m : FMsg := { linkErrorMsg with stamp := 900 }
  let d : Dev := { clk := { hub := true, now := 1000 }, flt := { msgs := [linkErrorMsg] } }
  (d.wr MODE_STATUS.MODE Md.run).forN 8 fun d k => d.wr (SLOT.WORD 5 k) ((recordWords m 1 1 1 5 0 false false).getD k 0)

/-- A FAULT_ACK from host ring 2 of slot 5 with class 0x84002, COUNT 1 and FORCE 0. -/
def ackSlot5 : Desc :=
  { src := .host 2, tag := 7, cls := 0, idx := 0, payload := [5, 0, 0, 0, 0x02, 0x40, 0x08, 0, 1, 0] ++ List.replicate 38 0 }

/-- A well-formed FAULT_ACK answers the block that `devFaultAck` gives, with the queue as it was. -/
theorem exec_faultAck {x : Desc} (hx : x.wf = true) (d : Dev) (rest : List Instr) :
    exec (.faultAck x) ⟨d, rest⟩ = .next ⟨devFaultAck x d, rest⟩ := if_pos hx

/-- The second occurrence merges first, so COUNT is 2 by the check, and the record stays. -/
theorem slotUsed_devFaultAck_recurringNow : (devFaultAck ackSlot5 recurringNow).slotUsed 5 = true := by decide +kernel

/-- Refutes O30: its clause for FAULT_ACK frees any record whose COUNT, as the command finds it, is the one the host has seen, one with a
further occurrence of its class waiting on this tick too. That occurrence merges before the check, so a COUNT read before it yields
FAULT_MOVED (R262), and the record stays in its slot. -/
theorem not_faultCommands : ¬ Obligations.FaultCommands := by
  unfold Obligations.FaultCommands
  rintro ⟨hack, -⟩
  obtain ⟨t, ht, hfree, -⟩ := hack recurringNow [] ackSlot5 5 (by decide +kernel) (by decide +kernel) (by decide) (by decide) (by decide)
    (by decide) (by decide) (by decide +kernel) (by decide +kernel) (by decide +kernel) (by decide +kernel) (.inl (by decide +kernel))
  rw [← of_exec_eq_next (exec_faultAck (by decide)) ht, slotUsed_devFaultAck_recurringNow] at hfree
  exact Bool.noConfusion hfree

/-! ## SAFE entry on the tick of a fault that carries SPEC (R170, R172) -/

/-- A RAIL_UV of rail 5 at L3, stamped 1000 inside a speculation of the rail. -/
def specUv : FMsg :=
  { kind := 0x31, unit := 5, agent := 0x45, access := 6, aspace := 3, addr := 5, stamp := 1000, level := 3, spec := true }

/-- In RUN with rail 5 in RUN under a speculation open since tick 900, that fault waits for the selvage on tick 1000. -/
def faultedInSpec : Dev :=
  let d : Dev := { clk := { hub := true, now := 1000 }, flt := { msgs := [specUv] },
                   rail := [(5, { spec := some { opn := true, tAcc := 900, tStep := 1100, tOpen := 1000, tClose := 2000 } })] }
  ((d.wr MODE_STATUS.MODE Md.run).wr (RAIL_STATUS.STATE 5) Rs.run).wr (PEND_STATE.PHASE 5) 1

/-- SAFE entry ends the speculation on the tick, so the fault is stamped outside it and loses SPEC. -/
theorem msgs_devLockstep_faultedInSpec : (devLockstep faultedInSpec).flt.msgs = [{ specUv with spec := false }] := by decide +kernel

/-- Refutes O40: its clause for LOCKSTEP leaves the fault messages that wait as they are, one of this tick that carries SPEC too. SAFE
entry stops the rail, which cancels its speculation (R169); the cancellation tick is t_end and lies outside [t_acc, t_end) (R170), so the
fault of that tick carries SPEC no longer (R172). -/
theorem not_selvageCommands : ¬ Obligations.SelvageCommands := by
  unfold Obligations.SelvageCommands
  rintro ⟨-, -, -, -, -, hlockstep, -⟩
  obtain ⟨t, ht, -, -, -, -, hkept⟩ := hlockstep faultedInSpec [] rfl rfl (by decide +kernel)
  rw [← of_exec_eq_next (f := devLockstep) (fun _ _ => rfl) ht, msgs_devLockstep_faultedInSpec] at hkept
  exact absurd hkept (by decide)

end Sys2Proof.Machine
end

section
/-! PROOFS. The screens of a descriptor on a ring at its limit with the next descriptor number in use (12_host_rings.md R321, R322), and
the state after VSTBY has risen (10_modes_startup.md R271, R273). -/

namespace Sys2Proof.Machine

/-! ## A NOP with a reserved bit set that nothing answers (R321) -/

/-- A NOP of host ring 2 with tag 7 that has a reserved bit set. -/
def dirtyNop : Desc := { nopDesc with dirty := true }

/-- A NOP, refused or done, adds no descriptor of its own. -/
theorem outDescs_devNop (x : Desc) (d : Dev) : (devNop x d).host.out.map Out.d = (d.begin 0x00 x).1.host.out.map Out.d :=
  d.outDescs_runDesc 0x00 x (some 0) true none fun _ _ => rfl

section
variable {n : Nat} (hn : 1024 ≤ n)
include hn

theorem blocked_dirtyNop : (numberInUse otherNop n).blocked 0x00 dirtyNop = false :=
  blocked_numberInUse (x := dirtyNop) (y := otherNop) rfl rfl hn rfl

/-- After it the descriptors outstanding are those with tag 8 as before, so it is not among the answered. -/
theorem not_answered_devNop_dirtyNop (st : Nat) : ¬ (devNop dirtyNop (numberInUse otherNop n)).Answered dirtyNop st := by
  intro h
  have hmem := h.mem_outDescs
  rw [outDescs_devNop, begin_numberInUse (x := dirtyNop) (y := otherNop) rfl rfl hn] at hmem
  obtain ⟨o, ho, hd⟩ := List.mem_map.1 hmem
  rw [List.eq_of_mem_replicate ho] at hd
  exact absurd hd (by decide)

/-- The NOP does not come to an answer, whatever else is asked of its next state. -/
theorem not_does_nop_dirtyNop (st : Nat) (q : List Instr) (P : Dev → Prop) :
    ¬ Does (.nop dirtyNop) ⟨numberInUse otherNop n, q⟩ fun t => t.Answered dirtyNop st ∧ P t := by
  rintro ⟨t, ht, -, hans, -⟩
  rw [exec_nop rfl] at ht
  cases ht
  exact not_answered_devNop_dirtyNop hn st hans

end

/-- Refutes O9: its screens take any block, one whose next descriptor number is in use too. With 1,024 descriptors of the ring outstanding
under that number, all with tag 8, a NOP with tag 7 and a reserved bit set is not blocked, and no descriptor with tag 7 is answered
DESC_INVALID: the ring has no room for it. No run from reset comes there, since each new descriptor counts the number on (R322, R323). -/
theorem not_descriptorScreens : ¬ Obligations.DescriptorScreens := by
  unfold Obligations.DescriptorScreens
  intro h
  have hn : 1024 ≤ 1024 := Nat.le_refl 1024
  have hnop : (Instr.nop, 0x00, some 0, true, none) ∈ descRows := List.mem_cons_self
  obtain ⟨-, hdirty, -⟩ := h _ hnop (numberInUse otherNop 1024) [] dirtyNop rfl
  exact not_does_nop_dirtyNop hn _ _ _ (hdirty (blocked_dirtyNop hn) rfl)

/-! ## The state after VSTBY has risen (R271, R273) -/

/-- With no word written, every register reads its Reset value. -/
theorem word_reset (off : Nat) : State.reset.dev.word off = resetWord off := rfl

/-- With no damage noted, a granule stores the data in use. -/
theorem Dev.granStored_of_err_nil {d : Dev} (h : d.mem.err = []) (b g : Nat) : d.granStored b g = leNat (d.granClean b g) 0 8 := by
  have hmask : d.granErr b g = 0 := by rw [Dev.granErr, h, KV.get_nil]
  rw [Dev.granStored, hmask]
  exact Nat.xor_zero _

/-- Host memory that nothing was written to reads 0. -/
theorem Dev.hRd_of_mem_nil {d : Dev} (h : d.host.mem = []) (a n : Nat) : d.hRd a n = List.replicate n 0 := by
  rw [Dev.hRd, h]
  refine List.eq_replicate_iff.2 ⟨by rw [List.length_map, List.length_range], fun b hb => ?_⟩
  obtain ⟨k, -, rfl⟩ := List.mem_map.1 hb
  exact KV.get_nil _ _

/-- With the hub in reset, no link is in service. -/
theorem Dev.linkUp_of_hub_off {d : Dev} (h : d.clk.hub = false) (l : Nat) : d.linkUp l = false := by
  rw [Dev.linkUp, h, Bool.false_and, Bool.false_and]

/-- The Reset value of MODE_STATUS shows STANDBY. -/
theorem md_reset : State.reset.dev.md = Md.standby := by decide

/-- The Reset value of CORE_STATUS shows OFF, for each of the 21 cores of the register map. -/
theorem ks_reset : ∀ c : Fin 21, State.reset.dev.ks c = Ks.off := by decide

/-- The Reset value of RG_STATUS shows DISABLED, for each of the 384 rings of the register map; they are gone through 16 at a time. -/
theorem rgState_reset_sixteens : ∀ (i : Fin 24) (j : Fin 16), State.reset.dev.rgState (16 * i + j) = Rg.disabled := by decide

theorem rgState_reset (n : Fin 384) : State.reset.dev.rgState n = Rg.disabled := by
  have h := rgState_reset_sixteens ⟨n / 16, by omega⟩ ⟨n % 16, by omega⟩
  rwa [Nat.div_add_mod] at h

/-- The empty maps are canonical. -/
theorem canonical_reset : State.reset.dev.canonical := ⟨rfl, rfl, rfl, rfl⟩

/-- Settles O4: no word is written and no memory holds a byte, so that each reads what the register map and 0 give; the modes, cores and
rings are in the states of their Reset values. -/
theorem resetState : Obligations.ResetState :=
  ⟨rfl, md_reset, word_reset, Dev.granStored_of_err_nil rfl, Dev.hRd_of_mem_nil rfl, ks_reset, rgState_reset, Dev.linkUp_of_hub_off rfl,
    rfl, rfl, canonical_reset, fun _ hc => absurd hc List.not_mem_nil⟩

end Sys2Proof.Machine
end

section
/-! PROOFS. RAMP with a register written that its unit samples on leaving CONFIGURE, a sequence whose rail belongs to another owner, a
sequence entry with a damaged bit, the FACTORY unlock while SAFE is latched, and a boot record's register that a higher agent has written
in the same clock: five states in which a command leaves another value than its statement says. -/

namespace Sys2Proof.Machine

/-! ## RAMP with a word that waits for the exit (10_modes_startup.md R272, R283; 02_power_entry.md R33) -/

/-- In CONFIGURE with an authenticated image, ENT_CFG of channel 0 has been written with the reserved ROLE 0b11. -/
def reservedRoleWritten : Dev :=
  let d : Dev := { clk := { hub := true, now := 1000 } }
  ((d.wr MODE_STATUS.MODE Md.configure).wr BOOT_STATUS.STATE 2).stage (ENT_CFG.ROLE 0).off 0xC0000000

/-- With ESC_CEIL a level and no level overridden, the fault check passes. -/
theorem Dev.faultCheck_of_no_override {d : Dev} (hceil : 1 ≤ d.rd FLT_CFG.ESC_CEIL ∧ d.rd FLT_CFG.ESC_CEIL ≤ 4)
    (hlevel : ∀ k < 256, d.levelByte k = 0) : d.faultCheck = true := by
  rw [Dev.faultCheck, Bool.and_eq_true, decide_eq_true_iff, List.all_eq_true]
  refine ⟨hceil, fun k hk => ?_⟩
  rw [hlevel k (List.mem_range.1 hk)]
  rfl

/-- No level is overridden; the 256 kinds are gone through 16 at a time. -/
theorem levelByte_reservedRoleWritten_sixteens : ∀ i j : Fin 16, reservedRoleWritten.levelByte (16 * i + j) = 0 := by decide

theorem levelByte_reservedRoleWritten (k : Nat) (hk : k < 256) : reservedRoleWritten.levelByte k = 0 := by
  have h := levelByte_reservedRoleWritten_sixteens ⟨k / 16, by omega⟩ ⟨k % 16, by omega⟩
  rwa [Nat.div_add_mod] at h

/-- The words in force pass the other checks of the exit from CONFIGURE too. -/
theorem checks_reservedRoleWritten :
    reservedRoleWritten.rd BOOT_STATUS.STATE = 2 ∧ reservedRoleWritten.entryCheck = true ∧ reservedRoleWritten.branchCheck = true ∧
    reservedRoleWritten.railCheck = true ∧ reservedRoleWritten.warpCheck = true ∧ reservedRoleWritten.intentCheck = true ∧
    reservedRoleWritten.convCheck = true ∧ reservedRoleWritten.sageCheck = true ∧ reservedRoleWritten.seqCheck = true := by
  refine ⟨?_, ?_, ?_, ?_, ?_, ?_, ?_, ?_, ?_⟩ <;> decide

theorem exitStatus_reservedRoleWritten : reservedRoleWritten.exitStatus = St.success := by
  obtain ⟨hboot, hentry, hbranch, hrail, hwarp, hintent, hconv, hsage, hseq⟩ := checks_reservedRoleWritten
  have hfault := Dev.faultCheck_of_no_override (d := reservedRoleWritten) (by decide) levelByte_reservedRoleWritten
  simp only [Dev.exitStatus, hboot, hentry, hbranch, hrail, hwarp, hintent, hconv, hsage, hfault, hseq, ne_eq, not_true_eq_false, if_false]

/-- The checks judge the word as written, and the request is refused. -/
theorem md_devModeRequestRamp_reservedRoleWritten : (devModeRequestRamp (.reg 0) reservedRoleWritten).md = Md.configure := by
  decide

/-- Refutes O32: its clause for a MODE_REQ write of RAMP judges the exit checks by the words in force. A word that its unit samples on
leaving CONFIGURE waits until then (R33), and the checks judge it as written (R283), so one that breaks a check keeps the device in
CONFIGURE. -/
theorem not_modeRequests : ¬ Obligations.ModeRequests := by
  unfold Obligations.ModeRequests
  rintro ⟨-, -, -, hramp, -⟩
  obtain ⟨t, ht, hmd, -⟩ := hramp reservedRoleWritten [] 0 rfl (by decide) (by decide) rfl exitStatus_reservedRoleWritten
  rw [← of_exec_eq_next (f := devModeRequestRamp (.reg 0)) (fun _ _ => rfl) ht, md_devModeRequestRamp_reservedRoleWritten] at hmd
  exact absurd hmd (by decide)

/-! ## RAIL_ON of a rail that MODE's owner may not command (R285, R293) -/

/-- In RAMP the up table is at entry 0, RAIL_ON of rail 0, whose start conditions hold. The host owns MODE, and TW0 owns POWER. -/
def powerOwnedByTw0 : Dev :=
  let d : Dev := { clk := { hub := true, now := 1000 }, ph := [(0, { rail := some 0 })] }
  let d := (((d.wr MODE_STATUS.MODE Md.ramp).wr MODE_STATUS.SEQ_STATE Sq.up).wr MODE_CFG.UP_LEN 5).wr MODE_OWN.DOMAINS 0xF4
  let d := ((d.wr (PH_CFG.MIN_PHASES 0) 1).wr (PH_STATE.STATE 0) Ps.idle).wr (BR_STATUS.STATE 0) Ec.on
  (d.setWord 0x10C400 0x80).setWord 0xB004 0x30000000

/-- The rail stays OFF. -/
theorem rs_devRailOn_powerOwnedByTw0 : (devRailOn powerOwnedByTw0).rs 0 = Rs.off := by decide

/-- Refutes O33: its clause for RAIL_ON starts the rail whoever owns POWER. The sequencer carries the rights of MODE's owner (R293), so
where another agent owns POWER the entry is refused with NOT_OWNER, and the rail stays OFF. -/
theorem not_sequenceActions : ¬ Obligations.SequenceActions := by
  unfold Obligations.SequenceActions
  rintro ⟨-, -, hrailOn, -⟩
  obtain ⟨t, ht, hstart, -⟩ := hrailOn powerOwnedByTw0 [] 0 (by decide) (by decide) (by decide)
    (by decide) rfl (by decide) (by decide)
  rw [← of_exec_eq_next (f := devRailOn) (fun _ _ => rfl) ht, rs_devRailOn_powerOwnedByTw0] at hstart
  exact absurd hstart (by decide)

/-! ## A sequence entry with a damaged bit (R285; 16_memory_protection.md R435) -/

/-- In RAMP the up table is at entry 0, a DELAY; one stored bit of its granule in copy A is inverted. -/
def damagedDelay : Dev :=
  let d : Dev := { clk := { hub := true, now := 1000 }, mem := { err := [(granKey 0x83 0x2E8, 1)] } }
  ((d.wr MODE_STATUS.MODE Md.ramp).wr MODE_STATUS.SEQ_STATE Sq.up).setWord 0xB004 0x40000000

/-- The sequencer's read corrects the bit, which sets MEM_EVT bit 0. -/
theorem memEvt_devDelay_damagedDelay : damagedDelay.rd MEM_EVT.EVT = 0 ∧ (devDelay damagedDelay).rd MEM_EVT.EVT = 1 := by decide

/-- Refutes O34: its clause for DELAY leaves every register as it was, in a memory with damage too. The sequencer reads its entry on the
tick of the DELAY, and a read that corrects a bit sets MEM_EVT (R435). -/
theorem not_sequenceWaits : ¬ Obligations.SequenceWaits := by
  unfold Obligations.SequenceWaits
  rintro ⟨hdelay, -⟩
  obtain ⟨t, ht, -, -, hregs⟩ := hdelay damagedDelay [] (by decide)
  rw [← of_exec_eq_next (f := devDelay) (fun _ _ => rfl) ht] at hregs
  obtain ⟨hbefore, hafter⟩ := memEvt_devDelay_damagedDelay
  have hsame : (devDelay damagedDelay).rd MEM_EVT.EVT = damagedDelay.rd MEM_EVT.EVT := Dev.rd_congr (by rw [Dev.word, hregs]; rfl)
  exact absurd (hafter.symm.trans (hsame.trans hbefore)) Nat.one_ne_zero

/-! ## The FACTORY unlock with SAFE to follow (R291, R292) -/

/-- A reset that left SAFE_LATCH set has led to CONFIGURE, with SAFE to follow the boot. FACTORY_N is low, and the host has written the
first key on tick 900. -/
def unlockBeforeSafe : Dev :=
  let d : Dev := { clk := { hub := true, now := 1000 }, mode := { afterSafe := true, unlock := some (900, 0) } }
  ((d.wr MODE_STATUS.MODE Md.configure).wr MODE_STATUS.SAFE_LATCH 1).wr DEV_STATUS.FACTORY_N 0

/-- The second key does not enter FACTORY. -/
theorem md_devModeUnlock_unlockBeforeSafe : (devModeUnlock 0 0x0F0F5A5A unlockBeforeSafe).md = Md.configure := by decide

/-- Refutes O37: its clause for the second key enters FACTORY from every state whose mode is CONFIGURE, one after a reset with SAFE_LATCH set
too. Such a reset runs the steps of CONFIGURE entry and then enters SAFE (R291), so the unlock is not taken on the way there. -/
theorem not_supplyCommands : ¬ Obligations.SupplyCommands := by
  unfold Obligations.SupplyCommands
  rintro ⟨-, -, -, -, -, -, -, -, -, -, -, -, -, hunlock⟩
  obtain ⟨t, ht, hmd, -⟩ := hunlock unlockBeforeSafe [] 0 0x0F0F5A5A 900 rfl (.inl rfl) rfl rfl (by decide) (by decide)
    (by decide)
  rw [← of_exec_eq_next (f := devModeUnlock 0 0x0F0F5A5A) (fun _ _ => rfl) ht, md_devModeUnlock_unlockBeforeSafe] at hmd
  exact absurd hmd (by decide)

/-! ## A boot record after a write of a higher agent (R279; 17_register_map.md R453) -/

/-- A record REG_WRITE of 5 to STALL_T, every bit in its mask. -/
def stallTRecord : List Byte := [1, 0, 0, 0,  0x10, 0x12, 0, 0,  5, 0, 0, 0,  255, 255, 255, 255]

/-- In CONFIGURE an authenticated image whose first record that is waits to be applied; in this very clock agent 0x40 has written 9 to
STALL_T, by a REGISTER_WRITE, whose operand is any agent. -/
def stallTWritten : Dev :=
  let d : Dev := { clk := { hub := true, now := 1000 }, mode := { image := List.replicate 256 0 ++ stallTRecord } }
  devRegisterWrite 0x40 0x1210 [9, 0, 0, 0] [] ((d.wr MODE_STATUS.MODE Md.configure).wr BOOT_STATUS.STATE 2)

theorem bootRecord_stallTWritten : stallTWritten.bootRecord 0x0001 = some stallTRecord := by decide

/-- The higher agent's word stays. -/
theorem regWord_devRegWriteRecord_stallTWritten : (devRegWriteRecord stallTWritten).regWord STALL_T.VAL.off = 9 := by decide

/-- Refutes O38: its clause for a REG_WRITE of STALL_T leaves the record's bits there, after a write of the same clock by a higher agent
too. The higher master agent ID leaves the final value (R453), so the boot ROM's write, agent 0x35, does not change it. -/
theorem not_bootCommands : ¬ Obligations.BootCommands := by
  unfold Obligations.BootCommands
  rintro ⟨-, -, -, -, -, hstallT, -⟩
  obtain ⟨t, ht, -, -, hword, -⟩ := hstallT stallTWritten [] stallTRecord bootRecord_stallTWritten (by decide)
  rw [← of_exec_eq_next (f := devRegWriteRecord) (fun _ _ => rfl) ht, regWord_devRegWriteRecord_stallTWritten] at hword
  exact absurd hword (by decide)

end Sys2Proof.Machine
end

section
/-! PROOFS. Steps, ticks and runs (00_scope.md; 11_clocks_time.md R298). -/

namespace Sys2Proof.Machine

set_option Elab.async false

/-- Settles O1. -/
theorem stepRunsFrontCommand : Obligations.StepRunsFrontCommand := fun _ _ => rfl

/-! ## Ticks -/

/-- A clock edge moves the clocks alone. -/
theorem Dev.clockEdge_eq (d : Dev) : d.clockEdge = { d with clk := d.clockEdge.clk } := by
  unfold Dev.clockEdge
  split
  · rfl
  · split <;> rfl

/-- A vector raised or sent is the host's to see alone. -/
theorem Dev.raiseVec_eq (d : Dev) (v : Nat) : d.raiseVec v = { d with host := (d.raiseVec v).host } := by
  unfold Dev.raiseVec
  split <;> rfl

/-- So is the interrupt summary's vector. -/
theorem Dev.sumVector_eq (d : Dev) : d.sumVector = { d with host := d.sumVector.host } := by
  unfold Dev.sumVector
  split
  · dsimp only
    split
    · exact Dev.raiseVec_eq _ _
    · rfl
  · rfl

/-- A tick moves the clocks and what the host sees of the vectors. -/
theorem devTick_eq (d : Dev) : devTick d = { d with clk := d.clockEdge.clk, host := (devTick d).host } := by
  rw [devTick, Dev.sumVector_eq, Dev.clockEdge_eq]

/-- It changes no byte of host memory and no outstanding descriptor. -/
theorem host_devTick (d : Dev) : (devTick d).host.mem = d.host.mem ∧ (devTick d).host.out = d.host.out := by
  have hedge : d.clockEdge.host = d.host := by rw [Dev.clockEdge_eq]
  have hvec : ∀ (e : Dev) (v : Nat), (e.raiseVec v).host.mem = e.host.mem ∧ (e.raiseVec v).host.out = e.host.out := by
    intro e v
    unfold Dev.raiseVec
    split <;> exact ⟨rfl, rfl⟩
  unfold devTick Dev.sumVector
  rw [← hedge]
  split
  · dsimp only
    split
    · exact hvec _ _
    · exact ⟨rfl, rfl⟩
  · exact ⟨rfl, rfl⟩

/-- With the hub powered and the root clock running Thyme counts by one. -/
theorem clk_clockEdge_running {d : Dev} (hmd : d.md ≠ Md.off) (hhub : d.clk.hub = true) (hroot : d.clk.rootLost = false) :
    d.clockEdge.clk.now = (d.clk.now + 1) % 2 ^ 64 ∧ d.clockEdge.clk.hub = true ∧ d.clockEdge.clk.rootLost = false := by
  rw [Dev.clockEdge, if_neg hmd, if_pos ⟨hhub, by simp [hroot]⟩]
  exact ⟨rfl, hhub, hroot⟩

/-- Otherwise Thyme stands. -/
theorem now_clockEdge_stopped {d : Dev} (h : d.md = Md.off ∨ d.clk.hub = false ∨ d.clk.rootLost = true) :
    d.clockEdge.clk.now = d.clk.now := by
  unfold Dev.clockEdge
  split
  · rfl
  · rename_i hmd
    rw [if_neg]
    simp only [hmd, false_or] at h
    rcases h with h | h <;> simp [h]

/-- Settles O2: a tick writes the clocks and the vectors, and no other part. -/
theorem idleStepIsOneTick : Obligations.IdleStepIsOneTick := by
  rintro ⟨d, _⟩ rfl
  obtain ⟨hmem, hout⟩ := host_devTick d
  have hclk : (devTick d).clk = d.clockEdge.clk := by rw [devTick_eq]
  refine ⟨⟨devTick d, []⟩, rfl, rfl, fun p hp => ?_, hmem, hout, fun hmd hhub hroot => ?_, fun hstop => ?_⟩
  · simp only [List.mem_cons, List.not_mem_nil, or_false, not_or] at hp
    obtain ⟨hclkp, hhostp⟩ := hp
    cases p with
    | clk => exact absurd rfl hclkp
    | host => exact absurd rfl hhostp
    | hostMem => exact hmem.symm
    | _ =>
      rw [devTick_eq]
      rfl
  · rw [hclk]
    exact (clk_clockEdge_running hmd hhub hroot).1
  · rw [hclk]
    exact now_clockEdge_stopped hstop

/-- Settles O3, by induction on the number of ticks: a tick leaves the mode, the hub and the root clock as they are, so the next one
counts too. -/
theorem ticksAdvanceThyme : Obligations.TicksAdvanceThyme := by
  intro n
  induction n with
  | zero =>
    rintro ⟨d, _⟩ rfl - - - hnow
    exact ⟨⟨d, []⟩, rfl, rfl, (Nat.mod_eq_of_lt hnow).symm, rfl, rfl, rfl⟩
  | succ n ih =>
    rintro ⟨d, _⟩ rfl hmd hhub hroot -
    obtain ⟨hnow1, hhub1, hroot1⟩ := clk_clockEdge_running hmd hhub hroot
    have hclk : (devTick d).clk = d.clockEdge.clk := by rw [devTick_eq]
    have hregs : (devTick d).regs = d.regs := by rw [devTick_eq]
    have hmd1 : (devTick d).md = d.md := Dev.rd_congr (by rw [Dev.word, hregs]; rfl)
    have hlt : (devTick d).clk.now < 2 ^ 64 := by
      rw [hclk, hnow1]
      exact Nat.mod_lt _ (by decide)
    obtain ⟨t, ht, hq, hnow, hr, hm, hc⟩ :=
      ih ⟨devTick d, []⟩ rfl (hmd1 ▸ hmd) (hclk ▸ hhub1) (hclk ▸ hroot1) hlt
    refine ⟨t, ht, hq, ?_, hr.trans hregs, ?_, ?_⟩
    · dsimp only at hnow
      rw [hnow, hclk, hnow1]
      exact (Nat.mod_add_mod _ _ _).trans (by rw [Nat.add_right_comm, Nat.add_assoc])
    · exact hm.trans (by rw [devTick_eq])
    · exact hc.trans (by rw [devTick_eq])

/-! ## Runs of the queue -/

/-- A well-formed command answers a next state, whose queue is the one it was given. -/
theorem exec_of_wf {c : Instr} (hc : c.wf = true) (s : State) : ∃ e : Dev, exec c s = .next ⟨e, s.pending⟩ := by
  cases c with
  | nop x | fence x | timeAlign x | resClaim x | resRelease x | railSet x | railEnable x | railDisable x | phaseMask x | coefLoad x
  | fusePolicyLoad x | tableLoad x err | seqLoad x | threadOpen x | threadModify x | threadClose x | unfence x | faultAck x
  | packRestore x | packRead x => exact ⟨_, if_pos hc⟩
  | modeRequestConfigure q | modeRequestRamp q | modeRequestRun q | modeRequestSafe q | modeRequestClearSafe q => exact ⟨_, if_pos hc⟩
  | codewordReceive n m => exact ⟨_, if_pos hc⟩
  | peerCtrl pay | peerTrain pay => exact ⟨_, if_pos (beq_iff_eq.mp hc)⟩
  | _ => exact ⟨_, rfl⟩

/-- Refutes O6: an ill-formed register write does not stop with a fault. A write of no bytes with one byte enable is not well formed, and
`execRegisterWrite` answers a next state all the same: it looks at its operands' lengths nowhere. -/
theorem not_everyCommandCompletes : ¬ Obligations.EveryCommandCompletes := by
  unfold Obligations.EveryCommandCompletes
  intro h
  obtain ⟨-, hill⟩ := h (.registerWrite 0 0 [] [true]) ⟨{}, []⟩
  exact absurd (hill (by decide)) (fun h => nomatch h)

/-- Running a number of the waiting commands leaves the rest of the queue. -/
theorem runSteps_of_queueWf (n : Nat) : ∀ s : State, s.queueWf → n ≤ s.pending.length →
    ∃ u, runSteps n s = .next u ∧ u.pending = s.pending.drop n := by
  induction n with
  | zero => exact fun s _ _ => ⟨s, rfl, rfl⟩
  | succ n ih =>
    rintro ⟨d, q⟩ hwf hn
    cases q with
    | nil => exact absurd hn (Nat.not_succ_le_zero n)
    | cons c rest =>
      obtain ⟨e, he⟩ := exec_of_wf (hwf c List.mem_cons_self) ⟨d, rest⟩
      have hstep : step ⟨d, c :: rest⟩ = .next ⟨e, rest⟩ := he
      obtain ⟨u, hu, hdrop⟩ := ih ⟨e, rest⟩ (fun c' hc' => hwf c' (List.mem_cons_of_mem c hc')) (Nat.le_of_succ_le_succ hn)
      exact ⟨u, by rw [runSteps, hstep]; exact hu, hdrop⟩

/-- Settles O7, by induction on the number of commands run: each is well formed, so it answers a next state with the rest of the queue. -/
theorem queueDrains : Obligations.QueueDrains := by
  intro s hwf
  obtain ⟨t, ht, hdrop⟩ := runSteps_of_queueWf s.pending.length s hwf (Nat.le_refl _)
  exact ⟨t, ht, by rw [hdrop, List.drop_length], fun n hn => runSteps_of_queueWf n s hwf hn⟩

end Sys2Proof.Machine
end

section
/-! PROOFS. States in which a clause fails: a FENCE that waits for an archive page, numbers in use, a damage map with a key twice, a ring at
its limit, and registers that a command writes beside the one it names (11_clocks_time.md, 12_host_rings.md, 14_two_wire.md,
16_memory_protection.md, 17_register_map.md). -/

namespace Sys2Proof.Machine

set_option Elab.async false

/-! ## A FENCE whose archive marker waits for a page (R346) -/

/-- A FENCE of archive scope whose marker is due in the output of thread 5. -/
def archFence : FenceSt :=
  { id := 4, src := .host 3, tag := 7, rings := [], vcs := [], arch := true, archs := [5], flush := false, tw := some 900, placed := true }

/-- It is the only FENCE, and the pool of archive pages is empty. -/
def markerLeft : Dev := { clk := { hub := true, now := 1000 }, host := { fences := [archFence] } }

/-- The FENCE does not complete. -/
theorem fences_devFenceMarkerPlace_markerLeft : (devFenceMarkerPlace markerLeft).host.fences ≠ [] := by decide +kernel

/-- Refutes O31: its clause for FENCE_MARKER_PLACE names the rings and the VCs of the FENCE, and not its archive. A FENCE of archive scope
waits for the host to give it a page (R343, R346), so it stays among those in progress. -/
theorem not_threadCommands : ¬ Obligations.ThreadCommands := by
  unfold Obligations.ThreadCommands
  rintro ⟨-, -, -, -, -, hplace⟩
  obtain ⟨t, ht, hnone, -⟩ := hplace markerLeft [] archFence 900 rfl rfl rfl (by decide) rfl rfl rfl rfl
  rw [← of_exec_eq_next (f := devFenceMarkerPlace) (fun _ _ => rfl) ht] at hnone
  exact fences_devFenceMarkerPlace_markerLeft hnone

/-! ## A TIME_ALIGN that finds no room (R303, R322) -/

/-- A TIME_ALIGN in mode 0 of host ring 2 with tag 7, to second 0. -/
def align0 : Desc := readPack0

theorem begin_align0 : nopsOutstanding.begin 0x03 align0 = (nopsOutstanding, 0) :=
  Dev.begin_of_noRoom outRoom_nopsOutstanding begun_nopsOutstanding 0x03

theorem blocked_align0 : nopsOutstanding.blocked 0x03 align0 = false :=
  Dev.blocked_of_noRoom outRoom_nopsOutstanding begun_nopsOutstanding ⟨otherNop, otherNop_mem, rfl⟩ (fun _ _ => Nat.zero_le _) rfl 0x03

/-- A well-formed TIME_ALIGN answers the block that `devTimeAlign` gives. -/
theorem exec_timeAlign {x : Desc} (hx : x.wf = true) (d : Dev) (rest : List Instr) :
    exec (.timeAlign x) ⟨d, rest⟩ = .next ⟨devTimeAlign x d, rest⟩ := if_pos hx

/-- After it, it is not among the outstanding descriptors. -/
theorem not_mem_devTimeAlign_align0 : ((devTimeAlign align0 nopsOutstanding).host.out.any fun o => o.d = align0) = false := by
  decide +kernel

/-- Refutes O39: its clause for TIME_ALIGN takes any block, one whose next descriptor number is in use too. With 1,024 NOPs of the ring
outstanding under that number there is no room for the TIME_ALIGN, and it is not among the answered. No run from reset comes there,
since each new descriptor counts the number on (R322, R323). -/
theorem not_timeCommands : ¬ Obligations.TimeCommands := by
  unfold Obligations.TimeCommands
  rintro ⟨halign, -⟩
  obtain ⟨t, ht, -, -, -, -, o, ho, hd, -⟩ := halign nopsOutstanding [] align0 0 0 blocked_align0 (by rw [begin_align0]; decide +kernel)
    (by decide) (by decide) (by decide) (by decide) (by decide) (by decide) (by decide) (by decide)
    (by rw [begin_align0]; decide +kernel) (by rw [begin_align0]; decide +kernel)
  rw [← of_exec_eq_next (f := devTimeAlign align0) (exec_timeAlign (by decide)) ht] at ho
  have hany := not_mem_devTimeAlign_align0
  rw [List.any_eq_false] at hany
  exact hany o ho (by simpa using hd)

/-! ## A damage map in which a key stands twice (R441) -/

/-- Bank 0x81 is being copied from its partner, whose first granule has two entries in the damage map. -/
def damageTwice : Dev := { mem := { copying := [0x81], err := [(granKey 0x82 0, 1), (granKey 0x82 0, 2)] } }

/-- The copy takes the later entry; a read takes the first. -/
theorem granErr_devBankCopyDone_damageTwice :
    (devBankCopyDone 0x81 damageTwice).granErr 0x81 0 = 2 ∧ damageTwice.granErr 0x82 0 = 1 := by decide +kernel

/-- Refutes O43: its clause for BANK_COPY_DONE takes any state, one whose damage map has two entries for a granule too. The copy stores the
entries one after the other, so the last one stays, where the map gives the first. No run from reset comes there, since the map keeps
its canonical form. -/
theorem not_memoryCommands : ¬ Obligations.MemoryCommands := by
  unfold Obligations.MemoryCommands
  rintro ⟨-, -, -, -, -, -, -, -, -, -, -, -, -, -, -, hcopy⟩
  obtain ⟨t, ht, -, -, hsame⟩ := hcopy damageTwice [] 0x81 0x82 (by decide) (by decide)
  have hgran := hsame 0 (by decide)
  rw [← of_exec_eq_next (f := devBankCopyDone 0x81) (fun _ _ => rfl) ht] at hgran
  obtain ⟨hcopied, hfirst⟩ := granErr_devBankCopyDone_damageTwice
  exact absurd ((hcopied.symm.trans hgran).trans hfirst) (by decide)

/-! ## A fetch that waits at the limit of outstanding descriptors (R322, R330) -/

/-- Host ring 2 is ACTIVE with an entry to fetch, and its 1,024 NOPs are outstanding. -/
def ringAtLimit : Dev :=
  { (({} : Dev).wr (RG_STATUS.STATE 2) Rg.active).wr (RG_PI.PI 2) 1 with
    clk := { hub := true }, host := { out := List.replicate 1024 otherNop } }

theorem outRoom_ringAtLimit : ringAtLimit.outRoom (.host 2) = false := by decide +kernel

/-- No fetch is issued there, so none fails. -/
theorem devDescFetchError_ringAtLimit : devDescFetchError (.host 2) ringAtLimit = ringAtLimit := by
  rw [devDescFetchError, Dev.fetchFail]
  exact if_neg fun h => absurd (outRoom_ringAtLimit.symm.trans h.2.2.1) Bool.false_ne_true

/-- Refutes O44: its clause for DESC_FETCH_ERROR halts every eligible ring. At the limit of outstanding descriptors a ring's next fetch waits
(R322), so there is none that could complete with an error, and the ring stays ACTIVE. -/
theorem not_ringCommands : ¬ Obligations.RingCommands := by
  unfold Obligations.RingCommands
  rintro ⟨-, -, -, herror, -⟩
  obtain ⟨t, ht, hhalted, -⟩ := herror ringAtLimit [] (.host 2) 2 rfl rfl (by decide +kernel)
  rw [← of_exec_eq_next (f := devDescFetchError (.host 2)) (fun _ _ => rfl) ht, devDescFetchError_ringAtLimit] at hhalted
  exact absurd hhalted (by decide +kernel)

/-! ## An ignored write and its agent (R449) -/

/-- The hub is in service. -/
def hubOnly : Dev := { clk := { hub := true } }

/-- An ignored write is noted with its agent, where none is noted yet. -/
theorem Dev.agent_wign {d : Dev} (h : d.on DEV_WIGN.SET = false) (n off reason : Nat) :
    (d.wign n off reason).rd DEV_WIGN_AGENT.AGENT = n % 2 ^ DEV_WIGN_AGENT.AGENT.len := by
  have hset : ¬ ({ d with hw := { d.hw with ign := d.hw.ign + 1 } } : Dev).on DEV_WIGN.SET := fun hon => Bool.false_ne_true (h.symm.trans hon)
  rw [Dev.wign]
  dsimp only
  rw [if_neg hset]
  exact Dev.rd_wr_same _ _ _ (by decide)

/-- So is a write to a gap. -/
theorem Dev.agent_gapWrite {d : Dev} (h : d.on DEV_WIGN.SET = false) (n off : Nat) :
    (d.gapWrite n off).rd DEV_WIGN_AGENT.AGENT = n % 2 ^ DEV_WIGN_AGENT.AGENT.len := by
  rw [← Dev.agent_wign h n off (d.freeVal % 16)]
  exact Dev.rd_congr (by simp [Dev.gapWrite, Dev.accessFault, Dev.nextFree, Dev.word])

/-- A write of agent 1 of all four bytes at 0xE000, where there is no register, is one to a gap. -/
theorem devRegisterWrite_hubOnly : devRegisterWrite 1 0xE000 [0, 0, 0, 0] [] hubOnly = hubOnly.gapWrite 1 0xE000 := by
  rfl

/-- Refutes O46: its clause for a write to a gap leaves every word but DEV_WIGN as it was, whoever writes. The agent of the ignored write is
noted in DEV_WIGN_AGENT, a word of its own. -/
theorem not_registerAccess : ¬ Obligations.RegisterAccess := by
  unfold Obligations.RegisterAccess
  rintro ⟨-, -, -, -, -, -, -, -, -, -, -, -, -, -, -, -, -, -, -, -, hgap, -⟩
  obtain ⟨t, ht, -, -, hwords⟩ := hgap hubOnly [] 1 0xE000 [0, 0, 0, 0] [] 1 0xE000 (hubOnly.writerRead 1 0xE000) rfl rfl rfl
    (by decide +kernel) (.inl (by decide)) (by decide) rfl rfl (by decide) (by decide)
  have hagent : t.rd DEV_WIGN_AGENT.AGENT = hubOnly.rd DEV_WIGN_AGENT.AGENT := Dev.rd_congr (hwords DEV_WIGN_AGENT.AGENT.off (by decide))
  rw [← of_exec_eq_next (f := devRegisterWrite 1 0xE000 [0, 0, 0, 0] []) (fun _ _ => rfl) ht, devRegisterWrite_hubOnly,
    Dev.agent_gapWrite (by decide)] at hagent
  exact absurd hagent (by decide)

/-! ## An alert response ends a held bus (R384, R385) -/

/-- TW0 is a target with an attention pending, on a bus that is noted as held. -/
def heldAlert : Dev :=
  let d : Dev := { clk := { hub := true, now := 1000 } }
  ((d.wr (TW_ALERT.PENDING 0) 1).wr (TW_STATUS.IDLE_SEEN 0) 1).wr (TW_STATUS.BUS_HELD 0) 1

/-- The STOP that ends the response clears BUS_HELD. -/
theorem statusWord_devAlertResponse_heldAlert :
    (devAlertResponse 0 false heldAlert).word (TW_STATUS.BUS_HELD 0).off ≠ heldAlert.word (TW_STATUS.BUS_HELD 0).off := by
  decide +kernel

/-- Refutes O48: its clause for ALERT_RESPONSE leaves every word but TW_ALERT as it was, on a bus that is noted as held too. The transfer ends
with both lines high, which clears BUS_HELD in TW_STATUS. -/
theorem not_twoWireBus : ¬ Obligations.TwoWireBus := by
  unfold Obligations.TwoWireBus
  rintro ⟨-, -, -, -, -, -, -, -, -, -, -, -, -, -, -, -, -, -, -, -, -, -, hresponse, -⟩
  obtain ⟨t, ht, -, -, -, hwords⟩ := hresponse heldAlert [] 0 false (by decide +kernel) (by decide +kernel) (by decide +kernel)
  have hstatus := hwords (TW_STATUS.BUS_HELD 0).off (by decide)
  rw [← of_exec_eq_next (f := devAlertResponse 0 false) (fun _ _ => rfl) ht] at hstatus
  exact statusWord_devAlertResponse_heldAlert hstatus

/-! ## The PMBus address of TW0 (R394, R395) -/

/-- TW0 is a target that has seen an idle bus, and answers at its PMBus address. -/
def pmbusTarget : Dev :=
  let d : Dev := { clk := { hub := true, now := 1000 } }
  ((d.wr (TW_STATUS.IDLE_SEEN 0) 1).wr (TW_STATUS.STATE 0) Ts.idle).wr (TW_PMB.PMB_EN 0) 1

/-- The PMBus address. -/
def pmbusAddr : BitVec 7 := BitVec.ofNat 7 (pmbusTarget.rd (TW_PMB.PMB_ADDR 0))

/-- PAGE is acknowledged there. -/
theorem page_devTargetWrite_pmbusTarget : (devTargetWrite 0 pmbusAddr.toNat [0, 3] none pmbusTarget).bmc.page = 3 := by decide +kernel

/-- Refutes O49: its clause for a transfer to an address of no window leaves it unacknowledged. At the PMBus address of TW0 it is a PMBus
command (R394, R395), as two later clauses of the statement say. -/
theorem not_twoWireTarget : ¬ Obligations.TwoWireTarget := by
  unfold Obligations.TwoWireTarget
  rintro ⟨-, hnoWindow, -⟩
  have ht := hnoWindow pmbusTarget [] 0 pmbusAddr [0, 3] none (pmbusTarget.twLines 0 pmbusTarget.now) rfl (by decide +kernel)
    (by decide +kernel)
  have hpage := page_devTargetWrite_pmbusTarget
  rw [of_exec_eq_next (f := devTargetWrite 0 pmbusAddr.toNat [0, 3] none) (fun _ _ => rfl) ht] at hpage
  exact absurd hpage (by decide +kernel)

end Sys2Proof.Machine
end

section
/-! PROOFS. The arithmetic of the cores: rounding (R411), the flags (R405) and the conditions of BC (R414). -/

namespace Sys2Proof.Machine

set_option Elab.async false

/-! ## Rounding (R411) -/

/-- RND 0: the floor. -/
theorem roundQuot_floor (a : Int) {b : Nat} (hb : 0 < b) : (b : Int) * roundQuot 0 a b ≤ a ∧ a < b * (roundQuot 0 a b + 1) := by
  have hpos : (0 : Int) < b := by exact_mod_cast hb
  refine ⟨Int.mul_ediv_self_le hpos.ne', ?_⟩
  rw [Int.mul_add, Int.mul_one]
  exact Int.lt_mul_ediv_self_add hpos

/-- Of a number at or above 0, RND 1 is within half a unit, and not below where it is half a unit away. -/
theorem roundQuot_away_of_nonneg {a : Int} (ha : 0 ≤ a) {b : Nat} (hb : 0 < b) :
    2 * (a - b * roundQuot 1 a b) ≤ b ∧ -(b : Int) ≤ 2 * (a - b * roundQuot 1 a b) ∧ 2 * (a - b * roundQuot 1 a b) ≠ b := by
  have hq : roundQuot 1 a b = (2 * a + b) / (2 * b) := if_pos ha
  have hpos : (0 : Int) < 2 * b := by omega
  have hle := Int.mul_ediv_self_le (x := 2 * a + b) hpos.ne'
  have hlt := Int.lt_mul_ediv_self_add (x := 2 * a + b) hpos
  rw [← hq, Int.mul_assoc] at hle hlt
  omega

/-- RND 1 treats a number and its negative alike. -/
theorem roundQuot_away_neg {a : Int} (ha : a < 0) (b : Nat) : roundQuot 1 a b = -roundQuot 1 (-a) b := by
  have hpos : roundQuot 1 (-a) b = (2 * -a + b) / (2 * b) := if_pos (by omega)
  rw [hpos, Int.mul_neg]
  exact if_neg (by omega)

/-- RND 1: the nearest, ties away from zero. -/
theorem roundQuot_away (a : Int) {b : Nat} (hb : 0 < b) :
    (2 * (a - b * roundQuot 1 a b)).natAbs ≤ b ∧
    ((2 * (a - b * roundQuot 1 a b)).natAbs = b → a.natAbs ≤ (b * roundQuot 1 a b).natAbs) := by
  rcases lt_or_ge a 0 with ha | ha
  · have h := roundQuot_away_of_nonneg (a := -a) (by omega) hb
    rw [roundQuot_away_neg ha, Int.mul_neg]
    omega
  · have h := roundQuot_away_of_nonneg ha hb
    omega

/-- RND 2: the nearest, ties to even. -/
theorem roundQuot_even (a : Int) {b : Nat} (hb : 0 < b) :
    (2 * (a - b * roundQuot 2 a b)).natAbs ≤ b ∧ ((2 * (a - b * roundQuot 2 a b)).natAbs = b → roundQuot 2 a b % 2 = 0) := by
  have hpos : (0 : Int) < b := by exact_mod_cast hb
  have hle := Int.mul_ediv_self_le (x := a) hpos.ne'
  have hlt := Int.lt_mul_ediv_self_add (x := a) hpos
  show (2 * (a - b * divEven a b)).natAbs ≤ b ∧ ((2 * (a - b * divEven a b)).natAbs = b → divEven a b % 2 = 0)
  unfold divEven
  dsimp only
  rw [Int.mul_comm (a / b) b]
  split
  case isTrue => omega
  case isFalse =>
    split
    case isTrue =>
      rw [Int.mul_add, Int.mul_one]
      omega
    case isFalse =>
      split
      case isTrue => omega
      case isFalse =>
        rw [Int.mul_add, Int.mul_one]
        omega

/-- RND 3: the magnitude is cut off. -/
theorem roundQuot_zero (a : Int) (b : Nat) :
    (roundQuot 3 a b).natAbs = a.natAbs / b ∧ (0 ≤ a → 0 ≤ roundQuot 3 a b) ∧ (a ≤ 0 → roundQuot 3 a b ≤ 0) := by
  show (divZero a b).natAbs = a.natAbs / b ∧ (0 ≤ a → 0 ≤ divZero a b) ∧ (a ≤ 0 → divZero a b ≤ 0)
  unfold divZero
  split
  case isTrue ha =>
    lift a to Nat using ha
    refine ⟨rfl, fun _ => Int.natCast_nonneg _, fun h => ?_⟩
    obtain rfl : a = 0 := by omega
    simp
  case isFalse ha =>
    obtain ⟨n, rfl⟩ : ∃ n : Nat, a = -(n : Int) := ⟨a.natAbs, by omega⟩
    rw [neg_neg, Int.natAbs_neg, Int.natAbs_neg]
    exact ⟨rfl, fun h => absurd h ha, fun _ => Int.neg_nonpos_of_nonneg (Int.natCast_nonneg (n / b))⟩

/-- Settles O10: one lemma for each mode; the exact product of MAC and MSU of type H and the clip of SAT to W read no RND. -/
theorem roundingModes : Obligations.RoundingModes :=
  ⟨fun a _ hb => ⟨roundQuot_floor a hb, roundQuot_away a hb, roundQuot_even a hb, roundQuot_zero a _⟩,
    fun _ _ _ _ _ _ => ⟨rfl, rfl, rfl⟩⟩

/-! ## Flags (R405) -/

theorem testBit_clrBit_self (v b : Nat) : (clrBit v b).testBit b = false := by
  unfold clrBit
  split
  case isTrue h =>
    have hadd := Nat.testBit_two_pow_add_eq (v - 2 ^ b) b
    rw [Nat.add_sub_cancel' (Nat.ge_two_pow_of_testBit h), h] at hadd
    simpa using hadd.symm
  case isFalse h => simpa using h

theorem testBit_clrBit_of_lt (v : Nat) {b k : Nat} (hk : k < b) : (clrBit v b).testBit k = v.testBit k := by
  unfold clrBit
  split
  case isTrue h => rw [← Nat.testBit_two_pow_add_gt hk, Nat.add_sub_cancel' (Nat.ge_two_pow_of_testBit h)]
  case isFalse => rfl

theorem testBit_setBit_of_lt (v : Nat) {b k : Nat} (hk : k < b) : (setBit v b).testBit k = v.testBit k := by
  simp [setBit, Nat.testBit_two_pow_of_ne hk.ne']

/-- One flag of FLAGS after an operation: written, or left as it is. -/
def flagPut (w b : Nat) (v : Option Bool) : Nat :=
  match v with
  | none => w
  | some true => setBit w b
  | some false => clrBit w b

theorem testBit_flagPut_self (w b : Nat) (v : Option Bool) : (flagPut w b v).testBit b = v.getD (w.testBit b) := by
  match v with
  | none => rfl
  | some true => exact testBit_setBit w b
  | some false => exact testBit_clrBit_self w b

theorem testBit_flagPut_of_lt (w : Nat) {b k : Nat} (hk : k < b) (v : Option Bool) : (flagPut w b v).testBit k = w.testBit k := by
  match v with
  | none => rfl
  | some true => exact testBit_setBit_of_lt w hk
  | some false => exact testBit_clrBit_of_lt w hk

/-- FLAGS is written flag by flag, from bit 0 up. -/
theorem Alu.flags_eq (r : Alu) (old : Word) :
    r.flags old = BitVec.ofNat 32 (flagPut (flagPut (flagPut (flagPut (flagPut old.toNat 0 r.z) 1 r.n) 2 r.cy) 3 r.v) 4
      (if r.sat then some true else none)) := rfl

theorem Alu.bit_flags_zero (r : Alu) (old : Word) : bit (r.flags old).toNat 0 = r.z.getD (bit old.toNat 0) := by
  rw [Alu.flags_eq, bit, BitVec.toNat_ofNat, Nat.testBit_mod_two_pow]
  simp [testBit_flagPut_of_lt, testBit_flagPut_self, -Nat.testBit_zero, bit]

theorem Alu.bit_flags_one {r : Alu} {x : Bool} (h : r.n = some x) (old : Word) : bit (r.flags old).toNat 1 = x := by
  rw [Alu.flags_eq, bit, BitVec.toNat_ofNat, Nat.testBit_mod_two_pow, h]
  simp [testBit_flagPut_of_lt, testBit_flagPut_self]

theorem Alu.bit_flags_two {r : Alu} {x : Bool} (h : r.cy = some x) (old : Word) : bit (r.flags old).toNat 2 = x := by
  rw [Alu.flags_eq, bit, BitVec.toNat_ofNat, Nat.testBit_mod_two_pow, h]
  simp [testBit_flagPut_of_lt, testBit_flagPut_self]

/-! ## Branch conditions (R414) -/

/-- Two patterns of a type have the same signed value only if they are the same. -/
theorem sv_inj {ty a b : Nat} (ha : a < 2 ^ tyBits ty) (hb : b < 2 ^ tyBits ty) (h : sv ty a = sv ty b) : a = b := by
  unfold sv sext at h
  rw [Nat.mod_eq_of_lt ha, Nat.mod_eq_of_lt hb] at h
  generalize 2 ^ tyBits ty = m at ha hb h
  split at h <;> split at h <;> omega

/-- A BC whose first operand is not a condition code breaks R414. -/
theorem broken_of_not_code {p : Spec} (h : ¬ (p.mode = 4 ∧ p.f < 14)) : p.broken .cc 1 = true := by
  have hcode : (p.mode == 4 && decide (p.f < 14)) = false := by simpa using h
  simp [Spec.broken, hcode]

/-- The word and the specifiers of an instruction that breaks a rule of its operation are fetched, and ILLEGAL is raised. -/
theorem fetchInsn_of_broken {c pc w z : Nat} {ps : List Spec} {roles : List (Role × Nat)} {d e e' : Dev}
    (hw : fetchBytes c pc pc 2 d = .ok (w, e)) (hs : shape (bits w 15 9) (bits w 8 7) (bits w 3 2) = some roles)
    (hps : fetchSpecs c pc (bits w 3 2) (pc + 2) e = .ok ((ps, z), e'))
    (hbroken : (ps.zip roles).any (fun x => x.1.broken x.2.1 x.2.2) = true) : fetchInsn c pc d = .error (.exc 1 3 pc 0 pc .none) := by
  simp only [fetchInsn, bind, StateT.bind, Except.bind, hw, hs, hps, if_pos hbroken]
  rfl

/-- Any operand of BC but a code breaks the encoding. -/
theorem fetchInsn_of_not_code {c pc w z : Nat} {p : Spec} {ps : List Spec} {d e : Dev} (hop : bits w 15 9 = 0x31)
    (hty : bits w 8 7 = 1) (hcnt : bits w 3 2 = 2) (hw : fetchBytes c pc pc 2 d = .ok (w, e))
    (hps : (fetchSpecs c pc 2 (pc + 2) e).toOption.map (·.1) = some (p :: ps, z)) (hp : ¬ (p.mode = 4 ∧ p.f < 14)) :
    fetchInsn c pc d = .error (.exc 1 3 pc 0 pc .none) := by
  obtain ⟨e', hspecs⟩ : ∃ e', fetchSpecs c pc 2 (pc + 2) e = .ok ((p :: ps, z), e') := by
    cases h : fetchSpecs c pc 2 (pc + 2) e with
    | error st => rw [h] at hps; exact nomatch hps
    | ok r =>
      rw [h] at hps
      exact ⟨r.2, congrArg Except.ok (Prod.ext (Option.some.inj hps) rfl)⟩
  refine fetchInsn_of_broken (roles := [(.cc, 1), (.tgt, 1)]) hw (by rw [hop, hty, hcnt]; rfl) (by rw [hcnt]; exact hspecs) ?_
  simp [broken_of_not_code hp]

/-- Settles O12: the codes by their table; a BC without a code by the check of its specifiers; the codes after CMP by the flags that CMP
writes. -/
theorem branchConditions : Obligations.BranchConditions := by
  refine ⟨fun w => ?_, ?_, ?_⟩
  · have hbit : ∀ k, bit w.toNat k = w.getLsbD k := fun _ => rfl
    simp [codeHolds, hbit]
  · intro c pc w z ps d e hop hty hcnt hw hps p hp hcode
    cases ps with
    | nil => exact nomatch hp
    | cons q l =>
      obtain rfl : q = p := by simpa using hp
      exact fetchInsn_of_not_code hop hty hcnt hw hps hcode
  · intro ty a b old _ ha hb
    have hz : bit ((aluCmp ty a b).flags old).toNat 0 = (a == b) := Alu.bit_flags_zero _ _
    have hn : bit ((aluCmp ty a b).flags old).toNat 1 = decide (sv ty a < sv ty b) := Alu.bit_flags_one rfl _
    have hcy : bit ((aluCmp ty a b).flags old).toNat 2 = decide (a < b) := Alu.bit_flags_two rfl _
    have hsv : sv ty a ≤ sv ty b ↔ sv ty a < sv ty b ∨ a = b :=
      le_iff_lt_or_eq.trans (or_congr_right ⟨sv_inj ha hb, congrArg _⟩)
    simp [codeHolds, hz, hn, hcy, hsv, le_iff_lt_or_eq (a := a), Bool.beq_eq_decide_eq]

end Sys2Proof.Machine
end

section
/-! PROOFS. The Tartan code: its syndromes, and what a bank of one copy reads after a write (16_memory_protection.md R432-R437). -/

namespace Sys2Proof.Machine

set_option Elab.async false

/-! ## Syndromes (R432-R434) -/

theorem bitsOf_succ (n : Nat) (f : Nat → Bool) : bitsOf (n + 1) f = if f n then bitsOf n f + 2 ^ n else bitsOf n f := by
  simp [bitsOf, List.range_succ]

theorem bitsOf_lt (n : Nat) (f : Nat → Bool) : bitsOf n f < 2 ^ n := by
  induction n with
  | zero => exact Nat.one_pos
  | succ n ih =>
    rw [bitsOf_succ, Nat.pow_succ]
    split <;> omega

theorem testBit_bitsOf (n : Nat) (f : Nat → Bool) (i : Nat) : (bitsOf n f).testBit i = (decide (i < n) && f i) := by
  induction n with
  | zero => simp [bitsOf]
  | succ n ih =>
    have hn : (bitsOf n f).testBit n = false := Nat.testBit_lt_two_pow (bitsOf_lt n f)
    rw [bitsOf_succ]
    rcases Nat.lt_trichotomy i n with hi | rfl | hi
    · have hlow : (bitsOf n f + 2 ^ n).testBit i = (bitsOf n f).testBit i := by rw [Nat.add_comm, Nat.testBit_two_pow_add_gt hi]
      simp [apply_ite (Nat.testBit · i), hlow, ih, hi, Nat.lt_succ_of_lt hi]
    · have hset : (bitsOf i f + 2 ^ i).testBit i = true := by rw [Nat.add_comm, Nat.testBit_two_pow_add_eq, hn]; rfl
      cases hf : f i <;> simp [hset, hn]
    · have hlt : (if f n then bitsOf n f + 2 ^ n else bitsOf n f) < 2 ^ (n + 1) := bitsOf_succ n f ▸ bitsOf_lt (n + 1) f
      rw [Nat.testBit_lt_two_pow (lt_of_lt_of_le hlt (Nat.pow_le_pow_right (by decide) hi)), decide_eq_false (by omega)]
      rfl

/-- A number made bit by bit from the sums of bits is the sum of the numbers. -/
theorem bitsOf_xor (n : Nat) (f g : Nat → Bool) : bitsOf n (fun i => f i ^^ g i) = bitsOf n f ^^^ bitsOf n g := by
  refine Nat.eq_of_testBit_eq fun i => ?_
  rw [Nat.testBit_xor, testBit_bitsOf, testBit_bitsOf, testBit_bitsOf]
  cases decide (i < n) <;> rfl

theorem parity_xor (v w n : Nat) : parity (v ^^^ w) n = (parity v n ^^ parity w n) := by
  induction n with
  | zero => rfl
  | succ n ih =>
    rw [parity, parity, parity, ih, Nat.testBit_xor]
    cases v.testBit n <;> cases w.testBit n <;> cases parity v n <;> cases parity w n <;> rfl

theorem rowChecks_xor (v w : Nat) : rowChecks (v ^^^ w) = rowChecks v ^^^ rowChecks w := by
  have hbyte : ∀ r, (v ^^^ w) / 256 ^ r % 256 = (v / 256 ^ r % 256) ^^^ (w / 256 ^ r % 256) := by
    intro r
    have hpow : (256 : Nat) ^ r = 2 ^ (8 * r) := by rw [Nat.pow_mul]
    rw [hpow, Nat.xor_div_two_pow]
    exact Nat.xor_mod_two_pow (n := 8)
  simp only [rowChecks, hbyte, parity_xor, bitsOf_xor]

theorem colChecks_xor (v w : Nat) : colChecks (v ^^^ w) = colChecks v ^^^ colChecks w := by
  simp only [colChecks, Nat.testBit_xor, bitsOf_xor, parity_xor]

/-- The code is linear: the syndromes of two masks together are the sums of theirs. -/
theorem syndromes_xor (e f : BitVec 80) :
    syndromes (e ^^^ f) = ((syndromes e).1 ^^^ (syndromes f).1, (syndromes e).2 ^^^ (syndromes f).2) := by
  have hrow : (e ^^^ f).toNat / 2 ^ 64 % 256 = (e.toNat / 2 ^ 64 % 256) ^^^ (f.toNat / 2 ^ 64 % 256) := by
    rw [BitVec.toNat_xor, Nat.xor_div_two_pow]
    exact Nat.xor_mod_two_pow (n := 8)
  have hcol : (e ^^^ f).toNat / 2 ^ 72 % 256 = (e.toNat / 2 ^ 72 % 256) ^^^ (f.toNat / 2 ^ 72 % 256) := by
    rw [BitVec.toNat_xor, Nat.xor_div_two_pow]
    exact Nat.xor_mod_two_pow (n := 8)
  unfold syndromes
  dsimp only
  rw [hrow, hcol, BitVec.toNat_xor, Nat.xor_mod_two_pow, rowChecks_xor, colChecks_xor]
  ac_rfl

/-- The row syndrome of one damaged bit. -/
def rowSyn (k : Nat) : Nat := if k < 64 then 2 ^ (k / 8) else if k < 72 then 2 ^ (k - 64) else 0

/-- Its column syndrome. -/
def colSyn (k : Nat) : Nat := if k < 64 then 2 ^ (k % 8) else if k < 72 then 0 else 2 ^ (k - 72)

theorem syndromes_single : ∀ k < 80, syndromes (1#80 <<< k) = (rowSyn k, colSyn k) := by decide +kernel

/-- One damaged bit is located: a data bit by its row and its column, a check bit by its own. -/
theorem decodeSyn_single : ∀ k < 80, decodeSyn (rowSyn k, colSyn k) = if k < 64 then .data k else if k < 72 then .row (k - 64) else .col (k - 72) := by
  decide +kernel

theorem popByte_pair : ∀ i < 8, ∀ j < 8, i ≠ j → popByte (2 ^ i ^^^ 2 ^ j) = 2 := by decide +kernel

theorem popByte_two_pow : ∀ i < 8, popByte (2 ^ i) = 1 := by decide +kernel

/-- Two bits in one syndrome locate nothing. -/
theorem decodeSyn_of_two {s : Nat × Nat} (h : popByte s.1 = 2 ∨ popByte s.2 = 2) : decodeSyn s = .bad := by
  unfold decodeSyn
  rcases h with h | h
  · rw [h]
    split <;> trivial
  · rw [h]
    split <;> simp_all

/-- Two damaged bits are not located, but for a data bit with a check bit of its own row or column, and a row with a column check
bit. -/
theorem decodeSyn_pair {k l : Nat} (hkl : k < l) (hl : l < 80) (hown : ¬ (k < 64 ∧ (l = 64 + k / 8 ∨ l = 72 + k % 8)))
    (hchecks : ¬ (64 ≤ k ∧ k < 72 ∧ 72 ≤ l)) : decodeSyn (rowSyn k ^^^ rowSyn l, colSyn k ^^^ colSyn l) = .bad := by
  apply decodeSyn_of_two
  by_cases hk : k < 64
  · by_cases hl64 : l < 64
    · by_cases hrow : k / 8 = l / 8
      · right
        simpa [colSyn, hk, hl64] using popByte_pair (k % 8) (by omega) (l % 8) (by omega) (by omega)
      · left
        simpa [rowSyn, hk, hl64] using popByte_pair (k / 8) (by omega) (l / 8) (by omega) hrow
    · by_cases hl72 : l < 72
      · left
        simpa [rowSyn, hk, hl64, hl72] using popByte_pair (k / 8) (by omega) (l - 64) (by omega) (by omega)
      · right
        simpa [colSyn, hk, hl64, hl72] using popByte_pair (k % 8) (by omega) (l - 72) (by omega) (by omega)
  · by_cases hl72 : l < 72
    · left
      simpa [rowSyn, hk, hl72, show k < 72 by omega, show ¬ l < 64 by omega] using
        popByte_pair (k - 64) (by omega) (l - 64) (by omega) (by omega)
    · right
      simpa [colSyn, hk, hl72, show ¬ k < 72 by omega, show ¬ l < 64 by omega] using
        popByte_pair (k - 72) (by omega) (l - 72) (by omega) (by omega)

/-- Two damaged bits in one mask. -/
theorem or_eq_xor_of_lt {k l : Nat} (hkl : k < l) : (1#80 <<< k) ||| (1#80 <<< l) = (1#80 <<< k) ^^^ (1#80 <<< l) := by
  ext i hi
  simp only [BitVec.getElem_or, BitVec.getElem_xor, BitVec.getElem_shiftLeft, BitVec.getElem_one]
  have hne : ¬ (i - k = 0 ∧ ¬ i < k ∧ i - l = 0 ∧ ¬ i < l) := by omega
  by_cases hk : i < k <;> by_cases hl : i < l <;> by_cases hk0 : i - k = 0 <;> by_cases hl0 : i - l = 0 <;> simp_all

/-! ## Bytes -/

/-- The value of a run of bytes. -/
theorem leNat_map_range (f : Nat → Byte) (m k n : Nat) (hkn : k + n ≤ m) :
    leNat ((List.range m).map f) k n = (List.range n).foldr (fun i a => (f (k + i)).toNat + 256 * a) 0 := by
  induction n generalizing k with
  | zero => rfl
  | succ n ih =>
    rw [leNat, ih (k + 1) (by omega), List.range_succ_eq_map, List.foldr_cons, List.foldr_map]
    have hbyte : byteAt ((List.range m).map f) k = (f k).toNat := by simp [byteAt, List.getD_eq_getElem?_getD, show k < m by omega]
    simp only [hbyte, Nat.add_zero, Nat.add_assoc, Nat.add_comm 1]

/-- The eight bytes of a number, each by its place. -/
theorem leNat_bytes (v : Nat) : leNat ((List.range 8).map fun k => BitVec.ofNat 8 (v / 256 ^ k)) 0 8 = v % 2 ^ 64 := by
  rw [leNat_map_range _ 8 0 8 (by decide)]
  simp only [List.range, List.range.loop, List.foldr, BitVec.toNat_ofNat]
  omega

theorem leNat_lt (bs : List Byte) (k n : Nat) : leNat bs k n < 256 ^ n := by
  induction n generalizing k with
  | zero => exact Nat.one_pos
  | succ n ih =>
    have hb : byteAt bs k < 256 := (bs.getD k 0).isLt
    have hr := ih (k + 1)
    rw [leNat, Nat.pow_succ]
    omega

/-- Bytes merged into a granule leave a granule. -/
theorem mergeBytes_lt {old o n : Nat} (hold : old < 2 ^ 64) (hon : o + n ≤ 8) (new : Nat) : mergeBytes old o n new < 2 ^ 64 := by
  obtain ⟨m, hm⟩ : ∃ m, 8 = o + n + m := ⟨8 - (o + n), by omega⟩
  have hsplit : (2 : Nat) ^ 64 = 256 ^ o * (256 ^ n * 256 ^ m) := by
    rw [← Nat.pow_add, ← Nat.pow_add, ← Nat.add_assoc, ← hm]
    norm_num
  have hhigh : old / 256 ^ o / 256 ^ n < 256 ^ m := by
    rw [Nat.div_div_eq_div_mul, Nat.div_lt_iff_lt_mul (by positivity)]
    calc old < 2 ^ 64 := hold
      _ = 256 ^ m * (256 ^ o * 256 ^ n) := by rw [hsplit]; ring
  have hnew : new % 256 ^ n < 256 ^ n := Nat.mod_lt _ (by positivity)
  have hmid : new % 256 ^ n + 256 ^ n * (old / 256 ^ o / 256 ^ n) < 256 ^ n * 256 ^ m := by
    calc new % 256 ^ n + 256 ^ n * (old / 256 ^ o / 256 ^ n) < 256 ^ n + 256 ^ n * (old / 256 ^ o / 256 ^ n) := Nat.add_lt_add_right hnew _
      _ = 256 ^ n * (old / 256 ^ o / 256 ^ n + 1) := by ring
      _ ≤ 256 ^ n * 256 ^ m := Nat.mul_le_mul_left _ hhigh
  have hlow : old % 256 ^ o < 256 ^ o := Nat.mod_lt _ (by positivity)
  have hval : mergeBytes old o n new = old % 256 ^ o + 256 ^ o * (new % 256 ^ n + 256 ^ n * (old / 256 ^ o / 256 ^ n)) := by
    have hold1 := Nat.mod_add_div old (256 ^ o)
    have hold2 := Nat.mod_add_div (old / 256 ^ o) (256 ^ n)
    have hsum : old = old % 256 ^ o + old / 256 ^ o % 256 ^ n * 256 ^ o + 256 ^ o * (256 ^ n * (old / 256 ^ o / 256 ^ n)) := by
      calc old = old % 256 ^ o + 256 ^ o * (old / 256 ^ o) := hold1.symm
        _ = old % 256 ^ o + 256 ^ o * (old / 256 ^ o % 256 ^ n + 256 ^ n * (old / 256 ^ o / 256 ^ n)) := by rw [hold2]
        _ = _ := by ring
    have hcut : old - old / 256 ^ o % 256 ^ n * 256 ^ o = old % 256 ^ o + 256 ^ o * (256 ^ n * (old / 256 ^ o / 256 ^ n)) := by omega
    rw [mergeBytes, hcut]
    ring
  rw [hval, hsplit]
  calc old % 256 ^ o + 256 ^ o * (new % 256 ^ n + 256 ^ n * (old / 256 ^ o / 256 ^ n))
      < 256 ^ o + 256 ^ o * (new % 256 ^ n + 256 ^ n * (old / 256 ^ o / 256 ^ n)) := Nat.add_lt_add_right hlow _
    _ = 256 ^ o * (new % 256 ^ n + 256 ^ n * (old / 256 ^ o / 256 ^ n) + 1) := by ring
    _ ≤ 256 ^ o * (256 ^ n * 256 ^ m) := Nat.mul_le_mul_left _ hmid

/-! ## A bank of one copy (R430, R432) -/

section
variable {d : Dev} {b g v : Nat} (hone : bankPartner b = none) (hplain : bankTables b = [])

include hone in
theorem bankMates_of_one : bankMates b = [b] := by
  have hloom : ¬ (0x88 ≤ b ∧ b < 0x90) := by
    intro h
    have hpartner : bankPartner b = some (if b % 2 = 0 then b + 1 else b - 1) := by
      unfold bankPartner
      rw [if_neg (by omega), if_neg (by omega), if_neg (by omega), if_neg (by omega), if_pos h]
    exact nomatch hpartner.symm.trans hone
  rw [bankMates, if_neg hloom, hone]

include hone in
theorem copiesOn_of_one (hon : d.bankGone b = false) : d.copiesOn b = [b] := by simp [Dev.copiesOn, hone, hon]

theorem bankGone_of_bankOff (hon : d.bankOff b = false) : d.bankGone b = false := by simp [Dev.bankGone, hon]

/-- The bytes of a bank after the first `n` of a granule's words in use. -/
def putBytes (m : KV Byte) (b g v n : Nat) : KV Byte :=
  (List.range n).foldl (fun m k => KV.put (fun _ => 0) m (bankKey b (8 * g + k)) (BitVec.ofNat 8 (v / 256 ^ k))) m

theorem putBytes_succ (m : KV Byte) (b g v n : Nat) :
    putBytes m b g v (n + 1) = KV.put (fun _ => 0) (putBytes m b g v n) (bankKey b (8 * g + n)) (BitVec.ofNat 8 (v / 256 ^ n)) := by
  simp [putBytes, List.range_succ]

theorem get_putBytes_same (m : KV Byte) (b g v : Nat) {k n : Nat} (hk : k < n) :
    KV.get (fun _ => 0) (putBytes m b g v n) (bankKey b (8 * g + k)) = BitVec.ofNat 8 (v / 256 ^ k) := by
  induction n with
  | zero => exact absurd hk (Nat.not_lt_zero k)
  | succ n ih =>
    rw [putBytes_succ]
    by_cases hkn : k = n
    · rw [hkn, KV.get_put_same]
    · rw [KV.get_put_ne (by unfold bankKey; omega), ih (by omega)]

theorem get_putBytes_ne (m : KV Byte) {b g : Nat} (v : Nat) {n x : Nat} (hx : ∀ k < n, x ≠ bankKey b (8 * g + k)) :
    KV.get (fun _ => 0) (putBytes m b g v n) x = KV.get (fun _ => 0) m x := by
  induction n with
  | zero => rfl
  | succ n ih => rw [putBytes_succ, KV.get_put_ne (hx n (Nat.lt_succ_self n)), ih fun k hk => hx k (Nat.lt_succ_of_lt hk)]

include hplain in
theorem Dev.putWords_of_plain (d : Dev) (g v : Nat) :
    d.putWords b g v = { d with mem := { d.mem with data := putBytes d.mem.data b g v 8 } } := by
  simp only [Dev.putWords, hplain]
  rfl

include hone hplain in
/-- A write of a whole granule: its mask is gone, and its bytes are the new ones. -/
theorem Dev.putGranAll_of_one (hon : d.bankGone b = false) : ∃ e, d.putGranAll b g v =
    { d with mem := { d.mem with err := KV.put (fun _ => 0) (KV.put (fun _ => 0) d.mem.err (granKey b g) e) (granKey b g) 0,
                                 data := putBytes d.mem.data b g v 8 } } := by
  refine ⟨d.granErr b g ^^^ maskOf v (d.granWord b g), ?_⟩
  rw [Dev.putGranAll, copiesOn_of_one hone hon, Dev.reMask, bankMates_of_one hone, Dev.putWords_of_plain hplain]
  rfl

include hone hplain in
/-- A correction written back does the same. -/
theorem Dev.putGran_of_one (d : Dev) (g v : Nat) : d.putGran b g v =
    { d with mem := { d.mem with err := KV.put (fun _ => 0) d.mem.err (granKey b g) 0, data := putBytes d.mem.data b g v 8 } } := by
  rw [Dev.putGran, bankMates_of_one hone]
  exact Dev.putWords_of_plain hplain _ _ _

include hplain in
theorem Dev.granClean_of_plain (d : Dev) (g : Nat) :
    d.granClean b g = (List.range 8).map fun k => KV.get (fun _ => 0) d.mem.data (bankKey b (8 * g + k)) := by
  simp only [Dev.granClean, hplain]

theorem Dev.granStored_lt (d : Dev) (b g : Nat) : d.granStored b g < 2 ^ 64 :=
  Nat.xor_lt_two_pow (leNat_lt _ 0 8) (Nat.mod_lt _ (by decide))

/-- An undamaged granule decodes to what it stores. -/
theorem Dev.decoded_of_undamaged (h : d.granErr b g = 0) : d.decoded b g = some (d.granStored b g, false) := by
  have hclean : decodeSyn (syndromes 0) = .clean := by decide
  simp only [Dev.decoded, h, hclean]

include hone in
/-- Read from the only copy, it comes back as it is stored. -/
theorem Dev.readGran_of_undamaged (hon : d.bankGone b = false) (h : d.granErr b g = 0) (a x : Nat) :
    d.readGran b g a x = (d, some (d.granStored b g)) := by
  simp only [Dev.readGran, hone, hon, Dev.readCopy, Dev.decoded_of_undamaged h, Bool.false_eq_true, if_false]

include hone hplain in
/-- After a write of a whole granule a read returns the value written. -/
theorem Dev.readGran_putGranAll (hon : d.bankOff b = false) (hv : v < 2 ^ 64) (a x : Nat) :
    ((d.putGranAll b g v).readGran b g a x).2 = some v := by
  obtain ⟨e, he⟩ := Dev.putGranAll_of_one (g := g) (v := v) hone hplain (bankGone_of_bankOff hon)
  have herr : (d.putGranAll b g v).granErr b g = 0 := by
    rw [he]
    simp only [Dev.granErr, KV.get_put_same]
  have hgone : (d.putGranAll b g v).bankGone b = false := by
    rw [he]
    exact bankGone_of_bankOff hon
  have hclean : (d.putGranAll b g v).granClean b g = (List.range 8).map fun k => BitVec.ofNat 8 (v / 256 ^ k) := by
    rw [Dev.granClean_of_plain hplain, he]
    exact List.map_congr_left fun k hk => get_putBytes_same _ _ _ _ (List.mem_range.mp hk)
  rw [Dev.readGran_of_undamaged hone hgone herr, Dev.granStored, herr, hclean, leNat_bytes, Nat.mod_eq_of_lt hv]
  simp

include hone hplain in
/-- The granules of the other places hold what they held. -/
theorem Dev.granStored_putGranAll_ne (hon : d.bankOff b = false) (hg : 8 * g + 7 < 0x100000) {b' g' : Nat} (hplain' : bankTables b' = [])
    (hg' : 8 * g' + 7 < 0x100000) (hne : (b', g') ≠ (b, g)) : (d.putGranAll b g v).granStored b' g' = d.granStored b' g' := by
  obtain ⟨e, he⟩ := Dev.putGranAll_of_one (g := g) (v := v) hone hplain (bankGone_of_bankOff hon)
  have hplace : b' ≠ b ∨ g' ≠ g := by
    by_contra h
    push Not at h
    exact hne (Prod.ext h.1 h.2)
  have hkey : granKey b' g' ≠ granKey b g := by unfold granKey; omega
  have herr : (d.putGranAll b g v).granErr b' g' = d.granErr b' g' := by
    rw [he]
    simp only [Dev.granErr, KV.get_put_ne hkey]
  have hclean : (d.putGranAll b g v).granClean b' g' = d.granClean b' g' := by
    rw [Dev.granClean_of_plain hplain', Dev.granClean_of_plain hplain', he]
    refine List.map_congr_left fun k hk => get_putBytes_ne _ _ fun j hj => ?_
    have hk8 : k < 8 := List.mem_range.mp hk
    unfold bankKey
    omega
  rw [Dev.granStored, Dev.granStored, herr, hclean]

include hone in
/-- A write to an undamaged granule of a bank that is online takes effect: whole, or with the old bytes around it. -/
theorem Dev.writeGran_of_undamaged (hon : d.bankOff b = false) (h : d.granErr b g = 0) (o n a : Nat) :
    d.writeGran b g o n v a = (d.putGranAll b g (if o = 0 ∧ n = 8 then v else mergeBytes (d.granStored b g) o n v), true) := by
  have hgone := bankGone_of_bankOff hon
  have hpair : d.pairGone b = false := by simp [Dev.pairGone, hgone]
  simp only [Dev.writeGran, hpair, copiesOn_of_one hone hgone, Dev.decoded_of_undamaged h, Bool.false_eq_true, not_false_eq_true, and_true,
    if_false]
  split
  · rfl
  · rfl

end

/-- Settles O14: whole by the write itself, narrower by what the granule decodes to, elsewhere by the keys. -/
theorem bankReadAfterWrite : Obligations.BankReadAfterWrite := by
  intro d b g v a x hone hplain hon hg hv
  have hpair : d.pairGone b = false := by simp [Dev.pairGone, bankGone_of_bankOff hon]
  refine ⟨?_, fun o n hle hn h => ?_, fun b' g' o n hplain' hg' hne h => ?_⟩
  · have hwrite : d.writeGran b g 0 8 v a = (d.putGranAll b g v, true) := by simp [Dev.writeGran, hpair]
    rw [hwrite]
    exact ⟨rfl, Dev.readGran_putGranAll hone hplain hon hv a x⟩
  · rw [Dev.writeGran_of_undamaged hone hon h, if_neg (by omega)]
    exact ⟨rfl, Dev.readGran_putGranAll hone hplain hon (mergeBytes_lt (d.granStored_lt b g) hle v) a x⟩
  · rw [Dev.writeGran_of_undamaged hone hon h]
    exact Dev.granStored_putGranAll_ne hone hplain hon hg hplain' hg' hne

/-! ## Damage (R433-R436) -/

section
variable {d : Dev} {b g : Nat} (hone : bankPartner b = none) (hon : d.bankOff b = false)
include hone hon

/-- A located bit is corrected in the data, the granule is rewritten, and MEM_CE is on its way. -/
theorem Dev.readGran_of_corrected {v : Nat} (h : d.decoded b g = some (v, true)) (a x : Nat) :
    d.readGran b g a x = ((d.putGran b g v).memCe b g a x, some v) := by
  simp only [Dev.readGran, hone, bankGone_of_bankOff hon, Dev.readCopy, h, Bool.false_eq_true, if_false]

/-- Where nothing is located no data comes back, and the bank is taken offline. -/
theorem Dev.readGran_of_uncorrectable (h : d.decoded b g = none) (a x : Nat) : d.readGran b g a x = (d.memUe b g a x, none) := by
  simp only [Dev.readGran, hone, bankGone_of_bankOff hon, Dev.readCopy, h, Bool.false_eq_true, if_false]

end

/-- A bank that is taken offline is offline. -/
theorem Dev.bankOff_memUe (d : Dev) (b g a x : Nat) : (d.memUe b g a x).bankOff b = true := by
  have hrd : (d.memUe b g a x).rd (MEM_OFFLINE.OFFLINE (b / 32)) =
      ((d.evt MEM_EVT.EVT 1).setBankOff b true).rd (MEM_OFFLINE.OFFLINE (b / 32)) :=
    Dev.rd_congr (by rw [Dev.word, Dev.memUe, Dev.raiseAt_regs]; rfl)
  rw [Dev.bankOff, Dev.rdBit, hrd, Dev.setBankOff, Dev.wrBit, if_pos rfl, Dev.rd_wr_same _ (MEM_OFFLINE.OFFLINE (b / 32)) _ (Nat.le_refl 32), Nat.testBit_mod_two_pow,
    testBit_setBit, Bool.and_true]
  exact decide_eq_true (Nat.mod_lt _ (by decide))

/-- One damaged bit is corrected to what the granule holds in use. -/
theorem Dev.decoded_single {d : Dev} {b g k : Nat} (hk : k < 80) (h : d.granErr b g = 1#80 <<< k) :
    d.decoded b g = some (leNat (d.granClean b g) 0 8, true) := by
  have hmask : (1#80 <<< k).toNat = 2 ^ k := by
    rw [BitVec.toNat_shiftLeft, BitVec.toNat_ofNat, Nat.shiftLeft_eq, Nat.one_mod_eq_one.mpr (by decide), Nat.one_mul]
    exact Nat.mod_eq_of_lt (Nat.pow_lt_pow_right (by decide) hk)
  simp only [Dev.decoded, Dev.granStored, h, hmask, syndromes_single k hk, decodeSyn_single k hk]
  by_cases hdata : k < 64
  · rw [if_pos hdata, Nat.mod_eq_of_lt (Nat.pow_lt_pow_right (by decide) hdata)]
    simp
  · have hzero : 2 ^ k % 2 ^ 64 = 0 := Nat.mod_eq_zero_of_dvd (Nat.pow_dvd_pow 2 (by omega))
    rw [if_neg hdata, hzero]
    by_cases hrow : k < 72 <;> simp [hrow]

/-- Settles O13: a single bit by its syndromes, a pair by the linear code. -/
theorem tartanCorrection : Obligations.TartanCorrection := by
  intro d b g a x hone hplain hon
  refine ⟨fun k hk h => ?_, fun k l hkl hl hown hchecks h => ?_⟩
  · rw [Dev.readGran_of_corrected hone hon (Dev.decoded_single hk h), Dev.putGran_of_one hone hplain]
    refine ⟨rfl, ?_, Dev.reports_raiseAt _ _ _ _ _ _ _, ?_⟩
    · simp [Dev.memCe, Dev.granErr]
    · exact (congrArg (Nat.testBit · 0) (Dev.rd_congr (by rw [Dev.word, Dev.memCe, Dev.raiseAt_regs]; rfl))).trans
        (Dev.testBit_evt _ MEM_EVT.EVT 0 (by decide) (by decide))
  · have hbad : d.decoded b g = none := by
      simp only [Dev.decoded, h, or_eq_xor_of_lt hkl, syndromes_xor, syndromes_single k (hkl.trans hl), syndromes_single l hl,
        decodeSyn_pair hkl hl hown hchecks]
    rw [Dev.readGran_of_uncorrectable hone hon hbad]
    exact ⟨rfl, Dev.bankOff_memUe d b g a x, Dev.reports_raiseAt _ _ _ _ _ _ _⟩

end Sys2Proof.Machine
end

section
/-! PROOFS. A stream block in a bank that is offline (13_stream_link.md R357; 16_memory_protection.md R439), and cores whose watchdog window
closes on the clock of an instruction (15_mograthes_cores.md R422, R423). -/

namespace Sys2Proof.Machine

set_option Elab.async false

/-! ## The head block of a VC cannot be read (R357, R439) -/

/-- A block of one granule in bank 0x60. -/
def queuedBlock : Block := { btype := 2, k := 0, thread := 5, tag := 0, stamp := 0 }

/-- The link is UP and VC 0 holds that block and credit for it, but bank 0x60 is offline. -/
def headOffline : Dev :=
  let d : Dev := { clk := { hub := true, now := 1000 }, stream := { ctrlAt := 1600 } }
  ((((((d.wr SL_STATUS.LSTATE Ls.up).wr (OWN.STATE (ownIx 5 0)) 1).wr (OWN.FUNCTION (ownIx 5 0)) 1).wr (VC_CREDIT.LIMIT 0) 1).setBankOff 0x60
    true).onV 0 fun x => { x with q := [queuedBlock] })

/-- The slot goes out IDLE, and the block stays queued. -/
theorem queue_devFlitSlot_headOffline : ((devFlitSlot headOffline).V 0).q = [queuedBlock] := by decide +kernel

theorem queue_dataFlit_headOffline : ((headOffline.dataFlit 0).V 0).q ≠ [queuedBlock] := by decide +kernel

/-- Refutes O51: its clause for a slot with a VC that has data and credit sends a DATA flit, whatever the memory. A block in a bank that is
offline cannot be read (R439), so the slot goes out IDLE. -/
theorem not_streamLink : ¬ Obligations.StreamLink := by
  unfold Obligations.StreamLink
  rintro ⟨-, -, hdata, -⟩
  have ht := hdata headOffline [] 0 (by decide +kernel) (by decide +kernel) (by decide +kernel)
  have hqueue := queue_devFlitSlot_headOffline
  rw [of_exec_eq_next (f := devFlitSlot) (fun _ _ => rfl) ht] at hqueue
  exact queue_dataFlit_headOffline hqueue

/-! ## A watchdog window that closes on the clock of an instruction (R422, R423) -/

/-- Core 0 runs at address 0 of its code, and has not kicked its watchdog in time. -/
def watchdogOver (code : KV Byte) : Dev :=
  let d : Dev := { clk := { hub := true, now := 1000000 }, mem := { data := code } }
  ((d.wr (CORE_STATUS.STATE 0) Ks.running).wr (CORE_CFG.WDT_EN 0) 1).onK 0 fun x => { x with wdt := some 0 }

/-- On that clock the core is fenced, whatever its instruction. -/
theorem Dev.insn_of_wdtOver {d : Dev} {c : Nat} (hrun : d.ks c = Ks.running) (hover : d.wdtOver c = true) (op : Nat) (body : Insn → Act Next) :
    d.insn c op body = d.lockup c := by
  rw [Dev.insn, if_neg (by simp [hrun]), if_pos hover]

/-- A core that is fenced has not retired its instruction. -/
theorem not_exec_eq_retire {i : Instr} {d w : Dev} {c op next : Nat} {body : Insn → Act Next} {n : Next}
    (hexec : ∀ e rest, exec i ⟨e, rest⟩ = .next ⟨e.insn c op body, rest⟩) (hrun : d.ks c = Ks.running) (hover : d.wdtOver c = true)
    (hks : (d.lockup c).ks c ≠ (w.retire c next n).ks c) (h : exec i ⟨d, []⟩ = .next ⟨w.retire c next n, []⟩) : False := by
  have heq := of_exec_eq_next (f := fun e => e.insn c op body) hexec h
  rw [Dev.insn_of_wdtOver hrun hover] at heq
  exact hks (by rw [heq])

/-- ADD SP, 1. -/
def addCode : KV Byte := [(0, 0x88), (1, 0x10), (2, 0x22), (3, 0x14)]

/-- The instruction as fetched. -/
def addInsn : Insn := { word := 0x1088, specs := [⟨2, 2, 0⟩, ⟨1, 4, 0⟩], next := 4 }

/-- What it comes to where the watchdog is quiet. -/
def addDone : Dev :=
  ((watchdogOver addCode).onK 0 fun x => { x with flags := (aluAdd 1 false 262144 1).flags x.flags }).putSpecial 0 2 (stored 1 (aluAdd 1 false 262144 1).val)

/-- Refutes O52: its clauses ask for a core that runs, and not for a watchdog that is quiet. On the clock on which its window closes the core
is fenced and its instruction does not retire (R422). -/
theorem not_additiveInsns : ¬ Obligations.AdditiveInsns := by
  unfold Obligations.AdditiveInsns
  rintro ⟨-, -, -, -, -, hadd, -⟩
  have h := hadd (watchdogOver addCode) [] 0 addInsn (watchdogOver addCode) ⟨2, 2, 0⟩ ⟨1, 4, 0⟩ (.at (.spec 2)) 262144 1 (watchdogOver addCode)
    (watchdogOver addCode) addDone (by decide +kernel) (by decide +kernel) rfl (by decide +kernel) rfl (by decide +kernel)
    (by decide +kernel) (by decide +kernel)
  exact not_exec_eq_retire (fun _ _ => rfl) (by decide +kernel) (by decide +kernel) (by decide +kernel) h

/-- MUL SP, 1. -/
def mulCode : KV Byte := [(0, 0x88), (1, 0x20), (2, 0x22), (3, 0x14)]

/-- The instruction as fetched. -/
def mulInsn : Insn := { word := 0x2088, specs := [⟨2, 2, 0⟩, ⟨1, 4, 0⟩], next := 4 }

/-- What it comes to where the watchdog is quiet. -/
def mulDone : Dev :=
  ((watchdogOver mulCode).onK 0 fun x => { x with flags := (aluMul 1 0 false 262144 1).flags x.flags }).putSpecial 0 2
    (stored 1 (aluMul 1 0 false 262144 1).val)

/-- Refutes O53, as O52: the window of the watchdog closes on the clock of a MUL. -/
theorem not_productInsns : ¬ Obligations.ProductInsns := by
  unfold Obligations.ProductInsns
  rintro ⟨-, -, hmul, -⟩
  have h := hmul (watchdogOver mulCode) [] 0 mulInsn (watchdogOver mulCode) ⟨2, 2, 0⟩ ⟨1, 4, 0⟩ (.at (.spec 2)) 262144 1 (watchdogOver mulCode)
    (watchdogOver mulCode) mulDone (by decide +kernel) (by decide +kernel) rfl (by decide +kernel) rfl (by decide +kernel)
    (by decide +kernel) (by decide +kernel)
  exact not_exec_eq_retire (fun _ _ => rfl) (by decide +kernel) (by decide +kernel) (by decide +kernel) h

/-- Refutes O54, as O52: the window of the watchdog closes on the clock of a NOP, which memory at reset holds. -/
theorem not_unaryInsns : ¬ Obligations.UnaryInsns := by
  unfold Obligations.UnaryInsns
  rintro ⟨-, -, -, -, -, -, -, -, -, -, -, -, hnop⟩
  have h := hnop (watchdogOver []) [] 0 { word := 0, specs := [], next := 2 } (watchdogOver []) (by decide +kernel) (by decide +kernel) rfl
    (by decide +kernel)
  exact not_exec_eq_retire (fun _ _ => rfl) (by decide +kernel) (by decide +kernel) (by decide +kernel) h

/-- A FENCE of the core. -/
def fenceCode : KV Byte := [(0, 0x80), (1, 0x72)]

/-- Refutes O55, as O52: the window of the watchdog closes on the clock of a FENCE of the core. -/
theorem not_controlInsns : ¬ Obligations.ControlInsns := by
  unfold Obligations.ControlInsns
  rintro ⟨-, -, -, -, -, -, -, -, -, -, -, -, hfence, -⟩
  have h := hfence (watchdogOver fenceCode) [] 0 { word := 0x7280, specs := [], next := 2 } (watchdogOver fenceCode) (by decide +kernel)
    (by decide +kernel) rfl (by decide +kernel)
  exact not_exec_eq_retire (fun _ _ => rfl) (by decide +kernel) (by decide +kernel) (by decide +kernel) h

end Sys2Proof.Machine
end

section
/-! PROOFS. PMBus on TW0 (14_two_wire.md R395-R397). -/

namespace Sys2Proof.Machine

set_option Elab.async false

/-! ## The lines and the BMC: no line moves what the PMBus side holds -/

section
variable (d : Dev) (n : Nat)

@[simp] theorem Dev.twAbort_bmc (err : Nat) : (d.twAbort n err).bmc = d.bmc := by
  unfold Dev.twAbort
  split
  · simp [Dev.twEnd]
  · rfl

@[simp] theorem Dev.twTimedOut_bmc : (d.twTimedOut n).bmc = d.bmc := (Dev.raise_bmc _ _ _ _ _).trans (d.twAbort_bmc n 4)

theorem Dev.ite_bmc {p : Prop} [Decidable p] {a b d : Dev} (ha : a.bmc = d.bmc) (hb : b.bmc = d.bmc) : (if p then a else b).bmc = d.bmc := by
  split
  · exact ha
  · exact hb

@[simp] theorem Dev.sclFalls_bmc (t : Nat) : (d.sclFalls n t).bmc = d.bmc := Dev.ite_bmc rfl rfl

@[simp] theorem Dev.sclRises_bmc (t : Nat) : (d.sclRises n t).bmc = d.bmc := Dev.ite_bmc (d.twTimedOut_bmc n) rfl

@[simp] theorem Dev.sdaFalls_bmc (t : Nat) : (d.sdaFalls n t).bmc = d.bmc := Dev.ite_bmc rfl rfl

@[simp] theorem Dev.attended_bmc : (d.attended n).bmc = d.bmc := Dev.ite_bmc rfl rfl

@[simp] theorem Dev.sdaRises_bmc (t : Nat) : (d.sdaRises n t).bmc = d.bmc := Dev.ite_bmc (Dev.attended_bmc (d.wr (TW_STATUS.BUS_HELD n) 0) n) rfl

@[simp] theorem Dev.linePast_bmc (t : Nat) : (d.linePast n t).bmc = d.bmc := by
  have hidle : ∀ (p : Prop) [Decidable p], (if p then d.wr (TW_STATUS.IDLE_SEEN n) 1 else d).bmc = d.bmc := fun _ _ => Dev.ite_bmc rfl rfl
  have hheld : ∀ (p : Prop) [Decidable p] (e : Dev), (if p then e.heldShow n else e).bmc = e.bmc := fun _ _ _ => Dev.ite_bmc rfl rfl
  unfold Dev.linePast
  extract_lets e f
  have hf : f.bmc = d.bmc := (hheld _ e).trans (hidle _)
  split
  · exact hf
  · exact hf

@[simp] theorem Dev.sclTake_bmc (t : Nat) : (d.sclTake n t).bmc = d.bmc := by
  unfold Dev.sclTake
  dsimp only
  split <;> simp

@[simp] theorem Dev.sdaTake_bmc (t : Nat) : (d.sdaTake n t).bmc = d.bmc := by
  unfold Dev.sdaTake
  dsimp only
  split <;> simp

@[simp] theorem Dev.lineNext_bmc (lim : Nat) : (d.lineNext n lim).bmc = d.bmc := by
  unfold Dev.lineNext
  split
  · split <;> simp
  · simp
  · simp
  · rfl

@[simp] theorem Dev.twLines_bmc (lim : Nat) : (d.twLines n lim).bmc = d.bmc := by
  unfold Dev.twLines Dev.twApply
  dsimp only
  split <;> simp

end

/-! ## The STOP and the pointer of the PMBus address -/

@[simp] theorem Dev.twServed_bmc (d : Dev) (n : Nat) : (d.twServed n).bmc = d.bmc := by
  unfold Dev.twServed
  split <;> rfl

theorem Dev.twServed_ptr (d : Dev) : (d.twServed 0).rd (TW_STATUS.PTR 0) = d.rd (TW_STATUS.PTR 0) := by
  unfold Dev.twServed
  split
  · calc ((d.wr (TW_STATUS.STATE 0) Ts.idle).twHigh 0 true).rd (TW_STATUS.PTR 0)
        = ((d.wr (TW_STATUS.STATE 0) Ts.idle).wr (TW_STATUS.BUS_HELD 0) 0).rd (TW_STATUS.PTR 0) := rfl
      _ = (d.wr (TW_STATUS.STATE 0) Ts.idle).rd (TW_STATUS.PTR 0) := Dev.rd_wr_apart _ _ _ _ (by unfold Fld.apart; decide) (by decide)
      _ = d.rd (TW_STATUS.PTR 0) := Dev.rd_wr_apart _ _ _ _ (by unfold Fld.apart; decide) (by decide)
  · rfl

@[simp] theorem Dev.pmbIn_bmc (d : Dev) (code : Nat) : (d.pmbIn code).bmc = d.bmc := by
  unfold Dev.pmbIn Dev.winSeen
  dsimp only
  split <;> rfl

theorem Dev.pmbIn_ptr (d : Dev) {code : Nat} (h : code < 2 ^ 16) : (d.pmbIn code).rd (TW_STATUS.PTR 0) = code := by
  have hsame := Dev.rd_wr_same ((d.winSeen 0 7 true).onW 0 fun x => { x with ptr := nput x.ptr 7 code, lastWin := 7 }) (TW_STATUS.PTR 0) code
    (by decide)
  exact hsame.trans (Nat.mod_eq_of_lt h)

/-- The pointer and the state of the block are the words that addressing it moves: the PMBus address stays. -/
theorem Dev.pmbIn_pmbAddr (d : Dev) (code : Nat) (read : Bool) : (d.pmbIn code).pmbAddr read = d.pmbAddr read := by
  have hwr : ∀ (e : Dev) (v : Nat), (e.wr (TW_STATUS.PTR 0) v).rd (TW_PMB.PMB_ADDR 0) = e.rd (TW_PMB.PMB_ADDR 0) :=
    fun e v => Dev.rd_wr_apart _ _ _ _ (by unfold Fld.apart; decide) (by decide)
  have hseen : (d.winSeen 0 7 true).rd (TW_PMB.PMB_ADDR 0) = d.rd (TW_PMB.PMB_ADDR 0) := by
    unfold Dev.winSeen
    dsimp only
    rw [hwr]
    split
    · exact Dev.rd_wr_apart _ _ _ _ (by unfold Fld.apart; decide) (by decide)
    · rfl
  have hin : (d.pmbIn code).rd (TW_PMB.PMB_ADDR 0) = d.rd (TW_PMB.PMB_ADDR 0) := by
    rw [Dev.pmbIn, Dev.setPtr, hwr]
    exact hseen
  rw [Dev.pmbAddr, hin, Dev.pmbAddr]

theorem Dev.pmbIn_pmbPecOk (d : Dev) (c code : Nat) (data : List Byte) (pec : Option Byte) :
    (d.pmbIn c).pmbPecOk code data pec = d.pmbPecOk code data pec := by
  unfold Dev.pmbPecOk Dev.pmbHead
  rw [Dev.pmbIn_pmbAddr]

/-! ## A reply (R395) -/

@[simp] theorem length_leBytes (v n : Nat) : (leBytes v n).length = n := by
  induction n generalizing v with
  | zero => rfl
  | succ n ih => simp [leBytes, ih]

@[simp] theorem Dev.length_freeBytes (d : Dev) (n : Nat) : (d.freeBytes n).2.length = n := by
  induction n generalizing d with
  | zero => rfl
  | succ n ih => simp [Dev.freeBytes, ih]

@[simp] theorem Dev.freeBytes_bmc (d : Dev) (n : Nat) : (d.freeBytes n).1.bmc = d.bmc := by
  induction n generalizing d with
  | zero => rfl
  | succ n ih => exact ih d.nextFree

theorem Dev.freeBytes_rd (d : Dev) (n : Nat) (f : Fld) : (d.freeBytes n).1.rd f = d.rd f := by
  induction n generalizing d with
  | zero => rfl
  | succ n ih => exact ih d.nextFree

/-- What a controller that reads `r` bytes gets of `data`, where a PEC byte and open bytes `s` follow it. -/
theorem take_reply (data pec s : List Byte) (r : Nat) (hs : s.length = r - (data.length + pec.length)) :
    ((data ++ pec).take r ++ s).take data.length = data.take r := by
  by_cases h : r ≤ data.length
  · have hnil : s = [] := List.eq_nil_of_length_eq_zero (by omega)
    rw [hnil, List.append_nil, List.take_append_of_le_length h, List.take_take, Nat.min_eq_right h]
  · rw [List.take_append_of_le_length (by simp; omega), List.take_take, Nat.min_eq_left (by omega),
      List.take_append_of_le_length le_rfl, List.take_length, List.take_of_length_le (by omega)]

/-- Block `t` has answered a read of `reads` bytes with the `len` bytes of `w`, under the command code `code` and on the page of `e`. -/
def Dev.Answers (e t : Dev) (code len w reads : Nat) : Prop :=
  t.bmc.resp.take len = (leBytes w len).take reads ∧ t.bmc.resp.length = reads ∧ t.bmc.nack = false ∧ t.bmc.page = e.bmc.page ∧
    t.rd (TW_STATUS.PTR 0) = code

theorem Dev.answers_pmbReply (e : Dev) (wrote : List Byte) {code : Nat} (hcode : code < 2 ^ 16) (len w reads : Nat) :
    e.Answers (((e.pmbIn code).pmbReply wrote len w reads).twServed 0) code len w reads := by
  refine ⟨?_, ?_, ?_, ?_, ?_⟩
  · rw [Dev.twServed_bmc]
    have hlen := length_leBytes w len
    have htake := take_reply (leBytes w len) (leBytes (crc8 0 ((e.pmbIn code).pmbHead wrote ++ (e.pmbIn code).pmbAddr true ++ leBytes w len)) 1)
      ((e.pmbIn code).freeBytes (reads - (len + 1))).2 reads (by simp)
    rw [hlen] at htake
    exact htake
  · rw [Dev.twServed_bmc]
    simp [Dev.pmbReply, Dev.busOut]
    omega
  · rw [Dev.twServed_bmc]
    rfl
  · rw [Dev.twServed_bmc, ← e.pmbIn_bmc code, ← (e.pmbIn code).freeBytes_bmc (reads - (len + 1))]
    rfl
  · rw [Dev.twServed_ptr]
    exact (Dev.freeBytes_rd _ _ _).trans (e.pmbIn_ptr hcode)

/-! ## A command of the PMBus address, as the instructions give it -/

theorem Dev.pmbDo_of_on {d e : Dev} (he : e = d.twLines 0 d.now) (hon : e.pmbOn = true) (code : Nat) (f : Dev → Dev) :
    d.pmbDo code f = (f (e.pmbIn code)).twServed 0 := by
  subst he
  rw [Dev.pmbDo, if_pos hon]

theorem Dev.pmbDo_of_off {d e : Dev} (he : e = d.twLines 0 d.now) (hoff : e.pmbOn = false) (code : Nat) (f : Dev → Dev) :
    d.pmbDo code f = e.busOut [] true := by
  subst he
  rw [Dev.pmbDo, if_neg (by simp [hoff])]

section
variable {i : Instr} {x : PmbTail} {code : Nat} (hexec : ∀ e rest, exec i ⟨e, rest⟩ = .next ⟨Dev.pmbRead e code x, rest⟩)
  {d e : Dev} (he : e = d.twLines 0 d.now) (hon : e.pmbOn = true) (rest : List Instr)
include hexec he hon

/-- A read of a command that has a value is answered with it. -/
theorem exec_pmbRead_val {len w : Nat} (hval : d.pmbVal code = (len, .val w)) :
    exec i ⟨d, rest⟩ = .next ⟨((e.pmbIn code).pmbReply (leBytes code 1) len w x.reads).twServed 0, rest⟩ := by
  rw [hexec, Dev.pmbRead, hval, Dev.pmbDo_of_on he hon]
  rfl

theorem answers_pmbRead_val {len w : Nat} (hcode : code < 2 ^ 16) (hval : d.pmbVal code = (len, .val w)) :
    ∃ t : Dev, exec i ⟨d, rest⟩ = .next ⟨t, rest⟩ ∧ e.Answers t code len w x.reads :=
  ⟨_, exec_pmbRead_val hexec he hon rest hval, e.answers_pmbReply _ hcode len w x.reads⟩

/-- A read of a command that the page does not have is not acknowledged, and sets CML (R397). -/
theorem nack_pmbRead_no {len : Nat} (hval : d.pmbVal code = (len, .no)) :
    ∃ t : Dev, exec i ⟨d, rest⟩ = .next ⟨t, rest⟩ ∧ t.bmc.nack = true ∧ t.bmc.cml = true ∧ t.bmc.resp = [] := by
  refine ⟨(e.pmbIn code).pmbNack.twServed 0, ?_, ?_⟩
  · rw [hexec, Dev.pmbRead, hval, Dev.pmbDo_of_on he hon]
    rfl
  · rw [Dev.twServed_bmc]
    exact ⟨rfl, rfl, rfl⟩

end

/-! ## The value of a command on the present page (R395, R396) -/

section
variable {d : Dev} {rail entry : Nat → PmbVal}

theorem Dev.pmbPage_rail (hpage : d.bmc.page < 64) (hlink : d.railLink d.bmc.page = true) : d.pmbPage rail entry = rail d.bmc.page := by
  simp [Dev.pmbPage, Dev.pageOut', hpage, hlink]

theorem Dev.pmbPage_entry (hpage : 64 ≤ d.bmc.page) (hout : d.dieOut 4 = false) : d.pmbPage rail entry = entry (d.bmc.page - 64) := by
  simp [Dev.pmbPage, Dev.pageOut', Nat.not_lt.mpr hpage, hout]

theorem Dev.pmbPage_rail_no (hpage : d.bmc.page < 64) (hno : rail d.bmc.page = .no) : d.pmbPage rail entry = .no := by
  simp [Dev.pmbPage, hpage, hno]

theorem Dev.pmbPage_entry_no (hpage : 64 ≤ d.bmc.page) (hno : entry (d.bmc.page - 64) = .no) : d.pmbPage rail entry = .no := by
  simp [Dev.pmbPage, Nat.not_lt.mpr hpage, hno]

theorem pmbQuot_of_ne (num : Int) {den : Nat} (h : den ≠ 0) : pmbQuot num den = .val (linear11 num den) := if_neg h

theorem Dev.pmbStatusByte_of_val {w : Nat} (h : d.pmbStatus = .val w) : d.pmbStatusByte = .val (w % 256) := by
  rw [Dev.pmbStatusByte, h]

end

/-! ### On a rail page -/

section
variable {d : Dev} (hpage : d.bmc.page < 64) (hlink : d.railLink d.bmc.page = true)
include hpage hlink

theorem Dev.pmbStatus_rail : d.pmbStatus = .val (d.railStatus d.bmc.page) := Dev.pmbPage_rail hpage hlink

theorem Dev.pmbVin_rail {p b : Nat} (hp : (d.warp d.bmc.page).head? = some p) (hb : d.phBranch p = some b) :
    d.pmbVin = .val (linear11 ((d.B b).vin * 46875) 10000000) := by
  rw [Dev.pmbVin, Dev.pmbPage_rail hpage hlink]
  simp only [hp, hb]
  exact pmbQuot_of_ne _ (by decide)

theorem Dev.pmbVout_rail : d.pmbVout = .val (linear16 (d.rd (RAIL_VMEAS.VMEAS d.bmc.page)) 32000 13) := Dev.pmbPage_rail hpage hlink

theorem Dev.pmbIout_rail : d.pmbIout = .val (linear11 (d.rds (RAIL_IMEAS.IMEAS d.bmc.page)) 16) :=
  (Dev.pmbPage_rail hpage hlink).trans (pmbQuot_of_ne _ (by decide))

theorem Dev.pmbPout_rail : d.pmbPout = .val (linear11 (d.rd (RAIL_PMEAS.PMEAS d.bmc.page)) 10) :=
  (Dev.pmbPage_rail hpage hlink).trans (pmbQuot_of_ne _ (by decide))

end

/-! ### On an entry page -/

section
variable {d : Dev} {n : Nat} (hpage : 64 ≤ d.bmc.page) (hout : d.dieOut 4 = false) (hn : n = d.bmc.page - 64)
include hpage hout hn

theorem Dev.pmbStatus_entry : d.pmbStatus = .val (d.entryStatus n) := hn ▸ Dev.pmbPage_entry hpage hout

theorem Dev.pmbVin_entry : d.pmbVin = .val (linear11 ((d.E n).vin * 46875) 10000000) := by
  subst hn
  exact (Dev.pmbPage_entry hpage hout).trans (pmbQuot_of_ne _ (by decide))

theorem Dev.pmbIin_entry (hshunt : d.rd (ENT_SHUNT.RSHUNT n) ≠ 0) :
    d.pmbIin = .val (linear11 ((d.E n).i * 750000) (8192 * d.rd (ENT_SHUNT.RSHUNT n))) := by
  subst hn
  exact (Dev.pmbPage_entry hpage hout).trans (pmbQuot_of_ne _ (by omega))

theorem Dev.pmbVout_entry : d.pmbVout = .val (linear16 ((d.E n).vout * 46875) 10000000 8) := hn ▸ Dev.pmbPage_entry hpage hout

theorem Dev.pmbTemp_entry : d.pmbTemp = .val (linear11 (d.rds (ENT_STATUS.TJ_EST n)) 20) := by
  subst hn
  exact (Dev.pmbPage_entry hpage hout).trans (pmbQuot_of_ne _ (by decide))

theorem Dev.pmbPin_entry (hshunt : d.rd (ENT_SHUNT.RSHUNT n) ≠ 0) :
    d.pmbPin = .val (linear11 ((d.E n).vin * 46875 * ((d.E n).i * 750000)) (10000000 * (8192 * d.rd (ENT_SHUNT.RSHUNT n)))) := by
  subst hn
  exact (Dev.pmbPage_entry hpage hout).trans (pmbQuot_of_ne _ (by omega))

end

/-! ## PAGE and CLEAR_FAULTS written (R395-R397) -/

theorem exec_page_of_on {d e : Dev} (he : e = d.twLines 0 d.now) (hon : e.pmbOn = true) (rest : List Instr) (v : Byte) (x : PmbTail) :
    exec (.page (some v) x) ⟨d, rest⟩ = .next ⟨((e.pmbIn 0x00).pagePut v x.pec).twServed 0, rest⟩ :=
  congrArg (fun t => Host.Outcome.next (State.mk t rest)) (Dev.pmbDo_of_on he hon 0x00 fun d => d.pagePut v x.pec)

section
variable (e : Dev) {v : Byte} {pec : Option Byte}

theorem Dev.pagePut_of_ok (hv : v.toNat ≤ 79) (hpec : e.pmbPecOk 0x00 [v] pec = true) :
    e.pagePut v pec = Dev.busOut { e with bmc := { e.bmc with page := v.toNat } } [] false := by
  rw [Dev.pagePut, if_neg (by omega), if_pos hpec]

theorem Dev.pagePut_of_badPec (hv : v.toNat ≤ 79) (hpec : e.pmbPecOk 0x00 [v] pec = false) :
    e.pagePut v pec = Dev.busOut { e with bmc := { e.bmc with cml := true } } [] false := by
  rw [Dev.pagePut, if_neg (by omega), if_neg (by simp [hpec])]

theorem Dev.pagePut_of_noPage (hv : 80 ≤ v.toNat) : e.pagePut v pec = e.pmbNack := if_pos hv

end

/-- PAGE is written. -/
theorem page_write_ok (d : Dev) (rest : List Instr) (v : Byte) (x : PmbTail) (e : Dev) (he : e = d.twLines 0 d.now) (hon : e.pmbOn = true)
    (hv : v.toNat ≤ 79) (hpec : e.pmbPecOk 0 [v] x.pec = true) :
    ∃ t : Dev, exec (.page (some v) x) ⟨d, rest⟩ = .next ⟨t, rest⟩ ∧ t.bmc.page = v.toNat ∧ t.bmc.cml = e.bmc.cml ∧ t.bmc.nack = false ∧
      t.rd (TW_STATUS.PTR 0) = 0 := by
  refine ⟨_, exec_page_of_on he hon rest v x, ?_⟩
  rw [Dev.pagePut_of_ok _ hv ((e.pmbIn_pmbPecOk _ _ _ _).trans hpec), Dev.twServed_ptr, Dev.twServed_bmc]
  exact ⟨rfl, by rw [← e.pmbIn_bmc 0]; rfl, rfl, e.pmbIn_ptr (by decide)⟩

/-- PAGE written under a wrong PEC. -/
theorem page_write_badPec (d : Dev) (rest : List Instr) (v : Byte) (x : PmbTail) (e : Dev) (he : e = d.twLines 0 d.now)
    (hon : e.pmbOn = true) (hv : v.toNat ≤ 79) (hpec : e.pmbPecOk 0 [v] x.pec = false) :
    ∃ t : Dev, exec (.page (some v) x) ⟨d, rest⟩ = .next ⟨t, rest⟩ ∧ t.bmc.page = e.bmc.page ∧ t.bmc.cml = true ∧ t.bmc.nack = false := by
  refine ⟨_, exec_page_of_on he hon rest v x, ?_⟩
  rw [Dev.pagePut_of_badPec _ hv ((e.pmbIn_pmbPecOk _ _ _ _).trans hpec), Dev.twServed_bmc]
  exact ⟨by rw [← e.pmbIn_bmc 0]; rfl, rfl, rfl⟩

/-- PAGE written to a block that does not answer its PMBus address. -/
theorem page_write_off (d : Dev) (rest : List Instr) (v : Byte) (x : PmbTail) (e : Dev) (he : e = d.twLines 0 d.now)
    (hoff : e.pmbOn = false) :
    ∃ t : Dev, exec (.page (some v) x) ⟨d, rest⟩ = .next ⟨t, rest⟩ ∧ t.bmc.page = e.bmc.page ∧ t.bmc.nack = true ∧ t.regs = e.regs :=
  ⟨e.busOut [] true,
    congrArg (fun t => Host.Outcome.next (State.mk t rest)) (Dev.pmbDo_of_off he hoff 0x00 fun d => d.pagePut v x.pec), rfl, rfl, rfl⟩

/-- PAGE written with a page that does not exist. -/
theorem page_write_noPage (d : Dev) (rest : List Instr) (v : Byte) (x : PmbTail) (e : Dev) (he : e = d.twLines 0 d.now)
    (hon : e.pmbOn = true) (hv : 80 ≤ v.toNat) :
    ∃ t : Dev, exec (.page (some v) x) ⟨d, rest⟩ = .next ⟨t, rest⟩ ∧ t.bmc.page = d.bmc.page ∧ t.bmc.cml = true ∧ t.bmc.nack = true := by
  refine ⟨_, exec_page_of_on he hon rest v x, ?_⟩
  rw [Dev.pagePut_of_noPage _ hv, Dev.twServed_bmc]
  refine ⟨?_, rfl, rfl⟩
  rw [← d.twLines_bmc 0 d.now, ← he, ← e.pmbIn_bmc 0]
  rfl

/-- CLEAR_FAULTS without a PEC byte. -/
theorem clearFaults_ok (d : Dev) (rest : List Instr) (x : PmbTail) (e : Dev) (he : e = d.twLines 0 d.now) (hon : e.pmbOn = true)
    (hpec : x.pec = none) :
    ∃ t : Dev, exec (.clearFaults x) ⟨d, rest⟩ = .next ⟨t, rest⟩ ∧ t.bmc.cml = false ∧ t.bmc.page = e.bmc.page ∧
      t.rd (TW_STATUS.PTR 0) = 3 := by
  refine ⟨_, congrArg (fun t => Host.Outcome.next (State.mk t rest)) (Dev.pmbDo_of_on he hon 0x03 fun d => d.clearCml x.pec), ?_⟩
  rw [hpec, Dev.twServed_ptr, Dev.twServed_bmc]
  exact ⟨rfl, by rw [← e.pmbIn_bmc 3]; rfl, e.pmbIn_ptr (by decide)⟩

/-- Settles O50: a read command gives the value that its page has, as bytes, a PEC byte and open bytes; one that the page does not have is
left unacknowledged. -/
theorem pmbusReads : Obligations.PmbusReads := by
  unfold Obligations.PmbusReads
  exact ⟨page_write_ok, page_write_badPec, page_write_off, page_write_noPage,
    fun _ rest _ _ he hon => exec_pmbRead_val (fun _ _ => rfl) he hon rest rfl,
    fun _ rest _ _ he hon => answers_pmbRead_val (fun _ _ => rfl) he hon rest (by decide) rfl,
    clearFaults_ok,
    fun _ rest _ _ he hon => exec_pmbRead_val (fun _ _ => rfl) he hon rest rfl,
    fun _ rest _ _ he hon => answers_pmbRead_val (fun _ _ => rfl) he hon rest (by decide) rfl,
    fun _ rest _ _ he hon => exec_pmbRead_val (fun _ _ => rfl) he hon rest rfl,
    fun _ rest _ _ he hon => answers_pmbRead_val (fun _ _ => rfl) he hon rest (by decide) rfl,
    fun _ rest _ _ he hon => exec_pmbRead_val (fun _ _ => rfl) he hon rest rfl,
    fun _ rest _ _ he hon => answers_pmbRead_val (fun _ _ => rfl) he hon rest (by decide) rfl,
    fun _ rest _ _ he hon hpage hlink =>
      exec_pmbRead_val (fun _ _ => rfl) he hon rest (congrArg (Prod.mk 2) (Dev.pmbStatus_rail hpage hlink)),
    fun _ rest _ _ he hon hpage hlink =>
      answers_pmbRead_val (fun _ _ => rfl) he hon rest (by decide) (congrArg (Prod.mk 2) (Dev.pmbStatus_rail hpage hlink)),
    fun _ rest _ _ _ he hon hpage hout hn =>
      exec_pmbRead_val (fun _ _ => rfl) he hon rest (congrArg (Prod.mk 2) (Dev.pmbStatus_entry hpage hout hn)),
    fun _ rest _ _ _ he hon hpage hout hn =>
      answers_pmbRead_val (fun _ _ => rfl) he hon rest (by decide) (congrArg (Prod.mk 2) (Dev.pmbStatus_entry hpage hout hn)),
    fun _ rest _ _ he hon hpage hlink =>
      exec_pmbRead_val (fun _ _ => rfl) he hon rest (congrArg (Prod.mk 1) (Dev.pmbStatusByte_of_val (Dev.pmbStatus_rail hpage hlink))),
    fun _ rest _ _ he hon hpage hlink =>
      answers_pmbRead_val (fun _ _ => rfl) he hon rest (by decide) (congrArg (Prod.mk 1) (Dev.pmbStatusByte_of_val (Dev.pmbStatus_rail hpage hlink))),
    fun _ rest _ _ _ he hon hpage hout hn =>
      exec_pmbRead_val (fun _ _ => rfl) he hon rest (congrArg (Prod.mk 1) (Dev.pmbStatusByte_of_val (Dev.pmbStatus_entry hpage hout hn))),
    fun _ rest _ _ _ he hon hpage hout hn =>
      answers_pmbRead_val (fun _ _ => rfl) he hon rest (by decide) (congrArg (Prod.mk 1) (Dev.pmbStatusByte_of_val (Dev.pmbStatus_entry hpage hout hn))),
    fun _ rest _ _ _ he hon hpage hout hn =>
      exec_pmbRead_val (fun _ _ => rfl) he hon rest (congrArg (Prod.mk 2) (Dev.pmbVin_entry hpage hout hn)),
    fun _ rest _ _ _ he hon hpage hout hn =>
      answers_pmbRead_val (fun _ _ => rfl) he hon rest (by decide) (congrArg (Prod.mk 2) (Dev.pmbVin_entry hpage hout hn)),
    fun _ rest _ _ _ _ he hon hpage hlink hp hb =>
      exec_pmbRead_val (fun _ _ => rfl) he hon rest (congrArg (Prod.mk 2) (Dev.pmbVin_rail hpage hlink hp hb)),
    fun _ rest _ _ _ _ he hon hpage hlink hp hb =>
      answers_pmbRead_val (fun _ _ => rfl) he hon rest (by decide) (congrArg (Prod.mk 2) (Dev.pmbVin_rail hpage hlink hp hb)),
    fun _ rest _ _ _ he hon hpage hout hn hshunt =>
      exec_pmbRead_val (fun _ _ => rfl) he hon rest (congrArg (Prod.mk 2) (Dev.pmbIin_entry hpage hout hn hshunt)),
    fun _ rest _ _ _ he hon hpage hout hn hshunt =>
      answers_pmbRead_val (fun _ _ => rfl) he hon rest (by decide) (congrArg (Prod.mk 2) (Dev.pmbIin_entry hpage hout hn hshunt)),
    fun _ rest _ _ he hon hpage hlink =>
      exec_pmbRead_val (fun _ _ => rfl) he hon rest (congrArg (Prod.mk 2) (Dev.pmbVout_rail hpage hlink)),
    fun _ rest _ _ he hon hpage hlink =>
      answers_pmbRead_val (fun _ _ => rfl) he hon rest (by decide) (congrArg (Prod.mk 2) (Dev.pmbVout_rail hpage hlink)),
    fun _ rest _ _ _ he hon hpage hout hn =>
      exec_pmbRead_val (fun _ _ => rfl) he hon rest (congrArg (Prod.mk 2) (Dev.pmbVout_entry hpage hout hn)),
    fun _ rest _ _ _ he hon hpage hout hn =>
      answers_pmbRead_val (fun _ _ => rfl) he hon rest (by decide) (congrArg (Prod.mk 2) (Dev.pmbVout_entry hpage hout hn)),
    fun _ rest _ _ he hon hpage hlink =>
      exec_pmbRead_val (fun _ _ => rfl) he hon rest (congrArg (Prod.mk 2) (Dev.pmbIout_rail hpage hlink)),
    fun _ rest _ _ he hon hpage hlink =>
      answers_pmbRead_val (fun _ _ => rfl) he hon rest (by decide) (congrArg (Prod.mk 2) (Dev.pmbIout_rail hpage hlink)),
    fun _ rest _ _ _ he hon hpage hout hn =>
      exec_pmbRead_val (fun _ _ => rfl) he hon rest (congrArg (Prod.mk 2) (Dev.pmbTemp_entry hpage hout hn)),
    fun _ rest _ _ _ he hon hpage hout hn =>
      answers_pmbRead_val (fun _ _ => rfl) he hon rest (by decide) (congrArg (Prod.mk 2) (Dev.pmbTemp_entry hpage hout hn)),
    fun _ rest _ _ he hon hpage hlink =>
      exec_pmbRead_val (fun _ _ => rfl) he hon rest (congrArg (Prod.mk 2) (Dev.pmbPout_rail hpage hlink)),
    fun _ rest _ _ he hon hpage hlink =>
      answers_pmbRead_val (fun _ _ => rfl) he hon rest (by decide) (congrArg (Prod.mk 2) (Dev.pmbPout_rail hpage hlink)),
    fun _ rest _ _ _ he hon hpage hout hn hshunt =>
      exec_pmbRead_val (fun _ _ => rfl) he hon rest (congrArg (Prod.mk 2) (Dev.pmbPin_entry hpage hout hn hshunt)),
    fun _ rest _ _ _ he hon hpage hout hn hshunt =>
      answers_pmbRead_val (fun _ _ => rfl) he hon rest (by decide) (congrArg (Prod.mk 2) (Dev.pmbPin_entry hpage hout hn hshunt)),
    fun _ rest _ _ he hon hpage => nack_pmbRead_no (fun _ _ => rfl) he hon rest (congrArg (Prod.mk 2) (Dev.pmbPage_rail_no hpage rfl)),
    fun _ rest _ _ he hon hpage => nack_pmbRead_no (fun _ _ => rfl) he hon rest (congrArg (Prod.mk 2) (Dev.pmbPage_rail_no hpage rfl)),
    fun _ rest _ _ he hon hpage => nack_pmbRead_no (fun _ _ => rfl) he hon rest (congrArg (Prod.mk 2) (Dev.pmbPage_rail_no hpage rfl)),
    fun _ rest _ _ he hon hpage =>
      nack_pmbRead_no (fun _ _ => rfl) he hon rest (congrArg (Prod.mk 2) (Dev.pmbPage_entry_no hpage rfl)),
    fun _ rest _ _ he hon hpage =>
      nack_pmbRead_no (fun _ _ => rfl) he hon rest (congrArg (Prod.mk 2) (Dev.pmbPage_entry_no hpage rfl))⟩

end Sys2Proof.Machine
end

section
/-! PROOFS. Every function of the model keeps the register map and the memories in canonical form (17_register_map.md R447;
16_memory_protection.md R429). One rule per function, in the order of the model, named after it under `Dev.canonical`: the proof of a
rule then reads as the function's body does. -/

namespace Sys2Proof.Machine

set_option Elab.async false

/-! ## Maps -/

namespace KV

variable {α : Type} [DecidableEq α] (dflt : Nat → α)

/-- A map built up by writes. -/
theorem wf_foldl {β : Type} {m : KV α} (h : wf dflt m = true) (l : List β) {f : KV α → β → KV α}
    (hf : ∀ r x, wf dflt r = true → wf dflt (f r x) = true) : wf dflt (l.foldl f m) = true :=
  l.foldlRecOn f h fun r hr x _ => hf r x hr

/-- Some keys alone. -/
theorem wf_filter (p : Nat → Bool) {m : KV α} (h : wf dflt m = true) : wf dflt (m.filter fun x => p x.1) = true := by
  induction m with
  | nil => rfl
  | cons x r ih =>
    obtain ⟨k, v⟩ := x
    have hc := (wf_cons dflt k v r).1 h
    rw [List.filter_cons]
    split
    · refine (wf_cons dflt k v _).2 ⟨hc.1, fun j hj => ?_, ih hc.2.2⟩
      obtain ⟨w, hw⟩ := head?_mem hj
      exact wf_mem_gt dflt h (List.mem_of_mem_filter hw)
    · exact ih hc.2.2

end KV

/-- Words that wait in CONFIGURE act. -/
theorem wf_foldl_staged {l : List (Nat × Option Word)} {m : KV Word} (h : KV.wf resetWord m = true) :
    KV.wf resetWord (l.foldl (fun r x => match x.2 with | none => r | some w => KV.put resetWord r x.1 w) m) = true := by
  refine KV.wf_foldl resetWord h l fun r x hr => ?_
  split
  · exact hr
  · exact KV.wf_put _ _ _ hr

theorem wf_resetRegs (stb : Bool) (m : KV Word) : KV.wf resetWord (resetRegs stb m) = true :=
  KV.wf_foldl resetWord rfl m fun _ _ hr => KV.wf_put _ _ _ hr

/-! ## Writes -/

section
variable {d : Dev} (h : d.canonical)
include h

theorem Dev.canonical.setWord {o : Nat} {w : Word} : (d.setWord o w).canonical := Dev.canonical_setWord h o w
theorem Dev.canonical.wr {f : Fld} {v : Nat} : (d.wr f v).canonical := Dev.canonical_wr h f v
theorem Dev.canonical.wri {f : Fld} {v : Int} : (d.wri f v).canonical := Dev.canonical_wri h f v
theorem Dev.canonical.hwWr {f : Fld} {v : Nat} : (d.hwWr f v).canonical := Dev.canonical_wr h f v
theorem Dev.canonical.bump {f : Fld} {k : Nat} : (d.bump f k).canonical := Dev.canonical_bump h f k
theorem Dev.canonical.evt {f : Fld} {b : Nat} : (d.evt f b).canonical := Dev.canonical_evt h f b
theorem Dev.canonical.wrBit {f : Fld} {b : Nat} {v : Bool} : (d.wrBit f b v).canonical := Dev.canonical_wrBit h f b v
theorem Dev.canonical.forL {α : Type} {l : List α} {f : Dev → α → Dev} (hf : ∀ e a, e.canonical → (f e a).canonical) :
    (d.forL l f).canonical := Dev.canonical_forL f hf l h
theorem Dev.canonical.foldl {α : Type} {l : List α} {f : Dev → α → Dev} (hf : ∀ e a, e.canonical → (f e a).canonical) :
    (l.foldl f d).canonical := Dev.canonical_forL f hf l h
theorem Dev.canonical.forN {n : Nat} {f : Dev → Nat → Dev} (hf : ∀ e k, e.canonical → (f e k).canonical) : (d.forN n f).canonical :=
  Dev.canonical_forN f hf n h
theorem Dev.canonical.setMask {b g : Nat} {m : BitVec 80} : (d.setMask b g m).canonical := Dev.canonical_setMask h b g m
theorem Dev.canonical.send {m : FMsg} : (d.send m).canonical := Dev.canonical_send h m
theorem Dev.canonical.raiseAt {k u a x s r : Nat} : (d.raiseAt k u a x s r).canonical := Dev.canonical_send h _
theorem Dev.canonical.setBankOff {b : Nat} {v : Bool} : (d.setBankOff b v).canonical := Dev.canonical_setBankOff h b v
theorem Dev.canonical.readGran {b g a x : Nat} : (d.readGran b g a x).1.canonical := Dev.canonical_readGran h b g a x
theorem Dev.canonical.tabMem {a o : Nat} {w : Word} : (d.tabMem a o w).canonical := Dev.canonical_tabMem h a o w
theorem Dev.canonical.twr {a : Nat} {f : Fld} {v : Nat} : (d.twr a f v).canonical := Dev.canonical_twr h a f v
theorem Dev.canonical.tabUse {a b o n : Nat} : (d.tabUse a b o n).canonical := Dev.canonical_tabUse h a b o n
theorem Dev.canonical.readBank {b o a x n : Nat} : (d.readBank b o a x n).1.canonical := Dev.canonical_readBank b a x n o h
theorem Dev.canonical.writeBank {b o a n : Nat} {bs : List Byte} : (d.writeBank b o a bs n).1.canonical := Dev.canonical_writeBank b a n o bs h
theorem Dev.canonical.hWr {x : Nat} {bs : List Byte} : (d.hWr x bs).canonical := Dev.canonical_hWr bs x h

end

/-! ## Choices -/

/-- The form speaks of the register map, the banks, their damage masks and host memory: an update of any other part keeps it. -/
theorem Dev.canonical.other {d : Dev} (h : d.canonical)
    {clk mode ent br retry rail ph port conv scv icv sage slot ring thr rq rqHi rqHead vc stream tw bmc core flt keep link hw stg} :
    Dev.canonical
      { regs := d.regs, host := d.host, mem := d.mem
        clk, mode, ent, br, retry, rail, ph, port, conv, scv, icv, sage, slot, ring, thr, rq, rqHi, rqHead, vc, stream, tw, bmc, core, flt
        keep, link, hw, stg } := h

/-- The same where the host's side changes besides its memory. -/
theorem Dev.canonical.host {d : Dev} (h : d.canonical)
    {clk mode ent br retry rail ph port conv scv icv sage slot ring thr rq rqHi rqHead vc stream tw bmc core flt keep link hw stg}
    {out rr msix pba hb fences pool rep ret fwd claims nextId rdata sumPrev down took} :
    Dev.canonical
      { regs := d.regs, mem := d.mem
        host := { mem := d.host.mem, out, rr, msix, pba, hb, fences, pool, rep, ret, fwd, claims, nextId, rdata, sumPrev, down, took }
        clk, mode, ent, br, retry, rail, ph, port, conv, scv, icv, sage, slot, ring, thr, rq, rqHi, rqHead, vc, stream, tw, bmc, core, flt
        keep, link, hw, stg } := h

/-- The same where the banks' activity changes, not what they hold. -/
theorem Dev.canonical.banks {d : Dev} (h : d.canonical)
    {clk mode ent br retry rail ph port conv scv icv sage slot ring thr rq rqHi rqHead vc stream tw bmc core flt keep link hw stg}
    {init stall scrub scrubAt copying copyOut} :
    Dev.canonical
      { regs := d.regs, host := d.host
        mem := { data := d.mem.data, err := d.mem.err, init, stall, scrub, scrubAt, copying, copyOut }
        clk, mode, ent, br, retry, rail, ph, port, conv, scv, icv, sage, slot, ring, thr, rq, rqHi, rqHead, vc, stream, tw, bmc, core, flt
        keep, link, hw, stg } := h

/-- The form, part by part. -/
theorem Dev.canonical.of {d : Dev} (hregs : KV.wf resetWord d.regs = true) (hdata : Memory.wf d.mem.data = true)
    (herr : KV.wf (fun _ => 0) d.mem.err = true) (hmem : Memory.wf d.host.mem = true) : d.canonical := ⟨hregs, hdata, herr, hmem⟩

/-- A block at its reset values, which keeps host memory. -/
theorem Dev.canonical.fresh {d : Dev} {mode : ModeSt} {clk : ClockSt} (h : d.canonical) :
    Dev.canonical { host := { mem := d.host.mem }, mode, clk } := by
  obtain ⟨-, -, -, hmem⟩ := h
  exact .of rfl rfl rfl hmem

theorem Dev.canonical.ite {p : Prop} [Decidable p] {a b : Dev} (ha : a.canonical) (hb : b.canonical) : (if p then a else b).canonical := by
  split
  · exact ha
  · exact hb

theorem Dev.canonical.ite_fst {α : Type} {p : Prop} [Decidable p] {a b : Dev × α} (ha : a.1.canonical) (hb : b.1.canonical) :
    (if p then a else b).1.canonical := by
  split
  · exact ha
  · exact hb

/-- What an operation has left, where the model takes its answer apart. -/
theorem Dev.canonical.fst {α : Type} {p : Dev × α} {e : Dev} {a : α} (hp : p = (e, a)) (h : p.1.canonical) : e.canonical := by
  subst hp
  exact h

/-! ## The functions of the model, in its order -/

/-! ### Machine/Ops -/

theorem Dev.canonical.rcTake {d : Dev} {off : Nat} {rc : Word} (h : d.canonical) : (d.rcTake off rc).1.canonical := by
  unfold Dev.rcTake
  extract_lets _
  split
  · exact .setWord h
  · extract_lets d1 _
    have hd1 : d1.canonical := .setWord h
    exact hd1

theorem Dev.canonical.swNote {d : Dev} {off agent : Nat} {w : Word} (h : d.canonical) : (d.swNote off agent w).canonical := h

theorem Dev.canonical.stage {d : Dev} {off : Nat} {w : Word} (h : d.canonical) : (d.stage off w).canonical := h

theorem Dev.canonical.setNow {d : Dev} {off : Nat} {w : Word} (h : d.canonical) : (d.setNow off w).canonical := by
  unfold Dev.setNow
  extract_lets d1
  have hd1 : d1.canonical := .setWord h
  exact hd1

theorem Dev.canonical.commit {d : Dev} (h : d.canonical) : d.commit.canonical := by
  obtain ⟨hregs, hdata, herr, hmem⟩ := h
  refine ⟨KV.wf_foldl resetWord hregs d.stg fun r x hr => ?_, hdata, herr, hmem⟩
  split
  · exact hr
  · split
    · exact hr
    · exact KV.wf_put _ _ _ hr

theorem Dev.canonical.onE {d : Dev} {n : Nat} {f : EntrySt → EntrySt} (h : d.canonical) : (d.onE n f).canonical := h

theorem Dev.canonical.onB {d : Dev} {n : Nat} {f : BranchSt → BranchSt} (h : d.canonical) : (d.onB n f).canonical := h

theorem Dev.canonical.onRT {d : Dev} {u : Nat} {f : RetrySt → RetrySt} (h : d.canonical) : (d.onRT u f).canonical := h

theorem Dev.canonical.onR {d : Dev} {r : Nat} {f : RailSt → RailSt} (h : d.canonical) : (d.onR r f).canonical := h

theorem Dev.canonical.onP {d : Dev} {p : Nat} {f : PhaseSt → PhaseSt} (h : d.canonical) : (d.onP p f).canonical := h

theorem Dev.canonical.onIP {d : Dev} {n : Nat} {f : PortSt → PortSt} (h : d.canonical) : (d.onIP n f).canonical := h

theorem Dev.canonical.onC {d : Dev} {c : Nat} {f : ConvSt → ConvSt} (h : d.canonical) : (d.onC c f).canonical := h

theorem Dev.canonical.onSQ {d : Dev} {k : Nat} {f : ScvSt → ScvSt} (h : d.canonical) : (d.onSQ k f).canonical := h

theorem Dev.canonical.onIC {d : Dev} {n : Nat} {f : IcvSt → IcvSt} (h : d.canonical) : (d.onIC n f).canonical := h

theorem Dev.canonical.onSG {d : Dev} {p : Nat} {f : SageSt → SageSt} (h : d.canonical) : (d.onSG p f).canonical := h

theorem Dev.canonical.onSL {d : Dev} {s : Nat} {f : SlotSt → SlotSt} (h : d.canonical) : (d.onSL s f).canonical := h

theorem Dev.canonical.onRG {d : Dev} {r : Nat} {f : RingSt → RingSt} (h : d.canonical) : (d.onRG r f).canonical := h

theorem Dev.canonical.onT {d : Dev} {t : Nat} {f : ThreadSt → ThreadSt} (h : d.canonical) : (d.onT t f).canonical := h

theorem Dev.canonical.onQ {d : Dev} {s : Nat} {f : List Entry → List Entry} (h : d.canonical) : (d.onQ s f).canonical := h

theorem Dev.canonical.onV {d : Dev} {v : Nat} {f : VcSt → VcSt} (h : d.canonical) : (d.onV v f).canonical := h

theorem Dev.canonical.onW {d : Dev} {n : Nat} {f : TwSt → TwSt} (h : d.canonical) : (d.onW n f).canonical := h

theorem Dev.canonical.onK {d : Dev} {c : Nat} {f : CoreSt → CoreSt} (h : d.canonical) : (d.onK c f).canonical := h

theorem Dev.canonical.nextFree {d : Dev} (h : d.canonical) : d.nextFree.canonical := h

theorem Dev.canonical.raiseL {d : Dev} {kind unit agent access level : Nat} (h : d.canonical) : (d.raiseL kind unit agent access level).canonical :=
  .send h

theorem Dev.canonical.raise {d : Dev} {kind unit agent access : Nat} (h : d.canonical) : (d.raise kind unit agent access).canonical := .raiseL h

theorem Dev.canonical.accessFault {d : Dev} {agent access off : Nat} (h : d.canonical) : (d.accessFault agent access off).canonical := .raiseAt h

theorem Dev.canonical.wign {d : Dev} {agent off reason : Nat} (h : d.canonical) : (d.wign agent off reason).canonical := by
  unfold Dev.wign
  extract_lets _ d1 d2
  have hd1 : d1.canonical := h
  have hd2 : d2.canonical := .hwWr hd1
  exact .ite (.ite (.wr (.wr (.wr hd2))) hd2) (.wr (.wr (.wr (.hwWr hd1))))

theorem Dev.canonical.complete {d : Dev} {t : Token} {status : Nat} (h : d.canonical) : (d.complete t status).canonical := by
  unfold Dev.complete
  split
  · exact .wr h
  · exact h
  · exact h

theorem Dev.canonical.completeAll {d : Dev} {ts : List Token} {status : Nat} (h : d.canonical) : (d.completeAll ts status).canonical :=
  .forL h fun _ _ he => .complete he

/-! ### Machine/Tartan -/

theorem Dev.canonical.tabRead {d : Dev} {agent off len n : Nat} (h : d.canonical) : (d.tabRead agent off len n).canonical := by
  unfold Dev.tabRead
  split
  · exact h
  · exact .tabUse h

theorem Dev.canonical.tbump {d : Dev} {agent : Nat} {f : Fld} {k : Nat} (h : d.canonical) : (d.tbump agent f k).canonical := .bump (.tabMem h)

theorem Dev.canonical.bankFresh {d : Dev} {b o len : Nat} (h : d.canonical) : (d.bankFresh b o len).canonical :=
  .ite h (.forN h fun _ _ he => .forL he fun _ _ he1 => .setMask he1)

theorem Dev.canonical.tabFresh {d : Dev} {off len : Nat} (h : d.canonical) : (d.tabFresh off len).canonical := by
  unfold Dev.tabFresh
  split
  · exact h
  · exact .bankFresh h

theorem Dev.canonical.tabReadAll {d : Dev} {agent : Nat} (h : d.canonical) : (d.tabReadAll agent).canonical :=
  .tabRead (.tabRead (.tabRead (.forN (.tabRead (.tabRead h)) fun _ _ he => .tabUse he)))

/-! ### Machine/Ownership -/

theorem Dev.canonical.readOwn {d : Dev} {rid agent : Nat} (h : d.canonical) : (d.readOwn rid agent).canonical := .tabRead h

theorem Dev.canonical.claim {d : Dev} {rid agent f tag : Nat} {lock : Bool} (h : d.canonical) : (d.claim rid agent f tag lock).1.canonical := by
  unfold Dev.claim
  extract_lets _ _ _ _ d1 d2 d3 d4 d5 d6 _ d7
  have hd1 : d1.canonical := .tabMem h
  have hd2 : d2.canonical := .wr hd1
  have hd3 : d3.canonical := .wr hd2
  have hd4 : d4.canonical := .wr hd3
  have hd5 : d5.canonical := .wr hd4
  have hd6 : d6.canonical := .wr hd5
  have hd7 : d7.canonical := .ite (.onV (.wr hd6)) hd6
  exact .ite_fst h (.ite_fst h (.ite_fst h (.ite_fst h (.ite_fst (.ite_fst h h) hd7))))

theorem Dev.canonical.freeOwn {d : Dev} {n agent : Nat} (h : d.canonical) : (d.freeOwn n agent).canonical := .setWord (.tabMem h)

theorem Dev.canonical.timerOff {d : Dev} {t : Nat} (h : d.canonical) : (d.timerOff t).canonical := by
  unfold Dev.timerOff
  extract_lets d1 _ d2 _ d3 _
  have hd1 : d1.canonical := .wr (.wr h)
  have hd2 : d2.canonical := hd1
  have hd3 : d3.canonical := .wr hd2
  exact .ite (.completeAll hd3) hd2

theorem Dev.canonical.countRecord {d : Dev} {ix status : Nat} (h : d.canonical) : (d.countRecord ix status).canonical :=
  .ite (.wr (.wr (.bump h))) (.bump h)

theorem Dev.canonical.reanswer {d : Dev} {t : Token} {status : Nat} (h : d.canonical) : (d.reanswer t status).canonical := by
  unfold Dev.reanswer
  split
  · exact h
  · exact .countRecord h
  · exact h

theorem Dev.canonical.unclaim {d : Dev} {rid : Nat} (h : d.canonical) : (d.unclaim rid).canonical := by
  unfold Dev.unclaim
  extract_lets _ _ _ d1 _ _ d2 d3 d4 _
  have hd1 : d1.canonical := .freeOwn h
  have hd2 : d2.canonical := .ite hd1 hd1
  have hd3 : d3.canonical := .ite (.timerOff hd2) hd2
  have hd4 : d4.canonical := .forL hd3 fun _ _ he => .reanswer he
  exact hd4

theorem Dev.canonical.claimIn {d : Dev} {rid agent f tag : Nat} {lock : Bool} {t : Token} (h : d.canonical) :
    (d.claimIn rid agent f tag lock t).1.canonical := by
  unfold Dev.claimIn
  extract_lets d1 _ _ _ x _ d2 _
  have hd1 : d1.canonical := .readOwn h
  have hx : x.1.canonical := .claim (.ite (.unclaim hd1) hd1)
  have hd2 : d2.canonical := hx
  exact .ite_fst hd2 hx

theorem Dev.canonical.release {d : Dev} {rid agent : Nat} {force : Bool} (h : d.canonical) : (d.release rid agent force).1.canonical :=
  .ite_fst (.readOwn h) (.ite_fst (.readOwn h) (.ite_fst (.readOwn h) (.ite_fst (.readOwn h) (.ite_fst (.readOwn h) (.ite_fst (.readOwn h) (.ite
      (.timerOff (.freeOwn (.readOwn h))) (.freeOwn (.readOwn h))))))))

theorem Dev.canonical.fenceOwn {d : Dev} {n : Nat} (h : d.canonical) : (d.fenceOwn n).canonical := by
  unfold Dev.fenceOwn
  extract_lets d1 _
  have hd1 : d1.canonical := .twr h
  exact .ite h hd1

theorem Dev.canonical.unfenceOwn {d : Dev} {n : Nat} (h : d.canonical) : (d.unfenceOwn n).canonical := by
  unfold Dev.unfenceOwn
  extract_lets d1 _
  have hd1 : d1.canonical := .twr h
  exact .ite hd1 h

/-! ### Machine/Rings -/

theorem Dev.canonical.sbWr {d : Dev} {off v n : Nat} (h : d.canonical) : (d.sbWr off v n).canonical := .ite (.hWr h) h

theorem Dev.canonical.raiseVec {d : Dev} {v : Nat} (h : d.canonical) : (d.raiseVec v).canonical := .ite h h

theorem Dev.canonical.unmaskVec {d : Dev} {v : Nat} (h : d.canonical) : (d.unmaskVec v).canonical := .ite h h

theorem Dev.canonical.itrClose {d : Dev} {n : Nat} (h : d.canonical) : (d.itrClose n).canonical := .ite (.raiseVec (.onRG h)) h

theorem Dev.canonical.itrNote {d : Dev} {n : Nat} {irq : Bool} (h : d.canonical) : (d.itrNote n irq).canonical :=
  .ite (.raiseVec (.onRG (.itrClose h))) (.onRG (.itrClose h))

theorem Dev.canonical.rgPut {d : Dev} {n : Nat} {bs : List Byte} {irq : Bool} (h : d.canonical) : (d.rgPut n bs irq).canonical :=
  .itrNote (.sbWr (.wr (.hWr h)))

theorem Dev.canonical.rgWait {d : Dev} {n : Nat} (h : d.canonical) : (d.rgWait n).canonical := .ite (.onRG h) h

theorem Dev.canonical.rgDrop {d : Dev} {n : Nat} (h : d.canonical) : (d.rgDrop n).canonical := .bump h

theorem Dev.canonical.fenceEnds {d : Dev} (h : d.canonical) : d.fenceEnds.canonical := by
  unfold Dev.fenceEnds
  extract_lets _ _ d1 _
  have hd1 : d1.canonical := .forL h fun _ _ he => he
  exact hd1

theorem Dev.canonical.markerIn {d : Dev} {code e : Nat} (h : d.canonical) : (d.markerIn code e).canonical := h

theorem Dev.canonical.markerPut {d : Dev} {f : FenceSt} {e : Nat} (h : d.canonical) : (d.markerPut f e).canonical :=
  .ite (.markerIn (.rgPut h)) (.ite (.rgWait (.onRG h)) h)

theorem Dev.canonical.markersOn {d : Dev} {e : Nat} (h : d.canonical) : (d.markersOn e).canonical :=
  .fenceEnds (.forL h fun _ _ he1 => .markerPut he1)

theorem Dev.canonical.evThread {d : Dev} {e : Nat} {bs : List Byte} (h : d.canonical) : (d.evThread e bs).1.canonical :=
  .ite_fst (.rgPut h) (.ite_fst (.rgWait (.onRG h)) (.rgDrop h))

theorem Dev.canonical.evTry {d : Dev} {e : Nat} {bs : List Byte} (h : d.canonical) : (d.evTry e bs).1.canonical := .ite_fst (.rgPut h) (.rgWait h)

theorem Dev.canonical.evEpoch {d : Dev} {e : Nat} {bs : List Byte} (h : d.canonical) : (d.evEpoch e bs).canonical := by
  unfold Dev.evEpoch
  split
  · next hr => exact .onRG (.fst hr (.evTry h))
  · next hr => exact .onRG (.fst hr (.evTry h))

theorem Dev.canonical.slotFree {d : Dev} {s : Nat} (h : d.canonical) : (d.slotFree s).canonical := .onSL (.forN (.tabFresh h) fun _ _ he => .twr he)

theorem Dev.canonical.report {d : Dev} {s code : Nat} (h : d.canonical) : (d.report s code).canonical := by
  unfold Dev.report
  extract_lets d1
  have hd1 : d1.canonical := .tabRead h
  refine .ite (.onSL hd1) ?_
  split
  · next hr => exact .onSL (.fst hr (.evTry hd1))
  · next hr => exact .onSL (.fst hr (.evTry hd1))

theorem Dev.canonical.reportAt {d : Dev} {s code t : Nat} (h : d.canonical) : (d.reportAt s code t).canonical :=
  .ite (.onSL (.report h)) (.ite (.ite (.slotFree (.report h)) (.onSL (.report h))) (.onSL (.report h)))

theorem Dev.canonical.reportLost {d : Dev} (h : d.canonical) : d.reportLost.canonical := .forN h fun _ _ he => .ite (.report he) he

theorem Dev.canonical.ringSetUp {d : Dev} {e : Nat} (h : d.canonical) : (d.ringSetUp e).canonical := by
  unfold Dev.ringSetUp
  extract_lets _ d1 _
  have hd1 : d1.canonical := h
  exact .ite (.forN hd1 fun _ _ he1 => .ite (.reportAt he1) he1) h

theorem Dev.canonical.dropOut {d : Dev} {o : Out} (h : d.canonical) : (d.dropOut o).canonical := h

theorem Dev.canonical.refetch {d : Dev} {n : Nat} (h : d.canonical) : (d.refetch n).canonical := .onRG h

theorem Dev.canonical.popOut {d : Dev} {o : Out} (h : d.canonical) : (d.popOut o).canonical := by
  unfold Dev.popOut
  refine .ite (.dropOut h) (.ite ?_ (.forN (.forN (.dropOut h) fun _ _ he => .refetch he) fun _ _ he => .refetch he))
  split
  · exact .refetch (.dropOut h)
  · exact .dropOut h

theorem Dev.canonical.advanceCi {d : Dev} {n : Nat} (h : d.canonical) : (d.advanceCi n).canonical := .ite (.sbWr (.wr h)) (.wr h)

theorem Dev.canonical.ciPast {d : Dev} {n : Nat} {o : Out} (h : d.canonical) : (d.ciPast n o).canonical := .ite h (.advanceCi h)

theorem Dev.canonical.retireHost {d : Dev} {n : Nat} {o : Out} (h : d.canonical) : (d.retireHost n o).canonical := by
  unfold Dev.retireHost
  split
  · exact h
  · exact .ite (.ite (.popOut h) (.ciPast (.popOut h))) (.ite (.ciPast (.popOut h)) (.ite (.ciPast (.rgPut (.popOut h))) (.rgWait h)))

theorem Dev.canonical.retireCore {d : Dev} {c n : Nat} {o : Out} (h : d.canonical) : (d.retireCore c n o).canonical := by
  unfold Dev.retireCore
  split
  · exact h
  · extract_lets _ _ d1 d2
    have hd1 : d1.canonical := by
      unfold d1
      split
      · exact h
      · exact .writeBank h
    have hd2 : d2.canonical := .onRG hd1
    exact .ite (.ite (.popOut h) (.ciPast (.popOut h))) (.ite (.ciPast (.popOut h)) (.ciPast (.popOut hd2)))

theorem Dev.canonical.dropOuts {d : Dev} {p : Src → Bool} (h : d.canonical) : (d.dropOuts p).canonical := h

theorem Dev.canonical.oldOuts {d : Dev} {p : Src → Bool} (h : d.canonical) : (d.oldOuts p).canonical := h

theorem Dev.canonical.rgShed {d : Dev} {n : Nat} (h : d.canonical) : (d.rgShed n).canonical :=
  .ite h (.forL (.onRG h) fun _ _ he => .ite (.tbump (.rgDrop he)) (.rgDrop he))

/-- The host's side comes up with its first ring. -/
theorem Dev.canonical.restarted {d : Dev} (h : d.canonical) {f : Fld} {v : Nat} :
    Dev.canonical { d.wr f v with host := { d.host with down := false } } := by
  obtain ⟨hregs, hdata, herr, hmem⟩ := Dev.canonical.wr (f := f) (v := v) h
  exact .of hregs hdata herr hmem

theorem Dev.canonical.rgEnable {d : Dev} {a n : Nat} (h : d.canonical) : (d.rgEnable a n).canonical := by
  unfold Dev.rgEnable
  extract_lets off d1 d2 host d3 d4 d5 d6 flt d7 d8
  refine .ite (.ite h (.wign h)) (.ite (.wign h) ?_)
  have hd1 : d1.canonical := .wr (.wr (.wr h))
  have hd3 : d3.canonical := .ite (.restarted hd1) hd1
  have hd5 : d5.canonical := .onRG (.wr hd3)
  have hd6 : d6.canonical := by
    unfold d6
    split
    · exact .oldOuts hd5
    · exact hd5
  have hd7 : d7.canonical := .ite (.other hd6) hd6
  have hd8 : d8.canonical := .ite (.sbWr hd7) (.onRG hd7)
  exact .ite (.markersOn (.ringSetUp hd8)) hd8

theorem Dev.canonical.rgDisable {d : Dev} {a n : Nat} (h : d.canonical) : (d.rgDisable a n).canonical := by
  unfold Dev.rgDisable
  extract_lets d1 _ d2 d3
  have hd1 : d1.canonical := .wr h
  have hd2 : d2.canonical := .ite hd1 hd1
  have hd3 : d3.canonical := .wr hd2
  exact .ite h (.ite (.wign h) (.ite hd2 (.ite (.wr hd2) (.rgShed (.onRG hd3)))))

theorem Dev.canonical.rgHalt {d : Dev} {n code agent addr : Nat} (h : d.canonical) : (d.rgHalt n code agent addr).canonical :=
  .raiseAt (.onRG (.wr h))

theorem Dev.canonical.fenceRingOne {d : Dev} {n : Nat} (h : d.canonical) : (d.fenceRingOne n).canonical := by
  unfold Dev.fenceRingOne
  extract_lets d1
  have hd1 : d1.canonical := .rgShed (.wr h)
  split
  · exact .dropOuts hd1
  · exact hd1

theorem Dev.canonical.fenceRing {d : Dev} {n : Nat} (h : d.canonical) : (d.fenceRing n).canonical := by
  unfold Dev.fenceRing
  extract_lets d1
  have hd1 : d1.canonical := .fenceRingOne h
  exact .ite h (.ite (.forN hd1 fun _ _ he => .ite (.fenceRingOne he) he) hd1)

theorem Dev.canonical.unfenceRing {d : Dev} {n : Nat} (h : d.canonical) : (d.unfenceRing n).1.canonical := by
  unfold Dev.unfenceRing
  extract_lets _ d1 d2 d3
  have hd1 : d1.canonical := .wr h
  have hd2 : d2.canonical := .ite (.onRG hd1) hd1
  have hd3 : d3.canonical := .ite hd2 (.ite (.reportLost hd2) (.ringSetUp hd2))
  exact .ite_fst h (.ite_fst (.wr h) (.ite_fst (.markersOn hd3) hd2))

/-! ### Machine/Cores -/

theorem Dev.canonical.coreCount {d : Dev} {c : Nat} (h : d.canonical) : (d.coreCount c).canonical := by
  unfold Dev.coreCount
  split
  · exact h
  · exact .onK (.wr h)

theorem Dev.canonical.kcHold {d : Dev} (h : d.canonical) : d.kcHold.canonical := .onK (.coreCount h)

theorem Dev.canonical.kcGo {d : Dev} (h : d.canonical) : d.kcGo.canonical := .onK h

theorem Dev.canonical.coreGo {d : Dev} {c st : Nat} (h : d.canonical) : (d.coreGo c st).canonical := .wr (.onK (.coreCount h))

theorem Dev.canonical.coreStart {d : Dev} {c : Nat} (h : d.canonical) : (d.coreStart c).canonical := .wr (.onK h)

theorem Dev.canonical.coreHalt {d : Dev} {c : Nat} (h : d.canonical) : (d.coreHalt c).canonical := .ite (.onK (.coreGo h)) h

theorem Dev.canonical.corePend {d : Dev} {c b : Nat} (h : d.canonical) : (d.corePend c b).canonical := .ite h (.evt h)

theorem Dev.canonical.fenceCore {d : Dev} {c : Nat} (h : d.canonical) : (d.fenceCore c).canonical :=
  .ite h (.fenceRingOne (.forL (.onK (.evt (.coreGo h))) fun _ _ he => .fenceOwn he))

theorem Dev.canonical.lockup {d : Dev} {c : Nat} (h : d.canonical) : (d.lockup c).canonical := .fenceCore (.raise (.evt h))

theorem Dev.canonical.unlessLocked {d : Dev} {c : Nat} {f : Dev → Dev} (h : d.canonical) (hf : ∀ e, e.canonical → (f e).canonical) :
    (d.unlessLocked c f).canonical :=
  .ite (.lockup h) (hf _ h)

theorem Dev.canonical.freeIr {d : Dev} {c : Nat} (h : d.canonical) : (d.freeIr c).canonical := .ite (.onRG (.onRG (.wr (.wr (.wr (.wr h)))))) h

theorem Dev.canonical.unfenceCore {d : Dev} {c : Nat} (h : d.canonical) : (d.unfenceCore c).1.canonical :=
  .ite_fst h (.freeIr (.forL (.coreStart h) fun _ _ he => .unfenceOwn he))

theorem Dev.canonical.coreConfigure {d : Dev} {c : Nat} (h : d.canonical) : (d.coreConfigure c).canonical := .ite h (.onK (.freeIr (.coreGo h)))

/-! ### Machine/Desc -/

theorem Dev.canonical.enter {d : Dev} {opc : Nat} {x : Desc} (h : d.canonical) : (d.enter opc x).1.canonical := by
  unfold Dev.enter
  split
  · exact h
  · extract_lets _ _ _ d1
    have hd1 : d1.canonical := h
    refine .ite_fst h ?_
    split
    · exact hd1
    · exact .onRG (.ite (.wr hd1) hd1)

theorem Dev.canonical.begin {d : Dev} {opc : Nat} {x : Desc} (h : d.canonical) : (d.begin opc x).1.canonical := by
  unfold Dev.begin
  split
  next hr =>
    have he := Dev.canonical.fst hr (.enter h)
    exact .host he

theorem Dev.canonical.take {d : Dev} {opc : Nat} {x : Desc} (h : d.canonical) : (d.take opc x).canonical := by
  unfold Dev.take
  split <;> exact h

theorem Dev.canonical.endDesc {d : Dev} {i : Nat} {src : Src} {st : Nat} (h : d.canonical) : (d.endDesc i src st).canonical :=
  .ite (.raiseAt (.complete h)) (.complete h)

theorem Dev.canonical.runNow {d : Dev} {opc : Nat} {x : Desc} {want : Option Nat} {safeOk : Bool} {dom : Option Nat}
    {body : Dev → Token → Dev × Option Nat} (h : d.canonical) (hbody : ∀ e k, e.canonical → (body e k).1.canonical) :
    (d.runNow opc x want safeOk dom body).canonical := by
  unfold Dev.runNow
  split
  · next hr =>
    refine .ite (.endDesc (.fst hr (.begin h))) (.ite (.endDesc (.fst hr (.begin h))) (.ite (.endDesc (.fst hr (.begin h))) (.ite (.endDesc
        (.fst hr (.begin h))) (.ite (.endDesc (.fst hr (.begin h))) ?_))))
    split
    · next hr1 =>
      split
      · exact .endDesc (.fst hr1 (hbody _ _ (.take (.fst hr (.begin h)))))
      · exact .fst hr1 (hbody _ _ (.take (.fst hr (.begin h))))

theorem Dev.canonical.runDesc {d : Dev} {opc : Nat} {x : Desc} {want : Option Nat} {safeOk : Bool} {dom : Option Nat}
    {body : Dev → Token → Dev × Option Nat} (h : d.canonical) (hbody : ∀ e k, e.canonical → (body e k).1.canonical) :
    (d.runDesc opc x want safeOk dom body).canonical :=
  .ite (.enter h) (.runNow h hbody)

theorem Dev.canonical.runMode {d : Dev} {q : Req} {code : Nat} {body : Dev → Token → Dev × Option Nat} (h : d.canonical)
    (hbody : ∀ e k, e.canonical → (body e k).1.canonical) :
    (d.runMode q code body).canonical := by
  unfold Dev.runMode
  extract_lets _
  split
  · exact .runDesc h fun _ _ he => .ite_fst (hbody _ _ he) he
  · refine .ite h (.ite (.complete h) ?_)
    split
    · next hr =>
      split
      · exact .complete (.fst hr (hbody _ _ h))
      · exact .fst hr (hbody _ _ h)

/-! ### Machine/Threads -/

theorem Dev.canonical.dataOut {d : Dev} {t : Nat} (h : d.canonical) : (d.dataOut t).canonical := by
  unfold Dev.dataOut
  extract_lets _ _ d1
  have hd1 : d1.canonical := .onT h
  refine .ite h ?_
  split
  · next hr => exact .fst hr (.evThread hd1)
  · next hr => exact .tbump (.fst hr (.evThread hd1))

theorem Dev.canonical.thrStatus {d : Dev} {t reason : Nat} (h : d.canonical) : (d.thrStatus t reason).canonical := .evThread (.dataOut h)

theorem Dev.canonical.thrDrop {d : Dev} {t n : Nat} (h : d.canonical) : (d.thrDrop t n).canonical := .onT (.tbump h)

theorem Dev.canonical.vcShow {d : Dev} {v : Nat} (h : d.canonical) : (d.vcShow v).canonical := .wr h

theorem Dev.canonical.blkDrop {d : Dev} {v : Nat} {b : Block} (h : d.canonical) : (d.blkDrop v b).canonical :=
  .ite (.onT (.tbump (.bump h))) (.thrStatus (.onT (.onT (.tbump (.bump h)))))

theorem Dev.canonical.vcMakeRoom {d : Dev} {v t len fuel : Nat} (h : d.canonical) : (d.vcMakeRoom v t len fuel).canonical := by
  induction fuel generalizing d with
  | zero => exact h
  | succ fuel ih =>
    unfold Dev.vcMakeRoom
    refine .ite h ?_
    split
    · exact h
    · exact ih (.blkDrop (.vcShow (.onV h)))

theorem Dev.canonical.vcQueue {d : Dev} {v : Nat} {b : Block} (h : d.canonical) : (d.vcQueue v b).canonical :=
  .ite (.blkDrop h) (.ite (.vcShow (.onV (.onT (.bankFresh (.nextFree (.ite h (.vcMakeRoom h))))))) (.blkDrop (.ite h (.vcMakeRoom h))))

theorem Dev.canonical.setPool {d : Dev} {p : List Nat} (h : d.canonical) : (d.setPool p).canonical := .wr h

theorem Dev.canonical.pageOut {d : Dev} {t : Nat} {partialPage : Bool} (h : d.canonical) : (d.pageOut t partialPage).canonical := by
  unfold Dev.pageOut
  split
  · exact h
  · extract_lets d1 d2 _ d3
    have hd1 : d1.canonical := .hWr h
    have hd2 : d2.canonical := .onT hd1
    have hd3 : d3.canonical := hd2
    exact .evThread hd3

theorem Dev.canonical.spool {d : Dev} {t : Nat} {b : Block} (h : d.canonical) : (d.spool t b).1.canonical := by
  unfold Dev.spool
  extract_lets d1 d2
  have hd1 : d1.canonical := by
    unfold d1
    split
    · exact .ite (.pageOut h) h
    · exact h
  have hd2 : d2.canonical := by
    unfold d2
    split
    · exact .onT (.setPool hd1)
    · exact hd1
  split
  · exact hd2
  · exact .ite (.pageOut (.onT (.hWr hd2))) (.onT (.hWr hd2))

theorem Dev.canonical.ringArchive {d : Dev} {t : Nat} {b : Block} (h : d.canonical) : (d.ringArchive t b).1.canonical :=
  .ite_fst h (.sbWr (.onT (.hWr (.hWr h))))

theorem Dev.canonical.archPut {d : Dev} {t : Nat} {b : Block} (h : d.canonical) : (d.archPut t b).1.canonical :=
  .ite_fst h (.ite_fst (.ringArchive h) (.spool h))

theorem Dev.canonical.archMark {d : Dev} {f : FenceSt} {t : Nat} (h : d.canonical) : (d.archMark f t).canonical := by
  unfold Dev.archMark
  extract_lets _
  split
  · next hr => exact .fst hr (.archPut h)
  · next hr =>
    extract_lets d1 _
    have hd1 : d1.canonical := .onT (.fst hr (.archPut h))
    exact hd1

theorem Dev.canonical.archMarks {d : Dev} {t : Nat} (h : d.canonical) : (d.archMarks t).canonical := .forL h fun _ _ he => .archMark he

theorem Dev.canonical.archRoom {d : Dev} (h : d.canonical) : d.archRoom.canonical := .fenceEnds (.forL h fun _ _ he => .archMarks he)

theorem Dev.canonical.archLeave {d : Dev} {t : Nat} (h : d.canonical) : (d.archLeave t).canonical := .fenceEnds h

theorem Dev.canonical.archBlock {d : Dev} {t : Nat} {b : Block} (h : d.canonical) : (d.archBlock t b).canonical := by
  unfold Dev.archBlock
  extract_lets d1 _
  have hd1 : d1.canonical := .archMarks h
  split
  · next hr => exact .onT (.fst hr (.ite_fst hd1 (.archPut hd1)))
  · next hr =>
    extract_lets d2
    have hd2 : d2.canonical := .thrDrop (.fst hr (.ite_fst hd1 (.archPut hd1)))
    exact .ite hd2 (.thrStatus (.evt (.onT hd2)))

theorem Dev.canonical.closeBlk {d : Dev} {t : Nat} {b : Block} (h : d.canonical) : (d.closeBlk t b).canonical :=
  .ite (.archBlock (.onT h)) (.vcQueue (.onT h))

theorem Dev.canonical.threadEnd {d : Dev} {t : Nat} (h : d.canonical) : (d.threadEnd t).canonical := by
  unfold Dev.threadEnd
  extract_lets k d1 d2
  have hd1 : d1.canonical := .thrStatus (.pageOut h)
  have hd2 : d2.canonical := .archLeave (.onT (.twr hd1))
  clear_value k
  split
  · exact hd2
  · exact .complete hd2

theorem Dev.canonical.closeBlks {d : Dev} {t : Nat} (h : d.canonical) : (d.closeBlks t).canonical := .forL h fun _ _ he => .closeBlk he

theorem Dev.canonical.kClose {d : Dev} {v : Nat} (h : d.canonical) : (d.kClose v).canonical := .forL h fun _ _ he => .onT (.closeBlks he)

theorem Dev.canonical.kSettle {d old : Dev} (h : d.canonical) : (d.kSettle old).canonical := .forN h fun _ _ he => .ite (.kClose he) he

theorem Dev.canonical.blkAdd {d : Dev} {t : Nat} {e : Entry} (h : d.canonical) : (d.blkAdd t e).canonical := by
  unfold Dev.blkAdd
  extract_lets _ _
  split
  · exact .onT h
  · exact .ite (.onT h) (.onT (.closeBlk h))

theorem Dev.canonical.produce {d : Dev} {t : Nat} {e : Entry} (h : d.canonical) : (d.produce t e).canonical := by
  unfold Dev.produce
  extract_lets d1 d2 d3 _ d4
  have hd1 : d1.canonical := .twr (.tbump h)
  have hd2 : d2.canonical := .ite (.dataOut hd1) hd1
  have hd3 : d3.canonical := .onT hd2
  have hd4 : d4.canonical := .onT hd1
  exact .ite (.ite (.dataOut hd3) hd3) (.ite (.blkAdd hd1) (.ite (.ite (.blkAdd hd4) hd4) (.blkAdd hd1)))

theorem Dev.canonical.captureDone {d : Dev} {t : Nat} (h : d.canonical) : (d.captureDone t).canonical := .ite (.thrStatus (.twr h)) h

theorem Dev.canonical.capture {d : Dev} {t g : Nat} (h : d.canonical) : (d.capture t g).canonical :=
  .ite h (.captureDone (.forL (.onT (.twr h)) fun _ _ he1 => .produce he1))

theorem Dev.canonical.captureEntry {d : Dev} {t : Nat} {e : Entry} (h : d.canonical) : (d.captureEntry t e).canonical :=
  .ite (.onT h) (.ite (.captureDone (.produce (.onT h))) h)

theorem Dev.canonical.filter {d : Dev} {t : Nat} {e : Entry} (h : d.canonical) : (d.filter t e).canonical := by
  unfold Dev.filter
  extract_lets d1 n tag k d2 es d3 es1 d4
  have hd1 : d1.canonical := .tabRead h
  have hd2 : d2.canonical := .onT hd1
  have hd3 : d3.canonical := .onT hd1
  have hd4 : d4.canonical := .onT hd1
  refine .ite hd1 ?_
  split
  · exact .produce hd1
  · exact .ite (.produce hd2) hd2
  · refine .ite (.onT hd1) ?_
    split
    · exact hd3
    · exact .produce hd3
  · refine .ite (.onT hd1) ?_
    clear_value es1
    split
    · exact hd4
    · exact .produce (.produce hd4)
  · exact .ite (.produce hd1) hd1
  · exact .captureEntry hd1
  · exact hd1

theorem Dev.canonical.threadSees {d : Dev} {t : Nat} {e : Entry} (h : d.canonical) : (d.threadSees t e).canonical :=
  .ite (.filter (.ite (.capture h) h)) (.ite (.capture h) h)

theorem Dev.canonical.usedShow {d : Dev} (h : d.canonical) : d.usedShow.canonical := .wr h

theorem Dev.canonical.rqShow {d : Dev} {s : Nat} (h : d.canonical) : (d.rqShow s).canonical := .wr h

theorem Dev.canonical.segEntry {d : Dev} {s : Nat} {e : Entry} (h : d.canonical) : (d.segEntry s e).canonical :=
  .ite h (.ite (.forL h fun _ _ he1 => .threadSees he1) (.ite (.bump h) (.rqShow (.onQ (.bankFresh h)))))

theorem Dev.canonical.forward {d : Dev} {link : Nat} {e : Entry} (h : d.canonical) : (d.forward link e).canonical := .ite h h

/-! ### Machine/Samples -/

theorem Dev.canonical.takeInst {d : Dev} {c : Nat} (h : d.canonical) : (d.takeInst c).canonical := .ite (.onC h) (.onC h)

theorem Dev.canonical.useLoss {d : Dev} {c kind unit agent : Nat} (h : d.canonical) : (d.useLoss c kind unit agent).canonical := .ite (.raise h) h

theorem Dev.canonical.winEval {d : Dev} {t v : Nat} (h : d.canonical) : (d.winEval t v).1.canonical := by
  unfold Dev.winEval
  refine .ite_fst h ?_
  split
  · exact .ite_fst (.wr h) (.ite (.evt (.bump (.wr h))) (.bump (.wr h)))

theorem Dev.canonical.deliver {d : Dev} {t v ext : Nat} {cal inj : Bool} {stamp : Option Nat} (h : d.canonical) :
    (d.deliver t v ext cal inj stamp).canonical := by
  unfold Dev.deliver
  split
  · next hr => exact .ite (.fst hr (.winEval h)) (.forward (.fst hr (.winEval h)))

/-! ### Machine/Retry -/

theorem Dev.canonical.rtStop {d : Dev} {u : Nat} (h : d.canonical) : (d.rtStop u).canonical := .onRT h

theorem Dev.canonical.rtAbandon {d : Dev} {u : Nat} (h : d.canonical) : (d.rtAbandon u).canonical := .twr (.rtStop h)

theorem Dev.canonical.rtClear {d : Dev} {u : Nat} (h : d.canonical) : (d.rtClear u).canonical := .twr (.rtAbandon h)

theorem Dev.canonical.rtLatch {d : Dev} {u : Nat} {coolTo : Bool} (h : d.canonical) : (d.rtLatch u coolTo).canonical := .twr (.twr (.rtStop h))

theorem Dev.canonical.countClear {d : Dev} {u : Nat} (h : d.canonical) : (d.countClear u).canonical := by
  unfold Dev.countClear
  split
  · exact .ite (.twr (.onRT h)) h
  · exact h

theorem Dev.canonical.rtOn {d : Dev} {u : Nat} (h : d.canonical) : (d.rtOn u).canonical := .onRT h

theorem Dev.canonical.rtTrip {d : Dev} {u cause : Nat} {hc : Bool} (h : d.canonical) : (d.rtTrip u cause hc).1.canonical := by
  unfold Dev.rtTrip
  extract_lets d1 _ d2 _ _ d3 d4
  have hd1 : d1.canonical := .countClear (.tabRead h)
  have hd2 : d2.canonical := .onRT hd1
  have hd3 : d3.canonical := .rtStop hd2
  have hd4 : d4.canonical := .twr (.tbump hd3)
  exact .ite_fst (.rtLatch hd2) (.onRT hd4)

theorem Dev.canonical.coolOpen {d : Dev} {u : Nat} (h : d.canonical) : (d.coolOpen u).canonical := .onRT (.twr h)

theorem Dev.canonical.tripMsg {d : Dev} {kind unit agent access level fence : Nat} {safe latch : Bool} (h : d.canonical) :
    (d.tripMsg kind unit agent access level fence safe latch).canonical :=
  .send h

theorem Dev.canonical.editFault {d : Dev} {kind unit : Nat} {f : FMsg → Option FMsg} (h : d.canonical) : (d.editFault kind unit f).canonical := h

theorem Dev.canonical.rtAgain {d : Dev} {u cause : Nat} (h : d.canonical) : (d.rtAgain u cause).1.canonical :=
  .rtTrip (.rtStop (.setWord (.tabMem h)))

theorem Dev.canonical.lateCause {d : Dev} {u : Nat} {fs fc fa fe : Fld} {base unit c access : Nat} {fence : Dev → Nat} (h : d.canonical) :
    (d.lateCause u fs fc fa fe base unit c access fence).canonical := by
  unfold Dev.lateCause
  extract_lets _
  refine .ite h (.ite (.wr h) ?_)
  split
  · next hr => exact .editFault (.evt (.wr (.wr (.ite (.fst hr (.rtAgain h)) (.ite (.wr (.fst hr (.rtAgain h))) (.ite (.wr (.fst hr (.rtAgain h)))
        (.ite (.fst hr (.rtAgain h)) (.rtAbandon (.fst hr (.rtAgain h))))))))))

/-! ### Machine/Impedance -/

theorem Dev.canonical.sageInit {d : Dev} {p : Nat} (h : d.canonical) : (d.sageInit p).canonical := .wr (.wr (.wr (.wr (.wr h))))

theorem Dev.canonical.learned {d : Dev} {p : Nat} (h : d.canonical) : (d.learned p).canonical := .wr (.wr h)

theorem Dev.canonical.impPut {d : Dev} {f : Fld} {v : Int} (h : d.canonical) : (d.impPut f v).canonical := .ite (.wr h) (.nextFree (.wr h))

theorem Dev.canonical.impReject {d : Dev} {p : Nat} (h : d.canonical) : (d.impReject p).canonical := .raise (.bump h)

theorem Dev.canonical.impEnd {d : Dev} {p : Nat} {rc : Bool} (h : d.canonical) : (d.impEnd p rc).canonical := by
  unfold Dev.impEnd
  extract_lets _ _ _ _ _ _ _ _ _ d1 _ _ _ _ _ _ _ _ _ _ _ _ _ _ _
  have hd1 : d1.canonical := .ite (.impPut h) (.impReject h)
  split
  · next hr =>
    extract_lets d2
    have hd2 : d2.canonical := .onSG (.fst hr (.ite_fst hd1 (.ite_fst (.impPut (.impPut hd1)) (.impReject hd1))))
    exact .ite (.learned (.evt (.bump hd2))) hd2

theorem Dev.canonical.impStop {d : Dev} {p : Nat} (h : d.canonical) : (d.impStop p).canonical := .ite h (.ite (.impEnd h) (.onSG h))

theorem Dev.canonical.impStart {d : Dev} {p now : Nat} {i : Int} (h : d.canonical) : (d.impStart p now i).canonical := .ite h (.onSG h)

theorem Dev.canonical.impSample {d : Dev} {p t : Nat} {i : Int} (h : d.canonical) : (d.impSample p t i).canonical := .impStart (.ite (.impStop h) h)

theorem Dev.canonical.impForget {d : Dev} (h : d.canonical) : d.impForget.canonical := .forN h fun _ _ he => .onSG (.impStop he)

theorem Dev.canonical.sageEcv {d : Dev} {p n : Nat} {i : Int} {vin : Nat} (h : d.canonical) : (d.sageEcv p n i vin).canonical :=
  .ite h (.ite (.impStop h) (.ite (.impStop (.onSG h)) (.impSample (.onSG h))))

theorem Dev.canonical.devImpQualify {p : Nat} {d : Dev} (h : d.canonical) : (devImpQualify p d).canonical := by
  unfold Machine.devImpQualify
  split
  · exact h
  · exact .ite h (.ite (.impStop h) (.ite (.onSG h) (.ite (.impEnd (.onSG h)) (.forL (.onSG h) fun _ _ he => .impSample he))))

theorem Dev.canonical.devImpMeasureEnd {p : Nat} {d : Dev} (h : d.canonical) : (devImpMeasureEnd p d).canonical := by
  unfold Machine.devImpMeasureEnd
  split
  · exact h
  · exact .ite (.impStop h) (.ite (.impEnd h) h)

/-! ### Machine/Entry -/

theorem Dev.canonical.groupScale {d : Dev} {g : Nat} (h : d.canonical) : (d.groupScale g).canonical := .forL h fun _ _ he => .onE he

theorem Dev.canonical.entMark {d : Dev} {n : Nat} (h : d.canonical) : (d.entMark n).canonical := .ite h (.onE h)

theorem Dev.canonical.entGo {d : Dev} {n st : Nat} {g : Gate} (h : d.canonical) : (d.entGo n st g).canonical := by
  unfold Dev.entGo
  extract_lets d1 _ _ d2 d3
  have hd1 : d1.canonical := .countClear (.entMark h)
  have hd2 : d2.canonical := .onE hd1
  have hd3 : d3.canonical := .wr hd2
  exact .ite (.rtOn hd3) (.onRT hd3)

theorem Dev.canonical.entCheck {d : Dev} {n : Nat} {g : Gate} (h : d.canonical) : (d.entCheck n g).canonical := .entGo h

theorem Dev.canonical.entNote {d : Dev} {n c : Nat} (h : d.canonical) : (d.entNote n c).canonical := .raiseL (.onE h)

theorem Dev.canonical.entTripOne {d : Dev} {n : Nat} {cs : List Nat} (h : d.canonical) : (d.entTripOne n cs).1.canonical := by
  unfold Dev.entTripOne
  extract_lets _ _ _
  split
  · next hr => exact .onE (.evt (.wr (.wr (.entGo (.fst hr (.rtTrip (.entMark h)))))))

theorem Dev.canonical.entTripMsg {d : Dev} {n c access fence : Nat} (h : d.canonical) : (d.entTripMsg n c access fence).canonical := .tripMsg h

theorem Dev.canonical.entTripMates {d : Dev} {n c : Nat} (h : d.canonical) : (d.entTripMates n c).canonical := by
  unfold Dev.entTripMates
  refine .forL h fun _ _ he => ?_
  extract_lets _ d1 _ _
  have hd1 : d1.canonical := .forL he fun _ _ he1 => .entNote he1
  split
  · next hr => exact .entTripMsg (.onE (.fst hr (.entTripOne hd1)))

theorem Dev.canonical.entUntrip {d : Dev} {m : Nat} (h : d.canonical) : (d.entUntrip m).canonical := by
  unfold Dev.entUntrip
  split
  · exact h
  · exact .editFault (.onE (.onRT (.rtStop (.setWord (.tabMem (.wr (.setWord h)))))))

theorem Dev.canonical.entLate {d : Dev} {n access c : Nat} (h : d.canonical) : (d.entLate n access c).canonical := by
  unfold Dev.entLate
  extract_lets _ _ d1 d2 d3
  have hd1 : d1.canonical := .lateCause h
  have hd2 : d2.canonical := .onE hd1
  have hd3 : d3.canonical := .forL hd2 fun _ _ he => .entUntrip he
  refine .ite (.entTripMates hd2) (.ite ?_ hd2)
  split
  · exact hd3
  · exact .groupScale hd3

theorem Dev.canonical.entTrip {d : Dev} {n access : Nat} {due : List Nat} (h : d.canonical) : (d.entTrip n access due).canonical := by
  unfold Dev.entTrip
  extract_lets d1 due1
  have hd1 : d1.canonical := .forL h fun _ _ he => .entNote he
  refine .ite (.forL hd1 fun _ _ he => .entLate he) ?_
  split
  · next hr =>
    clear_value due1
    split
    · exact hd1
    · extract_lets d2 d3
      have hd2 : d2.canonical := .onE (.fst hr (.entTripOne hd1))
      have hd3 : d3.canonical := .entTripMsg hd2
      refine .ite ?_ (.entTripMates (.entTripMsg hd2))
      split
      · exact hd3
      · exact .groupScale hd3

theorem Dev.canonical.entTripBy {d : Dev} {n c access : Nat} (h : d.canonical) : (d.entTripBy n c access).canonical := .entTrip h

theorem Dev.canonical.entUndo {d : Dev} {n : Nat} (h : d.canonical) : (d.entUndo n).canonical := by
  unfold Dev.entUndo
  split
  · exact h
  · exact .editFault (.editFault (.onE (.onRT (.wr h))))

theorem Dev.canonical.entFirst {d : Dev} {n : Nat} (h : d.canonical) : (d.entFirst n).canonical := .ite h (.entTrip h)

theorem Dev.canonical.entBlocks {d : Dev} {n : Nat} (h : d.canonical) : (d.entBlocks n).canonical :=
  .ite (.entFirst h) (.raise (.entGo (.entFirst h)))

theorem Dev.canonical.entRetry {d : Dev} {n : Nat} (h : d.canonical) : (d.entRetry n).canonical := .entCheck (.rtAbandon h)

theorem Dev.canonical.entCoolLatch {d : Dev} {n : Nat} (h : d.canonical) : (d.entCoolLatch n).canonical := by
  unfold Dev.entCoolLatch
  extract_lets d1 _ d2
  have hd1 : d1.canonical := .entGo (.rtLatch h)
  have hd2 : d2.canonical := .tripMsg hd1
  refine .ite ?_ hd2
  split
  · exact hd2
  · exact .groupScale hd2

theorem Dev.canonical.entLoss {d : Dev} {n c : Nat} (h : d.canonical) : (d.entLoss n c).canonical := .ite h (.raiseL h)

theorem Dev.canonical.entOnReq {d : Dev} {n : Nat} (h : d.canonical) : (d.entOnReq n).1.canonical := by
  unfold Dev.entOnReq
  extract_lets _ _ d1
  have hd1 : d1.canonical := .forL h fun _ _ he => .ite (.foldl (.entGo he) fun _ _ he1 => .entLoss he1) he
  refine .ite_fst h ?_
  split
  · exact hd1
  · exact .groupScale hd1

theorem Dev.canonical.entOffOne {d : Dev} {n : Nat} (h : d.canonical) : (d.entOffOne n).canonical :=
  .ite (.entFirst h) (.ite (.entGo (.rtAbandon (.entFirst h))) (.onE (.entGo (.entFirst h))))

theorem Dev.canonical.entOffReq {d : Dev} {n : Nat} (h : d.canonical) : (d.entOffReq n).canonical := .forL h fun _ _ he => .entOffOne he

theorem Dev.canonical.fenceEntry {d : Dev} {n : Nat} (h : d.canonical) : (d.fenceEntry n).canonical := .ite h (.entGo (.ite (.rtAbandon h) h))

theorem Dev.canonical.fenceEntryUnit {d : Dev} {n : Nat} (h : d.canonical) : (d.fenceEntryUnit n).canonical := by
  unfold Dev.fenceEntryUnit
  extract_lets d1
  have hd1 : d1.canonical := .fenceEntry h
  split
  · exact hd1
  · exact .groupScale hd1

theorem Dev.canonical.fenceEntryDomain {d : Dev} {n : Nat} (h : d.canonical) : (d.fenceEntryDomain n).canonical :=
  .forL (.fenceEntry h) fun _ _ he => .ite (.fenceEntry he) (.onE (.fenceEntry he))

theorem Dev.canonical.freeEntry {d : Dev} {n : Nat} (h : d.canonical) : (d.freeEntry n).canonical := .onE (.entGo (.rtClear h))

theorem Dev.canonical.unfenceEntry {d : Dev} {n : Nat} (h : d.canonical) : (d.unfenceEntry n).1.canonical :=
  .ite_fst h (.ite_fst h (.ite_fst h (.freeEntry h)))

theorem Dev.canonical.packGone {d : Dev} {p : Nat} (h : d.canonical) : (d.packGone p).canonical := .forN h fun _ _ he => .ite (.freeEntry he) he

theorem Dev.canonical.entModel {d : Dev} {n : Nat} (h : d.canonical) : (d.entModel n).canonical := .wri (.onE (.tabRead h))

theorem Dev.canonical.entLoop {d : Dev} {n : Nat} (h : d.canonical) : (d.entLoop n).canonical := .onE (.nextFree h)

theorem Dev.canonical.entWindows {d : Dev} {n : Nat} (h : d.canonical) : (d.entWindows n).canonical :=
  .ite (.ite h (.onE h)) (.ite (.onE h) (.ite h (.ite (.onE h) (.onE h))))

theorem Dev.canonical.entUnder {d : Dev} {n : Nat} (h : d.canonical) : (d.entUnder n).canonical := .ite (.raise (.entGo h)) (.raise (.entCheck h))

theorem Dev.canonical.entJudge {d : Dev} {n : Nat} {fresh : Bool} (h : d.canonical) : (d.entJudge n fresh).canonical :=
  .ite h (.ite (.ite (.entUnder (.entTrip h)) (.entTrip h)) (.ite (.entUnder h) (.ite (.entRetry h) h)))

theorem Dev.canonical.devEcvSample {n : Nat} {m : Option EcvTriple} {d : Dev} (h : d.canonical) : (devEcvSample n m d).canonical := by
  unfold Machine.devEcvSample
  extract_lets d1 has fresh s d2 d3
  have hd1 : d1.canonical := .takeInst h
  have hd2 : d2.canonical := by
    unfold d2
    split
    · exact hd1
    · extract_lets t vs d4 d5 d6
      have hd4 : d4.canonical := .forN hd1 fun _ _ he => .ite (.deliver he) he
      have hd5 : d5.canonical := .onE hd4
      have hd6 : d6.canonical := .ite hd5 (.entWindows hd5)
      exact .ite (.ite (.sageEcv hd6) hd6) hd4
  have hd3 : d3.canonical := .ite (.entLoop hd2) hd2
  exact .ite h (.entJudge (.entModel hd3))

theorem Dev.canonical.devEntScTrip {n : Nat} {d : Dev} (h : d.canonical) : (devEntScTrip n d).canonical :=
  .ite (.entTripBy h) (.ite (.forL (.entTripBy (.forL h fun _ _ he => .entUndo he)) fun _ _ he => .entOffOne he) h)

theorem Dev.canonical.entTripIf {d : Dev} {n c : Nat} (h : d.canonical) : (d.entTripIf n c).canonical := .ite (.entTrip h) h

theorem Dev.canonical.devEntOcTrip {n : Nat} {d : Dev} (h : d.canonical) : (devEntOcTrip n d).canonical := .entTripIf h

theorem Dev.canonical.devEntInrushTime {n : Nat} {d : Dev} (h : d.canonical) : (devEntInrushTime n d).canonical := .entTripIf h

theorem Dev.canonical.devEntOvTrip {n : Nat} {d : Dev} (h : d.canonical) : (devEntOvTrip n d).canonical := .entTripIf h

theorem Dev.canonical.devEntCutoff {n : Nat} {d : Dev} (h : d.canonical) : (devEntCutoff n d).canonical := .entTripIf h

theorem Dev.canonical.devEntQualify {n : Nat} {d : Dev} (h : d.canonical) : (devEntQualify n d).canonical :=
  .ite h (.ite (.forL (.onE h) fun _ _ he => .entGo he) (.onE h))

theorem Dev.canonical.devEntInrushDone {n : Nat} {d : Dev} (h : d.canonical) : (devEntInrushDone n d).canonical := by
  unfold Machine.devEntInrushDone
  extract_lets d1 d2
  have hd1 : d1.canonical := .entFirst h
  have hd2 : d2.canonical := .entGo hd1
  refine .ite hd1 ?_
  split
  · exact hd2
  · exact .groupScale hd2

theorem Dev.canonical.devEntGateEnhanced {n : Nat} {d : Dev} (h : d.canonical) : (devEntGateEnhanced n d).canonical := .onE h

theorem Dev.canonical.devEntBlock {n : Nat} {d : Dev} (h : d.canonical) : (devEntBlock n d).canonical := .entBlocks h

theorem Dev.canonical.devEntBlockReturn {n : Nat} {d : Dev} (h : d.canonical) : (devEntBlockReturn n d).canonical := .ite (.entCheck h) h

theorem Dev.canonical.devEntArm {n : Nat} {d : Dev} (h : d.canonical) : (devEntArm n d).canonical := .ite (.entGo h) h

theorem Dev.canonical.devEntShare {n : Nat} {d : Dev} (h : d.canonical) : (devEntShare n d).canonical := .ite (.raise (.onE h)) h

/-! ### Machine/Loom -/

theorem Dev.canonical.compensate {d : Dev} {r t : Nat} {code : Int} (h : d.canonical) : (d.compensate r t code).canonical := by
  unfold Dev.compensate
  extract_lets _ _ _ _ _ _ _ _ _ _ _ _ _ _ _
  split
  · split
    · exact .ite (.wr (.onR h)) (.evt (.wr (.onR h)))

theorem Dev.canonical.deliverQ5 {d : Dev} {r before : Nat} (h : d.canonical) : (d.deliverQ5 r before).canonical := .ite h (.deliver h)

theorem Dev.canonical.stages {d : Dev} {r : Nat} (h : d.canonical) : (d.stages r).canonical :=
  .ite h (.deliverQ5 (.forL (.onR h) fun _ _ he => .compensate he))

/-! ### Machine/Warp -/

theorem Dev.canonical.warpShow {d : Dev} {r : Nat} (h : d.canonical) : (d.warpShow r).canonical :=
  .ite (.wr (.wr (.wr (.wr h)))) (.wr (.wr (.wr (.wr (.wr h)))))

theorem Dev.canonical.warpChanged {d : Dev} {r before : Nat} (h : d.canonical) : (d.warpChanged r before).canonical :=
  .ite (.raise (.evt (.onR (.warpShow h)))) (.warpShow h)

theorem Dev.canonical.eachPhase {d : Dev} {ps : List Nat} {f : Dev → Nat → Dev} (h : d.canonical)
    (hf : ∀ e k, e.canonical → (f e k).canonical) :
    (d.eachPhase ps f).canonical :=
  .forL (.forL h hf) fun _ _ he1 => .warpChanged he1

theorem Dev.canonical.wokenShow {d : Dev} {r : Nat} (h : d.canonical) : (d.wokenShow r).canonical := .wr h

theorem Dev.canonical.withdraw {d : Dev} {r p : Nat} (h : d.canonical) : (d.withdraw r p).canonical := .evt (.wokenShow (.onR (.onP h)))

theorem Dev.canonical.ipReady {d : Dev} {n kind payload : Nat} (h : d.canonical) : (d.ipReady n kind payload).canonical := .ite (.onIP h) h

theorem Dev.canonical.ipAck {d : Dev} {n seq type slot outcome : Nat} (h : d.canonical) : (d.ipAck n seq type slot outcome).canonical := .ipReady h

theorem Dev.canonical.setPg {d : Dev} {r : Nat} {v : Bool} (h : d.canonical) : (d.setPg r v).canonical := by
  unfold Dev.setPg
  extract_lets d1
  have hd1 : d1.canonical := .wr h
  refine .ite h ?_
  split
  · exact hd1
  · exact .ite (.ipReady hd1) hd1

theorem Dev.canonical.onSpec {d : Dev} {r : Nat} {f : SpecSt → SpecSt} (h : d.canonical) : (d.onSpec r f).canonical := .onR h

theorem Dev.canonical.specZero {d : Dev} {r : Nat} (h : d.canonical) : (d.specZero r).canonical := .wr (.wr (.wr (.wr h)))

theorem Dev.canonical.specMark {d : Dev} {r : Nat} {v : Bool} (h : d.canonical) : (d.specMark r v).canonical := h

theorem Dev.canonical.specEnds {d : Dev} {r : Nat} (h : d.canonical) : (d.specEnds r).canonical := by
  unfold Dev.specEnds
  extract_lets _ d1
  have hd1 : d1.canonical := .onSpec h
  split
  · exact h
  · exact .ite h (.ite hd1 (.specMark hd1))

theorem Dev.canonical.dropHolds {d : Dev} {r : Nat} (h : d.canonical) : (d.dropHolds r).canonical :=
  .forL (.onR h) fun _ _ he => .ipAck (.evt (.wr he))

theorem Dev.canonical.cancelSpec {d : Dev} {r : Nat} (h : d.canonical) : (d.cancelSpec r).canonical := by
  unfold Dev.cancelSpec
  extract_lets d1 _ d2 d3
  have hd1 : d1.canonical := .dropHolds h
  have hd2 : d2.canonical := .onSpec (.specEnds hd1)
  have hd3 : d3.canonical := .wr (.wr (.wokenShow hd2))
  split
  · exact hd1
  · exact .ite (.onSpec hd1) (.ipAck (.ite hd3 (.evt hd3)))

theorem Dev.canonical.coefSwap {d : Dev} {r : Nat} (h : d.canonical) : (d.coefSwap r).canonical := by
  unfold Dev.coefSwap
  extract_lets _ d1 d2
  have hd1 : d1.canonical := .forN h fun _ _ he => .setNow he
  have hd2 : d2.canonical := .wr hd1
  refine .ite h ?_
  split
  · exact hd2
  · exact .complete (.onR (.wr hd2))

theorem Dev.canonical.coefShadow {d : Dev} {r : Nat} {t : Token} {ws : List Word} (h : d.canonical) : (d.coefShadow r t ws).canonical :=
  .onR (.wr (.forN h fun _ _ he => .setWord he))

theorem Dev.canonical.coefNext {d : Dev} {r : Nat} (h : d.canonical) : (d.coefNext r).canonical := by
  unfold Dev.coefNext
  refine .ite h ?_
  split
  · exact h
  · exact .coefShadow (.onR h)

theorem Dev.canonical.coefDrain {d : Dev} {r n : Nat} (h : d.canonical) : (d.coefDrain r n).canonical := by
  induction n generalizing d with
  | zero => exact h
  | succ n ih => exact ih (.coefNext (.coefSwap h))

theorem Dev.canonical.maskSwap {d : Dev} {r : Nat} (h : d.canonical) : (d.maskSwap r).canonical := by
  unfold Dev.maskSwap
  extract_lets _ d1
  have hd1 : d1.canonical := by
    unfold d1
    split
    · exact h
    · exact .onR h
  exact .completeAll hd1

theorem Dev.canonical.setDelta {d : Dev} {p : Nat} {v : Int} (h : d.canonical) : (d.setDelta p v).canonical := .wri (.onP h)

theorem Dev.canonical.setHeat {d : Dev} {p v : Nat} (h : d.canonical) : (d.setHeat p v).canonical := .wr (.onP h)

theorem Dev.canonical.phIdle {d : Dev} {p : Nat} (h : d.canonical) : (d.phIdle p).canonical := .ite (.wr (.onP (.setDelta h))) (.onP (.setDelta h))

theorem Dev.canonical.railDown {d : Dev} {r st : Nat} (h : d.canonical) : (d.railDown r st).canonical := by
  unfold Dev.railDown
  extract_lets d1 _ d2 d3 _ d4 d5 d6 d7 d8 d9 _ d10 d11 d12
  have hd1 : d1.canonical := .stages h
  have hd2 : d2.canonical := .cancelSpec hd1
  have hd3 : d3.canonical := .setPg hd2
  have hd4 : d4.canonical := .ite (.onR hd3) hd3
  have hd5 : d5.canonical := .wr hd4
  have hd6 : d6.canonical := .wr (.wr (.wr (.wr (.wr hd5))))
  have hd7 : d7.canonical := .deliverQ5 (.wr (.wr hd6))
  have hd8 : d8.canonical := .wr hd7
  have hd9 : d9.canonical := .wr hd8
  have hd10 : d10.canonical := .onR hd9
  have hd11 : d11.canonical := .forL hd10 fun _ _ he => .phIdle he
  have hd12 : d12.canonical := .coefDrain (.maskSwap hd11)
  exact .completeAll (.warpShow hd12)

theorem Dev.canonical.railStop {d : Dev} {r : Nat} (h : d.canonical) : (d.railStop r).canonical := .ite (.railDown h) h

theorem Dev.canonical.fenceRail {d : Dev} {r : Nat} {dom : Option Nat} (h : d.canonical) : (d.fenceRail r dom).canonical :=
  .ite (.onR (.railDown h)) h

theorem Dev.canonical.unfenceRail {d : Dev} {r : Nat} (h : d.canonical) : (d.unfenceRail r).1.canonical := .ite_fst h (.ite_fst h (.onR (.wr h)))

/-! ### Machine/Rail -/

theorem Dev.canonical.specTidy {d : Dev} {r : Nat} (h : d.canonical) : (d.specTidy r).canonical := by
  unfold Dev.specTidy
  split
  · exact h
  · exact .ite (.ite (.wr h) (.ite (.wr (.onSpec (.specEnds h))) h)) h

theorem Dev.canonical.pcCut {d : Dev} {r : Nat} (h : d.canonical) : (d.pcCut r).canonical := .evt (.onSpec h)

theorem Dev.canonical.shuttleShow {d : Dev} {r : Nat} (h : d.canonical) : (d.shuttleShow r).canonical := .wri (.wri h)

theorem Dev.canonical.shuttleStep {d : Dev} {r : Nat} (h : d.canonical) : (d.shuttleStep r).canonical := by
  unfold Dev.shuttleStep
  split
  · exact h
  · exact .specTidy (.shuttleShow (.onR (.onSpec h)))

theorem Dev.canonical.shuttleCut {d : Dev} {r : Nat} (h : d.canonical) : (d.shuttleCut r).canonical := by
  unfold Dev.shuttleCut
  split
  · exact h
  · exact .ite (.pcCut h) h

theorem Dev.canonical.slewTo {d : Dev} {r tgt slew : Nat} (h : d.canonical) : (d.slewTo r tgt slew).canonical := .wr (.wri h)

theorem Dev.canonical.refStep {d : Dev} {r : Nat} {meas : Int} (h : d.canonical) : (d.refStep r meas).canonical :=
  .ite (.ite (.onR (.wr (.wri h))) (.slewTo h)) (.ite (.slewTo h) (.slewTo h))

theorem Dev.canonical.takeCode {d : Dev} {r : Nat} {code : BitVec 14} (h : d.canonical) : (d.takeCode r code).canonical := .ite (.onR h) (.onR h)

theorem Dev.canonical.rangeNote {d : Dev} {r : Nat} {sat : Bool} (h : d.canonical) : (d.rangeNote r sat).canonical :=
  .ite (.wr h) (.ite (.raise (.onR (.evt (.wr h)))) (.evt (.wr h)))

theorem Dev.canonical.railWindows {d : Dev} {r : Nat} {low : Bool} (h : d.canonical) : (d.railWindows r low).canonical := .ite h (.onR h)

theorem Dev.canonical.startStep {d : Dev} {r : Nat} (h : d.canonical) : (d.startStep r).canonical := .ite h (.onR h)

theorem Dev.canonical.powerStep {d : Dev} {r : Nat} (h : d.canonical) : (d.powerStep r).canonical := .ite h (.deliver (.wr h))

theorem Dev.canonical.feed {d : Dev} {r : Nat} (h : d.canonical) : (d.feed r).canonical := .onR h

theorem Dev.canonical.rvcFresh {d : Dev} {r : Nat} {c : BitVec 14} (h : d.canonical) : (d.rvcFresh r c).canonical := by
  unfold Dev.rvcFresh
  extract_lets _ _ _ d1 _ _ d2 d3 d4 d5
  have hd1 : d1.canonical := .rangeNote (.takeCode (.refStep h))
  have hd2 : d2.canonical := .wr hd1
  have hd3 : d3.canonical := .deliver hd2
  have hd4 : d4.canonical := .deliver (.deliver (.deliver hd3))
  have hd5 : d5.canonical := .powerStep hd4
  exact .ite (.railDown hd5) (.shuttleCut (.feed (.shuttleStep (.railWindows (.startStep hd5)))))

theorem Dev.canonical.devRvcSample {r : Nat} {code : Option (BitVec 14)} {d : Dev} (h : d.canonical) : (devRvcSample r code d).canonical := by
  unfold Machine.devRvcSample
  extract_lets d1
  have hd1 : d1.canonical := .stages (.takeInst h)
  refine .ite h ?_
  split
  · exact .feed (.shuttleStep hd1)
  · exact .rvcFresh hd1

theorem Dev.canonical.placeEdges {d : Dev} {r p : Nat} (h : d.canonical) : (d.placeEdges r p).canonical := .onP h

theorem Dev.canonical.leaveDone {d : Dev} {p : Nat} (h : d.canonical) : (d.leaveDone p).canonical := by
  unfold Dev.leaveDone
  split
  · exact h
  · exact .ite (.phIdle h) h

theorem Dev.canonical.devDutyApply {r : Nat} {d : Dev} (h : d.canonical) : (devDutyApply r d).canonical := by
  unfold Machine.devDutyApply
  extract_lets d1 due now d2
  have hd1 : d1.canonical := .stages h
  have hd2 : d2.canonical := .onR hd1
  split
  · exact hd2
  · exact .ite hd2 (.forL (.forL (.wr (.onR hd2)) fun _ _ he => .leaveDone he) fun _ _ he => .placeEdges he)

theorem Dev.canonical.catchShow {d : Dev} {r : Nat} (h : d.canonical) : (d.catchShow r).canonical := .wr h

theorem Dev.canonical.devSense {r : Nat} {d : Dev} (h : d.canonical) : (devSense r d).canonical := .ite (.raise (.evt (.onR h))) h

theorem Dev.canonical.catchOn {d : Dev} {r : Nat} {ovs : Bool} (h : d.canonical) : (d.catchOn r ovs).canonical :=
  .ite h (.raise (.deliverQ5 (.catchShow (.evt (.onR (.stages h))))))

theorem Dev.canonical.devCatchUndershoot {r uv : Nat} {d : Dev} (h : d.canonical) : (devCatchUndershoot r uv d).canonical := .ite (.catchOn h) h

theorem Dev.canonical.devCatchOvershoot {r uv : Nat} {d : Dev} (h : d.canonical) : (devCatchOvershoot r uv d).canonical := .ite (.catchOn h) h

theorem Dev.canonical.catchEnd {d : Dev} {r t : Nat} {ovs : Bool} (h : d.canonical) : (d.catchEnd r t ovs).canonical :=
  .deliverQ5 (.catchShow (.onR (.stages h)))

theorem Dev.canonical.catchExpire {d : Dev} {r : Nat} {ovs : Bool} (h : d.canonical) : (d.catchExpire r ovs).canonical := .raise (.evt (.catchEnd h))

theorem Dev.canonical.catchDue {d : Dev} {r : Nat} (h : d.canonical) : (d.catchDue r).canonical :=
  .ite (.catchExpire (.ite (.catchExpire h) h)) (.ite (.catchExpire h) h)

theorem Dev.canonical.cmpLow {d : Dev} {r : Nat} {ovs : Bool} (h : d.canonical) : (d.cmpLow r ovs).canonical := by
  unfold Dev.cmpLow
  extract_lets d1 _ d2
  have hd1 : d1.canonical := .catchDue (.devSense h)
  have hd2 : d2.canonical := .onR hd1
  exact .ite (.catchEnd hd2) hd2

theorem Dev.canonical.devCatchRelease {r : Nat} {ovs : Bool} {uv : Nat} {d : Dev} (h : d.canonical) : (devCatchRelease r ovs uv d).canonical :=
  .ite (.cmpLow h) h

theorem Dev.canonical.devCatchExpired {r : Nat} {d : Dev} (h : d.canonical) : (devCatchExpired r d).canonical := .catchDue h

theorem Dev.canonical.ovHigh {d : Dev} {r : Nat} (h : d.canonical) : (d.ovHigh r).canonical := .ite (.raise (.evt (.onR h))) h

theorem Dev.canonical.devRailOv {r uv : Nat} {d : Dev} (h : d.canonical) : (devRailOv r uv d).canonical := .ite (.ovHigh h) h

theorem Dev.canonical.devRailUv {r : Nat} {d : Dev} (h : d.canonical) : (devRailUv r d).canonical := .ite (.raise (.evt (.onR h))) h

theorem Dev.canonical.devErrorModeSwitch {r : Nat} {d : Dev} (h : d.canonical) : (devErrorModeSwitch r d).canonical := by
  unfold Machine.devErrorModeSwitch
  split
  · exact h
  · exact .ite (.onR (.stages h)) h

theorem Dev.canonical.devRerangeDone {r : Nat} {d : Dev} (h : d.canonical) : (devRerangeDone r d).canonical := by
  unfold Machine.devRerangeDone
  split
  · exact h
  · exact .ite h (.onR (.wr (.wr (.wr (.stages h)))))

theorem Dev.canonical.devStartTimeout {r : Nat} {d : Dev} (h : d.canonical) : (devStartTimeout r d).canonical := .ite (.raise (.evt (.onR h))) h

theorem Dev.canonical.devPgAssert {r : Nat} {d : Dev} (h : d.canonical) : (devPgAssert r d).canonical := .ite (.setPg (.onR h)) h

theorem Dev.canonical.devPgDeassert {r : Nat} {d : Dev} (h : d.canonical) : (devPgDeassert r d).canonical := .ite (.setPg (.onR h)) h

theorem Dev.canonical.devRailOc {r : Nat} {d : Dev} (h : d.canonical) : (devRailOc r d).canonical := .ite (.raise (.evt (.onR h))) h

theorem Dev.canonical.railEnable {d : Dev} {r : Nat} (h : d.canonical) : (d.railEnable r).1.canonical :=
  .ite_fst (.tabRead h) (.ite_fst (.tabRead h) (.ite_fst (.tabRead h) (.ite_fst (.tabRead h) (.ite_fst (.tabRead h) (.ite_fst (.tabRead h) (.forL
      (.useLoss (.wr (.wr (.wr (.onR (.tabRead h)))))) fun _ _ he => .useLoss he))))))

theorem Dev.canonical.railDisable {d : Dev} {r : Nat} (h : d.canonical) : (d.railDisable r).1.canonical :=
  .ite_fst (.onR (.wr (.setPg (.cancelSpec h)))) (.ite_fst h (.railStop h))

theorem Dev.canonical.railSet {d : Dev} {r tgt slew : Nat} (h : d.canonical) : (d.railSet r tgt slew).1.canonical :=
  .ite_fst h (.ite (.wr (.onR (.setNow h))) (.onR (.setNow h)))

/-! ### Machine/Phase -/

theorem Dev.canonical.phNote {d : Dev} {p c : Nat} (h : d.canonical) : (d.phNote p c).canonical := .raiseL (.onP h)

theorem Dev.canonical.phTrip {d : Dev} {p access : Nat} {due : List Nat} (h : d.canonical) : (d.phTrip p access due).canonical := by
  unfold Dev.phTrip
  extract_lets u r d1 due1 before now
  have hd1 : d1.canonical := .forL h fun _ _ he => .phNote he
  refine .ite (.forL hd1 fun _ _ he => .lateCause he) ?_
  clear_value due1
  split
  · exact hd1
  · split
    · next hr => exact .tripMsg (.warpChanged (.withdraw (.onP (.evt (.wr (.wr (.wr (.fst hr (.rtTrip hd1)))))))))

theorem Dev.canonical.phFirst {d : Dev} {p : Nat} (h : d.canonical) : (d.phFirst p).canonical := .ite h (.phTrip h)

theorem Dev.canonical.phCalm {d : Dev} {p : Nat} (h : d.canonical) : (d.phCalm p).canonical := .onP h

theorem Dev.canonical.phTripIf {d : Dev} {p c : Nat} (h : d.canonical) : (d.phTripIf p c).canonical := .ite (.phTrip h) h

theorem Dev.canonical.phTripBy {d : Dev} {p c : Nat} (h : d.canonical) : (d.phTripBy p c).canonical := .ite (.phTrip h) h

theorem Dev.canonical.devPhFuse {p : Nat} {d : Dev} (h : d.canonical) : (devPhFuse p d).canonical := .phTripBy h

theorem Dev.canonical.devPhStage {p : Nat} {d : Dev} (h : d.canonical) : (devPhStage p d).canonical := .phTripBy h

theorem Dev.canonical.devPhOc {p : Nat} {d : Dev} (h : d.canonical) : (devPhOc p d).canonical := .phTripIf h

theorem Dev.canonical.devPhNeg {p : Nat} {d : Dev} (h : d.canonical) : (devPhNeg p d).canonical := .phTripIf h

theorem Dev.canonical.devPhHot {p : Nat} {d : Dev} (h : d.canonical) : (devPhHot p d).canonical := .phTripIf h

theorem Dev.canonical.devPhImonRange {p : Nat} {d : Dev} (h : d.canonical) : (devPhImonRange p d).canonical := .phTripIf h

theorem Dev.canonical.devPhShare {p : Nat} {d : Dev} (h : d.canonical) : (devPhShare p d).canonical := .phTripIf h

theorem Dev.canonical.phBack {d : Dev} {p : Nat} (h : d.canonical) : (d.phBack p).canonical := .warpChanged (.wr (.phCalm h))

theorem Dev.canonical.phRetry {d : Dev} {p : Nat} (h : d.canonical) : (d.phRetry p).canonical := .phBack (.rtAbandon h)

theorem Dev.canonical.phCoolLatch {d : Dev} {p : Nat} (h : d.canonical) : (d.phCoolLatch p).canonical := .tripMsg (.wr (.rtLatch h))

theorem Dev.canonical.phFence {d : Dev} {dom : Option Nat} {p : Nat} (h : d.canonical) : (d.phFence dom p).canonical := by
  unfold Dev.phFence
  extract_lets d1 _ _ d2 d3
  have hd1 : d1.canonical := .phFirst h
  have hd2 : d2.canonical := .ite (.rtAbandon hd1) hd1
  have hd3 : d3.canonical := .onP (.wr (.phCalm hd2))
  exact .ite hd1 (.ite (.withdraw hd3) hd3)

theorem Dev.canonical.fencePhases {d : Dev} {ps : List Nat} {dom : Option Nat} (h : d.canonical) : (d.fencePhases ps dom).canonical :=
  .eachPhase h fun _ _ he => .phFence he

theorem Dev.canonical.fencePhase {d : Dev} {p : Nat} {dom : Option Nat} (h : d.canonical) : (d.fencePhase p dom).canonical := .fencePhases h

theorem Dev.canonical.phHold {d : Dev} {hold : Bool} {p : Nat} (h : d.canonical) : (d.phHold hold p).canonical :=
  .ite (.onP (.phFirst h)) (.ite (.withdraw (.wr (.phCalm (.onP (.phFirst h))))) (.phIdle (.onP (.phFirst h))))

theorem Dev.canonical.holdPhases {d : Dev} {ps : List Nat} {hold : Bool} (h : d.canonical) : (d.holdPhases ps hold).canonical :=
  .eachPhase h fun _ _ he => .phHold he

theorem Dev.canonical.phServe {d : Dev} {p : Nat} (h : d.canonical) : (d.phServe p).canonical := .ite h (.ite (.wr (.onP h)) (.onP h))

theorem Dev.canonical.servePhases {d : Dev} {ps : List Nat} (h : d.canonical) : (d.servePhases ps).canonical := .eachPhase h fun _ _ he => .phServe he

theorem Dev.canonical.unfencePhase {d : Dev} {p : Nat} (h : d.canonical) : (d.unfencePhase p).1.canonical := by
  have hp : (((d.rtClear (80 + p)).onP p fun x => { x with byBranch := none }).phBack p).canonical := .phBack (.onP (.rtClear h))
  unfold Dev.unfencePhase
  generalize Dev.phBack _ _ = e at hp ⊢
  refine Dev.canonical.ite_fst (a := (d, _)) h ?_
  refine Dev.canonical.ite_fst (a := (d, _)) h ?_
  exact Dev.canonical.ite_fst (a := (d, _)) (b := (e, _)) h hp

theorem Dev.canonical.devTfltSample {p uv : Nat} {d : Dev} (h : d.canonical) : (devTfltSample p uv d).canonical := by
  unfold Machine.devTfltSample
  split
  · exact h
  · exact .ite (.ite (.phRetry (.onP h)) (.onP h)) (.onP h)

theorem Dev.canonical.phChecks {d : Dev} {p : Nat} {code : Int} (h : d.canonical) : (d.phChecks p code).canonical := .ite h (.onP h)

theorem Dev.canonical.credit {d : Dev} {n : Nat} {ok : Bool} (h : d.canonical) : (d.credit n ok).canonical :=
  .ite (.wr (.wr (.onIP h))) (.ite (.raise (.evt (.wr (.wr (.wr (.onIP h)))))) (.ite (.evt (.wr (.wr (.wr (.onIP h))))) (.wr (.wr (.onIP h)))))

theorem Dev.canonical.confirm {d : Dev} {r : Nat} {s : SpecSt} (h : d.canonical) : (d.confirm r s).canonical := by
  unfold Dev.confirm
  extract_lets _ d1 d2 d3
  have hd1 : d1.canonical := .wr (.onSpec (.specEnds h))
  have hd2 : d2.canonical := .wr hd1
  have hd3 : d3.canonical := .ite (.wr hd2) (.evt (.bump (.wr hd2)))
  exact .specTidy (.credit (.ipAck hd3))

theorem Dev.canonical.shuttleSum {d : Dev} {r : Nat} (h : d.canonical) : (d.shuttleSum r).canonical := by
  unfold Dev.shuttleSum
  split
  · exact h
  · extract_lets _ d1 _ _ d2 _
    have hd1 : d1.canonical := .ite (.onSpec h) h
    have hd2 : d2.canonical := .ite (.pcCut hd1) hd1
    exact .ite (.confirm hd2) hd2

theorem Dev.canonical.sumDone {d : Dev} {r : Nat} (h : d.canonical) : (d.sumDone r).canonical := .shuttleSum (.deliver (.wri (.onR h)))

theorem Dev.canonical.devPccSample {p : Nat} {code : Option (BitVec 14)} {d : Dev} (h : d.canonical) : (devPccSample p code d).canonical := by
  unfold Machine.devPccSample
  extract_lets d1 d2 d3 d4
  have hd1 : d1.canonical := .takeInst h
  have hd2 : d2.canonical := by
    unfold d2
    split
    · exact hd1
    · exact .stages hd1
  have hd3 : d3.canonical := .leaveDone hd2
  have hd4 : d4.canonical := by
    unfold d4
    split
    · exact hd3
    · exact .phChecks (.onP (.deliver hd3))
  refine .ite h ?_
  split
  · exact hd4
  · exact .ite (.sumDone (.onR hd4)) (.onR hd4)

/-! ### Machine/Branch -/

theorem Dev.canonical.brMark {d : Dev} {n : Nat} (h : d.canonical) : (d.brMark n).canonical := .ite h (.onB h)

theorem Dev.canonical.brGo {d : Dev} {n st : Nat} {g : Gate} (h : d.canonical) : (d.brGo n st g).canonical := by
  unfold Dev.brGo
  extract_lets d1 _ _ d2 d3 d4
  have hd1 : d1.canonical := .countClear (.brMark h)
  have hd2 : d2.canonical := .onB hd1
  have hd3 : d3.canonical := .onB hd2
  have hd4 : d4.canonical := .wr hd3
  exact .ite (.servePhases (.rtOn hd4)) (.onRT hd4)

theorem Dev.canonical.brNote {d : Dev} {n c : Nat} (h : d.canonical) : (d.brNote n c).canonical := .raiseL (.onB h)

theorem Dev.canonical.brTrip {d : Dev} {n access : Nat} {due : List Nat} (h : d.canonical) : (d.brTrip n access due).canonical := by
  unfold Dev.brTrip
  extract_lets u d1 due1 now
  have hd1 : d1.canonical := .forL h fun _ _ he => .brNote he
  refine .ite (.forL hd1 fun _ _ he => .lateCause he) ?_
  clear_value due1
  split
  · exact hd1
  · split
    · next hr => exact .tripMsg (.evt (.wr (.wr (.onB (.brGo (.fst hr (.rtTrip (.brMark hd1))))))))

theorem Dev.canonical.brTripBy {d : Dev} {n c access : Nat} (h : d.canonical) : (d.brTripBy n c access).canonical := .brTrip h

theorem Dev.canonical.brTripIf {d : Dev} {n c : Nat} (h : d.canonical) : (d.brTripIf n c).canonical := .ite (.brTrip h) h

theorem Dev.canonical.brFirst {d : Dev} {n : Nat} (h : d.canonical) : (d.brFirst n).canonical := .ite h (.brTrip h)

theorem Dev.canonical.brUndo {d : Dev} {n : Nat} (h : d.canonical) : (d.brUndo n).canonical := by
  unfold Dev.brUndo
  split
  · exact h
  · exact .editFault (.onB (.onRT (.wr h)))

theorem Dev.canonical.brRetry {d : Dev} {n : Nat} (h : d.canonical) : (d.brRetry n).canonical := .brGo (.rtAbandon h)

theorem Dev.canonical.brCoolLatch {d : Dev} {n : Nat} (h : d.canonical) : (d.brCoolLatch n).canonical := .tripMsg (.brGo (.rtLatch h))

theorem Dev.canonical.brOnReq {d : Dev} {n : Nat} (h : d.canonical) : (d.brOnReq n).1.canonical :=
  .ite_fst h (.ite_fst h (.ite_fst (.useLoss (.brGo h)) h))

theorem Dev.canonical.brOffReq {d : Dev} {n : Nat} (h : d.canonical) : (d.brOffReq n).canonical :=
  .ite (.brFirst h) (.ite (.brGo (.rtAbandon (.brFirst h))) (.onB (.brGo (.brFirst h))))

theorem Dev.canonical.mapStop {d : Dev} {r : Nat} (h : d.canonical) : (d.mapStop r).canonical := .railStop h

theorem Dev.canonical.downPrune {d : Dev} {n : Nat} (h : d.canonical) : (d.downPrune n).canonical := .onB h

theorem Dev.canonical.onDown {d : Dev} {n tb : Nat} {f : DownSt → DownSt} (h : d.canonical) : (d.onDown n tb f).canonical := .onB h

theorem Dev.canonical.mapRead {d : Dev} {n : Nat} {dice : List Nat} (h : d.canonical) : (d.mapRead n dice).canonical :=
  .forL (.tabRead h) fun _ _ he => .tabUse he

theorem Dev.canonical.devBranchDownArrive {n : Nat} {d : Dev} (h : d.canonical) : (devBranchDownArrive n d).canonical := by
  unfold Machine.devBranchDownArrive
  refine .ite h ?_
  split
  · exact h
  · extract_lets dice d1 d2 d3 d4
    have hd1 : d1.canonical := .mapRead h
    have hd2 : d2.canonical := .onDown hd1
    have hd3 : d3.canonical := .forL hd2 fun _ _ he1 => .ite he1 (.ite (.mapStop he1) (.ite (.holdPhases he1) (.ite (.onDown (.mapStop he1)) he1)))
    have hd4 : d4.canonical := .ite hd3 (.holdPhases hd3)
    exact .downPrune hd4

theorem Dev.canonical.devDependDisable {n e : Nat} {d : Dev} (h : d.canonical) : (devDependDisable n e d).canonical := by
  unfold Machine.devDependDisable
  extract_lets d1 r
  have hd1 : d1.canonical := .mapRead h
  refine .ite hd1 ?_
  split
  · exact hd1
  · exact .ite hd1 (.downPrune (.onDown (.mapStop hd1)))

theorem Dev.canonical.fenceBranch {d : Dev} {n : Nat} (h : d.canonical) : (d.fenceBranch n).canonical := .ite h (.brGo (.ite (.rtAbandon h) h))

theorem Dev.canonical.fenceBranchDomain {d : Dev} {n : Nat} (h : d.canonical) : (d.fenceBranchDomain n).canonical :=
  .fencePhases (.forL (.mapRead (.fenceBranch h)) fun _ _ he => .ite (.fenceRail he) he)

theorem Dev.canonical.unfenceBranch {d : Dev} {n : Nat} (h : d.canonical) : (d.unfenceBranch n).1.canonical :=
  .ite_fst h (.ite_fst h (.forL (.brGo (.rtClear h)) fun _ _ he => .unfencePhase he))

theorem Dev.canonical.brVin {d : Dev} {n v : Nat} (h : d.canonical) : (d.brVin n v).canonical := .onB h

theorem Dev.canonical.brUnder {d : Dev} {n v : Nat} (h : d.canonical) : (d.brUnder n v).canonical :=
  .ite h (.ite (.brFirst h) (.raise (.evt (.brGo (.brFirst h)))))

theorem Dev.canonical.brWindows {d : Dev} {n : Nat} (h : d.canonical) : (d.brWindows n).canonical := .ite h (.onB h)

theorem Dev.canonical.brLoop {d : Dev} {n : Nat} (h : d.canonical) : (d.brLoop n).canonical := .onB (.nextFree h)

theorem Dev.canonical.brModel {d : Dev} {n : Nat} (h : d.canonical) : (d.brModel n).canonical := .wri (.onB (.tabRead h))

theorem Dev.canonical.brI {d : Dev} {n : Nat} {i : Int} (h : d.canonical) : (d.brI n i).canonical := by
  unfold Dev.brI
  extract_lets d1 d2 d3 d4
  have hd1 : d1.canonical := .onB h
  have hd2 : d2.canonical := .ite hd1 (.brWindows hd1)
  have hd3 : d3.canonical := .ite (.brLoop hd2) hd2
  have hd4 : d4.canonical := .brModel hd3
  exact .ite (.brTrip hd4) (.ite (.brRetry hd4) hd4)

theorem Dev.canonical.devBrFastTrip {n : Nat} {d : Dev} (h : d.canonical) : (devBrFastTrip n d).canonical :=
  .ite (.brTripBy h) (.ite (.ite (.brOffReq (.brTripBy (.brUndo h))) (.brTripBy (.brUndo h))) h)

theorem Dev.canonical.devBrOcTrip {n : Nat} {d : Dev} (h : d.canonical) : (devBrOcTrip n d).canonical := .brTripIf h

theorem Dev.canonical.devBrSsTime {n : Nat} {d : Dev} (h : d.canonical) : (devBrSsTime n d).canonical := .brTripIf h

theorem Dev.canonical.devBrOvTrip {n : Nat} {d : Dev} (h : d.canonical) : (devBrOvTrip n d).canonical := .brTripIf h

theorem Dev.canonical.devBrRevTrip {n : Nat} {d : Dev} (h : d.canonical) : (devBrRevTrip n d).canonical := .brTripIf h

theorem Dev.canonical.devBrPwrTrip {n : Nat} {d : Dev} (h : d.canonical) : (devBrPwrTrip n d).canonical := .brTripIf h

theorem Dev.canonical.devBrQualify {n : Nat} {d : Dev} (h : d.canonical) : (devBrQualify n d).canonical := .ite (.brGo h) h

theorem Dev.canonical.devBrSoftstartDone {n : Nat} {d : Dev} (h : d.canonical) : (devBrSoftstartDone n d).canonical :=
  .ite (.brGo (.brFirst h)) (.brFirst h)

theorem Dev.canonical.retryNow {d : Dev} {u : Nat} (h : d.canonical) : (d.retryNow u).canonical := .ite (.entRetry h) (.ite (.brRetry h) (.phRetry h))

theorem Dev.canonical.devRetryDelayExpire {u : Nat} {d : Dev} (h : d.canonical) : (devRetryDelayExpire u d).canonical :=
  .ite h (.ite (.retryNow h) (.coolOpen h))

theorem Dev.canonical.devCoolTimeout {u : Nat} {d : Dev} (h : d.canonical) : (devCoolTimeout u d).canonical :=
  .ite h (.ite (.entCoolLatch h) (.ite (.brCoolLatch h) (.phCoolLatch h)))

theorem Dev.canonical.devCountClear {u : Nat} {d : Dev} (h : d.canonical) : (devCountClear u d).canonical := .countClear h

/-! ### Machine/Sage -/

theorem Dev.canonical.ocvRead {d : Dev} {p : Nat} (h : d.canonical) : (d.ocvRead p).canonical := .tabRead h

theorem Dev.canonical.socShow {d : Dev} {p : Nat} (h : d.canonical) : (d.socShow p).canonical := .wr (.wr (.wr h))

theorem Dev.canonical.anchor {d : Dev} {p : Nat} {soc : Word} (h : d.canonical) : (d.anchor p soc).canonical := .onSG h

theorem Dev.canonical.kalman {d : Dev} {p : Nat} (h : d.canonical) : (d.kalman p).canonical := .onSG (.ocvRead h)

theorem Dev.canonical.repStep {d : Dev} {p : Nat} (h : d.canonical) : (d.repStep p).canonical := .onSG h

theorem Dev.canonical.disagree {d : Dev} {p : Nat} (h : d.canonical) : (d.disagree p).canonical := .ite (.ite h (.raise (.evt (.wr h)))) (.wr h)

theorem Dev.canonical.emptyStep {d : Dev} {p : Nat} (h : d.canonical) : (d.emptyStep p).canonical := .onSG h

theorem Dev.canonical.filterStep {d : Dev} {p : Nat} (h : d.canonical) : (d.filterStep p).canonical :=
  .socShow (.emptyStep (.repStep (.disagree (.kalman h))))

theorem Dev.canonical.sgTemp {d : Dev} {p : Nat} (h : d.canonical) : (d.sgTemp p).canonical := by
  unfold Dev.sgTemp
  extract_lets _ _ d1 d2
  have hd1 : d1.canonical := .ite (.onSG h) (.ite (.onSG h) (.onSG h))
  have hd2 : d2.canonical := .ite (.onSG hd1) hd1
  exact .wri hd2

theorem Dev.canonical.sageI {d : Dev} {p : Nat} {code : Int} {ovr : Bool} (h : d.canonical) : (d.sageI p code ovr).canonical :=
  .ite (.wr (.onSG (.wri (.onSG h)))) (.wr (.onSG (.wri (.onSG h))))

theorem Dev.canonical.sageV {d : Dev} {p code : Nat} {ovr : Bool} (h : d.canonical) : (d.sageV p code ovr).canonical := by
  unfold Dev.sageV
  extract_lets _ _ d1 d2 d3
  have hd1 : d1.canonical := .onSG h
  have hd2 : d2.canonical := .sgTemp (.wr hd1)
  have hd3 : d3.canonical := .wr hd2
  exact .ite (.filterStep hd3) hd3

theorem Dev.canonical.icvClock {d : Dev} {stdby : Bool} (h : d.canonical) : (d.icvClock stdby).canonical := .forN h fun _ _ he => .ite he (.onIC he)

theorem Dev.canonical.devIcvPeriodEnd {n : Nat} {code : BitVec 24} {ovr : Bool} {d : Dev} (h : d.canonical) :
    (devIcvPeriodEnd n code ovr d).canonical := by
  unfold Machine.devIcvPeriodEnd
  extract_lets x close t len d1 d2 d3 d4 p
  have hd1 : d1.canonical := .onIC h
  have hd2 : d2.canonical := .wr (.wr (.hwWr hd1))
  have hd3 : d3.canonical := .wr hd2
  have hd4 : d4.canonical := .ite (.winEval hd3) (.deliver hd3)
  exact .ite h (.ite hd1 (.ite hd4 (.ite hd4 (.ite (.sageI hd4) (.sageV hd4)))))

theorem Dev.canonical.devPackInsert {p : Nat} {d : Dev} (h : d.canonical) : (devPackInsert p d).canonical := .ite (.wr (.onSG h)) h

theorem Dev.canonical.devSageSettlingEnd {p : Nat} {d : Dev} (h : d.canonical) : (devSageSettlingEnd p d).canonical := by
  unfold Machine.devSageSettlingEnd
  split
  · exact h
  · exact .ite h (.evt (.socShow (.wr (.wr (.wr (.onSG (.anchor (.ocvRead h))))))))

theorem Dev.canonical.devPackRemove {p : Nat} {d : Dev} (h : d.canonical) : (devPackRemove p d).canonical :=
  .ite (.packGone (.onSG (.evt (.sageInit (.wr (.wr (.wr h))))))) h

theorem Dev.canonical.devSageTempStale {p : Nat} {d : Dev} (h : d.canonical) : (devSageTempStale p d).canonical := .ite (.raise (.onSG h)) h

theorem Dev.canonical.sageRecord {d : Dev} {p : Nat} (h : d.canonical) : (d.sageRecord p).canonical := .wr h

theorem Dev.canonical.capLearn {d : Dev} {p : Nat} {sb : Word} (h : d.canonical) : (d.capLearn p sb).canonical := by
  unfold Dev.capLearn
  extract_lets _ _ _
  split
  · exact .onSG h
  · exact .ite (.onSG h) (.ite h (.ite (.onSG (.onSG (.wr (.evt (.bump (.wri h)))))) (.ite (.onSG (.sageRecord (.onSG (.learned (.evt (.bump (.wri
        (.wri h)))))))) (.onSG (.onSG (.evt (.bump (.wri h))))))))

theorem Dev.canonical.devRestPoint {p : Nat} {d : Dev} (h : d.canonical) : (devRestPoint p d).canonical := by
  unfold Machine.devRestPoint
  split
  · exact h
  · exact .ite h (.socShow (.capLearn (.evt (.wr (.wr (.onSG (.anchor (.ocvRead h))))))))

theorem Dev.canonical.devForcedEmpty {p : Nat} {d : Dev} (h : d.canonical) : (devForcedEmpty p d).canonical := by
  unfold Machine.devForcedEmpty
  split
  · exact h
  · exact .ite h (.socShow (.raise (.evt (.wr (.onSG (.anchor h))))))

theorem Dev.canonical.devSageRecordBuild {p : Nat} {d : Dev} (h : d.canonical) : (devSageRecordBuild p d).canonical := .ite (.sageRecord h) h

theorem Dev.canonical.devSageRecordWrite {p : Nat} {d : Dev} (h : d.canonical) : (devSageRecordWrite p d).canonical := by
  unfold Machine.devSageRecordWrite
  refine .ite h ?_
  split
  · next hr => exact .fst hr (.evTry h)
  · next hr => exact .completeAll (.onSG (.evt (.wr (.fst hr (.evTry h)))))

/-! ### Machine/Convert -/

theorem Dev.canonical.scvShow {d : Dev} {k : Nat} (h : d.canonical) : (d.scvShow k).canonical :=
  .ite (.wr (.wr h)) (.ite (.wr h) (.raise (.wr (.wr h))))

theorem Dev.canonical.liveShow {d : Dev} {c : Nat} (h : d.canonical) : (d.liveShow c).canonical :=
  .ite (.wr h) (.scvShow (.ite (.unfenceOwn (.wr h)) (.wr h)))

theorem Dev.canonical.convLost {d : Dev} {c : Nat} (h : d.canonical) : (d.convLost c).canonical := by
  unfold Dev.convLost
  refine .ite h (.ite ?_ (.ite (.ite h (.raise h)) (.ite (.entLoss h) (.raise h))))
  split
  · exact h
  · exact .raise h

theorem Dev.canonical.calNext {d : Dev} {c : Nat} (h : d.canonical) : (d.calNext c).canonical := by
  unfold Dev.calNext
  split
  · exact h
  · exact .ite (.scvShow (.wr (.onC h))) (.wr (.onC h))

theorem Dev.canonical.calStep {d : Dev} {c : Nat} (h : d.canonical) : (d.calStep c).canonical :=
  .ite (.ite h (.calNext h)) (.ite (.wr (.onC h)) (.evt (.wr (.onC h))))

theorem Dev.canonical.calDrop {d : Dev} {c s : Nat} (h : d.canonical) : (d.calDrop c s).canonical := .ite h (.ite (.calStep (.onC h)) (.onC h))

theorem Dev.canonical.fenceSlice {d : Dev} {c s : Nat} (h : d.canonical) : (d.fenceSlice c s).canonical :=
  .ite h (.convLost (.liveShow (.calDrop (.onC (.evt (.wrBit h))))))

theorem Dev.canonical.correctSlice {d : Dev} {c : Nat} {e : Estimate} (h : d.canonical) : (d.correctSlice c e).canonical := by
  unfold Dev.correctSlice
  extract_lets _ d1 d2 _ d3 d4 _ d5 _ _ _ d6
  have hd1 : d1.canonical := .wri h
  have hd2 : d2.canonical := .wri hd1
  have hd3 : d3.canonical := .onC hd2
  have hd4 : d4.canonical := .wri hd3
  have hd5 : d5.canonical := .wr hd4
  have hd6 : d6.canonical := .onC hd5
  exact .ite h (.ite (.evt hd6) hd6)

theorem Dev.canonical.devCorrectionUpdate {c : Nat} {es : List Estimate} {d : Dev} (h : d.canonical) : (devCorrectionUpdate c es d).canonical :=
  .ite h (.forL (.onC h) fun _ _ he => .correctSlice he)

theorem Dev.canonical.devSliceDrift {c s : Nat} {d : Dev} (h : d.canonical) : (devSliceDrift c s d).canonical := .ite h (.raiseAt (.onC h))

theorem Dev.canonical.calSet {d : Dev} {c : Nat} {slices : List Nat} (h : d.canonical) : (d.calSet c slices).canonical := .calNext (.onC h)

theorem Dev.canonical.calGo {d : Dev} {c : Nat} {slices : List Nat} (h : d.canonical) : (d.calGo c slices).canonical := .calSet (.wr h)

theorem Dev.canonical.calTurn {d : Dev} {c : Nat} (h : d.canonical) : (d.calTurn c).canonical := .ite (.scvShow (.ite (.wr h) h)) (.ite (.wr h) h)

theorem Dev.canonical.calRequest {d : Dev} {c : Nat} (h : d.canonical) : (d.calRequest c).canonical :=
  .ite (.evt h) (.ite (.evt (.wr h)) (.ite (.wr h) (.calGo h)))

theorem Dev.canonical.calAllGo {d : Dev} (h : d.canonical) : d.calAllGo.canonical :=
  .forN (.forN h fun _ _ he => .wr (.onC he)) fun _ _ he => .scvShow he

theorem Dev.canonical.unfenceConv {d : Dev} {c : Nat} {t : Token} (h : d.canonical) : (d.unfenceConv c t).1.canonical :=
  .ite_fst h (.ite_fst (.onC (.onC h)) (.ite_fst (.ite (.onC h) (.onC (.onC h))) (.calGo (.onC h))))

theorem Dev.canonical.unSlice {d : Dev} {c s : Nat} {ok : Bool} (h : d.canonical) : (d.unSlice c s ok).canonical :=
  .forL (.onC h) fun _ _ he => .complete he

theorem Dev.canonical.devCalSliceEnd {c : Nat} {m : CalResult} {d : Dev} (h : d.canonical) : (devCalSliceEnd c m d).canonical := by
  unfold Machine.devCalSliceEnd
  extract_lets d1 ok
  have hd1 : d1.canonical := .calTurn h
  split
  · exact hd1
  · exact .ite hd1 (.unSlice (.liveShow (.calStep (.ite (.wrBit (.onC (.wr (.wri (.wri (.onC hd1)))))) (.ite (.evt (.onC hd1)) (.raiseAt (.evt
        (.onC hd1))))))))

theorem Dev.canonical.curveRead {d : Dev} {k c code : Nat} (h : d.canonical) : (d.curveRead k c code).canonical := .tabRead h

theorem Dev.canonical.staleDue {d : Dev} {u : Nat} (h : d.canonical) : (d.staleDue u).canonical :=
  .ite (.ite (.raise (.onE h)) h) (.ite (.raise (.onB h)) h)

theorem Dev.canonical.thermistor {d : Dev} {k i : Nat} {alt : Bool} {code : Nat} (h : d.canonical) : (d.thermistor k i alt code).canonical :=
  .ite (.onB (.staleDue (.curveRead h))) (.ite (.onE (.staleDue (.curveRead h))) (.ite (.onSG (.curveRead (.curveRead h))) (.curveRead h)))

theorem Dev.canonical.devTempStale {u : Nat} {d : Dev} (h : d.canonical) : (devTempStale u d).canonical := .staleDue h

theorem Dev.canonical.selDeliver {d : Dev} {k pos : Nat} {alt : Bool} {v : Nat} {cal inj : Bool} {stamp : Nat} (h : d.canonical) :
    (d.selDeliver k pos alt v cal inj stamp).canonical :=
  .ite (.thermistor (.deliver h)) (.deliver h)

theorem Dev.canonical.reserved {d : Dev} {k q : Nat} {code : BitVec 12} (h : d.canonical) : (d.reserved k q code).canonical := by
  unfold Dev.reserved
  extract_lets _ _ _
  split
  · exact .brUnder (.brVin (.deliver h))
  · exact .onB (.deliver h)
  · exact .brI (.deliver h)

theorem Dev.canonical.seqSwap {d : Dev} {k : Nat} (h : d.canonical) : (d.seqSwap k).canonical :=
  .ite h (.completeAll (.onSQ (.wr (.wr (.forL h fun _ _ he1 => .setWord he1)))))

theorem Dev.canonical.scvRebase {d : Dev} {k : Nat} (h : d.canonical) : (d.scvRebase k).canonical := .ite h (.onSQ h)

theorem Dev.canonical.passStart {d : Dev} {k t : Nat} (h : d.canonical) : (d.passStart k t).canonical := .onSQ (.wr (.wr (.wr (.seqSwap h))))

theorem Dev.canonical.passEnd {d : Dev} {k : Nat} (h : d.canonical) : (d.passEnd k).canonical := .ite (.wr (.onSQ h)) (.passStart (.wr (.onSQ h)))

theorem Dev.canonical.seqTrig {f : Nat} {d : Dev} {k : Nat} (h : d.canonical) : (Dev.seqTrig f d k).canonical := by
  induction f generalizing d k with
  | zero => exact h
  | succ f ih =>
    unfold Dev.seqTrig
    extract_lets d1 now d2 ended d3 t d4 d5
    have hd1 : d1.canonical := .scvRebase h
    have hd2 : d2.canonical := .onSQ hd1
    have hd3 : d3.canonical := .ite (.passEnd hd2) hd2
    have hd4 : d4.canonical := .bump hd3
    have hd5 : d5.canonical := .ite (.passStart hd3) (.ite (.passStart hd4) hd4)
    exact .ite hd1 (.ite (.forN hd5 fun _ _ he => .ite (ih he) he) hd5)

theorem Dev.canonical.seqTrigger {d : Dev} {k : Nat} (h : d.canonical) : (d.seqTrigger k).canonical := .seqTrig h

theorem Dev.canonical.seqSource {d : Dev} {src : Nat} (h : d.canonical) : (d.seqSource src).canonical :=
  .forN h fun _ _ he => .ite (.seqTrigger he) he

theorem Dev.canonical.seqOver {d : Dev} {k : Nat} (h : d.canonical) : (d.seqOver k).canonical :=
  .ite (.seqSource (.passEnd (.scvRebase h))) (.scvRebase h)

theorem Dev.canonical.seqConvert {d : Dev} {k s : Nat} {code : BitVec 12} (h : d.canonical) : (d.seqConvert k s code).canonical := by
  unfold Dev.seqConvert
  extract_lets d1 _ d2 _ _ _ _ _ _ _ _ d3 d4
  have hd1 : d1.canonical := .seqOver h
  have hd2 : d2.canonical := .ite (.passStart hd1) hd1
  have hd3 : d3.canonical := .selDeliver hd2
  have hd4 : d4.canonical := .onSQ hd3
  exact .ite hd2 (.ite (.wr hd4) (.ite (.wr (.wr hd4)) (.onSQ (.wr hd4))))

theorem Dev.canonical.devScvConversion {k slot : Nat} {code : BitVec 12} {d : Dev} (h : d.canonical) :
    (devScvConversion k slot code d).canonical := by
  unfold Machine.devScvConversion
  extract_lets c d1 d2 now pos v cal
  have hd1 : d1.canonical := .takeInst h
  have hd2 : d2.canonical := .takeInst (.calTurn h)
  refine .ite h (.ite (.ite hd1 (.seqConvert hd1)) (.ite h (.ite hd2 ?_)))
  split
  · exact .reserved hd2
  · exact .ite (.onSQ (.wr hd2)) (.seqConvert hd2)

theorem Dev.canonical.devBrSample {n : Nat} {i : BitVec 12} {vin vout : Option (BitVec 12)} {d : Dev} (h : d.canonical) :
    (devBrSample n i vin vout d).canonical := by
  unfold Machine.devBrSample
  extract_lets k c d1 d2
  have hd1 : d1.canonical := .calTurn h
  have hd2 : d2.canonical := .takeInst hd1
  refine .ite h ?_
  split
  · exact hd1
  · extract_lets code
    refine .ite hd1 (.ite hd2 ?_)
    clear_value code
    split
    · exact hd2
    · exact .reserved hd2

theorem Dev.canonical.devSeqPassEnd {k : Nat} {d : Dev} (h : d.canonical) : (devSeqPassEnd k d).canonical := .seqOver h

theorem Dev.canonical.injRequest {d : Dev} {a k sel : Nat} (h : d.canonical) : (d.injRequest a k sel).canonical :=
  .ite (.wr (.wr h)) (.ite (.wr (.bump (.wr h))) (.onSQ (.wr (.wr (.wr (.wr h))))))

theorem Dev.canonical.devInjResult {k : Nat} {d : Dev} (h : d.canonical) : (devInjResult k d).canonical := by
  unfold Machine.devInjResult
  extract_lets x d1 d2 d3 c live
  have hd1 : d1.canonical := .wr (.wr (.wr h))
  have hd2 : d2.canonical := .selDeliver hd1
  have hd3 : d3.canonical := .wr hd2
  exact .ite h (.ite (.calSet hd3) hd3)

/-! ### Machine/Weft -/

theorem Dev.canonical.periodMeans {d : Dev} {r : Nat} (h : d.canonical) : (d.periodMeans r).canonical :=
  .forL h fun _ _ he => .onP (.setHeat (.wri he))

theorem Dev.canonical.shareUpd {d : Dev} {r p : Nat} (h : d.canonical) : (d.shareUpd r p).canonical := .onP h

theorem Dev.canonical.reed {d : Dev} {r : Nat} (h : d.canonical) : (d.reed r).canonical :=
  .ite (.forL h fun _ _ he => .setDelta he) (.ite h (.forL h fun _ _ he => .shareUpd (.setDelta he)))

theorem Dev.canonical.effRead {d : Dev} {r : Nat} (h : d.canonical) : (d.effRead r).canonical := .tabRead h

theorem Dev.canonical.heddleFilter {d : Dev} {r : Nat} (h : d.canonical) : (d.heddleFilter r).canonical := .onR h

theorem Dev.canonical.wakeHold {d : Dev} {r k : Nat} (h : d.canonical) : (d.wakeHold r k).canonical := by
  unfold Dev.wakeHold
  split
  · exact h
  · split
    · exact h
    · exact .ite h (.onR h)

theorem Dev.canonical.wake {d : Dev} {r : Nat} (h : d.canonical) : (d.wake r).canonical := by
  unfold Dev.wake
  extract_lets d1
  have hd1 : d1.canonical := .forN h fun _ _ he => .wakeHold he
  split
  · exact .wokenShow hd1
  · exact .ite (.wokenShow hd1) (.wokenShow (.onSpec hd1))

theorem Dev.canonical.holdsEnd {d : Dev} {r : Nat} (h : d.canonical) : (d.holdsEnd r).canonical := .wokenShow (.onR h)

theorem Dev.canonical.wakeEnd {d : Dev} {r : Nat} {managed : Bool} (h : d.canonical) : (d.wakeEnd r managed).1.canonical := by
  unfold Dev.wakeEnd
  split
  · exact h
  · split
    · exact h
    · exact .ite_fst h (.specTidy (.wokenShow (.onSpec h)))

theorem Dev.canonical.heddle {d : Dev} {r : Nat} (h : d.canonical) : (d.heddle r).1.canonical :=
  .ite_fst (.onR h) (.ite_fst (.ite_fst (.evt (.onR h)) (.onR h)) (.onR h))

theorem Dev.canonical.rotate {d : Dev} {r : Nat} {act : List Nat} (h : d.canonical) : (d.rotate r act).1.canonical := by
  unfold Dev.rotate
  extract_lets per n idle held d1 top hot cool
  have hd1 : d1.canonical := .onR h
  refine .ite_fst h ?_
  clear_value hot cool
  split
  · exact .ite_fst (.evt hd1) hd1
  · exact hd1

theorem Dev.canonical.moveStep {d : Dev} {r j : Nat} {ps : List Nat} (h : d.canonical) : (d.moveStep r j ps).canonical := .forL h fun _ _ he => .wr he

theorem Dev.canonical.interleave {d : Dev} {r : Nat} {old act : List Nat} (h : d.canonical) : (d.interleave r old act).canonical := by
  unfold Dev.interleave
  extract_lets _ _ d1 d2
  have hd1 : d1.canonical := .forL h fun _ _ he => .ite (.onP he) (.onP (.wr he))
  have hd2 : d2.canonical := .onR hd1
  exact .ite (.wr (.onR hd2)) (.moveStep (.wr (.onR hd2)))

theorem Dev.canonical.moveOn {d : Dev} {r : Nat} {act : List Nat} (h : d.canonical) : (d.moveOn r act).canonical :=
  .ite h (.ite (.evt (.wr (.onR (.moveStep h)))) (.onR (.moveStep h)))

theorem Dev.canonical.centres {d : Dev} {r : Nat} {old act : List Nat} (h : d.canonical) : (d.centres r old act).canonical := by
  unfold Dev.centres
  extract_lets _ _ d1
  have hd1 : d1.canonical := .forL h fun _ _ he => .onP (.wr he)
  exact .ite (.interleave h) (.ite (.interleave hd1) (.moveOn hd1))

theorem Dev.canonical.maskFill {d : Dev} {r : Nat} {act : List Nat} (h : d.canonical) : (d.maskFill r act).1.canonical :=
  .ite (.wr (.onR h)) (.evt (.wr (.onR h)))

theorem Dev.canonical.join {d : Dev} {r p b : Nat} (h : d.canonical) : (d.join r p b).canonical := .onP (.setDelta (.wr h))

theorem Dev.canonical.leave {d : Dev} {r p b : Nat} (h : d.canonical) : (d.leave r p b).canonical := .onP h

theorem Dev.canonical.select {d : Dev} {r : Nat} (h : d.canonical) : (d.select r).1.canonical := by
  unfold Dev.select
  extract_lets _
  split
  · next hr =>
    extract_lets _
    split
    · next hr1 =>
      extract_lets _
      split
      · next hr2 =>
        split
        · next hr3 => exact .fst hr3 (.ite_fst (.rotate (.fst hr2 (.maskFill (.fst hr1 (.ite_fst (.heddle (.fst hr (.wakeEnd (.wake h)))) (.fst hr
              (.wakeEnd (.wake h)))))))) (.fst hr2 (.maskFill (.fst hr1 (.ite_fst (.heddle (.fst hr (.wakeEnd (.wake h)))) (.fst hr (.wakeEnd
                  (.wake h))))))))

theorem Dev.canonical.weft {d : Dev} {r b : Nat} (h : d.canonical) : (d.weft r b).canonical := by
  unfold Dev.weft
  extract_lets d1 d2 _ d3 d4 d5 d6 _
  have hd1 : d1.canonical := .coefNext (.coefSwap (.maskSwap h))
  have hd2 : d2.canonical := .ite (.effRead hd1) hd1
  have hd3 : d3.canonical := .onR hd2
  have hd4 : d4.canonical := .periodMeans (.forL hd3 fun _ _ he => .leaveDone he)
  have hd5 : d5.canonical := .holdsEnd (.reed hd4)
  have hd6 : d6.canonical := .onR (.heddleFilter hd5)
  split
  · next hr => exact .warpShow (.forL (.forL (.forL (.forL (.centres (.fst hr (.ite_fst (.select hd6) hd6))) fun _ _ he => .leave he) fun _ _ he =>
        .join he) fun _ _ he => .onP he) fun _ _ he => .onP he)

theorem Dev.canonical.idleBoundary {d : Dev} {r : Nat} (h : d.canonical) : (d.idleBoundary r).canonical := .periodMeans (.onR (.ite (.effRead h) h))

theorem Dev.canonical.devSwitchingPeriodBoundary {r : Nat} {d : Dev} (h : d.canonical) : (devSwitchingPeriodBoundary r d).canonical := by
  unfold Machine.devSwitchingPeriodBoundary
  split
  · exact h
  · exact .ite h (.ite (.weft (.onR (.stages h))) (.idleBoundary (.onR (.stages h))))

/-! ### Machine/Intent -/

theorem Dev.canonical.ipCancel {d : Dev} {n : Nat} (h : d.canonical) : (d.ipCancel n).canonical := .forL h fun _ _ he => .cancelSpec he

theorem Dev.canonical.ipGo {d : Dev} {n st : Nat} (h : d.canonical) : (d.ipGo n st).canonical := .ite (.wr h) (.ite (.onIP (.wr h)) (.onIP (.wr h)))

theorem Dev.canonical.ipMode {d : Dev} {n : Nat} (h : d.canonical) : (d.ipMode n).canonical :=
  .ite h (.ite (.ite (.ipGo h) h) (.ite h (.ipCancel (.onIP (.ipGo h)))))

theorem Dev.canonical.fencePort {d : Dev} {n : Nat} (h : d.canonical) : (d.fencePort n).canonical := .ite h (.ipCancel (.evt (.ipGo h)))

theorem Dev.canonical.unfencePort {d : Dev} {n : Nat} (h : d.canonical) : (d.unfencePort n).1.canonical := .ite_fst h (.ipGo h)

theorem Dev.canonical.ipBlock {d : Dev} {n : Nat} {bad : Bool} (h : d.canonical) : (d.ipBlock n bad).canonical := .ite (.raise (.onIP h)) (.onIP h)

theorem Dev.canonical.devIntentFrameBad {n : Nat} {d : Dev} (h : d.canonical) : (devIntentFrameBad n d).canonical := .ite (.ipBlock (.bump h)) h

theorem Dev.canonical.ipSilence {d : Dev} {n : Nat} (h : d.canonical) : (d.ipSilence n).canonical := .ite (.raise (.ipCancel (.evt (.ipGo h)))) h

theorem Dev.canonical.ipTake {d : Dev} {n kind : Nat} {f : Frame} (h : d.canonical) : (d.ipTake n kind f).1.canonical := by
  unfold Dev.ipTake
  extract_lets d1 now d2 up d3 seq last d4
  have hd1 : d1.canonical := .ipSilence h
  have hd2 : d2.canonical := .ipBlock hd1
  have hd3 : d3.canonical := .ite (.onIP hd2) hd2
  have hd4 : d4.canonical := by
    unfold d4
    clear_value last
    split
    · exact hd3
    · exact .ite hd3 (.bump hd3)
  exact .ite_fst hd1 (.ite_fst (.devIntentFrameBad hd1) (.ite_fst hd3 (.ite_fst (.bump hd3) (.onIP hd4))))

theorem Dev.canonical.devHello {n : Nat} {f : Frame} {d : Dev} (h : d.canonical) : (devHello n f d).canonical := by
  unfold Machine.devHello
  split
  · next hr =>
    extract_lets d1 now
    have hd1 : d1.canonical := .wr (.fst hr (.ipTake h))
    exact .ite (.fst hr (.ipTake h)) (.ite hd1 (.evt (.onIP (.ipGo hd1))))

theorem Dev.canonical.ipDeny {d : Dev} {n seq slot reason : Nat} (h : d.canonical) : (d.ipDeny n seq slot reason).canonical := .ipReady h

theorem Dev.canonical.ipGrant {d : Dev} {n seq slot : Nat} {spec : Bool} (h : d.canonical) : (d.ipGrant n seq slot spec).canonical := .ipReady h

theorem Dev.canonical.specOpen {d : Dev} {r n slot seq : Nat} {di : Int} {lead cls : Nat} {shadow : Bool} (h : d.canonical) :
    (d.specOpen r n slot seq di lead cls shadow).canonical := by
  unfold Dev.specOpen
  extract_lets _ d1 _ _ _ _ _ _ _ _ _ _ _ _ d2 d3
  have hd1 : d1.canonical := .stages h
  have hd2 : d2.canonical := .onR hd1
  have hd3 : d3.canonical := .wr (.wr (.wri hd2))
  exact .ite (.wr hd3) (.specMark (.wri (.evt (.wr hd3))))

theorem Dev.canonical.devStepFrame {n : Nat} {f : Frame} {d : Dev} (h : d.canonical) : (devStepFrame n f d).canonical := by
  unfold Machine.devStepFrame
  split
  · next hr =>
    extract_lets w seq di lead cls slot shadow
    refine .ite (.fst hr (.ipTake h)) (.ite (.ipDeny (.fst hr (.ipTake h))) ?_)
    split
    · exact .ipDeny (.fst hr (.ipTake h))
    · exact .ite (.ipDeny (.fst hr (.ipTake h))) (.ite (.ipGrant (.fst hr (.ipTake h))) (.specOpen (.ipGrant (.fst hr (.ipTake h)))))

theorem Dev.canonical.devVidFrame {n : Nat} {f : Frame} {d : Dev} (h : d.canonical) : (devVidFrame n f d).canonical := by
  unfold Machine.devVidFrame
  extract_lets w seq slot tgt
  refine .ite (.devIntentFrameBad (.ipSilence h)) ?_
  split
  · next hr =>
    refine .ite (.fst hr (.ipTake h)) ?_
    split
    · exact .ipDeny (.fst hr (.ipTake h))
    · exact .ite (.ipDeny (.fst hr (.ipTake h))) (.ite (.ipDeny (.fst hr (.ipTake h))) (.ite (.ipDeny (.fst hr (.ipTake h))) (.ipAck (.ite (.fst hr
          (.ipTake h)) (.railSet (.fst hr (.ipTake h)))))))

theorem Dev.canonical.devStateFrame {n : Nat} {f : Frame} {d : Dev} (h : d.canonical) : (devStateFrame n f d).canonical := by
  unfold Machine.devStateFrame
  split
  · next hr => exact .ite (.fst hr (.ipTake h)) (.ipAck (.evt (.wr (.fst hr (.ipTake h)))))

theorem Dev.canonical.devIntentSilent {n : Nat} {d : Dev} (h : d.canonical) : (devIntentSilent n d).canonical := .ipSilence h

theorem Dev.canonical.devIntentFrameSend {n : Nat} {d : Dev} (h : d.canonical) : (devIntentFrameSend n d).canonical := by
  unfold Machine.devIntentFrameSend
  refine .ite h ?_
  split
  · exact h
  · exact .onIP h

theorem Dev.canonical.devCurrent {n : Nat} {d : Dev} (h : d.canonical) : (devCurrent n d).canonical :=
  .ite h (.forL (.onIP h) fun _ _ he => .ipReady he)

theorem Dev.canonical.devSpecPrechargeStart {r : Nat} {d : Dev} (h : d.canonical) : (devSpecPrechargeStart r d).canonical := by
  unfold Machine.devSpecPrechargeStart
  split
  · exact h
  · exact .ite h (.wri (.onSpec (.stages h)))

theorem Dev.canonical.devSpecPrechargeEnd {r : Nat} {d : Dev} (h : d.canonical) : (devSpecPrechargeEnd r d).canonical := by
  unfold Machine.devSpecPrechargeEnd
  split
  · exact h
  · exact .ite h (.wr (.onSpec (.stages h)))

theorem Dev.canonical.retract {d : Dev} {r : Nat} {s : SpecSt} (h : d.canonical) : (d.retract r s).canonical :=
  .specTidy (.credit (.ipAck (.ite (.wr (.onSpec (.specEnds (.wr (.stages h))))) (.evt (.bump (.wr (.wr (.onSpec (.wr (.stages h))))))))))

theorem Dev.canonical.devRetract {r : Nat} {d : Dev} (h : d.canonical) : (devRetract r d).canonical := by
  unfold Machine.devRetract
  split
  · exact h
  · exact .ite h (.retract h)

theorem Dev.canonical.devWakeHoldEnd {r : Nat} {d : Dev} (h : d.canonical) : (devWakeHoldEnd r d).canonical := .holdsEnd h

theorem Dev.canonical.ipRestore {d : Dev} {n : Nat} (h : d.canonical) : (d.ipRestore n).canonical := .onIP (.wr (.wr (.wr h)))

/-! ### Machine/Modes -/

theorem Dev.canonical.alertShow {d : Dev} (h : d.canonical) : d.alertShow.canonical := h

theorem Dev.canonical.modeMark {d : Dev} {cause : Nat} (h : d.canonical) : (d.modeMark cause).canonical := .ite h h

theorem Dev.canonical.modeBack {d : Dev} {p : Nat} (h : d.canonical) : (d.modeBack p).canonical := by
  unfold Dev.modeBack
  split
  · exact h
  · extract_lets d1 _ d2 d3 d4
    have hd1 : d1.canonical := .wr (.wr h)
    have hd2 : d2.canonical := hd1
    have hd3 : d3.canonical := .wrBit hd2
    have hd4 : d4.canonical := .wr (.wr hd3)
    refine .ite h (.ite hd3 (.forN hd4 fun _ _ he => ?_))
    split
    · exact .ite (.entUndo he) he
    · exact he

theorem Dev.canonical.requalify {d : Dev} (h : d.canonical) : d.requalify.canonical := .forN h fun _ _ he => .ite (.onE he) he

theorem Dev.canonical.assignPhases {d : Dev} (h : d.canonical) : d.assignPhases.canonical :=
  .forN h fun _ _ he => .warpShow (.forL he fun _ _ he1 => .ite he1 (.setDelta (.setHeat (.wr (.onP (.onP he1))))))

theorem Dev.canonical.sampleArchive {d : Dev} (h : d.canonical) : d.sampleArchive.canonical := .ite h (.setPool h)

theorem Dev.canonical.sampleRail {d : Dev} {r : Nat} (h : d.canonical) : (d.sampleRail r).canonical := .warpShow (.onR (.effRead h))

theorem Dev.canonical.leaveConfigure {d : Dev} (h : d.canonical) : d.leaveConfigure.canonical := by
  unfold Dev.leaveConfigure
  extract_lets d1 d2
  have hd1 : d1.canonical := .forN (.assignPhases (.sampleArchive (.commit h))) fun _ _ he => .sampleRail he
  have hd2 : d2.canonical := .wr hd1
  exact .other hd2

theorem Dev.canonical.modeCopy {d : Dev} (h : d.canonical) : d.modeCopy.canonical := .sbWr h

theorem Dev.canonical.modeGo {d : Dev} {m cause : Nat} (h : d.canonical) : (d.modeGo m cause).canonical := by
  unfold Dev.modeGo
  extract_lets _ d1 d2 d3 d4 d5 d6 d7 _ d8
  have hd1 : d1.canonical := .modeMark h
  have hd2 : d2.canonical := .wr (.wr (.wr hd1))
  have hd3 : d3.canonical := .forN (.evt hd2) fun _ _ he => .corePend he
  have hd4 : d4.canonical := .ite (.forN hd3 fun _ _ he => .cancelSpec he) hd3
  have hd5 : d5.canonical := .forN hd4 fun _ _ he => .ipMode he
  have hd6 : d6.canonical := .ite (.requalify hd5) hd5
  have hd7 : d7.canonical := .ite (.forN hd6 fun _ _ he => .onE he) hd6
  have hd8 : d8.canonical := .ite hd7 hd7
  exact .modeCopy (.ite (.leaveConfigure hd8) hd8)

theorem Dev.canonical.keepOver {d : Dev} (h : d.canonical) : d.keepOver.canonical := by
  unfold Dev.keepOver
  extract_lets _ d1 d2 _
  have hd1 : d1.canonical := h
  have hd2 : d2.canonical := .forN hd1 fun _ _ he => .entOffOne he
  exact .ite hd1 (.forN hd2 fun _ _ he => .ite (.onB (.brOffReq he)) (.brOffReq he))

theorem Dev.canonical.keepChannels {d : Dev} (h : d.canonical) : d.keepChannels.canonical :=
  .forN (.forN h fun _ _ he => .ite (.entGo he) (.ite (.entGo he) (.ite (.entGo (.rtAbandon he)) (.onE he)))) fun _ _ he => .ite (.brGo he) (.ite
      (.brGo (.rtAbandon he)) (.onB he))

theorem Dev.canonical.keepBegin {d : Dev} (h : d.canonical) : d.keepBegin.canonical := h

theorem Dev.canonical.keepZero {d : Dev} (h : d.canonical) : d.keepZero.canonical := .ite (.keepOver h) h

theorem Dev.canonical.keepGo {d : Dev} (h : d.canonical) : d.keepGo.canonical :=
  .ite h (.alertShow (.keepZero (.keepChannels (.keepBegin (.icvClock h)))))

theorem Dev.canonical.devKeepEnter {d : Dev} (h : d.canonical) : (devKeepEnter d).canonical := .ite (.keepGo h) h

theorem Dev.canonical.devKeepTrip {u : Nat} {d : Dev} (h : d.canonical) : (devKeepTrip u d).canonical :=
  .ite h (.ite (.ite (.entGo (.rtLatch h)) h) (.ite (.brGo (.rtLatch h)) h))

theorem Dev.canonical.keepExpires {d : Dev} (h : d.canonical) : d.keepExpires.canonical := .ite (.alertShow (.keepOver h)) h

theorem Dev.canonical.devKeepExpire {d : Dev} (h : d.canonical) : (devKeepExpire d).canonical := .keepExpires h

theorem Dev.canonical.freeBranch {d : Dev} {n : Nat} (h : d.canonical) : (d.freeBranch n).canonical := .brGo (.rtClear h)

theorem Dev.canonical.freeChannels {d : Dev} (h : d.canonical) : d.freeChannels.canonical :=
  .forN (.forN h fun _ _ he => .ite (.freeEntry he) he) fun _ _ he => .ite (.freeBranch he) he

theorem Dev.canonical.deliverHeld {d : Dev} {die : Nat} (h : d.canonical) : (d.deliverHeld die).canonical := by
  unfold Dev.deliverHeld
  extract_lets _ _ d1 d2 _
  have hd1 : d1.canonical := .forL h fun _ _ he => he
  have hd2 : d2.canonical := .bump hd1
  exact hd2

theorem Dev.canonical.devKeepRelease {d : Dev} (h : d.canonical) : (devKeepRelease d).canonical := by
  unfold Machine.devKeepRelease
  extract_lets d1 wait v d2 d3
  have hd1 : d1.canonical := .icvClock (.keepExpires h)
  clear_value d1
  have hd2 : d2.canonical := hd1
  clear_value d2
  have hd3 : d3.canonical := .ite (.freeChannels hd2) hd2
  clear_value d3
  exact .ite h (.alertShow (.raise (.deliverHeld hd3)))

theorem Dev.canonical.safeActs {d : Dev} (h : d.canonical) : d.safeActs.canonical := by
  unfold Dev.safeActs
  extract_lets _ d1 _
  have hd1 : d1.canonical := .forN h fun _ _ he => .railStop he
  exact hd1

theorem Dev.canonical.seqStop {d : Dev} {st : Nat} (h : d.canonical) : (d.seqStop st).canonical := by
  unfold Dev.seqStop
  extract_lets d1 d2 _
  have hd1 : d1.canonical := .completeAll h
  have hd2 : d2.canonical := .wr hd1
  exact hd2

theorem Dev.canonical.factoryHold {d : Dev} {cause : Nat} (h : d.canonical) : (d.factoryHold cause).canonical :=
  .modeCopy (.forN (.evt (.wr (.wr (.wr (.safeActs h))))) fun _ _ he => .corePend he)

theorem Dev.canonical.safeEnter {d : Dev} {cause : Nat} (h : d.canonical) : (d.safeEnter cause).canonical :=
  .ite (.factoryHold (.modeBack h)) (.ite (.modeCopy (.alertShow (.evt (.wr (.seqStop (.modeGo (.safeActs (.modeBack h)))))))) (.modeBack h))

theorem Dev.canonical.devSafeDelayExpire {d : Dev} (h : d.canonical) : (devSafeDelayExpire d).canonical := by
  unfold Machine.devSafeDelayExpire
  split
  · exact h
  · extract_lets v d1 d2
    have hd1 : d1.canonical := h
    have hd2 : d2.canonical := .forN hd1 fun _ _ he => .brOffReq he
    exact .ite h (.ite (.forN hd2 fun _ _ he => .entOffOne he) hd2)

theorem Dev.canonical.freeAllOwn {d : Dev} (h : d.canonical) : d.freeAllOwn.canonical := by
  unfold Dev.freeAllOwn
  extract_lets d1 d2 v
  have hd1 : d1.canonical := .forN h fun _ _ he => .timerOff he
  clear_value d1
  have hd2 : d2.canonical := .forN hd1 fun _ _ he => .freeOwn he
  clear_value d2
  exact hd2

theorem Dev.canonical.closeThreads {d : Dev} (h : d.canonical) : d.closeThreads.canonical := by
  unfold Dev.closeThreads
  extract_lets _ d1 d2 d3 _ d4 _ d5 d6
  have hd1 : d1.canonical := .forL h fun _ _ he => .dataOut (.closeBlks he)
  have hd2 : d2.canonical := .forN hd1 fun _ _ he => .forL (.onV he) fun _ _ he1 => .blkDrop he1
  have hd3 : d3.canonical := .forL hd2 fun _ _ he => .threadEnd he
  have hd4 : d4.canonical := .forL hd3 fun _ _ he => .complete he
  have hd5 : d5.canonical := hd4
  have hd6 : d6.canonical := .forN hd5 fun _ _ he => .vcShow (.onV he)
  exact .usedShow (.forN hd6 fun _ _ he => .rqShow he)

theorem Dev.canonical.clearMemories {d : Dev} (h : d.canonical) : d.clearMemories.canonical := by
  obtain ⟨hregs, hdata, herr, hmem⟩ := h
  have hkeep : Dev.canonical
      { d with
        regs := d.regs.filter fun x => ! tableCleared x.1
        slot := []
        mem := { d.mem with data := d.mem.data.filter fun x => ! configureBanks.contains (x.1 / 0x100000)
                            err := d.mem.err.filter fun x => ! configureBanks.contains (x.1 / 0x100000)
                            init := configureBanks, copying := [], copyOut := [] } } :=
    .of (KV.wf_filter _ (fun k => ! tableCleared k) hregs)
      (KV.wf_filter _ (fun k => ! configureBanks.contains (k / 0x100000)) hdata)
      (KV.wf_filter _ (fun k => ! configureBanks.contains (k / 0x100000)) herr) hmem
  exact .wr (.wr hkeep)

theorem Dev.canonical.endFences {d : Dev} (h : d.canonical) : d.endFences.canonical := by
  unfold Dev.endFences
  extract_lets d1 d2 d3 d4 d5 d6 d7 d8 d9
  have hd1 : d1.canonical := .forN h fun _ _ he => .ite (.wr (.railStop he)) (.railStop he)
  have hd2 : d2.canonical := .forL hd1 fun _ _ he => .setDelta (.setHeat (.wr he))
  have hd3 : d3.canonical := .forN hd2 fun _ _ he => .onR (.specZero he)
  have hd4 : d4.canonical := .other hd3
  have hd5 : d5.canonical := .forN hd4 fun _ _ he => .wr (.wr he)
  have hd6 : d6.canonical := .forN hd5 fun _ _ he => .warpShow he
  have hd7 : d7.canonical := .forN hd6 fun _ _ he => .ite (.ipGo he) he
  have hd8 : d8.canonical := .forN hd7 fun _ _ he => .onE he
  have hd9 : d9.canonical := .forN hd8 fun _ _ he => .onB he
  exact .ite (.other hd9) (.freeChannels hd9)

theorem Dev.canonical.configureEntry {d : Dev} (h : d.canonical) : d.configureEntry.canonical := by
  unfold Dev.configureEntry
  extract_lets d1 d2 copies d3 d4 d5
  have hd1 : d1.canonical := .forN h fun _ _ he => .coreConfigure he
  have hd2 : d2.canonical := .closeThreads (.freeAllOwn (.endFences hd1))
  have hd3 : d3.canonical := .clearMemories (.forL hd2 fun _ _ he => .complete he)
  have hd5 : d5.canonical := .wr (.wr (.wr (.wr (.wr hd3))))
  exact .other hd5

theorem Dev.canonical.resetBase {d : Dev} {stb : Bool} (h : d.canonical) : (d.resetBase stb).canonical := by
  unfold Dev.resetBase
  extract_lets d1 d2
  have hd1 : d1.canonical := .impForget (.kcHold h)
  clear_value d1
  obtain ⟨-, hdata, herr, hmem⟩ := hd1
  have hd2 : d2.canonical := .of (wf_resetRegs stb d1.regs) (KV.wf_filter _ (fun k => islandBank (k / 0x100000)) hdata)
    (KV.wf_filter _ (fun k => islandBank (k / 0x100000)) herr) hmem
  exact .kcGo hd2

theorem Dev.canonical.straps {d : Dev} {st : Straps} (h : d.canonical) : (d.straps st).canonical := by
  unfold Dev.straps
  extract_lets d1 _
  have hd1 : d1.canonical := .wr (.wr (.wr h))
  exact hd1

theorem Dev.canonical.heldOut {d : Dev} (h : d.canonical) : d.heldOut.canonical := .ite h (.deliverHeld h)

theorem Dev.canonical.releaseHub {d : Dev} (h : d.canonical) : d.releaseHub.canonical := by
  unfold Dev.releaseHub
  extract_lets safe d1 clk d2 d3 d4 d5 d6 d7
  have hd1 : d1.canonical := .kcHold h
  have hd2 : d2.canonical := .kcGo (.other hd1)
  have hd3 : d3.canonical := .forN hd2 fun _ _ he => .ite (.wr he) he
  have hd4 : d4.canonical := .ite hd3 (.icvClock hd3)
  have hd6 : d6.canonical := .wr (.wr (.wr (.wr (.wr hd4))))
  have hd7 : d7.canonical := .configureEntry (.modeGo hd6)
  exact .alertShow (.heldOut (.other hd7))

theorem Dev.canonical.clearLatch {d : Dev} (h : d.canonical) : d.clearLatch.canonical := .ite (.wr (.wr h)) h

theorem Dev.canonical.devReset {d : Dev} {st : Straps} {locked : Bool} (h : d.canonical) : (d.devReset st locked).canonical := by
  unfold Dev.devReset
  extract_lets d1 _ _
  have hd1 : d1.canonical := .clearLatch (.straps (.resetBase (.keepGo h)))
  exact .ite (.releaseHub hd1) (.alertShow hd1)

/-! ### Machine/Sequence -/

theorem Dev.canonical.seqBegin {d : Dev} {st entry : Nat} (h : d.canonical) : (d.seqBegin st entry).canonical := by
  unfold Dev.seqBegin
  extract_lets _ d1 _
  have hd1 : d1.canonical := .wr (.wr h)
  exact hd1

theorem Dev.canonical.rampEnter {d : Dev} (h : d.canonical) : d.rampEnter.canonical :=
  .modeCopy (.seqBegin (.wr (.forN (.modeGo h) fun _ _ he => .onR he)))

theorem Dev.canonical.reqConfigure {d : Dev} {t : Token} (h : d.canonical) : (d.reqConfigure t).1.canonical := by
  unfold Dev.reqConfigure
  extract_lets _ d1
  have hd1 : d1.canonical := h
  exact .ite_fst h (.ite hd1 (.seqBegin (.forN hd1 fun _ _ he => .cancelSpec he)))

theorem Dev.canonical.devModeRequestConfigure {q : Req} {d : Dev} (h : d.canonical) : (devModeRequestConfigure q d).canonical :=
  .runMode h fun _ _ he => .reqConfigure he

theorem Dev.canonical.reqRamp {d : Dev} (h : d.canonical) : (d.reqRamp).1.canonical :=
  .ite_fst (.tabReadAll h) (.ite_fst (.tabReadAll h) (.rampEnter (.tabReadAll h)))

theorem Dev.canonical.devModeRequestRamp {q : Req} {d : Dev} (h : d.canonical) : (devModeRequestRamp q d).canonical :=
  .runMode h fun _ _ he => .reqRamp he

theorem Dev.canonical.reqRun {d : Dev} (h : d.canonical) : (d.reqRun).1.canonical := .ite_fst (.modeCopy (.seqStop (.modeGo h))) h

theorem Dev.canonical.devModeRequestRun {q : Req} {d : Dev} (h : d.canonical) : (devModeRequestRun q d).canonical :=
  .runMode h fun _ _ he => .reqRun he

theorem Dev.canonical.reqSafe {d : Dev} (h : d.canonical) : (d.reqSafe).1.canonical := .ite_fst (.safeEnter h) h

theorem Dev.canonical.devModeRequestSafe {q : Req} {d : Dev} (h : d.canonical) : (devModeRequestSafe q d).canonical :=
  .runMode h fun _ _ he => .reqSafe he

theorem Dev.canonical.reqClearSafe {d : Dev} (h : d.canonical) : (d.reqClearSafe).1.canonical := .ite_fst (.wr h) h

theorem Dev.canonical.devModeRequestClearSafe {q : Req} {d : Dev} (h : d.canonical) : (devModeRequestClearSafe q d).canonical :=
  .runMode h fun _ _ he => .reqClearSafe he

theorem Dev.canonical.seqRead {d : Dev} (h : d.canonical) : d.seqRead.canonical := .ite (.tabRead h) h

theorem Dev.canonical.seqNext {d : Dev} {t : Nat} (h : d.canonical) : (d.seqNext t).canonical := by
  unfold Dev.seqNext
  extract_lets _ _ _ d1
  have hd1 : d1.canonical := .wr h
  exact .ite h hd1

theorem Dev.canonical.seqFail {d : Dev} {t : Nat} (h : d.canonical) : (d.seqFail t).canonical := by
  unfold Dev.seqFail
  extract_lets d1 d2 _
  have hd1 : d1.canonical := .wr h
  have hd2 : d2.canonical := .evt (.wr hd1)
  exact .ite hd2 (.seqNext hd1)

theorem Dev.canonical.seqAct {d : Dev} {op : Nat} {act : Dev → Nat → Dev × Nat} (h : d.canonical) (hact : ∀ e k, e.canonical →
    (act e k).1.canonical) :
    (d.seqAct op act).canonical := by
  unfold Dev.seqAct
  extract_lets d1
  have hd1 : d1.canonical := .seqRead h
  refine .ite hd1 ?_
  split
  · next hr => exact .ite (.seqNext (.fst hr (hact _ _ hd1))) (.seqFail (.fst hr (hact _ _ hd1)))

theorem Dev.canonical.entryReach {d : Dev} {f : Dev → Nat → Dev × Nat} {d' : Dev} {n : Nat}
    (hf : ∀ e k, e.canonical → (f e k).1.canonical) (hd' : d'.canonical) : (d.entryReach f d' n).1.canonical :=
  .ite_fst hd' (hf _ _ hd')

theorem Dev.canonical.devEntryOn {d : Dev} (h : d.canonical) : (devEntryOn d).canonical :=
  .seqAct h fun _ _ he => .entryReach (fun _ _ he => .entOnReq he) he

theorem Dev.canonical.devBranchOn {d : Dev} (h : d.canonical) : (devBranchOn d).canonical :=
  .seqAct h fun _ _ he => .entryReach (fun _ _ he => .brOnReq he) he

theorem Dev.canonical.ownerRail {d : Dev} {r : Nat} {f : Dev → Dev × Nat} (h : d.canonical) (hf : ∀ e, e.canonical → (f e).1.canonical) :
    (d.ownerRail r f).1.canonical :=
  .ite_fst h (.ite_fst (hf _ h) h)

theorem Dev.canonical.devRailOn {d : Dev} (h : d.canonical) : (devRailOn d).canonical :=
  .seqAct h fun _ _ he => .ownerRail he fun _ he1 => .railEnable he1

theorem Dev.canonical.devEntryOff {d : Dev} (h : d.canonical) : (devEntryOff d).canonical :=
  .seqAct h fun _ _ he => .entryReach (fun _ _ he => .entOffReq he) he

theorem Dev.canonical.devBranchOff {d : Dev} (h : d.canonical) : (devBranchOff d).canonical :=
  .seqAct h fun _ _ he => .entryReach (fun _ _ he => .brOffReq he) he

theorem Dev.canonical.devRailOff {d : Dev} (h : d.canonical) : (devRailOff d).canonical :=
  .seqAct h fun _ _ he => .ownerRail he fun _ he1 => .railDisable he1

theorem Dev.canonical.seqOpen {d : Dev} {op : Nat} (h : d.canonical) : (d.seqOpen op).canonical := by
  unfold Dev.seqOpen
  extract_lets d1 _ _
  have hd1 : d1.canonical := .seqRead h
  exact .ite hd1 hd1

theorem Dev.canonical.devDelay {d : Dev} (h : d.canonical) : (devDelay d).canonical := .seqOpen h

theorem Dev.canonical.devSeqDelayExpire {d : Dev} (h : d.canonical) : (devSeqDelayExpire d).canonical := .ite (.seqNext h) h

theorem Dev.canonical.devWaitEntry {d : Dev} (h : d.canonical) : (devWaitEntry d).canonical := .seqOpen h

theorem Dev.canonical.devWaitBranch {d : Dev} (h : d.canonical) : (devWaitBranch d).canonical := .seqOpen h

theorem Dev.canonical.devWaitPg {d : Dev} (h : d.canonical) : (devWaitPg d).canonical := .seqOpen h

theorem Dev.canonical.devWaitRailOff {d : Dev} (h : d.canonical) : (devWaitRailOff d).canonical := .seqOpen h

theorem Dev.canonical.devSeqWaitDone {d : Dev} (h : d.canonical) : (devSeqWaitDone d).canonical := .ite (.seqNext h) h

theorem Dev.canonical.devSeqWaitTimeout {d : Dev} (h : d.canonical) : (devSeqWaitTimeout d).canonical := .ite (.seqFail h) h

theorem Dev.canonical.downEnd {d : Dev} (h : d.canonical) : d.downEnd.canonical := by
  unfold Dev.downEnd
  extract_lets d1 _ d2 d3 d4
  have hd1 : d1.canonical := .completeAll h
  have hd2 : d2.canonical := hd1
  have hd3 : d3.canonical := .forN hd2 fun _ _ he => .railStop he
  have hd4 : d4.canonical := .ite hd3 (.forN (.forN hd3 fun _ _ he => .brOffReq he) fun _ _ he => .entOffOne he)
  exact .modeGo (.evt (.wr hd4))

theorem Dev.canonical.devSeqEnd {d : Dev} (h : d.canonical) : (devSeqEnd d).canonical :=
  .ite h (.ite (.modeCopy (.evt (.wr (.modeGo h)))) (.ite h (.configureEntry (.downEnd h))))

theorem Dev.canonical.holdupEnter {d : Dev} (h : d.canonical) : d.holdupEnter.canonical := by
  unfold Dev.holdupEnter
  extract_lets _ d1 _ d2
  have hd1 : d1.canonical := .modeGo (.modeBack h)
  have hd2 : d2.canonical := hd1
  exact .modeCopy (.ite (.wr hd2) hd2)

theorem Dev.canonical.devHoldupEngage {n : Nat} {d : Dev} (h : d.canonical) : (devHoldupEngage n d).canonical :=
  .ite (.entFirst h) (.ite (.holdupEnter (.entGo (.entFirst h))) (.entGo (.entFirst h)))

theorem Dev.canonical.devHoldupStageShed {k : Nat} {d : Dev} (h : d.canonical) : (devHoldupStageShed k d).canonical := by
  unfold Machine.devHoldupStageShed
  extract_lets v d1 rails
  have hd1 : d1.canonical := h
  exact .ite h (.ite hd1 (.evt (.forL hd1 fun _ _ he => .wrBit (.railStop he))))

theorem Dev.canonical.stageBegin {d : Dev} {k : Nat} (h : d.canonical) : (d.stageBegin k).canonical := by
  unfold Dev.stageBegin
  extract_lets _ d1 _
  have hd1 : d1.canonical := .evt h
  split
  · exact hd1
  · exact h

theorem Dev.canonical.restoreOne {d : Dev} {r : Nat} (h : d.canonical) : (d.restoreOne r).canonical := by
  unfold Dev.restoreOne
  extract_lets d1
  have hd1 : d1.canonical := .wrBit h
  split
  · next hr => exact .ite (.fst hr (.ownerRail hd1 fun _ he => .railEnable he)) (.evt (.fst hr (.ownerRail hd1 fun _ he => .railEnable he)))

theorem Dev.canonical.devRestoreStage {d : Dev} (h : d.canonical) : (devRestoreStage d).canonical := by
  unfold Machine.devRestoreStage
  extract_lets d1 now v
  have hd1 : d1.canonical := .ite (.stageBegin h) h
  refine .ite h ?_
  split
  · exact .restoreOne hd1
  · exact .ite hd1 (.stageBegin hd1)

theorem Dev.canonical.holdupLeave {d : Dev} (h : d.canonical) : d.holdupLeave.canonical := by
  unfold Dev.holdupLeave
  extract_lets _ d1 _ d2 d3 _ d4 _ d5
  have hd1 : d1.canonical := .forN h fun _ _ he => .ite (.ite (.entGo (.entBlocks he)) (.entBlocks he)) he
  have hd2 : d2.canonical := .modeGo hd1
  have hd3 : d3.canonical := .wr hd2
  have hd4 : d4.canonical := .ite (.modeCopy hd3) hd2
  have hd5 : d5.canonical := hd4
  exact .ite (.stageBegin hd5) (.wr (.wr hd5))

theorem Dev.canonical.devHoldupExit {d : Dev} (h : d.canonical) : (devHoldupExit d).canonical := .ite (.holdupLeave h) h

/-! ### Machine/Supplies -/

theorem Dev.canonical.devVstbyRise {d : Dev} (h : d.canonical) : (devVstbyRise d).canonical := by
  unfold Machine.devVstbyRise
  extract_lets d1
  have hd1 : d1.canonical := .fresh h
  exact .ite h (.evt (.wr (.wr hd1)))

theorem Dev.canonical.devVstbyLoss {d : Dev} (h : d.canonical) : (devVstbyLoss d).canonical := by
  unfold Machine.devVstbyLoss
  extract_lets d1
  have hd1 : d1.canonical := .fresh h
  exact .wr hd1

theorem Dev.canonical.standbyEnter {d : Dev} (h : d.canonical) : d.standbyEnter.canonical := by
  unfold Dev.standbyEnter
  extract_lets _ d1 _ d2 d3 d4 _
  have hd1 : d1.canonical := .nextFree h
  have hd2 : d2.canonical := hd1
  have hd3 : d3.canonical := .ite (.keepGo hd2) (.keepChannels (.icvClock hd2))
  have hd4 : d4.canonical := .resetBase hd3
  exact .alertShow (.evt (.wr (.wr (.wr hd4))))

theorem Dev.canonical.devMainSupplyFail {d : Dev} (h : d.canonical) : (devMainSupplyFail d).canonical := .ite h (.ite h (.standbyEnter h))

theorem Dev.canonical.devSuppliesGood {st : Straps} {d : Dev} (h : d.canonical) : (devSuppliesGood st d).canonical := by
  unfold Machine.devSuppliesGood
  extract_lets sb d1 v
  have hd1 : d1.canonical := .straps h
  exact .ite h hd1

theorem Dev.canonical.devRootPllLock {d : Dev} (h : d.canonical) : (devRootPllLock d).canonical := .ite (.releaseHub h) (.ite (.wr h) h)

theorem Dev.canonical.devResetN {st : Straps} {d : Dev} (h : d.canonical) : (devResetN st d).canonical := .ite (.devReset h) h

theorem Dev.canonical.devModeReset {a : Agent} {v : Word} {st : Straps} {d : Dev} (h : d.canonical) : (devModeReset a v st d).canonical :=
  .ite h (.ite (.devReset h) (.wign h))

theorem Dev.canonical.hostDown {d : Dev} (h : d.canonical) : d.hostDown.canonical := by
  unfold Dev.hostDown
  extract_lets d1 d2 flt host d3
  have hd1 : d1.canonical := .forN h fun _ _ he => .rgShed (.onRG (.wr (.wr he)))
  have hd2 : d2.canonical := .dropOuts hd1
  have hd3 : d3.canonical := .host hd2
  exact .raise (.evt hd3)

theorem Dev.canonical.devPePerstN {d : Dev} (h : d.canonical) : (devPePerstN d).canonical := .ite (.hostDown h) h

theorem Dev.canonical.devRefclkReturn {st : Straps} {d : Dev} (h : d.canonical) : (devRefclkReturn st d).canonical :=
  .ite (.devReset h) (.ite (.wr h) h)

theorem Dev.canonical.devModeUnlock {a : Agent} {v : Word} {d : Dev} (h : d.canonical) : (devModeUnlock a v d).canonical := by
  unfold Machine.devModeUnlock
  extract_lets v1 set
  refine .ite h (.ite h (.ite h (.ite ?_ h)))
  split
  · exact .ite (.modeGo h) h
  · exact h

/-! ### Machine/Engine -/

/- `refine id` keeps the place of the descriptor a variable where the kernel checks the cases: it would compute the bank. -/
theorem Dev.canonical.readDesc {d : Dev} {src : Src} {n : Nat} (h : d.canonical) : (d.readDesc src n).1.canonical := by
  unfold Dev.readDesc
  generalize coreBank = place
  revert place
  refine id fun place => ?_
  extract_lets addr
  split
  · split
    · exact h
    · split
      · next hr => exact .fst hr (.readBank h)
      · next hr => exact .fst hr (.readBank h)
  · exact h

theorem Dev.canonical.takeIn {d : Dev} {src : Src} {b : List Byte} (h : d.canonical) : (d.takeIn src b).canonical := by
  unfold Dev.takeIn
  split
  · exact .ite (.endDesc h) (.ite (.runNow h fun _ _ he => he) h)

theorem Dev.canonical.takeDesc {d : Dev} {src : Src} {n : Nat} {b : List Byte} (h : d.canonical) : (d.takeDesc src n b).canonical :=
  .takeIn (.onRG (.onRG h))

theorem Dev.canonical.takeBox {d : Dev} (h : d.canonical) : d.takeBox.canonical := .ite (.takeIn h) h

theorem Dev.canonical.devDescriptorFetch {d : Dev} (h : d.canonical) : (devDescriptorFetch d).canonical := by
  unfold Machine.devDescriptorFetch
  refine .ite h (.ite (.takeBox h) ?_)
  have hread := @Dev.canonical.readDesc
  generalize d.fetchTurn = turn, Dev.readDesc = read at hread ⊢
  revert turn read
  refine id fun turn read hread => ?_
  split
  · exact h
  · extract_lets host d1
    have hd1 : d1.canonical := .host h
    split
    · next hr => exact .takeDesc (.fst hr (hread hd1))
    · next hr => exact .rgHalt (.fst hr (hread hd1))

theorem Dev.canonical.fetchFail {d : Dev} {src : Src} {due : Nat → Bool} (h : d.canonical) : (d.fetchFail src due).canonical := by
  unfold Dev.fetchFail
  split
  · exact h
  · exact .ite (.rgHalt h) h

theorem Dev.canonical.devDescFetchTimeout {r : Src} {d : Dev} (h : d.canonical) : (devDescFetchTimeout r d).canonical := .fetchFail h

theorem Dev.canonical.devDescFetchError {r : Src} {d : Dev} (h : d.canonical) : (devDescFetchError r d).canonical := .fetchFail h

theorem Dev.canonical.fenceNote {d : Dev} {o : Out} (h : d.canonical) : (d.fenceNote o).canonical := by
  unfold Dev.fenceNote
  split <;> exact h

theorem Dev.canonical.retireBox {d : Dev} {o : Out} (h : d.canonical) : (d.retireBox o).canonical := by
  unfold Dev.retireBox
  extract_lets d1 _
  have hd1 : d1.canonical := .popOut h
  exact .ite h hd1

theorem Dev.canonical.irDrained {d : Dev} {c n : Nat} {src : Src} (h : d.canonical) : (d.irDrained c n src).canonical := .ite (.wr h) h

theorem Dev.canonical.devCompletionRetire {r : Src} {d : Dev} (h : d.canonical) : (devCompletionRetire r d).canonical := by
  unfold Machine.devCompletionRetire
  refine .ite h ?_
  split
  · exact h
  · extract_lets d1
    have hd1 : d1.canonical := .ite (.fenceNote h) h
    split
    · exact .retireHost hd1
    · exact .irDrained (.retireCore hd1)
    · exact .retireBox hd1

theorem Dev.canonical.stallDue {d : Dev} {n : Nat} (h : d.canonical) : (d.stallDue n).canonical := .ite (.raise (.onRG h)) h

theorem Dev.canonical.rgEase {d : Dev} {n : Nat} (h : d.canonical) : (d.rgEase n).canonical := .ite (.onRG (.stallDue h)) h

theorem Dev.canonical.rgMore {d : Dev} {e : Nat} (h : d.canonical) : (d.rgMore e).canonical := .ite (.rgWait h) h

theorem Dev.canonical.devEventRecordWrite {e : Nat} {d : Dev} (h : d.canonical) : (devEventRecordWrite e d).canonical := by
  unfold Machine.devEventRecordWrite
  extract_lets n d1
  have hd1 : d1.canonical := .rgEase h
  refine .ite h ?_
  split
  · extract_lets d2
    have hd2 : d2.canonical := .rgMore (.rgPut (.onRG (.rgEase h)))
    exact .ite (.fenceEnds (.markerIn hd2)) hd2
  · exact .rgMore (.rgPut (.onRG (.rgEase h)))
  · exact .ite (.rgMore (.reportLost hd1)) hd1

theorem Dev.canonical.devItrWindowClose {n : Nat} {d : Dev} (h : d.canonical) : (devItrWindowClose n d).canonical := .ite (.itrClose h) h

theorem Dev.canonical.devRingStall {n : Nat} {d : Dev} (h : d.canonical) : (devRingStall n d).canonical := .ite (.stallDue h) h

theorem Dev.canonical.devRingEnable {a : Agent} {n : Nat} {d : Dev} (h : d.canonical) : (devRingEnable a n d).canonical := .ite (.rgEnable h) h

theorem Dev.canonical.devRingDisable {a : Agent} {n : Nat} {d : Dev} (h : d.canonical) : (devRingDisable a n d).canonical := .ite (.rgDisable h) h

theorem Dev.canonical.devRingDrained {r : Fin 64} {d : Dev} (h : d.canonical) : (devRingDrained r d).canonical := .ite (.wr h) h

theorem Dev.canonical.dbDrop {d : Dev} {w : Doorbell} (h : d.canonical) : (d.dbDrop w).canonical := .accessFault (.evt h)

theorem Dev.canonical.produceTo {d e : Dev} {n i : Nat} (h : d.canonical) (he : d.produceTo n i = some e) : e.canonical := by
  unfold Dev.produceTo at he
  split at he
  · cases he
    exact .onRG (.wr h)
  · cases he

theorem Dev.canonical.consumeTo {d e : Dev} {n i : Nat} (h : d.canonical) (he : d.consumeTo n i = some e) : e.canonical := by
  unfold Dev.consumeTo at he
  split at he
  · cases he
    exact .rgEase (.wr h)
  · cases he

theorem Dev.canonical.getD {o : Option Dev} {d : Dev} (ho : ∀ e, o = some e → e.canonical) (h : d.canonical) : (o.getD d).canonical := by
  cases o with
  | none => exact h
  | some e => exact ho e rfl

theorem Dev.canonical.devDoorbellCommand {w : Doorbell} {d : Dev} (h : d.canonical) : (devDoorbellCommand w d).canonical :=
  .ite h (.ite (.getD (fun _ => .produceTo h) (.dbDrop h)) (.dbDrop h))

theorem Dev.canonical.devDoorbellCompletion {w : Doorbell} {d : Dev} (h : d.canonical) : (devDoorbellCompletion w d).canonical :=
  .ite h (.ite (.getD (fun _ => .consumeTo h) (.dbDrop h)) (.dbDrop h))

theorem Dev.canonical.devDoorbellEvent {w : Doorbell} {d : Dev} (h : d.canonical) : (devDoorbellEvent w d).canonical :=
  .ite h (.ite (.getD (fun _ => .consumeTo h) (.dbDrop h)) (.dbDrop h))

theorem Dev.canonical.devDoorbellArchive {w : Doorbell} {d : Dev} (h : d.canonical) : (devDoorbellArchive w d).canonical := by
  unfold Machine.devDoorbellArchive
  extract_lets k back host d1
  have hd1 : d1.canonical := .host h
  exact .ite h (.ite (.archRoom (.setPool hd1)) (.dbDrop h))

theorem Dev.canonical.devDoorbellThread {w : Doorbell} {d : Dev} (h : d.canonical) : (devDoorbellThread w d).canonical :=
  .ite h (.ite (.archRoom (.onT h)) (.dbDrop h))

theorem Dev.canonical.devIrDb {a : Agent} {c : Nat} {v : Word} {d : Dev} (h : d.canonical) : (devIrDb a c v d).canonical := by
  unfold Machine.devIrDb
  refine .ite h ?_
  split
  · next hr => exact .produceTo (.onRG h) hr
  · exact .accessFault (.wign h)

theorem Dev.canonical.devHostLinkDown {d : Dev} (h : d.canonical) : (devHostLinkDown d).canonical := .ite (.nextFree (.wr (.hostDown h))) h

theorem Dev.canonical.devThreadDataFlush {t : Nat} {d : Dev} (h : d.canonical) : (devThreadDataFlush t d).canonical := .ite (.dataOut h) h

theorem Dev.canonical.devRqEntry {e : Entry} {d : Dev} (h : d.canonical) : (devRqEntry e d).canonical := by
  unfold Machine.devRqEntry
  exact .ite h (.forN (.host h) fun _ _ he => .segEntry he)

theorem Dev.canonical.answer {d : Dev} {a w : Nat} (h : d.canonical) : (d.answer a w).canonical := h

theorem Dev.canonical.rqPop {d : Dev} {a s : Nat} (h : d.canonical) : (d.rqPop a s).1.canonical := by
  unfold Dev.rqPop
  split
  · exact .ite_fst (.ite_fst (.tabUse h) (.other (.rqShow (.onQ (.tabUse h))))) h
  · exact h

theorem Dev.canonical.devRqPop {a : Agent} {s : Nat} {d : Dev} (h : d.canonical) : (devRqPop a s d).canonical := by
  unfold Machine.devRqPop
  refine .ite h ?_
  split
  · next hr => exact .answer (.fst hr (.rqPop h))

/-! ### Machine/Stream -/

theorem Dev.canonical.onSl {d : Dev} {f : StreamSt → StreamSt} (h : d.canonical) : (d.onSl f).canonical := h

theorem Dev.canonical.rxAnew {d : Dev} (h : d.canonical) : d.rxAnew.canonical := .onSl h

theorem Dev.canonical.slShow {d : Dev} (h : d.canonical) : d.slShow.canonical := .wr (.wr (.ite h (.rxAnew h)))

theorem Dev.canonical.slTrainOpen {d : Dev} (h : d.canonical) : d.slTrainOpen.canonical := .onSl h

theorem Dev.canonical.setK {d : Dev} {v k : Nat} (h : d.canonical) : (d.setK v k).canonical := .onV (.wr (.kClose h))

theorem Dev.canonical.slGo {d : Dev} {st : Nat} (h : d.canonical) : (d.slGo st).canonical :=
  .slShow (.ite (.evt (.onSl (.slTrainOpen (.wr h)))) (.ite (.evt (.bump (.slTrainOpen (.wr h)))) (.ite (.evt (.onSl (.wr (.forN
      (.wr h) fun _ _ he => .onV (.wr (.wr (.ite he (.setK he)))))))) (.ite (.evt (.wr h)) (.onSl (.wr (.wr h)))))))

theorem Dev.canonical.slAnew {d : Dev} (h : d.canonical) : d.slAnew.canonical := .slShow (.onSl h)

theorem Dev.canonical.slEnable {d : Dev} (h : d.canonical) : d.slEnable.canonical :=
  .ite (.ite h (.slGo h)) (.ite (.slGo h) (.ite (.slShow h) (.slAnew h)))

theorem Dev.canonical.fenceCut {d : Dev} {f : FenceSt} (h : d.canonical) : (d.fenceCut f).canonical := by
  unfold Dev.fenceCut
  extract_lets d1 _
  have hd1 : d1.canonical := .complete h
  exact hd1

theorem Dev.canonical.vcsDown {d : Dev} (h : d.canonical) : d.vcsDown.canonical :=
  .forL (.forN (.forN h fun _ _ he => .fenceOwn he) fun _ _ he => .vcShow (.forL (.onV he) fun _ _ he1 => .blkDrop he1)) fun _ _ he => .fenceCut he

theorem Dev.canonical.slDown {d : Dev} (h : d.canonical) : d.slDown.canonical := .ite (.vcsDown h) (.vcsDown (.slGo h))

theorem Dev.canonical.peerLoss {d : Dev} (h : d.canonical) : d.peerLoss.canonical := .ite (.slGo (.bump (.raise h))) h

theorem Dev.canonical.lanesMoved {d : Dev} (h : d.canonical) : d.lanesMoved.canonical := .ite (.slGo (.peerLoss h)) (.slAnew (.peerLoss h))

theorem Dev.canonical.fenceLane {d : Dev} {n : Nat} (h : d.canonical) : (d.fenceLane n).canonical := by
  unfold Dev.fenceLane
  extract_lets _ d1 d2 d3
  have hd1 : d1.canonical := .evt (.wrBit h)
  have hd2 : d2.canonical := .ite hd1 (.wrBit hd1)
  have hd3 : d3.canonical := .onSl hd2
  exact .ite h (.ite hd3 (.ite (.slDown hd3) (.lanesMoved hd3)))

theorem Dev.canonical.laneFail {d : Dev} {n : Nat} (h : d.canonical) : (d.laneFail n).canonical := .fenceLane (.raiseL h)

theorem Dev.canonical.streamBack {d : Dev} (h : d.canonical) : d.streamBack.canonical := by
  unfold Dev.streamBack
  extract_lets d1
  have hd1 : d1.canonical := .forN h fun _ _ he => .unfenceOwn he
  exact .ite (.ite (.slGo (.wr hd1)) (.slAnew hd1)) (.slAnew h)

theorem Dev.canonical.unfenceLane {d : Dev} {n : Nat} (h : d.canonical) : (d.unfenceLane n).1.canonical :=
  .ite_fst h (.ite_fst (.lanesMoved (.wrBit h)) (.streamBack (.wrBit h)))

theorem Dev.canonical.devStreamLane {n : Nat} {d : Dev} (h : d.canonical) : (devStreamLane n d).canonical :=
  .ite h (.laneFail (.ite h (.onSl (.wr h))))

theorem Dev.canonical.devPeerTrain {pay : List Byte} {d : Dev} (h : d.canonical) : (devPeerTrain pay d).canonical :=
  .ite h (.ite (.slShow (.onSl h)) (.slAnew (.onSl h)))

theorem Dev.canonical.roundEnd {d : Dev} (h : d.canonical) : d.roundEnd.canonical := .ite (.onSl (.onSl h)) (.onSl h)

theorem Dev.canonical.devLinkUp {d : Dev} (h : d.canonical) : (devLinkUp d).canonical := .ite (.slGo h) h

theorem Dev.canonical.devTrainTimeout {d : Dev} (h : d.canonical) : (devTrainTimeout d).canonical := by
  unfold Machine.devTrainTimeout
  extract_lets out d1
  have hd1 : d1.canonical := .forL h fun _ _ he => .laneFail he
  exact .ite h (.ite (.ite hd1 (.slGo hd1)) (.bump (.slGo h)))

theorem Dev.canonical.laneLock {d : Dev} {n : Nat} {v : Bool} (h : d.canonical) : (d.laneLock n v).canonical :=
  .slAnew (.ite (.onSl (.onSl (.wrBit h))) (.onSl (.wrBit h)))

theorem Dev.canonical.laneBad {d : Dev} {n : Nat} (h : d.canonical) : (d.laneBad n).canonical := .ite (.onSl (.onSl h)) (.onSl h)

theorem Dev.canonical.limitIn {d : Dev} {v new : Nat} (h : d.canonical) : (d.limitIn v new).canonical := .ite (.wr h) (.evt h)

theorem Dev.canonical.devPeerCtrl {pay : List Byte} {d : Dev} (h : d.canonical) : (devPeerCtrl pay d).canonical :=
  .ite h (.onSl (.forN h fun _ _ he => .ite (.limitIn he) he))

theorem Dev.canonical.devStreamPeer {d : Dev} (h : d.canonical) : (devStreamPeer d).canonical := .peerLoss h

theorem Dev.canonical.flitIn {d : Dev} {f : List Byte} (h : d.canonical) : (d.flitIn f).canonical :=
  .ite h (.ite (.devPeerCtrl (.onSl h)) (.ite (.devPeerTrain (.onSl h)) (.ite (.bump (.onSl h)) (.onSl h))))

theorem Dev.canonical.rxRound {d : Dev} (h : d.canonical) : d.rxRound.canonical := by
  unfold Dev.rxRound
  split
  · exact h
  · exact .ite h (.forL (.onSl h) fun _ _ he => .flitIn he)

theorem Dev.canonical.rxTake {d : Dev} {n c : Nat} {data : Option (List Byte)} (h : d.canonical) : (d.rxTake n c data).canonical :=
  .forN (.onSl (.ite h (.rxAnew h))) fun _ _ he => .rxRound he

theorem Dev.canonical.cwLock {d : Dev} {n : Nat} {good : Bool} (h : d.canonical) : (d.cwLock n good).canonical :=
  .ite (.ite (.laneLock h) (.onSl h)) (.ite (.laneLock h) (.onSl h))

theorem Dev.canonical.codewordIn {d : Dev} {n : Nat} {m : Codeword} (h : d.canonical) : (d.codewordIn n m).canonical := by
  unfold Dev.codewordIn
  extract_lets d1 d2 _ d3 _ _ d4 d5
  have hd1 : d1.canonical := .bump h
  have hd2 : d2.canonical := .ite (.laneBad (.bump hd1)) hd1
  have hd3 : d3.canonical := .cwLock hd2
  have hd4 : d4.canonical := .ite hd3 (.onSl hd3)
  have hd5 : d5.canonical := .ite (.rxTake hd4) hd4
  exact .ite h (.onSl hd5)

theorem Dev.canonical.devCodewordReceive {n : Nat} {m : Codeword} {d : Dev} (h : d.canonical) : (devCodewordReceive n m d).canonical :=
  .ite h (.codewordIn h)

theorem Dev.canonical.sendRound {d : Dev} {lanes : List Nat} (h : d.canonical) : (d.sendRound lanes).canonical :=
  .ite (.forL (.onSl h) fun _ _ he => .codewordIn he) (.onSl h)

theorem Dev.canonical.flitOut {d : Dev} {f : List Byte} {lanes : Nat} (h : d.canonical) : (d.flitOut f lanes).canonical :=
  .ite (.roundEnd (.onSl (.sendRound (.onSl h)))) (.onSl h)

theorem Dev.canonical.markerSent {d : Dev} {v : Nat} {b : Block} (h : d.canonical) : (d.markerSent v b).canonical := .fenceEnds h

theorem Dev.canonical.dataFlit {d : Dev} {v : Nat} (h : d.canonical) : (d.dataFlit v).canonical := by
  unfold Dev.dataFlit
  extract_lets _ _
  split
  · exact .flitOut (.vcShow (.forL (.onSl (.wr (.onV h))) fun _ _ he => .markerSent he))

theorem Dev.canonical.blockRead {d : Dev} {v : Nat} (h : d.canonical) : (d.blockRead v).canonical := by
  unfold Dev.blockRead
  split
  · exact h
  · exact .ite h (.tabUse h)

theorem Dev.canonical.devFlitSlot {d : Dev} (h : d.canonical) : (devFlitSlot d).canonical := by
  unfold Machine.devFlitSlot
  refine .ite (.ite h (.flitOut h)) (.ite (.ite (.flitOut (.onSl h)) ?_) h)
  split
  · exact .ite (.dataFlit (.blockRead h)) (.flitOut (.blockRead h))
  · exact .flitOut h

theorem Dev.canonical.devBlockFlush {t tag : Nat} {d : Dev} (h : d.canonical) : (devBlockFlush t tag d).canonical := by
  unfold Machine.devBlockFlush
  split
  · exact h
  · exact .ite (.closeBlk h) h

theorem Dev.canonical.devDecimationChange {v : Nat} {d : Dev} (h : d.canonical) : (devDecimationChange v d).canonical := by
  unfold Machine.devDecimationChange
  refine .ite h ?_
  split
  · exact h
  · exact .setK h

/-! ### Machine/Time -/

theorem Dev.canonical.setEpoch {d : Dev} {tick s ns : Nat} (h : d.canonical) : (d.setEpoch tick s ns).canonical :=
  .evEpoch (.evt (.wr (.wr (.wr (.wr (.wr h))))))

theorem Dev.canonical.timeAlign {d : Dev} {x : Desc} {t : Token} (h : d.canonical) : (d.timeAlign x t).1.canonical := by
  unfold Dev.timeAlign
  extract_lets _ _ _ _ _
  refine .ite_fst h (.ite_fst (.ite_fst h (.setEpoch h)) (.ite_fst h ?_))
  split
  · next hr =>
    extract_lets _ d1 _
    have hd1 : d1.canonical := .wr (.wr (.fst hr (.claimIn h)))
    exact .ite_fst (.fst hr (.claimIn h)) hd1

theorem Dev.canonical.devTimeAlign {x : Desc} {d : Dev} (h : d.canonical) : (devTimeAlign x d).canonical := .runDesc h fun _ _ he => .timeAlign he

theorem Dev.canonical.alignExpire {d : Dev} (h : d.canonical) : d.alignExpire.canonical := by
  unfold Dev.alignExpire
  extract_lets _ _ _ d1 _ d2
  have hd1 : d1.canonical := .completeAll h
  have hd2 : d2.canonical := hd1
  refine .ite h ?_
  split
  · exact hd2
  · exact .release hd2

theorem Dev.canonical.devTimeAlignTimeout {d : Dev} (h : d.canonical) : (devTimeAlignTimeout d).canonical := .alignExpire h

theorem Dev.canonical.ppsAccept {d : Dev} {now : Nat} (h : d.canonical) : (d.ppsAccept now).canonical := by
  unfold Dev.ppsAccept
  extract_lets _ d1 d2 _ d3
  have hd1 : d1.canonical := .wri h
  have hd2 : d2.canonical := .wr hd1
  have hd3 : d3.canonical := hd2
  exact .setEpoch hd3

theorem Dev.canonical.alignEdge {d : Dev} (h : d.canonical) : d.alignEdge.canonical := by
  unfold Dev.alignEdge
  extract_lets _ _ _ d1 _ d2 _
  have hd1 : d1.canonical := .forL h fun _ _ he => .complete (.setEpoch he)
  have hd2 : d2.canonical := .wr hd1
  exact .ite h hd2

theorem Dev.canonical.ppsMiss {d : Dev} (h : d.canonical) : d.ppsMiss.canonical := by
  unfold Dev.ppsMiss
  extract_lets d1 _ d2 _ d3
  have hd1 : d1.canonical := .setEpoch h
  have hd2 : d2.canonical := .bump hd1
  have hd3 : d3.canonical := hd2
  exact .ite h (.ite (.evt (.wr hd3)) hd3)

theorem Dev.canonical.ppsAlign {d : Dev} (h : d.canonical) : d.ppsAlign.canonical := by
  unfold Dev.ppsAlign
  extract_lets _ d1 d2 _ _
  have hd1 : d1.canonical := .alignExpire h
  have hd2 : d2.canonical := by
    unfold d2
    split
    · exact hd1
    · exact .wr (.wr hd1)
  exact .ite (.alignEdge hd2) (.ite hd2 (.ite (.ppsAccept hd2) (.evt (.bump hd2))))

theorem Dev.canonical.devPpsEdge {d : Dev} (h : d.canonical) : (devPpsEdge d).canonical :=
  .ite h (.ppsAlign (.forL (.seqSource h) fun _ _ he => .capture he))

theorem Dev.canonical.devPpsWindowMiss {d : Dev} (h : d.canonical) : (devPpsWindowMiss d).canonical := .ppsMiss h

theorem Dev.canonical.devThymeLoRead {a : Agent} {d : Dev} (h : d.canonical) : (devThymeLoRead a d).canonical := .ite h h

theorem Dev.canonical.devThymeBroadcast {die : Nat} {drift : Int} {d : Dev} (h : d.canonical) : (devThymeBroadcast die drift d).canonical :=
  .ite h (.ite h (.ite (.raise h) h))

theorem Dev.canonical.timerSet {d : Dev} {t : Nat} (h : d.canonical) : (d.timerSet t).canonical := h

theorem Dev.canonical.timerNext {d : Dev} {t fire : Nat} (h : d.canonical) : (d.timerNext t fire).canonical := by
  unfold Dev.timerNext
  extract_lets _ _ _ d1 d2 _
  have hd1 : d1.canonical := .ite (.wr h) h
  have hd2 : d2.canonical := .wr hd1
  exact hd2

theorem Dev.canonical.timerOut {d : Dev} {t : Nat} (h : d.canonical) : (d.timerOut t).canonical :=
  .ite (.ite (.seqTrigger h) h) (.ite (.corePend h) h)

theorem Dev.canonical.timerFires {d : Dev} {t : Nat} (h : d.canonical) : (d.timerFires t).canonical := by
  unfold Dev.timerFires
  extract_lets _ _ d1 d2 d3 _ d4
  have hd1 : d1.canonical := .ite (.hwWr h) h
  have hd2 : d2.canonical := .ite (.bump hd1) hd1
  have hd3 : d3.canonical := .hwWr hd2
  have hd4 : d4.canonical := .ite (.timerNext hd3) hd3
  exact .ite h (.timerOut hd4)

theorem Dev.canonical.timerCmpWrite {d : Dev} {t : Nat} (h : d.canonical) : (d.timerCmpWrite t).canonical :=
  .timerSet (.other (.wr (.wr (.timerFires h))))

theorem Dev.canonical.timerCfgWrite {d : Dev} {t : Nat} {old : Word} (h : d.canonical) : (d.timerCfgWrite t old).canonical := by
  unfold Dev.timerCfgWrite
  extract_lets _ d1
  have hd1 : d1.canonical := .setWord (.timerFires (.setWord h))
  exact .ite hd1 (.timerSet hd1)

theorem Dev.canonical.devTimerFire {t : Nat} {d : Dev} (h : d.canonical) : (devTimerFire t d).canonical := .timerFires h

theorem Dev.canonical.devRegionSample {k : Nat} {m : RegionDiff} {d : Dev} (h : d.canonical) : (devRegionSample k m d).canonical := by
  unfold Machine.devRegionSample
  extract_lets sat d1 outs d2 now filt win ok v
  have hd1 : d1.canonical := .wri (.wri (.wri h))
  have hd2 : d2.canonical := .wr hd1
  exact .ite h hd2

theorem Dev.canonical.devRegionFault {k : Nat} {d : Dev} (h : d.canonical) : (devRegionFault k d).canonical :=
  .forN h fun _ _ he => .ite (.raise (.evt he)) he

/-! ### Machine/TwBus -/

theorem Dev.canonical.twHigh {d : Dev} {n : Nat} {stop : Bool} (h : d.canonical) : (d.twHigh n stop).canonical := .onW (.wr h)

theorem Dev.canonical.twApply {d : Dev} {n : Nat} (h : d.canonical) : (d.twApply n).canonical := by
  unfold Dev.twApply
  obtain ⟨hregs, hdata, herr, hmem⟩ := h
  exact .ite ⟨wf_foldl_staged hregs, hdata, herr, hmem⟩ ⟨hregs, hdata, herr, hmem⟩

theorem Dev.canonical.twEnd {d : Dev} {n err : Nat} (h : d.canonical) : (d.twEnd n err).canonical := .onW (.evt (.wr (.wr h)))

theorem Dev.canonical.twAbort {d : Dev} {n err : Nat} (h : d.canonical) : (d.twAbort n err).canonical := .ite (.twEnd h) h

theorem Dev.canonical.twReset {d : Dev} {n : Nat} (h : d.canonical) : (d.twReset n).canonical := .onW (.wr (.wr (.wr h)))

theorem Dev.canonical.twTimedOut {d : Dev} {n : Nat} (h : d.canonical) : (d.twTimedOut n).canonical := .raise (.evt (.bump (.twReset (.twAbort h))))

theorem Dev.canonical.sclFalls {d : Dev} {n t : Nat} (h : d.canonical) : (d.sclFalls n t).canonical := .onW (.ite (.onW (.wr h)) h)

theorem Dev.canonical.sclRises {d : Dev} {n t : Nat} (h : d.canonical) : (d.sclRises n t).canonical := .onW (.ite (.twTimedOut h) h)

theorem Dev.canonical.sdaFalls {d : Dev} {n t : Nat} (h : d.canonical) : (d.sdaFalls n t).canonical := .ite (.onW h) (.onW h)

theorem Dev.canonical.attended {d : Dev} {n : Nat} (h : d.canonical) : (d.attended n).canonical := .ite (.onW (.evt (.bump h))) (.evt (.bump h))

theorem Dev.canonical.sdaRises {d : Dev} {n t : Nat} (h : d.canonical) : (d.sdaRises n t).canonical := .onW (.ite (.attended (.wr h)) (.wr h))

theorem Dev.canonical.heldShow {d : Dev} {n : Nat} (h : d.canonical) : (d.heldShow n).canonical := .evt (.wr h)

theorem Dev.canonical.clearGo {d : Dev} {n t : Nat} (h : d.canonical) : (d.clearGo n t).canonical := .onW (.wr h)

theorem Dev.canonical.linePast {d : Dev} {n t : Nat} (h : d.canonical) : (d.linePast n t).canonical := by
  unfold Dev.linePast
  extract_lets d1 d2
  have hd1 : d1.canonical := .ite (.wr h) h
  have hd2 : d2.canonical := .ite (.heldShow hd1) hd1
  split
  · exact hd2
  · exact .clearGo hd2

theorem Dev.canonical.sclTake {d : Dev} {n t : Nat} (h : d.canonical) : (d.sclTake n t).canonical :=
  .ite (.sclRises (.linePast h)) (.sclFalls (.linePast h))

theorem Dev.canonical.sdaTake {d : Dev} {n t : Nat} (h : d.canonical) : (d.sdaTake n t).canonical :=
  .ite (.sdaRises (.linePast h)) (.sdaFalls (.linePast h))

theorem Dev.canonical.lineNext {d : Dev} {n lim : Nat} (h : d.canonical) : (d.lineNext n lim).canonical := by
  unfold Dev.lineNext
  split
  · exact .ite (.sclTake h) (.sdaTake h)
  · exact .sclTake h
  · exact .sdaTake h
  · exact h

theorem Dev.canonical.twLines {d : Dev} {n lim : Nat} (h : d.canonical) : (d.twLines n lim).canonical :=
  .twApply (.lineNext (.lineNext (.lineNext (.lineNext h))))

theorem Dev.canonical.lineSample {d : Dev} {n : Nat} {sda scl : Bool} (h : d.canonical) : (d.lineSample n sda scl).canonical :=
  .ite h (.twLines (.onW (.twLines h)))

theorem Dev.canonical.fenceTw {d : Dev} {n : Nat} (h : d.canonical) : (d.fenceTw n).canonical := .ite h (.fenceOwn (.wr (.onW (.twAbort h))))

theorem Dev.canonical.unfenceTw {d : Dev} {n : Nat} (h : d.canonical) : (d.unfenceTw n).1.canonical := .ite_fst h (.twReset (.unfenceOwn h))

theorem Dev.canonical.devRoleChange {n : Nat} {d : Dev} (h : d.canonical) : (devRoleChange n d).canonical := by
  unfold Machine.devRoleChange
  extract_lets want was d1 d2 d3
  have hd1 : d1.canonical := .ite (.twAbort h) h
  have hd2 : d2.canonical := .onW (.wr hd1)
  have hd3 : d3.canonical := .ite (.twHigh hd2) hd2
  exact .ite h (.ite hd3 (.wr hd3))

theorem Dev.canonical.devTwTimeout {n : Nat} {d : Dev} (h : d.canonical) : (devTwTimeout n d).canonical :=
  .ite (.twTimedOut (.twLines h)) (.twLines h)

theorem Dev.canonical.devIdleSeen {n : Nat} {d : Dev} (h : d.canonical) : (devIdleSeen n d).canonical := .ite (.wr (.twLines h)) (.twLines h)

theorem Dev.canonical.devSdaFall {n : Nat} {scl : Bool} {d : Dev} (h : d.canonical) : (devSdaFall n scl d).canonical := .lineSample h

theorem Dev.canonical.devAttention {n : Nat} {d : Dev} (h : d.canonical) : (devAttention n d).canonical := .ite (.twLines h) h

theorem Dev.canonical.devSdaRise {n : Nat} {scl : Bool} {d : Dev} (h : d.canonical) : (devSdaRise n scl d).canonical := .lineSample h

theorem Dev.canonical.devBusClear {n : Nat} {d : Dev} (h : d.canonical) : (devBusClear n d).canonical := .ite (.clearGo (.twLines h)) (.twLines h)

theorem Dev.canonical.devBusClearEnd {n pulses : Nat} {sda : Bool} {d : Dev} (h : d.canonical) : (devBusClearEnd n pulses sda d).canonical :=
  .ite h (.ite (.onW (.twHigh (.wr h))) (.ite h (.fenceTw (.raise (.evt (.twAbort h))))))

theorem Dev.canonical.devBusHeld {n : Nat} {d : Dev} (h : d.canonical) : (devBusHeld n d).canonical := .ite (.heldShow (.twLines h)) (.twLines h)

theorem Dev.canonical.devAlertResponseRead {n : Nat} {ans : Option Byte} {d : Dev} (h : d.canonical) : (devAlertResponseRead n ans d).canonical := by
  unfold Machine.devAlertResponseRead
  extract_lets d1
  have hd1 : d1.canonical := .twHigh (.wr (.onW h))
  refine .ite h ?_
  split
  · exact .wr (.wr hd1)
  · exact .bump (.wr hd1)

theorem Dev.canonical.devAttentionSignal {n : Nat} {d : Dev} (h : d.canonical) : (devAttentionSignal n d).canonical :=
  .ite (.onW (.wr (.twLines h))) (.twLines h)

theorem Dev.canonical.devAttentionHoldEnd {n : Nat} {d : Dev} (h : d.canonical) : (devAttentionHoldEnd n d).canonical :=
  .ite (.twLines h) (.onW (.twHigh (.wr (.twLines h))))

theorem Dev.canonical.busOut {d : Dev} {bs : List Byte} {nack : Bool} (h : d.canonical) : (d.busOut bs nack).canonical := h

theorem Dev.canonical.devAlertResponse {n : Nat} {won : Bool} {d : Dev} (h : d.canonical) : (devAlertResponse n won d).canonical :=
  .ite (.ite (.busOut (.wr (.twHigh (.twLines h)))) (.twHigh (.twLines h))) (.twLines h)

theorem Dev.canonical.devTwXctlGo {a : Agent} {n : Nat} {v : Word} {d : Dev} (h : d.canonical) : (devTwXctlGo a n v d).canonical :=
  .ite h (.ite (.accessFault (.wign h)) (.ite (.accessFault (.wign (.twLines h))) (.ite (.setWord (.twLines h)) (.onW (.wr (.wr (.wr (.setWord
      (.twLines h)))))))))

theorem Dev.canonical.devTwAlertReq {_a : Agent} {n : Nat} {d : Dev} (h : d.canonical) : (devTwAlertReq _a n d).canonical := .ite (.wr h) h

theorem Dev.canonical.devTransferStart {n : Nat} {d : Dev} (h : d.canonical) : (devTransferStart n d).canonical :=
  .ite (.onW (.wr (.twLines h))) (.twLines h)

theorem Dev.canonical.xStore {d : Dev} {n : Nat} {bs : List Byte} (h : d.canonical) : (d.xStore n bs).canonical := .forN h fun _ _ he => .wr he

theorem Dev.canonical.xDone {d : Dev} {n acked : Nat} {bs : List Byte} (h : d.canonical) : (d.xDone n acked bs).canonical := .wr (.xStore h)

theorem Dev.canonical.devTransferEnd {n : Nat} {m : BusResult} {d : Dev} (h : d.canonical) : (devTransferEnd n m d).canonical := by
  unfold Machine.devTransferEnd
  refine .ite h ?_
  split
  · extract_lets out d1
    have hd1 : d1.canonical := .onW (.twHigh (.wr h))
    split
    · exact .twEnd (.xDone hd1)
    · exact .twEnd (.wr hd1)
    · exact .ite (.twEnd (.wr hd1)) (.twEnd (.xDone hd1))
    · exact .ite (.twEnd (.evt (.bump (.xDone hd1)))) (.twEnd (.xDone hd1))

theorem Dev.canonical.devArbLost {n : Nat} {addr : Option (BitVec 7)} {d : Dev} (h : d.canonical) : (devArbLost n addr d).canonical := by
  unfold Machine.devArbLost
  extract_lets ara d1 sw d2
  have hd1 : d1.canonical := .onW (.bump h)
  have hd2 : d2.canonical := .ite (.evt (.wr hd1)) (.wr hd1)
  exact .ite h (.ite (.ite (.onW hd2) (.twEnd hd2)) hd2)

/-! ### Machine/Units -/

theorem Dev.canonical.fenceMember {d : Dev} {c i cls idx : Nat} {f : Dev → Dev} (h : d.canonical) (hf : ∀ e, e.canonical → (f e).canonical) :
    (d.fenceMember c i cls idx f).canonical :=
  .ite (hf _ h) (hf _ h)

theorem Dev.canonical.noDomain {d : Dev} {cls idx : Nat} (h : d.canonical) : (d.noDomain cls idx).canonical := h

theorem Dev.canonical.fenceThread {d : Dev} {t : Nat} (h : d.canonical) : (d.fenceThread t).canonical := .ite h (.twr (.onT h))

theorem Dev.canonical.fenceSegment {d : Dev} {c i s : Nat} (h : d.canonical) : (d.fenceSegment c i s).canonical :=
  .forL (.fenceOwn h) fun _ _ he => .fenceMember he fun _ he1 => .fenceThread he1

theorem Dev.canonical.unfenceThread {d : Dev} {t : Nat} (h : d.canonical) : (d.unfenceThread t).1.canonical :=
  .ite_fst h (.ite (.onT (.twr h)) (.unfenceOwn (.onT (.twr h))))

theorem Dev.canonical.linkStops {d : Dev} {l : Nat} (h : d.canonical) : (d.linkStops l).canonical := .ite (.keepGo h) (.ite (.holdPhases h) h)

theorem Dev.canonical.fenceLink {d : Dev} {l : Nat} (h : d.canonical) : (d.fenceLink l).canonical := .ite h (.linkStops h)

theorem Dev.canonical.linkServes {d : Dev} {l : Nat} (h : d.canonical) : (d.linkServes l).canonical :=
  .ite h (.ite (.ite h (.deliverHeld h)) (.servePhases h))

theorem Dev.canonical.unfenceLink {d : Dev} {l : Nat} (h : d.canonical) : (d.unfenceLink l).1.canonical := .ite_fst h (.ite_fst h (.linkServes h))

theorem Dev.canonical.fenceRingsIn {d : Dev} {b : Nat} (h : d.canonical) : (d.fenceRingsIn b).canonical :=
  .forN h fun _ _ he => .ite (.fenceRing he) he

theorem Dev.canonical.dropBlocks {d : Dev} {k : Nat} (h : d.canonical) : (d.dropBlocks k).canonical :=
  .forN h fun _ _ he => .vcShow (.forL (.onV he) fun _ _ he1 => .blkDrop he1)

theorem Dev.canonical.fenceChannels {d : Dev} {b : Nat} (h : d.canonical) : (d.fenceChannels b).canonical :=
  .forN (.forN h fun _ _ he => .ite he (.fenceMember he fun _ he1 => .fenceEntryDomain he1)) fun _ _ he => .ite (.fenceMember he fun _ he1 =>
      .fenceBranchDomain he1) he

theorem Dev.canonical.fenceRails {d : Dev} {b : Nat} {rs : List Nat} (h : d.canonical) : (d.fenceRails b rs).canonical :=
  .forL h fun _ _ he => .ite he (.fenceMember he fun _ he1 => .fenceRail he1)

theorem Dev.canonical.tablesGone {d : Dev} {b : Nat} (h : d.canonical) : (d.tablesGone b).canonical :=
  .ite (.fenceRails (.fenceChannels h)) (.ite (.fenceRails h) (.ite (.forN (.fenceChannels h) fun _ _ he => .fenceOwn he) h))

theorem Dev.canonical.fenceBank {d : Dev} {o b : Nat} (h : d.canonical) : (d.fenceBank o b).canonical := by
  unfold Dev.fenceBank
  extract_lets d1
  have hd1 : d1.canonical := .fenceMember h fun _ he => .setBankOff he
  refine .ite (.fenceMember hd1 fun _ he => .fenceCore he) (.ite (.fenceRingsIn hd1) (.ite (.dropBlocks hd1) (.ite (.fenceSegment (.rqShow
      (.onQ hd1))) (.ite (.forL hd1 fun _ _ he => .fenceMember he fun _ he1 => .fenceThread he1) ?_))))
  split
  · exact hd1
  · exact .ite (.tablesGone hd1) hd1

theorem Dev.canonical.fenceMemory {d : Dev} {b : Nat} (h : d.canonical) : (d.fenceMemory b).canonical := by
  unfold Dev.fenceMemory
  extract_lets _ d1 d2
  have hd1 : d1.canonical := .forN h fun _ _ he => .fenceBank he
  have hd2 : d2.canonical := .forN h fun _ _ he => .fenceBank he
  refine .ite (.forN hd1 fun _ _ he => .fenceMember he fun _ he1 => .fenceCore he1) (.ite (.forN hd2 fun _ _ he => .fenceMember he fun _ he1 =>
      .fenceCore he1) (.ite (.slDown (.fenceBank h)) ?_))
  split
  · exact .fenceBank h
  · exact .fenceBank (.fenceBank h)

theorem Dev.canonical.unfenceBank {d : Dev} {b : Nat} {t : Token} (h : d.canonical) : (d.unfenceBank b t).1.canonical := by
  unfold Dev.unfenceBank
  refine .ite_fst h ?_
  split
  · exact .ite_fst (.ite (.forN (.setBankOff h) fun _ _ he => .unfenceOwn he) (.setBankOff h)) h
  · extract_lets d1 d2
    have hd1 : d1.canonical := .setBankOff h
    have hd2 : d2.canonical := .ite (.unfenceOwn hd1) hd1
    exact .ite (.streamBack hd2) hd2

/-! ### Machine/Selvage -/

theorem Dev.canonical.fenceServed {d : Dev} {c : Nat} (h : d.canonical) : (d.fenceServed c).canonical :=
  .ite (.fencePhase h) (.ite (.fenceRail h) (.ite (.fenceEntryDomain h) (.fenceOwn (.forL h fun _ _ he => .ite (.fenceBranchDomain he) he))))

theorem Dev.canonical.fenceUnit {d : Dev} {cls idx : Nat} {slice : Option Nat} (h : d.canonical) : (d.fenceUnit cls idx slice).1.canonical := by
  unfold Dev.fenceUnit
  split
  · exact .fenceRail h
  · exact .fencePhase h
  · exact .fenceEntryUnit h
  · exact .fenceBranch h
  · split
    · exact .fenceSlice h
    · exact h
  · exact .fencePort h
  · exact .fenceThread h
  · exact .fenceTw h
  · exact .fenceLane h
  · exact .fenceCore h
  · exact .fenceBank h
  · exact .fenceLink h
  · exact .fenceRing h
  · exact h

theorem Dev.canonical.fenceDomain {d : Dev} {cls idx : Nat} (h : d.canonical) : (d.fenceDomain cls idx).1.canonical := by
  unfold Dev.fenceDomain
  split
  · exact .fenceRail h
  · split
    · exact .fenceRail h
    · exact h
  · exact .fenceEntryDomain h
  · exact .fenceBranchDomain h
  · exact .fenceServed h
  · exact .fencePort h
  · exact .fenceSegment (.fenceThread h)
  · exact .fenceTw h
  · exact .slDown (.fenceLane h)
  · exact .fenceCore h
  · exact .fenceMemory h
  · exact .fenceLink h
  · exact .fenceRing h
  · exact h

theorem Dev.canonical.fenceClass {d : Dev} {m : FMsg} {level : Nat} (h : d.canonical) : (d.fenceClass m level).1.canonical := by
  unfold Dev.fenceClass
  split
  · exact h
  · refine .ite_fst h ?_
    split
    · next hr => exact .fst hr (.ite_fst (.fenceUnit h) (.fenceDomain h))

theorem Dev.canonical.safeRecord {d : Dev} {ws : List Nat} (h : d.canonical) : (d.safeRecord ws).canonical :=
  .ite h (.wr (.forN h fun _ _ he => .wr he))

theorem Dev.canonical.mergeClose {d : Dev} {s t : Nat} (h : d.canonical) : (d.mergeClose s t).canonical := by
  unfold Dev.mergeClose
  split
  · exact h
  · exact .ite h (.ite (.onSL h) (.ite (.onSL (.report h)) (.ite (.slotFree h) (.onSL h))))

theorem Dev.canonical.devMergeWindowClose {s : Nat} {d : Dev} (h : d.canonical) : (devMergeWindowClose s d).canonical := .mergeClose h

theorem Dev.canonical.levelSignals {d : Dev} {level : Nat} (h : d.canonical) : (d.levelSignals level).canonical :=
  .forN (.forN h fun _ _ he => .ite (.corePend he) he) fun _ _ he => .ite (.wr he) he

theorem Dev.canonical.react {d : Dev} {m : FMsg} {level : Nat} (h : d.canonical) : (d.react m level).1.canonical := by
  unfold Dev.react
  extract_lets _
  split
  · next hr => exact .ite_fst (.safeEnter (.fst hr (.ite_fst h (.fenceClass h)))) (.fst hr (.ite_fst h (.fenceClass h)))

theorem Dev.canonical.slotScope {d : Dev} {s scope : Nat} (h : d.canonical) : (d.slotScope s scope).canonical := .ite h (.twr (.twr h))

theorem Dev.canonical.occurFirst {d : Dev} {m : FMsg} (h : d.canonical) : (d.occurFirst m).canonical := by
  unfold Dev.occurFirst
  extract_lets _ d1 d2
  have hd1 : d1.canonical := .hwWr (.bump h)
  have hd2 : d2.canonical := .react hd1
  split
  · exact .ite (.safeRecord hd2) hd2
  · split
    · next hr =>
      extract_lets _ d3 d4
      have hd3 : d3.canonical := .onSL (.forN (.tabFresh (.fst hr (.react h))) fun _ _ he => .twr he)
      have hd4 : d4.canonical := .ite (.safeRecord hd3) hd3
      exact .reportAt (.levelSignals hd4)

theorem Dev.canonical.occurMerge {d : Dev} {m : FMsg} {s : Nat} (h : d.canonical) : (d.occurMerge m s).canonical := by
  unfold Dev.occurMerge
  extract_lets d1 _ d2 d3 d4
  have hd1 : d1.canonical := .tabRead h
  have hd2 : d2.canonical := .twr (.tbump hd1)
  have hd3 : d3.canonical := .ite (.twr hd2) hd2
  have hd4 : d4.canonical := .ite hd1 (.ite (.twr hd3) hd3)
  split
  · extract_lets d5
    have hd5 : d5.canonical := .ite (.twr (.twr hd4)) hd4
    split
    · next hr =>
      extract_lets d6
      have hd6 : d6.canonical := .slotScope (.fst hr (.react hd5))
      split
      · next hr1 =>
        extract_lets d7 d8
        have hd7 : d7.canonical := .slotScope (.fst hr1 (.ite_fst (.react hd6) hd6))
        have hd8 : d8.canonical := .ite (.safeRecord hd7) hd7
        refine .ite (.reportAt (.levelSignals hd8)) (.ite hd8 ?_)
        split
        · exact .onSL hd8
        · exact .reportAt hd8

theorem Dev.canonical.latchAlone {d : Dev} {m : FMsg} (h : d.canonical) : (d.latchAlone m).canonical := .ite (.safeRecord (.react h)) (.react h)

theorem Dev.canonical.occurOne {d : Dev} {m : FMsg} (h : d.canonical) : (d.occurOne m).canonical := by
  unfold Dev.occurOne
  extract_lets d1
  have hd1 : d1.canonical := by
    unfold d1
    split
    · exact .mergeClose h
    · exact h
  split
  · exact .occurMerge hd1
  · exact .ite (.latchAlone hd1) (.occurFirst hd1)

theorem Dev.canonical.occur {d : Dev} {m : FMsg} (h : d.canonical) : (d.occur m).canonical := .ite (.occurOne h) (.occurOne (.occurOne h))

theorem Dev.canonical.devFaultOccurrence {d : Dev} (h : d.canonical) : (devFaultOccurrence d).canonical := by
  unfold Machine.devFaultOccurrence
  split
  · exact h
  · exact .ite (.occur h) h

theorem Dev.canonical.hardwired {d : Dev} {kind : Nat} {forced : Bool} (h : d.canonical) : (d.hardwired kind forced).canonical :=
  .safeEnter (.safeRecord h)

theorem Dev.canonical.devLockstep {d : Dev} (h : d.canonical) : (devLockstep d).canonical := .ite (.hardwired h) h

theorem Dev.canonical.devClkRoot {cause : Nat} {d : Dev} (h : d.canonical) : (devClkRoot cause d).canonical := by
  unfold Machine.devClkRoot
  extract_lets d1 d2 d3 v d4
  have hd1 : d1.canonical := .ite (.wr h) h
  have hd2 : d2.canonical := .hardwired (.wr hd1)
  have hd3 : d3.canonical := .kcHold hd2
  have hd4 : d4.canonical := .kcGo hd3
  exact .ite h (.ite (.raise (.wr h)) (.alertShow (.wr hd4)))

theorem Dev.canonical.devLinkLost {l : Nat} {d : Dev} (h : d.canonical) : (devLinkLost l d).canonical := by
  unfold Machine.devLinkLost
  extract_lets d1 v
  have hd1 : d1.canonical := .raise h
  exact .ite h (.fenceLink hd1)

theorem Dev.canonical.devLinkError {l : Nat} {d : Dev} (h : d.canonical) : (devLinkError l d).canonical := .ite (.raise h) h

theorem Dev.canonical.devLinkReturn {l : Nat} {d : Dev} (h : d.canonical) : (devLinkReturn l d).canonical := .ite (.linkServes h) h

theorem Dev.canonical.occurClass {d : Dev} {cls : Nat} (h : d.canonical) : (d.occurClass cls).canonical := by
  unfold Dev.occurClass
  extract_lets _ _ _ d1
  have hd1 : d1.canonical := h
  exact .forL hd1 fun _ _ he => .occur he

theorem Dev.canonical.ackBody {d : Dev} {p : List Byte} (h : d.canonical) : (d.ackBody p).1.canonical := by
  unfold Dev.ackBody
  extract_lets _ d1 d2
  have hd1 : d1.canonical := .ite (.tabRead h) h
  have hd2 : d2.canonical := .ite (.occurClass hd1) hd1
  exact .ite_fst hd2 (.ite_fst hd2 (.ite_fst hd2 (.ite_fst hd2 (.ite_fst hd2 (.slotFree hd2)))))

theorem Dev.canonical.devFaultAck {x : Desc} {d : Dev} (h : d.canonical) : (devFaultAck x d).canonical := by
  unfold Machine.devFaultAck
  refine .runDesc h fun _ _ he => ?_
  split
  · next hr => exact .fst hr (.ackBody he)

theorem Dev.canonical.unfenceUnit {d : Dev} {cls idx : Nat} {t : Token} (h : d.canonical) : (d.unfenceUnit cls idx t).1.canonical := by
  unfold Dev.unfenceUnit
  extract_lets _
  split
  · exact .unfenceRail h
  · exact .unfencePhase h
  · exact .unfenceEntry h
  · exact .unfenceBranch h
  · exact .unfenceConv h
  · exact .unfencePort h
  · exact .unfenceThread h
  · exact .unfenceTw h
  · exact .unfenceLane h
  · exact .unfenceCore h
  · exact .unfenceBank h
  · exact .unfenceLink h
  · exact .unfenceRing h
  · exact h

theorem Dev.canonical.unfenceBody {d : Dev} {x : Desc} {t : Token} (h : d.canonical) : (d.unfenceBody x t).1.canonical := by
  unfold Dev.unfenceBody
  extract_lets _ _
  refine .ite_fst h (.ite_fst h (.ite_fst h (.ite_fst h ?_)))
  split
  · next hr => exact .ite (.noDomain (.fst hr (.unfenceUnit h))) (.fst hr (.unfenceUnit h))

theorem Dev.canonical.devUnfence {x : Desc} {d : Dev} (h : d.canonical) : (devUnfence x d).canonical := .runDesc h fun _ _ he => .unfenceBody he

theorem Dev.canonical.devFltSafeClr {a : Agent} {d : Dev} (h : d.canonical) : (devFltSafeClr a d).canonical :=
  .ite h (.ite (.wign h) (.wr (.forN h fun _ _ he => .wr he)))

/-! ### Machine/Inject -/

theorem Dev.canonical.devFltInjFire {a : Agent} {d : Dev} (h : d.canonical) : (devFltInjFire a d).canonical := by
  unfold Machine.devFltInjFire
  extract_lets t d1 v
  have hd1 : d1.canonical := .wr h
  exact .ite h (.ite (.wign h) (.ite (.wign h) hd1))

theorem Dev.canonical.injMessage {d : Dev} {kind unit : Nat} (h : d.canonical) : (d.injMessage kind unit).canonical := .ite h h

theorem Dev.canonical.injComparator {d : Dev} {kind unit : Nat} (h : d.canonical) : (d.injComparator kind unit).canonical :=
  .ite (.ite (.devEntScTrip h) h) (.ite (.ite (.devBrFastTrip h) h) (.ite (.devPhFuse h) (.ite (.devPhStage h) (.ite (.ovHigh h) (.ite (.cmpLow
      (.catchOn h)) h)))))

theorem Dev.canonical.injMemory {d : Dev} {b : Nat} (h : d.canonical) : (d.injMemory b).canonical := .ite h (.setMask h)

theorem Dev.canonical.devFaultInjection {d : Dev} (h : d.canonical) : (devFaultInjection d).canonical := by
  unfold Machine.devFaultInjection
  split
  · exact h
  · extract_lets d1 v d2 cls path d3 v1
    have hd1 : d1.canonical := .wr h
    have hd2 : d2.canonical := hd1
    have hd3 : d3.canonical := .ite (.injMessage hd2) (.ite (.injComparator hd2) (.ite (.injMemory hd2) (.hardwired hd2)))
    exact .ite h hd3

/-! ### Machine/Memory -/

theorem Dev.canonical.bankInit {d : Dev} {bad : List Nat} {b : Nat} (h : d.canonical) : (d.bankInit bad b).canonical :=
  .ite (.raise (.evt (.setBankOff h))) (.setBankOff h)

theorem Dev.canonical.devScrubVisit {r : Nat} {d : Dev} (h : d.canonical) : (devScrubVisit r d).canonical := by
  unfold Machine.devScrubVisit
  extract_lets bs total k t d1 v d2
  have hd1 : d1.canonical := by
    unfold d1
    split
    · exact h
    · exact .ite h (.readGran h)
  have hd2 : d2.canonical := hd1
  exact .ite h (.ite h (.ite hd1 (.ite (.wr hd2) hd2)))

theorem Dev.canonical.copyBank {d : Dev} {b p : Nat} (h : d.canonical) : (d.copyBank b p).canonical := by
  obtain ⟨hregs, hdata, herr, hmem⟩ := h
  exact ⟨hregs, hdata, KV.wf_foldl _ (KV.wf_filter _ (fun k => decide (k / 0x100000 ≠ b)) herr) _ fun _ _ hr => KV.wf_put _ _ _ hr, hmem⟩

theorem Dev.canonical.devBankCopyDone {b : Nat} {d : Dev} (h : d.canonical) : (devBankCopyDone b d).canonical := by
  unfold Machine.devBankCopyDone
  split
  · exact h
  · extract_lets ts d1 v d2
    have hd1 : d1.canonical := .setBankOff (.copyBank h)
    have hd2 : d2.canonical := hd1
    exact .ite h (.completeAll hd2)

theorem Dev.canonical.devMemTake {a : Agent} {b : Nat} {d : Dev} (h : d.canonical) : (devMemTake a b d).canonical :=
  .ite h (.ite (.wign h) (.ite (.wign h) (.fenceBank h)))

theorem Dev.canonical.rawEnd {d : Dev} {refused : Bool} (h : d.canonical) : (d.rawEnd refused).canonical := .wr (.wr h)

theorem Dev.canonical.devMemRawRead {_a : Agent} {d : Dev} (h : d.canonical) : (devMemRawRead _a d).canonical :=
  .ite h (.ite (.rawEnd h) (.rawEnd (.wr (.wr (.wr (.wr (.wr (.wr (.wr h)))))))))

theorem Dev.canonical.devMemRawWrite {_a : Agent} {d : Dev} (h : d.canonical) : (devMemRawWrite _a d).canonical :=
  .ite h (.ite (.rawEnd h) (.rawEnd (.setMask h)))

/-! ### Machine/RegPath -/

theorem Dev.canonical.readMem {d : Dev} {b o a : Nat} (h : d.canonical) : (d.readMem b o a).1.canonical := by
  unfold Dev.readMem
  split
  · next hr => exact .fst hr (.readBank h)
  · next hr => exact .fst hr (.readBank h)

theorem Dev.canonical.readEffect {d : Dev} {a off : Nat} {r : RegRow} (h : d.canonical) : (d.readEffect a off r).1.canonical := by
  unfold Dev.readEffect
  extract_lets _ _ d1
  have hd1 : d1.canonical := .ite h (.ite h h)
  refine .ite_fst hd1 ?_
  split
  · next hr => exact .fst hr (.rcTake hd1)

theorem Dev.canonical.gapWrite {d : Dev} {n off : Nat} (h : d.canonical) : (d.gapWrite n off).canonical := .accessFault (.nextFree (.wign h))

theorem Dev.canonical.regRead {d : Dev} {a off : Nat} (h : d.canonical) : (d.regRead a off).1.canonical := by
  unfold Dev.regRead
  refine .ite_fst (.accessFault h) (.ite_fst h (.ite_fst (.readMem h) ?_))
  split
  · exact h
  · split
    · exact .readMem h
    · refine .ite_fst ?_ ?_
      · split
        · next hr => exact .fst hr (.rqPop h)
      · split
        · next hr => exact .fst hr (.readEffect h)

theorem Dev.canonical.modeReq {d : Dev} {a : Agent} {code : Nat} (h : d.canonical) : (d.modeReq a code).canonical :=
  .ite (.devModeRequestConfigure h) (.ite (.devModeRequestRamp h) (.ite (.devModeRequestRun h) (.ite (.devModeRequestSafe h) (.ite
      (.devModeRequestClearSafe h) (.complete h)))))

theorem Dev.canonical.devBootCtlGo {a : Agent} {d : Dev} (h : d.canonical) : (devBootCtlGo a d).canonical := by
  unfold Machine.devBootCtlGo
  extract_lets d1 v
  have hd1 : d1.canonical := .wr (.wr h)
  exact .ite h (.ite (.wign h) hd1)

theorem Dev.canonical.reach {d : Dev} {a off : Nat} {f : Dev → Dev} (h : d.canonical) (hf : ∀ e, e.canonical → (f e).canonical) :
    (d.reach a off f).canonical :=
  .ite (hf _ h) (.ite (.wign h) h)

theorem Dev.canonical.devCalStart {a : Agent} {c : Nat} {d : Dev} (h : d.canonical) : (devCalStart a c d).canonical :=
  .reach h fun _ he => .calRequest he

theorem Dev.canonical.devSeqCtlTrig {a : Agent} {k : Nat} {d : Dev} (h : d.canonical) : (devSeqCtlTrig a k d).canonical :=
  .reach h fun _ he => .ite (.seqTrigger he) he

theorem Dev.canonical.devInjReq {a : Agent} {k sel : Nat} {d : Dev} (h : d.canonical) : (devInjReq a k sel d).canonical :=
  .reach h fun _ he => .injRequest he

theorem Dev.canonical.devIpCtlRestore {a : Agent} {n : Nat} {d : Dev} (h : d.canonical) : (devIpCtlRestore a n d).canonical :=
  .reach h fun _ he => .ipRestore he

theorem Dev.canonical.coreCtl {d : Dev} {a c : Nat} {f : Dev → Dev} (h : d.canonical) (hf : ∀ e, e.canonical → (f e).canonical) :
    (d.coreCtl a c f).canonical :=
  .reach h fun _ he => .ite (hf _ he) (.ite (.wign he) he)

theorem Dev.canonical.devCoreCtlHalt {a : Agent} {c : Nat} {d : Dev} (h : d.canonical) : (devCoreCtlHalt a c d).canonical :=
  .coreCtl h fun _ he => .unlessLocked he fun _ he1 => .coreHalt he1

theorem Dev.canonical.devCoreCtlStart {a : Agent} {c : Nat} {d : Dev} (h : d.canonical) : (devCoreCtlStart a c d).canonical :=
  .coreCtl h fun _ he => .ite he (.ite (.ite (.wign he) he) (.coreStart he))

theorem Dev.canonical.devCoreKick {a : Agent} {c : Nat} {v : Word} {d : Dev} (h : d.canonical) : (devCoreKick a c v d).canonical :=
  .reach h fun _ he => .ite (.accessFault (.wign he)) (.ite (.wign he) (.ite (.onK he) he))

theorem Dev.canonical.devCoreSignal {a : Agent} {c : Nat} {d : Dev} (h : d.canonical) : (devCoreSignal a c d).canonical :=
  .reach h fun _ he => .corePend he

theorem Dev.canonical.ringCfg {d : Dev} {a n : Nat} {old w : Word} (h : d.canonical) : (d.ringCfg a n old w).canonical := by
  unfold Dev.ringCfg
  extract_lets _ _ _ d1 d2 d3
  have hd1 : d1.canonical := .setWord h
  have hd2 : d2.canonical := .ite (.wign h) h
  have hd3 : d3.canonical := .ite (.rgEnable hd2) (.rgDisable hd2)
  refine .ite (.ite (.ite (.rgEnable hd1) (.wign h)) hd1) ?_
  split
  · exact .irDrained hd3
  · exact hd3

theorem Dev.canonical.hubEffect {d : Dev} {a : Agent} {off : Nat} {old v : Word} (h : d.canonical) : (d.hubEffect a off old v).canonical := by
  unfold Dev.hubEffect
  extract_lets _ d1 _ _ _ d2 _
  have hd1 : d1.canonical := .ite (.devMemRawWrite h) h
  have hd2 : d2.canonical := h
  exact .ite (.ite (.wr h) h) (.ite (.modeReq h) (.ite (.ite (.devBootCtlGo h) h) (.ite (.devModeUnlock h) (.ite (.devModeReset h) (.ite
      (.devMemTake h) (.ite (.ite (.devMemRawRead hd1) hd1) (.ite (.slEnable h) (.ite (.ite (.timerCfgWrite h) (.ite (.timerCmpWrite h) h)) (.ite
          (.ite h (.ite (.ringSetUp hd2) hd2)) (.ite (.ite (.devFltSafeClr h) h) (.ite (.ite (.devFltInjFire h) h) (.ite (.ite (.ipMode h) (.ite
              (.ipRestore h) h)) (.ite (.ite (.devTwAlertReq h) h) (.ite (.unmaskVec h) h))))))))))))))

theorem Dev.canonical.dieEffect {d : Dev} {a : Agent} {off : Nat} {old v : Word} (h : d.canonical) : (d.dieEffect a off old v).canonical :=
  .ite (.ite (.ite (.devCoreCtlHalt h) (.ite (.devCoreCtlStart h) h)) (.ite (.devCoreKick h) (.ite (.ite (.devCoreSignal (.setWord h))
      (.setWord h)) h))) (.ite (.ite (.calRequest h) h) (.ite (.ite (.wr h) h) (.ite (.wr h) (.ite (.ite (.devSeqCtlTrig h) (.ite
          (.injRequest h) h)) (.ite (.ite (.sageInit h) h) h)))))

theorem Dev.canonical.keepWord {d : Dev} {off : Nat} {w : Word} (h : d.canonical) : (d.keepWord off w).canonical :=
  .ite (.twApply (.stage h)) (.ite (.stage h) (.setWord h))

theorem Dev.canonical.putReg {d : Dev} {a : Agent} {off : Nat} {old v w : Word} (h : d.canonical) : (d.putReg a off old v w).canonical := by
  unfold Dev.putReg
  split
  · exact .ite h (.ringCfg (.swNote h))
  · exact .ite (.devIrDb h) h
  · exact .ite (.hubEffect (.keepWord (.swNote h))) (.dieEffect (.keepWord (.swNote h)))

theorem Dev.canonical.putTable {d : Dev} {a b o : Nat} {w : Word} (h : d.canonical) : (d.putTable a b o w).1.canonical := by
  unfold Dev.putTable
  exact List.foldlRecOn (motive := fun x : Dev × Bool => x.1.canonical) _ _ h fun _ hx _ _ => .writeBank hx

theorem Dev.canonical.writerRead {d : Dev} {a off : Nat} (h : d.canonical) : (d.writerRead a off).canonical := .ite (.readOwn h) (.ite (.readOwn h) h)

theorem Dev.canonical.regWrite {d : Dev} {a : Agent} {off : Nat} {v : Word} (h : d.canonical) : (d.regWrite a off v).1.canonical := by
  unfold Dev.regWrite
  extract_lets _ d1 _
  have hd1 : d1.canonical := .writerRead h
  refine .ite_fst (.gapWrite h) ?_
  split
  · refine .ite_fst (.ite_fst h ?_) h
    split
    · next hr => exact .fst hr (.writeBank h)
    · next hr => exact .fst hr (.writeBank h)
  · extract_lets _
    refine .ite_fst hd1 (.ite_fst (.ite (.accessFault hd1) hd1) (.ite_fst (.wign hd1) (.ite_fst (.accessFault (.wign hd1)) (.ite_fst
        (.devTwXctlGo hd1) (.ite_fst (.wign hd1) (.ite_fst (.wign hd1) ?_))))))
    split
    · extract_lets _ d2
      have hd2 : d2.canonical := .ite hd1 (.ite (.nextFree (.wign hd1)) (.wign hd1))
      split
      · exact .putTable (.swNote hd2)
      · exact .putReg hd2

theorem Dev.canonical.rcOrder {d : Dev} {n off w : Nat} (h : d.canonical) : (d.rcOrder n off w).1.canonical := by
  unfold Dev.rcOrder
  split
  · exact h
  · extract_lets _ _
    refine .ite_fst h ?_
    split
    · exact h
    · extract_lets _ d1
      have hd1 : d1.canonical := .answer h
      exact .ite_fst h hd1

theorem Dev.canonical.busWord {d : Dev} {n off : Nat} (h : d.canonical) : (d.busWord n off).1.canonical := by
  unfold Dev.busWord
  split
  · next hr => exact .rcOrder (.fst hr (.regRead h))
  · next hr => exact .fst hr (.regRead h)
  · next hr => exact .nextFree (.fst hr (.regRead h))

theorem Dev.canonical.busRead {d : Dev} {n off : Nat} {e : List Bool} {k : Nat} (h : d.canonical) : (d.busRead n off e k).1.canonical :=
  .ite_fst (.busWord h) h

theorem Dev.canonical.windowRead {d : Dev} {n off k : Nat} (h : d.canonical) : (d.windowRead n off k).1.canonical := by
  induction k generalizing d off with
  | zero => exact h
  | succ k ih => exact ih (.busWord h)

theorem Dev.canonical.stallOn {d : Dev} {c : Instr} (h : d.canonical) : (d.stallOn c).canonical := h

theorem Dev.canonical.devRegisterReadClear {a : Agent} {p : ReadAt} {d : Dev} (h : d.canonical) : (devRegisterReadClear a p d).canonical := by
  unfold Machine.devRegisterReadClear
  extract_lets n off
  refine .ite h (.ite h (.ite (.stallOn h) (.ite (.answer (.accessFault h)) (.ite ?_ (.ite ?_ ?_)))))
  · split
    · next hr => exact .answer (.fst hr (.windowRead h))
  · split
    · next hr => exact .answer (.fst hr (.busRead h))
  · split
    · next hr =>
      split
      · next hr1 => exact .answer (.fst hr1 (.busRead (.fst hr (.busRead h))))

theorem Dev.canonical.partWrite {d : Dev} {n off : Nat} (h : d.canonical) : (d.partWrite n off).canonical := by
  unfold Dev.partWrite
  extract_lets _ d1 d2
  have hd1 : d1.canonical := .writerRead h
  have hd2 : d2.canonical := .ite hd1 (.wign hd1)
  exact .ite (.gapWrite h) (.ite (.accessFault hd2) hd2)

theorem Dev.canonical.busWrite {d : Dev} {a : Agent} {off : Nat} {v : List Byte} {e : List Bool} {k : Nat} (h : d.canonical) :
    (d.busWrite a off v e k).canonical := by
  unfold Dev.busWrite
  extract_lets _
  refine .ite ?_ (.ite (.partWrite h) h)
  split
  · next hr => exact .ite (.wign (.fst hr (.regWrite h))) (.fst hr (.regWrite h))
  · next hr => exact .fst hr (.regWrite h)

theorem Dev.canonical.windowRun {d : Dev} {n off : Nat} {run : List Byte} (h : d.canonical) : (d.windowRun n off run).canonical := .writeBank h

theorem Dev.canonical.windowWrite {d : Dev} {n off : Nat} {run : List Byte} {l : List (Byte × Bool)} (h : d.canonical) :
    (d.windowWrite n off run l).canonical := by
  induction l generalizing d off run with
  | nil => exact .windowRun h
  | cons x l ih =>
    obtain ⟨b, _ | _⟩ := x
    · exact ih (.windowRun h)
    · exact ih h

theorem Dev.canonical.devRegisterWrite {a : Agent} {off : BitVec 24} {v : List Byte} {e : List Bool} {d : Dev} (h : d.canonical) :
    (devRegisterWrite a off v e d).canonical :=
  .ite h (.ite (.stallOn h) (.ite (.ite (.wign h) (.windowWrite h)) (.ite (.busWrite h) (.ite (.busWrite (.busWrite h)) (.accessFault (.wign h))))))

theorem Dev.canonical.access {d : Dev} {c : Instr} (h : d.canonical) : (d.access c).canonical := by
  unfold Dev.access
  split
  · exact .devRegisterReadClear h
  · exact .devRegisterWrite h
  · exact h

theorem Dev.canonical.unstall {d : Dev} (h : d.canonical) : d.unstall.canonical := Dev.canonical.forL (.banks h) fun _ _ he => .access he

theorem Dev.canonical.devInitDone {bad : List Nat} {d : Dev} (h : d.canonical) : (devInitDone bad d).canonical := by
  unfold Machine.devInitDone
  extract_lets d1 d2 d3 v d4
  have hd1 : d1.canonical := .ite (.wr (.bankInit (.bankInit h))) h
  have hd2 : d2.canonical := .forL hd1 fun _ _ he => .bankInit he
  have hd3 : d3.canonical := .evt (.wr (.wr hd2))
  have hd4 : d4.canonical := .unstall hd3
  exact .ite (.unstall hd1) (.ite (.calAllGo hd4) hd4)

theorem Dev.canonical.devHeartbeat {d : Dev} (h : d.canonical) : (devHeartbeat d).canonical := by
  unfold Machine.devHeartbeat
  extract_lets d1 t v
  have hd1 : d1.canonical := .sbWr (.sbWr (.sbWr h))
  exact .ite hd1 h

/-! ### Machine/Operands -/

/-! ## Parts of an instruction (15_mograthes_cores.md R406) -/

/-- A part of an instruction that leaves the working state in canonical form. -/
def Act.Keeps {α : Type} (m : Act α) : Prop := ∀ d : Dev, d.canonical → ∀ a e, m d = .ok (a, e) → e.canonical

section
variable {α β : Type}

theorem Act.Keeps.pure {a : α} : Act.Keeps (pure a) := by
  rintro d h _ _ ⟨⟩
  exact h

theorem Act.Keeps.bind {m : Act α} {f : α → Act β} (hm : Act.Keeps m) (hf : ∀ a, Act.Keeps (f a)) : Act.Keeps (m >>= f) := by
  intro d h b e hb
  cases hmd : m d with
  | error s =>
    have hstop : (m >>= f) d = .error s := by simp [Bind.bind, StateT.bind, hmd, Except.bind]
    rw [hstop] at hb
    cases hb
  | ok r =>
    obtain ⟨a, w⟩ := r
    have hgo : (m >>= f) d = f a w := by simp [Bind.bind, StateT.bind, hmd, Except.bind]
    exact hf a w (hm d h a w hmd) b e (hgo ▸ hb)

theorem Act.Keeps.ite {p : Prop} [Decidable p] {m n : Act α} (hm : Act.Keeps m) (hn : Act.Keeps n) : Act.Keeps (if p then m else n) := by
  split
  · exact hm
  · exact hn

theorem Act.Keeps.stop {cause access addr : Nat} {p : Probe} : Act.Keeps (stop (α := α) cause access addr p) := by
  rintro d h _ _ ⟨⟩

theorem Act.Keeps.look {f : Dev → α} : Act.Keeps (look f) := by
  rintro d h _ _ ⟨⟩
  exact h

theorem Act.Keeps.change {f : Dev → Dev} (hf : ∀ e, e.canonical → (f e).canonical) : Act.Keeps (change f) := by
  rintro d h _ _ ⟨⟩
  exact hf d h

end

theorem Dev.canonical.slotFill {d : Dev} {c k : Nat} (h : d.canonical) : (d.slotFill c k).canonical := by
  unfold Dev.slotFill
  extract_lets _
  refine .ite ?_ h
  split
  · next hr => exact .onK (.fst hr (.readGran h))

theorem Dev.canonical.refill {d : Dev} {c : Nat} (h : d.canonical) : (d.refill c).canonical :=
  .ite (.forN (.onK h) fun _ _ he => .slotFill he) (.onK h)

theorem Dev.canonical.slotPut {d : Dev} {c addr n v : Nat} (h : d.canonical) : (d.slotPut c addr n v).canonical := by
  unfold Dev.slotPut
  split
  · exact h
  · exact .onK h

theorem Act.Keeps.loadReg {c addr off n : Nat} : Act.Keeps (loadReg c addr off n) := by
  intro d h a e he
  unfold Machine.loadReg at he
  split at he
  · cases he
  · cases he
  next w lo hlo =>
    have hw : w.canonical := .fst hlo (.regRead h)
    split at he
    · cases he
      exact hw
    · split at he
      · cases he
        exact hw
      · split at he
        · cases he
        · cases he
        next hhi =>
          cases he
          exact .fst hhi (.regRead hw)

theorem Act.Keeps.loadMem {c addr b o n : Nat} : Act.Keeps (loadMem c addr b o n) := by
  intro d h a e he
  unfold Machine.loadMem at he
  extract_lets held at he
  clear_value held
  split at he
  · cases he
    exact h
  · split at he
    · next hr =>
      cases he
      exact .fst hr (.readBank h)
    · cases he

theorem Act.Keeps.loadHost {c addr n : Nat} : Act.Keeps (loadHost c addr n) := by
  intro d h a e he
  unfold Machine.loadHost at he
  split at he
  · cases he
    exact h
  · cases he

theorem Act.Keeps.load {c addr n : Nat} : Act.Keeps (load c addr n) := by
  unfold Machine.load
  refine .ite .stop ?_
  split
  · exact .stop
  · exact .loadReg
  · exact .loadHost
  · exact .bind .look fun _ => .ite .stop .loadMem

theorem Act.Keeps.storeCheck {c addr n : Nat} : Act.Keeps (storeCheck c addr n) := by
  unfold Machine.storeCheck
  split
  · exact .ite .stop .stop
  · refine .ite .stop (.ite .stop ?_)
    split
    · exact .pure
    · exact .bind .look fun _ => .ite .stop .pure
    · exact .bind .look fun _ => .ite .stop (.bind .look fun _ => .ite .pure .stop)

theorem Act.Keeps.storeReg {c addr off n v : Nat} : Act.Keeps (storeReg c addr off n v) := by
  intro d h a e he
  unfold Machine.storeReg at he
  extract_lets agent at he
  split at he
  · cases he
    exact .partWrite h
  · split at he
    · cases he
    · cases he
    · next hlo =>
      have hw := Dev.canonical.fst hlo (.regWrite h)
      split at he
      · cases he
        exact hw
      · split at he
        · cases he
        · cases he
        · next hhi =>
          cases he
          exact .fst hhi (.regWrite hw)

theorem Act.Keeps.store {c addr n v : Nat} : Act.Keeps (store c addr n v) := by
  unfold Machine.store
  split
  · exact .pure
  · exact .storeReg
  · exact .change fun _ h => .hWr h
  · exact .change fun _ h => .slotPut (.writeBank h)

theorem Act.Keeps.fetchBytes {c pc a n : Nat} : Act.Keeps (fetchBytes c pc a n) := by
  intro d h v e he
  unfold Machine.fetchBytes at he
  split at he
  · cases he
  · split at he
    · next hr =>
      cases he
      exact .fst hr (.readBank h)
    · cases he

theorem Act.Keeps.fetchSpecs {c pc n a : Nat} : Act.Keeps (fetchSpecs c pc n a) := by
  induction n generalizing a with
  | zero => exact .pure
  | succ n ih => exact .bind .fetchBytes fun _ => .bind .fetchBytes fun _ => .bind ih fun _ => .pure

theorem Act.Keeps.fetchInsn {c pc : Nat} : Act.Keeps (fetchInsn c pc) := by
  unfold Machine.fetchInsn
  refine .bind .fetchBytes fun w => ?_
  split
  · exact .stop
  · exact .bind .fetchSpecs fun _ => .ite .stop .pure

theorem Act.Keeps.slotVal {c k n : Nat} : Act.Keeps (slotVal c k n) := .bind .look fun _ => .load

theorem Act.Keeps.ptrPut {c k p : Nat} : Act.Keeps (ptrPut c k p) := .bind .look fun _ => .bind .storeCheck fun _ => .store

theorem Act.Keeps.circular {c f n : Nat} {step : Int} {access : Nat} : Act.Keeps (circular c f n step access) :=
  .bind .slotVal fun _ => .bind .slotVal fun _ => .ite .stop (.bind .ptrPut fun _ => .pure)

theorem Act.Keeps.reversed {c f n access : Nat} : Act.Keeps (reversed c f n access) := by
  refine .bind .slotVal fun _ => .bind .slotVal fun _ => ?_
  extract_lets base len
  split
  · exact .stop
  · exact .ite (.bind .ptrPut fun _ => .pure)
      (.bind .look fun _ => .bind (.change fun _ h => .nextFree h) fun _ => .bind .ptrPut fun _ => .pure)

theorem Act.Keeps.place {c next : Nat} {p : Spec} {n access : Nat} : Act.Keeps (place c next p n access) := by
  unfold Machine.place
  split
  · exact .bind .look fun _ => .pure
  · exact .bind .look fun _ => .pure
  · exact .pure
  · exact .pure
  · exact .pure
  · exact .pure
  · exact .pure
  · exact .pure
  · exact .bind .slotVal fun _ => .pure
  · exact .bind .slotVal fun _ => .pure
  · exact .bind .slotVal fun _ => .bind .ptrPut fun _ => .pure
  · exact .bind .slotVal fun _ => .bind .ptrPut fun _ => .pure
  · exact .bind .circular fun _ => .pure
  · exact .bind .slotVal fun _ => .bind .slotVal fun _ => .pure
  · exact .bind .reversed fun _ => .pure

theorem Dev.canonical.putSpecial {d : Dev} {c k v : Nat} (h : d.canonical) : (d.putSpecial c k v).canonical := by
  unfold Dev.putSpecial
  split
  · exact h
  · exact .refill (.onK h)
  · exact .onK h
  · exact .onK h
  · exact .onK h

theorem Act.Keeps.readPlace {c ty : Nat} {l : Place} : Act.Keeps (readPlace c ty l) := by
  obtain v | a | k := l
  · exact .pure
  · exact .load
  · exact .look

theorem Act.Keeps.checkPlace {c ty : Nat} {l : Place} : Act.Keeps (checkPlace c ty l) := by
  obtain v | a | k := l
  · exact .pure
  · exact .storeCheck
  · exact .pure

theorem Act.Keeps.putPlace {c ty v : Nat} {l : Place} : Act.Keeps (putPlace c ty v l) := by
  obtain x | a | k := l
  · exact .pure
  · exact .store
  · exact .change fun _ h => .putSpecial h

theorem Act.Keeps.source {c : Nat} {i : Insn} {ty : Nat} {p : Spec} : Act.Keeps (source c i ty p) :=
  .bind .place fun _ => .bind .readPlace fun _ => .pure

theorem Act.Keeps.target {c : Nat} {i : Insn} {ty : Nat} {p : Spec} : Act.Keeps (target c i ty p) :=
  .bind .place fun _ => .bind .checkPlace fun _ => .pure

theorem Act.Keeps.updated {c : Nat} {i : Insn} {ty : Nat} {p : Spec} : Act.Keeps (updated c i ty p) :=
  .bind .place fun _ => .bind .readPlace fun _ => .bind .checkPlace fun _ => .pure

theorem Act.Keeps.result {c ty : Nat} {l : Place} {v : Int} : Act.Keeps (result c ty l v) := .putPlace

theorem Act.Keeps.branchTo {c : Nat} {i : Insn} {p : Spec} : Act.Keeps (branchTo c i p) := by
  refine .bind .place fun l => ?_
  obtain v | a | k := l
  · exact .pure
  · exact .pure
  · exact .look

/-! ### Machine/Insn -/

theorem Dev.canonical.probe {d : Dev} {c : Nat} {x2 : Probe} (h : d.canonical) : (d.probe c x2).canonical := by
  unfold Dev.probe
  split
  · exact h
  · split
    · next hr => exact .fst hr (.readBank h)
    · next hr => exact h
  · split
    · next hr => exact .fst hr (.writeBank h)
    · next hr => exact h
  · split
    · next hr => exact .fst hr (.regRead h)
    · exact h
  · split
    · next hr => exact .fst hr (.regWrite h)
    · exact h

theorem Dev.canonical.excRecord {d : Dev} {c cause access addr : Nat} (h : d.canonical) : (d.excRecord c cause access addr).canonical :=
  .wr (.wr (.wr (.bump (.wr h))))

theorem Dev.canonical.exception {d : Dev} {c cause access addr aspace rec : Nat} (h : d.canonical) :
    (d.exception c cause access addr aspace rec).canonical :=
  .ite (.fenceCore (.raiseAt (.excRecord (.onK h)))) (.raiseAt (.onK (.evt (.excRecord (.onK h)))))

theorem Dev.canonical.stopped {d : Dev} {c : Nat} {x2 : Stop} (h : d.canonical) : (d.stopped c x2).canonical := by
  unfold Dev.stopped
  split
  · exact .exception (.probe h)
  · exact .onK (.coreGo h)

theorem Dev.canonical.fallTo {d : Dev} {c next : Nat} (h : d.canonical) : (d.fallTo c next).canonical := .onK h

theorem Dev.canonical.retire {d : Dev} {c next : Nat} {n : Next} (h : d.canonical) : (d.retire c next n).canonical := by
  unfold Dev.retire
  refine .ite h ?_
  split
  · exact .fallTo h
  · exact .onK h
  · exact h

theorem Dev.canonical.insnBody {d : Dev} {c : Nat} {i : Insn} {body : Insn → Act Next} (hbody : ∀ i, Act.Keeps (body i)) (h : d.canonical) :
    (d.insnBody c i body).canonical := by
  unfold Dev.insnBody
  refine .ite ?_ (.fallTo h)
  split
  · next hr => exact .retire (hbody i d h _ _ hr)
  · exact .stopped h

theorem Dev.canonical.insn {d : Dev} {c op : Nat} {body : Insn → Act Next} (hbody : ∀ i, Act.Keeps (body i)) (h : d.canonical) :
    (d.insn c op body).canonical := by
  unfold Dev.insn
  refine .ite h (.ite (.lockup h) ?_)
  split
  · exact .stopped h
  · next hr => exact .ite (.insnBody hbody (Act.Keeps.fetchInsn d h _ _ hr)) h

theorem Act.Keeps.putFlags {c : Nat} {r : Alu} : Act.Keeps (putFlags c r) := .change fun _ h => .onK h

theorem Act.Keeps.noShape : Act.Keeps noShape := .pure

theorem Act.Keeps.finish {c ty : Nat} {l : Place} {r : Alu} : Act.Keeps (finish c ty l r) :=
  .bind .putFlags fun _ => .bind .result fun _ => .pure

theorem Act.Keeps.unary {c : Nat} {i : Insn} {td ts : Nat} {f : Nat → Alu} : Act.Keeps (unary c i td ts f) := by
  unfold Machine.unary
  split
  · exact .bind .target fun _ => .bind .source fun _ => .finish
  · exact .bind .updated fun _ => .finish
  · exact .noShape

theorem Act.Keeps.binary {c : Nat} {i : Insn} {f : Nat → Nat → Alu} : Act.Keeps (binary c i f) := by
  unfold Machine.binary
  split
  · exact .bind .updated fun _ => .bind .source fun _ => .finish
  · exact .bind .target fun _ => .bind .source fun _ => .bind .source fun _ => .finish
  · exact .noShape

theorem Act.Keeps.ternary {c : Nat} {i : Insn} {td : Nat} {f : Nat → Nat → Nat → Alu} : Act.Keeps (ternary c i td f) := by
  unfold Machine.ternary
  split
  · exact .bind .updated fun _ => .bind .source fun _ => .bind .source fun _ => .finish
  · exact .noShape

theorem Act.Keeps.compare {c : Nat} {i : Insn} {f : Nat → Nat → Alu} : Act.Keeps (compare c i f) := by
  unfold Machine.compare
  split
  · exact .bind .source fun _ => .bind .source fun _ => .bind .putFlags fun _ => .pure
  · exact .noShape

theorem Dev.canonical.edgesClear {d : Dev} {c v : Nat} (h : d.canonical) : (d.edgesClear c v).canonical := .wr h

theorem Act.Keeps.waitPut {c : Nat} {l : Place} {v : Nat} : Act.Keeps (waitPut c l v) :=
  .bind .putPlace fun _ => .change fun _ h => .edgesClear h

theorem Act.Keeps.waited {c : Nat} {w : WaitSt} {v : Nat} :
    Act.Keeps (do Machine.checkPlace c 1 (.at w.dest); Machine.waitPut c (.at w.dest) v) :=
  .bind .checkPlace fun _ => .waitPut

theorem Dev.canonical.waitEnd {d : Dev} {c : Nat} {w : WaitSt} {v : Nat} (h : d.canonical) : (d.waitEnd c w v).canonical := by
  unfold Dev.waitEnd
  extract_lets d1 act
  have hd1 : d1.canonical := .coreGo h
  split
  · next hr => exact .retire (Act.Keeps.waited d1 hd1 _ _ hr)
  · exact .stopped hd1

/-! ### Machine/Arith -/

theorem Act.Keeps.bodyMov {c : Nat} {i : Insn} : Act.Keeps (bodyMov c i) := by
  unfold Machine.bodyMov
  split
  · exact .bind .target fun _ => .bind .place fun _ => .bind .readPlace fun _ =>
      .ite (.bind .putFlags fun _ => .bind .putPlace fun _ => .pure) .finish
  · exact .noShape

theorem Dev.canonical.devMov {c : Nat} {d : Dev} (h : d.canonical) : (devMov c d).canonical := .insn (fun _ => .bodyMov) h

theorem Act.Keeps.bodyInsnNop {c : Nat} {i : Insn} : Act.Keeps (bodyInsnNop c i) := .pure

theorem Dev.canonical.devInsnNop {c : Nat} {d : Dev} (h : d.canonical) : (devInsnNop c d).canonical := .insn (fun _ => .bodyInsnNop) h

theorem Act.Keeps.bodyWid {c : Nat} {i : Insn} : Act.Keeps (bodyWid c i) := .unary

theorem Dev.canonical.devWid {c : Nat} {d : Dev} (h : d.canonical) : (devWid c d).canonical := .insn (fun _ => .bodyWid) h

theorem Act.Keeps.bodySxt {c : Nat} {i : Insn} : Act.Keeps (bodySxt c i) := .unary

theorem Dev.canonical.devSxt {c : Nat} {d : Dev} (h : d.canonical) : (devSxt c d).canonical := .insn (fun _ => .bodySxt) h

theorem Act.Keeps.bodyZxt {c : Nat} {i : Insn} : Act.Keeps (bodyZxt c i) := .unary

theorem Dev.canonical.devZxt {c : Nat} {d : Dev} (h : d.canonical) : (devZxt c d).canonical := .insn (fun _ => .bodyZxt) h

theorem Act.Keeps.bodyAdd {c : Nat} {i : Insn} : Act.Keeps (bodyAdd c i) := .binary

theorem Dev.canonical.devAdd {c : Nat} {d : Dev} (h : d.canonical) : (devAdd c d).canonical := .insn (fun _ => .bodyAdd) h

theorem Act.Keeps.bodySub {c : Nat} {i : Insn} : Act.Keeps (bodySub c i) := .binary

theorem Dev.canonical.devSub {c : Nat} {d : Dev} (h : d.canonical) : (devSub c d).canonical := .insn (fun _ => .bodySub) h

theorem Act.Keeps.bodyMul {c : Nat} {i : Insn} : Act.Keeps (bodyMul c i) := .binary

theorem Dev.canonical.devMul {c : Nat} {d : Dev} (h : d.canonical) : (devMul c d).canonical := .insn (fun _ => .bodyMul) h

theorem Act.Keeps.bodyImul {c : Nat} {i : Insn} : Act.Keeps (bodyImul c i) := .binary

theorem Dev.canonical.devImul {c : Nat} {d : Dev} (h : d.canonical) : (devImul c d).canonical := .insn (fun _ => .bodyImul) h

theorem Act.Keeps.bodyMac {c : Nat} {i : Insn} : Act.Keeps (bodyMac c i) := .ternary

theorem Dev.canonical.devMac {c : Nat} {d : Dev} (h : d.canonical) : (devMac c d).canonical := .insn (fun _ => .bodyMac) h

theorem Act.Keeps.bodyMsu {c : Nat} {i : Insn} : Act.Keeps (bodyMsu c i) := .ternary

theorem Dev.canonical.devMsu {c : Nat} {d : Dev} (h : d.canonical) : (devMsu c d).canonical := .insn (fun _ => .bodyMsu) h

theorem Act.Keeps.bodySat {c : Nat} {i : Insn} : Act.Keeps (bodySat c i) := .unary

theorem Dev.canonical.devSat {c : Nat} {d : Dev} (h : d.canonical) : (devSat c d).canonical := .insn (fun _ => .bodySat) h

theorem Act.Keeps.bodyAbs {c : Nat} {i : Insn} : Act.Keeps (bodyAbs c i) := .unary

theorem Dev.canonical.devAbs {c : Nat} {d : Dev} (h : d.canonical) : (devAbs c d).canonical := .insn (fun _ => .bodyAbs) h

theorem Act.Keeps.bodyNeg {c : Nat} {i : Insn} : Act.Keeps (bodyNeg c i) := .unary

theorem Dev.canonical.devNeg {c : Nat} {d : Dev} (h : d.canonical) : (devNeg c d).canonical := .insn (fun _ => .bodyNeg) h

theorem Act.Keeps.bodyAsl {c : Nat} {i : Insn} : Act.Keeps (bodyAsl c i) := .binary

theorem Dev.canonical.devAsl {c : Nat} {d : Dev} (h : d.canonical) : (devAsl c d).canonical := .insn (fun _ => .bodyAsl) h

theorem Act.Keeps.bodyAsr {c : Nat} {i : Insn} : Act.Keeps (bodyAsr c i) := .binary

theorem Dev.canonical.devAsr {c : Nat} {d : Dev} (h : d.canonical) : (devAsr c d).canonical := .insn (fun _ => .bodyAsr) h

theorem Act.Keeps.bodyLsr {c : Nat} {i : Insn} : Act.Keeps (bodyLsr c i) := .binary

theorem Dev.canonical.devLsr {c : Nat} {d : Dev} (h : d.canonical) : (devLsr c d).canonical := .insn (fun _ => .bodyLsr) h

theorem Act.Keeps.bodyMin {c : Nat} {i : Insn} : Act.Keeps (bodyMin c i) := .binary

theorem Dev.canonical.devMin {c : Nat} {d : Dev} (h : d.canonical) : (devMin c d).canonical := .insn (fun _ => .bodyMin) h

theorem Act.Keeps.bodyMax {c : Nat} {i : Insn} : Act.Keeps (bodyMax c i) := .binary

theorem Dev.canonical.devMax {c : Nat} {d : Dev} (h : d.canonical) : (devMax c d).canonical := .insn (fun _ => .bodyMax) h

theorem Act.Keeps.bodyLim {c : Nat} {i : Insn} : Act.Keeps (bodyLim c i) := .ternary

theorem Dev.canonical.devLim {c : Nat} {d : Dev} (h : d.canonical) : (devLim c d).canonical := .insn (fun _ => .bodyLim) h

theorem Act.Keeps.bodyCmp {c : Nat} {i : Insn} : Act.Keeps (bodyCmp c i) := .compare

theorem Dev.canonical.devCmp {c : Nat} {d : Dev} (h : d.canonical) : (devCmp c d).canonical := .insn (fun _ => .bodyCmp) h

theorem Act.Keeps.bodyTst {c : Nat} {i : Insn} : Act.Keeps (bodyTst c i) := .compare

theorem Dev.canonical.devTst {c : Nat} {d : Dev} (h : d.canonical) : (devTst c d).canonical := .insn (fun _ => .bodyTst) h

theorem Act.Keeps.bodyAnd {c : Nat} {i : Insn} : Act.Keeps (bodyAnd c i) := .binary

theorem Dev.canonical.devAnd {c : Nat} {d : Dev} (h : d.canonical) : (devAnd c d).canonical := .insn (fun _ => .bodyAnd) h

theorem Act.Keeps.bodyOr {c : Nat} {i : Insn} : Act.Keeps (bodyOr c i) := .binary

theorem Dev.canonical.devOr {c : Nat} {d : Dev} (h : d.canonical) : (devOr c d).canonical := .insn (fun _ => .bodyOr) h

theorem Act.Keeps.bodyXor {c : Nat} {i : Insn} : Act.Keeps (bodyXor c i) := .binary

theorem Dev.canonical.devXor {c : Nat} {d : Dev} (h : d.canonical) : (devXor c d).canonical := .insn (fun _ => .bodyXor) h

theorem Act.Keeps.bodyNot {c : Nat} {i : Insn} : Act.Keeps (bodyNot c i) := .unary

theorem Dev.canonical.devNot {c : Nat} {d : Dev} (h : d.canonical) : (devNot c d).canonical := .insn (fun _ => .bodyNot) h

theorem Act.Keeps.bodyBset {c : Nat} {i : Insn} : Act.Keeps (bodyBset c i) := .binary

theorem Dev.canonical.devBset {c : Nat} {d : Dev} (h : d.canonical) : (devBset c d).canonical := .insn (fun _ => .bodyBset) h

theorem Act.Keeps.bodyBclr {c : Nat} {i : Insn} : Act.Keeps (bodyBclr c i) := .binary

theorem Dev.canonical.devBclr {c : Nat} {d : Dev} (h : d.canonical) : (devBclr c d).canonical := .insn (fun _ => .bodyBclr) h

theorem Act.Keeps.bodyBtst {c : Nat} {i : Insn} : Act.Keeps (bodyBtst c i) := .compare

theorem Dev.canonical.devBtst {c : Nat} {d : Dev} (h : d.canonical) : (devBtst c d).canonical := .insn (fun _ => .bodyBtst) h

theorem Act.Keeps.bodyDivs {c : Nat} {i : Insn} : Act.Keeps (bodyDivs c i) := .binary

theorem Dev.canonical.devDivs {c : Nat} {d : Dev} (h : d.canonical) : (devDivs c d).canonical := .insn (fun _ => .bodyDivs) h

/-! ### Machine/Boot -/

theorem Dev.canonical.latchEnd {d : Dev} (h : d.canonical) : d.latchEnd.canonical := by
  unfold Dev.latchEnd
  extract_lets d1 _
  have hd1 : d1.canonical := .safeEnter h
  exact .ite hd1 h

theorem Dev.canonical.devBootLoad {flash : Flash} {d : Dev} (h : d.canonical) : (devBootLoad flash d).canonical := by
  unfold Machine.devBootLoad
  extract_lets v d1 d2 v1
  have hd1 : d1.canonical := h
  have hd2 : d2.canonical := .wr (.wr (.wr hd1))
  exact .ite h (.ite (.latchEnd (.wr hd1)) hd2)

/-- The function's second equation, with the window's bank and the read as variables: the kernel would compute them. -/
theorem Dev.windowBytes_succ (d : Dev) (o n : Nat) :
    d.windowBytes o (n + 1) = match d.readGran (windowBank (0x900000 + o)).1 ((windowBank (0x900000 + o)).2 / 8) 0x35 1 with
      | (e, none) => (e, none)
      | (e, some v) => match e.windowBytes (o + 8) n with
        | (f, none) => (f, none)
        | (f, some rest) => (f, some (leBytes v 8 ++ rest)) := by
  have hdef := Eq.refl Dev.windowBytes
  conv_rhs at hdef => delta Dev.windowBytes Dev.windowBytes._f
  rewrite [hdef]
  generalize windowBank = place, Dev.readGran = read
  revert place read
  exact id fun _ _ => rfl

theorem Dev.canonical.windowBytes {d : Dev} {o n : Nat} (h : d.canonical) : (d.windowBytes o n).1.canonical := by
  induction n generalizing d o with
  | zero => exact h
  | succ n ih =>
    rw [Dev.windowBytes_succ]
    generalize windowBank = place
    revert place
    refine id fun place => ?_
    split
    · next hr => exact .fst hr (.readGran h)
    · next hr =>
      have he := Dev.canonical.fst hr (.readGran h)
      split
      · next hr => exact .fst hr (ih he)
      · next hr => exact .fst hr (ih he)

theorem Dev.canonical.hostImage {d : Dev} (h : d.canonical) : d.hostImage.1.canonical := by
  unfold Dev.hostImage
  refine .ite_fst h ?_
  split
  · next hr => exact .fst hr (.windowBytes h)
  · next hr =>
    have he := Dev.canonical.fst hr (.windowBytes h)
    extract_lets len
    split
    · next hr => exact .fst hr (.windowBytes he)
    · next hr => exact .fst hr (.windowBytes he)

theorem Dev.canonical.imageEnd {d : Dev} {im : List Byte} {st : Nat} (h : d.canonical) : (d.imageEnd im st).canonical := by
  unfold Dev.imageEnd
  extract_lets _ d1 _ d2 _
  have hd1 : d1.canonical := .wr (.wr h)
  have hd2 : d2.canonical := .wr h
  exact .ite hd1 (.ite hd2 (.latchEnd (.wr h)))

theorem Dev.canonical.devImageCheck {d : Dev} (h : d.canonical) : (devImageCheck d).canonical := .ite h (.imageEnd (.ite_fst (.hostImage h) h))

theorem Dev.canonical.recordDone {d : Dev} {len st : Nat} (h : d.canonical) : (d.recordDone len st).canonical := by
  unfold Dev.recordDone
  extract_lets d1 _
  have hd1 : d1.canonical := .ite h (.countRecord h)
  exact hd1

theorem Dev.canonical.bootWord {d : Dev} {off : Nat} {value mask : Word} (h : d.canonical) : (d.bootWord off value mask).1.canonical := by
  unfold Dev.bootWord
  extract_lets _ _ _ _
  split
  · next hr => exact .fst hr (.regWrite h)
  · next hr => exact .fst hr (.regWrite h)
  · next hr => exact .wign (.fst hr (.regWrite h))
  · next hr => exact .fst hr (.regWrite h)

theorem Dev.canonical.bootWords {d : Dev} {off : Nat} {r : List Byte} {k n : Nat} (h : d.canonical) : (d.bootWords off r k n).1.canonical := by
  induction n generalizing d off k with
  | zero => exact h
  | succ n ih => exact ih (.bootWord h)

theorem Dev.canonical.devRegWriteRecord {d : Dev} (h : d.canonical) : (devRegWriteRecord d).canonical := by
  unfold Machine.devRegWriteRecord
  split
  · exact h
  · exact .recordDone (.bootWord h)

theorem Dev.canonical.devRegBlockRecord {d : Dev} (h : d.canonical) : (devRegBlockRecord d).canonical := by
  unfold Machine.devRegBlockRecord
  split
  · exact h
  · exact .recordDone (.bootWords h)

theorem Dev.canonical.devClaimRecord {d : Dev} (h : d.canonical) : (devClaimRecord d).canonical := by
  unfold Machine.devClaimRecord
  split
  · exact h
  · exact .recordDone (.kSettle (.claimIn h))

theorem Dev.canonical.devCoreSectionRecord {d : Dev} (h : d.canonical) : (devCoreSectionRecord d).canonical := by
  unfold Machine.devCoreSectionRecord
  split
  · exact h
  · extract_lets c data d1 d2 v d3
    have hd1 : d1.canonical := .writeBank h
    have hd2 : d2.canonical := .ite (.wr hd1) hd1
    have hd3 : d3.canonical := .ite hd2 hd2
    exact .recordDone hd3

theorem Dev.canonical.bootEnd {d : Dev} (h : d.canonical) : d.bootEnd.canonical := .ite (.latchEnd h) (.ite (.reqRamp h) h)

theorem Dev.canonical.devImageApplied {d : Dev} (h : d.canonical) : (devImageApplied d).canonical :=
  .ite h (.bootEnd (.forN (.wr h) fun _ _ he => .ite (.coreStart he) he))

/-! ### Machine/Commands -/

theorem Dev.canonical.devNop {x : Desc} {d : Dev} (h : d.canonical) : (devNop x d).canonical := .runDesc h fun _ _ he => he

theorem Dev.canonical.resClaim {d : Dev} {x : Desc} {t : Token} (h : d.canonical) : (d.resClaim x t).1.canonical := .ite_fst h (.kSettle (.claimIn h))

theorem Dev.canonical.devResClaim {x : Desc} {d : Dev} (h : d.canonical) : (devResClaim x d).canonical := .runDesc h fun _ _ he => .resClaim he

theorem Dev.canonical.resRelease {d : Dev} {x : Desc} (h : d.canonical) : (d.resRelease x).1.canonical := .ite_fst h (.release h)

theorem Dev.canonical.devResRelease {x : Desc} {d : Dev} (h : d.canonical) : (devResRelease x d).canonical := .runDesc h fun _ _ he => .resRelease he

theorem Dev.canonical.devRailSet {x : Desc} {d : Dev} (h : d.canonical) : (devRailSet x d).canonical :=
  .runDesc h fun _ _ he => .ite_fst he (.ite (.onR (.railSet he)) (.railSet he))

theorem Dev.canonical.devRailEnable {x : Desc} {d : Dev} (h : d.canonical) : (devRailEnable x d).canonical :=
  .runDesc h fun _ _ he => .ite_fst (.railEnable he) he

theorem Dev.canonical.devRailDisable {x : Desc} {d : Dev} (h : d.canonical) : (devRailDisable x d).canonical :=
  .runDesc h fun _ _ he => .ite_fst he (.ite_fst (.onR (.railDisable he)) (.railDisable he))

theorem Dev.canonical.phaseMask {d : Dev} {r : Nat} {p : List Byte} {t : Token} (h : d.canonical) : (d.phaseMask r p t).1.canonical :=
  .ite_fst h (.ite (.onR h) (.warpShow (.maskSwap (.onR h))))

theorem Dev.canonical.devPhaseMask {x : Desc} {d : Dev} (h : d.canonical) : (devPhaseMask x d).canonical := .runDesc h fun _ _ he => .phaseMask he

theorem Dev.canonical.coefLoad {d : Dev} {r : Nat} {p : List Byte} {t : Token} (h : d.canonical) : (d.coefLoad r p t).1.canonical :=
  .ite_fst h (.ite_fst (.onR h) (.ite (.coefShadow h) (.coefSwap (.coefShadow h))))

theorem Dev.canonical.devCoefLoad {x : Desc} {d : Dev} (h : d.canonical) : (devCoefLoad x d).canonical := .runDesc h fun _ _ he => .coefLoad he

theorem Dev.canonical.tableWrite {d : Dev} {a off : Nat} {bs : List Byte} (h : d.canonical) : (d.tableWrite a off bs).canonical := by
  unfold Dev.tableWrite
  split
  · exact h
  · exact .forL h fun _ _ he => .writeBank he

theorem Dev.canonical.policyLoad {d : Dev} {p : List Byte} {a : Nat} (h : d.canonical) : (d.policyLoad p a).1.canonical :=
  .ite_fst h (.ite_fst h (.ite_fst h (.ite_fst h (.tableWrite h))))

theorem Dev.canonical.devFusePolicyLoad {x : Desc} {d : Dev} (h : d.canonical) : (devFusePolicyLoad x d).canonical :=
  .runDesc h fun _ _ he => .policyLoad he

theorem Dev.canonical.tableTake {d : Dev} {kind index off a : Nat} {bs : List Byte} (h : d.canonical) : (d.tableTake kind index off a bs).canonical :=
  .ite (.forN (.tableWrite h) fun _ _ he => .ite (.onR he) he) (.tableWrite h)

theorem Dev.canonical.tableLoad {d : Dev} {p : List Byte} {err : Bool} {a : Nat} (h : d.canonical) : (d.tableLoad p err a).1.canonical := by
  unfold Dev.tableLoad
  extract_lets _ _ _
  refine .ite_fst h ?_
  split
  · exact h
  · exact .ite_fst h (.ite_fst h (.ite_fst h (.ite_fst h (.ite_fst h (.ite_fst (.tableTake h) h)))))

theorem Dev.canonical.devTableLoad {x : Desc} {err : Bool} {d : Dev} (h : d.canonical) : (devTableLoad x err d).canonical :=
  .runDesc h fun _ _ he => .tableLoad he

theorem Dev.canonical.seqLoad {d : Dev} {p : List Byte} {a : Nat} {t : Token} (h : d.canonical) : (d.seqLoad p a t).1.canonical :=
  .ite_fst h (.ite_fst h (.ite_fst h (.ite_fst h (.ite_fst (.onSQ h) (.ite (.seqSwap (.onSQ (.wr (.onSQ h)))) (.onSQ (.wr (.onSQ h))))))))

theorem Dev.canonical.devSeqLoad {x : Desc} {d : Dev} (h : d.canonical) : (devSeqLoad x d).canonical := .runDesc h fun _ _ he => .seqLoad he

theorem Dev.canonical.packRestore {d : Dev} {p : Nat} {b : List Byte} (h : d.canonical) : (d.packRestore p b).1.canonical :=
  .ite_fst h (.ite_fst h (.ite_fst h (.ite_fst h (.ite_fst h (.evt (.wr (.wr (.wr (.wr (.wr (.wr h)))))))))))

theorem Dev.canonical.devPackRestore {x : Desc} {d : Dev} (h : d.canonical) : (devPackRestore x d).canonical :=
  .runDesc h fun _ _ he => .packRestore he

theorem Dev.canonical.devPackRead {x : Desc} {d : Dev} (h : d.canonical) : (devPackRead x d).canonical :=
  .runDesc h fun _ _ he => .ite_fst he (.ite_fst he (.onSG (.sageRecord he)))

/-! ### Machine/Control -/

theorem Act.Keeps.frameSize {b : Nat} : Act.Keeps (frameSize b) :=
  .ite .pure (.bind .look fun _ => .bind (.change fun _ h => .nextFree h) fun _ => .pure)

theorem Dev.canonical.waitGo {d : Dev} {c : Nat} {i : Insn} {l : Place} {m b : Nat} (h : d.canonical) : (d.waitGo c i l m b).canonical :=
  .onK (.coreGo h)

theorem Act.Keeps.atomic {c : Nat} {i : Insn} {p : Spec} : Act.Keeps (atomic c i p) := by
  refine .bind .place fun l => ?_
  split
  · exact .ite (.bind .load fun _ => .bind .storeCheck fun _ => .pure) (.ite .stop .stop)
  · exact .bind .look fun _ => .stop

theorem Act.Keeps.bodyBr {c : Nat} {i : Insn} : Act.Keeps (bodyBr c i) := by
  unfold Machine.bodyBr
  split
  · exact .bind .branchTo fun _ => .pure
  · exact .noShape

theorem Dev.canonical.devBr {c : Nat} {d : Dev} (h : d.canonical) : (devBr c d).canonical := .insn (fun _ => .bodyBr) h

theorem Act.Keeps.bodyBc {c : Nat} {i : Insn} : Act.Keeps (bodyBc c i) := by
  unfold Machine.bodyBc
  split
  · exact .bind .branchTo fun _ => .bind .look fun _ => .pure
  · exact .noShape

theorem Dev.canonical.devBc {c : Nat} {d : Dev} (h : d.canonical) : (devBc c d).canonical := .insn (fun _ => .bodyBc) h

theorem Act.Keeps.bodyCall {c : Nat} {i : Insn} : Act.Keeps (bodyCall c i) := by
  unfold Machine.bodyCall
  split
  · exact .bind .branchTo fun _ => .bind .source fun _ => .bind .frameSize fun _ => .bind .look fun _ => .bind .look fun _ =>
      .ite .stop (.bind .storeCheck fun _ => .bind .store fun _ => .bind (.change fun _ h => .refill (.onK h)) fun _ => .pure)
  · exact .noShape

theorem Dev.canonical.devCall {c : Nat} {d : Dev} (h : d.canonical) : (devCall c d).canonical := .insn (fun _ => .bodyCall) h

theorem Act.Keeps.bodyRet {c : Nat} {i : Insn} : Act.Keeps (bodyRet c i) := 
  .bind .look fun _ => .bind .load fun _ => .bind (.change fun _ h => .refill (.onK h)) fun _ => .pure

theorem Dev.canonical.devRet {c : Nat} {d : Dev} (h : d.canonical) : (devRet c d).canonical := .insn (fun _ => .bodyRet) h

theorem Act.Keeps.bodyLoop {c : Nat} {i : Insn} : Act.Keeps (bodyLoop c i) := by
  unfold Machine.bodyLoop
  split
  · exact .bind .source fun _ => .bind .branchTo fun _ => .bind (.change fun _ h => .onK h) fun _ => .pure
  · exact .noShape

theorem Dev.canonical.devLoop {c : Nat} {d : Dev} (h : d.canonical) : (devLoop c d).canonical := .insn (fun _ => .bodyLoop) h

theorem Act.Keeps.bodyRte {c : Nat} {i : Insn} : Act.Keeps (bodyRte c i) := 
  .bind .look fun _ => .ite (.bind .look fun _ => .bind (.change fun _ h => .refill (.onK h)) fun _ => .pure) .stop

theorem Dev.canonical.devRte {c : Nat} {d : Dev} (h : d.canonical) : (devRte c d).canonical := .insn (fun _ => .bodyRte) h

theorem Act.Keeps.bodyWait {c : Nat} {i : Insn} : Act.Keeps (bodyWait c i) := by
  unfold Machine.bodyWait
  split
  · exact .bind .target fun _ => .bind .source fun _ => .bind .source fun _ => .bind .look fun _ =>
      .ite (.bind .waitPut fun _ => .pure) (.bind (.change fun _ h => .waitGo h) fun _ => .pure)
  · exact .noShape

theorem Dev.canonical.devWait {c : Nat} {d : Dev} (h : d.canonical) : (devWait c d).canonical := .insn (fun _ => .bodyWait) h

theorem Act.Keeps.bodyInsnFence {c : Nat} {i : Insn} : Act.Keeps (bodyInsnFence c i) := .pure

theorem Dev.canonical.devInsnFence {c : Nat} {d : Dev} (h : d.canonical) : (devInsnFence c d).canonical := .insn (fun _ => .bodyInsnFence) h

theorem Act.Keeps.bodySwap {c : Nat} {i : Insn} : Act.Keeps (bodySwap c i) := by
  unfold Machine.bodySwap
  split
  · exact .bind .atomic fun _ => .bind .updated fun _ => .bind .result fun _ => .bind .result fun _ => .pure
  · exact .noShape

theorem Dev.canonical.devSwap {c : Nat} {d : Dev} (h : d.canonical) : (devSwap c d).canonical := .insn (fun _ => .bodySwap) h

theorem Act.Keeps.bodyAddx {c : Nat} {i : Insn} : Act.Keeps (bodyAddx c i) := by
  unfold Machine.bodyAddx
  split
  · exact .bind .target fun _ => .bind .atomic fun _ => .bind .source fun _ => .bind .result fun _ => .bind .result fun _ => .pure
  · exact .noShape

theorem Dev.canonical.devAddx {c : Nat} {d : Dev} (h : d.canonical) : (devAddx c d).canonical := .insn (fun _ => .bodyAddx) h

theorem Dev.canonical.devWaitWake {c : Nat} {d : Dev} (h : d.canonical) : (devWaitWake c d).canonical := by
  unfold Machine.devWaitWake
  split
  · exact h
  · exact .ite (.unlessLocked h fun _ he => .waitEnd he) h

theorem Dev.canonical.devWaitTimeout {c : Nat} {d : Dev} (h : d.canonical) : (devWaitTimeout c d).canonical := by
  unfold Machine.devWaitTimeout
  split
  · exact h
  · exact .ite (.unlessLocked h fun _ he => .waitEnd he) h

theorem Dev.canonical.hostLink {d : Dev} {c addr : Nat} (h : d.canonical) : (d.hostLink c addr).canonical := .exception (.coreGo h)

theorem Dev.canonical.devAccessComplete {c : Nat} {v : Option (BitVec 64)} {d : Dev} (h : d.canonical) : (devAccessComplete c v d).canonical := by
  unfold Machine.devAccessComplete
  split
  · exact h
  · refine .ite h ?_
    split
    · exact .hostLink h
    · exact .onK (.coreGo h)

theorem Dev.canonical.devHostWindowTimeout {c : Nat} {d : Dev} (h : d.canonical) : (devHostWindowTimeout c d).canonical := by
  unfold Machine.devHostWindowTimeout
  split
  · exact h
  · exact .ite (.hostLink h) h

theorem Dev.canonical.devWatchdogExpire {c : Nat} {d : Dev} (h : d.canonical) : (devWatchdogExpire c d).canonical := .unlessLocked h fun _ he => he

/-! ### Machine/TwTarget -/

theorem Dev.canonical.winSeen {d : Dev} {n w : Nat} {read : Bool} (h : d.canonical) : (d.winSeen n w read).canonical := .wr (.onW (.ite (.wr h) h))

theorem Dev.canonical.setPtr {d : Dev} {n w p : Nat} (h : d.canonical) : (d.setPtr n w p).canonical := .wr (.onW h)

theorem Dev.canonical.pecDrop {d : Dev} {n : Nat} (h : d.canonical) : (d.pecDrop n).canonical := .evt (.bump h)

theorem Dev.canonical.twCommit {d : Dev} {a : Nat} {bs : List (Nat × Byte)} (h : d.canonical) : (d.twCommit a bs).canonical := by
  unfold Dev.twCommit
  split
  · exact h
  · extract_lets _
    split
    · next hr => exact .wign (.fst hr (.regWrite h))
    · next hr => exact .fst hr (.regWrite h)

theorem Dev.canonical.commitAll {d : Dev} {a : Nat} {held l : List (Nat × Byte)} (h : d.canonical) : (d.commitAll a held l).canonical := by
  induction l generalizing d held with
  | nil => exact .twCommit h
  | cons x r ih => exact .ite (ih (.twCommit h)) (.ite (ih (.twCommit h)) (ih h))

theorem Dev.canonical.submit {d : Dev} {b : Byte} (h : d.canonical) : (d.submit b).canonical := .ite h (.takeBox h)

theorem Dev.canonical.boxWrite {d : Dev} {x : Nat × Byte} (h : d.canonical) : (d.boxWrite x).canonical := .ite h (.ite (.submit h) h)

theorem Dev.canonical.putData {d : Dev} {n w p : Nat} {data : List Byte} {sorted : Bool} (h : d.canonical) :
    (d.putData n w p data sorted).canonical :=
  .forL (.commitAll h) fun _ _ he => .boxWrite he

theorem Dev.canonical.plainWrite {d : Dev} {n w : Nat} {bs : List Byte} (h : d.canonical) : (d.plainWrite n w bs).canonical :=
  .ite (.busOut h) (.ite (.busOut (.setPtr h)) (.busOut (.setPtr (.putData h))))

theorem Dev.canonical.pecWrite {d : Dev} {n w addr : Nat} {bs : List Byte} {pec : Option Byte} (h : d.canonical) :
    (d.pecWrite n w addr bs pec).canonical :=
  .ite (.busOut h) (.ite (.busOut (.pecDrop h)) (.ite (.busOut (.pecDrop h)) (.busOut (.setPtr (.putData h)))))

theorem Dev.canonical.twServed {d : Dev} {n : Nat} (h : d.canonical) : (d.twServed n).canonical := .ite (.twHigh (.wr h)) h

theorem Dev.canonical.peek {d : Dev} {a off : Nat} (h : d.canonical) : (d.peek a off).1.canonical := by
  unfold Dev.peek
  extract_lets mem
  refine .ite_fst (.accessFault h) (.ite_fst h ?_)
  clear_value mem
  split
  · split
    · next hr => exact .fst hr (.readBank h)
    · next hr => exact .nextFree (.fst hr (.readBank h))
  · exact .ite_fst h (.ite_fst h h)

theorem Dev.canonical.sendBytes {d : Dev} {n w p : Nat} {last : Bool} {cur : Option (Nat × Nat × Bool)} {k : Nat} (h : d.canonical) :
    (d.sendBytes n w p last cur k).1.canonical := by
  induction k generalizing d p cur with
  | zero => exact h
  | succ k ih =>
    unfold Dev.sendBytes
    extract_lets acked p'
    split
    · exact ih h
    · extract_lets reg held l done d1
      have hl : l.1.canonical := .ite_fst h (.peek h)
      have hd1 : d1.canonical := .ite (.regRead hl) hl
      exact ih hd1

theorem Dev.canonical.freeBytes {d : Dev} {n : Nat} (h : d.canonical) : (d.freeBytes n).1.canonical := by
  induction n generalizing d with
  | zero => exact h
  | succ n ih => exact ih (.nextFree h)

theorem Dev.canonical.plainRead {d : Dev} {n w : Nat} {m : BusRead} (h : d.canonical) : (d.plainRead n w m).canonical :=
  .busOut (.setPtr (.sendBytes (.ite h (.plainWrite h))))

theorem Dev.canonical.pecRead {d : Dev} {n w addr : Nat} {m : BusRead} (h : d.canonical) : (d.pecRead n w addr m).canonical :=
  .ite (.busOut (.freeBytes (.pecDrop h))) (.busOut (.setPtr (.sendBytes h)))

theorem Dev.canonical.devTargetStretchTimeout {n : Nat} {d : Dev} (h : d.canonical) : (devTargetStretchTimeout n d).canonical := by
  unfold Machine.devTargetStretchTimeout
  extract_lets w p
  split
  · exact h
  · exact .busOut (.setPtr (.accessFault h))

/-! ### Machine/Pmbus -/

theorem Dev.canonical.pmbNack {d : Dev} (h : d.canonical) : d.pmbNack.canonical := .busOut h

theorem Dev.canonical.pmbReply {d : Dev} {wrote : List Byte} {len w reads : Nat} (h : d.canonical) : (d.pmbReply wrote len w reads).canonical :=
  .busOut (.freeBytes h)

theorem Dev.canonical.pmbSend {d : Dev} {wrote : List Byte} {v : Nat × PmbVal} {reads : Nat} (h : d.canonical) :
    (d.pmbSend wrote v reads).canonical := by
  unfold Dev.pmbSend
  split
  · exact .pmbNack h
  · exact .pmbReply h
  · exact .pmbReply (.nextFree h)

theorem Dev.canonical.pmbIn {d : Dev} {code : Nat} (h : d.canonical) : (d.pmbIn code).canonical := .setPtr (.winSeen h)

theorem Dev.canonical.pagePut {d : Dev} {v : Byte} {pec : Option Byte} (h : d.canonical) : (d.pagePut v pec).canonical :=
  .ite (.pmbNack h) (.ite (.busOut h) (.busOut h))

theorem Dev.canonical.clearCml {d : Dev} {pec : Option Byte} (h : d.canonical) : (d.clearCml pec).canonical := .busOut h

theorem Dev.canonical.pmbWrite {d : Dev} {code : Nat} {data : List Byte} (h : d.canonical) : (d.pmbWrite code data).canonical := by
  unfold Dev.pmbWrite
  split
  · exact .pagePut h
  · exact .pagePut h
  · exact .clearCml h
  · exact .clearCml h
  · exact .ite (.pmbNack h) (.busOut h)
  · exact .pmbNack h

theorem Dev.canonical.pmbDo {d : Dev} {code : Nat} {f : Dev → Dev} (h : d.canonical) (hf : ∀ e, e.canonical → (f e).canonical) :
    (d.pmbDo code f).canonical :=
  .ite (.twServed (hf _ (.pmbIn (.twLines h)))) (.busOut (.twLines h))

theorem Dev.canonical.pmbRead {d : Dev} {code : Nat} {x : PmbTail} (h : d.canonical) : (d.pmbRead code x).canonical :=
  .pmbDo h fun _ he => .pmbSend he

theorem Dev.canonical.devPage {b : Option Byte} {x : PmbTail} {d : Dev} (h : d.canonical) : (devPage b x d).canonical := by
  unfold Machine.devPage
  split
  · exact .pmbRead h
  · exact .pmbDo h fun _ he => .pagePut he

theorem Dev.canonical.devClearFaults {x : PmbTail} {d : Dev} (h : d.canonical) : (devClearFaults x d).canonical := .pmbDo h fun _ he => .clearCml he

theorem Dev.canonical.devCapability {x : PmbTail} {d : Dev} (h : d.canonical) : (devCapability x d).canonical := .pmbRead h

theorem Dev.canonical.devVoutMode {x : PmbTail} {d : Dev} (h : d.canonical) : (devVoutMode x d).canonical := .pmbRead h

theorem Dev.canonical.devStatusByte {x : PmbTail} {d : Dev} (h : d.canonical) : (devStatusByte x d).canonical := .pmbRead h

theorem Dev.canonical.devStatusWord {x : PmbTail} {d : Dev} (h : d.canonical) : (devStatusWord x d).canonical := .pmbRead h

theorem Dev.canonical.devReadVin {x : PmbTail} {d : Dev} (h : d.canonical) : (devReadVin x d).canonical := .pmbRead h

theorem Dev.canonical.devReadIin {x : PmbTail} {d : Dev} (h : d.canonical) : (devReadIin x d).canonical := .pmbRead h

theorem Dev.canonical.devReadVout {x : PmbTail} {d : Dev} (h : d.canonical) : (devReadVout x d).canonical := .pmbRead h

theorem Dev.canonical.devReadIout {x : PmbTail} {d : Dev} (h : d.canonical) : (devReadIout x d).canonical := .pmbRead h

theorem Dev.canonical.devReadTemperature1 {x : PmbTail} {d : Dev} (h : d.canonical) : (devReadTemperature1 x d).canonical := .pmbRead h

theorem Dev.canonical.devReadPout {x : PmbTail} {d : Dev} (h : d.canonical) : (devReadPout x d).canonical := .pmbRead h

theorem Dev.canonical.devReadPin {x : PmbTail} {d : Dev} (h : d.canonical) : (devReadPin x d).canonical := .pmbRead h

theorem Dev.canonical.devPmbusRevision {x : PmbTail} {d : Dev} (h : d.canonical) : (devPmbusRevision x d).canonical := .pmbRead h

theorem Dev.canonical.pmbPut {d : Dev} {x1 : List Byte} (h : d.canonical) : (d.pmbPut x1).canonical := by
  unfold Dev.pmbPut
  split
  · exact .busOut h
  · exact .pmbWrite (.pmbIn h)

theorem Dev.canonical.devTargetWrite {n addr : Nat} {bs : List Byte} {pec : Option Byte} {d : Dev} (h : d.canonical) :
    (devTargetWrite n addr bs pec d).canonical := by
  unfold Machine.devTargetWrite
  extract_lets d1
  have hd1 : d1.canonical := .twLines h
  refine .ite (.busOut hd1) ?_
  split
  · exact .twServed (.ite (.pecWrite (.winSeen hd1)) (.plainWrite (.winSeen hd1)))
  · exact .twServed (.ite (.pmbPut (.winSeen hd1)) (.busOut hd1))

theorem Dev.canonical.pmbGet {d : Dev} {m : BusRead} (h : d.canonical) : (d.pmbGet m).canonical := by
  unfold Dev.pmbGet
  extract_lets d1
  have hd1 : d1.canonical := .winSeen h
  split
  · exact .pmbSend hd1
  · exact .pmbSend (.pmbIn hd1)
  · exact .pmbSend (.pmbWrite (.pmbIn hd1))

theorem Dev.canonical.devTargetRead {n addr : Nat} {m : BusRead} {d : Dev} (h : d.canonical) : (devTargetRead n addr m d).canonical := by
  unfold Machine.devTargetRead
  extract_lets d1
  have hd1 : d1.canonical := .twLines h
  refine .ite (.busOut hd1) ?_
  split
  · exact .twServed (.ite (.pecRead (.winSeen hd1)) (.plainRead (.winSeen hd1)))
  · exact .twServed (.ite (.pmbGet hd1) (.busOut hd1))

theorem Dev.canonical.devMailboxSubmit {b : BoxSubmit} {d : Dev} (h : d.canonical) : (devMailboxSubmit b d).canonical := .devTargetWrite h

/-! ### Machine/ThreadCmds -/

theorem Dev.canonical.putCfg {d : Dev} {t : Nat} {c : List Byte} (h : d.canonical) : (d.putCfg t c).canonical := .forN h fun _ _ he => .twr he

theorem Dev.canonical.budgetNote {d : Dev} {status : Nat} (h : d.canonical) : (d.budgetNote status).canonical := .ite (.evt h) h

theorem Dev.canonical.threadOpen {d : Dev} {t : Nat} {c : List Byte} {a : Nat} (h : d.canonical) : (d.threadOpen t c a).1.canonical :=
  .ite_fst h (.ite_fst h (.ite_fst (.budgetNote h) (.usedShow (.onT (.twr (.twr (.twr (.twr (.putCfg (.tabFresh h))))))))))

theorem Dev.canonical.devThreadOpen {x : Desc} {d : Dev} (h : d.canonical) : (devThreadOpen x d).canonical := .runDesc h fun _ _ he => .threadOpen he

theorem Dev.canonical.threadChange {d : Dev} {t : Nat} {c : List Byte} (h : d.canonical) : (d.threadChange t c).canonical := by
  unfold Dev.threadChange
  extract_lets _ _ _ d1 d2 d3 d4 d5
  have hd1 : d1.canonical := .putCfg (.closeBlks h)
  have hd2 : d2.canonical := .onT hd1
  have hd3 : d3.canonical := .usedShow hd2
  have hd4 : d4.canonical := .onT hd3
  have hd5 : d5.canonical := .onT hd3
  exact .ite (.ite hd4 (.twr hd4)) (.ite (.ite hd5 (.twr hd5)) hd3)

theorem Dev.canonical.threadArm {d : Dev} {t : Nat} (h : d.canonical) : (d.threadArm t).canonical := .ite (.onT (.twr h)) h

theorem Dev.canonical.threadModify {d : Dev} {t : Nat} {p : List Byte} {a : Nat} (h : d.canonical) : (d.threadModify t p a).1.canonical := by
  unfold Dev.threadModify
  extract_lets _ _ d1 d2 d3 _
  have hd1 : d1.canonical := .tabRead h
  have hd2 : d2.canonical := .threadChange hd1
  have hd3 : d3.canonical := .ite (.threadArm hd2) hd2
  exact .ite_fst hd1 (.ite_fst hd1 (.ite_fst hd1 (.ite_fst (.budgetNote hd1) (.ite (.capture hd3) hd3))))

theorem Dev.canonical.devThreadModify {x : Desc} {d : Dev} (h : d.canonical) : (devThreadModify x d).canonical :=
  .runDesc h fun _ _ he => .threadModify he

theorem Dev.canonical.threadClose {d : Dev} {t : Nat} {p : List Byte} {k : Token} (h : d.canonical) : (d.threadClose t p k).1.canonical :=
  .ite_fst h (.ite_fst h (.ite_fst h (.onT (.closeBlks h))))

theorem Dev.canonical.devThreadClose {x : Desc} {d : Dev} (h : d.canonical) : (devThreadClose x d).canonical :=
  .runDesc h fun _ _ he => .threadClose he

theorem Dev.canonical.devThreadCloseDone {t : Nat} {d : Dev} (h : d.canonical) : (devThreadCloseDone t d).canonical := by
  unfold Machine.devThreadCloseDone
  split
  · exact h
  · exact .ite h (.ite (.dataOut h) (.usedShow (.threadEnd (.dataOut h))))

theorem Dev.canonical.fence {d : Dev} {x : Desc} {t : Token} (h : d.canonical) : (d.fence x t).1.canonical := .ite_fst h h

theorem Dev.canonical.devFence {x : Desc} {d : Dev} (h : d.canonical) : (devFence x d).canonical := .runDesc h fun _ _ he => .fence he

theorem Dev.canonical.onFence {d : Dev} {i : Nat} {f : FenceSt → FenceSt} (h : d.canonical) : (d.onFence i f).canonical := h

theorem Dev.canonical.fenceWait {d : Dev} {f : FenceSt} (h : d.canonical) : (d.fenceWait f).canonical := .onFence h

theorem Dev.canonical.fenceCloses {d : Dev} {f : FenceSt} (h : d.canonical) : (d.fenceCloses f).canonical :=
  .onFence (.forL h fun _ _ he => .ite (.ite (.dataOut he) he) (.forL he fun _ _ he1 => .closeBlk he1))

theorem Dev.canonical.markerVc {d : Dev} {f : FenceSt} {v : Nat} (h : d.canonical) : (d.markerVc f v).canonical := .ite h (.onFence (.onV h))

theorem Dev.canonical.fencePlace {d : Dev} {f : FenceSt} (h : d.canonical) : (d.fencePlace f).canonical := by
  unfold Dev.fencePlace
  extract_lets d1 _ d2 d3
  have hd1 : d1.canonical := .ite h (.fenceCloses h)
  have hd2 : d2.canonical := .forL hd1 fun _ _ he => .archMarks he
  have hd3 : d3.canonical := .forL hd2 fun _ _ he1 => .markerPut he1
  exact .ite h (.ite (.fenceCut hd2) (.forL hd3 fun _ _ he => .markerVc he))

theorem Dev.canonical.devFenceMarkerPlace {d : Dev} (h : d.canonical) : (devFenceMarkerPlace d).canonical := by
  unfold Machine.devFenceMarkerPlace
  extract_lets d1
  have hd1 : d1.canonical := by
    refine .forL h fun _ _ he => ?_
    split
    · exact .fenceWait he
    · exact he
  refine .ite h (.fenceEnds (.forL hd1 fun _ _ he => ?_))
  split
  · exact .fencePlace he
  · exact he

/-! ### Machine/Tick -/

theorem Dev.canonical.clockEdge {d : Dev} (h : d.canonical) : d.clockEdge.canonical := .ite h (.ite h h)

theorem Dev.canonical.sumVector {d : Dev} (h : d.canonical) : d.sumVector.canonical := .ite (.ite (.raiseVec h) h) h

theorem Dev.canonical.devTick {d : Dev} (h : d.canonical) : (devTick d).canonical := .sumVector (.clockEdge h)

end Sys2Proof.Machine
end

section
/-! PROOFS. Every step keeps the register map and the memories in canonical form. -/

namespace Sys2Proof.Machine

set_option Elab.async false

/-- The next state, where there is one, is in canonical form. -/
def NextCanonical (o : Host.Outcome State Fault Refusal) : Prop := ∀ t, o = .next t → t.dev.canonical

theorem NextCanonical.next {e : Dev} {q : List Instr} (h : e.canonical) : NextCanonical (.next ⟨e, q⟩) := by
  intro t ht
  obtain rfl := Host.Outcome.next.inj ht
  exact h

/-- A command whose operands are checked first. -/
theorem NextCanonical.checked {p : Prop} [Decidable p] {e : Dev} {q : List Instr} {r : Fault} (h : e.canonical) :
    NextCanonical (if p then .next ⟨e, q⟩ else .fault r) := by
  split
  · exact .next h
  · intro t ht
    simp at ht

/-- Every command keeps the form: by its constructor, each with the rule of what it does. -/
theorem nextCanonical_exec (i : Instr) {s : State} (h : s.dev.canonical) : NextCanonical (exec i s) := by
  cases i with
  | nop _ => exact .checked (.devNop h)
  | fence _ => exact .checked (.devFence h)
  | fenceMarkerPlace => exact .next (.devFenceMarkerPlace h)
  | modeRequestConfigure _ => exact .checked (.devModeRequestConfigure h)
  | modeRequestRamp _ => exact .checked (.devModeRequestRamp h)
  | modeRequestRun _ => exact .checked (.devModeRequestRun h)
  | modeRequestSafe _ => exact .checked (.devModeRequestSafe h)
  | modeRequestClearSafe _ => exact .checked (.devModeRequestClearSafe h)
  | timeAlign _ => exact .checked (.devTimeAlign h)
  | timeAlignTimeout => exact .next (.devTimeAlignTimeout h)
  | resClaim _ => exact .checked (.devResClaim h)
  | resRelease _ => exact .checked (.devResRelease h)
  | railSet _ => exact .checked (.devRailSet h)
  | railEnable _ => exact .checked (.devRailEnable h)
  | railDisable _ => exact .checked (.devRailDisable h)
  | phaseMask _ => exact .checked (.devPhaseMask h)
  | coefLoad _ => exact .checked (.devCoefLoad h)
  | fusePolicyLoad _ => exact .checked (.devFusePolicyLoad h)
  | tableLoad _ _ => exact .checked (.devTableLoad h)
  | seqLoad _ => exact .checked (.devSeqLoad h)
  | threadOpen _ => exact .checked (.devThreadOpen h)
  | threadModify _ => exact .checked (.devThreadModify h)
  | threadClose _ => exact .checked (.devThreadClose h)
  | threadCloseDone _ => exact .next (.devThreadCloseDone h)
  | unfence _ => exact .checked (.devUnfence h)
  | faultAck _ => exact .checked (.devFaultAck h)
  | packRestore _ => exact .checked (.devPackRestore h)
  | packRead _ => exact .checked (.devPackRead h)
  | descriptorFetch => exact .next (.devDescriptorFetch h)
  | descFetchTimeout _ => exact .next (.devDescFetchTimeout h)
  | descFetchError _ => exact .next (.devDescFetchError h)
  | completionRetire _ => exact .next (.devCompletionRetire h)
  | eventRecordWrite _ => exact .next (.devEventRecordWrite h)
  | itrWindowClose _ => exact .next (.devItrWindowClose h)
  | ringStall _ => exact .next (.devRingStall h)
  | ringEnable _ _ => exact .next (.devRingEnable h)
  | ringDisable _ _ => exact .next (.devRingDisable h)
  | ringDrained _ => exact .next (.devRingDrained h)
  | doorbellCommand _ => exact .next (.devDoorbellCommand h)
  | doorbellCompletion _ => exact .next (.devDoorbellCompletion h)
  | doorbellEvent _ => exact .next (.devDoorbellEvent h)
  | doorbellArchive _ => exact .next (.devDoorbellArchive h)
  | doorbellThread _ => exact .next (.devDoorbellThread h)
  | irDb _ _ _ => exact .next (.devIrDb h)
  | heartbeat => exact .next (.devHeartbeat h)
  | hostLinkDown => exact .next (.devHostLinkDown h)
  | threadDataFlush _ => exact .next (.devThreadDataFlush h)
  | rqEntry _ => exact .next (.devRqEntry h)
  | rqPop _ _ => exact .next (.devRqPop h)
  | thymeLoRead _ => exact .next (.devThymeLoRead h)
  | registerReadClear _ _ => exact .next (.devRegisterReadClear h)
  | registerWrite _ _ _ _ => exact .next (.devRegisterWrite h)
  | modeUnlock _ _ => exact .next (.devModeUnlock h)
  | modeReset _ _ _ => exact .next (.devModeReset h)
  | bootCtlGo _ => exact .next (.devBootCtlGo h)
  | fltSafeClr _ => exact .next (.devFltSafeClr h)
  | calStart _ _ => exact .next (.devCalStart h)
  | seqCtlTrig _ _ => exact .next (.devSeqCtlTrig h)
  | injReq _ _ _ => exact .next (.devInjReq h)
  | ipCtlRestore _ _ => exact .next (.devIpCtlRestore h)
  | twXctlGo _ _ _ => exact .next (.devTwXctlGo h)
  | twAlertReq _ _ => exact .next (.devTwAlertReq h)
  | fltInjFire _ => exact .next (.devFltInjFire h)
  | faultInjection => exact .next (.devFaultInjection h)
  | coreCtlHalt _ _ => exact .next (.devCoreCtlHalt h)
  | coreCtlStart _ _ => exact .next (.devCoreCtlStart h)
  | coreKick _ _ _ => exact .next (.devCoreKick h)
  | coreSignal _ _ => exact .next (.devCoreSignal h)
  | memTake _ _ => exact .next (.devMemTake h)
  | memRawRead _ => exact .next (.devMemRawRead h)
  | memRawWrite _ => exact .next (.devMemRawWrite h)
  | regWriteRecord => exact .next (.devRegWriteRecord h)
  | regBlockRecord => exact .next (.devRegBlockRecord h)
  | claimRecord => exact .next (.devClaimRecord h)
  | coreSectionRecord => exact .next (.devCoreSectionRecord h)
  | bootLoad _ => exact .next (.devBootLoad h)
  | imageCheck => exact .next (.devImageCheck h)
  | imageApplied => exact .next (.devImageApplied h)
  | vstbyRise => exact .next (.devVstbyRise h)
  | vstbyLoss => exact .next (.devVstbyLoss h)
  | mainSupplyFail => exact .next (.devMainSupplyFail h)
  | suppliesGood _ => exact .next (.devSuppliesGood h)
  | resetN _ => exact .next (.devResetN h)
  | pePerstN => exact .next (.devPePerstN h)
  | safeDelayExpire => exact .next (.devSafeDelayExpire h)
  | entryOn => exact .next (.devEntryOn h)
  | branchOn => exact .next (.devBranchOn h)
  | railOn => exact .next (.devRailOn h)
  | delay => exact .next (.devDelay h)
  | seqDelayExpire => exact .next (.devSeqDelayExpire h)
  | waitEntry => exact .next (.devWaitEntry h)
  | waitBranch => exact .next (.devWaitBranch h)
  | waitPg => exact .next (.devWaitPg h)
  | waitRailOff => exact .next (.devWaitRailOff h)
  | seqWaitDone => exact .next (.devSeqWaitDone h)
  | seqWaitTimeout => exact .next (.devSeqWaitTimeout h)
  | entryOff => exact .next (.devEntryOff h)
  | branchOff => exact .next (.devBranchOff h)
  | railOff => exact .next (.devRailOff h)
  | seqEnd => exact .next (.devSeqEnd h)
  | holdupStageShed _ => exact .next (.devHoldupStageShed h)
  | restoreStage => exact .next (.devRestoreStage h)
  | ecvSample _ _ => exact .next (.devEcvSample h)
  | entScTrip _ => exact .next (.devEntScTrip h)
  | entOcTrip _ => exact .next (.devEntOcTrip h)
  | entInrushTime _ => exact .next (.devEntInrushTime h)
  | entOvTrip _ => exact .next (.devEntOvTrip h)
  | entCutoff _ => exact .next (.devEntCutoff h)
  | entQualify _ => exact .next (.devEntQualify h)
  | entInrushDone _ => exact .next (.devEntInrushDone h)
  | entGateEnhanced _ => exact .next (.devEntGateEnhanced h)
  | entBlock _ => exact .next (.devEntBlock h)
  | entBlockReturn _ => exact .next (.devEntBlockReturn h)
  | entArm _ => exact .next (.devEntArm h)
  | entShare _ => exact .next (.devEntShare h)
  | holdupEngage _ => exact .next (.devHoldupEngage h)
  | holdupExit => exact .next (.devHoldupExit h)
  | keepEnter => exact .next (.devKeepEnter h)
  | keepTrip _ => exact .next (.devKeepTrip h)
  | keepExpire => exact .next (.devKeepExpire h)
  | keepRelease => exact .next (.devKeepRelease h)
  | retryDelayExpire _ => exact .next (.devRetryDelayExpire h)
  | coolTimeout _ => exact .next (.devCoolTimeout h)
  | countClear _ => exact .next (.devCountClear h)
  | brSample _ _ _ _ => exact .next (.devBrSample h)
  | brFastTrip _ => exact .next (.devBrFastTrip h)
  | brOcTrip _ => exact .next (.devBrOcTrip h)
  | brSsTime _ => exact .next (.devBrSsTime h)
  | brOvTrip _ => exact .next (.devBrOvTrip h)
  | brRevTrip _ => exact .next (.devBrRevTrip h)
  | brPwrTrip _ => exact .next (.devBrPwrTrip h)
  | brQualify _ => exact .next (.devBrQualify h)
  | brSoftstartDone _ => exact .next (.devBrSoftstartDone h)
  | branchDownArrive _ => exact .next (.devBranchDownArrive h)
  | dependDisable _ _ => exact .next (.devDependDisable h)
  | rvcSample _ _ => exact .next (.devRvcSample h)
  | pccSample _ _ => exact .next (.devPccSample h)
  | dutyApply _ => exact .next (.devDutyApply h)
  | switchingPeriodBoundary _ => exact .next (.devSwitchingPeriodBoundary h)
  | catchUndershoot _ => exact .next (.devCatchUndershoot h)
  | catchOvershoot _ => exact .next (.devCatchOvershoot h)
  | catchRelease _ _ => exact .next (.devCatchRelease h)
  | catchExpired _ => exact .next (.devCatchExpired h)
  | sense _ => exact .next (.devSense h)
  | railOv _ => exact .next (.devRailOv h)
  | railUv _ => exact .next (.devRailUv h)
  | errorModeSwitch _ => exact .next (.devErrorModeSwitch h)
  | rerangeDone _ => exact .next (.devRerangeDone h)
  | startTimeout _ => exact .next (.devStartTimeout h)
  | pgAssert _ => exact .next (.devPgAssert h)
  | pgDeassert _ => exact .next (.devPgDeassert h)
  | railOc _ => exact .next (.devRailOc h)
  | phFuse _ => exact .next (.devPhFuse h)
  | phStage _ => exact .next (.devPhStage h)
  | phOc _ => exact .next (.devPhOc h)
  | phNeg _ => exact .next (.devPhNeg h)
  | phHot _ => exact .next (.devPhHot h)
  | phImonRange _ => exact .next (.devPhImonRange h)
  | phShare _ => exact .next (.devPhShare h)
  | tfltSample _ _ => exact .next (.devTfltSample h)
  | hello _ _ => exact .next (.devHello h)
  | stepFrame _ _ => exact .next (.devStepFrame h)
  | vidFrame _ _ => exact .next (.devVidFrame h)
  | stateFrame _ _ => exact .next (.devStateFrame h)
  | intentFrameBad _ => exact .next (.devIntentFrameBad h)
  | intentSilent _ => exact .next (.devIntentSilent h)
  | intentFrameSend _ => exact .next (.devIntentFrameSend h)
  | current _ => exact .next (.devCurrent h)
  | specPrechargeStart _ => exact .next (.devSpecPrechargeStart h)
  | specPrechargeEnd _ => exact .next (.devSpecPrechargeEnd h)
  | retract _ => exact .next (.devRetract h)
  | wakeHoldEnd _ => exact .next (.devWakeHoldEnd h)
  | correctionUpdate _ _ => exact .next (.devCorrectionUpdate h)
  | sliceDrift _ _ => exact .next (.devSliceDrift h)
  | calSliceEnd _ _ => exact .next (.devCalSliceEnd h)
  | scvConversion _ _ _ => exact .next (.devScvConversion h)
  | seqPassEnd _ => exact .next (.devSeqPassEnd h)
  | injResult _ => exact .next (.devInjResult h)
  | icvPeriodEnd _ _ _ => exact .next (.devIcvPeriodEnd h)
  | tempStale _ => exact .next (.devTempStale h)
  | packInsert _ => exact .next (.devPackInsert h)
  | sageSettlingEnd _ => exact .next (.devSageSettlingEnd h)
  | packRemove _ => exact .next (.devPackRemove h)
  | sageTempStale _ => exact .next (.devSageTempStale h)
  | restPoint _ => exact .next (.devRestPoint h)
  | forcedEmpty _ => exact .next (.devForcedEmpty h)
  | impQualify _ => exact .next (.devImpQualify h)
  | impMeasureEnd _ => exact .next (.devImpMeasureEnd h)
  | sageRecordBuild _ => exact .next (.devSageRecordBuild h)
  | sageRecordWrite _ => exact .next (.devSageRecordWrite h)
  | faultOccurrence => exact .next (.devFaultOccurrence h)
  | mergeWindowClose _ => exact .next (.devMergeWindowClose h)
  | lockstep => exact .next (.devLockstep h)
  | clkRoot _ => exact .next (.devClkRoot h)
  | thymeBroadcast _ => exact .next (.devThymeBroadcast h)
  | ppsEdge => exact .next (.devPpsEdge h)
  | ppsWindowMiss => exact .next (.devPpsWindowMiss h)
  | timerFire _ => exact .next (.devTimerFire h)
  | regionSample _ _ => exact .next (.devRegionSample h)
  | regionFault _ => exact .next (.devRegionFault h)
  | linkLost _ => exact .next (.devLinkLost h)
  | linkError _ => exact .next (.devLinkError h)
  | linkReturn _ => exact .next (.devLinkReturn h)
  | flitSlot => exact .next (.devFlitSlot h)
  | codewordReceive _ _ => exact .checked (.devCodewordReceive h)
  | peerCtrl _ => exact .checked (.devPeerCtrl h)
  | peerTrain _ => exact .checked (.devPeerTrain h)
  | linkUp => exact .next (.devLinkUp h)
  | trainTimeout => exact .next (.devTrainTimeout h)
  | streamPeer => exact .next (.devStreamPeer h)
  | streamLane _ => exact .next (.devStreamLane h)
  | blockFlush _ _ => exact .next (.devBlockFlush h)
  | decimationChange _ => exact .next (.devDecimationChange h)
  | twTimeout _ => exact .next (.devTwTimeout h)
  | idleSeen _ => exact .next (.devIdleSeen h)
  | sdaFall _ => exact .next (.devSdaFall h)
  | attention _ => exact .next (.devAttention h)
  | busClear _ => exact .next (.devBusClear h)
  | busClearEnd _ _ _ => exact .next (.devBusClearEnd h)
  | busHeld _ => exact .next (.devBusHeld h)
  | alertResponseRead _ _ => exact .next (.devAlertResponseRead h)
  | attentionSignal _ => exact .next (.devAttentionSignal h)
  | alertResponse _ _ => exact .next (.devAlertResponse h)
  | transferStart _ => exact .next (.devTransferStart h)
  | transferEnd _ _ => exact .next (.devTransferEnd h)
  | arbLost _ _ => exact .next (.devArbLost h)
  | targetWrite _ _ _ _ => exact .next (.devTargetWrite h)
  | targetRead _ _ _ => exact .next (.devTargetRead h)
  | targetStretchTimeout _ => exact .next (.devTargetStretchTimeout h)
  | mailboxSubmit _ => exact .next (.devMailboxSubmit h)
  | roleChange _ => exact .next (.devRoleChange h)
  | page _ _ => exact .next (.devPage h)
  | clearFaults _ => exact .next (.devClearFaults h)
  | capability _ => exact .next (.devCapability h)
  | voutMode _ => exact .next (.devVoutMode h)
  | statusByte _ => exact .next (.devStatusByte h)
  | statusWord _ => exact .next (.devStatusWord h)
  | readVin _ => exact .next (.devReadVin h)
  | readIin _ => exact .next (.devReadIin h)
  | readVout _ => exact .next (.devReadVout h)
  | readIout _ => exact .next (.devReadIout h)
  | readTemperature1 _ => exact .next (.devReadTemperature1 h)
  | readPout _ => exact .next (.devReadPout h)
  | readPin _ => exact .next (.devReadPin h)
  | pmbusRevision _ => exact .next (.devPmbusRevision h)
  | insnNop _ => exact .next (.devInsnNop h)
  | mov _ => exact .next (.devMov h)
  | wid _ => exact .next (.devWid h)
  | sxt _ => exact .next (.devSxt h)
  | zxt _ => exact .next (.devZxt h)
  | add _ => exact .next (.devAdd h)
  | sub _ => exact .next (.devSub h)
  | mul _ => exact .next (.devMul h)
  | imul _ => exact .next (.devImul h)
  | mac _ => exact .next (.devMac h)
  | msu _ => exact .next (.devMsu h)
  | sat _ => exact .next (.devSat h)
  | abs _ => exact .next (.devAbs h)
  | neg _ => exact .next (.devNeg h)
  | asl _ => exact .next (.devAsl h)
  | asr _ => exact .next (.devAsr h)
  | lsr _ => exact .next (.devLsr h)
  | min _ => exact .next (.devMin h)
  | max _ => exact .next (.devMax h)
  | lim _ => exact .next (.devLim h)
  | cmp _ => exact .next (.devCmp h)
  | tst _ => exact .next (.devTst h)
  | and _ => exact .next (.devAnd h)
  | or _ => exact .next (.devOr h)
  | xor _ => exact .next (.devXor h)
  | not _ => exact .next (.devNot h)
  | bset _ => exact .next (.devBset h)
  | bclr _ => exact .next (.devBclr h)
  | btst _ => exact .next (.devBtst h)
  | br _ => exact .next (.devBr h)
  | bc _ => exact .next (.devBc h)
  | call _ => exact .next (.devCall h)
  | ret _ => exact .next (.devRet h)
  | loop _ => exact .next (.devLoop h)
  | rte _ => exact .next (.devRte h)
  | wait _ => exact .next (.devWait h)
  | insnFence _ => exact .next (.devInsnFence h)
  | swap _ => exact .next (.devSwap h)
  | addx _ => exact .next (.devAddx h)
  | divs _ => exact .next (.devDivs h)
  | waitWake _ => exact .next (.devWaitWake h)
  | waitTimeout _ => exact .next (.devWaitTimeout h)
  | accessComplete _ _ => exact .next (.devAccessComplete h)
  | hostWindowTimeout _ => exact .next (.devHostWindowTimeout h)
  | watchdogExpire _ => exact .next (.devWatchdogExpire h)
  | scrubVisit _ => exact .next (.devScrubVisit h)
  | initDone _ => exact .next (.devInitDone h)
  | bankCopyDone _ => exact .next (.devBankCopyDone h)
  | refclkReturn _ => exact .next (.devRefclkReturn h)
  | rootPllLock => exact .next (.devRootPllLock h)
  | attentionHoldEnd _ => exact .next (.devAttentionHoldEnd h)
  | sdaRise _ => exact .next (.devSdaRise h)

/-- Settles O5: a tick keeps the form, and every command does. -/
theorem canonicalFormIsKept : Obligations.CanonicalFormIsKept := by
  intro s t h
  obtain ⟨d, q⟩ := s
  cases q with
  | nil => exact NextCanonical.next (Dev.canonical.devTick h) t
  | cons c rest => exact nextCanonical_exec c (s := ⟨d, rest⟩) h t

end Sys2Proof.Machine
end
